-- ==== Sys2Proof/Syntax.lean ====
section
/-! DEFINITION. The commands that the block takes: one constructor for each row of the command table, and the types of their operands. -/

namespace Sys2Proof

/-- Who issues a register access: a host port, a logic engine or the Keeper (R54). -/
inductive Requester where
  | host (p : Fin 2)
  | engine (e : Fin 4)
  | keeper
  deriving DecidableEq, Repr

/-- A register page: block code and instance (R46, R47). -/
structure Page where
  code : Nat
  inst : Nat := 0
  deriving DecidableEq, Repr

/-- The clock islands of R12. -/
inductive Island where
  | solve | loop | logic | net | time | host | keep | field | aon
  deriving DecidableEq, Repr

/-- The two descriptor-set slots of R103. -/
inductive Slot where
  | a | b
  deriving DecidableEq, Repr

/-- An output tile of a product block (R133): the operand tiles whose products it sums, each of 64 elements row by row, and the 64 accumulators that the lane returns. -/
structure TileOut where
  ops : List (List Int × List Int)
  acc : List Int
  deriving DecidableEq, Repr

/-- What a lane returns for a block (R133, R134, R136). -/
inductive BlockResult where
  /-- A product block: its output tiles. -/
  | product (tiles : List TileOut)
  /-- A factorisation or tsolve block: the rows of the factor L that it has formed or used, diagonal in UQ7.24, the rest in Q15.16. -/
  | factor (rows : List (List Int))
  /-- The block has read data with an uncorrectable SECDED error. -/
  | memError
  deriving DecidableEq, Repr

/-- The two slot fields whose writes go to staging and active configuration (R211). -/
inductive LiveReg where
  | spFixed | manOut
  deriving DecidableEq, Repr

/-- A writer of a PWM duty: a requester through the page, or a loop route (R234). -/
inductive DutyWriter where
  | page (r : Requester)
  | route
  deriving DecidableEq, Repr

/-- The addressing modes of R250. -/
inductive AM where
  | dir | idx | ind | imm
  deriving DecidableEq, Repr

/-- What a write reaches that returns CHG_STATE to EMPTY (R278). -/
inductive ChgReg where
  | loadDst | loadWords | region
  deriving DecidableEq, Repr

/-- A block of a descriptor: its stage, and its number among the blocks of the phase in progress (R133, R136). -/
structure BlockAt where
  stage : Fin 257
  blk : Nat
  deriving DecidableEq, Repr

/-- A Delay_Req or a Pdelay_Req as it is received: which of the two, the port identity of its sender, its sequence number (R389). -/
structure DelayReq where
  pdelay : Bool
  src : BitVec 80
  seq : BitVec 16
  deriving DecidableEq, Repr

/-- The causes of failure of a logic engine (R286), the expired watchdog apart. -/
inductive EngineFault where
  | bankError | progError | selfTest
  deriving DecidableEq, Repr

/-- The staging fields of the calendar before STG_CENT (R401). -/
inductive StgReg where
  | sec | min | hour | day | month | year
  deriving DecidableEq, Repr

/-- How a transmission attempt on CAN ended (R416, R417). -/
inductive CanTxResult where
  | success | lostArbitration
  /-- A bit error in the data field: recessive sent, dominant seen (R424). -/
  | dataBitError
  /-- An ACK error, with or without a dominant bit seen during the error flag (R422). -/
  | ackError (dominant : Bool)
  /-- Any other error detected as transmitter. -/
  | otherError
  /-- A stuff error during arbitration that ISO 11898-1 exempts from the rise of TEC (R422). -/
  | exemptError
  deriving DecidableEq, Repr

/-- The end of a transmission attempt on CAN: how it ended, how many ns ago its start of frame showed (R421), and the delay that it measured from CAN_TX to CAN_RX, in FIELD cycles (R414). -/
structure CanAttempt where
  res : CanTxResult
  back : Nat
  delay : Option Nat
  deriving DecidableEq, Repr

/-- A receive error on CAN (R422). -/
inductive CanErr where
  | error | dominantAfterFlag
  deriving DecidableEq, Repr

/-- The memory that the patrol scrub reads (R535). -/
inductive ScrubMem where
  | solver | general | loop | rc | prog | data | ret | image | ring | patch
  deriving DecidableEq, Repr

/-- What a scrub read finds (R535). -/
inductive ScrubResult where
  | clean | corrected | uncorrectable
  deriving DecidableEq, Repr

/-- The kinds of vote request that a witness receives (R489). -/
inductive VoteKind where
  | retain | take | transfer
  deriving DecidableEq, Repr

/-- A vote request: pair by its lower address, requesting unit, the unit that a transfer names, kind and epoch (R489). -/
structure VoteReq where
  kind : VoteKind
  pair : Nat
  from_ : Nat
  to_ : Nat
  epoch : Word
  deriving DecidableEq, Repr

/-- An NMEA 0183 ZDA sentence (R379): whether its checksum is good, and its date and time as decimal numbers. -/
structure Zda where
  ok : Bool
  hour : Nat
  min : Nat
  sec : Nat
  day : Nat
  month : Nat
  year : Nat
  deriving DecidableEq, Repr

/-- Station states (R307). -/
inductive StnState where
  | off | joining | run | missing | down
  deriving DecidableEq, Repr

/-- Station qualities (R307). -/
inductive StnQuality where
  | absent | fresh | stale
  deriving DecidableEq, Repr

/-- Roles of a unit (R486). -/
inductive Role where
  | single | syncing | standby | active | fenced
  deriving DecidableEq, Repr

/-- A plan held by the handover. -/
structure PlanX where
  /-- 0 dispatch, 1 to 8 contingency 0 to 7 (R170). -/
  src : Nat := 0
  /-- PERIOD_SEQ (R144). -/
  seq : Word := 0
  /-- SET_ID (R144). -/
  setId : Word := 0
  /-- final grade (R149). -/
  grade : Nat := 2
  /-- padded n_x (R79). -/
  nx : Nat := 0
  /-- padded n_z (R72). -/
  nz : Nat := 0
  /-- stage vectors (R144). -/
  z : List (List Int) := []
  /-- DURATION_MS of stages 0 to N - 1 (R81). -/
  dur : List Nat := []
  /-- mantissa and exponent of each variable (R86). -/
  scale : List (Nat × Int) := []
  /-- instant of stage 0, ns (R153). -/
  start : Nat := 0
  /-- POT bank (R155). -/
  bank : Nat := 0
  /-- snapshot instant of its period (R166). -/
  snap : Nat := 0
  /-- its result header, bytes 0x000 to 0x5FF (R168). -/
  hdr : List Nat := []
  deriving DecidableEq, Repr

/-- What a set of staged plan values was prepared for: its instant, and of the plan its source, PERIOD_SEQ, SET_ID, stage and bank (R157). -/
structure StageKey where
  at_ : Nat := 0
  src : Nat := 0
  seq : Word := 0
  setId : Word := 0
  stage : Nat := 0
  bank : Nat := 0
  deriving DecidableEq, Repr

/-- The handover beside its registers. -/
structure HoX where
  /-- plan in force (R153). -/
  inForce : Option PlanX := none
  /-- last accepted plan (R154). -/
  lastAccepted : Option PlanX := none
  /-- this period's published dispatch result (R151). -/
  stagedPlan : Option PlanX := none
  /-- this period's dispatch: instant, STATUS, grade (R151). -/
  published : Option (Nat × Nat × Nat) := none
  /-- last completed results, by descriptor (R100). -/
  resPlans : List (Nat × PlanX) := []
  /-- TRIGGER of each contingency of the active set (R97). -/
  resTrigger : List (Nat × Word) := []
  /-- plan values in force, Q15.16 (R157). -/
  values : List (Nat × Word) := []
  /-- plan values staged (R157). -/
  staged : List (Nat × Word) := []
  /-- rate table in force (R158). -/
  rates : List Word := []
  /-- rate table staged (R158). -/
  ratesStaged : List Word := []
  /-- groups that a POT entry feeds (R158). -/
  fed : List Nat := []
  /-- latched plant and its instant (R163). -/
  trips : List (Nat × Nat) := []
  /-- TRIP_REQ at the last sample (R163). -/
  reqPrev : Word := 0
  /-- selected contingency, application instant, PARTIAL_COVER (R165). -/
  selected : Option (Nat × Nat × Bool) := none
  /-- bank of the last plan in force (R161). -/
  lastBank : Nat := 0
  /-- POT words: 4096 x bank + 4 x index + word (R155). -/
  pot : List (Nat × Word) := []
  /-- POT_TAG of each bank (R155). -/
  tag : List (Nat × Word) := []
  /-- POT_COUNT of each bank (R155). -/
  count : List (Nat × Word) := []
  /-- the plan rhythm pauses for a firmware switch (R151). -/
  pause : Bool := false
  /-- plan buffer of the staged dispatch plan (R168). -/
  bufD : Nat := 1
  /-- plan buffer of the staged contingency plan (R168). -/
  bufC : Nat := 2
  /-- values in force when the safe schedule began (R161). -/
  held : List (Nat × Word) := []
  /-- the selected contingency plan (R165). -/
  selPlan : Option PlanX := none
  /-- this period's dispatch was abandoned (R171). -/
  aband : Bool := false
  /-- apply time of the plan in force, ns (R168). -/
  applied : Nat := 0
  /-- what the staged values were prepared for; none for values of the safe schedule (R157). -/
  stagedFor : Option StageKey := none
  /-- clamps of the staged values and the last one clamped (R156). -/
  stagedClamps : Nat × Nat := (0, 0)
  /-- the present plan period paused for a firmware switch (R151). -/
  paused : Bool := false
  /-- instant of the last plan instant (R24). -/
  planAt : Option Nat := none
  /-- device-written words of the plan-interface area before that instant (R24, R175). -/
  prevPlan : List (Nat × Word) := []
  deriving DecidableEq, Repr

/-- An entry of the force table. -/
structure Force where
  /-- operand address (R281). -/
  addr : Nat := 0
  /-- word force (R281). -/
  word : Bool := false
  /-- forced value (R281). -/
  val : Word := 0
  /-- active (R281). -/
  on : Bool := false
  /-- ORPHANED (R283). -/
  orphaned : Bool := false
  deriving DecidableEq, Repr

/-- A PTP data set. -/
structure Dataset where
  /-- priority1 (R388). -/
  prio1 : Nat := 128
  /-- clockClass (R388). -/
  cls : Nat := 248
  /-- clockAccuracy (R388). -/
  acc : Nat := 254
  /-- offsetScaledLogVariance (R388). -/
  var : Nat := 65535
  /-- priority2 (R388). -/
  prio2 : Nat := 128
  /-- clockIdentity (R388). -/
  ident : Nat := 0
  /-- stepsRemoved (R388). -/
  steps : Nat := 0
  deriving DecidableEq, Repr

/-- A CAN frame. -/
structure CanFrame where
  /-- identifier (R415). -/
  ident : Nat := 0
  /-- extended (R415). -/
  ide : Bool := false
  /-- remote (R415). -/
  rtr : Bool := false
  /-- DLC (R415). -/
  dlc : Nat := 0
  /-- FD format (R415). -/
  fdf : Bool := false
  /-- bit rate switch (R415). -/
  brs : Bool := false
  /-- ESI (R412). -/
  esi : Bool := false
  /-- data bytes (R415). -/
  data : List Nat := []
  deriving DecidableEq, Repr

/-- A CAN frame that is heard, and how many ns ago its start of frame showed on CAN_RX (R421). -/
structure CanHeard where
  frame : CanFrame
  back : Nat
  deriving DecidableEq, Repr

/-- An Ethernet frame. -/
structure EthFrame where
  /-- destination address (R441). -/
  dst : Nat := 0
  /-- source address (R441). -/
  src : Nat := 0
  /-- VLAN identifier of the tag (R441). -/
  vid : Option Nat := none
  /-- PCP of the tag (R441). -/
  pcp : Nat := 0
  /-- EtherType (R442). -/
  etype : Nat := 0
  /-- UDP port 319 or 320 over IPv4 (R442). -/
  udpPtp : Bool := false
  /-- of a PTP frame: an event message (R443). -/
  ptpEvent : Bool := false
  /-- a pause frame (R437). -/
  pause : Bool := false
  /-- bytes from destination to FCS (R438). -/
  len : Nat := 64
  /-- good FCS (R438). -/
  fcsOk : Bool := true
  /-- PRP or HSR sequence and LAN B identifier (R449). -/
  redSeq : Option (Nat × Bool) := none
  /-- payload bytes (R313). -/
  data : List Nat := []
  deriving DecidableEq, Repr

/-- A station-exchange frame. -/
structure SxeFrame where
  /-- TYPE (R313). -/
  ftype : Nat := 0
  /-- STATION (R313). -/
  station : Nat := 0
  /-- CYCLE (R313). -/
  cycle : Word := 0
  /-- TIME, ns (R313). -/
  time : Nat := 0
  /-- FLAGS (R314). -/
  flags : BitVec 8 := 0
  /-- ECHO (R314). -/
  echo : Word := 0
  /-- destination address (R314). -/
  dst : Nat := 0
  /-- source address (R313). -/
  src : Nat := 0
  /-- EtherType (R313). -/
  etype : Nat := 0
  /-- VERSION (R313). -/
  version : Nat := 1
  /-- WORDS (R313). -/
  words : Nat := 0
  /-- DATA (R313). -/
  data : List Word := []
  deriving DecidableEq, Repr

/-- A station's status. -/
structure StationX where
  /-- STATE (R307). -/
  st : StnState := .off
  /-- QUALITY (R307). -/
  q : StnQuality := .absent
  /-- MISSED_RUN (R307). -/
  missedRun : Nat := 0
  /-- IN_FLAGS (R314). -/
  inFlags : BitVec 4 := 0
  /-- PATH_A (R315). -/
  pathA : Bool := false
  /-- PATH_B (R315). -/
  pathB : Bool := false
  /-- ECHO_LAST (R310). -/
  echoLast : Word := 0
  /-- OUT_MISS (R310). -/
  outMiss : Nat := 0
  /-- successive frames with a wrong ECHO (R310). -/
  missRun : Nat := 0
  /-- MISSED_TOTAL (R318). -/
  missedTotal : Nat := 0
  /-- cycle of the last accepted INPUT, none before the first (R314, R318). -/
  lastCycle : Option Word := none
  /-- a frame of the cycle in progress has been accepted (R302). -/
  accepted : Bool := false
  /-- the next OUTPUT carries FIRST (R307). -/
  first : Bool := false
  /-- ECHO is not checked for the next frame (R310). -/
  echoSkip : Bool := false
  /-- cycle of the last OUTPUT sent (R310). -/
  sentIn : Option Word := none
  /-- consecutive cycles on one path (R315). -/
  onePath : Nat := 0
  /-- PATH_DEGRADED has been raised (R315). -/
  degraded : Bool := false
  /-- POLICY in use is SUBST (R304, R311). -/
  subst : Bool := false
  /-- PROFILE in use (R304, R311). -/
  profile : Nat := 0
  deriving DecidableEq, Repr

/-- A chain heartbeat. -/
structure Heartbeat where
  /-- ROLE (R488). -/
  role : Role := .single
  /-- PAIR_EPOCH (R488). -/
  epoch : Word := 0
  /-- own sequence (R488). -/
  seq : Word := 0
  /-- sequence of the last one received (R488). -/
  echo : Word := 0
  deriving DecidableEq, Repr

/-- A member of the chain. -/
structure ChainUnit where
  /-- clockIdentity (R482). -/
  serial : Nat := 0
  /-- bound address (R482). -/
  addr : Nat := 0
  /-- BIND_GEN (R482). -/
  gen : Nat := 0
  /-- PROTO_VER (R482). -/
  proto : Nat := 0x0100
  /-- ROLE (R482). -/
  role : Role := .single
  /-- PAIR_EPOCH (R482). -/
  epoch : Word := 0
  /-- PAIR_EN (R483). -/
  pairEn : Bool := false
  /-- position in DOWN order from this unit (R483). -/
  order : Nat := 0
  /-- 0 none, 1 HOLDOVER, 2 LOCKED on GNSS (R485). -/
  tmk : Nat := 0
  /-- reached through the UP port (R480). -/
  up : Bool := false
  /-- its binding table: address and serial (R482). -/
  table : List (Nat × Nat) := []
  deriving DecidableEq, Repr

/-- A chain frame. -/
structure ChainFrame where
  /-- DST (R478). -/
  dst : Nat := 0
  /-- SRC (R478). -/
  src : Nat := 0
  /-- CLASS (R478). -/
  cls : Nat := 0
  /-- TYPE (R478). -/
  typ : Nat := 0
  /-- HOPS (R478). -/
  hops : Nat := 16
  /-- FLAGS bit 0 (R478). -/
  up : Bool := false
  /-- SEQ (R478). -/
  seq : Word := 0
  /-- good CRC (R478). -/
  crcOk : Bool := true
  /-- PAYLOAD (R478). -/
  payload : List Nat := []
  deriving DecidableEq, Repr

/-- A mirror cut. -/
structure CutX where
  /-- cut number (R492). -/
  seq : Word := 0
  /-- swap marker (R496). -/
  swap : Bool := false
  /-- a full copy: every item whole (R492). -/
  whole : Bool := false
  /-- loop memory words (R492). -/
  words : List (Nat × Word) := []
  /-- repetitive-controller words (R492). -/
  rc : List (Nat × Word) := []
  /-- logic data words (R492). -/
  data : List (Nat × Word) := []
  /-- retentive words (R492). -/
  ret : List (Nat × Word) := []
  /-- station input words (R492). -/
  inImg : List (Nat × Word) := []
  /-- station output words (R492). -/
  outImg : List (Nat × Word) := []
  /-- station table words (R492). -/
  table : List (Nat × Word) := []
  /-- station states and qualities (R492). -/
  stations : List (Nat × StationX) := []
  /-- substitute profile words (R492). -/
  prof : List (Nat × Word) := []
  /-- plan map words (R492). -/
  pmap : List (Nat × Word) := []
  /-- PRP or HSR send sequences (R492). -/
  sendSeq : List (Nat × Nat) := []
  /-- force table entries (R492). -/
  forces : List (Nat × Force) := []
  /-- Q image of each engine (R492). -/
  qImgs : List (Nat × Nat) := []
  /-- mirrored register fields, by key (R492). -/
  regs : List (Nat × Word) := []
  /-- plan in force, staged values, rate tables, POT banks, trips and stage timing (R492). -/
  ho : Option HoX := none
  deriving DecidableEq, Repr

/-- The commands of the block. A command that an instant or the outside world brings carries the time-base instant `t`, in ns, at which it comes (assumption 1); an instruction of a logic engine carries the engine. -/
inductive Instr where
  /-- REGISTER_WRITE (R62): A write to a register with no row of its own passes the ownership, access and guard checks, applies its fields with clamping and counts in PG_SEQ.COUNT. -/
  | registerWrite (t : Nat) (r : Requester) (addr : BitVec 32) (be : BitVec 4) (v : Word)
  /-- GATED_ACCESS (R18): An access to a page whose island is gated or in reset is answered by the fabric with 0 or discarded, and is counted with its address. -/
  | gatedAccess (t : Nat) (r : Requester) (addr : BitVec 32) (write : Bool)
  /-- UNMAPPED_ACCESS (R48): An access to a reserved address reads 0 or is discarded, and is counted in UNMAPPED_ACCESS. -/
  | unmappedAccess (t : Nat) (r : Requester) (addr : BitVec 32) (write : Bool)
  /-- AON_WRITE_DELIVERY (R19): A write that the AON gateway has taken reaches the AON island within 250 ns. -/
  | aonWriteDelivery (t : Nat)
  /-- WIDE_LOW_READ (R50): A read of the low word of a wide value latches the high word for that requester. -/
  | wideLowRead (t : Nat) (r : Requester) (addr : BitVec 32)
  /-- STAGED_WORD_DISCARD (R50): A staged low word that has not been committed within 1 ms is discarded. -/
  | stagedWordDiscard (t : Nat) (pg : Page)
  /-- PLL_LOCKED (R12): An island PLL reports lock, and PCR releases the island from reset. -/
  | pllLocked (t : Nat) (isl : Island)
  /-- PLL_LOSS (R536): A PLL loses lock; its island is held as gated, the loss is counted and HEALTH_WARN is raised. -/
  | pllLoss (t : Nat) (isl : Island)
  /-- ERR_CLR (R51): Writing PG_CTRL.ERR_CLR = 1 clears every field of PG_ERRCNT. -/
  | errClr (t : Nat) (r : Requester) (pg : Page)
  /-- CLAMP_CLR (R51): Writing PG_CTRL.CLAMP_CLR = 1 clears PG_CLAMP. -/
  | clampClr (t : Nat) (r : Requester) (pg : Page)
  /-- OWNER_REQ (R57): A requester asks for ownership of a page; it is granted at once or left pending, and OWNER_REQUESTED is raised. -/
  | ownerReq (t : Nat) (r : Requester) (pg : Page)
  /-- FREEZE (R51): Writing PG_CTRL.FREEZE holds or releases the page's status and counter fields. -/
  | freeze (t : Nat) (r : Requester) (pg : Page) (on : Bool)
  /-- FREEZE_EXPIRY (R51): FREEZE clears 10 ms after it was set. -/
  | freezeExpiry (t : Nat) (pg : Page)
  /-- SOFT_RESET (R53): A soft reset returns a block's register fields and its operation in progress to reset, and keeps the state that R569 lists. -/
  | softReset (t : Nat) (r : Requester) (pg : Page)
  /-- SOFT_RESET_DONE (R53): A soft reset completes within 20 µs and BUSY clears. -/
  | softResetDone (t : Nat) (pg : Page)
  /-- ENABLE (R51): Writing PG_CTRL.ENABLE starts or idles a block, with the per-block effects of its chapter and R567. -/
  | enable (t : Nat) (r : Requester) (pg : Page) (on : Bool)
  /-- EVT_PEND_CLEAR (R52): A W1C write to PG_EVT_PEND clears pending event bits. -/
  | evtPendClear (t : Nat) (r : Requester) (pg : Page) (v : Word)
  /-- LOCK_KEY_WRITE (R60): A key write to PG_LOCK advances, opens, closes or breaks the lock sequence. -/
  | lockKeyWrite (t : Nat) (r : Requester) (pg : Page) (key : BitVec 16)
  /-- LOCK_TIMEOUT (R61): An open lock closes 10 ms after it was opened. -/
  | lockTimeout (t : Nat) (pg : Page)
  /-- OWNER_WRITE (R57): The owner or the Keeper writes PG_OWNER and ownership passes, with the effects of R58. -/
  | ownerWrite (t : Nat) (r : Requester) (pg : Page) (v : BitVec 4)
  /-- OWN_TIMEOUT_GRANT (R57): OWN_TIMEOUT elapses on a pending ownership request and the requester becomes owner. -/
  | ownTimeoutGrant (t : Nat) (pg : Page)
  /-- SEQ_GUARD_ARM (R63): A write to PG_SEQ.GUARD arms a sequence guard for the writer. -/
  | seqGuardArm (t : Nat) (r : Requester) (pg : Page) (v : BitVec 16)
  /-- SOLVER_SRAM_HOST_WRITE (R76): A host write through BAR2 to solver SRAM is accepted or discarded word by word according to ownership and region. -/
  | solverSramHostWrite (t : Nat) (p : Fin 2) (addr : BitVec 32) (words : List (BitVec 8 × BitVec 64))
  /-- SET_REGION_WRITE (R109): A write to a DSQ set-region register is refused while ENABLE = 1 for active regions, and otherwise may empty the standby slot. -/
  | setRegionWrite (t : Nat) (r : Requester) (reg : Fin 8) (v : Word)
  /-- SET_CHECK (R103): SET_CMD = CHECK starts, or restarts, the check of a standby slot. -/
  | setCheck (t : Nat) (r : Requester) (slot : Slot)
  /-- SET_CHECK_DONE (R105): A set check completes: the slot becomes CHECKED, or EMPTY with code, item and offset. -/
  | setCheckDone (t : Nat) (slot : Slot)
  /-- SET_ARM (R103): SET_CMD = ARM arms a CHECKED standby slot. -/
  | setArm (t : Nat) (r : Requester) (slot : Slot)
  /-- SET_DISARM (R103): SET_CMD = DISARM returns an ARMED slot to CHECKED. -/
  | setDisarm (t : Nat) (r : Requester) (slot : Slot)
  /-- SET_CLEAR (R103): SET_CMD = CLEAR returns a standby slot to EMPTY. -/
  | setClear (t : Nat) (r : Requester) (slot : Slot)
  /-- SET_CMD_NONE (R108): SET_CMD = NONE only selects the slot that STBY_STATE shows. -/
  | setCmdNone (t : Nat) (r : Requester) (slot : Slot)
  /-- SNAPSHOT_INSTANT (R26): At a snapshot instant, descriptors still running are abandoned, an armed set switches and the snapshot and forecast copies are taken. -/
  | snapshotInstant (t : Nat)
  /-- DESC_WINDOW_OPEN (R112): A descriptor window opens and DSQ starts that descriptor. -/
  | descWindowOpen (t : Nat)
  /-- BLOCK_DONE (R133): A lane returns a block; DSQ checks its checksums and either uses the result or deals a re-execution. -/
  | blockDone (t : Nat) (lane : Fin 18) (at_ : BlockAt) (res : BlockResult) (endsPhase : Bool)
  /-- ITER_DEADLINE (R141): The iteration deadline falls, the current iteration is discarded or abandoned, and the final checks run. -/
  | iterDeadline (t : Nat)
  /-- DESC_WINDOW_END (R113): A descriptor's window ends and its result is published, graded and recorded. -/
  | descWindowEnd (t : Nat)
  /-- RETIRE_COMMIT (R138): Axolotl's retirement entry is committed to both MRAM devices. -/
  | retireCommit (t : Nat) (lane : Fin 18)
  /-- FAIL_COUNT_DECAY (R138): A lane's FAIL_COUNT falls by 1 after 86,400 s of operating time. -/
  | failCountDecay (t : Nat)
  /-- SPARE_SELFTEST (R140): A known-answer test runs on each spare lane after the last window closes. -/
  | spareSelftest (t : Nat)
  /-- SPARE_SELFTEST_DONE (R140): A spare's self-test completes, and a spare that fails is retired. -/
  | spareSelftestDone (t : Nat) (lane : Fin 18) (pass : Bool)
  /-- RETIRE_CMD (R140): A host command retires a lane with cause COMMAND. -/
  | retireCmd (t : Nat) (r : Requester) (lane : Fin 18)
  /-- CONFLICT_WINDOW (R132): A window of 65,536 SOLVE cycles ends, and the bank-conflict fraction is updated. -/
  | conflictWindow (t : Nat) (frac : BitVec 16)
  /-- DSQ_CTR_CLR (R146): CTR_CLR clears the DSQ statistics counters. -/
  | dsqCtrClr (t : Nat) (r : Requester)
  /-- STAGE_PREPARE (R157): The handover prepares the staged plan values at least 100 µs before an apply instant or stage boundary. -/
  | stagePrepare (t : Nat)
  /-- APPLY_INSTANT (R151): At an apply instant the handover decides the period and applies the accepted plan, or continues the tail or safe schedule. -/
  | applyInstant (t : Nat)
  /-- STAGE_BOUNDARY (R153): A stage boundary of the plan in force brings the next stage into force, and may exhaust the tail or find no POT bank. -/
  | stageBoundary (t : Nat)
  /-- TRIP_SET (R163): A write to TRIP_SET latches plant trips and selects a contingency. -/
  | tripSet (t : Nat) (r : Requester) (v : Word)
  /-- TRIP_REQ_SAMPLE (R163): The handover samples TRIP_REQ every 10 µs and latches each rising bit. -/
  | tripReqSample (t : Nat)
  /-- CONT_APPLIED (R165): At τ + TRIP_APPLY_US the selected contingency is tested again and applied. -/
  | contApplied (t : Nat)
  /-- TRIP_STATE_CLEAR (R163): A W1C write clears latched trip bits. -/
  | tripStateClear (t : Nat) (r : Requester) (v : Word)
  /-- POT_ENTRY_COMMIT (R155): A write of POT_W3 commits a POT entry and advances INDEX, or is refused while the bank is in use. -/
  | potEntryCommit (t : Nat) (r : Requester) (v : Word)
  /-- POT_TAG_WRITE (R155): A write of POT_TAG sets the bank's tag, or is refused while the bank is in use. -/
  | potTagWrite (t : Nat) (r : Requester) (v : Word)
  /-- POT_COUNT_WRITE (R155): A write of POT_COUNT sets the bank's entry count, or is refused while the bank is in use. -/
  | potCountWrite (t : Nat) (r : Requester) (v : Word)
  /-- HO_EVT_CLEAR (R171): A W1C write to HO_EVT_PEND clears handover pending bits. -/
  | hoEvtClear (t : Nat) (r : Requester) (v : Word)
  /-- LOOP_SAMPLE (R175): At a loop's sample instant its inputs are latched, a pending commit takes effect and an update is queued, displacing an unstarted one. -/
  | loopSample (t : Nat) (g : Fin 512)
  /-- LOOP_UPDATE_START (R176): A cluster becomes free and starts the oldest queued loop update. -/
  | loopUpdateStart (t : Nat) (c : Fin 4)
  /-- LOOP_UPDATE_DONE (R193): A loop update completes: setpoint path, biquads, PID, limits and the repetitive controller, and it is applied late if its output instant has passed. -/
  | loopUpdateDone (t : Nat) (c : Fin 4)
  /-- LOOP_OUTPUT (R200): At the output instant the loop's routes write their converted outputs and hammer values are published. -/
  | loopOutput (t : Nat) (g : Fin 512)
  /-- LOOP_SEL (R210): A write to LOOP_SEL loads the staging copy from the selected slot. -/
  | loopSel (t : Nat) (r : Requester) (c : Fin 4) (slot : Fin 128)
  /-- COMMIT (R210): LOOP_CMD = COMMIT makes a loop's staging copy pending, or refuses it. -/
  | commit (t : Nat) (r : Requester) (c : Fin 4)
  /-- DISCARD (R210): LOOP_CMD = DISCARD reloads the staging copy. -/
  | discard (t : Nat) (r : Requester) (c : Fin 4)
  /-- RC_CLEAR (R206): LOOP_CMD = RC_CLEAR starts zeroing the loop's repetitive-controller buffer at its next sample instant. -/
  | rcClear (t : Nat) (r : Requester) (c : Fin 4)
  /-- RC_CLEAR_DONE (R206): The buffer clear completes, and correction and learning resume. -/
  | rcClearDone (t : Nat) (g : Fin 512)
  /-- LIVE_FIELD_WRITE (R211): A write of SP_FIXED or MAN_OUT updates both the staging and the active configuration. -/
  | liveFieldWrite (t : Nat) (r : Requester) (c : Fin 4) (reg : LiveReg) (v : Word)
  /-- OUT_DELAY_WRITE (R179): A write of OUT_DELAY_US starts the worst-case run again. -/
  | outDelayWrite (t : Nat) (r : Requester) (c : Fin 4) (v : Word)
  /-- WORST_RUN_DONE (R179): The worst-case run completes and sets WORST_US, MISS_RISK and WORST_RISK. -/
  | worstRunDone (t : Nat) (c : Fin 4)
  /-- TUNE_START (R207): TUNE_CMD = START starts a relay auto-tune on a loop, or refuses it. -/
  | tuneStart (t : Nat) (r : Requester) (c : Fin 4)
  /-- TUNE_ABORT (R207): TUNE_CMD = ABORT ends a running tune with ABORTED. -/
  | tuneAbort (t : Nat) (r : Requester) (c : Fin 4)
  /-- TUNE_APPLY (R208): TUNE_CMD = APPLY writes the proposed gains into the loop at its next sample instant. -/
  | tuneApply (t : Nat) (r : Requester) (c : Fin 4)
  /-- TUNE_TIMEOUT (R207): No relay switch occurs for TIMEOUT_S and the tune fails. -/
  | tuneTimeout (t : Nat) (c : Fin 4)
  /-- SD_FILTER_OUTPUT (R222): A sigma-delta main sinc3 filter completes an output and the channel record is updated. -/
  | sdFilterOutput (t : Nat) (ch : Fin 32) (d : BitVec 32)
  /-- SD_LIMIT_OUTPUT (R224): The limit filter completes an output and LIM and the trip line are evaluated. -/
  | sdLimitOutput (t : Nat) (ch : Fin 32) (d : BitVec 32)
  /-- SD_CLOCK_LOSS (R223): A received group clock shows no rising edge for 1 µs and its channels become faulted. -/
  | sdClockLoss (t : Nat) (grp : Fin 4) (lost : Bool)
  /-- SD_DATA_STUCK (R223): A data input unchanged for 256 modulator clocks makes its channel faulted. -/
  | sdDataStuck (t : Nat) (ch : Fin 32) (stuck : Bool)
  /-- SAR_START_A (R225): Writing START_A soft-triggers SAR sequence A. -/
  | sarStartA (t : Nat) (r : Requester)
  /-- SAR_START_B (R225): Writing START_B soft-triggers SAR sequence B. -/
  | sarStartB (t : Nat) (r : Requester)
  /-- SAR_TIME_TRIGGER (R225): A TIME-trigger instant starts sequence A. -/
  | sarTimeTrigger (t : Nat)
  /-- SAR_CONVERSION_DONE (R227): A SAR slot's code completes and the channel value and fault are updated. -/
  | sarConversionDone (t : Nat) (code : BitVec 16)
  /-- PULSE_EDGE (R228): A filtered selected edge on a pulse input is counted and timestamped. -/
  | pulseEdge (t : Nat) (ch : Fin 16) (fall : Bool)
  /-- PULSE_GATE_END (R229): A gate ends and the channel computes FREQ from the edges since the reference. -/
  | pulseGateEnd (t : Nat) (ch : Fin 16)
  /-- PULSE_TIMEOUT (R230): TMO_MS passes without an edge; FREQ becomes 0 and the channel may fault. -/
  | pulseTimeout (t : Nat) (ch : Fin 16)
  /-- PWM_PERIOD_START (R231): A PWM period starts and the staged duty applies at this update point. -/
  | pwmPeriodStart (t : Nat) (o : Fin 24)
  /-- PWM_CENTRE (R234): A period centre is an update point in CENTRE mode with UPDATE = HALF. -/
  | pwmCentre (t : Nat) (o : Fin 24)
  /-- DUTY_WRITE (R234): A DUTY write from the owner or a route stages a duty. -/
  | dutyWrite (t : Nat) (w : DutyWriter) (o : Fin 24) (v : BitVec 16)
  /-- DUTY_TIMEOUT (R235): No DUTY write for DUTY_TMO periods makes the output take SAFE_DUTY. -/
  | dutyTimeout (t : Nat) (o : Fin 24)
  /-- TRIP_INPUT (R236): A trip line becomes active and masked outputs take TRIP_LVL and latch. -/
  | tripInput (t : Nat) (line : Fin 4) (active : Bool)
  /-- ACT_TRIP_CLEAR (R236): A W1C write to the ACT TRIP_STATE clears an inactive trip line. -/
  | actTripClear (t : Nat) (r : Requester) (v : BitVec 4)
  /-- NOP (R253): Instruction NOP. -/
  | nop (e : Fin 4)
  /-- LD (R253): Instruction LD loads a bit into BA. -/
  | ld (e : Fin 4) (am : AM) (a : BitVec 22)
  /-- LDN (R253): Instruction LDN loads a negated bit into BA. -/
  | ldn (e : Fin 4) (am : AM) (a : BitVec 22)
  /-- AND (R253): Instruction AND. -/
  | and_ (e : Fin 4) (am : AM) (a : BitVec 22)
  /-- ANDN (R253): Instruction ANDN. -/
  | andn (e : Fin 4) (am : AM) (a : BitVec 22)
  /-- OR (R253): Instruction OR. -/
  | or_ (e : Fin 4) (am : AM) (a : BitVec 22)
  /-- ORN (R253): Instruction ORN. -/
  | orn (e : Fin 4) (am : AM) (a : BitVec 22)
  /-- XOR (R253): Instruction XOR. -/
  | xor_ (e : Fin 4) (am : AM) (a : BitVec 22)
  /-- XORN (R253): Instruction XORN. -/
  | xorn (e : Fin 4) (am : AM) (a : BitVec 22)
  /-- ST (R253): Instruction ST stores BA to a bit. -/
  | st (e : Fin 4) (am : AM) (a : BitVec 22)
  /-- STN (R253): Instruction STN stores negated BA. -/
  | stn (e : Fin 4) (am : AM) (a : BitVec 22)
  /-- S (R253): Instruction S sets a bit if BA. -/
  | set_ (e : Fin 4) (am : AM) (a : BitVec 22)
  /-- INSTR_R (R253): Instruction R resets a bit if BA. -/
  | instrR (e : Fin 4) (am : AM) (a : BitVec 22)
  /-- FP (R253): Instruction FP detects a rising edge. -/
  | fp (e : Fin 4) (am : AM) (a : BitVec 22)
  /-- FN (R253): Instruction FN detects a falling edge. -/
  | fn_ (e : Fin 4) (am : AM) (a : BitVec 22)
  /-- TAS (R253): Instruction TAS does an atomic test and set over all engines. -/
  | tas (e : Fin 4) (am : AM) (a : BitVec 22)
  /-- A_PAREN (R253): Instruction A( pushes BA with AND. -/
  | aParen (e : Fin 4)
  /-- AN_PAREN (R253): Instruction AN( pushes BA with AND NOT. -/
  | anParen (e : Fin 4)
  /-- O_PAREN (R253): Instruction O( pushes BA with OR. -/
  | oParen (e : Fin 4)
  /-- ON_PAREN (R253): Instruction ON( pushes BA with OR NOT. -/
  | onParen (e : Fin 4)
  /-- X_PAREN (R253): Instruction X( pushes BA with XOR. -/
  | xParen (e : Fin 4)
  /-- CLOSE_PAREN (R253): Instruction ) pops and combines the branch stack. -/
  | closeParen (e : Fin 4)
  /-- NOT (R253): Instruction NOT. -/
  | not_ (e : Fin 4)
  /-- SETB (R253): Instruction SETB. -/
  | setb (e : Fin 4)
  /-- CLRB (R253): Instruction CLRB. -/
  | clrb (e : Fin 4)
  /-- TON (R259): Instruction TON evaluates an on-delay timer. -/
  | ton (e : Fin 4) (am : AM) (a : BitVec 22)
  /-- TOF (R259): Instruction TOF evaluates an off-delay timer. -/
  | tof (e : Fin 4) (am : AM) (a : BitVec 22)
  /-- TP (R259): Instruction TP evaluates a pulse timer. -/
  | tp (e : Fin 4) (am : AM) (a : BitVec 22)
  /-- TONR (R259): Instruction TONR evaluates a retentive on-delay timer. -/
  | tonr (e : Fin 4) (am : AM) (a : BitVec 22)
  /-- TRST (R253): Instruction TRST resets a timer. -/
  | trst (e : Fin 4) (am : AM) (a : BitVec 22)
  /-- TPRE (R253): Instruction TPRE sets a timer preset. -/
  | tpre (e : Fin 4) (am : AM) (a : BitVec 22)
  /-- CTU (R260): Instruction CTU counts up on an edge. -/
  | ctu (e : Fin 4) (am : AM) (a : BitVec 22)
  /-- CTD (R260): Instruction CTD counts down on an edge. -/
  | ctd (e : Fin 4) (am : AM) (a : BitVec 22)
  /-- CRST (R253): Instruction CRST resets a counter. -/
  | crst (e : Fin 4) (am : AM) (a : BitVec 22)
  /-- CLD (R253): Instruction CLD loads a counter from its preset. -/
  | cld (e : Fin 4) (am : AM) (a : BitVec 22)
  /-- CPRE (R253): Instruction CPRE sets a counter preset. -/
  | cpre (e : Fin 4) (am : AM) (a : BitVec 22)
  /-- L (R253): Instruction L loads a word into ACC1. -/
  | l (e : Fin 4) (am : AM) (a : BitVec 22)
  /-- LHI (R253): Instruction LHI loads the upper half of ACC1. -/
  | lhi (e : Fin 4) (k : BitVec 22)
  /-- T (R253): Instruction T stores ACC1 to a word. -/
  | t_ (e : Fin 4) (am : AM) (a : BitVec 22)
  /-- TAK (R253): Instruction TAK exchanges the accumulators. -/
  | tak (e : Fin 4)
  /-- ADD (R255): Instruction ADD, saturating. -/
  | add (e : Fin 4) (am : AM) (a : BitVec 22)
  /-- SUB (R255): Instruction SUB, saturating. -/
  | sub (e : Fin 4) (am : AM) (a : BitVec 22)
  /-- MUL (R255): Instruction MUL, saturating. -/
  | mul (e : Fin 4) (am : AM) (a : BitVec 22)
  /-- DIV (R255): Instruction DIV, with division-by-zero handling. -/
  | div (e : Fin 4) (am : AM) (a : BitVec 22)
  /-- MOD (R255): Instruction MOD. -/
  | mod_ (e : Fin 4) (am : AM) (a : BitVec 22)
  /-- MULQ (R253): Instruction MULQ, a Q15.16 multiply. -/
  | mulq (e : Fin 4) (am : AM) (a : BitVec 22)
  /-- DIVQ (R253): Instruction DIVQ, a Q15.16 divide. -/
  | divq (e : Fin 4) (am : AM) (a : BitVec 22)
  /-- ANDW (R253): Instruction ANDW. -/
  | andw (e : Fin 4) (am : AM) (a : BitVec 22)
  /-- ORW (R253): Instruction ORW. -/
  | orw (e : Fin 4) (am : AM) (a : BitVec 22)
  /-- XORW (R253): Instruction XORW. -/
  | xorw (e : Fin 4) (am : AM) (a : BitVec 22)
  /-- SHL (R253): Instruction SHL. -/
  | shl (e : Fin 4) (am : AM) (a : BitVec 22)
  /-- SHR (R253): Instruction SHR. -/
  | shr (e : Fin 4) (am : AM) (a : BitVec 22)
  /-- ASR (R253): Instruction ASR. -/
  | asr (e : Fin 4) (am : AM) (a : BitVec 22)
  /-- MIN (R253): Instruction MIN. -/
  | min_ (e : Fin 4) (am : AM) (a : BitVec 22)
  /-- MAX (R253): Instruction MAX. -/
  | max_ (e : Fin 4) (am : AM) (a : BitVec 22)
  /-- NEG (R255): Instruction NEG. -/
  | neg (e : Fin 4)
  /-- ABS (R255): Instruction ABS. -/
  | abs (e : Fin 4)
  /-- ITQ (R253): Instruction ITQ converts an integer to Q15.16. -/
  | itq (e : Fin 4)
  /-- QTI (R253): Instruction QTI converts Q15.16 to an integer. -/
  | qti (e : Fin 4)
  /-- CEQ (R253): Instruction CEQ compares for equality. -/
  | ceq (e : Fin 4) (am : AM) (a : BitVec 22)
  /-- CNE (R253): Instruction CNE compares for inequality. -/
  | cne (e : Fin 4) (am : AM) (a : BitVec 22)
  /-- CGT (R253): Instruction CGT compares for greater than. -/
  | cgt (e : Fin 4) (am : AM) (a : BitVec 22)
  /-- CGE (R253): Instruction CGE compares for greater or equal. -/
  | cge (e : Fin 4) (am : AM) (a : BitVec 22)
  /-- CLT (R253): Instruction CLT compares for less than. -/
  | clt (e : Fin 4) (am : AM) (a : BitVec 22)
  /-- CLE (R253): Instruction CLE compares for less or equal. -/
  | cle (e : Fin 4) (am : AM) (a : BitVec 22)
  /-- JMP (R253): Instruction JMP. -/
  | jmp (e : Fin 4) (k : BitVec 22)
  /-- JC (R253): Instruction JC jumps if BA = 1. -/
  | jc (e : Fin 4) (k : BitVec 22)
  /-- JCN (R253): Instruction JCN jumps if BA = 0. -/
  | jcn (e : Fin 4) (k : BitVec 22)
  /-- LOOP (R253): Instruction LOOP decrements ACC2 and jumps while it is not 0. -/
  | loop (e : Fin 4) (k : BitVec 22)
  /-- CALL (R254): Instruction CALL, or the end of the activation on call-stack overflow. -/
  | call (e : Fin 4) (k : BitVec 22)
  /-- RET (R254): Instruction RET, or the end of the activation on underflow. -/
  | ret (e : Fin 4)
  /-- END (R269): Instruction END ends the activation, completes the claimed source and restores, tail-chains or idles the engine. -/
  | end_ (e : Fin 4)
  /-- BMOV (R253): Instruction BMOV copies a block of words, and can be preempted per word. -/
  | bmov (e : Fin 4) (am : AM) (a : BitVec 22)
  /-- SIG (R253): Instruction SIG raises an EIC pulse source 84 to 91. -/
  | sig (e : Fin 4) (k : BitVec 22)
  /-- PRI (R253): Instruction PRI raises the running task's priority. -/
  | pri (e : Fin 4) (k : BitVec 22)
  /-- REMOTE_READ_RESPONSE (R256): The response to an SI, SO or PG read arrives and the waiting instruction completes. -/
  | remoteReadResponse (t : Nat) (e : Fin 4)
  /-- TASK_RELEASE (R263): A periodic task is released at its instant, or dropped as an overrun. -/
  | taskRelease (t : Nat) (e : Fin 4) (task : Nat)
  /-- FREE_CYCLE_START (R265): A free cycle starts once CYC_MIN_US has passed, latching the I image. -/
  | freeCycleStart (t : Nat) (e : Fin 4)
  /-- TASK_ENTRY (R267): An EIC delivery reaches an engine, which freezes its bank, claims the source and enters the task. -/
  | taskEntry (t : Nat) (e : Fin 4)
  /-- WATCHDOG (R266): An activation exceeds WD_US and the engine takes a watchdog reset. -/
  | watchdog (t : Nat) (e : Fin 4)
  /-- RESTART_WARM (R276): RESTART_CMD = WARM restarts the engine warm. -/
  | restartWarm (t : Nat) (r : Requester) (e : Fin 4)
  /-- RESTART_COLD (R276): RESTART_CMD = COLD restarts the engine cold. -/
  | restartCold (t : Nat) (r : Requester) (e : Fin 4)
  /-- RESTART_STOP (R276): RESTART_CMD = STOP stops the engine's program. -/
  | restartStop (t : Nat) (r : Requester) (e : Fin 4)
  /-- CHG_COPY (R278): CHG_CMD = COPY copies a new image from general SRAM into free program store. -/
  | chgCopy (t : Nat) (r : Requester) (e : Fin 4)
  /-- CHG_COPY_DONE (R278): The image copy completes and CHG_STATE becomes COPIED. -/
  | chgCopyDone (t : Nat) (e : Fin 4)
  /-- CHG_CHECK (R278): CHG_CMD = CHECK starts the image check. -/
  | chgCheck (t : Nat) (r : Requester) (e : Fin 4)
  /-- CHG_CHECK_DONE (R275): The image check completes: CHECKED, or EMPTY with a code and offset. -/
  | chgCheckDone (t : Nat) (e : Fin 4)
  /-- CHG_ARM (R278): CHG_CMD = ARM arms a checked change. -/
  | chgArm (t : Nat) (r : Requester) (e : Fin 4)
  /-- CHG_DISARM (R278): CHG_CMD = DISARM disarms a change. -/
  | chgDisarm (t : Nat) (r : Requester) (e : Fin 4)
  /-- CHG_CLEAR (R278): CHG_CMD = CLEAR returns the change to EMPTY. -/
  | chgClear (t : Nat) (r : Requester) (e : Fin 4)
  /-- CHG_REGION_WRITE (R278): A write to LOAD_DST, LOAD_WORDS or the staged region returns the change to EMPTY. -/
  | chgRegionWrite (t : Nat) (r : Requester) (e : Fin 4) (reg : ChgReg) (v : Word)
  /-- PROG_SLOT_COMMITTED (R280): The Keeper's write of the program store into the standby program slot commits it as active. -/
  | progSlotCommitted (t : Nat)
  /-- FORCE_ON_WRITE (R281): A write of FORCE_ON commits or ends a force entry and records it. -/
  | forceOnWrite (t : Nat) (r : Requester) (on : Bool)
  /-- FORCE_CLR_ALL (R284): FORCE_CLR_ALL ends every force. -/
  | forceClrAll (t : Nat) (r : Requester)
  /-- ENGINE_FAIL (R286): An engine fails; the reserve takes over its program, pages and target sets, or the engine stays in FAULT. -/
  | engineFail (t : Nat) (e : Fin 4) (cause : EngineFault)
  /-- ENGINE_TEST_DONE (R287): The Keeper's test of a failed engine ends in rearm, stop or retirement. -/
  | engineTestDone (t : Nat) (e : Fin 4) (pass : Bool)
  /-- RET_CAPTURE (R288): Retentive words are captured into the other MRAM copy once the period has elapsed and no writer is active. -/
  | retCapture (t : Nat)
  /-- MEM_DATA_WRITE (R570): A host write of MEM_DATA changes the named D, R, ELAPSED or COUNT word, subject to R247. -/
  | memDataWrite (t : Nat) (r : Requester) (e : Fin 4) (v : Word)
  /-- LGE_CTR_CLR (R293): CTR_CLR clears the LGE statistics. -/
  | lgeCtrClr (t : Nat) (r : Requester) (e : Fin 4)
  /-- GIO_INPUT_CHANGE (R290): A GIO input is taken as changed after its filter, and matching selectors raise events. -/
  | gioInputChange (t : Nat) (pin : Fin 64) (lvl : Bool)
  /-- EIC_SOURCE_EDGE (R347): A source level rises and EIC latches its pending bit, or merges it. -/
  | eicSourceEdge (t : Nat) (src : Fin 256)
  /-- EIC_ROUTE (R351): Each LOGIC cycle EIC offers eligible sources to engines by priority and moderation. -/
  | eicRoute (t : Nat)
  /-- MOD_INTERVAL_END (R354): A group's moderation interval ends and its sources can be offered again. -/
  | modIntervalEnd (t : Nat) (grp : Fin 16)
  /-- SET_SRC (R368): A host write of SET_SRC raises a source as a pulse. -/
  | setSrc (t : Nat) (r : Requester) (src : Fin 256)
  /-- SRC_CFG_WRITE (R353): A write of PRIO, TARGET or EN of a source applies, withdrawing offers or clearing pending. -/
  | srcCfgWrite (t : Nat) (r : Requester) (src : Fin 256) (v : Word)
  /-- PENDING_AGED (R356): A source stays pending longer than AGE_MS and the event is raised. -/
  | pendingAged (t : Nat) (src : Fin 256)
  /-- EIC_CTR_CLR (R368): CTR_CLR clears the EIC counters. -/
  | eicCtrClr (t : Nat) (r : Requester)
  /-- NEWT_WAKE (R357): A watched source rises in DOZE or KEEP and Newt wakes the device, recording the cause. -/
  | newtWake (t : Nat) (src : Fin 256)
  /-- HQE_RECORD_OFFER (R364): An event reaches HQE and its record is buffered for a queue or dropped. -/
  | hqeRecordOffer (t : Nat) (p : Fin 2)
  /-- HQE_WRITEBACK (R365): HQE posts buffered records and writes PROD back, and may signal MSI-X. -/
  | hqeWriteback (t : Nat) (p : Fin 2)
  /-- HQE_INT_TIMER (R366): INT_US expires after the oldest unsignalled record and the queue's MSI-X message is sent. -/
  | hqeIntTimer (t : Nat) (p : Fin 2) (q : Fin 8)
  /-- MSIX_UNMASK (R366): A masked vector with its pending bit set is unmasked and sends. -/
  | msixUnmask (t : Nat) (p : Fin 2) (vec : Fin 9)
  /-- CONS_WRITE (R361): Host software writes CONS, taken modulo 2³², freeing room, and an owed drop record is written. -/
  | consWrite (t : Nat) (r : Requester) (p : Fin 2) (q : Fin 8) (v : Word)
  /-- Q_EN_WRITE (R367): Setting Q_EN resets PROD and CONS, and clearing it drops buffered records. -/
  | qEnWrite (t : Nat) (r : Requester) (p : Fin 2) (q : Fin 8) (on : Bool)
  /-- PCIE_LINK_CHANGE (R371): A host port link reaches or leaves L0. -/
  | pcieLinkChange (t : Nat) (p : Fin 2) (up : Bool) (speed : Fin 8) (width : Fin 8)
  /-- CPL_TIMEOUT (R33): A host read exceeds the completion timeout and the transfer is aborted. -/
  | cplTimeout (t : Nat) (p : Fin 2)
  /-- FLR (R372): A Function Level Reset on a port clears its queues and its HQE page. -/
  | flr (t : Nat) (p : Fin 2)
  /-- TB_NS_READ (R375): A read of TB_NS latches the seconds and fraction for the requester. -/
  | tbNsRead (t : Nat) (r : Requester)
  /-- GNSS_PULSE (R378): A GNSS pulse is tested and, if valid, feeds its offset to the servo. -/
  | gnssPulse (t : Nat)
  /-- TOD_SENTENCE (R379): A complete NMEA ZDA sentence is checked and labels a pulse. -/
  | todSentence (t : Nat) (z : Zda)
  /-- REF_MISS (R381): No valid pulse or chain offset arrives within 1 s + 2 ms; at MISS_LIMIT the reference is lost. -/
  | refMiss (t : Nat)
  /-- TIME_STEP (R386): The time base steps in every replica together, and the series resume. -/
  | timeStep (t : Nat)
  /-- HOLD_DEGRADED (R383): HOLD_S passes HOLD_CLASS_S and clockClass falls to 187. -/
  | holdDegraded (t : Nat)
  /-- TIME_SET (R384): TIME_CMD = SET steps the time base to SET_SEC:SET_NS. -/
  | timeSet (t : Nat) (r : Requester)
  /-- TIME_ADD (R384): TIME_CMD = ADD steps the time base by OFF_NS. -/
  | timeAdd (t : Nat) (r : Requester)
  /-- ADJ_MAN_WRITE (R383): A write of ADJ_MAN sets F while REF_MODE = NONE. -/
  | adjManWrite (t : Nat) (r : Requester) (v : Word)
  /-- UTC_DAY_END (R385): At the end of the UTC day a leap flag changes UTC_OFFSET and clears. -/
  | utcDayEnd (t : Nat)
  /-- PTP_ANNOUNCE_RX (R388): A received Announce is compared by the BMCA and may change the role. -/
  | ptpAnnounceRx (t : Nat) (port : Fin 12) (ds : Dataset)
  /-- PTP_SYNC_TX (R389): As grandmaster, TMK sends Sync, with Follow_Up in two-step mode. -/
  | ptpSyncTx (t : Nat) (port : Fin 12)
  /-- PTP_ANNOUNCE_TX (R388): As grandmaster, TMK sends Announce. -/
  | ptpAnnounceTx (t : Nat) (port : Fin 12)
  /-- PTP_DELAY_REQ_RX (R391): A Delay_Req or Pdelay_Req is answered within DREQ_MAX, or dropped. -/
  | ptpDelayReqRx (t : Nat) (port : Fin 12) (q : DelayReq)
  /-- PTP_PDELAY_REQ_TX (R390): A port sends a Pdelay_Req to measure its link delay. -/
  | ptpPdelayReqTx (t : Nat) (port : Fin 12)
  /-- PTP_PDELAY_RESP_RX (R390): A Pdelay response completes a link-delay measurement. -/
  | ptpPdelayRespRx (t : Nat) (port : Fin 12) (t2 : Nat) (t3 : Nat)
  /-- PTP_EVENT_FORWARD (R390): While passive, the switch forwards a PTP event message as a transparent clock. -/
  | ptpEventForward (t : Nat) (inp : Fin 12) (out : Fin 12) (kind : Fin 3) (arrival : Nat) (corr : Nat)
  /-- PULSE_ARM (R392): OUT_CMD = ARM arms a pulse output. -/
  | pulseArm (t : Nat) (r : Requester) (o : Fin 4)
  /-- PULSE_DISARM (R392): OUT_CMD = DISARM ends a pulse and idles the output. -/
  | pulseDisarm (t : Nat) (r : Requester) (o : Fin 4)
  /-- PULSE_FIRE (R392): A pulse output's instant arrives and the pulse starts. -/
  | pulseFire (t : Nat) (o : Fin 4)
  /-- PULSE_END (R392): WIDTH_NS elapses and the pulse ends. -/
  | pulseEnd (t : Nat) (o : Fin 4)
  /-- CAPTURE_EDGE (R393): A TS_IN edge captures the time base into the queue, or overflows. -/
  | captureEdge (t : Nat) (ch : Fin 4) (fall : Bool)
  /-- CAP_SEC_HI_READ (R393): A read of CAP_SEC_HI removes the capture entry from the queue. -/
  | capSecHiRead (t : Nat) (r : Requester) (ch : Fin 4)
  /-- CAP_NS_READ (R393): A read of CAP_NS latches the entry's other words. -/
  | capNsRead (t : Nat) (r : Requester) (ch : Fin 4)
  /-- TMK_CTR_CLR (R395): CTR_CLR clears the TMK counters. -/
  | tmkCtrClr (t : Nat) (r : Requester)
  /-- RTC_TICK (R399): The calendar advances one second, or the tick is held while frozen. -/
  | rtcTick (t : Nat)
  /-- RTC_SEC_READ (R400): A read of RTC_SEC freezes the calendar shadows. -/
  | rtcSecRead (t : Nat) (r : Requester)
  /-- RTC_CENT_READ (R400): A read of RTC_CENT releases the freeze and applies a held tick. -/
  | rtcCentRead (t : Nat) (r : Requester)
  /-- RTC_FREEZE_TIMEOUT (R400): A freeze ends 1 s after it began. -/
  | rtcFreezeTimeout (t : Nat)
  /-- STAGING_WRITE (R401): A write of STG_SEC to STG_YEAR opens the staging if needed and sets a staged value. -/
  | stagingWrite (t : Nat) (r : Requester) (reg : StgReg) (v : Word)
  /-- CALENDAR_COMMIT (R401): A write of STG_CENT commits all staged values with the commit clamp. -/
  | calendarCommit (t : Nat) (r : Requester) (v : Word)
  /-- STG_DISCARD (R401): STG_DISCARD closes the staging without a commit. -/
  | stgDiscard (t : Nat) (r : Requester)
  /-- AUTO_SYNC (R403): At the first locked second of each UTC hour the calendar is set from the time base, or the sync is skipped. -/
  | autoSync (t : Nat)
  /-- WAKE_INPUT_EDGE (R405): A debounced edge on RTC_WAKE raises WAKE n. -/
  | wakeInputEdge (t : Nat) (n : Fin 4) (lvl : Bool)
  /-- MIN_OFF_END (R406): MIN_OFF_MS ends and a recorded wake raises PWRON. -/
  | minOffEnd (t : Nat)
  /-- VBAK_CHECK (R407): Once a second VBAK is compared with its threshold. -/
  | vbakCheck (t : Nat) (mv : Nat)
  /-- OSC_FAULT (R407): No crystal edge for 2 ms and the calendar counts from the RC oscillator. -/
  | oscFault (t : Nat)
  /-- OSC_RESTORED (R407): The crystal is back for 1 s and counting returns to it. -/
  | oscRestored (t : Nat)
  /-- BACKUP_DOMAIN_RESET (R407): VBAK lost with the main supplies off resets the AON registers and backup registers. -/
  | backupDomainReset (t : Nat)
  /-- AON_SUPPLY_SWITCH (R562): The AON island switches between VDDA and VBAK at 1.62 V. -/
  | aonSupplySwitch (t : Nat) (toVbak : Bool)
  /-- CAN_MODE_WRITE (R413): A write of MODE leaves INIT to integrate, or is refused. -/
  | canModeWrite (t : Nat) (r : Requester) (ch : Fin 16) (v : Word)
  /-- CAN_INTEGRATED (R413): Eleven recessive bits complete the integration and the channel joins the bus. -/
  | canIntegrated (t : Nat) (ch : Fin 16)
  /-- TX_REQ (R415): A write of TX_REQ makes a transmit buffer PENDING. -/
  | txReq (t : Nat) (r : Requester) (ch : Fin 16) (m : BitVec 3)
  /-- CANCEL (R418): A write of CANCEL cancels a buffer, or marks its running attempt for cancellation. -/
  | cancel (t : Nat) (r : Requester) (ch : Fin 16) (m : BitVec 3)
  /-- CAN_SELECTION (R416): At the selection point the channel chooses the pending buffer that would win arbitration. -/
  | canSelection (t : Nat) (ch : Fin 16)
  /-- CAN_TX_ATTEMPT_END (R417): A transmit attempt ends in success, arbitration loss or error, and error counters, states and runs update. -/
  | canTxAttemptEnd (t : Nat) (ch : Fin 16) (a : CanAttempt)
  /-- CAN_FRAME_RX (R419): A received frame is filtered and queued, or lost on a full queue. -/
  | canFrameRx (t : Nat) (ch : Fin 16) (f : CanHeard)
  /-- RX_ACK (R420): RX_ACK frees the head receive entry. -/
  | rxAck (t : Nat) (r : Requester) (ch : Fin 16)
  /-- RECOVER (R423): RECOVER starts bus-off recovery, or is refused. -/
  | recover (t : Nat) (r : Requester) (ch : Fin 16)
  /-- RECOVERED (R423): 128 sequences of 11 recessive bits complete recovery. -/
  | recovered (t : Nat) (ch : Fin 16)
  /-- CFD_CTR_CLR (R428): CTR_CLR clears the CFD counters. -/
  | cfdCtrClr (t : Nat) (r : Requester) (ch : Fin 16)
  /-- SER_START (R431): CMD = START starts a serial transaction, or is refused. -/
  | serStart (t : Nat) (r : Requester) (ch : Fin 8)
  /-- SER_ABORT (R431): CMD = ABORT ends a transaction at the next character boundary. -/
  | serAbort (t : Nat) (r : Requester) (ch : Fin 8)
  /-- SER_IDLE_GAP (R431): SER_RX has been idle for the end gap and sending begins. -/
  | serIdleGap (t : Nat) (ch : Fin 8)
  /-- SER_TX_DONE (R431): The last stop bit ends and waiting begins. -/
  | serTxDone (t : Nat) (ch : Fin 8)
  /-- SER_TURNAROUND_END (R431): TURN_MS expires with EXPECT = 0 and the transaction is DONE. -/
  | serTurnaroundEnd (t : Nat) (ch : Fin 8)
  /-- SER_RESP_TIMEOUT (R431): No start bit arrives within RESP_TMO_MS and the transaction ends with TIMEOUT. -/
  | serRespTimeout (t : Nat) (ch : Fin 8)
  /-- SER_CHAR_RX (R431): A character is received and stored, checked for gap and overrun, or counted unsolicited. -/
  | serCharRx (t : Nat) (ch : Fin 8) (b : BitVec 8) (parityOk : Bool) (framingOk : Bool)
  /-- SER_FRAME_END (R432): The mode's end rule ends the received frame, which is checked and DONE. -/
  | serFrameEnd (t : Nat) (ch : Fin 8)
  /-- SER_CTR_CLR (R435): CTR_CLR clears the SER counters. -/
  | serCtrClr (t : Nat) (r : Requester) (ch : Fin 8)
  /-- ETH_FRAME_RX (R438): A port receives a frame, which is checked and forwarded, delivered, learnt or flooded. -/
  | ethFrameRx (t : Nat) (port : Fin 12) (f : EthFrame)
  /-- EGRESS_TX (R443): An egress port sends the next frame by class priority. -/
  | egressTx (t : Nat) (port : Fin 13)
  /-- ETH_LINK_CHANGE (R453): A port's link goes up or down. -/
  | ethLinkChange (t : Nat) (port : Fin 12) (up : Bool) (speed : Fin 4)
  /-- LEARN_INSERT (R445): A queued learning request is inserted into the forwarding table, or refused when the table is exhausted. -/
  | learnInsert (t : Nat)
  /-- ENTRY_AGE_OUT (R445): A learnt entry not seen for AGE_S is removed. -/
  | entryAgeOut (t : Nat) (mac : BitVec 48) (fid : BitVec 12)
  /-- FDB_ADD (R447): E_CMD = ADD adds a static entry. -/
  | fdbAdd (t : Nat) (r : Requester)
  /-- FDB_DELETE (R447): E_CMD = DELETE deletes an entry. -/
  | fdbDelete (t : Nat) (r : Requester)
  /-- FDB_LOOKUP (R454): E_CMD = LOOKUP looks up an entry. -/
  | fdbLookup (t : Nat) (r : Requester)
  /-- FLOOD_REFILL (R448): A port's flood bucket gains a token. -/
  | floodRefill (t : Nat) (port : Fin 12)
  /-- PRP_SUPERVISION_TX (R450): A pair sends a supervision frame every LIFE_MS. -/
  | prpSupervisionTx (t : Nat) (pair : Fin 6)
  /-- RED_LAN_SILENT (R450): One port of a pair receives nothing for 3 × LIFE_MS and RED_FAULT is raised. -/
  | redLanSilent (t : Nat) (pair : Fin 6) (lanB : Bool)
  /-- DUP_ENTRY_FORGET (R450): A duplicate-discard entry expires after the entry or node forget time. -/
  | dupEntryForget (t : Nat) (pair : Fin 6) (src : BitVec 48) (seq : BitVec 16)
  /-- ETH_CTR_CLR (R453): CTR_CLR clears the port counters. -/
  | ethCtrClr (t : Nat) (r : Requester) (port : Fin 12)
  /-- STATION_CYCLE_START (R298): A station cycle starts, and a pending table commit becomes active. -/
  | stationCycleStart (t : Nat)
  /-- INPUT_FRAME_RX (R302): An INPUT frame is tested and accepted, making its station FRESH, or discarded. -/
  | inputFrameRx (t : Nat) (f : SxeFrame) (pathA : Bool) (pathB : Bool)
  /-- READ_END (R303): The read phase closes and stations without a frame become STALE and change state. -/
  | readEnd (t : Nat)
  /-- WRITE_PHASE (R305): The write phase opens, output words are taken and OUTPUT and CONFIG frames are queued. -/
  | writePhase (t : Nat)
  /-- OUTPUT_FRAME_TX (R305): A queued frame is sent, or dropped past the LAT_US cut-off. -/
  | outputFrameTx (t : Nat)
  /-- TABLE_COMMIT (R311): TABLE_CMD = COMMIT makes the staged station table pending. -/
  | tableCommit (t : Nat) (r : Requester)
  /-- TABLE_DISCARD (R311): TABLE_CMD = DISCARD reloads the staging copy. -/
  | tableDiscard (t : Nat) (r : Requester)
  /-- STN_ENTRY_WRITE (R318): A write of STN_W3 advances STN_SEL. -/
  | stnEntryWrite (t : Nat) (r : Requester) (w : Fin 4) (v : Word)
  /-- PROF_DATA_WRITE (R318): A write of PROF_DATA sets a profile word and advances PROF_WORD. -/
  | profDataWrite (t : Nat) (r : Requester) (v : Word)
  /-- PLAN_MAP_WRITE (R318): A write of PM_GAIN sets a plan-map entry and advances PM_SEL. -/
  | planMapWrite (t : Nat) (r : Requester) (w : Fin 2) (v : Word)
  /-- SXE_CTR_CLR (R318): CTR_CLR clears the SXE and per-station counters. -/
  | sxeCtrClr (t : Nat) (r : Requester)
  /-- MOTION_UPDATE (R328): Each µs the profile generator updates speed and position and issues steps. -/
  | motionUpdate (t : Nat) (a : Fin 24)
  /-- TARGET_WRITE (R324): A TARGET write brings a new target into force and may start a move. -/
  | targetWrite (t : Nat) (r : Requester) (a : Fin 24) (v : Word)
  /-- DEC_WRITE (R332): A DEC_HI or DEC_LO write during deceleration applies, raised where needed. -/
  | decWrite (t : Nat) (r : Requester) (a : Fin 24) (reg : Fin 2) (v : Word)
  /-- HOME (R336): AXIS_CMD = HOME starts homing. -/
  | home (t : Nat) (r : Requester) (a : Fin 24)
  /-- STOP (R335): AXIS_CMD = STOP decelerates the axis and holds it. -/
  | stop (t : Nat) (r : Requester) (a : Fin 24)
  /-- ESTOP (R335): AXIS_CMD = ESTOP hard-stops the axis and holds it. -/
  | estop (t : Nat) (r : Requester) (a : Fin 24)
  /-- RELEASE (R335): AXIS_CMD = RELEASE clears HELD. -/
  | release (t : Nat) (r : Requester) (a : Fin 24)
  /-- PHASE_SYNC (R339): AXIS_CMD = PHASE_SYNC realigns POSITION to phase 0, or is refused. -/
  | phaseSync (t : Nat) (r : Requester) (a : Fin 24)
  /-- SET_POS (R343): AXIS_CMD = SET_POS sets POSITION at standstill. -/
  | setPos (t : Nat) (r : Requester) (a : Fin 24)
  /-- LIMIT_ACTIVE (R333): A filtered limit input becomes active and stops motion toward it. -/
  | limitActive (t : Nat) (a : Fin 24) (positive : Bool)
  /-- LIMIT_RELEASE (R334): A limit's release is accepted after DB_US and DB_COUNT. -/
  | limitRelease (t : Nat) (a : Fin 24) (positive : Bool)
  /-- HOME_INPUT (R336): The home switch becomes active or inactive. -/
  | homeInput (t : Nat) (a : Fin 24) (active : Bool)
  /-- DRV_FAULT (R338): A fall of MPG_DOK hard-stops the axis and may set PHASE_LOST. -/
  | drvFault (t : Nat) (a : Fin 24)
  /-- DOK_RISE_ACCEPTED (R323): A rise of MPG_DOK is accepted after 10 ms. -/
  | dokRiseAccepted (t : Nat) (a : Fin 24)
  /-- LIVE_LOST (R340): The publishing loop is silent for LIVE_TMO_MS and LIVE_RATE becomes SAFE_RATE. -/
  | liveLost (t : Nat) (grp : Fin 8)
  /-- CHAIN_FRAME_RX (R478): A chain frame is received, CRC-checked, consumed or forwarded. -/
  | chainFrameRx (t : Nat) (up : Bool) (f : ChainFrame)
  /-- CREDIT_TIMEOUT (R33): No credit return for 100 µs takes the chain link down. -/
  | creditTimeout (t : Nat) (up : Bool)
  /-- LINK_RETRAIN (R35): A down chain port retrains every 10 ms. -/
  | linkRetrain (t : Nat) (up : Bool) (ok : Bool)
  /-- CHAIN_LINK_CHANGE (R482): A chain port changes state and the unit broadcasts HELLO. -/
  | chainLinkChange (t : Nat) (up : Bool) (linked : Bool)
  /-- HELLO (R482): A HELLO is received and membership, addresses and compatibility are settled. -/
  | hello (t : Nat) (u : ChainUnit)
  /-- BUILD (R483): ENUM_CMD = BUILD binds the present units to new addresses, or is refused. -/
  | build (t : Nat) (r : Requester)
  /-- VACATE (R484): ENUM_CMD = VACATE makes an address claimable. -/
  | vacate (t : Nat) (r : Requester)
  /-- CLAIM_ACCEPT (R484): ENUM_CMD = CLAIM_ACCEPT binds a waiting unit to a claimable address. -/
  | claimAccept (t : Nat) (r : Requester)
  /-- VACANT_EXPIRY (R484): An address absent for VACANT_S becomes claimable. -/
  | vacantExpiry (t : Nat) (addr : Fin 16)
  /-- BIND_TABLE_COMMIT (R483): A new binding table comes into use once every present unit has persisted it. -/
  | bindTableCommit (t : Nat)
  /-- CHAIN_DELAY_MEASURE (R485): Each link measures its delay every second. -/
  | chainDelayMeasure (t : Nat) (up : Bool) (d : Nat)
  /-- CHAIN_TIME_BROADCAST (R485): The time master broadcasts a TIME frame at each whole second. -/
  | chainTimeBroadcast (t : Nat)
  /-- HEARTBEAT_TX (R488): A unit sends a heartbeat to its peer every HB_US. -/
  | heartbeatTx (t : Nat)
  /-- HEARTBEAT_RX (R488): A peer heartbeat renews the lease or changes the role on an epoch difference. -/
  | heartbeatRx (t : Nat) (hb : Heartbeat)
  /-- LEASE_EXPIRY (R488): The active unit's lease lapses without a lock and it takes ROLE FENCED. -/
  | leaseExpiry (t : Nat)
  /-- HB_LOST (R489): No heartbeat for HB_MISS × HB_US; a standby sends TAKE. -/
  | hbLost (t : Nat)
  /-- RETAIN_SEND (R490): The active unit sends RETAIN after 2 × HB_US without an echo, and again at each half of LOCK_US. -/
  | retainSend (t : Nat)
  /-- WITNESS_REQUEST (R489): A witness receives RETAIN, TAKE or TRANSFER and grants after persisting, or denies. -/
  | witnessRequest (t : Nat) (q : VoteReq)
  /-- VOTE_GRANT_RX (R490): A grant arrives; the unit persists the epoch and takes ACTIVE or keeps its lock. -/
  | voteGrantRx (t : Nat) (epoch : Word)
  /-- VOTE_TIMEOUT (R489): No answer within VOTE_TMO_US counts as a denial. -/
  | voteTimeout (t : Nat)
  /-- LOCK_EXPIRY (R489): A witness lock ends. -/
  | lockExpiry (t : Nat) (pair : Fin 16)
  /-- VOTE_GRANT (R489): A host witness writes VOTE_CMD = GRANT. -/
  | voteGrant (t : Nat) (r : Requester)
  /-- VOTE_DENY (R489): A host witness writes VOTE_CMD = DENY. -/
  | voteDeny (t : Nat) (r : Requester)
  /-- SWAP (R496): PAIR_CMD = SWAP hands the active role to the standby at a marked cut. -/
  | swap (t : Nat) (r : Requester)
  /-- PAIR_TAKE (R491): PAIR_CMD = TAKE runs a standby takeover on this unit. -/
  | pairTake (t : Nat) (r : Requester)
  /-- MIRROR_CUT (R492): The active unit takes a mirror cut and sends its deltas. -/
  | mirrorCut (t : Nat)
  /-- MIRROR_CUT_APPLY (R492): The standby applies a complete cut in one step. -/
  | mirrorCutApply (t : Nat) (cut : CutX)
  /-- FULL_COPY_DONE (R492): The full copy and its cuts are applied and the unit enters STANDBY. -/
  | fullCopyDone (t : Nat)
  /-- DCH_CTR_CLR (R499): CTR_CLR clears the DCH counters. -/
  | dchCtrClr (t : Nat) (r : Requester)
  /-- REC_INPUT (R465): An event message reaches REC's input queue, or is dropped when it is full. -/
  | recInput (t : Nat)
  /-- REC_RECORD_WRITE (R459): REC takes a message, applies the rate limit and writes a numbered record to the ring or holding buffer. -/
  | recRecordWrite (t : Nat)
  /-- RATE_REFILL (R463): A code's token bucket gains a token. -/
  | rateRefill (t : Nat) (code : BitVec 16)
  /-- SUPPRESSION_FLUSH (R464): SUPP_FLUSH_S after a first suppression REC writes a SUPPRESSED record. -/
  | suppressionFlush (t : Nat) (code : BitVec 16)
  /-- CODE_CFG_WRITE (R464): A change of a code's enable or class is summarised and recorded. -/
  | codeCfgWrite (t : Nat) (r : Requester) (v : Word)
  /-- CLASS_CFG_WRITE (R463): A change of a class's RATE_MS or BURST applies and is recorded. -/
  | classCfgWrite (t : Nat) (r : Requester) (v : Word)
  /-- PERSIST_WRITE (R467): A record is copied into the MRAM ring image. -/
  | persistWrite (t : Nat) (ok : Bool)
  /-- REC_FREEZE (R468): FRZ_CMD = FREEZE freezes the on-die ring. -/
  | recFreeze (t : Nat) (r : Requester)
  /-- REC_RELEASE (R468): FRZ_CMD = RELEASE appends held records and ends the freeze. -/
  | recRelease (t : Nat) (r : Requester)
  /-- FREEZE_MAX_EXPIRY (R468): FREEZE_MAX_S passes and the freeze ends. -/
  | freezeMaxExpiry (t : Nat)
  /-- WIN_SEQ_WRITE (R469): A write of WIN_SEQ copies a record into the window buffer. -/
  | winSeqWrite (t : Nat) (r : Requester) (v : Word)
  /-- WIN_NEXT (R469): WIN_NEXT selects the following record. -/
  | winNext (t : Nat) (r : Requester)
  /-- WIN_DATA_READ (R469): A read of WIN_DATA returns data to a privileged reader, or 0 with a violation counted. -/
  | winDataRead (t : Nat) (r : Requester) (idx : Fin 129)
  /-- EXPORT_START (R470): EXP_CMD = START starts a record export. -/
  | exportStart (t : Nat) (r : Requester)
  /-- EXPORT_ABORT (R475): EXP_CMD = ABORT ends an export. -/
  | exportAbort (t : Nat) (r : Requester)
  /-- EXPORT_DONE (R470): The export completes, optionally sealed, and EXPORTED is recorded. -/
  | exportDone (t : Nat)
  /-- CLEAR_START (R471): CLR_CMD = START checks a clear token and writes CLEARED or CLEAR_REFUSED. -/
  | clearStart (t : Nat) (r : Requester)
  /-- CLEAR_MARK_DONE (R472): The cleared segments are marked empty in the ring and the image. -/
  | clearMarkDone (t : Nat)
  /-- REC_CTR_CLR (R475): CTR_CLR clears the REC counters. -/
  | recCtrClr (t : Nat) (r : Requester)
  /-- TOKEN_APPLY (R511): TOK_CMD = APPLY verifies a DEBUG or FUSE token and acts on it, or refuses it. -/
  | tokenApply (t : Nat) (r : Requester)
  /-- DBG_CLOSE (R513): DBG_CLOSE closes the debug port. -/
  | dbgClose (t : Nat) (r : Requester)
  /-- DEBUG_EXPIRY (R513): DURATION_S passes and the debug port closes. -/
  | debugExpiry (t : Nat)
  /-- ATTEST_START (R508): ATT_CMD = START starts an attestation report. -/
  | attestStart (t : Nat) (r : Requester)
  /-- ATTEST_DONE (R508): The signed report is written. -/
  | attestDone (t : Nat)
  /-- INSTALL (R516): FW_CMD = INSTALL starts a firmware install. -/
  | install (t : Nat) (r : Requester)
  /-- INSTALL_ABORT (R519): FW_CMD = ABORT before commit acts as a reset of the install. -/
  | installAbort (t : Nat) (r : Requester)
  /-- INSTALL_SWITCH (R516): FW_CMD = SWITCH switches to the new firmware at the next snapshot instant. -/
  | installSwitch (t : Nat) (r : Requester)
  /-- INSTALL_STEP_DONE (R516): An install step completes and the next begins, or the install is refused. -/
  | installStepDone (t : Nat)
  /-- SEC_CTR_CLR (R519): CTR_CLR clears the SEC counters. -/
  | secCtrClr (t : Nat) (r : Requester)
  /-- PWR_RUN (R524): PWR_CMD = RUN returns the device from DOZE to RUN. -/
  | pwrRun (t : Nat) (r : Requester)
  /-- PWR_DOZE (R525): PWR_CMD = DOZE gates SOLVE and LOOP, or is refused. -/
  | pwrDoze (t : Nat) (r : Requester)
  /-- PWR_KEEP (R526): PWR_CMD = KEEP starts entry to KEEP, or is refused. -/
  | pwrKeep (t : Nat) (r : Requester)
  /-- KEEP_ENTRY_DONE (R526): KEEP entry completes; every island but AON is reset and PWRON falls. -/
  | keepEntryDone (t : Nat)
  /-- SYS_RST (R527): SYS_RST resets the device with cause SOFTWARE. -/
  | sysRst (t : Nat) (r : Requester)
  /-- POWER_ON_RESET (R527): Power-on or PORST_N low resets the device. -/
  | powerOnReset (t : Nat)
  /-- SYSRST (R527): SYSRST_N low for 1 µs resets the device. -/
  | sysrst (t : Nat) (low : Bool)
  /-- BROWN_OUT (R522): A rail below 94 % for 2 µs causes a brown-out reset. -/
  | brownOut (t : Nat) (rail : Fin 5)
  /-- SUPPLY_WARN (R522): A rail outside ±3 % for 10 µs raises SUPPLY_WARN. -/
  | supplyWarn (t : Nat) (rail : Fin 5) (mv : BitVec 16)
  /-- TEMP_SAMPLE (R523): PCR reads the temperature sensors once per ms. -/
  | tempSample (t : Nat) (temps : List Int)
  /-- BOOT_STEP (R529): A boot step completes and the Keeper starts the next. -/
  | bootStep (t : Nat)
  /-- KEEPER_WATCHDOG (R537): The Keeper core watchdog expires and resets the core, or the system on the third expiry. -/
  | keeperWatchdog (t : Nat)
  /-- OP_SEC_SAVE (R528): OP_SEC is written to the health record every 16 s. -/
  | opSecSave (t : Nat)
  /-- LIFE_TICK (R534): Once a second LIFE_USED accumulates weighted wear. -/
  | lifeTick (t : Nat)
  /-- SCRUB_READ (R535): The patrol scrub reads a word and writes back a correction. -/
  | scrubRead (t : Nat) (mem : ScrubMem) (addr : Nat) (res : ScrubResult)
  /-- ROWGROUP_REPLACE (R540): A failing row group is copied into a spare, or borrowed below SOLVER_CAP. -/
  | rowgroupReplace (t : Nat) (bank : Fin 64) (grp : Fin 256)
  /-- ROWGROUP_COMMIT (R540): The row-group repair is committed and the mapping switches, lowering SOLVER_CAP where R541 applies. -/
  | rowgroupCommit (t : Nat)
  /-- MRAM_TIMEOUT (R532): An MRAM transaction exceeds 1 ms and the device is marked failed. -/
  | mramTimeout (t : Nat) (dev : Fin 2)
  /-- MRAM_READ_FIX (R531): A check failure on device 0 is repaired from device 1. -/
  | mramReadFix (t : Nat) (dev : Fin 2)
  /-- PST_REMOVE (R533): PST_CMD = REMOVE takes an MRAM device out of service. -/
  | pstRemove (t : Nat) (r : Requester) (dev : Fin 2)
  /-- PST_INSERT (R533): PST_CMD = INSERT starts resynchronising a device. -/
  | pstInsert (t : Nat) (r : Requester) (dev : Fin 2)
  /-- RESYNC_CHUNK_DONE (R533): A 64 KiB chunk is copied and checkpointed, and the last one completes the resync. -/
  | resyncChunkDone (t : Nat)
  /-- KPR_CTR_CLR (R548): CTR_CLR clears the KPR counters. -/
  | kprCtrClr (t : Nat) (r : Requester)
  /-- PST_CTR_CLR (R549): CTR_CLR clears the PST counters. -/
  | pstCtrClr (t : Nat) (r : Requester)
  /-- RESET_RELEASE (R529): Release of reset, when PORST_N or SYSRST_N rises or a browned-out rail returns to range, starts boot step 1 at t_r. -/
  | resetRelease (t : Nat)
  /-- CAN_RX_ERROR (R422): A reception on the CAN bus ends in an error detected as receiver, REC changes and an error frame is sent and counted in RX_ERRS. -/
  | canRxError (t : Nat) (ch : Fin 16) (kind : CanErr)
  /-- FOREIGN_MASTER_EXPIRY (R388): A port stops holding a better foreign master when its Announce messages cease, and the device may return to the grandmaster role. -/
  | foreignMasterExpiry (t : Nat) (port : Fin 12)
  /-- TAKE_RETRY (R490): A denied standby sends TAKE again at each half of LOCK_US while the peer stays silent. -/
  | takeRetry (t : Nat)
  /-- SVU_BATCH_DONE (R135): A batch of element-wise steps finishes in the lockstep SVU pair; a mismatch between the halves re-runs the batch once, and a second mismatch counts as a block failed on three lanes. -/
  | svuBatchDone (t : Nat) (agree : Bool)
  deriving DecidableEq, Repr

end Sys2Proof
end

