-- ==== Sys2Proof/Decode.lean ====
section
/-! DEFINITION. Commands that words spell. No row of the opcode table gives bits, so no table word spells a command; the instruction words of the logic engines are spelled by R253. -/

namespace Sys2Proof

/-- The command that a word of `nbits` bits spells by the table's bits: none, because the table gives no row any bits. -/
def decodeTableWord (nbits w : Nat) : Option Instr :=
  match nbits, w with
  | _, _ => none

/-- AM, bits [23:22] of an instruction word (R250, R253). -/
def amOf (w : Word) : AM :=
  match w.toNat / 2 ^ 22 % 4 with
  | 0 => .dir
  | 1 => .idx
  | 2 => .ind
  | _ => .imm

/-- The operand, bits [21:0] of an instruction word (R253). -/
def operandOf (w : Word) : BitVec 22 := w.setWidth 22

/-- An opcode whose modes are D, X and N. -/
def insDxn (w : Word) (f : AM → BitVec 22 → Instr) : Option Instr :=
  if amOf w = .imm then none else some (f (amOf w) (operandOf w))

/-- An opcode whose modes are D, X, N and M. -/
def insDxnm (w : Word) (f : AM → BitVec 22 → Instr) : Option Instr := some (f (amOf w) (operandOf w))

/-- An opcode whose only mode is M. -/
def insImm (w : Word) (f : BitVec 22 → Instr) : Option Instr :=
  if amOf w = .imm then some (f (operandOf w)) else none

/-- An opcode without an operand: bits [23:0] are 0. -/
def insBare (w : Word) (i : Instr) : Option Instr := if w.toNat % 2 ^ 24 = 0 then some i else none

/-- The bit, bracket, timer and counter opcodes of R253. -/
def decodeBitIns (e : Fin 4) (w : Word) : Option Instr :=
  match w.toNat / 2 ^ 24 with
  | 0x00 => insBare w (.nop e)
  | 0x01 => insDxn w (.ld e)
  | 0x02 => insDxn w (.ldn e)
  | 0x03 => insDxn w (.and_ e)
  | 0x04 => insDxn w (.andn e)
  | 0x05 => insDxn w (.or_ e)
  | 0x06 => insDxn w (.orn e)
  | 0x07 => insDxn w (.xor_ e)
  | 0x08 => insDxn w (.xorn e)
  | 0x09 => insDxn w (.st e)
  | 0x0A => insDxn w (.stn e)
  | 0x0B => insDxn w (.set_ e)
  | 0x0C => insDxn w (.instrR e)
  | 0x0D => insDxn w (.fp e)
  | 0x0E => insDxn w (.fn_ e)
  | 0x0F => insDxn w (.tas e)
  | 0x10 => insBare w (.aParen e)
  | 0x11 => insBare w (.anParen e)
  | 0x12 => insBare w (.oParen e)
  | 0x13 => insBare w (.onParen e)
  | 0x14 => insBare w (.xParen e)
  | 0x15 => insBare w (.closeParen e)
  | 0x16 => insBare w (.not_ e)
  | 0x17 => insBare w (.setb e)
  | 0x18 => insBare w (.clrb e)
  | 0x20 => insDxn w (.ton e)
  | 0x21 => insDxn w (.tof e)
  | 0x22 => insDxn w (.tp e)
  | 0x23 => insDxn w (.tonr e)
  | 0x24 => insDxn w (.trst e)
  | 0x25 => insDxn w (.tpre e)
  | 0x28 => insDxn w (.ctu e)
  | 0x29 => insDxn w (.ctd e)
  | 0x2A => insDxn w (.crst e)
  | 0x2B => insDxn w (.cld e)
  | 0x2C => insDxn w (.cpre e)
  | _ => none

/-- The word and control opcodes of R253. -/
def decodeWordIns (e : Fin 4) (w : Word) : Option Instr :=
  match w.toNat / 2 ^ 24 with
  | 0x30 => insDxnm w (.l e)
  | 0x31 => insImm w (.lhi e)
  | 0x32 => insDxn w (.t_ e)
  | 0x33 => insBare w (.tak e)
  | 0x34 => insDxnm w (.add e)
  | 0x35 => insDxnm w (.sub e)
  | 0x36 => insDxnm w (.mul e)
  | 0x37 => insDxnm w (.div e)
  | 0x38 => insDxnm w (.mod_ e)
  | 0x39 => insDxnm w (.mulq e)
  | 0x3A => insDxnm w (.divq e)
  | 0x3B => insDxnm w (.andw e)
  | 0x3C => insDxnm w (.orw e)
  | 0x3D => insDxnm w (.xorw e)
  | 0x3E => insDxnm w (.shl e)
  | 0x3F => insDxnm w (.shr e)
  | 0x40 => insDxnm w (.asr e)
  | 0x41 => insDxnm w (.min_ e)
  | 0x42 => insDxnm w (.max_ e)
  | 0x43 => insBare w (.neg e)
  | 0x44 => insBare w (.abs e)
  | 0x45 => insBare w (.itq e)
  | 0x46 => insBare w (.qti e)
  | 0x48 => insDxnm w (.ceq e)
  | 0x49 => insDxnm w (.cne e)
  | 0x4A => insDxnm w (.cgt e)
  | 0x4B => insDxnm w (.cge e)
  | 0x4C => insDxnm w (.clt e)
  | 0x4D => insDxnm w (.cle e)
  | 0x50 => insImm w (.jmp e)
  | 0x51 => insImm w (.jc e)
  | 0x52 => insImm w (.jcn e)
  | 0x53 => insImm w (.loop e)
  | 0x54 => insImm w (.call e)
  | 0x55 => insBare w (.ret e)
  | 0x56 => insBare w (.end_ e)
  | 0x57 => insDxn w (.bmov e)
  | 0x58 => insImm w (.sig e)
  | 0x59 => insImm w (.pri e)
  | _ => none

/-- The command that an instruction word of a logic engine spells (R253); an undefined opcode, an illegal mode, or an operand where none is taken spells none. -/
def decodeIns (e : Fin 4) (w : Word) : Option Instr :=
  match decodeBitIns e w with
  | some i => some i
  | none => decodeWordIns e w

end Sys2Proof
end

