-- ==== Sys2Proof/Config.lean ====
section
/-! DEFINITION. What an implementation fixes and the values the spec leaves open: constants without a body, so that no proof can see their values. -/

namespace Sys2Proof.Config

/-- A value that the spec leaves open: a random draw, a measured delay, an undefined datum. Each use applies it to the counter `freeTick` of the state (assumption 6). -/
opaque free (w : Nat) : Nat → BitVec w

/-- The 512 KiB mask ROM that the Keeper boots from, by word (R20). No command reads it out. -/
opaque keeperRom : Nat → BitVec 32

/-- SHAKE256 of a message, cut to `n` bytes (R503). Kept uninterpreted (assumption 7). -/
opaque shake256 : List Nat → Nat → List Nat

/-- XMSS verification of a signature over a message under a public key (R502). Kept uninterpreted (assumption 7). -/
opaque xmssVerify : List Nat → List Nat → List Nat → Bool

/-- The XMSS signature of a message under index `i` of the device identity (R505). Kept uninterpreted (assumption 7). -/
opaque xmssSign : List Nat → Nat → List Nat

/-- The keyed hash of a forwarding-table way (R444): key, way, address, forwarding identifier. The key cannot be read. -/
opaque fdbHash : Nat → Nat → Nat → Nat → BitVec 12

/-- The device's own source address in Ethernet frames, which the spec does not give. -/
opaque ownMac : BitVec 48

end Sys2Proof.Config
end

