-- ==== Sys2Proof/Machine/State.lean ====
section
/-! DEFINITION. The state of the block, the reasons for which a step can stop, and the state after reset. -/

namespace Sys2Proof.Machine

/-- States of a descriptor-set slot (R103). -/
inductive SlotState where
  | empty | checking | checked | armed
  deriving DecidableEq, Repr

/-- Phases of a solve as RUN.PHASE shows them (R146). -/
inductive DescPhase where
  | idle | setup | r | f | s | final
  deriving DecidableEq, Repr

/-- Operations held on the branch stack (R253). -/
inductive BrOp where
  | and | andNot | or | orNot | xor
  deriving DecidableEq, Repr

/-- Task kinds (R273). -/
inductive TaskKind where
  | cyclic | periodic | event | startup
  deriving DecidableEq, Repr

/-- States of an EIC source (R349). -/
inductive SrcState where
  | idle | pending | active | activePending
  deriving DecidableEq, Repr

/-- Power states (R524). -/
inductive PwrState where
  | run | doze | keep | off
  deriving DecidableEq, Repr

/-- Reset causes (R527). -/
inductive ResetCause where
  | powerOn | brownOut | keepWake | sysrst | software | keeper
  deriving DecidableEq, Repr

/-- A staged low word of a wide value. -/
structure StagedWord where
  /-- owner code of the requester (R50). -/
  req : Nat := 0
  /-- offset of the low word (R50). -/
  off : Nat := 0
  /-- the staged value (R50). -/
  val : Word := 0
  /-- instant of the staging (R50). -/
  t : Nat := 0
  deriving DecidableEq, Repr

/-- What a page holds beside its register fields. -/
structure PageX where
  /-- the last write to the page was KEY 0x0A5C (R60). -/
  lockStep : Bool := false
  /-- instant the lock opened (R61). -/
  lockAt : Nat := 0
  /-- armed guards: owner code and expected COUNT (R63). -/
  guards : List (Nat × Nat) := []
  /-- start of the grant timer (R57). -/
  reqAt : Nat := 0
  /-- instant FREEZE was set (R51). -/
  freezeAt : Nat := 0
  /-- status and counter fields held by FREEZE (R51). -/
  shadow : List (Nat × Word) := []
  /-- a soft reset runs (R53). -/
  resetting : Bool := false
  /-- staged low words (R50). -/
  staged : List StagedWord := []
  /-- latched high words, per requester (R50). -/
  latched : List StagedWord := []
  deriving DecidableEq, Repr

/-- An event message on the fabric. -/
structure EvtMsg where
  /-- block code (R52). -/
  code : Nat := 0
  /-- page instance (R52). -/
  inst : Nat := 0
  /-- event number: PG_EVT bit, or 32 + HO_EVT bit (R362). -/
  bit : Nat := 0
  /-- EIC source (R348). -/
  eic : Option Nat := none
  /-- time base when the pending bit rose (R362). -/
  time : Nat := 0
  /-- TB_SET (R461). -/
  tset : Bool := false
  /-- TMK STATE then (R461). -/
  tmk : Nat := 0
  /-- payload bytes 16 to 31 of the host record (R362). -/
  pay : List Nat := []
  /-- bytes for REC alone (R461). -/
  extra : List Nat := []
  deriving DecidableEq, Repr

/-- A descriptor-set slot. -/
structure SlotX where
  /-- slot state (R103). -/
  st : SlotState := .empty
  /-- SET_ID found by the check (R78). -/
  setId : Word := 0
  /-- DIGEST found by the check (R86). -/
  digest : List Nat := []
  deriving DecidableEq, Repr

/-- The primal and dual iterate of one descriptor. -/
structure Iterate where
  /-- stage vectors, Q15.16 (R120). -/
  z : List (List Int) := []
  /-- multipliers of the dynamics (R120). -/
  pi : List (List Int) := []
  /-- row slacks (R120). -/
  y : List (List Int) := []
  /-- row duals (R120). -/
  lam : List (List Int) := []
  /-- soft slacks (R120). -/
  s : List (List Int) := []
  /-- soft duals (R120). -/
  nu : List (List Int) := []
  /-- complementarity target (R120). -/
  mu : Int := 0
  /-- average complementarity (R120). -/
  gap : Int := 0
  deriving DecidableEq, Repr

/-- A block that has failed and is executed again. -/
structure Redo where
  /-- number of the block in its phase (R136). -/
  blk : Nat := 0
  /-- lanes on which it has failed, in order (R136). -/
  tried : List Nat := []
  /-- lane that executes it again (R136). -/
  lane : Nat := 0
  deriving DecidableEq, Repr

/-- The descriptor in progress. -/
structure RunX where
  /-- 1 state estimation, 2 dispatch, 3 to 10 contingency (R146). -/
  desc : Nat := 0
  /-- window start, ns (R112). -/
  opened : Nat := 0
  /-- window end, ns (R112). -/
  closes : Nat := 0
  /-- completed iterations (R120). -/
  iter : Nat := 0
  /-- phase in progress (R141). -/
  phase : DescPhase := .setup
  /-- the descriptor has its returned iterate and waits for its window's end (R113). -/
  finished : Bool := false
  /-- the iterate (R120). -/
  it : Iterate := {}
  /-- the starting point (R121). -/
  start : Iterate := {}
  /-- r_prim of the starting point (R125). -/
  rprim1 : Int := 0
  /-- pivot replacements (R123). -/
  regCount : Nat := 0
  /-- saturations (R119). -/
  satCount : Nat := 0
  /-- stage, iteration, column, raw pivot (R123). -/
  regs : List (Nat × Nat × Nat × Int) := []
  /-- phase, stage, iteration, element (R119). -/
  sats : List (Nat × Nat × Nat × Nat) := []
  /-- failed executions (R136). -/
  chkFails : Nat := 0
  /-- re-executions (R136). -/
  reexecs : Nat := 0
  /-- first row of R141 applied (R141). -/
  deadline : Bool := false
  /-- second row applied (R141). -/
  partialIt : Bool := false
  /-- third row applied (R141). -/
  noIterate : Bool := false
  /-- all three executions failed (R136). -/
  checkFailed : Bool := false
  /-- uncorrectable data (R136). -/
  memError : Bool := false
  /-- warm start taken (R121). -/
  warm : Bool := false
  /-- x0 took fallback values (R96). -/
  seFallback : Bool := false
  /-- lanes retired during the solve (R144). -/
  retiredDuring : Nat := 0
  /-- blocks that are being executed again (R136). -/
  redo : List Redo := []
  /-- the batch is being re-run (R135). -/
  svuRetry : Bool := false
  /-- the update waits for the batch that is being re-run (R120). -/
  boundary : Bool := false
  /-- instant at which its work ended, ns (R144). -/
  endAt : Nat := 0
  deriving DecidableEq, Repr

/-- DSQ beside its registers. -/
structure DsqX where
  /-- slot A (R103). -/
  slotA : SlotX := {}
  /-- slot B (R103). -/
  slotB : SlotX := {}
  /-- slot last named by SET_CMD, true = B (R108). -/
  named : Bool := false
  /-- latest snapshot instant, ns (R111). -/
  tk : Nat := 0
  /-- APPLY_OFFSET_US in force (R152). -/
  applyOff : Nat := 250000
  /-- SOLVE_START_US in force (R146). -/
  solveStart : Nat := 1000
  /-- next descriptor whose window opens, 0 none (R112). -/
  nextDesc : Nat := 0
  /-- its window start, ns (R112). -/
  nextOpen : Nat := 0
  /-- descriptor in progress (R112). -/
  run : Option RunX := none
  /-- the live initial state, Q15.16 (R95). -/
  x0 : List Int := []
  /-- weights zeroed for this period (R90). -/
  wZero : List Nat := []
  /-- live entries clamped this period (R91). -/
  clampList : List Nat := []
  /-- values clamped this period (R91). -/
  liveClamps : Nat := 0
  /-- the live map has been applied this period (R92). -/
  liveDone : Bool := false
  /-- this period's estimate is usable (R143). -/
  seUsable : Bool := false
  /-- this period's dispatch iterate (R121). -/
  dispIt : Option Iterate := none
  /-- withdrawn lane, stand-in, committed, cause (R138). -/
  withdrawn : List (Nat × Option Nat × Bool × Nat) := []
  /-- spares whose self-test runs (R140). -/
  testing : List Nat := []
  /-- x0 took fallback values this period (R96). -/
  seFallback : Bool := false
  /-- up time from which the first snapshot instant may fall after ENABLE rose (R111). -/
  startUp : Nat := 0
  deriving DecidableEq, Repr

/-- A queued or running loop update. -/
structure UpdJob where
  /-- slot (R176). -/
  slot : Nat := 0
  /-- sample instant, ns (R174). -/
  t : Nat := 0
  /-- the instant from which the output instant counts: the sample instant, moved with the time base when it steps (R177, R180). -/
  base : Nat := 0
  /-- latched PV (R187). -/
  pv : Int := 0
  /-- latched setpoint source (R187). -/
  sp : Int := 0
  /-- latched feed-forward (R187). -/
  ff : Int := 0
  /-- PV source bad (R188). -/
  pvBad : Bool := false
  /-- SP or FF source bad (R188). -/
  srcBad : Bool := false
  /-- the configuration words with which the update started: their words other than the reset value (R210, R211). -/
  cfg : List (Nat × Word) := []
  /-- the update is the first since the loop left OFF (R185, R190). -/
  fresh : Bool := false
  /-- the update is the first since a gain change (R199). -/
  gains : Bool := false
  deriving DecidableEq, Repr

/-- The relay auto-tune of a cluster. -/
structure TuneX where
  /-- a tune runs (R207). -/
  running : Bool := false
  /-- its loop's slot (R207). -/
  slot : Nat := 0
  /-- b (R207). -/
  bias : Int := 0
  /-- r at start (R207). -/
  r0 : Int := 0
  /-- the relay has switched (R207). -/
  switched : Bool := false
  /-- previous relay output (R207). -/
  relay : Int := 0
  /-- samples since the switch to b + d (R207). -/
  samples : Nat := 0
  /-- instant of the last switch (R207). -/
  lastSwitch : Nat := 0
  /-- max of y_f in the cycle (R207). -/
  yMax : Int := 0
  /-- min of y_f in the cycle (R207). -/
  yMin : Int := 0
  /-- period and doubled amplitude of each cycle (R207). -/
  cycles : List (Nat × Int) := []
  /-- slot whose next sample takes the proposed gains (R208). -/
  apply : Option Nat := none
  deriving DecidableEq, Repr

/-- A cluster beside its registers. -/
structure ClusterX where
  /-- staging copy, words 0 to 47 (R210). -/
  stage : List (Nat × Word) := []
  /-- queued updates (R176). -/
  queue : List UpdJob := []
  /-- update in progress (R173). -/
  running : Option UpdJob := none
  /-- the worst-case run is in progress (R179). -/
  worstRun : Bool := false
  /-- auto-tune (R207). -/
  tune : TuneX := {}
  deriving DecidableEq, Repr

/-- A loop beside its slot words. -/
structure LoopX where
  /-- computed outputs waiting, with their output instants, oldest first (R177). -/
  outs : List (Nat × Int) := []
  /-- out_prev (R198). -/
  outPrev : Int := 0
  /-- the next update is the first after a gain change (R199). -/
  gains : Bool := false
  /-- the loop has just left OFF (R190). -/
  fresh : Bool := true
  /-- a buffer clear runs (R206). -/
  clearing : Bool := false
  /-- a buffer clear waits for the next sample instant (R206). -/
  clearReq : Bool := false
  /-- the sample instant last taken (R210). -/
  sampled : Option Nat := none
  deriving DecidableEq, Repr

/-- A sigma-delta channel. -/
structure SdX where
  /-- completion of VALUE (R219). -/
  valueAt : Option Nat := none
  /-- clock-loss condition (R223). -/
  clkLost : Bool := false
  /-- data-stuck condition (R223). -/
  stuck : Bool := false
  /-- outputs to discard before the next VALUE (R222). -/
  settle : Nat := 3
  /-- consecutive outputs above (+) or below (-) (R224). -/
  limRun : Int := 0
  /-- the limit detector is set, and asserts LIM_TRIP while LIM_TRIP_EN = 1 (R224). -/
  tripping : Bool := false
  deriving DecidableEq, Repr

/-- The SAR converter. -/
structure SarX where
  /-- sequence A: next slot, trigger instant (R225). -/
  runA : Option (Nat × Nat) := none
  /-- sequence B: next slot, trigger instant (R225). -/
  runB : Option (Nat × Nat) := none
  /-- conversion in progress: sequence B?, channel (R226). -/
  converting : Option (Bool × Nat) := none
  /-- the instant at which the conversion in progress began (R225). -/
  convAt : Nat := 0
  /-- the channels that have been converted (R227). -/
  coded : BitVec 8 := 0
  /-- completion of each channel's VALUE (R219). -/
  valueAt : List (Nat × Nat) := []
  deriving DecidableEq, Repr

/-- A pulse input. -/
structure PulseX where
  /-- edge count, 64 bits (R228). -/
  wraps : Nat := 0
  /-- edges since the reference edge (R229). -/
  edges : Nat := 0
  /-- reference edge (R229). -/
  tRef : Option Nat := none
  /-- last edge (R229). -/
  tLast : Nat := 0
  /-- timed out (R230). -/
  tout : Bool := false
  deriving DecidableEq, Repr

/-- A PWM output. Ticks of `edges`, `lit` and `comp` count from the start of the running period. -/
structure PwmX where
  /-- the written duties that wait for an update point, with their instants, oldest first (R234). -/
  staged : List (Nat × Nat) := []
  /-- a DUTY write has come since the last period start (R235). -/
  wrote : Bool := false
  /-- periods without a write (R235). -/
  silent : Nat := 0
  /-- SAFE_DUTY applies at the next update point (R235). -/
  lostNext : Bool := false
  /-- SAFE_DUTY is in force (R235). -/
  onSafe : Bool := false
  /-- the output is at TRIP_LVL (R236). -/
  tripped : Bool := false
  /-- instant of the trip clear (R237). -/
  clearAt : Nat := 0
  /-- tick of the time base at which the running period started; none before the first since ENABLE rose (R231, R238). -/
  startAt : Option Nat := none
  /-- the running period's length in ticks (R231). -/
  period : Nat := 0
  /-- after a step of the time base, the tick at which the running period completes (R231). -/
  busy : Option Nat := none
  /-- the edges of the nominal signal, from the last one before the period on (R233). -/
  edges : List (Int × Bool) := []
  /-- the on intervals of the output (R233). -/
  lit : List (Int × Int) := []
  /-- the on intervals of the complement, with PAIR = 1 (R233). -/
  comp : List (Int × Int) := []
  /-- 0 IDLE level, 1 modulated, 2 TRIP_LVL (R233). -/
  level : Nat := 0
  deriving DecidableEq, Repr

/-- A period has started since ENABLE rose (R238). -/
def PwmX.started (x : PwmX) : Bool := x.startAt.isSome

/-- A task record of a program image. -/
structure TaskRec where
  /-- KIND (R273). -/
  kind : TaskKind := .cyclic
  /-- PRIO (R273). -/
  prio : Nat := 0
  /-- SOURCE (R273). -/
  source : Nat := 0
  /-- ENTRY (R273). -/
  entry : Nat := 0
  /-- PERIOD_US (R273). -/
  periodUs : Nat := 0
  /-- PHASE_US (R273). -/
  phaseUs : Nat := 0
  deriving DecidableEq, Repr

/-- An initial-data entry. -/
structure InitRec where
  /-- operand area (R274). -/
  area : Nat := 0
  /-- first word (R274). -/
  index : Nat := 0
  /-- bit 0 WARM, 1 COLD, 2 ONLINE (R274). -/
  flags : Nat := 0
  /-- value words (R274). -/
  vals : List Word := []
  deriving DecidableEq, Repr

/-- A program image as the engine holds it. -/
structure ImageX where
  /-- PROG_ID (R272). -/
  progId : Word := 0
  /-- PROG_BASE (R244). -/
  base : Nat := 0
  /-- PROG_WORDS (R244). -/
  words : Nat := 0
  /-- CODE_OFF in words (R272). -/
  codeOff : Nat := 0
  /-- CODE_WORDS (R272). -/
  codeWords : Nat := 0
  /-- task table (R273). -/
  tasks : List TaskRec := []
  /-- initial data (R274). -/
  inits : List InitRec := []
  /-- operand-use list: address, word count (R274). -/
  uses : List (Nat × Nat) := []
  /-- CYC_MIN_US (R272). -/
  cycMinUs : Nat := 250
  /-- WD_US (R272). -/
  wdUs : Nat := 250
  /-- BOOT_MODE (R272). -/
  bootMode : Nat := 2
  deriving DecidableEq, Repr

/-- A register bank of an engine. -/
structure Bank where
  /-- bit accumulator (R252). -/
  ba : Bool := false
  /-- word accumulator 1 (R252). -/
  acc1 : Word := 0
  /-- word accumulator 2 (R252). -/
  acc2 : Word := 0
  /-- program counter, word offset in the code (R252). -/
  pc : Nat := 0
  /-- OV, DZ, ADDR_ERR, WIN_ERR, MEM_ERR (R257). -/
  status : BitVec 5 := 0
  /-- branch stack (R252). -/
  branch : List (Bool × BrOp) := []
  /-- call stack (R252). -/
  calls : List Nat := []
  /-- task index running in this bank (R252). -/
  task : Option Nat := none
  /-- task priority, raised by PRI (R253). -/
  prio : Nat := 0
  /-- claim word (R350). -/
  claim : Word := 0
  /-- START_INFO of the activation (R257). -/
  startInfo : Nat := 0
  /-- release instant, ns field (R257). -/
  relNs : Nat := 0
  /-- first instruction's instant (R266). -/
  began : Nat := 0
  /-- the activation has written an R word (R288). -/
  wroteR : Bool := false
  /-- TB_NS latched by a read of TB_SEC (R257). -/
  nsLatch : Option Word := none
  /-- a block move in progress: words moved, and the destination's area and index (R256). -/
  move : Option (Nat × Nat × Nat) := none
  deriving DecidableEq, Repr

/-- A logic engine beside its registers. -/
structure EngineX where
  /-- 16 banks, by level (R252). -/
  banks : List (Nat × Bank) := []
  /-- preempted levels, highest first (R252). -/
  frozen : List Nat := []
  /-- running level (R262). -/
  cur : Option Nat := none
  /-- home program (R243). -/
  image : ImageX := {}
  /-- checked image of the change (R278). -/
  newImage : Option ImageX := none
  /-- released tasks waiting: task index, release instant (R262). -/
  waiting : List (Nat × Nat) := []
  /-- tasks that have not run since the last start (R257). -/
  firstRun : List Nat := []
  /-- START_INFO of the last start (R257). -/
  startKind : Nat := 0
  /-- instruction waiting for a remote read, with the area and index it reads (R256). -/
  wait : Option (Instr × Nat × Nat) := none
  /-- input image (R265). -/
  iImg : BitVec 64 := 0
  /-- output image (R265). -/
  qImg : BitVec 64 := 0
  /-- start of the last free cycle since the program started (R265). -/
  cycleAt : Option Nat := none
  /-- the source offered to the engine, and the instant at which it came (R257, R262). -/
  offered : Option (Nat × Nat) := none
  /-- the instant of each periodic task's last release (R263). -/
  released : List (Nat × Option Nat) := []
  /-- TASK_OVERRUNS by task (R264). -/
  overruns : List (Nat × Nat) := []
  /-- TASK_MAX_US by task (R293). -/
  taskMax : List (Nat × Nat) := []
  /-- outputs at FAIL_LVL until the first END of a start (R291). -/
  failLvl : Bool := true
  /-- outputs hold their levels after a failure (R286). -/
  hold : Bool := false
  /-- the Keeper's test runs (R287). -/
  testing : Bool := false
  /-- the reserve that runs this engine's program (R286). -/
  hostedBy : Option Nat := none
  deriving DecidableEq, Repr

/-- An EIC source. -/
structure SourceX where
  /-- state (R349). -/
  st : SrcState := .idle
  /-- instant it became pending (R356). -/
  since : Nat := 0
  /-- engine that last claimed it (R351). -/
  lastEng : Nat := 3
  /-- engine on which it is active (R349). -/
  claimedBy : Option Nat := none
  deriving DecidableEq, Repr

/-- A host record. -/
structure HostRec where
  /-- queue (R360). -/
  q : Nat := 0
  /-- its 32 bytes (R362). -/
  words : List Nat := []
  /-- instant it was buffered (R365). -/
  t : Nat := 0
  deriving DecidableEq, Repr

/-- A host queue beside its registers. -/
structure QueueX where
  /-- first dropped SEQ (R364). -/
  firstDrop : Word := 0
  /-- last dropped SEQ (R364). -/
  lastDrop : Word := 0
  /-- records written back since the last message (R366). -/
  unsig : Nat := 0
  /-- write-back of the oldest record not yet signalled (R366). -/
  oldest : Option Nat := none
  /-- PROD as last written to WB_ADDR (R365). -/
  wbProd : Word := 0
  deriving DecidableEq, Repr

/-- A host port. -/
structure PortX where
  /-- events on their way to the port's queues (R364). -/
  offers : List EvtMsg := []
  /-- internal buffer (R364). -/
  buf : List HostRec := []
  /-- masked MSI-X vectors (R366). -/
  mask : BitVec 9 := 0x1FF
  /-- MSI-X pending bits (R366). -/
  pend : BitVec 9 := 0
  /-- words of the MSI-X table other than 0: 4 × vector + word (address low and high, data, vector control) (R68, R366). -/
  table : List (Nat × Word) := []
  /-- completion timeout of Device Control 2, in µs (R32). -/
  cplUs : Nat := 50000
  /-- a read of host memory under way, since when in up time (R33). -/
  hostRead : Option Nat := none
  /-- completion timeouts (R33). -/
  cplCount : Nat := 0
  /-- the Completion Timeout error is reported on the port (R33). -/
  cplError : Bool := false
  /-- messages sent: vector and count (R366). -/
  sent : List (Nat × Nat) := []
  /-- records written to host memory, by address (R361). -/
  ring : List (Nat × List Nat) := []
  deriving DecidableEq, Repr

/-- A capture entry. -/
structure Cap where
  /-- seconds (R393). -/
  sec : Nat := 0
  /-- nanoseconds (R393). -/
  ns : Nat := 0
  /-- falling edge (R393). -/
  fall : Bool := false
  deriving DecidableEq, Repr

/-- A pulse output. -/
structure OutX where
  /-- START taken at arming, ns (R392). -/
  start : Nat := 0
  /-- PERIOD_NS taken (R392). -/
  period : Nat := 0
  /-- WIDTH_NS taken (R392). -/
  width : Nat := 0
  /-- OUT_MODE taken (R392). -/
  mode : Nat := 0
  /-- next instant (R392). -/
  next : Nat := 0
  /-- a pulse is in progress (R392). -/
  high : Bool := false
  /-- its end (R392). -/
  endAt : Nat := 0
  deriving DecidableEq, Repr

/-- A PTP message that the device has sent on a port. -/
structure PtpMsg where
  /-- 0 Sync, 1 Delay_Req, 2 Pdelay_Req, 3 Pdelay_Resp, 8 Follow_Up, 9 Delay_Resp, 10 Pdelay_Resp_Follow_Up, 11 Announce (R387). -/
  kind : Nat := 0
  /-- the timestamp it carries, ns (R389). -/
  origin : Nat := 0
  /-- correctionField, ns x 2^16 (R389). -/
  corr : Nat := 0
  /-- twoStepFlag, with the follow-up message sent after it (R389). -/
  twoStep : Bool := false
  /-- currentUtcOffset of an Announce (R385). -/
  utc : Nat := 0
  /-- leap61 of an Announce (R385). -/
  leap61 : Bool := false
  /-- leap59 of an Announce (R385). -/
  leap59 : Bool := false
  /-- currentUtcOffsetValid of an Announce (R385). -/
  utcValid : Bool := false
  /-- traceable flags of an Announce (R383). -/
  traceable : Bool := false
  /-- the data set of an Announce (R388). -/
  ds : Dataset := {}
  /-- timeSource of an Announce (R383). -/
  tsource : Nat := 0
  /-- domainNumber (R387). -/
  domain : Nat := 0
  /-- carried in UDP over IPv4 (R387). -/
  udp : Bool := false
  deriving DecidableEq, Repr

/-- The timekeeper beside its registers. -/
structure TmkX where
  /-- time of the previous pulse (R378). -/
  lastPulse : Option Nat := none
  /-- label of the previous pulse (R379). -/
  prevLabel : Option Nat := none
  /-- label that the next pulse will bear (R379). -/
  nextLabel : Option Nat := none
  /-- consecutive misses (R381). -/
  misses : Nat := 0
  /-- GNSS is valid (R381). -/
  gnssOk : Bool := false
  /-- the chain reference is valid (R381). -/
  chainOk : Bool := false
  /-- consecutive valid GNSS pulses (R381). -/
  validRun : Nat := 0
  /-- consecutive offsets within LOCK_NS (R383). -/
  lockRun : Nat := 0
  /-- LOCKED since boot (R383). -/
  everLocked : Bool := false
  /-- servo step on its way, ns x 2^16 (R386). -/
  pendingStep : Option Int := none
  /-- better foreign masters by port (R388). -/
  foreign : List (Nat × Dataset) := []
  /-- capture queues (R393). -/
  caps : List (Nat × List Cap) := []
  /-- pulse outputs (R392). -/
  outs : List (Nat × OutX) := []
  /-- port, second and requests answered in it (R391). -/
  dreq : List (Nat × Nat × Nat) := []
  /-- port and departure of its Pdelay_Req (R390). -/
  pdReq : List (Nat × Nat) := []
  /-- measured link delay by port, ns (R390). -/
  linkDelay : List (Nat × Nat) := []
  /-- last PTP message sent, by port, Follow_Ups apart (R389). -/
  sent : List (Nat × PtpMsg) := []
  /-- last Follow_Up or Pdelay_Resp_Follow_Up sent, by port (R389). -/
  follow : List (Nat × PtpMsg) := []
  /-- last offset of the reference in use, or the change to it, in up time (R381). -/
  refAt : Nat := 0
  /-- last valid GNSS pulse, in up time (R381). -/
  gnssAt : Nat := 0
  /-- last chain offset, in up time (R381). -/
  chainAt : Nat := 0
  /-- event messages heard on redundancy pairs: pair, sender, sequence, instant in up time (R451). -/
  copies : List (Nat × Nat × Nat × Nat) := []
  /-- a host SET or ADD has come since boot (R383). -/
  hostSet : Bool := false
  /-- compensated time at the start of HOLDOVER (R383). -/
  holdAt : Nat := 0
  /-- traceable flags (R383). -/
  traceable : Bool := false
  /-- boot has loaded the time base (R461). -/
  tbSet : Bool := false
  deriving DecidableEq, Repr

/-- A calendar value, BCD. -/
structure Cal where
  /-- RTC_SEC (R397). -/
  sec : Nat := 0
  /-- RTC_MIN (R397). -/
  min : Nat := 0
  /-- RTC_HOUR (R397). -/
  hour : Nat := 0
  /-- RTC_WDAY (R397). -/
  wday : Nat := 6
  /-- RTC_DAY (R397). -/
  day : Nat := 1
  /-- RTC_MONTH (R397). -/
  month : Nat := 1
  /-- RTC_YEAR (R397). -/
  year : Nat := 0
  /-- RTC_CENT (R397). -/
  cent : Nat := 32
  deriving DecidableEq, Repr

/-- The calendar clock in the AON island. -/
structure RtcX where
  /-- the last wake, in up time (R358). -/
  wakeAt : Option Nat := none
  /-- the calendar (R397). -/
  cal : Cal := {}
  /-- frozen shadows (R400). -/
  shadow : Option Cal := none
  /-- RTC_SUBSEC as frozen (R400). -/
  subShadow : Nat := 0
  /-- instant of the last commit, in up time (R408). -/
  commitAt : Option Nat := none
  /-- the UTC hour of the last synchronisation, made or skipped (R403). -/
  syncHour : Option Nat := none
  /-- instant of the freeze, in up time (R400). -/
  freezeAt : Nat := 0
  /-- instant of the last tick or commit, in up time (R397). -/
  tickAt : Nat := 0
  /-- BPOR is to be raised at the next boot (R407). -/
  bporDue : Bool := true
  /-- end of MIN_OFF_MS (R406). -/
  offUntil : Option Nat := none
  /-- a wake recorded during MIN_OFF_MS (R406). -/
  wakeHeld : Bool := false
  /-- seconds with VBAK above the threshold (R407). -/
  vbakOk : Nat := 0
  /-- counting from the RC oscillator (R407). -/
  rcClock : Bool := false
  /-- the AON island runs from VBAK (R562). -/
  onVbak : Bool := false
  /-- UTC_OFFSET in the backup registers (R385). -/
  backupUtc : Nat := 37
  /-- PWR_CYC in the backup registers (R528). -/
  backupPwr : Nat := 0
  deriving DecidableEq, Repr

/-- A receive queue entry. -/
structure RxEntry where
  /-- frame (R420). -/
  frame : CanFrame := {}
  /-- accepting filter (R419). -/
  filter : Nat := 0
  /-- timestamp (R421). -/
  ts : Word := 0
  deriving DecidableEq, Repr

/-- A CAN channel beside its registers. -/
structure CanX where
  /-- receive queue (R420). -/
  rxq : List RxEntry := []
  /-- integrating to the bus (R413). -/
  integrating : Bool := false
  /-- a recovery is owed (R423). -/
  owed : Bool := false
  /-- buffer of the running attempt (R416). -/
  sending : Option Nat := none
  /-- cancel marks (R418). -/
  cancels : BitVec 3 := 0
  /-- timestamp of the start of frame of the last attempt that succeeded (R421). -/
  sofTs : Word := 0
  /-- start of the integration or recovery, in up time (R413, R423). -/
  waitAt : Nat := 0
  deriving DecidableEq, Repr

/-- A serial channel beside its registers. -/
structure SerX where
  /-- received bytes (R431). -/
  rx : List Nat := []
  /-- first error found (R431). -/
  err : Nat := 0
  /-- start of the present step (R431). -/
  t0 : Nat := 0
  /-- end of the last character (R432). -/
  lastChar : Nat := 0
  /-- ABORT waits for a character boundary (R431). -/
  abort : Bool := false
  /-- bytes last sent, CRC included (R431). -/
  sent : List Nat := []
  /-- the last fall of SER_DE, in up time (R430). -/
  deAt : Option Nat := none
  deriving DecidableEq, Repr

/-- A forwarding-table entry. -/
structure Fdb where
  /-- address (R444). -/
  mac : Nat := 0
  /-- forwarding identifier (R444). -/
  fid : Nat := 1
  /-- egress ports (R454). -/
  ports : BitVec 13 := 0
  /-- static (R447). -/
  static : Bool := false
  /-- instant last seen (R445). -/
  seen : Nat := 0
  /-- way 0 to 3, or 4 for the overflow store (R444). -/
  way : Nat := 0
  /-- slot in the way (R444). -/
  slot : Nat := 0
  deriving DecidableEq, Repr

/-- An entry of a duplicate-discard table. -/
structure Dup where
  /-- redundancy pair (R450). -/
  pair : Nat := 0
  /-- source address (R450). -/
  src : Nat := 0
  /-- sequence number (R449). -/
  seq : Nat := 0
  /-- instant of the first copy (R450). -/
  t : Nat := 0
  /-- a copy came on LAN A (R450). -/
  lanA : Bool := false
  /-- a copy came on LAN B (R450). -/
  lanB : Bool := false
  deriving DecidableEq, Repr

/-- The switch. -/
structure EswX where
  /-- forwarding table (R444). -/
  fdb : List Fdb := []
  /-- learning requests: mac, fid, port (R445). -/
  learnQ : List (Nat × Nat × Nat) := []
  /-- flood tokens spent, by port (R448). -/
  tokens : List (Nat × Nat) := []
  /-- last refill, by port, in up time (R448). -/
  refillAt : List (Nat × Nat) := []
  /-- queued frames: port, class, frame (R443). -/
  egress : List (Nat × Nat × EthFrame) := []
  /-- duplicate-discard tables (R450). -/
  dups : List Dup := []
  /-- send sequence by pair (R449). -/
  sendSeq : List (Nat × Nat) := []
  /-- last frame received, by port (R450). -/
  heard : List (Nat × Nat) := []
  /-- class, plus one, of the frame in transmission, by egress port (R443). -/
  wire : List (Nat × Nat) := []
  /-- nodes of the duplicate-discard tables: pair, source, last copy in up time (R450). -/
  nodes : List (Nat × Nat × Nat) := []
  /-- last supervision frame by pair, in up time (R450). -/
  lifeAt : List (Nat × Nat) := []
  /-- free value that keys the hashes, drawn at boot (R444). -/
  hashKey : Nat := 0
  deriving DecidableEq, Repr

/-- The station exchange beside its registers. -/
structure SxeX where
  /-- start of the cycle in progress, ns (R298). -/
  cycleAt : Nat := 0
  /-- the read phase is open (R299). -/
  inRead : Bool := false
  /-- the cycle was cut short by a step (R301). -/
  cut : Bool := false
  /-- the write phase of the cycle has opened (R299). -/
  wrote : Bool := false
  /-- earliest first cycle after ENABLE rose, in up time (R300). -/
  startAt : Nat := 0
  /-- frames of the write phase (R305). -/
  outQ : List SxeFrame := []
  /-- station after the last one served with CONFIG (R309). -/
  cfgNext : Nat := 0
  /-- active table, word 4 x station + w (R311). -/
  table : List (Nat × Word) := []
  /-- staging copy (R311). -/
  staging : List (Nat × Word) := []
  /-- profile words in use (R304). -/
  prof : List (Nat × Word) := []
  /-- profile words written (R312). -/
  profNew : List (Nat × Word) := []
  /-- plan map in use: 2 x entry + w (R306). -/
  pmap : List (Nat × Word) := []
  /-- plan map written (R312). -/
  pmapNew : List (Nat × Word) := []
  /-- frames of the latest write phase handed to the switch (R305). -/
  sent : List SxeFrame := []
  /-- the first frame after a takeover is an ANNOUNCE (R495). -/
  announce : Bool := false
  deriving DecidableEq, Repr

/-- An axis beside its registers. -/
structure AxisX where
  /-- position, 2^-32 steps (R328). -/
  pos : Int := 0
  /-- speed, 2^-16 steps/s, signed (R328). -/
  vel : Int := 0
  /-- remainder of the speed, in 10^-6 units (R328). -/
  vFrac : Nat := 0
  /-- remainder of the position, in 10^-6 units (R328). -/
  pFrac : Nat := 0
  /-- a move is in progress (R326). -/
  moving : Bool := false
  /-- it decelerates to a stop before the next action (R330). -/
  stopping : Bool := false
  /-- a limit stops it without the final step (R333). -/
  stopHard : Bool := false
  /-- positive limit active or not yet released (R333). -/
  limP : Bool := false
  /-- negative limit active or not yet released (R333). -/
  limN : Bool := false
  /-- a rise has been accepted since reset (R323). -/
  everDok : Bool := false
  /-- HOME_PHASE in progress (R336). -/
  homing : Nat := 0
  /-- position at the start of the seek (R336). -/
  homeStart : Int := 0
  /-- homing waits for standstill (R336). -/
  homeWait : Bool := false
  /-- a homing has completed since reset (R338). -/
  homedOnce : Bool := false
  /-- TGT_NOW is to be pursued (R326). -/
  pendTgt : Bool := false
  /-- STOP or ESTOP: TARGET is to follow standstill (R335). -/
  tgtOrg : Bool := false
  /-- a DEC write since the deceleration began (R332). -/
  decWritten : Bool := false
  /-- the deceleration toward the target has begun (R327, R332). -/
  slowing : Bool := false
  /-- it stops because the new target lies behind or too near (R330). -/
  turning : Bool := false
  /-- the waiting target has been refused (R338). -/
  refused : Bool := false
  /-- the last update, in up time (R328). -/
  updAt : Option Nat := none
  /-- the direction last stepped is positive (R320). -/
  dirPos : Bool := false
  /-- steps issued (R334). -/
  steps : Nat := 0
  /-- the last inactive edge of the home switch: up time and steps issued by then (R334, R336). -/
  homeOff : Option (Nat × Nat) := none
  deriving DecidableEq, Repr

/-- A hammer group. -/
structure GroupX where
  /-- published PV (R340). -/
  pv : Int := 0
  /-- published OUT (R340). -/
  out : Int := 0
  /-- last publication (R340). -/
  pubAt : Option Nat := none
  /-- publisher's PV bad (R340). -/
  pvBad : Bool := false
  deriving DecidableEq, Repr

/-- A pair served as witness. -/
structure WitPair where
  /-- W_EPOCH (R489). -/
  epoch : Word := 0
  /-- W_HOLDER (R489). -/
  holder : Nat := 0
  /-- end of the lock (R489). -/
  lockEnd : Nat := 0
  deriving DecidableEq, Repr

/-- The chain beside its registers. -/
structure DchX where
  /-- membership list, this unit excluded (R482). -/
  members : List ChainUnit := []
  /-- binding table: address and serial (R481). -/
  table : List (Nat × Nat) := []
  /-- new table and its BIND_GEN, not yet in use (R483). -/
  newTable : Option (Nat × List (Nat × Nat)) := none
  /-- address and instant its unit went (R484). -/
  absentAt : List (Nat × Nat) := []
  /-- serials of unbound units that claim (R484). -/
  claims : List Nat := []
  /-- SEQ by class (R478). -/
  seqTx : List (Nat × Nat) := []
  /-- own heartbeat sequence (R488). -/
  hbSeq : Word := 0
  /-- sequence of the last peer heartbeat (R488). -/
  hbSeen : Word := 0
  /-- heartbeats sent and their instants (R488). -/
  hbSent : List (Word × Nat) := []
  /-- instant of the last peer heartbeat (R489). -/
  lastHb : Nat := 0
  /-- instant of the last echoing heartbeat (R490). -/
  lastEcho : Nat := 0
  /-- end of the lease (R488). -/
  leaseEnd : Nat := 0
  /-- end of the witness lock held (R490). -/
  lockEnd : Nat := 0
  /-- request outstanding: 0 none, 1 RETAIN, 2 TAKE, 3 TRANSFER (R489). -/
  reqKind : Nat := 0
  /-- its send instant (R490). -/
  reqAt : Nat := 0
  /-- its epoch (R489). -/
  reqEpoch : Word := 0
  /-- pairs served as witness, by lower address (R489). -/
  served : List (Nat × WitPair) := []
  /-- cut at which a swap takes place (R496). -/
  swapAt : Option Nat := none
  /-- items as of the last cut (R492). -/
  shadow : CutX := {}
  /-- the cut last sent (R492). -/
  cutOut : CutX := {}
  /-- epoch of the swap under way (R496). -/
  swapEpoch : Word := 0
  /-- instant of the last cut (R492). -/
  lastCutAt : Nat := 0
  /-- the full copy has been applied (R492). -/
  copyDone : Bool := false
  /-- the peer asks for the full copy (R491, R492). -/
  copyDue : Bool := false
  /-- measured delay of each port's link, ns (R485). -/
  linkDelay : List (Nat × Nat) := []
  /-- frame last sent on each port: 0 UP, 1 DOWN (R480). -/
  sent : List (Nat × ChainFrame) := []
  /-- start of the present round of HELLO (R482). -/
  helloAt : Nat := 0
  /-- last HELLO of each serial (R482). -/
  heard : List (Nat × Nat) := []
  /-- SET_ID and DIGEST that the standby reports CHECKED (R493). -/
  peerSet : Option (Word × List Nat) := none
  /-- ROLE that the peer last reported (R496). -/
  peerRole : Role := .single
  deriving DecidableEq, Repr

/-- A record of the recorder. -/
structure Rec1 where
  /-- CODE (R459). -/
  code : Nat := 0
  /-- UNIT (R459). -/
  unit : Nat := 0
  /-- FIXED (R462). -/
  fixed : Bool := false
  /-- TRUNC (R462). -/
  trunc : Bool := false
  /-- SEQ (R460). -/
  seq : Word := 0
  /-- OP_SEC (R460). -/
  opSec : Nat := 0
  /-- PWR_CYC (R460). -/
  pwr : Nat := 0
  /-- PAYLOAD (R459). -/
  pay : List Nat := []
  /-- CRC matches (R568). -/
  crcOk : Bool := true
  /-- segment of the ring, counted from the start of recording (R466). -/
  seg : Nat := 0
  deriving DecidableEq, Repr

/-- The settings and bucket of a record code. -/
structure CodeX where
  /-- CODE_EN (R458). -/
  en : Bool := true
  /-- CLASS (R463). -/
  cls : Nat := 1
  /-- tokens missing from a full bucket (R463). -/
  spent : Nat := 0
  /-- last refill or start of the clock, ns (R463). -/
  refillAt : Nat := 0
  /-- unsummarised suppressions (R463). -/
  supp : Nat := 0
  /-- OP_SEC of the first (R464). -/
  firstS : Nat := 0
  /-- OP_SEC of the last (R464). -/
  lastS : Nat := 0
  deriving DecidableEq, Repr

/-- The recorder beside its registers. -/
structure RecX where
  /-- messages on the event channel to REC (R465). -/
  inQ : List EvtMsg := []
  /-- input queue (R465). -/
  queue : List EvtMsg := []
  /-- messages lost since the last INPUT_LOST record (R465). -/
  lostOwed : Nat := 0
  /-- on-die ring, oldest first (R466). -/
  ring : List Rec1 := []
  /-- bytes used of the newest segment (R466). -/
  segFill : Nat := 0
  /-- number of the newest segment (R466). -/
  segNo : Nat := 0
  /-- holding buffer (R468). -/
  holding : List Rec1 := []
  /-- ring image in MRAM (R467). -/
  image : List Rec1 := []
  /-- code settings (R458). -/
  codes : List (Nat × CodeX) := []
  /-- class: RATE_MS, BURST (R463). -/
  classes : List (Nat × Nat × Nat) := []
  /-- instant of the freeze (R468). -/
  frozenAt : Nat := 0
  /-- requester (R468). -/
  frozenBy : Nat := 0
  /-- window buffer (R469). -/
  win : Option Rec1 := none
  /-- export running: first and last sequence, OP_SEC at its start (R470). -/
  exporting : Option (Nat × Nat × Nat) := none
  /-- records held when a reset ended a freeze (R473). -/
  relOwed : Option Nat := none
  /-- cleared up to this sequence, marking in progress (R472). -/
  clearing : Option Nat := none
  /-- PERSIST_FAILED has been written (R467). -/
  persistFail : Bool := false
  deriving DecidableEq, Repr

/-- Security beside its registers. -/
structure SecX where
  /-- end of the index batch, as MRAM holds it (R506). -/
  batchEnd : Nat := 0
  /-- index counter in MRAM, none when no copy is valid (R507). -/
  mramIdx : Option Nat := some 0
  /-- instant the debug port closes (R513). -/
  dbgEnd : Nat := 0
  /-- a reset closed the debug port: DEBUG_CLOSED is to be recorded at boot (R513). -/
  dbgOwed : Bool := false
  /-- a report is being made (R508). -/
  attesting : Bool := false
  /-- nonce read at the start (R508). -/
  attNonce : List Nat := []
  /-- instants of the last signatures (R507). -/
  signTimes : List Nat := []
  /-- open BEGIN: step reached (R514). -/
  journal : Option Nat := none
  /-- DIGEST of the image being installed (R503). -/
  fwDigest : List Nat := []
  /-- its VERSION (R503). -/
  fwVersion : Word := 0
  /-- its SVN (R503). -/
  fwSvn : Nat := 0
  /-- commit markers: slot (0, 1 firmware A, B; 2, 3 logic program; 4, 5 configuration), sequence, on device 0, on device 1 (R514). -/
  markers : List (Nat × Nat × Bool × Bool) := []
  /-- slots, numbered as in `markers`, whose object verifies (R515). -/
  slotOk : List Nat := [0, 1, 2, 3, 4, 5]
  /-- SVN of each firmware slot (R511). -/
  svnOf : List (Nat × Nat) := []
  /-- the switch waits for the next snapshot instant (R516). -/
  switchReq : Bool := false
  /-- index taken for the report (R506). -/
  attIdx : Nat := 0
  /-- DIGEST of each firmware slot (R508). -/
  fwDigests : List (Nat × List Nat) := []
  /-- contents of the firmware slots, by slot × 2^19 + byte (R23). -/
  fwSlots : List (Nat × Byte) := []
  /-- the Keeper's patch RAM: the firmware image that runs, by byte (R20). -/
  patchRam : List (Nat × Byte) := []
  /-- start of the copy, in up time (R516). -/
  copyAt : Nat := 0
  /-- the install waits for a resynchronisation (R518). -/
  waits : Bool := false
  deriving DecidableEq, Repr

/-- A replaced row group. -/
structure RowMap where
  /-- bank (R540). -/
  bank : Nat := 0
  /-- row group (R540). -/
  grp : Nat := 0
  /-- spare 256 + n, or row group borrowed (R540). -/
  target : Nat := 0
  /-- committed (R540). -/
  committed : Bool := false
  deriving DecidableEq, Repr

/-- A copy of the retentive memory in MRAM. -/
structure RetCopy where
  /-- sequence number (R288). -/
  seq : Nat := 0
  /-- its words other than 0 (R288). -/
  words : List (Nat × Word) := []
  /-- CRC-32C (R288). -/
  crc : Nat := 0
  deriving DecidableEq, Repr

/-- A logic program slot of MRAM. -/
structure ProgSlot where
  /-- the program store's words (R280). -/
  words : List (Nat × Word) := []
  /-- images by engine (R280). -/
  images : List (Nat × ImageX) := []
  deriving DecidableEq, Repr

/-- A configuration slot of MRAM. -/
structure CfgSlot where
  /-- ownership table: code, instance, owner (R56). -/
  owners : List (Nat × Nat × Nat) := []
  /-- register configuration (R529). -/
  regs : List (Nat × Word) := []
  /-- loop configuration words (R213). -/
  loops : List (Nat × Word) := []
  /-- station table (R529). -/
  stations : List (Nat × Word) := []
  /-- POT banks (R529). -/
  pot : List (Nat × Word) := []
  /-- POT tags (R529). -/
  tags : List (Nat × Word) := []
  /-- POT counts (R529). -/
  counts : List (Nat × Word) := []
  /-- SET_ID and DIGEST of the last switch (R109). -/
  set : Option (Word × List Nat) := none
  deriving DecidableEq, Repr

/-- Power, reset, boot, Keeper and MRAM devices. -/
structure PwrX where
  /-- power state (R524). -/
  st : PwrState := .run
  /-- island PLLs in lock, in the order of R12; AON has none and counts as locked (R12). -/
  pll : BitVec 9 := 0x100
  /-- islands not gated (R13). -/
  clk : BitVec 9 := 0x1FF
  /-- the device is held in reset (R527). -/
  inReset : Bool := false
  /-- boot step in progress, 0 none (R529). -/
  bootStep : Nat := 0
  /-- t_r (R529). -/
  bootAt : Nat := 0
  /-- RECOVERY (R530). -/
  recovery : Bool := false
  /-- KEEP entry runs (R526). -/
  keepEntry : Bool := false
  /-- requester of the entry (R526). -/
  keepBy : Nat := 0
  /-- a wake held until entry completes (R526). -/
  wakeHeld : Option Nat := none
  /-- a rail is below 94 % (R522). -/
  brown : Bool := false
  /-- VDD_CORE is the rail, or one of the rails, that is lost (R565). -/
  coreLost : Bool := false
  /-- OP_SEC of Keeper watchdog expiries (R537). -/
  kwTimes : List Nat := []
  /-- part of an hour of LIFE_USED, in 2^-16 s (R534). -/
  lifeFrac : Nat := 0
  /-- HEALTH_WARN thresholds passed (R534). -/
  lifeRaised : Nat := 0
  /-- bank, row group, OP_SEC of corrected errors (R539). -/
  ce : List (Nat × Nat × Nat) := []
  /-- repair map: row groups (R540). -/
  repair : List RowMap := []
  /-- replacement in progress (R540). -/
  copying : Option RowMap := none
  /-- solver words that hold an uncorrectable error or are poisoned, by logical address (R542). -/
  poison : List Nat := []
  /-- words that hold an uncorrectable error: 0 solver SRAM and its address, or operand area 4 data or 5 retentive and the word (R295). -/
  bad : List (Nat × Nat) := []
  /-- spares used, by bank (R540). -/
  sparesUsed : List (Nat × Nat) := []
  /-- banks for which SPARES_EXHAUSTED has been raised (R541). -/
  exhausted : List Nat := []
  /-- device and OP_SEC of each READ_FIX (R532). -/
  fixTimes : List (Nat × Nat) := []
  /-- chunks copied by the resynchronisation (R533). -/
  chunks : Nat := 0
  /-- PWR_CYC in the health record (R528). -/
  hrPwr : Nat := 0
  /-- OP_SEC in the health record (R528). -/
  hrOpSec : Nat := 0
  /-- committed lane retirements (R139). -/
  laneRetired : List Nat := []
  /-- journalled FAIL_COUNT (R138). -/
  laneFail : List (Nat × Nat) := []
  /-- lane and OP_SEC of its last failure or decrement (R138). -/
  laneAt : List (Nat × Nat) := []
  /-- retentive copies, newest first (R288). -/
  retCopies : List RetCopy := []
  /-- the last capture, in up time (R288). -/
  retLast : Nat := 0
  /-- the standby logic program slot (R23, R280). -/
  progStandby : ProgSlot := {}
  /-- the active slot of the logic program pair: 0 A, 1 B (R23, R514). -/
  progActive : Nat := 0
  /-- BEGIN is open for the standby program slot (R280, R514). -/
  progBegin : Bool := false
  /-- the standby configuration slot (R23). -/
  cfgStandby : CfgSlot := {}
  /-- the active slot of the configuration pair: 0 A, 1 B (R23, R514). -/
  cfgActive : Nat := 0
  /-- the copies that fail their check: device, and byte address in R23's layout; every other copy on the two devices is the content held here (R23, R532). -/
  mramBad : List (Nat × Nat) := []
  /-- active logic program slot (R280). -/
  progSlot : List (Nat × Word) := []
  /-- images of the active program slot, by engine (R280). -/
  progImages : List (Nat × ImageX) := []
  /-- the program slot is being written (R280). -/
  progDirty : Bool := false
  /-- ownership table of the configuration slot: code, instance, owner (R56). -/
  cfgOwners : List (Nat × Nat × Nat) := []
  /-- register configuration of the configuration slot (R529). -/
  cfgRegs : List (Nat × Word) := []
  /-- loop configuration words of the configuration slot (R213). -/
  cfgLoops : List (Nat × Word) := []
  /-- station table of the configuration slot (R529). -/
  cfgStations : List (Nat × Word) := []
  /-- POT banks of the configuration slot (R529). -/
  cfgPot : List (Nat × Word) := []
  /-- POT tags of the configuration slot (R529). -/
  cfgTags : List (Nat × Word) := []
  /-- POT counts of the configuration slot (R529). -/
  cfgCounts : List (Nat × Word) := []
  /-- SET_ID and DIGEST of the last switch (R109). -/
  cfgSet : Option (Word × List Nat) := none
  deriving DecidableEq, Repr

/-- The machine. -/
structure State where
  /-- MODEL'S OWN: commands waiting, first in first out. -/
  pending : List Instr := []
  /-- MODEL'S OWN: counter of free values (assumption 6). -/
  freeTick : Nat := 0
  /-- time base in ns since its epoch (R373). -/
  now : Nat := 0
  /-- fraction below the ns, 2^-40 (R373). -/
  frac : BitVec 40 := 0
  /-- compensated time, ns (R258). -/
  ct : Nat := 0
  /-- MODEL'S OWN: real time that has passed, ns, never set back (assumption 1) (R528). -/
  up : Nat := 0
  /-- up time at the last reset (R528). -/
  upBase : Nat := 0
  /-- operating seconds at the last reset (R528). -/
  opBase : Nat := 0
  /-- every register field, by key; unlisted fields hold their reset value (R51). -/
  regs : List (Nat × Word) := []
  /-- per page, by 32 x code + instance (R51). -/
  pages : List (Nat × PageX) := []
  /-- MODEL'S OWN: data last returned to each requester (R8). -/
  resp : List (Nat × Word) := []
  /-- writes taken by the AON gateway and not yet delivered: page, offset, value (R19). -/
  aonQ : List (Nat × Nat × Word) := []
  /-- AON register fields as delivered to the AON island, by key (R19). -/
  aonRegs : List (Nat × Word) := []
  /-- sources whose level has risen, on the event channel (R347). -/
  toEic : List Nat := []
  /-- solver SRAM bytes, by logical address (R20). -/
  solver : List Host.Cell := []
  /-- general SRAM bytes, by internal address (R20). -/
  general : List Host.Cell := []
  /-- fuse bytes (R501). -/
  fuses : List Host.Cell := []
  /-- loop memory, word 64 g + w (R173). -/
  loopMem : List (Nat × Word) := []
  /-- repetitive-controller memory, words (R203). -/
  rcMem : List (Nat × Word) := []
  /-- program store, words (R244). -/
  progMem : List (Nat × Word) := []
  /-- logic data memory, words, timers and counters included (R245). -/
  dataMem : List (Nat × Word) := []
  /-- retentive memory, words (R246). -/
  retMem : List (Nat × Word) := []
  /-- process image, last-good input words (R296). -/
  inImg : List (Nat × Word) := []
  /-- process image, output words (R296). -/
  outImg : List (Nat × Word) := []
  /-- solver sequencer (R103). -/
  dsq : DsqX := {}
  /-- handover (R149). -/
  ho : HoX := {}
  /-- clusters, by number (R172). -/
  clusters : List (Nat × ClusterX) := []
  /-- loops, by number (R172). -/
  loops : List (Nat × LoopX) := []
  /-- For each ACT output (key 2i) and axis (key 2i + 1), the instant and the loop of the route output last applied (R201). -/
  routed : List (Nat × (Nat × Nat)) := []
  /-- sigma-delta channels (R221). -/
  sd : List (Nat × SdX) := []
  /-- SAR converter (R225). -/
  sar : SarX := {}
  /-- pulse inputs (R228). -/
  pulse : List (Nat × PulseX) := []
  /-- PWM outputs (R231). -/
  pwm : List (Nat × PwmX) := []
  /-- trip pins at their active level (R236). -/
  tripPins : BitVec 4 := 0
  /-- logic engines (R243). -/
  engines : List (Nat × EngineX) := []
  /-- force table (R281). -/
  forces : List (Nat × Force) := []
  /-- EIC sources (R349). -/
  sources : List (Nat × SourceX) := []
  /-- last claim of each moderation group: its instant + 1, 0 when no interval runs (R354). -/
  lastClaim : List (Nat × Nat) := []
  /-- host ports (R360). -/
  ports : List (Nat × PortX) := []
  /-- host queues, by 8 x port + queue (R361). -/
  queues : List (Nat × QueueX) := []
  /-- timekeeper (R373). -/
  tmk : TmkX := {}
  /-- calendar clock (R397). -/
  rtc : RtcX := {}
  /-- CAN channels (R411). -/
  can : List (Nat × CanX) := []
  /-- serial channels (R430). -/
  ser : List (Nat × SerX) := []
  /-- Ethernet switch (R440). -/
  esw : EswX := {}
  /-- station exchange (R296). -/
  sxe : SxeX := {}
  /-- stations (R307). -/
  stations : List (Nat × StationX) := []
  /-- axes (R320). -/
  axes : List (Nat × AxisX) := []
  /-- hammer groups (R340). -/
  groups : List (Nat × GroupX) := []
  /-- chain and pair (R477). -/
  dch : DchX := {}
  /-- recorder (R456). -/
  rcd : RecX := {}
  /-- security (R501). -/
  sec : SecX := {}
  /-- power, reset, boot, repair, MRAM (R521). -/
  pwr : PwrX := {}
  deriving DecidableEq, Repr

/-- Reasons for which the machine could stop with a fault. No meaning of this model raises one: the spec names no event after which the block stands still. -/
inductive Fault where
  /-- Raised by no command: kept so that the type of outcomes has a fault. Safe. -/
  | none
  deriving DecidableEq, Repr

/-- Reasons for which the model refuses a command. -/
inductive Refusal where
  /-- Raised by an arm of `exec` for a command that has no meaning yet. Safe: no claim about such a command can be proved from it. -/
  | notModelled (mnemonic : String)
  /-- Raised by an instruction of a logic engine in a form that the checks of a load refuse (R275), so that no engine ever runs it: a mode or operand that R253 or R249 does not allow, a jump to before the code, or a bracket beyond the branch stack (R254). Safe: the block never meets it. -/
  | loadCheck
  deriving DecidableEq, Repr

/-- The machine right after a power-on reset, before RESET_RELEASE: every field at the reset value of the spec, or at the value that assumption 4 names; no memory lists a cell, and no command waits. -/
def State.reset : State := {}

end Sys2Proof.Machine
end

