-- ==== Sys2Proof/Machine/Regs.lean ====
section
/-! DEFINITION. The register fields of every page, from the register tables of the spec: place, access, reset value and the legal range that does not depend on another field. -/

namespace Sys2Proof.Machine

/-- The access types of R8. -/
inductive Acc where
  | ro | rw | wo | rwl | w1c
  deriving DecidableEq, Repr

/-- A legal range (R64). -/
inductive Rng where
  | any
  | num (lo hi : Nat)
  | snum (lo hi : Int)
  | step (lo hi m : Nat)
  | divs (lo hi n : Nat)
  | near (vals : List Nat)
  | enum (codes : List Nat)
  | nib (hi : Nat)
  | bcd (lo hi : Nat)
  deriving DecidableEq, Repr

/-- A register field: block code, page offset of its first register, distance of its repetitions, their number, lowest bit, width, access type, reset value and legal range. -/
structure Fld where
  code : Nat
  off : Nat
  stride : Nat
  n : Nat
  lsb : Nat
  width : Nat
  acc : Acc
  rst : Nat
  rng : Rng
  deriving DecidableEq, Repr

namespace IFX

/-- R59: Accesses to gated or reset islands (R18); saturates. -/
def GATED_ACCESS : Fld := ⟨4, 0x040, 0, 1, 0, 32, .ro, 0, .any⟩
/-- R59: Page address of the last such access. -/
def GATED_ADDR : Fld := ⟨4, 0x044, 0, 1, 0, 32, .ro, 0, .any⟩
/-- R59: Accesses under R48 and to reserved addresses; saturates. -/
def UNMAPPED_ACCESS : Fld := ⟨4, 0x048, 0, 1, 0, 32, .ro, 0, .any⟩
/-- R59: Ownership grant time in ms. 0 disables the timed grant. -/
def OWN_TIMEOUT : Fld := ⟨4, 0x04C, 0, 1, 0, 16, .rw, 100, .num 0 10000⟩

/-- The fields of the page. -/
def fields : List Fld :=
  [ GATED_ACCESS, GATED_ADDR, UNMAPPED_ACCESS, OWN_TIMEOUT ]

end IFX

namespace DSQ

/-- R108: Start of slot A. -/
def SET_A_BASE : Fld := ⟨16, 0x040, 0, 1, 0, 32, .rwl, 0x40200000, .step 1075838976 1140850432 256⟩
/-- R108: Bytes in slot A. -/
def SET_A_SIZE : Fld := ⟨16, 0x044, 0, 1, 0, 32, .rwl, 0, .step 0 16777216 256⟩
/-- R108: Start of slot B. -/
def SET_B_BASE : Fld := ⟨16, 0x048, 0, 1, 0, 32, .rwl, 0x40200000, .step 1075838976 1140850432 256⟩
/-- R108: Bytes in slot B. -/
def SET_B_SIZE : Fld := ⟨16, 0x04C, 0, 1, 0, 32, .rwl, 0, .step 0 16777216 256⟩
/-- R108: Start of the workspace. -/
def WORK_BASE : Fld := ⟨16, 0x050, 0, 1, 0, 32, .rwl, 0x40200000, .step 1075838976 1140850432 256⟩
/-- R108: Bytes in the workspace. -/
def WORK_SIZE : Fld := ⟨16, 0x054, 0, 1, 0, 32, .rwl, 0, .step 0 65011712 256⟩
/-- R108: Start of the result region. -/
def RESULT_BASE : Fld := ⟨16, 0x058, 0, 1, 0, 32, .rwl, 0x40200000, .step 1075838976 1140850432 256⟩
/-- R108: Bytes in the result region. -/
def RESULT_SIZE : Fld := ⟨16, 0x05C, 0, 1, 0, 32, .rwl, 0, .step 0 65011712 256⟩
/-- R108: Slot command. NONE only names SLOT, which selects the slot that STBY_STATE shows while no set is active. -/
def CMD : Fld := ⟨16, 0x060, 0, 1, 0, 3, .wo, 0, .enum [0, 1, 2, 3, 4]⟩
/-- R108: Slot that the command names. -/
def SLOT : Fld := ⟨16, 0x060, 0, 1, 4, 1, .wo, 0, .enum [0, 1]⟩
/-- R108: 0 A, 1 B; meaningful when ACTIVE_VALID = 1. -/
def ACTIVE_SLOT : Fld := ⟨16, 0x064, 0, 1, 0, 1, .ro, 0, .any⟩
/-- R108: 1 while a set is active. -/
def ACTIVE_VALID : Fld := ⟨16, 0x064, 0, 1, 1, 1, .ro, 0, .any⟩
/-- R108: 0 EMPTY, 1 CHECKING, 2 CHECKED, 3 ARMED. With no active set, the state of the slot last named by SLOT in a write of SET_CMD, whatever its CMD, NONE included (R103). -/
def STBY_STATE : Fld := ⟨16, 0x064, 0, 1, 2, 2, .ro, 0, .any⟩
/-- R108: Snapshot buffer of the current period. -/
def SNAP_BUF : Fld := ⟨16, 0x064, 0, 1, 4, 1, .ro, 0, .any⟩
/-- R108: Result of the last check (R105). -/
def CHECK_CODE : Fld := ⟨16, 0x064, 0, 1, 8, 8, .ro, 0, .any⟩
/-- R108: Failing item (R105). -/
def CHECK_ITEM : Fld := ⟨16, 0x064, 0, 1, 16, 8, .ro, 0, .any⟩
/-- R108: Byte offset of the failure in the set; for X0_UNCOVERED, the index of the lowest uncovered element (R105). -/
def CHECK_OFFSET : Fld := ⟨16, 0x068, 0, 1, 0, 24, .ro, 0, .any⟩
/-- R108: SET_ID of the active set. -/
def ACTIVE_SET_ID : Fld := ⟨16, 0x06C, 0, 1, 0, 32, .ro, 0, .any⟩
/-- R108: Writes discarded under R76, and set-region or command writes refused under R103 and R109; saturates. -/
def REFUSED_WR : Fld := ⟨16, 0x070, 0, 1, 0, 32, .ro, 0, .any⟩
/-- R108: First logical address above usable solver SRAM. -/
def SOLVER_CAP : Fld := ⟨16, 0x074, 0, 1, 0, 32, .ro, 0x44000000, .any⟩
/-- R108: Last clamped live-map entry. -/
def LAST_ENTRY : Fld := ⟨16, 0x078, 0, 1, 0, 16, .ro, 0, .any⟩
/-- R108: Values clamped in the last live application; saturates. -/
def COUNT : Fld := ⟨16, 0x078, 0, 1, 16, 16, .ro, 0, .any⟩
/-- R108: General SRAM source of the forecast copy. -/
def FORECAST_BASE : Fld := ⟨16, 0x07C, 0, 1, 0, 32, .rw, 0x48000000, .step 1207959552 1224540160 256⟩
/-- R108: Bytes copied. -/
def FORECAST_SIZE : Fld := ⟨16, 0x080, 0, 1, 0, 18, .rw, 0, .step 0 196608 256⟩
/-- R146: 0 idle, 1 state estimation, 2 dispatch, 3 to 10 contingency 0 to 7. -/
def RUN_DESC : Fld := ⟨16, 0x100, 0, 1, 0, 4, .ro, 0, .any⟩
/-- R146: 0 IDLE, 1 SETUP, 2 R, 3 F, 4 S, 5 FINAL. -/
def PHASE : Fld := ⟨16, 0x100, 0, 1, 4, 3, .ro, 0, .any⟩
/-- R146: Iteration in progress. -/
def ITER_NOW : Fld := ⟨16, 0x100, 0, 1, 8, 8, .ro, 0, .any⟩
/-- R146: Stage in progress. -/
def STAGE_NOW : Fld := ⟨16, 0x100, 0, 1, 16, 7, .ro, 0, .any⟩
/-- R146: Current plan period number. -/
def PERIOD_SEQ : Fld := ⟨16, 0x104, 0, 1, 0, 32, .ro, 0, .any⟩
/-- R146: First window opens this many µs after t_k; takes effect at the next snapshot instant. -/
def SOLVE_START_US : Fld := ⟨16, 0x108, 0, 1, 0, 14, .rw, 1000, .num 500 10000⟩
/-- R146: T_se of the active set, SOLVE cycles. -/
def PRED_SE : Fld := ⟨16, 0x10C, 0, 1, 0, 32, .ro, 0, .any⟩
/-- R146: T of the dispatch descriptor. -/
def PRED_DISP : Fld := ⟨16, 0x110, 0, 1, 0, 32, .ro, 0, .any⟩
/-- R146: T of each contingency; 0 if absent. -/
def PRED_CONT : Fld := ⟨16, 0x114, 4, 8, 0, 32, .ro, 0, .any⟩
/-- R146: Active lanes L. -/
def ACTIVE : Fld := ⟨16, 0x134, 0, 1, 0, 5, .ro, 16, .any⟩
/-- R146: Free spares; a lane standing in is not counted (R138). -/
def SPARES : Fld := ⟨16, 0x134, 0, 1, 5, 2, .ro, 2, .any⟩
/-- R146: Bit n set: physical lane n retired. -/
def RETIRED : Fld := ⟨16, 0x134, 0, 1, 14, 18, .ro, 0, .any⟩
/-- R146: Last state-estimation status. -/
def SE_STATUS : Fld := ⟨16, 0x138, 0, 1, 0, 8, .ro, 0, .any⟩
/-- R146: Last dispatch status. -/
def DISP_STATUS : Fld := ⟨16, 0x138, 0, 1, 8, 8, .ro, 0, .any⟩
/-- R146: Its ITER_DONE. -/
def DISP_ITER_DONE : Fld := ⟨16, 0x138, 0, 1, 16, 8, .ro, 0, .any⟩
/-- R146: One byte per contingency. -/
def CONT_STATUS_0 : Fld := ⟨16, 0x13C, 0, 1, 0, 32, .ro, 0, .any⟩
/-- R146: One byte per contingency. -/
def CONT_STATUS_4 : Fld := ⟨16, 0x140, 0, 1, 0, 32, .ro, 0, .any⟩
/-- R146: Bit per descriptor (0 state estimation, 1 dispatch, 2 to 9 contingencies): slot of the last completed result. -/
def RES_LAST : Fld := ⟨16, 0x144, 0, 1, 0, 10, .ro, 0, .any⟩
/-- R146: Bit per descriptor: a completed result of the active set exists (R100). -/
def RES_VALID : Fld := ⟨16, 0x144, 0, 1, 16, 10, .ro, 0, .any⟩
/-- R146: Bank-hash keys drawn since manufacture. -/
def HASH_EPOCH : Fld := ⟨16, 0x148, 0, 1, 0, 32, .ro, 0, .any⟩
/-- R146: Conflict fraction of the last window, UQ0.16. -/
def CONFLICT_WIN : Fld := ⟨16, 0x14C, 0, 1, 0, 16, .ro, 0, .any⟩
/-- R146: Consecutive windows above 1/8; saturates. -/
def HIGH_RUN : Fld := ⟨16, 0x14C, 0, 1, 16, 16, .ro, 0, .any⟩
/-- R146: Highest CONFLICT_WIN since cleared. -/
def CONFLICT_PEAK : Fld := ⟨16, 0x150, 0, 1, 0, 16, .ro, 0, .any⟩
/-- R146: Pivot replacements; saturates. -/
def REG_TOTAL : Fld := ⟨16, 0x154, 0, 1, 0, 32, .ro, 0, .any⟩
/-- R146: Saturations; saturates. -/
def SAT_TOTAL : Fld := ⟨16, 0x158, 0, 1, 0, 32, .ro, 0, .any⟩
/-- R146: Block re-executions; saturates. -/
def REEXEC_TOTAL : Fld := ⟨16, 0x15C, 0, 1, 0, 32, .ro, 0, .any⟩
/-- R146: 1 clears 0x14C to 0x15C and 0x164. -/
def CTR_CLR : Fld := ⟨16, 0x160, 0, 1, 0, 1, .wo, 0, .num 0 1⟩
/-- R146: Descriptors abandoned under R114; saturates. -/
def ABANDONED : Fld := ⟨16, 0x164, 0, 1, 0, 32, .ro, 0, .any⟩
/-- R146: Plan period; writes accepted only while ENABLE = 0 (R111). -/
def PLAN_PERIOD_US : Fld := ⟨16, 0x168, 0, 1, 0, 26, .rw, 0xF4240, .near ([250000, 500000] ++ ([1, 2, 3, 4, 5, 6, 10, 12, 15, 20, 30, 60].map (· * 1000000)))⟩
/-- R146: Phase of the snapshot instants; writes accepted only while ENABLE = 0 (R111). -/
def PLAN_PHASE_US : Fld := ⟨16, 0x16C, 0, 1, 0, 26, .rw, 0, .any⟩
/-- R170: Non-accepted periods before the safe schedule; 0 disables. -/
def RED_LIMIT : Fld := ⟨16, 0x200, 0, 1, 0, 8, .rw, 5, .num 0 255⟩
/-- R170: Accepted plans needed to leave the safe schedule. -/
def RECOVER_COUNT : Fld := ⟨16, 0x200, 0, 1, 8, 4, .rw, 3, .num 1 15⟩
/-- R170: R162. -/
def RELEASE_MODE : Fld := ⟨16, 0x200, 0, 1, 12, 1, .rw, 0, .enum [0, 1]⟩
/-- R170: R150. -/
def ACCEPT_AMBER : Fld := ⟨16, 0x200, 0, 1, 13, 1, .rw, 1, .num 0 1⟩
/-- R170: R149. -/
def CLAMP_AMBER : Fld := ⟨16, 0x200, 0, 1, 14, 1, .rw, 0, .num 0 1⟩
/-- R170: R152; takes effect at the next snapshot instant. -/
def APPLY_OFFSET_US : Fld := ⟨16, 0x204, 0, 1, 0, 22, .rw, 0x3D090, .num 1000 3600000⟩
/-- R170: R165. -/
def TRIP_APPLY_US : Fld := ⟨16, 0x208, 0, 1, 0, 17, .rw, 1000, .num 100 100000⟩
/-- R170: Plan periods of age allowed for a contingency result. -/
def CONT_AGE : Fld := ⟨16, 0x20C, 0, 1, 0, 4, .rw, 2, .num 0 8⟩
/-- R170: 1 latches a trip of plant j. -/
def TRIP_SET : Fld := ⟨16, 0x210, 0, 1, 0, 32, .wo, 0, .any⟩
/-- R170: Latched trips. -/
def TRIP_STATE : Fld := ⟨16, 0x214, 0, 1, 0, 32, .w1c, 0, .any⟩
/-- R170: 0 SAFE, 1 PLAN, 2 TAIL, 3 CONTINGENCY. -/
def MODE : Fld := ⟨16, 0x218, 0, 1, 0, 2, .ro, 0, .any⟩
/-- R170: 0 dispatch, 1 to 8 contingency 0 to 7. -/
def SOURCE : Fld := ⟨16, 0x218, 0, 1, 2, 4, .ro, 0, .any⟩
/-- R170: Grade of the plan in force. -/
def GRADE : Fld := ⟨16, 0x218, 0, 1, 6, 2, .ro, 2, .any⟩
/-- R170: Stage in force. -/
def STAGE : Fld := ⟨16, 0x218, 0, 1, 8, 7, .ro, 0, .any⟩
/-- R170: R164. -/
def PARTIAL_COVER : Fld := ⟨16, 0x218, 0, 1, 15, 1, .ro, 0, .any⟩
/-- R170: R160. -/
def RED_RUN : Fld := ⟨16, 0x218, 0, 1, 16, 8, .ro, 0, .any⟩
/-- R170: R162. -/
def GOOD_RUN : Fld := ⟨16, 0x218, 0, 1, 24, 4, .ro, 0, .any⟩
/-- R170: Buffer in force. -/
def PLAN_BUF : Fld := ⟨16, 0x218, 0, 1, 28, 2, .ro, 0, .any⟩
/-- R170: 0 RESET, 1 RED_LIMIT, 2 EXHAUSTED, 3 NO_BANK. -/
def SAFE_CAUSE : Fld := ⟨16, 0x218, 0, 1, 30, 2, .ro, 0, .any⟩
/-- R170: PERIOD_SEQ of the plan in force. -/
def PLAN_SEQ_IN_FORCE : Fld := ⟨16, 0x21C, 0, 1, 0, 32, .ro, 0, .any⟩
/-- R170: POT bank that the window addresses. -/
def BANK : Fld := ⟨16, 0x220, 0, 1, 0, 1, .rw, 0, .num 0 1⟩
/-- R170: POT entry that the window addresses. -/
def INDEX : Fld := ⟨16, 0x220, 0, 1, 16, 10, .rw, 0, .num 0 1023⟩
/-- R170: Entry words. A write of POT_W3 commits all four and adds 1 to INDEX, modulo 1,024, so 1,023 is followed by 0. -/
def POT_W0 : Fld := ⟨16, 0x224, 0, 1, 0, 32, .rw, 0, .any⟩
/-- R170: Entry words. A write of POT_W3 commits all four and adds 1 to INDEX, modulo 1,024, so 1,023 is followed by 0. -/
def POT_W1 : Fld := ⟨16, 0x228, 0, 1, 0, 32, .rw, 0, .any⟩
/-- R170: Entry words. A write of POT_W3 commits all four and adds 1 to INDEX, modulo 1,024, so 1,023 is followed by 0. -/
def POT_W2 : Fld := ⟨16, 0x22C, 0, 1, 0, 32, .rw, 0, .any⟩
/-- R170: Entry words. A write of POT_W3 commits all four and adds 1 to INDEX, modulo 1,024, so 1,023 is followed by 0. -/
def POT_W3 : Fld := ⟨16, 0x230, 0, 1, 0, 32, .rw, 0, .any⟩
/-- R170: Tag of the selected bank. -/
def POT_TAG : Fld := ⟨16, 0x234, 0, 1, 0, 32, .rw, 0, .any⟩
/-- R170: Entries in the selected bank. -/
def POT_COUNT : Fld := ⟨16, 0x238, 0, 1, 0, 11, .rw, 0, .num 0 1024⟩
/-- R170: Clamps in the latest update; saturates. -/
def VALUE_CLAMPS : Fld := ⟨16, 0x23C, 0, 1, 0, 16, .ro, 0, .any⟩
/-- R170: Last clamped plan value. -/
def LAST_VALUE : Fld := ⟨16, 0x23C, 0, 1, 16, 10, .ro, 0, .any⟩
/-- R170: Handover events, R171. -/
def HO_EVT_RAW : Fld := ⟨16, 0x240, 0, 1, 0, 9, .ro, 0, .any⟩
/-- R170: As PG_EVT_EN. -/
def HO_EVT_EN : Fld := ⟨16, 0x244, 0, 1, 0, 9, .rw, 0, .any⟩
/-- R170: As PG_EVT_PEND. -/
def HO_EVT_PEND : Fld := ⟨16, 0x248, 0, 1, 0, 9, .w1c, 0, .any⟩

/-- The fields of the page. -/
def fields : List Fld :=
  [ SET_A_BASE, SET_A_SIZE, SET_B_BASE, SET_B_SIZE, WORK_BASE, WORK_SIZE, RESULT_BASE, RESULT_SIZE, CMD, SLOT, ACTIVE_SLOT, ACTIVE_VALID, STBY_STATE, SNAP_BUF, CHECK_CODE, CHECK_ITEM, CHECK_OFFSET, ACTIVE_SET_ID, REFUSED_WR, SOLVER_CAP, LAST_ENTRY, COUNT, FORECAST_BASE, FORECAST_SIZE ] ++
  [ RUN_DESC, PHASE, ITER_NOW, STAGE_NOW, PERIOD_SEQ, SOLVE_START_US, PRED_SE, PRED_DISP, PRED_CONT, ACTIVE, SPARES, RETIRED, SE_STATUS, DISP_STATUS, DISP_ITER_DONE, CONT_STATUS_0, CONT_STATUS_4, RES_LAST, RES_VALID, HASH_EPOCH, CONFLICT_WIN, HIGH_RUN, CONFLICT_PEAK, REG_TOTAL ] ++
  [ SAT_TOTAL, REEXEC_TOTAL, CTR_CLR, ABANDONED, PLAN_PERIOD_US, PLAN_PHASE_US, RED_LIMIT, RECOVER_COUNT, RELEASE_MODE, ACCEPT_AMBER, CLAMP_AMBER, APPLY_OFFSET_US, TRIP_APPLY_US, CONT_AGE, TRIP_SET, TRIP_STATE, MODE, SOURCE, GRADE, STAGE, PARTIAL_COVER, RED_RUN, GOOD_RUN, PLAN_BUF ] ++
  [ SAFE_CAUSE, PLAN_SEQ_IN_FORCE, BANK, INDEX, POT_W0, POT_W1, POT_W2, POT_W3, POT_TAG, POT_COUNT, VALUE_CLAMPS, LAST_VALUE, HO_EVT_RAW, HO_EVT_EN, HO_EVT_PEND ]

end DSQ

namespace DSA

/-- R148: 0 SPARE, 1 ACTIVE, 2 RETIRED, 3 STANDIN; between withdrawal and retirement as R138 gives. Reset: Per R139; the model holds 0 (assumption 4). -/
def STATE : Fld := ⟨17, 0x040, 0, 1, 0, 2, .ro, 0, .any⟩
/-- R148: Logical number while ACTIVE or STANDIN. Reset: Per R139; the model holds 0 (assumption 4). -/
def LOGICAL : Fld := ⟨17, 0x040, 0, 1, 4, 4, .ro, 0, .any⟩
/-- R148: 0 none, 1 CHECKSUM, 2 SELFTEST, 3 COMMAND, 4 BOOT. -/
def CAUSE : Fld := ⟨17, 0x040, 0, 1, 8, 3, .ro, 0, .any⟩
/-- R148: R138. Reset: From MRAM; the model holds 0 (assumption 4). -/
def FAIL_COUNT : Fld := ⟨17, 0x044, 0, 1, 0, 2, .ro, 0, .any⟩
/-- R148: Blocks passed; saturates. -/
def BLOCKS : Fld := ⟨17, 0x048, 0, 1, 0, 32, .ro, 0, .any⟩
/-- R148: Re-executions run on this lane; saturates. -/
def REEXEC : Fld := ⟨17, 0x04C, 0, 1, 0, 32, .ro, 0, .any⟩
/-- R148: Result of the last self-test. -/
def TEST_PASS : Fld := ⟨17, 0x050, 0, 1, 0, 1, .ro, 0, .any⟩
/-- R148: 1 retires the lane under R140; reads 0. -/
def RETIRE_CMD : Fld := ⟨17, 0x054, 0, 1, 0, 1, .rwl, 0, .num 0 1⟩

/-- The fields of the page. -/
def fields : List Fld :=
  [ STATE, LOGICAL, CAUSE, FAIL_COUNT, BLOCKS, REEXEC, TEST_PASS, RETIRE_CMD ]

end DSA

namespace CLE

/-- R216: R177. -/
def OUT_DELAY_US : Fld := ⟨18, 0x040, 0, 1, 0, 14, .rw, 10, .num 2 10000⟩
/-- R216: Updates per second, R178. -/
def LOAD : Fld := ⟨18, 0x044, 0, 1, 0, 21, .ro, 0, .any⟩
/-- R216: R179. -/
def WORST_US : Fld := ⟨18, 0x048, 0, 1, 0, 14, .ro, 0, .any⟩
/-- R216: R179. -/
def MISS_RISK : Fld := ⟨18, 0x048, 0, 1, 30, 1, .ro, 0, .any⟩
/-- R216: R179. -/
def WORST_VALID : Fld := ⟨18, 0x048, 0, 1, 31, 1, .ro, 1, .any⟩
/-- R216: Slot addressed by the window. -/
def LOOP_SEL : Fld := ⟨18, 0x04C, 0, 1, 0, 7, .rw, 0, .num 0 127⟩
/-- R216: R206, R210. -/
def LOOP_CMD : Fld := ⟨18, 0x050, 0, 1, 0, 2, .wo, 0, .enum [0, 1, 2, 3]⟩
/-- R216: A commit waits for its instant. -/
def PENDING : Fld := ⟨18, 0x054, 0, 1, 0, 1, .ro, 0, .any⟩
/-- R216: Last refusal: 0 none, 1 LOAD, 2 RC_OVERLAP, 3 PENDING, 4 ROUTE. -/
def REFUSE_CAUSE : Fld := ⟨18, 0x054, 0, 1, 1, 3, .ro, 0, .any⟩
/-- R216: Refused writes and commits; saturates. -/
def REFUSED : Fld := ⟨18, 0x054, 0, 1, 16, 16, .ro, 0, .any⟩
/-- R216: R177; saturates. -/
def LATE_COUNT : Fld := ⟨18, 0x058, 0, 1, 0, 32, .ro, 0, .any⟩
/-- R216: R176; saturates. -/
def MISSED_COUNT : Fld := ⟨18, 0x05C, 0, 1, 0, 32, .ro, 0, .any⟩
/-- R216: R185; saturates. -/
def SAT_COUNT : Fld := ⟨18, 0x060, 0, 1, 0, 32, .ro, 0, .any⟩
/-- R216: Slot of the latest such event; other bits reserved. -/
def LAST_LATE : Fld := ⟨18, 0x064, 0, 1, 0, 7, .ro, 0, .any⟩
/-- R216: Slot of the latest such event; other bits reserved. -/
def LAST_MISSED : Fld := ⟨18, 0x064, 0, 1, 8, 7, .ro, 0, .any⟩
/-- R216: Slot of the latest such event; other bits reserved. -/
def LAST_PVBAD : Fld := ⟨18, 0x064, 0, 1, 16, 7, .ro, 0, .any⟩
/-- R216: Slot of the latest such event; other bits reserved. -/
def LAST_SAT : Fld := ⟨18, 0x064, 0, 1, 24, 7, .ro, 0, .any⟩
/-- R216: Slot to tune. -/
def TUNE_LOOP : Fld := ⟨18, 0x068, 0, 1, 0, 7, .rw, 0, .num 0 127⟩
/-- R216: R209. -/
def RULE : Fld := ⟨18, 0x068, 0, 1, 8, 3, .rw, 1, .num 0 6⟩
/-- R216: R207, R208. -/
def TUNE_CMD : Fld := ⟨18, 0x068, 0, 1, 12, 2, .wo, 0, .enum [0, 1, 2, 3]⟩
/-- R216: d. -/
def TUNE_AMP : Fld := ⟨18, 0x06C, 0, 1, 0, 32, .rw, 0x10000, .snum 1 2147483647⟩
/-- R216: h. -/
def TUNE_HYST : Fld := ⟨18, 0x070, 0, 1, 0, 32, .rw, 0, .snum 0 2147483647⟩
/-- R216: R207. -/
def TUNE_PV_MAX : Fld := ⟨18, 0x074, 0, 1, 0, 32, .rw, 0x40000, .snum 1 2147483647⟩
/-- R216: R207. -/
def MAX_CYCLES : Fld := ⟨18, 0x078, 0, 1, 0, 6, .rw, 8, .num 3 32⟩
/-- R216: R209. -/
def DERIV_N : Fld := ⟨18, 0x078, 0, 1, 8, 6, .rw, 10, .num 2 32⟩
/-- R216: R207. -/
def TIMEOUT_S : Fld := ⟨18, 0x078, 0, 1, 16, 16, .rw, 600, .num 1 65535⟩
/-- R216: 0 IDLE, 1 RUNNING, 2 DONE, 3 FAILED. -/
def STATE : Fld := ⟨18, 0x07C, 0, 1, 0, 2, .ro, 0, .any⟩
/-- R216: 0 none, 1 AMP_LIMIT, 2 NO_CONVERGE, 3 TIMEOUT, 4 PV_BAD, 5 ABORTED, 6 NO_OSC, 7 REFUSED. -/
def CAUSE : Fld := ⟨18, 0x07C, 0, 1, 4, 3, .ro, 0, .any⟩
/-- R216: Cycles completed. -/
def CYCLES : Fld := ⟨18, 0x07C, 0, 1, 8, 8, .ro, 0, .any⟩
/-- R216: Ku, CF. -/
def KU : Fld := ⟨18, 0x080, 0, 1, 0, 32, .ro, 0, .any⟩
/-- R216: Tu in µs. -/
def TU_US : Fld := ⟨18, 0x084, 0, 1, 0, 32, .ro, 0, .any⟩
/-- R216: Proposed gains, CF. -/
def TUNE_KP : Fld := ⟨18, 0x088, 0, 1, 0, 32, .ro, 0, .any⟩
/-- R216: Proposed gains, CF. -/
def TUNE_KI : Fld := ⟨18, 0x08C, 0, 1, 0, 32, .ro, 0, .any⟩
/-- R216: Proposed gains, CF. -/
def TUNE_KD_B : Fld := ⟨18, 0x090, 0, 1, 0, 32, .ro, 0, .any⟩
/-- R216: Proposed gains, CF. -/
def TUNE_KD_A : Fld := ⟨18, 0x094, 0, 1, 0, 32, .ro, 0, .any⟩
/-- R216: Repetitive-controller word to read. -/
def RC_WIN_ADDR : Fld := ⟨18, 0x098, 0, 1, 0, 20, .rw, 0, .num 0 1048575⟩
/-- R216: That word, as R203. -/
def RC_WIN_DATA : Fld := ⟨18, 0x09C, 0, 1, 0, 32, .ro, 0, .any⟩
/-- R216: Uncorrectable errors, R206 and R214; saturates. -/
def MEM_ERR_COUNT : Fld := ⟨18, 0x0A0, 0, 1, 0, 32, .ro, 0, .any⟩

/-- The fields of the page. -/
def fields : List Fld :=
  [ OUT_DELAY_US, LOAD, WORST_US, MISS_RISK, WORST_VALID, LOOP_SEL, LOOP_CMD, PENDING, REFUSE_CAUSE, REFUSED, LATE_COUNT, MISSED_COUNT, SAT_COUNT, LAST_LATE, LAST_MISSED, LAST_PVBAD, LAST_SAT, TUNE_LOOP, RULE, TUNE_CMD, TUNE_AMP, TUNE_HYST, TUNE_PV_MAX, MAX_CYCLES ] ++
  [ DERIV_N, TIMEOUT_S, STATE, CAUSE, CYCLES, KU, TU_US, TUNE_KP, TUNE_KI, TUNE_KD_B, TUNE_KD_A, RC_WIN_ADDR, RC_WIN_DATA, MEM_ERR_COUNT ]

end CLE

namespace MFE

/-- R239: Group g clock divider, R221. -/
def DIV : Fld := ⟨19, 0x040, 4, 4, 0, 6, .rw, 10, .num 10 40⟩
/-- R239: R221. -/
def DIR : Fld := ⟨19, 0x040, 4, 4, 8, 1, .rw, 0, .enum [0, 1]⟩
/-- R239: Sequence A, B: slots − 1. -/
def LEN : Fld := ⟨19, 0x050, 4, 2, 0, 4, .rw, 0, .num 0 15⟩
/-- R239: R225. -/
def TRIG : Fld := ⟨19, 0x050, 4, 2, 4, 2, .rw, 0, .num 0 3⟩
/-- R239: R225. -/
def PWM_OUT : Fld := ⟨19, 0x050, 4, 2, 8, 5, .rw, 0, .num 0 23⟩
/-- R239: Sequence A TIME trigger. -/
def PERIOD_US : Fld := ⟨19, 0x058, 0, 1, 0, 20, .rw, 1000, .divs 16 1000000 1000000⟩
/-- R239: Sequence A TIME trigger. -/
def PHASE_US : Fld := ⟨19, 0x05C, 0, 1, 0, 20, .rw, 0, .any⟩
/-- R239: Slot j channel in nibble j, two words per sequence. -/
def SEQ_A : Fld := ⟨19, 0x060, 4, 2, 0, 32, .rw, 0, .nib 7⟩
/-- R239: Slot j channel in nibble j, two words per sequence. -/
def SEQ_B : Fld := ⟨19, 0x068, 4, 2, 0, 32, .rw, 0, .nib 7⟩
/-- R239: Soft triggers. -/
def START_A : Fld := ⟨19, 0x070, 0, 1, 0, 1, .wo, 0, .num 0 1⟩
/-- R239: Soft triggers. -/
def START_B : Fld := ⟨19, 0x070, 0, 1, 1, 1, .wo, 0, .num 0 1⟩
/-- R239: R226; saturate. -/
def OVERRUN_A : Fld := ⟨19, 0x074, 0, 1, 0, 16, .ro, 0, .any⟩
/-- R239: R226; saturate. -/
def OVERRUN_B : Fld := ⟨19, 0x074, 0, 1, 16, 16, .ro, 0, .any⟩
/-- R239: R227. -/
def SAR_GAIN : Fld := ⟨19, 0x080, 16, 8, 0, 32, .rw, 0x10000, .any⟩
/-- R239: R227. -/
def SAR_OFFSET : Fld := ⟨19, 0x084, 16, 8, 0, 32, .rw, 0, .any⟩
/-- R239: R227. -/
def FAULT_LO : Fld := ⟨19, 0x088, 16, 8, 0, 16, .rw, 0, .any⟩
/-- R239: R227. -/
def FAULT_HI : Fld := ⟨19, 0x088, 16, 8, 16, 16, .rw, 65535, .any⟩
/-- R239: Latest code. -/
def CODE : Fld := ⟨19, 0x08C, 16, 8, 0, 16, .ro, 0, .any⟩
/-- R239: Channel on. -/
def SD_EN : Fld := ⟨19, 0x100, 16, 32, 0, 1, .rw, 0, .num 0 1⟩
/-- R239: R222. -/
def OSR : Fld := ⟨19, 0x100, 16, 32, 1, 3, .rw, 2, .num 0 4⟩
/-- R239: R224. -/
def LIM_OSR : Fld := ⟨19, 0x100, 16, 32, 4, 2, .rw, 0, .num 0 2⟩
/-- R239: R224. -/
def LIM_COUNT : Fld := ⟨19, 0x100, 16, 32, 6, 4, .rw, 1, .num 1 15⟩
/-- R239: Trip line. -/
def LIM_TRIP : Fld := ⟨19, 0x100, 16, 32, 10, 2, .rw, 0, .num 0 3⟩
/-- R239: R224. -/
def LIM_TRIP_EN : Fld := ⟨19, 0x100, 16, 32, 12, 1, .rw, 0, .num 0 1⟩
/-- R239: R222. -/
def SD_GAIN : Fld := ⟨19, 0x104, 16, 32, 0, 32, .rw, 0x10000, .any⟩
/-- R239: R222. -/
def SD_OFFSET : Fld := ⟨19, 0x108, 16, 32, 0, 32, .rw, 0, .any⟩
/-- R239: R224. -/
def LIM_LO : Fld := ⟨19, 0x10C, 16, 32, 0, 16, .rw, 32768, .any⟩
/-- R239: R224. -/
def LIM_HI : Fld := ⟨19, 0x10C, 16, 32, 16, 16, .rw, 32767, .any⟩
/-- R239: R228. -/
def EDGE : Fld := ⟨19, 0x300, 16, 16, 0, 2, .rw, 0, .enum [0, 1, 2]⟩
/-- R239: R230. -/
def FAULT_ON_TMO : Fld := ⟨19, 0x300, 16, 16, 2, 1, .rw, 0, .num 0 1⟩
/-- R239: R228. -/
def FILT : Fld := ⟨19, 0x300, 16, 16, 8, 8, .rw, 0, .num 0 255⟩
/-- R239: R229. -/
def P_GAIN : Fld := ⟨19, 0x304, 16, 16, 0, 32, .rw, 0x10000, .any⟩
/-- R239: R229. -/
def GATE_US : Fld := ⟨19, 0x308, 16, 16, 0, 20, .rw, 1000, .num 10 1000000⟩
/-- R239: R230. -/
def TMO_MS : Fld := ⟨19, 0x30C, 16, 16, 0, 16, .rw, 2000, .num 1 65535⟩
/-- R239: R229. -/
def P_OFFSET : Fld := ⟨19, 0x30C, 16, 16, 16, 16, .rw, 0, .any⟩
/-- R239: R219; SD 0 to 31, SAR 32 to 39, pulse 40 to 55. -/
def RECORD : Fld := ⟨19, 0x400, 8, 56, 0, 32, .ro, 0, .any⟩
/-- R219, R239: the upper word of RECORD: STATUS without AGE, or COUNT. -/
def STATUS : Fld := ⟨19, 0x404, 8, 56, 0, 32, .ro, 0, .any⟩
/-- R239: Pulse channel i, R228. -/
def WRAPS : Fld := ⟨19, 0x5C0, 4, 16, 0, 32, .ro, 0, .any⟩
/-- R239: R230, bit per channel. -/
def PULSE_FAULT : Fld := ⟨19, 0x600, 0, 1, 0, 16, .ro, 0, .any⟩

/-- The fields of the page. -/
def fields : List Fld :=
  [ DIV, DIR, LEN, TRIG, PWM_OUT, PERIOD_US, PHASE_US, SEQ_A, SEQ_B, START_A, START_B, OVERRUN_A, OVERRUN_B, SAR_GAIN, SAR_OFFSET, FAULT_LO, FAULT_HI, CODE, SD_EN, OSR, LIM_OSR, LIM_COUNT, LIM_TRIP, LIM_TRIP_EN ] ++
  [ SD_GAIN, SD_OFFSET, LIM_LO, LIM_HI, EDGE, FAULT_ON_TMO, FILT, P_GAIN, GATE_US, TMO_MS, P_OFFSET, RECORD, STATUS, WRAPS, PULSE_FAULT ]

end MFE

namespace ACT

/-- R241: Trip line t input on. -/
def T_EN : Fld := ⟨20, 0x040, 4, 4, 0, 1, .rw, 0, .num 0 1⟩
/-- R241: Active level. -/
def LEVEL : Fld := ⟨20, 0x040, 4, 4, 1, 1, .rw, 0, .enum [0, 1]⟩
/-- R241: R236. -/
def FILT_T : Fld := ⟨20, 0x040, 4, 4, 8, 8, .rw, 4, .num 0 255⟩
/-- R241: Latched trips, R236. -/
def TRIP_STATE : Fld := ⟨20, 0x050, 0, 1, 0, 4, .w1c, 0, .any⟩
/-- R241: Live trip lines. -/
def TRIP_LIVE : Fld := ⟨20, 0x050, 0, 1, 4, 4, .ro, 0, .any⟩
/-- R241: 0 pin; 0x80 + i sigma-delta channel i. -/
def TRIP_SRC0 : Fld := ⟨20, 0x054, 0, 1, 0, 8, .ro, 0, .any⟩
/-- R241: 0 pin; 0x80 + i sigma-delta channel i. -/
def TRIP_SRC1 : Fld := ⟨20, 0x054, 0, 1, 8, 8, .ro, 0, .any⟩
/-- R241: 0 pin; 0x80 + i sigma-delta channel i. -/
def TRIP_SRC2 : Fld := ⟨20, 0x054, 0, 1, 16, 8, .ro, 0, .any⟩
/-- R241: 0 pin; 0x80 + i sigma-delta channel i. -/
def TRIP_SRC3 : Fld := ⟨20, 0x054, 0, 1, 24, 8, .ro, 0, .any⟩
/-- R241: OFF holds IDLE. -/
def MODE : Fld := ⟨20, 0x100, 32, 24, 0, 2, .rw, 0, .enum [0, 1, 2]⟩
/-- R241: R233. -/
def PAIR : Fld := ⟨20, 0x100, 32, 24, 2, 1, .rw, 0, .num 0 1⟩
/-- R241: R234. -/
def UPDATE : Fld := ⟨20, 0x100, 32, 24, 3, 1, .rw, 0, .enum [0, 1]⟩
/-- R241: R238. -/
def IDLE : Fld := ⟨20, 0x100, 32, 24, 4, 2, .rw, 0, .enum [0, 1, 2]⟩
/-- R241: R236. -/
def TRIP_LVL : Fld := ⟨20, 0x100, 32, 24, 6, 2, .rw, 0, .enum [0, 1, 2]⟩
/-- R241: R236. -/
def TRIP_MASK : Fld := ⟨20, 0x100, 32, 24, 8, 4, .rw, 15, .num 0 15⟩
/-- R241: R234. -/
def DUTY_SRC : Fld := ⟨20, 0x100, 32, 24, 12, 1, .rw, 0, .enum [0, 1]⟩
/-- R241: R233. -/
def INVERT : Fld := ⟨20, 0x100, 32, 24, 13, 1, .rw, 0, .num 0 1⟩
/-- R241: R231. -/
def PERIOD_T : Fld := ⟨20, 0x104, 32, 24, 0, 32, .rw, 0x30D40, .divs 8000 40000000 4000000000⟩
/-- R241: R231. -/
def PHASE_T : Fld := ⟨20, 0x108, 32, 24, 0, 32, .rw, 0, .any⟩
/-- R241: R233. -/
def DEAD_RISE : Fld := ⟨20, 0x10C, 32, 24, 0, 12, .rw, 0, .num 0 4095⟩
/-- R241: R233. -/
def DEAD_FALL : Fld := ⟨20, 0x10C, 32, 24, 16, 12, .rw, 0, .num 0 4095⟩
/-- R241: Staged duty, R234. -/
def DUTY : Fld := ⟨20, 0x110, 32, 24, 0, 16, .rw, 0, .any⟩
/-- R241: Duty in force. -/
def DUTY_APPLIED : Fld := ⟨20, 0x114, 32, 24, 0, 16, .ro, 0, .any⟩
/-- R241: R235. -/
def DUTY_LOST : Fld := ⟨20, 0x114, 32, 24, 16, 1, .ro, 0, .any⟩
/-- R241: R232. -/
def MIN_PULSE_T : Fld := ⟨20, 0x118, 32, 24, 0, 16, .rw, 0, .num 0 65535⟩
/-- R241: R235; 0 disables. -/
def DUTY_TMO : Fld := ⟨20, 0x118, 32, 24, 16, 8, .rw, 0, .num 0 255⟩
/-- R241: R235. -/
def SAFE_DUTY : Fld := ⟨20, 0x11C, 32, 24, 0, 16, .rw, 0, .any⟩

/-- The fields of the page. -/
def fields : List Fld :=
  [ T_EN, LEVEL, FILT_T, TRIP_STATE, TRIP_LIVE, TRIP_SRC0, TRIP_SRC1, TRIP_SRC2, TRIP_SRC3, MODE, PAIR, UPDATE, IDLE, TRIP_LVL, TRIP_MASK, DUTY_SRC, INVERT, PERIOD_T, PHASE_T, DEAD_RISE, DEAD_FALL, DUTY, DUTY_APPLIED, DUTY_LOST ] ++
  [ MIN_PULSE_T, DUTY_TMO, SAFE_DUTY ]

end ACT

namespace LGE

/-- R293: 0 STOP, 1 STARTUP, 2 RUN, 3 FAULT. -/
def RUN_STATE : Fld := ⟨21, 0x040, 0, 1, 0, 2, .ro, 0, .any⟩
/-- R293: R285. -/
def IS_RESERVE : Fld := ⟨21, 0x040, 0, 1, 2, 1, .ro, 0, .any⟩
/-- R293: R286. -/
def HOSTING : Fld := ⟨21, 0x040, 0, 1, 3, 1, .ro, 0, .any⟩
/-- R293: Engine whose program runs here. -/
def HOSTED : Fld := ⟨21, 0x040, 0, 1, 4, 2, .ro, 0, .any⟩
/-- R293: Current priority. -/
def CUR_PRIO : Fld := ⟨21, 0x040, 0, 1, 8, 4, .ro, 0, .any⟩
/-- R293: R262. -/
def IDLE : Fld := ⟨21, 0x040, 0, 1, 12, 1, .ro, 1, .any⟩
/-- R293: R276. -/
def RESTART_CMD : Fld := ⟨21, 0x044, 0, 1, 0, 2, .wo, 0, .enum [0, 1, 2, 3]⟩
/-- R293: R244. Reset: From MRAM; the model holds 0 (assumption 4). -/
def PROG_BASE : Fld := ⟨21, 0x048, 0, 1, 0, 19, .ro, 0, .any⟩
/-- R293: R244. Reset: From MRAM; the model holds 0 (assumption 4). -/
def PROG_WORDS : Fld := ⟨21, 0x04C, 0, 1, 0, 20, .ro, 0, .any⟩
/-- R293: R278. -/
def LOAD_SRC : Fld := ⟨21, 0x050, 0, 1, 0, 32, .rw, 0x48000000, .step 1207959552 1224736512 256⟩
/-- R293: R278. -/
def LOAD_DST : Fld := ⟨21, 0x054, 0, 1, 0, 19, .rw, 0, .step 0 524032 256⟩
/-- R293: R278. -/
def LOAD_WORDS : Fld := ⟨21, 0x058, 0, 1, 0, 20, .rw, 0, .step 0 524288 64⟩
/-- R293: R278. -/
def CHG_CMD : Fld := ⟨21, 0x05C, 0, 1, 0, 3, .wo, 0, .enum [0, 1, 2, 3, 4, 5]⟩
/-- R293: 0 EMPTY, 1 COPYING, 2 COPIED, 3 CHECKING, 4 CHECKED, 5 ARMED. -/
def CHG_STATE : Fld := ⟨21, 0x060, 0, 1, 0, 3, .ro, 0, .any⟩
/-- R293: R275. -/
def CHG_CODE : Fld := ⟨21, 0x060, 0, 1, 8, 8, .ro, 0, .any⟩
/-- R293: Word offset of the failure. -/
def CHG_OFFSET : Fld := ⟨21, 0x064, 0, 1, 0, 20, .ro, 0, .any⟩
/-- R293: R247. -/
def DWIN_LO : Fld := ⟨21, 0x068, 0, 1, 0, 18, .rwl, 0, .num 0 262143⟩
/-- R293: R247. -/
def DWIN_HI : Fld := ⟨21, 0x06C, 0, 1, 0, 18, .rwl, 0, .any⟩
/-- R293: R247. -/
def RWIN_LO : Fld := ⟨21, 0x070, 0, 1, 0, 14, .rwl, 0, .any⟩
/-- R293: R247. -/
def RWIN_HI : Fld := ⟨21, 0x070, 0, 1, 16, 14, .rwl, 0, .any⟩
/-- R293: R247. -/
def TWIN_LO : Fld := ⟨21, 0x074, 0, 1, 0, 12, .rwl, 0, .any⟩
/-- R293: R247. -/
def TWIN_HI : Fld := ⟨21, 0x074, 0, 1, 16, 12, .rwl, 0, .any⟩
/-- R293: R247. -/
def CWIN_LO : Fld := ⟨21, 0x078, 0, 1, 0, 11, .rwl, 0, .any⟩
/-- R293: R247. -/
def CWIN_HI : Fld := ⟨21, 0x078, 0, 1, 16, 11, .rwl, 0, .any⟩
/-- R293: R265. -/
def CYCLE_LAST_US : Fld := ⟨21, 0x07C, 0, 1, 0, 32, .ro, 0, .any⟩
/-- R293: Longest free cycle. -/
def CYCLE_MAX_US : Fld := ⟨21, 0x080, 0, 1, 0, 32, .ro, 0, .any⟩
/-- R293: All tasks; saturates. -/
def OVERRUNS : Fld := ⟨21, 0x084, 0, 1, 0, 32, .ro, 0, .any⟩
/-- R293: R251, R247; saturate. -/
def ADDR_ERRS : Fld := ⟨21, 0x088, 0, 1, 0, 16, .ro, 0, .any⟩
/-- R293: R251, R247; saturate. -/
def WIN_ERRS : Fld := ⟨21, 0x088, 0, 1, 16, 16, .ro, 0, .any⟩
/-- R293: R254, R271; saturate. -/
def CALL_ERRS : Fld := ⟨21, 0x08C, 0, 1, 0, 16, .ro, 0, .any⟩
/-- R293: R254, R271; saturate. -/
def UNBOUND : Fld := ⟨21, 0x08C, 0, 1, 16, 16, .ro, 0, .any⟩
/-- R293: Task for TASK_STAT. -/
def TASK_SEL : Fld := ⟨21, 0x090, 0, 1, 0, 6, .rw, 0, .num 0 41⟩
/-- R293: R273. -/
def KIND : Fld := ⟨21, 0x094, 0, 1, 0, 2, .ro, 0, .any⟩
/-- R293: Priority. -/
def PRIO : Fld := ⟨21, 0x094, 0, 1, 2, 4, .ro, 0, .any⟩
/-- R293: Activation state. -/
def ACTIVE : Fld := ⟨21, 0x094, 0, 1, 6, 1, .ro, 0, .any⟩
/-- R293: Activation state. -/
def WAITING : Fld := ⟨21, 0x094, 0, 1, 7, 1, .ro, 0, .any⟩
/-- R293: Event source. -/
def SOURCE : Fld := ⟨21, 0x094, 0, 1, 8, 8, .ro, 0, .any⟩
/-- R293: R264; saturates. -/
def TASK_OVERRUNS : Fld := ⟨21, 0x094, 0, 1, 16, 16, .ro, 0, .any⟩
/-- R293: Longest activation of the selected task. -/
def TASK_MAX_US : Fld := ⟨21, 0x098, 0, 1, 0, 32, .ro, 0, .any⟩
/-- R293: 1 clears 0x07C to 0x08C, 0x094 [31:16] and 0x098. -/
def CTR_CLR : Fld := ⟨21, 0x09C, 0, 1, 0, 1, .wo, 0, .num 0 1⟩
/-- R293: Word for MEM_DATA. -/
def MEM_ADDR : Fld := ⟨21, 0x0A0, 0, 1, 0, 22, .rw, 0x100000, .any⟩
/-- R293: The word that R570 names. Reads as R282; a write changes the underlying value, subject to R247. Reset: —; the model holds 0 (assumption 4). -/
def MEM_DATA : Fld := ⟨21, 0x0A4, 0, 1, 0, 32, .rw, 0, .any⟩
/-- R293: Of the running image. -/
def PROG_ID : Fld := ⟨21, 0x0A8, 0, 1, 0, 32, .ro, 0, .any⟩
/-- R293: R285. -/
def RESERVE : Fld := ⟨21, 0x0C0, 0, 1, 0, 3, .rwl, 4, .num 0 4⟩
/-- R293: R287. -/
def REARM : Fld := ⟨21, 0x0C0, 0, 1, 3, 1, .rw, 1, .num 0 1⟩
/-- R293: R288. -/
def RET_PERIOD_MS : Fld := ⟨21, 0x0C4, 0, 1, 0, 16, .rw, 100, .num 50 60000⟩
/-- R293: Sequence of the last copy written. -/
def RET_SEQ : Fld := ⟨21, 0x0C8, 0, 1, 0, 32, .ro, 0, .any⟩
/-- R293: Entry addressed. -/
def FORCE_IDX : Fld := ⟨21, 0x0D0, 0, 1, 0, 8, .rw, 0, .num 0 255⟩
/-- R293: Operand address. -/
def FORCE_ADDR : Fld := ⟨21, 0x0D4, 0, 1, 0, 22, .rwl, 0, .any⟩
/-- R293: R281. -/
def FORCE_KIND : Fld := ⟨21, 0x0D4, 0, 1, 22, 1, .rwl, 0, .enum [0, 1]⟩
/-- R293: Bit forces use bit 0. -/
def FORCE_VAL : Fld := ⟨21, 0x0D8, 0, 1, 0, 32, .rwl, 0, .any⟩
/-- R293: A write commits the entry. -/
def FORCE_ON : Fld := ⟨21, 0x0DC, 0, 1, 0, 1, .rwl, 0, .num 0 1⟩
/-- R293: R283. -/
def ORPHANED : Fld := ⟨21, 0x0DC, 0, 1, 1, 1, .ro, 0, .any⟩
/-- R293: Active entries. -/
def FORCES_ACTIVE : Fld := ⟨21, 0x0E0, 0, 1, 0, 9, .ro, 0, .any⟩
/-- R293: 1 ends every force; reads 0. -/
def FORCE_CLR_ALL : Fld := ⟨21, 0x0E4, 0, 1, 0, 1, .rwl, 0, .num 0 1⟩

/-- The fields of the page. -/
def fields : List Fld :=
  [ RUN_STATE, IS_RESERVE, HOSTING, HOSTED, CUR_PRIO, IDLE, RESTART_CMD, PROG_BASE, PROG_WORDS, LOAD_SRC, LOAD_DST, LOAD_WORDS, CHG_CMD, CHG_STATE, CHG_CODE, CHG_OFFSET, DWIN_LO, DWIN_HI, RWIN_LO, RWIN_HI, TWIN_LO, TWIN_HI, CWIN_LO, CWIN_HI ] ++
  [ CYCLE_LAST_US, CYCLE_MAX_US, OVERRUNS, ADDR_ERRS, WIN_ERRS, CALL_ERRS, UNBOUND, TASK_SEL, KIND, PRIO, ACTIVE, WAITING, SOURCE, TASK_OVERRUNS, TASK_MAX_US, CTR_CLR, MEM_ADDR, MEM_DATA, PROG_ID, RESERVE, REARM, RET_PERIOD_MS, RET_SEQ, FORCE_IDX ] ++
  [ FORCE_ADDR, FORCE_KIND, FORCE_VAL, FORCE_ON, ORPHANED, FORCES_ACTIVE, FORCE_CLR_ALL ]

end LGE

namespace GIO

/-- R294: Pin n. -/
def DIR : Fld := ⟨28, 0x040, 4, 64, 0, 1, .rw, 0, .enum [0, 1]⟩
/-- R294: R290. -/
def OWNER : Fld := ⟨28, 0x040, 4, 64, 1, 2, .rw, 0, .num 0 3⟩
/-- R294: R291. -/
def FAIL_LVL : Fld := ⟨28, 0x040, 4, 64, 3, 2, .rw, 0, .enum [0, 1, 2, 3]⟩
/-- R294: R291. -/
def INVERT : Fld := ⟨28, 0x040, 4, 64, 5, 1, .rw, 0, .num 0 1⟩
/-- R294: R290. -/
def FILT_US : Fld := ⟨28, 0x040, 4, 64, 8, 8, .rw, 0, .num 0 255⟩
/-- R294: Filtered levels of pins 0 to 31, 32 to 63. -/
def PIN_IN : Fld := ⟨28, 0x140, 4, 2, 0, 32, .ro, 0, .any⟩
/-- R294: Driven levels of pins 0 to 31, 32 to 63. -/
def PIN_OUT : Fld := ⟨28, 0x148, 4, 2, 0, 32, .ro, 0, .any⟩
/-- R294: Selector k, R292. -/
def PIN : Fld := ⟨28, 0x150, 4, 8, 0, 6, .rw, 0, .num 0 63⟩
/-- R294: R292. -/
def EDGE : Fld := ⟨28, 0x150, 4, 8, 6, 2, .rw, 0, .enum [0, 1, 2]⟩
/-- R294: R292. -/
def SEL_EN : Fld := ⟨28, 0x150, 4, 8, 8, 1, .rw, 0, .num 0 1⟩

/-- The fields of the page. -/
def fields : List Fld :=
  [ DIR, OWNER, FAIL_LVL, INVERT, FILT_US, PIN_IN, PIN_OUT, PIN, EDGE, SEL_EN ]

end GIO

namespace SXE

/-- R318: R298, R300. -/
def CYC_US : Fld := ⟨22, 0x040, 0, 1, 0, 17, .rw, 10000, .divs 1000 100000 1000000⟩
/-- R318: R298, R300. -/
def PHASE_US : Fld := ⟨22, 0x044, 0, 1, 0, 17, .rw, 0, .any⟩
/-- R318: R299, R300. -/
def READ_END_US : Fld := ⟨22, 0x048, 0, 1, 0, 17, .rw, 1000, .any⟩
/-- R318: R299, R300. -/
def WRITE_US : Fld := ⟨22, 0x04C, 0, 1, 0, 17, .rw, 5000, .any⟩
/-- R318: R299, R300. -/
def APPLY_US : Fld := ⟨22, 0x050, 0, 1, 0, 17, .rw, 9000, .any⟩
/-- R318: R305, R300. -/
def LAT_US : Fld := ⟨22, 0x054, 0, 1, 0, 14, .rw, 200, .num 0 10000⟩
/-- R318: R313, R300. -/
def ETHERTYPE : Fld := ⟨22, 0x058, 0, 1, 0, 16, .rw, 34997, .num 1536 65535⟩
/-- R318: VLAN identifier, R300. -/
def VID : Fld := ⟨22, 0x05C, 0, 1, 0, 12, .rw, 0, .num 0 4094⟩
/-- R318: VLAN priority, R300. -/
def PCP : Fld := ⟨22, 0x05C, 0, 1, 12, 3, .rw, 0, .num 0 7⟩
/-- R318: R313, R300. -/
def VLAN_EN : Fld := ⟨22, 0x05C, 0, 1, 15, 1, .rw, 0, .num 0 1⟩
/-- R318: R309. -/
def CFG_MAX : Fld := ⟨22, 0x060, 0, 1, 0, 7, .rw, 4, .num 1 64⟩
/-- R318: Sent in CONFIG, R317. -/
def STATION_TMO_MS : Fld := ⟨22, 0x060, 0, 1, 16, 16, .rw, 100, .num 2 65535⟩
/-- R318: R315. -/
def SXE_PORTS : Fld := ⟨22, 0x064, 0, 1, 0, 12, .rw, 3, .num 1 4095⟩
/-- R318: Entry for the entry and status windows. -/
def STN_SEL : Fld := ⟨22, 0x068, 0, 1, 0, 10, .rw, 0, .num 0 1023⟩
/-- R318: Staging copy of the entry; a write of STN_W3 adds 1 to STN_SEL, modulo 1,024, so 1,023 is followed by 0. -/
def STN_W0 : Fld := ⟨22, 0x06C, 0, 1, 0, 32, .rw, 0, .any⟩
/-- R318: Staging copy of the entry; a write of STN_W3 adds 1 to STN_SEL, modulo 1,024, so 1,023 is followed by 0. -/
def STN_W1 : Fld := ⟨22, 0x070, 0, 1, 0, 32, .rw, 0, .any⟩
/-- R318: Staging copy of the entry; a write of STN_W3 adds 1 to STN_SEL, modulo 1,024, so 1,023 is followed by 0. -/
def STN_W2 : Fld := ⟨22, 0x074, 0, 1, 0, 32, .rw, 0, .any⟩
/-- R318: Staging copy of the entry; a write of STN_W3 adds 1 to STN_SEL, modulo 1,024, so 1,023 is followed by 0. -/
def STN_W3 : Fld := ⟨22, 0x078, 0, 1, 0, 32, .rw, 0, .any⟩
/-- R318: R311. -/
def TABLE_CMD : Fld := ⟨22, 0x080, 0, 1, 0, 2, .wo, 0, .enum [0, 1, 2]⟩
/-- R318: R311. -/
def TABLE_PENDING : Fld := ⟨22, 0x084, 0, 1, 0, 1, .ro, 0, .any⟩
/-- R318: R300, R311; saturates. -/
def REFUSED : Fld := ⟨22, 0x084, 0, 1, 16, 16, .ro, 0, .any⟩
/-- R318: Cycle in progress. -/
def CYCLE_NO : Fld := ⟨22, 0x088, 0, 1, 0, 32, .ro, 0, .any⟩
/-- R318: Enabled stations now STALE. -/
def STALE_NOW : Fld := ⟨22, 0x08C, 0, 1, 0, 11, .ro, 0, .any⟩
/-- R318: Stations now DOWN. -/
def DOWN_NOW : Fld := ⟨22, 0x08C, 0, 1, 16, 11, .ro, 0, .any⟩
/-- R318: R302; saturates. -/
def FRAME_ERRS : Fld := ⟨22, 0x090, 0, 1, 0, 32, .ro, 0, .any⟩
/-- R318: R302; saturates. -/
def LATE_INPUTS : Fld := ⟨22, 0x094, 0, 1, 0, 32, .ro, 0, .any⟩
/-- R318: R305, R309; saturates. -/
def OUT_DROPPED : Fld := ⟨22, 0x098, 0, 1, 0, 32, .ro, 0, .any⟩
/-- R318: STATION field of the last discarded frame. -/
def LAST_ERR_STN : Fld := ⟨22, 0x09C, 0, 1, 0, 16, .ro, 0, .any⟩
/-- R318: Cause of R302. -/
def LAST_ERR_CAUSE : Fld := ⟨22, 0x09C, 0, 1, 16, 3, .ro, 0, .any⟩
/-- R318: R305. -/
def WRITE_END_US : Fld := ⟨22, 0x0A0, 0, 1, 0, 17, .ro, 0, .any⟩
/-- R318: 1 clears 0x090 to 0x0A0 and every station's counters. -/
def CTR_CLR : Fld := ⟨22, 0x0A4, 0, 1, 0, 1, .wo, 0, .num 0 1⟩
/-- R318: Profile addressed. -/
def PROF_SEL : Fld := ⟨22, 0x0B0, 0, 1, 0, 6, .rw, 0, .num 0 63⟩
/-- R318: Word addressed. -/
def PROF_WORD : Fld := ⟨22, 0x0B0, 0, 1, 8, 6, .rw, 0, .num 0 63⟩
/-- R318: Profile word; a write adds 1 to PROF_WORD, modulo 64. -/
def PROF_DATA : Fld := ⟨22, 0x0B4, 0, 1, 0, 32, .rw, 0, .any⟩
/-- R318: Bits 0 to 31, 32 to 63 of the profile's mask, R304. -/
def HOLD_MASK : Fld := ⟨22, 0x0B8, 4, 2, 0, 32, .rw, 0, .any⟩
/-- R318: Plan-map entry addressed. -/
def PM_SEL : Fld := ⟨22, 0x0C0, 0, 1, 0, 10, .rw, 0, .num 0 1023⟩
/-- R318: R306. -/
def OUT_WORD : Fld := ⟨22, 0x0C4, 0, 1, 0, 15, .rw, 0, .num 0 32767⟩
/-- R318: R306. -/
def PM_EN : Fld := ⟨22, 0x0C4, 0, 1, 15, 1, .rw, 0, .num 0 1⟩
/-- R318: R306. -/
def PLAN_J : Fld := ⟨22, 0x0C4, 0, 1, 16, 10, .rw, 0, .num 0 1023⟩
/-- R318: R306, R200. -/
def PM_FMT : Fld := ⟨22, 0x0C4, 0, 1, 26, 2, .rw, 0, .num 0 2⟩
/-- R318: R306; a write adds 1 to PM_SEL, modulo 1,024, so 1,023 is followed by 0. -/
def PM_GAIN : Fld := ⟨22, 0x0C8, 0, 1, 0, 32, .rw, 0x1000000, .any⟩
/-- R318: Station STN_SEL: 0 OFF, 1 JOINING, 2 RUN, 3 MISSING, 4 DOWN. -/
def STATE : Fld := ⟨22, 0x100, 0, 1, 0, 3, .ro, 0, .any⟩
/-- R318: 0 ABSENT, 1 FRESH, 2 STALE. -/
def QUALITY : Fld := ⟨22, 0x100, 0, 1, 3, 2, .ro, 0, .any⟩
/-- R318: R307; saturates. -/
def MISSED_RUN : Fld := ⟨22, 0x100, 0, 1, 5, 8, .ro, 0, .any⟩
/-- R318: FLAGS [3:0] of the last accepted INPUT. -/
def IN_FLAGS : Fld := ⟨22, 0x100, 0, 1, 13, 4, .ro, 0, .any⟩
/-- R318: R315. -/
def PATH_A : Fld := ⟨22, 0x100, 0, 1, 17, 1, .ro, 0, .any⟩
/-- R318: R315. -/
def PATH_B : Fld := ⟨22, 0x100, 0, 1, 18, 1, .ro, 0, .any⟩
/-- R318: ECHO of the last accepted INPUT. -/
def ECHO_LAST : Fld := ⟨22, 0x104, 0, 1, 0, 32, .ro, 0, .any⟩
/-- R318: R310; saturates. -/
def OUT_MISS : Fld := ⟨22, 0x108, 0, 1, 0, 16, .ro, 0, .any⟩
/-- R318: Cycles without an accepted frame; saturates. -/
def MISSED_TOTAL : Fld := ⟨22, 0x108, 0, 1, 16, 16, .ro, 0, .any⟩
/-- R318: Cycle of the last accepted INPUT. -/
def LAST_CYCLE : Fld := ⟨22, 0x10C, 0, 1, 0, 32, .ro, 0, .any⟩
/-- R318: Last-good input words 0 to 63 of station STN_SEL. -/
def IN_WIN : Fld := ⟨22, 0x200, 4, 64, 0, 32, .ro, 0, .any⟩
/-- R318: Output words 0 to 31 of station STN_SEL; a write changes the output area. -/
def OUT_WIN : Fld := ⟨22, 0x300, 4, 32, 0, 32, .rw, 0, .any⟩
/-- R318: 2 bits per station, station s in word s / 16, bits [2(s mod 16) + 1 : 2(s mod 16)], codes as QUALITY. -/
def QUALITY_MAP : Fld := ⟨22, 0x800, 4, 64, 0, 32, .ro, 0, .any⟩

/-- The fields of the page. -/
def fields : List Fld :=
  [ CYC_US, PHASE_US, READ_END_US, WRITE_US, APPLY_US, LAT_US, ETHERTYPE, VID, PCP, VLAN_EN, CFG_MAX, STATION_TMO_MS, SXE_PORTS, STN_SEL, STN_W0, STN_W1, STN_W2, STN_W3, TABLE_CMD, TABLE_PENDING, REFUSED, CYCLE_NO, STALE_NOW, DOWN_NOW ] ++
  [ FRAME_ERRS, LATE_INPUTS, OUT_DROPPED, LAST_ERR_STN, LAST_ERR_CAUSE, WRITE_END_US, CTR_CLR, PROF_SEL, PROF_WORD, PROF_DATA, HOLD_MASK, PM_SEL, OUT_WORD, PM_EN, PLAN_J, PM_FMT, PM_GAIN, STATE, QUALITY, MISSED_RUN, IN_FLAGS, PATH_A, PATH_B, ECHO_LAST ] ++
  [ OUT_MISS, MISSED_TOTAL, LAST_CYCLE, IN_WIN, OUT_WIN, QUALITY_MAP ]

end SXE

namespace MPG

/-- R343: R340. -/
def HG_EN : Fld := ⟨23, 0x040, 0, 1, 0, 1, .rw, 0, .num 0 1⟩
/-- R343: R340. -/
def HG_GROUP : Fld := ⟨23, 0x040, 0, 1, 1, 3, .rw, 0, .num 0 7⟩
/-- R343: R340. -/
def CLOSE_DIR : Fld := ⟨23, 0x040, 0, 1, 4, 1, .rw, 1, .enum [0, 1]⟩
/-- R343: R338. -/
def PHASE_RETAIN : Fld := ⟨23, 0x040, 0, 1, 5, 1, .rw, 0, .num 0 1⟩
/-- R343: R320. -/
def DIR_INV : Fld := ⟨23, 0x040, 0, 1, 6, 1, .rw, 0, .num 0 1⟩
/-- R343: R333. -/
def LIM_HARD : Fld := ⟨23, 0x040, 0, 1, 7, 1, .rw, 1, .enum [0, 1]⟩
/-- R343: R336. -/
def HOME_MODE : Fld := ⟨23, 0x040, 0, 1, 8, 1, .rw, 0, .enum [0, 1]⟩
/-- R343: R336. -/
def HOME_DIR : Fld := ⟨23, 0x040, 0, 1, 9, 1, .rw, 0, .enum [0, 1]⟩
/-- R343: Active levels, R320. -/
def LIMP_LVL : Fld := ⟨23, 0x040, 0, 1, 10, 1, .rw, 0, .enum [0, 1]⟩
/-- R343: Active levels, R320. -/
def LIMN_LVL : Fld := ⟨23, 0x040, 0, 1, 11, 1, .rw, 0, .enum [0, 1]⟩
/-- R343: Active levels, R320. -/
def HOME_LVL : Fld := ⟨23, 0x040, 0, 1, 12, 1, .rw, 0, .enum [0, 1]⟩
/-- R343: Active levels, R320. -/
def DOK_LVL : Fld := ⟨23, 0x040, 0, 1, 13, 1, .rw, 1, .enum [0, 1]⟩
/-- R343: R324. -/
def TGT_SRC : Fld := ⟨23, 0x040, 0, 1, 14, 2, .rw, 0, .enum [0, 1, 2]⟩
/-- R343: R325. -/
def TGT_FMT : Fld := ⟨23, 0x040, 0, 1, 16, 2, .rw, 0, .enum [0, 1, 2]⟩
/-- R343: R324. -/
def PLAN_J : Fld := ⟨23, 0x040, 0, 1, 18, 10, .rw, 0, .num 0 1023⟩
/-- R343: R323. -/
def MRES_LOG2 : Fld := ⟨23, 0x040, 0, 1, 28, 4, .rw, 4, .num 0 8⟩
/-- R343: R327. -/
def V_START : Fld := ⟨23, 0x044, 0, 1, 0, 32, .rw, 51200, .any⟩
/-- R343: R327. -/
def V_STOP : Fld := ⟨23, 0x048, 0, 1, 0, 32, .rw, 51200, .any⟩
/-- R343: R327. -/
def V_MID : Fld := ⟨23, 0x04C, 0, 1, 0, 32, .rw, 0x3E800, .any⟩
/-- R343: R327. -/
def V_MAX : Fld := ⟨23, 0x050, 0, 1, 0, 32, .rw, 0xFA000, .any⟩
/-- R343: R327, R332. -/
def ACC_LO : Fld := ⟨23, 0x054, 0, 1, 0, 32, .rw, 0x3E800, .num 1 4294967295⟩
/-- R343: R327, R332. -/
def ACC_HI : Fld := ⟨23, 0x058, 0, 1, 0, 32, .rw, 0x3E800, .num 1 4294967295⟩
/-- R343: R327, R332. -/
def DEC_HI : Fld := ⟨23, 0x05C, 0, 1, 0, 32, .rw, 0x3E800, .num 1 4294967295⟩
/-- R343: R327, R332. -/
def DEC_LO : Fld := ⟨23, 0x060, 0, 1, 0, 32, .rw, 0x3E800, .num 1 4294967295⟩
/-- R343: R336. -/
def V_HOME : Fld := ⟨23, 0x064, 0, 1, 0, 32, .rw, 0x1F400, .num 256 1024000000⟩
/-- R343: R336. -/
def V_CREEP : Fld := ⟨23, 0x068, 0, 1, 0, 16, .rw, 50, .num 1 65535⟩
/-- R343: R334. -/
def DB_COUNT : Fld := ⟨23, 0x068, 0, 1, 16, 16, .rw, 16, .num 1 65535⟩
/-- R343: R334. -/
def DB_US : Fld := ⟨23, 0x06C, 0, 1, 0, 16, .rw, 5000, .num 0 65535⟩
/-- R343: R333, R338. -/
def FILT_US : Fld := ⟨23, 0x06C, 0, 1, 16, 8, .rw, 20, .num 0 255⟩
/-- R343: R336. -/
def HOME_POS : Fld := ⟨23, 0x070, 0, 1, 0, 32, .rw, 0, .any⟩
/-- R343: R336. -/
def HOME_MAX : Fld := ⟨23, 0x074, 0, 1, 0, 31, .rw, 0x7FFFFFFF, .num 1 2147483647⟩
/-- R343: R325. -/
def SOFT_LO : Fld := ⟨23, 0x078, 0, 1, 0, 32, .rw, 0x80000000, .any⟩
/-- R343: R325. -/
def SOFT_HI : Fld := ⟨23, 0x07C, 0, 1, 0, 32, .rw, 0x7FFFFFFF, .any⟩
/-- R343: R340. -/
def STROKE : Fld := ⟨23, 0x080, 0, 1, 0, 31, .rw, 1, .num 1 2147483647⟩
/-- R343: R325. -/
def POS_ORG : Fld := ⟨23, 0x084, 0, 1, 0, 32, .rw, 0, .any⟩
/-- R343: R325. -/
def TGT_GAIN : Fld := ⟨23, 0x088, 0, 1, 0, 32, .rw, 256, .any⟩
/-- R343: R324. -/
def TARGET : Fld := ⟨23, 0x08C, 0, 1, 0, 32, .rw, 0, .any⟩
/-- R343: R321, 5 ns units. -/
def STEP_HIGH : Fld := ⟨23, 0x090, 0, 1, 0, 8, .rw, 20, .num 8 255⟩
/-- R343: R321, 5 ns units. -/
def DIR_SETUP : Fld := ⟨23, 0x090, 0, 1, 8, 8, .rw, 40, .num 0 255⟩
/-- R343: R338. -/
def REQUIRE_HOME : Fld := ⟨23, 0x090, 0, 1, 16, 1, .rw, 1, .num 0 1⟩
/-- R343: R335 to R339; SET_POS at standstill only, else refused with cause MOVING. -/
def AXIS_CMD : Fld := ⟨23, 0x094, 0, 1, 0, 3, .wo, 0, .enum [0, 1, 2, 3, 4, 5, 6]⟩
/-- R343: Value for SET_POS; also sets PHASE_ORG by the same offset. -/
def POS_SET : Fld := ⟨23, 0x098, 0, 1, 0, 32, .rw, 0, .any⟩
/-- R343: 0 IDLE, 1 ACCEL, 2 CRUISE, 3 DECEL, 4 HOMING, 5 STOPPED_LIMIT. -/
def MSTATE : Fld := ⟨23, 0x09C, 0, 1, 0, 3, .ro, 0, .any⟩
/-- R343: R326 to R341. -/
def AT_TARGET : Fld := ⟨23, 0x09C, 0, 1, 3, 1, .ro, 0, .any⟩
/-- R343: R326 to R341. -/
def HOMED : Fld := ⟨23, 0x09C, 0, 1, 4, 1, .ro, 0, .any⟩
/-- R343: R326 to R341. -/
def PHASE_LOST : Fld := ⟨23, 0x09C, 0, 1, 5, 1, .ro, 0, .any⟩
/-- R343: R326 to R341. -/
def DRV_LOST : Fld := ⟨23, 0x09C, 0, 1, 6, 1, .ro, 0, .any⟩
/-- R343: R326 to R341. -/
def LIMP : Fld := ⟨23, 0x09C, 0, 1, 7, 1, .ro, 0, .any⟩
/-- R343: R326 to R341. -/
def LIMN : Fld := ⟨23, 0x09C, 0, 1, 8, 1, .ro, 0, .any⟩
/-- R343: R326 to R341. -/
def HOME_IN : Fld := ⟨23, 0x09C, 0, 1, 9, 1, .ro, 0, .any⟩
/-- R343: R326 to R341. -/
def HG_LIMITED : Fld := ⟨23, 0x09C, 0, 1, 10, 1, .ro, 0, .any⟩
/-- R343: R326 to R341. -/
def DEC_RAISED : Fld := ⟨23, 0x09C, 0, 1, 11, 1, .ro, 0, .any⟩
/-- R343: R326 to R341. -/
def HELD : Fld := ⟨23, 0x09C, 0, 1, 12, 1, .ro, 0, .any⟩
/-- R343: 0 none, 1 SEEK, 2 STOP, 3 BACKOFF, 4 LATCHED. -/
def HOME_PHASE : Fld := ⟨23, 0x09C, 0, 1, 13, 3, .ro, 0, .any⟩
/-- R343: 0 none, 1 OPP_LIMIT, 2 NOT_FOUND, 3 DRV_LOST, 4 ABORTED. -/
def HOME_CAUSE : Fld := ⟨23, 0x09C, 0, 1, 16, 3, .ro, 0, .any⟩
/-- R343: 0 none, 1 PHASE_LOST, 2 NOT_HOMED, 3 DRV_LOST, 4 MOVING, 5 PHASE_OK. -/
def REFUSE_CAUSE : Fld := ⟨23, 0x09C, 0, 1, 19, 3, .ro, 0, .any⟩
/-- R343: R323. -/
def POSITION : Fld := ⟨23, 0x0A0, 0, 1, 0, 32, .ro, 0, .any⟩
/-- R343: Signed, Q23.8 steps/s. -/
def VELOCITY : Fld := ⟨23, 0x0A4, 0, 1, 0, 32, .ro, 0, .any⟩
/-- R343: R325. -/
def TGT_NOW : Fld := ⟨23, 0x0A8, 0, 1, 0, 32, .ro, 0, .any⟩
/-- R343: R323. -/
def PHASE_ORG : Fld := ⟨23, 0x0AC, 0, 1, 0, 32, .ro, 0, .any⟩
/-- R343: R339, signed. -/
def SYNC_DELTA : Fld := ⟨23, 0x0B0, 0, 1, 0, 16, .ro, 0, .any⟩
/-- R343: Refused moves and commands; saturates. -/
def REFUSED : Fld := ⟨23, 0x0B0, 0, 1, 16, 16, .ro, 0, .any⟩
/-- R343: Completed moves; saturates. -/
def MOVES : Fld := ⟨23, 0x0B4, 0, 1, 0, 32, .ro, 0, .any⟩

/-- The fields of the page. -/
def fields : List Fld :=
  [ HG_EN, HG_GROUP, CLOSE_DIR, PHASE_RETAIN, DIR_INV, LIM_HARD, HOME_MODE, HOME_DIR, LIMP_LVL, LIMN_LVL, HOME_LVL, DOK_LVL, TGT_SRC, TGT_FMT, PLAN_J, MRES_LOG2, V_START, V_STOP, V_MID, V_MAX, ACC_LO, ACC_HI, DEC_HI, DEC_LO ] ++
  [ V_HOME, V_CREEP, DB_COUNT, DB_US, FILT_US, HOME_POS, HOME_MAX, SOFT_LO, SOFT_HI, STROKE, POS_ORG, TGT_GAIN, TARGET, STEP_HIGH, DIR_SETUP, REQUIRE_HOME, AXIS_CMD, POS_SET, MSTATE, AT_TARGET, HOMED, PHASE_LOST, DRV_LOST, LIMP ] ++
  [ LIMN, HOME_IN, HG_LIMITED, DEC_RAISED, HELD, HOME_PHASE, HOME_CAUSE, REFUSE_CAUSE, POSITION, VELOCITY, TGT_NOW, PHASE_ORG, SYNC_DELTA, REFUSED, MOVES ]

end MPG

namespace MPC

/-- R344: R340. -/
def DEFAULT_RATE : Fld := ⟨23, 0x040, 16, 8, 0, 32, .rw, 0x10000, .num 0 2147483647⟩
/-- R344: R340, R158. -/
def SAFE_RATE : Fld := ⟨23, 0x044, 16, 8, 0, 32, .rw, 3277, .num 0 2147483647⟩
/-- R344: R340. -/
def P_LO : Fld := ⟨23, 0x048, 16, 8, 0, 32, .rw, 0, .any⟩
/-- R344: R340. -/
def P_HI : Fld := ⟨23, 0x04C, 16, 8, 0, 32, .rw, 0x10000, .any⟩
/-- R344: R340. -/
def LIVE_MODE : Fld := ⟨23, 0x0C0, 4, 8, 0, 2, .rw, 0, .enum [0, 1, 2]⟩
/-- R344: R340. -/
def LIVE_TMO_MS : Fld := ⟨23, 0x0C0, 4, 8, 16, 16, .rw, 100, .num 1 65535⟩
/-- R344: R340. Reset: Per R340; the model holds 0 (assumption 4). -/
def TABLE_RATE : Fld := ⟨23, 0x0E0, 4, 8, 0, 32, .ro, 0, .any⟩
/-- R344: R340. Reset: Per R340; the model holds 0 (assumption 4). -/
def LIVE_RATE : Fld := ⟨23, 0x100, 4, 8, 0, 32, .ro, 0, .any⟩
/-- R344: R340. Reset: Per R340; the model holds 0 (assumption 4). -/
def EFF_RATE : Fld := ⟨23, 0x120, 4, 8, 0, 32, .ro, 0, .any⟩
/-- R344: Publishing loop g, R202. -/
def LIVE_LOOP : Fld := ⟨23, 0x140, 4, 8, 0, 9, .ro, 0, .any⟩
/-- R344: R340. -/
def LIVE_VALID : Fld := ⟨23, 0x140, 4, 8, 9, 1, .ro, 0, .any⟩

/-- The fields of the page. -/
def fields : List Fld :=
  [ DEFAULT_RATE, SAFE_RATE, P_LO, P_HI, LIVE_MODE, LIVE_TMO_MS, TABLE_RATE, LIVE_RATE, EFF_RATE, LIVE_LOOP, LIVE_VALID ]

end MPC

namespace EIC

/-- R368: Raises that source as a pulse; recorded in REC. -/
def SET_SRC : Fld := ⟨5, 0x040, 0, 1, 0, 8, .wo, 0, .num 0 255⟩
/-- R368: R356. -/
def AGE_MS : Fld := ⟨5, 0x044, 0, 1, 0, 16, .rw, 100, .num 0 65535⟩
/-- R368: R356. -/
def AGED_SRC : Fld := ⟨5, 0x048, 0, 1, 0, 8, .ro, 0, .any⟩
/-- R368: 1 clears MERGES, MOD_HELD, REFIRES, CLAIMS_LIVE0. -/
def CTR_CLR : Fld := ⟨5, 0x04C, 0, 1, 0, 1, .wo, 0, .num 0 1⟩
/-- R368: Engine e. -/
def CUR_PRIO : Fld := ⟨5, 0x050, 4, 4, 0, 4, .ro, 0, .any⟩
/-- R368: Engine e. -/
def IDLE : Fld := ⟨5, 0x050, 4, 4, 4, 1, .ro, 1, .any⟩
/-- R368: Source offered to engine e. -/
def OFFER : Fld := ⟨5, 0x050, 4, 4, 8, 8, .ro, 0, .any⟩
/-- R368: An offer stands. -/
def OFFER_VALID : Fld := ⟨5, 0x050, 4, 4, 16, 1, .ro, 0, .any⟩
/-- R368: Edges while ACTIVE; saturates. -/
def REFIRES : Fld := ⟨5, 0x060, 0, 1, 0, 32, .ro, 0, .any⟩
/-- R368: R350; saturates. -/
def CLAIMS_LIVE0 : Fld := ⟨5, 0x064, 0, 1, 0, 32, .ro, 0, .any⟩
/-- R368: R354. -/
def MOD_US : Fld := ⟨5, 0x080, 4, 16, 0, 16, .rw, 0, .num 0 65535⟩
/-- R368: R354; saturates. -/
def MOD_HELD : Fld := ⟨5, 0x080, 4, 16, 16, 16, .ro, 0, .any⟩
/-- R368: R347; saturates. -/
def MERGES : Fld := ⟨5, 0x0C0, 4, 16, 0, 16, .ro, 0, .any⟩
/-- R368: Bit b: source 32w + b pending. -/
def PEND : Fld := ⟨5, 0x100, 4, 8, 0, 32, .ro, 0, .any⟩
/-- R368: Bit b: source 32w + b active. -/
def ACTIVE : Fld := ⟨5, 0x120, 4, 8, 0, 32, .ro, 0, .any⟩
/-- R368: Bit b: level of source 32w + b. -/
def LEVEL : Fld := ⟨5, 0x140, 4, 8, 0, 32, .ro, 0, .any⟩
/-- R368: R351. -/
def PRIO : Fld := ⟨5, 0x400, 4, 256, 0, 4, .rw, 0, .num 0 15⟩
/-- R368: R351. -/
def TARGET : Fld := ⟨5, 0x400, 4, 256, 4, 4, .rw, 0, .num 0 15⟩
/-- R368: R351. -/
def EN : Fld := ⟨5, 0x400, 4, 256, 8, 1, .rw, 0, .any⟩
/-- R368: AON source. Reset: Per R348; the model holds 0 (assumption 4). -/
def AON : Fld := ⟨5, 0x400, 4, 256, 9, 1, .ro, 0, .any⟩
/-- R368: Pulse source. Reset: Per R347; the model holds 0 (assumption 4). -/
def PULSE : Fld := ⟨5, 0x400, 4, 256, 10, 1, .ro, 0, .any⟩

/-- The fields of the page. -/
def fields : List Fld :=
  [ SET_SRC, AGE_MS, AGED_SRC, CTR_CLR, CUR_PRIO, IDLE, OFFER, OFFER_VALID, REFIRES, CLAIMS_LIVE0, MOD_US, MOD_HELD, MERGES, PEND, ACTIVE, LEVEL, PRIO, TARGET, EN, AON, PULSE ]

end EIC

namespace NWT

/-- R369: Watch slot k, R357. -/
def SRC : Fld := ⟨6, 0x040, 4, 32, 0, 8, .rw, 0, .num 0 255⟩
/-- R369: Slot enabled. -/
def W_EN : Fld := ⟨6, 0x040, 4, 32, 8, 1, .rw, 0, .num 0 1⟩
/-- R369: R358. -/
def WAKE_SRC : Fld := ⟨6, 0x0C0, 0, 1, 0, 8, .ro, 0, .any⟩
/-- R369: R358. -/
def WAKE_SLOT : Fld := ⟨6, 0x0C0, 0, 1, 8, 5, .ro, 0, .any⟩
/-- R369: A wake cause is held. -/
def WAKE_VALID : Fld := ⟨6, 0x0C0, 0, 1, 13, 1, .w1c, 0, .any⟩
/-- R369: 1 DOZE, 2 KEEP. -/
def WAKE_FROM : Fld := ⟨6, 0x0C0, 0, 1, 14, 2, .ro, 0, .any⟩
/-- R369: Wakes; saturates. -/
def WAKE_COUNT : Fld := ⟨6, 0x0C4, 0, 1, 0, 32, .ro, 0, .any⟩

/-- The fields of the page. -/
def fields : List Fld :=
  [ SRC, W_EN, WAKE_SRC, WAKE_SLOT, WAKE_VALID, WAKE_FROM, WAKE_COUNT ]

end NWT

namespace HQE

/-- R370: R360, block code c. -/
def QUEUE : Fld := ⟨7, 0x040, 4, 32, 0, 3, .rw, 0, .num 0 7⟩
/-- R370: Events of block c offered to this port. -/
def R_EN : Fld := ⟨7, 0x040, 4, 32, 3, 1, .rw, 0, .num 0 1⟩
/-- R370: Link state. -/
def LINK_UP : Fld := ⟨7, 0x0C0, 0, 1, 0, 1, .ro, 0, .any⟩
/-- R370: 1 2.5, 2 5, 3 8 GT/s. -/
def SPEED : Fld := ⟨7, 0x0C0, 0, 1, 1, 2, .ro, 0, .any⟩
/-- R370: Lanes: 1, 2 or 4. -/
def WIDTH : Fld := ⟨7, 0x0C0, 0, 1, 3, 3, .ro, 0, .any⟩
/-- R370: Records in the internal buffer. -/
def BUF_FILL : Fld := ⟨7, 0x0C0, 0, 1, 8, 8, .ro, 0, .any⟩
/-- R370: R367; saturates. -/
def REFUSED : Fld := ⟨7, 0x0C4, 0, 1, 0, 16, .ro, 0, .any⟩
/-- R370: R361, R367. -/
def Q_BASE_LO : Fld := ⟨7, 0x100, 64, 8, 12, 20, .rw, 0, .any⟩
/-- R370: R361, R367. -/
def Q_BASE_HI : Fld := ⟨7, 0x104, 64, 8, 0, 32, .rw, 0, .any⟩
/-- R370: R367. -/
def Q_EN : Fld := ⟨7, 0x108, 64, 8, 0, 1, .rw, 0, .num 0 1⟩
/-- R370: R361, R367. -/
def SIZE_LOG2 : Fld := ⟨7, 0x108, 64, 8, 8, 5, .rw, 4, .num 4 16⟩
/-- R370: R365, R367. -/
def WB_LO : Fld := ⟨7, 0x10C, 64, 8, 2, 30, .rw, 0, .any⟩
/-- R370: R365, R367. -/
def WB_HI : Fld := ⟨7, 0x110, 64, 8, 0, 32, .rw, 0, .any⟩
/-- R370: R361. -/
def PROD : Fld := ⟨7, 0x114, 64, 8, 0, 32, .ro, 0, .any⟩
/-- R370: R361. -/
def CONS : Fld := ⟨7, 0x118, 64, 8, 0, 32, .rw, 0, .any⟩
/-- R370: Next sequence, R363. -/
def SEQ : Fld := ⟨7, 0x11C, 64, 8, 0, 32, .ro, 0, .any⟩
/-- R370: R364; saturates. -/
def DROPS : Fld := ⟨7, 0x120, 64, 8, 0, 32, .ro, 0, .any⟩
/-- R370: R366. -/
def INT_COUNT : Fld := ⟨7, 0x124, 64, 8, 0, 9, .rw, 1, .num 1 256⟩
/-- R370: R366. -/
def INT_US : Fld := ⟨7, 0x124, 64, 8, 16, 16, .rw, 0, .num 0 65535⟩
/-- R370: R364. -/
def DROP_PEND : Fld := ⟨7, 0x128, 64, 8, 0, 32, .ro, 0, .any⟩

/-- The fields of the page. -/
def fields : List Fld :=
  [ QUEUE, R_EN, LINK_UP, SPEED, WIDTH, BUF_FILL, REFUSED, Q_BASE_LO, Q_BASE_HI, Q_EN, SIZE_LOG2, WB_LO, WB_HI, PROD, CONS, SEQ, DROPS, INT_COUNT, INT_US, DROP_PEND ]

end HQE

namespace TMK

/-- R395: R375. -/
def TB_NS : Fld := ⟨8, 0x040, 0, 1, 0, 30, .ro, 0, .any⟩
/-- R395: Seconds [31:0]. -/
def TB_SEC_LO : Fld := ⟨8, 0x044, 0, 1, 0, 32, .ro, 0, .any⟩
/-- R395: Seconds [47:32]. -/
def TB_SEC_HI : Fld := ⟨8, 0x048, 0, 1, 0, 16, .ro, 0, .any⟩
/-- R395: R373. -/
def TB_FRAC : Fld := ⟨8, 0x048, 0, 1, 16, 16, .ro, 0, .any⟩
/-- R395: R375, R258. -/
def CT_LO : Fld := ⟨8, 0x04C, 0, 1, 0, 32, .ro, 0, .any⟩
/-- R395: R375, R258. -/
def CT_HI : Fld := ⟨8, 0x050, 0, 1, 0, 32, .ro, 0, .any⟩
/-- R395: R384. -/
def SET_NS : Fld := ⟨8, 0x054, 0, 1, 0, 30, .rw, 0, .num 0 999999999⟩
/-- R395: R384. -/
def SET_SEC_LO : Fld := ⟨8, 0x058, 0, 1, 0, 32, .rw, 0, .any⟩
/-- R395: R384. -/
def SET_SEC_HI : Fld := ⟨8, 0x05C, 0, 1, 0, 16, .rw, 0, .any⟩
/-- R395: R384. -/
def OFF_NS : Fld := ⟨8, 0x060, 0, 1, 0, 32, .rw, 0, .snum (-999999999) 999999999⟩
/-- R395: R384. -/
def TIME_CMD : Fld := ⟨8, 0x064, 0, 1, 0, 2, .wo, 0, .enum [0, 1, 2]⟩
/-- R395: R381. -/
def REF_MODE : Fld := ⟨8, 0x068, 0, 1, 0, 2, .rw, 1, .enum [0, 1, 2, 3]⟩
/-- R395: R382. -/
def STEP_EN : Fld := ⟨8, 0x068, 0, 1, 2, 1, .rw, 1, .num 0 1⟩
/-- R395: R379. -/
def TOD_SRC : Fld := ⟨8, 0x068, 0, 1, 3, 1, .rw, 0, .enum [0, 1]⟩
/-- R395: R379. -/
def TOD_LABEL : Fld := ⟨8, 0x068, 0, 1, 4, 1, .rw, 0, .enum [0, 1]⟩
/-- R395: R378. -/
def PPS_EDGE : Fld := ⟨8, 0x068, 0, 1, 5, 1, .rw, 0, .enum [0, 1]⟩
/-- R395: R379. -/
def TOD_BAUD : Fld := ⟨8, 0x068, 0, 1, 6, 3, .rw, 1, .enum [0, 1, 2, 3, 4]⟩
/-- R395: R381. -/
def MISS_LIMIT : Fld := ⟨8, 0x068, 0, 1, 12, 4, .rw, 3, .num 1 15⟩
/-- R395: R382. -/
def STEP_NS : Fld := ⟨8, 0x06C, 0, 1, 0, 30, .rw, 1000, .num 10 999999999⟩
/-- R395: R383. -/
def LOCK_NS : Fld := ⟨8, 0x070, 0, 1, 0, 16, .rw, 100, .num 10 65535⟩
/-- R395: R383. -/
def LOCK_COUNT : Fld := ⟨8, 0x070, 0, 1, 16, 8, .rw, 16, .num 1 255⟩
/-- R395: R382. -/
def STEP_COUNT : Fld := ⟨8, 0x070, 0, 1, 24, 8, .rw, 3, .num 1 255⟩
/-- R395: R382. -/
def KP : Fld := ⟨8, 0x074, 0, 1, 0, 16, .rw, 32768, .any⟩
/-- R395: R382. -/
def KI : Fld := ⟨8, 0x074, 0, 1, 16, 16, .rw, 4096, .any⟩
/-- R395: R383. -/
def ADJ_MAN : Fld := ⟨8, 0x078, 0, 1, 0, 32, .rw, 0, .any⟩
/-- R395: R374. -/
def ADJ_LIM : Fld := ⟨8, 0x07C, 0, 1, 0, 30, .rw, 0x68DB8BB, .num 1099512 549755813⟩
/-- R395: R378. -/
def PPS_DELAY_NS : Fld := ⟨8, 0x080, 0, 1, 0, 32, .rw, 0, .snum (-100000) 100000⟩
/-- R395: R381. -/
def REVERT_S : Fld := ⟨8, 0x084, 0, 1, 0, 16, .rw, 10, .num 0 3600⟩
/-- R395: R383. -/
def HOLD_CLASS_S : Fld := ⟨8, 0x084, 0, 1, 16, 16, .rw, 1000, .num 1 65535⟩
/-- R395: R385. Reset: From backup registers; 37 after a backup-domain reset, which State.reset follows. -/
def UTC_OFFSET : Fld := ⟨8, 0x088, 0, 1, 0, 16, .rw, 37, .num 0 1000⟩
/-- R395: R385. -/
def LEAP61 : Fld := ⟨8, 0x088, 0, 1, 16, 1, .rw, 0, .num 0 1⟩
/-- R395: R385. -/
def LEAP59 : Fld := ⟨8, 0x088, 0, 1, 17, 1, .rw, 0, .num 0 1⟩
/-- R395: R385. -/
def UTC_VALID : Fld := ⟨8, 0x088, 0, 1, 18, 1, .rw, 0, .num 0 1⟩
/-- R395: R379. -/
def TOD_SEC_LO : Fld := ⟨8, 0x08C, 0, 1, 0, 32, .rw, 0, .any⟩
/-- R395: R379. -/
def TOD_SEC_HI : Fld := ⟨8, 0x090, 0, 1, 0, 16, .rw, 0, .any⟩
/-- R395: 0 FREE, 1 ACQUIRE, 2 LOCKED, 3 HOLDOVER. -/
def STATE : Fld := ⟨8, 0x094, 0, 1, 0, 2, .ro, 0, .any⟩
/-- R395: 0 none, 1 GNSS, 2 CHAIN. -/
def REF_NOW : Fld := ⟨8, 0x094, 0, 1, 4, 2, .ro, 0, .any⟩
/-- R395: R382. -/
def STEP_RUN : Fld := ⟨8, 0x094, 0, 1, 8, 8, .ro, 0, .any⟩
/-- R395: 1 grandmaster, 0 passive. -/
def GM_ROLE : Fld := ⟨8, 0x094, 0, 1, 16, 1, .ro, 0, .any⟩
/-- R395: ADJ. -/
def ADJ_NOW : Fld := ⟨8, 0x098, 0, 1, 0, 32, .ro, 0, .any⟩
/-- R395: F. -/
def F_NOW : Fld := ⟨8, 0x09C, 0, 1, 0, 32, .ro, 0, .any⟩
/-- R395: Last e in ns, saturating. -/
def OFFSET_LAST : Fld := ⟨8, 0x0A0, 0, 1, 0, 32, .ro, 0, .any⟩
/-- R395: R383. -/
def HOLD_S : Fld := ⟨8, 0x0A4, 0, 1, 0, 32, .ro, 0, .any⟩
/-- R395: R378, R379; saturate. -/
def PPS_REJECTS : Fld := ⟨8, 0x0A8, 0, 1, 0, 16, .ro, 0, .any⟩
/-- R395: R378, R379; saturate. -/
def TOD_ERRS : Fld := ⟨8, 0x0A8, 0, 1, 16, 16, .ro, 0, .any⟩
/-- R395: 1 clears 0x0A8, 0x0C8, 0x0CC and CAP_LOST. -/
def CTR_CLR : Fld := ⟨8, 0x0AC, 0, 1, 0, 1, .wo, 0, .num 0 1⟩
/-- R395: R384; saturates. -/
def REFUSED : Fld := ⟨8, 0x0AC, 0, 1, 16, 16, .ro, 0, .any⟩
/-- R395: R387. -/
def PTP_PORTS : Fld := ⟨8, 0x0B0, 0, 1, 0, 12, .rw, 0, .num 0 4095⟩
/-- R395: R387. -/
def PROFILE : Fld := ⟨8, 0x0B0, 0, 1, 12, 2, .rw, 0, .num 0 2⟩
/-- R395: R387; taken as 0 with PROFILE 2. -/
def TRANSPORT : Fld := ⟨8, 0x0B0, 0, 1, 14, 1, .rw, 0, .enum [0, 1]⟩
/-- R395: R389. -/
def ONE_STEP : Fld := ⟨8, 0x0B0, 0, 1, 15, 1, .rw, 1, .num 0 1⟩
/-- R395: R388. -/
def GM_MODE : Fld := ⟨8, 0x0B0, 0, 1, 16, 2, .rw, 0, .enum [0, 1, 2]⟩
/-- R395: R387. -/
def DOMAIN : Fld := ⟨8, 0x0B0, 0, 1, 24, 8, .rw, 0, .num 0 127⟩
/-- R395: R388. -/
def PRIO1 : Fld := ⟨8, 0x0B4, 0, 1, 0, 8, .rw, 128, .num 0 255⟩
/-- R395: R388. -/
def PRIO2 : Fld := ⟨8, 0x0B4, 0, 1, 8, 8, .rw, 128, .num 0 255⟩
/-- R395: R387. -/
def LOG_SYNC : Fld := ⟨8, 0x0B4, 0, 1, 16, 4, .rw, 0, .snum (-4) 1⟩
/-- R395: R387. -/
def LOG_ANN : Fld := ⟨8, 0x0B4, 0, 1, 20, 4, .rw, 0, .num 0 4⟩
/-- R395: R387. -/
def LOG_MDR : Fld := ⟨8, 0x0B4, 0, 1, 24, 4, .rw, 0, .snum (-4) 5⟩
/-- R395: R391. -/
def DREQ_MAX : Fld := ⟨8, 0x0B8, 0, 1, 0, 16, .rw, 4096, .num 16 4096⟩
/-- R395: R383. -/
def CLASS : Fld := ⟨8, 0x0BC, 0, 1, 0, 8, .ro, 248, .any⟩
/-- R395: R383. -/
def ACCURACY : Fld := ⟨8, 0x0BC, 0, 1, 8, 8, .ro, 254, .any⟩
/-- R395: R383. -/
def TSOURCE : Fld := ⟨8, 0x0BC, 0, 1, 16, 8, .ro, 160, .any⟩
/-- R395: R387. Reset: From fuses; the model holds 0 (assumption 4). -/
def CLOCK_ID_LO : Fld := ⟨8, 0x0C0, 0, 1, 0, 32, .ro, 0, .any⟩
/-- R395: R387. Reset: From fuses; the model holds 0 (assumption 4). -/
def CLOCK_ID_HI : Fld := ⟨8, 0x0C4, 0, 1, 0, 32, .ro, 0, .any⟩
/-- R395: R391; saturates. -/
def DREQ_DROPS : Fld := ⟨8, 0x0C8, 0, 1, 0, 32, .ro, 0, .any⟩
/-- R395: R387; saturates. -/
def PTP_IGNORED : Fld := ⟨8, 0x0CC, 0, 1, 0, 32, .ro, 0, .any⟩
/-- R395: R392. -/
def OUT_MODE : Fld := ⟨8, 0x100, 32, 4, 0, 2, .rw, 0, .enum [0, 1, 2]⟩
/-- R395: R392. -/
def POL : Fld := ⟨8, 0x100, 32, 4, 2, 1, .rw, 0, .enum [0, 1]⟩
/-- R395: 0 IDLE, 1 ARMED, 2 RUNNING, 3 DONE, 4 MISSED. -/
def OUT_STATE : Fld := ⟨8, 0x100, 32, 4, 4, 3, .ro, 0, .any⟩
/-- R395: R392. -/
def START_NS : Fld := ⟨8, 0x104, 32, 4, 0, 30, .rw, 0, .num 0 999999999⟩
/-- R395: R392. -/
def START_SEC_LO : Fld := ⟨8, 0x108, 32, 4, 0, 32, .rw, 0, .any⟩
/-- R395: R392. -/
def START_SEC_HI : Fld := ⟨8, 0x10C, 32, 4, 0, 16, .rw, 0, .any⟩
/-- R395: R392. -/
def PERIOD_NS : Fld := ⟨8, 0x110, 32, 4, 0, 32, .rw, 0x3B9ACA00, .num 1000 4000000000⟩
/-- R395: R392. -/
def WIDTH_NS : Fld := ⟨8, 0x114, 32, 4, 0, 30, .rw, 0x186A0, .num 8 500000000⟩
/-- R395: R392. -/
def OUT_CMD : Fld := ⟨8, 0x118, 32, 4, 0, 2, .wo, 0, .enum [0, 1, 2]⟩
/-- R395: Pulses fired; saturates. -/
def FIRED : Fld := ⟨8, 0x11C, 32, 4, 0, 32, .ro, 0, .any⟩
/-- R395: R393. -/
def CAP_EN : Fld := ⟨8, 0x180, 16, 4, 0, 1, .rw, 0, .num 0 1⟩
/-- R395: R393. -/
def CAP_EDGE : Fld := ⟨8, 0x180, 16, 4, 1, 2, .rw, 0, .enum [0, 1, 2]⟩
/-- R395: Entries queued. -/
def FILL : Fld := ⟨8, 0x180, 16, 4, 8, 5, .ro, 0, .any⟩
/-- R395: R393; saturates. -/
def CAP_LOST : Fld := ⟨8, 0x180, 16, 4, 16, 16, .ro, 0, .any⟩
/-- R395: R393. -/
def CAP_NS : Fld := ⟨8, 0x184, 16, 4, 0, 30, .ro, 0, .any⟩
/-- R395: R393. -/
def CAP_SEC_LO : Fld := ⟨8, 0x188, 16, 4, 0, 32, .ro, 0, .any⟩
/-- R395: Read removes the entry. -/
def CAP_SEC_HI : Fld := ⟨8, 0x18C, 16, 4, 0, 16, .ro, 0, .any⟩
/-- R395: 1 falling; 1 entry present. -/
def EDGE : Fld := ⟨8, 0x18C, 16, 4, 16, 1, .ro, 0, .any⟩
/-- R395: 1 falling; 1 entry present. -/
def VALID : Fld := ⟨8, 0x18C, 16, 4, 31, 1, .ro, 0, .any⟩

/-- The fields of the page. -/
def fields : List Fld :=
  [ TB_NS, TB_SEC_LO, TB_SEC_HI, TB_FRAC, CT_LO, CT_HI, SET_NS, SET_SEC_LO, SET_SEC_HI, OFF_NS, TIME_CMD, REF_MODE, STEP_EN, TOD_SRC, TOD_LABEL, PPS_EDGE, TOD_BAUD, MISS_LIMIT, STEP_NS, LOCK_NS, LOCK_COUNT, STEP_COUNT, KP, KI ] ++
  [ ADJ_MAN, ADJ_LIM, PPS_DELAY_NS, REVERT_S, HOLD_CLASS_S, UTC_OFFSET, LEAP61, LEAP59, UTC_VALID, TOD_SEC_LO, TOD_SEC_HI, STATE, REF_NOW, STEP_RUN, GM_ROLE, ADJ_NOW, F_NOW, OFFSET_LAST, HOLD_S, PPS_REJECTS, TOD_ERRS, CTR_CLR, REFUSED, PTP_PORTS ] ++
  [ PROFILE, TRANSPORT, ONE_STEP, GM_MODE, DOMAIN, PRIO1, PRIO2, LOG_SYNC, LOG_ANN, LOG_MDR, DREQ_MAX, CLASS, ACCURACY, TSOURCE, CLOCK_ID_LO, CLOCK_ID_HI, DREQ_DROPS, PTP_IGNORED, OUT_MODE, POL, OUT_STATE, START_NS, START_SEC_LO, START_SEC_HI ] ++
  [ PERIOD_NS, WIDTH_NS, OUT_CMD, FIRED, CAP_EN, CAP_EDGE, FILL, CAP_LOST, CAP_NS, CAP_SEC_LO, CAP_SEC_HI, EDGE, VALID ]

end TMK

namespace RTC

/-- R409: R397; read freezes, R400. -/
def RTC_SEC : Fld := ⟨9, 0x040, 0, 1, 0, 7, .ro, 0, .any⟩
/-- R409: R397. -/
def RTC_MIN : Fld := ⟨9, 0x044, 0, 1, 0, 7, .ro, 0, .any⟩
/-- R409: R397. -/
def RTC_HOUR : Fld := ⟨9, 0x048, 0, 1, 0, 6, .ro, 0, .any⟩
/-- R409: R397. -/
def RTC_WDAY : Fld := ⟨9, 0x04C, 0, 1, 0, 3, .ro, 6, .any⟩
/-- R409: R397. -/
def RTC_DAY : Fld := ⟨9, 0x050, 0, 1, 0, 6, .ro, 1, .any⟩
/-- R409: R397. -/
def RTC_MONTH : Fld := ⟨9, 0x054, 0, 1, 0, 5, .ro, 1, .any⟩
/-- R409: R397. -/
def RTC_YEAR : Fld := ⟨9, 0x058, 0, 1, 0, 8, .ro, 0, .any⟩
/-- R409: R397; read releases, R400. -/
def RTC_CENT : Fld := ⟨9, 0x05C, 0, 1, 0, 8, .ro, 32, .any⟩
/-- R409: R397. -/
def RTC_SUBSEC : Fld := ⟨9, 0x060, 0, 1, 0, 15, .ro, 0, .any⟩
/-- R409: R401, R402. -/
def STG_SEC : Fld := ⟨9, 0x070, 0, 1, 0, 7, .rw, 0, .bcd 0 59⟩
/-- R409: R401, R402. -/
def STG_MIN : Fld := ⟨9, 0x074, 0, 1, 0, 7, .rw, 0, .bcd 0 59⟩
/-- R409: R401, R402. -/
def STG_HOUR : Fld := ⟨9, 0x078, 0, 1, 0, 6, .rw, 0, .bcd 0 23⟩
/-- R409: R401, R402. -/
def STG_DAY : Fld := ⟨9, 0x07C, 0, 1, 0, 6, .rw, 1, .bcd 1 31⟩
/-- R409: R401, R402. -/
def STG_MONTH : Fld := ⟨9, 0x080, 0, 1, 0, 5, .rw, 1, .bcd 1 12⟩
/-- R409: R401, R402. -/
def STG_YEAR : Fld := ⟨9, 0x084, 0, 1, 0, 8, .rw, 0, .bcd 0 99⟩
/-- R409: A write commits, R401. -/
def STG_CENT : Fld := ⟨9, 0x088, 0, 1, 0, 8, .rw, 32, .bcd 20 23⟩
/-- R409: R401. -/
def STG_DISCARD : Fld := ⟨9, 0x090, 0, 1, 0, 1, .wo, 0, .num 0 1⟩
/-- R409: R403. -/
def AUTO_SYNC : Fld := ⟨9, 0x090, 0, 1, 1, 1, .rw, 0, .num 0 1⟩
/-- R409: R400. -/
def FROZEN : Fld := ⟨9, 0x094, 0, 1, 0, 1, .ro, 0, .any⟩
/-- R409: R401. -/
def STAGE_OPEN : Fld := ⟨9, 0x094, 0, 1, 1, 1, .ro, 0, .any⟩
/-- R409: R398, R401. -/
def TIME_VALID : Fld := ⟨9, 0x094, 0, 1, 2, 1, .ro, 0, .any⟩
/-- R409: R407. -/
def OSC_FAULT : Fld := ⟨9, 0x094, 0, 1, 3, 1, .ro, 0, .any⟩
/-- R409: R407. -/
def VBAK_LOW : Fld := ⟨9, 0x094, 0, 1, 4, 1, .ro, 0, .any⟩
/-- R409: R400. -/
def HELD_TICK : Fld := ⟨9, 0x094, 0, 1, 5, 1, .ro, 0, .any⟩
/-- R409: R407. -/
def BPOR : Fld := ⟨9, 0x094, 0, 1, 6, 1, .w1c, 1, .any⟩
/-- R409: R399. -/
def CAL : Fld := ⟨9, 0x098, 0, 1, 0, 10, .rw, 0, .snum (-511) 511⟩
/-- R409: R399. -/
def TICK_NS : Fld := ⟨9, 0x09C, 0, 1, 0, 30, .ro, 0, .any⟩
/-- R409: R399, seconds [31:0]. -/
def TICK_SEC : Fld := ⟨9, 0x0A0, 0, 1, 0, 32, .ro, 0, .any⟩
/-- R409: R404. -/
def ALM_SEC : Fld := ⟨9, 0x0A4, 0, 1, 0, 7, .rw, 0, .bcd 0 59⟩
/-- R409: R404. -/
def ALM_MIN : Fld := ⟨9, 0x0A4, 0, 1, 8, 7, .rw, 0, .bcd 0 59⟩
/-- R409: R404. -/
def ALM_HOUR : Fld := ⟨9, 0x0A4, 0, 1, 16, 6, .rw, 0, .bcd 0 23⟩
/-- R409: R404. -/
def ALM_DAY : Fld := ⟨9, 0x0A4, 0, 1, 24, 6, .rw, 0, .bcd 1 31⟩
/-- R409: R404. -/
def SEC_EN : Fld := ⟨9, 0x0A8, 0, 1, 0, 1, .rw, 0, .num 0 1⟩
/-- R409: R404. -/
def MIN_EN : Fld := ⟨9, 0x0A8, 0, 1, 1, 1, .rw, 0, .num 0 1⟩
/-- R409: R404. -/
def HOUR_EN : Fld := ⟨9, 0x0A8, 0, 1, 2, 1, .rw, 0, .num 0 1⟩
/-- R409: R404. -/
def DAY_EN : Fld := ⟨9, 0x0A8, 0, 1, 3, 1, .rw, 0, .num 0 1⟩
/-- R409: R404. -/
def ALM_FLAG : Fld := ⟨9, 0x0A8, 0, 1, 4, 1, .w1c, 0, .any⟩
/-- R409: Wake input n, R405. -/
def EDGE : Fld := ⟨9, 0x0AC, 4, 4, 0, 2, .rw, 0, .enum [0, 1, 2]⟩
/-- R409: R405. -/
def W_EN : Fld := ⟨9, 0x0AC, 4, 4, 2, 1, .rw, 0, .num 0 1⟩
/-- R409: R405. -/
def DEB_MS : Fld := ⟨9, 0x0AC, 4, 4, 8, 8, .rw, 10, .num 0 255⟩
/-- R409: Debounced level. -/
def LEVEL : Fld := ⟨9, 0x0AC, 4, 4, 16, 1, .ro, 0, .any⟩
/-- R409: R406. -/
def PWRON_STATE : Fld := ⟨9, 0x0BC, 0, 1, 0, 1, .ro, 1, .any⟩
/-- R409: R406. -/
def MIN_OFF_MS : Fld := ⟨9, 0x0BC, 0, 1, 16, 16, .rw, 500, .num 10 60000⟩
/-- R409: R403; saturate. -/
def SYNCS : Fld := ⟨9, 0x0C0, 0, 1, 0, 16, .ro, 0, .any⟩
/-- R409: R403; saturate. -/
def SYNC_SKIPS : Fld := ⟨9, 0x0C0, 0, 1, 16, 16, .ro, 0, .any⟩

/-- The fields of the page. -/
def fields : List Fld :=
  [ RTC_SEC, RTC_MIN, RTC_HOUR, RTC_WDAY, RTC_DAY, RTC_MONTH, RTC_YEAR, RTC_CENT, RTC_SUBSEC, STG_SEC, STG_MIN, STG_HOUR, STG_DAY, STG_MONTH, STG_YEAR, STG_CENT, STG_DISCARD, AUTO_SYNC, FROZEN, STAGE_OPEN, TIME_VALID, OSC_FAULT, VBAK_LOW, HELD_TICK ] ++
  [ BPOR, CAL, TICK_NS, TICK_SEC, ALM_SEC, ALM_MIN, ALM_HOUR, ALM_DAY, SEC_EN, MIN_EN, HOUR_EN, DAY_EN, ALM_FLAG, EDGE, W_EN, DEB_MS, LEVEL, PWRON_STATE, MIN_OFF_MS, SYNCS, SYNC_SKIPS ]

end RTC

namespace CFD

/-- R428: R413, R423. -/
def MODE : Fld := ⟨24, 0x040, 0, 1, 0, 2, .rw, 0, .enum [0, 1, 2, 3]⟩
/-- R428: R417, R425, R414. -/
def ONE_SHOT : Fld := ⟨24, 0x040, 0, 1, 2, 1, .rw, 0, .num 0 1⟩
/-- R428: R417, R425, R414. -/
def NOPEER_ABORT : Fld := ⟨24, 0x040, 0, 1, 3, 1, .rw, 0, .num 0 1⟩
/-- R428: R417, R425, R414. -/
def TDC_EN : Fld := ⟨24, 0x040, 0, 1, 4, 1, .rw, 0, .num 0 1⟩
/-- R428: R421. -/
def TS_SHIFT : Fld := ⟨24, 0x040, 0, 1, 8, 4, .rw, 0, .num 0 10⟩
/-- R428: R413. -/
def NBRP : Fld := ⟨24, 0x044, 0, 1, 0, 9, .rw, 10, .num 1 256⟩
/-- R428: R413. -/
def NTSEG1 : Fld := ⟨24, 0x044, 0, 1, 16, 9, .rw, 15, .num 2 256⟩
/-- R428: R413. -/
def NTSEG2 : Fld := ⟨24, 0x048, 0, 1, 0, 8, .rw, 4, .num 2 128⟩
/-- R428: R413. -/
def NSJW : Fld := ⟨24, 0x048, 0, 1, 8, 8, .rw, 4, .num 1 128⟩
/-- R428: R413. -/
def DBRP : Fld := ⟨24, 0x04C, 0, 1, 0, 6, .rw, 1, .num 1 32⟩
/-- R428: R413. -/
def DTSEG1 : Fld := ⟨24, 0x04C, 0, 1, 8, 6, .rw, 19, .num 1 32⟩
/-- R428: R413. -/
def DTSEG2 : Fld := ⟨24, 0x04C, 0, 1, 16, 5, .rw, 5, .num 1 16⟩
/-- R428: R413. -/
def DSJW : Fld := ⟨24, 0x04C, 0, 1, 24, 5, .rw, 5, .num 1 16⟩
/-- R428: R414. -/
def TDCO : Fld := ⟨24, 0x050, 0, 1, 0, 7, .rw, 0, .num 0 127⟩
/-- R428: R414. -/
def TDC_VAL : Fld := ⟨24, 0x050, 0, 1, 8, 7, .ro, 0, .any⟩
/-- R428: 0 ACTIVE, 1 PASSIVE, 2 BUS_OFF, 3 RECOVERING. -/
def ERR_STATE : Fld := ⟨24, 0x054, 0, 1, 0, 2, .ro, 0, .any⟩
/-- R428: R422. -/
def ERR_WARN : Fld := ⟨24, 0x054, 0, 1, 2, 1, .ro, 0, .any⟩
/-- R428: R422. -/
def TEC : Fld := ⟨24, 0x054, 0, 1, 8, 9, .ro, 0, .any⟩
/-- R428: R422. -/
def REC : Fld := ⟨24, 0x054, 0, 1, 24, 8, .ro, 0, .any⟩
/-- R428: R425. -/
def ACK_RUN : Fld := ⟨24, 0x058, 0, 1, 0, 5, .ro, 0, .any⟩
/-- R428: 0 none, 1 RATE, 2 PENDING, 3 NOT_INIT, 4 NOT_BUSOFF. -/
def REFUSE_CAUSE : Fld := ⟨24, 0x058, 0, 1, 8, 3, .ro, 0, .any⟩
/-- R428: Refused writes; saturates. -/
def REFUSED : Fld := ⟨24, 0x058, 0, 1, 16, 16, .ro, 0, .any⟩
/-- R428: R415, R418. -/
def TX_REQ : Fld := ⟨24, 0x05C, 0, 1, 0, 3, .wo, 0, .any⟩
/-- R428: R415, R418. -/
def CANCEL : Fld := ⟨24, 0x05C, 0, 1, 4, 3, .wo, 0, .any⟩
/-- R428: R423, R420; CTR_CLR clears 0x064 [31:16] and 0x068. -/
def RECOVER : Fld := ⟨24, 0x05C, 0, 1, 8, 1, .wo, 0, .num 0 1⟩
/-- R428: R423, R420; CTR_CLR clears 0x064 [31:16] and 0x068. -/
def RX_ACK : Fld := ⟨24, 0x05C, 0, 1, 9, 1, .wo, 0, .num 0 1⟩
/-- R428: R423, R420; CTR_CLR clears 0x064 [31:16] and 0x068. -/
def CTR_CLR : Fld := ⟨24, 0x05C, 0, 1, 10, 1, .wo, 0, .num 0 1⟩
/-- R428: R421. -/
def TS_NOW : Fld := ⟨24, 0x060, 0, 1, 0, 32, .ro, 0, .any⟩
/-- R428: Entries queued. -/
def RX_FILL : Fld := ⟨24, 0x064, 0, 1, 0, 6, .ro, 0, .any⟩
/-- R428: R420; saturates. -/
def RX_LOST : Fld := ⟨24, 0x064, 0, 1, 16, 16, .ro, 0, .any⟩
/-- R428: Error frames sent as transmitter, as receiver; saturate. -/
def TX_ERRS : Fld := ⟨24, 0x068, 0, 1, 0, 16, .ro, 0, .any⟩
/-- R428: Error frames sent as transmitter, as receiver; saturate. -/
def RX_ERRS : Fld := ⟨24, 0x068, 0, 1, 16, 16, .ro, 0, .any⟩
/-- R428: R415. -/
def ID : Fld := ⟨24, 0x100, 96, 3, 0, 29, .rw, 0, .any⟩
/-- R428: R415. -/
def IDE : Fld := ⟨24, 0x100, 96, 3, 29, 1, .rw, 0, .any⟩
/-- R428: R415. -/
def RTR : Fld := ⟨24, 0x100, 96, 3, 30, 1, .rw, 0, .any⟩
/-- R428: R415. -/
def DLC : Fld := ⟨24, 0x104, 96, 3, 0, 4, .rw, 0, .any⟩
/-- R428: R415. -/
def FDF : Fld := ⟨24, 0x104, 96, 3, 4, 1, .rw, 0, .any⟩
/-- R428: R415. -/
def BRS : Fld := ⟨24, 0x104, 96, 3, 5, 1, .rw, 0, .any⟩
/-- R428: Byte i in bits [8(i mod 4) + 7 : 8(i mod 4)] of word i / 4. -/
def DATA0 : Fld := ⟨24, 0x108, 96, 3, 0, 32, .rw, 0, .any⟩
/-- R428: Byte i in bits [8(i mod 4) + 7 : 8(i mod 4)] of word i / 4. -/
def DATA1 : Fld := ⟨24, 0x10C, 96, 3, 0, 32, .rw, 0, .any⟩
/-- R428: Byte i in bits [8(i mod 4) + 7 : 8(i mod 4)] of word i / 4. -/
def DATA2 : Fld := ⟨24, 0x110, 96, 3, 0, 32, .rw, 0, .any⟩
/-- R428: Byte i in bits [8(i mod 4) + 7 : 8(i mod 4)] of word i / 4. -/
def DATA3 : Fld := ⟨24, 0x114, 96, 3, 0, 32, .rw, 0, .any⟩
/-- R428: Byte i in bits [8(i mod 4) + 7 : 8(i mod 4)] of word i / 4. -/
def DATA4 : Fld := ⟨24, 0x118, 96, 3, 0, 32, .rw, 0, .any⟩
/-- R428: Byte i in bits [8(i mod 4) + 7 : 8(i mod 4)] of word i / 4. -/
def DATA5 : Fld := ⟨24, 0x11C, 96, 3, 0, 32, .rw, 0, .any⟩
/-- R428: Byte i in bits [8(i mod 4) + 7 : 8(i mod 4)] of word i / 4. -/
def DATA6 : Fld := ⟨24, 0x120, 96, 3, 0, 32, .rw, 0, .any⟩
/-- R428: Byte i in bits [8(i mod 4) + 7 : 8(i mod 4)] of word i / 4. -/
def DATA7 : Fld := ⟨24, 0x124, 96, 3, 0, 32, .rw, 0, .any⟩
/-- R428: Byte i in bits [8(i mod 4) + 7 : 8(i mod 4)] of word i / 4. -/
def DATA8 : Fld := ⟨24, 0x128, 96, 3, 0, 32, .rw, 0, .any⟩
/-- R428: Byte i in bits [8(i mod 4) + 7 : 8(i mod 4)] of word i / 4. -/
def DATA9 : Fld := ⟨24, 0x12C, 96, 3, 0, 32, .rw, 0, .any⟩
/-- R428: Byte i in bits [8(i mod 4) + 7 : 8(i mod 4)] of word i / 4. -/
def DATA10 : Fld := ⟨24, 0x130, 96, 3, 0, 32, .rw, 0, .any⟩
/-- R428: Byte i in bits [8(i mod 4) + 7 : 8(i mod 4)] of word i / 4. -/
def DATA11 : Fld := ⟨24, 0x134, 96, 3, 0, 32, .rw, 0, .any⟩
/-- R428: Byte i in bits [8(i mod 4) + 7 : 8(i mod 4)] of word i / 4. -/
def DATA12 : Fld := ⟨24, 0x138, 96, 3, 0, 32, .rw, 0, .any⟩
/-- R428: Byte i in bits [8(i mod 4) + 7 : 8(i mod 4)] of word i / 4. -/
def DATA13 : Fld := ⟨24, 0x13C, 96, 3, 0, 32, .rw, 0, .any⟩
/-- R428: Byte i in bits [8(i mod 4) + 7 : 8(i mod 4)] of word i / 4. -/
def DATA14 : Fld := ⟨24, 0x140, 96, 3, 0, 32, .rw, 0, .any⟩
/-- R428: Byte i in bits [8(i mod 4) + 7 : 8(i mod 4)] of word i / 4. -/
def DATA15 : Fld := ⟨24, 0x144, 96, 3, 0, 32, .rw, 0, .any⟩
/-- R428: 0 EMPTY, 1 PENDING, 2 SENDING, 3 DONE, 4 CANCELLED, 5 ABORTED_NOPEER, 6 FAILED_ONESHOT. -/
def TX_STATE : Fld := ⟨24, 0x148, 96, 3, 0, 3, .ro, 0, .any⟩
/-- R428: Saturating; R424. -/
def ATTEMPTS : Fld := ⟨24, 0x148, 96, 3, 8, 8, .ro, 0, .any⟩
/-- R428: Saturating; R424. -/
def ID_RUN : Fld := ⟨24, 0x148, 96, 3, 16, 4, .ro, 0, .any⟩
/-- R428: R417. -/
def TX_TS : Fld := ⟨24, 0x14C, 96, 3, 0, 32, .ro, 0, .any⟩
/-- R428: Head entry, R420. -/
def RX_ID : Fld := ⟨24, 0x300, 0, 1, 0, 29, .ro, 0, .any⟩
/-- R428: Head entry, R420. -/
def RX_IDE : Fld := ⟨24, 0x300, 0, 1, 29, 1, .ro, 0, .any⟩
/-- R428: Head entry, R420. -/
def RX_RTR : Fld := ⟨24, 0x300, 0, 1, 30, 1, .ro, 0, .any⟩
/-- R428: Head entry. -/
def RX_DLC : Fld := ⟨24, 0x304, 0, 1, 0, 4, .ro, 0, .any⟩
/-- R428: Head entry. -/
def RX_FDF : Fld := ⟨24, 0x304, 0, 1, 4, 1, .ro, 0, .any⟩
/-- R428: Head entry. -/
def RX_BRS : Fld := ⟨24, 0x304, 0, 1, 5, 1, .ro, 0, .any⟩
/-- R428: Head entry. -/
def RX_ESI : Fld := ⟨24, 0x304, 0, 1, 6, 1, .ro, 0, .any⟩
/-- R428: Head entry. -/
def RX_FILTER : Fld := ⟨24, 0x304, 0, 1, 8, 4, .ro, 0, .any⟩
/-- R428: R421. -/
def RX_TS : Fld := ⟨24, 0x308, 0, 1, 0, 32, .ro, 0, .any⟩
/-- R428: As DATA. -/
def RX_DATA : Fld := ⟨24, 0x30C, 4, 16, 0, 32, .ro, 0, .any⟩
/-- R428: R419. -/
def F_ID : Fld := ⟨24, 0x400, 8, 16, 0, 29, .rw, 0, .any⟩
/-- R428: R419. -/
def F_IDE : Fld := ⟨24, 0x400, 8, 16, 29, 1, .rw, 0, .num 0 1⟩
/-- R428: R419. -/
def F_EN : Fld := ⟨24, 0x400, 8, 16, 31, 1, .rw, 0, .num 0 1⟩
/-- R428: R419. -/
def F_MASK : Fld := ⟨24, 0x404, 8, 16, 0, 29, .rw, 0, .any⟩

/-- The fields of the page. -/
def fields : List Fld :=
  [ MODE, ONE_SHOT, NOPEER_ABORT, TDC_EN, TS_SHIFT, NBRP, NTSEG1, NTSEG2, NSJW, DBRP, DTSEG1, DTSEG2, DSJW, TDCO, TDC_VAL, ERR_STATE, ERR_WARN, TEC, REC, ACK_RUN, REFUSE_CAUSE, REFUSED, TX_REQ, CANCEL ] ++
  [ RECOVER, RX_ACK, CTR_CLR, TS_NOW, RX_FILL, RX_LOST, TX_ERRS, RX_ERRS, ID, IDE, RTR, DLC, FDF, BRS, DATA0, DATA1, DATA2, DATA3, DATA4, DATA5, DATA6, DATA7, DATA8, DATA9 ] ++
  [ DATA10, DATA11, DATA12, DATA13, DATA14, DATA15, TX_STATE, ATTEMPTS, ID_RUN, TX_TS, RX_ID, RX_IDE, RX_RTR, RX_DLC, RX_FDF, RX_BRS, RX_ESI, RX_FILTER, RX_TS, RX_DATA, F_ID, F_IDE, F_EN, F_MASK ]

end CFD

namespace SER

/-- R435: R430. -/
def MODE : Fld := ⟨25, 0x040, 0, 1, 0, 2, .rw, 0, .enum [0, 1, 2, 3]⟩
/-- R435: R430. -/
def PARITY : Fld := ⟨25, 0x040, 0, 1, 2, 2, .rw, 1, .enum [0, 1, 2]⟩
/-- R435: R430, R432, R431. -/
def STOP2 : Fld := ⟨25, 0x040, 0, 1, 4, 1, .rw, 0, .num 0 1⟩
/-- R435: R430, R432, R431. -/
def CRC_GEN : Fld := ⟨25, 0x040, 0, 1, 5, 1, .rw, 1, .num 0 1⟩
/-- R435: R430, R432, R431. -/
def EXPECT : Fld := ⟨25, 0x040, 0, 1, 6, 1, .rw, 1, .num 0 1⟩
/-- R435: R434. -/
def GAP_CHARS : Fld := ⟨25, 0x040, 0, 1, 8, 8, .rw, 4, .num 1 255⟩
/-- R435: R430, R433. -/
def BAUD : Fld := ⟨25, 0x044, 0, 1, 0, 17, .rw, 9600, .num 300 115200⟩
/-- R435: R431. -/
def RESP_TMO_MS : Fld := ⟨25, 0x048, 0, 1, 0, 16, .rw, 1000, .num 1 65535⟩
/-- R435: R431. -/
def TURN_MS : Fld := ⟨25, 0x048, 0, 1, 16, 14, .rw, 100, .num 0 10000⟩
/-- R435: R431. -/
def TX_LEN : Fld := ⟨25, 0x04C, 0, 1, 0, 10, .rw, 1, .num 1 512⟩
/-- R435: R431. -/
def CMD : Fld := ⟨25, 0x050, 0, 1, 0, 2, .wo, 0, .enum [0, 1, 2]⟩
/-- R435: 1 clears 0x058. -/
def CTR_CLR : Fld := ⟨25, 0x050, 0, 1, 4, 1, .wo, 0, .num 0 1⟩
/-- R435: 0 IDLE, 1 WAIT_IDLE, 2 SENDING, 3 WAITING, 4 RECEIVING, 5 DONE. -/
def STATE : Fld := ⟨25, 0x054, 0, 1, 0, 3, .ro, 0, .any⟩
/-- R435: R431. -/
def RESULT : Fld := ⟨25, 0x054, 0, 1, 4, 4, .ro, 0, .any⟩
/-- R435: Bytes in RX_BUF. -/
def RX_LEN : Fld := ⟨25, 0x054, 0, 1, 8, 10, .ro, 0, .any⟩
/-- R435: R431; saturates. -/
def REFUSED : Fld := ⟨25, 0x054, 0, 1, 24, 8, .ro, 0, .any⟩
/-- R435: Transactions with RESULT ≠ OK; R431; saturate. -/
def ERRORS : Fld := ⟨25, 0x058, 0, 1, 0, 16, .ro, 0, .any⟩
/-- R435: Transactions with RESULT ≠ OK; R431; saturate. -/
def UNSOLICITED : Fld := ⟨25, 0x058, 0, 1, 16, 16, .ro, 0, .any⟩
/-- R435: Byte i in bits [8(i mod 4) + 7 : 8(i mod 4)] of word i / 4. -/
def TX_BUF : Fld := ⟨25, 0x200, 4, 128, 0, 32, .rw, 0, .any⟩
/-- R435: As TX_BUF. -/
def RX_BUF : Fld := ⟨25, 0x400, 4, 128, 0, 32, .ro, 0, .any⟩

/-- The fields of the page. -/
def fields : List Fld :=
  [ MODE, PARITY, STOP2, CRC_GEN, EXPECT, GAP_CHARS, BAUD, RESP_TMO_MS, TURN_MS, TX_LEN, CMD, CTR_CLR, STATE, RESULT, RX_LEN, REFUSED, ERRORS, UNSOLICITED, TX_BUF, RX_BUF ]

end SER

namespace ETH

/-- R453: R437. -/
def MODE : Fld := ⟨26, 0x040, 0, 1, 0, 2, .rw, 0, .enum [0, 1, 2, 3]⟩
/-- R453: R437. -/
def AN_EN : Fld := ⟨26, 0x040, 0, 1, 2, 1, .rw, 1, .num 0 1⟩
/-- R453: R438. -/
def MAX_FRAME : Fld := ⟨26, 0x044, 0, 1, 0, 14, .rw, 1536, .num 64 9216⟩
/-- R453: R439. -/
def TS_TX_ADJ : Fld := ⟨26, 0x048, 0, 1, 0, 16, .rw, 0, .num 0 10000⟩
/-- R453: R439. -/
def TS_RX_ADJ : Fld := ⟨26, 0x048, 0, 1, 16, 16, .rw, 0, .num 0 10000⟩
/-- R453: R441. -/
def PVID : Fld := ⟨26, 0x04C, 0, 1, 0, 12, .rw, 1, .num 1 4094⟩
/-- R453: R441. -/
def DEF_PCP : Fld := ⟨26, 0x04C, 0, 1, 12, 3, .rw, 0, .num 0 7⟩
/-- R453: R443. -/
def PCP_MAP : Fld := ⟨26, 0x050, 0, 1, 0, 16, .rw, 64080, .any⟩
/-- R453: Link state. -/
def LINK_UP : Fld := ⟨26, 0x054, 0, 1, 0, 1, .ro, 0, .any⟩
/-- R453: 0 none, 1 10M, 2 100M, 3 1G, 4 10G. -/
def SPEED : Fld := ⟨26, 0x054, 0, 1, 1, 3, .ro, 0, .any⟩
/-- R453: R437; saturates. -/
def REFUSED : Fld := ⟨26, 0x054, 0, 1, 16, 16, .ro, 0, .any⟩
/-- R453: Saturate. -/
def RX_FRAMES : Fld := ⟨26, 0x058, 0, 1, 0, 32, .ro, 0, .any⟩
/-- R453: Saturate. -/
def TX_FRAMES : Fld := ⟨26, 0x05C, 0, 1, 0, 32, .ro, 0, .any⟩
/-- R453: R437, R438; saturates. -/
def RX_ERRS : Fld := ⟨26, 0x060, 0, 1, 0, 32, .ro, 0, .any⟩
/-- R453: R443, R452; saturates. -/
def TX_DROPS : Fld := ⟨26, 0x064, 0, 1, 0, 32, .ro, 0, .any⟩
/-- R453: R448. -/
def FLOOD_RATE : Fld := ⟨26, 0x068, 0, 1, 0, 20, .rw, 10000, .num 1 1000000⟩
/-- R453: R448. -/
def FLOOD_BURST : Fld := ⟨26, 0x06C, 0, 1, 0, 16, .rw, 256, .num 1 65535⟩
/-- R453: R448; saturates. -/
def FLOOD_DROPS : Fld := ⟨26, 0x070, 0, 1, 0, 32, .ro, 0, .any⟩
/-- R453: 1 clears 0x058 to 0x064 and 0x070. -/
def CTR_CLR : Fld := ⟨26, 0x074, 0, 1, 0, 1, .wo, 0, .num 0 1⟩

/-- The fields of the page. -/
def fields : List Fld :=
  [ MODE, AN_EN, MAX_FRAME, TS_TX_ADJ, TS_RX_ADJ, PVID, DEF_PCP, PCP_MAP, LINK_UP, SPEED, REFUSED, RX_FRAMES, TX_FRAMES, RX_ERRS, TX_DROPS, FLOOD_RATE, FLOOD_BURST, FLOOD_DROPS, CTR_CLR ]

end ETH

namespace ESW

/-- R454: R445. -/
def AGE_S : Fld := ⟨27, 0x040, 0, 1, 0, 20, .rw, 300, .num 10 1000000⟩
/-- R454: R443. -/
def SXE_CLASS : Fld := ⟨27, 0x044, 0, 1, 0, 2, .rw, 3, .num 0 3⟩
/-- R454: Entries in the ways. -/
def TABLE_USED : Fld := ⟨27, 0x048, 0, 1, 0, 15, .ro, 0, .any⟩
/-- R454: R446. -/
def OVF_USED : Fld := ⟨27, 0x048, 0, 1, 16, 7, .ro, 0, .any⟩
/-- R454: R446. -/
def TABLE_FULL : Fld := ⟨27, 0x048, 0, 1, 24, 1, .ro, 0, .any⟩
/-- R454: R445, R446; saturate. -/
def LEARN_REFUSED : Fld := ⟨27, 0x04C, 0, 1, 0, 32, .ro, 0, .any⟩
/-- R454: R445, R446; saturate. -/
def MOVES : Fld := ⟨27, 0x050, 0, 1, 0, 32, .ro, 0, .any⟩
/-- R454: R440; saturates. -/
def STOMPED : Fld := ⟨27, 0x054, 0, 1, 0, 32, .ro, 0, .any⟩
/-- R454: Entry window: address bytes 2 to 5. -/
def E_MAC_LO : Fld := ⟨27, 0x060, 0, 1, 0, 32, .rw, 0, .any⟩
/-- R454: Address bytes 0 and 1. -/
def E_MAC_HI : Fld := ⟨27, 0x064, 0, 1, 0, 16, .rw, 0, .any⟩
/-- R454: R441. -/
def E_FID : Fld := ⟨27, 0x064, 0, 1, 16, 12, .rw, 1, .num 1 4094⟩
/-- R454: Egress ports, bit 12 internal. -/
def E_PORTS : Fld := ⟨27, 0x068, 0, 1, 0, 13, .rw, 0, .num 0 8191⟩
/-- R454: R447. -/
def E_CMD : Fld := ⟨27, 0x06C, 0, 1, 0, 2, .wo, 0, .enum [0, 1, 2, 3]⟩
/-- R454: Result of the last command. -/
def E_FOUND : Fld := ⟨27, 0x070, 0, 1, 0, 1, .ro, 0, .any⟩
/-- R454: Entry found is static. -/
def E_STATIC : Fld := ⟨27, 0x070, 0, 1, 1, 1, .ro, 0, .any⟩
/-- R454: 0 OK, 1 FULL, 2 STATIC_LIMIT. -/
def E_CAUSE : Fld := ⟨27, 0x070, 0, 1, 2, 2, .ro, 0, .any⟩
/-- R454: Ports of the entry found. -/
def E_PORTS_NOW : Fld := ⟨27, 0x070, 0, 1, 16, 13, .ro, 0, .any⟩
/-- R454: R449. -/
def RED_MODE : Fld := ⟨27, 0x100, 16, 6, 0, 2, .rwl, 0, .enum [0, 1, 2]⟩
/-- R454: R450. -/
def LIFE_MS : Fld := ⟨27, 0x100, 16, 6, 16, 16, .rw, 2000, .num 100 10000⟩
/-- R454: Discarded duplicates; R450; saturate. -/
def CNT_DUP : Fld := ⟨27, 0x104, 16, 6, 0, 32, .ro, 0, .any⟩
/-- R454: Discarded duplicates; R450; saturate. -/
def CNT_WRONG_LAN : Fld := ⟨27, 0x108, 16, 6, 0, 32, .ro, 0, .any⟩
/-- R454: Frames seen on one LAN only; saturate. -/
def CNT_ONLY_A : Fld := ⟨27, 0x10C, 16, 6, 0, 16, .ro, 0, .any⟩
/-- R454: Frames seen on one LAN only; saturate. -/
def CNT_ONLY_B : Fld := ⟨27, 0x10C, 16, 6, 16, 16, .ro, 0, .any⟩

/-- The fields of the page. -/
def fields : List Fld :=
  [ AGE_S, SXE_CLASS, TABLE_USED, OVF_USED, TABLE_FULL, LEARN_REFUSED, MOVES, STOMPED, E_MAC_LO, E_MAC_HI, E_FID, E_PORTS, E_CMD, E_FOUND, E_STATIC, E_CAUSE, E_PORTS_NOW, RED_MODE, LIFE_MS, CNT_DUP, CNT_WRONG_LAN, CNT_ONLY_A, CNT_ONLY_B ]

end ESW

namespace REC

/-- R475: 0 SERVICE, 1 STARTUP, 2 TEST, 3 RECOVERY. -/
def FORM : Fld := ⟨10, 0x040, 0, 1, 0, 2, .ro, 1, .any⟩
/-- R475: R468, R467, R470. -/
def FROZEN : Fld := ⟨10, 0x040, 0, 1, 2, 1, .ro, 0, .any⟩
/-- R475: R468, R467, R470. -/
def PERSIST_OK : Fld := ⟨10, 0x040, 0, 1, 3, 1, .ro, 1, .any⟩
/-- R475: R468, R467, R470. -/
def HOLDING : Fld := ⟨10, 0x040, 0, 1, 4, 1, .ro, 0, .any⟩
/-- R475: R462. -/
def TEST : Fld := ⟨10, 0x040, 0, 1, 8, 1, .rwl, 0, .num 0 1⟩
/-- R475: Next sequence, R460. Reset: From MRAM; the model holds 0 (assumption 4). -/
def HEAD_SEQ : Fld := ⟨10, 0x044, 0, 1, 0, 32, .ro, 0, .any⟩
/-- R475: Oldest record in the ring. Reset: From MRAM; the model holds 0 (assumption 4). -/
def OLDEST_SEQ : Fld := ⟨10, 0x048, 0, 1, 0, 32, .ro, 0, .any⟩
/-- R475: R467. Reset: From MRAM; the model holds 0 (assumption 4). -/
def PERSIST_SEQ : Fld := ⟨10, 0x04C, 0, 1, 0, 32, .ro, 0, .any⟩
/-- R475: Export cursor, R470. Reset: From MRAM; the model holds 0 (assumption 4). -/
def EXP_SEQ : Fld := ⟨10, 0x050, 0, 1, 0, 32, .rw, 0, .any⟩
/-- R475: R470. -/
def FILL_THR : Fld := ⟨10, 0x054, 0, 1, 0, 14, .rw, 6144, .num 64 8192⟩
/-- R475: Code for CODE_CFG. -/
def CODE_SEL : Fld := ⟨10, 0x058, 0, 1, 0, 12, .rw, 0, .num 0 4095⟩
/-- R475: R458. -/
def CODE_EN : Fld := ⟨10, 0x05C, 0, 1, 0, 1, .rw, 1, .any⟩
/-- R475: R463. -/
def CLASS : Fld := ⟨10, 0x05C, 0, 1, 4, 4, .rw, 1, .any⟩
/-- R475: R458. Reset: Per R458; the model holds 0 (assumption 4). -/
def MANDATORY : Fld := ⟨10, 0x05C, 0, 1, 8, 1, .ro, 0, .any⟩
/-- R475: Unsummarised suppressions; saturates. -/
def SUPP : Fld := ⟨10, 0x05C, 0, 1, 16, 16, .ro, 0, .any⟩
/-- R475: Class addressed. -/
def CLASS_SEL : Fld := ⟨10, 0x060, 0, 1, 0, 4, .rw, 1, .num 1 15⟩
/-- R475: R463. -/
def RATE_MS : Fld := ⟨10, 0x064, 0, 1, 0, 22, .rw, 1000, .num 1 3600000⟩
/-- R475: R463. -/
def BURST : Fld := ⟨10, 0x064, 0, 1, 24, 8, .rw, 16, .num 1 255⟩
/-- R475: R464. -/
def SUPP_FLUSH_S : Fld := ⟨10, 0x068, 0, 1, 0, 12, .rw, 60, .num 1 3600⟩
/-- R475: R468. -/
def FRZ_CMD : Fld := ⟨10, 0x06C, 0, 1, 0, 2, .wo, 0, .enum [0, 1, 2]⟩
/-- R475: R468. -/
def FREEZE_MAX_S : Fld := ⟨10, 0x06C, 0, 1, 16, 12, .rw, 600, .num 1 3600⟩
/-- R475: R468. -/
def FRZ_FIRST : Fld := ⟨10, 0x070, 0, 1, 0, 32, .ro, 0, .any⟩
/-- R475: R468. -/
def FRZ_LAST : Fld := ⟨10, 0x074, 0, 1, 0, 32, .ro, 0, .any⟩
/-- R475: Bytes held. -/
def HOLD_FILL : Fld := ⟨10, 0x078, 0, 1, 0, 17, .ro, 0, .any⟩
/-- R475: R469. -/
def READERS : Fld := ⟨10, 0x07C, 0, 1, 0, 9, .rwl, 0, .any⟩
/-- R475: R469. -/
def WIN_SEQ : Fld := ⟨10, 0x080, 0, 1, 0, 32, .rw, 0, .any⟩
/-- R475: R469. -/
def WIN_NEXT : Fld := ⟨10, 0x084, 0, 1, 0, 1, .wo, 0, .num 0 1⟩
/-- R475: R469. -/
def WIN_FOUND : Fld := ⟨10, 0x088, 0, 1, 0, 1, .ro, 0, .any⟩
/-- R475: R469. -/
def WIN_CRC_OK : Fld := ⟨10, 0x088, 0, 1, 1, 1, .ro, 0, .any⟩
/-- R475: R469. -/
def WIN_LEN : Fld := ⟨10, 0x088, 0, 1, 16, 10, .ro, 0, .any⟩
/-- R475: R470. -/
def EXP_CMD : Fld := ⟨10, 0x08C, 0, 1, 0, 2, .wo, 0, .enum [0, 1, 2]⟩
/-- R475: R470. -/
def EXP_SEAL : Fld := ⟨10, 0x08C, 0, 1, 8, 1, .rw, 1, .num 0 1⟩
/-- R475: R470. -/
def EXP_FROM : Fld := ⟨10, 0x090, 0, 1, 0, 32, .rw, 0, .any⟩
/-- R475: R470. -/
def EXP_DST : Fld := ⟨10, 0x094, 0, 1, 0, 32, .rw, 0x48000000, .step 1207959552 1224736512 256⟩
/-- R475: R470. -/
def EXP_MAX : Fld := ⟨10, 0x098, 0, 1, 0, 25, .rw, 0x800000, .num 4096 16777216⟩
/-- R475: 0 IDLE, 1 RUNNING, 2 DONE, 3 ABORTED. -/
def EXP_STATE : Fld := ⟨10, 0x09C, 0, 1, 0, 2, .ro, 0, .any⟩
/-- R475: R471. -/
def CLR_TOKEN : Fld := ⟨10, 0x0A0, 0, 1, 0, 32, .rw, 0x48000000, .step 1207959552 1224736512 256⟩
/-- R475: R471. -/
def CLR_CMD : Fld := ⟨10, 0x0A4, 0, 1, 0, 1, .wo, 0, .num 0 1⟩
/-- R475: R471. Reset: Drawn at boot; the model holds 0 (assumption 4). -/
def CLR_NONCE_LO : Fld := ⟨10, 0x0A8, 0, 1, 0, 32, .ro, 0, .any⟩
/-- R475: R471. Reset: Drawn at boot; the model holds 0 (assumption 4). -/
def CLR_NONCE_HI : Fld := ⟨10, 0x0AC, 0, 1, 0, 32, .ro, 0, .any⟩
/-- R475: 0 OK, 1 BUSY, 2 NONCE, 3 RANGE, 4 SIGNATURE. -/
def CLR_CAUSE : Fld := ⟨10, 0x0B0, 0, 1, 0, 3, .ro, 0, .any⟩
/-- R475: R466; saturates. -/
def OVERWRITTEN : Fld := ⟨10, 0x0B4, 0, 1, 0, 32, .ro, 0, .any⟩
/-- R475: R466; saturates. -/
def LOST_UNEXPORTED : Fld := ⟨10, 0x0B8, 0, 1, 0, 32, .ro, 0, .any⟩
/-- R475: R465; saturates. -/
def INPUT_LOST : Fld := ⟨10, 0x0BC, 0, 1, 0, 32, .ro, 0, .any⟩
/-- R475: R463; saturates. -/
def SUPP_TOTAL : Fld := ⟨10, 0x0C0, 0, 1, 0, 32, .ro, 0, .any⟩
/-- R475: R469, R468; saturate. -/
def PRIV_VIOL : Fld := ⟨10, 0x0C4, 0, 1, 0, 16, .ro, 0, .any⟩
/-- R475: R469, R468; saturate. -/
def REFUSED : Fld := ⟨10, 0x0C4, 0, 1, 16, 16, .ro, 0, .any⟩
/-- R475: 1 clears 0x0B4 to 0x0C4. -/
def CTR_CLR : Fld := ⟨10, 0x0C8, 0, 1, 0, 1, .wo, 0, .num 0 1⟩
/-- R475: Window buffer, byte i in word i / 4. -/
def WIN_DATA : Fld := ⟨10, 0x100, 4, 129, 0, 32, .ro, 0, .any⟩

/-- The fields of the page. -/
def fields : List Fld :=
  [ FORM, FROZEN, PERSIST_OK, HOLDING, TEST, HEAD_SEQ, OLDEST_SEQ, PERSIST_SEQ, EXP_SEQ, FILL_THR, CODE_SEL, CODE_EN, CLASS, MANDATORY, SUPP, CLASS_SEL, RATE_MS, BURST, SUPP_FLUSH_S, FRZ_CMD, FREEZE_MAX_S, FRZ_FIRST, FRZ_LAST, HOLD_FILL ] ++
  [ READERS, WIN_SEQ, WIN_NEXT, WIN_FOUND, WIN_CRC_OK, WIN_LEN, EXP_CMD, EXP_SEAL, EXP_FROM, EXP_DST, EXP_MAX, EXP_STATE, CLR_TOKEN, CLR_CMD, CLR_NONCE_LO, CLR_NONCE_HI, CLR_CAUSE, OVERWRITTEN, LOST_UNEXPORTED, INPUT_LOST, SUPP_TOTAL, PRIV_VIOL, REFUSED, CTR_CLR ] ++
  [ WIN_DATA ]

end REC

namespace DCH

/-- R499: R481. -/
def UNIT_ADDR : Fld := ⟨11, 0x040, 0, 1, 0, 4, .ro, 0, .any⟩
/-- R499: R482, R485. -/
def MASTER_ADDR : Fld := ⟨11, 0x040, 0, 1, 8, 4, .ro, 0, .any⟩
/-- R499: R482, R485. -/
def TIME_MASTER : Fld := ⟨11, 0x040, 0, 1, 12, 4, .ro, 0, .any⟩
/-- R499: Major [15:8], minor [7:0]. -/
def PROTO_VER : Fld := ⟨11, 0x040, 0, 1, 16, 16, .ro, 256, .any⟩
/-- R499: R481. Reset: From MRAM; the model holds 0 (assumption 4). -/
def BIND_GEN : Fld := ⟨11, 0x044, 0, 1, 0, 32, .ro, 0, .any⟩
/-- R499: R483, R484. -/
def ENUM_CMD : Fld := ⟨11, 0x048, 0, 1, 0, 2, .wo, 0, .enum [0, 1, 2, 3]⟩
/-- R499: R484. -/
def CMD_ADDR : Fld := ⟨11, 0x048, 0, 1, 8, 4, .rw, 1, .num 1 15⟩
/-- R499: R484. -/
def CLAIM_POLICY : Fld := ⟨11, 0x048, 0, 1, 16, 1, .rwl, 1, .enum [0, 1]⟩
/-- R499: R484. -/
def VACANT_S : Fld := ⟨11, 0x04C, 0, 1, 0, 16, .rw, 0, .num 0 65535⟩
/-- R499: R484. -/
def CLAIM_SERIAL_LO : Fld := ⟨11, 0x050, 0, 1, 0, 32, .rw, 0, .any⟩
/-- R499: R484. -/
def CLAIM_SERIAL_HI : Fld := ⟨11, 0x054, 0, 1, 0, 32, .rw, 0, .any⟩
/-- R499: Bit a: address a present; bit 0 an unbound unit. -/
def PRESENT : Fld := ⟨11, 0x058, 0, 1, 0, 16, .ro, 0, .any⟩
/-- R499: Bit 16 + a: address a claimable. -/
def CLAIMABLE : Fld := ⟨11, 0x058, 0, 1, 16, 16, .ro, 0, .any⟩
/-- R499: R477, R480. -/
def UP_OK : Fld := ⟨11, 0x05C, 0, 1, 0, 1, .ro, 0, .any⟩
/-- R499: R477, R480. -/
def DOWN_OK : Fld := ⟨11, 0x05C, 0, 1, 1, 1, .ro, 0, .any⟩
/-- R499: R477, R480. -/
def RING_OK : Fld := ⟨11, 0x05C, 0, 1, 2, 1, .ro, 0, .any⟩
/-- R499: R486. -/
def PAIR_EN : Fld := ⟨11, 0x060, 0, 1, 0, 1, .rwl, 0, .num 0 1⟩
/-- R499: R486. -/
def PEER_ADDR : Fld := ⟨11, 0x060, 0, 1, 4, 4, .rwl, 1, .num 1 15⟩
/-- R499: R486. -/
def WITNESS : Fld := ⟨11, 0x060, 0, 1, 8, 5, .rwl, 0, .num 0 17⟩
/-- R499: R494. -/
def GM_MODE_ACT : Fld := ⟨11, 0x060, 0, 1, 16, 2, .rwl, 0, .enum [0, 1]⟩
/-- R499: R488. -/
def HB_US : Fld := ⟨11, 0x064, 0, 1, 0, 9, .rw, 100, .num 50 450⟩
/-- R499: R489. -/
def HB_MISS : Fld := ⟨11, 0x064, 0, 1, 16, 4, .rw, 5, .num 3 10⟩
/-- R499: R488, R490. -/
def LEASE_US : Fld := ⟨11, 0x068, 0, 1, 0, 11, .rw, 300, .any⟩
/-- R499: R489. -/
def VOTE_TMO_US : Fld := ⟨11, 0x068, 0, 1, 16, 11, .rw, 500, .any⟩
/-- R499: R489. -/
def LOCK_US : Fld := ⟨11, 0x06C, 0, 1, 0, 16, .rw, 10000, .num 1000 60000⟩
/-- R499: R492. -/
def MIRROR_US : Fld := ⟨11, 0x06C, 0, 1, 16, 10, .rw, 250, .num 50 1000⟩
/-- R499: Address bytes 2 to 5, 0 and 1; R495. -/
def PAIR_MAC_LO : Fld := ⟨11, 0x070, 0, 1, 0, 32, .rwl, 0, .any⟩
/-- R499: Address bytes 2 to 5, 0 and 1; R495. -/
def PAIR_MAC_HI : Fld := ⟨11, 0x074, 0, 1, 0, 16, .rwl, 0, .any⟩
/-- R499: 0 SINGLE, 1 SYNCING, 2 STANDBY, 3 ACTIVE, 4 FENCED. -/
def ROLE : Fld := ⟨11, 0x078, 0, 1, 0, 3, .ro, 0, .any⟩
/-- R499: 1: OUT_EN_N low; peer heard; lease valid; lock valid. -/
def OUT_EN : Fld := ⟨11, 0x078, 0, 1, 3, 1, .ro, 0, .any⟩
/-- R499: 1: OUT_EN_N low; peer heard; lease valid; lock valid. -/
def PEER_OK : Fld := ⟨11, 0x078, 0, 1, 4, 1, .ro, 0, .any⟩
/-- R499: 1: OUT_EN_N low; peer heard; lease valid; lock valid. -/
def LEASE_OK : Fld := ⟨11, 0x078, 0, 1, 5, 1, .ro, 0, .any⟩
/-- R499: 1: OUT_EN_N low; peer heard; lease valid; lock valid. -/
def LOCK_OK : Fld := ⟨11, 0x078, 0, 1, 6, 1, .ro, 0, .any⟩
/-- R499: Full copy progress, 0 to 100. -/
def SYNC_PCT : Fld := ⟨11, 0x078, 0, 1, 8, 8, .ro, 0, .any⟩
/-- R499: R489. Reset: From MRAM; the model holds 0 (assumption 4). -/
def PAIR_EPOCH : Fld := ⟨11, 0x07C, 0, 1, 0, 32, .ro, 0, .any⟩
/-- R499: R491, R496. -/
def PAIR_CMD : Fld := ⟨11, 0x080, 0, 1, 0, 2, .wo, 0, .enum [0, 1, 2]⟩
/-- R499: Host witness answer, R489. -/
def VOTE_EPOCH : Fld := ⟨11, 0x084, 0, 1, 0, 32, .rw, 0, .any⟩
/-- R499: R489. -/
def VOTE_CMD : Fld := ⟨11, 0x088, 0, 1, 0, 2, .wo, 0, .enum [0, 1, 2]⟩
/-- R499: Lower address of the served pair shown. -/
def W_SEL : Fld := ⟨11, 0x08C, 0, 1, 0, 4, .rw, 1, .num 1 15⟩
/-- R499: R489. Reset: From MRAM; the model holds 0 (assumption 4). -/
def W_EPOCH : Fld := ⟨11, 0x090, 0, 1, 0, 32, .ro, 0, .any⟩
/-- R499: R489. -/
def W_HOLDER : Fld := ⟨11, 0x094, 0, 1, 0, 4, .ro, 0, .any⟩
/-- R499: Last cut sent or applied. -/
def CUT_SEQ : Fld := ⟨11, 0x098, 0, 1, 0, 32, .ro, 0, .any⟩
/-- R499: R492, R489; saturate. -/
def MIRROR_LAG : Fld := ⟨11, 0x09C, 0, 1, 0, 16, .ro, 0, .any⟩
/-- R499: R492, R489; saturate. -/
def HB_LOST_CNT : Fld := ⟨11, 0x09C, 0, 1, 16, 16, .ro, 0, .any⟩
/-- R499: R478, R480; saturate. -/
def CRC_ERRS : Fld := ⟨11, 0x0A0, 0, 1, 0, 16, .ro, 0, .any⟩
/-- R499: R478, R480; saturate. -/
def LINK_DROPS : Fld := ⟨11, 0x0A0, 0, 1, 16, 16, .ro, 0, .any⟩
/-- R499: R494. -/
def AXIS_SUSPECT : Fld := ⟨11, 0x0A4, 0, 1, 0, 24, .w1c, 0, .any⟩
/-- R499: Saturates. -/
def TAKEOVERS : Fld := ⟨11, 0x0A8, 0, 1, 0, 16, .ro, 0, .any⟩
/-- R499: R483, R496; saturates. -/
def REFUSED : Fld := ⟨11, 0x0A8, 0, 1, 16, 8, .ro, 0, .any⟩
/-- R499: 1 clears 0x09C, 0x0A0 and 0x0A8. -/
def CTR_CLR : Fld := ⟨11, 0x0AC, 0, 1, 0, 1, .wo, 0, .num 0 1⟩

/-- The fields of the page. -/
def fields : List Fld :=
  [ UNIT_ADDR, MASTER_ADDR, TIME_MASTER, PROTO_VER, BIND_GEN, ENUM_CMD, CMD_ADDR, CLAIM_POLICY, VACANT_S, CLAIM_SERIAL_LO, CLAIM_SERIAL_HI, PRESENT, CLAIMABLE, UP_OK, DOWN_OK, RING_OK, PAIR_EN, PEER_ADDR, WITNESS, GM_MODE_ACT, HB_US, HB_MISS, LEASE_US, VOTE_TMO_US ] ++
  [ LOCK_US, MIRROR_US, PAIR_MAC_LO, PAIR_MAC_HI, ROLE, OUT_EN, PEER_OK, LEASE_OK, LOCK_OK, SYNC_PCT, PAIR_EPOCH, PAIR_CMD, VOTE_EPOCH, VOTE_CMD, W_SEL, W_EPOCH, W_HOLDER, CUT_SEQ, MIRROR_LAG, HB_LOST_CNT, CRC_ERRS, LINK_DROPS, AXIS_SUSPECT, TAKEOVERS ] ++
  [ REFUSED, CTR_CLR ]

end DCH

namespace SEC

/-- R519: R501. Reset: From fuses; the model holds 0 (assumption 4). -/
def ANCHOR_VALID : Fld := ⟨2, 0x040, 0, 1, 0, 8, .ro, 0, .any⟩
/-- R519: R501. Reset: From fuses; the model holds 0 (assumption 4). -/
def ANCHOR_REVOKED : Fld := ⟨2, 0x040, 0, 1, 8, 8, .ro, 0, .any⟩
/-- R519: R502. Reset: From fuses; the model holds 0 (assumption 4). -/
def POLICY : Fld := ⟨2, 0x044, 0, 1, 0, 6, .ro, 0, .any⟩
/-- R519: R504. Reset: From fuses; the model holds 0 (assumption 4). -/
def MIN_SVN : Fld := ⟨2, 0x044, 0, 1, 8, 7, .ro, 0, .any⟩
/-- R519: Next identity index. Reset: From MRAM; the model holds 0 (assumption 4). -/
def IDX_LO : Fld := ⟨2, 0x048, 0, 1, 0, 32, .ro, 0, .any⟩
/-- R519: Next identity index. Reset: From MRAM; the model holds 0 (assumption 4). -/
def IDX_HI : Fld := ⟨2, 0x04C, 0, 1, 0, 8, .ro, 0, .any⟩
/-- R519: Highest burned floor bit. Reset: From fuses; the model holds 0 (assumption 4). -/
def IDX_FLOOR : Fld := ⟨2, 0x050, 0, 1, 0, 10, .ro, 0, .any⟩
/-- R519: R507. -/
def IDX_LOW_THR : Fld := ⟨2, 0x050, 0, 1, 16, 10, .rw, 16, .num 1 1023⟩
/-- R519: R506. -/
def INDEX_BATCH : Fld := ⟨2, 0x054, 0, 1, 0, 9, .rw, 16, .num 1 256⟩
/-- R519: R510. Reset: Drawn at boot; the model holds 0 (assumption 4). -/
def TOK_NONCE_LO : Fld := ⟨2, 0x058, 0, 1, 0, 32, .ro, 0, .any⟩
/-- R519: R510. Reset: Drawn at boot; the model holds 0 (assumption 4). -/
def TOK_NONCE_HI : Fld := ⟨2, 0x05C, 0, 1, 0, 32, .ro, 0, .any⟩
/-- R519: R511. -/
def TOK_ADDR : Fld := ⟨2, 0x060, 0, 1, 0, 32, .rw, 0x48000000, .step 1207959552 1224736512 256⟩
/-- R519: R511. -/
def TOK_CMD : Fld := ⟨2, 0x064, 0, 1, 0, 1, .wo, 0, .num 0 1⟩
/-- R519: R513. -/
def DBG_CLOSE : Fld := ⟨2, 0x064, 0, 1, 1, 1, .wo, 0, .num 0 1⟩
/-- R519: Last verification, R504. -/
def VFY_CAUSE : Fld := ⟨2, 0x068, 0, 1, 0, 4, .ro, 0, .any⟩
/-- R519: 0 OK, 1 to 8 as R504, 9 RULE, 10 POLICY, 11 FIELD, 12 BUSY. -/
def TOK_CAUSE : Fld := ⟨2, 0x068, 0, 1, 8, 4, .ro, 0, .any⟩
/-- R519: Open scopes. -/
def DBG_SCOPE : Fld := ⟨2, 0x06C, 0, 1, 0, 3, .ro, 0, .any⟩
/-- R519: Seconds left. -/
def DBG_REMAIN_S : Fld := ⟨2, 0x06C, 0, 1, 8, 24, .ro, 0, .any⟩
/-- R519: R508. -/
def ATT_SRC : Fld := ⟨2, 0x070, 0, 1, 0, 32, .rw, 0x48000000, .step 1207959552 1224736512 256⟩
/-- R519: R508. -/
def ATT_DST : Fld := ⟨2, 0x074, 0, 1, 0, 32, .rw, 0x48000000, .step 1207959552 1224736512 256⟩
/-- R519: R508. -/
def ATT_CMD : Fld := ⟨2, 0x078, 0, 1, 0, 1, .wo, 0, .num 0 1⟩
/-- R519: 0 OK, 1 RATE, 2 NO_INDEX, 3 BUSY. -/
def ATT_CAUSE : Fld := ⟨2, 0x078, 0, 1, 8, 3, .ro, 0, .any⟩
/-- R519: R516. -/
def FW_SRC : Fld := ⟨2, 0x080, 0, 1, 0, 32, .rw, 0x48000000, .step 1207959552 1224736512 256⟩
/-- R519: R516. -/
def FW_SIZE : Fld := ⟨2, 0x084, 0, 1, 0, 20, .rw, 0, .step 256 524288 256⟩
/-- R519: R516; ABORT before step 5 acts as a reset. -/
def FW_CMD : Fld := ⟨2, 0x088, 0, 1, 0, 2, .wo, 0, .enum [0, 1, 2, 3]⟩
/-- R519: R516. -/
def AUTO_SWITCH : Fld := ⟨2, 0x088, 0, 1, 8, 1, .rw, 0, .num 0 1⟩
/-- R519: 0 IDLE, 1 VERIFY_SRC, 2 BEGIN, 3 COPY, 4 VERIFY, 5 COMMIT, 6 SWITCH. -/
def FW_STATE : Fld := ⟨2, 0x08C, 0, 1, 0, 3, .ro, 0, .any⟩
/-- R519: Copy progress, 0 to 100. -/
def FW_PCT : Fld := ⟨2, 0x08C, 0, 1, 8, 7, .ro, 0, .any⟩
/-- R519: 0 A, 1 B. Reset: From MRAM; the model holds 0 (assumption 4). -/
def FW_ACTIVE : Fld := ⟨2, 0x08C, 0, 1, 16, 1, .ro, 0, .any⟩
/-- R519: VERSION of each slot. Reset: From MRAM; the model holds 0 (assumption 4). -/
def FW_VER_A : Fld := ⟨2, 0x090, 0, 1, 0, 32, .ro, 0, .any⟩
/-- R519: VERSION of each slot. Reset: From MRAM; the model holds 0 (assumption 4). -/
def FW_VER_B : Fld := ⟨2, 0x094, 0, 1, 0, 32, .ro, 0, .any⟩
/-- R519: R504, R516, R518; saturate. -/
def REJECTED : Fld := ⟨2, 0x098, 0, 1, 0, 16, .ro, 0, .any⟩
/-- R519: R504, R516, R518; saturate. -/
def REFUSED : Fld := ⟨2, 0x098, 0, 1, 16, 16, .ro, 0, .any⟩
/-- R519: Identity signatures; saturates. -/
def SIGNS : Fld := ⟨2, 0x09C, 0, 1, 0, 32, .ro, 0, .any⟩
/-- R519: 1 clears 0x098 and 0x09C. -/
def CTR_CLR : Fld := ⟨2, 0x0A0, 0, 1, 0, 1, .wo, 0, .num 0 1⟩

/-- The fields of the page. -/
def fields : List Fld :=
  [ ANCHOR_VALID, ANCHOR_REVOKED, POLICY, MIN_SVN, IDX_LO, IDX_HI, IDX_FLOOR, IDX_LOW_THR, INDEX_BATCH, TOK_NONCE_LO, TOK_NONCE_HI, TOK_ADDR, TOK_CMD, DBG_CLOSE, VFY_CAUSE, TOK_CAUSE, DBG_SCOPE, DBG_REMAIN_S, ATT_SRC, ATT_DST, ATT_CMD, ATT_CAUSE, FW_SRC, FW_SIZE ] ++
  [ FW_CMD, AUTO_SWITCH, FW_STATE, FW_PCT, FW_ACTIVE, FW_VER_A, FW_VER_B, REJECTED, REFUSED, SIGNS, CTR_CLR ]

end SEC

namespace PCR

/-- R547: R525, R526; reads 0. -/
def PWR_CMD : Fld := ⟨0, 0x040, 0, 1, 0, 2, .rwl, 0, .enum [0, 1, 2, 3]⟩
/-- R547: R527; reads 0. -/
def SYS_RST : Fld := ⟨0, 0x040, 0, 1, 8, 1, .rwl, 0, .num 0 1⟩
/-- R547: 0 RUN, 1 DOZE. -/
def PWR_STATE : Fld := ⟨0, 0x044, 0, 1, 0, 2, .ro, 0, .any⟩
/-- R547: Last reset. Reset: Per R527; the model holds 0 (assumption 4). -/
def RESET_CAUSE : Fld := ⟨0, 0x044, 0, 1, 4, 3, .ro, 0, .any⟩
/-- R547: 0 none, 1 ROLE, 2 ENABLED, 3 BUSY. -/
def REFUSE_CAUSE : Fld := ⟨0, 0x044, 0, 1, 8, 3, .ro, 0, .any⟩
/-- R547: Bit per island, R12 order: 1 running. -/
def ISLAND_ON : Fld := ⟨0, 0x048, 0, 1, 0, 9, .ro, 511, .any⟩
/-- R547: R536; saturates. -/
def PLL_LOSSES : Fld := ⟨0, 0x04C, 0, 1, 0, 16, .ro, 0, .any⟩
/-- R547: Rail r, R522 order, in mV. -/
def RAIL_MV : Fld := ⟨0, 0x050, 4, 6, 0, 16, .ro, 0, .any⟩
/-- R547: Sensor s, signed, 1/8 °C. -/
def TEMP : Fld := ⟨0, 0x070, 4, 4, 0, 16, .ro, 0, .any⟩
/-- R547: R523. -/
def TEMP_WARN : Fld := ⟨0, 0x080, 0, 1, 0, 8, .rw, 100, .num 60 125⟩

/-- The fields of the page. -/
def fields : List Fld :=
  [ PWR_CMD, SYS_RST, PWR_STATE, RESET_CAUSE, REFUSE_CAUSE, ISLAND_ON, PLL_LOSSES, RAIL_MV, TEMP, TEMP_WARN ]

end PCR

namespace KPR

/-- R548: 0 ROM, 1 BOOTING, 2 DONE, 3 RECOVERY. -/
def BOOT_STATE : Fld := ⟨1, 0x040, 0, 1, 0, 2, .ro, 0, .any⟩
/-- R548: R528. Reset: From MRAM; the model holds 0 (assumption 4). -/
def PWR_CYC : Fld := ⟨1, 0x044, 0, 1, 0, 24, .ro, 0, .any⟩
/-- R548: R528. Reset: From MRAM; the model holds 0 (assumption 4). -/
def OP_SEC_LO : Fld := ⟨1, 0x048, 0, 1, 0, 32, .ro, 0, .any⟩
/-- R548: R528. Reset: From MRAM; the model holds 0 (assumption 4). -/
def OP_SEC_HI : Fld := ⟨1, 0x04C, 0, 1, 0, 8, .ro, 0, .any⟩
/-- R548: R534, hours. Reset: From MRAM; the model holds 0 (assumption 4). -/
def LIFE_USED : Fld := ⟨1, 0x050, 0, 1, 0, 32, .ro, 0, .any⟩
/-- R548: R534. -/
def LIFE_WARN_PCT : Fld := ⟨1, 0x054, 0, 1, 0, 7, .rw, 90, .num 50 100⟩
/-- R548: R535. -/
def SCRUB_S : Fld := ⟨1, 0x058, 0, 1, 0, 17, .rw, 3600, .num 60 86400⟩
/-- R548: R539. -/
def CE_LIMIT : Fld := ⟨1, 0x05C, 0, 1, 0, 8, .rw, 8, .num 1 255⟩
/-- R548: R535; saturate. -/
def CE_TOTAL : Fld := ⟨1, 0x060, 0, 1, 0, 32, .ro, 0, .any⟩
/-- R548: R535; saturate. -/
def UE_TOTAL : Fld := ⟨1, 0x064, 0, 1, 0, 32, .ro, 0, .any⟩
/-- R548: Bank shown. -/
def BANK_SEL : Fld := ⟨1, 0x068, 0, 1, 0, 6, .rw, 0, .num 0 63⟩
/-- R548: Free spares of the bank. -/
def BANK_SPARES : Fld := ⟨1, 0x06C, 0, 1, 0, 5, .ro, 16, .any⟩
/-- R548: Groups retired under R541. -/
def BANK_BORROWED : Fld := ⟨1, 0x06C, 0, 1, 8, 8, .ro, 0, .any⟩
/-- R548: R543. Reset: From MRAM; the model holds 0 (assumption 4). -/
def ENG_RETIRED : Fld := ⟨1, 0x070, 0, 1, 0, 4, .ro, 0, .any⟩
/-- R548: R542. -/
def POISON_ADDR : Fld := ⟨1, 0x074, 0, 1, 0, 32, .ro, 0, .any⟩
/-- R548: R542, R537; saturate. -/
def POISON_COUNT : Fld := ⟨1, 0x078, 0, 1, 0, 16, .ro, 0, .any⟩
/-- R548: R542, R537; saturate. -/
def KPR_RESETS : Fld := ⟨1, 0x078, 0, 1, 16, 16, .ro, 0, .any⟩
/-- R548: 1 clears 0x060, 0x064 and 0x078. -/
def CTR_CLR : Fld := ⟨1, 0x07C, 0, 1, 0, 1, .wo, 0, .num 0 1⟩

/-- The fields of the page. -/
def fields : List Fld :=
  [ BOOT_STATE, PWR_CYC, OP_SEC_LO, OP_SEC_HI, LIFE_USED, LIFE_WARN_PCT, SCRUB_S, CE_LIMIT, CE_TOTAL, UE_TOTAL, BANK_SEL, BANK_SPARES, BANK_BORROWED, ENG_RETIRED, POISON_ADDR, POISON_COUNT, KPR_RESETS, CTR_CLR ]

end KPR

namespace PST

/-- R549: 0 ABSENT, 1 OK, 2 FAILED, 3 OUT, 4 RESYNC. Reset: Per probe; the model holds 0 (assumption 4). -/
def DEV0_STATE : Fld := ⟨3, 0x040, 0, 1, 0, 3, .ro, 0, .any⟩
/-- R549: 0 ABSENT, 1 OK, 2 FAILED, 3 OUT, 4 RESYNC. Reset: Per probe; the model holds 0 (assumption 4). -/
def DEV1_STATE : Fld := ⟨3, 0x040, 0, 1, 4, 3, .ro, 0, .any⟩
/-- R549: R533; reads 0. -/
def PST_CMD : Fld := ⟨3, 0x044, 0, 1, 0, 2, .rwl, 0, .enum [0, 1, 2]⟩
/-- R549: Device named. -/
def DEV : Fld := ⟨3, 0x044, 0, 1, 4, 1, .rwl, 0, .num 0 1⟩
/-- R549: Last chunk copied, R533. Reset: From MRAM; the model holds 0 (assumption 4). -/
def CHECKPOINT : Fld := ⟨3, 0x048, 0, 1, 0, 8, .ro, 0, .any⟩
/-- R549: 0 to 100. -/
def RESYNC_PCT : Fld := ⟨3, 0x048, 0, 1, 8, 7, .ro, 0, .any⟩
/-- R549: R531, R532; saturate. -/
def READ_FIX : Fld := ⟨3, 0x04C, 0, 1, 0, 16, .ro, 0, .any⟩
/-- R549: R531, R532; saturate. -/
def TIMEOUTS : Fld := ⟨3, 0x04C, 0, 1, 16, 16, .ro, 0, .any⟩
/-- R549: R533; saturates. -/
def REFUSED : Fld := ⟨3, 0x050, 0, 1, 0, 16, .ro, 0, .any⟩
/-- R549: 1 clears 0x04C and 0x050. -/
def CTR_CLR : Fld := ⟨3, 0x054, 0, 1, 0, 1, .wo, 0, .num 0 1⟩

/-- The fields of the page. -/
def fields : List Fld :=
  [ DEV0_STATE, DEV1_STATE, PST_CMD, DEV, CHECKPOINT, RESYNC_PCT, READ_FIX, TIMEOUTS, REFUSED, CTR_CLR ]

end PST

/-- The block fields of the page with code `c` and instance `inst` (R47; the common page of MPG is instance 24). -/
def pageFields (c inst : Nat) : List Fld :=
  match c with
  | 4 => IFX.fields
  | 16 => DSQ.fields
  | 17 => DSA.fields
  | 18 => CLE.fields
  | 19 => MFE.fields
  | 20 => ACT.fields
  | 21 => LGE.fields
  | 28 => GIO.fields
  | 22 => SXE.fields
  | 5 => EIC.fields
  | 6 => NWT.fields
  | 7 => HQE.fields
  | 8 => TMK.fields
  | 9 => RTC.fields
  | 24 => CFD.fields
  | 25 => SER.fields
  | 26 => ETH.fields
  | 27 => ESW.fields
  | 10 => REC.fields
  | 11 => DCH.fields
  | 2 => SEC.fields
  | 0 => PCR.fields
  | 1 => KPR.fields
  | 3 => PST.fields
  | 23 => if inst = 24 then MPC.fields else MPG.fields
  | _ => []

end Sys2Proof.Machine
end

