-- ==== Sys2Proof/Machine/Sparse.lean ====
section
/-! DEFINITION. Sparse tables: key and value pairs in one canonical form (keys strictly rising, no entry equal to what an unlisted key reads as). -/

namespace Sys2Proof.Machine

/-- The value at key `k`; an unlisted key reads as `d`. -/
def sget {α : Type} (d : α) : List (Nat × α) → Nat → α
  | [], _ => d
  | (j, v) :: m, k => if k = j then v else sget d m k

/-- Put `v` at key `k`, before the first larger key. -/
def sput {α : Type} : List (Nat × α) → Nat → α → List (Nat × α)
  | [], k, v => [(k, v)]
  | (j, w) :: m, k, v =>
    if k = j then (k, v) :: m else if k < j then (k, v) :: (j, w) :: m else (j, w) :: sput m k v

/-- Remove key `k`. -/
def sdel {α : Type} (m : List (Nat × α)) (k : Nat) : List (Nat × α) :=
  m.filter (fun p => !(p.1 == k))

/-- Write `v` at key `k`: writing what an unlisted key reads as removes the entry. -/
def sset {α : Type} [DecidableEq α] (d : α) (m : List (Nat × α)) (k : Nat) (v : α) : List (Nat × α) :=
  if v = d then sdel m k else sput m k v

/-- The canonical form: keys strictly rising and no entry equal to `d`. -/
def Sparse.wf {α : Type} [DecidableEq α] (d : α) (m : List (Nat × α)) : Bool :=
  decide (m.Pairwise (fun p q => p.1 < q.1)) && m.all (fun p => !(decide (p.2 = d)))

/-- A memory of bytes in canonical form: what an unlisted address reads as is 0 (assumption 5). -/
def Memory.wf (m : List (Nat × BitVec 8)) : Bool := Sparse.wf 0 m

/-- `n` entries read one after the other from key `k` on. -/
def sgets {α : Type} (d : α) (m : List (Nat × α)) (k n : Nat) : List α :=
  (List.range n).map (fun i => sget d m (k + i))

/-- Write a run of values from key `k` on. -/
def ssets {α : Type} [DecidableEq α] (d : α) (m : List (Nat × α)) (k : Nat) : List α → List (Nat × α)
  | [] => m
  | v :: vs => ssets d (sset d m k v) (k + 1) vs

/-- The bytes of a value, least significant first (R6). -/
def leBytes : Nat → Nat → List Nat
  | 0, _ => []
  | n + 1, v => v % 256 :: leBytes n (v / 256)

/-- The value of a run of bytes, least significant first (R6). -/
def leVal : List Nat → Nat
  | [] => 0
  | b :: bs => b + 256 * leVal bs

/-- A two's complement value of `w` bits (R5). -/
def sgn (w v : Nat) : Int :=
  if v % 2 ^ w < 2 ^ (w - 1) then (v % 2 ^ w : Nat) else ((v % 2 ^ w : Nat) : Int) - 2 ^ w

/-- The two's complement bits of `x` in `w` bits (R5). -/
def bits (w : Nat) (x : Int) : Nat := (x % (2 ^ w : Nat)).toNat

/-- Nearest bound of `lo` to `hi`. -/
def clampI (lo hi x : Int) : Int := if x < lo then lo else if hi < x then hi else x

/-- Bits `[lo + n - 1 : lo]` of `v`. -/
def bitsAt (v lo n : Nat) : Nat := v / 2 ^ lo % 2 ^ n

end Sys2Proof.Machine
end

