-- ==== Sys2Proof/Machine/Ops.lean ====
section
/-! DEFINITION. The shared operations: register fields, time, counters, events, page access. -/

namespace Sys2Proof.Machine

/-! ### Register fields -/

/-- The key of repetition `i` of field `f` on the page of instance `inst`. -/
def Fld.key (f : Fld) (inst i : Nat) : Nat := ((f.code * 32 + inst) * 4096 + (f.off + i * f.stride)) * 32 + f.lsb

/-- The value of a field; an unlisted field holds its reset value. -/
def State.r (s : State) (f : Fld) (inst : Nat := 0) (i : Nat := 0) : Nat :=
  (sget (BitVec.ofNat 32 f.rst) s.regs (f.key inst i)).toNat

/-- The value of a signed field. -/
def State.ri (s : State) (f : Fld) (inst : Nat := 0) (i : Nat := 0) : Int := sgn f.width (s.r f inst i)

/-- Put a value, cut to the field's width, into a field. -/
def State.w (s : State) (f : Fld) (v : Nat) (inst : Nat := 0) (i : Nat := 0) : State :=
  { s with regs := sset (BitVec.ofNat 32 f.rst) s.regs (f.key inst i) (BitVec.ofNat 32 (v % 2 ^ f.width)) }

/-- Put a signed value into a field. -/
def State.wi (s : State) (f : Fld) (v : Int) (inst : Nat := 0) (i : Nat := 0) : State :=
  s.w f (bits f.width v) inst i

/-- A one-bit field as a truth value. -/
def State.on (s : State) (f : Fld) (inst : Nat := 0) (i : Nat := 0) : Bool := s.r f inst i != 0

/-- Put a truth value into a one-bit field. -/
def State.wb (s : State) (f : Fld) (b : Bool) (inst : Nat := 0) (i : Nat := 0) : State :=
  s.w f b.toNat inst i

/-- Add to a counter that saturates at its width (R44). -/
def State.inc (s : State) (f : Fld) (inst : Nat := 0) (i : Nat := 0) (by_ : Nat := 1) : State :=
  s.w f (min (s.r f inst i + by_) (2 ^ f.width - 1)) inst i

/-- Return a field to its reset value. -/
def State.rstF (s : State) (f : Fld) (inst : Nat) : State :=
  { s with regs := (List.range f.n).foldl (fun m i => sdel m (f.key inst i)) s.regs }

/-! ### The common header (R51) -/

namespace HDR
/-- PG_CTRL.FREEZE. -/
def FREEZE : Fld := ⟨0, 0x008, 0, 1, 2, 1, .rw, 0, .any⟩
/-- PG_CTRL.ENABLE. -/
def ENABLE : Fld := ⟨0, 0x008, 0, 1, 0, 1, .rw, 0, .any⟩
/-- PG_STAT.PEND_REQ. -/
def PEND_REQ : Fld := ⟨0, 0x00C, 0, 1, 12, 4, .ro, 0, .any⟩
/-- PG_STAT.OWNER_PEND. -/
def OWNER_PEND : Fld := ⟨0, 0x00C, 0, 1, 11, 1, .ro, 0, .any⟩
/-- PG_STAT.FROZEN. -/
def FROZEN : Fld := ⟨0, 0x00C, 0, 1, 10, 1, .ro, 0, .any⟩
/-- PG_STAT.FAULT. -/
def FAULT : Fld := ⟨0, 0x00C, 0, 1, 2, 1, .ro, 0, .any⟩
/-- PG_STAT.BUSY. -/
def BUSY : Fld := ⟨0, 0x00C, 0, 1, 1, 1, .ro, 0, .any⟩
/-- PG_STAT.READY. -/
def READY : Fld := ⟨0, 0x00C, 0, 1, 0, 1, .ro, 0, .any⟩
/-- PG_EVT_RAW. -/
def EVT_RAW : Fld := ⟨0, 0x010, 0, 1, 0, 32, .ro, 0, .any⟩
/-- PG_EVT_EN. -/
def EVT_EN : Fld := ⟨0, 0x014, 0, 1, 0, 32, .rw, 0, .any⟩
/-- PG_EVT_PEND. -/
def EVT_PEND : Fld := ⟨0, 0x018, 0, 1, 0, 32, .w1c, 0, .any⟩
/-- PG_CLAMP.LAST_DATA. -/
def LAST_DATA : Fld := ⟨0, 0x01C, 0, 1, 31, 1, .ro, 0, .any⟩
/-- PG_CLAMP.LAST_BIT. -/
def LAST_BIT : Fld := ⟨0, 0x01C, 0, 1, 26, 5, .ro, 0, .any⟩
/-- PG_CLAMP.LAST_OFFSET. -/
def LAST_OFFSET : Fld := ⟨0, 0x01C, 0, 1, 16, 10, .ro, 0, .any⟩
/-- PG_CLAMP.COUNT. -/
def CLAMPS : Fld := ⟨0, 0x01C, 0, 1, 0, 16, .ro, 0, .any⟩
/-- PG_LOCK.OPEN, which PG_STAT.LOCK_OPEN copies. -/
def OPEN : Fld := ⟨0, 0x020, 0, 1, 16, 1, .ro, 0, .any⟩
/-- PG_OWNER.OWNER, which PG_STAT.OWNED_BY copies. -/
def OWNER : Fld := ⟨0, 0x024, 0, 1, 0, 4, .rw, 0, .any⟩
/-- PG_SEQ.COUNT. -/
def COUNT : Fld := ⟨0, 0x028, 0, 1, 0, 16, .ro, 0, .any⟩
/-- PG_ERRCNT.ACCESS_ERR. -/
def ACCESS_ERR : Fld := ⟨0, 0x02C, 0, 1, 24, 8, .ro, 0, .any⟩
/-- PG_ERRCNT.SEQ_MISS. -/
def SEQ_MISS : Fld := ⟨0, 0x02C, 0, 1, 16, 8, .ro, 0, .any⟩
/-- PG_ERRCNT.LOCK_VIOL. -/
def LOCK_VIOL : Fld := ⟨0, 0x02C, 0, 1, 8, 8, .ro, 0, .any⟩
/-- PG_ERRCNT.OWNER_VIOL. -/
def OWNER_VIOL : Fld := ⟨0, 0x02C, 0, 1, 0, 8, .ro, 0, .any⟩
end HDR

/-- A header field of a page. -/
def hdr (f : Fld) (pg : Page) : Fld := { f with code := pg.code }

/-- The value of a header field. -/
def State.h (s : State) (f : Fld) (pg : Page) : Nat := s.r (hdr f pg) pg.inst

/-- Put a value into a header field. -/
def State.hw (s : State) (f : Fld) (pg : Page) (v : Nat) : State := s.w (hdr f pg) v pg.inst

/-- Count in a header field. -/
def State.hinc (s : State) (f : Fld) (pg : Page) (by_ : Nat := 1) : State := s.inc (hdr f pg) pg.inst 0 by_

/-- PG_CTRL.ENABLE of a page. -/
def State.enabled (s : State) (code : Nat) (inst : Nat := 0) : Bool := s.h HDR.ENABLE ⟨code, inst⟩ != 0

/-- The number of instances of each block code (R47). -/
def instances (code : Nat) : Nat :=
  match code with
  | 7 => 2
  | 17 => 18
  | 18 => 4
  | 21 => 4
  | 23 => 25
  | 24 => 16
  | 25 => 8
  | 26 => 12
  | c => if c ≤ 11 ∨ c = 16 ∨ c = 19 ∨ c = 20 ∨ c = 22 ∨ c = 27 ∨ c = 28 then 1 else 0

/-- The pages of R47. -/
def pageExists (pg : Page) : Bool := decide (pg.inst < instances pg.code)

/-- The index of a page in `State.pages`. -/
def pageIdx (pg : Page) : Nat := 32 * pg.code + pg.inst

/-- What a page holds beside its register fields. -/
def State.px (s : State) (pg : Page) : PageX := sget {} s.pages (pageIdx pg)

/-- Replace what a page holds beside its register fields. -/
def State.setPx (s : State) (pg : Page) (x : PageX) : State := { s with pages := sset {} s.pages (pageIdx pg) x }

/-! ### Time -/

/-- Time passes until instant `t` of the time base; an instant that is past leaves the time as it stands. Compensated time and the operating time advance alike (R258, R528). -/
def State.tick (t : Nat) (s : State) : State :=
  { s with now := s.now + (t - s.now), ct := s.ct + (t - s.now), up := s.up + (t - s.now) }

/-- The time base stands at an instant S + PHASE + n × PERIOD, S being a whole multiple of the period (R376). -/
def State.onSeries (s : State) (periodUs phaseUs : Nat) : Bool := s.now % (1000 * periodUs) == 1000 * phaseUs

/-- The operating seconds (R460, R528). -/
def State.opSec (s : State) : Nat := s.opBase + (s.up - s.upBase) / 1000000000

/-- A time stamp in the host-record format (R362). -/
def stamp (ns : Nat) : Nat := ns % 1000000000 + 2 ^ 30 * (ns / 1000000000 % 2 ^ 34)

/-- The owner code of a requester (R54). -/
def ownerCode : Requester → Nat
  | .host p => 1 + p.val
  | .engine e => 4 + e.val
  | .keeper => 8

/-- Data returned to a requester. -/
def State.reply (s : State) (r : Requester) (v : Nat) : State :=
  { s with resp := sset 0 s.resp (ownerCode r) (BitVec.ofNat 32 v) }

/-- Take a free value: the counter names it and advances (assumption 6). -/
def State.fresh (s : State) : State := { s with freeTick := s.freeTick + 1 }

/-- The value of an AON field as the AON island holds it (R19). -/
def State.aon (s : State) (f : Fld) (i : Nat := 0) : Nat :=
  (sget (BitVec.ofNat 32 f.rst) s.aonRegs (f.key 0 i)).toNat

/-! ### Events (R52, R346) -/

/-- One row of a page event table: block code, event bit (32 + n for HO_EVT), the EIC source of instance 0 and its step per instance (none: no source), whether it goes to HQE and to REC, and whether REC takes it whatever PG_EVT_EN holds. -/
structure EvtRow where
  code : Nat
  bit : Nat
  eic : Option (Nat × Nat) := none
  hqe : Bool := true
  rcd : Bool := true
  always : Bool := false
  deriving DecidableEq, Repr

/-- Rows of consecutive bits that go to consecutive EIC sources. -/
def evtRun (code bit n src : Nat) (rcd : Bool := true) : List EvtRow :=
  (List.range n).map (fun i => { code := code, bit := bit + i, eic := some (src + i, 0), rcd := rcd })

/-- Rows of the named bits without an EIC source. -/
def evtPlain (code : Nat) (bs : List Nat) (rcd : Bool := true) : List EvtRow :=
  bs.map (fun b => { code := code, bit := b, rcd := rcd })

/-- Rows of the named bits on the sources `src + step * instance`. -/
def evtAt (code : Nat) (bs : List Nat) (src : Nat) (step : Nat := 0) (rcd : Bool := true) : List EvtRow :=
  bs.map (fun b => { code := code, bit := b, eic := some (src, step), rcd := rcd })

/-- The page events of every block, from the event table of its chapter (R110, R147, R148, R171, R217, R240, R242, R292, R295, R319, R345, R368, R369, R371, R396, R410, R429, R436, R453, R455, R476, R500, R520, R547 to R549, R566) and the source table of R348. -/
def evtRows : List EvtRow :=
  evtRun 0 0 3 3 ++ evtRun 1 0 3 0 ++
  evtRun 2 0 3 228 false ++ evtPlain 2 [3, 4] false ++
  evtRun 3 0 2 6 ++ evtPlain 3 [2] ++ evtAt 4 [0, 1] 8 ++ evtPlain 5 [0] ++ evtAt 6 [0] 252 ++
  evtAt 7 (List.range 12) 232 1 ++
  evtRun 8 0 4 16 ++ evtRun 8 4 4 20 false ++ evtRun 8 8 4 24 false ++ evtPlain 8 [12, 13, 14, 15, 16, 17] ++
  evtAt 9 [0] 28 ++ evtAt 9 [1, 2, 3] 29 ++ evtRun 9 4 4 248 ++ evtPlain 9 [8] ++
  evtRun 10 0 4 224 false ++
  evtRun 11 0 5 208 ++ evtAt 11 [5, 6] 213 ++ evtAt 11 [7] 214 ++ evtAt 11 [8] 215 ++ evtPlain 11 [9, 10] ++
  evtPlain 16 [0, 1, 3, 6, 9, 10, 13, 16] ++ evtAt 16 [2] 32 ++ evtRun 16 4 2 33 ++ evtRun 16 7 2 35 ++
  evtRun 16 11 2 37 ++ evtRun 16 14 2 39 ++ evtAt 16 [17] 41 ++
  evtRun 16 32 8 42 ++ evtPlain 16 [40] ++
  evtPlain 17 [0, 1, 2] ++
  evtAt 18 [0, 1, 2, 8] 64 2 ++ evtAt 18 [6, 7] 65 2 ++ evtPlain 18 [3, 4, 5, 9] ++
  evtAt 19 [0, 2] 72 ++ evtAt 19 [1] 73 ++ evtAt 19 [4] 74 ++ evtPlain 19 [3] ++
  evtRun 20 0 5 76 ++
  evtAt 21 [0, 1, 2, 3, 5] 92 1 ++ evtPlain 21 [4, 6, 7, 8, 10, 11] ++
  [{ code := 21, bit := 9, always := true }] ++
  evtAt 22 [0] 98 ++ evtAt 22 [1] 96 ++ evtAt 22 [2] 97 ++ evtAt 22 [4] 99 ++ evtPlain 22 [3, 5, 6, 7, 8] ++
  evtPlain 23 [0, 7] false ++ evtAt 23 [1, 2, 3, 4, 5] 176 1 ++ evtPlain 23 [6] ++
  evtAt 24 [0, 1] 129 2 false ++ evtAt 24 [2, 4, 5, 6, 7, 8] 128 2 ++ evtPlain 24 [3, 9] ++
  evtAt 25 [0] 160 2 false ++ evtAt 25 [1] 161 2 ++
  evtAt 26 [0] 100 1 ++ evtPlain 26 [1] false ++
  evtRun 27 0 3 112 ++
  evtRun 28 0 8 240

/-- The row of an event; the common page of MPG (instance 24) names hammer groups on sources 200 to 207 (R345), and the two header events of every page reach HQE and REC alone (R52). -/
def evtRow (code inst bit : Nat) : Option EvtRow :=
  if bit = 30 then some { code := code, bit := 30 }
  else if bit = 31 then some { code := code, bit := 31, always := true }
  else if code = 23 ∧ inst = 24 then
    if bit < 16 then some { code := 23, bit := bit, eic := some (200 + bit % 8, 0) } else none
  else evtRows.find? (fun x => x.code == code && x.bit == bit)

/-- The bits of PG_EVT_EN that a page defines: those of its chapter's event table and the two header events; the others are reserved, ignored and read zero (R7, R51, R64). -/
def evtMask (pg : Page) : Nat :=
  ((List.range 32).map (fun b => if (evtRow pg.code pg.inst b).isSome then 2 ^ b else 0)).sum

/-- The EIC source of an event of an instance. -/
def evtSource (code inst bit : Nat) : Option Nat :=
  match evtRow code inst bit with
  | some x => x.eic.map (fun p => p.1 + p.2 * inst)
  | none => none

/-- PG_EVT_PEND, or HO_EVT_PEND for bits from 32 on. -/
def State.evtPend (s : State) (code inst bit : Nat) : Bool :=
  if bit < 32 then (s.h HDR.EVT_PEND ⟨code, inst⟩).testBit bit else (s.r DSQ.HO_EVT_PEND inst).testBit (bit - 32)

/-- PG_EVT_EN, or HO_EVT_EN for bits from 32 on. -/
def State.evtEn (s : State) (code inst bit : Nat) : Bool :=
  if bit < 32 then (s.h HDR.EVT_EN ⟨code, inst⟩).testBit bit else (s.r DSQ.HO_EVT_EN inst).testBit (bit - 32)

/-- PG_EVT_RAW, or HO_EVT_RAW for bits from 32 on. -/
def State.evtRaw (s : State) (code inst bit : Nat) : Bool :=
  if bit < 32 then (s.h HDR.EVT_RAW ⟨code, inst⟩).testBit bit else (s.r DSQ.HO_EVT_RAW inst).testBit (bit - 32)

/-- `v` with bit `i` set or cleared. -/
def putBit (v i : Nat) (b : Bool) : Nat :=
  if v.testBit i then (if b then v else v - 2 ^ i) else (if b then v + 2 ^ i else v)

/-- Set or clear a pending bit. -/
def State.setEvtPend (s : State) (code inst bit : Nat) (b : Bool) : State :=
  if bit < 32 then s.hw HDR.EVT_PEND ⟨code, inst⟩ (putBit (s.h HDR.EVT_PEND ⟨code, inst⟩) bit b)
  else s.w DSQ.HO_EVT_PEND (putBit (s.r DSQ.HO_EVT_PEND inst) (bit - 32) b) inst

/-- Set or clear a raw bit. -/
def State.setEvtRaw (s : State) (code inst bit : Nat) (b : Bool) : State :=
  if bit < 32 then s.hw HDR.EVT_RAW ⟨code, inst⟩ (putBit (s.h HDR.EVT_RAW ⟨code, inst⟩) bit b)
  else s.w DSQ.HO_EVT_RAW (putBit (s.r DSQ.HO_EVT_RAW inst) (bit - 32) b) inst

/-- The pages whose events a source carries, with the event bits (R347, R348). -/
def sourceBits (src : Nat) : List (Nat × Nat × Nat) :=
  if 200 ≤ src ∧ src ≤ 207 then [(23, 24, src - 200), (23, 24, src - 192)]
  else evtRows.flatMap (fun x => match x.eic with
    | none => []
    | some (b, st) => ((List.range (if x.code = 23 then 24 else instances x.code)).filter (fun i => b + st * i == src)).map
        (fun i => (x.code, i, x.bit)))

/-- The level of a source that is not a pulse source: the OR of the pending bits mapped to it (R347). -/
def State.sourceLevel (s : State) (src : Nat) : Bool := (sourceBits src).any (fun p => s.evtPend p.1 p.2.1 p.2.2)

/-- The record of a host port. -/
def State.port (s : State) (p : Nat) : PortX := sget {} s.ports p

/-- Replace the record of a host port. -/
def State.setPort (s : State) (p : Nat) (x : PortX) : State := { s with ports := sset {} s.ports p x }

/-- Put an event message on its way to the queues of port `p`. -/
def State.offerTo (s : State) (p : Nat) (m : EvtMsg) : State :=
  s.setPort p { s.port p with offers := (s.port p).offers ++ [m] }

/-- Put an event message on its way to the queues of the host ports: those of the other port for the events of an HQE page (R360, R371). -/
def State.offerHosts (s : State) (m : EvtMsg) : State :=
  if m.code = 7 then s.offerTo (1 - m.inst) m else (s.offerTo 0 m).offerTo 1 m

/-- Put an event message on its way to REC. -/
def State.offerRec (s : State) (m : EvtMsg) : State := { s with rcd := { s.rcd with inQ := s.rcd.inQ ++ [m] } }

/-- Put the rise of a source's level on its way to EIC. -/
def State.offerEic (s : State) (src : Nat) : State := { s with toEic := s.toEic ++ [src] }

/-- The message of an event at this instant. -/
def State.evtMsg (s : State) (code inst bit : Nat) (pay extra : List Nat) : EvtMsg :=
  { code := code, inst := inst, bit := bit, eic := evtSource code inst bit, time := s.now,
    tset := s.tmk.tbSet, tmk := s.r TMK.STATE, pay := pay, extra := extra }

/-- An event is raised toward its destinations (R52, R346). REC takes an `always` event without regard to the enable bit (R52, R284). -/
def State.emit (s : State) (x : EvtRow) (inst : Nat) (enabled : Bool) (pay extra : List Nat) : State :=
  let m := s.evtMsg x.code inst x.bit pay extra
  let s := if x.hqe && enabled then s.offerHosts m else s
  if x.rcd && (enabled || x.always) then s.offerRec m else s

/-- A rising edge of the raw bit of an event (R52). -/
def State.raise (s : State) (code inst bit : Nat) (pay : List Nat := []) (extra : List Nat := []) : State :=
  match evtRow code inst bit with
  | none => s
  | some x =>
    if s.evtEn code inst bit && !s.evtPend code inst bit then
      let was := match evtSource code inst bit with
        | some src => s.sourceLevel src
        | none => true
      let s := (s.setEvtPend code inst bit true).emit x inst true pay extra
      match evtSource code inst bit with
      | some src => if was then s else s.offerEic src
      | none => s
    else if x.always then s.emit x inst false pay extra else s

/-- A raw bit that shows a condition takes a value; a rise raises the event (R52). -/
def State.setRaw (s : State) (code inst bit : Nat) (b : Bool) (pay : List Nat := []) (extra : List Nat := []) : State :=
  if b && !s.evtRaw code inst bit then (s.setEvtRaw code inst bit true).raise code inst bit pay extra
  else s.setEvtRaw code inst bit b

/-- A raw bit whose condition comes about once more falls and rises again: every occurrence is a rising edge (R52). -/
def State.recur (s : State) (code inst bit : Nat) (pay : List Nat := []) (extra : List Nat := []) : State :=
  (s.setEvtRaw code inst bit false).setRaw code inst bit true pay extra

/-! ### Clamp accounting (R66, R67) -/

/-- A clamped register field counts in PG_CLAMP. -/
def State.clampCount (s : State) (pg : Page) (off lsb : Nat) : State :=
  (((s.hinc HDR.CLAMPS pg).hw HDR.LAST_DATA pg 0).hw HDR.LAST_OFFSET pg (off / 4)).hw HDR.LAST_BIT pg lsb

/-- Clamped data items count in PG_CLAMP (R67). -/
def State.clampData (s : State) (pg : Page) (n : Nat := 1) : State :=
  if n = 0 then s
  else (((s.hinc HDR.CLAMPS pg n).hw HDR.LAST_DATA pg 1).hw HDR.LAST_OFFSET pg 0).hw HDR.LAST_BIT pg 0

/-! ### Page access (R18, R48, R55, R60 to R63) -/

/-- The island of a block's page (R11, R12); the NWT and RTC pages are served in the KEEP island (R19). -/
def islandOf (code : Nat) : Island :=
  match code with
  | 5 => .logic
  | 7 => .host
  | 8 => .time
  | 11 => .net
  | 16 => .solve
  | 17 => .solve
  | 18 => .loop
  | 19 => .field
  | 20 => .field
  | 21 => .logic
  | 22 => .net
  | 23 => .field
  | 24 => .field
  | 25 => .field
  | 26 => .net
  | 27 => .net
  | 28 => .field
  | _ => .keep

/-- The bit of an island in ISLAND_ON: the order of R12. -/
def islandBit : Island → Nat
  | .solve => 0
  | .loop => 1
  | .logic => 2
  | .net => 3
  | .time => 4
  | .host => 5
  | .keep => 6
  | .field => 7
  | .aon => 8

/-- An island runs when its clock is not gated and its PLL is in lock (R12, R13). -/
def State.islandOn (s : State) (i : Island) : Bool :=
  s.pwr.clk.getLsbD (islandBit i) && s.pwr.pll.getLsbD (islandBit i) && (i == .aon || !s.pwr.inReset)

/-- Whether requester `r` reaches a page: its island runs, and in RECOVERY hosts reach the KPR, SEC, PST and REC pages only (R530). -/
def State.reaches (s : State) (r : Requester) (pg : Page) : Bool :=
  s.islandOn (islandOf pg.code) &&
  (!s.pwr.recovery || r == .keeper || pg.code == 1 || pg.code == 2 || pg.code == 3 || pg.code == 10)

/-- The internal address of a page (R46). -/
def pageAddr (pg : Page) : Nat := 0x04000000 + pg.code * 2 ^ 20 + pg.inst * 2 ^ 12

/-- An access to a gated page or one in reset (R18, R566). -/
def State.gated (s : State) (pageA : Nat) : State :=
  ((s.inc IFX.GATED_ACCESS).w IFX.GATED_ADDR pageA).raise 4 0 0 (0 :: leBytes 4 pageA)

/-- An access to a reserved address (R21, R48, R566). -/
def State.unmapped (s : State) (addr : Nat) : State :=
  (s.inc IFX.UNMAPPED_ACCESS).raise 4 0 1 (1 :: leBytes 4 addr)

/-- A write of a page is open to its owner and the Keeper (R55). -/
def State.mayWrite (s : State) (r : Requester) (pg : Page) : Bool :=
  r == .keeper || s.h HDR.OWNER pg == ownerCode r

/-- The guard that a requester has armed on a page (R63). -/
def State.guardOf (s : State) (r : Requester) (pg : Page) : Option Nat :=
  ((s.px pg).guards.find? (fun g => g.1 == ownerCode r)).map (·.2)

/-- Disarm the guard of a requester. -/
def State.disarm (s : State) (r : Requester) (pg : Page) : State :=
  s.setPx pg { s.px pg with guards := (s.px pg).guards.filter (fun g => !(g.1 == ownerCode r)) }

/-- A block register is closed to writes while READY = 0 or a soft reset runs (R53). -/
def State.closed (s : State) (pg : Page) : Bool := s.h HDR.READY pg == 0 || (s.px pg).resetting

/-- A write other than the second key between two keys breaks the key sequence (R60). -/
def State.breakKeys (s : State) (pg : Page) : State :=
  if (s.px pg).lockStep then (s.setPx pg { s.px pg with lockStep := false }).hinc HDR.LOCK_VIOL pg else s

/-- An accepted write counts in PG_SEQ.COUNT (R62). -/
def State.countWrite (s : State) (pg : Page) : State := s.hw HDR.COUNT pg (s.h HDR.COUNT pg + 1)

/-- The checks that every page write passes, then the effect `f` of the accepted write. `block` marks a register of the block's own, `keys` a write of PG_LOCK, which does not break a key sequence when it is accepted. A write that reaches the page and is refused is a write to the page too, and breaks a key sequence (R60). -/
def State.pageWrite (s : State) (r : Requester) (pg : Page) (block : Bool) (f : State → State)
    (keys : Bool := false) : State :=
  if !pageExists pg then s.unmapped (pageAddr pg)
  else if !s.reaches r pg then s.gated (pageAddr pg)
  else if !s.mayWrite r pg then (s.breakKeys pg).hinc HDR.OWNER_VIOL pg
  else
    let g := s.guardOf r pg
    let s := if g.isSome then s.disarm r pg else s
    if block && s.closed pg then (s.breakKeys pg).hinc HDR.ACCESS_ERR pg
    else if g.isSome && g != some (s.h HDR.COUNT pg) then (s.breakKeys pg).hinc HDR.SEQ_MISS pg
    else
      let s := if keys then s else s.breakKeys pg
      f (s.countWrite pg)

/-- A read of a page: an unmapped or gated page answers 0 (R18, R48). -/
def State.pageRead (s : State) (r : Requester) (pg : Page) (f : State → State) : State :=
  if !pageExists pg then (s.unmapped (pageAddr pg)).reply r 0
  else if !s.reaches r pg then (s.gated (pageAddr pg)).reply r 0
  else f s

/-- The lock of a page is open (R61). -/
def State.lockOpen (s : State) (pg : Page) : Bool := s.h HDR.OPEN pg == 1

/-- A write to RWL fields of a page while the lock is closed counts once when it carries a value that differs from the current one (R61). -/
def State.lockViol (s : State) (pg : Page) (differs : Bool) : State :=
  if differs then s.hinc HDR.LOCK_VIOL pg else s

/-- Close the lock of a page (R61). -/
def State.closeLock (s : State) (pg : Page) : State := (s.hw HDR.OPEN pg 0).setPx pg { s.px pg with lockStep := false }

/-- A change of owner (R58). -/
def State.setOwner (s : State) (pg : Page) (o : Nat) : State :=
  if s.h HDR.OWNER pg = o then s
  else
    let s := ((s.hw HDR.OWNER pg o).closeLock pg)
    let s := s.setPx pg { s.px pg with guards := [] }
    ((s.hw HDR.OWNER_PEND pg 0).hw HDR.PEND_REQ pg 0).raise pg.code pg.inst 31

/-! ### Answers -/

/-- Fuses are blown and never restored: the fuses as they stand, with every bit that a command leaves blown (R501). -/
def burnOnly (old new : List Host.Cell) : List Host.Cell :=
  new.foldl (fun m c => sset 0 m c.1 (sget 0 m c.1 ||| c.2)) old

/-- What a command that leaves state `u` makes of `s`: the queue of waiting commands is left alone and no blown fuse is restored. -/
def State.keep (s u : State) : State := { u with pending := s.pending, fuses := burnOnly s.fuses u.fuses }

/-- The same for a command that may write any byte memory but the fuses. -/
def State.keepM (s u : State) : State := { u with pending := s.pending, fuses := s.fuses }

/-- The same for a command that may write the solver SRAM and no other byte memory. -/
def State.keepS (s u : State) : State := { u with pending := s.pending, general := s.general, fuses := s.fuses }

/-- The same for a command that touches no byte memory. -/
def State.keepK (s u : State) : State := { u with pending := s.pending, solver := s.solver, general := s.general, fuses := s.fuses }

/-- The next state of a command with the effect `f` that may blow fuses. -/
def State.answer (s : State) (f : State → State) : Host.Outcome State Fault Refusal := .next (s.keep (f s))

/-- The next state of a command with the effect `f` that may write any byte memory but the fuses. -/
def State.answerM (s : State) (f : State → State) : Host.Outcome State Fault Refusal := .next (s.keepM (f s))

/-- The next state of a command with the effect `f` that may write the solver SRAM and no other byte memory. -/
def State.answerS (s : State) (f : State → State) : Host.Outcome State Fault Refusal := .next (s.keepS (f s))

/-- The next state of a command with the effect `f` that touches no byte memory. -/
def State.answerK (s : State) (f : State → State) : Host.Outcome State Fault Refusal := .next (s.keepK (f s))

/-- A command that comes at instant `t`. -/
def State.cmd (s : State) (t : Nat) (f : State → State) : Host.Outcome State Fault Refusal :=
  s.answer (fun s => f (s.tick t))

/-- A command that comes at instant `t` and blows no fuse. -/
def State.cmdM (s : State) (t : Nat) (f : State → State) : Host.Outcome State Fault Refusal :=
  s.answerM (fun s => f (s.tick t))

/-- A command that comes at instant `t` and touches no byte memory. -/
def State.cmdK (s : State) (t : Nat) (f : State → State) : Host.Outcome State Fault Refusal :=
  s.answerK (fun s => f (s.tick t))

/-- A command that comes at instant `t` and may write the solver SRAM and no other byte memory. -/
def State.cmdS (s : State) (t : Nat) (f : State → State) : Host.Outcome State Fault Refusal :=
  s.answerS (fun s => f (s.tick t))

/-- An event inside island `i`: nothing happens there while the island is gated or held in reset (R12, R13, R536). -/
def State.inside (s : State) (i : Island) (f : State → State) : State := if s.islandOn i then f s else s

/-- A command of the block's own in island `i` that comes at instant `t` and touches no byte memory. -/
def State.runK (s : State) (i : Island) (t : Nat) (f : State → State) : Host.Outcome State Fault Refusal :=
  s.cmdK t fun s => s.inside i f

/-- The same for a command that may write the solver SRAM and no other byte memory. -/
def State.runS (s : State) (i : Island) (t : Nat) (f : State → State) : Host.Outcome State Fault Refusal :=
  s.cmdS t fun s => s.inside i f

/-- The same for a command that may write any byte memory but the fuses. -/
def State.runM (s : State) (i : Island) (t : Nat) (f : State → State) : Host.Outcome State Fault Refusal :=
  s.cmdM t fun s => s.inside i f

/-- Update a record kept in a table by number. -/
def smod {α : Type} [DecidableEq α] (d : α) (m : List (Nat × α)) (k : Nat) (f : α → α) : List (Nat × α) :=
  sset d m k (f (sget d m k))

/-- Update every record kept in a table. -/
def sall {α : Type} [DecidableEq α] (d : α) (m : List (Nat × α)) (f : α → α) : List (Nat × α) :=
  (m.map (fun p => (p.1, f p.2))).filter (fun p => p.2 ≠ d)

/-- Fold a change of the state over a range of numbers. -/
def State.forN (s : State) (n : Nat) (f : State → Nat → State) : State := (List.range n).foldl f s

/-- Choose by a condition, in the order effect then condition, for chains. -/
def State.when (s : State) (b : Bool) (f : State → State) : State := if b then f s else s

end Sys2Proof.Machine
end

