-- ==== Sys2Proof/Machine/Eth.lean ====
section
/-! DEFINITION. The Ethernet ports and the switch (R437 to R455). -/

namespace Sys2Proof.Machine

/-- Update the switch's record. -/
def State.setEsw (s : State) (f : EswX → EswX) : State := { s with esw := f s.esw }

/-! ### Forwarding table (R444 to R447) -/

/-- The entry of an address. -/
def fdbFind (tab : List Fdb) (mac fid : Nat) : Option Fdb := tab.find? (fun e => e.mac == mac && e.fid == fid)

/-- The table without an address. -/
def fdbDrop (tab : List Fdb) (mac fid : Nat) : List Fdb := tab.filter (fun e => !(e.mac == mac && e.fid == fid))

/-- The entry in a slot of a way. -/
def fdbAt (tab : List Fdb) (way slot : Nat) : Option Fdb := tab.find? (fun e => e.way == way && e.slot == slot)

/-- The entries of the overflow store. -/
def fdbOvf (tab : List Fdb) : Nat := (tab.filter (fun e => e.way == 4)).length

/-- The candidate slot of an address in a way. -/
def fdbSlot (key way mac fid : Nat) : Nat := (Config.fdbHash key way mac fid).toNat

/-- The first way whose candidate slot is empty. -/
def fdbEmptyWay (key : Nat) (tab : List Fdb) (e : Fdb) : Option Nat :=
  (List.range 4).find? (fun w => (fdbAt tab w (fdbSlot key w e.mac e.fid)).isNone)

/-- Place an entry: an empty candidate slot, else displacement for at most `fuel` moves, else the overflow store (R445). The slot from which an entry is displaced is a free choice (`free`), but a displaced entry goes to an alternative of the slot it held, in way `held`. -/
def fdbPlace (key free : Nat) : Nat → Nat → List Fdb → Fdb → Option (List Fdb)
  | fuel, held, tab, e =>
    match fdbEmptyWay key tab e with
    | some w => some (tab ++ [{ e with way := w, slot := fdbSlot key w e.mac e.fid }])
    | none =>
      match fuel with
      | 0 => if fdbOvf tab < 64 then some (tab ++ [{ e with way := 4, slot := 0 }]) else none
      | fuel + 1 =>
        let n := (Config.free 8 (free + fuel)).toNat
        let w := if held < 4 then (held + 1 + n % 3) % 4 else n % 4
        let slot := fdbSlot key w e.mac e.fid
        match fdbAt tab w slot with
        | some v => fdbPlace key free fuel w (fdbDrop tab v.mac v.fid ++ [{ e with way := w, slot := slot }]) v
        | none => none

/-- The registers of the table follow it; TABLE_FULL falls when OVF_USED is below 56 (R446). -/
def State.fdbSync (s : State) : State :=
  let ovf := fdbOvf s.esw.fdb
  let s := (s.w ESW.TABLE_USED (s.esw.fdb.length - ovf)).w ESW.OVF_USED ovf
  let s := if ovf < 56 then s.w ESW.TABLE_FULL 0 else s
  s.setRaw 27 0 0 (s.on ESW.TABLE_FULL) [0, 0] (leBytes 4 (s.r ESW.LEARN_REFUSED))

/-- Put a table in place. -/
def State.setFdb (s : State) (tab : List Fdb) : State := (s.setEsw (fun k => { k with fdb := tab })).fdbSync

/-- One insertion from the learning queue (R445, R446). -/
def State.learnInsert (s : State) : State :=
  match s.esw.learnQ with
  | [] => s
  | (mac, fid, port) :: q =>
    let s := s.setEsw (fun k => { k with learnQ := q })
    match fdbFind s.esw.fdb mac fid with
    | some _ => s
    | none =>
      if s.on ESW.TABLE_FULL then s.inc ESW.LEARN_REFUSED
      else
        let e : Fdb := { mac := mac, fid := fid, ports := 1#13 <<< port, static := false, seen := s.up }
        match fdbPlace s.esw.hashKey s.freeTick 32 4 s.esw.fdb e with
        | some tab => ({ s with freeTick := s.freeTick + 32 }).setFdb tab
        | none => (({ s with freeTick := s.freeTick + 32 }).inc ESW.LEARN_REFUSED).w ESW.TABLE_FULL 1 |>.fdbSync

/-- R445, R446: an insertion completes. -/
def execLearnInsert (t : Nat) (s : State) : Host.Outcome State Fault Refusal := s.runK .net t State.learnInsert

/-- R445: a learnt entry not seen for AGE_S is removed. -/
def execEntryAgeOut (t : Nat) (mac : BitVec 48) (fid : BitVec 12) (s : State) : Host.Outcome State Fault Refusal :=
  s.runK .net t fun s =>
    match fdbFind s.esw.fdb mac.toNat fid.toNat with
    | some e =>
      if !e.static ∧ e.seen + 1000000000 * s.r ESW.AGE_S ≤ s.up then s.setFdb (fdbDrop s.esw.fdb e.mac e.fid) else s
    | none => s

/-- The address that the entry window names (R454). -/
def State.eMac (s : State) : Nat := s.r ESW.E_MAC_LO + 2 ^ 32 * s.r ESW.E_MAC_HI

/-- The result registers of an entry command. -/
def State.eResult (s : State) (cause : Nat) (e : Option Fdb) : State :=
  let s := (s.w ESW.E_CAUSE cause).wb ESW.E_FOUND e.isSome
  (s.wb ESW.E_STATIC (e.any (·.static))).w ESW.E_PORTS_NOW ((e.map (fun e => e.ports.toNat)).getD 0)

/-- A learnt entry that a static add may evict: from a candidate slot, else from the overflow store (R447). -/
def fdbVictim (key : Nat) (tab : List Fdb) (e : Fdb) : Option Fdb :=
  match (List.range 4).filterMap (fun w => (fdbAt tab w (fdbSlot key w e.mac e.fid)).bind
      (fun v => if v.static then none else some v)) with
  | v :: _ => some v
  | [] => tab.find? (fun v => v.way == 4 && !v.static)

/-- R447: E_CMD = ADD. -/
def execFdbAdd (t : Nat) (r : Requester) (s : State) : Host.Outcome State Fault Refusal :=
  s.cmdK t fun s => s.pageWrite r ⟨27, 0⟩ true fun s =>
    let mac := s.eMac
    let fid := s.r ESW.E_FID
    let old := fdbFind s.esw.fdb mac fid
    let tab := fdbDrop s.esw.fdb mac fid
    let e : Fdb := { mac := mac, fid := fid, ports := BitVec.ofNat 13 (s.r ESW.E_PORTS), static := true, seen := s.up }
    if 4096 ≤ (tab.filter (·.static)).length then s.eResult 2 old
    else
      let s' : State := { s with freeTick := s.freeTick + 32 }
      match fdbPlace s.esw.hashKey s.freeTick 32 4 tab e with
      | some tab' => (s'.setFdb tab').eResult 0 (some e)
      | none =>
        match fdbVictim s.esw.hashKey tab e with
        | some v => (s'.setFdb (fdbDrop tab v.mac v.fid ++ [{ e with way := v.way, slot := v.slot }])).eResult 0 (some e)
        | none => s'.eResult 1 old

/-- R447: E_CMD = DELETE. -/
def execFdbDelete (t : Nat) (r : Requester) (s : State) : Host.Outcome State Fault Refusal :=
  s.cmdK t fun s => s.pageWrite r ⟨27, 0⟩ true fun s =>
    let e := fdbFind s.esw.fdb s.eMac (s.r ESW.E_FID)
    match e with
    | some x => if x.static then (s.setFdb (fdbDrop s.esw.fdb x.mac x.fid)).eResult 0 e else s.eResult 0 none
    | none => s.eResult 0 none

/-- R447: E_CMD = LOOKUP. -/
def execFdbLookup (t : Nat) (r : Requester) (s : State) : Host.Outcome State Fault Refusal :=
  s.cmdK t fun s => s.pageWrite r ⟨27, 0⟩ true fun s => s.eResult 0 (fdbFind s.esw.fdb s.eMac (s.r ESW.E_FID))

/-! ### Egress (R443) -/

/-- The bytes that a class of an egress port holds. -/
def State.classBytes (s : State) (port cls : Nat) : Nat :=
  ((s.esw.egress.filter (fun q => q.1 == port && q.2.1 == cls)).map (fun q => q.2.2.len)).sum

/-- A PTP frame (R442). -/
def isPtp (f : EthFrame) : Bool := f.etype == 0x88F7 || f.udpPtp

/-- The class of a frame on a port: PTP event frames 3, SXE frames their own, else by PCP_MAP of the egress port (R443). -/
def State.egressClass (s : State) (port pcp : Nat) (f : EthFrame) : Nat :=
  if isPtp f && f.ptpEvent then 3 else if f.etype = s.r SXE.ETHERTYPE then s.r ESW.SXE_CLASS
  else if port < 12 then bitsAt (s.r ETH.PCP_MAP port) (2 * pcp) 2 else 0

/-- A port takes and sends frames. -/
def State.portUp (s : State) (port : Nat) : Bool :=
  port == 12 || (s.enabled 26 port && s.r ETH.MODE port != 0 && s.on ETH.LINK_UP port)

/-- The next frame of an egress port: the highest class, oldest first. -/
def State.nextFrame (s : State) (port : Nat) : Option (Nat × Nat × EthFrame) :=
  [3, 2, 1, 0].findSome? (fun c => s.esw.egress.find? (fun q => q.1 == port && q.2.1 == c))

/-- The frame in transmission on an egress port. -/
def State.onWire (s : State) (port : Nat) : Option (Nat × Nat × EthFrame) :=
  s.esw.egress.find? (fun q => q.1 == port && q.2.1 + 1 == sget 0 s.esw.wire port)

/-- An idle egress port begins to send its next frame, which nothing then pre-empts (R443). -/
def State.startTx (s : State) (port : Nat) : State :=
  if s.portUp port && (s.onWire port).isNone then
    match s.nextFrame port with
    | some q => s.setEsw (fun k => { k with wire := sset 0 k.wire port (q.2.1 + 1) })
    | none => s
  else s

/-- The frame in transmission leaves an egress port, whole or cut. -/
def State.endTx (s : State) (port : Nat) (q : Nat × Nat × EthFrame) : State :=
  s.setEsw (fun k => { k with egress := k.egress.erase q, wire := sset 0 k.wire port 0 })

/-- A frame enters an egress queue, or is dropped when its class is full. -/
def State.enqueue (s : State) (port cls : Nat) (f : EthFrame) : State :=
  if s.classBytes port cls + f.len ≤ 65536 then
    (s.setEsw (fun k => { k with egress := k.egress ++ [(port, cls, f)] })).startTx port
  else if port < 12 then s.inc ETH.TX_DROPS port else s

/-- R443: a frame leaves an egress port, and the next begins. -/
def execEgressTx (t : Nat) (port : Fin 13) (s : State) : Host.Outcome State Fault Refusal :=
  s.runK .net t fun s =>
    let s := s.startTx port.val
    match s.onWire port.val with
    | none => s
    | some q =>
      if !s.portUp port.val then s
      else
        let s := s.endTx port.val q
        (if port.val < 12 then s.inc ETH.TX_FRAMES port.val else s).startTx port.val

/-- R453, R452: the link of a port changes; a frame in transmission is cut. -/
def execEthLinkChange (t : Nat) (port : Fin 12) (up : Bool) (speed : Fin 4) (s : State) : Host.Outcome State Fault Refusal :=
  s.runK .net t fun s =>
    let sp := if up then speed.val + 1 else 0
    if s.on ETH.LINK_UP port = up ∧ s.r ETH.SPEED port = sp then s
    else
      let s := match (if up then none else s.onWire port.val) with
        | some q => (s.endTx port.val q).inc ETH.TX_DROPS port
        | none => s
      (((s.wb ETH.LINK_UP up port).w ETH.SPEED sp port).raise 26 port 0 [up.toNat, sp]).startTx port.val

/-! ### Reception (R438, R441, R442, R445, R448 to R450) -/

/-- A multicast or broadcast address. -/
def isMulticast (mac : Nat) : Bool := mac.testBit 40

/-- Learning by a received frame: known addresses are refreshed or moved, others wait, the oldest being inserted and 16 behind it (R445, R446). -/
def State.learn (s : State) (port mac fid : Nat) : State :=
  if isMulticast mac then s
  else match fdbFind s.esw.fdb mac fid with
    | some e =>
      if e.static then s
      else
        let p : BitVec 13 := 1#13 <<< port
        let s := s.setEsw (fun k => { k with fdb := k.fdb.map (fun x =>
          if x.mac = mac ∧ x.fid = fid then { x with ports := p, seen := s.up } else x) })
        if e.ports ≠ p then s.inc ESW.MOVES else s
    | none =>
      if s.on ESW.TABLE_FULL then s.inc ESW.LEARN_REFUSED
      else if s.esw.learnQ.length < 17 then s.setEsw (fun k => { k with learnQ := k.learnQ ++ [(mac, fid, port)] })
      else s

/-- The tokens of an ingress port are refilled at FLOOD_RATE (R448). -/
def State.refill (s : State) (port : Nat) : State :=
  let at_ := sget 0 s.esw.refillAt port
  let n := (s.up - at_) * s.r ETH.FLOOD_RATE port / 1000000000
  let spent := sget 0 s.esw.tokens port
  let last := if n < spent then at_ + n * 1000000000 / s.r ETH.FLOOD_RATE port else s.up
  s.setEsw (fun k => { k with tokens := sset 0 k.tokens port (spent - n), refillAt := sset 0 k.refillAt port last })

/-- R448: the bucket of a port is refilled. -/
def execFloodRefill (t : Nat) (port : Fin 12) (s : State) : Host.Outcome State Fault Refusal :=
  s.runK .net t fun s => s.refill port.val

/-- A frame as an egress port sends it: untagged when its VID is the port's PVID, else tagged (R441). -/
def State.tagFor (s : State) (p pcp fid : Nat) (f : EthFrame) : EthFrame :=
  let tag := decide (12 ≤ p) || s.r ETH.PVID p != fid
  { f with vid := if tag then some fid else none, pcp := pcp,
           len := max 64 (f.len + 4 * tag.toNat - 4 * f.vid.isSome.toNat) }

/-- A frame goes to each port of a set but its ingress port. -/
def State.forward (s : State) (port pcp fid : Nat) (ports : BitVec 13) (f : EthFrame) : State :=
  s.forN 13 fun s p =>
    if ports.getLsbD p && p != port && s.portUp p then s.enqueue p (s.egressClass p pcp f) (s.tagFor p pcp fid f) else s

/-- A frame is flooded to a set of ports against a token of its ingress port; refill first (R448, R452). -/
def State.flood (s : State) (port pcp fid : Nat) (ports : BitVec 13) (f : EthFrame) : State :=
  let s := s.refill port
  let spent := sget 0 s.esw.tokens port
  if spent < s.r ETH.FLOOD_BURST port then
    (s.setEsw (fun k => { k with tokens := sset 0 k.tokens port (spent + 1) })).forward port pcp fid ports f
  else (s.inc ETH.FLOOD_DROPS port).raise 27 0 2 [port, 0] [port]

/-- The nodes of a pair whose forget time of 60 s runs (R450). -/
def State.liveNodes (s : State) (pair : Nat) : List (Nat × Nat × Nat) :=
  s.esw.nodes.filter (fun n => n.1 == pair && decide (s.up < n.2.2 + 60000000000))

/-- A node of a pair is heard; a table of 1,024 live nodes takes no further one (R450, assumption 152). Answers whether the table holds the node. -/
def State.noteNode (s : State) (pair src : Nat) : State × Bool :=
  let live := (s.liveNodes pair).filter (fun n => n.2.1 != src)
  if live.length < 1024 then
    (s.setEsw (fun k => { k with nodes := (k.nodes.filter (fun n => n.1 != pair)) ++ live ++ [(pair, src, s.up)] }), true)
  else (s, false)

/-- The copy of a frame on a redundancy pair: a second copy within 400 ms is a duplicate; a wrong LAN identifier raises RED_FAULT (R449, R450). Answers whether the frame is the first copy. -/
def State.redundancy (s : State) (port : Nat) (f : EthFrame) : State × Bool :=
  let pair := port / 2
  match f.redSeq with
  | none => (s, true)
  | some (seq, lanB) =>
    if s.r ESW.RED_MODE 0 pair = 0 then (s, true)
    else
      let onB := port % 2 == 1
      let s := if lanB != onB then (s.inc ESW.CNT_WRONG_LAN 0 pair).raise 27 0 1 [pair, 1] [1] else s
      let (s, held) := s.noteNode pair f.src
      if !held then (s, true) else
      let isIt (d : Dup) : Bool := d.pair == pair && d.src == f.src && d.seq == seq && decide (s.up < d.t + 400000000)
      match s.esw.dups.find? isIt with
      | some _ =>
        let s := s.setEsw (fun k => { k with dups := k.dups.map (fun d =>
          if isIt d then { d with lanA := d.lanA || !onB, lanB := d.lanB || onB } else d) })
        (s.inc ESW.CNT_DUP 0 pair, false)
      | none =>
        let d : Dup := { pair := pair, src := f.src, seq := seq, t := s.up, lanA := !onB, lanB := onB }
        (s.setEsw (fun k => { k with dups := k.dups ++ [d] }), true)

/-- The identifier and the PCP of a frame from a port (R441). -/
def State.frameTag (s : State) (port : Nat) (f : EthFrame) : Nat × Nat :=
  (f.vid.getD (s.r ETH.PVID port), if f.vid.isSome then f.pcp else s.r ETH.DEF_PCP port)

/-- The ports that a frame is forwarded to by the table, or flooded to; the second component says which (R441, R448). -/
def State.egressPorts (s : State) (f : EthFrame) (fid : Nat) : BitVec 13 × Bool :=
  match (if isMulticast f.dst then none else fdbFind s.esw.fdb f.dst fid) with
  | some e => (e.ports, false)
  | none => (0x1FFF, true)

/-- A good frame in the switch: in HSR mode a frame of the device's own is removed and ring traffic goes on to the other port of its pair; PTP and SXE frames go to their blocks, the rest is learnt and forwarded by the table or flooded (R442, R445, R448, R449). -/
def State.switchFrame (s : State) (port : Nat) (f : EthFrame) : State :=
  let (fid, pcp) := s.frameTag port f
  let hsr := s.r ESW.RED_MODE 0 (port / 2) == 2
  let ring := if port % 2 = 0 then port + 1 else port - 1
  if hsr && f.src == Config.ownMac.toNat then s
  else if isPtp f && (s.r TMK.PTP_PORTS).testBit port then s
  else
    let s := if hsr && s.portUp ring then s.enqueue ring (s.egressClass ring pcp f) f else s
    if f.etype == s.r SXE.ETHERTYPE && (s.r SXE.SXE_PORTS).testBit port then s
    else
      let s := s.learn port f.src fid
      let (ports, floods) := s.egressPorts f fid
      let ports := if hsr then ports &&& ~~~(1#13 <<< ring) else ports
      if floods then s.flood port pcp fid ports f else s.forward port pcp fid ports f

/-- Transmission of a frame has begun before its end is received: one of its egress ports is idle and not faster than its ingress port (R440). -/
def State.cutThrough (s : State) (port : Nat) (f : EthFrame) : Bool :=
  let ports := (s.egressPorts f (s.frameTag port f).1).1
  (List.range 12).any fun p =>
    ports.getLsbD p && p != port && s.portUp p && (s.nextFrame p).isNone && decide (s.r ETH.SPEED p ≤ s.r ETH.SPEED port)

/-- R438, R440: a frame arrives at a port. -/
def execEthFrameRx (t : Nat) (port : Fin 12) (f : EthFrame) (s : State) : Host.Outcome State Fault Refusal :=
  s.runK .net t fun s =>
    if !s.portUp port.val then s
    else
      let s := s.setEsw (fun k => { k with heard := sset 0 k.heard port.val s.up })
      if !f.fcsOk ∨ f.len < 64 ∨ s.r ETH.MAX_FRAME port < f.len ∨ f.pause then
        let s := (s.inc ETH.RX_ERRS port).raise 26 port 1 []
        if !f.fcsOk ∧ 64 ≤ f.len ∧ s.enabled 27 ∧ s.cutThrough port.val f then s.inc ESW.STOMPED else s
      else
        let s := s.inc ETH.RX_FRAMES port
        if !s.enabled 27 then s
        else
          let q := s.redundancy port.val f
          if q.2 then q.1.switchFrame port.val f else q.1

/-! ### Redundancy (R449, R450) -/

/-- The next send sequence number of a pair. -/
def State.redSend (s : State) (pair : Nat) (f : EthFrame) (cls : Nat → Nat) : State :=
  let n := sget 0 s.esw.sendSeq pair
  let s := s.setEsw (fun k => { k with sendSeq := sset 0 k.sendSeq pair ((n + 1) % 65536) })
  let s := s.enqueue (2 * pair) (cls (2 * pair)) { f with redSeq := some (n, false) }
  s.enqueue (2 * pair + 1) (cls (2 * pair + 1)) { f with redSeq := some (n, true) }

/-- R450: supervision frames every LIFE_MS. -/
def execPrpSupervisionTx (t : Nat) (pair : Fin 6) (s : State) : Host.Outcome State Fault Refusal :=
  s.runK .net t fun s =>
    if !s.enabled 27 ∨ s.r ESW.RED_MODE 0 pair = 0 ∨
        ((s.esw.lifeAt.lookup pair.val).any fun a => decide (s.up < a + 1000000 * s.r ESW.LIFE_MS 0 pair)) then s
    else
      let e : EthFrame := { dst := 0x01154E000100, src := Config.ownMac.toNat, etype := 0x88FB }
      (s.setEsw (fun k => { k with lifeAt := sput k.lifeAt pair.val s.up })).redSend pair.val e (fun p => s.egressClass p 0 e)

/-- R450: one port of a pair has received no frame for 3 × LIFE_MS. -/
def execRedLanSilent (t : Nat) (pair : Fin 6) (lanB : Bool) (s : State) : Host.Outcome State Fault Refusal :=
  s.runK .net t fun s =>
    let port := 2 * pair.val + lanB.toNat
    if s.enabled 27 ∧ s.r ESW.RED_MODE 0 pair ≠ 0 ∧ sget 0 s.esw.heard port + 3000000 * s.r ESW.LIFE_MS 0 pair ≤ s.up then
      s.raise 27 0 1 [pair.val, 0] [0]
    else s

/-- R450, R454: the entry forget time of 400 ms ends; a frame seen on one LAN alone is counted. -/
def execDupEntryForget (t : Nat) (pair : Fin 6) (src : BitVec 48) (seq : BitVec 16) (s : State) :
    Host.Outcome State Fault Refusal :=
  s.runK .net t fun s =>
    let isIt (d : Dup) : Bool := d.pair == pair.val && d.src == src.toNat && d.seq == seq.toNat &&
      decide (d.t + 400000000 ≤ s.up)
    match s.esw.dups.find? isIt with
    | none => s
    | some d =>
      let s := s.setEsw (fun k => { k with dups := k.dups.filter (fun d => !isIt d) })
      if d.lanA && !d.lanB then s.inc ESW.CNT_ONLY_A 0 pair
      else if d.lanB && !d.lanA then s.inc ESW.CNT_ONLY_B 0 pair
      else s

/-- R453: CTR_CLR clears RX_FRAMES, TX_FRAMES, RX_ERRS, TX_DROPS and FLOOD_DROPS. -/
def execEthCtrClr (t : Nat) (r : Requester) (port : Fin 12) (s : State) : Host.Outcome State Fault Refusal :=
  s.cmdK t fun s => s.pageWrite r ⟨26, port⟩ true fun s =>
    [ETH.RX_FRAMES, ETH.TX_FRAMES, ETH.RX_ERRS, ETH.TX_DROPS, ETH.FLOOD_DROPS].foldl (fun s f => s.rstF f port) s

end Sys2Proof.Machine
end

