-- ==== Sys2Proof/Machine/Hqe.lean ====
section
/-! DEFINITION. The Host Queue Engine and the host ports (R359 to R372). -/

namespace Sys2Proof.Machine

/-- The record of queue `q` of port `p`. -/
def State.queue (s : State) (p q : Nat) : QueueX := sget {} s.queues (8 * p + q)

/-- Replace the record of a queue. -/
def State.setQueue (s : State) (p q : Nat) (x : QueueX) : State := { s with queues := sset {} s.queues (8 * p + q) x }

/-- Buffered records of a queue. -/
def State.buffered (s : State) (p q : Nat) : Nat := ((s.port p).buf.filter (fun h => h.q == q)).length

/-- The slots of a ring. -/
def State.ringSize (s : State) (p q : Nat) : Nat := 2 ^ s.r HQE.SIZE_LOG2 p q

/-- The free slots of a ring; buffered records have theirs (R361). -/
def State.ringFree (s : State) (p q : Nat) : Nat :=
  s.ringSize p q - ((s.r HQE.PROD p q + 2 ^ 32 - s.r HQE.CONS p q) % 2 ^ 32 + s.buffered p q)

/-- Send an MSI-X message, or set its pending bit while the vector is masked (R366) or the page has ENABLE = 0, when no message is sent (R567, assumption 146). -/
def State.msix (s : State) (p vec : Nat) : State :=
  let x := s.port p
  if x.mask.getLsbD vec || !s.enabled 7 p then s.setPort p { x with pend := x.pend ||| (1#9 <<< vec) }
  else s.setPort p { x with sent := smod 0 x.sent vec (· + 1) }

/-- An event of an HQE page: vector 8 serves it (R366, R371). -/
def State.raiseHqe (s : State) (p bit : Nat) (pay : List Nat) : State :=
  let was := s.evtPend 7 p bit
  let s := s.raise 7 p bit pay
  if !was && s.evtPend 7 p bit then s.msix p 8 else s

/-- Drop `n` records of a queue, the last with sequence number `seq` (R364). -/
def State.dropRecords (s : State) (p q n seq : Nat) : State :=
  let x := s.queue p q
  let first := if s.r HQE.DROP_PEND p q = 0 then BitVec.ofNat 32 (seq + 2 ^ 32 + 1 - n) else x.firstDrop
  let s := s.setQueue p q { x with firstDrop := first, lastDrop := BitVec.ofNat 32 seq }
  let s := (s.inc HQE.DROPS p q n).inc HQE.DROP_PEND p q n
  s.raiseHqe p q (q :: leBytes 4 (s.r HQE.DROPS p q))

/-- Take the next sequence number of a queue (R363). -/
def State.nextSeq (s : State) (p q : Nat) : State := s.w HQE.SEQ (s.r HQE.SEQ p q + 1) p q

/-- `bs` cut or padded with zero bytes to `n`. -/
def padTo (n : Nat) (bs : List Nat) : List Nat := (bs ++ List.replicate n 0).take n

/-- The bytes of a host record (R362). -/
def hostRecord (m : EvtMsg) (seq : Nat) : List Nat :=
  [m.bit, m.code, m.inst % 32 + (if m.eic.isSome then 32 else 0), m.eic.getD 0] ++ leBytes 4 seq ++
  leBytes 8 (if m.tset then stamp m.time else 0) ++ padTo 16 m.pay

/-- The bytes of a drop record (R362, R364). -/
def State.dropRecord (s : State) (p q seq : Nat) : List Nat :=
  [0xFE, 7, p, 0] ++ leBytes 4 seq ++ leBytes 8 (if s.tmk.tbSet then stamp s.now else 0) ++
  leBytes 4 (s.r HQE.DROP_PEND p q) ++ leBytes 4 (s.queue p q).firstDrop.toNat ++
  leBytes 4 (s.queue p q).lastDrop.toNat ++ [0, 0, 0, 0]

/-- Put a record into the port's internal buffer. -/
def State.buffer (s : State) (p q : Nat) (bytes : List Nat) : State :=
  let x := s.port p
  s.setPort p { x with buf := x.buf ++ [{ q := q, words := bytes, t := s.up }] }

/-- The queue takes records: page enabled, queue enabled, link up, buffer not full (R364, R567). -/
def State.queueOpen (s : State) (p q : Nat) : Bool :=
  s.enabled 7 p && s.on HQE.Q_EN p q && s.on HQE.LINK_UP p && decide ((s.port p).buf.length < 64)

/-- A drop record that is owed is written once the ring has two free slots (R364). -/
def State.serveDrop (s : State) (p q : Nat) : State :=
  if s.r HQE.DROP_PEND p q ≠ 0 ∧ s.queueOpen p q ∧ 2 ≤ s.ringFree p q then
    let seq := s.r HQE.SEQ p q
    ((s.buffer p q (s.dropRecord p q seq)).nextSeq p q).w HQE.DROP_PEND 0 p q
  else s

/-- A record is offered to a queue (R363, R364). -/
def State.offerQueue (s : State) (p q : Nat) (m : EvtMsg) : State :=
  let s := s.serveDrop p q
  let seq := s.r HQE.SEQ p q
  let need := if s.r HQE.DROP_PEND p q ≠ 0 then 2 else 1
  let s := s.nextSeq p q
  if s.queueOpen p q && decide (need ≤ s.ringFree p q) && s.r HQE.DROP_PEND p q == 0 then
    s.buffer p q (hostRecord m seq)
  else s.dropRecords p q 1 seq

/-- R360, R364: the oldest event message on its way to the port is offered to the queue that ROUTE names for its block. -/
def execHqeRecordOffer (t : Nat) (p : Fin 2) (s : State) : Host.Outcome State Fault Refusal :=
  s.runK .host t fun s =>
    match (s.port p).offers with
    | [] => s
    | m :: ms =>
      let s := s.setPort p { s.port p with offers := ms }
      if s.on HQE.R_EN p m.code then s.offerQueue p (s.r HQE.QUEUE p m.code) m else s

/-- The address of Q_BASE. -/
def State.qBase (s : State) (p q : Nat) : Nat := 4096 * s.r HQE.Q_BASE_LO p q + 2 ^ 32 * s.r HQE.Q_BASE_HI p q

/-- The message of a queue goes out: nothing is left unsignalled. -/
def State.signal (s : State) (p q : Nat) : State :=
  (s.setQueue p q { s.queue p q with unsig := 0, oldest := none }).msix p q

/-- Write one buffered record to host memory and advance PROD (R361). -/
def State.writeRecord (s : State) (p : Nat) (h : HostRec) : State :=
  let prod := s.r HQE.PROD p h.q
  let a := s.qBase p h.q + 32 * (prod % s.ringSize p h.q)
  let x := s.port p
  (s.setPort p { x with ring := sset [] x.ring a h.words }).w HQE.PROD (prod + 1) p h.q

/-- The records of a burst: at most 16 of the queue of the oldest buffered record (R365). -/
def burst (buf : List HostRec) : List HostRec :=
  match buf with
  | [] => []
  | h :: _ => (buf.filter (fun x => x.q == h.q)).take 16

/-- R365, R366: one burst of records and the write of PROD that follows it, with the message it causes. -/
def execHqeWriteback (t : Nat) (p : Fin 2) (s : State) : Host.Outcome State Fault Refusal :=
  s.runK .host t fun s =>
    let b := burst (s.port p).buf
    match b with
    | [] => s
    | h :: _ =>
      if !s.on HQE.LINK_UP p || !s.enabled 7 p then s
      else
        let s := s.setPort p { s.port p with buf := b.foldl (fun l x => l.erase x) (s.port p).buf }
        let s := b.foldl (fun s x => s.writeRecord p x) s
        let x := s.queue p h.q
        let s := s.setQueue p h.q { x with wbProd := BitVec.ofNat 32 (s.r HQE.PROD p h.q), unsig := x.unsig + b.length,
                                           oldest := some (x.oldest.getD s.up) }
        let s := if s.r HQE.INT_US p h.q = 0 ∨ s.r HQE.INT_COUNT p h.q ≤ x.unsig + b.length then s.signal p h.q else s
        s.forN 8 (fun s q => s.serveDrop p q)

/-- R366: INT_US has passed since the write-back of the oldest record not yet signalled. -/
def execHqeIntTimer (t : Nat) (p : Fin 2) (q : Fin 8) (s : State) : Host.Outcome State Fault Refusal :=
  s.runK .host t fun s =>
    match (s.queue p q).oldest with
    | none => s
    | some t0 =>
      if s.enabled 7 p ∧ s.r HQE.INT_US p q ≠ 0 ∧ t0 + 1000 * s.r HQE.INT_US p q ≤ s.up then s.signal p q else s

/-- R366: a vector is unmasked, and a message that waits goes out. -/
def execMsixUnmask (t : Nat) (p : Fin 2) (vec : Fin 9) (s : State) : Host.Outcome State Fault Refusal :=
  s.runK .host t fun s =>
    let x := s.port p
    let s := s.setPort p { x with mask := x.mask &&& ~~~(1#9 <<< vec.val), pend := x.pend &&& ~~~(1#9 <<< vec.val) }
    if x.pend.getLsbD vec.val then s.msix p vec.val else s

/-- ENABLE of an HQE page rises: the messages that waited for it go out, and owed drop records follow (R364, R567). -/
def State.hqeEnable (s : State) (p : Nat) : State :=
  let x := s.port p
  let s := s.setPort p { x with pend := x.pend &&& x.mask }
  let s := s.forN 9 fun s v => if x.pend.getLsbD v && !x.mask.getLsbD v then s.msix p v else s
  s.forN 8 fun s q => s.serveDrop p q

/-- The value that a written CONS takes (R361). -/
def consTaken (prod v size : Nat) : Nat :=
  let b := (prod + 2 ^ 32 - v) % 2 ^ 32
  let a := (v + 2 ^ 32 - prod) % 2 ^ 32
  if b ≤ size then v else if 1 ≤ a ∧ a < 2 ^ 31 then prod else (prod + 2 ^ 32 - size) % 2 ^ 32

/-- R361: a write of CONS. -/
def execConsWrite (t : Nat) (r : Requester) (p : Fin 2) (q : Fin 8) (v : Word) (s : State) :
    Host.Outcome State Fault Refusal :=
  s.cmdK t fun s => s.pageWrite r ⟨7, p⟩ true fun s =>
    let c := consTaken (s.r HQE.PROD p q) v.toNat (s.ringSize p q)
    let s := s.w HQE.CONS c p q
    let s := s.when (c != v.toNat) (fun s => s.clampCount ⟨7, p⟩ (HQE.CONS.off + q * HQE.CONS.stride) 0)
    s.serveDrop p q

/-- The buffered records of a queue are dropped and counted (R367). -/
def State.dropBuffered (s : State) (p q : Nat) : State :=
  let x := s.port p
  let mine := x.buf.filter (fun h => h.q == q)
  let s := s.setPort p { x with buf := x.buf.filter (fun h => !(h.q == q)) }
  match mine.getLast? with
  | none => s
  | some h => s.dropRecords p q mine.length (leVal ((h.words.drop 4).take 4))

/-- Q_EN takes a value: a rise sets PROD and CONS to 0, a fall drops the buffered records (R367). -/
def State.setQEn (s : State) (p q : Nat) (on : Bool) : State :=
  let was := s.on HQE.Q_EN p q
  let s := s.wb HQE.Q_EN on p q
  if on && !was then ((s.w HQE.PROD 0 p q).w HQE.CONS 0 p q).serveDrop p q
  else if !on && was then s.dropBuffered p q
  else s

/-- R367: a write of Q_EN. -/
def execQEnWrite (t : Nat) (r : Requester) (p : Fin 2) (q : Fin 8) (on : Bool) (s : State) :
    Host.Outcome State Fault Refusal :=
  s.cmdK t fun s => s.pageWrite r ⟨7, p⟩ true (fun s => s.setQEn p q on)

/-- R370, R371: the PCI Express link of a port goes up or down. -/
def execPcieLinkChange (t : Nat) (p : Fin 2) (up : Bool) (speed width : Fin 8) (s : State) :
    Host.Outcome State Fault Refusal :=
  s.cmdK t fun s =>
    let was := s.on HQE.LINK_UP p
    let s := ((s.wb HQE.LINK_UP up p).w HQE.SPEED (if up then speed.val else 0) p).w HQE.WIDTH (if up then width.val else 0) p
    if was && !up then s.raiseHqe p 8 []
    else if !was && up then (s.raiseHqe p 9 []).forN 8 (fun s q => s.serveDrop p q)
    else s

/-- R32, R33, R371: the completion timeout of the port passes: the read is aborted, the error reported and counted. No command of the block begins such a read; where State holds one, its timeout must have passed (assumption 147). -/
def execCplTimeout (t : Nat) (p : Fin 2) (s : State) : Host.Outcome State Fault Refusal :=
  s.runK .host t fun s =>
    let x := s.port p
    let early : Bool := match x.hostRead with
      | some t0 => decide (s.up < t0 + 1000 * x.cplUs)
      | none => false
    if early then s
    else (s.setPort p { x with hostRead := none, cplCount := x.cplCount + 1, cplError := true }).raiseHqe p 10 []

/-- R372: a Function Level Reset: Q_EN falls, buffered records are dropped and counted, and the page returns to reset but for SEQ, DROPS and ROUTE. -/
def execFlr (t : Nat) (p : Fin 2) (s : State) : Host.Outcome State Fault Refusal :=
  s.runK .host t fun s =>
    let pg : Page := ⟨7, p⟩
    let s := s.forN 8 (fun s q => s.setQEn p q false)
    let keep : List Fld := [HQE.SEQ, HQE.DROPS, HQE.QUEUE, HQE.R_EN, HQE.LINK_UP, HQE.SPEED, HQE.WIDTH]
    let s := (HQE.fields.filter (fun f => !keep.contains f)).foldl (fun s f => s.rstF f p) s
    let s := s.forN 8 (fun s q => s.setQueue p q {})
    let s := s.setPort p { s.port p with mask := 0x1FF, pend := 0, table := [], cplUs := 50000, hostRead := none, cplError := false }
    let s := (((s.hw HDR.ENABLE pg 0).hw HDR.FREEZE pg 0).hw HDR.FROZEN pg 0).hw HDR.EVT_PEND pg 0
    let s := (s.closeLock pg).setPx pg { (s.closeLock pg).px pg with shadow := [], staged := [], latched := [] }
    s.raiseHqe p 11 []

end Sys2Proof.Machine
end

