-- ==== Sys2Proof/Machine/Can.lean ====
section
/-! DEFINITION. The CAN FD channels (R411 to R429). -/

namespace Sys2Proof.Machine

/-- The record of a CAN channel. -/
def State.canX (s : State) (ch : Nat) : CanX := sget {} s.can ch

/-- Replace the record of a CAN channel. -/
def State.setCan (s : State) (ch : Nat) (x : CanX) : State := { s with can := sset {} s.can ch x }

/-- The unit is the standby of a Gecko pair (R486). -/
def State.isStandby (s : State) : Bool := s.r DCH.ROLE == 1 || s.r DCH.ROLE == 2

/-- The timestamp counter of a channel (R421). -/
def State.canTs (s : State) (ch : Nat) : Nat := s.ct / 2 ^ s.r CFD.TS_SHIFT ch % 2 ^ 32

/-- The counter's value `back` ns ago, at the edge of a start of frame (R421). -/
def State.sofTs (s : State) (ch back : Nat) : Word := BitVec.ofNat 32 ((s.ct - back) / 2 ^ s.r CFD.TS_SHIFT ch)

/-- `n` nominal bits in ns: FIELD cycles of 5 ns (R413). -/
def State.nomNs (s : State) (ch n : Nat) : Nat := n * (s.r CFD.NBRP ch * (1 + s.r CFD.NTSEG1 ch + s.r CFD.NTSEG2 ch)) * 5

/-- The sample points of a nominal bit and of a data-phase bit, in FIELD cycles from the start of the bit (R413). -/
def State.samplePoint (s : State) (ch : Nat) : Nat × Nat :=
  (s.r CFD.NBRP ch * (1 + s.r CFD.NTSEG1 ch), s.r CFD.DBRP ch * (1 + s.r CFD.DTSEG1 ch))

/-- The point at which a transmitted data-phase bit is checked, in FIELD cycles from its start on CAN_TX: the secondary sample point with TDC_EN = 1 (R414). Bit levels are judged at these points by the command's sender (assumption 150). -/
def State.checkPoint (s : State) (ch : Nat) : Nat :=
  if s.on CFD.TDC_EN ch then s.r CFD.TDC_VAL ch + s.r CFD.TDCO ch else (s.samplePoint ch).2

/-- Payload bytes of a channel's events; `b` is the buffer concerned, or 0xFF (R429). -/
def State.canPay (s : State) (ch b : Nat) : List Nat :=
  leBytes 2 (s.r CFD.TEC ch) ++ [s.r CFD.REC ch, s.r CFD.ERR_STATE ch, b]

/-- Raise an event of a channel. -/
def State.raiseCan (s : State) (ch bit b : Nat) (extra : List Nat := []) : State :=
  s.raise 24 ch bit (s.canPay ch b) extra

/-- A condition of a channel shows in its raw bit. -/
def State.canLevel (s : State) (ch bit : Nat) (v : Bool) : State := s.setRaw 24 ch bit v (s.canPay ch 0xFF)

/-- The channel is in BUS_OFF or recovering (R423). -/
def State.busOff (s : State) (ch : Nat) : Bool := 2 ≤ s.r CFD.ERR_STATE ch

/-- The channel takes part in bus traffic: enabled, out of INIT, integrated, not bus-off. -/
def State.onBus (s : State) (ch : Nat) : Bool :=
  s.enabled 24 ch && s.r CFD.MODE ch != 0 && !(s.canX ch).integrating && !s.busOff ch

/-- The channel may send: NORMAL, but for the standby of a pair (R426), or LOOPBACK. -/
def State.canSends (s : State) (ch : Nat) : Bool :=
  s.onBus ch && ((s.r CFD.MODE ch == 1 && !s.isStandby) || s.r CFD.MODE ch == 3)

/-- Error states follow the counters (R422, R423): BUS_OFF with TEC above 255, PASSIVE with a counter above 127. -/
def State.canStates (s : State) (ch : Nat) : State :=
  let tec := s.r CFD.TEC ch
  let rec_ := s.r CFD.REC ch
  let s := s.wb CFD.ERR_WARN (96 ≤ tec || 96 ≤ rec_) ch
  let s := if s.busOff ch then s
    else s.w CFD.ERR_STATE (if 255 < tec then 2 else if 127 < tec ∨ 127 < rec_ then 1 else 0) ch
  let s := (s.canLevel ch 3 (s.on CFD.ERR_WARN ch)).canLevel ch 4 (s.r CFD.ERR_STATE ch == 1)
  s.canLevel ch 5 (s.r CFD.ERR_STATE ch == 2)

/-- TEC and REC take values, and the error states follow. -/
def State.canCount (s : State) (ch tec rec_ : Nat) : State :=
  ((s.w CFD.TEC (min tec 511) ch).w CFD.REC (min rec_ 255) ch).canStates ch

/-- ACK_RUN takes a value; NO_PEER holds from 16 until it is 0 again (R425). -/
def State.setAckRun (s : State) (ch n : Nat) : State :=
  let s := s.w CFD.ACK_RUN (min n 31) ch
  if 16 ≤ n then s.canLevel ch 7 true else if n = 0 then s.canLevel ch 7 false else s

/-- R413, R423: a write of the word that holds MODE. Options are open in INIT only; leaving INIT needs legal bit times. -/
def execCanModeWrite (t : Nat) (r : Requester) (ch : Fin 16) (v : Word) (s : State) : Host.Outcome State Fault Refusal :=
  s.cmdK t fun s => s.pageWrite r ⟨24, ch⟩ true fun s =>
    let m := bitsAt v.toNat 0 2
    let refuse (s : State) (c : Nat) : State := (s.w CFD.REFUSE_CAUSE c ch).inc CFD.REFUSED ch
    let ts := min 10 (bitsAt v.toNat 8 4)
    let opts := bitsAt v.toNat 2 3
    let same := s.r CFD.ONE_SHOT ch = opts % 2 ∧ s.r CFD.NOPEER_ABORT ch = opts / 2 % 2 ∧
      s.r CFD.TDC_EN ch = opts / 4 ∧ s.r CFD.TS_SHIFT ch = bitsAt v.toNat 8 4
    let s1 := if s.r CFD.MODE ch = 0 then
        let s := (((s.w CFD.ONE_SHOT opts ch).w CFD.NOPEER_ABORT (opts / 2) ch).w CFD.TDC_EN (opts / 4) ch).w CFD.TS_SHIFT ts ch
        s.when (ts != bitsAt v.toNat 8 4) (fun s => s.clampCount ⟨24, ch⟩ 0x040 8)
      else if same then s else refuse s 3
    if s.busOff ch then refuse s1 4
    else if m = s.r CFD.MODE ch then s1
    else if s.r CFD.MODE ch = 0 then
      let nom := s.r CFD.NBRP ch * (1 + s.r CFD.NTSEG1 ch + s.r CFD.NTSEG2 ch)
      let dat := s.r CFD.DBRP ch * (1 + s.r CFD.DTSEG1 ch + s.r CFD.DTSEG2 ch)
      if nom < 200 ∨ dat < 25 ∨ nom < dat then refuse s1 1
      else if !s.enabled 24 ch then s1
      else
        let x := s1.canX ch
        let s := (s1.w CFD.MODE m ch).setCan ch { x with integrating := !x.owed, waitAt := s.up }
        if x.owed then s.w CFD.ERR_STATE 3 ch else s
    else
      let x := s1.canX ch
      let s := match x.sending with
        | some b => s1.w CFD.TX_STATE 1 ch b
        | none => s1
      (s.w CFD.MODE m ch).setCan ch { x with sending := none, integrating := m != 0, cancels := 0, waitAt := s.up }

/-- R413: 11 recessive bits complete the integration, not before they can have passed. -/
def execCanIntegrated (t : Nat) (ch : Fin 16) (s : State) : Host.Outcome State Fault Refusal :=
  s.runK .field t fun s =>
    if s.up < (s.canX ch).waitAt + s.nomNs ch 11 then s else s.setCan ch { s.canX ch with integrating := false }

/-- R415: a write of TX_REQ makes buffers PENDING; a new request resets ID_RUN (R424). -/
def execTxReq (t : Nat) (r : Requester) (ch : Fin 16) (m : BitVec 3) (s : State) : Host.Outcome State Fault Refusal :=
  s.cmdK t fun s => s.pageWrite r ⟨24, ch⟩ true fun s =>
    s.forN 3 fun s b =>
      let st := s.r CFD.TX_STATE ch b
      if m.getLsbD b ∧ st ≠ 1 ∧ st ≠ 2 then ((s.w CFD.TX_STATE 1 ch b).w CFD.ID_RUN 0 ch b).w CFD.ATTEMPTS 0 ch b else s

/-- R418: a write of CANCEL. -/
def execCancel (t : Nat) (r : Requester) (ch : Fin 16) (m : BitVec 3) (s : State) : Host.Outcome State Fault Refusal :=
  s.cmdK t fun s => s.pageWrite r ⟨24, ch⟩ true fun s =>
    s.forN 3 fun s b =>
      if !m.getLsbD b then s
      else if s.r CFD.TX_STATE ch b = 1 then s.w CFD.TX_STATE 4 ch b
      else if s.r CFD.TX_STATE ch b = 2 then
        let x := s.canX ch
        s.setCan ch { x with cancels := x.cancels ||| (1#3 <<< b) }
      else s

/-- The arbitration bits of a buffer's frame, as a number: the smaller wins (R416). A base frame has RTR and a dominant IDE after its identifier, an extended one two recessive bits. -/
def State.arbKey (s : State) (ch b : Nat) : Nat :=
  let id := s.r CFD.ID ch b
  let rtr := if s.r CFD.FDF ch b = 1 then 0 else s.r CFD.RTR ch b
  if s.r CFD.IDE ch b = 1 then (id / 2 ^ 18 % 2 ^ 11 * 4 + 3) * 2 ^ 19 + (id % 2 ^ 18) * 2 + rtr
  else (id % 2 ^ 11 * 4 + rtr * 2) * 2 ^ 19

/-- The buffer that a selection takes (R416). -/
def State.arbWinner (s : State) (ch : Nat) : Option Nat :=
  ((List.range 3).filter (fun b => s.r CFD.TX_STATE ch b == 1)).foldl
    (fun w b => match w with
      | none => some b
      | some c => if s.arbKey ch b < s.arbKey ch c then some b else some c) none

/-- R416: the selection point. -/
def execCanSelection (t : Nat) (ch : Fin 16) (s : State) : Host.Outcome State Fault Refusal :=
  s.runK .field t fun s =>
    if s.canSends ch && (s.canX ch).sending.isNone then
      match s.arbWinner ch with
      | none => s
      | some b =>
        let s := (s.w CFD.TX_STATE 2 ch b).inc CFD.ATTEMPTS ch b
        s.setCan ch { s.canX ch with sending := some b }
    else s

/-- The data bytes of a DLC code (R415). -/
def dlcBytes (fd : Bool) (dlc : Nat) : Nat :=
  if dlc ≤ 8 then dlc
  else if !fd then 8
  else match dlc with
    | 9 => 12
    | 10 => 16
    | 11 => 20
    | 12 => 24
    | 13 => 32
    | 14 => 48
    | _ => 64

/-- The DATA words of a transmit buffer. -/
def canData : List Fld :=
  [CFD.DATA0, CFD.DATA1, CFD.DATA2, CFD.DATA3, CFD.DATA4, CFD.DATA5, CFD.DATA6, CFD.DATA7, CFD.DATA8, CFD.DATA9,
    CFD.DATA10, CFD.DATA11, CFD.DATA12, CFD.DATA13, CFD.DATA14, CFD.DATA15]

/-- The frame of a transmit buffer. -/
def State.txFrame (s : State) (ch b : Nat) : CanFrame :=
  let fd := s.on CFD.FDF ch b
  { ident := s.r CFD.ID ch b, ide := s.on CFD.IDE ch b, rtr := s.on CFD.RTR ch b, dlc := s.r CFD.DLC ch b, fdf := fd,
    brs := s.on CFD.BRS ch b, esi := s.r CFD.ERR_STATE ch == 1,
    data := ((canData.flatMap (fun f => leBytes 4 (s.r f ch b))).take
      (if s.on CFD.RTR ch b then 0 else dlcBytes fd (s.r CFD.DLC ch b))) }

/-- The accepting filter of a frame: 0 with no filter enabled, else the lowest that matches (R419). -/
def State.canFilter (s : State) (ch : Nat) (f : CanFrame) : Option Nat :=
  let en := (List.range 16).filter (fun i => s.on CFD.F_EN ch i)
  if en.isEmpty then some 0
  else en.find? (fun i => s.on CFD.F_IDE ch i == f.ide &&
    ((f.ident ^^^ s.r CFD.F_ID ch i) &&& s.r CFD.F_MASK ch i) % (if f.ide then 2 ^ 29 else 2 ^ 11) == 0)

/-- A frame that has been received is filtered and queued; a full queue loses it (R419, R420). -/
def State.canAccept (s : State) (ch : Nat) (f : CanFrame) (ts : Word) : State :=
  match s.canFilter ch f with
  | none => s
  | some i =>
    let x := s.canX ch
    if x.rxq.length < 32 then
      let s := s.setCan ch { x with rxq := x.rxq ++ [{ frame := f, filter := i, ts := ts }] }
      (s.w CFD.RX_FILL (x.rxq.length + 1) ch).canLevel ch 0 true
    else
      let s := s.inc CFD.RX_LOST ch
      s.raiseCan ch 8 0xFF (leBytes 2 (s.r CFD.RX_LOST ch))

/-- How a failed attempt leaves its buffer (R417, R418, R425): a cancel mark first, then NOPEER_ABORT, then ONE_SHOT. -/
def State.attemptFailed (s : State) (ch b : Nat) (ack : Bool) : State :=
  let x := s.canX ch
  if x.cancels.getLsbD b then s.w CFD.TX_STATE 4 ch b
  else if ack && s.on CFD.NOPEER_ABORT ch && decide (16 ≤ s.r CFD.ACK_RUN ch) then
    (s.w CFD.TX_STATE 5 ch b).raiseCan ch 2 b
  else if s.on CFD.ONE_SHOT ch then (s.w CFD.TX_STATE 6 ch b).raiseCan ch 2 b
  else s.w CFD.TX_STATE 1 ch b

/-- An attempt ends in an error detected as transmitter: TEC rises by 8 where ISO 11898-1 lets it, an error frame is sent and counted (R422). -/
def State.txError (s : State) (ch : Nat) (raises : Bool) : State :=
  let s := s.inc CFD.TX_ERRS ch
  if raises then s.canCount ch (s.r CFD.TEC ch + 8) (s.r CFD.REC ch) else s

/-- The delay measured in an FD frame with TDC_EN = 1 shows in TDC_VAL; one that 7 bits do not hold shows as a free value (R414, assumption 6). -/
def State.measureTdc (s : State) (ch b : Nat) (delay : Option Nat) : State :=
  if s.on CFD.TDC_EN ch && s.on CFD.FDF ch b then
    match delay with
    | none => s
    | some d => if d ≤ 127 then s.w CFD.TDC_VAL d ch else (s.w CFD.TDC_VAL (Config.free 7 s.freeTick).toNat ch).fresh
  else s

/-- How the attempt counts: a measured delay above 127 cycles is a bit error in the data phase (R414). -/
def State.attemptRes (s : State) (ch b : Nat) (res : CanTxResult) (delay : Option Nat) : CanTxResult :=
  if s.on CFD.TDC_EN ch && s.on CFD.FDF ch b && decide (127 < delay.getD 0) then .otherError else res

/-- The effect of the end of the attempt of buffer `b`; its start of frame showed on CAN_RX `back` ns ago (R417, R418, R421, R422, R424, R425). -/
def State.attemptEnd (s : State) (ch b : Nat) (res : CanTxResult) (back : Nat) : State :=
  match res with
  | .success =>
    let s := s.setCan ch { s.canX ch with sofTs := s.sofTs ch back }
    let s := (s.w CFD.ID_RUN 0 ch b).setAckRun ch 0
    let s := s.canCount ch (s.r CFD.TEC ch - 1) (s.r CFD.REC ch)
    let s := ((s.w CFD.TX_STATE 3 ch b).w CFD.TX_TS (s.canX ch).sofTs.toNat ch b).raiseCan ch 1 b
    if s.r CFD.MODE ch = 3 then s.canAccept ch (s.txFrame ch b) (s.canX ch).sofTs else s
  | .lostArbitration =>
    (s.w CFD.ID_RUN 0 ch b).w CFD.TX_STATE (if (s.canX ch).cancels.getLsbD b then 4 else 1) ch b
  | .dataBitError =>
    let n := s.r CFD.ID_RUN ch b + 1
    let s := (s.w CFD.ID_RUN (min n 15) ch b).txError ch true
    let s := if n = 4 then s.raiseCan ch 6 b (leBytes 4 (s.r CFD.ID ch b)) else s
    s.attemptFailed ch b false
  | .ackError dominant =>
    let exempt := s.r CFD.ERR_STATE ch == 1 && !dominant
    let s := (s.w CFD.ID_RUN 0 ch b).setAckRun ch (s.r CFD.ACK_RUN ch + 1)
    (s.txError ch (!exempt)).attemptFailed ch b true
  | .otherError => ((s.w CFD.ID_RUN 0 ch b).txError ch true).attemptFailed ch b false
  | .exemptError => ((s.w CFD.ID_RUN 0 ch b).txError ch false).attemptFailed ch b false

/-- R414, R417: the running attempt of a channel ends. -/
def execCanTxAttemptEnd (t : Nat) (ch : Fin 16) (a : CanAttempt) (s : State) : Host.Outcome State Fault Refusal :=
  s.runK .field t fun s =>
    match (s.canX ch).sending with
    | none => s
    | some b =>
      let s := (s.measureTdc ch b a.delay).attemptEnd ch b (s.attemptRes ch b a.res a.delay) a.back
      let x := s.canX ch
      s.setCan ch { x with sending := none, cancels := x.cancels &&& ~~~(1#3 <<< b) }

/-- A valid frame lowers REC by 1; above 127 ISO 11898-1 leaves a value from 119 to 127 open, which is a free value (R422, assumption 6). -/
def State.rxDown (s : State) (ch : Nat) : State :=
  let n := s.r CFD.REC ch
  if 127 < n then (s.canCount ch (s.r CFD.TEC ch) (119 + (Config.free 32 s.freeTick).toNat % 9)).fresh
  else s.canCount ch (s.r CFD.TEC ch) (n - 1)

/-- R419 to R421: a frame from the bus. -/
def execCanFrameRx (t : Nat) (ch : Fin 16) (f : CanHeard) (s : State) : Host.Outcome State Fault Refusal :=
  s.runK .field t fun s =>
    if s.onBus ch ∧ s.r CFD.MODE ch ≠ 3 then
      let s := (s.setAckRun ch 0).rxDown ch
      s.canAccept ch f.frame (s.sofTs ch f.back)
    else s

/-- R422: an error detected as receiver raises REC; in LISTEN no error frame is sent. -/
def execCanRxError (t : Nat) (ch : Fin 16) (kind : CanErr) (s : State) : Host.Outcome State Fault Refusal :=
  s.runK .field t fun s =>
    if s.onBus ch ∧ s.r CFD.MODE ch = 1 ∧ !s.isStandby then
      let n := match kind with
        | .error => 1
        | .dominantAfterFlag => 8
      (s.inc CFD.RX_ERRS ch).canCount ch (s.r CFD.TEC ch) (s.r CFD.REC ch + n)
    else s

/-- R420: RX_ACK frees the head entry. -/
def execRxAck (t : Nat) (r : Requester) (ch : Fin 16) (s : State) : Host.Outcome State Fault Refusal :=
  s.cmdK t fun s => s.pageWrite r ⟨24, ch⟩ true fun s =>
    let x := s.canX ch
    let q := x.rxq.drop 1
    ((s.setCan ch { x with rxq := q }).w CFD.RX_FILL q.length ch).canLevel ch 0 (!q.isEmpty)

/-- R423: RECOVER. -/
def execRecover (t : Nat) (r : Requester) (ch : Fin 16) (s : State) : Host.Outcome State Fault Refusal :=
  s.cmdK t fun s => s.pageWrite r ⟨24, ch⟩ true fun s =>
    if s.r CFD.ERR_STATE ch = 2 then
      ((s.setCan ch { s.canX ch with waitAt := s.up }).w CFD.ERR_STATE 3 ch).canLevel ch 5 false
    else (s.w CFD.REFUSE_CAUSE 4 ch).inc CFD.REFUSED ch

/-- R423: 128 sequences of 11 recessive bits complete the recovery, after 1,408 nominal bits at least. -/
def execRecovered (t : Nat) (ch : Fin 16) (s : State) : Host.Outcome State Fault Refusal :=
  s.runK .field t fun s =>
    if s.r CFD.ERR_STATE ch = 3 ∧ (s.canX ch).waitAt + s.nomNs ch 1408 ≤ s.up then
      let s := (s.w CFD.ERR_STATE 0 ch).canCount ch 0 0
      (s.setCan ch { s.canX ch with owed := false, integrating := false }).raiseCan ch 9 0xFF
    else s

/-- R428: CTR_CLR clears RX_LOST, TX_ERRS and RX_ERRS. -/
def execCfdCtrClr (t : Nat) (r : Requester) (ch : Fin 16) (s : State) : Host.Outcome State Fault Refusal :=
  s.cmdK t fun s => s.pageWrite r ⟨24, ch⟩ true fun s =>
    ((s.rstF CFD.RX_LOST ch).rstF CFD.TX_ERRS ch).rstF CFD.RX_ERRS ch

end Sys2Proof.Machine
end

