-- ==== Sys2Proof/Machine/Flags.lean ====
section
/-! DEFINITION. Rounding, saturation and the flags they set (R116 to R118, R183, R255). -/

namespace Sys2Proof.Machine

/-- Saturation to a two's complement format of `w` bits. -/
def sat (w : Nat) (x : Int) : Int := clampI (-(2 ^ (w - 1))) (2 ^ (w - 1) - 1) x

/-- Whether a value lies outside a two's complement format of `w` bits. -/
def overflows (w : Nat) (x : Int) : Bool := decide (sat w x ≠ x)

/-- An arithmetic shift right by `d` after the addition of half, which rounds to nearest with ties toward +∞ (R117, R183). -/
def roundShift (x : Int) (d : Nat) : Int := if d = 0 then x else (x + 2 ^ (d - 1)) / 2 ^ d

/-- on_grid of R183: the value a × 2^ea on the grid 2^g, in 72 bits. -/
def onGrid (a ea g : Int) : Int :=
  if g ≤ ea then sat 72 (a * 2 ^ (ea - g).toNat) else roundShift a (g - ea).toNat

/-- The quotient rounded to nearest with ties toward +∞ (R118), for a positive or negative divisor other than 0. -/
def divRound (n d : Int) : Int :=
  if d < 0 then (2 * -n + -d) / (2 * -d) else (2 * n + d) / (2 * d)

end Sys2Proof.Machine
end

