-- ==== Sys2Proof/Machine/Mpg.lean ====
section
/-! DEFINITION. Valve and damper motion (R320 to R345). Speeds are held in 2^-16 steps/s and positions in 2^-32 steps (R328). -/

namespace Sys2Proof.Machine

/-- An axis beside its registers. -/
def State.axis (s : State) (a : Nat) : AxisX := sget {} s.axes a

/-- Replace an axis. -/
def State.setAxis (s : State) (a : Nat) (x : AxisX) : State := { s with axes := sset {} s.axes a x }

/-- Payload bytes 16 to 25 of an axis event (R345). -/
def State.axisPay (s : State) (a cause : Nat) : List Nat :=
  [a, cause] ++ leBytes 4 (s.r MPG.POSITION a) ++ leBytes 4 (s.r MPG.TGT_NOW a)

/-- An axis runs: its page and the common page are enabled (R320). -/
def State.axisOn (s : State) (a : Nat) : Bool := s.enabled 23 a && s.enabled 23 24

/-! ### Hammer guard (R340, R341) -/

/-- A published pair of values is in use: present, not bad, and no older than LIVE_TMO_MS (R340). -/
def State.liveValid (s : State) (g : Nat) : Bool :=
  let x := sget {} s.groups g
  match x.pubAt with
  | none => false
  | some t => !x.pvBad && decide (s.up < t + 1000000 * s.r MPC.LIVE_TMO_MS 24 g)

/-- TABLE_RATE (R158, R340): the table as the latest plan instant left it, and the safe rates while there has been none. -/
def State.tableRate (s : State) (g : Nat) : Int :=
  match s.ho.rates[g]? with
  | some w => clampI 0 0x7FFFFFFF (sgn 32 w.toNat)
  | none => s.r MPC.SAFE_RATE 24 g

/-- LIVE_RATE (R340); a quotient is rounded down (assumption 21). -/
def State.liveRate (s : State) (g : Nat) : Int :=
  let x := sget {} s.groups g
  match s.r MPC.LIVE_MODE 24 g with
  | 0 => 0x7FFFFFFF
  | m =>
    if !s.liveValid g then s.r MPC.SAFE_RATE 24 g
    else if m = 1 then
      let lo := s.ri MPC.P_LO 24 g
      let hi := s.ri MPC.P_HI 24 g
      let d : Int := s.r MPC.DEFAULT_RATE 24 g
      if hi ≤ lo then d else clampI 0 d (d * (hi - x.pv) / (hi - lo))
    else clampI 0 0x7FFFFFFF x.out

/-- EFF_RATE (R340). -/
def State.effRate (s : State) (g : Nat) : Int := min (s.tableRate g) (s.liveRate g)

/-- The events of a group follow its rates (R340, R341, R345). -/
def State.groupEvents (s : State) (g : Nat) : State :=
  let s := s.setRaw 23 24 g (s.r MPC.LIVE_MODE 24 g != 0 && !s.liveValid g) [g, 0]
  s.setRaw 23 24 (8 + g) (s.effRate g == 0) [g, 0]

/-- The publishing loop of a group publishes its PV and OUT (R202, R340). -/
def State.publish (s : State) (g loop : Nat) (pv out : Int) (bad : Bool) : State :=
  let s := { s with groups := sset {} s.groups g { pv := pv, out := out, pubAt := some s.up, pvBad := bad } }
  (s.w MPC.LIVE_LOOP loop 24 g).groupEvents g

/-- No loop publishes to a group any more: its live values are not in use (R340). -/
def State.unpublish (s : State) (g : Nat) : State :=
  let x : GroupX := sget {} s.groups g
  if x.pubAt.isNone then s
  else ({ s with groups := sset {} s.groups g { x with pubAt := none } }).groupEvents g

/-- R340: the publishing loop has published nothing for LIVE_TMO_MS. -/
def execLiveLost (t : Nat) (grp : Fin 8) (s : State) : Host.Outcome State Fault Refusal :=
  s.runK .field t fun s => s.groupEvents grp

/-- The closing cap of an axis, in 2^-16 steps/s (R341). -/
def State.closingCap (s : State) (a : Nat) : Int :=
  (s.effRate (s.r MPG.HG_GROUP a) * s.r MPG.STROKE a + 2 ^ 15) / 2 ^ 16 * 2 ^ 16

/-- A motion in direction `dir` closes a guarded axis (R340). -/
def State.closes (s : State) (a : Nat) (dir : Int) : Bool :=
  s.on MPG.HG_EN a && (if s.r MPG.CLOSE_DIR a = 0 then dir == 1 else dir == -1)

/-! ### The profile (R327, R328) -/

/-- A speed register in 2^-16 steps/s, within the ceiling of the step rate (R321). -/
def State.speed (s : State) (f : Fld) (a : Nat) : Int := (s.r f a : Int) * 256

/-- The ceiling of the step rate in UQ24.8 steps/s (R321). -/
def stepCeiling (stepHigh : Nat) : Nat := min 1024000000 (256 * 1000000000 / (10 * stepHigh))

/-- The braking distance B(v) in 2^-32 steps (R328). -/
def State.braking (s : State) (a : Nat) (v : Int) : Int :=
  let stop := s.speed MPG.V_STOP a
  let mid := s.speed MPG.V_MID a
  let m := max mid stop
  let hi : Int := max 1 (s.r MPG.DEC_HI a)
  let lo : Int := max 1 (s.r MPG.DEC_LO a)
  let part := fun (v1 v2 r : Int) => if v2 < v1 then (v1 * v1 - v2 * v2) * 128 / r else 0
  part v m hi + part (min v mid) stop lo

/-- The top speed of a motion in direction `dir` (R327, R341). -/
def State.topSpeed (s : State) (a : Nat) (dir : Int) : Int :=
  let v := s.speed MPG.V_MAX a
  if s.closes a dir then min v (s.closingCap a) else v

/-- A change of speed over one µs at a rate in UQ24.8 steps/s², with the remainder carried. -/
def speedStep (rate frac : Nat) : Int × Nat := (((rate * 256 + frac) / 1000000 : Nat), (rate * 256 + frac) % 1000000)

/-- The travel of one µs at speed `v`, in 2^-32 steps, with the remainder carried. -/
def travelStep (v : Int) (frac : Nat) : Int × Nat :=
  (((v.toNat * 65536 + frac) / 1000000 : Nat), (v.toNat * 65536 + frac) % 1000000)

/-- The acceleration at speed `v` (R327). -/
def State.accRate (s : State) (a : Nat) (v : Int) : Nat := if v < s.speed MPG.V_MID a then s.r MPG.ACC_LO a else s.r MPG.ACC_HI a

/-- The deceleration at speed `v` (R327). -/
def State.decRate (s : State) (a : Nat) (v : Int) : Nat :=
  if max (s.speed MPG.V_MID a) (s.speed MPG.V_STOP a) < v then s.r MPG.DEC_HI a else s.r MPG.DEC_LO a

/-- The registers that show an axis; POSITION counts the steps issued in the direction of motion (R323). -/
def State.showAxis (s : State) (a : Nat) (dir : Int) : State :=
  let x := s.axis a
  let p := if dir < 0 then -((-x.pos) / 2 ^ 32) else x.pos / 2 ^ 32
  (s.wi MPG.POSITION p a).wi MPG.VELOCITY (x.vel / 256) a

/-- MSTATE (R343). -/
def State.mstate (s : State) (a m : Nat) : State := s.w MPG.MSTATE (if (s.axis a).homing ≠ 0 then 4 else m) a

/-- The axis stands at its POSITION (R333, R335): TARGET follows standstill where STOP or ESTOP asks for it, and a homing that waited begins. -/
def State.standstill (s : State) (a : Nat) (m : Nat) : State :=
  let x := s.axis a
  let p := s.ri MPG.POSITION a
  let s := s.setAxis a { x with vel := 0, vFrac := 0, pFrac := 0, pos := p * 2 ^ 32, moving := false, stopping := false, stopHard := false,
                                tgtOrg := false, decWritten := false, slowing := false, turning := false, homeWait := false,
                                homeStart := if x.homeWait then p else x.homeStart }
  let s := if x.tgtOrg then (s.wi MPG.TARGET p a).wi MPG.TGT_NOW p a else s
  (((s.w MPG.VELOCITY 0 a).w MPG.DEC_RAISED 0 a).wb MPG.AT_TARGET (s.r MPG.TGT_NOW a == s.r MPG.POSITION a) a).mstate a m

/-- The axis has reached its target (R326, R328). -/
def State.arrive (s : State) (a : Nat) : State :=
  let s := s.wi MPG.POSITION (s.ri MPG.TGT_NOW a) a
  let s := s.standstill a 0
  let s := (s.setAxis a { s.axis a with pendTgt := false }).w MPG.HG_LIMITED 0 a
  ((s.setEvtRaw 23 a 7 false).inc MPG.MOVES a).raise 23 a 0 (s.axisPay a 0)

/-- HG_LIMITED: the cap lowers the top speed of a closing move (R341, R345). -/
def State.hgLimited (s : State) (a : Nat) (b : Bool) : State :=
  let s := s.wb MPG.HG_LIMITED b a
  s.setRaw 23 a 7 b (s.axisPay a 0)

/-- A target is refused with its cause (R338). -/
def State.refuseTarget (s : State) (a : Nat) : State :=
  let c := if s.on MPG.PHASE_LOST a then 1 else 2
  let s := ((s.w MPG.REFUSE_CAUSE c a).inc MPG.REFUSED a).setAxis a { s.axis a with pendTgt := true, refused := true }
  (s.w MPG.AT_TARGET 0 a).raise 23 a 6 (s.axisPay a c) [c]

/-- A move may start (R338). -/
def State.mayMove (s : State) (a : Nat) : Bool :=
  !s.on MPG.PHASE_LOST a && (!s.on MPG.REQUIRE_HOME a || (s.axis a).homedOnce)

/-- A limit is active, or its release not accepted, in direction `dir` (R334). -/
def AxisX.limit (x : AxisX) (dir : Int) : Bool := if 0 < dir then x.limP else x.limN

/-- The axis moves for one µs at speed `v` in direction `dir`. -/
def State.travel (s : State) (a : Nat) (dir v : Int) (vFrac m : Nat) : State :=
  let x := s.axis a
  let d := travelStep v x.pFrac
  let was := s.ri MPG.POSITION a
  let s := s.setAxis a { x with vel := dir * v, vFrac := vFrac, pos := x.pos + dir * d.1, pFrac := d.2, moving := true, dirPos := 0 < dir }
  let s := s.showAxis a dir
  let s := s.setAxis a { s.axis a with steps := x.steps + (s.ri MPG.POSITION a - was).natAbs }
  s.mstate a m

/-- A standing axis starts toward its target (R326, R327, R334, R341). -/
def State.tryStart (s : State) (a : Nat) : State :=
  let x := s.axis a
  let tgt := s.ri MPG.TGT_NOW a * 2 ^ 32
  if !x.pendTgt ∨ s.on MPG.HELD a ∨ s.on MPG.DRV_LOST a then s
  else if !s.mayMove a then (if x.refused then s else s.refuseTarget a)
  else if tgt = x.pos then (if s.on MPG.AT_TARGET a then s.setAxis a { x with pendTgt := false } else s.arrive a)
  else
    let dir : Int := if x.pos < tgt then 1 else -1
    let top := s.topSpeed a dir
    if x.limit dir then s
    else if top ≤ 0 then s.hgLimited a true
    else ((s.w MPG.AT_TARGET 0 a).w MPG.DEC_RAISED 0 a).travel a dir (min top (max 1 (s.speed MPG.V_START a))) 0 1

/-- The deceleration used toward a target (R332): raised where the written one would need more than the remaining distance. -/
def State.decUsed (s : State) (a : Nat) (v rem : Int) : Nat × Bool :=
  let r := s.decRate a v
  let stop := s.speed MPG.V_STOP a
  if (s.axis a).decWritten ∧ 0 < rem ∧ rem < s.braking a v then
    let req := ((v * v - stop * stop) * 128 / rem).toNat
    (max r req, decide (r < req))
  else (r, false)

/-- A moving axis that ramps to a standstill (R330, R333, R335, R336). -/
def State.rampStop (s : State) (a : Nat) : State :=
  let x := s.axis a
  let dir : Int := if 0 < x.vel then 1 else -1
  let v := x.vel * dir
  let d := speedStep (s.decRate a v) x.vFrac
  let v' := v - d.1
  if v' ≤ s.speed MPG.V_STOP a then s.standstill a (if x.stopHard then 5 else 0)
  else s.travel a dir v' d.2 3

/-- A moving axis on its way to its target (R327 to R332, R341). -/
def State.pursue (s : State) (a : Nat) : State :=
  let x := s.axis a
  let dir : Int := if 0 < x.vel then 1 else -1
  let v := x.vel * dir
  let rem := dir * (s.ri MPG.TGT_NOW a * 2 ^ 32 - x.pos)
  let top := s.topSpeed a dir
  let trav := (travelStep v x.pFrac).1
  let capped := s.closes a dir && decide (s.closingCap a < s.speed MPG.V_MAX a)
  if rem ≤ trav ∧ 0 ≤ rem then s.arrive a
  else if x.slowing ∨ rem ≤ s.braking a v + trav then
    let u := s.decUsed a v rem
    let d := speedStep u.1 x.vFrac
    let s := s.setAxis a { x with slowing := true }
    let s := if u.2 then s.w MPG.DEC_RAISED 1 a else s
    s.travel a dir (max 1 (max (min v (s.speed MPG.V_STOP a)) (v - d.1))) d.2 3
  else if top < v then
    let d := speedStep (s.decRate a v) x.vFrac
    let s := s.hgLimited a capped
    if top ≤ 0 ∧ v - d.1 ≤ s.speed MPG.V_STOP a then (s.standstill a 0).hgLimited a true
    else s.travel a dir (max (max top 1) (v - d.1)) d.2 3
  else if v < top then
    let d := speedStep (s.accRate a v) x.vFrac
    let v' := min top (v + d.1)
    let s := s.hgLimited a (capped && v' == top)
    s.travel a dir v' d.2 1
  else (s.hgLimited a capped).travel a dir v x.vFrac 2

/-! ### Homing (R336, R337) -/

/-- Homing ends in a fault (R337). -/
def State.homeFault (s : State) (a cause : Nat) : State :=
  let x := s.axis a
  if x.homing = 0 then s
  else
    let s := ((s.setAxis a { x with homing := 0, homeWait := false }).w MPG.HOMED 0 a).w MPG.HOME_CAUSE cause a
    s.raise 23 a 3 (s.axisPay a cause) [cause]

/-- A homing phase begins. -/
def State.homePhase (s : State) (a p : Nat) : State :=
  (s.setAxis a { s.axis a with homing := p, stopping := p == 2 }).w MPG.HOME_PHASE p a

/-- A hard stop: no further step is issued (R333). -/
def State.hardStop (s : State) (a : Nat) (m : Nat) : State := s.standstill a m

/-- The latch at the accepted release (R336). -/
def State.homeLatch (s : State) (a : Nat) : State :=
  let p := s.ri MPG.HOME_POS a
  let s := (s.wi MPG.POSITION p a).w MPG.HOME_PHASE 4 a
  let s := s.setAxis a { s.axis a with homing := 0, homedOnce := true, pendTgt := true }
  let s := if s.r MPG.TGT_SRC a = 0 then (s.wi MPG.TARGET p a).wi MPG.TGT_NOW p a else s
  let s := ((s.standstill a 0).w MPG.HOMED 1 a).w MPG.PHASE_LOST 0 a
  s.raise 23 a 2 (s.axisPay a 0)

/-- The direction of the seek. -/
def State.homeDir (s : State) (a : Nat) : Int := if s.r MPG.HOME_DIR a = 1 then 1 else -1

/-- The reference of the seek is active (R336). -/
def State.homeRef (s : State) (a : Nat) : Bool :=
  if s.r MPG.HOME_MODE a = 0 then (s.axis a).limit (s.homeDir a) else s.on MPG.HOME_IN a

/-- The release of the home switch is accepted: inactive for DB_US and for DB_COUNT steps since its last inactive edge (R334, R336). -/
def State.homeReleased (s : State) (a : Nat) : Bool :=
  s.r MPG.HOME_MODE a == 1 && !s.on MPG.HOME_IN a &&
  (match (s.axis a).homeOff with
    | some (t, n) => decide (t + 1000 * s.r MPG.DB_US a ≤ s.up) && decide (n + s.r MPG.DB_COUNT a ≤ (s.axis a).steps)
    | none => false)

/-- One µs of homing (R336). -/
def State.homeUpdate (s : State) (a : Nat) : State :=
  let x := s.axis a
  let dir := s.homeDir a
  if s.on MPG.DRV_LOST a then s
  else match x.homing with
    | 1 =>
      if s.homeRef a then (if x.vel = 0 then s.homePhase a 3 else s.homePhase a 2)
      else if (s.r MPG.HOME_MAX a : Int) < ((s.ri MPG.POSITION a - x.homeStart).natAbs : Nat) then
        let s := s.homeFault a 2
        s.setAxis a { s.axis a with stopping := (s.axis a).vel != 0 }
      else
        let v := x.vel * dir
        let top := s.speed MPG.V_HOME a
        let d := speedStep (s.accRate a v) x.vFrac
        let v' := if v ≤ 0 then min top (max 1 (s.speed MPG.V_START a)) else min top (v + d.1)
        s.travel a dir v' d.2 4
    | 2 => if x.vel = 0 then s.homePhase a 3 else
        let s := s.rampStop a
        if (s.axis a).vel = 0 then s.homePhase a 3 else s
    | _ => if s.homeReleased a then s.homeLatch a else s.travel a (-dir) ((s.r MPG.V_CREEP a : Int) * 65536) 0 4

/-- R328: one update of the profile generator, once per µs. The standby of a pair issues no steps (R494). -/
def execMotionUpdate (t : Nat) (a : Fin 24) (s : State) : Host.Outcome State Fault Refusal :=
  s.runK .field t fun s =>
    let x := s.axis a
    let early : Bool := match x.updAt with
      | some u => decide (s.up < u + 1000)
      | none => false
    if !s.axisOn a ∨ s.r DCH.ROLE = 1 ∨ s.r DCH.ROLE = 2 ∨ early = true then s
    else
    let s := s.setAxis a { x with updAt := some s.up }
    if x.stopping ∧ x.homing ≠ 2 then (if x.vel = 0 then s.standstill a 0 else s.rampStop a)
    else if x.homing ≠ 0 then s.homeUpdate a
    else if x.vel ≠ 0 then s.pursue a
    else s.tryStart a

/-! ### Targets (R324 to R326, R330, R338) -/

/-- A target comes into force. -/
def State.newTarget (s : State) (a : Nat) (p : Int) : State :=
  let old := s.ri MPG.TGT_NOW a
  let s := s.wi MPG.TGT_NOW p a
  if p = old then s
  else
    let x := s.axis a
    if !s.mayMove a ∧ x.homing = 0 ∧ !s.on MPG.HELD a ∧ !s.on MPG.DRV_LOST a then s.refuseTarget a
    else
      let dir : Int := if 0 < x.vel then 1 else -1
      let rem := dir * (p * 2 ^ 32 - x.pos)
      let held := x.stopping && !x.turning
      let turn := decide (x.vel ≠ 0 ∧ x.homing = 0 ∧ rem < s.braking a (x.vel * dir))
      (s.setAxis a { x with pendTgt := true, refused := false, slowing := false, stopping := held || turn, turning := !held && turn }).wb MPG.AT_TARGET
        (decide (x.vel = 0) && decide (p * 2 ^ 32 = x.pos)) a

/-- The target that a ROUTE or PLAN value gives, with the number of bounds taken (R325). -/
def State.convertTarget (s : State) (a : Nat) (x : Int) : Int × Nat :=
  let f := if s.r MPG.TGT_FMT a = 1 then 8 else 24
  let q := s.ri MPG.POS_ORG a + roundShift (x * s.ri MPG.TGT_GAIN a) f
  let p := sat 32 q
  let p' := if p < s.ri MPG.SOFT_LO a then s.ri MPG.SOFT_LO a else p
  let p'' := if s.ri MPG.SOFT_HI a < p' then s.ri MPG.SOFT_HI a else p'
  (p'', (if p = q then 0 else 1) + (if p' = p then 0 else 1) + (if p'' = p' then 0 else 1))

/-- A ROUTE or PLAN value reaches an axis (R325). -/
def State.axisValue (s : State) (a : Nat) (x : Int) : State :=
  let p := s.convertTarget a x
  (s.clampData ⟨23, a⟩ p.2).newTarget a p.1

/-- A TARGET that a write of SOFT_LO or SOFT_HI has clamped is a new target (R65, R324). -/
def State.softTarget (s : State) (a old : Nat) : State :=
  if s.r MPG.TGT_SRC a = 0 ∧ s.r MPG.TARGET a ≠ old then s.newTarget a (s.ri MPG.TARGET a) else s

/-- R324, R325: a write of TARGET. -/
def execTargetWrite (t : Nat) (r : Requester) (a : Fin 24) (v : Word) (s : State) : Host.Outcome State Fault Refusal :=
  s.cmdK t fun s => s.pageWrite r ⟨23, a⟩ true fun s =>
    let x := sgn 32 v.toNat
    let p := clampI (s.ri MPG.SOFT_LO a) (s.ri MPG.SOFT_HI a) x
    let s := (s.when (p != x) (fun s => s.clampCount ⟨23, a⟩ 0x08C 0)).wi MPG.TARGET p a
    if s.r MPG.TGT_SRC a = 0 then s.newTarget a p else s

/-- R332: a write of DEC_HI or DEC_LO. -/
def execDecWrite (t : Nat) (r : Requester) (a : Fin 24) (reg : Fin 2) (v : Word) (s : State) :
    Host.Outcome State Fault Refusal :=
  s.cmdK t fun s => s.pageWrite r ⟨23, a⟩ true fun s =>
    let f := if reg.val = 0 then MPG.DEC_HI else MPG.DEC_LO
    let s := (s.when (v == 0) (fun s => s.clampCount ⟨23, a⟩ f.off 0)).w f (max 1 v.toNat) a
    if (s.axis a).slowing then s.setAxis a { s.axis a with decWritten := true } else s

/-! ### Commands (R335 to R339, R343) -/

/-- R336: AXIS_CMD = HOME. -/
def execHome (t : Nat) (r : Requester) (a : Fin 24) (s : State) : Host.Outcome State Fault Refusal :=
  s.cmdK t fun s => s.pageWrite r ⟨23, a⟩ true fun s =>
    let x := s.axis a
    let wait := x.vel != 0
    let s := s.setAxis a { x with homing := 1, homeWait := wait, stopping := wait, turning := false, slowing := false, homeStart := s.ri MPG.POSITION a }
    let s := ((s.w MPG.HOMED 0 a).w MPG.HOME_CAUSE 0 a).w MPG.HOME_PHASE 1 a
    if s.axisOn a then s else s.homeFault a 4

/-- R335, R337: AXIS_CMD = STOP. -/
def execStop (t : Nat) (r : Requester) (a : Fin 24) (s : State) : Host.Outcome State Fault Refusal :=
  s.cmdK t fun s => s.pageWrite r ⟨23, a⟩ true fun s =>
    let s := (s.homeFault a 4).w MPG.HELD 1 a
    let x := s.axis a
    let s := s.setAxis a { x with stopping := x.vel != 0, turning := false, tgtOrg := s.r MPG.TGT_SRC a == 0 }
    if x.vel = 0 then s.standstill a 0 else s

/-- R335, R337: AXIS_CMD = ESTOP. -/
def execEstop (t : Nat) (r : Requester) (a : Fin 24) (s : State) : Host.Outcome State Fault Refusal :=
  s.cmdK t fun s => s.pageWrite r ⟨23, a⟩ true fun s =>
    let s := (s.homeFault a 4).w MPG.HELD 1 a
    (s.setAxis a { s.axis a with tgtOrg := s.r MPG.TGT_SRC a == 0 }).hardStop a 0

/-- R335: AXIS_CMD = RELEASE. -/
def execRelease (t : Nat) (r : Requester) (a : Fin 24) (s : State) : Host.Outcome State Fault Refusal :=
  s.cmdK t fun s => s.pageWrite r ⟨23, a⟩ true fun s =>
    (s.w MPG.HELD 0 a).setAxis a { s.axis a with pendTgt := true, refused := false }

/-- A command is refused with a cause (R338, R339). -/
def State.axisRefuse (s : State) (a c : Nat) : State :=
  let s := (s.w MPG.REFUSE_CAUSE c a).inc MPG.REFUSED a
  s.raise 23 a 6 (s.axisPay a c) [c]

/-- R339: AXIS_CMD = PHASE_SYNC. -/
def execPhaseSync (t : Nat) (r : Requester) (a : Fin 24) (s : State) : Host.Outcome State Fault Refusal :=
  s.cmdK t fun s => s.pageWrite r ⟨23, a⟩ true fun s =>
    let x := s.axis a
    if x.vel ≠ 0 then s.axisRefuse a 4
    else if s.on MPG.DRV_LOST a then s.axisRefuse a 3
    else if !s.on MPG.PHASE_LOST a then s.axisRefuse a 5
    else
      let m : Int := 4 * 2 ^ s.r MPG.MRES_LOG2 a
      let pos := s.ri MPG.POSITION a
      let ph := (pos - s.ri MPG.PHASE_ORG a) % m
      let d := if 2 * ph ≤ m then -ph else m - ph
      let s := ((s.wi MPG.POSITION (pos + d) a).wi MPG.SYNC_DELTA d a).w MPG.PHASE_LOST 0 a
      s.setAxis a { x with pos := (pos + d) * 2 ^ 32, pendTgt := true }

/-- R343: AXIS_CMD = SET_POS. -/
def execSetPos (t : Nat) (r : Requester) (a : Fin 24) (s : State) : Host.Outcome State Fault Refusal :=
  s.cmdK t fun s => s.pageWrite r ⟨23, a⟩ true fun s =>
    let x := s.axis a
    if x.vel ≠ 0 then s.axisRefuse a 4
    else
      let p := s.ri MPG.POS_SET a
      let d := p - s.ri MPG.POSITION a
      let s := (s.wi MPG.POSITION p a).wi MPG.PHASE_ORG (s.ri MPG.PHASE_ORG a + d) a
      (s.setAxis a { x with pos := p * 2 ^ 32 }).wb MPG.AT_TARGET (s.r MPG.TGT_NOW a == bits 32 p) a

/-! ### Inputs (R333, R334, R336 to R338) -/

/-- R333, R336, R337: a limit input becomes active. -/
def execLimitActive (t : Nat) (a : Fin 24) (positive : Bool) (s : State) : Host.Outcome State Fault Refusal :=
  s.cmdK t fun s =>
    let x := s.axis a
    let s := s.setAxis a (if positive then { x with limP := true } else { x with limN := true })
    let x := s.axis a
    let dir : Int := if positive then 1 else -1
    if x.homing ≠ 0 then
      if dir ≠ s.homeDir a then (s.homeFault a 1).hardStop a 0
      else if x.homing = 1 ∧ s.r MPG.HOME_MODE a = 1 then
        let s := s.homeFault a 2
        s.setAxis a { s.axis a with stopping := x.vel != 0 }
      else if x.homing = 1 then s.homePhase a (if x.vel = 0 then 3 else 2)
      else s
    else if 0 < x.vel * dir then
      let s := s.w (if positive then MPG.LIMP else MPG.LIMN) 1 a
      let s := if s.on MPG.LIM_HARD a then s.hardStop a 5 else s.setAxis a { x with stopping := true, turning := false, stopHard := true }
      s.raise 23 a 1 (s.axisPay a 0)
    else s

/-- R334, R336: the release of a limit is accepted. -/
def execLimitRelease (t : Nat) (a : Fin 24) (positive : Bool) (s : State) : Host.Outcome State Fault Refusal :=
  s.cmdK t fun s =>
    let x := s.axis a
    let s := (s.setAxis a (if positive then { x with limP := false } else { x with limN := false })).w
      (if positive then MPG.LIMP else MPG.LIMN) 0 a
    let dir : Int := if positive then 1 else -1
    if x.homing = 3 ∧ s.r MPG.HOME_MODE a = 0 ∧ dir = s.homeDir a then s.homeLatch a else s

/-- R334, R336: the home switch becomes active or inactive; the release is accepted at a later update, after DB_US and DB_COUNT. -/
def execHomeInput (t : Nat) (a : Fin 24) (active : Bool) (s : State) : Host.Outcome State Fault Refusal :=
  s.cmdK t fun s =>
    let x := s.axis a
    let s := s.setAxis a { x with homeOff := if active then none else some (s.up, x.steps) }
    let s := s.wb MPG.HOME_IN active a
    let x := s.axis a
    if s.r MPG.HOME_MODE a = 1 ∧ active ∧ x.homing = 1 ∧ !x.homeWait then s.homePhase a (if x.vel = 0 then 3 else 2)
    else s

/-- R338: MPG_DOK falls. -/
def execDrvFault (t : Nat) (a : Fin 24) (s : State) : Host.Outcome State Fault Refusal :=
  s.cmdK t fun s =>
    let s := ((s.homeFault a 3).hardStop a 0).w MPG.DRV_LOST 1 a
    let s := s.raise 23 a 4 (s.axisPay a 0)
    if s.on MPG.PHASE_RETAIN a then s else (s.w MPG.PHASE_LOST 1 a).raise 23 a 5 (s.axisPay a 0)

/-- R323, R338: a rise of MPG_DOK is accepted. -/
def execDokRiseAccepted (t : Nat) (a : Fin 24) (s : State) : Host.Outcome State Fault Refusal :=
  s.cmdK t fun s =>
    let x := s.axis a
    let s := if !s.on MPG.PHASE_RETAIN a || !x.everDok then s.w MPG.PHASE_ORG (s.r MPG.POSITION a) a else s
    (s.setAxis a { x with everDok := true, refused := x.refused && !s.on MPG.DRV_LOST a }).w MPG.DRV_LOST 0 a

/-- ENABLE of an axis page or the common page falls (R322, R337). -/
def State.mpgDisable (s : State) (inst : Nat) : State :=
  (if inst = 24 then List.range 24 else [inst]).foldl (fun s a => (s.homeFault a 4).hardStop a 0) s

end Sys2Proof.Machine
end

