-- ==== Sys2Proof/Machine/Civil.lean ====
section
/-! DEFINITION. Calendar arithmetic shared by the timekeeper and the calendar clock: the Gregorian calendar of R397 and its place on the PTP timescale (R373). -/

namespace Sys2Proof.Machine

/-- Leap years of the Gregorian calendar. -/
def leapYear (y : Nat) : Bool := (y % 4 == 0 && y % 100 != 0) || y % 400 == 0

/-- The days of a month. -/
def monthDays (y m : Nat) : Nat :=
  if m = 2 then (if leapYear y then 29 else 28) else if m = 4 ∨ m = 6 ∨ m = 9 ∨ m = 11 then 30 else 31

/-- The days before 1 January of year `y`, counted from 1 January 1. -/
def daysBeforeYear (y : Nat) : Nat := 365 * (y - 1) + (y - 1) / 4 - (y - 1) / 100 + (y - 1) / 400

/-- The days of year `y` before month `m`. -/
def daysBeforeMonth (y m : Nat) : Nat := ((List.range (m - 1)).map (fun i => monthDays y (i + 1))).sum

/-- Days from 1970-01-01 to a date. -/
def daysFrom1970 (y m d : Nat) : Nat := daysBeforeYear y + daysBeforeMonth y m + (d - 1) - 719162

/-- The date that lies `n` days after 1 January of year `y`, searched over at most `fuel` years. -/
def yearOf : Nat → Nat → Nat → Nat × Nat
  | 0, y, n => (y, n)
  | fuel + 1, y, n =>
    let len := if leapYear y then 366 else 365
    if n < len then (y, n) else yearOf fuel (y + 1) (n - len)

/-- Month and day of the day `n` (from 0) of year `y`, from month `m` on. -/
def monthOf (y : Nat) : Nat → Nat → Nat → Nat × Nat
  | 0, m, n => (m, n + 1)
  | fuel + 1, m, n => if n < monthDays y m then (m, n + 1) else monthOf y fuel (m + 1) (n - monthDays y m)

/-- Year, month, day of the day `n` after 1970-01-01. -/
def dateOf (n : Nat) : Nat × Nat × Nat :=
  let y := yearOf 700 1970 n
  let m := monthOf y.1 12 1 y.2
  (y.1, m.1, m.2)

/-- The weekday of the day `n` after 1970-01-01, a Thursday: 1 Monday to 7 Sunday. -/
def weekdayOf (n : Nat) : Nat := (n + 3) % 7 + 1

/-- The whole UTC seconds from 1970-01-01 to a date and time, leap seconds not counted. -/
def utcSeconds (y mo d h mi s : Nat) : Nat := 86400 * daysFrom1970 y mo d + 3600 * h + 60 * mi + s

end Sys2Proof.Machine
end

