-- ==== Sys2Proof/Machine/Rtc.lean ====
section
/-! DEFINITION. The calendar clock and the backup domain (R397 to R410). -/

namespace Sys2Proof.Machine

/-- Two BCD digits of a number. -/
def toBcd (n : Nat) : Nat := n / 10 % 10 * 16 + n % 10

/-- The number of two BCD digits. -/
def ofBcd (b : Nat) : Nat := b / 16 * 10 + b % 16

/-- The clamp of a calendar field (R402): each nibble takes at most its largest digit (the tens of the century, the field from 20 on, 9), then the field the nearest bound; `lo` and `hi` are the bounds as numbers. -/
def bcdClamp (lo hi v : Nat) : Nat :=
  let v' := min (v / 16) (if lo = 20 then 9 else hi / 10) * 16 + min (v % 16) 9
  if v' < toBcd lo then toBcd lo else if toBcd hi < v' then toBcd hi else v'

/-- The year of a calendar value. -/
def Cal.y (c : Cal) : Nat := 100 * ofBcd c.cent + ofBcd c.year

/-- The calendar value of a date and time; the weekday follows from the date. -/
def calOf (y m d h mi se : Nat) : Cal :=
  { sec := toBcd se, min := toBcd mi, hour := toBcd h, wday := weekdayOf (daysFrom1970 y m d),
    day := toBcd d, month := toBcd m, year := toBcd (y % 100), cent := toBcd (y / 100) }

/-- The UTC seconds of a calendar value. -/
def Cal.utc (c : Cal) : Nat :=
  utcSeconds c.y (ofBcd c.month) (ofBcd c.day) (ofBcd c.hour) (ofBcd c.min) (ofBcd c.sec)

/-- The calendar value of UTC seconds. -/
def calOfUtc (n : Nat) : Cal :=
  let d := dateOf (n / 86400)
  let r := n % 86400
  calOf d.1 d.2.1 d.2.2 (r / 3600) (r / 60 % 60) (r % 60)

/-- The last second of the calendar's span (R398). -/
def Cal.last (c : Cal) : Bool :=
  c.y == 2399 && c.month == 0x12 && c.day == 0x31 && c.hour == 0x23 && c.min == 0x59 && c.sec == 0x59

/-- The next second; the weekday advances at midnight (R397, R398). -/
def Cal.succ (c : Cal) : Cal :=
  let s := ofBcd c.sec + 1
  let mi := ofBcd c.min + s / 60
  let h := ofBcd c.hour + mi / 60
  if h < 24 then { c with sec := toBcd (s % 60), min := toBcd (mi % 60), hour := toBcd h }
  else if c.last then { calOf 2000 1 1 0 0 0 with wday := c.wday % 7 + 1 }
  else
    let d := ofBcd c.day + 1
    let past : Bool := monthDays c.y (ofBcd c.month) < d
    let m := ofBcd c.month + past.toNat
    let y := c.y + (12 < m : Bool).toNat
    { sec := 0, min := 0, hour := 0, wday := c.wday % 7 + 1, day := toBcd (if past then 1 else d),
      month := toBcd (if 12 < m then 1 else m), year := toBcd (y % 100), cent := toBcd (y / 100) }

/-- Update the calendar clock's record. -/
def State.setRtc (s : State) (f : RtcX → RtcX) : State := { s with rtc := f s.rtc }

/-- Payload bytes 16 to 23: the calendar registers SEC to CENT (R410). -/
def State.rtcPay (s : State) : List Nat :=
  let c := s.rtc.cal
  [c.sec, c.min, c.hour, c.wday, c.day, c.month, c.year, c.cent]

/-- The alarm compares with the calendar (R404). -/
def State.alarm (s : State) : State :=
  let c := s.rtc.cal
  let en := [(RTC.SEC_EN, RTC.ALM_SEC, c.sec), (RTC.MIN_EN, RTC.ALM_MIN, c.min), (RTC.HOUR_EN, RTC.ALM_HOUR, c.hour),
    (RTC.DAY_EN, RTC.ALM_DAY, c.day)].filter (fun p => s.aon p.1 != 0)
  if !en.isEmpty && en.all (fun p => s.aon p.2.1 == p.2.2) then (s.w RTC.ALM_FLAG 1).raise 9 0 0 s.rtcPay else s

/-- The calendar advances by one second (R397, R398). -/
def State.calTick (s : State) : State :=
  let s := if s.rtc.cal.last then s.w RTC.TIME_VALID 0 else s
  (s.setRtc (fun k => { k with cal := k.cal.succ })).alarm

/-- The calendar that reads show: the frozen shadows while they stand (R400). -/
def State.calShown (s : State) : Cal := s.rtc.shadow.getD s.rtc.cal

/-- Crystal cycles within the second (R397). -/
def State.subsec (s : State) : Nat := min 32767 ((s.up - s.rtc.tickAt) * 32768 / 1000000000)

/-- RTC_SUBSEC: frozen with the calendar (R397, R400). -/
def State.subsecShown (s : State) : Nat := if s.rtc.shadow.isSome then s.rtc.subShadow else s.subsec

/-- The freeze ends; a held tick is applied (R400). -/
def State.release (s : State) : State :=
  if s.r RTC.FROZEN = 0 then s
  else
    let s := (s.setRtc (fun k => { k with shadow := none })).w RTC.FROZEN 0
    if s.r RTC.HELD_TICK = 1 then (s.w RTC.HELD_TICK 0).calTick else s

/-- R397 to R400: a second tick; while frozen it is held, and one that comes with a commit is discarded (R408). In RUN, TMK captures the time base. -/
def execRtcTick (t : Nat) (s : State) : Host.Outcome State Fault Refusal :=
  s.cmdK t fun s =>
    if s.rtc.commitAt = some s.up then s else
    let s := s.setRtc (fun k => { k with tickAt := s.up, rcClock := s.on RTC.OSC_FAULT })
    let s := if s.pwr.st = .run then
        (s.w RTC.TICK_SEC (s.now / 1000000000)).w RTC.TICK_NS (s.now % 1000000000)
      else s
    if s.r RTC.FROZEN = 1 then s.w RTC.HELD_TICK 1 else s.calTick

/-- R400: a read of RTC_SEC freezes the shadows and returns the frozen seconds. -/
def execRtcSecRead (t : Nat) (r : Requester) (s : State) : Host.Outcome State Fault Refusal :=
  s.cmdK t fun s => s.pageRead r ⟨9, 0⟩ fun s =>
    let s := if s.r RTC.FROZEN = 1 then s
      else (s.setRtc (fun k => { k with shadow := some k.cal, subShadow := s.subsec, freezeAt := s.up })).w RTC.FROZEN 1
    s.reply r s.calShown.sec

/-- R400: a read of RTC_CENT returns the century and ends the freeze. -/
def execRtcCentRead (t : Nat) (r : Requester) (s : State) : Host.Outcome State Fault Refusal :=
  s.cmdK t fun s => s.pageRead r ⟨9, 0⟩ fun s => (s.reply r s.calShown.cent).release

/-- R400: 32,768 crystal cycles after the freeze it ends. -/
def execRtcFreezeTimeout (t : Nat) (s : State) : Host.Outcome State Fault Refusal :=
  s.cmdK t fun s =>
    if s.rtc.freezeAt + 1000000000 ≤ s.up then s.release else s

/-- The first staging write loads the staging registers from the calendar, as frozen plus any held tick (R401, R408). -/
def State.openStaging (s : State) : State :=
  if s.r RTC.STAGE_OPEN = 1 then s
  else
    let c := if s.r RTC.HELD_TICK = 1 then s.rtc.cal.succ else s.rtc.cal
    (((((((s.w RTC.STAGE_OPEN 1).w RTC.STG_SEC c.sec).w RTC.STG_MIN c.min).w RTC.STG_HOUR c.hour).w RTC.STG_DAY c.day).w
      RTC.STG_MONTH c.month).w RTC.STG_YEAR c.year).w RTC.STG_CENT c.cent

/-- The staging field, its bounds as numbers (R397, R402). -/
def stgField : StgReg → Fld × Nat × Nat
  | .sec => (RTC.STG_SEC, 0, 59)
  | .min => (RTC.STG_MIN, 0, 59)
  | .hour => (RTC.STG_HOUR, 0, 23)
  | .day => (RTC.STG_DAY, 1, 31)
  | .month => (RTC.STG_MONTH, 1, 12)
  | .year => (RTC.STG_YEAR, 0, 99)

/-- A written calendar field goes to staging, clamped (R401, R402). -/
def State.stageField (s : State) (f : Fld) (lo hi : Nat) (v : Word) : State :=
  let x := v.toNat % 2 ^ f.width
  let c := bcdClamp lo hi x
  let s := s.openStaging.w f c
  s.when (c != x) (fun s => s.clampCount ⟨9, 0⟩ f.off 0)

/-- R401: a write of STG_SEC to STG_YEAR. -/
def execStagingWrite (t : Nat) (r : Requester) (reg : StgReg) (v : Word) (s : State) :
    Host.Outcome State Fault Refusal :=
  s.cmdK t fun s => s.pageWrite r ⟨9, 0⟩ true fun s =>
    s.stageField (stgField reg).1 (stgField reg).2.1 (stgField reg).2.2 v

/-- The calendar takes a value as a commit gives it (R401, R408): the freeze and a held tick go, the divider restarts. -/
def State.commitCal (s : State) (c : Cal) : State :=
  let s := s.setRtc (fun k => { k with cal := c, shadow := none, tickAt := s.up, commitAt := some s.up })
  (((s.w RTC.FROZEN 0).w RTC.HELD_TICK 0).w RTC.TIME_VALID 1).alarm

/-- R401, R402: a write of STG_CENT commits all staged values; a day beyond the month's last is lowered and counts with LAST_OFFSET 0x1F. -/
def execCalendarCommit (t : Nat) (r : Requester) (v : Word) (s : State) : Host.Outcome State Fault Refusal :=
  s.cmdK t fun s => s.pageWrite r ⟨9, 0⟩ true fun s =>
    let s := (s.stageField RTC.STG_CENT 20 23 v).w RTC.STAGE_OPEN 0
    let y := 100 * ofBcd (s.r RTC.STG_CENT) + ofBcd (s.r RTC.STG_YEAR)
    let m := ofBcd (s.r RTC.STG_MONTH)
    let d := ofBcd (s.r RTC.STG_DAY)
    let d' := min d (monthDays y m)
    let s := s.when (d' != d) (fun s => (s.w RTC.STG_DAY (toBcd d')).clampCount ⟨9, 0⟩ 0x07C 0)
    s.commitCal (calOf y m d' (ofBcd (s.r RTC.STG_HOUR)) (ofBcd (s.r RTC.STG_MIN)) (ofBcd (s.r RTC.STG_SEC)))

/-- R401: CTRL.STG_DISCARD closes the staging. -/
def execStgDiscard (t : Nat) (r : Requester) (s : State) : Host.Outcome State Fault Refusal :=
  s.cmdK t fun s => s.pageWrite r ⟨9, 0⟩ true (fun s => s.w RTC.STAGE_OPEN 0)

/-- R403: the hourly synchronisation, due at the first whole second of a UTC hour at which TMK is LOCKED; it is skipped while staging is open, while frozen, and in a leap second. -/
def execAutoSync (t : Nat) (s : State) : Host.Outcome State Fault Refusal :=
  s.cmdK t fun s =>
    let utc := s.now / 1000000000 - s.r TMK.UTC_OFFSET
    if s.aon RTC.AUTO_SYNC = 0 ∨ s.r TMK.STATE ≠ 2 ∨ s.now % 1000000000 ≠ 0 ∨ s.rtc.syncHour = some (utc / 3600) then s
    else
      let s := s.setRtc (fun k => { k with syncHour := some (utc / 3600) })
      let leap := s.on TMK.LEAP61 && utc % 86400 == 0
      if s.r RTC.STAGE_OPEN = 1 ∨ s.r RTC.FROZEN = 1 ∨ leap then s.inc RTC.SYNC_SKIPS
      else
        let moved : Int := ((utc : Int) - s.rtc.cal.utc) * 32768 - s.subsec
        let s := (s.inc RTC.SYNCS).commitCal (calOfUtc utc)
        if 32768 ≤ |moved| then s.raise 9 0 8 s.rtcPay else s

/-- R405: a debounced edge on RTC_WAKE[n]. -/
def execWakeInputEdge (t : Nat) (n : Fin 4) (lvl : Bool) (s : State) : Host.Outcome State Fault Refusal :=
  s.cmdK t fun s =>
    let was := s.on RTC.LEVEL 0 n
    let s := s.wb RTC.LEVEL lvl 0 n
    let e := s.aon RTC.EDGE n
    if was != lvl && s.aon RTC.W_EN n != 0 && (e == 2 || (e == 0) == lvl) then s.raise 9 0 (4 + n.val) s.rtcPay else s

/-- R407: the measurement of VBAK, once per second in RUN. -/
def execVbakCheck (t : Nat) (mv : Nat) (s : State) : Host.Outcome State Fault Refusal :=
  s.cmdK t fun s =>
    if s.pwr.st ≠ .run then s else
    let s := s.w PCR.RAIL_MV mv 0 5
    if mv < 1900 then
      ((s.setRtc (fun k => { k with vbakOk := 0 })).w RTC.VBAK_LOW 1).setRaw 9 0 2 true s.rtcPay
    else
      let n := if 1900 < mv then s.rtc.vbakOk + 1 else 0
      let s := s.setRtc (fun k => { k with vbakOk := n })
      if 10 ≤ n then (s.w RTC.VBAK_LOW 0).setRaw 9 0 2 false else s

/-- R407: no crystal edge for 2 ms. -/
def execOscFault (t : Nat) (s : State) : Host.Outcome State Fault Refusal :=
  s.cmdK t fun s =>
    ((s.w RTC.OSC_FAULT 1).setRtc (fun k => { k with rcClock := true })).setRaw 9 0 1 true s.rtcPay

/-- R407: the crystal is back for 1 s; counting returns to it at the next tick. -/
def execOscRestored (t : Nat) (s : State) : Host.Outcome State Fault Refusal :=
  s.cmdK t fun s => (s.w RTC.OSC_FAULT 0).setRaw 9 0 1 false

/-- R407: VBAK is lost while the main supplies are off: the AON registers and backup registers take their reset values. -/
def execBackupDomainReset (t : Nat) (s : State) : Host.Outcome State Fault Refusal :=
  s.cmdK t fun s =>
    if s.pwr.st = .run ∨ s.pwr.st = .doze then s
    else
      let s := (RTC.fields ++ NWT.fields).foldl (fun s f => s.rstF f 0) s
      { s with rtc := {}, aonQ := [], aonRegs := [], pwr := { s.pwr with st := .off } }

/-- R562: the AON island changes supply. -/
def execAonSupplySwitch (t : Nat) (toVbak : Bool) (s : State) : Host.Outcome State Fault Refusal :=
  s.cmdK t fun s => s.setRtc (fun k => { k with onVbak := toVbak })

end Sys2Proof.Machine
end

