-- ==== Sys2Proof/Machine/Clamp.lean ====
section
/-! DEFINITION. The clamp rule of register fields (R64). -/

namespace Sys2Proof.Machine

/-- The code that an enumerated field takes: the next lower defined code, the lowest one below all (R64). -/
def enumCode (codes : List Nat) (v : Nat) : Nat :=
  codes.foldl (fun a c => if c ≤ v then c else a) (codes.headD 0)

/-- The nearest of some rising values, the lower one on a tie (R64, R111). -/
def nearVal (vals : List Nat) (v : Nat) : Nat :=
  vals.foldl (fun a c => if (if c ≤ v then v - c else c - v) < (if a ≤ v then v - a else a - v) then c else a) (vals.headD 0)

/-- The nearest multiple of `m` from `lo` to `hi`, the lower one on a tie. -/
def stepVal (lo hi m v : Nat) : Nat :=
  let c := min hi (max lo v)
  let d := (c - lo) / m * m + lo
  if 2 * (c - d) ≤ m ∨ hi < d + m then d else d + m

/-- The nearest value from `lo` to `hi` that divides `n`, the lower one on a tie. -/
def divVal (lo hi n v : Nat) : Nat :=
  let c := min hi (max lo v)
  let low := ((List.range (c - lo + 1)).find? (fun i => n % (c - i) == 0)).map (fun i => c - i)
  let high := ((List.range (hi - c + 1)).find? (fun i => n % (c + i) == 0)).map (fun i => c + i)
  match low, high with
  | some a, some b => if c - a ≤ b - c then a else b
  | some a, none => a
  | none, some b => b
  | none, none => lo

/-- Every nibble at most `hi`. -/
def nibVal (hi v : Nat) : Nat := ((List.range 8).map (fun i => min hi (v / 16 ^ i % 16) * 16 ^ i)).sum

/-- The value that a field of a range takes when `v` is written (R64). -/
def Rng.take (g : Rng) (width v : Nat) : Nat :=
  match g with
  | .any => v
  | .num lo hi => min hi (max lo v)
  | .snum lo hi => bits width (clampI lo hi (sgn width v))
  | .step lo hi m => stepVal lo hi m v
  | .divs lo hi n => divVal lo hi n v
  | .near vals => nearVal vals v
  | .enum codes => enumCode codes v
  | .nib hi => nibVal hi v
  | .bcd lo hi => bcdClamp lo hi v

/-- Write a field from the bus: the value taken, and a clamp counted (R64, R66). -/
def State.take (s : State) (f : Fld) (v : Nat) (inst i : Nat) : State :=
  let x := f.rng.take f.width v
  (s.w f x inst i).when (x != v % 2 ^ f.width) (fun s => s.clampCount ⟨f.code, inst⟩ (f.off + i * f.stride) f.lsb)

end Sys2Proof.Machine
end

