-- ==== Sys2Proof/Machine/Areas.lean ====
section
/-! DEFINITION. The word memories that blocks share: logic data memory, the process image, the force table (R245, R281, R282, R296). -/

namespace Sys2Proof.Machine

/-- Areas that one force covers alike: I with PI, Q with PQ (R282). -/
def areaClass (a : Nat) : Nat := if a = 2 then 0 else if a = 3 then 1 else a

/-- The active forces. -/
def State.activeForces (s : State) : List Force := (s.forces.map (·.2)).filter (·.on)

/-- A word as the active forces show it: bit forces first, and the word force prevails (R281, R282). -/
def State.forceWord (s : State) (area idx : Nat) (v : Word) : Word :=
  let fs := s.activeForces.filter (fun f => areaClass (f.addr / 2 ^ 18) == areaClass area)
  match fs.find? (fun f => f.word && f.addr % 2 ^ 18 == idx) with
  | some f => f.val
  | none => (fs.filter (fun f => !f.word && f.addr % 2 ^ 18 / 32 == idx)).foldl
      (fun v f => BitVec.ofNat 32 (putBit v.toNat (f.addr % 32) (f.val.getLsbD 0))) v

/-- A word of logic data memory as it stands (R245). -/
def State.dword (s : State) (w : Nat) : Word := sget 0 s.dataMem w

/-- Write a word of logic data memory. -/
def State.setDword (s : State) (w : Nat) (v : Word) : State :=
  { s with dataMem := sset 0 s.dataMem w v, pwr := { s.pwr with bad := s.pwr.bad.filter (fun b => !(b == (4, w))) } }

/-- A word of logic data memory as loops and the handover read it: forces apply (R282). -/
def State.dwordSeen (s : State) (w : Nat) : Word := s.forceWord 4 w (s.dword w)

/-- The words of logic data memory that only the device writes, and the reserved words (R245, R247): the plan-interface area apart from what R169 gives to programs, the measurement image, and the reserved range. -/
def deviceWord (w : Nat) : Bool :=
  (0x2000 ≤ w && w < 0x2400) || (0x2800 ≤ w && w < 0x2802) || (0x2804 ≤ w && w < 0x3000)

/-- The words of the plan-interface area that the device writes: plan values, HO_STAT, PLAN_SEQ_IN_FORCE (R169). -/
def planWord (k : Nat) : Bool := (decide (0x2000 ≤ k) && decide (k < 0x2400)) || k == 0x2800 || k == 0x2801

/-! ### The station table and the process image (R296, R304, R311) -/

/-- A word of a station entry; an unlisted entry has LOSS_LIMIT 3 and WORDS_IN 1 (R318). -/
def tabWord (m : List (Nat × Word)) (stn w : Nat) : Nat :=
  (sget (if w = 0 then 0x00010300 else 0) m (4 * stn + w)).toNat

/-- EN of an entry. -/
def stnEn (m : List (Nat × Word)) (stn : Nat) : Bool := tabWord m stn 0 % 2 == 1

/-- POLICY = SUBST. -/
def stnSubst (m : List (Nat × Word)) (stn : Nat) : Bool := (tabWord m stn 0).testBit 1

/-- PROFILE. -/
def stnProfile (m : List (Nat × Word)) (stn : Nat) : Nat := bitsAt (tabWord m stn 0) 2 6

/-- LOSS_LIMIT. -/
def stnLoss (m : List (Nat × Word)) (stn : Nat) : Nat := bitsAt (tabWord m stn 0) 8 8

/-- WORDS_IN. -/
def stnIn (m : List (Nat × Word)) (stn : Nat) : Nat := bitsAt (tabWord m stn 0) 16 7

/-- WORDS_OUT. -/
def stnOut (m : List (Nat × Word)) (stn : Nat) : Nat := bitsAt (tabWord m stn 0) 24 6

/-- The address of an entry. -/
def stnMac (m : List (Nat × Word)) (stn : Nat) : Nat := tabWord m stn 1 + 2 ^ 32 * (tabWord m stn 2 % 65536)

/-- TX_OFF_US. -/
def stnTxOff (m : List (Nat × Word)) (stn : Nat) : Nat := tabWord m stn 3 % 2 ^ 17

/-- The enabled stations, ascending. -/
def stnEnabled (m : List (Nat × Word)) : List Nat :=
  (m.filter (fun p => p.1 % 4 == 0 && p.2.getLsbD 0)).map (fun p => p.1 / 4)

/-- A station's status. -/
def State.stn (s : State) (n : Nat) : StationX := sget {} s.stations n

/-- Replace a station's status. -/
def State.setStn (s : State) (n : Nat) (x : StationX) : State := { s with stations := sset {} s.stations n x }

/-- The quality of a station: while SXE is disabled, STALE for an enabled station and ABSENT for any other (R301, R307). -/
def State.stnQ (s : State) (n : Nat) : StnQuality :=
  if !stnEn s.sxe.table n then .absent
  else if !s.enabled 22 then .stale
  else match (s.stn n).q with
    | .fresh => .fresh
    | _ => .stale

/-- The code of a quality (R318). -/
def qualityCode : StnQuality → Nat
  | .absent => 0
  | .fresh => 1
  | .stale => 2

/-- The last-good input word `w` (R297). -/
def State.lastGood (s : State) (w : Nat) : Word :=
  if w % 64 < stnIn s.sxe.table (w / 64) then sget 0 s.inImg w else 0

/-- Bit `w` of the HOLD_MASK of a profile in use (R304). -/
def State.holdMask (s : State) (p w : Nat) : Bool := (sget 0 s.sxe.prof (4096 + 2 * p + w / 32)).getLsbD (w % 32)

/-- Input word `w` through the substitute policy of its station (R304). -/
def State.siWord (s : State) (w : Nat) : Word :=
  let n := w / 64
  match s.stnQ n with
  | .absent => 0
  | .fresh => s.lastGood w
  | .stale =>
    if !(s.stn n).subst then s.lastGood w
    else
      let p := (s.stn n).profile
      if s.holdMask p (w % 64) then s.lastGood w
      else if w % 64 < stnIn s.sxe.table n then sget 0 s.sxe.prof (64 * p + w % 64) else 0

/-- An output word as it stands: a word at or above WORDS_OUT reads 0 (R296). -/
def State.soWord (s : State) (w : Nat) : Word :=
  if w % 32 < stnOut s.sxe.table (w / 32) then sget 0 s.outImg w else 0

/-- Write an output word. -/
def State.setSo (s : State) (w : Nat) (v : Word) : State := { s with outImg := sset 0 s.outImg w v }

/-- A value in a route format (R200): Q15.16, INT32 rounded half up, or UQ0.16. -/
def routeFmt (fmt : Nat) (v : Int) : Nat :=
  if fmt = 1 then bits 32 (roundShift v 16) else if fmt = 2 then (clampI 0 65535 v).toNat else bits 32 v

end Sys2Proof.Machine
end

