-- ==== Sys2Proof/Machine/Mfe.lean ====
section
/-! DEFINITION. Measurement inputs and actuation outputs (R218 to R242). -/

namespace Sys2Proof.Machine

/-- The instant at which the value of record `i` was completed (R219); none before the first. -/
def State.valueAt (s : State) (i : Nat) : Option Nat :=
  if i < 32 then (sget {} s.sd i).valueAt else s.sar.valueAt.lookup (i - 32)

/-- The second word of record `i` as latched now: STATUS with AGE in units of 10 ns, or COUNT (R219). Before the first value AGE holds its reset value 0 (assumption 155). -/
def State.recordHi (s : State) (i : Nat) : Nat :=
  if 40 ≤ i then s.r MFE.STATUS 0 i
  else s.r MFE.STATUS 0 i % 256 + 256 * ((s.valueAt i).elim 0 (fun v => min 0xFFFFFF ((s.now - v) / 10)))

/-- The measurement image follows a record (R220, R245). -/
def State.refresh (s : State) (i : Nat) : State :=
  (s.setDword (0x2C00 + 2 * i) (BitVec.ofNat 32 (s.r MFE.RECORD 0 i))).setDword (0x2C01 + 2 * i)
    (BitVec.ofNat 32 (s.recordHi i))

/-- A bit of STATUS. -/
def State.mfeBit (s : State) (i b : Nat) : Bool := (s.r MFE.STATUS 0 i).testBit b

/-- Set a bit of STATUS. -/
def State.setMfeBit (s : State) (i b : Nat) (v : Bool) : State := s.w MFE.STATUS (putBit (s.r MFE.STATUS 0 i) b v) 0 i

/-- The events that follow the channels' conditions, with the latest channel (R240). -/
def State.mfeEvents (s : State) (typ i : Nat) : State :=
  let s := s.setRaw 19 0 0 ((List.range 32).any (fun c => s.mfeBit c 0)) [typ, i, 0]
  let s := s.setRaw 19 0 1 ((List.range 32).any (fun c => s.mfeBit c 2)) [typ, i, 0]
  let s := s.setRaw 19 0 2 ((List.range 8).any (fun c => s.mfeBit (32 + c) 0)) [typ, i, 0]
  s.setRaw 19 0 4 (s.r MFE.PULSE_FAULT != 0) [typ, i, 0]

/-- Replace a sigma-delta channel. -/
def State.setSd (s : State) (c : Nat) (x : SdX) : State := { s with sd := sset {} s.sd c x }

/-- A channel works: the page is enabled and SD_EN = 1. -/
def State.sdOn (s : State) (c : Nat) : Bool := s.enabled 19 && s.on MFE.SD_EN 0 c

/-! ### Trips (R236) -/

/-- The pin of trip line `l` is active: enabled, and at its LEVEL. `tripPins` marks the pins that are low (R236, assumption 138). -/
def State.tripPin (s : State) (l : Nat) : Bool := s.on ACT.T_EN 0 l && (s.tripPins.getLsbD l != s.on ACT.LEVEL 0 l)

/-- The limit detector of channel `c` drives trip line `l` (R224). -/
def State.tripBy (s : State) (l c : Nat) : Bool :=
  (sget {} s.sd c).tripping && s.on MFE.LIM_TRIP_EN 0 c && s.r MFE.LIM_TRIP 0 c == l

/-- Trip line `l` is live: its pin is active, or a limit detector drives it (R224, R236). -/
def State.tripLive (s : State) (l : Nat) : Bool := s.tripPin l || (List.range 32).any (s.tripBy l)

/-- What drives a live trip line: its pin (0), or the lowest of the channels that do (R241). -/
def State.tripCause (s : State) (l : Nat) : Nat :=
  if s.tripPin l then 0 else match (List.range 32).find? (s.tripBy l) with
    | some c => 0x80 + c
    | none => 0

/-- TRIP_SRC of a line. -/
def tripSrc (l : Nat) : Fld :=
  match l with
  | 0 => ACT.TRIP_SRC0
  | 1 => ACT.TRIP_SRC1
  | 2 => ACT.TRIP_SRC2
  | _ => ACT.TRIP_SRC3

/-- Replace an output. -/
def State.setPwm (s : State) (o : Nat) (x : PwmX) : State := { s with pwm := sset {} s.pwm o x }

/-- An output has a latched trip in its TRIP_MASK. -/
def State.tripLatched (s : State) (o : Nat) : Bool := s.r ACT.TRIP_MASK 0 o &&& s.r ACT.TRIP_STATE != 0

/-- The outputs that a latched trip holds take their TRIP_LVL (R236, R237). -/
def State.tripOutputs (s : State) : State :=
  s.forN 24 (fun s o =>
    if s.tripLatched o then
      s.setPwm o { sget {} s.pwm o with tripped := true, level := if s.enabled 20 then 2 else 0 }
    else s)

/-- A line becomes live or not live. While it is live its trip is latched, with the cause; TRIP_t is raised when the latch sets (R236, R242). -/
def State.tripLine (s : State) (l src : Nat) : State :=
  let live := s.tripLive l
  let s := s.w ACT.TRIP_LIVE (putBit (s.r ACT.TRIP_LIVE) l live)
  let s := if live && !(s.r ACT.TRIP_STATE).testBit l then
      ((s.w (tripSrc l) src).w ACT.TRIP_STATE (putBit (s.r ACT.TRIP_STATE) l true)).tripOutputs
    else s
  s.setRaw 20 0 l ((s.r ACT.TRIP_STATE).testBit l) [l, s.r (tripSrc l)]

/-- The four lines follow their pins, their configuration and the limit detectors (R236). -/
def State.allTrips (s : State) : State := s.forN 4 (fun s l => s.tripLine l (s.tripCause l))

/-- R236: a trip pin reaches or leaves its active level, past its filter, whatever the FIELD island is doing. -/
def execTripInput (t : Nat) (line : Fin 4) (active : Bool) (s : State) : Host.Outcome State Fault Refusal :=
  s.cmdK t fun s =>
    let low := active != s.on ACT.LEVEL 0 line
    let s := { s with tripPins := BitVec.ofNat 4 (putBit s.tripPins.toNat line low) }
    s.tripLine line 0

/-- R236, R237: a write of 1s to TRIP_STATE clears the lines that are inactive. -/
def execActTripClear (t : Nat) (r : Requester) (v : BitVec 4) (s : State) : Host.Outcome State Fault Refusal :=
  s.cmdK t fun s => s.pageWrite r ⟨20, 0⟩ true fun s =>
    let was := s.r ACT.TRIP_STATE
    let s := s.forN 4 (fun s l =>
      if v.getLsbD l && !s.tripLive l then
        (s.w ACT.TRIP_STATE (putBit (s.r ACT.TRIP_STATE) l false)).setRaw 20 0 l false
      else s)
    s.forN 24 (fun s o =>
      if s.r ACT.TRIP_MASK 0 o &&& was != 0 && !s.tripLatched o then s.setPwm o { sget {} s.pwm o with clearAt := s.now } else s)

/-! ### Sigma-delta channels (R221 to R224) -/

/-- The normalised filter output of R222, in `w` bits. -/
def sincNorm (d k w : Nat) : Int := sat w (onGrid (2 * (d : Int) - 2 ^ (3 * k)) (-(3 * k : Nat)) (1 - (w : Int)))

/-- R222, R223: an output of a channel's main filter. -/
def execSdFilterOutput (t : Nat) (ch : Fin 32) (d : BitVec 32) (s : State) : Host.Outcome State Fault Refusal :=
  s.runK .field t fun s =>
    let x := sget {} s.sd ch
    if !s.sdOn ch ∨ x.clkLost ∨ x.stuck then s
    else if 1 < x.settle then s.setSd ch { x with settle := x.settle - 1 }
    else
      let k := 4 + s.r MFE.OSR 0 ch
      let d := min d.toNat (2 ^ (3 * k))
      let n := sincNorm d k 24
      let v := sat 32 (onGrid (s.ri MFE.SD_GAIN 0 ch * n) (-39) (-16) + s.ri MFE.SD_OFFSET 0 ch)
      let s := s.setSd ch { x with settle := 0, valueAt := some s.now }
      let s := s.wi MFE.RECORD v 0 ch
      let s := (s.setMfeBit ch 0 false).setMfeBit ch 1 (d == 0 || d == 2 ^ (3 * k))
      (s.refresh ch).mfeEvents 0 ch

/-- R224: an output of a channel's limit filter. -/
def execSdLimitOutput (t : Nat) (ch : Fin 32) (d : BitVec 32) (s : State) : Host.Outcome State Fault Refusal :=
  s.runK .field t fun s =>
    if !s.sdOn ch then s
    else
      let k := 3 + s.r MFE.LIM_OSR 0 ch
      let n := sincNorm (min d.toNat (2 ^ (3 * k))) k 16
      let x := sget {} s.sd ch
      let run := if s.ri MFE.LIM_HI 0 ch < n then max x.limRun 0 + 1
        else if n < s.ri MFE.LIM_LO 0 ch then min x.limRun 0 - 1 else 0
      let lim := if run = 0 then false else s.mfeBit ch 2 || decide (s.r MFE.LIM_COUNT 0 ch ≤ run.natAbs)
      let s := s.setSd ch { x with limRun := run, tripping := lim }
      (((s.setMfeBit ch 2 lim).refresh ch).mfeEvents 0 ch).tripLine (s.r MFE.LIM_TRIP 0 ch) (0x80 + ch.val)

/-- A working channel with a fault condition is faulted (R223). -/
def State.sdJudge (s : State) (c : Nat) : State :=
  let x := sget {} s.sd c
  if (x.clkLost || x.stuck) && s.sdOn c && !s.mfeBit c 0 then ((s.setMfeBit c 0 true).refresh c).mfeEvents 0 c else s

/-- A fault condition of a channel comes or goes; once it is absent the filter settles again (R223). -/
def State.sdCond (s : State) (c : Nat) (x : SdX) : State := (s.setSd c { x with settle := 3 }).sdJudge c

/-- The channels of a group whose clock the device drives have lost no clock (R223). -/
def State.sdDir (s : State) (g : Nat) : State :=
  if s.on MFE.DIR 0 g then s
  else s.forN 8 (fun s i =>
    let x := sget {} s.sd (8 * g + i)
    if x.clkLost then s.sdCond (8 * g + i) { x with clkLost := false } else s)

/-- Sigma-delta channel `c` after a write of its enable or ratio: a change settles the filters anew, and a fault condition that stands shows (R222, R223). -/
def State.sdChanged (s : State) (c : Nat) (changed : Bool) : State :=
  ((s.when changed (fun s => s.setSd c { sget {} s.sd c with settle := 3, limRun := 0 })).sdJudge c).allTrips

/-- R223: the received clock of a group is lost or returns. -/
def execSdClockLoss (t : Nat) (grp : Fin 4) (lost : Bool) (s : State) : Host.Outcome State Fault Refusal :=
  s.runK .field t fun s =>
    if lost && s.r MFE.DIR 0 grp == 0 then s
    else s.forN 8 (fun s i =>
      let c := 8 * grp.val + i
      s.sdCond c { sget {} s.sd c with clkLost := lost })

/-- R223: a data input has not changed for 256 modulator clocks, or changes again. -/
def execSdDataStuck (t : Nat) (ch : Fin 32) (stuck : Bool) (s : State) : Host.Outcome State Fault Refusal :=
  s.runK .field t fun s => s.sdCond ch { sget {} s.sd ch with stuck := stuck }

/-! ### SAR converter (R225 to R227) -/

/-- The channel of slot `j` of a sequence. -/
def State.sarSlot (s : State) (b : Bool) (j : Nat) : Nat :=
  bitsAt (s.r (if b then MFE.SEQ_B else MFE.SEQ_A) 0 (j / 8)) (4 * (j % 8)) 3

/-- The converter takes the next slot at instant `t`: sequence B has precedence (R226). -/
def State.sarNext (s : State) (t : Nat) : State :=
  if s.sar.converting.isSome then s
  else match s.sar.runB, s.sar.runA with
    | some (j, _), _ => { s with sar := { s.sar with converting := some (true, s.sarSlot true j), convAt := t } }
    | none, some (j, _) => { s with sar := { s.sar with converting := some (false, s.sarSlot false j), convAt := t } }
    | none, none => s

/-- A trigger of a sequence; one that runs or waits drops it, and the event names the channel in conversion (R226, R240). -/
def State.sarTrigger (s : State) (b : Bool) : State :=
  if !s.enabled 19 then s
  else if (if b then s.sar.runB else s.sar.runA).isSome then
    (s.inc (if b then MFE.OVERRUN_B else MFE.OVERRUN_A)).raise 19 0 3 [1, (s.sar.converting.map (·.2)).getD 0, 0]
  else
    let x := some (0, s.now)
    (if b then { s with sar := { s.sar with runB := x } } else { s with sar := { s.sar with runA := x } }).sarNext s.now

/-- TRIG of a sequence; TIME is taken as SOFT for sequence B (R225). -/
def State.sarTrig (s : State) (b : Bool) : Nat :=
  let g := s.r MFE.TRIG 0 b.toNat
  if b && g == 1 then 0 else g

/-- R225: START_A. -/
def execSarStartA (t : Nat) (r : Requester) (s : State) : Host.Outcome State Fault Refusal :=
  s.cmdK t fun s => s.pageWrite r ⟨19, 0⟩ true fun s => if s.sarTrig false = 0 then s.sarTrigger false else s

/-- R225: START_B. -/
def execSarStartB (t : Nat) (r : Requester) (s : State) : Host.Outcome State Fault Refusal :=
  s.cmdK t fun s => s.pageWrite r ⟨19, 0⟩ true fun s => if s.sarTrig true = 0 then s.sarTrigger true else s

/-- R225: an instant of sequence A's TIME trigger. -/
def execSarTimeTrigger (t : Nat) (s : State) : Host.Outcome State Fault Refusal :=
  s.runK .field t fun s => if s.sarTrig false = 1 ∧ s.onSeries (s.r MFE.PERIOD_US) (s.r MFE.PHASE_US) = true then s.sarTrigger false else s

/-- The sequences that a PWM output triggers; B goes first (R225, R226). -/
def State.sarPwm (s : State) (o trig : Nat) : State :=
  let go := fun (s : State) (b : Bool) =>
    if s.sarTrig b = trig ∧ s.r MFE.PWM_OUT 0 b.toNat = o then s.sarTrigger b else s
  go (go s true) false

/-- A SAR channel is faulted while its latest code lies outside its limits (R227). -/
def State.sarFault (s : State) (c : Nat) : Bool :=
  s.sar.coded.getLsbD c && decide (s.r MFE.CODE 0 c < s.r MFE.FAULT_LO 0 c ∨ s.r MFE.FAULT_HI 0 c < s.r MFE.CODE 0 c)

/-- The fault of a SAR channel after a write of its limits (R227). -/
def State.sarJudge (s : State) (c : Nat) : State :=
  if s.mfeBit (32 + c) 0 = s.sarFault c then s
  else ((s.setMfeBit (32 + c) 0 (s.sarFault c)).refresh (32 + c)).mfeEvents 1 c

/-- R225 to R227: the conversion in progress completes with a code 1 µs after it began, and the next slot follows. -/
def execSarConversionDone (t : Nat) (code : BitVec 16) (s : State) : Host.Outcome State Fault Refusal :=
  s.runK .field t fun s =>
    match s.sar.converting with
    | none => s
    | some (b, c) =>
      if s.now < s.sar.convAt + 1000 then s
      else
      let n := code.toNat
      let v := sat 32 (onGrid (s.ri MFE.SAR_GAIN 0 c * (n : Int)) (-32) (-16) + s.ri MFE.SAR_OFFSET 0 c)
      let s := (s.w MFE.CODE n 0 c).wi MFE.RECORD v 0 (32 + c)
      let s := { s with sar := { s.sar with coded := s.sar.coded ||| (1#8 <<< c) } }
      let s := (s.setMfeBit (32 + c) 0 (s.sarFault c)).setMfeBit (32 + c) 1 (n == 0 || n == 0xFFFF)
      let step := fun (q : Option (Nat × Nat)) (len : Nat) => match q with
        | some (j, t0) => if j < len then some (j + 1, t0) else none
        | none => none
      let x := { s.sar with converting := none, valueAt := sset 0 s.sar.valueAt c s.now }
      let x := if b then { x with runB := step x.runB (s.r MFE.LEN 0 1) } else { x with runA := step x.runA (s.r MFE.LEN 0 0) }
      let s := { s with sar := x }
      ((s.refresh (32 + c)).mfeEvents 1 c).sarNext (x.convAt + 1000)

/-! ### Pulse inputs (R228 to R230) -/

/-- Replace a pulse input. -/
def State.setPulse (s : State) (c : Nat) (x : PulseX) : State := { s with pulse := sset {} s.pulse c x }

/-- R228 to R230: a filtered edge of a pulse input, stamped on the 5 ns grid of the time base at or before it (DESIGN CHOICE, assumption 139). -/
def execPulseEdge (t : Nat) (ch : Fin 16) (fall : Bool) (s : State) : Host.Outcome State Fault Refusal :=
  s.runK .field t fun s =>
    let e := s.r MFE.EDGE 0 ch
    if !s.enabled 19 ∨ (e = 0 ∧ fall) ∨ (e = 1 ∧ !fall) then s
    else
      let x := sget {} s.pulse ch
      let n := x.wraps + 1
      let at5 := s.now / 5 * 5
      let x := { x with wraps := n, tLast := at5, tout := false,
                        edges := if x.tRef.isSome then x.edges + 1 else 0, tRef := some (x.tRef.getD at5) }
      let s := ((s.setPulse ch x).w MFE.STATUS n 0 (40 + ch.val)).w MFE.WRAPS (n / 2 ^ 32) 0 ch
      let s := s.w MFE.PULSE_FAULT (putBit (s.r MFE.PULSE_FAULT) ch false)
      (s.refresh (40 + ch.val)).mfeEvents 2 ch

/-- R229: the end of a gate. -/
def execPulseGateEnd (t : Nat) (ch : Fin 16) (s : State) : Host.Outcome State Fault Refusal :=
  s.runK .field t fun s =>
    let x := sget {} s.pulse ch
    match x.tRef with
    | none => s
    | some t0 =>
      if !s.enabled 19 ∨ x.edges = 0 ∨ x.tLast ≤ t0 then s
      else
        let f := divRound (s.ri MFE.P_GAIN 0 ch * x.edges * 1000000000) ((x.tLast : Int) - t0)
        let v := sat 32 (f + s.ri MFE.P_OFFSET 0 ch * 65536)
        let s := (s.setPulse ch { x with tRef := some x.tLast, edges := 0 }).wi MFE.RECORD v 0 (40 + ch.val)
        s.refresh (40 + ch.val)

/-- R230: TMO_MS has passed without an edge. -/
def execPulseTimeout (t : Nat) (ch : Fin 16) (s : State) : Host.Outcome State Fault Refusal :=
  s.runK .field t fun s =>
    let x := sget {} s.pulse ch
    if !s.enabled 19 ∨ x.tout ∨ s.now < x.tLast + 1000000 * s.r MFE.TMO_MS 0 ch then s
    else
      let s := (s.setPulse ch { x with tRef := none, edges := 0, tout := true }).w MFE.RECORD 0 0 (40 + ch.val)
      let s := if s.on MFE.FAULT_ON_TMO 0 ch then s.w MFE.PULSE_FAULT (putBit (s.r MFE.PULSE_FAULT) ch true) else s
      (s.refresh (40 + ch.val)).mfeEvents 2 ch

/-! ### PWM outputs (R231 to R238) -/

/-- The compare value C in ticks (R232). -/
def pwmCompare (duty period minPulse : Nat) : Nat :=
  let c := (duty * period + 2 ^ 15) / 2 ^ 16
  if c < minPulse then 0 else if period - c < minPulse then period else c

/-- The nominal on interval of a period (R233). -/
def onInterval (centre : Bool) (c period : Nat) : Nat × Nat :=
  if centre then ((period - c) / 2, (period - c) / 2 + c) else (0, c)

/-- The on intervals that the edges of a nominal signal give an output: it turns on `dead` ticks after each edge to level `lv` and off at the next edge, or at `last` where none is known yet; an interval that is no longer than the dead time, or whose rest is shorter than `least`, gives no pulse. What was decided before tick `u` stands: `old` holds the intervals begun before (R233). -/
def pulses (lv : Bool) (dead least : Nat) (old : List (Int × Int)) (u last : Int) : List (Int × Bool) → List (Int × Int)
  | [] => []
  | (x, l) :: es =>
    let y := (es.head?.map (·.1)).getD last
    let rest := pulses lv dead least old u last es
    if l ≠ lv then rest
    else if x + dead < u then
      match old.find? (fun i => decide (x ≤ i.1) && decide (i.1 < u)) with
      | some i => (i.1, y) :: rest
      | none => rest
    else if y - (x + dead) < max 1 (least : Int) then rest
    else (x + dead, y) :: rest

/-- The edges of the nominal signal from tick `u` of a period on, with the on interval `iv`, after the edges `old` before it. -/
def edgesFrom (old : List (Int × Bool)) (u period : Int) (iv : Nat × Nat) : List (Int × Bool) :=
  let before := old.filter (fun e => decide (e.1 < u))
  let now := decide ((iv.1 : Int) ≤ u) && decide (u < iv.2)
  let first := if (before.getLast?.map (·.2)) = some now then [] else [(u, now)]
  let later := if iv.1 = iv.2 then [] else [((iv.1 : Int), true), ((iv.2 : Int), false)]
  before ++ first ++ later.filter (fun e => decide (u < e.1) && decide (e.1 < period))

/-- An output is the second of a pair: its own period registers are ignored (R233). -/
def State.pwmSecond (s : State) (o : Nat) : Bool := o % 2 == 1 && s.on ACT.PAIR 0 (o - 1)

/-- The outputs that run on the period of output `o`. -/
def State.pwmGroup (s : State) (o : Nat) : List Nat :=
  if o % 2 = 0 ∧ o + 1 < 24 ∧ s.on ACT.PAIR 0 o then [o, o + 1] else [o]

/-- An update point: of the duties staged at least 40 ns before, the last applies; without one, SAFE_DUTY where the duty has been lost (R234, R235). -/
def State.pwmUpdate (s : State) (o : Nat) : State :=
  let x := sget {} s.pwm o
  let due := x.staged.filter (fun d => decide (d.1 + 40 ≤ s.now))
  match due.getLast? with
  | some d => (s.w ACT.DUTY_APPLIED d.2 0 o).setPwm o
      { x with staged := x.staged.filter (fun d => decide (s.now < d.1 + 40)), lostNext := false, onSafe := false }
  | none =>
    if x.lostNext then (s.w ACT.DUTY_APPLIED (s.r ACT.SAFE_DUTY 0 o) 0 o).setPwm o { x with lostNext := false, onSafe := true }
    else s

/-- The level of an output at a period start: IDLE while the block is disabled or the output is off, TRIP_LVL while a trip holds it (R236 to R238). -/
def State.pwmLevel (s : State) (o : Nat) (mode : Nat) : Nat :=
  if !s.enabled 20 then 0 else if (sget {} s.pwm o).tripped then 2 else if mode = 0 then 0 else 1

/-- From tick `u` of the running period on, the outputs of a group follow the duty in force (R232, R233). -/
def State.pwmShape (s : State) (o : Nat) (u : Int) : State :=
  let x := sget {} s.pwm o
  let p := x.period
  let m := s.r ACT.MIN_PULSE_T 0 o
  let mode := s.r ACT.MODE 0 o
  let pair := s.on ACT.PAIR 0 o
  let c := pwmCompare (s.r ACT.DUTY_APPLIED 0 o) p m
  let iv := onInterval (mode == 2) c p
  let es := edgesFrom x.edges u p iv
  -- an edge that no later period of the same duty brings lies beyond every dead time and least pulse
  let never : Int := p + 2 ^ 17
  let dead := fun (f : Fld) => if pair then s.r f 0 o else 0
  let least := if pair then m else 0
  let lit := pulses true (dead ACT.DEAD_RISE) least x.lit u (if c = p then never else p) es
  let comp := pulses false (dead ACT.DEAD_FALL) least x.comp u (if c = 0 then never else p + iv.1) es
  let s := s.setPwm o { x with edges := es, lit := lit, comp := comp }
  (s.pwmGroup o).foldl (fun s q =>
    s.setPwm q { sget {} s.pwm q with period := p, lit := if q = o then lit else comp, level := s.pwmLevel q mode }) s

/-- The tick of the time base, within this nanosecond, that lies `off` ticks after a period start of an output (R231). -/
def State.pwmTick (s : State) (o off : Nat) : Option Nat :=
  let p := s.r ACT.PERIOD_T 0 o
  ((List.range 4).map (4 * s.now + ·)).find? (fun k => k % p == (s.r ACT.PHASE_T 0 o + off) % p)

/-- A period of an output starts at tick `k`: the counts of R235 advance, the edges of the nominal signal carry over from the period that ended, the update point applies, and an output whose trip is cleared resumes. -/
def State.pwmStart (s : State) (o k : Nat) : State :=
  let x := sget {} s.pwm o
  let goes := x.started && x.busy.isNone
  let carry := fun (l : List (Int × Int)) => if goes then l.map (fun (i : Int × Int) => (i.1 - (x.period : Int), i.2 - (x.period : Int))) else []
  let s := s.setPwm o { x with
    silent := if x.wrote then 0 else x.silent + 1, wrote := false, startAt := some k, period := s.r ACT.PERIOD_T 0 o, busy := none,
    edges := if goes then (x.edges.getLast?.map (fun (e : Int × Bool) => (e.1 - (x.period : Int), e.2))).toList else [],
    lit := carry x.lit, comp := carry x.comp }
  let s := s.pwmUpdate o
  let s := (s.pwmGroup o).foldl (fun s q =>
    let y := sget {} s.pwm q
    if y.tripped && !s.tripLatched q && decide (y.clearAt + 5 ≤ s.now) then s.setPwm q { y with tripped := false } else s) s
  s.pwmShape o 0

/-- A period start or centre of an output triggers the SAR sequences that name it; both outputs of a pair have the period of the even one (R225, R233). -/
def State.pwmTriggers (s : State) (o trig : Nat) : State := (s.pwmGroup o).foldl (fun s q => s.sarPwm q trig) s

/-- R231 to R238: a period of an output starts. After a step of the time base, periods start only once the running period has completed. -/
def execPwmPeriodStart (t : Nat) (o : Fin 24) (s : State) : Host.Outcome State Fault Refusal :=
  s.runK .field t fun s =>
    let x := sget {} s.pwm o
    match s.pwmTick o 0 with
    | none => s
    | some k =>
      if !s.enabled 20 ∨ s.pwmSecond o ∨ x.startAt = some k ∨ k < x.busy.getD 0 then s
      else (s.pwmStart o k).pwmTriggers o 2

/-- R234: a period centre, an update point with UPDATE = HALF in CENTRE mode. The centre of a period lies half its ticks, rounded down, after its start (assumption 140). -/
def execPwmCentre (t : Nat) (o : Fin 24) (s : State) : Host.Outcome State Fault Refusal :=
  s.runK .field t fun s =>
    let x := sget {} s.pwm o
    match x.startAt with
    | none => s
    | some k =>
      let h := x.period / 2
      if !s.enabled 20 ∨ s.pwmSecond o ∨ k + h < 4 * s.now ∨ 4 * s.now + 4 ≤ k + h then s
      else
        let s := if s.r ACT.MODE 0 o = 2 ∧ s.on ACT.UPDATE 0 o then (s.pwmUpdate o).pwmShape o h else s
        s.pwmTriggers o 3

/-- No output runs on without its duty any longer: the raw bit of DUTY_TIMEOUT shows whether one does (R235, R242). -/
def State.showLost (s : State) : State :=
  if (List.range 24).any (fun o => s.on ACT.DUTY_LOST 0 o) then s else s.setEvtRaw 20 0 4 false

/-- A duty is staged (R234, R235): of those that every later update point could take, the last is enough. -/
def State.stageDuty (s : State) (o v : Nat) : State :=
  let x := sget {} s.pwm o
  let old := (x.staged.filter (fun d => decide (d.1 + 40 ≤ s.now))).getLast?.toList
  let young := x.staged.filter (fun d => decide (s.now < d.1 + 40))
  (((s.w ACT.DUTY v 0 o).w ACT.DUTY_LOST 0 0 o).setPwm o
    { x with staged := old ++ young ++ [(s.now, v)], wrote := true, silent := 0, lostNext := false }).showLost

/-- A duty written by a loop route, discarded with DUTY_SRC = REG (R234). -/
def State.routeDuty (s : State) (o v : Nat) : State := if s.r ACT.DUTY_SRC 0 o = 0 then s.stageDuty o v else s

/-- R234: a write of DUTY by a requester or a loop route. A write in the page is discarded with DUTY_SRC = ROUTE. -/
def execDutyWrite (t : Nat) (w : DutyWriter) (o : Fin 24) (v : BitVec 16) (s : State) :
    Host.Outcome State Fault Refusal :=
  s.cmdK t fun s =>
    match w with
    | .route => if s.islandOn .field then s.routeDuty o v.toNat else s.gated (pageAddr ⟨20, 0⟩)
    | .page r => s.pageWrite r ⟨20, 0⟩ true fun s => if s.on ACT.DUTY_SRC 0 o then s.stageDuty o v.toNat else s

/-- R235, R494: DUTY_TMO periods have passed without a write; a standby does not apply DUTY_TMO. -/
def execDutyTimeout (t : Nat) (o : Fin 24) (s : State) : Host.Outcome State Fault Refusal :=
  s.runK .field t fun s =>
    let n := s.r ACT.DUTY_TMO 0 o
    let x := sget {} s.pwm o
    if n = 0 ∨ x.silent < n ∨ !s.enabled 20 ∨ x.lostNext ∨ x.onSafe ∨ s.r DCH.ROLE = 1 ∨ s.r DCH.ROLE = 2 ∨ x.staged ≠ [] then s
    else ((s.setPwm o { x with lostNext := true }).w ACT.DUTY_LOST 1 0 o).recur 20 0 4 [o.val, 0]

/-- ENABLE of the ACT page rises or falls (R237, R238): outputs idle at once; when it rises they start with the DUTY then staged, and those that a latched trip holds take TRIP_LVL. -/
def State.actEnable (s : State) (on : Bool) : State :=
  s.forN 24 (fun s o =>
    let x := sget {} s.pwm o
    s.setPwm o { x with startAt := none, busy := none, edges := [], lit := [], comp := [], silent := 0, onSafe := false,
                        staged := if on && x.staged == [] then [(0, s.r ACT.DUTY 0 o)] else x.staged,
                        tripped := s.tripLatched o, level := if on && s.tripLatched o then 2 else 0 })

/-- ENABLE of the MFE page rises: the filters settle anew (R222), and a fault condition that stands shows (R223). -/
def State.mfeEnable (s : State) : State :=
  (s.forN 32 (fun s c => s.setSd c { sget {} s.sd c with settle := 3, limRun := 0 })).forN 32 State.sdJudge

end Sys2Proof.Machine
end

