-- ==== Sys2Proof/Machine/Cle.lean ====
section
/-! DEFINITION. The control loop engine (R172 to R217). -/

namespace Sys2Proof.Machine

/-! ### Loop memory (R173, R215) -/

/-- The reset value of word `w` of a slot. -/
def loopRst (w : Nat) : Word :=
  match w with
  | 0 => 0x00300008
  | 1 => 100000
  | 4 => 0x01000000
  | 7 => 0x01000000
  | 10 => 0x7FFFFFFF
  | 11 => 0x80000000
  | 12 => 0x7FFFFFFF
  | 15 => 0x01400000
  | 20 => 0x01400000
  | 30 => 0x01400000
  | 32 => 0x80000000
  | 33 => 0x7FFFFFFF
  | 34 => 0x7FFFFFFF
  | 38 => 0x01000000
  | 41 => 0x01000000
  | 43 => 1
  | _ => 0

/-- Word `w` of the slot of loop `g`. -/
def State.lw (s : State) (g w : Nat) : Nat := (sget (loopRst w) s.loopMem (64 * g + w)).toNat

/-- A signed word of a slot. -/
def State.lwi (s : State) (g w : Nat) : Int := sgn 32 (s.lw g w)

/-- Write a word of a slot. -/
def State.setLw (s : State) (g w v : Nat) : State :=
  { s with loopMem := sset (loopRst w) s.loopMem (64 * g + w) (BitVec.ofNat 32 v) }

/-- Write a signed word of a slot. -/
def State.setLwi (s : State) (g w : Nat) (v : Int) : State := s.setLw g w (bits 32 v)

/-- A bit of STATUS of a loop. -/
def State.loopBit (s : State) (g b : Nat) : Bool := (s.lw g 48).testBit b

/-- Set or clear a bit of STATUS of a loop. -/
def State.setLoopBit (s : State) (g b : Nat) (v : Bool) : State := s.setLw g 48 (putBit (s.lw g 48) b v)

/-- A loop beside its slot words. -/
def State.loop (s : State) (g : Nat) : LoopX := sget {} s.loops g

/-- Replace a loop's record. -/
def State.setLoop (s : State) (g : Nat) (x : LoopX) : State := { s with loops := sset {} s.loops g x }

/-- A cluster beside its registers. -/
def State.cluster (s : State) (c : Nat) : ClusterX := sget {} s.clusters c

/-- Replace a cluster's record. -/
def State.setCluster (s : State) (c : Nat) (x : ClusterX) : State := { s with clusters := sset {} s.clusters c x }

/-- MODE in word 0 of a configuration. -/
def cfgMode (w0 : Nat) : Nat := w0 % 8

/-- Word `w` of the staging copy of a cluster. -/
def State.staged (s : State) (c w : Nat) : Nat := (sget (loopRst w) (s.cluster c).stage w).toNat

/-- The active configuration of a loop: its words other than the reset value. -/
def State.config (s : State) (g : Nat) : List (Nat × Word) :=
  (List.range 48).foldl
    (fun (m : List (Nat × Word)) (w : Nat) => sset (loopRst w) m w (BitVec.ofNat 32 (s.lw g w))) []

/-- Load the staging copy of a cluster from the active configuration of a slot (R210). -/
def State.loadStage (s : State) (c slot : Nat) : State :=
  s.setCluster c { s.cluster c with stage := s.config (128 * c + slot) }

/-- The unit follows its pair's active unit and runs no loops of its own (R494). -/
def State.follows (s : State) : Bool := s.r DCH.ROLE == 1 || s.r DCH.ROLE == 2

/-- Payload bytes 16 to 22 of a CLE event (R217). -/
def State.loopPay (s : State) (g cause : Nat) : List Nat := leBytes 2 g ++ leBytes 4 (s.lw g 48) ++ [cause]

/-- Raise a loop event. -/
def State.loopEvt (s : State) (g bit : Nat) (cause : Nat := 0) (extra : List Nat := []) : State :=
  s.raise 18 (g / 128) bit (s.loopPay g cause) extra

/-! ### Block floating point (R181 to R185): each bound taken counts one saturation -/

/-- Saturation to `w` bits, counted. -/
def satN (w : Nat) (x : Int) : StateM Nat Int := fun n => (sat w x, n + (overflows w x).toNat)

/-- on_grid of R183, counted. -/
def grid (a ea g : Int) : StateM Nat Int :=
  if g ≤ ea then satN 72 (a * 2 ^ (ea - g).toNat) else pure (roundShift a (g - ea).toNat)

/-- The sum of terms in the 72-bit saturating accumulator. -/
def sum72 (xs : List Int) : StateM Nat Int := xs.foldlM (fun a b => satN 72 (a + b)) 0

/-- c.m of a coefficient word (R182). -/
def cfMan (c : Nat) : Int := sgn 24 c

/-- c.e of a coefficient word (R182). -/
def cfExp (c : Nat) : Int := sgn 6 (c / 2 ^ 24)

/-- Tq of R183 on the grid of exponent `e`. -/
def termQ (e : Int) (c : Nat) (v : Int) : StateM Nat Int := grid (cfMan c * v) (cfExp c - 39) (e - 39)

/-- Tm of R183. -/
def termM (e : Int) (c : Nat) (m : Int) : StateM Nat Int := grid (cfMan c * m) (cfExp c + e - 46) (e - 39)

/-- Q of R183. -/
def onQ (e v : Int) : StateM Nat Int := grid v (-16) (e - 39)

/-- M of R183. -/
def onM (e m : Int) : StateM Nat Int := grid m (e - 23) (e - 39)

/-- q16 of R183. -/
def toQ16 (e v : Int) : StateM Nat Int := do satN 32 (← grid v (e - 39) (-16))

/-- The exponent that renorm of R184 raises to, by at most `n` steps. -/
def renormUp (a e : Int) : Nat → Int → Int
  | 0, x => x
  | n + 1, x => if x < 31 ∧ 2 ^ (38 + x - e).toNat ≤ a then renormUp a e n (x + 1) else x

/-- renorm of R184 for two stored values. -/
def renorm (v1 v2 e eMin : Int) : StateM Nat (Int × Int × Int) := do
  let a := max |v1| |v2|
  let up := renormUp a e 63 e
  let e' := if up = e ∧ eMin < e ∧ a < 2 ^ 36 then e - 1 else up
  let sh := (16 + e' - e).toNat
  pure (← satN 24 (roundShift v1 sh), ← satN 24 (roundShift v2 sh), e')

/-- The state of a stage: two mantissas and the exponent. -/
structure Stage where
  a : Int := 0
  b : Int := 0
  e : Int := 0
  deriving DecidableEq, Repr

/-- biquad of R192, with its five coefficients from word `k` of the configuration on. -/
def biquad (cfg : Nat → Nat) (k : Nat) (eMin : Int) (st : Stage) (x : Int) : StateM Nat (Int × Stage) := do
  let y ← toQ16 st.e (← sum72 [← termQ st.e (cfg k) x, ← onM st.e st.a])
  let s1 ← sum72 [← termQ st.e (cfg (k + 1)) x, -(← termQ st.e (cfg (k + 3)) y), ← onM st.e st.b]
  let s2 ← sum72 [← termQ st.e (cfg (k + 2)) x, -(← termQ st.e (cfg (k + 4)) y)]
  let (a, b, e) ← renorm s1 s2 st.e eMin
  pure (y, ⟨a, b, e⟩)

/-! ### Sources (R186 to R188) -/

/-- A word of logic data memory as it stood before this instant: where the plan values of this instant have been applied, the plan-interface words are those from before (R24, R175). -/
def State.dwordBefore (s : State) (w : Nat) : Word :=
  if planWord w = true ∧ s.ho.planAt = some s.now then s.forceWord 4 w (sget 0 s.ho.prevPlan w) else s.dwordSeen w

/-- The raw value of a source word and whether the source is bad (R186). -/
def State.rawSource (s : State) (w : Nat) : Int × Bool :=
  let i := w / 256
  let lp := fun (k : Nat) => (s.lwi (i % 512) k,
    s.lw (i % 512) 48 % 8 == 0 || s.loopBit (i % 512) 3 || s.loopBit (i % 512) 13)
  match w % 16 with
  | 1 => (sgn 32 (sget 0 s.ho.values i).toNat, false)
  | 2 => (s.ri MFE.RECORD 0 i, s.mfeBit i 0)
  | 3 => (s.ri MFE.RECORD 0 (32 + i), s.mfeBit (32 + i) 0)
  | 4 => (s.ri MFE.RECORD 0 (40 + i), (s.r MFE.PULSE_FAULT).testBit i)
  | 5 => (s.r MFE.STATUS 0 (40 + i), (s.r MFE.PULSE_FAULT).testBit i)
  | 6 => (sgn 32 (s.siWord i).toNat, s.stnQ (i / 64) != .fresh)
  | 7 => lp 49
  | 8 => lp 51
  | 9 => (sgn 32 (s.dwordBefore i).toNat, false)
  | _ => (0, false)

/-- source of R187. -/
def sourceVal (w gain : Nat) (off raw : Int) : StateM Nat Int := do
  let f : Int := if w % 16 = 0 ∨ w % 16 = 5 ∨ w % 16 = 6 ∨ w % 16 = 9 then 24 else 40
  satN 32 ((← grid (sgn 32 gain * raw) (-f) (-16)) + off)

/-! ### One update (R189 to R199, R205) -/

/-- max(1, round(rate × PERIOD_US / 10⁶)) of R189 and R196. -/
def perUpdate (rate period : Nat) : Int := max 1 (divRound ((rate : Int) * period) 1000000)

/-- What an update computes before the PID stage. -/
structure Front where
  pv : Int := 0
  ff : Int := 0
  target : Int := 0
  r : Int := 0
  yf : Int := 0
  bq1 : Stage := {}
  bq2 : Stage := {}
  ei : Int := 0
  deriving DecidableEq, Repr

/-- sg of R193. -/
def cfgSign (cfg : Nat → Nat) : Int := if (cfg 0).testBit 10 then -1 else 1

/-- E_MIN of a configuration. -/
def cfgEMin (cfg : Nat → Nat) : Int := sgn 6 (cfg 0 / 2 ^ 16)

/-- The setpoint path and the measurement path (R187 to R192) and the integral error of R193. `hold` is the setpoint that a tune holds. -/
def loopFront (cfg : Nat → Nat) (job : UpdJob) (fresh : Bool) (rPrev : Int) (hold : Option Int) (b1 b2 : Stage) :
    StateM Nat Front := do
  let pv ← sourceVal (cfg 3) (cfg 4) (sgn 32 (cfg 5)) job.pv
  let ff ← sourceVal (cfg 13) 0x01000000 0 job.ff
  let sp ← if cfg 6 % 16 = 0 then pure (sgn 32 (cfg 9)) else sourceVal (cfg 6) (cfg 7) (sgn 32 (cfg 8)) job.sp
  let target := clampI (sgn 32 (cfg 11)) (sgn 32 (cfg 12)) sp
  let r0 := if fresh then (if (cfg 0).testBit 15 then pv else target) else rPrev
  let step := perUpdate (cfg 10) (cfg 1)
  let r := hold.getD (clampI (r0 - step) (r0 + step) target)
  let eMin := cfgEMin cfg
  let (y1, b1) ← if (cfg 0).testBit 6 then pure (pv, b1) else biquad cfg 15 eMin b1 pv
  let (yf, b2) ← if (cfg 0).testBit 7 then pure (y1, b2) else biquad cfg 20 eMin b2 y1
  let ei ← satN 32 (cfgSign cfg * (r - yf))
  pure { pv := pv, ff := ff, target := target, r := r, yf := yf, bq1 := b1, bq2 := b2, ei := ei }

/-- The effective modes of R195, by their code. -/
def effMode (mode pvFail : Nat) (bad tune : Bool) : Nat :=
  if bad then (if pvFail = 1 then 4 else if pvFail = 2 then 5 else mode) else if tune then 3 else mode

/-- What an update leaves. -/
structure Back where
  ul : Int := 0
  pid : Stage := {}
  bq1 : Stage := {}
  bq2 : Stage := {}
  edp : Int := 0
  wPrev : Int := 0
  hi : Bool := false
  lo : Bool := false
  rate : Bool := false
  deriving DecidableEq, Repr

/-- The PID stage, the output filters, the limits and the tracking of R193 to R199. `keepU` is the bumpless first update of R199. -/
def loopBack (cfg : Nat → Nat) (f : Front) (st : Stage) (edp wPrev outPrev urc relay : Int) (eff : Nat) (keepU : Bool) :
    StateM Nat Back := do
  let e := st.e
  let sg := cfgSign cfg
  let ep ← satN 32 (sg * ((← toQ16 e (← termQ e (cfg 30) f.r)) - f.yf))
  let ed ← satN 32 (sg * ((← toQ16 e (← termQ e (cfg 31) f.r)) - f.yf))
  let clampAw := (cfg 0).testBit 5
  let inhibit : Bool := clampAw && ((decide (wPrev < 0) && decide (0 < f.ei)) || (decide (0 < wPrev) && decide (f.ei < 0)))
  let iTerm ← if inhibit then pure 0 else termQ e (cfg 26) f.ei
  let aw ← if clampAw then pure 0 else termQ e (cfg 29) wPrev
  let mI ← onM e st.a
  let mD ← onM e st.b
  let i1 ← sum72 [mI, iTerm, aw]
  let d1 ← sum72 [← termM e (cfg 28) st.b, ← termQ e (cfg 27) (← satN 32 (ed - edp))]
  let u0 ← toQ16 e (← sum72 [← termQ e (cfg 25) ep, i1, d1, ← termQ e (cfg 14) f.ff, ← onQ e urc])
  let eMin := cfgEMin cfg
  let (u1, b1) ← if (cfg 0).testBit 6 then biquad cfg 15 eMin f.bq1 u0 else pure (u0, f.bq1)
  let (u2, b2) ← if (cfg 0).testBit 7 then biquad cfg 20 eMin f.bq2 u1 else pure (u1, f.bq2)
  let i2 ← if keepU then do sum72 [i1, ← onQ e (← satN 32 (outPrev - u2))] else pure i1
  let u := if keepU then outPrev else u2
  let want := if eff = 2 then u else if eff = 1 then sgn 32 (cfg 36) else if eff = 3 then relay
    else if eff = 4 then outPrev else sgn 32 (cfg 35)
  let hi := sgn 32 (cfg 33)
  let lo := sgn 32 (cfg 32)
  let bd := clampI lo hi want
  let step := perUpdate (cfg 34) (cfg 1)
  let ul := if eff = 4 ∨ eff = 5 then bd else clampI (outPrev - step) (outPrev + step) bd
  let diff ← if eff = 4 then pure 0 else satN 32 (ul - u)
  let i3 ← if eff = 1 ∨ eff = 3 ∨ eff = 5 then do sum72 [i2, ← onQ e diff] else pure i2
  let (a, b, e') ← if eff = 4 then renorm mI mD e eMin else renorm i3 d1 e eMin
  pure { ul := ul, pid := ⟨a, b, e'⟩, bq1 := b1, bq2 := b2, edp := ed, wPrev := if eff = 2 then diff else 0,
         hi := decide (hi < want), lo := decide (want < lo), rate := decide (ul ≠ bd) }

/-! ### The repetitive controller (R203 to R206) -/

/-- A word of the repetitive-controller memory, as a mantissa. -/
def State.rcWord (s : State) (a : Nat) : Int := sgn 24 (sget 0 s.rcMem a).toNat

/-- Write a mantissa into the repetitive-controller memory (R203: bits [31:24] read 0). -/
def State.setRcWord (s : State) (a : Nat) (m : Int) : State :=
  { s with rcMem := sset 0 s.rcMem a (BitVec.ofNat 32 (bits 24 m)) }

/-- RC_LEN of a configuration. -/
def cfgRcLen (w43 : Nat) : Nat := w43 % 8192

/-- The value that the learning law of R205 writes, with `rd` reading the buffer at a position. -/
def rcLearn (cfg : Nat → Nat) (rd : Nat → Int) (q len : Nat) (ei : Int) : StateM Nat Int := do
  let e := sgn 6 (cfg 43 / 2 ^ 25)
  let v ← sum72 [← termM e (cfg 47) (rd ((q + len - 1) % len)), ← termM e (cfg 46) (rd q),
    ← termM e (cfg 47) (rd ((q + 1) % len)), ← termQ e (cfg 45) ei]
  satN 24 (roundShift v 16)

/-! ### The relay auto-tune (R207 to R209) -/

/-- Fold the extremes of the cycle (R207 step 3). -/
def TuneX.seen (x : TuneX) (yf : Int) : TuneX := { x with yMax := max x.yMax yf, yMin := min x.yMin yf }

/-- Step 2 and 3 of R207 for one update: relay output, and the cycle that a switch to b + d ends. -/
def TuneX.relayStep (x : TuneX) (d h period : Nat) (ei yf : Int) (t : Nat) : TuneX :=
  let out := if (h : Int) < ei then x.bias + d else if ei < -(h : Int) then x.bias - d else x.relay
  let x := { x with samples := x.samples + 1, lastSwitch := if out = x.relay then x.lastSwitch else t }
  if out = x.bias + d ∧ x.relay ≠ out then
    let cyc := if x.switched then x.cycles ++ [(x.samples * period, x.yMax - x.yMin)] else x.cycles
    { x with relay := out, switched := true, samples := 0, cycles := cyc, yMax := yf, yMin := yf }
  else { x.seen yf with relay := out }

/-- Step 4 of R207: the last two cycles agree; answers the sums of their periods and of their doubled amplitudes. -/
def TuneX.converged (x : TuneX) : Option (Nat × Int) :=
  match x.cycles.reverse with
  | (t1, a1) :: (t0, a0) :: _ :: _ =>
    if 20 * |(t1 : Int) - t0| ≤ t1 ∧ 20 * |a1 - a0| ≤ a1 then some (t1 + t0, a1 + a0) else none
  | _ => none

/-- The smallest exponent from −32 on, tried `n` times, at which the quotient's mantissa stays below 2²³. -/
def cfFit (num den : Nat) : Nat → Int → Option (Nat × Int)
  | 0, _ => none
  | n + 1, e =>
    let m := (divRound ((num : Int) * 2 ^ 64) ((den : Int) * 2 ^ (41 + e).toNat)).toNat
    if m < 2 ^ 23 then some (m, e) else cfFit num den n (e + 1)

/-- The nearest coefficient word with a mantissa in [2²², 2²³), or 0 (R208), for a quotient that is not negative. -/
def cfNearest (num den : Nat) : Nat :=
  match cfFit num den 64 (-32) with
  | none => 0x1F7FFFFF
  | some (m, e) => if m < 2 ^ 21 then 0 else max m (2 ^ 22) + 2 ^ 24 * bits 6 e

/-- π × 10²⁵. -/
def piScaled : Nat := 31415926535897932384626433

/-- Ku of R207 step 5 as a quotient, from d, h and four times the mean amplitude. -/
def ultimateGain (d h : Nat) (a4 : Int) : Nat × Nat :=
  let root := Nat.sqrt (((a4 * a4 - 16 * (h : Int) * h).toNat) * 2 ^ 128)
  (16 * d * 2 ^ 64 * 10 ^ 25, piScaled * root)

/-- The factors of R209, in ten-thousandths: K_p, T_i, T_d. -/
def tuneRule (rule : Nat) : Nat × Nat × Nat :=
  match rule with
  | 0 => (4500, 8330, 0)
  | 1 => (6000, 5000, 1250)
  | 2 => (7000, 4000, 1500)
  | 3 => (3300, 5000, 3300)
  | 4 => (2000, 5000, 3300)
  | 5 => (3125, 22000, 0)
  | _ => (4545, 22000, 1587)

/-- Write the results of a tune (R207 step 5, R208, R209). `tu2` is twice Tu. -/
def State.tuneResults (s : State) (c period tu2 : Nat) (ku : Nat × Nat) : State :=
  let f := tuneRule (s.r CLE.RULE c)
  let kp := (ku.1 * f.1, ku.2 * 10000)
  -- Td and Ts in units of 1 / 20000 µs: Td = f₃ × Tu / 10⁴
  let td := f.2.2 * tu2
  let tf := td
  let n := s.r CLE.DERIV_N c
  let ts := 20000 * period
  -- T_f = T_d / n, so T_f + T_s = (td + n × ts) / n
  let s := ((s.w CLE.KU (cfNearest ku.1 ku.2) c).w CLE.TU_US ((tu2 + 1) / 2) c).w CLE.TUNE_KP (cfNearest kp.1 kp.2) c
  let s := s.w CLE.TUNE_KI (cfNearest (kp.1 * ts) (kp.2 * (f.2.1 * tu2))) c
  if td = 0 then (s.w CLE.TUNE_KD_B 0 c).w CLE.TUNE_KD_A 0 c
  else (s.w CLE.TUNE_KD_B (cfNearest (kp.1 * td * n) (kp.2 * (tf + n * ts))) c).w CLE.TUNE_KD_A
    (cfNearest tf (tf + n * ts)) c

/-- The end of a tune (R207 step 6): STATE, CAUSE and the event. -/
def State.tuneEnd (s : State) (c st cause : Nat) : State :=
  let x := s.cluster c
  let g := 128 * c + x.tune.slot
  let s := (s.setCluster c { x with tune := { x.tune with running := false } }).w CLE.STATE st c
  let s := s.w CLE.CAUSE cause c
  if st = 2 then s.loopEvt g 6 cause (leBytes 4 (s.r CLE.KU c) ++ leBytes 4 (s.r CLE.TU_US c)) else s.loopEvt g 7 cause

/-- The tune fails when it runs (R207). -/
def State.tuneFail (s : State) (c cause : Nat) : State :=
  if (s.cluster c).tune.running then s.tuneEnd c 3 cause else s

/-- Step 2 to 5 of R207 at an update of the tuned loop with a good PV. -/
def State.tuneUpdate (s : State) (c period : Nat) (ei yf : Int) : State :=
  if (s.r CLE.TUNE_PV_MAX c : Int) < |ei| then s.tuneEnd c 3 1
  else
    let x := s.cluster c
    let h := s.r CLE.TUNE_HYST c
    let d := s.r CLE.TUNE_AMP c
    let tn := x.tune.relayStep d h period ei yf s.now
    let ended := decide (tn.cycles.length ≠ x.tune.cycles.length)
    let s := (s.setCluster c { x with tune := tn }).w CLE.CYCLES (min 255 tn.cycles.length) c
    if !ended then s
    else match tn.converged with
      | some (tu2, a4) =>
        if a4 ≤ 4 * (h : Int) then s.tuneEnd c 3 6
        else (s.tuneResults c period tu2 (ultimateGain d h a4)).tuneEnd c 2 0
      | none => if s.r CLE.MAX_CYCLES c ≤ tn.cycles.length then s.tuneEnd c 3 2 else s

/-! ### Outputs (R200 to R202) -/

/-- The page that a route of TYPE `typ` with INDEX `i` acts on (R200); a logic data word counts with page 0 of LGE (assumption 136). -/
def routePage (typ i : Nat) : Option Page :=
  match typ with
  | 1 => some ⟨20, 0⟩
  | 2 => some ⟨22, 0⟩
  | 3 => some ⟨23, i⟩
  | 4 => some ⟨21, 0⟩
  | _ => none

/-- A value reaches the destination of a route of loop `g` (R200, R234, R325). Of the loops that route to one ACT or MPG destination at one instant, the one with the higher `g` stands (R201). -/
def State.routeTo (s : State) (g typ i x : Nat) : State :=
  let key := 2 * i + typ / 3
  let once := fun (f : State → State) =>
    let last := sget (0, 0) s.routed key
    if last.1 = s.now ∧ g < last.2 then s
    else f { s with routed := sset (0, 0) s.routed key (s.now, g) }
  match typ with
  | 1 => once (fun s => s.routeDuty i (x % 65536))
  | 2 => s.setSo i (BitVec.ofNat 32 x)
  | 3 => once (fun s => if s.r MPG.TGT_SRC i = 1 then s.axisValue i (sgn 32 x) else s)
  | _ => if deviceWord i then s else s.setDword i (BitVec.ofNat 32 x)

/-- One route of a loop: the word `k` is the route word, followed by its gain and offset (R200). A write to a block in a gated island is discarded and counted (R18). -/
def State.route1 (s : State) (g k : Nat) (out : Int) : State × Nat :=
  let w := s.lw g k
  let (v, n) := (do satN 32 ((← grid (s.lwi g (k + 1) * out) (-40) (-16)) + s.lwi g (k + 2)) : StateM Nat Int) 0
  let i := w / 256
  match routePage (w % 16) i with
  | none => (s, 0)
  | some pg =>
    (if s.islandOn (islandOf pg.code) then s.routeTo g (w % 16) i (routeFmt (w / 16 % 4) v) else s.gated (pageAddr pg), n)

/-- Saturations of a loop count and raise SATURATED (R185). -/
def State.loopSat (s : State) (g n : Nat) : State :=
  if n = 0 then s
  else (((s.inc CLE.SAT_COUNT (g / 128) 0 n).w CLE.LAST_SAT (g % 128) (g / 128)).setLoopBit g 10 true).loopEvt g 3

/-- The loops that publish to a hammer group, by word 0 of their slots (R202). -/
def State.publishers (s : State) : List (Nat × Nat) :=
  ((s.loopMem.filter (fun p => p.1 % 64 == 0)).map (fun p => (p.1 / 64, p.2.toNat))).filter
    (fun p => p.2.testBit 11 && cfgMode p.2 != 0)

/-- A loop is not the lowest of its hammer group (R202). -/
def State.hgConflict (s : State) (g : Nat) : Bool :=
  s.publishers.any (fun p => p.1 == g && s.publishers.any (fun q => decide (q.1 < g) && q.2 / 4096 % 8 == p.2 / 4096 % 8))

/-- The output of a loop is applied (R200, R202). -/
def State.applyOut (s : State) (g : Nat) (v : Int) (late : Bool) : State :=
  let s := (s.setLwi g 51 v).setLoopBit g 9 late
  let (s, n0) := s.route1 g 37 v
  let (s, n1) := s.route1 g 40 v
  let s := s.loopSat g (n0 + n1)
  let w0 := s.lw g 0
  if w0.testBit 11 && cfgMode w0 != 0 && !s.hgConflict g then
    s.publish (w0 / 4096 % 8) g (s.lwi g 49) v (s.loopBit g 3)
  else s

/-- Apply the outputs of a loop that wait, in sample order. -/
def State.applyWaiting (s : State) (g : Nat) : State :=
  let xs := (s.loop g).outs
  xs.foldl (fun (s : State) (o : Nat × Int) => s.applyOut g o.2 false) (s.setLoop g { s.loop g with outs := [] })

/-- R200: the output instant of a loop. -/
def execLoopOutput (t : Nat) (g : Fin 512) (s : State) : Host.Outcome State Fault Refusal :=
  s.runK .loop t fun s =>
    match (s.loop g).outs with
    | o :: rest => if o.1 ≤ s.now then (s.setLoop g { s.loop g with outs := rest }).applyOut g o.2 false else s
    | [] => s

/-! ### Configuration changes (R178, R179, R210 to R214) -/

/-- LOAD of a list of active word 0 and period pairs (R178). -/
def loadOf (xs : List (Nat × Nat)) : Nat := ((xs.filter (fun p => cfgMode p.1 != 0)).map (fun p => 1000000 / p.2)).sum

/-- The loops of a cluster whose word 0 is listed, as slot, word 0, period and phase. -/
def State.clusterCfg (s : State) (c : Nat) : List (Nat × Nat × Nat × Nat) :=
  (s.loopMem.filter (fun p => p.1 % 64 == 0 && p.1 / 64 / 128 == c)).map
    (fun p => (p.1 / 64 % 128, p.2.toNat, s.lw (p.1 / 64) 1, s.lw (p.1 / 64) 2))

/-- LOAD of a cluster follows its active configuration (R178). -/
def State.setLoad (s : State) (c : Nat) : State :=
  s.w CLE.LOAD (loadOf ((s.clusterCfg c).map (fun p => (p.2.1, p.2.2.1)))) c

/-- The buffer of a loop with RC_EN = 1 and MODE other than OFF: base and length (R203). -/
def rcBuffer (w0 w43 w44 : Nat) : Option (Nat × Nat) :=
  if w0.testBit 8 && cfgMode w0 != 0 then some (w44, cfgRcLen w43) else none

/-- Every buffer in use, with its loop: the active slots, and the commits that wait. -/
def State.rcBuffers (s : State) : List (Nat × Nat × Nat) :=
  (s.loopMem.filter (fun p => p.1 % 64 == 0)).filterMap (fun p =>
      (rcBuffer p.2.toNat (s.lw (p.1 / 64) 43) (s.lw (p.1 / 64) 44)).map (fun b => (p.1 / 64, b))) ++
  (List.range 4).filterMap (fun c => if s.on CLE.PENDING c then
      (rcBuffer (s.staged c 0) (s.staged c 43) (s.staged c 44)).map (fun b => (128 * c + s.r CLE.LOOP_SEL c, b)) else none)

/-- The refusal cause of a commit, 0 where it is accepted (R212). -/
def State.commitCause (s : State) (c slot : Nat) : Nat :=
  let g := 128 * c + slot
  let others := (s.clusterCfg c).filter (fun p => p.1 != slot)
  let overlap := match rcBuffer (s.staged c 0) (s.staged c 43) (s.staged c 44) with
    | none => false
    | some (b, n) => s.rcBuffers.any (fun p => p.1 != g && decide (b < p.2.1 + p.2.2) && decide (p.2.1 < b + n))
  let logic := fun (k : Nat) => s.staged c k % 16 == 4 && deviceWord (s.staged c k / 256)
  if 1000000 < loadOf ((s.staged c 0, s.staged c 1) :: others.map (fun p => (p.2.1, p.2.2.1))) then 1
  else if overlap then 2
  else if logic 37 || logic 40 then 4
  else 0

/-- The loops in conflict (R202). -/
def State.conflicts (s : State) : List Nat := (s.publishers.map (·.1)).filter s.hgConflict

/-- The groups to which no loop publishes lose their live values (R202, R340). -/
def State.unpublished (s : State) : State :=
  let used := s.publishers.map (fun p => p.2 / 4096 % 8)
  s.forN 8 fun s k => if used.contains k then s else s.unpublish k

/-- The marks of HG_CONFLICT follow the active configuration after a commit; a loop that was not in conflict before raises it (R202). -/
def State.hgMarks (s : State) (before : List Nat) : State :=
  (before ++ s.conflicts).foldl (fun (s : State) (g : Nat) =>
    let b := s.hgConflict g
    let s := s.setLoopBit g 12 b
    if b && !before.contains g then s.loopEvt g 9 else s) s.unpublished

/-- The worst-case run begins (R179). -/
def State.worstBegin (s : State) (c : Nat) : State :=
  (s.setCluster c { s.cluster c with worstRun := true }).w CLE.WORST_VALID 0 c

/-- The words whose change makes the next update bumpless: KF, KP, KI, KD_B, KD_A, BETA, GAMMA (R199). -/
def gainWords : List Nat := [14, 25, 26, 27, 28, 30, 31]

/-- The staging copy becomes the active configuration of the selected loop (R210, R214). -/
def State.takeCommit (s : State) (c : Nat) : State :=
  let slot := s.r CLE.LOOP_SEL c
  let g := 128 * c + slot
  let wasOff := cfgMode (s.lw g 0) == 0 || s.loopBit g 13
  let gains := gainWords.any (fun w => s.lw g w != s.staged c w)
  let before := s.conflicts
  let s := (List.range 48).foldl (fun (s : State) (w : Nat) => s.setLw g w (s.staged c w)) s
  let s := (s.setLoopBit g 11 false).setLoopBit g 13 false
  let s := if cfgMode (s.lw g 0) = 0 then s.setLw g 48 (s.lw g 48 / 8 * 8) else s
  let s := s.setLoop g { s.loop g with fresh := (s.loop g).fresh || wasOff, gains := (s.loop g).gains || gains }
  ((s.w CLE.PENDING 0 c).setLoad c).hgMarks before

/-- A write that PENDING refuses (R212). -/
def State.clePending (s : State) (c : Nat) (f : State → State) : State :=
  if s.on CLE.PENDING c then (s.inc CLE.REFUSED c).w CLE.REFUSE_CAUSE 3 c else f s

/-- R210, R212: a write of LOOP_SEL. -/
def execLoopSel (t : Nat) (r : Requester) (c : Fin 4) (slot : Fin 128) (s : State) : Host.Outcome State Fault Refusal :=
  s.cmdK t fun s => s.pageWrite r ⟨18, c⟩ true fun s => s.clePending c fun s =>
    (s.w CLE.LOOP_SEL slot c).loadStage c slot

/-- R210, R212, R178, R203, R202: LOOP_CMD = COMMIT. -/
def execCommit (t : Nat) (r : Requester) (c : Fin 4) (s : State) : Host.Outcome State Fault Refusal :=
  s.cmdK t fun s => s.pageWrite r ⟨18, c⟩ true fun s => s.clePending c fun s =>
    let slot := s.r CLE.LOOP_SEL c
    let g := 128 * c.val + slot
    let cause := s.commitCause c slot
    if cause ≠ 0 then
      (((s.inc CLE.REFUSED c).w CLE.REFUSE_CAUSE cause c).loadStage c slot).loopEvt g 4 cause
    else
      let tn := (s.cluster c).tune
      let s := if tn.running && tn.slot == slot then s.tuneFail c 5 else s
      let s := (s.w CLE.PENDING 1 c).worstBegin c
      if cfgMode (s.lw g 0) = 0 ∧ cfgMode (s.staged c 0) = 0 then s.takeCommit c else s

/-- R210: LOOP_CMD = DISCARD. -/
def execDiscard (t : Nat) (r : Requester) (c : Fin 4) (s : State) : Host.Outcome State Fault Refusal :=
  s.cmdK t fun s => s.pageWrite r ⟨18, c⟩ true fun s => s.clePending c fun s => s.loadStage c (s.r CLE.LOOP_SEL c)

/-- R206: LOOP_CMD = RC_CLEAR. -/
def execRcClear (t : Nat) (r : Requester) (c : Fin 4) (s : State) : Host.Outcome State Fault Refusal :=
  s.cmdK t fun s => s.pageWrite r ⟨18, c⟩ true fun s => s.clePending c fun s =>
    let g := 128 * c.val + s.r CLE.LOOP_SEL c
    s.setLoop g { s.loop g with clearReq := true }

/-- R206: a buffer clear completes. -/
def execRcClearDone (t : Nat) (g : Fin 512) (s : State) : Host.Outcome State Fault Refusal :=
  s.runK .loop t fun s => s.setLoop g { s.loop g with clearing := false }

/-- R211: a write of SP_FIXED or MAN_OUT through the window. -/
def execLiveFieldWrite (t : Nat) (r : Requester) (c : Fin 4) (reg : LiveReg) (v : Word) (s : State) :
    Host.Outcome State Fault Refusal :=
  s.cmdK t fun s => s.pageWrite r ⟨18, c⟩ true fun s =>
    let w := match reg with
      | .spFixed => 9
      | .manOut => 36
    let x := s.cluster c
    (s.setCluster c { x with stage := sset (loopRst w) x.stage w v }).setLw (128 * c.val + s.r CLE.LOOP_SEL c) w v.toNat

/-- R177, R179: a write of OUT_DELAY_US. -/
def execOutDelayWrite (t : Nat) (r : Requester) (c : Fin 4) (v : Word) (s : State) : Host.Outcome State Fault Refusal :=
  s.cmdK t fun s => s.pageWrite r ⟨18, c⟩ true fun s =>
    let x := v.toNat % 2 ^ 14
    let y := max 2 (min 10000 x)
    ((s.when (x != y) (fun s => s.clampCount ⟨18, c⟩ 0x040 0)).w CLE.OUT_DELAY_US y c).worstBegin c

/-- One microsecond of the run of R179 at instant `τ`: the queue of slots with their sample instants, the greatest delay so far, and whether an update was discarded. New instants come while `τ` lies in the second. -/
def worstTick (cfg : List (Nat × Nat × Nat)) (x : List (Nat × Nat) × Nat × Bool) (τ : Nat) : List (Nat × Nat) × Nat × Bool :=
  let due := if τ < 1000000 then (cfg.filter (fun p => decide (p.2.2 ≤ τ) && (τ - p.2.2) % p.2.1 == 0)).map (·.1) else []
  let miss := x.1.any (fun j => due.contains j.2)
  let q := x.1.filter (fun j => !due.contains j.2) ++ due.map (fun i => (τ, i))
  match q with
  | [] => ([], x.2.1, x.2.2 || miss)
  | j :: rest => (rest, max x.2.1 (τ + 1 - j.1), x.2.2 || miss)

/-- The run of R179 over one second of sample instants: WORST_US and MISS_RISK. The slots stand in ascending order with their periods and phases. -/
def worstCase (cfg : List (Nat × Nat × Nat)) : Nat × Bool :=
  ((List.range 1000128).foldl (worstTick cfg) ([], 0, false)).2

/-- R179: the worst-case run completes. -/
def execWorstRunDone (t : Nat) (c : Fin 4) (s : State) : Host.Outcome State Fault Refusal :=
  s.runK .loop t fun s =>
    if !(s.cluster c).worstRun then s
    else
      let sel := s.r CLE.LOOP_SEL c
      let act := (s.clusterCfg c).filter (fun p => !(s.on CLE.PENDING c && p.1 == sel))
      let pend := if s.on CLE.PENDING c then [(sel, s.staged c 0, s.staged c 1, s.staged c 2)] else []
      let xs := act.filter (fun p => decide (p.1 < sel)) ++ pend ++ act.filter (fun p => decide (sel ≤ p.1))
      let w := worstCase ((xs.filter (fun p => cfgMode p.2.1 != 0)).map (fun p => (p.1, p.2.2)))
      let s := s.setCluster c { s.cluster c with worstRun := false }
      let s := ((s.w CLE.WORST_US (min w.1 16383) c).wb CLE.MISS_RISK w.2 c).w CLE.WORST_VALID 1 c
      if s.r CLE.OUT_DELAY_US c < w.1 ∨ w.2 = true then
        s.loopEvt (128 * c.val + sel) 5 0 (leBytes 2 (s.r CLE.WORST_US c)) else s

/-! ### Samples and updates (R174 to R177) -/

/-- Take the proposed gains of a tune into the active configuration (R208). The next update is bumpless where a gain changes (R199). -/
def State.takeGains (s : State) (c slot : Nat) : State :=
  let g := 128 * c + slot
  let changed := decide (s.lw g 25 ≠ s.r CLE.TUNE_KP c ∨ s.lw g 26 ≠ s.r CLE.TUNE_KI c ∨ s.lw g 27 ≠ s.r CLE.TUNE_KD_B c ∨
    s.lw g 28 ≠ s.r CLE.TUNE_KD_A c)
  let s := (((s.setLw g 25 (s.r CLE.TUNE_KP c)).setLw g 26 (s.r CLE.TUNE_KI c)).setLw g 27 (s.r CLE.TUNE_KD_B c)).setLw g 28
    (s.r CLE.TUNE_KD_A c)
  let x := s.cluster c
  (s.setCluster c { x with tune := { x.tune with apply := none } }).setLoop g
    { s.loop g with gains := (s.loop g).gains || changed }

/-- The buffer clear of a loop begins (R206, assumption 22). -/
def State.beginRcClear (s : State) (g : Nat) : State :=
  let s := (List.range (cfgRcLen (s.lw g 43))).foldl (fun (s : State) (i : Nat) => s.setRcWord (s.lw g 44 + i) 0) s
  s.setLoop g { s.loop g with clearReq := false, clearing := true }

/-- The inputs of a loop as it latches them (R175, R186). -/
def State.latchJob (s : State) (g : Nat) : UpdJob :=
  let pv := s.rawSource (s.lw g 3)
  let sp := s.rawSource (s.lw g 6)
  let ff := s.rawSource (s.lw g 13)
  { slot := g % 128, t := s.now, base := s.now, pv := pv.1, sp := sp.1, ff := ff.1, pvBad := pv.2,
    srcBad := (sp.2 && s.lw g 6 % 16 != 0) || ff.2 }

/-- Queue an update, in order of sample instant and slot (R176). -/
def queueJob (q : List UpdJob) (j : UpdJob) : List UpdJob :=
  q.takeWhile (fun x => decide (x.base < j.base) || (x.base == j.base && decide (x.slot ≤ j.slot))) ++ [j] ++
  q.dropWhile (fun x => decide (x.base < j.base) || (x.base == j.base && decide (x.slot ≤ j.slot)))

/-- This instant is a sample instant of loop `g` that it has not taken: after a commit with a new period or phase, the new series counts strictly after the commit instant (R174, R210). -/
def State.sampleDue (s : State) (g : Nat) : Bool :=
  s.onSeries (s.lw g 1) (s.lw g 2) && (s.loop g).sampled != some s.now

/-- R174, R175, R176, R206, R208, R210: the sample instant of a loop. -/
def execLoopSample (t : Nat) (g : Fin 512) (s : State) : Host.Outcome State Fault Refusal :=
  s.runK .loop t fun s =>
    if !s.sampleDue g then s
    else
    let c := g.val / 128
    let slot := g.val % 128
    let s := s.setLoop g { s.loop g with sampled := some s.now }
    let s := if s.on CLE.PENDING c && s.r CLE.LOOP_SEL c == slot then s.takeCommit c else s
    let s := if (s.cluster c).tune.apply = some slot then s.takeGains c slot else s
    let s := if (s.loop g).clearReq then s.beginRcClear g else s
    let x := s.cluster c
    let s := if x.queue.any (fun j => j.slot == slot) then
        (((s.setCluster c { x with queue := x.queue.filter (fun j => j.slot != slot) }).inc CLE.MISSED_COUNT c).w
          CLE.LAST_MISSED slot c).loopEvt g 1
      else s
    if s.enabled 18 c && !s.follows && cfgMode (s.lw g 0) != 0 && !s.loopBit g 13 then
      s.setCluster c { s.cluster c with queue := queueJob (s.cluster c).queue (s.latchJob g) }
    else s

/-- R176: a free cluster starts its oldest queued update, with the configuration as it then stands: a later commit or live field acts from the next update on (R210, R211). -/
def execLoopUpdateStart (t : Nat) (c : Fin 4) (s : State) : Host.Outcome State Fault Refusal :=
  s.runK .loop t fun s =>
    let x := s.cluster c
    match x.running, x.queue with
    | none, j :: rest =>
      let g := 128 * c.val + j.slot
      let y := s.loop g
      (s.setCluster c { x with queue := rest, running := some { j with cfg := s.config g, fresh := y.fresh, gains := y.gains } }).setLoop
        g { y with fresh := false, gains := false }
    | _, _ => s

/-- The stages of a loop as its slot holds them; a loop that has just left OFF starts at 0 with E_MIN (R185). -/
def State.stage (s : State) (g : Nat) (cfg : Nat → Nat) (fresh : Bool) (w sh : Nat) : Stage :=
  if fresh then ⟨0, 0, cfgEMin cfg⟩
  else ⟨s.lwi g w, s.lwi g (w + 1), sgn 6 (s.lw g 52 / 2 ^ sh)⟩

/-- STATUS after an update: bits 9, 11, 12 and 13 stay as `old` has them (R215). -/
def statusOf (old eff : Nat) (job : UpdJob) (f : Front) (b : Back) (sat : Bool) : Nat :=
  eff + 8 * job.pvBad.toNat + 16 * job.srcBad.toNat + 32 * b.hi.toNat + 64 * b.lo.toNat + 128 * b.rate.toNat +
  256 * (decide (f.r ≠ f.target)).toNat + 512 * (bitsAt old 9 1) + 1024 * sat.toNat + 2048 * (bitsAt old 11 3)

/-- The update of loop `g` with the inputs and the configuration of `job` (R187 to R199, R205): the slot's new state, and the unlimited state of the tune. A loop that a commit has switched OFF meanwhile shows effective mode OFF. -/
def State.loopUpdate (s : State) (g : Nat) (job : UpdJob) : State :=
  let c := g / 128
  let cfg := fun (w : Nat) => (sget (loopRst w) job.cfg w).toNat
  let x := s.loop g
  let tn := (s.cluster c).tune
  let tuned := tn.running && tn.slot == job.slot
  let s := if tuned && job.pvBad then s.tuneFail c 4 else s
  let tuned := tuned && !job.pvBad
  let (f, n) := loopFront cfg job job.fresh (s.lwi g 50) (if tuned then some tn.r0 else none)
    (s.stage g cfg job.fresh 53 0) (s.stage g cfg job.fresh 55 6) 0
  let s := if tuned then s.tuneUpdate c (cfg 1) f.ei f.yf else s
  let tune := (s.cluster c).tune
  let eff := effMode (cfgMode (cfg 0)) (cfg 0 / 8 % 4) job.pvBad tune.running
  let eff := if eff = 3 ∧ !tuned then cfgMode (cfg 0) else eff
  let len := cfgRcLen (cfg 43)
  let rcOn := (cfg 0).testBit 8 && !x.clearing
  let k := (job.t / 1000 - cfg 2) / cfg 1
  let (urc, n) := if rcOn then
      (do satN 32 (← grid (s.rcWord (cfg 44 + k % len)) (sgn 6 (cfg 43 / 2 ^ 25) - 23) (-16)) : StateM Nat Int) n
    else (0, n)
  let outPrev := if job.fresh then sgn 32 (cfg 35) else x.outPrev
  let (b, n) := loopBack cfg f (s.stage g cfg job.fresh 57 12) (if job.fresh then 0 else s.lwi g 59)
    (if job.fresh then 0 else s.lwi g 60) outPrev urc tune.relay eff job.gains n
  let learn := rcOn && (cfg 0).testBit 9 && eff == 2
  let q := (k % len + len - cfg 43 / 8192 % 4096) % len
  let (m, n') := if learn then rcLearn cfg (fun i => s.rcWord (cfg 44 + i)) q len f.ei n else (0, n)
  let s := if learn then s.setRcWord (cfg 44 + q) m else s
  let s := if n' ≠ n then s.setLoopBit g 11 true else s
  let was := s.loopBit g 3
  let s := s.setLoopBit g 12 (s.hgConflict g)
  let s := s.setLw g 48 (statusOf (s.lw g 48) (if cfgMode (s.lw g 0) = 0 then 0 else eff) job f b false)
  let s := ((s.setLwi g 49 f.pv).setLwi g 50 f.r).setLw g 52 (bits 6 b.bq1.e + 64 * bits 6 b.bq2.e + 4096 * bits 6 b.pid.e)
  let s := (((s.setLwi g 53 b.bq1.a).setLwi g 54 b.bq1.b).setLwi g 55 b.bq2.a).setLwi g 56 b.bq2.b
  let s := (((s.setLwi g 57 b.pid.a).setLwi g 58 b.pid.b).setLwi g 59 b.edp).setLwi g 60 b.wPrev
  let s := ((s.setLwi g 61 urc).setLw g 62 (s.lw g 62 + 1)).setLw g 63 (job.t % 1000000000)
  let s := s.setLoop g { s.loop g with outPrev := b.ul }
  let s := s.loopSat g n'
  let s := if job.pvBad && !was then (s.w CLE.LAST_PVBAD job.slot c).loopEvt g 2 else s
  let due := job.base + 1000 * s.r CLE.OUT_DELAY_US c
  if s.now ≤ due then s.setLoop g { s.loop g with outs := (s.loop g).outs ++ [(due, b.ul)] }
  else
    let s := (s.applyWaiting g).applyOut g b.ul true
    ((s.inc CLE.LATE_COUNT c).w CLE.LAST_LATE job.slot c).loopEvt g 0

/-- R193, R177: the update in progress completes. -/
def execLoopUpdateDone (t : Nat) (c : Fin 4) (s : State) : Host.Outcome State Fault Refusal :=
  s.runK .loop t fun s =>
    match (s.cluster c).running with
    | none => s
    | some j =>
      (s.setCluster c { s.cluster c with running := none }).loopUpdate (128 * c.val + j.slot) j

/-! ### Tune commands (R207, R208) -/

/-- A refused tune command (R207, assumption 23). -/
def State.tuneRefuse (s : State) (c : Nat) : State := (s.inc CLE.REFUSED c).w CLE.CAUSE 7 c

/-- R207: TUNE_CMD = START. -/
def execTuneStart (t : Nat) (r : Requester) (c : Fin 4) (s : State) : Host.Outcome State Fault Refusal :=
  s.cmdK t fun s => s.pageWrite r ⟨18, c⟩ true fun s =>
    let slot := s.r CLE.TUNE_LOOP c
    let g := 128 * c.val + slot
    let x := s.cluster c
    if x.tune.running || cfgMode (s.lw g 0) == 0 || s.loopBit g 3 then s.tuneRefuse c
    else
      let b := s.lwi g 51
      let s := s.setCluster c { x with tune :=
        { running := true, slot := slot, bias := b, r0 := s.lwi g 50, relay := b, lastSwitch := s.now, apply := x.tune.apply } }
      ((s.w CLE.STATE 1 c).w CLE.CAUSE 0 c).w CLE.CYCLES 0 c

/-- R207: TUNE_CMD = ABORT. -/
def execTuneAbort (t : Nat) (r : Requester) (c : Fin 4) (s : State) : Host.Outcome State Fault Refusal :=
  s.cmdK t fun s => s.pageWrite r ⟨18, c⟩ true fun s => s.tuneFail c 5

/-- R208: TUNE_CMD = APPLY. -/
def execTuneApply (t : Nat) (r : Requester) (c : Fin 4) (s : State) : Host.Outcome State Fault Refusal :=
  s.cmdK t fun s => s.pageWrite r ⟨18, c⟩ true fun s =>
    let slot := s.r CLE.TUNE_LOOP c
    if s.r CLE.STATE c ≠ 2 ∨ (s.on CLE.PENDING c && s.r CLE.LOOP_SEL c == slot) = true then s.tuneRefuse c
    else
      let x := s.cluster c
      s.setCluster c { x with tune := { x.tune with apply := some slot } }

/-- R207: no switch of the relay for TIMEOUT_S seconds. -/
def execTuneTimeout (t : Nat) (c : Fin 4) (s : State) : Host.Outcome State Fault Refusal :=
  s.runK .loop t fun s =>
    if s.now < (s.cluster c).tune.lastSwitch + 1000000000 * s.r CLE.TIMEOUT_S c then s else s.tuneFail c 3

/-! ### Enable and reset (R213, R214) -/

/-- ENABLE of a cluster falls or rises (R213). -/
def State.cleEnable (s : State) (c : Nat) (on : Bool) : State :=
  if on then s.forN 128 (fun s i => s.setLoop (128 * c + i) { s.loop (128 * c + i) with fresh := true })
  else
    let s := s.tuneFail c 5
    let s := s.setCluster c { s.cluster c with queue := [], running := none }
    s.forN 128 (fun s i => s.setLoop (128 * c + i) { s.loop (128 * c + i) with outs := [] })

/-- SOFT_RESET of a cluster: every state word to 0, the configuration words unchanged (R213). -/
def State.cleReset (s : State) (c : Nat) : State :=
  let s := { s with
    loopMem := s.loopMem.filter (fun p => !(p.1 / 8192 == c && decide (48 ≤ p.1 % 64)))
    loops := s.loops.filter (fun p => p.1 / 128 != c) }
  ((s.setCluster c {}).loadStage c 0).setLoad c

/-- The updates and the outputs of loop `g` that wait are dropped. -/
def State.dropLoop (s : State) (g : Nat) : State :=
  let x := s.cluster (g / 128)
  let here := fun (j : UpdJob) => j.slot == g % 128
  (s.setCluster (g / 128) { x with
    queue := x.queue.filter (fun j => !here j), running := x.running.filter (fun j => !here j) }).setLoop
    g { s.loop g with outs := [] }

/-- An uncorrectable error in the slot of loop `g` (R214): the loop is OFF, and its destinations keep the output last applied. -/
def State.loopMemError (s : State) (g : Nat) : State :=
  let s := ((s.dropLoop g).setLoopBit g 13 true).inc CLE.MEM_ERR_COUNT (g / 128)
  (s.setLw g 48 (s.lw g 48 / 8 * 8)).loopEvt g 8

/-- An uncorrectable error in a word of the repetitive-controller memory (R206): it reads as 0. The counter is that of the cluster whose loop holds the word, or of cluster 0 where none does. -/
def State.rcMemError (s : State) (a : Nat) : State :=
  let s := s.setRcWord a 0
  let g := match s.rcBuffers.find? (fun p => decide (p.2.1 ≤ a) && decide (a < p.2.1 + p.2.2)) with
    | some p => p.1
    | none => 0
  (s.inc CLE.MEM_ERR_COUNT (g / 128)).loopEvt g 8

end Sys2Proof.Machine
end

