-- ==== Sys2Proof/Machine/Rec.lean ====
section
/-! DEFINITION. The event recorder (R456 to R476, R568). -/

namespace Sys2Proof.Machine

/-- One bit step of CRC-32C, reflected (R459). -/
def crcBit (c : Nat) : Nat := if c % 2 = 1 then (c / 2) ^^^ 0x82F63B78 else c / 2

/-- CRC-32C over bytes: reflected, initial value and final XOR of ones (R459). -/
def crc32c (bs : List Nat) : Nat :=
  (bs.foldl (fun c b => (List.range 8).foldl (fun c _ => crcBit c) (c ^^^ b)) 0xFFFFFFFF) ^^^ 0xFFFFFFFF

/-- Update the recorder's record. -/
def State.setRec (s : State) (f : RecX → RecX) : State := { s with rcd := f s.rcd }

/-- The bytes of a record (R459). -/
def Rec1.len (x : Rec1) : Nat := if x.fixed then 32 else 20 + (x.pay.length + 3) / 4 * 4

/-- The record as it stands in the ring (R459, R462). -/
def Rec1.bytes (x : Rec1) : List Nat :=
  let body := leBytes 2 (x.code + 4096 * x.unit) ++
    leBytes 2 (x.len + (if x.fixed then 1024 else 0) + (if x.trunc then 2048 else 0)) ++
    leBytes 4 x.seq.toNat ++ leBytes 5 x.opSec ++ leBytes 3 x.pwr
  let body := padTo' (x.len - 4) (body ++ x.pay)
  body ++ leBytes 4 (crc32c body)
where
  /-- `bs` padded with zero bytes to `n`. -/
  padTo' (n : Nat) (bs : List Nat) : List Nat := (bs ++ List.replicate n 0).take n

/-- The codes that are never disabled or limited (R458). -/
def mandatory (code : Nat) : Bool :=
  (code < 0x3A0 && code % 32 == 31) || code == 0x2A9 || (0x420 ≤ code && code ≤ 0xEFF) || (0xF00 ≤ code && code ≤ 0xF0A)

/-- The settings of a code; a mandatory code is enabled and unlimited (R458, R475). -/
def State.code (s : State) (c : Nat) : CodeX :=
  if mandatory c then { en := true, cls := 0 } else sget {} s.rcd.codes c

/-- Replace the settings of a code. -/
def State.setCode (s : State) (c : Nat) (x : CodeX) : State := s.setRec (fun k => { k with codes := sset {} k.codes c x })

/-- RATE_MS and BURST of a class (R463). -/
def State.cls (s : State) (k : Nat) : Nat × Nat := sget (1000, 16) s.rcd.classes k

/-- A sequence at or beyond another in the modular order of R44. -/
def seqGe (a b : Nat) : Bool := decide ((a + 2 ^ 32 - b) % 2 ^ 32 < 2 ^ 31)

/-- OLDEST_SEQ follows the ring. -/
def State.oldest (s : State) : State :=
  s.w REC.OLDEST_SEQ (match s.rcd.ring.head? with | some x => x.seq.toNat | none => s.r REC.HEAD_SEQ)

/-- The condition of RING_FILL; its count is that of the records at or beyond EXP_SEQ (R470, R476, assumption 52). -/
def State.ringFill (s : State) : State :=
  let xs := s.rcd.ring.filter (fun x => seqGe x.seq.toNat (s.r REC.EXP_SEQ))
  s.setRaw 10 0 0 (decide (1024 * s.r REC.FILL_THR < (xs.map Rec1.len).sum)) (leBytes 4 (s.r REC.HEAD_SEQ) ++ leBytes 4 xs.length)

/-- The segments that stand once segment `n` is open (R466). -/
def keepSeg (n : Nat) (x : Rec1) : Bool := decide (n < x.seg + 2048)

/-- A record joins the on-die ring; the opening of a segment erases the oldest (R466). -/
def State.toRing (s : State) (x : Rec1) : State :=
  let gone := s.rcd.ring.filter (fun y => !keepSeg x.seg y)
  let lost := gone.filter (fun y => seqGe y.seq.toNat (s.r REC.EXP_SEQ))
  let s := s.setRec (fun k => { k with ring := k.ring.filter (keepSeg x.seg) ++ [x] })
  ((s.inc REC.OVERWRITTEN 0 0 gone.length).inc REC.LOST_UNEXPORTED 0 0 lost.length).oldest

/-- The ring is held for readers by a freeze or an export (R468, R470). -/
def State.held (s : State) : Bool := s.on REC.FROZEN || s.on REC.HOLDING

/-- HOLD_FILL follows the holding buffer; the field saturates (assumption 12). -/
def State.holdFill (s : State) : State :=
  s.w REC.HOLD_FILL (min (2 ^ 17 - 1) ((s.rcd.holding.map Rec1.len).sum))

/-- The held records are appended to the ring in sequence order (R468). -/
def State.unhold (s : State) : State :=
  let h := s.rcd.holding
  let s := s.setRec (fun k => { k with holding := [] })
  (h.foldl (fun s x => s.toRing x) s).holdFill.ringFill

/-- A record takes its number, its place in a segment and its form, and goes to the ring or the holding buffer (R459 to R462, R466, R468). -/
def State.putRec (s : State) (code : Nat) (pay : List Nat) : State :=
  let fixed := s.r REC.FORM != 0
  let pay := pay.take 496
  let x : Rec1 := { code := code, unit := s.r DCH.UNIT_ADDR, fixed := fixed, trunc := fixed && decide (12 < pay.length),
                    seq := BitVec.ofNat 32 (s.r REC.HEAD_SEQ), opSec := s.opSec, pwr := s.r KPR.PWR_CYC,
                    pay := if fixed then pay.take 12 else pay }
  let opens : Bool := 4096 < s.rcd.segFill + x.len
  let seg := s.rcd.segNo + opens.toNat
  let x := { x with seg := seg }
  let s := s.setRec (fun k => { k with segNo := seg, segFill := (if opens then 0 else k.segFill) + x.len })
  let s := s.w REC.HEAD_SEQ (s.r REC.HEAD_SEQ + 1)
  if s.held then (s.setRec (fun k => { k with holding := k.holding ++ [x] })).holdFill else (s.toRing x).ringFill

/-- The freeze ends with a cause (R468, R473); held records stay held while an export runs (R474). -/
def State.thaw (s : State) (cause : Nat) : State :=
  let n := s.rcd.holding.length
  let s := s.w REC.FROZEN 0
  let s := if s.on REC.HOLDING then s else s.unhold
  (s.putRec 0xF02 (cause :: leBytes 4 n)).raise 10 0 1 (leBytes 4 (s.r REC.HEAD_SEQ) ++ leBytes 4 cause)

/-- A record is written. A holding buffer without room for it ends the freeze and the hold first (R468). -/
def State.writeRec (s : State) (code : Nat) (pay : List Nat) : State :=
  let full := decide (262144 < ((s.rcd.holding.map Rec1.len).sum) + 20 + (min pay.length 496 + 3) / 4 * 4)
  let s := if s.held && full then
      let s := s.w REC.HOLDING 0
      if s.on REC.FROZEN then s.thaw 2 else s.unhold
    else s
  s.putRec code pay

/-- The tokens that a bucket has gained by now (R463). -/
def refilled (rate : Nat) (now : Nat) (x : CodeX) : CodeX :=
  if x.spent = 0 ∨ rate = 0 then x
  else
    let n := (now - x.refillAt) / (1000000 * rate)
    { x with spent := x.spent - n, refillAt := x.refillAt + n * (1000000 * rate) }

/-- A suppressed record counts (R463). -/
def State.suppress (s : State) (c : Nat) (x : CodeX) : State :=
  let x := { x with supp := x.supp + 1, firstS := if x.supp = 0 then s.opSec else x.firstS, lastS := s.opSec }
  (s.setCode c x).inc REC.SUPP_TOTAL

/-- A record under the rate limit of its code (R458, R463). -/
def State.limited (s : State) (c : Nat) (pay : List Nat) : State :=
  let x := s.code c
  if !x.en then s
  else if x.cls = 0 then s.writeRec c pay
  else
    let k := s.cls x.cls
    let x := refilled k.1 s.up x
    if x.spent < k.2 then
      let x := { x with spent := x.spent + 1, refillAt := if x.spent = 0 then s.up else x.refillAt }
      (s.setCode c x).writeRec c pay
    else s.suppress c x

/-- The record code of an event message (R457). -/
def EvtMsg.recCode (m : EvtMsg) : Nat :=
  if m.bit = 255 then m.code else if m.bit < 32 then 32 * m.code + m.bit else 0x400 + (m.bit - 32)

/-- The payload of an event record (R461). -/
def EvtMsg.recPay (m : EvtMsg) : List Nat :=
  if m.bit = 255 then m.pay
  else [m.inst, m.tmk % 4 + 4 * m.tset.toNat] ++ leBytes 2 (m.eic.getD 0) ++
    leBytes 8 (if m.tset then stamp m.time else 0) ++ (m.pay ++ List.replicate 16 0).take 16 ++ m.extra

/-- R465: the next event message on its way to REC reaches the input queue, or is dropped when the queue is full. -/
def execRecInput (t : Nat) (s : State) : Host.Outcome State Fault Refusal :=
  s.runK .keep t fun s =>
    match s.rcd.inQ with
    | [] => s
    | m :: ms =>
      let s := s.setRec (fun k => { k with inQ := ms })
      if s.rcd.queue.length < 256 then s.setRec (fun k => { k with queue := k.queue ++ [m] })
      else (s.setRec (fun k => { k with lostOwed := k.lostOwed + 1 })).inc REC.INPUT_LOST

/-- The INPUT_LOST record that is owed once the queue has room (R465). -/
def State.lostRecord (s : State) : State :=
  if s.rcd.lostOwed ≠ 0 ∧ s.rcd.queue.length < 256 then
    let n := s.rcd.lostOwed
    (s.setRec (fun k => { k with lostOwed := 0 })).writeRec 0xF0A (leBytes 4 n)
  else s

/-- R459 to R465: REC takes one message and writes its record. -/
def execRecRecordWrite (t : Nat) (s : State) : Host.Outcome State Fault Refusal :=
  s.runK .keep t fun s =>
    match s.rcd.queue with
    | [] => s.lostRecord
    | m :: ms => ((s.setRec (fun k => { k with queue := ms })).limited m.recCode m.recPay).lostRecord

/-- R463: the refill of a code's bucket. -/
def execRateRefill (t : Nat) (code : BitVec 16) (s : State) : Host.Outcome State Fault Refusal :=
  s.runK .keep t fun s =>
    let x := s.code code.toNat
    if mandatory code.toNat then s else s.setCode code.toNat (refilled (s.cls x.cls).1 s.up x)

/-- The SUPPRESSED record of a code; its summary starts afresh (R464). -/
def State.summarise (s : State) (c : Nat) : State :=
  let x := s.code c
  if x.supp = 0 then s
  else (s.setCode c { x with supp := 0, firstS := 0, lastS := 0 }).writeRec 0xF00
    (leBytes 2 c ++ leBytes 4 x.supp ++ leBytes 5 x.firstS ++ leBytes 5 x.lastS)

/-- R464: SUPP_FLUSH_S after the first suppression of a code. -/
def execSuppressionFlush (t : Nat) (code : BitVec 16) (s : State) : Host.Outcome State Fault Refusal :=
  s.runK .keep t fun s =>
    if (s.code code.toNat).firstS + s.r REC.SUPP_FLUSH_S ≤ s.opSec then s.summarise code.toNat else s

/-- The settings of a code in the layout of CODE_CFG (R464). -/
def CodeX.cfg (x : CodeX) : Nat := x.en.toNat + 16 * x.cls

/-- The CONFIG_CHANGED record (R464, R473). -/
def State.configChanged (s : State) (what old new : Nat) (r : Requester) : State :=
  s.writeRec 0xF08 (leBytes 2 what ++ leBytes 4 old ++ leBytes 4 new ++ [ownerCode r])

/-- R458, R463, R464: a write of CODE_CFG for the code in CODE_SEL. -/
def execCodeCfgWrite (t : Nat) (r : Requester) (v : Word) (s : State) : Host.Outcome State Fault Refusal :=
  s.cmdK t fun s => s.pageWrite r ⟨10, 0⟩ true fun s =>
    let c := s.r REC.CODE_SEL
    let x := s.code c
    let en := v.toNat % 2 == 1
    let cls := bitsAt v.toNat 4 4
    if mandatory c then
      let s := s.when (!en) (fun s => s.clampCount ⟨10, 0⟩ 0x05C 0)
      s.when (cls != 0) (fun s => s.clampCount ⟨10, 0⟩ 0x05C 4)
    else if en = x.en ∧ cls = x.cls then s
    else
      let s := if !en || cls != x.cls then s.summarise c else s
      let y := { s.code c with en := en, cls := cls }
      let y := if cls = x.cls then y else { y with spent := 0 }
      (s.setCode c y).configChanged c x.cfg y.cfg r

/-- A bucket after a change of its class's settings from `old` to `new` (R463): a fuller bucket is lowered, a refill that is overdue under the new rate comes at once, and a full bucket stays full (assumption 13). -/
def rebucket (old new : Nat × Nat) (now : Nat) (x : CodeX) : CodeX :=
  let x := refilled old.1 now x
  let spent := if x.spent = 0 then 0 else new.2 - min new.2 (old.2 - x.spent)
  let x := { x with spent := spent }
  if x.spent ≠ 0 ∧ new.1 < old.1 ∧ x.refillAt + 1000000 * new.1 ≤ now then { x with spent := x.spent - 1, refillAt := now } else x

/-- R463, R464: a write of RATE_MS and BURST for the class in CLASS_SEL. -/
def execClassCfgWrite (t : Nat) (r : Requester) (v : Word) (s : State) : Host.Outcome State Fault Refusal :=
  s.cmdK t fun s => s.pageWrite r ⟨10, 0⟩ true fun s =>
    let k := s.r REC.CLASS_SEL
    let old := s.cls k
    let rate := bitsAt v.toNat 0 22
    let burst := bitsAt v.toNat 24 8
    let new := (max 1 (min rate 3600000), max 1 burst)
    let s := s.when (new.1 != rate) (fun s => s.clampCount ⟨10, 0⟩ 0x064 0)
    let s := s.when (new.2 != burst) (fun s => s.clampCount ⟨10, 0⟩ 0x064 24)
    if new = old then s
    else
      let now := s.up
      let s := s.setRec (fun q => { q with
        classes := sset (1000, 16) q.classes k new,
        codes := (q.codes.map (fun p => if p.2.cls = k then (p.1, rebucket old new now p.2) else p)).filter (fun p => p.2 != {}) })
      s.configChanged (0xF000 + k) (old.1 + 2 ^ 24 * old.2) (new.1 + 2 ^ 24 * new.2) r

/-- An MRAM device that can be written (R531 to R533). -/
def State.mramOk (s : State) : Bool := s.r PST.DEV0_STATE == 1 || s.r PST.DEV1_STATE == 1

/-- A copy at an MRAM address is served by a device in OK state whose copy passes its check (R23, R531). -/
def State.mramGood (s : State) (a : Nat) : Bool :=
  (s.r PST.DEV0_STATE == 1 && !s.pwr.mramBad.contains (0, a)) || (s.r PST.DEV1_STATE == 1 && !s.pwr.mramBad.contains (1, a))

/-- Where a slot begins, numbered as its marker is: firmware, logic program and configuration, A and B of each (R23). -/
def slotAddr (k : Nat) : Nat := ([0x40000, 0xC0000, 0x140000, 0x340000, 0x540000, 0x640000] : List Nat).getD k 0

/-- A commit marker is valid on a device in OK state (R515). -/
def State.markerOk (s : State) (m : Nat × Nat × Bool × Bool) : Bool :=
  (m.2.2.1 && s.r PST.DEV0_STATE == 1) || (m.2.2.2 && s.r PST.DEV1_STATE == 1)

/-- The commit sequence of a slot among the valid markers, 0 where it has none: commits count from 1 (R514, R515). -/
def State.markerSeq (s : State) (slot : Nat) : Nat :=
  ((s.sec.markers.filter (fun m => m.1 == slot && s.markerOk m)).map (fun m => m.2.1)).foldl max 0

/-- The marker that commits a slot, one above the other slot's, on the devices in OK state (R514). -/
def State.commitMarker (s : State) (slot : Nat) : State :=
  let q := s.markerSeq (slot / 2 * 2 + (1 - slot % 2)) + 1
  { s with sec := { s.sec with
      markers := (slot, q, s.r PST.DEV0_STATE == 1, s.r PST.DEV1_STATE == 1) :: s.sec.markers.filter (fun m => m.1 != slot),
      slotOk := slot :: s.sec.slotOk.filter (fun k => k != slot) } }

/-- The marker of a slot about to be written is erased, and with it its object (R514). -/
def State.eraseMarker (s : State) (slot : Nat) : State :=
  { s with sec := { s.sec with markers := s.sec.markers.filter (fun m => m.1 != slot), slotOk := s.sec.slotOk.filter (fun k => k != slot) } }

/-- The records in the ring and the holding buffer that the image does not hold yet, oldest first (R467). -/
def State.unpersisted (s : State) : List Rec1 :=
  let all := s.rcd.ring ++ s.rcd.holding
  match s.rcd.image.getLast? with
  | none => all
  | some x => all.filter (fun y => !seqGe x.seq.toNat y.seq.toNat)

/-- A record is copied into the ring image (R467). -/
def State.persist (s : State) (x : Rec1) : State :=
  (s.setRec (fun k => { k with image := k.image.filter (keepSeg x.seg) ++ [x] })).w REC.PERSIST_SEQ x.seq.toNat

/-- Every record is copied into the ring image. -/
def State.persistAll (s : State) : State := s.unpersisted.foldl (fun s x => s.persist x) s

/-- Persistence is lost (R467). -/
def State.persistLost (s : State) : State :=
  if s.r REC.PERSIST_OK = 0 then s
  else
    let s := (s.w REC.PERSIST_OK 0).writeRec 0xF05 (leBytes 4 (s.r REC.PERSIST_SEQ))
    (s.setRec (fun k => { k with persistFail := true })).setRaw 10 0 3 true
      (leBytes 4 (s.r REC.HEAD_SEQ) ++ leBytes 4 s.unpersisted.length)

/-- Persistence returns: every record above PERSIST_SEQ is copied, then PERSIST_RESUMED is written (R467). -/
def State.persistBack (s : State) : State :=
  if s.r REC.PERSIST_OK = 1 then s
  else
    let s := (s.persistAll.w REC.PERSIST_OK 1).writeRec 0xF06 (leBytes 4 (s.persistAll.r REC.PERSIST_SEQ))
    (s.setRec (fun k => { k with persistFail := false })).setRaw 10 0 3 false

/-- R467: the oldest record not yet persisted is copied into the MRAM image, or, with `ok` false or no device to write, persistence is lost. -/
def execPersistWrite (t : Nat) (ok : Bool) (s : State) : Host.Outcome State Fault Refusal :=
  s.runK .keep t fun s =>
    if !(ok && s.mramOk) then s.persistLost
    else if s.r REC.PERSIST_OK = 0 then s.persistBack
    else match s.unpersisted with
      | [] => s
      | x :: _ => s.persist x

/-- R468: FRZ_CMD = FREEZE. The FROZEN record is the first that the holding buffer takes. -/
def execRecFreeze (t : Nat) (r : Requester) (s : State) : Host.Outcome State Fault Refusal :=
  s.cmdK t fun s => s.pageWrite r ⟨10, 0⟩ true fun s =>
    if s.on REC.FROZEN then s.inc REC.REFUSED
    else
      let last := match s.rcd.ring.getLast? with | some x => x.seq.toNat | none => (s.r REC.HEAD_SEQ + 2 ^ 32 - 1) % 2 ^ 32
      let s := ((s.w REC.FROZEN 1).w REC.FRZ_FIRST (s.r REC.OLDEST_SEQ)).w REC.FRZ_LAST last
      let s := s.setRec (fun k => { k with frozenAt := s.up, frozenBy := ownerCode r })
      (s.writeRec 0xF01 (leBytes 4 (s.r REC.FRZ_FIRST) ++ leBytes 4 last ++ [ownerCode r])).raise 10 0 1
        (leBytes 4 (s.r REC.HEAD_SEQ) ++ leBytes 4 0)

/-- R468: FRZ_CMD = RELEASE. -/
def execRecRelease (t : Nat) (r : Requester) (s : State) : Host.Outcome State Fault Refusal :=
  s.cmdK t fun s => s.pageWrite r ⟨10, 0⟩ true fun s => if s.on REC.FROZEN then s.thaw 0 else s

/-- R468: FREEZE_MAX_S has passed. -/
def execFreezeMaxExpiry (t : Nat) (s : State) : Host.Outcome State Fault Refusal :=
  s.runK .keep t fun s =>
    if s.on REC.FROZEN ∧ s.rcd.frozenAt + 1000000000 * s.r REC.FREEZE_MAX_S ≤ s.up then s.thaw 1 else s

/-- A record is copied whole into the window buffer (R469). -/
def State.window (s : State) (seq : Nat) : State :=
  let x := s.rcd.ring.find? (fun y => y.seq.toNat == seq)
  let s := (s.setRec (fun k => { k with win := x })).w REC.WIN_SEQ seq
  ((s.wb REC.WIN_FOUND x.isSome).wb REC.WIN_CRC_OK (x.any (·.crcOk))).w REC.WIN_LEN ((x.map Rec1.len).getD 0)

/-- R469: a write of WIN_SEQ. -/
def execWinSeqWrite (t : Nat) (r : Requester) (v : Word) (s : State) : Host.Outcome State Fault Refusal :=
  s.cmdK t fun s => s.pageWrite r ⟨10, 0⟩ true fun s => s.window v.toNat

/-- R469: WIN_NEXT = 1 selects the record that follows. -/
def execWinNext (t : Nat) (r : Requester) (s : State) : Host.Outcome State Fault Refusal :=
  s.cmdK t fun s => s.pageWrite r ⟨10, 0⟩ true fun s => s.window ((s.r REC.WIN_SEQ + 1) % 2 ^ 32)

/-- A requester that may read records (R469). -/
def State.isReader (s : State) (r : Requester) : Bool := r == .keeper || (s.r REC.READERS).testBit (ownerCode r)

/-- R469: a read of a word of WIN_DATA. -/
def execWinDataRead (t : Nat) (r : Requester) (idx : Fin 129) (s : State) : Host.Outcome State Fault Refusal :=
  s.cmdK t fun s => s.pageRead r ⟨10, 0⟩ fun s =>
    if s.isReader r then
      s.reply r (leVal ((((s.rcd.win.map Rec1.bytes).getD []).drop (4 * idx.val)).take 4))
    else (s.inc REC.PRIV_VIOL).reply r 0

/-- R470: EXP_CMD = START. A START while an export runs has no effect (assumption 14). -/
def execExportStart (t : Nat) (r : Requester) (s : State) : Host.Outcome State Fault Refusal :=
  s.cmdK t fun s => s.pageWrite r ⟨10, 0⟩ true fun s =>
    if s.rcd.exporting.isSome then s
    else
      let last := (s.r REC.HEAD_SEQ + 2 ^ 32 - 1) % 2 ^ 32
      ((s.setRec (fun k => { k with exporting := some (s.r REC.EXP_FROM, last, s.opSec) })).w REC.EXP_STATE 1).w REC.HOLDING 1

/-- The export ends in a state; the hold ends with it unless the ring is frozen (R470, R474). -/
def State.endExport (s : State) (st : Nat) : State :=
  let s := ((s.setRec (fun k => { k with exporting := none })).w REC.EXP_STATE st).w REC.HOLDING 0
  if s.on REC.FROZEN then s else s.unhold

/-- R475: EXP_CMD = ABORT. -/
def execExportAbort (t : Nat) (r : Requester) (s : State) : Host.Outcome State Fault Refusal :=
  s.cmdK t fun s => s.pageWrite r ⟨10, 0⟩ true fun s => if s.rcd.exporting.isSome then s.endExport 3 else s

/-- The longest run of whole records within `n` bytes. -/
def within (n : Nat) : List Rec1 → List Rec1
  | [] => []
  | x :: xs => if x.len ≤ n then x :: within (n - x.len) xs else []

/-- The records that an export copies (R470). -/
def State.exported (s : State) (first last : Nat) : List Rec1 :=
  within (s.r REC.EXP_MAX) (s.rcd.ring.filter (fun x => seqGe x.seq.toNat first && seqGe last x.seq.toNat))

/-- The export header (R470). -/
def State.exportHeader (s : State) (xs : List Rec1) (opSec : Nat) (sealed : Bool) : List Nat :=
  let f := match xs.head? with | some x => x.seq.toNat | none => 0
  let l := match xs.getLast? with | some x => x.seq.toNat | none => 0
  let h := leBytes 4 0x50584552 ++ leBytes 2 1 ++ leBytes 2 (s.r DCH.UNIT_ADDR) ++
    (sgets 0 s.fuses 0 8).map BitVec.toNat ++ leBytes 4 f ++ leBytes 4 l ++ leBytes 4 xs.length ++
    leBytes 4 ((xs.map Rec1.len).sum) ++ leBytes 5 opSec ++ leBytes 3 (s.r KPR.PWR_CYC) ++ [sealed.toNat] ++ List.replicate 19 0
  h ++ leBytes 4 (crc32c h)

/-- Whole segments whose last record lies at or before UPTO (R472). -/
def clearable (ring : List Rec1) (upto : Nat) (x : Rec1) : Bool :=
  (ring.filter (fun y => y.seg == x.seg)).all (fun y => seqGe upto y.seq.toNat)

/-- R472: the segments cleared by the last authorised clear are marked empty in the ring and the image. -/
def State.markCleared (s : State) : State :=
  match s.rcd.clearing with
  | none => s
  | some u =>
    (s.setRec (fun k => { k with clearing := none, ring := k.ring.filter (fun x => !clearable k.ring u x),
                                 image := k.image.filter (fun x => !clearable k.image u x) })).oldest.ringFill

/-- R472: the marking of the cleared segments is complete. -/
def execClearMarkDone (t : Nat) (s : State) : Host.Outcome State Fault Refusal :=
  s.runK .keep t fun s =>
    if s.rcd.clearing.isSome then
      s.markCleared.raise 10 0 2 (leBytes 4 (s.r REC.HEAD_SEQ) ++ leBytes 4 0)
    else s

/-- R475: CTR_CLR. -/
def execRecCtrClr (t : Nat) (r : Requester) (s : State) : Host.Outcome State Fault Refusal :=
  s.cmdK t fun s => s.pageWrite r ⟨10, 0⟩ true fun s =>
    ((((((s.w REC.OVERWRITTEN 0).w REC.LOST_UNEXPORTED 0).w REC.INPUT_LOST 0).w REC.SUPP_TOTAL 0).w REC.PRIV_VIOL 0).w
      REC.REFUSED 0)

/-- R568: the ring is rebuilt from the image and RING_RECOVERED is written. -/
def State.recoverRing (s : State) : State :=
  let img := s.rcd.image
  let newest := match img.getLast? with | some x => x.seq.toNat | none => 0xFFFFFFFF
  let bad := (img.filter (fun x => !x.crcOk)).length
  let s := s.setRec (fun k => { k with ring := img, holding := [] })
  let s := match img.getLast? with
    | some x => s.setRec (fun k => { k with segNo := x.seg, segFill := ((img.filter (fun (y : Rec1) => y.seg == x.seg)).map Rec1.len).sum })
    | none => s
  let s := (s.w REC.HEAD_SEQ (newest + 1)).oldest
  let s := if img = [] then s else s.w REC.PERSIST_SEQ newest
  s.writeRec 0xF07 (leBytes 4 newest ++ leBytes 4 (img.length - bad) ++ leBytes 4 bad)

end Sys2Proof.Machine
end

