-- ==== Sys2Proof/Machine/Sec.lean ====
section
/-! DEFINITION. Signatures, attestation, tokens and in-service update (R501 to R520), and the recorder's sealed export and signed clear (R470, R471). -/

namespace Sys2Proof.Machine

/-- Update the security record. -/
def State.setSec (s : State) (f : SecX → SecX) : State := { s with sec := f s.sec }

/-- `n` bytes of general SRAM from internal address `a` on. -/
def State.gen (s : State) (a n : Nat) : List Nat := (sgets 0 s.general a n).map BitVec.toNat

/-- Bytes are written to general SRAM; what would lie beyond it is discarded. -/
def State.putGen (s : State) (a : Nat) (bs : List Nat) : State :=
  { s with general := ssets 0 s.general a ((bs.take (0x49000000 - a)).map (BitVec.ofNat 8)) }

/-- `n` bytes of the fuse array (R501). -/
def State.fuse (s : State) (off n : Nat) : List Nat := (sgets 0 s.fuses off n).map BitVec.toNat

/-- Fuse bits are set; a fuse bit can only be set (R501). -/
def State.burn (s : State) (off mask : Nat) : State :=
  { s with fuses := sset 0 s.fuses off (sget 0 s.fuses off ||| BitVec.ofNat 8 mask) }

/-- DEVICE_ID (R501). -/
def State.deviceId (s : State) : Nat := leVal (s.fuse 0 8)

/-- The public key of an anchor slot (R501). -/
def State.anchorKey (s : State) (slot : Nat) : List Nat := s.fuse (0x200 + 256 * slot) 68

/-- The number of set bits of a byte list. -/
def popBytes (bs : List Nat) : Nat := (bs.map (fun b => ((List.range 8).filter (fun i => b.testBit i)).length)).sum

/-- The registers that show fuses (R519). The VALID and REVOKED bits stand in bits 0 and 1 of the byte after the key (assumption 15). -/
def State.senseFuses (s : State) : State :=
  let bit := fun b => ((List.range 8).filter (fun i => ((s.fuse (0x200 + 256 * i + 68) 1).headD 0).testBit b)).foldl
    (fun v i => v + 2 ^ i) 0
  let floor := s.fuse 0x100 128
  let top := ((List.range 1024).filter (fun i => (floor.getD (i / 8) 0).testBit (i % 8))).getLast?.getD 0
  ((((s.w SEC.ANCHOR_VALID (bit 0)).w SEC.ANCHOR_REVOKED (bit 1)).w SEC.POLICY (leVal (s.fuse 0x180 4))).w
    SEC.MIN_SVN (popBytes (s.fuse 0x184 8))).w SEC.IDX_FLOOR top

/-- A slot in force (R501). -/
def State.inForce (s : State) (slot : Nat) : Bool :=
  decide (slot < 8) && (s.r SEC.ANCHOR_VALID).testBit slot && !(s.r SEC.ANCHOR_REVOKED).testBit slot

/-- A bit of POLICY (R502). -/
def State.policy (s : State) (b : Nat) : Bool := (s.r SEC.POLICY).testBit b

/-- The parameter-set identifier at the start of a key, most significant byte first as RFC 8391 has it (assumption 15). -/
def keyOid (key : List Nat) : Nat := (key.take 4).foldl (fun v b => 256 * v + b) 0

/-- SIG_LEN of a parameter set of SP 800-208 (R501, R503). -/
def sigLen (oid : Nat) : Nat := if oid = 0x10 then 2500 else if oid = 0x11 then 2692 else 2820

/-- `n` rounded up to a multiple of 256. -/
def up256 (n : Nat) : Nat := (n + 255) / 256 * 256

/-- A field of a signature block (R503). -/
def blk (b : List Nat) (off n : Nat) : Nat := leVal ((b.drop off).take n)

/-- The verification of an object and its block, in the order of R504; `key` is the key that SLOT stands for. -/
def State.vfyCause (s : State) (kind : Nat) (obj b : List Nat) (fits : Bool) (slotOk : Nat → Bool)
    (key : Nat → List Nat) : Nat :=
  let k := key (blk b 7 1)
  let n := blk b 0x10 4
  let bind := blk b 0x1C 8
  if blk b 0 4 ≠ 0x42474953 ∨ blk b 4 2 ≠ 1 ∨ !fits then 1
  else if blk b 6 1 ≠ kind then 2
  else if !slotOk (blk b 7 1) then 3
  else if blk b 8 4 ≠ keyOid k ∨ n ≠ sigLen (keyOid k) then 4
  else if (bind ≠ 0 ∧ bind ≠ s.deviceId) ∨ (bind = 0 ∧ kind = 4) then 5
  else if blk b 0xC 4 ≠ obj.length ∨ (b.drop 0x40).take 64 ≠ Config.shake256 obj 64 then 6
  else if !Config.xmssVerify k (b.take 0x80) ((b.drop 0x80).take n) then 7
  else if kind = 1 ∧ blk b 0x18 4 < s.r SEC.MIN_SVN then 8
  else 0

/-- The bytes of a block that starts with `b`: header and signature, padded (R503). -/
def blkSize (b : List Nat) : Nat := up256 (0x80 + blk b 0x10 4)

/-- The result of a verification: VFY_CAUSE, and on failure REJECTED, IMAGE_REJECTED and its record (R504, R520). -/
def State.vfyDone (s : State) (kind slot cause : Nat) : State :=
  let s := s.w SEC.VFY_CAUSE cause
  if cause = 0 then s
  else
    let pay := [kind, slot] ++ leBytes 2 cause
    ((s.inc SEC.REJECTED).raise 2 0 0 pay).writeRec 0x600 pay

/-! ### The identity key (R506, R507) -/

/-- The next identity index. -/
def State.idx (s : State) : Nat := s.r SEC.IDX_LO + 2 ^ 32 * s.r SEC.IDX_HI

/-- Replace the next identity index; INDEX_LOW follows (R507). -/
def State.setIdx (s : State) (n : Nat) : State :=
  ((s.w SEC.IDX_LO n).w SEC.IDX_HI (n / 2 ^ 32)).setRaw 2 0 1 (decide (2 ^ 40 - n < s.r SEC.IDX_LOW_THR * 2 ^ 30)) [0, 0, 0, 0]

/-- Why no signature can be made: 1 RATE, 2 NO_INDEX (R507, R519). A batch that no MRAM device can take is no index (assumption 16). -/
def State.signCause (s : State) : Nat :=
  if 10 ≤ (s.sec.signTimes.filter (fun t => decide (s.up < t + 1000000000))).length then 1
  else if 2 ^ 40 ≤ s.idx then 2
  else if s.sec.batchEnd ≤ s.idx ∧ !s.mramOk then 2
  else 0

/-- A floor bit is burned before the first batch that reaches into its block (R506). -/
def State.burnFloor (s : State) (k : Nat) : State :=
  if ((s.fuse (0x100 + k / 8) 1).headD 0).testBit (k % 8) then s
  else ((s.burn (0x100 + k / 8) (2 ^ (k % 8))).w SEC.IDX_FLOOR k).writeRec 0x60A (leBytes 2 k)

/-- A new batch of indices is persisted where the last one is used up (R506). -/
def State.reserveBatch (s : State) : State :=
  if s.idx < s.sec.batchEnd then s
  else
    let e := min (2 ^ 40) (s.idx + s.r SEC.INDEX_BATCH)
    (s.setSec (fun k => { k with batchEnd := e, mramIdx := some e })).burnFloor ((e - 1) / 2 ^ 30)

/-- An index is taken for a signature. -/
def State.takeIndex (s : State) : State :=
  let s := s.reserveBatch
  let s := s.setSec (fun k => { k with signTimes := s.up :: k.signTimes.filter (fun t => decide (s.up < t + 1000000000)) })
  (s.inc SEC.SIGNS).setIdx (s.idx + 1)

/-- The identity signature block of an object under an index (R503). -/
def State.idBlock (s : State) (kind : Nat) (obj : List Nat) (index : Nat) : List Nat :=
  let oid := keyOid (s.fuse 8 68)
  let h := leBytes 4 0x42474953 ++ leBytes 2 1 ++ [kind, 0xFF] ++ leBytes 4 oid ++ leBytes 4 obj.length ++ leBytes 4 9893 ++
    leBytes 4 0 ++ leBytes 4 0 ++ leBytes 8 s.deviceId ++ List.replicate 28 0 ++ padTo'' 64 (Config.shake256 obj 64)
  padTo'' 10240 (h ++ padTo'' 9893 (Config.xmssSign h index))
where
  /-- Cut or padded with zero bytes to `n`. -/
  padTo'' (n : Nat) (bs : List Nat) : List Nat := (bs ++ List.replicate n 0).take n

/-! ### Attestation (R508) -/

/-- R508: ATT_CMD = START. -/
def execAttestStart (t : Nat) (r : Requester) (s : State) : Host.Outcome State Fault Refusal :=
  s.cmd t fun s => s.pageWrite r ⟨2, 0⟩ true fun s =>
    let c := if s.sec.attesting ∨ s.r SEC.FW_STATE = 6 then 3 else s.signCause
    let s := s.w SEC.ATT_CAUSE c
    if c ≠ 0 then s
    else
      let i := s.idx
      let nonce := s.gen (s.r SEC.ATT_SRC) 32
      s.takeIndex.setSec (fun k => { k with attesting := true, attIdx := i, attNonce := nonce })

/-- The digest of the content of a slot in MRAM as the model holds it: its words (R508). -/
def wordsDigest (ws : List (Nat × Word)) : List Nat :=
  Config.shake256 (ws.flatMap (fun p => leBytes 4 p.1 ++ leBytes 4 p.2.toNat)) 32

/-- The attestation report (R508). -/
def State.report (s : State) : List Nat :=
  let act := s.r SEC.FW_ACTIVE
  let set := if s.on DSQ.ACTIVE_SLOT then s.dsq.slotB else s.dsq.slotA
  let cut := fun (bs : List Nat) => (bs ++ List.replicate 32 0).take 32
  leBytes 4 0x54544152 ++ leBytes 2 1 ++ [s.r DCH.UNIT_ADDR, s.r DCH.ROLE] ++ leBytes 8 s.deviceId ++
  cut s.sec.attNonce ++ leBytes 8 (stamp s.now) ++ leBytes 8 (s.opSec % 2 ^ 40) ++ leBytes 4 (s.r KPR.PWR_CYC) ++
  leBytes 4 (s.r DCH.PAIR_EPOCH) ++
  leBytes 4 (act + 2 ^ 8 * s.r SEC.ANCHOR_VALID + 2 ^ 16 * s.r SEC.ANCHOR_REVOKED) ++
  leBytes 4 (if act = 0 then s.r SEC.FW_VER_A else s.r SEC.FW_VER_B) ++ leBytes 4 (sget 0 s.sec.svnOf act) ++
  leBytes 4 (s.r SEC.POLICY) ++ leBytes 4 (s.r SEC.DBG_SCOPE) ++ leBytes 4 (s.r REC.HEAD_SEQ) ++
  cut (sget [] s.sec.fwDigests act) ++ cut (wordsDigest s.pwr.progSlot) ++ cut (wordsDigest s.pwr.cfgRegs) ++
  cut set.digest ++ leBytes 4 (s.r DSQ.ACTIVE_SET_ID) ++ List.replicate 28 0

/-- R508: the report and its block are written. -/
def execAttestDone (t : Nat) (s : State) : Host.Outcome State Fault Refusal :=
  s.runM .keep t fun s =>
    if !s.sec.attesting then s
    else
      let b := s.report
      ((s.putGen (s.r SEC.ATT_DST) (b ++ s.idBlock 5 b s.sec.attIdx)).setSec (fun k => { k with attesting := false })).writeRec
        0x60C (leBytes 5 s.sec.attIdx)

/-! ### Export and clear (R470, R471, R509) -/

/-- R470, R509: the export's output is written, sealed where EXP_SEAL asks for it and a signature can be made. -/
def execExportDone (t : Nat) (s : State) : Host.Outcome State Fault Refusal :=
  s.cmd t fun s => s.inside .keep fun s =>
    match s.rcd.exporting with
    | none => s
    | some (a, z, opS) =>
      let xs := s.exported a z
      let sl := s.on REC.EXP_SEAL && s.signCause == 0
      let h := s.exportHeader xs opS sl
      let out := h ++ xs.flatMap Rec1.bytes
      let i := s.idx
      let s := if sl then s.takeIndex else s
      let out' := if sl then (out ++ List.replicate (up256 out.length - out.length) 0) ++ s.idBlock 6 out i else out
      ((s.putGen (s.r REC.EXP_DST) out').endExport 2).writeRec 0xF09 ((h.drop 16).take 8 ++ [sl.toNat])

/-- A new 64-bit CLR_NONCE (R471); a free value. -/
def State.drawClrNonce (s : State) : State :=
  let v := (Config.free 64 s.freeTick).toNat
  (s.fresh.w REC.CLR_NONCE_LO v).w REC.CLR_NONCE_HI (v / 2 ^ 32)

/-- A new TOK_NONCE (R510); a free value. -/
def State.drawTokNonce (s : State) : State :=
  let v := (Config.free 64 s.freeTick).toNat
  (s.fresh.w SEC.TOK_NONCE_LO v).w SEC.TOK_NONCE_HI (v / 2 ^ 32)

/-- A slot that may sign CLEAR or DEBUG tokens: an owner slot, or any with its POLICY bit (R505). -/
def State.ownerOr (s : State) (bit slot : Nat) : Bool := s.inForce slot && (decide (4 ≤ slot) || s.policy bit)

/-- The block of the token at `a` (R503, R510). -/
def State.tokenBlock (s : State) (a : Nat) : List Nat := s.gen (a + 256) (blkSize (s.gen (a + 256) 0x80))

/-- The token and its block lie within general SRAM. -/
def tokenFits (a : Nat) (b : List Nat) : Bool := decide (a + 256 + b.length ≤ 0x49000000 ∧ b.length ≤ 0x1000)

/-- The cause for which a clear is refused, 0 for none (R471). A CLEAR token that does not name this device or is no CLEAR token counts as one that does not verify (assumption 17). -/
def State.clearCause (s : State) (tok b : List Nat) (vfy : Nat) : Nat :=
  let upto := blk tok 0x18 4
  let last := match s.rcd.ring.getLast? with | some x => x.seq.toNat | none => s.r REC.HEAD_SEQ
  if s.on REC.FROZEN ∨ s.rcd.exporting.isSome then 1
  else if blk tok 0x10 8 ≠ s.r REC.CLR_NONCE_LO + 2 ^ 32 * s.r REC.CLR_NONCE_HI then 2
  else if !(seqGe upto (s.r REC.OLDEST_SEQ) && seqGe last upto) then 3
  else if vfy ≠ 0 ∨ blk tok 0 4 ≠ 0x4B4F5452 ∨ blk tok 4 2 ≠ 1 ∨ blk tok 6 1 ≠ 1 ∨ blk tok 8 8 ≠ s.deviceId ∨
      b = [] then 4
  else 0

/-- The CLEARED record and the start of the marking (R472). -/
def State.beginClear (s : State) (r : Requester) (tok b : List Nat) : State :=
  let upto := blk tok 0x18 4
  let gone := s.rcd.ring.filter (clearable s.rcd.ring upto)
  let f := match gone.head? with | some x => x.seq.toNat | none => s.r REC.OLDEST_SEQ
  let l := match gone.getLast? with | some x => x.seq.toNat | none => (s.r REC.OLDEST_SEQ + 2 ^ 32 - 1) % 2 ^ 32
  let pay := leBytes 4 f ++ leBytes 4 l ++ [blk b 7 1, ownerCode r] ++ (Config.shake256 (tok ++ b) 64).take 16
  let s := (s.writeRec 0xF03 pay).persistAll
  s.setRec (fun k => { k with clearing := some upto })

/-- R471: CLR_CMD = START. -/
def execClearStart (t : Nat) (r : Requester) (s : State) : Host.Outcome State Fault Refusal :=
  s.cmdM t fun s => s.pageWrite r ⟨10, 0⟩ true fun s =>
    let a := s.r REC.CLR_TOKEN
    let tok := s.gen a 128
    let b := s.tokenBlock a
    let vfy := s.vfyCause 4 tok b (tokenFits a b) (s.ownerOr 2) s.anchorKey
    let c := s.clearCause tok b vfy
    let s := s.w REC.CLR_CAUSE c
    let s := if c = 4 then s.vfyDone 4 (blk b 7 1) vfy else s
    let s := if c = 0 then s.beginClear r tok b
      else (s.writeRec 0xF04 [c, ownerCode r]).raise 10 0 2 (leBytes 4 (s.r REC.HEAD_SEQ) ++ leBytes 4 c)
    s.drawClrNonce

/-! ### Tokens (R510 to R513) -/

/-- The debug port closes (R513). -/
def State.closeDebug (s : State) : State :=
  if s.r SEC.DBG_SCOPE = 0 then s
  else ((s.w SEC.DBG_SCOPE 0).raise 2 0 2 [0, 0, 0, 0]).writeRec 0x609 [0, 0, 0, 0]

/-- A token that programs an owner slot under the KEY it carries (R512). -/
def State.selfSigned (s : State) (tok b : List Nat) : Bool :=
  let slot := blk b 7 1
  decide (4 ≤ slot ∧ slot < 8) && blk tok 0x1C 4 == slot && blk tok 6 1 == 3 && blk tok 0x18 4 == 1 &&
  !(s.r SEC.ANCHOR_VALID).testBit slot && !s.policy 5 && [4, 5, 6, 7].all (fun i => !s.inForce i)

/-- The slots that may sign a token (R505, R511, R512). A slot is revoked under another slot of its own class, as R511 says (assumption 18). -/
def State.tokenSlot (s : State) (tok b : List Nat) (slot : Nat) : Bool :=
  let arg0 := blk tok 0x18 4
  let arg1 := blk tok 0x1C 4
  if blk tok 6 1 = 2 then s.ownerOr 3 slot
  else if s.selfSigned tok b then true
  else if (arg0 = 1 ∧ arg1 < 4) ∨ arg0 = 4 ∨ (arg0 = 2 ∧ arg1 < 4) then s.inForce slot && decide (slot < 4)
  else s.inForce slot && decide (4 ≤ slot)

/-- The key that a token is verified with (R512). -/
def State.tokenKey (s : State) (tok b : List Nat) (slot : Nat) : List Nat :=
  if s.selfSigned tok b then (tok.drop 0x20).take 68 else s.anchorKey slot

/-- The rule that a verified FUSE token still has to meet (R511). -/
def State.fuseRule (s : State) (tok b : List Nat) : Bool :=
  let arg1 := blk tok 0x1C 4
  let cls := fun i => decide (i / 4 = arg1 / 4)
  match blk tok 0x18 4 with
  | 1 => decide (arg1 < 8) && !(s.r SEC.ANCHOR_VALID).testBit arg1 && !s.policy 5
  | 2 => s.inForce arg1 && decide (blk b 7 1 ≠ arg1) &&
         decide (1 < ((List.range 8).filter (fun i => cls i && s.inForce i)).length)
  | 3 => true
  | 4 => decide (s.r SEC.MIN_SVN < arg1 ∧ arg1 ≤ sget 0 s.sec.svnOf (s.r SEC.FW_ACTIVE) ∧ arg1 ≤ 64)
  | _ => false

/-- TOK_CAUSE of a token (R511, R513, R519). -/
def State.tokenCause (s : State) (tok b : List Nat) (vfy : Nat) : Nat :=
  let scope := blk tok 0x18 4
  let dur := blk tok 0x1C 4
  if vfy ≠ 0 then vfy
  else if blk tok 0 4 ≠ 0x4B4F5452 ∨ blk tok 4 2 ≠ 1 ∨ blk tok 8 8 ≠ s.deviceId ∨
      blk tok 0x10 8 ≠ s.r SEC.TOK_NONCE_LO + 2 ^ 32 * s.r SEC.TOK_NONCE_HI then 9
  else if blk tok 6 1 = 2 then
    if s.policy 4 then 10
    else if 2 ≤ scope % 8 ∧ s.on DCH.OUT_EN then 11
    else if dur = 0 ∨ 86400 < dur ∨ scope = 0 ∨ 8 ≤ scope then 9
    else 0
  else if blk tok 6 1 = 3 then (if s.fuseRule tok b then 0 else 9)
  else 9

/-- A FUSE token takes effect (R511). -/
def State.fuseAct (s : State) (tok : List Nat) : State :=
  let arg1 := blk tok 0x1C 4
  let at0 := 0x200 + 256 * arg1
  let s := match blk tok 0x18 4 with
    | 1 =>
      let s := ((tok.drop 0x20).take 68).zipIdx.foldl (fun (s : State) (p : Nat × Nat) => s.burn (at0 + p.2) p.1) s
      s.burn (at0 + 68) 1
    | 2 => s.burn (at0 + 68) 2
    | 3 => s.burn 0x180 (arg1 % 64)
    | _ => (List.range arg1).foldl (fun (s : State) (i : Nat) => s.burn (0x184 + i / 8) (2 ^ (i % 8))) s
  s.senseFuses.writeRec 0x606 (leBytes 1 (blk tok 0x18 4) ++ leBytes 4 arg1)

/-- The debug port opens (R513). -/
def State.openDebug (s : State) (tok : List Nat) : State :=
  let scope := blk tok 0x18 4
  let s := (s.w SEC.DBG_SCOPE scope).setSec (fun k => { k with dbgEnd := s.up + 1000000000 * blk tok 0x1C 4 })
  (s.raise 2 0 2 [4, 0, 0, 0]).writeRec 0x608 (scope :: leBytes 4 (blk tok 0x1C 4))

/-- R511 to R513: TOK_CMD = APPLY. -/
def execTokenApply (t : Nat) (r : Requester) (s : State) : Host.Outcome State Fault Refusal :=
  s.cmd t fun s => s.pageWrite r ⟨2, 0⟩ true fun s =>
    let a := s.r SEC.TOK_ADDR
    let tok := s.gen a 128
    let b := s.tokenBlock a
    let vfy := s.vfyCause 4 tok b (tokenFits a b) (s.tokenSlot tok b) (s.tokenKey tok b)
    let s := s.vfyDone 4 (blk b 7 1) vfy
    let c := s.tokenCause tok b vfy
    let s := s.w SEC.TOK_CAUSE c
    let s := if c ≠ 0 then s.writeRec 0x607 [c] else if blk tok 6 1 = 2 then s.openDebug tok else s.fuseAct tok
    (s.raise 2 0 3 ([4, blk b 7 1] ++ leBytes 2 c)).drawTokNonce

/-- R513: DBG_CLOSE. -/
def execDbgClose (t : Nat) (r : Requester) (s : State) : Host.Outcome State Fault Refusal :=
  s.cmdK t fun s => s.pageWrite r ⟨2, 0⟩ true State.closeDebug

/-- R513: DURATION_S has passed. -/
def execDebugExpiry (t : Nat) (s : State) : Host.Outcome State Fault Refusal :=
  s.runK .keep t fun s => if s.sec.dbgEnd ≤ s.up then s.closeDebug else s

/-- DBG_REMAIN_S (R519). -/
def State.dbgRemain (s : State) : Nat :=
  if s.r SEC.DBG_SCOPE = 0 then 0 else (s.sec.dbgEnd - s.up + 999999999) / 1000000000

/-! ### In-service update (R514 to R518) -/

/-- FW_STATE changes (R516, R520). -/
def State.fwState (s : State) (st cause : Nat) : State :=
  (s.w SEC.FW_STATE st).raise 2 0 4 ([st, 1 - s.r SEC.FW_ACTIVE] ++ leBytes 2 cause)

/-- The offset of the signature block in a firmware image of `size` bytes, its block included: the place at which a block with a matching OBJ_SIZE starts (R503, R516). -/
def State.fwBlock (s : State) (src size : Nat) : Option Nat :=
  [3072, 2816].findSome? (fun n =>
    let o := size - n
    let h := s.gen (src + o) 0x80
    if n ≤ size ∧ blk h 0 4 = 0x42474953 ∧ up256 (blk h 0xC 4) = o then some o else none)

/-- R516: FW_CMD = INSTALL. -/
def execInstall (t : Nat) (r : Requester) (s : State) : Host.Outcome State Fault Refusal :=
  s.cmdK t fun s => s.pageWrite r ⟨2, 0⟩ true fun s =>
    if s.r SEC.FW_STATE ≠ 0 then s.inc SEC.REFUSED
    else
      let resync := s.r PST.DEV0_STATE == 4 || s.r PST.DEV1_STATE == 4
      (s.setSec (fun k => { k with switchReq := false, waits := resync })).fwState 1 0

/-- The target slot of an install: the one that is not active (R514). -/
def State.fwTarget (s : State) : Nat := 1 - s.r SEC.FW_ACTIVE

/-- An install ends before its commit, with the step it reached (R515, R517). -/
def State.abandon (s : State) (step : Nat) : State :=
  let s := if 2 ≤ step then (s.setSec (fun k => { k with journal := none })).writeRec 0x604 [step] else s
  s.fwState 0 step

/-- R519: FW_CMD = ABORT before step 5 acts as a reset of the install. -/
def execInstallAbort (t : Nat) (r : Requester) (s : State) : Host.Outcome State Fault Refusal :=
  s.cmdK t fun s => s.pageWrite r ⟨2, 0⟩ true fun s =>
    let st := s.r SEC.FW_STATE
    if 1 ≤ st ∧ st < 5 then s.abandon st else s

/-- R516: FW_CMD = SWITCH. -/
def execInstallSwitch (t : Nat) (r : Requester) (s : State) : Host.Outcome State Fault Refusal :=
  s.cmdK t fun s => s.pageWrite r ⟨2, 0⟩ true fun s =>
    if s.r SEC.FW_STATE = 6 then s.setSec (fun k => { k with switchReq := true }) else s

/-- Step 1: the image in general SRAM is verified (R516). -/
def State.fwVerify (s : State) : State :=
  let src := s.r SEC.FW_SRC
  let size := s.r SEC.FW_SIZE
  let o := s.fwBlock src size
  let off := o.getD 0
  let b := s.gen (src + off) (size - off)
  let obj := s.gen src (blk b 0xC 4)
  let c := if o.isNone then 1
    else s.vfyCause 1 obj b (decide (blkSize b ≤ size - off ∧ src + size ≤ 0x49000000)) (fun k => s.inForce k && decide (k < 4)) s.anchorKey
  let s := s.vfyDone 1 (blk b 7 1) c
  if c ≠ 0 then (s.inc SEC.REFUSED).fwState 0 c
  else (s.setSec (fun k => { k with
      fwDigest := Config.shake256 (s.gen src size) 64,
      fwVersion := BitVec.ofNat 32 (blk b 0x14 4),
      fwSvn := blk b 0x18 4,
      fwDigests := sset [] k.fwDigests s.fwTarget ((b.drop 0x40).take 64) })).fwState 2 0

/-- Step 2: the journal entry stands and the target's marker is erased (R514). -/
def State.fwBegin (s : State) : State :=
  let g := s.fwTarget
  let now := s.up
  let s := (s.eraseMarker g).setSec (fun k => { k with journal := some 2, copyAt := now })
  (s.writeRec 0x601 [g]).fwState 3 0

/-- Bytes of a sparse memory from `a` on, `n` of them, moved to `b`. -/
def movedBytes (m : List (Nat × Byte)) (a n b : Nat) : List (Nat × Byte) :=
  (m.filter (fun p => decide (a ≤ p.1 ∧ p.1 < a + n))).map (fun p => (p.1 - a + b, p.2))

/-- Step 3: the image is copied into the target slot (R23, R516). -/
def State.fwCopy (s : State) : State :=
  let g := s.fwTarget
  let new := movedBytes s.general (s.r SEC.FW_SRC) (s.r SEC.FW_SIZE) (g * 2 ^ 19)
  let kept := s.sec.fwSlots.filter (fun p => p.1 / 2 ^ 19 != g)
  let slots := if g = 0 then new ++ kept else kept ++ new
  (s.setSec (fun k => { k with journal := some 3, fwSlots := slots })).fwState 4 0

/-- The Keeper loads its patch from a firmware slot (R20, R529, R537). -/
def State.loadPatch (s : State) (g : Nat) : State :=
  s.setSec (fun k => { k with patchRam := movedBytes k.fwSlots (g * 2 ^ 19) (2 ^ 19) 0 })

/-- Step 4: each device's copy is read back; a source changed after step 1 fails here, and so does an install with no device left (R516, R518). -/
def State.fwReadBack (s : State) : State :=
  if s.mramOk ∧ Config.shake256 (s.gen (s.r SEC.FW_SRC) (s.r SEC.FW_SIZE)) 64 = s.sec.fwDigest then
    (s.setSec (fun k => { k with journal := some 4 })).fwState 5 0
  else (s.inc SEC.REFUSED).abandon 4

/-- Step 5: the marker is written with the sequence one above the other slot's (R514). -/
def State.fwCommit (s : State) : State :=
  let g := s.fwTarget
  let q := s.markerSeq (1 - g) + 1
  let now := s.on SEC.AUTO_SWITCH
  let s := (s.commitMarker g).setSec (fun k => { k with svnOf := sset 0 k.svnOf g k.fwSvn, journal := some 5, switchReq := now || k.switchReq })
  ((if g = 0 then s.w SEC.FW_VER_A s.sec.fwVersion.toNat else s.w SEC.FW_VER_B s.sec.fwVersion.toNat).writeRec 0x602
    (g :: leBytes 4 q)).fwState 6 0

/-- Step 6: the new firmware runs; the journal closes (R516). The plan rhythm has paused at the snapshot instant (R151); the standby of a pair runs no plan rhythm of its own and restarts as soon as the switch is asked for (R42, R516). -/
def State.fwSwitched (s : State) : State :=
  if s.ho.pause || (s.sec.switchReq && (s.r DCH.ROLE == 1 || s.r DCH.ROLE == 2)) then
    let s := { s with ho := { s.ho with pause := false } }
    let g := s.fwTarget
    let s := ((s.w SEC.FW_ACTIVE g).loadPatch g).setSec (fun k => { k with journal := none, switchReq := false })
    (s.writeRec 0x603 [g]).fwState 0 0
  else s

/-- R516: an install step completes; the copy not before its bytes have gone at 6 KiB/s. -/
def execInstallStepDone (t : Nat) (s : State) : Host.Outcome State Fault Refusal :=
  s.runK .keep t fun s =>
    match s.r SEC.FW_STATE with
    | 1 => if s.sec.waits && (s.r PST.DEV0_STATE == 4 || s.r PST.DEV1_STATE == 4) then s else s.fwVerify
    | 2 => s.fwBegin
    | 3 => if s.up < s.sec.copyAt + s.r SEC.FW_SIZE * 1000000000 / 6144 then s else s.fwCopy
    | 4 => s.fwReadBack
    | 5 => s.fwCommit
    | 6 => s.fwSwitched
    | _ => s

/-- FW_PCT (R519): the copy runs at 6 KiB/s (R516). -/
def State.fwPct (s : State) : Nat :=
  let st := s.r SEC.FW_STATE
  if st = 3 then min 100 ((s.up - s.sec.copyAt) * 6144 * 100 / (1000000000 * max 1 (s.r SEC.FW_SIZE)))
  else if 4 ≤ st then 100 else 0

/-- R519: CTR_CLR. -/
def execSecCtrClr (t : Nat) (r : Requester) (s : State) : Host.Outcome State Fault Refusal :=
  s.cmdK t fun s => s.pageWrite r ⟨2, 0⟩ true fun s => ((s.w SEC.REJECTED 0).w SEC.REFUSED 0).w SEC.SIGNS 0

end Sys2Proof.Machine
end

