-- ==== Sys2Proof/Machine/Set.lean ====
section
/-! DEFINITION. The descriptor set: its layout, its timing and the check of R105 (R70 to R106, R128). -/

namespace Sys2Proof.Machine

/-- The bytes of a set slot. -/
abbrev Blob := Array Nat

/-- A byte. -/
def Blob.u8 (b : Blob) (o : Nat) : Nat := b.getD o 0

/-- Two bytes, little-endian (R77). -/
def Blob.u16 (b : Blob) (o : Nat) : Nat := b.u8 o + 256 * b.u8 (o + 1)

/-- Four bytes, little-endian (R77). -/
def Blob.u32 (b : Blob) (o : Nat) : Nat := b.u16 o + 65536 * b.u16 (o + 2)

/-- A signed word. -/
def Blob.s32 (b : Blob) (o : Nat) : Int := sgn 32 (b.u32 o)

/-- The next multiple of 8 (R72). -/
def pad8 (n : Nat) : Nat := (n + 7) / 8 * 8

/-- The bytes of the solver SRAM in a range, as the cells of a table. -/
def blobOf (m : List Host.Cell) (base size : Nat) : Blob :=
  m.foldl (fun (a : Blob) (c : Host.Cell) => if base ≤ c.1 ∧ c.1 < base + size then a.setIfInBounds (c.1 - base) c.2.toNat else a)
    (Array.replicate size 0)

/-! ### Items of a set (R78 to R81, R94, R97) -/

/-- State-estimation offset, 0 when absent. -/
def Blob.seOff (b : Blob) : Nat := b.u32 0x10

/-- Dispatch descriptor offset. -/
def Blob.dispOff (b : Blob) : Nat := b.u32 0x14

/-- Number of contingencies. -/
def Blob.contCount (b : Blob) : Nat := min 8 (b.u8 0x18)

/-- Offset of contingency `j`. -/
def Blob.contOff (b : Blob) (j : Nat) : Nat := b.u32 (0x30 + 4 * j)

/-- Live map offset. -/
def Blob.liveOff (b : Blob) : Nat := b.u32 0x1C

/-- Live-map entries. -/
def Blob.liveCount (b : Blob) : Nat := b.u32 0x20

/-- Certificate offset. -/
def Blob.certOff (b : Blob) : Nat := b.u32 0x24

/-- SIZE of the set. -/
def Blob.setSize (b : Blob) : Nat := b.u32 0x0C

/-- N. -/
def Blob.nN (b : Blob) : Nat := b.u16 (b.dispOff + 2)

/-- n_x. -/
def Blob.nx (b : Blob) : Nat := b.u16 (b.dispOff + 4)

/-- n_u. -/
def Blob.nu (b : Blob) : Nat := b.u16 (b.dispOff + 6)

/-- m. -/
def Blob.rows (b : Blob) : Nat := b.u16 (b.dispOff + 8)

/-- n̄_z. -/
def Blob.nzP (b : Blob) : Nat := pad8 b.nx + pad8 b.nu

/-- CLASS_COUNT. -/
def Blob.classes (b : Blob) : Nat := b.u8 (b.dispOff + 0x0C)

/-- Offset of class record `k`. -/
def Blob.classRec (b : Blob) (k : Nat) : Nat := b.u32 (b.dispOff + 0x34) + 64 * k

/-- Offset of stage record `t`. -/
def Blob.stageRec (b : Blob) (t : Nat) : Nat := b.u32 (b.dispOff + 0x38) + 32 * t

/-- TERMINAL of a class. -/
def Blob.terminal (b : Blob) (k : Nat) : Bool := b.u8 (b.classRec k) % 2 == 1

/-- Size of the certificate (R86). -/
def Blob.certSize (b : Blob) : Nat := up256 (128 + 16 * (b.classes + 1) + 8 * b.nzP + 8 * b.liveCount)

/-- A matrix of the set: the place of its offset fields, the item that holds it, its tile rows and columns, whether it is symmetric, and its unpadded dimensions. -/
structure Mat where
  field : Nat
  item : Nat
  tr : Nat
  tc : Nat
  sym : Bool
  /-- Which rows and columns are not padding. -/
  rowOk : List (Nat × Nat)
  colOk : List (Nat × Nat)
  /-- Offset of its element bound in the certificate. -/
  bound : Nat
  deriving DecidableEq, Repr

/-- A position lies in one of some ranges. -/
def inRanges (rs : List (Nat × Nat)) (i : Nat) : Bool := rs.any (fun r => decide (r.1 ≤ i) && decide (i < r.2))

/-- The matrices of class `k`: A and B of a class that is not terminal, H and G (R80). -/
def Blob.classMats (b : Blob) (k : Nat) : List Mat :=
  let r := b.classRec k
  let tx := pad8 b.nx / 8
  let tu := pad8 b.nu / 8
  let tm := pad8 b.rows / 8
  let xs := [(0, b.nx)]
  let us := [(0, b.nu)]
  let ms := [(0, b.rows)]
  let cert := b.certOff + 0x80 + 16 * k
  if b.terminal k then
    [⟨r + 0x14, 2, tx, tx, true, xs, xs, cert + 8⟩, ⟨r + 0x1C, 2, tm, tx, false, ms, xs, cert + 12⟩]
  else
    let zs := [(0, b.nx), (pad8 b.nx, pad8 b.nx + b.nu)]
    [⟨r + 0x04, 2, tx, tx, false, xs, xs, cert⟩, ⟨r + 0x0C, 2, tx, tu, false, xs, us, cert + 4⟩,
     ⟨r + 0x14, 2, tx + tu, tx + tu, true, zs, zs, cert + 8⟩, ⟨r + 0x1C, 2, tm, tx + tu, false, ms, zs, cert + 12⟩]

/-- n_v, p, q of the state estimation. -/
def Blob.seDims (b : Blob) : Nat × Nat × Nat := (b.u16 (b.seOff + 2), b.u16 (b.seOff + 4), b.u16 (b.seOff + 6))

/-- The matrices M and E of the state estimation (R94). -/
def Blob.seMats (b : Blob) : List Mat :=
  if b.seOff = 0 then []
  else
    let (nv, p, q) := b.seDims
    let cert := b.certOff + 0x80 + 16 * b.classes
    [⟨b.seOff + 0x1C, 1, pad8 p / 8, pad8 nv / 8, false, [(0, p)], [(0, nv)], cert⟩,
     ⟨b.seOff + 0x24, 1, pad8 q / 8, pad8 nv / 8, false, [(0, q)], [(0, nv)], cert + 4⟩]

/-- Every matrix of the set, in item order. -/
def Blob.mats (b : Blob) : List Mat := b.seMats ++ (List.range b.classes).flatMap b.classMats

/-- TILES of a matrix. -/
def Mat.tiles (m : Mat) (b : Blob) : Nat := b.u32 m.field

/-- MAP of a matrix. -/
def Mat.map (m : Mat) (b : Blob) : Nat := b.u32 (m.field + 4)

/-- Bit `k` of the occupancy map (R82). -/
def Mat.bit (m : Mat) (b : Blob) (k : Nat) : Bool := (b.u8 (m.map b + k / 8)).testBit (k % 8)

/-- The stored tiles of a matrix: tile row, tile column and offset (R82). -/
def Mat.stored (m : Mat) (b : Blob) : List (Nat × Nat × Nat) :=
  if m.map b = 0 then []
  else (((List.range (m.tr * m.tc)).filter (m.bit b)).zipIdx).map
    (fun p => (p.1 / m.tc, p.1 % m.tc, m.tiles b + 256 * p.2))

/-- The stored elements that are not padding: row, column, value and offset. -/
def Mat.elems (m : Mat) (b : Blob) : List (Nat × Nat × Int × Nat) :=
  (m.stored b).flatMap (fun t => (List.range 64).filterMap (fun i =>
    let r := 8 * t.1 + i / 8
    let c := 8 * t.2.1 + i % 8
    if inRanges m.rowOk r && inRanges m.colOk c then some (r, c, b.s32 (t.2.2 + 4 * i), t.2.2 + 4 * i) else none))

/-- The matrix in full: the transpose of each tile below the diagonal stands above it where it is symmetric (R83). -/
def Mat.dense (m : Mat) (b : Blob) : Array (Array Int) :=
  (m.elems b).foldl (fun (a : Array (Array Int)) (e : Nat × Nat × Int × Nat) =>
      let a := a.modify e.1 (fun row => row.setIfInBounds e.2.1 e.2.2.1)
      if m.sym && e.1 / 8 != e.2.1 / 8 then a.modify e.2.1 (fun row => row.setIfInBounds e.1 e.2.2.1) else a)
    (Array.replicate (8 * m.tr) (Array.replicate (8 * m.tc) 0))

/-- Elements of a stage vector: field of the record and padded length (R81). -/
def Blob.vecLen (b : Blob) (fo t : Nat) : Nat :=
  if fo = 4 then pad8 b.nx else if fo = 8 then (if t = b.nN then pad8 b.nx else b.nzP) else pad8 b.rows

/-! ### Timing (R128, R129) -/

/-- ⌈a / b⌉. -/
def ceilDiv (a b : Nat) : Nat := if b = 0 then 0 else (a + b - 1) / b

/-- Σ k_r² over the tile rows of a matrix. -/
def Mat.squares (m : Mat) (b : Blob) : Nat :=
  let ts := m.stored b
  ((List.range m.tr).map (fun r => (ts.filter (fun t => t.1 == r)).length ^ 2)).sum

/-- The cycles of the parts of a dispatch iteration of a class for `L` lanes: R_t, F_t, E_t, ⌈V_t/L⌉. -/
def Blob.classCycles (b : Blob) (L k : Nat) : Nat × Nat × Nat × Nat :=
  let tx := pad8 b.nx / 8
  let tu := pad8 b.nu / 8
  let n := fun (m : Mat) => (m.stored b).length
  match b.classMats k with
  | [h, g] =>
    let e := 12 * (pad8 b.nx + pad8 b.rows)
    let g2 := g.squares b
    let v := ceilDiv (4 * (n h + n g)) L
    (ceilDiv (12 * g2) L + v + ceilDiv e 16, 0, e, v)
  | [a, bm, h, g] =>
    let e := 12 * (b.nzP + pad8 b.rows)
    let g2 := g.squares b
    let p := tx * (2 * n a + 2 * n bm) + tu * n bm + tu * (tu + 1) * (tu + 2) / 6 + tu * (tu + 1) * tx + tx * tx * tu
    let v := ceilDiv (4 * (n h + n g + n a + n bm)) L
    (ceilDiv (12 * g2) L + v + ceilDiv e 16, ceilDiv (12 * p) L + 128 * tu, e, v)
  | _ => (0, 0, 0, 0)

/-- The cycles per stage, with each class counted once. -/
def Blob.stageCycles (b : Blob) (L : Nat) : List (Nat × Nat × Nat × Nat) :=
  let cs := (List.range b.classes).map (b.classCycles L)
  (List.range (b.nN + 1)).map (fun t => cs.getD (b.u8 (b.stageRec t)) (0, 0, 0, 0))

/-- C_0, C_it and C_fin of a dispatch or contingency descriptor (R128). -/
def Blob.dispCycles (b : Blob) (L : Nat) : Nat × Nat × Nat :=
  let st := b.stageCycles L
  let es := (st.map (fun p => ceilDiv p.2.2.1 16)).sum
  (es, (st.map (fun p => p.1 + p.2.1)).sum + es + 2048, (st.map (fun p => p.2.2.2 + ceilDiv p.2.2.1 16)).sum + 2048)

/-- The form phase, one refinement and C_fin of the state estimation (R128). -/
def Blob.seCycles (b : Blob) (L : Nat) : Nat × Nat × Nat :=
  let (nv, p, q) := b.seDims
  let tw := (pad8 nv + pad8 q) / 8
  match b.seMats with
  | [m, e] =>
    let n := 4 * ((m.stored b).length + (e.stored b).length)
    let v := ceilDiv (12 * (pad8 nv + pad8 p + pad8 q)) 16
    (ceilDiv (12 * (m.squares b + tw * (tw + 1) * (tw + 2) / 6)) L + 128 * tw,
     ceilDiv (tw * (tw + 1) + n) L + v + 2048, ceilDiv n L + v + 2048)
  | _ => (0, 0, 0)

/-- Live values written by the map (R92). -/
def Blob.liveValues (b : Blob) : Nat :=
  ((List.range b.liveCount).map (fun e =>
    let o := b.liveOff + 32 * e
    b.u8 (o + 7) + 1 - b.u8 (o + 6))).sum

/-- The iterations of a descriptor: 1 state estimation, 2 dispatch, 3 to 10 contingencies. -/
def Blob.iters (b : Blob) (d : Nat) : Nat :=
  if d = 1 then b.u16 (b.seOff + 8) else if d = 2 then b.u16 (b.dispOff + 0x0A) else b.u16 (b.contOff (d - 3) + 2)

/-- BUDGET_US of a descriptor. -/
def Blob.budget (b : Blob) (d : Nat) : Nat :=
  if d = 1 then b.u32 (b.seOff + 0x0C) else if d = 2 then b.u32 (b.dispOff + 0x10) else b.u32 (b.contOff (d - 3) + 4)

/-- T of a descriptor (R128); the first of the period carries the live values. -/
def Blob.predicted (b : Blob) (L d : Nat) : Nat :=
  if L = 0 then 0xFFFFFFFF
  else
    let (c0, it, fin) := if d = 1 then b.seCycles L else b.dispCycles L
    c0 + b.iters d * it + fin + (if d = 1 ∨ (d = 2 ∧ b.seOff = 0) then 4 * b.liveValues else 0)

/-! ### The check (R105): each test answers its first failure as item and offset -/

/-- The first failure of a list of tests. -/
def firstFail (xs : List (Option (Nat × Nat))) : Option (Nat × Nat) := xs.findSome? id

/-- A test of one field. -/
def need (ok : Bool) (item off : Nat) : Option (Nat × Nat) := if ok then none else some (item, off)

/-- Reserved bytes hold 0. -/
def Blob.zeros (b : Blob) (item lo hi : Nat) : Option (Nat × Nat) :=
  ((List.range (hi - lo)).find? (fun i => b.u8 (lo + i) != 0)).map (fun i => (item, lo + i))

/-- An offset locates an item (R105). -/
def Blob.locates (b : Blob) (o : Nat) : Bool := o != 0 && o % 256 == 0 && decide (o + 256 ≤ b.setSize)

/-- The records of a located table that lie within SIZE: their numbers. Only they belong to the set; what runs beyond SIZE is left to BAD_OFFSET (assumption 127). -/
def Blob.recordsOf (b : Blob) (o size n : Nat) : List Nat :=
  if b.locates o then (List.range n).filter (fun i => decide (o + size * (i + 1) ≤ b.setSize)) else []

/-- The located headers after the set header: item, offset, KIND. -/
def Blob.heads (b : Blob) : List (Nat × Nat × Nat) :=
  ((if b.seOff = 0 then [] else [(1, b.seOff, 1)]) ++ [(2, b.dispOff, 0)] ++
    (List.range b.contCount).map (fun j => (3 + j, b.contOff j, 2))).filter (fun h => b.locates h.2.1)

/-- REGION: R75. -/
def regionsOk (rs : List (Nat × Nat)) : Bool :=
  rs.all (fun r => decide (0x40200000 ≤ r.1) && decide (r.1 + r.2 ≤ 0x44000000)) &&
  (rs.zipIdx).all (fun p => (rs.zipIdx).all (fun q => p.2 == q.2 || decide (p.1.2 = 0) || decide (q.1.2 = 0) ||
    decide (p.1.1 + p.1.2 ≤ q.1.1) || decide (q.1.1 + q.1.2 ≤ p.1.1)))

/-- FORMAT. -/
def Blob.chkFormat (b : Blob) (slotSize : Nat) : Option (Nat × Nat) :=
  firstFail ([need (b.u32 0 == 0x58534E52) 0 0, need (b.u16 4 == 1) 0 4, need (decide (b.setSize ≤ slotSize)) 0 0x0C] ++
    b.heads.map (fun h => need (b.u8 h.2.1 == h.2.2) h.1 h.2.1))

/-- CRC. -/
def Blob.chkCrc (b : Blob) : Option (Nat × Nat) :=
  firstFail (((0, 0, 0) :: b.heads).map (fun h =>
    need (crc32c ((List.range 252).map (fun i => b.u8 (h.2.1 + i))) == b.u32 (h.2.1 + 0xFC)) h.1 (h.2.1 + 0xFC)))

/-- Fields of one size with their ranges. -/
def Blob.fields (b : Blob) (item base : Nat) (fs : List (Nat × Nat × Nat × Nat)) : Option (Nat × Nat) :=
  firstFail (fs.map (fun f =>
    let v := if f.2.1 = 1 then b.u8 (base + f.1) else if f.2.1 = 2 then b.u16 (base + f.1) else b.u32 (base + f.1)
    need (decide (f.2.2.1 ≤ v) && decide (v ≤ f.2.2.2)) item (base + f.1)))

/-- FIELD_RANGE of the set header (R71, R78). -/
def Blob.setFields (b : Blob) : Option (Nat × Nat) :=
  firstFail [b.zeros 0 6 8, need (b.setSize % 256 == 0 && decide (256 ≤ b.setSize) && decide (b.setSize ≤ 0x1000000)) 0 0x0C,
    b.fields 0 0 [(0x18, 1, 0, 8)], b.zeros 0 0x19 0x1C,
    need (b.liveCount != 0 || b.liveOff == 0) 0 0x1C, b.fields 0 0 [(0x20, 4, 0, 16384)],
    firstFail ((List.range 8).map (fun j => need (decide (j < b.contCount) || b.contOff j == 0) 0 (0x30 + 4 * j))),
    b.zeros 0 0x50 0xFC]

/-- FIELD_RANGE of the state-estimation header and its map (R94, R95). -/
def Blob.seFields (b : Blob) (period : Nat) : Option (Nat × Nat) :=
  let disp := b.locates b.dispOff
  let o := b.seOff
  let p := 0x7FFFFFFF
  let q := b.u16 (o + 6)
  let n := b.u16 (o + 0x0A)
  let mo := b.u32 (o + 0x38)
  firstFail [b.zeros 1 (o + 1) (o + 2),
    b.fields 1 o [(2, 2, 1, 640), (4, 2, 1, 2048), (6, 2, 0, 256), (8, 2, 1, 16), (0x0A, 2, 1, 256), (0x0C, 4, 1, period),
      (0x10, 4, 1, p), (0x14, 4, 1, p), (0x18, 4, 1, p)],
    if q = 0 then b.fields 1 o [(0x24, 4, 0, 0), (0x28, 4, 0, 0), (0x34, 4, 0, 0)] else none,
    b.zeros 1 (o + 0x3C) (o + 0xFC),
    firstFail ((b.recordsOf mo 8 n).map (fun i =>
      let e := mo + 8 * i
      firstFail [need (decide (b.u16 e < b.u16 (o + 2))) 1 e, need (!disp || decide (b.u16 (e + 2) < b.nx)) 1 (e + 2),
        b.zeros 1 (e + 4) (e + 8)]))]

/-- FIELD_RANGE of the dispatch header, the class records and the stage records (R79 to R81). -/
def Blob.dispFields (b : Blob) (period : Nat) : Option (Nat × Nat) :=
  let o := b.dispOff
  let p := 0x7FFFFFFF
  firstFail [b.zeros 2 (o + 1) (o + 2),
    b.fields 2 o [(2, 2, 1, 96), (4, 2, 1, 256), (6, 2, 1, 384), (8, 2, 0, 2048), (0x0A, 2, 1, 64), (0x0C, 1, 1, 16)],
    b.zeros 2 (o + 0x0D) (o + 0x10),
    b.fields 2 o [(0x10, 4, 1, period), (0x14, 4, 1, p), (0x18, 4, 1, p), (0x1C, 4, 1, p), (0x20, 4, 1, p),
      (0x24, 4, 0x40000000, p), (0x28, 4, 1, p), (0x2C, 4, 1, 0x80000000), (0x30, 4, 0, 1)],
    b.zeros 2 (o + 0x3C) (o + 0xFC),
    firstFail ((b.recordsOf (b.classRec 0) 64 b.classes).map (fun k =>
      firstFail [b.fields 2 (b.classRec k) [(0, 4, 0, 1)], b.zeros 2 (b.classRec k + 0x24) (b.classRec k + 0x40)])),
    firstFail ((b.recordsOf (b.stageRec 0) 32 (b.nN + 1)).map (fun t =>
      let r := b.stageRec t
      firstFail [b.zeros 2 (r + 1) (r + 4), if t = b.nN then b.fields 2 r [(4, 4, 0, 0), (0x14, 4, 0, 0)]
        else b.fields 2 r [(0x14, 4, 1, 3600000)], b.zeros 2 (r + 0x18) (r + 0x20)]))]

/-- FIELD_RANGE of a contingency header (R97). -/
def Blob.contFields (b : Blob) (period j : Nat) : Option (Nat × Nat) :=
  let o := b.contOff j
  firstFail [b.fields (3 + j) o [(1, 1, j, j), (2, 2, 1, 64), (4, 4, 1, period), (8, 4, 0, 1024)],
    need (b.u32 (o + 8) != 0 || b.u32 (o + 0x0C) == 0) (3 + j) (o + 0x0C),
    b.fields (3 + j) o [(0x14, 4, 0, 1)], b.zeros (3 + j) (o + 0x18) (o + 0xFC)]

/-- FIELD_RANGE of the certificate (R86): its record for state estimation and its scale table stand where a located dispatch descriptor puts them, and are tested as far as they lie within SIZE. -/
def Blob.certFields (b : Blob) : Option (Nat × Nat) :=
  let o := b.certOff
  let se := o + 0x80 + 16 * b.classes
  let within := fun (lo hi : Nat) => if hi ≤ b.setSize then b.zeros 12 lo hi else none
  firstFail ([b.fields 12 o [(0x24, 4, 1, 0x7FFFFFFF), (0x28, 4, 1, 0x7FFFFFFF)], b.zeros 12 (o + 0x2C) (o + 0x80)] ++
    (if b.locates b.dispOff then within (se + 8) (se + 16) ::
      (List.range b.nzP).map (fun i => within (se + 16 + 8 * i + 5) (se + 16 + 8 * i + 8)) else []))

/-- FIELD_RANGE. -/
def Blob.chkFields (b : Blob) (period : Nat) : Option (Nat × Nat) :=
  firstFail ([b.setFields, if b.locates b.seOff then b.seFields period else none,
    if b.locates b.dispOff then b.dispFields period else none] ++
    (List.range b.contCount).map (fun j => if b.locates (b.contOff j) then b.contFields period j else none) ++
    [if b.locates b.certOff then b.certFields else none])

/-- Every item whose extent the headers fix: offset, extent, item, place of the offset field, and whether the offset may be 0. -/
def Blob.items (b : Blob) : List (Nat × Nat × Nat × Nat × Bool) :=
  let (nv, p, q) := b.seDims
  let o := b.seOff
  [(0, 256, 0, 0, true)] ++
  (if o = 0 then [] else [(o, 256, 1, 0x10, false), (b.u32 (o + 0x2C), up256 (4 * pad8 p), 1, o + 0x2C, false),
    (b.u32 (o + 0x30), up256 (4 * pad8 p), 1, o + 0x30, false), (b.u32 (o + 0x34), up256 (4 * pad8 q), 1, o + 0x34, q == 0),
    (b.u32 (o + 0x38), up256 (8 * b.u16 (o + 0x0A)), 1, o + 0x38, false)]) ++
  [(b.dispOff, 256, 2, 0x14, false)] ++
  (List.range b.contCount).map (fun j => (b.contOff j, 256, 3 + j, 0x30 + 4 * j, false)) ++
  [(b.classRec 0, up256 (64 * b.classes), 2, b.dispOff + 0x34, false),
   (b.stageRec 0, up256 (32 * (b.nN + 1)), 2, b.dispOff + 0x38, false),
   (b.liveOff, up256 (32 * b.liveCount), 11, 0x1C, b.liveCount == 0), (b.certOff, b.certSize, 12, 0x24, false)] ++
  (List.range b.contCount).map (fun j => (b.u32 (b.contOff j + 0x0C), up256 (16 * b.u32 (b.contOff j + 8)), 3 + j,
    b.contOff j + 0x0C, b.u32 (b.contOff j + 8) == 0)) ++
  (b.mats.filter (fun m => m.map b != 0 || m.tiles b != 0)).map (fun m =>
    (m.map b, up256 ((m.tr * m.tc + 7) / 8), m.item, m.field + 4, false)) ++
  (List.range (b.nN + 1)).flatMap (fun t => [4, 8, 12, 16].filterMap (fun fo =>
    if fo = 4 ∧ t = b.nN then none
    else some (b.u32 (b.stageRec t + fo), up256 (4 * b.vecLen fo t), 2, b.stageRec t + fo,
      fo == 8 || fo == 16 || (fo == 12 && b.rows == 0))))

/-- BAD_OFFSET (R77, R80, R105). -/
def Blob.chkOffsets (b : Blob) : Option (Nat × Nat) :=
  let its := b.items
  let bad := fun (x : Nat × Nat × Nat × Nat × Bool) =>
    if x.1 = 0 then !x.2.2.2.2 else x.1 % 256 != 0 || decide (b.setSize < x.1 + max 256 x.2.1)
  let here := its.filter (fun x => x.1 != 0 || x.2.2.2.1 == 0)
  firstFail [
    (its.find? bad).map (fun x => (x.2.2.1, x.2.2.2.1)),
    (b.mats.find? (fun m => (m.map b == 0) != (m.tiles b == 0))).map (fun m =>
      (m.item, if m.tiles b = 0 then m.field else m.field + 4)),
    (b.mats.find? (fun m => m.tiles b != 0 && !b.locates (m.tiles b))).map (fun m => (m.item, m.field)),
    ((here.zipIdx).find? (fun p => (here.take p.2).any (fun y =>
      decide (p.1.1 < y.1 + y.2.1) && decide (y.1 < p.1.1 + p.1.2.1)))).map (fun p => (p.1.2.2.1, p.1.2.2.2.1))]

/-- CLASS_RULE (R80, R81). -/
def Blob.chkClasses (b : Blob) : Option (Nat × Nat) :=
  firstFail ((List.range b.classes).map (fun k => if b.terminal k then
      b.fields 2 (b.classRec k) [(4, 4, 0, 0), (8, 4, 0, 0), (12, 4, 0, 0), (16, 4, 0, 0)] else none) ++
    (List.range (b.nN + 1)).map (fun t =>
      let k := b.u8 (b.stageRec t)
      need (decide (k < b.classes) && b.terminal k == (t == b.nN)) 2 (b.stageRec t)))

/-- MAP_INVALID (R82, R83). -/
def Blob.chkMaps (b : Blob) : Option (Nat × Nat) :=
  let ms := b.mats.filter (fun m => m.map b != 0)
  let stray := fun (m : Mat) => (List.range (8 * up256 ((m.tr * m.tc + 7) / 8))).find? (fun k =>
    m.bit b k && (decide (m.tr * m.tc ≤ k) || (m.sym && decide (k / m.tc < k % m.tc))))
  let run := fun (m : Mat) => (m.tiles b, 256 * (m.stored b).length)
  let its := (b.items.filter (fun x => x.1 != 0 || x.2.2.2.1 == 0)).map (fun x => (x.1, x.2.1))
  firstFail ((ms.zipIdx).map (fun p =>
    let r := run p.1
    firstFail [(stray p.1).map (fun k => (p.1.item, p.1.map b + k / 8)),
      need (decide (r.1 + r.2 ≤ b.setSize) && (its ++ (ms.take p.2).map run).all (fun y =>
        decide (r.1 + r.2 ≤ y.1) || decide (y.1 + y.2 ≤ r.1) || decide (r.2 = 0))) p.1.item p.1.field]))

/-- ASYMMETRIC (R83): the failing tile. -/
def Blob.chkSymmetric (b : Blob) : Option (Nat × Nat) :=
  firstFail ((b.mats.filter (·.sym)).map (fun m =>
    let es := (m.elems b).filter (fun e => e.1 / 8 == e.2.1 / 8)
    (es.find? (fun e => !(es.any (fun f => f.1 == e.2.1 && f.2.1 == e.1 && f.2.2.1 == e.2.2.1)))).map
      (fun e => (m.item, e.2.2.2 - 4 * (8 * (e.1 % 8) + e.2.1 % 8)))))

/-- The bytes of the set with the certificate left out (R86). -/
def Blob.digestBytes (b : Blob) : List Nat :=
  ((List.range b.setSize).filter (fun i => decide (i < b.certOff) || decide (b.certOff + b.certSize ≤ i))).map b.u8

/-- DIGEST of the certificate. -/
def Blob.digest (b : Blob) : List Nat := (List.range 32).map (fun i => b.u8 (b.certOff + i))

/-- DIGEST (R86). -/
def Blob.chkDigest (b : Blob) : Option (Nat × Nat) :=
  firstFail [need (Config.shake256 b.digestBytes 32 == b.digest) 12 b.certOff,
    need (b.u32 (b.certOff + 0x20) == b.liveCount) 12 (b.certOff + 0x20)]

/-- Offset of the live bounds of entry `e`. -/
def Blob.liveBound (b : Blob) (e : Nat) : Nat := b.certOff + 0x80 + 16 * (b.classes + 1) + 8 * b.nzP + 8 * e

/-- ELEMENT_BOUND. -/
def Blob.chkBounds (b : Blob) : Option (Nat × Nat) :=
  firstFail (b.mats.map (fun m => ((m.elems b).find? (fun e => decide ((b.u32 m.bound : Int) < |e.2.2.1|))).map
      (fun e => (m.item, e.2.2.2))) ++
    (List.range b.liveCount).map (fun e => need (decide (b.s32 (b.liveBound e) ≤ b.s32 (b.liveBound e + 4))) 12 (b.liveBound e)))

/-- A word of a snapshot buffer that is not reserved (R87). -/
def snapWord (o : Nat) : Bool :=
  o % 4 == 0 && (decide (o < 0x40400) || (decide (0x40400 ≤ o) && decide (o < 0x405C0)) ||
    (decide (0x40800 ≤ o) && decide (o < 0x42800)) || (decide (0x50000 ≤ o) && decide (o < 0x80000)))

/-- INDEX of a target vector names an element that is not padding (R572). -/
def Blob.indexOk (b : Blob) (vec index last : Nat) : Bool :=
  let (_, p, q) := b.seDims
  match vec with
  | 0 => decide (index < b.nx)
  | 1 => decide (index < b.nx)
  | 2 => decide (index < b.nx) || (decide (last ≠ b.nN) && decide (pad8 b.nx ≤ index) && decide (index < pad8 b.nx + b.nu))
  | 3 => decide (index < b.rows)
  | 4 => b.seOff != 0 && decide (index < p)
  | _ => b.seOff != 0 && decide (index < q)

/-- The stage range of a vector (R89, R98), FIRST and LAST in turn: FIRST does not pass LAST, and LAST stays within the vector's last stage. -/
def Blob.rangeBad (b : Blob) (item off vec first last : Nat) : Option (Nat × Nat) :=
  if vec = 0 ∨ vec = 4 ∨ vec = 5 then firstFail [need (first == 0) item off, need (last == 0) item (off + 1)]
  else firstFail [need (decide (first ≤ last)) item off,
    need (decide (last ≤ if vec = 1 then b.nN - 1 else b.nN)) item (off + 1)]

/-- LIVE_INVALID of one entry (R89, R572). -/
def Blob.liveEntry (b : Blob) (e : Nat) : Option (Nat × Nat) :=
  let o := b.liveOff + 32 * e
  let vec := b.u8 (o + 2)
  let first := b.u8 (o + 6)
  let last := b.u8 (o + 7)
  let staged := b.u8 (o + 3) == 1
  firstFail [need (decide (b.u8 o ≤ 2)) 11 o,
    need (decide (b.u8 (o + 1) ≤ 2) && (b.u8 (o + 1) != 2 || vec == 4)) 11 (o + 1),
    need (decide (vec ≤ 5)) 11 (o + 2), need (decide (b.u8 (o + 3) ≤ 1)) 11 (o + 3),
    need (b.indexOk vec (b.u16 (o + 4)) last) 11 (o + 4), b.rangeBad 11 (o + 6) vec first last,
    need (b.u8 o == 2 || snapWord (b.u32 (o + 8))) 11 (o + 8),
    need (b.u8 o == 2 || b.u16 (o + 0x0C) % 4 == 0) 11 (o + 0x0C),
    need (b.u8 o == 2 || (List.range (if staged then last - first + 1 else 1)).all (fun i =>
      snapWord (b.u32 (o + 8) + i * b.u16 (o + 0x0C)))) 11 (o + 8),
    need (decide (b.u16 (o + 0x0E) < 1024) || b.u16 (o + 0x0E) == 0xFFFF) 11 (o + 0x0E), b.zeros 11 (o + 0x1C) (o + 0x20)]

/-- LIVE_INVALID. -/
def Blob.chkLive (b : Blob) : Option (Nat × Nat) := firstFail ((List.range b.liveCount).map b.liveEntry)

/-- The estimate map: pairs of SE_INDEX and X0_INDEX (R95). -/
def Blob.seMap (b : Blob) : List (Nat × Nat) :=
  if b.seOff = 0 then []
  else (List.range (b.u16 (b.seOff + 0x0A))).map (fun i =>
    let e := b.u32 (b.seOff + 0x38) + 8 * i
    (b.u16 e, b.u16 (e + 2)))

/-- X0_UNCOVERED (R95): the index of the lowest element of x̂₀ that is not covered. -/
def Blob.chkX0 (b : Blob) : Option (Nat × Nat) :=
  let live := ((List.range b.liveCount).filter (fun e => b.u8 (b.liveOff + 32 * e + 2) == 0)).map (fun e => b.u16 (b.liveOff + 32 * e + 4))
  let est := b.seMap.map (·.2)
  ((List.range b.nx).find? (fun i => !(live.contains i || est.contains i))).map (fun i => (2, i))

/-- PATCH_INVALID of one entry (R98, R572). VEC 4 is RHO, whose INDEX follows D. -/
def Blob.patchEntry (b : Blob) (j i : Nat) : Option (Nat × Nat) :=
  let o := b.u32 (b.contOff j + 0x0C) + 16 * i
  let vec := b.u8 o
  let as_ := if vec = 4 then 3 else vec
  firstFail [need (decide (1 ≤ vec) && decide (vec ≤ 4)) (3 + j) o, b.zeros (3 + j) (o + 1) (o + 2),
    b.rangeBad (3 + j) (o + 2) as_ (b.u8 (o + 2)) (b.u8 (o + 3)),
    need (b.indexOk as_ (b.u16 (o + 4)) (b.u8 (o + 3))) (3 + j) (o + 4), b.zeros (3 + j) (o + 6) (o + 8),
    b.zeros (3 + j) (o + 12) (o + 16)]

/-- PATCH_INVALID. -/
def Blob.chkPatches (b : Blob) : Option (Nat × Nat) :=
  firstFail ((List.range b.contCount).map (fun j => firstFail ((List.range (b.u32 (b.contOff j + 8))).map (b.patchEntry j))))

/-- WORK_NEED (R101). -/
def Blob.workNeed (b : Blob) : Nat :=
  let (nv, p, q) := b.seDims
  let tx := pad8 b.nx / 8
  let tu := pad8 b.nu / 8
  let tz := tx + tu
  let tw := (pad8 nv + pad8 q) / 8
  let d := (b.nN + 1) * (256 * (tz * (tz + 1) / 2 + tu * tx + tx * (tx + 1) / 2) + 24 * (b.nzP + pad8 b.rows))
  if b.seOff = 0 then d else max d (256 * (tw * (tw + 1) / 2) + 24 * (pad8 nv + pad8 p + pad8 q))

/-- S_se and S_disp (R102). -/
def Blob.slotSizes (b : Blob) : Nat × Nat :=
  (if b.seOff = 0 then 0 else 4096 + 4 * pad8 b.seDims.1, 4096 + 4 * (b.nN + 1) * b.nzP)

/-- RESULT_NEED (R102). -/
def Blob.resultNeed (b : Blob) : Nat := 2 * (b.slotSizes.1 + (1 + b.contCount) * b.slotSizes.2)

/-- The offset in RESULT of slot `i` of a descriptor: 0 state estimation, 1 dispatch, 2 to 9 contingencies (R144). -/
def Blob.resultSlot (b : Blob) (d i : Nat) : Nat :=
  if d = 0 then i * b.slotSizes.1 else 2 * b.slotSizes.1 + (2 * (d - 1) + i) * b.slotSizes.2

/-- BUDGET (R105, R129): the descriptors in item order, then the two budgets together, for which R105 names no field: the dispatch BUDGET_US is reported, DESIGN CHOICE (assumption 127). -/
def Blob.chkBudget (b : Blob) (L period : Nat) : Option (Nat × Nat) :=
  let ds := (if b.seOff = 0 then [] else [(1, b.seOff + 0x0C)]) ++ [(2, b.dispOff + 0x10)] ++
    (List.range b.contCount).map (fun j => (3 + j, b.contOff j + 4))
  firstFail (ds.map (fun d => need (decide (0 < L) && decide (b.predicted L d.1 ≤ 600 * b.budget d.1)) d.1 d.2) ++
    [need (decide ((if b.seOff = 0 then 0 else b.budget 1) + b.budget 2 ≤ period)) 2 (b.dispOff + 0x10)])

/-- The check of a set in a slot of `slotSize` bytes, in the order of R105: code, item and offset. REGION, ROW_UNAVAILABLE and SIGNATURE have no failing field in R105: they report item 0 and offset 0, DESIGN CHOICE (assumption 127). -/
def checkSet (b : Blob) (slotSize : Nat) (regions : List (Nat × Nat)) (period L cap workSize resultSize : Nat)
    (signed : Bool) : Nat × Nat × Nat :=
  let tests : List (Nat × Option (Nat × Nat)) := [
    (0x01, need (regionsOk regions) 0 0), (0x02, b.chkFormat slotSize), (0x03, b.chkCrc), (0x04, b.chkFields period),
    (0x05, b.chkOffsets), (0x06, b.chkClasses), (0x07, b.chkMaps), (0x08, b.chkSymmetric), (0x09, b.chkDigest),
    (0x0A, b.chkBounds), (0x0B, b.chkLive), (0x0C, b.chkX0), (0x0D, b.chkPatches),
    (0x0E, need (b.u32 (b.stageRec 0 + 0x14) * 1000 == period) 2 (b.stageRec 0 + 0x14)),
    (0x0F, need (b.u32 0x28 == b.workNeed && decide (b.workNeed ≤ workSize)) 0 0x28),
    (0x10, need (b.u32 0x2C == b.resultNeed && decide (b.resultNeed ≤ resultSize)) 0 0x2C),
    (0x11, need (regions.all (fun r => decide (r.2 = 0) || decide (r.1 + r.2 ≤ cap))) 0 0),
    (0x12, b.chkBudget L period), (0x13, need signed 0 0)]
  match tests.findSome? (fun t => t.2.map (fun f => (t.1, f))) with
  | some r => r
  | none => (0, 0, 0)

end Sys2Proof.Machine
end

