-- ==== Sys2Proof/Machine/Link.lean ====
section
/-! DEFINITION. Sending on the chain: ports, directions and sequence numbers (R477, R478, R480). -/

namespace Sys2Proof.Machine

/-- Replace what the chain holds beside its registers. -/
def State.setDch (s : State) (f : DchX → DchX) : State := { s with dch := f s.dch }

/-- `n` bytes of a number, most significant first (R6). -/
def beBytes (n v : Nat) : List Nat := (leBytes n v).reverse

/-- The number that bytes spell, most significant first. -/
def beVal (bs : List Nat) : Nat := bs.foldl (fun v b => 256 * v + b % 256) 0

/-- The serial number of the unit: its clockIdentity (R481). -/
def State.serial (s : State) : Nat := s.r TMK.CLOCK_ID_LO + 2 ^ 32 * s.r TMK.CLOCK_ID_HI

/-- A DCH event with the payload of R500. -/
def State.dchEvt (s : State) (bit addr kind : Nat) (serial : Nat := 0) (extra : List Nat := []) : State :=
  s.raise 11 0 bit ([addr, kind] ++ leBytes 4 (s.r DCH.PAIR_EPOCH) ++ leBytes 8 serial) extra

/-- A chain port is up: 0 UP, 1 DOWN. -/
def State.chainPort (s : State) (p : Nat) : Bool := if p = 0 then s.on DCH.UP_OK else s.on DCH.DOWN_OK

/-- A frame leaves on a port; a port that is down takes none. -/
def State.putChain (s : State) (p : Nat) (f : ChainFrame) : State :=
  if s.chainPort p then s.setDch (fun d => { d with sent := sput d.sent p f }) else s

/-- The chain master's PROTO_VER has another major number: this unit exchanges HELLO alone (R38, R482). -/
def State.excluded (s : State) : Bool :=
  s.r DCH.MASTER_ADDR != 0 && s.dch.members.any (fun u => u.addr == s.r DCH.MASTER_ADDR && u.proto / 256 != s.r DCH.PROTO_VER / 256)

/-- A frame of this unit is sent: DOWN while the ring is whole; else a broadcast in both directions, and an addressed frame toward its destination (R480). Payload lengths are multiples of 4 (R478). -/
def State.chainSend (s : State) (dst cls typ : Nat) (pay : List Nat) : State :=
  if !s.enabled 11 || (s.excluded && !(cls == 1 && typ == 0)) then s
  else
    let n := sget 0 s.dch.seqTx cls
    let s := s.setDch (fun d => { d with seqTx := sset 0 d.seqTx cls ((n + 1) % 2 ^ 32) })
    let f : ChainFrame := {
      dst := dst, src := s.r DCH.UNIT_ADDR, cls := cls, typ := typ, seq := BitVec.ofNat 32 n,
      payload := pay ++ List.replicate ((4 - pay.length % 4) % 4) 0 }
    let goUp := { f with up := true }
    if s.on DCH.RING_OK then s.putChain 1 f
    else if dst = 0xFF then (s.putChain 1 f).putChain 0 goUp
    else match s.dch.members.find? (fun u => u.addr == dst) with
      | some u => if u.up then s.putChain 0 goUp else s.putChain 1 f
      | none => s.putChain 1 f

/-- At a set load or switch the active unit sends which slot is active, RES_LAST and the region registers (R492). The payload is the model's own. -/
def State.sendSlots (s : State) : State :=
  if s.r DCH.ROLE = 3 then
    s.chainSend (s.r DCH.PEER_ADDR) 3 5 ([if s.on DSQ.ACTIVE_VALID then 1 + s.r DSQ.ACTIVE_SLOT else 0, 0] ++ beBytes 2 (s.r DSQ.RES_LAST) ++
      [DSQ.SET_A_BASE, DSQ.SET_A_SIZE, DSQ.SET_B_BASE, DSQ.SET_B_SIZE, DSQ.WORK_BASE, DSQ.WORK_SIZE, DSQ.RESULT_BASE, DSQ.RESULT_SIZE].flatMap
        (fun g => beBytes 4 (s.r g)))
  else s

/-- R493: a set that becomes CHECKED is sent by the active unit and reported by the standby. The payload is the model's own (slot, SET_ID, DIGEST). -/
def State.reportSet (s : State) (slot : Nat) (setId : Word) (digest : List Nat) : State :=
  let pay := [slot, 0, 0, 0] ++ beBytes 4 setId.toNat ++ digest
  if s.r DCH.ROLE = 3 then (s.chainSend (s.r DCH.PEER_ADDR) 3 2 pay).sendSlots
  else if s.r DCH.ROLE = 1 ∨ s.r DCH.ROLE = 2 then s.chainSend (s.r DCH.PEER_ADDR) 1 1 pay
  else s

end Sys2Proof.Machine
end

