-- ==== Sys2Proof/Machine/Sxe.lean ====
section
/-! DEFINITION. The station exchange (R296 to R319). -/

namespace Sys2Proof.Machine

/-- Update the station exchange's record. -/
def State.setSxe (s : State) (f : SxeX → SxeX) : State := { s with sxe := f s.sxe }

/-- The cycle number of a cycle start (R298). -/
def State.cycleNumber (s : State) (at_ : Nat) : Nat := (at_ / 1000 - s.r SXE.PHASE_US) / s.r SXE.CYC_US % 2 ^ 32

/-- The code of a station state (R318). -/
def stnCode : StnState → Nat
  | .off => 0
  | .joining => 1
  | .run => 2
  | .missing => 3
  | .down => 4

/-- Payload bytes of an event about a station (R319). -/
def State.stnPay (s : State) (n cause : Nat) : List Nat := leBytes 2 n ++ [stnCode (s.stn n).st, cause]

/-- Whether an entry changes in what R311 names: MAC, WORDS_IN, WORDS_OUT or TX_OFF_US. -/
def stnChanged (a b : List (Nat × Word)) (n : Nat) : Bool :=
  stnMac a n != stnMac b n || stnIn a n != stnIn b n || stnOut a n != stnOut b n || stnTxOff a n != stnTxOff b n

/-- The input words of a station become 0. -/
def State.clearInputs (s : State) (n : Nat) : State := { s with inImg := s.inImg.filter (fun p => p.1 / 64 != n) }

/-- A station uses the POLICY and PROFILE of its entry from here on (R304, R311). -/
def State.usePolicy (s : State) (n : Nat) : State :=
  s.setStn n { s.stn n with subst := stnSubst s.sxe.table n, profile := stnProfile s.sxe.table n }

/-- A station enters JOINING (R307). -/
def State.joinStn (s : State) (n : Nat) : State :=
  (s.setStn n { s.stn n with st := .joining, q := .stale, missedRun := 0, first := false }).usePolicy n

/-- One entry changes from the old table to the new one (R311): a disabled one enters OFF, a new or changed one JOINING. -/
def State.commitEntry (old new : List (Nat × Word)) (s : State) (n : Nat) : State :=
  if !stnEn new n then
    (if stnEn old n then (s.setStn n { s.stn n with st := .off, q := .absent, missedRun := 0 }).clearInputs n else s)
  else if !stnEn old n || stnChanged old new n then s.joinStn n
  else s

/-- The staged table becomes active (R311). -/
def State.commitTable (s : State) : State :=
  if !s.on SXE.TABLE_PENDING then s
  else
    let old := s.sxe.table
    let new := s.sxe.staging
    let s := (s.setSxe (fun k => { k with table := new })).w SXE.TABLE_PENDING 0
    let s := ((stnEnabled old ++ (stnEnabled new).filter (fun n => !stnEn old n))).foldl (State.commitEntry old new) s
    s.raise 22 0 7 [0, 0, 0, 0]

/-- A frame is not sent before its cut-off (R305, R309). -/
def State.dropOut (s : State) (f : SxeFrame) : State :=
  (s.inc SXE.OUT_DROPPED).raise 22 0 4 (s.stnPay f.station 0) (leBytes 4 (s.r SXE.OUT_DROPPED + 1))

/-- R298, R300, R311: a station cycle starts, at an instant of the series and no earlier than 1 ms after ENABLE rose. Frames of the last write phase that are still queued are past their cut-off (R305). -/
def execStationCycleStart (t : Nat) (s : State) : Host.Outcome State Fault Refusal :=
  s.runK .net t fun s =>
    if !s.enabled 22 ∨ s.up < s.sxe.startAt ∨ !s.onSeries (s.r SXE.CYC_US) (s.r SXE.PHASE_US) ∨
        (!s.sxe.cut ∧ s.sxe.cycleAt = s.now) then s
    else
      let s := (s.sxe.outQ.foldl State.dropOut s).commitTable
      let now := s.now
      let s := s.setSxe (fun k => { k with cycleAt := now, inRead := true, wrote := false, cut := false, outQ := [] })
      let s := s.w SXE.CYCLE_NO (s.cycleNumber now)
      (stnEnabled s.sxe.table).foldl (fun s n => s.setStn n { s.stn n with accepted := false }) s

/-- The cause for which an INPUT frame is discarded, 0 for none (R302). -/
def State.inputCause (s : State) (f : SxeFrame) : Nat :=
  let tab := s.sxe.table
  if f.etype ≠ s.r SXE.ETHERTYPE ∨ f.version ≠ 1 ∨ f.ftype ≠ 1 ∨ f.data.length < f.words then 1
  else if 1024 ≤ f.station ∨ !stnEn tab f.station then 2
  else if f.src ≠ stnMac tab f.station then 3
  else if s.sxe.cut ∨ f.cycle.toNat ≠ s.r SXE.CYCLE_NO then 4
  else if f.words ≠ stnIn tab f.station then 5
  else if !s.sxe.inRead ∨ s.sxe.cycleAt + 1000 * s.r SXE.READ_END_US ≤ s.now then 6
  else if (s.stn f.station).accepted then 7
  else 0

/-- A frame fails a test (R302). -/
def State.inputBad (s : State) (f : SxeFrame) (c : Nat) : State :=
  let s := (s.w SXE.LAST_ERR_STN f.station).w SXE.LAST_ERR_CAUSE c
  if c = 6 then (s.inc SXE.LATE_INPUTS).raise 22 0 8 (s.stnPay f.station c)
  else (s.inc SXE.FRAME_ERRS).raise 22 0 3 (s.stnPay f.station c)

/-- ECHO of an accepted frame against the OUTPUT frame sent in the cycle before (R310). -/
def State.checkEcho (s : State) (f : SxeFrame) : State :=
  let n := f.station
  let x := s.stn n
  if x.st ≠ .run then s
  else if x.echoSkip then s.setStn n { x with echoSkip := false }
  else if x.sentIn ≠ some (f.cycle - 1) then s
  else if f.echo = f.cycle - 1 then s.setStn n { x with missRun := 0 }
  else
    let s := s.setStn n { x with missRun := x.missRun + 1, outMiss := min 0xFFFF (x.outMiss + 1) }
    if x.missRun + 1 = 8 then s.raise 22 0 6 (s.stnPay n 0) else s

/-- The paths on which copies of a frame arrived (R315). -/
def State.checkPaths (s : State) (n : Nat) (a b : Bool) : State :=
  let x := { s.stn n with pathA := a, pathB := b }
  if a && b then s.setStn n { x with onePath := 0, degraded := false }
  else if x.st ≠ .run then s.setStn n x
  else
    let k := x.onePath + 1
    let s := s.setStn n { x with onePath := k, degraded := x.degraded || decide (16 ≤ k) }
    if 16 ≤ k ∧ !x.degraded then s.raise 22 0 5 (s.stnPay n 0) else s

/-- R297, R302, R303: an INPUT frame is tested, and accepted or discarded. -/
def execInputFrameRx (t : Nat) (f : SxeFrame) (pathA pathB : Bool) (s : State) : Host.Outcome State Fault Refusal :=
  s.runK .net t fun s =>
    if !s.enabled 22 then s
    else
      let c := s.inputCause f
      if c ≠ 0 then s.inputBad f c
      else
        let s := { s with inImg := ssets 0 s.inImg (64 * f.station) (f.data.take f.words ++ List.replicate (64 - f.words) 0) }
        let s := (s.checkEcho f).checkPaths f.station pathA pathB
        s.setStn f.station { s.stn f.station with
          q := .fresh, accepted := true, inFlags := f.flags.setWidth 4, echoLast := f.echo, lastCycle := some f.cycle }

/-- A station's state at a read end (R307). -/
def State.readEndStn (s : State) (n : Nat) : State :=
  let x := s.stn n
  if x.accepted then
    let up := x.st != .run && x.st != .missing
    let s := s.setStn n { x with st := .run, q := .fresh, missedRun := 0, first := x.first || up,
                                 echoSkip := x.echoSkip || x.st != .run }
    if up then s.raise 22 0 2 (s.stnPay n 0) else s
  else
    let x := { x with q := .stale, missedTotal := min 0xFFFF (x.missedTotal + 1), onePath := 0 }
    let m := if x.st = .run then 1 else min 255 (x.missedRun + 1)
    match x.st with
    | .run | .missing =>
      let down := decide (stnLoss s.sxe.table n ≤ m)
      let s' := s.setStn n { x with st := if down then .down else .missing, missedRun := m }
      let s' := if x.st = .run then s'.raise 22 0 0 (s'.stnPay n 0) else s'
      if down then s'.raise 22 0 1 (s'.stnPay n 0) else s'
    | _ => s.setStn n x

/-- R303, R307, R311, R312: the read phase closes; a changed policy and written profiles take effect. -/
def execReadEnd (t : Nat) (s : State) : Host.Outcome State Fault Refusal :=
  s.runK .net t fun s =>
    if !s.enabled 22 ∨ s.sxe.cut ∨ !s.sxe.inRead ∨ s.now < s.sxe.cycleAt + 1000 * s.r SXE.READ_END_US then s
    else
      let s := s.setSxe (fun k => { k with inRead := false, prof := k.profNew })
      (stnEnabled s.sxe.table).foldl (fun s n => (s.usePolicy n).readEndStn n) s

/-- The source address of SXE frames: PAIR_MAC in a pair (R495). -/
def State.sxeMac (s : State) : Nat :=
  if s.on DCH.PAIR_EN then s.r DCH.PAIR_MAC_LO + 2 ^ 32 * s.r DCH.PAIR_MAC_HI else Config.ownMac.toNat

/-- The OUTPUT frame of a station (R305, R314); a forced word is sent as forced (R282). -/
def State.outputFrame (s : State) (n : Nat) : SxeFrame :=
  let x := s.stn n
  let k := stnOut s.sxe.table n
  { ftype := 2, station := n, cycle := BitVec.ofNat 32 (s.r SXE.CYCLE_NO), time := s.sxe.cycleAt + 1000 * s.r SXE.APPLY_US,
    flags := if x.first then 1 else 0, echo := x.lastCycle.getD 0xFFFFFFFF, dst := stnMac s.sxe.table n, src := s.sxeMac,
    etype := s.r SXE.ETHERTYPE, words := k,
    data := (List.range k).map (fun w => s.forceWord 9 (32 * n + w) (s.soWord (32 * n + w))) }

/-- The CONFIG frame of a station (R314). -/
def State.configFrame (s : State) (n : Nat) : SxeFrame :=
  { ftype := 3, station := n, cycle := BitVec.ofNat 32 (s.r SXE.CYCLE_NO), time := s.sxe.cycleAt,
    dst := stnMac s.sxe.table n, src := s.sxeMac, etype := s.r SXE.ETHERTYPE, words := 8,
    data := [s.r SXE.CYC_US, s.r SXE.PHASE_US, stnTxOff s.sxe.table n, s.r SXE.READ_END_US, s.r SXE.APPLY_US,
      stnIn s.sxe.table n + 256 * stnOut s.sxe.table n, s.r SXE.STATION_TMO_MS, 0].map (BitVec.ofNat 32) }

/-- The ANNOUNCE frame (R495). -/
def State.announceFrame (s : State) : SxeFrame :=
  { ftype := 4, station := 0xFFFF, cycle := BitVec.ofNat 32 (s.r SXE.CYCLE_NO), time := s.sxe.cycleAt,
    dst := 0xFFFFFFFFFFFF, src := s.sxeMac, etype := s.r SXE.ETHERTYPE }

/-- The stations served with CONFIG in this write phase, ascending from the one after the last served (R309). -/
def State.configStations (s : State) : List Nat :=
  let l := (stnEnabled s.sxe.table).filter (fun n => (s.stn n).st == .joining || (s.stn n).st == .down)
  (l.filter (fun n => decide (s.sxe.cfgNext ≤ n)) ++ l.filter (fun n => decide (n < s.sxe.cfgNext))).take (s.r SXE.CFG_MAX)

/-- The unit sends station frames: it is single or the active unit of a pair (R316). -/
def State.sxeSends (s : State) : Bool := s.r DCH.ROLE == 0 || s.r DCH.ROLE == 3

/-- R305, R309, R495: the write phase opens and its frames are queued. -/
def execWritePhase (t : Nat) (s : State) : Host.Outcome State Fault Refusal :=
  s.runK .net t fun s =>
    if !s.enabled 22 ∨ s.sxe.cut ∨ !s.sxeSends ∨ s.sxe.inRead ∨ s.sxe.wrote ∨
        s.now < s.sxe.cycleAt + 1000 * s.r SXE.WRITE_US then s
    else
      let outs := (stnEnabled s.sxe.table).filter (fun n => (s.stn n).st == .run || (s.stn n).st == .missing)
      let cfgs := s.configStations
      let q := (if s.sxe.announce then [s.announceFrame] else []) ++ outs.map s.outputFrame ++ cfgs.map s.configFrame
      s.setSxe (fun k => { k with outQ := q, sent := [], announce := false, wrote := true })

/-- The bytes of a frame on the medium, without redundancy (R314). -/
def State.sxeLen (s : State) (f : SxeFrame) : Nat :=
  max 64 (14 + (if s.on SXE.VLAN_EN then 4 else 0) + 24 + 4 * f.words + 4)

/-- The bytes of a frame after its EtherType, each field most significant byte first (R6, R313). -/
def sxeBytes (f : SxeFrame) : List Nat :=
  [f.version, f.ftype] ++ beBytes 2 f.station ++ beBytes 4 f.cycle.toNat ++ beBytes 6 (f.time / 1000000000) ++
  beBytes 4 (f.time % 1000000000) ++ [f.flags.toNat, f.words] ++ beBytes 4 f.echo.toNat ++ f.data.flatMap (fun w => beBytes 4 w.toNat)

/-- The frame that bytes after an EtherType spell (R6, R313); padding is ignored. -/
def sxeOf (b : List Nat) (dst src etype : Nat) : SxeFrame :=
  let n := b.getD 19 0
  { version := b.getD 0 0, ftype := b.getD 1 0, station := beVal ((b.drop 2).take 2), cycle := BitVec.ofNat 32 (beVal ((b.drop 4).take 4)),
    time := beVal ((b.drop 8).take 6) * 1000000000 + beVal ((b.drop 14).take 4), flags := BitVec.ofNat 8 (b.getD 18 0), words := n,
    echo := BitVec.ofNat 32 (beVal ((b.drop 20).take 4)), dst := dst, src := src, etype := etype,
    data := (List.range (min n ((b.length - 24) / 4))).map (fun i => BitVec.ofNat 32 (beVal ((b.drop (24 + 4 * i)).take 4))) }

/-- A frame goes to the switch for the ports in SXE_PORTS; the ports of a redundancy pair take it together (R315). -/
def State.sxeToSwitch (s : State) (f : SxeFrame) : State :=
  let b := sxeBytes f
  let e : EthFrame := { dst := f.dst, src := f.src, etype := f.etype, pcp := s.r SXE.PCP, len := s.sxeLen f,
                        data := b ++ List.replicate ((if s.on SXE.VLAN_EN then 42 else 46) - b.length) 0,
                        vid := if s.on SXE.VLAN_EN then some (s.r SXE.VID) else none }
  let ports := s.r SXE.SXE_PORTS
  s.forN 6 (fun s p =>
    let a := ports.testBit (2 * p)
    let b := ports.testBit (2 * p + 1)
    if (a || b) && s.r ESW.RED_MODE 0 p != 0 then s.redSend p e (fun _ => s.r ESW.SXE_CLASS)
    else
      let s := if a then s.enqueue (2 * p) (s.r ESW.SXE_CLASS) e else s
      if b then s.enqueue (2 * p + 1) (s.r ESW.SXE_CLASS) e else s)

/-- R305, R309: a queued frame is sent, or dropped past the cut-off. -/
def execOutputFrameTx (t : Nat) (s : State) : Host.Outcome State Fault Refusal :=
  s.runK .net t fun s =>
    match s.sxe.outQ with
    | [] => s
    | f :: fs =>
      let s := s.setSxe (fun k => { k with outQ := fs })
      if s.sxe.cycleAt + 1000 * s.r SXE.APPLY_US < s.now + 1000 * s.r SXE.LAT_US then
        s.dropOut f
      else
        let s := (s.sxeToSwitch f).setSxe (fun k => { k with
          sent := k.sent ++ [f], cfgNext := if f.ftype = 3 then f.station + 1 else k.cfgNext })
        let s := if f.ftype = 2 then s.setStn f.station { s.stn f.station with sentIn := some f.cycle, first := false } else s
        s.w SXE.WRITE_END_US ((s.now - s.sxe.cycleAt) / 1000)

/-- R311: TABLE_CMD = COMMIT. -/
def execTableCommit (t : Nat) (r : Requester) (s : State) : Host.Outcome State Fault Refusal :=
  s.cmdK t fun s => s.pageWrite r ⟨22, 0⟩ true fun s =>
    if s.on SXE.TABLE_PENDING then s.inc SXE.REFUSED else s.w SXE.TABLE_PENDING 1

/-- R311: TABLE_CMD = DISCARD. -/
def execTableDiscard (t : Nat) (r : Requester) (s : State) : Host.Outcome State Fault Refusal :=
  s.cmdK t fun s => s.pageWrite r ⟨22, 0⟩ true fun s =>
    if s.on SXE.TABLE_PENDING then s.inc SXE.REFUSED else s.setSxe (fun k => { k with staging := k.table })

/-- The fields of an entry word as they stand after clamping, with the bits at which a clamp counts (R318). -/
def State.entryClamp (s : State) (w v : Nat) : Nat × List Nat :=
  match w with
  | 0 =>
    let l := max 1 (bitsAt v 8 8)
    let i := max 1 (min 64 (bitsAt v 16 7))
    let o := min 32 (bitsAt v 24 6)
    (v % 256 + 2 ^ 8 * l + 2 ^ 16 * i + 2 ^ 24 * o,
     (if l = bitsAt v 8 8 then [] else [8]) ++ (if i = bitsAt v 16 7 then [] else [16]) ++ (if o = bitsAt v 24 6 then [] else [24]))
  | 1 => (v, [])
  | 2 => (v % 65536, [])
  | _ =>
    let x := v % 2 ^ 17
    let y := min x (s.r SXE.READ_END_US - 1)
    (y, if x = y then [] else [0])

/-- R318: a write of an entry word goes to the staging copy; a write of STN_W3 advances STN_SEL. -/
def execStnEntryWrite (t : Nat) (r : Requester) (w : Fin 4) (v : Word) (s : State) : Host.Outcome State Fault Refusal :=
  s.cmdK t fun s => s.pageWrite r ⟨22, 0⟩ true fun s =>
    if s.on SXE.TABLE_PENDING then s.inc SXE.REFUSED
    else
      let n := s.r SXE.STN_SEL
      let c := s.entryClamp w v.toNat
      let s := c.2.foldl (fun s b => s.clampCount ⟨22, 0⟩ (0x06C + 4 * w.val) b) s
      let s := s.setSxe (fun k => { k with
        staging := sset (if w.val = 0 then 0x00010300 else 0) k.staging (4 * n + w.val) (BitVec.ofNat 32 c.1) })
      if w.val = 3 then s.w SXE.STN_SEL (n + 1) else s

/-- R318: a write of PROF_DATA. -/
def execProfDataWrite (t : Nat) (r : Requester) (v : Word) (s : State) : Host.Outcome State Fault Refusal :=
  s.cmdK t fun s => s.pageWrite r ⟨22, 0⟩ true fun s =>
    let w := s.r SXE.PROF_WORD
    (s.setSxe (fun k => { k with profNew := sset 0 k.profNew (64 * s.r SXE.PROF_SEL + w) v })).w SXE.PROF_WORD (w + 1)

/-- A half of the HOLD_MASK of profile PROF_SEL (R304, R312). -/
def State.putHoldMask (s : State) (i : Nat) (v : Word) : State :=
  s.setSxe (fun k => { k with profNew := sset 0 k.profNew (4096 + 2 * s.r SXE.PROF_SEL + i) v })

/-- TX_OFF_US lies below READ_END_US: entries of the staging copy and the active table that a write of READ_END_US leaves outside are clamped, each staged one counting (R65, R318). -/
def State.clampTxOff (s : State) : State :=
  let m := s.r SXE.READ_END_US - 1
  let high := fun (p : Nat × Word) => p.1 % 4 == 3 && decide (m < p.2.toNat % 2 ^ 17)
  let cut := fun (t : List (Nat × Word)) => (t.map (fun p => if high p then (p.1, BitVec.ofNat 32 m) else p)).filter (fun p => !(p.1 % 4 == 3 && p.2 == 0))
  let n := (s.sxe.staging.filter high).length
  (s.setSxe (fun k => { k with staging := cut k.staging, table := cut k.table })).forN n fun s _ => s.clampCount ⟨22, 0⟩ 0x078 0

/-- The value of an unlisted word of the plan map (R318). -/
def pmDefault (w : Nat) : Word := if w = 0 then 0 else 0x01000000

/-- R318: a write of a plan-map word; a write of PM_GAIN advances PM_SEL. -/
def execPlanMapWrite (t : Nat) (r : Requester) (w : Fin 2) (v : Word) (s : State) : Host.Outcome State Fault Refusal :=
  s.cmdK t fun s => s.pageWrite r ⟨22, 0⟩ true fun s =>
    let n := s.r SXE.PM_SEL
    let x := if w.val = 0 then v.toNat % 2 ^ 26 + 2 ^ 26 * min 2 (bitsAt v.toNat 26 2) else v.toNat
    let s := s.when (w.val == 0 && bitsAt v.toNat 26 2 == 3) (fun s => s.clampCount ⟨22, 0⟩ 0x0C4 26)
    let s := s.setSxe (fun k => { k with pmapNew := sset (pmDefault w.val) k.pmapNew (2 * n + w.val) (BitVec.ofNat 32 x) })
    if w.val = 1 then s.w SXE.PM_SEL (n + 1) else s

/-- The plan map copies plan values into output words at a plan instant; written entries take effect then (R306, R312). -/
def State.planMapCopy (s : State) (value : Nat → Int) : State :=
  let s := s.setSxe (fun k => { k with pmap := k.pmapNew })
  ((s.sxe.pmap.filter (fun p => p.1 % 2 == 0 && p.2.getLsbD 15)).foldl (fun s p =>
    let e := p.2.toNat
    let gain := sgn 32 (sget (pmDefault 1) s.sxe.pmap (p.1 + 1)).toNat
    let v := sat 32 (onGrid (gain * value (bitsAt e 16 10)) (-40) (-16))
    s.setSo (e % 2 ^ 15) (BitVec.ofNat 32 (routeFmt (bitsAt e 26 2) v))) s)

/-- R318: CTR_CLR. -/
def execSxeCtrClr (t : Nat) (r : Requester) (s : State) : Host.Outcome State Fault Refusal :=
  s.cmdK t fun s => s.pageWrite r ⟨22, 0⟩ true fun s =>
    let s := [SXE.FRAME_ERRS, SXE.LATE_INPUTS, SXE.OUT_DROPPED, SXE.LAST_ERR_STN, SXE.LAST_ERR_CAUSE,
      SXE.WRITE_END_US].foldl (fun s f => s.w f 0) s
    (s.stations.map (·.1)).foldl (fun s n => s.setStn n { s.stn n with outMiss := 0, missedTotal := 0 }) s

/-- ENABLE of the SXE page rises or falls (R300, R301). -/
def State.sxeEnable (s : State) (on : Bool) : State :=
  if on then
    let now := s.up
    let s := s.setSxe (fun k => { k with startAt := now + 1000000, cut := true, inRead := false, outQ := [] })
    (stnEnabled s.sxe.table).foldl State.joinStn s
  else s.setSxe (fun k => { k with outQ := [], inRead := false, cut := true })

/-- STALE_NOW and DOWN_NOW (R318). -/
def State.staleNow (s : State) : Nat := ((stnEnabled s.sxe.table).filter (fun n => s.stnQ n == .stale)).length

/-- DOWN_NOW (R318). -/
def State.downNow (s : State) : Nat := ((stnEnabled s.sxe.table).filter (fun n => (s.stn n).st == .down)).length

/-- A word of QUALITY_MAP (R318). -/
def State.qualityMap (s : State) (k : Nat) : Nat :=
  (List.range 16).foldl (fun v i => v + 4 ^ i * qualityCode (s.stnQ (16 * k + i))) 0

end Sys2Proof.Machine
end

