-- ==== Sys2Proof/Machine/Ho.lean ====
section
/-! DEFINITION. The plan handover: grading, the plan in force, tail and safe schedule, trips and contingencies, the plan output table (R149 to R171). -/

namespace Sys2Proof.Machine

/-! ### Solver SRAM runs -/

/-- Replace `len` bytes from `base` on: `cells` are the bytes other than 0 that lie there then, addresses rising (assumption 5). -/
def putCells (m : List Host.Cell) (base len : Nat) (cells : List Host.Cell) : List Host.Cell :=
  m.filter (fun c => decide (c.1 < base)) ++ cells.filter (fun c => decide (base ≤ c.1) && decide (c.1 < base + len)) ++
  m.filter (fun c => decide (base + len ≤ c.1))

/-- The cells of a run of bytes. -/
def runCells (base : Nat) : List Nat → List Host.Cell
  | [] => []
  | b :: bs => if b % 256 = 0 then runCells (base + 1) bs else (base, BitVec.ofNat 8 b) :: runCells (base + 1) bs

/-- Words of solver SRAM that are written hold no error any more (R542). -/
def State.unpoison (s : State) (base len : Nat) : State :=
  { s with pwr := { s.pwr with
    poison := s.pwr.poison.filter (fun a => decide (a + 8 ≤ base) || decide (base + len ≤ a)),
    bad := s.pwr.bad.filter (fun b => b.1 != 0 || decide (b.2 + 8 ≤ base) || decide (base + len ≤ b.2)) } }

/-- Replace the cells of a region of solver SRAM. -/
def State.putRegion (s : State) (base len : Nat) (cells : List Host.Cell) : State :=
  let m := putCells s.solver base len cells
  let s := s.unpoison base len
  { s with solver := m }

/-- Write a run of bytes of solver SRAM at a logical address. -/
def State.putSol (s : State) (base : Nat) (bs : List Nat) : State :=
  s.putRegion base bs.length (runCells base bs)

/-- The bytes of a list of words. -/
def wordBytes (ws : List Word) : List Nat := ws.flatMap (fun w => leBytes 4 w.toNat)

/-- Change the handover record. -/
def State.setHo (s : State) (f : HoX → HoX) : State := { s with ho := f s.ho }

/-- Start of the publication area (R168). -/
def pubBase : Nat := 0x40100000

/-! ### The plan output table (R155) -/

/-- Word `w` of entry `j` of a bank. -/
def State.potWord (s : State) (bank j w : Nat) : Nat :=
  (sget (if w = 0 then 0x00020000 else if w = 2 then 0x80000000 else if w = 3 then 0x7FFFFFFF else 0) s.ho.pot (4096 * bank + 4 * j + w)).toNat

/-- POT_TAG of a bank. -/
def State.potTag (s : State) (bank : Nat) : Word := sget 0 s.ho.tag bank

/-- POT_COUNT of a bank. -/
def State.potCount (s : State) (bank : Nat) : Nat := min 1024 (sget 0 s.ho.count bank).toNat

/-- The bank that a set uses: the one whose tag is its SET_ID, bank 0 when both are (R155). -/
def State.bankOf (s : State) (setId : Word) : Option Nat :=
  if s.potTag 0 = setId then some 0 else if s.potTag 1 = setId then some 1 else none

/-- A bank is in use (R155). -/
def State.bankInUse (s : State) (bank : Nat) : Bool :=
  (s.on DSQ.ACTIVE_VALID && s.potTag bank == BitVec.ofNat 32 (s.r DSQ.ACTIVE_SET_ID)) ||
  (s.r DSQ.MODE != 0 && (match s.ho.inForce with
    | some p => s.bankOf p.setId == some bank
    | none => false))

/-- The window registers show the entry, tag and count that POT_SEL names. -/
def State.loadPot (s : State) : State :=
  let b := s.r DSQ.BANK
  let j := s.r DSQ.INDEX
  ((((((s.w DSQ.POT_W0 (s.potWord b j 0)).w DSQ.POT_W1 (s.potWord b j 1)).w DSQ.POT_W2 (s.potWord b j 2)).w DSQ.POT_W3
    (s.potWord b j 3)).w DSQ.POT_TAG (s.potTag b).toNat).w DSQ.POT_COUNT (s.potCount b))

/-- A write of a bank: refused and counted while the bank is in use (R155). -/
def State.potWrite (s : State) (f : Nat → State → State) : State :=
  let b := s.r DSQ.BANK
  if s.bankInUse b then s.inc DSQ.REFUSED_WR else f b s

/-- R170: a write of POT_W3 commits the entry and advances INDEX; HI below LO takes LO. -/
def State.potCommit (s : State) (v : Word) : State :=
  s.potWrite fun b s =>
    let lo := s.r DSQ.POT_W2
    let low := decide (sgn 32 v.toNat < sgn 32 lo)
    let s := s.when low (fun s => s.clampCount ⟨16, 0⟩ 0x230 0)
    let hi := if low then lo else v.toNat
    let j := s.r DSQ.INDEX
    let put := fun (m : List (Nat × Word)) (w x : Nat) =>
      sset (if w = 0 then 0x00020000 else if w = 2 then 0x80000000 else if w = 3 then 0x7FFFFFFF else 0) m
        (4096 * b + 4 * j + w) (BitVec.ofNat 32 x)
    let s := s.setHo (fun h => { h with
      pot := put (put (put (put h.pot 0 (s.r DSQ.POT_W0)) 1 (s.r DSQ.POT_W1)) 2 lo) 3 hi })
    (s.w DSQ.INDEX ((j + 1) % 1024)).loadPot

/-- R155, R170: a write of POT_W3. -/
def execPotEntryCommit (t : Nat) (r : Requester) (v : Word) (s : State) : Host.Outcome State Fault Refusal :=
  s.cmdK t fun s => s.pageWrite r ⟨16, 0⟩ true fun s => s.potCommit v

/-- R155: a write of POT_TAG. -/
def execPotTagWrite (t : Nat) (r : Requester) (v : Word) (s : State) : Host.Outcome State Fault Refusal :=
  s.cmdK t fun s => s.pageWrite r ⟨16, 0⟩ true fun s => s.potWrite fun b s =>
    (s.setHo (fun h => { h with tag := sset 0 h.tag b v })).loadPot

/-- R155: a write of POT_COUNT. -/
def execPotCountWrite (t : Nat) (r : Requester) (v : Word) (s : State) : Host.Outcome State Fault Refusal :=
  s.cmdK t fun s => s.pageWrite r ⟨16, 0⟩ true fun s => s.potWrite fun b s =>
    let n := v.toNat % 2048
    let s := s.when (decide (1024 < n)) (fun s => s.clampCount ⟨16, 0⟩ 0x238 0)
    (s.setHo (fun h => { h with count := sset 0 h.count b (BitVec.ofNat 32 (min 1024 n)) })).loadPot

/-! ### Stages (R153) -/

/-- The stage in force `el` ns after the start of stage 0; the number of stages when the tail is exhausted. -/
def stageAt : List Nat → Nat → Nat
  | [], _ => 0
  | d :: ds, el => if el < 1000000 * d then 0 else 1 + stageAt ds (el - 1000000 * d)

/-- The stage of a plan at an instant. -/
def planStage (p : PlanX) (now : Nat) : Nat := stageAt p.dur (now - p.start)

/-- The end of stage `st` of a plan. -/
def planEnd (p : PlanX) (st : Nat) : Nat := p.start + 1000000 * (p.dur.take (st + 1)).sum

/-- The tail of a plan is exhausted (R159). -/
def planDone (p : PlanX) (now : Nat) : Bool := decide (p.dur.length ≤ planStage p now)

/-! ### Plan values (R156, R158, R161) -/

/-- The values of the entries of a bank with the count of clamps and the last clamped value. -/
structure Values where
  vals : List (Nat × Word) := []
  clamps : Nat := 0
  last : Nat := 0
  deriving DecidableEq, Repr

/-- One value bounded by LO and HI; `n` clamps have come before (R156). -/
def Values.add (x : Values) (j : Nat) (v lo hi : Int) (n : Nat) : Values :=
  let v1 := if v < lo then lo else v
  let v2 := if hi < v1 then hi else v1
  let n := n + (if v < lo then 1 else 0) + (if hi < v1 then 1 else 0)
  { vals := sset 0 x.vals j (BitVec.ofNat 32 (bits 32 v2)), clamps := x.clamps + n, last := if n = 0 then x.last else j }

/-- The safe value of an entry, before its bounds (R161). -/
def State.safeValue (s : State) (bank j : Nat) : Int :=
  match bitsAt (s.potWord bank j 0) 17 2 with
  | 0 => sgn 32 (s.dwordSeen (0x2400 + j)).toNat
  | 1 => sgn 32 (sget 0 s.ho.held j).toNat
  | _ => sgn 32 (s.potWord bank j 1)

/-- LO and HI of an entry. -/
def State.potBounds (s : State) (bank j : Nat) : Int × Int := (sgn 32 (s.potWord bank j 2), sgn 32 (s.potWord bank j 3))

/-- cvt of a scaled value with exponent `x` into Q15.16 (R117, R156). -/
def scaleTo (p x : Int) : Int := sat 32 (if x ≤ 31 then roundShift p (31 - x).toNat else p * 2 ^ (x - 31).toNat)

/-- An element of a stage vector of a plan. -/
def planElem (p : PlanX) (st v : Nat) : Int := (p.z.getD st []).getD v 0

/-- The value of an entry under a plan in stage `st`, before its bounds, with the clamps counted so far (R156). -/
def State.planValue (s : State) (p : PlanX) (st bank j : Nat) : Int × Nat :=
  let w := s.potWord bank j 0
  let var := w % 65536
  let (m, x) := p.scale.getD var (0, 0)
  if p.nz ≤ var then (s.safeValue bank j, 1)
  else if !w.testBit 16 then (scaleTo (planElem p st var * m) x, 0)
  else
    let nxt := if st + 1 < p.dur.length ∨ var < p.nx then planElem p (st + 1) var else planElem p st var
    (sat 32 (divRound (scaleTo ((nxt - planElem p st var) * m) x * 1000) (p.dur.getD st 1)), 0)

/-- The values of a plan in a stage. -/
def State.planValues (s : State) (p : PlanX) (st bank : Nat) : Values :=
  (List.range (s.potCount bank)).foldl (fun (x : Values) (j : Nat) =>
    let (v, n) := s.planValue p st bank j
    let (lo, hi) := s.potBounds bank j
    x.add j v lo hi n) {}

/-- The bank of the safe schedule (R161). -/
def State.safeBank (s : State) : Nat :=
  match (if s.on DSQ.ACTIVE_VALID then s.bankOf (BitVec.ofNat 32 (s.r DSQ.ACTIVE_SET_ID)) else none) with
  | some b => b
  | none => s.ho.lastBank

/-- The values of the safe schedule (R161). -/
def State.safeValues (s : State) : Values :=
  let bank := s.safeBank
  (List.range (s.potCount bank)).foldl (fun (x : Values) (j : Nat) =>
    let (lo, hi) := s.potBounds bank j
    x.add j (s.safeValue bank j) lo hi 0) {}

/-- The groups that entries of a bank feed, with the smallest value each (R158). -/
def State.fedBy (s : State) (bank : Nat) (v : List (Nat × Word)) : List (Nat × Int) :=
  (List.range (s.potCount bank)).foldl (fun (m : List (Nat × Int)) (j : Nat) =>
    let w := s.potWord bank j 0
    if w.testBit 19 then
      let g := bitsAt w 20 3
      let x := sgn 32 (sget 0 v j).toNat
      let x := match m.find? (fun q => q.1 == g) with
        | some q => min q.2 x
        | none => x
      (g, x) :: m.filter (fun q => !(q.1 == g))
    else m) []

/-- The rate table at a plan instant (R158): the smallest value of each fed group, a value below 0 giving 0; the default rate of MPG for a group that no entry feeds; under the safe schedule the safe closure rates of MPG. -/
def State.ratesOf (s : State) (fed : List (Nat × Int)) : List Word :=
  (List.range 8).map (fun g =>
    if s.r DSQ.MODE = 0 then BitVec.ofNat 32 (s.r MPC.SAFE_RATE 24 g)
    else match fed.find? (fun q => q.1 == g) with
      | some q => BitVec.ofNat 32 (bits 32 (clampI 0 0x7FFFFFFF q.2))
      | none => BitVec.ofNat 32 (s.r MPC.DEFAULT_RATE 24 g))

/-- All 1,024 plan values as bytes. -/
def valueBytes (v : List (Nat × Word)) : List Nat := wordBytes ((List.range 1024).map (sget 0 v))

/-- HO_STAT (R170). -/
def State.hoStat (s : State) : Nat :=
  s.r DSQ.MODE + 4 * s.r DSQ.SOURCE + 64 * s.r DSQ.GRADE + 256 * s.r DSQ.STAGE + 2 ^ 15 * s.r DSQ.PARTIAL_COVER +
  2 ^ 16 * s.r DSQ.RED_RUN + 2 ^ 24 * s.r DSQ.GOOD_RUN + 2 ^ 28 * s.r DSQ.PLAN_BUF + 2 ^ 30 * s.r DSQ.SAFE_CAUSE

/-- The header of the publication area, the copies in the plan-interface area and the TAIL_RUNNING level follow the registers (R168, R169, R171). -/
def State.hoShow (s : State) : State :=
  let st := s.hoStat
  let endAt := match s.ho.inForce with
    | some p => if s.r DSQ.MODE = 0 then 0 else planEnd p (s.r DSQ.STAGE)
    | none => 0
  let s := s.putSol pubBase (leBytes 4 st ++ leBytes 4 (s.r DSQ.PLAN_SEQ_IN_FORCE) ++ leBytes 4 (s.r DSQ.TRIP_STATE) ++
    leBytes 8 (stamp s.ho.applied) ++ leBytes 8 (stamp endAt))
  let s := (s.setDword 0x2800 (BitVec.ofNat 32 st)).setDword 0x2801 (BitVec.ofNat 32 (s.r DSQ.PLAN_SEQ_IN_FORCE))
  s.setRaw 16 0 34 (s.r DSQ.MODE == 2)

/-- The plan-interface words follow the values in force (R169). -/
def planWords (m : List (Nat × Word)) (v : List (Nat × Word)) : List (Nat × Word) :=
  m.filter (fun p => decide (p.1 < 0x2000)) ++ (v.filter (fun p => decide (p.1 < 1024))).map (fun p => (0x2000 + p.1, p.2)) ++
  m.filter (fun p => decide (0x2400 ≤ p.1))

/-- What the staged values of a plan in a stage would be prepared for at this instant. -/
def State.stageKey (s : State) (p : PlanX) (st bank : Nat) : StageKey :=
  { at_ := s.now, src := p.src, seq := p.seq, setId := p.setId, stage := st, bank := bank }

/-- The values of a plan in a stage at a plan instant: those staged for it, or computed where none were (R157). -/
def State.takeValues (s : State) (p : PlanX) (st bank : Nat) : Values :=
  if s.ho.stagedFor = some (s.stageKey p st bank) then
    { vals := s.ho.staged, clamps := s.ho.stagedClamps.1, last := s.ho.stagedClamps.2 }
  else s.planValues p st bank

/-- At a plan instant the words of the plan-interface area are kept as they stood before it (R24, R175). -/
def State.keepPlanWords (s : State) : State :=
  if s.ho.planAt = some s.now then s
  else s.setHo (fun h => { h with planAt := some s.now, prevPlan := s.dataMem.filter (fun p => planWord p.1) })

/-- Plan values and rate table take new values at a plan instant, and every consumer takes them (R157, R158, R325). -/
def State.setValues (s : State) (x : Values) (bank : Nat) : State :=
  let s := s.keepPlanWords
  let fed := s.fedBy bank x.vals
  let rates := s.ratesOf fed
  let s := s.setHo (fun h => { h with values := x.vals, rates := rates, fed := fed.map (·.1) })
  let s := (s.putSol (pubBase + 0x1000) (valueBytes x.vals)).putSol (pubBase + 0x3000) (wordBytes rates)
  let s := { s with dataMem := planWords s.dataMem x.vals }
  let val := fun (j : Nat) => sgn 32 (sget 0 x.vals j).toNat
  let s := s.planMapCopy val
  let s := s.forN 24 (fun s a => if s.r MPG.TGT_SRC a = 2 then s.axisValue a (val (s.r MPG.PLAN_J a)) else s)
  let s := s.forN 8 (fun s g => s.groupEvents g)
  let s := (s.w DSQ.VALUE_CLAMPS (min 65535 x.clamps)).clampData ⟨16, 0⟩ x.clamps
  let s := if x.clamps = 0 then s else s.w DSQ.LAST_VALUE x.last
  s.setRaw 16 0 40 (decide (0 < x.clamps))

/-- What a cut carries of the handover: the plan in force and its timing, the values, rates and banks; not this period's plan while it is undecided, nor results and selections (R162, R492). -/
def hoShared (h : HoX) : HoX :=
  { h with stagedPlan := none, published := none, resPlans := [], resTrigger := [], selected := none, selPlan := none, aband := false,
           pause := false, paused := false, reqPrev := 0, planAt := none, prevPlan := [] }

/-- The standby takes what a cut carries beside what is its own (R492). -/
def hoMerge (own h : HoX) : HoX :=
  { h with stagedPlan := own.stagedPlan, published := own.published, resPlans := own.resPlans, resTrigger := own.resTrigger,
           selected := own.selected, selPlan := own.selPlan, aband := own.aband, pause := own.pause, paused := own.paused,
           reqPrev := own.reqPrev, planAt := own.planAt, prevPlan := own.prevPlan }

/-- No plan of the present period and no contingency waits (R494). -/
def hoSettled (h : HoX) : HoX := { h with stagedPlan := none, published := none, selected := none, selPlan := none, aband := false }

/-! ### Contingency selection (R163 to R165) -/

/-- A grade is accepted (R150). -/
def State.gradeOk (s : State) (g : Nat) : Bool := g == 0 || (g == 1 && s.on DSQ.ACCEPT_AMBER)

/-- A contingency result is usable for an application at `instant` (R164). -/
def State.usable (s : State) (instant : Nat) (p : PlanX) : Bool :=
  (s.r DSQ.RES_VALID).testBit (1 + p.src) && s.gradeOk p.grade &&
  decide (((BitVec.ofNat 32 (s.r DSQ.PERIOD_SEQ)) - p.seq).toNat ≤ s.r DSQ.CONT_AGE) &&
  (s.bankOf p.setId).isSome && !planDone p instant

/-- The number of bits set in a word. -/
def popCount (w : Word) : Nat := ((List.range 32).filter (fun i => w.getLsbD i)).length

/-- TRIGGER of contingency `j`. -/
def State.trigger (s : State) (j : Nat) : Word := sget 0 s.ho.resTrigger j

/-- The contingency that R164 takes for the trips latched, with PARTIAL_COVER. -/
def State.choose (s : State) (instant : Nat) : Option (PlanX × Bool) :=
  let trips := BitVec.ofNat 32 (s.r DSQ.TRIP_STATE)
  let us := (s.ho.resPlans.map (·.2)).filter (fun p => p.src != 0 && s.usable instant p)
  let full := us.filter (fun p => trips != 0 && s.trigger (p.src - 1) &&& trips == trips)
  match full.head? with
  | some p => some (p, false)
  | none =>
    let best := us.foldl (fun (b : Option (PlanX × Nat)) (p : PlanX) =>
      let n := popCount (s.trigger (p.src - 1) &&& trips)
      match b with
      | some q => if q.2 < n then some (p, n) else b
      | none => if 0 < n then some (p, n) else b) none
    best.map (fun q => (q.1, true))

/-- A staged plan is copied into its plan buffer: header, final grade, apply time, z (R154, R168). -/
def State.copyPlan (s : State) (buf : Nat) (p : PlanX) (grade applyAt : Nat) : State :=
  let hdr := (p.hdr ++ List.replicate 0x600 0).take 0x560 ++ [grade] ++ List.replicate 7 0 ++ leBytes 8 (stamp applyAt)
  let base := pubBase + 0x40000 * (1 + buf)
  let z := p.z.flatMap (fun v => ((List.range p.nz).map (fun i => BitVec.ofNat 32 (bits 32 (v.getD i 0)))))
  (s.putSol base (hdr ++ List.replicate (0x600 - hdr.length) 0)).putSol (base + 0x1000) (wordBytes z)

/-- The publication area of the standby follows a mirrored plan: its buffer where the plan in force is another than `was`, values, rates, header (R168, R492). -/
def State.showPlan (s : State) (was : Option PlanX) : State :=
  let s := match s.ho.inForce with
    | some p => if s.ho.inForce = was then s else s.copyPlan (s.r DSQ.PLAN_BUF) p p.grade s.ho.applied
    | none => s
  let s := (s.putSol (pubBase + 0x1000) (valueBytes s.ho.values)).putSol (pubBase + 0x2000) (valueBytes s.ho.staged)
  ((s.putSol (pubBase + 0x3000) (wordBytes s.ho.rates)).putSol (pubBase + 0x3020) (wordBytes s.ho.ratesStaged)).hoShow

/-- The grade with which a contingency applies: partial cover lowers GREEN to AMBER (R164). -/
def contGrade (p : PlanX) (part : Bool) : Nat := if part then max 1 p.grade else p.grade

/-- A contingency is selected for an instant, or CONT_MISSING is raised and none is (R164, R165). -/
def State.selectCont (s : State) (instant : Nat) : State :=
  match s.choose instant with
  | some (p, part) =>
    (s.setHo (fun h => { h with selected := some (p.src - 1, instant, part), selPlan := some p })).copyPlan s.ho.bufC p
      (contGrade p part) instant
  | none => (s.setHo (fun h => { h with selected := none, selPlan := none })).raise 16 0 39

/-- Payload bytes 16 to 24 of PLAN_APPLIED and CONT_APPLIED (R171). -/
def State.planPay (s : State) : List Nat :=
  leBytes 4 (s.r DSQ.PLAN_SEQ_IN_FORCE) ++ [s.r DSQ.SOURCE, s.r DSQ.GRADE, s.r DSQ.MODE, s.r DSQ.STAGE, s.r DSQ.RED_RUN]

/-- A plan becomes the plan in force (R153, R154, R165, R168). -/
def State.enforce (s : State) (p : PlanX) (bank grade : Nat) (part : Bool) : State :=
  let cont := p.src != 0
  let old := s.r DSQ.PLAN_BUF
  let new := if cont then s.ho.bufC else s.ho.bufD
  let st := planStage p s.now
  let s := s.setHo (fun h => { h with
    inForce := some { p with grade := grade, bank := bank }, lastAccepted := some p, lastBank := bank, applied := s.now,
    bufD := if cont then h.bufD else old, bufC := if cont then old else h.bufC, selected := none, selPlan := none })
  let s := (((((((s.w DSQ.MODE (if cont then 3 else 1)).w DSQ.SOURCE p.src).w DSQ.GRADE grade).w DSQ.STAGE st).wb
    DSQ.PARTIAL_COVER part).w DSQ.PLAN_BUF new).w DSQ.PLAN_SEQ_IN_FORCE p.seq.toNat)
  (s.setValues (s.takeValues p st bank) bank).hoShow

/-- A dispatch plan is applied; that clears the trips (R153, R166). -/
def State.applyDispatch (s : State) (p : PlanX) (bank : Nat) : State :=
  let s := (s.w DSQ.TRIP_STATE 0).setHo (fun h => { h with trips := [] })
  let s := s.enforce p bank p.grade false
  s.raise 16 0 32 s.planPay

/-- A contingency plan is applied (R165). -/
def State.applyCont (s : State) (p : PlanX) (part : Bool) : State :=
  match s.bankOf p.setId with
  | none => s
  | some bank =>
    let s := s.enforce p bank (contGrade p part) part
    s.raise 16 0 38 s.planPay [p.src - 1, part.toNat]

/-- The selected contingency falls due: it is tested again, or another is taken (R165). -/
def State.contDue (s : State) : State :=
  match s.ho.selected, s.ho.selPlan with
  | some (_, _, part), some p =>
    if s.usable s.now p then s.applyCont p part
    else
      match s.choose s.now with
      | some (p, part) => (s.copyPlan s.ho.bufC p (contGrade p part) s.now).applyCont p part
      | none => (s.setHo (fun h => { h with selected := none, selPlan := none })).raise 16 0 39
  | _, _ => s

/-- A selected contingency is due at this instant. -/
def State.contIsDue (s : State) : Bool :=
  match s.ho.selected with
  | some (_, d, _) => s.r DSQ.MODE != 0 && decide (d ≤ s.now)
  | none => false

/-! ### Tail and safe schedule (R159 to R162) -/

/-- The safe schedule runs from here (R160, R161). -/
def State.runSafe (s : State) (cause : Nat) : State :=
  let s := s.setHo (fun h => { h with held := h.values, selected := none, selPlan := none, inForce := none })
  let s := ((((((s.w DSQ.MODE 0).w DSQ.GRADE 2).w DSQ.SOURCE 0).w DSQ.STAGE 0).w DSQ.PARTIAL_COVER 0).w DSQ.GOOD_RUN 0).w
    DSQ.SAFE_CAUSE cause
  (s.setValues s.safeValues s.safeBank).hoShow

/-- The safe schedule starts, with its event (R160, R171). -/
def State.enterSafe (s : State) (cause : Nat) : State := (s.runSafe cause).raise 16 0 35 [] [cause]

/-- The plan in force goes on: its stage at this instant takes effect, or the safe schedule starts (R159, R160). -/
def State.goOn (s : State) (tail : Bool) : State :=
  match s.ho.inForce with
  | none => s
  | some p =>
    if planDone p s.now then s.enterSafe 2
    else
      match s.bankOf p.setId with
      | none => s.enterSafe 3
      | some bank =>
        let st := planStage p s.now
        let s := (s.w DSQ.STAGE st).when (tail && s.r DSQ.MODE == 1) (fun s => s.w DSQ.MODE 2)
        (s.setValues (s.takeValues p st bank) bank).hoShow

/-- An apply instant at which no plan is applied. -/
def State.noPlan (s : State) : State :=
  if s.r DSQ.MODE = 0 then (s.setValues s.safeValues s.safeBank).hoShow
  else if s.contIsDue then
    let before := s.ho.inForce
    let s := s.contDue
    if s.ho.inForce = before then s.goOn true else s
  else s.goOn true

/-- The apply instant of the present period (R152). -/
def State.applyAt (s : State) : Nat := s.dsq.tk + 1000 * s.dsq.applyOff

/-- This instant is an apply instant. -/
def State.isApply (s : State) : Bool := s.enabled 16 && s.now == s.applyAt

/-- R166 holds a plan back: a trip is latched at or after its snapshot. -/
def State.heldBack (s : State) (p : PlanX) : Bool :=
  s.r DSQ.TRIP_STATE != 0 && s.ho.trips.any (fun q => decide (p.snap ≤ q.2))

/-- A non-accepted period (R151, R160). -/
def State.reject (s : State) (status grade reason : Nat) : State :=
  let s := ((s.inc DSQ.RED_RUN).w DSQ.GOOD_RUN 0).raise 16 0 33 [] [status, grade, reason]
  let lim := s.r DSQ.RED_LIMIT
  if s.r DSQ.MODE ≠ 0 ∧ lim ≠ 0 ∧ lim ≤ s.r DSQ.RED_RUN then s.enterSafe 1 else s.noPlan

/-- An accepted period (R154, R162, R166). -/
def State.accept (s : State) (p : PlanX) (bank : Nat) : State :=
  let s := (s.w DSQ.RED_RUN 0).copyPlan s.ho.bufD p p.grade s.now
  if s.r DSQ.MODE = 0 then
    let s := (s.w DSQ.GOOD_RUN (min 15 (s.r DSQ.GOOD_RUN + 1))).setHo (fun h => { h with lastAccepted := some p })
    let free := s.r DSQ.RELEASE_MODE = 0 ∨ (s.dwordSeen 0x2803).getLsbD 0
    if !s.heldBack p ∧ s.r DSQ.RECOVER_COUNT ≤ s.r DSQ.GOOD_RUN ∧ free then
      let s := s.setDword 0x2803 (s.dword 0x2803 &&& 0xFFFFFFFE)
      (s.applyDispatch p bank).raise 16 0 36
    else s.noPlan
  else if s.heldBack p then s.noPlan
  else s.applyDispatch p bank

/-- What happens at an apply instant (R151). A period in which the plan rhythm paused for a firmware switch is decided neither way. -/
def State.applyInstant (s : State) : State :=
  if s.ho.pause ∨ s.ho.paused then s.noPlan
  else
    let pub := s.ho.published
    let plan := s.ho.stagedPlan
    let gone := s.ho.aband || !s.on DSQ.ACTIVE_VALID
    let s := s.setHo (fun h => { h with published := none, stagedPlan := none, aband := false })
    match pub, plan with
    | some (at_, status, grade), some p =>
      if !s.on DSQ.ACTIVE_VALID then s.reject status grade 3
      else if s.now < at_ + 100000 then s.reject status grade 1
      else if !s.gradeOk grade then s.reject status grade 0
      else match s.bankOf p.setId with
        | none => s.reject status grade 2
        | some bank => s.accept p bank
    | _, _ => s.reject 0xFF 2 (if gone then 3 else 1)

/-- R151, R152: an apply instant a_k = t_k + APPLY_OFFSET_US. -/
def execApplyInstant (t : Nat) (s : State) : Host.Outcome State Fault Refusal :=
  s.runS .solve t fun s => if s.follows || !s.isApply then s else s.applyInstant

/-- The plan in force has reached the end of the stage that it is in. -/
def State.stageOver (s : State) : Bool :=
  match s.ho.inForce with
  | none => false
  | some p => planDone p s.now || planStage p s.now != s.r DSQ.STAGE

/-- What happens at a stage boundary (R153, R159, R167). -/
def State.stageInstant (s : State) : State :=
  if s.contIsDue then
    let before := s.ho.inForce
    let s := s.contDue
    if s.ho.inForce = before then s.goOn false else s
  else s.goOn false

/-- R153, R159, R167: a stage boundary of the plan in force. At an apply instant the apply instant decides. -/
def execStageBoundary (t : Nat) (s : State) : Host.Outcome State Fault Refusal :=
  s.runS .solve t fun s =>
    if s.follows ∨ s.r DSQ.MODE = 0 ∨ s.isApply ∨ (!s.stageOver) = true then s else s.stageInstant

/-- R165: the application instant of a selected contingency. -/
def execContApplied (t : Nat) (s : State) : Host.Outcome State Fault Refusal :=
  s.runS .solve t fun s => if s.follows ∨ s.isApply ∨ !s.contIsDue then s else s.contDue

/-- The next plan instant after this one: the next apply instant while plan periods run, the end of the stage in force, or the application of a selected contingency, whichever is first (R157). -/
def State.nextInstant (s : State) : Option Nat :=
  let ak := if s.enabled 16 then [if s.now < s.applyAt then s.applyAt else s.applyAt + 1000 * s.r DSQ.PLAN_PERIOD_US] else []
  let edge := match s.ho.inForce with
    | some p => if s.r DSQ.MODE = 0 then [] else [planEnd p (planStage p s.now)]
    | none => []
  let due := match s.ho.selected with
    | some (_, d, _) => if s.r DSQ.MODE = 0 then [] else [d]
    | none => []
  ((ak ++ edge ++ due).filter (fun x => decide (s.now < x))).min?

/-- The device as it will stand at the next plan instant if nothing comes before it: the values that it will then have in force are those to stage (R157). -/
def State.foresee (s : State) (edge : Nat) : State :=
  let s := (s.setHo (fun h => { h with stagedFor := none })).tick edge
  if s.enabled 16 && (edge == s.applyAt || edge == s.applyAt + 1000 * s.r DSQ.PLAN_PERIOD_US) then s.applyInstant
  else if s.stageOver then s.stageInstant
  else if s.contIsDue then s.contDue else s

/-- R157: the next set of plan values and rates is prepared in the staged area. -/
def execStagePrepare (t : Nat) (s : State) : Host.Outcome State Fault Refusal :=
  s.runS .solve t fun s =>
    match s.nextInstant with
    | none => s
    | some edge =>
      let u := s.foresee edge
      let key := if u.r DSQ.MODE = 0 then none else u.ho.inForce.map (fun p => u.stageKey p (u.r DSQ.STAGE) p.bank)
      let s := s.setHo (fun h => { h with
        staged := u.ho.values, ratesStaged := u.ho.rates, stagedFor := key, stagedClamps := (u.r DSQ.VALUE_CLAMPS, u.r DSQ.LAST_VALUE) })
      (s.putSol (pubBase + 0x2000) (valueBytes u.ho.values)).putSol (pubBase + 0x3020) (wordBytes u.ho.rates)

/-! ### Trips (R163) -/

/-- Trips of the plants in `mask` that are not latched yet are latched (R163, R164). -/
def State.latchTrips (s : State) (mask : Word) : State :=
  let old := BitVec.ofNat 32 (s.r DSQ.TRIP_STATE)
  let new := mask &&& ~~~old
  if new = 0 then s
  else
    let ps := (List.range 32).filter (fun i => new.getLsbD i)
    let s := (s.w DSQ.TRIP_STATE (old ||| new).toNat).setHo (fun h => { h with trips := h.trips ++ ps.map (fun i => (i, s.now)) })
    let s := ps.foldl (fun (s : State) (i : Nat) => s.raise 16 0 37 [] (i :: leBytes 8 (stamp s.now))) s
    let s := if s.r DSQ.MODE = 0 then s else s.selectCont (s.now + 1000 * s.r DSQ.TRIP_APPLY_US)
    s.hoShow

/-- R163: a write of TRIP_SET. -/
def execTripSet (t : Nat) (r : Requester) (v : Word) (s : State) : Host.Outcome State Fault Refusal :=
  s.cmdS t fun s => s.pageWrite r ⟨16, 0⟩ true fun s => s.latchTrips v

/-- R163: TRIP_REQ is sampled, at the instants S + n × 10 µs. -/
def execTripReqSample (t : Nat) (s : State) : Host.Outcome State Fault Refusal :=
  s.runS .solve t fun s =>
    if !s.onSeries 10 0 then s
    else
      let req := s.dwordSeen 0x2802
      let rise := req &&& ~~~s.ho.reqPrev
      (s.setHo (fun h => { h with reqPrev := req })).latchTrips rise

/-- R163: host software clears latched trips. -/
def execTripStateClear (t : Nat) (r : Requester) (v : Word) (s : State) : Host.Outcome State Fault Refusal :=
  s.cmdS t fun s => s.pageWrite r ⟨16, 0⟩ true fun s =>
    let left := BitVec.ofNat 32 (s.r DSQ.TRIP_STATE) &&& ~~~v
    ((s.w DSQ.TRIP_STATE left.toNat).setHo (fun h => { h with trips := h.trips.filter (fun q => left.getLsbD q.1) })).hoShow

/-- R171: HO_EVT_PEND is cleared by writing 1. -/
def execHoEvtClear (t : Nat) (r : Requester) (v : Word) (s : State) : Host.Outcome State Fault Refusal :=
  s.cmdK t fun s => s.pageWrite r ⟨16, 0⟩ true fun s =>
    s.w DSQ.HO_EVT_PEND (BitVec.ofNat 32 (s.r DSQ.HO_EVT_PEND) &&& ~~~v).toNat

/-! ### Grading (R149) -/

/-- The grade of a published dispatch or contingency result from its ceiling and its flags (R149). -/
def State.grade (s : State) (cap flags : Nat) : Nat :=
  let g := if !flags.testBit 6 then 2 else cap
  let g := if flags.testBit 10 ∧ g = 0 then 1 else g
  let g := if flags.testBit 11 ∧ s.on DSQ.CLAMP_AMBER ∧ g = 0 then 1 else g
  if flags.testBit 7 ∨ flags.testBit 8 then 2 else g

end Sys2Proof.Machine
end

