-- ==== Sys2Proof/Machine/Solve.lean ====
section
/-! DEFINITION. The arithmetic of a solve: dispatch iteration, pivot guard, final checks, state estimation (R115 to R127). -/

namespace Sys2Proof.Machine

/-- A vector of raw fixed-point values. -/
abbrev RVec := Array Int

/-- A matrix of raw fixed-point values. -/
abbrev RMat := Array RVec

/-- An element of a vector; one that is not there reads 0. -/
def vget (v : RVec) (i : Nat) : Int := v.getD i 0

/-- An element of a matrix. -/
def mget (a : RMat) (r c : Nat) : Int := vget (a.getD r #[]) c

/-- The sum of `f i` for i below `n`. -/
def sumTo (n : Nat) (f : Nat → Int) : Int := (List.range n).foldl (fun a i => a + f i) 0

/-! ### Counting (R116 to R119, R123) -/

/-- The saturations and pivot replacements of a phase: totals, and lists with the latest entry first. -/
structure Cnt where
  sats : Nat := 0
  satList : List (Nat × Nat × Nat × Nat) := []
  regs : Nat := 0
  regList : List (Nat × Nat × Nat × Int) := []
  deriving DecidableEq, Repr

/-- A computation that counts. -/
abbrev Slv := StateM Cnt

/-- Where a computation stands: phase, stage, iteration. -/
structure Ctx where
  ph : Nat
  t : Nat
  k : Nat
  deriving DecidableEq, Repr

/-- One saturation at an element. -/
def hit (c : Ctx) (el : Nat) : Slv Unit :=
  modify (fun x => { x with sats := x.sats + 1, satList := (c.ph, c.t, c.k, el) :: x.satList })

/-- The nearest bound of a range; a bound taken counts. -/
def bnd (c : Ctx) (el : Nat) (lo hi x : Int) : Slv Int := do
  if x < lo then hit c el; pure lo
  else if hi < x then hit c el; pure hi
  else pure x

/-- Largest value of the formats UQ15.16 and UQ7.24, and of a signed word. -/
def top31 : Int := 2 ^ 31 - 1

/-- Conversion from `F` to `f` fraction bits without its bound (R117). -/
def rescale (F f : Nat) (x : Int) : Int := if F < f then x * 2 ^ (f - F) else roundShift x (F - f)

/-- cvt into Q15.16 (R117). -/
def cvtS (c : Ctx) (el F : Nat) (x : Int) : Slv Int := bnd c el (-(2 ^ 31)) top31 (rescale F 16 x)

/-- cvt into UQ15.16 (R117). -/
def cvtU (c : Ctx) (el F : Nat) (x : Int) : Slv Int := bnd c el 0 top31 (rescale F 16 x)

/-- An assignment of R116 with `F` fraction bits into Q15.16: bounded once to 72 bits, converted once. -/
def assign (c : Ctx) (el F : Nat) (x : Int) : Slv Int := do
  cvtS c el F (← bnd c el (-(2 ^ 71)) (2 ^ 71 - 1) x)

/-- A finished sum times a factor, converted once: the sum is bounded to 72 bits, the product is exact and `F` counts its fraction bits (R116, R117, R123). -/
def scaled (c : Ctx) (el F : Nat) (x d : Int) : Slv Int := do
  cvtS c el F ((← bnd c el (-(2 ^ 71)) (2 ^ 71 - 1) x) * d)

/-- A division of the SVU into an unsigned target (R118); the caller has scaled the numerator. -/
def divU (c : Ctx) (el : Nat) (n d : Int) : Slv Int := do
  if d = 0 then hit c el; pure (if n < 0 then 0 else top31)
  else bnd c el 0 top31 (divRound n d)

/-- A division of the SVU into Q15.16 (R118). -/
def divS (c : Ctx) (el : Nat) (n d : Int) : Slv Int := do
  if d = 0 then hit c el; pure (if n < 0 then -(2 ^ 31) else top31)
  else bnd c el (-(2 ^ 31)) top31 (divRound n d)

/-- The square root of R118, rounded to nearest, into an unsigned 31-bit target; the caller has scaled the argument. -/
def sqrtU (c : Ctx) (el : Nat) (x : Int) : Slv Int :=
  let n := x.toNat
  let r := Nat.sqrt n
  bnd c el 0 top31 (if r * r + r < n then r + 1 else r)

/-- A vector computed element by element. -/
def vecM (n : Nat) (f : Nat → Slv Int) : Slv RVec := do
  let xs ← (List.range n).mapM f
  pure xs.toArray

/-- A matrix computed row by row. -/
def matM (r c : Nat) (f : Nat → Nat → Slv Int) : Slv RMat := do
  let xs ← (List.range r).mapM (fun i => vecM c (f i))
  pure xs.toArray

/-- Stages computed from N down to 0, as an array by stage. -/
def stagesDown {α : Type} (n : Nat) (f : Nat → Slv α) : Slv (Array α) := do
  let xs ← (List.range (n + 1)).reverse.mapM f
  pure xs.reverse.toArray

/-! ### The problem (R70, R79) -/

/-- The matrices of a stage class without padding: A, B, H, G. -/
structure ClassM where
  a : RMat := #[]
  b : RMat := #[]
  h : RMat := #[]
  g : RMat := #[]

/-- A dispatch or contingency problem, unpadded: the vectors hold the patched values. -/
structure Prob where
  n : Nat
  nx : Nat
  nu : Nat
  m : Nat
  cls : Array ClassM
  c : Array RVec
  h : Array RVec
  d : Array RVec
  rho : Array RVec
  x0 : RVec
  tau : Int
  vMax : Int
  mu0 : Int
  sigma : Int
  eta : Int
  resTol : Int
  fall : Int
  xMax : Int
  lMax : Int

/-- Variables of stage `t`. -/
def Prob.nz (p : Prob) (t : Nat) : Nat := if t = p.n then p.nx else p.nx + p.nu

/-- The matrices of stage `t`. -/
def Prob.cl (p : Prob) (t : Nat) : ClassM := p.cls.getD t {}

/-- A row is soft (R120). -/
def Prob.soft (p : Prob) (t i : Nat) : Bool := decide (0 < mget p.rho t i)

/-- npairs (R120). -/
def Prob.pairs (p : Prob) : Nat :=
  (p.n + 1) * p.m + ((List.range (p.n + 1)).map (fun t => ((List.range p.m).filter (p.soft t)).length)).sum

/-- A stage vector of an iterate. -/
def lget (x : List (List Int)) (t i : Nat) : Int := (x.getD t []).getD i 0

/-- √MU0 in Q15.16. -/
def sqrtMu0 (mu0 : Int) : Slv Int := sqrtU ⟨1, 0, 0⟩ 0 (mu0 * 2 ^ 16)

/-- The starting iterate of R120 and R121: `z` by stage, states then inputs; x₀ is x̂₀. -/
def Prob.start (p : Prob) (z : List (List Int)) : Slv Iterate := do
  let r ← sqrtMu0 p.mu0
  let row := fun (f : Nat → Int) => (List.range p.m).map f
  let st := fun (f : Nat → List Int) => (List.range (p.n + 1)).map f
  let softs := st (fun t => row (fun i => if p.soft t i then r else 0))
  pure { z := st (fun t => (List.range (p.nz t)).map (fun j => if t = 0 ∧ j < p.nx then vget p.x0 j else lget z t j)),
         pi := st (fun _ => List.replicate p.nx 0), y := st (fun _ => List.replicate p.m r),
         lam := st (fun _ => List.replicate p.m r), s := softs, nu := softs, mu := p.mu0 }

/-! ### Phase R (R120) -/

/-- What phase R forms at one stage. -/
structure StageR where
  re : RVec := #[]
  rz : RVec := #[]
  rin : RVec := #[]
  d : RVec := #[]
  rt : RVec := #[]
  rs : RVec := #[]
  phi : RMat := #[]
  g : RVec := #[]

/-- G z of a row. -/
def gz (p : Prob) (t i : Nat) (z : Nat → Int) : Int := sumTo (p.nz t) (fun j => mget (p.cl t).g i j * z j)

/-- The residuals of stage `t`. -/
def residuals (p : Prob) (it : Iterate) (ph k t : Nat) : Slv StageR := do
  let c : Ctx := ⟨ph, t, k⟩
  let z := lget it.z t
  let re ← vecM p.nx (fun i =>
    if t = 0 then assign c i 16 (vget p.x0 i - z i)
    else
      let q := p.cl (t - 1)
      let zp := lget it.z (t - 1)
      assign c i 44 (sumTo p.nx (fun j => mget q.a i j * zp j) + sumTo p.nu (fun j => mget q.b i j * zp (p.nx + j)) +
        2 ^ 28 * (mget p.c (t - 1) i - z i)))
  let q := p.cl t
  let nx1 := fun (a : RMat) (j : Nat) => if t < p.n then sumTo p.nx (fun i => mget a i j * lget it.pi (t + 1) i) else 0
  let rz ← vecM (p.nz t) (fun j =>
    assign c j 44 (sumTo (p.nz t) (fun i => mget q.h j i * z i) + sumTo p.m (fun i => mget q.g i j * lget it.lam t i) +
      2 ^ 28 * (mget p.h t j - (if j < p.nx then lget it.pi t j else 0)) +
      (if j < p.nx then nx1 q.a j else nx1 q.b (j - p.nx))))
  let rin ← vecM p.m (fun i =>
    assign c i 44 (gz p t i z + 2 ^ 28 * (lget it.y t i - mget p.d t i - lget it.s t i)))
  pure { re := re, rz := rz, rin := rin }

/-- Row quantities, Φ and g of stage `t`. -/
def assemble (p : Prob) (it : Iterate) (k t : Nat) (r : StageR) : Slv StageR := do
  let c : Ctx := ⟨2, t, k⟩
  let rows ← (List.range p.m).mapM (fun i => do
    let y := lget it.y t i
    let lam := lget it.lam t i
    let s := lget it.s t i
    let nu := lget it.nu t i
    let soft := p.soft t i
    let rs ← if soft then assign c i 16 (mget p.rho t i - lam - nu) else pure 0
    let th ← divU c i (y * 2 ^ 16) lam
    let ph ← if soft then divU c i (s * 2 ^ 16) nu else pure 0
    let d ← divU c i (2 ^ 32) (th + ph)
    let q1 ← divU c i (it.mu * 2 ^ 16) lam
    let corr ← if soft then do
        let q2 ← divU c i (it.mu * 2 ^ 16) nu
        pure (q2 - s - (← cvtS c i 32 (ph * rs)))
      else pure 0
    let rt ← assign c i 16 (vget r.rin i + q1 - y - corr)
    pure (d, rt, rs))
  let rows := rows.toArray
  let d := rows.map (·.1)
  let rt := rows.map (·.2.1)
  let nz := p.nz t
  let g := (p.cl t).g
  let dg ← matM p.m nz (fun i j => cvtS c (i * nz + j) 44 (vget d i * mget g i j))
  let low ← (List.range nz).mapM (fun a => vecM (a + 1) (fun b =>
    assign c (a * nz + b) 44 (2 ^ 16 * mget (p.cl t).h a b + sumTo p.m (fun i => mget g i a * mget dg i b))))
  let low := low.toArray
  let phi := (Array.range nz).map (fun a => (Array.range nz).map (fun b => mget low (max a b) (min a b)))
  let drt ← vecM p.m (fun i => cvtS c i 32 (vget d i * vget rt i))
  let gv ← vecM nz (fun j => assign c j 44 (2 ^ 28 * vget r.rz j + sumTo p.m (fun i => mget g i j * vget drt i)))
  pure { r with d := d, rt := rt, rs := rows.map (·.2.2), phi := phi, g := gv }

/-- Phase R. -/
def phaseR (p : Prob) (it : Iterate) (k : Nat) : Slv (Array StageR) :=
  stagesDown p.n (fun t => do assemble p it k t (← residuals p it 2 k t))

/-! ### The pivot guard and triangular solves (R123) -/

/-- chol_guarded of R123: the factor and the inverse diagonals. -/
def cholGuarded (c : Ctx) (n : Nat) (tau : Int) (rb : RMat) : Slv (RMat × RVec) := do
  let start : RMat × RVec := (Array.replicate n (Array.replicate n 0), Array.replicate n 0)
  (List.range n).foldlM (fun (x : RMat × RVec) (j : Nat) => do
    let l := x.1
    let pv ← bnd c (j * n + j) (-(2 ^ 71)) (2 ^ 71 - 1) (2 ^ 16 * mget rb j j - sumTo j (fun q => mget l j q ^ 2))
    let low := decide (pv < tau * 2 ^ 8)
    let _ ← if low then
        modify (fun (y : Cnt) => { y with regs := y.regs + 1, regList := (c.t, c.k, j, sat 32 (roundShift pv 16)) :: y.regList })
      else pure ()
    let pv := if low then tau * 2 ^ 8 else pv
    let ljj ← sqrtU c (j * n + j) (pv * 2 ^ 16)
    let inv ← divU c (j * n + j) (2 ^ 40) ljj
    let col ← vecM n (fun r =>
      if r < j then pure 0
      else if r = j then pure ljj
      else do
        scaled c (r * n + j) 48 (2 ^ 16 * mget rb r j - sumTo j (fun q => mget l r q * mget l j q)) inv)
    let l := (Array.range n).map (fun r => (l.getD r #[]).setIfInBounds j (vget col r))
    pure (l, x.2.setIfInBounds j inv)) start

/-- Forward substitution with the inverse diagonals, in Q15.16 (R115, R120). -/
def forward (c : Ctx) (n : Nat) (l : RMat) (inv : RVec) (x : Nat → Int) : Slv RVec :=
  (List.range n).foldlM (fun (w : RVec) (j : Nat) => do
    pure (w.push (← scaled c j 48 (2 ^ 16 * x j - sumTo j (fun q => mget l j q * vget w q)) (vget inv j)))) #[]

/-- Back substitution. -/
def backward (c : Ctx) (n : Nat) (l : RMat) (inv : RVec) (w : RVec) : Slv RVec := do
  let v ← (List.range n).reverse.foldlM (fun (v : RVec) (j : Nat) => do
    let y ← scaled c j 48 (2 ^ 16 * vget w j -
      sumTo (n - 1 - j) (fun q => mget l (j + 1 + q) j * vget v (j + 1 + q))) (vget inv j)
    pure (v.setIfInBounds j y)) (Array.replicate n 0)
  pure v

/-- −tsolve(L, x) of R120. -/
def negSolve (c : Ctx) (n : Nat) (l : RMat) (inv : RVec) (x : Nat → Int) : Slv RVec := do
  let v ← backward c n l inv (← forward c n l inv x)
  vecM n (fun j => assign c j 16 (-(vget v j)))

/-! ### Checksums (R133, R134) -/

/-- Element (`r`, `c`) of a tile. -/
def tileAt (t : List Int) (r c : Nat) : Int := t.getD (8 * r + c) 0

/-- The exact sum of the products of the operand tiles at element (`r`, `c`): what fault-free accumulators hold. -/
def tileProd (ops : List (List Int × List Int)) (r c : Nat) : Int :=
  (ops.map (fun o => sumTo 8 (fun k => tileAt o.1 r k * tileAt o.2 k c))).sum

/-- The row sum of row `r` from the checksum vectors of the second operands (R133). -/
def rowCheck (ops : List (List Int × List Int)) (r : Nat) : Int :=
  (ops.map (fun o => sumTo 8 (fun k => tileAt o.1 r k * sumTo 8 (fun c => tileAt o.2 k c)))).sum

/-- The column sum of column `c` from the checksum vectors of the first operands (R133). -/
def colCheck (ops : List (List Int × List Int)) (c : Nat) : Int :=
  (ops.map (fun o => sumTo 8 (fun k => sumTo 8 (fun r => tileAt o.1 r k) * tileAt o.2 k c))).sum

/-- Equality modulo 2⁶⁴. -/
def eq64 (a b : Int) : Bool := a % 2 ^ 64 == b % 2 ^ 64

/-- An output tile passes: the column and row sums of its accumulators, modulo 2⁶⁴, are those formed from the operands' checksum vectors (R133). -/
def tileOk (o : TileOut) : Bool :=
  (List.range 8).all (fun r => eq64 (sumTo 8 (fun c => tileAt o.acc r c)) (rowCheck o.ops r)) &&
  (List.range 8).all (fun c => eq64 (sumTo 8 (fun r => tileAt o.acc r c)) (colCheck o.ops c))

/-- An element of a factor with 24 fraction bits: the diagonal is UQ7.24, the rest Q15.16 (R115). -/
def fac24 (l : RMat) (r c : Nat) : Int := if r = c then mget l r c else if c < r then 2 ^ 8 * mget l r c else 0

/-- The row sum of row `r` of the guarded matrix, with 32 fraction bits: a pivot that the guard replaces takes its replacement value, so that the diagonal element is the one that gives that pivot (R123, R134). `a` is the lower triangle of the matrix, `l` its factor, `sg` the signs of the pivots. -/
def guardedRow (n : Nat) (tau : Int) (sg : Nat → Int) (a l : RMat) (r : Nat) : Int :=
  let below := sumTo r (fun q => sg q * mget l r q ^ 2)
  let low := decide (sg r * (2 ^ 16 * mget a r r - below) < tau * 2 ^ 8)
  sumTo n (fun c => if c = r then (if low then sg r * tau * 2 ^ 8 + below else 2 ^ 16 * mget a r r)
    else 2 ^ 16 * mget a (max r c) (min r c))

/-- The check of R134 on a returned factor: L diag(sgn) w with w = Lᵀ1 against the row sums of the guarded matrix; row r, counted from 0 as in R123, passes within 4(r + 2) units of the last place of Q15.16. -/
def factorOk (n : Nat) (tau : Int) (sg : Nat → Int) (a l ret : RMat) : Bool :=
  let w := fun (c : Nat) => sumTo n (fun r => fac24 ret r c)
  (List.range n).all (fun r =>
    decide (|sumTo n (fun c => fac24 ret r c * (sg c * w c)) - 2 ^ 16 * guardedRow n tau sg a l r| ≤ 4 * ((r : Int) + 2) * 2 ^ 32))

/-! ### Phases F and S (R120, R122) -/

/-- What phase F forms at one stage; `rb` and `l` are R̄ and its guarded factor. -/
structure StageF where
  rb : RMat := #[]
  l : RMat := #[]
  p : RMat := #[]
  pv : RVec := #[]
  k : RMat := #[]
  kk : RVec := #[]

/-- One stage of the backward recursion. -/
def backStage (p : Prob) (k t : Nat) (r r1 : StageR) (f1 : StageF) : Slv StageF := do
  let c : Ctx := ⟨3, t, k⟩
  let nx := p.nx
  let nu := p.nu
  let a := (p.cl t).a
  let b := (p.cl t).b
  let w ← matM nx nx (fun i j => assign c (i * nx + j) 44 (sumTo nx (fun q => mget f1.p i q * mget a q j)))
  let v ← matM nx nu (fun i j => assign c (i * nu + j) 44 (sumTo nx (fun q => mget f1.p i q * mget b q j)))
  let rb ← matM nu nu (fun i j => assign c (i * nu + j) 44
    (2 ^ 28 * mget r.phi (nx + i) (nx + j) + sumTo nx (fun q => mget b q i * mget v q j)))
  let y ← matM nu nx (fun i j => assign c (i * nx + j) 44
    (2 ^ 28 * mget r.phi (nx + i) j + sumTo nx (fun q => mget b q i * mget w q j)))
  let q ← vecM nx (fun i => assign c i 32 (sumTo nx (fun j => mget f1.p i j * vget r1.re j) + 2 ^ 16 * vget f1.pv i))
  let (l, inv) ← cholGuarded c nu p.tau rb
  let cols ← (List.range nx).mapM (fun j => negSolve c nu l inv (fun i => mget y i j))
  let cols := cols.toArray
  let kM := (Array.range nu).map (fun i => (Array.range nx).map (fun j => mget cols j i))
  let bv ← vecM nu (fun i => assign c i 44 (2 ^ 28 * vget r.g (nx + i) + sumTo nx (fun j => mget b j i * vget q j)))
  let kk ← negSolve c nu l inv (vget bv)
  let low ← (List.range nx).mapM (fun i => vecM (i + 1) (fun j => assign c (i * nx + j) 44
    (2 ^ 28 * mget r.phi i j + sumTo nx (fun s => mget a s i * mget w s j) +
      2 ^ 12 * sumTo nu (fun s => mget y s i * mget kM s j))))
  let low := low.toArray
  let pM := (Array.range nx).map (fun i => (Array.range nx).map (fun j => mget low (max i j) (min i j)))
  let pv ← vecM nx (fun i => assign c i 44 (2 ^ 28 * vget r.g i + sumTo nx (fun s => mget a s i * vget q s) +
    2 ^ 12 * sumTo nu (fun s => mget y s i * vget kk s)))
  pure { rb := rb, l := l, p := pM, pv := pv, k := kM, kk := kk }

/-- Phase F: the stages by number. -/
def phaseF (p : Prob) (rs : Array StageR) (k : Nat) : Slv (Array StageF) := do
  let rN := rs.getD p.n {}
  let xs ← (List.range p.n).reverse.foldlM (fun (fs : List StageF) (t : Nat) => do
    let f ← backStage p k t (rs.getD t {}) (rs.getD (t + 1) {}) (fs.headD {})
    pure (f :: fs)) [{ p := rN.phi, pv := rN.g }]
  pure xs.toArray

/-- The steps of a row: Δλ, Δν, Δs, Δy (R120). -/
def rowStep (p : Prob) (it : Iterate) (c : Ctx) (r : StageR) (dz : Nat → Int) (i : Nat) : Slv (Int × Int × Int × Int) := do
  let t := c.t
  let gd := gz p t i dz
  let dlam ← scaled c i 60 (gd + 2 ^ 28 * vget r.rt i) (vget r.d i)
  let s := lget it.s t i
  let nu := lget it.nu t i
  let rs := vget r.rs i
  let (dnu, ds) ← if p.soft t i then do
      let dnu ← assign c i 16 (rs - dlam)
      let ds ← divS c i (2 ^ 16 * it.mu - s * nu - s * rs + s * dlam) nu
      pure (dnu, ds)
    else pure (0, 0)
  let dy ← assign c i 44 (2 ^ 28 * (ds - vget r.rin i) - gd)
  pure (dlam, dnu, ds, dy)

/-- gap of R120. -/
def gapOf (p : Prob) (it : Iterate) (c : Ctx) : Slv Int :=
  let tot := sumTo (p.n + 1) (fun t => sumTo p.m (fun i => lget it.y t i * lget it.lam t i + lget it.s t i * lget it.nu t i))
  if p.pairs = 0 then pure 0 else divU c 0 tot (2 ^ 16 * (p.pairs : Int))

/-- A clamp to a declared bound (R119, R122). -/
def clampTo (c : Ctx) (el : Nat) (lim x : Int) : Slv Int := bnd c el (-lim) lim x

/-- The floor of a positive variable (R122). -/
def floorOf (c : Ctx) (el : Nat) (x : Int) : Slv Int := do
  if x ≤ 0 then hit c el; pure 1
  else pure x

/-- The forward pass: Δx, Δu as one vector per stage, and Δπ (R120). -/
def forwardPass (p : Prob) (rs : Array StageR) (fs : Array StageF) (k : Nat) : Slv (List (RVec × RVec)) := do
  let r := (List.range (p.n + 1)).foldlM (fun (x : RVec × List (RVec × RVec)) (t : Nat) => do
    let c : Ctx := ⟨4, t, k⟩
    let dx := x.1
    let f := fs.getD t {}
    let du ← if t < p.n then vecM p.nu (fun i => assign c i 32 (sumTo p.nx (fun j => mget f.k i j * vget dx j) + 2 ^ 16 * vget f.kk i))
      else pure #[]
    let dpi ← vecM p.nx (fun i => assign c i 32 (sumTo p.nx (fun j => mget f.p i j * vget dx j) + 2 ^ 16 * vget f.pv i))
    let q := p.cl t
    let nxt ← if t < p.n then vecM p.nx (fun i => assign c i 44
        (sumTo p.nx (fun j => mget q.a i j * vget dx j) + sumTo p.nu (fun j => mget q.b i j * vget du j) +
          2 ^ 28 * vget (rs.getD (t + 1) {}).re i))
      else pure #[]
    pure (nxt, x.2 ++ [(dx ++ du, dpi)])) ((rs.getD 0 {}).re, [])
  pure (← r).2

/-- Phase S: steps, step length, update, clamps and floors, gap and μ (R120, R122). -/
def phaseS (p : Prob) (it : Iterate) (rs : Array StageR) (fs : Array StageF) (k : Nat) : Slv Iterate := do
  let dir ← forwardPass p rs fs k
  let dz := fun (t : Nat) => (dir.getD t (#[], #[])).1
  let dpi := fun (t : Nat) => (dir.getD t (#[], #[])).2
  let steps ← (List.range (p.n + 1)).mapM (fun t => (List.range p.m).mapM
    (fun i => rowStep p it ⟨4, t, k⟩ (rs.getD t {}) (vget (dz t)) i))
  let step := fun (t i : Nat) => (steps.getD t []).getD i (0, 0, 0, 0)
  let ratios ← (List.range (p.n + 1)).mapM (fun t => (List.range p.m).mapM (fun i => do
    let (dl, dn, ds, dy) := step t i
    let ps := [(lget it.y t i, dy), (lget it.lam t i, dl)] ++
      (if p.soft t i then [(lget it.s t i, ds), (lget it.nu t i, dn)] else [])
    (ps.filter (fun q => decide (q.2 < 0))).mapM (fun q => divU ⟨4, t, k⟩ i (2 ^ 16 * q.1) (-q.2))))
  let alpha := match ratios.flatten.flatten with
    | [] => 2 ^ 31
    | x :: xs => rescale 47 31 (min (2 ^ 47) (p.eta * xs.foldl min x))
  let upd := fun (c : Ctx) (el : Nat) (v d : Int) => assign c el 47 (2 ^ 31 * v + alpha * d)
  let nw ← (List.range (p.n + 1)).mapM (fun t => do
    let c : Ctx := ⟨4, t, k⟩
    let z ← (List.range (p.nz t)).mapM (fun j => do clampTo c j p.xMax (← upd c j (lget it.z t j) (vget (dz t) j)))
    let pi ← (List.range p.nx).mapM (fun j => do clampTo c j p.lMax (← upd c j (lget it.pi t j) (vget (dpi t) j)))
    let rows ← (List.range p.m).mapM (fun i => do
      let (dl, dn, ds, dy) := step t i
      let y ← floorOf c i (← upd c i (lget it.y t i) dy)
      let l ← floorOf c i (← clampTo c i p.lMax (← upd c i (lget it.lam t i) dl))
      if p.soft t i then
        let s ← floorOf c i (← upd c i (lget it.s t i) ds)
        let n ← floorOf c i (← clampTo c i p.lMax (← upd c i (lget it.nu t i) dn))
        pure (y, l, s, n)
      else pure (y, l, (0 : Int), (0 : Int)))
    pure (z, pi, rows))
  let row := fun (f : Int × Int × Int × Int → Int) => nw.map (fun x => x.2.2.map f)
  let it' : Iterate := {
    z := nw.map (fun q => q.1), pi := nw.map (fun q => q.2.1), y := row (·.1), lam := row (·.2.1),
    s := row (·.2.2.1), nu := row (·.2.2.2) }
  let c : Ctx := ⟨4, 0, k⟩
  let gap ← gapOf p it' c
  let mu ← cvtU c 0 47 (p.sigma * gap)
  pure { it' with gap := gap, mu := max mu (p.resTol / 16) }

/-- One iteration: the counts of its three phases and the iterate that it leaves (R120). -/
def iteration (p : Prob) (it : Iterate) (k : Nat) : Cnt × Cnt × Cnt × Iterate :=
  let (rs, cr) := phaseR p it k {}
  let (fs, cf) := phaseF p rs k {}
  let (it', cs) := phaseS p it rs fs k {}
  (cr, cf, cs, it')

/-! ### Final checks (R124, R125) -/

/-- What the final checks find. -/
structure FinalX where
  rPrim : Int := 0
  rDual : Int := 0
  gap : Int := 0
  sTot : Int := 0
  j : Int := 0
  deriving DecidableEq, Repr

/-- The greatest magnitude of a list. -/
def maxAbs (xs : List Int) : Int := xs.foldl (fun a x => max a |x|) 0

/-- r_prim of R124 from the residuals of every stage. -/
def rPrimOf (p : Prob) (it : Iterate) (c : Ctx) (rs : Array StageR) : Slv Int := do
  let eq ← bnd c 0 0 top31 (maxAbs (rs.toList.flatMap (fun r => r.re.toList)))
  let viol := (List.range (p.n + 1)).foldl (fun (a : Int) (t : Nat) => (List.range p.m).foldl (fun (a : Int) (i : Nat) =>
    max a (gz p t i (lget it.z t) - 2 ^ 28 * (mget p.d t i + lget it.s t i))) a) 0
  pure (max eq (← cvtU c 0 44 viol))

/-- r_prim of the starting point, as phase R of iteration 1 evaluates it, with the bounds that its own conversions take (R117, R125); the saturations of the residuals are those that phase R has counted. -/
def rPrimStart (p : Prob) (it : Iterate) : Int × Cnt :=
  let rs := (stagesDown p.n (fun t => residuals p it 2 1 t) {}).1
  rPrimOf p it ⟨2, 0, 1⟩ rs {}

/-- Two counts of one phase, the first taken before the second. -/
def Cnt.join (a b : Cnt) : Cnt :=
  { sats := a.sats + b.sats, satList := b.satList ++ a.satList, regs := a.regs + b.regs, regList := b.regList ++ a.regList }

/-- The final-check phase (R124). -/
def finalChecks (p : Prob) (it : Iterate) (k : Nat) : Slv FinalX := do
  let c : Ctx := ⟨5, 0, k⟩
  let rs ← stagesDown p.n (fun t => residuals p it 5 k t)
  let rp ← rPrimOf p it c rs
  let stages := List.range (p.n + 1)
  let softRows := stages.flatMap (fun t => ((List.range p.m).filter (p.soft t)).map (fun i => (t, i)))
  let dual := maxAbs (rs.toList.flatMap (fun r => r.rz.toList) ++
    softRows.map (fun q => mget p.rho q.1 q.2 - lget it.lam q.1 q.2 - lget it.nu q.1 q.2))
  let rd ← bnd c 0 0 top31 dual
  let gap ← gapOf p it c
  let st ← bnd c 0 0 top31 ((softRows.map (fun q => lget it.s q.1 q.2)).foldl (· + ·) 0)
  let zhz := sumTo (p.n + 1) (fun t => sumTo (p.nz t) (fun i => lget it.z t i *
    sumTo (p.nz t) (fun j => mget (p.cl t).h i j * lget it.z t j)))
  let lin := sumTo (p.n + 1) (fun t => sumTo (p.nz t) (fun i => mget p.h t i * lget it.z t i)) +
    (softRows.map (fun q => mget p.rho q.1 q.2 * lget it.s q.1 q.2)).foldl (· + ·) 0
  let j ← bnd c 0 (-(2 ^ 63)) (2 ^ 63 - 1) (roundShift (zhz + 2 ^ 29 * lin) 45)
  pure { rPrim := rp, rDual := rd, gap := gap, sTot := st, j := j }

/-! ### State estimation (R126, R127) -/

/-- A state-estimation problem, unpadded. -/
structure SeProb where
  nv : Nat
  p : Nat
  q : Nat
  m : RMat
  e : RMat
  w : RVec
  z : RVec
  rhs : RVec
  tau : Int
  resTol : Int
  chi : Int

/-- cvt(w × (M v − z)) of a measurement (R126). -/
def SeProb.weighted (s : SeProb) (c : Ctx) (v : Nat → Int) (i : Nat) : Slv Int :=
  scaled c i 60 (sumTo s.nv (fun j => mget s.m i j * v j) - 2 ^ 28 * vget s.z i) (vget s.w i)

/-- K_k of R126, in Q15.16. -/
def SeProb.matrix (s : SeProb) : Slv RMat := do
  let c : Ctx := ⟨3, 0, 0⟩
  let n := s.nv + s.q
  let wm ← matM s.p s.nv (fun i j => cvtS c (i * s.nv + j) 44 (vget s.w i * mget s.m i j))
  matM n n (fun r k =>
    if r < s.nv ∧ k < s.nv then assign c (r * n + k) 44 (sumTo s.p (fun i => mget s.m i r * mget wm i k))
    else if s.nv ≤ r ∧ k < s.nv then assign c (r * n + k) 28 (mget s.e (r - s.nv) k)
    else if r < s.nv then assign c (r * n + k) 28 (mget s.e (k - s.nv) r)
    else pure 0)

/-- sgn of a column (R126). -/
def SeProb.sgnAt (s : SeProb) (j : Nat) : Int := if j < s.nv then 1 else -1

/-- The guarded factor L diag(sgn) Lᵀ of R126. -/
def SeProb.factor (s : SeProb) (kk : RMat) : Slv (RMat × RVec) := do
  let n := s.nv + s.q
  let c : Ctx := ⟨3, 0, 0⟩
  let start : RMat × RVec := (Array.replicate n (Array.replicate n 0), Array.replicate n 0)
  (List.range n).foldlM (fun (x : RMat × RVec) (j : Nat) => do
    let l := x.1
    let g := s.sgnAt j
    let pv ← bnd c (j * n + j) (-(2 ^ 71)) (2 ^ 71 - 1)
      (2 ^ 16 * mget kk j j - sumTo j (fun q => s.sgnAt q * mget l j q ^ 2))
    let low := decide (g * pv < s.tau * 2 ^ 8)
    let _ ← if low then
        modify (fun (y : Cnt) => { y with regs := y.regs + 1, regList := (0, 0, j, sat 32 (roundShift pv 16)) :: y.regList })
      else pure ()
    let mag := if low then s.tau * 2 ^ 8 else g * pv
    let ljj ← sqrtU c (j * n + j) (mag * 2 ^ 16)
    let inv ← divU c (j * n + j) (2 ^ 40) ljj
    let col ← vecM n (fun r =>
      if r < j then pure 0
      else if r = j then pure ljj
      else scaled c (r * n + j) 48
        (2 ^ 16 * mget kk r j - sumTo j (fun q => s.sgnAt q * mget l r q * mget l j q)) (g * inv))
    let l := (Array.range n).map (fun r => (l.getD r #[]).setIfInBounds j (vget col r))
    pure (l, x.2.setIfInBounds j inv)) start

/-- The form phase: the factor and the inverse diagonals. -/
def SeProb.form (s : SeProb) : Slv (RMat × RVec) := do s.factor (← s.matrix)

/-- One refinement: the residuals of phase R. -/
def SeProb.resid (s : SeProb) (k : Nat) (v zeta : Nat → Int) : Slv (RVec × RVec) := do
  let c : Ctx := ⟨2, 0, k⟩
  let wr ← vecM s.p (s.weighted c v)
  let rv ← vecM s.nv (fun j => assign c j 44 (sumTo s.p (fun i => mget s.m i j * vget wr i) +
    sumTo s.q (fun i => mget s.e i j * zeta i)))
  let re ← vecM s.q (fun i => assign c i 44 (sumTo s.nv (fun j => mget s.e i j * v j) - 2 ^ 28 * vget s.rhs i))
  pure (rv, re)

/-- One refinement: the step and the update. -/
def SeProb.refine (s : SeProb) (k : Nat) (f : RMat × RVec) (r : RVec × RVec) (v zeta : List Int) : Slv (List Int × List Int) := do
  let c : Ctx := ⟨4, 0, k⟩
  let n := s.nv + s.q
  let w ← forward c n f.1 f.2 (fun i => if i < s.nv then vget r.1 i else vget r.2 (i - s.nv))
  let w ← vecM n (fun i => assign c i 16 (s.sgnAt i * vget w i))
  let x ← backward c n f.1 f.2 w
  let d ← vecM n (fun i => assign c i 16 (-(vget x i)))
  let v' ← (List.range s.nv).mapM (fun i => assign c i 16 (v.getD i 0 + vget d i))
  let z' ← (List.range s.q).mapM (fun i => assign c i 16 (zeta.getD i 0 + vget d (s.nv + i)))
  pure (v', z')

/-- The check of R134 on a returned factor of the state estimation. -/
def SeProb.factorOk (s : SeProb) (ret : RMat) : Bool :=
  let kk := (s.matrix {}).1
  Machine.factorOk (s.nv + s.q) s.tau s.sgnAt kk (s.factor kk {}).1.1 ret

/-- The check of R134 on a returned factor of stage `t` in iteration `k`. -/
def Prob.factorOk (p : Prob) (it : Iterate) (k t : Nat) (ret : RMat) : Bool :=
  let f := (phaseF p (phaseR p it k {}).1 k {}).1.getD t {}
  Machine.factorOk p.nu p.tau (fun _ => 1) f.rb f.l ret

/-- One refinement of the state estimation: the counts of the form phase, of its two phases, and what it leaves (R126). An iterate holds v in `z` and ζ in `pi`. -/
def SeProb.iteration (s : SeProb) (it : Iterate) (k : Nat) : Cnt × Cnt × Cnt × Iterate :=
  let (f, cf) := s.form {}
  let v := it.z.headD []
  let ze := it.pi.headD []
  let (r, cr) := s.resid k (fun i => v.getD i 0) (fun i => ze.getD i 0) {}
  let (o, cs) := s.refine k f r v ze {}
  (cf, cr, cs, { it with z := [o.1], pi := [o.2] })

/-- The final check of the state estimation: req and χ (R126, R127). M v − z is exact, and χ is converted once. -/
def SeProb.final (s : SeProb) (it : Iterate) (k : Nat) : Slv (Int × Int) := do
  let c : Ctx := ⟨5, 0, k⟩
  let v := fun (i : Nat) => (it.z.headD []).getD i 0
  let chi ← cvtU c 0 104 (sumTo s.p (fun i => vget s.w i * (sumTo s.nv (fun j => mget s.m i j * v j) - 2 ^ 28 * vget s.z i) ^ 2))
  let re ← vecM s.q (fun i => assign c i 44 (sumTo s.nv (fun j => mget s.e i j * v j) - 2 ^ 28 * vget s.rhs i))
  pure (← bnd c 0 0 top31 (maxAbs re.toList), chi)

end Sys2Proof.Machine
end

