-- ==== Sys2Proof/Machine/Dsq.lean ====
section
/-! DEFINITION. The solver sequencer: sets, snapshots, windows, blocks, lanes, deadlines, results (R69 to R148). -/

namespace Sys2Proof.Machine

/-- Change the sequencer record. -/
def State.setDsq (s : State) (f : DsqX → DsqX) : State := { s with dsq := f s.dsq }

/-- The DSQ page. -/
def dsqPage : Page := ⟨16, 0⟩

/-! ### Slots (R103, R108) -/

/-- What DSQ holds of a slot. -/
def State.slotX (s : State) : Slot → SlotX
  | .a => s.dsq.slotA
  | .b => s.dsq.slotB

/-- Replace what DSQ holds of a slot. -/
def State.setSlot (s : State) (k : Slot) (x : SlotX) : State :=
  match k with
  | .a => s.setDsq (fun d => { d with slotA := x })
  | .b => s.setDsq (fun d => { d with slotB := x })

/-- The other slot. -/
def otherSlot : Slot → Slot
  | .a => .b
  | .b => .a

/-- The region of a slot: base and size. -/
def State.slotRegion (s : State) : Slot → Nat × Nat
  | .a => (s.r DSQ.SET_A_BASE, s.r DSQ.SET_A_SIZE)
  | .b => (s.r DSQ.SET_B_BASE, s.r DSQ.SET_B_SIZE)

/-- The slot of ACTIVE_SLOT. -/
def State.activeSlot (s : State) : Slot := if s.on DSQ.ACTIVE_SLOT then .b else .a

/-- A slot holds the active set. -/
def State.isActive (s : State) (k : Slot) : Bool := s.on DSQ.ACTIVE_VALID && s.activeSlot == k

/-- The code of a slot state. -/
def SlotState.code : SlotState → Nat
  | .empty => 0
  | .checking => 1
  | .checked => 2
  | .armed => 3

/-- STBY_STATE follows the slots (R108). -/
def State.showStby (s : State) : State :=
  let k := if s.on DSQ.ACTIVE_VALID then (if s.on DSQ.ACTIVE_SLOT then Slot.a else Slot.b) else if s.dsq.named then .b else .a
  s.w DSQ.STBY_STATE (s.slotX k).st.code

/-- A slot takes a state. -/
def State.slotTo (s : State) (k : Slot) (st : SlotState) : State :=
  (s.setSlot k { s.slotX k with st := st }).showStby

/-- SET_INVALIDATED is raised (R103); its raw condition stands until a check takes a slot out of EMPTY (assumption 128). -/
def State.setInvalidated (s : State) : State := s.recur 16 0 3

/-- A standby slot returns to EMPTY by a write (R103). -/
def State.invalidate (s : State) (k : Slot) : State :=
  if (s.slotX k).st = .empty then s else (s.slotTo k .empty).setInvalidated

/-- The bytes of a slot. -/
def State.slotBlob (s : State) (k : Slot) : Blob :=
  let (base, size) := s.slotRegion k
  blobOf s.solver base size

/-- The bytes of the active set. -/
def State.setBlob (s : State) : Blob := s.slotBlob s.activeSlot

/-- The predicted times of the active set (R129); with no lane in service PRED_SE and PRED_DISP read 0xFFFF_FFFF whatever is active. -/
def State.predict (s : State) : State :=
  let l := s.r DSQ.ACTIVE
  let none_ := if l = 0 then 0xFFFFFFFF else 0
  if s.on DSQ.ACTIVE_VALID then
    let b := s.setBlob
    let s := (s.w DSQ.PRED_SE (if b.seOff = 0 then none_ else b.predicted l 1)).w DSQ.PRED_DISP (b.predicted l 2)
    s.forN 8 (fun s j => s.w DSQ.PRED_CONT (if j < b.contCount then b.predicted l (3 + j) else 0) 0 j)
  else ((s.w DSQ.PRED_SE none_).w DSQ.PRED_DISP none_).forN 8 (fun s j => s.w DSQ.PRED_CONT 0 0 j)

/-- No set is active any more, and with it no result of the active set (R146); its slot becomes a standby slot in state EMPTY. -/
def State.dropActive (s : State) : State :=
  let k := s.activeSlot
  let s := (((s.wb DSQ.ACTIVE_VALID false).w DSQ.ACTIVE_SET_ID 0).w DSQ.RES_VALID 0).slotTo k .empty
  s.predict

/-! ### Host writes to the SRAMs (R69, R76, R103) -/

/-- An address lies in a region. -/
def inRegion (r : Nat × Nat) (a : Nat) : Bool := decide (r.1 ≤ a) && decide (a < r.1 + r.2)

/-- The enabled bytes of a 64-bit word at an address. -/
def laneBytes (a : Nat) (be : BitVec 8) (v : BitVec 64) : List (Nat × BitVec 8) :=
  ((List.range 8).filter (fun i => be.getLsbD i)).map (fun i => (a + i, BitVec.ofNat 8 (v.toNat / 256 ^ i)))

/-- Write bytes of solver SRAM, by address. -/
def State.solBytes (s : State) (bs : List (Nat × BitVec 8)) : State :=
  { s with
    solver := bs.foldl (fun m b => sset 0 m b.1 b.2) s.solver,
    pwr := { s.pwr with poison := s.pwr.poison.filter (fun a => bs.all (fun b => decide (b.1 < a) || decide (a + 8 ≤ b.1))) } }

/-- A host write inside RESULT clears the RES_VALID bit of each descriptor whose slot it touches (R76). Without an active set no RES_VALID bit is set, and no set says where the slots lie. -/
def State.touchResult (s : State) (a : Nat) : State :=
  if !s.on DSQ.ACTIVE_VALID then s.w DSQ.RES_VALID 0
  else
    let b := s.setBlob
    let off := a - s.r DSQ.RESULT_BASE
    let size := fun (d : Nat) => if d = 0 then b.slotSizes.1 else b.slotSizes.2
    (List.range (2 + b.contCount)).foldl (fun (s : State) (d : Nat) =>
      if decide (b.resultSlot d 0 < off + 8) && decide (off < b.resultSlot d 0 + 2 * size d) then
        s.w DSQ.RES_VALID (putBit (s.r DSQ.RES_VALID) d false)
      else s) s

/-- One 64-bit word of a host write to solver SRAM, from the owner's port (R76, R103). -/
def State.hostWord (s : State) (a : Nat) (be : BitVec 8) (v : BitVec 64) : State :=
  let put := fun (s : State) => s.solBytes (laneBytes a be v)
  let en := s.enabled 16
  let work := inRegion (s.r DSQ.WORK_BASE, s.r DSQ.WORK_SIZE) a
  let res := inRegion (s.r DSQ.RESULT_BASE, s.r DSQ.RESULT_SIZE) a
  let inA := inRegion (s.slotRegion .a) a
  let inB := inRegion (s.slotRegion .b) a
  let act := (inA && s.isActive .a) || (inB && s.isActive .b)
  if a < 0x40200000 ∨ (en ∧ (act ∨ work ∨ res)) then s.inc DSQ.REFUSED_WR
  else if s.r DSQ.SOLVER_CAP ≤ a then s.unmapped a
  else
    let s := put s
    let s := if inA && !s.isActive .a then s.invalidate .a else s
    let s := if inB && !s.isActive .b then s.invalidate .b else s
    let s := if act then s.dropActive.setInvalidated else s
    if res then s.touchResult a else s

/-- R69, R76: a host port writes 64-bit words, each with its byte enables, to solver or general SRAM. Where the SRAM's island is gated, each 64-bit word is one access and its own address is recorded: R18 and GATED_ADDR speak of a page address alone, DESIGN CHOICE (assumption 161). -/
def execSolverSramHostWrite (t : Nat) (p : Fin 2) (addr : BitVec 32) (words : List (BitVec 8 × BitVec 64)) (s : State) :
    Host.Outcome State Fault Refusal :=
  s.cmdM t fun s =>
    (words.zipIdx).foldl (fun (s : State) (x : (BitVec 8 × BitVec 64) × Nat) =>
      let a := addr.toNat / 8 * 8 + 8 * x.2
      if inRegion (0x40000000, 0x4000000) a then
        if !s.islandOn .solve then s.gated a
        else if s.h HDR.OWNER dsqPage ≠ ownerCode (.host p) then s.hinc HDR.OWNER_VIOL dsqPage
        else s.hostWord a x.1.1 x.1.2
      else if inRegion (0x48000000, 0x1000000) a then
        if !s.islandOn .host then s.gated a
        else { s with general := (laneBytes a x.1.1 x.1.2).foldl (fun m b => sset 0 m b.1 b.2) s.general }
      else s.unmapped a) s

/-! ### Set commands (R103, R104, R109) -/

/-- The region registers, in the order of their offsets. -/
def regionFld (i : Nat) : Fld :=
  match i with
  | 0 => DSQ.SET_A_BASE
  | 1 => DSQ.SET_A_SIZE
  | 2 => DSQ.SET_B_BASE
  | 3 => DSQ.SET_B_SIZE
  | 4 => DSQ.WORK_BASE
  | 5 => DSQ.WORK_SIZE
  | 6 => DSQ.RESULT_BASE
  | _ => DSQ.RESULT_SIZE

/-- A write of a region register (R103, R109). While ENABLE = 1 a write that R109 refuses counts in REFUSED_WR whether the lock is open or not. A change of the active slot's own region while ENABLE = 0 ends that set's active role with SET_INVALIDATED, as R103 says of a write inside the slot, DESIGN CHOICE (assumption 128). -/
def State.regionWrite (s : State) (i : Nat) (v : Nat) : State :=
  let f := regionFld i
  let k := if i < 2 then some Slot.a else if i < 4 then some Slot.b else none
  let act := match k with
    | some k => s.isActive k
    | none => true
  let shut := !s.lockOpen dsqPage
  let s := s.lockViol dsqPage (shut && s.r f != v)
  if s.enabled 16 && act then s.inc DSQ.REFUSED_WR
  else if shut then s
  else
    let was := s.r f
    let s := s.take f v 0 0
    match k with
    | some k =>
      if s.r f = was then s
      else if act then s.dropActive.setInvalidated
      else s.invalidate k
    | none => s

/-- R109: a write of a region register. -/
def execSetRegionWrite (t : Nat) (r : Requester) (reg : Fin 8) (v : Word) (s : State) : Host.Outcome State Fault Refusal :=
  s.cmdK t fun s => s.pageWrite r dsqPage true fun s => s.regionWrite reg v.toNat

/-- A write of SET_CMD names its slot (R108). -/
def State.nameSlot (s : State) (k : Slot) : State := (s.setDsq (fun d => { d with named := k == .b })).showStby

/-- A slot command: `ok` says in which states it applies, `next` what it makes of the slot (R103). -/
def State.slotCmd (s : State) (k : Slot) (ok : SlotState → Bool) (next : SlotState) : State :=
  let s := s.nameSlot k
  if s.isActive k || !ok (s.slotX k).st then s.inc DSQ.REFUSED_WR else s.slotTo k next

/-- SET_CMD = CHECK: a check starts, and the conditions that a check ends no longer hold: of SET_CHECKED, SET_REFUSED and SET_INVALIDATED (assumption 128). -/
def State.startCheck (s : State) (k : Slot) : State :=
  let s := if s.isActive k then s else ((s.setRaw 16 0 0 false).setRaw 16 0 1 false).setRaw 16 0 3 false
  s.slotCmd k (fun _ => true) .checking

/-- R103: SET_CMD = CHECK. -/
def execSetCheck (t : Nat) (r : Requester) (slot : Slot) (s : State) : Host.Outcome State Fault Refusal :=
  s.cmdK t fun s => s.pageWrite r dsqPage true fun s => s.startCheck slot

/-- R103: SET_CMD = ARM; the other slot returns to CHECKED if it was ARMED. -/
def State.arm (s : State) (k : Slot) : State :=
  let s := if (s.slotX k).st = .checked ∧ !s.isActive k ∧ (s.slotX (otherSlot k)).st = .armed then s.slotTo (otherSlot k) .checked else s
  s.slotCmd k (· == .checked) .armed

/-- R103, R104: SET_CMD = ARM. -/
def execSetArm (t : Nat) (r : Requester) (slot : Slot) (s : State) : Host.Outcome State Fault Refusal :=
  s.cmdK t fun s => s.pageWrite r dsqPage true fun s => s.arm slot

/-- R103: SET_CMD = DISARM. -/
def execSetDisarm (t : Nat) (r : Requester) (slot : Slot) (s : State) : Host.Outcome State Fault Refusal :=
  s.cmdK t fun s => s.pageWrite r dsqPage true fun s => s.slotCmd slot (· == .armed) .checked

/-- R103: SET_CMD = CLEAR. -/
def execSetClear (t : Nat) (r : Requester) (slot : Slot) (s : State) : Host.Outcome State Fault Refusal :=
  s.cmdK t fun s => s.pageWrite r dsqPage true fun s => s.slotCmd slot (fun _ => true) .empty

/-- R108: SET_CMD = NONE only names a slot. -/
def execSetCmdNone (t : Nat) (r : Requester) (slot : Slot) (s : State) : Host.Outcome State Fault Refusal :=
  s.cmdK t fun s => s.pageWrite r dsqPage true fun s => s.nameSlot slot

/-- The signature test of a set (R105, R502, R503, R505). -/
def State.setSigned (s : State) (k : Slot) (b : Blob) : Bool :=
  if !s.policy 0 then true
  else
    let (base, size) := s.slotRegion k
    let n := b.setSize
    let off := up256 n
    let blob := blobOf s.solver base size
    let rest := (List.range (size - off)).map (fun i => blob.getD (off + i) 0)
    let fits := decide (off + blkSize rest ≤ size)
    s.vfyCause 3 ((List.range n).map b.u8) rest fits (fun q => s.inForce q && decide (4 ≤ q)) s.anchorKey == 0

/-- R105, R106: the check of a slot completes. The widths of the values that REC gets (code 1 byte, item 1, offset 3; SET_IDs 4 each; COUNT and LAST_ENTRY 2 each) are the model's: R461 gives only their order, DESIGN CHOICE (assumption 164). -/
def execSetCheckDone (t : Nat) (slot : Slot) (s : State) : Host.Outcome State Fault Refusal :=
  s.runK .solve t fun s =>
    if (s.slotX slot).st ≠ .checking then s
    else
      let (base, size) := s.slotRegion slot
      let b := blobOf s.solver base size
      let regions := [s.slotRegion .a, s.slotRegion .b, (s.r DSQ.WORK_BASE, s.r DSQ.WORK_SIZE),
        (s.r DSQ.RESULT_BASE, s.r DSQ.RESULT_SIZE)]
      let (code, item, off) := checkSet b size regions (s.r DSQ.PLAN_PERIOD_US) (s.r DSQ.ACTIVE) (s.r DSQ.SOLVER_CAP)
        (s.r DSQ.WORK_SIZE) (s.r DSQ.RESULT_SIZE) (s.setSigned slot b)
      let s := ((s.w DSQ.CHECK_CODE code).w DSQ.CHECK_ITEM item).w DSQ.CHECK_OFFSET off
      if code = 0 then
        let id := BitVec.ofNat 32 (b.u32 8)
        (((s.setSlot slot { st := .checked, setId := id, digest := b.digest }).showStby).recur 16 0 0).reportSet
          (if slot = .b then 1 else 0) id b.digest
      else (s.slotTo slot .empty).recur 16 0 1 [] ([code, item] ++ leBytes 3 off)

/-! ### Lanes (R136, R138 to R140, R148) -/

/-- The lanes in a state. -/
def State.lanesIn (s : State) (st : Nat) : List Nat := (List.range 18).filter (fun l => s.r DSA.STATE l == st)

/-- A lane is withdrawn (R138). -/
def State.isWithdrawn (s : State) (l : Nat) : Bool := s.dsq.withdrawn.any (fun w => w.1 == l)

/-- The free spares, lowest number first. -/
def State.freeSpares (s : State) : List Nat := (s.lanesIn 0).filter (fun l => !s.isWithdrawn l)

/-- The lanes in service in logical order. -/
def State.serving (s : State) : List (Nat × Nat) :=
  ((s.lanesIn 1 ++ s.lanesIn 3).filter (fun l => !s.isWithdrawn l)).map (fun l => (s.r DSA.LOGICAL l, l))

/-- The lane that takes a re-execution: the lowest free spare that has not run the block, or the next lane in service in logical order (R136). -/
def State.nextLane (s : State) (tried : List Nat) : Option Nat :=
  match s.freeSpares.find? (fun l => !tried.contains l) with
  | some l => some l
  | none =>
    let from_ := match (tried.reverse.find? (fun l => s.r DSA.STATE l != 0)) with
      | some l => s.r DSA.LOGICAL l
      | none => 15
    let cand := s.serving.filter (fun p => !tried.contains p.2)
    let dist := fun (p : Nat × Nat) => (p.1 + 31 - from_) % 16
    (cand.foldl (fun (b : Option (Nat × Nat)) (p : Nat × Nat) => match b with
      | some q => if dist p < dist q then some p else some q
      | none => some p) none).map (·.2)

/-- L: the logical numbers that lanes in STATE ACTIVE bear. A withdrawn stand-in shows ACTIVE under the number of the lane it stood in for, which counts once (R138). -/
def State.laneCount (s : State) : Nat := ((s.lanesIn 1).map (fun l => s.r DSA.LOGICAL l)).dedup.length

/-- ACTIVE, SPARES and RETIRED follow the lane pages (R146). -/
def State.showLanes (s : State) : State :=
  ((s.w DSQ.ACTIVE s.laneCount).w DSQ.SPARES s.freeSpares.length).w DSQ.RETIRED
    ((s.lanesIn 2).foldl (fun v l => v + 2 ^ l) 0)

/-- Blocks that a withdrawn lane was to execute again are dealt elsewhere (R136, R138). -/
def State.redeal (s : State) (l : Nat) : State :=
  match s.dsq.run with
  | none => s
  | some r =>
    s.setDsq (fun d => { d with run := some { r with redo := r.redo.map (fun b =>
      if b.lane = l then { b with lane := (s.nextLane (b.tried ++ [l])).getD l } else b) } })

/-- Steps 1 and 2 of R138: a lane is withdrawn and the lowest free spare stands in for a lane in service. From here until step 4 its page shows ACTIVE with its logical number; a spare that a command retires has none and stays SPARE (assumption 129). -/
def State.withdraw (s : State) (l cause : Nat) : State :=
  if s.isWithdrawn l ∨ s.r DSA.STATE l = 2 then s
  else
    let spare := if s.r DSA.STATE l = 0 then none else s.freeSpares.find? (fun x => x != l)
    let s := s.setDsq (fun d => { d with
      withdrawn := (d.withdrawn.map (fun w => if w.2.1 = some l then (w.1, spare, w.2.2.1, w.2.2.2) else w)) ++ [(l, spare, false, cause)] })
    let s := match spare with
      | some x => (s.w DSA.STATE 3 x).w DSA.LOGICAL (s.r DSA.LOGICAL l) x
      | none => s
    let s := if s.r DSA.STATE l = 3 then s.w DSA.STATE 1 l else s
    (s.w DSQ.SPARES s.freeSpares.length).redeal l

/-- Step 4 and 5 of R138 for one withdrawn lane. -/
def State.retireLane (s : State) (w : Nat × Option Nat × Bool × Nat) : State :=
  let l := w.1
  let s := ((s.w DSA.STATE 2 l).w DSA.CAUSE w.2.2.2 l).w DSA.LOGICAL 0 l
  let s := match w.2.1 with
    | some x => if s.r DSA.STATE x = 3 then s.w DSA.STATE 1 x else s
    | none => s
  let s := s.setDsq (fun d => { d with
    withdrawn := d.withdrawn.filter (fun q => !(q.1 == l)),
    run := d.run.map (fun r => { r with retiredDuring := min 255 (r.retiredDuring + 1) }) })
  let s := (s.showLanes.raise 17 l 1).raise 16 0 14
  s.predict.setRaw 16 0 15 (s.showLanes.r DSQ.SPARES == 0)

/-- An iteration boundary: retirements committed since the last one take effect (R138). -/
def State.retirements (s : State) : State :=
  (s.dsq.withdrawn.filter (fun w => w.2.2.1)).foldl (fun s w => s.retireLane w) s

/-- FAIL_COUNT of a lane is journalled each time it changes (R138). -/
def State.setFails (s : State) (l n : Nat) : State :=
  let s := s.w DSA.FAIL_COUNT n l
  { s with pwr := { s.pwr with laneFail := sset 0 s.pwr.laneFail l n, laneAt := sset 0 s.pwr.laneAt l s.opSec } }

/-- A lane is charged one failure; at 3 it is withdrawn (R136, R138). -/
def State.charge (s : State) (l : Nat) : State :=
  let n := min 3 (s.r DSA.FAIL_COUNT l + 1)
  let s := s.setFails l n
  if n = 3 then s.withdraw l 1 else s

/-- The retirement entry of a withdrawn lane is committed in both MRAM devices (R138). Nothing is relied on while no device holds it. -/
def State.commitLane (s : State) (lane : Nat) : State :=
  match s.dsq.withdrawn.find? (fun w => w.1 == lane && !w.2.2.1) with
  | none => s
  | some w =>
    if !s.mramOk then s
    else
      let s := s.setDsq (fun d => { d with withdrawn := d.withdrawn.map (fun q => if q.1 = lane then (q.1, q.2.1, true, q.2.2.2) else q) })
      let s := { s with pwr := { s.pwr with laneRetired := s.pwr.laneRetired ++ [lane] } }
      s.writeRec 0x430 [lane, w.2.2.2, w.2.1.getD 0xFF]

/-- R138: the retirement entry of a withdrawn lane is committed. -/
def execRetireCommit (t : Nat) (lane : Fin 18) (s : State) : Host.Outcome State Fault Refusal :=
  s.runK .keep t fun s => s.commitLane lane

/-- R138: 86,400 s of operating time reduce a FAIL_COUNT by 1. -/
def execFailCountDecay (t : Nat) (s : State) : Host.Outcome State Fault Refusal :=
  s.cmdK t fun s => s.forN 18 fun s l =>
    let n := s.r DSA.FAIL_COUNT l
    if 0 < n ∧ n < 3 ∧ sget 0 s.pwr.laneAt l + 86400 ≤ s.opSec then s.setFails l (n - 1) else s

/-- R140: the self-test of every spare starts. -/
def execSpareSelftest (t : Nat) (s : State) : Host.Outcome State Fault Refusal :=
  s.runK .solve t fun s => if s.enabled 16 then s.setDsq (fun d => { d with testing := s.freeSpares }) else s

/-- R140: the self-test of a spare ends. A spare that fails is retired and counts as a spare no more. -/
def execSpareSelftestDone (t : Nat) (lane : Fin 18) (pass : Bool) (s : State) : Host.Outcome State Fault Refusal :=
  s.runK .solve t fun s =>
    if !s.dsq.testing.contains lane.val then s
    else
      let s := (s.setDsq (fun d => { d with testing := d.testing.filter (fun l => !(l == lane.val)) })).wb DSA.TEST_PASS pass lane
      if pass then s
      else
        let s := (s.raise 17 lane 2).withdraw lane 2
        ((s.w DSA.STATE 2 lane).w DSA.CAUSE 2 lane).showLanes

/-- R140: host software retires a lane. -/
def execRetireCmd (t : Nat) (r : Requester) (lane : Fin 18) (s : State) : Host.Outcome State Fault Refusal :=
  s.cmdK t fun s => s.pageWrite r ⟨17, lane⟩ true fun s =>
    if s.lockOpen ⟨17, lane⟩ then s.withdraw lane 3 else s.lockViol ⟨17, lane⟩ true

/-- R132: the conflict fraction of a window. -/
def execConflictWindow (t : Nat) (frac : BitVec 16) (s : State) : Host.Outcome State Fault Refusal :=
  s.runK .solve t fun s =>
    let s := (s.w DSQ.CONFLICT_WIN frac.toNat).w DSQ.CONFLICT_PEAK (max (s.r DSQ.CONFLICT_PEAK) frac.toNat)
    let s := if 8192 < frac.toNat then s.inc DSQ.HIGH_RUN else s.w DSQ.HIGH_RUN 0
    s.setRaw 16 0 16 (decide (16 ≤ s.r DSQ.HIGH_RUN))

/-- R146: CTR_CLR clears 0x14C to 0x15C and 0x164. -/
def execDsqCtrClr (t : Nat) (r : Requester) (s : State) : Host.Outcome State Fault Refusal :=
  s.cmdK t fun s => s.pageWrite r dsqPage true fun s =>
    [DSQ.CONFLICT_WIN, DSQ.HIGH_RUN, DSQ.CONFLICT_PEAK, DSQ.REG_TOTAL, DSQ.SAT_TOTAL, DSQ.REEXEC_TOTAL, DSQ.ABANDONED].foldl
      (fun s f => s.w f 0) s

/-! ### The snapshot (R26, R87, R111, R114) -/

/-- The status register of a descriptor (R146). -/
def State.setStatus (s : State) (d st : Nat) : State :=
  if d = 1 then s.w DSQ.SE_STATUS st
  else if d = 2 then s.w DSQ.DISP_STATUS st
  else
    let j := d - 3
    let f := if j < 4 then DSQ.CONT_STATUS_0 else DSQ.CONT_STATUS_4
    let v := s.r f
    s.w f (v - bitsAt v (8 * (j % 4)) 8 * 2 ^ (8 * (j % 4)) + st * 2 ^ (8 * (j % 4)))

/-- A descriptor is abandoned (R114). -/
def State.abandonDesc (s : State) (d : Nat) : State :=
  let s := ((s.inc DSQ.ABANDONED).setStatus d 0x0A).raise 16 0 17
  if d = 2 then s.setHo (fun h => { h with aband := true }) else s

/-- The last descriptor of the active set. -/
def State.lastDesc (s : State) : Nat := 2 + s.setBlob.contCount

/-- RUN_DESC, PHASE and ITER_NOW follow the descriptor in progress (R146); ITER_NOW is 0 in SETUP and stands in FINAL (assumption 126). -/
def State.showRun (s : State) : State :=
  match s.dsq.run with
  | none => (((s.w DSQ.RUN_DESC 0).w DSQ.PHASE 0).w DSQ.ITER_NOW 0).w DSQ.STAGE_NOW 0
  | some r =>
    let ph := match r.phase with
      | .idle => 0
      | .setup => 1
      | .r => 2
      | .f => 3
      | .s => 4
      | .final => 5
    let s := (s.w DSQ.RUN_DESC r.desc).w DSQ.PHASE ph
    if r.phase = .setup then s.w DSQ.ITER_NOW 0 else if r.phase = .final then s else s.w DSQ.ITER_NOW (r.iter + 1)

/-- The descriptor in progress is abandoned. -/
def State.abandonRun (s : State) : State :=
  match s.dsq.run with
  | none => s
  | some r => ((s.abandonDesc r.desc).setDsq (fun d => { d with run := none })).showRun

/-- Every descriptor of the period that has not published is abandoned (R114). -/
def State.abandonAll (s : State) : State :=
  let s := s.abandonRun
  let d0 := s.dsq.nextDesc
  if d0 = 0 then s
  else
    let s := (List.range (s.lastDesc + 1 - d0)).foldl (fun s i => s.abandonDesc (d0 + i)) s
    s.setDsq (fun d => { d with nextDesc := 0 })

/-- DSQ is enabled or disabled (R111, R114). The first snapshot instant falls at least 1 ms after ENABLE rises. Descriptors whose windows have not opened when ENABLE falls are dropped and not counted as abandoned: R111 and R114 speak of the one that runs, DESIGN CHOICE (assumption 130). -/
def State.dsqEnable (s : State) (on : Bool) : State :=
  if on then s.setDsq (fun d => { d with startUp := s.up + 1000000 })
  else (s.abandonRun).setDsq (fun d => { d with nextDesc := 0 })

/-- A region other than an empty one reaches above SOLVER_CAP. -/
def State.aboveCap (s : State) (r : Nat × Nat) : Bool := decide (r.2 ≠ 0) && decide (s.r DSQ.SOLVER_CAP < r.1 + r.2)

/-- Stage 0 of the set in a slot lasts one plan period (R73, R111). -/
def State.periodFits (s : State) (k : Slot) : Bool :=
  let b := s.slotBlob k
  b.u32 (b.stageRec 0 + 0x14) * 1000 == s.r DSQ.PLAN_PERIOD_US

/-- A slot, the workspace or the result region reaches above SOLVER_CAP (R107). -/
def State.capMisfit (s : State) (k : Slot) : Bool :=
  s.aboveCap (s.slotRegion k) || s.aboveCap (s.r DSQ.WORK_BASE, s.r DSQ.WORK_SIZE) ||
    s.aboveCap (s.r DSQ.RESULT_BASE, s.r DSQ.RESULT_SIZE)

/-- The sets that fit no more leave: above SOLVER_CAP (R107) or built for another period (R111). -/
def State.dropMisfits (s : State) : State :=
  let cap := s.on DSQ.ACTIVE_VALID && s.capMisfit s.activeSlot
  let s := if cap then s.dropActive else s
  let s := if s.on DSQ.ACTIVE_VALID && !s.periodFits s.activeSlot then s.dropActive.setInvalidated else s
  [Slot.a, Slot.b].foldl (fun (s : State) (k : Slot) =>
    let st := (s.slotX k).st
    if !s.isActive k && (st == .checked || st == .armed) && !s.periodFits k then s.invalidate k else s) s

/-- In a pair with a standby, a switch waits until it reports the same set (R493). -/
def State.peerReady (s : State) (x : SlotX) : Bool :=
  s.r DCH.ROLE != 3 || s.dch.peerRole != .standby || s.dch.peerSet == some (x.setId, x.digest)

/-- A slot becomes active (R96, R100, R103). -/
def State.makeActive (s : State) (k : Slot) : State :=
  let x := s.slotX k
  let old := s.r DSQ.ACTIVE_SET_ID
  let s := if s.on DSQ.ACTIVE_VALID then s.slotTo s.activeSlot .checked else s
  let s := (((s.slotTo k .checked).wb DSQ.ACTIVE_VALID true).wb DSQ.ACTIVE_SLOT (k == .b)).w DSQ.ACTIVE_SET_ID x.setId.toNat
  let s := (s.w DSQ.RES_VALID 0).w DSQ.RES_LAST 0
  let b := s.setBlob
  let s := s.setHo (fun h => { h with lastAccepted := none, resPlans := [],
                                      resTrigger := (List.range b.contCount).map (fun j => (j, BitVec.ofNat 32 (b.u32 (b.contOff j + 0x10)))) })
  let s := { s with pwr := { s.pwr with cfgSet := some (x.setId, x.digest) } }
  s.showStby.predict.setRaw 16 0 2 true [] (leBytes 4 old ++ leBytes 4 x.setId.toNat)

/-- An ARMED slot becomes active at the snapshot instant (R96, R100, R103, R109). One that SOLVER_CAP no longer leaves room for does not (R107): it stays ARMED (assumption 128). -/
def State.switchSet (s : State) : State :=
  let s := s.setRaw 16 0 2 false
  let k := if s.dsq.slotB.st = .armed then Slot.b else .a
  let x := s.slotX k
  if x.st ≠ .armed ∨ !s.peerReady x ∨ s.capMisfit k then s
  else (s.makeActive k).sendSlots

/-- The cells of words at rising offsets. -/
def wordCells (base : Nat) (ws : List (Nat × Nat)) : List Host.Cell :=
  ws.flatMap (fun w => runCells (base + w.1) (leBytes 4 w.2))

/-- The bytes of the snapshot (R87, R88). -/
def State.snapCells (s : State) (base : Nat) : List Host.Cell :=
  let si := (s.inImg.map (·.1)).map (fun w => (4 * w, (s.lastGood w).toNat))
  let q := (List.range 1024).flatMap (fun n => runCells (base + 0x40000 + n) [qualityCode (s.stnQ n)])
  let mfe := (List.range 56).flatMap (fun i => [(0x40400 + 8 * i, s.r MFE.RECORD 0 i), (0x40404 + 8 * i, s.recordHi i)])
  let cle := (List.range 512).flatMap (fun g => [(0x40800 + 16 * g, s.lw g 49), (0x40804 + 16 * g, s.lw g 50),
    (0x40808 + 16 * g, s.lw g 51), (0x4080C + 16 * g, s.lw g 48)])
  let f0 := s.r DSQ.FORECAST_BASE
  let fc := (s.general.filter (fun c => decide (f0 ≤ c.1) && decide (c.1 < f0 + s.r DSQ.FORECAST_SIZE))).map
    (fun c => (base + 0x50000 + (c.1 - f0), c.2))
  wordCells base si ++ q ++ wordCells base mfe ++ wordCells base cle ++ fc

/-- The base of a snapshot buffer. -/
def snapBase (buf : Nat) : Nat := 0x40000000 + 0x80000 * buf

/-- A plan period starts (R26, R111, R112, R152). The buffer follows the parity of PERIOD_SEQ (assumption 124). -/
def State.snapshot (s : State) : State :=
  let s := s.abandonAll
  let s := (s.w DSQ.PERIOD_SEQ (s.r DSQ.PERIOD_SEQ + 1)).setDsq (fun d => { d with tk := s.now })
  let s := s.setHo (fun h => { h with
    pause := h.pause || (s.sec.switchReq && s.r SEC.FW_STATE == 6), paused := h.pause || (s.sec.switchReq && s.r SEC.FW_STATE == 6), published := none, stagedPlan := none, aband := false })
  if s.ho.pause then s
  else
    let s := (s.dropMisfits).switchSet
    let period := s.r DSQ.PLAN_PERIOD_US
    let off := s.r DSQ.APPLY_OFFSET_US
    let s := if period ≤ off then (s.clampData dsqPage).w DSQ.APPLY_OFFSET_US (period - 1000) else s
    let buf := (s.r DSQ.PERIOD_SEQ + 1) % 2
    let s := s.w DSQ.SNAP_BUF buf
    let s := s.putRegion (snapBase buf) 0x80000 (s.snapCells (snapBase buf))
    let run := s.on DSQ.ACTIVE_VALID && !s.follows
    let first := if s.setBlob.seOff = 0 then 2 else 1
    let start := s.r DSQ.SOLVE_START_US
    s.setDsq (fun d => { d with
      applyOff := if period ≤ off then period - 1000 else off, solveStart := start,
      nextDesc := if run then first else 0, nextOpen := d.tk + 1000 * start, liveDone := false, wZero := [],
      clampList := [], liveClamps := 0, seUsable := false, dispIt := none, seFallback := false })

/-- This instant belongs to the series S + PLAN_PHASE_US + k × PLAN_PERIOD_US: a whole second for S up to 1 s, a whole minute above, both whole multiples of the period (R111, R376). -/
def State.isSnapshotTime (s : State) : Bool :=
  s.onSeries (s.r DSQ.PLAN_PERIOD_US) (s.r DSQ.PLAN_PHASE_US) && decide (s.dsq.startUp ≤ s.up)

/-- R26, R111: a snapshot instant. -/
def execSnapshotInstant (t : Nat) (s : State) : Host.Outcome State Fault Refusal :=
  s.runS .solve t fun s => if s.enabled 16 && s.isSnapshotTime then s.snapshot else s

/-! ### The live map (R89 to R92) -/

/-- What the live map does: values written to the stored vectors, x̂₀, zeroed weights, clamps. -/
structure LiveX where
  writes : List (Nat × Int) := []
  x0 : List Int := []
  wz : List Nat := []
  clamps : Nat := 0
  last : Nat := 0
  list : List Nat := []
  deriving DecidableEq, Repr

/-- The place in the set of an element of a target vector of stage `t`, or none where the vector is not stored (R81, R89, R94). -/
def Blob.target (b : Blob) (vec t idx : Nat) : Option Nat :=
  let fo := if vec = 1 then 4 else if vec = 2 then 8 else 0xC
  let base := if vec = 4 then b.u32 (b.seOff + 0x30) else if vec = 5 then b.u32 (b.seOff + 0x34) else b.u32 (b.stageRec t + fo)
  if base = 0 then none else some (base + 4 * idx)

/-- The value of a live-map entry before its bounds (R90). `snap` is the snapshot buffer. -/
def Blob.liveValue (b snap : Blob) (o t : Nat) (fresh : Bool) : Int :=
  let subst := b.s32 (o + 0x18)
  let src := b.u8 o
  if src = 2 ∨ (!fresh ∧ b.u8 (o + 1) ≠ 0) then subst
  else
    let a := b.u32 (o + 8) + (if b.u8 (o + 3) = 1 then (t - b.u8 (o + 6)) * b.u16 (o + 0xC) else 0)
    let w : Int := if src = 0 then snap.s32 a else snap.u32 a
    sat 32 (sat 32 (roundShift (b.s32 (o + 0x10) * w) 12) + b.s32 (o + 0x14))

/-- One entry at one stage. -/
def Blob.liveOne (b snap : Blob) (e t : Nat) (x : LiveX) : LiveX :=
  let o := b.liveOff + 32 * e
  let stn := b.u16 (o + 0xE)
  let fresh := stn == 0xFFFF || snap.u8 (0x40000 + stn) == 1
  let vec := b.u8 (o + 2)
  let idx := b.u16 (o + 4)
  let v := b.liveValue snap o t fresh
  let x := if b.u8 o ≠ 2 ∧ !fresh ∧ b.u8 (o + 1) = 2 then { x with wz := idx :: x.wz } else x
  let lo := b.s32 (b.liveBound e)
  let hi := b.s32 (b.liveBound e + 4)
  let v1 := max lo v
  let v2 := min hi v1
  let n := (if v < lo then 1 else 0) + (if hi < v1 then 1 else 0)
  let x := if n = 0 then x
    else { x with clamps := x.clamps + n, last := e,
                  list := if x.list.contains e ∨ 256 ≤ x.list.length then x.list else x.list ++ [e] }
  if vec = 0 then { x with x0 := (List.range (max x.x0.length (idx + 1))).map (fun i => if i = idx then v2 else x.x0.getD i 0) }
  else match b.target vec t idx with
    | some a => { x with writes := (a, v2) :: x.writes }
    | none => x

/-- The live map is applied to the active set (R90 to R92). -/
def State.applyLive (s : State) : State :=
  let b := s.setBlob
  let snap := blobOf s.solver (snapBase (s.r DSQ.SNAP_BUF)) 0x80000
  let x := (List.range b.liveCount).foldl (fun (x : LiveX) (e : Nat) =>
    let o := b.liveOff + 32 * e
    (List.range (b.u8 (o + 7) + 1 - b.u8 (o + 6))).foldl (fun x i => b.liveOne snap e (b.u8 (o + 6) + i) x) x)
    { x0 := s.dsq.x0 }
  let base := (s.slotRegion s.activeSlot).1
  let s := { s with solver := x.writes.reverse.foldl (fun (m : List Host.Cell) (w : Nat × Int) =>
    ssets 0 m (base + w.1) ((leBytes 4 (bits 32 w.2)).map (BitVec.ofNat 8))) s.solver }
  let s := (s.w DSQ.COUNT (min 65535 x.clamps)).clampData dsqPage x.clamps
  let s := if x.clamps = 0 then s else s.w DSQ.LAST_ENTRY x.last
  let s := s.setDsq (fun d => { d with liveDone := true, x0 := x.x0, wZero := x.wz, clampList := x.list, liveClamps := x.clamps })
  s.setRaw 16 0 4 (decide (0 < x.clamps)) [] (leBytes 2 (s.r DSQ.COUNT) ++ leBytes 2 (s.r DSQ.LAST_ENTRY))

/-! ### The problems of the active set (R70, R79, R98, R99) -/

/-- The patches of a contingency: vector, first and last stage, index, value. -/
def Blob.patches (b : Blob) (d : Nat) : List (Nat × Nat × Nat × Nat × Nat) :=
  if d < 3 then []
  else
    let o := b.contOff (d - 3)
    (List.range (b.u32 (o + 8))).map (fun i =>
      let q := b.u32 (o + 0xC) + 16 * i
      (b.u8 q, b.u8 (q + 2), b.u8 (q + 3), b.u16 (q + 4), b.u32 (q + 8)))

/-- A raw element of a stage vector under patches: the stored word, or the value of the last patch that names it. -/
def Blob.elemAt (b : Blob) (ps : List (Nat × Nat × Nat × Nat × Nat)) (vec t idx : Nat) : Nat :=
  match (ps.filter (fun p => p.1 == vec && decide (p.2.1 ≤ t) && decide (t ≤ p.2.2.1) && p.2.2.2.1 == idx)).getLast? with
  | some p => p.2.2.2.2
  | none =>
    let base := b.u32 (b.stageRec t + 4 * vec)
    if base = 0 then 0 else b.u32 (base + 4 * idx)

/-- The padded index of variable `j` of a stage vector. -/
def Blob.varIdx (b : Blob) (j : Nat) : Nat := if j < b.nx then j else pad8 b.nx + (j - b.nx)

/-- An unpadded part of a dense matrix. -/
def pick (a : RMat) (r c : Nat) (ri ci : Nat → Nat) : RMat :=
  ((List.range r).map (fun i => ((List.range c).map (fun j => mget a (ri i) (ci j))).toArray)).toArray

/-- The matrices of a class without padding. -/
def Blob.classM (b : Blob) (k : Nat) : ClassM :=
  let id' := fun (i : Nat) => i
  let nz := if b.terminal k then b.nx else b.nx + b.nu
  match b.classMats k with
  | [h, g] => { h := pick (h.dense b) nz nz b.varIdx b.varIdx, g := pick (g.dense b) b.rows nz id' b.varIdx }
  | [a, bm, h, g] => { a := pick (a.dense b) b.nx b.nx id' id', b := pick (bm.dense b) b.nx b.nu id' id',
                       h := pick (h.dense b) nz nz b.varIdx b.varIdx, g := pick (g.dense b) b.rows nz id' b.varIdx }
  | _ => {}

/-- An unsigned element with bit 31 set reads as the largest value of its format (R85). -/
def top32 (v : Nat) : Int := if 2 ^ 31 ≤ v then 2 ^ 31 - 1 else v

/-- The problem of a dispatch or contingency descriptor. -/
def Blob.prob (b : Blob) (d : Nat) (x0 : List Int) : Prob :=
  let ps := b.patches d
  let n := b.nN
  let stages := fun (f : Nat → RVec) => ((List.range (n + 1)).map f).toArray
  let cls := (List.range b.classes).map b.classM
  let vec := fun (len : Nat) (f : Nat → Int) => ((List.range len).map f).toArray
  let o := b.dispOff
  { n := n, nx := b.nx, nu := b.nu, m := b.rows,
    cls := ((List.range (n + 1)).map (fun t => cls.getD (b.u8 (b.stageRec t)) {})).toArray,
    c := stages (fun t => if t = n then #[] else vec b.nx (fun i => sgn 32 (b.elemAt ps 1 t i))),
    h := stages (fun t => vec (if t = n then b.nx else b.nx + b.nu) (fun i => sgn 32 (b.elemAt ps 2 t (b.varIdx i)))),
    d := stages (fun t => vec b.rows (fun i => sgn 32 (b.elemAt ps 3 t i))),
    rho := stages (fun t => vec b.rows (fun i => top32 (b.elemAt ps 4 t i))),
    x0 := vec b.nx (fun i => x0.getD i 0), tau := b.u32 (o + 0x14), vMax := b.u32 (o + 0x18), mu0 := b.u32 (o + 0x1C),
    sigma := b.u32 (o + 0x20), eta := b.u32 (o + 0x24), resTol := b.u32 (o + 0x28), fall := b.u32 (o + 0x2C),
    xMax := b.u32 (b.certOff + 0x24), lMax := b.u32 (b.certOff + 0x28) }

/-- The state-estimation problem; `wz` are the weights zeroed for the period. -/
def Blob.seProb (b : Blob) (wz : List Nat) : SeProb :=
  let (nv, p, q) := b.seDims
  let o := b.seOff
  let id' := fun (i : Nat) => i
  let vec := fun (off len : Nat) (f : Nat → Int) => ((List.range len).map (fun i => f (b.u32 (b.u32 (o + off) + 4 * i)))).toArray
  let mats := b.seMats.map (fun m => m.dense b)
  { nv := nv, p := p, q := q, m := pick (mats.getD 0 #[]) p nv id' id', e := pick (mats.getD 1 #[]) q nv id' id',
    w := ((List.range p).map (fun i => if wz.contains i then 0 else top32 (b.u32 (b.u32 (o + 0x2C) + 4 * i)))).toArray,
    z := vec 0x30 p (fun v => sgn 32 v), rhs := vec 0x34 q (fun v => sgn 32 v), tau := b.u32 (o + 0x10),
    resTol := b.u32 (o + 0x14), chi := b.u32 (o + 0x18) }

/-- The elements of ρ or w with bit 31 set that a descriptor reads (R85). -/
def Blob.tooLarge (b : Blob) (d : Nat) : Nat :=
  if d = 1 then
    ((List.range b.seDims.2.1).filter (fun i => decide (2 ^ 31 ≤ b.u32 (b.u32 (b.seOff + 0x2C) + 4 * i)))).length
  else ((List.range (b.nN + 1)).map (fun t =>
    let base := b.u32 (b.stageRec t + 0x10)
    if base = 0 then 0 else ((List.range b.rows).filter (fun i => decide (2 ^ 31 ≤ b.u32 (base + 4 * i)))).length)).sum

/-! ### Windows (R112 to R114, R121) -/

/-- The start of z for a descriptor, and whether it is warm (R121). -/
def State.warmStart (s : State) (b : Blob) (d : Nat) : List (List Int) × Bool :=
  let trim := fun (v : List Int) (t : Nat) => (List.range (if t = b.nN then b.nx else b.nx + b.nu)).map (fun i => v.getD (b.varIdx i) 0)
  if d = 2 then
    match s.ho.lastAccepted with
    | some p =>
      if (b.u32 (b.dispOff + 0x30)).testBit 0 ∧ p.setId = BitVec.ofNat 32 (s.r DSQ.ACTIVE_SET_ID) then
        ((List.range (b.nN + 1)).map (fun t => trim (p.z.getD (min b.nN (t + 1)) []) t), true)
      else ([], false)
    | none => ([], false)
  else
    match s.dsq.dispIt with
    | some it => if (b.u32 (b.contOff (d - 3) + 0x14)).testBit 0 then (it.z, true) else ([], false)
    | none => ([], false)

/-- Change the descriptor in progress. -/
def State.setRun (s : State) (f : RunX → RunX) : State := s.setDsq (fun d => { d with run := d.run.map f })

/-- The counts of a phase are added to those of the descriptor. -/
def RunX.count (r : RunX) (c : Cnt) : RunX :=
  { r with satCount := r.satCount + c.sats, regCount := r.regCount + c.regs,
           sats := (r.sats ++ c.satList.reverse).take 32, regs := (r.regs ++ c.regList.reverse).take 64 }

/-- The descriptor `d` starts in its window. Elements of ρ or w with bit 31 set are clamps of data taken in (R85): they count once per descriptor, when it starts and takes the stored vectors in; a patched value counts none (R99), DESIGN CHOICE (assumption 131). -/
def State.startDesc (s : State) (b : Blob) (d closes : Nat) : State :=
  let s := s.clampData dsqPage (b.tooLarge d)
  let r : RunX := { desc := d, opened := s.now, closes := closes, phase := .setup }
  let r := if d = 1 then
      let z := List.replicate b.seDims.1 0
      let it : Iterate := { z := [z], pi := [List.replicate b.seDims.2.2 0] }
      { r with it := it, start := it }
    else
      let p := b.prob d s.dsq.x0
      let (z, warm) := s.warmStart b d
      let (it, c) := (p.start z).run {}
      { r.count c with it := it, start := it, warm := warm, rprim1 := (rPrimStart p it).1, seFallback := s.dsq.seFallback }
  ((s.setDsq (fun x => { x with run := some r })).retirements).showRun

/-- R112: a descriptor's window opens. -/
def execDescWindowOpen (t : Nat) (s : State) : Host.Outcome State Fault Refusal :=
  s.runS .solve t fun s =>
    let d := s.dsq.nextDesc
    if d = 0 ∨ !s.enabled 16 ∨ !s.on DSQ.ACTIVE_VALID ∨ s.now < s.dsq.nextOpen then s
    else
      let s := if s.dsq.liveDone then s else s.applyLive
      let b := s.setBlob
      let open_ := s.dsq.nextOpen
      let closes := min (open_ + 1000 * b.budget d) (s.dsq.tk + 1000 * s.r DSQ.PLAN_PERIOD_US - 10000)
      let s := s.setDsq (fun x => { x with
        nextDesc := if d < 2 + b.contCount then d + 1 else 0, nextOpen := open_ + 1000 * b.budget d })
      if s.r DSQ.ACTIVE = 0 ∨ closes ≤ open_ then s.abandonDesc d else s.startDesc b d closes

/-! ### Blocks and iterations (R120, R133 to R137) -/

/-- The iterations that the descriptor in progress has been set. -/
def State.runIters (s : State) (r : RunX) : Nat := s.setBlob.iters r.desc

/-- The counts of the phases of the present iteration and what it leaves: form, R, F, S. -/
def State.compute (s : State) (r : RunX) : Cnt × Cnt × Cnt × Cnt × Iterate :=
  let b := s.setBlob
  if r.desc = 1 then
    let (cf, cr, cs, it) := (b.seProb s.dsq.wZero).iteration r.it (r.iter + 1)
    (cf, cr, {}, cs, it)
  else
    let p := b.prob r.desc s.dsq.x0
    let (cr, cf, cs, it) := iteration p r.it (r.iter + 1)
    ({}, if r.iter = 0 then cr.join (rPrimStart p r.it).2 else cr, cf, cs, it)

/-- The update of an iteration is written (R120). -/
def State.endIteration (s : State) : State :=
  match s.dsq.run with
  | none => s
  | some r =>
    let (_, _, _, cs, it) := s.compute r
    let r' := { r.count cs with it := it, iter := r.iter + 1, boundary := false,
                                phase := if s.runIters r ≤ r.iter + 1 then .final else .r }
    ((s.setDsq (fun d => { d with run := some r' })).retirements).showRun

/-- The last block of a phase has passed. -/
def State.endPhase (s : State) : State :=
  match s.dsq.run with
  | none => s
  | some r =>
    let (cform, cr, cf, _, _) := s.compute r
    match r.phase with
    | .f => (s.setRun (fun r => { r.count (if r.desc = 1 then cform else cf) with
              phase := if r.desc = 1 then .r else .s })).showRun
    | .r => (s.setRun (fun r => { r.count cr with phase := if r.desc = 1 then .s else .f })).showRun
    | .s => if r.svuRetry then s.setRun (fun r => { r with boundary := true }) else s.endIteration
    | .final => s.setRun (fun r => { r with finished := true, endAt := s.now })
    | _ => s

/-- The iteration is abandoned and the descriptor goes to its final checks (R136). Where no iteration has completed, its returned iterate is the starting point with ITER_DONE 0, from which contingencies may start warm: R136 speaks of the last completed iterate alone, DESIGN CHOICE (assumption 132). -/
def State.toFinal (s : State) (f : RunX → RunX) : State :=
  (s.setRun (fun r => { f r with phase := .final, redo := [], svuRetry := false, boundary := false })).showRun

/-- The lanes on which a block has failed. -/
def RunX.triedOn (r : RunX) (blk : Nat) : List Nat := ((r.redo.find? (fun b => b.blk == blk)).map (·.tried)).getD []

/-- Block `blk` is not executed again any more. -/
def RunX.settle (r : RunX) (blk : Nat) : RunX := { r with redo := r.redo.filter (fun b => !(b.blk == blk)) }

/-- A block passed on a lane: the lanes on which it has failed are charged. The phase ends with its last block, when none is left to execute again. -/
def State.blockPass (s : State) (l blk : Nat) (r : RunX) (ends : Bool) : State :=
  let s := (s.inc DSA.BLOCKS l).setRun (fun r => r.settle blk)
  let s := (r.triedOn blk).foldl (fun s q => s.charge q) s
  if ends && (r.settle blk).redo.isEmpty then s.endPhase else s

/-- A block failed on a lane (R136). -/
def State.blockFail (s : State) (l stage blk : Nat) (r : RunX) : State :=
  let s := ((s.setRun (fun r => { r with chkFails := min 65535 (r.chkFails + 1) })).raise 17 l 0).raise 16 0 13 []
    [l, stage % 256, (r.iter + 1) % 256]
  let tried := r.triedOn blk ++ [l]
  match (if tried.length < 3 then s.nextLane tried else none) with
  | some x =>
    ((s.inc DSQ.REEXEC_TOTAL).inc DSA.REEXEC x).setRun (fun r => { r.settle blk with
      redo := (r.settle blk).redo ++ [{ blk := blk, tried := tried, lane := x }], reexecs := min 65535 (r.reexecs + 1) })
  | none => s.toFinal (fun r => { r with checkFailed := true })

/-- The checks of a returned block (R133, R134). A result that passes is taken as the exact one (assumption 133). -/
def State.blockOk (s : State) (r : RunX) (stage : Nat) : BlockResult → Bool
  | .product tiles => tiles.all tileOk
  | .factor rows =>
    let ret := (rows.map (·.toArray)).toArray
    if r.desc = 1 then (s.setBlob.seProb s.dsq.wZero).factorOk ret
    else (s.setBlob.prob r.desc s.dsq.x0).factorOk r.it (r.iter + 1) stage ret
  | .memError => false

/-- A lane holds block `blk`: it is in service, and a block that is executed again is on its new lane (R136, R138). -/
def State.holdsBlock (s : State) (r : RunX) (l blk : Nat) : Bool :=
  s.r DSA.STATE l != 2 && !s.isWithdrawn l && r.redo.all (fun b => b.blk != blk || b.lane == l)

/-- R133 to R136: a lane returns a block of the phase in progress. The first block of a descriptor ends its setup. -/
def execBlockDone (t : Nat) (lane : Fin 18) (b : BlockAt) (res : BlockResult) (endsPhase : Bool) (s : State) :
    Host.Outcome State Fault Refusal :=
  s.runK .solve t fun s =>
    match s.dsq.run with
    | none => s
    | some r =>
      if r.finished || !s.holdsBlock r lane b.blk then s
      else
        let s := (s.w DSQ.STAGE_NOW b.stage).when (r.phase == .setup)
          (fun s => (s.setRun (fun r => { r with phase := if r.desc = 1 then .f else .r })).showRun.w DSQ.STAGE_NOW b.stage)
        if res = .memError then s.toFinal (fun r => { r with memError := true })
        else if s.blockOk r b.stage res then s.blockPass lane b.blk r endsPhase
        else s.blockFail lane b.stage b.blk r

/-- R135: the two halves of the SVU have computed a batch of elements. -/
def execSvuBatchDone (t : Nat) (agree : Bool) (s : State) : Host.Outcome State Fault Refusal :=
  s.runK .solve t fun s =>
    match s.dsq.run with
    | none => s
    | some r =>
      if r.finished then s
      else if agree then
        let s := s.setRun (fun r => { r with svuRetry := false })
        if r.boundary then s.endIteration else s
      else if r.svuRetry then s.toFinal (fun r => { r with checkFailed := true })
      else s.setRun (fun r => { r with svuRetry := true })

/-! ### Deadlines and results (R124, R141 to R145) -/

/-- C_fin of the descriptor in progress, in SOLVE cycles (R128). -/
def State.finCycles (s : State) (r : RunX) : Nat :=
  let b := s.setBlob
  let l := s.r DSQ.ACTIVE
  (if r.desc = 1 then b.seCycles l else b.dispCycles l).2.2

/-- The instant of the iteration deadline of R141, rounded up to 1 ns: C_fin SOLVE cycles of 5/3 ns before the end of the window. -/
def State.deadlineAt (s : State) (r : RunX) : Nat := (3 * r.closes - 5 * s.finCycles r + 2) / 3

/-- The rules of R141 for a descriptor that has not reached its final checks. Of a refinement of the state estimation, which stands for an iteration, the part that forms the residuals counts as phase R and the part that solves and updates as phase S, DESIGN CHOICE (assumption 134). -/
def State.deadline (s : State) : State :=
  match s.dsq.run with
  | none => s
  | some r =>
    if r.finished ∨ r.phase = .final then s
    else
      (s.toFinal (fun r =>
        if r.iter = 0 then { r with noIterate := true }
        else if r.phase = .r then { r with deadline := true }
        else { r with partialIt := true })).raise 16 0 11

/-- R141: the iteration deadline falls. -/
def execIterDeadline (t : Nat) (s : State) : Host.Outcome State Fault Refusal :=
  s.runK .solve t fun s =>
    match s.dsq.run with
    | none => s
    | some r => if s.now < s.deadlineAt r then s else s.deadline

/-- What the final checks of a descriptor find (R124 to R127): residuals, passed, infeasible by slack, by fall, bad data, counts. -/
structure ResultX where
  fin : FinalX := {}
  pass : Bool := false
  slack : Bool := false
  fall : Bool := false
  bad : Bool := false
  cnt : Cnt := {}
  deriving DecidableEq, Repr

/-- The final checks (R124, R125, R127). -/
def State.finals (s : State) (r : RunX) : ResultX :=
  let b := s.setBlob
  if r.desc = 1 then
    let p := b.seProb s.dsq.wZero
    let ((req, chi), c) := (p.final r.it r.iter).run {}
    { fin := { rPrim := req, sTot := chi }, pass := decide (req ≤ p.resTol), bad := decide (p.chi < chi), cnt := c }
  else
    let p := b.prob r.desc s.dsq.x0
    let (x, c) := (finalChecks p r.it r.iter).run {}
    { fin := x, pass := decide (x.rPrim ≤ p.resTol) && decide (x.rDual ≤ p.resTol) && decide (x.gap ≤ p.resTol),
      slack := decide (p.vMax < x.sTot),
      fall := decide (p.resTol < x.rPrim) && decide (p.fall * r.rprim1 < x.rPrim * 2 ^ 31), cnt := c }

/-- The status of a descriptor: the highest code that applies (R142). -/
def RunX.status (r : RunX) (x : ResultX) : Nat :=
  let codes := [(r.deadline, 1), (decide (0 < r.regCount), 2), (decide (0 < r.satCount), 3), (r.checkFailed, 4), (r.partialIt, 5),
    (!x.pass, 6), (x.slack || x.fall || x.bad, 7), (r.noIterate, 8), (r.memError, 9)]
  codes.foldl (fun a c => if c.1 then max a c.2 else a) 0

/-- The ceiling of a status (R142). -/
def ceiling (st : Nat) : Nat := if st ≤ 1 then 0 else if st ≤ 5 then 1 else 2

/-- FLAGS of a result (R144). -/
def RunX.flags (r : RunX) (x : ResultX) (liveClamp : Bool) (st : Nat) : Nat :=
  let fs := [decide (0 < r.regCount), decide (0 < r.satCount), r.deadline, r.partialIt, decide (0 < r.reexecs), r.checkFailed,
    x.pass, x.slack, x.fall, r.warm, r.seFallback, liveClamp, decide (0 < r.retiredDuring), x.bad, r.desc == 1 && decide (st ≤ 5)]
  ((fs.zipIdx).map (fun f => f.1.toNat * 2 ^ f.2)).sum

/-- The result header of R144, 4,096 bytes. -/
def State.resultHeader (s : State) (r : RunX) (x : ResultX) (st flags elapsed : Nat) : List Nat :=
  let b := s.setBlob
  let kind := if r.desc = 1 then 1 else if r.desc = 2 then 0 else 2
  let pads := fun (n : Nat) (bs : List Nat) => (bs ++ List.replicate n 0).take n
  let head := leBytes 4 0x54525352 ++ [kind, r.desc - 3, 0, 0] ++ leBytes 4 (s.r DSQ.PERIOD_SEQ) ++ leBytes 4 (s.r DSQ.ACTIVE_SET_ID) ++
    leBytes 8 (stamp s.dsq.tk) ++ [st, ceiling st] ++ leBytes 2 flags ++ leBytes 2 r.iter ++ leBytes 2 (b.iters r.desc) ++
    leBytes 4 elapsed ++ leBytes 4 (b.predicted (s.r DSQ.ACTIVE) r.desc) ++ leBytes 4 (min (2 ^ 32 - 1) r.regCount) ++
    leBytes 4 (min (2 ^ 32 - 1) r.satCount) ++ leBytes 2 r.chkFails ++ leBytes 2 r.reexecs ++ [s.r DSQ.ACTIVE, r.retiredDuring, 0, 0] ++
    ([r.rprim1, x.fin.rPrim, x.fin.rDual, x.fin.gap, x.fin.sTot].flatMap (fun v => leBytes 4 (bits 32 v))) ++
    leBytes 8 (bits 64 x.fin.j) ++ leBytes 2 (min 65535 s.dsq.liveClamps)
  let regs := r.regs.flatMap (fun q => [q.1, q.2.1] ++ leBytes 2 q.2.2.1 ++ leBytes 4 (bits 32 q.2.2.2))
  let sats := r.sats.flatMap (fun q => [q.1, q.2.1, q.2.2.1, 0] ++ leBytes 4 q.2.2.2)
  let clamps := (s.dsq.clampList.flatMap (leBytes 2) ++ List.replicate 512 0xFF).take 512
  let h := pads 0x60 head ++ pads 512 regs ++ pads 256 sats ++ clamps
  let h := pads 0xFFC h
  h ++ leBytes 4 (crc32c h)

/-- A stage vector with its padding as 0, `n̄_z` elements (R144). -/
def Blob.padVec (b : Blob) (v : List Int) : List Int :=
  (List.range b.nzP).map (fun i =>
    if i < b.nx then v.getD i 0
    else if pad8 b.nx ≤ i ∧ i < pad8 b.nx + b.nu then v.getD (b.nx + (i - pad8 b.nx)) 0 else 0)

/-- The scale table (R86). -/
def Blob.scales (b : Blob) : List (Nat × Int) :=
  (List.range b.nzP).map (fun i =>
    let o := b.certOff + 0x80 + 16 * (b.classes + 1) + 8 * i
    (b.u32 o, sgn 8 (b.u8 (o + 4))))

/-- A dispatch or contingency result is graded and handed over (R149, R151). -/
def State.handOver (s : State) (b : Blob) (r : RunX) (hdr : List Nat) (st flags : Nat) (z : List (List Int)) : State :=
  let g := s.grade (ceiling st) flags
  let p : PlanX := {
    src := r.desc - 2, seq := BitVec.ofNat 32 (s.r DSQ.PERIOD_SEQ), setId := BitVec.ofNat 32 (s.r DSQ.ACTIVE_SET_ID), grade := g,
    nx := pad8 b.nx, nz := b.nzP, z := z, dur := (List.range b.nN).map (fun t => b.u32 (b.stageRec t + 0x14)), scale := b.scales,
    start := s.applyAt, bank := 0, snap := s.dsq.tk, hdr := hdr.take 0x600 }
  if r.desc = 2 then
    (s.setHo (fun h => { h with published := some (s.now, st, g), stagedPlan := some p })).setDsq
      (fun d => { d with dispIt := if r.noIterate then none else some r.it })
  else s.setHo (fun h => { h with resPlans := sput h.resPlans (r.desc - 3) p })

/-- A usable estimate goes into x̂₀, or its elements take the fallback values (R95, R96). -/
def State.estimate (s : State) (b : Blob) (r : RunX) (st : Nat) : State :=
  let v := r.it.z.headD []
  let set := fun (x : List Int) (i : Nat) (y : Int) => (List.range (max x.length (i + 1))).map (fun k => if k = i then y else x.getD k 0)
  if st ≤ 5 then
    s.setDsq (fun d => { d with seUsable := true, x0 := b.seMap.foldl (fun x m => set x m.2 (v.getD m.1 0)) d.x0 })
  else
    let x1 := s.ho.lastAccepted.map (fun p => p.z.getD 1 [])
    s.setDsq (fun d => { d with seFallback := true,
                                x0 := match x1 with
                                  | some x1 => b.seMap.foldl (fun x m => set x m.2 (x1.getD m.2 0)) d.x0
                                  | none => d.x0 })

/-- The publication events of a result (R145, R147). Raw bits 9 and 10 (and 15 and 16) are levels, since their conditions speak of the last result (of the spares, of the last windows); bits 6 to 8, 11 to 14 and 17 name occurrences: each is a rising edge of its own and their raw bits read 0 otherwise, DESIGN CHOICE (assumption 135). -/
def State.resultEvents (s : State) (r : RunX) (x : ResultX) (st flags elapsed : Nat) : State :=
  let kind := if r.desc = 1 then 1 else if r.desc = 2 then 0 else 2
  let pay := leBytes 4 (s.r DSQ.PERIOD_SEQ) ++ [kind, r.desc - 3, st, ceiling st] ++ leBytes 2 r.iter ++ leBytes 2 flags ++
    leBytes 4 ((elapsed + 599) / 600)
  let q := s.rcd.inQ
  let s := if r.desc = 1 then
      let s := s.raise 16 0 6 pay
      if st ≤ 5 then { s with rcd := { s.rcd with inQ := q } } else s
    else if r.desc = 2 then s.raise 16 0 7 pay else s.raise 16 0 8 pay
  let s := (s.setRaw 16 0 9 (decide (0 < r.regCount))).setRaw 16 0 10 (decide (0 < r.satCount))
  if st = 7 then s.raise 16 0 12 [] (leBytes 4 (bits 32 x.fin.sTot) ++ [x.slack.toNat + 2 * x.fall.toNat]) else s

/-- The descriptor in progress publishes its result (R113, R144). -/
def State.publishRun (s : State) : State :=
  let s := s.deadline
  match s.dsq.run with
  | none => s
  | some r =>
    let b := s.setBlob
    let x := s.finals r
    let r := r.count x.cnt
    let st := r.status x
    let flags := r.flags x (decide (0 < s.dsq.liveClamps)) st
    let elapsed := ((if r.finished then r.endAt else s.now) - r.opened) * 3 / 5
    let hdr := s.resultHeader r x st flags elapsed
    let z := if r.desc = 1 then [(List.range (pad8 b.seDims.1)).map (fun i => (r.it.z.headD []).getD i 0)] else r.it.z.map b.padVec
    let d := r.desc - 1
    let slot := if (s.r DSQ.RES_VALID).testBit d then 1 - ((s.r DSQ.RES_LAST).testBit d).toNat else 0
    let a := s.r DSQ.RESULT_BASE + b.resultSlot d slot
    let s := (s.putSol (a + 0x1000) (z.flatMap (fun v => v.flatMap (fun e => leBytes 4 (bits 32 e))))).putSol a hdr
    let s := (s.w DSQ.RES_LAST (putBit (s.r DSQ.RES_LAST) d (slot == 1))).w DSQ.RES_VALID (putBit (s.r DSQ.RES_VALID) d true)
    let s := (s.setStatus r.desc st).when (r.desc == 2) (fun s => s.w DSQ.DISP_ITER_DONE r.iter)
    let s := (s.inc DSQ.REG_TOTAL 0 0 r.regCount).inc DSQ.SAT_TOTAL 0 0 r.satCount
    let s := if r.desc = 1 then s.estimate b r st else s.handOver b r hdr st flags z
    ((s.setDsq (fun d => { d with run := none })).showRun).resultEvents r x st flags elapsed

/-- R113: a descriptor's window ends; the result is published, graded and recorded. -/
def execDescWindowEnd (t : Nat) (s : State) : Host.Outcome State Fault Refusal :=
  s.runS .solve t fun s =>
    match s.dsq.run with
    | none => s
    | some r => if s.now < r.closes then s else s.publishRun

/-- SOLVER_CAP falls by 256 KiB (R107). -/
def State.capDrop (s : State) : State :=
  let s := s.w DSQ.SOLVER_CAP (s.r DSQ.SOLVER_CAP - 0x40000)
  let s := [Slot.a, Slot.b].foldl (fun (s : State) (k : Slot) =>
    if !s.isActive k && s.aboveCap (s.slotRegion k) then s.slotTo k .empty else s) s
  s.recur 16 0 5

end Sys2Proof.Machine
end

