-- ==== Sys2Proof/Machine/Eic.lean ====
section
/-! DEFINITION. The Event and Interrupt Controller (R346 to R356, R368). -/

namespace Sys2Proof.Machine

/-- The record of a logic engine. -/
def State.eng (s : State) (e : Nat) : EngineX := sget {} s.engines e

/-- Replace the record of a logic engine. -/
def State.setEng (s : State) (e : Nat) (x : EngineX) : State := { s with engines := sset {} s.engines e x }

/-- The record of an EIC source. -/
def State.src (s : State) (n : Nat) : SourceX := sget {} s.sources n

/-- Replace the record of an EIC source. -/
def State.setSrc (s : State) (n : Nat) (x : SourceX) : State := { s with sources := sset {} s.sources n x }

/-- The reserved sources of R348. -/
def reservedSource (n : Nat) : Bool :=
  (9 ≤ n && n ≤ 15) || n == 30 || n == 31 || (50 ≤ n && n ≤ 63) || n == 75 || (81 ≤ n && n ≤ 83) ||
  (115 ≤ n && n ≤ 127) || (216 ≤ n && n ≤ 223) || n == 231 || (234 ≤ n && n ≤ 239) || 253 ≤ n

/-- The pulse sources of R347. -/
def pulseSource (n : Nat) : Bool := 84 ≤ n && n ≤ 91

/-- The AON sources of R348. -/
def aonSource (n : Nat) : Bool := n == 28 || n == 29 || (248 ≤ n && n ≤ 251)

/-- The current priority of an engine; none: the engine is IDLE (R262). -/
def State.curPrio (s : State) (e : Nat) : Option Nat :=
  match (s.eng e).cur with
  | none => none
  | some lvl => some (sget {} (s.eng e).banks lvl).prio

/-- An engine that may take deliveries: neither in STOP nor in FAULT (R276, R287). -/
def State.engineRuns (s : State) (e : Nat) : Bool :=
  s.enabled 21 e && (s.r LGE.RUN_STATE e == 1 || s.r LGE.RUN_STATE e == 2) && !(s.r DCH.ROLE == 1 || s.r DCH.ROLE == 2)

/-- The engines to which the target set of a source leads: an engine that is reserve is left out, and the reserve that runs a failed engine's program stands in for it (R352). -/
def State.targets (s : State) (src : Nat) : List Nat :=
  let own := (List.range 4).filter (fun e => (s.r EIC.TARGET 0 src).testBit e)
  let mapped := own.filterMap (fun e =>
    match (s.eng e).hostedBy with
    | some q => some q
    | none => if s.r LGE.IS_RESERVE e = 1 ∨ s.r LGE.HOSTING e = 1 then none else some e)
  (List.range 4).filter (fun e => mapped.contains e && s.engineRuns e)

/-- A source that routing considers: PENDING, enabled, with a target set (R351). -/
def State.eligible (s : State) (src : Nat) : Bool :=
  (s.src src).st == .pending && s.on EIC.EN 0 src && !(s.targets src).isEmpty

/-- The moderation interval of a source's group runs (R354). -/
def State.moderated (s : State) (src : Nat) : Bool :=
  let g := src / 16
  let m := s.r EIC.MOD_US 0 g
  let c := sget 0 s.lastClaim g
  m != 0 && c != 0 && decide (s.up + 1 < c + 1000 * m)

/-- Insert a source by priority, highest first, and by number (R351). -/
def insertSource (prio : Nat → Nat) (x : Nat) : List Nat → List Nat
  | [] => [x]
  | y :: ys => if prio y < prio x then x :: y :: ys else y :: insertSource prio x ys

/-- The sources in the order in which a LOGIC cycle takes them (R351). -/
def State.routeOrder (s : State) : List Nat :=
  (((List.range 256).filter s.eligible)).foldl (fun acc x => insertSource (fun n => s.r EIC.PRIO 0 n) x acc) []

/-- The priority at which EIC sees an engine: its current priority, or that of a delivery that stands for it, whose entry is under way (R262, R267, assumption 144). -/
def State.seenPrio (s : State) (e : Nat) : Option Nat :=
  let offer := if s.on EIC.OFFER_VALID 0 e then some (s.r EIC.PRIO 0 (s.r EIC.OFFER 0 e)) else none
  match s.curPrio e, offer with
  | some c, some p => some (max c p)
  | some c, none => some c
  | none, p => p

/-- A priority, or IDLE, lies below `p`; IDLE lies below priority 0 (R351). -/
def lowerThan (c : Option Nat) (p : Nat) : Bool :=
  match c with
  | none => true
  | some c => decide (c < p)

/-- The rank of an engine among candidates: IDLE first, then by priority, then round-robin after the engine that last claimed the source (R351). -/
def State.routeRank (s : State) (last e : Nat) : Nat :=
  4 * (match s.seenPrio e with
    | none => 0
    | some c => c + 1) + (e + 3 - last) % 4

/-- The least element by a rank. -/
def argMin (rank : Nat → Nat) : List Nat → Option Nat
  | [] => none
  | x :: xs => match argMin rank xs with
    | none => some x
    | some y => if rank y < rank x then some y else some x

/-- The source is offered to engine `e`; a source offered there before has come when it first was. -/
def State.offerSource (s : State) (src e : Nat) : State :=
  let s := (s.w EIC.OFFER src 0 e).w EIC.OFFER_VALID 1 0 e
  s.setEng e { s.eng e with offered := some (src, s.now) }

/-- Offer one source that stands nowhere: choose an engine among the candidates, under moderation. An engine with an offer of lower priority is a candidate, and the new offer replaces that one (R268, R351, R354). -/
def State.routeSource (s : State) (src : Nat) : State :=
  let p := s.r EIC.PRIO 0 src
  if (List.range 4).any (fun e => s.on EIC.OFFER_VALID 0 e && s.r EIC.OFFER 0 e == src) then s
  else
    let cand := (s.targets src).filter (fun e => lowerThan (s.seenPrio e) p)
    let held := s.moderated src
    let free := if held then cand.filter (fun e => (s.seenPrio e).isNone) else cand
    let s := s.when (held && free.isEmpty && !cand.isEmpty) (fun s => s.inc EIC.MOD_HELD 0 (src / 16))
    match argMin (s.routeRank (s.src src).lastEng) free with
    | none => s
    | some e => s.offerSource src e

/-- The offer of engine `e` is withdrawn. -/
def State.dropOffer (s : State) (e : Nat) : State :=
  ((s.w EIC.OFFER_VALID 0 0 e).w EIC.OFFER 0 0 e).setEng e { s.eng e with offered := none }

/-- The offer of engine `e` stands: its source is eligible, the engine is in its target set and runs below its priority (R351, R353). -/
def State.offerStands (s : State) (e : Nat) : Bool :=
  let n := s.r EIC.OFFER 0 e
  s.on EIC.OFFER_VALID 0 e && s.eligible n && (s.targets n).contains e && lowerThan (s.curPrio e) (s.r EIC.PRIO 0 n)

/-- One routing decision: an offer that no longer stands is withdrawn, and the sources without one are taken by priority (R351, R353). -/
def State.route (s : State) : State :=
  let s := s.forN 4 (fun s e =>
    if s.offerStands e then s else s.dropOffer e)
  s.routeOrder.foldl State.routeSource s

/-- EIC latches a rising edge of a source (R347, R349, R353). A source with EN = 0 latches none (assumption 9). -/
def State.latch (s : State) (n : Nat) : State :=
  let x := s.src n
  if reservedSource n || !s.on EIC.EN 0 n then s
  else match x.st with
    | .idle => s.setSrc n { x with st := .pending, since := s.up }
    | .pending => s.inc EIC.MERGES 0 (n / 16)
    | .active => (s.setSrc n { x with st := .activePending, since := s.up }).inc EIC.REFIRES
    | .activePending => s.inc EIC.MERGES 0 (n / 16)

/-- The claim of a source by an engine: it becomes ACTIVE, the group's moderation interval restarts; the claim word (R349, R350, R354). -/
def State.claim (s : State) (n e : Nat) : State × Nat :=
  let live := pulseSource n || s.sourceLevel n
  let s := s.setSrc n { s.src n with st := .active, lastEng := e, claimedBy := some e }
  let s := { s with lastClaim := sset 0 s.lastClaim (n / 16) (s.up + 1) }
  let s := s.when (!live) (fun s => s.inc EIC.CLAIMS_LIVE0)
  (s, n + (if live then 256 else 0))

/-- The completion of a claimed source (R349). -/
def State.complete (s : State) (n : Nat) : State :=
  let x := s.src n
  match x.st with
  | .active => s.setSrc n { x with st := .idle, claimedBy := none }
  | .activePending => s.setSrc n { x with st := .pending, claimedBy := none, since := s.up }
  | _ => s

/-- A source claimed on a failed engine is delivered again (R349, R286). -/
def State.redeliver (s : State) (n : Nat) : State :=
  let x := s.src n
  match x.st with
  | .active => s.setSrc n { x with st := .pending, claimedBy := none, since := s.up }
  | .activePending => s.setSrc n { x with st := .pending, claimedBy := none }
  | _ => s

/-- R347: a rise that is on its way reaches EIC. -/
def execEicSourceEdge (t : Nat) (src : Fin 256) (s : State) : Host.Outcome State Fault Refusal :=
  s.runK .logic t fun s =>
    if s.toEic.contains src.val then ({ s with toEic := s.toEic.erase src.val }).latch src.val else s

/-- R351: one routing decision. -/
def execEicRoute (t : Nat) (s : State) : Host.Outcome State Fault Refusal :=
  s.runK .logic t State.route

/-- R354: the interval of a group ends once MOD_US has passed since the last claim. -/
def execModIntervalEnd (t : Nat) (grp : Fin 16) (s : State) : Host.Outcome State Fault Refusal :=
  s.runK .logic t fun s =>
    let c := sget 0 s.lastClaim grp.val
    if c ≠ 0 ∧ c + 1000 * s.r EIC.MOD_US 0 grp.val ≤ s.up + 1 then
      { s with lastClaim := sset 0 s.lastClaim grp.val 0 }
    else s

/-- R347, R368: SET_SRC raises a source as a pulse and is recorded in REC (assumption 10 for the record's code). -/
def execSetSrc (t : Nat) (r : Requester) (src : Fin 256) (s : State) : Host.Outcome State Fault Refusal :=
  s.cmdK t fun s => s.pageWrite r ⟨5, 0⟩ true fun s =>
    let s := if reservedSource src.val then s else s.offerEic src.val
    s.offerRec { s.evtMsg 5 0 29 [src.val, ownerCode r] [] with eic := some src.val }

/-- The write of SRC_CFG of one source: PRIO, TARGET and EN; EN written 0 while PENDING clears the pending bit (R351, R353), and EN of a reserved source takes 0. -/
def State.srcCfg (s : State) (n : Nat) (v : Word) : State :=
  let en := v.getLsbD 8 && !reservedSource n
  let s := ((s.w EIC.PRIO (bitsAt v.toNat 0 4) 0 n).w EIC.TARGET (bitsAt v.toNat 4 4) 0 n).wb EIC.EN en 0 n
  let s := s.when (v.getLsbD 8 && !en) (fun s => s.clampCount ⟨5, 0⟩ (0x400 + 4 * n) 8)
  let x := s.src n
  if en then s
  else match x.st with
    | .pending =>
      (s.setSrc n { x with st := .idle }).forN 4 fun s e =>
        if s.on EIC.OFFER_VALID 0 e ∧ s.r EIC.OFFER 0 e = n then s.dropOffer e else s
    | .activePending => s.setSrc n { x with st := .active }
    | _ => s

/-- R351, R353: a write of SRC_CFG. -/
def execSrcCfgWrite (t : Nat) (r : Requester) (src : Fin 256) (v : Word) (s : State) :
    Host.Outcome State Fault Refusal :=
  s.cmdK t fun s => s.pageWrite r ⟨5, 0⟩ true (fun s => s.srcCfg src.val v)

/-- R356: a source PENDING for longer than AGE_MS. -/
def execPendingAged (t : Nat) (src : Fin 256) (s : State) : Host.Outcome State Fault Refusal :=
  s.runK .logic t fun s =>
    let x := s.src src.val
    let age := s.r EIC.AGE_MS
    if x.st = .pending ∧ age ≠ 0 ∧ x.since + 1000000 * age < s.up then
      (s.w EIC.AGED_SRC src.val).raise 5 0 0 [src.val]
    else s

/-- R368: CTR_CLR clears MERGES, MOD_HELD, REFIRES and CLAIMS_LIVE0. -/
def execEicCtrClr (t : Nat) (r : Requester) (s : State) : Host.Outcome State Fault Refusal :=
  s.cmdK t fun s => s.pageWrite r ⟨5, 0⟩ true fun s =>
    (((s.rstF EIC.MERGES 0).rstF EIC.MOD_HELD 0).rstF EIC.REFIRES 0).rstF EIC.CLAIMS_LIVE0 0

end Sys2Proof.Machine
end

