-- ==== Sys2Proof/Machine/Prog.lean ====
section
/-! DEFINITION. Program images: the opcode table as data, the image layout and the check of R275 (R250, R253, R254, R272 to R275). -/

namespace Sys2Proof.Machine

/-! ### Opcodes (R253) -/

/-- What an instruction uses its operand for. -/
inductive OpClass where
  | plain | bitRead | bitWrite | tas | timer | counter | word | wordWrite | jump | call | konst | openBr | closeBr | stop
  deriving DecidableEq, Repr

/-- The class of an opcode and its legal modes (bit 0 DIR, 1 IDX, 2 IND, 3 IMM); none for an undefined opcode (R253). -/
def opInfo (op : Nat) : Option (OpClass × Nat) :=
  if op = 0x00 then some (.plain, 0)
  else if 0x01 ≤ op ∧ op ≤ 0x08 then some (.bitRead, 7)
  else if 0x09 ≤ op ∧ op ≤ 0x0E then some (.bitWrite, 7)
  else if op = 0x0F then some (.tas, 7)
  else if 0x10 ≤ op ∧ op ≤ 0x14 then some (.openBr, 0)
  else if op = 0x15 then some (.closeBr, 0)
  else if 0x16 ≤ op ∧ op ≤ 0x18 then some (.plain, 0)
  else if 0x20 ≤ op ∧ op ≤ 0x25 then some (.timer, 7)
  else if 0x28 ≤ op ∧ op ≤ 0x2C then some (.counter, 7)
  else if op = 0x30 then some (.word, 15)
  else if op = 0x31 then some (.konst, 8)
  else if op = 0x32 then some (.wordWrite, 7)
  else if op = 0x33 then some (.plain, 0)
  else if 0x34 ≤ op ∧ op ≤ 0x42 then some (.word, 15)
  else if 0x43 ≤ op ∧ op ≤ 0x46 then some (.plain, 0)
  else if 0x48 ≤ op ∧ op ≤ 0x4D then some (.word, 15)
  else if 0x50 ≤ op ∧ op ≤ 0x53 then some (.jump, 8)
  else if op = 0x54 then some (.call, 8)
  else if op = 0x55 ∨ op = 0x56 then some (.stop, 0)
  else if op = 0x57 then some (.wordWrite, 7)
  else if op = 0x58 ∨ op = 0x59 then some (.konst, 8)
  else none

/-- The words of an area; 0 for an undefined one. PG has the words of the register pages (R249). -/
def areaWords (area : Nat) : Nat :=
  match area with
  | 0 => 2
  | 1 => 2
  | 2 => 2
  | 3 => 2
  | 4 => 262144
  | 5 => 16384
  | 6 => 4096
  | 7 => 2048
  | 8 => 65536
  | 9 => 32768
  | 10 => 16
  | 11 => 0x800000
  | 15 => 1
  | _ => 0

/-- The bits of an area that bit operands reach, 0 where it has none (R248, R249). -/
def areaBits (area : Nat) : Nat :=
  if area = 6 ∨ area = 7 then areaWords area
  else if area ≤ 5 ∨ area = 8 ∨ area = 10 then 32 * areaWords area else 0

/-- A DIR operand lies in its area and the instruction may use that area (R249, R275). -/
def dirOk (c : OpClass) (area idx : Nat) : Bool :=
  match c with
  | .bitRead => decide (idx < areaBits area)
  | .bitWrite => (area == 1 || area == 3 || area == 4 || area == 5) && decide (idx < areaBits area)
  | .tas => (area == 4 || area == 5) && decide (idx < areaBits area)
  | .timer => area == 6 && decide (idx < 4096)
  | .counter => area == 7 && decide (idx < 2048)
  | .word => area != 11 && decide (idx < areaWords area)
  | .wordWrite => (area == 1 || area == 3 || area == 4 || area == 5 || area == 9 || area == 10) && decide (idx < areaWords area)
  | _ => true

/-- The windows of an engine (R247). -/
structure Windows where
  d : Nat × Nat
  r : Nat × Nat
  t : Nat × Nat
  c : Nat × Nat
  deriving DecidableEq, Repr

/-- A number lies in a window. -/
def inWin (w : Nat × Nat) (i : Nat) : Bool := decide (w.1 ≤ i) && decide (i ≤ w.2)

/-- A word of area D, R, T or C lies in the windows; other areas have none. -/
def Windows.word (w : Windows) (area idx : Nat) : Bool :=
  match area with
  | 4 => inWin w.d idx
  | 5 => inWin w.r idx
  | 6 => inWin w.t idx
  | 7 => inWin w.c idx
  | _ => true

/-- A DIR operand passes the WINDOW test. -/
def dirWindow (w : Windows) (c : OpClass) (area idx : Nat) : Bool :=
  match c with
  | .bitWrite => w.word area (idx / 32)
  | .tas => w.word area (idx / 32)
  | .timer => w.word 6 idx
  | .counter => w.word 7 idx
  | .wordWrite => w.word area idx
  | _ => true

/-! ### Image layout (R272 to R274) -/

/-- The windows of an engine's page. -/
def State.windows (s : State) (h : Nat) : Windows :=
  { d := (s.r LGE.DWIN_LO h, s.r LGE.DWIN_HI h), r := (s.r LGE.RWIN_LO h, s.r LGE.RWIN_HI h),
    t := (s.r LGE.TWIN_LO h, s.r LGE.TWIN_HI h), c := (s.r LGE.CWIN_LO h, s.r LGE.CWIN_HI h) }

/-- The bytes of a region of the program store. -/
def State.progBytes (s : State) (base words : Nat) : Blob :=
  ((sgets 0 s.progMem base words).flatMap (fun w => leBytes 4 w.toNat)).toArray

/-- Instruction word `i` of the code. -/
def Blob.ins (b : Blob) (i : Nat) : Nat := b.u32 (b.u32 0x0C + 4 * i)

/-- CODE_WORDS. -/
def Blob.codeWords (b : Blob) : Nat := b.u32 0x10

/-- The offset of task record `i`. -/
def Blob.taskOff (b : Blob) (i : Nat) : Nat := b.u32 0x14 + 16 * i

/-- The offset of initial-data entry `i`. -/
def Blob.initOff (b : Blob) (i : Nat) : Nat := b.u32 0x1C + 16 * i

/-- The offset of operand-use entry `i`. -/
def Blob.useOff (b : Blob) (i : Nat) : Nat := b.u32 0x24 + 8 * i

/-- IMAGE_SIZE. -/
def Blob.imgSize (b : Blob) : Nat := b.u32 0x38

/-- The kind of a task code. -/
def kindOf (k : Nat) : TaskKind := if k = 0 then .cyclic else if k = 1 then .periodic else if k = 2 then .event else .startup

/-- The code of a task kind. -/
def TaskKind.code : TaskKind → Nat
  | .cyclic => 0
  | .periodic => 1
  | .event => 2
  | .startup => 3

/-- An image as the engine holds it (R272 to R274). -/
def Blob.image (b : Blob) (base words : Nat) : ImageX :=
  { progId := BitVec.ofNat 32 (b.u32 8), base := base, words := words, codeOff := b.u32 0x0C / 4, codeWords := b.codeWords,
    tasks := (List.range (min 42 (b.u32 0x18))).map (fun i =>
      let o := b.taskOff i
      { kind := kindOf (b.u8 o), prio := b.u8 (o + 1), source := b.u16 (o + 2), entry := b.u32 (o + 4),
        periodUs := b.u32 (o + 8), phaseUs := b.u32 (o + 12) }),
    inits := (List.range (min 4096 (b.u32 0x20))).map (fun i =>
      let o := b.initOff i
      { area := bitsAt (b.u32 o) 18 4, index := b.u32 o % 2 ^ 18, flags := b.u8 (o + 6),
        vals := (List.range (b.u16 (o + 4))).map (fun k => BitVec.ofNat 32 (b.u32 (b.u32 (o + 8) + 4 * k))) }),
    uses := (List.range (min 1024 (b.u32 0x28))).map (fun i => (b.u32 (b.useOff i) % 2 ^ 22, b.u32 (b.useOff i + 4))),
    cycMinUs := b.u32 0x2C, wdUs := b.u32 0x30, bootMode := b.u8 0x34 }

/-! ### The check (R275) -/

/-- A test of an item: none when it passes, else the word offset of the failing item. -/
def fails (ok : Bool) (off : Nat) : Option Nat := if ok then none else some (off / 4)

/-- The first failure among tests. -/
def first (xs : List (Option Nat)) : Option Nat := xs.findSome? id

/-- An item starts on a 256-byte boundary and lies within IMAGE_SIZE. -/
def Blob.item (b : Blob) (fo len : Nat) : Option Nat :=
  fails (decide (len = 0) || (b.u32 fo % 256 == 0 && decide (256 ≤ b.u32 fo) && decide (b.u32 fo + len ≤ b.imgSize))) fo

/-- FORMAT. -/
def Blob.imgFormat (b : Blob) (words : Nat) : Option Nat :=
  first [fails (b.u32 0 == 0x47504C52) 0, fails (b.u16 4 == 1) 4,
    fails (b.imgSize % 256 == 0 && decide (256 ≤ b.imgSize) && decide (b.imgSize ≤ 4 * words)) 0x38,
    b.item 0x0C (4 * b.codeWords), b.item 0x14 (16 * b.u32 0x18), b.item 0x1C (16 * b.u32 0x20), b.item 0x24 (8 * b.u32 0x28)]

/-- FIELD_RANGE: what a field may hold by itself. -/
def Blob.imgFields (b : Blob) : Option Nat :=
  let rng := fun (v lo hi off : Nat) => fails (decide (lo ≤ v) && decide (v ≤ hi)) off
  first ([rng b.codeWords 1 524288 0x10, rng (b.u32 0x18) 1 42 0x18, rng (b.u32 0x20) 0 4096 0x20,
      rng (b.u32 0x28) 0 1024 0x28, rng (b.u32 0x2C) 250 1000000 0x2C, rng (b.u32 0x30) (b.u32 0x2C) 10000000 0x30,
      rng (b.u8 0x34) 0 2 0x34, fails ((List.range 192).all (fun i => b.u8 (0x3C + i) == 0)) 0x3C] ++
    (List.range (b.u32 0x18)).map (fun i =>
      let o := b.taskOff i
      fails (decide (b.u8 o ≤ 3) && decide (b.u8 (o + 1) ≤ 15) && decide (b.u16 (o + 2) ≤ 255)) o) ++
    (List.range (b.u32 0x20)).map (fun i =>
      let o := b.initOff i
      fails (decide (b.u32 o < 2 ^ 22) && decide (1 ≤ b.u16 (o + 4)) && decide (b.u16 (o + 4) ≤ 4096) && decide (b.u8 (o + 6) ≤ 7) &&
        b.u8 (o + 7) == 0 && b.u32 (o + 12) == 0) o) ++
    (List.range (b.u32 0x28)).map (fun i => fails (decide (b.u32 (b.useOff i) < 2 ^ 22)) (b.useOff i)))

/-- A test of every instruction. -/
def Blob.eachIns (b : Blob) (ok : Nat → Nat → Bool) : Option Nat :=
  ((List.range b.codeWords).find? (fun i => !ok i (b.ins i))).map (fun i => (b.u32 0x0C + 4 * i) / 4)

/-- OPCODE. -/
def opcodeOk (w : Nat) : Bool :=
  match opInfo (w / 2 ^ 24) with
  | none => false
  | some (_, modes) => if modes = 0 then w % 2 ^ 24 == 0 else modes.testBit (bitsAt w 22 2)

/-- The class of an instruction word. -/
def insClass (w : Nat) : OpClass := match opInfo (w / 2 ^ 24) with
  | some (c, _) => c
  | none => .plain

/-- The class of an instruction that has an operand address. -/
def OpClass.addressed (c : OpClass) : Bool :=
  c == .bitRead || c == .bitWrite || c == .tas || c == .timer || c == .counter || c == .word || c == .wordWrite

/-- OPERAND: a DIR operand; the pointer of IND lies in area D or R. -/
def operandOk (w : Nat) : Bool :=
  let c := insClass w
  let area := bitsAt w 18 4
  let idx := w % 2 ^ 18
  if !c.addressed then true
  else match bitsAt w 22 2 with
    | 0 => dirOk c area idx
    | 2 => (area == 4 || area == 5) && decide (idx < areaWords area)
    | _ => true

/-- WINDOW. -/
def windowOk (win : Windows) (w : Nat) : Bool :=
  bitsAt w 22 2 != 0 || dirWindow win (insClass w) (bitsAt w 18 4) (w % 2 ^ 18)

/-- The target of a jump or call at word `i`. -/
def jumpTo (i w : Nat) : Int := i + 1 + sgn 22 (w % 2 ^ 22)

/-- JUMP. -/
def jumpOk (code i w : Nat) : Bool :=
  !(insClass w == .jump || insClass w == .call) || (decide (0 ≤ jumpTo i w) && decide (jumpTo i w < code))

/-- The branch-stack depth before each instruction, or the word at which it leaves 0 to 16 (R254). -/
def depths (ws : List Nat) : List Int :=
  (ws.foldl (fun (a : List Int × Int) (w : Nat) =>
    (a.2 :: a.1, a.2 + (if insClass w == .openBr then 1 else if insClass w == .closeBr then -1 else 0))) ([], 0)).1.reverse

/-- NESTING (R254). -/
def Blob.imgNesting (b : Blob) : Option Nat :=
  let ws := (List.range b.codeWords).map b.ins
  let ds := (depths ws).toArray
  let zero := fun (i : Int) => ds.getD i.toNat 0 == 0
  let entries := (List.range (b.u32 0x18)).map (fun i => b.u32 (b.taskOff i + 4))
  first [b.eachIns (fun i w =>
      let d := ds.getD i 0 + (if insClass w == .openBr then 1 else if insClass w == .closeBr then -1 else 0)
      let c := insClass w
      decide (0 ≤ d) && decide (d ≤ 16) && (!(c == .jump || c == .call || c == .stop) || zero i) &&
      (!(c == .jump || c == .call) || zero (jumpTo i w))),
    first (entries.map (fun (e : Nat) => fails (zero e) (b.u32 0x0C + 4 * e)))]

/-- A legal period of a periodic task (R263). -/
def periodOk (p : Nat) : Bool :=
  (decide (250 ≤ p) && 1000000 % p == 0) || (decide (0 < p) && p % 1000000 == 0 && 60000000 % p == 0)

/-- TASKS (R261, R263, R273). -/
def Blob.imgTasks (b : Blob) : Option Nat :=
  let is := List.range (b.u32 0x18)
  let kind := fun (i : Nat) => b.u8 (b.taskOff i)
  let src := fun (i : Nat) => b.u16 (b.taskOff i + 2)
  let count := fun (k : Nat) => (is.filter (fun i => kind i == k)).length
  first ([fails (decide (count 0 ≤ 1) && decide (count 1 ≤ 8) && decide (count 2 ≤ 32) && decide (count 3 ≤ 1)) (b.taskOff 0)] ++
    is.map (fun i =>
      let o := b.taskOff i
      let p := b.u32 (o + 8)
      let ph := b.u32 (o + 12)
      let pr := b.u8 (o + 1)
      fails ((if kind i = 1 then decide (1 ≤ pr) && periodOk p && decide (ph < p) else pr == 0 && p == 0 && ph == 0) &&
        (if kind i = 2 then is.all (fun j => j == i || kind j != 2 || src j != src i) else src i == 0)) o))

/-- INIT (R274). -/
def Blob.imgInits (b : Blob) (win : Windows) : Option Nat :=
  first ((List.range (b.u32 0x20)).map (fun i =>
    let o := b.initOff i
    let area := bitsAt (b.u32 o) 18 4
    let idx := b.u32 o % 2 ^ 18
    let n := b.u16 (o + 4)
    let v := b.u32 (o + 8)
    fails ((area == 4 || area == 5 || area == 6 || area == 7) && decide (idx + n ≤ areaWords area) &&
      win.word area idx && win.word area (idx + n - 1) && decide (256 ≤ v) && v % 4 == 0 && decide (v + 4 * n ≤ b.imgSize)) o))

/-- The check of the image of engine `h` staged at `base` in `words` words: code and word offset (R275). -/
def State.checkImage (s : State) (h base words : Nat) : Nat × Nat :=
  let b := s.progBytes base words
  let win := s.windows h
  let room := decide (base + words ≤ 524288) && (List.range 4).all (fun q =>
    q == h || decide (s.r LGE.PROG_BASE q + s.r LGE.PROG_WORDS q ≤ base) || decide (base + words ≤ s.r LGE.PROG_BASE q) ||
    decide (s.r LGE.PROG_WORDS q = 0))
  let n := b.imgSize
  let off := up256 n
  let rest := (List.range (4 * words - off)).map (fun i => b.u8 (off + i))
  let signed := !s.policy 1 || (s.vfyCause 2 ((List.range n).map b.u8) rest (decide (off + blkSize rest ≤ 4 * words))
    (fun q => s.inForce q && decide (4 ≤ q)) s.anchorKey == 0)
  let tests : List (Nat × Option Nat) := [(0x01, b.imgFormat words),
    (0x02, fails (crc32c ((List.range 252).map b.u8) == b.u32 0xFC) 0xFC), (0x03, b.imgFields),
    (0x04, b.eachIns (fun _ w => opcodeOk w)), (0x05, b.eachIns (fun _ w => operandOk w)),
    (0x06, b.eachIns (fun _ w => windowOk win w)),
    (0x07, first [b.eachIns (jumpOk b.codeWords), first ((List.range (b.u32 0x18)).map (fun i =>
      fails (decide (b.u32 (b.taskOff i + 4) < b.codeWords)) (b.taskOff i)))]),
    (0x08, b.imgNesting), (0x09, b.imgTasks), (0x0A, b.imgInits win), (0x0B, fails room 0), (0x0C, fails signed 0)]
  match tests.findSome? (fun t => t.2.map (fun f => (t.1, f))) with
  | some r => r
  | none => (0, 0)

/-! ### Addresses that programs name (R283) -/

/-- A force (area, index, word form) meets an operand (R281, R283). -/
def meets (fa fi : Nat) (fw : Bool) (area idx : Nat) (word : Bool) : Bool :=
  areaClass fa == areaClass area &&
  (if fw then (if word then fi == idx else fi == idx / 32) else (if word then fi / 32 == idx else fi == idx))

/-- The image names the address in a DIR operand or an operand-use region. -/
def State.imageNames (s : State) (x : ImageX) (f : Force) : Bool :=
  let fa := f.addr / 2 ^ 18
  let fi := f.addr % 2 ^ 18
  (List.range x.codeWords).any (fun i =>
    let w := (sget 0 s.progMem (x.base + x.codeOff + i)).toNat
    let c := insClass w
    c.addressed && bitsAt w 22 2 == 0 && meets fa fi f.word (bitsAt w 18 4) (w % 2 ^ 18) (c == .word || c == .wordWrite)) ||
  x.uses.any (fun u =>
    let fw := if f.word then fi else fi / 32
    areaClass (u.1 / 2 ^ 18) == areaClass fa && decide (u.1 % 2 ^ 18 ≤ fw) && decide (fw < u.1 % 2 ^ 18 + u.2))

end Sys2Proof.Machine
end

