-- ==== Sys2Proof/Machine/Lge.lean ====
section
/-! DEFINITION. Logic engines: tasks, entry and exit, starts, online change, forces, reserve, retentive memory, general I/O (R243 to R295, R570). -/

namespace Sys2Proof.Machine

/-! ### Engines, programs and banks (R252, R285, R286) -/

/-- The home engine of the program that runs on physical engine `e` (R286). -/
def State.home (s : State) (e : Nat) : Nat := if s.on LGE.HOSTING e then s.r LGE.HOSTED e else e

/-- The physical engine that runs the program of home engine `h`. -/
def State.runner (s : State) (h : Nat) : Nat := (s.eng h).hostedBy.getD h

/-- The image of the program that runs on physical engine `e`. -/
def State.prog (s : State) (e : Nat) : ImageX := (s.eng (s.home e)).image

/-- The level in which an engine runs; level 0 while it is IDLE. -/
def State.level (s : State) (e : Nat) : Nat := (s.eng e).cur.getD 0

/-- The running bank of an engine. -/
def State.bank (s : State) (e : Nat) : Bank := sget {} (s.eng e).banks (s.level e)

/-- Replace a bank. -/
def State.setBankAt (s : State) (e lvl : Nat) (b : Bank) : State :=
  s.setEng e { s.eng e with banks := sset {} (s.eng e).banks lvl b }

/-- Replace the running bank. -/
def State.setBank (s : State) (e : Nat) (b : Bank) : State := s.setBankAt e (s.level e) b

/-- Payload bytes 16 to 19 of an engine's event: engine, task, cause or code (R295). -/
def State.engPay (s : State) (e code : Nat) : List Nat := [e, ((s.bank e).task).getD 0xFF] ++ leBytes 2 code

/-- RUN_STATE, CUR_PRIO and IDLE follow the engine (R262, R293). -/
def State.showEng (s : State) (e : Nat) : State :=
  match s.curPrio e with
  | some p => (s.w LGE.CUR_PRIO p e).w LGE.IDLE 0 e
  | none => (s.w LGE.CUR_PRIO 0 e).w LGE.IDLE 1 e

/-- RUN_STATE takes a value; STOPPED is raised when it becomes STOP or FAULT (R295). -/
def State.runState (s : State) (e v : Nat) : State :=
  let was := s.r LGE.RUN_STATE e
  let s := s.w LGE.RUN_STATE v e
  if (v = 0 ∨ v = 3) ∧ was ≠ v then s.raise 21 e 2 (s.engPay e v) else s

/-- A flag of STATUS is set and the error counted in the page of the program; PROG_ERR is raised (R247, R251, R254, R271, R295). -/
def State.progErr (s : State) (e : Nat) (f : Fld) (flag : Option (Fin 5)) (code : Nat) : State :=
  let h := s.home e
  let b := s.bank e
  let s := match flag with
    | some i => s.setBank e { b with status := b.status ||| (1#5 <<< i.val) }
    | none => s
  (s.inc f h).raise 21 h 4 (s.engPay e code)

/-- An address error (R251). -/
def State.addrErr (s : State) (e : Nat) : State := s.progErr e LGE.ADDR_ERRS (some 2) 1

/-- A window error (R247). -/
def State.winErr (s : State) (e : Nat) : State := s.progErr e LGE.WIN_ERRS (some 3) 2

/-! ### Pins (R290, R291) -/

/-- A 64-bit level vector from two registers. -/
def State.pins64 (s : State) (f : Fld) : Nat := s.r f 0 0 + 2 ^ 32 * s.r f 0 1

/-- Replace a 64-bit level vector. -/
def State.setPins64 (s : State) (f : Fld) (v : Nat) : State := (s.w f (v % 2 ^ 32) 0 0).w f (v / 2 ^ 32) 0 1

/-- The pins with INVERT = 1. -/
def State.invertMask (s : State) : Nat := (List.range 64).foldl (fun v n => if s.on GIO.INVERT 0 n then v + 2 ^ n else v) 0

/-- The filtered levels follow a change of the inverted pins from `old` to `new` (R291). -/
def State.turnPins (s : State) (old new : Nat) : State := s.setPins64 GIO.PIN_IN (s.pins64 GIO.PIN_IN ^^^ old ^^^ new)

/-- Pin `n` is an output of home engine `h`. -/
def State.ownPin (s : State) (h n : Nat) : Bool := s.on GIO.DIR 0 n && s.r GIO.OWNER 0 n == h

/-- The outputs of home engine `h` take FAIL_LVL: its engine is in STOP or FAULT and does not hold them, or it has not reached the first END of a start, or the GIO page is disabled (R276, R286, R291). -/
def State.pinsFail (s : State) (h : Nat) : Bool :=
  let st := s.r LGE.RUN_STATE (s.runner h)
  !s.enabled 28 || ((st == 0 || st == 3) && !(s.eng h).hold) || (s.eng h).failLvl

/-- The level that output pin `n` drives: a force prevails, then FAIL_LVL, then the level last written. A pin at HIZ and an input drive none, shown as 0 (R282, R291). -/
def State.pinLevel (s : State) (n : Nat) : Bool :=
  let latch := (s.pins64 GIO.PIN_OUT).testBit n
  if !s.on GIO.DIR 0 n then false
  else
    let v := if s.pinsFail (s.r GIO.OWNER 0 n) then
        (match s.r GIO.FAIL_LVL 0 n with
          | 0 => false
          | 1 => true
          | 2 => latch
          | _ => false)
      else latch
    (s.forceWord 1 (n / 32) (BitVec.ofNat 32 (if v then 2 ^ (n % 32) else 0))).getLsbD (n % 32)

/-- PIN_OUT word `i` as it reads. -/
def State.pinOut (s : State) (i : Nat) : Nat :=
  (List.range 32).foldl (fun v k => if s.pinLevel (32 * i + k) then v + 2 ^ k else v) 0

/-- The pins of home engine `h` take the levels of `v`; while they stand at FAIL_LVL after a start, or the GIO page is disabled, nothing changes, so that HOLD keeps the last level (R276, R291). -/
def State.drive (s : State) (h : Nat) (mask v : Nat) : State :=
  if (s.eng h).failLvl || !s.enabled 28 then s
  else
    let old := s.pins64 GIO.PIN_OUT
    s.setPins64 GIO.PIN_OUT ((List.range 64).foldl (fun x n =>
      if mask.testBit n && s.ownPin h n then putBit x n (v.testBit n) else x) old)

/-- R290, R292: the filtered level of a pin changes. The selectors raise their events. -/
def execGioInputChange (t : Nat) (pin : Fin 64) (lvl : Bool) (s : State) : Host.Outcome State Fault Refusal :=
  s.runK .field t fun s =>
    let old := s.pins64 GIO.PIN_IN
    let v := lvl != s.on GIO.INVERT 0 pin
    if s.on GIO.DIR 0 pin ∨ old.testBit pin = v then s
    else
      let s := s.setPins64 GIO.PIN_IN (putBit old pin v)
      if !s.enabled 28 then s
      else s.forN 8 fun s k =>
        let e := s.r GIO.EDGE 0 k
        if s.on GIO.SEL_EN 0 k ∧ s.r GIO.PIN 0 k = pin.val ∧ (e = 2 ∨ (e = 0 ∧ v) ∨ (e = 1 ∧ !v)) then
          s.raise 28 0 k [pin.val, v.toNat]
        else s

/-! ### Tasks (R261 to R271) -/

/-- A task of the program of an engine. -/
def State.task (s : State) (e i : Nat) : TaskRec := (s.prog e).tasks.getD i {}

/-- The level at which a task runs (R261). -/
def State.taskLevel (s : State) (e i : Nat) : Nat :=
  let x := s.task e i
  match x.kind with
  | .cyclic => 0
  | .periodic => x.prio
  | .event => s.r EIC.PRIO 0 x.source
  | .startup => 15

/-- A task starts in the bank of its level (R252, R257, R267). The accumulators keep what the bank holds. -/
def State.startTask (s : State) (e i lvl rel : Nat) (claim : Word) : State :=
  let h := s.home e
  let x := s.task e i
  let hx := s.eng h
  let first := hx.firstRun.contains i
  let old := sget {} (s.eng e).banks lvl
  let b : Bank := { old with
    pc := x.entry, status := 0, branch := [], calls := [], task := some i, prio := lvl, claim := claim,
    startInfo := if first then hx.startKind else 0, relNs := rel % 1000000000, began := s.up, wroteR := false, nsLatch := none, move := none }
  let s := s.setEng h { hx with firstRun := hx.firstRun.filter (fun k => !(k == i)) }
  let ex := s.eng e
  let frozen := match ex.cur with
    | some c => c :: ex.frozen
    | none => ex.frozen
  let s := (s.setEng e { ex with frozen := frozen, cur := some lvl, wait := none }).setBankAt e lvl b
  let s := if x.kind = .cyclic then
      let mask := (List.range 64).foldl (fun v n => if !s.on GIO.DIR 0 n && s.r GIO.OWNER 0 n == h then v + 2 ^ n else v) 0
      s.setEng e { s.eng e with cycleAt := some s.up, iImg := BitVec.ofNat 64 (s.pins64 GIO.PIN_IN &&& mask) }
    else s
  s.showEng e

/-- The better of two waiting tasks: higher level, then earlier release, then place in the table (R262). -/
def better (lvl : Nat → Nat) (a b : Nat × Nat) : Bool :=
  decide (lvl b.1 < lvl a.1) || (lvl a.1 == lvl b.1 && (decide (a.2 < b.2) || (a.2 == b.2 && decide (a.1 < b.1))))

/-- The waiting task that starts first. -/
def State.firstWaiting (s : State) (e : Nat) : Option (Nat × Nat) :=
  (s.eng e).waiting.foldl (fun (b : Option (Nat × Nat)) (x : Nat × Nat) => match b with
    | some y => if better (s.taskLevel e) x y then some x else b
    | none => some x) none

/-- A level lies above the current priority of an engine. -/
def State.aboveCur (s : State) (e lvl : Nat) : Bool :=
  match s.curPrio e with
  | none => true
  | some p => decide (p < lvl)

/-- A waiting task above the current priority starts (R262). -/
def State.runWaiting (s : State) (e : Nat) : State :=
  if !s.engineRuns e then s
  else match s.firstWaiting e with
    | some x =>
      if s.aboveCur e (s.taskLevel e x.1) then
        (s.setEng e { s.eng e with waiting := (s.eng e).waiting.erase x }).startTask e x.1 (s.taskLevel e x.1) x.2 0
      else s
    | none => s

/-- A delivered source is claimed and its task entered; the delivery is the release of the activation. A source without a task is completed at once, and a waiting task may start (R257, R262, R267, R268, R271). -/
def State.enter (s : State) (e : Nat) : State :=
  let n := s.r EIC.OFFER 0 e
  let p := s.r EIC.PRIO 0 n
  if !s.on EIC.OFFER_VALID 0 e || !s.engineRuns e || !s.aboveCur e p then s
  else
    let rel := ((s.eng e).offered.map (·.2)).getD s.now
    let s := (s.w EIC.OFFER_VALID 0 0 e).w EIC.OFFER 0 0 e
    let (s, w) := (s.setEng e { s.eng e with offered := none }).claim n e
    let ts := (s.prog e).tasks
    match (List.range ts.length).find? (fun i => (ts.getD i {}).kind == .event && (ts.getD i {}).source == n) with
    | some i => s.startTask e i p rel (BitVec.ofNat 32 w)
    | none => ((s.complete n).progErr e LGE.UNBOUND none 4).runWaiting e

/-- R267: a delivery reaches an engine. -/
def execTaskEntry (t : Nat) (e : Fin 4) (s : State) : Host.Outcome State Fault Refusal := s.runK .logic t fun s => s.enter e

/-- R263, R264: the release of a periodic task of home engine `e`, at an instant of its series. -/
def execTaskRelease (t : Nat) (e : Fin 4) (task : Nat) (s : State) : Host.Outcome State Fault Refusal :=
  s.runK .logic t fun s =>
    let p := s.runner e
    let active := ((s.eng p).cur.toList ++ (s.eng p).frozen).any (fun l => (sget {} (s.eng p).banks l).task == some task)
    let x := s.task p task
    if !s.engineRuns p ∨ x.kind ≠ .periodic ∨ (s.prog p).tasks.length ≤ task ∨ s.onSeries x.periodUs x.phaseUs = false ∨
      sget none (s.eng e).released task = some s.now then s
    else
    let s := s.setEng e { s.eng e with released := sset none (s.eng e).released task (some s.now) }
    if active || (s.eng p).waiting.any (fun x => x.1 == task) then
      let hx := s.eng e
      ((s.setEng e { hx with overruns := sset 0 hx.overruns task (min 65535 (sget 0 hx.overruns task + 1)) }).inc LGE.OVERRUNS e).raise
        21 e 3 ([p, task] ++ leBytes 2 0) [task]
    else (s.setEng p { s.eng p with waiting := (s.eng p).waiting ++ [(task, s.now)] }).runWaiting p

/-- CYC_MIN_US has passed since the start of the last free cycle of an engine (R265). -/
def State.cycleDue (s : State) (p : Nat) : Bool :=
  match (s.eng p).cycleAt with
  | none => true
  | some c => decide (c + 1000 * (s.prog p).cycMinUs ≤ s.up)

/-- R265: a free cycle starts, once the last has ended and CYC_MIN_US has passed since its start. -/
def execFreeCycleStart (t : Nat) (e : Fin 4) (s : State) : Host.Outcome State Fault Refusal :=
  s.runK .logic t fun s =>
    let p := s.runner e
    let ts := (s.prog p).tasks
    let busy := ((s.eng p).cur.toList ++ (s.eng p).frozen).contains 0
    match (List.range ts.length).find? (fun i => (ts.getD i {}).kind == .cyclic) with
    | some i =>
      if !s.engineRuns p ∨ busy ∨ s.cycleDue p = false ∨ (s.eng p).waiting.any (fun x => x.1 == i) then s
      else (s.setEng p { s.eng p with waiting := (s.eng p).waiting ++ [(i, s.now)] }).runWaiting p
    | none => s

/-! ### Memory of programs (R245 to R249, R570) -/

/-- A word of the retentive memory. -/
def State.rword (s : State) (i : Nat) : Word := sget 0 s.retMem i

/-- Write a word of the retentive memory. -/
def State.setRword (s : State) (i : Nat) (v : Word) : State :=
  { s with retMem := sset 0 s.retMem i v, pwr := { s.pwr with bad := s.pwr.bad.filter (fun b => !(b == (5, i))) } }

/-- The D word of word `k` of the record of timer `t`. -/
def timerWord (t k : Nat) : Nat := 0x3A000 + 4 * t + k

/-- The D word of word `k` of the record of counter `c`. -/
def counterWord (c k : Nat) : Nat := 0x3E000 + 4 * c + k

/-- The word that an address in area D, R, T or C names (R570). -/
def State.memWord (s : State) (area idx : Nat) : Word :=
  match area with
  | 4 => s.dword idx
  | 5 => s.rword idx
  | 6 => s.dword (timerWord idx 2)
  | _ => s.dword (counterWord idx 0)

/-- Write the word that an address in area D, R, T or C names (R570). -/
def State.setMemWord (s : State) (area idx : Nat) (v : Word) : State :=
  match area with
  | 4 => s.setDword idx v
  | 5 => s.setRword idx v
  | 6 => s.setDword (timerWord idx 2) v
  | _ => s.setDword (counterWord idx 0) v

/-- MEM_DATA as it reads (R282, R293). -/
def State.memData (s : State) (e : Nat) : Word :=
  let a := s.r LGE.MEM_ADDR e
  s.forceWord (a / 2 ^ 18) (a % 2 ^ 18) (s.memWord (a / 2 ^ 18) (a % 2 ^ 18))

/-- R247, R293: a write of MEM_DATA; a device-written word discards it. -/
def execMemDataWrite (t : Nat) (r : Requester) (e : Fin 4) (v : Word) (s : State) : Host.Outcome State Fault Refusal :=
  s.cmdK t fun s => s.pageWrite r ⟨21, e⟩ true fun s =>
    let a := s.r LGE.MEM_ADDR e
    if a / 2 ^ 18 = 4 ∧ deviceWord (a % 2 ^ 18) then s.hinc HDR.ACCESS_ERR ⟨21, e⟩
    else s.setMemWord (a / 2 ^ 18) (a % 2 ^ 18) v

/-! ### Starts (R276, R277) -/

/-- A start of a kind (0 WARM, 1 COLD, 2 ONLINE) applies an entry to this word: one inside the windows that programs may write. WARM keeps the R words, and WARM and ONLINE keep the timers and counters, but for what WARM itself clears (R247, R274, R276). -/
def initTakes (win : Windows) (kind area idx : Nat) : Bool :=
  win.word area idx &&
  (match area with
    | 4 => !deviceWord idx && (kind == 1 || decide (idx < 0x3A000))
    | 5 => kind != 0
    | _ => kind == 1)

/-- The initial-data entries with a flag are applied (R274, R276). -/
def State.applyInits (s : State) (h flag : Nat) : State :=
  ((s.eng h).image.inits.filter (fun x => x.flags.testBit flag)).foldl (fun (s : State) (x : InitRec) =>
    (x.vals.zipIdx).foldl (fun (s : State) (v : Word × Nat) =>
      if initTakes (s.windows h) flag x.area (x.index + v.2) then s.setMemWord x.area (x.index + v.2) v.1 else s) s) s

/-- The words of a table from `lo` to `hi`, but for those that `keep` names, become 0. -/
def zeroWords (m : List (Nat × Word)) (lo hi : Nat) (keep : Nat → Bool) : List (Nat × Word) :=
  m.filter (fun p => decide (p.1 < lo) || decide (hi < p.1) || keep p.1)

/-- COLD: every word of the windows becomes 0, then the COLD entries (R276). -/
def State.coldWords (s : State) (h : Nat) : State :=
  let w := s.windows h
  let d := zeroWords s.dataMem w.d.1 w.d.2 deviceWord
  let d := zeroWords d (timerWord w.t.1 0) (timerWord w.t.2 3) (fun _ => false)
  let d := zeroWords d (counterWord w.c.1 0) (counterWord w.c.2 3) (fun _ => false)
  ({ s with dataMem := d, retMem := zeroWords s.retMem w.r.1 w.r.2 (fun _ => false) }).applyInits h 1

/-- WARM: timers and counters of the windows lose their progress, then the WARM entries (R276). -/
def State.warmWords (s : State) (h : Nat) : State :=
  let w := s.windows h
  let s := (List.range (w.t.2 + 1 - w.t.1)).foldl (fun (s : State) (i : Nat) =>
    let t := w.t.1 + i
    ((s.setDword (timerWord t 0) (s.dword (timerWord t 0) &&& 3)).setDword (timerWord t 2) 0).setDword (timerWord t 3) 0) s
  let s := (List.range (w.c.2 + 1 - w.c.1)).foldl (fun (s : State) (i : Nat) =>
    (s.setDword (counterWord (w.c.1 + i) 0) 0).setDword (counterWord (w.c.1 + i) 2) 0) s
  s.applyInits h 0

/-- The activations in progress on physical engine `e` are abandoned; a claimed source is completed or delivered again (R276, R286). -/
def State.abandonTasks (s : State) (e : Nat) (again : Bool) : State :=
  let x := s.eng e
  let lvls := x.cur.toList ++ x.frozen
  let s := (List.range 256).foldl (fun (s : State) (n : Nat) =>
    if (s.src n).claimedBy = some e then (if again then s.redeliver n else s.complete n) else s) s
  let banks := lvls.foldl (fun m l => smod {} m l (fun (b : Bank) => { b with task := none, wroteR := false })) x.banks
  (s.setEng e { s.eng e with banks := banks, cur := none, frozen := [], waiting := [], wait := none }).showEng e

/-- CHG_STATE takes a value. -/
def State.chgTo (s : State) (h v : Nat) : State := s.w LGE.CHG_STATE v h

/-- Every active force that no loaded image names becomes ORPHANED (R283). -/
def State.markOrphans (s : State) : State :=
  let images := ((List.range 4).map (fun h => (s.eng h).image)).filter (fun x => x.words != 0)
  let bad := s.forces.filter (fun f => f.2.on && !f.2.orphaned && images.all (fun x => !s.imageNames x f.2))
  if bad.isEmpty then s
  else
    let s := { s with forces := bad.foldl (fun (m : List (Nat × Force)) (f : Nat × Force) => sset ({} : Force) m f.1 { f.2 with orphaned := true }) s.forces }
    let s := s.wb LGE.ORPHANED (sget ({} : Force) s.forces (s.r LGE.FORCE_IDX)).orphaned
    s.raise 21 0 10 ([0, 0xFF] ++ leBytes 2 ((bad.map (·.1)).headD 0))

/-- The Keeper begins to write the standby logic program slot: BEGIN is journalled and the target's marker erased (R280, R514). -/
def State.progBegin (s : State) : State :=
  ({ s with pwr := { s.pwr with progDirty := true, progBegin := true, progStandby := {} } }).eraseMarker (3 - s.pwr.progActive)

/-- The switch of an armed change (R279), a start of R276. -/
def State.switchImage (s : State) (h : Nat) : State :=
  match (s.eng h).newImage with
  | none => s.chgTo h 0
  | some im =>
    let old := (s.eng h).image.progId
    let p := s.runner h
    let s := s.setEng h { s.eng h with
      image := im, newImage := none, firstRun := List.range im.tasks.length, startKind := 4, overruns := [], taskMax := [], released := [] }
    let s := s.setEng p { s.eng p with waiting := [] }
    let s := (((s.w LGE.PROG_BASE im.base h).w LGE.PROG_WORDS im.words h).w LGE.PROG_ID im.progId.toNat h).applyInits h 2
    let s := ((s.progBegin.chgTo h 0).markOrphans).raise 21 h 8 ([p, 0xFF] ++ leBytes 2 4) [4]
    s.raise 21 h 6 ([p, 0xFF] ++ leBytes 2 0) (leBytes 4 old.toNat ++ leBytes 4 im.progId.toNat)

/-- An armed change switches when no task of the program is active (R279). -/
def State.trySwitch (s : State) (h : Nat) : State :=
  let x := s.eng (s.runner h)
  if s.r LGE.CHG_STATE h = 5 ∧ x.cur = none ∧ x.frozen = [] then s.switchImage h else s

/-- A program starts on its engine with a START_INFO; `cold` says which words are set (none: kept). RESTARTED is raised (R276). The engine is IDLE meanwhile, so that an armed change switches (R279). -/
def State.startProgram (s : State) (h info : Nat) (cold : Option Bool) : State :=
  let p := s.runner h
  let s := (s.abandonTasks p (info == 3)).trySwitch h
  let s := match cold with
    | some true => s.coldWords h
    | some false => s.warmWords h
    | none => s
  let n := (s.eng h).image.tasks.length
  let s := s.setEng h { s.eng h with firstRun := List.range n, startKind := info, failLvl := info != 3 || (s.eng h).failLvl, hold := false, released := [] }
  let s := s.setEng p { s.eng p with cycleAt := none }
  let st := (List.range n).find? (fun i => ((s.eng h).image.tasks.getD i {}).kind == .startup)
  let s := (s.runState p (if st.isSome then 1 else 2)).w LGE.PROG_ID (s.eng h).image.progId.toNat h
  let s := match st with
    | some i => s.startTask p i 15 s.now 0
    | none => s
  (s.raise 21 h 8 ([p, 0xFF] ++ leBytes 2 info) [info]).showEng p

/-- The program of an engine stops (R276); an armed change switches (R279). -/
def State.stopProgram (s : State) (h : Nat) : State :=
  let p := s.runner h
  ((s.abandonTasks p false).runState p 0).trySwitch h

/-- A start named in an engine's page: it acts on the hosted program where the reserve runs one. The reserve runs no program of its own, and a retired engine is never started (R285, R286, R543). -/
def State.mayStart (s : State) (h : Nat) : Bool :=
  ((s.eng h).hostedBy.isSome || !s.on LGE.IS_RESERVE h) && !((s.r KPR.ENG_RETIRED).testBit (s.runner h))

/-- R276: RESTART_CMD = WARM. -/
def execRestartWarm (t : Nat) (r : Requester) (e : Fin 4) (s : State) : Host.Outcome State Fault Refusal :=
  s.cmdK t fun s => s.pageWrite r ⟨21, e⟩ true fun s => if s.mayStart e then s.startProgram e 1 (some false) else s

/-- R276: RESTART_CMD = COLD. -/
def execRestartCold (t : Nat) (r : Requester) (e : Fin 4) (s : State) : Host.Outcome State Fault Refusal :=
  s.cmdK t fun s => s.pageWrite r ⟨21, e⟩ true fun s => if s.mayStart e then s.startProgram e 2 (some true) else s

/-- R276: RESTART_CMD = STOP. -/
def execRestartStop (t : Nat) (r : Requester) (e : Fin 4) (s : State) : Host.Outcome State Fault Refusal :=
  s.cmdK t fun s => s.pageWrite r ⟨21, e⟩ true fun s => s.stopProgram e

/-! ### Online change (R278 to R280, R283) -/

/-- R278: CHG_CMD = COPY. -/
def execChgCopy (t : Nat) (r : Requester) (e : Fin 4) (s : State) : Host.Outcome State Fault Refusal :=
  s.cmdK t fun s => s.pageWrite r ⟨21, e⟩ true fun s => if s.r LGE.CHG_STATE e = 0 then s.chgTo e 1 else s

/-- Words of general SRAM. -/
def State.genWords (s : State) (a n : Nat) : List Word :=
  (List.range n).map (fun i => BitVec.ofNat 32 (leVal (s.gen (a + 4 * i) 4)))

/-- R278: the copy to the program store completes. A copy into the staged region of another engine returns that one to EMPTY. -/
def execChgCopyDone (t : Nat) (e : Fin 4) (s : State) : Host.Outcome State Fault Refusal :=
  s.runK .logic t fun s =>
    if s.r LGE.CHG_STATE e ≠ 1 then s
    else
      let dst := s.r LGE.LOAD_DST e
      let n := min (s.r LGE.LOAD_WORDS e) (524288 - dst)
      let s := { s with progMem := ssets 0 s.progMem dst (s.genWords (s.r LGE.LOAD_SRC e) n) }
      let s := s.forN 4 fun s h =>
        let d := s.r LGE.LOAD_DST h
        if h ≠ e.val ∧ dst < d + s.r LGE.LOAD_WORDS h ∧ d < dst + n then
          (s.chgTo h 0).setEng h { s.eng h with newImage := none }
        else s
      s.chgTo e 2

/-- R278: CHG_CMD = CHECK. -/
def execChgCheck (t : Nat) (r : Requester) (e : Fin 4) (s : State) : Host.Outcome State Fault Refusal :=
  s.cmdK t fun s => s.pageWrite r ⟨21, e⟩ true fun s => if s.r LGE.CHG_STATE e = 2 then s.chgTo e 3 else s

/-- R275, R278: the check of the staged image completes. -/
def execChgCheckDone (t : Nat) (e : Fin 4) (s : State) : Host.Outcome State Fault Refusal :=
  s.runK .logic t fun s =>
    if s.r LGE.CHG_STATE e ≠ 3 then s
    else
      let base := s.r LGE.LOAD_DST e
      let n := s.r LGE.LOAD_WORDS e
      let (code, off) := s.checkImage e base n
      let s := (s.w LGE.CHG_CODE code e).w LGE.CHG_OFFSET off e
      if code = 0 then
        (s.setEng e { s.eng e with newImage := some ((s.progBytes base n).image base n) }).chgTo e 4
      else (s.chgTo e 0).raise 21 e 7 ([s.runner e, 0xFF] ++ leBytes 2 code) ([code] ++ leBytes 4 off)

/-- R278, R279: CHG_CMD = ARM; an engine that is IDLE or in STOP switches at once. -/
def execChgArm (t : Nat) (r : Requester) (e : Fin 4) (s : State) : Host.Outcome State Fault Refusal :=
  s.cmdK t fun s => s.pageWrite r ⟨21, e⟩ true fun s =>
    if s.r LGE.CHG_STATE e = 4 then (s.chgTo e 5).trySwitch e else s

/-- R278: CHG_CMD = DISARM. -/
def execChgDisarm (t : Nat) (r : Requester) (e : Fin 4) (s : State) : Host.Outcome State Fault Refusal :=
  s.cmdK t fun s => s.pageWrite r ⟨21, e⟩ true fun s => if s.r LGE.CHG_STATE e = 5 then s.chgTo e 4 else s

/-- CHG_STATE returns to EMPTY. -/
def State.chgClear (s : State) (h : Nat) : State := (s.chgTo h 0).setEng h { s.eng h with newImage := none }

/-- R278: CHG_CMD = CLEAR. -/
def execChgClear (t : Nat) (r : Requester) (e : Fin 4) (s : State) : Host.Outcome State Fault Refusal :=
  s.cmdK t fun s => s.pageWrite r ⟨21, e⟩ true fun s => s.chgClear e

/-- R278: a write of LOAD_DST or LOAD_WORDS, or inside the staged region, returns CHG_STATE to EMPTY. -/
def execChgRegionWrite (t : Nat) (r : Requester) (e : Fin 4) (reg : ChgReg) (v : Word) (s : State) :
    Host.Outcome State Fault Refusal :=
  s.cmdK t fun s =>
    match reg with
    | .region => s.chgClear e
    | .loadDst => s.pageWrite r ⟨21, e⟩ true fun s => (s.take LGE.LOAD_DST (v.toNat % 2 ^ 19) e 0).chgClear e
    | .loadWords => s.pageWrite r ⟨21, e⟩ true fun s => (s.take LGE.LOAD_WORDS (v.toNat % 2 ^ 20) e 0).chgClear e

/-- R280, R514: the Keeper has written the program store into the standby logic program slot and commits it as the active one, with a marker one above the other slot's on every device in OK state. With none in that state nothing is written. -/
def execProgSlotCommitted (t : Nat) (s : State) : Host.Outcome State Fault Refusal :=
  s.runK .keep t fun s =>
    if !s.pwr.progDirty || !s.mramOk then s
    else
      let g := 1 - s.pwr.progActive
      let p := s.pwr
      ({ s with
        pwr := { p with progDirty := false, progBegin := false, progActive := g, progSlot := s.progMem,
                        progImages := (List.range 4).map (fun h => (h, (s.eng h).image)),
                        progStandby := { words := p.progSlot, images := p.progImages } } }).commitMarker (2 + g)

/-! ### Exit (R269) -/

/-- The activation of a bank ends: completion, times, the Q image of a free cycle (R265, R269, R293). -/
def State.finishTask (s : State) (e lvl : Nat) : State :=
  let h := s.home e
  let b := sget {} (s.eng e).banks lvl
  match b.task with
  | none => s
  | some i =>
    let us := (s.up - b.began) / 1000
    let hx := s.eng h
    let s := s.setEng h { hx with taskMax := sset 0 hx.taskMax i (max (sget 0 hx.taskMax i) us) }
    let kind := (s.task e i).kind
    let s := if kind = .event then s.complete (b.claim.toNat % 256) else s
    let s := if kind = .startup ∧ s.r LGE.RUN_STATE e = 1 then s.w LGE.RUN_STATE 2 e else s
    if kind = .cyclic then
      let cyc := (s.up - (s.eng e).cycleAt.getD s.up) / 1000
      let s := (s.w LGE.CYCLE_LAST_US (min (2 ^ 32 - 1) cyc) h).w LGE.CYCLE_MAX_US (max (s.r LGE.CYCLE_MAX_US h) (min (2 ^ 32 - 1) cyc)) h
      let s := s.setEng h { s.eng h with failLvl := false }
      s.drive h (2 ^ 64 - 1) (s.eng e).qImg.toNat
    else s

/-- END: the activation ends; a pending delivery or a waiting task, the one released first at equal priority and the waiting one at one instant, above the highest preempted level is entered, else that level resumes or the engine is IDLE (R262, R269, R279). -/
def State.endTask (s : State) (e : Nat) : State :=
  let lvl := s.level e
  let s := s.finishTask e lvl
  let b := sget {} (s.eng e).banks lvl
  let s := s.setBankAt e lvl { b with task := none, prio := lvl, wroteR := false, claim := 0 }
  let x := s.eng e
  let s := (s.setEng e { x with cur := x.frozen.head?, frozen := x.frozen.drop 1, wait := none }).showEng e
  let s := s.trySwitch (s.home e)
  let offer := if s.on EIC.OFFER_VALID 0 e then some (s.r EIC.PRIO 0 (s.r EIC.OFFER 0 e)) else none
  let at_ := ((s.eng e).offered.map (·.2)).getD s.now
  let wait := (s.firstWaiting e).map (fun w => (s.taskLevel e w.1, w.2))
  match offer, wait with
  | some p, some (q, rel) => if q < p ∨ (q = p ∧ at_ < rel) then s.enter e else s.runWaiting e
  | some _, none => s.enter e
  | none, _ => s.runWaiting e

/-! ### Failure and reserve (R59, R285 to R287, R543) -/

/-- RESERVE names an engine, or none. The reserve runs no program of its own: one that runs there stops (R285). -/
def State.setReserve (s : State) (q : Nat) : State :=
  let s := s.w LGE.RESERVE q
  let s := s.forN 4 fun s e => s.wb LGE.IS_RESERVE (e == q) e
  if q < 4 ∧ s.on LGE.HOSTING q = false ∧ s.r LGE.RUN_STATE q ≠ 0 then s.stopProgram q else s

/-- A physical engine stops at once with its outputs held; the reserve takes the program that runs there over, or it stays in FAULT. A reserve that fails is reserve no longer (R286, assumption 142). -/
def State.failEngine (s : State) (e : Nat) : State :=
  let h := s.home e
  let q := s.r LGE.RESERVE 0
  let free := decide (q < 4) && q != e && s.on LGE.IS_RESERVE q && !s.on LGE.HOSTING q
  let s := s.when (q == e && !s.on LGE.HOSTING e) (fun s => s.setReserve 4)
  let s := (s.abandonTasks e true).runState e 3
  if free then
    let s := s.w LGE.HOSTING 0 e
    let s := s.setEng h { s.eng h with hostedBy := some q, hold := true }
    let s := s.setEng e { s.eng e with testing := true }
    let s := (s.w LGE.HOSTING 1 q).w LGE.HOSTED h q
    let qImg := (s.eng e).qImg
    let s := s.setEng q { s.eng q with qImg := qImg, iImg := (s.eng e).iImg }
    let pgs := (List.range 29).flatMap (fun c => (List.range (instances c)).map (fun i => (Page.mk c i)))
    let s := pgs.foldl (fun (s : State) (pg : Page) =>
      if s.h HDR.OWNER pg = ownerCode (.engine (Fin.ofNat 4 e)) then s.setOwner pg (ownerCode (.engine (Fin.ofNat 4 q))) else s) s
    let s := s.startProgram h 3 none
    (s.raise 21 e 1 ([e, 0xFF] ++ leBytes 2 q)).raise 21 q 1 ([q, 0xFF] ++ leBytes 2 h)
  else s

/-- R266, R286: an activation has exceeded WD_US. -/
def execWatchdog (t : Nat) (e : Fin 4) (s : State) : Host.Outcome State Fault Refusal :=
  s.runK .logic t fun s =>
    let x := s.eng e
    let late := (x.cur.toList ++ x.frozen).find? (fun l =>
      decide ((sget {} x.banks l).began + 1000 * (s.prog e).wdUs < s.up) && (sget {} x.banks l).task.isSome)
    match late with
    | none => s
    | some l => (s.raise 21 e 0 ([e.val, ((sget {} x.banks l).task).getD 0xFF] ++ leBytes 2 0)).failEngine e

/-- The word of the program store that engine `e` fetches. -/
def State.fetchAt (s : State) (e : Nat) : Nat := (s.prog e).base + (s.prog e).codeOff + (s.bank e).pc

/-- The Keeper rewrites the program word that engine `e` fetches from the active slot (R286). -/
def State.reloadProg (s : State) (e : Nat) : State :=
  { s with progMem := sset 0 s.progMem (s.fetchAt e) (sget 0 s.pwr.progSlot (s.fetchAt e)) }

/-- R286: an engine fails. The Keeper rewrites a failed program word from the active slot. -/
def execEngineFail (t : Nat) (e : Fin 4) (cause : EngineFault) (s : State) : Host.Outcome State Fault Refusal :=
  s.runK .logic t fun s => match cause with
    | .progError => (s.reloadProg e).failEngine e
    | .bankError => s.failEngine e
    | .selfTest => s.failEngine e

/-- R287, R543: the test of a failed engine ends. -/
def execEngineTestDone (t : Nat) (e : Fin 4) (pass : Bool) (s : State) : Host.Outcome State Fault Refusal :=
  s.runK .keep t fun s =>
    if !(s.eng e).testing then s
    else
      let s := s.setEng e { s.eng e with testing := false }
      if pass then
        let s := s.runState e 0
        if s.on LGE.REARM 0 then s.setReserve e else s
      else
        let s := (s.w KPR.ENG_RETIRED (putBit (s.r KPR.ENG_RETIRED) e true)).writeRec 0x432 [e.val, 1]
        let s := if s.r LGE.RESERVE 0 = e.val then s.setReserve 4 else s
        s.raise 1 0 1 ([2] ++ leBytes 2 e.val ++ [0])

/-! ### Forces (R281 to R284) -/

/-- The record and the event of a commit or an end: address, value, requester (R284). -/
def State.forceRec (s : State) (f : Force) (r : Requester) (began : Bool) : State :=
  s.raise 21 0 9 ([0, 0xFF] ++ leBytes 2 began.toNat)
    (leBytes 4 (f.addr + (if f.word then 2 ^ 22 else 0)) ++ leBytes 4 f.val.toNat ++ [ownerCode r, began.toNat])

/-- FORCES_ACTIVE and the window follow the force table (R293). -/
def State.showForces (s : State) : State :=
  let f := sget {} s.forces (s.r LGE.FORCE_IDX)
  (((((s.w LGE.FORCES_ACTIVE s.activeForces.length).w LGE.FORCE_ADDR f.addr).wb LGE.FORCE_KIND f.word).w LGE.FORCE_VAL f.val.toNat).wb
    LGE.FORCE_ON f.on).wb LGE.ORPHANED f.orphaned

/-- A force ends (R284). -/
def State.endForce (s : State) (i : Nat) (r : Requester) : State :=
  let f := sget {} s.forces i
  if f.on then ({ s with forces := sset {} s.forces i { f with on := false, orphaned := false } }).forceRec f r false else s

/-- The entry addressed is committed: an older active entry with the same address and kind ends. A force at another address that the same entry held ends first, as by FORCE_ON = 0 (R281, R284, assumption 143). -/
def State.commitForce (s : State) (r : Requester) : State :=
  let i := s.r LGE.FORCE_IDX
  let f : Force := { addr := s.r LGE.FORCE_ADDR, word := s.on LGE.FORCE_KIND, val := BitVec.ofNat 32 (s.r LGE.FORCE_VAL), on := true }
  let older := s.forces.filter (fun x => x.1 != i && x.2.on && x.2.addr == f.addr && x.2.word == f.word)
  let was := sget {} s.forces i
  let s := if was.addr = f.addr ∧ was.word = f.word then s else s.endForce i r
  let s := ({ s with forces := sset {} s.forces i f }).forceRec f r true
  older.foldl (fun (s : State) (x : Nat × Force) => s.endForce x.1 r) s

/-- R281, R284: a write of FORCE_ON. -/
def execForceOnWrite (t : Nat) (r : Requester) (on : Bool) (s : State) : Host.Outcome State Fault Refusal :=
  s.cmdK t fun s => s.pageWrite r ⟨21, 0⟩ true fun s =>
    if !s.lockOpen ⟨21, 0⟩ then s.lockViol ⟨21, 0⟩ (s.on LGE.FORCE_ON != on)
    else if on then (s.commitForce r).showForces else (s.endForce (s.r LGE.FORCE_IDX) r).showForces

/-- R284: FORCE_CLR_ALL ends every force. -/
def execForceClrAll (t : Nat) (r : Requester) (s : State) : Host.Outcome State Fault Refusal :=
  s.cmdK t fun s => s.pageWrite r ⟨21, 0⟩ true fun s =>
    if !s.lockOpen ⟨21, 0⟩ then s.lockViol ⟨21, 0⟩ true
    else ((s.forces.map (·.1)).foldl (fun (s : State) (i : Nat) => s.endForce i r) s).showForces

/-! ### Retentive memory and counters (R288, R293) -/

/-- The bytes of the retentive memory, in word order. -/
def retBytes (m : List (Nat × Word)) : List Nat := (sgets 0 m 0 16384).flatMap (fun w => leBytes 4 w.toNat)

/-- A copy passes its CRC (R288, R289). -/
def RetCopy.ok (c : RetCopy) : Bool := crc32c (retBytes c.words) == c.crc

/-- The retentive words are captured into the copy not written last; a capture that no device takes raises RET_LOST (R288). -/
def State.capture (s : State) : State :=
  if s.r PST.DEV0_STATE ≠ 1 ∧ s.r PST.DEV1_STATE ≠ 1 then s.raise 21 0 11 ([0, 0xFF] ++ leBytes 2 1)
  else
    let n := (s.r LGE.RET_SEQ + 1) % 2 ^ 32
    let s := s.w LGE.RET_SEQ n
    let c : RetCopy := { seq := n, words := s.retMem, crc := crc32c (retBytes s.retMem) }
    { s with pwr := { s.pwr with retCopies := c :: s.pwr.retCopies.take 1, retLast := s.up } }

/-- R288: the capture of the retentive words, once RET_PERIOD_MS has passed and no activation that has written an R word is active. -/
def execRetCapture (t : Nat) (s : State) : Host.Outcome State Fault Refusal :=
  s.runK .logic t fun s =>
    let busy := (List.range 4).any (fun e =>
      ((s.eng e).cur.toList ++ (s.eng e).frozen).any (fun l => (sget {} (s.eng e).banks l).wroteR))
    if busy || decide (s.up < s.pwr.retLast + 1000000 * s.r LGE.RET_PERIOD_MS) then s
    else s.capture

/-- R293: CTR_CLR of an engine's page. -/
def execLgeCtrClr (t : Nat) (r : Requester) (e : Fin 4) (s : State) : Host.Outcome State Fault Refusal :=
  s.cmdK t fun s => s.pageWrite r ⟨21, e⟩ true fun s =>
    let s := [LGE.CYCLE_LAST_US, LGE.CYCLE_MAX_US, LGE.OVERRUNS, LGE.ADDR_ERRS, LGE.WIN_ERRS, LGE.CALL_ERRS, LGE.UNBOUND].foldl
      (fun s f => s.w f 0 e) s
    s.setEng e { s.eng e with overruns := [], taskMax := [] }

end Sys2Proof.Machine
end

