-- ==== Sys2Proof/Machine/Tmk.lean ====
section
/-! DEFINITION. The timekeeper: time base, references, servo, steps, PTP, pulse outputs and captures (R373 to R396). -/

namespace Sys2Proof.Machine

/-- Payload bytes of the events that carry STATE and REF_NOW (R396). -/
def State.tmkPay (s : State) : List Nat := [s.r TMK.STATE, s.r TMK.REF_NOW]

/-- Update the timekeeper's record. -/
def State.setTmk (s : State) (f : TmkX → TmkX) : State := { s with tmk := f s.tmk }

/-- The least instant `start + n * period` at or after `t`. -/
def seriesAt (start period t : Nat) : Nat :=
  if t ≤ start then start else start + (t - start + period - 1) / period * period

/-- The record of a pulse output. -/
def State.outX (s : State) (o : Nat) : OutX := sget {} s.tmk.outs o

/-- Replace the record of a pulse output. -/
def State.setOut (s : State) (o : Nat) (x : OutX) : State := s.setTmk (fun k => { k with outs := sset {} k.outs o x })

/-- What a step of the time base does to a pulse output: a pulse ends, a periodic output goes on at its first instant at or after the new time, a single pulse that a forward step passes over is MISSED (R392). -/
def State.stepOut (s : State) (o : Nat) : State :=
  let x := s.outX o
  let st := s.r TMK.OUT_STATE 0 o
  if st = 1 ∨ st = 2 then
    if x.mode = 2 then s.setOut o { x with high := false, next := seriesAt x.start x.period s.now }
    else if x.high then (s.setOut o { x with high := false }).w TMK.OUT_STATE 3 0 o
    else if x.next < s.now then
      (s.w TMK.OUT_STATE 4 0 o).raise 8 0 17 s.tmkPay
    else s
  else s

/-- A step of the time base moves the output instants of the loops, which are durations from their samples; a loop resumes at its first sample instant at or after the new time (R180, assumption 137). -/
def State.stepLoops (s : State) (moved : Nat → Nat) : State :=
  let job := fun (j : UpdJob) => { j with base := moved j.base }
  { s with
    routed := []
    loops := sall {} s.loops (fun x => { x with outs := x.outs.map (fun o => (moved o.1, o.2)), sampled := none })
    clusters := sall {} s.clusters (fun x =>
      { x with queue := x.queue.map job, running := x.running.map job, tune := { x.tune with lastSwitch := moved x.tune.lastSwitch } }) }

/-- A step of the time base moves the stamps from which MFE and ACT measure durations: the ages of values, the conversion in progress, the pulse edges, the staged duties and the trip clears (assumption 141); a running PWM period completes at full length, and the next starts at a period start after it (R231). -/
def State.stepField (s : State) (moved : Nat → Nat) : State :=
  let tick := fun (k : Nat) => 4 * moved (k / 4) + k % 4
  { s with
    sd := sall {} s.sd (fun x => { x with valueAt := x.valueAt.map moved })
    sar := { s.sar with convAt := moved s.sar.convAt, valueAt := s.sar.valueAt.map (fun p => (p.1, moved p.2)) }
    pulse := sall {} s.pulse (fun x => { x with tRef := x.tRef.map moved, tLast := moved x.tLast })
    pwm := sall {} s.pwm (fun x => { x with
      staged := x.staged.map (fun d => (moved d.1, d.2)), clearAt := moved x.clearAt, startAt := x.startAt.map tick,
      busy := x.startAt.map (fun k => tick k + x.period) }) }

/-- A step of the time base: a release instant may recur (R263, R386), and a Pdelay exchange keeps its duration. -/
def State.stepRest (s : State) (moved : Nat → Nat) : State :=
  ({ s with engines := sall {} s.engines (fun x => { x with released := [] }) }).setTmk
    (fun k => { k with pdReq := k.pdReq.map (fun (p : Nat × Nat) => (p.1, moved p.2)) })

/-- A step of the time base by `d`, in ns × 2^16 (R386): compensated time stays; the last pulse keeps its distance; a station cycle is cut (R301); the descriptor windows of the period, which are durations, keep theirs (assumption 130). -/
def State.stepBy (s : State) (d : Int) (cause : Nat) : State :=
  let old := s.now
  let total : Int := (s.now : Int) * 2 ^ 40 + s.frac.toNat + d * 2 ^ 24
  let s := { s with now := (total / 2 ^ 40).toNat, frac := BitVec.ofInt 40 total }
  let ns : Int := (s.now : Int) - old
  let s := s.setTmk (fun k => { k with lastPulse := k.lastPulse.map (fun p => ((p : Int) + ns).toNat) })
  let s := { s with sxe := { s.sxe with cut := true, outQ := [] } }
  let moved := fun (p : Nat) => ((p : Int) + ns).toNat
  let win := fun (r : RunX) => { r with opened := moved r.opened, closes := moved r.closes, endAt := moved r.endAt }
  let s := { s with dsq := { s.dsq with nextOpen := moved s.dsq.nextOpen, run := s.dsq.run.map win } }
  let s := (((s.stepLoops moved).stepField moved).stepRest moved).forN 4 State.stepOut
  s.raise 8 0 2 (leBytes 8 (bits 64 ns) ++ [cause])

/-- A rate correction bounded by ADJ_LIM (R374, R382). -/
def State.rateClamp (s : State) (x : Int) : Int := clampI (-(s.r TMK.ADJ_LIM : Int)) (s.r TMK.ADJ_LIM) x

/-- ADJ takes F: FREE and HOLDOVER (R383). -/
def State.adjToF (s : State) : State := s.wi TMK.ADJ_NOW (s.ri TMK.F_NOW)

/-- Entry to FREE (R383). -/
def State.toFree (s : State) : State :=
  let s := ((((s.w TMK.STATE 0).w TMK.REF_NOW 0).w TMK.CLASS 248).w TMK.ACCURACY 0xFE).w TMK.TSOURCE
    (if s.tmk.hostSet then 0x60 else 0xA0)
  (s.setTmk (fun k => { k with traceable := false, lockRun := 0 })).adjToF

/-- Entry to HOLDOVER; HOLD_S goes on from the value it has, which LOCKED returns to 0 (R383). -/
def State.toHoldover (s : State) : State :=
  let fine := s.r TMK.HOLD_S ≤ s.r TMK.HOLD_CLASS_S
  let s := (((s.w TMK.STATE 3).w TMK.REF_NOW 0).w TMK.CLASS (if fine then 7 else 187)).w TMK.ACCURACY (if fine then 0x21 else 0xFE)
  let start := s.ct - 1000000000 * s.r TMK.HOLD_S
  (s.setTmk (fun k => { k with holdAt := start, lockRun := 0, traceable := fine })).adjToF

/-- HOLD_S: the whole seconds in HOLDOVER (R383). -/
def State.holdS (s : State) : Nat :=
  if s.r TMK.STATE = 3 then (s.ct - s.tmk.holdAt) / 1000000000 else s.r TMK.HOLD_S

/-- The servo of R382 on an offset `e` in ns × 2^16. -/
def State.servo (s : State) (e : Int) : State :=
  if s.on TMK.STEP_EN ∧ (s.r TMK.STEP_NS : Int) * 65536 < |e| then
    if s.r TMK.STEP_COUNT ≤ s.r TMK.STEP_RUN + 1 then
      (s.w TMK.STEP_RUN 0).setTmk (fun k => { k with pendingStep := some (-e) })
    else s.w TMK.STEP_RUN (s.r TMK.STEP_RUN + 1)
  else
    let s := s.w TMK.STEP_RUN 0
    let u := e * 72057594 / 2 ^ 32
    let f := s.rateClamp (s.ri TMK.F_NOW - (s.r TMK.KI : Int) * u / 65536)
    let s := s.wi TMK.F_NOW f
    s.wi TMK.ADJ_NOW (s.rateClamp (f - (s.r TMK.KP : Int) * u / 65536))

/-- Class, accuracy and time source that LOCKED shows: the reference's (R383). -/
def State.lockQuality (s : State) (ref : Nat) (cls ts : Nat) : State :=
  let s := (s.w TMK.CLASS (if ref = 1 then 6 else cls)).w TMK.ACCURACY 0x21
  s.w TMK.TSOURCE (if ref = 1 then 0x20 else ts)

/-- An offset of the reference in use: state changes of R383, then the servo. `cls` and `ts` are the class and time source of the chain's time master. -/
def State.offset (s : State) (ref : Nat) (e : Int) (cls ts : Nat) : State :=
  let s := (s.wi TMK.OFFSET_LAST (clampI (-(2 ^ 31)) (2 ^ 31 - 1) (e / 65536))).w TMK.REF_NOW ref
  let now := s.up
  let s := s.setTmk (fun k => { k with misses := 0, refAt := now })
  let st := s.r TMK.STATE
  let s := if st = 0 ∨ st = 3 then
      ((s.w TMK.HOLD_S s.holdS).w TMK.STATE 1).raise 8 0 1 [1, ref]
    else s
  let s := s.servo e
  let run := if |e| ≤ (s.r TMK.LOCK_NS : Int) * 65536 then s.tmk.lockRun + 1 else 0
  let s := s.setTmk (fun k => { k with lockRun := run })
  if s.r TMK.STATE = 1 ∧ s.r TMK.LOCK_COUNT ≤ run then
    let s := ((s.w TMK.STATE 2).w TMK.HOLD_S 0).lockQuality ref cls ts
    (s.setTmk (fun k => { k with everLocked := true, traceable := true })).raise 8 0 12 [2, ref]
  else s

/-- A reference last heard at `at_` has not missed MISS_LIMIT seconds (R381). -/
def State.heard (s : State) (at_ : Nat) : Bool := decide (s.up < at_ + 1000000000 * s.r TMK.MISS_LIMIT + 2000000)

/-- GNSS is valid (R381). -/
def State.gnssValid (s : State) : Bool := s.tmk.gnssOk && s.heard s.tmk.gnssAt

/-- The chain reference is valid (R381). -/
def State.chainValid (s : State) : Bool := s.tmk.chainOk && s.heard s.tmk.chainAt

/-- Which reference an offset may feed: REF_MODE, and AUTO's preference for GNSS (R381). -/
def State.useGnss (s : State) : Bool :=
  match s.r TMK.REF_MODE with
  | 2 => true
  | 1 => s.r TMK.REF_NOW != 2 || !s.chainValid || decide (s.r TMK.REVERT_S ≤ s.tmk.validRun)
  | _ => false

/-- Whether a chain offset is the reference in use (R381). -/
def State.useChain (s : State) : Bool :=
  match s.r TMK.REF_MODE with
  | 3 => true
  | 1 => !s.gnssValid || s.r TMK.REF_NOW == 2
  | _ => false

/-- The chain reference delivers an offset (R380). -/
def State.chainOffset (s : State) (e : Int) (cls ts : Nat) : State :=
  let now := s.up
  let s := s.setTmk (fun k => { k with chainOk := true, chainAt := now })
  if s.useChain then s.offset 2 e cls ts else s

/-- The 48 bits of TOD_SEC. -/
def State.todSec (s : State) : Nat := s.r TMK.TOD_SEC_LO + 2 ^ 32 * s.r TMK.TOD_SEC_HI

/-- The label that the pulse now seen carries (R379). -/
def State.pulseLabel (s : State) : Option Nat :=
  if s.r TMK.TOD_SRC = 1 then some s.todSec else s.tmk.nextLabel

/-- After each pulse, TOD_SEC advances under TOD_SRC = REG, and the label is used up (R379). -/
def State.afterPulse (s : State) (label : Option Nat) : State :=
  let s := if s.r TMK.TOD_SRC = 1 then
      (s.w TMK.TOD_SEC_LO (s.todSec + 1)).w TMK.TOD_SEC_HI ((s.todSec + 1) / 2 ^ 32)
    else s
  s.setTmk (fun k => { k with prevLabel := label, nextLabel := none })

/-- R378, R381, R382: a pulse of GNSS_PPS. An edge before 1 s − 10 µs is rejected and leaves the test where it stands (R394). -/
def State.gnssPulse (s : State) : State :=
  let tau : Int := (s.now : Int) - s.ri TMK.PPS_DELAY_NS
  match s.tmk.lastPulse with
  | none => (s.setTmk (fun k => { k with lastPulse := some tau.toNat })).afterPulse s.pulseLabel
  | some p =>
    let gap := tau - (p : Int)
    if gap < 1000000000 - 10000 then s.inc TMK.PPS_REJECTS
    else
      let label := s.pulseLabel
      let s := (s.setTmk (fun k => { k with lastPulse := some tau.toNat })).afterPulse label
      match label with
      | some l =>
        if gap ≤ 1000000000 + 10000 then
          let now := s.up
          let s := s.setTmk (fun k => { k with validRun := k.validRun + 1, gnssOk := true, gnssAt := now })
          if s.useGnss then s.offset 1 ((tau - (l : Int) * 1000000000) * 65536 + (s.frac.toNat / 2 ^ 24 : Nat)) 0 0 else s
        else (s.inc TMK.PPS_REJECTS).setTmk (fun k => { k with validRun := 0 })
      | none => (s.inc TMK.PPS_REJECTS).setTmk (fun k => { k with validRun := 0 })

/-- R378: an edge of GNSS_PPS. -/
def execGnssPulse (t : Nat) (s : State) : Host.Outcome State Fault Refusal := s.runK .time t State.gnssPulse

/-- The date and time of a sentence after the clamp of R402, and how many of its fields the clamp changed. Seconds 60 pass only while LEAP61 = 1 (R379). -/
def zdaClamp (leap : Bool) (z : Zda) : Zda × Nat :=
  let y := max 2000 (min z.year 2399)
  let mo := max 1 (min z.month 12)
  let d := max 1 (min z.day (monthDays y mo))
  let h := min z.hour 23
  let mi := min z.min 59
  let se := min z.sec (if leap then 60 else 59)
  let z' := { z with year := y, month := mo, day := d, hour := h, min := mi, sec := se }
  (z', (y != z.year).toNat + (mo != z.month).toNat + (d != z.day).toNat + (h != z.hour).toNat +
    (mi != z.min).toNat + (se != z.sec).toNat)

/-- A label is used only when it lies 1 s after the label before it (R379). -/
def State.takeLabel (s : State) (l : Nat) : State :=
  s.setTmk fun k =>
    if s.r TMK.TOD_LABEL = 0 then
      match k.prevLabel with
      | some x => if l = x then { k with nextLabel := some (l + 1) } else { k with prevLabel := none, nextLabel := none }
      | none => { k with prevLabel := some l, nextLabel := some (l + 1) }
    else
      match k.prevLabel with
      | some x => if l = x + 1 then { k with nextLabel := some l } else { k with nextLabel := none }
      | none => { k with nextLabel := some l }

/-- R379: a complete ZDA sentence. With TOD_LABEL = PREV it labels the pulse before it, and with it the pulse that follows by 1 s (assumption 11). -/
def execTodSentence (t : Nat) (z : Zda) (s : State) : Host.Outcome State Fault Refusal :=
  s.runK .time t fun s =>
    if s.r TMK.TOD_SRC = 1 then s
    else if !z.ok then (s.inc TMK.TOD_ERRS).raise 8 0 14 s.tmkPay
    else
      let c := zdaClamp (s.on TMK.LEAP61) z
      let s := s.clampData ⟨8, 0⟩ c.2
      let l := utcSeconds c.1.year c.1.month c.1.day c.1.hour c.1.min c.1.sec + s.r TMK.UTC_OFFSET
      match s.tmk.lastPulse with
      | none => s
      | some p => if p + 10000000 ≤ s.now ∧ s.now ≤ p + 990000000 then s.takeLabel l else s

/-- The reference in use is lost (R381, R383): AUTO falls back to a valid chain reference. -/
def State.refLost (s : State) : State :=
  let was := s.r TMK.REF_NOW
  let now := s.up
  let s := (s.w TMK.STEP_RUN 0).setTmk fun k =>
    { k with misses := 0, refAt := now, lockRun := 0, gnssOk := k.gnssOk && was != 1, chainOk := k.chainOk && was != 2,
             validRun := if was = 1 then 0 else k.validRun, prevLabel := if was = 1 then none else k.prevLabel,
             nextLabel := if was = 1 then none else k.nextLabel }
  let s := if s.r TMK.REF_MODE = 1 ∧ was = 1 ∧ s.chainValid then s.w TMK.REF_NOW 2
    else if s.r TMK.STATE = 2 ∨ (s.r TMK.STATE = 1 ∧ s.tmk.everLocked) then s.toHoldover
    else if s.r TMK.STATE = 1 then s.toFree
    else s.w TMK.REF_NOW 0
  s.raise 8 0 0 s.tmkPay

/-- R381: the reference misses one second: nothing has come within 1 s + 2 ms of the last offset, or within a second more for each miss so far. -/
def execRefMiss (t : Nat) (s : State) : Host.Outcome State Fault Refusal :=
  s.runK .time t fun s =>
    let n := s.tmk.misses + 1
    if s.r TMK.REF_NOW = 0 ∨ s.up < s.tmk.refAt + 1000000000 * n + 2000000 then s
    else
      let gnss := s.r TMK.REF_NOW == 1
      let s := s.setTmk (fun k => { k with misses := n, validRun := if gnss then 0 else k.validRun })
      if s.r TMK.MISS_LIMIT ≤ n then s.refLost else s

/-- R386: the step that the servo has called for takes place. -/
def execTimeStep (t : Nat) (s : State) : Host.Outcome State Fault Refusal :=
  s.runK .time t fun s =>
    match s.tmk.pendingStep with
    | none => s
    | some d => (s.setTmk (fun k => { k with pendingStep := none })).stepBy d 0

/-- R383: HOLD_S passes HOLD_CLASS_S. -/
def execHoldDegraded (t : Nat) (s : State) : Host.Outcome State Fault Refusal :=
  s.runK .time t fun s =>
    if s.r TMK.STATE = 3 ∧ s.r TMK.HOLD_CLASS_S < s.holdS ∧ s.r TMK.CLASS = 7 then
      (((s.w TMK.CLASS 187).w TMK.ACCURACY 0xFE).setTmk (fun k => { k with traceable := false })).raise 8 0 13 s.tmkPay
    else s

/-- A step by a host command: in FREE, the time source becomes 0x60 (R383, R384). -/
def State.hostStep (s : State) (d : Int) (cause : Nat) : State :=
  let s := s.setTmk (fun k => { k with hostSet := true })
  let s := if s.r TMK.STATE = 0 then s.w TMK.TSOURCE 0x60 else s
  s.stepBy d cause

/-- R384: TIME_CMD = SET. The fraction below the nanosecond stays (R386, assumption 121). -/
def execTimeSet (t : Nat) (r : Requester) (s : State) : Host.Outcome State Fault Refusal :=
  s.cmdK t fun s => s.pageWrite r ⟨8, 0⟩ true fun s =>
    if s.r TMK.REF_MODE ≠ 0 then s.inc TMK.REFUSED
    else
      let sec := s.r TMK.SET_SEC_LO + 2 ^ 32 * s.r TMK.SET_SEC_HI
      let target : Int := (sec * 1000000000 + s.r TMK.SET_NS : Nat)
      s.hostStep ((target - s.now) * 65536) 1

/-- R384: TIME_CMD = ADD. -/
def execTimeAdd (t : Nat) (r : Requester) (s : State) : Host.Outcome State Fault Refusal :=
  s.cmdK t fun s => s.pageWrite r ⟨8, 0⟩ true fun s =>
    let new : Int := (s.now : Int) + s.ri TMK.OFF_NS
    if s.r TMK.REF_MODE ≠ 0 ∨ new < 0 ∨ (2 ^ 48 * 1000000000 : Int) ≤ new then s.inc TMK.REFUSED
    else s.hostStep (s.ri TMK.OFF_NS * 65536) 2

/-- R383: a write of ADJ_MAN, clamped to ±ADJ_LIM; with REF_MODE = NONE it sets F. -/
def execAdjManWrite (t : Nat) (r : Requester) (v : Word) (s : State) : Host.Outcome State Fault Refusal :=
  s.cmdK t fun s => s.pageWrite r ⟨8, 0⟩ true fun s =>
    let x := s.rateClamp v.toInt
    let s := s.wi TMK.ADJ_MAN x
    let s := s.when (x != v.toInt) (fun s => s.clampCount ⟨8, 0⟩ 0x078 0)
    if s.r TMK.REF_MODE = 0 then (s.wi TMK.F_NOW x).adjToF else s

/-- UTC_OFFSET takes a value, which is copied to the backup registers (R385). -/
def State.setUtcOffset (s : State) (v : Nat) : State :=
  let s := s.w TMK.UTC_OFFSET v
  { s with rtc := { s.rtc with backupUtc := s.r TMK.UTC_OFFSET } }

/-- The seconds of the UTC day that have passed, by the offset in force (R385). -/
def State.utcDaySec (s : State) : Nat := (s.now / 1000000000 + 86400 - s.r TMK.UTC_OFFSET % 86400) % 86400

/-- R385: the end of the UTC day, which a leap second moves by one: UTC_OFFSET changes there and the flag clears. -/
def execUtcDayEnd (t : Nat) (s : State) : Host.Outcome State Fault Refusal :=
  s.runK .time t fun s =>
    let o := s.r TMK.UTC_OFFSET
    let up := s.on TMK.LEAP61
    let down := s.on TMK.LEAP59 && !up
    let ends := s.utcDaySec == (if up then 1 else if down then 86399 else 0)
    let s := if ends then (s.w TMK.LEAP61 0).w TMK.LEAP59 0 else s
    if !ends then s else if up then s.setUtcOffset (min 1000 (o + 1)) else if down then s.setUtcOffset (o - 1) else s

/-- A port is a PTP Port (R387). -/
def State.ptpPort (s : State) (port : Nat) : Bool := (s.r TMK.PTP_PORTS).testBit port

/-- The key of a data set in the comparison of R388: smaller is better. -/
def datasetKey (d : Dataset) : Nat :=
  (((d.prio1 * 256 + d.cls) * 256 + d.acc) * 256 + d.prio2) * 2 ^ 64 + d.ident

/-- The device's own data set (R388). -/
def State.ownDataset (s : State) : Dataset :=
  { prio1 := s.r TMK.PRIO1, cls := s.r TMK.CLASS, acc := s.r TMK.ACCURACY, prio2 := s.r TMK.PRIO2,
    ident := s.r TMK.CLOCK_ID_LO + 2 ^ 32 * s.r TMK.CLOCK_ID_HI }

/-- The role of R388; a change raises GM_CHANGED. -/
def State.gmRole (s : State) : State :=
  let gm := match s.r TMK.GM_MODE with
    | 0 => (s.tmk.foreign.filter (fun p => s.ptpPort p.1)).isEmpty
    | 1 => true
    | _ => false
  if gm.toNat = s.r TMK.GM_ROLE then s else (s.wb TMK.GM_ROLE gm).raise 8 0 3 s.tmkPay

/-- R388: a received Announce. -/
def execPtpAnnounceRx (t : Nat) (port : Fin 12) (ds : Dataset) (s : State) : Host.Outcome State Fault Refusal :=
  s.runK .time t fun s =>
    if !s.enabled 8 then s.inc TMK.PTP_IGNORED
    else if !s.ptpPort port ∨ s.r TMK.GM_MODE ≠ 0 then s
    else
      let better := datasetKey ds < datasetKey s.ownDataset
      (s.setTmk (fun k => { k with foreign := if better then sput k.foreign port.val ds else sdel k.foreign port.val })).gmRole

/-- R388: the Announce messages of a port cease. -/
def execForeignMasterExpiry (t : Nat) (port : Fin 12) (s : State) : Host.Outcome State Fault Refusal :=
  s.runK .time t fun s => (s.setTmk (fun k => { k with foreign := sdel k.foreign port.val })).gmRole

/-- The time of the timestamp point of a port for a message leaving at the present instant (R375, R439, assumption 153). -/
def State.txStamp (s : State) (port : Nat) : Nat := s.now + s.r ETH.TS_TX_ADJ port

/-- The time of the timestamp point of a port for a message seen at instant `a` (R375, R439, assumption 153). -/
def State.rxStamp (s : State) (port a : Nat) : Nat := a - s.r ETH.TS_RX_ADJ port

/-- A PTP message in the profile's domain and transport (R387). -/
def State.ptpFramed (s : State) (m : PtpMsg) : PtpMsg :=
  { m with domain := if s.r TMK.PROFILE = 2 then 0 else s.r TMK.DOMAIN, udp := s.on TMK.TRANSPORT && s.r TMK.PROFILE != 2 }

/-- A PTP message goes out on a port. -/
def State.ptpSend (s : State) (port : Nat) (m : PtpMsg) : State :=
  let m := s.ptpFramed m
  s.setTmk (fun k => { k with sent := sset {} k.sent port m })

/-- The follow-up of a two-step message goes out on a port (R389). -/
def State.ptpFollow (s : State) (port : Nat) (m : PtpMsg) : State :=
  let m := s.ptpFramed m
  s.setTmk (fun k => { k with follow := sset {} k.follow port m })

/-- Whether the device sends as grandmaster on a port (R388, R567). -/
def State.gmOn (s : State) (port : Nat) : Bool := s.enabled 8 && s.ptpPort port && s.on TMK.GM_ROLE

/-- R389: Sync, followed by Follow_Up in two-step mode. -/
def execPtpSyncTx (t : Nat) (port : Fin 12) (s : State) : Host.Outcome State Fault Refusal :=
  s.runK .time t fun s =>
    if s.gmOn port then
      let two := !s.on TMK.ONE_STEP
      let s := s.ptpSend port { kind := 0, origin := s.txStamp port, corr := s.frac.toNat / 2 ^ 24, twoStep := two }
      if two then s.ptpFollow port { kind := 8, origin := s.txStamp port, corr := s.frac.toNat / 2 ^ 24 } else s
    else s

/-- R388, R385: Announce. -/
def execPtpAnnounceTx (t : Nat) (port : Fin 12) (s : State) : Host.Outcome State Fault Refusal :=
  s.runK .time t fun s =>
    if s.gmOn port then
      s.ptpSend port { kind := 11, origin := s.now, utc := s.r TMK.UTC_OFFSET, leap61 := s.on TMK.LEAP61,
                       leap59 := s.on TMK.LEAP59 && !s.on TMK.LEAP61, utcValid := s.on TMK.UTC_VALID,
                       traceable := s.tmk.traceable, ds := s.ownDataset, tsource := s.r TMK.TSOURCE }
    else s

/-- A copy of this event message of this sender came on a redundancy pair within the entry forget time (R450, R451). -/
def State.secondCopy (s : State) (port src seq : Nat) : Bool :=
  s.r ESW.RED_MODE 0 (port / 2) != 0 &&
    s.tmk.copies.any (fun c => c.1 == port / 2 && c.2.1 == src && c.2.2.1 == seq && decide (s.up < c.2.2.2 + 400000000))

/-- The first copy of an event message is noted (R451). -/
def State.noteCopy (s : State) (port src seq : Nat) : State :=
  s.setTmk (fun k => { k with copies := k.copies.filter (fun c => decide (s.up < c.2.2.2 + 400000000)) ++ [(port / 2, src, seq, s.up)] })

/-- R389, R391, R451: a Delay_Req or Pdelay_Req is answered, at most DREQ_MAX a second on each port. The turnaround time that a Pdelay_Resp or its follow-up carries is a free value (assumption 148). -/
def execPtpDelayReqRx (t : Nat) (port : Fin 12) (q : DelayReq) (s : State) : Host.Outcome State Fault Refusal :=
  s.runK .time t fun s =>
    if !s.enabled 8 then s.inc TMK.PTP_IGNORED
    else if !s.ptpPort port then s
    else if q.pdelay != (s.r TMK.PROFILE != 0) then s.inc TMK.PTP_IGNORED
    else if !q.pdelay && !s.on TMK.GM_ROLE then s
    else if !q.pdelay && s.secondCopy port q.src.toNat q.seq.toNat then s
    else
      let s := if q.pdelay then s else s.noteCopy port q.src.toNat q.seq.toNat
      let sec := s.up / 1000000000
      let old := sget (0, 0) s.tmk.dreq port.val
      let n := if old.1 = sec then old.2 else 0
      if s.r TMK.DREQ_MAX ≤ n then (s.inc TMK.DREQ_DROPS).raise 8 0 16 s.tmkPay
      else
        let s := s.setTmk (fun k => { k with dreq := sset (0, 0) k.dreq port.val (sec, n + 1) })
        if q.pdelay then
          let turn := (Config.free 48 s.freeTick).toNat
          let two := !s.on TMK.ONE_STEP
          let s := s.fresh.ptpSend port { kind := 3, origin := s.rxStamp port s.now, corr := if two then 0 else turn, twoStep := two }
          if two then s.ptpFollow port { kind := 10, origin := s.txStamp port, corr := turn } else s
        else
          let m : PtpMsg := { kind := 9, origin := s.rxStamp port s.now }
          let s := s.ptpSend port m
          if s.r ESW.RED_MODE 0 (port / 2) = 0 then s else s.ptpSend (if port % 2 = 0 then port + 1 else port - 1) m

/-- R390: a port sends a Pdelay_Req in a peer-to-peer profile. -/
def execPtpPdelayReqTx (t : Nat) (port : Fin 12) (s : State) : Host.Outcome State Fault Refusal :=
  s.runK .time t fun s =>
    if s.enabled 8 ∧ s.ptpPort port ∧ s.r TMK.PROFILE ≠ 0 then
      (s.setTmk (fun k => { k with pdReq := sput k.pdReq port.val (s.txStamp port) })).ptpSend port { kind := 2, origin := s.txStamp port }
    else s

/-- R390: the response completes the measurement: half the turnaround that is not the responder's. -/
def execPtpPdelayRespRx (t : Nat) (port : Fin 12) (t2 t3 : Nat) (s : State) : Host.Outcome State Fault Refusal :=
  s.runK .time t fun s =>
    if !s.enabled 8 then s.inc TMK.PTP_IGNORED
    else match s.tmk.pdReq.lookup port.val with
      | none => s
      | some t1 =>
        s.setTmk (fun k => { k with linkDelay := sset 0 k.linkDelay port.val (((s.rxStamp port s.now - t1) - (t3 - t2)) / 2),
                                    pdReq := sdel k.pdReq port.val })

/-- R390: while passive, an event message forwarded between PTP Ports takes its residence time, and in the peer-to-peer profiles a Sync the link delay of its ingress port. Pdelay messages pass unchanged in the peer-to-peer profiles. -/
def execPtpEventForward (t : Nat) (inp out : Fin 12) (kind : Fin 3) (arrival corr : Nat) (s : State) :
    Host.Outcome State Fault Refusal :=
  s.runK .time t fun s =>
    if !s.enabled 8 then s.inc TMK.PTP_IGNORED
    else if s.on TMK.GM_ROLE || !s.ptpPort inp || !s.ptpPort out then s
    else
      let p2p := s.r TMK.PROFILE != 0
      let res := if p2p && kind.val == 2 then 0 else (s.txStamp out - s.rxStamp inp arrival) * 65536
      let link := if p2p && kind.val == 0 then sget 0 s.tmk.linkDelay inp.val * 65536 else 0
      s.ptpSend out { kind := kind.val, origin := arrival, corr := corr + res + link }

/-- R392: OUT_CMD = ARM. -/
def execPulseArm (t : Nat) (r : Requester) (o : Fin 4) (s : State) : Host.Outcome State Fault Refusal :=
  s.cmdK t fun s => s.pageWrite r ⟨8, 0⟩ true fun s =>
    let start := (s.r TMK.START_SEC_LO 0 o + 2 ^ 32 * s.r TMK.START_SEC_HI 0 o) * 1000000000 + s.r TMK.START_NS 0 o
    let x : OutX := { start := start, period := s.r TMK.PERIOD_NS 0 o, width := s.r TMK.WIDTH_NS 0 o,
                      mode := s.r TMK.OUT_MODE 0 o }
    let due := s.now + 1000
    match x.mode with
    | 1 => if start < due then ((s.setOut o x).w TMK.OUT_STATE 4 0 o).raise 8 0 17 s.tmkPay
           else (s.setOut o { x with next := start }).w TMK.OUT_STATE 1 0 o
    | 2 => (s.setOut o { x with next := seriesAt start x.period due }).w TMK.OUT_STATE 1 0 o
    | _ => s

/-- R392: OUT_CMD = DISARM ends a pulse in progress. -/
def execPulseDisarm (t : Nat) (r : Requester) (o : Fin 4) (s : State) : Host.Outcome State Fault Refusal :=
  s.cmdK t fun s => s.pageWrite r ⟨8, 0⟩ true fun s =>
    (s.setOut o { s.outX o with high := false }).w TMK.OUT_STATE 0 0 o

/-- R392: the instant of a pulse comes; with ENABLE = 0 the output stays inactive (R567), and a single pulse is MISSED (assumption 149). -/
def execPulseFire (t : Nat) (o : Fin 4) (s : State) : Host.Outcome State Fault Refusal :=
  s.runK .time t fun s =>
    let x := s.outX o
    let st := s.r TMK.OUT_STATE 0 o
    if (st = 1 ∨ st = 2) ∧ x.next ≤ s.now ∧ !(x.mode = 1 ∧ st = 2) then
      let x' := { x with next := if x.mode = 2 then x.next + x.period else x.next }
      if !s.enabled 8 then
        (if x.mode = 1 then ((s.setOut o x').w TMK.OUT_STATE 4 0 o).raise 8 0 17 s.tmkPay else s.setOut o x')
      else
        let s := ((s.setOut o { x' with high := true, endAt := x.next + x.width }).w TMK.OUT_STATE 2 0 o).inc TMK.FIRED 0 o
        s.raise 8 0 (8 + o.val) (leBytes 8 (stamp x.next) ++ [0])
    else s

/-- ENABLE falls: every pulse ends, a single one for good; Pdelay exchanges end (R567). -/
def State.tmkIdle (s : State) : State :=
  let s := s.forN 4 fun s o =>
    let x := s.outX o
    let s := s.setOut o { x with high := false }
    if x.mode = 1 ∧ x.high then s.w TMK.OUT_STATE 3 0 o else s
  s.setTmk (fun k => { k with pdReq := [] })

/-- R392: WIDTH_NS elapses. -/
def execPulseEnd (t : Nat) (o : Fin 4) (s : State) : Host.Outcome State Fault Refusal :=
  s.runK .time t fun s =>
    let x := s.outX o
    if x.high ∧ x.endAt ≤ s.now then
      let s := s.setOut o { x with high := false }
      if x.mode = 1 then s.w TMK.OUT_STATE 3 0 o else s
    else s

/-- The capture queue of an input. -/
def State.capQ (s : State) (i : Nat) : List Cap := sget [] s.tmk.caps i

/-- Replace the capture queue of an input; FILL follows. -/
def State.setCapQ (s : State) (i : Nat) (q : List Cap) : State :=
  (s.setTmk (fun k => { k with caps := sset [] k.caps i q })).w TMK.FILL q.length 0 i

/-- R393: an edge of TS_IN. -/
def execCaptureEdge (t : Nat) (i : Fin 4) (fall : Bool) (s : State) : Host.Outcome State Fault Refusal :=
  s.runK .time t fun s =>
    let sel := s.r TMK.CAP_EDGE 0 i
    if s.enabled 8 && s.on TMK.CAP_EN 0 i && (sel == 2 || (sel == 1) == fall) then
      if (s.capQ i).length < 16 then
        let c : Cap := { sec := s.now / 1000000000, ns := s.now % 1000000000, fall := fall }
        (s.setCapQ i (s.capQ i ++ [c])).raise 8 0 (4 + i.val) (leBytes 8 (stamp s.now) ++ [fall.toNat])
      else (s.inc TMK.CAP_LOST 0 i).raise 8 0 15 s.tmkPay
    else s

/-- The word of CAP_SEC_HI with EDGE and VALID. -/
def capHi : Option Cap → Nat
  | none => 0
  | some c => c.sec / 2 ^ 32 % 2 ^ 16 + (if c.fall then 2 ^ 16 else 0) + 2 ^ 31

/-- Latch a word for a requester (R50). -/
def State.latchWord (s : State) (r : Requester) (pg : Page) (off v : Nat) : State :=
  let x := s.px pg
  let rest := x.latched.filter (fun l => !(l.req == ownerCode r && l.off == off))
  s.setPx pg { x with latched := rest ++ [{ req := ownerCode r, off := off, val := BitVec.ofNat 32 v, t := s.up }] }

/-- R393: a read of CAP_NS latches the entry's other words. -/
def execCapNsRead (t : Nat) (r : Requester) (i : Fin 4) (s : State) : Host.Outcome State Fault Refusal :=
  s.cmdK t fun s => s.pageRead r ⟨8, 0⟩ fun s =>
    let c := (s.capQ i).head?
    let base := TMK.CAP_NS.off + TMK.CAP_NS.stride * i.val
    let s := s.latchWord r ⟨8, 0⟩ (base + 4) ((c.map (fun c => c.sec % 2 ^ 32)).getD 0)
    let s := s.latchWord r ⟨8, 0⟩ (base + 8) (capHi c)
    s.reply r ((c.map (·.ns)).getD 0)

/-- R393: a read of CAP_SEC_HI answers the word latched for the requester, or the live one, and removes the entry. -/
def execCapSecHiRead (t : Nat) (r : Requester) (i : Fin 4) (s : State) : Host.Outcome State Fault Refusal :=
  s.cmdK t fun s => s.pageRead r ⟨8, 0⟩ fun s =>
    let c := (s.capQ i).head?
    let off := TMK.CAP_NS.off + TMK.CAP_NS.stride * i.val + 8
    let x := s.px ⟨8, 0⟩
    let v := match x.latched.find? (fun l => l.req == ownerCode r && l.off == off) with
      | some l => l.val.toNat
      | none => capHi c
    let s := s.setPx ⟨8, 0⟩ { x with latched := x.latched.filter (fun l => !(l.req == ownerCode r && l.off == off)) }
    (s.setCapQ i ((s.capQ i).drop 1)).reply r v

/-- R375: a read of TB_NS latches the seconds and the fraction for the requester. -/
def execTbNsRead (t : Nat) (r : Requester) (s : State) : Host.Outcome State Fault Refusal :=
  s.cmdK t fun s => s.pageRead r ⟨8, 0⟩ fun s =>
    let sec := s.now / 1000000000
    let s := s.latchWord r ⟨8, 0⟩ 0x044 (sec % 2 ^ 32)
    let s := s.latchWord r ⟨8, 0⟩ 0x048 (sec / 2 ^ 32 % 2 ^ 16 + 2 ^ 16 * (s.frac.toNat / 2 ^ 24))
    s.reply r (s.now % 1000000000)

/-- R395: CTR_CLR clears PPS_REJECTS, TOD_ERRS, DREQ_DROPS, PTP_IGNORED and CAP_LOST. -/
def execTmkCtrClr (t : Nat) (r : Requester) (s : State) : Host.Outcome State Fault Refusal :=
  s.cmdK t fun s => s.pageWrite r ⟨8, 0⟩ true fun s =>
    [TMK.PPS_REJECTS, TMK.TOD_ERRS, TMK.DREQ_DROPS, TMK.PTP_IGNORED, TMK.CAP_LOST].foldl (fun s f => s.rstF f 0) s

end Sys2Proof.Machine
end

