-- ==== Sys2Proof/Machine/Dch.lean ====
section
/-! DEFINITION. The chain and the pair: membership, addresses, time over the chain, heartbeats, votes, mirroring, takeover (R477 to R500). -/

namespace Sys2Proof.Machine

/-- The DCH page. -/
def dchPage : Page := ⟨11, 0⟩

/-! ### Membership (R481 to R485) -/

/-- The code of a role (R499). -/
def roleCode : Role → Nat
  | .single => 0
  | .syncing => 1
  | .standby => 2
  | .active => 3
  | .fenced => 4

/-- The role of a code (R499). -/
def roleOf (n : Nat) : Role :=
  match n with
  | 1 => .syncing
  | 2 => .standby
  | 3 => .active
  | 4 => .fenced
  | _ => .single

/-- The state of the unit's own TMK as R485 ranks it: 2 LOCKED on GNSS, 1 HOLDOVER. -/
def State.ownTmk (s : State) : Nat :=
  if s.r TMK.STATE = 2 ∧ s.r TMK.REF_NOW = 1 then 2 else if s.r TMK.STATE = 3 then 1 else 0

/-- The unit as its own HELLO shows it (R482). -/
def State.ownUnit (s : State) : ChainUnit :=
  { serial := s.serial, addr := s.r DCH.UNIT_ADDR, gen := s.r DCH.BIND_GEN, proto := s.r DCH.PROTO_VER,
    role := roleOf (s.r DCH.ROLE), epoch := BitVec.ofNat 32 (s.r DCH.PAIR_EPOCH), pairEn := s.on DCH.PAIR_EN,
    tmk := s.ownTmk, table := s.dch.table }

/-- The address that a binding table gives a serial, 0 for none. -/
def addrOf (table : List (Nat × Nat)) (serial : Nat) : Nat := ((table.find? (fun p => p.2 == serial)).map (·.1)).getD 0

/-- The least of a list, `none` when it is empty. -/
def leastOf (xs : List Nat) : Option Nat :=
  xs.foldl (fun b x => match b with
    | some y => some (min x y)
    | none => some x) none

/-- The time master (R485). -/
def State.timeMaster (s : State) : Nat :=
  let us := (s.ownUnit :: s.dch.members).filter (fun u => u.addr != 0)
  match leastOf ((us.filter (fun u => u.tmk == 2)).map (·.addr)), leastOf ((us.filter (fun u => u.tmk == 1)).map (·.addr)) with
  | some a, _ => a
  | none, some a => a
  | none, none => s.r DCH.MASTER_ADDR

/-- HELLO is broadcast (R482). Its payload layout is the model's own. -/
def State.sendHello (s : State) : State :=
  let u := s.ownUnit
  s.chainSend 0xFF 1 0 (beBytes 8 u.serial ++ [u.addr] ++ beBytes 4 u.gen ++ beBytes 2 u.proto ++ [roleCode u.role] ++
    beBytes 4 u.epoch.toNat)

/-- The table in force, the addresses, the chain master and the time master after a change of the membership list (R481, R482). -/
def State.regroup (s : State) : State :=
  let own := s.ownUnit
  let us := own :: s.dch.members
  let gen := us.foldl (fun g u => max g u.gen) 0
  let cands := us.filter (fun u => u.gen == gen)
  let best := cands.foldl (fun (b : ChainUnit) (u : ChainUnit) => if u.serial < b.serial then u else b) (cands.headD own)
  let conflict := cands.any (fun u => !(u.table == best.table))
  let table := best.table
  let master := leastOf ((us.map (fun u => addrOf table u.serial)).filter (· != 0))
  let mproto := match us.find? (fun u => some (addrOf table u.serial) == master) with
    | some u => u.proto / 256
    | none => own.proto / 256
  let place := fun (u : ChainUnit) => if u.proto / 256 = mproto then addrOf table u.serial else 0
  let members := s.dch.members.map (fun u => { u with addr := place u, gen := gen, table := table })
  let changed := !(table == own.table) || place own != own.addr
  let here := place own :: members.map (·.addr)
  let s := s.setDch (fun d => { d with members := members, table := table })
  let s := ((s.w DCH.BIND_GEN gen).w DCH.UNIT_ADDR (place own)).w DCH.MASTER_ADDR (master.getD 0)
  let s := s.w DCH.PRESENT (here.foldl (fun v a => putBit v a true) 0)
  let s := s.w DCH.CLAIMABLE ((List.range 16).foldl (fun v a =>
    if (s.r DCH.CLAIMABLE).testBit a && !here.contains a && table.any (fun p => p.1 == a) then putBit v a true else v) 0)
  let s := s.w DCH.TIME_MASTER s.timeMaster
  if conflict then s.dchEvt 2 (place own) 1 best.serial (leBytes 4 gen)
  else if changed then s.dchEvt 2 (place own) 0 own.serial (leBytes 4 gen)
  else s

/-- A new table is proposed with the next BIND_GEN and sent to every present unit (R483). -/
def State.propose (s : State) (table : List (Nat × Nat)) : State :=
  let gen := (s.r DCH.BIND_GEN + 1) % 2 ^ 32
  (s.setDch (fun d => { d with newTable := some (gen, table) })).chainSend 0xFF 1 4
    (beBytes 4 gen ++ table.flatMap (fun p => p.1 :: beBytes 8 p.2))

/-- This unit is the chain master. -/
def State.isMaster (s : State) : Bool := s.r DCH.UNIT_ADDR != 0 && s.r DCH.MASTER_ADDR == s.r DCH.UNIT_ADDR

/-- The addresses that are claimable. -/
def State.claimable (s : State) : List Nat := (List.range 16).filter (fun a => (s.r DCH.CLAIMABLE).testBit a)

/-- A claimed address is bound to a serial (R484). -/
def State.claimBind (s : State) (addr serial : Nat) : State :=
  s.propose (sput s.dch.table addr serial)

/-- Unbound compatible units claim while an address is claimable; under AUTO the master binds a single claimant to a single address (R484). -/
def State.claimStep (s : State) : State :=
  let free := s.claimable
  let un := (s.dch.members.filter (fun u => u.addr == 0 && u.proto / 256 == s.r DCH.PROTO_VER / 256)).map (·.serial)
  let claims := if free.isEmpty then [] else un
  let s := s.setDch (fun d => { d with claims := claims })
  if s.r DCH.CLAIM_POLICY = 0 then
    let s := s.setRaw 11 0 10 false
    match free, un with
    | [a], [x] => if s.isMaster && s.dch.newTable.isNone then s.claimBind a x else s
    | _, _ => s
  else
    let x := claims.headD 0
    s.setRaw 11 0 10 (s.isMaster && !claims.isEmpty)
      ([free.headD 0, 0] ++ leBytes 4 (s.r DCH.PAIR_EPOCH) ++ leBytes 8 x) (leBytes 8 x)

/-- A round of HELLO ends 5 ms after its start: units that were not heard in it have left (R482). -/
def State.settle (s : State) : State :=
  let h := s.dch.helloAt
  if h = 0 ∨ s.up < h + 5000000 then s
  else
    let gone := s.dch.members.filter (fun u => decide (sget 0 s.dch.heard u.serial < h))
    let s := s.setDch (fun d => { d with helloAt := 0 })
    if gone.isEmpty then s
    else
      let s := s.setDch (fun d => { d with
        members := d.members.filter (fun u => !(gone.any (fun g => g.serial == u.serial))),
        absentAt := gone.foldl (fun (m : List (Nat × Nat)) (u : ChainUnit) => if u.addr = 0 then m else sput m u.addr s.up) d.absentAt })
      let s := gone.foldl (fun (s : State) (u : ChainUnit) => s.dchEvt 3 u.addr 1 u.serial (leBytes 8 u.serial)) s
      s.regroup.claimStep

/-- A new round of HELLO begins (R482). -/
def State.beginRound (s : State) : State :=
  ((s.setDch (fun d => { d with helloAt := max 1 s.up })).w DCH.RING_OK 0).sendHello

/-- A chain port goes up or down: the event, the frames lost in flight, and a round of HELLO (R477, R480, R482). -/
def State.chainPortTo (s : State) (up ok : Bool) : State :=
  let p := if up then 0 else 1
  if s.chainPort p = ok then s
  else
    let s := s.wb (if up then DCH.UP_OK else DCH.DOWN_OK) ok
    let s := s.dchEvt (if up then 0 else 1) (s.r DCH.UNIT_ADDR) ok.toNat
    let s := if ok then s
      else ((s.inc DCH.LINK_DROPS 0 0 (Config.free 16 s.freeTick).toNat).fresh).setDch (fun d => { d with sent := sdel d.sent p })
    s.beginRound

/-- R482: a chain port changes state. -/
def execChainLinkChange (t : Nat) (up linked : Bool) (s : State) : Host.Outcome State Fault Refusal :=
  s.runK .net t fun s => s.settle.chainPortTo up linked

/-- R33, R477: no credit return for 100 µs takes a port down. -/
def execCreditTimeout (t : Nat) (up : Bool) (s : State) : Host.Outcome State Fault Refusal :=
  s.runK .net t fun s => s.settle.chainPortTo up false

/-- R35, R477: a port that is down retrains; it comes up where the training succeeds. -/
def execLinkRetrain (t : Nat) (up ok : Bool) (s : State) : Host.Outcome State Fault Refusal :=
  s.runK .net t fun s => if s.chainPort (if up then 0 else 1) then s else s.settle.chainPortTo up ok

/-- R482: a HELLO is received. -/
def execHello (t : Nat) (u : ChainUnit) (s : State) : Host.Outcome State Fault Refusal :=
  s.runK .net t fun s =>
    if !s.enabled 11 ∨ u.serial = s.serial then s
    else
      let s := s.settle
      let known := s.dch.members.any (fun m => m.serial == u.serial)
      let s := s.setDch (fun d => { d with
        members := d.members.filter (fun m => !(m.serial == u.serial)) ++ [u],
        heard := sput d.heard u.serial s.up,
        absentAt := d.absentAt.filter (fun p => !(p.1 == addrOf d.table u.serial)) })
      let s := if known then s else s.beginRound
      let s := s.regroup
      let inc := u.proto / 256 != s.r DCH.PROTO_VER / 256
      let s := if known then s else s.dchEvt 3 (addrOf s.dch.table u.serial) (if inc then 2 else 0) u.serial (leBytes 8 u.serial)
      s.claimStep

/-- R483, R497: ENUM_CMD = BUILD, refused while a present unit has PAIR_EN = 1 or a claim waits. -/
def execBuild (t : Nat) (r : Requester) (s : State) : Host.Outcome State Fault Refusal :=
  s.cmdK t fun s => s.pageWrite r dchPage true fun s =>
    let s := s.settle
    if s.on DCH.PAIR_EN ∨ s.dch.members.any (·.pairEn) ∨ !s.dch.claims.isEmpty then s.inc DCH.REFUSED
    else
      let order := (List.range 17).flatMap (fun k => (s.dch.members.filter (fun u => u.order == k)).map (·.serial))
      s.propose (((s.serial :: order).take 15).zipIdx.map (fun p => (p.2 + 1, p.1)))

/-- The master makes an address claimable: a bound address whose unit is absent (R484). -/
def State.vacate (s : State) (a : Nat) : State :=
  if s.dch.table.any (fun p => p.1 == a) ∧ !(s.r DCH.PRESENT).testBit a ∧ a ≠ 0 then
    (s.w DCH.CLAIMABLE (putBit (s.r DCH.CLAIMABLE) a true)).claimStep
  else s

/-- R484: ENUM_CMD = VACATE reaches the chain master. -/
def execVacate (t : Nat) (r : Requester) (s : State) : Host.Outcome State Fault Refusal :=
  s.cmdK t fun s => s.pageWrite r dchPage true fun s =>
    let s := s.settle
    if s.isMaster then s.vacate (s.r DCH.CMD_ADDR)
    else s.chainSend (s.r DCH.MASTER_ADDR) 1 3 [s.r DCH.CMD_ADDR]

/-- R484, R498: ENUM_CMD = CLAIM_ACCEPT, refused off the master and where the address is not claimable or the unit does not claim. -/
def execClaimAccept (t : Nat) (r : Requester) (s : State) : Host.Outcome State Fault Refusal :=
  s.cmdK t fun s => s.pageWrite r dchPage true fun s =>
    let s := s.settle
    let x := s.r DCH.CLAIM_SERIAL_LO + 2 ^ 32 * s.r DCH.CLAIM_SERIAL_HI
    let a := s.r DCH.CMD_ADDR
    if s.isMaster ∧ s.claimable.contains a ∧ s.dch.claims.contains x then s.claimBind a x else s.inc DCH.REFUSED

/-- R484: an address has been absent for VACANT_S. -/
def execVacantExpiry (t : Nat) (addr : Fin 16) (s : State) : Host.Outcome State Fault Refusal :=
  s.runK .net t fun s =>
    let s := s.settle
    match s.dch.absentAt.find? (fun p => p.1 == addr.val) with
    | none => s
    | some p =>
      if s.r DCH.VACANT_S = 0 ∨ s.up < p.2 + 1000000000 * s.r DCH.VACANT_S then s
      else s.vacate addr

/-- R483: every present unit has written the new table to both devices, and it comes into use. -/
def execBindTableCommit (t : Nat) (s : State) : Host.Outcome State Fault Refusal :=
  s.runK .net t fun s =>
    let s := s.settle
    match s.dch.newTable with
    | none => s
    | some (gen, table) =>
      let s := s.setDch (fun d => { d with
        newTable := none, table := table, absentAt := d.absentAt.filter (fun p => table.any (fun q => q.1 == p.1)),
        members := d.members.map (fun u => { u with gen := gen, table := table }) })
      let s := s.w DCH.BIND_GEN gen
      let was := s.r DCH.UNIT_ADDR
      let s := s.regroup
      let s := if s.r DCH.UNIT_ADDR = was then s.dchEvt 2 was 0 s.serial (leBytes 4 gen) else s
      s.claimStep

/-- R485: the delay of a link is measured. -/
def execChainDelayMeasure (t : Nat) (up : Bool) (d : Nat) (s : State) : Host.Outcome State Fault Refusal :=
  s.runK .net t fun s =>
    let s := s.settle
    let p := if up then 0 else 1
    if s.chainPort p then s.setDch (fun x => { x with linkDelay := sput x.linkDelay p d }) else s

/-- R485: the time master broadcasts TIME at a whole second. The payload is the model's own: the second, the delay gathered so far, clockClass and timeSource. -/
def execChainTimeBroadcast (t : Nat) (s : State) : Host.Outcome State Fault Refusal :=
  s.runK .net t fun s =>
    let s := s.settle
    let s := s.w DCH.TIME_MASTER s.timeMaster
    if s.now % 1000000000 ≠ 0 ∨ s.r DCH.UNIT_ADDR = 0 ∨ s.r DCH.TIME_MASTER ≠ s.r DCH.UNIT_ADDR then s
    else s.chainSend 0xFF 0 0 (beBytes 8 s.now ++ beBytes 4 0 ++ [s.r TMK.CLASS, s.r TMK.TSOURCE])

/-! ### Roles (R486, R487, R494) -/

/-- Every axis stands at its POSITION (R494). -/
def State.stopAxes (s : State) : State :=
  s.forN 24 fun s a =>
    let p := s.ri MPG.POSITION a
    (s.w MPG.VELOCITY 0 a).setAxis a { s.axis a with
      vel := 0, vFrac := 0, pFrac := 0, pos := p * 2 ^ 32, moving := false, stopping := false, homing := 0,
      homeWait := false, tgtOrg := false }

/-- The unit becomes SYNCING or STANDBY: its blocks follow the active unit (R487, R494). -/
def State.follow (s : State) (role : Nat) : State :=
  let was := s.follows
  let s := ((s.w DCH.ROLE role).w DCH.OUT_EN 0).w DCH.LOCK_OK 0
  let s := s.setDch (fun d => { d with swapAt := none, lockEnd := 0 })
  if was then s
  else
    let s := ((s.w TMK.GM_MODE 2).gmRole.stopAxes.abandonAll).setHo hoSettled
    let s := s.forN 4 fun s e => s.abandonTasks e false
    s.forN 4 fun s c => s.setCluster c { s.cluster c with queue := [], running := none }

/-- The full copy starts from the peer (R491, R492); one that starts again raises MIRROR_FAULT. -/
def State.sync (s : State) (epoch : Nat) : State :=
  let again := s.r DCH.ROLE = 1
  let s := ((s.follow 1).w DCH.SYNC_PCT 0).w DCH.PAIR_EPOCH epoch
  let s := s.setDch (fun d => { d with copyDone := false, copyDue := false, reqKind := 0 })
  if again then s.dchEvt 8 (s.r DCH.PEER_ADDR) 1 else s

/-- ROLE becomes FENCED, with a cause: 1 lease lapsed, 2 epoch conflict, 3 pairing (R486, R487). -/
def State.fence (s : State) (cause : Nat) : State :=
  let s := (((s.w DCH.ROLE 4).w DCH.OUT_EN 0).w DCH.LEASE_OK 0).w DCH.LOCK_OK 0
  (s.setDch (fun d => { d with swapAt := none, reqKind := 0, lockEnd := 0 })).dchEvt 6 (s.r DCH.UNIT_ADDR) cause 0 [cause]

/-- ROLE becomes ACTIVE: the takeover of R494. -/
def State.becomeActive (s : State) (epoch lockEnd : Nat) : State :=
  let s := (((s.w DCH.PAIR_EPOCH epoch).w DCH.ROLE 3).w DCH.OUT_EN 1).inc DCH.TAKEOVERS
  let s := s.wb DCH.LOCK_OK (decide (s.up < lockEnd))
  let s := s.wb DCH.LEASE_OK (decide (s.up < s.dch.leaseEnd))
  let s := s.setDch (fun d => { d with lockEnd := lockEnd, reqKind := 0, swapAt := none, lastEcho := max d.lastEcho s.up })
  let s := (s.dchEvt 5 (s.r DCH.UNIT_ADDR) 0 0 (leBytes 4 epoch)).closeDebug
  let s := (s.w TMK.GM_MODE (s.r DCH.GM_MODE_ACT)).gmRole
  let s := s.forN 24 fun s a => if s.r MPG.VELOCITY a = 0 then s else s.w DCH.AXIS_SUSPECT (putBit (s.r DCH.AXIS_SUSPECT) a true)
  let s := s.stopAxes
  let s := s.forN 16 fun s c => if s.enabled 24 c && s.r CFD.MODE c == 1 then s.setCan c { s.canX c with integrating := true, waitAt := s.up } else s
  let s := { s with sxe := { s.sxe with announce := true } }
  let s := s.setEsw (fun k => { k with sendSeq := (List.range 6).map (fun p => (p, (sget 0 k.sendSeq p + 2 ^ 15) % 2 ^ 16)) })
  s.forN 4 fun s h =>
    let p := s.runner h
    if (s.r LGE.RUN_STATE p = 1 ∨ s.r LGE.RUN_STATE p = 2) ∧ !s.on LGE.IS_RESERVE h then s.startProgram h 3 none else s

/-- PAIR_EN takes a value: 1 leaves SINGLE for FENCED, 0 gives SINGLE (R486). -/
def State.pairEnable (s : State) (on : Bool) : State :=
  if on then (if s.r DCH.ROLE = 0 then s.fence 3 else s)
  else (((s.w DCH.ROLE 0).wb DCH.OUT_EN (s.r KPR.BOOT_STATE == 2)).w DCH.LEASE_OK 0).w DCH.LOCK_OK 0

/-! ### Heartbeats, leases and votes (R488 to R491, R496) -/

/-- The unit takes part in a pair: PAIR_EN = 1, bound, not excluded from the chain, and no incompatible unit holds the address that PEER_ADDR names (R38, R482, R486). -/
def State.paired (s : State) : Bool :=
  s.on DCH.PAIR_EN && s.enabled 11 && s.r DCH.UNIT_ADDR != 0 && !s.excluded &&
    !s.dch.members.any (fun u => addrOf s.dch.table u.serial == s.r DCH.PEER_ADDR && u.proto / 256 != s.r DCH.PROTO_VER / 256)

/-- R488: a heartbeat is sent to the peer. The model keeps the send times of the last 16. -/
def execHeartbeatTx (t : Nat) (s : State) : Host.Outcome State Fault Refusal :=
  s.runK .net t fun s =>
    let s := s.settle
    if !s.paired then s
    else
      let n := s.dch.hbSeq + 1
      let s := s.setDch (fun d => { d with hbSeq := n, hbSent := ((n, s.up) :: d.hbSent).take 16 })
      s.chainSend (s.r DCH.PEER_ADDR) 1 0x10
        ([s.r DCH.ROLE, 0, 0, 0] ++ beBytes 4 (s.r DCH.PAIR_EPOCH) ++ beBytes 4 n.toNat ++ beBytes 4 s.dch.hbSeen.toNat)

/-- R488, R491: a peer heartbeat. -/
def execHeartbeatRx (t : Nat) (hb : Heartbeat) (s : State) : Host.Outcome State Fault Refusal :=
  s.runK .net t fun s =>
    let s := s.settle
    if !s.paired then s
    else
      let s := (s.setDch (fun d => { d with
                                             lastHb := s.up, hbSeen := hb.seq, peerRole := hb.role,
                                             copyDue := hb.role == .syncing && (d.copyDue || d.peerRole != .syncing) })).w DCH.PEER_OK 1
      let s := match s.dch.hbSent.find? (fun p => p.1 == hb.echo) with
        | some p =>
          let s := s.setDch (fun d => { d with lastEcho := s.up, leaseEnd := max d.leaseEnd (p.2 + 1000 * s.r DCH.LEASE_US) })
          if s.r DCH.ROLE = 3 then s.wb DCH.LEASE_OK (decide (s.up < s.dch.leaseEnd)) else s
        | none => s
      let e := s.r DCH.PAIR_EPOCH
      if e < hb.epoch.toNat then s.sync hb.epoch.toNat
      else if hb.role = .active ∧ hb.epoch.toNat = e then
        if s.r DCH.ROLE = 3 then (s.fence 2).dchEvt 7 (s.r DCH.PEER_ADDR) 0
        else if s.r DCH.ROLE = 4 then s.sync e
        else s
      else s

/-- R488: the lease or the lock of the active unit ends. -/
def execLeaseExpiry (t : Nat) (s : State) : Host.Outcome State Fault Refusal :=
  s.runK .net t fun s =>
    let s := s.settle
    if s.r DCH.ROLE ≠ 3 then s
    else
      let lease := decide (s.up < s.dch.leaseEnd)
      let lock := decide (s.up < s.dch.lockEnd)
      let s := (s.wb DCH.LEASE_OK lease).wb DCH.LOCK_OK lock
      if lease || lock then s else s.fence 1

/-- A vote is asked of the witness: 1 RETAIN, 2 TAKE, 3 TRANSFER (R489). A host witness reads a VOTE_REQ record. -/
def State.sendVote (s : State) (kind epoch : Nat) : State :=
  let s := s.setDch (fun d => { d with reqKind := kind, reqAt := s.up, reqEpoch := BitVec.ofNat 32 epoch })
  let w := s.r DCH.WITNESS
  if w = 0 then s
  else if w ≤ 15 then s.chainSend w 1 0x20 ([kind - 1, s.r DCH.PEER_ADDR, 0, 0] ++ beBytes 4 epoch)
  else s.raise 11 0 9 ([s.r DCH.UNIT_ADDR, kind - 1] ++ leBytes 4 epoch ++ leBytes 8 s.serial)

/-- R489, R490, R497: no peer heartbeat for HB_MISS × HB_US. A swap is abandoned, and a standby sends TAKE. -/
def execHbLost (t : Nat) (s : State) : Host.Outcome State Fault Refusal :=
  s.runK .net t fun s =>
    let s := s.settle
    if !s.on DCH.PAIR_EN ∨ !s.on DCH.PEER_OK ∨ s.up < s.dch.lastHb + 1000 * s.r DCH.HB_US * s.r DCH.HB_MISS then s
    else
      let s := ((s.w DCH.PEER_OK 0).inc DCH.HB_LOST_CNT).setDch (fun d => { d with swapAt := none })
      let s := s.dchEvt 4 (s.r DCH.PEER_ADDR) 0
      if s.r DCH.ROLE = 2 then s.sendVote 2 (s.r DCH.PAIR_EPOCH + 1) else s

/-- R490: the active unit sends RETAIN after 2 × HB_US without an echo, and again at each half of LOCK_US while the peer stays silent. -/
def execRetainSend (t : Nat) (s : State) : Host.Outcome State Fault Refusal :=
  s.runK .net t fun s =>
    let s := s.settle
    if s.r DCH.ROLE ≠ 3 ∨ s.up < s.dch.lastEcho + 2000 * s.r DCH.HB_US ∨ s.dch.reqKind ≠ 0 ∨
        (s.dch.lastEcho < s.dch.reqAt ∧ s.up < s.dch.reqAt + 500 * s.r DCH.LOCK_US) then s
    else s.sendVote 1 (s.r DCH.PAIR_EPOCH)

/-- R490: a standby whose TAKE was denied sends it again at each half of LOCK_US while the peer is silent. -/
def execTakeRetry (t : Nat) (s : State) : Host.Outcome State Fault Refusal :=
  s.runK .net t fun s =>
    let s := s.settle
    if s.r DCH.ROLE ≠ 2 ∨ s.on DCH.PEER_OK ∨ s.dch.reqKind ≠ 0 ∨ s.up < s.dch.reqAt + 500 * s.r DCH.LOCK_US then s
    else s.sendVote 2 (s.r DCH.PAIR_EPOCH + 1)

/-- A request was granted (R490, R496). The lock counts from the send time of the request. -/
def State.granted (s : State) : State :=
  let d := s.dch
  let lock := d.reqAt + 1000 * s.r DCH.LOCK_US
  let s := s.setDch (fun d => { d with reqKind := 0 })
  match d.reqKind with
  | 1 => if s.r DCH.ROLE = 3 then (s.setDch (fun d => { d with lockEnd := lock })).wb DCH.LOCK_OK (decide (s.up < lock)) else s
  | 2 => if s.r DCH.ROLE = 2 ∨ s.r DCH.ROLE = 4 then s.becomeActive d.reqEpoch.toNat lock else s
  | 3 => if s.r DCH.ROLE = 3 then
      s.setDch (fun d => { d with
        swapAt := some (seriesAt 0 (1000 * s.r DCH.MIRROR_US) (s.now + 2000000)), swapEpoch := d.reqEpoch })
    else s
  | _ => s

/-- A request was denied, or its answer has not come (R489, R490, R496). A denial to the active unit raises EPOCH_CONFLICT (R500). -/
def State.denied (s : State) : State :=
  let k := s.dch.reqKind
  let s := s.setDch (fun d => { d with reqKind := 0 })
  let s := if k = 3 then s.inc DCH.REFUSED else s
  if s.r DCH.ROLE = 3 ∧ k ≠ 0 then s.dchEvt 7 (s.r DCH.UNIT_ADDR) 1 else s

/-- R490: a grant arrives for the request outstanding. -/
def execVoteGrantRx (t : Nat) (epoch : Word) (s : State) : Host.Outcome State Fault Refusal :=
  s.runK .net t fun s =>
    let s := s.settle
    if s.excluded ∨ s.dch.reqKind = 0 ∨ s.dch.reqEpoch ≠ epoch then s else s.granted

/-- R489: no answer within VOTE_TMO_US counts as a denial. -/
def execVoteTimeout (t : Nat) (s : State) : Host.Outcome State Fault Refusal :=
  s.runK .net t fun s =>
    let s := s.settle
    if s.dch.reqKind = 0 ∨ s.up < s.dch.reqAt + 1000 * s.r DCH.VOTE_TMO_US then s else s.denied

/-- A host witness answers the request outstanding by its epoch (R489). -/
def State.hostVote (s : State) (f : State → State) : State :=
  if 16 ≤ s.r DCH.WITNESS ∧ s.dch.reqKind ≠ 0 ∧ s.dch.reqEpoch.toNat = s.r DCH.VOTE_EPOCH then f s else s

/-- R489: VOTE_CMD = GRANT. -/
def execVoteGrant (t : Nat) (r : Requester) (s : State) : Host.Outcome State Fault Refusal :=
  s.cmdK t fun s => s.pageWrite r dchPage true fun s => s.hostVote State.granted

/-- R489: VOTE_CMD = DENY. -/
def execVoteDeny (t : Nat) (r : Requester) (s : State) : Host.Outcome State Fault Refusal :=
  s.cmdK t fun s => s.pageWrite r dchPage true fun s => s.hostVote State.denied

/-- W_EPOCH and W_HOLDER show the pair that W_SEL names (R499). -/
def State.showWitness (s : State) : State :=
  let w := sget {} s.dch.served (s.r DCH.W_SEL)
  (s.w DCH.W_EPOCH w.epoch.toNat).w DCH.W_HOLDER w.holder

/-- Whether a witness grants a request, and what the grant makes of the pair's record (R489). -/
def witnessRule (w : WitPair) (q : VoteReq) (now lock : Nat) : Option WitPair :=
  match q.kind with
  | .retain => if w.epoch = q.epoch ∧ w.holder = q.from_ then some { w with lockEnd := now + lock } else none
  | .take => if w.epoch.toNat < q.epoch.toNat ∧ w.lockEnd ≤ now then some { w with epoch := q.epoch, holder := q.from_ } else none
  | .transfer => if w.holder = q.from_ ∧ q.epoch = w.epoch + 1 then some { epoch := q.epoch, holder := q.to_, lockEnd := 0 } else none

/-- R489, R497: a vote request reaches this unit as witness; a grant is persisted before it is sent, and without a device to write none is sent; every other request is denied. -/
def execWitnessRequest (t : Nat) (q : VoteReq) (s : State) : Host.Outcome State Fault Refusal :=
  s.runK .net t fun s =>
    let s := s.settle
    if s.excluded then s
    else match witnessRule (sget {} s.dch.served q.pair) q s.up (1000 * s.r DCH.LOCK_US) with
    | some w =>
      if !s.mramOk then s else
      let s := (s.setDch (fun d => { d with served := sset {} d.served q.pair w })).showWitness
      s.chainSend q.from_ 1 0x21 (beBytes 4 q.epoch.toNat)
    | none => s.chainSend q.from_ 1 0x22 (beBytes 4 q.epoch.toNat)

/-- R489: a lock that this unit granted as witness ends. -/
def execLockExpiry (t : Nat) (pair : Fin 16) (s : State) : Host.Outcome State Fault Refusal :=
  s.runK .net t fun s =>
    let s := s.settle
    let w := sget {} s.dch.served pair
    if w.lockEnd ≤ s.up then s.setDch (fun d => { d with served := sset {} d.served pair { w with lockEnd := 0 } }) else s

/-- R496: PAIR_CMD = SWAP, refused unless this unit is ACTIVE and its peer STANDBY. -/
def execSwap (t : Nat) (r : Requester) (s : State) : Host.Outcome State Fault Refusal :=
  s.cmdK t fun s => s.pageWrite r dchPage true fun s =>
    let s := s.settle
    if s.r DCH.ROLE ≠ 3 ∨ s.dch.peerRole ≠ .standby ∨ !s.on DCH.PEER_OK then s.inc DCH.REFUSED
    else s.sendVote 3 (s.r DCH.PAIR_EPOCH + 1)

/-- R491: PAIR_CMD = TAKE runs R490 as a standby would. -/
def execPairTake (t : Nat) (r : Requester) (s : State) : Host.Outcome State Fault Refusal :=
  s.cmdK t fun s => s.pageWrite r dchPage true fun s =>
    let s := s.settle
    if s.r DCH.ROLE = 4 ∨ s.r DCH.ROLE = 2 then s.sendVote 2 (s.r DCH.PAIR_EPOCH + 1) else s

/-! ### Mirroring (R492, R493) -/

/-- The mirrored register fields, with the number of page instances (R492, R494). -/
def mirrorFlds : List (Fld × Nat) :=
  [(LGE.PROG_ID, 4), (LGE.RUN_STATE, 4), (GIO.PIN_OUT, 1), (DSQ.MODE, 1), (DSQ.SOURCE, 1), (DSQ.GRADE, 1), (DSQ.STAGE, 1),
   (DSQ.PARTIAL_COVER, 1), (DSQ.RED_RUN, 1), (DSQ.GOOD_RUN, 1), (DSQ.PLAN_BUF, 1), (DSQ.SAFE_CAUSE, 1), (DSQ.PLAN_SEQ_IN_FORCE, 1)] ++
  [(DSQ.TRIP_STATE, 1), (MPG.POSITION, 24), (MPG.TGT_NOW, 24), (MPG.VELOCITY, 24), (MPG.PHASE_ORG, 24), (MPG.HOMED, 24),
   (MPG.PHASE_LOST, 24), (MPG.HELD, 24), (ACT.DUTY, 1), (ACT.TRIP_STATE, 1)]

/-- Every repetition of every mirrored field: field, instance, repetition. -/
def mirrorKeys : List (Fld × Nat × Nat) :=
  mirrorFlds.flatMap (fun p => (List.range p.2).flatMap (fun i => (List.range p.1.n).map (fun k => (p.1, i, k))))

/-- Every mirrored item as it stands now (R492). -/
def State.mirrorNow (s : State) : CutX :=
  { words := s.loopMem, rc := s.rcMem, data := s.dataMem, ret := s.retMem, inImg := s.inImg, outImg := s.outImg,
    table := s.sxe.table, stations := s.stations, prof := s.sxe.prof, pmap := s.sxe.pmap, sendSeq := s.esw.sendSeq,
    forces := s.forces, qImgs := (List.range 4).map (fun e => (e, (s.eng e).qImg.toNat)),
    regs := mirrorKeys.map (fun k => (k.1.key k.2.1 k.2.2, BitVec.ofNat 32 (s.r k.1 k.2.1 k.2.2))), ho := some (hoShared s.ho) }

/-- The entries of a table that differ from those of an older one; `d` is what an unlisted key reads as. -/
def deltas {α : Type} [DecidableEq α] (d : Nat → α) (new old : List (Nat × α)) : List (Nat × α) :=
  new.filter (fun p => !(old.contains p)) ++
    (old.filter (fun p => !(new.any (fun q => q.1 == p.1)))).map (fun p => (p.1, d p.1))

/-- What an unlisted word of the station table reads as (R318). -/
def stnDefault (k : Nat) : Word := if k % 4 = 0 then 0x00010300 else 0

/-- The items that have changed since an older cut (R492). -/
def cutDelta (new old : CutX) : CutX :=
  { words := deltas (fun k => loopRst (k % 64)) new.words old.words, rc := deltas (fun _ => 0) new.rc old.rc,
    data := deltas (fun _ => 0) new.data old.data, ret := deltas (fun _ => 0) new.ret old.ret,
    inImg := deltas (fun _ => 0) new.inImg old.inImg, outImg := deltas (fun _ => 0) new.outImg old.outImg,
    table := deltas stnDefault new.table old.table, stations := deltas (fun _ => {}) new.stations old.stations,
    prof := deltas (fun _ => 0) new.prof old.prof, pmap := deltas (fun k => pmDefault (k % 2)) new.pmap old.pmap,
    sendSeq := deltas (fun _ => 0) new.sendSeq old.sendSeq, forces := deltas (fun _ => {}) new.forces old.forces,
    qImgs := deltas (fun _ => 0) new.qImgs old.qImgs, regs := deltas (fun _ => 0) new.regs old.regs,
    ho := if new.ho = old.ho then none else new.ho }

/-- Put the entries of a cut into a table. -/
def putAll {α : Type} [DecidableEq α] (d : Nat → α) (m : List (Nat × α)) (xs : List (Nat × α)) : List (Nat × α) :=
  xs.foldl (fun (m : List (Nat × α)) (p : Nat × α) => sset (d p.1) m p.1 p.2) m

/-- The standby takes the items of a cut; a full copy brings every item whole (R492, R494). -/
def State.applyCut (s : State) (c : CutX) : State :=
  let was := s.ho.inForce
  let s := if c.whole then
      { s with loopMem := [], rcMem := [], dataMem := [], retMem := [], inImg := [], outImg := [], stations := [], forces := [],
               sxe := { s.sxe with table := [], prof := [], profNew := [], pmap := [], pmapNew := [] }, esw := { s.esw with sendSeq := [] } }
    else s
  let s := { s with
    loopMem := putAll (fun k => loopRst (k % 64)) s.loopMem c.words, rcMem := putAll (fun _ => 0) s.rcMem c.rc,
    dataMem := putAll (fun _ => 0) s.dataMem c.data, retMem := putAll (fun _ => 0) s.retMem c.ret,
    inImg := putAll (fun _ => 0) s.inImg c.inImg, outImg := putAll (fun _ => 0) s.outImg c.outImg,
    stations := putAll (fun _ => {}) s.stations c.stations, forces := putAll (fun _ => {}) s.forces c.forces,
    ho := (c.ho.map (fun h => hoMerge s.ho h)).getD s.ho }
  let s := { s with sxe := { s.sxe with
    table := putAll stnDefault s.sxe.table c.table, prof := putAll (fun _ => 0) s.sxe.prof c.prof,
    profNew := putAll (fun _ => 0) s.sxe.profNew c.prof, pmap := putAll (fun k => pmDefault (k % 2)) s.sxe.pmap c.pmap,
    pmapNew := putAll (fun k => pmDefault (k % 2)) s.sxe.pmapNew c.pmap } }
  let s := s.setEsw (fun k => { k with sendSeq := putAll (fun _ => 0) k.sendSeq c.sendSeq })
  let s := c.qImgs.foldl (fun (s : State) (q : Nat × Nat) => s.setEng q.1 { s.eng q.1 with qImg := BitVec.ofNat 64 q.2 }) s
  let s := mirrorKeys.foldl (fun (s : State) (k : Fld × Nat × Nat) =>
    match c.regs.find? (fun p => p.1 == k.1.key k.2.1 k.2.2) with
    | some p => s.w k.1 p.2.toNat k.2.1 k.2.2
    | none => s) s
  let s := s.forN 24 fun s a => s.setAxis a { s.axis a with pos := s.ri MPG.POSITION a * 2 ^ 32 }
  let s := s.forN 24 fun s o =>
    if c.regs.any (fun p => p.1 == ACT.DUTY.key 0 o) then
      s.stageDuty o (s.r ACT.DUTY 0 o)
    else s
  let s := if c.ho.isSome then s.showPlan was else s
  s.showForces

/-- R492, R496: the active unit takes a cut at an instant S + n × MIRROR_US (assumption 154); the first for a peer that is SYNCING is the full copy. Whether its deltas exceed the share of the class is a free value (assumption 6). A cut with the swap marker hands the active role over. -/
def execMirrorCut (t : Nat) (s : State) : Host.Outcome State Fault Refusal :=
  s.runK .net t fun s =>
    let s := s.settle
    if s.r DCH.ROLE ≠ 3 ∨ !s.on DCH.PEER_OK ∨ !s.onSeries (s.r DCH.MIRROR_US) 0 then s
    else
      let n := (s.r DCH.CUT_SEQ + 1) % 2 ^ 32
      let swap := match s.dch.swapAt with
        | some a => decide (a ≤ s.now)
        | none => false
      let all := s.mirrorNow
      let whole := s.dch.copyDue
      let cut := { cutDelta all (if whole then {} else s.dch.shadow) with seq := BitVec.ofNat 32 n, swap := swap, whole := whole }
      let late := (Config.free 1 s.freeTick).toNat
      let s := ((s.w DCH.CUT_SEQ n).inc DCH.MIRROR_LAG 0 0 late).fresh
      let s := s.setDch (fun d => { d with shadow := all, cutOut := cut, lastCutAt := s.now, copyDue := false })
      let s := s.chainSend (s.r DCH.PEER_ADDR) (if whole then 3 else 2) 0 ([swap.toNat, 0, 0, 0] ++ beBytes 4 n)
      if swap then (s.w DCH.PAIR_EPOCH s.dch.swapEpoch.toNat).follow 2 else s

/-- R492, R496: the standby applies a cut whose frames have all come with a good CRC. The swap marker makes it ACTIVE. -/
def execMirrorCutApply (t : Nat) (cut : CutX) (s : State) : Host.Outcome State Fault Refusal :=
  s.runS .net t fun s =>
    let s := s.settle
    if !s.follows then s
    else
      let s := ((s.applyCut cut).w DCH.CUT_SEQ cut.seq.toNat).setDch (fun d => { d with lastCutAt := s.now })
      if cut.swap ∧ s.r DCH.ROLE = 2 then s.becomeActive (s.r DCH.PAIR_EPOCH + 1) 0 else s

/-- R492: the full copy and every cut since it began have been applied. -/
def execFullCopyDone (t : Nat) (s : State) : Host.Outcome State Fault Refusal :=
  s.runK .net t fun s =>
    let s := s.settle
    if s.r DCH.ROLE ≠ 1 then s
    else ((s.w DCH.SYNC_PCT 100).follow 2).setDch (fun d => { d with copyDone := true })

/-! ### Frames (R478 to R480, R485) -/

/-- A TIME frame: the offset of R485 goes to TMK, unless this unit is the time master. -/
def State.timeFrame (s : State) (p : Nat) (f : ChainFrame) : State :=
  if s.r DCH.TIME_MASTER = s.r DCH.UNIT_ADDR ∧ s.r DCH.UNIT_ADDR ≠ 0 then s
  else
    let sent := beVal (f.payload.take 8)
    let delay := beVal ((f.payload.drop 8).take 4) + sget 0 s.dch.linkDelay p
    s.chainOffset (((s.now : Int) - (sent + delay : Nat)) * 65536 + (s.frac.toNat / 2 ^ 24 : Nat)) (f.payload.getD 12 0) (f.payload.getD 13 0)

/-- The standby takes the region registers and RES_LAST, and the slot that is active at the peer becomes active where it is CHECKED (R492, R494). -/
def State.takeSlots (s : State) (pay : List Nat) : State :=
  let s := (List.range 8).foldl (fun (s : State) (i : Nat) => s.w (regionFld i) (beVal ((pay.drop (4 + 4 * i)).take 4))) s
  let k : Slot := if pay.getD 0 0 = 2 then .b else .a
  let s := if pay.getD 0 0 ≠ 0 ∧ !s.isActive k ∧ (s.slotX k).st = .checked then s.makeActive k else s
  s.w DSQ.RES_LAST (beVal ((pay.drop 2).take 2))

/-- A BULK frame of the peer: bytes of a set, the end of a set, the slots, the progress of the full copy, or a word of the configuration slot (R492, R493, R498). The payload layouts are the model's own. -/
def State.bulkFrame (s : State) (f : ChainFrame) : State :=
  if f.src ≠ s.r DCH.PEER_ADDR ∨ !s.on DCH.PAIR_EN then s
  else
    let k : Slot := if f.payload.getD 0 0 = 1 then .b else .a
    match f.typ with
    | 1 =>
      let (base, size) := s.slotRegion k
      let off := beVal ((f.payload.drop 4).take 4)
      if !s.follows ∨ s.isActive k ∨ size < off + (f.payload.length - 8) then s
      else (s.invalidate k).putSol (base + off) (f.payload.drop 8)
    | 2 => if s.follows ∧ !s.isActive k then s.slotTo k .checking else s
    | 5 => if s.follows then s.takeSlots f.payload else s
    | 3 => if s.r DCH.ROLE = 1 then s.w DCH.SYNC_PCT (min 100 (f.payload.getD 0 0)) else s
    | 4 =>
      let a := beVal ((f.payload.drop 4).take 4)
      let v : Word := BitVec.ofNat 32 (beVal ((f.payload.drop 8).take 4))
      let p := s.pwr
      { s with pwr := match f.payload.getD 0 0 with
        | 0 => { p with cfgRegs := sput p.cfgRegs a v }
        | 1 => { p with cfgLoops := sput p.cfgLoops a v }
        | 2 => { p with cfgStations := sput p.cfgStations a v }
        | 3 => { p with cfgPot := sput p.cfgPot a v }
        | 4 => { p with cfgTags := sput p.cfgTags a v }
        | 5 => { p with cfgCounts := sput p.cfgCounts a v }
        | _ => { p with progSlot := sput p.progSlot a v } }
    | _ => s

/-- A CONTROL frame without a command of its own: a set report (R493), a VACATE for the master (R484), a new table (R483), a denial (R489). -/
def State.controlFrame (s : State) (f : ChainFrame) : State :=
  match f.typ with
  | 1 => if f.src = s.r DCH.PEER_ADDR then
      s.setDch (fun d => { d with peerSet := some (BitVec.ofNat 32 (beVal ((f.payload.drop 4).take 4)), (f.payload.drop 8).take 32) })
    else s
  | 3 => if s.isMaster then s.vacate (f.payload.getD 0 0 % 16) else s
  | 4 =>
    let gen := beVal (f.payload.take 4)
    let body := f.payload.drop 4
    let table := (List.range (body.length / 9)).map (fun i => (body.getD (9 * i) 0, beVal ((body.drop (9 * i + 1)).take 8)))
    if s.r DCH.BIND_GEN < gen then s.setDch (fun d => { d with newTable := some (gen, table) }) else s
  | 0x22 => if s.dch.reqKind ≠ 0 ∧ s.dch.reqEpoch.toNat = beVal (f.payload.take 4) then s.denied else s
  | _ => s

/-- A frame addressed to this unit, or a broadcast, is taken by its class; an excluded unit takes none (R482). Frames of a mirror cut act when the cut is complete. -/
def State.takeFrame (s : State) (p : Nat) (f : ChainFrame) : State :=
  if s.excluded then s else
  match f.cls with
  | 0 => s.timeFrame p f
  | 1 => s.controlFrame f
  | 3 => s.bulkFrame f
  | _ => s

/-- A frame is forwarded out of the other port, or discarded when HOPS reaches 0 or that port is down (R478 to R480). A TIME frame takes the residence time, a free value up to 500 ns, and the delay of the link it came on (R485). -/
def State.forwardFrame (s : State) (p : Nat) (f : ChainFrame) : State :=
  if f.hops ≤ 1 then s
  else if f.cls = 0 then
    let stay := (Config.free 9 s.freeTick).toNat % 501
    let d := beVal ((f.payload.drop 8).take 4) + sget 0 s.dch.linkDelay p + stay
    (s.fresh).putChain (1 - p) { f with hops := f.hops - 1, payload := f.payload.take 8 ++ beBytes 4 d ++ f.payload.drop 12 }
  else s.putChain (1 - p) { f with hops := f.hops - 1 }

/-- R478 to R480: a frame comes in on a port. The sender removes its own broadcast when it returns, which shows the ring whole. -/
def execChainFrameRx (t : Nat) (up : Bool) (f : ChainFrame) (s : State) : Host.Outcome State Fault Refusal :=
  s.runS .net t fun s =>
    let p := if up then 0 else 1
    if !s.enabled 11 ∨ !s.chainPort p then s
    else
      let s := s.settle
      if !f.crcOk then
        let s := s.inc DCH.CRC_ERRS
        if f.cls = 2 then s.dchEvt 8 f.src 0 else s
      else if f.src = s.r DCH.UNIT_ADDR then
        if f.dst = 0xFF ∧ s.on DCH.UP_OK ∧ s.on DCH.DOWN_OK then s.w DCH.RING_OK 1 else s
      else
        if f.dst = 0xFF then (s.takeFrame p f).forwardFrame p f
        else if f.dst = s.r DCH.UNIT_ADDR then s.takeFrame p f
        else s.forwardFrame p f

/-- R499: CTR_CLR. -/
def execDchCtrClr (t : Nat) (r : Requester) (s : State) : Host.Outcome State Fault Refusal :=
  s.cmdK t fun s => s.pageWrite r dchPage true fun s =>
    [DCH.MIRROR_LAG, DCH.HB_LOST_CNT, DCH.CRC_ERRS, DCH.LINK_DROPS, DCH.TAKEOVERS, DCH.REFUSED].foldl (fun (s : State) (f : Fld) => s.w f 0) s

end Sys2Proof.Machine
end

