-- ==== Sys2Proof/Machine/Power.lean ====
section
/-! DEFINITION. Power states, monitoring and the mirrored persistent store (R521 to R534, R547 to R549). -/

namespace Sys2Proof.Machine

/-- Update the power, reset and boot record. -/
def State.setPwr (s : State) (f : PwrX → PwrX) : State := { s with pwr := f s.pwr }

/-- A command in an RWL field that reads 0: while the lock is closed it is discarded and counts (R61). -/
def State.lockedCmd (s : State) (r : Requester) (pg : Page) (f : State → State) : State :=
  s.pageWrite r pg true fun s => if s.lockOpen pg then f s else s.lockViol pg true

/-- The number of a power state in records. -/
def PwrState.num : PwrState → Nat
  | .run => 0
  | .doze => 1
  | .keep => 2
  | .off => 3

/-- The power state changes, with its record and event (R546, R547). -/
def State.setPower (s : State) (st : PwrState) (by_ : Nat) : State :=
  let old := s.pwr.st.num
  let s := (s.setPwr (fun k => { k with st := st })).w PCR.PWR_STATE (min st.num 1)
  (s.writeRec 0x423 [old, st.num, by_]).raise 0 0 1 [0, s.r PCR.PWR_STATE, 0, 0]

/-- The islands that DOZE gates (R13): SOLVE and LOOP. -/
def dozeMask : BitVec 9 := 0b11#9

/-- The device returns from DOZE to RUN: SOLVE and LOOP are no longer gated, and their PLLs relock (R524). -/
def State.toRun (s : State) (by_ : Nat) : State :=
  (s.setPwr (fun k => { k with clk := k.clk ||| dozeMask })).setPower .run by_

/-- R524: PWR_CMD = RUN. -/
def execPwrRun (t : Nat) (r : Requester) (s : State) : Host.Outcome State Fault Refusal :=
  s.cmdK t fun s => s.lockedCmd r ⟨0, 0⟩ fun s => if s.pwr.st = .doze then s.toRun (ownerCode r) else s

/-- R525: PWR_CMD = DOZE. -/
def execPwrDoze (t : Nat) (r : Requester) (s : State) : Host.Outcome State Fault Refusal :=
  s.cmdK t fun s => s.lockedCmd r ⟨0, 0⟩ fun s =>
    let role := s.r DCH.ROLE
    if s.pwr.st ≠ .run then s
    else if role = 1 ∨ role = 2 ∨ role = 3 then s.w PCR.REFUSE_CAUSE 1
    else if s.enabled 16 ∨ (List.range 4).any (fun c => s.enabled 18 c) then s.w PCR.REFUSE_CAUSE 2
    else
      let s := s.setPwr (fun k => { k with clk := k.clk &&& ~~~dozeMask, pll := k.pll &&& ~~~dozeMask })
      (s.w PCR.REFUSE_CAUSE 0).setPower .doze (ownerCode r)

/-- R522: a rail outside ±3 % of nominal for 10 µs. -/
def execSupplyWarn (t : Nat) (rail : Fin 5) (mv : BitVec 16) (s : State) : Host.Outcome State Fault Refusal :=
  s.runK .keep t fun s =>
    (s.w PCR.RAIL_MV mv.toNat 0 rail).raise 0 0 0 ([rail.val, s.r PCR.PWR_STATE] ++ leBytes 2 mv.toNat)

/-- R523: the four temperature sensors are read, in 1/8 °C; a sensor above TEMP_WARN raises THERM_WARN. -/
def execTempSample (t : Nat) (temps : List Int) (s : State) : Host.Outcome State Fault Refusal :=
  s.runK .keep t fun s =>
    let s := s.forN 4 (fun s i => s.wi PCR.TEMP (temps.getD i 0) 0 i)
    let hot := (List.range 4).find? (fun i => decide ((8 * s.r PCR.TEMP_WARN : Int) < s.ri PCR.TEMP 0 i))
    s.setRaw 0 0 2 hot.isSome ([hot.getD 0, s.r PCR.PWR_STATE] ++ leBytes 2 (s.r PCR.TEMP 0 (hot.getD 0)))

/-- R528: OP_SEC is written to the health record. -/
def execOpSecSave (t : Nat) (s : State) : Host.Outcome State Fault Refusal :=
  s.runK .keep t fun s => if s.mramOk then s.setPwr (fun k => { k with hrOpSec := s.opSec }) else s

/-- Terms of the exponential series for `f` in [0, 1), in 2^-32. -/
def expSeries (f : Int) : Int :=
  ((List.range 16).foldl (fun (p : Int × Int) i => (p.1 + p.2, p.2 * f / 2 ^ 32 / (i + 1 : Int))) (0, 2 ^ 32)).1

/-- exp(x / 2^32), in 2^-16, rounded down (assumption 19): the whole part by powers of e, the rest by the series. -/
def expFix (x : Int) : Nat :=
  let n := x / 2 ^ 32
  let m := expSeries (x - n * 2 ^ 32)
  let e : Int := 11674931555
  let m := if 0 ≤ n then (List.range n.toNat).foldl (fun m _ => m * e / 2 ^ 32) m
    else (List.range (-n).toNat).foldl (fun m _ => m * 2 ^ 32 / e) m
  (m / 2 ^ 16).toNat

/-- The acceleration factor AF of R534 at a temperature in 1/8 °C, in 2^-16. -/
def ageFactor (t8 : Int) : Nat :=
  expFix ((70000000 * 2 ^ 32 * 100 / 36815 - 70000000 * 2 ^ 32 * 200 / (25 * t8 + 54630)) / 8617)

/-- HEALTH_WARN (R548). -/
def State.health (s : State) (kind num cause : Nat) : State :=
  s.raise 1 0 0 ([kind] ++ leBytes 2 num ++ [cause])

/-- The thresholds of LIFE_USED (R534). -/
def State.lifeChecks (s : State) : State :=
  let n := (if s.r KPR.LIFE_WARN_PCT * 350640 < 100 * s.r KPR.LIFE_USED then 1 else 0) +
    (if 350640 < s.r KPR.LIFE_USED then 1 else 0)
  let was := s.pwr.lifeRaised
  let s := s.setPwr (fun k => { k with lifeRaised := max k.lifeRaised n })
  s.when (decide (was < n)) (fun s => s.health 3 0 0)

/-- R534: the wear of one second. -/
def execLifeTick (t : Nat) (s : State) : Host.Outcome State Fault Refusal :=
  s.runK .keep t fun s =>
    let hot := (List.range 4).foldl (fun m i => max m (s.ri PCR.TEMP 0 i)) (s.ri PCR.TEMP)
    let f := s.pwr.lifeFrac + ageFactor hot
    let hour := 3600 * 65536
    let s := s.setPwr (fun k => { k with lifeFrac := f % hour })
    (s.inc KPR.LIFE_USED 0 0 (f / hour)).lifeChecks

/-! ### The mirrored store (R531 to R533) -/

/-- The state field of a device. -/
def devFld (d : Nat) : Fld := if d = 0 then PST.DEV0_STATE else PST.DEV1_STATE

/-- A device is marked failed; the loss of the good device during a resynchronisation leaves the other one untrusted (R532, R533). -/
def State.devFail (s : State) (d : Nat) : State :=
  let was := s.r (devFld d)
  if was ≠ 1 ∧ was ≠ 4 then s
  else
    let s := (s.w (devFld d) 2).raise 3 0 0 [d]
    let s := if was = 1 ∧ s.r (devFld (1 - d)) = 4 then s.w (devFld (1 - d)) 2 else s
    if s.mramOk then s else s.persistLost

/-- R532: a transaction of a device exceeds 1 ms. -/
def execMramTimeout (t : Nat) (dev : Fin 2) (s : State) : Host.Outcome State Fault Refusal :=
  s.runK .keep t fun s => (s.inc PST.TIMEOUTS).devFail dev

/-- A device's first copy that fails its check is rewritten from the other device, where that one is in OK state and its copy is good (R531). -/
def State.rewriteCopy (s : State) (d : Nat) : State :=
  match s.pwr.mramBad.find? (fun p => p.1 == d) with
  | some (_, a) =>
    if s.r (devFld (1 - d)) = 1 ∧ !s.pwr.mramBad.contains (1 - d, a) then
      s.setPwr (fun k => { k with mramBad := k.mramBad.filter (fun p => p != (d, a)) })
    else s
  | none => s

/-- R531, R532: a failed check on a device is repaired from the other; 16 in one hour of operating time fail the device. -/
def execMramReadFix (t : Nat) (dev : Fin 2) (s : State) : Host.Outcome State Fault Refusal :=
  s.runK .keep t fun s =>
    let s := s.rewriteCopy dev
    let now := s.opSec
    let l := (dev.val, now) :: s.pwr.fixTimes.filter (fun p => decide (now < p.2 + 3600))
    let s := (s.setPwr (fun k => { k with fixTimes := l })).inc PST.READ_FIX
    if 16 ≤ (l.filter (fun p => p.1 == dev.val)).length then s.devFail dev else s

/-- R533: PST_CMD = REMOVE. A removal of the only device in OK state is refused. -/
def execPstRemove (t : Nat) (r : Requester) (dev : Fin 2) (s : State) : Host.Outcome State Fault Refusal :=
  s.cmdK t fun s => s.lockedCmd r ⟨3, 0⟩ fun s =>
    let s := s.w PST.DEV dev
    if s.r (devFld dev) = 1 ∧ s.r (devFld (1 - dev.val)) ≠ 1 then s.inc PST.REFUSED
    else ((s.w (devFld dev) 3).writeRec 0x424 [dev.val]).raise 3 0 2 [dev.val]

/-- R533: PST_CMD = INSERT. Only a device that is OUT is inserted, and only beside a device in OK state (assumption 20). -/
def execPstInsert (t : Nat) (r : Requester) (dev : Fin 2) (s : State) : Host.Outcome State Fault Refusal :=
  s.cmdK t fun s => s.lockedCmd r ⟨3, 0⟩ fun s =>
    let s := s.w PST.DEV dev
    if s.r (devFld dev) = 3 ∧ s.r (devFld (1 - dev.val)) = 1 then
      (((s.w (devFld dev) 4).w PST.CHECKPOINT 0).w PST.RESYNC_PCT 0).setPwr (fun k => { k with chunks := 0 })
    else s.inc PST.REFUSED

/-- R533: a chunk is copied and checkpointed; the last one completes the resynchronisation. It waits while an install that started first runs (R518). -/
def execResyncChunkDone (t : Nat) (s : State) : Host.Outcome State Fault Refusal :=
  s.runK .keep t fun s =>
    let d := if s.r PST.DEV0_STATE = 4 then 0 else 1
    if s.r (devFld d) ≠ 4 ∨ (s.r SEC.FW_STATE ≠ 0 ∧ !s.sec.waits) then s
    else
      let n := s.pwr.chunks + 1
      let s := ((s.setPwr (fun k => { k with chunks := n, mramBad := k.mramBad.filter (fun p => !(p.1 == d && p.2 / 65536 == n - 1)) })).w PST.CHECKPOINT (n - 1)).w PST.RESYNC_PCT (100 * n / 256)
      if n < 256 then s else ((s.w (devFld d) 1).raise 3 0 1 [d]).persistBack

/-- R548: CTR_CLR of the KPR page. -/
def execKprCtrClr (t : Nat) (r : Requester) (s : State) : Host.Outcome State Fault Refusal :=
  s.cmdK t fun s => s.pageWrite r ⟨1, 0⟩ true fun s =>
    (((s.w KPR.CE_TOTAL 0).w KPR.UE_TOTAL 0).w KPR.POISON_COUNT 0).w KPR.KPR_RESETS 0

/-- R549: CTR_CLR of the PST page. -/
def execPstCtrClr (t : Nat) (r : Requester) (s : State) : Host.Outcome State Fault Refusal :=
  s.cmdK t fun s => s.pageWrite r ⟨3, 0⟩ true fun s =>
    ((s.w PST.READ_FIX 0).w PST.TIMEOUTS 0).w PST.REFUSED 0

end Sys2Proof.Machine
end

