-- ==== Sys2Proof/Machine/Repair.lean ====
section
/-! DEFINITION. Axolotl: the patrol scrub and the replacement of row groups of the solver SRAM (R535, R538 to R542). -/

namespace Sys2Proof.Machine

/-- The parity of a number's first 17 bits. -/
def parity17 (x : Nat) : Nat := ((List.range 17).filter (fun i => x.testBit i)).length % 2

/-- Elimination over GF(2): a row reduced by rows that each lead with a bit of their own. -/
def gfReduce (rows : List (Nat × Nat)) (x : Nat) : Nat := rows.foldl (fun x p => if x.testBit p.1 then x ^^^ p.2 else x) x

/-- The rank over GF(2) of rows of 17 bits. -/
def gfRank (rows : List Nat) : Nat :=
  (rows.foldl (fun (acc : List (Nat × Nat)) (x : Nat) =>
    let y := gfReduce acc x
    match (List.range 17).find? (fun i => y.testBit i) with
    | some i => acc ++ [(i, y)]
    | none => acc) []).length

/-- K_h of the present boot (R130): 6 rows of 17 bits, a free value of each boot among the matrices of rank 6. A draw of lower rank is not accepted; the first rows of the identity stand for the one then drawn again (assumption 99). -/
def State.bankKey (s : State) : List Nat :=
  let k := (Config.free 102 (2 ^ 80 + s.r DSQ.HASH_EPOCH)).toNat
  let rows := (List.range 6).map (fun i => k / 2 ^ (17 * i) % 2 ^ 17)
  if gfRank rows = 6 then rows else (List.range 6).map (fun i => 2 ^ i)

/-- The bank of a logical solver SRAM address: w[5:0] xor K_h × w[22:6] (R130). -/
def State.sramBank (s : State) (a : Nat) : Nat :=
  let w := (a - 0x40000000) / 8
  let h := (s.bankKey.zipIdx).foldl (fun (v : Nat) (p : Nat × Nat) => v + parity17 (p.1 &&& (w / 64 % 2 ^ 17)) * 2 ^ p.2) 0
  (w % 64) ^^^ h

/-- The row group of a logical solver SRAM address (R538). -/
def rowGroup (a : Nat) : Nat := (a - 0x40000000) / 0x40000

/-- A word at an address lies in a row group of a bank. -/
def State.inGroup (s : State) (bank grp a : Nat) : Bool := s.sramBank a == bank && rowGroup a == grp

/-- The spares of a bank that the repair map uses. -/
def State.usedSpares (s : State) (bank : Nat) : List Nat :=
  ((s.pwr.repair ++ s.pwr.copying.toList).filter (fun m => m.bank == bank && decide (256 ≤ m.target))).map (fun m => m.target - 256)

/-- The free spares of a bank (R548). -/
def State.freeSpareGroups (s : State) (bank : Nat) : List Nat :=
  (List.range 16).filter (fun n => !(s.usedSpares bank).contains n)

/-- The groups of a bank retired under R541. -/
def State.borrowed (s : State) (bank : Nat) : Nat := (s.pwr.repair.filter (fun m => m.bank == bank && decide (m.target < 256))).length

/-- A row group is to be replaced: an uncorrectable error in it, or CE_LIMIT corrected errors within a day of operating time (R539). -/
def State.groupDue (s : State) (bank grp : Nat) : Bool :=
  s.pwr.bad.any (fun b => b.1 == 0 && s.inGroup bank grp b.2) ||
  decide (s.r KPR.CE_LIMIT ≤
    (s.pwr.ce.filter (fun c => c.1 == bank && c.2.1 == grp && decide (s.opSec < c.2.2 + 86400))).length)

/-- The number of a memory in events (the spec numbers none; the order of R535 and then the rest). -/
def scrubNum : ScrubMem → Nat
  | .solver => 0
  | .general => 1
  | .loop => 2
  | .rc => 3
  | .prog => 4
  | .data => 5
  | .ret => 6
  | .image => 7
  | .ring => 8
  | .patch => 9

/-- An uncorrectable error found by the scrub acts as the block's chapter gives (R206, R214, R286, R295, R542); outside solver SRAM it also raises HEALTH_WARN (R535). -/
def State.scrubBad (s : State) (mem : ScrubMem) (a : Nat) : State :=
  let mark := fun (s : State) (k : Nat) => { s with pwr := { s.pwr with bad := (k, a) :: s.pwr.bad.filter (fun b => !(b == (k, a))) } }
  let warn := fun (s : State) => s.health 4 (scrubNum mem) 0
  match mem with
  | .solver => mark s 0
  | .general => warn s
  | .loop => warn (s.loopMemError (a / 64))
  | .rc => warn (s.rcMemError a)
  | .prog => warn ((List.range 4).foldl (fun (s : State) (h : Nat) =>
      let x := (s.eng h).image
      if x.base ≤ a ∧ a < x.base + x.words then s.reloadProg h else s) s)
  | .data => warn (mark s 4)
  | .ret => warn (mark s 5)
  | .image => warn s
  | .ring => warn s
  | .patch => warn s

/-- R535, R539: the scrub reads a word. -/
def execScrubRead (t : Nat) (mem : ScrubMem) (addr : Nat) (res : ScrubResult) (s : State) : Host.Outcome State Fault Refusal :=
  s.runK .keep t fun s =>
    match res with
    | .clean => s
    | .corrected =>
      let s := s.inc KPR.CE_TOTAL
      if mem = .solver then
        s.setPwr (fun k => { k with ce := (s.sramBank addr, rowGroup addr, s.opSec) :: k.ce.filter (fun c => decide (s.opSec < c.2.2 + 86400)) })
      else s
    | .uncorrectable => (s.inc KPR.UE_TOTAL).scrubBad mem addr

/-- R539 to R541, R545: the copy of a row group into the lowest free spare of its bank, or into the highest row group of the bank below SOLVER_CAP. One copy runs at a time, and of two row groups of a bank that are due the lower one goes first. -/
def execRowgroupReplace (t : Nat) (bank : Fin 64) (grp : Fin 256) (s : State) : Host.Outcome State Fault Refusal :=
  s.runK .keep t fun s =>
    if s.pwr.copying.isSome ∨ !s.groupDue bank grp ∨ (List.range grp).any (s.groupDue bank) then s
    else
      let target := match s.freeSpareGroups bank with
        | n :: _ => 256 + n
        | [] => rowGroup (s.r DSQ.SOLVER_CAP - 1)
      s.setPwr (fun k => { k with copying := some { bank := bank, grp := grp, target := target } })

/-- R540 to R542, R546: the entry is committed to the repair map and the mapping switches. Words with an uncorrectable error are poisoned. Nothing is relied on while no MRAM device holds the map. -/
def State.commitGroup (s : State) : State :=
  match s.pwr.copying with
  | none => s
  | some m =>
    if !s.mramOk then s
    else
      let lost := (s.pwr.bad.filter (fun b => b.1 == 0 && s.inGroup m.bank m.grp b.2)).map (·.2)
      let s := s.setPwr (fun k => { k with
        copying := none, repair := k.repair.filter (fun x => !(x.bank == m.bank && x.grp == m.grp)) ++ [{ m with committed := true }],
        bad := k.bad.filter (fun b => !(b.1 == 0 && lost.contains b.2)),
        poison := k.poison.filter (fun a => !lost.contains a) ++ lost,
        ce := k.ce.filter (fun c => !(c.1 == m.bank && c.2.1 == m.grp)) })
      let s := s.setPwr (fun k => { k with sparesUsed := sput k.sparesUsed m.bank (s.usedSpares m.bank).length })
      let s := match lost.getLast? with
        | some a => (s.w KPR.POISON_ADDR a).inc KPR.POISON_COUNT 0 0 lost.length
        | none => s
      let num := leBytes 2 (256 * m.bank + m.grp)
      let s := s.writeRec 0x431 ([m.bank, m.grp, m.target % 256, (s.freeSpareGroups m.bank).length] ++ leBytes 2 lost.length)
      let s := s.raise 1 0 1 ([1] ++ num ++ [0])
      if 256 ≤ m.target then s
      else
        let s := s.capDrop
        if s.pwr.exhausted.contains m.bank then s
        else (s.setPwr (fun k => { k with exhausted := k.exhausted ++ [m.bank] })).raise 1 0 2 ([1] ++ num ++ [1])

/-- R540: the replacement in progress commits. -/
def execRowgroupCommit (t : Nat) (s : State) : Host.Outcome State Fault Refusal :=
  s.runK .keep t State.commitGroup

end Sys2Proof.Machine
end

