-- ==== Sys2Proof/Machine/Serial.lean ====
section
/-! DEFINITION. The serial channels (R430 to R436). -/

namespace Sys2Proof.Machine

/-- The record of a serial channel. -/
def State.serX (s : State) (ch : Nat) : SerX := sget {} s.ser ch

/-- Replace the record of a serial channel. -/
def State.setSer (s : State) (ch : Nat) (x : SerX) : State := { s with ser := sset {} s.ser ch x }

/-- One bit of the Modbus CRC (R432). -/
def crc16Bit (c : Nat) : Nat := if c % 2 = 1 then (c / 2) ^^^ 0xA001 else c / 2

/-- One byte of the Modbus CRC (R432). -/
def crc16Byte (c b : Nat) : Nat := (List.range 8).foldl (fun c _ => crc16Bit c) (c ^^^ b)

/-- The Modbus CRC of a run of bytes (R432). -/
def crc16 (bs : List Nat) : Nat := bs.foldl crc16Byte 0xFFFF

/-- The bits of a character on the wire: in MBUS mode even parity and 1 stop bit (R430). -/
def State.charBits (s : State) (ch : Nat) : Nat :=
  if s.r SER.MODE ch = 3 then 11 else 10 + (s.r SER.PARITY ch != 0 : Bool).toNat + s.r SER.STOP2 ch

/-- `n` bit times in ns. -/
def State.bitNs (s : State) (ch n : Nat) : Nat := n * 1000000000 / s.r SER.BAUD ch

/-- t1.5 of R432 in ns. -/
def State.t15 (s : State) (ch : Nat) : Nat := if s.r SER.BAUD ch ≤ 19200 then s.bitNs ch 33 / 2 else 750000

/-- The end gap of a mode in ns (R432, R433, R434). -/
def State.endGap (s : State) (ch : Nat) : Nat :=
  match s.r SER.MODE ch with
  | 2 => if s.r SER.BAUD ch ≤ 19200 then s.bitNs ch 77 / 2 else 1750000
  | 3 => s.bitNs ch 33
  | _ => s.bitNs ch (s.r SER.GAP_CHARS ch * s.charBits ch)

/-- The bytes of TX_BUF that a transaction sends. -/
def State.txBytes (s : State) (ch : Nat) : List Nat :=
  ((List.range 128).flatMap (fun i => leBytes 4 (s.r SER.TX_BUF ch i))).take (s.r SER.TX_LEN ch)

/-- A transaction ends with a result (R431 step 5). -/
def State.serEnd (s : State) (ch res : Nat) : State :=
  let x := s.serX ch
  let s := s.setSer ch { x with abort := false, deAt := if s.r SER.STATE ch = 2 then some s.up else x.deAt }
  let s := ((s.w SER.STATE 5 ch).w SER.RESULT res ch).w SER.RX_LEN x.rx.length ch
  let pay := [res] ++ leBytes 2 (s.r SER.RX_LEN ch)
  let s := s.raise 25 ch 0 pay
  if res = 0 then s else (s.inc SER.ERRORS ch).raise 25 ch 1 pay [res]

/-- R431: CMD = START. -/
def execSerStart (t : Nat) (r : Requester) (ch : Fin 8) (s : State) : Host.Outcome State Fault Refusal :=
  s.cmdK t fun s => s.pageWrite r ⟨25, ch⟩ true fun s =>
    let st := s.r SER.STATE ch
    if (st = 0 ∨ st = 5) ∧ s.r SER.MODE ch ≠ 0 ∧ s.enabled 25 ch ∧ !s.isStandby then
      (s.w SER.STATE 1 ch).setSer ch { t0 := s.up, deAt := (s.serX ch).deAt }
    else s.inc SER.REFUSED ch

/-- R431: CMD = ABORT: with a character under way the transaction ends at its end, else at once. -/
def execSerAbort (t : Nat) (r : Requester) (ch : Fin 8) (s : State) : Host.Outcome State Fault Refusal :=
  s.cmdK t fun s => s.pageWrite r ⟨25, ch⟩ true fun s =>
    let st := s.r SER.STATE ch
    if st = 1 ∨ st = 3 then s.serEnd ch 8
    else if st = 2 ∨ st = 4 then s.setSer ch { s.serX ch with abort := true }
    else s

/-- R431 step 1: SER_RX has been idle for the end gap since START or the last character (assumption 151). -/
def execSerIdleGap (t : Nat) (ch : Fin 8) (s : State) : Host.Outcome State Fault Refusal :=
  s.runK .field t fun s =>
    if s.r SER.STATE ch = 1 ∧ (s.serX ch).t0 + s.endGap ch ≤ s.up then
      let bs := s.txBytes ch
      let crc := if s.r SER.MODE ch = 2 ∧ s.on SER.CRC_GEN ch then leBytes 2 (crc16 bs) else []
      (s.w SER.STATE 2 ch).setSer ch { s.serX ch with sent := bs ++ crc, t0 := s.up }
    else s

/-- R430, R431 step 2: the last stop bit ends, one bit time and all characters after SER_DE rose; an aborted sending ends at a character's end. -/
def execSerTxDone (t : Nat) (ch : Fin 8) (s : State) : Host.Outcome State Fault Refusal :=
  s.runK .field t fun s =>
    let x := s.serX ch
    if s.r SER.STATE ch ≠ 2 then s
    else if x.abort then s.serEnd ch 8
    else if s.up < x.t0 + s.bitNs ch (1 + x.sent.length * s.charBits ch) then s
    else (s.w SER.STATE 3 ch).setSer ch { x with t0 := s.up, deAt := some s.up }

/-- R431 step 3: TURN_MS expires with EXPECT = 0. -/
def execSerTurnaroundEnd (t : Nat) (ch : Fin 8) (s : State) : Host.Outcome State Fault Refusal :=
  s.runK .field t fun s =>
    if s.r SER.STATE ch = 3 ∧ s.r SER.EXPECT ch = 0 ∧ (s.serX ch).t0 + 1000000 * s.r SER.TURN_MS ch ≤ s.up then s.serEnd ch 0
    else s

/-- R431 step 3: no start bit within RESP_TMO_MS. -/
def execSerRespTimeout (t : Nat) (ch : Fin 8) (s : State) : Host.Outcome State Fault Refusal :=
  s.runK .field t fun s =>
    if s.r SER.STATE ch = 3 ∧ s.r SER.EXPECT ch = 1 ∧ (s.serX ch).t0 + 1000000 * s.r SER.RESP_TMO_MS ch ≤ s.up then
      s.serEnd ch 1
    else s

/-- The length of an M-Bus frame by its first two bytes; none while open or with an undefined first byte (R433). -/
def mbusLength : List Nat → Option Nat
  | 0xE5 :: _ => some 1
  | 0x10 :: _ => some 5
  | 0x68 :: l :: _ => some (l + 6)
  | _ => none

/-- The structure error of an M-Bus frame as far as received: an undefined first byte, a third byte other than L, a fourth other than 0x68 (R433). -/
def mbusFormat (bs : List Nat) : Bool :=
  match bs with
  | [] => false
  | 0xE5 :: _ => false
  | 0x10 :: _ => false
  | 0x68 :: rest =>
    (match rest with
    | l :: l2 :: q => l2 != l || (match q with
      | f :: _ => f != 0x68
      | [] => false)
    | _ => false)
  | _ => true

/-- The check of a complete M-Bus frame: 5 CHECK for a wrong sum, 6 FORMAT for a last byte other than 0x16, the sum's byte coming first (R431, R433). -/
def mbusCheck (bs : List Nat) : Nat :=
  match bs with
  | 0xE5 :: _ => 0
  | b0 :: _ =>
    let body := (bs.drop (if b0 = 0x10 then 1 else 4)).dropLast.dropLast
    if bs.dropLast.getLast? ≠ some (body.sum % 256) then 5
    else if bs.getLast? ≠ some 0x16 then 6
    else 0
  | [] => 0

/-- The first error found stands. -/
def firstErr (a b : Nat) : Nat := if a ≠ 0 then a else b

/-- A character is stored in step 4, with the checks of its mode (R431 to R433). -/
def State.serStore (s : State) (ch b : Nat) (parityOk framingOk : Bool) : State :=
  let x := s.serX ch
  if 512 ≤ x.rx.length then s.serEnd ch (firstErr x.err 7)
  else
    let start := s.up - s.bitNs ch (s.charBits ch)
    let gap := s.r SER.MODE ch = 2 ∧ x.rx ≠ [] ∧ x.lastChar + s.t15 ch < start
    let err := firstErr x.err (if gap then 4 else if !parityOk then 2 else if !framingOk then 3 else 0)
    let rx := x.rx ++ [b]
    let err := if s.r SER.MODE ch = 3 ∧ mbusFormat rx then firstErr err 6 else err
    let s := s.setSer ch { x with rx := rx, err := err, lastChar := s.up }
    if x.abort then s.serEnd ch 8
    else if s.r SER.MODE ch = 3 ∧ mbusLength rx = some rx.length then s.serEnd ch (firstErr err (mbusCheck rx))
    else s

/-- The receiver ignores a character that starts while SER_DE is high or within one bit time after its fall (R430). -/
def State.serDeaf (s : State) (ch : Nat) : Bool :=
  s.r SER.STATE ch == 2 || (match (s.serX ch).deAt with
    | some d => decide (s.up < d + s.bitNs ch (1 + s.charBits ch))
    | none => false)

/-- R430, R431: a character is received. -/
def execSerCharRx (t : Nat) (ch : Fin 8) (b : BitVec 8) (parityOk framingOk : Bool) (s : State) :
    Host.Outcome State Fault Refusal :=
  s.runK .field t fun s =>
    let st := s.r SER.STATE ch
    if s.serDeaf ch then s
    else if st = 3 ∧ s.on SER.EXPECT ch then (s.w SER.STATE 4 ch).serStore ch b.toNat parityOk framingOk
    else if st = 4 then s.serStore ch b.toNat parityOk framingOk
    else ((if st = 1 then s.setSer ch { s.serX ch with t0 := s.up } else s)).inc SER.UNSOLICITED ch

/-- The check of a Modbus reply: CRC, then the first byte against the request's (R432). -/
def State.modbusCheck (s : State) (ch : Nat) (rx : List Nat) : Nat :=
  if rx.length < 3 ∨ crc16 (rx.take (rx.length - 2)) ≠ leVal (rx.drop (rx.length - 2)) then 5
  else if rx.head? ≠ (s.txBytes ch).head? then 6
  else 0

/-- R432 to R434: the silence that ends a received frame; in MBUS mode a frame that its structure has not ended is a FORMAT error. -/
def execSerFrameEnd (t : Nat) (ch : Fin 8) (s : State) : Host.Outcome State Fault Refusal :=
  s.runK .field t fun s =>
    let x := s.serX ch
    if s.r SER.STATE ch ≠ 4 ∨ s.up < x.lastChar + s.endGap ch then s
    else if x.abort then s.serEnd ch 8
    else match s.r SER.MODE ch with
      | 2 => s.serEnd ch (firstErr x.err (s.modbusCheck ch x.rx))
      | 3 => s.serEnd ch (firstErr x.err 6)
      | _ => s.serEnd ch x.err

/-- R435: CTR_CLR clears ERRORS and UNSOLICITED. -/
def execSerCtrClr (t : Nat) (r : Requester) (ch : Fin 8) (s : State) : Host.Outcome State Fault Refusal :=
  s.cmdK t fun s => s.pageWrite r ⟨25, ch⟩ true fun s => (s.rstF SER.ERRORS ch).rstF SER.UNSOLICITED ch

end Sys2Proof.Machine
end

