-- ==== Sys2Proof/Machine/View.lean ====
section
/-! DEFINITION. Axolotl: what a register word reads as (R48 to R51), the generic sum of its fields and the words that show state kept elsewhere. -/

namespace Sys2Proof.Machine

/-- The repetition of a field whose register lies at offset `off`. -/
def Fld.rep (f : Fld) (off : Nat) : Option Nat :=
  if off = f.off then some 0
  else if f.stride ≠ 0 ∧ f.off < off ∧ (off - f.off) % f.stride = 0 ∧ (off - f.off) / f.stride < f.n then
    some ((off - f.off) / f.stride)
  else none

/-- The fields of the register at an offset, each with its repetition. -/
def wordFields (pg : Page) (off : Nat) : List (Fld × Nat) :=
  (pageFields pg.code pg.inst).filterMap (fun f => (f.rep off).map (fun i => (f, i)))

/-- The value of a register as the sum of its fields; WO fields read 0 (R8). -/
def State.sumWord (s : State) (pg : Page) (off : Nat) : Nat :=
  ((wordFields pg off).map (fun p => if p.1.acc = .wo then 0 else s.r p.1 pg.inst p.2 * 2 ^ p.1.lsb)).sum

/-- A word of 32 truth values. -/
def bitWord (f : Nat → Bool) : Nat := ((List.range 32).map (fun k => if f k then 2 ^ k else 0)).sum

/-- A header word (R51). The block revision is left open by the spec (assumption 6). -/
def State.headWord (s : State) (pg : Page) (off : Nat) : Nat :=
  match off / 4 with
  | 0 => 256 * pg.code + pg.inst
  | 1 => 256 * (Config.free 8 (2 ^ 90 + pg.code)).toNat + 0xB0
  | 2 => s.h HDR.ENABLE pg + 4 * s.h HDR.FREEZE pg
  | 3 => s.h HDR.READY pg + 2 * s.h HDR.BUSY pg + 4 * s.h HDR.FAULT pg + 16 * s.h HDR.OWNER pg + 512 * s.h HDR.OPEN pg +
      1024 * s.h HDR.FROZEN pg + 2048 * s.h HDR.OWNER_PEND pg + 4096 * s.h HDR.PEND_REQ pg
  | 4 => s.h HDR.EVT_RAW pg
  | 5 => s.h HDR.EVT_EN pg
  | 6 => s.h HDR.EVT_PEND pg
  | 7 => s.h HDR.CLAMPS pg + 2 ^ 16 * s.h HDR.LAST_OFFSET pg + 2 ^ 26 * s.h HDR.LAST_BIT pg + 2 ^ 31 * s.h HDR.LAST_DATA pg
  | 8 => 2 ^ 16 * s.h HDR.OPEN pg
  | 9 => s.h HDR.OWNER pg
  | 10 => s.h HDR.COUNT pg
  | 11 => s.h HDR.OWNER_VIOL pg + 2 ^ 8 * s.h HDR.LOCK_VIOL pg + 2 ^ 16 * s.h HDR.SEQ_MISS pg + 2 ^ 24 * s.h HDR.ACCESS_ERR pg
  | _ => 0

/-- An EIC word that shows source states (R368). -/
def State.eicWord (s : State) (off : Nat) : Option Nat :=
  let st := fun n => (s.src n).st
  if 0x050 ≤ off ∧ off < 0x060 then
    let e := (off - 0x050) / 4
    some ((s.curPrio e).getD 0 + 16 * (s.curPrio e).isNone.toNat + 256 * s.r EIC.OFFER 0 e + 65536 * s.r EIC.OFFER_VALID 0 e)
  else if 0x100 ≤ off ∧ off < 0x120 then
    some (bitWord (fun k => let x := st (8 * (off - 0x100) + k); x == .pending || x == .activePending))
  else if 0x120 ≤ off ∧ off < 0x140 then
    some (bitWord (fun k => let x := st (8 * (off - 0x120) + k); x == .active || x == .activePending))
  else if 0x140 ≤ off ∧ off < 0x160 then
    some (bitWord (fun k => let n := 8 * (off - 0x140) + k; !pulseSource n && s.sourceLevel n))
  else if 0x400 ≤ off ∧ off < 0x800 then
    let n := (off - 0x400) / 4
    some (s.r EIC.PRIO 0 n + 16 * s.r EIC.TARGET 0 n + 256 * s.r EIC.EN 0 n + 512 * (aonSource n).toNat + 1024 * (pulseSource n).toNat)
  else none

/-- A TMK word that shows the time or a capture (R375, R393, R395). -/
def State.tmkWord (s : State) (off : Nat) : Option Nat :=
  let sec := s.now / 1000000000
  match off with
  | 0x040 => some (s.now % 1000000000)
  | 0x044 => some (sec % 2 ^ 32)
  | 0x048 => some (sec / 2 ^ 32 % 2 ^ 16 + 2 ^ 16 * (s.frac.toNat / 2 ^ 24))
  | 0x04C => some (s.ct % 2 ^ 32)
  | 0x050 => some (s.ct / 2 ^ 32 % 2 ^ 32)
  | 0x0A4 => some s.holdS
  | _ =>
    if 0x180 ≤ off ∧ off < 0x1C0 then
      let i := (off - 0x180) / 16
      let c := (s.capQ i).head?
      match off % 16 with
      | 4 => some ((c.map (·.ns)).getD 0)
      | 8 => some ((c.map (fun c => c.sec % 2 ^ 32)).getD 0)
      | 12 => some (capHi c)
      | _ => none
    else none

/-- An RTC word that shows the calendar (R397, R408). -/
def State.rtcWord (s : State) (off : Nat) : Option Nat :=
  let c := s.calShown
  match off with
  | 0x040 => some c.sec
  | 0x044 => some c.min
  | 0x048 => some c.hour
  | 0x04C => some c.wday
  | 0x050 => some c.day
  | 0x054 => some c.month
  | 0x058 => some c.year
  | 0x05C => some c.cent
  | 0x060 => some s.subsecShown
  | _ => none

/-- A CFD word that shows the time stamp counter or the receive window (R421, R429). -/
def State.canWord (s : State) (ch off : Nat) : Option Nat :=
  if off = 0x060 then some (s.canTs ch)
  else if 0x300 ≤ off ∧ off < 0x34C then
    match (s.canX ch).rxq.head? with
    | none => some 0
    | some e =>
      let f := e.frame
      some (match (off - 0x300) / 4 with
      | 0 => f.ident + 2 ^ 29 * f.ide.toNat + 2 ^ 30 * f.rtr.toNat
      | 1 => f.dlc + 16 * f.fdf.toNat + 32 * f.brs.toNat + 64 * f.esi.toNat + 256 * e.filter
      | 2 => e.ts.toNat
      | k => leVal ((f.data.drop (4 * (k - 3))).take 4))
  else none

/-- A SXE word of the windows that STN_SEL, PROF_SEL and PM_SEL open (R318). -/
def State.sxeWord (s : State) (off : Nat) : Option Nat :=
  let n := s.r SXE.STN_SEL
  let x := s.stn n
  let p := s.r SXE.PROF_SEL
  let m := s.r SXE.PM_SEL
  match off with
  | 0x08C => some (s.staleNow + 2 ^ 16 * s.downNow)
  | 0x0B4 => some (sget 0 s.sxe.profNew (64 * p + s.r SXE.PROF_WORD)).toNat
  | 0x0B8 => some (sget 0 s.sxe.profNew (4096 + 2 * p)).toNat
  | 0x0BC => some (sget 0 s.sxe.profNew (4096 + 2 * p + 1)).toNat
  | 0x0C4 => some (sget (pmDefault 0) s.sxe.pmapNew (2 * m)).toNat
  | 0x0C8 => some (sget (pmDefault 1) s.sxe.pmapNew (2 * m + 1)).toNat
  | 0x100 => some (stnCode x.st + 8 * qualityCode (s.stnQ n) + 32 * min 255 x.missedRun + 2 ^ 13 * x.inFlags.toNat +
      2 ^ 17 * x.pathA.toNat + 2 ^ 18 * x.pathB.toNat)
  | 0x104 => some x.echoLast.toNat
  | 0x108 => some (x.outMiss + 2 ^ 16 * x.missedTotal)
  | 0x10C => some (x.lastCycle.getD 0).toNat
  | _ =>
    if 0x06C ≤ off ∧ off ≤ 0x078 then
      let w := (off - 0x06C) / 4
      some (sget (if w = 0 then 0x00010300 else 0) s.sxe.staging (4 * n + w)).toNat
    else if 0x200 ≤ off ∧ off < 0x300 then some (s.lastGood (64 * n + (off - 0x200) / 4)).toNat
    else if 0x300 ≤ off ∧ off < 0x380 then some (s.soWord (32 * n + (off - 0x300) / 4)).toNat
    else if 0x800 ≤ off ∧ off < 0x900 then some (s.qualityMap ((off - 0x800) / 4))
    else none

/-- A word of an MPC page that shows rates (R340). -/
def State.mpcWord (s : State) (off : Nat) : Option Nat :=
  if 0x0E0 ≤ off ∧ off < 0x100 then some (bits 32 (s.tableRate ((off - 0x0E0) / 4)))
  else if 0x100 ≤ off ∧ off < 0x120 then some (bits 32 (s.liveRate ((off - 0x100) / 4)))
  else if 0x120 ≤ off ∧ off < 0x140 then some (bits 32 (s.effRate ((off - 0x120) / 4)))
  else if 0x140 ≤ off ∧ off < 0x160 then
    let g := (off - 0x140) / 4
    some (s.r MPC.LIVE_LOOP 0 g + 512 * (s.liveValid g).toNat)
  else none

/-- A CLE word of the loop window (R213) and of the repetitive-controller window (R216): words 0 to 47 show the staging copy and words 48 to 63 the slot named by LOOP_SEL. -/
def State.cleWord (s : State) (c off : Nat) : Option Nat :=
  if 0x100 ≤ off ∧ off < 0x200 then
    let w := (off - 0x100) / 4
    let g := 128 * c + s.r CLE.LOOP_SEL c
    if w < 48 then some (s.staged c w) else some (s.lw g w)
  else if off = 0x09C then some (sget 0 s.rcMem (s.r CLE.RC_WIN_ADDR c)).toNat
  else none

/-- An LGE word of the task window, of MEM_DATA, and of the registers that page 0 alone holds (R293). -/
def State.lgeWord (s : State) (e off : Nat) : Option Nat :=
  let h := s.home e
  let i := s.r LGE.TASK_SEL e
  let x := s.eng e
  match off with
  | 0x094 =>
    if i < (s.prog e).tasks.length then
      let k := s.task e i
      let act := (x.cur.toList ++ x.frozen).any (fun l => (sget {} x.banks l).task == some i)
      some (k.kind.code + 4 * k.prio + 64 * act.toNat + 128 * (x.waiting.any (fun w => w.1 == i)).toNat +
        256 * k.source + 65536 * sget 0 (s.eng h).overruns i)
    else some 0
  | 0x098 => some (sget 0 (s.eng h).taskMax i)
  | 0x0A4 => some (s.memData e).toNat
  | _ => if 0x0C0 ≤ off ∧ off < 0x0E8 ∧ e ≠ 0 then some 0 else none

/-- A word that shows state kept outside the register fields, if it is one. -/
def State.special (s : State) (pg : Page) (off : Nat) : Option Nat :=
  let i := pg.inst
  match pg.code with
  | 0 => if off = 0x048 then some (bitWord (fun k => k < 9 && s.pwr.clk.getLsbD k && s.pwr.pll.getLsbD k)) else none
  | 1 =>
    match off with
    | 0x048 => some (s.opSec % 2 ^ 32)
    | 0x04C => some (s.opSec / 2 ^ 32 % 256)
    | 0x06C => some ((s.freeSpareGroups (s.r KPR.BANK_SEL)).length + 256 * s.borrowed (s.r KPR.BANK_SEL))
    | _ => none
  | 2 =>
    match off with
    | 0x06C => some (s.r SEC.DBG_SCOPE + 256 * s.dbgRemain)
    | 0x08C => some (s.r SEC.FW_STATE + 256 * s.fwPct + 65536 * s.r SEC.FW_ACTIVE)
    | _ => none
  | 5 => s.eicWord off
  | 7 => if off = 0x0C0 then some (s.sumWord pg off % 256 + 256 * min 255 (s.port i).buf.length) else none
  | 8 => s.tmkWord off
  | 9 => s.rtcWord off
  | 10 =>
    match off with
    | 0x05C =>
      let c := s.r REC.CODE_SEL
      some ((s.code c).cfg + 256 * (mandatory c).toNat + 65536 * min 65535 (s.code c).supp)
    | 0x064 => some ((s.cls (s.r REC.CLASS_SEL)).1 + 2 ^ 24 * (s.cls (s.r REC.CLASS_SEL)).2)
    | _ => none
  | 18 => s.cleWord i off
  | 19 => if 0x400 ≤ off ∧ off < 0x5C0 ∧ off % 8 = 4 then some (s.recordHi ((off - 0x404) / 8)) else none
  | 21 => s.lgeWord i off
  | 22 => s.sxeWord off
  | 23 => if i = 24 then s.mpcWord off else none
  | 24 => s.canWord i off
  | 25 => if 0x400 ≤ off ∧ off < 0x600 then some (leVal (((s.serX i).rx.drop (off - 0x400)).take 4)) else none
  | 28 => if off = 0x148 ∨ off = 0x14C then some (s.pinOut ((off - 0x148) / 4)) else none
  | _ => none

/-- A register word as it stands, the hold of FREEZE apart. -/
def State.liveWord (s : State) (pg : Page) (off : Nat) : Nat :=
  if off < 0x040 then s.headWord pg off else (s.special pg off).getD (s.sumWord pg off)

/-- The bits of a register that hold RO status and counter fields. -/
def roMask (pg : Page) (off : Nat) : Nat :=
  ((wordFields pg off).map (fun p => if p.1.acc = .ro then (2 ^ p.1.width - 1) * 2 ^ p.1.lsb else 0)).sum

/-- A register word as it reads: while FREEZE holds, RO fields show their values of the instant it was set (R51). -/
def State.view (s : State) (pg : Page) (off : Nat) : Nat :=
  let v := s.liveWord pg off
  if s.h HDR.FROZEN pg = 0 then v
  else
    match (s.px pg).shadow.find? (fun p => p.1 == off) with
    | none => v
    | some p => (v &&& (2 ^ 32 - 1 - roMask pg off)) ||| (p.2.toNat &&& roMask pg off)

/-- The offsets of a page's registers that hold RO fields. -/
def roOffsets (pg : Page) : List Nat :=
  ((pageFields pg.code pg.inst).filter (fun f => f.acc == .ro)).flatMap (fun f => (List.range f.n).map (fun i => f.off + i * f.stride))

end Sys2Proof.Machine
end

