-- ==== Sys2Proof/Machine/Pages.lean ====
section
/-! DEFINITION. Axolotl: the common page header in operation (R50 to R63, R567, R569): ENABLE, FREEZE, SOFT_RESET, events, the lock, ownership, the guard, staged words, gated and reserved addresses, the AON gateway and the island PLLs. -/

namespace Sys2Proof.Machine

/-! ### Error and clamp counters -/

/-- PG_CTRL.ERR_CLR clears all fields of PG_ERRCNT (R51). -/
def State.errClr (s : State) (pg : Page) : State :=
  (((s.hw HDR.ACCESS_ERR pg 0).hw HDR.SEQ_MISS pg 0).hw HDR.LOCK_VIOL pg 0).hw HDR.OWNER_VIOL pg 0

/-- R51: a write of ERR_CLR = 1. -/
def execErrClr (t : Nat) (r : Requester) (pg : Page) (s : State) : Host.Outcome State Fault Refusal :=
  s.cmdK t fun s => s.pageWrite r pg false (fun s => s.errClr pg)

/-- PG_CTRL.CLAMP_CLR clears PG_CLAMP (R51). -/
def State.clampClr (s : State) (pg : Page) : State :=
  (((s.hw HDR.CLAMPS pg 0).hw HDR.LAST_OFFSET pg 0).hw HDR.LAST_BIT pg 0).hw HDR.LAST_DATA pg 0

/-- R51: a write of CLAMP_CLR = 1. -/
def execClampClr (t : Nat) (r : Requester) (pg : Page) (s : State) : Host.Outcome State Fault Refusal :=
  s.cmdK t fun s => s.pageWrite r pg false (fun s => s.clampClr pg)

/-! ### Ownership (R54 to R58) -/

/-- The PCI Express link of the host port with owner code `o` is down. -/
def State.portDown (s : State) (o : Nat) : Bool := (o == 1 || o == 2) && s.r HQE.LINK_UP (o - 1) == 0

/-- A request for ownership (R57). -/
def State.requestOwner (s : State) (r : Requester) (pg : Page) : State :=
  let o := s.h HDR.OWNER pg
  let x := ownerCode r
  if o = x then s
  else if o = 0 ∨ s.portDown o = true then s.setOwner pg x
  else
    let again : Bool := s.h HDR.OWNER_PEND pg == 1 && s.h HDR.PEND_REQ pg == x
    let s := (s.hw HDR.OWNER_PEND pg 1).hw HDR.PEND_REQ pg x
    let s := if again then s else s.setPx pg { s.px pg with reqAt := s.up }
    s.raise pg.code pg.inst 30

/-- R55, R57: a write of OWNER_REQ = 1, which any requester may make. -/
def execOwnerReq (t : Nat) (r : Requester) (pg : Page) (s : State) : Host.Outcome State Fault Refusal :=
  s.cmdK t fun s =>
    if s.mayWrite r pg then s.pageWrite r pg false (fun s => s.requestOwner r pg)
    else if !pageExists pg then s.unmapped (pageAddr pg)
    else if !s.reaches r pg then s.gated (pageAddr pg)
    else ((s.breakKeys pg).countWrite pg).requestOwner r pg

/-- A write of PG_OWNER with the code `v`, clamped, by the owner or the Keeper (R56 to R58, R64). The owner that writes its own code while a request waits keeps the page and lets the request lapse: the spec names no outcome, DESIGN CHOICE (assumption 162). -/
def State.writeOwner (s : State) (r : Requester) (pg : Page) (v : Nat) : State :=
  let c := enumCode [0, 1, 2, 4, 5, 6, 7, 8] v
  let s := s.when (c != v) (fun s => s.clampCount pg 0x024 0)
  let waits := s.h HDR.OWNER_PEND pg == 1
  let x := s.h HDR.PEND_REQ pg
  let dest := if waits && c == 0 then x else c
  let s := s.setOwner pg dest
  (s.hw HDR.OWNER_PEND pg 0).hw HDR.PEND_REQ pg 0

/-- R56 to R58: a write of PG_OWNER. -/
def execOwnerWrite (t : Nat) (r : Requester) (pg : Page) (v : BitVec 4) (s : State) : Host.Outcome State Fault Refusal :=
  s.cmdK t fun s => s.pageWrite r pg false (fun s => s.writeOwner r pg v.toNat)

/-- R57: OWN_TIMEOUT has elapsed for a waiting request. -/
def execOwnTimeoutGrant (t : Nat) (pg : Page) (s : State) : Host.Outcome State Fault Refusal :=
  s.cmdK t fun s =>
    let lim := s.r IFX.OWN_TIMEOUT
    if s.h HDR.OWNER_PEND pg = 1 ∧ lim ≠ 0 ∧ (s.px pg).reqAt + 1000000 * lim ≤ s.up then
      s.setOwner pg (s.h HDR.PEND_REQ pg)
    else s

/-! ### FREEZE (R51) -/

/-- FREEZE is set or cleared: setting it copies the RO fields as they stand. -/
def State.setFreeze (s : State) (pg : Page) (on : Bool) : State :=
  if on then
    if s.h HDR.FROZEN pg = 1 then s
    else
      let words := (roOffsets pg).map (fun off => (off, BitVec.ofNat 32 (s.liveWord pg off)))
      let s := s.setPx pg { s.px pg with shadow := words, freezeAt := s.up }
      (s.hw HDR.FREEZE pg 1).hw HDR.FROZEN pg 1
  else ((s.setPx pg { s.px pg with shadow := [] }).hw HDR.FREEZE pg 0).hw HDR.FROZEN pg 0

/-- R51: a write of FREEZE. -/
def execFreeze (t : Nat) (r : Requester) (pg : Page) (on : Bool) (s : State) : Host.Outcome State Fault Refusal :=
  s.cmdK t fun s => s.pageWrite r pg false (fun s => s.setFreeze pg on)

/-- R51: FREEZE ends 10 ms after it was set. -/
def execFreezeExpiry (t : Nat) (pg : Page) (s : State) : Host.Outcome State Fault Refusal :=
  s.cmdK t fun s =>
    if s.h HDR.FROZEN pg = 1 ∧ (s.px pg).freezeAt + 10000000 ≤ s.up then s.setFreeze pg false else s

/-! ### ENABLE -/

/-- A CAN channel is disabled: it is in INIT, and its buffers wait (R411, R413). -/
def State.canDisable (s : State) (ch : Nat) : State :=
  let x := s.canX ch
  let s := match x.sending with
    | some b => s.w CFD.TX_STATE 1 ch b
    | none => s
  (s.w CFD.MODE 0 ch).setCan ch { x with sending := none, integrating := false, cancels := 0, owed := x.owed || s.busOff ch }

/-- The block idles or begins to operate as its chapter gives when ENABLE changes. -/
def State.enableHook (s : State) (pg : Page) (on : Bool) : State :=
  let i := pg.inst
  match pg.code with
  | 7 => if on then s.hqeEnable i else s
  | 8 => if on then s.gmRole
         else s.tmkIdle.gmRole
  | 16 => s.dsqEnable on
  | 18 => s.cleEnable i on
  | 19 => if on then s.mfeEnable else { s with sar := { valueAt := s.sar.valueAt, coded := s.sar.coded } }
  | 20 => s.actEnable on
  | 22 => s.sxeEnable on
  | 23 => if on then s else s.mpgDisable i
  | 24 => if on then s else s.canDisable i
  | 25 => if on then s else (s.setSer i { s.serX i with abort := false }).w SER.STATE 0 i
  | _ => s

/-- PG_CTRL.ENABLE takes a value; nothing that the block then does changes it. -/
def State.setEnable (s : State) (pg : Page) (on : Bool) : State :=
  if s.enabled pg.code pg.inst = on then s else ((s.hw HDR.ENABLE pg on.toNat).enableHook pg on).hw HDR.ENABLE pg on.toNat

/-- R51: a write of ENABLE. -/
def execEnable (t : Nat) (r : Requester) (pg : Page) (on : Bool) (s : State) : Host.Outcome State Fault Refusal :=
  s.cmdS t fun s => s.pageWrite r pg false (fun s => s.setEnable pg on)

/-! ### SOFT_RESET (R53, R569) -/

/-- The fields that a soft reset keeps: those that R569 names, those whose reset value is a stored one, and those that show kept or physical state. -/
def softKept : List Fld :=
  [ DSA.STATE, DSA.LOGICAL, DSA.CAUSE, DSA.FAIL_COUNT, DSQ.PERIOD_SEQ, DSQ.SOLVER_CAP, DSQ.HASH_EPOCH, DSQ.TRIP_STATE,
    DSQ.ACTIVE, DSQ.SPARES, DSQ.RETIRED ] ++
  [ LGE.PROG_BASE, LGE.PROG_WORDS, LGE.PROG_ID, LGE.RET_SEQ, LGE.IS_RESERVE, LGE.HOSTING, LGE.HOSTED, LGE.RUN_STATE,
    GIO.PIN_IN, CLE.LOAD ] ++
  [ TMK.STATE, TMK.REF_NOW, TMK.ADJ_NOW, TMK.F_NOW, TMK.HOLD_S, TMK.UTC_OFFSET, TMK.LEAP61, TMK.LEAP59,
    TMK.CLOCK_ID_LO, TMK.CLOCK_ID_HI, TMK.CLASS, TMK.ACCURACY, TMK.TSOURCE ] ++
  [ REC.FORM, REC.FROZEN, REC.PERSIST_OK, REC.HOLDING, REC.HEAD_SEQ, REC.OLDEST_SEQ, REC.PERSIST_SEQ, REC.EXP_SEQ,
    REC.CLR_NONCE_LO, REC.CLR_NONCE_HI, REC.HOLD_FILL ] ++
  [ DCH.UNIT_ADDR, DCH.MASTER_ADDR, DCH.TIME_MASTER, DCH.BIND_GEN, DCH.PRESENT, DCH.CLAIMABLE, DCH.UP_OK, DCH.DOWN_OK,
    DCH.RING_OK, DCH.PAIR_EPOCH, DCH.W_EPOCH, DCH.PAIR_EN ] ++
  [ SEC.ANCHOR_VALID, SEC.ANCHOR_REVOKED, SEC.POLICY, SEC.MIN_SVN, SEC.IDX_LO, SEC.IDX_HI, SEC.IDX_FLOOR, SEC.TOK_NONCE_LO,
    SEC.TOK_NONCE_HI, SEC.FW_ACTIVE, SEC.FW_VER_A, SEC.FW_VER_B, SEC.FW_STATE, SEC.DBG_SCOPE ] ++
  [ PCR.PWR_STATE, PCR.RESET_CAUSE, KPR.BOOT_STATE, KPR.PWR_CYC, KPR.OP_SEC_LO, KPR.OP_SEC_HI, KPR.LIFE_USED, KPR.ENG_RETIRED,
    PST.DEV0_STATE, PST.DEV1_STATE, PST.CHECKPOINT, PST.RESYNC_PCT ] ++
  [ NWT.WAKE_SRC, NWT.WAKE_SLOT, NWT.WAKE_VALID, NWT.WAKE_FROM, RTC.TIME_VALID, RTC.OSC_FAULT, RTC.VBAK_LOW,
    RTC.BPOR, RTC.PWRON_STATE, RTC.LEVEL, HQE.LINK_UP, HQE.SPEED, HQE.WIDTH, ETH.LINK_UP, ETH.SPEED,
    ESW.TABLE_USED, ESW.OVF_USED, ESW.TABLE_FULL, ACT.TRIP_LIVE ]

/-- The registers of the block return to their reset values, the kept fields apart. -/
def State.resetFields (s : State) (pg : Page) : State :=
  ((pageFields pg.code pg.inst).filter (fun f => !softKept.contains f)).foldl (fun s f => s.rstF f pg.inst) s

/-- Pulse outputs disarmed and at their inactive level, capture queues emptied (R569). -/
def State.tmkReset (s : State) : State :=
  let s := s.setTmk (fun k => { k with outs := [], caps := [], dreq := [], pdReq := [], nextLabel := none, lockRun := 0, misses := 0 })
  (s.wi TMK.ADJ_NOW (s.rateClamp (s.ri TMK.ADJ_NOW))).gmRole

/-- What lies beside the registers of a block and belongs to the operation that a soft reset ends, before its registers return. -/
def State.endOperation (s : State) (pg : Page) : State :=
  let i := pg.inst
  match pg.code with
  | 2 =>
    let st := s.r SEC.FW_STATE
    let s := if 1 ≤ st ∧ st < 5 then s.abandon st else s
    (s.closeDebug.w SEC.DBG_SCOPE 0).setSec (fun k => { k with attesting := false })
  | 10 =>
    let s := if s.on REC.FROZEN then s.thaw 3 else s
    let s := if s.rcd.exporting.isSome then s.endExport 0 else s
    let s := s.when (s.r REC.FORM == 2) (fun s => s.w REC.FORM 0)
    s.setRec (fun k => { k with win := none })
  | 11 => s.pairEnable false
  | 16 => s.abandonAll.setDsq (fun d => { d with slotA := {}, slotB := {}, named := false })
  | 21 => s.stopProgram i
  | 23 => s.mpgDisable i
  | 24 => s.canDisable i
  | 28 => s.turnPins (s.invertMask) 0
  | _ => s

/-- What lies beside the registers of a block and returns to its reset state with them. -/
def State.resetState (s : State) (pg : Page) : State :=
  let i := pg.inst
  match pg.code with
  | 5 => { s with sources := [], lastClaim := [], toEic := [] }
  | 6 => { s with aonRegs := s.aonRegs.filter (fun p => p.1 / 2 ^ 22 != 6), aonQ := s.aonQ.filter (fun w => w.1 != 6) }
  | 7 => (s.forN 8 fun s q => s.setQueue i q {}).setPort i { s.port i with buf := [], offers := [] }
  | 8 => s.tmkReset
  | 9 => { s.setRtc (fun k => { k with shadow := none }) with
           aonRegs := s.aonRegs.filter (fun p => p.1 / 2 ^ 22 != 9), aonQ := s.aonQ.filter (fun w => w.1 != 9) }
  | 11 => s.w DCH.PAIR_EN 0
  | 16 => ((s.setHo (fun h => { h with selected := none, published := none, resPlans := [], stagedPlan := none, bufD := 1, bufC := 2 })).enterSafe 0).loadPot
  | 18 => s.cleReset i
  | 19 => ({ s with sd := [], sar := {}, pulse := [] }).allTrips
  | 20 => ({ s with pwm := [] }).allTrips
  | 21 => (if i = 0 then (s.setReserve 4).showForces else s).showEng i
  | 22 => (s.stations.map (·.1)).foldl (fun s n => (s.setStn n {}).when (stnEn s.sxe.table n) (fun s => s.joinStn n))
      (s.setSxe (fun k => { k with outQ := [], inRead := false, cut := true }))
  | 23 => if i < 24 then s.setAxis i { limP := (s.axis i).limP, limN := (s.axis i).limN } else ({ s with groups := [] }).forN 8 (fun s g => s.groupEvents g)
  | 24 => s.setCan i { owed := (s.canX i).owed }
  | 25 => s.setSer i {}
  | 27 => s.fdbSync
  | _ => s

/-- A soft reset begins (R53): header state, then the block. The further state of R569 is kept. -/
def State.softReset (s : State) (pg : Page) : State :=
  let s := (s.setEnable pg false).endOperation pg
  let s := (((s.resetFields pg).resetState pg).setFreeze pg false).hw HDR.EVT_PEND pg 0
  let s := (s.hw HDR.BUSY pg 1).closeLock pg
  s.setPx pg { s.px pg with resetting := true, staged := [], latched := [] }

/-- R53: a write of SOFT_RESET = 1. -/
def execSoftReset (t : Nat) (r : Requester) (pg : Page) (s : State) : Host.Outcome State Fault Refusal :=
  s.cmdS t fun s => s.pageWrite r pg false (fun s => s.softReset pg)

/-- R53: the soft reset completes. -/
def execSoftResetDone (t : Nat) (pg : Page) (s : State) : Host.Outcome State Fault Refusal :=
  s.cmdK t fun s =>
    if (s.px pg).resetting then (s.hw HDR.BUSY pg 0).setPx pg { s.px pg with resetting := false } else s

/-! ### Events, the lock, the guard -/

/-- Ones clear pending bits (R52). -/
def State.clearPend (s : State) (pg : Page) (v : Nat) : State :=
  s.hw HDR.EVT_PEND pg (s.h HDR.EVT_PEND pg &&& (2 ^ 32 - 1 - v % 2 ^ 32))

/-- R52: a write of PG_EVT_PEND. -/
def execEvtPendClear (t : Nat) (r : Requester) (pg : Page) (v : Word) (s : State) : Host.Outcome State Fault Refusal :=
  s.cmdK t fun s => s.pageWrite r pg false (fun s => s.clearPend pg v.toNat)

/-- A write of PG_LOCK.KEY (R60, R61). A first key 0x0A5C opens the sequence whoever of the permitted writers writes the second, the owner or the Keeper: the spec does not ask for one writer, DESIGN CHOICE (assumption 163). -/
def State.writeKey (s : State) (pg : Page) (key : Nat) : State :=
  let x := s.px pg
  let viol := fun (s : State) => s.hinc HDR.LOCK_VIOL pg
  if x.lockStep then
    if key = 0x0C5A then (s.hw HDR.OPEN pg 1).setPx pg { x with lockStep := false, lockAt := s.up }
    else viol (if key = 0 then s.closeLock pg else s.setPx pg { x with lockStep := key == 0x0A5C })
  else if key = 0x0A5C then s.setPx pg { x with lockStep := true }
  else if key = 0 then s.closeLock pg
  else viol s

/-- R60, R61: a write of PG_LOCK. -/
def execLockKeyWrite (t : Nat) (r : Requester) (pg : Page) (key : BitVec 16) (s : State) : Host.Outcome State Fault Refusal :=
  s.cmdK t fun s => s.pageWrite r pg false (fun s => s.writeKey pg key.toNat) true

/-- R61: an open lock closes 10 ms after opening. -/
def execLockTimeout (t : Nat) (pg : Page) (s : State) : Host.Outcome State Fault Refusal :=
  s.cmdK t fun s =>
    if s.h HDR.OPEN pg = 1 ∧ (s.px pg).lockAt + 10000000 ≤ s.up then s.closeLock pg else s

/-- A guard is armed for a writer (R63); the write is no accepted write for PG_SEQ.COUNT (R62) and breaks a key sequence (R60). -/
def State.armGuard (s : State) (r : Requester) (pg : Page) (v : Nat) : State :=
  let s := (s.breakKeys pg).disarm r pg
  s.setPx pg { s.px pg with guards := (ownerCode r, v) :: (s.px pg).guards }

/-- R63: a write of PG_SEQ.GUARD. -/
def execSeqGuardArm (t : Nat) (r : Requester) (pg : Page) (v : BitVec 16) (s : State) : Host.Outcome State Fault Refusal :=
  s.cmdK t fun s =>
    if !pageExists pg then s.unmapped (pageAddr pg)
    else if !s.reaches r pg then s.gated (pageAddr pg)
    else if !s.mayWrite r pg then (s.breakKeys pg).hinc HDR.OWNER_VIOL pg
    else s.armGuard r pg v.toNat

/-! ### Staged words (R50) -/

/-- R50: staged low words older than 1 ms are discarded. -/
def execStagedWordDiscard (t : Nat) (pg : Page) (s : State) : Host.Outcome State Fault Refusal :=
  s.cmdK t fun s => s.setPx pg { s.px pg with staged := (s.px pg).staged.filter (fun w => decide (s.up < w.t + 1000000)) }

/-! ### Islands and the AON gateway -/

/-- The writable fields of the two AON pages (R19). -/
def aonFields : List Fld := (pageFields 6 0 ++ pageFields 9 0).filter (fun f => f.acc == .rw)

/-- The gateway's copy is what the AON island holds, and no write is on its way (R19). -/
def State.refreshAon (s : State) : State :=
  aonFields.foldl (fun (s : State) (f : Fld) => s.forN f.n fun s i => s.w f (s.aon f i) 0 i) { s with aonQ := [] }

/-- The word of an AON page goes on its way to the AON island (R19). -/
def State.sendAon (s : State) (pg : Page) (off : Nat) : State :=
  { s with aonQ := s.aonQ ++ [(pg.code, off, BitVec.ofNat 32 (s.sumWord pg off))] }

/-- R12, R536: a PLL is in lock. -/
def execPllLocked (t : Nat) (isl : Island) (s : State) : Host.Outcome State Fault Refusal :=
  s.cmdK t fun s => s.setPwr (fun k => { k with pll := k.pll ||| (1#9 <<< islandBit isl) })

/-- R536: a PLL loses lock: the island stops and HEALTH_WARN is raised. -/
def execPllLoss (t : Nat) (isl : Island) (s : State) : Host.Outcome State Fault Refusal :=
  s.cmdK t fun s =>
    if s.pwr.pll.getLsbD (islandBit isl) then
      ((s.setPwr (fun k => { k with pll := k.pll &&& ~~~ (1#9 <<< islandBit isl) })).inc PCR.PLL_LOSSES).health 5 (islandBit isl) 0
    else s

/-- R19: the oldest write that the gateway has taken reaches the AON island. -/
def execAonWriteDelivery (t : Nat) (s : State) : Host.Outcome State Fault Refusal :=
  s.cmdK t fun s =>
    match s.aonQ with
    | [] => s
    | (code, off, v) :: rest =>
      let take := fun (m : List (Nat × Word)) (p : Fld × Nat) =>
        if p.1.acc = .rw then
          sset (BitVec.ofNat 32 p.1.rst) m (p.1.key 0 p.2) (BitVec.ofNat 32 (bitsAt v.toNat p.1.lsb p.1.width))
        else m
      { s with aonQ := rest, aonRegs := (wordFields ⟨code, 0⟩ off).foldl take s.aonRegs }

end Sys2Proof.Machine
end

