-- ==== Sys2Proof/Machine/Range.lean ====
section
/-! DEFINITION. Legal ranges that depend on another field of the page (R65), the generic write of a register word, and the words of two registers (R50). -/

namespace Sys2Proof.Machine

/-- From `lo` to `hi`, or `lo` alone when `hi` lies below it. -/
def span (lo hi : Nat) : Rng := .num lo (max lo hi)

/-- The range of a field of the scheduled blocks DSQ, MFE, ACT and SXE. -/
def State.rangeSched (s : State) (f : Fld) (i : Nat) : Rng :=
  if f = DSQ.PLAN_PHASE_US then span 0 (s.r DSQ.PLAN_PERIOD_US - 1)
  else if f = MFE.PHASE_US then span 0 (s.r MFE.PERIOD_US - 1)
  else if f = MFE.FAULT_HI then span (s.r MFE.FAULT_LO 0 i) 65535
  else if f = MFE.LIM_HI then .snum (s.ri MFE.LIM_LO 0 i) 32767
  else if f = ACT.PAIR then span 0 (1 - i % 2)
  else if f = ACT.PHASE_T then span 0 (s.r ACT.PERIOD_T 0 i - 1)
  else if f = SXE.PHASE_US then span 0 (s.r SXE.CYC_US - 1)
  else if f = SXE.READ_END_US then span 50 (s.r SXE.CYC_US - 3)
  else if f = SXE.WRITE_US then span (s.r SXE.READ_END_US + 1) (s.r SXE.CYC_US - 2)
  else if f = SXE.APPLY_US then span (s.r SXE.WRITE_US + 1) (s.r SXE.CYC_US - 1)
  else f.rng

/-- The range of a field of LGE; FORCE_ADDR takes the areas of R281 and MEM_ADDR is taken apart (R570). -/
def State.rangeLge (s : State) (f : Fld) (e : Nat) : Rng :=
  if f = LGE.DWIN_HI then span (s.r LGE.DWIN_LO e) 262143
  else if f = LGE.RWIN_HI then span (s.r LGE.RWIN_LO e) 16383
  else if f = LGE.TWIN_HI then span (s.r LGE.TWIN_LO e) 4095
  else if f = LGE.CWIN_HI then span (s.r LGE.CWIN_LO e) 2047
  else f.rng

/-- The range of a field of an axis page or of the common page of MPG (R321, R324, R325, R340). -/
def State.rangeMpg (s : State) (f : Fld) (inst i : Nat) : Rng :=
  let top := stepCeiling (s.r MPG.STEP_HIGH inst)
  if f = MPG.V_START ∨ f = MPG.V_STOP ∨ f = MPG.V_MID then span 0 top
  else if f = MPG.V_MAX ∨ f = MPG.V_HOME then span 256 top
  else if f = MPG.V_CREEP then span 1 (min 65535 (top / 256))
  else if f = MPG.SOFT_HI then .snum (s.ri MPG.SOFT_LO inst) (2 ^ 31 - 1)
  else if f = MPG.TARGET then .snum (s.ri MPG.SOFT_LO inst) (s.ri MPG.SOFT_HI inst)
  else if f = MPC.P_HI then .snum (min (2 ^ 31 - 1) (s.ri MPC.P_LO inst i + 1)) (2 ^ 31 - 1)
  else f.rng

/-- The range of a field of TMK, CFD, SER, REC or DCH (R383, R392, R413, R415, R431, R470, R488 to R490). -/
def State.rangeComm (s : State) (f : Fld) (inst i : Nat) : Rng :=
  if f = TMK.ADJ_MAN then .snum (-(s.r TMK.ADJ_LIM : Int)) (s.r TMK.ADJ_LIM)
  else if f = TMK.WIDTH_NS then span 8 (min 500000000 (s.r TMK.PERIOD_NS 0 i - 8))
  else if f = CFD.NSJW then span 1 (s.r CFD.NTSEG2 inst)
  else if f = CFD.DSJW then span 1 (s.r CFD.DTSEG2 inst)
  else if f = CFD.ID then span 0 (if s.on CFD.IDE inst i then 2 ^ 29 - 1 else 0x7FF)
  else if f = CFD.RTR then span 0 (1 - s.r CFD.FDF inst i)
  else if f = CFD.BRS then span 0 (s.r CFD.FDF inst i)
  else if f = SER.BAUD ∧ s.r SER.MODE inst = 3 then .num 300 38400
  else if f = SER.TX_LEN ∧ s.r SER.MODE inst = 2 ∧ s.on SER.CRC_GEN inst then .num 1 254
  else if f = DCH.HB_MISS then span 3 (min 10 (1800 / s.r DCH.HB_US - 1))
  else if f = DCH.LEASE_US then span 50 (s.r DCH.HB_US * (s.r DCH.HB_MISS - 1) - 1)
  else if f = DCH.VOTE_TMO_US then span 50 (1900 - s.r DCH.HB_US * (s.r DCH.HB_MISS + 1))
  else f.rng

/-- The legal range of a field as it stands (R65). -/
def State.range (s : State) (f : Fld) (inst i : Nat) : Rng :=
  match f.code with
  | 16 => s.rangeSched f i
  | 19 => s.rangeSched f i
  | 20 => s.rangeSched f i
  | 22 => s.rangeSched f i
  | 21 => s.rangeLge f inst
  | 23 => s.rangeMpg f inst i
  | 8 => s.rangeComm f inst i
  | 24 => s.rangeComm f inst i
  | 25 => s.rangeComm f inst i
  | 11 => s.rangeComm f inst i
  | _ => f.rng

/-- The fields of a page whose range depends on another field, least significant first. -/
def dependents (pg : Page) : List Fld :=
  match pg.code with
  | 16 => [ DSQ.PLAN_PHASE_US ]
  | 19 => [ MFE.PHASE_US, MFE.FAULT_HI, MFE.LIM_HI ]
  | 20 => [ ACT.PHASE_T ]
  | 22 => [ SXE.PHASE_US, SXE.READ_END_US, SXE.WRITE_US, SXE.APPLY_US ]
  | 21 => [ LGE.DWIN_HI, LGE.RWIN_HI, LGE.TWIN_HI, LGE.CWIN_HI ]
  | 23 => if pg.inst = 24 then [ MPC.P_HI ]
      else [ MPG.V_START, MPG.V_STOP, MPG.V_MID, MPG.V_MAX, MPG.V_HOME, MPG.V_CREEP, MPG.SOFT_HI, MPG.TARGET ]
  | 8 => [ TMK.ADJ_MAN, TMK.WIDTH_NS ]
  | 24 => [ CFD.NSJW, CFD.DSJW, CFD.ID, CFD.RTR, CFD.BRS ]
  | 25 => [ SER.BAUD, SER.TX_LEN ]
  | 11 => [ DCH.HB_MISS, DCH.LEASE_US, DCH.VOTE_TMO_US ]
  | _ => []

/-- Put a written value into a field under its range as it stands; a clamp counts (R64 to R66). -/
def State.put (s : State) (f : Fld) (v inst i : Nat) : State := s.take { f with rng := s.range f inst i } v inst i

/-- Existing values that a write of another field leaves outside their range are clamped in the same step and counted (R65). -/
def State.reclamp (s : State) (pg : Page) : State :=
  (dependents pg).foldl (fun (s : State) (f : Fld) => s.forN f.n fun s i =>
    let x := s.r f pg.inst i
    if (s.range f pg.inst i).take f.width x = x then s else s.put f x pg.inst i) s

/-- One field of a written word (R8, R61). -/
def State.putField (s : State) (pg : Page) (v : Nat) (p : Fld × Nat) : State :=
  let x := bitsAt v p.1.lsb p.1.width
  match p.1.acc with
  | .ro => s
  | .wo => s
  | .rw => s.put p.1 x pg.inst p.2
  | .rwl => if s.lockOpen pg then s.put p.1 x pg.inst p.2 else s
  | .w1c => s.w p.1 (s.r p.1 pg.inst p.2 &&& (2 ^ p.1.width - 1 - x)) pg.inst p.2

/-- A word carries, for an RWL field of the register, a value that differs from the current one (R61). -/
def State.rwlDiffers (s : State) (pg : Page) (off v : Nat) : Bool :=
  (wordFields pg off).any (fun p => p.1.acc == .rwl && bitsAt v p.1.lsb p.1.width != s.r p.1 pg.inst p.2)

/-- The generic write of a register word: fields from the least significant upward, the lock, the dependent ranges. -/
def State.genWrite (s : State) (pg : Page) (off v : Nat) : State :=
  let s := s.lockViol pg (!s.lockOpen pg && s.rwlDiffers pg off v)
  ((wordFields pg off).foldl (fun (s : State) (p : Fld × Nat) => s.putField pg v p) s).reclamp pg

/-- A code of an enumerated command field at `lsb`: codes above the highest take it, counted (R64). -/
def State.codeAt (s : State) (pg : Page) (off v lsb w hi : Nat) : State × Nat :=
  let x := bitsAt v lsb w
  (s.when (decide (hi < x)) (fun s => s.clampCount pg off lsb), min hi x)

/-- The state after a command that a write of its register carries: its row, the write being counted once (R62). -/
def State.after (s : State) (pg : Page) (o : Host.Outcome State Fault Refusal) : State :=
  match o with
  | .next s' => s'.hw HDR.COUNT pg (s.h HDR.COUNT pg)
  | _ => s

/-- A writable value of two registers has its low word at this offset (R50). -/
def wideLow (pg : Page) (off : Nat) : Bool :=
  match pg.code with
  | 7 => 0x100 ≤ off && off < 0x300 && (off % 0x40 == 0 || off % 0x40 == 0xC)
  | 8 => off == 0x058 || off == 0x08C || (0x100 ≤ off && off < 0x180 && off % 0x20 == 8)
  | 11 => off == 0x050 || off == 0x070
  | 22 => off == 0x0B8
  | 27 => off == 0x060
  | _ => false

/-- A staged low word of a requester. -/
def State.stagedLow (s : State) (r : Requester) (pg : Page) (off : Nat) : Option StagedWord :=
  (s.px pg).staged.find? (fun w => w.req == ownerCode r && w.off == off)

/-- The staged low words other than that of a requester at an offset. -/
def State.unstage (s : State) (r : Requester) (pg : Page) (off : Nat) : State :=
  s.setPx pg { s.px pg with staged := (s.px pg).staged.filter (fun w => !(w.req == ownerCode r && w.off == off)) }

/-- A low word is staged (R50); under a closed lock an RWL word is left alone (R61). -/
def State.stageLow (s : State) (r : Requester) (pg : Page) (off : Nat) (v : Word) : State :=
  let rwl := (wordFields pg off).any (fun p => p.1.acc == .rwl)
  if rwl && !s.lockOpen pg then s.lockViol pg (s.rwlDiffers pg off v.toNat)
  else
    let s := s.unstage r pg off
    s.setPx pg { s.px pg with staged := (s.px pg).staged ++ [{ req := ownerCode r, off := off, val := v, t := s.up }] }

/-- The write of a high word commits it together with the staged low word (R50). -/
def State.commitWide (s : State) (r : Requester) (pg : Page) (off v : Nat) : State :=
  let s := match s.stagedLow r pg (off - 4) with
    | some w => (s.unstage r pg (off - 4)).genWrite pg (off - 4) w.val.toNat
    | none => s
  s.genWrite pg off v

/-- The write of the high word of HOLD_MASK commits it with the low word that the requester has staged (R50, R312). -/
def State.writeHoldMask (s : State) (r : Requester) (v : Word) : State :=
  let s := match s.stagedLow r ⟨22, 0⟩ 0x0B8 with
    | some w => (s.unstage r ⟨22, 0⟩ 0x0B8).putHoldMask 0 w.val
    | none => s
  s.putHoldMask 1 v

end Sys2Proof.Machine
end

