-- ==== Sys2Proof/Machine/Window.lean ====
section
/-! DEFINITION. The loop window of a cluster page: the legal ranges of the configuration words (R186, R200, R203, R215) and their writes to the staging copy. -/

namespace Sys2Proof.Machine

/-- The fields of configuration word `w`: lowest bit and width. -/
def loopLanes (w : Nat) : List (Nat × Nat) :=
  match w with
  | 0 => [ (0, 3), (3, 2), (5, 1), (6, 1), (7, 1), (8, 1), (9, 1), (10, 1), (11, 1), (12, 3), (15, 1), (16, 6) ]
  | 1 => [ (0, 20) ]
  | 2 => [ (0, 20) ]
  | 3 => [ (0, 4), (8, 24) ]
  | 6 => [ (0, 4), (8, 24) ]
  | 13 => [ (0, 4), (8, 24) ]
  | 37 => [ (0, 4), (4, 2), (8, 24) ]
  | 40 => [ (0, 4), (4, 2), (8, 24) ]
  | 43 => [ (0, 13), (13, 12), (25, 6) ]
  | 44 => [ (0, 20) ]
  | _ => if w = 14 ∨ (15 ≤ w ∧ w ≤ 31) ∨ (45 ≤ w ∧ w ≤ 47) then [ (0, 30) ] else [ (0, 32) ]

/-- The bits of word `w` that are not reserved. -/
def loopMask (w : Nat) : Nat := ((loopLanes w).map (fun l => (2 ^ l.2 - 1) * 2 ^ l.1)).sum

/-- The highest INDEX of a source TYPE (R186). -/
def sourceIndex (typ : Nat) : Nat := [ 0, 1023, 31, 7, 15, 15, 65535, 511, 511, 262143 ].getD typ 0

/-- The highest INDEX of a route TYPE; NONE uses none (R200). -/
def routeIndex (typ : Nat) : Nat := [ 2 ^ 24 - 1, 23, 32767, 23, 262143 ].getD typ 0

/-- The legal range of the field of word `w` at `lsb`, given the other words and the word as its lower fields stand (R65, R215). -/
def loopRange (cfg : Nat → Nat) (w lsb cur : Nat) : Rng :=
  match w with
  | 0 => if lsb = 0 ∨ lsb = 3 then .enum [0, 1, 2] else .any
  | 1 => .divs 25 1000000 1000000
  | 2 => span 0 (cfg 1 - 1)
  | 10 => .num 1 0x7FFFFFFF
  | 12 => .snum (sgn 32 (cfg 11)) (2 ^ 31 - 1)
  | 33 => .snum (sgn 32 (cfg 32)) (2 ^ 31 - 1)
  | 34 => .num 1 0x7FFFFFFF
  | 43 => if lsb = 0 then .num 1 4096 else if lsb = 13 then span 0 (cur % 8192 - 1) else .any
  | 44 => span 0 (2 ^ 20 - cfg 43 % 8192)
  | _ =>
    if w = 3 ∨ w = 6 ∨ w = 13 then (if lsb = 0 then .num 0 9 else .num 0 (sourceIndex (cur % 16)))
    else if w = 37 ∨ w = 40 then (if lsb = 0 then .num 0 4 else if lsb = 4 then .num 0 2 else .num 0 (routeIndex (cur % 16)))
    else .any

/-- The value that word `w` takes when `v` is written, and the fields that were clamped. -/
def loopTake (cfg : Nat → Nat) (w v : Nat) : Nat × List Nat :=
  (loopLanes w).foldl (fun (a : Nat × List Nat) (l : Nat × Nat) =>
    let x := bitsAt v l.1 l.2
    let y := (loopRange cfg w l.1 a.1).take l.2 x
    (a.1 + y * 2 ^ l.1, if y = x then a.2 else a.2 ++ [l.1])) (0, [])

/-- Put a value into staging word `w` of cluster `c`, its clamps counted. -/
def State.putStage (s : State) (c w v : Nat) : State :=
  let y := loopTake (s.staged c) w v
  let s := y.2.foldl (fun (s : State) (b : Nat) => s.clampCount ⟨18, c⟩ (0x100 + 4 * w) b) s
  let x := s.cluster c
  s.setCluster c { x with stage := sset (loopRst w) x.stage w (BitVec.ofNat 32 y.1) }

/-- A write of configuration word `w` through the window, and the clamps that it brings about in other words of the staging copy (R65, R210, R212). -/
def State.windowWrite (s : State) (c w v : Nat) : State :=
  s.clePending c fun s =>
    [2, 12, 33, 44].foldl (fun (s : State) (k : Nat) =>
      if (loopTake (s.staged c) k (s.staged c k)).1 = s.staged c k then s else s.putStage c k (s.staged c k)) (s.putStage c w v)

end Sys2Proof.Machine
end

