-- ==== Sys2Proof/Machine/Boot.lean ====
section
/-! DEFINITION. Axolotl, the Keeper and PCR: resets, boot, KEEP and the Newt wake (R139, R357, R358, R406, R521 to R530, R537, R543, R544). -/

namespace Sys2Proof.Machine

/-! ### Resets (R527) -/

/-- Register fields held in MRAM, in the health record or by a pin, which a reset leaves as they are. -/
def storedFields : List Fld :=
  [ PST.DEV0_STATE, PST.DEV1_STATE, PST.CHECKPOINT, KPR.LIFE_USED, KPR.ENG_RETIRED, DSQ.HASH_EPOCH, DSQ.SOLVER_CAP, DCH.BIND_GEN,
    DCH.PAIR_EPOCH, SEC.FW_ACTIVE, SEC.FW_VER_A, SEC.FW_VER_B, SEC.IDX_LO, SEC.IDX_HI, REC.HEAD_SEQ, REC.OLDEST_SEQ,
    REC.PERSIST_SEQ, REC.EXP_SEQ, GIO.PIN_IN ]

/-- The key of a register field that a reset keeps: the AON registers with their events, the stored fields, and the input levels of an axis. -/
def survives (k : Nat) : Bool :=
  let code := k / 2 ^ 22
  let off := k / 32 % 4096
  ((code == 6 || code == 9) && (decide (0x040 ≤ off) || off == 0x010 || off == 0x014 || off == 0x018)) ||
  (code == 23 && off == 0x09C && decide (7 ≤ k % 32) && decide (k % 32 ≤ 9)) ||
  (storedFields.flatMap (fun f => (List.range f.n).map (f.key 0))).contains k

/-- Power, reset and boot after a reset: what MRAM holds, and the rest at its reset value. -/
def PwrX.afterReset (p : PwrX) (hold brown : Bool) : PwrX :=
  let q : PwrX := { inReset := hold, brown := brown, coreLost := brown && p.coreLost, lifeFrac := p.lifeFrac, lifeRaised := p.lifeRaised, hrPwr := p.hrPwr, hrOpSec := p.hrOpSec }
  let q := { q with repair := p.repair, sparesUsed := p.sparesUsed, exhausted := p.exhausted, fixTimes := p.fixTimes, chunks := p.chunks }
  let q := { q with laneRetired := p.laneRetired, laneFail := p.laneFail, laneAt := p.laneAt, retCopies := p.retCopies, retLast := p.retLast }
  let q := { q with progStandby := p.progStandby, progActive := p.progActive, progBegin := p.progBegin, cfgStandby := p.cfgStandby, cfgActive := p.cfgActive, mramBad := p.mramBad }
  let q := { q with progSlot := p.progSlot, progImages := p.progImages, cfgOwners := p.cfgOwners, cfgRegs := p.cfgRegs, cfgLoops := p.cfgLoops }
  let q := { q with cfgStations := p.cfgStations, cfgPot := p.cfgPot, cfgTags := p.cfgTags, cfgCounts := p.cfgCounts, cfgSet := p.cfgSet }
  { q with kwTimes := p.kwTimes }

/-- The recorder after a reset: the ring image, a marking in progress, and a RELEASED record owed for a freeze that the reset ended (R473, R474). -/
def RecX.afterReset (x : RecX) (frozen : Bool) : RecX :=
  { image := x.image, clearing := x.clearing, relOwed := if frozen then some x.holding.length else x.relOwed,
    segNo := x.segNo, segFill := x.segFill }

/-- Security after a reset: what MRAM holds (R506, R514, R515). -/
def SecX.afterReset (x : SecX) (open_ : Bool) : SecX :=
  { dbgOwed := x.dbgOwed || open_, batchEnd := x.batchEnd, mramIdx := x.mramIdx, journal := x.journal, fwDigest := x.fwDigest, fwVersion := x.fwVersion,
    fwSvn := x.fwSvn, fwSlots := x.fwSlots, markers := x.markers, slotOk := x.slotOk, svnOf := x.svnOf, fwDigests := x.fwDigests }

/-- A port after a reset: host memory and the messages it has received are not the device's; a masked vector is forgotten. -/
def PortX.afterReset (x : PortX) : PortX := { sent := x.sent, ring := x.ring }

/-- A system reset with a cause (R527): MRAM, fuses, the AON island and the backup registers are kept, everything else takes its reset value; the SRAMs are initialised. Forces outlive every reset but power-on (R284). -/
def State.sysReset (s : State) (cause : Nat) (hold brown : Bool) (unforce : Bool := cause == 0) : State :=
  let frozen := s.on REC.FROZEN
  let t : State := { pending := s.pending, freeTick := s.freeTick, up := s.up, upBase := s.up, fuses := s.fuses, rtc := s.rtc, aonRegs := s.aonRegs }
  let t := { t with regs := s.regs.filter (fun p => survives p.1), pwr := s.pwr.afterReset hold brown, rcd := s.rcd.afterReset frozen }
  let t := { t with sec := s.sec.afterReset (s.r SEC.DBG_SCOPE != 0), forces := if unforce then [] else s.forces, tripPins := s.tripPins }
  let t := { t with dch := { table := s.dch.table, served := s.dch.served }, ports := s.ports.map (fun (p : Nat × PortX) => (p.1, p.2.afterReset)) }
  let t := { t with axes := s.axes.map (fun (p : Nat × AxisX) => (p.1, { limP := p.2.limP, limN := p.2.limN })) }
  ((t.refreshAon.w PCR.RESET_CAUSE cause).w KPR.PWR_CYC s.pwr.hrPwr).showForces

/-- R527: power-on, or PORST_N low; reset lasts until PORST_N rises. -/
def execPowerOnReset (t : Nat) (s : State) : Host.Outcome State Fault Refusal :=
  s.cmdM t fun s => s.sysReset 0 true s.pwr.brown

/-- The release of a reset (R529): compensated time counts from 0 here (R258). -/
def State.released (s : State) (brown : Bool) : State :=
  { s with ct := 0, pwr := { s.pwr with inReset := false, brown := brown, coreLost := brown && s.pwr.coreLost, bootAt := s.up } }

/-- R527: SYSRST_N low for 1 µs resets the device and holds it; when the pin rises, reset is released unless a rail is browned out. In KEEP and OFF the pin's bank is down (R524, R554). -/
def execSysrst (t : Nat) (low : Bool) (s : State) : Host.Outcome State Fault Refusal :=
  s.cmdM t fun s =>
    if s.pwr.st = .keep ∨ s.pwr.st = .off then s
    else if low then s.sysReset 3 true s.pwr.brown
    else if s.pwr.brown then s
    else s.released false

/-- R522, R527: a rail other than VBAK below 94 %: a brown-out reset, held until the rail returns; a lost VDD_CORE leaves the outputs undriven (R555, R565). In KEEP and OFF the main rails are down already (R524). -/
def execBrownOut (t : Nat) (rail : Fin 5) (s : State) : Host.Outcome State Fault Refusal :=
  s.cmdM t fun s =>
    if s.pwr.st = .keep ∨ s.pwr.st = .off then s
    else
      let lost := s.pwr.coreLost || rail.val == 0
      ((s.sysReset 1 true true).setPwr (fun k => { k with coreLost := lost })).w PCR.RAIL_MV (s.r PCR.RAIL_MV 0 rail) 0 rail

/-- R527: SYS_RST written with the PCR lock open. -/
def execSysRst (t : Nat) (r : Requester) (s : State) : Host.Outcome State Fault Refusal :=
  s.cmdM t fun s => s.lockedCmd r ⟨0, 0⟩ fun s => s.sysReset 4 false false

/-- R529: PORST_N or SYSRST_N has risen, or the browned-out rail is back: t_r. -/
def execResetRelease (t : Nat) (s : State) : Host.Outcome State Fault Refusal :=
  s.cmdK t fun s =>
    if s.pwr.inReset ∧ s.pwr.st = .run then (s.released false) else s

/-- R537: the Keeper core watchdog: the core alone is reset; the third expiry within 60 s of operating time resets the system. -/
def execKeeperWatchdog (t : Nat) (s : State) : Host.Outcome State Fault Refusal :=
  s.runM .keep t fun s =>
    let now := s.opSec
    let l := now :: s.pwr.kwTimes.filter (fun x => decide (now ≤ x + 60))
    let s := ((s.inc KPR.KPR_RESETS).loadPatch (s.r SEC.FW_ACTIVE)).setPwr (fun k => { k with kwTimes := l })
    if 3 ≤ l.length then (s.setPwr (fun k => { k with kwTimes := [] })).sysReset 5 false false else s

/-! ### Boot (R529, R530) -/

/-- Step 1: the PLLs of KEEP and HOST lock; the fuses are sensed. Start-up records are fixed (R462). -/
def State.bootFuses (s : State) : State :=
  let s := s.setPwr (fun k => { k with pll := k.pll ||| (1#9 <<< islandBit .keep) ||| (1#9 <<< islandBit .host) })
  let s := (s.senseFuses.w TMK.CLOCK_ID_LO s.deviceId).w TMK.CLOCK_ID_HI (s.deviceId / 2 ^ 32)
  (s.w KPR.BOOT_STATE 1).w REC.FORM 1

/-- Step 2: the devices are probed, the counts of R528 resume and a marker held by one device is copied to the other (R515). -/
def State.bootProbe (s : State) : State :=
  let s := (List.range 2).foldl (fun (s : State) (d : Nat) => if s.r (devFld d) = 0 then s.w (devFld d) 1 else s) s
  let n := max s.rtc.backupPwr s.pwr.hrPwr
  let n := if s.r PCR.RESET_CAUSE ≤ 2 then (n + 1) % 2 ^ 24 else n
  let s := (s.w KPR.PWR_CYC n).setRtc (fun k => { k with backupPwr := n })
  let s := { s with opBase := s.pwr.hrOpSec + 16 }
  let s := if s.mramOk then s.setPwr (fun k => { k with hrPwr := n, hrOpSec := s.opSec }) else s
  s.setSec (fun k => { k with markers := k.markers.map (fun m =>
    if s.markerOk m then (m.1, m.2.1, s.r PST.DEV0_STATE == 1, s.r PST.DEV1_STATE == 1) else m) })

/-- Step 3: the ring is rebuilt; BOOT_START; a freeze and a debug session that the reset ended are recorded (R472, R473, R513, R568). -/
def State.bootRing (s : State) : State :=
  let s := s.recoverRing.markCleared
  let s := s.writeRec 0x420 (s.r PCR.RESET_CAUSE :: leBytes 3 (s.r KPR.PWR_CYC) ++ [s.r SEC.FW_ACTIVE])
  let s := match s.rcd.relOwed with
    | none => s
    | some n => (s.setRec (fun k => { k with relOwed := none })).writeRec 0xF02 (3 :: leBytes 4 n)
  if s.sec.dbgOwed then
    ((s.setSec (fun k => { k with dbgOwed := false })).raise 2 0 2 [0, 0, 0, 0]).writeRec 0x609 [0, 0, 0, 0]
  else s

/-- The slot of a pair with the higher sequence, or the one that MRAM names while no marker stands (R515). -/
def State.bootSlot (s : State) (pair named : Nat) : Nat :=
  let a := s.markerSeq (2 * pair)
  let b := s.markerSeq (2 * pair + 1)
  if a = b then named else if a < b then 1 else 0

/-- Why a slot does not verify, as VFY_CAUSE numbers it: 0 where it does, 1 where it holds no object, 6 where no device serves its bytes as written, 8 where its firmware is below MIN_SVN (R23, R504, R515, R530; assumption 145). -/
def State.slotCause (s : State) (slot : Nat) : Nat :=
  if !s.sec.slotOk.contains slot then 1
  else if !s.mramGood (slotAddr slot) then 6
  else if slot < 2 ∧ sget 0 s.sec.svnOf slot < s.r SEC.MIN_SVN then 8
  else 0

/-- The object of a slot verifies (R515). -/
def State.slotGood (s : State) (slot : Nat) : Bool := s.slotCause slot == 0

/-- The slot that boot takes of a pair, with BOOT_FALLBACK where the first choice fails; none where neither verifies (R515). -/
def State.bootChoice (s : State) (pair named : Nat) : State × Option Nat :=
  let g := s.bootSlot pair named
  if s.slotGood (2 * pair + g) then (s, some g)
  else if s.slotGood (2 * pair + (1 - g)) then (s.writeRec 0x605 [2 * pair + g, 2 * pair + (1 - g)], some (1 - g))
  else (s, none)

/-- Step 4: the firmware slot is chosen and verified, or RECOVERY entered; an open BEGIN is closed (R514, R515, R530). -/
def State.bootFirmware (s : State) : State :=
  let open_ : Bool := match s.sec.journal with
    | some k => decide (k < 5)
    | none => false
  let s := if open_ then (s.eraseMarker (1 - s.r SEC.FW_ACTIVE)).writeRec 0x604 [(s.sec.journal).getD 0] else s
  let s := s.setSec (fun k => { k with journal := none })
  match s.bootChoice 0 (s.r SEC.FW_ACTIVE) with
  | (s, some g) => (s.w SEC.FW_ACTIVE g).loadPatch g
  | (s, none) =>
    let s := (s.writeRec 0x422 [s.slotCause 0, s.slotCause 1]).setPwr (fun k => { k with recovery := true })
    (s.w REC.FORM 3).w KPR.BOOT_STATE 3

/-- The lanes take their states and logical numbers (R139): a lane retired here shows cause BOOT (R148), and SPARES_EXHAUSTED shows whether a spare remains (R147). -/
def State.bootLanes (s : State) : State :=
  let s := s.forN 18 fun s l => s.w DSA.FAIL_COUNT (sget 0 s.pwr.laneFail l) l
  let dead := fun (s : State) (l : Nat) => s.pwr.laneRetired.contains l || s.r DSA.FAIL_COUNT l == 3
  let good := (List.range 18).filter (fun l => !dead s l)
  let s := s.forN 18 fun s l =>
    let k := good.idxOf l
    if dead s l then ((s.w DSA.STATE 2 l).w DSA.LOGICAL 0 l).w DSA.CAUSE 4 l
    else if k < 16 then (s.w DSA.STATE 1 l).w DSA.LOGICAL k l
    else (s.w DSA.STATE 0 l).w DSA.LOGICAL 0 l
  let s := s.showLanes
  s.setRaw 16 0 15 (s.r DSQ.SPARES == 0)

/-- Step 6: the repair map, the keys and nonces, and the identity index (R130, R139, R444, R471, R507, R510, R542, R544). -/
def State.bootRepair (s : State) : State :=
  let s := s.bootLanes.w DSQ.HASH_EPOCH (s.r DSQ.HASH_EPOCH + 1)
  let key := (Config.free 64 s.freeTick).toNat
  let s := (s.fresh.setEsw (fun k => { k with hashKey := key })).drawClrNonce.drawTokNonce
  match s.sec.mramIdx with
  | some n => (s.setSec (fun k => { k with batchEnd := n })).setIdx n
  | none =>
    let n := (s.r SEC.IDX_FLOOR + 1) * 2 ^ 30
    ((s.setSec (fun k => { k with batchEnd := n, mramIdx := some n })).setIdx n).writeRec 0x60B (leBytes 5 n)

/-- A register value of the configuration slot takes its field; ENABLE waits for step 9. -/
def State.loadReg (s : State) (p : Nat × Word) : State :=
  let pg : Page := ⟨p.1 / 2 ^ 22, p.1 / 2 ^ 17 % 32⟩
  let off := p.1 / 32 % 4096
  if off = 0x014 then s.hw HDR.EVT_EN pg (p.2.toNat &&& evtMask pg)
  else
    match (wordFields pg off).find? (fun f => f.1.lsb == p.1 % 32 && (f.1.acc == .rw || f.1.acc == .rwl)) with
    | some f =>
      let s := s.w f.1 p.2.toNat pg.inst f.2
      if pg.code = 6 ∨ pg.code = 9 then s.sendAon pg off else s
    | none => s

/-- The time base from the calendar, TMK in FREE, compensated time at the same value (R258, R383, R385). -/
def State.bootTime (s : State) : State :=
  let n := (s.rtc.cal.utc + s.rtc.backupUtc) * 1000000000
  let s := { s with now := n, frac := 0, ct := n }
  let s := ((s.setTmk (fun k => { k with tbSet := true })).w TMK.UTC_OFFSET s.rtc.backupUtc).w TMK.STATE 0
  (s.wi TMK.F_NOW (s.ri TMK.ADJ_MAN)).wi TMK.ADJ_NOW (s.ri TMK.ADJ_MAN)

/-- The retentive copies of MRAM whose CRC is valid on a device that serves them (R23, R289). The copies alternate. -/
def State.retValid (s : State) : List RetCopy :=
  s.pwr.retCopies.filter (fun c => c.ok && s.mramGood (if c.seq % 2 = 0 then 0x20000 else 0x30000))

/-- The retentive memory from the valid copy with the higher sequence number, or lost (R289). -/
def State.bootRetentive (s : State) : State :=
  match s.retValid.foldl (fun (b : Option RetCopy) c => match b with
    | none => some c
    | some d => if d.seq < c.seq then some c else some d) none with
  | some c => ({ s with retMem := c.words }).w LGE.RET_SEQ c.seq
  | none => s.raise 21 0 11 ([0, 0xFF] ++ leBytes 2 0)

/-- The two logic program slots change places. -/
def PwrX.swapProg (p : PwrX) : PwrX :=
  { p with progActive := 1 - p.progActive, progSlot := p.progStandby.words, progImages := p.progStandby.images,
           progStandby := { words := p.progSlot, images := p.progImages } }

/-- The two configuration slots change places. -/
def PwrX.swapCfg (p : PwrX) : PwrX :=
  let c := p.cfgStandby
  let d : CfgSlot := { owners := p.cfgOwners, regs := p.cfgRegs, loops := p.cfgLoops, stations := p.cfgStations, pot := p.cfgPot, tags := p.cfgTags, counts := p.cfgCounts, set := p.cfgSet }
  let p := { p with cfgActive := 1 - p.cfgActive, cfgStandby := d, cfgOwners := c.owners, cfgRegs := c.regs, cfgLoops := c.loops }
  { p with cfgStations := c.stations, cfgPot := c.pot, cfgTags := c.tags, cfgCounts := c.counts, cfgSet := c.set }

/-- The logic program and configuration slots that boot loads: the pairs are settled as R515 gives, an open BEGIN of a program slot is closed, and a pair of which no slot verifies loads nothing (assumption 145). -/
def State.bootSlots (s : State) : State :=
  let s := if s.pwr.progBegin then
      ((s.eraseMarker (3 - s.pwr.progActive)).setPwr (fun k => { k with progBegin := false, progDirty := false, progStandby := {} })).writeRec 0x604 [2]
    else s
  let s := match s.bootChoice 1 s.pwr.progActive with
    | (s, some g) => if g = s.pwr.progActive then s else s.setPwr PwrX.swapProg
    | (s, none) => s.setPwr (fun k => { k with progSlot := [], progImages := [] })
  match s.bootChoice 2 s.pwr.cfgActive with
  | (s, some g) => if g = s.pwr.cfgActive then s else s.setPwr PwrX.swapCfg
  | (s, none) => s.setPwr (fun k => { k with cfgOwners := [], cfgRegs := [], cfgLoops := [], cfgStations := [], cfgPot := [], cfgTags := [], cfgCounts := [], cfgSet := none })

/-- Step 7: the time base, the configuration slot, the program store and the retentive memory. -/
def State.bootLoad (s : State) : State :=
  let s := s.bootSlots
  let was := s.invertMask
  let s := (s.pwr.cfgRegs.foldl State.loadReg s).allTrips
  let s := s.turnPins was s.invertMask
  let s := s.bootTime
  let s := s.pwr.cfgLoops.foldl (fun (s : State) (p : Nat × Word) => s.setLw (p.1 / 64) (p.1 % 64) (p.2.toNat &&& loopMask (p.1 % 64))) s
  let s := s.forN 4 fun s c => (s.loadStage c (s.r CLE.LOOP_SEL c)).setLoad c
  let s := s.setSxe (fun k => { k with table := s.pwr.cfgStations, staging := s.pwr.cfgStations })
  let s := (s.setHo (fun h => { h with pot := s.pwr.cfgPot, tag := s.pwr.cfgTags, count := s.pwr.cfgCounts })).loadPot
  let s := { s with progMem := s.pwr.progSlot }
  let s := s.forN 4 fun s h =>
    let x : ImageX := sget ({} : ImageX) s.pwr.progImages h
    ((s.setEng h { s.eng h with image := x }).w LGE.PROG_BASE x.base h).w LGE.PROG_WORDS x.words h
  s.bootRetentive

/-- Every page. -/
def allPages : List Page := (List.range 29).flatMap (fun c => (List.range (instances c)).map (fun i => (Page.mk c i)))

/-- Step 8: owners from the configuration slot (R56), and every page is ready; in RECOVERY the four pages that hosts reach (R530). -/
def State.bootOwners (s : State) : State :=
  if s.pwr.recovery then ([1, 2, 3, 10] : List Nat).foldl (fun (s : State) (c : Nat) => s.hw HDR.READY ⟨c, 0⟩ 1) s
  else
    let s := s.pwr.cfgOwners.foldl (fun (s : State) (x : Nat × Nat × Nat) =>
      if pageExists ⟨x.1, x.2.1⟩ then s.setOwner ⟨x.1, x.2.1⟩ x.2.2 else s) s
    allPages.foldl (fun (s : State) (pg : Page) => s.hw HDR.READY pg 1) s

/-- The program of engine `h` starts as its image says, on the reserve when its engine is retired (R277, R285, R543, R544). -/
def State.bootEngine (s : State) (h : Nat) : State :=
  let x := (s.eng h).image
  let q := s.r LGE.RESERVE
  if x.words = 0 ∨ s.on LGE.IS_RESERVE h then s
  else if (s.r KPR.ENG_RETIRED).testBit h then
    let s := s.runState h 3
    if q < 4 ∧ q ≠ h ∧ !s.on LGE.HOSTING q then
      let s := s.setEng h { s.eng h with hostedBy := some q }
      ((s.w LGE.HOSTING 1 q).w LGE.HOSTED h q).startProgram h 5 (some s.retValid.isEmpty)
    else s.raise 1 0 2 ([2] ++ leBytes 2 h ++ [2])
  else
    match x.bootMode with
    | 0 => s.startProgram h 5 (some s.retValid.isEmpty)
    | 1 => s.startProgram h 2 (some true)
    | _ => s

/-- Step 9: the chain, the engines, the ENABLE held for each block, and the safe schedule with cause RESET. -/
def State.bootStart (s : State) : State :=
  let q := s.r LGE.RESERVE
  let s := s.setReserve (if q < 4 ∧ (s.r KPR.ENG_RETIRED).testBit q then 4 else q)
  let s := if s.on DCH.PAIR_EN then s.fence 3 else s
  let s := s.forN 4 fun s h => s.bootEngine h
  let s := s.pwr.cfgRegs.foldl (fun (s : State) (p : Nat × Word) =>
    if p.1 / 32 % 4096 = 0x008 ∧ p.1 % 32 = 0 ∧ p.2 ≠ 0 then s.setEnable ⟨p.1 / 2 ^ 22, p.1 / 2 ^ 17 % 32⟩ true else s) s
  s.beginRound.runSafe 0

/-- Step 10: boot is complete: records in variable form, BOOT_DONE, OUT_EN_N, and WOKE after a wake from KEEP (R358, R462, R486). -/
def State.bootDone (s : State) : State :=
  let s := (s.w KPR.BOOT_STATE 2).w REC.FORM (if s.on REC.TEST then 2 else 0)
  let run := ((List.range 4).filter (fun e => s.r LGE.RUN_STATE e == 1 || s.r LGE.RUN_STATE e == 2)).foldl (fun v e => v + 2 ^ e) 0
  let s := s.writeRec 0x421 (leBytes 4 ((s.up - s.pwr.bootAt) / 1000) ++ [run])
  let s := if s.on DCH.PAIR_EN then s else s.w DCH.OUT_EN 1
  let s := if s.rtc.bporDue then ((s.setRtc (fun k => { k with bporDue := false })).w RTC.BPOR 1).raise 9 0 3 s.rtcPay else s
  if s.r PCR.RESET_CAUSE = 2 then
    let src := s.r NWT.WAKE_SRC
    let s := s.raise 6 0 0 [src, s.r NWT.WAKE_FROM]
    if s.sourceLevel src then s.offerEic src else s
  else s

/-- R529: a boot step completes and the Keeper starts the next. In RECOVERY steps 7, 9 and 10 do not run (R530). Step 9 writes the publication area (R160, R168). -/
def execBootStep (t : Nat) (s : State) : Host.Outcome State Fault Refusal :=
  s.cmdS t fun s =>
    let n := s.pwr.bootStep + 1
    if s.pwr.inReset ∨ 10 < n then s
    else
      let s := s.setPwr (fun k => { k with bootStep := n })
      if s.pwr.recovery ∧ (n = 7 ∨ n = 9 ∨ n = 10) then s
      else
        match n with
        | 1 => s.bootFuses
        | 2 => s.bootProbe
        | 3 => s.bootRing
        | 4 => s.bootFirmware
        | 5 => s.setPwr (fun k => { k with pll := 0x1FF })
        | 6 => s.bootRepair
        | 7 => s.bootLoad
        | 8 => s.bootOwners
        | 9 => s.bootStart
        | _ => s.bootDone

/-! ### KEEP and the wake (R357, R358, R406, R526) -/

/-- R526, R545: PWR_CMD = KEEP: the entry begins with its steps 1 and 2, or is refused. A repair in progress commits before step 2. -/
def execPwrKeep (t : Nat) (r : Requester) (s : State) : Host.Outcome State Fault Refusal :=
  s.cmdK t fun s => s.lockedCmd r ⟨0, 0⟩ fun s =>
    if s.pwr.keepEntry then s
    else if s.r DCH.ROLE = 3 then s.w PCR.REFUSE_CAUSE 1
    else if s.r SEC.FW_STATE ≠ 0 then s.w PCR.REFUSE_CAUSE 3
    else
      let s := s.w PCR.REFUSE_CAUSE 0
      let s := (s.forN 4 fun s h => s.stopProgram h).w DCH.OUT_EN 0
      let s := (s.dsq.withdrawn.foldl (fun (s : State) w => s.commitLane w.1) s).commitGroup
      let s := (s.writeRec 0x423 [s.pwr.st.num, 2, ownerCode r]).persistAll.capture
      let op := if s.mramOk then s.opSec else s.pwr.hrOpSec
      s.setPwr (fun k => { k with keepEntry := true, keepBy := ownerCode r, hrOpSec := op })

/-- The wake's cause is held (R358). -/
def State.recordWake (s : State) (slot src from_ : Nat) : State :=
  let now := s.up
  let s := (((s.w NWT.WAKE_SRC src).w NWT.WAKE_SLOT slot).w NWT.WAKE_VALID 1).w NWT.WAKE_FROM from_
  (s.inc NWT.WAKE_COUNT).setRtc (fun k => { k with wakeAt := some now })

/-- A source that rises together with the one that woke the device counts as a wake, and is recorded where its slot comes first (R358). -/
def State.wakeAgain (s : State) (slot src : Nat) : State :=
  let s := s.inc NWT.WAKE_COUNT
  if slot < s.r NWT.WAKE_SLOT then (s.w NWT.WAKE_SRC src).w NWT.WAKE_SLOT slot else s

/-- PWRON rises and the device boots with cause KEEP_WAKE (R406, R527). -/
def State.wakeBoot (s : State) : State := ((s.setRtc (fun k => { k with offUntil := none, wakeHeld := false })).w RTC.PWRON_STATE 1).sysReset 2 false false

/-- A wake from KEEP: recorded at once; PWRON rises now or when MIN_OFF_MS ends (R406). -/
def State.wakeKeep (s : State) (slot src : Nat) : State :=
  let s := s.recordWake slot src 2
  match s.rtc.offUntil with
  | some e => if s.up < e then s.setRtc (fun k => { k with wakeHeld := true }) else s.wakeBoot
  | none => s.wakeBoot

/-- The first enabled watch slot that names a source. -/
def State.watchSlot (s : State) (src : Nat) : Option Nat :=
  (List.range 32).find? (fun n => s.aon NWT.W_EN n != 0 && s.aon NWT.SRC n == src)

/-- R526: entry to KEEP completes: every island but AON is reset and PWRON falls; a wake that came during the entry acts now. -/
def execKeepEntryDone (t : Nat) (s : State) : Host.Outcome State Fault Refusal :=
  s.cmdM t fun s =>
    if !s.pwr.keepEntry then s
    else
      let held := s.pwr.wakeHeld
      let cause := s.r PCR.RESET_CAUSE
      let off := s.up + 1000000 * s.aon RTC.MIN_OFF_MS
      let s := (s.sysReset cause true false false).setPwr (fun k => { k with st := .keep })
      let s := (s.w RTC.PWRON_STATE 0).setRtc (fun k => { k with offUntil := some off })
      match held with
      | some src => s.wakeKeep ((s.watchSlot src).getD 0) src
      | none => s

/-- R357, R358: a watched source rises. Only AON sources can rise in KEEP, and none of the SOLVE and LOOP islands in DOZE. -/
def execNewtWake (t : Nat) (src : Fin 256) (s : State) : Host.Outcome State Fault Refusal :=
  s.cmdM t fun s =>
    match s.watchSlot src with
    | none => s
    | some n =>
      if s.rtc.wakeAt = some s.up then
        (if (if s.r NWT.WAKE_FROM = 2 then aonSource src else !(32 ≤ src.val && src.val ≤ 71)) then s.wakeAgain n src else s)
      else if s.pwr.keepEntry then
        (if aonSource src ∧ s.pwr.wakeHeld.isNone then s.setPwr (fun k => { k with wakeHeld := some src.val }) else s)
      else if s.pwr.st = .keep then (if aonSource src && !s.rtc.wakeHeld then s.wakeKeep n src else s)
      else if s.pwr.st = .doze then
        (if 32 ≤ src.val ∧ src.val ≤ 71 then s else (s.recordWake n src 1).toRun 0)
      else s

/-- R406: MIN_OFF_MS ends: a recorded wake raises PWRON. -/
def execMinOffEnd (t : Nat) (s : State) : Host.Outcome State Fault Refusal :=
  s.cmdM t fun s =>
    match s.rtc.offUntil with
    | some e => if e ≤ s.up then
        (if s.rtc.wakeHeld then s.wakeBoot else s.setRtc (fun k => { k with offUntil := none }))
      else s
    | none => s

end Sys2Proof.Machine
end

