-- ==== Sys2Proof/Machine/Bus.lean ====
section
/-! DEFINITION. The register bus: what a write or a read of an address does (R8, R18 to R21, R46 to R50, R61 to R63, R69), block by block. A write of a register that has a command row of its own acts as that row. -/

namespace Sys2Proof.Machine

/-- An accepted write of a block register: page, offset and value. -/
structure RegW where
  r : Requester
  pg : Page
  off : Nat
  v : Word
  deriving DecidableEq, Repr

/-- The written value as a number. -/
def RegW.n (x : RegW) : Nat := x.v.toNat

/-- The state after a row that the write carries, when bit `b` of the value is 1. -/
def State.bitCmd (s : State) (x : RegW) (b : Nat) (f : State → Host.Outcome State Fault Refusal) : State :=
  if x.n.testBit b then s.after x.pg (f s) else s

/-- The state after the row that an enumerated command field names: code 0 names none. -/
def State.enumCmd (s : State) (x : RegW) (lsb w hi : Nat) (f : Nat → State → Host.Outcome State Fault Refusal) : State :=
  let c := s.codeAt x.pg x.off x.n lsb w hi
  if c.2 = 0 then c.1 else c.1.after x.pg (f c.2 c.1)

/-- The generic write of the register. -/
def State.gen' (s : State) (x : RegW) : State := s.genWrite x.pg x.off x.n

/-- A write that a mode of the block refuses: the register is unchanged and the write counts, whatever value it carries (R111, R300). A word without a writable field is reserved and counts nothing. -/
def State.refuseIn (s : State) (x : RegW) (open_ : Bool) (count : State → State) : State :=
  if open_ then s.gen' x
  else if (wordFields x.pg x.off).any (fun p => p.1.acc == .rw) then count s
  else s

/-- The same for a word that also carries a field which may be written: it counts where it would change a refused field (assumption 105). -/
def State.refuseChange (s : State) (x : RegW) (open_ : Bool) (count : State → State) : State :=
  if open_ then s.gen' x
  else if (wordFields x.pg x.off).any (fun p => (p.1.acc == .rw) && bitsAt x.n p.1.lsb p.1.width != s.r p.1 x.pg.inst p.2) then count s
  else s

/-- PCR (R524 to R527, R547). -/
def State.pcrWrite (s : State) (x : RegW) : State :=
  let t := s.now
  if x.off = 0x040 then
    if !s.lockOpen x.pg then s.lockViol x.pg (x.n % 4 != 0 || x.n.testBit 8)
    else
      let s := match x.n % 4 with
        | 1 => s.after x.pg (execPwrRun t x.r s)
        | 2 => s.after x.pg (execPwrDoze t x.r s)
        | 3 => s.after x.pg (execPwrKeep t x.r s)
        | _ => s
      if x.n.testBit 8 then
        (match execSysRst t x.r s with
          | .next s' => s'
          | _ => s)
      else s
  else s.gen' x

/-- SEC (R508, R511, R513, R516, R519). -/
def State.secWrite (s : State) (x : RegW) : State :=
  let t := s.now
  match x.off with
  | 0x050 => let s := s.gen' x; s.setIdx s.idx
  | 0x064 => (s.bitCmd x 0 (execTokenApply t x.r)).bitCmd x 1 (execDbgClose t x.r)
  | 0x078 => s.bitCmd x 0 (execAttestStart t x.r)
  | 0x088 => (s.gen' x).enumCmd x 0 2 3 (fun c => if c = 1 then execInstall t x.r else if c = 2 then execInstallAbort t x.r else execInstallSwitch t x.r)
  | 0x0A0 => s.bitCmd x 0 (execSecCtrClr t x.r)
  | _ => s.gen' x

/-- PST (R533, R549). -/
def State.pstWrite (s : State) (x : RegW) : State :=
  let t := s.now
  match x.off with
  | 0x044 =>
    let d : Fin 2 := Fin.ofNat 2 (bitsAt x.n 4 1)
    if !s.lockOpen x.pg then s.lockViol x.pg (x.n % 4 != 0 || d.val != s.r PST.DEV)
    else (s.gen' { x with v := x.v &&& 0x10 }).enumCmd x 0 2 2 (fun c => if c = 1 then execPstRemove t x.r d else execPstInsert t x.r d)
  | 0x054 => s.bitCmd x 0 (execPstCtrClr t x.r)
  | _ => s.gen' x

/-- EIC (R347, R351, R368). -/
def State.eicWrite (s : State) (x : RegW) : State :=
  let t := s.now
  if x.off = 0x040 then s.after x.pg (execSetSrc t x.r (Fin.ofNat 256 x.n) s)
  else if x.off = 0x04C then s.bitCmd x 0 (execEicCtrClr t x.r)
  else if 0x400 ≤ x.off ∧ x.off < 0x800 then s.after x.pg (execSrcCfgWrite t x.r (Fin.ofNat 256 ((x.off - 0x400) / 4)) x.v s)
  else s.gen' x

/-- HQE (R361, R367): a queue's base, size and write-back address are closed while it is enabled. -/
def State.hqeWrite (s : State) (x : RegW) : State :=
  let p := x.pg.inst
  if 0x100 ≤ x.off ∧ x.off < 0x300 then
    let q := (x.off - 0x100) / 0x40
    let en := s.on HQE.Q_EN p q
    let refused := fun (s : State) => s.inc HQE.REFUSED p
    match x.off % 0x40 with
    | 0x08 =>
      let s := s.refuseChange { x with v := (x.v &&& 0xFFFFFFFE) ||| BitVec.ofNat 32 en.toNat } (!en) refused
      if x.n.testBit 0 = en then s else s.after x.pg (execQEnWrite s.now x.r (Fin.ofNat 2 p) (Fin.ofNat 8 q) (x.n.testBit 0) s)
    | 0x18 => s.after x.pg (execConsWrite s.now x.r (Fin.ofNat 2 p) (Fin.ofNat 8 q) x.v s)
    | k => if k = 0x00 ∨ k = 0x04 ∨ k = 0x0C ∨ k = 0x10 then
        (if en then s.refuseIn x false refused
         else if wideLow x.pg x.off then s.stageLow x.r x.pg x.off x.v else s.commitWide x.r x.pg x.off x.n)
      else s.gen' x
  else s.gen' x

/-- TMK (R381 to R385, R388, R392, R395). -/
def State.tmkWrite (s : State) (x : RegW) : State :=
  let t := s.now
  if wideLow x.pg x.off then s.stageLow x.r x.pg x.off x.v
  else if wideLow x.pg (x.off - 4) then s.commitWide x.r x.pg x.off x.n
  else if 0x100 ≤ x.off ∧ x.off < 0x180 ∧ x.off % 0x20 = 0x18 then
    let o : Fin 4 := Fin.ofNat 4 ((x.off - 0x100) / 0x20)
    s.enumCmd x 0 2 2 (fun c => if c = 1 then execPulseArm t x.r o else execPulseDisarm t x.r o)
  else
    match x.off with
    | 0x064 => s.enumCmd x 0 2 2 (fun c => if c = 1 then execTimeSet t x.r else execTimeAdd t x.r)
    | 0x068 =>
      let was := s.r TMK.REF_MODE
      let s := s.gen' x
      if s.r TMK.REF_MODE = 0 ∧ was ≠ 0 then s.toFree else s
    | 0x078 => s.after x.pg (execAdjManWrite t x.r x.v s)
    | 0x07C => let s := s.gen' x; s.wi TMK.ADJ_NOW (s.rateClamp (s.ri TMK.ADJ_NOW))
    | 0x088 => let s := s.gen' x; s.setUtcOffset (s.r TMK.UTC_OFFSET)
    | 0x0AC => s.bitCmd x 0 (execTmkCtrClr t x.r)
    | _ => if 0x0B0 ≤ x.off ∧ x.off < 0x0BC then (s.gen' x).gmRole else s.gen' x

/-- A write of an AON page also goes on its way to the AON island (R19). -/
def State.toAon (s : State) (x : RegW) : State := s.sendAon x.pg x.off

/-- RTC (R401, R408). -/
def State.rtcWrite (s : State) (x : RegW) : State :=
  let t := s.now
  let stg := fun (g : StgReg) => s.after x.pg (execStagingWrite t x.r g x.v s)
  match x.off with
  | 0x070 => stg .sec
  | 0x074 => stg .min
  | 0x078 => stg .hour
  | 0x07C => stg .day
  | 0x080 => stg .month
  | 0x084 => stg .year
  | 0x088 => s.after x.pg (execCalendarCommit t x.r x.v s)
  | 0x090 => ((s.bitCmd x 0 (execStgDiscard t x.r)).gen' x).toAon x
  | _ => (s.gen' x).toAon x

/-- A written export cursor is bounded to the records held, in sequence order (R470). -/
def expSeq (oldest head v : Nat) : Nat :=
  let d := (v + 2 ^ 32 - oldest) % 2 ^ 32
  let n := (head + 2 ^ 32 - oldest) % 2 ^ 32
  if d ≤ n then v else if d - n ≤ 2 ^ 32 - d then head else oldest

/-- REC (R462 to R475). -/
def State.recWrite (s : State) (x : RegW) : State :=
  let t := s.now
  match x.off with
  | 0x040 =>
    let s := s.gen' x
    if s.r KPR.BOOT_STATE = 2 then s.w REC.FORM (if s.on REC.TEST then 2 else 0) else s
  | 0x050 =>
    let v := expSeq (s.r REC.OLDEST_SEQ) (s.r REC.HEAD_SEQ) x.n
    ((s.when (v != x.n) (fun s => s.clampCount x.pg 0x050 0)).w REC.EXP_SEQ v).ringFill
  | 0x054 => (s.gen' x).ringFill
  | 0x05C => s.after x.pg (execCodeCfgWrite t x.r x.v s)
  | 0x064 => s.after x.pg (execClassCfgWrite t x.r x.v s)
  | 0x06C => (s.enumCmd x 0 2 2 (fun c => if c = 1 then execRecFreeze t x.r else execRecRelease t x.r)).gen' x
  | 0x080 => s.after x.pg (execWinSeqWrite t x.r x.v s)
  | 0x084 => s.bitCmd x 0 (execWinNext t x.r)
  | 0x08C => (s.gen' x).enumCmd x 0 2 2 (fun c => if c = 1 then execExportStart t x.r else execExportAbort t x.r)
  | 0x0A4 => s.bitCmd x 0 (execClearStart t x.r)
  | 0x0C8 => s.bitCmd x 0 (execRecCtrClr t x.r)
  | _ => s.gen' x

/-- DCH (R483 to R496). -/
def State.dchWrite (s : State) (x : RegW) : State :=
  let t := s.now
  if wideLow x.pg x.off then s.stageLow x.r x.pg x.off x.v
  else if wideLow x.pg (x.off - 4) then s.commitWide x.r x.pg x.off x.n
  else
    match x.off with
    | 0x048 => (s.gen' x).enumCmd x 0 2 3 (fun c => if c = 1 then execBuild t x.r else if c = 2 then execVacate t x.r else execClaimAccept t x.r)
    | 0x060 =>
      let was := s.on DCH.PAIR_EN
      let s := s.gen' x
      if s.on DCH.PAIR_EN = was then s else s.pairEnable (!was)
    | 0x080 => s.enumCmd x 0 2 2 (fun c => if c = 1 then execSwap t x.r else execPairTake t x.r)
    | 0x088 => s.enumCmd x 0 2 2 (fun c => if c = 1 then execVoteGrant t x.r else execVoteDeny t x.r)
    | 0x08C => (s.gen' x).showWitness
    | 0x0AC => s.bitCmd x 0 (execDchCtrClr t x.r)
    | _ => s.gen' x

/-- The word of POT_W0 as it is taken: VAR at most 639, SAFE at most 2 (R155). -/
def State.potWord0 (s : State) (pg : Page) (v : Nat) : State :=
  let var := min 639 (v % 65536)
  let safe := min 2 (bitsAt v 17 2)
  let s := s.when (var != v % 65536) (fun s => s.clampCount pg 0x224 0)
  let s := s.when (safe != bitsAt v 17 2) (fun s => s.clampCount pg 0x224 17)
  s.w DSQ.POT_W0 (var + 2 ^ 16 * bitsAt v 16 1 + 2 ^ 17 * safe + 2 ^ 19 * bitsAt v 19 4)

/-- DSQ (R103, R108 to R112, R155, R163, R170). -/
def State.dsqWrite (s : State) (x : RegW) : State :=
  let t := s.now
  if 0x040 ≤ x.off ∧ x.off < 0x060 then s.after x.pg (execSetRegionWrite t x.r (Fin.ofNat 8 ((x.off - 0x040) / 4)) x.v s)
  else
    match x.off with
    | 0x060 =>
      let k : Slot := if x.n.testBit 4 then .b else .a
      let c := s.codeAt x.pg x.off x.n 0 3 4
      c.1.after x.pg (match c.2 with
        | 0 => execSetCmdNone t x.r k c.1
        | 1 => execSetCheck t x.r k c.1
        | 2 => execSetArm t x.r k c.1
        | 3 => execSetDisarm t x.r k c.1
        | _ => execSetClear t x.r k c.1)
    | 0x160 => s.bitCmd x 0 (execDsqCtrClr t x.r)
    | 0x168 => s.refuseIn x (!s.enabled 16) (fun s => s.inc DSQ.REFUSED_WR)
    | 0x16C => s.refuseIn x (!s.enabled 16) (fun s => s.inc DSQ.REFUSED_WR)
    | 0x210 => s.after x.pg (execTripSet t x.r x.v s)
    | 0x214 => s.after x.pg (execTripStateClear t x.r x.v s)
    | 0x220 => (s.gen' x).loadPot
    | 0x224 => s.potWrite (fun _ s => s.potWord0 x.pg x.n)
    | 0x228 => s.potWrite (fun _ s => s.gen' x)
    | 0x22C => s.potWrite (fun _ s => s.gen' x)
    | 0x230 => s.after x.pg (execPotEntryCommit t x.r x.v s)
    | 0x234 => s.after x.pg (execPotTagWrite t x.r x.v s)
    | 0x238 => s.after x.pg (execPotCountWrite t x.r x.v s)
    | 0x248 => s.after x.pg (execHoEvtClear t x.r x.v s)
    | _ => s.gen' x

/-- DSA (R140): RETIRE_CMD. -/
def State.dsaWrite (s : State) (x : RegW) : State :=
  if x.off = 0x054 then s.bitCmd x 0 (execRetireCmd s.now x.r (Fin.ofNat 18 x.pg.inst)) else s.gen' x

/-- CLE (R206 to R216). -/
def State.cleWrite (s : State) (x : RegW) : State :=
  let t := s.now
  let c : Fin 4 := Fin.ofNat 4 x.pg.inst
  if 0x100 ≤ x.off ∧ x.off < 0x1C0 then
    let w := (x.off - 0x100) / 4
    if w = 9 then s.after x.pg (execLiveFieldWrite t x.r c .spFixed x.v s)
    else if w = 36 then s.after x.pg (execLiveFieldWrite t x.r c .manOut x.v s)
    else s.windowWrite c w x.n
  else
    match x.off with
    | 0x040 => s.after x.pg (execOutDelayWrite t x.r c x.v s)
    | 0x04C => s.after x.pg (execLoopSel t x.r c (Fin.ofNat 128 x.n) s)
    | 0x050 => if x.n % 4 = 0 then s.clePending c id else s.enumCmd x 0 2 3 (fun k => if k = 1 then execCommit t x.r c else if k = 2 then execDiscard t x.r c else execRcClear t x.r c)
    | 0x068 => (s.gen' x).enumCmd x 12 2 3 (fun k => if k = 1 then execTuneStart t x.r c else if k = 2 then execTuneAbort t x.r c else execTuneApply t x.r c)
    | _ => s.gen' x

/-- MFE (R221 to R227, R240). A new ratio settles the main filter anew (R222). Of two soft triggers in one write, sequence B's comes first (R226). -/
def State.mfeWrite (s : State) (x : RegW) : State :=
  let t := s.now
  if x.off = 0x070 then (s.bitCmd x 1 (execSarStartB t x.r)).bitCmd x 0 (execSarStartA t x.r)
  else if 0x040 ≤ x.off ∧ x.off < 0x050 then (s.gen' x).sdDir ((x.off - 0x040) / 4)
  else if 0x080 ≤ x.off ∧ x.off < 0x100 ∧ x.off % 16 = 8 then (s.gen' x).sarJudge ((x.off - 0x080) / 16)
  else if 0x100 ≤ x.off ∧ x.off < 0x300 ∧ x.off % 16 = 0 then
    let c := (x.off - 0x100) / 16
    let was := (s.r MFE.SD_EN 0 c, s.r MFE.OSR 0 c)
    let s := s.gen' x
    s.sdChanged c (decide ((s.r MFE.SD_EN 0 c, s.r MFE.OSR 0 c) ≠ was))
  else s.gen' x

/-- ACT (R231 to R238). -/
def State.actWrite (s : State) (x : RegW) : State :=
  let t := s.now
  if 0x040 ≤ x.off ∧ x.off < 0x050 then (s.gen' x).allTrips
  else if x.off = 0x050 then s.after x.pg (execActTripClear t x.r (BitVec.ofNat 4 x.n) s)
  else if 0x100 ≤ x.off ∧ x.off < 0x400 ∧ x.off % 0x20 = 0x10 then
    s.after x.pg (execDutyWrite t (.page x.r) (Fin.ofNat 24 ((x.off - 0x100) / 0x20)) (BitVec.ofNat 16 x.n) s)
  else if 0x100 ≤ x.off ∧ x.off < 0x400 ∧ x.off % 0x20 = 0 then (s.gen' x).tripOutputs
  else s.gen' x

/-- A written MEM_ADDR is clamped by its area and then by its index (R570). -/
def memAddr (v : Nat) : Nat :=
  let area := v / 2 ^ 18 % 16
  let last := [ 262143, 16383, 4095, 2047 ].getD (area - 4) 0
  if area < 4 then 4 * 2 ^ 18 else if 7 < area then 7 * 2 ^ 18 + 2047 else area * 2 ^ 18 + min last (v % 2 ^ 18)

/-- The registers that page 0 of LGE alone holds (R281 to R289, R293). -/
def State.lgeWrite0 (s : State) (x : RegW) : State :=
  let t := s.now
  match x.off with
  | 0x0C0 =>
    let q := x.n % 8
    let s := s.w LGE.REARM (bitsAt x.n 3 1)
    if !s.lockOpen x.pg then s.lockViol x.pg (q != s.r LGE.RESERVE)
    else
      let s := s.when (decide (4 < q)) (fun s => s.clampCount x.pg 0x0C0 0)
      s.setReserve (if q < 4 ∧ (s.r KPR.ENG_RETIRED).testBit q then 4 else min 4 q)
  | 0x0D0 => (s.gen' x).showForces
  | 0x0D4 =>
    if !s.lockOpen x.pg then s.lockViol x.pg (s.rwlDiffers x.pg x.off x.n)
    else
      let area := bitsAt x.n 18 4
      let a := enumCode [0, 1, 2, 3, 4, 5, 8, 9] area
      let s := s.when (a != area) (fun s => s.clampCount x.pg 0x0D4 0)
      (s.w LGE.FORCE_ADDR (a * 2 ^ 18 + x.n % 2 ^ 18)).w LGE.FORCE_KIND (bitsAt x.n 22 1)
  | 0x0DC => s.after x.pg (execForceOnWrite t x.r (x.n.testBit 0) s)
  | 0x0E4 => s.bitCmd x 0 (execForceClrAll t x.r)
  | _ => s.gen' x

/-- LGE (R244, R247, R276, R278, R293). -/
def State.lgeWrite (s : State) (x : RegW) : State :=
  let t := s.now
  let e : Fin 4 := Fin.ofNat 4 x.pg.inst
  if 0x0C0 ≤ x.off ∧ x.off < 0x0E8 then (if x.pg.inst = 0 then s.lgeWrite0 x else s)
  else
    match x.off with
    | 0x044 => s.enumCmd x 0 2 3 (fun c => if c = 1 then execRestartWarm t x.r e else if c = 2 then execRestartCold t x.r e else execRestartStop t x.r e)
    | 0x054 => s.after x.pg (execChgRegionWrite t x.r e .loadDst x.v s)
    | 0x058 => s.after x.pg (execChgRegionWrite t x.r e .loadWords x.v s)
    | 0x05C => s.enumCmd x 0 3 5 (fun c =>
        if c = 1 then execChgCopy t x.r e else if c = 2 then execChgCheck t x.r e else if c = 3 then execChgArm t x.r e
        else if c = 4 then execChgDisarm t x.r e else execChgClear t x.r e)
    | 0x09C => s.bitCmd x 0 (execLgeCtrClr t x.r e)
    | 0x0A0 =>
      let a := memAddr (x.n % 2 ^ 22)
      (s.when (a != x.n % 2 ^ 22) (fun s => s.clampCount x.pg 0x0A0 0)).w LGE.MEM_ADDR a e
    | 0x0A4 => s.after x.pg (execMemDataWrite t x.r e x.v s)
    | _ => s.gen' x

/-- SXE (R296, R300, R311, R312, R318). -/
def State.sxeWrite (s : State) (x : RegW) : State :=
  let t := s.now
  if 0x040 ≤ x.off ∧ x.off < 0x060 then (s.refuseIn x (!s.enabled 22) (fun s => s.inc SXE.REFUSED)).clampTxOff
  else if 0x06C ≤ x.off ∧ x.off ≤ 0x078 then s.after x.pg (execStnEntryWrite t x.r (Fin.ofNat 4 ((x.off - 0x06C) / 4)) x.v s)
  else if 0x300 ≤ x.off ∧ x.off < 0x380 then
    s.setSo (32 * s.r SXE.STN_SEL + (x.off - 0x300) / 4) x.v
  else
    match x.off with
    | 0x080 => s.enumCmd x 0 2 2 (fun c => if c = 1 then execTableCommit t x.r else execTableDiscard t x.r)
    | 0x0A4 => s.bitCmd x 0 (execSxeCtrClr t x.r)
    | 0x0B4 => s.after x.pg (execProfDataWrite t x.r x.v s)
    | 0x0B8 => s.stageLow x.r x.pg x.off x.v
    | 0x0BC => s.writeHoldMask x.r x.v
    | 0x0C4 => s.after x.pg (execPlanMapWrite t x.r 0 x.v s)
    | 0x0C8 => s.after x.pg (execPlanMapWrite t x.r 1 x.v s)
    | _ => s.gen' x

/-- MPG (R324 to R339, R343). -/
def State.mpgWrite (s : State) (x : RegW) : State :=
  let t := s.now
  let a : Fin 24 := Fin.ofNat 24 x.pg.inst
  if x.pg.inst = 24 then (s.gen' x).forN 8 (fun s g => s.groupEvents g)
  else
    match x.off with
    | 0x05C => s.after x.pg (execDecWrite t x.r a 0 x.v s)
    | 0x060 => s.after x.pg (execDecWrite t x.r a 1 x.v s)
    | 0x08C => s.after x.pg (execTargetWrite t x.r a x.v s)
    | 0x094 => s.enumCmd x 0 3 6 (fun c =>
        if c = 1 then execHome t x.r a else if c = 2 then execStop t x.r a else if c = 3 then execEstop t x.r a
        else if c = 4 then execRelease t x.r a else if c = 5 then execPhaseSync t x.r a else execSetPos t x.r a)
    | _ => (s.gen' x).softTarget a (s.r MPG.TARGET a)

/-- A refusal of a CAN channel with its cause (R413, R415). -/
def State.canRefuse (s : State) (ch c : Nat) : State := (s.w CFD.REFUSE_CAUSE c ch).inc CFD.REFUSED ch

/-- CFD (R413 to R429): timing, TDCO and filters are open in INIT only, a buffer while it is neither PENDING nor SENDING. -/
def State.cfdWrite (s : State) (x : RegW) : State :=
  let t := s.now
  let ch : Fin 16 := Fin.ofNat 16 x.pg.inst
  if (0x044 ≤ x.off ∧ x.off ≤ 0x050) ∨ (0x400 ≤ x.off ∧ x.off < 0x480) then
    s.refuseIn x (s.r CFD.MODE ch == 0) (fun s => s.canRefuse ch 3)
  else if 0x100 ≤ x.off ∧ x.off < 0x220 then
    let st := s.r CFD.TX_STATE ch ((x.off - 0x100) / 96)
    if st = 1 ∨ st = 2 then s.canRefuse ch 2 else s.gen' x
  else
    match x.off with
    | 0x040 => s.after x.pg (execCanModeWrite t x.r ch x.v s)
    | 0x05C =>
      let s := if x.n % 8 = 0 then s else s.after x.pg (execTxReq t x.r ch (BitVec.ofNat 3 x.n) s)
      let s := if x.n / 16 % 8 = 0 then s else s.after x.pg (execCancel t x.r ch (BitVec.ofNat 3 (x.n / 16)) s)
      ((s.bitCmd x 8 (execRecover t x.r ch)).bitCmd x 9 (execRxAck t x.r ch)).bitCmd x 10 (execCfdCtrClr t x.r ch)
    | _ => s.gen' x

/-- SER (R430, R431): the settings and TX_BUF are open while no transaction runs. -/
def State.serWrite (s : State) (x : RegW) : State :=
  let t := s.now
  let ch : Fin 8 := Fin.ofNat 8 x.pg.inst
  let st := s.r SER.STATE ch
  if (0x040 ≤ x.off ∧ x.off < 0x050) ∨ (0x200 ≤ x.off ∧ x.off < 0x400) then
    s.refuseIn x (st == 0 || st == 5) (fun s => s.inc SER.REFUSED ch)
  else if x.off = 0x050 then
    (s.enumCmd x 0 2 2 (fun c => if c = 1 then execSerStart t x.r ch else execSerAbort t x.r ch)).bitCmd x 4 (execSerCtrClr t x.r ch)
  else s.gen' x

/-- ETH (R437, R453). -/
def State.ethWrite (s : State) (x : RegW) : State :=
  let p := x.pg.inst
  match x.off with
  | 0x040 => s.refuseIn x (!s.enabled 26 p) (fun s => s.inc ETH.REFUSED p)
  | 0x044 => s.refuseIn x (!s.enabled 26 p) (fun s => s.inc ETH.REFUSED p)
  | 0x074 => s.bitCmd x 0 (execEthCtrClr s.now x.r (Fin.ofNat 12 p))
  | _ => s.gen' x

/-- ESW (R447, R455). -/
def State.eswWrite (s : State) (x : RegW) : State :=
  let t := s.now
  match x.off with
  | 0x060 => s.stageLow x.r x.pg x.off x.v
  | 0x064 => s.commitWide x.r x.pg x.off x.n
  | 0x06C => s.enumCmd x 0 2 3 (fun c => if c = 1 then execFdbAdd t x.r else if c = 2 then execFdbDelete t x.r else execFdbLookup t x.r)
  | _ => s.gen' x

/-- GIO (R290, R291): INVERT turns the level of an input round at once. -/
def State.gioWrite (s : State) (x : RegW) : State :=
  if 0x040 ≤ x.off ∧ x.off < 0x140 then
    let u := s.gen' x
    u.turnPins s.invertMask u.invertMask
  else s.gen' x

/-- The effect of an accepted write of a block register. -/
def State.blockWrite (s : State) (x : RegW) : State :=
  match x.pg.code with
  | 0 => s.pcrWrite x
  | 1 => if x.off = 0x07C then s.bitCmd x 0 (execKprCtrClr s.now x.r) else s.gen' x
  | 2 => s.secWrite x
  | 3 => s.pstWrite x
  | 5 => s.eicWrite x
  | 6 => (s.gen' x).toAon x
  | 7 => s.hqeWrite x
  | 8 => s.tmkWrite x
  | 9 => s.rtcWrite x
  | 10 => s.recWrite x
  | 11 => s.dchWrite x
  | 16 => s.dsqWrite x
  | 17 => s.dsaWrite x
  | 18 => s.cleWrite x
  | 19 => s.mfeWrite x
  | 20 => s.actWrite x
  | 21 => s.lgeWrite x
  | 22 => s.sxeWrite x
  | 23 => s.mpgWrite x
  | 24 => s.cfdWrite x
  | 25 => s.serWrite x
  | 26 => s.ethWrite x
  | 27 => s.eswWrite x
  | 28 => s.gioWrite x
  | _ => s.gen' x

/-- The bits of PG_CTRL from the least significant upward (R51, R65). -/
def State.ctrlWrite (s : State) (x : RegW) : State :=
  let b := fun k => x.n.testBit k
  let s := s.setEnable x.pg (b 0)
  let s := s.when (b 1) (fun s => s.softReset x.pg)
  let s := s.when (b 2 != (s.h HDR.FROZEN x.pg == 1)) (fun s => s.setFreeze x.pg (b 2))
  let s := s.when (b 3) (fun s => s.requestOwner x.r x.pg)
  (s.when (b 4) (fun s => s.clampClr x.pg)).when (b 5) (fun s => s.errClr x.pg)

/-- The effect of an accepted write of a header register (R51); PG_LOCK, PG_SEQ and the request of a non-owner are taken apart in `busPage`. -/
def State.headWrite (s : State) (x : RegW) : State :=
  match x.off with
  | 0x008 => s.ctrlWrite x
  | 0x014 => s.hw HDR.EVT_EN x.pg (x.n &&& evtMask x.pg)
  | 0x018 => s.clearPend x.pg x.n
  | 0x024 => s.writeOwner x.r x.pg (x.n % 16)
  | _ => s

/-- A whole, aligned write of a page that exists (R49, R55, R60 to R63). -/
def State.busPage (s : State) (x : RegW) : State :=
  match x.off with
  | 0x020 => s.pageWrite x.r x.pg false (fun s => s.writeKey x.pg (x.n % 65536)) true
  | 0x028 =>
    if !s.reaches x.r x.pg then s.gated (pageAddr x.pg)
    else if !s.mayWrite x.r x.pg then (s.breakKeys x.pg).hinc HDR.OWNER_VIOL x.pg
    else s.armGuard x.r x.pg (x.n / 65536)
  | _ =>
    if x.off = 0x008 ∧ x.n.testBit 3 = true ∧ s.reaches x.r x.pg = true ∧ s.mayWrite x.r x.pg = false then
      ((s.breakKeys x.pg).countWrite x.pg).requestOwner x.r x.pg
    else if x.off < 0x040 then s.pageWrite x.r x.pg false (fun s => s.headWrite x)
    else s.pageWrite x.r x.pg true (fun s => s.blockWrite x)

/-- The page that an address of the page region names (R46). -/
def addrPage (a : Nat) : Page := ⟨(a - 0x04000000) / 2 ^ 20, a / 2 ^ 12 % 256⟩

/-- An address lies in the page region, on a page of R47. -/
def onPage (a : Nat) : Bool := decide (0x04000000 ≤ a) && decide (a < 0x06000000) && pageExists (addrPage a)

/-- The bytes that a word write with byte enables carries, the enabled ones. -/
def wordBytesAt (a : Nat) (be : BitVec 4) (v : Word) : List (Nat × BitVec 8) :=
  ((List.range 4).filter (fun k => be.getLsbD k)).map (fun k => (a + k, BitVec.ofNat 8 (v.toNat / 256 ^ k)))

/-- A write of a word at an internal address by a requester: a page, one of the two SRAMs, or a reserved address (R21, R46, R49, R69). -/
def State.busWrite (s : State) (r : Requester) (a : Nat) (be : BitVec 4) (v : Word) : State :=
  if onPage a then
    let pg := addrPage a
    if !s.reaches r pg then s.gated (pageAddr pg)
    else if be ≠ 0xF#4 ∨ a % 4 ≠ 0 then
      (if s.mayWrite r pg then ((s.disarm r pg).breakKeys pg).hinc HDR.ACCESS_ERR pg else (s.breakKeys pg).hinc HDR.OWNER_VIOL pg)
    else s.busPage { r := r, pg := pg, off := a % 4096, v := v }
  else if 0x48000000 ≤ a ∧ a < 0x49000000 then
    if !s.islandOn .host then s.gated a
    else { s with general := (wordBytesAt (a / 4 * 4) be v).foldl (fun m b => sset 0 m b.1 b.2) s.general }
  else if 0x40000000 ≤ a ∧ a < 0x44000000 then
    if !s.islandOn .solve then s.gated a
    else if !s.mayWrite r ⟨16, 0⟩ then s.hinc HDR.OWNER_VIOL ⟨16, 0⟩
    else
      let hi : Bool := a / 4 % 2 == 1
      s.hostWord (a / 8 * 8) (BitVec.ofNat 8 (be.toNat * (if hi then 16 else 1))) (BitVec.ofNat 64 (v.toNat * (if hi then 2 ^ 32 else 1)))
  else s.unmapped a

/-- An address of the solver SRAM (R21). -/
def inSolver (a : Nat) : Bool := decide (0x40000000 ≤ a) && decide (a < 0x44000000)

/-- An address of the general SRAM (R21). -/
def inGeneral (a : Nat) : Bool := decide (0x48000000 ≤ a) && decide (a < 0x49000000)

/-- R62: a write of a register, or of a word of the two SRAMs. -/
def execRegisterWrite (t : Nat) (r : Requester) (addr : BitVec 32) (be : BitVec 4) (v : Word) (s : State) :
    Host.Outcome State Fault Refusal :=
  s.cmd t fun s => s.busWrite r addr.toNat be v

/-- R18: an access to a page whose island is gated or in reset, or to an SRAM whose island is. R18 speaks of a page address: for an SRAM the address of the access is recorded (DESIGN CHOICE, assumption 161). An address that names neither is none. -/
def execGatedAccess (t : Nat) (r : Requester) (addr : BitVec 32) (write : Bool) (s : State) : Host.Outcome State Fault Refusal :=
  s.cmdK t fun s =>
    let pg := addrPage addr.toNat
    if onPage addr.toNat ∧ s.reaches r pg = false then
      let s := s.gated (pageAddr pg)
      if write then s else s.reply r 0
    else if (inSolver addr.toNat && !s.islandOn .solve) || (inGeneral addr.toNat && !s.islandOn .host) then
      let s := s.gated addr.toNat
      if write then s else s.reply r 0
    else s

/-- A reserved address of the internal map: no page, no SRAM byte (R21, R48). -/
def reservedAddr (a : Nat) : Bool :=
  !onPage a && !inSolver a && !inGeneral a

/-- R21, R48, R107: an access to a reserved address, or to solver SRAM above SOLVER_CAP. -/
def execUnmappedAccess (t : Nat) (r : Requester) (addr : BitVec 32) (write : Bool) (s : State) : Host.Outcome State Fault Refusal :=
  s.cmdK t fun s =>
    if reservedAddr addr.toNat || (inSolver addr.toNat && s.islandOn .solve && decide (s.r DSQ.SOLVER_CAP ≤ addr.toNat)) then
      let s := s.unmapped addr.toNat
      if write then s else s.reply r 0
    else s

/-! ### Reads -/

/-- The low word of a value of two registers that a read shows (R50): the writable ones and the read-only pairs. TB_SEC_LO and TB_SEC_HI are latched by a read of TB_NS instead (R375). -/
def wideRead (pg : Page) (off : Nat) : Bool :=
  wideLow pg off ||
  (match pg.code with
    | 1 => off == 0x048
    | 2 => off == 0x048 || off == 0x058
    | 8 => off == 0x04C || off == 0x0C0
    | 10 => off == 0x0A8
    | 19 => decide (0x400 ≤ off) && decide (off < 0x5C0) && (off % 8 == 0 || decide (0x540 ≤ off))
    | _ => false)

/-- The words that a read of a low word latches: the high word that follows it; for the RECORD of a pulse channel also WRAPS, and for its COUNT only WRAPS, the high word of the edge count (R50, R228, R239). -/
def wideHighs (pg : Page) (off : Nat) : List Nat :=
  if pg.code = 19 ∧ 0x540 ≤ off then
    let wraps := 0x5C0 + 4 * ((off - 0x540) / 8)
    if off % 8 = 0 then [off + 4, wraps] else [wraps]
  else [off + 4]

/-- A word as a requester reads it: the word latched for it, once, or the live one (R50, R375). -/
def State.readWord (s : State) (r : Requester) (pg : Page) (off : Nat) : State :=
  match (s.px pg).latched.find? (fun l => l.req == ownerCode r && l.off == off) with
  | some l => (s.setPx pg { s.px pg with latched := (s.px pg).latched.filter (fun l => !(l.req == ownerCode r && l.off == off)) }).reply r l.val.toNat
  | none => s.reply r (s.view pg off)

/-- A read of a low word latches the high word for the requester and answers the low word (R50). A low word that is itself latched, a COUNT, answers beside the high word latched with it. -/
def State.readLow (s : State) (r : Requester) (pg : Page) (off : Nat) : State :=
  if (s.px pg).latched.any (fun l => l.req == ownerCode r && l.off == off) then s.readWord r pg off
  else ((wideHighs pg off).foldl (fun (s : State) (k : Nat) => s.latchWord r pg k (s.view pg k)) s).readWord r pg off

/-- A read of a word of the two SRAMs, least significant byte first; reads are open to every requester (R6, R21, R69, R76). Solver SRAM above SOLVER_CAP is reserved (R107). A word that holds an uncorrectable error or is poisoned gives its reader an error, and a datum that the spec leaves open (R542, assumption 110). -/
def State.sramRead (s : State) (r : Requester) (a : Nat) : State :=
  let word := fun (m : List Host.Cell) => leVal ((sgets 0 m (a / 4 * 4) 4).map (·.toNat))
  if 0x48000000 ≤ a then (if s.islandOn .host then s.reply r (word s.general) else (s.gated a).reply r 0)
  else if !s.islandOn .solve then (s.gated a).reply r 0
  else if s.r DSQ.SOLVER_CAP ≤ a then (s.unmapped a).reply r 0
  else if s.pwr.poison.contains (a / 8 * 8) ∨ s.pwr.bad.contains (0, a / 8 * 8) then
    s.fresh.reply r (Config.free 32 s.freeTick).toNat
  else s.reply r (word s.solver)

/-- R50: a read of the low word of a wide value; a read of any other word answers it. -/
def execWideLowRead (t : Nat) (r : Requester) (addr : BitVec 32) (s : State) : Host.Outcome State Fault Refusal :=
  s.cmdK t fun s =>
    let a := addr.toNat
    let pg := addrPage a
    let off := a % 4096 / 4 * 4
    if !onPage a then (if reservedAddr a then (s.unmapped a).reply r 0 else s.sramRead r a)
    else s.pageRead r pg fun s => if wideRead pg off then s.readLow r pg off else s.readWord r pg off

/-- A read of a page register by a requester, with the effects of the reads that have a row of their own. -/
def State.busRead (s : State) (r : Requester) (pg : Page) (off : Nat) : State :=
  let t := s.now
  let run := fun (o : Host.Outcome State Fault Refusal) => match o with
    | .next s' => s'
    | _ => s
  if pg.code = 8 ∧ off = 0x040 then run (execTbNsRead t r s)
  else if pg.code = 8 ∧ 0x180 ≤ off ∧ off < 0x1C0 ∧ off % 16 = 4 then run (execCapNsRead t r (Fin.ofNat 4 ((off - 0x180) / 16)) s)
  else if pg.code = 8 ∧ 0x180 ≤ off ∧ off < 0x1C0 ∧ off % 16 = 12 then run (execCapSecHiRead t r (Fin.ofNat 4 ((off - 0x180) / 16)) s)
  else if pg.code = 9 ∧ off = 0x040 then run (execRtcSecRead t r s)
  else if pg.code = 9 ∧ off = 0x05C then run (execRtcCentRead t r s)
  else if pg.code = 10 ∧ 0x100 ≤ off ∧ off < 0x304 then run (execWinDataRead t r (Fin.ofNat 129 ((off - 0x100) / 4)) s)
  else s.pageRead r pg fun s => if wideRead pg off then s.readLow r pg off else s.readWord r pg off

/-- R68: the internal address that an offset in a host port's BAR names, which the commands of a host carry: in BAR0 the offset itself, in BAR2 and BAR3 the two SRAMs and above them reserved addresses, so that a reserved offset of a BAR acts as R21 gives. BAR1 is not implemented and reads 0; BAR4 and BAR5 hold the port's own MSI-X table (R371), which has no internal address. -/
def barTarget (bar off : Nat) : Option Nat :=
  if bar = 0 then some off
  else if bar = 2 ∨ bar = 3 then
    some (if off ≤ 0x03FF_FFFF then 0x4000_0000 + off else 0x4800_0000 + (off - 0x0400_0000))
  else none

end Sys2Proof.Machine
end

