-- ==== Sys2Proof/Machine/Operands.lean ====
section
/-! DEFINITION. Operands of the logic engines: legal forms, effective addresses, reads and writes of the areas (R247 to R251, R256, R257). -/

namespace Sys2Proof.Machine

/-! ### Legal forms (R253, R275) -/

/-- The instruction that engine `e` fetches next (R252, R253). -/
def State.fetched (s : State) (e : Fin 4) : Option Instr := decodeIns e (sget 0 s.progMem (s.fetchAt e))

/-- The code of an addressing mode (R250). -/
def amCode : AM → Nat
  | .dir => 0
  | .idx => 1
  | .ind => 2
  | .imm => 3

/-- The instruction word of an opcode, a mode and an operand (R253). -/
def insWord (op : Nat) (am : AM) (a : BitVec 22) : Nat := op * 2 ^ 24 + amCode am * 2 ^ 22 + a.toNat

/-- The form passes the OPCODE and OPERAND checks of a load (R275): no engine runs any other. -/
def formOk (op : Nat) (am : AM) (a : BitVec 22) : Bool := opcodeOk (insWord op am a) && operandOk (insWord op am a)

/-- An instruction begins: a read that the engine still waits for is abandoned (R256). -/
def State.begin (s : State) (e : Nat) : State := s.setEng e { s.eng e with wait := none }

/-- An instruction of a form that a load accepts. The engines stand still while the LOGIC island is gated or held in reset (R13). -/
def State.ins (s : State) (op : Nat) (e : Fin 4) (am : AM) (a : BitVec 22) (f : State → State) :
    Host.Outcome State Fault Refusal :=
  if formOk op am a then s.answerK fun s => s.inside .logic fun s => f (s.begin e) else .refused .loadCheck

/-- An instruction without an operand address. -/
def State.plain (s : State) (e : Fin 4) (f : State → State) : Host.Outcome State Fault Refusal :=
  s.answerK fun s => s.inside .logic fun s => f (s.begin e)

/-- The running bank changes and the program counter advances. -/
def State.fin (s : State) (e : Nat) (f : Bank → Bank) : State :=
  s.setBank e { f (s.bank e) with pc := (s.bank e).pc + 1 }

/-! ### Effective addresses (R250, R251) -/

/-- The area and the number that an operand address names (R248). -/
def areaIdx (a : Nat) : Nat × Nat := (bitsAt a 18 4, a % 2 ^ 18)

/-- A computed or direct address that the class may reach: PG in IDX mode only, A2 in DIR mode only (R249, R251). -/
def reachable (c : OpClass) (am : AM) (p : Nat × Nat) : Bool :=
  if p.1 = 11 then am == .idx && (c == .word || c == .wordWrite) && decide (p.2 < areaWords 11)
  else if p.1 = 15 then am == .dir && dirOk c p.1 p.2
  else dirOk c p.1 p.2

/-- A word of the data or retentive memory as a program reads it: a word with an uncorrectable error stands at 0 and sets STATUS.MEM_ERR, and forces apply (R282, R295). -/
def State.dataRead (s : State) (e area w : Nat) : State × Word :=
  if s.pwr.bad.contains (area, w) then
    let s := s.setBank e { s.bank e with status := (s.bank e).status ||| 16#5 }
    (s.raise 21 e 5 (s.engPay e 0), s.forceWord area w 0)
  else (s, s.forceWord area w (if area = 5 then s.rword w else s.dword w))

/-- The address that an operand of a class names, none for an address error (R250, R251). -/
def State.operand (s : State) (e : Nat) (c : OpClass) (am : AM) (a : BitVec 22) : State × Option (Nat × Nat) :=
  let p := areaIdx a.toNat
  let checked := fun (q : Nat × Nat) => if reachable c am q then some q else none
  match am with
  | .dir => (s, checked p)
  | .idx => (s, checked (p.1, p.2 + (s.bank e).acc2.toNat))
  | .ind =>
    let (s, w) := s.dataRead e p.1 p.2
    (s, checked (areaIdx (w.toNat % 2 ^ 22)))
  | .imm => (s, none)

/-- The areas whose reads leave the LOGIC island: SI, SO and PG (R256). -/
def remote (area : Nat) : Bool := area == 8 || area == 9 || area == 11

/-! ### System words (R257) -/

/-- A system word as the running task reads it; a read of TB_SEC latches TB_NS. -/
def State.sysRead (s : State) (e i : Nat) : State × Word :=
  let b := s.bank e
  let task := b.task.getD 0
  let kind := match b.task with
    | some k => (s.task e k).kind.code
    | none => 0
  let n := fun (v : Nat) => BitVec.ofNat 32 v
  match i with
  | 0 => (s, b.claim)
  | 1 => (s, n (task % 64 + 2 ^ 8 * (b.prio % 16) + 2 ^ 12 * kind))
  | 2 => (s, n b.startInfo)
  | 3 => (s, n b.status.toNat)
  | 4 => (s, n (s.ct / 1000))
  | 5 => (s, n (s.ct / 1000 / 2 ^ 32))
  | 6 => (s.setBank e { b with nsLatch := some (n (s.now % 1000000000)) }, n (s.now / 1000000000))
  | 7 => (s, b.nsLatch.getD (n (s.now % 1000000000)))
  | 8 => (s, n b.relNs)
  | 9 => (s, n (s.r LGE.CYCLE_LAST_US (s.home e)))
  | 10 => (s, n (e + 16 * s.home e))
  | _ => (s, 0)

/-! ### Reads of the areas (R249) -/

/-- A read that leaves the island: a gated target answers 0 (R18). -/
def State.remoteRead (s : State) (e area idx : Nat) : State × Word :=
  if area = 11 then
    let a := 0x04000000 + 4 * idx
    let r := Requester.engine (Fin.ofNat 4 e)
    if onPage a then
      let s := s.busRead r (addrPage a) (a % 4096)
      (s, sget 0 s.resp (ownerCode r))
    else (s.unmapped a, 0)
  else if !s.islandOn .net then (s.gated (pageAddr ⟨22, 0⟩), 0)
  else (s, s.forceWord area idx (BitVec.ofNat 32 (if area = 8 then (s.siWord idx).toNat else (s.soWord idx).toNat)))

/-- A word operand as a program reads it. -/
def State.readAt (s : State) (e : Nat) (p : Nat × Nat) : State × Word :=
  let (area, i) := p
  let half := fun (v : Nat) => BitVec.ofNat 32 (bitsAt v (32 * i) 32)
  match area with
  | 0 => (s, s.forceWord 0 i (half (s.eng e).iImg.toNat))
  | 1 => (s, s.forceWord 1 i (half (s.eng e).qImg.toNat))
  | 2 => (s, s.forceWord 2 i (half (s.pins64 GIO.PIN_IN)))
  | 3 => (s, s.forceWord 3 i (BitVec.ofNat 32 (s.pinOut i)))
  | 4 => s.dataRead e 4 i
  | 5 => s.dataRead e 5 i
  | 6 => s.dataRead e 4 (timerWord i 2)
  | 7 => s.dataRead e 4 (counterWord i 0)
  | 10 => s.sysRead e i
  | 15 => (s, (s.bank e).acc2)
  | _ => s.remoteRead e area i

/-- A bit operand as a program reads it: Q of a timer, COUNT ≥ PRESET of a counter, else a bit of a word (R248, R249). -/
def State.readBitAt (s : State) (e : Nat) (p : Nat × Nat) : State × Bool :=
  if p.1 = 6 then
    let (s, w) := s.dataRead e 4 (timerWord p.2 0)
    (s, w.getLsbD 10)
  else if p.1 = 7 then
    let (s, n) := s.dataRead e 4 (counterWord p.2 0)
    let (s, q) := s.dataRead e 4 (counterWord p.2 1)
    (s, decide (q.toInt ≤ n.toInt))
  else
    let (s, w) := s.readAt e (p.1, p.2 / 32)
    (s, w.getLsbD (p.2 % 32))

/-! ### Writes of the areas (R247, R249, R257) -/

/-- The output pins that an engine other than `h` owns: a write of one is discarded and counted (R290). -/
def State.foreignPins (s : State) (h : Nat) : Nat :=
  (List.range 64).foldl (fun v n => if s.on GIO.DIR 0 n && s.r GIO.OWNER 0 n != h then v + 2 ^ n else v) 0

/-- Some of the pins of `mask` are another engine's outputs. -/
def State.foreign (s : State) (h mask : Nat) : Bool := mask &&& s.foreignPins h != 0

/-- The bits of `mask` in the output image take those of `v`, but for the outputs of other engines (R290). -/
def State.imageWrite (s : State) (e mask v : Nat) : State :=
  let h := s.home e
  let own := BitVec.ofNat 64 mask &&& ~~~ (BitVec.ofNat 64 (s.foreignPins h))
  let bad := s.foreign h mask
  let x := s.eng e
  let s := s.setEng e { x with qImg := (x.qImg &&& ~~~ own) ||| (BitVec.ofNat 64 v &&& own) }
  if bad then s.winErr e else s

/-- A write of output pins at once. -/
def State.pinWrite (s : State) (e mask v : Nat) : State :=
  let h := s.home e
  let bad := s.foreign h mask
  let s := s.drive h mask v
  if bad then s.winErr e else s

/-- A word operand that a program writes (R247). -/
def State.writeAt (s : State) (e : Nat) (p : Nat × Nat) (v : Word) : State :=
  let (area, i) := p
  let h := s.home e
  let lo := 2 ^ (32 * i)
  match area with
  | 1 => s.imageWrite e ((2 ^ 32 - 1) * lo) (v.toNat * lo)
  | 3 => s.pinWrite e ((2 ^ 32 - 1) * lo) (v.toNat * lo)
  | 4 => if inWin (s.windows h).d i && !deviceWord i then s.setDword i v else s.winErr e
  | 5 =>
    if inWin (s.windows h).r i then
      let s := s.setRword i v
      s.setBank e { s.bank e with wroteR := true }
    else s.winErr e
  | 9 => if s.islandOn .net then s.setSo i v else s.gated (pageAddr ⟨22, 0⟩)
  | 10 =>
    if i = 3 then s.setBank e { s.bank e with status := (s.bank e).status &&& v.setWidth 5 } else s.addrErr e
  | 11 => s.busWrite (.engine (Fin.ofNat 4 e)) (0x04000000 + 4 * i) 0xF#4 v
  | _ => s.addrErr e

/-- A bit operand that a program writes: a change of one bit of the underlying word. -/
def State.writeBitAt (s : State) (e : Nat) (p : Nat × Nat) (b : Bool) : State :=
  let w := p.2 / 32
  let put := fun (v : Word) => BitVec.ofNat 32 (putBit v.toNat (p.2 % 32) b)
  match p.1 with
  | 1 => s.imageWrite e (2 ^ p.2) (if b then 2 ^ p.2 else 0)
  | 3 => s.pinWrite e (2 ^ p.2) (if b then 2 ^ p.2 else 0)
  | 4 => s.writeAt e (4, w) (put (s.dword w))
  | 5 => s.writeAt e (5, w) (put (s.rword w))
  | _ => s.addrErr e

/-! ### Instructions that read (R256) -/

/-- A word operand is read and the bank changes; a read that leaves the island waits for its response. `got` is the address whose response has come. -/
def State.wordIns (s : State) (e : Nat) (i : Instr) (am : AM) (a : BitVec 22) (got : Option (Nat × Nat))
    (f : Bank → Word → Bank) : State :=
  match got with
  | some p =>
    let (s, w) := s.remoteRead e p.1 p.2
    s.fin e fun b => f b w
  | none =>
    if am = .imm then s.fin e fun b => f b (a.signExtend 32)
    else
      let (s, o) := s.operand e .word am a
      match o with
      | none => (s.addrErr e).fin e fun b => f b 0
      | some p =>
        if remote p.1 then s.setEng e { s.eng e with wait := some (i, p) }
        else
          let (s, w) := s.readAt e p
          s.fin e fun b => f b w

/-- A bit operand is read and the bank changes; a bit of SI waits for its response. -/
def State.bitIns (s : State) (e : Nat) (i : Instr) (am : AM) (a : BitVec 22) (got : Option (Nat × Nat))
    (f : Bank → Bool → Bank) : State :=
  match got with
  | some p =>
    let (s, w) := s.remoteRead e p.1 (p.2 / 32)
    s.fin e fun b => f b (w.getLsbD (p.2 % 32))
  | none =>
    let (s, o) := s.operand e .bitRead am a
    match o with
    | none => (s.addrErr e).fin e fun b => f b false
    | some p =>
      if remote p.1 then s.setEng e { s.eng e with wait := some (i, p) }
      else
        let (s, v) := s.readBitAt e p
        s.fin e fun b => f b v

/-- A bit operand of class `c` is written from what it holds: `g` gives the bit to write, none for no write, and `f` the new bank. A discarded read gives 0 (R251). -/
def State.bitStore (s : State) (e : Nat) (c : OpClass) (am : AM) (a : BitVec 22)
    (g : Bank → Bool → Option Bool) (f : Bank → Bool → Bank) : State :=
  let (s, o) := s.operand e c am a
  match o with
  | none => (s.addrErr e).fin e fun b => f b false
  | some p =>
    let (s, v) := s.readBitAt e p
    let b := s.bank e
    let s := match g b v with
      | some x => s.writeBitAt e p x
      | none => s
    s.fin e fun b' => { f b v with status := b'.status, wroteR := b'.wroteR }

end Sys2Proof.Machine
end

