-- ==== Sys2Proof/Machine/LogicBit.lean ====
section
/-! DEFINITION. Bit instructions of the logic engines (R253, R254). -/

namespace Sys2Proof.Machine

/-- NOP (R253). -/
def execNop (e : Fin 4) (s : State) : Host.Outcome State Fault Refusal := s.plain e fun s => s.fin e id

/-! ### Loads and gates -/

/-- LD: BA := b. -/
def State.opLd (s : State) (e : Fin 4) (am : AM) (a : BitVec 22) (got : Option (Nat × Nat)) : State :=
  s.bitIns e (.ld e am a) am a got fun b v => { b with ba := v }

/-- LDN: BA := ¬b. -/
def State.opLdn (s : State) (e : Fin 4) (am : AM) (a : BitVec 22) (got : Option (Nat × Nat)) : State :=
  s.bitIns e (.ldn e am a) am a got fun b v => { b with ba := !v }

/-- AND: BA := BA ∧ b. -/
def State.opAnd (s : State) (e : Fin 4) (am : AM) (a : BitVec 22) (got : Option (Nat × Nat)) : State :=
  s.bitIns e (.and_ e am a) am a got fun b v => { b with ba := b.ba && v }

/-- ANDN: BA := BA ∧ ¬b. -/
def State.opAndn (s : State) (e : Fin 4) (am : AM) (a : BitVec 22) (got : Option (Nat × Nat)) : State :=
  s.bitIns e (.andn e am a) am a got fun b v => { b with ba := b.ba && !v }

/-- OR: BA := BA ∨ b. -/
def State.opOr (s : State) (e : Fin 4) (am : AM) (a : BitVec 22) (got : Option (Nat × Nat)) : State :=
  s.bitIns e (.or_ e am a) am a got fun b v => { b with ba := b.ba || v }

/-- ORN: BA := BA ∨ ¬b. -/
def State.opOrn (s : State) (e : Fin 4) (am : AM) (a : BitVec 22) (got : Option (Nat × Nat)) : State :=
  s.bitIns e (.orn e am a) am a got fun b v => { b with ba := b.ba || !v }

/-- XOR: BA := BA ⊕ b. -/
def State.opXor (s : State) (e : Fin 4) (am : AM) (a : BitVec 22) (got : Option (Nat × Nat)) : State :=
  s.bitIns e (.xor_ e am a) am a got fun b v => { b with ba := b.ba != v }

/-- XORN: BA := BA ⊕ ¬b. -/
def State.opXorn (s : State) (e : Fin 4) (am : AM) (a : BitVec 22) (got : Option (Nat × Nat)) : State :=
  s.bitIns e (.xorn e am a) am a got fun b v => { b with ba := b.ba != !v }

/-- R253: LD. -/
def execLd (e : Fin 4) (am : AM) (a : BitVec 22) (s : State) : Host.Outcome State Fault Refusal :=
  s.ins 0x01 e am a fun s => s.opLd e am a none

/-- R253: LDN. -/
def execLdn (e : Fin 4) (am : AM) (a : BitVec 22) (s : State) : Host.Outcome State Fault Refusal :=
  s.ins 0x02 e am a fun s => s.opLdn e am a none

/-- R253: AND. -/
def execAnd (e : Fin 4) (am : AM) (a : BitVec 22) (s : State) : Host.Outcome State Fault Refusal :=
  s.ins 0x03 e am a fun s => s.opAnd e am a none

/-- R253: ANDN. -/
def execAndn (e : Fin 4) (am : AM) (a : BitVec 22) (s : State) : Host.Outcome State Fault Refusal :=
  s.ins 0x04 e am a fun s => s.opAndn e am a none

/-- R253: OR. -/
def execOr (e : Fin 4) (am : AM) (a : BitVec 22) (s : State) : Host.Outcome State Fault Refusal :=
  s.ins 0x05 e am a fun s => s.opOr e am a none

/-- R253: ORN. -/
def execOrn (e : Fin 4) (am : AM) (a : BitVec 22) (s : State) : Host.Outcome State Fault Refusal :=
  s.ins 0x06 e am a fun s => s.opOrn e am a none

/-- R253: XOR. -/
def execXor (e : Fin 4) (am : AM) (a : BitVec 22) (s : State) : Host.Outcome State Fault Refusal :=
  s.ins 0x07 e am a fun s => s.opXor e am a none

/-- R253: XORN. -/
def execXorn (e : Fin 4) (am : AM) (a : BitVec 22) (s : State) : Host.Outcome State Fault Refusal :=
  s.ins 0x08 e am a fun s => s.opXorn e am a none

/-! ### Stores, edges, test and set -/

/-- R253: ST: b := BA. -/
def execSt (e : Fin 4) (am : AM) (a : BitVec 22) (s : State) : Host.Outcome State Fault Refusal :=
  s.ins 0x09 e am a fun s => s.bitStore e .bitWrite am a (fun b _ => some b.ba) (fun b _ => b)

/-- R253: STN: b := ¬BA. -/
def execStn (e : Fin 4) (am : AM) (a : BitVec 22) (s : State) : Host.Outcome State Fault Refusal :=
  s.ins 0x0A e am a fun s => s.bitStore e .bitWrite am a (fun b _ => some (!b.ba)) (fun b _ => b)

/-- R253: S: if BA, b := 1. -/
def execS (e : Fin 4) (am : AM) (a : BitVec 22) (s : State) : Host.Outcome State Fault Refusal :=
  s.ins 0x0B e am a fun s => 
    if (s.bank e).ba then s.bitStore e .bitWrite am a (fun _ _ => some true) (fun b _ => b) else s.fin e id

/-- R253: R: if BA, b := 0. -/
def execInstrR (e : Fin 4) (am : AM) (a : BitVec 22) (s : State) : Host.Outcome State Fault Refusal :=
  s.ins 0x0C e am a fun s => 
    if (s.bank e).ba then s.bitStore e .bitWrite am a (fun _ _ => some false) (fun b _ => b) else s.fin e id

/-- R253: FP, a rising edge against the edge memory b. -/
def execFp (e : Fin 4) (am : AM) (a : BitVec 22) (s : State) : Host.Outcome State Fault Refusal :=
  s.ins 0x0D e am a fun s => s.bitStore e .bitWrite am a (fun b _ => some b.ba) (fun b v => { b with ba := b.ba && !v })

/-- R253: FN, a falling edge against the edge memory b. -/
def execFn (e : Fin 4) (am : AM) (a : BitVec 22) (s : State) : Host.Outcome State Fault Refusal :=
  s.ins 0x0E e am a fun s => s.bitStore e .bitWrite am a (fun b _ => some b.ba) (fun b v => { b with ba := !b.ba && v })

/-- R253: TAS: BA := b and b := 1, in areas D and R. -/
def execTas (e : Fin 4) (am : AM) (a : BitVec 22) (s : State) : Host.Outcome State Fault Refusal :=
  s.ins 0x0F e am a fun s => s.bitStore e .tas am a (fun _ _ => some true) (fun b v => { b with ba := v })

/-! ### Brackets (R254) -/

/-- An opening bracket; a 17th entry is what a load refuses. -/
def State.openBr (s : State) (e : Fin 4) (op : BrOp) : Host.Outcome State Fault Refusal :=
  if (s.bank e).branch.length < 16 then
    s.plain e fun s => s.fin e fun b => { b with branch := (b.ba, op) :: b.branch }
  else .refused .loadCheck

/-- What a closing bracket makes of the pushed value and the bracket's result. -/
def brResult (op : BrOp) (v ba : Bool) : Bool :=
  match op with
  | .and => v && ba
  | .andNot => v && !ba
  | .or => v || ba
  | .orNot => v || !ba
  | .xor => v != ba

/-- R253: A(. -/
def execAParen (e : Fin 4) (s : State) : Host.Outcome State Fault Refusal := s.openBr e .and

/-- R253: AN(. -/
def execAnParen (e : Fin 4) (s : State) : Host.Outcome State Fault Refusal := s.openBr e .andNot

/-- R253: O(. -/
def execOParen (e : Fin 4) (s : State) : Host.Outcome State Fault Refusal := s.openBr e .or

/-- R253: ON(. -/
def execOnParen (e : Fin 4) (s : State) : Host.Outcome State Fault Refusal := s.openBr e .orNot

/-- R253: X(. -/
def execXParen (e : Fin 4) (s : State) : Host.Outcome State Fault Refusal := s.openBr e .xor

/-- R253: ). A closing bracket with nothing pushed is what a load refuses. -/
def execCloseParen (e : Fin 4) (s : State) : Host.Outcome State Fault Refusal :=
  match (s.bank e).branch with
  | [] => .refused .loadCheck
  | (v, op) :: rest => s.plain e fun s => s.fin e fun b => { b with ba := brResult op v b.ba, branch := rest }

/-- R253: NOT. -/
def execNot (e : Fin 4) (s : State) : Host.Outcome State Fault Refusal :=
  s.plain e fun s => s.fin e fun b => { b with ba := !b.ba }

/-- R253: SETB. -/
def execSetb (e : Fin 4) (s : State) : Host.Outcome State Fault Refusal :=
  s.plain e fun s => s.fin e fun b => { b with ba := true }

/-- R253: CLRB. -/
def execClrb (e : Fin 4) (s : State) : Host.Outcome State Fault Refusal :=
  s.plain e fun s => s.fin e fun b => { b with ba := false }

end Sys2Proof.Machine
end

