-- ==== Sys2Proof/Machine/LogicWord.lean ====
section
/-! DEFINITION. Word instructions of the logic engines (R253, R255). -/

namespace Sys2Proof.Machine

/-! ### Results and flags (R255) -/

/-- ACC1 takes the nearest bound of an exact result; an overflow sets STATUS.OV. -/
def Bank.arith (b : Bank) (x : Int) : Bank :=
  { b with acc1 := BitVec.ofInt 32 (sat 32 x), status := if overflows 32 x then b.status ||| 1#5 else b.status }

/-- ACC1 takes the result of a division by zero: the bound with the sign of ACC1; STATUS.DZ is set. -/
def Bank.byZero (b : Bank) : Bank :=
  { b with acc1 := if b.acc1.toInt < 0 then 0x80000000#32 else 0x7FFFFFFF#32, status := b.status ||| 2#5 }

/-- DIV: the quotient toward zero. The spec states no quotient for −2^31 by −1, which is the open value `v`. -/
def Bank.quot (b : Bank) (w v : Word) : Bank :=
  if w = 0 then b.byZero
  else if b.acc1 = 0x80000000#32 ∧ w = 0xFFFFFFFF#32 then { b with acc1 := v }
  else { b with acc1 := BitVec.ofInt 32 (b.acc1.toInt.tdiv w.toInt) }

/-- MOD: the remainder with the sign of ACC1; 0 and STATUS.DZ for a zero divisor. -/
def Bank.remd (b : Bank) (w : Word) : Bank :=
  if w = 0 then { b with acc1 := 0, status := b.status ||| 2#5 }
  else { b with acc1 := BitVec.ofInt 32 (b.acc1.toInt.tmod w.toInt) }

/-- DIVQ: the Q15.16 quotient, rounded and saturated as R118. -/
def Bank.quotQ (b : Bank) (w : Word) : Bank :=
  if w = 0 then b.byZero else { b with acc1 := BitVec.ofInt 32 (sat 32 (divRound (b.acc1.toInt * 2 ^ 16) w.toInt)) }

/-! ### The operations on a word operand -/

/-- L: ACC2 := ACC1; ACC1 := w. -/
def State.opL (s : State) (e : Fin 4) (am : AM) (a : BitVec 22) (got : Option (Nat × Nat)) : State :=
  s.wordIns e (.l e am a) am a got fun b w => { b with acc2 := b.acc1, acc1 := w }

/-- ADD: ACC1 + w, saturating. -/
def State.opAdd (s : State) (e : Fin 4) (am : AM) (a : BitVec 22) (got : Option (Nat × Nat)) : State :=
  s.wordIns e (.add e am a) am a got fun b w => b.arith (b.acc1.toInt + w.toInt)

/-- SUB: ACC1 − w, saturating. -/
def State.opSub (s : State) (e : Fin 4) (am : AM) (a : BitVec 22) (got : Option (Nat × Nat)) : State :=
  s.wordIns e (.sub e am a) am a got fun b w => b.arith (b.acc1.toInt - w.toInt)

/-- MUL: ACC1 × w, saturating. -/
def State.opMul (s : State) (e : Fin 4) (am : AM) (a : BitVec 22) (got : Option (Nat × Nat)) : State :=
  s.wordIns e (.mul e am a) am a got fun b w => b.arith (b.acc1.toInt * w.toInt)

/-- DIV: quotient toward zero. -/
def State.opDiv (s : State) (e : Fin 4) (am : AM) (a : BitVec 22) (got : Option (Nat × Nat)) : State :=
  let v := Config.free 32 s.freeTick
  (s.wordIns e (.div e am a) am a got fun b w => b.quot w v).fresh

/-- MOD: remainder with the sign of ACC1. -/
def State.opMod (s : State) (e : Fin 4) (am : AM) (a : BitVec 22) (got : Option (Nat × Nat)) : State :=
  s.wordIns e (.mod_ e am a) am a got fun b w => b.remd w

/-- MULQ: Q15.16 product, saturating. -/
def State.opMulq (s : State) (e : Fin 4) (am : AM) (a : BitVec 22) (got : Option (Nat × Nat)) : State :=
  s.wordIns e (.mulq e am a) am a got fun b w => b.arith (roundShift (b.acc1.toInt * w.toInt) 16)

/-- DIVQ: Q15.16 quotient. -/
def State.opDivq (s : State) (e : Fin 4) (am : AM) (a : BitVec 22) (got : Option (Nat × Nat)) : State :=
  s.wordIns e (.divq e am a) am a got fun b w => b.quotQ w

/-- ANDW: bitwise AND. -/
def State.opAndw (s : State) (e : Fin 4) (am : AM) (a : BitVec 22) (got : Option (Nat × Nat)) : State :=
  s.wordIns e (.andw e am a) am a got fun b w => { b with acc1 := b.acc1 &&& w }

/-- ORW: bitwise OR. -/
def State.opOrw (s : State) (e : Fin 4) (am : AM) (a : BitVec 22) (got : Option (Nat × Nat)) : State :=
  s.wordIns e (.orw e am a) am a got fun b w => { b with acc1 := b.acc1 ||| w }

/-- XORW: bitwise XOR. -/
def State.opXorw (s : State) (e : Fin 4) (am : AM) (a : BitVec 22) (got : Option (Nat × Nat)) : State :=
  s.wordIns e (.xorw e am a) am a got fun b w => { b with acc1 := b.acc1 ^^^ w }

/-- SHL: shift left by w[4:0]. -/
def State.opShl (s : State) (e : Fin 4) (am : AM) (a : BitVec 22) (got : Option (Nat × Nat)) : State :=
  s.wordIns e (.shl e am a) am a got fun b w => { b with acc1 := b.acc1 <<< (w.toNat % 32) }

/-- SHR: logical shift right by w[4:0]. -/
def State.opShr (s : State) (e : Fin 4) (am : AM) (a : BitVec 22) (got : Option (Nat × Nat)) : State :=
  s.wordIns e (.shr e am a) am a got fun b w => { b with acc1 := b.acc1 >>> (w.toNat % 32) }

/-- ASR: arithmetic shift right by w[4:0]. -/
def State.opAsr (s : State) (e : Fin 4) (am : AM) (a : BitVec 22) (got : Option (Nat × Nat)) : State :=
  s.wordIns e (.asr e am a) am a got fun b w => { b with acc1 := b.acc1.sshiftRight (w.toNat % 32) }

/-- MIN: signed minimum. -/
def State.opMin (s : State) (e : Fin 4) (am : AM) (a : BitVec 22) (got : Option (Nat × Nat)) : State :=
  s.wordIns e (.min_ e am a) am a got fun b w => { b with acc1 := if b.acc1.toInt ≤ w.toInt then b.acc1 else w }

/-- MAX: signed maximum. -/
def State.opMax (s : State) (e : Fin 4) (am : AM) (a : BitVec 22) (got : Option (Nat × Nat)) : State :=
  s.wordIns e (.max_ e am a) am a got fun b w => { b with acc1 := if w.toInt ≤ b.acc1.toInt then b.acc1 else w }

/-- CEQ: BA := ACC1 = w. -/
def State.opCeq (s : State) (e : Fin 4) (am : AM) (a : BitVec 22) (got : Option (Nat × Nat)) : State :=
  s.wordIns e (.ceq e am a) am a got fun b w => { b with ba := b.acc1 == w }

/-- CNE: BA := ACC1 ≠ w. -/
def State.opCne (s : State) (e : Fin 4) (am : AM) (a : BitVec 22) (got : Option (Nat × Nat)) : State :=
  s.wordIns e (.cne e am a) am a got fun b w => { b with ba := b.acc1 != w }

/-- CGT: BA := ACC1 > w, signed. -/
def State.opCgt (s : State) (e : Fin 4) (am : AM) (a : BitVec 22) (got : Option (Nat × Nat)) : State :=
  s.wordIns e (.cgt e am a) am a got fun b w => { b with ba := decide (w.toInt < b.acc1.toInt) }

/-- CGE: BA := ACC1 ≥ w, signed. -/
def State.opCge (s : State) (e : Fin 4) (am : AM) (a : BitVec 22) (got : Option (Nat × Nat)) : State :=
  s.wordIns e (.cge e am a) am a got fun b w => { b with ba := decide (w.toInt ≤ b.acc1.toInt) }

/-- CLT: BA := ACC1 < w, signed. -/
def State.opClt (s : State) (e : Fin 4) (am : AM) (a : BitVec 22) (got : Option (Nat × Nat)) : State :=
  s.wordIns e (.clt e am a) am a got fun b w => { b with ba := decide (b.acc1.toInt < w.toInt) }

/-- CLE: BA := ACC1 ≤ w, signed. -/
def State.opCle (s : State) (e : Fin 4) (am : AM) (a : BitVec 22) (got : Option (Nat × Nat)) : State :=
  s.wordIns e (.cle e am a) am a got fun b w => { b with ba := decide (b.acc1.toInt ≤ w.toInt) }

/-! ### The instructions -/

/-- R253: L: ACC2 := ACC1; ACC1 := w. -/
def execL (e : Fin 4) (am : AM) (a : BitVec 22) (s : State) : Host.Outcome State Fault Refusal :=
  s.ins 0x30 e am a fun s => s.opL e am a none

/-- R253: ADD: ACC1 + w, saturating. -/
def execAdd (e : Fin 4) (am : AM) (a : BitVec 22) (s : State) : Host.Outcome State Fault Refusal :=
  s.ins 0x34 e am a fun s => s.opAdd e am a none

/-- R253: SUB: ACC1 − w, saturating. -/
def execSub (e : Fin 4) (am : AM) (a : BitVec 22) (s : State) : Host.Outcome State Fault Refusal :=
  s.ins 0x35 e am a fun s => s.opSub e am a none

/-- R253: MUL: ACC1 × w, saturating. -/
def execMul (e : Fin 4) (am : AM) (a : BitVec 22) (s : State) : Host.Outcome State Fault Refusal :=
  s.ins 0x36 e am a fun s => s.opMul e am a none

/-- R253: DIV: quotient toward zero. -/
def execDiv (e : Fin 4) (am : AM) (a : BitVec 22) (s : State) : Host.Outcome State Fault Refusal :=
  s.ins 0x37 e am a fun s => s.opDiv e am a none

/-- R253: MOD: remainder with the sign of ACC1. -/
def execMod (e : Fin 4) (am : AM) (a : BitVec 22) (s : State) : Host.Outcome State Fault Refusal :=
  s.ins 0x38 e am a fun s => s.opMod e am a none

/-- R253: MULQ: Q15.16 product, saturating. -/
def execMulq (e : Fin 4) (am : AM) (a : BitVec 22) (s : State) : Host.Outcome State Fault Refusal :=
  s.ins 0x39 e am a fun s => s.opMulq e am a none

/-- R253: DIVQ: Q15.16 quotient. -/
def execDivq (e : Fin 4) (am : AM) (a : BitVec 22) (s : State) : Host.Outcome State Fault Refusal :=
  s.ins 0x3A e am a fun s => s.opDivq e am a none

/-- R253: ANDW: bitwise AND. -/
def execAndw (e : Fin 4) (am : AM) (a : BitVec 22) (s : State) : Host.Outcome State Fault Refusal :=
  s.ins 0x3B e am a fun s => s.opAndw e am a none

/-- R253: ORW: bitwise OR. -/
def execOrw (e : Fin 4) (am : AM) (a : BitVec 22) (s : State) : Host.Outcome State Fault Refusal :=
  s.ins 0x3C e am a fun s => s.opOrw e am a none

/-- R253: XORW: bitwise XOR. -/
def execXorw (e : Fin 4) (am : AM) (a : BitVec 22) (s : State) : Host.Outcome State Fault Refusal :=
  s.ins 0x3D e am a fun s => s.opXorw e am a none

/-- R253: SHL: shift left by w[4:0]. -/
def execShl (e : Fin 4) (am : AM) (a : BitVec 22) (s : State) : Host.Outcome State Fault Refusal :=
  s.ins 0x3E e am a fun s => s.opShl e am a none

/-- R253: SHR: logical shift right by w[4:0]. -/
def execShr (e : Fin 4) (am : AM) (a : BitVec 22) (s : State) : Host.Outcome State Fault Refusal :=
  s.ins 0x3F e am a fun s => s.opShr e am a none

/-- R253: ASR: arithmetic shift right by w[4:0]. -/
def execAsr (e : Fin 4) (am : AM) (a : BitVec 22) (s : State) : Host.Outcome State Fault Refusal :=
  s.ins 0x40 e am a fun s => s.opAsr e am a none

/-- R253: MIN: signed minimum. -/
def execMin (e : Fin 4) (am : AM) (a : BitVec 22) (s : State) : Host.Outcome State Fault Refusal :=
  s.ins 0x41 e am a fun s => s.opMin e am a none

/-- R253: MAX: signed maximum. -/
def execMax (e : Fin 4) (am : AM) (a : BitVec 22) (s : State) : Host.Outcome State Fault Refusal :=
  s.ins 0x42 e am a fun s => s.opMax e am a none

/-- R253: CEQ: BA := ACC1 = w. -/
def execCeq (e : Fin 4) (am : AM) (a : BitVec 22) (s : State) : Host.Outcome State Fault Refusal :=
  s.ins 0x48 e am a fun s => s.opCeq e am a none

/-- R253: CNE: BA := ACC1 ≠ w. -/
def execCne (e : Fin 4) (am : AM) (a : BitVec 22) (s : State) : Host.Outcome State Fault Refusal :=
  s.ins 0x49 e am a fun s => s.opCne e am a none

/-- R253: CGT: BA := ACC1 > w, signed. -/
def execCgt (e : Fin 4) (am : AM) (a : BitVec 22) (s : State) : Host.Outcome State Fault Refusal :=
  s.ins 0x4A e am a fun s => s.opCgt e am a none

/-- R253: CGE: BA := ACC1 ≥ w, signed. -/
def execCge (e : Fin 4) (am : AM) (a : BitVec 22) (s : State) : Host.Outcome State Fault Refusal :=
  s.ins 0x4B e am a fun s => s.opCge e am a none

/-- R253: CLT: BA := ACC1 < w, signed. -/
def execClt (e : Fin 4) (am : AM) (a : BitVec 22) (s : State) : Host.Outcome State Fault Refusal :=
  s.ins 0x4C e am a fun s => s.opClt e am a none

/-- R253: CLE: BA := ACC1 ≤ w, signed. -/
def execCle (e : Fin 4) (am : AM) (a : BitVec 22) (s : State) : Host.Outcome State Fault Refusal :=
  s.ins 0x4D e am a fun s => s.opCle e am a none

/-- R253: LHI: the upper half of ACC1 takes the constant. -/
def execLhi (e : Fin 4) (k : BitVec 22) (s : State) : Host.Outcome State Fault Refusal :=
  s.plain e fun s => s.fin e fun b => { b with acc1 := BitVec.ofNat 32 (b.acc1.toNat % 2 ^ 16 + k.toNat % 2 ^ 16 * 2 ^ 16) }

/-- R253: T: w := ACC1. The store may reach a page (R249). -/
def execT (e : Fin 4) (am : AM) (a : BitVec 22) (s : State) : Host.Outcome State Fault Refusal :=
  if formOk 0x32 am a then
    s.answer fun s => s.inside .logic fun s =>
      let (s, o) := (s.begin e).operand e .wordWrite am a
      let s := match o with
        | none => s.addrErr e
        | some p => s.writeAt e p (s.bank e).acc1
      s.fin e id
  else .refused .loadCheck

/-- R253: TAK. -/
def execTak (e : Fin 4) (s : State) : Host.Outcome State Fault Refusal :=
  s.plain e fun s => s.fin e fun b => { b with acc1 := b.acc2, acc2 := b.acc1 }

/-- R253: NEG, saturating. -/
def execNeg (e : Fin 4) (s : State) : Host.Outcome State Fault Refusal :=
  s.plain e fun s => s.fin e fun b => b.arith (-b.acc1.toInt)

/-- R253: ABS, saturating. -/
def execAbs (e : Fin 4) (s : State) : Host.Outcome State Fault Refusal :=
  s.plain e fun s => s.fin e fun b => b.arith (b.acc1.toInt.natAbs : Int)

/-- R253: ITQ, saturating. -/
def execItq (e : Fin 4) (s : State) : Host.Outcome State Fault Refusal :=
  s.plain e fun s => s.fin e fun b => b.arith (b.acc1.toInt * 2 ^ 16)

/-- R253: QTI. -/
def execQti (e : Fin 4) (s : State) : Host.Outcome State Fault Refusal :=
  s.plain e fun s => s.fin e fun b => { b with acc1 := BitVec.ofInt 32 (roundShift b.acc1.toInt 16) }

end Sys2Proof.Machine
end

