-- ==== Sys2Proof/Machine/LogicFlow.lean ====
section
/-! DEFINITION. Control flow, block moves and signals of the logic engines, and the response to a remote read (R253, R254, R256, R262). -/

namespace Sys2Proof.Machine

/-! ### Jumps and calls (R253, R254) -/

/-- The target of a jump of the running bank (R253). -/
def State.target (s : State) (e : Nat) (k : BitVec 22) : Int := (s.bank e).pc + 1 + k.toInt

/-- An instruction that may jump: `taken` says whether it does, `f` what it makes of the bank. A target before the code is what a load refuses (R275). -/
def State.jump (s : State) (e : Fin 4) (k : BitVec 22) (f : Bank → Bank) (taken : Bank → Bool) : Host.Outcome State Fault Refusal :=
  if s.target e k < 0 then .refused .loadCheck
  else s.plain e fun s =>
    let b := s.bank e
    s.setBank e { f b with pc := if taken (f b) then (s.target e k).toNat else b.pc + 1 }

/-- R253: JMP. -/
def execJmp (e : Fin 4) (k : BitVec 22) (s : State) : Host.Outcome State Fault Refusal := s.jump e k id fun _ => true

/-- R253: JC jumps if BA = 1. -/
def execJc (e : Fin 4) (k : BitVec 22) (s : State) : Host.Outcome State Fault Refusal := s.jump e k id fun b => b.ba

/-- R253: JCN jumps if BA = 0. -/
def execJcn (e : Fin 4) (k : BitVec 22) (s : State) : Host.Outcome State Fault Refusal := s.jump e k id fun b => !b.ba

/-- R253: LOOP: ACC2 := ACC2 − 1, and a jump if it is not 0. -/
def execLoop (e : Fin 4) (k : BitVec 22) (s : State) : Host.Outcome State Fault Refusal :=
  s.jump e k (fun b => { b with acc2 := b.acc2 - 1 }) fun b => b.acc2 != 0

/-- The activation ends as at END, and counts in CALL_ERRS (R254). -/
def State.callErr (s : State) (e : Nat) : State := (s.progErr e LGE.CALL_ERRS none 3).endTask e

/-- R253, R254: CALL pushes PC + 1; with 8 entries pushed it ends the activation. -/
def execCall (e : Fin 4) (k : BitVec 22) (s : State) : Host.Outcome State Fault Refusal :=
  if 8 ≤ (s.bank e).calls.length then s.plain e fun s => s.callErr e
  else s.jump e k (fun b => { b with calls := (b.pc + 1) :: b.calls }) fun _ => true

/-- R253, R254: RET returns to the last CALL; with none it ends the activation. -/
def execRet (e : Fin 4) (s : State) : Host.Outcome State Fault Refusal :=
  s.plain e fun s =>
    match (s.bank e).calls with
    | [] => s.callErr e
    | pc :: rest => s.setBank e { s.bank e with pc := pc, calls := rest }

/-- R253, R269: END. -/
def execEnd (e : Fin 4) (s : State) : Host.Outcome State Fault Refusal := s.plain e fun s => s.endTask e

/-! ### Block moves and signals -/

/-- A word of a block move reaches its destination, and the move goes on with the next word or ends: `k` words have been moved before it (R251, R253, R256). -/
def State.moveTo (s : State) (e : Nat) (am : AM) (dst : Nat × Nat) (k : Nat) (w : Word) : State :=
  let n := (s.bank e).acc2.toNat % 2 ^ 16
  let q := (dst.1, dst.2 + k)
  let s := if reachable .wordWrite am q then s.writeAt e q w else s.addrErr e
  if k + 1 < n then s.setBank e { s.bank e with move := some (k + 1, dst) } else s.fin e fun b => { b with move := none }

/-- BMOV, one word: from the address in ACC1[21:0] to the operand, whose address is taken when the move begins. A move can be preempted after each word and resumes from the next; a source outside the island waits for its response (R253, R256). -/
def State.opBmov (s : State) (e : Fin 4) (am : AM) (a : BitVec 22) (got : Option (Nat × Nat)) : State :=
  let b := s.bank e
  let (s, o) := match b.move with
    | some (_, d) => (s, some d)
    | none => s.operand e .wordWrite am a
  let k := (b.move.map (·.1)).getD 0
  if b.acc2.toNat % 2 ^ 16 = 0 then s.fin e id
  else match o with
    | none => (s.addrErr e).fin e id
    | some dst =>
      let src := areaIdx (b.acc1.toNat % 2 ^ 22)
      let p := (src.1, src.2 + k)
      match got with
      | some q =>
        let (s, w) := s.remoteRead e q.1 q.2
        s.moveTo e am dst k w
      | none =>
        if !reachable .word .ind p then (s.addrErr e).moveTo e am dst k 0
        else if remote p.1 then
          (s.setBank e { s.bank e with move := some (k, dst) }).setEng e
            { (s.setBank e { s.bank e with move := some (k, dst) }).eng e with wait := some (.bmov e am a, p) }
        else
          let (s, w) := s.readAt e p
          s.moveTo e am dst k w

/-- R253, R256: BMOV copies ACC2[15:0] words from the address in ACC1[21:0] to the operand, one word at each run; the program counter advances with the last. -/
def execBmov (e : Fin 4) (am : AM) (a : BitVec 22) (s : State) : Host.Outcome State Fault Refusal :=
  if formOk 0x57 am a then s.answer fun s => s.inside .logic fun s => (s.begin e).opBmov e am a none
  else .refused .loadCheck

/-- R253, R347: SIG raises EIC source 84 + k for a pulse. -/
def execSig (e : Fin 4) (k : BitVec 22) (s : State) : Host.Outcome State Fault Refusal :=
  s.plain e fun s => (s.offerEic (84 + k.toNat % 8)).fin e id

/-- R253, R262: PRI raises the priority of the running task to max(own, k); where that lowers it, a waiting task above it starts. -/
def execPri (e : Fin 4) (k : BitVec 22) (s : State) : Host.Outcome State Fault Refusal :=
  s.plain e fun s => ((s.fin e fun b => { b with prio := max (s.level e) (k.toNat % 16) }).showEng e).runWaiting e

/-! ### The response (R256) -/

/-- The instruction that waited runs on with the word of the response. -/
def State.resume (s : State) (i : Instr) (p : Nat × Nat) : State :=
  match i with
  | .ld e am a => s.opLd e am a (some p)
  | .ldn e am a => s.opLdn e am a (some p)
  | .and_ e am a => s.opAnd e am a (some p)
  | .andn e am a => s.opAndn e am a (some p)
  | .or_ e am a => s.opOr e am a (some p)
  | .orn e am a => s.opOrn e am a (some p)
  | .xor_ e am a => s.opXor e am a (some p)
  | .xorn e am a => s.opXorn e am a (some p)
  | .l e am a => s.opL e am a (some p)
  | .add e am a => s.opAdd e am a (some p)
  | .sub e am a => s.opSub e am a (some p)
  | .mul e am a => s.opMul e am a (some p)
  | .div e am a => s.opDiv e am a (some p)
  | .mod_ e am a => s.opMod e am a (some p)
  | .mulq e am a => s.opMulq e am a (some p)
  | .divq e am a => s.opDivq e am a (some p)
  | .andw e am a => s.opAndw e am a (some p)
  | .orw e am a => s.opOrw e am a (some p)
  | .xorw e am a => s.opXorw e am a (some p)
  | .shl e am a => s.opShl e am a (some p)
  | .shr e am a => s.opShr e am a (some p)
  | .asr e am a => s.opAsr e am a (some p)
  | .min_ e am a => s.opMin e am a (some p)
  | .max_ e am a => s.opMax e am a (some p)
  | .ceq e am a => s.opCeq e am a (some p)
  | .cne e am a => s.opCne e am a (some p)
  | .cgt e am a => s.opCgt e am a (some p)
  | .cge e am a => s.opCge e am a (some p)
  | .clt e am a => s.opClt e am a (some p)
  | .cle e am a => s.opCle e am a (some p)
  | .bmov e am a => s.opBmov e am a (some p)
  | _ => s

/-- R256: the response to a read of SI, SO or PG arrives and the waiting instruction completes; with none waiting it is discarded. -/
def execRemoteReadResponse (t : Nat) (e : Fin 4) (s : State) : Host.Outcome State Fault Refusal :=
  s.cmd t fun s => s.inside .logic fun s =>
    match (s.eng e).wait with
    | some (i, p) => (s.begin e).resume i p
    | none => s

end Sys2Proof.Machine
end

