-- ==== Sys2Proof/Machine/LogicTimer.lean ====
section
/-! DEFINITION. Timer and counter instructions of the logic engines (R247, R258 to R260). -/

namespace Sys2Proof.Machine

/-! ### Records -/

/-- A timer record (R259). -/
structure TimerRec where
  base : Nat
  inMem : Bool
  running : Bool
  q : Bool
  preset : Nat
  elapsed : Nat
  mark : Nat
  deriving DecidableEq, Repr

/-- The nanoseconds of a timer unit. -/
def timerUnit (base : Nat) : Nat :=
  match base with
  | 0 => 10000
  | 1 => 1000000
  | 2 => 100000000
  | _ => 1000000000

/-- The record of timer `t` as its instructions read it: forces apply (R282). -/
def State.timer (s : State) (t : Nat) : TimerRec :=
  let c := s.dwordSeen (timerWord t 0)
  { base := c.toNat % 4, inMem := c.getLsbD 8, running := c.getLsbD 9, q := c.getLsbD 10, preset := (s.dwordSeen (timerWord t 1)).toNat,
    elapsed := (s.dwordSeen (timerWord t 2)).toNat, mark := (s.dwordSeen (timerWord t 3)).toNat }

/-- The instruction reads these words of its record: one with an uncorrectable error stands at 0, sets STATUS.MEM_ERR and raises MEM_ERROR (R295). -/
def State.readRecord (s : State) (e : Nat) (ws : List Nat) : State :=
  ws.foldl (fun (s : State) (w : Nat) =>
    if s.pwr.bad.contains (4, w) then { (s.dataRead e 4 w).1 with dataMem := sset 0 s.dataMem w 0 } else s) s

/-- Write the record of timer `t`; PRESET keeps its word and the other bits of CTRL are 0. -/
def State.setTimer (s : State) (t : Nat) (x : TimerRec) : State :=
  let c := x.base + 2 ^ 8 * x.inMem.toNat + 2 ^ 9 * x.running.toNat + 2 ^ 10 * x.q.toNat
  ((s.setDword (timerWord t 0) (BitVec.ofNat 32 c)).setDword (timerWord t 2) (BitVec.ofNat 32 x.elapsed)).setDword
    (timerWord t 3) (BitVec.ofNat 32 x.mark)

/-- The present instant in units of the timer, as a uint32 (R259). -/
def State.timerNow (s : State) (x : TimerRec) : Nat := s.ct / timerUnit x.base % 2 ^ 32

/-- The preset that counts: at most 2^31 − 1. -/
def TimerRec.limit (x : TimerRec) : Nat := min x.preset (2 ^ 31 - 1)

/-- The uint32 time since MARK. -/
def TimerRec.since (x : TimerRec) (now : Nat) : Nat := (now + 2 ^ 32 - x.mark % 2 ^ 32) % 2 ^ 32

/-- A timer or counter instruction that reads the words `rd` of its record: outside the window, or at an address error, it leaves BA 0 (R247, R251). -/
def State.numbered (s : State) (e : Nat) (c : OpClass) (am : AM) (a : BitVec 22) (rd : List Nat)
    (f : State → Nat → State × Bool) : State :=
  let (s, o) := s.operand e c am a
  match o with
  | none => (s.addrErr e).fin e fun b => { b with ba := false }
  | some p =>
    let w := s.windows (s.home e)
    if inWin (if c = .timer then w.t else w.c) p.2 then
      let (s, ba) := f (s.readRecord e (rd.map (if c = .timer then timerWord p.2 else counterWord p.2))) p.2
      s.fin e fun b => { b with ba := ba }
    else (s.winErr e).fin e fun b => { b with ba := false }

/-- A timer instruction with input BA: `f` gives the record, and BA := Q (R259). -/
def State.timerIns (s : State) (e : Nat) (am : AM) (a : BitVec 22) (f : Bool → Nat → TimerRec → TimerRec) : State :=
  let i := (s.bank e).ba
  s.numbered e .timer am a [0, 1, 2, 3] fun s t =>
    let x := s.timer t
    let y := f i (s.timerNow x) x
    (s.setTimer t { y with inMem := i }, y.q)

/-! ### Timers (R259) -/

/-- TON. -/
def tonStep (i : Bool) (now : Nat) (x : TimerRec) : TimerRec :=
  let x := if i && !x.inMem then { x with mark := now } else x
  let x := { x with elapsed := if i then min x.limit (x.since now) else 0 }
  let q := i && decide (x.limit ≤ x.elapsed)
  { x with q := q, running := i && !q }

/-- TOF. -/
def tofStep (i : Bool) (now : Nat) (x : TimerRec) : TimerRec :=
  if i then { x with q := true, running := false, elapsed := 0 }
  else
    let x := if x.inMem then { x with mark := now, running := true } else x
    if x.running then
      let x := { x with elapsed := min x.limit (x.since now) }
      if x.limit ≤ x.elapsed then { x with q := false, running := false } else x
    else x

/-- TP. -/
def tpStep (i : Bool) (now : Nat) (x : TimerRec) : TimerRec :=
  let x := if i && !x.inMem && !x.running then { x with mark := now, running := true } else x
  let x := if x.running then
      let x := { x with elapsed := min x.limit (x.since now) }
      if x.limit ≤ x.elapsed then { x with running := false } else x
    else if !i then { x with elapsed := 0 } else x
  { x with q := x.running }

/-- TONR. -/
def tonrStep (i : Bool) (now : Nat) (x : TimerRec) : TimerRec :=
  let x := if i && x.inMem then { x with elapsed := min x.limit (x.elapsed + x.since now) } else x
  let x := if i then { x with mark := now } else x
  { x with q := decide (x.limit ≤ x.elapsed) }

/-- R259: TON. -/
def execTon (e : Fin 4) (am : AM) (a : BitVec 22) (s : State) : Host.Outcome State Fault Refusal :=
  s.ins 0x20 e am a fun s => s.timerIns e am a tonStep

/-- R259: TOF. -/
def execTof (e : Fin 4) (am : AM) (a : BitVec 22) (s : State) : Host.Outcome State Fault Refusal :=
  s.ins 0x21 e am a fun s => s.timerIns e am a tofStep

/-- R259: TP. -/
def execTp (e : Fin 4) (am : AM) (a : BitVec 22) (s : State) : Host.Outcome State Fault Refusal :=
  s.ins 0x22 e am a fun s => s.timerIns e am a tpStep

/-- R259: TONR. -/
def execTonr (e : Fin 4) (am : AM) (a : BitVec 22) (s : State) : Host.Outcome State Fault Refusal :=
  s.ins 0x23 e am a fun s => s.timerIns e am a tonrStep

/-- R253: TRST: if BA, the timer loses its progress. -/
def execTrst (e : Fin 4) (am : AM) (a : BitVec 22) (s : State) : Host.Outcome State Fault Refusal :=
  s.ins 0x24 e am a fun s => 
    let i := (s.bank e).ba
    s.numbered e .timer am a [0] fun s t =>
      (if i then s.setTimer t { s.timer t with elapsed := 0, q := false, running := false, inMem := false } else s, i)

/-- R253: TPRE: PRESET of the timer := ACC1. -/
def execTpre (e : Fin 4) (am : AM) (a : BitVec 22) (s : State) : Host.Outcome State Fault Refusal :=
  s.ins 0x25 e am a fun s => 
    let b := s.bank e
    s.numbered e .timer am a [] fun s t => (s.setDword (timerWord t 1) b.acc1, b.ba)

/-! ### Counters (R260) -/

/-- CTU counts up and CTD down on a rising edge of BA, saturating; answers COUNT as it reads then (R260, R282). -/
def State.count (s : State) (c : Nat) (i : Bool) (bit : Nat) (d : Int) : State × Int :=
  let fl := (s.dwordSeen (counterWord c 2)).toNat
  let s := if i && !fl.testBit bit then
      s.setDword (counterWord c 0) (BitVec.ofInt 32 (sat 32 ((s.dwordSeen (counterWord c 0)).toInt + d)))
    else s
  let s := s.setDword (counterWord c 2) (BitVec.ofNat 32 (putBit fl bit i))
  (s, (s.dwordSeen (counterWord c 0)).toInt)

/-- R260: CTU; then BA := COUNT ≥ PRESET. -/
def execCtu (e : Fin 4) (am : AM) (a : BitVec 22) (s : State) : Host.Outcome State Fault Refusal :=
  s.ins 0x28 e am a fun s => 
    let i := (s.bank e).ba
    s.numbered e .counter am a [0, 1, 2] fun s c =>
      let (s, n) := s.count c i 0 1
      (s, decide ((s.dwordSeen (counterWord c 1)).toInt ≤ n))

/-- R260: CTD; then BA := COUNT ≤ 0. -/
def execCtd (e : Fin 4) (am : AM) (a : BitVec 22) (s : State) : Host.Outcome State Fault Refusal :=
  s.ins 0x29 e am a fun s => 
    let i := (s.bank e).ba
    s.numbered e .counter am a [0, 2] fun s c =>
      let (s, n) := s.count c i 1 (-1)
      (s, decide (n ≤ 0))

/-- R253: CRST: if BA, COUNT := 0. -/
def execCrst (e : Fin 4) (am : AM) (a : BitVec 22) (s : State) : Host.Outcome State Fault Refusal :=
  s.ins 0x2A e am a fun s => 
    let i := (s.bank e).ba
    s.numbered e .counter am a [] fun s c => (if i then s.setDword (counterWord c 0) 0 else s, i)

/-- R253: CLD: if BA, COUNT := PRESET. -/
def execCld (e : Fin 4) (am : AM) (a : BitVec 22) (s : State) : Host.Outcome State Fault Refusal :=
  s.ins 0x2B e am a fun s => 
    let i := (s.bank e).ba
    s.numbered e .counter am a (if i then [1] else []) fun s c =>
      (if i then s.setDword (counterWord c 0) (s.dwordSeen (counterWord c 1)) else s, i)

/-- R253: CPRE: PRESET of the counter := ACC1. -/
def execCpre (e : Fin 4) (am : AM) (a : BitVec 22) (s : State) : Host.Outcome State Fault Refusal :=
  s.ins 0x2C e am a fun s => 
    let b := s.bank e
    s.numbered e .counter am a [] fun s c => (s.setDword (counterWord c 1) b.acc1, b.ba)

end Sys2Proof.Machine
end

