-- ==== Sys2Proof/Machine/Dispatch.lean ====
section
/-! DEFINITION. The meaning of every command: one arm for each constructor, one direct call for each arm. -/

namespace Sys2Proof.Machine

def exec (i : Instr) (s : State) : Host.Outcome State Fault Refusal :=
  match i with
  | .registerWrite t r addr be v => Sys2Proof.Machine.execRegisterWrite t r addr be v s
  | .gatedAccess t r addr write => Sys2Proof.Machine.execGatedAccess t r addr write s
  | .unmappedAccess t r addr write => Sys2Proof.Machine.execUnmappedAccess t r addr write s
  | .aonWriteDelivery t => Sys2Proof.Machine.execAonWriteDelivery t s
  | .wideLowRead t r addr => Sys2Proof.Machine.execWideLowRead t r addr s
  | .stagedWordDiscard t pg => Sys2Proof.Machine.execStagedWordDiscard t pg s
  | .pllLocked t isl => Sys2Proof.Machine.execPllLocked t isl s
  | .pllLoss t isl => Sys2Proof.Machine.execPllLoss t isl s
  | .errClr t r pg => Sys2Proof.Machine.execErrClr t r pg s
  | .clampClr t r pg => Sys2Proof.Machine.execClampClr t r pg s
  | .ownerReq t r pg => Sys2Proof.Machine.execOwnerReq t r pg s
  | .freeze t r pg on => Sys2Proof.Machine.execFreeze t r pg on s
  | .freezeExpiry t pg => Sys2Proof.Machine.execFreezeExpiry t pg s
  | .softReset t r pg => Sys2Proof.Machine.execSoftReset t r pg s
  | .softResetDone t pg => Sys2Proof.Machine.execSoftResetDone t pg s
  | .enable t r pg on => Sys2Proof.Machine.execEnable t r pg on s
  | .evtPendClear t r pg v => Sys2Proof.Machine.execEvtPendClear t r pg v s
  | .lockKeyWrite t r pg key => Sys2Proof.Machine.execLockKeyWrite t r pg key s
  | .lockTimeout t pg => Sys2Proof.Machine.execLockTimeout t pg s
  | .ownerWrite t r pg v => Sys2Proof.Machine.execOwnerWrite t r pg v s
  | .ownTimeoutGrant t pg => Sys2Proof.Machine.execOwnTimeoutGrant t pg s
  | .seqGuardArm t r pg v => Sys2Proof.Machine.execSeqGuardArm t r pg v s
  | .solverSramHostWrite t p addr words => Sys2Proof.Machine.execSolverSramHostWrite t p addr words s
  | .setRegionWrite t r reg v => Sys2Proof.Machine.execSetRegionWrite t r reg v s
  | .setCheck t r slot => Sys2Proof.Machine.execSetCheck t r slot s
  | .setCheckDone t slot => Sys2Proof.Machine.execSetCheckDone t slot s
  | .setArm t r slot => Sys2Proof.Machine.execSetArm t r slot s
  | .setDisarm t r slot => Sys2Proof.Machine.execSetDisarm t r slot s
  | .setClear t r slot => Sys2Proof.Machine.execSetClear t r slot s
  | .setCmdNone t r slot => Sys2Proof.Machine.execSetCmdNone t r slot s
  | .snapshotInstant t => Sys2Proof.Machine.execSnapshotInstant t s
  | .descWindowOpen t => Sys2Proof.Machine.execDescWindowOpen t s
  | .blockDone t lane b res endsPhase => Sys2Proof.Machine.execBlockDone t lane b res endsPhase s
  | .iterDeadline t => Sys2Proof.Machine.execIterDeadline t s
  | .descWindowEnd t => Sys2Proof.Machine.execDescWindowEnd t s
  | .retireCommit t lane => Sys2Proof.Machine.execRetireCommit t lane s
  | .failCountDecay t => Sys2Proof.Machine.execFailCountDecay t s
  | .spareSelftest t => Sys2Proof.Machine.execSpareSelftest t s
  | .spareSelftestDone t lane pass => Sys2Proof.Machine.execSpareSelftestDone t lane pass s
  | .retireCmd t r lane => Sys2Proof.Machine.execRetireCmd t r lane s
  | .conflictWindow t frac => Sys2Proof.Machine.execConflictWindow t frac s
  | .dsqCtrClr t r => Sys2Proof.Machine.execDsqCtrClr t r s
  | .stagePrepare t => Sys2Proof.Machine.execStagePrepare t s
  | .applyInstant t => Sys2Proof.Machine.execApplyInstant t s
  | .stageBoundary t => Sys2Proof.Machine.execStageBoundary t s
  | .tripSet t r v => Sys2Proof.Machine.execTripSet t r v s
  | .tripReqSample t => Sys2Proof.Machine.execTripReqSample t s
  | .contApplied t => Sys2Proof.Machine.execContApplied t s
  | .tripStateClear t r v => Sys2Proof.Machine.execTripStateClear t r v s
  | .potEntryCommit t r v => Sys2Proof.Machine.execPotEntryCommit t r v s
  | .potTagWrite t r v => Sys2Proof.Machine.execPotTagWrite t r v s
  | .potCountWrite t r v => Sys2Proof.Machine.execPotCountWrite t r v s
  | .hoEvtClear t r v => Sys2Proof.Machine.execHoEvtClear t r v s
  | .loopSample t g => Sys2Proof.Machine.execLoopSample t g s
  | .loopUpdateStart t c => Sys2Proof.Machine.execLoopUpdateStart t c s
  | .loopUpdateDone t c => Sys2Proof.Machine.execLoopUpdateDone t c s
  | .loopOutput t g => Sys2Proof.Machine.execLoopOutput t g s
  | .loopSel t r c slot => Sys2Proof.Machine.execLoopSel t r c slot s
  | .commit t r c => Sys2Proof.Machine.execCommit t r c s
  | .discard t r c => Sys2Proof.Machine.execDiscard t r c s
  | .rcClear t r c => Sys2Proof.Machine.execRcClear t r c s
  | .rcClearDone t g => Sys2Proof.Machine.execRcClearDone t g s
  | .liveFieldWrite t r c reg v => Sys2Proof.Machine.execLiveFieldWrite t r c reg v s
  | .outDelayWrite t r c v => Sys2Proof.Machine.execOutDelayWrite t r c v s
  | .worstRunDone t c => Sys2Proof.Machine.execWorstRunDone t c s
  | .tuneStart t r c => Sys2Proof.Machine.execTuneStart t r c s
  | .tuneAbort t r c => Sys2Proof.Machine.execTuneAbort t r c s
  | .tuneApply t r c => Sys2Proof.Machine.execTuneApply t r c s
  | .tuneTimeout t c => Sys2Proof.Machine.execTuneTimeout t c s
  | .sdFilterOutput t ch d => Sys2Proof.Machine.execSdFilterOutput t ch d s
  | .sdLimitOutput t ch d => Sys2Proof.Machine.execSdLimitOutput t ch d s
  | .sdClockLoss t grp lost => Sys2Proof.Machine.execSdClockLoss t grp lost s
  | .sdDataStuck t ch stuck => Sys2Proof.Machine.execSdDataStuck t ch stuck s
  | .sarStartA t r => Sys2Proof.Machine.execSarStartA t r s
  | .sarStartB t r => Sys2Proof.Machine.execSarStartB t r s
  | .sarTimeTrigger t => Sys2Proof.Machine.execSarTimeTrigger t s
  | .sarConversionDone t code => Sys2Proof.Machine.execSarConversionDone t code s
  | .pulseEdge t ch fall => Sys2Proof.Machine.execPulseEdge t ch fall s
  | .pulseGateEnd t ch => Sys2Proof.Machine.execPulseGateEnd t ch s
  | .pulseTimeout t ch => Sys2Proof.Machine.execPulseTimeout t ch s
  | .pwmPeriodStart t o => Sys2Proof.Machine.execPwmPeriodStart t o s
  | .pwmCentre t o => Sys2Proof.Machine.execPwmCentre t o s
  | .dutyWrite t w o v => Sys2Proof.Machine.execDutyWrite t w o v s
  | .dutyTimeout t o => Sys2Proof.Machine.execDutyTimeout t o s
  | .tripInput t line active => Sys2Proof.Machine.execTripInput t line active s
  | .actTripClear t r v => Sys2Proof.Machine.execActTripClear t r v s
  | .nop e => Sys2Proof.Machine.execNop e s
  | .ld e am a => Sys2Proof.Machine.execLd e am a s
  | .ldn e am a => Sys2Proof.Machine.execLdn e am a s
  | .and_ e am a => Sys2Proof.Machine.execAnd e am a s
  | .andn e am a => Sys2Proof.Machine.execAndn e am a s
  | .or_ e am a => Sys2Proof.Machine.execOr e am a s
  | .orn e am a => Sys2Proof.Machine.execOrn e am a s
  | .xor_ e am a => Sys2Proof.Machine.execXor e am a s
  | .xorn e am a => Sys2Proof.Machine.execXorn e am a s
  | .st e am a => Sys2Proof.Machine.execSt e am a s
  | .stn e am a => Sys2Proof.Machine.execStn e am a s
  | .set_ e am a => Sys2Proof.Machine.execS e am a s
  | .instrR e am a => Sys2Proof.Machine.execInstrR e am a s
  | .fp e am a => Sys2Proof.Machine.execFp e am a s
  | .fn_ e am a => Sys2Proof.Machine.execFn e am a s
  | .tas e am a => Sys2Proof.Machine.execTas e am a s
  | .aParen e => Sys2Proof.Machine.execAParen e s
  | .anParen e => Sys2Proof.Machine.execAnParen e s
  | .oParen e => Sys2Proof.Machine.execOParen e s
  | .onParen e => Sys2Proof.Machine.execOnParen e s
  | .xParen e => Sys2Proof.Machine.execXParen e s
  | .closeParen e => Sys2Proof.Machine.execCloseParen e s
  | .not_ e => Sys2Proof.Machine.execNot e s
  | .setb e => Sys2Proof.Machine.execSetb e s
  | .clrb e => Sys2Proof.Machine.execClrb e s
  | .ton e am a => Sys2Proof.Machine.execTon e am a s
  | .tof e am a => Sys2Proof.Machine.execTof e am a s
  | .tp e am a => Sys2Proof.Machine.execTp e am a s
  | .tonr e am a => Sys2Proof.Machine.execTonr e am a s
  | .trst e am a => Sys2Proof.Machine.execTrst e am a s
  | .tpre e am a => Sys2Proof.Machine.execTpre e am a s
  | .ctu e am a => Sys2Proof.Machine.execCtu e am a s
  | .ctd e am a => Sys2Proof.Machine.execCtd e am a s
  | .crst e am a => Sys2Proof.Machine.execCrst e am a s
  | .cld e am a => Sys2Proof.Machine.execCld e am a s
  | .cpre e am a => Sys2Proof.Machine.execCpre e am a s
  | .l e am a => Sys2Proof.Machine.execL e am a s
  | .lhi e k => Sys2Proof.Machine.execLhi e k s
  | .t_ e am a => Sys2Proof.Machine.execT e am a s
  | .tak e => Sys2Proof.Machine.execTak e s
  | .add e am a => Sys2Proof.Machine.execAdd e am a s
  | .sub e am a => Sys2Proof.Machine.execSub e am a s
  | .mul e am a => Sys2Proof.Machine.execMul e am a s
  | .div e am a => Sys2Proof.Machine.execDiv e am a s
  | .mod_ e am a => Sys2Proof.Machine.execMod e am a s
  | .mulq e am a => Sys2Proof.Machine.execMulq e am a s
  | .divq e am a => Sys2Proof.Machine.execDivq e am a s
  | .andw e am a => Sys2Proof.Machine.execAndw e am a s
  | .orw e am a => Sys2Proof.Machine.execOrw e am a s
  | .xorw e am a => Sys2Proof.Machine.execXorw e am a s
  | .shl e am a => Sys2Proof.Machine.execShl e am a s
  | .shr e am a => Sys2Proof.Machine.execShr e am a s
  | .asr e am a => Sys2Proof.Machine.execAsr e am a s
  | .min_ e am a => Sys2Proof.Machine.execMin e am a s
  | .max_ e am a => Sys2Proof.Machine.execMax e am a s
  | .neg e => Sys2Proof.Machine.execNeg e s
  | .abs e => Sys2Proof.Machine.execAbs e s
  | .itq e => Sys2Proof.Machine.execItq e s
  | .qti e => Sys2Proof.Machine.execQti e s
  | .ceq e am a => Sys2Proof.Machine.execCeq e am a s
  | .cne e am a => Sys2Proof.Machine.execCne e am a s
  | .cgt e am a => Sys2Proof.Machine.execCgt e am a s
  | .cge e am a => Sys2Proof.Machine.execCge e am a s
  | .clt e am a => Sys2Proof.Machine.execClt e am a s
  | .cle e am a => Sys2Proof.Machine.execCle e am a s
  | .jmp e k => Sys2Proof.Machine.execJmp e k s
  | .jc e k => Sys2Proof.Machine.execJc e k s
  | .jcn e k => Sys2Proof.Machine.execJcn e k s
  | .loop e k => Sys2Proof.Machine.execLoop e k s
  | .call e k => Sys2Proof.Machine.execCall e k s
  | .ret e => Sys2Proof.Machine.execRet e s
  | .end_ e => Sys2Proof.Machine.execEnd e s
  | .bmov e am a => Sys2Proof.Machine.execBmov e am a s
  | .sig e k => Sys2Proof.Machine.execSig e k s
  | .pri e k => Sys2Proof.Machine.execPri e k s
  | .remoteReadResponse t e => Sys2Proof.Machine.execRemoteReadResponse t e s
  | .taskRelease t e task => Sys2Proof.Machine.execTaskRelease t e task s
  | .freeCycleStart t e => Sys2Proof.Machine.execFreeCycleStart t e s
  | .taskEntry t e => Sys2Proof.Machine.execTaskEntry t e s
  | .watchdog t e => Sys2Proof.Machine.execWatchdog t e s
  | .restartWarm t r e => Sys2Proof.Machine.execRestartWarm t r e s
  | .restartCold t r e => Sys2Proof.Machine.execRestartCold t r e s
  | .restartStop t r e => Sys2Proof.Machine.execRestartStop t r e s
  | .chgCopy t r e => Sys2Proof.Machine.execChgCopy t r e s
  | .chgCopyDone t e => Sys2Proof.Machine.execChgCopyDone t e s
  | .chgCheck t r e => Sys2Proof.Machine.execChgCheck t r e s
  | .chgCheckDone t e => Sys2Proof.Machine.execChgCheckDone t e s
  | .chgArm t r e => Sys2Proof.Machine.execChgArm t r e s
  | .chgDisarm t r e => Sys2Proof.Machine.execChgDisarm t r e s
  | .chgClear t r e => Sys2Proof.Machine.execChgClear t r e s
  | .chgRegionWrite t r e reg v => Sys2Proof.Machine.execChgRegionWrite t r e reg v s
  | .progSlotCommitted t => Sys2Proof.Machine.execProgSlotCommitted t s
  | .forceOnWrite t r on => Sys2Proof.Machine.execForceOnWrite t r on s
  | .forceClrAll t r => Sys2Proof.Machine.execForceClrAll t r s
  | .engineFail t e cause => Sys2Proof.Machine.execEngineFail t e cause s
  | .engineTestDone t e pass => Sys2Proof.Machine.execEngineTestDone t e pass s
  | .retCapture t => Sys2Proof.Machine.execRetCapture t s
  | .memDataWrite t r e v => Sys2Proof.Machine.execMemDataWrite t r e v s
  | .lgeCtrClr t r e => Sys2Proof.Machine.execLgeCtrClr t r e s
  | .gioInputChange t pin lvl => Sys2Proof.Machine.execGioInputChange t pin lvl s
  | .eicSourceEdge t src => Sys2Proof.Machine.execEicSourceEdge t src s
  | .eicRoute t => Sys2Proof.Machine.execEicRoute t s
  | .modIntervalEnd t grp => Sys2Proof.Machine.execModIntervalEnd t grp s
  | .setSrc t r src => Sys2Proof.Machine.execSetSrc t r src s
  | .srcCfgWrite t r src v => Sys2Proof.Machine.execSrcCfgWrite t r src v s
  | .pendingAged t src => Sys2Proof.Machine.execPendingAged t src s
  | .eicCtrClr t r => Sys2Proof.Machine.execEicCtrClr t r s
  | .newtWake t src => Sys2Proof.Machine.execNewtWake t src s
  | .hqeRecordOffer t p => Sys2Proof.Machine.execHqeRecordOffer t p s
  | .hqeWriteback t p => Sys2Proof.Machine.execHqeWriteback t p s
  | .hqeIntTimer t p q => Sys2Proof.Machine.execHqeIntTimer t p q s
  | .msixUnmask t p vec => Sys2Proof.Machine.execMsixUnmask t p vec s
  | .consWrite t r p q v => Sys2Proof.Machine.execConsWrite t r p q v s
  | .qEnWrite t r p q on => Sys2Proof.Machine.execQEnWrite t r p q on s
  | .pcieLinkChange t p up speed width => Sys2Proof.Machine.execPcieLinkChange t p up speed width s
  | .cplTimeout t p => Sys2Proof.Machine.execCplTimeout t p s
  | .flr t p => Sys2Proof.Machine.execFlr t p s
  | .tbNsRead t r => Sys2Proof.Machine.execTbNsRead t r s
  | .gnssPulse t => Sys2Proof.Machine.execGnssPulse t s
  | .todSentence t z => Sys2Proof.Machine.execTodSentence t z s
  | .refMiss t => Sys2Proof.Machine.execRefMiss t s
  | .timeStep t => Sys2Proof.Machine.execTimeStep t s
  | .holdDegraded t => Sys2Proof.Machine.execHoldDegraded t s
  | .timeSet t r => Sys2Proof.Machine.execTimeSet t r s
  | .timeAdd t r => Sys2Proof.Machine.execTimeAdd t r s
  | .adjManWrite t r v => Sys2Proof.Machine.execAdjManWrite t r v s
  | .utcDayEnd t => Sys2Proof.Machine.execUtcDayEnd t s
  | .ptpAnnounceRx t port ds => Sys2Proof.Machine.execPtpAnnounceRx t port ds s
  | .ptpSyncTx t port => Sys2Proof.Machine.execPtpSyncTx t port s
  | .ptpAnnounceTx t port => Sys2Proof.Machine.execPtpAnnounceTx t port s
  | .ptpDelayReqRx t port q => Sys2Proof.Machine.execPtpDelayReqRx t port q s
  | .ptpPdelayReqTx t port => Sys2Proof.Machine.execPtpPdelayReqTx t port s
  | .ptpPdelayRespRx t port t2 t3 => Sys2Proof.Machine.execPtpPdelayRespRx t port t2 t3 s
  | .ptpEventForward t inp out kind arrival corr => Sys2Proof.Machine.execPtpEventForward t inp out kind arrival corr s
  | .pulseArm t r o => Sys2Proof.Machine.execPulseArm t r o s
  | .pulseDisarm t r o => Sys2Proof.Machine.execPulseDisarm t r o s
  | .pulseFire t o => Sys2Proof.Machine.execPulseFire t o s
  | .pulseEnd t o => Sys2Proof.Machine.execPulseEnd t o s
  | .captureEdge t ch fall => Sys2Proof.Machine.execCaptureEdge t ch fall s
  | .capSecHiRead t r ch => Sys2Proof.Machine.execCapSecHiRead t r ch s
  | .capNsRead t r ch => Sys2Proof.Machine.execCapNsRead t r ch s
  | .tmkCtrClr t r => Sys2Proof.Machine.execTmkCtrClr t r s
  | .rtcTick t => Sys2Proof.Machine.execRtcTick t s
  | .rtcSecRead t r => Sys2Proof.Machine.execRtcSecRead t r s
  | .rtcCentRead t r => Sys2Proof.Machine.execRtcCentRead t r s
  | .rtcFreezeTimeout t => Sys2Proof.Machine.execRtcFreezeTimeout t s
  | .stagingWrite t r reg v => Sys2Proof.Machine.execStagingWrite t r reg v s
  | .calendarCommit t r v => Sys2Proof.Machine.execCalendarCommit t r v s
  | .stgDiscard t r => Sys2Proof.Machine.execStgDiscard t r s
  | .autoSync t => Sys2Proof.Machine.execAutoSync t s
  | .wakeInputEdge t n lvl => Sys2Proof.Machine.execWakeInputEdge t n lvl s
  | .minOffEnd t => Sys2Proof.Machine.execMinOffEnd t s
  | .vbakCheck t mv => Sys2Proof.Machine.execVbakCheck t mv s
  | .oscFault t => Sys2Proof.Machine.execOscFault t s
  | .oscRestored t => Sys2Proof.Machine.execOscRestored t s
  | .backupDomainReset t => Sys2Proof.Machine.execBackupDomainReset t s
  | .aonSupplySwitch t toVbak => Sys2Proof.Machine.execAonSupplySwitch t toVbak s
  | .canModeWrite t r ch v => Sys2Proof.Machine.execCanModeWrite t r ch v s
  | .canIntegrated t ch => Sys2Proof.Machine.execCanIntegrated t ch s
  | .txReq t r ch m => Sys2Proof.Machine.execTxReq t r ch m s
  | .cancel t r ch m => Sys2Proof.Machine.execCancel t r ch m s
  | .canSelection t ch => Sys2Proof.Machine.execCanSelection t ch s
  | .canTxAttemptEnd t ch a => Sys2Proof.Machine.execCanTxAttemptEnd t ch a s
  | .canFrameRx t ch f => Sys2Proof.Machine.execCanFrameRx t ch f s
  | .rxAck t r ch => Sys2Proof.Machine.execRxAck t r ch s
  | .recover t r ch => Sys2Proof.Machine.execRecover t r ch s
  | .recovered t ch => Sys2Proof.Machine.execRecovered t ch s
  | .cfdCtrClr t r ch => Sys2Proof.Machine.execCfdCtrClr t r ch s
  | .serStart t r ch => Sys2Proof.Machine.execSerStart t r ch s
  | .serAbort t r ch => Sys2Proof.Machine.execSerAbort t r ch s
  | .serIdleGap t ch => Sys2Proof.Machine.execSerIdleGap t ch s
  | .serTxDone t ch => Sys2Proof.Machine.execSerTxDone t ch s
  | .serTurnaroundEnd t ch => Sys2Proof.Machine.execSerTurnaroundEnd t ch s
  | .serRespTimeout t ch => Sys2Proof.Machine.execSerRespTimeout t ch s
  | .serCharRx t ch b parityOk framingOk => Sys2Proof.Machine.execSerCharRx t ch b parityOk framingOk s
  | .serFrameEnd t ch => Sys2Proof.Machine.execSerFrameEnd t ch s
  | .serCtrClr t r ch => Sys2Proof.Machine.execSerCtrClr t r ch s
  | .ethFrameRx t port f => Sys2Proof.Machine.execEthFrameRx t port f s
  | .egressTx t port => Sys2Proof.Machine.execEgressTx t port s
  | .ethLinkChange t port up speed => Sys2Proof.Machine.execEthLinkChange t port up speed s
  | .learnInsert t => Sys2Proof.Machine.execLearnInsert t s
  | .entryAgeOut t mac fid => Sys2Proof.Machine.execEntryAgeOut t mac fid s
  | .fdbAdd t r => Sys2Proof.Machine.execFdbAdd t r s
  | .fdbDelete t r => Sys2Proof.Machine.execFdbDelete t r s
  | .fdbLookup t r => Sys2Proof.Machine.execFdbLookup t r s
  | .floodRefill t port => Sys2Proof.Machine.execFloodRefill t port s
  | .prpSupervisionTx t pair => Sys2Proof.Machine.execPrpSupervisionTx t pair s
  | .redLanSilent t pair lanB => Sys2Proof.Machine.execRedLanSilent t pair lanB s
  | .dupEntryForget t pair src seq => Sys2Proof.Machine.execDupEntryForget t pair src seq s
  | .ethCtrClr t r port => Sys2Proof.Machine.execEthCtrClr t r port s
  | .stationCycleStart t => Sys2Proof.Machine.execStationCycleStart t s
  | .inputFrameRx t f pathA pathB => Sys2Proof.Machine.execInputFrameRx t f pathA pathB s
  | .readEnd t => Sys2Proof.Machine.execReadEnd t s
  | .writePhase t => Sys2Proof.Machine.execWritePhase t s
  | .outputFrameTx t => Sys2Proof.Machine.execOutputFrameTx t s
  | .tableCommit t r => Sys2Proof.Machine.execTableCommit t r s
  | .tableDiscard t r => Sys2Proof.Machine.execTableDiscard t r s
  | .stnEntryWrite t r w v => Sys2Proof.Machine.execStnEntryWrite t r w v s
  | .profDataWrite t r v => Sys2Proof.Machine.execProfDataWrite t r v s
  | .planMapWrite t r w v => Sys2Proof.Machine.execPlanMapWrite t r w v s
  | .sxeCtrClr t r => Sys2Proof.Machine.execSxeCtrClr t r s
  | .motionUpdate t a => Sys2Proof.Machine.execMotionUpdate t a s
  | .targetWrite t r a v => Sys2Proof.Machine.execTargetWrite t r a v s
  | .decWrite t r a reg v => Sys2Proof.Machine.execDecWrite t r a reg v s
  | .home t r a => Sys2Proof.Machine.execHome t r a s
  | .stop t r a => Sys2Proof.Machine.execStop t r a s
  | .estop t r a => Sys2Proof.Machine.execEstop t r a s
  | .release t r a => Sys2Proof.Machine.execRelease t r a s
  | .phaseSync t r a => Sys2Proof.Machine.execPhaseSync t r a s
  | .setPos t r a => Sys2Proof.Machine.execSetPos t r a s
  | .limitActive t a positive => Sys2Proof.Machine.execLimitActive t a positive s
  | .limitRelease t a positive => Sys2Proof.Machine.execLimitRelease t a positive s
  | .homeInput t a active => Sys2Proof.Machine.execHomeInput t a active s
  | .drvFault t a => Sys2Proof.Machine.execDrvFault t a s
  | .dokRiseAccepted t a => Sys2Proof.Machine.execDokRiseAccepted t a s
  | .liveLost t grp => Sys2Proof.Machine.execLiveLost t grp s
  | .chainFrameRx t up f => Sys2Proof.Machine.execChainFrameRx t up f s
  | .creditTimeout t up => Sys2Proof.Machine.execCreditTimeout t up s
  | .linkRetrain t up ok => Sys2Proof.Machine.execLinkRetrain t up ok s
  | .chainLinkChange t up linked => Sys2Proof.Machine.execChainLinkChange t up linked s
  | .hello t u => Sys2Proof.Machine.execHello t u s
  | .build t r => Sys2Proof.Machine.execBuild t r s
  | .vacate t r => Sys2Proof.Machine.execVacate t r s
  | .claimAccept t r => Sys2Proof.Machine.execClaimAccept t r s
  | .vacantExpiry t addr => Sys2Proof.Machine.execVacantExpiry t addr s
  | .bindTableCommit t => Sys2Proof.Machine.execBindTableCommit t s
  | .chainDelayMeasure t up d => Sys2Proof.Machine.execChainDelayMeasure t up d s
  | .chainTimeBroadcast t => Sys2Proof.Machine.execChainTimeBroadcast t s
  | .heartbeatTx t => Sys2Proof.Machine.execHeartbeatTx t s
  | .heartbeatRx t hb => Sys2Proof.Machine.execHeartbeatRx t hb s
  | .leaseExpiry t => Sys2Proof.Machine.execLeaseExpiry t s
  | .hbLost t => Sys2Proof.Machine.execHbLost t s
  | .retainSend t => Sys2Proof.Machine.execRetainSend t s
  | .witnessRequest t q => Sys2Proof.Machine.execWitnessRequest t q s
  | .voteGrantRx t epoch => Sys2Proof.Machine.execVoteGrantRx t epoch s
  | .voteTimeout t => Sys2Proof.Machine.execVoteTimeout t s
  | .lockExpiry t pair => Sys2Proof.Machine.execLockExpiry t pair s
  | .voteGrant t r => Sys2Proof.Machine.execVoteGrant t r s
  | .voteDeny t r => Sys2Proof.Machine.execVoteDeny t r s
  | .swap t r => Sys2Proof.Machine.execSwap t r s
  | .pairTake t r => Sys2Proof.Machine.execPairTake t r s
  | .mirrorCut t => Sys2Proof.Machine.execMirrorCut t s
  | .mirrorCutApply t cut => Sys2Proof.Machine.execMirrorCutApply t cut s
  | .fullCopyDone t => Sys2Proof.Machine.execFullCopyDone t s
  | .dchCtrClr t r => Sys2Proof.Machine.execDchCtrClr t r s
  | .recInput t => Sys2Proof.Machine.execRecInput t s
  | .recRecordWrite t => Sys2Proof.Machine.execRecRecordWrite t s
  | .rateRefill t code => Sys2Proof.Machine.execRateRefill t code s
  | .suppressionFlush t code => Sys2Proof.Machine.execSuppressionFlush t code s
  | .codeCfgWrite t r v => Sys2Proof.Machine.execCodeCfgWrite t r v s
  | .classCfgWrite t r v => Sys2Proof.Machine.execClassCfgWrite t r v s
  | .persistWrite t ok => Sys2Proof.Machine.execPersistWrite t ok s
  | .recFreeze t r => Sys2Proof.Machine.execRecFreeze t r s
  | .recRelease t r => Sys2Proof.Machine.execRecRelease t r s
  | .freezeMaxExpiry t => Sys2Proof.Machine.execFreezeMaxExpiry t s
  | .winSeqWrite t r v => Sys2Proof.Machine.execWinSeqWrite t r v s
  | .winNext t r => Sys2Proof.Machine.execWinNext t r s
  | .winDataRead t r idx => Sys2Proof.Machine.execWinDataRead t r idx s
  | .exportStart t r => Sys2Proof.Machine.execExportStart t r s
  | .exportAbort t r => Sys2Proof.Machine.execExportAbort t r s
  | .exportDone t => Sys2Proof.Machine.execExportDone t s
  | .clearStart t r => Sys2Proof.Machine.execClearStart t r s
  | .clearMarkDone t => Sys2Proof.Machine.execClearMarkDone t s
  | .recCtrClr t r => Sys2Proof.Machine.execRecCtrClr t r s
  | .tokenApply t r => Sys2Proof.Machine.execTokenApply t r s
  | .dbgClose t r => Sys2Proof.Machine.execDbgClose t r s
  | .debugExpiry t => Sys2Proof.Machine.execDebugExpiry t s
  | .attestStart t r => Sys2Proof.Machine.execAttestStart t r s
  | .attestDone t => Sys2Proof.Machine.execAttestDone t s
  | .install t r => Sys2Proof.Machine.execInstall t r s
  | .installAbort t r => Sys2Proof.Machine.execInstallAbort t r s
  | .installSwitch t r => Sys2Proof.Machine.execInstallSwitch t r s
  | .installStepDone t => Sys2Proof.Machine.execInstallStepDone t s
  | .secCtrClr t r => Sys2Proof.Machine.execSecCtrClr t r s
  | .pwrRun t r => Sys2Proof.Machine.execPwrRun t r s
  | .pwrDoze t r => Sys2Proof.Machine.execPwrDoze t r s
  | .pwrKeep t r => Sys2Proof.Machine.execPwrKeep t r s
  | .keepEntryDone t => Sys2Proof.Machine.execKeepEntryDone t s
  | .sysRst t r => Sys2Proof.Machine.execSysRst t r s
  | .powerOnReset t => Sys2Proof.Machine.execPowerOnReset t s
  | .sysrst t low => Sys2Proof.Machine.execSysrst t low s
  | .brownOut t rail => Sys2Proof.Machine.execBrownOut t rail s
  | .supplyWarn t rail mv => Sys2Proof.Machine.execSupplyWarn t rail mv s
  | .tempSample t temps => Sys2Proof.Machine.execTempSample t temps s
  | .bootStep t => Sys2Proof.Machine.execBootStep t s
  | .keeperWatchdog t => Sys2Proof.Machine.execKeeperWatchdog t s
  | .opSecSave t => Sys2Proof.Machine.execOpSecSave t s
  | .lifeTick t => Sys2Proof.Machine.execLifeTick t s
  | .scrubRead t mem addr res => Sys2Proof.Machine.execScrubRead t mem addr res s
  | .rowgroupReplace t bank grp => Sys2Proof.Machine.execRowgroupReplace t bank grp s
  | .rowgroupCommit t => Sys2Proof.Machine.execRowgroupCommit t s
  | .mramTimeout t dev => Sys2Proof.Machine.execMramTimeout t dev s
  | .mramReadFix t dev => Sys2Proof.Machine.execMramReadFix t dev s
  | .pstRemove t r dev => Sys2Proof.Machine.execPstRemove t r dev s
  | .pstInsert t r dev => Sys2Proof.Machine.execPstInsert t r dev s
  | .resyncChunkDone t => Sys2Proof.Machine.execResyncChunkDone t s
  | .kprCtrClr t r => Sys2Proof.Machine.execKprCtrClr t r s
  | .pstCtrClr t r => Sys2Proof.Machine.execPstCtrClr t r s
  | .resetRelease t => Sys2Proof.Machine.execResetRelease t s
  | .canRxError t ch kind => Sys2Proof.Machine.execCanRxError t ch kind s
  | .foreignMasterExpiry t port => Sys2Proof.Machine.execForeignMasterExpiry t port s
  | .takeRetry t => Sys2Proof.Machine.execTakeRetry t s
  | .svuBatchDone t agree => Sys2Proof.Machine.execSvuBatchDone t agree s

end Sys2Proof.Machine
end

