-- ==== Sys2Proof/WellFormed.lean ====
section
/-! DEFINITION. Well-formed commands: what an operand's own format allows. The meaning of a command does not rest on it. -/

namespace Sys2Proof

open Sys2Proof.Machine

/-- Numbers that are bytes. -/
def bytesOk (xs : List Nat) : Bool := xs.all (fun b => decide (b < 256))

/-- A CAN frame that a bus can carry: 11 or 29 identifier bits, a 4-bit DLC, at most 64 data bytes (R415). -/
def CanFrame.wf (f : CanFrame) : Bool :=
  decide (f.ident < if f.ide then 2 ^ 29 else 2 ^ 11) && decide (f.dlc < 16) && decide (f.data.length ≤ 64) && bytesOk f.data &&
  !(f.rtr && f.fdf)

/-- An Ethernet frame that a line can carry: 48-bit addresses, a 12-bit VLAN, a 3-bit priority, a 16-bit type (R438, R441). -/
def EthFrame.wf (f : EthFrame) : Bool :=
  decide (f.dst < 2 ^ 48) && decide (f.src < 2 ^ 48) && (f.vid.getD 0 < 4096) && decide (f.pcp < 8) && decide (f.etype < 2 ^ 16) &&
  ((f.redSeq.map (·.1)).getD 0 < 2 ^ 16) && bytesOk f.data

/-- A station-exchange frame whose fields fit their places (R313). -/
def SxeFrame.wf (f : SxeFrame) : Bool :=
  decide (f.ftype < 256) && decide (f.station < 2 ^ 16) && decide (f.time < 2 ^ 64) && decide (f.dst < 2 ^ 48) && decide (f.src < 2 ^ 48) &&
  decide (f.etype < 2 ^ 16) && decide (f.version < 256) && decide (f.words < 256)

/-- A chain frame whose fields fit their places (R478). -/
def ChainFrame.wf (f : ChainFrame) : Bool :=
  decide (f.dst < 256) && decide (f.src < 256) && decide (f.cls < 256) && decide (f.typ < 256) && decide (f.hops < 256) && bytesOk f.payload

/-- A PTP data set whose fields fit their places (R388). -/
def Dataset.wf (d : Dataset) : Bool :=
  decide (d.prio1 < 256) && decide (d.cls < 256) && decide (d.acc < 256) && decide (d.var < 2 ^ 16) && decide (d.prio2 < 256) &&
  decide (d.ident < 2 ^ 64) && decide (d.steps < 2 ^ 16)

/-- A ZDA sentence holds decimal numbers of two digits, and a year of four (R379). -/
def Zda.wf (z : Zda) : Bool :=
  decide (z.hour < 100) && decide (z.min < 100) && decide (z.sec < 100) && decide (z.day < 100) && decide (z.month < 100) && decide (z.year < 10000)

/-- Unit addresses are 0 to 15 (R476, R489). -/
def VoteReq.wf (q : VoteReq) : Bool := decide (q.pair < 16) && decide (q.from_ < 16) && decide (q.to_ < 16)

/-- A chain member's own description (R482). -/
def ChainUnit.wf (u : ChainUnit) : Bool := decide (u.addr < 16) && decide (u.serial < 2 ^ 64) && decide (u.tmk < 3)

namespace Instr

/-- The page that a header command names exists (R47). -/
def pageOf : Instr → Option Page
  | .stagedWordDiscard _ pg => some pg
  | .errClr _ _ pg => some pg
  | .clampClr _ _ pg => some pg
  | .ownerReq _ _ pg => some pg
  | .freeze _ _ pg _ => some pg
  | .freezeExpiry _ pg => some pg
  | .softReset _ _ pg => some pg
  | .softResetDone _ pg => some pg
  | .enable _ _ pg _ => some pg
  | .evtPendClear _ _ pg _ => some pg
  | .lockKeyWrite _ _ pg _ => some pg
  | .lockTimeout _ pg => some pg
  | .ownerWrite _ _ pg _ => some pg
  | .ownTimeoutGrant _ pg => some pg
  | .seqGuardArm _ _ pg _ => some pg
  | _ => none

/-- The opcode and the operand of an instruction that has an operand address (R253). -/
def logicForm : Instr → Option (Nat × AM × BitVec 22)
  | .ld _ am a => some (0x01, am, a)
  | .ldn _ am a => some (0x02, am, a)
  | .and_ _ am a => some (0x03, am, a)
  | .andn _ am a => some (0x04, am, a)
  | .or_ _ am a => some (0x05, am, a)
  | .orn _ am a => some (0x06, am, a)
  | .xor_ _ am a => some (0x07, am, a)
  | .xorn _ am a => some (0x08, am, a)
  | .st _ am a => some (0x09, am, a)
  | .stn _ am a => some (0x0A, am, a)
  | .set_ _ am a => some (0x0B, am, a)
  | .instrR _ am a => some (0x0C, am, a)
  | .fp _ am a => some (0x0D, am, a)
  | .fn_ _ am a => some (0x0E, am, a)
  | .tas _ am a => some (0x0F, am, a)
  | .ton _ am a => some (0x20, am, a)
  | .tof _ am a => some (0x21, am, a)
  | .tp _ am a => some (0x22, am, a)
  | .tonr _ am a => some (0x23, am, a)
  | .trst _ am a => some (0x24, am, a)
  | .tpre _ am a => some (0x25, am, a)
  | .ctu _ am a => some (0x28, am, a)
  | .ctd _ am a => some (0x29, am, a)
  | .crst _ am a => some (0x2A, am, a)
  | .cld _ am a => some (0x2B, am, a)
  | .cpre _ am a => some (0x2C, am, a)
  | .l _ am a => some (0x30, am, a)
  | .t_ _ am a => some (0x32, am, a)
  | .add _ am a => some (0x34, am, a)
  | .sub _ am a => some (0x35, am, a)
  | .mul _ am a => some (0x36, am, a)
  | .div _ am a => some (0x37, am, a)
  | .mod_ _ am a => some (0x38, am, a)
  | .mulq _ am a => some (0x39, am, a)
  | .divq _ am a => some (0x3A, am, a)
  | .andw _ am a => some (0x3B, am, a)
  | .orw _ am a => some (0x3C, am, a)
  | .xorw _ am a => some (0x3D, am, a)
  | .shl _ am a => some (0x3E, am, a)
  | .shr _ am a => some (0x3F, am, a)
  | .asr _ am a => some (0x40, am, a)
  | .min_ _ am a => some (0x41, am, a)
  | .max_ _ am a => some (0x42, am, a)
  | .ceq _ am a => some (0x48, am, a)
  | .cne _ am a => some (0x49, am, a)
  | .cgt _ am a => some (0x4A, am, a)
  | .cge _ am a => some (0x4B, am, a)
  | .clt _ am a => some (0x4C, am, a)
  | .cle _ am a => some (0x4D, am, a)
  | .bmov _ am a => some (0x57, am, a)
  | _ => none

/-- A well-formed command. -/
def wf (c : Instr) : Bool :=
  (match c.pageOf with
    | some pg => pageExists pg
    | none => true) &&
  (match c.logicForm with
    | some (op, am, a) => formOk op am a
    | none => true) &&
  (match c with
    | .solverSramHostWrite _ _ addr _ => addr.toNat % 8 == 0
    | .taskRelease _ _ task => decide (task < 42)
    | .todSentence _ z => z.wf
    | .ptpAnnounceRx _ _ ds => ds.wf
    | .canFrameRx _ _ f => f.frame.wf
    | .ethFrameRx _ _ f => f.wf
    | .inputFrameRx _ f _ _ => f.wf
    | .chainFrameRx _ _ f => f.wf
    | .hello _ u => u.wf
    | .witnessRequest _ q => q.wf
    | _ => true)

end Instr

end Sys2Proof
end

