-- ==== Sys2Proof/Safety.lean ====
section
/-! DEFINITION. The terms of the claims: what a command gives, when a page takes a write, what every step keeps. -/

namespace Sys2Proof.Machine

/-- A command answers a next state, of which `P` holds. -/
def Gives (c : Instr) (s : State) (P : State → Prop) : Prop := ∃ u, exec c s = .next u ∧ P u

/-- A page takes a write of requester `r`: the page exists and is reached, `r` is owner or Keeper with no guard armed, READY = 1, no soft reset runs, and no key sequence is half done (R18, R48, R53, R55, R60, R63). -/
def Takes (s : State) (r : Requester) (pg : Page) : Prop :=
  pageExists pg = true ∧ s.reaches r pg = true ∧ s.mayWrite r pg = true ∧ s.guardOf r pg = none ∧ s.closed pg = false ∧
  (s.px pg).lockStep = false

/-- A page takes a write of requester `r` and its lock is open (R61). -/
def Opened (s : State) (r : Requester) (pg : Page) : Prop := Takes s r pg ∧ s.lockOpen pg = true

/-- The invariant of the block: the fuse array is in canonical form. -/
def State.Inv (s : State) : Prop := Memory.wf s.fuses = true

/-- Every fuse bit blown in `s` is blown in `u` (R501). -/
def FusesKept (s u : State) : Prop := ∀ a, sget 0 u.fuses a &&& sget 0 s.fuses a = sget 0 s.fuses a

/-- A run is safe when no step of it stops the block. -/
def SafeRun : Nat → State → Prop
  | 0, _ => True
  | n + 1, s => ∃ u, step s = .next u ∧ SafeRun n u

/-- Every register field outside the pages named is as before; a field's key is its page's number times 2¹⁷ and its place there. -/
def Elsewhere (pgs : List Page) (s u : State) : Prop :=
  ∀ (d : Word) (k : Nat), (∀ pg ∈ pgs, k / 2 ^ 17 ≠ 32 * pg.code + pg.inst) → sget d u.regs k = sget d s.regs k

/-! ### Instructions of the logic engines -/

/-- Engine `e` reads a bit operand of its own island: `u` is the state after the read and `v` the bit (R248 to R251). -/
def BitOperand (s : State) (e : Fin 4) (am : AM) (a : BitVec 22) (u : State) (v : Bool) : Prop :=
  ∃ s1 p, (s.begin e).operand e .bitRead am a = (s1, some p) ∧ remote p.1 = false ∧ s1.readBitAt e p = (u, v)

/-- Engine `e` reads a word operand of its own island, or a constant: `u` is the state after the read and `w` the word (R248 to R251). -/
def WordOperand (s : State) (e : Fin 4) (am : AM) (a : BitVec 22) (u : State) (w : Word) : Prop :=
  (am = .imm ∧ u = s.begin e ∧ w = a.signExtend 32) ∨
  (am ≠ .imm ∧ ∃ s1 p, (s.begin e).operand e .word am a = (s1, some p) ∧ remote p.1 = false ∧ s1.readAt e p = (u, w))

/-- The frame of an instruction that changes nothing but the record of engine `e`: registers, memories, forces, sources and every other engine are as in `s`. -/
def EngineOnly (e : Fin 4) (s u : State) : Prop :=
  u.regs = s.regs ∧ u.pages = s.pages ∧ u.dataMem = s.dataMem ∧ u.retMem = s.retMem ∧ u.progMem = s.progMem ∧
  u.inImg = s.inImg ∧ u.outImg = s.outImg ∧ u.forces = s.forces ∧ u.sources = s.sources ∧ u.toEic = s.toEic ∧
  ∀ d : Fin 4, d ≠ e → u.eng d = s.eng d

/-- An instruction ends: bank `b` with the program counter moved on runs on engine `e`, and nothing else has changed since `s`. -/
def Ends (e : Fin 4) (b : Bank) (s u : State) : Prop :=
  u.bank e = { b with pc := b.pc + 1 } ∧ EngineOnly e s u

/-- What a bit store leaves of the memories: the word of D or R, or the output image, that `p` names takes bit `x` when the program may write there; `none` and every other word and bit is as before, and so is the output of another engine (R247, R249, R290). -/
def BitStored (e : Fin 4) (p : Nat × Nat) (x : Option Bool) (s u : State) : Prop :=
  (∀ w, u.dword w = match x with
    | some b => if p.1 = 4 ∧ w = p.2 / 32 ∧ inWin (s.windows (s.home e)).d w = true ∧ deviceWord w = false then
        BitVec.ofNat 32 (putBit (s.dword w).toNat (p.2 % 32) b) else s.dword w
    | none => s.dword w) ∧
  (∀ w, u.rword w = match x with
    | some b => if p.1 = 5 ∧ w = p.2 / 32 ∧ inWin (s.windows (s.home e)).r w = true then
        BitVec.ofNat 32 (putBit (s.rword w).toNat (p.2 % 32) b) else s.rword w
    | none => s.rword w) ∧
  (∀ j : Nat, (u.eng e).qImg.getLsbD j = match x with
    | some b => if p.1 = 1 ∧ j = p.2 ∧ j < 64 ∧ (s.foreignPins (s.home e)).testBit j = false then b else (s.eng e).qImg.getLsbD j
    | none => (s.eng e).qImg.getLsbD j)

/-- A timer or counter instruction of a number in the window, which reads the words `rd` of its record: `u` is the state after the operand and those words are read, and `n` the number (R247, R250, R295). -/
def Numbered (s : State) (e : Fin 4) (c : OpClass) (am : AM) (a : BitVec 22) (rd : List Nat) (u : State) (n : Nat) : Prop :=
  ∃ s1 p, (s.begin e).operand e c am a = (s1, some p) ∧ p.2 = n ∧
    inWin (if c = .timer then (s1.windows (s1.home e)).t else (s1.windows (s1.home e)).c) n = true ∧
    u = s1.readRecord e (rd.map (if c = .timer then timerWord n else counterWord n))

/-- The record of timer `t` as the data memory holds it, whatever is forced (R259). -/
def State.timerHeld (s : State) (t : Nat) : TimerRec :=
  let c := s.dword (timerWord t 0)
  { base := c.toNat % 4, inMem := c.getLsbD 8, running := c.getLsbD 9, q := c.getLsbD 10, preset := (s.dword (timerWord t 1)).toNat,
    elapsed := (s.dword (timerWord t 2)).toNat, mark := (s.dword (timerWord t 3)).toNat }

/-- Every data word but the four from `lo` on is as before. -/
def RecordOnly (lo : Nat) (s u : State) : Prop := ∀ w, ¬ (lo ≤ w ∧ w < lo + 4) → u.dword w = s.dword w

/-- Commands that may act on the state of every block: a bus write, which lands in any page, and a remote read that resumes one; a soft reset, an enable and a boot step, which act on the page or the block they name; the resets; a takeover and what the pair copies. -/
def actsOnAll : Instr → Bool
  | .registerWrite .. | .st .. | .stn .. | .set_ .. | .instrR .. | .fp .. | .fn_ .. | .tas .. | .t_ .. | .bmov .. | .remoteReadResponse .. | .softReset .. | .enable .. |
    .bootStep .. | .scrubRead .. | .mirrorCut .. | .mirrorCutApply .. | .voteGrantRx .. | .voteGrant .. | .heartbeatRx .. | .fullCopyDone .. |
    .powerOnReset .. | .sysrst .. | .brownOut .. | .sysRst .. | .keeperWatchdog .. | .keepEntryDone .. | .newtWake .. | .minOffEnd .. => true
  | _ => false

end Sys2Proof.Machine
end

