-- ==== Sys2Proof/Certificates/Slice0/Obligations.lean ====
section
/-! DEFINITION. Statements about the block, each a proposition for the provers. -/

open Sys2Proof Sys2Proof.Machine

/-! ### The queue, the fuses, reset -/

/-- A step runs the command at the front of the queue with the queue's rest, and no command changes the queue; on an empty queue the block idles, which is the model's choice (assumption 2). -/
def Obligations.StepRunsFront : Prop :=
  (∀ (c : Instr) (s : State), step { s with pending := c :: s.pending } = exec c s) ∧
  (∀ (c : Instr) (s u : State), exec c s = .next u → u.pending = s.pending) ∧
  (∀ s : State, s.pending = [] → step s = .next s)

/-- R501: no command restores a blown fuse bit, and every command keeps the fuse array in canonical form. -/
def Obligations.StepKeepsFuses : Prop :=
  ∀ s u : State, s.Inv → step s = .next u → u.Inv ∧ FusesKept s u

/-- The invariant holds at reset, and the queue is empty there. Where the rules leave a point open it follows the model's reading (assumption 4). -/
def Obligations.ResetInv : Prop := State.reset.Inv ∧ State.reset.pending = []

/-! ### Pages -/

/-- R51: ERR_CLR clears all fields of PG_ERRCNT and CLAMP_CLR those of PG_CLAMP, and neither writes another field of the header. -/
def Obligations.PageErrorClears : Prop :=
  ∀ (t : Nat) (r : Requester) (pg : Page) (s : State), Takes s r pg →
    Gives (.errClr t r pg) s (fun u => u.h HDR.ACCESS_ERR pg = 0 ∧ u.h HDR.SEQ_MISS pg = 0 ∧ u.h HDR.LOCK_VIOL pg = 0 ∧
      u.h HDR.OWNER_VIOL pg = 0 ∧ u.h HDR.CLAMPS pg = s.h HDR.CLAMPS pg ∧ u.h HDR.OWNER pg = s.h HDR.OWNER pg) ∧
    Gives (.clampClr t r pg) s (fun u => u.h HDR.CLAMPS pg = 0 ∧ u.h HDR.LAST_OFFSET pg = 0 ∧ u.h HDR.LAST_BIT pg = 0 ∧
      u.h HDR.LAST_DATA pg = 0 ∧ u.h HDR.ACCESS_ERR pg = s.h HDR.ACCESS_ERR pg ∧ u.h HDR.OWNER pg = s.h HDR.OWNER pg)

/-- R55, R60, R62, R63: a write by a requester that is neither the owner nor the Keeper is discarded and counted in OWNER_VIOL; a write that a page takes counts in PG_SEQ.COUNT; PG_SEQ.GUARD arms a guard for its writer, and the writer's next write disarms it: with the expected count the write is accepted, with another it is refused and counts in SEQ_MISS, and a write to a block that is not ready is refused and counts in ACCESS_ERR; each of them breaks a key sequence, but an accepted write of the key. For every command that writes a page. -/
def Obligations.PageWrites : Prop :=
  ∀ (s : State) (r : Requester) (pg : Page) (b k : Bool) (f : State → State),
    (pageExists pg = true → s.reaches r pg = true → s.h HDR.OWNER pg ≠ ownerCode r → r ≠ .keeper →
      s.pageWrite r pg b f k = (s.breakKeys pg).hinc HDR.OWNER_VIOL pg) ∧
    (Takes s r pg → s.pageWrite r pg b f k = f (s.hw HDR.COUNT pg (s.h HDR.COUNT pg + 1))) ∧
    (pageExists pg = true → s.reaches r pg = true → s.mayWrite r pg = true →
      (∀ (t : Nat) (v : BitVec 16), Gives (.seqGuardArm t r pg v) s (fun u => u.guardOf r pg = some v.toNat ∧
        u.h HDR.COUNT pg = s.h HDR.COUNT pg)) ∧
      ∀ g, s.guardOf r pg = some g →
        (s.disarm r pg).guardOf r pg = none ∧
        ((b && s.closed pg) = true → s.pageWrite r pg b f k = ((s.disarm r pg).breakKeys pg).hinc HDR.ACCESS_ERR pg) ∧
        ((b && s.closed pg) = false → g ≠ s.h HDR.COUNT pg → s.pageWrite r pg b f k = ((s.disarm r pg).breakKeys pg).hinc HDR.SEQ_MISS pg) ∧
        ((b && s.closed pg) = false → g = s.h HDR.COUNT pg → s.pageWrite r pg b f k =
          f ((if k = true then s.disarm r pg else (s.disarm r pg).breakKeys pg).hw HDR.COUNT pg (s.h HDR.COUNT pg + 1))))

/-- R57, R58: a request for an unowned page is granted at once and closes the lock; a request to another owner whose link is up waits; the owner hands the page on by PG_OWNER, and a page that it gives up goes to the requester that waits; after OWN_TIMEOUT the request is granted. Where the rules leave a point open it follows the model's reading (assumptions 82 and 101). -/
def Obligations.PageOwnership : Prop :=
  ∀ (t : Nat) (r : Requester) (pg : Page) (s : State), pageExists pg = true → (s.px pg).lockStep = false →
    (s.reaches r pg = true → r ≠ .keeper → s.h HDR.OWNER pg = 0 →
      Gives (.ownerReq t r pg) s (fun u => u.h HDR.OWNER pg = ownerCode r ∧ u.h HDR.OPEN pg = 0 ∧ u.h HDR.OWNER_PEND pg = 0)) ∧
    (s.reaches r pg = true → r ≠ .keeper → 3 < s.h HDR.OWNER pg → s.h HDR.OWNER pg ≠ ownerCode r →
      Gives (.ownerReq t r pg) s (fun u => u.h HDR.OWNER pg = s.h HDR.OWNER pg ∧ u.h HDR.OWNER_PEND pg = 1 ∧
        u.h HDR.PEND_REQ pg = ownerCode r)) ∧
    (∀ v : BitVec 4, Takes s r pg → v.toNat ∈ [1, 2, 4, 5, 6, 7, 8] → v.toNat ≠ s.h HDR.OWNER pg →
      Gives (.ownerWrite t r pg v) s (fun u => u.h HDR.OWNER pg = v.toNat ∧ u.h HDR.OPEN pg = 0 ∧ u.h HDR.OWNER_PEND pg = 0)) ∧
    (Takes s r pg → s.h HDR.OWNER_PEND pg = 1 → s.h HDR.PEND_REQ pg < 16 → s.h HDR.PEND_REQ pg ≠ s.h HDR.OWNER pg →
      Gives (.ownerWrite t r pg 0#4) s (fun u => u.h HDR.OWNER pg = s.h HDR.PEND_REQ pg ∧ u.h HDR.OPEN pg = 0 ∧
        u.h HDR.OWNER_PEND pg = 0)) ∧
    (Takes s r pg → s.h HDR.OWNER_PEND pg = 0 → s.h HDR.OWNER pg ≠ 0 →
      Gives (.ownerWrite t r pg 0#4) s (fun u => u.h HDR.OWNER pg = 0 ∧ u.h HDR.OPEN pg = 0 ∧ u.h HDR.OWNER_PEND pg = 0)) ∧
    (s.h HDR.OWNER_PEND pg = 1 → s.h HDR.PEND_REQ pg < 16 → s.r IFX.OWN_TIMEOUT ≠ 0 →
      (s.px pg).reqAt + 1000000 * s.r IFX.OWN_TIMEOUT ≤ (s.tick t).up → s.h HDR.PEND_REQ pg ≠ s.h HDR.OWNER pg →
      Gives (.ownTimeoutGrant t pg) s (fun u => u.h HDR.OWNER pg = s.h HDR.PEND_REQ pg ∧ u.h HDR.OPEN pg = 0 ∧
        u.h HDR.OWNER_PEND pg = 0))

/-- R60, R61: the first key opens the sequence and the second the lock; any other key between the two does not and counts; KEY = 0 closes an open lock, between the keys as well; a key out of sequence counts and leaves the lock as it is; the lock closes 10 ms after it opened, and not before. Where the rules leave a point open it follows the model's reading (assumption 102). -/
def Obligations.PageLock : Prop :=
  ∀ (t : Nat) (r : Requester) (pg : Page) (s : State), pageExists pg = true →
    (s.reaches r pg = true → s.mayWrite r pg = true → s.guardOf r pg = none →
      ((s.px pg).lockStep = false →
        Gives (.lockKeyWrite t r pg 0x0A5C#16) s (fun u => (u.px pg).lockStep = true ∧ u.h HDR.OPEN pg = s.h HDR.OPEN pg ∧
          u.h HDR.LOCK_VIOL pg = s.h HDR.LOCK_VIOL pg) ∧
        Gives (.lockKeyWrite t r pg 0#16) s (fun u => (u.px pg).lockStep = false ∧ u.h HDR.OPEN pg = 0 ∧
          u.h HDR.LOCK_VIOL pg = s.h HDR.LOCK_VIOL pg) ∧
        ∀ key : BitVec 16, key ≠ 0x0A5C#16 → key ≠ 0#16 →
          Gives (.lockKeyWrite t r pg key) s (fun u => (u.px pg).lockStep = false ∧ u.h HDR.OPEN pg = s.h HDR.OPEN pg ∧
            u.h HDR.LOCK_VIOL pg = min (s.h HDR.LOCK_VIOL pg + 1) 255)) ∧
      ((s.px pg).lockStep = true →
        Gives (.lockKeyWrite t r pg 0x0C5A#16) s (fun u => u.h HDR.OPEN pg = 1 ∧ (u.px pg).lockStep = false ∧
          (u.px pg).lockAt = (s.tick t).up ∧ u.h HDR.LOCK_VIOL pg = s.h HDR.LOCK_VIOL pg) ∧
        ∀ key : BitVec 16, key ≠ 0x0C5A#16 →
          Gives (.lockKeyWrite t r pg key) s (fun u => u.h HDR.OPEN pg = (if key = 0#16 then 0 else s.h HDR.OPEN pg) ∧
            u.h HDR.LOCK_VIOL pg = min (s.h HDR.LOCK_VIOL pg + 1) 255))) ∧
    Gives (.lockTimeout t pg) s (fun u => Elsewhere [pg] s u ∧ u.h HDR.LOCK_VIOL pg = s.h HDR.LOCK_VIOL pg ∧
      u.h HDR.OPEN pg = (if s.h HDR.OPEN pg = 1 ∧ (s.px pg).lockAt + 10000000 ≤ (s.tick t).up then 0 else s.h HDR.OPEN pg) ∧
      (s.h HDR.OPEN pg = 1 → (s.px pg).lockAt + 10000000 ≤ (s.tick t).up → (u.px pg).lockStep = false))

/-- R51, R52, R53, R63: FREEZE holds and lets go of the status words, ENABLE takes its value, a soft reset sets BUSY and clears the pending events until it is done, ones clear pending events, and a guard is armed for its requester. Where the rules leave a point open it follows the model's reading (assumptions 83 and 103). -/
def Obligations.PageControls : Prop :=
  ∀ (t : Nat) (r : Requester) (pg : Page) (s : State),
    (Takes s r pg →
      Gives (.freeze t r pg true) s (fun u => u.h HDR.FROZEN pg = 1) ∧
      Gives (.freeze t r pg false) s (fun u => u.h HDR.FROZEN pg = 0 ∧ (u.px pg).shadow = []) ∧
      (∀ on, s.enabled pg.code pg.inst ≠ on → Gives (.enable t r pg on) s (fun u => u.h HDR.ENABLE pg = on.toNat)) ∧
      Gives (.softReset t r pg) s (fun u => u.h HDR.BUSY pg = 1 ∧ u.h HDR.EVT_PEND pg = 0 ∧ u.h HDR.OPEN pg = 0 ∧
        (u.px pg).resetting = true) ∧
      (∀ v : Word, Gives (.evtPendClear t r pg v) s (fun u =>
        ∀ i, i < 32 → (u.h HDR.EVT_PEND pg).testBit i = ((s.h HDR.EVT_PEND pg).testBit i && !v.getLsbD i))) ∧
      (∀ v : BitVec 16, Gives (.seqGuardArm t r pg v) s (fun u => u.guardOf r pg = some v.toNat ∧
        u.h HDR.COUNT pg = s.h HDR.COUNT pg))) ∧
    (s.h HDR.FROZEN pg = 1 → (s.px pg).freezeAt + 10000000 ≤ (s.tick t).up →
      Gives (.freezeExpiry t pg) s (fun u => u.h HDR.FROZEN pg = 0 ∧ (u.px pg).shadow = [])) ∧
    ((s.px pg).resetting = true → Gives (.softResetDone t pg) s (fun u => u.h HDR.BUSY pg = 0 ∧ (u.px pg).resetting = false)) ∧
    Gives (.stagedWordDiscard t pg) s (fun u => ∀ w, w ∈ (u.px pg).staged ↔ w ∈ (s.px pg).staged ∧ (s.tick t).up < w.t + 1000000)

/-- R18, R21, R48, R50, R69, R76: an access to a gated page or to a reserved address reads 0 and counts, and changes no memory; a read of the low word of a wide value answers it and latches the high words for the same requester; a read of a word of either SRAM answers it, least significant byte first, to every requester. Where the rules leave a point open it follows the model's reading (assumptions 106 and 110). -/
def Obligations.Accesses : Prop :=
  ∀ (t : Nat) (r : Requester) (a : BitVec 32) (s : State),
    (∀ w : Bool,
      (onPage a.toNat = true → s.reaches r (addrPage a.toNat) = false →
        Gives (.gatedAccess t r a w) s (fun u => u.r IFX.GATED_ACCESS = min (s.r IFX.GATED_ACCESS + 1) (2 ^ 32 - 1) ∧
          u.r IFX.GATED_ADDR = pageAddr (addrPage a.toNat) ∧ (w = false → sget 0 u.resp (ownerCode r) = 0) ∧
          u.r IFX.UNMAPPED_ACCESS = s.r IFX.UNMAPPED_ACCESS ∧ u.general = s.general ∧ u.solver = s.solver)) ∧
      (reservedAddr a.toNat = true →
        Gives (.unmappedAccess t r a w) s (fun u => u.r IFX.UNMAPPED_ACCESS = min (s.r IFX.UNMAPPED_ACCESS + 1) (2 ^ 32 - 1) ∧
          (w = false → sget 0 u.resp (ownerCode r) = 0) ∧ u.r IFX.GATED_ACCESS = s.r IFX.GATED_ACCESS ∧
          u.general = s.general ∧ u.solver = s.solver))) ∧
    (onPage a.toNat = true → a.toNat % 4 = 0 →
      s.reaches r (addrPage a.toNat) = true → wideRead (addrPage a.toNat) (a.toNat % 4096) = true →
      ((s.px (addrPage a.toNat)).latched.find? (fun l => l.req == ownerCode r && l.off == a.toNat % 4096)) = none →
      Gives (.wideLowRead t r a) s (fun u =>
        sget 0 u.resp (ownerCode r) = BitVec.ofNat 32 ((s.tick t).view (addrPage a.toNat) (a.toNat % 4096)) ∧
        ∀ k ∈ wideHighs (addrPage a.toNat) (a.toNat % 4096), ∃ l ∈ (u.px (addrPage a.toNat)).latched, l.req = ownerCode r ∧ l.off = k ∧
          l.val = BitVec.ofNat 32 ((s.tick t).view (addrPage a.toNat) k))) ∧
    (inGeneral a.toNat = true → s.islandOn .host = true →
      Gives (.wideLowRead t r a) s (fun u => sget 0 u.resp (ownerCode r) =
        BitVec.ofNat 32 (leVal ((sgets 0 s.general (a.toNat / 4 * 4) 4).map (·.toNat))) ∧ u.regs = s.regs)) ∧
    (inSolver a.toNat = true → a.toNat < s.r DSQ.SOLVER_CAP → s.islandOn .solve = true → a.toNat / 8 * 8 ∉ s.pwr.poison →
      (0, a.toNat / 8 * 8) ∉ s.pwr.bad →
      Gives (.wideLowRead t r a) s (fun u => sget 0 u.resp (ownerCode r) =
        BitVec.ofNat 32 (leVal ((sgets 0 s.solver (a.toNat / 4 * 4) 4).map (·.toNat))) ∧ u.regs = s.regs))

/-- R64, R66: a written OWN_TIMEOUT above its range takes the nearest legal value and counts a clamp; a legal one is taken as written. Where the rules leave a point open it follows the model's reading (assumption 108). -/
def Obligations.RegisterClamp : Prop :=
  ∀ (t : Nat) (r : Requester) (v : Word) (s : State), Takes s r ⟨4, 0⟩ → v.toNat < 2 ^ 16 →
    Gives (.registerWrite t r 0x0440004C#32 0xF#4 v) s (fun u => u.r IFX.OWN_TIMEOUT = min v.toNat 10000 ∧
      u.h HDR.CLAMPS ⟨4, 0⟩ = (if 10000 < v.toNat then min (s.h HDR.CLAMPS ⟨4, 0⟩ + 1) 65535 else s.h HDR.CLAMPS ⟨4, 0⟩) ∧
      u.h HDR.COUNT ⟨4, 0⟩ = (s.h HDR.COUNT ⟨4, 0⟩ + 1) % 2 ^ 16)

/-! ### Resets, boot and power -/

/-- R284, R527: each reset leaves its cause; volatile memories are initialised; fuses and the AON registers are kept; forces end at power-on alone. Where the rules leave a point open it follows the model's reading (assumptions 112 and 113). -/
def Obligations.ResetCauses : Prop :=
  ∀ (t : Nat) (s : State),
    Gives (.powerOnReset t) s (fun u => u.r PCR.RESET_CAUSE = 0 ∧ u.pwr.inReset = true ∧ u.forces = [] ∧ u.solver = [] ∧
      u.general = [] ∧ u.dataMem = [] ∧ u.retMem = [] ∧ u.fuses = s.fuses ∧ u.aonRegs = s.aonRegs) ∧
    (s.pwr.st ≠ .keep → s.pwr.st ≠ .off → Gives (.sysrst t true) s (fun u => u.r PCR.RESET_CAUSE = 3 ∧ u.pwr.inReset = true ∧ u.forces = s.forces ∧ u.solver = [] ∧
      u.general = [] ∧ u.dataMem = [] ∧ u.fuses = s.fuses ∧ u.aonRegs = s.aonRegs)) ∧
    (s.pwr.brown = false → s.pwr.st = .run → Gives (.sysrst t false) s (fun u => u.pwr.inReset = false ∧ u.regs = s.regs)) ∧
    (∀ rail, s.pwr.st ≠ .keep → s.pwr.st ≠ .off → Gives (.brownOut t rail) s (fun u => u.r PCR.RESET_CAUSE = 1 ∧ u.pwr.inReset = true ∧ u.pwr.brown = true ∧
      u.dataMem = [] ∧ u.fuses = s.fuses)) ∧
    (∀ r, Opened s r ⟨0, 0⟩ → Gives (.sysRst t r) s (fun u => u.r PCR.RESET_CAUSE = 4 ∧ u.pwr.inReset = false ∧ u.dataMem = [] ∧
      u.forces = s.forces ∧ u.fuses = s.fuses)) ∧
    (s.pwr.inReset = true → s.pwr.st = .run → Gives (.resetRelease t) s (fun u => u.pwr.inReset = false ∧ u.pwr.bootAt = (s.tick t).up ∧
      u.regs = s.regs)) ∧
    (s.islandOn .keep = true → s.pwr.kwTimes = [] → Gives (.keeperWatchdog t) s (fun u => u.r KPR.KPR_RESETS = min (s.r KPR.KPR_RESETS + 1) (2 ^ KPR.KPR_RESETS.width - 1) ∧
      u.pwr.kwTimes = [(s.tick t).opSec] ∧ u.dataMem = s.dataMem ∧ u.r PCR.RESET_CAUSE = s.r PCR.RESET_CAUSE))

/-- R529, R530: a boot step that completes counts; the first senses the fuses, the fifth lets every PLL run, and in RECOVERY step 9 does nothing. Where the rules leave a point open it follows the model's reading (assumptions 111 and 112). -/
def Obligations.BootSteps : Prop :=
  ∀ (t : Nat) (s : State), s.pwr.inReset = false →
    (s.pwr.bootStep = 0 → s.pwr.recovery = false → Gives (.bootStep t) s (fun u => u.r KPR.BOOT_STATE = 1 ∧ u.r REC.FORM = 1 ∧
      u.pwr.pll.getLsbD (islandBit .keep) = true ∧ u.pwr.pll.getLsbD (islandBit .host) = true)) ∧
    (s.pwr.bootStep = 4 → Gives (.bootStep t) s (fun u => u.pwr.bootStep = 5 ∧ u.pwr.pll = 0x1FF#9 ∧ u.regs = s.regs)) ∧
    (s.pwr.bootStep = 8 → s.pwr.recovery = true → Gives (.bootStep t) s (fun u => u.pwr.bootStep = 9 ∧ u.regs = s.regs ∧
      u.engines = s.engines))

/-- R357, R358, R406, R526: the entry to KEEP begins and completes; a watched source wakes from DOZE at once, and from KEEP when the shortest off time allows. Where the rules leave a point open it follows the model's reading (assumptions 114 and 115). -/
def Obligations.KeepAndWake : Prop :=
  ∀ (t : Nat) (s : State),
    (∀ r, Opened s r ⟨0, 0⟩ → s.pwr.keepEntry = false → s.r DCH.ROLE ≠ 3 → s.r SEC.FW_STATE = 0 →
      Gives (.pwrKeep t r) s (fun u => u.pwr.keepEntry = true ∧ u.pwr.keepBy = ownerCode r)) ∧
    (s.pwr.keepEntry = true → s.pwr.wakeHeld = none →
      Gives (.keepEntryDone t) s (fun u => u.pwr.st = .keep ∧ u.pwr.inReset = true ∧ u.r RTC.PWRON_STATE = 0 ∧ u.general = [] ∧
        u.rtc.offUntil = some ((s.tick t).up + 1000000 * s.aon RTC.MIN_OFF_MS) ∧ u.fuses = s.fuses)) ∧
    (∀ (src : Fin 256) (n : Nat), s.watchSlot src = some n → n < 32 → s.pwr.keepEntry = false → s.rtc.wakeAt ≠ some (s.tick t).up →
      (s.pwr.st = .doze → ¬ (32 ≤ src.val ∧ src.val ≤ 71) →
        Gives (.newtWake t src) s (fun u => u.pwr.st = .run ∧ u.r NWT.WAKE_SRC = src.val ∧ u.r NWT.WAKE_SLOT = n ∧
          u.r NWT.WAKE_VALID = 1 ∧ u.r NWT.WAKE_FROM = 1)) ∧
      (∀ e, s.pwr.st = .keep → aonSource src = true → s.rtc.wakeHeld = false → s.rtc.offUntil = some e → (s.tick t).up < e →
        Gives (.newtWake t src) s (fun u => u.rtc.wakeHeld = true ∧ u.pwr.st = .keep ∧ u.r NWT.WAKE_SRC = src.val ∧
          u.r NWT.WAKE_FROM = 2))) ∧
    (∀ e, s.rtc.offUntil = some e → e ≤ (s.tick t).up →
      (s.rtc.wakeHeld = true → Gives (.minOffEnd t) s (fun u => u.r PCR.RESET_CAUSE = 2 ∧ u.r RTC.PWRON_STATE = 1 ∧ u.pwr.inReset = false)) ∧
      (s.rtc.wakeHeld = false → Gives (.minOffEnd t) s (fun u => u.rtc.offUntil = none ∧ u.regs = s.regs)))

/-- R12, R19, R522 to R525, R528, R534, R536: a PLL in lock lets its island run, a loss stops it and counts; the oldest write that the gateway took reaches the AON island; DOZE gates SOLVE and LOOP and RUN returns them; supply and temperature readings land in their registers; the operating time is saved; the wear of a second adds at the hottest reading. Where the rules leave a point open it follows the model's reading (assumptions 8 and 19). -/
def Obligations.IslandsPowerAndWear : Prop :=
  (∀ (t : Nat) (isl : Island) (s : State),
     Gives (.pllLocked t isl) s (fun u => u.pwr.pll.getLsbD (islandBit isl) = true ∧ u.regs = s.regs) ∧
     (s.pwr.pll.getLsbD (islandBit isl) = true →
       Gives (.pllLoss t isl) s (fun u => u.pwr.pll.getLsbD (islandBit isl) = false ∧
         u.r PCR.PLL_LOSSES = min (s.r PCR.PLL_LOSSES + 1) (2 ^ PCR.PLL_LOSSES.width - 1))) ∧
     (∀ v rest, s.aonQ = (9, 0x098, v) :: rest →
       Gives (.aonWriteDelivery t) s (fun u => u.aonQ = rest ∧ u.aon RTC.CAL = v.toNat % 1024 ∧ u.regs = s.regs))) ∧
  (∀ (t : Nat) (s : State),
     (∀ r, Opened s r ⟨0, 0⟩ → s.pwr.st = .doze → Gives (.pwrRun t r) s (fun u => u.pwr.st = .run ∧
       u.pwr.clk.getLsbD (islandBit .solve) = true ∧ u.pwr.clk.getLsbD (islandBit .loop) = true)) ∧
     (∀ r, Opened s r ⟨0, 0⟩ → s.pwr.st = .run → s.r DCH.ROLE = 0 → s.enabled 16 = false → (∀ c, c < 4 → s.enabled 18 c = false) →
       Gives (.pwrDoze t r) s (fun u => u.pwr.st = .doze ∧ u.islandOn .solve = false ∧ u.islandOn .loop = false)) ∧
     (s.islandOn .keep = true → ∀ (rail : Fin 5) (mv : BitVec 16), Gives (.supplyWarn t rail mv) s (fun u => u.r PCR.RAIL_MV 0 rail = mv.toNat)) ∧
     (s.islandOn .keep = true → ∀ temps, Gives (.tempSample t temps) s (fun u => ∀ i, i < 4 → u.r PCR.TEMP 0 i = bits PCR.TEMP.width (temps.getD i 0))) ∧
     (s.islandOn .keep = true → s.mramOk = true → Gives (.opSecSave t) s (fun u => u.pwr.hrOpSec = (s.tick t).opSec ∧ u.regs = s.regs)) ∧
     (s.islandOn .keep = true → ∀ h : Int, (∀ i, i < 4 → s.ri PCR.TEMP 0 i ≤ h) → (∃ i, i < 4 ∧ s.ri PCR.TEMP 0 i = h) →
       Gives (.lifeTick t) s (fun u => u.pwr.lifeFrac = (s.pwr.lifeFrac + ageFactor h) % (3600 * 65536) ∧
         u.r KPR.LIFE_USED = min (s.r KPR.LIFE_USED + (s.pwr.lifeFrac + ageFactor h) / (3600 * 65536)) (2 ^ KPR.LIFE_USED.width - 1))))

/-- R532, R533, R548, R549: a device that times out fails; one that is OK beside another goes OUT on REMOVE; one that is OUT resynchronises on INSERT, chunk by chunk, and is OK after the last; the counters clear. Where the rules leave a point open it follows the model's reading (assumptions 20 and 112). -/
def Obligations.PersistentStore : Prop :=
  ∀ (t : Nat) (s : State),
    (∀ d : Fin 2, s.r PST.DEV0_STATE = 1 → s.r PST.DEV1_STATE = 1 →
      (s.islandOn .keep = true → Gives (.mramTimeout t d) s (fun u => u.r (devFld d) = 2 ∧ u.r (devFld (1 - d.val)) = 1 ∧
        u.r PST.TIMEOUTS = min (s.r PST.TIMEOUTS + 1) (2 ^ PST.TIMEOUTS.width - 1))) ∧
      (∀ r, Opened s r ⟨3, 0⟩ → Gives (.pstRemove t r d) s (fun u => u.r (devFld d) = 3 ∧ u.r (devFld (1 - d.val)) = 1))) ∧
    (∀ d : Fin 2, s.islandOn .keep = true → s.pwr.fixTimes = [] → Gives (.mramReadFix t d) s (fun u =>
      u.r PST.READ_FIX = min (s.r PST.READ_FIX + 1) (2 ^ PST.READ_FIX.width - 1) ∧ u.pwr.fixTimes = [(d.val, (s.tick t).opSec)])) ∧
    (∀ (d : Fin 2) r, Opened s r ⟨3, 0⟩ → s.r (devFld d) = 3 → s.r (devFld (1 - d.val)) = 1 →
      Gives (.pstInsert t r d) s (fun u => u.r (devFld d) = 4 ∧ u.r PST.CHECKPOINT = 0 ∧ u.pwr.chunks = 0)) ∧
    (s.islandOn .keep = true → s.r PST.DEV0_STATE = 4 → s.r SEC.FW_STATE = 0 →
      (s.pwr.chunks < 255 → Gives (.resyncChunkDone t) s (fun u => u.pwr.chunks = s.pwr.chunks + 1 ∧ u.r PST.CHECKPOINT = s.pwr.chunks ∧
        u.r PST.DEV0_STATE = 4)) ∧
      (s.pwr.chunks = 255 → Gives (.resyncChunkDone t) s (fun u => u.r PST.DEV0_STATE = 1))) ∧
    (∀ r, Takes s r ⟨1, 0⟩ → Gives (.kprCtrClr t r) s (fun u => u.r KPR.CE_TOTAL = 0 ∧ u.r KPR.UE_TOTAL = 0 ∧ u.r KPR.POISON_COUNT = 0 ∧
      u.r KPR.KPR_RESETS = 0 ∧ u.r KPR.LIFE_USED = s.r KPR.LIFE_USED)) ∧
    (∀ r, Takes s r ⟨3, 0⟩ → Gives (.pstCtrClr t r) s (fun u => u.r PST.READ_FIX = 0 ∧ u.r PST.TIMEOUTS = 0 ∧ u.r PST.REFUSED = 0 ∧
      u.r PST.DEV0_STATE = s.r PST.DEV0_STATE ∧ u.r PST.DEV1_STATE = s.r PST.DEV1_STATE))

/-- R535, R539 to R542: the scrub counts corrected and uncorrectable words; the first row group of a bank that is due is copied to the lowest free spare of its bank, and the commit enters it in the repair map. Where the rules leave a point open it follows the model's reading (assumption 100). -/
def Obligations.ScrubAndRepair : Prop :=
  ∀ (t : Nat) (s : State), s.islandOn .keep = true →
    (∀ (mem : ScrubMem) (a : Nat), Gives (.scrubRead t mem a .corrected) s (fun u =>
      u.r KPR.CE_TOTAL = min (s.r KPR.CE_TOTAL + 1) (2 ^ KPR.CE_TOTAL.width - 1) ∧ u.r KPR.UE_TOTAL = s.r KPR.UE_TOTAL)) ∧
    (∀ (mem : ScrubMem) (a : Nat), mem ∈ [ScrubMem.solver, .general, .data, .ret, .image, .ring, .patch] →
      Gives (.scrubRead t mem a .uncorrectable) s (fun u =>
        u.r KPR.UE_TOTAL = min (s.r KPR.UE_TOTAL + 1) (2 ^ KPR.UE_TOTAL.width - 1) ∧
        (mem = .solver → (0, a) ∈ u.pwr.bad) ∧ (mem = .data → (4, a) ∈ u.pwr.bad) ∧ (mem = .ret → (5, a) ∈ u.pwr.bad))) ∧
    (∀ (bank : Fin 64) (grp : Fin 256) (n : Nat) (rest : List Nat), s.pwr.copying = none → (s.tick t).groupDue bank grp = true →
      (∀ g, g < grp.val → (s.tick t).groupDue bank g = false) →
      s.freeSpareGroups bank = n :: rest →
      Gives (.rowgroupReplace t bank grp) s (fun u => ∃ m, u.pwr.copying = some m ∧ m.bank = bank.val ∧ m.grp = grp.val ∧
        m.target = 256 + n ∧ u.regs = s.regs)) ∧
    (∀ m, s.pwr.copying = some m → s.mramOk = true → 256 ≤ m.target →
      Gives (.rowgroupCommit t) s (fun u => u.pwr.copying = none ∧ { m with committed := true } ∈ u.pwr.repair))

/-! ### The solver: sets, lanes, windows -/

/-- R103, R105, R108, R109: the set commands take a slot through its states, the check leaves its code, and a legal region value is taken while DSQ is disabled. Where the rules leave a point open it follows the model's reading (assumptions 36 and 105). -/
def Obligations.SetCommands : Prop :=
  ∀ (t : Nat) (r : Requester) (k : Slot) (s : State),
    (Takes s r dsqPage → s.isActive k = false →
      Gives (.setCheck t r k) s (fun u => (u.slotX k).st = .checking ∧ u.slotX (otherSlot k) = s.slotX (otherSlot k)) ∧
      Gives (.setClear t r k) s (fun u => (u.slotX k).st = .empty ∧ u.slotX (otherSlot k) = s.slotX (otherSlot k)) ∧
      ((s.slotX k).st = .armed → Gives (.setDisarm t r k) s (fun u => (u.slotX k).st = .checked ∧ u.slotX (otherSlot k) = s.slotX (otherSlot k))) ∧
      ((s.slotX k).st = .checked → Gives (.setArm t r k) s (fun u => (u.slotX k).st = .armed ∧ (u.slotX (otherSlot k)).st ≠ .armed))) ∧
    (Takes s r dsqPage → Gives (.setCmdNone t r k) s (fun u => u.dsq.named = (k == .b) ∧ u.slotX k = s.slotX k ∧
      u.slotX (otherSlot k) = s.slotX (otherSlot k))) ∧
    (∀ code item off, s.islandOn .solve = true → (s.slotX k).st = .checking →
      checkSet (s.slotBlob k) (s.slotRegion k).2
        [s.slotRegion .a, s.slotRegion .b, (s.r DSQ.WORK_BASE, s.r DSQ.WORK_SIZE), (s.r DSQ.RESULT_BASE, s.r DSQ.RESULT_SIZE)]
        (s.r DSQ.PLAN_PERIOD_US) (s.r DSQ.ACTIVE) (s.r DSQ.SOLVER_CAP) (s.r DSQ.WORK_SIZE) (s.r DSQ.RESULT_SIZE)
        (s.setSigned k (s.slotBlob k)) = (code, item, off) → code < 256 →
      Gives (.setCheckDone t k) s (fun u => u.r DSQ.CHECK_CODE = code ∧ (u.slotX k).st = (if code = 0 then .checked else .empty))) ∧
    (∀ (i : Fin 8) (v : Word), Opened s r dsqPage → s.enabled 16 = false → (regionFld i).rng.take 32 v.toNat = v.toNat →
      Gives (.setRegionWrite t r i v) s (fun u => u.r (regionFld i) = v.toNat))

/-- R6, R21, R69, R76: a word written to general SRAM lands there, least significant byte first, and every register and the solver SRAM are unchanged; a 64-bit word that a host port writes lands byte by byte where its byte enables say: in general SRAM, and in solver SRAM for the owner while DSQ is disabled and no set is active. Every other byte is unchanged. Where the rules leave a point open it follows the model's reading (assumption 110). -/
def Obligations.SramWrites : Prop :=
  (∀ (t : Nat) (r : Requester) (a : BitVec 32) (v : Word) (s : State), 0x48000000 ≤ a.toNat → a.toNat < 0x49000000 → a.toNat % 4 = 0 →
     s.islandOn .host = true →
     Gives (.registerWrite t r a 0xF#4 v) s (fun u =>
       (∀ b, sget 0 u.general b = if a.toNat ≤ b ∧ b < a.toNat + 4 then v.extractLsb' (8 * (b - a.toNat)) 8 else sget 0 s.general b) ∧
       u.regs = s.regs ∧ u.solver = s.solver ∧ u.fuses = burnOnly s.fuses s.fuses)) ∧
  (∀ (t : Nat) (p : Fin 2) (a : BitVec 32) (be : BitVec 8) (v : BitVec 64) (s : State), a.toNat % 8 = 0 →
     (0x48000000 ≤ a.toNat → a.toNat < 0x49000000 → s.islandOn .host = true →
       Gives (.solverSramHostWrite t p a [(be, v)]) s (fun u => u.solver = s.solver ∧ u.fuses = s.fuses ∧
         ∀ b, sget 0 u.general b = if a.toNat ≤ b ∧ b < a.toNat + 8 ∧ be.getLsbD (b - a.toNat) = true
           then v.extractLsb' (8 * (b - a.toNat)) 8 else sget 0 s.general b)) ∧
     (0x40200000 ≤ a.toNat → a.toNat < 0x44000000 → a.toNat < s.r DSQ.SOLVER_CAP → s.islandOn .solve = true → s.enabled 16 = false →
       s.h HDR.OWNER dsqPage = ownerCode (.host p) → s.on DSQ.ACTIVE_VALID = false →
       Gives (.solverSramHostWrite t p a [(be, v)]) s (fun u => u.general = s.general ∧ u.fuses = s.fuses ∧
         ∀ b, sget 0 u.solver b = if a.toNat ≤ b ∧ b < a.toNat + 8 ∧ be.getLsbD (b - a.toNat) = true
           then v.extractLsb' (8 * (b - a.toNat)) 8 else sget 0 s.solver b)))

/-- R138, R140, R146: lanes are withdrawn by command, retirements are committed, failures decay, spares are tested; the conflict counters follow and clear. Where the rules leave a point open it follows the model's reading (assumptions 43 and 45). -/
def Obligations.LaneCare : Prop :=
  ∀ (t : Nat) (s : State),
    (∀ (r : Requester) (l : Fin 18), Opened s r ⟨17, l⟩ → s.isWithdrawn l = false → s.r DSA.STATE l ≠ 2 →
      Gives (.retireCmd t r l) s (fun u => u.isWithdrawn l = true)) ∧
    (∀ (l : Fin 18) w, s.islandOn .keep = true → s.mramOk = true → s.dsq.withdrawn.find? (fun w => w.1 == l.val && !w.2.2.1) = some w →
      Gives (.retireCommit t l) s (fun u => l.val ∈ u.pwr.laneRetired ∧ (l.val, w.2.1, true, w.2.2.2) ∈ u.dsq.withdrawn)) ∧
    Gives (.failCountDecay t) s (fun u => ∀ l, l < 18 → s.r DSA.FAIL_COUNT l < 4 →
      u.r DSA.FAIL_COUNT l = if 0 < s.r DSA.FAIL_COUNT l ∧ s.r DSA.FAIL_COUNT l < 3 ∧ sget 0 s.pwr.laneAt l + 86400 ≤ (s.tick t).opSec
        then s.r DSA.FAIL_COUNT l - 1 else s.r DSA.FAIL_COUNT l) ∧
    (s.islandOn .solve = true → s.enabled 16 = true → Gives (.spareSelftest t) s (fun u => u.dsq.testing = s.freeSpares ∧ u.regs = s.regs)) ∧
    (∀ l : Fin 18, s.islandOn .solve = true → s.dsq.testing.contains l.val = true →
      Gives (.spareSelftestDone t l true) s (fun u => u.r DSA.TEST_PASS l = 1 ∧ u.dsq.testing.contains l.val = false ∧
        u.r DSA.STATE l = s.r DSA.STATE l) ∧
      Gives (.spareSelftestDone t l false) s (fun u => u.r DSA.STATE l = 2 ∧ u.r DSA.CAUSE l = 2)) ∧
    (∀ f : BitVec 16, s.islandOn .solve = true → Gives (.conflictWindow t f) s (fun u => u.r DSQ.CONFLICT_WIN = f.toNat ∧
      (s.r DSQ.CONFLICT_PEAK < 2 ^ 16 → u.r DSQ.CONFLICT_PEAK = max (s.r DSQ.CONFLICT_PEAK) f.toNat) ∧
      (f.toNat ≤ 8192 → u.r DSQ.HIGH_RUN = 0))) ∧
    (∀ r, Takes s r dsqPage → Gives (.dsqCtrClr t r) s (fun u => u.r DSQ.CONFLICT_WIN = 0 ∧ u.r DSQ.HIGH_RUN = 0 ∧
      u.r DSQ.CONFLICT_PEAK = 0 ∧ u.r DSQ.REG_TOTAL = 0 ∧ u.r DSQ.SAT_TOTAL = 0 ∧ u.r DSQ.REEXEC_TOTAL = 0 ∧ u.r DSQ.ABANDONED = 0 ∧
      u.r DSQ.PERIOD_SEQ = s.r DSQ.PERIOD_SEQ))

/-- R26, R111 to R113, R133 to R136, R141: a snapshot counts the period; a window starts its descriptor; a block whose checks pass counts for its lane, and one whose checks fail is counted and executed again or ends the descriptor, as the tiles of a product and the rows of a factor say; batches and the deadline move it on; the window's end publishes it. Where the rules leave a point open it follows the model's reading (assumptions 38 and 43). -/
def Obligations.SolveWindows : Prop :=
  ∀ (t : Nat) (s : State), s.islandOn .solve = true →
    (s.enabled 16 = true → (s.tick t).isSnapshotTime = true →
      Gives (.snapshotInstant t) s (fun u => u.r DSQ.PERIOD_SEQ = (s.r DSQ.PERIOD_SEQ + 1) % 2 ^ 32 ∧ u.dsq.tk = (s.tick t).now)) ∧
    (s.dsq.nextDesc ≠ 0 → s.enabled 16 = true → s.on DSQ.ACTIVE_VALID = true → s.dsq.liveDone = true → s.dsq.withdrawn = [] →
      s.r DSQ.ACTIVE ≠ 0 → 0 < s.setBlob.budget s.dsq.nextDesc → s.dsq.nextOpen ≤ (s.tick t).now →
      s.dsq.nextOpen < s.dsq.tk + 1000 * s.r DSQ.PLAN_PERIOD_US - 10000 →
      Gives (.descWindowOpen t) s (fun u => ∃ r, u.dsq.run = some r ∧ r.desc = s.dsq.nextDesc ∧ r.phase = .setup ∧
        r.opened = (s.tick t).now)) ∧
    (∀ r, s.dsq.run = some r → r.finished = false →
      (∀ (l : Fin 18) (st : Fin 257) (blk : Nat), r.phase = .r → r.redo = [] → s.holdsBlock r l blk = true →
        (∀ res, res ≠ .memError →
          (s.blockOk r st res = true → Gives (.blockDone t l ⟨st, blk⟩ res false) s (fun u =>
            u.r DSA.BLOCKS l = min (s.r DSA.BLOCKS l + 1) (2 ^ DSA.BLOCKS.width - 1) ∧ u.dsq.run = some r)) ∧
          (s.blockOk r st res = false → Gives (.blockDone t l ⟨st, blk⟩ res false) s (fun u => ∃ q, u.dsq.run = some q ∧
            q.chkFails = min 65535 (r.chkFails + 1) ∧ (q.checkFailed = true ∨ ∃ b ∈ q.redo, b.blk = blk ∧ b.tried = [l.val] ∧ b.lane ≠ l.val)))) ∧
        (∀ tiles, s.blockOk r st (.product tiles) = tiles.all tileOk) ∧
        (∀ rows, r.desc = 1 → s.blockOk r st (.factor rows) =
          (s.setBlob.seProb s.dsq.wZero).factorOk ((rows.map (·.toArray)).toArray)) ∧
        Gives (.blockDone t l ⟨st, blk⟩ .memError false) s (fun u => ∃ q, u.dsq.run = some q ∧ q.memError = true ∧ q.phase = .final)) ∧
      (r.boundary = false → Gives (.svuBatchDone t true) s (fun u => u.dsq.run = some { r with svuRetry := false })) ∧
      (r.svuRetry = false → Gives (.svuBatchDone t false) s (fun u => u.dsq.run = some { r with svuRetry := true })) ∧
      (r.phase = .setup → r.iter = 0 → (s.tick t).deadlineAt r ≤ (s.tick t).now →
        Gives (.iterDeadline t) s (fun u => ∃ q, u.dsq.run = some q ∧ q.noIterate = true ∧ q.phase = .final))) ∧
    (∀ r, s.dsq.run = some r → r.finished = true → r.desc = 2 → r.closes ≤ (s.tick t).now →
      Gives (.descWindowEnd t) s (fun u => u.dsq.run = none ∧ ∃ st g, u.ho.published = some ((s.tick t).now, st, g)))

/-! ### From plan to field -/

/-- R155, R163, R170, R171: TRIP_SET and a rise of TRIP_REQ latch plants, TRIP_STATE and HO_EVT_PEND clear by ones; POT_W3 commits the entry addressed with HI not below LO and advances INDEX, POT_TAG and POT_COUNT go to the bank addressed, each while the bank is not in use. Where the rules leave a point open it follows the model's reading (assumptions 48 and 49). -/
def Obligations.TripsAndTable : Prop :=
  ∀ (t : Nat) (r : Requester) (v : Word) (s : State),
    (Takes s r dsqPage →
      Gives (.tripSet t r v) s (fun u => u.r DSQ.TRIP_STATE = (BitVec.ofNat 32 (s.r DSQ.TRIP_STATE) ||| v).toNat ∧ u.general = s.general) ∧
      Gives (.tripStateClear t r v) s (fun u => u.r DSQ.TRIP_STATE = (BitVec.ofNat 32 (s.r DSQ.TRIP_STATE) &&& ~~~v).toNat) ∧
      Gives (.hoEvtClear t r v) s (fun u => u.r DSQ.HO_EVT_PEND = (BitVec.ofNat 32 (s.r DSQ.HO_EVT_PEND) &&& ~~~v).toNat % 2 ^ DSQ.HO_EVT_PEND.width ∧
        u.r DSQ.TRIP_STATE = s.r DSQ.TRIP_STATE)) ∧
    (s.islandOn .solve = true → (s.tick t).onSeries 10 0 = true → Gives (.tripReqSample t) s (fun u => u.ho.reqPrev = s.dwordSeen 0x2802 ∧
      u.r DSQ.TRIP_STATE = (BitVec.ofNat 32 (s.r DSQ.TRIP_STATE) ||| (s.dwordSeen 0x2802 &&& ~~~s.ho.reqPrev)).toNat)) ∧
    (Takes s r dsqPage → s.bankInUse (s.r DSQ.BANK) = false → s.r DSQ.INDEX < 1024 →
      Gives (.potEntryCommit t r v) s (fun u =>
        u.potWord (s.r DSQ.BANK) (s.r DSQ.INDEX) 0 = s.r DSQ.POT_W0 ∧ u.potWord (s.r DSQ.BANK) (s.r DSQ.INDEX) 1 = s.r DSQ.POT_W1 ∧
        u.potWord (s.r DSQ.BANK) (s.r DSQ.INDEX) 2 = s.r DSQ.POT_W2 ∧
        u.potWord (s.r DSQ.BANK) (s.r DSQ.INDEX) 3 = (if v.toInt < (BitVec.ofNat 32 (s.r DSQ.POT_W2)).toInt then s.r DSQ.POT_W2 else v.toNat) ∧
        u.r DSQ.INDEX = (s.r DSQ.INDEX + 1) % 1024) ∧
      Gives (.potTagWrite t r v) s (fun u => u.potTag (s.r DSQ.BANK) = v ∧ u.ho.pot = s.ho.pot) ∧
      Gives (.potCountWrite t r v) s (fun u => u.potCount (s.r DSQ.BANK) = min 1024 (v.toNat % 2048) ∧ u.ho.pot = s.ho.pot))

/-- R151 to R154, R157, R165: an accepted dispatch plan comes into force at its apply instant, a plan that is not accepted counts; a stage boundary puts the next stage in force; a selected contingency is applied; the values and rates of the next plan instant are prepared, and the values in force stay as they are. Where the rules leave a point open it follows the model's reading (assumptions 47 and 48). -/
def Obligations.PlanInForce : Prop :=
  ∀ (t : Nat) (s : State), s.follows = false → s.islandOn .solve = true →
    (∀ i st g p bank, (s.tick t).isApply = true → s.ho.pause = false → s.ho.paused = false → s.ho.published = some (i, st, g) →
      s.ho.stagedPlan = some p → s.on DSQ.ACTIVE_VALID = true → i + 100000 ≤ (s.tick t).now →
      (s.gradeOk g = true → s.bankOf p.setId = some bank → s.r DSQ.MODE ≠ 0 → s.heldBack p = false → p.src = 0 →
        Gives (.applyInstant t) s (fun u => u.ho.inForce = some { p with bank := bank } ∧ u.r DSQ.MODE = 1 ∧ u.r DSQ.RED_RUN = 0 ∧
          u.r DSQ.TRIP_STATE = 0 ∧ u.r DSQ.PLAN_SEQ_IN_FORCE = p.seq.toNat)) ∧
      (s.gradeOk g = false → s.r DSQ.MODE = 0 →
        Gives (.applyInstant t) s (fun u => u.r DSQ.MODE = 0 ∧ u.r DSQ.GOOD_RUN = 0 ∧
          u.r DSQ.RED_RUN = min (s.r DSQ.RED_RUN + 1) (2 ^ DSQ.RED_RUN.width - 1)))) ∧
    (∀ p bank, s.r DSQ.MODE ≠ 0 → (s.tick t).isApply = false → (s.tick t).contIsDue = false → (s.tick t).stageOver = true →
      s.ho.inForce = some p → planDone p (s.tick t).now = false → s.bankOf p.setId = some bank →
      Gives (.stageBoundary t) s (fun u => u.r DSQ.STAGE = planStage p (s.tick t).now % 2 ^ DSQ.STAGE.width ∧ u.ho.inForce = some p ∧
        u.r DSQ.MODE = s.r DSQ.MODE ∧ u.ho.values = ((s.tick t).takeValues p (planStage p (s.tick t).now) bank).vals)) ∧
    (∀ i d part p bank, s.ho.selected = some (i, d, part) → s.ho.selPlan = some p → d ≤ (s.tick t).now → s.r DSQ.MODE ≠ 0 →
      (s.tick t).isApply = false → (s.tick t).usable (s.tick t).now p = true → s.bankOf p.setId = some bank → p.src ≠ 0 →
      Gives (.contApplied t) s (fun u => u.r DSQ.MODE = 3 ∧ u.ho.inForce = some { p with grade := contGrade p part, bank := bank } ∧
        u.ho.selected = none)) ∧
    (∀ edge, (s.tick t).nextInstant = some edge →
      Gives (.stagePrepare t) s (fun u => u.ho.staged = ((s.tick t).foresee edge).ho.values ∧
        u.ho.ratesStaged = ((s.tick t).foresee edge).ho.rates ∧ u.ho.values = s.ho.values ∧ u.regs = s.regs)) ∧
    (∀ p bank edge, s.enabled 16 = false → s.ho.selected = none → s.ho.inForce = some p → s.r DSQ.MODE ≠ 0 →
      edge = planEnd p (planStage p (s.tick t).now) → (s.tick t).now < edge → planDone p edge = false → planStage p edge ≠ s.r DSQ.STAGE →
      s.bankOf p.setId = some bank →
      Gives (.stagePrepare t) s (fun u => u.ho.staged = (s.planValues p (planStage p edge) bank).vals)) ∧
    ((s.tick t).nextInstant = none → Gives (.stagePrepare t) s (fun u => u.ho = s.ho ∧ u.regs = s.regs))

/-! ### Control loops -/

/-- R175 to R177, R200: a sample latches the inputs of a loop that runs and queues its update; a free cluster starts the oldest with the configuration as it then stands; the update ends with its instant in the slot; the output instant applies the value. Where the rules leave a point open it follows the model's reading (assumptions 27 and 29). -/
def Obligations.LoopUpdates : Prop :=
  ∀ (t : Nat) (s : State), s.islandOn .loop = true →
    (∀ g : Fin 512, (s.tick t).sampleDue g = true → s.on CLE.PENDING (g.val / 128) = false →
      (s.cluster (g.val / 128)).tune.apply = none → (s.loop g).clearReq = false →
      (s.cluster (g.val / 128)).queue.any (fun j => j.slot == g.val % 128) = false → s.enabled 18 (g.val / 128) = true →
      s.follows = false → cfgMode (s.lw g 0) ≠ 0 → s.loopBit g 13 = false →
      Gives (.loopSample t g) s (fun u => (u.cluster (g.val / 128)).queue =
        queueJob (s.cluster (g.val / 128)).queue ((s.tick t).latchJob g) ∧ u.regs = s.regs ∧ u.loopMem = s.loopMem)) ∧
    (∀ (c : Fin 4) j rest, (s.cluster c).running = none → (s.cluster c).queue = j :: rest →
      Gives (.loopUpdateStart t c) s (fun u => (u.cluster c).running = some { j with
          cfg := s.config (128 * c.val + j.slot), fresh := (s.loop (128 * c.val + j.slot)).fresh, gains := (s.loop (128 * c.val + j.slot)).gains } ∧
        (u.cluster c).queue = rest ∧ (u.loop (128 * c.val + j.slot)).fresh = false ∧ (u.loop (128 * c.val + j.slot)).gains = false ∧
        u.regs = s.regs)) ∧
    (∀ (c : Fin 4) j, (s.cluster c).running = some j → j.slot < 128 →
      Gives (.loopUpdateDone t c) s (fun u => (u.cluster c).running = none ∧ u.lw (128 * c.val + j.slot) 63 = j.t % 1000000000 ∧
        u.lw (128 * c.val + j.slot) 62 = (s.lw (128 * c.val + j.slot) 62 + 1) % 2 ^ 32)) ∧
    (∀ (g : Fin 512) o rest, (s.loop g).outs = o :: rest → o.1 ≤ (s.tick t).now → -(2 ^ 31) ≤ o.2 → o.2 < 2 ^ 31 →
      Gives (.loopOutput t g) s (fun u => (u.loop g).outs = rest ∧ u.lwi g 51 = o.2))

/-- R206, R210 to R212, R179: the staging copy follows LOOP_SEL and DISCARD; an accepted commit waits for the sample; live fields go to both copies; RC_CLEAR is asked for and done; the delay takes its nearest legal value; the worst-case run ends valid. Where the rules leave a point open it follows the model's reading (assumption 22). -/
def Obligations.LoopConfiguration : Prop :=
  ∀ (t : Nat) (r : Requester) (c : Fin 4) (s : State),
    (Takes s r ⟨18, c⟩ → s.on CLE.PENDING c = false →
      (∀ slot : Fin 128, Gives (.loopSel t r c slot) s (fun u => u.r CLE.LOOP_SEL c = slot.val ∧
        (∀ w, w < 48 → u.staged c w = s.lw (128 * c.val + slot.val) w) ∧ u.loopMem = s.loopMem)) ∧
      Gives (.discard t r c) s (fun u => (∀ w, w < 48 → u.staged c w = s.lw (128 * c.val + s.r CLE.LOOP_SEL c) w) ∧ u.loopMem = s.loopMem) ∧
      (s.commitCause c (s.r CLE.LOOP_SEL c) = 0 → (s.cluster c).tune.running = false → cfgMode (s.staged c 0) ≠ 0 →
        Gives (.commit t r c) s (fun u => u.r CLE.PENDING c = 1 ∧ u.r CLE.WORST_VALID c = 0 ∧ (u.cluster c).worstRun = true ∧
          u.loopMem = s.loopMem)) ∧
      Gives (.rcClear t r c) s (fun u => (u.loop (128 * c.val + s.r CLE.LOOP_SEL c)).clearReq = true ∧ u.rcMem = s.rcMem)) ∧
    (Takes s r ⟨18, c⟩ →
      (∀ v : Word, Gives (.liveFieldWrite t r c .spFixed v) s (fun u => u.lw (128 * c.val + s.r CLE.LOOP_SEL c) 9 = v.toNat ∧
          u.staged c 9 = v.toNat) ∧
        Gives (.liveFieldWrite t r c .manOut v) s (fun u => u.lw (128 * c.val + s.r CLE.LOOP_SEL c) 36 = v.toNat ∧
          u.staged c 36 = v.toNat) ∧
        Gives (.outDelayWrite t r c v) s (fun u => u.r CLE.OUT_DELAY_US c = max 2 (min 10000 (v.toNat % 2 ^ 14)) ∧
          u.r CLE.WORST_VALID c = 0))) ∧
    (∀ g : Fin 512, s.islandOn .loop = true → Gives (.rcClearDone t g) s (fun u => (u.loop g).clearing = false ∧ u.regs = s.regs)) ∧
    (s.islandOn .loop = true → (s.cluster c).worstRun = true → Gives (.worstRunDone t c) s (fun u => (u.cluster c).worstRun = false ∧ u.r CLE.WORST_VALID c = 1))

/-- R207, R208: a tune starts on a loop that runs with a good PV, is aborted, times out, and its gains are asked for. Where the rules leave a point open it follows the model's reading (assumption 23). -/
def Obligations.Tuning : Prop :=
  ∀ (t : Nat) (r : Requester) (c : Fin 4) (s : State),
    (Takes s r ⟨18, c⟩ →
      ((s.cluster c).tune.running = false → cfgMode (s.lw (128 * c.val + s.r CLE.TUNE_LOOP c) 0) ≠ 0 →
        s.loopBit (128 * c.val + s.r CLE.TUNE_LOOP c) 3 = false →
        Gives (.tuneStart t r c) s (fun u => u.r CLE.STATE c = 1 ∧ u.r CLE.CAUSE c = 0 ∧ u.r CLE.CYCLES c = 0 ∧
          (u.cluster c).tune.running = true ∧ (u.cluster c).tune.slot = s.r CLE.TUNE_LOOP c)) ∧
      ((s.cluster c).tune.running = true →
        Gives (.tuneAbort t r c) s (fun u => u.r CLE.STATE c = 3 ∧ u.r CLE.CAUSE c = 5 ∧ (u.cluster c).tune.running = false)) ∧
      (s.r CLE.STATE c = 2 → (s.on CLE.PENDING c = false ∨ s.r CLE.LOOP_SEL c ≠ s.r CLE.TUNE_LOOP c) →
        Gives (.tuneApply t r c) s (fun u => (u.cluster c).tune.apply = some (s.r CLE.TUNE_LOOP c) ∧ u.loopMem = s.loopMem))) ∧
    (s.islandOn .loop = true → (s.cluster c).tune.running = true → (s.cluster c).tune.lastSwitch + 1000000000 * s.r CLE.TIMEOUT_S c ≤ (s.tick t).now →
      Gives (.tuneTimeout t c) s (fun u => u.r CLE.STATE c = 3 ∧ u.r CLE.CAUSE c = 3 ∧ (u.cluster c).tune.running = false))

/-! ### Logic engines: instructions -/

/-- R253, R254: the bit instructions that change the bit accumulator alone, with a bit operand of the engine's own island, and the brackets. Nothing but the running bank changes. Where the rules leave a point open it follows the model's reading (assumptions 63 and 81). -/
def Obligations.LogicBits : Prop :=
  ∀ (e : Fin 4) (s : State), s.islandOn .logic = true →
    (∀ am a u v, BitOperand s e am a u v →
      (formOk 0x01 am a = true → Gives (.ld e am a) s (Ends e { u.bank e with ba := v } u)) ∧
      (formOk 0x02 am a = true → Gives (.ldn e am a) s (Ends e { u.bank e with ba := !v } u)) ∧
      (formOk 0x03 am a = true → Gives (.and_ e am a) s (Ends e { u.bank e with ba := (u.bank e).ba && v } u)) ∧
      (formOk 0x04 am a = true → Gives (.andn e am a) s (Ends e { u.bank e with ba := (u.bank e).ba && !v } u)) ∧
      (formOk 0x05 am a = true → Gives (.or_ e am a) s (Ends e { u.bank e with ba := (u.bank e).ba || v } u)) ∧
      (formOk 0x06 am a = true → Gives (.orn e am a) s (Ends e { u.bank e with ba := (u.bank e).ba || !v } u)) ∧
      (formOk 0x07 am a = true → Gives (.xor_ e am a) s (Ends e { u.bank e with ba := xor (u.bank e).ba v } u)) ∧
      (formOk 0x08 am a = true → Gives (.xorn e am a) s (Ends e { u.bank e with ba := xor (u.bank e).ba (!v) } u))) ∧
    Gives (.nop e) s (Ends e (s.bank e) s) ∧
    Gives (.not_ e) s (Ends e { s.bank e with ba := !(s.bank e).ba } s) ∧
    Gives (.setb e) s (Ends e { s.bank e with ba := true } s) ∧
    Gives (.clrb e) s (Ends e { s.bank e with ba := false } s) ∧
    ((s.bank e).branch.length < 16 →
      Gives (.aParen e) s (Ends e { s.bank e with branch := ((s.bank e).ba, .and) :: (s.bank e).branch } s) ∧
      Gives (.anParen e) s (Ends e { s.bank e with branch := ((s.bank e).ba, .andNot) :: (s.bank e).branch } s) ∧
      Gives (.oParen e) s (Ends e { s.bank e with branch := ((s.bank e).ba, .or) :: (s.bank e).branch } s) ∧
      Gives (.onParen e) s (Ends e { s.bank e with branch := ((s.bank e).ba, .orNot) :: (s.bank e).branch } s) ∧
      Gives (.xParen e) s (Ends e { s.bank e with branch := ((s.bank e).ba, .xor) :: (s.bank e).branch } s)) ∧
    (∀ v op rest, (s.bank e).branch = (v, op) :: rest →
      Gives (.closeParen e) s (Ends e { s.bank e with
        ba := (match op with
          | .and => v && (s.bank e).ba
          | .andNot => v && !(s.bank e).ba
          | .or => v || (s.bank e).ba
          | .orNot => v || !(s.bank e).ba
          | .xor => xor v (s.bank e).ba),
        branch := rest } s))

/-- R253, R247: the bit stores. The bit operand that the address names takes its value where the program may write, BA follows FP, FN and TAS, and every other word of the data and retentive memories and every other bit of the output image is unchanged; a bit of the output image that is another engine's output keeps its value. Where the rules leave a point open it follows the model's reading (assumptions 78 and 81). -/
def Obligations.LogicStores : Prop :=
  ∀ (e : Fin 4) (am : AM) (a : BitVec 22) (s s1 u : State) (p : Nat × Nat) (v : Bool), s.islandOn .logic = true →
    ((s.begin e).operand e .bitWrite am a = (s1, some p) → s1.readBitAt e p = (u, v) →
      (formOk 0x09 am a = true → Gives (.st e am a) s (fun x => BitStored e p (some (s.bank e).ba) u x ∧
        (x.bank e).ba = (s.bank e).ba ∧ (x.bank e).pc = (s.bank e).pc + 1)) ∧
      (formOk 0x0A am a = true → Gives (.stn e am a) s (fun x => BitStored e p (some (!(s.bank e).ba)) u x ∧
        (x.bank e).ba = (s.bank e).ba ∧ (x.bank e).pc = (s.bank e).pc + 1)) ∧
      (formOk 0x0B am a = true → (s.bank e).ba = true → Gives (.set_ e am a) s (fun x => BitStored e p (some true) u x ∧
        (x.bank e).ba = true ∧ (x.bank e).pc = (s.bank e).pc + 1)) ∧
      (formOk 0x0C am a = true → (s.bank e).ba = true → Gives (.instrR e am a) s (fun x => BitStored e p (some false) u x ∧
        (x.bank e).ba = true ∧ (x.bank e).pc = (s.bank e).pc + 1)) ∧
      (formOk 0x0D am a = true → Gives (.fp e am a) s (fun x => BitStored e p (some (s.bank e).ba) u x ∧
        (x.bank e).ba = ((s.bank e).ba && !v) ∧ (x.bank e).pc = (s.bank e).pc + 1)) ∧
      (formOk 0x0E am a = true → Gives (.fn_ e am a) s (fun x => BitStored e p (some (s.bank e).ba) u x ∧
        (x.bank e).ba = (!(s.bank e).ba && v) ∧ (x.bank e).pc = (s.bank e).pc + 1))) ∧
    ((s.begin e).operand e .tas am a = (s1, some p) → s1.readBitAt e p = (u, v) → formOk 0x0F am a = true →
      Gives (.tas e am a) s (fun x => BitStored e p (some true) u x ∧ (x.bank e).ba = v ∧ (x.bank e).pc = (s.bank e).pc + 1)) ∧
    ((s.bank e).ba = false →
      (formOk 0x0B am a = true → Gives (.set_ e am a) s (Ends e (s.bank e) s)) ∧
      (formOk 0x0C am a = true → Gives (.instrR e am a) s (Ends e (s.bank e) s)))

/-- R259, R260, R253, R282: the timer and counter instructions on a number in the window, with input BA. They read the words of the record that they use with the forces applied, write the record as it stands, and leave its other words alone. Only the record of that number changes in the data memory. Where the rules leave a point open it follows the model's reading (assumption 76). -/
def Obligations.LogicTimers : Prop :=
  ∀ (e : Fin 4) (am : AM) (a : BitVec 22) (s u : State) (n : Nat), s.islandOn .logic = true →
    let i := (s.bank e).ba
    (Numbered s e .timer am a [0, 1, 2, 3] u n →
      let x := u.timer n
      let now := u.ct / timerUnit x.base % 2 ^ 32
      let lim := min x.preset (2 ^ 31 - 1)
      let mk : Nat → Nat := fun m => (now + 2 ^ 32 - m) % 2 ^ 32
      let rest : State → Prop := fun z => (z.timerHeld n).inMem = i ∧ (z.timerHeld n).preset = (u.timerHeld n).preset ∧
        (z.timerHeld n).base = x.base ∧ (z.bank e).ba = (z.timerHeld n).q ∧ RecordOnly (timerWord n 0) u z
      (formOk 0x20 am a = true → Gives (.ton e am a) s (fun z =>
        let y := z.timerHeld n
        y.mark = (if i && !x.inMem then now else x.mark) ∧ y.elapsed = (if i then min lim (mk y.mark) else 0) ∧
        y.q = (i && decide (lim ≤ y.elapsed)) ∧ y.running = (i && !y.q) ∧ rest z)) ∧
      (formOk 0x21 am a = true → Gives (.tof e am a) s (fun z =>
        let y := z.timerHeld n
        (i = true → y.q = true ∧ y.running = false ∧ y.elapsed = 0 ∧ y.mark = x.mark) ∧
        (i = false → y.mark = (if x.inMem then now else x.mark) ∧
          (x.inMem = true ∨ x.running = true → y.elapsed = min lim (mk y.mark) ∧ y.running = decide (y.elapsed < lim) ∧
            y.q = (x.q && decide (y.elapsed < lim))) ∧
          (x.inMem = false → x.running = false → y.elapsed = x.elapsed ∧ y.q = x.q ∧ y.running = false)) ∧ rest z)) ∧
      (formOk 0x22 am a = true → Gives (.tp e am a) s (fun z =>
        let y := z.timerHeld n
        y.mark = (if i && !x.inMem && !x.running then now else x.mark) ∧
        (x.running = true ∨ (i = true ∧ x.inMem = false) → y.elapsed = min lim (mk y.mark) ∧ y.running = decide (y.elapsed < lim)) ∧
        (x.running = false → (i = false ∨ x.inMem = true) → y.running = false ∧ y.elapsed = (if i then x.elapsed else 0)) ∧
        y.q = y.running ∧ rest z)) ∧
      (formOk 0x23 am a = true → Gives (.tonr e am a) s (fun z =>
        let y := z.timerHeld n
        y.elapsed = (if i && x.inMem then min lim (x.elapsed + mk x.mark) else x.elapsed) ∧ y.mark = (if i then now else x.mark) ∧
        y.q = decide (lim ≤ y.elapsed) ∧ rest z))) ∧
    (Numbered s e .timer am a [0] u n → formOk 0x24 am a = true → Gives (.trst e am a) s (fun z =>
      let x := u.timer n
      let y := z.timerHeld n
      (i = true → y.elapsed = 0 ∧ y.q = false ∧ y.running = false ∧ y.inMem = false ∧ y.preset = (u.timerHeld n).preset ∧ y.mark = x.mark) ∧
      (i = false → z.dataMem = u.dataMem) ∧ (z.bank e).ba = i ∧ RecordOnly (timerWord n 0) u z)) ∧
    (Numbered s e .timer am a [] u n → formOk 0x25 am a = true → Gives (.tpre e am a) s (fun z =>
      ∀ w, z.dword w = if w = timerWord n 1 then (s.bank e).acc1 else u.dword w)) ∧
    (Numbered s e .counter am a [0, 1, 2] u n → formOk 0x28 am a = true → Gives (.ctu e am a) s (fun z =>
      let fl := u.dwordSeen (counterWord n 2)
      z.dword (counterWord n 0) = (if i && !fl.getLsbD 0 then
        BitVec.ofInt 32 (min (2 ^ 31 - 1) ((u.dwordSeen (counterWord n 0)).toInt + 1)) else u.dword (counterWord n 0)) ∧
      (z.dword (counterWord n 2)).getLsbD 0 = i ∧ (z.dword (counterWord n 2)).getLsbD 1 = fl.getLsbD 1 ∧
      z.dword (counterWord n 1) = u.dword (counterWord n 1) ∧
      (z.bank e).ba = decide ((z.dwordSeen (counterWord n 1)).toInt ≤ (z.dwordSeen (counterWord n 0)).toInt) ∧
      RecordOnly (counterWord n 0) u z)) ∧
    (Numbered s e .counter am a [0, 2] u n → formOk 0x29 am a = true → Gives (.ctd e am a) s (fun z =>
      let fl := u.dwordSeen (counterWord n 2)
      z.dword (counterWord n 0) = (if i && !fl.getLsbD 1 then
        BitVec.ofInt 32 (max (-(2 ^ 31)) ((u.dwordSeen (counterWord n 0)).toInt - 1)) else u.dword (counterWord n 0)) ∧
      (z.dword (counterWord n 2)).getLsbD 1 = i ∧ (z.dword (counterWord n 2)).getLsbD 0 = fl.getLsbD 0 ∧
      z.dword (counterWord n 1) = u.dword (counterWord n 1) ∧
      (z.bank e).ba = decide ((z.dwordSeen (counterWord n 0)).toInt ≤ 0) ∧ RecordOnly (counterWord n 0) u z)) ∧
    (Numbered s e .counter am a [] u n →
      (formOk 0x2A am a = true → Gives (.crst e am a) s (fun z =>
        ∀ w, z.dword w = if i = true ∧ w = counterWord n 0 then 0 else u.dword w)) ∧
      (formOk 0x2C am a = true → Gives (.cpre e am a) s (fun z =>
        ∀ w, z.dword w = if w = counterWord n 1 then (s.bank e).acc1 else u.dword w))) ∧
    (Numbered s e .counter am a (if i then [1] else []) u n → formOk 0x2B am a = true → Gives (.cld e am a) s (fun z =>
      ∀ w, z.dword w = if i = true ∧ w = counterWord n 0 then u.dwordSeen (counterWord n 1) else u.dword w))

/-- R253, R255: the word instructions with an operand of the engine's own island or a constant: the accumulators, BA and the flags take the values of the table, and nothing but the running bank changes. Where DIV divides −2³¹ by −1 the spec states no quotient: ACC1 takes a free value (assumption 6). -/
def Obligations.LogicWords : Prop :=
  ∀ (e : Fin 4) (am : AM) (a : BitVec 22) (s u : State) (w : Word), s.islandOn .logic = true → WordOperand s e am a u w →
    let b := u.bank e
    let x := b.acc1.toInt
    let y := w.toInt
    let sum : Int → Bank := fun v => { b with
      acc1 := BitVec.ofInt 32 (max (-(2 ^ 31)) (min (2 ^ 31 - 1) v)),
      status := if -(2 ^ 31) ≤ v ∧ v ≤ 2 ^ 31 - 1 then b.status else b.status ||| 1#5 }
    (formOk 0x30 am a = true → Gives (.l e am a) s (Ends e { b with acc2 := b.acc1, acc1 := w } u)) ∧
    (formOk 0x34 am a = true → Gives (.add e am a) s (Ends e (sum (x + y)) u)) ∧
    (formOk 0x35 am a = true → Gives (.sub e am a) s (Ends e (sum (x - y)) u)) ∧
    (formOk 0x36 am a = true → Gives (.mul e am a) s (Ends e (sum (x * y)) u)) ∧
    (formOk 0x37 am a = true →
      (w ≠ 0 → ¬ (x = -(2 ^ 31) ∧ y = -1) → Gives (.div e am a) s (Ends e { b with acc1 := BitVec.ofInt 32 (x.tdiv y) } u)) ∧
      (w = 0 → Gives (.div e am a) s (Ends e { b with
        acc1 := if x < 0 then 0x80000000#32 else 0x7FFFFFFF#32, status := b.status ||| 2#5 } u)) ∧
      (x = -(2 ^ 31) → y = -1 → Gives (.div e am a) s (fun z => ∃ v, Ends e { b with acc1 := v } u z))) ∧
    (formOk 0x38 am a = true →
      (w ≠ 0 → Gives (.mod_ e am a) s (Ends e { b with acc1 := BitVec.ofInt 32 (x.tmod y) } u)) ∧
      (w = 0 → Gives (.mod_ e am a) s (Ends e { b with acc1 := 0, status := b.status ||| 2#5 } u))) ∧
    (formOk 0x39 am a = true → Gives (.mulq e am a) s (Ends e (sum ((x * y + 2 ^ 15) / 2 ^ 16)) u)) ∧
    (formOk 0x3A am a = true →
      (w = 0 → Gives (.divq e am a) s (Ends e { b with
        acc1 := if x < 0 then 0x80000000#32 else 0x7FFFFFFF#32, status := b.status ||| 2#5 } u)) ∧
      (w ≠ 0 → Gives (.divq e am a) s (Ends e { b with
        acc1 := BitVec.ofInt 32 (max (-(2 ^ 31)) (min (2 ^ 31 - 1) (divRound (x * 2 ^ 16) y))) } u))) ∧
    (formOk 0x3B am a = true → Gives (.andw e am a) s (Ends e { b with acc1 := b.acc1 &&& w } u)) ∧
    (formOk 0x3C am a = true → Gives (.orw e am a) s (Ends e { b with acc1 := b.acc1 ||| w } u)) ∧
    (formOk 0x3D am a = true → Gives (.xorw e am a) s (Ends e { b with acc1 := b.acc1 ^^^ w } u)) ∧
    (formOk 0x3E am a = true → Gives (.shl e am a) s (Ends e { b with acc1 := b.acc1 <<< (w.extractLsb' 0 5).toNat } u)) ∧
    (formOk 0x3F am a = true → Gives (.shr e am a) s (Ends e { b with acc1 := b.acc1 >>> (w.extractLsb' 0 5).toNat } u)) ∧
    (formOk 0x40 am a = true → Gives (.asr e am a) s (Ends e { b with acc1 := b.acc1.sshiftRight (w.extractLsb' 0 5).toNat } u)) ∧
    (formOk 0x41 am a = true → Gives (.min_ e am a) s (Ends e { b with acc1 := BitVec.ofInt 32 (min x y) } u)) ∧
    (formOk 0x42 am a = true → Gives (.max_ e am a) s (Ends e { b with acc1 := BitVec.ofInt 32 (max x y) } u)) ∧
    (formOk 0x48 am a = true → Gives (.ceq e am a) s (Ends e { b with ba := decide (x = y) } u)) ∧
    (formOk 0x49 am a = true → Gives (.cne e am a) s (Ends e { b with ba := decide (x ≠ y) } u)) ∧
    (formOk 0x4A am a = true → Gives (.cgt e am a) s (Ends e { b with ba := decide (x > y) } u)) ∧
    (formOk 0x4B am a = true → Gives (.cge e am a) s (Ends e { b with ba := decide (x ≥ y) } u)) ∧
    (formOk 0x4C am a = true → Gives (.clt e am a) s (Ends e { b with ba := decide (x < y) } u)) ∧
    (formOk 0x4D am a = true → Gives (.cle e am a) s (Ends e { b with ba := decide (x ≤ y) } u))

/-- R253, R255, R256: the instructions that act on the accumulators alone, the store T into the program's windows, and a block move of words of the data memory, which moves one word at each run and resumes from the next. Where the rules leave a point open it follows the model's reading (assumption 75). -/
def Obligations.LogicAccumulators : Prop :=
  ∀ (e : Fin 4) (s : State), s.islandOn .logic = true →
    let b := s.bank e
    let x := b.acc1.toInt
    let sum : Int → Bank := fun v => { b with
      acc1 := BitVec.ofInt 32 (max (-(2 ^ 31)) (min (2 ^ 31 - 1) v)),
      status := if -(2 ^ 31) ≤ v ∧ v ≤ 2 ^ 31 - 1 then b.status else b.status ||| 1#5 }
    (∀ k : BitVec 22, Gives (.lhi e k) s (Ends e { b with acc1 := k.extractLsb' 0 16 ++ b.acc1.extractLsb' 0 16 } s)) ∧
    Gives (.tak e) s (Ends e { b with acc1 := b.acc2, acc2 := b.acc1 } s) ∧
    Gives (.neg e) s (Ends e (sum (-x)) s) ∧
    Gives (.abs e) s (Ends e (sum |x|) s) ∧
    Gives (.itq e) s (Ends e (sum (x * 2 ^ 16)) s) ∧
    Gives (.qti e) s (Ends e { b with acc1 := BitVec.ofInt 32 ((x + 2 ^ 15) / 2 ^ 16) } s) ∧
    (∀ am a u i, formOk 0x32 am a = true → (s.begin e).operand e .wordWrite am a = (u, some (4, i)) →
      inWin (u.windows (u.home e)).d i = true → deviceWord i = false →
      Gives (.t_ e am a) s (fun z => (∀ w, z.dword w = if w = i then b.acc1 else u.dword w) ∧ z.retMem = u.retMem ∧
        z.regs = u.regs ∧ (z.bank e).pc = b.pc + 1 ∧ z.solver = u.solver ∧ z.general = u.general)) ∧
    (∀ am a i j k, formOk 0x57 am a = true → k < b.acc2.toNat % 2 ^ 16 →
      (b.move = some (k, (4, i)) ∨ (b.move = none ∧ k = 0 ∧ am ≠ .ind ∧ ((s.begin e).operand e .wordWrite am a).2 = some (4, i))) →
      areaIdx (b.acc1.toNat % 2 ^ 22) = (4, j) → reachable .word .ind (4, j + k) = true → reachable .wordWrite am (4, i + k) = true →
      inWin (s.windows (s.home e)).d (i + k) = true → deviceWord (i + k) = false → s.pwr.bad = [] → s.forces = [] →
      Gives (.bmov e am a) s (fun z => (∀ w, z.dword w = if w = i + k then s.dword (j + k) else s.dword w) ∧ z.retMem = s.retMem ∧
        (z.bank e).acc1 = b.acc1 ∧ (z.bank e).acc2 = b.acc2 ∧
        (z.bank e).move = (if k + 1 < b.acc2.toNat % 2 ^ 16 then some (k + 1, (4, i)) else none) ∧
        (z.bank e).pc = (if k + 1 < b.acc2.toNat % 2 ^ 16 then b.pc else b.pc + 1)))

/-- R253, R254, R262: jumps, calls, returns, END, SIG and PRI. -/
def Obligations.LogicFlow : Prop :=
  ∀ (e : Fin 4) (k : BitVec 22) (s : State), s.islandOn .logic = true →
    let b := s.bank e
    let goes : Bank → Bool → State → Prop := fun b' taken u =>
      u.bank e = { b' with pc := if taken then (b.pc + 1 + k.toInt).toNat else b.pc + 1 } ∧ EngineOnly e s u
    (0 ≤ (b.pc : Int) + 1 + k.toInt →
      Gives (.jmp e k) s (goes b true) ∧
      Gives (.jc e k) s (goes b b.ba) ∧
      Gives (.jcn e k) s (goes b (!b.ba)) ∧
      Gives (.loop e k) s (goes { b with acc2 := b.acc2 - 1 } (decide (b.acc2 - 1 ≠ 0))) ∧
      (b.calls.length < 8 → Gives (.call e k) s (goes { b with calls := (b.pc + 1) :: b.calls } true))) ∧
    (∀ pc rest, b.calls = pc :: rest → Gives (.ret e) s (fun u => u.bank e = { b with pc := pc, calls := rest } ∧ EngineOnly e s u)) ∧
    ((∀ i, b.task = some i → (s.task e i).kind = .periodic) → (s.eng e).frozen = [] → (s.eng e).waiting = [] → s.on EIC.OFFER_VALID 0 e = false → s.r LGE.CHG_STATE (s.home e) ≠ 5 →
      Gives (.end_ e) s (fun u => (u.eng e).cur = none ∧ u.r LGE.IDLE e = 1 ∧ u.dataMem = s.dataMem)) ∧
    Gives (.sig e k) s (fun u => u.toEic = s.toEic ++ [84 + (k.extractLsb' 0 3).toNat] ∧ u.bank e = { b with pc := b.pc + 1 } ∧ u.regs = s.regs) ∧
    ((s.eng e).waiting = [] → Gives (.pri e k) s (fun u => u.bank e = { b with prio := max (s.level e) (k.extractLsb' 0 4).toNat, pc := b.pc + 1 } ∧
      u.dataMem = s.dataMem))

/-- R256: a read that leaves the island makes its instruction wait; with the response the instruction completes with the word read. Where the rules leave a point open it follows the model's reading (assumption 80). -/
def Obligations.RemoteReads : Prop :=
  ∀ (e : Fin 4) (am : AM) (a : BitVec 22) (t : Nat) (s s1 : State) (p : Nat × Nat), s.islandOn .logic = true →
    (formOk 0x30 am a = true → am ≠ .imm → (s.begin e).operand e .word am a = (s1, some p) → remote p.1 = true →
      Gives (.l e am a) s (fun u => (u.eng e).wait = some (.l e am a, p) ∧ u.bank e = s1.bank e ∧ EngineOnly e s1 u)) ∧
    ((s.eng e).wait = some (.l e am a, p) → p.1 = 8 → s.islandOn .net = true → s.forces = [] →
      Gives (.remoteReadResponse t e) s (fun u => (u.eng e).wait = none ∧
        u.bank e = { s.bank e with acc2 := (s.bank e).acc1, acc1 := s.siWord p.2, pc := (s.bank e).pc + 1 } ∧ EngineOnly e s u))

/-- R275: an instruction in a form that the OPCODE or OPERAND check of a load refuses never runs: the model refuses it, with the name of that check. Where the rules leave a point open it follows the model's reading (assumption 73). -/
def Obligations.LoadCheckStops : Prop :=
  ∀ (c : Instr) (s : State) (op : Nat) (am : AM) (a : BitVec 22), c.logicForm = some (op, am, a) → formOk op am a = false →
    exec c s = .refused .loadCheck

/-! ### Logic engines: tasks, starts, changes, forces -/

/-- R262 to R268, R271, R286, R287: a release at an instant of its series starts a task on an idle engine or is dropped and counted, a free cycle starts once CYC_MIN_US has passed, a delivered source is claimed and enters its task, an engine that fails stops, and a test decides on its return. Where the rules leave a point open it follows the model's reading (assumptions 64, 65 and 71). -/
def Obligations.LogicTasks : Prop :=
  ∀ (t : Nat) (e : Fin 4) (s : State), (s.eng e).hostedBy = none → s.islandOn .logic = true →
    (∀ task, s.engineRuns e = true → (s.task e task).kind = .periodic → task < (s.prog e).tasks.length →
      (s.tick t).onSeries (s.task e task).periodUs (s.task e task).phaseUs = true → sget none (s.eng e).released task ≠ some (s.tick t).now →
      ((s.eng e).cur = none → (s.eng e).frozen = [] → (s.eng e).waiting = [] →
        Gives (.taskRelease t e task) s (fun u => (u.eng e).cur = some (s.task e task).prio ∧ (u.bank e).task = some task ∧
          (u.bank e).pc = (s.task e task).entry ∧ (u.bank e).status = 0 ∧ (u.bank e).branch = [] ∧ (u.bank e).calls = [] ∧
          u.dataMem = s.dataMem ∧ u.retMem = s.retMem)) ∧
      (∀ since, (s.eng e).waiting = [(task, since)] →
        Gives (.taskRelease t e task) s (fun u => u.r LGE.OVERRUNS e = min (s.r LGE.OVERRUNS e + 1) (2 ^ 32 - 1) ∧
          sget 0 (u.eng e).overruns task = min 65535 (sget 0 (s.eng e).overruns task + 1) ∧ (u.eng e).waiting = (s.eng e).waiting ∧
          (u.eng e).cur = (s.eng e).cur))) ∧
    (∀ i, s.engineRuns e = true → (s.eng e).cur = none → (s.eng e).frozen = [] → (s.eng e).waiting = [] → (s.tick t).cycleDue e = true →
      (List.range (s.prog e).tasks.length).find? (fun i => ((s.prog e).tasks.getD i {}).kind == .cyclic) = some i →
      Gives (.freeCycleStart t e) s (fun u => (u.eng e).cur = some 0 ∧ (u.bank e).task = some i ∧
        (u.bank e).pc = (s.task e i).entry ∧ (u.eng e).cycleAt = some (s.tick t).up)) ∧
    (∀ i, s.engineRuns e = true → s.on EIC.OFFER_VALID 0 e = true → s.aboveCur e (s.r EIC.PRIO 0 (s.r EIC.OFFER 0 e)) = true →
      (List.range (s.prog e).tasks.length).find? (fun i => ((s.prog e).tasks.getD i {}).kind == .event &&
        ((s.prog e).tasks.getD i {}).source == s.r EIC.OFFER 0 e) = some i →
      Gives (.taskEntry t e) s (fun u => (u.src (s.r EIC.OFFER 0 e)).st = .active ∧ (u.src (s.r EIC.OFFER 0 e)).claimedBy = some (e : Nat) ∧
        u.r EIC.OFFER_VALID 0 e = 0 ∧ (u.eng e).cur = some (s.r EIC.PRIO 0 (s.r EIC.OFFER 0 e)) ∧ (u.bank e).task = some i ∧
        (u.bank e).pc = (s.task e i).entry)) ∧
    (4 ≤ s.r LGE.RESERVE 0 →
      (∀ l i, (s.eng e).cur = some l → (s.eng e).frozen = [] → (sget {} (s.eng e).banks l).task = some i →
        (sget {} (s.eng e).banks l).began + 1000 * (s.prog e).wdUs < (s.tick t).up →
        Gives (.watchdog t e) s (fun u => u.r LGE.RUN_STATE e = 3 ∧ (u.eng e).cur = none ∧ (u.eng e).waiting = [] ∧
          u.dataMem = s.dataMem)) ∧
      Gives (.engineFail t e .selfTest) s (fun u => u.r LGE.RUN_STATE e = 3 ∧ (u.eng e).cur = none ∧ u.dataMem = s.dataMem ∧
        u.progMem = s.progMem)) ∧
    (s.islandOn .keep = true → (s.eng e).testing = true →
      Gives (.engineTestDone t e true) s (fun u => (u.eng e).testing = false ∧ u.r LGE.RUN_STATE e = 0 ∧
        u.r LGE.RESERVE 0 = if s.on LGE.REARM 0 then e.val else s.r LGE.RESERVE 0) ∧
      Gives (.engineTestDone t e false) s (fun u => (u.eng e).testing = false ∧ (u.r KPR.ENG_RETIRED).testBit e = true))

/-- R276, R280, R288, R293: WARM resets timers and counters, COLD clears the words of the windows, STOP leaves the memories; a capture of the retentive words gets the next sequence number, its CRC and the place of the older copy; the standby program slot becomes the active one; the counters of a page clear. Where the rules leave a point open it follows the model's reading (assumption 69). -/
def Obligations.LogicStarts : Prop :=
  ∀ (t : Nat) (r : Requester) (e : Fin 4) (s : State),
    (Takes s r ⟨21, e⟩ → s.mayStart e = true → (s.eng e).hostedBy = none →
      ((s.eng e).image.tasks = [] → (s.eng e).image.inits = [] → s.r LGE.CHG_STATE e ≠ 5 →
        Gives (.restartWarm t r e) s (fun u => u.r LGE.RUN_STATE e = 2 ∧ (u.eng e).startKind = 1 ∧ u.retMem = s.retMem ∧
          ∀ n, n < 4096 → inWin (s.windows e).t n = true → (u.timerHeld n).elapsed = 0 ∧ (u.timerHeld n).q = false ∧
            (u.timerHeld n).running = false ∧ (u.timerHeld n).inMem = false ∧ (u.timerHeld n).base = (s.timerHeld n).base ∧
            (u.timerHeld n).preset = (s.timerHeld n).preset) ∧
        Gives (.restartCold t r e) s (fun u => u.r LGE.RUN_STATE e = 2 ∧ (u.eng e).startKind = 2 ∧
          (∀ w, inWin (s.windows e).d w = true → deviceWord w = false → u.dword w = 0) ∧
          (∀ w, inWin (s.windows e).r w = true → u.rword w = 0) ∧ (∀ w, inWin (s.windows e).r w = false → u.rword w = s.rword w))) ∧
      Gives (.restartStop t r e) s (fun u => u.r LGE.RUN_STATE e = 0 ∧ (u.eng e).cur = none ∧
        (s.r LGE.CHG_STATE e ≠ 5 → u.dataMem = s.dataMem ∧ u.retMem = s.retMem))) ∧
    (s.islandOn .logic = true → s.pwr.retLast + 1000000 * s.r LGE.RET_PERIOD_MS ≤ (s.tick t).up → s.r PST.DEV0_STATE = 1 → (∀ d, d < 4 → ∀ l, (sget {} (s.eng d).banks l).wroteR = false) →
      Gives (.retCapture t) s (fun u => u.r LGE.RET_SEQ = (s.r LGE.RET_SEQ + 1) % 2 ^ 32 ∧ u.retMem = s.retMem ∧
        u.pwr.retCopies = { seq := (s.r LGE.RET_SEQ + 1) % 2 ^ 32, words := s.retMem, crc := crc32c (retBytes s.retMem) } ::
          s.pwr.retCopies.take 1)) ∧
    (s.islandOn .keep = true → s.pwr.progDirty = true → s.mramOk = true → Gives (.progSlotCommitted t) s (fun u => u.pwr.progSlot = s.progMem ∧
      u.pwr.progDirty = false ∧ u.pwr.progBegin = false ∧ u.pwr.progActive = 1 - s.pwr.progActive ∧ u.pwr.progStandby.words = s.pwr.progSlot)) ∧
    (Takes s r ⟨21, e⟩ → Gives (.lgeCtrClr t r e) s (fun u => u.r LGE.CYCLE_LAST_US e = 0 ∧ u.r LGE.CYCLE_MAX_US e = 0 ∧
      u.r LGE.OVERRUNS e = 0 ∧ u.r LGE.ADDR_ERRS e = 0 ∧ u.r LGE.WIN_ERRS e = 0 ∧ u.r LGE.CALL_ERRS e = 0 ∧ u.r LGE.UNBOUND e = 0 ∧
      (u.eng e).overruns = [] ∧ u.r LGE.RUN_STATE e = s.r LGE.RUN_STATE e))

/-- R275, R278, R279: the states of an online change: copy, check, arm, disarm, clear; a write of the staged region returns to EMPTY; an engine with no activation switches at once. Where the rules leave a point open it follows the model's reading (assumptions 67 and 72). -/
def Obligations.LogicChange : Prop :=
  ∀ (t : Nat) (r : Requester) (e : Fin 4) (s : State),
    (Takes s r ⟨21, e⟩ →
      (s.r LGE.CHG_STATE e = 0 → Gives (.chgCopy t r e) s (fun u => u.r LGE.CHG_STATE e = 1 ∧ u.progMem = s.progMem)) ∧
      (s.r LGE.CHG_STATE e = 2 → Gives (.chgCheck t r e) s (fun u => u.r LGE.CHG_STATE e = 3 ∧ u.progMem = s.progMem)) ∧
      (s.r LGE.CHG_STATE e = 4 → (s.eng (s.runner e)).cur ≠ none → Gives (.chgArm t r e) s (fun u => u.r LGE.CHG_STATE e = 5 ∧ u.engines = s.engines)) ∧
      (∀ im, s.r LGE.CHG_STATE e = 4 → s.runner e = e → (s.eng e).cur = none → (s.eng e).frozen = [] → (s.eng e).newImage = some im →
        im.inits = [] →
        Gives (.chgArm t r e) s (fun u => u.r LGE.CHG_STATE e = 0 ∧ (u.eng e).image = im ∧ (u.eng e).newImage = none ∧
          (u.eng e).startKind = 4 ∧ u.dataMem = s.dataMem)) ∧
      (s.r LGE.CHG_STATE e = 5 → Gives (.chgDisarm t r e) s (fun u => u.r LGE.CHG_STATE e = 4 ∧ u.engines = s.engines)) ∧
      Gives (.chgClear t r e) s (fun u => u.r LGE.CHG_STATE e = 0 ∧ (u.eng e).newImage = none ∧ (u.eng e).image = (s.eng e).image) ∧
      (∀ v : Word, Gives (.chgRegionWrite t r e .loadDst v) s (fun u => u.r LGE.CHG_STATE e = 0 ∧ u.r LGE.LOAD_DST e % 256 = 0) ∧
        Gives (.chgRegionWrite t r e .loadWords v) s (fun u => u.r LGE.CHG_STATE e = 0 ∧ (u.eng e).newImage = none))) ∧
    (s.islandOn .logic = true → s.r LGE.CHG_STATE e = 1 →
      Gives (.chgCopyDone t e) s (fun u => u.r LGE.CHG_STATE e = 2 ∧ u.general = s.general ∧
        ∀ i, i < s.r LGE.LOAD_WORDS e → s.r LGE.LOAD_DST e + i < 524288 →
          sget 0 u.progMem (s.r LGE.LOAD_DST e + i) = BitVec.ofNat 32 (leVal (s.gen (s.r LGE.LOAD_SRC e + 4 * i) 4)))) ∧
    (∀ code off, s.islandOn .logic = true → s.r LGE.CHG_STATE e = 3 → s.checkImage e (s.r LGE.LOAD_DST e) (s.r LGE.LOAD_WORDS e) = (code, off) → code < 256 → off < 2 ^ 20 →
      Gives (.chgCheckDone t e) s (fun u => u.r LGE.CHG_CODE e = code ∧ u.r LGE.CHG_OFFSET e = off ∧
        u.r LGE.CHG_STATE e = if code = 0 then 4 else 0)) ∧
    Gives (.chgRegionWrite t r e .region 0) s (fun u => u.r LGE.CHG_STATE e = 0 ∧ (u.eng e).newImage = none)

/-- R281, R284, R290, R293: a force is committed and ends, all end together; a word of the data memory is written through MEM_DATA; an input pin shows its level, inverted where INVERT = 1. Where the rules leave a point open it follows the model's reading (assumptions 68 and 70). -/
def Obligations.LogicForces : Prop :=
  ∀ (t : Nat) (r : Requester) (e : Fin 4) (s : State),
    (Opened s r ⟨21, 0⟩ →
      Gives (.forceOnWrite t r true) s (fun u =>
        sget {} u.forces (s.r LGE.FORCE_IDX) = ⟨s.r LGE.FORCE_ADDR, s.on LGE.FORCE_KIND, BitVec.ofNat 32 (s.r LGE.FORCE_VAL), true, false⟩ ∧ u.dataMem = s.dataMem) ∧
      Gives (.forceOnWrite t r false) s (fun u => (sget {} u.forces (s.r LGE.FORCE_IDX)).on = false ∧ u.dataMem = s.dataMem ∧
        ∀ i, i ≠ s.r LGE.FORCE_IDX → sget {} u.forces i = sget {} s.forces i) ∧
      Gives (.forceClrAll t r) s (fun u => (∀ i, (sget {} u.forces i).on = false) ∧ u.dataMem = s.dataMem)) ∧
    (∀ v : Word, Takes s r ⟨21, e⟩ → s.r LGE.MEM_ADDR e / 2 ^ 18 = 4 → deviceWord (s.r LGE.MEM_ADDR e % 2 ^ 18) = false →
      Gives (.memDataWrite t r e v) s (fun u =>
        (∀ w, u.dword w = if w = s.r LGE.MEM_ADDR e % 2 ^ 18 then v else s.dword w) ∧ u.retMem = s.retMem)) ∧
    (∀ (pin : Fin 64) (lvl : Bool), s.islandOn .field = true → s.on GIO.DIR 0 pin = false →
      Gives (.gioInputChange t pin lvl) s (fun u =>
        (u.pins64 GIO.PIN_IN).testBit pin = xor lvl (s.on GIO.INVERT 0 pin) ∧
        ∀ n : Nat, n < 64 → n ≠ pin.val → (u.pins64 GIO.PIN_IN).testBit n = (s.pins64 GIO.PIN_IN).testBit n))

/-! ### Measurement and actuation -/

/-- R222 to R230: a filter output becomes the channel's value, limits, clock losses and stuck inputs show in the status, a trigger starts a SAR sequence or is dropped and counted, a conversion gives code and value, and edges, gates and timeouts drive the pulse inputs. Where the rules leave a point open it follows the model's reading (assumptions 28 and 55). -/
def Obligations.Measurements : Prop :=
  ∀ (t : Nat) (s : State), s.islandOn .field = true →
    (∀ (ch : Fin 32) (d : BitVec 32), s.sdOn ch = true → (sget {} s.sd ch).clkLost = false → (sget {} s.sd ch).stuck = false →
      ((sget {} s.sd ch).settle ≤ 1 → Gives (.sdFilterOutput t ch d) s (fun u =>
        u.ri MFE.RECORD 0 ch = sat 32 (onGrid (s.ri MFE.SD_GAIN 0 ch * sincNorm (min d.toNat (2 ^ (3 * (4 + s.r MFE.OSR 0 ch))))
          (4 + s.r MFE.OSR 0 ch) 24) (-39) (-16) + s.ri MFE.SD_OFFSET 0 ch) ∧ u.mfeBit ch 0 = false ∧ u.general = s.general)) ∧
      (1 < (sget {} s.sd ch).settle → Gives (.sdFilterOutput t ch d) s (fun u =>
        (sget {} u.sd ch).settle = (sget {} s.sd ch).settle - 1 ∧ u.regs = s.regs))) ∧
    (∀ (ch : Fin 32) (d : BitVec 32), s.sdOn ch = true →
      let n := sincNorm (min d.toNat (2 ^ (3 * (3 + s.r MFE.LIM_OSR 0 ch)))) (3 + s.r MFE.LIM_OSR 0 ch) 16
      s.ri MFE.LIM_LO 0 ch ≤ n → n ≤ s.ri MFE.LIM_HI 0 ch →
      Gives (.sdLimitOutput t ch d) s (fun u => (sget {} u.sd ch).limRun = 0 ∧ (sget {} u.sd ch).tripping = false ∧ u.mfeBit ch 2 = false)) ∧
    (∀ (grp : Fin 4) (i : Nat), i < 8 → s.r MFE.DIR 0 grp = 1 → s.sdOn (8 * grp.val + i) = true →
      Gives (.sdClockLoss t grp true) s (fun u => (sget {} u.sd (8 * grp.val + i)).clkLost = true ∧ u.mfeBit (8 * grp.val + i) 0 = true)) ∧
    (∀ (ch : Fin 32) (b : Bool), Gives (.sdDataStuck t ch b) s (fun u => (sget {} u.sd ch).stuck = b ∧ (sget {} u.sd ch).settle = 3 ∧
      (b = true → s.sdOn ch = true → u.mfeBit ch 0 = true))) ∧
    (∀ r, Takes s r ⟨19, 0⟩ → s.enabled 19 = true →
      (s.sarTrig false = 0 →
        (s.sar.runA = none → Gives (.sarStartA t r) s (fun u => u.sar.runA = some (0, (s.tick t).now))) ∧
        (s.sar.runA.isSome = true → Gives (.sarStartA t r) s (fun u => u.r MFE.OVERRUN_A = min (s.r MFE.OVERRUN_A + 1) (2 ^ 16 - 1) ∧ u.sar = s.sar))) ∧
      (s.sarTrig true = 0 → s.sar.runB = none → s.sar.converting = none →
        Gives (.sarStartB t r) s (fun u => u.sar.runB = some (0, (s.tick t).now) ∧ u.sar.converting = some (true, s.sarSlot true 0)))) ∧
    (s.sarTrig false = 1 → (s.tick t).onSeries (s.r MFE.PERIOD_US) (s.r MFE.PHASE_US) = true → s.enabled 19 = true → s.sar.runA = none →
      Gives (.sarTimeTrigger t) s (fun u => u.sar.runA = some (0, (s.tick t).now))) ∧
    (∀ (code : BitVec 16) (b : Bool) (c : Nat), s.sar.converting = some (b, c) → c < 8 → s.sar.convAt + 1000 ≤ (s.tick t).now →
      Gives (.sarConversionDone t code) s (fun u => u.r MFE.CODE 0 c = code.toNat ∧
        u.ri MFE.RECORD 0 (32 + c) = sat 32 (onGrid (s.ri MFE.SAR_GAIN 0 c * (code.toNat : Int)) (-32) (-16) + s.ri MFE.SAR_OFFSET 0 c) ∧
        u.mfeBit (32 + c) 0 = decide (code.toNat < s.r MFE.FAULT_LO 0 c ∨ s.r MFE.FAULT_HI 0 c < code.toNat))) ∧
    (∀ (ch : Fin 16) (fall : Bool), s.enabled 19 = true →
      (s.r MFE.EDGE 0 ch = 2 → Gives (.pulseEdge t ch fall) s (fun u =>
        (sget {} u.pulse ch).wraps = (sget {} s.pulse ch).wraps + 1 ∧ u.r MFE.STATUS 0 (40 + ch.val) = ((sget {} s.pulse ch).wraps + 1) % 2 ^ 32 ∧
        (u.r MFE.PULSE_FAULT).testBit ch = false)) ∧
      (∀ t0, (sget {} s.pulse ch).tRef = some t0 → (sget {} s.pulse ch).edges ≠ 0 → t0 < (sget {} s.pulse ch).tLast →
        Gives (.pulseGateEnd t ch) s (fun u => u.ri MFE.RECORD 0 (40 + ch.val) =
          sat 32 (divRound (s.ri MFE.P_GAIN 0 ch * (sget {} s.pulse ch).edges * 1000000000) (((sget {} s.pulse ch).tLast : Int) - t0) +
            s.ri MFE.P_OFFSET 0 ch * 65536) ∧ (sget {} u.pulse ch).edges = 0)) ∧
      ((sget {} s.pulse ch).tout = false → (sget {} s.pulse ch).tLast + 1000000 * s.r MFE.TMO_MS 0 ch ≤ (s.tick t).now →
        Gives (.pulseTimeout t ch) s (fun u => u.ri MFE.RECORD 0 (40 + ch.val) = 0 ∧ (sget {} u.pulse ch).tout = true ∧
          (s.on MFE.FAULT_ON_TMO 0 ch = true → (u.r MFE.PULSE_FAULT).testBit ch = true))))

/-- R231, R234 to R237: of the duties staged at least 40 ns before an update point the last one applies there, and the younger ones wait; a duty that stays away is lost and SAFE_DUTY applies; an active trip line latches, and a latched line whose cause is gone clears by a one. Where the rules leave a point open it follows the model's reading (assumptions 59 and 109). -/
def Obligations.Actuation : Prop :=
  ∀ (t : Nat) (s : State),
    (∀ o : Fin 24, s.islandOn .field = true → s.enabled 20 = true → s.pwmSecond o = false →
      let x : PwmX := sget {} s.pwm o
      let due := x.staged.filter (fun d => decide (d.1 + 40 ≤ (s.tick t).now))
      (∀ k, (s.tick t).pwmTick o 0 = some k → x.startAt ≠ some k → x.busy.getD 0 ≤ k →
        (∀ d, due.getLast? = some d →
          Gives (.pwmPeriodStart t o) s (fun u => u.r ACT.DUTY_APPLIED 0 o = d.2 % 2 ^ 16 ∧
            (sget {} u.pwm o).staged = x.staged.filter (fun d => decide ((s.tick t).now < d.1 + 40)) ∧ (sget {} u.pwm o).startAt = some k)) ∧
        (due = [] → x.lostNext = true →
          Gives (.pwmPeriodStart t o) s (fun u => u.r ACT.DUTY_APPLIED 0 o = s.r ACT.SAFE_DUTY 0 o % 2 ^ 16 ∧ (sget {} u.pwm o).staged = x.staged)) ∧
        (due = [] → x.lostNext = false →
          Gives (.pwmPeriodStart t o) s (fun u => u.r ACT.DUTY_APPLIED 0 o = s.r ACT.DUTY_APPLIED 0 o ∧ (sget {} u.pwm o).staged = x.staged))) ∧
      (∀ k d, x.startAt = some k → 4 * (s.tick t).now ≤ k + x.period / 2 → k + x.period / 2 < 4 * (s.tick t).now + 4 →
        s.r ACT.MODE 0 o = 2 → s.on ACT.UPDATE 0 o = true → due.getLast? = some d →
        Gives (.pwmCentre t o) s (fun u => u.r ACT.DUTY_APPLIED 0 o = d.2 % 2 ^ 16 ∧
          (sget {} u.pwm o).staged = x.staged.filter (fun d => decide ((s.tick t).now < d.1 + 40))))) ∧
    (∀ (o : Fin 24) (v : BitVec 16) r, Takes s r ⟨20, 0⟩ →
      let staged : State → Prop := fun u => u.r ACT.DUTY 0 o = v.toNat ∧ u.r ACT.DUTY_LOST 0 o = 0 ∧
        (sget {} u.pwm o).staged.getLast? = some ((s.tick t).now, v.toNat)
      (s.on ACT.DUTY_SRC 0 o = true → Gives (.dutyWrite t (.page r) o v) s staged) ∧
      (s.on ACT.DUTY_SRC 0 o = false → Gives (.dutyWrite t (.page r) o v) s (fun u => u.r ACT.DUTY 0 o = s.r ACT.DUTY 0 o ∧ u.pwm = s.pwm) ∧
        Gives (.dutyWrite t .route o v) s staged)) ∧
    (∀ o : Fin 24, s.islandOn .field = true → s.r ACT.DUTY_TMO 0 o ≠ 0 → s.r ACT.DUTY_TMO 0 o ≤ (sget {} s.pwm o).silent → s.enabled 20 = true →
      (sget {} s.pwm o).lostNext = false → (sget {} s.pwm o).onSafe = false → s.r DCH.ROLE = 0 → (sget {} s.pwm o).staged = [] →
      Gives (.dutyTimeout t o) s (fun u => u.r ACT.DUTY_LOST 0 o = 1 ∧ (sget {} u.pwm o).lostNext = true ∧
        u.r ACT.DUTY_APPLIED 0 o = s.r ACT.DUTY_APPLIED 0 o)) ∧
    (∀ line : Fin 4, s.on ACT.T_EN 0 line = true →
      Gives (.tripInput t line true) s (fun u => (u.r ACT.TRIP_STATE).testBit line = true ∧ (u.r ACT.TRIP_LIVE).testBit line = true)) ∧
    (∀ r (v : BitVec 4), Takes s r ⟨20, 0⟩ → Gives (.actTripClear t r v) s (fun u => ∀ l, l < 4 →
      (u.r ACT.TRIP_STATE).testBit l = ((s.r ACT.TRIP_STATE).testBit l && !(v.getLsbD l && !s.tripLive l))))

/-! ### Station exchange -/

/-- R297 to R312, R318: cycle starts at the instants of the series commit a pending table, frames are accepted word for word or discarded with a cause, read ends and write phases follow, and the table, profile and plan-map windows are written. Where the rules leave a point open it follows the model's reading (assumption 61). -/
def Obligations.StationExchange : Prop :=
  ∀ (t : Nat) (s : State),
    (s.islandOn .net = true → s.enabled 22 = true →
      (s.sxe.startAt ≤ (s.tick t).up → (s.tick t).onSeries (s.r SXE.CYC_US) (s.r SXE.PHASE_US) = true →
        (s.sxe.cut = true ∨ s.sxe.cycleAt ≠ (s.tick t).now) →
        Gives (.stationCycleStart t) s (fun u => u.sxe.cycleAt = (s.tick t).now ∧ u.sxe.inRead = true ∧ u.sxe.outQ = [] ∧ u.r SXE.TABLE_PENDING = 0 ∧
          u.r SXE.CYCLE_NO = (s.tick t).cycleNumber (s.tick t).now ∧
          u.sxe.table = if s.on SXE.TABLE_PENDING then s.sxe.staging else s.sxe.table)) ∧
      (∀ f a b, (s.tick t).inputCause f = 0 →
        Gives (.inputFrameRx t f a b) s (fun u => (∀ w, w < f.words → sget 0 u.inImg (64 * f.station + w) = f.data.getD w 0) ∧
          (u.stn f.station).q = .fresh ∧ (u.stn f.station).accepted = true ∧ (u.stn f.station).echoLast = f.echo)) ∧
      (∀ f a b c, (s.tick t).inputCause f = c → c ≠ 0 →
        Gives (.inputFrameRx t f a b) s (fun u => u.inImg = s.inImg ∧ u.r SXE.LAST_ERR_CAUSE = c ∧
          u.r SXE.FRAME_ERRS = (if c = 6 then s.r SXE.FRAME_ERRS else min (s.r SXE.FRAME_ERRS + 1) (2 ^ 32 - 1)))) ∧
      (s.sxe.cut = false → s.sxe.inRead = true → s.sxe.cycleAt + 1000 * s.r SXE.READ_END_US ≤ (s.tick t).now →
        Gives (.readEnd t) s (fun u => u.sxe.inRead = false ∧ u.sxe.prof = s.sxe.profNew ∧ u.inImg = s.inImg)) ∧
      (s.sxe.cut = false → s.r DCH.ROLE = 0 → s.sxe.inRead = false → s.sxe.wrote = false → s.sxe.cycleAt + 1000 * s.r SXE.WRITE_US ≤ (s.tick t).now →
        Gives (.writePhase t) s (fun u => u.sxe.sent = [] ∧ u.sxe.announce = false ∧
          ∀ n, n ∈ stnEnabled s.sxe.table → (s.stn n).st = .run → s.outputFrame n ∈ u.sxe.outQ))) ∧
    (∀ f fs, s.islandOn .net = true → s.sxe.outQ = f :: fs →
      (s.sxe.cycleAt + 1000 * s.r SXE.APPLY_US < (s.tick t).now + 1000 * s.r SXE.LAT_US →
        Gives (.outputFrameTx t) s (fun u => u.sxe.outQ = fs ∧ u.sxe.sent = s.sxe.sent ∧
          u.r SXE.OUT_DROPPED = min (s.r SXE.OUT_DROPPED + 1) (2 ^ 32 - 1))) ∧
      ((s.tick t).now + 1000 * s.r SXE.LAT_US ≤ s.sxe.cycleAt + 1000 * s.r SXE.APPLY_US →
        Gives (.outputFrameTx t) s (fun u => u.sxe.outQ = fs ∧ u.sxe.sent = s.sxe.sent ++ [f] ∧ u.r SXE.OUT_DROPPED = s.r SXE.OUT_DROPPED))) ∧
    (∀ r, Takes s r ⟨22, 0⟩ →
      (s.on SXE.TABLE_PENDING = false →
        Gives (.tableCommit t r) s (fun u => u.r SXE.TABLE_PENDING = 1 ∧ u.sxe = s.sxe) ∧
        Gives (.tableDiscard t r) s (fun u => u.sxe.staging = s.sxe.table ∧ u.sxe.table = s.sxe.table) ∧
        (∀ v : Word, Gives (.stnEntryWrite t r 1 v) s (fun u => sget 0 u.sxe.staging (4 * s.r SXE.STN_SEL + 1) = v ∧
            u.r SXE.STN_SEL = s.r SXE.STN_SEL ∧ u.sxe.table = s.sxe.table) ∧
          Gives (.stnEntryWrite t r 3 v) s (fun u => u.r SXE.STN_SEL = (s.r SXE.STN_SEL + 1) % 1024))) ∧
      (s.on SXE.TABLE_PENDING = true →
        Gives (.tableCommit t r) s (fun u => u.r SXE.REFUSED = min (s.r SXE.REFUSED + 1) (2 ^ 16 - 1) ∧ u.sxe = s.sxe)) ∧
      (∀ v : Word, Gives (.profDataWrite t r v) s (fun u =>
          sget 0 u.sxe.profNew (64 * s.r SXE.PROF_SEL + s.r SXE.PROF_WORD) = v ∧ u.r SXE.PROF_WORD = (s.r SXE.PROF_WORD + 1) % 64 ∧
          u.sxe.prof = s.sxe.prof) ∧
        Gives (.planMapWrite t r 1 v) s (fun u => sget (pmDefault 1) u.sxe.pmapNew (2 * s.r SXE.PM_SEL + 1) = v ∧
          u.r SXE.PM_SEL = (s.r SXE.PM_SEL + 1) % 1024 ∧ u.sxe.pmap = s.sxe.pmap)) ∧
      Gives (.sxeCtrClr t r) s (fun u => u.r SXE.FRAME_ERRS = 0 ∧ u.r SXE.LATE_INPUTS = 0 ∧ u.r SXE.OUT_DROPPED = 0 ∧
        u.r SXE.LAST_ERR_STN = 0 ∧ u.r SXE.LAST_ERR_CAUSE = 0 ∧ u.r SXE.WRITE_END_US = 0 ∧ u.inImg = s.inImg))

/-! ### Motion -/

/-- R323 to R343: an update starts a standing axis toward its target, targets and decelerations are written, the axis commands act or are refused with a cause, limits stop an axis, the accepted release of the home switch homes it, and a drive fault stops it. Where the rules leave a point open it follows the model's reading (assumptions 56, 57 and 58). -/
def Obligations.Motion : Prop :=
  ∀ (t : Nat) (r : Requester) (a : Fin 24) (s : State),
    (let tgt := s.ri MPG.TGT_NOW a * 2 ^ 32
     s.islandOn .field = true → (∀ u, (s.axis a).updAt = some u → u + 1000 ≤ (s.tick t).up) → s.axisOn a = true → s.r DCH.ROLE = 0 → (s.axis a).stopping = false → (s.axis a).homing = 0 → (s.axis a).vel = 0 → (s.axis a).pendTgt = true →
     s.on MPG.HELD a = false → s.on MPG.DRV_LOST a = false → s.mayMove a = true → (s.axis a).pos < tgt → (s.axis a).limP = false →
     0 < (s.tick t).topSpeed a 1 →
      Gives (.motionUpdate t a) s (fun u => u.r MPG.MSTATE a = 1 ∧ u.r MPG.AT_TARGET a = 0 ∧
        (u.axis a).vel = min ((s.tick t).topSpeed a 1) (max 1 (s.speed MPG.V_START a)) ∧ (u.axis a).moving = true)) ∧
    (Takes s r ⟨23, a⟩ →
      (∀ v : Word, s.ri MPG.SOFT_LO a ≤ v.toInt → v.toInt ≤ s.ri MPG.SOFT_HI a →
        Gives (.targetWrite t r a v) s (fun u => u.r MPG.TARGET a = v.toNat ∧
          (s.r MPG.TGT_SRC a = 0 → u.r MPG.TGT_NOW a = v.toNat) ∧ (s.r MPG.TGT_SRC a ≠ 0 → u.r MPG.TGT_NOW a = s.r MPG.TGT_NOW a) ∧
          u.r MPG.POSITION a = s.r MPG.POSITION a)) ∧
      (∀ v : Word, v ≠ 0 → Gives (.decWrite t r a 0 v) s (fun u => u.r MPG.DEC_HI a = v.toNat) ∧
        Gives (.decWrite t r a 1 v) s (fun u => u.r MPG.DEC_LO a = v.toNat)) ∧
      (s.axisOn a = true →
        Gives (.home t r a) s (fun u => (u.axis a).homing = 1 ∧ u.r MPG.HOME_PHASE a = 1 ∧ u.r MPG.HOMED a = 0 ∧ u.r MPG.HOME_CAUSE a = 0)) ∧
      (s.axisOn a = false → Gives (.home t r a) s (fun u => (u.axis a).homing = 0 ∧ u.r MPG.HOMED a = 0 ∧ u.r MPG.HOME_CAUSE a = 4)) ∧
      Gives (.stop t r a) s (fun u => u.r MPG.HELD a = 1 ∧ (u.axis a).homing = 0 ∧ ((s.axis a).vel ≠ 0 → (u.axis a).stopping = true)) ∧
      Gives (.estop t r a) s (fun u => u.r MPG.HELD a = 1 ∧ (u.axis a).vel = 0 ∧ (u.axis a).moving = false ∧
        u.r MPG.POSITION a = s.r MPG.POSITION a) ∧
      Gives (.release t r a) s (fun u => u.r MPG.HELD a = 0 ∧ (u.axis a).pendTgt = true ∧ u.r MPG.POSITION a = s.r MPG.POSITION a) ∧
      ((s.axis a).vel = 0 →
        (s.on MPG.DRV_LOST a = false → s.on MPG.PHASE_LOST a = true → s.r MPG.MRES_LOG2 a ≤ 8 →
          Gives (.phaseSync t r a) s (fun u => u.r MPG.PHASE_LOST a = 0 ∧
            (u.ri MPG.POSITION a - s.ri MPG.PHASE_ORG a) % (4 * 2 ^ s.r MPG.MRES_LOG2 a) = 0)) ∧
        Gives (.setPos t r a) s (fun u => u.r MPG.POSITION a = s.r MPG.POS_SET a ∧ (u.axis a).pos = s.ri MPG.POS_SET a * 2 ^ 32)) ∧
      ((s.axis a).vel ≠ 0 →
        Gives (.phaseSync t r a) s (fun u => u.r MPG.REFUSE_CAUSE a = 4 ∧ u.r MPG.REFUSED a = min (s.r MPG.REFUSED a + 1) (2 ^ 16 - 1) ∧
          u.r MPG.POSITION a = s.r MPG.POSITION a) ∧
        Gives (.setPos t r a) s (fun u => u.r MPG.REFUSE_CAUSE a = 4 ∧ u.r MPG.POSITION a = s.r MPG.POSITION a))) ∧
    ((s.axis a).homing = 0 →
      (0 < (s.axis a).vel → Gives (.limitActive t a true) s (fun u => u.r MPG.LIMP a = 1 ∧ (u.axis a).limP = true ∧
        (s.on MPG.LIM_HARD a = true → (u.axis a).vel = 0) ∧ (s.on MPG.LIM_HARD a = false → (u.axis a).stopping = true))) ∧
      Gives (.limitRelease t a true) s (fun u => u.r MPG.LIMP a = 0 ∧ (u.axis a).limP = false ∧ u.r MPG.POSITION a = s.r MPG.POSITION a)) ∧
    (∀ b, Gives (.homeInput t a b) s (fun u => u.r MPG.HOME_IN a = b.toNat ∧ u.r MPG.POSITION a = s.r MPG.POSITION a ∧
      (u.axis a).homeOff = if b then none else some ((s.tick t).up, (s.axis a).steps))) ∧
    (∀ t0 n, s.islandOn .field = true → (∀ u, (s.axis a).updAt = some u → u + 1000 ≤ (s.tick t).up) → s.axisOn a = true → s.r DCH.ROLE = 0 →
      (s.axis a).stopping = false → (s.axis a).homing = 3 → s.r MPG.HOME_MODE a = 1 → s.on MPG.DRV_LOST a = false → s.on MPG.HOME_IN a = false →
      (s.axis a).homeOff = some (t0, n) → t0 + 1000 * s.r MPG.DB_US a ≤ (s.tick t).up → n + s.r MPG.DB_COUNT a ≤ (s.axis a).steps →
      Gives (.motionUpdate t a) s (fun u => u.r MPG.HOMED a = 1 ∧ u.r MPG.HOME_PHASE a = 4 ∧ u.r MPG.POSITION a = s.r MPG.HOME_POS a ∧
        u.r MPG.PHASE_LOST a = 0 ∧ (u.axis a).vel = 0)) ∧
    Gives (.drvFault t a) s (fun u => u.r MPG.DRV_LOST a = 1 ∧ (u.axis a).vel = 0 ∧ (s.on MPG.PHASE_RETAIN a = false → u.r MPG.PHASE_LOST a = 1)) ∧
    Gives (.dokRiseAccepted t a) s (fun u => u.r MPG.DRV_LOST a = 0 ∧ (u.axis a).everDok = true ∧ u.r MPG.POSITION a = s.r MPG.POSITION a) ∧
    (∀ g : Fin 8, s.islandOn .field = true → s.r MPC.LIVE_MODE 24 g ≠ 0 → (s.tick t).liveValid g = false →
      Gives (.liveLost t g) s (fun u => u.evtRaw 23 24 g = true))

/-! ### Events and host queues -/

/-- R349, R351, R353, R354, R356, R368: a rise reaches a source, which a decision offers to an idle engine; an interval ends, SET_SRC raises a source, a source is configured, its waiting is aged, and the counters clear. Where the rules leave a point open it follows the model's reading (assumptions 9 and 10). -/
def Obligations.EventSources : Prop :=
  ∀ (t : Nat) (r : Requester) (n : Fin 256) (s : State),
    (s.islandOn .logic = true → s.toEic.contains n.val = true → reservedSource n = false → s.on EIC.EN 0 n = true →
      ((s.src n).st = .idle → Gives (.eicSourceEdge t n) s (fun u => (u.src n).st = .pending ∧ (u.src n).since = (s.tick t).up ∧
        u.toEic = s.toEic.erase n ∧ u.regs = s.regs)) ∧
      ((s.src n).st = .active → Gives (.eicSourceEdge t n) s (fun u => (u.src n).st = .activePending ∧
        u.r EIC.REFIRES = min (s.r EIC.REFIRES + 1) (2 ^ 32 - 1))) ∧
      ((s.src n).st = .pending → Gives (.eicSourceEdge t n) s (fun u => (u.src n).st = .pending ∧
        u.r EIC.MERGES 0 (n / 16) = min (s.r EIC.MERGES 0 (n / 16) + 1) (2 ^ 16 - 1)))) ∧
    (∀ e : Fin 4, s.islandOn .logic = true → (∀ d : Fin 4, s.on EIC.OFFER_VALID 0 d = false) → s.routeOrder = [n.val] →
      (s.tick t).moderated n = false → s.targets n = [e.val] → s.curPrio e = none →
      Gives (.eicRoute t) s (fun u => u.r EIC.OFFER_VALID 0 e = 1 ∧ u.r EIC.OFFER 0 e = n ∧ u.sources = s.sources ∧
        ∀ d : Fin 4, d ≠ e → u.r EIC.OFFER_VALID 0 d = 0)) ∧
    (∀ d : Fin 4, s.islandOn .logic = true → s.routeOrder = [] → s.offerStands d = false → Gives (.eicRoute t) s (fun u =>
      u.r EIC.OFFER_VALID 0 d = 0 ∧ (u.eng d).offered = none)) ∧
    (∀ g : Fin 16, s.islandOn .logic = true → sget 0 s.lastClaim g ≠ 0 →
      sget 0 s.lastClaim g + 1000 * s.r EIC.MOD_US 0 g ≤ (s.tick t).up + 1 →
      Gives (.modIntervalEnd t g) s (fun u => sget 0 u.lastClaim g = 0 ∧ u.regs = s.regs ∧ u.sources = s.sources)) ∧
    (Takes s r ⟨5, 0⟩ →
      (reservedSource n = false → Gives (.setSrc t r n) s (fun u => u.toEic = s.toEic ++ [n.val] ∧ u.sources = s.sources)) ∧
      (∀ v : Word, reservedSource n = false → Gives (.srcCfgWrite t r n v) s (fun u => u.r EIC.PRIO 0 n = v.toNat % 16 ∧
        u.r EIC.TARGET 0 n = v.toNat / 16 % 16 ∧ u.on EIC.EN 0 n = v.getLsbD 8 ∧
        (v.getLsbD 8 = false → (s.src n).st = .pending → (u.src n).st = .idle) ∧
        (v.getLsbD 8 = true → (u.src n).st = (s.src n).st))) ∧
      Gives (.eicCtrClr t r) s (fun u => (∀ g : Fin 16, u.r EIC.MERGES 0 g = 0 ∧ u.r EIC.MOD_HELD 0 g = 0) ∧ u.r EIC.REFIRES = 0 ∧
        u.r EIC.CLAIMS_LIVE0 = 0 ∧ u.r EIC.AGED_SRC = s.r EIC.AGED_SRC)) ∧
    (s.islandOn .logic = true → (s.src n).st = .pending → s.r EIC.AGE_MS ≠ 0 →
      (s.src n).since + 1000000 * s.r EIC.AGE_MS < (s.tick t).up →
      Gives (.pendingAged t n) s (fun u => u.r EIC.AGED_SRC = n ∧ (u.src n).st = .pending))

/-- R33, R360, R361, R363 to R367, R370 to R372: an offered record is numbered and buffered or dropped with a count; a write-back lands at its slot and advances PROD; messages go out; CONS takes the nearest legal value; Q_EN, the link, a completion timeout and a function reset act; a page with ENABLE = 0 writes back nothing and sends nothing. Where the rules leave a point open it follows the model's reading (assumptions 88, 146 and 147). -/
def Obligations.HostQueues : Prop :=
  ∀ (t : Nat) (r : Requester) (p : Fin 2) (q : Fin 8) (s : State),
    (∀ m ms, s.islandOn .host = true → (s.port p).offers = m :: ms →
      (s.on HQE.R_EN p m.code = false → Gives (.hqeRecordOffer t p) s (fun u => (u.port p).offers = ms ∧ u.regs = s.regs ∧
        (u.port p).buf = (s.port p).buf)) ∧
      (s.on HQE.R_EN p m.code = true → s.r HQE.QUEUE p m.code = q → s.r HQE.DROP_PEND p q = 0 →
        (s.queueOpen p q = true → 1 ≤ s.ringFree p q → Gives (.hqeRecordOffer t p) s (fun u =>
          (u.port p).buf = (s.port p).buf ++ [{ q := q, words := hostRecord m (s.r HQE.SEQ p q), t := (s.tick t).up }] ∧
          u.r HQE.SEQ p q = (s.r HQE.SEQ p q + 1) % 2 ^ 32 ∧ u.r HQE.DROPS p q = s.r HQE.DROPS p q)) ∧
        (s.ringFree p q = 0 → Gives (.hqeRecordOffer t p) s (fun u => (u.port p).buf = (s.port p).buf ∧
          u.r HQE.SEQ p q = (s.r HQE.SEQ p q + 1) % 2 ^ 32 ∧ u.r HQE.DROPS p q = min (s.r HQE.DROPS p q + 1) (2 ^ 32 - 1) ∧
          u.r HQE.DROP_PEND p q = 1)))) ∧
    (∀ h rest, (s.port p).buf = h :: rest → h.q = q → (∀ x ∈ rest, x.q ≠ h.q) → s.on HQE.LINK_UP p = true →
      s.islandOn .host = true → s.enabled 7 p = true → (∀ k : Fin 8, s.r HQE.DROP_PEND p k = 0) →
      Gives (.hqeWriteback t p) s (fun u => (u.port p).buf = rest ∧ u.r HQE.PROD p q = (s.r HQE.PROD p q + 1) % 2 ^ 32 ∧
        sget [] (u.port p).ring (s.qBase p q + 32 * (s.r HQE.PROD p q % s.ringSize p q)) = h.words ∧
        (s.r HQE.INT_US p q = 0 → (s.port p).mask.getLsbD q = false →
          sget 0 (u.port p).sent q = sget 0 (s.port p).sent q + 1 ∧ (u.queue p q).oldest = none))) ∧
    (s.enabled 7 p = false → Gives (.hqeWriteback t p) s (fun u => u.regs = s.regs ∧ u.ports = s.ports ∧ u.queues = s.queues)) ∧
    (∀ t0, s.islandOn .host = true → s.enabled 7 p = true → (s.queue p q).oldest = some t0 → s.r HQE.INT_US p q ≠ 0 →
      t0 + 1000 * s.r HQE.INT_US p q ≤ (s.tick t).up →
      Gives (.hqeIntTimer t p q) s (fun u => (u.queue p q).oldest = none ∧ (u.queue p q).unsig = 0 ∧ u.regs = s.regs)) ∧
    (∀ v : Fin 9, s.islandOn .host = true →
      (s.enabled 7 p = true → Gives (.msixUnmask t p v) s (fun u => (u.port p).mask.getLsbD v = false ∧ (u.port p).pend.getLsbD v = false ∧
        sget 0 (u.port p).sent v = sget 0 (s.port p).sent v + ((s.port p).pend.getLsbD v).toNat ∧ u.regs = s.regs)) ∧
      (s.enabled 7 p = false → Gives (.msixUnmask t p v) s (fun u => (u.port p).mask.getLsbD v = false ∧
        (u.port p).pend.getLsbD v = (s.port p).pend.getLsbD v ∧ (u.port p).sent = (s.port p).sent))) ∧
    (Takes s r ⟨7, p⟩ →
      (∀ v : Word, Gives (.consWrite t r p q v) s (fun u => u.r HQE.PROD p q = s.r HQE.PROD p q ∧ u.r HQE.CONS p q =
        (if (s.r HQE.PROD p q + 2 ^ 32 - v.toNat) % 2 ^ 32 ≤ s.ringSize p q then v.toNat
          else if (v.toNat + 2 ^ 32 - s.r HQE.PROD p q) % 2 ^ 32 < 2 ^ 31 then s.r HQE.PROD p q
          else (s.r HQE.PROD p q + 2 ^ 32 - s.ringSize p q) % 2 ^ 32))) ∧
      (s.on HQE.Q_EN p q = false → Gives (.qEnWrite t r p q true) s (fun u => u.r HQE.Q_EN p q = 1 ∧ u.r HQE.PROD p q = 0 ∧
        u.r HQE.CONS p q = 0)) ∧
      (s.on HQE.Q_EN p q = true → Gives (.qEnWrite t r p q false) s (fun u => u.r HQE.Q_EN p q = 0 ∧
        (u.port p).buf = (s.port p).buf.filter (fun h => !(h.q == q.val)) ∧ u.r HQE.SEQ p q = s.r HQE.SEQ p q))) ∧
    (∀ (up : Bool) (sp w : Fin 8), Gives (.pcieLinkChange t p up sp w) s (fun u => u.r HQE.LINK_UP p = up.toNat ∧
      u.r HQE.WIDTH p = (if up then w.val else 0) ∧ u.r HQE.SPEED p = (if up then sp.val % 4 else 0))) ∧
    (s.islandOn .host = true → (∀ t0, (s.port p).hostRead = some t0 → t0 + 1000 * (s.port p).cplUs ≤ (s.tick t).up) →
      Gives (.cplTimeout t p) s (fun u => (s.evtEn 7 p 10 = true → (u.h HDR.EVT_PEND ⟨7, p⟩).testBit 10 = true) ∧
        (u.port p).hostRead = none ∧ (u.port p).cplError = true ∧ (u.port p).cplCount = (s.port p).cplCount + 1 ∧
        u.r HQE.PROD p q = s.r HQE.PROD p q)) ∧
    (s.islandOn .host = true → Gives (.flr t p) s (fun u => u.h HDR.ENABLE ⟨7, p⟩ = 0 ∧ u.r HQE.Q_EN p q = 0 ∧ u.r HQE.PROD p q = 0 ∧ u.r HQE.CONS p q = 0 ∧
      u.r HQE.SEQ p q = s.r HQE.SEQ p q ∧ u.h HDR.OWNER ⟨7, p⟩ = s.h HDR.OWNER ⟨7, p⟩))

/-! ### Time -/

/-- R378, R379, R381 to R383, R385, R386, R395: pulses, sentences and misses move the reference; holdover degrades; the servo's step moves the time base and not the compensated time; ADJ_MAN sets the rate; the UTC day ends; the counters clear. When a pulse counts as too early or too late is the model's reading (assumption 86). -/
def Obligations.TimeReference : Prop :=
  ∀ (t : Nat) (r : Requester) (s : State),
    (s.islandOn .time = true → let tau : Int := ((s.tick t).now : Int) - s.ri TMK.PPS_DELAY_NS
     (s.tmk.lastPulse = none → Gives (.gnssPulse t) s (fun u => u.tmk.lastPulse = some tau.toNat ∧ u.r TMK.PPS_REJECTS = s.r TMK.PPS_REJECTS)) ∧
     (∀ p : Nat, s.tmk.lastPulse = some p →
      (tau - p < 1000000000 - 10000 → Gives (.gnssPulse t) s (fun u => u.tmk = s.tmk ∧
        u.r TMK.PPS_REJECTS = min (s.r TMK.PPS_REJECTS + 1) (2 ^ 16 - 1))) ∧
      (1000000000 + 10000 < tau - p → Gives (.gnssPulse t) s (fun u => u.tmk.lastPulse = some tau.toNat ∧ u.tmk.validRun = 0 ∧
        u.r TMK.PPS_REJECTS = min (s.r TMK.PPS_REJECTS + 1) (2 ^ 16 - 1))) ∧
      (∀ l : Nat, 1000000000 - 10000 ≤ tau - p → tau - p ≤ 1000000000 + 10000 → s.pulseLabel = some l → s.r TMK.REF_MODE = 2 →
        Gives (.gnssPulse t) s (fun u => u.r TMK.REF_NOW = 1 ∧ u.tmk.validRun = s.tmk.validRun + 1 ∧ u.tmk.misses = 0 ∧
          u.ri TMK.OFFSET_LAST = max (-(2 ^ 31)) (min (2 ^ 31 - 1) (tau - l * 1000000000)))))) ∧
    (s.islandOn .time = true → s.r TMK.TOD_SRC = 0 →
      (∀ z : Zda, z.ok = false → Gives (.todSentence t z) s (fun u => u.tmk = s.tmk ∧
        u.r TMK.TOD_ERRS = min (s.r TMK.TOD_ERRS + 1) (2 ^ 16 - 1))) ∧
      (∀ (z : Zda) (p : Nat), z.ok = true → 2000 ≤ z.year → z.year ≤ 2399 → 1 ≤ z.month → z.month ≤ 12 → 1 ≤ z.day →
        z.day ≤ monthDays z.year z.month → z.hour ≤ 23 → z.min ≤ 59 → z.sec ≤ 59 → s.tmk.lastPulse = some p →
        p + 10000000 ≤ (s.tick t).now → (s.tick t).now ≤ p + 990000000 → s.r TMK.TOD_LABEL = 1 → s.tmk.prevLabel = none →
        Gives (.todSentence t z) s (fun u => u.regs = s.regs ∧
          u.tmk.nextLabel = some (utcSeconds z.year z.month z.day z.hour z.min z.sec + s.r TMK.UTC_OFFSET)))) ∧
    (s.islandOn .time = true → s.r TMK.REF_NOW ≠ 0 → s.tmk.refAt + 1000000000 * (s.tmk.misses + 1) + 2000000 ≤ (s.tick t).up →
      (s.tmk.misses + 1 < s.r TMK.MISS_LIMIT → Gives (.refMiss t) s (fun u => u.tmk.misses = s.tmk.misses + 1 ∧ u.regs = s.regs)) ∧
      (s.r TMK.MISS_LIMIT ≤ s.tmk.misses + 1 → s.r TMK.STATE = 2 → s.r TMK.REF_MODE ≠ 1 →
        Gives (.refMiss t) s (fun u => u.r TMK.STATE = 3 ∧ u.r TMK.REF_NOW = 0 ∧ 
        u.r TMK.CLASS = (if s.r TMK.HOLD_S ≤ s.r TMK.HOLD_CLASS_S then 7 else 187) ∧ u.ri TMK.ADJ_NOW = s.ri TMK.F_NOW))) ∧
    (s.islandOn .time = true → s.r TMK.STATE = 3 → s.r TMK.CLASS = 7 → s.r TMK.HOLD_CLASS_S < (s.tick t).holdS →
      Gives (.holdDegraded t) s (fun u => u.r TMK.CLASS = 187 ∧ u.r TMK.ACCURACY = 0xFE ∧ u.r TMK.STATE = 3)) ∧
    (∀ d : Int, s.islandOn .time = true → s.tmk.pendingStep = some d → 0 ≤ (s.tick t).now * 65536 + d → d % 65536 = 0 →
      Gives (.timeStep t) s (fun u => (u.now : Int) = (s.tick t).now + d / 65536 ∧ u.frac = s.frac ∧ u.ct = (s.tick t).ct ∧
        u.tmk.pendingStep = none ∧ u.sxe.cut = true)) ∧
    (Takes s r ⟨8, 0⟩ →
      (s.r TMK.REF_MODE = 0 →
        ∀ v : Word, -(s.r TMK.ADJ_LIM : Int) ≤ v.toInt → v.toInt ≤ s.r TMK.ADJ_LIM →
          Gives (.adjManWrite t r v) s (fun u => u.ri TMK.ADJ_MAN = v.toInt ∧ u.ri TMK.F_NOW = v.toInt ∧ u.ri TMK.ADJ_NOW = v.toInt)) ∧
      Gives (.tmkCtrClr t r) s (fun u => u.r TMK.PPS_REJECTS = 0 ∧ u.r TMK.TOD_ERRS = 0 ∧ u.r TMK.DREQ_DROPS = 0 ∧
        u.r TMK.PTP_IGNORED = 0 ∧ (∀ i : Fin 4, u.r TMK.CAP_LOST 0 i = 0) ∧ u.tmk = s.tmk)) ∧
    (s.islandOn .time = true → s.r TMK.UTC_OFFSET < 1000 →
      (s.tick t).utcDaySec = (if s.on TMK.LEAP61 then 1 else if s.on TMK.LEAP59 then 86399 else 0) →
      Gives (.utcDayEnd t) s (fun u => u.r TMK.LEAP61 = 0 ∧ u.r TMK.LEAP59 = 0 ∧
      u.r TMK.UTC_OFFSET = if s.on TMK.LEAP61 then s.r TMK.UTC_OFFSET + 1 else if s.on TMK.LEAP59 then s.r TMK.UTC_OFFSET - 1
        else s.r TMK.UTC_OFFSET))

/-- R384: SET steps the time base to SET_SEC:SET_NS and ADD steps it by OFF_NS, each only while REF_MODE = NONE; otherwise the command is refused and counts in REFUSED, and so does an ADD whose result lies before 0 or at or beyond 2⁴⁸ s, and the time base does not change. The compensated time never steps. -/
def Obligations.HostTimeCommands : Prop :=
  ∀ (t : Nat) (r : Requester) (s : State), Takes s r ⟨8, 0⟩ →
      (s.r TMK.REF_MODE = 0 →
        Gives (.timeSet t r) s (fun u => u.now = (s.r TMK.SET_SEC_LO + 2 ^ 32 * s.r TMK.SET_SEC_HI) * 1000000000 + s.r TMK.SET_NS ∧
          u.frac = s.frac ∧ u.ct = (s.tick t).ct) ∧
        (0 ≤ ((s.tick t).now : Int) + s.ri TMK.OFF_NS → ((s.tick t).now : Int) + s.ri TMK.OFF_NS < 2 ^ 48 * 1000000000 →
          Gives (.timeAdd t r) s (fun u => (u.now : Int) = (s.tick t).now + s.ri TMK.OFF_NS ∧ u.frac = s.frac ∧
            u.ct = (s.tick t).ct))) ∧
      (s.r TMK.REF_MODE ≠ 0 →
        Gives (.timeSet t r) s (fun u => u.now = (s.tick t).now ∧ u.frac = s.frac ∧
          u.r TMK.REFUSED = min (s.r TMK.REFUSED + 1) (2 ^ 16 - 1))) ∧
      (s.r TMK.REF_MODE ≠ 0 ∨ ((s.tick t).now : Int) + s.ri TMK.OFF_NS < 0 ∨ 2 ^ 48 * 1000000000 ≤ ((s.tick t).now : Int) + s.ri TMK.OFF_NS →
        Gives (.timeAdd t r) s (fun u => u.now = (s.tick t).now ∧ u.frac = s.frac ∧
          u.r TMK.REFUSED = min (s.r TMK.REFUSED + 1) (2 ^ 16 - 1)))

/-- R375, R388 to R393: the time base is read as one value; the grandmaster role follows the data sets; PTP messages are sent, answered, measured and forwarded; pulses are armed, fire and end; captures queue and are read in order. Where the rules leave a point open it follows the model's reading (assumptions 91, 148 and 153). -/
def Obligations.TimeServices : Prop :=
  ∀ (t : Nat) (r : Requester) (port out : Fin 12) (o : Fin 4) (s : State),
    (s.reaches r ⟨8, 0⟩ = true →
      Gives (.tbNsRead t r) s (fun u => sget 0 u.resp (ownerCode r) = BitVec.ofNat 32 ((s.tick t).now % 1000000000) ∧ u.regs = s.regs ∧
        ∃ l ∈ (u.px ⟨8, 0⟩).latched, l.req = ownerCode r ∧ l.off = 0x044 ∧ l.val = BitVec.ofNat 32 ((s.tick t).now / 1000000000 % 2 ^ 32)) ∧
      (∀ c cs, s.capQ o = c :: cs →
        Gives (.capNsRead t r o) s (fun u => sget 0 u.resp (ownerCode r) = BitVec.ofNat 32 c.ns ∧ u.tmk = s.tmk) ∧
        (cs.length < 32 → Gives (.capSecHiRead t r o) s (fun u => u.capQ o = cs ∧ u.r TMK.FILL 0 o = cs.length)))) ∧
    (s.islandOn .time = true → s.enabled 8 = true →
      (s.ptpPort port = true → s.r TMK.GM_MODE = 0 → ∀ d : Dataset,
        (datasetKey d < datasetKey s.ownDataset → Gives (.ptpAnnounceRx t port d) s (fun u => u.r TMK.GM_ROLE = 0)) ∧
        (datasetKey s.ownDataset ≤ datasetKey d → s.tmk.foreign = [] → Gives (.ptpAnnounceRx t port d) s (fun u => u.r TMK.GM_ROLE = 1))) ∧
      (s.ptpPort port = true → s.on TMK.GM_ROLE = true →
        Gives (.ptpSyncTx t port) s (fun u => u.regs = s.regs ∧ sget {} u.tmk.sent port = s.ptpFramed
            { kind := 0, origin := (s.tick t).txStamp port, corr := s.frac.toNat / 2 ^ 24, twoStep := !s.on TMK.ONE_STEP } ∧
          (s.on TMK.ONE_STEP = false → sget {} u.tmk.follow port = s.ptpFramed
            { kind := 8, origin := (s.tick t).txStamp port, corr := s.frac.toNat / 2 ^ 24 })) ∧
        Gives (.ptpAnnounceTx t port) s (fun u => (sget {} u.tmk.sent port).kind = 11 ∧ u.regs = s.regs ∧
          (sget {} u.tmk.sent port).utc = s.r TMK.UTC_OFFSET ∧ (sget {} u.tmk.sent port).ds = s.ownDataset)) ∧
      (∀ pd src seq n sec, s.ptpPort port = true → (pd = true ↔ s.r TMK.PROFILE ≠ 0) → (pd = true ∨ s.on TMK.GM_ROLE = true) →
        (s.tick t).secondCopy port src.toNat seq.toNat = false →
        sget (0, 0) s.tmk.dreq port = (sec, n) → sec = (s.tick t).up / 1000000000 →
        (n < s.r TMK.DREQ_MAX → Gives (.ptpDelayReqRx t port ⟨pd, src, seq⟩) s (fun u =>
          (sget {} u.tmk.sent port).kind = (if pd then 3 else 9) ∧
          (sget {} u.tmk.sent port).origin = (s.tick t).rxStamp port (s.tick t).now ∧ u.r TMK.DREQ_DROPS = s.r TMK.DREQ_DROPS)) ∧
        (s.r TMK.DREQ_MAX ≤ n → Gives (.ptpDelayReqRx t port ⟨pd, src, seq⟩) s (fun u => u.tmk.sent = s.tmk.sent ∧
          u.tmk.dreq = s.tmk.dreq ∧ u.r TMK.DREQ_DROPS = min (s.r TMK.DREQ_DROPS + 1) (2 ^ 32 - 1)))) ∧
      (∀ src seq, s.ptpPort port = true → s.r TMK.PROFILE = 0 → (s.tick t).secondCopy port src.toNat seq.toNat = true →
        Gives (.ptpDelayReqRx t port ⟨false, src, seq⟩) s (fun u => u.tmk = s.tmk ∧ u.r TMK.DREQ_DROPS = s.r TMK.DREQ_DROPS)) ∧
      (s.ptpPort port = true → s.r TMK.PROFILE ≠ 0 → Gives (.ptpPdelayReqTx t port) s (fun u =>
        u.tmk.pdReq.lookup port.val = some ((s.tick t).txStamp port) ∧ (sget {} u.tmk.sent port).kind = 2 ∧ u.regs = s.regs)) ∧
      (∀ t1 t2 t3, s.tmk.pdReq.lookup port.val = some t1 → Gives (.ptpPdelayRespRx t port t2 t3) s (fun u =>
        sget 0 u.tmk.linkDelay port = (((s.tick t).rxStamp port (s.tick t).now - t1) - (t3 - t2)) / 2 ∧ u.regs = s.regs)) ∧
      (∀ (k : Fin 3) arrival corr, s.on TMK.GM_ROLE = false → s.ptpPort port = true → s.ptpPort out = true →
        Gives (.ptpEventForward t port out k arrival corr) s (fun u => u.regs = s.regs ∧ (sget {} u.tmk.sent out).corr = corr +
          (if s.r TMK.PROFILE ≠ 0 ∧ k = 2 then 0 else ((s.tick t).txStamp out - s.rxStamp port arrival) * 65536) +
          (if s.r TMK.PROFILE ≠ 0 ∧ k = 0 then sget 0 s.tmk.linkDelay port * 65536 else 0)))) ∧
    (∀ (k : Fin 3) arrival corr, s.islandOn .time = true → s.enabled 8 = false →
      Gives (.ptpEventForward t port out k arrival corr) s (fun u => u.tmk = s.tmk ∧
        u.r TMK.PTP_IGNORED = min (s.r TMK.PTP_IGNORED + 1) (2 ^ 32 - 1))) ∧
    (s.islandOn .time = true → s.r TMK.GM_MODE = 0 → sdel s.tmk.foreign port.val = [] → Gives (.foreignMasterExpiry t port) s (fun u => u.r TMK.GM_ROLE = 1 ∧
      u.tmk.foreign = [])) ∧
    (Takes s r ⟨8, 0⟩ →
      (let start := (s.r TMK.START_SEC_LO 0 o + 2 ^ 32 * s.r TMK.START_SEC_HI 0 o) * 1000000000 + s.r TMK.START_NS 0 o
       s.r TMK.OUT_MODE 0 o = 1 →
        (start < (s.tick t).now + 1000 → Gives (.pulseArm t r o) s (fun u => u.r TMK.OUT_STATE 0 o = 4)) ∧
        ((s.tick t).now + 1000 ≤ start → Gives (.pulseArm t r o) s (fun u => u.r TMK.OUT_STATE 0 o = 1 ∧ (u.outX o).next = start))) ∧
      Gives (.pulseDisarm t r o) s (fun u => u.r TMK.OUT_STATE 0 o = 0 ∧ (u.outX o).high = false)) ∧
    (s.islandOn .time = true → s.r TMK.OUT_STATE 0 o = 1 → (s.outX o).next ≤ (s.tick t).now → s.enabled 8 = true →
      Gives (.pulseFire t o) s (fun u => u.r TMK.OUT_STATE 0 o = 2 ∧ (u.outX o).high = true ∧
        (u.outX o).endAt = (s.outX o).next + (s.outX o).width ∧ u.r TMK.FIRED 0 o = min (s.r TMK.FIRED 0 o + 1) (2 ^ 32 - 1))) ∧
    (s.islandOn .time = true → (s.outX o).high = true → (s.outX o).endAt ≤ (s.tick t).now → Gives (.pulseEnd t o) s (fun u => (u.outX o).high = false ∧
      ((s.outX o).mode = 1 → u.r TMK.OUT_STATE 0 o = 3))) ∧
    (∀ fall, s.islandOn .time = true → s.enabled 8 = true → s.on TMK.CAP_EN 0 o = true → s.r TMK.CAP_EDGE 0 o = 2 →
      ((s.capQ o).length < 16 → Gives (.captureEdge t o fall) s (fun u => u.r TMK.FILL 0 o = (s.capQ o).length + 1 ∧ u.capQ o = s.capQ o ++
        [{ sec := (s.tick t).now / 1000000000, ns := (s.tick t).now % 1000000000, fall := fall }])) ∧
      (16 ≤ (s.capQ o).length → Gives (.captureEdge t o fall) s (fun u => u.capQ o = s.capQ o ∧
        u.r TMK.CAP_LOST 0 o = min (s.r TMK.CAP_LOST 0 o + 1) (2 ^ 16 - 1))))

/-! ### Calendar clock -/

/-- R397, R400 to R403, R405, R407, R408: the calendar counts, freezes for a reader and goes on, is staged and committed, follows the time base; wake levels, VBAK, crystal and supply are shown; losing VBAK resets the backup domain. Where the rules leave a point open it follows the model's reading (assumptions 84 and 90). -/
def Obligations.Calendar : Prop :=
  ∀ (t : Nat) (r : Requester) (s : State),
    (s.rtc.commitAt ≠ some (s.tick t).up → s.r RTC.FROZEN = 0 → Gives (.rtcTick t) s (fun u => u.rtc.cal = s.rtc.cal.succ ∧ u.r RTC.FROZEN = 0)) ∧
    (s.rtc.commitAt ≠ some (s.tick t).up → s.r RTC.FROZEN = 1 → Gives (.rtcTick t) s (fun u => u.rtc.cal = s.rtc.cal ∧ u.r RTC.HELD_TICK = 1 ∧ u.rtc.shadow = s.rtc.shadow)) ∧
    (s.reaches r ⟨9, 0⟩ = true →
      (s.r RTC.FROZEN = 0 → Gives (.rtcSecRead t r) s (fun u => sget 0 u.resp (ownerCode r) = BitVec.ofNat 32 s.rtc.cal.sec ∧
        u.rtc.shadow = some s.rtc.cal ∧ u.r RTC.FROZEN = 1 ∧ u.rtc.cal = s.rtc.cal)) ∧
      (∀ c, s.r RTC.FROZEN = 1 → s.rtc.shadow = some c → Gives (.rtcCentRead t r) s (fun u =>
        sget 0 u.resp (ownerCode r) = BitVec.ofNat 32 c.cent ∧ u.rtc.shadow = none ∧ u.r RTC.FROZEN = 0 ∧
        u.rtc.cal = if s.r RTC.HELD_TICK = 1 then s.rtc.cal.succ else s.rtc.cal))) ∧
    (s.r RTC.FROZEN = 1 → s.r RTC.HELD_TICK = 0 → s.rtc.freezeAt + 1000000000 ≤ (s.tick t).up →
      Gives (.rtcFreezeTimeout t) s (fun u => u.r RTC.FROZEN = 0 ∧ u.rtc.shadow = none ∧ u.rtc.cal = s.rtc.cal)) ∧
    (Takes s r ⟨9, 0⟩ →
      (∀ (g : StgReg) (v : Word), Gives (.stagingWrite t r g v) s (fun u => u.r RTC.STAGE_OPEN = 1 ∧ u.rtc = s.rtc ∧
        u.r (stgField g).1 = bcdClamp (stgField g).2.1 (stgField g).2.2 (v.toNat % 2 ^ (stgField g).1.width))) ∧
      (∀ v : Word, s.r RTC.STAGE_OPEN = 1 → bcdClamp 20 23 (v.toNat % 256) = v.toNat % 256 →
        ofBcd (s.r RTC.STG_DAY) ≤ monthDays (100 * ofBcd (v.toNat % 256) + ofBcd (s.r RTC.STG_YEAR)) (ofBcd (s.r RTC.STG_MONTH)) →
        Gives (.calendarCommit t r v) s (fun u => u.r RTC.STAGE_OPEN = 0 ∧ u.r RTC.TIME_VALID = 1 ∧ u.r RTC.FROZEN = 0 ∧
          u.r RTC.HELD_TICK = 0 ∧ u.rtc.cal = calOf (100 * ofBcd (v.toNat % 256) + ofBcd (s.r RTC.STG_YEAR))
            (ofBcd (s.r RTC.STG_MONTH)) (ofBcd (s.r RTC.STG_DAY)) (ofBcd (s.r RTC.STG_HOUR)) (ofBcd (s.r RTC.STG_MIN))
            (ofBcd (s.r RTC.STG_SEC)))) ∧
      Gives (.stgDiscard t r) s (fun u => u.r RTC.STAGE_OPEN = 0 ∧ u.rtc = s.rtc)) ∧
    (let utc := (s.tick t).now / 1000000000 - s.r TMK.UTC_OFFSET
     s.aon RTC.AUTO_SYNC ≠ 0 → s.r TMK.STATE = 2 → s.on TMK.LEAP61 = false →
      ((s.tick t).now % 1000000000 ≠ 0 ∨ s.rtc.syncHour = some (utc / 3600) → Gives (.autoSync t) s (fun u => u.rtc = s.rtc ∧ u.regs = s.regs)) ∧
      ((s.tick t).now % 1000000000 = 0 → s.rtc.syncHour ≠ some (utc / 3600) →
        (s.r RTC.STAGE_OPEN = 1 ∨ s.r RTC.FROZEN = 1 → Gives (.autoSync t) s (fun u => u.rtc.cal = s.rtc.cal ∧
          u.rtc.shadow = s.rtc.shadow ∧ u.rtc.syncHour = some (utc / 3600) ∧ u.r RTC.SYNC_SKIPS = min (s.r RTC.SYNC_SKIPS + 1) (2 ^ 16 - 1))) ∧
        (s.r RTC.STAGE_OPEN = 0 → s.r RTC.FROZEN = 0 → Gives (.autoSync t) s (fun u => u.rtc.cal = calOfUtc utc ∧
          u.rtc.syncHour = some (utc / 3600) ∧ u.r RTC.SYNCS = min (s.r RTC.SYNCS + 1) (2 ^ 16 - 1))))) ∧
    (∀ (n : Fin 4) l, Gives (.wakeInputEdge t n l) s (fun u => u.r RTC.LEVEL 0 n = l.toNat ∧ u.rtc = s.rtc)) ∧
    (∀ mv, s.pwr.st = .run → (mv < 1900 → Gives (.vbakCheck t mv) s (fun u => u.r RTC.VBAK_LOW = 1 ∧ u.rtc.vbakOk = 0)) ∧
      (mv = 1900 → Gives (.vbakCheck t mv) s (fun u => u.rtc.vbakOk = 0 ∧ u.r RTC.VBAK_LOW = s.r RTC.VBAK_LOW)) ∧
      (1900 < mv → 9 ≤ s.rtc.vbakOk → Gives (.vbakCheck t mv) s (fun u => u.r RTC.VBAK_LOW = 0))) ∧
    Gives (.oscFault t) s (fun u => u.r RTC.OSC_FAULT = 1 ∧ u.rtc.rcClock = true ∧ u.rtc.cal = s.rtc.cal) ∧
    Gives (.oscRestored t) s (fun u => u.r RTC.OSC_FAULT = 0 ∧ u.rtc = s.rtc) ∧
    (s.pwr.st = .keep → Gives (.backupDomainReset t) s (fun u => u.aonRegs = [] ∧ u.rtc.bporDue = true ∧ u.r RTC.TIME_VALID = 0 ∧
      u.r RTC.BPOR = 1 ∧ u.pwr.st = .off)) ∧
    (∀ b, Gives (.aonSupplySwitch t b) s (fun u => u.rtc.onVbak = b ∧ u.rtc.cal = s.rtc.cal ∧ u.regs = s.regs))

/-! ### Field buses -/

/-- R413 to R426, R428: modes change with legal bit times; requests, cancels, selections and attempts move the transmit buffers, and an attempt's delay is measured; frames are filtered and queued; errors count; a bus-off channel recovers on command. Where the rules leave a point open it follows the model's reading (assumptions 85 and 150). -/
def Obligations.CanChannels : Prop :=
  ∀ (t : Nat) (r : Requester) (ch : Fin 16) (s : State),
    (Takes s r ⟨24, ch⟩ →
      (∀ v : Word, s.r CFD.MODE ch = 0 → v.toNat % 4 ≠ 0 → s.busOff ch = false →
        let nom := s.r CFD.NBRP ch * (1 + s.r CFD.NTSEG1 ch + s.r CFD.NTSEG2 ch)
        let dat := s.r CFD.DBRP ch * (1 + s.r CFD.DTSEG1 ch + s.r CFD.DTSEG2 ch)
        (nom < 200 ∨ dat < 25 ∨ nom < dat → Gives (.canModeWrite t r ch v) s (fun u => u.r CFD.MODE ch = 0 ∧ u.r CFD.REFUSE_CAUSE ch = 1 ∧
          u.r CFD.REFUSED ch = min (s.r CFD.REFUSED ch + 1) (2 ^ 16 - 1))) ∧
        (200 ≤ nom → 25 ≤ dat → dat ≤ nom → s.enabled 24 ch = true → (s.canX ch).owed = false →
          Gives (.canModeWrite t r ch v) s (fun u => u.r CFD.MODE ch = v.toNat % 4 ∧ (u.canX ch).integrating = true ∧
            u.r CFD.ONE_SHOT ch = v.toNat / 4 % 2 ∧ u.r CFD.REFUSED ch = s.r CFD.REFUSED ch))) ∧
      (∀ m : BitVec 3,
        Gives (.txReq t r ch m) s (fun u => ∀ b : Fin 3, u.r CFD.TX_STATE ch b =
          if m.getLsbD b = true ∧ s.r CFD.TX_STATE ch b ≠ 1 ∧ s.r CFD.TX_STATE ch b ≠ 2 then 1 else s.r CFD.TX_STATE ch b) ∧
        Gives (.cancel t r ch m) s (fun u => ∀ b : Fin 3,
          u.r CFD.TX_STATE ch b = (if m.getLsbD b = true ∧ s.r CFD.TX_STATE ch b = 1 then 4 else s.r CFD.TX_STATE ch b) ∧
          (m.getLsbD b = true → s.r CFD.TX_STATE ch b = 2 → (u.canX ch).cancels.getLsbD b = true))) ∧
      ((s.canX ch).rxq.length ≤ 33 → Gives (.rxAck t r ch) s (fun u => (u.canX ch).rxq = (s.canX ch).rxq.drop 1 ∧
        u.r CFD.RX_FILL ch = (s.canX ch).rxq.length - 1)) ∧
      (s.r CFD.ERR_STATE ch = 2 → Gives (.recover t r ch) s (fun u => u.r CFD.ERR_STATE ch = 3 ∧ u.r CFD.TEC ch = s.r CFD.TEC ch)) ∧
      (s.r CFD.ERR_STATE ch ≠ 2 → Gives (.recover t r ch) s (fun u => u.r CFD.ERR_STATE ch = s.r CFD.ERR_STATE ch ∧
        u.r CFD.REFUSE_CAUSE ch = 4 ∧ u.r CFD.REFUSED ch = min (s.r CFD.REFUSED ch + 1) (2 ^ 16 - 1))) ∧
      Gives (.cfdCtrClr t r ch) s (fun u => u.r CFD.RX_LOST ch = 0 ∧ u.r CFD.TX_ERRS ch = 0 ∧ u.r CFD.RX_ERRS ch = 0 ∧
        u.r CFD.TEC ch = s.r CFD.TEC ch ∧ u.can = s.can)) ∧
    (s.islandOn .field = true → (s.canX ch).waitAt + s.nomNs ch 11 ≤ (s.tick t).up → Gives (.canIntegrated t ch) s (fun u => (u.canX ch).integrating = false ∧ (u.canX ch).rxq = (s.canX ch).rxq ∧ u.regs = s.regs)) ∧
    (∀ b : Fin 3, s.islandOn .field = true → s.canSends ch = true → (s.canX ch).sending = none → s.arbWinner ch = some b.val →
      Gives (.canSelection t ch) s (fun u => u.r CFD.TX_STATE ch b = 2 ∧ (u.canX ch).sending = some b.val ∧
        u.r CFD.ATTEMPTS ch b = min (s.r CFD.ATTEMPTS ch b + 1) (2 ^ 8 - 1))) ∧
    (∀ (b : Fin 3) back (delay : Option Nat), s.islandOn .field = true → (s.canX ch).sending = some b.val →
      (delay.getD 0 ≤ 127 →
        (s.r CFD.MODE ch ≠ 3 → Gives (.canTxAttemptEnd t ch ⟨.success, back, delay⟩) s (fun u => u.r CFD.TX_STATE ch b = 3 ∧
          (u.canX ch).sending = none ∧ u.r CFD.TX_TS ch b = ((s.tick t).sofTs ch back).toNat ∧ u.r CFD.ACK_RUN ch = 0 ∧
          u.r CFD.TEC ch = min (s.r CFD.TEC ch - 1) 511)) ∧
        ((s.canX ch).cancels.getLsbD b = false → Gives (.canTxAttemptEnd t ch ⟨.lostArbitration, back, delay⟩) s (fun u =>
          u.r CFD.TX_STATE ch b = 1 ∧ (u.canX ch).sending = none ∧ u.r CFD.TEC ch = s.r CFD.TEC ch)) ∧
        ((s.canX ch).cancels.getLsbD b = false → s.on CFD.ONE_SHOT ch = true → Gives (.canTxAttemptEnd t ch ⟨.otherError, back, delay⟩) s (fun u =>
          u.r CFD.TX_STATE ch b = 6 ∧ u.r CFD.TEC ch = min (s.r CFD.TEC ch + 8) 511 ∧
          u.r CFD.TX_ERRS ch = min (s.r CFD.TX_ERRS ch + 1) (2 ^ 16 - 1)))) ∧
      (∀ d res, delay = some d → s.on CFD.TDC_EN ch = true → s.on CFD.FDF ch b = true →
        (d ≤ 127 → Gives (.canTxAttemptEnd t ch ⟨res, back, delay⟩) s (fun u => u.r CFD.TDC_VAL ch = d)) ∧
        (127 < d → Gives (.canTxAttemptEnd t ch ⟨res, back, delay⟩) s (fun u =>
          u.r CFD.TX_ERRS ch = min (s.r CFD.TX_ERRS ch + 1) (2 ^ 16 - 1) ∧ u.r CFD.TEC ch = min (s.r CFD.TEC ch + 8) 511)))) ∧
    (∀ (f : CanFrame) back, s.islandOn .field = true → s.onBus ch = true → s.r CFD.MODE ch ≠ 3 →
      (∀ i, s.canFilter ch f = some i → (s.canX ch).rxq.length < 32 → Gives (.canFrameRx t ch ⟨f, back⟩) s (fun u =>
        (u.canX ch).rxq = (s.canX ch).rxq ++ [{ frame := f, filter := i, ts := (s.tick t).sofTs ch back }] ∧
        u.r CFD.RX_FILL ch = (s.canX ch).rxq.length + 1 ∧ u.r CFD.RX_LOST ch = s.r CFD.RX_LOST ch)) ∧
      (∀ i, s.canFilter ch f = some i → 32 ≤ (s.canX ch).rxq.length → Gives (.canFrameRx t ch ⟨f, back⟩) s (fun u =>
        (u.canX ch).rxq = (s.canX ch).rxq ∧ u.r CFD.RX_LOST ch = min (s.r CFD.RX_LOST ch + 1) (2 ^ 16 - 1))) ∧
      (s.canFilter ch f = none → Gives (.canFrameRx t ch ⟨f, back⟩) s (fun u => (u.canX ch).rxq = (s.canX ch).rxq ∧
        u.r CFD.RX_LOST ch = s.r CFD.RX_LOST ch))) ∧
    (s.islandOn .field = true → s.onBus ch = true → s.r CFD.MODE ch = 1 → s.isStandby = false →
      Gives (.canRxError t ch .error) s (fun u => u.r CFD.RX_ERRS ch = min (s.r CFD.RX_ERRS ch + 1) (2 ^ 16 - 1) ∧
        u.r CFD.REC ch = min (s.r CFD.REC ch + 1) 255) ∧
      Gives (.canRxError t ch .dominantAfterFlag) s (fun u => u.r CFD.REC ch = min (s.r CFD.REC ch + 8) 255)) ∧
    (s.islandOn .field = true → s.r CFD.ERR_STATE ch = 3 → (s.canX ch).waitAt + s.nomNs ch 1408 ≤ (s.tick t).up → Gives (.recovered t ch) s (fun u => u.r CFD.ERR_STATE ch = 0 ∧ u.r CFD.TEC ch = 0 ∧ u.r CFD.REC ch = 0 ∧
      (u.canX ch).owed = false))

/-- R431 to R435: a transaction goes from the idle gap over sending, turnaround or response to its result, or is aborted; characters outside it count. Where the rules leave a point open it follows the model's reading (assumptions 89 and 151). -/
def Obligations.SerialTransactions : Prop :=
  ∀ (t : Nat) (r : Requester) (ch : Fin 8) (s : State),
    (Takes s r ⟨25, ch⟩ →
      (s.r SER.STATE ch = 0 ∨ s.r SER.STATE ch = 5 →
        (s.r SER.MODE ch ≠ 0 → s.enabled 25 ch = true → s.isStandby = false →
          Gives (.serStart t r ch) s (fun u => u.r SER.STATE ch = 1 ∧ (u.serX ch).rx = [] ∧ u.r SER.REFUSED ch = s.r SER.REFUSED ch)) ∧
        (s.r SER.MODE ch = 0 → Gives (.serStart t r ch) s (fun u => u.r SER.STATE ch = s.r SER.STATE ch ∧
          u.r SER.REFUSED ch = min (s.r SER.REFUSED ch + 1) (2 ^ 8 - 1)))) ∧
      (s.r SER.STATE ch = 1 ∨ s.r SER.STATE ch = 3 → Gives (.serAbort t r ch) s (fun u => u.r SER.STATE ch = 5 ∧ u.r SER.RESULT ch = 8)) ∧
      (s.r SER.STATE ch = 2 ∨ s.r SER.STATE ch = 4 → Gives (.serAbort t r ch) s (fun u => u.r SER.STATE ch = s.r SER.STATE ch ∧
        (u.serX ch).abort = true)) ∧
      Gives (.serCtrClr t r ch) s (fun u => u.r SER.ERRORS ch = 0 ∧ u.r SER.UNSOLICITED ch = 0 ∧ u.r SER.STATE ch = s.r SER.STATE ch ∧
        u.ser = s.ser)) ∧
    (s.islandOn .field = true → s.r SER.STATE ch = 1 → (s.serX ch).t0 + s.endGap ch ≤ (s.tick t).up → Gives (.serIdleGap t ch) s (fun u => u.r SER.STATE ch = 2 ∧ (u.serX ch).sent = s.txBytes ch ++
      (if s.r SER.MODE ch = 2 ∧ s.on SER.CRC_GEN ch = true then leBytes 2 (crc16 (s.txBytes ch)) else []))) ∧
    (s.islandOn .field = true → s.r SER.STATE ch = 2 →
      ((s.serX ch).abort = false → (s.serX ch).t0 + s.bitNs ch (1 + (s.serX ch).sent.length * s.charBits ch) ≤ (s.tick t).up →
        Gives (.serTxDone t ch) s (fun u => u.r SER.STATE ch = 3 ∧ (u.serX ch).t0 = (s.tick t).up ∧ (u.serX ch).deAt = some (s.tick t).up)) ∧
      ((s.serX ch).abort = true → Gives (.serTxDone t ch) s (fun u => u.r SER.STATE ch = 5 ∧ u.r SER.RESULT ch = 8))) ∧
    (s.islandOn .field = true → s.r SER.STATE ch = 3 →
      (s.r SER.EXPECT ch = 0 → (s.serX ch).t0 + 1000000 * s.r SER.TURN_MS ch ≤ (s.tick t).up →
        Gives (.serTurnaroundEnd t ch) s (fun u => u.r SER.STATE ch = 5 ∧ u.r SER.RESULT ch = 0 ∧ u.r SER.ERRORS ch = s.r SER.ERRORS ch)) ∧
      (s.r SER.EXPECT ch = 1 → (s.serX ch).t0 + 1000000 * s.r SER.RESP_TMO_MS ch ≤ (s.tick t).up →
        Gives (.serRespTimeout t ch) s (fun u => u.r SER.STATE ch = 5 ∧ u.r SER.RESULT ch = 1 ∧
          u.r SER.ERRORS ch = min (s.r SER.ERRORS ch + 1) (2 ^ 16 - 1)))) ∧
    (∀ (b : BitVec 8) (pOk fOk : Bool), s.islandOn .field = true →
      ((s.tick t).serDeaf ch = true → Gives (.serCharRx t ch b pOk fOk) s (fun u => u.ser = s.ser ∧ u.regs = s.regs)) ∧
      ((s.tick t).serDeaf ch = false →
      (s.r SER.STATE ch = 3 → s.r SER.EXPECT ch = 1 → s.r SER.MODE ch = 1 → (s.serX ch).rx = [] → (s.serX ch).abort = false →
        Gives (.serCharRx t ch b pOk fOk) s (fun u => u.r SER.STATE ch = 4 ∧ (u.serX ch).rx = [b.toNat] ∧
          (u.serX ch).lastChar = (s.tick t).up)) ∧
      (s.r SER.STATE ch = 4 → 512 ≤ (s.serX ch).rx.length → (s.serX ch).err = 0 → Gives (.serCharRx t ch b pOk fOk) s (fun u => u.r SER.STATE ch = 5 ∧
        u.r SER.RESULT ch = 7)) ∧
      (s.r SER.STATE ch = 0 → Gives (.serCharRx t ch b pOk fOk) s (fun u => u.ser = s.ser ∧
        u.r SER.UNSOLICITED ch = min (s.r SER.UNSOLICITED ch + 1) (2 ^ 16 - 1))))) ∧
    (s.islandOn .field = true → s.r SER.STATE ch = 4 → (s.serX ch).lastChar + s.endGap ch ≤ (s.tick t).up → (s.serX ch).err = 0 →
      (s.serX ch).abort = false →
      (s.r SER.MODE ch = 1 → Gives (.serFrameEnd t ch) s (fun u => u.r SER.STATE ch = 5 ∧ u.r SER.RESULT ch = 0 ∧
        u.r SER.RX_LEN ch = (s.serX ch).rx.length % 1024)) ∧
      (s.r SER.MODE ch = 2 → 3 ≤ (s.serX ch).rx.length →
        let n := (s.serX ch).rx.length - 2
        (crc16 ((s.serX ch).rx.take n) ≠ leVal ((s.serX ch).rx.drop n) →
          Gives (.serFrameEnd t ch) s (fun u => u.r SER.STATE ch = 5 ∧ u.r SER.RESULT ch = 5)) ∧
        (crc16 ((s.serX ch).rx.take n) = leVal ((s.serX ch).rx.drop n) → (s.serX ch).rx.head? = (s.txBytes ch).head? →
          Gives (.serFrameEnd t ch) s (fun u => u.r SER.STATE ch = 5 ∧ u.r SER.RESULT ch = 0))))

/-! ### Switch -/

/-- R438, R443, R445 to R448, R450, R453, R454: good frames count and teach, frames leave, links change; addresses are learnt, aged, added, deleted and looked up; flood tokens return; redundancy sends, watches and forgets. Where the rules leave a point open it follows the model's reading (assumptions 60, 62 and 152). -/
def Obligations.Switch : Prop :=
  ∀ (t : Nat) (r : Requester) (port : Fin 12) (pair : Fin 6) (s : State),
    (∀ f : EthFrame, s.islandOn .net = true → s.portUp port = true →
      (f.fcsOk = true → 64 ≤ f.len → f.len ≤ s.r ETH.MAX_FRAME port → f.pause = false → s.enabled 27 = true → f.redSeq = none →
        isPtp f = false → f.etype ≠ s.r SXE.ETHERTYPE → s.r ESW.RED_MODE 0 (port / 2) ≠ 2 → isMulticast f.src = false → fdbFind s.esw.fdb f.src (f.vid.getD (s.r ETH.PVID port)) = none →
        s.on ESW.TABLE_FULL = false → s.esw.learnQ.length < 17 →
        Gives (.ethFrameRx t port f) s (fun u => u.r ETH.RX_FRAMES port = min (s.r ETH.RX_FRAMES port + 1) (2 ^ 32 - 1) ∧
          u.esw.learnQ = s.esw.learnQ ++ [(f.src, f.vid.getD (s.r ETH.PVID port), port.val)] ∧ u.esw.fdb = s.esw.fdb))) ∧
    (∀ q, s.islandOn .net = true → s.portUp port = true → s.onWire port = some q ∨ (s.onWire port = none ∧ s.nextFrame port = some q) → Gives (.egressTx t (port.castLE (by decide))) s (fun u =>
      u.esw.egress = s.esw.egress.erase q ∧ u.r ETH.TX_FRAMES port = min (s.r ETH.TX_FRAMES port + 1) (2 ^ 32 - 1))) ∧
    (∀ up (sp : Fin 4), s.islandOn .net = true → Gives (.ethLinkChange t port up sp) s (fun u => u.on ETH.LINK_UP port = up ∧
      u.r ETH.SPEED port = if up then sp.val + 1 else 0)) ∧
    (∀ mac fid p q w, s.islandOn .net = true → s.esw.learnQ = (mac, fid, p) :: q → fdbFind s.esw.fdb mac fid = none →
      (s.on ESW.TABLE_FULL = true → Gives (.learnInsert t) s (fun u => u.esw.learnQ = q ∧ u.esw.fdb = s.esw.fdb ∧
        u.r ESW.LEARN_REFUSED = min (s.r ESW.LEARN_REFUSED + 1) (2 ^ 32 - 1))) ∧
      (s.on ESW.TABLE_FULL = false → fdbEmptyWay s.esw.hashKey s.esw.fdb { mac := mac, fid := fid } = some w →
        Gives (.learnInsert t) s (fun u => u.esw.learnQ = q ∧ u.esw.fdb = s.esw.fdb ++
          [⟨mac, fid, 1#13 <<< p, false, (s.tick t).up, w, fdbSlot s.esw.hashKey w mac fid⟩]))) ∧
    (∀ (mac : BitVec 48) (fid : BitVec 12) e, s.islandOn .net = true → fdbFind s.esw.fdb mac.toNat fid.toNat = some e →
      (e.static = false → e.seen + 1000000000 * s.r ESW.AGE_S ≤ (s.tick t).up →
        Gives (.entryAgeOut t mac fid) s (fun u => u.esw.fdb = fdbDrop s.esw.fdb e.mac e.fid)) ∧
      (e.static = true → Gives (.entryAgeOut t mac fid) s (fun u => u.esw.fdb = s.esw.fdb ∧ u.regs = s.regs))) ∧
    (Takes s r ⟨27, 0⟩ →
      (let tab := fdbDrop s.esw.fdb s.eMac (s.r ESW.E_FID)
       (4096 ≤ (tab.filter (·.static)).length → Gives (.fdbAdd t r) s (fun u => u.esw.fdb = s.esw.fdb ∧ u.r ESW.E_CAUSE = 2)) ∧
       ∀ w, (tab.filter (·.static)).length < 4096 →
        fdbEmptyWay s.esw.hashKey tab { mac := s.eMac, fid := s.r ESW.E_FID } = some w →
        Gives (.fdbAdd t r) s (fun u => u.r ESW.E_CAUSE = 0 ∧ u.r ESW.E_FOUND = 1 ∧ u.r ESW.E_STATIC = 1 ∧
          u.esw.fdb = tab ++ [⟨s.eMac, s.r ESW.E_FID, BitVec.ofNat 13 (s.r ESW.E_PORTS), true, (s.tick t).up, w,
            fdbSlot s.esw.hashKey w s.eMac (s.r ESW.E_FID)⟩])) ∧
      (∀ e, fdbFind s.esw.fdb s.eMac (s.r ESW.E_FID) = some e →
        Gives (.fdbLookup t r) s (fun u => u.esw = s.esw ∧ u.r ESW.E_FOUND = 1 ∧ u.r ESW.E_STATIC = e.static.toNat ∧
          u.r ESW.E_PORTS_NOW = e.ports.toNat ∧ u.r ESW.E_CAUSE = 0) ∧
        (e.static = true → Gives (.fdbDelete t r) s (fun u => u.esw.fdb = fdbDrop s.esw.fdb e.mac e.fid ∧ u.r ESW.E_CAUSE = 0)) ∧
        (e.static = false → Gives (.fdbDelete t r) s (fun u => u.esw.fdb = s.esw.fdb ∧ u.r ESW.E_FOUND = 0)))) ∧
    (s.islandOn .net = true → Gives (.floodRefill t port) s (fun u => u.regs = s.regs ∧ u.esw.fdb = s.esw.fdb ∧ sget 0 u.esw.tokens port =
      sget 0 s.esw.tokens port - ((s.tick t).up - sget 0 s.esw.refillAt port) * s.r ETH.FLOOD_RATE port / 1000000000)) ∧
    (s.islandOn .net = true → s.enabled 27 = true → s.r ESW.RED_MODE 0 pair ≠ 0 →
      (∀ a, s.esw.lifeAt.lookup pair.val = some a → a + 1000000 * s.r ESW.LIFE_MS 0 pair ≤ (s.tick t).up) → Gives (.prpSupervisionTx t pair) s (fun u =>
      sget 0 u.esw.sendSeq pair = (sget 0 s.esw.sendSeq pair + 1) % 65536 ∧ u.esw.fdb = s.esw.fdb)) ∧
    (∀ lanB : Bool, s.islandOn .net = true → s.enabled 27 = true → s.r ESW.RED_MODE 0 pair ≠ 0 →
      sget 0 s.esw.heard (2 * pair.val + lanB.toNat) + 3000000 * s.r ESW.LIFE_MS 0 pair ≤ (s.tick t).up → s.evtEn 27 0 1 = true →
      Gives (.redLanSilent t pair lanB) s (fun u => (u.h HDR.EVT_PEND ⟨27, 0⟩).testBit 1 = true ∧ u.esw = s.esw)) ∧
    (∀ (src : BitVec 48) (sq : BitVec 16) d, s.islandOn .net = true → s.esw.dups = [d] → d.pair = pair → d.src = src.toNat → d.seq = sq.toNat →
      d.t + 400000000 ≤ (s.tick t).up → Gives (.dupEntryForget t pair src sq) s (fun u => u.esw.dups = [] ∧
        (d.lanA = true → d.lanB = false → u.r ESW.CNT_ONLY_A 0 pair = min (s.r ESW.CNT_ONLY_A 0 pair + 1) (2 ^ 16 - 1)) ∧
        (d.lanA = false → d.lanB = true → u.r ESW.CNT_ONLY_B 0 pair = min (s.r ESW.CNT_ONLY_B 0 pair + 1) (2 ^ 16 - 1)))) ∧
    (Takes s r ⟨26, port⟩ → Gives (.ethCtrClr t r port) s (fun u => u.r ETH.RX_FRAMES port = 0 ∧ u.r ETH.TX_FRAMES port = 0 ∧
      u.r ETH.RX_ERRS port = 0 ∧ u.r ETH.TX_DROPS port = 0 ∧ u.r ETH.FLOOD_DROPS port = 0 ∧ u.esw = s.esw))

/-- R438: a port discards a received frame with a bad FCS, shorter than 64 bytes or longer than MAX_FRAME, and counts it in RX_ERRS: nothing is learnt, nothing leaves and no other count moves. -/
def Obligations.FrameDiscards : Prop :=
  ∀ (t : Nat) (port : Fin 12) (f : EthFrame) (s : State), s.islandOn .net = true → s.portUp port = true →
    f.fcsOk = false ∨ f.len < 64 ∨ s.r ETH.MAX_FRAME port < f.len →
    Gives (.ethFrameRx t port f) s (fun u => u.r ETH.RX_ERRS port = min (s.r ETH.RX_ERRS port + 1) (2 ^ 32 - 1) ∧
      u.r ETH.RX_FRAMES port = s.r ETH.RX_FRAMES port ∧ u.esw.learnQ = s.esw.learnQ ∧ u.esw.fdb = s.esw.fdb ∧
      u.esw.egress = s.esw.egress)

/-! ### Chain and pair -/

/-- R477 to R485, R499: ports go up and down, HELLO fills the membership, tables are built, claimed and committed, addresses are vacated, delays and time go out, frames are taken, forwarded or counted. Each while no HELLO round is under way. Where the rules leave a point open it follows the model's reading (assumptions 94 and 95). -/
def Obligations.ChainUnits : Prop :=
  ∀ (t : Nat) (r : Requester) (up : Bool) (s : State), s.islandOn .net = true → s.dch.helloAt = 0 →
    (let f := if up then DCH.UP_OK else DCH.DOWN_OK
     let p := if up then 0 else 1
     (∀ ok, s.chainPort p ≠ ok → Gives (.chainLinkChange t up ok) s (fun u => u.on f = ok ∧ u.r DCH.RING_OK = 0 ∧
        u.dch.helloAt = max 1 (s.tick t).up)) ∧
     (s.chainPort p = true → Gives (.creditTimeout t up) s (fun u => u.on f = false ∧ u.r DCH.RING_OK = 0)) ∧
     (s.chainPort p = false → Gives (.linkRetrain t up true) s (fun u => u.on f = true) ∧
       Gives (.linkRetrain t up false) s (fun u => u.regs = s.regs ∧ u.dch = s.dch)) ∧
     (∀ d, s.chainPort p = true → Gives (.chainDelayMeasure t up d) s (fun u => sget 0 u.dch.linkDelay p = d ∧ u.regs = s.regs)) ∧
     (∀ g : ChainFrame, s.enabled 11 = true → s.chainPort p = true →
      (g.crcOk = false → Gives (.chainFrameRx t up g) s (fun u => u.r DCH.CRC_ERRS = min (s.r DCH.CRC_ERRS + 1) (2 ^ 16 - 1) ∧ u.dch = s.dch)) ∧
      (g.crcOk = true → g.src = s.r DCH.UNIT_ADDR → g.dst = 0xFF → s.on DCH.UP_OK = true → s.on DCH.DOWN_OK = true →
        Gives (.chainFrameRx t up g) s (fun u => u.r DCH.RING_OK = 1 ∧ u.dch = s.dch)) ∧
      (g.crcOk = true → g.src ≠ s.r DCH.UNIT_ADDR → g.dst ≠ s.r DCH.UNIT_ADDR → g.dst ≠ 0xFF →
        (g.hops ≤ 1 → Gives (.chainFrameRx t up g) s (fun u => u.dch = s.dch ∧ u.regs = s.regs)) ∧
        (1 < g.hops → g.cls ≠ 0 → s.chainPort (1 - p) = true →
          Gives (.chainFrameRx t up g) s (fun u => sget {} u.dch.sent (1 - p) = { g with hops := g.hops - 1 } ∧ u.regs = s.regs))))) ∧
    (∀ x : ChainUnit, s.enabled 11 = true → x.serial ≠ s.serial → Gives (.hello t x) s (fun u =>
      (∃ m ∈ u.dch.members, m.serial = x.serial) ∧ sget 0 u.dch.heard x.serial = (s.tick t).up)) ∧
    (Takes s r dchPage →
      (s.on DCH.PAIR_EN = false → (∀ m ∈ s.dch.members, m.pairEn = false) → s.dch.claims = [] →
        Gives (.build t r) s (fun u => ∃ tab, u.dch.newTable = some ((s.r DCH.BIND_GEN + 1) % 2 ^ 32, tab) ∧ (1, s.serial) ∈ tab)) ∧
      (s.on DCH.PAIR_EN = true → Gives (.build t r) s (fun u => u.dch = s.dch ∧ u.r DCH.REFUSED = min (s.r DCH.REFUSED + 1) (2 ^ 8 - 1))) ∧
      (let a := s.r DCH.CMD_ADDR
       let x := s.r DCH.CLAIM_SERIAL_LO + 2 ^ 32 * s.r DCH.CLAIM_SERIAL_HI
       s.isMaster = true →
        (a < 16 → a ≠ 0 → s.dch.table.any (fun p => p.1 == a) = true → (s.r DCH.PRESENT).testBit a = false →
          Gives (.vacate t r) s (fun u => (u.r DCH.CLAIMABLE).testBit a = true)) ∧
        (a < 16 → (s.r DCH.CLAIMABLE).testBit a = true → x ∈ s.dch.claims → Gives (.claimAccept t r) s (fun u =>
          u.dch.newTable = some ((s.r DCH.BIND_GEN + 1) % 2 ^ 32, sput s.dch.table a x) ∧ u.r DCH.REFUSED = s.r DCH.REFUSED)) ∧
        (x ∉ s.dch.claims → Gives (.claimAccept t r) s (fun u => u.dch = s.dch ∧
          u.r DCH.REFUSED = min (s.r DCH.REFUSED + 1) (2 ^ 8 - 1)))) ∧
      Gives (.dchCtrClr t r) s (fun u => u.r DCH.MIRROR_LAG = 0 ∧ u.r DCH.HB_LOST_CNT = 0 ∧ u.r DCH.CRC_ERRS = 0 ∧
        u.r DCH.LINK_DROPS = 0 ∧ u.r DCH.TAKEOVERS = 0 ∧ u.r DCH.REFUSED = 0 ∧ u.r DCH.ROLE = s.r DCH.ROLE ∧ u.dch = s.dch)) ∧
    (∀ (a : Fin 16) p, s.dch.absentAt.find? (fun p => p.1 == a.val) = some p → a ≠ 0 → s.r DCH.VACANT_S ≠ 0 →
      p.2 + 1000000000 * s.r DCH.VACANT_S ≤ (s.tick t).up → s.dch.table.any (fun p => p.1 == a.val) = true →
      (s.r DCH.PRESENT).testBit a = false → Gives (.vacantExpiry t a) s (fun u => (u.r DCH.CLAIMABLE).testBit a = true)) ∧
    (∀ gen table, s.dch.newTable = some (gen, table) → gen < 2 ^ 32 →
      Gives (.bindTableCommit t) s (fun u => u.r DCH.BIND_GEN = gen ∧ u.dch.table = table)) ∧
    (s.r DCH.UNIT_ADDR ≠ 0 → s.timeMaster = s.r DCH.UNIT_ADDR → s.r DCH.UNIT_ADDR < 16 → s.enabled 11 = true →
      s.excluded = false → (s.tick t).now % 1000000000 = 0 →
      Gives (.chainTimeBroadcast t) s (fun u => u.r DCH.TIME_MASTER = s.r DCH.UNIT_ADDR ∧
        sget 0 u.dch.seqTx 0 = (sget 0 s.dch.seqTx 0 + 1) % 2 ^ 32))

/-- R488 to R492, R496, R497: heartbeats go out and are taken, leases and locks end, lost heartbeats ask for votes, a witness grants by its record, answers act, swaps and takes are asked for, cuts are numbered and applied, the full copy ends. Each while no HELLO round is under way. Where the rules leave a point open it follows the model's reading (assumptions 96, 97 and 154). -/
def Obligations.ChainPair : Prop :=
  ∀ (t : Nat) (r : Requester) (s : State), s.islandOn .net = true → s.dch.helloAt = 0 →
    (s.paired = true →
      Gives (.heartbeatTx t) s (fun u => u.dch.hbSeq = s.dch.hbSeq + 1 ∧ u.dch.hbSent.head? = some (s.dch.hbSeq + 1, (s.tick t).up) ∧
        u.r DCH.ROLE = s.r DCH.ROLE) ∧
      (∀ hb : Heartbeat,
        (hb.epoch.toNat = s.r DCH.PAIR_EPOCH → hb.role ≠ .active → Gives (.heartbeatRx t hb) s (fun u => u.r DCH.PEER_OK = 1 ∧
          u.dch.lastHb = (s.tick t).up ∧ u.dch.hbSeen = hb.seq ∧ u.r DCH.ROLE = s.r DCH.ROLE)) ∧
        (s.r DCH.PAIR_EPOCH < hb.epoch.toNat → s.r DCH.ROLE = 2 → Gives (.heartbeatRx t hb) s (fun u => u.r DCH.ROLE = 1 ∧
          u.r DCH.OUT_EN = 0 ∧ u.r DCH.PAIR_EPOCH = hb.epoch.toNat)) ∧
        (hb.epoch.toNat = s.r DCH.PAIR_EPOCH → hb.role = .active → s.r DCH.ROLE = 3 → Gives (.heartbeatRx t hb) s (fun u =>
          u.r DCH.ROLE = 4 ∧ u.r DCH.OUT_EN = 0)))) ∧
    (s.r DCH.ROLE = 3 →
      (s.dch.leaseEnd ≤ (s.tick t).up → s.dch.lockEnd ≤ (s.tick t).up → Gives (.leaseExpiry t) s (fun u => u.r DCH.ROLE = 4 ∧
        u.r DCH.OUT_EN = 0 ∧ u.r DCH.LEASE_OK = 0 ∧ u.r DCH.LOCK_OK = 0)) ∧
      ((s.tick t).up < s.dch.leaseEnd → Gives (.leaseExpiry t) s (fun u => u.r DCH.ROLE = 3 ∧ u.r DCH.LEASE_OK = 1)) ∧
      (s.dch.lastEcho + 2000 * s.r DCH.HB_US ≤ (s.tick t).up → s.dch.reqKind = 0 → s.dch.reqAt ≤ s.dch.lastEcho →
        Gives (.retainSend t) s (fun u => u.dch.reqKind = 1 ∧ u.dch.reqAt = (s.tick t).up ∧ u.r DCH.ROLE = 3)) ∧
      (s.on DCH.PEER_OK = true → s.dch.swapAt = none → (s.tick t).onSeries (s.r DCH.MIRROR_US) 0 = true → Gives (.mirrorCut t) s (fun u =>
        u.r DCH.CUT_SEQ = (s.r DCH.CUT_SEQ + 1) % 2 ^ 32 ∧ u.dch.lastCutAt = (s.tick t).now ∧ u.r DCH.ROLE = 3 ∧
        u.dch.cutOut.swap = false ∧ u.dch.cutOut.whole = s.dch.copyDue))) ∧
    (s.on DCH.PAIR_EN = true → s.on DCH.PEER_OK = true → s.dch.lastHb + 1000 * s.r DCH.HB_US * s.r DCH.HB_MISS ≤ (s.tick t).up →
      Gives (.hbLost t) s (fun u => u.r DCH.PEER_OK = 0 ∧ u.r DCH.HB_LOST_CNT = min (s.r DCH.HB_LOST_CNT + 1) (2 ^ 16 - 1) ∧
        u.dch.swapAt = none ∧ (s.r DCH.ROLE = 2 → u.dch.reqKind = 2 ∧ u.dch.reqEpoch = BitVec.ofNat 32 (s.r DCH.PAIR_EPOCH + 1)))) ∧
    (s.r DCH.ROLE = 2 → s.on DCH.PEER_OK = false → s.dch.reqKind = 0 → s.dch.reqAt + 500 * s.r DCH.LOCK_US ≤ (s.tick t).up →
      Gives (.takeRetry t) s (fun u => u.dch.reqKind = 2 ∧ u.dch.reqEpoch = BitVec.ofNat 32 (s.r DCH.PAIR_EPOCH + 1))) ∧
    (∀ q : VoteReq, s.excluded = false →
      let w := sget {} s.dch.served q.pair
      (s.mramOk = false → (∃ w', witnessRule w q (s.tick t).up (1000 * s.r DCH.LOCK_US) = some w') →
        Gives (.witnessRequest t q) s (fun u => u.dch = s.dch)) ∧
      (s.mramOk = true → q.kind = .retain → w.epoch = q.epoch → w.holder = q.from_ → Gives (.witnessRequest t q) s (fun u =>
        sget {} u.dch.served q.pair = { w with lockEnd := (s.tick t).up + 1000 * s.r DCH.LOCK_US })) ∧
      (s.mramOk = true → q.kind = .take → w.epoch.toNat < q.epoch.toNat → w.lockEnd ≤ (s.tick t).up → Gives (.witnessRequest t q) s (fun u =>
        sget {} u.dch.served q.pair = { w with epoch := q.epoch, holder := q.from_ })) ∧
      (q.kind = .take → (s.tick t).up < w.lockEnd → Gives (.witnessRequest t q) s (fun u => u.dch.served = s.dch.served)) ∧
      (s.mramOk = true → q.kind = .transfer → w.holder = q.from_ → q.epoch = w.epoch + 1 → Gives (.witnessRequest t q) s (fun u =>
        sget {} u.dch.served q.pair = { epoch := q.epoch, holder := q.to_, lockEnd := 0 }))) ∧
    (∀ p : Fin 16, (sget {} s.dch.served p).lockEnd ≤ (s.tick t).up → Gives (.lockExpiry t p) s (fun u =>
      sget {} u.dch.served p = { sget {} s.dch.served p with lockEnd := 0 } ∧ u.regs = s.regs)) ∧
    (s.dch.reqKind ≠ 0 → s.dch.reqAt + 1000 * s.r DCH.VOTE_TMO_US ≤ (s.tick t).up → Gives (.voteTimeout t) s (fun u =>
      u.dch.reqKind = 0 ∧ u.r DCH.ROLE = s.r DCH.ROLE)) ∧
    (s.dch.reqKind = 1 → s.r DCH.ROLE = 3 →
      (s.excluded = false → Gives (.voteGrantRx t s.dch.reqEpoch) s (fun u => u.dch.reqKind = 0 ∧ u.dch.lockEnd = s.dch.reqAt + 1000 * s.r DCH.LOCK_US ∧
        u.r DCH.ROLE = 3)) ∧
      (Takes s r dchPage → 16 ≤ s.r DCH.WITNESS → s.dch.reqEpoch.toNat = s.r DCH.VOTE_EPOCH →
        Gives (.voteGrant t r) s (fun u => u.dch.reqKind = 0 ∧ u.dch.lockEnd = s.dch.reqAt + 1000 * s.r DCH.LOCK_US) ∧
        Gives (.voteDeny t r) s (fun u => u.dch.reqKind = 0 ∧ u.dch.lockEnd = s.dch.lockEnd ∧ u.r DCH.ROLE = 3))) ∧
    (Takes s r dchPage →
      (s.r DCH.ROLE = 3 → s.dch.peerRole = .standby → s.on DCH.PEER_OK = true → Gives (.swap t r) s (fun u => u.dch.reqKind = 3 ∧
        u.dch.reqEpoch = BitVec.ofNat 32 (s.r DCH.PAIR_EPOCH + 1) ∧ u.r DCH.REFUSED = s.r DCH.REFUSED)) ∧
      (s.r DCH.ROLE ≠ 3 → Gives (.swap t r) s (fun u => u.dch = s.dch ∧ u.r DCH.REFUSED = min (s.r DCH.REFUSED + 1) (2 ^ 8 - 1))) ∧
      (s.r DCH.ROLE = 4 ∨ s.r DCH.ROLE = 2 → Gives (.pairTake t r) s (fun u => u.dch.reqKind = 2 ∧ u.dch.reqAt = (s.tick t).up))) ∧
    (∀ cut : CutX, s.follows = true → cut.swap = false → Gives (.mirrorCutApply t cut) s (fun u =>
      u.r DCH.CUT_SEQ = cut.seq.toNat ∧ u.dch.lastCutAt = (s.tick t).now ∧ u.dataMem = putAll (fun _ => 0) (if cut.whole then [] else s.dataMem) cut.data ∧
      u.retMem = putAll (fun _ => 0) (if cut.whole then [] else s.retMem) cut.ret)) ∧
    (s.r DCH.ROLE = 1 → Gives (.fullCopyDone t) s (fun u => u.r DCH.ROLE = 2 ∧ u.r DCH.SYNC_PCT = 100 ∧ u.dch.copyDone = true))

/-- R490, R494, R496: a granted TAKE makes a standby or a fenced unit ACTIVE under the epoch of the grant, and a cut with the swap marker hands the active role over. Where the rules leave a point open it follows the model's reading (assumptions 96 and 154). -/
def Obligations.Takeover : Prop :=
  ∀ (t : Nat) (s : State), s.islandOn .net = true → s.dch.helloAt = 0 →
    (s.excluded = false → s.dch.reqKind = 2 → s.r DCH.ROLE = 2 ∨ s.r DCH.ROLE = 4 → Gives (.voteGrantRx t s.dch.reqEpoch) s (fun u => u.r DCH.ROLE = 3 ∧
      u.r DCH.OUT_EN = 1 ∧ u.r DCH.PAIR_EPOCH = s.dch.reqEpoch.toNat ∧ u.r DCH.TAKEOVERS = min (s.r DCH.TAKEOVERS + 1) (2 ^ 16 - 1) ∧
      ∀ a : Fin 24, u.r MPG.VELOCITY a = 0)) ∧
    (∀ i, s.r DCH.ROLE = 3 → s.on DCH.PEER_OK = true → s.dch.swapAt = some i → i ≤ (s.tick t).now →
      (s.tick t).onSeries (s.r DCH.MIRROR_US) 0 = true → Gives (.mirrorCut t) s (fun u =>
      u.r DCH.ROLE = 2 ∧ u.r DCH.OUT_EN = 0 ∧ u.r DCH.PAIR_EPOCH = s.dch.swapEpoch.toNat))

/-! ### Recorder -/

/-- R457 to R459, R463 to R467, R475: messages enter the queue or are counted lost, an enabled code writes its record with the next number, buckets refill, summaries flush, settings change, records are persisted, counters clear. Where the rules leave a point open it follows the model's reading (assumption 13). -/
def Obligations.RecorderLog : Prop :=
  ∀ (t : Nat) (r : Requester) (s : State),
    (∀ m ms, s.islandOn .keep = true → s.rcd.inQ = m :: ms →
      (s.rcd.queue.length < 256 → Gives (.recInput t) s (fun u => u.rcd.queue = s.rcd.queue ++ [m] ∧ u.rcd.inQ = ms ∧ u.regs = s.regs)) ∧
      (256 ≤ s.rcd.queue.length → Gives (.recInput t) s (fun u => u.rcd.queue = s.rcd.queue ∧ u.rcd.lostOwed = s.rcd.lostOwed + 1 ∧
        u.r REC.INPUT_LOST = min (s.r REC.INPUT_LOST + 1) (2 ^ 32 - 1)))) ∧
    (∀ m ms, s.islandOn .keep = true → s.rcd.queue = m :: ms → s.rcd.lostOwed = 0 →
      (s.held = false → (s.code m.recCode).en = true → (s.code m.recCode).cls = 0 → Gives (.recRecordWrite t) s (fun u =>
        u.rcd.queue = ms ∧ u.r REC.HEAD_SEQ = (s.r REC.HEAD_SEQ + 1) % 2 ^ 32 ∧
        ∃ x, u.rcd.ring.getLast? = some x ∧ x.code = m.recCode ∧ x.seq.toNat = s.r REC.HEAD_SEQ)) ∧
      ((s.code m.recCode).en = false → Gives (.recRecordWrite t) s (fun u => u.rcd.queue = ms ∧ u.rcd.ring = s.rcd.ring ∧
        u.regs = s.regs))) ∧
    (∀ c : BitVec 16, s.islandOn .keep = true → 
      (mandatory c.toNat = false → (s.cls (s.code c.toNat).cls).1 ≠ 0 → (s.code c.toNat).spent ≠ 0 → Gives (.rateRefill t c) s (fun u =>
        (u.code c.toNat).spent = (s.code c.toNat).spent -
          ((s.tick t).up - (s.code c.toNat).refillAt) / (1000000 * (s.cls (s.code c.toNat).cls).1) ∧ u.regs = s.regs)) ∧
      ((s.code c.toNat).supp ≠ 0 → (s.code c.toNat).firstS + s.r REC.SUPP_FLUSH_S ≤ (s.tick t).opSec → s.held = false →
        Gives (.suppressionFlush t c) s (fun u => (u.code c.toNat).supp = 0 ∧ u.r REC.HEAD_SEQ = (s.r REC.HEAD_SEQ + 1) % 2 ^ 32))) ∧
    (Takes s r ⟨10, 0⟩ →
      (∀ v : Word,
        (mandatory (s.r REC.CODE_SEL) = false → Gives (.codeCfgWrite t r v) s (fun u =>
          (u.code (s.r REC.CODE_SEL)).en = v.getLsbD 0 ∧ (u.code (s.r REC.CODE_SEL)).cls = v.toNat / 16 % 16)) ∧
        (mandatory (s.r REC.CODE_SEL) = true → Gives (.codeCfgWrite t r v) s (fun u => u.rcd = s.rcd)) ∧
        Gives (.classCfgWrite t r v) s (fun u => u.cls (s.r REC.CLASS_SEL) =
          (max 1 (min (v.toNat % 2 ^ 22) 3600000), max 1 (v.toNat / 2 ^ 24 % 256)))) ∧
      Gives (.recCtrClr t r) s (fun u => u.r REC.OVERWRITTEN = 0 ∧ u.r REC.LOST_UNEXPORTED = 0 ∧ u.r REC.INPUT_LOST = 0 ∧
        u.r REC.SUPP_TOTAL = 0 ∧ u.r REC.PRIV_VIOL = 0 ∧ u.r REC.REFUSED = 0 ∧ u.rcd = s.rcd)) ∧
    (s.islandOn .keep = true → s.r REC.PERSIST_OK = 1 →
      (∀ x xs, s.unpersisted = x :: xs → s.mramOk = true → Gives (.persistWrite t true) s (fun u =>
        u.r REC.PERSIST_SEQ = x.seq.toNat ∧ u.rcd.image.getLast? = some x ∧ u.rcd.ring = s.rcd.ring)) ∧
      Gives (.persistWrite t false) s (fun u => u.r REC.PERSIST_OK = 0))

/-- R468 to R472, R475: a freeze holds the ring and ends by command or by time, the window shows whole records to readers, an export starts, ends in its output or is aborted, a clear is refused with a cause or marks its segments. Where the rules leave a point open it follows the model's reading (assumptions 14, 51 and 52). -/
def Obligations.RecorderReading : Prop :=
  ∀ (t : Nat) (r : Requester) (s : State),
    (Takes s r ⟨10, 0⟩ →
      (s.on REC.FROZEN = false → (s.rcd.holding.map Rec1.len).sum ≤ 262000 → Gives (.recFreeze t r) s (fun u => u.r REC.FROZEN = 1 ∧
        u.r REC.FRZ_FIRST = s.r REC.OLDEST_SEQ ∧ u.rcd.ring = s.rcd.ring ∧ u.rcd.frozenBy = ownerCode r)) ∧
      (s.on REC.FROZEN = true →
        Gives (.recFreeze t r) s (fun u => u.rcd = s.rcd ∧ u.r REC.REFUSED = min (s.r REC.REFUSED + 1) (2 ^ 16 - 1)) ∧
        Gives (.recRelease t r) s (fun u => u.r REC.FROZEN = 0)) ∧
      (∀ v : Word, Gives (.winSeqWrite t r v) s (fun u => u.r REC.WIN_SEQ = v.toNat ∧
        u.rcd.win = s.rcd.ring.find? (fun y => y.seq.toNat == v.toNat) ∧ u.r REC.WIN_FOUND = u.rcd.win.isSome.toNat)) ∧
      Gives (.winNext t r) s (fun u => u.r REC.WIN_SEQ = (s.r REC.WIN_SEQ + 1) % 2 ^ 32 ∧
        u.rcd.win = s.rcd.ring.find? (fun y => y.seq.toNat == (s.r REC.WIN_SEQ + 1) % 2 ^ 32)) ∧
      (s.rcd.exporting = none → Gives (.exportStart t r) s (fun u => u.r REC.EXP_STATE = 1 ∧ u.r REC.HOLDING = 1 ∧
        u.rcd.exporting = some (s.r REC.EXP_FROM, (s.r REC.HEAD_SEQ + 2 ^ 32 - 1) % 2 ^ 32, (s.tick t).opSec))) ∧
      (s.rcd.exporting.isSome = true → Gives (.exportAbort t r) s (fun u => u.r REC.EXP_STATE = 3 ∧ u.r REC.HOLDING = 0 ∧
        u.rcd.exporting = none)) ∧
      (let tok := s.gen (s.r REC.CLR_TOKEN) 128
       let b := s.tokenBlock (s.r REC.CLR_TOKEN)
       let vfy := s.vfyCause 4 tok b (tokenFits (s.r REC.CLR_TOKEN) b) (s.ownerOr 2) s.anchorKey
       Gives (.clearStart t r) s (fun u => u.r REC.CLR_CAUSE = s.clearCause tok b vfy ∧
        (s.clearCause tok b vfy = 0 → u.rcd.clearing = some (blk tok 0x18 4)) ∧
        (s.clearCause tok b vfy ≠ 0 → u.rcd.clearing = s.rcd.clearing) ∧ u.general = s.general))) ∧
    (s.islandOn .keep = true → s.on REC.FROZEN = true → s.rcd.frozenAt + 1000000000 * s.r REC.FREEZE_MAX_S ≤ (s.tick t).up →
      Gives (.freezeMaxExpiry t) s (fun u => u.r REC.FROZEN = 0)) ∧
    (∀ idx : Fin 129, s.reaches r ⟨10, 0⟩ = true →
      (∀ x, s.isReader r = true → s.rcd.win = some x → Gives (.winDataRead t r idx) s (fun u => u.regs = s.regs ∧
        sget 0 u.resp (ownerCode r) = BitVec.ofNat 32 (leVal ((x.bytes.drop (4 * idx)).take 4)))) ∧
      (s.isReader r = false → Gives (.winDataRead t r idx) s (fun u => sget 0 u.resp (ownerCode r) = 0 ∧
        u.r REC.PRIV_VIOL = min (s.r REC.PRIV_VIOL + 1) (2 ^ 16 - 1)))) ∧
    (∀ a z o, s.islandOn .keep = true → s.rcd.exporting = some (a, z, o) → Gives (.exportDone t) s (fun u => u.rcd.exporting = none ∧ u.r REC.EXP_STATE = 2 ∧
      u.r REC.HOLDING = 0 ∧ ∀ b, b < s.r REC.EXP_DST → sget 0 u.general b = sget 0 s.general b)) ∧
    (∀ upto, s.islandOn .keep = true → s.rcd.clearing = some upto → Gives (.clearMarkDone t) s (fun u => u.rcd.clearing = none ∧
      u.rcd.ring = s.rcd.ring.filter (fun x => !clearable s.rcd.ring upto x)))

/-! ### Security and update -/

/-- R508, R510, R511, R513, R514, R516, R519: an attestation takes an index and writes its report, a token is applied or refused with a cause and draws a new nonce, the debug port closes, an install goes from step to step and switches or is aborted, counters clear. Where the rules leave a point open it follows the model's reading (assumptions 15, 16, 17, 18 and 54). -/
def Obligations.Security : Prop :=
  ∀ (t : Nat) (r : Requester) (s : State),
    (Takes s r ⟨2, 0⟩ →
      (s.sec.attesting = false → s.r SEC.FW_STATE ≠ 6 → s.sec.signTimes = [] → s.idx < s.sec.batchEnd → s.idx < 2 ^ 40 - 1 →
        Gives (.attestStart t r) s (fun u => u.r SEC.ATT_CAUSE = 0 ∧ u.sec.attesting = true ∧ u.sec.attIdx = s.idx ∧
          u.sec.attNonce = s.gen (s.r SEC.ATT_SRC) 32 ∧ u.idx = s.idx + 1 ∧ u.r SEC.SIGNS = min (s.r SEC.SIGNS + 1) (2 ^ 32 - 1))) ∧
      (let tok := s.gen (s.r SEC.TOK_ADDR) 128
       let b := s.tokenBlock (s.r SEC.TOK_ADDR)
       let vfy := s.vfyCause 4 tok b (tokenFits (s.r SEC.TOK_ADDR) b) (s.tokenSlot tok b) (s.tokenKey tok b)
       let c := s.tokenCause tok b vfy
       Gives (.tokenApply t r) s (fun u => u.r SEC.VFY_CAUSE = vfy ∧ u.r SEC.TOK_CAUSE = c ∧
        (c = 0 → blk tok 6 1 = 2 → u.r SEC.DBG_SCOPE = blk tok 0x18 4 ∧
          u.sec.dbgEnd = (s.tick t).up + 1000000000 * blk tok 0x1C 4) ∧
        (c ≠ 0 → u.r SEC.DBG_SCOPE = s.r SEC.DBG_SCOPE ∧ u.r SEC.MIN_SVN = s.r SEC.MIN_SVN ∧
          u.r SEC.ANCHOR_VALID = s.r SEC.ANCHOR_VALID))) ∧
      Gives (.dbgClose t r) s (fun u => u.r SEC.DBG_SCOPE = 0) ∧
      (s.r SEC.FW_STATE = 0 → Gives (.install t r) s (fun u => u.r SEC.FW_STATE = 1 ∧ u.r SEC.FW_ACTIVE = s.r SEC.FW_ACTIVE)) ∧
      (s.r SEC.FW_STATE ≠ 0 → Gives (.install t r) s (fun u => u.sec = s.sec ∧ u.r SEC.FW_STATE = s.r SEC.FW_STATE ∧
        u.r SEC.REFUSED = min (s.r SEC.REFUSED + 1) (2 ^ 16 - 1))) ∧
      (1 ≤ s.r SEC.FW_STATE → s.r SEC.FW_STATE < 5 → Gives (.installAbort t r) s (fun u => u.r SEC.FW_STATE = 0 ∧
        u.r SEC.FW_ACTIVE = s.r SEC.FW_ACTIVE)) ∧
      (s.r SEC.FW_STATE = 6 → Gives (.installSwitch t r) s (fun u => u.sec.switchReq = true ∧ u.r SEC.FW_STATE = 6)) ∧
      Gives (.secCtrClr t r) s (fun u => u.r SEC.REJECTED = 0 ∧ u.r SEC.REFUSED = 0 ∧ u.r SEC.SIGNS = 0 ∧ u.sec = s.sec)) ∧
    (s.islandOn .keep = true → s.sec.dbgEnd ≤ (s.tick t).up → Gives (.debugExpiry t) s (fun u => u.r SEC.DBG_SCOPE = 0)) ∧
    (s.islandOn .keep = true → s.sec.attesting = true → Gives (.attestDone t) s (fun u => u.sec.attesting = false ∧ u.fuses = s.fuses ∧
      ∀ b, b < s.r SEC.ATT_DST → sget 0 u.general b = sget 0 s.general b)) ∧
    (s.islandOn .keep = true → s.r SEC.FW_STATE = 2 → Gives (.installStepDone t) s (fun u => u.r SEC.FW_STATE = 3 ∧ u.sec.journal = some 2 ∧
      ∀ m ∈ u.sec.markers, m.1 ≠ 1 - s.r SEC.FW_ACTIVE)) ∧
    (s.islandOn .keep = true → s.r SEC.FW_STATE = 3 → s.sec.copyAt + s.r SEC.FW_SIZE * 1000000000 / 6144 ≤ (s.tick t).up →
      Gives (.installStepDone t) s (fun u => u.r SEC.FW_STATE = 4 ∧ u.sec.journal = some 3 ∧
        ∀ p, p ∈ s.sec.fwSlots → p.1 / 2 ^ 19 ≠ s.fwTarget → p ∈ u.sec.fwSlots)) ∧
    (s.islandOn .keep = true → s.r SEC.FW_STATE = 4 →
      (s.mramOk = true → Config.shake256 (s.gen (s.r SEC.FW_SRC) (s.r SEC.FW_SIZE)) 64 = s.sec.fwDigest →
        Gives (.installStepDone t) s (fun u => u.r SEC.FW_STATE = 5 ∧ u.sec.journal = some 4)) ∧
      (s.mramOk = false ∨ Config.shake256 (s.gen (s.r SEC.FW_SRC) (s.r SEC.FW_SIZE)) 64 ≠ s.sec.fwDigest →
        Gives (.installStepDone t) s (fun u => u.r SEC.FW_STATE = 0 ∧ u.sec.journal = none))) ∧
    (s.islandOn .keep = true → s.r SEC.FW_STATE = 5 → Gives (.installStepDone t) s (fun u => u.r SEC.FW_STATE = 6 ∧
      ∃ q, (1 - s.r SEC.FW_ACTIVE, q, s.r PST.DEV0_STATE == 1, s.r PST.DEV1_STATE == 1) ∈ u.sec.markers)) ∧
    (s.islandOn .keep = true → s.r SEC.FW_STATE = 6 →
      s.ho.pause = true ∨ (s.sec.switchReq = true ∧ (s.r DCH.ROLE = 1 ∨ s.r DCH.ROLE = 2)) → Gives (.installStepDone t) s (fun u => u.r SEC.FW_STATE = 0 ∧
      u.r SEC.FW_ACTIVE = (1 - s.r SEC.FW_ACTIVE) % 2 ∧ u.ho.pause = false))

/-! ### Frames -/

/-- No command but those that write bytes changes a byte memory: the fuses, the general SRAM, the solver SRAM (R25, R76, R501). -/
def Obligations.MemoriesKept : Prop :=
  ∀ (c : Instr) (s u : State), exec c s = .next u →
    (match c with
      | .attestStart .. | .exportDone .. | .tokenApply .. | .registerWrite .. | .t_ .. | .bmov .. | .remoteReadResponse .. => True
      | _ => u.fuses = s.fuses) ∧
    (match c with
      | .attestStart .. | .exportDone .. | .tokenApply .. | .registerWrite .. | .t_ .. | .bmov .. | .remoteReadResponse .. | .attestDone .. | .clearStart .. |
        .powerOnReset .. | .sysrst .. | .brownOut .. | .sysRst .. | .keeperWatchdog .. | .keepEntryDone .. | .newtWake .. |
        .minOffEnd .. | .solverSramHostWrite .. => True
      | _ => u.general = s.general) ∧
    (match c with
      | .attestStart .. | .exportDone .. | .tokenApply .. | .registerWrite .. | .t_ .. | .bmov .. | .remoteReadResponse .. | .attestDone .. | .clearStart .. |
        .powerOnReset .. | .sysrst .. | .brownOut .. | .sysRst .. | .keeperWatchdog .. | .keepEntryDone .. | .newtWake .. |
        .minOffEnd .. | .solverSramHostWrite .. | .enable .. | .softReset .. | .applyInstant .. | .stageBoundary .. |
        .contApplied .. | .stagePrepare .. | .tripSet .. | .tripReqSample .. | .tripStateClear .. | .chainFrameRx .. | .bootStep .. | .mirrorCutApply .. |
        .snapshotInstant .. | .descWindowOpen .. | .descWindowEnd .. => True
      | _ => u.solver = s.solver)

/-- R203, R247, R258, R284, R297, R411 to R455: the commands that change a memory or the records of a block are those of that block: loop memory, the memory of the repetitive controller, program, retentive and image memories, channels, outputs, hammer groups, CAN and serial channels, the switch, stations, queues, forces and the AON registers. Every command but the named ones, and but those that act on every block, leaves each of them as it was. -/
def Obligations.RecordsKept : Prop :=
  ∀ (c : Instr) (s u : State), exec c s = .next u → actsOnAll c = false →
    (match c with
      | .loopSample .. | .loopUpdateDone .. | .loopOutput .. | .commit .. | .liveFieldWrite .. => True
      | _ => u.loopMem = s.loopMem) ∧
    (match c with | .loopSample .. | .loopUpdateDone .. => True | _ => u.rcMem = s.rcMem) ∧
    (match c with | .chgCopyDone .. | .engineFail .. => True | _ => u.progMem = s.progMem) ∧
    (match c with
      | .call .. | .ret .. | .end_ .. | .watchdog .. | .restartWarm .. | .restartCold .. | .restartStop .. | .chgArm .. | .engineFail .. |
        .engineTestDone .. | .pwrKeep .. | .memDataWrite .. => True
      | _ => u.retMem = s.retMem) ∧
    (match c with | .stationCycleStart .. | .inputFrameRx .. => True | _ => u.inImg = s.inImg) ∧
    (match c with
      | .applyInstant .. | .stageBoundary .. | .contApplied .. | .loopUpdateDone .. | .loopOutput .. => True
      | _ => u.outImg = s.outImg) ∧
    (match c with
      | .loopSample .. | .loopUpdateStart .. | .loopUpdateDone .. | .loopOutput .. | .commit .. | .rcClear .. | .rcClearDone .. |
        .timeStep .. | .timeSet .. | .timeAdd .. => True
      | _ => u.loops = s.loops) ∧
    (match c with | .sdFilterOutput .. | .sdLimitOutput .. | .sdClockLoss .. | .sdDataStuck .. | .timeStep .. | .timeSet .. | .timeAdd .. => True | _ => u.sd = s.sd) ∧
    (match c with | .pulseEdge .. | .pulseGateEnd .. | .pulseTimeout .. | .timeStep .. | .timeSet .. | .timeAdd .. => True | _ => u.pulse = s.pulse) ∧
    (match c with
      | .loopUpdateDone .. | .loopOutput .. | .sdLimitOutput .. | .pwmPeriodStart .. | .pwmCentre .. | .dutyWrite .. | .dutyTimeout .. |
        .tripInput .. | .actTripClear .. | .timeStep .. | .timeSet .. | .timeAdd .. => True
      | _ => u.pwm = s.pwm) ∧
    (match c with | .loopUpdateDone .. | .loopOutput .. | .loopSample .. | .commit .. => True | _ => u.groups = s.groups) ∧
    (match c with
      | .canModeWrite .. | .canIntegrated .. | .cancel .. | .canSelection .. | .canTxAttemptEnd .. | .canFrameRx .. | .rxAck .. | .recover .. |
        .recovered .. => True
      | _ => u.can = s.can) ∧
    (match c with
      | .serStart .. | .serAbort .. | .serIdleGap .. | .serTxDone .. | .serTurnaroundEnd .. | .serRespTimeout .. | .serCharRx .. | .serFrameEnd .. => True
      | _ => u.ser = s.ser) ∧
    (match c with
      | .ethFrameRx .. | .egressTx .. | .ethLinkChange .. | .learnInsert .. | .entryAgeOut .. | .fdbAdd .. | .fdbDelete .. | .floodRefill .. |
        .prpSupervisionTx .. | .dupEntryForget .. | .outputFrameTx .. => True
      | _ => u.esw = s.esw) ∧
    (match c with
      | .stationCycleStart .. | .inputFrameRx .. | .readEnd .. | .outputFrameTx .. | .sxeCtrClr .. => True
      | _ => u.stations = s.stations) ∧
    (match c with | .hqeRecordOffer .. | .hqeWriteback .. | .hqeIntTimer .. | .qEnWrite .. | .flr .. => True | _ => u.queues = s.queues) ∧
    (match c with
      | .call .. | .ret .. | .end_ .. | .watchdog .. | .restartWarm .. | .restartCold .. | .restartStop .. | .chgArm .. | .engineFail .. |
        .engineTestDone .. | .pwrKeep .. | .forceOnWrite .. | .forceClrAll .. => True
      | _ => u.forces = s.forces) ∧
    (match c with | .aonWriteDelivery .. | .backupDomainReset .. => True | _ => u.aonRegs = s.aonRegs)

/-- R346 to R372, R411 to R436: a command of EIC, of a host port, of a CAN channel or of a serial channel changes registers of its own page, and of IFX for a stray access, and no other channel's record, no engine but the offer that stands for it, and no time record. -/
def Obligations.ChannelFrames : Prop :=
  ∀ (t : Nat) (r : Requester) (c : Instr) (s u : State), exec c s = .next u →
    (∀ (ch : Fin 8) (b : BitVec 8) (p f : Bool), c ∈ [Instr.serStart t r ch, .serAbort t r ch, .serIdleGap t ch, .serTxDone t ch,
        .serTurnaroundEnd t ch, .serRespTimeout t ch, .serCharRx t ch b p f, .serFrameEnd t ch, .serCtrClr t r ch] →
      Elsewhere [⟨25, ch⟩, ⟨4, 0⟩] s u ∧ (∀ d : Fin 8, d ≠ ch → u.serX d = s.serX d) ∧ u.can = s.can ∧ u.engines = s.engines ∧
      u.dch = s.dch ∧ u.tmk = s.tmk ∧ u.dataMem = s.dataMem ∧ u.aonRegs = s.aonRegs) ∧
    (∀ (ch : Fin 16) (v : Word) (m : BitVec 3) (res : CanTxResult) (f : CanFrame) (k : CanErr) (back : Nat) (dl : Option Nat),
      c ∈ [Instr.canModeWrite t r ch v, .canIntegrated t ch, .txReq t r ch m, .cancel t r ch m, .canSelection t ch,
        .canTxAttemptEnd t ch ⟨res, back, dl⟩, .canFrameRx t ch ⟨f, back⟩, .canRxError t ch k, .rxAck t r ch, .recover t r ch, .recovered t ch,
        .cfdCtrClr t r ch] →
      (∀ b, (s.canX ch).sending = some b → b < 3) →
      Elsewhere [⟨24, ch⟩, ⟨4, 0⟩] s u ∧ (∀ d : Fin 16, d ≠ ch → u.canX d = s.canX d) ∧ u.ser = s.ser ∧ u.engines = s.engines ∧
      u.dch = s.dch ∧ u.tmk = s.tmk ∧ u.dataMem = s.dataMem ∧ u.aonRegs = s.aonRegs) ∧
    (∀ (n : Fin 256) (g : Fin 16) (v : Word), c ∈ [Instr.eicSourceEdge t n, .eicRoute t, .modIntervalEnd t g, .setSrc t r n,
        .srcCfgWrite t r n v, .pendingAged t n, .eicCtrClr t r] →
      Elsewhere [⟨5, 0⟩, ⟨4, 0⟩] s u ∧ u.queues = s.queues ∧ u.tmk = s.tmk ∧ u.dataMem = s.dataMem ∧
      ∀ e : Fin 4, u.eng e = { s.eng e with offered := (u.eng e).offered }) ∧
    (∀ (p : Fin 2) (q : Fin 8) (v : Word) (x : Fin 9) (on : Bool) (sp w : Fin 8), c ∈ [Instr.hqeRecordOffer t p, .hqeWriteback t p,
        .hqeIntTimer t p q, .msixUnmask t p x, .consWrite t r p q v, .qEnWrite t r p q on, .pcieLinkChange t p on sp w,
        .cplTimeout t p, .flr t p] →
      (∀ k, s.r HQE.QUEUE p k < 8) → (∀ h ∈ (s.port p).buf, h.q < 8) →
      Elsewhere [⟨7, p⟩, ⟨4, 0⟩] s u ∧ u.sources = s.sources ∧ u.engines = s.engines ∧ u.tmk = s.tmk ∧ u.dataMem = s.dataMem)
end

