-- ==== Sys2Proof/Laws/Sparse.lean ====
section
/-! SUPPORT. Laws of sparse tables: a read after a write, a write elsewhere, and the canonical form that every write keeps. -/

namespace Sys2Proof.Laws

open Sys2Proof Sys2Proof.Machine

variable {α : Type} [DecidableEq α]

omit [DecidableEq α] in
@[simp] theorem sget_nil (d : α) (k : Nat) : sget d [] k = d := rfl

omit [DecidableEq α] in
theorem sget_sput_same (d : α) (m : List (Nat × α)) (k : Nat) (v : α) : sget d (sput m k v) k = v := by
  induction m with
  | nil => simp [sput, sget]
  | cons p m ih =>
    obtain ⟨j, w⟩ := p
    simp only [sput]
    split
    · simp [sget]
    · split
      · simp [sget]
      · simp [sget, *]

omit [DecidableEq α] in
theorem sget_sput_ne (d : α) (m : List (Nat × α)) {k k' : Nat} (v : α) (h : k' ≠ k) : sget d (sput m k v) k' = sget d m k' := by
  induction m with
  | nil => simp [sput, sget, h]
  | cons p m ih =>
    obtain ⟨j, w⟩ := p
    simp only [sput]
    split
    · subst_vars; simp [sget, h]
    · split
      · simp [sget, h]
      · simp only [sget, ih]

omit [DecidableEq α] in
theorem sget_filter_ne (d : α) (m : List (Nat × α)) {k k' : Nat} (h : k' ≠ k) : sget d (sdel m k) k' = sget d m k' := by
  induction m with
  | nil => rfl
  | cons p m ih =>
    obtain ⟨j, w⟩ := p
    by_cases hj : j = k
    · subst hj
      have e : sdel ((j, w) :: m) j = sdel m j := by simp [sdel]
      rw [e, ih, sget, if_neg h]
    · have e : sdel ((j, w) :: m) k = (j, w) :: sdel m k := by simp [sdel, hj]
      rw [e, sget, sget, ih]

omit [DecidableEq α] in
theorem sget_sdel_same (d : α) (m : List (Nat × α)) (k : Nat) : sget d (sdel m k) k = d := by
  induction m with
  | nil => rfl
  | cons p m ih =>
    obtain ⟨j, w⟩ := p
    by_cases hj : j = k
    · subst hj
      have e : sdel ((j, w) :: m) j = sdel m j := by simp [sdel]
      rw [e, ih]
    · have e : sdel ((j, w) :: m) k = (j, w) :: sdel m k := by simp [sdel, hj]
      rw [e, sget, if_neg (Ne.symm hj), ih]

/-- A read after a write to the same key gives the value written. -/
@[simp] theorem sget_sset_same (d : α) (m : List (Nat × α)) (k : Nat) (v : α) : sget d (sset d m k v) k = v := by
  unfold sset
  split
  · subst_vars; exact sget_sdel_same _ m k
  · exact sget_sput_same d m k v

/-- A write leaves every other key alone. -/
theorem sget_sset_ne (d d' : α) (m : List (Nat × α)) {k k' : Nat} (v : α) (h : k' ≠ k) : sget d (sset d' m k v) k' = sget d m k' := by
  unfold sset
  split
  · exact sget_filter_ne d m h
  · exact sget_sput_ne d m v h

/-- A read after a write, at any key. -/
theorem sget_sset (d : α) (m : List (Nat × α)) (k k' : Nat) (v : α) : sget d (sset d m k v) k' = if k' = k then v else sget d m k' := by
  by_cases h : k' = k
  · subst h; simp
  · simp [h, sget_sset_ne d d m v h]

/-! ### The canonical form -/

theorem wf_iff (d : α) (m : List (Nat × α)) :
    Sparse.wf d m = true ↔ m.Pairwise (fun p q => p.1 < q.1) ∧ ∀ p ∈ m, p.2 ≠ d := by
  simp [Sparse.wf]

@[simp] theorem wf_nil (d : α) : Sparse.wf d ([] : List (Nat × α)) = true := rfl

theorem sdel_wf (d : α) (m : List (Nat × α)) (k : Nat) (h : Sparse.wf d m = true) : Sparse.wf d (sdel m k) = true := by
  rw [wf_iff] at *
  exact ⟨h.1.filter _, fun p hp => h.2 p (List.mem_filter.mp hp).1⟩

omit [DecidableEq α] in
theorem mem_sput {m : List (Nat × α)} {k : Nat} {v : α} {p : Nat × α} (h : p ∈ sput m k v) : p = (k, v) ∨ p ∈ m := by
  induction m with
  | nil => simpa [sput] using h
  | cons q m ih =>
    obtain ⟨j, w⟩ := q
    simp only [sput] at h
    split at h
    · rcases List.mem_cons.mp h with h | h
      · exact .inl h
      · exact .inr (List.mem_cons_of_mem _ h)
    · split at h
      · rcases List.mem_cons.mp h with h | h
        · exact .inl h
        · exact .inr h
      · rcases List.mem_cons.mp h with h | h
        · exact .inr (h ▸ List.mem_cons_self)
        · rcases ih h with h | h
          · exact .inl h
          · exact .inr (List.mem_cons_of_mem _ h)

theorem sput_wf (d : α) (m : List (Nat × α)) (k : Nat) (v : α) (hv : v ≠ d) (h : Sparse.wf d m = true) :
    Sparse.wf d (sput m k v) = true := by
  rw [wf_iff] at *
  refine ⟨?_, fun p hp => ?_⟩
  · obtain ⟨h, -⟩ := h
    induction m with
    | nil => simp [sput]
    | cons q m ih =>
      obtain ⟨j, w⟩ := q
      rw [List.pairwise_cons] at h
      simp only [sput]
      split
      · subst_vars; exact List.pairwise_cons.mpr h
      · split
        · rename_i hlt
          refine List.pairwise_cons.mpr ⟨fun p hp => ?_, List.pairwise_cons.mpr h⟩
          rcases List.mem_cons.mp hp with rfl | hp
          · exact hlt
          · exact Nat.lt_trans hlt (h.1 p hp)
        · rename_i hne hnlt
          refine List.pairwise_cons.mpr ⟨fun p hp => ?_, ih h.2⟩
          rcases mem_sput hp with rfl | hp
          · simp only; omega
          · exact h.1 p hp
  · rcases mem_sput hp with rfl | hp
    · exact hv
    · exact h.2 p hp

/-- A write keeps the canonical form. -/
theorem sset_wf (d : α) (m : List (Nat × α)) (k : Nat) (v : α) (h : Sparse.wf d m = true) : Sparse.wf d (sset d m k v) = true := by
  unfold sset
  split
  · exact sdel_wf d m k h
  · exact sput_wf d m k v ‹_› h

/-- A run of writes keeps the canonical form. -/
theorem ssets_wf (d : α) (vs : List α) (m : List (Nat × α)) (k : Nat) (h : Sparse.wf d m = true) : Sparse.wf d (ssets d m k vs) = true := by
  induction vs generalizing m k with
  | nil => exact h
  | cons v vs ih => exact ih _ _ (sset_wf d m k v h)

/-- What a command leaves of the fuses is in canonical form (R501). -/
theorem burnOnly_wf (old new : List Host.Cell) (h : Memory.wf old = true) : Memory.wf (burnOnly old new) = true := by
  unfold burnOnly
  induction new generalizing old with
  | nil => exact h
  | cons c new ih => exact ih _ (sset_wf _ _ _ _ h)

theorem keep_of_or {x a b : BitVec 8} (h : x &&& (a ||| b) = a ||| b) : x &&& a = a := by
  ext i hi
  have hx := congrArg (fun c => c.getLsbD i) h
  simp only [BitVec.getLsbD_and, BitVec.getLsbD_or] at hx
  simp only [BitVec.getElem_and, BitVec.getLsbD_eq_getElem hi] at hx ⊢
  revert hx
  cases x[i] <;> cases a[i] <;> cases b[i] <;> decide

/-- A blown fuse bit stays blown (R501). -/
theorem burnOnly_blown (old new : List Host.Cell) (a : Nat) : sget 0 (burnOnly old new) a &&& sget 0 old a = sget 0 old a := by
  unfold burnOnly
  induction new generalizing old with
  | nil => simp
  | cons c new ih =>
    have h := ih (sset 0 old c.1 (sget 0 old c.1 ||| c.2))
    simp only [List.foldl_cons]
    by_cases e : a = c.1
    · subst e
      rw [sget_sset_same] at h
      exact keep_of_or h
    · rw [sget_sset_ne _ _ _ _ e] at h
      exact h

end Sys2Proof.Laws
end

