-- ==== Sys2Proof/Laws/Answer.lean ====
section
/-! SUPPORT. Laws of the answers: what every command leaves alone, whatever its effect. -/

namespace Sys2Proof.Laws

open Sys2Proof Sys2Proof.Machine

/-- Everything that an answer can be: a next state with the same queue and the fuses that `burnOnly` leaves. -/
theorem answer_inv {s t : State} {f : State → State} (h : s.answer f = .next t) :
    t.pending = s.pending ∧ t.fuses = burnOnly s.fuses (f s).fuses := by
  cases h; exact ⟨rfl, rfl⟩

/-- An answer that blows no fuse keeps the queue and the fuses. -/
theorem answerM_inv {s t : State} {f : State → State} (h : s.answerM f = .next t) :
    t.pending = s.pending ∧ t.fuses = s.fuses := by
  cases h; exact ⟨rfl, rfl⟩

/-- An answer that may write the solver SRAM keeps the queue, general SRAM and the fuses. -/
theorem answerS_inv {s t : State} {f : State → State} (h : s.answerS f = .next t) :
    t.pending = s.pending ∧ t.general = s.general ∧ t.fuses = s.fuses := by
  cases h; exact ⟨rfl, rfl, rfl⟩

/-- An answer that touches no byte memory keeps the queue and all three. -/
theorem answerK_inv {s t : State} {f : State → State} (h : s.answerK f = .next t) :
    t.pending = s.pending ∧ t.solver = s.solver ∧ t.general = s.general ∧ t.fuses = s.fuses := by
  cases h; exact ⟨rfl, rfl, rfl, rfl⟩

/-- Inside an island that runs, the effect acts. -/
@[simp] theorem inside_on {s : State} {i : Island} (h : s.islandOn i = true) (f : State → State) : s.inside i f = f s := by
  simp [State.inside, h]

/-- Inside an island that is gated or held, nothing happens (R12, R13). -/
@[simp] theorem inside_off {s : State} {i : Island} (h : s.islandOn i = false) (f : State → State) : s.inside i f = s := by
  simp [State.inside, h]

@[simp] theorem islandOn_tick (s : State) (t : Nat) (i : Island) : (s.tick t).islandOn i = s.islandOn i := rfl
@[simp] theorem islandOn_w (s : State) (f : Fld) (v a b : Nat) (i : Island) : (s.w f v a b).islandOn i = s.islandOn i := rfl

/-- A command of a running island that touches no byte memory. -/
theorem runK_on {s : State} {i : Island} (h : s.islandOn i = true) (t : Nat) (f : State → State) :
    s.runK i t f = .next (s.keepK (f (s.tick t))) := by
  simp only [State.runK, State.cmdK, State.answerK, inside_on (s := s.tick t) h]

/-- A command of a gated island: time passes and nothing else. -/
theorem runK_off {s : State} {i : Island} (h : s.islandOn i = false) (t : Nat) (f : State → State) :
    s.runK i t f = .next (s.tick t) := by
  simp only [State.runK, State.cmdK, State.answerK, inside_off (s := s.tick t) h]
  rfl

/-- A command of a running island that may write the solver SRAM. -/
theorem runS_on {s : State} {i : Island} (h : s.islandOn i = true) (t : Nat) (f : State → State) :
    s.runS i t f = .next (s.keepS (f (s.tick t))) := by
  simp only [State.runS, State.cmdS, State.answerS, inside_on (s := s.tick t) h]

/-- A command of a running island that may write any byte memory but the fuses. -/
theorem runM_on {s : State} {i : Island} (h : s.islandOn i = true) (t : Nat) (f : State → State) :
    s.runM i t f = .next (s.keepM (f (s.tick t))) := by
  simp only [State.runM, State.cmdM, State.answerM, inside_on (s := s.tick t) h]

/-- A step on an empty queue idles. -/
theorem step_idle {s : State} (h : s.pending = []) : step s = .next s := by
  unfold step; rw [h]

end Sys2Proof.Laws
end

