-- ==== Sys2Proof/Laws/State.lean ====
section
/-! SUPPORT. Laws of the state: one lemma per field per update, and reads of register fields after writes. -/

namespace Sys2Proof.Laws

open Sys2Proof Sys2Proof.Machine

/-! ### Fields that an update leaves alone -/

@[simp] theorem w_pending (s : State) (f : Fld) (v inst i : Nat) : (s.w f v inst i).pending = s.pending := rfl
@[simp] theorem w_freeTick (s : State) (f : Fld) (v inst i : Nat) : (s.w f v inst i).freeTick = s.freeTick := rfl
@[simp] theorem w_now (s : State) (f : Fld) (v inst i : Nat) : (s.w f v inst i).now = s.now := rfl
@[simp] theorem w_frac (s : State) (f : Fld) (v inst i : Nat) : (s.w f v inst i).frac = s.frac := rfl
@[simp] theorem w_ct (s : State) (f : Fld) (v inst i : Nat) : (s.w f v inst i).ct = s.ct := rfl
@[simp] theorem w_up (s : State) (f : Fld) (v inst i : Nat) : (s.w f v inst i).up = s.up := rfl
@[simp] theorem w_upBase (s : State) (f : Fld) (v inst i : Nat) : (s.w f v inst i).upBase = s.upBase := rfl
@[simp] theorem w_opBase (s : State) (f : Fld) (v inst i : Nat) : (s.w f v inst i).opBase = s.opBase := rfl
@[simp] theorem w_pages (s : State) (f : Fld) (v inst i : Nat) : (s.w f v inst i).pages = s.pages := rfl
@[simp] theorem w_resp (s : State) (f : Fld) (v inst i : Nat) : (s.w f v inst i).resp = s.resp := rfl
@[simp] theorem w_aonQ (s : State) (f : Fld) (v inst i : Nat) : (s.w f v inst i).aonQ = s.aonQ := rfl
@[simp] theorem w_aonRegs (s : State) (f : Fld) (v inst i : Nat) : (s.w f v inst i).aonRegs = s.aonRegs := rfl
@[simp] theorem w_toEic (s : State) (f : Fld) (v inst i : Nat) : (s.w f v inst i).toEic = s.toEic := rfl
@[simp] theorem w_solver (s : State) (f : Fld) (v inst i : Nat) : (s.w f v inst i).solver = s.solver := rfl
@[simp] theorem w_general (s : State) (f : Fld) (v inst i : Nat) : (s.w f v inst i).general = s.general := rfl
@[simp] theorem w_fuses (s : State) (f : Fld) (v inst i : Nat) : (s.w f v inst i).fuses = s.fuses := rfl
@[simp] theorem w_loopMem (s : State) (f : Fld) (v inst i : Nat) : (s.w f v inst i).loopMem = s.loopMem := rfl
@[simp] theorem w_rcMem (s : State) (f : Fld) (v inst i : Nat) : (s.w f v inst i).rcMem = s.rcMem := rfl
@[simp] theorem w_progMem (s : State) (f : Fld) (v inst i : Nat) : (s.w f v inst i).progMem = s.progMem := rfl
@[simp] theorem w_dataMem (s : State) (f : Fld) (v inst i : Nat) : (s.w f v inst i).dataMem = s.dataMem := rfl
@[simp] theorem w_retMem (s : State) (f : Fld) (v inst i : Nat) : (s.w f v inst i).retMem = s.retMem := rfl
@[simp] theorem w_inImg (s : State) (f : Fld) (v inst i : Nat) : (s.w f v inst i).inImg = s.inImg := rfl
@[simp] theorem w_outImg (s : State) (f : Fld) (v inst i : Nat) : (s.w f v inst i).outImg = s.outImg := rfl
@[simp] theorem w_dsq (s : State) (f : Fld) (v inst i : Nat) : (s.w f v inst i).dsq = s.dsq := rfl
@[simp] theorem w_ho (s : State) (f : Fld) (v inst i : Nat) : (s.w f v inst i).ho = s.ho := rfl
@[simp] theorem w_clusters (s : State) (f : Fld) (v inst i : Nat) : (s.w f v inst i).clusters = s.clusters := rfl
@[simp] theorem w_loops (s : State) (f : Fld) (v inst i : Nat) : (s.w f v inst i).loops = s.loops := rfl
@[simp] theorem w_routed (s : State) (f : Fld) (v inst i : Nat) : (s.w f v inst i).routed = s.routed := rfl
@[simp] theorem w_sd (s : State) (f : Fld) (v inst i : Nat) : (s.w f v inst i).sd = s.sd := rfl
@[simp] theorem w_sar (s : State) (f : Fld) (v inst i : Nat) : (s.w f v inst i).sar = s.sar := rfl
@[simp] theorem w_pulse (s : State) (f : Fld) (v inst i : Nat) : (s.w f v inst i).pulse = s.pulse := rfl
@[simp] theorem w_pwm (s : State) (f : Fld) (v inst i : Nat) : (s.w f v inst i).pwm = s.pwm := rfl
@[simp] theorem w_tripPins (s : State) (f : Fld) (v inst i : Nat) : (s.w f v inst i).tripPins = s.tripPins := rfl
@[simp] theorem w_engines (s : State) (f : Fld) (v inst i : Nat) : (s.w f v inst i).engines = s.engines := rfl
@[simp] theorem w_forces (s : State) (f : Fld) (v inst i : Nat) : (s.w f v inst i).forces = s.forces := rfl
@[simp] theorem w_sources (s : State) (f : Fld) (v inst i : Nat) : (s.w f v inst i).sources = s.sources := rfl
@[simp] theorem w_lastClaim (s : State) (f : Fld) (v inst i : Nat) : (s.w f v inst i).lastClaim = s.lastClaim := rfl
@[simp] theorem w_ports (s : State) (f : Fld) (v inst i : Nat) : (s.w f v inst i).ports = s.ports := rfl
@[simp] theorem w_queues (s : State) (f : Fld) (v inst i : Nat) : (s.w f v inst i).queues = s.queues := rfl
@[simp] theorem w_tmk (s : State) (f : Fld) (v inst i : Nat) : (s.w f v inst i).tmk = s.tmk := rfl
@[simp] theorem w_rtc (s : State) (f : Fld) (v inst i : Nat) : (s.w f v inst i).rtc = s.rtc := rfl
@[simp] theorem w_can (s : State) (f : Fld) (v inst i : Nat) : (s.w f v inst i).can = s.can := rfl
@[simp] theorem w_ser (s : State) (f : Fld) (v inst i : Nat) : (s.w f v inst i).ser = s.ser := rfl
@[simp] theorem w_esw (s : State) (f : Fld) (v inst i : Nat) : (s.w f v inst i).esw = s.esw := rfl
@[simp] theorem w_sxe (s : State) (f : Fld) (v inst i : Nat) : (s.w f v inst i).sxe = s.sxe := rfl
@[simp] theorem w_stations (s : State) (f : Fld) (v inst i : Nat) : (s.w f v inst i).stations = s.stations := rfl
@[simp] theorem w_axes (s : State) (f : Fld) (v inst i : Nat) : (s.w f v inst i).axes = s.axes := rfl
@[simp] theorem w_groups (s : State) (f : Fld) (v inst i : Nat) : (s.w f v inst i).groups = s.groups := rfl
@[simp] theorem w_dch (s : State) (f : Fld) (v inst i : Nat) : (s.w f v inst i).dch = s.dch := rfl
@[simp] theorem w_rcd (s : State) (f : Fld) (v inst i : Nat) : (s.w f v inst i).rcd = s.rcd := rfl
@[simp] theorem w_sec (s : State) (f : Fld) (v inst i : Nat) : (s.w f v inst i).sec = s.sec := rfl
@[simp] theorem w_pwr (s : State) (f : Fld) (v inst i : Nat) : (s.w f v inst i).pwr = s.pwr := rfl

@[simp] theorem inc_pending (s : State) (f : Fld) (inst i n : Nat) : (s.inc f inst i n).pending = s.pending := rfl
@[simp] theorem inc_freeTick (s : State) (f : Fld) (inst i n : Nat) : (s.inc f inst i n).freeTick = s.freeTick := rfl
@[simp] theorem inc_now (s : State) (f : Fld) (inst i n : Nat) : (s.inc f inst i n).now = s.now := rfl
@[simp] theorem inc_frac (s : State) (f : Fld) (inst i n : Nat) : (s.inc f inst i n).frac = s.frac := rfl
@[simp] theorem inc_ct (s : State) (f : Fld) (inst i n : Nat) : (s.inc f inst i n).ct = s.ct := rfl
@[simp] theorem inc_up (s : State) (f : Fld) (inst i n : Nat) : (s.inc f inst i n).up = s.up := rfl
@[simp] theorem inc_upBase (s : State) (f : Fld) (inst i n : Nat) : (s.inc f inst i n).upBase = s.upBase := rfl
@[simp] theorem inc_opBase (s : State) (f : Fld) (inst i n : Nat) : (s.inc f inst i n).opBase = s.opBase := rfl
@[simp] theorem inc_pages (s : State) (f : Fld) (inst i n : Nat) : (s.inc f inst i n).pages = s.pages := rfl
@[simp] theorem inc_resp (s : State) (f : Fld) (inst i n : Nat) : (s.inc f inst i n).resp = s.resp := rfl
@[simp] theorem inc_aonQ (s : State) (f : Fld) (inst i n : Nat) : (s.inc f inst i n).aonQ = s.aonQ := rfl
@[simp] theorem inc_aonRegs (s : State) (f : Fld) (inst i n : Nat) : (s.inc f inst i n).aonRegs = s.aonRegs := rfl
@[simp] theorem inc_toEic (s : State) (f : Fld) (inst i n : Nat) : (s.inc f inst i n).toEic = s.toEic := rfl
@[simp] theorem inc_solver (s : State) (f : Fld) (inst i n : Nat) : (s.inc f inst i n).solver = s.solver := rfl
@[simp] theorem inc_general (s : State) (f : Fld) (inst i n : Nat) : (s.inc f inst i n).general = s.general := rfl
@[simp] theorem inc_fuses (s : State) (f : Fld) (inst i n : Nat) : (s.inc f inst i n).fuses = s.fuses := rfl
@[simp] theorem inc_loopMem (s : State) (f : Fld) (inst i n : Nat) : (s.inc f inst i n).loopMem = s.loopMem := rfl
@[simp] theorem inc_rcMem (s : State) (f : Fld) (inst i n : Nat) : (s.inc f inst i n).rcMem = s.rcMem := rfl
@[simp] theorem inc_progMem (s : State) (f : Fld) (inst i n : Nat) : (s.inc f inst i n).progMem = s.progMem := rfl
@[simp] theorem inc_dataMem (s : State) (f : Fld) (inst i n : Nat) : (s.inc f inst i n).dataMem = s.dataMem := rfl
@[simp] theorem inc_retMem (s : State) (f : Fld) (inst i n : Nat) : (s.inc f inst i n).retMem = s.retMem := rfl
@[simp] theorem inc_inImg (s : State) (f : Fld) (inst i n : Nat) : (s.inc f inst i n).inImg = s.inImg := rfl
@[simp] theorem inc_outImg (s : State) (f : Fld) (inst i n : Nat) : (s.inc f inst i n).outImg = s.outImg := rfl
@[simp] theorem inc_dsq (s : State) (f : Fld) (inst i n : Nat) : (s.inc f inst i n).dsq = s.dsq := rfl
@[simp] theorem inc_ho (s : State) (f : Fld) (inst i n : Nat) : (s.inc f inst i n).ho = s.ho := rfl
@[simp] theorem inc_clusters (s : State) (f : Fld) (inst i n : Nat) : (s.inc f inst i n).clusters = s.clusters := rfl
@[simp] theorem inc_loops (s : State) (f : Fld) (inst i n : Nat) : (s.inc f inst i n).loops = s.loops := rfl
@[simp] theorem inc_routed (s : State) (f : Fld) (inst i n : Nat) : (s.inc f inst i n).routed = s.routed := rfl
@[simp] theorem inc_sd (s : State) (f : Fld) (inst i n : Nat) : (s.inc f inst i n).sd = s.sd := rfl
@[simp] theorem inc_sar (s : State) (f : Fld) (inst i n : Nat) : (s.inc f inst i n).sar = s.sar := rfl
@[simp] theorem inc_pulse (s : State) (f : Fld) (inst i n : Nat) : (s.inc f inst i n).pulse = s.pulse := rfl
@[simp] theorem inc_pwm (s : State) (f : Fld) (inst i n : Nat) : (s.inc f inst i n).pwm = s.pwm := rfl
@[simp] theorem inc_tripPins (s : State) (f : Fld) (inst i n : Nat) : (s.inc f inst i n).tripPins = s.tripPins := rfl
@[simp] theorem inc_engines (s : State) (f : Fld) (inst i n : Nat) : (s.inc f inst i n).engines = s.engines := rfl
@[simp] theorem inc_forces (s : State) (f : Fld) (inst i n : Nat) : (s.inc f inst i n).forces = s.forces := rfl
@[simp] theorem inc_sources (s : State) (f : Fld) (inst i n : Nat) : (s.inc f inst i n).sources = s.sources := rfl
@[simp] theorem inc_lastClaim (s : State) (f : Fld) (inst i n : Nat) : (s.inc f inst i n).lastClaim = s.lastClaim := rfl
@[simp] theorem inc_ports (s : State) (f : Fld) (inst i n : Nat) : (s.inc f inst i n).ports = s.ports := rfl
@[simp] theorem inc_queues (s : State) (f : Fld) (inst i n : Nat) : (s.inc f inst i n).queues = s.queues := rfl
@[simp] theorem inc_tmk (s : State) (f : Fld) (inst i n : Nat) : (s.inc f inst i n).tmk = s.tmk := rfl
@[simp] theorem inc_rtc (s : State) (f : Fld) (inst i n : Nat) : (s.inc f inst i n).rtc = s.rtc := rfl
@[simp] theorem inc_can (s : State) (f : Fld) (inst i n : Nat) : (s.inc f inst i n).can = s.can := rfl
@[simp] theorem inc_ser (s : State) (f : Fld) (inst i n : Nat) : (s.inc f inst i n).ser = s.ser := rfl
@[simp] theorem inc_esw (s : State) (f : Fld) (inst i n : Nat) : (s.inc f inst i n).esw = s.esw := rfl
@[simp] theorem inc_sxe (s : State) (f : Fld) (inst i n : Nat) : (s.inc f inst i n).sxe = s.sxe := rfl
@[simp] theorem inc_stations (s : State) (f : Fld) (inst i n : Nat) : (s.inc f inst i n).stations = s.stations := rfl
@[simp] theorem inc_axes (s : State) (f : Fld) (inst i n : Nat) : (s.inc f inst i n).axes = s.axes := rfl
@[simp] theorem inc_groups (s : State) (f : Fld) (inst i n : Nat) : (s.inc f inst i n).groups = s.groups := rfl
@[simp] theorem inc_dch (s : State) (f : Fld) (inst i n : Nat) : (s.inc f inst i n).dch = s.dch := rfl
@[simp] theorem inc_rcd (s : State) (f : Fld) (inst i n : Nat) : (s.inc f inst i n).rcd = s.rcd := rfl
@[simp] theorem inc_sec (s : State) (f : Fld) (inst i n : Nat) : (s.inc f inst i n).sec = s.sec := rfl
@[simp] theorem inc_pwr (s : State) (f : Fld) (inst i n : Nat) : (s.inc f inst i n).pwr = s.pwr := rfl

@[simp] theorem setPx_pending (s : State) (pg : Page) (x : PageX) : (s.setPx pg x).pending = s.pending := rfl
@[simp] theorem setPx_freeTick (s : State) (pg : Page) (x : PageX) : (s.setPx pg x).freeTick = s.freeTick := rfl
@[simp] theorem setPx_now (s : State) (pg : Page) (x : PageX) : (s.setPx pg x).now = s.now := rfl
@[simp] theorem setPx_frac (s : State) (pg : Page) (x : PageX) : (s.setPx pg x).frac = s.frac := rfl
@[simp] theorem setPx_ct (s : State) (pg : Page) (x : PageX) : (s.setPx pg x).ct = s.ct := rfl
@[simp] theorem setPx_up (s : State) (pg : Page) (x : PageX) : (s.setPx pg x).up = s.up := rfl
@[simp] theorem setPx_upBase (s : State) (pg : Page) (x : PageX) : (s.setPx pg x).upBase = s.upBase := rfl
@[simp] theorem setPx_opBase (s : State) (pg : Page) (x : PageX) : (s.setPx pg x).opBase = s.opBase := rfl
@[simp] theorem setPx_regs (s : State) (pg : Page) (x : PageX) : (s.setPx pg x).regs = s.regs := rfl
@[simp] theorem setPx_resp (s : State) (pg : Page) (x : PageX) : (s.setPx pg x).resp = s.resp := rfl
@[simp] theorem setPx_aonQ (s : State) (pg : Page) (x : PageX) : (s.setPx pg x).aonQ = s.aonQ := rfl
@[simp] theorem setPx_aonRegs (s : State) (pg : Page) (x : PageX) : (s.setPx pg x).aonRegs = s.aonRegs := rfl
@[simp] theorem setPx_toEic (s : State) (pg : Page) (x : PageX) : (s.setPx pg x).toEic = s.toEic := rfl
@[simp] theorem setPx_solver (s : State) (pg : Page) (x : PageX) : (s.setPx pg x).solver = s.solver := rfl
@[simp] theorem setPx_general (s : State) (pg : Page) (x : PageX) : (s.setPx pg x).general = s.general := rfl
@[simp] theorem setPx_fuses (s : State) (pg : Page) (x : PageX) : (s.setPx pg x).fuses = s.fuses := rfl
@[simp] theorem setPx_loopMem (s : State) (pg : Page) (x : PageX) : (s.setPx pg x).loopMem = s.loopMem := rfl
@[simp] theorem setPx_rcMem (s : State) (pg : Page) (x : PageX) : (s.setPx pg x).rcMem = s.rcMem := rfl
@[simp] theorem setPx_progMem (s : State) (pg : Page) (x : PageX) : (s.setPx pg x).progMem = s.progMem := rfl
@[simp] theorem setPx_dataMem (s : State) (pg : Page) (x : PageX) : (s.setPx pg x).dataMem = s.dataMem := rfl
@[simp] theorem setPx_retMem (s : State) (pg : Page) (x : PageX) : (s.setPx pg x).retMem = s.retMem := rfl
@[simp] theorem setPx_inImg (s : State) (pg : Page) (x : PageX) : (s.setPx pg x).inImg = s.inImg := rfl
@[simp] theorem setPx_outImg (s : State) (pg : Page) (x : PageX) : (s.setPx pg x).outImg = s.outImg := rfl
@[simp] theorem setPx_dsq (s : State) (pg : Page) (x : PageX) : (s.setPx pg x).dsq = s.dsq := rfl
@[simp] theorem setPx_ho (s : State) (pg : Page) (x : PageX) : (s.setPx pg x).ho = s.ho := rfl
@[simp] theorem setPx_clusters (s : State) (pg : Page) (x : PageX) : (s.setPx pg x).clusters = s.clusters := rfl
@[simp] theorem setPx_loops (s : State) (pg : Page) (x : PageX) : (s.setPx pg x).loops = s.loops := rfl
@[simp] theorem setPx_routed (s : State) (pg : Page) (x : PageX) : (s.setPx pg x).routed = s.routed := rfl
@[simp] theorem setPx_sd (s : State) (pg : Page) (x : PageX) : (s.setPx pg x).sd = s.sd := rfl
@[simp] theorem setPx_sar (s : State) (pg : Page) (x : PageX) : (s.setPx pg x).sar = s.sar := rfl
@[simp] theorem setPx_pulse (s : State) (pg : Page) (x : PageX) : (s.setPx pg x).pulse = s.pulse := rfl
@[simp] theorem setPx_pwm (s : State) (pg : Page) (x : PageX) : (s.setPx pg x).pwm = s.pwm := rfl
@[simp] theorem setPx_tripPins (s : State) (pg : Page) (x : PageX) : (s.setPx pg x).tripPins = s.tripPins := rfl
@[simp] theorem setPx_engines (s : State) (pg : Page) (x : PageX) : (s.setPx pg x).engines = s.engines := rfl
@[simp] theorem setPx_forces (s : State) (pg : Page) (x : PageX) : (s.setPx pg x).forces = s.forces := rfl
@[simp] theorem setPx_sources (s : State) (pg : Page) (x : PageX) : (s.setPx pg x).sources = s.sources := rfl
@[simp] theorem setPx_lastClaim (s : State) (pg : Page) (x : PageX) : (s.setPx pg x).lastClaim = s.lastClaim := rfl
@[simp] theorem setPx_ports (s : State) (pg : Page) (x : PageX) : (s.setPx pg x).ports = s.ports := rfl
@[simp] theorem setPx_queues (s : State) (pg : Page) (x : PageX) : (s.setPx pg x).queues = s.queues := rfl
@[simp] theorem setPx_tmk (s : State) (pg : Page) (x : PageX) : (s.setPx pg x).tmk = s.tmk := rfl
@[simp] theorem setPx_rtc (s : State) (pg : Page) (x : PageX) : (s.setPx pg x).rtc = s.rtc := rfl
@[simp] theorem setPx_can (s : State) (pg : Page) (x : PageX) : (s.setPx pg x).can = s.can := rfl
@[simp] theorem setPx_ser (s : State) (pg : Page) (x : PageX) : (s.setPx pg x).ser = s.ser := rfl
@[simp] theorem setPx_esw (s : State) (pg : Page) (x : PageX) : (s.setPx pg x).esw = s.esw := rfl
@[simp] theorem setPx_sxe (s : State) (pg : Page) (x : PageX) : (s.setPx pg x).sxe = s.sxe := rfl
@[simp] theorem setPx_stations (s : State) (pg : Page) (x : PageX) : (s.setPx pg x).stations = s.stations := rfl
@[simp] theorem setPx_axes (s : State) (pg : Page) (x : PageX) : (s.setPx pg x).axes = s.axes := rfl
@[simp] theorem setPx_groups (s : State) (pg : Page) (x : PageX) : (s.setPx pg x).groups = s.groups := rfl
@[simp] theorem setPx_dch (s : State) (pg : Page) (x : PageX) : (s.setPx pg x).dch = s.dch := rfl
@[simp] theorem setPx_rcd (s : State) (pg : Page) (x : PageX) : (s.setPx pg x).rcd = s.rcd := rfl
@[simp] theorem setPx_sec (s : State) (pg : Page) (x : PageX) : (s.setPx pg x).sec = s.sec := rfl
@[simp] theorem setPx_pwr (s : State) (pg : Page) (x : PageX) : (s.setPx pg x).pwr = s.pwr := rfl

@[simp] theorem setEng_pending (s : State) (e : Nat) (x : EngineX) : (s.setEng e x).pending = s.pending := rfl
@[simp] theorem setEng_freeTick (s : State) (e : Nat) (x : EngineX) : (s.setEng e x).freeTick = s.freeTick := rfl
@[simp] theorem setEng_now (s : State) (e : Nat) (x : EngineX) : (s.setEng e x).now = s.now := rfl
@[simp] theorem setEng_frac (s : State) (e : Nat) (x : EngineX) : (s.setEng e x).frac = s.frac := rfl
@[simp] theorem setEng_ct (s : State) (e : Nat) (x : EngineX) : (s.setEng e x).ct = s.ct := rfl
@[simp] theorem setEng_up (s : State) (e : Nat) (x : EngineX) : (s.setEng e x).up = s.up := rfl
@[simp] theorem setEng_upBase (s : State) (e : Nat) (x : EngineX) : (s.setEng e x).upBase = s.upBase := rfl
@[simp] theorem setEng_opBase (s : State) (e : Nat) (x : EngineX) : (s.setEng e x).opBase = s.opBase := rfl
@[simp] theorem setEng_regs (s : State) (e : Nat) (x : EngineX) : (s.setEng e x).regs = s.regs := rfl
@[simp] theorem setEng_pages (s : State) (e : Nat) (x : EngineX) : (s.setEng e x).pages = s.pages := rfl
@[simp] theorem setEng_resp (s : State) (e : Nat) (x : EngineX) : (s.setEng e x).resp = s.resp := rfl
@[simp] theorem setEng_aonQ (s : State) (e : Nat) (x : EngineX) : (s.setEng e x).aonQ = s.aonQ := rfl
@[simp] theorem setEng_aonRegs (s : State) (e : Nat) (x : EngineX) : (s.setEng e x).aonRegs = s.aonRegs := rfl
@[simp] theorem setEng_toEic (s : State) (e : Nat) (x : EngineX) : (s.setEng e x).toEic = s.toEic := rfl
@[simp] theorem setEng_solver (s : State) (e : Nat) (x : EngineX) : (s.setEng e x).solver = s.solver := rfl
@[simp] theorem setEng_general (s : State) (e : Nat) (x : EngineX) : (s.setEng e x).general = s.general := rfl
@[simp] theorem setEng_fuses (s : State) (e : Nat) (x : EngineX) : (s.setEng e x).fuses = s.fuses := rfl
@[simp] theorem setEng_loopMem (s : State) (e : Nat) (x : EngineX) : (s.setEng e x).loopMem = s.loopMem := rfl
@[simp] theorem setEng_rcMem (s : State) (e : Nat) (x : EngineX) : (s.setEng e x).rcMem = s.rcMem := rfl
@[simp] theorem setEng_progMem (s : State) (e : Nat) (x : EngineX) : (s.setEng e x).progMem = s.progMem := rfl
@[simp] theorem setEng_dataMem (s : State) (e : Nat) (x : EngineX) : (s.setEng e x).dataMem = s.dataMem := rfl
@[simp] theorem setEng_retMem (s : State) (e : Nat) (x : EngineX) : (s.setEng e x).retMem = s.retMem := rfl
@[simp] theorem setEng_inImg (s : State) (e : Nat) (x : EngineX) : (s.setEng e x).inImg = s.inImg := rfl
@[simp] theorem setEng_outImg (s : State) (e : Nat) (x : EngineX) : (s.setEng e x).outImg = s.outImg := rfl
@[simp] theorem setEng_dsq (s : State) (e : Nat) (x : EngineX) : (s.setEng e x).dsq = s.dsq := rfl
@[simp] theorem setEng_ho (s : State) (e : Nat) (x : EngineX) : (s.setEng e x).ho = s.ho := rfl
@[simp] theorem setEng_clusters (s : State) (e : Nat) (x : EngineX) : (s.setEng e x).clusters = s.clusters := rfl
@[simp] theorem setEng_loops (s : State) (e : Nat) (x : EngineX) : (s.setEng e x).loops = s.loops := rfl
@[simp] theorem setEng_routed (s : State) (e : Nat) (x : EngineX) : (s.setEng e x).routed = s.routed := rfl
@[simp] theorem setEng_sd (s : State) (e : Nat) (x : EngineX) : (s.setEng e x).sd = s.sd := rfl
@[simp] theorem setEng_sar (s : State) (e : Nat) (x : EngineX) : (s.setEng e x).sar = s.sar := rfl
@[simp] theorem setEng_pulse (s : State) (e : Nat) (x : EngineX) : (s.setEng e x).pulse = s.pulse := rfl
@[simp] theorem setEng_pwm (s : State) (e : Nat) (x : EngineX) : (s.setEng e x).pwm = s.pwm := rfl
@[simp] theorem setEng_tripPins (s : State) (e : Nat) (x : EngineX) : (s.setEng e x).tripPins = s.tripPins := rfl
@[simp] theorem setEng_forces (s : State) (e : Nat) (x : EngineX) : (s.setEng e x).forces = s.forces := rfl
@[simp] theorem setEng_sources (s : State) (e : Nat) (x : EngineX) : (s.setEng e x).sources = s.sources := rfl
@[simp] theorem setEng_lastClaim (s : State) (e : Nat) (x : EngineX) : (s.setEng e x).lastClaim = s.lastClaim := rfl
@[simp] theorem setEng_ports (s : State) (e : Nat) (x : EngineX) : (s.setEng e x).ports = s.ports := rfl
@[simp] theorem setEng_queues (s : State) (e : Nat) (x : EngineX) : (s.setEng e x).queues = s.queues := rfl
@[simp] theorem setEng_tmk (s : State) (e : Nat) (x : EngineX) : (s.setEng e x).tmk = s.tmk := rfl
@[simp] theorem setEng_rtc (s : State) (e : Nat) (x : EngineX) : (s.setEng e x).rtc = s.rtc := rfl
@[simp] theorem setEng_can (s : State) (e : Nat) (x : EngineX) : (s.setEng e x).can = s.can := rfl
@[simp] theorem setEng_ser (s : State) (e : Nat) (x : EngineX) : (s.setEng e x).ser = s.ser := rfl
@[simp] theorem setEng_esw (s : State) (e : Nat) (x : EngineX) : (s.setEng e x).esw = s.esw := rfl
@[simp] theorem setEng_sxe (s : State) (e : Nat) (x : EngineX) : (s.setEng e x).sxe = s.sxe := rfl
@[simp] theorem setEng_stations (s : State) (e : Nat) (x : EngineX) : (s.setEng e x).stations = s.stations := rfl
@[simp] theorem setEng_axes (s : State) (e : Nat) (x : EngineX) : (s.setEng e x).axes = s.axes := rfl
@[simp] theorem setEng_groups (s : State) (e : Nat) (x : EngineX) : (s.setEng e x).groups = s.groups := rfl
@[simp] theorem setEng_dch (s : State) (e : Nat) (x : EngineX) : (s.setEng e x).dch = s.dch := rfl
@[simp] theorem setEng_rcd (s : State) (e : Nat) (x : EngineX) : (s.setEng e x).rcd = s.rcd := rfl
@[simp] theorem setEng_sec (s : State) (e : Nat) (x : EngineX) : (s.setEng e x).sec = s.sec := rfl
@[simp] theorem setEng_pwr (s : State) (e : Nat) (x : EngineX) : (s.setEng e x).pwr = s.pwr := rfl

@[simp] theorem tick_pending (s : State) (t : Nat) : (s.tick t).pending = s.pending := rfl
@[simp] theorem tick_freeTick (s : State) (t : Nat) : (s.tick t).freeTick = s.freeTick := rfl
@[simp] theorem tick_frac (s : State) (t : Nat) : (s.tick t).frac = s.frac := rfl
@[simp] theorem tick_upBase (s : State) (t : Nat) : (s.tick t).upBase = s.upBase := rfl
@[simp] theorem tick_opBase (s : State) (t : Nat) : (s.tick t).opBase = s.opBase := rfl
@[simp] theorem tick_regs (s : State) (t : Nat) : (s.tick t).regs = s.regs := rfl
@[simp] theorem tick_pages (s : State) (t : Nat) : (s.tick t).pages = s.pages := rfl
@[simp] theorem tick_resp (s : State) (t : Nat) : (s.tick t).resp = s.resp := rfl
@[simp] theorem tick_aonQ (s : State) (t : Nat) : (s.tick t).aonQ = s.aonQ := rfl
@[simp] theorem tick_aonRegs (s : State) (t : Nat) : (s.tick t).aonRegs = s.aonRegs := rfl
@[simp] theorem tick_toEic (s : State) (t : Nat) : (s.tick t).toEic = s.toEic := rfl
@[simp] theorem tick_solver (s : State) (t : Nat) : (s.tick t).solver = s.solver := rfl
@[simp] theorem tick_general (s : State) (t : Nat) : (s.tick t).general = s.general := rfl
@[simp] theorem tick_fuses (s : State) (t : Nat) : (s.tick t).fuses = s.fuses := rfl
@[simp] theorem tick_loopMem (s : State) (t : Nat) : (s.tick t).loopMem = s.loopMem := rfl
@[simp] theorem tick_rcMem (s : State) (t : Nat) : (s.tick t).rcMem = s.rcMem := rfl
@[simp] theorem tick_progMem (s : State) (t : Nat) : (s.tick t).progMem = s.progMem := rfl
@[simp] theorem tick_dataMem (s : State) (t : Nat) : (s.tick t).dataMem = s.dataMem := rfl
@[simp] theorem tick_retMem (s : State) (t : Nat) : (s.tick t).retMem = s.retMem := rfl
@[simp] theorem tick_inImg (s : State) (t : Nat) : (s.tick t).inImg = s.inImg := rfl
@[simp] theorem tick_outImg (s : State) (t : Nat) : (s.tick t).outImg = s.outImg := rfl
@[simp] theorem tick_dsq (s : State) (t : Nat) : (s.tick t).dsq = s.dsq := rfl
@[simp] theorem tick_ho (s : State) (t : Nat) : (s.tick t).ho = s.ho := rfl
@[simp] theorem tick_clusters (s : State) (t : Nat) : (s.tick t).clusters = s.clusters := rfl
@[simp] theorem tick_loops (s : State) (t : Nat) : (s.tick t).loops = s.loops := rfl
@[simp] theorem tick_routed (s : State) (t : Nat) : (s.tick t).routed = s.routed := rfl
@[simp] theorem tick_sd (s : State) (t : Nat) : (s.tick t).sd = s.sd := rfl
@[simp] theorem tick_sar (s : State) (t : Nat) : (s.tick t).sar = s.sar := rfl
@[simp] theorem tick_pulse (s : State) (t : Nat) : (s.tick t).pulse = s.pulse := rfl
@[simp] theorem tick_pwm (s : State) (t : Nat) : (s.tick t).pwm = s.pwm := rfl
@[simp] theorem tick_tripPins (s : State) (t : Nat) : (s.tick t).tripPins = s.tripPins := rfl
@[simp] theorem tick_engines (s : State) (t : Nat) : (s.tick t).engines = s.engines := rfl
@[simp] theorem tick_forces (s : State) (t : Nat) : (s.tick t).forces = s.forces := rfl
@[simp] theorem tick_sources (s : State) (t : Nat) : (s.tick t).sources = s.sources := rfl
@[simp] theorem tick_lastClaim (s : State) (t : Nat) : (s.tick t).lastClaim = s.lastClaim := rfl
@[simp] theorem tick_ports (s : State) (t : Nat) : (s.tick t).ports = s.ports := rfl
@[simp] theorem tick_queues (s : State) (t : Nat) : (s.tick t).queues = s.queues := rfl
@[simp] theorem tick_tmk (s : State) (t : Nat) : (s.tick t).tmk = s.tmk := rfl
@[simp] theorem tick_rtc (s : State) (t : Nat) : (s.tick t).rtc = s.rtc := rfl
@[simp] theorem tick_can (s : State) (t : Nat) : (s.tick t).can = s.can := rfl
@[simp] theorem tick_ser (s : State) (t : Nat) : (s.tick t).ser = s.ser := rfl
@[simp] theorem tick_esw (s : State) (t : Nat) : (s.tick t).esw = s.esw := rfl
@[simp] theorem tick_sxe (s : State) (t : Nat) : (s.tick t).sxe = s.sxe := rfl
@[simp] theorem tick_stations (s : State) (t : Nat) : (s.tick t).stations = s.stations := rfl
@[simp] theorem tick_axes (s : State) (t : Nat) : (s.tick t).axes = s.axes := rfl
@[simp] theorem tick_groups (s : State) (t : Nat) : (s.tick t).groups = s.groups := rfl
@[simp] theorem tick_dch (s : State) (t : Nat) : (s.tick t).dch = s.dch := rfl
@[simp] theorem tick_rcd (s : State) (t : Nat) : (s.tick t).rcd = s.rcd := rfl
@[simp] theorem tick_sec (s : State) (t : Nat) : (s.tick t).sec = s.sec := rfl
@[simp] theorem tick_pwr (s : State) (t : Nat) : (s.tick t).pwr = s.pwr := rfl

@[simp] theorem fresh_pending (s : State) : (s.fresh).pending = s.pending := rfl
@[simp] theorem fresh_now (s : State) : (s.fresh).now = s.now := rfl
@[simp] theorem fresh_frac (s : State) : (s.fresh).frac = s.frac := rfl
@[simp] theorem fresh_ct (s : State) : (s.fresh).ct = s.ct := rfl
@[simp] theorem fresh_up (s : State) : (s.fresh).up = s.up := rfl
@[simp] theorem fresh_upBase (s : State) : (s.fresh).upBase = s.upBase := rfl
@[simp] theorem fresh_opBase (s : State) : (s.fresh).opBase = s.opBase := rfl
@[simp] theorem fresh_regs (s : State) : (s.fresh).regs = s.regs := rfl
@[simp] theorem fresh_pages (s : State) : (s.fresh).pages = s.pages := rfl
@[simp] theorem fresh_resp (s : State) : (s.fresh).resp = s.resp := rfl
@[simp] theorem fresh_aonQ (s : State) : (s.fresh).aonQ = s.aonQ := rfl
@[simp] theorem fresh_aonRegs (s : State) : (s.fresh).aonRegs = s.aonRegs := rfl
@[simp] theorem fresh_toEic (s : State) : (s.fresh).toEic = s.toEic := rfl
@[simp] theorem fresh_solver (s : State) : (s.fresh).solver = s.solver := rfl
@[simp] theorem fresh_general (s : State) : (s.fresh).general = s.general := rfl
@[simp] theorem fresh_fuses (s : State) : (s.fresh).fuses = s.fuses := rfl
@[simp] theorem fresh_loopMem (s : State) : (s.fresh).loopMem = s.loopMem := rfl
@[simp] theorem fresh_rcMem (s : State) : (s.fresh).rcMem = s.rcMem := rfl
@[simp] theorem fresh_progMem (s : State) : (s.fresh).progMem = s.progMem := rfl
@[simp] theorem fresh_dataMem (s : State) : (s.fresh).dataMem = s.dataMem := rfl
@[simp] theorem fresh_retMem (s : State) : (s.fresh).retMem = s.retMem := rfl
@[simp] theorem fresh_inImg (s : State) : (s.fresh).inImg = s.inImg := rfl
@[simp] theorem fresh_outImg (s : State) : (s.fresh).outImg = s.outImg := rfl
@[simp] theorem fresh_dsq (s : State) : (s.fresh).dsq = s.dsq := rfl
@[simp] theorem fresh_ho (s : State) : (s.fresh).ho = s.ho := rfl
@[simp] theorem fresh_clusters (s : State) : (s.fresh).clusters = s.clusters := rfl
@[simp] theorem fresh_loops (s : State) : (s.fresh).loops = s.loops := rfl
@[simp] theorem fresh_routed (s : State) : (s.fresh).routed = s.routed := rfl
@[simp] theorem fresh_sd (s : State) : (s.fresh).sd = s.sd := rfl
@[simp] theorem fresh_sar (s : State) : (s.fresh).sar = s.sar := rfl
@[simp] theorem fresh_pulse (s : State) : (s.fresh).pulse = s.pulse := rfl
@[simp] theorem fresh_pwm (s : State) : (s.fresh).pwm = s.pwm := rfl
@[simp] theorem fresh_tripPins (s : State) : (s.fresh).tripPins = s.tripPins := rfl
@[simp] theorem fresh_engines (s : State) : (s.fresh).engines = s.engines := rfl
@[simp] theorem fresh_forces (s : State) : (s.fresh).forces = s.forces := rfl
@[simp] theorem fresh_sources (s : State) : (s.fresh).sources = s.sources := rfl
@[simp] theorem fresh_lastClaim (s : State) : (s.fresh).lastClaim = s.lastClaim := rfl
@[simp] theorem fresh_ports (s : State) : (s.fresh).ports = s.ports := rfl
@[simp] theorem fresh_queues (s : State) : (s.fresh).queues = s.queues := rfl
@[simp] theorem fresh_tmk (s : State) : (s.fresh).tmk = s.tmk := rfl
@[simp] theorem fresh_rtc (s : State) : (s.fresh).rtc = s.rtc := rfl
@[simp] theorem fresh_can (s : State) : (s.fresh).can = s.can := rfl
@[simp] theorem fresh_ser (s : State) : (s.fresh).ser = s.ser := rfl
@[simp] theorem fresh_esw (s : State) : (s.fresh).esw = s.esw := rfl
@[simp] theorem fresh_sxe (s : State) : (s.fresh).sxe = s.sxe := rfl
@[simp] theorem fresh_stations (s : State) : (s.fresh).stations = s.stations := rfl
@[simp] theorem fresh_axes (s : State) : (s.fresh).axes = s.axes := rfl
@[simp] theorem fresh_groups (s : State) : (s.fresh).groups = s.groups := rfl
@[simp] theorem fresh_dch (s : State) : (s.fresh).dch = s.dch := rfl
@[simp] theorem fresh_rcd (s : State) : (s.fresh).rcd = s.rcd := rfl
@[simp] theorem fresh_sec (s : State) : (s.fresh).sec = s.sec := rfl
@[simp] theorem fresh_pwr (s : State) : (s.fresh).pwr = s.pwr := rfl

@[simp] theorem reply_pending (s : State) (r : Requester) (v : Nat) : (s.reply r v).pending = s.pending := rfl
@[simp] theorem reply_freeTick (s : State) (r : Requester) (v : Nat) : (s.reply r v).freeTick = s.freeTick := rfl
@[simp] theorem reply_now (s : State) (r : Requester) (v : Nat) : (s.reply r v).now = s.now := rfl
@[simp] theorem reply_frac (s : State) (r : Requester) (v : Nat) : (s.reply r v).frac = s.frac := rfl
@[simp] theorem reply_ct (s : State) (r : Requester) (v : Nat) : (s.reply r v).ct = s.ct := rfl
@[simp] theorem reply_up (s : State) (r : Requester) (v : Nat) : (s.reply r v).up = s.up := rfl
@[simp] theorem reply_upBase (s : State) (r : Requester) (v : Nat) : (s.reply r v).upBase = s.upBase := rfl
@[simp] theorem reply_opBase (s : State) (r : Requester) (v : Nat) : (s.reply r v).opBase = s.opBase := rfl
@[simp] theorem reply_regs (s : State) (r : Requester) (v : Nat) : (s.reply r v).regs = s.regs := rfl
@[simp] theorem reply_pages (s : State) (r : Requester) (v : Nat) : (s.reply r v).pages = s.pages := rfl
@[simp] theorem reply_aonQ (s : State) (r : Requester) (v : Nat) : (s.reply r v).aonQ = s.aonQ := rfl
@[simp] theorem reply_aonRegs (s : State) (r : Requester) (v : Nat) : (s.reply r v).aonRegs = s.aonRegs := rfl
@[simp] theorem reply_toEic (s : State) (r : Requester) (v : Nat) : (s.reply r v).toEic = s.toEic := rfl
@[simp] theorem reply_solver (s : State) (r : Requester) (v : Nat) : (s.reply r v).solver = s.solver := rfl
@[simp] theorem reply_general (s : State) (r : Requester) (v : Nat) : (s.reply r v).general = s.general := rfl
@[simp] theorem reply_fuses (s : State) (r : Requester) (v : Nat) : (s.reply r v).fuses = s.fuses := rfl
@[simp] theorem reply_loopMem (s : State) (r : Requester) (v : Nat) : (s.reply r v).loopMem = s.loopMem := rfl
@[simp] theorem reply_rcMem (s : State) (r : Requester) (v : Nat) : (s.reply r v).rcMem = s.rcMem := rfl
@[simp] theorem reply_progMem (s : State) (r : Requester) (v : Nat) : (s.reply r v).progMem = s.progMem := rfl
@[simp] theorem reply_dataMem (s : State) (r : Requester) (v : Nat) : (s.reply r v).dataMem = s.dataMem := rfl
@[simp] theorem reply_retMem (s : State) (r : Requester) (v : Nat) : (s.reply r v).retMem = s.retMem := rfl
@[simp] theorem reply_inImg (s : State) (r : Requester) (v : Nat) : (s.reply r v).inImg = s.inImg := rfl
@[simp] theorem reply_outImg (s : State) (r : Requester) (v : Nat) : (s.reply r v).outImg = s.outImg := rfl
@[simp] theorem reply_dsq (s : State) (r : Requester) (v : Nat) : (s.reply r v).dsq = s.dsq := rfl
@[simp] theorem reply_ho (s : State) (r : Requester) (v : Nat) : (s.reply r v).ho = s.ho := rfl
@[simp] theorem reply_clusters (s : State) (r : Requester) (v : Nat) : (s.reply r v).clusters = s.clusters := rfl
@[simp] theorem reply_loops (s : State) (r : Requester) (v : Nat) : (s.reply r v).loops = s.loops := rfl
@[simp] theorem reply_routed (s : State) (r : Requester) (v : Nat) : (s.reply r v).routed = s.routed := rfl
@[simp] theorem reply_sd (s : State) (r : Requester) (v : Nat) : (s.reply r v).sd = s.sd := rfl
@[simp] theorem reply_sar (s : State) (r : Requester) (v : Nat) : (s.reply r v).sar = s.sar := rfl
@[simp] theorem reply_pulse (s : State) (r : Requester) (v : Nat) : (s.reply r v).pulse = s.pulse := rfl
@[simp] theorem reply_pwm (s : State) (r : Requester) (v : Nat) : (s.reply r v).pwm = s.pwm := rfl
@[simp] theorem reply_tripPins (s : State) (r : Requester) (v : Nat) : (s.reply r v).tripPins = s.tripPins := rfl
@[simp] theorem reply_engines (s : State) (r : Requester) (v : Nat) : (s.reply r v).engines = s.engines := rfl
@[simp] theorem reply_forces (s : State) (r : Requester) (v : Nat) : (s.reply r v).forces = s.forces := rfl
@[simp] theorem reply_sources (s : State) (r : Requester) (v : Nat) : (s.reply r v).sources = s.sources := rfl
@[simp] theorem reply_lastClaim (s : State) (r : Requester) (v : Nat) : (s.reply r v).lastClaim = s.lastClaim := rfl
@[simp] theorem reply_ports (s : State) (r : Requester) (v : Nat) : (s.reply r v).ports = s.ports := rfl
@[simp] theorem reply_queues (s : State) (r : Requester) (v : Nat) : (s.reply r v).queues = s.queues := rfl
@[simp] theorem reply_tmk (s : State) (r : Requester) (v : Nat) : (s.reply r v).tmk = s.tmk := rfl
@[simp] theorem reply_rtc (s : State) (r : Requester) (v : Nat) : (s.reply r v).rtc = s.rtc := rfl
@[simp] theorem reply_can (s : State) (r : Requester) (v : Nat) : (s.reply r v).can = s.can := rfl
@[simp] theorem reply_ser (s : State) (r : Requester) (v : Nat) : (s.reply r v).ser = s.ser := rfl
@[simp] theorem reply_esw (s : State) (r : Requester) (v : Nat) : (s.reply r v).esw = s.esw := rfl
@[simp] theorem reply_sxe (s : State) (r : Requester) (v : Nat) : (s.reply r v).sxe = s.sxe := rfl
@[simp] theorem reply_stations (s : State) (r : Requester) (v : Nat) : (s.reply r v).stations = s.stations := rfl
@[simp] theorem reply_axes (s : State) (r : Requester) (v : Nat) : (s.reply r v).axes = s.axes := rfl
@[simp] theorem reply_groups (s : State) (r : Requester) (v : Nat) : (s.reply r v).groups = s.groups := rfl
@[simp] theorem reply_dch (s : State) (r : Requester) (v : Nat) : (s.reply r v).dch = s.dch := rfl
@[simp] theorem reply_rcd (s : State) (r : Requester) (v : Nat) : (s.reply r v).rcd = s.rcd := rfl
@[simp] theorem reply_sec (s : State) (r : Requester) (v : Nat) : (s.reply r v).sec = s.sec := rfl
@[simp] theorem reply_pwr (s : State) (r : Requester) (v : Nat) : (s.reply r v).pwr = s.pwr := rfl

@[simp] theorem setDword_pending (s : State) (w : Nat) (v : Word) : (s.setDword w v).pending = s.pending := rfl
@[simp] theorem setDword_freeTick (s : State) (w : Nat) (v : Word) : (s.setDword w v).freeTick = s.freeTick := rfl
@[simp] theorem setDword_now (s : State) (w : Nat) (v : Word) : (s.setDword w v).now = s.now := rfl
@[simp] theorem setDword_frac (s : State) (w : Nat) (v : Word) : (s.setDword w v).frac = s.frac := rfl
@[simp] theorem setDword_ct (s : State) (w : Nat) (v : Word) : (s.setDword w v).ct = s.ct := rfl
@[simp] theorem setDword_up (s : State) (w : Nat) (v : Word) : (s.setDword w v).up = s.up := rfl
@[simp] theorem setDword_upBase (s : State) (w : Nat) (v : Word) : (s.setDword w v).upBase = s.upBase := rfl
@[simp] theorem setDword_opBase (s : State) (w : Nat) (v : Word) : (s.setDword w v).opBase = s.opBase := rfl
@[simp] theorem setDword_regs (s : State) (w : Nat) (v : Word) : (s.setDword w v).regs = s.regs := rfl
@[simp] theorem setDword_pages (s : State) (w : Nat) (v : Word) : (s.setDword w v).pages = s.pages := rfl
@[simp] theorem setDword_resp (s : State) (w : Nat) (v : Word) : (s.setDword w v).resp = s.resp := rfl
@[simp] theorem setDword_aonQ (s : State) (w : Nat) (v : Word) : (s.setDword w v).aonQ = s.aonQ := rfl
@[simp] theorem setDword_aonRegs (s : State) (w : Nat) (v : Word) : (s.setDword w v).aonRegs = s.aonRegs := rfl
@[simp] theorem setDword_toEic (s : State) (w : Nat) (v : Word) : (s.setDword w v).toEic = s.toEic := rfl
@[simp] theorem setDword_solver (s : State) (w : Nat) (v : Word) : (s.setDword w v).solver = s.solver := rfl
@[simp] theorem setDword_general (s : State) (w : Nat) (v : Word) : (s.setDword w v).general = s.general := rfl
@[simp] theorem setDword_fuses (s : State) (w : Nat) (v : Word) : (s.setDword w v).fuses = s.fuses := rfl
@[simp] theorem setDword_loopMem (s : State) (w : Nat) (v : Word) : (s.setDword w v).loopMem = s.loopMem := rfl
@[simp] theorem setDword_rcMem (s : State) (w : Nat) (v : Word) : (s.setDword w v).rcMem = s.rcMem := rfl
@[simp] theorem setDword_progMem (s : State) (w : Nat) (v : Word) : (s.setDword w v).progMem = s.progMem := rfl
@[simp] theorem setDword_retMem (s : State) (w : Nat) (v : Word) : (s.setDword w v).retMem = s.retMem := rfl
@[simp] theorem setDword_inImg (s : State) (w : Nat) (v : Word) : (s.setDword w v).inImg = s.inImg := rfl
@[simp] theorem setDword_outImg (s : State) (w : Nat) (v : Word) : (s.setDword w v).outImg = s.outImg := rfl
@[simp] theorem setDword_dsq (s : State) (w : Nat) (v : Word) : (s.setDword w v).dsq = s.dsq := rfl
@[simp] theorem setDword_ho (s : State) (w : Nat) (v : Word) : (s.setDword w v).ho = s.ho := rfl
@[simp] theorem setDword_clusters (s : State) (w : Nat) (v : Word) : (s.setDword w v).clusters = s.clusters := rfl
@[simp] theorem setDword_loops (s : State) (w : Nat) (v : Word) : (s.setDword w v).loops = s.loops := rfl
@[simp] theorem setDword_routed (s : State) (w : Nat) (v : Word) : (s.setDword w v).routed = s.routed := rfl
@[simp] theorem setDword_sd (s : State) (w : Nat) (v : Word) : (s.setDword w v).sd = s.sd := rfl
@[simp] theorem setDword_sar (s : State) (w : Nat) (v : Word) : (s.setDword w v).sar = s.sar := rfl
@[simp] theorem setDword_pulse (s : State) (w : Nat) (v : Word) : (s.setDword w v).pulse = s.pulse := rfl
@[simp] theorem setDword_pwm (s : State) (w : Nat) (v : Word) : (s.setDword w v).pwm = s.pwm := rfl
@[simp] theorem setDword_tripPins (s : State) (w : Nat) (v : Word) : (s.setDword w v).tripPins = s.tripPins := rfl
@[simp] theorem setDword_engines (s : State) (w : Nat) (v : Word) : (s.setDword w v).engines = s.engines := rfl
@[simp] theorem setDword_forces (s : State) (w : Nat) (v : Word) : (s.setDword w v).forces = s.forces := rfl
@[simp] theorem setDword_sources (s : State) (w : Nat) (v : Word) : (s.setDword w v).sources = s.sources := rfl
@[simp] theorem setDword_lastClaim (s : State) (w : Nat) (v : Word) : (s.setDword w v).lastClaim = s.lastClaim := rfl
@[simp] theorem setDword_ports (s : State) (w : Nat) (v : Word) : (s.setDword w v).ports = s.ports := rfl
@[simp] theorem setDword_queues (s : State) (w : Nat) (v : Word) : (s.setDword w v).queues = s.queues := rfl
@[simp] theorem setDword_tmk (s : State) (w : Nat) (v : Word) : (s.setDword w v).tmk = s.tmk := rfl
@[simp] theorem setDword_rtc (s : State) (w : Nat) (v : Word) : (s.setDword w v).rtc = s.rtc := rfl
@[simp] theorem setDword_can (s : State) (w : Nat) (v : Word) : (s.setDword w v).can = s.can := rfl
@[simp] theorem setDword_ser (s : State) (w : Nat) (v : Word) : (s.setDword w v).ser = s.ser := rfl
@[simp] theorem setDword_esw (s : State) (w : Nat) (v : Word) : (s.setDword w v).esw = s.esw := rfl
@[simp] theorem setDword_sxe (s : State) (w : Nat) (v : Word) : (s.setDword w v).sxe = s.sxe := rfl
@[simp] theorem setDword_stations (s : State) (w : Nat) (v : Word) : (s.setDword w v).stations = s.stations := rfl
@[simp] theorem setDword_axes (s : State) (w : Nat) (v : Word) : (s.setDword w v).axes = s.axes := rfl
@[simp] theorem setDword_groups (s : State) (w : Nat) (v : Word) : (s.setDword w v).groups = s.groups := rfl
@[simp] theorem setDword_dch (s : State) (w : Nat) (v : Word) : (s.setDword w v).dch = s.dch := rfl
@[simp] theorem setDword_rcd (s : State) (w : Nat) (v : Word) : (s.setDword w v).rcd = s.rcd := rfl
@[simp] theorem setDword_sec (s : State) (w : Nat) (v : Word) : (s.setDword w v).sec = s.sec := rfl

@[simp] theorem setRword_pending (s : State) (w : Nat) (v : Word) : (s.setRword w v).pending = s.pending := rfl
@[simp] theorem setRword_freeTick (s : State) (w : Nat) (v : Word) : (s.setRword w v).freeTick = s.freeTick := rfl
@[simp] theorem setRword_now (s : State) (w : Nat) (v : Word) : (s.setRword w v).now = s.now := rfl
@[simp] theorem setRword_frac (s : State) (w : Nat) (v : Word) : (s.setRword w v).frac = s.frac := rfl
@[simp] theorem setRword_ct (s : State) (w : Nat) (v : Word) : (s.setRword w v).ct = s.ct := rfl
@[simp] theorem setRword_up (s : State) (w : Nat) (v : Word) : (s.setRword w v).up = s.up := rfl
@[simp] theorem setRword_upBase (s : State) (w : Nat) (v : Word) : (s.setRword w v).upBase = s.upBase := rfl
@[simp] theorem setRword_opBase (s : State) (w : Nat) (v : Word) : (s.setRword w v).opBase = s.opBase := rfl
@[simp] theorem setRword_regs (s : State) (w : Nat) (v : Word) : (s.setRword w v).regs = s.regs := rfl
@[simp] theorem setRword_pages (s : State) (w : Nat) (v : Word) : (s.setRword w v).pages = s.pages := rfl
@[simp] theorem setRword_resp (s : State) (w : Nat) (v : Word) : (s.setRword w v).resp = s.resp := rfl
@[simp] theorem setRword_aonQ (s : State) (w : Nat) (v : Word) : (s.setRword w v).aonQ = s.aonQ := rfl
@[simp] theorem setRword_aonRegs (s : State) (w : Nat) (v : Word) : (s.setRword w v).aonRegs = s.aonRegs := rfl
@[simp] theorem setRword_toEic (s : State) (w : Nat) (v : Word) : (s.setRword w v).toEic = s.toEic := rfl
@[simp] theorem setRword_solver (s : State) (w : Nat) (v : Word) : (s.setRword w v).solver = s.solver := rfl
@[simp] theorem setRword_general (s : State) (w : Nat) (v : Word) : (s.setRword w v).general = s.general := rfl
@[simp] theorem setRword_fuses (s : State) (w : Nat) (v : Word) : (s.setRword w v).fuses = s.fuses := rfl
@[simp] theorem setRword_loopMem (s : State) (w : Nat) (v : Word) : (s.setRword w v).loopMem = s.loopMem := rfl
@[simp] theorem setRword_rcMem (s : State) (w : Nat) (v : Word) : (s.setRword w v).rcMem = s.rcMem := rfl
@[simp] theorem setRword_progMem (s : State) (w : Nat) (v : Word) : (s.setRword w v).progMem = s.progMem := rfl
@[simp] theorem setRword_dataMem (s : State) (w : Nat) (v : Word) : (s.setRword w v).dataMem = s.dataMem := rfl
@[simp] theorem setRword_inImg (s : State) (w : Nat) (v : Word) : (s.setRword w v).inImg = s.inImg := rfl
@[simp] theorem setRword_outImg (s : State) (w : Nat) (v : Word) : (s.setRword w v).outImg = s.outImg := rfl
@[simp] theorem setRword_dsq (s : State) (w : Nat) (v : Word) : (s.setRword w v).dsq = s.dsq := rfl
@[simp] theorem setRword_ho (s : State) (w : Nat) (v : Word) : (s.setRword w v).ho = s.ho := rfl
@[simp] theorem setRword_clusters (s : State) (w : Nat) (v : Word) : (s.setRword w v).clusters = s.clusters := rfl
@[simp] theorem setRword_loops (s : State) (w : Nat) (v : Word) : (s.setRword w v).loops = s.loops := rfl
@[simp] theorem setRword_routed (s : State) (w : Nat) (v : Word) : (s.setRword w v).routed = s.routed := rfl
@[simp] theorem setRword_sd (s : State) (w : Nat) (v : Word) : (s.setRword w v).sd = s.sd := rfl
@[simp] theorem setRword_sar (s : State) (w : Nat) (v : Word) : (s.setRword w v).sar = s.sar := rfl
@[simp] theorem setRword_pulse (s : State) (w : Nat) (v : Word) : (s.setRword w v).pulse = s.pulse := rfl
@[simp] theorem setRword_pwm (s : State) (w : Nat) (v : Word) : (s.setRword w v).pwm = s.pwm := rfl
@[simp] theorem setRword_tripPins (s : State) (w : Nat) (v : Word) : (s.setRword w v).tripPins = s.tripPins := rfl
@[simp] theorem setRword_engines (s : State) (w : Nat) (v : Word) : (s.setRword w v).engines = s.engines := rfl
@[simp] theorem setRword_forces (s : State) (w : Nat) (v : Word) : (s.setRword w v).forces = s.forces := rfl
@[simp] theorem setRword_sources (s : State) (w : Nat) (v : Word) : (s.setRword w v).sources = s.sources := rfl
@[simp] theorem setRword_lastClaim (s : State) (w : Nat) (v : Word) : (s.setRword w v).lastClaim = s.lastClaim := rfl
@[simp] theorem setRword_ports (s : State) (w : Nat) (v : Word) : (s.setRword w v).ports = s.ports := rfl
@[simp] theorem setRword_queues (s : State) (w : Nat) (v : Word) : (s.setRword w v).queues = s.queues := rfl
@[simp] theorem setRword_tmk (s : State) (w : Nat) (v : Word) : (s.setRword w v).tmk = s.tmk := rfl
@[simp] theorem setRword_rtc (s : State) (w : Nat) (v : Word) : (s.setRword w v).rtc = s.rtc := rfl
@[simp] theorem setRword_can (s : State) (w : Nat) (v : Word) : (s.setRword w v).can = s.can := rfl
@[simp] theorem setRword_ser (s : State) (w : Nat) (v : Word) : (s.setRword w v).ser = s.ser := rfl
@[simp] theorem setRword_esw (s : State) (w : Nat) (v : Word) : (s.setRword w v).esw = s.esw := rfl
@[simp] theorem setRword_sxe (s : State) (w : Nat) (v : Word) : (s.setRword w v).sxe = s.sxe := rfl
@[simp] theorem setRword_stations (s : State) (w : Nat) (v : Word) : (s.setRword w v).stations = s.stations := rfl
@[simp] theorem setRword_axes (s : State) (w : Nat) (v : Word) : (s.setRword w v).axes = s.axes := rfl
@[simp] theorem setRword_groups (s : State) (w : Nat) (v : Word) : (s.setRword w v).groups = s.groups := rfl
@[simp] theorem setRword_dch (s : State) (w : Nat) (v : Word) : (s.setRword w v).dch = s.dch := rfl
@[simp] theorem setRword_rcd (s : State) (w : Nat) (v : Word) : (s.setRword w v).rcd = s.rcd := rfl
@[simp] theorem setRword_sec (s : State) (w : Nat) (v : Word) : (s.setRword w v).sec = s.sec := rfl

/-! ### Register fields -/

/-- A field reads what was written, cut to its width. -/
@[simp] theorem r_w_same (s : State) (f : Fld) (v inst i : Nat) : (s.w f v inst i).r f inst i = v % 2 ^ f.width % 2 ^ 32 := by
  simp [State.r, State.w]

/-- A field at another key keeps its value. -/
theorem r_w_ne (s : State) (f g : Fld) (v inst i inst' i' : Nat) (h : g.key inst' i' ≠ f.key inst i) :
    (s.w f v inst i).r g inst' i' = s.r g inst' i' := by
  simp only [State.r, State.w]
  rw [sget_sset_ne _ _ _ _ h]

/-- A header field reads what was written, cut to its width. -/
@[simp] theorem h_hw_same (s : State) (f : Fld) (pg : Page) (v : Nat) : (s.hw f pg v).h f pg = v % 2 ^ f.width % 2 ^ 32 := by
  simp only [State.h, State.hw]
  exact r_w_same s (hdr f pg) v pg.inst 0

/-- Header fields at different places do not meet. -/
@[simp] theorem h_hw_ne (s : State) (f g : Fld) (pg : Page) (v : Nat) (h : g.off * 32 + g.lsb ≠ f.off * 32 + f.lsb) :
    (s.hw f pg v).h g pg = s.h g pg := by
  simp only [State.h, State.hw]
  refine r_w_ne _ _ _ _ _ _ _ _ ?_
  simp only [Fld.key, hdr]
  omega

/-- Within one page instance, fields at different places do not meet. -/
theorem r_w_other (s : State) (f g : Fld) (v inst i inst' i' : Nat)
    (h : (((g.code * 32 + inst') * 4096 + (g.off + i' * g.stride)) * 32 + g.lsb ≠
      ((f.code * 32 + inst) * 4096 + (f.off + i * f.stride)) * 32 + f.lsb)) :
    (s.w f v inst i).r g inst' i' = s.r g inst' i' := r_w_ne s f g v inst i inst' i' h

@[simp] theorem r_setPx (s : State) (pg : Page) (x : PageX) (g : Fld) (j k : Nat) : (s.setPx pg x).r g j k = s.r g j k := rfl
@[simp] theorem on_setPx (s : State) (pg : Page) (x : PageX) (g : Fld) (j k : Nat) : (s.setPx pg x).on g j k = s.on g j k := rfl
@[simp] theorem h_setPx (s : State) (pg : Page) (x : PageX) (g : Fld) (p : Page) : (s.setPx pg x).h g p = s.h g p := rfl
@[simp] theorem r_setEng (s : State) (e : Nat) (x : EngineX) (g : Fld) (j k : Nat) : (s.setEng e x).r g j k = s.r g j k := rfl
@[simp] theorem on_setEng (s : State) (e : Nat) (x : EngineX) (g : Fld) (j k : Nat) : (s.setEng e x).on g j k = s.on g j k := rfl
@[simp] theorem h_setEng (s : State) (e : Nat) (x : EngineX) (g : Fld) (p : Page) : (s.setEng e x).h g p = s.h g p := rfl
@[simp] theorem r_tick (s : State) (t : Nat) (g : Fld) (j k : Nat) : (s.tick t).r g j k = s.r g j k := rfl
@[simp] theorem on_tick (s : State) (t : Nat) (g : Fld) (j k : Nat) : (s.tick t).on g j k = s.on g j k := rfl
@[simp] theorem h_tick (s : State) (t : Nat) (g : Fld) (p : Page) : (s.tick t).h g p = s.h g p := rfl
@[simp] theorem r_fresh (s : State) (g : Fld) (j k : Nat) : (s.fresh).r g j k = s.r g j k := rfl
@[simp] theorem on_fresh (s : State) (g : Fld) (j k : Nat) : (s.fresh).on g j k = s.on g j k := rfl
@[simp] theorem h_fresh (s : State) (g : Fld) (p : Page) : (s.fresh).h g p = s.h g p := rfl
@[simp] theorem r_reply (s : State) (r : Requester) (v : Nat) (g : Fld) (j k : Nat) : (s.reply r v).r g j k = s.r g j k := rfl
@[simp] theorem on_reply (s : State) (r : Requester) (v : Nat) (g : Fld) (j k : Nat) : (s.reply r v).on g j k = s.on g j k := rfl
@[simp] theorem h_reply (s : State) (r : Requester) (v : Nat) (g : Fld) (p : Page) : (s.reply r v).h g p = s.h g p := rfl
@[simp] theorem r_setDword (s : State) (w : Nat) (v : Word) (g : Fld) (j k : Nat) : (s.setDword w v).r g j k = s.r g j k := rfl
@[simp] theorem on_setDword (s : State) (w : Nat) (v : Word) (g : Fld) (j k : Nat) : (s.setDword w v).on g j k = s.on g j k := rfl
@[simp] theorem h_setDword (s : State) (w : Nat) (v : Word) (g : Fld) (p : Page) : (s.setDword w v).h g p = s.h g p := rfl
@[simp] theorem r_setRword (s : State) (w : Nat) (v : Word) (g : Fld) (j k : Nat) : (s.setRword w v).r g j k = s.r g j k := rfl
@[simp] theorem on_setRword (s : State) (w : Nat) (v : Word) (g : Fld) (j k : Nat) : (s.setRword w v).on g j k = s.on g j k := rfl
@[simp] theorem h_setRword (s : State) (w : Nat) (v : Word) (g : Fld) (p : Page) : (s.setRword w v).h g p = s.h g p := rfl

@[simp] theorem keep_pending (s u : State) : (s.keep u).pending = s.pending := rfl
@[simp] theorem keep_freeTick (s u : State) : (s.keep u).freeTick = u.freeTick := rfl
@[simp] theorem keep_now (s u : State) : (s.keep u).now = u.now := rfl
@[simp] theorem keep_frac (s u : State) : (s.keep u).frac = u.frac := rfl
@[simp] theorem keep_ct (s u : State) : (s.keep u).ct = u.ct := rfl
@[simp] theorem keep_up (s u : State) : (s.keep u).up = u.up := rfl
@[simp] theorem keep_upBase (s u : State) : (s.keep u).upBase = u.upBase := rfl
@[simp] theorem keep_opBase (s u : State) : (s.keep u).opBase = u.opBase := rfl
@[simp] theorem keep_regs (s u : State) : (s.keep u).regs = u.regs := rfl
@[simp] theorem keep_pages (s u : State) : (s.keep u).pages = u.pages := rfl
@[simp] theorem keep_resp (s u : State) : (s.keep u).resp = u.resp := rfl
@[simp] theorem keep_aonQ (s u : State) : (s.keep u).aonQ = u.aonQ := rfl
@[simp] theorem keep_aonRegs (s u : State) : (s.keep u).aonRegs = u.aonRegs := rfl
@[simp] theorem keep_toEic (s u : State) : (s.keep u).toEic = u.toEic := rfl
@[simp] theorem keep_solver (s u : State) : (s.keep u).solver = u.solver := rfl
@[simp] theorem keep_general (s u : State) : (s.keep u).general = u.general := rfl
@[simp] theorem keep_fuses (s u : State) : (s.keep u).fuses = burnOnly s.fuses u.fuses := rfl
@[simp] theorem keep_loopMem (s u : State) : (s.keep u).loopMem = u.loopMem := rfl
@[simp] theorem keep_rcMem (s u : State) : (s.keep u).rcMem = u.rcMem := rfl
@[simp] theorem keep_progMem (s u : State) : (s.keep u).progMem = u.progMem := rfl
@[simp] theorem keep_dataMem (s u : State) : (s.keep u).dataMem = u.dataMem := rfl
@[simp] theorem keep_retMem (s u : State) : (s.keep u).retMem = u.retMem := rfl
@[simp] theorem keep_inImg (s u : State) : (s.keep u).inImg = u.inImg := rfl
@[simp] theorem keep_outImg (s u : State) : (s.keep u).outImg = u.outImg := rfl
@[simp] theorem keep_dsq (s u : State) : (s.keep u).dsq = u.dsq := rfl
@[simp] theorem keep_ho (s u : State) : (s.keep u).ho = u.ho := rfl
@[simp] theorem keep_clusters (s u : State) : (s.keep u).clusters = u.clusters := rfl
@[simp] theorem keep_loops (s u : State) : (s.keep u).loops = u.loops := rfl
@[simp] theorem keep_sd (s u : State) : (s.keep u).sd = u.sd := rfl
@[simp] theorem keep_sar (s u : State) : (s.keep u).sar = u.sar := rfl
@[simp] theorem keep_pulse (s u : State) : (s.keep u).pulse = u.pulse := rfl
@[simp] theorem keep_pwm (s u : State) : (s.keep u).pwm = u.pwm := rfl
@[simp] theorem keep_tripPins (s u : State) : (s.keep u).tripPins = u.tripPins := rfl
@[simp] theorem keep_engines (s u : State) : (s.keep u).engines = u.engines := rfl
@[simp] theorem keep_forces (s u : State) : (s.keep u).forces = u.forces := rfl
@[simp] theorem keep_sources (s u : State) : (s.keep u).sources = u.sources := rfl
@[simp] theorem keep_lastClaim (s u : State) : (s.keep u).lastClaim = u.lastClaim := rfl
@[simp] theorem keep_ports (s u : State) : (s.keep u).ports = u.ports := rfl
@[simp] theorem keep_queues (s u : State) : (s.keep u).queues = u.queues := rfl
@[simp] theorem keep_tmk (s u : State) : (s.keep u).tmk = u.tmk := rfl
@[simp] theorem keep_rtc (s u : State) : (s.keep u).rtc = u.rtc := rfl
@[simp] theorem keep_can (s u : State) : (s.keep u).can = u.can := rfl
@[simp] theorem keep_ser (s u : State) : (s.keep u).ser = u.ser := rfl
@[simp] theorem keep_esw (s u : State) : (s.keep u).esw = u.esw := rfl
@[simp] theorem keep_sxe (s u : State) : (s.keep u).sxe = u.sxe := rfl
@[simp] theorem keep_stations (s u : State) : (s.keep u).stations = u.stations := rfl
@[simp] theorem keep_axes (s u : State) : (s.keep u).axes = u.axes := rfl
@[simp] theorem keep_groups (s u : State) : (s.keep u).groups = u.groups := rfl
@[simp] theorem keep_dch (s u : State) : (s.keep u).dch = u.dch := rfl
@[simp] theorem keep_rcd (s u : State) : (s.keep u).rcd = u.rcd := rfl
@[simp] theorem keep_sec (s u : State) : (s.keep u).sec = u.sec := rfl
@[simp] theorem keep_pwr (s u : State) : (s.keep u).pwr = u.pwr := rfl
@[simp] theorem r_keep (s u : State) (g : Fld) (j k : Nat) : (s.keep u).r g j k = u.r g j k := rfl
@[simp] theorem on_keep (s u : State) (g : Fld) (j k : Nat) : (s.keep u).on g j k = u.on g j k := rfl
@[simp] theorem h_keep (s u : State) (g : Fld) (pg : Page) : (s.keep u).h g pg = u.h g pg := rfl
@[simp] theorem px_keep (s u : State) (pg : Page) : (s.keep u).px pg = u.px pg := rfl
@[simp] theorem eng_keep (s u : State) (e : Nat) : (s.keep u).eng e = u.eng e := rfl
@[simp] theorem bank_keep (s u : State) (e : Nat) : (s.keep u).bank e = u.bank e := rfl
@[simp] theorem guardOf_keep (s u : State) (r : Requester) (pg : Page) : (s.keep u).guardOf r pg = u.guardOf r pg := rfl
@[simp] theorem keepM_pending (s u : State) : (s.keepM u).pending = s.pending := rfl
@[simp] theorem keepM_freeTick (s u : State) : (s.keepM u).freeTick = u.freeTick := rfl
@[simp] theorem keepM_now (s u : State) : (s.keepM u).now = u.now := rfl
@[simp] theorem keepM_frac (s u : State) : (s.keepM u).frac = u.frac := rfl
@[simp] theorem keepM_ct (s u : State) : (s.keepM u).ct = u.ct := rfl
@[simp] theorem keepM_up (s u : State) : (s.keepM u).up = u.up := rfl
@[simp] theorem keepM_upBase (s u : State) : (s.keepM u).upBase = u.upBase := rfl
@[simp] theorem keepM_opBase (s u : State) : (s.keepM u).opBase = u.opBase := rfl
@[simp] theorem keepM_regs (s u : State) : (s.keepM u).regs = u.regs := rfl
@[simp] theorem keepM_pages (s u : State) : (s.keepM u).pages = u.pages := rfl
@[simp] theorem keepM_resp (s u : State) : (s.keepM u).resp = u.resp := rfl
@[simp] theorem keepM_aonQ (s u : State) : (s.keepM u).aonQ = u.aonQ := rfl
@[simp] theorem keepM_aonRegs (s u : State) : (s.keepM u).aonRegs = u.aonRegs := rfl
@[simp] theorem keepM_toEic (s u : State) : (s.keepM u).toEic = u.toEic := rfl
@[simp] theorem keepM_solver (s u : State) : (s.keepM u).solver = u.solver := rfl
@[simp] theorem keepM_general (s u : State) : (s.keepM u).general = u.general := rfl
@[simp] theorem keepM_fuses (s u : State) : (s.keepM u).fuses = s.fuses := rfl
@[simp] theorem keepM_loopMem (s u : State) : (s.keepM u).loopMem = u.loopMem := rfl
@[simp] theorem keepM_rcMem (s u : State) : (s.keepM u).rcMem = u.rcMem := rfl
@[simp] theorem keepM_progMem (s u : State) : (s.keepM u).progMem = u.progMem := rfl
@[simp] theorem keepM_dataMem (s u : State) : (s.keepM u).dataMem = u.dataMem := rfl
@[simp] theorem keepM_retMem (s u : State) : (s.keepM u).retMem = u.retMem := rfl
@[simp] theorem keepM_inImg (s u : State) : (s.keepM u).inImg = u.inImg := rfl
@[simp] theorem keepM_outImg (s u : State) : (s.keepM u).outImg = u.outImg := rfl
@[simp] theorem keepM_dsq (s u : State) : (s.keepM u).dsq = u.dsq := rfl
@[simp] theorem keepM_ho (s u : State) : (s.keepM u).ho = u.ho := rfl
@[simp] theorem keepM_clusters (s u : State) : (s.keepM u).clusters = u.clusters := rfl
@[simp] theorem keepM_loops (s u : State) : (s.keepM u).loops = u.loops := rfl
@[simp] theorem keepM_sd (s u : State) : (s.keepM u).sd = u.sd := rfl
@[simp] theorem keepM_sar (s u : State) : (s.keepM u).sar = u.sar := rfl
@[simp] theorem keepM_pulse (s u : State) : (s.keepM u).pulse = u.pulse := rfl
@[simp] theorem keepM_pwm (s u : State) : (s.keepM u).pwm = u.pwm := rfl
@[simp] theorem keepM_tripPins (s u : State) : (s.keepM u).tripPins = u.tripPins := rfl
@[simp] theorem keepM_engines (s u : State) : (s.keepM u).engines = u.engines := rfl
@[simp] theorem keepM_forces (s u : State) : (s.keepM u).forces = u.forces := rfl
@[simp] theorem keepM_sources (s u : State) : (s.keepM u).sources = u.sources := rfl
@[simp] theorem keepM_lastClaim (s u : State) : (s.keepM u).lastClaim = u.lastClaim := rfl
@[simp] theorem keepM_ports (s u : State) : (s.keepM u).ports = u.ports := rfl
@[simp] theorem keepM_queues (s u : State) : (s.keepM u).queues = u.queues := rfl
@[simp] theorem keepM_tmk (s u : State) : (s.keepM u).tmk = u.tmk := rfl
@[simp] theorem keepM_rtc (s u : State) : (s.keepM u).rtc = u.rtc := rfl
@[simp] theorem keepM_can (s u : State) : (s.keepM u).can = u.can := rfl
@[simp] theorem keepM_ser (s u : State) : (s.keepM u).ser = u.ser := rfl
@[simp] theorem keepM_esw (s u : State) : (s.keepM u).esw = u.esw := rfl
@[simp] theorem keepM_sxe (s u : State) : (s.keepM u).sxe = u.sxe := rfl
@[simp] theorem keepM_stations (s u : State) : (s.keepM u).stations = u.stations := rfl
@[simp] theorem keepM_axes (s u : State) : (s.keepM u).axes = u.axes := rfl
@[simp] theorem keepM_groups (s u : State) : (s.keepM u).groups = u.groups := rfl
@[simp] theorem keepM_dch (s u : State) : (s.keepM u).dch = u.dch := rfl
@[simp] theorem keepM_rcd (s u : State) : (s.keepM u).rcd = u.rcd := rfl
@[simp] theorem keepM_sec (s u : State) : (s.keepM u).sec = u.sec := rfl
@[simp] theorem keepM_pwr (s u : State) : (s.keepM u).pwr = u.pwr := rfl
@[simp] theorem r_keepM (s u : State) (g : Fld) (j k : Nat) : (s.keepM u).r g j k = u.r g j k := rfl
@[simp] theorem on_keepM (s u : State) (g : Fld) (j k : Nat) : (s.keepM u).on g j k = u.on g j k := rfl
@[simp] theorem h_keepM (s u : State) (g : Fld) (pg : Page) : (s.keepM u).h g pg = u.h g pg := rfl
@[simp] theorem px_keepM (s u : State) (pg : Page) : (s.keepM u).px pg = u.px pg := rfl
@[simp] theorem eng_keepM (s u : State) (e : Nat) : (s.keepM u).eng e = u.eng e := rfl
@[simp] theorem bank_keepM (s u : State) (e : Nat) : (s.keepM u).bank e = u.bank e := rfl
@[simp] theorem guardOf_keepM (s u : State) (r : Requester) (pg : Page) : (s.keepM u).guardOf r pg = u.guardOf r pg := rfl
@[simp] theorem keepS_pending (s u : State) : (s.keepS u).pending = s.pending := rfl
@[simp] theorem keepS_freeTick (s u : State) : (s.keepS u).freeTick = u.freeTick := rfl
@[simp] theorem keepS_now (s u : State) : (s.keepS u).now = u.now := rfl
@[simp] theorem keepS_frac (s u : State) : (s.keepS u).frac = u.frac := rfl
@[simp] theorem keepS_ct (s u : State) : (s.keepS u).ct = u.ct := rfl
@[simp] theorem keepS_up (s u : State) : (s.keepS u).up = u.up := rfl
@[simp] theorem keepS_upBase (s u : State) : (s.keepS u).upBase = u.upBase := rfl
@[simp] theorem keepS_opBase (s u : State) : (s.keepS u).opBase = u.opBase := rfl
@[simp] theorem keepS_regs (s u : State) : (s.keepS u).regs = u.regs := rfl
@[simp] theorem keepS_pages (s u : State) : (s.keepS u).pages = u.pages := rfl
@[simp] theorem keepS_resp (s u : State) : (s.keepS u).resp = u.resp := rfl
@[simp] theorem keepS_aonQ (s u : State) : (s.keepS u).aonQ = u.aonQ := rfl
@[simp] theorem keepS_aonRegs (s u : State) : (s.keepS u).aonRegs = u.aonRegs := rfl
@[simp] theorem keepS_toEic (s u : State) : (s.keepS u).toEic = u.toEic := rfl
@[simp] theorem keepS_solver (s u : State) : (s.keepS u).solver = u.solver := rfl
@[simp] theorem keepS_general (s u : State) : (s.keepS u).general = s.general := rfl
@[simp] theorem keepS_fuses (s u : State) : (s.keepS u).fuses = s.fuses := rfl
@[simp] theorem keepS_loopMem (s u : State) : (s.keepS u).loopMem = u.loopMem := rfl
@[simp] theorem keepS_rcMem (s u : State) : (s.keepS u).rcMem = u.rcMem := rfl
@[simp] theorem keepS_progMem (s u : State) : (s.keepS u).progMem = u.progMem := rfl
@[simp] theorem keepS_dataMem (s u : State) : (s.keepS u).dataMem = u.dataMem := rfl
@[simp] theorem keepS_retMem (s u : State) : (s.keepS u).retMem = u.retMem := rfl
@[simp] theorem keepS_inImg (s u : State) : (s.keepS u).inImg = u.inImg := rfl
@[simp] theorem keepS_outImg (s u : State) : (s.keepS u).outImg = u.outImg := rfl
@[simp] theorem keepS_dsq (s u : State) : (s.keepS u).dsq = u.dsq := rfl
@[simp] theorem keepS_ho (s u : State) : (s.keepS u).ho = u.ho := rfl
@[simp] theorem keepS_clusters (s u : State) : (s.keepS u).clusters = u.clusters := rfl
@[simp] theorem keepS_loops (s u : State) : (s.keepS u).loops = u.loops := rfl
@[simp] theorem keepS_sd (s u : State) : (s.keepS u).sd = u.sd := rfl
@[simp] theorem keepS_sar (s u : State) : (s.keepS u).sar = u.sar := rfl
@[simp] theorem keepS_pulse (s u : State) : (s.keepS u).pulse = u.pulse := rfl
@[simp] theorem keepS_pwm (s u : State) : (s.keepS u).pwm = u.pwm := rfl
@[simp] theorem keepS_tripPins (s u : State) : (s.keepS u).tripPins = u.tripPins := rfl
@[simp] theorem keepS_engines (s u : State) : (s.keepS u).engines = u.engines := rfl
@[simp] theorem keepS_forces (s u : State) : (s.keepS u).forces = u.forces := rfl
@[simp] theorem keepS_sources (s u : State) : (s.keepS u).sources = u.sources := rfl
@[simp] theorem keepS_lastClaim (s u : State) : (s.keepS u).lastClaim = u.lastClaim := rfl
@[simp] theorem keepS_ports (s u : State) : (s.keepS u).ports = u.ports := rfl
@[simp] theorem keepS_queues (s u : State) : (s.keepS u).queues = u.queues := rfl
@[simp] theorem keepS_tmk (s u : State) : (s.keepS u).tmk = u.tmk := rfl
@[simp] theorem keepS_rtc (s u : State) : (s.keepS u).rtc = u.rtc := rfl
@[simp] theorem keepS_can (s u : State) : (s.keepS u).can = u.can := rfl
@[simp] theorem keepS_ser (s u : State) : (s.keepS u).ser = u.ser := rfl
@[simp] theorem keepS_esw (s u : State) : (s.keepS u).esw = u.esw := rfl
@[simp] theorem keepS_sxe (s u : State) : (s.keepS u).sxe = u.sxe := rfl
@[simp] theorem keepS_stations (s u : State) : (s.keepS u).stations = u.stations := rfl
@[simp] theorem keepS_axes (s u : State) : (s.keepS u).axes = u.axes := rfl
@[simp] theorem keepS_groups (s u : State) : (s.keepS u).groups = u.groups := rfl
@[simp] theorem keepS_dch (s u : State) : (s.keepS u).dch = u.dch := rfl
@[simp] theorem keepS_rcd (s u : State) : (s.keepS u).rcd = u.rcd := rfl
@[simp] theorem keepS_sec (s u : State) : (s.keepS u).sec = u.sec := rfl
@[simp] theorem keepS_pwr (s u : State) : (s.keepS u).pwr = u.pwr := rfl
@[simp] theorem r_keepS (s u : State) (g : Fld) (j k : Nat) : (s.keepS u).r g j k = u.r g j k := rfl
@[simp] theorem on_keepS (s u : State) (g : Fld) (j k : Nat) : (s.keepS u).on g j k = u.on g j k := rfl
@[simp] theorem h_keepS (s u : State) (g : Fld) (pg : Page) : (s.keepS u).h g pg = u.h g pg := rfl
@[simp] theorem px_keepS (s u : State) (pg : Page) : (s.keepS u).px pg = u.px pg := rfl
@[simp] theorem eng_keepS (s u : State) (e : Nat) : (s.keepS u).eng e = u.eng e := rfl
@[simp] theorem bank_keepS (s u : State) (e : Nat) : (s.keepS u).bank e = u.bank e := rfl
@[simp] theorem guardOf_keepS (s u : State) (r : Requester) (pg : Page) : (s.keepS u).guardOf r pg = u.guardOf r pg := rfl
@[simp] theorem keepK_pending (s u : State) : (s.keepK u).pending = s.pending := rfl
@[simp] theorem keepK_freeTick (s u : State) : (s.keepK u).freeTick = u.freeTick := rfl
@[simp] theorem keepK_now (s u : State) : (s.keepK u).now = u.now := rfl
@[simp] theorem keepK_frac (s u : State) : (s.keepK u).frac = u.frac := rfl
@[simp] theorem keepK_ct (s u : State) : (s.keepK u).ct = u.ct := rfl
@[simp] theorem keepK_up (s u : State) : (s.keepK u).up = u.up := rfl
@[simp] theorem keepK_upBase (s u : State) : (s.keepK u).upBase = u.upBase := rfl
@[simp] theorem keepK_opBase (s u : State) : (s.keepK u).opBase = u.opBase := rfl
@[simp] theorem keepK_regs (s u : State) : (s.keepK u).regs = u.regs := rfl
@[simp] theorem keepK_pages (s u : State) : (s.keepK u).pages = u.pages := rfl
@[simp] theorem keepK_resp (s u : State) : (s.keepK u).resp = u.resp := rfl
@[simp] theorem keepK_aonQ (s u : State) : (s.keepK u).aonQ = u.aonQ := rfl
@[simp] theorem keepK_aonRegs (s u : State) : (s.keepK u).aonRegs = u.aonRegs := rfl
@[simp] theorem keepK_toEic (s u : State) : (s.keepK u).toEic = u.toEic := rfl
@[simp] theorem keepK_solver (s u : State) : (s.keepK u).solver = s.solver := rfl
@[simp] theorem keepK_general (s u : State) : (s.keepK u).general = s.general := rfl
@[simp] theorem keepK_fuses (s u : State) : (s.keepK u).fuses = s.fuses := rfl
@[simp] theorem keepK_loopMem (s u : State) : (s.keepK u).loopMem = u.loopMem := rfl
@[simp] theorem keepK_rcMem (s u : State) : (s.keepK u).rcMem = u.rcMem := rfl
@[simp] theorem keepK_progMem (s u : State) : (s.keepK u).progMem = u.progMem := rfl
@[simp] theorem keepK_dataMem (s u : State) : (s.keepK u).dataMem = u.dataMem := rfl
@[simp] theorem keepK_retMem (s u : State) : (s.keepK u).retMem = u.retMem := rfl
@[simp] theorem keepK_inImg (s u : State) : (s.keepK u).inImg = u.inImg := rfl
@[simp] theorem keepK_outImg (s u : State) : (s.keepK u).outImg = u.outImg := rfl
@[simp] theorem keepK_dsq (s u : State) : (s.keepK u).dsq = u.dsq := rfl
@[simp] theorem keepK_ho (s u : State) : (s.keepK u).ho = u.ho := rfl
@[simp] theorem keepK_clusters (s u : State) : (s.keepK u).clusters = u.clusters := rfl
@[simp] theorem keepK_loops (s u : State) : (s.keepK u).loops = u.loops := rfl
@[simp] theorem keepK_sd (s u : State) : (s.keepK u).sd = u.sd := rfl
@[simp] theorem keepK_sar (s u : State) : (s.keepK u).sar = u.sar := rfl
@[simp] theorem keepK_pulse (s u : State) : (s.keepK u).pulse = u.pulse := rfl
@[simp] theorem keepK_pwm (s u : State) : (s.keepK u).pwm = u.pwm := rfl
@[simp] theorem keepK_tripPins (s u : State) : (s.keepK u).tripPins = u.tripPins := rfl
@[simp] theorem keepK_engines (s u : State) : (s.keepK u).engines = u.engines := rfl
@[simp] theorem keepK_forces (s u : State) : (s.keepK u).forces = u.forces := rfl
@[simp] theorem keepK_sources (s u : State) : (s.keepK u).sources = u.sources := rfl
@[simp] theorem keepK_lastClaim (s u : State) : (s.keepK u).lastClaim = u.lastClaim := rfl
@[simp] theorem keepK_ports (s u : State) : (s.keepK u).ports = u.ports := rfl
@[simp] theorem keepK_queues (s u : State) : (s.keepK u).queues = u.queues := rfl
@[simp] theorem keepK_tmk (s u : State) : (s.keepK u).tmk = u.tmk := rfl
@[simp] theorem keepK_rtc (s u : State) : (s.keepK u).rtc = u.rtc := rfl
@[simp] theorem keepK_can (s u : State) : (s.keepK u).can = u.can := rfl
@[simp] theorem keepK_ser (s u : State) : (s.keepK u).ser = u.ser := rfl
@[simp] theorem keepK_esw (s u : State) : (s.keepK u).esw = u.esw := rfl
@[simp] theorem keepK_sxe (s u : State) : (s.keepK u).sxe = u.sxe := rfl
@[simp] theorem keepK_stations (s u : State) : (s.keepK u).stations = u.stations := rfl
@[simp] theorem keepK_axes (s u : State) : (s.keepK u).axes = u.axes := rfl
@[simp] theorem keepK_groups (s u : State) : (s.keepK u).groups = u.groups := rfl
@[simp] theorem keepK_dch (s u : State) : (s.keepK u).dch = u.dch := rfl
@[simp] theorem keepK_rcd (s u : State) : (s.keepK u).rcd = u.rcd := rfl
@[simp] theorem keepK_sec (s u : State) : (s.keepK u).sec = u.sec := rfl
@[simp] theorem keepK_pwr (s u : State) : (s.keepK u).pwr = u.pwr := rfl
@[simp] theorem r_keepK (s u : State) (g : Fld) (j k : Nat) : (s.keepK u).r g j k = u.r g j k := rfl
@[simp] theorem on_keepK (s u : State) (g : Fld) (j k : Nat) : (s.keepK u).on g j k = u.on g j k := rfl
@[simp] theorem h_keepK (s u : State) (g : Fld) (pg : Page) : (s.keepK u).h g pg = u.h g pg := rfl
@[simp] theorem px_keepK (s u : State) (pg : Page) : (s.keepK u).px pg = u.px pg := rfl
@[simp] theorem eng_keepK (s u : State) (e : Nat) : (s.keepK u).eng e = u.eng e := rfl
@[simp] theorem bank_keepK (s u : State) (e : Nat) : (s.keepK u).bank e = u.bank e := rfl
@[simp] theorem guardOf_keepK (s u : State) (r : Requester) (pg : Page) : (s.keepK u).guardOf r pg = u.guardOf r pg := rfl

@[simp] theorem r_hw_ne (s : State) (f g : Fld) (pg : Page) (v j k : Nat) (h : g.key j k ≠ (hdr f pg).key pg.inst 0) :
    (s.hw f pg v).r g j k = s.r g j k := r_w_ne _ _ _ _ _ _ _ _ h
@[simp] theorem px_w (s : State) (f : Fld) (v i j : Nat) (pg : Page) : (s.w f v i j).px pg = s.px pg := rfl
@[simp] theorem px_hw (s : State) (f : Fld) (v : Nat) (p pg : Page) : (s.hw f p v).px pg = s.px pg := rfl
@[simp] theorem hw_pages (s : State) (f : Fld) (v : Nat) (p : Page) : (s.hw f p v).pages = s.pages := rfl
@[simp] theorem px_tick (s : State) (t : Nat) (pg : Page) : (s.tick t).px pg = s.px pg := rfl
@[simp] theorem px_count (s : State) (p pg : Page) : (s.countWrite p).px pg = s.px pg := rfl
/-- A count of a write changes COUNT alone. -/
@[simp] theorem h_count_ne (s : State) (pg : Page) (g : Fld) (h : g.off * 32 + g.lsb ≠ 0x028 * 32) :
    (s.countWrite pg).h g pg = s.h g pg := by
  unfold State.countWrite
  exact h_hw_ne _ _ _ _ _ (by simpa [HDR.COUNT] using h)

/-! ### Engines and pages -/

@[simp] theorem eng_setEng_same (s : State) (e : Nat) (x : EngineX) : (s.setEng e x).eng e = x := by
  simp [State.eng, State.setEng]

theorem eng_setEng_ne (s : State) (e e' : Nat) (x : EngineX) (h : e' ≠ e) : (s.setEng e x).eng e' = s.eng e' := by
  simp only [State.eng, State.setEng]
  exact sget_sset_ne _ _ _ _ h

@[simp] theorem px_setPx_same (s : State) (pg : Page) (x : PageX) : (s.setPx pg x).px pg = x := by
  simp [State.px, State.setPx]

@[simp] theorem eng_w (s : State) (f : Fld) (v inst i e : Nat) : (s.w f v inst i).eng e = s.eng e := rfl

@[simp] theorem eng_tick (s : State) (t e : Nat) : (s.tick t).eng e = s.eng e := rfl

@[simp] theorem level_setBank (s : State) (e : Nat) (b : Bank) : (s.setBank e b).level e = s.level e := by
  simp [State.level, State.setBank, State.setBankAt]

/-- The running bank holds what was put there. -/
@[simp] theorem bank_setBank (s : State) (e : Nat) (b : Bank) : (s.setBank e b).bank e = b := by
  unfold State.bank
  rw [level_setBank]
  simp [State.setBank, State.setBankAt]

@[simp] theorem dword_setDword_same (s : State) (w : Nat) (v : Word) : (s.setDword w v).dword w = v := by
  simp [State.dword, State.setDword]

@[simp] theorem rword_setRword_same (s : State) (w : Nat) (v : Word) : (s.setRword w v).rword w = v := by
  simp [State.rword, State.setRword]

end Sys2Proof.Laws
end

