-- ==== Sys2Proof/Laws/Access.lean ====
section
/-! SUPPORT. Laws of page access: what a write of a page can do (R18, R48, R53, R55, R62, R63). -/

namespace Sys2Proof.Laws

open Sys2Proof Sys2Proof.Machine

/-- A page that takes the write lets the effect act on the counted state. -/
theorem pageWrite_takes {s : State} {r : Requester} {pg : Page} (h : Takes s r pg) (b k : Bool) (f : State → State) :
    s.pageWrite r pg b f k = f (s.countWrite pg) := by
  obtain ⟨h1, h2, h3, h4, h5, h6⟩ := h
  cases b <;> cases k <;> simp [State.pageWrite, h1, h2, h3, h4, h5, State.breakKeys, h6]

/-- Time does not change whether a page takes a write. -/
theorem takes_tick {s : State} {r : Requester} {pg : Page} (t : Nat) (h : Takes s r pg) : Takes (s.tick t) r pg := h

/-- Everything that a write of a page can do: it is unmapped, gated, refused with a count after it has broken a key sequence, or the effect acts. -/
theorem pageWrite_cases (s : State) (r : Requester) (pg : Page) (b k : Bool) (f : State → State) :
    s.pageWrite r pg b f k = s.unmapped (pageAddr pg) ∨ s.pageWrite r pg b f k = s.gated (pageAddr pg) ∨
    s.pageWrite r pg b f k = (s.breakKeys pg).hinc HDR.OWNER_VIOL pg ∨
    (∃ s', (s' = s ∨ s' = s.disarm r pg) ∧
      (s.pageWrite r pg b f k = (s'.breakKeys pg).hinc HDR.ACCESS_ERR pg ∨
        s.pageWrite r pg b f k = (s'.breakKeys pg).hinc HDR.SEQ_MISS pg ∨
        ∃ s'', (s'' = s' ∨ s'' = s'.breakKeys pg) ∧ s.pageWrite r pg b f k = f (s''.countWrite pg))) := by
  by_cases h1 : pageExists pg = true
  case neg => simp [State.pageWrite, h1]
  by_cases h2 : s.reaches r pg = true
  case neg => simp [State.pageWrite, h1, h2]
  by_cases h3 : s.mayWrite r pg = true
  case neg => simp [State.pageWrite, h1, h2, h3]
  right; right; right
  have e : ∀ s', s' = (if (s.guardOf r pg).isSome then s.disarm r pg else s) →
      s.pageWrite r pg b f k = if (b && s'.closed pg) = true then (s'.breakKeys pg).hinc HDR.ACCESS_ERR pg
        else if ((s.guardOf r pg).isSome && s.guardOf r pg != some (s'.h HDR.COUNT pg)) = true then
          (s'.breakKeys pg).hinc HDR.SEQ_MISS pg
        else f ((if k = true then s' else s'.breakKeys pg).countWrite pg) := by
    rintro s' rfl
    simp only [State.pageWrite, h1, h2, h3, Bool.not_true, Bool.false_eq_true, if_false]
  refine ⟨if (s.guardOf r pg).isSome then s.disarm r pg else s, by split <;> simp, ?_⟩
  rw [e _ rfl]
  generalize (if (s.guardOf r pg).isSome = true then s.disarm r pg else s) = s'
  split
  · exact .inl rfl
  · split
    · exact .inr (.inl rfl)
    · refine .inr (.inr ⟨_, ?_, rfl⟩)
      cases k <;> simp

/-- A register command on a page that takes it, and that touches no byte memory. -/
theorem cmdK_takes {s : State} {r : Requester} {pg : Page} (h : Takes s r pg) (t : Nat) (b k : Bool) (f : State → State) :
    s.cmdK t (fun s => s.pageWrite r pg b f k) =
      .next (s.keepK (f ((s.tick t).countWrite pg))) := by
  simp only [State.cmdK, State.answerK, pageWrite_takes (takes_tick t h)]

/-- The same for a command that may write the solver SRAM. -/
theorem cmdS_takes {s : State} {r : Requester} {pg : Page} (h : Takes s r pg) (t : Nat) (b k : Bool) (f : State → State) :
    s.cmdS t (fun s => s.pageWrite r pg b f k) = .next (s.keepS (f ((s.tick t).countWrite pg))) := by
  simp only [State.cmdS, State.answerS, pageWrite_takes (takes_tick t h)]

end Sys2Proof.Laws
end

