-- ==== Sys2Proof/Laws/Events.lean ====
section
/-! SUPPORT. Laws of events: what raising one can change (R52, R346). -/

namespace Sys2Proof.Laws

open Sys2Proof Sys2Proof.Machine

/-- The key of the pending bits that an event sets. -/
def pendKey (code inst bit : Nat) : Nat :=
  if bit < 32 then (hdr HDR.EVT_PEND ⟨code, inst⟩).key inst 0 else DSQ.HO_EVT_PEND.key inst 0

/-- Two states that differ in pending bits under `key` and in the messages on their way alone. -/
def Raised (key : Nat) (s u : State) : Prop :=
  ∃ regs ports rcd toEic, u = { s with regs := regs, ports := ports, rcd := rcd, toEic := toEic } ∧
    ∀ (d : Word) (k : Nat), k ≠ key → sget d regs k = sget d s.regs k

theorem raised_refl (key : Nat) (s : State) : Raised key s s := ⟨_, _, _, _, rfl, fun _ _ _ => rfl⟩

theorem raised_trans {key : Nat} {s u v : State} (h : Raised key s u) (g : Raised key u v) : Raised key s v := by
  obtain ⟨_, _, _, _, rfl, h⟩ := h
  obtain ⟨_, _, _, _, rfl, g⟩ := g
  exact ⟨_, _, _, _, rfl, fun d k hk => (g d k hk).trans (h d k hk)⟩

theorem raised_pend (s : State) (code inst bit : Nat) (b : Bool) : Raised (pendKey code inst bit) s (s.setEvtPend code inst bit b) := by
  unfold State.setEvtPend pendKey
  split
  · exact ⟨_, _, _, _, rfl, fun d k hk => sget_sset_ne _ _ _ _ hk⟩
  · exact ⟨_, _, _, _, rfl, fun d k hk => sget_sset_ne _ _ _ _ hk⟩

theorem raised_hosts (key : Nat) (s : State) (m : EvtMsg) : Raised key s (s.offerHosts m) := by
  unfold State.offerHosts
  split <;> exact ⟨_, _, _, _, rfl, fun _ _ _ => rfl⟩

theorem raised_emit (key : Nat) (s : State) (x : EvtRow) (inst : Nat) (e : Bool) (p q : List Nat) : Raised key s (s.emit x inst e p q) := by
  have h : Raised key s (if (x.hqe && e) = true then s.offerHosts (s.evtMsg x.code inst x.bit p q) else s) := by
    split
    · exact raised_hosts _ _ _
    · exact raised_refl _ _
  unfold State.emit
  simp only []
  split
  · exact raised_trans h ⟨_, _, _, _, rfl, fun _ _ _ => rfl⟩
  · exact h

/-- What raising an event can change: its pending bits and messages on their way. -/
theorem raise_inv (s : State) (code inst bit : Nat) (p q : List Nat) : Raised (pendKey code inst bit) s (s.raise code inst bit p q) := by
  unfold State.raise
  split
  · exact raised_refl _ _
  · split
    · have h := raised_trans (raised_pend s code inst bit true) (raised_emit (pendKey code inst bit) _ ‹EvtRow› inst true p q)
      simp only []
      split
      · split
        · split <;> first | exact h | exact raised_trans h ⟨_, _, _, _, rfl, fun _ _ _ => rfl⟩
        · split <;> first | exact h | exact raised_trans h ⟨_, _, _, _, rfl, fun _ _ _ => rfl⟩
      · exact h
    · split
      · exact raised_emit _ _ _ _ _ _ _
      · exact raised_refl _ _

/-- Raising an event keeps every register field but its pending bits. -/
theorem r_raise (s : State) (code inst bit : Nat) (p q : List Nat) (g : Fld) (j k : Nat) (h : g.key j k ≠ pendKey code inst bit) :
    (s.raise code inst bit p q).r g j k = s.r g j k := by
  obtain ⟨_, _, _, _, e, hk⟩ := raise_inv s code inst bit p q
  rw [e]
  simp only [State.r]
  rw [hk _ _ h]

/-- Raising a page event keeps every other header field of that page. -/
@[simp] theorem h_raise (s : State) (pg : Page) (bit : Nat) (p q : List Nat) (g : Fld) (hb : bit < 32)
    (h : g.off * 32 + g.lsb ≠ 0x018 * 32) : (s.raise pg.code pg.inst bit p q).h g pg = s.h g pg := by
  refine r_raise _ _ _ _ _ _ _ _ _ ?_
  simp only [pendKey, hb, if_true, Fld.key, hdr, HDR.EVT_PEND]
  omega

@[simp] theorem raise_pending (s : State) (c i b : Nat) (p q : List Nat) : (s.raise c i b p q).pending = s.pending := by
  obtain ⟨_, _, _, _, e, -⟩ := raise_inv s c i b p q
  rw [e]

@[simp] theorem raise_freeTick (s : State) (c i b : Nat) (p q : List Nat) : (s.raise c i b p q).freeTick = s.freeTick := by
  obtain ⟨_, _, _, _, e, -⟩ := raise_inv s c i b p q
  rw [e]

@[simp] theorem raise_now (s : State) (c i b : Nat) (p q : List Nat) : (s.raise c i b p q).now = s.now := by
  obtain ⟨_, _, _, _, e, -⟩ := raise_inv s c i b p q
  rw [e]

@[simp] theorem raise_frac (s : State) (c i b : Nat) (p q : List Nat) : (s.raise c i b p q).frac = s.frac := by
  obtain ⟨_, _, _, _, e, -⟩ := raise_inv s c i b p q
  rw [e]

@[simp] theorem raise_ct (s : State) (c i b : Nat) (p q : List Nat) : (s.raise c i b p q).ct = s.ct := by
  obtain ⟨_, _, _, _, e, -⟩ := raise_inv s c i b p q
  rw [e]

@[simp] theorem raise_up (s : State) (c i b : Nat) (p q : List Nat) : (s.raise c i b p q).up = s.up := by
  obtain ⟨_, _, _, _, e, -⟩ := raise_inv s c i b p q
  rw [e]

@[simp] theorem raise_upBase (s : State) (c i b : Nat) (p q : List Nat) : (s.raise c i b p q).upBase = s.upBase := by
  obtain ⟨_, _, _, _, e, -⟩ := raise_inv s c i b p q
  rw [e]

@[simp] theorem raise_opBase (s : State) (c i b : Nat) (p q : List Nat) : (s.raise c i b p q).opBase = s.opBase := by
  obtain ⟨_, _, _, _, e, -⟩ := raise_inv s c i b p q
  rw [e]

@[simp] theorem raise_pages (s : State) (c i b : Nat) (p q : List Nat) : (s.raise c i b p q).pages = s.pages := by
  obtain ⟨_, _, _, _, e, -⟩ := raise_inv s c i b p q
  rw [e]

@[simp] theorem raise_resp (s : State) (c i b : Nat) (p q : List Nat) : (s.raise c i b p q).resp = s.resp := by
  obtain ⟨_, _, _, _, e, -⟩ := raise_inv s c i b p q
  rw [e]

@[simp] theorem raise_aonQ (s : State) (c i b : Nat) (p q : List Nat) : (s.raise c i b p q).aonQ = s.aonQ := by
  obtain ⟨_, _, _, _, e, -⟩ := raise_inv s c i b p q
  rw [e]

@[simp] theorem raise_aonRegs (s : State) (c i b : Nat) (p q : List Nat) : (s.raise c i b p q).aonRegs = s.aonRegs := by
  obtain ⟨_, _, _, _, e, -⟩ := raise_inv s c i b p q
  rw [e]

@[simp] theorem raise_solver (s : State) (c i b : Nat) (p q : List Nat) : (s.raise c i b p q).solver = s.solver := by
  obtain ⟨_, _, _, _, e, -⟩ := raise_inv s c i b p q
  rw [e]

@[simp] theorem raise_general (s : State) (c i b : Nat) (p q : List Nat) : (s.raise c i b p q).general = s.general := by
  obtain ⟨_, _, _, _, e, -⟩ := raise_inv s c i b p q
  rw [e]

@[simp] theorem raise_fuses (s : State) (c i b : Nat) (p q : List Nat) : (s.raise c i b p q).fuses = s.fuses := by
  obtain ⟨_, _, _, _, e, -⟩ := raise_inv s c i b p q
  rw [e]

@[simp] theorem raise_loopMem (s : State) (c i b : Nat) (p q : List Nat) : (s.raise c i b p q).loopMem = s.loopMem := by
  obtain ⟨_, _, _, _, e, -⟩ := raise_inv s c i b p q
  rw [e]

@[simp] theorem raise_rcMem (s : State) (c i b : Nat) (p q : List Nat) : (s.raise c i b p q).rcMem = s.rcMem := by
  obtain ⟨_, _, _, _, e, -⟩ := raise_inv s c i b p q
  rw [e]

@[simp] theorem raise_progMem (s : State) (c i b : Nat) (p q : List Nat) : (s.raise c i b p q).progMem = s.progMem := by
  obtain ⟨_, _, _, _, e, -⟩ := raise_inv s c i b p q
  rw [e]

@[simp] theorem raise_dataMem (s : State) (c i b : Nat) (p q : List Nat) : (s.raise c i b p q).dataMem = s.dataMem := by
  obtain ⟨_, _, _, _, e, -⟩ := raise_inv s c i b p q
  rw [e]

@[simp] theorem raise_retMem (s : State) (c i b : Nat) (p q : List Nat) : (s.raise c i b p q).retMem = s.retMem := by
  obtain ⟨_, _, _, _, e, -⟩ := raise_inv s c i b p q
  rw [e]

@[simp] theorem raise_inImg (s : State) (c i b : Nat) (p q : List Nat) : (s.raise c i b p q).inImg = s.inImg := by
  obtain ⟨_, _, _, _, e, -⟩ := raise_inv s c i b p q
  rw [e]

@[simp] theorem raise_outImg (s : State) (c i b : Nat) (p q : List Nat) : (s.raise c i b p q).outImg = s.outImg := by
  obtain ⟨_, _, _, _, e, -⟩ := raise_inv s c i b p q
  rw [e]

@[simp] theorem raise_dsq (s : State) (c i b : Nat) (p q : List Nat) : (s.raise c i b p q).dsq = s.dsq := by
  obtain ⟨_, _, _, _, e, -⟩ := raise_inv s c i b p q
  rw [e]

@[simp] theorem raise_ho (s : State) (c i b : Nat) (p q : List Nat) : (s.raise c i b p q).ho = s.ho := by
  obtain ⟨_, _, _, _, e, -⟩ := raise_inv s c i b p q
  rw [e]

@[simp] theorem raise_clusters (s : State) (c i b : Nat) (p q : List Nat) : (s.raise c i b p q).clusters = s.clusters := by
  obtain ⟨_, _, _, _, e, -⟩ := raise_inv s c i b p q
  rw [e]

@[simp] theorem raise_loops (s : State) (c i b : Nat) (p q : List Nat) : (s.raise c i b p q).loops = s.loops := by
  obtain ⟨_, _, _, _, e, -⟩ := raise_inv s c i b p q
  rw [e]

@[simp] theorem raise_routed (s : State) (c i b : Nat) (p q : List Nat) : (s.raise c i b p q).routed = s.routed := by
  obtain ⟨_, _, _, _, e, -⟩ := raise_inv s c i b p q
  rw [e]

@[simp] theorem raise_sd (s : State) (c i b : Nat) (p q : List Nat) : (s.raise c i b p q).sd = s.sd := by
  obtain ⟨_, _, _, _, e, -⟩ := raise_inv s c i b p q
  rw [e]

@[simp] theorem raise_sar (s : State) (c i b : Nat) (p q : List Nat) : (s.raise c i b p q).sar = s.sar := by
  obtain ⟨_, _, _, _, e, -⟩ := raise_inv s c i b p q
  rw [e]

@[simp] theorem raise_pulse (s : State) (c i b : Nat) (p q : List Nat) : (s.raise c i b p q).pulse = s.pulse := by
  obtain ⟨_, _, _, _, e, -⟩ := raise_inv s c i b p q
  rw [e]

@[simp] theorem raise_pwm (s : State) (c i b : Nat) (p q : List Nat) : (s.raise c i b p q).pwm = s.pwm := by
  obtain ⟨_, _, _, _, e, -⟩ := raise_inv s c i b p q
  rw [e]

@[simp] theorem raise_tripPins (s : State) (c i b : Nat) (p q : List Nat) : (s.raise c i b p q).tripPins = s.tripPins := by
  obtain ⟨_, _, _, _, e, -⟩ := raise_inv s c i b p q
  rw [e]

@[simp] theorem raise_engines (s : State) (c i b : Nat) (p q : List Nat) : (s.raise c i b p q).engines = s.engines := by
  obtain ⟨_, _, _, _, e, -⟩ := raise_inv s c i b p q
  rw [e]

@[simp] theorem raise_forces (s : State) (c i b : Nat) (p q : List Nat) : (s.raise c i b p q).forces = s.forces := by
  obtain ⟨_, _, _, _, e, -⟩ := raise_inv s c i b p q
  rw [e]

@[simp] theorem raise_sources (s : State) (c i b : Nat) (p q : List Nat) : (s.raise c i b p q).sources = s.sources := by
  obtain ⟨_, _, _, _, e, -⟩ := raise_inv s c i b p q
  rw [e]

@[simp] theorem raise_lastClaim (s : State) (c i b : Nat) (p q : List Nat) : (s.raise c i b p q).lastClaim = s.lastClaim := by
  obtain ⟨_, _, _, _, e, -⟩ := raise_inv s c i b p q
  rw [e]

@[simp] theorem raise_queues (s : State) (c i b : Nat) (p q : List Nat) : (s.raise c i b p q).queues = s.queues := by
  obtain ⟨_, _, _, _, e, -⟩ := raise_inv s c i b p q
  rw [e]

@[simp] theorem raise_tmk (s : State) (c i b : Nat) (p q : List Nat) : (s.raise c i b p q).tmk = s.tmk := by
  obtain ⟨_, _, _, _, e, -⟩ := raise_inv s c i b p q
  rw [e]

@[simp] theorem raise_rtc (s : State) (c i b : Nat) (p q : List Nat) : (s.raise c i b p q).rtc = s.rtc := by
  obtain ⟨_, _, _, _, e, -⟩ := raise_inv s c i b p q
  rw [e]

@[simp] theorem raise_can (s : State) (c i b : Nat) (p q : List Nat) : (s.raise c i b p q).can = s.can := by
  obtain ⟨_, _, _, _, e, -⟩ := raise_inv s c i b p q
  rw [e]

@[simp] theorem raise_ser (s : State) (c i b : Nat) (p q : List Nat) : (s.raise c i b p q).ser = s.ser := by
  obtain ⟨_, _, _, _, e, -⟩ := raise_inv s c i b p q
  rw [e]

@[simp] theorem raise_esw (s : State) (c i b : Nat) (p q : List Nat) : (s.raise c i b p q).esw = s.esw := by
  obtain ⟨_, _, _, _, e, -⟩ := raise_inv s c i b p q
  rw [e]

@[simp] theorem raise_sxe (s : State) (c i b : Nat) (p q : List Nat) : (s.raise c i b p q).sxe = s.sxe := by
  obtain ⟨_, _, _, _, e, -⟩ := raise_inv s c i b p q
  rw [e]

@[simp] theorem raise_stations (s : State) (c i b : Nat) (p q : List Nat) : (s.raise c i b p q).stations = s.stations := by
  obtain ⟨_, _, _, _, e, -⟩ := raise_inv s c i b p q
  rw [e]

@[simp] theorem raise_axes (s : State) (c i b : Nat) (p q : List Nat) : (s.raise c i b p q).axes = s.axes := by
  obtain ⟨_, _, _, _, e, -⟩ := raise_inv s c i b p q
  rw [e]

@[simp] theorem raise_groups (s : State) (c i b : Nat) (p q : List Nat) : (s.raise c i b p q).groups = s.groups := by
  obtain ⟨_, _, _, _, e, -⟩ := raise_inv s c i b p q
  rw [e]

@[simp] theorem raise_dch (s : State) (c i b : Nat) (p q : List Nat) : (s.raise c i b p q).dch = s.dch := by
  obtain ⟨_, _, _, _, e, -⟩ := raise_inv s c i b p q
  rw [e]

@[simp] theorem raise_sec (s : State) (c i b : Nat) (p q : List Nat) : (s.raise c i b p q).sec = s.sec := by
  obtain ⟨_, _, _, _, e, -⟩ := raise_inv s c i b p q
  rw [e]

@[simp] theorem raise_pwr (s : State) (c i b : Nat) (p q : List Nat) : (s.raise c i b p q).pwr = s.pwr := by
  obtain ⟨_, _, _, _, e, -⟩ := raise_inv s c i b p q
  rw [e]

end Sys2Proof.Laws
end

