-- ==== Sys2Proof/Laws/Fields.lean ====
section
/-! SUPPORT. Laws of register fields and records: what a write, a count and a replaced record leave and show. -/

namespace Sys2Proof.Laws

open Sys2Proof Sys2Proof.Machine

/-! ### Register fields -/

/-- A field of at most 32 bits reads what was written, cut to its width. -/
theorem r_w_cut (s : State) (f : Fld) (v inst i : Nat) (h : f.width ≤ 32) : (s.w f v inst i).r f inst i = v % 2 ^ f.width := by
  rw [r_w_same]
  exact Nat.mod_eq_of_lt (lt_of_lt_of_le (Nat.mod_lt _ (by positivity)) (Nat.pow_le_pow_right (by norm_num) h))

/-- A field holds less than 2³². -/
theorem r_lt (s : State) (f : Fld) (inst i : Nat) : s.r f inst i < 2 ^ 32 := BitVec.isLt _

/-- A count saturates (R44). -/
theorem r_inc_same (s : State) (f : Fld) (inst i n : Nat) (h : f.width ≤ 32) :
    (s.inc f inst i n).r f inst i = min (s.r f inst i + n) (2 ^ f.width - 1) := by
  unfold State.inc
  rw [r_w_cut _ _ _ _ _ h]
  have : 0 < 2 ^ f.width := by positivity
  exact Nat.mod_eq_of_lt (by omega)

/-- A count leaves the fields at other keys alone. -/
theorem r_inc_ne (s : State) (f g : Fld) (inst i n j k : Nat) (h : g.key j k ≠ f.key inst i) :
    (s.inc f inst i n).r g j k = s.r g j k := r_w_ne _ _ _ _ _ _ _ _ h

/-- A counted write leaves every field but COUNT alone. -/
theorem r_countWrite (s : State) (pg : Page) (g : Fld) (j k : Nat) (h : g.key j k ≠ (hdr HDR.COUNT pg).key pg.inst 0) :
    (s.countWrite pg).r g j k = s.r g j k := r_w_ne _ _ _ _ _ _ _ _ h

/-- A truth value written to a one-bit field. -/
theorem r_wb_same (s : State) (f : Fld) (b : Bool) (inst i : Nat) (h : 0 < f.width) (k : f.width ≤ 32) :
    (s.wb f b inst i).r f inst i = b.toNat := by
  unfold State.wb
  rw [r_w_cut _ _ _ _ _ k]
  have : 2 ≤ 2 ^ f.width := by
    calc 2 = 2 ^ 1 := rfl
      _ ≤ 2 ^ f.width := Nat.pow_le_pow_right (by norm_num) h
  cases b
  · simp
  · simp; omega

/-- A truth value written elsewhere. -/
theorem r_wb_ne (s : State) (f g : Fld) (b : Bool) (inst i j k : Nat) (h : g.key j k ≠ f.key inst i) :
    (s.wb f b inst i).r g j k = s.r g j k := r_w_ne _ _ _ _ _ _ _ _ h

/-! ### Records -/

@[simp] theorem canX_setCan (s : State) (ch : Nat) (x : CanX) : (s.setCan ch x).canX ch = x := by simp [State.canX, State.setCan]
theorem canX_setCan_ne (s : State) (ch m : Nat) (x : CanX) (h : m ≠ ch) : (s.setCan ch x).canX m = s.canX m := sget_sset_ne _ _ _ _ h
@[simp] theorem r_setCan (s : State) (ch : Nat) (x : CanX) (f : Fld) (j k : Nat) : (s.setCan ch x).r f j k = s.r f j k := rfl
@[simp] theorem canX_w (s : State) (f : Fld) (v i j m : Nat) : (s.w f v i j).canX m = s.canX m := rfl
@[simp] theorem canX_tick (s : State) (t m : Nat) : (s.tick t).canX m = s.canX m := rfl
@[simp] theorem canX_keepK (s u : State) (m : Nat) : (s.keepK u).canX m = u.canX m := rfl
@[simp] theorem canX_raise (s : State) (c i b : Nat) (p q : List Nat) (m : Nat) : (s.raise c i b p q).canX m = s.canX m := by simp [State.canX]
@[simp] theorem setCan_regs (s : State) (ch : Nat) (x : CanX) : (s.setCan ch x).regs = s.regs := rfl
@[simp] theorem setCan_now (s : State) (ch : Nat) (x : CanX) : (s.setCan ch x).now = s.now := rfl
@[simp] theorem setCan_up (s : State) (ch : Nat) (x : CanX) : (s.setCan ch x).up = s.up := rfl
@[simp] theorem setCan_ct (s : State) (ch : Nat) (x : CanX) : (s.setCan ch x).ct = s.ct := rfl
@[simp] theorem setCan_tmk (s : State) (ch : Nat) (x : CanX) : (s.setCan ch x).tmk = s.tmk := rfl
@[simp] theorem setCan_rtc (s : State) (ch : Nat) (x : CanX) : (s.setCan ch x).rtc = s.rtc := rfl
@[simp] theorem setCan_dch (s : State) (ch : Nat) (x : CanX) : (s.setCan ch x).dch = s.dch := rfl
@[simp] theorem setCan_rcd (s : State) (ch : Nat) (x : CanX) : (s.setCan ch x).rcd = s.rcd := rfl
@[simp] theorem setCan_sec (s : State) (ch : Nat) (x : CanX) : (s.setCan ch x).sec = s.sec := rfl
@[simp] theorem setCan_esw (s : State) (ch : Nat) (x : CanX) : (s.setCan ch x).esw = s.esw := rfl
@[simp] theorem setCan_sxe (s : State) (ch : Nat) (x : CanX) : (s.setCan ch x).sxe = s.sxe := rfl
@[simp] theorem setCan_dsq (s : State) (ch : Nat) (x : CanX) : (s.setCan ch x).dsq = s.dsq := rfl
@[simp] theorem setCan_ho (s : State) (ch : Nat) (x : CanX) : (s.setCan ch x).ho = s.ho := rfl
@[simp] theorem setCan_pwr (s : State) (ch : Nat) (x : CanX) : (s.setCan ch x).pwr = s.pwr := rfl
@[simp] theorem setCan_pages (s : State) (ch : Nat) (x : CanX) : (s.setCan ch x).pages = s.pages := rfl
@[simp] theorem setCan_engines (s : State) (ch : Nat) (x : CanX) : (s.setCan ch x).engines = s.engines := rfl
@[simp] theorem serX_setSer (s : State) (ch : Nat) (x : SerX) : (s.setSer ch x).serX ch = x := by simp [State.serX, State.setSer]
theorem serX_setSer_ne (s : State) (ch m : Nat) (x : SerX) (h : m ≠ ch) : (s.setSer ch x).serX m = s.serX m := sget_sset_ne _ _ _ _ h
@[simp] theorem r_setSer (s : State) (ch : Nat) (x : SerX) (f : Fld) (j k : Nat) : (s.setSer ch x).r f j k = s.r f j k := rfl
@[simp] theorem serX_w (s : State) (f : Fld) (v i j m : Nat) : (s.w f v i j).serX m = s.serX m := rfl
@[simp] theorem serX_tick (s : State) (t m : Nat) : (s.tick t).serX m = s.serX m := rfl
@[simp] theorem serX_keepK (s u : State) (m : Nat) : (s.keepK u).serX m = u.serX m := rfl
@[simp] theorem serX_raise (s : State) (c i b : Nat) (p q : List Nat) (m : Nat) : (s.raise c i b p q).serX m = s.serX m := by simp [State.serX]
@[simp] theorem setSer_regs (s : State) (ch : Nat) (x : SerX) : (s.setSer ch x).regs = s.regs := rfl
@[simp] theorem setSer_now (s : State) (ch : Nat) (x : SerX) : (s.setSer ch x).now = s.now := rfl
@[simp] theorem setSer_up (s : State) (ch : Nat) (x : SerX) : (s.setSer ch x).up = s.up := rfl
@[simp] theorem setSer_ct (s : State) (ch : Nat) (x : SerX) : (s.setSer ch x).ct = s.ct := rfl
@[simp] theorem setSer_tmk (s : State) (ch : Nat) (x : SerX) : (s.setSer ch x).tmk = s.tmk := rfl
@[simp] theorem setSer_rtc (s : State) (ch : Nat) (x : SerX) : (s.setSer ch x).rtc = s.rtc := rfl
@[simp] theorem setSer_dch (s : State) (ch : Nat) (x : SerX) : (s.setSer ch x).dch = s.dch := rfl
@[simp] theorem setSer_rcd (s : State) (ch : Nat) (x : SerX) : (s.setSer ch x).rcd = s.rcd := rfl
@[simp] theorem setSer_sec (s : State) (ch : Nat) (x : SerX) : (s.setSer ch x).sec = s.sec := rfl
@[simp] theorem setSer_esw (s : State) (ch : Nat) (x : SerX) : (s.setSer ch x).esw = s.esw := rfl
@[simp] theorem setSer_sxe (s : State) (ch : Nat) (x : SerX) : (s.setSer ch x).sxe = s.sxe := rfl
@[simp] theorem setSer_dsq (s : State) (ch : Nat) (x : SerX) : (s.setSer ch x).dsq = s.dsq := rfl
@[simp] theorem setSer_ho (s : State) (ch : Nat) (x : SerX) : (s.setSer ch x).ho = s.ho := rfl
@[simp] theorem setSer_pwr (s : State) (ch : Nat) (x : SerX) : (s.setSer ch x).pwr = s.pwr := rfl
@[simp] theorem setSer_pages (s : State) (ch : Nat) (x : SerX) : (s.setSer ch x).pages = s.pages := rfl
@[simp] theorem setSer_engines (s : State) (ch : Nat) (x : SerX) : (s.setSer ch x).engines = s.engines := rfl
@[simp] theorem src_setSrc (s : State) (n : Nat) (x : SourceX) : (s.setSrc n x).src n = x := by simp [State.src, State.setSrc]
theorem src_setSrc_ne (s : State) (n m : Nat) (x : SourceX) (h : m ≠ n) : (s.setSrc n x).src m = s.src m := sget_sset_ne _ _ _ _ h
@[simp] theorem r_setSrc (s : State) (n : Nat) (x : SourceX) (f : Fld) (j k : Nat) : (s.setSrc n x).r f j k = s.r f j k := rfl
@[simp] theorem src_w (s : State) (f : Fld) (v i j m : Nat) : (s.w f v i j).src m = s.src m := rfl
@[simp] theorem src_tick (s : State) (t m : Nat) : (s.tick t).src m = s.src m := rfl
@[simp] theorem src_keepK (s u : State) (m : Nat) : (s.keepK u).src m = u.src m := rfl
@[simp] theorem src_raise (s : State) (c i b : Nat) (p q : List Nat) (m : Nat) : (s.raise c i b p q).src m = s.src m := by simp [State.src]
@[simp] theorem setSrc_regs (s : State) (n : Nat) (x : SourceX) : (s.setSrc n x).regs = s.regs := rfl
@[simp] theorem setSrc_now (s : State) (n : Nat) (x : SourceX) : (s.setSrc n x).now = s.now := rfl
@[simp] theorem setSrc_up (s : State) (n : Nat) (x : SourceX) : (s.setSrc n x).up = s.up := rfl
@[simp] theorem setSrc_ct (s : State) (n : Nat) (x : SourceX) : (s.setSrc n x).ct = s.ct := rfl
@[simp] theorem setSrc_tmk (s : State) (n : Nat) (x : SourceX) : (s.setSrc n x).tmk = s.tmk := rfl
@[simp] theorem setSrc_rtc (s : State) (n : Nat) (x : SourceX) : (s.setSrc n x).rtc = s.rtc := rfl
@[simp] theorem setSrc_dch (s : State) (n : Nat) (x : SourceX) : (s.setSrc n x).dch = s.dch := rfl
@[simp] theorem setSrc_rcd (s : State) (n : Nat) (x : SourceX) : (s.setSrc n x).rcd = s.rcd := rfl
@[simp] theorem setSrc_sec (s : State) (n : Nat) (x : SourceX) : (s.setSrc n x).sec = s.sec := rfl
@[simp] theorem setSrc_esw (s : State) (n : Nat) (x : SourceX) : (s.setSrc n x).esw = s.esw := rfl
@[simp] theorem setSrc_sxe (s : State) (n : Nat) (x : SourceX) : (s.setSrc n x).sxe = s.sxe := rfl
@[simp] theorem setSrc_dsq (s : State) (n : Nat) (x : SourceX) : (s.setSrc n x).dsq = s.dsq := rfl
@[simp] theorem setSrc_ho (s : State) (n : Nat) (x : SourceX) : (s.setSrc n x).ho = s.ho := rfl
@[simp] theorem setSrc_pwr (s : State) (n : Nat) (x : SourceX) : (s.setSrc n x).pwr = s.pwr := rfl
@[simp] theorem setSrc_pages (s : State) (n : Nat) (x : SourceX) : (s.setSrc n x).pages = s.pages := rfl
@[simp] theorem setSrc_engines (s : State) (n : Nat) (x : SourceX) : (s.setSrc n x).engines = s.engines := rfl
@[simp] theorem port_setPort (s : State) (p : Nat) (x : PortX) : (s.setPort p x).port p = x := by simp [State.port, State.setPort]
theorem port_setPort_ne (s : State) (p m : Nat) (x : PortX) (h : m ≠ p) : (s.setPort p x).port m = s.port m := sget_sset_ne _ _ _ _ h
@[simp] theorem r_setPort (s : State) (p : Nat) (x : PortX) (f : Fld) (j k : Nat) : (s.setPort p x).r f j k = s.r f j k := rfl
@[simp] theorem port_w (s : State) (f : Fld) (v i j m : Nat) : (s.w f v i j).port m = s.port m := rfl
@[simp] theorem port_tick (s : State) (t m : Nat) : (s.tick t).port m = s.port m := rfl
@[simp] theorem port_keepK (s u : State) (m : Nat) : (s.keepK u).port m = u.port m := rfl
@[simp] theorem setPort_regs (s : State) (p : Nat) (x : PortX) : (s.setPort p x).regs = s.regs := rfl
@[simp] theorem setPort_now (s : State) (p : Nat) (x : PortX) : (s.setPort p x).now = s.now := rfl
@[simp] theorem setPort_up (s : State) (p : Nat) (x : PortX) : (s.setPort p x).up = s.up := rfl
@[simp] theorem setPort_ct (s : State) (p : Nat) (x : PortX) : (s.setPort p x).ct = s.ct := rfl
@[simp] theorem setPort_tmk (s : State) (p : Nat) (x : PortX) : (s.setPort p x).tmk = s.tmk := rfl
@[simp] theorem setPort_rtc (s : State) (p : Nat) (x : PortX) : (s.setPort p x).rtc = s.rtc := rfl
@[simp] theorem setPort_dch (s : State) (p : Nat) (x : PortX) : (s.setPort p x).dch = s.dch := rfl
@[simp] theorem setPort_rcd (s : State) (p : Nat) (x : PortX) : (s.setPort p x).rcd = s.rcd := rfl
@[simp] theorem setPort_sec (s : State) (p : Nat) (x : PortX) : (s.setPort p x).sec = s.sec := rfl
@[simp] theorem setPort_esw (s : State) (p : Nat) (x : PortX) : (s.setPort p x).esw = s.esw := rfl
@[simp] theorem setPort_sxe (s : State) (p : Nat) (x : PortX) : (s.setPort p x).sxe = s.sxe := rfl
@[simp] theorem setPort_dsq (s : State) (p : Nat) (x : PortX) : (s.setPort p x).dsq = s.dsq := rfl
@[simp] theorem setPort_ho (s : State) (p : Nat) (x : PortX) : (s.setPort p x).ho = s.ho := rfl
@[simp] theorem setPort_pwr (s : State) (p : Nat) (x : PortX) : (s.setPort p x).pwr = s.pwr := rfl
@[simp] theorem setPort_pages (s : State) (p : Nat) (x : PortX) : (s.setPort p x).pages = s.pages := rfl
@[simp] theorem setPort_engines (s : State) (p : Nat) (x : PortX) : (s.setPort p x).engines = s.engines := rfl
@[simp] theorem axis_setAxis (s : State) (a : Nat) (x : AxisX) : (s.setAxis a x).axis a = x := by simp [State.axis, State.setAxis]
theorem axis_setAxis_ne (s : State) (a m : Nat) (x : AxisX) (h : m ≠ a) : (s.setAxis a x).axis m = s.axis m := sget_sset_ne _ _ _ _ h
@[simp] theorem r_setAxis (s : State) (a : Nat) (x : AxisX) (f : Fld) (j k : Nat) : (s.setAxis a x).r f j k = s.r f j k := rfl
@[simp] theorem axis_w (s : State) (f : Fld) (v i j m : Nat) : (s.w f v i j).axis m = s.axis m := rfl
@[simp] theorem axis_tick (s : State) (t m : Nat) : (s.tick t).axis m = s.axis m := rfl
@[simp] theorem axis_keepK (s u : State) (m : Nat) : (s.keepK u).axis m = u.axis m := rfl
@[simp] theorem axis_raise (s : State) (c i b : Nat) (p q : List Nat) (m : Nat) : (s.raise c i b p q).axis m = s.axis m := by simp [State.axis]
@[simp] theorem setAxis_regs (s : State) (a : Nat) (x : AxisX) : (s.setAxis a x).regs = s.regs := rfl
@[simp] theorem setAxis_now (s : State) (a : Nat) (x : AxisX) : (s.setAxis a x).now = s.now := rfl
@[simp] theorem setAxis_up (s : State) (a : Nat) (x : AxisX) : (s.setAxis a x).up = s.up := rfl
@[simp] theorem setAxis_ct (s : State) (a : Nat) (x : AxisX) : (s.setAxis a x).ct = s.ct := rfl
@[simp] theorem setAxis_tmk (s : State) (a : Nat) (x : AxisX) : (s.setAxis a x).tmk = s.tmk := rfl
@[simp] theorem setAxis_rtc (s : State) (a : Nat) (x : AxisX) : (s.setAxis a x).rtc = s.rtc := rfl
@[simp] theorem setAxis_dch (s : State) (a : Nat) (x : AxisX) : (s.setAxis a x).dch = s.dch := rfl
@[simp] theorem setAxis_rcd (s : State) (a : Nat) (x : AxisX) : (s.setAxis a x).rcd = s.rcd := rfl
@[simp] theorem setAxis_sec (s : State) (a : Nat) (x : AxisX) : (s.setAxis a x).sec = s.sec := rfl
@[simp] theorem setAxis_esw (s : State) (a : Nat) (x : AxisX) : (s.setAxis a x).esw = s.esw := rfl
@[simp] theorem setAxis_sxe (s : State) (a : Nat) (x : AxisX) : (s.setAxis a x).sxe = s.sxe := rfl
@[simp] theorem setAxis_dsq (s : State) (a : Nat) (x : AxisX) : (s.setAxis a x).dsq = s.dsq := rfl
@[simp] theorem setAxis_ho (s : State) (a : Nat) (x : AxisX) : (s.setAxis a x).ho = s.ho := rfl
@[simp] theorem setAxis_pwr (s : State) (a : Nat) (x : AxisX) : (s.setAxis a x).pwr = s.pwr := rfl
@[simp] theorem setAxis_pages (s : State) (a : Nat) (x : AxisX) : (s.setAxis a x).pages = s.pages := rfl
@[simp] theorem setAxis_engines (s : State) (a : Nat) (x : AxisX) : (s.setAxis a x).engines = s.engines := rfl
@[simp] theorem stn_setStn (s : State) (n : Nat) (x : StationX) : (s.setStn n x).stn n = x := by simp [State.stn, State.setStn]
theorem stn_setStn_ne (s : State) (n m : Nat) (x : StationX) (h : m ≠ n) : (s.setStn n x).stn m = s.stn m := sget_sset_ne _ _ _ _ h
@[simp] theorem r_setStn (s : State) (n : Nat) (x : StationX) (f : Fld) (j k : Nat) : (s.setStn n x).r f j k = s.r f j k := rfl
@[simp] theorem stn_w (s : State) (f : Fld) (v i j m : Nat) : (s.w f v i j).stn m = s.stn m := rfl
@[simp] theorem stn_tick (s : State) (t m : Nat) : (s.tick t).stn m = s.stn m := rfl
@[simp] theorem stn_keepK (s u : State) (m : Nat) : (s.keepK u).stn m = u.stn m := rfl
@[simp] theorem stn_raise (s : State) (c i b : Nat) (p q : List Nat) (m : Nat) : (s.raise c i b p q).stn m = s.stn m := by simp [State.stn]
@[simp] theorem setStn_regs (s : State) (n : Nat) (x : StationX) : (s.setStn n x).regs = s.regs := rfl
@[simp] theorem setStn_now (s : State) (n : Nat) (x : StationX) : (s.setStn n x).now = s.now := rfl
@[simp] theorem setStn_up (s : State) (n : Nat) (x : StationX) : (s.setStn n x).up = s.up := rfl
@[simp] theorem setStn_ct (s : State) (n : Nat) (x : StationX) : (s.setStn n x).ct = s.ct := rfl
@[simp] theorem setStn_tmk (s : State) (n : Nat) (x : StationX) : (s.setStn n x).tmk = s.tmk := rfl
@[simp] theorem setStn_rtc (s : State) (n : Nat) (x : StationX) : (s.setStn n x).rtc = s.rtc := rfl
@[simp] theorem setStn_dch (s : State) (n : Nat) (x : StationX) : (s.setStn n x).dch = s.dch := rfl
@[simp] theorem setStn_rcd (s : State) (n : Nat) (x : StationX) : (s.setStn n x).rcd = s.rcd := rfl
@[simp] theorem setStn_sec (s : State) (n : Nat) (x : StationX) : (s.setStn n x).sec = s.sec := rfl
@[simp] theorem setStn_esw (s : State) (n : Nat) (x : StationX) : (s.setStn n x).esw = s.esw := rfl
@[simp] theorem setStn_sxe (s : State) (n : Nat) (x : StationX) : (s.setStn n x).sxe = s.sxe := rfl
@[simp] theorem setStn_dsq (s : State) (n : Nat) (x : StationX) : (s.setStn n x).dsq = s.dsq := rfl
@[simp] theorem setStn_ho (s : State) (n : Nat) (x : StationX) : (s.setStn n x).ho = s.ho := rfl
@[simp] theorem setStn_pwr (s : State) (n : Nat) (x : StationX) : (s.setStn n x).pwr = s.pwr := rfl
@[simp] theorem setStn_pages (s : State) (n : Nat) (x : StationX) : (s.setStn n x).pages = s.pages := rfl
@[simp] theorem setStn_engines (s : State) (n : Nat) (x : StationX) : (s.setStn n x).engines = s.engines := rfl
@[simp] theorem cluster_setCluster (s : State) (c : Nat) (x : ClusterX) : (s.setCluster c x).cluster c = x := by simp [State.cluster, State.setCluster]
theorem cluster_setCluster_ne (s : State) (c m : Nat) (x : ClusterX) (h : m ≠ c) : (s.setCluster c x).cluster m = s.cluster m := sget_sset_ne _ _ _ _ h
@[simp] theorem r_setCluster (s : State) (c : Nat) (x : ClusterX) (f : Fld) (j k : Nat) : (s.setCluster c x).r f j k = s.r f j k := rfl
@[simp] theorem cluster_w (s : State) (f : Fld) (v i j m : Nat) : (s.w f v i j).cluster m = s.cluster m := rfl
@[simp] theorem cluster_tick (s : State) (t m : Nat) : (s.tick t).cluster m = s.cluster m := rfl
@[simp] theorem cluster_keepK (s u : State) (m : Nat) : (s.keepK u).cluster m = u.cluster m := rfl
@[simp] theorem cluster_raise (s : State) (c i b : Nat) (p q : List Nat) (m : Nat) : (s.raise c i b p q).cluster m = s.cluster m := by simp [State.cluster]
@[simp] theorem setCluster_regs (s : State) (c : Nat) (x : ClusterX) : (s.setCluster c x).regs = s.regs := rfl
@[simp] theorem setCluster_now (s : State) (c : Nat) (x : ClusterX) : (s.setCluster c x).now = s.now := rfl
@[simp] theorem setCluster_up (s : State) (c : Nat) (x : ClusterX) : (s.setCluster c x).up = s.up := rfl
@[simp] theorem setCluster_ct (s : State) (c : Nat) (x : ClusterX) : (s.setCluster c x).ct = s.ct := rfl
@[simp] theorem setCluster_tmk (s : State) (c : Nat) (x : ClusterX) : (s.setCluster c x).tmk = s.tmk := rfl
@[simp] theorem setCluster_rtc (s : State) (c : Nat) (x : ClusterX) : (s.setCluster c x).rtc = s.rtc := rfl
@[simp] theorem setCluster_dch (s : State) (c : Nat) (x : ClusterX) : (s.setCluster c x).dch = s.dch := rfl
@[simp] theorem setCluster_rcd (s : State) (c : Nat) (x : ClusterX) : (s.setCluster c x).rcd = s.rcd := rfl
@[simp] theorem setCluster_sec (s : State) (c : Nat) (x : ClusterX) : (s.setCluster c x).sec = s.sec := rfl
@[simp] theorem setCluster_esw (s : State) (c : Nat) (x : ClusterX) : (s.setCluster c x).esw = s.esw := rfl
@[simp] theorem setCluster_sxe (s : State) (c : Nat) (x : ClusterX) : (s.setCluster c x).sxe = s.sxe := rfl
@[simp] theorem setCluster_dsq (s : State) (c : Nat) (x : ClusterX) : (s.setCluster c x).dsq = s.dsq := rfl
@[simp] theorem setCluster_ho (s : State) (c : Nat) (x : ClusterX) : (s.setCluster c x).ho = s.ho := rfl
@[simp] theorem setCluster_pwr (s : State) (c : Nat) (x : ClusterX) : (s.setCluster c x).pwr = s.pwr := rfl
@[simp] theorem setCluster_pages (s : State) (c : Nat) (x : ClusterX) : (s.setCluster c x).pages = s.pages := rfl
@[simp] theorem setCluster_engines (s : State) (c : Nat) (x : ClusterX) : (s.setCluster c x).engines = s.engines := rfl
@[simp] theorem loop_setLoop (s : State) (g : Nat) (x : LoopX) : (s.setLoop g x).loop g = x := by simp [State.loop, State.setLoop]
theorem loop_setLoop_ne (s : State) (g m : Nat) (x : LoopX) (h : m ≠ g) : (s.setLoop g x).loop m = s.loop m := sget_sset_ne _ _ _ _ h
@[simp] theorem r_setLoop (s : State) (g : Nat) (x : LoopX) (f : Fld) (j k : Nat) : (s.setLoop g x).r f j k = s.r f j k := rfl
@[simp] theorem loop_w (s : State) (f : Fld) (v i j m : Nat) : (s.w f v i j).loop m = s.loop m := rfl
@[simp] theorem loop_tick (s : State) (t m : Nat) : (s.tick t).loop m = s.loop m := rfl
@[simp] theorem loop_keepK (s u : State) (m : Nat) : (s.keepK u).loop m = u.loop m := rfl
@[simp] theorem loop_raise (s : State) (c i b : Nat) (p q : List Nat) (m : Nat) : (s.raise c i b p q).loop m = s.loop m := by simp [State.loop]
@[simp] theorem setLoop_regs (s : State) (g : Nat) (x : LoopX) : (s.setLoop g x).regs = s.regs := rfl
@[simp] theorem setLoop_now (s : State) (g : Nat) (x : LoopX) : (s.setLoop g x).now = s.now := rfl
@[simp] theorem setLoop_up (s : State) (g : Nat) (x : LoopX) : (s.setLoop g x).up = s.up := rfl
@[simp] theorem setLoop_ct (s : State) (g : Nat) (x : LoopX) : (s.setLoop g x).ct = s.ct := rfl
@[simp] theorem setLoop_tmk (s : State) (g : Nat) (x : LoopX) : (s.setLoop g x).tmk = s.tmk := rfl
@[simp] theorem setLoop_rtc (s : State) (g : Nat) (x : LoopX) : (s.setLoop g x).rtc = s.rtc := rfl
@[simp] theorem setLoop_dch (s : State) (g : Nat) (x : LoopX) : (s.setLoop g x).dch = s.dch := rfl
@[simp] theorem setLoop_rcd (s : State) (g : Nat) (x : LoopX) : (s.setLoop g x).rcd = s.rcd := rfl
@[simp] theorem setLoop_sec (s : State) (g : Nat) (x : LoopX) : (s.setLoop g x).sec = s.sec := rfl
@[simp] theorem setLoop_esw (s : State) (g : Nat) (x : LoopX) : (s.setLoop g x).esw = s.esw := rfl
@[simp] theorem setLoop_sxe (s : State) (g : Nat) (x : LoopX) : (s.setLoop g x).sxe = s.sxe := rfl
@[simp] theorem setLoop_dsq (s : State) (g : Nat) (x : LoopX) : (s.setLoop g x).dsq = s.dsq := rfl
@[simp] theorem setLoop_ho (s : State) (g : Nat) (x : LoopX) : (s.setLoop g x).ho = s.ho := rfl
@[simp] theorem setLoop_pwr (s : State) (g : Nat) (x : LoopX) : (s.setLoop g x).pwr = s.pwr := rfl
@[simp] theorem setLoop_pages (s : State) (g : Nat) (x : LoopX) : (s.setLoop g x).pages = s.pages := rfl
@[simp] theorem setLoop_engines (s : State) (g : Nat) (x : LoopX) : (s.setLoop g x).engines = s.engines := rfl
@[simp] theorem setTmk_tmk (s : State) (f : TmkX → TmkX) : (s.setTmk f).tmk = f s.tmk := rfl
@[simp] theorem r_setTmk (s : State) (f : TmkX → TmkX) (g : Fld) (j k : Nat) : (s.setTmk f).r g j k = s.r g j k := rfl
@[simp] theorem setTmk_regs (s : State) (f : TmkX → TmkX) : (s.setTmk f).regs = s.regs := rfl
@[simp] theorem setTmk_now (s : State) (f : TmkX → TmkX) : (s.setTmk f).now = s.now := rfl
@[simp] theorem setTmk_up (s : State) (f : TmkX → TmkX) : (s.setTmk f).up = s.up := rfl
@[simp] theorem setTmk_ct (s : State) (f : TmkX → TmkX) : (s.setTmk f).ct = s.ct := rfl
@[simp] theorem setTmk_pages (s : State) (f : TmkX → TmkX) : (s.setTmk f).pages = s.pages := rfl
@[simp] theorem setTmk_engines (s : State) (f : TmkX → TmkX) : (s.setTmk f).engines = s.engines := rfl
@[simp] theorem setTmk_general (s : State) (f : TmkX → TmkX) : (s.setTmk f).general = s.general := rfl
@[simp] theorem setTmk_solver (s : State) (f : TmkX → TmkX) : (s.setTmk f).solver = s.solver := rfl
@[simp] theorem setTmk_fuses (s : State) (f : TmkX → TmkX) : (s.setTmk f).fuses = s.fuses := rfl
@[simp] theorem setTmk_dataMem (s : State) (f : TmkX → TmkX) : (s.setTmk f).dataMem = s.dataMem := rfl
@[simp] theorem setTmk_retMem (s : State) (f : TmkX → TmkX) : (s.setTmk f).retMem = s.retMem := rfl
@[simp] theorem setTmk_ports (s : State) (f : TmkX → TmkX) : (s.setTmk f).ports = s.ports := rfl
@[simp] theorem setTmk_rtc (s : State) (f : TmkX → TmkX) : (s.setTmk f).rtc = s.rtc := rfl
@[simp] theorem setTmk_dch (s : State) (f : TmkX → TmkX) : (s.setTmk f).dch = s.dch := rfl
@[simp] theorem setTmk_rcd (s : State) (f : TmkX → TmkX) : (s.setTmk f).rcd = s.rcd := rfl
@[simp] theorem setTmk_sec (s : State) (f : TmkX → TmkX) : (s.setTmk f).sec = s.sec := rfl
@[simp] theorem setTmk_esw (s : State) (f : TmkX → TmkX) : (s.setTmk f).esw = s.esw := rfl
@[simp] theorem setTmk_sxe (s : State) (f : TmkX → TmkX) : (s.setTmk f).sxe = s.sxe := rfl
@[simp] theorem setTmk_ho (s : State) (f : TmkX → TmkX) : (s.setTmk f).ho = s.ho := rfl
@[simp] theorem setTmk_dsq (s : State) (f : TmkX → TmkX) : (s.setTmk f).dsq = s.dsq := rfl
@[simp] theorem setTmk_pwr (s : State) (f : TmkX → TmkX) : (s.setTmk f).pwr = s.pwr := rfl
@[simp] theorem setRtc_rtc (s : State) (f : RtcX → RtcX) : (s.setRtc f).rtc = f s.rtc := rfl
@[simp] theorem r_setRtc (s : State) (f : RtcX → RtcX) (g : Fld) (j k : Nat) : (s.setRtc f).r g j k = s.r g j k := rfl
@[simp] theorem setRtc_regs (s : State) (f : RtcX → RtcX) : (s.setRtc f).regs = s.regs := rfl
@[simp] theorem setRtc_now (s : State) (f : RtcX → RtcX) : (s.setRtc f).now = s.now := rfl
@[simp] theorem setRtc_up (s : State) (f : RtcX → RtcX) : (s.setRtc f).up = s.up := rfl
@[simp] theorem setRtc_ct (s : State) (f : RtcX → RtcX) : (s.setRtc f).ct = s.ct := rfl
@[simp] theorem setRtc_pages (s : State) (f : RtcX → RtcX) : (s.setRtc f).pages = s.pages := rfl
@[simp] theorem setRtc_engines (s : State) (f : RtcX → RtcX) : (s.setRtc f).engines = s.engines := rfl
@[simp] theorem setRtc_general (s : State) (f : RtcX → RtcX) : (s.setRtc f).general = s.general := rfl
@[simp] theorem setRtc_solver (s : State) (f : RtcX → RtcX) : (s.setRtc f).solver = s.solver := rfl
@[simp] theorem setRtc_fuses (s : State) (f : RtcX → RtcX) : (s.setRtc f).fuses = s.fuses := rfl
@[simp] theorem setRtc_dataMem (s : State) (f : RtcX → RtcX) : (s.setRtc f).dataMem = s.dataMem := rfl
@[simp] theorem setRtc_retMem (s : State) (f : RtcX → RtcX) : (s.setRtc f).retMem = s.retMem := rfl
@[simp] theorem setRtc_ports (s : State) (f : RtcX → RtcX) : (s.setRtc f).ports = s.ports := rfl
@[simp] theorem setRtc_tmk (s : State) (f : RtcX → RtcX) : (s.setRtc f).tmk = s.tmk := rfl
@[simp] theorem setRtc_dch (s : State) (f : RtcX → RtcX) : (s.setRtc f).dch = s.dch := rfl
@[simp] theorem setRtc_rcd (s : State) (f : RtcX → RtcX) : (s.setRtc f).rcd = s.rcd := rfl
@[simp] theorem setRtc_sec (s : State) (f : RtcX → RtcX) : (s.setRtc f).sec = s.sec := rfl
@[simp] theorem setRtc_esw (s : State) (f : RtcX → RtcX) : (s.setRtc f).esw = s.esw := rfl
@[simp] theorem setRtc_sxe (s : State) (f : RtcX → RtcX) : (s.setRtc f).sxe = s.sxe := rfl
@[simp] theorem setRtc_ho (s : State) (f : RtcX → RtcX) : (s.setRtc f).ho = s.ho := rfl
@[simp] theorem setRtc_dsq (s : State) (f : RtcX → RtcX) : (s.setRtc f).dsq = s.dsq := rfl
@[simp] theorem setRtc_pwr (s : State) (f : RtcX → RtcX) : (s.setRtc f).pwr = s.pwr := rfl
@[simp] theorem setDch_dch (s : State) (f : DchX → DchX) : (s.setDch f).dch = f s.dch := rfl
@[simp] theorem r_setDch (s : State) (f : DchX → DchX) (g : Fld) (j k : Nat) : (s.setDch f).r g j k = s.r g j k := rfl
@[simp] theorem setDch_regs (s : State) (f : DchX → DchX) : (s.setDch f).regs = s.regs := rfl
@[simp] theorem setDch_now (s : State) (f : DchX → DchX) : (s.setDch f).now = s.now := rfl
@[simp] theorem setDch_up (s : State) (f : DchX → DchX) : (s.setDch f).up = s.up := rfl
@[simp] theorem setDch_ct (s : State) (f : DchX → DchX) : (s.setDch f).ct = s.ct := rfl
@[simp] theorem setDch_pages (s : State) (f : DchX → DchX) : (s.setDch f).pages = s.pages := rfl
@[simp] theorem setDch_engines (s : State) (f : DchX → DchX) : (s.setDch f).engines = s.engines := rfl
@[simp] theorem setDch_general (s : State) (f : DchX → DchX) : (s.setDch f).general = s.general := rfl
@[simp] theorem setDch_solver (s : State) (f : DchX → DchX) : (s.setDch f).solver = s.solver := rfl
@[simp] theorem setDch_fuses (s : State) (f : DchX → DchX) : (s.setDch f).fuses = s.fuses := rfl
@[simp] theorem setDch_dataMem (s : State) (f : DchX → DchX) : (s.setDch f).dataMem = s.dataMem := rfl
@[simp] theorem setDch_retMem (s : State) (f : DchX → DchX) : (s.setDch f).retMem = s.retMem := rfl
@[simp] theorem setDch_ports (s : State) (f : DchX → DchX) : (s.setDch f).ports = s.ports := rfl
@[simp] theorem setDch_tmk (s : State) (f : DchX → DchX) : (s.setDch f).tmk = s.tmk := rfl
@[simp] theorem setDch_rtc (s : State) (f : DchX → DchX) : (s.setDch f).rtc = s.rtc := rfl
@[simp] theorem setDch_rcd (s : State) (f : DchX → DchX) : (s.setDch f).rcd = s.rcd := rfl
@[simp] theorem setDch_sec (s : State) (f : DchX → DchX) : (s.setDch f).sec = s.sec := rfl
@[simp] theorem setDch_esw (s : State) (f : DchX → DchX) : (s.setDch f).esw = s.esw := rfl
@[simp] theorem setDch_sxe (s : State) (f : DchX → DchX) : (s.setDch f).sxe = s.sxe := rfl
@[simp] theorem setDch_ho (s : State) (f : DchX → DchX) : (s.setDch f).ho = s.ho := rfl
@[simp] theorem setDch_dsq (s : State) (f : DchX → DchX) : (s.setDch f).dsq = s.dsq := rfl
@[simp] theorem setDch_pwr (s : State) (f : DchX → DchX) : (s.setDch f).pwr = s.pwr := rfl
@[simp] theorem setRec_rcd (s : State) (f : RecX → RecX) : (s.setRec f).rcd = f s.rcd := rfl
@[simp] theorem r_setRec (s : State) (f : RecX → RecX) (g : Fld) (j k : Nat) : (s.setRec f).r g j k = s.r g j k := rfl
@[simp] theorem setRec_regs (s : State) (f : RecX → RecX) : (s.setRec f).regs = s.regs := rfl
@[simp] theorem setRec_now (s : State) (f : RecX → RecX) : (s.setRec f).now = s.now := rfl
@[simp] theorem setRec_up (s : State) (f : RecX → RecX) : (s.setRec f).up = s.up := rfl
@[simp] theorem setRec_ct (s : State) (f : RecX → RecX) : (s.setRec f).ct = s.ct := rfl
@[simp] theorem setRec_pages (s : State) (f : RecX → RecX) : (s.setRec f).pages = s.pages := rfl
@[simp] theorem setRec_engines (s : State) (f : RecX → RecX) : (s.setRec f).engines = s.engines := rfl
@[simp] theorem setRec_general (s : State) (f : RecX → RecX) : (s.setRec f).general = s.general := rfl
@[simp] theorem setRec_solver (s : State) (f : RecX → RecX) : (s.setRec f).solver = s.solver := rfl
@[simp] theorem setRec_fuses (s : State) (f : RecX → RecX) : (s.setRec f).fuses = s.fuses := rfl
@[simp] theorem setRec_dataMem (s : State) (f : RecX → RecX) : (s.setRec f).dataMem = s.dataMem := rfl
@[simp] theorem setRec_retMem (s : State) (f : RecX → RecX) : (s.setRec f).retMem = s.retMem := rfl
@[simp] theorem setRec_ports (s : State) (f : RecX → RecX) : (s.setRec f).ports = s.ports := rfl
@[simp] theorem setRec_tmk (s : State) (f : RecX → RecX) : (s.setRec f).tmk = s.tmk := rfl
@[simp] theorem setRec_rtc (s : State) (f : RecX → RecX) : (s.setRec f).rtc = s.rtc := rfl
@[simp] theorem setRec_dch (s : State) (f : RecX → RecX) : (s.setRec f).dch = s.dch := rfl
@[simp] theorem setRec_sec (s : State) (f : RecX → RecX) : (s.setRec f).sec = s.sec := rfl
@[simp] theorem setRec_esw (s : State) (f : RecX → RecX) : (s.setRec f).esw = s.esw := rfl
@[simp] theorem setRec_sxe (s : State) (f : RecX → RecX) : (s.setRec f).sxe = s.sxe := rfl
@[simp] theorem setRec_ho (s : State) (f : RecX → RecX) : (s.setRec f).ho = s.ho := rfl
@[simp] theorem setRec_dsq (s : State) (f : RecX → RecX) : (s.setRec f).dsq = s.dsq := rfl
@[simp] theorem setRec_pwr (s : State) (f : RecX → RecX) : (s.setRec f).pwr = s.pwr := rfl
@[simp] theorem setSec_sec (s : State) (f : SecX → SecX) : (s.setSec f).sec = f s.sec := rfl
@[simp] theorem r_setSec (s : State) (f : SecX → SecX) (g : Fld) (j k : Nat) : (s.setSec f).r g j k = s.r g j k := rfl
@[simp] theorem setSec_regs (s : State) (f : SecX → SecX) : (s.setSec f).regs = s.regs := rfl
@[simp] theorem setSec_now (s : State) (f : SecX → SecX) : (s.setSec f).now = s.now := rfl
@[simp] theorem setSec_up (s : State) (f : SecX → SecX) : (s.setSec f).up = s.up := rfl
@[simp] theorem setSec_ct (s : State) (f : SecX → SecX) : (s.setSec f).ct = s.ct := rfl
@[simp] theorem setSec_pages (s : State) (f : SecX → SecX) : (s.setSec f).pages = s.pages := rfl
@[simp] theorem setSec_engines (s : State) (f : SecX → SecX) : (s.setSec f).engines = s.engines := rfl
@[simp] theorem setSec_general (s : State) (f : SecX → SecX) : (s.setSec f).general = s.general := rfl
@[simp] theorem setSec_solver (s : State) (f : SecX → SecX) : (s.setSec f).solver = s.solver := rfl
@[simp] theorem setSec_fuses (s : State) (f : SecX → SecX) : (s.setSec f).fuses = s.fuses := rfl
@[simp] theorem setSec_dataMem (s : State) (f : SecX → SecX) : (s.setSec f).dataMem = s.dataMem := rfl
@[simp] theorem setSec_retMem (s : State) (f : SecX → SecX) : (s.setSec f).retMem = s.retMem := rfl
@[simp] theorem setSec_ports (s : State) (f : SecX → SecX) : (s.setSec f).ports = s.ports := rfl
@[simp] theorem setSec_tmk (s : State) (f : SecX → SecX) : (s.setSec f).tmk = s.tmk := rfl
@[simp] theorem setSec_rtc (s : State) (f : SecX → SecX) : (s.setSec f).rtc = s.rtc := rfl
@[simp] theorem setSec_dch (s : State) (f : SecX → SecX) : (s.setSec f).dch = s.dch := rfl
@[simp] theorem setSec_rcd (s : State) (f : SecX → SecX) : (s.setSec f).rcd = s.rcd := rfl
@[simp] theorem setSec_esw (s : State) (f : SecX → SecX) : (s.setSec f).esw = s.esw := rfl
@[simp] theorem setSec_sxe (s : State) (f : SecX → SecX) : (s.setSec f).sxe = s.sxe := rfl
@[simp] theorem setSec_ho (s : State) (f : SecX → SecX) : (s.setSec f).ho = s.ho := rfl
@[simp] theorem setSec_dsq (s : State) (f : SecX → SecX) : (s.setSec f).dsq = s.dsq := rfl
@[simp] theorem setSec_pwr (s : State) (f : SecX → SecX) : (s.setSec f).pwr = s.pwr := rfl
@[simp] theorem setEsw_esw (s : State) (f : EswX → EswX) : (s.setEsw f).esw = f s.esw := rfl
@[simp] theorem r_setEsw (s : State) (f : EswX → EswX) (g : Fld) (j k : Nat) : (s.setEsw f).r g j k = s.r g j k := rfl
@[simp] theorem setEsw_regs (s : State) (f : EswX → EswX) : (s.setEsw f).regs = s.regs := rfl
@[simp] theorem setEsw_now (s : State) (f : EswX → EswX) : (s.setEsw f).now = s.now := rfl
@[simp] theorem setEsw_up (s : State) (f : EswX → EswX) : (s.setEsw f).up = s.up := rfl
@[simp] theorem setEsw_ct (s : State) (f : EswX → EswX) : (s.setEsw f).ct = s.ct := rfl
@[simp] theorem setEsw_pages (s : State) (f : EswX → EswX) : (s.setEsw f).pages = s.pages := rfl
@[simp] theorem setEsw_engines (s : State) (f : EswX → EswX) : (s.setEsw f).engines = s.engines := rfl
@[simp] theorem setEsw_general (s : State) (f : EswX → EswX) : (s.setEsw f).general = s.general := rfl
@[simp] theorem setEsw_solver (s : State) (f : EswX → EswX) : (s.setEsw f).solver = s.solver := rfl
@[simp] theorem setEsw_fuses (s : State) (f : EswX → EswX) : (s.setEsw f).fuses = s.fuses := rfl
@[simp] theorem setEsw_dataMem (s : State) (f : EswX → EswX) : (s.setEsw f).dataMem = s.dataMem := rfl
@[simp] theorem setEsw_retMem (s : State) (f : EswX → EswX) : (s.setEsw f).retMem = s.retMem := rfl
@[simp] theorem setEsw_ports (s : State) (f : EswX → EswX) : (s.setEsw f).ports = s.ports := rfl
@[simp] theorem setEsw_tmk (s : State) (f : EswX → EswX) : (s.setEsw f).tmk = s.tmk := rfl
@[simp] theorem setEsw_rtc (s : State) (f : EswX → EswX) : (s.setEsw f).rtc = s.rtc := rfl
@[simp] theorem setEsw_dch (s : State) (f : EswX → EswX) : (s.setEsw f).dch = s.dch := rfl
@[simp] theorem setEsw_rcd (s : State) (f : EswX → EswX) : (s.setEsw f).rcd = s.rcd := rfl
@[simp] theorem setEsw_sec (s : State) (f : EswX → EswX) : (s.setEsw f).sec = s.sec := rfl
@[simp] theorem setEsw_sxe (s : State) (f : EswX → EswX) : (s.setEsw f).sxe = s.sxe := rfl
@[simp] theorem setEsw_ho (s : State) (f : EswX → EswX) : (s.setEsw f).ho = s.ho := rfl
@[simp] theorem setEsw_dsq (s : State) (f : EswX → EswX) : (s.setEsw f).dsq = s.dsq := rfl
@[simp] theorem setEsw_pwr (s : State) (f : EswX → EswX) : (s.setEsw f).pwr = s.pwr := rfl
@[simp] theorem setSxe_sxe (s : State) (f : SxeX → SxeX) : (s.setSxe f).sxe = f s.sxe := rfl
@[simp] theorem r_setSxe (s : State) (f : SxeX → SxeX) (g : Fld) (j k : Nat) : (s.setSxe f).r g j k = s.r g j k := rfl
@[simp] theorem setSxe_regs (s : State) (f : SxeX → SxeX) : (s.setSxe f).regs = s.regs := rfl
@[simp] theorem setSxe_now (s : State) (f : SxeX → SxeX) : (s.setSxe f).now = s.now := rfl
@[simp] theorem setSxe_up (s : State) (f : SxeX → SxeX) : (s.setSxe f).up = s.up := rfl
@[simp] theorem setSxe_ct (s : State) (f : SxeX → SxeX) : (s.setSxe f).ct = s.ct := rfl
@[simp] theorem setSxe_pages (s : State) (f : SxeX → SxeX) : (s.setSxe f).pages = s.pages := rfl
@[simp] theorem setSxe_engines (s : State) (f : SxeX → SxeX) : (s.setSxe f).engines = s.engines := rfl
@[simp] theorem setSxe_general (s : State) (f : SxeX → SxeX) : (s.setSxe f).general = s.general := rfl
@[simp] theorem setSxe_solver (s : State) (f : SxeX → SxeX) : (s.setSxe f).solver = s.solver := rfl
@[simp] theorem setSxe_fuses (s : State) (f : SxeX → SxeX) : (s.setSxe f).fuses = s.fuses := rfl
@[simp] theorem setSxe_dataMem (s : State) (f : SxeX → SxeX) : (s.setSxe f).dataMem = s.dataMem := rfl
@[simp] theorem setSxe_retMem (s : State) (f : SxeX → SxeX) : (s.setSxe f).retMem = s.retMem := rfl
@[simp] theorem setSxe_ports (s : State) (f : SxeX → SxeX) : (s.setSxe f).ports = s.ports := rfl
@[simp] theorem setSxe_tmk (s : State) (f : SxeX → SxeX) : (s.setSxe f).tmk = s.tmk := rfl
@[simp] theorem setSxe_rtc (s : State) (f : SxeX → SxeX) : (s.setSxe f).rtc = s.rtc := rfl
@[simp] theorem setSxe_dch (s : State) (f : SxeX → SxeX) : (s.setSxe f).dch = s.dch := rfl
@[simp] theorem setSxe_rcd (s : State) (f : SxeX → SxeX) : (s.setSxe f).rcd = s.rcd := rfl
@[simp] theorem setSxe_sec (s : State) (f : SxeX → SxeX) : (s.setSxe f).sec = s.sec := rfl
@[simp] theorem setSxe_esw (s : State) (f : SxeX → SxeX) : (s.setSxe f).esw = s.esw := rfl
@[simp] theorem setSxe_ho (s : State) (f : SxeX → SxeX) : (s.setSxe f).ho = s.ho := rfl
@[simp] theorem setSxe_dsq (s : State) (f : SxeX → SxeX) : (s.setSxe f).dsq = s.dsq := rfl
@[simp] theorem setSxe_pwr (s : State) (f : SxeX → SxeX) : (s.setSxe f).pwr = s.pwr := rfl
@[simp] theorem setHo_ho (s : State) (f : HoX → HoX) : (s.setHo f).ho = f s.ho := rfl
@[simp] theorem r_setHo (s : State) (f : HoX → HoX) (g : Fld) (j k : Nat) : (s.setHo f).r g j k = s.r g j k := rfl
@[simp] theorem setHo_regs (s : State) (f : HoX → HoX) : (s.setHo f).regs = s.regs := rfl
@[simp] theorem setHo_now (s : State) (f : HoX → HoX) : (s.setHo f).now = s.now := rfl
@[simp] theorem setHo_up (s : State) (f : HoX → HoX) : (s.setHo f).up = s.up := rfl
@[simp] theorem setHo_ct (s : State) (f : HoX → HoX) : (s.setHo f).ct = s.ct := rfl
@[simp] theorem setHo_pages (s : State) (f : HoX → HoX) : (s.setHo f).pages = s.pages := rfl
@[simp] theorem setHo_engines (s : State) (f : HoX → HoX) : (s.setHo f).engines = s.engines := rfl
@[simp] theorem setHo_general (s : State) (f : HoX → HoX) : (s.setHo f).general = s.general := rfl
@[simp] theorem setHo_solver (s : State) (f : HoX → HoX) : (s.setHo f).solver = s.solver := rfl
@[simp] theorem setHo_fuses (s : State) (f : HoX → HoX) : (s.setHo f).fuses = s.fuses := rfl
@[simp] theorem setHo_dataMem (s : State) (f : HoX → HoX) : (s.setHo f).dataMem = s.dataMem := rfl
@[simp] theorem setHo_retMem (s : State) (f : HoX → HoX) : (s.setHo f).retMem = s.retMem := rfl
@[simp] theorem setHo_ports (s : State) (f : HoX → HoX) : (s.setHo f).ports = s.ports := rfl
@[simp] theorem setHo_tmk (s : State) (f : HoX → HoX) : (s.setHo f).tmk = s.tmk := rfl
@[simp] theorem setHo_rtc (s : State) (f : HoX → HoX) : (s.setHo f).rtc = s.rtc := rfl
@[simp] theorem setHo_dch (s : State) (f : HoX → HoX) : (s.setHo f).dch = s.dch := rfl
@[simp] theorem setHo_rcd (s : State) (f : HoX → HoX) : (s.setHo f).rcd = s.rcd := rfl
@[simp] theorem setHo_sec (s : State) (f : HoX → HoX) : (s.setHo f).sec = s.sec := rfl
@[simp] theorem setHo_esw (s : State) (f : HoX → HoX) : (s.setHo f).esw = s.esw := rfl
@[simp] theorem setHo_sxe (s : State) (f : HoX → HoX) : (s.setHo f).sxe = s.sxe := rfl
@[simp] theorem setHo_dsq (s : State) (f : HoX → HoX) : (s.setHo f).dsq = s.dsq := rfl
@[simp] theorem setHo_pwr (s : State) (f : HoX → HoX) : (s.setHo f).pwr = s.pwr := rfl
@[simp] theorem setDsq_dsq (s : State) (f : DsqX → DsqX) : (s.setDsq f).dsq = f s.dsq := rfl
@[simp] theorem r_setDsq (s : State) (f : DsqX → DsqX) (g : Fld) (j k : Nat) : (s.setDsq f).r g j k = s.r g j k := rfl
@[simp] theorem setDsq_regs (s : State) (f : DsqX → DsqX) : (s.setDsq f).regs = s.regs := rfl
@[simp] theorem setDsq_now (s : State) (f : DsqX → DsqX) : (s.setDsq f).now = s.now := rfl
@[simp] theorem setDsq_up (s : State) (f : DsqX → DsqX) : (s.setDsq f).up = s.up := rfl
@[simp] theorem setDsq_ct (s : State) (f : DsqX → DsqX) : (s.setDsq f).ct = s.ct := rfl
@[simp] theorem setDsq_pages (s : State) (f : DsqX → DsqX) : (s.setDsq f).pages = s.pages := rfl
@[simp] theorem setDsq_engines (s : State) (f : DsqX → DsqX) : (s.setDsq f).engines = s.engines := rfl
@[simp] theorem setDsq_general (s : State) (f : DsqX → DsqX) : (s.setDsq f).general = s.general := rfl
@[simp] theorem setDsq_solver (s : State) (f : DsqX → DsqX) : (s.setDsq f).solver = s.solver := rfl
@[simp] theorem setDsq_fuses (s : State) (f : DsqX → DsqX) : (s.setDsq f).fuses = s.fuses := rfl
@[simp] theorem setDsq_dataMem (s : State) (f : DsqX → DsqX) : (s.setDsq f).dataMem = s.dataMem := rfl
@[simp] theorem setDsq_retMem (s : State) (f : DsqX → DsqX) : (s.setDsq f).retMem = s.retMem := rfl
@[simp] theorem setDsq_ports (s : State) (f : DsqX → DsqX) : (s.setDsq f).ports = s.ports := rfl
@[simp] theorem setDsq_tmk (s : State) (f : DsqX → DsqX) : (s.setDsq f).tmk = s.tmk := rfl
@[simp] theorem setDsq_rtc (s : State) (f : DsqX → DsqX) : (s.setDsq f).rtc = s.rtc := rfl
@[simp] theorem setDsq_dch (s : State) (f : DsqX → DsqX) : (s.setDsq f).dch = s.dch := rfl
@[simp] theorem setDsq_rcd (s : State) (f : DsqX → DsqX) : (s.setDsq f).rcd = s.rcd := rfl
@[simp] theorem setDsq_sec (s : State) (f : DsqX → DsqX) : (s.setDsq f).sec = s.sec := rfl
@[simp] theorem setDsq_esw (s : State) (f : DsqX → DsqX) : (s.setDsq f).esw = s.esw := rfl
@[simp] theorem setDsq_sxe (s : State) (f : DsqX → DsqX) : (s.setDsq f).sxe = s.sxe := rfl
@[simp] theorem setDsq_ho (s : State) (f : DsqX → DsqX) : (s.setDsq f).ho = s.ho := rfl
@[simp] theorem setDsq_pwr (s : State) (f : DsqX → DsqX) : (s.setDsq f).pwr = s.pwr := rfl
@[simp] theorem setPwr_pwr (s : State) (f : PwrX → PwrX) : (s.setPwr f).pwr = f s.pwr := rfl
@[simp] theorem r_setPwr (s : State) (f : PwrX → PwrX) (g : Fld) (j k : Nat) : (s.setPwr f).r g j k = s.r g j k := rfl
@[simp] theorem setPwr_regs (s : State) (f : PwrX → PwrX) : (s.setPwr f).regs = s.regs := rfl
@[simp] theorem setPwr_now (s : State) (f : PwrX → PwrX) : (s.setPwr f).now = s.now := rfl
@[simp] theorem setPwr_up (s : State) (f : PwrX → PwrX) : (s.setPwr f).up = s.up := rfl
@[simp] theorem setPwr_ct (s : State) (f : PwrX → PwrX) : (s.setPwr f).ct = s.ct := rfl
@[simp] theorem setPwr_pages (s : State) (f : PwrX → PwrX) : (s.setPwr f).pages = s.pages := rfl
@[simp] theorem setPwr_engines (s : State) (f : PwrX → PwrX) : (s.setPwr f).engines = s.engines := rfl
@[simp] theorem setPwr_general (s : State) (f : PwrX → PwrX) : (s.setPwr f).general = s.general := rfl
@[simp] theorem setPwr_solver (s : State) (f : PwrX → PwrX) : (s.setPwr f).solver = s.solver := rfl
@[simp] theorem setPwr_fuses (s : State) (f : PwrX → PwrX) : (s.setPwr f).fuses = s.fuses := rfl
@[simp] theorem setPwr_dataMem (s : State) (f : PwrX → PwrX) : (s.setPwr f).dataMem = s.dataMem := rfl
@[simp] theorem setPwr_retMem (s : State) (f : PwrX → PwrX) : (s.setPwr f).retMem = s.retMem := rfl
@[simp] theorem setPwr_ports (s : State) (f : PwrX → PwrX) : (s.setPwr f).ports = s.ports := rfl
@[simp] theorem setPwr_tmk (s : State) (f : PwrX → PwrX) : (s.setPwr f).tmk = s.tmk := rfl
@[simp] theorem setPwr_rtc (s : State) (f : PwrX → PwrX) : (s.setPwr f).rtc = s.rtc := rfl
@[simp] theorem setPwr_dch (s : State) (f : PwrX → PwrX) : (s.setPwr f).dch = s.dch := rfl
@[simp] theorem setPwr_rcd (s : State) (f : PwrX → PwrX) : (s.setPwr f).rcd = s.rcd := rfl
@[simp] theorem setPwr_sec (s : State) (f : PwrX → PwrX) : (s.setPwr f).sec = s.sec := rfl
@[simp] theorem setPwr_esw (s : State) (f : PwrX → PwrX) : (s.setPwr f).esw = s.esw := rfl
@[simp] theorem setPwr_sxe (s : State) (f : PwrX → PwrX) : (s.setPwr f).sxe = s.sxe := rfl
@[simp] theorem setPwr_ho (s : State) (f : PwrX → PwrX) : (s.setPwr f).ho = s.ho := rfl
@[simp] theorem setPwr_dsq (s : State) (f : PwrX → PwrX) : (s.setPwr f).dsq = s.dsq := rfl

/-! ### Conditions shown in raw bits -/

/-- The key of the raw bits that a condition sets or clears. -/
def rawKey (code inst bit : Nat) : Nat :=
  if bit < 32 then (hdr HDR.EVT_RAW ⟨code, inst⟩).key inst 0 else DSQ.HO_EVT_RAW.key inst 0

/-- A raw bit alone changes a field at its own key. -/
theorem r_setEvtRaw (s : State) (code inst bit : Nat) (b : Bool) (g : Fld) (j k : Nat) (h : g.key j k ≠ rawKey code inst bit) :
    (s.setEvtRaw code inst bit b).r g j k = s.r g j k := by
  unfold State.setEvtRaw rawKey at *
  split at h
  · rw [if_pos ‹_›]; exact r_w_ne _ _ _ _ _ _ _ _ h
  · rw [if_neg ‹_›]; exact r_w_ne _ _ _ _ _ _ _ _ h

/-- A condition shown in a raw bit keeps every register field but that bit's and the pending bits (R52). -/
theorem r_setRaw (s : State) (code inst bit : Nat) (b : Bool) (p q : List Nat) (g : Fld) (j k : Nat)
    (h : g.key j k ≠ pendKey code inst bit) (h' : g.key j k ≠ rawKey code inst bit) :
    (s.setRaw code inst bit b p q).r g j k = s.r g j k := by
  unfold State.setRaw
  split
  · rw [r_raise _ _ _ _ _ _ _ _ _ h, r_setEvtRaw _ _ _ _ _ _ _ _ h']
  · exact r_setEvtRaw _ _ _ _ _ _ _ _ h'

@[simp] theorem setRaw_pending (s : State) (c i b : Nat) (v : Bool) (p q : List Nat) : (s.setRaw c i b v p q).pending = s.pending := by
  unfold State.setRaw State.setEvtRaw; split <;> split <;> simp [State.hw]
@[simp] theorem setRaw_freeTick (s : State) (c i b : Nat) (v : Bool) (p q : List Nat) : (s.setRaw c i b v p q).freeTick = s.freeTick := by
  unfold State.setRaw State.setEvtRaw; split <;> split <;> simp [State.hw]
@[simp] theorem setRaw_now (s : State) (c i b : Nat) (v : Bool) (p q : List Nat) : (s.setRaw c i b v p q).now = s.now := by
  unfold State.setRaw State.setEvtRaw; split <;> split <;> simp [State.hw]
@[simp] theorem setRaw_frac (s : State) (c i b : Nat) (v : Bool) (p q : List Nat) : (s.setRaw c i b v p q).frac = s.frac := by
  unfold State.setRaw State.setEvtRaw; split <;> split <;> simp [State.hw]
@[simp] theorem setRaw_ct (s : State) (c i b : Nat) (v : Bool) (p q : List Nat) : (s.setRaw c i b v p q).ct = s.ct := by
  unfold State.setRaw State.setEvtRaw; split <;> split <;> simp [State.hw]
@[simp] theorem setRaw_up (s : State) (c i b : Nat) (v : Bool) (p q : List Nat) : (s.setRaw c i b v p q).up = s.up := by
  unfold State.setRaw State.setEvtRaw; split <;> split <;> simp [State.hw]
@[simp] theorem setRaw_upBase (s : State) (c i b : Nat) (v : Bool) (p q : List Nat) : (s.setRaw c i b v p q).upBase = s.upBase := by
  unfold State.setRaw State.setEvtRaw; split <;> split <;> simp [State.hw]
@[simp] theorem setRaw_opBase (s : State) (c i b : Nat) (v : Bool) (p q : List Nat) : (s.setRaw c i b v p q).opBase = s.opBase := by
  unfold State.setRaw State.setEvtRaw; split <;> split <;> simp [State.hw]
@[simp] theorem setRaw_pages (s : State) (c i b : Nat) (v : Bool) (p q : List Nat) : (s.setRaw c i b v p q).pages = s.pages := by
  unfold State.setRaw State.setEvtRaw; split <;> split <;> simp [State.hw]
@[simp] theorem setRaw_resp (s : State) (c i b : Nat) (v : Bool) (p q : List Nat) : (s.setRaw c i b v p q).resp = s.resp := by
  unfold State.setRaw State.setEvtRaw; split <;> split <;> simp [State.hw]
@[simp] theorem setRaw_aonQ (s : State) (c i b : Nat) (v : Bool) (p q : List Nat) : (s.setRaw c i b v p q).aonQ = s.aonQ := by
  unfold State.setRaw State.setEvtRaw; split <;> split <;> simp [State.hw]
@[simp] theorem setRaw_aonRegs (s : State) (c i b : Nat) (v : Bool) (p q : List Nat) : (s.setRaw c i b v p q).aonRegs = s.aonRegs := by
  unfold State.setRaw State.setEvtRaw; split <;> split <;> simp [State.hw]
@[simp] theorem setRaw_solver (s : State) (c i b : Nat) (v : Bool) (p q : List Nat) : (s.setRaw c i b v p q).solver = s.solver := by
  unfold State.setRaw State.setEvtRaw; split <;> split <;> simp [State.hw]
@[simp] theorem setRaw_general (s : State) (c i b : Nat) (v : Bool) (p q : List Nat) : (s.setRaw c i b v p q).general = s.general := by
  unfold State.setRaw State.setEvtRaw; split <;> split <;> simp [State.hw]
@[simp] theorem setRaw_fuses (s : State) (c i b : Nat) (v : Bool) (p q : List Nat) : (s.setRaw c i b v p q).fuses = s.fuses := by
  unfold State.setRaw State.setEvtRaw; split <;> split <;> simp [State.hw]
@[simp] theorem setRaw_loopMem (s : State) (c i b : Nat) (v : Bool) (p q : List Nat) : (s.setRaw c i b v p q).loopMem = s.loopMem := by
  unfold State.setRaw State.setEvtRaw; split <;> split <;> simp [State.hw]
@[simp] theorem setRaw_rcMem (s : State) (c i b : Nat) (v : Bool) (p q : List Nat) : (s.setRaw c i b v p q).rcMem = s.rcMem := by
  unfold State.setRaw State.setEvtRaw; split <;> split <;> simp [State.hw]
@[simp] theorem setRaw_progMem (s : State) (c i b : Nat) (v : Bool) (p q : List Nat) : (s.setRaw c i b v p q).progMem = s.progMem := by
  unfold State.setRaw State.setEvtRaw; split <;> split <;> simp [State.hw]
@[simp] theorem setRaw_dataMem (s : State) (c i b : Nat) (v : Bool) (p q : List Nat) : (s.setRaw c i b v p q).dataMem = s.dataMem := by
  unfold State.setRaw State.setEvtRaw; split <;> split <;> simp [State.hw]
@[simp] theorem setRaw_retMem (s : State) (c i b : Nat) (v : Bool) (p q : List Nat) : (s.setRaw c i b v p q).retMem = s.retMem := by
  unfold State.setRaw State.setEvtRaw; split <;> split <;> simp [State.hw]
@[simp] theorem setRaw_inImg (s : State) (c i b : Nat) (v : Bool) (p q : List Nat) : (s.setRaw c i b v p q).inImg = s.inImg := by
  unfold State.setRaw State.setEvtRaw; split <;> split <;> simp [State.hw]
@[simp] theorem setRaw_outImg (s : State) (c i b : Nat) (v : Bool) (p q : List Nat) : (s.setRaw c i b v p q).outImg = s.outImg := by
  unfold State.setRaw State.setEvtRaw; split <;> split <;> simp [State.hw]
@[simp] theorem setRaw_dsq (s : State) (c i b : Nat) (v : Bool) (p q : List Nat) : (s.setRaw c i b v p q).dsq = s.dsq := by
  unfold State.setRaw State.setEvtRaw; split <;> split <;> simp [State.hw]
@[simp] theorem setRaw_ho (s : State) (c i b : Nat) (v : Bool) (p q : List Nat) : (s.setRaw c i b v p q).ho = s.ho := by
  unfold State.setRaw State.setEvtRaw; split <;> split <;> simp [State.hw]
@[simp] theorem setRaw_clusters (s : State) (c i b : Nat) (v : Bool) (p q : List Nat) : (s.setRaw c i b v p q).clusters = s.clusters := by
  unfold State.setRaw State.setEvtRaw; split <;> split <;> simp [State.hw]
@[simp] theorem setRaw_loops (s : State) (c i b : Nat) (v : Bool) (p q : List Nat) : (s.setRaw c i b v p q).loops = s.loops := by
  unfold State.setRaw State.setEvtRaw; split <;> split <;> simp [State.hw]
@[simp] theorem setRaw_sd (s : State) (c i b : Nat) (v : Bool) (p q : List Nat) : (s.setRaw c i b v p q).sd = s.sd := by
  unfold State.setRaw State.setEvtRaw; split <;> split <;> simp [State.hw]
@[simp] theorem setRaw_sar (s : State) (c i b : Nat) (v : Bool) (p q : List Nat) : (s.setRaw c i b v p q).sar = s.sar := by
  unfold State.setRaw State.setEvtRaw; split <;> split <;> simp [State.hw]
@[simp] theorem setRaw_pulse (s : State) (c i b : Nat) (v : Bool) (p q : List Nat) : (s.setRaw c i b v p q).pulse = s.pulse := by
  unfold State.setRaw State.setEvtRaw; split <;> split <;> simp [State.hw]
@[simp] theorem setRaw_pwm (s : State) (c i b : Nat) (v : Bool) (p q : List Nat) : (s.setRaw c i b v p q).pwm = s.pwm := by
  unfold State.setRaw State.setEvtRaw; split <;> split <;> simp [State.hw]
@[simp] theorem setRaw_tripPins (s : State) (c i b : Nat) (v : Bool) (p q : List Nat) : (s.setRaw c i b v p q).tripPins = s.tripPins := by
  unfold State.setRaw State.setEvtRaw; split <;> split <;> simp [State.hw]
@[simp] theorem setRaw_engines (s : State) (c i b : Nat) (v : Bool) (p q : List Nat) : (s.setRaw c i b v p q).engines = s.engines := by
  unfold State.setRaw State.setEvtRaw; split <;> split <;> simp [State.hw]
@[simp] theorem setRaw_forces (s : State) (c i b : Nat) (v : Bool) (p q : List Nat) : (s.setRaw c i b v p q).forces = s.forces := by
  unfold State.setRaw State.setEvtRaw; split <;> split <;> simp [State.hw]
@[simp] theorem setRaw_sources (s : State) (c i b : Nat) (v : Bool) (p q : List Nat) : (s.setRaw c i b v p q).sources = s.sources := by
  unfold State.setRaw State.setEvtRaw; split <;> split <;> simp [State.hw]
@[simp] theorem setRaw_lastClaim (s : State) (c i b : Nat) (v : Bool) (p q : List Nat) : (s.setRaw c i b v p q).lastClaim = s.lastClaim := by
  unfold State.setRaw State.setEvtRaw; split <;> split <;> simp [State.hw]
@[simp] theorem setRaw_queues (s : State) (c i b : Nat) (v : Bool) (p q : List Nat) : (s.setRaw c i b v p q).queues = s.queues := by
  unfold State.setRaw State.setEvtRaw; split <;> split <;> simp [State.hw]
@[simp] theorem setRaw_tmk (s : State) (c i b : Nat) (v : Bool) (p q : List Nat) : (s.setRaw c i b v p q).tmk = s.tmk := by
  unfold State.setRaw State.setEvtRaw; split <;> split <;> simp [State.hw]
@[simp] theorem setRaw_rtc (s : State) (c i b : Nat) (v : Bool) (p q : List Nat) : (s.setRaw c i b v p q).rtc = s.rtc := by
  unfold State.setRaw State.setEvtRaw; split <;> split <;> simp [State.hw]
@[simp] theorem setRaw_can (s : State) (c i b : Nat) (v : Bool) (p q : List Nat) : (s.setRaw c i b v p q).can = s.can := by
  unfold State.setRaw State.setEvtRaw; split <;> split <;> simp [State.hw]
@[simp] theorem setRaw_ser (s : State) (c i b : Nat) (v : Bool) (p q : List Nat) : (s.setRaw c i b v p q).ser = s.ser := by
  unfold State.setRaw State.setEvtRaw; split <;> split <;> simp [State.hw]
@[simp] theorem setRaw_esw (s : State) (c i b : Nat) (v : Bool) (p q : List Nat) : (s.setRaw c i b v p q).esw = s.esw := by
  unfold State.setRaw State.setEvtRaw; split <;> split <;> simp [State.hw]
@[simp] theorem setRaw_sxe (s : State) (c i b : Nat) (v : Bool) (p q : List Nat) : (s.setRaw c i b v p q).sxe = s.sxe := by
  unfold State.setRaw State.setEvtRaw; split <;> split <;> simp [State.hw]
@[simp] theorem setRaw_stations (s : State) (c i b : Nat) (v : Bool) (p q : List Nat) : (s.setRaw c i b v p q).stations = s.stations := by
  unfold State.setRaw State.setEvtRaw; split <;> split <;> simp [State.hw]
@[simp] theorem setRaw_axes (s : State) (c i b : Nat) (v : Bool) (p q : List Nat) : (s.setRaw c i b v p q).axes = s.axes := by
  unfold State.setRaw State.setEvtRaw; split <;> split <;> simp [State.hw]
@[simp] theorem setRaw_groups (s : State) (c i b : Nat) (v : Bool) (p q : List Nat) : (s.setRaw c i b v p q).groups = s.groups := by
  unfold State.setRaw State.setEvtRaw; split <;> split <;> simp [State.hw]
@[simp] theorem setRaw_dch (s : State) (c i b : Nat) (v : Bool) (p q : List Nat) : (s.setRaw c i b v p q).dch = s.dch := by
  unfold State.setRaw State.setEvtRaw; split <;> split <;> simp [State.hw]
@[simp] theorem setRaw_sec (s : State) (c i b : Nat) (v : Bool) (p q : List Nat) : (s.setRaw c i b v p q).sec = s.sec := by
  unfold State.setRaw State.setEvtRaw; split <;> split <;> simp [State.hw]
@[simp] theorem setRaw_pwr (s : State) (c i b : Nat) (v : Bool) (p q : List Nat) : (s.setRaw c i b v p q).pwr = s.pwr := by
  unfold State.setRaw State.setEvtRaw; split <;> split <;> simp [State.hw]
@[simp] theorem canX_setRaw (s : State) (c i b : Nat) (v : Bool) (p q : List Nat) (m : Nat) : (s.setRaw c i b v p q).canX m = s.canX m := by simp [State.canX]
@[simp] theorem serX_setRaw (s : State) (c i b : Nat) (v : Bool) (p q : List Nat) (m : Nat) : (s.setRaw c i b v p q).serX m = s.serX m := by simp [State.serX]
@[simp] theorem src_setRaw (s : State) (c i b : Nat) (v : Bool) (p q : List Nat) (m : Nat) : (s.setRaw c i b v p q).src m = s.src m := by simp [State.src]
@[simp] theorem axis_setRaw (s : State) (c i b : Nat) (v : Bool) (p q : List Nat) (m : Nat) : (s.setRaw c i b v p q).axis m = s.axis m := by simp [State.axis]
@[simp] theorem stn_setRaw (s : State) (c i b : Nat) (v : Bool) (p q : List Nat) (m : Nat) : (s.setRaw c i b v p q).stn m = s.stn m := by simp [State.stn]
@[simp] theorem cluster_setRaw (s : State) (c i b : Nat) (v : Bool) (p q : List Nat) (m : Nat) : (s.setRaw c i b v p q).cluster m = s.cluster m := by simp [State.cluster]
@[simp] theorem loop_setRaw (s : State) (c i b : Nat) (v : Bool) (p q : List Nat) (m : Nat) : (s.setRaw c i b v p q).loop m = s.loop m := by simp [State.loop]

end Sys2Proof.Laws
end

