-- ==== Sys2Proof/Laws/Logic.lean ====
section
/-! SUPPORT. Laws of the logic engines: the running bank, the end of an instruction, operands that are read (R250 to R256). -/

namespace Sys2Proof.Laws

open Sys2Proof Sys2Proof.Machine

/-- What an engine's record is after a record has been replaced. -/
theorem eng_setEng (s : State) (e d : Nat) (x : EngineX) : (s.setEng e x).eng d = if d = e then x else s.eng d := by
  simp [State.eng, State.setEng, sget_sset]

@[simp] theorem keepK_eng (s u : State) (d : Nat) : (s.keepK u).eng d = u.eng d := rfl
@[simp] theorem keepK_bank (s u : State) (d : Nat) : (s.keepK u).bank d = u.bank d := rfl
@[simp] theorem keepK_level (s u : State) (d : Nat) : (s.keepK u).level d = u.level d := rfl
@[simp] theorem keepK_dword (s u : State) (w : Nat) : (s.keepK u).dword w = u.dword w := rfl
@[simp] theorem keepK_rword (s u : State) (w : Nat) : (s.keepK u).rword w = u.rword w := rfl

/-- A replaced bank changes its engine only. -/
theorem setBank_only (s : State) (e : Fin 4) (b : Bank) : EngineOnly e s (s.setBank e b) := by
  refine ⟨rfl, rfl, rfl, rfl, rfl, rfl, rfl, rfl, rfl, rfl, fun d h => ?_⟩
  have : (d : Nat) ≠ e := fun h' => h (Fin.ext h')
  simp [State.setBank, State.setBankAt, eng_setEng, this]

theorem engineOnly_refl (e : Fin 4) (s : State) : EngineOnly e s s :=
  ⟨rfl, rfl, rfl, rfl, rfl, rfl, rfl, rfl, rfl, rfl, fun _ _ => rfl⟩

theorem engineOnly_trans {e : Fin 4} {s u x : State} (h : EngineOnly e s u) (k : EngineOnly e u x) : EngineOnly e s x := by
  obtain ⟨h1, h2, h3, h4, h5, h6, h7, h8, h9, ha, hb⟩ := h
  obtain ⟨k1, k2, k3, k4, k5, k6, k7, k8, k9, ka, kb⟩ := k
  exact ⟨k1.trans h1, k2.trans h2, k3.trans h3, k4.trans h4, k5.trans h5, k6.trans h6, k7.trans h7, k8.trans h8, k9.trans h9,
    ka.trans ha, fun d hd => (kb d hd).trans (hb d hd)⟩

/-- The beginning of an instruction leaves the running bank. -/
@[simp] theorem bank_begin (s : State) (e : Nat) : (s.begin e).bank e = s.bank e := by
  simp [State.begin, State.bank, State.level]

@[simp] theorem level_begin (s : State) (e : Nat) : (s.begin e).level e = s.level e := by
  simp [State.begin, State.level]

theorem begin_only (s : State) (e : Fin 4) : EngineOnly e s (s.begin e) := by
  refine ⟨rfl, rfl, rfl, rfl, rfl, rfl, rfl, rfl, rfl, rfl, fun d h => ?_⟩
  have : (d : Nat) ≠ e := fun h' => h (Fin.ext h')
  simp [State.begin, eng_setEng, this]

theorem keepK_only {e : Fin 4} {s u x : State} (h : EngineOnly e s x) : EngineOnly e s (u.keepK x) := h

/-- An instruction of a form that a load accepts, on a running island. -/
theorem ins_on {s : State} {op : Nat} {am : AM} {a : BitVec 22} (h : formOk op am a = true) (k : s.islandOn .logic = true) (e : Fin 4)
    (f : State → State) : s.ins op e am a f = .next (s.keepK (f (s.begin e))) := by
  simp only [State.ins, h, if_true, State.answerK, inside_on k]

/-- An instruction without an operand address, on a running island. -/
theorem plain_on {s : State} (k : s.islandOn .logic = true) (e : Fin 4) (f : State → State) :
    s.plain e f = .next (s.keepK (f (s.begin e))) := by
  simp only [State.plain, State.answerK, inside_on k]

/-- The end of an instruction: the running bank, the program counter moved on, and nothing else. -/
theorem fin_ends (u s : State) (e : Fin 4) (f : Bank → Bank) (h : (f (s.bank e)).pc = (s.bank e).pc) :
    Ends e (f (s.bank e)) s (u.keepK (s.fin e f)) := by
  refine ⟨?_, keepK_only (setBank_only _ _ _)⟩
  simp [State.fin, h]

/-- An instruction without an operand: it begins and ends. -/
theorem plain_ends (s : State) (e : Fin 4) (f : Bank → Bank) (h : (f (s.bank e)).pc = (s.bank e).pc) :
    Ends e (f (s.bank e)) s (s.keepK ((s.begin e).fin e f)) := by
  have := fin_ends s (s.begin e) e f (by simpa using h)
  refine ⟨by simpa using this.1, engineOnly_trans (begin_only s e) this.2⟩

/-- What an instruction does that reads a bit of the engine's own island. -/
theorem bitIns_local {s u : State} {e : Fin 4} {am : AM} {a : BitVec 22} {v : Bool} (h : BitOperand s e am a u v) (i : Instr)
    (f : Bank → Bool → Bank) : (s.begin e).bitIns e i am a none f = u.fin e fun b => f b v := by
  obtain ⟨s1, p, h1, h2, h3⟩ := h
  simp [State.bitIns, h1, h2, h3]

/-- What an instruction does that reads a word of the engine's own island, or a constant. -/
theorem wordIns_local {s u : State} {e : Fin 4} {am : AM} {a : BitVec 22} {w : Word} (h : WordOperand s e am a u w) (i : Instr)
    (f : Bank → Word → Bank) : (s.begin e).wordIns e i am a none f = u.fin e fun b => f b w := by
  rcases h with ⟨h1, rfl, rfl⟩ | ⟨h0, s1, p, h1, h2, h3⟩
  · simp [State.wordIns, h1]
  · simp [State.wordIns, h0, h1, h2, h3]

@[simp] theorem bank_raise (s : State) (c i b : Nat) (p q : List Nat) (e : Nat) : (s.raise c i b p q).bank e = s.bank e := by
  simp [State.bank, State.level, State.eng]

@[simp] theorem level_raise (s : State) (c i b : Nat) (p q : List Nat) (e : Nat) : (s.raise c i b p q).level e = s.level e := by
  simp [State.level, State.eng]

@[simp] theorem eng_raise (s : State) (c i b : Nat) (p q : List Nat) (e : Nat) : (s.raise c i b p q).eng e = s.eng e := by
  simp [State.eng]

@[simp] theorem bank_w (s : State) (f : Fld) (v i j e : Nat) : (s.w f v i j).bank e = s.bank e := rfl
@[simp] theorem level_w (s : State) (f : Fld) (v i j e : Nat) : (s.w f v i j).level e = s.level e := rfl
@[simp] theorem dword_w (s : State) (f : Fld) (v i j w : Nat) : (s.w f v i j).dword w = s.dword w := rfl
@[simp] theorem rword_w (s : State) (f : Fld) (v i j w : Nat) : (s.w f v i j).rword w = s.rword w := rfl
@[simp] theorem dword_setEng (s : State) (e : Nat) (x : EngineX) (w : Nat) : (s.setEng e x).dword w = s.dword w := rfl
@[simp] theorem rword_setEng (s : State) (e : Nat) (x : EngineX) (w : Nat) : (s.setEng e x).rword w = s.rword w := rfl
@[simp] theorem dword_setBank (s : State) (e : Nat) (b : Bank) (w : Nat) : (s.setBank e b).dword w = s.dword w := rfl
@[simp] theorem rword_setBank (s : State) (e : Nat) (b : Bank) (w : Nat) : (s.setBank e b).rword w = s.rword w := rfl
@[simp] theorem dword_raise (s : State) (c i b : Nat) (p q : List Nat) (w : Nat) : (s.raise c i b p q).dword w = s.dword w := by
  simp [State.dword]
@[simp] theorem rword_raise (s : State) (c i b : Nat) (p q : List Nat) (w : Nat) : (s.raise c i b p q).rword w = s.rword w := by
  simp [State.rword]

@[simp] theorem dataMem_setBank (s : State) (e : Nat) (b : Bank) : (s.setBank e b).dataMem = s.dataMem := rfl
@[simp] theorem retMem_setBank (s : State) (e : Nat) (b : Bank) : (s.setBank e b).retMem = s.retMem := rfl
@[simp] theorem regs_setBank (s : State) (e : Nat) (b : Bank) : (s.setBank e b).regs = s.regs := rfl
@[simp] theorem r_setBank (s : State) (e : Nat) (b : Bank) (f : Fld) (i j : Nat) : (s.setBank e b).r f i j = s.r f i j := rfl
@[simp] theorem home_setBank (s : State) (e d : Nat) (b : Bank) : (s.setBank e b).home d = s.home d := rfl

/-- A data word after a data word has been written. -/
theorem dword_setDword (s : State) (w k : Nat) (v : Word) : (s.setDword w v).dword k = if k = w then v else s.dword k := by
  simp [State.dword, State.setDword, sget_sset]

/-- A retentive word after a retentive word has been written. -/
theorem rword_setRword (s : State) (w k : Nat) (v : Word) : (s.setRword w v).rword k = if k = w then v else s.rword k := by
  simp [State.rword, State.setRword, sget_sset]

/-- The output image after the running bank has been replaced. -/
@[simp] theorem qImg_setBank (s : State) (e : Nat) (b : Bank) : ((s.setBank e b).eng e).qImg = (s.eng e).qImg := by
  simp [State.setBank, State.setBankAt]

/-! ### What an operand's read and a write leave of the running bank -/

/-- The running bank of `u` is that of `s` but for STATUS, the latch of TB_NS and the mark of an R write, and its level is the same. -/
def SameRun (e : Nat) (s u : State) : Prop :=
  u.level e = s.level e ∧ ∃ st n w, u.bank e = { s.bank e with status := st, nsLatch := n, wroteR := w }

theorem sameRun_refl (e : Nat) (s : State) : SameRun e s s := ⟨rfl, _, _, _, rfl⟩

theorem sameRun_trans {e : Nat} {s u x : State} (h : SameRun e s u) (k : SameRun e u x) : SameRun e s x := by
  obtain ⟨h1, a, b, c, h2⟩ := h
  obtain ⟨k1, a', b', c', k2⟩ := k
  exact ⟨k1.trans h1, a', b', c', by rw [k2, h2]⟩

theorem sameRun_of_bank {e : Nat} {s u : State} (h : u.level e = s.level e) (k : u.bank e = s.bank e) : SameRun e s u :=
  ⟨h, _, _, _, k⟩

theorem sameRun_status (e : Nat) (s : State) (st : BitVec 5) : SameRun e s (s.setBank e { s.bank e with status := st }) :=
  ⟨by simp, st, (s.bank e).nsLatch, (s.bank e).wroteR, by simp⟩

/-- A data or retentive word is read: STATUS may take MEM_ERR. -/
theorem dataRead_run (s : State) (e area w : Nat) : SameRun e s (s.dataRead e area w).1 := by
  unfold State.dataRead
  split
  · exact sameRun_trans (sameRun_status e s ((s.bank e).status ||| 16#5)) (sameRun_of_bank (by simp) (by simp))
  · exact sameRun_refl e s

/-- An operand's address is found. -/
theorem operand_run (s : State) (e : Nat) (c : OpClass) (am : AM) (a : BitVec 22) : SameRun e s (s.operand e c am a).1 := by
  cases am
  case ind => exact dataRead_run s e _ _
  all_goals exact sameRun_refl e s

/-- A bit of the areas that a bit store reaches is read. -/
theorem readBitAt_run (s : State) (e : Nat) (p : Nat × Nat) (h : p.1 = 1 ∨ p.1 = 3 ∨ p.1 = 4 ∨ p.1 = 5) :
    SameRun e s (s.readBitAt e p).1 := by
  obtain ⟨area, i⟩ := p
  rcases h with h | h | h | h <;> cases h
  · exact sameRun_refl e s
  · exact sameRun_refl e s
  · exact dataRead_run s e _ _
  · exact dataRead_run s e _ _

/-- An error of the program is counted: the bank keeps all but STATUS. -/
theorem progErr_run (s : State) (e : Nat) (f : Fld) (flag : Option (Fin 5)) (code : Nat) : SameRun e s (s.progErr e f flag code) := by
  cases flag with
  | none => exact sameRun_of_bank (by simp [State.progErr, State.inc]) (by simp [State.progErr, State.inc])
  | some i => exact sameRun_trans (sameRun_status e s ((s.bank e).status ||| (1#5 <<< i.val))) (sameRun_of_bank (by simp [State.progErr, State.inc]) (by simp [State.progErr, State.inc]))

/-- An error of the program leaves the memories, and the output image. -/
theorem progErr_mem (s : State) (e : Nat) (f : Fld) (flag : Option (Fin 5)) (code : Nat) :
    (s.progErr e f flag code).dataMem = s.dataMem ∧ (s.progErr e f flag code).retMem = s.retMem ∧
    ((s.progErr e f flag code).eng e).qImg = (s.eng e).qImg := by
  cases flag <;> simp [State.progErr, State.inc]

theorem pinWrite_run (s : State) (e mask v : Nat) : SameRun e s (s.pinWrite e mask v) ∧ (s.pinWrite e mask v).dataMem = s.dataMem ∧
    (s.pinWrite e mask v).retMem = s.retMem ∧ ((s.pinWrite e mask v).eng e).qImg = (s.eng e).qImg := by
  have hd : SameRun e s (s.drive (s.home e) mask v) ∧ (s.drive (s.home e) mask v).dataMem = s.dataMem ∧
    (s.drive (s.home e) mask v).retMem = s.retMem ∧ ((s.drive (s.home e) mask v).eng e).qImg = (s.eng e).qImg := by
    unfold State.drive
    split
    · exact ⟨sameRun_refl e s, rfl, rfl, rfl⟩
    · exact ⟨sameRun_of_bank rfl rfl, rfl, rfl, rfl⟩
  unfold State.pinWrite
  simp only
  split
  · obtain ⟨a, b, c, d⟩ := hd
    obtain ⟨x, y, z⟩ := progErr_mem (s.drive (s.home e) mask v) e LGE.WIN_ERRS (some 3) 2
    exact ⟨sameRun_trans a (progErr_run _ _ _ _ _), x.trans b, y.trans c, z.trans d⟩
  · exact hd

theorem dword_eq {s u : State} (h : u.dataMem = s.dataMem) (w : Nat) : u.dword w = s.dword w := by simp [State.dword, h]
theorem rword_eq {s u : State} (h : u.retMem = s.retMem) (w : Nat) : u.rword w = s.rword w := by simp [State.rword, h]

/-- A write of the output image leaves the running bank but for STATUS, and the memories, and gives the image its bits. -/
theorem imageWrite_run (s : State) (e mask v : Nat) : SameRun e s (s.imageWrite e mask v) ∧
    (s.imageWrite e mask v).dataMem = s.dataMem ∧ (s.imageWrite e mask v).retMem = s.retMem ∧
    ((s.imageWrite e mask v).eng e).qImg =
      ((s.eng e).qImg &&& ~~~ (BitVec.ofNat 64 mask &&& ~~~ (BitVec.ofNat 64 (s.foreignPins (s.home e))))) |||
      (BitVec.ofNat 64 v &&& (BitVec.ofNat 64 mask &&& ~~~ (BitVec.ofNat 64 (s.foreignPins (s.home e))))) := by
  have hd : ∀ q : BitVec 64, SameRun e s (s.setEng e { s.eng e with qImg := q }) := fun q =>
    sameRun_of_bank (by simp [State.level]) (by simp [State.bank, State.level])
  unfold State.imageWrite
  simp only
  split
  · obtain ⟨x, y, z⟩ := progErr_mem (s.setEng e { s.eng e with qImg := ((s.eng e).qImg &&& ~~~ (BitVec.ofNat 64 mask &&& ~~~ (BitVec.ofNat 64 (s.foreignPins (s.home e))))) |||
      (BitVec.ofNat 64 v &&& (BitVec.ofNat 64 mask &&& ~~~ (BitVec.ofNat 64 (s.foreignPins (s.home e))))) }) e LGE.WIN_ERRS (some 3) 2
    refine ⟨sameRun_trans (hd _) (progErr_run _ _ _ _ _), x, y, ?_⟩
    rw [State.winErr, z]
    simp
  · exact ⟨hd _, rfl, rfl, by simp⟩

/-- One bit put into the output image, but for the outputs `fp` of other engines. -/
theorem image_bit (q : BitVec 64) (fp i j : Nat) (b : Bool) :
    ((q &&& ~~~ (BitVec.ofNat 64 (2 ^ i) &&& ~~~ (BitVec.ofNat 64 fp))) |||
      (BitVec.ofNat 64 (if b = true then 2 ^ i else 0) &&& (BitVec.ofNat 64 (2 ^ i) &&& ~~~ (BitVec.ofNat 64 fp)))).getLsbD j =
    if j = i ∧ j < 64 ∧ fp.testBit j = false then b else q.getLsbD j := by
  have h2 : (BitVec.ofNat 64 (2 ^ i)).getLsbD j = (decide (j < 64) && decide (i = j)) := by
    rw [BitVec.getLsbD_ofNat, Nat.testBit_two_pow]
  have h3 : (BitVec.ofNat 64 (if b = true then 2 ^ i else 0)).getLsbD j = (b && (decide (j < 64) && decide (i = j))) := by
    cases b <;> simp only [if_true, if_false, Bool.false_eq_true, h2, Bool.true_and, Bool.false_and] <;> simp
  simp only [BitVec.getLsbD_or, BitVec.getLsbD_and, BitVec.getLsbD_not, h2, h3, BitVec.getLsbD_ofNat]
  by_cases hj : j < 64
  · by_cases hi : i = j
    · subst hi
      cases b <;> cases fp.testBit i <;> simp [hj]
    · have hi' : j ≠ i := fun h => hi h.symm
      simp [hj, hi, hi']
  · simp [hj, BitVec.getLsbD_of_ge q j (by omega)]

theorem writeBit_spec (s : State) (e : Fin 4) (p : Nat × Nat) (b : Bool) (h : p.1 = 1 ∨ p.1 = 3 ∨ p.1 = 4 ∨ p.1 = 5)  :
    SameRun e s (s.writeBitAt e p b) ∧ BitStored e p (some b) s (s.writeBitAt e p b) := by
  obtain ⟨area, i⟩ := p
  rcases h with h | h | h | h <;> cases h
  · obtain ⟨a, b', c, d⟩ := imageWrite_run s e (2 ^ i) (if b then 2 ^ i else 0)
    refine ⟨a, fun w => ?_, fun w => ?_, fun j => ?_⟩
    · simp [State.writeBitAt, dword_eq b']
    · simp [State.writeBitAt, rword_eq c]
    · simp only [State.writeBitAt, d, true_and]
      exact image_bit _ _ _ _ _
  · obtain ⟨a, b', c, d⟩ := pinWrite_run s e (2 ^ i) (if b then 2 ^ i else 0)
    refine ⟨a, fun w => ?_, fun w => ?_, ?_⟩
    · simp [State.writeBitAt, dword_eq b']
    · simp [State.writeBitAt, rword_eq c]
    · simp [State.writeBitAt, d]
  · simp only [State.writeBitAt, State.writeAt, BitStored]
    split
    · rename_i hc
      simp only [Bool.and_eq_true, Bool.not_eq_true'] at hc
      refine ⟨sameRun_of_bank rfl rfl, fun w => ?_, fun w => ?_, ?_⟩
      · rw [dword_setDword]
        by_cases hw : w = i / 32
        · subst hw; simp [hc]
        · simp [hw]
      · simp; rfl
      · intro j; rfl
    · rename_i hc
      obtain ⟨x, y, z⟩ := progErr_mem s e LGE.WIN_ERRS (some 3) 2
      refine ⟨progErr_run _ _ _ _ _, fun w => ?_, fun w => ?_, ?_⟩
      · rw [show s.winErr e = s.progErr e LGE.WIN_ERRS (some 3) 2 from rfl, dword_eq x]
        simp only [Bool.and_eq_true, Bool.not_eq_true'] at hc
        split
        · rename_i hh; exact absurd ⟨hh.2.1 ▸ hh.2.2.1, hh.2.1 ▸ hh.2.2.2⟩ hc
        · rfl
      · simp [State.winErr, rword_eq y]
      · simp [State.winErr, z]
  · simp only [State.writeBitAt, State.writeAt, BitStored]
    split
    · rename_i hc
      refine ⟨⟨by simp; rfl, (s.bank e).status, (s.bank e).nsLatch, true, by rw [bank_setBank]; rfl⟩, fun w => ?_, fun w => ?_, ?_⟩
      · simp; rfl
      · rw [rword_setBank, rword_setRword]
        by_cases hw : w = i / 32
        · subst hw; simp [hc]
        · simp [hw]
      · intro j; rw [qImg_setBank]; rfl
    · rename_i hc
      obtain ⟨x, y, z⟩ := progErr_mem s e LGE.WIN_ERRS (some 3) 2
      refine ⟨progErr_run _ _ _ _ _, fun w => ?_, fun w => ?_, ?_⟩
      · simp [State.winErr, dword_eq x]
      · rw [show s.winErr e = s.progErr e LGE.WIN_ERRS (some 3) 2 from rfl, rword_eq y]
        split
        · rename_i hh; exact absurd (hh.2.1 ▸ hh.2.2) hc
        · rfl
      · simp [State.winErr, z]

/-- A bit store reaches the areas Q, PQ, D and R only (R249). -/
theorem operand_area {s s1 : State} {e : Nat} {c : OpClass} {am : AM} {a : BitVec 22} {p : Nat × Nat} (hc : c = .bitWrite ∨ c = .tas)
    (h : s.operand e c am a = (s1, some p)) : p.1 = 1 ∨ p.1 = 3 ∨ p.1 = 4 ∨ p.1 = 5 := by
  have ok : ∀ i j, dirOk c i j = true → i = 1 ∨ i = 3 ∨ i = 4 ∨ i = 5 := by
    intro i j
    rcases hc with rfl | rfl <;> simp [dirOk] <;> omega
  have key : ∀ am q, reachable c am q = true → q.1 = 1 ∨ q.1 = 3 ∨ q.1 = 4 ∨ q.1 = 5 := by
    intro am q hq
    unfold reachable at hq
    split at hq
    · rcases hc with rfl | rfl <;> simp at hq
    · split at hq
      · simp only [Bool.and_eq_true] at hq; exact ok _ _ hq.2
      · exact ok _ _ hq
  have fin : ∀ s0 q, (s0, if reachable c am q = true then some q else none) = (s1, some p) → p.1 = 1 ∨ p.1 = 3 ∨ p.1 = 4 ∨ p.1 = 5 := by
    intro s0 q hq
    split at hq
    · cases hq; exact key _ _ ‹_›
    · cases hq
  cases am
  case imm => cases h
  all_goals exact fin _ _ h

/-- A bit store whose address is found: the bit is read, the store acts, and the instruction ends with what `f` makes of the bank. -/
theorem bitStore_spec {s s1 u : State} {e : Fin 4} {c : OpClass} {am : AM} {a : BitVec 22} {p : Nat × Nat} {v : Bool}
    (hc : c = .bitWrite ∨ c = .tas) (h : (s.begin e).operand e c am a = (s1, some p)) (hv : s1.readBitAt e p = (u, v))
    (g : Bank → Bool → Option Bool) (f : Bank → Bool → Bank) (x : State) (hx : x = (s.begin e).bitStore e c am a g f) :
    SameRun e s u ∧ BitStored e p (g (u.bank e) v) u x ∧ (x.bank e).ba = (f (u.bank e) v).ba ∧
    (x.bank e).pc = (u.bank e).pc + 1 := by
  have ha := operand_area hc h
  have r1 : SameRun e s s1 := by
    have := operand_run (s.begin e) e c am a
    rw [h] at this
    exact sameRun_trans (sameRun_of_bank (by simp) (by simp)) this
  have r2 : SameRun e s1 u := by
    have := readBitAt_run s1 e p ha
    rwa [hv] at this
  subst hx
  refine ⟨sameRun_trans r1 r2, ?_⟩
  simp only [State.bitStore, h, hv]
  cases hg : g (u.bank e) v with
  | none =>
    refine ⟨⟨fun w => ?_, fun w => ?_, ?_⟩, ?_, ?_⟩ <;> simp [State.fin]
  | some b =>
    obtain ⟨r3, k1, k2, k3⟩ := writeBit_spec u e p b ha
    refine ⟨⟨fun w => ?_, fun w => ?_, ?_⟩, ?_, ?_⟩
    · simpa [State.fin] using k1 w
    · simpa [State.fin] using k2 w
    · simpa [State.fin] using k3
    · simp [State.fin]
    · obtain ⟨-, _, _, _, r3⟩ := r3
      simp [State.fin, r3]

/-! ### Timer and counter records (R259, R260) -/

/-- A timer record stands as written as written; PRESET keeps its word. -/
theorem timer_setTimer (s : State) (t : Nat) (x : TimerRec) (hb : x.base < 4) (he : x.elapsed < 2 ^ 32) (hm : x.mark < 2 ^ 32) :
    (s.setTimer t x).timerHeld t = { x with preset := (s.timerHeld t).preset } := by
  obtain ⟨base, im, ru, q, pr, el, mk⟩ := x
  have e0 : (s.setTimer t ⟨base, im, ru, q, pr, el, mk⟩).dword (timerWord t 0) = BitVec.ofNat 32 (base + 2 ^ 8 * im.toNat + 2 ^ 9 * ru.toNat + 2 ^ 10 * q.toNat) := by
    simp [State.setTimer, dword_setDword, timerWord]
  have e1 : (s.setTimer t ⟨base, im, ru, q, pr, el, mk⟩).dword (timerWord t 1) = s.dword (timerWord t 1) := by
    simp [State.setTimer, dword_setDword, timerWord]
  have e2 : (s.setTimer t ⟨base, im, ru, q, pr, el, mk⟩).dword (timerWord t 2) = BitVec.ofNat 32 el := by
    simp [State.setTimer, dword_setDword, timerWord]
  have e3 : (s.setTimer t ⟨base, im, ru, q, pr, el, mk⟩).dword (timerWord t 3) = BitVec.ofNat 32 mk := by
    simp [State.setTimer, dword_setDword, timerWord]
  simp only [State.timerHeld, e0, e1, e2, e3]
  simp only at hb he hm
  have k2 : (BitVec.ofNat 32 el).toNat = el := by simp; omega
  have k3 : (BitVec.ofNat 32 mk).toNat = mk := by simp; omega
  rw [k2, k3]
  interval_cases base <;> cases im <;> cases ru <;> cases q <;> rfl

/-- A timer record that is written leaves every other word. -/
theorem setTimer_only (s : State) (t : Nat) (x : TimerRec) : RecordOnly (timerWord t 0) s (s.setTimer t x) := by
  intro w h
  simp only [timerWord] at h
  simp only [State.setTimer, dword_setDword, timerWord]
  rw [if_neg (by omega), if_neg (by omega), if_neg (by omega)]

/-- A timer or counter instruction on a number in the window. -/
theorem numbered_spec {s u : State} {e : Fin 4} {c : OpClass} {am : AM} {a : BitVec 22} {rd : List Nat} {n : Nat}
    (h : Numbered s e c am a rd u n) (f : State → Nat → State × Bool) :
    (s.begin e).numbered e c am a rd f = (f u n).1.fin e fun b => { b with ba := (f u n).2 } := by
  obtain ⟨s1, p, h1, rfl, h2, rfl⟩ := h
  simp only [State.numbered, h1, h2, if_true]

@[simp] theorem dword_fin (s : State) (e : Nat) (f : Bank → Bank) (w : Nat) : (s.fin e f).dword w = s.dword w := rfl
@[simp] theorem timer_fin (s : State) (e : Nat) (f : Bank → Bank) (t : Nat) : (s.fin e f).timer t = s.timer t := rfl
@[simp] theorem timerHeld_fin (s : State) (e : Nat) (f : Bank → Bank) (t : Nat) : (s.fin e f).timerHeld t = s.timerHeld t := rfl
@[simp] theorem timerHeld_keepK (s u : State) (t : Nat) : (s.keepK u).timerHeld t = u.timerHeld t := rfl
@[simp] theorem timer_keepK (s u : State) (t : Nat) : (s.keepK u).timer t = u.timer t := rfl

end Sys2Proof.Laws
end

