-- ==== Sys2Proof/Machine/Pins.lean ====
section
/-! DEFINITION. Balls and pins: which signal stands at which ball (R10, R551 to R554), and what State shows at the single-ended pins (R233, R238, R291, R322, R392, R406, R487, R555). No command reads a ball or a pin level through this file; it says what the block's outputs are in a state. -/

namespace Sys2Proof.Machine

/-- The signals of the package (R553). A differential signal has a half: 0 _DP, 1 _DN. -/
inductive Sig where
  | ethTx (port half : Nat)
  | ethRx (port half : Nat)
  /-- `down` 0 the UP port, 1 the DOWN port. -/
  | dchTx (down lane half : Nat)
  | dchRx (down lane half : Nat)
  | sdRefclk (half : Nat)
  | sdRcal
  | pcieTx (port lane half : Nat)
  | pcieRx (port lane half : Nat)
  | pcieRefclk (port half : Nat)
  | pciePerstN (port : Nat)
  | canTx (ch : Nat)
  | canRx (ch : Nat)
  | serTx (ch : Nat)
  | serRx (ch : Nat)
  | serDe (ch : Nat)
  | gio (n : Nat)
  | sdDat (ch : Nat)
  | sdClk (g : Nat)
  | pulseIn (n : Nat)
  | pwm (o : Nat)
  | tripN (n : Nat)
  | mpgStep (a : Nat)
  | mpgDir (a : Nat)
  | mpgEnN (a : Nat)
  | mpgDok (a : Nat)
  | mpgLimp (a : Nat)
  | mpgLimn (a : Nat)
  | mpgHome (a : Nat)
  | adcIn (n : Nat)
  | adcVref
  | refclk25
  | gnssPps
  | todRx
  | tsIn (n : Nat)
  | tsOut (n : Nat)
  | porstN
  | sysrstN
  | outEnN
  | mramCsN (d : Nat)
  | mramSck (d : Nat)
  | mramDqs (d : Nat)
  | mramDq (d n : Nat)
  | tck
  | tms
  | tdi
  | tdo
  | trstN
  | rtcWake (n : Nat)
  | xtal32In
  | xtal32Out
  | pwron
  deriving DecidableEq, Repr

/-- The supplies of the package (R552). -/
inductive Supply where
  | vss
  | vddCore
  | vddSram
  | vddSd
  | vdda
  /-- an I/O bank. -/
  | vddio (bank : Nat)
  | vbak
  deriving DecidableEq, Repr

/-- What a ball carries (R551). -/
inductive BallUse where
  | supply (p : Supply)
  | signal (g : Sig)
  deriving DecidableEq, Repr

/-- The regions of the grid (R551). -/
inductive Region where
  | north
  | south
  | west
  | east
  | ring
  | core
  deriving DecidableEq, Repr

/-- The letters of the rows, in order from the corner A1 (R10). -/
def rowNames : List String :=
  [ "A", "B", "C", "D", "E", "F", "G", "H", "J", "K", "L", "M", "N",
    "P", "T", "U", "V", "W", "Y", "AA", "AB", "AC", "AD", "AE", "AF", "AG" ]

/-- The region of a ball; rows count from 0 for A, columns from 1 (R551). -/
def regionOf (row col : Nat) : Region :=
  if row ≤ 3 then .north
  else if 22 ≤ row then .south
  else if col ≤ 4 then .west
  else if 22 ≤ col then .east
  else if 8 ≤ row ∧ row ≤ 17 ∧ 7 ≤ col ∧ col ≤ 19 then .core
  else .ring

/-- A ball, given by the letters of its row and its column, is one of a list. -/
def isBall (row col : Nat) (l : List (String × Nat)) : Bool := l.contains (rowNames.getD row "", col)

/-- A ball's column is one of a list, and its row has the given letters. -/
def rowHas (row col : Nat) (name : String) (l : List Nat) : Bool := rowNames.getD row "" == name && l.contains col

/-- The supply of a ball in the north or the south region, none where a signal stands there (R552). -/
def edgeSupply (row col : Nat) : Option Supply :=
  if isBall row col [("A", 1), ("A", 26)] || (row == 2 && col % 2 == 1) then some .vss
  else if rowHas row col "D" [3, 7, 11, 15, 19, 23] || rowHas row col "AD" [4, 9, 14, 19] then some .vddSd
  else if isBall row col [("AE", 1), ("AE", 26), ("AG", 1), ("AG", 26)] then some .vss
  else if rowHas row col "AG" [13, 14] then some (.vddio 4)
  else none

/-- The supply of a ball in the west, the east or the ring region (R552). -/
def sideSupply (row col : Nat) : Option Supply :=
  if isBall row col [("F", 3), ("J", 3), ("M", 3), ("T", 3), ("W", 3), ("AB", 3)] then some .vss
  else if isBall row col [("K", 2), ("V", 2)] then some (.vddio 3)
  else if isBall row col [("F", 24), ("H", 24), ("L", 24), ("P", 24), ("U", 24), ("W", 24), ("AA", 24), ("AC", 24)] then some .vss
  else if isBall row col [("K", 25), ("V", 25)] then some (.vddio 1)
  else if isBall row col [("E", 5), ("E", 21), ("M", 5), ("M", 21), ("AC", 5), ("AC", 21)] then some .vss
  else if isBall row col [("G", 13), ("AA", 13)] then some (.vddio 2)
  else none

/-- What a ball of the core region carries beside the sequence of R553: a supply, or one of the fixed signals (R552). -/
def coreFixed (row col : Nat) : Option BallUse :=
  let mid : List Nat := [9, 10, 11, 12, 14, 15, 16, 17]
  let name := rowNames.getD row ""
  if (name == "L" || name == "N" || name == "T") && decide (9 ≤ col ∧ col ≤ 17) then some (.supply .vddCore)
  else if col == 13 && (name == "K" || name == "M" || name == "P" || name == "U" || name == "V") then some (.supply .vddCore)
  else if (name == "M" || name == "P" || name == "U") && mid.contains col then some (.supply .vss)
  else if (name == "K" || name == "V") && [9, 11, 15, 17].contains col then some (.supply .vddSram)
  else if (name == "J" || name == "K") && [7, 8].contains col then some (.supply .vdda)
  else if rowHas row col "W" [7, 8] then some (.supply (.vddio 0))
  else if rowHas row col "W" [18, 19] then some (.supply (.vddio 5))
  else if rowHas row col "P" [7] then some (.supply .vbak)
  else if rowHas row col "L" [7, 8] then some (.signal (.rtcWake (col - 7)))
  else if rowHas row col "M" [7, 8] then some (.signal (.rtcWake (col - 5)))
  else if rowHas row col "N" [7] then some (.signal .xtal32In)
  else if rowHas row col "N" [8] then some (.signal .xtal32Out)
  else if rowHas row col "P" [8] then some (.signal .pwron)
  else none

/-- What R552 fixes at a ball. -/
def ballFixed (row col : Nat) : Option BallUse :=
  match regionOf row col with
  | .north => (edgeSupply row col).map .supply
  | .south => (edgeSupply row col).map .supply
  | .west => (sideSupply row col).map .supply
  | .east => (sideSupply row col).map .supply
  | .ring => (sideSupply row col).map .supply
  | .core => coreFixed row col

/-- One signal for each of 0 to n − 1. -/
def busOf (n : Nat) (f : Nat → Sig) : List Sig := (List.range n).map f

/-- The two halves of a differential pair, _DP then _DN (R553). -/
def pairOf (f : Nat → Sig) : List Sig := busOf 2 f

/-- The signals of a region in the order in which they take its free balls (R553). -/
def signalsOf : Region → List Sig
  | .north =>
    (List.range 12).flatMap (fun p => pairOf (.ethTx p) ++ pairOf (.ethRx p)) ++
    (List.range 2).flatMap (fun d => (List.range 4).flatMap fun l => pairOf (.dchTx d l) ++ pairOf (.dchRx d l)) ++
    pairOf .sdRefclk ++ [.sdRcal]
  | .south =>
    (List.range 2).flatMap (fun p =>
      (List.range 4).flatMap (fun l => pairOf (.pcieTx p l) ++ pairOf (.pcieRx p l)) ++ pairOf (.pcieRefclk p) ++ [.pciePerstN p]) ++
    (List.range 16).flatMap (fun c => [.canTx c, .canRx c]) ++
    (List.range 8).flatMap (fun c => [.serTx c, .serRx c, .serDe c])
  | .west => busOf 64 .gio
  | .east => busOf 32 .sdDat ++ busOf 4 .sdClk ++ busOf 16 .pulseIn ++ busOf 24 .pwm ++ busOf 4 .tripN
  | .ring => (List.range 24).flatMap fun a => [.mpgStep a, .mpgDir a, .mpgEnN a, .mpgDok a, .mpgLimp a, .mpgLimn a, .mpgHome a]
  | .core =>
    busOf 8 .adcIn ++ [.adcVref, .refclk25, .gnssPps, .todRx] ++ busOf 4 .tsIn ++ busOf 4 .tsOut ++ [.porstN, .sysrstN, .outEnN] ++
    (List.range 2).flatMap (fun d => [.mramCsN d, .mramSck d, .mramDqs d] ++ busOf 8 (.mramDq d)) ++
    [.tck, .tms, .tdi, .tdo, .trstN]

/-- The free balls of a region that stand before a ball in row-major order (R553). -/
def freeBefore (g : Region) (row col : Nat) : Nat :=
  ((List.range 26).flatMap fun r => (List.range 26).map fun c => (r, c + 1)).countP fun b =>
    (decide (b.1 < row) || (b.1 == row && decide (b.2 < col))) && regionOf b.1 b.2 == g && (ballFixed b.1 b.2).isNone

/-- What a ball carries: row 0 to 25 for A to AG, column 1 to 26 (R551 to R553). -/
def ballUse (row col : Nat) : Option BallUse :=
  if 26 ≤ row ∨ col = 0 ∨ 26 < col then none
  else
    match ballFixed row col with
    | some u => some u
    | none => ((signalsOf (regionOf row col))[freeBefore (regionOf row col) row col]?).map .signal

/-- The supply of a single-ended signal's bank; the pins of the VBAK domain run from the AON switch, shown as VBAK (R554). None for a differential signal. -/
def bankOf : Sig → Option Supply
  | .mramCsN _ | .mramSck _ | .mramDqs _ | .mramDq _ _ | .porstN | .sysrstN | .tck | .tms | .tdi | .tdo | .trstN | .outEnN => some (.vddio 0)
  | .sdDat _ | .sdClk _ | .pulseIn _ | .pwm _ | .tripN _ => some (.vddio 1)
  | .mpgStep _ | .mpgDir _ | .mpgEnN _ | .mpgDok _ | .mpgLimp _ | .mpgLimn _ | .mpgHome _ => some (.vddio 2)
  | .gio _ => some (.vddio 3)
  | .canTx _ | .canRx _ | .serTx _ | .serRx _ | .serDe _ => some (.vddio 4)
  | .refclk25 | .gnssPps | .todRx | .tsIn _ | .tsOut _ => some (.vddio 5)
  | .adcIn _ | .adcVref => some .vdda
  | .rtcWake _ | .pwron | .xtal32In | .xtal32Out => some .vbak
  | .ethTx _ _ | .ethRx _ _ | .dchTx _ _ _ | .dchRx _ _ _ | .sdRefclk _ | .sdRcal | .pcieTx _ _ _ | .pcieRx _ _ _ | .pcieRefclk _ _
  | .pciePerstN _ => none

/-- What the block does at a pin (R555). -/
inductive Drive where
  | low
  | high
  /-- driven by nothing: high impedance, or an open drain released. -/
  | z
  /-- an input with its pull-up of 50 kΩ. -/
  | pullUp
  /-- an input with its pull-down of 50 kΩ. -/
  | pullDown
  /-- an input with no pull. -/
  | input
  /-- driven with what the block sends: a waveform or a frame that State holds as sent, not as a level. -/
  | sent
  deriving DecidableEq, Repr

/-- A level as a drive. -/
def driveOf (b : Bool) : Drive := if b then .high else .low

/-- The level that a code LOW, HIGH or HIZ names (R241). -/
def lvlCode (v : Nat) : Drive :=
  match v with
  | 0 => .low
  | 1 => .high
  | _ => .z

/-- A PWM pin at a tick of its running period, off past its end (R231): IDLE, TRIP_LVL, or the on interval; INVERT comes last (R233, R236, R238). -/
def State.pwmPin (s : State) (o tick : Nat) : Drive :=
  let x := sget {} s.pwm o
  match x.level with
  | 0 => lvlCode (s.r ACT.IDLE 0 o)
  | 1 =>
    let lit := decide (tick < x.period) && x.lit.any (fun i => decide (i.1 ≤ tick) && decide ((tick : Int) < i.2))
    driveOf (lit != s.on ACT.INVERT 0 o)
  | _ => lvlCode (s.r ACT.TRIP_LVL 0 o)

/-- A GIO pin: an input, HIZ as its fail level, or the level that its owner drives, inverted by INVERT (R291). -/
def State.gioPin (s : State) (n : Nat) : Drive :=
  if !s.on GIO.DIR 0 n then .input
  else if s.pinsFail (s.r GIO.OWNER 0 n) && s.r GIO.FAIL_LVL 0 n == 3 then .z
  else driveOf (s.pinLevel n != s.on GIO.INVERT 0 n)

/-- A pin while the device is in reset or in KEEP (R555). PWRON is as R406 gives. -/
def resetPin (s : State) : Sig → Drive
  | .outEnN => .z
  | .pwm _ => .low
  | .mpgStep _ => .low
  | .mpgDir _ => .low
  | .mpgEnN _ => .high
  | .gio _ => .z
  | .canTx _ => .high
  | .serTx _ => .high
  | .serDe _ => .low
  | .sdClk _ => .z
  | .tsOut _ => .low
  | .mramCsN _ => .high
  | .mramSck _ => .low
  | .mramDqs _ => .z
  | .mramDq _ _ => .z
  | .pwron => driveOf (s.on RTC.PWRON_STATE)
  | .tdo => .z
  | .tms => .pullUp
  | .tdi => .pullUp
  | .trstN => .pullDown
  | .ethTx _ _ => .sent
  | .dchTx _ _ _ => .sent
  | .pcieTx _ _ _ => .sent
  | .xtal32Out => .sent
  | .ethRx _ _ | .dchRx _ _ _ | .sdRefclk _ | .sdRcal | .pcieRx _ _ _ | .pcieRefclk _ _ | .pciePerstN _ | .canRx _ | .serRx _
  | .sdDat _ | .pulseIn _ | .tripN _ | .mpgDok _ | .mpgLimp _ | .mpgLimn _ | .mpgHome _ | .adcIn _ | .adcVref | .refclk25 | .gnssPps
  | .todRx | .tsIn _ | .porstN | .sysrstN | .tck | .rtcWake _ | .xtal32In => .input

/-- A pin while its island runs: the level that the block's registers give it, the state "until driven" of R555 before that, or `sent` for a waveform. `tick` is the tick of the present period of a PWM output. -/
def runPin (s : State) (tick : Nat) (g : Sig) : Drive :=
  match g with
  | .outEnN => driveOf (!s.on DCH.OUT_EN)
  | .pwm o => s.pwmPin o tick
  | .mpgStep a => if s.axisOn a then .sent else .low
  | .mpgDir a => driveOf (s.axisOn a && (s.axis a).dirPos != s.on MPG.DIR_INV a)
  | .mpgEnN a => driveOf (!s.axisOn a)
  | .gio n => s.gioPin n
  | .canTx c => if s.r CFD.MODE c = 0 then .high else .sent
  | .serTx c => if s.enabled 25 c && s.r SER.STATE c != 0 then .sent else .high
  | .serDe c => if s.enabled 25 c && s.r SER.STATE c != 0 then .sent else .low
  | .sdClk n => if s.on MFE.DIR 0 n then .input else if s.enabled 19 then .sent else .low
  | .tsOut n => if s.r TMK.OUT_STATE 0 n = 0 then .low else driveOf ((s.outX n).high != s.on TMK.POL 0 n)
  | .mramCsN _ | .mramSck _ | .mramDqs _ | .mramDq _ _ => .sent
  | _ => resetPin s g

/-- A pin while VDD_CORE is off and its bank is up: every output but PWRON is in high impedance (R555, R565). -/
def coreOffPin (s : State) (g : Sig) : Drive :=
  match g with
  | .pwron => resetPin s g
  | _ => match resetPin s g with
    | .input => .input
    | .pullUp => .pullUp
    | .pullDown => .pullDown
    | _ => .z

/-- What a state shows at a pin (R555). -/
def State.pin (s : State) (tick : Nat) (g : Sig) : Drive :=
  if s.pwr.coreLost then coreOffPin s g
  else if s.pwr.inReset ∨ s.pwr.st = .keep then resetPin s g else runPin s tick g

end Sys2Proof.Machine
end

