-- ==== Sys2Proof/Tests/Slice0.lean ====
section
/-! SUPPORT. Tests of the model on small states, and states that meet the hypotheses of every statement. -/

open Sys2Proof Sys2Proof.Machine

namespace Sys2Proof.Tests

set_option Elab.async false

/-- Write register fields: field, instance, repetition, value. -/
def ws (s : State) (l : List (Fld × Nat × Nat × Nat)) : State := l.foldl (fun s x => s.w x.1 x.2.2.2 x.2.1 x.2.2.1) s

/-- Enable pages. -/
def ens (s : State) (l : List (Nat × Nat)) : State := l.foldl (fun s x => s.hw HDR.ENABLE ⟨x.1, x.2⟩ 1) s

/-- Five seconds after reset, with the pages named READY and owned by host 0. -/
def own (l : List Page) : State :=
  l.foldl (fun s pg => (s.hw HDR.READY pg 1).hw HDR.OWNER pg 1) { State.reset with now := 5000000000, up := 7000000000, ct := 3000000000, pwr := { State.reset.pwr with pll := 0x1FF } }

/-- The same with the locks of the pages open. -/
def opened (l : List Page) : State := l.foldl (fun s pg => s.hw HDR.OPEN pg 1) (own l)

namespace PageErrorClears

def B : State := own [⟨4, 0⟩]


/-- States and operands that meet the hypotheses of PageErrorClears. -/
theorem witness :
    (∃ (r : Requester) (pg : Page) (s : State), Takes s r pg) :=
  ⟨.keeper, ⟨4,0⟩, B, by unfold Takes; decide +kernel⟩

end PageErrorClears

namespace PageWrites

def B : State := own [⟨4, 0⟩]


/-- States and operands that meet the hypotheses of PageWrites. -/
theorem witness :
    (∃ (s : State) (r : Requester) (pg : Page), pageExists pg = true ∧ s.reaches r pg = true ∧ s.h HDR.OWNER pg ≠ ownerCode r ∧ r ≠ .keeper) ∧
    (∃ (s : State) (r : Requester) (pg : Page), Takes s r pg) ∧
    (∃ (s : State) (r : Requester) (pg : Page) (b : Bool) (g : Nat), pageExists pg = true ∧ s.reaches r pg = true ∧ s.mayWrite r pg = true ∧
      s.guardOf r pg = some g ∧ (b && s.closed pg) = true) ∧
    (∃ (s : State) (r : Requester) (pg : Page) (b : Bool) (g : Nat), pageExists pg = true ∧ s.reaches r pg = true ∧ s.mayWrite r pg = true ∧
      s.guardOf r pg = some g ∧ (b && s.closed pg) = false ∧ g ≠ s.h HDR.COUNT pg) ∧
    (∃ (s : State) (r : Requester) (pg : Page) (b : Bool) (g : Nat), pageExists pg = true ∧ s.reaches r pg = true ∧ s.mayWrite r pg = true ∧
      s.guardOf r pg = some g ∧ (b && s.closed pg) = false ∧ g = s.h HDR.COUNT pg) :=
  ⟨⟨B.hw HDR.OWNER ⟨4, 0⟩ 0, .host 0, ⟨4,0⟩, by decide +kernel⟩,
   ⟨B.hw HDR.OWNER ⟨4, 0⟩ 0, .keeper, ⟨4,0⟩, by unfold Takes; decide +kernel⟩,
   ⟨(B.setPx ⟨4, 0⟩ { guards := [(1, 5), (8, 0)] }).hw HDR.READY ⟨4, 0⟩ 0, .keeper, ⟨4,0⟩, true, 0, by decide +kernel⟩,
   ⟨B.setPx ⟨4, 0⟩ { guards := [(1, 5), (8, 0)] }, .host 0, ⟨4,0⟩, true, 5, by decide +kernel⟩,
   ⟨B.setPx ⟨4, 0⟩ { guards := [(1, 5), (8, 0)] }, .keeper, ⟨4,0⟩, true, 0, by decide +kernel⟩⟩

end PageWrites

namespace PageOwnership

def B : State := own [⟨4, 0⟩]


/-- States and operands that meet the hypotheses of PageOwnership. -/
theorem witness :
    (∃ (r : Requester) (pg : Page) (s : State), pageExists pg = true ∧ (s.px pg).lockStep = false ∧ s.reaches r pg = true ∧ r ≠ .keeper ∧
      s.h HDR.OWNER pg = 0) ∧
    (∃ (r : Requester) (pg : Page) (s : State), pageExists pg = true ∧ (s.px pg).lockStep = false ∧ s.reaches r pg = true ∧ r ≠ .keeper ∧
      3 < s.h HDR.OWNER pg ∧ s.h HDR.OWNER pg ≠ ownerCode r) ∧
    (∃ (r : Requester) (pg : Page) (s : State) (v : BitVec 4), pageExists pg = true ∧ (s.px pg).lockStep = false ∧ Takes s r pg ∧
      v.toNat ∈ [1, 2, 4, 5, 6, 7, 8] ∧ v.toNat ≠ s.h HDR.OWNER pg) ∧
    (∃ (r : Requester) (pg : Page) (s : State), pageExists pg = true ∧ (s.px pg).lockStep = false ∧ Takes s r pg ∧ s.h HDR.OWNER_PEND pg = 1 ∧
      s.h HDR.PEND_REQ pg < 16 ∧ s.h HDR.PEND_REQ pg ≠ s.h HDR.OWNER pg) ∧
    (∃ (r : Requester) (pg : Page) (s : State), pageExists pg = true ∧ (s.px pg).lockStep = false ∧ Takes s r pg ∧ s.h HDR.OWNER_PEND pg = 0 ∧
      s.h HDR.OWNER pg ≠ 0) ∧
    (∃ (t : Nat) (pg : Page) (s : State), pageExists pg = true ∧ (s.px pg).lockStep = false ∧ s.h HDR.OWNER_PEND pg = 1 ∧ s.h HDR.PEND_REQ pg < 16 ∧
      s.r IFX.OWN_TIMEOUT ≠ 0 ∧ (s.px pg).reqAt + 1000000 * s.r IFX.OWN_TIMEOUT ≤ (s.tick t).up ∧ s.h HDR.PEND_REQ pg ≠ s.h HDR.OWNER pg) :=
  ⟨⟨.host 0, ⟨4,0⟩, B.hw HDR.OWNER ⟨4, 0⟩ 0, by decide +kernel⟩,
   ⟨.host 0, ⟨4,0⟩, B.hw HDR.OWNER ⟨4, 0⟩ 7, by decide +kernel⟩,
   ⟨.keeper, ⟨4,0⟩, B.hw HDR.OWNER ⟨4, 0⟩ 0, 8, by unfold Takes; decide +kernel⟩,
   ⟨.keeper, ⟨4,0⟩, ((B.hw HDR.OWNER ⟨4, 0⟩ 7).hw HDR.OWNER_PEND ⟨4, 0⟩ 1).hw HDR.PEND_REQ ⟨4, 0⟩ 2, by unfold Takes; decide +kernel⟩,
   ⟨.keeper, ⟨4, 0⟩, B, by unfold Takes; decide +kernel⟩,
   ⟨0, ⟨4,0⟩, ((B.hw HDR.OWNER ⟨4, 0⟩ 7).hw HDR.OWNER_PEND ⟨4, 0⟩ 1).hw HDR.PEND_REQ ⟨4, 0⟩ 2, by decide +kernel⟩⟩

end PageOwnership

namespace PageLock

def B : State := own [⟨4, 0⟩]


/-- States and operands that meet the hypotheses of PageLock. -/
theorem witness :
    (∃ (r : Requester) (pg : Page) (s : State) (key : BitVec 16), pageExists pg = true ∧ s.reaches r pg = true ∧ s.mayWrite r pg = true ∧
      s.guardOf r pg = none ∧ (s.px pg).lockStep = false ∧ key ≠ 0x0A5C#16 ∧ key ≠ 0#16) ∧
    (∃ (r : Requester) (pg : Page) (s : State) (key : BitVec 16), pageExists pg = true ∧ s.reaches r pg = true ∧ s.mayWrite r pg = true ∧
      s.guardOf r pg = none ∧ (s.px pg).lockStep = true ∧ key ≠ 0x0C5A#16) :=
  ⟨⟨.keeper, ⟨4,0⟩, B, 0x0C5A#16, by decide +kernel⟩,
   ⟨.keeper, ⟨4,0⟩, B.setPx ⟨4, 0⟩ { lockStep := true }, 0x0A5C#16, by decide +kernel⟩⟩

end PageLock

namespace PageControls

def B : State := own [⟨4, 0⟩]


/-- States and operands that meet the hypotheses of PageControls. -/
theorem witness :
    (∃ (r : Requester) (pg : Page) (s : State) (on : Bool), Takes s r pg ∧ s.enabled pg.code pg.inst ≠ on) ∧
    (∃ (t : Nat) (pg : Page) (s : State), s.h HDR.FROZEN pg = 1 ∧ (s.px pg).freezeAt + 10000000 ≤ (s.tick t).up) ∧
    (∃ (pg : Page) (s : State), (s.px pg).resetting = true) :=
  ⟨⟨.keeper, ⟨4,0⟩, B, true, by unfold Takes; decide +kernel⟩,
   ⟨0, ⟨4,0⟩, (B.hw HDR.FROZEN ⟨4, 0⟩ 1), by decide +kernel⟩,
   ⟨⟨4,0⟩, B.setPx ⟨4, 0⟩ { resetting := true }, by decide +kernel⟩⟩

end PageControls

namespace Accesses

def B : State := own []
def off (i : Island) (s : State) : State := { s with pwr := { s.pwr with pll := s.pwr.pll &&& ~~~(1#9 <<< islandBit i) } }


/-- States and operands that meet the hypotheses of Accesses. -/
theorem witness :
    (∃ (r : Requester) (a : BitVec 32) (s : State), onPage a.toNat = true ∧ s.reaches r (addrPage a.toNat) = false) ∧
    (∃ (a : BitVec 32), reservedAddr a.toNat = true) ∧
    (∃ (r : Requester) (a : BitVec 32) (s : State), onPage a.toNat = true ∧ a.toNat % 4 = 0 ∧ s.reaches r (addrPage a.toNat) = true ∧
      wideRead (addrPage a.toNat) (a.toNat % 4096) = true ∧
      ((s.px (addrPage a.toNat)).latched.find? (fun l => l.req == ownerCode r && l.off == a.toNat % 4096)) = none) ∧
    (∃ (a : BitVec 32) (s : State), inGeneral a.toNat = true ∧ s.islandOn .host = true) ∧
    (∃ (a : BitVec 32) (s : State), inSolver a.toNat = true ∧ a.toNat < s.r DSQ.SOLVER_CAP ∧ s.islandOn .solve = true ∧ a.toNat / 8 * 8 ∉ s.pwr.poison ∧
      (0, a.toNat / 8 * 8) ∉ s.pwr.bad) :=
  ⟨⟨.keeper, 0x0440004C#32, off .keep B, by decide +kernel⟩,
   ⟨0x040F0000#32, by decide +kernel⟩,
   ⟨.keeper, 0x04100048#32, B, by decide +kernel⟩,
   ⟨0x48000004#32, B, by decide +kernel⟩,
   ⟨0x40000000#32, B, by decide +kernel⟩⟩

end Accesses

namespace RegisterClamp

def B : State := own [⟨4, 0⟩]


/-- States and operands that meet the hypotheses of RegisterClamp. -/
theorem witness :
    (∃ (r : Requester) (v : Word) (s : State), Takes s r ⟨4, 0⟩ ∧ v.toNat < 2 ^ 16) :=
  ⟨.keeper, 0#32, B, by unfold Takes; decide +kernel⟩

end RegisterClamp

namespace ResetCauses

def B : State := own [⟨0, 0⟩]
def Bopen : State := opened [⟨0, 0⟩]
def b2 : State := { Bopen with forces := [(1, {on := true, val := 5})], solver := [(0x40000000, 3)], general := [(0x48000000, 3)], dataMem := [(3, 4)], retMem := [(3,4)], fuses := [(1, 255)], pwr := { B.pwr with inReset := true } }


/-- States and operands that meet the hypotheses of ResetCauses. -/
theorem witness :
    (∃ (s : State), s.pwr.st ≠ .keep ∧ s.pwr.st ≠ .off) ∧
    (∃ (s : State), s.pwr.brown = false ∧ s.pwr.st = .run) ∧
    (∃ (s : State) (r : Requester), Opened s r ⟨0, 0⟩) ∧
    (∃ (s : State), s.pwr.inReset = true ∧ s.pwr.st = .run) ∧
    (∃ (s : State), s.islandOn .keep = true ∧ s.pwr.kwTimes = []) :=
  ⟨⟨Bopen, by decide +kernel⟩,
   ⟨Bopen, by decide +kernel⟩,
   ⟨Bopen, .keeper, by unfold Opened Takes; decide +kernel⟩,
   ⟨b2, by decide +kernel⟩,
   ⟨Bopen, by decide +kernel⟩⟩

end ResetCauses

namespace BootSteps

def B : State := own []
def st (k : Nat) (rec : Bool) : State := { B with pwr := { B.pwr with bootStep := k, recovery := rec, bootAt := 7 }, fuses := [(1, 255)] }


/-- States and operands that meet the hypotheses of BootSteps. -/
theorem witness :
    (∃ (s : State), s.pwr.inReset = false ∧ s.pwr.bootStep = 0 ∧ s.pwr.recovery = false) ∧
    (∃ (s : State), s.pwr.inReset = false ∧ s.pwr.bootStep = 4) ∧
    (∃ (s : State), s.pwr.inReset = false ∧ s.pwr.bootStep = 8 ∧ s.pwr.recovery = true) :=
  ⟨⟨st 0 false, by decide +kernel⟩,
   ⟨st 4 false, by decide +kernel⟩,
   ⟨st 8 true, by decide +kernel⟩⟩

end BootSteps

namespace KeepAndWake

def B : State := own [⟨0, 0⟩]
def Bopen : State := opened [⟨0, 0⟩]
def kb : State := { Bopen with rtc := { Bopen.rtc with offUntil := some 7000000000 } }
def k1 : State := { Bopen with pwr := { B.pwr with keepEntry := true }, general := [(0x48000000, 3)], fuses := [(1, 255)] }
def doze : State := { Bopen with pwr := { B.pwr with st := .doze, clk := 0x1FC } }
def keep : State := { Bopen with pwr := { B.pwr with st := .keep, inReset := true }, rtc := { B.rtc with offUntil := some 8000000000 } }
def watch (n : Nat) (v : Nat) (s : State) : State := { s with aonRegs := sset 0 (sset 0 s.aonRegs (NWT.SRC.key 0 n) (BitVec.ofNat 32 v)) (NWT.W_EN.key 0 n) 1 }

/-- States and operands that meet the hypotheses of KeepAndWake. -/
theorem witness :
    (∃ (s : State) (r : Requester), Opened s r ⟨0, 0⟩ ∧ s.pwr.keepEntry = false ∧ s.r DCH.ROLE ≠ 3 ∧ s.r SEC.FW_STATE = 0) ∧
    (∃ (s : State), s.pwr.keepEntry = true ∧ s.pwr.wakeHeld = none) ∧
    (∃ (t : Nat) (s : State) (src : Fin 256) (n : Nat), s.watchSlot src = some n ∧ n < 32 ∧ s.pwr.keepEntry = false ∧ s.rtc.wakeAt ≠ some (s.tick t).up ∧
      s.pwr.st = .doze ∧ ¬ (32 ≤ src.val ∧ src.val ≤ 71)) ∧
    (∃ (t : Nat) (s : State) (src : Fin 256) (n : Nat) (e : Nat), s.watchSlot src = some n ∧ n < 32 ∧ s.pwr.keepEntry = false ∧
      s.rtc.wakeAt ≠ some (s.tick t).up ∧ s.pwr.st = .keep ∧ aonSource src = true ∧ s.rtc.wakeHeld = false ∧ s.rtc.offUntil = some e ∧ (s.tick t).up < e) ∧
    (∃ (t : Nat) (s : State) (e : Nat), s.rtc.offUntil = some e ∧ e ≤ (s.tick t).up ∧ s.rtc.wakeHeld = true) ∧
    (∃ (t : Nat) (s : State) (e : Nat), s.rtc.offUntil = some e ∧ e ≤ (s.tick t).up ∧ s.rtc.wakeHeld = false) :=
  ⟨⟨Bopen, .keeper, by unfold Opened Takes; decide +kernel⟩,
   ⟨k1, by decide +kernel⟩,
   ⟨0, watch 31 10 doze, 10, 31, by decide +kernel⟩,
   ⟨0, watch 0 28 keep, 28, 0, 8000000000, by decide +kernel⟩,
   ⟨0, { kb with rtc := { kb.rtc with wakeHeld := true } }, 7000000000, by decide +kernel⟩,
   ⟨0, kb, 7000000000, by decide +kernel⟩⟩

end KeepAndWake

namespace IslandsPowerAndWear

def B : State := own [⟨0, 0⟩]
def Bopen : State := opened [⟨0, 0⟩]
def doze : State := { Bopen with pwr := { B.pwr with st := .doze, clk := 0x1FC } }
def tt (a b c d : Nat) : State := ws Bopen [(PCR.TEMP,0,0,a),(PCR.TEMP,0,1,b),(PCR.TEMP,0,2,c),(PCR.TEMP,0,3,d),(PST.DEV0_STATE,0,0,1)]
def q (l : List (Nat × Nat × Word)) (v : Word) (s : State) : State := { s with aonQ := (9,0x98,v) :: l }


/-- States and operands that meet the hypotheses of IslandsPowerAndWear. -/
theorem witness :
    (∃ (isl : Island) (s : State), s.pwr.pll.getLsbD (islandBit isl) = true) ∧
    (∃ (s : State) (v : Word) (rest : List (Nat × Nat × Word)), s.aonQ = (9, 0x098, v) :: rest) ∧
    (∃ (s : State) (r : Requester), Opened s r ⟨0, 0⟩ ∧ s.pwr.st = .doze) ∧
    (∃ (s : State), s.islandOn .keep = true ∧ s.mramOk = true) ∧
    (∃ (s : State), Opened s .keeper ⟨0, 0⟩ ∧ s.pwr.st = .run ∧ s.r DCH.ROLE = 0 ∧ s.enabled 16 = false ∧ s.enabled 18 0 = false ∧
      s.enabled 18 1 = false ∧ s.enabled 18 2 = false ∧ s.enabled 18 3 = false) ∧
    (∃ (s : State), s.islandOn .keep = true ∧ s.ri PCR.TEMP 0 0 ≤ 100 ∧ s.ri PCR.TEMP 0 1 = 100 ∧ s.ri PCR.TEMP 0 2 ≤ 100 ∧ s.ri PCR.TEMP 0 3 ≤ 100) :=
  ⟨⟨.solve, Bopen, by decide +kernel⟩,
   ⟨q [] 5 B, 5, [], by decide +kernel⟩,
   ⟨doze, .keeper, by unfold Opened Takes; decide +kernel⟩,
   ⟨ws Bopen [(PST.DEV0_STATE, 0, 0, 1)], by decide +kernel⟩,
   ⟨Bopen, by unfold Opened Takes; decide +kernel⟩,
   ⟨tt 30 100 5 0, by decide +kernel⟩⟩

end IslandsPowerAndWear

namespace PersistentStore

def B : State := own [⟨1, 0⟩, ⟨3, 0⟩]
def Bopen : State := opened [⟨1, 0⟩, ⟨3, 0⟩]
def pd (a b : Nat) : State := ws Bopen [(PST.DEV0_STATE,0,0,a),(PST.DEV1_STATE,0,0,b)]


/-- States and operands that meet the hypotheses of PersistentStore. -/
theorem witness :
    (∃ (s : State), s.r PST.DEV0_STATE = 1 ∧ s.r PST.DEV1_STATE = 1 ∧ s.islandOn .keep = true) ∧
    (∃ (s : State) (r : Requester), s.r PST.DEV0_STATE = 1 ∧ s.r PST.DEV1_STATE = 1 ∧ Opened s r ⟨3, 0⟩) ∧
    (∃ (s : State), s.islandOn .keep = true ∧ s.pwr.fixTimes = []) ∧
    (∃ (s : State) (d : Fin 2) (r : Requester), Opened s r ⟨3, 0⟩ ∧ s.r (devFld d) = 3 ∧ s.r (devFld (1 - d.val)) = 1) ∧
    (∃ (s : State), s.islandOn .keep = true ∧ s.r PST.DEV0_STATE = 4 ∧ s.r SEC.FW_STATE = 0 ∧ s.pwr.chunks < 255) ∧
    (∃ (s : State), s.islandOn .keep = true ∧ s.r PST.DEV0_STATE = 4 ∧ s.r SEC.FW_STATE = 0 ∧ s.pwr.chunks = 255) ∧
    (∃ (s : State) (r : Requester), Takes s r ⟨1, 0⟩) ∧
    (∃ (s : State) (r : Requester), Takes s r ⟨3, 0⟩) :=
  ⟨⟨pd 1 1, by decide +kernel⟩,
   ⟨pd 1 1, .keeper, by unfold Opened Takes; decide +kernel⟩,
   ⟨pd 1 1, by decide +kernel⟩,
   ⟨pd 1 3, 1, .keeper, by unfold Opened Takes; decide +kernel⟩,
   ⟨pd 4 1, by decide +kernel⟩,
   ⟨{ pd 4 1 with pwr := { B.pwr with chunks := 255 } }, by decide +kernel⟩,
   ⟨pd 1 1, .keeper, by unfold Takes; decide +kernel⟩,
   ⟨pd 1 1, .keeper, by unfold Takes; decide +kernel⟩⟩

end PersistentStore

namespace ScrubAndRepair

def B : State := own []
def Bopen : State := opened []
def due (l : List (Nat × Nat × Nat)) : State := { Bopen with pwr := { B.pwr with ce := l } }
def cm : RowMap := { bank := 3, grp := 4, target := 257 }
def ce (b g : Nat) : List (Nat × Nat × Nat) := (List.range 10).map (fun i => (b, g, i % 3))
def pd : State := ws Bopen [(PST.DEV0_STATE,0,0,1),(PST.DEV1_STATE,0,0,1)]


/-- States and operands that meet the hypotheses of ScrubAndRepair. -/
theorem witness :
    (∃ (s : State) (mem : ScrubMem), s.islandOn .keep = true ∧ mem ∈ [ScrubMem.solver, .general, .data, .ret, .image, .ring, .patch]) ∧
    (∃ (t : Nat) (s : State) (bank : Fin 64) (grp : Fin 256) (n : Nat) (rest : List Nat), s.islandOn .keep = true ∧ s.pwr.copying = none ∧
      (s.tick t).groupDue bank grp = true ∧ ((∀ g, g < grp.val → (s.tick t).groupDue bank g = false)) ∧ s.freeSpareGroups bank = n :: rest) ∧
    (∃ (s : State) (m : RowMap), s.islandOn .keep = true ∧ s.pwr.copying = some m ∧ s.mramOk = true ∧ 256 ≤ m.target) :=
  ⟨⟨Bopen, .solver, by decide +kernel⟩,
   ⟨0, due (ce 1 2), 1, 2, 0, ((List.range 16).drop 1), by decide +kernel⟩,
   ⟨{ pd with pwr := { pd.pwr with copying := some cm } }, cm, by decide +kernel⟩⟩

end ScrubAndRepair

namespace SetCommands

def B : State := own [⟨16, 0⟩]
def Bopen : State := opened [⟨16, 0⟩]
def sl (a b : SlotState) (act v : Nat) : State := ws { Bopen with dsq := { Bopen.dsq with slotA := { st := a , setId := 3}, slotB := { st := b } } } [(DSQ.ACTIVE,0,0,act),(DSQ.ACTIVE_VALID,0,0,v)]

/-- States and operands that meet the hypotheses of SetCommands. -/
theorem witness :
    (∃ (r : Requester) (k : Slot) (s : State), Takes s r dsqPage ∧ s.isActive k = false ∧ (s.slotX k).st = .armed) ∧
    (∃ (r : Requester) (k : Slot) (s : State), Takes s r dsqPage ∧ s.isActive k = false ∧ (s.slotX k).st = .checked) ∧
    (∃ (k : Slot) (s : State) (code : Nat) (item : Nat) (off : Nat), s.islandOn .solve = true ∧ (s.slotX k).st = .checking ∧
      checkSet (s.slotBlob k) (s.slotRegion k).2 [s.slotRegion .a, s.slotRegion .b, (s.r DSQ.WORK_BASE, s.r DSQ.WORK_SIZE), (s.r DSQ.RESULT_BASE, s.r DSQ.RESULT_SIZE)] (s.r DSQ.PLAN_PERIOD_US) (s.r DSQ.ACTIVE) (s.r DSQ.SOLVER_CAP) (s.r DSQ.WORK_SIZE) (s.r DSQ.RESULT_SIZE) (s.setSigned k (s.slotBlob k)) = (code,
      item, off) ∧ code < 256) ∧
    (∃ (r : Requester) (s : State) (i : Fin 8) (v : Word), Opened s r dsqPage ∧ s.enabled 16 = false ∧ (regionFld i).rng.take 32 v.toNat = v.toNat) :=
  ⟨⟨.keeper, .b, sl .checked .armed 1 1, by unfold Takes; decide +kernel⟩,
   ⟨.keeper, .a, sl .checked .empty 0 0, by unfold Takes; decide +kernel⟩,
   ⟨.a, sl .checking .empty 0 0, 2, 0, 0, by decide +kernel⟩,
   ⟨.keeper, sl .empty .empty 0 0, 7, 0, by unfold Opened Takes; decide +kernel⟩⟩

end SetCommands

namespace SramWrites

def B : State := own [⟨16, 0⟩]


/-- States and operands that meet the hypotheses of SramWrites. -/
theorem witness :
    (∃ (a : BitVec 32) (s : State), 0x48000000 ≤ a.toNat ∧ a.toNat < 0x49000000 ∧ a.toNat % 4 = 0 ∧ s.islandOn .host = true) ∧
    (∃ (a : BitVec 32) (s : State), a.toNat % 8 = 0 ∧ 0x48000000 ≤ a.toNat ∧ a.toNat < 0x49000000 ∧ s.islandOn .host = true) ∧
    (∃ (p : Fin 2) (a : BitVec 32) (s : State), a.toNat % 8 = 0 ∧ 0x40200000 ≤ a.toNat ∧ a.toNat < 0x44000000 ∧ a.toNat < s.r DSQ.SOLVER_CAP ∧
      s.islandOn .solve = true ∧ s.enabled 16 = false ∧ s.h HDR.OWNER dsqPage = ownerCode (.host p) ∧ s.on DSQ.ACTIVE_VALID = false) :=
  ⟨⟨0x48FFFFFC#32, { B with general := [(0x48000001, 7), (0x48000005, 9)] }, by decide +kernel⟩,
   ⟨0x48FFFFF8#32, { B with general := [(0x48000001, 7), (0x48000005, 9)] }, by decide +kernel⟩,
   ⟨0, 0x40200008#32, { B with general := [(0x48000001, 7), (0x48000005, 9)] }, by decide +kernel⟩⟩

end SramWrites

namespace LaneCare

def B : State := own [⟨16, 0⟩, ⟨17, 0⟩]
def Bopen : State := opened [⟨16, 0⟩, ⟨17, 0⟩]
def ld (f : DsqX → DsqX) (s : State) : State := { s with dsq := f s.dsq }


/-- States and operands that meet the hypotheses of LaneCare. -/
theorem witness :
    (∃ (s : State) (r : Requester) (l : Fin 18), Opened s r ⟨17, l⟩ ∧ s.isWithdrawn l = false ∧ s.r DSA.STATE l ≠ 2) ∧
    (∃ (s : State) (l : Fin 18) (w : Nat × Option Nat × Bool × Nat), s.islandOn .keep = true ∧ s.mramOk = true ∧
      s.dsq.withdrawn.find? (fun w => w.1 == l.val && !w.2.2.1) = some w) ∧
    (∃ (s : State), s.islandOn .solve = true ∧ s.enabled 16 = true) ∧
    (∃ (s : State) (l : Fin 18), s.islandOn .solve = true ∧ s.dsq.testing.contains l.val = true) ∧
    (∃ (s : State) (r : Requester), Takes s r dsqPage) :=
  ⟨⟨Bopen, .keeper, 0, by unfold Opened Takes; decide +kernel⟩,
   ⟨ws (ld (fun d => { d with withdrawn := [(3, some 16, false, 2)] }) Bopen) [(PST.DEV0_STATE, 0, 0, 1)], 3, (3, some 16, false, 2), by decide +kernel⟩,
   ⟨ens Bopen [(16, 0)], by decide +kernel⟩,
   ⟨ld (fun d => { d with withdrawn := [(3, some 16, false, 2)], testing := [0, 17] }) Bopen, 0, by decide +kernel⟩,
   ⟨Bopen, .keeper, by unfold Takes; decide +kernel⟩⟩

end LaneCare

namespace SolveWindows

def B : State := own []
def Bopen : State := opened []
def r0 : RunX := { desc := 2, opened := 5000000000, closes := 5000100000 }
def ld (f : DsqX → DsqX) (s : State) : State := { s with dsq := f s.dsq }
def en : State := ens Bopen [(16,0)]
def win : State := ld (fun d => { d with nextDesc := 2, nextOpen := 5000000000, tk := 5000000000 , liveDone := true}) (ws en [(DSQ.ACTIVE_VALID,0,0,1), (DSQ.ACTIVE,0,0,16), (DSQ.PLAN_PERIOD_US,0,0,100000)])
def win2 : State := { ws win [(DSQ.SET_A_BASE,0,0,0x40200000), (DSQ.SET_A_SIZE,0,0,64)] with solver := [(0x40200010, 200#8)] }


/-- States and operands that meet the hypotheses of SolveWindows. -/
theorem witness :
    (∃ (t : Nat) (s : State), s.islandOn .solve = true ∧ s.enabled 16 = true ∧ (s.tick t).isSnapshotTime = true) ∧
    (∃ (t : Nat) (s : State), s.islandOn .solve = true ∧ s.dsq.nextDesc ≠ 0 ∧ s.enabled 16 = true ∧ s.on DSQ.ACTIVE_VALID = true ∧ s.dsq.liveDone = true ∧
      s.dsq.withdrawn = [] ∧ s.r DSQ.ACTIVE ≠ 0 ∧ 0 < s.setBlob.budget s.dsq.nextDesc ∧ s.dsq.nextOpen ≤ (s.tick t).now ∧
      s.dsq.nextOpen < s.dsq.tk + 1000 * s.r DSQ.PLAN_PERIOD_US - 10000) ∧
    (∃ (s : State) (r : RunX) (l : Fin 18) (st : Fin 257) (blk : Nat) (res : BlockResult), s.islandOn .solve = true ∧ s.dsq.run = some r ∧
      r.finished = false ∧ r.phase = .r ∧ r.redo = [] ∧ s.holdsBlock r l blk = true ∧ res ≠ .memError ∧ s.blockOk r st res = true) ∧
    (∃ (s : State) (r : RunX) (l : Fin 18) (st : Fin 257) (blk : Nat) (res : BlockResult), s.islandOn .solve = true ∧ s.dsq.run = some r ∧
      r.finished = false ∧ r.phase = .r ∧ r.redo = [] ∧ s.holdsBlock r l blk = true ∧ res ≠ .memError ∧ s.blockOk r st res = false) ∧
    (∃ (s : State) (r : RunX) (l : Fin 18) (blk : Nat), s.islandOn .solve = true ∧ s.dsq.run = some r ∧ r.finished = false ∧ r.phase = .r ∧ r.redo = [] ∧
      s.holdsBlock r l blk = true ∧ r.desc = 1) ∧
    (∃ (s : State) (r : RunX), s.islandOn .solve = true ∧ s.dsq.run = some r ∧ r.finished = false ∧ r.boundary = false) ∧
    (∃ (s : State) (r : RunX), s.islandOn .solve = true ∧ s.dsq.run = some r ∧ r.finished = false ∧ r.svuRetry = false) ∧
    (∃ (t : Nat) (s : State) (r : RunX), s.islandOn .solve = true ∧ s.dsq.run = some r ∧ r.finished = false ∧ r.phase = .setup ∧ r.iter = 0 ∧
      (s.tick t).deadlineAt r ≤ (s.tick t).now) ∧
    (∃ (t : Nat) (s : State) (r : RunX), s.islandOn .solve = true ∧ s.dsq.run = some r ∧ r.finished = true ∧ r.desc = 2 ∧ r.closes ≤ (s.tick t).now) :=
  ⟨⟨0, win2, by decide +kernel⟩,
   ⟨0, win2, by decide +kernel⟩,
   ⟨ld (fun d => { d with run := some { r0 with phase := .r } }) en, { r0 with phase := .r }, 0, 0, 0, .product [], by decide +kernel⟩,
   ⟨ld (fun d => { d with run := some { r0 with phase := .r } }) en, { r0 with phase := .r }, 0, 0, 0, .product [⟨[], [1]⟩], by decide +kernel⟩,
   ⟨ld (fun d => { d with run := some { r0 with phase := .r, desc := 1 } }) en, { r0 with phase := .r, desc := 1 }, 0, 0, by decide +kernel⟩,
   ⟨ld (fun d => { d with run := some r0 }) en, r0, by decide +kernel⟩,
   ⟨ld (fun d => { d with run := some r0 }) en, r0, by decide +kernel⟩,
   ⟨9000000000, ld (fun d => { d with run := some r0 }) en, r0, by decide +kernel⟩,
   ⟨9000000000, ld (fun d => { d with run := some { r0 with finished := true } }) en, { r0 with finished := true }, by decide +kernel⟩⟩

end SolveWindows

namespace TripsAndTable

def B : State := own [⟨16, 0⟩]


/-- States and operands that meet the hypotheses of TripsAndTable. -/
theorem witness :
    (∃ (t : Nat) (s : State), s.islandOn .solve = true ∧ (s.tick t).onSeries 10 0 = true) ∧
    (∃ (r : Requester) (s : State), Takes s r dsqPage ∧ s.bankInUse (s.r DSQ.BANK) = false ∧ s.r DSQ.INDEX < 1024) :=
  ⟨⟨0, B, by decide +kernel⟩,
   ⟨.keeper, B, by unfold Takes; decide +kernel⟩⟩

end TripsAndTable

namespace PlanInForce

def B : State := own []
def p0 : PlanX := { dur := [1000, 1000], nz := 2, z := [[1,2],[3,4],[5,6]], setId := 77, scale := [(3,1)], start := 5000000000 , seq := 5}
def p1 : PlanX := { p0 with src := 3, grade := 0 }
def ho (f : HoX → HoX) (s : State) : State := { s with ho := f s.ho }
def base : State := ws (ens B [(16,0)]) [(DSQ.MODE,0,0,1),(DSQ.ACTIVE_VALID,0,0,1),(DSQ.RES_VALID,0,0,0x3FF),(DSQ.PLAN_PERIOD_US,0,0,1000000), (DSQ.PERIOD_SEQ,0,0,6), (DSQ.CONT_AGE,0,0,10)]
def d0 (k : Nat) (s : State) : State := { s with dsq := { s.dsq with tk := 5000000000, applyOff := k } }
def hb0 (g : Nat) : State := ho (fun h => { h with tag := [(0,77)], inForce := some p0, published := some (5000000000, 0, g), stagedPlan := some p0 }) base
def hb (g : Nat) : State := d0 200 { hb0 g with now := 5000200000 }
def hx : State := d0 900 { ho (fun h => { h with values := [] }) (ws (hb0 0) [(DSQ.STAGE,0,0,1)]) with now := 5000200000 }


/-- States and operands that meet the hypotheses of PlanInForce. -/
theorem witness :
    (∃ (t : Nat) (s : State) (i : Nat) (st : Nat) (g : Nat) (p : PlanX) (bank : Nat), s.follows = false ∧ s.islandOn .solve = true ∧
      (s.tick t).isApply = true ∧ s.ho.pause = false ∧ s.ho.paused = false ∧ s.ho.published = some (i, st, g) ∧ s.ho.stagedPlan = some p ∧
      s.on DSQ.ACTIVE_VALID = true ∧ i + 100000 ≤ (s.tick t).now ∧ s.gradeOk g = true ∧ s.bankOf p.setId = some bank ∧ s.r DSQ.MODE ≠ 0 ∧
      s.heldBack p = false ∧ p.src = 0) ∧
    (∃ (t : Nat) (s : State) (i : Nat) (st : Nat) (g : Nat) (p : PlanX), s.follows = false ∧ s.islandOn .solve = true ∧ (s.tick t).isApply = true ∧
      s.ho.pause = false ∧ s.ho.paused = false ∧ s.ho.published = some (i, st, g) ∧ s.ho.stagedPlan = some p ∧ s.on DSQ.ACTIVE_VALID = true ∧
      i + 100000 ≤ (s.tick t).now ∧ s.gradeOk g = false ∧ s.r DSQ.MODE = 0) ∧
    (∃ (t : Nat) (s : State) (p : PlanX) (bank : Nat), s.follows = false ∧ s.islandOn .solve = true ∧ s.r DSQ.MODE ≠ 0 ∧ (s.tick t).isApply = false ∧
      (s.tick t).contIsDue = false ∧ (s.tick t).stageOver = true ∧ s.ho.inForce = some p ∧ planDone p (s.tick t).now = false ∧ s.bankOf p.setId = some bank) ∧
    (∃ (t : Nat) (s : State) (i : Nat) (d : Nat) (part : Bool) (p : PlanX) (bank : Nat), s.follows = false ∧ s.islandOn .solve = true ∧
      s.ho.selected = some (i, d, part) ∧ s.ho.selPlan = some p ∧ d ≤ (s.tick t).now ∧ s.r DSQ.MODE ≠ 0 ∧ (s.tick t).isApply = false ∧
      (s.tick t).usable (s.tick t).now p = true ∧ s.bankOf p.setId = some bank ∧ p.src ≠ 0) ∧
    (∃ (t : Nat) (s : State) (edge : Nat), s.follows = false ∧ s.islandOn .solve = true ∧ (s.tick t).nextInstant = some edge) ∧
    (∃ (t : Nat) (s : State) (p : PlanX) (bank : Nat) (edge : Nat), s.follows = false ∧ s.islandOn .solve = true ∧ s.enabled 16 = false ∧
      s.ho.selected = none ∧ s.ho.inForce = some p ∧ s.r DSQ.MODE ≠ 0 ∧ edge = planEnd p (planStage p (s.tick t).now) ∧ (s.tick t).now < edge ∧
      planDone p edge = false ∧ planStage p edge ≠ s.r DSQ.STAGE ∧ s.bankOf p.setId = some bank) ∧
    (∃ (t : Nat) (s : State), s.follows = false ∧ s.islandOn .solve = true ∧ (s.tick t).nextInstant = none) :=
  ⟨⟨0, hb 0, 5000000000, 0, 0, p0, 0, by decide +kernel⟩,
   ⟨0, ws (hb 1) [(DSQ.MODE, 0, 0, 0), (DSQ.ACCEPT_AMBER, 0, 0, 0)], 5000000000, 0, 1, p0, by decide +kernel⟩,
   ⟨6000000000, hb 0, p0, 0, by decide +kernel⟩,
   ⟨6000000000, ho (fun h => { h with selected := some (1, 5000000000, true), selPlan := some p1, published := none }) (hb 0), 1, 5000000000, true, p1,
     0, by decide +kernel⟩,
   ⟨0, hb 0, 6000000000, by decide +kernel⟩,
   ⟨0,
     { ho (fun h => { h with selected := none }) (ws hx [(DSQ.STAGE, 0, 0, 0)]) with regs := ((ws hx [(DSQ.STAGE, 0, 0, 0)]).hw HDR.ENABLE ⟨16, 0⟩ 0).regs },
     p0, 0, 6000000000, by decide +kernel⟩,
   ⟨0, ho (fun h => { h with inForce := none, published := none }) B, by decide +kernel⟩⟩

end PlanInForce

namespace LoopUpdates

def B : State := own []
def j0 : UpdJob := { slot := 3, t := 5000000000, pv := 5 }
def outs : List (Nat × Int) := [(5000000000, 7), (5000000000, -2147483648)]
def cl (x : ClusterX) (s : State) : State := { s with clusters := [(0, x), (1, x), (3, x)] }
def base : State := { ens B [(18,0),(18,1),(18,3)] with loopMem := [(0,1),(64*3,1),(64*128,2),(64*130,1),(64*130+5, 77), (64*131,1), (64*511,1)] }


/-- States and operands that meet the hypotheses of LoopUpdates. -/
theorem witness :
    (∃ (t : Nat) (s : State) (g : Fin 512), s.islandOn .loop = true ∧ (s.tick t).sampleDue g = true ∧ s.on CLE.PENDING (g.val / 128) = false ∧
      (s.cluster (g.val / 128)).tune.apply = none ∧ (s.loop g).clearReq = false ∧
      (s.cluster (g.val / 128)).queue.any (fun j => j.slot == g.val % 128) = false ∧ s.enabled 18 (g.val / 128) = true ∧ s.follows = false ∧
      cfgMode (s.lw g 0) ≠ 0 ∧ s.loopBit g 13 = false) ∧
    (∃ (s : State) (c : Fin 4) (j : UpdJob) (rest : List UpdJob), s.islandOn .loop = true ∧ (s.cluster c).running = none ∧
      (s.cluster c).queue = j :: rest) ∧
    (∃ (s : State) (c : Fin 4) (j : UpdJob), s.islandOn .loop = true ∧ (s.cluster c).running = some j ∧ j.slot < 128) ∧
    (∃ (t : Nat) (s : State) (g : Fin 512) (o : Nat × Int) (rest : List (Nat × Int)), s.islandOn .loop = true ∧ (s.loop g).outs = o :: rest ∧
      o.1 ≤ (s.tick t).now ∧ -(2 ^ 31) ≤ o.2 ∧ o.2 < 2 ^ 31) :=
  ⟨⟨0, base, 0, by decide +kernel⟩,
   ⟨cl { queue := [j0] } base, 0, j0, [], by decide +kernel⟩,
   ⟨cl { running := some j0 } base, 0, j0, by decide +kernel⟩,
   ⟨0, { base with loops := [(3, { outs := outs })] }, 3, (5000000000, 7), (outs.drop 1), by decide +kernel⟩⟩

end LoopUpdates

namespace LoopConfiguration

def B : State := own [⟨18, 0⟩]
def cl (x : ClusterX) (s : State) : State := { s with clusters := [(0, x), (1, x), (3, x)] }
def base : State := { ens B [(18,0),(18,1),(18,3)] with loopMem := [(0,1),(64*3,1),(64*128,2),(64*130,1),(64*130+5, 77), (64*131,1), (64*511,1)] }
def good : List (Nat × Word) := [(0, 1)]


/-- States and operands that meet the hypotheses of LoopConfiguration. -/
theorem witness :
    (∃ (r : Requester) (c : Fin 4) (s : State), Takes s r ⟨18, c⟩ ∧ s.on CLE.PENDING c = false ∧ s.commitCause c (s.r CLE.LOOP_SEL c) = 0 ∧
      (s.cluster c).tune.running = false ∧ cfgMode (s.staged c 0) ≠ 0) ∧
    (∃ (c : Fin 4) (s : State), s.islandOn .loop = true ∧ (s.cluster c).worstRun = true) :=
  ⟨⟨.keeper, 0, cl { stage := good } base, by unfold Takes; decide +kernel⟩,
   ⟨0, cl { worstRun := true } base, by decide +kernel⟩⟩

end LoopConfiguration

namespace Tuning

def B : State := own [⟨18, 0⟩]
def cl (x : ClusterX) (s : State) : State := { s with clusters := [(0, x), (1, x), (2,x), (3, x)] }
def base : State := { ens B [(18,0),(18,1),(18,3)] with loopMem := [(0,1),(64*3,1),(64*128,2),(64*130,1),(64*130+5, 77), (64*131,1), (64*511,1)] }
def tst : State := ws base [(CLE.STATE,0,0,2),(CLE.STATE,1,0,2)]


/-- States and operands that meet the hypotheses of Tuning. -/
theorem witness :
    (∃ (r : Requester) (c : Fin 4) (s : State), Takes s r ⟨18, c⟩ ∧ (s.cluster c).tune.running = false ∧
      cfgMode (s.lw (128 * c.val + s.r CLE.TUNE_LOOP c) 0) ≠ 0 ∧ s.loopBit (128 * c.val + s.r CLE.TUNE_LOOP c) 3 = false) ∧
    (∃ (r : Requester) (c : Fin 4) (s : State), Takes s r ⟨18, c⟩ ∧ (s.cluster c).tune.running = true) ∧
    (∃ (r : Requester) (c : Fin 4) (s : State), Takes s r ⟨18, c⟩ ∧ s.r CLE.STATE c = 2 ∧
      ((s.on CLE.PENDING c = false ∨ s.r CLE.LOOP_SEL c ≠ s.r CLE.TUNE_LOOP c))) ∧
    (∃ (t : Nat) (c : Fin 4) (s : State), s.islandOn .loop = true ∧ (s.cluster c).tune.running = true ∧
      (s.cluster c).tune.lastSwitch + 1000000000 * s.r CLE.TIMEOUT_S c ≤ (s.tick t).now) :=
  ⟨⟨.keeper, 0, base, by unfold Takes; decide +kernel⟩,
   ⟨.keeper, 0, cl { tune := { running := true } } base, by unfold Takes; decide +kernel⟩,
   ⟨.keeper, 0, tst, by unfold Takes; decide +kernel⟩,
   ⟨0, 0, ws (cl { tune := { running := true } } base) [(CLE.TIMEOUT_S, 0, 0, 5)], by decide +kernel⟩⟩

end Tuning

namespace LogicFlow

def B : State := own []
def img : ImageX := { tasks := [{ kind := .periodic, prio := 3, entry := 7, periodUs := 1000 }, { kind := .cyclic, entry := 9 }, { kind := .event, source := 40, entry := 12, prio := 4 }], words := 64, codeWords := 40 }
def mk (f : EngineX → EngineX) : State :=
  ws { B with dataMem := (List.range 20).map (fun k => (k, BitVec.ofNat 32 (k + 3))),
              engines := [(0, f { image := img, banks := [(0, { ba := true, acc1 := 7, acc2 := 2, pc := 5 }), (3, { pc := 9, task := some 0 })], cur := some 0 })] }
    [(LGE.DWIN_HI, 0, 0, 0x3FFFF), (LGE.RWIN_HI, 0, 0, 100), (LGE.TWIN_HI, 0, 0, 4095), (LGE.CWIN_HI, 0, 0, 2047), (LGE.RUN_STATE, 0, 0, 2)]


/-- States and operands that meet the hypotheses of LogicFlow. -/
theorem witness :
    (∃ (e : Fin 4) (s : State) (pc : Nat) (rest : List Nat), let b := s.bank e; s.islandOn .logic = true ∧ b.calls = pc :: rest) ∧
    (∃ (e : Fin 4) (s : State), let b := s.bank e; s.islandOn .logic = true ∧ ((∀ i, b.task = some i → (s.task e i).kind = .periodic)) ∧
      (s.eng e).frozen = [] ∧ (s.eng e).waiting = [] ∧ s.on EIC.OFFER_VALID 0 e = false ∧ s.r LGE.CHG_STATE (s.home e) ≠ 5) :=
  ⟨⟨0, mk (fun e => { e with banks := [(0, { pc := 5, calls := [4, 5] })] }), 4, [5], by decide +kernel⟩,
   ⟨0, mk id, by decide +kernel⟩⟩

end LogicFlow

namespace LogicTasks

def B : State := own []
def img : ImageX := { tasks := [{ kind := .periodic, prio := 3, entry := 7, periodUs := 1000 }, { kind := .cyclic, entry := 9 }, { kind := .event, source := 40, entry := 12, prio := 4 }], words := 64, codeWords := 40 }
def mk (f : EngineX → EngineX) : State :=
  ws { B with dataMem := (List.range 20).map (fun k => (k, BitVec.ofNat 32 (k + 3))),
              engines := [(0, f { image := img, banks := [(0, { ba := true, acc1 := 7, acc2 := 2, pc := 5 }), (3, { pc := 9, task := some 0 })], cur := some 0 })] }
    [(LGE.DWIN_HI, 0, 0, 0x3FFFF), (LGE.RWIN_HI, 0, 0, 100), (LGE.TWIN_HI, 0, 0, 4095), (LGE.CWIN_HI, 0, 0, 2047), (LGE.RUN_STATE, 0, 0, 2)]
def clean : State := ens (mk (fun e => { e with cur := none })) [(21, 0)]
def offer (s : State) : State := ws s [(EIC.OFFER_VALID, 0, 0, 1), (EIC.OFFER, 0, 0, 40), (EIC.PRIO, 0, 40, 5)]


/-- States and operands that meet the hypotheses of LogicTasks. -/
theorem witness :
    (∃ (t : Nat) (e : Fin 4) (s : State) (task : Nat), (s.eng e).hostedBy = none ∧ s.islandOn .logic = true ∧ s.engineRuns e = true ∧
      (s.task e task).kind = .periodic ∧ task < (s.prog e).tasks.length ∧ (s.tick t).onSeries (s.task e task).periodUs (s.task e task).phaseUs = true ∧
      sget none (s.eng e).released task ≠ some (s.tick t).now ∧ (s.eng e).cur = none ∧ (s.eng e).frozen = [] ∧ (s.eng e).waiting = []) ∧
    (∃ (t : Nat) (e : Fin 4) (s : State) (task : Nat) (since : Nat), (s.eng e).hostedBy = none ∧ s.islandOn .logic = true ∧ s.engineRuns e = true ∧
      (s.task e task).kind = .periodic ∧ task < (s.prog e).tasks.length ∧ (s.tick t).onSeries (s.task e task).periodUs (s.task e task).phaseUs = true ∧
      sget none (s.eng e).released task ≠ some (s.tick t).now ∧ (s.eng e).waiting = [(task, since)]) ∧
    (∃ (t : Nat) (e : Fin 4) (s : State) (i : Nat), (s.eng e).hostedBy = none ∧ s.islandOn .logic = true ∧ s.engineRuns e = true ∧ (s.eng e).cur = none ∧
      (s.eng e).frozen = [] ∧ (s.eng e).waiting = [] ∧ (s.tick t).cycleDue e = true ∧
      (List.range (s.prog e).tasks.length).find? (fun i => ((s.prog e).tasks.getD i {}).kind == .cyclic) = some i) ∧
    (∃ (e : Fin 4) (s : State) (i : Nat), (s.eng e).hostedBy = none ∧ s.islandOn .logic = true ∧ s.engineRuns e = true ∧ s.on EIC.OFFER_VALID 0 e = true ∧
      s.aboveCur e (s.r EIC.PRIO 0 (s.r EIC.OFFER 0 e)) = true ∧
      (List.range (s.prog e).tasks.length).find? (fun i => ((s.prog e).tasks.getD i {}).kind == .event && ((s.prog e).tasks.getD i {}).source == s.r EIC.OFFER 0 e) = some i) ∧
    (∃ (t : Nat) (e : Fin 4) (s : State) (l : Nat) (i : Nat), (s.eng e).hostedBy = none ∧ s.islandOn .logic = true ∧ 4 ≤ s.r LGE.RESERVE 0 ∧
      (s.eng e).cur = some l ∧ (s.eng e).frozen = [] ∧ (sget {} (s.eng e).banks l).task = some i ∧
      (sget {} (s.eng e).banks l).began + 1000 * (s.prog e).wdUs < (s.tick t).up) ∧
    (∃ (e : Fin 4) (s : State), (s.eng e).hostedBy = none ∧ s.islandOn .logic = true ∧ s.islandOn .keep = true ∧ (s.eng e).testing = true) :=
  ⟨⟨0, 0, clean, 0, by decide +kernel⟩,
   ⟨0, 0, { clean with engines := [(0, { clean.eng 0 with waiting := [(0, 5)] })] }, 0, 5, by decide +kernel⟩,
   ⟨0, 0, clean, 1, by decide +kernel⟩,
   ⟨0, offer clean, 2, by decide +kernel⟩,
   ⟨0, 0, ws (mk (fun e => { e with testing := true, banks := [(0, { pc := 5, task := some 0 })] })) [(LGE.RESERVE, 0, 0, 4)], 0, 0, by decide +kernel⟩,
   ⟨0, ws (mk (fun e => { e with testing := true, banks := [(0, { pc := 5, task := some 0 })] })) [(LGE.RESERVE, 0, 0, 4)], by decide +kernel⟩⟩

end LogicTasks

namespace LogicStarts

def B : State := own [⟨21, 0⟩]
def img : ImageX := { tasks := [{ kind := .periodic, prio := 3, entry := 7, periodUs := 1000 }, { kind := .cyclic, entry := 9 }, { kind := .event, source := 40, entry := 12, prio := 4 }], words := 64, codeWords := 40 }
def mk (f : EngineX → EngineX) : State :=
  ws { B with dataMem := (List.range 20).map (fun k => (k, BitVec.ofNat 32 (k + 3))),
              engines := [(0, f { image := img, banks := [(0, { ba := true, acc1 := 7, acc2 := 2, pc := 5 }), (3, { pc := 9, task := some 0 })], cur := some 0 })] }
    [(LGE.DWIN_HI, 0, 0, 0x3FFFF), (LGE.RWIN_HI, 0, 0, 100), (LGE.TWIN_HI, 0, 0, 4095), (LGE.CWIN_HI, 0, 0, 2047), (LGE.RUN_STATE, 0, 0, 2)]


/-- States and operands that meet the hypotheses of LogicStarts. -/
theorem witness :
    (∃ (r : Requester) (e : Fin 4) (s : State), Takes s r ⟨21, e⟩ ∧ s.mayStart e = true ∧ (s.eng e).hostedBy = none ∧ (s.eng e).image.tasks = [] ∧
      (s.eng e).image.inits = [] ∧ s.r LGE.CHG_STATE e ≠ 5) ∧
    (∃ (s : State), s.islandOn .keep = true ∧ s.pwr.progDirty = true ∧ s.mramOk = true) ∧
    (∃ (t : Nat) (s : State), s.islandOn .logic = true ∧ s.pwr.retLast + 1000000 * s.r LGE.RET_PERIOD_MS ≤ (s.tick t).up ∧ s.r PST.DEV0_STATE = 1 ∧ ∀ d,
      d < 4 → ∀ l, (sget {} (s.eng d).banks l).wroteR = false) :=
  ⟨⟨.keeper, 0, ws { mk (fun e => { e with image := {} }) with pwr := { B.pwr with progDirty := true } } [(PST.DEV0_STATE, 0, 0, 1)],
     by unfold Takes; decide +kernel⟩,
   ⟨ws { mk (fun e => { e with image := {} }) with pwr := { B.pwr with progDirty := true } } [(PST.DEV0_STATE, 0, 0, 1)], by decide +kernel⟩,
   ⟨0, ws { B with engines := [] } [(PST.DEV0_STATE, 0, 0, 1)], by decide +kernel, by decide +kernel, by decide +kernel, fun _ _ _ => rfl⟩⟩

end LogicStarts

namespace LogicChange

def B : State := own [⟨21, 0⟩]
def img : ImageX := { tasks := [{ kind := .periodic, prio := 3, entry := 7, periodUs := 1000 }, { kind := .cyclic, entry := 9 }, { kind := .event, source := 40, entry := 12, prio := 4 }], words := 64, codeWords := 40 }
def mk (f : EngineX → EngineX) : State :=
  ws { B with dataMem := (List.range 20).map (fun k => (k, BitVec.ofNat 32 (k + 3))),
              engines := [(0, f { image := img, banks := [(0, { ba := true, acc1 := 7, acc2 := 2, pc := 5 }), (3, { pc := 9, task := some 0 })], cur := some 0 })] }
    [(LGE.DWIN_HI, 0, 0, 0x3FFFF), (LGE.RWIN_HI, 0, 0, 100), (LGE.TWIN_HI, 0, 0, 4095), (LGE.CWIN_HI, 0, 0, 2047), (LGE.RUN_STATE, 0, 0, 2)]
def imgn : ImageX := { img with inits := [], progId := 9 }
def st (_ c : Nat) : State :=
  ws { mk (fun e => { e with cur := none, newImage := some imgn }) with general := [(0x48000001, 7), (0x48000005, 9)], progMem := [(3, 4), (0x102, 7)] }
    [(LGE.CHG_STATE, 0, 0, c), (LGE.LOAD_SRC, 0, 0, 0x48000000), (LGE.LOAD_DST, 0, 0, 0x100), (LGE.LOAD_WORDS, 0, 0, 5)]


/-- States and operands that meet the hypotheses of LogicChange. -/
theorem witness :
    (∃ (r : Requester) (e : Fin 4) (s : State), Takes s r ⟨21, e⟩ ∧ s.r LGE.CHG_STATE e = 0) ∧
    (∃ (r : Requester) (e : Fin 4) (s : State), Takes s r ⟨21, e⟩ ∧ s.r LGE.CHG_STATE e = 2) ∧
    (∃ (r : Requester) (e : Fin 4) (s : State), Takes s r ⟨21, e⟩ ∧ s.r LGE.CHG_STATE e = 4 ∧ (s.eng (s.runner e)).cur ≠ none) ∧
    (∃ (r : Requester) (e : Fin 4) (s : State) (im : ImageX), Takes s r ⟨21, e⟩ ∧ s.r LGE.CHG_STATE e = 4 ∧ s.runner e = e ∧ (s.eng e).cur = none ∧
      (s.eng e).frozen = [] ∧ (s.eng e).newImage = some im ∧ im.inits = []) ∧
    (∃ (r : Requester) (e : Fin 4) (s : State), Takes s r ⟨21, e⟩ ∧ s.r LGE.CHG_STATE e = 5) ∧
    (∃ (e : Fin 4) (s : State), s.islandOn .logic = true ∧ s.r LGE.CHG_STATE e = 1) ∧
    (∃ (e : Fin 4) (s : State) (code : Nat) (off : Nat), s.islandOn .logic = true ∧ s.r LGE.CHG_STATE e = 3 ∧
      s.checkImage e (s.r LGE.LOAD_DST e) (s.r LGE.LOAD_WORDS e) = (code, off) ∧ code < 256 ∧ off < 2 ^ 20) :=
  ⟨⟨.keeper, 0, st 0 0, by unfold Takes; decide +kernel⟩,
   ⟨.keeper, 0, st 0 2, by unfold Takes; decide +kernel⟩,
   ⟨.keeper, 0, { st 0 4 with engines := [(0, { (st 0 4).eng 0 with cur := some 0 })] }, by unfold Takes; decide +kernel⟩,
   ⟨.keeper, 0, st 0 4, imgn, by unfold Takes; decide +kernel⟩,
   ⟨.keeper, 0, st 0 5, by unfold Takes; decide +kernel⟩,
   ⟨0, st 0 1, by decide +kernel⟩,
   ⟨0, st 0 3, 1, 0, by decide +kernel⟩⟩

end LogicChange

namespace LogicForces

def B : State := own [⟨21, 0⟩]
def img : ImageX := { tasks := [{ kind := .periodic, prio := 3, entry := 7, periodUs := 1000 }, { kind := .cyclic, entry := 9 }, { kind := .event, source := 40, entry := 12, prio := 4 }], words := 64, codeWords := 40 }
def mk (f : EngineX → EngineX) : State :=
  ws { B with dataMem := (List.range 20).map (fun k => (k, BitVec.ofNat 32 (k + 3))),
              engines := [(0, f { image := img, banks := [(0, { ba := true, acc1 := 7, acc2 := 2, pc := 5 }), (3, { pc := 9, task := some 0 })], cur := some 0 })] }
    [(LGE.DWIN_HI, 0, 0, 0x3FFFF), (LGE.RWIN_HI, 0, 0, 100), (LGE.TWIN_HI, 0, 0, 4095), (LGE.CWIN_HI, 0, 0, 2047), (LGE.RUN_STATE, 0, 0, 2)]


/-- States and operands that meet the hypotheses of LogicForces. -/
theorem witness :
    (∃ (r : Requester) (s : State), Opened s r ⟨21, 0⟩) ∧
    (∃ (r : Requester) (e : Fin 4) (s : State), Takes s r ⟨21, e⟩ ∧ s.r LGE.MEM_ADDR e / 2 ^ 18 = 4 ∧ deviceWord (s.r LGE.MEM_ADDR e % 2 ^ 18) = false) ∧
    (∃ (s : State) (pin : Fin 64), s.islandOn .field = true ∧ s.on GIO.DIR 0 pin = false) :=
  ⟨⟨.keeper, ws ((mk id).hw HDR.OPEN ⟨21, 0⟩ 1) [(LGE.MEM_ADDR, 0, 0, 0x100003), (LGE.FORCE_IDX, 0, 0, 255)], by unfold Opened Takes; decide +kernel⟩,
   ⟨.keeper, 0, ws ((mk id).hw HDR.OPEN ⟨21, 0⟩ 1) [(LGE.MEM_ADDR, 0, 0, 0x100003), (LGE.FORCE_IDX, 0, 0, 255)], by unfold Takes; decide +kernel⟩,
   ⟨ws ((mk id).hw HDR.OPEN ⟨21, 0⟩ 1) [(LGE.MEM_ADDR, 0, 0, 0x100003), (LGE.FORCE_IDX, 0, 0, 255)], 0, by decide +kernel⟩⟩

end LogicForces

namespace Measurements

def B : State := own [⟨19, 0⟩]
def en : State := ens B [(19,0)]
def sdx (x : SdX) (s : State) : State := { s with sd := [(0,x),(9,x),(31,x)] }
def px (x : PulseX) (s : State) : State := { s with pulse := [(0,x),(9,x),(15,x)] }
def en1 : State := ws en ([0,9,31].map (fun c => (MFE.SD_EN,0,c,1)))


/-- States and operands that meet the hypotheses of Measurements. -/
theorem witness :
    (∃ (s : State) (ch : Fin 32), s.islandOn .field = true ∧ s.sdOn ch = true ∧ (sget {} s.sd ch).clkLost = false ∧ (sget {} s.sd ch).stuck = false ∧
      (sget {} s.sd ch).settle ≤ 1) ∧
    (∃ (s : State) (ch : Fin 32), s.islandOn .field = true ∧ s.sdOn ch = true ∧ (sget {} s.sd ch).clkLost = false ∧ (sget {} s.sd ch).stuck = false ∧
      1 < (sget {} s.sd ch).settle) ∧
    (∃ (s : State) (ch : Fin 32) (d : BitVec 32),
      let n := sincNorm (min d.toNat (2 ^ (3 * (3 + s.r MFE.LIM_OSR 0 ch)))) (3 + s.r MFE.LIM_OSR 0 ch) 16; s.islandOn .field = true ∧ s.sdOn ch = true ∧
      s.ri MFE.LIM_LO 0 ch ≤ n ∧ n ≤ s.ri MFE.LIM_HI 0 ch) ∧
    (∃ (s : State) (grp : Fin 4) (i : Nat), s.islandOn .field = true ∧ i < 8 ∧ s.r MFE.DIR 0 grp = 1 ∧ s.sdOn (8 * grp.val + i) = true) ∧
    (∃ (s : State) (r : Requester), s.islandOn .field = true ∧ Takes s r ⟨19, 0⟩ ∧ s.enabled 19 = true ∧ s.sarTrig false = 0 ∧ s.sar.runA = none) ∧
    (∃ (s : State) (r : Requester), s.islandOn .field = true ∧ Takes s r ⟨19, 0⟩ ∧ s.enabled 19 = true ∧ s.sarTrig false = 0 ∧ s.sar.runA.isSome = true) ∧
    (∃ (s : State) (r : Requester), s.islandOn .field = true ∧ Takes s r ⟨19, 0⟩ ∧ s.enabled 19 = true ∧ s.sarTrig true = 0 ∧ s.sar.runB = none ∧
      s.sar.converting = none) ∧
    (∃ (t : Nat) (s : State), s.islandOn .field = true ∧ s.sarTrig false = 1 ∧ (s.tick t).onSeries (s.r MFE.PERIOD_US) (s.r MFE.PHASE_US) = true ∧
      s.enabled 19 = true ∧ s.sar.runA = none) ∧
    (∃ (t : Nat) (s : State) (b : Bool) (c : Nat), s.islandOn .field = true ∧ s.sar.converting = some (b, c) ∧ c < 8 ∧
      s.sar.convAt + 1000 ≤ (s.tick t).now) ∧
    (∃ (s : State) (ch : Fin 16), s.islandOn .field = true ∧ s.enabled 19 = true ∧ s.r MFE.EDGE 0 ch = 2) ∧
    (∃ (s : State) (ch : Fin 16) (t0 : Nat), s.islandOn .field = true ∧ s.enabled 19 = true ∧ (sget {} s.pulse ch).tRef = some t0 ∧
      (sget {} s.pulse ch).edges ≠ 0 ∧ t0 < (sget {} s.pulse ch).tLast) ∧
    (∃ (t : Nat) (s : State) (ch : Fin 16), s.islandOn .field = true ∧ s.enabled 19 = true ∧ (sget {} s.pulse ch).tout = false ∧
      (sget {} s.pulse ch).tLast + 1000000 * s.r MFE.TMO_MS 0 ch ≤ (s.tick t).now) :=
  ⟨⟨sdx { settle := 1 } en1, 0, by decide +kernel⟩,
   ⟨en1, 0, by decide +kernel⟩,
   ⟨en1, 0, 0, by decide +kernel⟩,
   ⟨ws en ([0,1,2,3].map (fun c => (MFE.DIR,0,c,1)) ++ [0,9,31].map (fun c => (MFE.SD_EN,0,c,1))), 0, 0, by decide +kernel⟩,
   ⟨en, .keeper, by unfold Takes; decide +kernel⟩,
   ⟨{en with sar := { runA := some (1, 5000) }}, .keeper, by unfold Takes; decide +kernel⟩,
   ⟨en, .keeper, by unfold Takes; decide +kernel⟩,
   ⟨0, ws en [(MFE.TRIG,0,0,1)], by decide +kernel⟩,
   ⟨0, {en with sar := { runB := some (1, 5000), converting := some (true, 4) }}, true, 4, by decide +kernel⟩,
   ⟨px { wraps := 2^64 - 1, edges := 5, tRef := some 2, tLast := 5000000000 } (ws en [(MFE.EDGE,0,0,2),(MFE.EDGE,0,15,2),(MFE.FAULT_ON_TMO,0,0,1)]), 0,
     by decide +kernel⟩,
   ⟨px { wraps := 2^32 - 1, edges := 5, tRef := some 1, tLast := 4000000000 } en, 0, 1, by decide +kernel⟩,
   ⟨0, en, 0, by decide +kernel⟩⟩

end Measurements

namespace Actuation

def B : State := own [⟨20, 0⟩]
def en : State := ens B [(20,0)]
def px (x : PwmX) (s : State) : State := { s with pwm := [(0,x),(1,x),(23,x)] }


/-- States and operands that meet the hypotheses of Actuation. -/
theorem witness :
    (∃ (t : Nat) (s : State) (o : Fin 24) (k : Nat) (d : Nat × Nat),
      let x : PwmX := sget {} s.pwm o; let due := x.staged.filter (fun d => decide (d.1 + 40 ≤ (s.tick t).now)); s.islandOn .field = true ∧
      s.enabled 20 = true ∧ s.pwmSecond o = false ∧ (s.tick t).pwmTick o 0 = some k ∧ x.startAt ≠ some k ∧ x.busy.getD 0 ≤ k ∧ due.getLast? = some d) ∧
    (∃ (t : Nat) (s : State) (o : Fin 24) (k : Nat),
      let x : PwmX := sget {} s.pwm o; let due := x.staged.filter (fun d => decide (d.1 + 40 ≤ (s.tick t).now)); s.islandOn .field = true ∧
      s.enabled 20 = true ∧ s.pwmSecond o = false ∧ (s.tick t).pwmTick o 0 = some k ∧ x.startAt ≠ some k ∧ x.busy.getD 0 ≤ k ∧ due = [] ∧ x.lostNext = true) ∧
    (∃ (t : Nat) (s : State) (o : Fin 24) (k : Nat),
      let x : PwmX := sget {} s.pwm o; let due := x.staged.filter (fun d => decide (d.1 + 40 ≤ (s.tick t).now)); s.islandOn .field = true ∧
      s.enabled 20 = true ∧ s.pwmSecond o = false ∧ (s.tick t).pwmTick o 0 = some k ∧ x.startAt ≠ some k ∧ x.busy.getD 0 ≤ k ∧ due = [] ∧
      x.lostNext = false) ∧
    (∃ (t : Nat) (s : State) (o : Fin 24) (k : Nat) (d : Nat × Nat),
      let x : PwmX := sget {} s.pwm o; let due := x.staged.filter (fun d => decide (d.1 + 40 ≤ (s.tick t).now)); s.islandOn .field = true ∧
      s.enabled 20 = true ∧ s.pwmSecond o = false ∧ x.startAt = some k ∧ 4 * (s.tick t).now ≤ k + x.period / 2 ∧ k + x.period / 2 < 4 * (s.tick t).now + 4 ∧
      s.r ACT.MODE 0 o = 2 ∧ s.on ACT.UPDATE 0 o = true ∧ due.getLast? = some d) ∧
    (∃ (s : State) (o : Fin 24) (r : Requester), Takes s r ⟨20, 0⟩ ∧ s.on ACT.DUTY_SRC 0 o = false) ∧
    (∃ (s : State) (o : Fin 24), s.islandOn .field = true ∧ s.r ACT.DUTY_TMO 0 o ≠ 0 ∧ s.r ACT.DUTY_TMO 0 o ≤ (sget {} s.pwm o).silent ∧
      s.enabled 20 = true ∧ (sget {} s.pwm o).lostNext = false ∧ (sget {} s.pwm o).onSafe = false ∧ s.r DCH.ROLE = 0 ∧ (sget {} s.pwm o).staged = []) ∧
    (∃ (s : State) (line : Fin 4), s.on ACT.T_EN 0 line = true) :=
  ⟨⟨0, px { staged := [(4999999900, 9), (5000000000, 11)] } en, 0, 20000000000, (4999999900, 9), by decide +kernel⟩,
   ⟨0, px { lostNext := true } en, 0, 20000000000, by decide +kernel⟩,
   ⟨0, px {} en, 0, 20000000000, by decide +kernel⟩,
   ⟨0, ws (px { staged := [(4999999900, 9)], startAt := some 19999999800, period := 400 } en) [(ACT.MODE, 0, 0, 2), (ACT.UPDATE, 0, 0, 1)], 0,
     19999999800, (4999999900, 9), by decide +kernel⟩,
   ⟨px { staged := [(4999999900, 9), (5000000000, 11)] } en, 0, .keeper, by unfold Takes; decide +kernel⟩,
   ⟨ws (px { silent := 7 } en) [(ACT.DUTY_TMO, 0, 0, 3), (ACT.T_EN, 0, 0, 1), (ACT.DUTY_SRC, 0, 0, 1)], 0, by decide +kernel⟩,
   ⟨ws (px { silent := 7 } en) [(ACT.DUTY_TMO, 0, 0, 3), (ACT.T_EN, 0, 0, 1), (ACT.DUTY_SRC, 0, 0, 1)], 0, by decide +kernel⟩⟩

end Actuation

namespace StationExchange

def B : State := own [⟨22, 0⟩]
def f0 : SxeFrame := { ftype := 1, station := 5, etype := 0x88B5, words := 2, data := [7, 8], echo := 3, cycle := 0 }
def en : State := ens B [(22,0)]
def sx (f : SxeX → SxeX) (s : State) : State := { s with sxe := f s.sxe }
def tab : List (Nat × Word) := [(20, 0x02020001), (21, 5), (22, 0x0000), (23, 3)]
def tab2 : List (Nat × Word) := [(20, 0xFFFFFFFF), (21, 0xFFFFFFFF), (22, 0xFFFFFFFF), (23, 0xFFFFFFFF)]


/-- States and operands that meet the hypotheses of StationExchange. -/
theorem witness :
    (∃ (t : Nat) (s : State), s.islandOn .net = true ∧ s.enabled 22 = true ∧ s.sxe.startAt ≤ (s.tick t).up ∧
      (s.tick t).onSeries (s.r SXE.CYC_US) (s.r SXE.PHASE_US) = true ∧ ((s.sxe.cut = true ∨ s.sxe.cycleAt ≠ (s.tick t).now))) ∧
    (∃ (t : Nat) (s : State) (f : SxeFrame), s.islandOn .net = true ∧ s.enabled 22 = true ∧ (s.tick t).inputCause f = 0) ∧
    (∃ (t : Nat) (s : State) (f : SxeFrame) (c : Nat), s.islandOn .net = true ∧ s.enabled 22 = true ∧ (s.tick t).inputCause f = c ∧ c ≠ 0) ∧
    (∃ (t : Nat) (s : State), s.islandOn .net = true ∧ s.enabled 22 = true ∧ s.sxe.cut = false ∧ s.sxe.inRead = true ∧
      s.sxe.cycleAt + 1000 * s.r SXE.READ_END_US ≤ (s.tick t).now) ∧
    (∃ (t : Nat) (s : State), s.islandOn .net = true ∧ s.enabled 22 = true ∧ s.sxe.cut = false ∧ s.r DCH.ROLE = 0 ∧ s.sxe.inRead = false ∧
      s.sxe.wrote = false ∧ s.sxe.cycleAt + 1000 * s.r SXE.WRITE_US ≤ (s.tick t).now) ∧
    (∃ (t : Nat) (s : State) (f : SxeFrame) (fs : List SxeFrame), s.islandOn .net = true ∧ s.sxe.outQ = f :: fs ∧
      s.sxe.cycleAt + 1000 * s.r SXE.APPLY_US < (s.tick t).now + 1000 * s.r SXE.LAT_US) ∧
    (∃ (t : Nat) (s : State) (f : SxeFrame) (fs : List SxeFrame), s.islandOn .net = true ∧ s.sxe.outQ = f :: fs ∧
      (s.tick t).now + 1000 * s.r SXE.LAT_US ≤ s.sxe.cycleAt + 1000 * s.r SXE.APPLY_US) ∧
    (∃ (s : State) (r : Requester), Takes s r ⟨22, 0⟩ ∧ s.on SXE.TABLE_PENDING = false) ∧
    (∃ (s : State) (r : Requester), Takes s r ⟨22, 0⟩ ∧ s.on SXE.TABLE_PENDING = true) :=
  ⟨⟨9000000000, sx (fun x => { x with cut := false, table := tab, cycleAt := 5000000000 }) { en with stations := [(5, { st := .run })] },
     by decide +kernel⟩,
   ⟨0, sx (fun x => { x with inRead := true, cut := false, table := tab, cycleAt := 5000000000 }) en, { f0 with src := 5 }, by decide +kernel⟩,
   ⟨0, sx (fun x => { x with cut := false, table := tab, cycleAt := 5000000000 }) { en with stations := [(5, { st := .run })] }, { f0 with src := 5 }, 6,
     by decide +kernel⟩,
   ⟨9000000000, sx (fun x => { x with inRead := true, cut := false, table := tab, cycleAt := 5000000000 }) en, by decide +kernel⟩,
   ⟨9000000000, sx (fun x => { x with cut := false, table := tab, cycleAt := 5000000000 }) { en with stations := [(5, { st := .run })] },
     by decide +kernel⟩,
   ⟨9000000000,
     sx (fun x => { x with inRead := true, table := tab, staging := tab2, outQ := [f0, f0], cycleAt := 5000000000 }) { en with stations := [(5, { st := .run })] },
     f0, [f0], by decide +kernel⟩,
   ⟨0,
     sx (fun x => { x with inRead := true, table := tab, staging := tab2, outQ := [f0, f0], cycleAt := 5000000000 }) { en with stations := [(5, { st := .run })] },
     f0, [f0], by decide +kernel⟩,
   ⟨sx (fun x => { x with cut := false, table := tab, cycleAt := 5000000000 }) { en with stations := [(5, { st := .run })] }, .keeper,
     by unfold Takes; decide +kernel⟩,
   ⟨ws en [(SXE.TABLE_PENDING,0,0,1)], .keeper, by unfold Takes; decide +kernel⟩⟩

end StationExchange

namespace Motion

def B : State := own [⟨23, 0⟩, ⟨23, 23⟩]
def en : State := (ens B [(23,0),(23,23),(23,24)])
def ax (f : AxisX) (s : State) : State := { s with axes := [(0,f),(23,f)] }
def hi (s : State) : State := ws s ([0,23].flatMap (fun a => [(MPG.TGT_NOW,a,0,50),(MPG.SOFT_LO,a,0,0xFFFFFF00),(MPG.SOFT_HI,a,0,1000),(MPG.PHASE_LOST,a,0,1)]))

/-- States and operands that meet the hypotheses of Motion. -/
theorem witness :
    (∃ (t : Nat) (a : Fin 24) (s : State), let tgt := s.ri MPG.TGT_NOW a * 2 ^ 32; s.islandOn .field = true ∧ ((∀ u,
      (s.axis a).updAt = some u → u + 1000 ≤ (s.tick t).up)) ∧ s.axisOn a = true ∧ s.r DCH.ROLE = 0 ∧ (s.axis a).stopping = false ∧ (s.axis a).homing = 0 ∧
      (s.axis a).vel = 0 ∧ (s.axis a).pendTgt = true ∧ s.on MPG.HELD a = false ∧ s.on MPG.DRV_LOST a = false ∧ s.mayMove a = true ∧ (s.axis a).pos < tgt ∧
      (s.axis a).limP = false ∧ 0 < (s.tick t).topSpeed a 1) ∧
    (∃ (r : Requester) (a : Fin 24) (s : State) (v : Word), Takes s r ⟨23, a⟩ ∧ s.ri MPG.SOFT_LO a ≤ v.toInt ∧ v.toInt ≤ s.ri MPG.SOFT_HI a) ∧
    (∃ (r : Requester) (a : Fin 24) (s : State) (v : Word), Takes s r ⟨23, a⟩ ∧ v ≠ 0) ∧
    (∃ (r : Requester) (a : Fin 24) (s : State), Takes s r ⟨23, a⟩ ∧ s.axisOn a = true) ∧
    (∃ (r : Requester) (a : Fin 24) (s : State), Takes s r ⟨23, a⟩ ∧ s.axisOn a = false) ∧
    (∃ (r : Requester) (a : Fin 24) (s : State), Takes s r ⟨23, a⟩ ∧ (s.axis a).vel = 0 ∧ s.on MPG.DRV_LOST a = false ∧ s.on MPG.PHASE_LOST a = true ∧
      s.r MPG.MRES_LOG2 a ≤ 8) ∧
    (∃ (r : Requester) (a : Fin 24) (s : State), Takes s r ⟨23, a⟩ ∧ (s.axis a).vel ≠ 0) ∧
    (∃ (a : Fin 24) (s : State), (s.axis a).homing = 0 ∧ 0 < (s.axis a).vel) ∧
    (∃ (t : Nat) (a : Fin 24) (s : State) (t0 : Nat) (n : Nat), s.islandOn .field = true ∧ ((∀ u, (s.axis a).updAt = some u → u + 1000 ≤ (s.tick t).up)) ∧
      s.axisOn a = true ∧ s.r DCH.ROLE = 0 ∧ (s.axis a).stopping = false ∧ (s.axis a).homing = 3 ∧ s.r MPG.HOME_MODE a = 1 ∧ s.on MPG.DRV_LOST a = false ∧
      s.on MPG.HOME_IN a = false ∧ (s.axis a).homeOff = some (t0, n) ∧ t0 + 1000 * s.r MPG.DB_US a ≤ (s.tick t).up ∧
      n + s.r MPG.DB_COUNT a ≤ (s.axis a).steps) ∧
    (∃ (t : Nat) (s : State) (g : Fin 8), s.islandOn .field = true ∧ s.r MPC.LIVE_MODE 24 g ≠ 0 ∧ (s.tick t).liveValid g = false) :=
  ⟨⟨0, 0, ws (ax { pendTgt := true, homedOnce := true } (hi en)) [(MPG.PHASE_LOST,0,0,0)], by decide +kernel⟩,
   ⟨.keeper, 0, ws (ax { pendTgt := true, homedOnce := true } (hi en)) [(MPG.PHASE_LOST,0,0,0)], 0, by unfold Takes; decide +kernel⟩,
   ⟨.keeper, 0, ws (ax { pendTgt := true, homedOnce := true } (hi en)) [(MPG.PHASE_LOST,0,0,0)], 1, by unfold Takes; decide +kernel⟩,
   ⟨.keeper, 0, ws (ax { pendTgt := true, homedOnce := true } (hi en)) [(MPG.PHASE_LOST,0,0,0)], by unfold Takes; decide +kernel⟩,
   ⟨.keeper, 0, B, by unfold Takes; decide +kernel⟩,
   ⟨.keeper, 23, ws (ax { pendTgt := true, homedOnce := true } (hi en)) [(MPG.PHASE_LOST,0,0,0)], by unfold Takes; decide +kernel⟩,
   ⟨.keeper, 0, ws (ax { vel := 500000, moving := true } (hi en)) [(MPG.LIM_HARD,0,0,0),(MPG.TGT_SRC,0,0,1)], by unfold Takes; decide +kernel⟩,
   ⟨0, ws (ax { vel := 500000, moving := true } (hi en)) [(MPG.LIM_HARD,0,0,0),(MPG.TGT_SRC,0,0,1)], by decide +kernel⟩,
   ⟨0, 0, ws (ax { homing := 3, vel := 70000, moving := true, homeOff := some (0, 0), steps := 70000 } en) [(MPG.HOME_MODE, 0, 0, 1)], 0, 0,
     by decide +kernel⟩,
   ⟨0, ws en [(MPC.LIVE_MODE, 24, 0, 1)], 0, by decide +kernel⟩⟩

end Motion

namespace EventSources

def B : State := own [⟨5, 0⟩]
def src (st : SrcState) (s : State) : State := { s with sources := [0,10,40,70,255].map (fun n => (n, { st := st, since := 3 })) }
def en : State := ws B ([0,10,40,70,255].map (fun n => (EIC.EN,0,n,1)))


/-- States and operands that meet the hypotheses of EventSources. -/
theorem witness :
    (∃ (n : Fin 256) (s : State), s.islandOn .logic = true ∧ s.toEic.contains n.val = true ∧ reservedSource n = false ∧ s.on EIC.EN 0 n = true ∧
      (s.src n).st = .idle) ∧
    (∃ (n : Fin 256) (s : State), s.islandOn .logic = true ∧ s.toEic.contains n.val = true ∧ reservedSource n = false ∧ s.on EIC.EN 0 n = true ∧
      (s.src n).st = .active) ∧
    (∃ (n : Fin 256) (s : State), s.islandOn .logic = true ∧ s.toEic.contains n.val = true ∧ reservedSource n = false ∧ s.on EIC.EN 0 n = true ∧
      (s.src n).st = .pending) ∧
    (∃ (t : Nat) (n : Fin 256) (s : State) (e : Fin 4), s.islandOn .logic = true ∧ ((∀ d : Fin 4, s.on EIC.OFFER_VALID 0 d = false)) ∧
      s.routeOrder = [n.val] ∧ (s.tick t).moderated n = false ∧ s.targets n = [e.val] ∧ s.curPrio e = none) ∧
    (∃ (s : State) (d : Fin 4), s.islandOn .logic = true ∧ s.routeOrder = [] ∧ s.offerStands d = false) ∧
    (∃ (t : Nat) (s : State) (g : Fin 16), s.islandOn .logic = true ∧ sget 0 s.lastClaim g ≠ 0 ∧
      sget 0 s.lastClaim g + 1000 * s.r EIC.MOD_US 0 g ≤ (s.tick t).up + 1) ∧
    (∃ (r : Requester) (n : Fin 256) (s : State), Takes s r ⟨5, 0⟩ ∧ reservedSource n = false) ∧
    (∃ (t : Nat) (n : Fin 256) (s : State), s.islandOn .logic = true ∧ (s.src n).st = .pending ∧ s.r EIC.AGE_MS ≠ 0 ∧
      (s.src n).since + 1000000 * s.r EIC.AGE_MS < (s.tick t).up) :=
  ⟨⟨40, ws (ens ({ en with toEic := [40] }) [(21, 0)]) [(LGE.IS_RESERVE, 0, 0, 0)], by decide +kernel⟩,
   ⟨40, ws (ens (src .active { en with toEic := [40] }) [(21, 0)]) [(LGE.IS_RESERVE, 0, 0, 0)], by decide +kernel⟩,
   ⟨40, ws (ens (src .pending { en with toEic := [40] }) [(21, 0)]) [(LGE.IS_RESERVE, 0, 0, 0)], by decide +kernel⟩,
   ⟨0, 40,
     ws (ens ({ ws { en with sources := [(40, {st := .pending})] } [(EIC.TARGET,0,40,1), (EIC.PRIO,0,40,3),(LGE.RUN_STATE,0,0,2)] with engines := [(0, {})] }) [(21, 0)]) [(LGE.IS_RESERVE, 0, 0, 0)],
     0, by decide +kernel⟩,
   ⟨ws (ens (en) [(21, 0)]) [(LGE.IS_RESERVE, 0, 0, 0)], 0, by decide +kernel⟩,
   ⟨0, ws (ens ({ en with sources := [(40, {st := .pending})], lastClaim := [(2, 77), (15, 5000000000)] }) [(21, 0)]) [(LGE.IS_RESERVE, 0, 0, 0)], 2,
     by decide +kernel⟩,
   ⟨.keeper, 0, ws (ens (en) [(21, 0)]) [(LGE.IS_RESERVE, 0, 0, 0)], by unfold Takes; decide +kernel⟩,
   ⟨0, 0, ws (ens (src .pending en) [(21, 0)]) [(LGE.IS_RESERVE, 0, 0, 0)], by decide +kernel⟩⟩

end EventSources

namespace HostQueues

def B : State := own [⟨7, 0⟩]
def m0 : EvtMsg := { code := 3, bit := 2, time := 7 }
def h0 : HostRec := { q := 0, words := [1,2,3], t := 5 }
def po (x : PortX) (s : State) : State := { s with ports := [(0,x),(1,x)] }
def qx (x : QueueX) (s : State) : State := { s with queues := (List.range 16).map (fun k => (k, x)) }
def en : State := ws (ens B [(7,0),(7,1)]) ([0,1].flatMap (fun p => [(HQE.LINK_UP,p,0,1),(HQE.R_EN,p,3,1)] ++ (List.range 8).map (fun q => (HQE.Q_EN,p,q,1))))


/-- States and operands that meet the hypotheses of HostQueues. -/
theorem witness :
    (∃ (p : Fin 2) (s : State) (m : EvtMsg) (ms : List EvtMsg), s.islandOn .host = true ∧ (s.port p).offers = m :: ms ∧ s.on HQE.R_EN p m.code = false) ∧
    (∃ (p : Fin 2) (q : Fin 8) (s : State) (m : EvtMsg) (ms : List EvtMsg), s.islandOn .host = true ∧ (s.port p).offers = m :: ms ∧
      s.on HQE.R_EN p m.code = true ∧ s.r HQE.QUEUE p m.code = q ∧ s.r HQE.DROP_PEND p q = 0 ∧ s.queueOpen p q = true ∧ 1 ≤ s.ringFree p q) ∧
    (∃ (p : Fin 2) (q : Fin 8) (s : State) (m : EvtMsg) (ms : List EvtMsg), s.islandOn .host = true ∧ (s.port p).offers = m :: ms ∧
      s.on HQE.R_EN p m.code = true ∧ s.r HQE.QUEUE p m.code = q ∧ s.r HQE.DROP_PEND p q = 0 ∧ s.ringFree p q = 0) ∧
    (∃ (p : Fin 2) (q : Fin 8) (s : State) (h : HostRec) (rest : List HostRec), (s.port p).buf = h :: rest ∧ h.q = q ∧ ((∀ x ∈ rest, x.q ≠ h.q)) ∧
      s.on HQE.LINK_UP p = true ∧ s.islandOn .host = true ∧ s.enabled 7 p = true ∧ ((∀ k : Fin 8, s.r HQE.DROP_PEND p k = 0))) ∧
    (∃ (t : Nat) (p : Fin 2) (q : Fin 8) (s : State) (t0 : Nat), s.islandOn .host = true ∧ s.enabled 7 p = true ∧ (s.queue p q).oldest = some t0 ∧
      s.r HQE.INT_US p q ≠ 0 ∧ t0 + 1000 * s.r HQE.INT_US p q ≤ (s.tick t).up) ∧
    (∃ (p : Fin 2) (s : State), s.islandOn .host = true ∧ s.enabled 7 p = false) ∧
    (∃ (r : Requester) (p : Fin 2) (q : Fin 8) (s : State), Takes s r ⟨7, p⟩ ∧ s.on HQE.Q_EN p q = false) ∧
    (∃ (r : Requester) (p : Fin 2) (q : Fin 8) (s : State), Takes s r ⟨7, p⟩ ∧ s.on HQE.Q_EN p q = true) ∧
    (∃ (t : Nat) (p : Fin 2) (s : State), s.islandOn .host = true ∧ ((∀ t0,
      (s.port p).hostRead = some t0 → t0 + 1000 * (s.port p).cplUs ≤ (s.tick t).up))) :=
  ⟨⟨1, po { offers := [m0, m0] } (ws en [(HQE.R_EN,1,3,0),(HQE.QUEUE,0,3,2)]), m0, [m0], by decide +kernel⟩,
   ⟨0, 0, po { offers := [m0] } en, m0, [], by decide +kernel⟩,
   ⟨0, 0, po { offers := [m0] } (ws en [(HQE.PROD,0,0,16)]), m0, [], by decide +kernel⟩,
   ⟨0, 0, po { buf := [h0] , pend := 5, mask := 0} en, h0, [], by decide +kernel⟩,
   ⟨0, 0, 0, qx { oldest := some 5, unsig := 3 } (ws (po { buf := [h0] , pend := 5, sent := [(0, 3)]} en) [(HQE.INT_US,0,0,5)]), 5, by decide +kernel⟩,
   ⟨0, B, by decide +kernel⟩,
   ⟨.keeper, 0, 0, B, by unfold Takes; decide +kernel⟩,
   ⟨.keeper, 0, 0, (en.hw HDR.EVT_EN ⟨7,0⟩ 0xFFFF).hw HDR.EVT_PEND ⟨7,0⟩ 0x1, by unfold Takes; decide +kernel⟩,
   ⟨0, 0, B, by decide +kernel⟩⟩

end HostQueues

namespace TimeReference

def B : State := own [⟨8, 0⟩]
def z0 : Zda := { ok := true, hour := 23, min := 59, sec := 59, day := 28, month := 2, year := 2023 }
def tm (f : TmkX → TmkX) (s : State) : State := { s with tmk := f s.tmk }
def en : State := ens B [(8,0)]


/-- States and operands that meet the hypotheses of TimeReference. -/
theorem witness :
    (∃ (s : State), s.islandOn .time = true ∧ s.tmk.lastPulse = none) ∧
    (∃ (t : Nat) (s : State) (p : Nat), let tau : Int := ((s.tick t).now : Int) - s.ri TMK.PPS_DELAY_NS; s.islandOn .time = true ∧
      s.tmk.lastPulse = some p ∧ tau - p < 1000000000 - 10000) ∧
    (∃ (t : Nat) (s : State) (p : Nat), let tau : Int := ((s.tick t).now : Int) - s.ri TMK.PPS_DELAY_NS; s.islandOn .time = true ∧
      s.tmk.lastPulse = some p ∧ 1000000000 + 10000 < tau - p) ∧
    (∃ (t : Nat) (s : State) (p : Nat) (l : Nat), let tau : Int := ((s.tick t).now : Int) - s.ri TMK.PPS_DELAY_NS; s.islandOn .time = true ∧
      s.tmk.lastPulse = some p ∧ 1000000000 - 10000 ≤ tau - p ∧ tau - p ≤ 1000000000 + 10000 ∧ s.pulseLabel = some l ∧ s.r TMK.REF_MODE = 2) ∧
    (∃ (s : State) (z : Zda), s.islandOn .time = true ∧ s.r TMK.TOD_SRC = 0 ∧ z.ok = false) ∧
    (∃ (t : Nat) (s : State) (z : Zda) (p : Nat), s.islandOn .time = true ∧ s.r TMK.TOD_SRC = 0 ∧ z.ok = true ∧ 2000 ≤ z.year ∧ z.year ≤ 2399 ∧
      1 ≤ z.month ∧ z.month ≤ 12 ∧ 1 ≤ z.day ∧ z.day ≤ monthDays z.year z.month ∧ z.hour ≤ 23 ∧ z.min ≤ 59 ∧ z.sec ≤ 59 ∧ s.tmk.lastPulse = some p ∧
      p + 10000000 ≤ (s.tick t).now ∧ (s.tick t).now ≤ p + 990000000 ∧ s.r TMK.TOD_LABEL = 1 ∧ s.tmk.prevLabel = none) ∧
    (∃ (t : Nat) (s : State), s.islandOn .time = true ∧ s.r TMK.REF_NOW ≠ 0 ∧ s.tmk.refAt + 1000000000 * (s.tmk.misses + 1) + 2000000 ≤ (s.tick t).up ∧
      s.tmk.misses + 1 < s.r TMK.MISS_LIMIT) ∧
    (∃ (t : Nat) (s : State), s.islandOn .time = true ∧ s.r TMK.REF_NOW ≠ 0 ∧ s.tmk.refAt + 1000000000 * (s.tmk.misses + 1) + 2000000 ≤ (s.tick t).up ∧
      s.r TMK.MISS_LIMIT ≤ s.tmk.misses + 1 ∧ s.r TMK.STATE = 2 ∧ s.r TMK.REF_MODE ≠ 1) ∧
    (∃ (t : Nat) (s : State), s.islandOn .time = true ∧ s.r TMK.STATE = 3 ∧ s.r TMK.CLASS = 7 ∧ s.r TMK.HOLD_CLASS_S < (s.tick t).holdS) ∧
    (∃ (t : Nat) (s : State) (d : Int), s.islandOn .time = true ∧ s.tmk.pendingStep = some d ∧ 0 ≤ (s.tick t).now * 65536 + d ∧ d % 65536 = 0) ∧
    (∃ (r : Requester) (s : State) (v : Word), Takes s r ⟨8, 0⟩ ∧ s.r TMK.REF_MODE = 0 ∧ -(s.r TMK.ADJ_LIM : Int) ≤ v.toInt ∧ v.toInt ≤ s.r TMK.ADJ_LIM) ∧
    (∃ (t : Nat) (s : State), s.islandOn .time = true ∧ s.r TMK.UTC_OFFSET < 1000 ∧
      (s.tick t).utcDaySec = (if s.on TMK.LEAP61 then 1 else if s.on TMK.LEAP59 then 86399 else 0)) :=
  ⟨⟨en, by decide +kernel⟩,
   ⟨0, tm (fun x => { x with lastPulse := some 4999990000 }) (ws en [(TMK.TOD_LABEL,0,0,1)]), 4999990000, by decide +kernel⟩,
   ⟨5020000000, tm (fun x => { x with lastPulse := some 4000000000 }) en, 4000000000, by decide +kernel⟩,
   ⟨0,
     tm (fun x => { x with lastPulse := some 4000000000, prevLabel := some 4, nextLabel := some 5 }) (ws en [(TMK.REF_MODE,0,0,2),(TMK.REF_NOW,0,0,1)]),
     4000000000, 5, by decide +kernel⟩,
   ⟨en, { z0 with ok := false }, by decide +kernel⟩,
   ⟨5020000000, tm (fun x => { x with lastPulse := some 4999990000 }) (ws en [(TMK.TOD_LABEL,0,0,1)]), z0, 4999990000, by decide +kernel⟩,
   ⟨0,
     tm (fun x => { x with lastPulse := some 4000000000, prevLabel := some 4, nextLabel := some 5 }) (ws en [(TMK.REF_MODE,0,0,2),(TMK.REF_NOW,0,0,1)]),
     by decide +kernel⟩,
   ⟨0, ws en [(TMK.STATE,0,0,2),(TMK.REF_NOW,0,0,1),(TMK.REF_MODE,0,0,2),(TMK.MISS_LIMIT,0,0,1)], by decide +kernel⟩,
   ⟨0, ws en [(TMK.STATE,0,0,3),(TMK.CLASS,0,0,7),(TMK.HOLD_CLASS_S,0,0,0)], by decide +kernel⟩,
   ⟨0, tm (fun x => { x with pendingStep := some (65536*1000) }) en, 65536*1000, by decide +kernel⟩,
   ⟨.keeper, ws en [(TMK.REF_MODE,0,0,0)], 0, by unfold Takes; decide +kernel⟩,
   ⟨0, ws en [(TMK.LEAP61,0,0,1),(TMK.UTC_OFFSET,0,0,4)], by decide +kernel⟩⟩

end TimeReference

namespace HostTimeCommands

def B : State := own [⟨8, 0⟩]
def en : State := ens B [(8,0)]


/-- States and operands that meet the hypotheses of HostTimeCommands. -/
theorem witness :
    (∃ (t : Nat) (r : Requester) (s : State), Takes s r ⟨8, 0⟩ ∧ s.r TMK.REF_MODE = 0 ∧ 0 ≤ ((s.tick t).now : Int) + s.ri TMK.OFF_NS ∧
      ((s.tick t).now : Int) + s.ri TMK.OFF_NS < 2 ^ 48 * 1000000000) ∧
    (∃ (r : Requester) (s : State), Takes s r ⟨8, 0⟩ ∧ s.r TMK.REF_MODE ≠ 0) ∧
    (∃ (t : Nat) (r : Requester) (s : State), Takes s r ⟨8, 0⟩ ∧
      (s.r TMK.REF_MODE ≠ 0 ∨ ((s.tick t).now : Int) + s.ri TMK.OFF_NS < 0 ∨ 2 ^ 48 * 1000000000 ≤ ((s.tick t).now : Int) + s.ri TMK.OFF_NS)) :=
  ⟨⟨0, .keeper, ws en [(TMK.REF_MODE,0,0,0)], by unfold Takes; decide +kernel⟩,
   ⟨.keeper, en, by unfold Takes; decide +kernel⟩,
   ⟨0, .keeper, en, by unfold Takes; decide +kernel⟩⟩

end HostTimeCommands

namespace TimeServices

def B : State := own [⟨8, 0⟩]
def c0 : Cap := { sec := 5, ns := 7, fall := true }
def tm (f : TmkX → TmkX) (s : State) : State := { s with tmk := f s.tmk }
def en : State := ws (ens B [(8,0),(26,0),(26,11),(27,0)]) [(TMK.PTP_PORTS,0,0,0xFFF)]


/-- States and operands that meet the hypotheses of TimeServices. -/
theorem witness :
    (∃ (r : Requester) (o : Fin 4) (s : State) (c : Cap) (cs : List Cap), s.reaches r ⟨8, 0⟩ = true ∧ s.capQ o = c :: cs ∧ cs.length < 32) ∧
    (∃ (port : Fin 12) (s : State) (d : Dataset), s.islandOn .time = true ∧ s.enabled 8 = true ∧ s.ptpPort port = true ∧ s.r TMK.GM_MODE = 0 ∧
      datasetKey d < datasetKey s.ownDataset) ∧
    (∃ (port : Fin 12) (s : State) (d : Dataset), s.islandOn .time = true ∧ s.enabled 8 = true ∧ s.ptpPort port = true ∧ s.r TMK.GM_MODE = 0 ∧
      datasetKey s.ownDataset ≤ datasetKey d ∧ s.tmk.foreign = []) ∧
    (∃ (port : Fin 12) (s : State), s.islandOn .time = true ∧ s.enabled 8 = true ∧ s.ptpPort port = true ∧ s.on TMK.GM_ROLE = true) ∧
    (∃ (t : Nat) (port : Fin 12) (s : State) (pd : Bool) (src : BitVec 80) (seq : BitVec 16) (n : Nat) (sec : Nat), s.islandOn .time = true ∧
      s.enabled 8 = true ∧ s.ptpPort port = true ∧ (pd = true ↔ s.r TMK.PROFILE ≠ 0) ∧ ((pd = true ∨ s.on TMK.GM_ROLE = true)) ∧
      (s.tick t).secondCopy port src.toNat seq.toNat = false ∧ sget (0, 0) s.tmk.dreq port = (sec, n) ∧ sec = (s.tick t).up / 1000000000 ∧
      n < s.r TMK.DREQ_MAX) ∧
    (∃ (t : Nat) (port : Fin 12) (s : State) (pd : Bool) (src : BitVec 80) (seq : BitVec 16) (n : Nat) (sec : Nat), s.islandOn .time = true ∧
      s.enabled 8 = true ∧ s.ptpPort port = true ∧ (pd = true ↔ s.r TMK.PROFILE ≠ 0) ∧ ((pd = true ∨ s.on TMK.GM_ROLE = true)) ∧
      (s.tick t).secondCopy port src.toNat seq.toNat = false ∧ sget (0, 0) s.tmk.dreq port = (sec, n) ∧ sec = (s.tick t).up / 1000000000 ∧
      s.r TMK.DREQ_MAX ≤ n) ∧
    (∃ (t : Nat) (port : Fin 12) (s : State) (src : BitVec 80) (seq : BitVec 16), s.islandOn .time = true ∧ s.enabled 8 = true ∧ s.ptpPort port = true ∧
      s.r TMK.PROFILE = 0 ∧ (s.tick t).secondCopy port src.toNat seq.toNat = true) ∧
    (∃ (port : Fin 12) (s : State), s.islandOn .time = true ∧ s.enabled 8 = true ∧ s.ptpPort port = true ∧ s.r TMK.PROFILE ≠ 0) ∧
    (∃ (port : Fin 12) (s : State) (t1 : Nat), s.islandOn .time = true ∧ s.enabled 8 = true ∧ s.tmk.pdReq.lookup port.val = some t1) ∧
    (∃ (port : Fin 12) (out : Fin 12) (s : State), s.islandOn .time = true ∧ s.enabled 8 = true ∧ s.on TMK.GM_ROLE = false ∧ s.ptpPort port = true ∧
      s.ptpPort out = true) ∧
    (∃ (s : State), s.islandOn .time = true ∧ s.enabled 8 = false) ∧
    (∃ (port : Fin 12) (s : State), s.islandOn .time = true ∧ s.r TMK.GM_MODE = 0 ∧ sdel s.tmk.foreign port.val = []) ∧
    (∃ (t : Nat) (r : Requester) (o : Fin 4) (s : State),
      let start := (s.r TMK.START_SEC_LO 0 o + 2 ^ 32 * s.r TMK.START_SEC_HI 0 o) * 1000000000 + s.r TMK.START_NS 0 o; Takes s r ⟨8, 0⟩ ∧
      s.r TMK.OUT_MODE 0 o = 1 ∧ start < (s.tick t).now + 1000) ∧
    (∃ (t : Nat) (r : Requester) (o : Fin 4) (s : State),
      let start := (s.r TMK.START_SEC_LO 0 o + 2 ^ 32 * s.r TMK.START_SEC_HI 0 o) * 1000000000 + s.r TMK.START_NS 0 o; Takes s r ⟨8, 0⟩ ∧
      s.r TMK.OUT_MODE 0 o = 1 ∧ (s.tick t).now + 1000 ≤ start) ∧
    (∃ (t : Nat) (o : Fin 4) (s : State), s.islandOn .time = true ∧ s.r TMK.OUT_STATE 0 o = 1 ∧ (s.outX o).next ≤ (s.tick t).now ∧ s.enabled 8 = true) ∧
    (∃ (t : Nat) (o : Fin 4) (s : State), s.islandOn .time = true ∧ (s.outX o).high = true ∧ (s.outX o).endAt ≤ (s.tick t).now) ∧
    (∃ (o : Fin 4) (s : State), s.islandOn .time = true ∧ s.enabled 8 = true ∧ s.on TMK.CAP_EN 0 o = true ∧ s.r TMK.CAP_EDGE 0 o = 2 ∧
      (s.capQ o).length < 16) ∧
    (∃ (o : Fin 4) (s : State), s.islandOn .time = true ∧ s.enabled 8 = true ∧ s.on TMK.CAP_EN 0 o = true ∧ s.r TMK.CAP_EDGE 0 o = 2 ∧
      16 ≤ (s.capQ o).length) :=
  ⟨⟨.keeper, 0,
     tm (fun x => { x with caps := [(0, [c0]), (3, [c0,c0])], outs := [(0, { next := 5000000000, width := 100, mode := 1 }), (3, { high := true, endAt := 5000000000, mode := 1})] }) (ws en [(TMK.OUT_STATE,0,0,1),(TMK.OUT_STATE,0,3,2),(TMK.OUT_MODE,0,0,1),(TMK.START_SEC_LO,0,0,7),(TMK.CAP_EN,0,0,1),(TMK.CAP_EDGE,0,0,2)]),
     c0, [], by decide +kernel⟩,
   ⟨0, ws en [(TMK.GM_ROLE,0,0,1),(TMK.ONE_STEP,0,0,0)], { prio1 := 1 }, by decide +kernel⟩,
   ⟨0, ws en [(TMK.GM_ROLE,0,0,1),(TMK.ONE_STEP,0,0,0)], {}, by decide +kernel⟩,
   ⟨0, ws en [(TMK.GM_ROLE,0,0,1),(TMK.ONE_STEP,0,0,0)], by decide +kernel⟩,
   ⟨0, 0,
     tm (fun x => { x with dreq := [(0, 7, 3), (11, 7, 100)], pdReq := [(0, 5), (11, 3)], linkDelay := [(0, 7)], foreign := [(0, {})] }) (ws en [(TMK.PROFILE,0,0,1)]),
     true, 0, 0, 3, 7, by decide +kernel⟩,
   ⟨0, 0, tm (fun x => { x with dreq := [(0, 7, 100)] }) (ws en [(TMK.GM_ROLE,0,0,1),(TMK.DREQ_MAX,0,0,3)]), false, 0, 0, 100, 7, by decide +kernel⟩,
   ⟨0, 0,
     ws (tm (fun x => { x with copies := [(0, 0, 0, 7000000000), (5, 1, 1, 7000000000)] }) en) [(TMK.GM_ROLE,0,0,1), (ESW.RED_MODE,0,0,1), (ESW.RED_MODE,0,5,1)],
     0, 0, by decide +kernel⟩,
   ⟨0,
     tm (fun x => { x with caps := [(0, List.replicate 16 c0), (3, List.replicate 40 c0)], dreq := [(0, 5, 3), (11, 6, 100)], pdReq := [(0, 5), (11, 3)], linkDelay := [(0, 7)], foreign := [(0, {})] }) (ws en [(TMK.CAP_EN,0,0,1),(TMK.CAP_EDGE,0,0,2),(TMK.OUT_MODE,0,0,1),(TMK.PROFILE,0,0,1), (TMK.GM_ROLE,0,0,1)]),
     by decide +kernel⟩,
   ⟨0,
     tm (fun x => { x with caps := [(0, List.replicate 16 c0), (3, List.replicate 40 c0)], dreq := [(0, 5, 3), (11, 6, 100)], pdReq := [(0, 5), (11, 3)], linkDelay := [(0, 7)], foreign := [(0, {})] }) (ws en [(TMK.CAP_EN,0,0,1),(TMK.CAP_EDGE,0,0,2),(TMK.OUT_MODE,0,0,1),(TMK.PROFILE,0,0,1), (TMK.GM_ROLE,0,0,1)]),
     5, by decide +kernel⟩,
   ⟨0, 0, en, by decide +kernel⟩,
   ⟨B, by decide +kernel⟩,
   ⟨0, ws en [(TMK.GM_ROLE,0,0,1),(TMK.ONE_STEP,0,0,0)], by decide +kernel⟩,
   ⟨0, .keeper, 0,
     tm (fun x => { x with caps := [(0, List.replicate 16 c0), (3, List.replicate 40 c0)], dreq := [(0, 5, 3), (11, 6, 100)], pdReq := [(0, 5), (11, 3)], linkDelay := [(0, 7)], foreign := [(0, {})] }) (ws en [(TMK.CAP_EN,0,0,1),(TMK.CAP_EDGE,0,0,2),(TMK.OUT_MODE,0,0,1),(TMK.PROFILE,0,0,1), (TMK.GM_ROLE,0,0,1)]),
     by unfold Takes; decide +kernel⟩,
   ⟨0, .keeper, 0,
     tm (fun x => { x with caps := [(0, [c0]), (3, [c0,c0])], outs := [(0, { next := 5000000000, width := 100, mode := 1 }), (3, { high := true, endAt := 5000000000, mode := 1})] }) (ws en [(TMK.OUT_STATE,0,0,1),(TMK.OUT_STATE,0,3,2),(TMK.OUT_MODE,0,0,1),(TMK.START_SEC_LO,0,0,7),(TMK.CAP_EN,0,0,1),(TMK.CAP_EDGE,0,0,2)]),
     by unfold Takes; decide +kernel⟩,
   ⟨0, 0,
     tm (fun x => { x with caps := [(0, [c0]), (3, [c0,c0])], outs := [(0, { next := 5000000000, width := 100, mode := 1 }), (3, { high := true, endAt := 5000000000, mode := 1})] }) (ws en [(TMK.OUT_STATE,0,0,1),(TMK.OUT_STATE,0,3,2),(TMK.OUT_MODE,0,0,1),(TMK.START_SEC_LO,0,0,7),(TMK.CAP_EN,0,0,1),(TMK.CAP_EDGE,0,0,2)]),
     by decide +kernel⟩,
   ⟨0, 3,
     tm (fun x => { x with caps := [(0, [c0]), (3, [c0,c0])], outs := [(0, { next := 5000000000, width := 100, mode := 1 }), (3, { high := true, endAt := 5000000000, mode := 1})] }) (ws en [(TMK.OUT_STATE,0,0,1),(TMK.OUT_STATE,0,3,2),(TMK.OUT_MODE,0,0,1),(TMK.START_SEC_LO,0,0,7),(TMK.CAP_EN,0,0,1),(TMK.CAP_EDGE,0,0,2)]),
     by decide +kernel⟩,
   ⟨0,
     tm (fun x => { x with caps := [(0, [c0]), (3, [c0,c0])], outs := [(0, { next := 5000000000, width := 100, mode := 1 }), (3, { high := true, endAt := 5000000000, mode := 1})] }) (ws en [(TMK.OUT_STATE,0,0,1),(TMK.OUT_STATE,0,3,2),(TMK.OUT_MODE,0,0,1),(TMK.START_SEC_LO,0,0,7),(TMK.CAP_EN,0,0,1),(TMK.CAP_EDGE,0,0,2)]),
     by decide +kernel⟩,
   ⟨0,
     tm (fun x => { x with caps := [(0, List.replicate 16 c0), (3, List.replicate 40 c0)], dreq := [(0, 5, 3), (11, 6, 100)], pdReq := [(0, 5), (11, 3)], linkDelay := [(0, 7)], foreign := [(0, {})] }) (ws en [(TMK.CAP_EN,0,0,1),(TMK.CAP_EDGE,0,0,2),(TMK.OUT_MODE,0,0,1),(TMK.PROFILE,0,0,1), (TMK.GM_ROLE,0,0,1)]),
     by decide +kernel⟩⟩

end TimeServices

namespace Calendar

def B : State := own [⟨9, 0⟩]
def c1 : Cal := { sec := 0x59, min := 0x59, hour := 0x23, day := 0x28, month := 2, year := 0x24, cent := 0x20 }
def rt (f : RtcX → RtcX) (s : State) : State := { s with rtc := f s.rtc }
def en : State := ens B [(9,0)]


/-- States and operands that meet the hypotheses of Calendar. -/
theorem witness :
    (∃ (t : Nat) (s : State), s.rtc.commitAt ≠ some (s.tick t).up ∧ s.r RTC.FROZEN = 0) ∧
    (∃ (t : Nat) (s : State), s.rtc.commitAt ≠ some (s.tick t).up ∧ s.r RTC.FROZEN = 1) ∧
    (∃ (r : Requester) (s : State), s.reaches r ⟨9, 0⟩ = true ∧ s.r RTC.FROZEN = 0) ∧
    (∃ (r : Requester) (s : State) (c : Cal), s.reaches r ⟨9, 0⟩ = true ∧ s.r RTC.FROZEN = 1 ∧ s.rtc.shadow = some c) ∧
    (∃ (t : Nat) (s : State), s.r RTC.FROZEN = 1 ∧ s.r RTC.HELD_TICK = 0 ∧ s.rtc.freezeAt + 1000000000 ≤ (s.tick t).up) ∧
    (∃ (r : Requester) (s : State) (v : Word), Takes s r ⟨9, 0⟩ ∧ s.r RTC.STAGE_OPEN = 1 ∧ bcdClamp 20 23 (v.toNat % 256) = v.toNat % 256 ∧
      ofBcd (s.r RTC.STG_DAY) ≤ monthDays (100 * ofBcd (v.toNat % 256) + ofBcd (s.r RTC.STG_YEAR)) (ofBcd (s.r RTC.STG_MONTH))) ∧
    (∃ (t : Nat) (s : State), let utc := (s.tick t).now / 1000000000 - s.r TMK.UTC_OFFSET; s.aon RTC.AUTO_SYNC ≠ 0 ∧ s.r TMK.STATE = 2 ∧
      s.on TMK.LEAP61 = false ∧ ((s.tick t).now % 1000000000 ≠ 0 ∨ s.rtc.syncHour = some (utc / 3600))) ∧
    (∃ (t : Nat) (s : State), let utc := (s.tick t).now / 1000000000 - s.r TMK.UTC_OFFSET; s.aon RTC.AUTO_SYNC ≠ 0 ∧ s.r TMK.STATE = 2 ∧
      s.on TMK.LEAP61 = false ∧ (s.tick t).now % 1000000000 = 0 ∧ s.rtc.syncHour ≠ some (utc / 3600) ∧ (s.r RTC.STAGE_OPEN = 1 ∨ s.r RTC.FROZEN = 1)) ∧
    (∃ (t : Nat) (s : State), let utc := (s.tick t).now / 1000000000 - s.r TMK.UTC_OFFSET; s.aon RTC.AUTO_SYNC ≠ 0 ∧ s.r TMK.STATE = 2 ∧
      s.on TMK.LEAP61 = false ∧ (s.tick t).now % 1000000000 = 0 ∧ s.rtc.syncHour ≠ some (utc / 3600) ∧ s.r RTC.STAGE_OPEN = 0 ∧ s.r RTC.FROZEN = 0) ∧
    (∃ (s : State) (mv : Nat), s.pwr.st = .run ∧ mv < 1900) ∧
    (∃ (s : State) (mv : Nat), s.pwr.st = .run ∧ mv = 1900) ∧
    (∃ (s : State) (mv : Nat), s.pwr.st = .run ∧ 1900 < mv ∧ 9 ≤ s.rtc.vbakOk) ∧
    (∃ (s : State), s.pwr.st = .keep) :=
  ⟨⟨0, en, by decide +kernel⟩,
   ⟨0, rt (fun x => { x with cal := c1, shadow := some c1, freezeAt := 6000000000, vbakOk := 8 }) (ws en [(RTC.FROZEN,0,0,1),(RTC.VBAK_LOW,0,0,1)]),
     by decide +kernel⟩,
   ⟨.keeper, en, by decide +kernel⟩,
   ⟨.keeper,
     rt (fun x => { x with cal := c1, shadow := some c1, freezeAt := 6000000000, vbakOk := 8 }) (ws en [(RTC.FROZEN,0,0,1),(RTC.VBAK_LOW,0,0,1)]), c1,
     by decide +kernel⟩,
   ⟨0, rt (fun x => { x with cal := c1, shadow := some c1, freezeAt := 6000000000, vbakOk := 8 }) (ws en [(RTC.FROZEN,0,0,1),(RTC.VBAK_LOW,0,0,1)]),
     by decide +kernel⟩,
   ⟨.keeper, ws en [(RTC.STAGE_OPEN,0,0,1),(RTC.STG_MONTH,0,0,2),(RTC.STG_DAY,0,0,0x29),(RTC.STG_YEAR,0,0,0x24)], 0x20, by unfold Takes; decide +kernel⟩,
   ⟨5000100000, { ws en [(TMK.STATE,0,0,2)] with aonRegs := [(RTC.AUTO_SYNC.key 0 0, 1)], pwr := { en.pwr with st := .keep } }, by decide +kernel⟩,
   ⟨0, { ws en [(TMK.STATE,0,0,2),(RTC.FROZEN,0,0,1)] with aonRegs := [(RTC.AUTO_SYNC.key 0 0, 1)], pwr := { en.pwr with st := .keep } },
     by decide +kernel⟩,
   ⟨0, { ws en [(TMK.STATE,0,0,2)] with aonRegs := [(RTC.AUTO_SYNC.key 0 0, 1)], pwr := { en.pwr with st := .keep } }, by decide +kernel⟩,
   ⟨en, 0, by decide +kernel⟩,
   ⟨en, 1900, by decide +kernel⟩,
   ⟨rt (fun x => { x with cal := c1, freezeAt := 6000000000, vbakOk := 9 }) en, 5000100000, by decide +kernel⟩,
   ⟨{ ws en [(TMK.STATE,0,0,2)] with aonRegs := [(RTC.AUTO_SYNC.key 0 0, 1)], pwr := { en.pwr with st := .keep } }, by decide +kernel⟩⟩

end Calendar

namespace CanChannels

def B : State := own [⟨24, 0⟩]
def cx (x : CanX) (s : State) : State := { s with can := [(0,x),(15,x)] }
def en : State := ws (ens B [(24,0),(24,15)]) [(CFD.MODE,15,0,1)]
def f2 (l : List (Fld × Nat × Nat × Nat)) (s : State) : State := ws s (l.map (fun x => (x.1, 0, x.2.2.1, x.2.2.2)) ++ l.map (fun x => (x.1, 15, x.2.2.1, x.2.2.2)))


/-- States and operands that meet the hypotheses of CanChannels. -/
theorem witness :
    (∃ (r : Requester) (ch : Fin 16) (s : State) (v : Word),
      let nom := s.r CFD.NBRP ch * (1 + s.r CFD.NTSEG1 ch + s.r CFD.NTSEG2 ch); let dat := s.r CFD.DBRP ch * (1 + s.r CFD.DTSEG1 ch + s.r CFD.DTSEG2 ch); Takes s r ⟨24,
      ch⟩ ∧ s.r CFD.MODE ch = 0 ∧ v.toNat % 4 ≠ 0 ∧ s.busOff ch = false ∧ (nom < 200 ∨ dat < 25 ∨ nom < dat)) ∧
    (∃ (r : Requester) (ch : Fin 16) (s : State) (v : Word),
      let nom := s.r CFD.NBRP ch * (1 + s.r CFD.NTSEG1 ch + s.r CFD.NTSEG2 ch); let dat := s.r CFD.DBRP ch * (1 + s.r CFD.DTSEG1 ch + s.r CFD.DTSEG2 ch); Takes s r ⟨24,
      ch⟩ ∧ s.r CFD.MODE ch = 0 ∧ v.toNat % 4 ≠ 0 ∧ s.busOff ch = false ∧ 200 ≤ nom ∧ 25 ≤ dat ∧ dat ≤ nom ∧ s.enabled 24 ch = true ∧
      (s.canX ch).owed = false) ∧
    (∃ (r : Requester) (ch : Fin 16) (s : State), Takes s r ⟨24, ch⟩ ∧ (s.canX ch).rxq.length ≤ 33) ∧
    (∃ (r : Requester) (ch : Fin 16) (s : State), Takes s r ⟨24, ch⟩ ∧ s.r CFD.ERR_STATE ch = 2) ∧
    (∃ (r : Requester) (ch : Fin 16) (s : State), Takes s r ⟨24, ch⟩ ∧ s.r CFD.ERR_STATE ch ≠ 2) ∧
    (∃ (t : Nat) (ch : Fin 16) (s : State), s.islandOn .field = true ∧ (s.canX ch).waitAt + s.nomNs ch 11 ≤ (s.tick t).up) ∧
    (∃ (ch : Fin 16) (s : State) (b : Fin 3), s.islandOn .field = true ∧ s.canSends ch = true ∧ (s.canX ch).sending = none ∧ s.arbWinner ch = some b.val) ∧
    (∃ (ch : Fin 16) (s : State) (b : Fin 3) (delay : Option Nat), s.islandOn .field = true ∧ (s.canX ch).sending = some b.val ∧ delay.getD 0 ≤ 127 ∧
      s.r CFD.MODE ch ≠ 3) ∧
    (∃ (ch : Fin 16) (s : State) (b : Fin 3) (delay : Option Nat), s.islandOn .field = true ∧ (s.canX ch).sending = some b.val ∧ delay.getD 0 ≤ 127 ∧
      (s.canX ch).cancels.getLsbD b = false ∧ s.on CFD.ONE_SHOT ch = true) ∧
    (∃ (ch : Fin 16) (s : State) (b : Fin 3) (delay : Option Nat) (d : Nat), s.islandOn .field = true ∧ (s.canX ch).sending = some b.val ∧
      delay = some d ∧ s.on CFD.TDC_EN ch = true ∧ s.on CFD.FDF ch b = true ∧ d ≤ 127) ∧
    (∃ (ch : Fin 16) (s : State) (b : Fin 3) (delay : Option Nat) (d : Nat), s.islandOn .field = true ∧ (s.canX ch).sending = some b.val ∧
      delay = some d ∧ s.on CFD.TDC_EN ch = true ∧ s.on CFD.FDF ch b = true ∧ 127 < d) ∧
    (∃ (ch : Fin 16) (s : State) (f : CanFrame) (i : Nat), s.islandOn .field = true ∧ s.onBus ch = true ∧ s.r CFD.MODE ch ≠ 3 ∧
      s.canFilter ch f = some i ∧ (s.canX ch).rxq.length < 32) ∧
    (∃ (ch : Fin 16) (s : State) (f : CanFrame) (i : Nat), s.islandOn .field = true ∧ s.onBus ch = true ∧ s.r CFD.MODE ch ≠ 3 ∧
      s.canFilter ch f = some i ∧ 32 ≤ (s.canX ch).rxq.length) ∧
    (∃ (ch : Fin 16) (s : State) (f : CanFrame), s.islandOn .field = true ∧ s.onBus ch = true ∧ s.r CFD.MODE ch ≠ 3 ∧ s.canFilter ch f = none) ∧
    (∃ (ch : Fin 16) (s : State), s.islandOn .field = true ∧ s.onBus ch = true ∧ s.r CFD.MODE ch = 1 ∧ s.isStandby = false) ∧
    (∃ (t : Nat) (ch : Fin 16) (s : State), s.islandOn .field = true ∧ s.r CFD.ERR_STATE ch = 3 ∧ (s.canX ch).waitAt + s.nomNs ch 1408 ≤ (s.tick t).up) :=
  ⟨⟨.keeper, 0, ws en [(CFD.NBRP,0,0,1)], 1, by unfold Takes; decide +kernel⟩,
   ⟨.keeper, 0, en, 1, by unfold Takes; decide +kernel⟩,
   ⟨.keeper, 0, en, by unfold Takes; decide +kernel⟩,
   ⟨.keeper, 0, cx { owed := true } (f2 [(CFD.ERR_STATE,0,0,2)] en), by unfold Takes; decide +kernel⟩,
   ⟨.keeper, 0, en, by unfold Takes; decide +kernel⟩,
   ⟨0, 0, en, by decide +kernel⟩,
   ⟨0, f2 [(CFD.MODE,0,0,1),(CFD.TX_STATE,0,0,1),(CFD.TX_STATE,0,1,1),(CFD.TX_STATE,0,2,2)] en, 0, by decide +kernel⟩,
   ⟨0, cx { sending := some 2, sofTs := 99 } (f2 [(CFD.MODE,0,0,1),(CFD.TX_STATE,0,2,2),(CFD.TEC,0,0,130), (CFD.ONE_SHOT,0,0,1)] en), 2, none,
     by decide +kernel⟩,
   ⟨0, cx { sending := some 2, sofTs := 99 } (f2 [(CFD.MODE,0,0,1),(CFD.TX_STATE,0,2,2),(CFD.TEC,0,0,130), (CFD.ONE_SHOT,0,0,1)] en), 2, none,
     by decide +kernel⟩,
   ⟨0, f2 [(CFD.MODE,0,0,1),(CFD.TDC_EN,0,0,1),(CFD.FDF,0,1,1)] (cx { sending := some 1 } en), 1, some 5, 5, by decide +kernel⟩,
   ⟨0, f2 [(CFD.MODE,0,0,1),(CFD.TDC_EN,0,0,1),(CFD.FDF,0,1,1)] (cx { sending := some 1 } en), 1, some 200, 200, by decide +kernel⟩,
   ⟨15, en, {}, 0, by decide +kernel⟩,
   ⟨0, cx { rxq := List.replicate 32 {} } (f2 [(CFD.MODE,0,0,1)] en), {}, 0, by decide +kernel⟩,
   ⟨0, f2 [(CFD.MODE,0,0,1),(CFD.F_EN,0,0,1),(CFD.F_EN,0,5,1)] en, { ident := 0x1FFFFFFF, ide := true, dlc := 15, fdf := true }, by decide +kernel⟩,
   ⟨15, en, by decide +kernel⟩,
   ⟨0, 0, cx { rxq := List.replicate 5 {} } (f2 [(CFD.MODE,0,0,2),(CFD.ERR_STATE,0,0,3)] en), by decide +kernel⟩⟩

end CanChannels

namespace SerialTransactions

def B : State := own [⟨25, 0⟩, ⟨25, 7⟩]
def sx (x : SerX) (s : State) : State := { s with ser := [(0, x)] }
def en : State := ens B [(25, 0)]


/-- States and operands that meet the hypotheses of SerialTransactions. -/
theorem witness :
    (∃ (r : Requester) (ch : Fin 8) (s : State), Takes s r ⟨25, ch⟩ ∧ (s.r SER.STATE ch = 0 ∨ s.r SER.STATE ch = 5) ∧ s.r SER.MODE ch ≠ 0 ∧
      s.enabled 25 ch = true ∧ s.isStandby = false) ∧
    (∃ (r : Requester) (ch : Fin 8) (s : State), Takes s r ⟨25, ch⟩ ∧ (s.r SER.STATE ch = 0 ∨ s.r SER.STATE ch = 5) ∧ s.r SER.MODE ch = 0) ∧
    (∃ (r : Requester) (ch : Fin 8) (s : State), Takes s r ⟨25, ch⟩ ∧ (s.r SER.STATE ch = 1 ∨ s.r SER.STATE ch = 3)) ∧
    (∃ (r : Requester) (ch : Fin 8) (s : State), Takes s r ⟨25, ch⟩ ∧ (s.r SER.STATE ch = 2 ∨ s.r SER.STATE ch = 4)) ∧
    (∃ (t : Nat) (ch : Fin 8) (s : State), s.islandOn .field = true ∧ s.r SER.STATE ch = 1 ∧ (s.serX ch).t0 + s.endGap ch ≤ (s.tick t).up) ∧
    (∃ (t : Nat) (ch : Fin 8) (s : State), s.islandOn .field = true ∧ s.r SER.STATE ch = 2 ∧ (s.serX ch).abort = false ∧
      (s.serX ch).t0 + s.bitNs ch (1 + (s.serX ch).sent.length * s.charBits ch) ≤ (s.tick t).up) ∧
    (∃ (ch : Fin 8) (s : State), s.islandOn .field = true ∧ s.r SER.STATE ch = 2 ∧ (s.serX ch).abort = true) ∧
    (∃ (t : Nat) (ch : Fin 8) (s : State), s.islandOn .field = true ∧ s.r SER.STATE ch = 3 ∧ s.r SER.EXPECT ch = 0 ∧
      (s.serX ch).t0 + 1000000 * s.r SER.TURN_MS ch ≤ (s.tick t).up) ∧
    (∃ (t : Nat) (ch : Fin 8) (s : State), s.islandOn .field = true ∧ s.r SER.STATE ch = 3 ∧ s.r SER.EXPECT ch = 1 ∧
      (s.serX ch).t0 + 1000000 * s.r SER.RESP_TMO_MS ch ≤ (s.tick t).up) ∧
    (∃ (t : Nat) (ch : Fin 8) (s : State), s.islandOn .field = true ∧ (s.tick t).serDeaf ch = true) ∧
    (∃ (t : Nat) (ch : Fin 8) (s : State), s.islandOn .field = true ∧ (s.tick t).serDeaf ch = false ∧ s.r SER.STATE ch = 3 ∧ s.r SER.EXPECT ch = 1 ∧
      s.r SER.MODE ch = 1 ∧ (s.serX ch).rx = [] ∧ (s.serX ch).abort = false) ∧
    (∃ (t : Nat) (ch : Fin 8) (s : State), s.islandOn .field = true ∧ (s.tick t).serDeaf ch = false ∧ s.r SER.STATE ch = 4 ∧ 512 ≤ (s.serX ch).rx.length ∧
      (s.serX ch).err = 0) ∧
    (∃ (t : Nat) (ch : Fin 8) (s : State), s.islandOn .field = true ∧ (s.tick t).serDeaf ch = false ∧ s.r SER.STATE ch = 0) ∧
    (∃ (t : Nat) (ch : Fin 8) (s : State), s.islandOn .field = true ∧ s.r SER.STATE ch = 4 ∧ (s.serX ch).lastChar + s.endGap ch ≤ (s.tick t).up ∧
      (s.serX ch).err = 0 ∧ (s.serX ch).abort = false ∧ s.r SER.MODE ch = 1) ∧
    (∃ (t : Nat) (ch : Fin 8) (s : State), let n := (s.serX ch).rx.length - 2; s.islandOn .field = true ∧ s.r SER.STATE ch = 4 ∧
      (s.serX ch).lastChar + s.endGap ch ≤ (s.tick t).up ∧ (s.serX ch).err = 0 ∧ (s.serX ch).abort = false ∧ s.r SER.MODE ch = 2 ∧
      3 ≤ (s.serX ch).rx.length ∧ crc16 ((s.serX ch).rx.take n) ≠ leVal ((s.serX ch).rx.drop n)) ∧
    (∃ (t : Nat) (ch : Fin 8) (s : State), let n := (s.serX ch).rx.length - 2; s.islandOn .field = true ∧ s.r SER.STATE ch = 4 ∧
      (s.serX ch).lastChar + s.endGap ch ≤ (s.tick t).up ∧ (s.serX ch).err = 0 ∧ (s.serX ch).abort = false ∧ s.r SER.MODE ch = 2 ∧
      3 ≤ (s.serX ch).rx.length ∧ crc16 ((s.serX ch).rx.take n) = leVal ((s.serX ch).rx.drop n) ∧ (s.serX ch).rx.head? = (s.txBytes ch).head?) :=
  ⟨⟨.keeper, 0, ws en [(SER.MODE, 0, 0, 1)], by unfold Takes; decide +kernel⟩,
   ⟨.keeper, 7, ws en [(SER.MODE, 0, 0, 1)], by unfold Takes; decide +kernel⟩,
   ⟨.keeper, 0, ws en [(SER.STATE, 0, 0, 1)], by unfold Takes; decide +kernel⟩,
   ⟨.keeper, 0, ws en [(SER.STATE, 0, 0, 2)], by unfold Takes; decide +kernel⟩,
   ⟨0, 0, ws en [(SER.STATE, 0, 0, 1)], by decide +kernel⟩,
   ⟨0, 0, ws en [(SER.STATE, 0, 0, 2)], by decide +kernel⟩,
   ⟨0, ws (sx { abort := true } en) [(SER.STATE, 0, 0, 2)], by decide +kernel⟩,
   ⟨0, 0, ws en [(SER.STATE, 0, 0, 3), (SER.EXPECT, 0, 0, 0)], by decide +kernel⟩,
   ⟨0, 0, ws en [(SER.STATE, 0, 0, 3), (SER.EXPECT, 0, 0, 1), (SER.MODE, 0, 0, 1)], by decide +kernel⟩,
   ⟨0, 0, ws en [(SER.STATE, 0, 0, 2)], by decide +kernel⟩,
   ⟨0, 0, ws en [(SER.STATE, 0, 0, 3), (SER.EXPECT, 0, 0, 1), (SER.MODE, 0, 0, 1)], by decide +kernel⟩,
   ⟨0, 0, ws (sx { rx := List.replicate 512 0 } en) [(SER.STATE, 0, 0, 4)], by decide +kernel⟩,
   ⟨0, 0, ws en [(SER.MODE, 0, 0, 1)], by decide +kernel⟩,
   ⟨0, 0, ws (sx { rx := [1, 2, 3] } en) [(SER.STATE, 0, 0, 4), (SER.MODE, 0, 0, 1)], by decide +kernel⟩,
   ⟨0, 0, ws (sx { rx := [1, 2, 3] } en) [(SER.STATE, 0, 0, 4), (SER.MODE, 0, 0, 2)], by decide +kernel⟩,
   ⟨0, 0, ws (sx { rx := [0, 0xBF, 0x40] } en) [(SER.STATE, 0, 0, 4), (SER.MODE, 0, 0, 2), (SER.TX_LEN, 0, 0, 1)], by decide +kernel⟩⟩

end SerialTransactions

namespace Switch

def B : State := own [⟨26, 0⟩, ⟨27, 0⟩]
def e1 : Fdb := { mac := 5, fid := 1, ports := 3, static := false, seen := 7 }
def e2 : Fdb := { mac := 1, fid := 1, ports := 5, static := true, seen := 7, way := 1, slot := 9 }
def fr : EthFrame := { dst := 5, src := 0x2 , len := 64}
def es (f : EswX → EswX) (s : State) : State := { s with esw := f s.esw }
def en : State := ws (ens B ((27,0) :: (List.range 12).map (fun i => (26,i)))) ([0,1,2,3,11].map (fun p => (ETH.LINK_UP,p,0,1)) ++ [0,1,2,3,11].map (fun p => (ETH.MODE,p,0,1)))


/-- States and operands that meet the hypotheses of Switch. -/
theorem witness :
    (∃ (port : Fin 12) (s : State) (f : EthFrame), s.islandOn .net = true ∧ s.portUp port = true ∧ f.fcsOk = true ∧ 64 ≤ f.len ∧
      f.len ≤ s.r ETH.MAX_FRAME port ∧ f.pause = false ∧ s.enabled 27 = true ∧ f.redSeq = none ∧ isPtp f = false ∧ f.etype ≠ s.r SXE.ETHERTYPE ∧
      s.r ESW.RED_MODE 0 (port / 2) ≠ 2 ∧ isMulticast f.src = false ∧ fdbFind s.esw.fdb f.src (f.vid.getD (s.r ETH.PVID port)) = none ∧
      s.on ESW.TABLE_FULL = false ∧ s.esw.learnQ.length < 17) ∧
    (∃ (port : Fin 12) (s : State) (q : Nat × Nat × EthFrame), s.islandOn .net = true ∧ s.portUp port = true ∧
      (s.onWire port = some q ∨ (s.onWire port = none ∧ s.nextFrame port = some q))) ∧
    (∃ (s : State) (mac : Nat) (fid : Nat) (p : Nat) (q : List (Nat × Nat × Nat)), s.islandOn .net = true ∧ s.esw.learnQ = (mac, fid, p) :: q ∧
      fdbFind s.esw.fdb mac fid = none ∧ s.on ESW.TABLE_FULL = true) ∧
    (∃ (s : State) (mac : Nat) (fid : Nat) (p : Nat) (q : List (Nat × Nat × Nat)) (w : Nat), s.islandOn .net = true ∧ s.esw.learnQ = (mac, fid, p) :: q ∧
      fdbFind s.esw.fdb mac fid = none ∧ s.on ESW.TABLE_FULL = false ∧ fdbEmptyWay s.esw.hashKey s.esw.fdb { mac := mac, fid := fid } = some w) ∧
    (∃ (t : Nat) (s : State) (mac : BitVec 48) (fid : BitVec 12) (e : Fdb), s.islandOn .net = true ∧ fdbFind s.esw.fdb mac.toNat fid.toNat = some e ∧
      e.static = false ∧ e.seen + 1000000000 * s.r ESW.AGE_S ≤ (s.tick t).up) ∧
    (∃ (s : State) (mac : BitVec 48) (fid : BitVec 12) (e : Fdb), s.islandOn .net = true ∧ fdbFind s.esw.fdb mac.toNat fid.toNat = some e ∧
      e.static = true) ∧
    (∃ (r : Requester) (s : State), let tab := fdbDrop s.esw.fdb s.eMac (s.r ESW.E_FID); Takes s r ⟨27, 0⟩ ∧ 4096 ≤ (tab.filter (·.static)).length) ∧
    (∃ (r : Requester) (s : State) (w : Nat), let tab := fdbDrop s.esw.fdb s.eMac (s.r ESW.E_FID); Takes s r ⟨27, 0⟩ ∧
      (tab.filter (·.static)).length < 4096 ∧ fdbEmptyWay s.esw.hashKey tab { mac := s.eMac, fid := s.r ESW.E_FID } = some w) ∧
    (∃ (r : Requester) (s : State) (e : Fdb), Takes s r ⟨27, 0⟩ ∧ fdbFind s.esw.fdb s.eMac (s.r ESW.E_FID) = some e ∧ e.static = true) ∧
    (∃ (r : Requester) (s : State) (e : Fdb), Takes s r ⟨27, 0⟩ ∧ fdbFind s.esw.fdb s.eMac (s.r ESW.E_FID) = some e ∧ e.static = false) ∧
    (∃ (t : Nat) (pair : Fin 6) (s : State), s.islandOn .net = true ∧ s.enabled 27 = true ∧ s.r ESW.RED_MODE 0 pair ≠ 0 ∧ ((∀ a,
      s.esw.lifeAt.lookup pair.val = some a → a + 1000000 * s.r ESW.LIFE_MS 0 pair ≤ (s.tick t).up))) ∧
    (∃ (t : Nat) (pair : Fin 6) (s : State) (lanB : Bool), s.islandOn .net = true ∧ s.enabled 27 = true ∧ s.r ESW.RED_MODE 0 pair ≠ 0 ∧
      sget 0 s.esw.heard (2 * pair.val + lanB.toNat) + 3000000 * s.r ESW.LIFE_MS 0 pair ≤ (s.tick t).up ∧ s.evtEn 27 0 1 = true) ∧
    (∃ (t : Nat) (pair : Fin 6) (s : State) (src : BitVec 48) (sq : BitVec 16) (d : Dup), s.islandOn .net = true ∧ s.esw.dups = [d] ∧ d.pair = pair ∧
      d.src = src.toNat ∧ d.seq = sq.toNat ∧ d.t + 400000000 ≤ (s.tick t).up) ∧
    (∃ (r : Requester) (port : Fin 12) (s : State), Takes s r ⟨26, port⟩) :=
  ⟨⟨0, en, fr, by decide +kernel⟩,
   ⟨0,
     es (fun x => { x with fdb := [e1, e2], learnQ := [(5,1,0)], egress := [(11, 3, fr), (0,0,fr)], tokens := [(0, 50), (11, 7)], refillAt := [(0, 5000000000)], dups := [{ pair := 5, src := 5, seq := 5, t := 3, lanA := true }] }) en,
     (0,0,fr), by decide +kernel⟩,
   ⟨es (fun x => { x with learnQ := [(5,1,0),(7,1,3)], dups := [{ pair := 0, src := 1, seq := 1, t := 3, lanB := true }], sendSeq := [(0, 65535)], heard := [(0, 5000000000), (1, 7), (11,6)] }) (ws en [(ESW.TABLE_FULL,0,0,1),(ESW.RED_MODE,0,0,1),(ESW.RED_MODE,0,5,2), (ESW.E_FID,0,0,1),(ESW.E_MAC_LO,0,0,5)]),
     5, 1, 0, [(7,1,3)], by decide +kernel⟩,
   ⟨es (fun x => { x with learnQ := [(5,1,0),(7,1,3)], hashKey := 3 }) en, 5, 1, 0, [(7,1,3)], 0, by decide +kernel⟩,
   ⟨400000000000,
     es (fun x => { x with fdb := [e1, e2], learnQ := [(5,1,0)], egress := [(11, 3, fr), (0,0,fr)], tokens := [(0, 50), (11, 7)], refillAt := [(0, 5000000000)], dups := [{ pair := 5, src := 5, seq := 5, t := 3, lanA := true }] }) en,
     5, 1, e1, by decide +kernel⟩,
   ⟨es (fun x => { x with fdb := [e1, e2], learnQ := [(5,1,0)], egress := [(11, 3, fr), (0,0,fr)], tokens := [(0, 50), (11, 7)], refillAt := [(0, 5000000000)], dups := [{ pair := 5, src := 5, seq := 5, t := 3, lanA := true }] }) en,
     1, 1, e2, by decide +kernel⟩,
   ⟨.keeper, es (fun x => { x with fdb := (List.range 4096).map (fun k => { mac := 1000 + k, static := true, way := 4 }) }) en,
     by unfold Takes; decide +kernel⟩,
   ⟨.keeper, en, 0, by unfold Takes; decide +kernel⟩,
   ⟨.keeper, ws (es (fun x => { x with fdb := [e1, e2] }) en) [(ESW.E_FID,0,0,1),(ESW.E_MAC_LO,0,0,1)], e2, by unfold Takes; decide +kernel⟩,
   ⟨.keeper, ws (es (fun x => { x with fdb := [e1, e2] }) en) [(ESW.E_FID,0,0,1),(ESW.E_MAC_LO,0,0,5)], e1, by unfold Takes; decide +kernel⟩,
   ⟨0, 0,
     es (fun x => { x with learnQ := [(5,1,0),(7,1,3)], dups := [{ pair := 0, src := 1, seq := 1, t := 3, lanB := true }], sendSeq := [(0, 65535)], heard := [(0, 5000000000), (1, 7), (11,6)] }) (ws en [(ESW.TABLE_FULL,0,0,1),(ESW.RED_MODE,0,0,1),(ESW.RED_MODE,0,5,2), (ESW.E_FID,0,0,1),(ESW.E_MAC_LO,0,0,5)]),
     by decide +kernel⟩,
   ⟨0, 0, (ws (es (fun x => { x with heard := [] }) en) [(ESW.RED_MODE,0,0,1),(ESW.RED_MODE,0,5,2)]).hw HDR.EVT_EN ⟨27,0⟩ 7, true, by decide +kernel⟩,
   ⟨0, 5,
     es (fun x => { x with fdb := [e1, e2], learnQ := [(5,1,0)], egress := [(11, 3, fr), (0,0,fr)], tokens := [(0, 50), (11, 7)], refillAt := [(0, 5000000000)], dups := [{ pair := 5, src := 5, seq := 5, t := 3, lanA := true }] }) en,
     5, 5, { pair := 5, src := 5, seq := 5, t := 3, lanA := true }, by decide +kernel⟩,
   ⟨.keeper, 0, en, by unfold Takes; decide +kernel⟩⟩

end Switch

namespace FrameDiscards

def B : State := own []
def fr : EthFrame := { dst := 5, src := 0x2 , len := 64}
def en : State := ws (ens B ((27,0) :: (List.range 12).map (fun i => (26,i)))) ([0,1,2,3,11].map (fun p => (ETH.LINK_UP,p,0,1)) ++ [0,1,2,3,11].map (fun p => (ETH.MODE,p,0,1)))


/-- States and operands that meet the hypotheses of FrameDiscards. -/
theorem witness :
    (∃ (port : Fin 12) (f : EthFrame) (s : State), s.islandOn .net = true ∧ s.portUp port = true ∧
      (f.fcsOk = false ∨ f.len < 64 ∨ s.r ETH.MAX_FRAME port < f.len)) :=
  ⟨0, { fr with len := 63 }, en, by decide +kernel⟩

end FrameDiscards

namespace ChainUnits

def B : State := own [⟨11, 0⟩]
def fr : ChainFrame := { dst := 3, src := 2, cls := 1 }
def u1 : ChainUnit := { serial := 5, addr := 3 }
def dc (f : DchX → DchX) (s : State) : State := { s with dch := f s.dch }
def en : State := ws (ens B [(11,0),(8,0)]) [(DCH.UNIT_ADDR,0,0,1),(DCH.MASTER_ADDR,0,0,1),(DCH.UP_OK,0,0,1),(DCH.DOWN_OK,0,0,1)]


/-- States and operands that meet the hypotheses of ChainUnits. -/
theorem witness :
    (∃ (up : Bool) (s : State) (ok : Bool), let p := if up then 0 else 1; s.islandOn .net = true ∧ s.dch.helloAt = 0 ∧ s.chainPort p ≠ ok) ∧
    (∃ (up : Bool) (s : State), let p := if up then 0 else 1; s.islandOn .net = true ∧ s.dch.helloAt = 0 ∧ s.chainPort p = false) ∧
    (∃ (up : Bool) (s : State) (g : ChainFrame), let p := if up then 0 else 1; s.islandOn .net = true ∧ s.dch.helloAt = 0 ∧ s.enabled 11 = true ∧
      s.chainPort p = true ∧ g.crcOk = false) ∧
    (∃ (up : Bool) (s : State) (g : ChainFrame), let p := if up then 0 else 1; s.islandOn .net = true ∧ s.dch.helloAt = 0 ∧ s.enabled 11 = true ∧
      s.chainPort p = true ∧ g.crcOk = true ∧ g.src = s.r DCH.UNIT_ADDR ∧ g.dst = 0xFF ∧ s.on DCH.UP_OK = true ∧ s.on DCH.DOWN_OK = true) ∧
    (∃ (up : Bool) (s : State) (g : ChainFrame), let p := if up then 0 else 1; s.islandOn .net = true ∧ s.dch.helloAt = 0 ∧ s.enabled 11 = true ∧
      s.chainPort p = true ∧ g.crcOk = true ∧ g.src ≠ s.r DCH.UNIT_ADDR ∧ g.dst ≠ s.r DCH.UNIT_ADDR ∧ g.dst ≠ 0xFF ∧ g.hops ≤ 1) ∧
    (∃ (up : Bool) (s : State) (g : ChainFrame), let p := if up then 0 else 1; s.islandOn .net = true ∧ s.dch.helloAt = 0 ∧ s.enabled 11 = true ∧
      s.chainPort p = true ∧ g.crcOk = true ∧ g.src ≠ s.r DCH.UNIT_ADDR ∧ g.dst ≠ s.r DCH.UNIT_ADDR ∧ g.dst ≠ 0xFF ∧ 1 < g.hops ∧ g.cls ≠ 0 ∧
      s.chainPort (1 - p) = true) ∧
    (∃ (s : State) (x : ChainUnit), s.islandOn .net = true ∧ s.dch.helloAt = 0 ∧ s.enabled 11 = true ∧ x.serial ≠ s.serial) ∧
    (∃ (r : Requester) (s : State), s.islandOn .net = true ∧ s.dch.helloAt = 0 ∧ Takes s r dchPage ∧ s.on DCH.PAIR_EN = false ∧ ((∀ m ∈ s.dch.members,
      m.pairEn = false)) ∧ s.dch.claims = []) ∧
    (∃ (r : Requester) (s : State), s.islandOn .net = true ∧ s.dch.helloAt = 0 ∧ Takes s r dchPage ∧ s.on DCH.PAIR_EN = true) ∧
    (∃ (r : Requester) (s : State), let a := s.r DCH.CMD_ADDR; s.islandOn .net = true ∧ s.dch.helloAt = 0 ∧ Takes s r dchPage ∧ s.isMaster = true ∧
      a < 16 ∧ a ≠ 0 ∧ s.dch.table.any (fun p => p.1 == a) = true ∧ (s.r DCH.PRESENT).testBit a = false) ∧
    (∃ (r : Requester) (s : State),
      let a := s.r DCH.CMD_ADDR; let x := s.r DCH.CLAIM_SERIAL_LO + 2 ^ 32 * s.r DCH.CLAIM_SERIAL_HI; s.islandOn .net = true ∧ s.dch.helloAt = 0 ∧
      Takes s r dchPage ∧ s.isMaster = true ∧ a < 16 ∧ (s.r DCH.CLAIMABLE).testBit a = true ∧ x ∈ s.dch.claims) ∧
    (∃ (r : Requester) (s : State), let x := s.r DCH.CLAIM_SERIAL_LO + 2 ^ 32 * s.r DCH.CLAIM_SERIAL_HI; s.islandOn .net = true ∧ s.dch.helloAt = 0 ∧
      Takes s r dchPage ∧ s.isMaster = true ∧ x ∉ s.dch.claims) ∧
    (∃ (t : Nat) (s : State) (a : Fin 16) (p : Nat × Nat), s.islandOn .net = true ∧ s.dch.helloAt = 0 ∧
      s.dch.absentAt.find? (fun p => p.1 == a.val) = some p ∧ a ≠ 0 ∧ s.r DCH.VACANT_S ≠ 0 ∧ p.2 + 1000000000 * s.r DCH.VACANT_S ≤ (s.tick t).up ∧
      s.dch.table.any (fun p => p.1 == a.val) = true ∧ (s.r DCH.PRESENT).testBit a = false) ∧
    (∃ (s : State) (gen : Nat) (table : List (Nat × Nat)), s.islandOn .net = true ∧ s.dch.helloAt = 0 ∧ s.dch.newTable = some (gen, table) ∧ gen < 2 ^ 32) ∧
    (∃ (t : Nat) (s : State), s.islandOn .net = true ∧ s.dch.helloAt = 0 ∧ s.r DCH.UNIT_ADDR ≠ 0 ∧ s.timeMaster = s.r DCH.UNIT_ADDR ∧
      s.r DCH.UNIT_ADDR < 16 ∧ s.enabled 11 = true ∧ s.excluded = false ∧ (s.tick t).now % 1000000000 = 0) :=
  ⟨⟨true, en, false, by decide +kernel⟩,
   ⟨true, ws en [(DCH.UP_OK,0,0,0)], by decide +kernel⟩,
   ⟨true, en, { fr with crcOk := false }, by decide +kernel⟩,
   ⟨true, en, { fr with src := 1, dst := 255 }, by decide +kernel⟩,
   ⟨true, en, { fr with hops := 1 }, by decide +kernel⟩,
   ⟨true, en, fr, by decide +kernel⟩,
   ⟨en, u1, by decide +kernel⟩,
   ⟨.keeper, en, by unfold Takes; decide +kernel⟩,
   ⟨.keeper, ws en [(DCH.PAIR_EN,0,0,1)], by unfold Takes; decide +kernel⟩,
   ⟨.keeper,
     dc (fun x => { x with members := [u1], table := [(1,0),(5,40),(15,1)], absentAt := [(5, 40), (15,1)], claims := [5], newTable := some (5, [(5, 40), (1, 0)]) }) (ws en [(DCH.CMD_ADDR,0,0,5),(DCH.CLAIM_SERIAL_LO,0,0,5),(DCH.VACANT_S,0,0,1)]),
     by unfold Takes; decide +kernel⟩,
   ⟨.keeper,
     dc (fun x => { x with members := [{u1 with pairEn := true}], table := [(1,0),(5,40),(15,1)], claims := [5] }) (ws en [(DCH.CMD_ADDR,0,0,5),(DCH.CLAIM_SERIAL_LO,0,0,5),(DCH.CLAIMABLE,0,0,0x20)]),
     by unfold Takes; decide +kernel⟩,
   ⟨.keeper, en, by unfold Takes; decide +kernel⟩,
   ⟨0,
     dc (fun x => { x with members := [u1], table := [(1,0),(5,40),(15,1)], absentAt := [(5, 40), (15,1)], claims := [5], newTable := some (5, [(5, 40), (1, 0)]) }) (ws en [(DCH.CMD_ADDR,0,0,5),(DCH.CLAIM_SERIAL_LO,0,0,5),(DCH.VACANT_S,0,0,1)]),
     5, (5, 40), by decide +kernel⟩,
   ⟨dc (fun x => { x with members := [u1], table := [(1,0),(5,40),(15,1)], absentAt := [(5, 40), (15,1)], claims := [5], newTable := some (5, [(5, 40), (1, 0)]) }) (ws en [(DCH.CMD_ADDR,0,0,5),(DCH.CLAIM_SERIAL_LO,0,0,5),(DCH.VACANT_S,0,0,1)]),
     5, [(5, 40), (1, 0)], by decide +kernel⟩,
   ⟨0, en, by decide +kernel⟩⟩

end ChainUnits

namespace ChainPair

def B : State := own [⟨11, 0⟩]
def dc (f : DchX → DchX) (s : State) : State := { s with dch := f s.dch }
def en : State := ws (ens B [(11,0),(8,0)]) [(PST.DEV0_STATE,0,0,1),(DCH.UNIT_ADDR,0,0,1),(DCH.MASTER_ADDR,0,0,1),(DCH.UP_OK,0,0,1),(DCH.DOWN_OK,0,0,1),(DCH.PAIR_EN,0,0,1),(DCH.PAIR_EPOCH,0,0,1)]
def ro (k : Nat) (s : State) : State := ws s [(DCH.ROLE,0,0,k)]
def w (s : State) : State := dc (fun x => { x with served := [(5, { epoch := 1, holder := 3, lockEnd := 7000050000 }), (15, { epoch := 1, holder := 3, lockEnd := 700000050000 })] }) s


/-- States and operands that meet the hypotheses of ChainPair. -/
theorem witness :
    (∃ (s : State) (hb : Heartbeat), s.islandOn .net = true ∧ s.dch.helloAt = 0 ∧ s.paired = true ∧ hb.epoch.toNat = s.r DCH.PAIR_EPOCH ∧
      hb.role ≠ .active) ∧
    (∃ (s : State) (hb : Heartbeat), s.islandOn .net = true ∧ s.dch.helloAt = 0 ∧ s.paired = true ∧ s.r DCH.PAIR_EPOCH < hb.epoch.toNat ∧
      s.r DCH.ROLE = 2) ∧
    (∃ (s : State) (hb : Heartbeat), s.islandOn .net = true ∧ s.dch.helloAt = 0 ∧ s.paired = true ∧ hb.epoch.toNat = s.r DCH.PAIR_EPOCH ∧
      hb.role = .active ∧ s.r DCH.ROLE = 3) ∧
    (∃ (t : Nat) (s : State), s.islandOn .net = true ∧ s.dch.helloAt = 0 ∧ s.r DCH.ROLE = 3 ∧ s.dch.leaseEnd ≤ (s.tick t).up ∧
      s.dch.lockEnd ≤ (s.tick t).up) ∧
    (∃ (t : Nat) (s : State), s.islandOn .net = true ∧ s.dch.helloAt = 0 ∧ s.r DCH.ROLE = 3 ∧ (s.tick t).up < s.dch.leaseEnd) ∧
    (∃ (t : Nat) (s : State), s.islandOn .net = true ∧ s.dch.helloAt = 0 ∧ s.r DCH.ROLE = 3 ∧ s.dch.lastEcho + 2000 * s.r DCH.HB_US ≤ (s.tick t).up ∧
      s.dch.reqKind = 0 ∧ s.dch.reqAt ≤ s.dch.lastEcho) ∧
    (∃ (t : Nat) (s : State), s.islandOn .net = true ∧ s.dch.helloAt = 0 ∧ s.r DCH.ROLE = 3 ∧ s.on DCH.PEER_OK = true ∧ s.dch.swapAt = none ∧
      (s.tick t).onSeries (s.r DCH.MIRROR_US) 0 = true) ∧
    (∃ (t : Nat) (s : State), s.islandOn .net = true ∧ s.dch.helloAt = 0 ∧ s.on DCH.PAIR_EN = true ∧ s.on DCH.PEER_OK = true ∧
      s.dch.lastHb + 1000 * s.r DCH.HB_US * s.r DCH.HB_MISS ≤ (s.tick t).up) ∧
    (∃ (t : Nat) (s : State), s.islandOn .net = true ∧ s.dch.helloAt = 0 ∧ s.r DCH.ROLE = 2 ∧ s.on DCH.PEER_OK = false ∧ s.dch.reqKind = 0 ∧
      s.dch.reqAt + 500 * s.r DCH.LOCK_US ≤ (s.tick t).up) ∧
    (∃ (s : State) (q : VoteReq), let w := sget {} s.dch.served q.pair; s.islandOn .net = true ∧ s.dch.helloAt = 0 ∧ s.excluded = false ∧
      s.mramOk = true ∧ q.kind = .retain ∧ w.epoch = q.epoch ∧ w.holder = q.from_) ∧
    (∃ (t : Nat) (s : State) (q : VoteReq), let w := sget {} s.dch.served q.pair; s.islandOn .net = true ∧ s.dch.helloAt = 0 ∧ s.excluded = false ∧
      s.mramOk = true ∧ q.kind = .take ∧ w.epoch.toNat < q.epoch.toNat ∧ w.lockEnd ≤ (s.tick t).up) ∧
    (∃ (t : Nat) (s : State) (q : VoteReq), let w := sget {} s.dch.served q.pair; s.islandOn .net = true ∧ s.dch.helloAt = 0 ∧ s.excluded = false ∧
      q.kind = .take ∧ (s.tick t).up < w.lockEnd) ∧
    (∃ (s : State) (q : VoteReq), let w := sget {} s.dch.served q.pair; s.islandOn .net = true ∧ s.dch.helloAt = 0 ∧ s.excluded = false ∧
      s.mramOk = true ∧ q.kind = .transfer ∧ w.holder = q.from_ ∧ q.epoch = w.epoch + 1) ∧
    (∃ (t : Nat) (s : State) (p : Fin 16), s.islandOn .net = true ∧ s.dch.helloAt = 0 ∧ (sget {} s.dch.served p).lockEnd ≤ (s.tick t).up) ∧
    (∃ (t : Nat) (s : State), s.islandOn .net = true ∧ s.dch.helloAt = 0 ∧ s.dch.reqKind ≠ 0 ∧ s.dch.reqAt + 1000 * s.r DCH.VOTE_TMO_US ≤ (s.tick t).up) ∧
    (∃ (s : State), s.islandOn .net = true ∧ s.dch.helloAt = 0 ∧ s.dch.reqKind = 1 ∧ s.r DCH.ROLE = 3 ∧ s.excluded = false) ∧
    (∃ (r : Requester) (s : State), s.islandOn .net = true ∧ s.dch.helloAt = 0 ∧ s.dch.reqKind = 1 ∧ s.r DCH.ROLE = 3 ∧ Takes s r dchPage ∧
      16 ≤ s.r DCH.WITNESS ∧ s.dch.reqEpoch.toNat = s.r DCH.VOTE_EPOCH) ∧
    (∃ (r : Requester) (s : State), s.islandOn .net = true ∧ s.dch.helloAt = 0 ∧ Takes s r dchPage ∧ s.r DCH.ROLE = 3 ∧ s.dch.peerRole = .standby ∧
      s.on DCH.PEER_OK = true) ∧
    (∃ (r : Requester) (s : State), s.islandOn .net = true ∧ s.dch.helloAt = 0 ∧ Takes s r dchPage ∧ s.r DCH.ROLE ≠ 3) ∧
    (∃ (r : Requester) (s : State), s.islandOn .net = true ∧ s.dch.helloAt = 0 ∧ Takes s r dchPage ∧ (s.r DCH.ROLE = 4 ∨ s.r DCH.ROLE = 2)) ∧
    (∃ (s : State) (cut : CutX), s.islandOn .net = true ∧ s.dch.helloAt = 0 ∧ s.follows = true ∧ cut.swap = false) ∧
    (∃ (s : State), s.islandOn .net = true ∧ s.dch.helloAt = 0 ∧ s.r DCH.ROLE = 1) ∧
    (∃ (t : Nat) (s : State) (q : VoteReq) (w' : WitPair), s.islandOn .net = true ∧ s.dch.helloAt = 0 ∧ s.excluded = false ∧ s.mramOk = false ∧
      witnessRule (sget {} s.dch.served q.pair) q (s.tick t).up (1000 * s.r DCH.LOCK_US) = some w') :=
  ⟨⟨w (ro 0 (en)), { role := .standby, epoch := 1, seq := 9 , echo := 3}, by decide +kernel⟩,
   ⟨w (ro 2 (en)), { role := .active, epoch := 8 }, by decide +kernel⟩,
   ⟨w (ro 3 (en)), { role := .active, epoch := 1 }, by decide +kernel⟩,
   ⟨0, w (ro 3 (en)), by decide +kernel⟩,
   ⟨0,
     w (ro 3 (dc (fun x => { x with lastHb := 5000000000, reqKind := 1, reqAt := 6999000000, reqEpoch := 1, leaseEnd := 7000200000, lockEnd := 7000050000 }) (ws en [(DCH.WITNESS,0,0,20),(DCH.VOTE_EPOCH,0,0,1)]))),
     by decide +kernel⟩,
   ⟨0, w (ro 3 (en)), by decide +kernel⟩,
   ⟨0, w (ro 3 (ws en [(DCH.PEER_OK,0,0,1)])), by decide +kernel⟩,
   ⟨0, w (ro 0 (ws en [(DCH.PEER_OK,0,0,1)])), by decide +kernel⟩,
   ⟨0, w (ro 2 (en)), by decide +kernel⟩,
   ⟨w (ro 0 (en)), ⟨.retain, 5, 3, 4, 1⟩, by decide +kernel⟩,
   ⟨0, w (ro 0 (en)), ⟨.take, 0, 3, 4, 1⟩, by decide +kernel⟩,
   ⟨0, w (ro 0 (en)), ⟨.take, 15, 3, 4, 2⟩, by decide +kernel⟩,
   ⟨w (ro 0 (en)), ⟨.transfer, 5, 3, 4, 2⟩, by decide +kernel⟩,
   ⟨0, w (ro 0 (en)), 0, by decide +kernel⟩,
   ⟨0,
     w (ro 0 (dc (fun x => { x with lastHb := 5000000000, reqKind := 1, reqAt := 6999000000, reqEpoch := 1, leaseEnd := 7000200000, lockEnd := 7000050000 }) (ws en [(DCH.WITNESS,0,0,20),(DCH.VOTE_EPOCH,0,0,1)]))),
     by decide +kernel⟩,
   ⟨w (ro 3 (dc (fun x => { x with lastHb := 5000000000, reqKind := 1, reqAt := 6999000000, reqEpoch := 1, leaseEnd := 7000200000, lockEnd := 7000050000 }) (ws en [(DCH.WITNESS,0,0,20),(DCH.VOTE_EPOCH,0,0,1)]))),
     by decide +kernel⟩,
   ⟨.keeper,
     w (ro 3 (dc (fun x => { x with lastHb := 5000000000, reqKind := 1, reqAt := 6999000000, reqEpoch := 1, leaseEnd := 7000200000, lockEnd := 7000050000 }) (ws en [(DCH.WITNESS,0,0,20),(DCH.VOTE_EPOCH,0,0,1)]))),
     by unfold Takes; decide +kernel⟩,
   ⟨.keeper,
     w (ro 3 (dc (fun x => { x with peerRole := .standby, lastEcho := 6999000000, reqAt := 6998000000, swapAt := some 5000000000 , leaseEnd := 9, lockEnd := 9}) (ws en [(DCH.PEER_OK,0,0,1)]))),
     by unfold Takes; decide +kernel⟩,
   ⟨.keeper, w (ro 0 (en)), by unfold Takes; decide +kernel⟩,
   ⟨.keeper, w (ro 2 (en)), by unfold Takes; decide +kernel⟩,
   ⟨w (ro 1 (en)), {}, by decide +kernel⟩,
   ⟨w (ro 1 (en)), by decide +kernel⟩,
   ⟨0, ws (w (ro 3 en)) [(PST.DEV0_STATE, 0, 0, 0)], ⟨.take, 0, 3, 4, 1⟩, { epoch := 1, holder := 3 }, by decide +kernel⟩⟩

end ChainPair

namespace Takeover

def B : State := own []
def dc (f : DchX → DchX) (s : State) : State := { s with dch := f s.dch }
def en : State := ws (ens B [(11,0),(8,0)]) [(PST.DEV0_STATE,0,0,1),(DCH.UNIT_ADDR,0,0,1),(DCH.MASTER_ADDR,0,0,1),(DCH.UP_OK,0,0,1),(DCH.DOWN_OK,0,0,1),(DCH.PAIR_EN,0,0,1),(DCH.PAIR_EPOCH,0,0,1)]
def ro (k : Nat) (s : State) : State := ws s [(DCH.ROLE,0,0,k)]
def w (s : State) : State := dc (fun x => { x with served := [(5, { epoch := 1, holder := 3, lockEnd := 7000050000 }), (15, { epoch := 1, holder := 3, lockEnd := 700000050000 })] }) s


/-- States and operands that meet the hypotheses of Takeover. -/
theorem witness :
    (∃ (s : State), s.islandOn .net = true ∧ s.dch.helloAt = 0 ∧ s.excluded = false ∧ s.dch.reqKind = 2 ∧ (s.r DCH.ROLE = 2 ∨ s.r DCH.ROLE = 4)) ∧
    (∃ (t : Nat) (s : State) (i : Nat), s.islandOn .net = true ∧ s.dch.helloAt = 0 ∧ s.r DCH.ROLE = 3 ∧ s.on DCH.PEER_OK = true ∧ s.dch.swapAt = some i ∧
      i ≤ (s.tick t).now ∧ (s.tick t).onSeries (s.r DCH.MIRROR_US) 0 = true) :=
  ⟨⟨w (ro 2 (dc (fun x => { x with peerRole := .standby, lastEcho := 6999000000, reqAt := 6998000000, lastHb := 4, hbSeq := 0xFFFFFFFF, reqKind := 2 }) (ws en [(DCH.PEER_OK,0,0,1),(DCH.PAIR_EPOCH,0,0,0xFFFFFFFF)]))),
     by decide +kernel⟩,
   ⟨0,
     w (ro 3 (dc (fun x => { x with peerRole := .standby, lastEcho := 6999000000, reqAt := 6998000000, swapAt := some 5000000000 , leaseEnd := 9, lockEnd := 9}) (ws en [(DCH.PEER_OK,0,0,1)]))),
     5000000000, by decide +kernel⟩⟩

end Takeover

namespace RecorderLog

def B : State := own [⟨10, 0⟩]
def m0 : EvtMsg := { code := 3, bit := 2, time := 7, pay := [1,2,3] }
def x1 : Rec1 := { code := 0x32, seq := 5, pay := [1,2] }
def rc (f : RecX → RecX) (s : State) : State := { s with rcd := f s.rcd }
def en : State := ws (ens B [(10,0)]) [(REC.PERSIST_OK,0,0,1),(PST.DEV0_STATE,0,0,1),(PST.DEV1_STATE,0,0,1)]


/-- States and operands that meet the hypotheses of RecorderLog. -/
theorem witness :
    (∃ (s : State) (m : EvtMsg) (ms : List EvtMsg), s.islandOn .keep = true ∧ s.rcd.inQ = m :: ms ∧ s.rcd.queue.length < 256) ∧
    (∃ (s : State) (m : EvtMsg) (ms : List EvtMsg), s.islandOn .keep = true ∧ s.rcd.inQ = m :: ms ∧ 256 ≤ s.rcd.queue.length) ∧
    (∃ (s : State) (m : EvtMsg) (ms : List EvtMsg), s.islandOn .keep = true ∧ s.rcd.queue = m :: ms ∧ s.rcd.lostOwed = 0 ∧ s.held = false ∧
      (s.code m.recCode).en = true ∧ (s.code m.recCode).cls = 0) ∧
    (∃ (s : State) (m : EvtMsg) (ms : List EvtMsg), s.islandOn .keep = true ∧ s.rcd.queue = m :: ms ∧ s.rcd.lostOwed = 0 ∧ (s.code m.recCode).en = false) ∧
    (∃ (s : State) (c : BitVec 16), s.islandOn .keep = true ∧ mandatory c.toNat = false ∧ (s.cls (s.code c.toNat).cls).1 ≠ 0 ∧ (s.code c.toNat).spent ≠ 0) ∧
    (∃ (t : Nat) (s : State) (c : BitVec 16), s.islandOn .keep = true ∧ (s.code c.toNat).supp ≠ 0 ∧
      (s.code c.toNat).firstS + s.r REC.SUPP_FLUSH_S ≤ (s.tick t).opSec ∧ s.held = false) ∧
    (∃ (r : Requester) (s : State), Takes s r ⟨10, 0⟩ ∧ mandatory (s.r REC.CODE_SEL) = false) ∧
    (∃ (r : Requester) (s : State), Takes s r ⟨10, 0⟩ ∧ mandatory (s.r REC.CODE_SEL) = true) ∧
    (∃ (s : State) (x : Rec1) (xs : List Rec1), s.islandOn .keep = true ∧ s.r REC.PERSIST_OK = 1 ∧ s.unpersisted = x :: xs ∧ s.mramOk = true) :=
  ⟨⟨rc (fun x => { x with inQ := [m0] }) en, m0, [], by decide +kernel⟩,
   ⟨rc (fun x => { x with inQ := [m0], queue := List.replicate 256 m0 }) en, m0, [], by decide +kernel⟩,
   ⟨rc (fun x => { x with queue := [m0], codes := [(0x62, { cls := 0 })] }) (ws en [(REC.HEAD_SEQ,0,0,0xFFFFFFFF)]), m0, [], by decide +kernel⟩,
   ⟨rc (fun x => { x with queue := [m0, m0], codes := [(0x62, { en := false })] }) en, m0, [m0], by decide +kernel⟩,
   ⟨rc (fun x => { x with queue := [m0, m0], codes := [(0x62, { cls := 2, spent := 5, supp := 3, firstS := 1 })], classes := [(2, 100, 10)], ring := [x1, {x1 with seq := 6}] }) (ws en [(REC.CODE_SEL,0,0,0x32),(REC.CLASS_SEL,0,0,3)]),
     0x62, by decide +kernel⟩,
   ⟨400000000000,
     rc (fun x => { x with queue := [m0, m0], codes := [(0x62, { cls := 2, spent := 5, supp := 3, firstS := 1 })], classes := [(2, 100, 10)], ring := [x1, {x1 with seq := 6}] }) (ws en [(REC.CODE_SEL,0,0,0x32),(REC.CLASS_SEL,0,0,3)]),
     0x62, by decide +kernel⟩,
   ⟨.keeper, en, by unfold Takes; decide +kernel⟩,
   ⟨.keeper, ws en [(REC.CODE_SEL,0,0,0x1F)], by unfold Takes; decide +kernel⟩,
   ⟨rc (fun x => { x with queue := [m0, m0], codes := [(0x62, { cls := 2, spent := 5, supp := 3, firstS := 1 })], classes := [(2, 100, 10)], ring := [x1, {x1 with seq := 6}] }) (ws en [(REC.CODE_SEL,0,0,0x32),(REC.CLASS_SEL,0,0,3)]),
     x1, [{x1 with seq := 6}], by decide +kernel⟩⟩

end RecorderLog

namespace RecorderReading

def B : State := own [⟨10, 0⟩]
def x1 : Rec1 := { code := 0x32, seq := 5, pay := [1,2] }
def rc (f : RecX → RecX) (s : State) : State := { s with rcd := f s.rcd }
def en : State := ws (ens B [(10,0)]) [(REC.PERSIST_OK,0,0,1),(PST.DEV0_STATE,0,0,1),(PST.DEV1_STATE,0,0,1),(REC.EXP_DST,0,0,0x48000010),(REC.CLR_TOKEN,0,0,0x48000000)]
def r2 : List Rec1 := [x1, {x1 with seq := 6}]


/-- States and operands that meet the hypotheses of RecorderReading. -/
theorem witness :
    (∃ (r : Requester) (s : State), Takes s r ⟨10, 0⟩ ∧ s.on REC.FROZEN = false ∧ (s.rcd.holding.map Rec1.len).sum ≤ 262000) ∧
    (∃ (r : Requester) (s : State), Takes s r ⟨10, 0⟩ ∧ s.on REC.FROZEN = true) ∧
    (∃ (r : Requester) (s : State), Takes s r ⟨10, 0⟩ ∧ s.rcd.exporting = none) ∧
    (∃ (r : Requester) (s : State), Takes s r ⟨10, 0⟩ ∧ s.rcd.exporting.isSome = true) ∧
    (∃ (t : Nat) (s : State), s.islandOn .keep = true ∧ s.on REC.FROZEN = true ∧ s.rcd.frozenAt + 1000000000 * s.r REC.FREEZE_MAX_S ≤ (s.tick t).up) ∧
    (∃ (r : Requester) (s : State) (x : Rec1), s.reaches r ⟨10, 0⟩ = true ∧ s.isReader r = true ∧ s.rcd.win = some x) ∧
    (∃ (r : Requester) (s : State), s.reaches r ⟨10, 0⟩ = true ∧ s.isReader r = false) ∧
    (∃ (s : State) (a : Nat) (z : Nat) (o : Nat), s.islandOn .keep = true ∧ s.rcd.exporting = some (a, z, o)) ∧
    (∃ (s : State) (upto : Nat), s.islandOn .keep = true ∧ s.rcd.clearing = some upto) :=
  ⟨⟨.keeper, en, by unfold Takes; decide +kernel⟩,
   ⟨.keeper,
     rc (fun x => { x with ring := r2, frozenAt := 5, exporting := some (1, 5, 0), clearing := some 5 }) (ws en [(REC.FROZEN,0,0,1),(REC.FREEZE_MAX_S,0,0,3)]),
     by unfold Takes; decide +kernel⟩,
   ⟨.keeper, en, by unfold Takes; decide +kernel⟩,
   ⟨.keeper,
     rc (fun x => { x with ring := r2, frozenAt := 5, exporting := some (1, 5, 0), clearing := some 5 }) (ws en [(REC.FROZEN,0,0,1),(REC.FREEZE_MAX_S,0,0,3)]),
     by unfold Takes; decide +kernel⟩,
   ⟨0,
     rc (fun x => { x with ring := r2, frozenAt := 5, exporting := some (1, 5, 0), clearing := some 5 }) (ws en [(REC.FROZEN,0,0,1),(REC.FREEZE_MAX_S,0,0,3)]),
     by decide +kernel⟩,
   ⟨.keeper, rc (fun x => { x with ring := r2, win := some x1 }) (ws en [(REC.WIN_SEQ,0,0,4),(REC.HEAD_SEQ,0,0,7)]), x1, by decide +kernel⟩,
   ⟨.host 0, en, by decide +kernel⟩,
   ⟨rc (fun x => { x with ring := r2, frozenAt := 5, exporting := some (1, 5, 0), clearing := some 5 }) (ws en [(REC.FROZEN,0,0,1),(REC.FREEZE_MAX_S,0,0,3)]),
     1, 5, 0, by decide +kernel⟩,
   ⟨rc (fun x => { x with ring := r2, frozenAt := 5, exporting := some (1, 5, 0), clearing := some 5 }) (ws en [(REC.FROZEN,0,0,1),(REC.FREEZE_MAX_S,0,0,3)]),
     5, by decide +kernel⟩⟩

end RecorderReading

namespace Security

def B : State := own [⟨2, 0⟩]
def sc (f : SecX → SecX) (s : State) : State := { s with sec := f s.sec }
def en : State := ws (ens B [(2,0)]) [(PST.DEV0_STATE,0,0,1),(PST.DEV1_STATE,0,0,1),(SEC.ATT_DST,0,0,0x48000010),(SEC.ATT_SRC,0,0,0x48000000),(SEC.FW_SRC,0,0,0x48000000),(SEC.FW_SIZE,0,0,64)]
def st (k : Nat) : State := sc (fun x => { x with markers := [(0, 5, true, true), (1, 4, true, false)], journal := some 1 }) (ws en [(SEC.FW_STATE,0,0,k)])


/-- States and operands that meet the hypotheses of Security. -/
theorem witness :
    (∃ (r : Requester) (s : State), Takes s r ⟨2, 0⟩ ∧ s.sec.attesting = false ∧ s.r SEC.FW_STATE ≠ 6 ∧ s.sec.signTimes = [] ∧ s.idx < s.sec.batchEnd ∧
      s.idx < 2 ^ 40 - 1) ∧
    (∃ (r : Requester) (s : State), Takes s r ⟨2, 0⟩ ∧ s.r SEC.FW_STATE = 0) ∧
    (∃ (r : Requester) (s : State), Takes s r ⟨2, 0⟩ ∧ s.r SEC.FW_STATE ≠ 0) ∧
    (∃ (r : Requester) (s : State), Takes s r ⟨2, 0⟩ ∧ 1 ≤ s.r SEC.FW_STATE ∧ s.r SEC.FW_STATE < 5) ∧
    (∃ (r : Requester) (s : State), Takes s r ⟨2, 0⟩ ∧ s.r SEC.FW_STATE = 6) ∧
    (∃ (t : Nat) (s : State), s.islandOn .keep = true ∧ s.sec.dbgEnd ≤ (s.tick t).up) ∧
    (∃ (s : State), s.islandOn .keep = true ∧ s.sec.attesting = true) ∧
    (∃ (s : State), s.islandOn .keep = true ∧ s.r SEC.FW_STATE = 2) ∧
    (∃ (t : Nat) (s : State), s.islandOn .keep = true ∧ s.r SEC.FW_STATE = 3 ∧ s.sec.copyAt + s.r SEC.FW_SIZE * 1000000000 / 6144 ≤ (s.tick t).up) ∧
    (∃ (s : State), s.islandOn .keep = true ∧ s.r SEC.FW_STATE = 4 ∧ s.mramOk = true ∧
      Config.shake256 (s.gen (s.r SEC.FW_SRC) (s.r SEC.FW_SIZE)) 64 = s.sec.fwDigest) ∧
    (∃ (s : State), s.islandOn .keep = true ∧ s.r SEC.FW_STATE = 4 ∧
      (s.mramOk = false ∨ Config.shake256 (s.gen (s.r SEC.FW_SRC) (s.r SEC.FW_SIZE)) 64 ≠ s.sec.fwDigest)) ∧
    (∃ (s : State), s.islandOn .keep = true ∧ s.r SEC.FW_STATE = 5) ∧
    (∃ (s : State), s.islandOn .keep = true ∧ s.r SEC.FW_STATE = 6 ∧ (s.ho.pause = true ∨ (s.sec.switchReq = true ∧
      (s.r DCH.ROLE = 1 ∨ s.r DCH.ROLE = 2)))) :=
  ⟨⟨.keeper, sc (fun x => { x with batchEnd := 100, mramIdx := some 7 , dbgEnd := 5}) en, by unfold Takes; decide +kernel⟩,
   ⟨.keeper, en, by unfold Takes; decide +kernel⟩,
   ⟨.keeper, st 1, by unfold Takes; decide +kernel⟩,
   ⟨.keeper, st 1, by unfold Takes; decide +kernel⟩,
   ⟨.keeper, st 6, by unfold Takes; decide +kernel⟩,
   ⟨0, en, by decide +kernel⟩,
   ⟨sc (fun x => { x with attesting := true, attIdx := 3, dbgEnd := 8000000000 }) (ws en [(SEC.DBG_SCOPE,0,0,3)]), by decide +kernel⟩,
   ⟨st 2, by decide +kernel⟩,
   ⟨0, st 3, by decide +kernel⟩,
   ⟨sc (fun x => { x with fwDigest := Config.shake256 ((st 4).gen 0x48000000 64) 64 }) (st 4), by decide +kernel, by decide +kernel, by decide +kernel,
     by show Config.shake256 _ 64 = Config.shake256 ((st 4).gen 0x48000000 64) 64; exact congrArg (fun l => Config.shake256 l 64) (by decide +kernel)⟩,
   ⟨sc (fun x => { x with fwDigest := 0 :: Config.shake256 ((st 4).gen 0x48000000 64) 64 }) (st 4), by decide +kernel, by decide +kernel,
     .inr (by show Config.shake256 _ 64 ≠ 0 :: Config.shake256 ((st 4).gen 0x48000000 64) 64; exact fun h => List.cons_ne_self 0 _ (h.symm.trans (congrArg (fun l => Config.shake256 l 64) (by decide +kernel))))⟩,
   ⟨st 5, by decide +kernel⟩,
   ⟨{ st 6 with ho := { en.ho with pause := true } }, by decide +kernel⟩⟩

end Security

/-! ### States for the logic engines -/

namespace Logic

/-- An operand address: area and number (R248). -/
def addr (area n : Nat) : BitVec 22 := BitVec.ofNat 22 (area * 2 ^ 18 + n)

/-- Engine 0 runs bank `b` at level 0, with windows over all of D, T and C and three data words. -/
def mk (b : Bank) : State :=
  ws { own [⟨21, 0⟩] with dataMem := [(0, 5), (1, 0xFFFFFFFF), (2, 7)], engines := [(0, { banks := [(0, b)], cur := some 0 })] }
    [(LGE.DWIN_HI, 0, 0, 0x3FFFF), (LGE.TWIN_HI, 0, 0, 4095), (LGE.CWIN_HI, 0, 0, 2047), (LGE.RUN_STATE, 0, 0, 2)]

theorem operand_of {s : State} {e : Nat} {c : OpClass} {am : AM} {a : BitVec 22} {p : Nat × Nat}
    (h : (s.operand e c am a).2 = some p) : s.operand e c am a = ((s.operand e c am a).1, some p) := Prod.ext rfl h

/-- States and operands that meet the hypotheses of LogicBits. -/
theorem witness_bits :
    (∃ s e am a u v, BitOperand s e am a u v ∧ (∀ op ∈ [1, 2, 3, 4, 5, 6, 7, 8], formOk op am a = true)) ∧
    (∃ s : State, (s.bank 0).branch.length < 16) ∧ (∃ (s : State) (v : Bool) (op : BrOp) (rest : List (Bool × BrOp)), (s.bank 0).branch = (v, op) :: rest) :=
  ⟨⟨mk {}, 0, .dir, addr 4 63, _, _, ⟨_, (4, 63), operand_of (by decide +kernel), by decide, rfl⟩, by decide +kernel⟩,
   ⟨mk { branch := List.replicate 15 (true, BrOp.or) }, by decide +kernel⟩,
   ⟨mk { branch := List.replicate 16 (true, BrOp.or) }, true, BrOp.or, List.replicate 15 (true, BrOp.or), by decide +kernel⟩⟩

/-- States and operands that meet the hypotheses of LogicStores. -/
theorem witness_stores :
    (∃ (s s1 u : State) (e : Fin 4) (am : AM) (a : BitVec 22) (p : Nat × Nat) (v : Bool), (s.begin e).operand e .bitWrite am a = (s1, some p) ∧ s1.readBitAt e p = (u, v) ∧
      (∀ op ∈ [0x09, 0x0A, 0x0B, 0x0C, 0x0D, 0x0E], formOk op am a = true) ∧ (s.bank e).ba = true) ∧
    (∃ (s s1 u : State) (e : Fin 4) (am : AM) (a : BitVec 22) (p : Nat × Nat) (v : Bool), (s.begin e).operand e .tas am a = (s1, some p) ∧ s1.readBitAt e p = (u, v) ∧
      formOk 0x0F am a = true) ∧
    (∃ (s : State) (e : Fin 4) (am : AM) (a : BitVec 22), (s.bank e).ba = false ∧ formOk 0x0B am a = true ∧ formOk 0x0C am a = true) :=
  ⟨⟨mk { ba := true }, _, _, 0, .dir, addr 4 63, (4, 63), _, operand_of (by decide +kernel), rfl, by decide +kernel, by decide +kernel⟩,
   ⟨mk {}, _, _, 0, .dir, addr 4 63, (4, 63), _, operand_of (by decide +kernel), rfl, by decide +kernel⟩,
   ⟨mk {}, 0, .dir, addr 4 63, by decide +kernel⟩⟩

/-- States and operands that meet the hypotheses of LogicTimers: the last timer and the last counter. -/
theorem witness_timers :
    (∃ s e am a u, Numbered s e .timer am a [0, 1, 2, 3] u 4095 ∧ s.islandOn .logic = true ∧ (∀ op ∈ [0x20, 0x21, 0x22, 0x23, 0x24, 0x25], formOk op am a = true)) ∧
    (∃ s e am a u, Numbered s e .counter am a [0, 1, 2] u 2047 ∧ s.islandOn .logic = true ∧ (∀ op ∈ [0x28, 0x29, 0x2A, 0x2B, 0x2C], formOk op am a = true)) :=
  ⟨⟨mk {}, 0, .dir, addr 6 4095, _, ⟨_, (6, 4095), operand_of (by decide +kernel), rfl, by decide +kernel, rfl⟩, by decide +kernel, by decide +kernel⟩,
   ⟨mk {}, 0, .dir, addr 7 2047, _, ⟨_, (7, 2047), operand_of (by decide +kernel), rfl, by decide +kernel, rfl⟩, by decide +kernel, by decide +kernel⟩⟩

/-- States and operands that meet the hypotheses of LogicWords: constants 1, 0 and −1, the last also against −2³¹ in ACC1, and a data word. -/
theorem witness_words :
    (∃ s e am a u w, WordOperand s e am a u w ∧ w ≠ 0 ∧ (∀ op ∈ [0x30, 0x34, 0x35, 0x36, 0x37, 0x38, 0x39, 0x3A, 0x3B, 0x3C, 0x3D, 0x3E, 0x3F, 0x40,
      0x41, 0x42, 0x48, 0x49, 0x4A, 0x4B, 0x4C, 0x4D], formOk op am a = true)) ∧
    (∃ s e am a u w, WordOperand s e am a u w ∧ w = 0 ∧ (∀ op ∈ [0x37, 0x38, 0x3A], formOk op am a = true)) ∧
    (∃ s e am a u w, WordOperand s e am a u w ∧ w.toInt = -1 ∧ (u.bank e).acc1.toInt = -(2 ^ 31) ∧ formOk 0x37 am a = true) ∧
    (∃ s e u w, WordOperand s e .dir (addr 4 2) u w) :=
  ⟨⟨mk {}, 0, .imm, 1, _, 1, .inl ⟨rfl, rfl, by decide⟩, by decide, by decide +kernel⟩,
   ⟨mk {}, 0, .imm, 0, _, 0, .inl ⟨rfl, rfl, by decide⟩, by decide, by decide +kernel⟩,
   ⟨mk { acc1 := 0x80000000 }, 0, .imm, 0x3FFFFF, _, 0xFFFFFFFF, .inl ⟨rfl, rfl, by decide⟩, by decide, by decide +kernel, by decide +kernel⟩,
   ⟨mk {}, 0, _, _, .inr ⟨by decide, _, (4, 2), operand_of (by decide +kernel), by decide, rfl⟩⟩⟩

/-- States and operands that meet the hypotheses of LogicAccumulators. -/
theorem witness_accumulators :
    (∃ (s u : State) (e : Fin 4) (am : AM) (a : BitVec 22) (i : Nat), formOk 0x32 am a = true ∧ (s.begin e).operand e .wordWrite am a = (u, some (4, i)) ∧
      inWin (u.windows (u.home e)).d i = true ∧ deviceWord i = false) ∧
    (∃ (s : State) (e : Fin 4) (am : AM) (a : BitVec 22) (i j : Nat), s.islandOn .logic = true ∧ formOk 0x57 am a = true ∧ 0 < (s.bank e).acc2.toNat % 2 ^ 16 ∧
      (s.bank e).move = none ∧ am ≠ .ind ∧ ((s.begin e).operand e .wordWrite am a).2 = some (4, i) ∧ areaIdx ((s.bank e).acc1.toNat % 2 ^ 22) = (4, j) ∧
      reachable .word .ind (4, j) = true ∧ reachable .wordWrite am (4, i) = true ∧ inWin (s.windows (s.home e)).d i = true ∧ deviceWord i = false ∧
      s.pwr.bad = [] ∧ s.forces = []) ∧
    (∃ (s : State) (e : Fin 4) (am : AM) (a : BitVec 22) (i j k : Nat), s.islandOn .logic = true ∧ formOk 0x57 am a = true ∧ k < (s.bank e).acc2.toNat % 2 ^ 16 ∧
      (s.bank e).move = some (k, (4, i)) ∧ areaIdx ((s.bank e).acc1.toNat % 2 ^ 22) = (4, j) ∧ reachable .word .ind (4, j + k) = true ∧
      reachable .wordWrite am (4, i + k) = true ∧ inWin (s.windows (s.home e)).d (i + k) = true ∧ deviceWord (i + k) = false ∧ s.pwr.bad = [] ∧ s.forces = []) :=
  ⟨⟨mk {}, _, 0, .dir, addr 4 0x1FFF, 0x1FFF, by decide +kernel, operand_of (by decide +kernel), by decide +kernel, by decide⟩,
   ⟨mk { acc1 := 0x100002, acc2 := 1 }, 0, .dir, addr 4 9, 9, 2, by decide +kernel⟩,
   ⟨mk { acc1 := 0x100002, acc2 := 3, move := some (1, (4, 9)) }, 0, .dir, addr 4 9, 9, 2, 1, by decide +kernel⟩⟩

/-- States and operands that meet the hypotheses of RemoteReads. -/
theorem witness_remote :
    (∃ (s s1 : State) (e : Fin 4) (am : AM) (a : BitVec 22) (p : Nat × Nat), formOk 0x30 am a = true ∧ am ≠ .imm ∧ (s.begin e).operand e .word am a = (s1, some p) ∧
      remote p.1 = true) ∧
    (∃ (s : State) (e : Fin 4) (am : AM) (a : BitVec 22) (p : Nat × Nat), (s.eng e).wait = some (.l e am a, p) ∧ p.1 = 8 ∧ s.islandOn .net = true ∧ s.forces = []) :=
  ⟨⟨mk {}, _, 0, .dir, addr 8 3651, (8, 3651), by decide +kernel, by decide, operand_of (by decide +kernel), by decide⟩,
   ⟨{ mk {} with engines := [(0, { banks := [(0, {})], cur := some 0, wait := some (.l 0 .dir (addr 8 3651), 8, 3651) })] }, 0, .dir, addr 8 3651,
    (8, 3651), by decide +kernel⟩⟩

/-- An instruction that meets the hypotheses of LoadCheckStops: ST with a constant operand. -/
theorem witness_loadCheck : ∃ (c : Instr) (op : Nat) (am : AM) (a : BitVec 22), c.logicForm = some (op, am, a) ∧ formOk op am a = false :=
  ⟨.st 0 .imm 0, 0x09, .imm, 0, rfl, by decide +kernel⟩

end Logic

/-! ### Statements over every command -/

/-- States and commands that meet the hypotheses of StepRunsFront, StepKeepsFuses, MemoriesKept and RecordsKept. -/
theorem witness_step : (∃ u, exec (.nop 0) State.reset = .next u ∧ actsOnAll (.nop 0) = false) ∧ State.reset.pending = [] ∧
    (∃ u, State.Inv { State.reset with fuses := [(3, 1)] } ∧ step { State.reset with fuses := [(3, 1)], pending := [.nop 0] } = .next u) :=
  ⟨⟨_, rfl, rfl⟩, rfl, _, by unfold State.Inv; decide +kernel, rfl⟩

/-- States and commands that meet the hypotheses of ChannelFrames. -/
theorem witness_frames :
    (∃ u, exec (.serStart 0 .keeper 7) State.reset = .next u) ∧
    (∃ u s, exec (.canTxAttemptEnd 0 15 ⟨.success, 0, none⟩) s = .next u ∧ (s.canX 15).sending = some 2 ∧ ∀ b, (s.canX 15).sending = some b → b < 3) ∧
    (∃ u, exec (.setSrc 0 .keeper 255) State.reset = .next u) ∧
    (∃ u s, exec (.hqeWriteback 0 1) s = .next u ∧ (∀ k, s.r HQE.QUEUE 1 k < 8) ∧ (s.port 1).buf = [{ q := 7 }]) :=
  ⟨⟨_, rfl⟩,
   ⟨_, { State.reset with can := [(15, { sending := some 2 })] }, rfl, by decide +kernel, by decide +kernel⟩,
   ⟨_, rfl⟩,
   ⟨_, { State.reset with ports := [(1, { buf := [{ q := 7 }] })] }, rfl, fun _ => by show (0 : Nat) < 8; decide, by decide +kernel⟩⟩

/-! ### Small tests -/

/-- R253's worked words: each is the word of the instruction beside it. -/
theorem test_instruction_words :
    (Instr.ld 0 .dir 4).logicForm.map (fun x => insWord x.1 x.2.1 x.2.2) = some 0x01000004 ∧
    (Instr.or_ 0 .dir (Logic.addr 4 3203)).logicForm.map (fun x => insWord x.1 x.2.1 x.2.2) = some 0x05100C83 ∧
    (Instr.andn 0 .dir 5).logicForm.map (fun x => insWord x.1 x.2.1 x.2.2) = some 0x04000005 ∧
    (Instr.l 0 .dir (Logic.addr 8 3651)).logicForm.map (fun x => insWord x.1 x.2.1 x.2.2) = some 0x30200E43 ∧
    (Instr.clt 0 .imm 9500).logicForm.map (fun x => insWord x.1 x.2.1 x.2.2) = some 0x4CC0251C ∧
    (Instr.st 0 .dir (Logic.addr 1 2)).logicForm.map (fun x => insWord x.1 x.2.1 x.2.2) = some 0x09040002 := by
  decide +kernel

/-- The words of the pump interlock (the example of R253) decode to their instructions. -/
theorem test_instruction_decode :
    decodeIns 0 0x01000004 = some (.ld 0 .dir (Logic.addr 0 4)) ∧ decodeIns 0 0x05100C83 = some (.or_ 0 .dir (Logic.addr 4 3203)) ∧
    decodeIns 0 0x04000005 = some (.andn 0 .dir (Logic.addr 0 5)) ∧ decodeIns 0 0x10000000 = some (.aParen 0) ∧
    decodeIns 0 0x30200E43 = some (.l 0 .dir (Logic.addr 8 3651)) ∧ decodeIns 0 0x4CC0251C = some (.clt 0 .imm 9500) ∧
    decodeIns 0 0x15000000 = some (.closeParen 0) ∧ decodeIns 0 0x09040002 = some (.st 0 .dir (Logic.addr 1 2)) ∧
    decodeIns 0 0x09100C83 = some (.st 0 .dir (Logic.addr 4 3203)) := by decide +kernel

/-- A word with a bit where none may be, and a mode that the opcode does not take, spell nothing (R253, R275). -/
theorem test_instruction_reserved : decodeIns 0 0x10000001 = none ∧ decodeIns 0 0x09C00002 = none ∧ decodeIns 0 0xFF000000 = none := by
  decide +kernel

/-- The table gives no row any bits. -/
theorem test_decode_answers_none (nbits w : Nat) : decodeTableWord nbits w = none := rfl

/-- The check value of the Modbus CRC (R428), over the digits 1 to 9. -/
theorem test_crc16_check : crc16 [0x31, 0x32, 0x33, 0x34, 0x35, 0x36, 0x37, 0x38, 0x39] = 0x4B37 := by decide +kernel

/-- The check value of CRC-32C, over the digits 1 to 9. -/
theorem test_crc32c_check : crc32c [0x31, 0x32, 0x33, 0x34, 0x35, 0x36, 0x37, 0x38, 0x39] = 0xE3069283 := by decide +kernel

/-- A store takes a bit that can be written, and no constant. -/
theorem test_wf_refuses_form : (Instr.st 0 .imm 0).wf = false ∧ (Instr.st 0 .dir (Logic.addr 1 2)).wf = true := by decide +kernel

/-- A header command names a page that exists. -/
theorem test_wf_refuses_page : (Instr.errClr 0 .keeper ⟨40, 0⟩).wf = false ∧ (Instr.errClr 0 .keeper ⟨21, 0⟩).wf = true := by decide +kernel

/-- The solver SRAM is written in words of 64 bits. -/
theorem test_wf_refuses_misaligned : (Instr.solverSramHostWrite 0 0 4 []).wf = false ∧ (Instr.solverSramHostWrite 0 0 8 []).wf = true := by
  decide +kernel

/-- An engine has 42 tasks. -/
theorem test_wf_refuses_task : (Instr.taskRelease 0 0 42).wf = false ∧ (Instr.taskRelease 0 0 41).wf = true := by decide +kernel

/-- A two-digit month. -/
theorem test_wf_refuses_sentence : (Instr.todSentence 0 ⟨true, 12, 0, 0, 1, 100, 2030⟩).wf = false ∧
    (Instr.todSentence 0 ⟨true, 12, 0, 0, 1, 12, 2030⟩).wf = true := by decide +kernel

/-- A data set's priority is a byte. -/
theorem test_wf_refuses_dataset : (Instr.ptpAnnounceRx 0 0 { prio1 := 256 }).wf = false ∧ (Instr.ptpAnnounceRx 0 0 { prio1 := 255 }).wf = true := by
  decide +kernel

/-- A base identifier has 11 bits. -/
theorem test_wf_refuses_can : (Instr.canFrameRx 0 0 ⟨{ ident := 2048 }, 0⟩).wf = false ∧
    (Instr.canFrameRx 0 0 ⟨{ ident := 2048, ide := true }, 0⟩).wf = true := by decide +kernel

/-- A VLAN number has 12 bits. -/
theorem test_wf_refuses_ethernet : (Instr.ethFrameRx 0 0 { vid := some 4096 }).wf = false ∧ (Instr.ethFrameRx 0 0 { vid := some 4095 }).wf = true := by
  decide +kernel

/-- A station number has 16 bits. -/
theorem test_wf_refuses_exchange : (Instr.inputFrameRx 0 { station := 65536 } true true).wf = false ∧
    (Instr.inputFrameRx 0 { station := 65535 } true true).wf = true := by decide +kernel

/-- A chain frame's class is a byte. -/
theorem test_wf_refuses_chain : (Instr.chainFrameRx 0 true { cls := 256 }).wf = false ∧ (Instr.chainFrameRx 0 true { cls := 255 }).wf = true := by
  decide +kernel

/-- A chain address is 0 to 15. -/
theorem test_wf_refuses_hello : (Instr.hello 0 { addr := 16 }).wf = false ∧ (Instr.hello 0 { addr := 15 }).wf = true := by decide +kernel

/-- A pair number is 0 to 15. -/
theorem test_wf_refuses_vote (k : VoteKind) : (Instr.witnessRequest 0 ⟨k, 16, 0, 0, 0⟩).wf = false ∧
    (Instr.witnessRequest 0 ⟨k, 15, 0, 0, 0⟩).wf = true := by cases k <;> decide +kernel

/-- The front of the queue is what a step runs, and the rest stays waiting. -/
theorem test_step_front : step { State.reset with pending := [.nop 0, .nop 1] } = exec (.nop 0) { State.reset with pending := [.nop 1] } := rfl

/-- What a command leaves, looked at in one value. -/
def sees {α : Type} (c : Instr) (s : State) (f : State → α) : Option α :=
  match exec c s with
  | .next u => some (f u)
  | _ => none

/-- The lock of a page closes 10 ms after it opened, and stays open before (R61). -/
theorem test_lock_timeout :
    sees (.lockTimeout 0 ⟨4, 0⟩) ((opened [⟨4, 0⟩]).setPx ⟨4, 0⟩ { lockAt := 6990000000 }) (fun u => u.h HDR.OPEN ⟨4, 0⟩) = some 0 ∧
    sees (.lockTimeout 0 ⟨4, 0⟩) ((opened [⟨4, 0⟩]).setPx ⟨4, 0⟩ { lockAt := 6990000001 }) (fun u => u.h HDR.OPEN ⟨4, 0⟩) = some 1 := by
  decide +kernel

/-- Engine 0 with 2³¹ − 1 in ACC1. -/
def full : State := Logic.mk { acc1 := 0x7FFFFFFF }

/-- An addition past the format saturates and sets OV, a subtraction to zero does not (R253, R257). -/
theorem test_add : sees (.add 0 .imm 1) full (fun u => ((u.bank 0).acc1, (u.bank 0).status)) = some (0x7FFFFFFF, 1) ∧
    sees (.sub 0 .imm 1) full (fun u => ((u.bank 0).acc1, (u.bank 0).status)) = some (0x7FFFFFFE, 0) := by decide +kernel

/-- LD of a clear bit, and LDN of it; D word 0 holds 5. -/
theorem test_ld : sees (.ldn 0 .dir (Logic.addr 4 0)) (Logic.mk {}) (fun u => (u.bank 0).pc) = some 1 ∧
    sees (.l 0 .dir (Logic.addr 4 2)) (Logic.mk {}) (fun u => (u.bank 0).acc1) = some 7 := by decide +kernel

/-- L pushes ACC1 to ACC2 (R253). -/
theorem test_l_pushes : sees (.l 0 .dir (Logic.addr 4 0)) full (fun u => ((u.bank 0).acc1, (u.bank 0).acc2)) = some (5, 0x7FFFFFFF) := by
  decide +kernel

/-- PC := PC + 1 + constant (R253): forward, and back to the jump itself. -/
theorem test_jmp : sees (.jmp 0 17) (Logic.mk {}) (fun u => (u.bank 0).pc) = some 18 ∧
    sees (.jmp 0 0x3FFFFF) (Logic.mk { pc := 4 }) (fun u => (u.bank 0).pc) = some 4 := by decide +kernel

/-- A free page goes to the host that asks for it, and ERR_CLR of another host is then an ownership violation (R49, R53). -/
theorem test_owner :
    sees (.ownerReq 0 (.host 0) ⟨24, 0⟩) ((own [⟨24, 0⟩]).hw HDR.OWNER ⟨24, 0⟩ 0) (fun u => u.h HDR.OWNER ⟨24, 0⟩) = some 1 := by decide +kernel

/-- The calendar goes from 28 February 2100 to 1 March, since 2100 is no leap year (R397). -/
theorem test_calendar : dateOf (daysFrom1970 2100 2 28 + 1) = (2100, 3, 1) ∧ dateOf (daysFrom1970 2000 2 28 + 1) = (2000, 2, 29) ∧
    weekdayOf (daysFrom1970 2000 1 1) = 6 := by decide +kernel


/-- What stands at a ball, by the letters of its row. -/
def ballAt (row : String) (col : Nat) : Option BallUse := ballUse (rowNames.idxOf row) col

/-- The examples of R553: ETH_TX[0] at A2 and A3, GIO[0] at E1, ADC_IN[0] and [7] at J9 and J16, TOD_RX at K10. -/
theorem test_balls : ballAt "A" 2 = some (.signal (.ethTx 0 0)) ∧ ballAt "A" 3 = some (.signal (.ethTx 0 1)) ∧
    ballAt "E" 1 = some (.signal (.gio 0)) ∧ ballAt "J" 9 = some (.signal (.adcIn 0)) ∧ ballAt "J" 16 = some (.signal (.adcIn 7)) ∧
    ballAt "K" 10 = some (.signal .todRx) := by decide +kernel

/-- In reset MPG_EN_N is high and a GIO pin in high impedance (R555). -/
theorem test_pins : State.reset.pin 0 (.mpgEnN 3) = .high ∧ (State.reset.setPwr fun k => { k with inReset := true }).pin 0 (.gio 5) = .z := by
  decide +kernel
end Sys2Proof.Tests
end

section
/-! Writes to the two SRAMs: where the bytes of a written word land, and what the slot and result bookkeeping of a host write leaves alone (R6, R21, R69, R76, R103). -/

namespace Sys2Proof.SramWriteLaws

open Sys2Proof Sys2Proof.Machine Sys2Proof.Laws

/-! ### Bytes that land in a memory -/

/-- A memory after a list of bytes was written to it, by address. -/
def writeCells (m cells : List Host.Cell) : List Host.Cell := cells.foldl (fun m c => sset 0 m c.1 c.2) m

/-- Bytes written at offsets `ks` from `a` are read back at those offsets, and every other byte is as before. -/
theorem sget_writeCells_map (a b : Nat) (f : Nat → BitVec 8) (ks : List Nat) (m : List Host.Cell) :
    sget 0 (writeCells m (ks.map fun k => (a + k, f k))) b = if a ≤ b ∧ b - a ∈ ks then f (b - a) else sget 0 m b := by
  induction ks generalizing m with
  | nil => simp [writeCells]
  | cons k ks ih =>
    have hcons : writeCells m ((k :: ks).map fun k => (a + k, f k)) =
        writeCells (sset 0 m (a + k) (f k)) (ks.map fun k => (a + k, f k)) := rfl
    rw [hcons, ih, sget_sset]
    by_cases hk : b = a + k
    · subst hk; simp
    · have hne : a ≤ b → b - a ≠ k := by omega
      by_cases hab : a ≤ b
      · simp [hk, hab, hne hab]
      · simp [hk, hab]

/-- Byte `k` of a word, least significant first (R6). -/
theorem byte_eq_extractLsb' {w : Nat} (v : BitVec w) (k : Nat) :
    BitVec.ofNat 8 (v.toNat / 256 ^ k) = v.extractLsb' (8 * k) 8 := by
  rw [BitVec.extractLsb', Nat.shiftRight_eq_div_pow, Nat.pow_mul]

/-- A 64-bit word lands byte by byte where its byte enables say. -/
theorem sget_writeCells_laneBytes (m : List Host.Cell) (a b : Nat) (be : BitVec 8) (v : BitVec 64) :
    sget 0 (writeCells m (laneBytes a be v)) b =
      if a ≤ b ∧ b < a + 8 ∧ be.getLsbD (b - a) = true then v.extractLsb' (8 * (b - a)) 8 else sget 0 m b := by
  rw [laneBytes, sget_writeCells_map, byte_eq_extractLsb']
  refine if_congr ?_ rfl rfl
  rw [List.mem_filter, List.mem_range]
  refine and_congr_right fun hab => and_congr_left fun _ => ?_
  omega

/-- A whole 32-bit word lands in its four bytes. -/
theorem sget_writeCells_wordBytesAt (m : List Host.Cell) (a b : Nat) (v : Word) :
    sget 0 (writeCells m (wordBytesAt a 0xF#4 v)) b =
      if a ≤ b ∧ b < a + 4 then v.extractLsb' (8 * (b - a)) 8 else sget 0 m b := by
  have enabled : (List.range 4).filter (fun k => (0xF#4).getLsbD k) = List.range 4 := by decide
  rw [wordBytesAt, enabled, sget_writeCells_map, byte_eq_extractLsb']
  refine if_congr ?_ rfl rfl
  rw [List.mem_range]
  omega

/-! ### A host's word in solver SRAM: what its bookkeeping leaves alone -/

@[simp] theorem solBytes_solver (s : State) (cells : List Host.Cell) : (s.solBytes cells).solver = writeCells s.solver cells := rfl
@[simp] theorem solBytes_general (s : State) (cells : List Host.Cell) : (s.solBytes cells).general = s.general := rfl

/-- The new state of a slot is kept in the sequencer's record and shown in a register. -/
@[simp] theorem slotTo_srams (s : State) (k : Slot) (st : SlotState) :
    (s.slotTo k st).solver = s.solver ∧ (s.slotTo k st).general = s.general := by
  cases k <;> exact ⟨rfl, rfl⟩

@[simp] theorem setEvtRaw_srams (s : State) (code inst bit : Nat) (b : Bool) :
    (s.setEvtRaw code inst bit b).solver = s.solver ∧ (s.setEvtRaw code inst bit b).general = s.general := by
  unfold State.setEvtRaw
  split <;> exact ⟨rfl, rfl⟩

@[simp] theorem setInvalidated_srams (s : State) :
    s.setInvalidated.solver = s.solver ∧ s.setInvalidated.general = s.general := by
  simp [State.setInvalidated, State.recur]

/-- A standby slot that a write returns to EMPTY keeps its bytes (R103). -/
@[simp] theorem invalidate_srams (s : State) (k : Slot) :
    (s.invalidate k).solver = s.solver ∧ (s.invalidate k).general = s.general := by
  unfold State.invalidate
  split
  · exact ⟨rfl, rfl⟩
  · simp

/-- Changes of the state that keep both SRAMs keep them when a list of them is made one after the other. -/
theorem foldl_srams {β : Type} (f : State → β → State)
    (hf : ∀ s x, (f s x).solver = s.solver ∧ (f s x).general = s.general) (xs : List β) (s : State) :
    (xs.foldl f s).solver = s.solver ∧ (xs.foldl f s).general = s.general := by
  induction xs generalizing s with
  | nil => exact ⟨rfl, rfl⟩
  | cons x xs ih =>
    obtain ⟨hsol, hgen⟩ := ih (f s x)
    obtain ⟨hsol', hgen'⟩ := hf s x
    exact ⟨hsol.trans hsol', hgen.trans hgen'⟩

/-- The RES_VALID bits that a write inside RESULT clears are register bits (R76). -/
@[simp] theorem touchResult_srams (s : State) (a : Nat) :
    (s.touchResult a).solver = s.solver ∧ (s.touchResult a).general = s.general := by
  unfold State.touchResult
  split
  · exact ⟨rfl, rfl⟩
  · refine foldl_srams _ (fun s d => ?_) _ s
    split <;> exact ⟨rfl, rfl⟩

/-- While DSQ is disabled and no set is active, a host's word above the reserved bytes and below SOLVER_CAP is taken: its enabled bytes land in solver SRAM, and general SRAM is unchanged. -/
theorem hostWord_srams {s : State} {a : Nat} (be : BitVec 8) (v : BitVec 64) (hlo : 0x40200000 ≤ a) (hcap : a < s.r DSQ.SOLVER_CAP)
    (hen : s.enabled 16 = false) (hact : s.on DSQ.ACTIVE_VALID = false) :
    (s.hostWord a be v).solver = writeCells s.solver (laneBytes a be v) ∧ (s.hostWord a be v).general = s.general := by
  have hidle : ∀ k, s.isActive k = false := fun k => by simp [State.isActive, hact]
  have hlo' : ¬ a < 0x40200000 := by omega
  have hcap' : ¬ s.r DSQ.SOLVER_CAP ≤ a := by omega
  simp only [State.hostWord, hen, hidle, hlo', hcap', Bool.and_false, Bool.or_false, Bool.false_eq_true, false_and, or_false, if_false]
  exact ⟨by simp [apply_ite State.solver], by simp [apply_ite State.general]⟩

/-! ### The commands -/

theorem inRegion_iff {base size a : Nat} : inRegion (base, size) a = true ↔ base ≤ a ∧ a < base + size := by
  simp [inRegion]

theorem exec_solverSramHostWrite (t : Nat) (p : Fin 2) (a : BitVec 32) (words : List (BitVec 8 × BitVec 64)) (s : State) :
    exec (.solverSramHostWrite t p a words) s = execSolverSramHostWrite t p a words s := rfl

theorem exec_registerWrite (t : Nat) (r : Requester) (a : BitVec 32) (be : BitVec 4) (v : Word) (s : State) :
    exec (.registerWrite t r a be v) s = .next (s.keep ((s.tick t).busWrite r a.toNat be v)) := rfl

/-- A word written to general SRAM by any requester while the HOST island runs. -/
theorem exec_registerWrite_general {s : State} {a : BitVec 32} (t : Nat) (r : Requester) (v : Word)
    (hlo : 0x48000000 ≤ a.toNat) (hhi : a.toNat < 0x49000000) (hal : a.toNat % 4 = 0) (hon : s.islandOn .host = true) :
    exec (.registerWrite t r a 0xF#4 v) s =
      .next (s.keep { s.tick t with general := writeCells s.general (wordBytesAt a.toNat 0xF#4 v) }) := by
  have hpage : onPage a.toNat = false := by
    have : ¬ a.toNat < 0x06000000 := by omega
    simp [onPage, this]
  have hword : a.toNat / 4 * 4 = a.toNat := by omega
  simp [exec_registerWrite, State.busWrite, hpage, hlo, hhi, hword, hon, writeCells]

/-- A 64-bit word that a host port writes to general SRAM while the HOST island runs. -/
theorem exec_solverSramHostWrite_general {s : State} {a : BitVec 32} (t : Nat) (p : Fin 2) (be : BitVec 8) (v : BitVec 64)
    (hal : a.toNat % 8 = 0) (hlo : 0x48000000 ≤ a.toNat) (hhi : a.toNat < 0x49000000) (hon : s.islandOn .host = true) :
    exec (.solverSramHostWrite t p a [(be, v)]) s =
      .next (s.keepM { s.tick t with general := writeCells s.general (laneBytes a.toNat be v) }) := by
  have hword : a.toNat / 8 * 8 = a.toNat := by omega
  have hsol : inRegion (0x40000000, 0x4000000) a.toNat = false := Bool.eq_false_iff.mpr fun h => by
    obtain ⟨-, hlt⟩ := inRegion_iff.mp h
    omega
  have hgen : inRegion (0x48000000, 0x1000000) a.toNat = true := inRegion_iff.mpr ⟨hlo, hhi⟩
  simp [exec_solverSramHostWrite, execSolverSramHostWrite, State.cmdM, State.answerM, hword, hsol, hgen, hon, writeCells]

/-- A 64-bit word that the owner's port writes to solver SRAM while the SOLVE island runs. -/
theorem exec_solverSramHostWrite_solver {s : State} {a : BitVec 32} (t : Nat) (p : Fin 2) (be : BitVec 8) (v : BitVec 64)
    (hal : a.toNat % 8 = 0) (hlo : 0x40000000 ≤ a.toNat) (hhi : a.toNat < 0x44000000) (hon : s.islandOn .solve = true)
    (hown : s.h HDR.OWNER dsqPage = ownerCode (.host p)) :
    exec (.solverSramHostWrite t p a [(be, v)]) s = .next (s.keepM ((s.tick t).hostWord a.toNat be v)) := by
  have hword : a.toNat / 8 * 8 = a.toNat := by omega
  have hsol : inRegion (0x40000000, 0x4000000) a.toNat = true := inRegion_iff.mpr ⟨hlo, hhi⟩
  have hown' : (s.tick t).h HDR.OWNER dsqPage = ownerCode (.host p) := hown
  simp [exec_solverSramHostWrite, execSolverSramHostWrite, State.cmdM, State.answerM, hword, hsol, hon, hown']

/-- Settles O18: each command answers the state with the word's cells written, and a read of those cells gives the enabled bytes of the word. -/
theorem sramWrites : Obligations.SramWrites := by
  refine ⟨fun t r a v s hlo hhi hal hon => ?_, fun t p a be v s hal => ⟨fun hlo hhi hon => ?_, fun hlo hhi hcap hon hen hown hact => ?_⟩⟩
  · exact ⟨_, exec_registerWrite_general t r v hlo hhi hal hon, fun b => sget_writeCells_wordBytesAt _ _ b v, rfl, rfl, rfl⟩
  · exact ⟨_, exec_solverSramHostWrite_general t p be v hal hlo hhi hon, rfl, rfl, fun b => sget_writeCells_laneBytes _ _ b be v⟩
  · obtain ⟨hsol, hgen⟩ := hostWord_srams (s := s.tick t) be v hlo hcap hen hact
    refine ⟨_, exec_solverSramHostWrite_solver t p be v hal (by omega) hhi hon hown, hgen, rfl, fun b => ?_⟩
    rw [keepM_solver, hsol]
    exact sget_writeCells_laneBytes _ _ b be v

end Sys2Proof.SramWriteLaws
end

section
/-! The byte memories under every command: which answer a command gives says which of the fuses, the general SRAM and the solver SRAM it may change (R25, R76, R501). -/

namespace Sys2Proof.MemoryFrame

open Sys2Proof Sys2Proof.Machine Sys2Proof.Laws

/-- Whatever state the outcome `o` answers, its three byte memories are those of `s`. -/
def Keeps (s : State) (o : Host.Outcome State Fault Refusal) : Prop :=
  ∀ u, o = .next u → u.fuses = s.fuses ∧ u.general = s.general ∧ u.solver = s.solver

theorem keeps_next_keepK (s v : State) : Keeps s (.next (s.keepK v)) := fun _ h => by cases h; exact ⟨rfl, rfl, rfl⟩

theorem keeps_refused (s : State) (r : Refusal) : Keeps s (.refused r) := fun _ h => by cases h

theorem keeps_ite (s : State) {p : Prop} [Decidable p] {o o' : Host.Outcome State Fault Refusal}
    (h : Keeps s o) (h' : Keeps s o') : Keeps s (if p then o else o') := by
  split
  · exact h
  · exact h'

theorem keeps_closeParen (s : State) (e : Fin 4) : Keeps s (execCloseParen e s) := by
  unfold execCloseParen
  split
  · exact keeps_refused s _
  · exact keeps_next_keepK s _

theorem fuses_of_keepM {s u v : State} (h : (.next (s.keepM v) : Host.Outcome State Fault Refusal) = .next u) : u.fuses = s.fuses := by
  cases h; rfl

theorem fuses_general_of_keepS {s u v : State} (h : (.next (s.keepS v) : Host.Outcome State Fault Refusal) = .next u) :
    u.fuses = s.fuses ∧ u.general = s.general := by
  cases h; exact ⟨rfl, rfl⟩

/-! ### Every command -/
/-- Settles O58: the commands are those whose answer may change every byte memory, all but the fuses, the solver SRAM alone, or none. -/
theorem memoriesKept : Obligations.MemoriesKept := by
  intro c s u h
  cases c with
  | attestStart | exportDone | tokenApply | registerWrite | t_ | bmov | remoteReadResponse => exact ⟨trivial, trivial, trivial⟩
  | attestDone | clearStart | powerOnReset | sysrst | brownOut | sysRst | keeperWatchdog | keepEntryDone | newtWake | minOffEnd
  | solverSramHostWrite => exact ⟨fuses_of_keepM (s := s) h, trivial, trivial⟩
  | enable | softReset | applyInstant | stageBoundary | contApplied | stagePrepare | tripSet | tripReqSample | tripStateClear
  | chainFrameRx | bootStep | mirrorCutApply | snapshotInstant | descWindowOpen | descWindowEnd =>
    obtain ⟨hfus, hgen⟩ := fuses_general_of_keepS (s := s) h
    exact ⟨hfus, hgen, trivial⟩
  | aParen | anParen | oParen | onParen | xParen | ld | ldn | and_ | andn | or_ | orn | xor_ | xorn | st | stn | set_ | instrR
  | fp | fn_ | tas | l | add | sub | mul | div | mod_ | mulq | divq | andw | orw | xorw | shl | shr | asr | min_ | max_ | ceq
  | cne | cgt | cge | clt | cle | ton | tof | tp | tonr | trst | tpre | ctu | ctd | crst | cld | cpre =>
    exact keeps_ite s (keeps_next_keepK s _) (keeps_refused s _) u h
  | jmp | jc | jcn | loop => exact keeps_ite s (keeps_refused s _) (keeps_next_keepK s _) u h
  | call => exact keeps_ite s (keeps_next_keepK s _) (keeps_ite s (keeps_refused s _) (keeps_next_keepK s _)) u h
  | closeParen => exact keeps_closeParen s _ u h
  | _ => exact keeps_next_keepK s _ u h

end Sys2Proof.MemoryFrame
end

section
/-! Accesses to gated pages, to reserved addresses and to the SRAMs, and the latched high words of wide values (R18, R21, R48, R50, R69, R76). -/

namespace Sys2Proof.AccessLaws

open Sys2Proof Sys2Proof.Machine Sys2Proof.Laws

/-! ### Accesses that are counted and answer 0 -/

theorem r_gated_count (s : State) (a : Nat) :
    (s.gated a).r IFX.GATED_ACCESS = min (s.r IFX.GATED_ACCESS + 1) (2 ^ 32 - 1) := by
  rw [State.gated, r_raise _ _ _ _ _ _ _ _ _ (by decide), r_w_ne _ _ _ _ _ _ _ _ (by decide), r_inc_same _ _ _ _ _ (by decide)]
  rfl

theorem r_gated_addr (s : State) {a : Nat} (h : a < 2 ^ 32) : (s.gated a).r IFX.GATED_ADDR = a := by
  rw [State.gated, r_raise _ _ _ _ _ _ _ _ _ (by decide), r_w_cut _ _ _ _ _ (by decide)]
  exact Nat.mod_eq_of_lt h

theorem r_gated_unmapped (s : State) (a : Nat) : (s.gated a).r IFX.UNMAPPED_ACCESS = s.r IFX.UNMAPPED_ACCESS := by
  rw [State.gated, r_raise _ _ _ _ _ _ _ _ _ (by decide), r_w_ne _ _ _ _ _ _ _ _ (by decide), r_inc_ne _ _ _ _ _ _ _ _ (by decide)]

theorem r_unmapped_count (s : State) (a : Nat) :
    (s.unmapped a).r IFX.UNMAPPED_ACCESS = min (s.r IFX.UNMAPPED_ACCESS + 1) (2 ^ 32 - 1) := by
  rw [State.unmapped, r_raise _ _ _ _ _ _ _ _ _ (by decide), r_inc_same _ _ _ _ _ (by decide)]
  rfl

theorem r_unmapped_gated (s : State) (a : Nat) : (s.unmapped a).r IFX.GATED_ACCESS = s.r IFX.GATED_ACCESS := by
  rw [State.unmapped, r_raise _ _ _ _ _ _ _ _ _ (by decide), r_inc_ne _ _ _ _ _ _ _ _ (by decide)]

/-- What is returned to a requester stands in its response word. -/
@[simp] theorem resp_reply (s : State) (r : Requester) (v : Nat) : sget 0#32 (s.reply r v).resp (ownerCode r) = BitVec.ofNat 32 v :=
  sget_sset_same _ _ _ _

@[simp] theorem px_reply (s : State) (r : Requester) (v : Nat) (pg : Page) : (s.reply r v).px pg = s.px pg := rfl
@[simp] theorem reply_regs (s : State) (r : Requester) (v : Nat) : (s.reply r v).regs = s.regs := rfl

/-- An access that is answered 0 when it is a read: the state `s` with the response. -/
def zeroRead (s : State) (r : Requester) (write : Bool) : State := if write then s else s.reply r 0

@[simp] theorem r_zeroRead (s : State) (r : Requester) (w : Bool) (f : Fld) (j k : Nat) : (zeroRead s r w).r f j k = s.r f j k := by
  cases w <;> rfl

theorem resp_zeroRead (s : State) (r : Requester) {w : Bool} (h : w = false) : sget 0 (zeroRead s r w).resp (ownerCode r) = 0 := by
  subst h
  exact resp_reply s r 0

/-- A page of the page region lies in 32 bits. -/
theorem pageAddr_addrPage_lt {a : Nat} (h : onPage a = true) : pageAddr (addrPage a) < 2 ^ 32 := by
  simp only [onPage, Bool.and_eq_true, decide_eq_true_eq] at h
  obtain ⟨⟨-, hhi⟩, -⟩ := h
  simp only [pageAddr, addrPage]
  omega

theorem pageExists_addrPage {a : Nat} (h : onPage a = true) : pageExists (addrPage a) = true := by
  simp only [onPage, Bool.and_eq_true] at h
  exact h.2

/-- An access to a page that the requester does not reach (R18). -/
theorem exec_gatedAccess_page {s : State} {r : Requester} {a : BitVec 32} (t : Nat) (w : Bool) (hp : onPage a.toNat = true)
    (hr : s.reaches r (addrPage a.toNat) = false) :
    exec (.gatedAccess t r a w) s = .next (s.keepK (zeroRead ((s.tick t).gated (pageAddr (addrPage a.toNat))) r w)) := by
  have hr' : (s.tick t).reaches r (addrPage a.toNat) = false := hr
  show execGatedAccess t r a w s = _
  simp only [execGatedAccess, State.cmdK, State.answerK, hp, hr', and_self, if_true, zeroRead]

/-- An access to a reserved address (R21, R48). -/
theorem exec_unmappedAccess_reserved {s : State} {a : BitVec 32} (t : Nat) (r : Requester) (w : Bool) (h : reservedAddr a.toNat = true) :
    exec (.unmappedAccess t r a w) s = .next (s.keepK (zeroRead ((s.tick t).unmapped a.toNat) r w)) := by
  show execUnmappedAccess t r a w s = _
  simp only [execUnmappedAccess, State.cmdK, State.answerK, h, Bool.true_or, if_true, zeroRead]

/-! ### Latched words (R50) -/

/-- A word as it stands is a matter of everything but what pages hold beside their registers. -/
theorem liveWord_setPx (s : State) (p pg : Page) (x : PageX) (off : Nat) : (s.setPx p x).liveWord pg off = s.liveWord pg off := rfl

@[simp] theorem view_latchWord (s : State) (r : Requester) (pg : Page) (k v off : Nat) :
    (s.latchWord r pg k v).view pg off = s.view pg off := by
  have hfro : (s.latchWord r pg k v).h HDR.FROZEN pg = s.h HDR.FROZEN pg := rfl
  have hlive : (s.latchWord r pg k v).liveWord pg off = s.liveWord pg off := liveWord_setPx s pg pg _ off
  have hsha : ((s.latchWord r pg k v).px pg).shadow = (s.px pg).shadow := by simp [State.latchWord]
  simp only [State.view, hfro, hlive, hsha]

/-- The words latched on a page after one more. -/
theorem latched_latchWord (s : State) (r : Requester) (pg : Page) (k v : Nat) :
    ((s.latchWord r pg k v).px pg).latched =
      (s.px pg).latched.filter (fun l => !(l.req == ownerCode r && l.off == k)) ++
        [{ req := ownerCode r, off := k, val := BitVec.ofNat 32 v, t := s.up }] := by
  simp [State.latchWord]

/-- Word `k` of the page is latched for the requester, with the value `v`. -/
def Latched (r : Requester) (pg : Page) (k v : Nat) (s : State) : Prop :=
  ∃ l ∈ (s.px pg).latched, l.req = ownerCode r ∧ l.off = k ∧ l.val = BitVec.ofNat 32 v

/-- Word `k` of the page is not latched for the requester. -/
def Unlatched (r : Requester) (pg : Page) (k : Nat) (s : State) : Prop :=
  ∀ l ∈ (s.px pg).latched, (l.req == ownerCode r && l.off == k) = false

theorem latched_of_latchWord (s : State) (r : Requester) (pg : Page) (k v : Nat) : Latched r pg k v (s.latchWord r pg k v) := by
  refine ⟨{ req := ownerCode r, off := k, val := BitVec.ofNat 32 v, t := s.up }, ?_, rfl, rfl, rfl⟩
  rw [latched_latchWord]
  exact List.mem_append_right _ (List.mem_singleton_self _)

/-- A latched word stays latched with its value when a word is latched that is another one or has the same value. -/
theorem latched_latchWord_of {s : State} {r : Requester} {pg : Page} {k v k' v' : Nat} (h : Latched r pg k v s) (hv : k' = k → v' = v) :
    Latched r pg k v (s.latchWord r pg k' v') := by
  by_cases hk : k' = k
  · rw [hk, hv hk]
    exact latched_of_latchWord s r pg k v
  · obtain ⟨l, hl, hreq, hoff, hval⟩ := h
    refine ⟨l, ?_, hreq, hoff, hval⟩
    rw [latched_latchWord]
    exact List.mem_append_left _ (List.mem_filter.mpr ⟨hl, by simp [hoff, Ne.symm hk]⟩)

theorem unlatched_latchWord {s : State} {r : Requester} {pg : Page} {k k' v' : Nat} (h : Unlatched r pg k s) (hk : k ≠ k') :
    Unlatched r pg k (s.latchWord r pg k' v') := by
  intro l hl
  rw [latched_latchWord] at hl
  rcases List.mem_append.mp hl with hl | hl
  · exact h l (List.mem_filter.mp hl).1
  · rw [List.mem_singleton.mp hl]
    simp [Ne.symm hk]

/-- The words `ks` of a page are latched for a requester as they read. -/
def latchAll (r : Requester) (pg : Page) (ks : List Nat) (s : State) : State :=
  ks.foldl (fun (s : State) (k : Nat) => s.latchWord r pg k (s.view pg k)) s

theorem latchAll_cons (r : Requester) (pg : Page) (k : Nat) (ks : List Nat) (s : State) :
    latchAll r pg (k :: ks) s = latchAll r pg ks (s.latchWord r pg k (s.view pg k)) := rfl

@[simp] theorem view_latchAll (r : Requester) (pg : Page) (ks : List Nat) (s : State) (off : Nat) :
    (latchAll r pg ks s).view pg off = s.view pg off := by
  induction ks generalizing s with
  | nil => rfl
  | cons k ks ih => rw [latchAll_cons, ih, view_latchWord]

/-- A word that is latched as it reads stays so while words of the page are latched. -/
theorem latched_latchAll_of {s : State} {r : Requester} {pg : Page} {k : Nat} (h : Latched r pg k (s.view pg k) s) (ks : List Nat) :
    Latched r pg k (s.view pg k) (latchAll r pg ks s) := by
  induction ks generalizing s with
  | nil => exact h
  | cons j ks ih =>
    have hj := latched_latchWord_of (k' := j) (v' := s.view pg j) h fun e => by rw [e]
    have hview := view_latchWord s r pg j (s.view pg j) k
    rw [latchAll_cons, ← hview]
    exact ih (by rwa [hview])

/-- Every word that is latched shows what it read as. -/
theorem latched_latchAll {s : State} {r : Requester} {pg : Page} {ks : List Nat} {k : Nat} (h : k ∈ ks) :
    Latched r pg k (s.view pg k) (latchAll r pg ks s) := by
  induction ks generalizing s with
  | nil => cases h
  | cons j ks ih =>
    have hview := view_latchWord s r pg j (s.view pg j) k
    rw [latchAll_cons, ← hview]
    rcases List.mem_cons.mp h with rfl | h
    · exact latched_latchAll_of (by rw [hview]; exact latched_of_latchWord s r pg k _) ks
    · exact ih h

theorem unlatched_latchAll {s : State} {r : Requester} {pg : Page} {k : Nat} (h : Unlatched r pg k s) {ks : List Nat} (hk : k ∉ ks) :
    Unlatched r pg k (latchAll r pg ks s) := by
  induction ks generalizing s with
  | nil => exact h
  | cons j ks ih =>
    rw [List.mem_cons, not_or] at hk
    exact ih (unlatched_latchWord h hk.1) hk.2

/-- A word that is not latched reads as it stands. -/
theorem readWord_unlatched {s : State} {r : Requester} {pg : Page} {off : Nat} (h : Unlatched r pg off s) :
    s.readWord r pg off = s.reply r (s.view pg off) := by
  have hfind : (s.px pg).latched.find? (fun l => l.req == ownerCode r && l.off == off) = none :=
    List.find?_eq_none.mpr fun l hl => by simp [h l hl]
  simp only [State.readWord, hfind]

/-- A low word that is not latched answers as it stands, after its high words have been latched. -/
theorem readLow_unlatched {s : State} {r : Requester} {pg : Page} {off : Nat} (h : Unlatched r pg off s)
    (hoff : off ∉ wideHighs pg off) : s.readLow r pg off = (latchAll r pg (wideHighs pg off) s).reply r (s.view pg off) := by
  have hany : (s.px pg).latched.any (fun l => l.req == ownerCode r && l.off == off) = false :=
    List.any_eq_false.mpr fun l hl => by simp [h l hl]
  have hread := readWord_unlatched (unlatched_latchAll h hoff)
  rw [view_latchAll] at hread
  simp only [State.readLow, hany, Bool.false_eq_true, if_false]
  exact hread

/-- A low word is not among the words that its read latches. -/
theorem not_mem_wideHighs {pg : Page} {off : Nat} (h : wideRead pg off = true) : off ∉ wideHighs pg off := by
  obtain ⟨code, inst⟩ := pg
  unfold wideHighs
  split
  · rename_i hcode
    obtain ⟨hc, hlo⟩ := hcode
    simp only at hc
    subst hc
    have hhi : off < 0x5C0 := by
      simp only [wideRead, wideLow, Bool.false_or, Bool.and_eq_true, decide_eq_true_eq] at h
      exact h.1.2
    simp only
    split
    · simp only [List.mem_cons, List.not_mem_nil, or_false]
      omega
    · simp only [List.mem_singleton]
      omega
  · simp

/-! ### Reads -/

theorem pageRead_reached {s : State} {r : Requester} {pg : Page} (he : pageExists pg = true) (hr : s.reaches r pg = true)
    (f : State → State) : s.pageRead r pg f = f s := by
  simp [State.pageRead, he, hr]

/-- The read of a low word on a page that the requester reaches (R50). -/
theorem exec_wideLowRead_page {s : State} {r : Requester} {a : BitVec 32} (t : Nat) (hp : onPage a.toNat = true) (hal : a.toNat % 4 = 0)
    (hr : s.reaches r (addrPage a.toNat) = true) (hw : wideRead (addrPage a.toNat) (a.toNat % 4096) = true) :
    exec (.wideLowRead t r a) s = .next (s.keepK ((s.tick t).readLow r (addrPage a.toNat) (a.toNat % 4096))) := by
  have hoff : a.toNat % 4096 / 4 * 4 = a.toNat % 4096 := by omega
  have hr' : (s.tick t).reaches r (addrPage a.toNat) = true := hr
  show execWideLowRead t r a s = _
  simp only [execWideLowRead, State.cmdK, State.answerK, hp, Bool.not_true, Bool.false_eq_true, if_false,
    pageRead_reached (pageExists_addrPage hp) hr', hoff, hw, if_true]

/-- The read of a word that is no page's and no reserved address: one of the SRAMs (R21). -/
theorem exec_wideLowRead_sram {s : State} {a : BitVec 32} (t : Nat) (r : Requester) (hp : onPage a.toNat = false)
    (hres : reservedAddr a.toNat = false) :
    exec (.wideLowRead t r a) s = .next (s.keepK ((s.tick t).sramRead r a.toNat)) := by
  show execWideLowRead t r a s = _
  simp only [execWideLowRead, State.cmdK, State.answerK, hp, hres, Bool.not_false, Bool.false_eq_true, if_true, if_false]

theorem onPage_false_of_le {a : Nat} (h : 0x06000000 ≤ a) : onPage a = false := by
  have : ¬ a < 0x06000000 := by omega
  simp [onPage, this]

/-- General SRAM answers the word as it is stored. -/
theorem sramRead_general {s : State} {a : Nat} (r : Requester) (ha : inGeneral a = true) (hon : s.islandOn .host = true) :
    s.sramRead r a = s.reply r (leVal ((sgets 0 s.general (a / 4 * 4) 4).map (·.toNat))) := by
  simp only [inGeneral, Bool.and_eq_true, decide_eq_true_eq] at ha
  simp only [State.sramRead, ha.1, hon, if_true]

/-- Solver SRAM below SOLVER_CAP answers a good word as it is stored. -/
theorem sramRead_solver {s : State} {a : Nat} (r : Requester) (ha : inSolver a = true) (hcap : a < s.r DSQ.SOLVER_CAP)
    (hon : s.islandOn .solve = true) (hpoi : a / 8 * 8 ∉ s.pwr.poison) (hbad : (0, a / 8 * 8) ∉ s.pwr.bad) :
    s.sramRead r a = s.reply r (leVal ((sgets 0 s.solver (a / 4 * 4) 4).map (·.toNat))) := by
  simp only [inSolver, Bool.and_eq_true, decide_eq_true_eq] at ha
  have hlow : ¬ 0x48000000 ≤ a := by omega
  have hcap' : ¬ s.r DSQ.SOLVER_CAP ≤ a := by omega
  simp [State.sramRead, hlow, hon, hcap', hpoi, hbad]

/-- Settles O9: an unreached or reserved access is counted and answered 0, a low word answers beside its latched high words, and the SRAMs answer what they hold. -/
theorem accesses : Obligations.Accesses := by
  intro t r a s
  refine ⟨fun w => ⟨fun hp hr => ?_, fun hres => ?_⟩, fun hp hal hr hw hnone => ?_, fun ha hon => ?_, fun ha hcap hon hpoi hbad => ?_⟩
  · refine ⟨_, exec_gatedAccess_page t w hp hr, ?_, ?_, fun hw => resp_zeroRead _ r hw, ?_, rfl, rfl⟩
    · simp [r_gated_count]
    · simp [r_gated_addr _ (pageAddr_addrPage_lt hp)]
    · simp [r_gated_unmapped]
  · refine ⟨_, exec_unmappedAccess_reserved t r w hres, ?_, fun hw => resp_zeroRead _ r hw, ?_, rfl, rfl⟩
    · simp [r_unmapped_count]
    · simp [r_unmapped_gated]
  · have hun : Unlatched r (addrPage a.toNat) (a.toNat % 4096) (s.tick t) := fun l hl =>
      Bool.eq_false_iff.mpr (List.find?_eq_none.mp hnone l hl)
    refine ⟨_, exec_wideLowRead_page t hp hal hr hw, ?_, fun k hk => ?_⟩
    · simp [readLow_unlatched hun (not_mem_wideHighs hw)]
    · rw [px_keepK, readLow_unlatched hun (not_mem_wideHighs hw), px_reply]
      exact latched_latchAll hk
  · have hge : 0x06000000 ≤ a.toNat := by
      simp only [inGeneral, Bool.and_eq_true, decide_eq_true_eq] at ha
      omega
    refine ⟨_, exec_wideLowRead_sram t r (onPage_false_of_le hge) (by simp [reservedAddr, ha]), ?_⟩
    simp [sramRead_general (s := s.tick t) r ha hon]
  · have hge : 0x06000000 ≤ a.toNat := by
      simp only [inSolver, Bool.and_eq_true, decide_eq_true_eq] at ha
      omega
    refine ⟨_, exec_wideLowRead_sram t r (onPage_false_of_le hge) (by simp [reservedAddr, ha]), ?_⟩
    simp [sramRead_solver (s := s.tick t) r ha hcap hon hpoi hbad]

end Sys2Proof.AccessLaws
end

section
/-! Islands and their PLLs, the AON gateway, DOZE and RUN, readings, operating time and wear (R12, R19, R522 to R525, R528, R534, R536). -/

namespace Sys2Proof.PowerLaws

open Sys2Proof Sys2Proof.Machine Sys2Proof.Laws

/-! ### A record that is written leaves the power record -/

@[simp] theorem ringFill_pwr (s : State) : s.ringFill.pwr = s.pwr := setRaw_pwr _ _ _ _ _ _ _
@[simp] theorem toRing_pwr (s : State) (x : Rec1) : (s.toRing x).pwr = s.pwr := by
  simp [State.toRing, State.oldest, State.inc]
@[simp] theorem holdFill_pwr (s : State) : s.holdFill.pwr = s.pwr := rfl

theorem foldl_toRing_pwr (xs : List Rec1) (s : State) : (xs.foldl (fun s x => s.toRing x) s).pwr = s.pwr := by
  induction xs generalizing s with
  | nil => rfl
  | cons x xs ih => rw [List.foldl_cons, ih, toRing_pwr]

@[simp] theorem unhold_pwr (s : State) : s.unhold.pwr = s.pwr := by
  simp [State.unhold, foldl_toRing_pwr]

@[simp] theorem putRec_pwr (s : State) (code : Nat) (pay : List Nat) : (s.putRec code pay).pwr = s.pwr := by
  unfold State.putRec
  rw [apply_ite State.pwr]
  simp

@[simp] theorem thaw_pwr (s : State) (cause : Nat) : (s.thaw cause).pwr = s.pwr := by
  unfold State.thaw
  simp only []
  split <;> simp

@[simp] theorem writeRec_pwr (s : State) (code : Nat) (pay : List Nat) : (s.writeRec code pay).pwr = s.pwr := by
  unfold State.writeRec
  simp only [putRec_pwr]
  split
  · split <;> simp
  · rfl

/-- A change of the power state changes nothing else of the power record. -/
@[simp] theorem setPower_pwr (s : State) (st : PwrState) (by_ : Nat) : (s.setPower st by_).pwr = { s.pwr with st := st } := by
  simp [State.setPower]

/-! ### Commands under an open lock (R61) -/

theorem lockOpen_countWrite (s : State) (pg : Page) : (s.countWrite pg).lockOpen pg = s.lockOpen pg := by
  simp [State.lockOpen, HDR.OPEN]

/-- A command of a page that takes it, with its lock open, acts on the counted state. -/
theorem lockedCmd_opened {s : State} {r : Requester} {pg : Page} (h : Opened s r pg) (f : State → State) :
    s.lockedCmd r pg f = f (s.countWrite pg) := by
  obtain ⟨htakes, hopen⟩ := h
  have hopen' : (s.countWrite pg).lockOpen pg = true := (lockOpen_countWrite s pg).trans hopen
  simp [State.lockedCmd, pageWrite_takes htakes, hopen']

theorem cmdK_lockedCmd {s : State} {r : Requester} {pg : Page} (h : Opened s r pg) (t : Nat) (f : State → State) :
    s.cmdK t (fun s => s.lockedCmd r pg f) = .next (s.keepK (f ((s.tick t).countWrite pg))) := by
  have h' : Opened (s.tick t) r pg := h
  simp only [State.cmdK, State.answerK, lockedCmd_opened h']

/-- A counted write leaves ENABLE of every page. -/
@[simp] theorem enabled_countWrite (s : State) (pg : Page) (c i : Nat) : (s.countWrite pg).enabled c i = s.enabled c i := by
  have hkey : (hdr HDR.ENABLE ⟨c, i⟩).key i 0 ≠ (hdr HDR.COUNT pg).key pg.inst 0 := by
    simp only [Fld.key, hdr, HDR.ENABLE, HDR.COUNT]
    omega
  simp only [State.enabled, State.h, r_countWrite _ _ _ _ _ hkey]

@[simp] theorem enabled_tick (s : State) (t c i : Nat) : (s.tick t).enabled c i = s.enabled c i := rfl
@[simp] theorem countWrite_pwr (s : State) (pg : Page) : (s.countWrite pg).pwr = s.pwr := rfl

/-! ### DOZE and RUN -/

/-- RUN in DOZE (R524). -/
theorem exec_pwrRun_doze {s : State} {r : Requester} (t : Nat) (h : Opened s r ⟨0, 0⟩) (hst : s.pwr.st = .doze) :
    exec (.pwrRun t r) s = .next (s.keepK (((s.tick t).countWrite ⟨0, 0⟩).toRun (ownerCode r))) := by
  have hst' : ((s.tick t).countWrite ⟨0, 0⟩).pwr.st = .doze := hst
  refine (cmdK_lockedCmd h t _).trans ?_
  rw [if_pos hst']

/-- DOZE in RUN, on a device outside a pair whose solver and loop clusters are disabled (R525). -/
theorem exec_pwrDoze_idle {s : State} {r : Requester} (t : Nat) (h : Opened s r ⟨0, 0⟩) (hst : s.pwr.st = .run)
    (hrole : s.r DCH.ROLE = 0) (hdsq : s.enabled 16 = false) (hcle : ∀ c, c < 4 → s.enabled 18 c = false) :
    exec (.pwrDoze t r) s = .next (s.keepK (((((s.tick t).countWrite ⟨0, 0⟩).setPwr fun k =>
      { k with clk := k.clk &&& ~~~dozeMask, pll := k.pll &&& ~~~dozeMask }).w PCR.REFUSE_CAUSE 0).setPower .doze (ownerCode r))) := by
  have hrole' : ((s.tick t).countWrite ⟨0, 0⟩).r DCH.ROLE = 0 := (r_countWrite _ _ _ _ _ (by decide)).trans hrole
  have hcle' : ¬ ∃ c < 4, s.enabled 18 c = true := fun ⟨c, hc, hen⟩ => by simp [hcle c hc] at hen
  refine (cmdK_lockedCmd h t _).trans ?_
  simp [hst, hrole', hdsq, hcle']

/-! ### Islands and their PLLs -/

theorem islandBit_lt (isl : Island) : islandBit isl < 9 := by cases isl <;> decide

theorem getLsbD_lock (pll : BitVec 9) (isl : Island) : (pll ||| (1#9 <<< islandBit isl)).getLsbD (islandBit isl) = true := by
  simp [islandBit_lt isl]

theorem getLsbD_unlock (pll : BitVec 9) (isl : Island) : (pll &&& ~~~ (1#9 <<< islandBit isl)).getLsbD (islandBit isl) = false := by
  simp [islandBit_lt isl]

/-- A PLL in lock that loses it (R536). -/
theorem exec_pllLoss_locked {s : State} {isl : Island} (t : Nat) (h : s.pwr.pll.getLsbD (islandBit isl) = true) :
    exec (.pllLoss t isl) s = .next (s.keepK (((((s.tick t).setPwr fun k =>
      { k with pll := k.pll &&& ~~~ (1#9 <<< islandBit isl) })).inc PCR.PLL_LOSSES).health 5 (islandBit isl) 0)) := by
  have h' : (s.tick t).pwr.pll.getLsbD (islandBit isl) = true := h
  show execPllLoss t isl s = _
  simp only [execPllLoss, State.cmdK, State.answerK, h', if_true]

@[simp] theorem health_pwr (s : State) (kind num cause : Nat) : (s.health kind num cause).pwr = s.pwr := raise_pwr _ _ _ _ _ _

/-- HEALTH_WARN changes the pending bits of the KPR page alone. -/
theorem r_health (s : State) (kind num cause : Nat) (g : Fld) (j k : Nat) (h : g.key j k ≠ pendKey 1 0 0) :
    (s.health kind num cause).r g j k = s.r g j k := r_raise _ _ _ _ _ _ _ _ _ h

/-! ### The AON gateway (R19) -/

theorem wordFields_cal : wordFields ⟨9, 0⟩ 0x098 = [(RTC.CAL, 0)] := by decide +kernel

/-- The write of RTC CAL that waits longest is delivered. -/
theorem exec_aonWriteDelivery_cal {s : State} {v : Word} {rest : List (Nat × Nat × Word)} (t : Nat) (h : s.aonQ = (9, 0x098, v) :: rest) :
    exec (.aonWriteDelivery t) s = .next (s.keepK { s.tick t with
      aonQ := rest, aonRegs := sset 0#32 s.aonRegs (RTC.CAL.key 0 0) (BitVec.ofNat 32 (bitsAt v.toNat 0 10)) }) := by
  have h' : (s.tick t).aonQ = (9, 0x098, v) :: rest := h
  show execAonWriteDelivery t s = _
  simp only [execAonWriteDelivery, State.cmdK, State.answerK, h', wordFields_cal, List.foldl_cons, List.foldl_nil]
  rfl

/-! ### Readings -/

theorem bits_mod (w : Nat) (x : Int) : bits w x % 2 ^ w = bits w x := by
  refine Nat.mod_eq_of_lt ?_
  have hpos : (0 : Int) < (2 ^ w : Nat) := by positivity
  have hlt := Int.emod_lt_of_pos x hpos
  unfold bits
  omega

/-- The repetitions of a field written one after the other. -/
theorem r_forN_w (s : State) (f : Fld) (v : Nat → Nat) (inst n i : Nat) (hs : 0 < f.stride) (hw : f.width ≤ 32) (hi : i < n) :
    (s.forN n (fun s i => s.w f (v i) inst i)).r f inst i = v i % 2 ^ f.width := by
  have step (n : Nat) : s.forN (n + 1) (fun s i => s.w f (v i) inst i) = (s.forN n (fun s i => s.w f (v i) inst i)).w f (v n) inst n := by
    simp [State.forN, List.range_succ]
  induction n with
  | zero => omega
  | succ n ih =>
    rw [step]
    by_cases hn : i = n
    · rw [hn, r_w_cut _ _ _ _ _ hw]
    · rw [r_w_ne, ih (by omega)]
      have hne : i * f.stride ≠ n * f.stride := fun e => hn (Nat.eq_of_mul_eq_mul_right hs e)
      simp only [Fld.key]
      omega

/-- The largest of values of which one is `h` and none is above it. -/
theorem foldl_max_eq {f : Nat → Int} {h : Int} (hle : ∀ i, i < 4 → f i ≤ h) (hex : ∃ i, i < 4 ∧ f i = h) :
    (List.range 4).foldl (fun m i => max m (f i)) (f 0) = h := by
  have hrange : List.range 4 = [0, 1, 2, 3] := rfl
  have h0 := hle 0 (by omega)
  have h1 := hle 1 (by omega)
  have h2 := hle 2 (by omega)
  have h3 := hle 3 (by omega)
  obtain ⟨i, hi, hih⟩ := hex
  simp only [hrange, List.foldl_cons, List.foldl_nil]
  interval_cases i <;> omega

/-! ### Operating time and wear -/

/-- What holds of a state and of the state that an effect makes of it holds whether or not the effect acts. -/
theorem when_intro {P : State → Prop} {s : State} {b : Bool} {f : State → State} (h : P s) (hf : P (f s)) : P (s.when b f) := by
  unfold State.when
  split
  · exact hf
  · exact h

@[simp] theorem lifeChecks_lifeFrac (s : State) : s.lifeChecks.pwr.lifeFrac = s.pwr.lifeFrac := by
  unfold State.lifeChecks
  exact when_intro (P := fun u => u.pwr.lifeFrac = s.pwr.lifeFrac) rfl (by rw [health_pwr]; rfl)

/-- The thresholds of LIFE_USED change the pending bits of the KPR page alone. -/
theorem r_lifeChecks (s : State) (g : Fld) (j k : Nat) (h : g.key j k ≠ pendKey 1 0 0) : s.lifeChecks.r g j k = s.r g j k := by
  unfold State.lifeChecks
  exact when_intro (P := fun u => u.r g j k = s.r g j k) rfl (r_health _ _ _ _ _ _ _ h)

/-- The wear of a second at the hottest reading `h` (R534). -/
theorem exec_lifeTick {s : State} {h : Int} (t : Nat) (hon : s.islandOn .keep = true) (hle : ∀ i, i < 4 → s.ri PCR.TEMP 0 i ≤ h)
    (hex : ∃ i, i < 4 ∧ s.ri PCR.TEMP 0 i = h) :
    exec (.lifeTick t) s = .next (s.keepK (((((s.tick t).setPwr fun k =>
      { k with lifeFrac := (s.pwr.lifeFrac + ageFactor h) % (3600 * 65536) })).inc KPR.LIFE_USED 0 0
        ((s.pwr.lifeFrac + ageFactor h) / (3600 * 65536))).lifeChecks)) := by
  have hhot : (List.range 4).foldl (fun m i => max m ((s.tick t).ri PCR.TEMP 0 i)) ((s.tick t).ri PCR.TEMP) = h :=
    foldl_max_eq (f := fun i => s.ri PCR.TEMP 0 i) hle hex
  show execLifeTick t s = _
  simp only [execLifeTick, runK_on hon, hhot]
  rfl

/-- Settles O14, island by island and reading by reading: each command answers the state that its rule names. -/
theorem islandsPowerAndWear : Obligations.IslandsPowerAndWear := by
  refine ⟨fun t isl s => ⟨⟨_, rfl, getLsbD_lock _ isl, rfl⟩, fun hpll => ?_, fun v rest hq => ?_⟩,
    fun t s => ⟨fun r hop hst => ?_, fun r hop hst hrole hdsq hcle => ?_, fun hon rail mv => ?_, fun hon temps => ?_, fun hon hok => ?_,
      fun hon h hle hex => ?_⟩⟩
  · refine ⟨_, exec_pllLoss_locked t hpll, ?_, ?_⟩
    · simp only [keepK_pwr, health_pwr]
      exact getLsbD_unlock _ isl
    · rw [r_keepK, r_health _ _ _ _ _ _ _ (by decide), r_inc_same _ _ _ _ _ (by decide)]
      rfl
  · refine ⟨_, exec_aonWriteDelivery_cal t hq, rfl, ?_, rfl⟩
    have hval := sget_sset_same 0#32 s.aonRegs (RTC.CAL.key 0 0) (BitVec.ofNat 32 (bitsAt v.toNat 0 10))
    refine (congrArg BitVec.toNat hval).trans ?_
    simp only [bitsAt, pow_zero, Nat.div_one, BitVec.toNat_ofNat]
    omega
  · refine ⟨_, exec_pwrRun_doze t hop hst, ?_⟩
    simp [State.toRun, dozeMask, islandBit]
  · refine ⟨_, exec_pwrDoze_idle t hop hst hrole hdsq hcle, ?_⟩
    simp [State.islandOn, dozeMask, islandBit]
  · refine ⟨_, runK_on hon t _, ?_⟩
    have hkey : PCR.RAIL_MV.key 0 rail ≠ pendKey 0 0 0 := by
      simp only [Fld.key, PCR.RAIL_MV, pendKey, hdr, HDR.EVT_PEND]
      split <;> omega
    beta_reduce
    rw [r_keepK, r_raise _ _ _ _ _ _ _ _ _ hkey, r_w_cut _ _ _ _ _ (by decide)]
    exact Nat.mod_eq_of_lt mv.isLt
  · refine ⟨_, runK_on hon t _, fun i hi => ?_⟩
    have hpend : PCR.TEMP.key 0 i ≠ pendKey 0 0 2 := by
      simp only [Fld.key, PCR.TEMP, pendKey, hdr, HDR.EVT_PEND]
      split <;> omega
    have hraw : PCR.TEMP.key 0 i ≠ rawKey 0 0 2 := by
      simp only [Fld.key, PCR.TEMP, rawKey, hdr, HDR.EVT_RAW]
      split <;> omega
    rw [r_keepK, r_setRaw _ _ _ _ _ _ _ _ _ _ hpend hraw]
    exact (r_forN_w _ PCR.TEMP (fun i => bits PCR.TEMP.width (temps.getD i 0)) 0 4 i (by decide) (by decide) hi).trans (bits_mod _ _)
  · have hok' : (s.tick t).mramOk = true := hok
    refine ⟨_, runK_on hon t _, ?_⟩
    rw [if_pos hok']
    exact ⟨rfl, rfl⟩
  · refine ⟨_, exec_lifeTick t hon hle hex, ?_, ?_⟩
    · rw [keepK_pwr, lifeChecks_lifeFrac]
      rfl
    · rw [r_keepK, r_lifeChecks _ _ _ _ (by decide), r_inc_same _ _ _ _ _ (by decide)]
      rfl

end Sys2Proof.PowerLaws
end

section
/-! The start of a plan period: what the steps of a snapshot leave of PERIOD_SEQ, the snapshot's instant and the time (R26, R111). -/

namespace Sys2Proof.PeriodLaws

open Sys2Proof Sys2Proof.Machine Sys2Proof.Laws

/-- `u` shows the period of `s`: its number, its snapshot instant, and the time. -/
structure SamePeriod (s u : State) : Prop where
  seq : u.r DSQ.PERIOD_SEQ = s.r DSQ.PERIOD_SEQ
  tk : u.dsq.tk = s.dsq.tk
  now : u.now = s.now

namespace SamePeriod

variable {s u v : State}

theorem refl (s : State) : SamePeriod s s := ⟨rfl, rfl, rfl⟩

theorem trans (h : SamePeriod s u) (k : SamePeriod u v) : SamePeriod s v :=
  ⟨k.seq.trans h.seq, k.tk.trans h.tk, k.now.trans h.now⟩

theorem ite {c : Prop} [Decidable c] (h : SamePeriod s u) (k : SamePeriod s v) : SamePeriod s (if c then u else v) := by
  split
  · exact h
  · exact k

theorem foldl {β : Type} {f : State → β → State} (hf : ∀ u x, SamePeriod u (f u x)) (xs : List β) (s : State) : SamePeriod s (xs.foldl f s) := by
  induction xs generalizing s with
  | nil => exact refl s
  | cons x xs ih => exact (hf s x).trans (ih (f s x))

theorem w (h : SamePeriod s u) {f : Fld} {x i j : Nat} (hk : DSQ.PERIOD_SEQ.key 0 0 ≠ f.key i j) : SamePeriod s (u.w f x i j) :=
  ⟨(r_w_ne _ _ _ _ _ _ _ _ hk).trans h.seq, h.tk, h.now⟩

/-- A field that stands once on the page. -/
theorem w0 (h : SamePeriod s u) {f : Fld} {x : Nat} (hk : DSQ.PERIOD_SEQ.key 0 0 ≠ f.key 0 0) : SamePeriod s (u.w f x) := h.w hk

theorem raise (h : SamePeriod s u) {c i b : Nat} {p q : List Nat} (hk : DSQ.PERIOD_SEQ.key 0 0 ≠ pendKey c i b) :
    SamePeriod s (u.raise c i b p q) :=
  ⟨(r_raise _ _ _ _ _ _ _ _ _ hk).trans h.seq, by rw [raise_dsq, h.tk], by rw [raise_now, h.now]⟩

theorem setRaw (h : SamePeriod s u) {c i b : Nat} {x : Bool} {p q : List Nat} (hk : DSQ.PERIOD_SEQ.key 0 0 ≠ pendKey c i b)
    (hr : DSQ.PERIOD_SEQ.key 0 0 ≠ rawKey c i b) : SamePeriod s (u.setRaw c i b x p q) :=
  ⟨(r_setRaw _ _ _ _ _ _ _ _ _ _ hk hr).trans h.seq, by rw [setRaw_dsq, h.tk], by rw [setRaw_now, h.now]⟩

theorem setDsq (h : SamePeriod s u) {f : DsqX → DsqX} (hf : (f u.dsq).tk = u.dsq.tk) : SamePeriod s (u.setDsq f) :=
  ⟨h.seq, hf.trans h.tk, h.now⟩

theorem setHo (h : SamePeriod s u) (f : HoX → HoX) : SamePeriod s (u.setHo f) := ⟨h.seq, h.tk, h.now⟩

theorem setDch (h : SamePeriod s u) (f : DchX → DchX) : SamePeriod s (u.setDch f) := ⟨h.seq, h.tk, h.now⟩

/-! ### Descriptors that are abandoned (R114) -/

theorem showRun (h : SamePeriod s u) : SamePeriod s u.showRun := by
  unfold State.showRun
  split
  · exact (((h.w (by decide)).w (by decide)).w (by decide)).w (by decide)
  · refine ite ?_ (ite ?_ ?_)
    · exact ((h.w0 (by decide)).w0 (by decide)).w0 (by decide)
    · exact (h.w0 (by decide)).w0 (by decide)
    · exact ((h.w0 (by decide)).w0 (by decide)).w0 (by decide)

theorem setStatus (h : SamePeriod s u) (d st : Nat) : SamePeriod s (u.setStatus d st) := by
  refine ite (h.w (by decide)) (ite (h.w (by decide)) (h.w ?_))
  split <;> decide

theorem abandonDesc (h : SamePeriod s u) (d : Nat) : SamePeriod s (u.abandonDesc d) := by
  unfold State.abandonDesc
  refine ite (setHo (raise (setStatus (w0 h ?_) _ _) ?_) _) (raise (setStatus (w0 h ?_) _ _) ?_)
  all_goals decide

theorem abandonRun (h : SamePeriod s u) : SamePeriod s u.abandonRun := by
  unfold State.abandonRun
  split
  · exact h
  · exact ((h.abandonDesc _).setDsq rfl).showRun

theorem abandonAll (s : State) : SamePeriod s s.abandonAll := by
  have hrun := (refl s).abandonRun
  exact ite hrun ((hrun.trans (foldl (fun u i => (refl u).abandonDesc _) _ _)).setDsq rfl)

/-! ### Sets that leave, and a set that becomes active (R103, R107, R111) -/

theorem showStby (h : SamePeriod s u) : SamePeriod s u.showStby := h.w (by decide)

theorem setSlot (h : SamePeriod s u) (k : Slot) (x : SlotX) : SamePeriod s (u.setSlot k x) := by
  cases k
  · exact h.setDsq (f := fun d => { d with slotA := x }) rfl
  · exact h.setDsq (f := fun d => { d with slotB := x }) rfl

theorem slotTo (h : SamePeriod s u) (k : Slot) (st : SlotState) : SamePeriod s (u.slotTo k st) := (h.setSlot k _).showStby

theorem setInvalidated (h : SamePeriod s u) : SamePeriod s u.setInvalidated := by
  have hraw : SamePeriod s (u.setEvtRaw 16 0 3 false) := h.w (by decide)
  exact hraw.setRaw (by decide) (by decide)

theorem invalidate (h : SamePeriod s u) (k : Slot) : SamePeriod s (u.invalidate k) := ite h (h.slotTo k .empty).setInvalidated

theorem predictedConts (h : SamePeriod s u) (f : State → Nat → Nat) :
    SamePeriod s (u.forN 8 fun s j => s.w DSQ.PRED_CONT (f s j) 0 j) :=
  h.trans (foldl (fun u j => (refl u).w (by simp only [Fld.key, DSQ.PERIOD_SEQ, DSQ.PRED_CONT]; omega)) _ _)

theorem predict (h : SamePeriod s u) : SamePeriod s u.predict :=
  ite (predictedConts ((h.w (by decide)).w (by decide)) _) (predictedConts ((h.w (by decide)).w (by decide)) _)

theorem dropActive (h : SamePeriod s u) : SamePeriod s u.dropActive :=
  ((((h.w (by decide)).w (by decide)).w (by decide)).slotTo _ .empty).predict

theorem dropMisfits (h : SamePeriod s u) : SamePeriod s u.dropMisfits := by
  have hcap : SamePeriod s (if u.on DSQ.ACTIVE_VALID && u.capMisfit u.activeSlot then u.dropActive else u) := ite h.dropActive h
  exact (ite hcap.dropActive.setInvalidated hcap).trans (foldl (fun u k => ite ((refl u).invalidate k) (refl u)) _ _)

theorem setPwr (h : SamePeriod s u) (p : PwrX) : SamePeriod s { u with pwr := p } := ⟨h.seq, h.tk, h.now⟩

theorem makeActive (h : SamePeriod s u) (k : Slot) : SamePeriod s (u.makeActive k) := by
  unfold State.makeActive
  refine setRaw (predict (showStby (setPwr (setHo (w0 (w0 (w0 (w0 (w0 (slotTo (ite ?_ ?_) _ _) ?_) ?_) ?_) ?_) ?_) _) _))) ?_ ?_
  · exact h.slotTo _ _
  · exact h
  all_goals decide

theorem putChain (h : SamePeriod s u) (p : Nat) (f : ChainFrame) : SamePeriod s (u.putChain p f) := ite (h.setDch _) h

theorem chainSend (h : SamePeriod s u) (dst cls typ : Nat) (pay : List Nat) : SamePeriod s (u.chainSend dst cls typ pay) := by
  unfold State.chainSend
  refine ite h (ite (putChain (h.setDch _) _ _) (ite (putChain (putChain (h.setDch _) _ _) _ _) ?_))
  split
  · exact ite (putChain (h.setDch _) _ _) (putChain (h.setDch _) _ _)
  · exact putChain (h.setDch _) _ _

theorem sendSlots (h : SamePeriod s u) : SamePeriod s u.sendSlots := ite (h.chainSend _ _ _ _) h

theorem switchSet (h : SamePeriod s u) : SamePeriod s u.switchSet := by
  have hraw := h.setRaw (c := 16) (i := 0) (b := 2) (x := false) (p := []) (q := []) (by decide) (by decide)
  exact ite hraw (hraw.makeActive _).sendSlots

/-! ### The snapshot -/

theorem clampData (h : SamePeriod s u) (n : Nat) : SamePeriod s (u.clampData dsqPage n) :=
  ite h ((((h.w (by decide)).w (by decide)).w (by decide)).w (by decide))

theorem putRegion (h : SamePeriod s u) (base len : Nat) (cells : List Host.Cell) : SamePeriod s (u.putRegion base len cells) :=
  ⟨h.seq, h.tk, h.now⟩

end SamePeriod

/-- The state in which a period has taken its number and its instant, before the sets are looked at. -/
def periodStart (s : State) : State :=
  (s.abandonAll.w DSQ.PERIOD_SEQ (s.abandonAll.r DSQ.PERIOD_SEQ + 1)).setDsq fun d => { d with tk := s.abandonAll.now }

theorem periodStart_seq (s : State) : (periodStart s).r DSQ.PERIOD_SEQ = (s.r DSQ.PERIOD_SEQ + 1) % 2 ^ 32 := by
  rw [periodStart, r_setDsq, r_w_cut _ _ _ _ _ (by decide), (SamePeriod.abandonAll s).seq]
  rfl

theorem periodStart_tk (s : State) : (periodStart s).dsq.tk = s.now := (SamePeriod.abandonAll s).now

/-- What a snapshot does after the period has its number and instant changes neither (R26, R111). -/
theorem samePeriod_snapshot (s : State) : SamePeriod (periodStart s) s.snapshot := by
  unfold State.snapshot
  extract_lets s1 s2 s3 s4 period off s5 buf s6 s7 run first start
  have h3 : SamePeriod (periodStart s) s3 := (SamePeriod.refl (periodStart s)).setHo _
  have h4 : SamePeriod (periodStart s) s4 := h3.dropMisfits.switchSet
  have h5 : SamePeriod (periodStart s) s5 := by
    refine .ite (.w0 (.clampData h4 _) ?_) h4
    decide
  have h6 : SamePeriod (periodStart s) s6 := .w0 h5 (by decide)
  have h7 : SamePeriod (periodStart s) s7 := h6.putRegion _ _ _
  refine .ite h3 (.setDsq h7 ?_)
  dsimp only

end Sys2Proof.PeriodLaws
end

section
/-! The descriptor in progress: its window, its blocks, its batches, its deadline and its publication (R112, R113, R133 to R136, R141). -/

namespace Sys2Proof.WindowLaws

open Sys2Proof Sys2Proof.Machine Sys2Proof.Laws

/-! ### What the shared steps leave of the sequencer's record -/

@[simp] theorem showRun_dsq (s : State) : s.showRun.dsq = s.dsq := by
  unfold State.showRun
  split
  · rfl
  · extract_lets ph u
    split
    · rfl
    · split <;> rfl

@[simp] theorem showRun_ho (s : State) : s.showRun.ho = s.ho := by
  unfold State.showRun
  split
  · rfl
  · extract_lets ph u
    split
    · rfl
    · split <;> rfl

@[simp] theorem setRun_run (s : State) (f : RunX → RunX) : (s.setRun f).dsq.run = s.dsq.run.map f := rfl

@[simp] theorem r_setRun (s : State) (f : RunX → RunX) (g : Fld) (j k : Nat) : (s.setRun f).r g j k = s.r g j k := rfl

@[simp] theorem clampData_dsq (s : State) (pg : Page) (n : Nat) : (s.clampData pg n).dsq = s.dsq := by
  unfold State.clampData
  split <;> rfl

@[simp] theorem clampData_now (s : State) (pg : Page) (n : Nat) : (s.clampData pg n).now = s.now := by
  unfold State.clampData
  split <;> rfl

/-- Where no lane is withdrawn, an iteration boundary retires none. -/
theorem retirements_none {s : State} (h : s.dsq.withdrawn = []) : s.retirements = s := by
  simp [State.retirements, h]

/-- The stage that is shown says nothing of where the active set lies. -/
theorem setBlob_stageNow (s : State) (v : Nat) : (s.w DSQ.STAGE_NOW v).setBlob = s.setBlob := by
  have hact : (s.w DSQ.STAGE_NOW v).activeSlot = s.activeSlot := by
    unfold State.activeSlot State.on
    rw [r_w_ne _ _ _ _ _ _ _ _ (by decide)]
  have hreg : ∀ k, (s.w DSQ.STAGE_NOW v).slotRegion k = s.slotRegion k := by
    intro k
    cases k <;> simp only [State.slotRegion] <;>
      rw [r_w_ne _ _ _ _ _ _ _ _ (by decide), r_w_ne _ _ _ _ _ _ _ _ (by decide)]
  simp only [State.setBlob, State.slotBlob, hact, hreg, w_solver]

/-- What the checks of a block find does not depend on the stage that is shown. -/
theorem blockOk_stageNow (s : State) (v : Nat) (r : RunX) (st : Nat) (res : BlockResult) :
    (s.w DSQ.STAGE_NOW v).blockOk r st res = s.blockOk r st res := by
  cases res with
  | product tiles => rfl
  | memError => rfl
  | factor rows => simp only [State.blockOk, setBlob_stageNow, w_dsq]

/-! ### A lane for a block that failed (R136) -/

/-- The first of the candidates by distance is one of them. -/
theorem nearest_mem {dist : Nat × Nat → Nat} (xs : List (Nat × Nat)) (b : Option (Nat × Nat)) {p : Nat × Nat}
    (h : xs.foldl (fun b p => match b with
      | some q => if dist p < dist q then some p else some q
      | none => some p) b = some p) : b = some p ∨ p ∈ xs := by
  induction xs generalizing b with
  | nil => exact .inl h
  | cons x xs ih =>
    obtain hx | hmem := ih _ h
    · cases b with
      | none => exact .inr (by simp_all)
      | some q =>
        simp only at hx
        split at hx
        · exact .inr (by simp_all)
        · exact .inl hx
    · exact .inr (.tail _ hmem)

/-- A block is not executed again on a lane on which it failed. -/
theorem nextLane_not_tried {s : State} {tried : List Nat} {x : Nat} (h : s.nextLane tried = some x) : x ∉ tried := by
  unfold State.nextLane at h
  split at h
  · next l hl =>
    obtain rfl := Option.some.inj h
    simpa using List.find?_some hl
  · extract_lets from_ cand dist at h
    obtain ⟨p, hp, rfl⟩ := Option.map_eq_some_iff.mp h
    have hmem := (nearest_mem cand none hp).resolve_left nofun
    simpa [cand] using (List.mem_filter.mp hmem).2

/-! ### Blocks (R133 to R136) -/

theorem blocks_ne_stageNow (l : Nat) : DSA.BLOCKS.key l 0 ≠ DSQ.STAGE_NOW.key 0 0 := by
  simp only [Fld.key, DSA.BLOCKS, DSQ.STAGE_NOW]
  omega

theorem settle_of_redo_nil {r : RunX} (h : r.redo = []) (blk : Nat) : r.settle blk = r := by
  cases r
  simp_all [RunX.settle]

theorem triedOn_of_redo_nil {r : RunX} (h : r.redo = []) (blk : Nat) : r.triedOn blk = [] := by
  simp [RunX.triedOn, h]

theorem toFinal_run {s : State} {r : RunX} (h : s.dsq.run = some r) (f : RunX → RunX) :
    (s.toFinal f).dsq.run = some { f r with phase := .final, redo := [], svuRetry := false, boundary := false } := by
  simp [State.toFinal, h]

/-- A block that passes and has failed nowhere counts for its lane and leaves the descriptor as it is. -/
theorem blockPass_first {s : State} {r : RunX} (hrun : s.dsq.run = some r) (hredo : r.redo = []) (l blk : Nat) :
    (s.blockPass l blk r false).r DSA.BLOCKS l = min (s.r DSA.BLOCKS l + 1) (2 ^ DSA.BLOCKS.width - 1) ∧
    (s.blockPass l blk r false).dsq.run = some r := by
  simp only [State.blockPass, triedOn_of_redo_nil hredo, List.foldl_nil, Bool.false_and, Bool.false_eq_true, if_false]
  constructor
  · rw [r_setRun, r_inc_same _ DSA.BLOCKS _ _ _ (by decide)]
  · simp [hrun, settle_of_redo_nil hredo]

/-- A block that fails for the first time is counted, and either it is executed again on another lane or the descriptor fails. -/
theorem blockFail_first {s : State} {r : RunX} (hrun : s.dsq.run = some r) (hredo : r.redo = []) (l st blk : Nat) :
    ∃ q, (s.blockFail l st blk r).dsq.run = some q ∧ q.chkFails = min 65535 (r.chkFails + 1) ∧
      (q.checkFailed = true ∨ ∃ b ∈ q.redo, b.blk = blk ∧ b.tried = [l] ∧ b.lane ≠ l) := by
  unfold State.blockFail
  extract_lets u tried
  have hu : u.dsq.run = some { r with chkFails := min 65535 (r.chkFails + 1) } := by simp [u, hrun]
  have htried : tried = [l] := by simp [tried, triedOn_of_redo_nil hredo]
  split
  · next x hx =>
    rw [htried, if_pos (by simp)] at hx
    have hne : x ≠ l := by simpa using nextLane_not_tried hx
    refine ⟨_, congrArg (Option.map _) hu, rfl, .inr ⟨_, List.mem_append_right _ (.head _), rfl, htried, hne⟩⟩
  · exact ⟨_, toFinal_run hu _, rfl, .inl rfl⟩

/-- A block of phase R from a lane that holds it is checked, and passes or fails. -/
theorem exec_blockDone {s : State} {r : RunX} (t : Nat) {l : Fin 18} {blk : Nat} (st : Fin 257) (res : BlockResult)
    (hon : s.islandOn .solve = true) (hrun : s.dsq.run = some r) (hfin : r.finished = false) (hph : r.phase = .r)
    (hold : s.holdsBlock r l blk = true) :
    exec (.blockDone t l ⟨st, blk⟩ res false) s = .next (s.keepK (
      if res = .memError then ((s.tick t).w DSQ.STAGE_NOW st).toFinal (fun r => { r with memError := true })
      else if s.blockOk r st res then ((s.tick t).w DSQ.STAGE_NOW st).blockPass l blk r false
      else ((s.tick t).w DSQ.STAGE_NOW st).blockFail l st blk r)) := by
  have hrun' : (s.tick t).dsq.run = some r := hrun
  have hold' : (s.tick t).holdsBlock r l blk = true := hold
  have hok : (s.tick t).blockOk r st res = s.blockOk r st res := by cases res <;> rfl
  have hph' : (r.phase == .setup) = false := by rw [hph]; rfl
  show execBlockDone t l ⟨st, blk⟩ res false s = _
  rw [execBlockDone, runK_on hon]
  simp only [hrun', hold', hfin, hph', State.when, blockOk_stageNow, hok, Bool.not_true, Bool.or_self, Bool.false_eq_true, if_false]

/-! ### The batches of the SVU (R135) and the deadline (R141) -/

theorem exec_svuBatchDone_agree {s : State} {r : RunX} (t : Nat) (hon : s.islandOn .solve = true) (hrun : s.dsq.run = some r)
    (hfin : r.finished = false) (hb : r.boundary = false) :
    exec (.svuBatchDone t true) s = .next (s.keepK ((s.tick t).setRun fun r => { r with svuRetry := false })) := by
  have hrun' : (s.tick t).dsq.run = some r := hrun
  show execSvuBatchDone t true s = _
  rw [execSvuBatchDone, runK_on hon]
  simp only [hrun', hfin, hb, if_true, Bool.false_eq_true, if_false]

theorem exec_svuBatchDone_differ {s : State} {r : RunX} (t : Nat) (hon : s.islandOn .solve = true) (hrun : s.dsq.run = some r)
    (hfin : r.finished = false) (hretry : r.svuRetry = false) :
    exec (.svuBatchDone t false) s = .next (s.keepK ((s.tick t).setRun fun r => { r with svuRetry := true })) := by
  have hrun' : (s.tick t).dsq.run = some r := hrun
  show execSvuBatchDone t false s = _
  rw [execSvuBatchDone, runK_on hon]
  simp only [hrun', hfin, hretry, Bool.false_eq_true, if_false]

/-- A descriptor that has its returned iterate has no deadline any more. -/
theorem deadline_finished {s : State} {r : RunX} (hrun : s.dsq.run = some r) (hfin : r.finished = true) : s.deadline = s := by
  simp [State.deadline, hrun, hfin]

/-- The deadline of a descriptor without a completed iteration takes it to its final checks with no iterate. -/
theorem deadline_first {s : State} {r : RunX} (hrun : s.dsq.run = some r) (hfin : r.finished = false) (hph : r.phase = .setup)
    (hiter : r.iter = 0) : ∃ q, s.deadline.dsq.run = some q ∧ q.noIterate = true ∧ q.phase = .final := by
  have hopen : ¬ (r.finished ∨ r.phase = .final) := by simp [hfin, hph]
  simp only [State.deadline, hrun, if_neg hopen, raise_dsq]
  exact ⟨_, toFinal_run hrun _, by rw [if_pos hiter], rfl⟩

theorem exec_iterDeadline {s : State} {r : RunX} (t : Nat) (hon : s.islandOn .solve = true) (hrun : s.dsq.run = some r)
    (hle : (s.tick t).deadlineAt r ≤ (s.tick t).now) : exec (.iterDeadline t) s = .next (s.keepK (s.tick t).deadline) := by
  have hrun' : (s.tick t).dsq.run = some r := hrun
  show execIterDeadline t s = _
  rw [execIterDeadline, runK_on hon]
  simp only [hrun', if_neg (Nat.not_lt.mpr hle)]

/-! ### A window opens (R112) -/

/-- The start of a descriptor shows it in its setup, opened at the present instant. -/
theorem startDesc_run {s : State} (h : s.dsq.withdrawn = []) (b : Blob) (d closes : Nat) :
    ∃ r, (s.startDesc b d closes).dsq.run = some r ∧ r.desc = d ∧ r.phase = .setup ∧ r.opened = s.now := by
  unfold State.startDesc
  extract_lets u r0 z it p r
  have hu : u.dsq.withdrawn = [] := by simp [u, h]
  have hnow : u.now = s.now := clampData_now _ _ _
  have hr : r.desc = d ∧ r.phase = .setup ∧ r.opened = s.now := by
    unfold r
    split
    · exact ⟨rfl, rfl, hnow⟩
    · exact ⟨rfl, rfl, hnow⟩
  refine ⟨r, ?_, hr⟩
  rw [showRun_dsq, retirements_none]
  · rfl
  · exact hu

/-- The end of the next descriptor's window (R112). -/
def windowEnd (s : State) : Nat :=
  min (s.dsq.nextOpen + 1000 * s.setBlob.budget s.dsq.nextDesc) (s.dsq.tk + 1000 * s.r DSQ.PLAN_PERIOD_US - 10000)

/-- The state in which the next descriptor has given way to the one after it. -/
def windowTaken (s : State) : State :=
  s.setDsq fun x => { x with
    nextDesc := if s.dsq.nextDesc < 2 + s.setBlob.contCount then s.dsq.nextDesc + 1 else 0,
    nextOpen := s.dsq.nextOpen + 1000 * s.setBlob.budget s.dsq.nextDesc }

theorem exec_descWindowOpen {s : State} (t : Nat) (hon : s.islandOn .solve = true) (hd : s.dsq.nextDesc ≠ 0) (hen : s.enabled 16 = true)
    (hact : s.on DSQ.ACTIVE_VALID = true) (hlive : s.dsq.liveDone = true) (hlanes : s.r DSQ.ACTIVE ≠ 0)
    (hbudget : 0 < s.setBlob.budget s.dsq.nextDesc) (hle : s.dsq.nextOpen ≤ (s.tick t).now)
    (hend : s.dsq.nextOpen < s.dsq.tk + 1000 * s.r DSQ.PLAN_PERIOD_US - 10000) :
    exec (.descWindowOpen t) s =
      .next (s.keepS ((windowTaken (s.tick t)).startDesc s.setBlob s.dsq.nextDesc (windowEnd s))) := by
  have hopens : ¬ (s.dsq.nextDesc = 0 ∨ !s.enabled 16 ∨ !s.on DSQ.ACTIVE_VALID ∨ (s.tick t).now < s.dsq.nextOpen) := by
    simp [hd, hen, hact, hle]
  have hcloses : ¬ (s.r DSQ.ACTIVE = 0 ∨ windowEnd s ≤ s.dsq.nextOpen) := by
    simp only [hlanes, false_or, windowEnd]
    omega
  have henabled : (s.tick t).enabled 16 = s.enabled 16 := rfl
  show execDescWindowOpen t s = _
  rw [execDescWindowOpen, runS_on hon]
  simp only [tick_dsq, on_tick, henabled, if_neg hopens, hlive, if_true]
  exact congrArg (fun u => Host.Outcome.next (s.keepS u)) (if_neg hcloses)

/-! ### A window ends (R113, R142 to R145) -/

theorem setStatus_now (s : State) (d st : Nat) : (s.setStatus d st).now = s.now := by
  unfold State.setStatus
  split
  · rfl
  · split <;> rfl

theorem putSol_now (s : State) (a : Nat) (bs : List Nat) : (s.putSol a bs).now = s.now := rfl

theorem when_now {s : State} {f : State → State} (h : (f s).now = s.now) (b : Bool) : (s.when b f).now = s.now := by
  cases b
  · rfl
  · exact h

/-- The events of a dispatch result leave the sequencer's record and the handover record. -/
theorem resultEvents_dispatch {s : State} {r : RunX} (h : r.desc = 2) (x : ResultX) (st flags elapsed : Nat) :
    (s.resultEvents r x st flags elapsed).dsq = s.dsq ∧ (s.resultEvents r x st flags elapsed).ho = s.ho := by
  unfold State.resultEvents
  extract_lets kind pay q evt rec u v
  have hu : u.dsq = s.dsq ∧ u.ho = s.ho := by simp [u, h]
  have hv : v.dsq = s.dsq ∧ v.ho = s.ho := by simp [v, hu]
  split
  · simp [hv]
  · exact hv

/-- A dispatch result is handed over at the present instant. -/
theorem handOver_dispatch {s : State} {r : RunX} (h : r.desc = 2) (b : Blob) (hdr : List Nat) (st flags : Nat) (z : List (List Int)) :
    ∃ g, (s.handOver b r hdr st flags z).ho.published = some (s.now, st, g) := by
  simp only [State.handOver, if_pos h]
  exact ⟨_, rfl⟩

theorem publishRun_dispatch {s : State} {r : RunX} (hrun : s.dsq.run = some r) (hfin : r.finished = true) (hdesc : r.desc = 2) :
    s.publishRun.dsq.run = none ∧ ∃ st g, s.publishRun.ho.published = some (s.now, st, g) := by
  unfold State.publishRun
  extract_lets u0 b
  have h0 : u0 = s := deadline_finished hrun hfin
  clear_value u0
  subst h0
  split
  · next h => simp [hrun] at h
  next r' h =>
  obtain rfl : r = r' := by simpa [hrun] using h
  extract_lets x q st flags elapsed hdr z d slot a u1 u2 u3 u4 u5
  have hq : q.desc = 2 := hdesc
  have hnow : u4.now = u0.now := calc
    u4.now = u3.now := rfl
    _ = (u2.setStatus q.desc st).now := when_now rfl _
    _ = u2.now := setStatus_now _ _ _
    _ = u1.now := rfl
    _ = u0.now := (putSol_now _ _ _).trans (putSol_now _ _ _)
  obtain ⟨g, hg⟩ := handOver_dispatch hq (s := u4) b hdr st flags z
  have hu5 : u5.ho.published = some (u0.now, st, g) := by
    rw [← hnow, ← hg]
    exact congrArg (fun u : State => u.ho.published) (if_neg (by rw [hq]; decide))
  obtain ⟨hdsq, hho⟩ := resultEvents_dispatch hq (s := (u5.setDsq fun d => { d with run := none }).showRun) x st flags elapsed
  refine ⟨?_, st, g, ?_⟩
  · rw [hdsq, showRun_dsq]
    rfl
  · rw [hho, showRun_ho]
    exact hu5

theorem exec_descWindowEnd {s : State} {r : RunX} (t : Nat) (hon : s.islandOn .solve = true) (hrun : s.dsq.run = some r)
    (hle : r.closes ≤ (s.tick t).now) : exec (.descWindowEnd t) s = .next (s.keepS (s.tick t).publishRun) := by
  have hrun' : (s.tick t).dsq.run = some r := hrun
  show execDescWindowEnd t s = _
  rw [execDescWindowEnd, runS_on hon]
  simp only [hrun', if_neg (Nat.not_lt.mpr hle)]

/-! ### The snapshot instant (R26, R111) -/

theorem exec_snapshotInstant {s : State} (t : Nat) (hon : s.islandOn .solve = true) (hen : s.enabled 16 = true)
    (htime : (s.tick t).isSnapshotTime = true) : exec (.snapshotInstant t) s = .next (s.keepS (s.tick t).snapshot) := by
  have hboth : ((s.tick t).enabled 16 && (s.tick t).isSnapshotTime) = true := by rw [htime, Bool.and_true]; exact hen
  show execSnapshotInstant t s = _
  rw [execSnapshotInstant, runS_on hon, if_pos hboth]

/-- Settles O20: each command of a plan period meets its clause by the lemma on what it does to the descriptor in progress. -/
theorem solveWindows : Obligations.SolveWindows := by
  intro t s hon
  refine ⟨?snapshot, ?opens, ?inProgress, ?ends⟩
  case snapshot =>
    intro hen htime
    obtain ⟨hseq, htk, -⟩ := PeriodLaws.samePeriod_snapshot (s.tick t)
    refine ⟨_, exec_snapshotInstant t hon hen htime, ?_, ?_⟩
    · rw [r_keepS, hseq, PeriodLaws.periodStart_seq, r_tick]
    · rw [keepS_dsq, htk, PeriodLaws.periodStart_tk]
  case opens =>
    intro hd hen hact hlive hwith hlanes hbudget hle hend
    have hwith' : (windowTaken (s.tick t)).dsq.withdrawn = [] := hwith
    exact ⟨_, exec_descWindowOpen t hon hd hen hact hlive hlanes hbudget hle hend, startDesc_run hwith' _ _ _⟩
  case inProgress =>
    intro r hrun hfin
    refine ⟨?blocks, ?agree, ?differ, ?deadline⟩
    case blocks =>
      intro l st blk hph hredo hold
      have hrun' : ((s.tick t).w DSQ.STAGE_NOW st).dsq.run = some r := hrun
      refine ⟨fun res hres => ⟨fun hok => ?_, fun hok => ?_⟩, fun tiles => rfl, fun rows hd => if_pos hd, ?_⟩
      · obtain ⟨hcount, hsame⟩ := blockPass_first hrun' hredo l blk
        refine ⟨_, exec_blockDone t st res hon hrun hfin hph hold, ?_⟩
        rw [if_neg hres, if_pos hok]
        beta_reduce
        rw [r_keepK, keepK_dsq, hcount, r_w_ne _ _ _ _ _ _ _ _ (blocks_ne_stageNow l)]
        exact ⟨rfl, hsame⟩
      · refine ⟨_, exec_blockDone t st res hon hrun hfin hph hold, ?_⟩
        rw [if_neg hres, if_neg (by simp [hok])]
        beta_reduce
        rw [keepK_dsq]
        exact blockFail_first hrun' hredo l st blk
      · refine ⟨_, exec_blockDone t st .memError hon hrun hfin hph hold, ?_⟩
        rw [if_pos rfl]
        beta_reduce
        rw [keepK_dsq]
        exact ⟨_, toFinal_run hrun' _, rfl, rfl⟩
    case agree => exact fun hb => ⟨_, exec_svuBatchDone_agree t hon hrun hfin hb, congrArg (Option.map _) hrun⟩
    case differ => exact fun hretry => ⟨_, exec_svuBatchDone_differ t hon hrun hfin hretry, congrArg (Option.map _) hrun⟩
    case deadline =>
      exact fun hph hiter hle => ⟨_, exec_iterDeadline t hon hrun hle, deadline_first (s := s.tick t) hrun hfin hph hiter⟩
  case ends =>
    intro r hrun hfin hdesc hle
    exact ⟨_, exec_descWindowEnd t hon hrun hle, publishRun_dispatch (s := s.tick t) hrun hfin hdesc⟩

end Sys2Proof.WindowLaws
end

section
/-! The host queues: records offered, buffered and dropped, write-backs, messages, CONS, Q_EN, the link, completion timeouts and function resets (R33, R360 to R372). -/

namespace Sys2Proof.HostQueueLaws

open Sys2Proof Sys2Proof.Machine Sys2Proof.Laws

/-! ### Fields of an HQE page that a change leaves alone -/

/-- No repetition of `f` stands where one of `g` stands on a page. -/
abbrev Apart (f g : Fld) : Prop :=
  ∀ i < f.n, ∀ j < g.n, (g.off + j * g.stride) * 32 + g.lsb ≠ (f.off + i * f.stride) * 32 + f.lsb

/-- `u` holds the fields of HQE page `p` as `s` does, but for those that share a place with one of `fs`. -/
def SameBut (fs : List Fld) (p : Nat) (s u : State) : Prop :=
  ∀ (g : Fld) (i : Nat), g.code = 7 → i < g.n → (∀ f ∈ fs, Apart f g) → u.r g p i = s.r g p i

namespace SameBut

variable {fs : List Fld} {p : Nat} {s u v : State}

theorem refl (fs : List Fld) (p : Nat) (s : State) : SameBut fs p s s := fun _ _ _ _ _ => rfl

theorem trans (h : SameBut fs p s u) (k : SameBut fs p u v) : SameBut fs p s v :=
  fun g i hc hi ha => (k g i hc hi ha).trans (h g i hc hi ha)

theorem mono {gs : List Fld} (h : SameBut fs p s u) (hsub : fs ⊆ gs) : SameBut gs p s u :=
  fun g i hc hi ha => h g i hc hi fun f hf => ha f (hsub hf)

theorem ite {c : Prop} [Decidable c] (h : SameBut fs p s u) (k : SameBut fs p s v) : SameBut fs p s (if c then u else v) := by
  split
  · exact h
  · exact k

theorem foldl {β : Type} {f : State → β → State} (xs : List β) (s : State) (hf : ∀ u, ∀ x ∈ xs, SameBut fs p u (f u x)) :
    SameBut fs p s (xs.foldl f s) :=
  List.foldlRecOn xs f (refl fs p s) fun u h x hx => h.trans (hf u x hx)

theorem forN {f : State → Nat → State} {n : Nat} (s : State) (hf : ∀ u, ∀ q < n, SameBut fs p u (f u q)) : SameBut fs p s (s.forN n f) :=
  foldl _ _ fun u q hq => hf u q (List.mem_range.mp hq)

theorem w (h : SameBut fs p s u) {f : Fld} {x i : Nat} (hf : f ∈ fs) (hcode : f.code = 7) (hi : i < f.n) : SameBut fs p s (u.w f x p i) := by
  intro g j hc hj ha
  have hplace := ha f hf i hi j hj
  have hkey : g.key p j ≠ f.key p i := by
    simp only [Fld.key, hc, hcode]
    omega
  rw [r_w_ne _ _ _ _ _ _ _ _ hkey, h g j hc hj ha]

theorem hw (h : SameBut fs p s u) {f : Fld} {x : Nat} (hf : f ∈ fs) (hn : 0 < f.n) : SameBut fs p s (u.hw f ⟨7, p⟩ x) := by
  intro g j hc hj ha
  have hplace := ha f hf 0 hn j hj
  have hkey : g.key p j ≠ (hdr f ⟨7, p⟩).key p 0 := by
    simp only [Fld.key, hc, hdr]
    omega
  exact (r_w_ne _ _ _ _ _ _ _ _ hkey).trans (h g j hc hj ha)

theorem raise (h : SameBut fs p s u) {b : Nat} {pay : List Nat} (hf : HDR.EVT_PEND ∈ fs) (hb : b < 32) : SameBut fs p s (u.raise 7 p b pay) := by
  intro g j hc hj ha
  have hplace := ha _ hf 0 (by decide) j hj
  have hkey : g.key p j ≠ pendKey 7 p b := by
    simp only [pendKey, if_pos hb, Fld.key, hc, hdr]
    omega
  rw [r_raise _ _ _ _ _ _ _ _ _ hkey, h g j hc hj ha]

theorem rstF (h : SameBut fs p s u) {f : Fld} (hf : f ∈ fs) (hcode : f.code = 7) : SameBut fs p s (u.rstF f p) := by
  intro g j hc hj ha
  have hdel : ∀ d : Word, sget d (u.rstF f p).regs (g.key p j) = sget d u.regs (g.key p j) := by
    intro d
    refine List.foldlRecOn (motive := fun m => sget d m (g.key p j) = sget d u.regs (g.key p j)) _ _ rfl fun m hm i hi => ?_
    have hplace := ha f hf i (List.mem_range.mp hi) j hj
    have hkey : g.key p j ≠ f.key p i := by
      simp only [Fld.key, hc, hcode]
      omega
    rw [sget_filter_ne _ _ hkey, hm]
  exact (congrArg BitVec.toNat (hdel _)).trans (h g j hc hj ha)

theorem inc (h : SameBut fs p s u) {f : Fld} {x i : Nat} (hf : f ∈ fs) (hcode : f.code = 7) (hi : i < f.n) :
    SameBut fs p s (u.inc f p i x) := h.w hf hcode hi

theorem setPort (h : SameBut fs p s u) (k : Nat) (x : PortX) : SameBut fs p s (u.setPort k x) := h

theorem setQueue (h : SameBut fs p s u) (k q : Nat) (x : QueueX) : SameBut fs p s (u.setQueue k q x) := h

theorem setPx (h : SameBut fs p s u) (pg : Page) (x : PageX) : SameBut fs p s (u.setPx pg x) := h

theorem closeLock (h : SameBut fs p s u) (hf : HDR.OPEN ∈ fs) : SameBut fs p s (u.closeLock ⟨7, p⟩) := (h.hw hf (by decide)).setPx _ _

/-- A header field of the page. -/
theorem header (h : SameBut fs p s u) (g : Fld) (hn : 0 < g.n) (ha : ∀ f ∈ fs, Apart f g) : u.h g ⟨7, p⟩ = s.h g ⟨7, p⟩ :=
  h (hdr g ⟨7, p⟩) 0 rfl hn ha

theorem on (h : SameBut fs p s u) (g : Fld) (i : Nat) (hc : g.code = 7) (hi : i < g.n) (ha : ∀ f ∈ fs, Apart f g) : u.on g p i = s.on g p i :=
  congrArg (· != 0) (h g i hc hi ha)

theorem enabled (h : SameBut fs p s u) (ha : ∀ f ∈ fs, Apart f HDR.ENABLE) : u.enabled 7 p = s.enabled 7 p :=
  congrArg (· != 0) (h.header HDR.ENABLE (by decide) ha)

end SameBut

theorem sameBut_countWrite (p : Nat) (s : State) : SameBut [HDR.COUNT] p s (s.countWrite ⟨7, p⟩) :=
  (SameBut.refl _ _ _).hw (by decide) (by decide)

theorem sameBut_clampCount (p : Nat) (s : State) (off lsb : Nat) :
    SameBut [HDR.CLAMPS, HDR.LAST_DATA, HDR.LAST_OFFSET, HDR.LAST_BIT] p s (s.clampCount ⟨7, p⟩ off lsb) := by
  refine (((SameBut.refl _ _ _).hw ?_ ?_).hw ?_ ?_).hw ?_ ?_ |>.hw ?_ ?_
  all_goals decide

/-! ### Records of ports and queues -/

@[simp] theorem setPort_queues (s : State) (p : Nat) (x : PortX) : (s.setPort p x).queues = s.queues := rfl
@[simp] theorem setQueue_regs (s : State) (p q : Nat) (x : QueueX) : (s.setQueue p q x).regs = s.regs := rfl
@[simp] theorem port_setQueue (s : State) (p q k : Nat) (x : QueueX) : (s.setQueue p q x).port k = s.port k := rfl
@[simp] theorem r_setQueue (s : State) (p q : Nat) (x : QueueX) (g : Fld) (i j : Nat) : (s.setQueue p q x).r g i j = s.r g i j := rfl
@[simp] theorem queue_keepK (s u : State) (p q : Nat) : (s.keepK u).queue p q = u.queue p q := rfl
@[simp] theorem queue_setQueue (s : State) (p q : Nat) (x : QueueX) : (s.setQueue p q x).queue p q = x := by
  simp [State.queue, State.setQueue]

/-- A record updated by number. -/
theorem sget_smod_same {α : Type} [DecidableEq α] (d : α) (m : List (Nat × α)) (k : Nat) (f : α → α) :
    sget d (smod d m k f) k = f (sget d m k) := sget_sset_same _ _ _ _

/-! ### Messages (R366) -/

/-- A port's record `y` is `x` but for the offers on their way, the MSI-X pending bits and the messages sent. -/
def Signals (x y : PortX) : Prop := ∃ offers pend sent, y = { x with offers := offers, pend := pend, sent := sent }

namespace Signals

variable {x y z : PortX}

theorem refl (x : PortX) : Signals x x := ⟨_, _, _, rfl⟩

theorem trans (h : Signals x y) (k : Signals y z) : Signals x z := by
  obtain ⟨_, _, _, rfl⟩ := h
  obtain ⟨_, _, _, rfl⟩ := k
  exact ⟨_, _, _, rfl⟩

theorem buf (h : Signals x y) : y.buf = x.buf := by
  obtain ⟨_, _, _, rfl⟩ := h
  rfl

end Signals

theorem signals_offerTo (s : State) (p k : Nat) (m : EvtMsg) : Signals (s.port k) ((s.offerTo p m).port k) := by
  unfold State.offerTo
  by_cases hk : k = p
  · rw [hk, port_setPort]
    exact ⟨_, _, _, rfl⟩
  · rw [port_setPort_ne _ _ _ _ hk]
    exact .refl _

theorem signals_emit (s : State) (x : EvtRow) (i : Nat) (e : Bool) (pay extra : List Nat) (k : Nat) :
    Signals (s.port k) ((s.emit x i e pay extra).port k) := by
  have hhosts (m : EvtMsg) : Signals (s.port k) ((s.offerHosts m).port k) := by
    unfold State.offerHosts
    split
    · exact signals_offerTo _ _ _ _
    · exact (signals_offerTo _ _ _ _).trans (signals_offerTo _ _ _ _)
  have hoffer : Signals (s.port k) (State.port (if x.hqe && e then s.offerHosts (s.evtMsg x.code i x.bit pay extra) else s) k) := by
    split
    · exact hhosts _
    · exact .refl _
  unfold State.emit
  dsimp only
  split
  · exact hoffer
  · exact hoffer

/-- An enabled event that is not yet pending sets its bit and is offered to its destinations (R52). -/
theorem raise_rises {s : State} {c i b : Nat} {x : EvtRow} (hrow : evtRow c i b = some x) (h : (s.evtEn c i b && !s.evtPend c i b) = true)
    (pay extra : List Nat) :
    ∃ srcs, s.raise c i b pay extra = { (s.setEvtPend c i b true).emit x i true pay extra with toEic := srcs } := by
  simp only [State.raise, hrow, if_pos h]
  cases evtSource c i b with
  | none => exact ⟨_, rfl⟩
  | some src =>
    dsimp only
    split
    · exact ⟨_, rfl⟩
    · exact ⟨_, rfl⟩

/-- An event that is disabled or pending already is offered only where its destination takes it always (R52). -/
theorem raise_stays {s : State} {c i b : Nat} {x : EvtRow} (hrow : evtRow c i b = some x) (h : ¬ (s.evtEn c i b && !s.evtPend c i b) = true)
    (pay extra : List Nat) : s.raise c i b pay extra = if x.always then s.emit x i false pay extra else s := by
  simp only [State.raise, hrow, if_neg h]

theorem signals_raise (s : State) (c i b : Nat) (pay extra : List Nat) (k : Nat) : Signals (s.port k) ((s.raise c i b pay extra).port k) := by
  cases hrow : evtRow c i b with
  | none =>
    simp only [State.raise, hrow]
    exact .refl _
  | some x =>
    by_cases h : (s.evtEn c i b && !s.evtPend c i b) = true
    · have hpend : (s.setEvtPend c i b true).port k = s.port k := by
        unfold State.setEvtPend
        split <;> rfl
      obtain ⟨srcs, hraise⟩ := raise_rises hrow h pay extra
      rw [hraise, ← hpend]
      exact signals_emit (s.setEvtPend c i b true) x i true pay extra k
    · rw [raise_stays hrow h]
      split
      · exact signals_emit _ _ _ _ _ _ _
      · exact .refl _

theorem msix_masked {s : State} {p v : Nat} (h : (s.port p).mask.getLsbD v = true ∨ s.enabled 7 p = false) :
    s.msix p v = s.setPort p { s.port p with pend := (s.port p).pend ||| (1#9 <<< v) } := by
  unfold State.msix
  rcases h with h | h <;> simp [h]

theorem msix_sent {s : State} {p v : Nat} (hmask : (s.port p).mask.getLsbD v = false) (hen : s.enabled 7 p = true) :
    s.msix p v = s.setPort p { s.port p with sent := smod 0 (s.port p).sent v (· + 1) } := by
  simp [State.msix, hmask, hen]

/-- What a message can change: the port's pending bits and its messages sent. -/
theorem msix_inv (s : State) (p v : Nat) : ∃ x, Signals (s.port p) x ∧ s.msix p v = s.setPort p x := by
  by_cases h : (s.port p).mask.getLsbD v = true ∨ s.enabled 7 p = false
  · exact ⟨_, ⟨_, _, _, rfl⟩, msix_masked h⟩
  · push Not at h
    exact ⟨_, ⟨_, _, _, rfl⟩, msix_sent (by simpa using h.1) (by simpa using h.2)⟩

@[simp] theorem msix_regs (s : State) (p v : Nat) : (s.msix p v).regs = s.regs := by
  obtain ⟨x, -, hx⟩ := msix_inv s p v
  rw [hx, setPort_regs]

@[simp] theorem r_msix (s : State) (p v : Nat) (g : Fld) (i j : Nat) : (s.msix p v).r g i j = s.r g i j := by
  simp only [State.r, msix_regs]

@[simp] theorem h_msix (s : State) (p v : Nat) (g : Fld) (pg : Page) : (s.msix p v).h g pg = s.h g pg := r_msix _ _ _ _ _ _

@[simp] theorem queue_msix (s : State) (p v k q : Nat) : (s.msix p v).queue k q = s.queue k q := by
  obtain ⟨x, -, hx⟩ := msix_inv s p v
  rw [hx]
  rfl

theorem signals_msix (s : State) (p v : Nat) : Signals (s.port p) ((s.msix p v).port p) := by
  obtain ⟨x, hsig, hx⟩ := msix_inv s p v
  rwa [hx, port_setPort]

theorem SameBut.msix {fs : List Fld} {p : Nat} {s u : State} (h : SameBut fs p s u) (v : Nat) : SameBut fs p s (u.msix p v) :=
  fun g i hc hi ha => (r_msix _ _ _ _ _ _).trans (h g i hc hi ha)

theorem sameBut_raiseHqe (s : State) (p : Nat) {b : Nat} (pay : List Nat) (hb : b < 32) : SameBut [HDR.EVT_PEND] p s (s.raiseHqe p b pay) := by
  have hraise : SameBut [HDR.EVT_PEND] p s (s.raise 7 p b pay) := (SameBut.refl _ _ _).raise (by decide) hb
  exact (hraise.msix 8).ite hraise

theorem signals_raiseHqe (s : State) (p b : Nat) (pay : List Nat) : Signals (s.port p) ((s.raiseHqe p b pay).port p) := by
  have hraise := signals_raise s 7 p b pay [] p
  unfold State.raiseHqe
  dsimp only
  split
  · exact hraise.trans (signals_msix _ _ _)
  · exact hraise

/-! ### Pending bits (R52) -/

theorem emit_regs (s : State) (x : EvtRow) (i : Nat) (e : Bool) (pay extra : List Nat) : (s.emit x i e pay extra).regs = s.regs := by
  have hhosts (m : EvtMsg) : (s.offerHosts m).regs = s.regs := by
    unfold State.offerHosts
    split <;> rfl
  have hoffer : State.regs (if x.hqe && e then s.offerHosts (s.evtMsg x.code i x.bit pay extra) else s) = s.regs := by
    split
    · exact hhosts _
    · rfl
  unfold State.emit
  dsimp only
  split
  · exact hoffer
  · exact hoffer

/-- An enabled event that is raised is pending. -/
theorem testBit_raise {s : State} {c i b : Nat} {x : EvtRow} (hrow : evtRow c i b = some x) (hb : b < 32) (hen : s.evtEn c i b = true)
    (pay extra : List Nat) : ((s.raise c i b pay extra).h HDR.EVT_PEND ⟨c, i⟩).testBit b = true := by
  have hpend : s.evtPend c i b = (s.h HDR.EVT_PEND ⟨c, i⟩).testBit b := if_pos hb
  by_cases h : (s.evtEn c i b && !s.evtPend c i b) = true
  · obtain ⟨srcs, hraise⟩ := raise_rises hrow h pay extra
    have hregs : (s.raise c i b pay extra).regs = (s.setEvtPend c i b true).regs := hraise ▸ emit_regs _ _ _ _ _ _
    have hclear : (s.h HDR.EVT_PEND ⟨c, i⟩).testBit b = false := by
      rw [hen, hpend] at h
      simpa using h
    have hset : (s.setEvtPend c i b true).h HDR.EVT_PEND ⟨c, i⟩ = (s.h HDR.EVT_PEND ⟨c, i⟩ + 2 ^ b) % 2 ^ 32 := by
      simp only [State.setEvtPend, if_pos hb, putBit, hclear, Bool.false_eq_true, if_false, if_true]
      exact r_w_cut _ _ _ _ _ (le_refl 32)
    have hsame : (s.raise c i b pay extra).h HDR.EVT_PEND ⟨c, i⟩ = (s.setEvtPend c i b true).h HDR.EVT_PEND ⟨c, i⟩ := by
      simp only [State.h, State.r, hregs]
    rw [hsame, hset, Nat.testBit_mod_two_pow, Nat.add_comm, Nat.testBit_two_pow_add_eq, hclear]
    simp [hb]
  · have hregs : (s.raise c i b pay extra).regs = s.regs := by
      rw [raise_stays hrow h]
      split
      · exact emit_regs _ _ _ _ _ _
      · rfl
    have hset : (s.h HDR.EVT_PEND ⟨c, i⟩).testBit b = true := by
      rw [hen, hpend] at h
      simpa using h
    simp only [State.h, State.r] at hset ⊢
    rw [hregs, hset]

/-! ### Records dropped, and drop records served (R363, R364) -/

/-- The fields that a drop of records writes. -/
def dropFields : List Fld := [HQE.DROPS, HQE.DROP_PEND, HDR.EVT_PEND]

/-- The fields that an owed drop record writes. -/
def serveFields : List Fld := [HQE.SEQ, HQE.DROP_PEND]

theorem sameBut_dropRecords (s : State) (p n seq : Nat) {q : Nat} (hq : q < 8) : SameBut dropFields p s (s.dropRecords p q n seq) := by
  unfold State.dropRecords
  extract_lets x first s1 s2
  have hcounts : SameBut dropFields p s s2 := by
    refine SameBut.inc (SameBut.inc ((SameBut.refl _ _ _).setQueue _ _ _) ?_ rfl hq) ?_ rfl hq
    all_goals decide
  exact hcounts.trans ((sameBut_raiseHqe s2 p _ (by omega)).mono (by decide))

/-- A drop counts in DROPS and in DROP_PEND. -/
theorem dropRecords_counts (s : State) (p n seq : Nat) {q : Nat} (hq : q < 8) :
    (s.dropRecords p q n seq).r HQE.DROPS p q = min (s.r HQE.DROPS p q + n) (2 ^ 32 - 1) ∧
    (s.dropRecords p q n seq).r HQE.DROP_PEND p q = min (s.r HQE.DROP_PEND p q + n) (2 ^ 32 - 1) := by
  have hpend (u : State) : SameBut [HQE.DROP_PEND] p u (u.inc HQE.DROP_PEND p q n) := (SameBut.refl _ _ _).w (by decide) rfl hq
  have hdrops (u : State) : SameBut [HQE.DROPS] p u (u.inc HQE.DROPS p q n) := (SameBut.refl _ _ _).w (by decide) rfl hq
  unfold State.dropRecords
  extract_lets x first s1 s2
  have hraise := sameBut_raiseHqe s2 p (q :: leBytes 4 (s2.r HQE.DROPS p q)) (show q < 32 by omega)
  constructor
  · rw [hraise HQE.DROPS q rfl hq (by decide), hpend _ HQE.DROPS q rfl hq (by decide), r_inc_same _ _ _ _ _ (by decide)]
    rfl
  · rw [hraise HQE.DROP_PEND q rfl hq (by decide), r_inc_same _ _ _ _ _ (by decide), hdrops _ HQE.DROP_PEND q rfl hq (by decide)]
    rfl

theorem signals_dropRecords (s : State) (p q n seq : Nat) : Signals (s.port p) ((s.dropRecords p q n seq).port p) :=
  signals_raiseHqe _ p q _

theorem sameBut_serveDrop (s : State) (p : Nat) {q : Nat} (hq : q < 8) : SameBut serveFields p s (s.serveDrop p q) := by
  have hseq : SameBut serveFields p s ((s.buffer p q (s.dropRecord p q (s.r HQE.SEQ p q))).nextSeq p q) :=
    ((SameBut.refl _ _ _).setPort _ _).w (by decide) rfl hq
  exact (hseq.w (by decide) rfl hq).ite (SameBut.refl _ _ _)

/-- No drop record is owed. -/
theorem serveDrop_none {s : State} {p q : Nat} (h : s.r HQE.DROP_PEND p q = 0) : s.serveDrop p q = s := by
  simp [State.serveDrop, h]

theorem forN_serveDrop_none {s : State} {p n : Nat} (h : ∀ q < n, s.r HQE.DROP_PEND p q = 0) : s.forN n (fun s q => s.serveDrop p q) = s :=
  List.foldlRecOn (motive := (· = s)) _ _ rfl fun u hu q hq => by
    rw [hu, serveDrop_none (h q (List.mem_range.mp hq))]

/-! ### Records offered (R360, R363, R364) -/

theorem sameBut_nextSeq (s : State) (p : Nat) {q : Nat} (hq : q < 8) : SameBut [HQE.SEQ] p s (s.nextSeq p q) :=
  (SameBut.refl _ _ _).w (by decide) rfl hq

theorem nextSeq_seq (s : State) (p q : Nat) : (s.nextSeq p q).r HQE.SEQ p q = (s.r HQE.SEQ p q + 1) % 2 ^ 32 :=
  r_w_cut _ _ _ _ _ (by decide)

theorem queueOpen_nextSeq (s : State) (p : Nat) {q : Nat} (hq : q < 8) : (s.nextSeq p q).queueOpen p q = s.queueOpen p q := by
  have h := sameBut_nextSeq s p hq
  unfold State.queueOpen
  rw [h.enabled (by decide), h.on HQE.Q_EN q rfl hq (by decide), h.on HQE.LINK_UP 0 rfl (by decide) (by decide)]
  rfl

theorem ringFree_nextSeq (s : State) (p : Nat) {q : Nat} (hq : q < 8) : (s.nextSeq p q).ringFree p q = s.ringFree p q := by
  have h := sameBut_nextSeq s p hq
  unfold State.ringFree State.ringSize
  rw [h HQE.SIZE_LOG2 q rfl hq (by decide), h HQE.PROD q rfl hq (by decide), h HQE.CONS q rfl hq (by decide)]
  rfl

/-- A record that finds its queue open and a free slot takes its number and is buffered. -/
theorem offerQueue_open {s : State} {p q : Nat} (hq : q < 8) (m : EvtMsg) (hnone : s.r HQE.DROP_PEND p q = 0) (hopen : s.queueOpen p q = true)
    (hfree : 1 ≤ s.ringFree p q) : s.offerQueue p q m = (s.nextSeq p q).buffer p q (hostRecord m (s.r HQE.SEQ p q)) := by
  have hnone' := (sameBut_nextSeq s p hq HQE.DROP_PEND q rfl hq (by decide)).trans hnone
  simp [State.offerQueue, serveDrop_none hnone, hnone, hnone', queueOpen_nextSeq s p hq, ringFree_nextSeq s p hq, hopen, hfree]

/-- A record that finds no free slot takes its number and is dropped. -/
theorem offerQueue_full {s : State} {p q : Nat} (hq : q < 8) (m : EvtMsg) (hnone : s.r HQE.DROP_PEND p q = 0) (hfree : s.ringFree p q = 0) :
    s.offerQueue p q m = (s.nextSeq p q).dropRecords p q 1 (s.r HQE.SEQ p q) := by
  simp [State.offerQueue, serveDrop_none hnone, hnone, ringFree_nextSeq s p hq, hfree]

theorem offerQueue_open_fields {s : State} {p q : Nat} (hq : q < 8) (m : EvtMsg) (hnone : s.r HQE.DROP_PEND p q = 0)
    (hopen : s.queueOpen p q = true) (hfree : 1 ≤ s.ringFree p q) :
    ((s.offerQueue p q m).port p).buf = (s.port p).buf ++ [{ q := q, words := hostRecord m (s.r HQE.SEQ p q), t := s.up }] ∧
    (s.offerQueue p q m).r HQE.SEQ p q = (s.r HQE.SEQ p q + 1) % 2 ^ 32 ∧ (s.offerQueue p q m).r HQE.DROPS p q = s.r HQE.DROPS p q := by
  rw [offerQueue_open hq m hnone hopen hfree]
  refine ⟨?_, nextSeq_seq s p q, sameBut_nextSeq s p hq HQE.DROPS q rfl hq (by decide)⟩
  simp [State.buffer, State.nextSeq]

theorem offerQueue_full_fields {s : State} {p q : Nat} (hq : q < 8) (m : EvtMsg) (hnone : s.r HQE.DROP_PEND p q = 0)
    (hfree : s.ringFree p q = 0) :
    ((s.offerQueue p q m).port p).buf = (s.port p).buf ∧ (s.offerQueue p q m).r HQE.SEQ p q = (s.r HQE.SEQ p q + 1) % 2 ^ 32 ∧
    (s.offerQueue p q m).r HQE.DROPS p q = min (s.r HQE.DROPS p q + 1) (2 ^ 32 - 1) ∧ (s.offerQueue p q m).r HQE.DROP_PEND p q = 1 := by
  have hkeep := sameBut_nextSeq s p hq
  obtain ⟨hdrops, hpend⟩ := dropRecords_counts (s.nextSeq p q) p 1 (s.r HQE.SEQ p q) hq
  rw [hkeep HQE.DROPS q rfl hq (by decide)] at hdrops
  rw [hkeep HQE.DROP_PEND q rfl hq (by decide), hnone] at hpend
  rw [offerQueue_full hq m hnone hfree]
  refine ⟨?_, ?_, hdrops, hpend⟩
  · rw [(signals_dropRecords _ _ _ _ _).buf, State.nextSeq, port_w]
  · rw [sameBut_dropRecords _ p _ _ hq HQE.SEQ q rfl hq (by decide), nextSeq_seq]

/-- The state in which the oldest message on its way to a port has arrived. -/
def arrived (s : State) (p : Nat) (ms : List EvtMsg) : State := s.setPort p { s.port p with offers := ms }

@[simp] theorem r_arrived (s : State) (p : Nat) (ms : List EvtMsg) (g : Fld) (i j : Nat) : (arrived s p ms).r g i j = s.r g i j := rfl

theorem exec_hqeRecordOffer_unrouted {s : State} {p : Fin 2} {m : EvtMsg} {ms : List EvtMsg} (t : Nat) (hon : s.islandOn .host = true)
    (hm : (s.port p).offers = m :: ms) (hen : s.on HQE.R_EN p m.code = false) :
    exec (.hqeRecordOffer t p) s = .next (s.keepK (arrived (s.tick t) p ms)) := by
  have hm' : ((s.tick t).port p).offers = m :: ms := hm
  have hen' : (arrived (s.tick t) p ms).on HQE.R_EN p m.code = false := hen
  show execHqeRecordOffer t p s = _
  rw [execHqeRecordOffer, runK_on hon]
  simp only [hm']
  rw [← arrived, hen']
  rfl

theorem exec_hqeRecordOffer_routed {s : State} {p : Fin 2} {q : Nat} {m : EvtMsg} {ms : List EvtMsg} (t : Nat)
    (hon : s.islandOn .host = true) (hm : (s.port p).offers = m :: ms) (hen : s.on HQE.R_EN p m.code = true)
    (hq : s.r HQE.QUEUE p m.code = q) :
    exec (.hqeRecordOffer t p) s = .next (s.keepK ((arrived (s.tick t) p ms).offerQueue p q m)) := by
  have hm' : ((s.tick t).port p).offers = m :: ms := hm
  have hen' : (arrived (s.tick t) p ms).on HQE.R_EN p m.code = true := hen
  have hq' : (arrived (s.tick t) p ms).r HQE.QUEUE p m.code = q := hq
  show execHqeRecordOffer t p s = _
  rw [execHqeRecordOffer, runK_on hon]
  simp only [hm']
  rw [← arrived, hen', hq']
  rfl

theorem queueOpen_arrived (s : State) (p q : Nat) (ms : List EvtMsg) : (arrived s p ms).queueOpen p q = s.queueOpen p q := by
  simp [State.queueOpen, arrived, State.on, State.enabled, State.h]

theorem ringFree_arrived (s : State) (p q : Nat) (ms : List EvtMsg) : (arrived s p ms).ringFree p q = s.ringFree p q := by
  simp [State.ringFree, State.ringSize, State.buffered, arrived]

/-! ### Write-backs (R361, R365, R366) -/

theorem signal_regs (s : State) (p q : Nat) : (s.signal p q).regs = s.regs := msix_regs _ _ _

theorem signal_queue (s : State) (p q : Nat) : (s.signal p q).queue p q = { s.queue p q with unsig := 0, oldest := none } :=
  (queue_msix _ _ _ _ _).trans (queue_setQueue _ _ _ _)

theorem signals_signal (s : State) (p q : Nat) : Signals (s.port p) ((s.signal p q).port p) := signals_msix (s.setQueue p q _) p q

/-- The message of a queue whose vector is not masked goes out. -/
theorem signal_sent {s : State} {p q : Nat} (hmask : (s.port p).mask.getLsbD q = false) (hen : s.enabled 7 p = true) :
    sget 0 ((s.signal p q).port p).sent q = sget 0 (s.port p).sent q + 1 := by
  have hsent := msix_sent (s := s.setQueue p q { s.queue p q with unsig := 0, oldest := none }) hmask hen
  rw [State.signal, hsent, port_setPort]
  exact sget_smod_same 0 (s.port p).sent q (· + 1)

theorem burst_alone {h : HostRec} {rest : List HostRec} (hrest : ∀ x ∈ rest, x.q ≠ h.q) : burst (h :: rest) = [h] := by
  have hnone : rest.filter (fun x => x.q == h.q) = [] := by simpa [List.filter_eq_nil_iff] using hrest
  simp [burst, hnone]

/-- The state in which the record at the head of a port's buffer is written to host memory. -/
def recordWritten (s : State) (p : Nat) (h : HostRec) (rest : List HostRec) : State :=
  (s.setPort p { s.port p with buf := rest }).writeRecord p h

/-- The state in which PROD is written back after that record. -/
def prodWritten (s : State) (p : Nat) (h : HostRec) (rest : List HostRec) : State :=
  (recordWritten s p h rest).setQueue p h.q { s.queue p h.q with
    wbProd := BitVec.ofNat 32 ((recordWritten s p h rest).r HQE.PROD p h.q),
    unsig := (s.queue p h.q).unsig + 1,
    oldest := some ((s.queue p h.q).oldest.getD s.up) }

theorem sameBut_prodWritten (s : State) (p : Nat) {h : HostRec} (rest : List HostRec) (hq : h.q < 8) :
    SameBut [HQE.PROD] p s (prodWritten s p h rest) :=
  (SameBut.w (SameBut.setPort (SameBut.setPort (SameBut.refl _ _ _) _ _) _ _) (by decide) rfl hq).setQueue _ _ _

theorem prodWritten_prod (s : State) (p : Nat) (h : HostRec) (rest : List HostRec) :
    (prodWritten s p h rest).r HQE.PROD p h.q = (s.r HQE.PROD p h.q + 1) % 2 ^ 32 :=
  r_w_cut _ _ _ _ _ (by decide)

theorem prodWritten_port (s : State) (p : Nat) (h : HostRec) (rest : List HostRec) :
    (prodWritten s p h rest).port p = { s.port p with
      buf := rest,
      ring := sset [] (s.port p).ring (s.qBase p h.q + 32 * (s.r HQE.PROD p h.q % s.ringSize p h.q)) h.words } := by
  simp only [prodWritten, recordWritten, State.writeRecord, port_setQueue, port_w, port_setPort]
  rfl

/-- The message that follows goes out, or the queue waits for INT_COUNT and INT_US. -/
def prodSignalled (s : State) (p : Nat) (h : HostRec) (rest : List HostRec) : State :=
  if (prodWritten s p h rest).r HQE.INT_US p h.q = 0 ∨ (prodWritten s p h rest).r HQE.INT_COUNT p h.q ≤ (s.queue p h.q).unsig + 1 then
    (prodWritten s p h rest).signal p h.q
  else prodWritten s p h rest

theorem sameBut_prodSignalled (s : State) (p : Nat) {h : HostRec} (rest : List HostRec) (hq : h.q < 8) :
    SameBut [HQE.PROD] p s (prodSignalled s p h rest) := by
  have hprod := sameBut_prodWritten s p rest hq
  exact ((hprod.setQueue _ _ _).msix _).ite hprod

theorem prodSignalled_prod (s : State) (p : Nat) (h : HostRec) (rest : List HostRec) :
    (prodSignalled s p h rest).r HQE.PROD p h.q = (s.r HQE.PROD p h.q + 1) % 2 ^ 32 := by
  rw [← prodWritten_prod s p h rest]
  unfold prodSignalled State.r
  split
  · rw [signal_regs]
  · rfl

/-- The record has left the buffer and stands at its slot. -/
theorem prodSignalled_port (s : State) (p : Nat) (h : HostRec) (rest : List HostRec) :
    ((prodSignalled s p h rest).port p).buf = rest ∧
    sget [] ((prodSignalled s p h rest).port p).ring (s.qBase p h.q + 32 * (s.r HQE.PROD p h.q % s.ringSize p h.q)) = h.words := by
  have hsig : Signals ((prodWritten s p h rest).port p) ((prodSignalled s p h rest).port p) := by
    unfold prodSignalled
    split
    · exact signals_signal _ _ _
    · exact .refl _
  obtain ⟨offers, pend, sent, hport⟩ := hsig
  rw [hport, prodWritten_port]
  exact ⟨rfl, sget_sset_same _ _ _ _⟩

/-- With INT_US = 0 the message follows at once (R366). -/
theorem prodSignalled_now {s : State} {p : Nat} {h : HostRec} (rest : List HostRec) (hq : h.q < 8) (hen : s.enabled 7 p = true)
    (hnow : s.r HQE.INT_US p h.q = 0) (hmask : (s.port p).mask.getLsbD h.q = false) :
    sget 0 ((prodSignalled s p h rest).port p).sent h.q = sget 0 (s.port p).sent h.q + 1 ∧
    ((prodSignalled s p h rest).queue p h.q).oldest = none := by
  have hsame := sameBut_prodWritten s p rest hq
  have hmask' : ((prodWritten s p h rest).port p).mask.getLsbD h.q = false := by
    rw [prodWritten_port]
    exact hmask
  have hsignal : prodSignalled s p h rest = (prodWritten s p h rest).signal p h.q :=
    if_pos (.inl ((hsame HQE.INT_US h.q rfl hq (by decide)).trans hnow))
  rw [hsignal, signal_sent hmask' ((hsame.enabled (by decide)).trans hen), signal_queue, prodWritten_port]
  exact ⟨rfl, rfl⟩

/-- A write-back of one record, with no drop record owed on the port. -/
theorem exec_hqeWriteback_alone {s : State} {p : Fin 2} {h : HostRec} {rest : List HostRec} (t : Nat) (hon : s.islandOn .host = true)
    (hbuf : (s.port p).buf = h :: rest) (hrest : ∀ x ∈ rest, x.q ≠ h.q) (hq : h.q < 8) (hlink : s.on HQE.LINK_UP p = true)
    (hen : s.enabled 7 p = true) (hnone : ∀ k < 8, s.r HQE.DROP_PEND p k = 0) :
    exec (.hqeWriteback t p) s = .next (s.keepK (prodSignalled (s.tick t) p h rest)) := by
  have hbuf' : ((s.tick t).port p).buf = h :: rest := hbuf
  have hgo : (!(s.tick t).on HQE.LINK_UP p || !(s.tick t).enabled 7 p) = false := by
    rw [on_tick, hlink]
    simpa using hen
  have hserved : (prodSignalled (s.tick t) p h rest).forN 8 (fun s q => s.serveDrop p q) = prodSignalled (s.tick t) p h rest :=
    forN_serveDrop_none fun k hk => (sameBut_prodSignalled (s.tick t) p rest hq HQE.DROP_PEND k rfl hk (by decide)).trans (hnone k hk)
  show execHqeWriteback t p s = _
  rw [execHqeWriteback, runK_on hon, ← hserved]
  simp only [hbuf', burst_alone hrest, hgo, List.foldl_cons, List.foldl_nil, List.erase_cons_head, Bool.false_eq_true, if_false]
  rfl

/-- A page with ENABLE = 0 writes back nothing (R567). -/
theorem exec_hqeWriteback_disabled {s : State} {p : Fin 2} (t : Nat) (hen : s.enabled 7 p = false) :
    exec (.hqeWriteback t p) s = .next (s.keepK (s.tick t)) := by
  have hstop : (!(s.tick t).on HQE.LINK_UP p || !(s.tick t).enabled 7 p) = true := by
    have hen' : (s.tick t).enabled 7 p = false := hen
    rw [hen', Bool.not_false, Bool.or_true]
  show execHqeWriteback t p s = _
  cases hon : s.islandOn .host with
  | false => exact runK_off hon t _
  | true =>
    rw [execHqeWriteback, runK_on hon]
    cases burst ((s.tick t).port p).buf with
    | nil => rfl
    | cons h b => simp only [hstop, if_true]

/-! ### The interval of a queue and masked vectors (R366) -/

theorem exec_hqeIntTimer_due {s : State} {p : Fin 2} {q : Fin 8} {t0 : Nat} (t : Nat) (hon : s.islandOn .host = true)
    (hen : s.enabled 7 p = true) (hold : (s.queue p q).oldest = some t0) (hset : s.r HQE.INT_US p q ≠ 0)
    (hdue : t0 + 1000 * s.r HQE.INT_US p q ≤ (s.tick t).up) :
    exec (.hqeIntTimer t p q) s = .next (s.keepK ((s.tick t).signal p q)) := by
  have hold' : ((s.tick t).queue p q).oldest = some t0 := hold
  show execHqeIntTimer t p q s = _
  rw [execHqeIntTimer, runK_on hon]
  simp only [hold']
  rw [if_pos ⟨hen, hset, hdue⟩]

/-- The state in which a vector is unmasked and no message waits for it. -/
def unmasked (s : State) (p v : Nat) : State :=
  s.setPort p { s.port p with mask := (s.port p).mask &&& ~~~(1#9 <<< v), pend := (s.port p).pend &&& ~~~(1#9 <<< v) }

/-- The message that waited for the vector goes out. -/
def unmaskedSent (s : State) (p v : Nat) : State := if (s.port p).pend.getLsbD v then (unmasked s p v).msix p v else unmasked s p v

theorem exec_msixUnmask {s : State} {p : Fin 2} {v : Fin 9} (t : Nat) (hon : s.islandOn .host = true) :
    exec (.msixUnmask t p v) s = .next (s.keepK (unmaskedSent (s.tick t) p v)) :=
  runK_on hon t _

theorem unmasked_port (s : State) (p : Nat) (v : Fin 9) :
    ((unmasked s p v).port p).mask.getLsbD v = false ∧ ((unmasked s p v).port p).pend.getLsbD v = false ∧
    ((unmasked s p v).port p).sent = (s.port p).sent := by
  simp [unmasked]

theorem unmaskedSent_regs (s : State) (p v : Nat) : (unmaskedSent s p v).regs = s.regs := by
  unfold unmaskedSent
  split
  · rw [msix_regs]
    rfl
  · rfl

theorem unmaskedSent_enabled {s : State} {p : Nat} (v : Fin 9) (hen : s.enabled 7 p = true) :
    ((unmaskedSent s p v).port p).mask.getLsbD v = false ∧ ((unmaskedSent s p v).port p).pend.getLsbD v = false ∧
    sget 0 ((unmaskedSent s p v).port p).sent v = sget 0 (s.port p).sent v + ((s.port p).pend.getLsbD v).toNat := by
  have hen' : (unmasked s p v).enabled 7 p = true := hen
  obtain ⟨hmask, hpend, hsent⟩ := unmasked_port s p v
  unfold unmaskedSent
  cases (s.port p).pend.getLsbD v with
  | false =>
    rw [if_neg Bool.false_ne_true, hsent]
    exact ⟨hmask, hpend, rfl⟩
  | true =>
    rw [if_pos rfl, msix_sent hmask hen', port_setPort, hsent]
    exact ⟨hmask, hpend, sget_smod_same 0 (s.port p).sent v.val (· + 1)⟩

theorem unmaskedSent_disabled {s : State} {p : Nat} (v : Fin 9) (hen : s.enabled 7 p = false) :
    ((unmaskedSent s p v).port p).mask.getLsbD v = false ∧
    ((unmaskedSent s p v).port p).pend.getLsbD v = (s.port p).pend.getLsbD v ∧ ((unmaskedSent s p v).port p).sent = (s.port p).sent := by
  have hen' : (unmasked s p v).enabled 7 p = false := hen
  obtain ⟨hmask, hpend, hsent⟩ := unmasked_port s p v
  unfold unmaskedSent
  cases (s.port p).pend.getLsbD v with
  | false =>
    rw [if_neg Bool.false_ne_true]
    exact ⟨hmask, hpend, hsent⟩
  | true =>
    rw [if_pos rfl, msix_masked (.inr hen'), port_setPort]
    refine ⟨hmask, ?_, hsent⟩
    simp

/-! ### CONS (R361) -/

/-- What a written CONS takes: its value within the ring, else the nearer end of it. -/
theorem consTaken_eq (prod v size : Nat) (hprod : prod < 2 ^ 32) (hv : v < 2 ^ 32) :
    consTaken prod v size = if (prod + 2 ^ 32 - v) % 2 ^ 32 ≤ size then v
      else if (v + 2 ^ 32 - prod) % 2 ^ 32 < 2 ^ 31 then prod else (prod + 2 ^ 32 - size) % 2 ^ 32 := by
  unfold consTaken
  dsimp only
  by_cases hin : (prod + 2 ^ 32 - v) % 2 ^ 32 ≤ size
  · rw [if_pos hin, if_pos hin]
  · have hpos : 1 ≤ (v + 2 ^ 32 - prod) % 2 ^ 32 := by omega
    simp only [if_neg hin, hpos, true_and]

theorem consTaken_lt (prod v size : Nat) (hprod : prod < 2 ^ 32) (hv : v < 2 ^ 32) : consTaken prod v size < 2 ^ 32 := by
  rw [consTaken_eq prod v size hprod hv]
  split
  · exact hv
  · split
    · exact hprod
    · exact Nat.mod_lt _ (by decide)

/-- The state in which CONS has taken a value, and a clamp is counted. -/
def consSet (s : State) (p q c : Nat) (clamped : Bool) : State :=
  (s.w HQE.CONS c p q).when clamped (fun s => s.clampCount ⟨7, p⟩ (HQE.CONS.off + q * HQE.CONS.stride) 0)

theorem sameBut_when_clampCount (p : Nat) (s : State) (clamped : Bool) (off lsb : Nat) :
    SameBut [HDR.CLAMPS, HDR.LAST_DATA, HDR.LAST_OFFSET, HDR.LAST_BIT] p s (s.when clamped (fun s => s.clampCount ⟨7, p⟩ off lsb)) :=
  PowerLaws.when_intro (SameBut.refl _ _ _) (sameBut_clampCount p s off lsb)

theorem consSet_prod (s : State) (p c : Nat) {q : Nat} (hq : q < 8) (clamped : Bool) :
    (consSet s p q c clamped).r HQE.PROD p q = s.r HQE.PROD p q := by
  have hw : SameBut [HQE.CONS] p s (s.w HQE.CONS c p q) := (SameBut.refl _ _ _).w (by decide) rfl hq
  exact (sameBut_when_clampCount p _ clamped _ _ HQE.PROD q rfl hq (by decide)).trans (hw HQE.PROD q rfl hq (by decide))

theorem consSet_cons (s : State) (p : Nat) {q c : Nat} (hq : q < 8) (hc : c < 2 ^ 32) (clamped : Bool) :
    (consSet s p q c clamped).r HQE.CONS p q = c := by
  unfold consSet
  rw [sameBut_when_clampCount p _ clamped _ _ HQE.CONS q rfl hq (by decide), r_w_cut _ _ _ _ _ (by decide)]
  exact Nat.mod_eq_of_lt hc

theorem ringSize_countWrite (s : State) (p : Nat) {q : Nat} (hq : q < 8) : (s.countWrite ⟨7, p⟩).ringSize p q = s.ringSize p q := by
  unfold State.ringSize
  rw [sameBut_countWrite p s HQE.SIZE_LOG2 q rfl hq (by decide)]

/-- CONS keeps the value it has taken while an owed drop record is served. -/
theorem consSet_served (s : State) (p : Nat) {q c : Nat} (hq : q < 8) (hc : c < 2 ^ 32) (clamped : Bool) :
    ((consSet s p q c clamped).serveDrop p q).r HQE.PROD p q = s.r HQE.PROD p q ∧
    ((consSet s p q c clamped).serveDrop p q).r HQE.CONS p q = c := by
  have hserve := sameBut_serveDrop (consSet s p q c clamped) p hq
  rw [hserve HQE.PROD q rfl hq (by decide), hserve HQE.CONS q rfl hq (by decide)]
  exact ⟨consSet_prod s p c hq clamped, consSet_cons s p hq hc clamped⟩

theorem exec_consWrite {s : State} {r : Requester} {p : Fin 2} {q : Fin 8} (t : Nat) (v : Word) (h : Takes s r ⟨7, p⟩) :
    exec (.consWrite t r p q v) s = .next (s.keepK
      ((consSet ((s.tick t).countWrite ⟨7, p⟩) p q (consTaken (s.r HQE.PROD p q) v.toNat (s.ringSize p q))
        (consTaken (s.r HQE.PROD p q) v.toNat (s.ringSize p q) != v.toNat)).serveDrop p q)) := by
  have hprod : ((s.tick t).countWrite ⟨7, p⟩).r HQE.PROD p q = s.r HQE.PROD p q :=
    sameBut_countWrite p (s.tick t) HQE.PROD q rfl q.isLt (by decide)
  have hsize : ((s.tick t).countWrite ⟨7, p⟩).ringSize p q = s.ringSize p q := ringSize_countWrite (s.tick t) p q.isLt
  rw [← hprod, ← hsize]
  exact cmdK_takes h t _ _ _

/-! ### Q_EN (R367) -/

theorem sameBut_dropBuffered (s : State) (p : Nat) {q : Nat} (hq : q < 8) : SameBut dropFields p s (s.dropBuffered p q) := by
  unfold State.dropBuffered
  dsimp only
  split
  · exact SameBut.refl _ _ _
  · exact ((SameBut.refl _ _ _).setPort _ _).trans (sameBut_dropRecords _ p _ _ hq)

theorem dropBuffered_buf (s : State) (p q : Nat) : ((s.dropBuffered p q).port p).buf = (s.port p).buf.filter (fun h => !(h.q == q)) := by
  unfold State.dropBuffered
  dsimp only
  split
  · rw [port_setPort]
  · rw [(signals_dropRecords _ _ _ _ _).buf, port_setPort]

theorem setQEn_rise {s : State} {p q : Nat} (hoff : s.on HQE.Q_EN p q = false) :
    s.setQEn p q true = (((s.wb HQE.Q_EN true p q).w HQE.PROD 0 p q).w HQE.CONS 0 p q).serveDrop p q := by
  simp [State.setQEn, hoff]

theorem setQEn_off (s : State) (p q : Nat) :
    s.setQEn p q false = if s.on HQE.Q_EN p q then (s.wb HQE.Q_EN false p q).dropBuffered p q else s.wb HQE.Q_EN false p q := by
  simp [State.setQEn]

theorem sameBut_setQEn_off (s : State) (p : Nat) {q : Nat} (hq : q < 8) : SameBut (HQE.Q_EN :: dropFields) p s (s.setQEn p q false) := by
  have hoff : SameBut (HQE.Q_EN :: dropFields) p s (s.wb HQE.Q_EN false p q) := (SameBut.refl _ _ _).w (by decide) rfl hq
  have hdrop := (sameBut_dropBuffered (s.wb HQE.Q_EN false p q) p hq).mono (gs := HQE.Q_EN :: dropFields) (by decide)
  rw [setQEn_off]
  exact (hoff.trans hdrop).ite hoff

/-- A rise of Q_EN sets PROD and CONS to 0. -/
theorem setQEn_rise_fields {s : State} {p q : Nat} (hq : q < 8) (hoff : s.on HQE.Q_EN p q = false) :
    (s.setQEn p q true).r HQE.Q_EN p q = 1 ∧ (s.setQEn p q true).r HQE.PROD p q = 0 ∧ (s.setQEn p q true).r HQE.CONS p q = 0 := by
  rw [setQEn_rise hoff]
  have hserve (g : Fld) (hc : g.code = 7) (hi : q < g.n) (ha : ∀ f ∈ serveFields, Apart f g) (u : State) :
      (u.serveDrop p q).r g p q = u.r g p q := sameBut_serveDrop u p hq g q hc hi ha
  have hcons (u : State) : SameBut [HQE.CONS] p u (u.w HQE.CONS 0 p q) := (SameBut.refl _ _ _).w (by decide) rfl hq
  have hprod (u : State) : SameBut [HQE.PROD] p u (u.w HQE.PROD 0 p q) := (SameBut.refl _ _ _).w (by decide) rfl hq
  refine ⟨?_, ?_, ?_⟩
  · rw [hserve HQE.Q_EN rfl hq (by decide), hcons _ HQE.Q_EN q rfl hq (by decide), hprod _ HQE.Q_EN q rfl hq (by decide),
      r_wb_same _ _ _ _ _ (by decide) (by decide)]
    rfl
  · rw [hserve HQE.PROD rfl hq (by decide), hcons _ HQE.PROD q rfl hq (by decide), r_w_cut _ _ _ _ _ (by decide), Nat.zero_mod]
  · rw [hserve HQE.CONS rfl hq (by decide), r_w_cut _ _ _ _ _ (by decide), Nat.zero_mod]

/-- A fall of Q_EN drops the queue's buffered records and keeps SEQ. -/
theorem setQEn_fall_fields {s : State} {p q : Nat} (hq : q < 8) (hon : s.on HQE.Q_EN p q = true) :
    (s.setQEn p q false).r HQE.Q_EN p q = 0 ∧ ((s.setQEn p q false).port p).buf = (s.port p).buf.filter (fun h => !(h.q == q)) ∧
    (s.setQEn p q false).r HQE.SEQ p q = s.r HQE.SEQ p q := by
  refine ⟨?_, ?_, sameBut_setQEn_off s p hq HQE.SEQ q rfl hq (by decide)⟩
  · rw [setQEn_off, if_pos hon, sameBut_dropBuffered _ p hq HQE.Q_EN q rfl hq (by decide), r_wb_same _ _ _ _ _ (by decide) (by decide)]
    rfl
  · rw [setQEn_off, if_pos hon]
    exact dropBuffered_buf _ _ _

/-! ### The link (R370, R371) -/

/-- The state in which the link's fields show it up or down. -/
def linkShown (s : State) (p : Nat) (up : Bool) (speed width : Nat) : State :=
  ((s.wb HQE.LINK_UP up p).w HQE.SPEED (if up then speed else 0) p).w HQE.WIDTH (if up then width else 0) p

theorem linkShown_fields (s : State) (p : Nat) (up : Bool) (speed width : Nat) :
    (linkShown s p up speed width).r HQE.LINK_UP p = up.toNat ∧
    (linkShown s p up speed width).r HQE.WIDTH p = (if up then width % 8 else 0) ∧
    (linkShown s p up speed width).r HQE.SPEED p = (if up then speed % 4 else 0) := by
  have hwidth (u : State) (x : Nat) : SameBut [HQE.WIDTH] p u (u.w HQE.WIDTH x p) := (SameBut.refl _ _ _).w (by decide) rfl (by decide)
  have hspeed (u : State) (x : Nat) : SameBut [HQE.SPEED] p u (u.w HQE.SPEED x p) := (SameBut.refl _ _ _).w (by decide) rfl (by decide)
  unfold linkShown
  refine ⟨?_, ?_, ?_⟩
  · rw [hwidth _ _ HQE.LINK_UP 0 rfl (by decide) (by decide), hspeed _ _ HQE.LINK_UP 0 rfl (by decide) (by decide),
      r_wb_same _ _ _ _ _ (by decide) (by decide)]
  · rw [r_w_cut _ _ _ _ _ (by decide)]
    cases up <;> rfl
  · rw [hwidth _ _ HQE.SPEED 0 rfl (by decide) (by decide), r_w_cut _ _ _ _ _ (by decide)]
    cases up <;> rfl

/-- A link that has changed raises its event and, once it is up, lets the owed drop records follow. -/
def linkFollowed (s : State) (p : Nat) (was up : Bool) : State :=
  if was && !up then s.raiseHqe p 8 []
  else if !was && up then (s.raiseHqe p 9 []).forN 8 (fun s q => s.serveDrop p q)
  else s

theorem sameBut_linkFollowed (s : State) (p : Nat) (was up : Bool) : SameBut (HDR.EVT_PEND :: serveFields) p s (linkFollowed s p was up) := by
  have hraise (b : Nat) (hb : b < 32) : SameBut (HDR.EVT_PEND :: serveFields) p s (s.raiseHqe p b []) :=
    (sameBut_raiseHqe s p [] hb).mono (by decide)
  have hserve : SameBut (HDR.EVT_PEND :: serveFields) p (s.raiseHqe p 9 []) ((s.raiseHqe p 9 []).forN 8 fun s q => s.serveDrop p q) :=
    SameBut.forN _ fun u q hq => (sameBut_serveDrop u p hq).mono (by decide)
  exact (hraise 8 (by decide)).ite (((hraise 9 (by decide)).trans hserve).ite (SameBut.refl _ _ _))

theorem exec_pcieLinkChange (s : State) (t : Nat) (p : Fin 2) (up : Bool) (speed width : Fin 8) :
    exec (.pcieLinkChange t p up speed width) s =
      .next (s.keepK (linkFollowed (linkShown (s.tick t) p up speed width) p (s.on HQE.LINK_UP p) up)) := rfl

/-! ### Completion timeouts (R32, R33) -/

/-- The state in which the read under way is aborted and its error shown on the port. -/
def readAborted (s : State) (p : Nat) : State :=
  s.setPort p { s.port p with hostRead := none, cplCount := (s.port p).cplCount + 1, cplError := true }

theorem exec_cplTimeout_due {s : State} {p : Fin 2} (t : Nat) (hon : s.islandOn .host = true)
    (hdue : ∀ t0, (s.port p).hostRead = some t0 → t0 + 1000 * (s.port p).cplUs ≤ (s.tick t).up) :
    exec (.cplTimeout t p) s = .next (s.keepK ((readAborted (s.tick t) p).raiseHqe p 10 [])) := by
  show execCplTimeout t p s = _
  rw [execCplTimeout, runK_on hon]
  cases hread : (s.port p).hostRead with
  | none =>
    have hread' : ((s.tick t).port p).hostRead = none := hread
    simp only [hread', Bool.false_eq_true, if_false]
    rfl
  | some t0 =>
    have hread' : ((s.tick t).port p).hostRead = some t0 := hread
    have hlate : ¬ (s.tick t).up < t0 + 1000 * ((s.tick t).port p).cplUs := Nat.not_lt.mpr (hdue t0 hread)
    simp only [hread', decide_eq_true_eq, if_neg hlate]
    rfl

theorem evtRow_cplTimeout (p : Fin 2) : ∃ x, evtRow 7 p 10 = some x := by
  have hrow : ∀ p : Fin 2, (evtRow 7 p 10).isSome = true := by decide +kernel
  exact Option.isSome_iff_exists.mp (hrow p)

/-- An enabled event of an HQE page is pending once it is raised. -/
theorem testBit_raiseHqe {s : State} {p b : Nat} {x : EvtRow} (hrow : evtRow 7 p b = some x) (hb : b < 32) (hen : s.evtEn 7 p b = true)
    (pay : List Nat) : ((s.raiseHqe p b pay).h HDR.EVT_PEND ⟨7, p⟩).testBit b = true := by
  have hraise := testBit_raise hrow hb hen pay []
  unfold State.raiseHqe
  dsimp only
  split
  · rw [h_msix, hraise]
  · exact hraise

theorem readAborted_port (s : State) (p : Nat) (pay : List Nat) (b : Nat) :
    (((readAborted s p).raiseHqe p b pay).port p).hostRead = none ∧ (((readAborted s p).raiseHqe p b pay).port p).cplError = true ∧
    (((readAborted s p).raiseHqe p b pay).port p).cplCount = (s.port p).cplCount + 1 := by
  obtain ⟨offers, pend, sent, hport⟩ := signals_raiseHqe (readAborted s p) p b pay
  rw [hport, readAborted, port_setPort]
  exact ⟨rfl, rfl, rfl⟩

/-! ### Function level resets (R372) -/

/-- A field at its reset value keeps it while fields are reset. -/
theorem r_rstF_of_reset {s : State} {g : Fld} {p i : Nat} (h : s.r g p i = g.rst % 2 ^ 32) (f : Fld) : (s.rstF f p).r g p i = g.rst % 2 ^ 32 := by
  refine List.foldlRecOn (motive := fun m => (sget (BitVec.ofNat 32 g.rst) m (g.key p i)).toNat = g.rst % 2 ^ 32) _ _ h fun m hm j _ => ?_
  by_cases hkey : g.key p i = f.key p j
  · rw [hkey, sget_sdel_same, BitVec.toNat_ofNat]
  · rw [sget_filter_ne _ _ hkey, hm]

theorem r_rstF_same (s : State) {f : Fld} {p i : Nat} (hi : i < f.n) : (s.rstF f p).r f p i = f.rst % 2 ^ 32 := by
  have hstep (n : Nat) (m : List (Nat × Word)) (hn : i < n) :
      (sget (BitVec.ofNat 32 f.rst) ((List.range n).foldl (fun m j => sdel m (f.key p j)) m) (f.key p i)).toNat = f.rst % 2 ^ 32 := by
    induction n with
    | zero => omega
    | succ n ih =>
      rw [List.range_succ, List.foldl_append, List.foldl_cons, List.foldl_nil]
      by_cases hkey : f.key p i = f.key p n
      · rw [hkey, sget_sdel_same, BitVec.toNat_ofNat]
      · have hne : i ≠ n := fun e => hkey (by rw [e])
        rw [sget_filter_ne _ _ hkey, ih (by omega)]
  exact hstep f.n s.regs hi

theorem r_foldl_rstF {fs : List Fld} {f : Fld} {p i : Nat} (hf : f ∈ fs) (hi : i < f.n) (s : State) :
    (fs.foldl (fun s f => s.rstF f p) s).r f p i = f.rst % 2 ^ 32 := by
  obtain ⟨xs, ys, rfl⟩ := List.append_of_mem hf
  rw [List.foldl_append, List.foldl_cons]
  exact List.foldlRecOn (motive := fun u => State.r u f p i = f.rst % 2 ^ 32) _ _ (r_rstF_same _ hi) fun u hu g _ => r_rstF_of_reset hu g

/-- The fields that a function level reset keeps: SEQ, DROPS, ROUTE and the link's. -/
def flrKept : List Fld := [HQE.SEQ, HQE.DROPS, HQE.QUEUE, HQE.R_EN, HQE.LINK_UP, HQE.SPEED, HQE.WIDTH]

/-- The fields of the page that it returns to reset. -/
def flrFields : List Fld := HQE.fields.filter (fun f => !flrKept.contains f)

/-- The header fields that it writes. -/
def flrHeader : List Fld := [HDR.ENABLE, HDR.FREEZE, HDR.FROZEN, HDR.EVT_PEND, HDR.OPEN]

/-- The queues are off and the fields of the page returned to reset. -/
def flrQueues (s : State) (p : Nat) : State :=
  flrFields.foldl (fun s f => s.rstF f p) (s.forN 8 fun s q => s.setQEn p q false)

/-- The records of the queues and of the port, and PG_CTRL.ENABLE, are returned to reset. -/
def flrRecords (s : State) (p : Nat) : State :=
  let s := s.forN 8 (fun s q => s.setQueue p q {})
  (s.setPort p { s.port p with mask := 0x1FF, pend := 0, table := [], cplUs := 50000, hostRead := none, cplError := false }).hw
    HDR.ENABLE ⟨7, p⟩ 0

/-- The rest of the header is returned to reset and the event of the reset raised. -/
def flrPage (s : State) (p : Nat) : State :=
  let pg : Page := ⟨7, p⟩
  let s := ((s.hw HDR.FREEZE pg 0).hw HDR.FROZEN pg 0).hw HDR.EVT_PEND pg 0
  let s := (s.closeLock pg).setPx pg { (s.closeLock pg).px pg with shadow := [], staged := [], latched := [] }
  s.raiseHqe p 11 []

theorem exec_flr {s : State} {p : Fin 2} (t : Nat) (hon : s.islandOn .host = true) :
    exec (.flr t p) s = .next (s.keepK (flrPage (flrRecords (flrQueues (s.tick t) p) p) p)) :=
  runK_on hon t _

theorem sameBut_flrQueues (s : State) (p : Nat) : SameBut (HQE.Q_EN :: dropFields ++ flrFields) p s (flrQueues s p) := by
  have hoff : SameBut (HQE.Q_EN :: dropFields ++ flrFields) p s (s.forN 8 fun s q => s.setQEn p q false) :=
    SameBut.forN _ fun u q hq => (sameBut_setQEn_off u p hq).mono (List.subset_append_left _ _)
  refine hoff.trans (SameBut.foldl _ _ fun u f hf => (SameBut.refl _ _ _).rstF (List.mem_append_right _ hf) ?_)
  have hcode : ∀ f ∈ flrFields, f.code = 7 := by decide
  exact hcode f hf

theorem flrQueues_reset {f : Fld} (hf : f ∈ flrFields) (s : State) (p : Nat) {q : Nat} (hq : q < f.n) :
    (flrQueues s p).r f p q = f.rst % 2 ^ 32 := r_foldl_rstF hf hq _

theorem sameBut_flrRecords (s : State) (p : Nat) : SameBut [HDR.ENABLE] p s (flrRecords s p) := by
  have hqueues : SameBut [HDR.ENABLE] p s (s.forN 8 fun s q => s.setQueue p q {}) :=
    SameBut.forN _ fun u q _ => (SameBut.refl _ _ _).setQueue _ _ _
  unfold flrRecords
  extract_lets s1
  exact SameBut.hw (hqueues.setPort p _) (by decide) (by decide)

theorem flrRecords_enable (s : State) (p : Nat) : (flrRecords s p).h HDR.ENABLE ⟨7, p⟩ = 0 :=
  (h_hw_same _ _ _ _).trans (by decide)

theorem sameBut_flrPage (s : State) (p : Nat) : SameBut [HDR.FREEZE, HDR.FROZEN, HDR.EVT_PEND, HDR.OPEN] p s (flrPage s p) := by
  unfold flrPage
  extract_lets pg s1 x s2
  have h1 : SameBut [HDR.FREEZE, HDR.FROZEN, HDR.EVT_PEND, HDR.OPEN] p s s1 := by
    refine SameBut.hw (SameBut.hw (SameBut.hw (SameBut.refl _ _ _) ?_ ?_) ?_ ?_) ?_ ?_
    all_goals decide
  have h2 : SameBut [HDR.FREEZE, HDR.FROZEN, HDR.EVT_PEND, HDR.OPEN] p s s2 := (h1.closeLock (by decide)).setPx _ _
  exact h2.trans ((sameBut_raiseHqe s2 p [] (by decide)).mono (by decide))

theorem sameBut_flrHeader (s : State) (p : Nat) : SameBut flrHeader p s (flrPage (flrRecords s p) p) :=
  ((sameBut_flrRecords s p).mono (by decide)).trans ((sameBut_flrPage (flrRecords s p) p).mono (by decide))

theorem sameBut_flr (s : State) (p : Nat) :
    SameBut (HQE.Q_EN :: dropFields ++ flrFields ++ flrHeader) p s (flrPage (flrRecords (flrQueues s p) p) p) :=
  ((sameBut_flrQueues s p).mono (List.subset_append_left _ _)).trans ((sameBut_flrHeader _ p).mono (List.subset_append_right _ _))

theorem flr_enable (s : State) (p : Nat) : (flrPage (flrRecords s p) p).h HDR.ENABLE ⟨7, p⟩ = 0 :=
  ((sameBut_flrPage _ p).header HDR.ENABLE (by decide) (by decide)).trans (flrRecords_enable s p)

theorem flr_reset {f : Fld} (hf : f ∈ flrFields) (hcode : f.code = 7) (ha : ∀ g ∈ flrHeader, Apart g f) (s : State) (p : Nat)
    {q : Nat} (hq : q < f.n) : (flrPage (flrRecords (flrQueues s p) p) p).r f p q = f.rst % 2 ^ 32 := by
  rw [sameBut_flrHeader _ p f q hcode hq ha, flrQueues_reset hf s p hq]

/-! ### The statement -/

/-- Settles O43: each command answers the state that its rule names, and the fields and records that its steps do not write are as they were. -/
theorem hostQueues : Obligations.HostQueues := by
  intro t r p q s
  have hq : q.val < 8 := q.isLt
  refine ⟨?offer, ?writeback, ?disabled, ?timer, ?unmask, ?writes, ?link, ?timeout, ?reset⟩
  case offer =>
    intro m ms hon hm
    have hport : (arrived (s.tick t) p ms).port p = { s.port p with offers := ms } := port_setPort _ _ _
    have hbuf : ((arrived (s.tick t) p ms).port p).buf = (s.port p).buf := by rw [hport]
    refine ⟨fun hen => ?unrouted, fun hen hroute hnone => ⟨fun hopen hfree => ?buffered, fun hfree => ?dropped⟩⟩
    case unrouted => exact ⟨_, exec_hqeRecordOffer_unrouted t hon hm hen, congrArg PortX.offers hport, rfl, hbuf⟩
    case buffered =>
      obtain ⟨hadded, hseq, hdrops⟩ := offerQueue_open_fields (s := arrived (s.tick t) p ms) hq m hnone
        ((queueOpen_arrived (s.tick t) p q ms).trans hopen) (hfree.trans_eq (ringFree_arrived (s.tick t) p q ms).symm)
      rw [hbuf, r_arrived, r_tick] at hadded
      rw [r_arrived, r_tick] at hseq hdrops
      refine ⟨_, exec_hqeRecordOffer_routed t hon hm hen hroute, ?_⟩
      beta_reduce
      rw [port_keepK, r_keepK, r_keepK]
      exact ⟨hadded, hseq, hdrops⟩
    case dropped =>
      obtain ⟨hsame, hseq, hdrops, hpend⟩ := offerQueue_full_fields (s := arrived (s.tick t) p ms) hq m hnone
        ((ringFree_arrived (s.tick t) p q ms).trans hfree)
      rw [r_arrived, r_tick] at hseq hdrops
      refine ⟨_, exec_hqeRecordOffer_routed t hon hm hen hroute, ?_⟩
      beta_reduce
      rw [port_keepK, r_keepK, r_keepK, r_keepK]
      exact ⟨hsame.trans hbuf, hseq, hdrops, hpend⟩
  case writeback =>
    intro h rest hbuf hhq hrest hlink hon hen hnone
    rw [← hhq] at hq ⊢
    obtain ⟨hleft, hslot⟩ := prodSignalled_port (s.tick t) p h rest
    refine ⟨_, exec_hqeWriteback_alone t hon hbuf hrest hq hlink hen fun k hk => hnone ⟨k, hk⟩, ?_⟩
    beta_reduce
    rw [port_keepK, r_keepK, queue_keepK]
    exact ⟨hleft, prodSignalled_prod _ _ _ _, hslot, prodSignalled_now (s := s.tick t) rest hq hen⟩
  case disabled => exact fun hen => ⟨_, exec_hqeWriteback_disabled t hen, rfl, rfl, rfl⟩
  case timer =>
    intro t0 hon hen hold hset hdue
    have hqueue := signal_queue (s.tick t) p q
    refine ⟨_, exec_hqeIntTimer_due t hon hen hold hset hdue, ?_⟩
    beta_reduce
    rw [queue_keepK, keepK_regs]
    exact ⟨congrArg QueueX.oldest hqueue, congrArg QueueX.unsig hqueue, signal_regs _ _ _⟩
  case unmask =>
    intro v hon
    refine ⟨fun hen => ⟨_, exec_msixUnmask t hon, ?_⟩, fun hen => ⟨_, exec_msixUnmask t hon, ?_⟩⟩
    · obtain ⟨hmask, hpend, hsent⟩ := unmaskedSent_enabled (s := s.tick t) v hen
      rw [port_keepK, keepK_regs]
      exact ⟨hmask, hpend, hsent, unmaskedSent_regs _ _ _⟩
    · beta_reduce
      rw [port_keepK]
      exact unmaskedSent_disabled (s := s.tick t) v hen
  case writes =>
    intro htakes
    have hcount := sameBut_countWrite p (s.tick t)
    have hcountOn := hcount.on HQE.Q_EN q rfl hq (by decide)
    refine ⟨fun v => ⟨_, exec_consWrite t v htakes, ?cons⟩, fun hoff => ⟨_, cmdK_takes htakes t _ _ _, ?rise⟩,
      fun hen => ⟨_, cmdK_takes htakes t _ _ _, ?fall⟩⟩
    case cons =>
      have hprodLt := r_lt s HQE.PROD p q
      obtain ⟨hprod, hcons⟩ := consSet_served ((s.tick t).countWrite ⟨7, p⟩) p hq (consTaken_lt _ _ (s.ringSize p q) hprodLt v.isLt)
        (consTaken (s.r HQE.PROD p q) v.toNat (s.ringSize p q) != v.toNat)
      beta_reduce
      rw [r_keepK, r_keepK]
      exact ⟨hprod.trans (hcount HQE.PROD q rfl hq (by decide)), hcons.trans (consTaken_eq _ _ _ hprodLt v.isLt)⟩
    case rise =>
      beta_reduce
      rw [r_keepK, r_keepK, r_keepK]
      exact setQEn_rise_fields hq (hcountOn.trans hoff)
    case fall =>
      obtain ⟨hqen, hbuf, hseq⟩ := setQEn_fall_fields hq (hcountOn.trans hen)
      rw [r_keepK, port_keepK, r_keepK]
      exact ⟨hqen, hbuf, hseq.trans (hcount HQE.SEQ q rfl hq (by decide))⟩
  case link =>
    intro up sp w
    have hfollow := sameBut_linkFollowed (linkShown (s.tick t) p up sp w) p (s.on HQE.LINK_UP p) up
    obtain ⟨hup, hwidth, hspeed⟩ := linkShown_fields (s.tick t) p up sp w
    rw [Nat.mod_eq_of_lt w.isLt] at hwidth
    refine ⟨_, exec_pcieLinkChange s t p up sp w, ?_⟩
    beta_reduce
    rw [r_keepK, r_keepK, r_keepK]
    refine ⟨?_, ?_, ?_⟩
    · exact (hfollow HQE.LINK_UP 0 rfl (by decide) (by decide)).trans hup
    · exact (hfollow HQE.WIDTH 0 rfl (by decide) (by decide)).trans hwidth
    · exact (hfollow HQE.SPEED 0 rfl (by decide) (by decide)).trans hspeed
  case timeout =>
    intro hon hdue
    obtain ⟨x, hrow⟩ := evtRow_cplTimeout p
    obtain ⟨hread, herror, hcpl⟩ := readAborted_port (s.tick t) p [] 10
    refine ⟨_, exec_cplTimeout_due t hon hdue, ?_⟩
    beta_reduce
    rw [h_keepK, port_keepK, r_keepK]
    exact ⟨fun hen => testBit_raiseHqe (s := readAborted (s.tick t) p) hrow (by decide) hen [], hread, herror, hcpl,
      sameBut_raiseHqe _ p [] (by decide) HQE.PROD q rfl hq (by decide)⟩
  case reset =>
    intro hon
    refine ⟨_, exec_flr t hon, ?_⟩
    beta_reduce
    rw [h_keepK, r_keepK, r_keepK, r_keepK, r_keepK, h_keepK]
    refine ⟨flr_enable _ p, ?_, ?_, ?_, ?_, ?_⟩
    · exact flr_reset (f := HQE.Q_EN) (by decide) rfl (by decide) (s.tick t) p hq
    · exact flr_reset (f := HQE.PROD) (by decide) rfl (by decide) (s.tick t) p hq
    · exact flr_reset (f := HQE.CONS) (by decide) rfl (by decide) (s.tick t) p hq
    · exact sameBut_flr (s.tick t) p HQE.SEQ q rfl hq (by decide)
    · exact (sameBut_flr (s.tick t) p).header HDR.OWNER (by decide) (by decide)

end Sys2Proof.HostQueueLaws
end

section
/-! Writes of a page: its error and clamp fields, who may write it, the guard of a writer and the key sequence that a write breaks (R51, R55, R60, R62, R63). -/

namespace Sys2Proof.PageWriteLaws

open Sys2Proof Sys2Proof.Machine Sys2Proof.Laws

/-! ### Header fields -/

/-- A header field reads what was written, when it holds it. -/
theorem h_hw_of_lt (s : State) (f : Fld) (pg : Page) {v : Nat} (hv : v < 2 ^ f.width) (hw : f.width ≤ 32) : (s.hw f pg v).h f pg = v := by
  rw [h_hw_same, Nat.mod_eq_of_lt hv, Nat.mod_eq_of_lt (lt_of_lt_of_le hv (Nat.pow_le_pow_right (by norm_num) hw))]

/-- A count in a header field leaves the fields at other places alone. -/
theorem h_hinc_ne (s : State) (f g : Fld) (pg : Page) (n : Nat) (h : g.off * 32 + g.lsb ≠ f.off * 32 + f.lsb) :
    (s.hinc f pg n).h g pg = s.h g pg := h_hw_ne s f g pg _ h

/-- Time and the count of an accepted write leave every header field but COUNT (R62). -/
theorem h_counted (s : State) (t : Nat) (pg : Page) (g : Fld) (h : g.off * 32 + g.lsb ≠ 0x028 * 32) :
    ((s.tick t).countWrite pg).h g pg = s.h g pg := h_count_ne (s.tick t) pg g h

@[simp] theorem px_hinc (s : State) (f : Fld) (p pg : Page) (n : Nat) : (s.hinc f p n).px pg = s.px pg := rfl

@[simp] theorem px_raise (s : State) (c i b : Nat) (p q : List Nat) (pg : Page) : (s.raise c i b p q).px pg = s.px pg := by
  rw [State.px, raise_pages, State.px]

/-! ### ERR_CLR and CLAMP_CLR (R51) -/

theorem errClr_clears (s : State) (pg : Page) :
    (s.errClr pg).h HDR.ACCESS_ERR pg = 0 ∧ (s.errClr pg).h HDR.SEQ_MISS pg = 0 ∧
    (s.errClr pg).h HDR.LOCK_VIOL pg = 0 ∧ (s.errClr pg).h HDR.OWNER_VIOL pg = 0 := by
  simp (disch := decide) [State.errClr]

theorem clampClr_clears (s : State) (pg : Page) :
    (s.clampClr pg).h HDR.CLAMPS pg = 0 ∧ (s.clampClr pg).h HDR.LAST_OFFSET pg = 0 ∧
    (s.clampClr pg).h HDR.LAST_BIT pg = 0 ∧ (s.clampClr pg).h HDR.LAST_DATA pg = 0 := by
  simp (disch := decide) [State.clampClr]

/-- ERR_CLR writes no field outside PG_ERRCNT. -/
theorem h_errClr (s : State) (pg : Page) (g : Fld) (hoff : g.off ≠ 0x02C) (hlsb : g.lsb < 32) : (s.errClr pg).h g pg = s.h g pg := by
  have apart : ∀ f : Fld, f.off = 0x02C → f.lsb < 32 → g.off * 32 + g.lsb ≠ f.off * 32 + f.lsb := by omega
  rw [State.errClr, h_hw_ne _ _ _ _ _ (apart _ rfl (by decide)), h_hw_ne _ _ _ _ _ (apart _ rfl (by decide)),
    h_hw_ne _ _ _ _ _ (apart _ rfl (by decide)), h_hw_ne _ _ _ _ _ (apart _ rfl (by decide))]

/-- CLAMP_CLR writes no field outside PG_CLAMP. -/
theorem h_clampClr (s : State) (pg : Page) (g : Fld) (hoff : g.off ≠ 0x01C) (hlsb : g.lsb < 32) : (s.clampClr pg).h g pg = s.h g pg := by
  have apart : ∀ f : Fld, f.off = 0x01C → f.lsb < 32 → g.off * 32 + g.lsb ≠ f.off * 32 + f.lsb := by omega
  rw [State.clampClr, h_hw_ne _ _ _ _ _ (apart _ rfl (by decide)), h_hw_ne _ _ _ _ _ (apart _ rfl (by decide)),
    h_hw_ne _ _ _ _ _ (apart _ rfl (by decide)), h_hw_ne _ _ _ _ _ (apart _ rfl (by decide))]

/-- Settles O4: the page takes the write, which counts, and each command clears the fields of its own register alone. -/
theorem pageErrorClears : Obligations.PageErrorClears := by
  intro t r pg s htakes
  refine ⟨⟨_, cmdK_takes htakes t _ _ _, ?_⟩, ⟨_, cmdK_takes htakes t _ _ _, ?_⟩⟩
  · obtain ⟨haccess, hseq, hlock, howner⟩ := errClr_clears ((s.tick t).countWrite pg) pg
    simp only [h_keepK]
    exact ⟨haccess, hseq, hlock, howner, (h_errClr _ pg HDR.CLAMPS (by decide) (by decide)).trans (h_counted s t pg _ (by decide)),
      (h_errClr _ pg HDR.OWNER (by decide) (by decide)).trans (h_counted s t pg _ (by decide))⟩
  · obtain ⟨hcount, hoffset, hbit, hdata⟩ := clampClr_clears ((s.tick t).countWrite pg) pg
    simp only [h_keepK]
    exact ⟨hcount, hoffset, hbit, hdata, (h_clampClr _ pg HDR.ACCESS_ERR (by decide) (by decide)).trans (h_counted s t pg _ (by decide)),
      (h_clampClr _ pg HDR.OWNER (by decide) (by decide)).trans (h_counted s t pg _ (by decide))⟩

/-! ### Key sequences and guards (R60, R63) -/

/-- No key sequence is broken where none is half done. -/
theorem breakKeys_idle {s : State} {pg : Page} (h : (s.px pg).lockStep = false) : s.breakKeys pg = s := by
  simp [State.breakKeys, h]

/-- A broken key sequence shows in LOCK_VIOL alone. -/
theorem h_breakKeys_ne (s : State) (pg : Page) (g : Fld) (h : g.off * 32 + g.lsb ≠ 0x02C * 32 + 8) :
    (s.breakKeys pg).h g pg = s.h g pg := by
  unfold State.breakKeys
  split
  · exact h_hinc_ne _ HDR.LOCK_VIOL _ _ _ h
  · rfl

@[simp] theorem h_disarm (s : State) (r : Requester) (pg : Page) (g : Fld) : (s.disarm r pg).h g pg = s.h g pg := rfl

@[simp] theorem closed_disarm (s : State) (r : Requester) (pg : Page) : (s.disarm r pg).closed pg = s.closed pg := by
  simp [State.closed, State.disarm]

theorem guardOf_disarm (s : State) (r : Requester) (pg : Page) : (s.disarm r pg).guardOf r pg = none := by
  simp [State.guardOf, State.disarm]

theorem guardOf_armGuard (s : State) (r : Requester) (pg : Page) (v : Nat) : (s.armGuard r pg v).guardOf r pg = some v := by
  simp [State.guardOf, State.armGuard]

/-- Arming a guard is no accepted write (R62). -/
theorem h_armGuard_ne (s : State) (r : Requester) (pg : Page) (v : Nat) (g : Fld) (h : g.off * 32 + g.lsb ≠ 0x02C * 32 + 8) :
    (s.armGuard r pg v).h g pg = s.h g pg := h_breakKeys_ne s pg g h

/-- PG_SEQ.GUARD, written by the owner or the Keeper, arms a guard and leaves the count of writes. -/
theorem gives_seqGuardArm {s : State} {r : Requester} {pg : Page} (t : Nat) (v : BitVec 16) (hpage : pageExists pg = true)
    (hreach : s.reaches r pg = true) (hmay : s.mayWrite r pg = true) :
    Gives (.seqGuardArm t r pg v) s (fun u => u.guardOf r pg = some v.toNat ∧ u.h HDR.COUNT pg = s.h HDR.COUNT pg) := by
  have hexec : exec (.seqGuardArm t r pg v) s = .next (s.keepK ((s.tick t).armGuard r pg v.toNat)) := by
    have hreach' : (s.tick t).reaches r pg = true := hreach
    have hmay' : (s.tick t).mayWrite r pg = true := hmay
    change execSeqGuardArm t r pg v s = _
    simp [execSeqGuardArm, State.cmdK, State.answerK, hpage, hreach', hmay']
  exact ⟨_, hexec, guardOf_armGuard _ _ _ _, h_armGuard_ne (s.tick t) r pg v.toNat HDR.COUNT (by decide)⟩

/-! ### The checks of a page write (R55, R60 to R63) -/

theorem mayWrite_foreign {s : State} {r : Requester} {pg : Page} (howner : s.h HDR.OWNER pg ≠ ownerCode r) (hkeeper : r ≠ .keeper) :
    s.mayWrite r pg = false := by
  simp [State.mayWrite, howner, hkeeper]

/-- A write by a requester that is neither the owner nor the Keeper is discarded and counted (R55). -/
theorem pageWrite_foreign {s : State} {r : Requester} {pg : Page} (hpage : pageExists pg = true) (hreach : s.reaches r pg = true)
    (hmay : s.mayWrite r pg = false) (b k : Bool) (f : State → State) :
    s.pageWrite r pg b f k = (s.breakKeys pg).hinc HDR.OWNER_VIOL pg := by
  simp [State.pageWrite, hpage, hreach, hmay]

/-- A write under a guard disarms it, and is then refused, or accepted when the count is the one the guard expects (R63). -/
theorem pageWrite_guarded {s : State} {r : Requester} {pg : Page} {g : Nat} (hpage : pageExists pg = true)
    (hreach : s.reaches r pg = true) (hmay : s.mayWrite r pg = true) (hguard : s.guardOf r pg = some g) (b k : Bool) (f : State → State) :
    s.pageWrite r pg b f k =
      if (b && s.closed pg) = true then ((s.disarm r pg).breakKeys pg).hinc HDR.ACCESS_ERR pg
      else if g ≠ s.h HDR.COUNT pg then ((s.disarm r pg).breakKeys pg).hinc HDR.SEQ_MISS pg
      else f ((if k = true then s.disarm r pg else (s.disarm r pg).breakKeys pg).countWrite pg) := by
  simp [State.pageWrite, hpage, hreach, hmay, hguard]

/-- Breaking a key sequence or not, an accepted write counts from the COUNT that stood (R62). -/
theorem countWrite_disarmed (s : State) (r : Requester) (pg : Page) (k : Bool) :
    (if k = true then s.disarm r pg else (s.disarm r pg).breakKeys pg).countWrite pg =
      (if k = true then s.disarm r pg else (s.disarm r pg).breakKeys pg).hw HDR.COUNT pg (s.h HDR.COUNT pg + 1) := by
  have hcount : (if k = true then s.disarm r pg else (s.disarm r pg).breakKeys pg).h HDR.COUNT pg = s.h HDR.COUNT pg := by
    split
    · rfl
    · exact h_breakKeys_ne _ _ HDR.COUNT (by decide)
  rw [State.countWrite, hcount]

/-- Settles O5: a foreign write is discarded, a write that the page takes acts on the counted state, and under a guard the three outcomes are those of `pageWrite_guarded`. -/
theorem pageWrites : Obligations.PageWrites := by
  intro s r pg b k f
  refine ⟨fun hpage hreach howner hkeeper => pageWrite_foreign hpage hreach (mayWrite_foreign howner hkeeper) b k f,
    fun htakes => pageWrite_takes htakes b k f,
    fun hpage hreach hmay => ⟨fun t v => gives_seqGuardArm t v hpage hreach hmay, fun g hguard => ?guarded⟩⟩
  case guarded =>
    have hwrite := pageWrite_guarded hpage hreach hmay hguard b k f
    refine ⟨guardOf_disarm s r pg, fun hclosed => ?_, fun hopen hmiss => ?_, fun hopen hmeets => ?_⟩
    · rw [hwrite, if_pos hclosed]
    · rw [hwrite, if_neg (by simp [hopen]), if_pos hmiss]
    · rw [hwrite, if_neg (by simp [hopen]), if_neg (not_not.mpr hmeets), countWrite_disarmed]

end Sys2Proof.PageWriteLaws
end

section
/-! The owner of a page: requests, the hand-over by PG_OWNER and the grant after OWN_TIMEOUT (R54 to R58). -/

namespace Sys2Proof.PageOwnershipLaws

open Sys2Proof Sys2Proof.Machine Sys2Proof.Laws Sys2Proof.PageWriteLaws

/-- A page has gone to owner `o`: its lock is closed and no request waits (R57, R58). -/
def HandedTo (pg : Page) (o : Nat) (u : State) : Prop :=
  u.h HDR.OWNER pg = o ∧ u.h HDR.OPEN pg = 0 ∧ u.h HDR.OWNER_PEND pg = 0

theorem ownerCode_pos (r : Requester) : 0 < ownerCode r := by cases r <;> simp [ownerCode]

theorem ownerCode_lt (r : Requester) : ownerCode r < 16 := by cases r <;> simp only [ownerCode] <;> omega

@[simp] theorem h_closeLock_open (s : State) (pg : Page) : (s.closeLock pg).h HDR.OPEN pg = 0 := by
  simp [State.closeLock]

/-- Closing the lock writes PG_LOCK.OPEN alone of the header. -/
theorem h_closeLock_ne (s : State) (pg : Page) (g : Fld) (h : g.off * 32 + g.lsb ≠ 0x020 * 32 + 16) :
    (s.closeLock pg).h g pg = s.h g pg := h_hw_ne s HDR.OPEN g pg 0 h

/-! ### A change of owner (R58) -/

theorem setOwner_handedTo {s : State} {pg : Page} {o : Nat} (hne : o ≠ s.h HDR.OWNER pg) (ho : o < 16) :
    HandedTo pg o (s.setOwner pg o) := by
  have howner : (s.hw HDR.OWNER pg o).h HDR.OWNER pg = o := h_hw_of_lt s HDR.OWNER pg ho (by decide)
  simp (disch := decide) [HandedTo, State.setOwner, hne.symm, h_closeLock_ne, howner]

/-! ### Requests (R57) -/

/-- A request of a requester that may not write the page reaches it all the same, and counts as a write. -/
theorem exec_ownerReq_foreign {s : State} {r : Requester} {pg : Page} (t : Nat) (hpage : pageExists pg = true)
    (hreach : s.reaches r pg = true) (hmay : s.mayWrite r pg = false) (hidle : (s.px pg).lockStep = false) :
    exec (.ownerReq t r pg) s = .next (s.keepK (((s.tick t).countWrite pg).requestOwner r pg)) := by
  have hreach' : (s.tick t).reaches r pg = true := hreach
  have hmay' : (s.tick t).mayWrite r pg = false := hmay
  have hkeys : (s.tick t).breakKeys pg = s.tick t := breakKeys_idle hidle
  change execOwnerReq t r pg s = _
  simp [execOwnerReq, State.cmdK, State.answerK, hpage, hreach', hmay', hkeys]

theorem requestOwner_unowned {s : State} {pg : Page} (r : Requester) (h : s.h HDR.OWNER pg = 0) :
    s.requestOwner r pg = s.setOwner pg (ownerCode r) := by
  simp [State.requestOwner, h, (ownerCode_pos r).ne]

/-- No link of a host port stands behind an owner that is no host. -/
theorem portDown_not_host (s : State) {o : Nat} (h : 3 < o) : s.portDown o = false := by
  have h1 : o ≠ 1 := by omega
  have h2 : o ≠ 2 := by omega
  simp [State.portDown, h1, h2]

/-- A request to another owner than a host waits and is shown. -/
theorem requestOwner_waits {s : State} {r : Requester} {pg : Page} (hhost : 3 < s.h HDR.OWNER pg) (hother : s.h HDR.OWNER pg ≠ ownerCode r) :
    (s.requestOwner r pg).h HDR.OWNER pg = s.h HDR.OWNER pg ∧ (s.requestOwner r pg).h HDR.OWNER_PEND pg = 1 ∧
    (s.requestOwner r pg).h HDR.PEND_REQ pg = ownerCode r := by
  have howned : s.h HDR.OWNER pg ≠ 0 := by omega
  have hpend : ∀ u : State, (u.hw HDR.PEND_REQ pg (ownerCode r)).h HDR.PEND_REQ pg = ownerCode r := fun u =>
    h_hw_of_lt u HDR.PEND_REQ pg (ownerCode_lt r) (by decide)
  have hflag : ∀ u : State, (u.hw HDR.OWNER_PEND pg 1).h HDR.OWNER_PEND pg = 1 := fun u =>
    h_hw_of_lt u HDR.OWNER_PEND pg (by decide) (by decide)
  simp only [State.requestOwner, hother, howned, portDown_not_host s hhost, if_false, false_or, Bool.false_eq_true]
  -- whether the request is a repeated one decides the instant kept beside the header, and nothing of the header
  refine ⟨?_, ?_, ?_⟩ <;> split <;> simp (disch := decide) [hpend, hflag]

/-! ### PG_OWNER (R56 to R58) -/

/-- The codes of R54 that name an owner or none. -/
def legalOwners : List Nat := [0, 1, 2, 4, 5, 6, 7, 8]

theorem enumCode_legalOwner {v : Nat} (h : v ∈ legalOwners) : enumCode legalOwners v = v := by
  revert v
  decide

/-- A legal code hands the page on, code 0 to the requester that waits, when one does. -/
theorem writeOwner_handedTo {s : State} {pg : Page} {v o : Nat} (r : Requester) (hlegal : v ∈ legalOwners)
    (hdest : (if s.h HDR.OWNER_PEND pg = 1 ∧ v = 0 then s.h HDR.PEND_REQ pg else v) = o) (hne : o ≠ s.h HDR.OWNER pg) (ho : o < 16) :
    HandedTo pg o (s.writeOwner r pg v) := by
  have hcode : enumCode [0, 1, 2, 4, 5, 6, 7, 8] v = v := enumCode_legalOwner hlegal
  have hwrite : s.writeOwner r pg v = ((s.setOwner pg o).hw HDR.OWNER_PEND pg 0).hw HDR.PEND_REQ pg 0 := by
    simp [State.writeOwner, hcode, State.when, hdest]
  obtain ⟨howner, hopen, -⟩ := setOwner_handedTo hne ho
  rw [hwrite]
  simp (disch := decide) [HandedTo, howner, hopen]

theorem gives_ownerWrite {s : State} {r : Requester} {pg : Page} {v : BitVec 4} {o : Nat} (t : Nat) (htakes : Takes s r pg)
    (hlegal : v.toNat ∈ legalOwners)
    (hdest : (if s.h HDR.OWNER_PEND pg = 1 ∧ v.toNat = 0 then s.h HDR.PEND_REQ pg else v.toNat) = o)
    (hne : o ≠ s.h HDR.OWNER pg) (ho : o < 16) : Gives (.ownerWrite t r pg v) s (HandedTo pg o) := by
  refine ⟨_, cmdK_takes htakes t _ _ _, writeOwner_handedTo r hlegal ?_ ?_ ho⟩
  · rw [h_counted s t pg HDR.OWNER_PEND (by decide), h_counted s t pg HDR.PEND_REQ (by decide), hdest]
  · rw [h_counted s t pg HDR.OWNER (by decide)]
    exact hne

/-! ### OWN_TIMEOUT (R57) -/

theorem exec_ownTimeoutGrant_due {s : State} {pg : Page} (t : Nat) (hwait : s.h HDR.OWNER_PEND pg = 1) (hlim : s.r IFX.OWN_TIMEOUT ≠ 0)
    (hdue : (s.px pg).reqAt + 1000000 * s.r IFX.OWN_TIMEOUT ≤ (s.tick t).up) :
    exec (.ownTimeoutGrant t pg) s = .next (s.keepK ((s.tick t).setOwner pg (s.h HDR.PEND_REQ pg))) := by
  change execOwnTimeoutGrant t pg s = _
  simp only [execOwnTimeoutGrant, State.cmdK, State.answerK]
  rw [if_pos ⟨hwait, hlim, hdue⟩]
  rfl

/-- Settles O6: every clause but the waiting request ends in a change of owner, to the destination that the rule names. -/
theorem pageOwnership : Obligations.PageOwnership := by
  intro t r pg s hpage hidle
  have hrequest := fun hreach hforeign => exec_ownerReq_foreign (s := s) (r := r) (pg := pg) t hpage hreach hforeign hidle
  refine ⟨fun hreach hkeeper hfree => ?unowned, fun hreach hkeeper hhost hother => ?waits, fun v htakes hv hne => ?handsOn,
    fun htakes hwait hlt hne => ?givesUpToWaiting, fun htakes hnone howned => ?givesUp, fun hwait hlt hlim hdue hne => ?timeout⟩
  case unowned =>
    have hother : s.h HDR.OWNER pg ≠ ownerCode r := hfree ▸ (ownerCode_pos r).ne
    refine ⟨_, hrequest hreach (mayWrite_foreign hother hkeeper), ?_⟩
    have hfree' := (h_counted s t pg HDR.OWNER (by decide)).trans hfree
    rw [requestOwner_unowned r hfree']
    exact setOwner_handedTo (hfree' ▸ (ownerCode_pos r).ne') (ownerCode_lt r)
  case waits =>
    refine ⟨_, hrequest hreach (mayWrite_foreign hother hkeeper), ?_⟩
    have howner := h_counted s t pg HDR.OWNER (by decide)
    obtain ⟨hstays, hpend, hreq⟩ := requestOwner_waits (r := r) (howner ▸ hhost) (howner ▸ hother)
    exact ⟨hstays.trans howner, hpend, hreq⟩
  case handsOn =>
    have hpos : v.toNat ≠ 0 := by
      intro h
      simp [h] at hv
    exact gives_ownerWrite t htakes (List.mem_cons_of_mem 0 hv) (if_neg fun h => hpos h.2) hne v.isLt
  case givesUpToWaiting => exact gives_ownerWrite t htakes (by decide) (if_pos ⟨hwait, rfl⟩) hne hlt
  case givesUp => exact gives_ownerWrite t htakes (by decide) (if_neg (by simp [hnone])) howned.symm (by decide)
  case timeout => exact ⟨_, exec_ownTimeoutGrant_due t hwait hlim hdue, setOwner_handedTo hne hlt⟩

end Sys2Proof.PageOwnershipLaws
end

section
/-! PG_CTRL, PG_EVT_PEND and the staged words of a page: FREEZE, ENABLE, SOFT_RESET, event clears and the discard of staged low words (R50 to R53). -/

namespace Sys2Proof.PageControlLaws

open Sys2Proof Sys2Proof.Machine Sys2Proof.Laws Sys2Proof.PageWriteLaws Sys2Proof.PageOwnershipLaws

/-! ### FREEZE (R51) -/

theorem setFreeze_on (s : State) (pg : Page) : (s.setFreeze pg true).h HDR.FROZEN pg = 1 := by
  unfold State.setFreeze
  by_cases hfrozen : s.h HDR.FROZEN pg = 1
  · simp [hfrozen]
  · simp only [if_true, hfrozen, if_false]
    exact h_hw_of_lt _ HDR.FROZEN pg (by decide) (by decide)

theorem setFreeze_off (s : State) (pg : Page) :
    (s.setFreeze pg false).h HDR.FROZEN pg = 0 ∧ ((s.setFreeze pg false).px pg).shadow = [] := by
  simp [State.setFreeze]

theorem exec_freezeExpiry_due {s : State} {pg : Page} (t : Nat) (hfrozen : s.h HDR.FROZEN pg = 1)
    (hdue : (s.px pg).freezeAt + 10000000 ≤ (s.tick t).up) :
    exec (.freezeExpiry t pg) s = .next (s.keepK ((s.tick t).setFreeze pg false)) := by
  change execFreezeExpiry t pg s = _
  simp only [execFreezeExpiry, State.cmdK, State.answerK]
  rw [if_pos ⟨hfrozen, hdue⟩]

/-! ### ENABLE (R51) -/

/-- What the block does at a change of ENABLE leaves ENABLE itself as written. -/
theorem setEnable_enable {s : State} {pg : Page} {on : Bool} (h : s.enabled pg.code pg.inst ≠ on) :
    (s.setEnable pg on).h HDR.ENABLE pg = on.toNat := by
  rw [State.setEnable, if_neg h]
  exact h_hw_of_lt _ HDR.ENABLE pg (by cases on <;> decide) (by decide)

/-! ### SOFT_RESET (R53) -/

/-- However the block's own registers return, BUSY shows the reset, no event is pending and the lock is closed. -/
theorem softReset_fields (s : State) (pg : Page) :
    (s.softReset pg).h HDR.BUSY pg = 1 ∧ (s.softReset pg).h HDR.EVT_PEND pg = 0 ∧ (s.softReset pg).h HDR.OPEN pg = 0 ∧
    ((s.softReset pg).px pg).resetting = true := by
  have hbusy : ∀ u : State, (u.hw HDR.BUSY pg 1).h HDR.BUSY pg = 1 := fun u => h_hw_of_lt u HDR.BUSY pg (by decide) (by decide)
  simp (disch := decide) [State.softReset, h_closeLock_ne, hbusy]

theorem exec_softResetDone_running {s : State} {pg : Page} (t : Nat) (h : (s.px pg).resetting = true) :
    exec (.softResetDone t pg) s =
      .next (s.keepK (((s.tick t).hw HDR.BUSY pg 0).setPx pg { s.px pg with resetting := false })) := by
  change execSoftResetDone t pg s = _
  simp [execSoftResetDone, State.cmdK, State.answerK, h]

/-! ### Event clears (R52) -/

/-- Ones clear, zeros leave. -/
theorem testBit_and_compl {a v i : Nat} (hv : v < 2 ^ 32) (hi : i < 32) :
    (a &&& (2 ^ 32 - 1 - v)).testBit i = (a.testBit i && !v.testBit i) := by
  have hsub : 2 ^ 32 - 1 - v = 2 ^ 32 - (v + 1) := by omega
  rw [Nat.testBit_and, hsub, Nat.testBit_two_pow_sub_succ hv, decide_eq_true hi, Bool.true_and]

theorem clearPend_testBit (s : State) (pg : Page) (v : Word) {i : Nat} (hi : i < 32) :
    ((s.clearPend pg v.toNat).h HDR.EVT_PEND pg).testBit i = ((s.h HDR.EVT_PEND pg).testBit i && !v.getLsbD i) := by
  have hlt : s.h HDR.EVT_PEND pg &&& (2 ^ 32 - 1 - v.toNat % 2 ^ 32) < 2 ^ 32 := lt_of_le_of_lt Nat.and_le_left (r_lt _ _ _ _)
  rw [State.clearPend, h_hw_of_lt _ HDR.EVT_PEND pg hlt (by decide), Nat.mod_eq_of_lt v.isLt, testBit_and_compl v.isLt hi]
  rfl

/-! ### Staged words (R50) -/

/-- A staged word stays while it is younger than 1 ms. -/
theorem gives_stagedWordDiscard (t : Nat) (pg : Page) (s : State) :
    Gives (.stagedWordDiscard t pg) s (fun u => ∀ w, w ∈ (u.px pg).staged ↔ w ∈ (s.px pg).staged ∧ (s.tick t).up < w.t + 1000000) := by
  refine ⟨_, rfl, fun w => ?_⟩
  simp

/-- Settles O8: each control acts on the counted state of a page that takes the write; the three commands of the block's own act when they are due. -/
theorem pageControls : Obligations.PageControls := by
  intro t r pg s
  refine ⟨fun htakes => ⟨?freeze, ?thaw, fun on hchange => ?enable, ?softReset, fun v => ?clear, fun v => ?guard⟩,
    fun hfrozen hdue => ?expiry, fun hresetting => ?done, gives_stagedWordDiscard t pg s⟩
  case freeze => exact ⟨_, cmdK_takes htakes t _ _ _, setFreeze_on _ pg⟩
  case thaw => exact ⟨_, cmdK_takes htakes t _ _ _, setFreeze_off _ pg⟩
  case enable =>
    have hchange' : ((s.tick t).countWrite pg).enabled pg.code pg.inst ≠ on := by
      rwa [PowerLaws.enabled_countWrite, PowerLaws.enabled_tick]
    exact ⟨_, cmdS_takes htakes t _ _ _, setEnable_enable hchange'⟩
  case softReset =>
    refine ⟨_, cmdS_takes htakes t _ _ _, ?_⟩
    simp only [h_keepS, px_keepS]
    exact softReset_fields _ pg
  case clear =>
    refine ⟨_, cmdK_takes htakes t _ _ _, fun i hi => ?_⟩
    rw [h_keepK, clearPend_testBit _ _ _ hi, h_counted s t pg HDR.EVT_PEND (by decide)]
  case guard =>
    obtain ⟨hpage, hreach, hmay, -⟩ := htakes
    exact gives_seqGuardArm t v hpage hreach hmay
  case expiry => exact ⟨_, exec_freezeExpiry_due t hfrozen hdue, setFreeze_off _ pg⟩
  case done =>
    refine ⟨_, exec_softResetDone_running t hresetting, ?_⟩
    simp

end Sys2Proof.PageControlLaws
end

section
/-! A written register field outside its range: the value it takes and the clamp that counts (R64, R66). -/

namespace Sys2Proof.RegisterClampLaws

open Sys2Proof Sys2Proof.Machine Sys2Proof.Laws Sys2Proof.PageWriteLaws

/-- The register at offset 0x04C of the IFX page holds OWN_TIMEOUT alone (R59). -/
theorem wordFields_ownTimeout : wordFields ⟨4, 0⟩ 0x04C = [(IFX.OWN_TIMEOUT, 0)] := by decide

/-- A clamp counts in PG_CLAMP.COUNT, which saturates (R66). -/
theorem clampCount_clamps (s : State) (pg : Page) (off lsb : Nat) :
    (s.clampCount pg off lsb).h HDR.CLAMPS pg = min (s.h HDR.CLAMPS pg + 1) 65535 := by
  have hinc : (s.hinc HDR.CLAMPS pg).h HDR.CLAMPS pg = min (s.h HDR.CLAMPS pg + 1) 65535 :=
    r_inc_same s (hdr HDR.CLAMPS pg) pg.inst 0 1 (show HDR.CLAMPS.width ≤ 32 by decide)
  simp (disch := decide) [State.clampCount, hinc]

/-- A clamp is no write of the page. -/
theorem h_clampCount_count (s : State) (pg : Page) (off lsb : Nat) : (s.clampCount pg off lsb).h HDR.COUNT pg = s.h HDR.COUNT pg := by
  simp (disch := decide) [State.clampCount, h_hinc_ne]

theorem r_clampCount_ownTimeout (s : State) (off lsb : Nat) :
    (s.clampCount ⟨4, 0⟩ off lsb).r IFX.OWN_TIMEOUT = s.r IFX.OWN_TIMEOUT := by
  rw [State.clampCount, r_hw_ne _ _ _ _ _ _ _ (by decide), r_hw_ne _ _ _ _ _ _ _ (by decide), r_hw_ne _ _ _ _ _ _ _ (by decide)]
  exact r_inc_ne _ _ _ _ _ _ _ _ (by decide)

/-! ### The write of a word (R49, R62) -/

/-- A write above the header is a write of a register of the block's own. -/
theorem busPage_block (s : State) {x : RegW} (h : 0x040 ≤ x.off) : s.busPage x = s.pageWrite x.r x.pg true (fun s => s.blockWrite x) := by
  unfold State.busPage
  split
  case h_1 hoff => omega
  case h_2 hoff => omega
  case h_3 =>
    have hctrl : x.off ≠ 0x008 := by omega
    have hhead : ¬ x.off < 0x040 := by omega
    simp [hctrl, hhead]

/-- A whole, aligned write of a block register that the page takes acts on the counted state. -/
theorem busWrite_block {s : State} {r : Requester} {a : Nat} {pg : Page} (v : Word) (hpage : onPage a = true) (haddr : addrPage a = pg)
    (hal : a % 4 = 0) (hoff : 0x040 ≤ a % 4096) (h : Takes s r pg) :
    s.busWrite r a 0xF#4 v = (s.countWrite pg).blockWrite { r := r, pg := pg, off := a % 4096, v := v } := by
  subst haddr
  have hwrite := (busPage_block s (x := { r := r, pg := addrPage a, off := a % 4096, v := v }) hoff).trans (pageWrite_takes h _ _ _)
  obtain ⟨-, hreach, -⟩ := h
  simp [State.busWrite, hpage, hreach, hal, hwrite]

/-- The generic write of OWN_TIMEOUT: the word has no other field, none is locked, and no other range depends on it. -/
theorem genWrite_ownTimeout (s : State) (v : Nat) : s.genWrite ⟨4, 0⟩ 0x04C v = s.take IFX.OWN_TIMEOUT (bitsAt v 0 16) 0 0 := by
  have hlocked : s.rwlDiffers ⟨4, 0⟩ 0x04C v = false := by simp [State.rwlDiffers, wordFields_ownTimeout, IFX.OWN_TIMEOUT]
  rw [State.genWrite, hlocked, Bool.and_false, wordFields_ownTimeout]
  rfl

/-- OWN_TIMEOUT takes the nearest value of its range, and a clamp counts when that is another. -/
theorem take_ownTimeout (s : State) {v : Nat} (hv : v < 2 ^ 16) :
    s.take IFX.OWN_TIMEOUT v 0 0 =
      (s.w IFX.OWN_TIMEOUT (min v 10000)).when (decide (10000 < v)) (fun s => s.clampCount ⟨4, 0⟩ 0x04C 0) := by
  have htaken : IFX.OWN_TIMEOUT.rng.take IFX.OWN_TIMEOUT.width v = min v 10000 := by
    change min 10000 (max 0 v) = min v 10000
    omega
  have hclamped : (min v 10000 != v % 2 ^ IFX.OWN_TIMEOUT.width) = decide (10000 < v) := by
    change (min v 10000 != v % 2 ^ 16) = _
    rw [Nat.mod_eq_of_lt hv, Bool.eq_iff_iff, bne_iff_ne, decide_eq_true_iff]
    omega
  simp only [State.take, htaken, hclamped]
  rfl

theorem take_ownTimeout_fields (s : State) {v : Nat} (hv : v < 2 ^ 16) :
    (s.take IFX.OWN_TIMEOUT v 0 0).r IFX.OWN_TIMEOUT = min v 10000 ∧
    (s.take IFX.OWN_TIMEOUT v 0 0).h HDR.CLAMPS ⟨4, 0⟩ =
      (if 10000 < v then min (s.h HDR.CLAMPS ⟨4, 0⟩ + 1) 65535 else s.h HDR.CLAMPS ⟨4, 0⟩) ∧
    (s.take IFX.OWN_TIMEOUT v 0 0).h HDR.COUNT ⟨4, 0⟩ = s.h HDR.COUNT ⟨4, 0⟩ := by
  have hvalue : (s.w IFX.OWN_TIMEOUT (min v 10000)).r IFX.OWN_TIMEOUT = min v 10000 := by
    rw [r_w_cut _ _ _ _ _ (by decide)]
    exact Nat.mod_eq_of_lt (lt_of_le_of_lt (min_le_left _ _) hv)
  have hclamps : (s.w IFX.OWN_TIMEOUT (min v 10000)).h HDR.CLAMPS ⟨4, 0⟩ = s.h HDR.CLAMPS ⟨4, 0⟩ := r_w_ne _ _ _ _ _ _ _ _ (by decide)
  have hcount : (s.w IFX.OWN_TIMEOUT (min v 10000)).h HDR.COUNT ⟨4, 0⟩ = s.h HDR.COUNT ⟨4, 0⟩ := r_w_ne _ _ _ _ _ _ _ _ (by decide)
  rw [take_ownTimeout s hv]
  by_cases hover : 10000 < v
  · simp only [State.when, hover, decide_true, if_true]
    rw [r_clampCount_ownTimeout, clampCount_clamps, h_clampCount_count]
    exact ⟨hvalue, by rw [hclamps], hcount⟩
  · simp only [State.when, hover, decide_false, Bool.false_eq_true, if_false]
    exact ⟨hvalue, hclamps, hcount⟩

/-- Settles O10: the write reaches the register of OWN_TIMEOUT on the IFX page, counts, and takes the nearest legal value. -/
theorem registerClamp : Obligations.RegisterClamp := by
  intro t r v s htakes hv
  have hbus : (s.tick t).busWrite r (0x0440004C#32).toNat 0xF#4 v = ((s.tick t).countWrite ⟨4, 0⟩).take IFX.OWN_TIMEOUT v.toNat 0 0 := by
    rw [busWrite_block v (by decide) (by decide) (by decide) (by decide) (takes_tick t htakes)]
    have hwhole : bitsAt v.toNat 0 16 = v.toNat := by
      rw [bitsAt, pow_zero, Nat.div_one, Nat.mod_eq_of_lt hv]
    exact (genWrite_ownTimeout _ v.toNat).trans (by rw [hwhole])
  have hcounted : ((s.tick t).countWrite ⟨4, 0⟩).h HDR.COUNT ⟨4, 0⟩ = (s.h HDR.COUNT ⟨4, 0⟩ + 1) % 2 ^ 16 :=
    r_w_cut _ _ _ _ _ (by decide)
  have hclamps : ((s.tick t).countWrite ⟨4, 0⟩).h HDR.CLAMPS ⟨4, 0⟩ = s.h HDR.CLAMPS ⟨4, 0⟩ :=
    h_counted s t ⟨4, 0⟩ HDR.CLAMPS (by decide)
  obtain ⟨hvalue, hclamp, hcount⟩ := take_ownTimeout_fields ((s.tick t).countWrite ⟨4, 0⟩) hv
  refine ⟨_, SramWriteLaws.exec_registerWrite t r _ _ v s, ?_⟩
  rw [hbus]
  exact ⟨hvalue, hclamps ▸ hclamp, hcount.trans hcounted⟩

end Sys2Proof.RegisterClampLaws
end

section
/-! The set slots: what the slot commands, the end of a check and a region register's write make of the slots, and what their bookkeeping leaves alone (R103, R105, R108, R109). -/

namespace Sys2Proof.SetCommandLaws

open Sys2Proof Sys2Proof.Machine Sys2Proof.Laws

/-! ### What DSQ holds of the slots (R103, R108) -/

theorem otherSlot_ne (k : Slot) : otherSlot k ≠ k := by cases k <;> decide

/-- The slots stand in the sequencer's record alone. -/
theorem slotX_of_dsq {s u : State} (h : u.dsq = s.dsq) (k : Slot) : u.slotX k = s.slotX k := by
  cases k <;> simp only [State.slotX, h]

@[simp] theorem slotX_keepK (s u : State) (k : Slot) : (s.keepK u).slotX k = u.slotX k := slotX_of_dsq rfl k

theorem slotX_setSlot (s : State) (k j : Slot) (x : SlotX) : (s.setSlot k x).slotX j = if j = k then x else s.slotX j := by
  cases k <;> cases j <;> rfl

@[simp] theorem r_setSlot (s : State) (k : Slot) (x : SlotX) (g : Fld) (i j : Nat) : (s.setSlot k x).r g i j = s.r g i j := by
  cases k <;> rfl

@[simp] theorem dsq_showStby (s : State) : s.showStby.dsq = s.dsq := rfl

/-- STBY_STATE alone shows the slots. -/
theorem r_showStby (s : State) {g : Fld} (h : g.key 0 0 ≠ DSQ.STBY_STATE.key 0 0) : s.showStby.r g = s.r g := r_w_ne _ _ _ _ _ _ _ _ h

theorem r_slotTo (s : State) (k : Slot) (st : SlotState) {g : Fld} (h : g.key 0 0 ≠ DSQ.STBY_STATE.key 0 0) :
    (s.slotTo k st).r g = s.r g := (r_showStby _ h).trans (r_setSlot _ _ _ _ _ _)

theorem slotX_slotTo (s : State) (k j : Slot) (st : SlotState) :
    (s.slotTo k st).slotX j = if j = k then { s.slotX k with st := st } else s.slotX j := slotX_setSlot s k j _

/-- A slot that takes a state has it, and the other slot stays as it was. -/
theorem slotTo_slots (s : State) (k : Slot) (st : SlotState) :
    ((s.slotTo k st).slotX k).st = st ∧ (s.slotTo k st).slotX (otherSlot k) = s.slotX (otherSlot k) := by
  rw [slotX_slotTo, slotX_slotTo, if_pos rfl, if_neg (otherSlot_ne k)]
  exact ⟨rfl, rfl⟩

/-! ### Which slot holds the active set -/

/-- ACTIVE_VALID and ACTIVE_SLOT say which slot is active. -/
theorem isActive_congr {s u : State} (hvalid : u.r DSQ.ACTIVE_VALID = s.r DSQ.ACTIVE_VALID) (hslot : u.r DSQ.ACTIVE_SLOT = s.r DSQ.ACTIVE_SLOT)
    (k : Slot) : u.isActive k = s.isActive k := by
  have honValid : u.on DSQ.ACTIVE_VALID = s.on DSQ.ACTIVE_VALID := by rw [State.on, hvalid, State.on]
  have honSlot : u.on DSQ.ACTIVE_SLOT = s.on DSQ.ACTIVE_SLOT := by rw [State.on, hslot, State.on]
  rw [State.isActive, State.activeSlot, honValid, honSlot, State.isActive, State.activeSlot]

theorem isActive_slotTo (s : State) (k j : Slot) (st : SlotState) : (s.slotTo k st).isActive j = s.isActive j :=
  isActive_congr (r_slotTo _ _ _ (by decide)) (r_slotTo _ _ _ (by decide)) j

theorem isActive_setRaw (s : State) {bit : Nat} (hbit : bit < 32) (b : Bool) (k : Slot) : (s.setRaw 16 0 bit b).isActive k = s.isActive k := by
  have hfield (g : Fld) (hpend : g.key 0 0 ≠ pendKey 16 0 0) (hraw : g.key 0 0 ≠ rawKey 16 0 0) : (s.setRaw 16 0 bit b).r g = s.r g :=
    r_setRaw _ _ _ _ _ _ _ _ _ _ (by simpa [pendKey, hbit] using hpend) (by simpa [rawKey, hbit] using hraw)
  exact isActive_congr (hfield _ (by decide) (by decide)) (hfield _ (by decide) (by decide)) k

/-! ### The slot commands (R103, R108) -/

/-- SET_CMD names its slot in the sequencer's record and leaves both slots. -/
theorem slotX_nameSlot (s : State) (k j : Slot) : (s.nameSlot k).slotX j = s.slotX j := by cases j <;> rfl

theorem isActive_nameSlot (s : State) (k j : Slot) : (s.nameSlot k).isActive j = s.isActive j :=
  isActive_congr (r_showStby _ (by decide)) (r_showStby _ (by decide)) j

/-- A slot command on a standby slot, in a state in which it applies, gives that slot its new state and leaves the other. -/
theorem slotCmd_slots {s : State} {k : Slot} {ok : SlotState → Bool} (next : SlotState) (hstandby : s.isActive k = false)
    (hok : ok (s.slotX k).st = true) :
    ((s.slotCmd k ok next).slotX k).st = next ∧ (s.slotCmd k ok next).slotX (otherSlot k) = s.slotX (otherSlot k) := by
  have haccepted : s.slotCmd k ok next = (s.nameSlot k).slotTo k next := by
    simp [State.slotCmd, isActive_nameSlot, slotX_nameSlot, hstandby, hok]
  rw [haccepted, ← slotX_nameSlot s k (otherSlot k)]
  exact slotTo_slots _ k next

theorem startCheck_slots {s : State} {k : Slot} (hstandby : s.isActive k = false) :
    ((s.startCheck k).slotX k).st = .checking ∧ (s.startCheck k).slotX (otherSlot k) = s.slotX (otherSlot k) := by
  have hcleared : s.startCheck k = (((s.setRaw 16 0 0 false).setRaw 16 0 1 false).setRaw 16 0 3 false).slotCmd k (fun _ => true) .checking := by
    simp [State.startCheck, hstandby]
  have hslots : (((s.setRaw 16 0 0 false).setRaw 16 0 1 false).setRaw 16 0 3 false).slotX (otherSlot k) = s.slotX (otherSlot k) :=
    slotX_of_dsq (by simp) _
  rw [hcleared, ← hslots]
  refine slotCmd_slots _ ?_ rfl
  rwa [isActive_setRaw _ (by decide), isActive_setRaw _ (by decide), isActive_setRaw _ (by decide)]

/-- ARM of a checked standby slot leaves at most that slot ARMED. -/
theorem arm_slots {s : State} {k : Slot} (hstandby : s.isActive k = false) (hchecked : (s.slotX k).st = .checked) :
    ((s.arm k).slotX k).st = .armed ∧ ((s.arm k).slotX (otherSlot k)).st ≠ .armed := by
  by_cases hother : (s.slotX (otherSlot k)).st = .armed
  · have harm : s.arm k = (s.slotTo (otherSlot k) .checked).slotCmd k (· == .checked) .armed := by
      simp [State.arm, hstandby, hchecked, hother]
    have hk : (s.slotTo (otherSlot k) .checked).slotX k = s.slotX k := by rw [slotX_slotTo, if_neg (otherSlot_ne k).symm]
    obtain ⟨harmed, hrest⟩ := slotCmd_slots (s := s.slotTo (otherSlot k) .checked) (k := k) (ok := (· == .checked)) .armed
      (by rwa [isActive_slotTo]) (by rw [hk, hchecked]; rfl)
    obtain ⟨hreturned, -⟩ := slotTo_slots s (otherSlot k) .checked
    rw [harm, hrest, hreturned]
    exact ⟨harmed, by decide⟩
  · have harm : s.arm k = s.slotCmd k (· == .checked) .armed := by simp [State.arm, hother]
    obtain ⟨harmed, hrest⟩ := slotCmd_slots (ok := (· == .checked)) .armed hstandby (by rw [hchecked]; rfl)
    rw [harm, hrest]
    exact ⟨harmed, hother⟩

/-! ### The end of a check (R105, R106) -/

/-- What the check of a slot finds: code, item and offset. -/
def verdict (s : State) (k : Slot) : Nat × Nat × Nat :=
  checkSet (s.slotBlob k) (s.slotRegion k).2
    [s.slotRegion .a, s.slotRegion .b, (s.r DSQ.WORK_BASE, s.r DSQ.WORK_SIZE), (s.r DSQ.RESULT_BASE, s.r DSQ.RESULT_SIZE)]
    (s.r DSQ.PLAN_PERIOD_US) (s.r DSQ.ACTIVE) (s.r DSQ.SOLVER_CAP) (s.r DSQ.WORK_SIZE) (s.r DSQ.RESULT_SIZE)
    (s.setSigned k (s.slotBlob k))

/-- The state in which a check has left its code, item and offset. -/
def showVerdict (s : State) (code item off : Nat) : State :=
  ((s.w DSQ.CHECK_CODE code).w DSQ.CHECK_ITEM item).w DSQ.CHECK_OFFSET off

theorem r_showVerdict (s : State) {code : Nat} (item off : Nat) (h : code < 256) : (showVerdict s code item off).r DSQ.CHECK_CODE = code := by
  rw [showVerdict, r_w_ne _ _ _ _ _ _ _ _ (by decide), r_w_ne _ _ _ _ _ _ _ _ (by decide), r_w_cut _ _ _ _ _ (by decide)]
  exact Nat.mod_eq_of_lt h

/-- A check that passes makes its slot CHECKED, with the set's SET_ID and DIGEST, and is reported. -/
def passCheck (s : State) (k : Slot) (id : Word) (digest : List Nat) : State :=
  (((s.setSlot k { st := .checked, setId := id, digest := digest }).showStby).recur 16 0 0).reportSet (if k = .b then 1 else 0) id digest

/-- A check that refuses its set empties the slot. -/
def refuseSet (s : State) (k : Slot) (code item off : Nat) : State :=
  (s.slotTo k .empty).recur 16 0 1 [] ([code, item] ++ leBytes 3 off)

theorem exec_setCheckDone {s : State} {k : Slot} {code item off : Nat} (t : Nat) (hon : s.islandOn .solve = true)
    (hchecking : (s.slotX k).st = .checking) (hverdict : verdict s k = (code, item, off)) :
    exec (.setCheckDone t k) s = .next (s.keepK
      (if code = 0 then passCheck (showVerdict (s.tick t) code item off) k (BitVec.ofNat 32 ((s.slotBlob k).u32 8)) (s.slotBlob k).digest
       else refuseSet (showVerdict (s.tick t) code item off) k code item off)) := by
  have hchecking' : ¬ ((s.tick t).slotX k).st ≠ .checking := not_not.mpr hchecking
  have hverdict' : verdict (s.tick t) k = (code, item, off) := hverdict
  refine (runK_on hon t _).trans ?_
  rw [if_neg hchecking']
  unfold verdict State.slotBlob at hverdict'
  simp only [hverdict']
  rfl

@[simp] theorem dsq_setEvtRaw (s : State) (code inst bit : Nat) (b : Bool) : (s.setEvtRaw code inst bit b).dsq = s.dsq := by
  unfold State.setEvtRaw
  split <;> rfl

@[simp] theorem dsq_recur (s : State) (code inst bit : Nat) (p q : List Nat) : (s.recur code inst bit p q).dsq = s.dsq := by
  simp [State.recur]

/-- An event that comes about once more keeps every register field but its raw and its pending bits (R52). -/
theorem r_recur (s : State) (code inst bit : Nat) (p q : List Nat) {g : Fld} (hpend : g.key 0 0 ≠ pendKey code inst bit)
    (hraw : g.key 0 0 ≠ rawKey code inst bit) : (s.recur code inst bit p q).r g = s.r g := by
  rw [State.recur, r_setRaw _ _ _ _ _ _ _ _ _ _ hpend hraw, r_setEvtRaw _ _ _ _ _ _ _ _ hraw]

/-- `u` differs from `s` in the chain's record alone. -/
def OnlyChain (s u : State) : Prop := ∃ f, u = s.setDch f

namespace OnlyChain

variable {s u v : State}

theorem refl (s : State) : OnlyChain s s := ⟨id, rfl⟩

theorem setDch (h : OnlyChain s u) (f : DchX → DchX) : OnlyChain s (u.setDch f) := by
  obtain ⟨g, rfl⟩ := h
  exact ⟨f ∘ g, rfl⟩

theorem ite {c : Prop} [Decidable c] (h : OnlyChain s u) (k : OnlyChain s v) : OnlyChain s (if c then u else v) := by
  split
  · exact h
  · exact k

theorem putChain (h : OnlyChain s u) (p : Nat) (f : ChainFrame) : OnlyChain s (u.putChain p f) := ite (h.setDch _) h

theorem chainSend (h : OnlyChain s u) (dst cls typ : Nat) (pay : List Nat) : OnlyChain s (u.chainSend dst cls typ pay) := by
  unfold State.chainSend
  refine ite h (ite (putChain (h.setDch _) _ _) (ite (putChain (putChain (h.setDch _) _ _) _ _) ?_))
  split
  · exact ite (putChain (h.setDch _) _ _) (putChain (h.setDch _) _ _)
  · exact putChain (h.setDch _) _ _

theorem sendSlots (h : OnlyChain s u) : OnlyChain s u.sendSlots := ite (h.chainSend _ _ _ _) h

/-- The report of a checked set leaves on the chain (R493). -/
theorem reportSet (s : State) (n : Nat) (id : Word) (digest : List Nat) : OnlyChain s (s.reportSet n id digest) :=
  ite ((refl s).chainSend _ _ _ _).sendSlots (ite ((refl s).chainSend _ _ _ _) (refl s))

end OnlyChain

theorem passCheck_checked (s : State) (k : Slot) (id : Word) (digest : List Nat) :
    (passCheck s k id digest).r DSQ.CHECK_CODE = s.r DSQ.CHECK_CODE ∧ ((passCheck s k id digest).slotX k).st = .checked := by
  obtain ⟨f, hreport⟩ := OnlyChain.reportSet (((s.setSlot k { st := .checked, setId := id, digest := digest }).showStby).recur 16 0 0)
    (if k = .b then 1 else 0) id digest
  rw [passCheck, hreport]
  constructor
  · change (State.recur _ 16 0 0).r DSQ.CHECK_CODE = _
    rw [r_recur _ _ _ _ _ _ (by decide) (by decide), r_showStby _ (by decide), r_setSlot]
  · have hslot : ((((s.setSlot k ⟨.checked, id, digest⟩).showStby).recur 16 0 0).setDch f).slotX k =
        (s.setSlot k ⟨.checked, id, digest⟩).slotX k :=
      slotX_of_dsq ((dsq_recur _ _ _ _ _ _).trans (dsq_showStby _)) k
    rw [hslot, slotX_setSlot, if_pos rfl]

theorem refuseSet_empty (s : State) (k : Slot) (code item off : Nat) :
    (refuseSet s k code item off).r DSQ.CHECK_CODE = s.r DSQ.CHECK_CODE ∧ ((refuseSet s k code item off).slotX k).st = .empty := by
  constructor
  · rw [refuseSet, r_recur _ _ _ _ _ _ (by decide) (by decide), r_slotTo _ _ _ (by decide)]
  · obtain ⟨hempty, -⟩ := slotTo_slots s k .empty
    rw [refuseSet, slotX_of_dsq (dsq_recur _ _ _ _ _ _), hempty]

/-! ### The region registers (R103, R109) -/

/-- `u` shows the region registers of `s`. -/
def SameRegions (s u : State) : Prop := ∀ i : Fin 8, u.r (regionFld i) = s.r (regionFld i)

namespace SameRegions

variable {s u v : State}

theorem refl (s : State) : SameRegions s s := fun _ => rfl

theorem trans (h : SameRegions s u) (k : SameRegions u v) : SameRegions s v := fun i => (k i).trans (h i)

theorem ite {c : Prop} [Decidable c] (h : SameRegions s u) (k : SameRegions s v) : SameRegions s (if c then u else v) := by
  split
  · exact h
  · exact k

theorem w (h : SameRegions s u) {f : Fld} {x a b : Nat} (hf : ∀ i : Fin 8, (regionFld i).key 0 0 ≠ f.key a b) : SameRegions s (u.w f x a b) :=
  fun i => (r_w_ne _ _ _ _ _ _ _ _ (hf i)).trans (h i)

theorem slotTo (h : SameRegions s u) (k : Slot) (st : SlotState) : SameRegions s (u.slotTo k st) :=
  fun i => (r_slotTo u k st (by revert i; decide)).trans (h i)

theorem setInvalidated (h : SameRegions s u) : SameRegions s u.setInvalidated :=
  fun i => (r_recur u 16 0 3 [] [] (by revert i; decide) (by revert i; decide)).trans (h i)

theorem invalidate (h : SameRegions s u) (k : Slot) : SameRegions s (u.invalidate k) := ite h (h.slotTo k .empty).setInvalidated

/-- The predicted times of the contingencies stand above the region registers. -/
theorem predictedConts (h : SameRegions s u) (f : State → Nat → Nat) : SameRegions s (u.forN 8 fun s j => s.w DSQ.PRED_CONT (f s j) 0 j) := by
  have hbelow (i : Fin 8) : (regionFld i).key 0 0 < DSQ.PRED_CONT.key 0 0 := by revert i; decide
  have hcont (j : Nat) : DSQ.PRED_CONT.key 0 0 ≤ DSQ.PRED_CONT.key 0 j := by simp only [Fld.key]; omega
  have hfold (js : List Nat) (u : State) (h : SameRegions s u) : SameRegions s (js.foldl (fun s j => s.w DSQ.PRED_CONT (f s j) 0 j) u) := by
    induction js generalizing u with
    | nil => exact h
    | cons j js ih => exact ih _ (h.w fun i => ((hbelow i).trans_le (hcont j)).ne)
  exact hfold _ u h

theorem predict (h : SameRegions s u) : SameRegions s u.predict :=
  ite (predictedConts ((h.w (by decide)).w (by decide)) _) (predictedConts ((h.w (by decide)).w (by decide)) _)

theorem dropActive (h : SameRegions s u) : SameRegions s u.dropActive :=
  ((((h.w (by decide)).w (by decide)).w (by decide)).slotTo _ .empty).predict

end SameRegions

/-- A legal value is taken as it is, and no clamp counts (R64, R66). -/
theorem take_legal (s : State) {f : Fld} {v : Nat} (hlegal : f.rng.take f.width v = v) (hv : v < 2 ^ f.width) : s.take f v 0 0 = s.w f v := by
  simp [State.take, State.when, hlegal, Nat.mod_eq_of_lt hv]

/-- A legal region value is taken while the lock is open and DSQ is disabled; what falls with the change of a slot leaves the region registers. -/
theorem regionWrite_regions {s : State} {i : Fin 8} {v : Nat} (hopen : s.lockOpen dsqPage = true) (hoff : s.enabled 16 = false)
    (hlegal : (regionFld i).rng.take 32 v = v) (hv : v < 2 ^ 32) : SameRegions (s.w (regionFld i) v) (s.regionWrite i v) := by
  have hwidth : (regionFld i).width = 32 := (by decide : ∀ i : Fin 8, (regionFld i).width = 32) i
  have htake : s.take (regionFld i) v 0 0 = s.w (regionFld i) v := take_legal s (by rwa [hwidth]) (by rwa [hwidth])
  have hstands := SameRegions.refl (s.w (regionFld i) v)
  simp only [State.regionWrite, State.lockViol, hopen, hoff, htake, Bool.not_true, Bool.false_and, Bool.false_eq_true, if_false]
  split
  · exact .ite hstands (.ite hstands.dropActive.setInvalidated (hstands.invalidate _))
  · exact hstands

theorem regionWrite_reads {s : State} {i : Fin 8} {v : Nat} (hopen : s.lockOpen dsqPage = true) (hoff : s.enabled 16 = false)
    (hlegal : (regionFld i).rng.take 32 v = v) (hv : v < 2 ^ 32) : (s.regionWrite i v).r (regionFld i) = v := by
  have hwidth : (regionFld i).width = 32 := (by decide : ∀ i : Fin 8, (regionFld i).width = 32) i
  rw [regionWrite_regions hopen hoff hlegal hv i, r_w_cut _ _ _ _ _ hwidth.le, hwidth, Nat.mod_eq_of_lt hv]

/-! ### The statement -/

/-- Time and the count of the accepted write leave the slots and which of them is active. -/
theorem isActive_counted (s : State) (t : Nat) (k : Slot) : ((s.tick t).countWrite dsqPage).isActive k = s.isActive k :=
  isActive_congr (r_countWrite _ _ _ _ _ (by decide)) (r_countWrite _ _ _ _ _ (by decide)) k

theorem slotX_counted (s : State) (t : Nat) (k : Slot) : ((s.tick t).countWrite dsqPage).slotX k = s.slotX k := slotX_of_dsq rfl k

/-- Settles O17: each slot command acts on the counted state of the DSQ page; the end of a check and a region register's write by their own lemmas. -/
theorem setCommands : Obligations.SetCommands := by
  intro t r k s
  have hrest := slotX_counted s t
  refine ⟨fun htakes hstandby => ?commands, fun htakes => ?named, fun code item off hon hchecking hverdict hcode => ?checked,
    fun i v hopened hoff hlegal => ?region⟩
  case commands =>
    have hstandby' : ((s.tick t).countWrite dsqPage).isActive k = false := (isActive_counted s t k).trans hstandby
    rw [← hrest k, ← hrest (otherSlot k)]
    refine ⟨⟨_, cmdK_takes htakes t _ _ _, ?check⟩, ⟨_, cmdK_takes htakes t _ _ _, ?clear⟩,
      fun harmed => ⟨_, cmdK_takes htakes t _ _ _, ?disarm⟩, fun hchecked => ⟨_, cmdK_takes htakes t _ _ _, ?arm⟩⟩
    all_goals simp only [slotX_keepK]
    case check => exact startCheck_slots hstandby'
    case clear => exact slotCmd_slots .empty hstandby' rfl
    case disarm => exact slotCmd_slots .checked hstandby' (by rw [harmed]; rfl)
    case arm => exact arm_slots hstandby' hchecked
  case named =>
    refine ⟨_, cmdK_takes htakes t _ _ _, rfl, ?_⟩
    rw [slotX_keepK, slotX_keepK, slotX_nameSlot, slotX_nameSlot]
    exact ⟨hrest k, hrest (otherSlot k)⟩
  case checked =>
    refine ⟨_, exec_setCheckDone t hon hchecking hverdict, ?_⟩
    simp only [r_keepK, slotX_keepK]
    have hshown := r_showVerdict (s.tick t) item off hcode
    by_cases hpass : code = 0
    · rw [if_pos hpass, if_pos hpass]
      obtain ⟨hcheckCode, hchecked⟩ := passCheck_checked (showVerdict (s.tick t) code item off) k
        (BitVec.ofNat 32 ((s.slotBlob k).u32 8)) (s.slotBlob k).digest
      exact ⟨hcheckCode.trans hshown, hchecked⟩
    · rw [if_neg hpass, if_neg hpass]
      obtain ⟨hcheckCode, hempty⟩ := refuseSet_empty (showVerdict (s.tick t) code item off) k code item off
      exact ⟨hcheckCode.trans hshown, hempty⟩
  case region =>
    obtain ⟨htakes, hopen⟩ := hopened
    refine ⟨_, cmdK_takes htakes t _ _ _, regionWrite_reads ?_ ?_ hlegal v.isLt⟩
    · exact (PowerLaws.lockOpen_countWrite _ _).trans hopen
    · exact (PowerLaws.enabled_countWrite _ _ _ _).trans hoff

end Sys2Proof.SetCommandLaws
end

section
/-! Lane care: withdrawal and retirement of lanes, decay of their failures, the self-test of spares, and the conflict counters (R132, R138, R140, R146). -/

namespace Sys2Proof.LaneCareLaws

open Sys2Proof Sys2Proof.Machine Sys2Proof.Laws

/-! ### What writing a record can change (R461, R466, R468) -/

/-- `u` differs from `s` in register fields, in the recorder and in the messages on their way alone. -/
def Recorded (s u : State) : Prop :=
  ∃ regs ports rcd toEic, u = { s with regs := regs, ports := ports, rcd := rcd, toEic := toEic }

namespace Recorded

variable {s u v : State}

theorem refl (s : State) : Recorded s s := ⟨_, _, _, _, rfl⟩

theorem trans (h : Recorded s u) (k : Recorded u v) : Recorded s v := by
  obtain ⟨_, _, _, _, rfl⟩ := h
  obtain ⟨_, _, _, _, rfl⟩ := k
  exact ⟨_, _, _, _, rfl⟩

theorem ite {c : Prop} [Decidable c] (h : Recorded s u) (k : Recorded s v) : Recorded s (if c then u else v) := by
  split
  · exact h
  · exact k

theorem w (h : Recorded s u) (f : Fld) (x i j : Nat) : Recorded s (u.w f x i j) := h.trans ⟨_, _, _, _, rfl⟩

theorem setRec (h : Recorded s u) (f : RecX → RecX) : Recorded s (u.setRec f) := h.trans ⟨_, _, _, _, rfl⟩

theorem raise (h : Recorded s u) (c i b : Nat) (p q : List Nat) : Recorded s (u.raise c i b p q) := by
  obtain ⟨_, _, _, _, hraise, -⟩ := raise_inv u c i b p q
  exact h.trans ⟨_, _, _, _, hraise⟩

theorem setEvtRaw (h : Recorded s u) (c i b : Nat) (x : Bool) : Recorded s (u.setEvtRaw c i b x) := ite (h.w _ _ _ _) (h.w _ _ _ _)

theorem ringFill (h : Recorded s u) : Recorded s u.ringFill := ite ((h.setEvtRaw _ _ _ _).raise _ _ _ _ _) (h.setEvtRaw _ _ _ _)

theorem toRing (h : Recorded s u) (x : Rec1) : Recorded s (u.toRing x) := (((h.setRec _).w _ _ _ _).w _ _ _ _).w _ _ _ _

/-- The held records go to the ring one after the other. -/
theorem unhold (h : Recorded s u) : Recorded s u.unhold :=
  ringFill (w (List.foldlRecOn _ _ (h.setRec _) fun _ hv x _ => hv.toRing x) _ _ _ _)

theorem putRec (h : Recorded s u) (code : Nat) (pay : List Nat) : Recorded s (u.putRec code pay) :=
  have hnumbered := (h.setRec _).w _ _ _ _
  ite ((hnumbered.setRec _).w _ _ _ _) (hnumbered.toRing _).ringFill

theorem thaw (h : Recorded s u) (cause : Nat) : Recorded s (u.thaw cause) := by
  unfold State.thaw
  extract_lets n v x
  have hended : Recorded s v := h.w _ _ _ _
  have hreleased : Recorded s x := ite hended hended.unhold
  exact (hreleased.putRec _ _).raise _ _ _ _ _

end Recorded

theorem recorded_writeRec (s : State) (code : Nat) (pay : List Nat) : Recorded s (s.writeRec code pay) :=
  have hended := (Recorded.refl s).w _ _ _ _
  (Recorded.ite (.ite (hended.thaw 2) hended.unhold) (.refl s)).putRec code pay

@[simp] theorem writeRec_dsq (s : State) (code : Nat) (pay : List Nat) : (s.writeRec code pay).dsq = s.dsq := by
  obtain ⟨_, _, _, _, hrec⟩ := recorded_writeRec s code pay
  rw [hrec]

/-! ### The fields of a lane's page -/

/-- No field of a lane's page stands on the DSQ page. -/
theorem laneKey_ne_dsqKey {f g : Fld} (hf : f.code = 17) (hg : g.code = 16) (hoff : g.off < 4096) (hlsb : g.lsb < 32) (l : Nat) :
    f.key l 0 ≠ g.key 0 0 := by
  simp only [Fld.key, hf, hg]
  omega

/-- Different fields of a lane's page do not meet. -/
theorem laneKey_ne (f g : Fld) (hcode : f.code = g.code) (hplace : f.off * 32 + f.lsb ≠ g.off * 32 + g.lsb) (l : Nat) : f.key l 0 ≠ g.key l 0 := by
  simp only [Fld.key, hcode]
  omega

/-- The totals on the DSQ page are no field of a lane (R146). -/
theorem r_showLanes (s : State) {g : Fld} (hg : g.code = 17) (l : Nat) : s.showLanes.r g l = s.r g l := by
  have hdsq {f : Fld} (hcode : f.code = 16) (hoff : f.off < 4096) (hlsb : f.lsb < 32) := laneKey_ne_dsqKey hg hcode hoff hlsb l
  rw [State.showLanes, r_w_ne _ _ _ _ _ _ _ _ (hdsq ?_ ?_ ?_), r_w_ne _ _ _ _ _ _ _ _ (hdsq ?_ ?_ ?_), r_w_ne _ _ _ _ _ _ _ _ (hdsq ?_ ?_ ?_)]
  all_goals decide

/-! ### Withdrawal by command (R138, R140) -/

theorem withdrawn_redeal (s : State) (l : Nat) : (s.redeal l).dsq.withdrawn = s.dsq.withdrawn := by
  unfold State.redeal
  split <;> rfl

/-- A lane that is not retired stands withdrawn once it has been withdrawn, whether or not it was before. -/
theorem isWithdrawn_withdraw {s : State} {l : Nat} (hlive : s.r DSA.STATE l ≠ 2) (cause : Nat) : (s.withdraw l cause).isWithdrawn l = true := by
  by_cases hbefore : s.isWithdrawn l = true
  · rw [State.withdraw, if_pos (.inl hbefore)]
    exact hbefore
  · rw [State.withdraw, if_neg (not_or.mpr ⟨hbefore, hlive⟩)]
    extract_lets spare u v x
    have hu : u.dsq.withdrawn.any (fun w => w.1 == l) = true := by simp [u]
    have hv : v.dsq = u.dsq := by
      unfold v
      cases spare <;> rfl
    have hx : x.dsq = v.dsq := by
      unfold x
      split <;> rfl
    rw [State.isWithdrawn, withdrawn_redeal, w_dsq, hx, hv]
    exact hu

theorem exec_retireCmd {s : State} {r : Requester} {l : Fin 18} (t : Nat) (h : Opened s r ⟨17, l⟩) :
    exec (.retireCmd t r l) s = .next (s.keepK (((s.tick t).countWrite ⟨17, l⟩).withdraw l 3)) := by
  obtain ⟨htakes, hopen⟩ := h
  have hopen' : ((s.tick t).countWrite ⟨17, l⟩).lockOpen ⟨17, l⟩ = true := (PowerLaws.lockOpen_countWrite _ _).trans hopen
  refine (cmdK_takes htakes t _ _ _).trans ?_
  rw [if_pos hopen']

/-- The count of a write to a lane's page leaves the lane's state. -/
theorem state_counted (s : State) (l : Nat) : (s.countWrite ⟨17, l⟩).r DSA.STATE l = s.r DSA.STATE l :=
  have hplace : DSA.STATE.off * 32 + DSA.STATE.lsb ≠ HDR.COUNT.off * 32 + HDR.COUNT.lsb := by decide
  r_countWrite _ _ _ _ _ (laneKey_ne DSA.STATE (hdr HDR.COUNT ⟨17, l⟩) rfl hplace l)

/-! ### The commitment of a retirement (R138) -/

/-- A withdrawn lane whose entry is not committed yet is journalled as retired, and its entry as committed. -/
theorem commitLane_commits {s : State} {l : Nat} {w : Nat × Option Nat × Bool × Nat} (hok : s.mramOk = true)
    (hfind : s.dsq.withdrawn.find? (fun w => w.1 == l && !w.2.2.1) = some w) :
    l ∈ (s.commitLane l).pwr.laneRetired ∧ (l, w.2.1, true, w.2.2.2) ∈ (s.commitLane l).dsq.withdrawn := by
  have hmem : w ∈ s.dsq.withdrawn := List.mem_of_find?_eq_some hfind
  have hlane : w.1 = l := by
    have hmatch := List.find?_some hfind
    simp only [Bool.and_eq_true, beq_iff_eq] at hmatch
    exact hmatch.1
  simp only [State.commitLane, hfind, hok, Bool.not_true, Bool.false_eq_true, if_false, PowerLaws.writeRec_pwr, writeRec_dsq]
  refine ⟨List.mem_append_right _ (.head _), List.mem_map.mpr ⟨w, hmem, ?_⟩⟩
  rw [if_pos hlane, hlane]

theorem exec_retireCommit {s : State} (t : Nat) (l : Fin 18) (hon : s.islandOn .keep = true) :
    exec (.retireCommit t l) s = .next (s.keepK ((s.tick t).commitLane l)) := runK_on hon t _

/-! ### Decay of failures (R138) -/

/-- The failure count of a lane at the end of a decay. -/
def decayed (s : State) (l : Nat) : Nat :=
  if 0 < s.r DSA.FAIL_COUNT l ∧ s.r DSA.FAIL_COUNT l < 3 ∧ sget 0 s.pwr.laneAt l + 86400 ≤ s.opSec then s.r DSA.FAIL_COUNT l - 1
  else s.r DSA.FAIL_COUNT l

/-- The decay of one lane's failures. -/
def decayLane (s : State) (l : Nat) : State :=
  if 0 < s.r DSA.FAIL_COUNT l ∧ s.r DSA.FAIL_COUNT l < 3 ∧ sget 0 s.pwr.laneAt l + 86400 ≤ s.opSec then s.setFails l (s.r DSA.FAIL_COUNT l - 1)
  else s

theorem exec_failCountDecay (t : Nat) (s : State) : exec (.failCountDecay t) s = .next (s.keepK ((s.tick t).forN 18 decayLane)) := rfl

theorem r_decayLane_same (s : State) (l : Nat) : (decayLane s l).r DSA.FAIL_COUNT l = decayed s l := by
  unfold decayLane decayed
  split
  · next hdue =>
    obtain ⟨-, hlow, -⟩ := hdue
    refine (r_w_cut s DSA.FAIL_COUNT _ l 0 (by decide)).trans (Nat.mod_eq_of_lt ?_)
    change _ < 4
    omega
  · rfl

/-- A journalled count leaves the count of another lane, and what its decay turns on. -/
theorem setFails_other (s : State) {l m : Nat} (n : Nat) (h : m ≠ l) :
    (s.setFails l n).r DSA.FAIL_COUNT m = s.r DSA.FAIL_COUNT m ∧ decayed (s.setFails l n) m = decayed s m := by
  have hkey : DSA.FAIL_COUNT.key m 0 ≠ DSA.FAIL_COUNT.key l 0 := by
    simp only [Fld.key]
    omega
  have hcount : (s.setFails l n).r DSA.FAIL_COUNT m = s.r DSA.FAIL_COUNT m := r_w_ne s _ _ _ _ _ _ _ hkey
  have hat : sget 0 (s.setFails l n).pwr.laneAt m = sget 0 s.pwr.laneAt m := sget_sset_ne _ _ _ _ h
  have hsec : (s.setFails l n).opSec = s.opSec := rfl
  exact ⟨hcount, by rw [decayed, hcount, hat, hsec, decayed]⟩

theorem decayLane_other (s : State) {l m : Nat} (h : m ≠ l) :
    (decayLane s l).r DSA.FAIL_COUNT m = s.r DSA.FAIL_COUNT m ∧ decayed (decayLane s l) m = decayed s m := by
  unfold decayLane
  split
  · exact setFails_other s _ h
  · exact ⟨rfl, rfl⟩

theorem forN_succ (s : State) (n : Nat) (f : State → Nat → State) : s.forN (n + 1) f = f (s.forN n f) n := by
  simp [State.forN, List.range_succ]

/-- A lane whose turn has not come decays as it would at first. -/
theorem decayed_forN (s : State) {n l : Nat} (h : n ≤ l) : decayed (s.forN n decayLane) l = decayed s l := by
  induction n with
  | zero => rfl
  | succ n ih =>
    obtain ⟨-, hlater⟩ := decayLane_other (s.forN n decayLane) (l := n) (m := l) (by omega)
    rw [forN_succ, hlater, ih (by omega)]

theorem r_forN_decayLane (s : State) {n l : Nat} (h : l < n) : (s.forN n decayLane).r DSA.FAIL_COUNT l = decayed s l := by
  induction n with
  | zero => omega
  | succ n ih =>
    rw [forN_succ]
    by_cases hlast : l = n
    · rw [hlast, r_decayLane_same, decayed_forN s le_rfl]
    · obtain ⟨hearlier, -⟩ := decayLane_other (s.forN n decayLane) hlast
      rw [hearlier, ih (by omega)]

/-! ### The self-test of spares (R140) -/

/-- The state in which a spare's self-test has left its result. -/
def tested (s : State) (l : Nat) (pass : Bool) : State :=
  (s.setDsq fun d => { d with testing := d.testing.filter (fun k => !(k == l)) }).wb DSA.TEST_PASS pass l

/-- A spare that has failed its self-test is withdrawn and retired at once. -/
def failSpare (s : State) (l : Nat) : State :=
  ((((s.raise 17 l 2).withdraw l 2).w DSA.STATE 2 l).w DSA.CAUSE 2 l).showLanes

theorem exec_spareSelftestDone {s : State} {l : Fin 18} (t : Nat) (pass : Bool) (hon : s.islandOn .solve = true)
    (htesting : s.dsq.testing.contains l.val = true) :
    exec (.spareSelftestDone t l pass) s =
      .next (s.keepK (if pass then tested (s.tick t) l pass else failSpare (tested (s.tick t) l pass) l)) := by
  have hrunning : ¬ ((!(s.tick t).dsq.testing.contains l.val) = true) := by rw [tick_dsq, htesting]; decide
  refine (runK_on hon t _).trans ?_
  rw [if_neg hrunning]
  rfl

theorem tested_passes (s : State) (l : Nat) :
    (tested s l true).r DSA.TEST_PASS l = 1 ∧ (tested s l true).dsq.testing.contains l = false ∧
      (tested s l true).r DSA.STATE l = s.r DSA.STATE l := by
  refine ⟨r_wb_same _ _ _ _ _ (by decide) (by decide), ?_, r_wb_ne _ _ _ _ _ _ _ _ (laneKey_ne DSA.STATE DSA.TEST_PASS rfl (by decide) l)⟩
  simp [tested, State.wb]

theorem failSpare_retires (s : State) (l : Nat) : (failSpare s l).r DSA.STATE l = 2 ∧ (failSpare s l).r DSA.CAUSE l = 2 := by
  have hapart : DSA.STATE.key l 0 ≠ DSA.CAUSE.key l 0 := laneKey_ne DSA.STATE DSA.CAUSE rfl (by decide) l
  rw [failSpare, r_showLanes _ rfl, r_showLanes _ rfl, r_w_ne _ _ _ _ _ _ _ _ hapart, r_w_cut _ _ _ _ _ (by decide), r_w_cut _ _ _ _ _ (by decide)]
  decide

/-! ### The conflict counters (R132, R146) -/

/-- The state in which a window has left its conflict fraction and the largest so far. -/
def fractionShown (s : State) (n : Nat) : State :=
  (s.w DSQ.CONFLICT_WIN n).w DSQ.CONFLICT_PEAK (max (s.r DSQ.CONFLICT_PEAK) n)

/-- A window above an eighth lengthens the run of high windows, any other ends it. -/
def highRunCounted (s : State) (n : Nat) : State := if 8192 < n then s.inc DSQ.HIGH_RUN else s.w DSQ.HIGH_RUN 0

theorem exec_conflictWindow {s : State} (t : Nat) (f : BitVec 16) (hon : s.islandOn .solve = true) :
    exec (.conflictWindow t f) s = .next (s.keepK ((highRunCounted (fractionShown (s.tick t) f.toNat) f.toNat).setRaw 16 0 16
      (decide (16 ≤ (highRunCounted (fractionShown (s.tick t) f.toNat) f.toNat).r DSQ.HIGH_RUN)))) :=
  runK_on hon t _

theorem r_highRunCounted (s : State) (n : Nat) {g : Fld} (h : g.key 0 0 ≠ DSQ.HIGH_RUN.key 0 0) : (highRunCounted s n).r g = s.r g := by
  unfold highRunCounted
  split
  · exact r_inc_ne _ _ _ _ _ _ _ _ h
  · exact r_w_ne _ _ _ _ _ _ _ _ h

theorem highRunCounted_low (s : State) {n : Nat} (h : n ≤ 8192) : (highRunCounted s n).r DSQ.HIGH_RUN = 0 := by
  rw [highRunCounted, if_neg (by omega), r_w_cut _ _ _ _ _ (by decide), Nat.zero_mod]

theorem r_fractionShown_win (s : State) {n : Nat} (h : n < 2 ^ 16) : (fractionShown s n).r DSQ.CONFLICT_WIN = n := by
  rw [fractionShown, r_w_ne _ _ _ _ _ _ _ _ (by decide), r_w_cut _ _ _ _ _ (by decide)]
  exact Nat.mod_eq_of_lt h

theorem r_fractionShown_peak (s : State) {n : Nat} (hn : n < 2 ^ 16) (hpeak : s.r DSQ.CONFLICT_PEAK < 2 ^ 16) :
    (fractionShown s n).r DSQ.CONFLICT_PEAK = max (s.r DSQ.CONFLICT_PEAK) n := by
  rw [fractionShown, r_w_cut _ _ _ _ _ (by decide)]
  exact Nat.mod_eq_of_lt (max_lt hpeak hn)

/-- Fields that are cleared leave a field that stands apart from all of them. -/
theorem r_clear_ne {fs : List Fld} {g : Fld} (h : ∀ f ∈ fs, g.key 0 0 ≠ f.key 0 0) (s : State) :
    (fs.foldl (fun s f => s.w f 0) s).r g = s.r g :=
  List.foldlRecOn (motive := fun u : State => u.r g = s.r g) fs _ rfl fun _ hu f hf => (r_w_ne _ _ _ _ _ _ _ _ (h f hf)).trans hu

/-- Fields at different places that are cleared one after the other read 0, each of them. -/
theorem r_clear_mem {fs : List Fld} (hapart : fs.Pairwise fun f g => f.key 0 0 ≠ g.key 0 0) (hwidth : ∀ f ∈ fs, f.width ≤ 32) (s : State)
    {f : Fld} (hf : f ∈ fs) : (fs.foldl (fun s f => s.w f 0) s).r f = 0 := by
  induction fs generalizing s with
  | nil => exact absurd hf List.not_mem_nil
  | cons g fs ih =>
    obtain ⟨hhead, htail⟩ := List.pairwise_cons.mp hapart
    rw [List.foldl_cons]
    obtain rfl | hmem := List.mem_cons.mp hf
    · rw [r_clear_ne hhead, r_w_cut _ _ _ _ _ (hwidth _ hf), Nat.zero_mod]
    · exact ih htail (fun k hk => hwidth k (.tail _ hk)) _ hmem

/-- The counters that CTR_CLR clears. -/
def clearedCounters : List Fld :=
  [DSQ.CONFLICT_WIN, DSQ.HIGH_RUN, DSQ.CONFLICT_PEAK, DSQ.REG_TOTAL, DSQ.SAT_TOTAL, DSQ.REEXEC_TOTAL, DSQ.ABANDONED]

theorem exec_dsqCtrClr {s : State} {r : Requester} (t : Nat) (h : Takes s r dsqPage) :
    exec (.dsqCtrClr t r) s = .next (s.keepK (clearedCounters.foldl (fun s f => s.w f 0) ((s.tick t).countWrite dsqPage))) :=
  cmdK_takes h t _ _ _

theorem r_clearedCounters {f : Fld} (hf : f ∈ clearedCounters) (s : State) : (clearedCounters.foldl (fun s f => s.w f 0) s).r f = 0 :=
  r_clear_mem (by decide) (by decide) s hf

/-! ### The statement -/

/-- Settles O19: each command acts on the lanes, the journal or the counters as its own lemma says. -/
theorem laneCare : Obligations.LaneCare := by
  intro t s
  refine ⟨fun r l hopened _ hlive => ?withdrawal, fun l w hon hok hfind => ?commitment, ?decay, fun hon hen => ?selftest,
    fun l hon htesting => ⟨?passed, ?failed⟩, fun f hon => ?window, fun r htakes => ?clear⟩
  case withdrawal =>
    have hlive' : ((s.tick t).countWrite ⟨17, l⟩).r DSA.STATE l ≠ 2 := by rwa [state_counted, r_tick]
    refine ⟨_, exec_retireCmd t hopened, ?_⟩
    exact isWithdrawn_withdraw hlive' 3
  case commitment => exact ⟨_, exec_retireCommit t l hon, commitLane_commits (s := s.tick t) hok hfind⟩
  case decay =>
    refine ⟨_, exec_failCountDecay t s, fun l hl _ => ?_⟩
    rw [r_keepK, r_forN_decayLane _ hl]
    rfl
  case selftest =>
    have hen' : (s.tick t).enabled 16 = true := hen
    refine ⟨_, runK_on hon t _, ?_⟩
    rw [if_pos hen']
    exact ⟨rfl, rfl⟩
  case passed => exact ⟨_, exec_spareSelftestDone t true hon htesting, tested_passes (s.tick t) l⟩
  case failed => exact ⟨_, exec_spareSelftestDone t false hon htesting, failSpare_retires _ l⟩
  case window =>
    have hraw {g : Fld} (hpend : g.key 0 0 ≠ pendKey 16 0 16) (hbit : g.key 0 0 ≠ rawKey 16 0 16) (u : State) (b : Bool) :=
      r_setRaw u 16 0 16 b [] [] g 0 0 hpend hbit
    refine ⟨_, exec_conflictWindow t f hon, ?_, fun hpeak => ?_, fun hlow => ?_⟩
    · rw [r_keepK, hraw (by decide) (by decide), r_highRunCounted _ _ (by decide), r_fractionShown_win _ f.isLt]
    · rw [r_keepK, hraw (by decide) (by decide), r_highRunCounted _ _ (by decide), r_fractionShown_peak (s.tick t) f.isLt hpeak, r_tick]
    · rw [r_keepK, hraw (by decide) (by decide), highRunCounted_low _ hlow]
  case clear =>
    have hzero {f : Fld} (hf : f ∈ clearedCounters) := r_clearedCounters hf ((s.tick t).countWrite dsqPage)
    refine ⟨_, exec_dsqCtrClr t htakes, ?_⟩
    simp only [r_keepK]
    refine ⟨hzero ?_, hzero ?_, hzero ?_, hzero ?_, hzero ?_, hzero ?_, hzero ?_, ?period⟩
    case period => rw [r_clear_ne (by decide), r_countWrite _ _ _ _ _ (by decide), r_tick]
    all_goals decide

end Sys2Proof.LaneCareLaws
end

section
/-! What the handover's shared steps leave of the plan registers and of the handover record: values that are set, areas that are published, events (R153 to R158, R168, R169, R171). -/

namespace Sys2Proof.PlanFrameLaws

open Sys2Proof Sys2Proof.Machine Sys2Proof.Laws

@[simp] theorem putSol_regs (s : State) (base : Nat) (bs : List Nat) : (s.putSol base bs).regs = s.regs := rfl

@[simp] theorem putSol_ho (s : State) (base : Nat) (bs : List Nat) : (s.putSol base bs).ho = s.ho := rfl

/-! ### The registers that show the plan in force (R170) -/

/-- TRIP_STATE, HO_STAT and PLAN_SEQ_IN_FORCE. -/
def planFields : List Fld :=
  [DSQ.TRIP_STATE, DSQ.MODE, DSQ.SOURCE, DSQ.GRADE, DSQ.STAGE, DSQ.PARTIAL_COVER, DSQ.RED_RUN, DSQ.GOOD_RUN, DSQ.PLAN_BUF, DSQ.SAFE_CAUSE,
    DSQ.PLAN_SEQ_IN_FORCE]

/-- No field of an MPG page stands on the DSQ page. -/
theorem planKey_ne_mpg {f g : Fld} (hg : g ∈ planFields) (hf : f.code = 23) (i j : Nat) : g.key 0 0 ≠ f.key i j := by
  have hdsq : ∀ g ∈ planFields, g.key 0 0 < 17 * 32 * 4096 * 32 := by decide
  refine ((hdsq g hg).trans_le ?_).ne
  simp only [Fld.key, hf]
  omega

/-- `u` shows the plan registers of `s`. -/
def SamePlan (s u : State) : Prop := ∀ g ∈ planFields, u.r g = s.r g

namespace SamePlan

variable {s u v : State}

theorem refl (s : State) : SamePlan s s := fun _ _ => rfl

theorem trans (h : SamePlan s u) (k : SamePlan u v) : SamePlan s v := fun g hg => (k g hg).trans (h g hg)

theorem ite {c : Prop} [Decidable c] (h : SamePlan s u) (k : SamePlan s v) : SamePlan s (if c then u else v) := by
  split
  · exact h
  · exact k

theorem foldl {β : Type} {f : State → β → State} (h : SamePlan s u) (hf : ∀ v x, SamePlan v (f v x)) (xs : List β) : SamePlan s (xs.foldl f u) :=
  List.foldlRecOn xs f h fun v hv x _ => hv.trans (hf v x)

theorem w (h : SamePlan s u) {f : Fld} {x i j : Nat} (hf : ∀ g ∈ planFields, g.key 0 0 ≠ f.key i j) : SamePlan s (u.w f x i j) :=
  fun g hg => (r_w_ne _ _ _ _ _ _ _ _ (hf g hg)).trans (h g hg)

/-- A field of an MPG page. -/
theorem wMpg (h : SamePlan s u) {f : Fld} {x i j : Nat} (hf : f.code = 23) : SamePlan s (u.w f x i j) := h.w fun _ hg => planKey_ne_mpg hg hf i j

theorem raise (h : SamePlan s u) {c i b : Nat} {p q : List Nat} (hk : ∀ g ∈ planFields, g.key 0 0 ≠ pendKey c i b) : SamePlan s (u.raise c i b p q) :=
  fun g hg => (r_raise _ _ _ _ _ _ _ _ _ (hk g hg)).trans (h g hg)

theorem setRaw (h : SamePlan s u) {c i b : Nat} {x : Bool} {p q : List Nat} (hk : ∀ g ∈ planFields, g.key 0 0 ≠ pendKey c i b)
    (hr : ∀ g ∈ planFields, g.key 0 0 ≠ rawKey c i b) : SamePlan s (u.setRaw c i b x p q) :=
  fun g hg => (r_setRaw _ _ _ _ _ _ _ _ _ _ (hk g hg) (hr g hg)).trans (h g hg)

/-- A step that leaves the registers. -/
theorem of_regs (h : SamePlan s u) (hregs : v.regs = u.regs) : SamePlan s v :=
  fun g hg => (congrArg (fun m => (sget (BitVec.ofNat 32 g.rst) m (g.key 0 0)).toNat) hregs).trans (h g hg)

theorem putSol (h : SamePlan s u) (base : Nat) (bs : List Nat) : SamePlan s (u.putSol base bs) := h.of_regs (putSol_regs u base bs)

theorem setAxis (h : SamePlan s u) (a : Nat) (x : AxisX) : SamePlan s (u.setAxis a x) := h.of_regs (setAxis_regs u a x)

/-! ### Consumers of the plan values (R158, R306, R312, R325, R340) -/

theorem clampAxis (h : SamePlan s u) (a n : Nat) : SamePlan s (u.clampData ⟨23, a⟩ n) :=
  ite h ((((h.wMpg rfl).wMpg rfl).wMpg rfl).wMpg rfl)

theorem refuseTarget (h : SamePlan s u) (a : Nat) : SamePlan s (u.refuseTarget a) := by
  unfold State.refuseTarget
  extract_lets c x v
  have hcount : SamePlan s v := ((h.wMpg rfl).wMpg (f := MPG.REFUSED) rfl).setAxis _ _
  refine (hcount.wMpg rfl).raise fun g hg => ?_
  exact planKey_ne_mpg (f := hdr HDR.EVT_PEND ⟨23, a⟩) hg rfl a 0

theorem newTarget (h : SamePlan s u) (a : Nat) (p : Int) : SamePlan s (u.newTarget a p) := by
  unfold State.newTarget
  extract_lets old v x dir rem held turn
  have htaken : SamePlan s v := h.wMpg rfl
  exact ite htaken (ite (htaken.refuseTarget a) ((htaken.setAxis _ _).wMpg (f := MPG.AT_TARGET) rfl))

theorem axisValue (h : SamePlan s u) (a : Nat) (x : Int) : SamePlan s (u.axisValue a x) := (h.clampAxis a _).newTarget a _

theorem groupEvents (h : SamePlan s u) (g : Nat) : SamePlan s (u.groupEvents g) := by
  have hpend (b : Nat) (f : Fld) (hf : f ∈ planFields) : f.key 0 0 ≠ pendKey 23 24 b := by
    unfold pendKey
    split
    · exact planKey_ne_mpg (f := hdr HDR.EVT_PEND ⟨23, 24⟩) hf rfl _ _
    · exact (by decide : ∀ f ∈ planFields, f.key 0 0 ≠ DSQ.HO_EVT_PEND.key 24 0) f hf
  have hraw (b : Nat) (f : Fld) (hf : f ∈ planFields) : f.key 0 0 ≠ rawKey 23 24 b := by
    unfold rawKey
    split
    · exact planKey_ne_mpg (f := hdr HDR.EVT_RAW ⟨23, 24⟩) hf rfl _ _
    · exact (by decide : ∀ f ∈ planFields, f.key 0 0 ≠ DSQ.HO_EVT_RAW.key 24 0) f hf
  exact (h.setRaw (hpend _) (hraw _)).setRaw (hpend _) (hraw _)

theorem planMapCopy (h : SamePlan s u) (value : Nat → Int) : SamePlan s (u.planMapCopy value) := by
  unfold State.planMapCopy
  extract_lets v
  have hmap : SamePlan s v := h
  refine hmap.foldl (fun v p => ?_) _
  exact refl v

theorem keepPlanWords (h : SamePlan s u) : SamePlan s u.keepPlanWords := ite h h

/-- New plan values leave the registers that say which plan gives them. -/
theorem setValues (h : SamePlan s u) (x : Values) (bank : Nat) : SamePlan s (u.setValues x bank) := by
  unfold State.setValues
  extract_lets u1 fed rates u2 u3 u4 val u5 u6 u7 u8 u9
  have h2 : SamePlan s u2 := h.keepPlanWords
  have h3 : SamePlan s u3 := (h2.putSol _ _).putSol _ _
  have hmem : u4.regs = u3.regs := rfl
  have h4 : SamePlan s u4 := h3.of_regs hmem
  have h5 : SamePlan s u5 := h4.planMapCopy val
  have h6 : SamePlan s u6 := h5.foldl (fun v a => ite ((refl v).axisValue a _) (refl v)) _
  have h7 : SamePlan s u7 := h6.foldl (fun v g => (refl v).groupEvents g) _
  have h8 : SamePlan s u8 := by
    refine ite (w h7 ?_) (w (w (w (w (w h7 ?_) ?_) ?_) ?_) ?_)
    all_goals decide
  exact setRaw (ite h8 (h8.w (by decide))) (by decide) (by decide)

/-! ### The publication area (R154, R168, R169) -/

theorem copyPlan (h : SamePlan s u) (buf : Nat) (p : PlanX) (grade applyAt : Nat) : SamePlan s (u.copyPlan buf p grade applyAt) :=
  (h.putSol _ _).putSol _ _

theorem hoShow (h : SamePlan s u) : SamePlan s u.hoShow := by
  unfold State.hoShow
  extract_lets st endAt u1 u2
  have h1 : SamePlan s u1 := h.putSol _ _
  have h2 : SamePlan s u2 := (h1.of_regs (setDword_regs u1 _ _)).of_regs (setDword_regs _ _ _)
  exact h2.setRaw (by decide) (by decide)

end SamePlan

/-! ### The handover record -/

theorem ite_ho {c : Prop} [Decidable c] {s u v : State} (h : u.ho = s.ho) (k : v.ho = s.ho) : (if c then u else v).ho = s.ho := by
  split
  · exact h
  · exact k

theorem foldl_ho {β : Type} {f : State → β → State} (hf : ∀ u x, (f u x).ho = u.ho) (xs : List β) (s : State) : (xs.foldl f s).ho = s.ho :=
  List.foldlRecOn (motive := fun u : State => u.ho = s.ho) xs f rfl fun u hu x _ => (hf u x).trans hu

@[simp] theorem copyPlan_ho (s : State) (buf : Nat) (p : PlanX) (grade applyAt : Nat) : (s.copyPlan buf p grade applyAt).ho = s.ho := by
  rw [State.copyPlan, putSol_ho, putSol_ho]

@[simp] theorem hoShow_ho (s : State) : s.hoShow.ho = s.ho := by
  unfold State.hoShow
  extract_lets st endAt u v
  rw [setRaw_ho, setDword_ho, setDword_ho, putSol_ho]

@[simp] theorem clampData_ho (s : State) (pg : Page) (n : Nat) : (s.clampData pg n).ho = s.ho := by
  unfold State.clampData
  split
  · rfl
  · simp [State.hw, State.hinc]

@[simp] theorem refuseTarget_ho (s : State) (a : Nat) : (s.refuseTarget a).ho = s.ho := by
  simp [State.refuseTarget]

@[simp] theorem newTarget_ho (s : State) (a : Nat) (p : Int) : (s.newTarget a p).ho = s.ho := by
  unfold State.newTarget
  extract_lets old v x dir rem held turn
  have htaken : v.ho = s.ho := w_ho _ _ _ _ _
  split
  · exact htaken
  · split
    · rw [refuseTarget_ho, htaken]
    · rw [State.wb, w_ho, setAxis_ho, htaken]

@[simp] theorem axisValue_ho (s : State) (a : Nat) (x : Int) : (s.axisValue a x).ho = s.ho := by
  rw [State.axisValue, newTarget_ho, clampData_ho]

@[simp] theorem groupEvents_ho (s : State) (g : Nat) : (s.groupEvents g).ho = s.ho := by
  rw [State.groupEvents, setRaw_ho, setRaw_ho]

@[simp] theorem planMapCopy_ho (s : State) (value : Nat → Int) : (s.planMapCopy value).ho = s.ho := by
  unfold State.planMapCopy
  extract_lets u
  exact (foldl_ho (fun v p => by rfl) _ u).trans (setSxe_ho s _)

/-- New plan values replace values, rates and groups, and what is kept of the words before the instant; the rest of the record stays. -/
theorem setValues_ho (s : State) (x : Values) (bank : Nat) : ∃ rates fed planAt prevPlan,
    (s.setValues x bank).ho = { s.ho with values := x.vals, rates := rates, fed := fed, planAt := planAt, prevPlan := prevPlan } := by
  unfold State.setValues
  extract_lets u1 fed rates u2 u3 u4 val u5 u6 u7 u8 u9
  have hend : (u9.setRaw 16 0 40 (decide (0 < x.clamps))).ho = u2.ho := calc
    _ = u9.ho := setRaw_ho _ _ _ _ _ _ _
    _ = u8.ho := ite_ho rfl (w_ho _ _ _ _ _)
    _ = u7.ho := (clampData_ho _ _ _).trans (w_ho _ _ _ _ _)
    _ = u6.ho := foldl_ho groupEvents_ho _ _
    _ = u5.ho := foldl_ho (fun v a => ite_ho (axisValue_ho _ _ _) rfl) _ _
    _ = u4.ho := planMapCopy_ho _ _
    _ = u3.ho := rfl
    _ = u2.ho := (putSol_ho _ _ _).trans (putSol_ho _ _ _)
  rw [hend, setHo_ho]
  unfold u1 State.keepPlanWords
  split
  · exact ⟨_, _, _, _, rfl⟩
  · exact ⟨_, _, _, _, rfl⟩

@[simp] theorem setValues_inForce (s : State) (x : Values) (bank : Nat) : (s.setValues x bank).ho.inForce = s.ho.inForce := by
  obtain ⟨_, _, _, _, hho⟩ := setValues_ho s x bank
  rw [hho]

@[simp] theorem setValues_selected (s : State) (x : Values) (bank : Nat) : (s.setValues x bank).ho.selected = s.ho.selected := by
  obtain ⟨_, _, _, _, hho⟩ := setValues_ho s x bank
  rw [hho]

@[simp] theorem setValues_values (s : State) (x : Values) (bank : Nat) : (s.setValues x bank).ho.values = x.vals := by
  obtain ⟨_, _, _, _, hho⟩ := setValues_ho s x bank
  rw [hho]

end Sys2Proof.PlanFrameLaws
end

section
/-! Trips and the plan output table: TRIP_SET, TRIP_REQ, TRIP_STATE and HO_EVT_PEND, and the writes of a bank that is not in use (R155, R163, R170, R171). -/

namespace Sys2Proof.TripTableLaws

open Sys2Proof Sys2Proof.Machine Sys2Proof.Laws Sys2Proof.PlanFrameLaws

/-! ### Trips that are latched (R163, R164) -/

/-- Latching what is not latched yet latches the whole mask. -/
theorem latched_or_new (old mask : Word) : old ||| (mask &&& ~~~old) = old ||| mask := by
  ext i hi
  simp only [BitVec.getElem_or, BitVec.getElem_and, BitVec.getElem_not]
  cases old[i] <;> simp

theorem samePlan_selectCont (s : State) (at_ : Nat) : SamePlan s (s.selectCont at_) := by
  unfold State.selectCont
  split
  · exact .copyPlan (.of_regs (.refl s) (setHo_regs s _)) _ _ _ _
  · exact .raise (.of_regs (.refl s) (setHo_regs s _)) (by decide)

@[simp] theorem selectCont_reqPrev (s : State) (at_ : Nat) : (s.selectCont at_).ho.reqPrev = s.ho.reqPrev := by
  unfold State.selectCont
  split <;> simp

/-- TRIP_STATE takes the plants of the mask; the sample of TRIP_REQ stays as it is. -/
theorem latchTrips_latches (s : State) (mask : Word) :
    (s.latchTrips mask).r DSQ.TRIP_STATE = (BitVec.ofNat 32 (s.r DSQ.TRIP_STATE) ||| mask).toNat ∧
      (s.latchTrips mask).ho.reqPrev = s.ho.reqPrev := by
  unfold State.latchTrips
  extract_lets old new ps u v w
  have hor : old ||| mask = old ||| new := (latched_or_new old mask).symm
  rw [hor]
  split
  · next hnone =>
    have hold : (old ||| 0).toNat = s.r DSQ.TRIP_STATE := (congrArg BitVec.toNat BitVec.or_zero).trans (Nat.mod_eq_of_lt (r_lt _ _ _ _))
    rw [hnone, hold]
    exact ⟨rfl, rfl⟩
  · have hu : u.r DSQ.TRIP_STATE = (old ||| new).toNat :=
      (r_w_cut s DSQ.TRIP_STATE _ 0 0 (by decide)).trans (Nat.mod_eq_of_lt (old ||| new).isLt)
    have hv : SamePlan u v := .foldl (.refl u) (fun x i => .raise (.refl x) (by decide)) ps
    have hw : SamePlan u w := .ite hv (hv.trans (samePlan_selectCont v _))
    have hho : v.ho = u.ho := foldl_ho (fun x i => raise_ho _ _ _ _ _ _) ps u
    have hprev : w.ho.reqPrev = v.ho.reqPrev := by
      unfold w
      split
      · rfl
      · exact selectCont_reqPrev v _
    refine ⟨(hw.hoShow _ (by decide)).trans hu, ?_⟩
    rw [hoShow_ho, hprev, hho]
    rfl

/-- The trips that `v` names are cleared. -/
def clearTrips (s : State) (v : Word) : State :=
  ((s.w DSQ.TRIP_STATE (BitVec.ofNat 32 (s.r DSQ.TRIP_STATE) &&& ~~~v).toNat).setHo fun h =>
    { h with trips := h.trips.filter fun q => (BitVec.ofNat 32 (s.r DSQ.TRIP_STATE) &&& ~~~v).getLsbD q.1 }).hoShow

theorem clearTrips_clears (s : State) (v : Word) : (clearTrips s v).r DSQ.TRIP_STATE = (BitVec.ofNat 32 (s.r DSQ.TRIP_STATE) &&& ~~~v).toNat := by
  rw [clearTrips, SamePlan.hoShow (.refl _) DSQ.TRIP_STATE (by decide), r_setHo, r_w_cut _ _ _ _ _ (by decide)]
  exact Nat.mod_eq_of_lt (BitVec.isLt _)

theorem exec_tripStateClear {s : State} {r : Requester} (t : Nat) (v : Word) (h : Takes s r dsqPage) :
    exec (.tripStateClear t r v) s = .next (s.keepS (clearTrips ((s.tick t).countWrite dsqPage) v)) :=
  cmdS_takes h t _ _ _

theorem exec_tripReqSample {s : State} (t : Nat) (hon : s.islandOn .solve = true) (hdue : (s.tick t).onSeries 10 0 = true) :
    exec (.tripReqSample t) s = .next (s.keepS (((s.tick t).setHo fun h => { h with reqPrev := s.dwordSeen 0x2802 }).latchTrips
      (s.dwordSeen 0x2802 &&& ~~~s.ho.reqPrev))) := by
  refine (runS_on hon t _).trans ?_
  rw [hdue]
  rfl

/-! ### The plan output table (R155, R170) -/

/-- What a word of an entry that is not listed reads as. -/
def potDefault (w : Nat) : Word := if w = 0 then 0x00020000 else if w = 2 then 0x80000000 else if w = 3 then 0x7FFFFFFF else 0

/-- The table with word `w` of entry `j` of bank `b` written. -/
def putWord (b j : Nat) (m : List (Nat × Word)) (w x : Nat) : List (Nat × Word) := sset (potDefault w) m (4096 * b + 4 * j + w) (BitVec.ofNat 32 x)

/-- Word `w` of entry `j` of bank `b` in a table. -/
def getWord (b j : Nat) (m : List (Nat × Word)) (w : Nat) : Nat := (sget (potDefault w) m (4096 * b + 4 * j + w)).toNat

theorem potWord_eq (s : State) (b j w : Nat) : s.potWord b j w = getWord b j s.ho.pot w := rfl

theorem getWord_putWord_same (b j : Nat) (m : List (Nat × Word)) (w : Nat) {x : Nat} (hx : x < 2 ^ 32) : getWord b j (putWord b j m w x) w = x := by
  rw [getWord, putWord, sget_sset_same, BitVec.toNat_ofNat, Nat.mod_eq_of_lt hx]

theorem getWord_putWord_ne (b j : Nat) (m : List (Nat × Word)) {w k : Nat} (x : Nat) (h : k ≠ w) :
    getWord b j (putWord b j m w x) k = getWord b j m k := by
  rw [getWord, putWord, sget_sset_ne _ _ _ _ (by omega), getWord]

/-- The four words of an entry, written one after the other. -/
def putEntry (b j : Nat) (m : List (Nat × Word)) (w0 w1 w2 w3 : Nat) : List (Nat × Word) :=
  putWord b j (putWord b j (putWord b j (putWord b j m 0 w0) 1 w1) 2 w2) 3 w3

theorem getWord_putEntry (b j : Nat) (m : List (Nat × Word)) {w0 w1 w2 w3 : Nat} (h0 : w0 < 2 ^ 32) (h1 : w1 < 2 ^ 32) (h2 : w2 < 2 ^ 32)
    (h3 : w3 < 2 ^ 32) :
    getWord b j (putEntry b j m w0 w1 w2 w3) 0 = w0 ∧ getWord b j (putEntry b j m w0 w1 w2 w3) 1 = w1 ∧
      getWord b j (putEntry b j m w0 w1 w2 w3) 2 = w2 ∧ getWord b j (putEntry b j m w0 w1 w2 w3) 3 = w3 := by
  have hsame := fun m w x hx => getWord_putWord_same b j m w (x := x) hx
  refine ⟨?_, ?_, ?_, hsame _ 3 _ h3⟩
  · exact (((getWord_putWord_ne b j _ _ (by decide)).trans (getWord_putWord_ne b j _ _ (by decide))).trans
      (getWord_putWord_ne b j _ _ (by decide))).trans (hsame _ 0 _ h0)
  · exact ((getWord_putWord_ne b j _ _ (by decide)).trans (getWord_putWord_ne b j _ _ (by decide))).trans (hsame _ 1 _ h1)
  · exact (getWord_putWord_ne b j _ _ (by decide)).trans (hsame _ 2 _ h2)

/-- The bank of a set stands in the handover record. -/
theorem bankOf_congr {s u : State} (hho : u.ho = s.ho) (setId : Word) : u.bankOf setId = s.bankOf setId := by
  unfold State.bankOf State.potTag
  rw [hho]

/-- The handover record, ACTIVE_VALID, ACTIVE_SET_ID and MODE say whether a bank is in use. -/
theorem bankInUse_congr {s u : State} (hho : u.ho = s.ho) (hvalid : u.r DSQ.ACTIVE_VALID = s.r DSQ.ACTIVE_VALID)
    (hset : u.r DSQ.ACTIVE_SET_ID = s.r DSQ.ACTIVE_SET_ID) (hmode : u.r DSQ.MODE = s.r DSQ.MODE) (b : Nat) : u.bankInUse b = s.bankInUse b := by
  simp only [State.bankInUse, State.on, State.potTag, bankOf_congr hho, hho, hvalid, hset, hmode]

theorem bankInUse_counted (s : State) (t b : Nat) : ((s.tick t).countWrite dsqPage).bankInUse b = s.bankInUse b :=
  have hfield {g : Fld} (hg : g.key 0 0 ≠ (hdr HDR.COUNT dsqPage).key 0 0) : ((s.tick t).countWrite dsqPage).r g = s.r g :=
    r_countWrite _ _ _ _ _ hg
  have hho : ((s.tick t).countWrite dsqPage).ho = s.ho := rfl
  bankInUse_congr hho (hfield (by decide)) (hfield (by decide)) (hfield (by decide)) b

/-- A write of a bank that is not in use acts. -/
theorem potWrite_free {s : State} (hfree : s.bankInUse (s.r DSQ.BANK) = false) (f : Nat → State → State) : s.potWrite f = f (s.r DSQ.BANK) s := by
  simp [State.potWrite, hfree]

@[simp] theorem loadPot_ho (s : State) : s.loadPot.ho = s.ho := by
  simp only [State.loadPot, w_ho]

/-- The window shows the table and leaves the entry that it addresses. -/
theorem loadPot_index (s : State) : s.loadPot.r DSQ.INDEX = s.r DSQ.INDEX := by
  unfold State.loadPot
  simp (disch := decide) only [r_w_ne]

/-- A page that takes the write of a free bank lets the write act on the counted state. -/
theorem potWrite_counted {s : State} (t : Nat) (hfree : s.bankInUse (s.r DSQ.BANK) = false) (f : Nat → State → State) :
    ((s.tick t).countWrite dsqPage).potWrite f = f (s.r DSQ.BANK) ((s.tick t).countWrite dsqPage) := by
  have hbank : ((s.tick t).countWrite dsqPage).r DSQ.BANK = s.r DSQ.BANK := r_countWrite _ _ _ _ _ (by decide)
  rw [potWrite_free, hbank]
  rw [hbank, bankInUse_counted, hfree]

/-- HI of an entry: LO where the word written is below it. -/
def hiTaken (lo : Nat) (v : Word) : Nat := if sgn 32 v.toNat < sgn 32 lo then lo else v.toNat

theorem sgn_toNat (v : Word) : sgn 32 v.toNat = v.toInt := by
  have hv : v.toNat % 2 ^ 32 = v.toNat := Nat.mod_eq_of_lt v.isLt
  rw [sgn, hv, BitVec.toInt_eq_toNat_cond]
  split <;> split <;> omega

theorem hiTaken_eq {lo : Nat} (hlo : lo < 2 ^ 32) (v : Word) : hiTaken lo v = if v.toInt < (BitVec.ofNat 32 lo).toInt then lo else v.toNat := by
  rw [hiTaken, ← sgn_toNat, ← sgn_toNat, BitVec.toNat_ofNat, Nat.mod_eq_of_lt hlo]

theorem hiTaken_lt {lo : Nat} (hlo : lo < 2 ^ 32) (v : Word) : hiTaken lo v < 2 ^ 32 := by
  unfold hiTaken
  split
  · exact hlo
  · exact v.isLt

theorem clampWhen_ho (s : State) (b : Bool) (pg : Page) (off lsb : Nat) : (s.when b fun s => s.clampCount pg off lsb).ho = s.ho := by
  cases b
  · rfl
  · simp [State.when, State.clampCount, State.hw, State.hinc]

/-- A counted clamp leaves the fields of the block's own. -/
theorem r_clampHi (s : State) (low : Bool) {g : Fld} (hg : g ∈ [DSQ.INDEX, DSQ.POT_W0, DSQ.POT_W1]) :
    (s.when low fun s => s.clampCount dsqPage 0x230 0).r g = s.r g := by
  have hpage : ∀ g ∈ [DSQ.INDEX, DSQ.POT_W0, DSQ.POT_W1], ∀ f ∈ [HDR.CLAMPS, HDR.LAST_DATA, HDR.LAST_OFFSET, HDR.LAST_BIT],
      g.key 0 0 ≠ (hdr f dsqPage).key 0 0 := by decide
  cases low
  · rfl
  · have hhdr := hpage g hg
    refine (r_hw_ne _ _ _ _ _ _ _ (hhdr _ ?_)).trans ((r_hw_ne _ _ _ _ _ _ _ (hhdr _ ?_)).trans ((r_hw_ne _ _ _ _ _ _ _ (hhdr _ ?_)).trans
      (r_inc_ne _ _ _ _ _ _ _ _ (hhdr HDR.CLAMPS ?_))))
    all_goals decide

/-- A write of POT_W3 puts the window's words into the entry and addresses the next one. -/
theorem potCommit_free {s : State} (hfree : s.bankInUse (s.r DSQ.BANK) = false) (v : Word) :
    (s.potCommit v).ho.pot = putEntry (s.r DSQ.BANK) (s.r DSQ.INDEX) s.ho.pot (s.r DSQ.POT_W0) (s.r DSQ.POT_W1) (s.r DSQ.POT_W2)
      (hiTaken (s.r DSQ.POT_W2) v) ∧
    (s.potCommit v).r DSQ.INDEX = (s.r DSQ.INDEX + 1) % 1024 := by
  rw [State.potCommit, potWrite_free hfree]
  extract_lets lo low u hi j put w
  have hj : j = s.r DSQ.INDEX := r_clampHi s low (by decide)
  have h0 : u.r DSQ.POT_W0 = s.r DSQ.POT_W0 := r_clampHi s low (by decide)
  have h1 : u.r DSQ.POT_W1 = s.r DSQ.POT_W1 := r_clampHi s low (by decide)
  have hu : u.ho = s.ho := clampWhen_ho _ _ _ _ _
  have hhi : hi = hiTaken lo v := by simp [hi, low, hiTaken]
  constructor
  · have hw : w.ho.pot = putEntry (s.r DSQ.BANK) j u.ho.pot (u.r DSQ.POT_W0) (u.r DSQ.POT_W1) lo hi := rfl
    rw [loadPot_ho, w_ho, hw, hj, h0, h1, hu, hhi]
  · rw [loadPot_index, r_w_cut _ _ _ _ _ (by decide), hj]
    exact Nat.mod_eq_of_lt (Nat.mod_lt _ (by decide))

/-- The entry addressed holds the window's words, HI not below LO, and the next entry is addressed. -/
theorem potCommit_words {s : State} (hfree : s.bankInUse (s.r DSQ.BANK) = false) (v : Word) :
    (s.potCommit v).potWord (s.r DSQ.BANK) (s.r DSQ.INDEX) 0 = s.r DSQ.POT_W0 ∧
    (s.potCommit v).potWord (s.r DSQ.BANK) (s.r DSQ.INDEX) 1 = s.r DSQ.POT_W1 ∧
    (s.potCommit v).potWord (s.r DSQ.BANK) (s.r DSQ.INDEX) 2 = s.r DSQ.POT_W2 ∧
    (s.potCommit v).potWord (s.r DSQ.BANK) (s.r DSQ.INDEX) 3 =
      (if v.toInt < (BitVec.ofNat 32 (s.r DSQ.POT_W2)).toInt then s.r DSQ.POT_W2 else v.toNat) ∧
    (s.potCommit v).r DSQ.INDEX = (s.r DSQ.INDEX + 1) % 1024 := by
  have hlo : s.r DSQ.POT_W2 < 2 ^ 32 := r_lt _ _ _ _
  obtain ⟨hpot, hnext⟩ := potCommit_free hfree v
  obtain ⟨h0, h1, h2, h3⟩ := getWord_putEntry (s.r DSQ.BANK) (s.r DSQ.INDEX) s.ho.pot (r_lt s DSQ.POT_W0 0 0) (r_lt s DSQ.POT_W1 0 0) hlo
    (hiTaken_lt hlo v)
  rw [potWord_eq, potWord_eq, potWord_eq, potWord_eq, hpot, ← hiTaken_eq hlo]
  exact ⟨h0, h1, h2, h3, hnext⟩

/-- Settles O21: latched trips and cleared ones stand in TRIP_STATE, and each write of a free bank puts its word, tag or count there. -/
theorem tripsAndTable : Obligations.TripsAndTable := by
  intro t r v s
  have hfield {g : Fld} (hg : g.key 0 0 ≠ (hdr HDR.COUNT dsqPage).key 0 0) : ((s.tick t).countWrite dsqPage).r g = s.r g :=
    r_countWrite _ _ _ _ _ hg
  refine ⟨fun htakes => ⟨?latch, ?clear, ?events⟩, fun hon hdue => ?sample, fun htakes hfree _ => ⟨?entry, ?tag, ?count⟩⟩
  case latch =>
    obtain ⟨htrips, -⟩ := latchTrips_latches ((s.tick t).countWrite dsqPage) v
    refine ⟨_, cmdS_takes htakes t _ _ _, ?_, keepS_general _ _⟩
    rw [r_keepS, htrips, hfield (by decide)]
  case clear =>
    refine ⟨_, exec_tripStateClear t v htakes, ?_⟩
    beta_reduce
    rw [r_keepS, clearTrips_clears, hfield (by decide)]
  case events =>
    refine ⟨_, cmdK_takes htakes t _ _ _, ?_, ?_⟩
    · rw [r_keepK, r_w_cut _ _ _ _ _ (by decide), hfield (by decide)]
    · rw [r_keepK, r_w_ne _ _ _ _ _ _ _ _ (by decide), hfield (by decide)]
  case sample =>
    obtain ⟨htrips, hprev⟩ := latchTrips_latches ((s.tick t).setHo fun h => { h with reqPrev := s.dwordSeen 0x2802 })
      (s.dwordSeen 0x2802 &&& ~~~s.ho.reqPrev)
    refine ⟨_, exec_tripReqSample t hon hdue, ?_, ?_⟩
    · rw [keepS_ho, hprev, setHo_ho]
    · rw [r_keepS, htrips, r_setHo, r_tick]
  case entry =>
    have hfree' : ((s.tick t).countWrite dsqPage).bankInUse (((s.tick t).countWrite dsqPage).r DSQ.BANK) = false := by
      rw [hfield (by decide), bankInUse_counted, hfree]
    have hwords := potCommit_words hfree' v
    simp (disch := decide) only [hfield] at hwords
    exact ⟨_, cmdK_takes htakes t _ _ _, hwords⟩
  case tag =>
    refine ⟨_, cmdK_takes htakes t _ _ _, ?_⟩
    simp only [potWrite_counted t hfree, State.potTag, keepK_ho, loadPot_ho, setHo_ho]
    exact ⟨sget_sset_same _ _ _ _, rfl⟩
  case count =>
    refine ⟨_, cmdK_takes htakes t _ _ _, ?_⟩
    simp only [potWrite_counted t hfree, State.potCount, keepK_ho, loadPot_ho, setHo_ho]
    refine ⟨?_, congrArg HoX.pot (clampWhen_ho _ _ _ _ _)⟩
    rw [sget_sset_same, BitVec.toNat_ofNat]
    omega

end Sys2Proof.TripTableLaws
end

section
/-! The plan in force: apply instants, stage boundaries, contingencies, and the values prepared for the next plan instant (R151 to R154, R157, R165). -/

namespace Sys2Proof.PlanForceLaws

open Sys2Proof Sys2Proof.Machine Sys2Proof.Laws Sys2Proof.PlanFrameLaws

/-! ### A plan that comes into force (R153, R154, R165, R166) -/

/-- The state in which a plan is named in the handover record and in the plan registers, before its values are set. -/
def planNamed (s : State) (p : PlanX) (bank grade : Nat) (part : Bool) : State :=
  (((((((s.setHo fun h => { h with
      inForce := some { p with grade := grade, bank := bank }, lastAccepted := some p, lastBank := bank, applied := s.now,
      bufD := if p.src != 0 then h.bufD else s.r DSQ.PLAN_BUF, bufC := if p.src != 0 then s.r DSQ.PLAN_BUF else h.bufC,
      selected := none, selPlan := none }).w DSQ.MODE (if p.src != 0 then 3 else 1)).w DSQ.SOURCE p.src).w DSQ.GRADE grade).w DSQ.STAGE
    (planStage p s.now)).wb DSQ.PARTIAL_COVER part).w DSQ.PLAN_BUF (if p.src != 0 then s.ho.bufC else s.ho.bufD)).w DSQ.PLAN_SEQ_IN_FORCE p.seq.toNat

theorem enforce_eq (s : State) (p : PlanX) (bank grade : Nat) (part : Bool) : s.enforce p bank grade part =
    ((planNamed s p bank grade part).setValues ((planNamed s p bank grade part).takeValues p (planStage p s.now) bank) bank).hoShow := rfl

theorem samePlan_enforce (s : State) (p : PlanX) (bank grade : Nat) (part : Bool) :
    SamePlan (planNamed s p bank grade part) (s.enforce p bank grade part) := by
  rw [enforce_eq]
  exact ((SamePlan.refl _).setValues _ _).hoShow

theorem enforce_ho (s : State) (p : PlanX) (bank grade : Nat) (part : Bool) :
    (s.enforce p bank grade part).ho.inForce = some { p with grade := grade, bank := bank } ∧ (s.enforce p bank grade part).ho.selected = none := by
  rw [enforce_eq, hoShow_ho, setValues_inForce, setValues_selected]
  exact ⟨rfl, rfl⟩

theorem enforce_mode (s : State) (p : PlanX) (bank grade : Nat) (part : Bool) :
    (s.enforce p bank grade part).r DSQ.MODE = if p.src != 0 then 3 else 1 := by
  rw [samePlan_enforce s p bank grade part DSQ.MODE (by decide), planNamed]
  simp (disch := decide) only [r_w_ne, r_wb_ne, r_w_cut]
  split <;> rfl

theorem enforce_seq (s : State) (p : PlanX) (bank grade : Nat) (part : Bool) :
    (s.enforce p bank grade part).r DSQ.PLAN_SEQ_IN_FORCE = p.seq.toNat := by
  rw [samePlan_enforce s p bank grade part DSQ.PLAN_SEQ_IN_FORCE (by decide), planNamed, r_w_cut _ _ _ _ _ (by decide)]
  exact Nat.mod_eq_of_lt p.seq.isLt

/-- A plan leaves the trips and the run of periods without one. -/
theorem enforce_keeps (s : State) (p : PlanX) (bank grade : Nat) (part : Bool) :
    (s.enforce p bank grade part).r DSQ.TRIP_STATE = s.r DSQ.TRIP_STATE ∧ (s.enforce p bank grade part).r DSQ.RED_RUN = s.r DSQ.RED_RUN := by
  rw [samePlan_enforce s p bank grade part DSQ.TRIP_STATE (by decide), samePlan_enforce s p bank grade part DSQ.RED_RUN (by decide), planNamed]
  simp (disch := decide) only [r_w_ne, r_wb_ne, r_setHo, and_self]

/-- What a raised handover event leaves: the record, and the plan registers. -/
theorem samePlan_raise (s : State) {bit : Nat} (hbit : 32 ≤ bit) (pay extra : List Nat) : SamePlan s (s.raise 16 0 bit pay extra) := by
  refine .raise (.refl s) ?_
  rw [pendKey, if_neg (by omega)]
  decide

/-- A dispatch plan that is applied is in force in mode PLAN, and no trip is latched any more. -/
theorem applyDispatch_applies {s : State} {p : PlanX} (hsrc : p.src = 0) (bank : Nat) :
    (s.applyDispatch p bank).ho.inForce = some { p with bank := bank } ∧ (s.applyDispatch p bank).r DSQ.MODE = 1 ∧
    (s.applyDispatch p bank).r DSQ.RED_RUN = s.r DSQ.RED_RUN ∧ (s.applyDispatch p bank).r DSQ.TRIP_STATE = 0 ∧
    (s.applyDispatch p bank).r DSQ.PLAN_SEQ_IN_FORCE = p.seq.toNat := by
  unfold State.applyDispatch
  extract_lets u v
  have hraise : SamePlan v (v.raise 16 0 32 v.planPay) := samePlan_raise v (by decide) _ _
  obtain ⟨hin, -⟩ := enforce_ho u p bank p.grade false
  obtain ⟨htrips, hred⟩ := enforce_keeps u p bank p.grade false
  rw [raise_ho, hraise DSQ.MODE (by decide), hraise DSQ.RED_RUN (by decide), hraise DSQ.TRIP_STATE (by decide),
    hraise DSQ.PLAN_SEQ_IN_FORCE (by decide), hin, enforce_mode, hred, htrips, enforce_seq, hsrc]
  have hred' : u.r DSQ.RED_RUN = s.r DSQ.RED_RUN := r_w_ne s DSQ.TRIP_STATE DSQ.RED_RUN 0 0 0 0 0 (by decide)
  have htrips' : u.r DSQ.TRIP_STATE = 0 := r_w_cut s DSQ.TRIP_STATE 0 0 0 (by decide)
  exact ⟨rfl, rfl, hred', htrips', rfl⟩

/-! ### The apply instant (R151, R154, R160) -/

/-- The state in which the period's plan has been taken from the handover record to be decided on. -/
def planTaken (s : State) : State := s.setHo fun h => { h with published := none, stagedPlan := none, aband := false }

/-- What becomes of a plan that is in time: its grade is looked at, then the bank of its set (R150, R151). -/
def judged (s : State) (p : PlanX) (status grade : Nat) : State :=
  if s.gradeOk grade then (s.bankOf p.setId).elim (s.reject status grade 2) (s.accept p) else s.reject status grade 0

theorem applyInstant_inTime {s : State} {i status grade : Nat} {p : PlanX} (hpause : s.ho.pause = false) (hpaused : s.ho.paused = false)
    (hpub : s.ho.published = some (i, status, grade)) (hplan : s.ho.stagedPlan = some p) (hvalid : s.on DSQ.ACTIVE_VALID = true)
    (hin : i + 100000 ≤ s.now) : s.applyInstant = judged (planTaken s) p status grade := by
  have hvalid' : (planTaken s).on DSQ.ACTIVE_VALID = true := hvalid
  have hin' : ¬ (planTaken s).now < i + 100000 := Nat.not_lt.mpr hin
  have hrhythm : ¬ (s.ho.pause = true ∨ s.ho.paused = true) := by simp [hpause, hpaused]
  rw [State.applyInstant, if_neg hrhythm, hpub, hplan, ← planTaken]
  generalize planTaken s = u at *
  unfold judged
  cases hgrade : u.gradeOk grade with
  | false => simp [hvalid', hin', hgrade]
  | true => cases hbank : u.bankOf p.setId <;> simp [hvalid', hin', hgrade, hbank]

/-- An accepted period outside the safe schedule, with no trip to hold the plan back, applies the plan and ends the run of periods without one. -/
theorem accept_applies {s : State} {p : PlanX} (bank : Nat) (hmode : s.r DSQ.MODE ≠ 0) (hheld : s.heldBack p = false) (hsrc : p.src = 0) :
    (s.accept p bank).ho.inForce = some { p with bank := bank } ∧ (s.accept p bank).r DSQ.MODE = 1 ∧ (s.accept p bank).r DSQ.RED_RUN = 0 ∧
    (s.accept p bank).r DSQ.TRIP_STATE = 0 ∧ (s.accept p bank).r DSQ.PLAN_SEQ_IN_FORCE = p.seq.toNat := by
  unfold State.accept
  extract_lets u
  have hu : SamePlan (s.w DSQ.RED_RUN 0) u := (SamePlan.refl _).copyPlan _ _ _ _
  have hmode' : u.r DSQ.MODE ≠ 0 := by rwa [hu _ (by decide), r_w_ne _ _ _ _ _ _ _ _ (by decide)]
  have htrips : u.r DSQ.TRIP_STATE = s.r DSQ.TRIP_STATE := (hu _ (by decide)).trans (r_w_ne _ _ _ _ _ _ _ _ (by decide))
  have hred : u.r DSQ.RED_RUN = 0 := (hu _ (by decide)).trans (r_w_cut s DSQ.RED_RUN 0 0 0 (by decide))
  have hho : u.ho = s.ho := (copyPlan_ho _ _ _ _ _).trans (w_ho _ _ _ _ _)
  have hheld' : ¬ u.heldBack p = true := by rw [State.heldBack, htrips, hho, ← State.heldBack, hheld]; decide
  rw [if_neg hmode', if_neg hheld']
  obtain ⟨hin, hplan, hrun, htripped, hseq⟩ := applyDispatch_applies (s := u) hsrc bank
  exact ⟨hin, hplan, hrun.trans hred, htripped, hseq⟩

/-- The safe schedule goes on at an apply instant without a plan. -/
theorem samePlan_noPlan_safe {s : State} (hmode : s.r DSQ.MODE = 0) : SamePlan s s.noPlan := by
  rw [State.noPlan, if_pos hmode]
  exact ((SamePlan.refl s).setValues _ _).hoShow

/-- A period that is not accepted counts, and leaves the safe schedule running. -/
theorem reject_safe {s : State} (hmode : s.r DSQ.MODE = 0) (status grade reason : Nat) :
    (s.reject status grade reason).r DSQ.MODE = 0 ∧ (s.reject status grade reason).r DSQ.GOOD_RUN = 0 ∧
    (s.reject status grade reason).r DSQ.RED_RUN = min (s.r DSQ.RED_RUN + 1) (2 ^ DSQ.RED_RUN.width - 1) := by
  unfold State.reject
  extract_lets u lim
  have hu : SamePlan ((s.inc DSQ.RED_RUN).w DSQ.GOOD_RUN 0) u := samePlan_raise _ (by decide) _ _
  have hmode' : u.r DSQ.MODE = 0 := by
    rw [hu _ (by decide), r_w_ne _ _ _ _ _ _ _ _ (by decide), r_inc_ne _ _ _ _ _ _ _ _ (by decide), hmode]
  have hend := samePlan_noPlan_safe hmode'
  rw [if_neg (fun h => h.1 hmode'), hend _ (by decide), hend _ (by decide), hend _ (by decide), hmode', hu _ (by decide), hu _ (by decide),
    r_w_cut _ _ _ _ _ (by decide), r_w_ne _ _ _ _ _ _ _ _ (by decide), r_inc_same _ _ _ _ _ (by decide)]
  exact ⟨rfl, rfl, rfl⟩

theorem exec_applyInstant {s : State} (t : Nat) (hfollows : s.follows = false) (hon : s.islandOn .solve = true)
    (happly : (s.tick t).isApply = true) : exec (.applyInstant t) s = .next (s.keepS (s.tick t).applyInstant) := by
  have hfollows' : (s.tick t).follows = false := hfollows
  have hdecides : ¬ ((s.tick t).follows || !(s.tick t).isApply) = true := by rw [hfollows', happly]; decide
  refine (runS_on hon t _).trans ?_
  rw [if_neg hdecides]

/-! ### Stage boundaries (R153, R159, R167) -/

/-- The values of a plan do not depend on the registers. -/
theorem takeValues_w (s : State) (f : Fld) (v i j : Nat) (p : PlanX) (st bank : Nat) : (s.w f v i j).takeValues p st bank = s.takeValues p st bank := rfl

/-- The plan in force goes on with the stage that has come, where its tail is not exhausted and its set has a bank. -/
theorem goOn_stage {s : State} {p : PlanX} {bank : Nat} (hin : s.ho.inForce = some p) (hdone : planDone p s.now = false)
    (hbank : s.bankOf p.setId = some bank) :
    s.goOn false = ((s.w DSQ.STAGE (planStage p s.now)).setValues (s.takeValues p (planStage p s.now) bank) bank).hoShow := by
  simp [State.goOn, hin, hdone, hbank, State.when, takeValues_w]

theorem goOn_shows {s : State} {p : PlanX} {bank : Nat} (hin : s.ho.inForce = some p) (hdone : planDone p s.now = false)
    (hbank : s.bankOf p.setId = some bank) :
    (s.goOn false).r DSQ.STAGE = planStage p s.now % 2 ^ DSQ.STAGE.width ∧ (s.goOn false).ho.inForce = some p ∧
    (s.goOn false).r DSQ.MODE = s.r DSQ.MODE ∧ (s.goOn false).ho.values = (s.takeValues p (planStage p s.now) bank).vals := by
  have hend : SamePlan (s.w DSQ.STAGE (planStage p s.now)) (s.goOn false) := by
    rw [goOn_stage hin hdone hbank]
    exact ((SamePlan.refl _).setValues _ _).hoShow
  rw [hend _ (by decide), hend _ (by decide), r_w_cut _ _ _ _ _ (by decide), r_w_ne _ _ _ _ _ _ _ _ (by decide), goOn_stage hin hdone hbank,
    hoShow_ho, setValues_inForce, setValues_values, w_ho, hin]
  exact ⟨rfl, rfl, rfl, rfl⟩

theorem stageInstant_goOn {s : State} (hcont : s.contIsDue = false) : s.stageInstant = s.goOn false := by
  simp [State.stageInstant, hcont]

theorem exec_stageBoundary {s : State} (t : Nat) (hfollows : s.follows = false) (hon : s.islandOn .solve = true) (hmode : s.r DSQ.MODE ≠ 0)
    (happly : (s.tick t).isApply = false) (hover : (s.tick t).stageOver = true) :
    exec (.stageBoundary t) s = .next (s.keepS (s.tick t).stageInstant) := by
  have hfollows' : (s.tick t).follows = false := hfollows
  refine (runS_on hon t _).trans ?_
  rw [if_neg]
  simp [hfollows', hmode, happly, hover]

/-! ### Contingencies (R164, R165) -/

/-- A selected contingency that is still usable is applied. -/
theorem contDue_applies {s : State} {i d bank : Nat} {part : Bool} {p : PlanX} (hsel : s.ho.selected = some (i, d, part))
    (hplan : s.ho.selPlan = some p) (husable : s.usable s.now p = true) (hbank : s.bankOf p.setId = some bank) (hsrc : p.src ≠ 0) :
    s.contDue.r DSQ.MODE = 3 ∧ s.contDue.ho.inForce = some { p with grade := contGrade p part, bank := bank } ∧ s.contDue.ho.selected = none := by
  have hcont : s.contDue = (s.enforce p bank (contGrade p part) part).raise 16 0 38 (s.enforce p bank (contGrade p part) part).planPay
      [p.src - 1, part.toNat] := by
    simp [State.contDue, hsel, hplan, husable, State.applyCont, hbank]
  obtain ⟨hin, hnone⟩ := enforce_ho s p bank (contGrade p part) part
  rw [hcont, samePlan_raise _ (by decide) _ _ DSQ.MODE (by decide), enforce_mode, raise_ho, hin, hnone, if_pos (bne_iff_ne.mpr hsrc)]
  exact ⟨rfl, rfl, rfl⟩

theorem exec_contApplied {s : State} {i d : Nat} {part : Bool} (t : Nat) (hfollows : s.follows = false) (hon : s.islandOn .solve = true)
    (hsel : s.ho.selected = some (i, d, part)) (hle : d ≤ (s.tick t).now) (hmode : s.r DSQ.MODE ≠ 0) (happly : (s.tick t).isApply = false) :
    exec (.contApplied t) s = .next (s.keepS (s.tick t).contDue) := by
  have hfollows' : (s.tick t).follows = false := hfollows
  have hdue : (s.tick t).contIsDue = true := by simp [State.contIsDue, hsel, hmode, hle]
  refine (runS_on hon t _).trans ?_
  rw [if_neg]
  simp [hfollows', happly, hdue]

/-! ### Values that are prepared (R157) -/

theorem exec_stagePrepare_none {s : State} (t : Nat) (hon : s.islandOn .solve = true) (hnext : (s.tick t).nextInstant = none) :
    exec (.stagePrepare t) s = .next (s.keepS (s.tick t)) := by
  refine (runS_on hon t _).trans ?_
  rw [hnext]

/-- What the values of the next plan instant are staged for. -/
def stagedKey (u : State) : Option StageKey := if u.r DSQ.MODE = 0 then none else u.ho.inForce.map fun p => u.stageKey p (u.r DSQ.STAGE) p.bank

/-- The values and rates of `u` are staged. -/
def stageFrom (s u : State) : State :=
  ((s.setHo fun h => { h with
      staged := u.ho.values, ratesStaged := u.ho.rates, stagedFor := stagedKey u, stagedClamps := (u.r DSQ.VALUE_CLAMPS, u.r DSQ.LAST_VALUE) }).putSol
    (pubBase + 0x2000) (valueBytes u.ho.values)).putSol (pubBase + 0x3020) (wordBytes u.ho.rates)

/-- What is staged leaves the values in force and the registers. -/
theorem stageFrom_stages (s u : State) :
    (stageFrom s u).ho.staged = u.ho.values ∧ (stageFrom s u).ho.ratesStaged = u.ho.rates ∧ (stageFrom s u).ho.values = s.ho.values ∧
    (stageFrom s u).regs = s.regs := by
  rw [stageFrom, putSol_ho, putSol_ho, putSol_regs, putSol_regs, setHo_ho, setHo_regs]
  exact ⟨rfl, rfl, rfl, rfl⟩

theorem exec_stagePrepare_some {s : State} {edge : Nat} (t : Nat) (hon : s.islandOn .solve = true) (hnext : (s.tick t).nextInstant = some edge) :
    exec (.stagePrepare t) s = .next (s.keepS (stageFrom (s.tick t) ((s.tick t).foresee edge))) := by
  refine (runS_on hon t _).trans ?_
  rw [hnext]
  rfl

section

variable {s : State} {p : PlanX} {edge : Nat} (hoff : s.enabled 16 = false) (hsel : s.ho.selected = none) (hin : s.ho.inForce = some p)

include hoff hsel hin

/-- With no period running and no contingency selected, the next plan instant is the end of the stage in force. -/
theorem nextInstant_stageEnd (hmode : s.r DSQ.MODE ≠ 0) (hedge : edge = planEnd p (planStage p s.now)) (hlt : s.now < edge) :
    s.nextInstant = some edge := by
  simp [State.nextInstant, hoff, hsel, hin, hmode, ← hedge, hlt]

/-- The values that are then to come are those of the stage that begins there. -/
theorem foresee_stageEnd {bank : Nat} (hlt : s.now < edge) (hdone : planDone p edge = false) (hnew : planStage p edge ≠ s.r DSQ.STAGE)
    (hbank : s.bankOf p.setId = some bank) : (s.foresee edge).ho.values = (s.planValues p (planStage p edge) bank).vals := by
  unfold State.foresee
  extract_lets u
  have hnow : u.now = edge := by
    change s.now + (edge - s.now) = edge
    omega
  have hoff' : u.enabled 16 = false := hoff
  have hin' : u.ho.inForce = some p := hin
  have hstage : u.r DSQ.STAGE = s.r DSQ.STAGE := rfl
  have hover : u.stageOver = true := by simp [State.stageOver, hin', hnow, hdone, hstage, hnew]
  have hcont : u.contIsDue = false := by
    have hsel' : u.ho.selected = none := hsel
    simp [State.contIsDue, hsel']
  have hdone' : planDone p u.now = false := by rw [hnow, hdone]
  have hfresh : u.takeValues p (planStage p edge) bank = s.planValues p (planStage p edge) bank := if_neg nofun
  obtain ⟨-, -, -, hvalues⟩ := goOn_shows hin' hdone' hbank
  rw [if_neg (by simp [hoff']), if_pos hover, stageInstant_goOn hcont, hvalues, hnow, hfresh]

end

/-! ### The statement -/

/-- Settles O22: at its instant each command applies, goes on with or prepares what the plan in force and the plan to come say. -/
theorem planInForce : Obligations.PlanInForce := by
  intro t s hfollows hon
  refine ⟨?apply, ?boundary, ?contingency, ?prepare, ?stageEnd, ?nothing⟩
  case apply =>
    intro i st g p bank happly hpause hpaused hpub hplan hvalid hle
    have hruns := exec_applyInstant t hfollows hon happly
    rw [applyInstant_inTime (s := s.tick t) hpause hpaused hpub hplan hvalid hle, judged] at hruns
    refine ⟨fun hgrade hbank hmode hheld hsrc => ?accepted, fun hgrade hmode => ?rejected⟩
    case accepted =>
      have hgrade' : (planTaken (s.tick t)).gradeOk g = true := hgrade
      have hbank' : (planTaken (s.tick t)).bankOf p.setId = some bank := hbank
      rw [if_pos hgrade', hbank', Option.elim_some] at hruns
      refine ⟨_, hruns, ?_⟩
      simp only [r_keepS, keepS_ho]
      exact accept_applies (s := planTaken (s.tick t)) bank hmode hheld hsrc
    case rejected =>
      have hgrade' : ¬ (planTaken (s.tick t)).gradeOk g = true := Bool.eq_false_iff.mp hgrade
      have hmode' : (planTaken (s.tick t)).r DSQ.MODE = 0 := hmode
      rw [if_neg hgrade'] at hruns
      refine ⟨_, hruns, ?_⟩
      simp only [r_keepS]
      exact reject_safe hmode' st g 0
  case boundary =>
    intro p bank hmode happly hcont hover hin hdone hbank
    refine ⟨_, exec_stageBoundary t hfollows hon hmode happly hover, ?_⟩
    simp only [r_keepS, keepS_ho, stageInstant_goOn hcont]
    exact goOn_shows (s := s.tick t) hin hdone hbank
  case contingency =>
    intro i d part p bank hsel hplan hle hmode happly husable hbank hsrc
    refine ⟨_, exec_contApplied t hfollows hon hsel hle hmode happly, ?_⟩
    simp only [r_keepS, keepS_ho]
    exact contDue_applies (s := s.tick t) hsel hplan husable hbank hsrc
  case prepare =>
    intro edge hnext
    refine ⟨_, exec_stagePrepare_some t hon hnext, ?_⟩
    simp only [keepS_ho, keepS_regs]
    exact stageFrom_stages (s.tick t) _
  case stageEnd =>
    intro p bank edge hoff hsel hin hmode hedge hlt hdone hnew hbank
    have hnext := nextInstant_stageEnd (s := s.tick t) hoff hsel hin hmode hedge hlt
    obtain ⟨hstaged, -⟩ := stageFrom_stages (s.tick t) ((s.tick t).foresee edge)
    have hvalues := foresee_stageEnd (s := s.tick t) hoff hsel hin hlt hdone hnew hbank
    refine ⟨_, exec_stagePrepare_some t hon hnext, ?_⟩
    beta_reduce
    rw [keepS_ho, hstaged, hvalues]
    rfl
  case nothing =>
    intro hnext
    refine ⟨_, exec_stagePrepare_none t hon hnext, ?_⟩
    beta_reduce
    rw [keepS_ho, keepS_regs]
    exact ⟨rfl, rfl⟩

end Sys2Proof.PlanForceLaws
end

section
/-! The frame of the records and memories of the blocks: one lemma per operation of the model says which of them it may write, one per command collects them, and what a command does not write it leaves as it was (R203, R247, R258, R284, R297, chapters 15 and 16). -/

namespace Sys2Proof.RecordFrame

open Sys2Proof Sys2Proof.Machine Sys2Proof.Laws

-- Hundreds of short proofs elaborated at a time each take a thread: one after another they need less memory and no more time.
set_option Elab.async false

/-! ### The parts of the state and what it is to keep them -/

/-- A memory or a table of records that belongs to one block. -/
inductive Part where
  | loopMem | rcMem | progMem | retMem | inImg | outImg | clusters | loops | sd | pulse | pwm | groups
  | can | ser | esw | stations | queues | forces | aonRegs
  deriving DecidableEq

/-- Two states agree in a part. -/
def Part.Same (s u : State) : Part → Prop
  | .loopMem => u.loopMem = s.loopMem
  | .rcMem => u.rcMem = s.rcMem
  | .progMem => u.progMem = s.progMem
  | .retMem => u.retMem = s.retMem
  | .inImg => u.inImg = s.inImg
  | .outImg => u.outImg = s.outImg
  | .clusters => u.clusters = s.clusters
  | .loops => u.loops = s.loops
  | .sd => u.sd = s.sd
  | .pulse => u.pulse = s.pulse
  | .pwm => u.pwm = s.pwm
  | .groups => u.groups = s.groups
  | .can => u.can = s.can
  | .ser => u.ser = s.ser
  | .esw => u.esw = s.esw
  | .stations => u.stations = s.stations
  | .queues => u.queues = s.queues
  | .forces => u.forces = s.forces
  | .aonRegs => u.aonRegs = s.aonRegs

/-- `u` differs from `s` in the parts of `W` at most. -/
def Keeps (W : List Part) (s u : State) : Prop := ∀ p, p ∉ W → p.Same s u

/-- Where a command is carried out, its next state differs from `s` in the parts of `W` at most. -/
def Answers (W : List Part) (s : State) (o : Host.Outcome State Fault Refusal) : Prop := ∀ u, o = .next u → Keeps W s u

namespace Answers

variable {W : List Part} {s u : State} {o o' : Host.Outcome State Fault Refusal}

theorem next (h : Keeps W s u) : Answers W s (.next u) := fun _ e => Host.Outcome.next.inj e ▸ h

theorem refused {x : Refusal} : Answers W s (.refused x) := fun _ e => nomatch e

theorem ite {c : Prop} {_ : Decidable c} (h : Answers W s o) (k : Answers W s o') : Answers W s (if c then o else o') := by
  split
  · exact h
  · exact k

end Answers

namespace Keeps

variable {W : List Part} {s u v v' : State}

theorem refl (s : State) : Keeps W s s := fun p _ => by cases p <;> exact rfl

theorem trans (h : Keeps W s u) (k : Keeps W u v) : Keeps W s v := fun p hp => by
  have hu := h p hp
  have hv := k p hp
  cases p <;> exact hv.trans hu

/-- A step to a state whose parts are the same by definition. -/
theorem same (h : Keeps W s u) (e : ∀ p, Part.Same u v p :=
  by rintro ⟨⟩ <;> exact rfl) : Keeps W s v := h.trans fun p _ => e p

/-- A step to a state that differs by definition in one part that may be written. -/
theorem put (h : Keeps W s u) {q : Part} (hq : q ∈ W)
    (e : ∀ p, p ≠ q → p.Same u v := by rintro ⟨⟩ h <;> first | exact rfl | exact absurd rfl h) : Keeps W s v :=
  h.trans fun p hp => e p fun hpq => hp (hpq ▸ hq)

theorem ite {c : Prop} {_ : Decidable c} (h : Keeps W s v) (k : Keeps W s v') : Keeps W s (if c then v else v') := by
  split
  · exact h
  · exact k

theorem iteFst {α : Type} {c : Prop} {_ : Decidable c} {x y : State × α} (h : Keeps W s x.1) (k : Keeps W s y.1) :
    Keeps W s (if c then x else y).1 := by
  split
  · exact h
  · exact k

theorem foldl {α : Type} {f : State → α → State} {xs : List α} (h : Keeps W s u)
    (k : ∀ {v x}, Keeps W s v → Keeps W s (f v x)) :
    Keeps W s (xs.foldl f u) := List.foldlRecOn _ _ h fun _ hv _ _ => k hv

theorem forN {n : Nat} {f : State → Nat → State} (h : Keeps W s u) (k : ∀ {v x}, Keeps W s v → Keeps W s (f v x)) :
    Keeps W s (u.forN n f) := h.foldl k

/-! ### What each operation of the model may write

Each lemma follows the body of the operation it is named after, and takes the parts the operation writes as hypotheses. -/

section
variable (h : Keeps W s u)
include h

/-! ### Registers, time, counters, events and page access -/

theorem w {f x inst i} : Keeps W s (u.w f x inst i) := h.same
theorem wi {f x inst i} : Keeps W s (u.wi f x inst i) := h.w
theorem wb {f b inst i} : Keeps W s (u.wb f b inst i) := h.w
theorem inc {f inst i by_} : Keeps W s (u.inc f inst i by_) := h.w
theorem rstF {f inst} : Keeps W s (u.rstF f inst) := h.same
theorem hw {f pg x} : Keeps W s (u.hw f pg x) := h.w
theorem hinc {f pg by_} : Keeps W s (u.hinc f pg by_) := h.inc
theorem setPx {pg x} : Keeps W s (u.setPx pg x) := h.same
theorem tick {t} : Keeps W s (u.tick t) := h.same
theorem reply {r x} : Keeps W s (u.reply r x) := h.same
theorem fresh : Keeps W s u.fresh := h.same
theorem setEvtRaw {code inst bit b} : Keeps W s (u.setEvtRaw code inst bit b) := h.hw.ite h.w
theorem setPort {p x} : Keeps W s (u.setPort p x) := h.same
theorem offerRec {m} : Keeps W s (u.offerRec m) := h.same
theorem offerEic {src} : Keeps W s (u.offerEic src) := h.same
theorem raise {c i b p q} : Keeps W s (u.raise c i b p q) := by
  obtain ⟨_, _, _, _, hraise, -⟩ := raise_inv u c i b p q
  rw [hraise]
  exact h.same
theorem setRaw {code inst bit b pay extra} : Keeps W s (u.setRaw code inst bit b pay extra) :=
  h.setEvtRaw.raise.ite h.setEvtRaw
theorem recur {code inst bit pay extra} : Keeps W s (u.recur code inst bit pay extra) := h.setEvtRaw.setRaw
theorem clampCount {pg off lsb} : Keeps W s (u.clampCount pg off lsb) := h.hinc.hw.hw.hw
theorem clampData {pg n} : Keeps W s (u.clampData pg n) := h.ite h.hinc.hw.hw.hw
theorem gated {pageA} : Keeps W s (u.gated pageA) := h.inc.w.raise
theorem unmapped {addr} : Keeps W s (u.unmapped addr) := h.inc.raise
theorem disarm {r pg} : Keeps W s (u.disarm r pg) := h.setPx
theorem breakKeys {pg} : Keeps W s (u.breakKeys pg) := h.setPx.hinc.ite h
theorem countWrite {pg} : Keeps W s (u.countWrite pg) := h.hw
theorem pageWrite {r pg block f keys} (k : ∀ {v}, Keeps W s v → Keeps W s (f v)) :
    Keeps W s (u.pageWrite r pg block f keys) :=
  h.unmapped.ite (
    h.gated.ite (
      h.breakKeys.hinc.ite (
        have h1 := h.disarm.ite h; h1.breakKeys.hinc.ite (h1.breakKeys.hinc.ite (k (h1.ite h1.breakKeys).countWrite)))))
theorem pageRead {r pg f} (k : ∀ {v}, Keeps W s v → Keeps W s (f v)) : Keeps W s (u.pageRead r pg f) :=
  h.unmapped.reply.ite (h.gated.reply.ite (k h))
theorem lockViol {pg differs} : Keeps W s (u.lockViol pg differs) := h.hinc.ite h
theorem closeLock {pg} : Keeps W s (u.closeLock pg) := h.hw.setPx
theorem setOwner {pg o} : Keeps W s (u.setOwner pg o) := h.ite h.hw.closeLock.setPx.hw.hw.raise
/-- Every command ends in the effect it has on the state at its instant, with the queue and the byte memories it may not write put back. -/
theorem cmd {t f} (k : ∀ {v}, Keeps W s v → Keeps W s (f v)) : Answers W s (u.cmd t f) := .next (k h.tick).same
theorem cmdM {t f} (k : ∀ {v}, Keeps W s v → Keeps W s (f v)) : Answers W s (u.cmdM t f) := .next (k h.tick).same
theorem cmdK {t f} (k : ∀ {v}, Keeps W s v → Keeps W s (f v)) : Answers W s (u.cmdK t f) := .next (k h.tick).same
theorem cmdS {t f} (k : ∀ {v}, Keeps W s v → Keeps W s (f v)) : Answers W s (u.cmdS t f) := .next (k h.tick).same
theorem inside {i f} (k : ∀ {v}, Keeps W s v → Keeps W s (f v)) : Keeps W s (u.inside i f) := (k h).ite h
theorem runK {i t f} (k : ∀ {v}, Keeps W s v → Keeps W s (f v)) : Answers W s (u.runK i t f) := h.cmdK (·.inside k)
theorem runS {i t f} (k : ∀ {v}, Keeps W s v → Keeps W s (f v)) : Answers W s (u.runS i t f) := h.cmdS (·.inside k)
theorem runM {i t f} (k : ∀ {v}, Keeps W s v → Keeps W s (f v)) : Answers W s (u.runM i t f) := h.cmdM (·.inside k)
theorem when {b f} (k : ∀ {v}, Keeps W s v → Keeps W s (f v)) : Keeps W s (u.when b f) := (k h).ite h

/-! ### The Ethernet ports and the switch -/

theorem setEsw (hes : .esw ∈ W) {f} : Keeps W s (u.setEsw f) := h.put hes
theorem fdbSync : Keeps W s u.fdbSync := (h.w.w.w.ite h.w.w).setRaw
theorem setFdb (hes : .esw ∈ W) {tab} : Keeps W s (u.setFdb tab) := (h.setEsw hes).fdbSync
theorem learnInsert (hes : .esw ∈ W) : Keeps W s u.learnInsert := by
  unfold State.learnInsert
  split
  · exact h
  · extract_lets v
    have hv : Keeps W s v := h.setEsw hes
    split
    · exact hv
    · refine hv.inc.ite ?_
      split
      · exact .setFdb hv.same hes
      · exact .fdbSync (.w (.inc hv.same))
theorem execLearnInsert (hes : .esw ∈ W) {t} : Answers W s (execLearnInsert t u) := h.runK (·.learnInsert hes)
theorem execEntryAgeOut (hes : .esw ∈ W) {t mac fid} : Answers W s (execEntryAgeOut t mac fid u) :=
  h.runK (fun h1 => by split; exacts [(h1.setFdb hes).ite h1, h1])
theorem eResult {cause e} : Keeps W s (u.eResult cause e) := h.w.wb.wb.w
theorem execFdbAdd (hes : .esw ∈ W) {t r} : Answers W s (execFdbAdd t r u) :=
  h.cmdK (·.pageWrite fun h1 => h1.eResult.ite (by
    split
    · exact (h1.same.setFdb hes).eResult
    · split
      · exact (h1.same.setFdb hes).eResult
      · exact h1.same.eResult))
theorem execFdbDelete (hes : .esw ∈ W) {t r} : Answers W s (execFdbDelete t r u) :=
  h.cmdK (·.pageWrite fun h1 => by
    dsimp only
    split
    · exact (h1.setFdb hes).eResult.ite h1.eResult
    · exact h1.eResult)
theorem execFdbLookup {t r} : Answers W s (execFdbLookup t r u) := h.cmdK (·.pageWrite (·.eResult))
theorem startTx (hes : .esw ∈ W) {port} : Keeps W s (u.startTx port) := .ite (by split; exacts [h.setEsw hes, h]) h
theorem endTx (hes : .esw ∈ W) {port q} : Keeps W s (u.endTx port q) := h.setEsw hes
theorem enqueue (hes : .esw ∈ W) {port cls f} : Keeps W s (u.enqueue port cls f) :=
  ((h.setEsw hes).startTx hes).ite (h.inc.ite h)
theorem execEgressTx (hes : .esw ∈ W) {t port} : Answers W s (execEgressTx t port u) :=
  h.runK fun h1 => by
    dsimp only
    split
    · exact h1.startTx hes
    · exact (h1.startTx hes).ite (have h2 := (h1.startTx hes).endTx hes; (h2.inc.ite h2).startTx hes)
theorem execEthLinkChange (hes : .esw ∈ W) {t port up speed} : Answers W s (execEthLinkChange t port up speed u) :=
  h.runK fun h1 => h1.ite (by
    dsimp only
    split
    · exact (h1.endTx hes).inc.wb.w.raise.startTx hes
    · exact h1.wb.w.raise.startTx hes)
theorem learn (hes : .esw ∈ W) {port mac fid} : Keeps W s (u.learn port mac fid) :=
  h.ite (by split; exacts [h.ite (have h1 := h.setEsw hes; h1.inc.ite h1), h.inc.ite ((h.setEsw hes).ite h)])
theorem refill (hes : .esw ∈ W) {port} : Keeps W s (u.refill port) := h.setEsw hes
theorem execFloodRefill (hes : .esw ∈ W) {t port} : Answers W s (execFloodRefill t port u) := h.runK (·.refill hes)
theorem forward (hes : .esw ∈ W) {port pcp fid ports f} : Keeps W s (u.forward port pcp fid ports f) :=
  h.forN (fun h1 => (h1.enqueue hes).ite h1)
theorem flood (hes : .esw ∈ W) {port pcp fid ports f} : Keeps W s (u.flood port pcp fid ports f) :=
  have h1 := h.refill hes; ((h1.setEsw hes).forward hes).ite h1.inc.raise
theorem noteNode (hes : .esw ∈ W) {pair src} : Keeps W s (u.noteNode pair src).1 := (h.setEsw hes).iteFst h
theorem redundancy (hes : .esw ∈ W) {port f} : Keeps W s (u.redundancy port f).1 := by
  unfold State.redundancy
  extract_lets pair onB
  split
  · exact h
  · refine h.iteFst ?_
    extract_lets v
    have hv : Keeps W s v := h.inc.raise.ite h
    have hx := hv.noteNode hes (pair := pair) (src := f.src)
    split
    next x held hnote =>
    rw [hnote] at hx
    refine (show Keeps W s x from hx).iteFst ?_
    extract_lets isIt
    split
    · exact (hx.setEsw hes).inc
    · exact hx.setEsw hes
theorem switchFrame (hes : .esw ∈ W) {port f} : Keeps W s (u.switchFrame port f) :=
  h.ite (
    h.ite (have h1 := (h.enqueue hes).ite h; h1.ite (have h2 := h1.learn hes; (h2.flood hes).ite (h2.forward hes))))
theorem execEthFrameRx (hes : .esw ∈ W) {t port f} : Answers W s (execEthFrameRx t port f u) :=
  h.runK (fun h1 =>
    h1.ite (
      have h2 := h1.setEsw hes;
      (have h3 := h2.inc.raise; h3.inc.ite h3).ite (
        h2.inc.ite (have h4 := h2.inc.redundancy hes; (h4.switchFrame hes).ite h4))))
theorem redSend (hes : .esw ∈ W) {pair f cls} : Keeps W s (u.redSend pair f cls) :=
  ((h.setEsw hes).enqueue hes).enqueue hes
theorem execPrpSupervisionTx (hes : .esw ∈ W) {t pair} : Answers W s (execPrpSupervisionTx t pair u) :=
  h.runK (fun h1 => h1.ite ((h1.setEsw hes).redSend hes))
theorem execRedLanSilent {t pair lanB} : Answers W s (execRedLanSilent t pair lanB u) :=
  h.runK (fun h1 => h1.raise.ite h1)
theorem execDupEntryForget (hes : .esw ∈ W) {t pair src seq} : Answers W s (execDupEntryForget t pair src seq u) :=
  h.runK fun h1 => by
    dsimp only
    split
    · exact h1
    · exact have h2 := h1.setEsw hes; h2.inc.ite (h2.inc.ite h2)
theorem execEthCtrClr {t r port} : Answers W s (execEthCtrClr t r port u) := h.cmdK (·.pageWrite (·.foldl (·.rstF)))

/-! ### The host queues -/

theorem setQueue (hqu : .queues ∈ W) {p q x} : Keeps W s (u.setQueue p q x) := h.put hqu
theorem msix {p vec} : Keeps W s (u.msix p vec) := h.setPort.ite h.setPort
theorem raiseHqe {p bit pay} : Keeps W s (u.raiseHqe p bit pay) := h.raise.msix.ite h.raise
theorem dropRecords (hqu : .queues ∈ W) {p q n seq} : Keeps W s (u.dropRecords p q n seq) :=
  (h.setQueue hqu).inc.inc.raiseHqe
theorem nextSeq {p q} : Keeps W s (u.nextSeq p q) := h.w
theorem buffer {p q bytes} : Keeps W s (u.buffer p q bytes) := h.setPort
theorem serveDrop {p q} : Keeps W s (u.serveDrop p q) := h.buffer.nextSeq.w.ite h
theorem offerQueue (hqu : .queues ∈ W) {p q m} : Keeps W s (u.offerQueue p q m) :=
  have h1 := h.serveDrop.nextSeq; h1.buffer.ite (h1.dropRecords hqu)
theorem execHqeRecordOffer (hqu : .queues ∈ W) {t p} : Answers W s (execHqeRecordOffer t p u) :=
  h.runK (fun h1 => by split; exacts [h1, have h2 := h1.setPort; (h2.offerQueue hqu).ite h2])
theorem signal (hqu : .queues ∈ W) {p q} : Keeps W s (u.signal p q) := (h.setQueue hqu).msix
theorem execHqeWriteback (hqu : .queues ∈ W) {t p} : Answers W s (execHqeWriteback t p u) :=
  h.runK fun h1 => by
    extract_lets b port v1 v2
    clear_value b
    split
    · exact h1
    · refine h1.ite ?_
      extract_lets x v3 v4
      have hout : Keeps W s v2 := h1.setPort.foldl (·.setPort.w)
      have hset : Keeps W s v3 := hout.setQueue hqu
      have hsig : Keeps W s v4 := (hset.signal hqu).ite hset
      exact hsig.forN (·.serveDrop)
theorem execHqeIntTimer (hqu : .queues ∈ W) {t p q} : Answers W s (execHqeIntTimer t p q u) :=
  h.runK (fun h1 => by split; exacts [h1, (h1.signal hqu).ite h1])
theorem execMsixUnmask {t p vec} : Answers W s (execMsixUnmask t p vec u) :=
  h.runK (fun h1 => have h2 := h1.setPort; h2.msix.ite h2)
theorem execConsWrite {t r p q x} : Answers W s (execConsWrite t r p q x u) :=
  h.cmdK (·.pageWrite (fun h2 => (h2.w.when (·.clampCount)).serveDrop))
theorem dropBuffered (hqu : .queues ∈ W) {p q} : Keeps W s (u.dropBuffered p q) := by
  unfold State.dropBuffered
  extract_lets x mine v
  have hv : Keeps W s v := h.setPort
  split
  · exact hv
  · exact hv.dropRecords hqu
theorem setQEn (hqu : .queues ∈ W) {p q on} : Keeps W s (u.setQEn p q on) :=
  h.wb.w.w.serveDrop.ite ((h.wb.dropBuffered hqu).ite h.wb)
theorem execQEnWrite (hqu : .queues ∈ W) {t r p q on} : Answers W s (execQEnWrite t r p q on u) :=
  h.cmdK (·.pageWrite (·.setQEn hqu))
theorem execPcieLinkChange {t p up speed width} : Answers W s (execPcieLinkChange t p up speed width u) :=
  h.cmdK (fun h1 => have h2 := h1.wb.w.w; h2.raiseHqe.ite ((h2.raiseHqe.forN (·.serveDrop)).ite h2))
theorem execCplTimeout {t p} : Answers W s (execCplTimeout t p u) := h.runK (fun h1 => h1.ite h1.setPort.raiseHqe)
theorem execFlr (hqu : .queues ∈ W) {t p} : Answers W s (execFlr t p u) :=
  h.runK (fun h1 =>
    (((h1.forN (·.setQEn hqu)).foldl (·.rstF)).forN (·.setQueue hqu)).setPort.hw.hw.hw.hw.closeLock.setPx.raiseHqe)

/-! ### The CAN channels -/

theorem setCan (hca : .can ∈ W) {ch x} : Keeps W s (u.setCan ch x) := h.put hca
theorem raiseCan {ch bit b extra} : Keeps W s (u.raiseCan ch bit b extra) := h.raise
theorem canLevel {ch bit x} : Keeps W s (u.canLevel ch bit x) := h.setRaw
theorem canStates {ch} : Keeps W s (u.canStates ch) := (h.wb.ite h.wb.w).canLevel.canLevel.canLevel
theorem canCount {ch tec rec_} : Keeps W s (u.canCount ch tec rec_) := h.w.w.canStates
theorem setAckRun {ch n} : Keeps W s (u.setAckRun ch n) := h.w.canLevel.ite (h.w.canLevel.ite h.w)
theorem execCanModeWrite (hca : .can ∈ W) {t r ch v} : Answers W s (execCanModeWrite t r ch v u) :=
  h.cmdK (·.pageWrite fun h1 => by
    extract_lets mode refuse ts opts same v1 v2 nom dat x v3 v4
    have hopt : Keeps W s v1 := h1.w.w.w.w
    have hv : Keeps W s v2 := (hopt.when (·.clampCount)).ite (h1.ite h1.w.inc)
    have hon : Keeps W s v3 := hv.w.setCan hca
    have hoff : Keeps W s v4 := by
      unfold v4
      clear_value x
      split
      · exact hv.w
      · exact hv
    exact hv.w.inc.ite (hv.ite ((hv.w.inc.ite (hv.ite (hon.w.ite hon))).ite (hoff.w.setCan hca))))
theorem execCanIntegrated (hca : .can ∈ W) {t ch} : Answers W s (execCanIntegrated t ch u) :=
  h.runK (fun h1 => h1.ite (h1.setCan hca))
theorem execTxReq {t r ch m} : Answers W s (execTxReq t r ch m u) :=
  h.cmdK (·.pageWrite (·.forN (fun h3 => h3.w.w.w.ite h3)))
theorem execCancel (hca : .can ∈ W) {t r ch m} : Answers W s (execCancel t r ch m u) :=
  h.cmdK (·.pageWrite (·.forN (fun h3 => h3.ite (h3.w.ite ((h3.setCan hca).ite h3)))))
theorem execCanSelection (hca : .can ∈ W) {t ch} : Answers W s (execCanSelection t ch u) :=
  h.runK (fun h1 => .ite (by split; exacts [h1, h1.w.inc.setCan hca]) h1)
theorem canAccept (hca : .can ∈ W) {ch f ts} : Keeps W s (u.canAccept ch f ts) := by
  unfold State.canAccept
  split
  exacts [h, ((h.setCan hca).w.canLevel).ite h.inc.raiseCan]
theorem attemptFailed {ch b ack} : Keeps W s (u.attemptFailed ch b ack) :=
  h.w.ite (h.w.raiseCan.ite (h.w.raiseCan.ite h.w))
theorem txError {ch raises} : Keeps W s (u.txError ch raises) := h.inc.canCount.ite h.inc
theorem measureTdc {ch b delay} : Keeps W s (u.measureTdc ch b delay) :=
  .ite (by split; exacts [h, h.w.ite h.w.fresh]) h
theorem attemptEnd (hca : .can ∈ W) {ch b res back} : Keeps W s (u.attemptEnd ch b res back) := by
  unfold State.attemptEnd
  split
  · exact have h1 := (h.setCan hca).w.setAckRun.canCount.w.w.raiseCan; (h1.canAccept hca).ite h1
  · exact h.w.w
  · exact have h2 := h.w.txError; (h2.raiseCan.ite h2).attemptFailed
  · exact h.w.setAckRun.txError.attemptFailed
  · exact h.w.txError.attemptFailed
  · exact h.w.txError.attemptFailed
theorem execCanTxAttemptEnd (hca : .can ∈ W) {t ch a} : Answers W s (execCanTxAttemptEnd t ch a u) :=
  h.runK (fun h1 => by split; exacts [h1, (h1.measureTdc.attemptEnd hca).setCan hca])
theorem execCanFrameRx (hca : .can ∈ W) {t ch f} : Answers W s (execCanFrameRx t ch f u) :=
  h.runK (fun h1 => ((h1.setAckRun.canCount.fresh.ite h1.setAckRun.canCount).canAccept hca).ite h1)
theorem execCanRxError {t ch kind} : Answers W s (execCanRxError t ch kind u) :=
  h.runK (fun h1 => h1.inc.canCount.ite h1)
theorem execRxAck (hca : .can ∈ W) {t r ch} : Answers W s (execRxAck t r ch u) :=
  h.cmdK (·.pageWrite (fun h2 => ((h2.setCan hca).w).canLevel))
theorem execRecover (hca : .can ∈ W) {t r ch} : Answers W s (execRecover t r ch u) :=
  h.cmdK (·.pageWrite (fun h2 => (((h2.setCan hca).w).canLevel).ite h2.w.inc))
theorem execRecovered (hca : .can ∈ W) {t ch} : Answers W s (execRecovered t ch u) :=
  h.runK (fun h1 => ((h1.w.canCount.setCan hca).raiseCan).ite h1)
theorem execCfdCtrClr {t r ch} : Answers W s (execCfdCtrClr t r ch u) := h.cmdK (·.pageWrite (·.rstF.rstF.rstF))

/-! ### Motion -/

theorem setAxis {a x} : Keeps W s (u.setAxis a x) := h.same
theorem groupEvents {g} : Keeps W s (u.groupEvents g) := h.setRaw.setRaw
theorem publish (hgr : .groups ∈ W) {g loop pv out bad} : Keeps W s (u.publish g loop pv out bad) :=
  (h.put hgr).w.groupEvents
theorem unpublish (hgr : .groups ∈ W) {g} : Keeps W s (u.unpublish g) := h.ite ((h.put hgr).groupEvents)
theorem execLiveLost {t grp} : Answers W s (execLiveLost t grp u) := h.runK (·.groupEvents)
theorem mstate {a m} : Keeps W s (u.mstate a m) := h.w
theorem standstill {a m} : Keeps W s (u.standstill a m) := have h1 := h.setAxis; (h1.wi.wi.ite h1).w.w.wb.mstate
theorem arrive {a} : Keeps W s (u.arrive a) := h.wi.standstill.setAxis.w.setEvtRaw.inc.raise
theorem hgLimited {a b} : Keeps W s (u.hgLimited a b) := h.wb.setRaw
theorem refuseTarget {a} : Keeps W s (u.refuseTarget a) := h.w.inc.setAxis.w.raise
theorem travel {a dir x vFrac m} : Keeps W s (u.travel a dir x vFrac m) := h.setAxis.wi.wi.setAxis.mstate
theorem tryStart {a} : Keeps W s (u.tryStart a) :=
  h.ite ((h.ite h.refuseTarget).ite ((h.setAxis.ite h.arrive).ite (h.ite (h.hgLimited.ite h.w.w.travel))))
theorem rampStop {a} : Keeps W s (u.rampStop a) := h.standstill.ite h.travel
theorem pursue {a} : Keeps W s (u.pursue a) :=
  h.arrive.ite (
    (have h1 := h.setAxis; (h1.w.ite h1).travel).ite (
      (have h2 := h.hgLimited; h2.standstill.hgLimited.ite h2.travel).ite (h.hgLimited.travel.ite h.hgLimited.travel)))
theorem homeFault {a cause} : Keeps W s (u.homeFault a cause) := h.ite h.setAxis.w.w.raise
theorem homePhase {a p} : Keeps W s (u.homePhase a p) := h.setAxis.w
theorem hardStop {a m} : Keeps W s (u.hardStop a m) := h.standstill
theorem homeLatch {a} : Keeps W s (u.homeLatch a) := have h1 := h.wi.w.setAxis; (h1.wi.wi.ite h1).standstill.w.w.raise
theorem homeUpdate {a} : Keeps W s (u.homeUpdate a) :=
  h.ite (by
      split
      · exact (h.homePhase.ite h.homePhase).ite (h.homeFault.setAxis.ite h.travel)
      · exact h.homePhase.ite (have h1 := h.rampStop; h1.homePhase.ite h1)
      · exact h.homeLatch.ite h.travel)
theorem execMotionUpdate {t a} : Answers W s (execMotionUpdate t a u) :=
  h.runK (fun h1 =>
    h1.ite (have h2 := h1.setAxis; (h2.standstill.ite h2.rampStop).ite (h2.homeUpdate.ite (h2.pursue.ite h2.tryStart))))
theorem newTarget {a p} : Keeps W s (u.newTarget a p) := h.wi.ite (h.wi.refuseTarget.ite h.wi.setAxis.wb)
theorem axisValue {a x} : Keeps W s (u.axisValue a x) := h.clampData.newTarget
theorem execTargetWrite {t r a x} : Answers W s (execTargetWrite t r a x u) :=
  h.cmdK (·.pageWrite (fun h2 => have h3 := (h2.when (·.clampCount)).wi; h3.newTarget.ite h3))
theorem execDecWrite {t r a reg x} : Answers W s (execDecWrite t r a reg x u) :=
  h.cmdK (·.pageWrite (fun h2 => have h3 := (h2.when (·.clampCount)).w; h3.setAxis.ite h3))
theorem execHome {t r a} : Answers W s (execHome t r a u) :=
  h.cmdK (·.pageWrite (fun h2 => have h3 := h2.setAxis.w.w.w; h3.ite h3.homeFault))
theorem execStop {t r a} : Answers W s (execStop t r a u) :=
  h.cmdK (·.pageWrite (fun h2 => have h3 := h2.homeFault.w.setAxis; h3.standstill.ite h3))
theorem execEstop {t r a} : Answers W s (execEstop t r a u) := h.cmdK (·.pageWrite (·.homeFault.w.setAxis.hardStop))
theorem execRelease {t r a} : Answers W s (execRelease t r a u) := h.cmdK (·.pageWrite (·.w.setAxis))
theorem axisRefuse {a c} : Keeps W s (u.axisRefuse a c) := h.w.inc.raise
theorem execPhaseSync {t r a} : Answers W s (execPhaseSync t r a u) :=
  h.cmdK (·.pageWrite (fun h2 => h2.axisRefuse.ite (h2.axisRefuse.ite (h2.axisRefuse.ite h2.wi.wi.w.setAxis))))
theorem execSetPos {t r a} : Answers W s (execSetPos t r a u) :=
  h.cmdK (·.pageWrite (fun h2 => h2.axisRefuse.ite h2.wi.wi.setAxis.wb))
theorem execLimitActive {t a positive} : Answers W s (execLimitActive t a positive u) :=
  h.cmdK (fun h1 =>
    have h2 := h1.setAxis;
    (h2.homeFault.hardStop.ite (h2.homeFault.setAxis.ite (h2.homePhase.ite h2))).ite (
      ((h2.w.hardStop.ite h2.w.setAxis).raise).ite h2))
theorem execLimitRelease {t a positive} : Answers W s (execLimitRelease t a positive u) :=
  h.cmdK (fun h1 => have h2 := h1.setAxis.w; h2.homeLatch.ite h2)
theorem execHomeInput {t a active} : Answers W s (execHomeInput t a active u) :=
  h.cmdK (fun h1 => have h2 := h1.setAxis; h2.wb.homePhase.ite h2.wb)
theorem execDrvFault {t a} : Answers W s (execDrvFault t a u) :=
  h.cmdK (fun h1 => have h2 := h1.homeFault.hardStop.w.raise; h2.ite h2.w.raise)
theorem execDokRiseAccepted {t a} : Answers W s (execDokRiseAccepted t a u) :=
  h.cmdK (fun h1 => (h1.w.ite h1).setAxis.w)

/-! ### The calendar clock and the backup domain -/

theorem setRtc {f} : Keeps W s (u.setRtc f) := h.same
theorem alarm : Keeps W s u.alarm := h.w.raise.ite h
theorem calTick : Keeps W s u.calTick := (h.w.ite h).setRtc.alarm
theorem release : Keeps W s u.release := h.ite (have h1 := h.setRtc.w; h1.w.calTick.ite h1)
theorem execRtcTick {t} : Answers W s (execRtcTick t u) :=
  h.cmdK (fun h1 => h1.ite (have h2 := h1.setRtc; have h3 := h2.w.w.ite h2; h3.w.ite h3.calTick))
theorem execRtcSecRead {t r} : Answers W s (execRtcSecRead t r u) :=
  h.cmdK (·.pageRead (fun h2 => (h2.ite h2.setRtc.w).reply))
theorem execRtcCentRead {t r} : Answers W s (execRtcCentRead t r u) := h.cmdK (·.pageRead (·.reply.release))
theorem execRtcFreezeTimeout {t} : Answers W s (execRtcFreezeTimeout t u) := h.cmdK (fun h1 => h1.release.ite h1)
theorem stageField {f lo hi x} : Keeps W s (u.stageField f lo hi x) := ((h.ite h.w.w.w.w.w.w.w.w).w).when (·.clampCount)
theorem execStagingWrite {t r reg x} : Answers W s (execStagingWrite t r reg x u) := h.cmdK (·.pageWrite (·.stageField))
theorem commitCal {c} : Keeps W s (u.commitCal c) := h.setRtc.w.w.w.alarm
theorem execCalendarCommit {t r x} : Answers W s (execCalendarCommit t r x u) :=
  h.cmdK (·.pageWrite (fun h2 => (h2.stageField.w.when (·.w.clampCount)).commitCal))
theorem execStgDiscard {t r} : Answers W s (execStgDiscard t r u) := h.cmdK (·.pageWrite (·.w))
theorem execAutoSync {t} : Answers W s (execAutoSync t u) :=
  h.cmdK (fun h1 => h1.ite (have h2 := h1.setRtc; h2.inc.ite (have h3 := h2.inc.commitCal; h3.raise.ite h3)))
theorem execWakeInputEdge {t n lvl} : Answers W s (execWakeInputEdge t n lvl u) :=
  h.cmdK (fun h1 => h1.wb.raise.ite h1.wb)
theorem execVbakCheck {t mv} : Answers W s (execVbakCheck t mv u) :=
  h.cmdK (fun h1 => h1.ite (h1.w.setRtc.w.setRaw.ite (have h2 := h1.w.setRtc; h2.w.setRaw.ite h2)))
theorem execOscFault {t} : Answers W s (execOscFault t u) := h.cmdK (·.w.setRtc.setRaw)
theorem execOscRestored {t} : Answers W s (execOscRestored t u) := h.cmdK (·.w.setRaw)
theorem execBackupDomainReset (hao : .aonRegs ∈ W) {t} : Answers W s (execBackupDomainReset t u) :=
  h.cmdK fun h1 => h1.ite (by
    extract_lets v p
    have hv : Keeps W s v := h1.foldl (·.rstF)
    clear_value v
    exact hv.put hao)
theorem execAonSupplySwitch {t toVbak} : Answers W s (execAonSupplySwitch t toVbak u) := h.cmdK (·.setRtc)

/-! ### The clamp rule -/

theorem take {f x inst i} : Keeps W s (u.take f x inst i) := h.w.when (·.clampCount)

/-! ### The word memories that blocks share -/

theorem setDword {w x} : Keeps W s (u.setDword w x) := h.same
theorem setStn (hst : .stations ∈ W) {n x} : Keeps W s (u.setStn n x) := h.put hst
theorem setSo (hoi : .outImg ∈ W) {w x} : Keeps W s (u.setSo w x) := h.put hoi

/-! ### Measurement inputs and actuation outputs -/

theorem refresh {i} : Keeps W s (u.refresh i) := h.setDword.setDword
theorem setMfeBit {i b x} : Keeps W s (u.setMfeBit i b x) := h.w
theorem mfeEvents {typ i} : Keeps W s (u.mfeEvents typ i) := h.setRaw.setRaw.setRaw.setRaw
theorem setSd (hsd : .sd ∈ W) {c x} : Keeps W s (u.setSd c x) := h.put hsd
theorem setPwm (hpw : .pwm ∈ W) {o x} : Keeps W s (u.setPwm o x) := h.put hpw
theorem tripOutputs (hpw : .pwm ∈ W) : Keeps W s u.tripOutputs := h.forN (fun h1 => (h1.setPwm hpw).ite h1)
theorem tripLine (hpw : .pwm ∈ W) {l src} : Keeps W s (u.tripLine l src) := ((h.w.w.w.tripOutputs hpw).ite h.w).setRaw
theorem execTripInput (hpw : .pwm ∈ W) {t line active} : Answers W s (execTripInput t line active u) :=
  h.cmdK (·.same.tripLine hpw)
theorem execActTripClear (hpw : .pwm ∈ W) {t r x} : Answers W s (execActTripClear t r x u) :=
  h.cmdK (·.pageWrite (fun h2 => (h2.forN (fun h3 => h3.w.setRaw.ite h3)).forN (fun h4 => (h4.setPwm hpw).ite h4)))
theorem execSdFilterOutput (hsd : .sd ∈ W) {t ch d} : Answers W s (execSdFilterOutput t ch d u) :=
  h.runK (fun h1 => h1.ite ((h1.setSd hsd).ite ((h1.setSd hsd).wi.setMfeBit.setMfeBit.refresh.mfeEvents)))
theorem execSdLimitOutput (hpw : .pwm ∈ W) (hsd : .sd ∈ W) {t ch d} : Answers W s (execSdLimitOutput t ch d u) :=
  h.runK (fun h1 => h1.ite ((h1.setSd hsd).setMfeBit.refresh.mfeEvents.tripLine hpw))
theorem sdCond (hsd : .sd ∈ W) {c x} : Keeps W s (u.sdCond c x) :=
  ((((h.setSd hsd).setMfeBit).refresh).mfeEvents).ite (h.setSd hsd)
theorem execSdClockLoss (hsd : .sd ∈ W) {t grp lost} : Answers W s (execSdClockLoss t grp lost u) :=
  h.runK (fun h1 => h1.ite (h1.forN (·.sdCond hsd)))
theorem execSdDataStuck (hsd : .sd ∈ W) {t ch stuck} : Answers W s (execSdDataStuck t ch stuck u) :=
  h.runK (·.sdCond hsd)
theorem sarNext {t} : Keeps W s (u.sarNext t) := h.ite (by split; exacts [h.same, h.same, h])
theorem sarTrigger {b} : Keeps W s (u.sarTrigger b) := h.ite (h.inc.raise.ite ((h.same.ite h.same).sarNext))
theorem execSarStartA {t r} : Answers W s (execSarStartA t r u) := h.cmdK (·.pageWrite (fun h2 => h2.sarTrigger.ite h2))
theorem execSarStartB {t r} : Answers W s (execSarStartB t r u) := h.cmdK (·.pageWrite (fun h2 => h2.sarTrigger.ite h2))
theorem execSarTimeTrigger {t} : Answers W s (execSarTimeTrigger t u) := h.runK (fun h1 => h1.sarTrigger.ite h1)
theorem sarPwm {o trig} : Keeps W s (u.sarPwm o trig) := ((h.sarTrigger.ite h).sarTrigger).ite (h.sarTrigger.ite h)
theorem execSarConversionDone {t code} : Answers W s (execSarConversionDone t code u) :=
  h.runK fun h1 => by
    split
    · exact h1
    · refine h1.ite ?_
      extract_lets n y v1 sar v2 v3 step now x z v4
      have hcode : Keeps W s v1 := h1.w.wi
      have hcoded : Keeps W s v2 := hcode.same
      have hbits : Keeps W s v3 := hcoded.setMfeBit.setMfeBit
      have hnext : Keeps W s v4 := hbits.same
      exact hnext.refresh.mfeEvents.sarNext
theorem setPulse (hpu : .pulse ∈ W) {c x} : Keeps W s (u.setPulse c x) := h.put hpu
theorem execPulseEdge (hpu : .pulse ∈ W) {t ch fall} : Answers W s (execPulseEdge t ch fall u) :=
  h.runK (fun h1 => h1.ite ((((h1.setPulse hpu).w).w).w.refresh.mfeEvents))
theorem execPulseGateEnd (hpu : .pulse ∈ W) {t ch} : Answers W s (execPulseGateEnd t ch u) :=
  h.runK fun h1 => by
    dsimp only
    split
    · exact h1
    · exact h1.ite (h1.setPulse hpu).wi.refresh
theorem execPulseTimeout (hpu : .pulse ∈ W) {t ch} : Answers W s (execPulseTimeout t ch u) :=
  h.runK (fun h1 => h1.ite (have h2 := (h1.setPulse hpu).w; (h2.w.ite h2).refresh.mfeEvents))
theorem pwmUpdate (hpw : .pwm ∈ W) {o} : Keeps W s (u.pwmUpdate o) := by
  unfold State.pwmUpdate
  extract_lets x due
  split
  · exact h.w.setPwm hpw
  · exact (h.w.setPwm hpw).ite h
theorem pwmShape (hpw : .pwm ∈ W) {o y} : Keeps W s (u.pwmShape o y) := (h.setPwm hpw).foldl (·.setPwm hpw)
theorem pwmStart (hpw : .pwm ∈ W) {o m} : Keeps W s (u.pwmStart o m) :=
  (((h.setPwm hpw).pwmUpdate hpw).foldl (fun h1 => (h1.setPwm hpw).ite h1)).pwmShape hpw
theorem pwmTriggers {o trig} : Keeps W s (u.pwmTriggers o trig) := h.foldl (·.sarPwm)
theorem execPwmPeriodStart (hpw : .pwm ∈ W) {t o} : Answers W s (execPwmPeriodStart t o u) :=
  h.runK (fun h1 => by split; exacts [h1, h1.ite ((h1.pwmStart hpw).pwmTriggers)])
theorem execPwmCentre (hpw : .pwm ∈ W) {t o} : Answers W s (execPwmCentre t o u) :=
  h.runK fun h1 => by
    dsimp only
    split
    · exact h1
    · exact h1.ite (((h1.pwmUpdate hpw).pwmShape hpw).ite h1).pwmTriggers
theorem stageDuty (hpw : .pwm ∈ W) {o x} : Keeps W s (u.stageDuty o x) :=
  (h.w.w.setPwm hpw).ite ((h.w.w.setPwm hpw).setEvtRaw)
theorem routeDuty (hpw : .pwm ∈ W) {o x} : Keeps W s (u.routeDuty o x) := (h.stageDuty hpw).ite h
theorem execDutyWrite (hpw : .pwm ∈ W) {t w o x} : Answers W s (execDutyWrite t w o x u) :=
  h.cmdK (fun h1 =>
    by split; exacts [(h1.routeDuty hpw).ite h1.gated, h1.pageWrite (fun h2 => (h2.stageDuty hpw).ite h2)])
theorem execDutyTimeout (hpw : .pwm ∈ W) {t o} : Answers W s (execDutyTimeout t o u) :=
  h.runK (fun h1 => h1.ite (((h1.setPwm hpw).w).recur))

/-! ### The control loop engine -/

theorem setLw (hlm : .loopMem ∈ W) {g w x} : Keeps W s (u.setLw g w x) := h.put hlm
theorem setLwi (hlm : .loopMem ∈ W) {g w x} : Keeps W s (u.setLwi g w x) := h.setLw hlm
theorem setLoopBit (hlm : .loopMem ∈ W) {g b x} : Keeps W s (u.setLoopBit g b x) := h.setLw hlm
theorem setLoop (hlo : .loops ∈ W) {g x} : Keeps W s (u.setLoop g x) := h.put hlo
theorem setCluster (hcl : .clusters ∈ W) {c x} : Keeps W s (u.setCluster c x) := h.put hcl
theorem loadStage (hcl : .clusters ∈ W) {c slot} : Keeps W s (u.loadStage c slot) := h.setCluster hcl
theorem loopEvt {g bit cause extra} : Keeps W s (u.loopEvt g bit cause extra) := h.raise
theorem setRcWord (hrc : .rcMem ∈ W) {a m} : Keeps W s (u.setRcWord a m) := h.put hrc
theorem tuneResults {c period tu2 ku} : Keeps W s (u.tuneResults c period tu2 ku) :=
  have h1 := h.w.w.w.w; h1.w.w.ite h1.w.w
theorem tuneEnd (hcl : .clusters ∈ W) {c st cause} : Keeps W s (u.tuneEnd c st cause) :=
  have h1 := (h.setCluster hcl).w; h1.w.loopEvt.ite h1.w.loopEvt
theorem tuneFail (hcl : .clusters ∈ W) {c cause} : Keeps W s (u.tuneFail c cause) := (h.tuneEnd hcl).ite h
theorem tuneUpdate (hcl : .clusters ∈ W) {c period ei yf} : Keeps W s (u.tuneUpdate c period ei yf) :=
  (h.tuneEnd hcl).ite (
    have h1 := (h.setCluster hcl).w;
    h1.ite (by split; exacts [(h1.tuneEnd hcl).ite (h1.tuneResults.tuneEnd hcl), (h1.tuneEnd hcl).ite h1]))
theorem routeTo (hoi : .outImg ∈ W) (hpw : .pwm ∈ W) {g typ i x} : Keeps W s (u.routeTo g typ i x) := by
  unfold State.routeTo
  split
  exacts [h.ite (h.same.routeDuty hpw), h.setSo hoi, h.ite (h.same.axisValue.ite h.same), h.ite h.setDword]
theorem route1 (hoi : .outImg ∈ W) (hpw : .pwm ∈ W) {g m out} : Keeps W s (u.route1 g m out).1 := by
  unfold State.route1
  extract_lets w i
  split
  split
  · exact h
  · exact (h.routeTo hoi hpw).ite h.gated
theorem loopSat (hlm : .loopMem ∈ W) {g n} : Keeps W s (u.loopSat g n) := h.ite ((h.inc.w.setLoopBit hlm).loopEvt)
theorem applyOut (hgr : .groups ∈ W) (hlm : .loopMem ∈ W) (hoi : .outImg ∈ W) (hpw : .pwm ∈ W) {g x late} :
    Keeps W s (u.applyOut g x late) :=
  have h1 := ((((h.setLwi hlm).setLoopBit hlm).route1 hoi hpw).route1 hoi hpw).loopSat hlm; (h1.publish hgr).ite h1
theorem applyWaiting (hgr : .groups ∈ W) (hlm : .loopMem ∈ W) (hlo : .loops ∈ W) (hoi : .outImg ∈ W)
    (hpw : .pwm ∈ W) {g} : Keeps W s (u.applyWaiting g) :=
  (h.setLoop hlo).foldl (·.applyOut hgr hlm hoi hpw)
theorem execLoopOutput (hgr : .groups ∈ W) (hlm : .loopMem ∈ W) (hlo : .loops ∈ W) (hoi : .outImg ∈ W)
    (hpw : .pwm ∈ W) {t g} : Answers W s (execLoopOutput t g u) :=
  h.runK (fun h1 => by split; exacts [((h1.setLoop hlo).applyOut hgr hlm hoi hpw).ite h1, h1])
theorem unpublished (hgr : .groups ∈ W) : Keeps W s u.unpublished := h.forN (fun h1 => h1.ite (h1.unpublish hgr))
theorem hgMarks (hgr : .groups ∈ W) (hlm : .loopMem ∈ W) {before} : Keeps W s (u.hgMarks before) :=
  (h.unpublished hgr).foldl (fun h1 => have h2 := h1.setLoopBit hlm; h2.loopEvt.ite h2)
theorem worstBegin (hcl : .clusters ∈ W) {c} : Keeps W s (u.worstBegin c) := (h.setCluster hcl).w
theorem takeCommit (hgr : .groups ∈ W) (hlm : .loopMem ∈ W) (hlo : .loops ∈ W) {c} : Keeps W s (u.takeCommit c) :=
  have h1 := ((h.foldl (·.setLw hlm)).setLoopBit hlm).setLoopBit hlm;
  (((h1.setLw hlm).ite h1).setLoop hlo).w.w.hgMarks hgr hlm
theorem clePending {c f} (k : ∀ {v}, Keeps W s v → Keeps W s (f v)) : Keeps W s (u.clePending c f) := h.inc.w.ite (k h)
theorem execLoopSel (hcl : .clusters ∈ W) {t r c slot} : Answers W s (execLoopSel t r c slot u) :=
  h.cmdK (·.pageWrite (·.clePending (·.w.loadStage hcl)))
theorem execCommit (hcl : .clusters ∈ W) (hgr : .groups ∈ W) (hlm : .loopMem ∈ W) (hlo : .loops ∈ W) {t r c} :
    Answers W s (execCommit t r c u) :=
  h.cmdK (·.pageWrite (·.clePending (fun h3 =>
    ((h3.inc.w.loadStage hcl).loopEvt).ite (
      have h4 := ((h3.tuneFail hcl).ite h3).w.worstBegin hcl; (h4.takeCommit hgr hlm hlo).ite h4))))
theorem execDiscard (hcl : .clusters ∈ W) {t r c} : Answers W s (execDiscard t r c u) :=
  h.cmdK (·.pageWrite (·.clePending (·.loadStage hcl)))
theorem execRcClear (hlo : .loops ∈ W) {t r c} : Answers W s (execRcClear t r c u) :=
  h.cmdK (·.pageWrite (·.clePending (·.setLoop hlo)))
theorem execRcClearDone (hlo : .loops ∈ W) {t g} : Answers W s (execRcClearDone t g u) := h.runK (·.setLoop hlo)
theorem execLiveFieldWrite (hcl : .clusters ∈ W) (hlm : .loopMem ∈ W) {t r c reg x} :
    Answers W s (execLiveFieldWrite t r c reg x u) :=
  h.cmdK (·.pageWrite (fun h2 => (h2.setCluster hcl).setLw hlm))
theorem execOutDelayWrite (hcl : .clusters ∈ W) {t r c x} : Answers W s (execOutDelayWrite t r c x u) :=
  h.cmdK (·.pageWrite (fun h2 => ((h2.when (·.clampCount)).w).worstBegin hcl))
theorem execWorstRunDone (hcl : .clusters ∈ W) {t c} : Answers W s (execWorstRunDone t c u) :=
  h.runK (fun h1 => h1.ite (have h2 := (h1.setCluster hcl).w.wb.w; h2.loopEvt.ite h2))
theorem takeGains (hcl : .clusters ∈ W) (hlm : .loopMem ∈ W) (hlo : .loops ∈ W) {c slot} :
    Keeps W s (u.takeGains c slot) :=
  (((((h.setLw hlm).setLw hlm).setLw hlm).setLw hlm).setCluster hcl).setLoop hlo
theorem beginRcClear (hlo : .loops ∈ W) (hrc : .rcMem ∈ W) {g} : Keeps W s (u.beginRcClear g) :=
  (h.foldl (·.setRcWord hrc)).setLoop hlo
theorem execLoopSample (hcl : .clusters ∈ W) (hgr : .groups ∈ W) (hlm : .loopMem ∈ W) (hlo : .loops ∈ W)
    (hrc : .rcMem ∈ W) {t g} : Answers W s (execLoopSample t g u) :=
  h.runK (fun h1 =>
    h1.ite (
      have h2 := h1.setLoop hlo;
      have h3 := (h2.takeCommit hgr hlm hlo).ite h2;
      have h4 := (h3.takeGains hcl hlm hlo).ite h3;
      have h5 := (h4.beginRcClear hlo hrc).ite h4;
      have h6 := ((((h5.setCluster hcl).inc).w).loopEvt).ite h5;
      (h6.setCluster hcl).ite h6))
theorem execLoopUpdateStart (hcl : .clusters ∈ W) (hlo : .loops ∈ W) {t c} : Answers W s (execLoopUpdateStart t c u) :=
  h.runK fun h1 => by
    dsimp only
    split
    · exact (h1.setCluster hcl).setLoop hlo
    · exact h1
theorem loopUpdate (hcl : .clusters ∈ W) (hgr : .groups ∈ W) (hlm : .loopMem ∈ W) (hlo : .loops ∈ W) (hoi : .outImg ∈ W)
    (hpw : .pwm ∈ W) (hrc : .rcMem ∈ W) {g job} : Keeps W s (u.loopUpdate g job) :=
  have h1 := (h.tuneFail hcl).ite h;
  have h2 := (h1.tuneUpdate hcl).ite h1;
  have h3 := (h2.setRcWord hrc).ite h2;
  have h4 := (((h3.setLoopBit hlm).ite h3).setLoopBit hlm).setLw hlm;
  have h5 := ((h4.setLwi hlm).setLwi hlm).setLw hlm;
  have h6 := (((h5.setLwi hlm).setLwi hlm).setLwi hlm).setLwi hlm;
  have h7 := (((h6.setLwi hlm).setLwi hlm).setLwi hlm).setLwi hlm;
  have h8 := ((((h7.setLwi hlm).setLw hlm).setLw hlm).setLoop hlo).loopSat hlm;
  have h9 := h8.w.loopEvt.ite h8;
  (h9.setLoop hlo).ite (((h9.applyWaiting hgr hlm hlo hoi hpw).applyOut hgr hlm hoi hpw).inc.w.loopEvt)
theorem execLoopUpdateDone (hcl : .clusters ∈ W) (hgr : .groups ∈ W) (hlm : .loopMem ∈ W) (hlo : .loops ∈ W)
    (hoi : .outImg ∈ W) (hpw : .pwm ∈ W) (hrc : .rcMem ∈ W) {t c} : Answers W s (execLoopUpdateDone t c u) :=
  h.runK (fun h1 => by split; exacts [h1, (h1.setCluster hcl).loopUpdate hcl hgr hlm hlo hoi hpw hrc])
theorem tuneRefuse {c} : Keeps W s (u.tuneRefuse c) := h.inc.w
theorem execTuneStart (hcl : .clusters ∈ W) {t r c} : Answers W s (execTuneStart t r c u) :=
  h.cmdK (·.pageWrite (fun h2 => h2.tuneRefuse.ite ((h2.setCluster hcl).w.w.w)))
theorem execTuneAbort (hcl : .clusters ∈ W) {t r c} : Answers W s (execTuneAbort t r c u) :=
  h.cmdK (·.pageWrite (·.tuneFail hcl))
theorem execTuneApply (hcl : .clusters ∈ W) {t r c} : Answers W s (execTuneApply t r c u) :=
  h.cmdK (·.pageWrite (fun h2 => h2.tuneRefuse.ite (h2.setCluster hcl)))
theorem execTuneTimeout (hcl : .clusters ∈ W) {t c} : Answers W s (execTuneTimeout t c u) :=
  h.runK (fun h1 => h1.ite (h1.tuneFail hcl))

/-! ### The event recorder -/

theorem setRec {f} : Keeps W s (u.setRec f) := h.same
theorem setCode {c x} : Keeps W s (u.setCode c x) := h.setRec
theorem oldest : Keeps W s u.oldest := h.w
theorem ringFill : Keeps W s u.ringFill := h.setRaw
theorem toRing {x} : Keeps W s (u.toRing x) := h.setRec.inc.inc.oldest
theorem holdFill : Keeps W s u.holdFill := h.w
theorem unhold : Keeps W s u.unhold := ((h.setRec.foldl (·.toRing)).holdFill).ringFill
theorem putRec {code pay} : Keeps W s (u.putRec code pay) :=
  have h1 := h.setRec.w; h1.setRec.holdFill.ite h1.toRing.ringFill
theorem thaw {cause} : Keeps W s (u.thaw cause) := (h.w.ite h.w.unhold).putRec.raise
theorem writeRec {code pay} : Keeps W s (u.writeRec code pay) := ((h.w.thaw.ite h.w.unhold).ite h).putRec
theorem limited {c pay} : Keeps W s (u.limited c pay) := h.ite (h.writeRec.ite (h.setCode.writeRec.ite h.setCode.inc))
theorem execRecInput {t} : Answers W s (execRecInput t u) :=
  h.runK (fun h1 => by split; exacts [h1, have h2 := h1.setRec; h2.setRec.ite h2.setRec.inc])
theorem lostRecord : Keeps W s u.lostRecord := h.setRec.writeRec.ite h
theorem execRecRecordWrite {t} : Answers W s (execRecRecordWrite t u) :=
  h.runK (fun h1 => by split; exacts [h1.lostRecord, h1.setRec.limited.lostRecord])
theorem execRateRefill {t code} : Answers W s (execRateRefill t code u) := h.runK (fun h1 => h1.ite h1.setCode)
theorem summarise {c} : Keeps W s (u.summarise c) := h.ite h.setCode.writeRec
theorem execSuppressionFlush {t code} : Answers W s (execSuppressionFlush t code u) :=
  h.runK (fun h1 => h1.summarise.ite h1)
theorem configChanged {what old new r} : Keeps W s (u.configChanged what old new r) := h.writeRec
theorem execCodeCfgWrite {t r x} : Answers W s (execCodeCfgWrite t r x u) :=
  h.cmdK (·.pageWrite (fun h2 =>
    ((h2.when (·.clampCount)).when (·.clampCount)).ite (h2.ite ((h2.summarise.ite h2).setCode.configChanged))))
theorem execClassCfgWrite {t r x} : Answers W s (execClassCfgWrite t r x u) :=
  h.cmdK (·.pageWrite (fun h2 => have h3 := (h2.when (·.clampCount)).when (·.clampCount); h3.ite h3.setRec.configChanged))
theorem commitMarker {slot} : Keeps W s (u.commitMarker slot) := h.same
theorem eraseMarker {slot} : Keeps W s (u.eraseMarker slot) := h.same
theorem persist {x} : Keeps W s (u.persist x) := h.setRec.w
theorem persistAll : Keeps W s u.persistAll := h.foldl (·.persist)
theorem persistLost : Keeps W s u.persistLost := h.ite h.w.writeRec.setRec.setRaw
theorem persistBack : Keeps W s u.persistBack := h.ite h.persistAll.w.writeRec.setRec.setRaw
theorem execPersistWrite {t ok} : Answers W s (execPersistWrite t ok u) :=
  h.runK (fun h1 => h1.persistLost.ite (h1.persistBack.ite (by split; exacts [h1, h1.persist])))
theorem execRecFreeze {t r} : Answers W s (execRecFreeze t r u) :=
  h.cmdK (·.pageWrite (fun h2 => h2.inc.ite h2.w.w.w.setRec.writeRec.raise))
theorem execRecRelease {t r} : Answers W s (execRecRelease t r u) := h.cmdK (·.pageWrite (fun h2 => h2.thaw.ite h2))
theorem execFreezeMaxExpiry {t} : Answers W s (execFreezeMaxExpiry t u) := h.runK (fun h1 => h1.thaw.ite h1)
theorem window {seq} : Keeps W s (u.window seq) := h.setRec.w.wb.wb.w
theorem execWinSeqWrite {t r x} : Answers W s (execWinSeqWrite t r x u) := h.cmdK (·.pageWrite (·.window))
theorem execWinNext {t r} : Answers W s (execWinNext t r u) := h.cmdK (·.pageWrite (·.window))
theorem execWinDataRead {t r idx} : Answers W s (execWinDataRead t r idx u) :=
  h.cmdK (·.pageRead (fun h2 => h2.reply.ite h2.inc.reply))
theorem execExportStart {t r} : Answers W s (execExportStart t r u) :=
  h.cmdK (·.pageWrite (fun h2 => h2.ite h2.setRec.w.w))
theorem endExport {st} : Keeps W s (u.endExport st) := have h1 := h.setRec.w.w; h1.ite h1.unhold
theorem execExportAbort {t r} : Answers W s (execExportAbort t r u) :=
  h.cmdK (·.pageWrite (fun h2 => h2.endExport.ite h2))
theorem markCleared : Keeps W s u.markCleared := by
  unfold State.markCleared
  split
  exacts [h, h.setRec.oldest.ringFill]
theorem execClearMarkDone {t} : Answers W s (execClearMarkDone t u) := h.runK (fun h1 => h1.markCleared.raise.ite h1)
theorem execRecCtrClr {t r} : Answers W s (execRecCtrClr t r u) := h.cmdK (·.pageWrite (·.w.w.w.w.w.w))

/-! ### Signatures, tokens and update -/

theorem setSec {f} : Keeps W s (u.setSec f) := h.same
theorem putGen {a bs} : Keeps W s (u.putGen a bs) := h.same
theorem burn {off mask} : Keeps W s (u.burn off mask) := h.same
theorem senseFuses : Keeps W s u.senseFuses := h.w.w.w.w.w
theorem vfyDone {kind slot cause} : Keeps W s (u.vfyDone kind slot cause) := h.w.ite h.w.inc.raise.writeRec
theorem takeIndex : Keeps W s u.takeIndex := (h.ite (h.setSec.ite h.setSec.burn.w.writeRec)).setSec.inc.w.w.setRaw
theorem execAttestStart {t r} : Answers W s (execAttestStart t r u) :=
  h.cmd (·.pageWrite (fun h2 => h2.w.ite h2.w.takeIndex.setSec))
theorem execAttestDone {t} : Answers W s (execAttestDone t u) := h.runM (fun h1 => h1.ite h1.putGen.setSec.writeRec)
theorem execExportDone {t} : Answers W s (execExportDone t u) :=
  h.cmd (·.inside (fun h2 => by split; exacts [h2, (h2.takeIndex.ite h2).putGen.endExport.writeRec]))
theorem drawClrNonce : Keeps W s u.drawClrNonce := h.fresh.w.w
theorem beginClear {r tok b} : Keeps W s (u.beginClear r tok b) := h.writeRec.persistAll.setRec
theorem execClearStart {t r} : Answers W s (execClearStart t r u) :=
  h.cmdM (·.pageWrite fun h1 => have h2 := h1.w.vfyDone.ite h1.w; (h2.beginClear.ite h2.writeRec.raise).drawClrNonce)
theorem closeDebug : Keeps W s u.closeDebug := h.ite h.w.raise.writeRec
theorem fuseAct {tok} : Keeps W s (u.fuseAct tok) := by
  unfold State.fuseAct
  extract_lets arg at0 v x
  have hx : Keeps W s x := by
    unfold x
    split
    · exact (h.foldl (·.burn)).burn
    · exact h.burn
    · exact h.burn
    · exact h.foldl (·.burn)
  exact hx.senseFuses.writeRec
theorem execTokenApply {t r} : Answers W s (execTokenApply t r u) :=
  h.cmd (·.pageWrite (fun h2 =>
    have h3 := h2.vfyDone; (h3.w.writeRec.ite (h3.w.w.setSec.raise.writeRec.ite h3.w.fuseAct)).raise.fresh.w.w))
theorem execDbgClose {t r} : Answers W s (execDbgClose t r u) := h.cmdK (·.pageWrite (·.closeDebug))
theorem execDebugExpiry {t} : Answers W s (execDebugExpiry t u) := h.runK (fun h1 => h1.closeDebug.ite h1)
theorem fwState {st cause} : Keeps W s (u.fwState st cause) := h.w.raise
theorem execInstall {t r} : Answers W s (execInstall t r u) :=
  h.cmdK (·.pageWrite (fun h2 => h2.inc.ite h2.setSec.fwState))
theorem abandon {step} : Keeps W s (u.abandon step) := (h.setSec.writeRec.ite h).fwState
theorem execInstallAbort {t r} : Answers W s (execInstallAbort t r u) :=
  h.cmdK (·.pageWrite (fun h2 => h2.abandon.ite h2))
theorem execInstallSwitch {t r} : Answers W s (execInstallSwitch t r u) :=
  h.cmdK (·.pageWrite (fun h2 => h2.setSec.ite h2))
theorem fwVerify : Keeps W s u.fwVerify := have h1 := h.vfyDone; h1.inc.fwState.ite h1.setSec.fwState
theorem fwCommit : Keeps W s u.fwCommit := have h1 := h.commitMarker.setSec; ((h1.w.ite h1.w).writeRec).fwState
theorem fwSwitched : Keeps W s u.fwSwitched := h.same.w.setSec.setSec.writeRec.fwState.ite h
theorem execInstallStepDone {t} : Answers W s (execInstallStepDone t u) :=
  h.runK (fun h1 => by
      split
      · exact h1.ite h1.fwVerify
      · exact h1.eraseMarker.setSec.writeRec.fwState
      · exact h1.ite h1.setSec.fwState
      · exact h1.setSec.fwState.ite h1.inc.abandon
      · exact h1.fwCommit
      · exact h1.fwSwitched
      · exact h1)
theorem execSecCtrClr {t r} : Answers W s (execSecCtrClr t r u) := h.cmdK (·.pageWrite (·.w.w.w))

/-! ### Sending on the chain -/

theorem setDch {f} : Keeps W s (u.setDch f) := h.same
theorem dchEvt {bit addr kind serial extra} : Keeps W s (u.dchEvt bit addr kind serial extra) := h.raise
theorem putChain {p f} : Keeps W s (u.putChain p f) := h.setDch.ite h
theorem chainSend {dst cls typ pay} : Keeps W s (u.chainSend dst cls typ pay) :=
  h.ite (
    h.setDch.putChain.ite (
      h.setDch.putChain.putChain.ite (by split; exacts [h.setDch.putChain.ite h.setDch.putChain, h.setDch.putChain])))
theorem sendSlots : Keeps W s u.sendSlots := h.chainSend.ite h

/-! ### The station exchange -/

theorem setSxe {f} : Keeps W s (u.setSxe f) := h.same
theorem clearInputs (hii : .inImg ∈ W) {n} : Keeps W s (u.clearInputs n) := h.put hii
theorem usePolicy (hst : .stations ∈ W) {n} : Keeps W s (u.usePolicy n) := h.setStn hst
theorem commitEntry (hii : .inImg ∈ W) (hst : .stations ∈ W) {old new n} : Keeps W s (u.commitEntry old new n) :=
  (((h.setStn hst).clearInputs hii).ite h).ite (((h.setStn hst).usePolicy hst).ite h)
theorem commitTable (hii : .inImg ∈ W) (hst : .stations ∈ W) : Keeps W s u.commitTable :=
  h.ite ((h.setSxe.w.foldl (·.commitEntry hii hst)).raise)
theorem dropOut {f} : Keeps W s (u.dropOut f) := h.inc.raise
theorem execStationCycleStart (hii : .inImg ∈ W) (hst : .stations ∈ W) {t} : Answers W s (execStationCycleStart t u) :=
  h.runK (fun h1 => h1.ite (((h1.foldl (·.dropOut)).commitTable hii hst).setSxe.w.foldl (·.setStn hst)))
theorem checkEcho (hst : .stations ∈ W) {f} : Keeps W s (u.checkEcho f) :=
  h.ite ((h.setStn hst).ite (h.ite ((h.setStn hst).ite (have h1 := h.setStn hst; h1.raise.ite h1))))
theorem checkPaths (hst : .stations ∈ W) {n a b} : Keeps W s (u.checkPaths n a b) :=
  (h.setStn hst).ite ((h.setStn hst).ite (have h1 := h.setStn hst; h1.raise.ite h1))
theorem execInputFrameRx (hii : .inImg ∈ W) (hst : .stations ∈ W) {t f pathA pathB} :
    Answers W s (execInputFrameRx t f pathA pathB u) :=
  h.runK (fun h1 =>
    h1.ite ((h1.w.w.inc.raise.ite h1.w.w.inc.raise).ite ((((h1.put hii).checkEcho hst).checkPaths hst).setStn hst)))
theorem readEndStn (hst : .stations ∈ W) {n} : Keeps W s (u.readEndStn n) :=
  (have h1 := h.setStn hst; h1.raise.ite h1).ite (by
      split
      · exact have h2 := h.setStn hst; have h3 := h2.raise.ite h2; h3.raise.ite h3
      · exact have h4 := h.setStn hst; have h5 := h4.raise.ite h4; h5.raise.ite h5
      · exact h.setStn hst)
theorem execReadEnd (hst : .stations ∈ W) {t} : Answers W s (execReadEnd t u) :=
  h.runK (fun h1 => h1.ite (h1.setSxe.foldl (fun h2 => (h2.usePolicy hst).readEndStn hst)))
theorem execWritePhase {t} : Answers W s (execWritePhase t u) := h.runK (fun h1 => h1.ite h1.setSxe)
theorem sxeToSwitch (hes : .esw ∈ W) {f} : Keeps W s (u.sxeToSwitch f) :=
  h.forN (fun h1 => (h1.redSend hes).ite (have h2 := (h1.enqueue hes).ite h1; (h2.enqueue hes).ite h2))
theorem execOutputFrameTx (hes : .esw ∈ W) (hst : .stations ∈ W) {t} : Answers W s (execOutputFrameTx t u) :=
  h.runK (fun h1 => by
      split
      · exact h1
      · exact have h2 := h1.setSxe; h2.dropOut.ite (have h3 := (h2.sxeToSwitch hes).setSxe; ((h3.setStn hst).ite h3).w))
theorem execTableCommit {t r} : Answers W s (execTableCommit t r u) := h.cmdK (·.pageWrite (fun h2 => h2.inc.ite h2.w))
theorem execTableDiscard {t r} : Answers W s (execTableDiscard t r u) :=
  h.cmdK (·.pageWrite (fun h2 => h2.inc.ite h2.setSxe))
theorem execStnEntryWrite {t r w x} : Answers W s (execStnEntryWrite t r w x u) :=
  h.cmdK (·.pageWrite (fun h2 => h2.inc.ite (have h3 := (h2.foldl (·.clampCount)).setSxe; h3.w.ite h3)))
theorem execProfDataWrite {t r x} : Answers W s (execProfDataWrite t r x u) := h.cmdK (·.pageWrite (·.setSxe.w))
theorem execPlanMapWrite {t r w x} : Answers W s (execPlanMapWrite t r w x u) :=
  h.cmdK (·.pageWrite (fun h2 => have h3 := (h2.when (·.clampCount)).setSxe; h3.w.ite h3))
theorem planMapCopy (hoi : .outImg ∈ W) {value} : Keeps W s (u.planMapCopy value) := h.setSxe.foldl (·.setSo hoi)
theorem execSxeCtrClr (hst : .stations ∈ W) {t r} : Answers W s (execSxeCtrClr t r u) :=
  h.cmdK (·.pageWrite (fun h2 => (h2.foldl (·.w)).foldl (·.setStn hst)))

/-! ### The plan handover -/

theorem unpoison {base len} : Keeps W s (u.unpoison base len) := h.same
theorem putRegion {base len cells} : Keeps W s (u.putRegion base len cells) :=
  same (h.unpoison (base := base) (len := len))
theorem putSol {base bs} : Keeps W s (u.putSol base bs) := h.putRegion
theorem setHo {f} : Keeps W s (u.setHo f) := h.same
theorem loadPot : Keeps W s u.loadPot := h.w.w.w.w.w.w
theorem potWrite {f} (k : ∀ {b v}, Keeps W s v → Keeps W s (f b v)) : Keeps W s (u.potWrite f) := h.inc.ite (k h)
theorem potCommit {x} : Keeps W s (u.potCommit x) := h.potWrite (fun h1 => (h1.when (·.clampCount)).setHo.w.loadPot)
theorem execPotEntryCommit {t r x} : Answers W s (execPotEntryCommit t r x u) := h.cmdK (·.pageWrite (·.potCommit))
theorem execPotTagWrite {t r x} : Answers W s (execPotTagWrite t r x u) :=
  h.cmdK (·.pageWrite (·.potWrite (·.setHo.loadPot)))
theorem execPotCountWrite {t r x} : Answers W s (execPotCountWrite t r x u) :=
  h.cmdK (·.pageWrite (·.potWrite (fun h3 => (h3.when (·.clampCount)).setHo.loadPot)))
theorem hoShow : Keeps W s u.hoShow := h.putSol.setDword.setDword.setRaw
theorem setValues (hoi : .outImg ∈ W) {x bank} : Keeps W s (u.setValues x bank) := by
  unfold State.setValues
  extract_lets v1 fed rates v2 v3 v4 val v5 v6 v7 v8 v9
  have hput : Keeps W s v3 := (h.ite h.setHo).setHo.putSol.putSol
  have hdata : Keeps W s v4 := hput.same
  have hdone : Keeps W s v8 := (
    ((hdata.planMapCopy hoi).forN fun h => h.axisValue.ite h).forN (·.groupEvents)).w.clampData
  exact (hdone.ite hdone.w).setRaw
theorem copyPlan {buf p grade applyAt} : Keeps W s (u.copyPlan buf p grade applyAt) := h.putSol.putSol
theorem selectCont {instant} : Keeps W s (u.selectCont instant) := by
  unfold State.selectCont
  split
  exacts [h.setHo.copyPlan, h.setHo.raise]
theorem enforce (hoi : .outImg ∈ W) {p bank grade part} : Keeps W s (u.enforce p bank grade part) :=
  (h.setHo.w.w.w.w.wb.w.w.setValues hoi).hoShow
theorem applyDispatch (hoi : .outImg ∈ W) {p bank} : Keeps W s (u.applyDispatch p bank) := (h.w.setHo.enforce hoi).raise
theorem applyCont (hoi : .outImg ∈ W) {p part} : Keeps W s (u.applyCont p part) := by
  unfold State.applyCont
  split
  exacts [h, (h.enforce hoi).raise]
theorem contDue (hoi : .outImg ∈ W) : Keeps W s u.contDue := by
  unfold State.contDue
  split
  exacts [(h.applyCont hoi).ite (by split; exacts [h.copyPlan.applyCont hoi, h.setHo.raise]), h]
theorem enterSafe (hoi : .outImg ∈ W) {cause} : Keeps W s (u.enterSafe cause) :=
  ((h.setHo.w.w.w.w.w.w.w.setValues hoi).hoShow).raise
theorem goOn (hoi : .outImg ∈ W) {tail} : Keeps W s (u.goOn tail) := by
  unfold State.goOn
  split
  exacts [h, (h.enterSafe hoi).ite (by split; exacts [h.enterSafe hoi, ((h.w.when (·.w)).setValues hoi).hoShow])]
theorem noPlan (hoi : .outImg ∈ W) : Keeps W s u.noPlan :=
  ((h.setValues hoi).hoShow).ite ((have h1 := h.contDue hoi; (h1.goOn hoi).ite h1).ite (h.goOn hoi))
theorem reject (hoi : .outImg ∈ W) {status grade reason} : Keeps W s (u.reject status grade reason) :=
  have h1 := h.inc.w.raise; (h1.enterSafe hoi).ite (h1.noPlan hoi)
theorem accept (hoi : .outImg ∈ W) {p bank} : Keeps W s (u.accept p bank) :=
  have h1 := h.w.copyPlan;
  (have h2 := h1.w.setHo; ((h2.setDword.applyDispatch hoi).raise).ite (h2.noPlan hoi)).ite (
    (h1.noPlan hoi).ite (h1.applyDispatch hoi))
theorem applyInstant (hoi : .outImg ∈ W) : Keeps W s u.applyInstant := by
  unfold State.applyInstant
  refine (h.noPlan hoi).ite ?_
  extract_lets pub plan gone v
  have hv : Keeps W s v := h.setHo
  clear_value pub plan
  split
  · refine (hv.reject hoi).ite ((hv.reject hoi).ite ((hv.reject hoi).ite ?_))
    split
    · exact hv.reject hoi
    · exact hv.accept hoi
  · exact hv.reject hoi
theorem execApplyInstant (hoi : .outImg ∈ W) {t} : Answers W s (execApplyInstant t u) :=
  h.runS (fun h1 => h1.ite (h1.applyInstant hoi))
theorem stageInstant (hoi : .outImg ∈ W) : Keeps W s u.stageInstant :=
  (have h1 := h.contDue hoi; (h1.goOn hoi).ite h1).ite (h.goOn hoi)
theorem execStageBoundary (hoi : .outImg ∈ W) {t} : Answers W s (execStageBoundary t u) :=
  h.runS (fun h1 => h1.ite (h1.stageInstant hoi))
theorem execContApplied (hoi : .outImg ∈ W) {t} : Answers W s (execContApplied t u) :=
  h.runS (fun h1 => h1.ite (h1.contDue hoi))
theorem execStagePrepare {t} : Answers W s (execStagePrepare t u) :=
  h.runS (fun h1 => by split; exacts [h1, h1.setHo.putSol.putSol])
theorem latchTrips {mask} : Keeps W s (u.latchTrips mask) :=
  h.ite (have h1 := h.w.setHo.foldl (·.raise); (h1.ite h1.selectCont).hoShow)
theorem execTripSet {t r x} : Answers W s (execTripSet t r x u) := h.cmdS (·.pageWrite (·.latchTrips))
theorem execTripReqSample {t} : Answers W s (execTripReqSample t u) := h.runS (fun h1 => h1.ite h1.setHo.latchTrips)
theorem execTripStateClear {t r x} : Answers W s (execTripStateClear t r x u) := h.cmdS (·.pageWrite (·.w.setHo.hoShow))
theorem execHoEvtClear {t r x} : Answers W s (execHoEvtClear t r x u) := h.cmdK (·.pageWrite (·.w))

/-! ### The solver sequencer -/

theorem setDsq {f} : Keeps W s (u.setDsq f) := h.same
theorem setSlot {m x} : Keeps W s (u.setSlot m x) := by
  unfold State.setSlot
  split <;> exact h.setDsq
theorem showStby : Keeps W s u.showStby := h.w
theorem slotTo {m st} : Keeps W s (u.slotTo m st) := h.setSlot.showStby
theorem setInvalidated : Keeps W s u.setInvalidated := h.recur
theorem invalidate {m} : Keeps W s (u.invalidate m) := h.ite h.slotTo.setInvalidated
theorem predict : Keeps W s u.predict := (h.w.w.forN (·.w)).ite (h.w.w.forN (·.w))
theorem dropActive : Keeps W s u.dropActive := h.wb.w.w.slotTo.predict
theorem solBytes {bs} : Keeps W s (u.solBytes bs) := h.same
theorem touchResult {a} : Keeps W s (u.touchResult a) := h.w.ite (h.foldl (fun h1 => h1.w.ite h1))
theorem hostWord {a be x} : Keeps W s (u.hostWord a be x) :=
  h.inc.ite (
    h.unmapped.ite (
      have h1 := h.solBytes;
      have h2 := h1.invalidate.ite h1;
      have h3 := h2.invalidate.ite h2;
      have h4 := h3.dropActive.setInvalidated.ite h3;
      h4.touchResult.ite h4))
theorem execSolverSramHostWrite {t p addr words} : Answers W s (execSolverSramHostWrite t p addr words u) :=
  h.cmdM (·.foldl (fun h2 => (h2.gated.ite (h2.hinc.ite h2.hostWord)).ite ((h2.gated.ite h2.same).ite h2.unmapped)))
theorem regionWrite {i x} : Keeps W s (u.regionWrite i x) :=
  have h1 := h.lockViol;
  h1.inc.ite (
    h1.ite (by split; exacts [h1.take.ite (h1.take.dropActive.setInvalidated.ite h1.take.invalidate), h1.take]))
theorem execSetRegionWrite {t r reg x} : Answers W s (execSetRegionWrite t r reg x u) :=
  h.cmdK (·.pageWrite (·.regionWrite))
theorem nameSlot {m} : Keeps W s (u.nameSlot m) := h.setDsq.showStby
theorem slotCmd {m ok next} : Keeps W s (u.slotCmd m ok next) := have h1 := h.nameSlot; h1.inc.ite h1.slotTo
theorem execSetCheck {t r slot} : Answers W s (execSetCheck t r slot u) :=
  h.cmdK (·.pageWrite (fun h2 => (h2.ite h2.setRaw.setRaw.setRaw).slotCmd))
theorem execSetArm {t r slot} : Answers W s (execSetArm t r slot u) :=
  h.cmdK (·.pageWrite (fun h2 => (h2.slotTo.ite h2).slotCmd))
theorem execSetDisarm {t r slot} : Answers W s (execSetDisarm t r slot u) := h.cmdK (·.pageWrite (·.slotCmd))
theorem execSetClear {t r slot} : Answers W s (execSetClear t r slot u) := h.cmdK (·.pageWrite (·.slotCmd))
theorem execSetCmdNone {t r slot} : Answers W s (execSetCmdNone t r slot u) := h.cmdK (·.pageWrite (·.nameSlot))
theorem execSetCheckDone {t slot} : Answers W s (execSetCheckDone t slot u) :=
  h.runK (fun h1 =>
    h1.ite (
      have h2 := h1.w.w.w;
      (h2.setSlot.showStby.recur.chainSend.sendSlots.ite (
        h2.setSlot.showStby.recur.chainSend.ite h2.setSlot.showStby.recur)).ite h2.slotTo.recur))
theorem showLanes : Keeps W s u.showLanes := h.w.w.w
theorem redeal {l} : Keeps W s (u.redeal l) := by
  unfold State.redeal
  split
  exacts [h, h.setDsq]
theorem withdraw {l cause} : Keeps W s (u.withdraw l cause) := by
  unfold State.withdraw
  refine h.ite ?_
  extract_lets spare v x y
  have hv : Keeps W s v := h.setDsq
  have hx : Keeps W s x := by
    cases hs : spare with
    | none => simpa only [x, hs] using hv
    | some lane => simpa only [x, hs] using hv.w.w
  exact (hx.w.ite hx).w.redeal
theorem retireLane {w} : Keeps W s (u.retireLane w) := by
  unfold State.retireLane
  extract_lets l v x y z
  have hx : Keeps W s x := by
    unfold x
    split
    · exact h.w.w.w.w.ite h.w.w.w
    · exact h.w.w.w
  exact hx.setDsq.showLanes.raise.raise.predict.setRaw
theorem retirements : Keeps W s u.retirements := h.foldl (·.retireLane)
theorem setFails {l n} : Keeps W s (u.setFails l n) :=
  (h.w (f := DSA.FAIL_COUNT) (x := n) (inst := l) (i := 0)).same
theorem charge {l} : Keeps W s (u.charge l) := have h1 := h.setFails; h1.withdraw.ite h1
theorem commitLane {lane} : Keeps W s (u.commitLane lane) := by
  unfold State.commitLane
  split
  · exact h
  · refine h.ite ?_
    extract_lets v p x
    have hv : Keeps W s v := h.setDsq
    have hx : Keeps W s x := hv.same
    exact hx.writeRec
theorem execRetireCommit {t lane} : Answers W s (execRetireCommit t lane u) := h.runK (·.commitLane)
theorem execFailCountDecay {t} : Answers W s (execFailCountDecay t u) := h.cmdK (·.forN (fun h2 => h2.setFails.ite h2))
theorem execSpareSelftest {t} : Answers W s (execSpareSelftest t u) := h.runK (fun h1 => h1.setDsq.ite h1)
theorem execSpareSelftestDone {t lane pass} : Answers W s (execSpareSelftestDone t lane pass u) :=
  h.runK (fun h1 => h1.ite (have h2 := h1.setDsq.wb; h2.ite h2.raise.withdraw.w.w.showLanes))
theorem execRetireCmd {t r lane} : Answers W s (execRetireCmd t r lane u) :=
  h.cmdK (·.pageWrite (fun h2 => h2.withdraw.ite h2.lockViol))
theorem execConflictWindow {t frac} : Answers W s (execConflictWindow t frac u) :=
  h.runK (fun h1 => (h1.w.w.inc.ite h1.w.w.w).setRaw)
theorem execDsqCtrClr {t r} : Answers W s (execDsqCtrClr t r u) := h.cmdK (·.pageWrite (·.foldl (·.w)))
theorem setStatus {d st} : Keeps W s (u.setStatus d st) := h.w.ite (h.w.ite h.w)
theorem abandonDesc {d} : Keeps W s (u.abandonDesc d) := have h1 := h.inc.setStatus.raise; h1.setHo.ite h1
theorem showRun : Keeps W s u.showRun := by
  unfold State.showRun
  split
  exacts [h.w.w.w.w, h.w.w.w.ite (h.w.w.ite h.w.w.w)]
theorem abandonRun : Keeps W s u.abandonRun := by
  unfold State.abandonRun
  split
  exacts [h, h.abandonDesc.setDsq.showRun]
theorem abandonAll : Keeps W s u.abandonAll := have h1 := h.abandonRun; h1.ite ((h1.foldl (·.abandonDesc)).setDsq)
theorem dropMisfits : Keeps W s u.dropMisfits :=
  have h1 := h.dropActive.ite h; (h1.dropActive.setInvalidated.ite h1).foldl (fun h2 => h2.invalidate.ite h2)
theorem makeActive {x} : Keeps W s (u.makeActive x) := by
  unfold State.makeActive
  extract_lets y old v1 v2 v3 b v4 p v5
  have hset : Keeps W s v4 := (h.slotTo.ite h).slotTo.wb.wb.w.w.w.setHo
  have hcfg : Keeps W s v5 := hset.same
  exact hcfg.showStby.predict.setRaw
theorem switchSet : Keeps W s u.switchSet := h.setRaw.ite h.setRaw.makeActive.sendSlots
theorem snapshot : Keeps W s u.snapshot :=
  have h1 := h.abandonAll.w.setDsq.setHo;
  h1.ite (have h2 := h1.dropMisfits.switchSet; (h2.clampData.w.ite h2).w.putRegion.setDsq)
theorem execSnapshotInstant {t} : Answers W s (execSnapshotInstant t u) := h.runS (fun h1 => h1.snapshot.ite h1)
theorem applyLive : Keeps W s u.applyLive := have h1 := h.same.w.clampData; (h1.ite h1.w).setDsq.setRaw
theorem setRun {f} : Keeps W s (u.setRun f) := h.setDsq
theorem execDescWindowOpen {t} : Answers W s (execDescWindowOpen t u) :=
  h.runS (fun h1 =>
    h1.ite (have h2 := (h1.ite h1.applyLive).setDsq; h2.abandonDesc.ite h2.clampData.setDsq.retirements.showRun))
theorem endIteration : Keeps W s u.endIteration := by
  unfold State.endIteration
  split
  exacts [h, h.setDsq.retirements.showRun]
theorem endPhase : Keeps W s u.endPhase := by
  unfold State.endPhase
  split
  · exact h
  · split
    split
    · exact h.setRun.showRun
    · exact h.setRun.showRun
    · exact h.setRun.ite h.endIteration
    · exact h.setRun
    · exact h
theorem toFinal {f} : Keeps W s (u.toFinal f) := h.setRun.showRun
theorem blockPass {l blk r ends} : Keeps W s (u.blockPass l blk r ends) :=
  have h1 := h.inc.setRun.foldl (·.charge); h1.endPhase.ite h1
theorem blockFail {l stage blk r} : Keeps W s (u.blockFail l stage blk r) := by
  unfold State.blockFail
  extract_lets v tried
  have hv : Keeps W s v := h.setRun.raise.raise
  split
  · exact hv.inc.inc.setRun
  · exact hv.toFinal
theorem execBlockDone {t lane b res endsPhase} : Answers W s (execBlockDone t lane b res endsPhase u) :=
  h.runK (fun h1 => by
      split
      · exact h1
      · exact h1.ite (have h2 := h1.w.when (·.setRun.showRun.w); h2.toFinal.ite (h2.blockPass.ite h2.blockFail)))
theorem execSvuBatchDone {t agree} : Answers W s (execSvuBatchDone t agree u) :=
  h.runK (fun h1 =>
    by split; exacts [h1, h1.ite ((have h2 := h1.setRun; h2.endIteration.ite h2).ite (h1.toFinal.ite h1.setRun))])
theorem deadline : Keeps W s u.deadline := by
  unfold State.deadline
  split
  exacts [h, h.ite h.toFinal.raise]
theorem execIterDeadline {t} : Answers W s (execIterDeadline t u) :=
  h.runK (fun h1 => by split; exacts [h1, h1.ite h1.deadline])
theorem resultEvents {r x st flags elapsed} : Keeps W s (u.resultEvents r x st flags elapsed) :=
  have h1 := ((h.raise.same.ite h.raise).ite (h.raise.ite h.raise)).setRaw.setRaw; h1.raise.ite h1
theorem estimate {b r st} : Keeps W s (u.estimate b r st) := h.setDsq.ite h.setDsq
theorem handOver {b r hdr st flags z} : Keeps W s (u.handOver b r hdr st flags z) := h.setHo.setDsq.ite h.setHo
theorem publishRun : Keeps W s u.publishRun := by
  unfold State.publishRun
  extract_lets v b
  have hv : Keeps W s v := h.deadline
  split
  · exact hv
  · exact
      have hput := ((hv.putSol.putSol.w.w.setStatus).when (·.w)).inc.inc
      (hput.estimate.ite hput.handOver).setDsq.showRun.resultEvents
theorem execDescWindowEnd {t} : Answers W s (execDescWindowEnd t u) :=
  h.runS (fun h1 => by split; exacts [h1, h1.ite h1.publishRun])
theorem capDrop : Keeps W s u.capDrop := (h.w.foldl (fun h1 => h1.slotTo.ite h1)).recur

/-! ### The event and interrupt controller -/

theorem setEng {e x} : Keeps W s (u.setEng e x) := h.same
theorem setSrc {n x} : Keeps W s (u.setSrc n x) := h.same
theorem routeSource {src} : Keeps W s (u.routeSource src) :=
  h.ite (have h1 := h.when (·.inc); by split; exacts [h1, h1.w.w.setEng])
theorem dropOffer {e} : Keeps W s (u.dropOffer e) := h.w.w.setEng
theorem route : Keeps W s u.route := (h.forN (fun h1 => h1.ite h1.dropOffer)).foldl (·.routeSource)
theorem latch {n} : Keeps W s (u.latch n) := h.ite (by split; exacts [h.setSrc, h.inc, h.setSrc.inc, h.inc])
theorem claim {n e} : Keeps W s (u.claim n e).1 := by
  unfold State.claim
  extract_lets live src v x y
  have hv : Keeps W s v := h.setSrc
  have hx : Keeps W s x := hv.same
  exact hx.when (·.inc)
theorem complete {n} : Keeps W s (u.complete n) := by
  unfold State.complete
  extract_lets x
  split
  · exact h.setSrc
  · exact h.setSrc
  · exact h
theorem redeliver {n} : Keeps W s (u.redeliver n) := by
  unfold State.redeliver
  extract_lets x
  split
  · exact h.setSrc
  · exact h.setSrc
  · exact h
theorem execEicSourceEdge {t src} : Answers W s (execEicSourceEdge t src u) := h.runK (fun h1 => h1.same.latch.ite h1)
theorem execEicRoute {t} : Answers W s (execEicRoute t u) := h.runK (·.route)
theorem execModIntervalEnd {t grp} : Answers W s (execModIntervalEnd t grp u) := h.runK (fun h1 => h1.same.ite h1)
theorem execSetSrc {t r src} : Answers W s (execSetSrc t r src u) :=
  h.cmdK (·.pageWrite (fun h2 => (h2.ite h2.offerEic).offerRec))
theorem srcCfg {n x} : Keeps W s (u.srcCfg n x) :=
  have h1 := h.w.w.wb.when (·.clampCount);
  h1.ite (by split; exacts [h1.setSrc.forN (fun h3 => h3.dropOffer.ite h3), h1.setSrc, h1])
theorem execSrcCfgWrite {t r src x} : Answers W s (execSrcCfgWrite t r src x u) := h.cmdK (·.pageWrite (·.srcCfg))
theorem execPendingAged {t src} : Answers W s (execPendingAged t src u) := h.runK (fun h1 => h1.w.raise.ite h1)
theorem execEicCtrClr {t r} : Answers W s (execEicCtrClr t r u) := h.cmdK (·.pageWrite (·.rstF.rstF.rstF.rstF))

/-! ### The logic engines -/

theorem setBankAt {e lvl b} : Keeps W s (u.setBankAt e lvl b) := h.setEng
theorem setBank {e b} : Keeps W s (u.setBank e b) := h.setBankAt
theorem showEng {e} : Keeps W s (u.showEng e) := by
  unfold State.showEng
  split <;> exact h.w.w
theorem runState {e x} : Keeps W s (u.runState e x) := h.w.raise.ite h.w
theorem progErr {e f flag code} : Keeps W s (u.progErr e f flag code) := by
  unfold State.progErr
  extract_lets p b v
  have hv : Keeps W s v := by
    unfold v
    split
    · exact h.setBank
    · exact h
  exact hv.inc.raise
theorem addrErr {e} : Keeps W s (u.addrErr e) := h.progErr
theorem setPins64 {f x} : Keeps W s (u.setPins64 f x) := h.w.w
theorem execGioInputChange {t pin lvl} : Answers W s (execGioInputChange t pin lvl u) :=
  h.runK (fun h1 => h1.ite (have h2 := h1.setPins64; h2.ite (h2.forN (fun h3 => h3.raise.ite h3))))
theorem startTask {e i lvl rel claim} : Keeps W s (u.startTask e i lvl rel claim) :=
  have h1 := h.setEng.setEng.setBankAt; (h1.setEng.ite h1).showEng
theorem runWaiting {e} : Keeps W s (u.runWaiting e) := h.ite (by split; exacts [h.setEng.startTask.ite h, h])
theorem enter {e} : Keeps W s (u.enter e) :=
  h.ite (have h1 := h.w.w.setEng.claim; by split; exacts [h1.startTask, h1.complete.progErr.runWaiting])
theorem execTaskEntry {t e} : Answers W s (execTaskEntry t e u) := h.runK (·.enter)
theorem execTaskRelease {t e task} : Answers W s (execTaskRelease t e task u) :=
  h.runK (fun h1 => h1.ite (have h2 := h1.setEng; h2.setEng.inc.raise.ite h2.setEng.runWaiting))
theorem execFreeCycleStart {t e} : Answers W s (execFreeCycleStart t e u) :=
  h.runK fun h1 => by
    dsimp only
    split
    · exact h1.ite h1.setEng.runWaiting
    · exact h1
theorem setRword (hrm : .retMem ∈ W) {i x} : Keeps W s (u.setRword i x) := h.put hrm
theorem setMemWord (hrm : .retMem ∈ W) {area idx x} : Keeps W s (u.setMemWord area idx x) := by
  unfold State.setMemWord
  split
  exacts [h.setDword, h.setRword hrm, h.setDword, h.setDword]
theorem execMemDataWrite (hrm : .retMem ∈ W) {t r e x} : Answers W s (execMemDataWrite t r e x u) :=
  h.cmdK (·.pageWrite (fun h2 => h2.hinc.ite (h2.setMemWord hrm)))
theorem applyInits (hrm : .retMem ∈ W) {h' flag} : Keeps W s (u.applyInits h' flag) :=
  h.foldl (·.foldl (fun h2 => (h2.setMemWord hrm).ite h2))
theorem coldWords (hrm : .retMem ∈ W) {h'} : Keeps W s (u.coldWords h') := (h.put hrm).applyInits hrm
theorem warmWords (hrm : .retMem ∈ W) {h'} : Keeps W s (u.warmWords h') :=
  ((h.foldl (·.setDword.setDword.setDword)).foldl (·.setDword.setDword)).applyInits hrm
theorem abandonTasks {e again} : Keeps W s (u.abandonTasks e again) :=
  (h.foldl (fun h1 => (h1.redeliver.ite h1.complete).ite h1)).setEng.showEng
theorem chgTo {h' x} : Keeps W s (u.chgTo h' x) := h.w
theorem markOrphans (hfo : .forces ∈ W) : Keeps W s u.markOrphans := h.ite ((h.put hfo).wb.raise)
theorem progBegin : Keeps W s u.progBegin := h.same.eraseMarker
theorem switchImage (hfo : .forces ∈ W) (hrm : .retMem ∈ W) {h'} : Keeps W s (u.switchImage h') := by
  unfold State.switchImage
  split
  exacts [h.chgTo, (((h.setEng.setEng.w.w.w.applyInits hrm).progBegin.chgTo.markOrphans hfo).raise).raise]
theorem trySwitch (hfo : .forces ∈ W) (hrm : .retMem ∈ W) {h'} : Keeps W s (u.trySwitch h') :=
  (h.switchImage hfo hrm).ite h
theorem startProgram (hfo : .forces ∈ W) (hrm : .retMem ∈ W) {e info cold} : Keeps W s (u.startProgram e info cold) := by
  unfold State.startProgram
  extract_lets p v1 v2 n eng v3 own v4 st v5 v6
  have hswitched : Keeps W s v1 := h.abandonTasks.trySwitch hfo hrm
  have hwords : Keeps W s v2 := by
    unfold v2
    split
    · exact hswitched.coldWords hrm
    · exact hswitched.warmWords hrm
    · exact hswitched
  have hrun : Keeps W s v5 := hwords.setEng.setEng.runState.w
  have hstarted : Keeps W s v6 := by
    unfold v6
    clear_value st
    split
    · exact hrun.startTask
    · exact hrun
  exact hstarted.raise.showEng
theorem stopProgram (hfo : .forces ∈ W) (hrm : .retMem ∈ W) {h'} : Keeps W s (u.stopProgram h') :=
  h.abandonTasks.runState.trySwitch hfo hrm
theorem execRestartWarm (hfo : .forces ∈ W) (hrm : .retMem ∈ W) {t r e} : Answers W s (execRestartWarm t r e u) :=
  h.cmdK (·.pageWrite (fun h2 => (h2.startProgram hfo hrm).ite h2))
theorem execRestartCold (hfo : .forces ∈ W) (hrm : .retMem ∈ W) {t r e} : Answers W s (execRestartCold t r e u) :=
  h.cmdK (·.pageWrite (fun h2 => (h2.startProgram hfo hrm).ite h2))
theorem execRestartStop (hfo : .forces ∈ W) (hrm : .retMem ∈ W) {t r e} : Answers W s (execRestartStop t r e u) :=
  h.cmdK (·.pageWrite (·.stopProgram hfo hrm))
theorem execChgCopy {t r e} : Answers W s (execChgCopy t r e u) := h.cmdK (·.pageWrite (fun h2 => h2.chgTo.ite h2))
theorem execChgCopyDone (hpm : .progMem ∈ W) {t e} : Answers W s (execChgCopyDone t e u) :=
  h.runK (fun h1 => h1.ite (((h1.put hpm).forN (fun h2 => h2.chgTo.setEng.ite h2)).chgTo))
theorem execChgCheck {t r e} : Answers W s (execChgCheck t r e u) := h.cmdK (·.pageWrite (fun h2 => h2.chgTo.ite h2))
theorem execChgCheckDone {t e} : Answers W s (execChgCheckDone t e u) :=
  h.runK (fun h1 => h1.ite (h1.w.w.setEng.chgTo.ite h1.w.w.chgTo.raise))
theorem execChgArm (hfo : .forces ∈ W) (hrm : .retMem ∈ W) {t r e} : Answers W s (execChgArm t r e u) :=
  h.cmdK (·.pageWrite (fun h2 => (h2.chgTo.trySwitch hfo hrm).ite h2))
theorem execChgDisarm {t r e} : Answers W s (execChgDisarm t r e u) := h.cmdK (·.pageWrite (fun h2 => h2.chgTo.ite h2))
theorem chgClear {h'} : Keeps W s (u.chgClear h') := h.chgTo.setEng
theorem execChgClear {t r e} : Answers W s (execChgClear t r e u) := h.cmdK (·.pageWrite (·.chgClear))
theorem execChgRegionWrite {t r e reg x} : Answers W s (execChgRegionWrite t r e reg x u) :=
  h.cmdK (fun h1 => by split; exacts [h1.chgClear, h1.pageWrite (·.take.chgClear), h1.pageWrite (·.take.chgClear)])
theorem execProgSlotCommitted {t} : Answers W s (execProgSlotCommitted t u) :=
  h.runK (fun h1 => h1.ite h1.same.commitMarker)
theorem finishTask {e lvl} : Keeps W s (u.finishTask e lvl) := by
  unfold State.finishTask
  extract_lets p b us x
  clear_value b
  split
  · exact h
  · extract_lets v1 kind v2 v3
    have hdone : Keeps W s v2 := h.setEng.complete.ite h.setEng
    have hran : Keeps W s v3 := hdone.w.ite hdone
    exact (((hran.w.w.setEng).ite hran.w.w.setEng.setPins64).ite hran)
theorem endTask (hfo : .forces ∈ W) (hrm : .retMem ∈ W) {e} : Keeps W s (u.endTask e) := by
  unfold State.endTask
  extract_lets lvl v1 b v2 x v3 v4 offer since wait
  have hdone : Keeps W s v2 := h.finishTask.setBankAt
  have hshown : Keeps W s v3 := hdone.setEng.showEng
  have hfree : Keeps W s v4 := hshown.trySwitch hfo hrm
  clear_value v4 offer wait
  split
  · exact hfree.enter.ite hfree.runWaiting
  · exact hfree.enter
  · exact hfree.runWaiting
theorem setReserve (hfo : .forces ∈ W) (hrm : .retMem ∈ W) {q} : Keeps W s (u.setReserve q) :=
  have h1 := h.w.forN (·.wb); (h1.stopProgram hfo hrm).ite h1
theorem failEngine (hfo : .forces ∈ W) (hrm : .retMem ∈ W) {e} : Keeps W s (u.failEngine e) :=
  have h1 := (h.when (·.setReserve hfo hrm)).abandonTasks.runState;
  (((h1.w.setEng.setEng.w.w.setEng.foldl (fun h3 => h3.setOwner.ite h3)).startProgram hfo hrm).raise.raise).ite h1
theorem execWatchdog (hfo : .forces ∈ W) (hrm : .retMem ∈ W) {t e} : Answers W s (execWatchdog t e u) :=
  h.runK fun h1 => by
    dsimp only
    split
    · exact h1
    · exact h1.raise.failEngine hfo hrm
theorem reloadProg (hpm : .progMem ∈ W) {e} : Keeps W s (u.reloadProg e) := h.put hpm
theorem execEngineFail (hfo : .forces ∈ W) (hpm : .progMem ∈ W) (hrm : .retMem ∈ W) {t e cause} :
    Answers W s (execEngineFail t e cause u) :=
  h.runK (fun h1 =>
    by split; exacts [(h1.reloadProg hpm).failEngine hfo hrm, h1.failEngine hfo hrm, h1.failEngine hfo hrm])
theorem execEngineTestDone (hfo : .forces ∈ W) (hrm : .retMem ∈ W) {t e pass} :
    Answers W s (execEngineTestDone t e pass u) :=
  h.runK (fun h1 =>
    h1.ite (
      have h2 := h1.setEng;
      (have h3 := h2.runState; (h3.setReserve hfo hrm).ite h3).ite (
        have h4 := h2.w.writeRec; ((h4.setReserve hfo hrm).ite h4).raise)))
theorem forceRec {f r began} : Keeps W s (u.forceRec f r began) := h.raise
theorem showForces : Keeps W s u.showForces := h.w.w.wb.w.wb.wb
theorem endForce (hfo : .forces ∈ W) {i r} : Keeps W s (u.endForce i r) := ((h.put hfo).forceRec).ite h
theorem commitForce (hfo : .forces ∈ W) {r} : Keeps W s (u.commitForce r) :=
  (((h.ite (h.endForce hfo)).put hfo).forceRec).foldl (·.endForce hfo)
theorem execForceOnWrite (hfo : .forces ∈ W) {t r on} : Answers W s (execForceOnWrite t r on u) :=
  h.cmdK (·.pageWrite (fun h2 => h2.lockViol.ite (((h2.commitForce hfo).showForces).ite ((h2.endForce hfo).showForces))))
theorem execForceClrAll (hfo : .forces ∈ W) {t r} : Answers W s (execForceClrAll t r u) :=
  h.cmdK (·.pageWrite (fun h2 => h2.lockViol.ite ((h2.foldl (·.endForce hfo)).showForces)))
theorem capture : Keeps W s u.capture := by
  unfold State.capture
  refine h.raise.ite ?_
  extract_lets n v c
  have hv : Keeps W s v := h.w
  exact hv.same
theorem execRetCapture {t} : Answers W s (execRetCapture t u) := h.runK (fun h1 => h1.ite h1.capture)
theorem execLgeCtrClr {t r e} : Answers W s (execLgeCtrClr t r e u) :=
  h.cmdK (·.pageWrite (fun h2 => (h2.foldl (·.w)).setEng))

/-! ### Timekeeping -/

theorem setTmk {f} : Keeps W s (u.setTmk f) := h.same
theorem setOut {o x} : Keeps W s (u.setOut o x) := h.setTmk
theorem stepOut {o} : Keeps W s (u.stepOut o) := (h.setOut.ite (h.setOut.w.ite (h.w.raise.ite h))).ite h
theorem stepLoops (hcl : .clusters ∈ W) (hlo : .loops ∈ W) {moved} : Keeps W s (u.stepLoops moved) :=
  h.trans fun p hp => by
    cases p with
    | clusters => exact absurd hcl hp
    | loops => exact absurd hlo hp
    | _ => exact rfl
theorem stepField (hpu : .pulse ∈ W) (hpw : .pwm ∈ W) (hsd : .sd ∈ W) {moved} : Keeps W s (u.stepField moved) :=
  h.trans fun p hp => by
    cases p with
    | sd => exact absurd hsd hp
    | pulse => exact absurd hpu hp
    | pwm => exact absurd hpw hp
    | _ => exact rfl
theorem stepRest {moved} : Keeps W s (u.stepRest moved) := by
  unfold State.stepRest
  exact setTmk h.same
theorem stepBy (hcl : .clusters ∈ W) (hlo : .loops ∈ W) (hpu : .pulse ∈ W) (hpw : .pwm ∈ W) (hsd : .sd ∈ W) {d cause} :
    Keeps W s (u.stepBy d cause) := by
  unfold State.stepBy
  extract_lets old total v1 ns v2 cut v3 moved win runs v4 v5
  have hnow : Keeps W s v1 := h.same
  have hpulse : Keeps W s v2 := hnow.setTmk
  have hcut : Keeps W s v3 := hpulse.same
  have hruns : Keeps W s v4 := hcut.same
  have hmoved : Keeps W s v5 := (((hruns.stepLoops hcl hlo).stepField hpu hpw hsd).stepRest).forN (·.stepOut)
  exact hmoved.raise
theorem adjToF : Keeps W s u.adjToF := h.wi
theorem servo {e} : Keeps W s (u.servo e) := (h.w.setTmk.ite h.w).ite h.w.wi.wi
theorem offset {ref e cls ts} : Keeps W s (u.offset ref e cls ts) :=
  have h1 := h.wi.w.setTmk; have h2 := (h1.w.w.raise.ite h1).servo.setTmk; h2.w.w.w.w.w.setTmk.raise.ite h2
theorem afterPulse {label} : Keeps W s (u.afterPulse label) := (h.w.w.ite h).setTmk
theorem gnssPulse : Keeps W s u.gnssPulse := by
  unfold State.gnssPulse
  extract_lets tau label v now x
  have hv : Keeps W s v := h.setTmk.afterPulse
  have hx : Keeps W s x := hv.setTmk
  split
  · exact hv
  clear_value label
  · refine h.inc.ite ?_
    split
    · exact (hx.offset.ite hx).ite hv.inc.setTmk
    · exact hv.inc.setTmk
theorem execGnssPulse {t} : Answers W s (execGnssPulse t u) := h.runK (·.gnssPulse)
theorem execTodSentence {t z} : Answers W s (execTodSentence t z u) :=
  h.runK fun h1 => h1.ite (h1.inc.raise.ite (by
    dsimp only
    split
    · exact h1.clampData
    · exact h1.clampData.setTmk.ite h1.clampData))
theorem refLost : Keeps W s u.refLost :=
  have h1 := h.w.setTmk; (h1.w.ite (h1.w.w.w.w.setTmk.adjToF.ite (h1.w.w.w.w.w.setTmk.adjToF.ite h1.w))).raise
theorem execRefMiss {t} : Answers W s (execRefMiss t u) :=
  h.runK (fun h1 => h1.ite (have h2 := h1.setTmk; h2.refLost.ite h2))
theorem execTimeStep (hcl : .clusters ∈ W) (hlo : .loops ∈ W) (hpu : .pulse ∈ W) (hpw : .pwm ∈ W) (hsd : .sd ∈ W) {t} :
    Answers W s (execTimeStep t u) :=
  h.runK (fun h1 => by split; exacts [h1, h1.setTmk.stepBy hcl hlo hpu hpw hsd])
theorem execHoldDegraded {t} : Answers W s (execHoldDegraded t u) := h.runK (fun h1 => h1.w.w.setTmk.raise.ite h1)
theorem hostStep (hcl : .clusters ∈ W) (hlo : .loops ∈ W) (hpu : .pulse ∈ W) (hpw : .pwm ∈ W)
    (hsd : .sd ∈ W) {d cause} : Keeps W s (u.hostStep d cause) :=
  (h.setTmk.w.ite h.setTmk).stepBy hcl hlo hpu hpw hsd
theorem execTimeSet (hcl : .clusters ∈ W) (hlo : .loops ∈ W) (hpu : .pulse ∈ W) (hpw : .pwm ∈ W) (hsd : .sd ∈ W) {t r} :
    Answers W s (execTimeSet t r u) :=
  h.cmdK (·.pageWrite (fun h2 => h2.inc.ite (h2.hostStep hcl hlo hpu hpw hsd)))
theorem execTimeAdd (hcl : .clusters ∈ W) (hlo : .loops ∈ W) (hpu : .pulse ∈ W) (hpw : .pwm ∈ W) (hsd : .sd ∈ W) {t r} :
    Answers W s (execTimeAdd t r u) :=
  h.cmdK (·.pageWrite (fun h2 => h2.inc.ite (h2.hostStep hcl hlo hpu hpw hsd)))
theorem execAdjManWrite {t r x} : Answers W s (execAdjManWrite t r x u) :=
  h.cmdK (·.pageWrite (fun h2 => have h3 := h2.wi.when (·.clampCount); h3.wi.adjToF.ite h3))
theorem setUtcOffset {x} : Keeps W s (u.setUtcOffset x) :=
  (h.w (f := TMK.UTC_OFFSET) (x := x) (inst := 0) (i := 0)).same
theorem execUtcDayEnd {t} : Answers W s (execUtcDayEnd t u) :=
  h.runK (fun h1 => have h2 := h1.w.w.ite h1; h2.ite (h2.setUtcOffset.ite (h2.setUtcOffset.ite h2)))
theorem gmRole : Keeps W s u.gmRole := h.ite h.wb.raise
theorem execPtpAnnounceRx {t port ds} : Answers W s (execPtpAnnounceRx t port ds u) :=
  h.runK (fun h1 => h1.inc.ite (h1.ite h1.setTmk.gmRole))
theorem execForeignMasterExpiry {t port} : Answers W s (execForeignMasterExpiry t port u) := h.runK (·.setTmk.gmRole)
theorem ptpSend {port m} : Keeps W s (u.ptpSend port m) := h.setTmk
theorem ptpFollow {port m} : Keeps W s (u.ptpFollow port m) := h.setTmk
theorem execPtpSyncTx {t port} : Answers W s (execPtpSyncTx t port u) :=
  h.runK (fun h1 => (have h2 := h1.ptpSend; h2.ptpFollow.ite h2).ite h1)
theorem execPtpAnnounceTx {t port} : Answers W s (execPtpAnnounceTx t port u) := h.runK (fun h1 => h1.ptpSend.ite h1)
theorem execPtpDelayReqRx {t port q} : Answers W s (execPtpDelayReqRx t port q u) :=
  h.runK (fun h1 =>
    h1.inc.ite (
      h1.ite (
        h1.inc.ite (
          h1.ite (
            h1.ite (
              have h2 := h1.ite h1.setTmk;
              h2.inc.raise.ite (
                have h3 := h2.setTmk;
                (have h4 := h3.fresh.ptpSend; h4.ptpFollow.ite h4).ite (have h5 := h3.ptpSend; h5.ite h5.ptpSend))))))))
theorem execPtpPdelayReqTx {t port} : Answers W s (execPtpPdelayReqTx t port u) :=
  h.runK (fun h1 => h1.setTmk.ptpSend.ite h1)
theorem execPtpPdelayRespRx {t port t2 t3} : Answers W s (execPtpPdelayRespRx t port t2 t3 u) :=
  h.runK (fun h1 => h1.inc.ite (by split; exacts [h1, h1.setTmk]))
theorem execPtpEventForward {t inp out kind arrival corr} :
    Answers W s (execPtpEventForward t inp out kind arrival corr u) :=
  h.runK (fun h1 => h1.inc.ite (h1.ite h1.ptpSend))
theorem execPulseArm {t r o} : Answers W s (execPulseArm t r o u) :=
  h.cmdK (·.pageWrite fun h1 => by
    dsimp only
    split
    · exact h1.setOut.w.raise.ite h1.setOut.w
    · exact h1.setOut.w
    · exact h1)
theorem execPulseDisarm {t r o} : Answers W s (execPulseDisarm t r o u) := h.cmdK (·.pageWrite (·.setOut.w))
theorem execPulseFire {t o} : Answers W s (execPulseFire t o u) :=
  h.runK (fun h1 => ((h1.setOut.w.raise.ite h1.setOut).ite h1.setOut.w.inc.raise).ite h1)
theorem execPulseEnd {t o} : Answers W s (execPulseEnd t o u) :=
  h.runK (fun h1 => (have h2 := h1.setOut; h2.w.ite h2).ite h1)
theorem setCapQ {i q} : Keeps W s (u.setCapQ i q) := h.setTmk.w
theorem execCaptureEdge {t i fall} : Answers W s (execCaptureEdge t i fall u) :=
  h.runK (fun h1 => (h1.setCapQ.raise.ite h1.inc.raise).ite h1)
theorem latchWord {r pg off x} : Keeps W s (u.latchWord r pg off x) := h.setPx
theorem execCapNsRead {t r i} : Answers W s (execCapNsRead t r i u) := h.cmdK (·.pageRead (·.latchWord.latchWord.reply))
theorem execCapSecHiRead {t r i} : Answers W s (execCapSecHiRead t r i u) := h.cmdK (·.pageRead (·.setPx.setCapQ.reply))
theorem execTbNsRead {t r} : Answers W s (execTbNsRead t r u) := h.cmdK (·.pageRead (·.latchWord.latchWord.reply))
theorem execTmkCtrClr {t r} : Answers W s (execTmkCtrClr t r u) := h.cmdK (·.pageWrite (·.foldl (·.rstF)))

/-! ### The chain and the pair -/

theorem regroup : Keeps W s u.regroup := have h1 := h.setDch.w.w.w.w.w.w; h1.dchEvt.ite (h1.dchEvt.ite h1)
theorem propose {table} : Keeps W s (u.propose table) := h.setDch.chainSend
theorem claimBind {addr serial} : Keeps W s (u.claimBind addr serial) := h.propose
theorem claimStep : Keeps W s u.claimStep := by
  unfold State.claimStep
  extract_lets free un claims v x y
  have hv : Keeps W s v := h.setDch
  have hx : Keeps W s x := hv.setRaw
  refine Keeps.ite ?_ hv.setRaw
  clear_value x free un
  split
  · exact hx.claimBind.ite hx
  · exact hx
theorem settle : Keeps W s u.settle := h.ite (h.setDch.ite ((h.setDch.setDch.foldl (·.dchEvt)).regroup.claimStep))
theorem beginRound : Keeps W s u.beginRound := h.setDch.w.chainSend
theorem chainPortTo {up ok} : Keeps W s (u.chainPortTo up ok) :=
  h.ite (have h1 := h.wb.dchEvt; (h1.ite h1.inc.fresh.setDch).beginRound)
theorem execChainLinkChange {t up linked} : Answers W s (execChainLinkChange t up linked u) :=
  h.runK (·.settle.chainPortTo)
theorem execCreditTimeout {t up} : Answers W s (execCreditTimeout t up u) := h.runK (·.settle.chainPortTo)
theorem execLinkRetrain {t up ok} : Answers W s (execLinkRetrain t up ok u) :=
  h.runK (fun h1 => h1.ite h1.settle.chainPortTo)
theorem execHello {t y} : Answers W s (execHello t y u) :=
  h.runK (fun h1 =>
    h1.ite (have h2 := h1.settle.setDch; have h3 := (h2.ite h2.beginRound).regroup; (h3.ite h3.dchEvt).claimStep))
theorem execBuild {t r} : Answers W s (execBuild t r u) :=
  h.cmdK (·.pageWrite (fun h2 => have h3 := h2.settle; h3.inc.ite h3.propose))
theorem vacate {a} : Keeps W s (u.vacate a) := h.w.claimStep.ite h
theorem execVacate {t r} : Answers W s (execVacate t r u) :=
  h.cmdK (·.pageWrite (fun h2 => have h3 := h2.settle; h3.vacate.ite h3.chainSend))
theorem execClaimAccept {t r} : Answers W s (execClaimAccept t r u) :=
  h.cmdK (·.pageWrite (fun h2 => have h3 := h2.settle; h3.claimBind.ite h3.inc))
theorem execVacantExpiry {t addr} : Answers W s (execVacantExpiry t addr u) :=
  h.runK fun h1 => by
    dsimp only
    split
    · exact h1.settle
    · exact h1.settle.ite h1.settle.vacate
theorem execBindTableCommit {t} : Answers W s (execBindTableCommit t u) :=
  h.runK fun h1 => by
    dsimp only
    split
    · exact h1.settle
    · exact have h2 := h1.settle.setDch.w.regroup; (h2.dchEvt.ite h2).claimStep
theorem execChainDelayMeasure {t up d} : Answers W s (execChainDelayMeasure t up d u) :=
  h.runK (fun h1 => have h2 := h1.settle; h2.setDch.ite h2)
theorem execChainTimeBroadcast {t} : Answers W s (execChainTimeBroadcast t u) :=
  h.runK (fun h1 => have h2 := h1.settle; h2.w.ite h2.w.chainSend)
theorem execHeartbeatTx {t} : Answers W s (execHeartbeatTx t u) :=
  h.runK (fun h1 => have h2 := h1.settle; h2.ite h2.setDch.chainSend)
theorem execLeaseExpiry {t} : Answers W s (execLeaseExpiry t u) :=
  h.runK (fun h1 => have h2 := h1.settle; h2.ite (have h3 := h2.wb.wb; h3.ite h3.w.w.w.w.setDch.dchEvt))
theorem sendVote {kind epoch} : Keeps W s (u.sendVote kind epoch) :=
  h.setDch.ite (h.setDch.chainSend.ite h.setDch.raise)
theorem execHbLost {t} : Answers W s (execHbLost t u) :=
  h.runK (fun h1 => have h2 := h1.settle; h2.ite (have h3 := h2.w.inc.setDch.dchEvt; h3.sendVote.ite h3))
theorem execRetainSend {t} : Answers W s (execRetainSend t u) :=
  h.runK (fun h1 => have h2 := h1.settle; h2.ite h2.sendVote)
theorem execTakeRetry {t} : Answers W s (execTakeRetry t u) :=
  h.runK (fun h1 => have h2 := h1.settle; h2.ite h2.sendVote)
theorem denied : Keeps W s u.denied := have h1 := h.setDch.inc.ite h.setDch; h1.dchEvt.ite h1
theorem execVoteTimeout {t} : Answers W s (execVoteTimeout t u) :=
  h.runK (fun h1 => have h2 := h1.settle; h2.ite h2.denied)
theorem hostVote {f} (k : ∀ {v}, Keeps W s v → Keeps W s (f v)) : Keeps W s (u.hostVote f) := (k h).ite h
theorem execVoteDeny {t r} : Answers W s (execVoteDeny t r u) := h.cmdK (·.pageWrite (·.hostVote (·.denied)))
theorem execWitnessRequest {t q} : Answers W s (execWitnessRequest t q u) :=
  h.runK (fun h1 => have h2 := h1.settle; h2.ite (by split; exacts [h2.ite h2.setDch.w.w.chainSend, h2.chainSend]))
theorem execLockExpiry {t pair} : Answers W s (execLockExpiry t pair u) :=
  h.runK (fun h1 => have h2 := h1.settle; h2.setDch.ite h2)
theorem execSwap {t r} : Answers W s (execSwap t r u) :=
  h.cmdK (·.pageWrite (fun h2 => have h3 := h2.settle; h3.inc.ite h3.sendVote))
theorem execPairTake {t r} : Answers W s (execPairTake t r u) :=
  h.cmdK (·.pageWrite (fun h2 => have h3 := h2.settle; h3.sendVote.ite h3))
theorem takeSlots {pay} : Keeps W s (u.takeSlots pay) := have h1 := h.foldl (·.w); (h1.makeActive.ite h1).w
theorem bulkFrame {f} : Keeps W s (u.bulkFrame f) := by
  unfold State.bulkFrame
  refine h.ite ?_
  extract_lets slot
  split
  · split
    exact h.ite h.invalidate.putSol
  · exact h.slotTo.ite h
  · exact h.takeSlots.ite h
  · exact h.w.ite h
  · exact h.same
  · exact h
theorem controlFrame {f} : Keeps W s (u.controlFrame f) := by
  unfold State.controlFrame
  split
  exacts [h.setDch.ite h, h.vacate.ite h, h.setDch.ite h, h.denied.ite h, h]
theorem takeFrame {p f} : Keeps W s (u.takeFrame p f) :=
  h.ite (by split; exacts [h.ite (h.setTmk.offset.ite h.setTmk), h.controlFrame, h.bulkFrame, h])
theorem forwardFrame {p f} : Keeps W s (u.forwardFrame p f) := h.ite (h.fresh.putChain.ite h.putChain)
theorem execChainFrameRx {t up f} : Answers W s (execChainFrameRx t up f u) :=
  h.runS (fun h1 =>
    h1.ite (
      have h2 := h1.settle;
      (h2.inc.dchEvt.ite h2.inc).ite (
        (h2.w.ite h2).ite (h2.takeFrame.forwardFrame.ite (h2.takeFrame.ite h2.forwardFrame)))))
theorem execDchCtrClr {t r} : Answers W s (execDchCtrClr t r u) := h.cmdK (·.pageWrite (·.foldl (·.w)))

/-! ### Power states and the persistent store -/

theorem setPwr {f} : Keeps W s (u.setPwr f) := h.same
theorem lockedCmd {r pg f} (k : ∀ {v}, Keeps W s v → Keeps W s (f v)) : Keeps W s (u.lockedCmd r pg f) :=
  h.pageWrite (fun h1 => (k h1).ite h1.lockViol)
theorem setPower {st by_} : Keeps W s (u.setPower st by_) := h.setPwr.w.writeRec.raise
theorem execPwrRun {t r} : Answers W s (execPwrRun t r u) := h.cmdK (·.lockedCmd (fun h2 => h2.setPwr.setPower.ite h2))
theorem execPwrDoze {t r} : Answers W s (execPwrDoze t r u) :=
  h.cmdK (·.lockedCmd (fun h2 => h2.ite (h2.w.ite (h2.w.ite h2.setPwr.w.setPower))))
theorem execSupplyWarn {t rail mv} : Answers W s (execSupplyWarn t rail mv u) := h.runK (·.w.raise)
theorem execTempSample {t temps} : Answers W s (execTempSample t temps u) := h.runK (fun h1 => (h1.forN (·.wi)).setRaw)
theorem execOpSecSave {t} : Answers W s (execOpSecSave t u) := h.runK (fun h1 => h1.setPwr.ite h1)
theorem health {kind num cause} : Keeps W s (u.health kind num cause) := h.raise
theorem lifeChecks : Keeps W s u.lifeChecks := h.setPwr.when (·.health)
theorem execLifeTick {t} : Answers W s (execLifeTick t u) := h.runK (·.setPwr.inc.lifeChecks)
theorem devFail {d} : Keeps W s (u.devFail d) :=
  h.ite (have h1 := h.w.raise; have h2 := h1.w.ite h1; h2.ite h2.persistLost)
theorem execMramTimeout {t dev} : Answers W s (execMramTimeout t dev u) := h.runK (·.inc.devFail)
theorem rewriteCopy {d} : Keeps W s (u.rewriteCopy d) := by
  unfold State.rewriteCopy
  split
  exacts [h.setPwr.ite h, h]
theorem execMramReadFix {t dev} : Answers W s (execMramReadFix t dev u) :=
  h.runK (fun h1 => have h2 := h1.rewriteCopy.setPwr.inc; h2.devFail.ite h2)
theorem execPstRemove {t r dev} : Answers W s (execPstRemove t r dev u) :=
  h.cmdK (·.lockedCmd (fun h2 => h2.w.inc.ite h2.w.w.writeRec.raise))
theorem execPstInsert {t r dev} : Answers W s (execPstInsert t r dev u) :=
  h.cmdK (·.lockedCmd (fun h2 => h2.w.w.w.w.setPwr.ite h2.w.inc))
theorem execResyncChunkDone {t} : Answers W s (execResyncChunkDone t u) :=
  h.runK (fun h1 => h1.ite (have h2 := h1.setPwr.w.w; h2.ite h2.w.raise.persistBack))
theorem execKprCtrClr {t r} : Answers W s (execKprCtrClr t r u) := h.cmdK (·.pageWrite (·.w.w.w.w))
theorem execPstCtrClr {t r} : Answers W s (execPstCtrClr t r u) := h.cmdK (·.pageWrite (·.w.w.w))

/-! ### Scrub and row groups -/

theorem execRowgroupReplace {t bank grp} : Answers W s (execRowgroupReplace t bank grp u) :=
  h.runK (fun h1 => h1.ite h1.setPwr)
theorem commitGroup : Keeps W s u.commitGroup := by
  unfold State.commitGroup
  split
  · exact h
  · refine h.ite ?_
    extract_lets lost v1 v2 v3 num v4 v5
    have hmoved : Keeps W s v2 := h.setPwr.setPwr
    have hpoison : Keeps W s v3 := by
      unfold v3
      split
      · exact hmoved.w.inc
      · exact hmoved
    have hnoted : Keeps W s v5 := hpoison.writeRec.raise
    exact hnoted.ite ((hnoted.capDrop).ite hnoted.capDrop.setPwr.raise)
theorem execRowgroupCommit {t} : Answers W s (execRowgroupCommit t u) := h.runK (·.commitGroup)

/-! ### The serial channels -/

theorem setSer (hse : .ser ∈ W) {ch x} : Keeps W s (u.setSer ch x) := h.put hse
theorem serEnd (hse : .ser ∈ W) {ch res} : Keeps W s (u.serEnd ch res) :=
  have h1 := (h.setSer hse).w.w.w.raise; h1.ite h1.inc.raise
theorem execSerStart (hse : .ser ∈ W) {t r ch} : Answers W s (execSerStart t r ch u) :=
  h.cmdK (·.pageWrite (fun h2 => (h2.w.setSer hse).ite h2.inc))
theorem execSerAbort (hse : .ser ∈ W) {t r ch} : Answers W s (execSerAbort t r ch u) :=
  h.cmdK (·.pageWrite (fun h2 => (h2.serEnd hse).ite ((h2.setSer hse).ite h2)))
theorem execSerIdleGap (hse : .ser ∈ W) {t ch} : Answers W s (execSerIdleGap t ch u) :=
  h.runK (fun h1 => (h1.w.setSer hse).ite h1)
theorem execSerTxDone (hse : .ser ∈ W) {t ch} : Answers W s (execSerTxDone t ch u) :=
  h.runK (fun h1 => h1.ite ((h1.serEnd hse).ite (h1.ite (h1.w.setSer hse))))
theorem execSerTurnaroundEnd (hse : .ser ∈ W) {t ch} : Answers W s (execSerTurnaroundEnd t ch u) :=
  h.runK (fun h1 => (h1.serEnd hse).ite h1)
theorem execSerRespTimeout (hse : .ser ∈ W) {t ch} : Answers W s (execSerRespTimeout t ch u) :=
  h.runK (fun h1 => (h1.serEnd hse).ite h1)
theorem serStore (hse : .ser ∈ W) {ch b parityOk framingOk} : Keeps W s (u.serStore ch b parityOk framingOk) :=
  (h.serEnd hse).ite (have h1 := h.setSer hse; (h1.serEnd hse).ite ((h1.serEnd hse).ite h1))
theorem execSerCharRx (hse : .ser ∈ W) {t ch b parityOk framingOk} :
    Answers W s (execSerCharRx t ch b parityOk framingOk u) :=
  h.runK (fun h1 => h1.ite ((h1.w.serStore hse).ite ((h1.serStore hse).ite (((h1.setSer hse).ite h1).inc))))
theorem execSerFrameEnd (hse : .ser ∈ W) {t ch} : Answers W s (execSerFrameEnd t ch u) :=
  h.runK (fun h1 => h1.ite ((h1.serEnd hse).ite (by split <;> exact h1.serEnd hse)))
theorem execSerCtrClr {t r ch} : Answers W s (execSerCtrClr t r ch u) := h.cmdK (·.pageWrite (·.rstF.rstF))

/-! ### The page header -/

theorem execErrClr {t r pg} : Answers W s (execErrClr t r pg u) := h.cmdK (·.pageWrite (·.hw.hw.hw.hw))
theorem execClampClr {t r pg} : Answers W s (execClampClr t r pg u) := h.cmdK (·.pageWrite (·.hw.hw.hw.hw))
theorem requestOwner {r pg} : Keeps W s (u.requestOwner r pg) :=
  h.ite (h.setOwner.ite ((h.hw.hw.ite h.hw.hw.setPx).raise))
theorem execOwnerReq {t r pg} : Answers W s (execOwnerReq t r pg u) :=
  h.cmdK (fun h1 =>
    (h1.pageWrite (·.requestOwner)).ite (h1.unmapped.ite (h1.gated.ite h1.breakKeys.countWrite.requestOwner)))
theorem writeOwner {r pg x} : Keeps W s (u.writeOwner r pg x) := (h.when (·.clampCount)).setOwner.hw.hw
theorem execOwnerWrite {t r pg x} : Answers W s (execOwnerWrite t r pg x u) := h.cmdK (·.pageWrite (·.writeOwner))
theorem execOwnTimeoutGrant {t pg} : Answers W s (execOwnTimeoutGrant t pg u) := h.cmdK (fun h1 => h1.setOwner.ite h1)
theorem setFreeze {pg on} : Keeps W s (u.setFreeze pg on) := (h.ite h.setPx.hw.hw).ite h.setPx.hw.hw
theorem execFreeze {t r pg on} : Answers W s (execFreeze t r pg on u) := h.cmdK (·.pageWrite (·.setFreeze))
theorem execFreezeExpiry {t pg} : Answers W s (execFreezeExpiry t pg u) := h.cmdK (fun h1 => h1.setFreeze.ite h1)
theorem execSoftResetDone {t pg} : Answers W s (execSoftResetDone t pg u) := h.cmdK (fun h1 => h1.hw.setPx.ite h1)
theorem execEvtPendClear {t r pg x} : Answers W s (execEvtPendClear t r pg x u) := h.cmdK (·.pageWrite (·.hw))
theorem writeKey {pg key} : Keeps W s (u.writeKey pg key) :=
  (h.hw.setPx.ite ((h.closeLock.ite h.setPx).hinc)).ite (h.setPx.ite (h.closeLock.ite h.hinc))
theorem execLockKeyWrite {t r pg key} : Answers W s (execLockKeyWrite t r pg key u) := h.cmdK (·.pageWrite (·.writeKey))
theorem execLockTimeout {t pg} : Answers W s (execLockTimeout t pg u) := h.cmdK (fun h1 => h1.closeLock.ite h1)
theorem execSeqGuardArm {t r pg x} : Answers W s (execSeqGuardArm t r pg x u) :=
  h.cmdK (fun h1 => h1.unmapped.ite (h1.gated.ite (h1.breakKeys.hinc.ite h1.breakKeys.disarm.setPx)))
theorem execStagedWordDiscard {t pg} : Answers W s (execStagedWordDiscard t pg u) := h.cmdK (·.setPx)
theorem execPllLocked {t isl} : Answers W s (execPllLocked t isl u) := h.cmdK (·.setPwr)
theorem execPllLoss {t isl} : Answers W s (execPllLoss t isl u) := h.cmdK (fun h1 => h1.setPwr.inc.health.ite h1)
theorem execAonWriteDelivery (hao : .aonRegs ∈ W) {t} : Answers W s (execAonWriteDelivery t u) :=
  h.cmdK (fun h1 => by split; exacts [h1, h1.put hao])

/-! ### Resets and boot -/

theorem released {brown} : Keeps W s (u.released brown) := h.same
theorem execResetRelease {t} : Answers W s (execResetRelease t u) := h.cmdK (fun h1 => h1.released.ite h1)
theorem execPwrKeep (hfo : .forces ∈ W) (hrm : .retMem ∈ W) {t r} : Answers W s (execPwrKeep t r u) :=
  h.cmdK (·.lockedCmd (fun h2 =>
    h2.ite (
      h2.w.ite (
        h2.w.ite (
          ((((h2.w.forN (·.stopProgram hfo hrm)).w).foldl (·.commitLane)).commitGroup).writeRec.persistAll.capture.setPwr)))))

/-! ### The register bus -/

theorem execGatedAccess {t r addr write} : Answers W s (execGatedAccess t r addr write u) :=
  h.cmdK (fun h1 => (have h2 := h1.gated; h2.ite h2.reply).ite ((have h3 := h1.gated; h3.ite h3.reply).ite h1))
theorem execUnmappedAccess {t r addr write} : Answers W s (execUnmappedAccess t r addr write u) :=
  h.cmdK (fun h1 => (have h2 := h1.unmapped; h2.ite h2.reply).ite h1)
theorem readWord {r pg off} : Keeps W s (u.readWord r pg off) := by
  unfold State.readWord
  split
  exacts [h.setPx.reply, h.reply]
theorem readLow {r pg off} : Keeps W s (u.readLow r pg off) := h.readWord.ite ((h.foldl (·.latchWord)).readWord)
theorem sramRead {r a} : Keeps W s (u.sramRead r a) :=
  (h.reply.ite h.gated.reply).ite (h.gated.reply.ite (h.unmapped.reply.ite (h.fresh.reply.ite h.reply)))
theorem execWideLowRead {t r addr} : Answers W s (execWideLowRead t r addr u) :=
  h.cmdK (fun h1 => (h1.unmapped.reply.ite h1.sramRead).ite (h1.pageRead (fun h2 => h2.readLow.ite h2.readWord)))
/-- What a bus read takes of the command that reads a register with a side effect. -/
theorem answered {o : Host.Outcome State Fault Refusal} (k : Answers W s o) :
    Keeps W s (match o with | .next v => v | _ => u) := by
  cases o with
  | next v => exact k v rfl
  | _ => exact h
theorem busRead {r pg off} : Keeps W s (u.busRead r pg off) := by
  unfold State.busRead
  exact (h.answered h.execTbNsRead).ite ((h.answered h.execCapNsRead).ite ((h.answered h.execCapSecHiRead).ite
    ((h.answered h.execRtcSecRead).ite ((h.answered h.execRtcCentRead).ite ((h.answered h.execWinDataRead).ite
    (h.pageRead fun h1 => h1.readLow.ite h1.readWord))))))

/-! ### Operands of the logic engines -/

theorem begin {e} : Keeps W s (u.begin e) := h.setEng
theorem ins {op e am a f} (k : ∀ {v}, Keeps W s v → Keeps W s (f v)) : Answers W s (u.ins op e am a f) :=
  .ite (.next (h.inside fun h1 => k h1.begin).same) .refused
theorem plain {e f} (k : ∀ {v}, Keeps W s v → Keeps W s (f v)) : Answers W s (u.plain e f) :=
  .next (h.inside fun h1 => k h1.begin).same
theorem fin {e f} : Keeps W s (u.fin e f) := h.setBank
theorem dataRead {e area w} : Keeps W s (u.dataRead e area w).1 := h.setBank.raise.iteFst h
theorem operand {e c am a} : Keeps W s (u.operand e c am a).1 := by
  unfold State.operand
  split
  exacts [h, h, h.dataRead, h]
theorem sysRead {e i} : Keeps W s (u.sysRead e i).1 := by
  unfold State.sysRead
  split
  exacts [h, h, h, h, h, h, h.setBank, h, h, h, h, h]
theorem remoteRead {e area idx} : Keeps W s (u.remoteRead e area idx).1 :=
  (h.busRead.iteFst h.unmapped).iteFst (h.gated.iteFst h)
theorem readAt {e p} : Keeps W s (u.readAt e p).1 := by
  unfold State.readAt
  split
  extract_lets half
  split
  · exact h
  · exact h
  · exact h
  · exact h
  · exact h.dataRead
  · exact h.dataRead
  · exact h.dataRead
  · exact h.dataRead
  · exact h.sysRead
  · exact h
  · exact h.remoteRead
theorem readBitAt {e p} : Keeps W s (u.readBitAt e p).1 := by
  unfold State.readBitAt
  exact iteFst h.dataRead (iteFst (h.dataRead (w := counterWord p.2 0)).dataRead h.readAt)
theorem wordIns {e i am a got f} : Keeps W s (u.wordIns e i am a got f) := by
  unfold State.wordIns
  split
  · exact h.remoteRead.fin
  · refine h.fin.ite ?_
    have hx := h.operand (e := e) (c := .word) (am := am) (a := a)
    split
    next x o hop =>
    rw [hop] at hx
    split
    · exact hx.addrErr.fin
    · exact hx.setEng.ite hx.readAt.fin
theorem bitIns {e i am a got f} : Keeps W s (u.bitIns e i am a got f) := by
  unfold State.bitIns
  split
  · exact h.remoteRead.fin
  · have hx := h.operand (e := e) (c := .bitRead) (am := am) (a := a)
    split
    next x o hop =>
    rw [hop] at hx
    split
    · exact hx.addrErr.fin
    · exact hx.setEng.ite hx.readBitAt.fin

/-! ### Bit instructions -/

theorem execNop {e} : Answers W s (execNop e u) := h.plain (·.fin)
theorem execLd {e am a} : Answers W s (execLd e am a u) := h.ins (·.bitIns)
theorem execLdn {e am a} : Answers W s (execLdn e am a u) := h.ins (·.bitIns)
theorem execAnd {e am a} : Answers W s (execAnd e am a u) := h.ins (·.bitIns)
theorem execAndn {e am a} : Answers W s (execAndn e am a u) := h.ins (·.bitIns)
theorem execOr {e am a} : Answers W s (execOr e am a u) := h.ins (·.bitIns)
theorem execOrn {e am a} : Answers W s (execOrn e am a u) := h.ins (·.bitIns)
theorem execXor {e am a} : Answers W s (execXor e am a u) := h.ins (·.bitIns)
theorem execXorn {e am a} : Answers W s (execXorn e am a u) := h.ins (·.bitIns)
theorem openBr {e op} : Answers W s (u.openBr e op) := .ite (h.plain (·.fin)) .refused
theorem execAParen {e} : Answers W s (execAParen e u) := h.openBr
theorem execAnParen {e} : Answers W s (execAnParen e u) := h.openBr
theorem execOParen {e} : Answers W s (execOParen e u) := h.openBr
theorem execOnParen {e} : Answers W s (execOnParen e u) := h.openBr
theorem execXParen {e} : Answers W s (execXParen e u) := h.openBr
theorem execCloseParen {e} : Answers W s (execCloseParen e u) := by
  unfold Machine.execCloseParen
  split
  exacts [Answers.refused, h.plain (·.fin)]
theorem execNot {e} : Answers W s (execNot e u) := h.plain (·.fin)
theorem execSetb {e} : Answers W s (execSetb e u) := h.plain (·.fin)
theorem execClrb {e} : Answers W s (execClrb e u) := h.plain (·.fin)

/-! ### Word instructions -/

theorem execL {e am a} : Answers W s (execL e am a u) := h.ins (·.wordIns)
theorem execAdd {e am a} : Answers W s (execAdd e am a u) := h.ins (·.wordIns)
theorem execSub {e am a} : Answers W s (execSub e am a u) := h.ins (·.wordIns)
theorem execMul {e am a} : Answers W s (execMul e am a u) := h.ins (·.wordIns)
theorem execDiv {e am a} : Answers W s (execDiv e am a u) := h.ins (·.wordIns.fresh)
theorem execMod {e am a} : Answers W s (execMod e am a u) := h.ins (·.wordIns)
theorem execMulq {e am a} : Answers W s (execMulq e am a u) := h.ins (·.wordIns)
theorem execDivq {e am a} : Answers W s (execDivq e am a u) := h.ins (·.wordIns)
theorem execAndw {e am a} : Answers W s (execAndw e am a u) := h.ins (·.wordIns)
theorem execOrw {e am a} : Answers W s (execOrw e am a u) := h.ins (·.wordIns)
theorem execXorw {e am a} : Answers W s (execXorw e am a u) := h.ins (·.wordIns)
theorem execShl {e am a} : Answers W s (execShl e am a u) := h.ins (·.wordIns)
theorem execShr {e am a} : Answers W s (execShr e am a u) := h.ins (·.wordIns)
theorem execAsr {e am a} : Answers W s (execAsr e am a u) := h.ins (·.wordIns)
theorem execMin {e am a} : Answers W s (execMin e am a u) := h.ins (·.wordIns)
theorem execMax {e am a} : Answers W s (execMax e am a u) := h.ins (·.wordIns)
theorem execCeq {e am a} : Answers W s (execCeq e am a u) := h.ins (·.wordIns)
theorem execCne {e am a} : Answers W s (execCne e am a u) := h.ins (·.wordIns)
theorem execCgt {e am a} : Answers W s (execCgt e am a u) := h.ins (·.wordIns)
theorem execCge {e am a} : Answers W s (execCge e am a u) := h.ins (·.wordIns)
theorem execClt {e am a} : Answers W s (execClt e am a u) := h.ins (·.wordIns)
theorem execCle {e am a} : Answers W s (execCle e am a u) := h.ins (·.wordIns)
theorem execLhi {e m} : Answers W s (execLhi e m u) := h.plain (·.fin)
theorem execTak {e} : Answers W s (execTak e u) := h.plain (·.fin)
theorem execNeg {e} : Answers W s (execNeg e u) := h.plain (·.fin)
theorem execAbs {e} : Answers W s (execAbs e u) := h.plain (·.fin)
theorem execItq {e} : Answers W s (execItq e u) := h.plain (·.fin)
theorem execQti {e} : Answers W s (execQti e u) := h.plain (·.fin)

/-! ### Control flow and signals -/

theorem jump {e j f taken} : Answers W s (u.jump e j f taken) := .ite .refused (h.plain (·.setBank))
theorem execJmp {e m} : Answers W s (execJmp e m u) := h.jump
theorem execJc {e m} : Answers W s (execJc e m u) := h.jump
theorem execJcn {e m} : Answers W s (execJcn e m u) := h.jump
theorem execLoop {e m} : Answers W s (execLoop e m u) := h.jump
theorem callErr (hfo : .forces ∈ W) (hrm : .retMem ∈ W) {e} : Keeps W s (u.callErr e) := h.progErr.endTask hfo hrm
theorem execCall (hfo : .forces ∈ W) (hrm : .retMem ∈ W) {e m} : Answers W s (execCall e m u) :=
  Answers.ite (h.plain (·.callErr hfo hrm)) h.jump
theorem execRet (hfo : .forces ∈ W) (hrm : .retMem ∈ W) {e} : Answers W s (execRet e u) :=
  h.plain (fun h1 => by split; exacts [h1.callErr hfo hrm, h1.setBank])
theorem execEnd (hfo : .forces ∈ W) (hrm : .retMem ∈ W) {e} : Answers W s (execEnd e u) := h.plain (·.endTask hfo hrm)
theorem execSig {e m} : Answers W s (execSig e m u) := h.plain (·.offerEic.fin)
theorem execPri {e m} : Answers W s (execPri e m u) := h.plain (·.fin.showEng.runWaiting)

/-! ### Timers and counters -/

theorem readRecord {e ws} : Keeps W s (u.readRecord e ws) := h.foldl (fun h1 => h1.dataRead.same.ite h1)
theorem setTimer {t x} : Keeps W s (u.setTimer t x) := h.setDword.setDword.setDword
theorem numbered {e c am a rd f} (k : ∀ {v n}, Keeps W s v → Keeps W s (f v n).1) :
    Keeps W s (u.numbered e c am a rd f) := by
  unfold State.numbered
  have hx := h.operand (e := e) (c := c) (am := am) (a := a)
  split
  next x o hop =>
  rw [hop] at hx
  split
  · exact hx.addrErr.fin
  · exact ((k hx.readRecord).fin).ite hx.progErr.fin
theorem timerIns {e am a f} : Keeps W s (u.timerIns e am a f) := by
  unfold State.timerIns
  exact h.numbered (·.setTimer)
theorem execTon {e am a} : Answers W s (execTon e am a u) := h.ins (·.timerIns)
theorem execTof {e am a} : Answers W s (execTof e am a u) := h.ins (·.timerIns)
theorem execTp {e am a} : Answers W s (execTp e am a u) := h.ins (·.timerIns)
theorem execTonr {e am a} : Answers W s (execTonr e am a u) := h.ins (·.timerIns)
theorem execTrst {e am a} : Answers W s (execTrst e am a u) := h.ins (·.numbered (fun h2 => h2.setTimer.ite h2))
theorem execTpre {e am a} : Answers W s (execTpre e am a u) := h.ins (·.numbered (·.setDword))
theorem count {c i bit d} : Keeps W s (u.count c i bit d).1 := (h.setDword.ite h).setDword
theorem execCtu {e am a} : Answers W s (execCtu e am a u) := h.ins (·.numbered (·.count))
theorem execCtd {e am a} : Answers W s (execCtd e am a u) := h.ins (·.numbered (·.count))
theorem execCrst {e am a} : Answers W s (execCrst e am a u) := h.ins (·.numbered (fun h2 => h2.setDword.ite h2))
theorem execCld {e am a} : Answers W s (execCld e am a u) := h.ins (·.numbered (fun h2 => h2.setDword.ite h2))
theorem execCpre {e am a} : Answers W s (execCpre e am a u) := h.ins (·.numbered (·.setDword))
end
end Keeps

/-! ### What each command may write -/

/-- The parts that a command may write; the commands that act on every block are left out. -/
def writes : Instr → List Part
  | .loopUpdateDone .. => [.loopMem, .rcMem, .outImg, .clusters, .loops, .pwm, .groups]
  | .loopSample .. => [.loopMem, .rcMem, .clusters, .loops, .groups]
  | .loopOutput .. => [.loopMem, .outImg, .loops, .pwm, .groups]
  | .liveFieldWrite .. => [.loopMem, .clusters]
  | .commit .. => [.loopMem, .clusters, .loops, .groups]
  | .chgCopyDone .. => [.progMem]
  | .engineFail .. => [.progMem, .retMem, .forces]
  | .memDataWrite .. => [.retMem]
  | .call .. | .ret .. | .end_ .. | .watchdog .. | .restartWarm .. | .restartCold .. | .restartStop .. | .chgArm .. |
    .engineTestDone .. | .pwrKeep .. => [.retMem, .forces]
  | .stationCycleStart .. | .inputFrameRx .. => [.inImg, .stations]
  | .applyInstant .. | .stageBoundary .. | .contApplied .. => [.outImg]
  | .loopSel .. | .discard .. | .outDelayWrite .. | .worstRunDone .. | .tuneStart .. | .tuneAbort .. | .tuneApply .. |
    .tuneTimeout .. => [.clusters]
  | .loopUpdateStart .. => [.clusters, .loops]
  | .timeStep .. | .timeSet .. | .timeAdd .. => [.clusters, .loops, .sd, .pulse, .pwm]
  | .rcClear .. | .rcClearDone .. => [.loops]
  | .sdFilterOutput .. | .sdClockLoss .. | .sdDataStuck .. => [.sd]
  | .sdLimitOutput .. => [.sd, .pwm]
  | .pulseEdge .. | .pulseGateEnd .. | .pulseTimeout .. => [.pulse]
  | .pwmPeriodStart .. | .pwmCentre .. | .dutyWrite .. | .dutyTimeout .. | .tripInput .. | .actTripClear .. => [.pwm]
  | .canModeWrite .. | .canIntegrated .. | .cancel .. | .canSelection .. | .canTxAttemptEnd .. | .canFrameRx .. |
    .rxAck .. | .recover .. | .recovered .. => [.can]
  | .serStart .. | .serAbort .. | .serIdleGap .. | .serTxDone .. | .serTurnaroundEnd .. | .serRespTimeout .. |
    .serCharRx .. | .serFrameEnd .. => [.ser]
  | .ethFrameRx .. | .egressTx .. | .ethLinkChange .. | .learnInsert .. | .entryAgeOut .. | .fdbAdd .. |
    .fdbDelete .. | .floodRefill .. | .prpSupervisionTx .. | .dupEntryForget .. => [.esw]
  | .outputFrameTx .. => [.esw, .stations]
  | .readEnd .. | .sxeCtrClr .. => [.stations]
  | .hqeRecordOffer .. | .hqeWriteback .. | .hqeIntTimer .. | .qEnWrite .. | .flr .. => [.queues]
  | .forceOnWrite .. | .forceClrAll .. => [.forces]
  | .aonWriteDelivery .. | .backupDomainReset .. => [.aonRegs]
  | _ => []

theorem exec_answers {c : Instr} {s : State} (hc : actsOnAll c = false) : Answers (writes c) s (exec c s) := by
  have h := Keeps.refl (W := writes c) s
  cases c with
  | registerWrite | st | stn | set_ | instrR | fp | fn_ | tas | t_ | bmov | remoteReadResponse | softReset | enable |
    bootStep | scrubRead | mirrorCut | mirrorCutApply | voteGrantRx | voteGrant | heartbeatRx | fullCopyDone |
    powerOnReset | sysrst | brownOut | sysRst | keeperWatchdog | keepEntryDone | newtWake |
    minOffEnd => exact nomatch hc
  | gatedAccess => exact h.execGatedAccess
  | unmappedAccess => exact h.execUnmappedAccess
  | aonWriteDelivery => exact h.execAonWriteDelivery (by simp [writes])
  | wideLowRead => exact h.execWideLowRead
  | stagedWordDiscard => exact h.execStagedWordDiscard
  | pllLocked => exact h.execPllLocked
  | pllLoss => exact h.execPllLoss
  | errClr => exact h.execErrClr
  | clampClr => exact h.execClampClr
  | ownerReq => exact h.execOwnerReq
  | freeze => exact h.execFreeze
  | freezeExpiry => exact h.execFreezeExpiry
  | softResetDone => exact h.execSoftResetDone
  | evtPendClear => exact h.execEvtPendClear
  | lockKeyWrite => exact h.execLockKeyWrite
  | lockTimeout => exact h.execLockTimeout
  | ownerWrite => exact h.execOwnerWrite
  | ownTimeoutGrant => exact h.execOwnTimeoutGrant
  | seqGuardArm => exact h.execSeqGuardArm
  | solverSramHostWrite => exact h.execSolverSramHostWrite
  | setRegionWrite => exact h.execSetRegionWrite
  | setCheck => exact h.execSetCheck
  | setCheckDone => exact h.execSetCheckDone
  | setArm => exact h.execSetArm
  | setDisarm => exact h.execSetDisarm
  | setClear => exact h.execSetClear
  | setCmdNone => exact h.execSetCmdNone
  | snapshotInstant => exact h.execSnapshotInstant
  | descWindowOpen => exact h.execDescWindowOpen
  | blockDone => exact h.execBlockDone
  | iterDeadline => exact h.execIterDeadline
  | descWindowEnd => exact h.execDescWindowEnd
  | retireCommit => exact h.execRetireCommit
  | failCountDecay => exact h.execFailCountDecay
  | spareSelftest => exact h.execSpareSelftest
  | spareSelftestDone => exact h.execSpareSelftestDone
  | retireCmd => exact h.execRetireCmd
  | conflictWindow => exact h.execConflictWindow
  | dsqCtrClr => exact h.execDsqCtrClr
  | stagePrepare => exact h.execStagePrepare
  | applyInstant => exact h.execApplyInstant (by simp [writes])
  | stageBoundary => exact h.execStageBoundary (by simp [writes])
  | tripSet => exact h.execTripSet
  | tripReqSample => exact h.execTripReqSample
  | contApplied => exact h.execContApplied (by simp [writes])
  | tripStateClear => exact h.execTripStateClear
  | potEntryCommit => exact h.execPotEntryCommit
  | potTagWrite => exact h.execPotTagWrite
  | potCountWrite => exact h.execPotCountWrite
  | hoEvtClear => exact h.execHoEvtClear
  | loopSample =>
    exact h.execLoopSample
      (by simp [writes]) (by simp [writes]) (by simp [writes]) (by simp [writes]) (by simp [writes])
  | loopUpdateStart => exact h.execLoopUpdateStart (by simp [writes]) (by simp [writes])
  | loopUpdateDone =>
    exact h.execLoopUpdateDone
      (by simp [writes]) (by simp [writes]) (by simp [writes]) (by simp [writes]) (by simp [writes])
      (by simp [writes]) (by simp [writes])
  | loopOutput =>
    exact h.execLoopOutput
      (by simp [writes]) (by simp [writes]) (by simp [writes]) (by simp [writes]) (by simp [writes])
  | loopSel => exact h.execLoopSel (by simp [writes])
  | commit => exact h.execCommit (by simp [writes]) (by simp [writes]) (by simp [writes]) (by simp [writes])
  | discard => exact h.execDiscard (by simp [writes])
  | rcClear => exact h.execRcClear (by simp [writes])
  | rcClearDone => exact h.execRcClearDone (by simp [writes])
  | liveFieldWrite => exact h.execLiveFieldWrite (by simp [writes]) (by simp [writes])
  | outDelayWrite => exact h.execOutDelayWrite (by simp [writes])
  | worstRunDone => exact h.execWorstRunDone (by simp [writes])
  | tuneStart => exact h.execTuneStart (by simp [writes])
  | tuneAbort => exact h.execTuneAbort (by simp [writes])
  | tuneApply => exact h.execTuneApply (by simp [writes])
  | tuneTimeout => exact h.execTuneTimeout (by simp [writes])
  | sdFilterOutput => exact h.execSdFilterOutput (by simp [writes])
  | sdLimitOutput => exact h.execSdLimitOutput (by simp [writes]) (by simp [writes])
  | sdClockLoss => exact h.execSdClockLoss (by simp [writes])
  | sdDataStuck => exact h.execSdDataStuck (by simp [writes])
  | sarStartA => exact h.execSarStartA
  | sarStartB => exact h.execSarStartB
  | sarTimeTrigger => exact h.execSarTimeTrigger
  | sarConversionDone => exact h.execSarConversionDone
  | pulseEdge => exact h.execPulseEdge (by simp [writes])
  | pulseGateEnd => exact h.execPulseGateEnd (by simp [writes])
  | pulseTimeout => exact h.execPulseTimeout (by simp [writes])
  | pwmPeriodStart => exact h.execPwmPeriodStart (by simp [writes])
  | pwmCentre => exact h.execPwmCentre (by simp [writes])
  | dutyWrite => exact h.execDutyWrite (by simp [writes])
  | dutyTimeout => exact h.execDutyTimeout (by simp [writes])
  | tripInput => exact h.execTripInput (by simp [writes])
  | actTripClear => exact h.execActTripClear (by simp [writes])
  | nop => exact h.execNop
  | ld => exact h.execLd
  | ldn => exact h.execLdn
  | and_ => exact h.execAnd
  | andn => exact h.execAndn
  | or_ => exact h.execOr
  | orn => exact h.execOrn
  | xor_ => exact h.execXor
  | xorn => exact h.execXorn
  | aParen => exact h.execAParen
  | anParen => exact h.execAnParen
  | oParen => exact h.execOParen
  | onParen => exact h.execOnParen
  | xParen => exact h.execXParen
  | closeParen => exact h.execCloseParen
  | not_ => exact h.execNot
  | setb => exact h.execSetb
  | clrb => exact h.execClrb
  | ton => exact h.execTon
  | tof => exact h.execTof
  | tp => exact h.execTp
  | tonr => exact h.execTonr
  | trst => exact h.execTrst
  | tpre => exact h.execTpre
  | ctu => exact h.execCtu
  | ctd => exact h.execCtd
  | crst => exact h.execCrst
  | cld => exact h.execCld
  | cpre => exact h.execCpre
  | l => exact h.execL
  | lhi => exact h.execLhi
  | tak => exact h.execTak
  | add => exact h.execAdd
  | sub => exact h.execSub
  | mul => exact h.execMul
  | div => exact h.execDiv
  | mod_ => exact h.execMod
  | mulq => exact h.execMulq
  | divq => exact h.execDivq
  | andw => exact h.execAndw
  | orw => exact h.execOrw
  | xorw => exact h.execXorw
  | shl => exact h.execShl
  | shr => exact h.execShr
  | asr => exact h.execAsr
  | min_ => exact h.execMin
  | max_ => exact h.execMax
  | neg => exact h.execNeg
  | abs => exact h.execAbs
  | itq => exact h.execItq
  | qti => exact h.execQti
  | ceq => exact h.execCeq
  | cne => exact h.execCne
  | cgt => exact h.execCgt
  | cge => exact h.execCge
  | clt => exact h.execClt
  | cle => exact h.execCle
  | jmp => exact h.execJmp
  | jc => exact h.execJc
  | jcn => exact h.execJcn
  | loop => exact h.execLoop
  | call => exact h.execCall (by simp [writes]) (by simp [writes])
  | ret => exact h.execRet (by simp [writes]) (by simp [writes])
  | end_ => exact h.execEnd (by simp [writes]) (by simp [writes])
  | sig => exact h.execSig
  | pri => exact h.execPri
  | taskRelease => exact h.execTaskRelease
  | freeCycleStart => exact h.execFreeCycleStart
  | taskEntry => exact h.execTaskEntry
  | watchdog => exact h.execWatchdog (by simp [writes]) (by simp [writes])
  | restartWarm => exact h.execRestartWarm (by simp [writes]) (by simp [writes])
  | restartCold => exact h.execRestartCold (by simp [writes]) (by simp [writes])
  | restartStop => exact h.execRestartStop (by simp [writes]) (by simp [writes])
  | chgCopy => exact h.execChgCopy
  | chgCopyDone => exact h.execChgCopyDone (by simp [writes])
  | chgCheck => exact h.execChgCheck
  | chgCheckDone => exact h.execChgCheckDone
  | chgArm => exact h.execChgArm (by simp [writes]) (by simp [writes])
  | chgDisarm => exact h.execChgDisarm
  | chgClear => exact h.execChgClear
  | chgRegionWrite => exact h.execChgRegionWrite
  | progSlotCommitted => exact h.execProgSlotCommitted
  | forceOnWrite => exact h.execForceOnWrite (by simp [writes])
  | forceClrAll => exact h.execForceClrAll (by simp [writes])
  | engineFail => exact h.execEngineFail (by simp [writes]) (by simp [writes]) (by simp [writes])
  | engineTestDone => exact h.execEngineTestDone (by simp [writes]) (by simp [writes])
  | retCapture => exact h.execRetCapture
  | memDataWrite => exact h.execMemDataWrite (by simp [writes])
  | lgeCtrClr => exact h.execLgeCtrClr
  | gioInputChange => exact h.execGioInputChange
  | eicSourceEdge => exact h.execEicSourceEdge
  | eicRoute => exact h.execEicRoute
  | modIntervalEnd => exact h.execModIntervalEnd
  | setSrc => exact h.execSetSrc
  | srcCfgWrite => exact h.execSrcCfgWrite
  | pendingAged => exact h.execPendingAged
  | eicCtrClr => exact h.execEicCtrClr
  | hqeRecordOffer => exact h.execHqeRecordOffer (by simp [writes])
  | hqeWriteback => exact h.execHqeWriteback (by simp [writes])
  | hqeIntTimer => exact h.execHqeIntTimer (by simp [writes])
  | msixUnmask => exact h.execMsixUnmask
  | consWrite => exact h.execConsWrite
  | qEnWrite => exact h.execQEnWrite (by simp [writes])
  | pcieLinkChange => exact h.execPcieLinkChange
  | cplTimeout => exact h.execCplTimeout
  | flr => exact h.execFlr (by simp [writes])
  | tbNsRead => exact h.execTbNsRead
  | gnssPulse => exact h.execGnssPulse
  | todSentence => exact h.execTodSentence
  | refMiss => exact h.execRefMiss
  | timeStep =>
    exact h.execTimeStep (by simp [writes]) (by simp [writes]) (by simp [writes]) (by simp [writes]) (by simp [writes])
  | holdDegraded => exact h.execHoldDegraded
  | timeSet =>
    exact h.execTimeSet (by simp [writes]) (by simp [writes]) (by simp [writes]) (by simp [writes]) (by simp [writes])
  | timeAdd =>
    exact h.execTimeAdd (by simp [writes]) (by simp [writes]) (by simp [writes]) (by simp [writes]) (by simp [writes])
  | adjManWrite => exact h.execAdjManWrite
  | utcDayEnd => exact h.execUtcDayEnd
  | ptpAnnounceRx => exact h.execPtpAnnounceRx
  | ptpSyncTx => exact h.execPtpSyncTx
  | ptpAnnounceTx => exact h.execPtpAnnounceTx
  | ptpDelayReqRx => exact h.execPtpDelayReqRx
  | ptpPdelayReqTx => exact h.execPtpPdelayReqTx
  | ptpPdelayRespRx => exact h.execPtpPdelayRespRx
  | ptpEventForward => exact h.execPtpEventForward
  | pulseArm => exact h.execPulseArm
  | pulseDisarm => exact h.execPulseDisarm
  | pulseFire => exact h.execPulseFire
  | pulseEnd => exact h.execPulseEnd
  | captureEdge => exact h.execCaptureEdge
  | capSecHiRead => exact h.execCapSecHiRead
  | capNsRead => exact h.execCapNsRead
  | tmkCtrClr => exact h.execTmkCtrClr
  | rtcTick => exact h.execRtcTick
  | rtcSecRead => exact h.execRtcSecRead
  | rtcCentRead => exact h.execRtcCentRead
  | rtcFreezeTimeout => exact h.execRtcFreezeTimeout
  | stagingWrite => exact h.execStagingWrite
  | calendarCommit => exact h.execCalendarCommit
  | stgDiscard => exact h.execStgDiscard
  | autoSync => exact h.execAutoSync
  | wakeInputEdge => exact h.execWakeInputEdge
  | vbakCheck => exact h.execVbakCheck
  | oscFault => exact h.execOscFault
  | oscRestored => exact h.execOscRestored
  | backupDomainReset => exact h.execBackupDomainReset (by simp [writes])
  | aonSupplySwitch => exact h.execAonSupplySwitch
  | canModeWrite => exact h.execCanModeWrite (by simp [writes])
  | canIntegrated => exact h.execCanIntegrated (by simp [writes])
  | txReq => exact h.execTxReq
  | cancel => exact h.execCancel (by simp [writes])
  | canSelection => exact h.execCanSelection (by simp [writes])
  | canTxAttemptEnd => exact h.execCanTxAttemptEnd (by simp [writes])
  | canFrameRx => exact h.execCanFrameRx (by simp [writes])
  | rxAck => exact h.execRxAck (by simp [writes])
  | recover => exact h.execRecover (by simp [writes])
  | recovered => exact h.execRecovered (by simp [writes])
  | cfdCtrClr => exact h.execCfdCtrClr
  | serStart => exact h.execSerStart (by simp [writes])
  | serAbort => exact h.execSerAbort (by simp [writes])
  | serIdleGap => exact h.execSerIdleGap (by simp [writes])
  | serTxDone => exact h.execSerTxDone (by simp [writes])
  | serTurnaroundEnd => exact h.execSerTurnaroundEnd (by simp [writes])
  | serRespTimeout => exact h.execSerRespTimeout (by simp [writes])
  | serCharRx => exact h.execSerCharRx (by simp [writes])
  | serFrameEnd => exact h.execSerFrameEnd (by simp [writes])
  | serCtrClr => exact h.execSerCtrClr
  | ethFrameRx => exact h.execEthFrameRx (by simp [writes])
  | egressTx => exact h.execEgressTx (by simp [writes])
  | ethLinkChange => exact h.execEthLinkChange (by simp [writes])
  | learnInsert => exact h.execLearnInsert (by simp [writes])
  | entryAgeOut => exact h.execEntryAgeOut (by simp [writes])
  | fdbAdd => exact h.execFdbAdd (by simp [writes])
  | fdbDelete => exact h.execFdbDelete (by simp [writes])
  | fdbLookup => exact h.execFdbLookup
  | floodRefill => exact h.execFloodRefill (by simp [writes])
  | prpSupervisionTx => exact h.execPrpSupervisionTx (by simp [writes])
  | redLanSilent => exact h.execRedLanSilent
  | dupEntryForget => exact h.execDupEntryForget (by simp [writes])
  | ethCtrClr => exact h.execEthCtrClr
  | stationCycleStart => exact h.execStationCycleStart (by simp [writes]) (by simp [writes])
  | inputFrameRx => exact h.execInputFrameRx (by simp [writes]) (by simp [writes])
  | readEnd => exact h.execReadEnd (by simp [writes])
  | writePhase => exact h.execWritePhase
  | outputFrameTx => exact h.execOutputFrameTx (by simp [writes]) (by simp [writes])
  | tableCommit => exact h.execTableCommit
  | tableDiscard => exact h.execTableDiscard
  | stnEntryWrite => exact h.execStnEntryWrite
  | profDataWrite => exact h.execProfDataWrite
  | planMapWrite => exact h.execPlanMapWrite
  | sxeCtrClr => exact h.execSxeCtrClr (by simp [writes])
  | motionUpdate => exact h.execMotionUpdate
  | targetWrite => exact h.execTargetWrite
  | decWrite => exact h.execDecWrite
  | home => exact h.execHome
  | stop => exact h.execStop
  | estop => exact h.execEstop
  | release => exact h.execRelease
  | phaseSync => exact h.execPhaseSync
  | setPos => exact h.execSetPos
  | limitActive => exact h.execLimitActive
  | limitRelease => exact h.execLimitRelease
  | homeInput => exact h.execHomeInput
  | drvFault => exact h.execDrvFault
  | dokRiseAccepted => exact h.execDokRiseAccepted
  | liveLost => exact h.execLiveLost
  | chainFrameRx => exact h.execChainFrameRx
  | creditTimeout => exact h.execCreditTimeout
  | linkRetrain => exact h.execLinkRetrain
  | chainLinkChange => exact h.execChainLinkChange
  | hello => exact h.execHello
  | build => exact h.execBuild
  | vacate => exact h.execVacate
  | claimAccept => exact h.execClaimAccept
  | vacantExpiry => exact h.execVacantExpiry
  | bindTableCommit => exact h.execBindTableCommit
  | chainDelayMeasure => exact h.execChainDelayMeasure
  | chainTimeBroadcast => exact h.execChainTimeBroadcast
  | heartbeatTx => exact h.execHeartbeatTx
  | leaseExpiry => exact h.execLeaseExpiry
  | hbLost => exact h.execHbLost
  | retainSend => exact h.execRetainSend
  | witnessRequest => exact h.execWitnessRequest
  | voteTimeout => exact h.execVoteTimeout
  | lockExpiry => exact h.execLockExpiry
  | voteDeny => exact h.execVoteDeny
  | swap => exact h.execSwap
  | pairTake => exact h.execPairTake
  | dchCtrClr => exact h.execDchCtrClr
  | recInput => exact h.execRecInput
  | recRecordWrite => exact h.execRecRecordWrite
  | rateRefill => exact h.execRateRefill
  | suppressionFlush => exact h.execSuppressionFlush
  | codeCfgWrite => exact h.execCodeCfgWrite
  | classCfgWrite => exact h.execClassCfgWrite
  | persistWrite => exact h.execPersistWrite
  | recFreeze => exact h.execRecFreeze
  | recRelease => exact h.execRecRelease
  | freezeMaxExpiry => exact h.execFreezeMaxExpiry
  | winSeqWrite => exact h.execWinSeqWrite
  | winNext => exact h.execWinNext
  | winDataRead => exact h.execWinDataRead
  | exportStart => exact h.execExportStart
  | exportAbort => exact h.execExportAbort
  | exportDone => exact h.execExportDone
  | clearStart => exact h.execClearStart
  | clearMarkDone => exact h.execClearMarkDone
  | recCtrClr => exact h.execRecCtrClr
  | tokenApply => exact h.execTokenApply
  | dbgClose => exact h.execDbgClose
  | debugExpiry => exact h.execDebugExpiry
  | attestStart => exact h.execAttestStart
  | attestDone => exact h.execAttestDone
  | install => exact h.execInstall
  | installAbort => exact h.execInstallAbort
  | installSwitch => exact h.execInstallSwitch
  | installStepDone => exact h.execInstallStepDone
  | secCtrClr => exact h.execSecCtrClr
  | pwrRun => exact h.execPwrRun
  | pwrDoze => exact h.execPwrDoze
  | pwrKeep => exact h.execPwrKeep (by simp [writes]) (by simp [writes])
  | supplyWarn => exact h.execSupplyWarn
  | tempSample => exact h.execTempSample
  | opSecSave => exact h.execOpSecSave
  | lifeTick => exact h.execLifeTick
  | rowgroupReplace => exact h.execRowgroupReplace
  | rowgroupCommit => exact h.execRowgroupCommit
  | mramTimeout => exact h.execMramTimeout
  | mramReadFix => exact h.execMramReadFix
  | pstRemove => exact h.execPstRemove
  | pstInsert => exact h.execPstInsert
  | resyncChunkDone => exact h.execResyncChunkDone
  | kprCtrClr => exact h.execKprCtrClr
  | pstCtrClr => exact h.execPstCtrClr
  | resetRelease => exact h.execResetRelease
  | canRxError => exact h.execCanRxError
  | foreignMasterExpiry => exact h.execForeignMasterExpiry
  | takeRetry => exact h.execTakeRetry
  | svuBatchDone => exact h.execSvuBatchDone

/-! ### The statement -/

/-- `q` is claimed unless the flag is set. -/
def Unless : Bool → Prop → Prop
  | true, _ => True
  | false, q => q

theorem Keeps.unless {W : List Part} {s u : State} (h : Keeps W s u) (p : Part) : Unless (W.contains p) (p.Same s u) := by
  cases hp : W.contains p with
  | true => trivial
  | false => exact h p (by simpa using hp)

/-- The parts that the statement names, in its order, each claimed unless it may be written. -/
theorem Keeps.every {W : List Part} {s u : State} (h : Keeps W s u) :
    Unless (W.contains .loopMem) (u.loopMem = s.loopMem) ∧ Unless (W.contains .rcMem) (u.rcMem = s.rcMem) ∧
    Unless (W.contains .progMem) (u.progMem = s.progMem) ∧ Unless (W.contains .retMem) (u.retMem = s.retMem) ∧
    Unless (W.contains .inImg) (u.inImg = s.inImg) ∧ Unless (W.contains .outImg) (u.outImg = s.outImg) ∧
    Unless (W.contains .loops) (u.loops = s.loops) ∧ Unless (W.contains .sd) (u.sd = s.sd) ∧
    Unless (W.contains .pulse) (u.pulse = s.pulse) ∧ Unless (W.contains .pwm) (u.pwm = s.pwm) ∧
    Unless (W.contains .groups) (u.groups = s.groups) ∧ Unless (W.contains .can) (u.can = s.can) ∧
    Unless (W.contains .ser) (u.ser = s.ser) ∧ Unless (W.contains .esw) (u.esw = s.esw) ∧
    Unless (W.contains .stations) (u.stations = s.stations) ∧ Unless (W.contains .queues) (u.queues = s.queues) ∧
    Unless (W.contains .forces) (u.forces = s.forces) ∧ Unless (W.contains .aonRegs) (u.aonRegs = s.aonRegs) :=
  ⟨h.unless _, h.unless _, h.unless _, h.unless _, h.unless _, h.unless _, h.unless _, h.unless _, h.unless _,
    h.unless _, h.unless _, h.unless _, h.unless _, h.unless _, h.unless _, h.unless _, h.unless _, h.unless _⟩

theorem Keeps.all {s u : State} (h : Keeps [] s u) :
    u.loopMem = s.loopMem ∧ u.rcMem = s.rcMem ∧ u.progMem = s.progMem ∧ u.retMem = s.retMem ∧ u.inImg = s.inImg ∧
    u.outImg = s.outImg ∧ u.loops = s.loops ∧ u.sd = s.sd ∧ u.pulse = s.pulse ∧ u.pwm = s.pwm ∧ u.groups = s.groups ∧
    u.can = s.can ∧ u.ser = s.ser ∧ u.esw = s.esw ∧ u.stations = s.stations ∧ u.queues = s.queues ∧
    u.forces = s.forces ∧ u.aonRegs = s.aonRegs := h.every

/-- Settles O59: every command answers with a state that keeps the parts it does not write. -/
theorem recordsKept : Obligations.RecordsKept := by
  unfold Obligations.RecordsKept
  intro c s u hstep hc
  have h := exec_answers hc u hstep
  cases c with
  | registerWrite | st | stn | set_ | instrR | fp | fn_ | tas | t_ | bmov | remoteReadResponse | softReset | enable |
    bootStep | scrubRead | mirrorCut | mirrorCutApply | voteGrantRx | voteGrant | heartbeatRx | fullCopyDone |
    powerOnReset | sysrst | brownOut | sysRst | keeperWatchdog | keepEntryDone | newtWake |
    minOffEnd => exact nomatch hc
  | loopUpdateDone | loopSample | loopOutput | liveFieldWrite | commit | chgCopyDone | engineFail | memDataWrite |
    call | ret | end_ | watchdog | restartWarm | restartCold | restartStop | chgArm | engineTestDone | pwrKeep |
    stationCycleStart | inputFrameRx | applyInstant | stageBoundary | contApplied | loopSel | discard | outDelayWrite |
    worstRunDone | tuneStart | tuneAbort | tuneApply | tuneTimeout | loopUpdateStart | timeStep | timeSet | timeAdd |
    rcClear | rcClearDone | sdFilterOutput | sdClockLoss | sdDataStuck | sdLimitOutput | pulseEdge | pulseGateEnd |
    pulseTimeout | pwmPeriodStart | pwmCentre | dutyWrite | dutyTimeout | tripInput | actTripClear | canModeWrite |
    canIntegrated | cancel | canSelection | canTxAttemptEnd | canFrameRx | rxAck | recover | recovered | serStart |
    serAbort | serIdleGap | serTxDone | serTurnaroundEnd | serRespTimeout | serCharRx | serFrameEnd | ethFrameRx |
    egressTx | ethLinkChange | learnInsert | entryAgeOut | fdbAdd | fdbDelete | floodRefill | prpSupervisionTx |
    dupEntryForget | outputFrameTx | readEnd | sxeCtrClr | hqeRecordOffer | hqeWriteback | hqeIntTimer | qEnWrite |
    flr | forceOnWrite | forceClrAll | aonWriteDelivery | backupDomainReset => exact h.every
  | _ => exact h.all

end Sys2Proof.RecordFrame
end

section
/-! The control loop engine: the fields of a cluster's page, and what a command on the page starts from (R62, R172 to R217). -/

namespace Sys2Proof.LoopEngineLaws

open Sys2Proof Sys2Proof.Machine Sys2Proof.Laws

/-! ### The fields of a cluster's page -/

/-- A write of one field of a page leaves its other fields. -/
theorem r_w_apart {f g : Fld} (hcode : g.code = f.code) (hplace : g.off * 32 + g.lsb ≠ f.off * 32 + f.lsb) (s : State) (v c : Nat) :
    (s.w f v c).r g c = s.r g c := r_w_ne _ _ _ _ _ _ _ _ (LaneCareLaws.laneKey_ne g f hcode hplace c)

/-- Counting a write leaves the fields of the block, which stand behind the header (R51). -/
theorem r_countWrite_block (s : State) (pg : Page) {g : Fld} {k : Nat} (hfrom : 64 ≤ g.off + k * g.stride)
    (hto : g.off + k * g.stride < 4096) (hlsb : g.lsb < 32) (j : Nat) : (s.countWrite pg).r g j k = s.r g j k := by
  refine r_countWrite _ _ _ _ _ ?_
  simp only [Fld.key, hdr, HDR.COUNT]
  omega

/-- An event of the loop engine leaves every field of the block. -/
theorem r_loopEvt (s : State) (h bit cause : Nat) (extra : List Nat) {g : Fld} {k : Nat} (hbit : bit < 32)
    (hfrom : 64 ≤ g.off + k * g.stride) (hto : g.off + k * g.stride < 4096) (hlsb : g.lsb < 32) (j : Nat) :
    (s.loopEvt h bit cause extra).r g j k = s.r g j k := by
  refine r_raise _ _ _ _ _ _ _ _ _ ?_
  simp only [pendKey, hbit, if_true, Fld.key, hdr, HDR.EVT_PEND]
  omega

@[simp] theorem cluster_loopEvt (s : State) (h bit cause : Nat) (extra : List Nat) (c : Nat) :
    (s.loopEvt h bit cause extra).cluster c = s.cluster c := cluster_raise _ _ _ _ _ _ _

/-- The state in which a write to the page of cluster `c` at instant `t` takes effect. -/
def counted (s : State) (t c : Nat) : State := (s.tick t).countWrite ⟨18, c⟩

theorem r_counted (s : State) (t c : Nat) {g : Fld} (hfrom : 64 ≤ g.off) (hto : g.off < 4096) (hlsb : g.lsb < 32) (j : Nat) :
    (counted s t c).r g j = s.r g j := r_countWrite_block (s.tick t) _ (by omega) (by omega) hlsb j

theorem on_counted (s : State) (t c : Nat) {g : Fld} (hfrom : 64 ≤ g.off) (hto : g.off < 4096) (hlsb : g.lsb < 32) (j : Nat) :
    (counted s t c).on g j = s.on g j := congrArg (· != 0) (r_counted s t c hfrom hto hlsb j)

/-- What a command answers whose check does not hold. -/
theorem answer_neg {s u v : State} {p : Prop} {_ : Decidable p} (h : ¬ p) :
    Host.Outcome.next (s.keepK (if p then u else v)) = (.next (s.keepK v) : Host.Outcome State Fault Refusal) := by
  rw [if_neg h]

@[simp] theorem cluster_counted (s : State) (t c m : Nat) : (counted s t c).cluster m = s.cluster m := rfl

@[simp] theorem loop_counted (s : State) (t c g : Nat) : (counted s t c).loop g = s.loop g := rfl

@[simp] theorem lw_counted (s : State) (t c g w : Nat) : (counted s t c).lw g w = s.lw g w := rfl

@[simp] theorem loopBit_counted (s : State) (t c g b : Nat) : (counted s t c).loopBit g b = s.loopBit g b := rfl

@[simp] theorem loopMem_counted (s : State) (t c : Nat) : (counted s t c).loopMem = s.loopMem := rfl

end Sys2Proof.LoopEngineLaws
end

section
/-! The relay tune: start, abort, time-out and the request for its gains (R207, R208). -/

namespace Sys2Proof.TuneLaws

open Sys2Proof Sys2Proof.Machine Sys2Proof.Laws Sys2Proof.LoopEngineLaws

/-! ### The end of a tune without result -/

theorem tuneFail_running {s : State} {c : Nat} (hrun : (s.cluster c).tune.running = true) (cause : Nat) :
    s.tuneFail c cause = s.tuneEnd c 3 cause := if_pos hrun

theorem tuneEnd_failed (s : State) (c cause : Nat) :
    (s.tuneEnd c 3 cause).r CLE.STATE c = 3 ∧ (s.tuneEnd c 3 cause).r CLE.CAUSE c = cause % 8 ∧
      ((s.tuneEnd c 3 cause).cluster c).tune.running = false := by
  rw [State.tuneEnd, if_neg (by decide)]
  refine ⟨?_, ?_, ?_⟩
  · rw [r_loopEvt _ _ _ _ _ (by decide) (by decide) (by decide) (by decide),
      r_w_apart (by decide) (by decide), r_w_cut _ _ _ _ _ (by decide)]
    rfl
  · rw [r_loopEvt _ _ _ _ _ (by decide) (by decide) (by decide) (by decide), r_w_cut _ _ _ _ _ (by decide)]
    rfl
  · simp

/-! ### The commands on a page that takes them -/

theorem exec_tuneAbort {s : State} {r : Requester} {c : Fin 4} (t : Nat) (h : Takes s r ⟨18, c⟩) :
    exec (.tuneAbort t r c) s = .next (s.keepK ((counted s t c).tuneFail c 5)) := cmdK_takes h t _ _ _

theorem exec_tuneTimeout {s : State} {c : Fin 4} {t : Nat} (hon : s.islandOn .loop = true)
    (hlate : (s.cluster c).tune.lastSwitch + 1000000000 * s.r CLE.TIMEOUT_S c ≤ (s.tick t).now) :
    exec (.tuneTimeout t c) s = .next (s.keepK ((s.tick t).tuneFail c 3)) := by
  refine (runK_on hon t _).trans ?_
  exact answer_neg (Nat.not_lt.mpr hlate)

/-- The tune of a cluster as it stands when it starts on a slot (R207). -/
def startedTune (s : State) (t c slot : Nat) : TuneX :=
  { running := true, slot := slot, bias := s.lwi (128 * c + slot) 51, r0 := s.lwi (128 * c + slot) 50,
    relay := s.lwi (128 * c + slot) 51, lastSwitch := (s.tick t).now, apply := (s.cluster c).tune.apply }

theorem exec_tuneStart {s : State} {r : Requester} {c : Fin 4} (t : Nat) (h : Takes s r ⟨18, c⟩)
    (hidle : (s.cluster c).tune.running = false) (hmode : cfgMode (s.lw (128 * c.val + s.r CLE.TUNE_LOOP c) 0) ≠ 0)
    (hpv : s.loopBit (128 * c.val + s.r CLE.TUNE_LOOP c) 3 = false) :
    exec (.tuneStart t r c) s = .next (s.keepK (((((counted s t c).setCluster c
      { s.cluster c with tune := startedTune s t c (s.r CLE.TUNE_LOOP c) }).w CLE.STATE 1 c).w CLE.CAUSE 0 c).w CLE.CYCLES 0 c)) := by
  have hslot : ((s.tick t).countWrite ⟨18, c⟩).r CLE.TUNE_LOOP c = s.r CLE.TUNE_LOOP c :=
    r_counted s t c (by decide) (by decide) (by decide) c
  have hfree : ((s.cluster c).tune.running || cfgMode (s.lw (128 * c.val + s.r CLE.TUNE_LOOP c) 0) == 0 ||
      s.loopBit (128 * c.val + s.r CLE.TUNE_LOOP c) 3) = false := by
    simp [hidle, hmode, hpv]
  refine (cmdK_takes h t _ _ _).trans ?_
  dsimp only
  rw [hslot]
  exact answer_neg (Bool.not_eq_true _ ▸ hfree)

theorem exec_tuneApply {s : State} {r : Requester} {c : Fin 4} (t : Nat) (h : Takes s r ⟨18, c⟩) (hdone : s.r CLE.STATE c = 2)
    (hother : s.on CLE.PENDING c = false ∨ s.r CLE.LOOP_SEL c ≠ s.r CLE.TUNE_LOOP c) :
    exec (.tuneApply t r c) s = .next (s.keepK ((counted s t c).setCluster c
      { s.cluster c with tune := { (s.cluster c).tune with apply := some (s.r CLE.TUNE_LOOP c) } })) := by
  have hfield (g : Fld) (hfrom : 64 ≤ g.off) (hto : g.off < 4096) (hlsb : g.lsb < 32) :
      ((s.tick t).countWrite ⟨18, c⟩).r g c = s.r g c := r_counted s t c hfrom hto hlsb c
  have hfree : ¬ (s.r CLE.STATE c ≠ 2 ∨ (s.on CLE.PENDING c && s.r CLE.LOOP_SEL c == s.r CLE.TUNE_LOOP c) = true) := by
    rcases hother with hnone | hne
    · simp [hdone, hnone]
    · simp [hdone, hne]
  refine (cmdK_takes h t _ _ _).trans ?_
  have hpending : ((s.tick t).countWrite ⟨18, c⟩).on CLE.PENDING c = s.on CLE.PENDING c := on_counted s t c (by decide) (by decide) (by decide) c
  dsimp only
  rw [hfield CLE.TUNE_LOOP (by decide) (by decide) (by decide), hfield CLE.STATE (by decide) (by decide) (by decide),
    hpending, hfield CLE.LOOP_SEL (by decide) (by decide) (by decide)]
  exact answer_neg hfree

/-! ### The statement -/

/-- Settles O25: each command runs to a state that is written out, and its registers and records are read there. -/
theorem tuning : Obligations.Tuning := by
  unfold Obligations.Tuning
  intro t r c s
  refine ⟨fun htakes => ⟨?start, ?abort, ?apply⟩, ?timeout⟩
  case start =>
    intro hidle hmode hpv
    refine ⟨_, exec_tuneStart t htakes hidle hmode hpv, ?_, ?_, ?_, ?_, ?_⟩
    · rw [r_keepK, r_w_apart (by decide) (by decide), r_w_apart (by decide) (by decide), r_w_cut _ _ _ _ _ (by decide)]
      rfl
    · rw [r_keepK, r_w_apart (by decide) (by decide), r_w_cut _ _ _ _ _ (by decide)]
      rfl
    · rw [r_keepK, r_w_cut _ _ _ _ _ (by decide)]
      rfl
    · simp [startedTune]
    · simp [startedTune]
  case abort =>
    intro hrun
    refine ⟨_, exec_tuneAbort t htakes, ?_⟩
    rw [tuneFail_running (s := counted s t c) hrun]
    exact tuneEnd_failed (counted s t c) c 5
  case apply =>
    intro hdone hother
    exact ⟨_, exec_tuneApply t htakes hdone hother, by simp, rfl⟩
  case timeout =>
    intro hon hrun hlate
    refine ⟨_, exec_tuneTimeout hon hlate, ?_⟩
    rw [tuneFail_running (s := s.tick t) hrun]
    exact tuneEnd_failed (s.tick t) c 3

end Sys2Proof.TuneLaws
end

section
/-! The configuration of a control cluster: the staging copy, commits, live fields, buffer clears, the output delay and the worst-case run (R177, R179, R206, R210 to R212). -/

namespace Sys2Proof.LoopConfigLaws

open Sys2Proof Sys2Proof.Machine Sys2Proof.Laws Sys2Proof.LoopEngineLaws

/-! ### The staging copy (R210) -/

/-- A table filled with one write per listed word reads the value written, and elsewhere what it held. -/
theorem sget_foldl_sset (d f : Nat → Word) (w : Nat) : ∀ (xs : List Nat) (m : List (Nat × Word)),
    sget (d w) (xs.foldl (fun m w => sset (d w) m w (f w)) m) w = if w ∈ xs then f w else sget (d w) m w
  | [], _ => by simp
  | x :: xs, m => by
    rw [List.foldl_cons, sget_foldl_sset d f w xs]
    by_cases hx : w = x
    · subst hx
      simp
    · simp [hx, sget_sset_ne _ _ _ _ hx]

theorem staged_loadStage (s : State) (c slot : Nat) {w : Nat} (hw : w < 48) :
    (s.loadStage c slot).staged c w = s.lw (128 * c + slot) w := by
  rw [State.staged, State.loadStage, cluster_setCluster, State.config, sget_foldl_sset, if_pos (List.mem_range.mpr hw), State.lw,
    BitVec.ofNat_toNat, BitVec.setWidth_eq]

/-! ### A page without a pending commit (R212) -/

theorem clePending_free {s : State} {c : Nat} (h : s.on CLE.PENDING c = false) (f : State → State) : s.clePending c f = f s :=
  if_neg (by simp [h])

/-- A command that a pending commit refuses takes effect where none is pending. -/
theorem cmdK_free {s : State} {r : Requester} {c : Fin 4} (t : Nat) (htakes : Takes s r ⟨18, c⟩) (hfree : s.on CLE.PENDING c = false)
    (f : State → State) : s.cmdK t (fun s => s.pageWrite r ⟨18, c⟩ true fun s => s.clePending c f) =
      .next (s.keepK (f (counted s t c))) := by
  have hfree' : (counted s t c).on CLE.PENDING c = false := (on_counted s t c (by decide) (by decide) (by decide) c).trans hfree
  rw [cmdK_takes htakes]
  exact congrArg (fun u => Host.Outcome.next (s.keepK u)) (clePending_free hfree' f)

@[simp] theorem staged_counted (s : State) (t c m w : Nat) : (counted s t c).staged m w = s.staged m w := rfl

@[simp] theorem clusterCfg_counted (s : State) (t c m : Nat) : (counted s t c).clusterCfg m = s.clusterCfg m := rfl

theorem loopSel_counted (s : State) (t c m : Nat) : (counted s t c).r CLE.LOOP_SEL m = s.r CLE.LOOP_SEL m :=
  r_counted s t c (by decide) (by decide) (by decide) m

theorem rcBuffers_counted (s : State) (t c : Nat) : (counted s t c).rcBuffers = s.rcBuffers := by
  have hpending (m : Nat) : (counted s t c).on CLE.PENDING m = s.on CLE.PENDING m :=
    on_counted s t c (by decide) (by decide) (by decide) m
  simp only [State.rcBuffers, hpending, loopSel_counted, lw_counted, loopMem_counted, staged_counted]

theorem commitCause_counted (s : State) (t c m slot : Nat) : (counted s t c).commitCause m slot = s.commitCause m slot := by
  unfold State.commitCause
  rw [rcBuffers_counted]
  rfl

/-! ### What the commands run to -/

/-- A commit that is accepted for a loop that stays or comes on waits for the sample, and the worst-case run begins (R179, R210). -/
theorem exec_commit {s : State} {r : Requester} {c : Fin 4} (t : Nat) (htakes : Takes s r ⟨18, c⟩)
    (hfree : s.on CLE.PENDING c = false) (hcause : s.commitCause c (s.r CLE.LOOP_SEL c) = 0)
    (hidle : (s.cluster c).tune.running = false) (hmode : cfgMode (s.staged c 0) ≠ 0) :
    exec (.commit t r c) s = .next (s.keepK (((counted s t c).w CLE.PENDING 1 c).worstBegin c)) := by
  have hcause' : ¬ (counted s t c).commitCause c ((counted s t c).r CLE.LOOP_SEL c) ≠ 0 := by
    rw [loopSel_counted, commitCause_counted]
    exact not_not_intro hcause
  have hnotune (m : Nat) : ¬ (((counted s t c).cluster c).tune.running && ((counted s t c).cluster c).tune.slot == m) = true := by
    simp [hidle]
  refine (cmdK_free t htakes hfree _).trans (congrArg (fun u => Host.Outcome.next (s.keepK u)) ?_)
  dsimp only
  rw [if_neg hcause', if_neg (hnotune _)]
  refine if_neg fun hoff => hmode ?_
  have hstage : ((((counted s t c).w CLE.PENDING 1 c).worstBegin c).staged c 0) = s.staged c 0 := by
    simp [State.staged, State.worstBegin]
  exact hstage ▸ hoff.2

theorem worstBegin_begun (s : State) (c : Nat) :
    (s.worstBegin c).r CLE.WORST_VALID c = 0 ∧ ((s.worstBegin c).cluster c).worstRun = true := by
  refine ⟨?_, by simp [State.worstBegin]⟩
  rw [State.worstBegin, r_w_cut _ _ _ _ _ (by decide)]
  rfl

/-- The word that a live field has (R211). -/
def liveWord : LiveReg → Nat
  | .spFixed => 9
  | .manOut => 36

theorem exec_liveFieldWrite {s : State} {r : Requester} {c : Fin 4} (t : Nat) (htakes : Takes s r ⟨18, c⟩) (reg : LiveReg) (v : Word) :
    exec (.liveFieldWrite t r c reg v) s = .next (s.keepK (((counted s t c).setCluster c { s.cluster c with
      stage := sset (loopRst (liveWord reg)) (s.cluster c).stage (liveWord reg) v }).setLw
        (128 * c.val + s.r CLE.LOOP_SEL c) (liveWord reg) v.toNat)) := by
  refine (cmdK_takes htakes t _ _ _).trans (congrArg (fun u => Host.Outcome.next (s.keepK u)) ?_)
  have hsel : (((s.tick t).countWrite ⟨18, c⟩).setCluster c { s.cluster c with
      stage := sset (loopRst (liveWord reg)) (s.cluster c).stage (liveWord reg) v }).r CLE.LOOP_SEL c = s.r CLE.LOOP_SEL c :=
    loopSel_counted s t c c
  cases reg
  · rw [← hsel]
    rfl
  · rw [← hsel]
    rfl

/-- The word of a live field is written to the active configuration and to the staging copy (R211). -/
theorem liveField_both (s : State) (c w g : Nat) (x : ClusterX) (v : Word) :
    (((s.setCluster c { x with stage := sset (loopRst w) x.stage w v }).setLw g w v.toNat).lw g w = v.toNat) ∧
      ((s.setCluster c { x with stage := sset (loopRst w) x.stage w v }).setLw g w v.toNat).staged c w = v.toNat := by
  constructor
  · simp [State.lw, State.setLw]
  · simp [State.staged, State.setLw, State.cluster, State.setCluster]

/-- The delay takes its nearest legal value, and the worst-case run begins (R177, R179). -/
theorem exec_outDelayWrite {s : State} {r : Requester} {c : Fin 4} (t : Nat) (htakes : Takes s r ⟨18, c⟩) (v : Word) :
    ∃ u : State, exec (.outDelayWrite t r c v) s =
      .next (s.keepK ((u.w CLE.OUT_DELAY_US (max 2 (min 10000 (v.toNat % 2 ^ 14))) c).worstBegin c)) := ⟨_, cmdK_takes htakes t _ _ _⟩

theorem outDelay_worstBegin (s : State) (c : Nat) {y : Nat} (hy : y ≤ 10000) :
    ((s.w CLE.OUT_DELAY_US y c).worstBegin c).r CLE.OUT_DELAY_US c = y := by
  rw [State.worstBegin, r_w_apart (by decide) (by decide), r_setCluster, r_w_cut _ _ _ _ _ (by decide)]
  exact Nat.mod_eq_of_lt (show y < 2 ^ 14 by omega)

/-- The worst-case run ends: its result stands valid in the registers, whatever it is (R179). -/
theorem exec_worstRunDone {s : State} {c : Fin 4} (t : Nat) (hon : s.islandOn .loop = true) (hrun : (s.cluster c).worstRun = true) :
    Gives (.worstRunDone t c) s (fun u => (u.cluster c).worstRun = false ∧ u.r CLE.WORST_VALID c = 1) := by
  have hrun' : ¬ (!((s.tick t).cluster c).worstRun) = true := by simp [hrun]
  refine ⟨_, (runK_on hon t _).trans (answer_neg hrun'), ?_⟩
  extract_lets sel act pend xs worst y v x
  clear_value worst
  have hend : (x.cluster c).worstRun = false := by
    unfold x v
    rw [cluster_w, State.wb, cluster_w, cluster_w, cluster_setCluster]
  have hvalid : x.r CLE.WORST_VALID c = 1 := by
    unfold x
    rw [r_w_cut _ _ _ _ _ (by decide)]
    rfl
  rw [cluster_keepK, r_keepK]
  split
  · rw [cluster_loopEvt, r_loopEvt _ _ _ _ _ (by decide) (by decide) (by decide) (by decide)]
    exact ⟨hend, hvalid⟩
  · exact ⟨hend, hvalid⟩

/-! ### The statement -/

/-- Settles O24: each command runs to a state that is written out, and its registers, words and records are read there. -/
theorem loopConfiguration : Obligations.LoopConfiguration := by
  unfold Obligations.LoopConfiguration
  intro t r c s
  refine ⟨fun htakes hfree => ⟨?select, ?discard, ?commit, ?clear⟩, fun htakes v => ⟨?setpoint, ?manual, ?delay⟩, ?cleared,
    exec_worstRunDone t⟩
  case select =>
    intro slot
    refine ⟨_, cmdK_free t htakes hfree _, ?_, fun w hw => staged_loadStage ((counted s t c).w CLE.LOOP_SEL slot c) c slot hw, rfl⟩
    rw [r_keepK, State.loadStage, r_setCluster, r_w_cut _ _ _ _ _ (by decide)]
    exact Nat.mod_eq_of_lt slot.isLt
  case discard =>
    refine ⟨_, cmdK_free t htakes hfree _, fun w hw => ?_, rfl⟩
    rw [← loopSel_counted s t c c]
    exact staged_loadStage (counted s t c) c _ hw
  case commit =>
    intro hcause hidle hmode
    obtain ⟨hvalid, hworst⟩ := worstBegin_begun ((counted s t c).w CLE.PENDING 1 c) c
    refine ⟨_, exec_commit t htakes hfree hcause hidle hmode, ?_, hvalid, hworst, rfl⟩
    rw [r_keepK, State.worstBegin, r_w_apart (by decide) (by decide), r_setCluster, r_w_cut _ _ _ _ _ (by decide)]
    rfl
  case clear =>
    refine ⟨_, cmdK_free t htakes hfree _, ?_, rfl⟩
    rw [← loopSel_counted s t c c]
    simp
  case setpoint => exact ⟨_, exec_liveFieldWrite t htakes .spFixed v, liveField_both (counted s t c) c 9 _ (s.cluster c) v⟩
  case manual => exact ⟨_, exec_liveFieldWrite t htakes .manOut v, liveField_both (counted s t c) c 36 _ (s.cluster c) v⟩
  case delay =>
    obtain ⟨u, hexec⟩ := exec_outDelayWrite t htakes v
    exact ⟨_, hexec, outDelay_worstBegin u c (by omega), (worstBegin_begun _ c).1⟩
  case cleared =>
    intro g hon
    exact ⟨_, runK_on hon t _, by simp, rfl⟩

end Sys2Proof.LoopConfigLaws
end

section
/-! One update of a control loop: its sample, its start, its end and its output instant (R175 to R177, R200). -/

namespace Sys2Proof.LoopUpdateLaws

open Sys2Proof Sys2Proof.Machine Sys2Proof.Laws Sys2Proof.LoopEngineLaws Sys2Proof.RecordFrame

/-! ### The words of a slot -/

theorem lw_setLw_same (s : State) (g w v : Nat) : (s.setLw g w v).lw g w = v % 2 ^ 32 := by
  simp [State.lw, State.setLw]

theorem lw_setLw_ne (s : State) (g : Nat) {w w' : Nat} (v : Nat) (h : w' ≠ w) : (s.setLw g w v).lw g w' = s.lw g w' :=
  congrArg BitVec.toNat (sget_sset_ne _ _ _ _ fun heq => h (Nat.add_left_cancel heq))

/-- A 32-bit value reads back from the two's complement it is written in. -/
theorem sgn_bits {v : Int} (hlow : -(2 ^ 31) ≤ v) (hhigh : v < 2 ^ 31) : sgn 32 (bits 32 v % 2 ^ 32) = v := by
  unfold sgn bits
  split <;> omega

theorem lwi_setLwi_same (s : State) (g w : Nat) {v : Int} (hlow : -(2 ^ 31) ≤ v) (hhigh : v < 2 ^ 31) :
    (s.setLwi g w v).lwi g w = v := by
  rw [State.lwi, State.setLwi, lw_setLw_same, sgn_bits hlow hhigh]

@[simp] theorem cluster_setLoop (s : State) (g : Nat) (x : LoopX) (c : Nat) : (s.setLoop g x).cluster c = s.cluster c := rfl

/-- From `s` to `u` cluster `c` keeps its update in progress, and the slot of loop `g` its words but those of `ws`. -/
def SameWords (c g : Nat) (ws : List Nat) (s u : State) : Prop :=
  (u.cluster c).running = (s.cluster c).running ∧ ∀ w, w ∉ ws → u.lw g w = s.lw g w

namespace SameWords

variable {c g : Nat} {ws : List Nat} {s u v : State}

theorem refl (s : State) : SameWords c g ws s s := ⟨rfl, fun _ _ => rfl⟩

theorem ite {p : Prop} {_ : Decidable p} (h : SameWords c g ws s u) (k : SameWords c g ws s v) :
    SameWords c g ws s (if p then u else v) := by
  split
  · exact h
  · exact k

section
variable (h : SameWords c g ws s u)
include h

/-- What writes neither the loop memory nor the clusters keeps the words and the update in progress. -/
theorem keeps (k : Keeps [.rcMem, .outImg, .loops, .pwm, .groups] u v) : SameWords c g ws s v := by
  obtain ⟨hrun, hwords⟩ := h
  have hmem : v.loopMem = u.loopMem := k .loopMem (by decide)
  have hclusters : v.clusters = u.clusters := k .clusters (by decide)
  refine ⟨?_, fun w hw => ?_⟩
  · rw [← hrun, State.cluster, hclusters]
    rfl
  · rw [← hwords w hw, State.lw, hmem]
    rfl

theorem setLw {w : Nat} (hw : w ∈ ws) {x : Nat} : SameWords c g ws s (u.setLw g w x) :=
  ⟨h.1, fun w' hw' => (lw_setLw_ne u g x (ne_of_mem_of_not_mem hw hw').symm).trans (h.2 w' hw')⟩

theorem setLwi {w : Nat} (hw : w ∈ ws) {x : Int} : SameWords c g ws s (u.setLwi g w x) := h.setLw hw

theorem setLoopBit (hw : 48 ∈ ws) {b : Nat} {x : Bool} : SameWords c g ws s (u.setLoopBit g b x) := h.setLw hw

theorem setTune {x : TuneX} : SameWords c g ws s (u.setCluster c { u.cluster c with tune := x }) := by
  obtain ⟨hrun, hwords⟩ := h
  refine ⟨?_, hwords⟩
  rw [cluster_setCluster, hrun]

theorem w {f : Fld} {x i j : Nat} : SameWords c g ws s (u.w f x i j) := h

theorem inc {f : Fld} {i j n : Nat} : SameWords c g ws s (u.inc f i j n) := h

theorem setLoop {m : Nat} {x : LoopX} : SameWords c g ws s (u.setLoop m x) := h

theorem setRcWord {a : Nat} {m : Int} : SameWords c g ws s (u.setRcWord a m) := h

theorem loopEvt {m b cause : Nat} {extra : List Nat} : SameWords c g ws s (u.loopEvt m b cause extra) :=
  h.keeps (Keeps.refl u).loopEvt

theorem tuneEnd {st cause : Nat} : SameWords c g ws s (u.tuneEnd c st cause) :=
  have hended := h.setTune.w.w
  ite hended.loopEvt hended.loopEvt

theorem tuneFail {cause : Nat} : SameWords c g ws s (u.tuneFail c cause) := ite h.tuneEnd h

theorem tuneUpdate {period : Nat} {ei yf : Int} : SameWords c g ws s (u.tuneUpdate c period ei yf) := by
  unfold State.tuneUpdate
  refine ite h.tuneEnd ?_
  extract_lets x hyst d tn ended v
  have hv : SameWords c g ws s v := h.setTune.w
  refine ite hv ?_
  split
  · exact ite hv.tuneEnd (hv.keeps (Keeps.refl v).tuneResults).tuneEnd
  · exact ite hv.tuneEnd hv

theorem route1 {m : Nat} {out : Int} : SameWords c g ws s (u.route1 g m out).1 :=
  h.keeps ((Keeps.refl u).route1 (by decide) (by decide))

theorem loopSat (hw : 48 ∈ ws) {n : Nat} : SameWords c g ws s (u.loopSat g n) := ite h (h.inc.w.setLoopBit hw).loopEvt

theorem publish {m l : Nat} {pv out : Int} {bad : Bool} : SameWords c g ws s (u.publish m l pv out bad) :=
  h.keeps ((Keeps.refl u).publish (by decide))

omit h in
/-- What applies an output once the word of the output is written (R200 to R202). -/
theorem applyOut_written (hw : 48 ∈ ws) {x : Int} {late : Bool} (h : SameWords c g ws s (u.setLwi g 51 x)) :
    SameWords c g ws s (u.applyOut g x late) := by
  unfold State.applyOut
  extract_lets v
  have hv : SameWords c g ws s v := h.setLoopBit hw
  have hrouted := (hv.route1 (m := 37) (out := x)).route1 (m := 40) (out := x) |>.loopSat hw
    (n := (v.route1 g 37 x).2 + ((v.route1 g 37 x).1.route1 g 40 x).2)
  exact ite hrouted.publish hrouted

theorem applyOut (hw : 48 ∈ ws) (hout : 51 ∈ ws) {x : Int} {late : Bool} : SameWords c g ws s (u.applyOut g x late) :=
  applyOut_written hw (h.setLwi hout)

theorem applyWaiting (hw : 48 ∈ ws) (hout : 51 ∈ ws) : SameWords c g ws s (u.applyWaiting g) :=
  List.foldlRecOn _ _ h.setLoop fun _ hv _ _ => hv.applyOut hw hout

end

end SameWords

/-- The words of a slot that an update writes before it counts itself in word 62. -/
def updateWords : List Nat := [48, 49, 50, 52, 53, 54, 55, 56, 57, 58, 59, 60, 61]

/-- An update writes words of its slot, counts itself in word 62 with its instant in word 63, and then marks or applies its output (R193, R200). -/
theorem loopUpdate_counts (s : State) (g : Nat) (job : UpdJob) :
    ∃ v r, SameWords (g / 128) g updateWords s v ∧
      SameWords (g / 128) g [48, 51] (((v.setLwi g 61 r).setLw g 62 (v.lw g 62 + 1)).setLw g 63 (job.t % 1000000000))
        (s.loopUpdate g job) := by
  unfold State.loopUpdate
  extract_lets c cfg x tn tuned v1 tuned' len rcOn k outPrev q
  have h1 : SameWords c g updateWords s v1 := .ite (SameWords.refl s).tuneFail (.refl s)
  split
  next f n hfront =>
  extract_lets v2 tune eff eff' learn
  have h2 : SameWords c g updateWords s v2 := .ite h1.tuneUpdate h1
  split
  next urc n hrc =>
  split
  next b n hback =>
  split
  next m n' hlearn =>
  extract_lets v3 v4 was v5 v6 v7 v8 v9 v10 x10 v11 v12 v13 due x13 v14
  have h3 : SameWords c g updateWords s v3 := .ite h2.setRcWord h2
  have h4 : SameWords c g updateWords s v4 := .ite (h3.setLoopBit (by decide)) h3
  have h6 : SameWords c g updateWords s v6 := (h4.setLoopBit (by decide)).setLw (by decide)
  have h7 : SameWords c g updateWords s v7 := ((h6.setLwi (by decide)).setLwi (by decide)).setLw (by decide)
  have h8 : SameWords c g updateWords s v8 :=
    (((h7.setLwi (by decide)).setLwi (by decide)).setLwi (by decide)).setLwi (by decide)
  have h9 : SameWords c g updateWords s v9 :=
    (((h8.setLwi (by decide)).setLwi (by decide)).setLwi (by decide)).setLwi (by decide)
  have h12 : SameWords c g [48, 51] v10 v12 := (SameWords.refl v10).setLoop.loopSat (by decide)
  have h13 : SameWords c g [48, 51] v10 v13 := .ite h12.w.loopEvt h12
  have h14 : SameWords c g [48, 51] v10 v14 := (h13.applyWaiting (by decide) (by decide)).applyOut (by decide) (by decide)
  exact ⟨v9, urc, h9, .ite h13.setLoop h14.inc.w.loopEvt⟩

/-- An update that ends has counted itself in word 62 of its slot and left its instant in word 63. -/
theorem loopUpdate_words (s : State) (g : Nat) (job : UpdJob) :
    ((s.loopUpdate g job).cluster (g / 128)).running = (s.cluster (g / 128)).running ∧
      (s.loopUpdate g job).lw g 63 = job.t % 1000000000 ∧ (s.loopUpdate g job).lw g 62 = (s.lw g 62 + 1) % 2 ^ 32 := by
  obtain ⟨v, r, ⟨hrun, hwords⟩, ⟨hrun', hwords'⟩⟩ := loopUpdate_counts s g job
  refine ⟨hrun'.trans hrun, ?_, ?_⟩
  · rw [hwords' 63 (by decide), lw_setLw_same]
    exact Nat.mod_eq_of_lt (by omega)
  · rw [hwords' 62 (by decide), lw_setLw_ne _ _ _ (by decide), lw_setLw_same, hwords 62 (by decide)]

/-! ### What the commands run to -/

/-- The state of the engine once loop `g` has taken its sample instant (R174). -/
def sampled (s : State) (t g : Nat) : State := (s.tick t).setLoop g { s.loop g with sampled := some (s.tick t).now }

@[simp] theorem cluster_sampled (s : State) (t g c : Nat) : (sampled s t g).cluster c = s.cluster c := rfl

@[simp] theorem enabled_sampled (s : State) (t g code i : Nat) : (sampled s t g).enabled code i = s.enabled code i := rfl

@[simp] theorem follows_sampled (s : State) (t g : Nat) : (sampled s t g).follows = s.follows := rfl

@[simp] theorem lw_sampled (s : State) (t g m w : Nat) : (sampled s t g).lw m w = s.lw m w := rfl

@[simp] theorem loopBit_sampled (s : State) (t g m b : Nat) : (sampled s t g).loopBit m b = s.loopBit m b := rfl

@[simp] theorem latchJob_sampled (s : State) (t g m : Nat) : (sampled s t g).latchJob m = (s.tick t).latchJob m := rfl

theorem exec_loopSample {s : State} {t : Nat} {g : Fin 512} (hon : s.islandOn .loop = true) (hdue : (s.tick t).sampleDue g = true)
    (hnone : s.on CLE.PENDING (g.val / 128) = false) (happly : (s.cluster (g.val / 128)).tune.apply = none)
    (hclear : (s.loop g).clearReq = false)
    (hqueue : (s.cluster (g.val / 128)).queue.any (fun j => j.slot == g.val % 128) = false)
    (hruns : (s.enabled 18 (g.val / 128) && !s.follows && cfgMode (s.lw g 0) != 0 && !s.loopBit g 13) = true) :
    exec (.loopSample t g) s = .next (s.keepK ((sampled s t g).setCluster (g.val / 128) { s.cluster (g.val / 128) with
      queue := queueJob (s.cluster (g.val / 128)).queue ((s.tick t).latchJob g) })) := by
  refine (runK_on hon t _).trans ((answer_neg (by simp [hdue])).trans (congrArg (fun u => Host.Outcome.next (s.keepK u)) ?_))
  extract_lets c slot y v1 v2 v3 v4 x v5 cl
  have h2 : v2 = v1 := if_neg (by
    rw [show v1.on CLE.PENDING c = false from hnone]
    simp)
  have h3 : v3 = v2 := if_neg (by
    rw [h2, show (v1.cluster c).tune.apply = none from happly]
    simp)
  have h4 : v4 = v3 := if_neg (by
    rw [h3, h2]
    simpa [v1, y] using hclear)
  have hv : v4 = sampled s t g := h4.trans (h3.trans h2)
  have h5 : v5 = v4 := if_neg (by
    unfold x
    rw [hv]
    simpa [slot, sampled] using hqueue)
  have hcl : cl = s.cluster c := by
    unfold cl
    rw [h5, hv, cluster_sampled]
  rw [hcl, h5, hv]
  simp only [enabled_sampled, follows_sampled, lw_sampled, loopBit_sampled, cluster_sampled, latchJob_sampled]
  refine (if_pos ?_).trans ?_
  · exact hruns
  · rfl

/-- A queued update of loop `g` as it starts, with the configuration as it stands (R176, R210). -/
def startedJob (s : State) (g : Nat) (j : UpdJob) : UpdJob :=
  { j with cfg := s.config g, fresh := (s.loop g).fresh, gains := (s.loop g).gains }

theorem exec_loopUpdateStart {s : State} {c : Fin 4} {j : UpdJob} {rest : List UpdJob} (t : Nat) (hon : s.islandOn .loop = true)
    (hidle : (s.cluster c).running = none) (hqueue : (s.cluster c).queue = j :: rest) :
    exec (.loopUpdateStart t c) s = .next (s.keepK (((s.tick t).setCluster c
      { s.cluster c with queue := rest, running := some (startedJob s (128 * c.val + j.slot) j) }).setLoop (128 * c.val + j.slot)
        { s.loop (128 * c.val + j.slot) with fresh := false, gains := false })) := by
  refine (runK_on hon t _).trans (congrArg (fun u => Host.Outcome.next (s.keepK u)) ?_)
  simp only [cluster_tick, hidle, hqueue]
  rfl

theorem exec_loopUpdateDone {s : State} {c : Fin 4} {j : UpdJob} (t : Nat) (hon : s.islandOn .loop = true)
    (hrun : (s.cluster c).running = some j) :
    exec (.loopUpdateDone t c) s = .next (s.keepK
      (((s.tick t).setCluster c { s.cluster c with running := none }).loopUpdate (128 * c.val + j.slot) j)) := by
  refine (runK_on hon t _).trans (congrArg (fun u => Host.Outcome.next (s.keepK u)) ?_)
  simp only [cluster_tick, hrun]

theorem exec_loopOutput {s : State} {t : Nat} {g : Fin 512} {o : Nat × Int} {rest : List (Nat × Int)} (hon : s.islandOn .loop = true)
    (houts : (s.loop g).outs = o :: rest) (hdue : o.1 ≤ (s.tick t).now) :
    exec (.loopOutput t g) s =
      .next (s.keepK (((s.tick t).setLoop g { s.loop g with outs := rest }).applyOut g o.2 false)) := by
  refine (runK_on hon t _).trans (congrArg (fun u => Host.Outcome.next (s.keepK u)) ?_)
  simp only [loop_tick, houts]
  exact if_pos hdue

/-- An output that is applied stands in word 51 of the slot, and the outputs that wait are those left (R200). -/
theorem applyOut_stands (s : State) (g : Nat) {v : Int} (late : Bool) (hlow : -(2 ^ 31) ≤ v) (hhigh : v < 2 ^ 31) :
    (s.applyOut g v late).loop g = s.loop g ∧ (s.applyOut g v late).lwi g 51 = v := by
  have hloops : (s.applyOut g v late).loops = s.loops :=
    (Keeps.refl (W := [.groups, .loopMem, .outImg, .pwm]) s).applyOut (by decide) (by decide) (by decide) (by decide) .loops (by decide)
  have hword : SameWords 0 g [48] (s.setLwi g 51 v) (s.applyOut g v late) :=
    SameWords.applyOut_written (by decide) (SameWords.refl _)
  refine ⟨?_, ?_⟩
  · rw [State.loop, hloops]
    rfl
  · rw [State.lwi, hword.2 51 (by decide)]
    exact lwi_setLwi_same s g 51 hlow hhigh

/-! ### The statement -/

/-- Settles O23: each command runs to a state that is written out; an update and an output keep the words that other steps have written. -/
theorem loopUpdates : Obligations.LoopUpdates := by
  unfold Obligations.LoopUpdates
  intro t s hon
  refine ⟨?sample, ?start, ?done, ?output⟩
  case sample =>
    intro g hdue hnone happly hclear hqueue henabled hleads hmode hoff
    have hruns : (s.enabled 18 (g.val / 128) && !s.follows && cfgMode (s.lw g 0) != 0 && !s.loopBit g 13) = true := by
      simp [henabled, hleads, hmode, hoff]
    exact ⟨_, exec_loopSample hon hdue hnone happly hclear hqueue hruns, by simp, rfl, rfl⟩
  case start =>
    intro c j rest hidle hqueue
    refine ⟨_, exec_loopUpdateStart t hon hidle hqueue, ?_, ?_, by simp, by simp, rfl⟩
    · rw [cluster_keepK, cluster_setLoop, cluster_setCluster]
      rfl
    · rw [cluster_keepK, cluster_setLoop, cluster_setCluster]
  case done =>
    intro c j hrun hslot
    have hcluster : (128 * c.val + j.slot) / 128 = c.val := by omega
    obtain ⟨hended, hinstant, hcount⟩ :=
      loopUpdate_words ((s.tick t).setCluster c { s.cluster c with running := none }) (128 * c.val + j.slot) j
    rw [hcluster, cluster_setCluster] at hended
    exact ⟨_, exec_loopUpdateDone t hon hrun, hended, hinstant, hcount⟩
  case output =>
    intro g o rest houts hdue hlow hhigh
    obtain ⟨hloop, hword⟩ := applyOut_stands ((s.tick t).setLoop g { s.loop g with outs := rest }) g false hlow hhigh
    refine ⟨_, exec_loopOutput hon houts hdue, ?_, hword⟩
    rw [loop_keepK, hloop, loop_setLoop]

end Sys2Proof.LoopUpdateLaws
end

section
/-! Fields of the measurement and actuation pages: a bit that is put, and what events, counted writes and trip lines leave (R51, R52, R62, R236). -/

namespace Sys2Proof.FieldPageLaws

open Sys2Proof Sys2Proof.Machine Sys2Proof.Laws

/-! ### A bit that is put -/

/-- Adding 2^i to a number whose bit `i` is clear sets that bit alone. -/
theorem testBit_add_two_pow {v i : Nat} (h : v.testBit i = false) (j : Nat) : (v + 2 ^ i).testBit j = (decide (j = i) || v.testBit j) := by
  rw [Nat.add_comm]
  rcases Nat.lt_trichotomy j i with hlt | rfl | hgt
  · simp [Nat.testBit_two_pow_add_gt hlt, Nat.ne_of_lt hlt]
  · simp [Nat.testBit_two_pow_add_eq, h]
  · obtain ⟨m, rfl⟩ := Nat.exists_eq_add_of_le' hgt
    have heven : v / 2 ^ i % 2 = 0 := by simpa [Nat.testBit_eq_decide_div_mod_eq] using h
    have hdiv : (2 ^ i + v) / 2 ^ (i + 1) = v / 2 ^ (i + 1) := by
      rw [pow_succ, ← Nat.div_div_eq_div_mul, ← Nat.div_div_eq_div_mul, Nat.add_div_left _ (by positivity)]
      omega
    rw [Nat.testBit_add, Nat.testBit_add v, hdiv]
    simp; omega

/-- A bit that is put reads back, and the others stand. -/
theorem testBit_putBit (v i : Nat) (b : Bool) (j : Nat) : (putBit v i b).testBit j = if j = i then b else v.testBit j := by
  unfold putBit
  cases hv : v.testBit i
  case false =>
    cases b
    · by_cases hj : j = i <;> simp [hj, hv]
    · by_cases hj : j = i <;> simp [testBit_add_two_pow hv, hj]
  case true =>
    cases b
    · have hle : 2 ^ i ≤ v := Nat.ge_two_pow_of_testBit hv
      have hsum : v - 2 ^ i + 2 ^ i = v := Nat.sub_add_cancel hle
      have hclear : (v - 2 ^ i).testBit i = false := by
        have hset := Nat.testBit_two_pow_add_eq (v - 2 ^ i) i
        rw [Nat.add_comm, hsum, hv] at hset
        simpa using hset.symm
      have hrest := testBit_add_two_pow hclear j
      rw [hsum] at hrest
      by_cases hj : j = i
      · simp [hj, hclear]
      · simp [hj, hrest]
    · by_cases hj : j = i <;> simp [hj, hv]

/-! ### Fields that an event leaves -/

/-- Repetition `k` of field `g` is a register of a block's own, behind the page header (R51). -/
def InBlock (g : Fld) (k : Nat) : Prop := 64 ≤ g.off + k * g.stride ∧ g.off + k * g.stride < 4096 ∧ g.lsb < 32

theorem inBlock {g : Fld} {k : Nat} (hg : 64 ≤ g.off ∧ g.off + (g.n - 1) * g.stride < 4096 ∧ g.lsb < 32) (hk : k < g.n) : InBlock g k := by
  obtain ⟨hfrom, hto, hlsb⟩ := hg
  have hrep : k * g.stride ≤ (g.n - 1) * g.stride := Nat.mul_le_mul_right _ (by omega)
  exact ⟨by omega, by omega, hlsb⟩

/-- A raw bit leaves the fields of the block. -/
theorem r_setEvtRaw_block (s : State) {code bit : Nat} (b : Bool) {g : Fld} {k : Nat} (h : InBlock g k) (hbit : bit < 32) (j : Nat) :
    (s.setEvtRaw code 0 bit b).r g j k = s.r g j k := by
  obtain ⟨hfrom, hto, hlsb⟩ := h
  refine r_setEvtRaw _ _ _ _ _ _ _ _ ?_
  simp only [rawKey, hbit, if_true, Fld.key, hdr, HDR.EVT_RAW]
  omega

/-- A condition shown in an event leaves the fields of the block. -/
theorem r_setRaw_block (s : State) {code bit : Nat} (b : Bool) (p q : List Nat) {g : Fld} {k : Nat} (h : InBlock g k) (hbit : bit < 32)
    (j : Nat) : (s.setRaw code 0 bit b p q).r g j k = s.r g j k := by
  obtain ⟨hfrom, hto, hlsb⟩ := h
  refine r_setRaw _ _ _ _ _ _ _ _ _ _ ?_ ?_
  · simp only [pendKey, hbit, if_true, Fld.key, hdr, HDR.EVT_PEND]
    omega
  · simp only [rawKey, hbit, if_true, Fld.key, hdr, HDR.EVT_RAW]
    omega

/-- A raised event leaves the fields of the block. -/
theorem r_raise_block (s : State) {code bit : Nat} (p q : List Nat) {g : Fld} {k : Nat} (h : InBlock g k) (hbit : bit < 32) (j : Nat) :
    (s.raise code 0 bit p q).r g j k = s.r g j k := by
  obtain ⟨hfrom, hto, hlsb⟩ := h
  refine r_raise _ _ _ _ _ _ _ _ _ ?_
  simp only [pendKey, hbit, if_true, Fld.key, hdr, HDR.EVT_PEND]
  omega

/-- The state in which a write to the page of block `code` at instant `t` takes effect. -/
def counted (s : State) (t code : Nat) : State := (s.tick t).countWrite ⟨code, 0⟩

/-- A counted write leaves the fields of the block. -/
theorem r_counted (s : State) (t code : Nat) {g : Fld} {k : Nat} (h : InBlock g k) (j : Nat) : (counted s t code).r g j k = s.r g j k := by
  obtain ⟨hfrom, hto, hlsb⟩ := h
  exact LoopEngineLaws.r_countWrite_block (s.tick t) _ hfrom hto hlsb j

/-! ### Trip lines (R236) -/

theorem regs_tripOutputs (s : State) : s.tripOutputs.regs = s.regs :=
  List.foldlRecOn (motive := fun u : State => u.regs = s.regs) _ _ rfl fun u hu o _ => by
    split
    · exact hu
    · exact hu

theorem r_tripOutputs (s : State) (g : Fld) (j k : Nat) : s.tripOutputs.r g j k = s.r g j k := by
  rw [State.r, regs_tripOutputs, State.r]

/-- TRIP_SRC of a line stands on the ACT page. -/
theorem tripSrc_place (l : Nat) : (tripSrc l).code = 20 ∧ (tripSrc l).off = 0x054 ∧ (tripSrc l).lsb < 32 := by
  unfold tripSrc
  split <;> decide

end Sys2Proof.FieldPageLaws
end

section
/-! Measurement: sigma-delta channels, the SAR converter and the pulse inputs (R222 to R230). -/

namespace Sys2Proof.MeasurementLaws

open Sys2Proof Sys2Proof.Machine Sys2Proof.Laws Sys2Proof.PowerLaws Sys2Proof.FieldPageLaws

/-! ### Values, status and the events that follow them (R219, R240) -/

@[simp] theorem ri_keepK (s u : State) (f : Fld) (j k : Nat) : (s.keepK u).ri f j k = u.ri f j k := rfl

@[simp] theorem mfeBit_keepK (s u : State) (i b : Nat) : (s.keepK u).mfeBit i b = u.mfeBit i b := rfl

theorem ri_congr {s u : State} {f : Fld} {j k : Nat} (h : u.r f j k = s.r f j k) : u.ri f j k = s.ri f j k := congrArg (sgn f.width) h

/-- A saturated value reads back from the record it is written to (R219). -/
theorem ri_record_wi_sat (s : State) (x : Int) (i : Nat) : (s.wi MFE.RECORD (sat 32 x) 0 i).ri MFE.RECORD 0 i = sat 32 x := by
  have hlow : -(2 ^ 31) ≤ sat 32 x := by
    unfold sat clampI
    split_ifs <;> omega
  have hhigh : sat 32 x < 2 ^ 31 := by
    unfold sat clampI
    split_ifs <;> omega
  rw [State.ri, State.wi, r_w_cut _ _ _ _ _ (by decide)]
  exact LoopUpdateLaws.sgn_bits hlow hhigh

@[simp] theorem mfeBit_setMfeBit_same (s : State) (i : Nat) {b : Nat} (v : Bool) (hb : b < 32) : (s.setMfeBit i b v).mfeBit i b = v := by
  rw [State.mfeBit, State.setMfeBit, r_w_cut _ _ _ _ _ (by decide), Nat.testBit_mod_two_pow, testBit_putBit]
  simp [MFE.STATUS, hb]

theorem mfeBit_setMfeBit_bit (s : State) (i : Nat) {b b' : Nat} (v : Bool) (hb : b' < 32) (h : b' ≠ b) :
    (s.setMfeBit i b v).mfeBit i b' = s.mfeBit i b' := by
  rw [State.mfeBit, State.setMfeBit, r_w_cut _ _ _ _ _ (by decide), Nat.testBit_mod_two_pow, testBit_putBit]
  simp [MFE.STATUS, hb, h, State.mfeBit]

/-- A bit of STATUS leaves every other field. -/
theorem r_setMfeBit (s : State) (i b : Nat) (v : Bool) {g : Fld} {k : Nat} (h : g.key 0 k ≠ MFE.STATUS.key 0 i) :
    (s.setMfeBit i b v).r g 0 k = s.r g 0 k := r_w_ne _ _ _ _ _ _ _ _ h

theorem record_setMfeBit (s : State) (i b : Nat) (v : Bool) (k : Nat) : (s.setMfeBit i b v).r MFE.RECORD 0 k = s.r MFE.RECORD 0 k := by
  refine r_setMfeBit s i b v ?_
  simp only [Fld.key, MFE.RECORD, MFE.STATUS]
  omega

@[simp] theorem mfeBit_refresh (s : State) (m i b : Nat) : (s.refresh m).mfeBit i b = s.mfeBit i b := rfl

@[simp] theorem r_refresh (s : State) (i : Nat) (g : Fld) (j k : Nat) : (s.refresh i).r g j k = s.r g j k := rfl

theorem r_mfeEvents (s : State) (typ i : Nat) {g : Fld} {k : Nat} (h : InBlock g k) (j : Nat) :
    (s.mfeEvents typ i).r g j k = s.r g j k := by
  simp only [State.mfeEvents]
  iterate 4 rw [r_setRaw_block _ _ _ _ h (by decide)]

@[simp] theorem sd_mfeEvents (s : State) (typ i : Nat) : (s.mfeEvents typ i).sd = s.sd := by simp [State.mfeEvents]

@[simp] theorem sar_mfeEvents (s : State) (typ i : Nat) : (s.mfeEvents typ i).sar = s.sar := by simp [State.mfeEvents]

@[simp] theorem pulse_mfeEvents (s : State) (typ i : Nat) : (s.mfeEvents typ i).pulse = s.pulse := by simp [State.mfeEvents]

theorem inBlock_record {i : Nat} (h : i < 56) : InBlock MFE.RECORD i := inBlock (by decide) h

theorem inBlock_status {i : Nat} (h : i < 56) : InBlock MFE.STATUS i := inBlock (by decide) h

theorem mfeBit_mfeEvents (s : State) (typ c : Nat) {i : Nat} (h : i < 56) (b : Nat) : (s.mfeEvents typ c).mfeBit i b = s.mfeBit i b :=
  congrArg (·.testBit b) (r_mfeEvents s typ c (inBlock_status h) 0)

/-- A condition shown in an event leaves the enable of every page. -/
theorem enabled_setRaw (s : State) {code bit : Nat} (b : Bool) (p q : List Nat) (hbit : bit < 32) (c i : Nat) :
    (s.setRaw code 0 bit b p q).enabled c i = s.enabled c i := by
  refine congrArg (· != 0) (r_setRaw _ _ _ _ _ _ _ _ _ _ ?_ ?_)
  · simp only [pendKey, hbit, if_true, Fld.key, hdr, HDR.EVT_PEND, HDR.ENABLE]
    omega
  · simp only [rawKey, hbit, if_true, Fld.key, hdr, HDR.EVT_RAW, HDR.ENABLE]
    omega

@[simp] theorem enabled_mfeEvents (s : State) (typ i c j : Nat) : (s.mfeEvents typ i).enabled c j = s.enabled c j := by
  simp only [State.mfeEvents]
  iterate 4 rw [enabled_setRaw _ _ _ _ (by decide)]

/-! ### Sigma-delta channels: the main filter (R222) -/

/-- The value of an output of the main filter of channel `c` (R222). -/
def sdValue (s : State) (c : Nat) (d : BitVec 32) : Int :=
  sat 32 (onGrid (s.ri MFE.SD_GAIN 0 c * sincNorm (min d.toNat (2 ^ (3 * (4 + s.r MFE.OSR 0 c)))) (4 + s.r MFE.OSR 0 c) 24) (-39) (-16) +
    s.ri MFE.SD_OFFSET 0 c)

/-- Channel `c` with record `x` shows an output of its main filter, and is not faulted (R222, R223). -/
def filtered (s : State) (c : Nat) (x : SdX) (d : BitVec 32) (full : Bool) : State :=
  (((((s.setSd c x).wi MFE.RECORD (sdValue s c d) 0 c).setMfeBit c 0 false).setMfeBit c 1 full).refresh c).mfeEvents 0 c

theorem exec_sdFilterOutput_value {s : State} {ch : Fin 32} (t : Nat) (d : BitVec 32) (hfield : s.islandOn .field = true)
    (hon : s.sdOn ch = true) (hclk : (sget {} s.sd ch).clkLost = false) (hstuck : (sget {} s.sd ch).stuck = false)
    (hsettled : (sget {} s.sd ch).settle ≤ 1) : ∃ full : Bool,
    exec (.sdFilterOutput t ch d) s = .next (s.keepK
      (filtered (s.tick t) ch { sget {} s.sd ch with settle := 0, valueAt := some (s.tick t).now } d full)) := by
  have hworks : ¬ ((!s.sdOn ch) = true ∨ (sget {} s.sd ch).clkLost = true ∨ (sget {} s.sd ch).stuck = true) := by
    simp [hon, hclk, hstuck]
  exact ⟨_, (runK_on hfield t _).trans (congrArg (fun u => Host.Outcome.next (s.keepK u))
    ((if_neg hworks).trans (if_neg (Nat.not_lt.mpr hsettled))))⟩

theorem record_filtered (s : State) {c : Nat} (hc : c < 32) (x : SdX) (d : BitVec 32) (full : Bool) :
    (filtered s c x d full).ri MFE.RECORD 0 c = sdValue s c d := by
  rw [filtered, ri_congr (r_mfeEvents _ _ _ (inBlock_record (by omega)) _), ri_congr (r_refresh _ _ _ _ _),
    ri_congr (record_setMfeBit _ _ _ _ _), ri_congr (record_setMfeBit _ _ _ _ _)]
  exact ri_record_wi_sat _ _ _

theorem fault_filtered (s : State) {c : Nat} (hc : c < 32) (x : SdX) (d : BitVec 32) (full : Bool) :
    (filtered s c x d full).mfeBit c 0 = false := by
  rw [filtered, mfeBit_mfeEvents _ _ _ (by omega), mfeBit_refresh, mfeBit_setMfeBit_bit _ _ _ (by decide) (by decide),
    mfeBit_setMfeBit_same _ _ _ (by decide)]

theorem exec_sdFilterOutput_settling {s : State} {ch : Fin 32} (t : Nat) (d : BitVec 32) (hfield : s.islandOn .field = true)
    (hon : s.sdOn ch = true) (hclk : (sget {} s.sd ch).clkLost = false) (hstuck : (sget {} s.sd ch).stuck = false)
    (hsettling : 1 < (sget {} s.sd ch).settle) : exec (.sdFilterOutput t ch d) s =
      .next (s.keepK ((s.tick t).setSd ch { sget {} s.sd ch with settle := (sget {} s.sd ch).settle - 1 })) := by
  have hworks : ¬ ((!s.sdOn ch) = true ∨ (sget {} s.sd ch).clkLost = true ∨ (sget {} s.sd ch).stuck = true) := by
    simp [hon, hclk, hstuck]
  exact (runK_on hfield t _).trans (congrArg (fun u => Host.Outcome.next (s.keepK u)) ((if_neg hworks).trans (if_pos hsettling)))

/-! ### Sigma-delta channels: the limit filter (R224) -/

@[simp] theorem sd_tripLine (s : State) (l src : Nat) : (s.tripLine l src).sd = s.sd :=
  (RecordFrame.Keeps.refl (W := [.pwm]) s).tripLine (by decide) .sd (by decide)

/-- A trip line leaves the fields of the MFE page. -/
theorem r_tripLine_mfe (s : State) (l src : Nat) {g : Fld} {k : Nat} (hcode : g.code = 19) (h : InBlock g k) :
    (s.tripLine l src).r g 0 k = s.r g 0 k := by
  obtain ⟨hfrom, hto, hlsb⟩ := h
  obtain ⟨hsrcCode, hsrcOff, hsrcLsb⟩ := tripSrc_place l
  have hpend : g.key 0 k ≠ pendKey 20 0 l := by
    unfold pendKey
    split
    all_goals
      simp only [Fld.key, hcode, hdr, HDR.EVT_PEND, DSQ.HO_EVT_PEND]
      omega
  have hraw : g.key 0 k ≠ rawKey 20 0 l := by
    unfold rawKey
    split
    all_goals
      simp only [Fld.key, hcode, hdr, HDR.EVT_RAW, DSQ.HO_EVT_RAW]
      omega
  have hlive : g.key 0 k ≠ ACT.TRIP_LIVE.key 0 0 := by
    simp only [Fld.key, hcode, ACT.TRIP_LIVE]
    omega
  have hstate : g.key 0 k ≠ ACT.TRIP_STATE.key 0 0 := by
    simp only [Fld.key, hcode, ACT.TRIP_STATE]
    omega
  have hsrc : g.key 0 k ≠ (tripSrc l).key 0 0 := by
    simp only [Fld.key, hcode, hsrcCode, hsrcOff]
    omega
  unfold State.tripLine
  extract_lets live u v
  rw [r_setRaw _ _ _ _ _ _ _ _ _ _ hpend hraw]
  have hu : u.r g 0 k = s.r g 0 k := r_w_ne _ _ _ _ _ _ _ _ hlive
  have hv : v.r g 0 k = u.r g 0 k := by
    unfold v
    split
    · rw [r_tripOutputs, r_w_ne _ _ _ _ _ _ _ _ hstate, r_w_ne _ _ _ _ _ _ _ _ hsrc]
    · rfl
  exact hv.trans hu

/-- Channel `c` with record `x` shows that its limit detector is clear, and its trip line follows (R224). -/
def limitCleared (s : State) (c : Nat) (x : SdX) : State :=
  ((((s.setSd c x).setMfeBit c 2 false).refresh c).mfeEvents 0 c).tripLine (s.r MFE.LIM_TRIP 0 c) (0x80 + c)

theorem sd_limitCleared (s : State) (c : Nat) (x : SdX) : sget {} (limitCleared s c x).sd c = x := by
  rw [limitCleared, sd_tripLine, sd_mfeEvents]
  exact sget_sset_same _ _ _ _

theorem limit_limitCleared (s : State) {c : Nat} (hc : c < 32) (x : SdX) : (limitCleared s c x).mfeBit c 2 = false := by
  have hline (u : State) (l src : Nat) : (u.tripLine l src).mfeBit c 2 = u.mfeBit c 2 :=
    congrArg (·.testBit 2) (r_tripLine_mfe u l src rfl (inBlock_status (by omega)))
  rw [limitCleared, hline, mfeBit_mfeEvents _ _ _ (by omega), mfeBit_refresh, mfeBit_setMfeBit_same _ _ _ (by decide)]

/-- An output of the limit filter within both limits: the run of outputs outside them ends (R224). -/
theorem exec_sdLimitOutput_within {s : State} {ch : Fin 32} (t : Nat) (d : BitVec 32) (hfield : s.islandOn .field = true)
    (hon : s.sdOn ch = true)
    (hlow : s.ri MFE.LIM_LO 0 ch ≤ sincNorm (min d.toNat (2 ^ (3 * (3 + s.r MFE.LIM_OSR 0 ch)))) (3 + s.r MFE.LIM_OSR 0 ch) 16)
    (hhigh : sincNorm (min d.toNat (2 ^ (3 * (3 + s.r MFE.LIM_OSR 0 ch)))) (3 + s.r MFE.LIM_OSR 0 ch) 16 ≤ s.ri MFE.LIM_HI 0 ch) :
    exec (.sdLimitOutput t ch d) s =
      .next (s.keepK (limitCleared (s.tick t) ch { sget {} s.sd ch with limRun := 0, tripping := false })) := by
  have hworks : ¬ (!s.sdOn ch) = true := by simp [hon]
  refine (runK_on hfield t _).trans (congrArg (fun u => Host.Outcome.next (s.keepK u)) ((if_neg hworks).trans ?_))
  extract_lets k n x run lim u
  have hrun : run = 0 := (if_neg (Int.not_lt.mpr hhigh)).trans (if_neg (Int.not_lt.mpr hlow))
  have hlim : lim = false := if_pos hrun
  have hu : u = (s.tick t).setSd ch { sget {} s.sd ch with limRun := 0, tripping := false } := by
    unfold u
    rw [hrun, hlim]
    rfl
  rw [hu, hlim]
  rfl

/-! ### Sigma-delta channels: fault conditions (R223) -/

theorem r_sdJudge (s : State) (c : Nat) {g : Fld} {k : Nat} (h : InBlock g k) (hkey : g.key 0 k ≠ MFE.STATUS.key 0 c) :
    (s.sdJudge c).r g 0 k = s.r g 0 k := by
  unfold State.sdJudge
  extract_lets x
  split
  · rw [r_mfeEvents _ _ _ h, r_refresh, r_setMfeBit _ _ _ _ hkey]
  · rfl

@[simp] theorem sd_sdJudge (s : State) (c : Nat) : (s.sdJudge c).sd = s.sd := by
  unfold State.sdJudge
  extract_lets x
  split
  · rw [sd_mfeEvents]
    rfl
  · rfl

@[simp] theorem enabled_sdJudge (s : State) (c code i : Nat) : (s.sdJudge c).enabled code i = s.enabled code i := by
  unfold State.sdJudge
  extract_lets x
  split
  · rw [enabled_mfeEvents]
    refine congrArg (· != 0) (r_w_ne _ _ _ _ _ _ _ _ ?_)
    simp only [Fld.key, hdr, HDR.ENABLE, MFE.STATUS]
    omega
  · rfl

/-- A working channel with a fault condition shows the fault. -/
theorem mfeBit_sdJudge {s : State} {c : Nat} (hc : c < 32) (hfault : ((sget {} s.sd c).clkLost || (sget {} s.sd c).stuck) = true)
    (hon : s.sdOn c = true) : (s.sdJudge c).mfeBit c 0 = true := by
  unfold State.sdJudge
  extract_lets x
  split
  · rw [mfeBit_mfeEvents _ _ _ (by omega)]
    exact mfeBit_setMfeBit_same s c true (by decide)
  · next hshown => simpa [x, hfault, hon] using hshown

@[simp] theorem sdOn_setSd (s : State) (m : Nat) (x : SdX) (c : Nat) : (s.setSd m x).sdOn c = s.sdOn c := rfl

theorem sdOn_sdCond (s : State) (m : Nat) (x : SdX) {c : Nat} (hc : c < 32) : (s.sdCond m x).sdOn c = s.sdOn c := by
  have hkey : MFE.SD_EN.key 0 c ≠ MFE.STATUS.key 0 m := by
    simp only [Fld.key, MFE.SD_EN, MFE.STATUS]
    omega
  rw [State.sdOn, State.sdCond, enabled_sdJudge, State.on, r_sdJudge _ _ (inBlock (by decide) hc) hkey]
  rfl

theorem sd_sdCond_same (s : State) (c : Nat) (x : SdX) : sget {} (s.sdCond c x).sd c = { x with settle := 3 } := by
  rw [State.sdCond, sd_sdJudge]
  exact sget_sset_same _ _ _ _

theorem mfeBit_sdCond_same {s : State} {c : Nat} {x : SdX} (hc : c < 32) (hfault : (x.clkLost || x.stuck) = true)
    (hon : s.sdOn c = true) : (s.sdCond c x).mfeBit c 0 = true := by
  refine mfeBit_sdJudge hc ?_ hon
  rw [State.setSd, sget_sset_same]
  exact hfault

/-- A condition of one channel leaves the record and the status of another. -/
theorem sdCond_other (s : State) {m c : Nat} (x : SdX) (hc : c < 32) (hne : c ≠ m) :
    sget {} (s.sdCond m x).sd c = sget {} s.sd c ∧ (s.sdCond m x).mfeBit c 0 = s.mfeBit c 0 := by
  have hkey : MFE.STATUS.key 0 c ≠ MFE.STATUS.key 0 m := by
    simp only [Fld.key, MFE.STATUS]
    omega
  refine ⟨?_, congrArg (·.testBit 0) (r_sdJudge _ m (inBlock_status (by omega)) hkey)⟩
  rw [State.sdCond, sd_sdJudge]
  exact sget_sset_ne _ _ _ _ hne

/-- Channel `i` of group `grp` loses its clock. -/
def loseClock (grp : Nat) (s : State) (i : Nat) : State :=
  s.sdCond (8 * grp + i) { sget {} s.sd (8 * grp + i) with clkLost := true }

theorem exec_sdDataStuck {s : State} (t : Nat) (ch : Fin 32) (b : Bool) (hfield : s.islandOn .field = true) :
    exec (.sdDataStuck t ch b) s = .next (s.keepK ((s.tick t).sdCond ch { sget {} s.sd ch with stuck := b })) := runK_on hfield t _

theorem exec_sdClockLoss_lost {s : State} {grp : Fin 4} (t : Nat) (hfield : s.islandOn .field = true) (hdir : s.r MFE.DIR 0 grp = 1) :
    exec (.sdClockLoss t grp true) s = .next (s.keepK ((s.tick t).forN 8 (loseClock grp))) := by
  have hreceived : ¬ (true && (s.tick t).r MFE.DIR 0 grp == 0) = true := by
    rw [show (s.tick t).r MFE.DIR 0 grp = 1 from hdir]
    decide
  exact (runK_on hfield t _).trans (congrArg (fun u => Host.Outcome.next (s.keepK u)) (if_neg hreceived))

/-- The first `n` channels of a group that lose their clock have lost it, and show it where they work. -/
theorem forN_loseClock {s : State} {grp n : Nat} (hgrp : grp < 4) (hn : n ≤ 8) :
    (∀ c < 32, (s.forN n (loseClock grp)).sdOn c = s.sdOn c) ∧ ∀ i < n, s.sdOn (8 * grp + i) = true →
      (sget {} (s.forN n (loseClock grp)).sd (8 * grp + i)).clkLost = true ∧ (s.forN n (loseClock grp)).mfeBit (8 * grp + i) 0 = true := by
  induction n with
  | zero => exact ⟨fun _ _ => rfl, fun i hi => absurd hi (Nat.not_lt_zero i)⟩
  | succ n ih =>
    obtain ⟨hon, hlost⟩ := ih (by omega)
    rw [LaneCareLaws.forN_succ]
    refine ⟨fun c hc => (sdOn_sdCond _ _ _ hc).trans (hon c hc), fun i hi hworks => ?_⟩
    by_cases hlast : i = n
    · subst hlast
      refine ⟨?_, mfeBit_sdCond_same (by omega) rfl ((hon _ (by omega)).trans hworks)⟩
      rw [loseClock, sd_sdCond_same]
    · obtain ⟨hsd, hbit⟩ := sdCond_other (s.forN n (loseClock grp))
        { sget {} (s.forN n (loseClock grp)).sd (8 * grp + n) with clkLost := true } (m := 8 * grp + n) (c := 8 * grp + i) (by omega) (by omega)
      rw [loseClock, hsd, hbit]
      exact hlost i (by omega) hworks

/-! ### The SAR converter: triggers (R225, R226) -/

@[simp] theorem runA_sarNext (s : State) (t : Nat) : (s.sarNext t).sar.runA = s.sar.runA := by
  unfold State.sarNext
  split
  · rfl
  · split <;> rfl

@[simp] theorem r_sarNext (s : State) (t : Nat) (g : Fld) (j k : Nat) : (s.sarNext t).r g j k = s.r g j k := by
  unfold State.sarNext
  split
  · rfl
  · split <;> rfl

theorem sarTrigger_idle_runA {s : State} (hen : s.enabled 19 = true) (hidle : s.sar.runA = none) :
    (s.sarTrigger false).sar.runA = some (0, s.now) := by
  simp [State.sarTrigger, hen, hidle]

/-- A trigger of sequence A that finds it running is dropped and counted. -/
theorem sarTrigger_busyA {s : State} (hen : s.enabled 19 = true) (hbusy : s.sar.runA.isSome = true) :
    (s.sarTrigger false).r MFE.OVERRUN_A = min (s.r MFE.OVERRUN_A + 1) (2 ^ 16 - 1) ∧ (s.sarTrigger false).sar = s.sar := by
  have hdropped : s.sarTrigger false = (s.inc MFE.OVERRUN_A).raise 19 0 3 [1, (s.sar.converting.map (·.2)).getD 0, 0] := by
    simp [State.sarTrigger, hen, hbusy]
  rw [hdropped]
  refine ⟨?_, by rw [raise_sar]; rfl⟩
  rw [r_raise_block _ _ _ (inBlock (by decide) (by decide)) (by decide)]
  exact r_inc_same s MFE.OVERRUN_A 0 0 1 (by decide)

/-- A trigger of sequence B that finds the converter idle takes it (R226). -/
theorem sarTrigger_idleB {s : State} (hen : s.enabled 19 = true) (hidle : s.sar.runB = none) (hconv : s.sar.converting = none) :
    (s.sarTrigger true).sar.runB = some (0, s.now) ∧ (s.sarTrigger true).sar.converting = some (true, s.sarSlot true 0) := by
  simp [State.sarTrigger, State.sarNext, hen, hidle, hconv]
  rfl

@[simp] theorem enabled_counted (s : State) (t c i : Nat) : (counted s t 19).enabled c i = s.enabled c i := enabled_countWrite _ _ _ _

/-- A trigger of a SAR sequence leaves the fields beside its overrun count (R226). -/
theorem r_sarTrigger (s : State) (b : Bool) {g : Fld} {k : Nat} (h : InBlock g k) (hA : g.key 0 k ≠ MFE.OVERRUN_A.key 0 0)
    (hB : g.key 0 k ≠ MFE.OVERRUN_B.key 0 0) : (s.sarTrigger b).r g 0 k = s.r g 0 k := by
  have hcount : g.key 0 k ≠ (if b then MFE.OVERRUN_B else MFE.OVERRUN_A).key 0 0 := by
    split
    · exact hB
    · exact hA
  have hrun (x : Option (Nat × Nat)) : State.r (if b then { s with sar := { s.sar with runB := x } }
      else { s with sar := { s.sar with runA := x } }) g 0 k = s.r g 0 k := by
    split
    · rfl
    · rfl
  unfold State.sarTrigger
  extract_lets x
  refine (apply_ite (fun u : State => u.r g 0 k) _ _ _).trans (ite_eq_iff'.mpr ⟨fun _ => rfl, fun _ => ?_⟩)
  refine (apply_ite (fun u : State => u.r g 0 k) _ _ _).trans (ite_eq_iff'.mpr ⟨fun _ => ?_, fun _ => ?_⟩)
  · rw [r_raise_block _ _ _ h (bit := 3) (by decide), r_inc_ne _ _ _ _ _ _ _ _ hcount]
  · rw [r_sarNext, hrun]

theorem sarTrig_counted (s : State) (t : Nat) (b : Bool) : (counted s t 19).sarTrig b = s.sarTrig b := by
  have htrig : (counted s t 19).r MFE.TRIG 0 b.toNat = s.r MFE.TRIG 0 b.toNat := r_counted s t 19 (inBlock (by decide) b.toNat_lt) 0
  rw [State.sarTrig, State.sarTrig, htrig]

theorem sarSlot_counted (s : State) (t : Nat) : (counted s t 19).sarSlot true 0 = s.sarSlot true 0 :=
  congrArg (bitsAt · 0 3) (r_counted s t 19 (inBlock (g := MFE.SEQ_B) (by decide) (by decide)) 0)

theorem exec_sarStartA {s : State} {r : Requester} (t : Nat) (htakes : Takes s r ⟨19, 0⟩) (hsoft : s.sarTrig false = 0) :
    exec (.sarStartA t r) s = .next (s.keepK ((counted s t 19).sarTrigger false)) :=
  (cmdK_takes htakes t _ _ _).trans
    (congrArg (fun u => Host.Outcome.next (s.keepK u)) (if_pos ((sarTrig_counted s t false).trans hsoft)))

theorem exec_sarStartB {s : State} {r : Requester} (t : Nat) (htakes : Takes s r ⟨19, 0⟩) (hsoft : s.sarTrig true = 0) :
    exec (.sarStartB t r) s = .next (s.keepK ((counted s t 19).sarTrigger true)) :=
  (cmdK_takes htakes t _ _ _).trans
    (congrArg (fun u => Host.Outcome.next (s.keepK u)) (if_pos ((sarTrig_counted s t true).trans hsoft)))

theorem exec_sarTimeTrigger {s : State} {t : Nat} (hfield : s.islandOn .field = true) (htime : s.sarTrig false = 1)
    (hseries : (s.tick t).onSeries (s.r MFE.PERIOD_US) (s.r MFE.PHASE_US) = true) :
    exec (.sarTimeTrigger t) s = .next (s.keepK ((s.tick t).sarTrigger false)) :=
  (runK_on hfield t _).trans (congrArg (fun u => Host.Outcome.next (s.keepK u)) (if_pos ⟨htime, hseries⟩))

/-! ### The SAR converter: conversions (R227) -/

/-- The value of a code of SAR channel `c` (R227). -/
def sarValue (s : State) (c code : Nat) : Int :=
  sat 32 (onGrid (s.ri MFE.SAR_GAIN 0 c * (code : Int)) (-32) (-16) + s.ri MFE.SAR_OFFSET 0 c)

/-- Channel `c` holds a code and its value. -/
def coded (s : State) (c code : Nat) : State :=
  { (s.w MFE.CODE code 0 c).wi MFE.RECORD (sarValue s c code) 0 (32 + c) with
    sar := { s.sar with coded := s.sar.coded ||| (1#8 <<< c) } }

/-- Channel `c` shows whether its code lies outside its limits, and whether it is an end of the range. -/
def converted (s : State) (c code : Nat) : State :=
  ((coded s c code).setMfeBit (32 + c) 0 ((coded s c code).sarFault c)).setMfeBit (32 + c) 1 (code == 0 || code == 0xFFFF)

/-- The sequence that runs moves on to its next slot, and ends after its last (R225). -/
def nextSlot (q : Option (Nat × Nat)) (len : Nat) : Option (Nat × Nat) :=
  match q with
  | some (j, t0) => if j < len then some (j + 1, t0) else none
  | none => none

/-- The converter once the conversion of channel `c` for sequence B, or A, has completed. -/
def conversionEnded (s : State) (b : Bool) (c : Nat) : SarX :=
  let x := { s.sar with converting := none, valueAt := sset 0 s.sar.valueAt c s.now }
  if b then { x with runB := nextSlot x.runB (s.r MFE.LEN 0 1) } else { x with runA := nextSlot x.runA (s.r MFE.LEN 0 0) }

/-- The converter's record is replaced by `x` and its next conversion begins, with the events of channel `c`. -/
def sarShown (s : State) (c : Nat) (x : SarX) : State :=
  ((State.refresh { s with sar := x } (32 + c)).mfeEvents 1 c).sarNext (x.convAt + 1000)

theorem r_sarShown (s : State) (c : Nat) (x : SarX) {g : Fld} {k : Nat} (h : InBlock g k) : (sarShown s c x).r g 0 k = s.r g 0 k := by
  rw [sarShown, r_sarNext, r_mfeEvents _ _ _ h, r_refresh]
  rfl

theorem exec_sarConversionDone {s : State} {t : Nat} {b : Bool} {c : Nat} (code : BitVec 16) (hfield : s.islandOn .field = true)
    (hconv : s.sar.converting = some (b, c)) (hdone : s.sar.convAt + 1000 ≤ (s.tick t).now) :
    exec (.sarConversionDone t code) s = .next (s.keepK
      (sarShown (converted (s.tick t) c code.toNat) c (conversionEnded (converted (s.tick t) c code.toNat) b c))) := by
  have hconv' : (s.tick t).sar.converting = some (b, c) := hconv
  refine (runK_on hfield t _).trans (congrArg (fun u => Host.Outcome.next (s.keepK u)) ?_)
  dsimp only
  rw [hconv']
  refine (if_neg (Nat.not_lt.mpr hdone)).trans ?_
  unfold sarShown conversionEnded converted coded
  rfl

/-- The fields beside the code and the value of a channel stand. -/
theorem r_coded (s : State) (c code : Nat) {g : Fld} (hcode : g.key 0 c ≠ MFE.CODE.key 0 c)
    (hrecord : g.key 0 c ≠ MFE.RECORD.key 0 (32 + c)) : (coded s c code).r g 0 c = s.r g 0 c :=
  (r_w_ne (s.w MFE.CODE code 0 c) MFE.RECORD g _ _ _ _ _ hrecord).trans (r_w_ne _ _ _ _ _ _ _ _ hcode)

theorem code_coded (s : State) (c : Nat) {code : Nat} (hcode : code < 2 ^ 16) : (coded s c code).r MFE.CODE 0 c = code := by
  have hrecord : MFE.CODE.key 0 c ≠ MFE.RECORD.key 0 (32 + c) := by
    simp only [Fld.key, MFE.CODE, MFE.RECORD]
    omega
  refine (r_w_ne (s.w MFE.CODE code 0 c) MFE.RECORD MFE.CODE _ _ _ _ _ hrecord).trans ?_
  rw [r_w_cut _ _ _ _ _ (by decide)]
  exact Nat.mod_eq_of_lt hcode

theorem faultLo_coded (s : State) {c : Nat} (hc : c < 8) (code : Nat) : (coded s c code).r MFE.FAULT_LO 0 c = s.r MFE.FAULT_LO 0 c := by
  refine r_coded s c code ?_ ?_
  all_goals
    simp only [Fld.key, MFE.FAULT_LO, MFE.CODE, MFE.RECORD]
    omega

theorem faultHi_coded (s : State) {c : Nat} (hc : c < 8) (code : Nat) : (coded s c code).r MFE.FAULT_HI 0 c = s.r MFE.FAULT_HI 0 c := by
  refine r_coded s c code ?_ ?_
  all_goals
    simp only [Fld.key, MFE.FAULT_HI, MFE.CODE, MFE.RECORD]
    omega

theorem sarFault_coded (s : State) {c code : Nat} (hc : c < 8) (hcode : code < 2 ^ 16) :
    (coded s c code).sarFault c = decide (code < s.r MFE.FAULT_LO 0 c ∨ s.r MFE.FAULT_HI 0 c < code) := by
  have hconverted : (coded s c code).sar.coded.getLsbD c = true := by simp [coded, hc]
  rw [State.sarFault, hconverted, code_coded s c hcode, faultLo_coded s hc, faultHi_coded s hc, Bool.true_and]

theorem code_converted (s : State) {c code : Nat} (hc : c < 8) (hcode : code < 2 ^ 16) :
    (converted s c code).r MFE.CODE 0 c = code := by
  have hstatus : MFE.CODE.key 0 c ≠ MFE.STATUS.key 0 (32 + c) := by
    simp only [Fld.key, MFE.CODE, MFE.STATUS]
    omega
  rw [converted, r_setMfeBit _ _ _ _ hstatus, r_setMfeBit _ _ _ _ hstatus, code_coded s c hcode]

theorem record_converted (s : State) (c code : Nat) : (converted s c code).ri MFE.RECORD 0 (32 + c) = sarValue s c code := by
  rw [converted, ri_congr (record_setMfeBit _ _ _ _ _), ri_congr (record_setMfeBit _ _ _ _ _)]
  exact ri_record_wi_sat _ _ _

theorem fault_converted (s : State) {c code : Nat} (hc : c < 8) (hcode : code < 2 ^ 16) :
    (converted s c code).mfeBit (32 + c) 0 = decide (code < s.r MFE.FAULT_LO 0 c ∨ s.r MFE.FAULT_HI 0 c < code) := by
  rw [converted, mfeBit_setMfeBit_bit _ _ _ (by decide) (by decide), mfeBit_setMfeBit_same _ _ _ (by decide), sarFault_coded s hc hcode]

/-! ### Pulse inputs (R228 to R230) -/

/-- A pulse input after an edge at instant `now`, stamped on the 5 ns grid (R228). -/
def edged (x : PulseX) (now : Nat) : PulseX :=
  { x with wraps := x.wraps + 1, tLast := now / 5 * 5, tout := false,
           edges := if x.tRef.isSome then x.edges + 1 else 0, tRef := some (x.tRef.getD (now / 5 * 5)) }

/-- A bit of PULSE_FAULT is put (R230). -/
def putFault (s : State) (c : Nat) (b : Bool) : State := s.w MFE.PULSE_FAULT (putBit (s.r MFE.PULSE_FAULT) c b)

theorem testBit_putFault (s : State) {c : Nat} (hc : c < 16) (b : Bool) : ((putFault s c b).r MFE.PULSE_FAULT).testBit c = b := by
  rw [putFault, r_w_cut _ _ _ _ _ (by decide), Nat.testBit_mod_two_pow, testBit_putBit]
  simp [MFE.PULSE_FAULT, hc]

/-- The fault bits stand behind the records. -/
theorem r_putFault (s : State) (c : Nat) (b : Bool) {g : Fld} {k : Nat} (h : g.off + k * g.stride < 0x600) (hlsb : g.lsb < 32) :
    (putFault s c b).r g 0 k = s.r g 0 k := by
  refine r_w_ne _ _ _ _ _ _ _ _ ?_
  simp only [Fld.key, MFE.PULSE_FAULT]
  omega

/-- A pulse input shows its record and its events (R220, R240). -/
def pulseShown (s : State) (c : Nat) : State := (s.refresh (40 + c)).mfeEvents 2 c

theorem r_pulseShown (s : State) (c : Nat) {g : Fld} {k : Nat} (h : InBlock g k) : (pulseShown s c).r g 0 k = s.r g 0 k := by
  rw [pulseShown, r_mfeEvents _ _ _ h, r_refresh]

@[simp] theorem pulse_pulseShown (s : State) (c : Nat) : (pulseShown s c).pulse = s.pulse := by
  rw [pulseShown, pulse_mfeEvents]
  rfl

/-- Pulse input `c` with record `x` holds its count and is not faulted (R228, R230). -/
def pulseCounted (s : State) (c : Nat) (x : PulseX) : State :=
  putFault (((s.setPulse c x).w MFE.STATUS x.wraps 0 (40 + c)).w MFE.WRAPS (x.wraps / 2 ^ 32) 0 c) c false

theorem exec_pulseEdge_both {s : State} {ch : Fin 16} (t : Nat) (fall : Bool) (hfield : s.islandOn .field = true)
    (hen : s.enabled 19 = true) (hboth : s.r MFE.EDGE 0 ch = 2) : exec (.pulseEdge t ch fall) s =
      .next (s.keepK (pulseShown (pulseCounted (s.tick t) ch (edged (sget {} s.pulse ch) (s.tick t).now)) ch)) := by
  have hcounts : ¬ ((!s.enabled 19) = true ∨ (s.r MFE.EDGE 0 ch = 0 ∧ fall = true) ∨ (s.r MFE.EDGE 0 ch = 1 ∧ (!fall) = true)) := by
    simp [hen, hboth]
  exact (runK_on hfield t _).trans (congrArg (fun u => Host.Outcome.next (s.keepK u)) ((if_neg hcounts).trans rfl))

theorem pulse_pulseCounted (s : State) (c : Nat) (x : PulseX) : sget {} (pulseCounted s c x).pulse c = x := sget_sset_same _ _ _ _

theorem count_pulseCounted (s : State) {c : Nat} (hc : c < 16) (x : PulseX) :
    (pulseCounted s c x).r MFE.STATUS 0 (40 + c) = x.wraps % 2 ^ 32 := by
  have hwraps : MFE.STATUS.key 0 (40 + c) ≠ MFE.WRAPS.key 0 c := by
    simp only [Fld.key, MFE.STATUS, MFE.WRAPS]
    omega
  have hplace : MFE.STATUS.off + (40 + c) * MFE.STATUS.stride < 0x600 := by
    simp only [MFE.STATUS]
    omega
  rw [pulseCounted, r_putFault _ _ _ hplace (by decide), r_w_ne _ _ _ _ _ _ _ _ hwraps]
  exact r_w_cut _ _ _ _ _ (by decide)

/-- Pulse input `c` with record `x` holds a measured value (R229). -/
def pulseMeasured (s : State) (c : Nat) (x : PulseX) (v : Int) : State := (s.setPulse c x).wi MFE.RECORD v 0 (40 + c)

theorem exec_pulseGateEnd {s : State} {ch : Fin 16} {t0 : Nat} (t : Nat) (hfield : s.islandOn .field = true) (hen : s.enabled 19 = true)
    (href : (sget {} s.pulse ch).tRef = some t0) (hedges : (sget {} s.pulse ch).edges ≠ 0) (hlater : t0 < (sget {} s.pulse ch).tLast) :
    exec (.pulseGateEnd t ch) s = .next (s.keepK ((pulseMeasured (s.tick t) ch
      { sget {} s.pulse ch with tRef := some (sget {} s.pulse ch).tLast, edges := 0 }
        (sat 32 (divRound (s.ri MFE.P_GAIN 0 ch * (sget {} s.pulse ch).edges * 1000000000) (((sget {} s.pulse ch).tLast : Int) - t0) +
          s.ri MFE.P_OFFSET 0 ch * 65536))).refresh (40 + ch.val))) := by
  have href' : (sget {} (s.tick t).pulse ch).tRef = some t0 := href
  have hmeasures : ¬ ((!s.enabled 19) = true ∨ (sget {} s.pulse ch).edges = 0 ∨ (sget {} s.pulse ch).tLast ≤ t0) := by
    simp [hen, hedges, hlater]
  refine (runK_on hfield t _).trans (congrArg (fun u => Host.Outcome.next (s.keepK u)) ?_)
  dsimp only
  rw [href']
  exact (if_neg hmeasures).trans rfl

/-- Pulse input `c` has timed out: its reference is gone, its value is 0, and it is faulted where `fault` asks for it (R230). -/
def timedOut (s : State) (c : Nat) (fault : Bool) : State :=
  let s := (s.setPulse c { sget {} s.pulse c with tRef := none, edges := 0, tout := true }).w MFE.RECORD 0 0 (40 + c)
  if fault then putFault s c true else s

theorem exec_pulseTimeout {s : State} {ch : Fin 16} {t : Nat} (hfield : s.islandOn .field = true) (hen : s.enabled 19 = true)
    (hfirst : (sget {} s.pulse ch).tout = false) (hlate : (sget {} s.pulse ch).tLast + 1000000 * s.r MFE.TMO_MS 0 ch ≤ (s.tick t).now) :
    exec (.pulseTimeout t ch) s = .next (s.keepK (pulseShown (timedOut (s.tick t) ch (s.on MFE.FAULT_ON_TMO 0 ch)) ch)) := by
  have hdue : ¬ ((!s.enabled 19) = true ∨ (sget {} s.pulse ch).tout = true ∨
      (s.tick t).now < (sget {} s.pulse ch).tLast + 1000000 * s.r MFE.TMO_MS 0 ch) := by
    simp [hen, hfirst, hlate]
  have hkey : MFE.FAULT_ON_TMO.key 0 ch ≠ MFE.RECORD.key 0 (40 + ch.val) := by
    simp only [Fld.key, MFE.FAULT_ON_TMO, MFE.RECORD]
    omega
  refine (runK_on hfield t _).trans (congrArg (fun u => Host.Outcome.next (s.keepK u)) ((if_neg hdue).trans ?_))
  extract_lets u v
  have hon : u.on MFE.FAULT_ON_TMO 0 ch = s.on MFE.FAULT_ON_TMO 0 ch := congrArg (· != 0) (r_w_ne _ _ _ _ _ _ _ _ hkey)
  unfold v
  rw [hon]
  rfl

theorem pulse_timedOut (s : State) (c : Nat) (fault : Bool) : (sget {} (timedOut s c fault).pulse c).tout = true := by
  cases fault
  · exact congrArg PulseX.tout (sget_sset_same _ _ _ _)
  · exact congrArg PulseX.tout (sget_sset_same _ _ _ _)

theorem record_timedOut (s : State) {c : Nat} (hc : c < 16) (fault : Bool) : (timedOut s c fault).r MFE.RECORD 0 (40 + c) = 0 := by
  have hplace : MFE.RECORD.off + (40 + c) * MFE.RECORD.stride < 0x600 := by
    simp only [MFE.RECORD]
    omega
  cases fault
  · exact r_w_cut _ _ _ _ _ (by decide)
  · exact (r_putFault _ _ _ hplace (by decide)).trans (r_w_cut _ _ _ _ _ (by decide))

/-! ### The statement -/

/-- Settles O38: each command runs to a state that is written out, and its records and its status are read there. -/
theorem measurements : Obligations.Measurements := by
  unfold Obligations.Measurements
  intro t s hfield
  refine ⟨?filter, ?limit, ?clockLoss, ?dataStuck, ?start, ?timeTrigger, ?conversion, ?pulse⟩
  case filter =>
    intro ch d hon hclk hstuck
    refine ⟨fun hsettled => ?_, fun hsettling => ?_⟩
    · obtain ⟨full, hexec⟩ := exec_sdFilterOutput_value t d hfield hon hclk hstuck hsettled
      exact ⟨_, hexec, record_filtered _ ch.isLt _ d full, fault_filtered _ ch.isLt _ d full, rfl⟩
    · refine ⟨_, exec_sdFilterOutput_settling t d hfield hon hclk hstuck hsettling, ?_, rfl⟩
      rw [keepK_sd, State.setSd, sget_sset_same]
  case limit =>
    intro ch d hon n hlow hhigh
    refine ⟨_, exec_sdLimitOutput_within t d hfield hon hlow hhigh, ?_⟩
    have hsd := sd_limitCleared (s.tick t) ch { sget {} s.sd ch with limRun := 0, tripping := false }
    exact ⟨congrArg SdX.limRun hsd, congrArg SdX.tripping hsd, limit_limitCleared _ ch.isLt _⟩
  case clockLoss =>
    intro grp i hi hdir hon
    obtain ⟨-, hlost⟩ := forN_loseClock (s := s.tick t) grp.isLt le_rfl
    obtain ⟨hclk, hbit⟩ := hlost i hi hon
    refine ⟨_, exec_sdClockLoss_lost t hfield hdir, ?_, ?_⟩
    · rw [keepK_sd, hclk]
    · rw [mfeBit_keepK, hbit]
  case dataStuck =>
    intro ch b
    have hsd := sd_sdCond_same (s.tick t) ch { sget {} s.sd ch with stuck := b }
    refine ⟨_, exec_sdDataStuck t ch b hfield, congrArg SdX.stuck hsd, congrArg SdX.settle hsd, fun hb hon => ?_⟩
    exact mfeBit_sdCond_same (s := s.tick t) ch.isLt (by simp [hb]) hon
  case start =>
    intro r htakes hen
    have hen' : (counted s t 19).enabled 19 = true := (enabled_counted s t 19 0).trans hen
    refine ⟨fun hsoft => ⟨fun hidle => ?_, fun hbusy => ?_⟩, fun hsoft hidle hconv => ?_⟩
    · exact ⟨_, exec_sarStartA t htakes hsoft, sarTrigger_idle_runA hen' hidle⟩
    · obtain ⟨hcount, hsar⟩ := sarTrigger_busyA hen' hbusy
      rw [r_counted s t 19 (inBlock (g := MFE.OVERRUN_A) (by decide) (by decide))] at hcount
      exact ⟨_, exec_sarStartA t htakes hsoft, hcount, hsar⟩
    · obtain ⟨hrun, hslot⟩ := sarTrigger_idleB hen' hidle hconv
      rw [sarSlot_counted] at hslot
      exact ⟨_, exec_sarStartB t htakes hsoft, hrun, hslot⟩
  case timeTrigger =>
    intro htime hseries hen hidle
    exact ⟨_, exec_sarTimeTrigger hfield htime hseries, sarTrigger_idle_runA (s := s.tick t) hen hidle⟩
  case conversion =>
    intro code b c hconv hc hdone
    refine ⟨_, exec_sarConversionDone code hfield hconv hdone, ?_, ?_, ?_⟩
    · exact (r_sarShown _ _ _ (inBlock (by decide) hc)).trans (code_converted _ hc code.isLt)
    · exact (ri_congr (r_sarShown _ _ _ (inBlock_record (by omega)))).trans (record_converted _ c _)
    · exact (congrArg (·.testBit 0) (r_sarShown _ _ _ (inBlock_status (by omega)))).trans (fault_converted _ hc code.isLt)
  case pulse =>
    intro ch fall hen
    refine ⟨fun hboth => ?_, fun t0 href hedges hlater => ?_, fun hfirst hlate => ?_⟩
    · refine ⟨_, exec_pulseEdge_both t fall hfield hen hboth, ?_, ?_, ?_⟩
      · rw [keepK_pulse, pulse_pulseShown, pulse_pulseCounted]
        rfl
      · exact (r_pulseShown _ _ (inBlock_status (by omega))).trans (count_pulseCounted _ ch.isLt _)
      · exact (congrArg (·.testBit ch) (r_pulseShown _ _ (inBlock (by decide) (by decide)))).trans (testBit_putFault _ ch.isLt false)
    · refine ⟨_, exec_pulseGateEnd t hfield hen href hedges hlater, ri_record_wi_sat _ _ _, ?_⟩
      exact congrArg PulseX.edges (sget_sset_same _ _ _ _)
    · refine ⟨_, exec_pulseTimeout hfield hen hfirst hlate, ?_, ?_, fun hasked => ?_⟩
      · exact ri_congr (s := timedOut (s.tick t) ch _) (r_pulseShown _ _ (inBlock_record (by omega))) |>.trans
          (congrArg (sgn 32) (record_timedOut _ ch.isLt _))
      · rw [keepK_pulse, pulse_pulseShown, pulse_timedOut]
      · rw [hasked]
        exact (congrArg (·.testBit ch) (r_pulseShown _ _ (inBlock (by decide) (by decide)))).trans (testBit_putFault _ ch.isLt true)

end Sys2Proof.MeasurementLaws
end

section
/-! Actuation: the duties of the outputs and the trip lines (R231, R234 to R237). -/

namespace Sys2Proof.ActuationLaws

open Sys2Proof Sys2Proof.Machine Sys2Proof.Laws Sys2Proof.PowerLaws Sys2Proof.FieldPageLaws Sys2Proof.RecordFrame

@[simp] theorem pwm_setPwm_same (s : State) (o : Nat) (x : PwmX) : sget {} (s.setPwm o x).pwm o = x := sget_sset_same _ _ _ _

@[simp] theorem r_setPwm (s : State) (o : Nat) (x : PwmX) (g : Fld) (j k : Nat) : (s.setPwm o x).r g j k = s.r g j k := rfl

/-! ### What leaves the duty of an output -/

/-- From `s` to `u` output `o` keeps its staged duties, the start of its period and its duty in force. -/
def DutyKept (o : Nat) (s u : State) : Prop :=
  (sget {} u.pwm o).staged = (sget {} s.pwm o).staged ∧ (sget {} u.pwm o).startAt = (sget {} s.pwm o).startAt ∧
    u.r ACT.DUTY_APPLIED 0 o = s.r ACT.DUTY_APPLIED 0 o

namespace DutyKept

variable {o : Nat} {s u v : State}

theorem refl (s : State) : DutyKept o s s := ⟨rfl, rfl, rfl⟩

theorem trans (h : DutyKept o s u) (k : DutyKept o u v) : DutyKept o s v := by
  obtain ⟨hstaged, hstart, hduty⟩ := h
  obtain ⟨kstaged, kstart, kduty⟩ := k
  exact ⟨kstaged.trans hstaged, kstart.trans hstart, kduty.trans hduty⟩

theorem ite {p : Prop} {_ : Decidable p} (h : DutyKept o s u) (k : DutyKept o s v) : DutyKept o s (if p then u else v) := by
  split
  · exact h
  · exact k

section
variable (h : DutyKept o s u)
include h

theorem foldl {f : State → Nat → State} {qs : List Nat} (hf : ∀ {v q}, DutyKept o s v → DutyKept o s (f v q)) :
    DutyKept o s (qs.foldl f u) := List.foldlRecOn _ _ h fun _ hv _ _ => hf hv

/-- An output takes a record with the same staged duties and the same start of its period. -/
theorem setPwm {q : Nat} {x : PwmX} (hstaged : x.staged = (sget {} u.pwm q).staged := by rfl)
    (hstart : x.startAt = (sget {} u.pwm q).startAt := by rfl) :
    DutyKept o s (u.setPwm q x) := by
  refine h.trans ⟨?_, ?_, rfl⟩
  all_goals
    by_cases hq : o = q
    · subst hq
      simp [hstaged, hstart]
    · rw [State.setPwm, sget_sset_ne _ _ _ _ hq]

/-- What leaves the records of the outputs and the fields of the ACT page. -/
theorem same (hpwm : v.pwm = u.pwm) (hr : v.r ACT.DUTY_APPLIED 0 o = u.r ACT.DUTY_APPLIED 0 o) : DutyKept o s v :=
  h.trans ⟨by rw [hpwm], by rw [hpwm], hr⟩

theorem pwmShape {q : Nat} {e : Int} : DutyKept o s (u.pwmShape q e) := by
  unfold State.pwmShape
  extract_lets
  exact foldl h.setPwm fun hv => hv.setPwm

/-- A trigger of a SAR sequence leaves the outputs (R225). -/
theorem sarTrigger (ho : o < 24) {b : Bool} : DutyKept o s (u.sarTrigger b) := by
  refine h.same ((Keeps.refl (W := []) u).sarTrigger .pwm (by decide)) ?_
  refine MeasurementLaws.r_sarTrigger u b (inBlock (by decide) ho) ?_ ?_
  all_goals
    simp only [Fld.key, ACT.DUTY_APPLIED, MFE.OVERRUN_A, MFE.OVERRUN_B]
    omega

theorem sarPwm (ho : o < 24) {q trig : Nat} : DutyKept o s (u.sarPwm q trig) := by
  unfold State.sarPwm
  extract_lets go
  have hgo {v : State} (b : Bool) (hv : DutyKept o s v) : DutyKept o s (go v b) := ite (hv.sarTrigger ho) hv
  exact hgo false (hgo true h)

theorem pwmTriggers (ho : o < 24) {q trig : Nat} : DutyKept o s (u.pwmTriggers q trig) := h.foldl fun hv => hv.sarPwm ho

end

end DutyKept

/-! ### Update points (R234, R235) -/

/-- The staged duties that an update point at instant `now` may take. -/
def dueDuties (x : PwmX) (now : Nat) : List (Nat × Nat) := x.staged.filter (fun d => decide (d.1 + 40 ≤ now))

/-- The staged duties that are younger. -/
def youngDuties (x : PwmX) (now : Nat) : List (Nat × Nat) := x.staged.filter (fun d => decide (now < d.1 + 40))

theorem pwmUpdate_due {s : State} {o : Nat} {d : Nat × Nat} (h : (dueDuties (sget {} s.pwm o) s.now).getLast? = some d) :
    (s.pwmUpdate o).r ACT.DUTY_APPLIED 0 o = d.2 % 2 ^ 16 ∧
    (sget {} (s.pwmUpdate o).pwm o).staged = youngDuties (sget {} s.pwm o) s.now ∧
    (sget {} (s.pwmUpdate o).pwm o).startAt = (sget {} s.pwm o).startAt := by
  have hupdate : s.pwmUpdate o = (s.w ACT.DUTY_APPLIED d.2 0 o).setPwm o
      { sget {} s.pwm o with staged := youngDuties (sget {} s.pwm o) s.now, lostNext := false, onSafe := false } := by
    unfold State.pwmUpdate
    extract_lets x due
    rw [show due.getLast? = some d from h]
    rfl
  rw [hupdate, r_setPwm, r_w_cut _ _ _ _ _ (by decide), pwm_setPwm_same]
  exact ⟨rfl, rfl, rfl⟩

theorem pwmUpdate_lost {s : State} {o : Nat} (hnone : dueDuties (sget {} s.pwm o) s.now = []) (hlost : (sget {} s.pwm o).lostNext = true) :
    (s.pwmUpdate o).r ACT.DUTY_APPLIED 0 o = s.r ACT.SAFE_DUTY 0 o % 2 ^ 16 ∧
    (sget {} (s.pwmUpdate o).pwm o).staged = (sget {} s.pwm o).staged ∧
    (sget {} (s.pwmUpdate o).pwm o).startAt = (sget {} s.pwm o).startAt := by
  have hupdate : s.pwmUpdate o = (s.w ACT.DUTY_APPLIED (s.r ACT.SAFE_DUTY 0 o) 0 o).setPwm o
      { sget {} s.pwm o with lostNext := false, onSafe := true } := by
    unfold State.pwmUpdate
    extract_lets x due
    rw [show due = [] from hnone]
    exact if_pos hlost
  rw [hupdate, r_setPwm, r_w_cut _ _ _ _ _ (by decide), pwm_setPwm_same]
  exact ⟨rfl, rfl, rfl⟩

theorem pwmUpdate_none {s : State} {o : Nat} (hnone : dueDuties (sget {} s.pwm o) s.now = []) (hkeeps : (sget {} s.pwm o).lostNext = false) :
    s.pwmUpdate o = s := by
  unfold State.pwmUpdate
  extract_lets x due
  rw [show due = [] from hnone]
  exact if_neg (by simp [x, hkeeps])

/-! ### Periods (R231, R234) -/

/-- From `s` to `u` output `o` starts a period at tick `k`: staged duties, duty in force and what decides them are as before. -/
def PeriodBegun (o k : Nat) (s u : State) : Prop :=
  (sget {} u.pwm o).staged = (sget {} s.pwm o).staged ∧ (sget {} u.pwm o).lostNext = (sget {} s.pwm o).lostNext ∧
    (sget {} u.pwm o).startAt = some k ∧ u.now = s.now ∧ u.regs = s.regs

/-- A period that starts begins and passes its update point; what follows leaves the duty of the output. -/
theorem pwmStart_updates (s : State) (o k : Nat) : ∃ u, PeriodBegun o k s u ∧ DutyKept o (u.pwmUpdate o) (s.pwmStart o k) := by
  unfold State.pwmStart
  extract_lets x goes carry u v y
  refine ⟨u, ?_, ?_⟩
  · have hpwm : sget {} u.pwm o = _ := pwm_setPwm_same s o _
    refine ⟨?_, ?_, ?_, rfl, rfl⟩
    all_goals
      rw [hpwm]
  · exact DutyKept.pwmShape (DutyKept.foldl (DutyKept.refl v) fun hw => .ite hw.setPwm hw)

theorem exec_pwmPeriodStart {s : State} {t : Nat} {o : Fin 24} {k : Nat} (hfield : s.islandOn .field = true) (hen : s.enabled 20 = true)
    (hfirst : s.pwmSecond o = false) (htick : (s.tick t).pwmTick o 0 = some k) (hnew : (sget {} s.pwm o).startAt ≠ some k)
    (hfree : (sget {} s.pwm o).busy.getD 0 ≤ k) :
    exec (.pwmPeriodStart t o) s = .next (s.keepK (((s.tick t).pwmStart o k).pwmTriggers o 2)) := by
  have hstarts : ¬ ((!s.enabled 20) = true ∨ s.pwmSecond o = true ∨ (sget {} s.pwm o).startAt = some k ∨ k < (sget {} s.pwm o).busy.getD 0) := by
    simp [hen, hfirst, hnew, hfree]
  refine (runK_on hfield t _).trans (congrArg (fun u => Host.Outcome.next (s.keepK u)) ?_)
  dsimp only
  rw [htick]
  exact if_neg hstarts

theorem exec_pwmCentre_half {s : State} {t : Nat} {o : Fin 24} {k : Nat} (hfield : s.islandOn .field = true) (hen : s.enabled 20 = true)
    (hfirst : s.pwmSecond o = false) (hstart : (sget {} s.pwm o).startAt = some k)
    (hfrom : 4 * (s.tick t).now ≤ k + (sget {} s.pwm o).period / 2) (hto : k + (sget {} s.pwm o).period / 2 < 4 * (s.tick t).now + 4)
    (hmode : s.r ACT.MODE 0 o = 2) (hhalf : s.on ACT.UPDATE 0 o = true) :
    exec (.pwmCentre t o) s = .next (s.keepK
      ((((s.tick t).pwmUpdate o).pwmShape o ((sget {} s.pwm o).period / 2 : Nat)).pwmTriggers o 3)) := by
  have hstart' : (sget {} (s.tick t).pwm o).startAt = some k := hstart
  have hcentre : ¬ ((!s.enabled 20) = true ∨ s.pwmSecond o = true ∨ k + (sget {} s.pwm o).period / 2 < 4 * (s.tick t).now ∨
      4 * (s.tick t).now + 4 ≤ k + (sget {} s.pwm o).period / 2) := by
    simp [hen, hfirst, hfrom, hto]
  have hupdates : (s.tick t).r ACT.MODE 0 o = 2 ∧ (s.tick t).on ACT.UPDATE 0 o = true := ⟨hmode, hhalf⟩
  refine (runK_on hfield t _).trans (congrArg (fun u => Host.Outcome.next (s.keepK u)) ?_)
  dsimp only
  rw [hstart']
  refine (if_neg hcentre).trans ?_
  rw [if_pos hupdates]
  rfl

/-! ### Duties that are written, and duties that stay away (R234, R235) -/

theorem r_showLost (s : State) {g : Fld} {k : Nat} (h : InBlock g k) (j : Nat) : s.showLost.r g j k = s.r g j k := by
  unfold State.showLost
  split
  · rfl
  · exact r_setEvtRaw_block s false h (by decide) j

@[simp] theorem pwm_showLost (s : State) : s.showLost.pwm = s.pwm := by
  unfold State.showLost
  split
  · rfl
  · rfl

/-- A duty that is staged shows in DUTY, is not lost, and is the youngest. -/
theorem stageDuty_stages (s : State) {o v : Nat} (ho : o < 24) (hv : v < 2 ^ 16) :
    (s.stageDuty o v).r ACT.DUTY 0 o = v ∧ (s.stageDuty o v).r ACT.DUTY_LOST 0 o = 0 ∧
      (sget {} (s.stageDuty o v).pwm o).staged.getLast? = some (s.now, v) := by
  have hkey : ACT.DUTY.key 0 o ≠ ACT.DUTY_LOST.key 0 o := by
    simp only [Fld.key, ACT.DUTY, ACT.DUTY_LOST]
    omega
  unfold State.stageDuty
  extract_lets x old young
  refine ⟨?_, ?_, ?_⟩
  · rw [r_showLost _ (inBlock (by decide) ho), r_setPwm, r_w_ne _ _ _ _ _ _ _ _ hkey, r_w_cut _ _ _ _ _ (by decide)]
    exact Nat.mod_eq_of_lt hv
  · rw [r_showLost _ (inBlock (by decide) ho), r_setPwm, r_w_cut _ _ _ _ _ (by decide)]
    rfl
  · rw [pwm_showLost, pwm_setPwm_same]
    exact List.getLast?_concat

theorem dutySrc_counted (s : State) (t : Nat) (o : Fin 24) : (counted s t 20).on ACT.DUTY_SRC 0 o = s.on ACT.DUTY_SRC 0 o :=
  congrArg (· != 0) (r_counted s t 20 (inBlock (by decide) o.isLt) 0)

theorem exec_dutyWrite_page {s : State} {r : Requester} (t : Nat) (o : Fin 24) (v : BitVec 16) (htakes : Takes s r ⟨20, 0⟩) :
    exec (.dutyWrite t (.page r) o v) s =
      .next (s.keepK (if s.on ACT.DUTY_SRC 0 o then (counted s t 20).stageDuty o v.toNat else counted s t 20)) := by
  rw [← dutySrc_counted s t o]
  exact cmdK_takes htakes t _ _ _

theorem exec_dutyWrite_route {s : State} (t : Nat) (o : Fin 24) (v : BitVec 16) (hfield : s.islandOn .field = true)
    (hsrc : s.on ACT.DUTY_SRC 0 o = false) :
    exec (.dutyWrite t .route o v) s = .next (s.keepK ((s.tick t).stageDuty o v.toNat)) := by
  have hroute : (s.tick t).r ACT.DUTY_SRC 0 o = 0 := by simpa [State.on] using hsrc
  have hfield' : (s.tick t).islandOn .field = true := hfield
  exact congrArg (fun u => Host.Outcome.next (s.keepK u)) ((if_pos hfield').trans (if_pos hroute))

/-- A page of the ACT block that takes a write is reached: its island runs (R18). -/
theorem islandOn_of_takes {s : State} {r : Requester} (htakes : Takes s r ⟨20, 0⟩) : s.islandOn .field = true := by
  obtain ⟨-, hreached, -⟩ := htakes
  exact (Bool.and_eq_true_iff.mp hreached).1

/-- The duty of output `o` is lost: SAFE_DUTY applies at its next update point (R235). -/
def dutyLost (s : State) (o : Nat) : State :=
  ((s.setPwm o { sget {} s.pwm o with lostNext := true }).w ACT.DUTY_LOST 1 0 o).recur 20 0 4 [o, 0]

theorem r_dutyLost (s : State) (o : Nat) {g : Fld} {k : Nat} (h : InBlock g k) :
    (dutyLost s o).r g 0 k = (s.w ACT.DUTY_LOST 1 0 o).r g 0 k := by
  rw [dutyLost, State.recur, r_setRaw_block _ _ _ _ h (by decide), r_setEvtRaw_block _ _ h (by decide)]
  rfl

theorem pwm_dutyLost (s : State) (o : Nat) : (sget {} (dutyLost s o).pwm o).lostNext = true := by
  rw [dutyLost, State.recur, setRaw_pwm]
  exact congrArg PwmX.lostNext (pwm_setPwm_same s o _)

theorem exec_dutyTimeout {s : State} (t : Nat) {o : Fin 24} (hfield : s.islandOn .field = true) (htmo : s.r ACT.DUTY_TMO 0 o ≠ 0)
    (hsilent : s.r ACT.DUTY_TMO 0 o ≤ (sget {} s.pwm o).silent) (hen : s.enabled 20 = true) (hlost : (sget {} s.pwm o).lostNext = false)
    (hsafe : (sget {} s.pwm o).onSafe = false) (hrole : s.r DCH.ROLE = 0) (hstaged : (sget {} s.pwm o).staged = []) :
    exec (.dutyTimeout t o) s = .next (s.keepK (dutyLost (s.tick t) o)) := by
  have hdue : ¬ (s.r ACT.DUTY_TMO 0 o = 0 ∨ (sget {} s.pwm o).silent < s.r ACT.DUTY_TMO 0 o ∨ (!s.enabled 20) = true ∨
      (sget {} s.pwm o).lostNext = true ∨ (sget {} s.pwm o).onSafe = true ∨ s.r DCH.ROLE = 1 ∨ s.r DCH.ROLE = 2 ∨
        (sget {} s.pwm o).staged ≠ []) := by
    simp [htmo, hsilent, hen, hlost, hsafe, hrole, hstaged]
  exact (runK_on hfield t _).trans (congrArg (fun u => Host.Outcome.next (s.keepK u)) (if_neg hdue))

/-! ### Trip lines: a line that is active (R236) -/

theorem inBlock_tripState : InBlock ACT.TRIP_STATE 0 := inBlock (by decide) (by decide)

/-- A bit of TRIP_STATE that is put. -/
theorem testBit_putTrip (s : State) {l m : Nat} (hm : m < 4) (b : Bool) :
    ((s.w ACT.TRIP_STATE (putBit (s.r ACT.TRIP_STATE) l b)).r ACT.TRIP_STATE).testBit m =
      if m = l then b else (s.r ACT.TRIP_STATE).testBit m := by
  rw [r_w_cut _ _ _ _ _ (by decide), Nat.testBit_mod_two_pow, testBit_putBit]
  simp [ACT.TRIP_STATE, hm]

/-- A line that is live is latched, and shows that it is live. -/
theorem tripLine_live {s : State} {l : Nat} (hl : l < 4) (src : Nat) (hlive : s.tripLive l = true) :
    ((s.tripLine l src).r ACT.TRIP_STATE).testBit l = true ∧ ((s.tripLine l src).r ACT.TRIP_LIVE).testBit l = true := by
  obtain ⟨hsrcCode, hsrcOff, hsrcLsb⟩ := tripSrc_place l
  have hliveState : ACT.TRIP_LIVE.key 0 0 ≠ ACT.TRIP_STATE.key 0 0 := by decide
  have hliveSrc : ACT.TRIP_LIVE.key 0 0 ≠ (tripSrc l).key 0 0 := by
    simp only [Fld.key, ACT.TRIP_LIVE, hsrcCode, hsrcOff]
    omega
  have hstateSrc : ACT.TRIP_STATE.key 0 0 ≠ (tripSrc l).key 0 0 := by
    simp only [Fld.key, ACT.TRIP_STATE, hsrcCode, hsrcOff]
    omega
  unfold State.tripLine
  extract_lets live u v
  have hon : live = true := hlive
  have hu : (u.r ACT.TRIP_LIVE).testBit l = true := by
    rw [r_w_cut _ _ _ _ _ (by decide), Nat.testBit_mod_two_pow, testBit_putBit]
    simp [ACT.TRIP_LIVE, hl, hon]
  rw [r_setRaw_block _ _ _ _ inBlock_tripState (by omega),
    r_setRaw_block _ _ _ _ (inBlock (g := ACT.TRIP_LIVE) (by decide) (by decide)) (by omega)]
  cases hlatched : (u.r ACT.TRIP_STATE).testBit l
  case true =>
    have hv : v = u := if_neg (by simp [hlatched])
    rw [hv]
    exact ⟨hlatched, hu⟩
  case false =>
    have hv : v = ((u.w (tripSrc l) src).w ACT.TRIP_STATE (putBit (u.r ACT.TRIP_STATE) l true)).tripOutputs :=
      if_pos (by simp [hlatched, hon])
    rw [hv, r_tripOutputs, r_tripOutputs, r_w_ne _ _ _ _ _ _ _ _ hliveState,
      r_w_ne _ _ _ _ _ _ _ _ hliveSrc, ← r_w_ne u _ _ src _ _ _ _ hstateSrc]
    refine ⟨?_, hu⟩
    rw [testBit_putTrip _ hl]
    simp

/-- The pin of trip line `l` reaches its active level, or leaves it. -/
def pinAt (s : State) (l : Nat) (active : Bool) : State :=
  { s with tripPins := BitVec.ofNat 4 (putBit s.tripPins.toNat l (active != s.on ACT.LEVEL 0 l)) }

theorem tripLive_pinAt {s : State} {l : Nat} (hl : l < 4) (hen : s.on ACT.T_EN 0 l = true) : (pinAt s l true).tripLive l = true := by
  have hpin : (pinAt s l true).tripPins.getLsbD l = (true != s.on ACT.LEVEL 0 l) := by
    rw [pinAt, BitVec.getLsbD_ofNat, testBit_putBit]
    simp [hl]
  have hen' : (pinAt s l true).on ACT.T_EN 0 l = true := hen
  have hlevel : (pinAt s l true).on ACT.LEVEL 0 l = s.on ACT.LEVEL 0 l := rfl
  rw [State.tripLive, State.tripPin, hen', hpin, hlevel]
  cases s.on ACT.LEVEL 0 l <;> rfl

theorem exec_tripInput (t : Nat) (line : Fin 4) (active : Bool) (s : State) :
    exec (.tripInput t line active) s = .next (s.keepK ((pinAt (s.tick t) line active).tripLine line 0)) := rfl

/-! ### Trip lines: a latched line that is cleared (R237) -/

/-- From `s` to `u` what makes a trip line live is as before. -/
def SameLines (s u : State) : Prop := ∀ l < 4, u.tripLive l = s.tripLive l

/-- What leaves the fields of the block but TRIP_STATE, the pins and the limit detectors leaves what makes a line live. -/
theorem sameLines_of {s u : State} (hpins : u.tripPins = s.tripPins) (hsd : u.sd = s.sd)
    (hr : ∀ (g : Fld) (k : Nat), InBlock g k → g.key 0 k ≠ ACT.TRIP_STATE.key 0 0 → u.r g 0 k = s.r g 0 k) : SameLines s u := by
  intro l hl
  have hon (g : Fld) (hg : InBlock g l) (hkey : g.key 0 l ≠ ACT.TRIP_STATE.key 0 0) : u.on g 0 l = s.on g 0 l :=
    congrArg (· != 0) (hr g l hg hkey)
  have hpin : u.tripPin l = s.tripPin l := by
    rw [State.tripPin, State.tripPin, hpins, hon ACT.T_EN (inBlock (by decide) hl), hon ACT.LEVEL (inBlock (by decide) hl)]
    all_goals
      simp only [Fld.key, ACT.T_EN, ACT.LEVEL, ACT.TRIP_STATE]
      omega
  have hby : ∀ c < 32, u.tripBy l c = s.tripBy l c := by
    intro c hc
    rw [State.tripBy, State.tripBy, hsd, State.on, hr MFE.LIM_TRIP_EN c (inBlock (by decide) hc), hr MFE.LIM_TRIP c (inBlock (by decide) hc)]
    · rfl
    all_goals
      simp only [Fld.key, MFE.LIM_TRIP, MFE.LIM_TRIP_EN, ACT.TRIP_STATE]
      omega
  have hany : (List.range 32).any (u.tripBy l) = (List.range 32).any (s.tripBy l) := by
    rw [Bool.eq_iff_iff, List.any_eq_true, List.any_eq_true]
    exact exists_congr fun c => and_congr_right fun hc => by rw [hby c (List.mem_range.mp hc)]
  rw [State.tripLive, State.tripLive, hpin, hany]

theorem sameLines_counted (s : State) (t : Nat) : SameLines s (counted s t 20) :=
  sameLines_of rfl rfl fun _ _ h _ => r_counted s t 20 h 0

/-- Trip line `l` is cleared where `v` asks for it and the line is not live. -/
def clearTrip (v : BitVec 4) (s : State) (l : Nat) : State :=
  if v.getLsbD l && !s.tripLive l then (s.w ACT.TRIP_STATE (putBit (s.r ACT.TRIP_STATE) l false)).setRaw 20 0 l false else s

theorem sameLines_clearTrip (v : BitVec 4) (s : State) {l : Nat} (hl : l < 4) : SameLines s (clearTrip v s l) := by
  unfold clearTrip
  split
  · refine sameLines_of (by simp) (by simp) fun g k hg hkey => ?_
    rw [r_setRaw_block _ _ _ _ hg (by omega), r_w_ne _ _ _ _ _ _ _ _ hkey]
  · exact fun _ _ => rfl

theorem testBit_clearTrip (v : BitVec 4) (s : State) {l m : Nat} (hl : l < 4) (hm : m < 4) :
    ((clearTrip v s l).r ACT.TRIP_STATE).testBit m = if m = l then (s.r ACT.TRIP_STATE).testBit l && !(v.getLsbD l && !s.tripLive l)
      else (s.r ACT.TRIP_STATE).testBit m := by
  unfold clearTrip
  split
  · next hclears =>
    rw [r_setRaw_block _ _ _ _ inBlock_tripState (by omega), testBit_putTrip _ hm, hclears]
    simp
  · next hstays =>
    by_cases hsame : m = l
    · subst hsame
      simp [hstays]
    · simp [hsame]

/-- The first `n` lines are cleared where `v` asks for it and they are not live. -/
theorem forN_clearTrip (v : BitVec 4) (s : State) {n : Nat} (hn : n ≤ 4) :
    SameLines s (s.forN n (clearTrip v)) ∧ ∀ m < 4, ((s.forN n (clearTrip v)).r ACT.TRIP_STATE).testBit m =
      if m < n then (s.r ACT.TRIP_STATE).testBit m && !(v.getLsbD m && !s.tripLive m) else (s.r ACT.TRIP_STATE).testBit m := by
  induction n with
  | zero => exact ⟨fun _ _ => rfl, fun _ _ => rfl⟩
  | succ n ih =>
    obtain ⟨hlines, hbits⟩ := ih (by omega)
    rw [LaneCareLaws.forN_succ]
    refine ⟨fun l hl => (sameLines_clearTrip v _ (by omega) l hl).trans (hlines l hl), fun m hm => ?_⟩
    rw [testBit_clearTrip v _ (by omega) hm]
    by_cases hlast : m = n
    · subst hlast
      simp [hbits m hm, hlines m hm]
    · have hlt : m < n + 1 ↔ m < n := by omega
      rw [if_neg hlast, hbits m hm]
      simp only [hlt]

/-- An output without a latched trip any longer notes the instant of the clear. -/
def noteClear (was : Nat) (s : State) (o : Nat) : State :=
  if s.r ACT.TRIP_MASK 0 o &&& was != 0 && !s.tripLatched o then s.setPwm o { sget {} s.pwm o with clearAt := s.now } else s

theorem r_forN_noteClear (was n : Nat) (s : State) (g : Fld) (j k : Nat) : (s.forN n (noteClear was)).r g j k = s.r g j k :=
  List.foldlRecOn (motive := fun u : State => u.r g j k = s.r g j k) _ _ rfl fun u hu o _ => by
    unfold noteClear
    split
    · exact hu
    · exact hu

theorem exec_actTripClear {s : State} {r : Requester} (t : Nat) (v : BitVec 4) (htakes : Takes s r ⟨20, 0⟩) :
    exec (.actTripClear t r v) s = .next (s.keepK
      (((counted s t 20).forN 4 (clearTrip v)).forN 24 (noteClear ((counted s t 20).r ACT.TRIP_STATE)))) := cmdK_takes htakes t _ _ _

/-! ### The statement -/

/-- Settles O39: an update point is read where it takes place, and what follows it leaves the duty; a trip line is read bit by bit. -/
theorem actuation : Obligations.Actuation := by
  unfold Obligations.Actuation
  intro t s
  refine ⟨?update, ?write, ?timeout, ?trip, ?clear⟩
  case update =>
    intro o hfield hen hfirst x due
    refine ⟨fun k htick hnew hfree => ?_, fun k d hstart hfrom hto hmode hhalf hdue => ?_⟩
    · obtain ⟨u, ⟨hstaged, hlost, hstart, hnow, hregs⟩, hkept⟩ := pwmStart_updates (s.tick t) o k
      obtain ⟨kstaged, kstart, kduty⟩ := hkept.pwmTriggers o.isLt (q := o) (trig := 2)
      have hexec := exec_pwmPeriodStart hfield hen hfirst htick hnew hfree
      have hdues : dueDuties (sget {} u.pwm o) u.now = due := by
        rw [dueDuties, hstaged, hnow]
        rfl
      refine ⟨fun d hdue => ?_, fun hnone hlostNext => ?_, fun hnone hkeeps => ?_⟩
      · obtain ⟨hduty, hyoung, hbegun⟩ := pwmUpdate_due (hdues ▸ hdue)
        refine ⟨_, hexec, kduty.trans hduty, (kstaged.trans hyoung).trans ?_, (kstart.trans hbegun).trans hstart⟩
        rw [youngDuties, hstaged, hnow]
        rfl
      · obtain ⟨hduty, hstays, -⟩ := pwmUpdate_lost (hdues.trans hnone) (hlost.trans hlostNext)
        refine ⟨_, hexec, (kduty.trans hduty).trans ?_, (kstaged.trans hstays).trans hstaged⟩
        rw [State.r, hregs]
        rfl
      · rw [pwmUpdate_none (hdues.trans hnone) (hlost.trans hkeeps)] at kduty kstaged
        refine ⟨_, hexec, kduty.trans ?_, kstaged.trans hstaged⟩
        rw [State.r, hregs]
        rfl
    · obtain ⟨hduty, hyoung, -⟩ := pwmUpdate_due (s := s.tick t) hdue
      obtain ⟨kstaged, -, kduty⟩ := (DutyKept.refl ((s.tick t).pwmUpdate o)).pwmShape (q := o) (e := (x.period / 2 : Nat))
        |>.pwmTriggers o.isLt (q := o) (trig := 3)
      exact ⟨_, exec_pwmCentre_half hfield hen hfirst hstart hfrom hto hmode hhalf, kduty.trans hduty, kstaged.trans hyoung⟩
  case write =>
    intro o v r htakes staged
    refine ⟨fun hsrc => ?_, fun hsrc => ⟨?_, ?_⟩⟩
    · refine ⟨_, exec_dutyWrite_page t o v htakes, ?_⟩
      rw [if_pos hsrc]
      exact stageDuty_stages (counted s t 20) o.isLt v.isLt
    · refine ⟨_, exec_dutyWrite_page t o v htakes, ?_⟩
      rw [if_neg (by simp [hsrc])]
      exact ⟨r_counted s t 20 (inBlock (by decide) o.isLt) 0, rfl⟩
    · exact ⟨_, exec_dutyWrite_route t o v (islandOn_of_takes htakes) hsrc, stageDuty_stages (s.tick t) o.isLt v.isLt⟩
  case timeout =>
    intro o hfield htmo hsilent hen hlost hsafe hrole hstaged
    have hkey : ACT.DUTY_APPLIED.key 0 o ≠ ACT.DUTY_LOST.key 0 o := by
      simp only [Fld.key, ACT.DUTY_APPLIED, ACT.DUTY_LOST]
      omega
    refine ⟨_, exec_dutyTimeout t hfield htmo hsilent hen hlost hsafe hrole hstaged, ?_, pwm_dutyLost _ _, ?_⟩
    · rw [r_keepK, r_dutyLost _ _ (inBlock (by decide) o.isLt), r_w_cut _ _ _ _ _ (by decide)]
      rfl
    · rw [r_keepK, r_dutyLost _ _ (inBlock (by decide) o.isLt), r_w_ne _ _ _ _ _ _ _ _ hkey]
      rfl
  case trip =>
    intro line hen
    exact ⟨_, exec_tripInput t line true s, tripLine_live line.isLt 0 (tripLive_pinAt (s := s.tick t) line.isLt hen)⟩
  case clear =>
    intro r v htakes
    refine ⟨_, exec_actTripClear t v htakes, fun l hl => ?_⟩
    obtain ⟨-, hbits⟩ := forN_clearTrip v (counted s t 20) le_rfl
    rw [r_keepK, r_forN_noteClear, hbits l hl, if_pos hl, r_counted s t 20 inBlock_tripState, sameLines_counted s t l hl]

end Sys2Proof.ActuationLaws
end

section
/-! Logic engines: instructions that a load refuses, and instructions on the bit accumulator (R253, R254, R275). -/

namespace Sys2Proof.LogicBitLaws

open Sys2Proof Sys2Proof.Machine Sys2Proof.Laws

variable {s u : State} {e : Fin 4} {op : Nat} {am : AM} {a : BitVec 22}

/-! ### Forms that the load check refuses (R275) -/

/-- Settles O33: each instruction with an operand address tests its form first. -/
theorem loadCheckStops : Obligations.LoadCheckStops := by
  intro c s op am a hform hbad
  have hnot : ¬ formOk op am a = true := Bool.eq_false_iff.mp hbad
  cases c with
  | ld | ldn | and_ | andn | or_ | orn | xor_ | xorn | st | stn | set_ | instrR | fp | fn_ | tas | l | add | sub | mul | div
  | mod_ | mulq | divq | andw | orw | xorw | shl | shr | asr | min_ | max_ | ceq | cne | cgt | cge | clt | cle | ton | tof | tp
  | tonr | trst | tpre | ctu | ctd | crst | cld | cpre | t_ | bmov =>
    cases hform
    exact if_neg hnot
  | _ => exact nomatch hform

/-! ### Instructions that change the running bank alone -/

/-- An instruction of an accepted form whose effect is to make `f` of the running bank. -/
theorem ins_fin_ends (hform : formOk op am a = true) (hon : s.islandOn .logic = true) {f : Bank → Bank}
    (hpc : (f (s.bank e)).pc = (s.bank e).pc) : ∃ x, s.ins op e am a (fun s => s.fin e f) = .next x ∧ Ends e (f (s.bank e)) s x :=
  ⟨_, ins_on hform hon e _, plain_ends s e f hpc⟩

/-- An instruction without an operand that makes `f` of the running bank. -/
theorem plain_fin_ends (hon : s.islandOn .logic = true) {f : Bank → Bank} (hpc : (f (s.bank e)).pc = (s.bank e).pc) :
    ∃ x, s.plain e (fun s => s.fin e f) = .next x ∧ Ends e (f (s.bank e)) s x :=
  ⟨_, plain_on hon e _, plain_ends s e f hpc⟩

/-- An instruction that reads a bit `v` of the engine's own island and makes `f` of the running bank. -/
theorem bitIns_ends {v : Bool} {i : Instr} {f : Bank → Bool → Bank} (hon : s.islandOn .logic = true)
    (hread : BitOperand s e am a u v) (hform : formOk op am a = true) (hpc : (f (u.bank e) v).pc = (u.bank e).pc) :
    ∃ x, s.ins op e am a (fun s => s.bitIns e i am a none f) = .next x ∧ Ends e (f (u.bank e) v) u x := by
  refine ⟨_, ins_on hform hon e _, ?_⟩
  rw [bitIns_local hread]
  exact fin_ends s u e _ hpc

/-- An opening bracket where the branch stack has room (R254). -/
theorem openBr_ends (hon : s.islandOn .logic = true) (hroom : (s.bank e).branch.length < 16) (op : BrOp) :
    ∃ x, s.openBr e op = .next x ∧ Ends e { s.bank e with branch := ((s.bank e).ba, op) :: (s.bank e).branch } s x := by
  obtain ⟨x, hx, hends⟩ := plain_fin_ends hon (f := fun b => { b with branch := (b.ba, op) :: b.branch }) rfl
  exact ⟨x, (if_pos hroom).trans hx, hends⟩

theorem execCloseParen_cons {v : Bool} {op : BrOp} {rest : List (Bool × BrOp)} (h : (s.bank e).branch = (v, op) :: rest) :
    execCloseParen e s = s.plain e fun s => s.fin e fun b => { b with ba := brResult op v b.ba, branch := rest } := by
  unfold execCloseParen
  rw [h]

/-- Settles O26: every instruction reads its bit, if it has one, and makes its change of the running bank. -/
theorem logicBits : Obligations.LogicBits := by
  unfold Obligations.LogicBits
  intro e s hon
  refine ⟨fun am a u v hread => ⟨?ld, ?ldn, ?and_, ?andn, ?or_, ?orn, ?xor_, ?xorn⟩, ?nop, ?not_, ?setb, ?clrb, fun hroom => ⟨?a, ?an, ?o, ?on, ?x⟩, ?close⟩
  case ld | ldn | and_ | andn | or_ | orn | xor_ | xorn => exact fun hform => bitIns_ends hon hread hform rfl
  case nop | not_ | setb | clrb => exact plain_fin_ends hon rfl
  case a | an | o | on | x => exact openBr_ends hon hroom _
  case close =>
    intro v op rest hpushed
    obtain ⟨x, hx, hends⟩ := plain_fin_ends hon (f := fun b => { b with ba := brResult op v b.ba, branch := rest }) rfl
    exact ⟨x, (execCloseParen_cons hpushed).trans hx, hends⟩

/-! ### Bit stores -/

/-- A bit store reads the bit `v` that `p` names, stores what `g` gives and ends with what `f` makes of the bank; both see the bit accumulator of `s`. -/
theorem bitStore_stores {s1 : State} {c : OpClass} {p : Nat × Nat} {v z : Bool} {y : Option Bool} {g : Bank → Bool → Option Bool}
    {f : Bank → Bool → Bank} (hon : s.islandOn .logic = true) (hform : formOk op am a = true) (hc : c = .bitWrite ∨ c = .tas)
    (hop : (s.begin e).operand e c am a = (s1, some p)) (hread : s1.readBitAt e p = (u, v))
    (hg : ∀ b : Bank, b.ba = (s.bank e).ba → g b v = y) (hf : ∀ b : Bank, b.ba = (s.bank e).ba → (f b v).ba = z) :
    ∃ x, s.ins op e am a (fun s => s.bitStore e c am a g f) = .next x ∧ BitStored e p y u x ∧ (x.bank e).ba = z ∧
      (x.bank e).pc = (s.bank e).pc + 1 := by
  obtain ⟨⟨-, _, _, _, hbank⟩, hstored, hba, hpc⟩ := bitStore_spec hc hop hread g f _ rfl
  have hsame : (u.bank e).ba = (s.bank e).ba := by rw [hbank]
  have hcounter : (u.bank e).pc = (s.bank e).pc := by rw [hbank]
  rw [hg _ hsame] at hstored
  rw [hf _ hsame] at hba
  rw [hcounter] at hpc
  exact ⟨_, ins_on hform hon e _, hstored, hba, hpc⟩

/-- S and R store a fixed bit `y` where BA = 1. -/
theorem storeIf_stores {s1 : State} {p : Nat × Nat} {v y : Bool} (hon : s.islandOn .logic = true) (hform : formOk op am a = true)
    (hba : (s.bank e).ba = true) (hop : (s.begin e).operand e .bitWrite am a = (s1, some p)) (hread : s1.readBitAt e p = (u, v)) :
    ∃ x, s.ins op e am a (fun s => if (s.bank e).ba then s.bitStore e .bitWrite am a (fun _ _ => some y) (fun b _ => b)
        else s.fin e id) = .next x ∧ BitStored e p (some y) u x ∧ (x.bank e).ba = true ∧ (x.bank e).pc = (s.bank e).pc + 1 := by
  obtain ⟨x, hx, hstored⟩ := bitStore_stores (op := op) (g := fun _ _ => some y) (f := fun b _ => b) hon hform (.inl rfl) hop hread
    (fun _ _ => rfl) fun _ h => h.trans hba
  rw [ins_on hform hon] at hx ⊢
  exact ⟨x, by rwa [if_pos (by simpa using hba)], hstored⟩

/-- S and R do nothing where BA = 0. -/
theorem storeIf_ends (y : Bool) (hon : s.islandOn .logic = true) (hform : formOk op am a = true)
    (hba : (s.bank e).ba = false) :
    ∃ x, s.ins op e am a (fun s => if (s.bank e).ba then s.bitStore e .bitWrite am a (fun _ _ => some y) (fun b _ => b)
        else s.fin e id) = .next x ∧ Ends e (s.bank e) s x := by
  obtain ⟨x, hx, hends⟩ := ins_fin_ends (op := op) hform hon (f := id) rfl
  rw [ins_on hform hon] at hx ⊢
  exact ⟨x, by rwa [if_neg (by simpa using hba)], hends⟩

/-- Settles O27: each store reads the bit that its operand names and writes what it makes of it and of BA. -/
theorem logicStores : Obligations.LogicStores := by
  unfold Obligations.LogicStores
  intro e am a s s1 u p v hon
  refine ⟨fun hop hread => ⟨?st, ?stn, ?set_, ?instrR, ?fp, ?fn_⟩, ?tas, fun hba => ⟨?set0, ?reset0⟩⟩
  case st => exact fun hform => bitStore_stores hon hform (.inl rfl) hop hread (fun _ h => congrArg some h) fun _ h => h
  case stn => exact fun hform => bitStore_stores hon hform (.inl rfl) hop hread (fun _ h => by rw [h]) fun _ h => h
  case set_ | instrR => exact fun hform hba => storeIf_stores hon hform hba hop hread
  case fp => exact fun hform => bitStore_stores hon hform (.inl rfl) hop hread (fun _ h => congrArg some h) fun _ h => congrArg (· && !v) h
  case fn_ => exact fun hform => bitStore_stores hon hform (.inl rfl) hop hread (fun _ h => congrArg some h) fun _ h => congrArg (!· && v) h
  case tas => exact fun hop hread hform => bitStore_stores hon hform (.inr rfl) hop hread (fun _ _ => rfl) fun _ _ => rfl
  case set0 | reset0 => exact fun hform => storeIf_ends _ hon hform hba

end Sys2Proof.LogicBitLaws
end

section
/-! Logic engines: word instructions (R253, R255). -/

namespace Sys2Proof.LogicWordLaws

open Sys2Proof Sys2Proof.Machine Sys2Proof.Laws

/-! ### Results and flags (R255) -/

theorem sat_eq (x : Int) : sat 32 x = max (-(2 ^ 31)) (min (2 ^ 31 - 1) x) := by
  unfold sat clampI
  split_ifs <;> omega

/-- A result overflows where it lies outside the 32-bit format. -/
theorem overflows_iff (x : Int) : overflows 32 x = true ↔ ¬ (-(2 ^ 31) ≤ x ∧ x ≤ 2 ^ 31 - 1) := by
  rw [overflows, decide_eq_true_iff, sat_eq]
  omega

/-- The bank after a saturating operation with the exact result `v`. -/
theorem arith_eq (b : Bank) (v : Int) : b.arith v = { b with
    acc1 := BitVec.ofInt 32 (max (-(2 ^ 31)) (min (2 ^ 31 - 1) v)),
    status := if -(2 ^ 31) ≤ v ∧ v ≤ 2 ^ 31 - 1 then b.status else b.status ||| 1#5 } := by
  unfold Bank.arith
  rw [sat_eq]
  congr 1
  by_cases hin : -(2 ^ 31) ≤ v ∧ v ≤ 2 ^ 31 - 1
  · rw [if_pos hin, if_neg (by rw [overflows_iff]; exact not_not.mpr hin)]
  · rw [if_neg hin, if_pos ((overflows_iff v).mpr hin)]

theorem toInt_eq_min {w : Word} : w = 0x80000000#32 ↔ w.toInt = -(2 ^ 31) := by
  rw [← BitVec.toInt_inj]
  exact Iff.rfl

theorem toInt_eq_neg_one {w : Word} : w = 0xFFFFFFFF#32 ↔ w.toInt = -1 := by
  rw [← BitVec.toInt_inj]
  exact Iff.rfl

theorem quot_zero (b : Bank) (v : Word) : b.quot 0 v = b.byZero := if_pos rfl

theorem quot_exact {b : Bank} {w : Word} (v : Word) (hw : w ≠ 0) (hfits : ¬ (b.acc1.toInt = -(2 ^ 31) ∧ w.toInt = -1)) :
    b.quot w v = { b with acc1 := BitVec.ofInt 32 (b.acc1.toInt.tdiv w.toInt) } := by
  unfold Bank.quot
  rw [if_neg hw, if_neg (by rwa [toInt_eq_min, toInt_eq_neg_one])]

/-- The quotient that the spec leaves open is a free value (assumption 6). -/
theorem quot_free {b : Bank} {w : Word} (v : Word) (hx : b.acc1.toInt = -(2 ^ 31)) (hy : w.toInt = -1) :
    b.quot w v = { b with acc1 := v } := by
  unfold Bank.quot
  have hw : w ≠ 0 := by
    rintro rfl
    exact absurd hy (by decide)
  rw [if_neg hw, if_pos ⟨toInt_eq_min.mpr hx, toInt_eq_neg_one.mpr hy⟩]

theorem remd_zero (b : Bank) : b.remd 0 = { b with acc1 := 0, status := b.status ||| 2#5 } := if_pos rfl

theorem remd_ne {b : Bank} {w : Word} (hw : w ≠ 0) : b.remd w = { b with acc1 := BitVec.ofInt 32 (b.acc1.toInt.tmod w.toInt) } := if_neg hw

theorem quotQ_zero (b : Bank) : b.quotQ 0 = b.byZero := if_pos rfl

theorem quotQ_ne {b : Bank} {w : Word} (hw : w ≠ 0) : b.quotQ w = { b with
    acc1 := BitVec.ofInt 32 (max (-(2 ^ 31)) (min (2 ^ 31 - 1) (divRound (b.acc1.toInt * 2 ^ 16) w.toInt))) } := by
  unfold Bank.quotQ
  rw [if_neg hw, sat_eq]

/-- The smaller of two words as their signed values. -/
theorem ofInt_min_toInt (x y : Word) : BitVec.ofInt 32 (min x.toInt y.toInt) = if x.toInt ≤ y.toInt then x else y := by
  rw [min_def, apply_ite (BitVec.ofInt 32)]
  simp

theorem ofInt_max_toInt (x y : Word) : BitVec.ofInt 32 (max x.toInt y.toInt) = if y.toInt ≤ x.toInt then x else y := by
  rw [max_comm, max_def, apply_ite (BitVec.ofInt 32)]
  simp

/-- A shift distance is the operand's low five bits. -/
theorem toNat_extract_five (w : Word) : (w.extractLsb' 0 5).toNat = w.toNat % 32 := by
  simp

theorem beq_eq_decide_toInt (x y : Word) : (x == y) = decide (x.toInt = y.toInt) := by
  rw [beq_eq_decide]
  exact decide_eq_decide.mpr BitVec.toInt_inj.symm

/-! ### The instructions -/

variable {s u : State} {e : Fin 4} {op : Nat} {am : AM} {a : BitVec 22} {w : Word}

/-- An instruction that reads a word `w` of the engine's own island, or a constant, and makes the bank `b` of the running one. -/
theorem wordIns_ends {i : Instr} {f : Bank → Word → Bank} {b : Bank} (hon : s.islandOn .logic = true)
    (hread : WordOperand s e am a u w) (hform : formOk op am a = true) (hb : f (u.bank e) w = b) (hpc : b.pc = (u.bank e).pc) :
    ∃ x, s.ins op e am a (fun s => s.wordIns e i am a none f) = .next x ∧ Ends e b u x := by
  subst hb
  refine ⟨_, ins_on hform hon e _, ?_⟩
  rw [wordIns_local hread]
  exact fin_ends s u e _ hpc

/-- DIV takes a free value whether it uses it or not (assumption 6); nothing but their count knows of it. -/
theorem opDiv_ends {b : Bank} (hon : s.islandOn .logic = true) (hread : WordOperand s e am a u w) (hform : formOk op am a = true)
    (hb : (u.bank e).quot w (Config.free 32 (s.begin e).freeTick) = b) (hpc : b.pc = (u.bank e).pc) :
    ∃ x, s.ins op e am a (fun s => s.opDiv e am a none) = .next x ∧ Ends e b u x := by
  subst hb
  refine ⟨_, ins_on hform hon e _, ?_⟩
  rw [State.opDiv, wordIns_local hread]
  exact fin_ends s u e (fun b => b.quot w (Config.free 32 (s.begin e).freeTick)) hpc

/-- Settles O29: every instruction reads its word and makes of the running bank what the table says. -/
theorem logicWords : Obligations.LogicWords := by
  unfold Obligations.LogicWords
  intro e am a s u w hon hread b x y sum
  have harith : ∀ v, b.arith v = sum v := arith_eq b
  refine ⟨?l, ?add, ?sub, ?mul, fun hform => ⟨fun hw hfits => ?div, fun hw => ?div0, fun hx hy => ?divFree⟩, fun hform => ⟨fun hw => ?mod, fun hw => ?mod0⟩,
    ?mulq, fun hform => ⟨fun hw => ?divq0, fun hw => ?divq⟩, ?andw, ?orw, ?xorw, ?shl, ?shr, ?asr, ?min, ?max, ?ceq, ?cne, ?cgt, ?cge, ?clt, ?cle⟩
  case l | andw | orw | xorw | cgt | cge | clt | cle => exact fun hform => wordIns_ends hon hread hform rfl rfl
  case add | sub | mul | mulq => exact fun hform => wordIns_ends hon hread hform (harith _) rfl
  case div => exact opDiv_ends hon hread hform (quot_exact _ hw hfits) rfl
  case div0 => exact opDiv_ends hon hread hform (hw ▸ quot_zero b _) rfl
  case divFree =>
    obtain ⟨z, hz, hends⟩ := opDiv_ends hon hread hform (quot_free _ hx hy) rfl
    exact ⟨z, hz, _, hends⟩
  case mod => exact wordIns_ends hon hread hform (remd_ne hw) rfl
  case mod0 => exact wordIns_ends hon hread hform (hw ▸ remd_zero b) rfl
  case divq0 => exact wordIns_ends hon hread hform (hw ▸ quotQ_zero b) rfl
  case divq => exact wordIns_ends hon hread hform (quotQ_ne hw) rfl
  case shl | shr | asr => exact fun hform => wordIns_ends hon hread hform (by rw [toNat_extract_five]) rfl
  case min => exact fun hform => wordIns_ends hon hread hform (by rw [ofInt_min_toInt]) rfl
  case max => exact fun hform => wordIns_ends hon hread hform (by rw [ofInt_max_toInt]) rfl
  case ceq => exact fun hform => wordIns_ends hon hread hform (by rw [beq_eq_decide_toInt]) rfl
  case cne => exact fun hform => wordIns_ends hon hread hform (by rw [bne, beq_eq_decide_toInt, ← decide_not]) rfl

end Sys2Proof.LogicWordLaws
end

section
/-! Logic engines: timer and counter instructions (R259, R260, R282). -/

namespace Sys2Proof.LogicTimerLaws

open Sys2Proof Sys2Proof.Machine Sys2Proof.Laws

/-! ### What a timer instruction makes of a record (R259) -/

theorem elapsed_lt (s : State) (n : Nat) : (s.timer n).elapsed < 2 ^ 32 := BitVec.isLt _

theorem mark_lt (s : State) (n : Nat) : (s.timer n).mark < 2 ^ 32 := BitVec.isLt _

/-- The present instant in a timer's units is a uint32. -/
theorem timerNow_lt (s : State) (x : TimerRec) : s.timerNow x < 2 ^ 32 := Nat.mod_lt _ (by decide)

/-- The uint32 time from the mark `m` to `now`. -/
def sinceMark (now m : Nat) : Nat := (now + 2 ^ 32 - m) % 2 ^ 32

theorem since_eq {x : TimerRec} (now : Nat) (h : x.mark < 2 ^ 32) : x.since now = sinceMark now x.mark := by
  rw [TimerRec.since, Nat.mod_eq_of_lt h, sinceMark]

theorem limit_lt (x : TimerRec) : x.limit < 2 ^ 32 := by
  unfold TimerRec.limit
  omega

/-- The record of a timer that runs from the mark `m`: it has stopped once its limit is reached. -/
def ranFrom (m now : Nat) (x : TimerRec) : TimerRec :=
  { x with mark := m, elapsed := min x.limit (sinceMark now m), running := decide (min x.limit (sinceMark now m) < x.limit) }

/-- What stops at its limit, as the steps of TOF and TP write it, is what `decide` says of the limit. -/
theorem ite_limit_le {α : Type} {l n : Nat} (f : Bool → α) : (if l ≤ n then f false else f true) = f (decide (n < l)) := by
  split_ifs with hend
  · rw [decide_eq_false (Nat.not_lt.mpr hend)]
  · rw [decide_eq_true (Nat.not_le.mp hend)]

theorem tofStep_idle {x : TimerRec} {i : Bool} (now : Nat) (hi : i = false) (hin : x.inMem = false) (hrun : x.running = false) :
    tofStep i now x = x := by
  simp [tofStep, hi, hin, hrun]

theorem tofStep_runs {x : TimerRec} {i : Bool} {now : Nat} (hi : i = false) (hm : x.mark < 2 ^ 32) (hnow : now < 2 ^ 32)
    (h : x.inMem = true ∨ x.running = true) :
    tofStep i now x =
      { ranFrom (if x.inMem then now else x.mark) now x with q := x.q && (ranFrom (if x.inMem then now else x.mark) now x).running } := by
  subst hi
  obtain ⟨base, inMem, running, q, preset, elapsed, mark⟩ := x
  cases inMem
  · obtain rfl : running = true := h.resolve_left Bool.false_ne_true
    simp only [tofStep, ranFrom, TimerRec.limit, since_eq now hm, Bool.false_eq_true, if_false, if_true]
    rw [← ite_limit_le fun b => TimerRec.mk base false b (q && b) preset _ mark]
    simp
  · simp only [tofStep, ranFrom, TimerRec.limit, Bool.false_eq_true, if_false, if_true]
    rw [since_eq now hnow, ← ite_limit_le fun b => TimerRec.mk base true b (q && b) preset _ now]
    simp

theorem tpStep_idle {x : TimerRec} {i : Bool} (now : Nat) (hrun : x.running = false) (h : i = false ∨ x.inMem = true) :
    tpStep i now x = { x with elapsed := if i then x.elapsed else 0, q := false } := by
  obtain ⟨base, inMem, running, q, preset, elapsed, mark⟩ := x
  cases hrun
  rcases h with rfl | rfl
  · rfl
  · cases i <;> rfl

theorem tpStep_runs {x : TimerRec} {i : Bool} {now : Nat} (hm : x.mark < 2 ^ 32) (hnow : now < 2 ^ 32)
    (h : x.running = true ∨ (i = true ∧ x.inMem = false)) :
    tpStep i now x =
      let y := ranFrom (if i && !x.inMem && !x.running then now else x.mark) now x
      { y with q := y.running } := by
  obtain ⟨base, inMem, running, q, preset, elapsed, mark⟩ := x
  cases running
  · obtain ⟨rfl, rfl⟩ : i = true ∧ inMem = false := h.resolve_left Bool.false_ne_true
    simp only [tpStep, ranFrom, TimerRec.limit, Bool.not_false, Bool.and_self, if_true]
    rw [since_eq now hnow, ← ite_limit_le fun b => TimerRec.mk base false b b preset _ now]
    split_ifs <;> rfl
  · simp only [tpStep, ranFrom, TimerRec.limit, since_eq now hm, Bool.not_true, Bool.and_false, Bool.false_eq_true, if_false, if_true]
    rw [← ite_limit_le fun b => TimerRec.mk base inMem b b preset _ mark]
    split_ifs <;> rfl

/-- The record that TON gives. -/
theorem tonStep_eq {x : TimerRec} {i : Bool} {now : Nat} (hm : x.mark < 2 ^ 32) (hnow : now < 2 ^ 32) :
    tonStep i now x =
      let mark := if i && !x.inMem then now else x.mark
      let elapsed := if i then min x.limit (sinceMark now mark) else 0
      { x with mark := mark, elapsed := elapsed, q := i && decide (x.limit ≤ elapsed), running := i && !(i && decide (x.limit ≤ elapsed)) } := by
  obtain ⟨base, inMem, running, q, preset, elapsed, mark⟩ := x
  cases i
  · simp only [tonStep, Bool.false_and, Bool.false_eq_true, if_false]
  · cases inMem
    · simp only [tonStep, TimerRec.limit, Bool.not_false, Bool.and_self, if_true, since_eq (x := ⟨_, _, _, _, _, _, now⟩) now hnow]
    · simp only [tonStep, TimerRec.limit, Bool.not_true, Bool.and_false, Bool.false_eq_true, if_false, if_true, since_eq now hm]

/-- The record that TONR gives. -/
theorem tonrStep_eq {x : TimerRec} (i : Bool) (now : Nat) (hm : x.mark < 2 ^ 32) :
    tonrStep i now x =
      let elapsed := if i && x.inMem then min x.limit (x.elapsed + sinceMark now x.mark) else x.elapsed
      { x with mark := if i then now else x.mark, elapsed := elapsed, q := decide (x.limit ≤ elapsed) } := by
  obtain ⟨base, inMem, running, q, preset, elapsed, mark⟩ := x
  cases i <;> cases inMem <;>
    simp only [tonrStep, TimerRec.limit, Bool.and_true, Bool.and_false, Bool.false_eq_true, if_false, if_true, since_eq now hm]

/-! ### The instructions on a numbered record -/

variable {s u : State} {e : Fin 4} {op : Nat} {c : OpClass} {am : AM} {a : BitVec 22} {n : Nat}

/-- A timer or counter instruction ends with the data memory that its step leaves and BA as its step answers. -/
theorem numbered_ends {rd : Bank → List Nat} (hon : s.islandOn .logic = true) (hform : formOk op am a = true)
    (hnum : Numbered s e c am a (rd (s.bank e)) u n) (f : Bank → State → Nat → State × Bool) :
    ∃ z, s.ins op e am a (fun s => s.numbered e c am a (rd (s.bank e)) (f (s.bank e))) = .next z ∧
      z.dataMem = (f (s.bank e) u n).1.dataMem ∧ (∀ w, z.dwordSeen w = (f (s.bank e) u n).1.dwordSeen w) ∧
      (z.bank e).ba = (f (s.bank e) u n).2 := by
  refine ⟨_, ins_on hform hon e _, ?_⟩
  rw [bank_begin, numbered_spec hnum]
  exact ⟨rfl, fun _ => rfl, by simp [State.fin]⟩

theorem dword_congr {y z : State} (h : z.dataMem = y.dataMem) (w : Nat) : z.dword w = y.dword w := congrArg (fun m => sget 0 m w) h

theorem timerHeld_congr {y z : State} (h : z.dataMem = y.dataMem) : z.timerHeld n = y.timerHeld n := by
  simp only [State.timerHeld, dword_congr h]

theorem min_limit_lt (x : TimerRec) (k : Nat) : min x.limit k < 2 ^ 32 := Nat.lt_of_le_of_lt (Nat.min_le_left _ _) (limit_lt x)

theorem ite_lt {p : Prop} [Decidable p] {x y k : Nat} (hx : x < k) (hy : y < k) : (if p then x else y) < k := by
  split_ifs <;> assumption

/-- What the timer instructions leave alike: IN_MEM is their input, PRESET and BASE stand, BA is Q, and no other record changes. -/
def TimerRest (e : Fin 4) (n : Nat) (i : Bool) (u z : State) : Prop :=
  (z.timerHeld n).inMem = i ∧ (z.timerHeld n).preset = (u.timerHeld n).preset ∧ (z.timerHeld n).base = (u.timer n).base ∧
    (z.bank e).ba = (z.timerHeld n).q ∧ RecordOnly (timerWord n 0) u z

/-- A timer instruction writes the record that its step gives. -/
theorem timer_ends {step : Bool → Nat → TimerRec → TimerRec} (hon : s.islandOn .logic = true) (hform : formOk op am a = true)
    (hnum : Numbered s e .timer am a [0, 1, 2, 3] u n) {y : TimerRec} (hy : step (s.bank e).ba (u.timerNow (u.timer n)) (u.timer n) = y)
    (hbase : y.base = (u.timer n).base) (helapsed : y.elapsed < 2 ^ 32) (hmark : y.mark < 2 ^ 32) :
    ∃ z, s.ins op e am a (fun s => s.timerIns e am a step) = .next z ∧ (z.timerHeld n).elapsed = y.elapsed ∧
      (z.timerHeld n).mark = y.mark ∧ (z.timerHeld n).q = y.q ∧ (z.timerHeld n).running = y.running ∧ TimerRest e n (s.bank e).ba u z := by
  subst hy
  obtain ⟨z, hz, hdata, -, hba⟩ := numbered_ends (rd := fun _ => [0, 1, 2, 3]) hon hform hnum fun b u t =>
    (u.setTimer t { step b.ba (u.timerNow (u.timer t)) (u.timer t) with inMem := b.ba }, (step b.ba (u.timerNow (u.timer t)) (u.timer t)).q)
  have hheld := (timerHeld_congr hdata).trans (timer_setTimer _ _ _ (hbase ▸ Nat.mod_lt _ (by decide)) helapsed hmark)
  refine ⟨z, hz, ?_, ?_, ?_, ?_, ?_, ?_, ?_, ?_, fun w hw => (dword_congr hdata w).trans (setTimer_only _ _ _ w hw)⟩ <;> rw [hheld]
  · exact hbase
  · exact hba

theorem tofStep_on {i : Bool} (now : Nat) (x : TimerRec) (hi : i = true) : tofStep i now x = { x with q := true, running := false, elapsed := 0 } :=
  if_pos hi

/-- A timer that ran is the timer that runs or starts; one that is idle is left. -/
theorem idle_or_runs (x : TimerRec) : (x.inMem = false ∧ x.running = false) ∨ (x.inMem = true ∨ x.running = true) := by
  cases x.inMem <;> cases x.running <;> decide

theorem tof_ends (hon : s.islandOn .logic = true) (hform : formOk 0x21 am a = true) (hnum : Numbered s e .timer am a [0, 1, 2, 3] u n) :
    ∃ z, s.ins 0x21 e am a (fun s => s.timerIns e am a tofStep) = .next z ∧
      let x := u.timer n
      let y := z.timerHeld n
      ((s.bank e).ba = true → y.q = true ∧ y.running = false ∧ y.elapsed = 0 ∧ y.mark = x.mark) ∧
      ((s.bank e).ba = false → y.mark = (if x.inMem then u.timerNow x else x.mark) ∧
        (x.inMem = true ∨ x.running = true → y.elapsed = min x.limit (sinceMark (u.timerNow x) y.mark) ∧ y.running = decide (y.elapsed < x.limit) ∧
          y.q = (x.q && decide (y.elapsed < x.limit))) ∧
        (x.inMem = false → x.running = false → y.elapsed = x.elapsed ∧ y.q = x.q ∧ y.running = false)) ∧ TimerRest e n (s.bank e).ba u z := by
  cases hi : (s.bank e).ba with
  | true =>
    obtain ⟨z, hz, helapsed, hmark, hq, hrun, hrest⟩ := timer_ends hon hform hnum (tofStep_on _ _ hi) rfl
      (Nat.two_pow_pos 32) (mark_lt u n)
    exact ⟨z, hz, fun _ => ⟨hq, hrun, helapsed, hmark⟩, nofun, hi ▸ hrest⟩
  | false =>
    obtain ⟨hin, hidle⟩ | hruns := idle_or_runs (u.timer n)
    · obtain ⟨z, hz, helapsed, hmark, hq, hrun, hrest⟩ := timer_ends hon hform hnum (tofStep_idle _ hi hin hidle) rfl (elapsed_lt u n) (mark_lt u n)
      refine ⟨z, hz, nofun, fun _ => ⟨?_, ?_, fun _ _ => ⟨helapsed, hq, hrun.trans hidle⟩⟩, hi ▸ hrest⟩
      · simpa [hin] using hmark
      · simp [hin, hidle]
    · obtain ⟨z, hz, helapsed, hmark, hq, hrun, hrest⟩ := timer_ends hon hform hnum (tofStep_runs hi (mark_lt u n) (timerNow_lt u _) hruns) rfl
        (min_limit_lt _ _) (ite_lt (timerNow_lt _ _) (mark_lt u n))
      refine ⟨z, hz, nofun, fun _ => ⟨hmark, fun _ => ⟨hmark ▸ helapsed, helapsed ▸ hrun, helapsed ▸ hq⟩, fun hin hidle => ?_⟩, hi ▸ hrest⟩
      simp [hin, hidle] at hruns

theorem tp_ends (hon : s.islandOn .logic = true) (hform : formOk 0x22 am a = true) (hnum : Numbered s e .timer am a [0, 1, 2, 3] u n) :
    ∃ z, s.ins 0x22 e am a (fun s => s.timerIns e am a tpStep) = .next z ∧
      let i := (s.bank e).ba
      let x := u.timer n
      let y := z.timerHeld n
      y.mark = (if i && !x.inMem && !x.running then u.timerNow x else x.mark) ∧
      (x.running = true ∨ (i = true ∧ x.inMem = false) →
        y.elapsed = min x.limit (sinceMark (u.timerNow x) y.mark) ∧ y.running = decide (y.elapsed < x.limit)) ∧
      (x.running = false → (i = false ∨ x.inMem = true) → y.running = false ∧ y.elapsed = (if i then x.elapsed else 0)) ∧
      y.q = y.running ∧ TimerRest e n i u z := by
  by_cases hruns : (u.timer n).running = true ∨ ((s.bank e).ba = true ∧ (u.timer n).inMem = false)
  · obtain ⟨z, hz, helapsed, hmark, hq, hrun, hrest⟩ := timer_ends hon hform hnum (tpStep_runs (mark_lt u n) (timerNow_lt u _) hruns) rfl
      (min_limit_lt _ _) (ite_lt (timerNow_lt _ _) (mark_lt u n))
    refine ⟨z, hz, hmark, fun _ => ⟨hmark ▸ helapsed, helapsed ▸ hrun⟩, fun hidle hstays => ?_, hrun ▸ hq, hrest⟩
    simp [hidle] at hruns
    simp [hruns] at hstays
  · obtain ⟨hidle, hstays⟩ := not_or.mp hruns
    replace hidle : (u.timer n).running = false := Bool.eq_false_iff.mpr hidle
    replace hstays : (s.bank e).ba = false ∨ (u.timer n).inMem = true := by simpa [Classical.or_iff_not_imp_left] using hstays
    obtain ⟨z, hz, helapsed, hmark, hq, hrun, hrest⟩ := timer_ends hon hform hnum (tpStep_idle _ hidle hstays) rfl
      (ite_lt (elapsed_lt u n) (by decide)) (mark_lt u n)
    refine ⟨z, hz, ?_, fun h => absurd h hruns, fun _ _ => ⟨hrun.trans hidle, helapsed⟩, hq.trans (hrun.trans hidle).symm, hrest⟩
    refine hmark.trans (if_neg ?_).symm
    rcases hstays with h | h <;> simp [h]

/-! ### Counters (R260) -/

/-- A count writes COUNT and the flag of its edge, and answers COUNT as it reads then. -/
theorem count_spec (s : State) (n : Nat) (i : Bool) (bit : Nat) (d : Int) :
    (s.count n i bit d).2 = ((s.count n i bit d).1.dwordSeen (counterWord n 0)).toInt ∧
    (∀ w, (s.count n i bit d).1.dword w =
      if w = counterWord n 2 then BitVec.ofNat 32 (putBit (s.dwordSeen (counterWord n 2)).toNat bit i)
      else if w = counterWord n 0 ∧ (i && !(s.dwordSeen (counterWord n 2)).getLsbD bit) = true then
        BitVec.ofInt 32 (sat 32 ((s.dwordSeen (counterWord n 0)).toInt + d))
      else s.dword w) := by
  refine ⟨rfl, fun w => ?_⟩
  have hbit : (s.dwordSeen (counterWord n 2)).getLsbD bit = (s.dwordSeen (counterWord n 2)).toNat.testBit bit := rfl
  rw [hbit]
  by_cases hedge : (i && !(s.dwordSeen (counterWord n 2)).toNat.testBit bit) = true
  · simp only [State.count, hedge, and_true, if_true, dword_setDword]
  · simp only [State.count, hedge, and_false, Bool.false_eq_true, if_false, dword_setDword]

/-- The bits of a flag word after one of them has been put. -/
theorem getLsbD_ofNat_putBit (v : Word) {j : Nat} (hj : j < 32) (k : Nat) (b : Bool) :
    (BitVec.ofNat 32 (putBit v.toNat k b)).getLsbD j = if j = k then b else v.getLsbD j := by
  rw [BitVec.getLsbD_ofNat, FieldPageLaws.testBit_putBit, decide_eq_true hj, Bool.true_and]
  rfl

/-- CTU and CTD: the addressed counter's words after a count at input BA, and BA as the count decides. -/
theorem count_ends {rd : List Nat} {bit : Nat} {d : Int} {f : State → Nat → Int → Bool} (hon : s.islandOn .logic = true) (hform : formOk op am a = true)
    (hnum : Numbered s e .counter am a rd u n) :
    ∃ z, s.ins op e am a (fun s =>
        let i := (s.bank e).ba
        s.numbered e .counter am a rd fun s c =>
          let (s, m) := s.count c i bit d
          (s, f s c m)) = .next z ∧
      let i := (s.bank e).ba
      let fl := u.dwordSeen (counterWord n 2)
      z.dword (counterWord n 0) = (if i && !fl.getLsbD bit then
        BitVec.ofInt 32 (sat 32 ((u.dwordSeen (counterWord n 0)).toInt + d)) else u.dword (counterWord n 0)) ∧
      (∀ j, j < 32 → (z.dword (counterWord n 2)).getLsbD j = if j = bit then i else fl.getLsbD j) ∧
      z.dword (counterWord n 1) = u.dword (counterWord n 1) ∧
      (∃ y, (∀ w, z.dwordSeen w = y.dwordSeen w) ∧ (z.bank e).ba = f y n (z.dwordSeen (counterWord n 0)).toInt) ∧ RecordOnly (counterWord n 0) u z := by
  obtain ⟨hcount, hword⟩ := count_spec u n (s.bank e).ba bit d
  obtain ⟨z, hz, hdata, hseen, hba⟩ := numbered_ends (rd := fun _ => rd) hon hform hnum fun b u c =>
    ((u.count c b.ba bit d).1, f (u.count c b.ba bit d).1 c (u.count c b.ba bit d).2)
  refine ⟨z, hz, ?_, fun j hj => ?_, ?_, ⟨_, hseen, ?_⟩, fun w hw => ?_⟩
  · simp [dword_congr hdata, hword, counterWord]
  · rw [dword_congr hdata, hword, if_pos rfl, getLsbD_ofNat_putBit _ hj]
  · simp [dword_congr hdata, hword, counterWord]
  · rw [hba, hcount, hseen]
  · unfold counterWord at hw
    rw [dword_congr hdata, hword, if_neg (by unfold counterWord; omega), if_neg (by unfold counterWord; omega)]

theorem sat_toInt_succ (w : Word) : sat 32 (w.toInt + 1) = min (2 ^ 31 - 1) (w.toInt + 1) := by
  have hlow := BitVec.le_toInt w
  rw [LogicWordLaws.sat_eq]
  omega

theorem sat_toInt_pred (w : Word) : sat 32 (w.toInt + -1) = max (-(2 ^ 31)) (w.toInt - 1) := by
  have hhigh := BitVec.toInt_lt (x := w)
  rw [LogicWordLaws.sat_eq]
  omega

/-- An instruction that writes a word of its record where BA, or nothing, asks for it. -/
theorem wordWrite_ends {rd : Bank → List Nat} {p : Bank → Bool} {word : Nat → Nat} {v : Bank → State → Nat → Word} (hon : s.islandOn .logic = true)
    (hform : formOk op am a = true) (hnum : Numbered s e c am a (rd (s.bank e)) u n) :
    ∃ z, s.ins op e am a (fun s => s.numbered e c am a (rd (s.bank e)) fun u n =>
        (if p (s.bank e) then u.setDword (word n) (v (s.bank e) u n) else u, (s.bank e).ba)) = .next z ∧
      ∀ w, z.dword w = if p (s.bank e) = true ∧ w = word n then v (s.bank e) u n else u.dword w := by
  obtain ⟨z, hz, hdata, -⟩ := numbered_ends hon hform hnum fun b u n => (if p b then u.setDword (word n) (v b u n) else u, b.ba)
  refine ⟨z, hz, fun w => (dword_congr hdata w).trans ?_⟩
  by_cases hp : p (s.bank e) = true
  · simp only [hp, if_true, true_and, dword_setDword]
  · simp only [hp, Bool.false_eq_true, if_false, false_and]

/-- PRESET takes ACC1. -/
theorem presetWrite_ends {word : Nat → Nat} (hon : s.islandOn .logic = true) (hform : formOk op am a = true) (hnum : Numbered s e c am a [] u n) :
    ∃ z, s.ins op e am a (fun s => s.numbered e c am a [] fun u n => (u.setDword (word n) (s.bank e).acc1, (s.bank e).ba)) = .next z ∧
      ∀ w, z.dword w = if w = word n then (s.bank e).acc1 else u.dword w := by
  obtain ⟨z, hz, hword⟩ := wordWrite_ends (rd := fun _ => []) (p := fun _ => true) (word := word) (v := fun b _ _ => b.acc1) hon hform hnum
  exact ⟨z, hz, fun w => by simpa using hword w⟩

/-- Settles O28: each instruction writes its numbered record as its step says. -/
theorem logicTimers : Obligations.LogicTimers := by
  unfold Obligations.LogicTimers
  intro e am a s u n hon i
  refine ⟨fun hnum => ⟨fun hform => ?ton, fun hform => ?tof, fun hform => ?tp, fun hform => ?tonr⟩, fun hnum hform => ?trst, fun hnum hform => ?tpre,
    fun hnum hform => ?ctu, fun hnum hform => ?ctd, fun hnum => ⟨fun hform => ?crst, fun hform => ?cpre⟩, fun hnum hform => ?cld⟩
  case ton =>
    obtain ⟨z, hz, helapsed, hmark, hq, hrun, hrest⟩ := timer_ends hon hform hnum (tonStep_eq (mark_lt u n) (timerNow_lt u _)) rfl
      (ite_lt (min_limit_lt _ _) (by decide)) (ite_lt (timerNow_lt _ _) (mark_lt u n))
    exact ⟨z, hz, hmark, hmark ▸ helapsed, helapsed ▸ hq, hq ▸ hrun, hrest⟩
  case tof => exact tof_ends hon hform hnum
  case tp => exact tp_ends hon hform hnum
  case tonr =>
    obtain ⟨z, hz, helapsed, hmark, hq, -, hrest⟩ := timer_ends hon hform hnum (tonrStep_eq _ _ (mark_lt u n)) rfl
      (ite_lt (min_limit_lt _ _) (elapsed_lt u n)) (ite_lt (timerNow_lt _ _) (mark_lt u n))
    exact ⟨z, hz, helapsed, hmark, helapsed ▸ hq, hrest⟩
  case trst =>
    obtain ⟨z, hz, hdata, -, hba⟩ := numbered_ends (rd := fun _ => [0]) hon hform hnum fun b u t =>
      (if b.ba then u.setTimer t { u.timer t with elapsed := 0, q := false, running := false, inMem := false } else u, b.ba)
    refine ⟨z, hz, ?_⟩
    cases hi : (s.bank e).ba with
    | true =>
      simp only [hi, if_true] at hdata
      have hheld := (timerHeld_congr hdata).trans (timer_setTimer _ _ _ (Nat.mod_lt _ (by decide)) (Nat.two_pow_pos 32) (mark_lt u n))
      refine ⟨fun _ => ?_, fun h => (Bool.noConfusion (hi.symm.trans h)), hba, fun w hw => (dword_congr hdata w).trans (setTimer_only _ _ _ w hw)⟩
      rw [hheld]
      exact ⟨rfl, rfl, rfl, rfl, rfl, rfl⟩
    | false =>
      simp only [hi, Bool.false_eq_true, if_false] at hdata
      exact ⟨fun h => (Bool.noConfusion (hi.symm.trans h)), fun _ => hdata, hba, fun w _ => dword_congr hdata w⟩
  case tpre => exact presetWrite_ends (word := fun n => timerWord n 1) hon hform hnum
  case ctu =>
    obtain ⟨z, hz, hcount, hflag, hpreset, ⟨y, hseen, hba⟩, honly⟩ := count_ends (bit := 0) (d := 1)
      (f := fun s c m => decide ((s.dwordSeen (counterWord c 1)).toInt ≤ m)) hon hform hnum
    refine ⟨z, hz, ?_, hflag 0 (by decide), hflag 1 (by decide), hpreset, ?_, honly⟩
    · rw [hcount, sat_toInt_succ]
    · rw [hba, ← hseen]
  case ctd =>
    obtain ⟨z, hz, hcount, hflag, hpreset, ⟨y, -, hba⟩, honly⟩ := count_ends (bit := 1) (d := -1) (f := fun _ _ m => decide (m ≤ 0)) hon hform hnum
    refine ⟨z, hz, ?_, hflag 1 (by decide), hflag 0 (by decide), hpreset, hba, honly⟩
    rw [hcount, sat_toInt_pred]
  case crst => exact wordWrite_ends (rd := fun _ => []) (p := Bank.ba) (word := fun n => counterWord n 0) (v := fun _ _ _ => 0) hon hform hnum
  case cpre => exact presetWrite_ends (word := fun n => counterWord n 1) hon hform hnum
  case cld =>
    exact wordWrite_ends (rd := fun b => if b.ba then [1] else []) (p := Bank.ba) (word := fun n => counterWord n 0)
      (v := fun _ u n => u.dwordSeen (counterWord n 1)) hon hform hnum

end Sys2Proof.LogicTimerLaws
end

section
/-! Logic engines: instructions on the accumulators, the store T and the block move (R253, R255, R256). -/

namespace Sys2Proof.LogicMoveLaws

open Sys2Proof Sys2Proof.Machine Sys2Proof.Laws Sys2Proof.LogicBitLaws Sys2Proof.LogicWordLaws

/-! ### Words -/

/-- A word with its upper half replaced. -/
theorem ofNat_upper_half (w : Word) (k : BitVec 22) :
    BitVec.ofNat 32 (w.toNat % 2 ^ 16 + k.toNat % 2 ^ 16 * 2 ^ 16) = k.extractLsb' 0 16 ++ w.extractLsb' 0 16 := by
  apply BitVec.eq_of_toNat_eq
  have hlow : (w.extractLsb' 0 16).toNat = w.toNat % 2 ^ 16 := by simp
  have hhigh : (k.extractLsb' 0 16).toNat = k.toNat % 2 ^ 16 := by simp
  rw [BitVec.toNat_append, hlow, hhigh, Nat.shiftLeft_eq, Nat.mul_comm, ← Nat.two_pow_add_eq_or_of_lt (Nat.mod_lt _ (by decide)), BitVec.toNat_ofNat]
  omega

variable {s u : State} {e : Fin 4} {am : AM} {a : BitVec 22}

/-- Without forces a word reads as it stands. -/
theorem forceWord_unforced (h : s.forces = []) (area i : Nat) (v : Word) : s.forceWord area i v = v := by
  simp [State.forceWord, State.activeForces, h]

/-- A sound data word without forces reads as it stands. -/
theorem readAt_sound (hbad : s.pwr.bad = []) (hforces : s.forces = []) (e i : Nat) : s.readAt e (4, i) = (s, s.dword i) := by
  simp [State.readAt, State.dataRead, hbad, forceWord_unforced hforces]

/-- A word of the data memory that the program may write takes its value. -/
theorem writeAt_data {i : Nat} (hwin : inWin (s.windows (s.home e)).d i = true) (hdev : deviceWord i = false) (v : Word) :
    s.writeAt e (4, i) v = s.setDword i v := by
  simp [State.writeAt, hwin, hdev]

theorem answer_inside_on (hon : s.islandOn .logic = true) (f : State → State) : s.answer (fun s => s.inside .logic f) = .next (s.keep (f s)) := by
  rw [State.answer, inside_on hon]

theorem dword_keep (s u : State) (w : Nat) : (s.keep u).dword w = u.dword w := rfl

/-! ### The block move -/

theorem operand_state (h : am ≠ .ind) (c : OpClass) : (s.operand e c am a).1 = s := by
  cases am with
  | ind => exact absurd rfl h
  | _ => rfl

/-- A block move runs with the word it has come to, or begins with its first. -/
theorem opBmov_moves {i j k : Nat} (hk : k < (s.bank e).acc2.toNat % 2 ^ 16)
    (hmove : (s.bank e).move = some (k, (4, i)) ∨
      ((s.bank e).move = none ∧ k = 0 ∧ am ≠ .ind ∧ ((s.begin e).operand e .wordWrite am a).2 = some (4, i)))
    (hsrc : areaIdx ((s.bank e).acc1.toNat % 2 ^ 22) = (4, j)) (hreach : reachable .word .ind (4, j + k) = true)
    (hbad : s.pwr.bad = []) (hforces : s.forces = []) :
    (s.begin e).opBmov e am a none = (s.begin e).moveTo e am (4, i) k (s.dword (j + k)) := by
  have hlen : ¬ (s.bank e).acc2.toNat % 2 ^ 16 = 0 := by omega
  have hlocal : remote 4 = false := rfl
  have hread : (s.begin e).readAt e (4, j + k) = (s.begin e, s.dword (j + k)) := readAt_sound (s := s.begin e) hbad hforces _ _
  obtain hmove | ⟨hmove, rfl, ham, hop⟩ := hmove
  · simp only [State.opBmov, bank_begin, hmove, hlen, hsrc, hreach, hlocal, hread, Option.map_some, Option.getD_some, if_false, Bool.not_true, Bool.false_eq_true]
  · have hstate : (s.begin e).operand e .wordWrite am a = (s.begin e, some (4, i)) := Prod.ext (operand_state ham _) hop
    simp only [State.opBmov, bank_begin, hmove, hlen, hstate, hsrc, hreach, hlocal, hread, Option.map_none, Option.getD_none, if_false, Bool.not_true,
      Bool.false_eq_true]

/-- The bank after word `k` of a block move to data word `i` on: the move goes on with the next word or has ended. -/
def movedBank (b : Bank) (i k : Nat) : Bank :=
  if k + 1 < b.acc2.toNat % 2 ^ 16 then { b with move := some (k + 1, (4, i)) } else { b with move := none, pc := b.pc + 1 }

/-- A word of a block move is written; the move goes on or ends. -/
theorem moveTo_data {i k : Nat} (hreach : reachable .wordWrite am (4, i + k) = true) (hwin : inWin (s.windows (s.home e)).d (i + k) = true)
    (hdev : deviceWord (i + k) = false) (w : Word) :
    s.moveTo e am (4, i) k w = (s.setDword (i + k) w).setBank e (movedBank (s.bank e) i k) := by
  simp only [State.moveTo, hreach, if_true, writeAt_data hwin hdev, movedBank]
  split_ifs <;> rfl

/-- An instruction on the accumulators makes the bank `b` of the running one. -/
theorem accIns_ends (hon : s.islandOn .logic = true) {f : Bank → Bank} {b : Bank} (hb : f (s.bank e) = b) (hpc : b.pc = (s.bank e).pc) :
    ∃ x, s.plain e (fun s => s.fin e f) = .next x ∧ Ends e b s x := by
  subst hb
  exact plain_fin_ends hon hpc

/-- Settles O30: an instruction on the accumulators changes the bank alone, T and a block move write one data word. -/
theorem logicAccumulators : Obligations.LogicAccumulators := by
  unfold Obligations.LogicAccumulators
  intro e s hon b x sum
  have harith : ∀ v, b.arith v = sum v := arith_eq b
  refine ⟨fun k => ?lhi, ?tak, ?neg, ?abs, ?itq, ?qti, fun am a u i hform hop hwin hdev => ?t, fun am a i j k hform hk hmove hsrc hfrom hto hwin hdev hbad hforces => ?bmov⟩
  case lhi => exact accIns_ends hon (by rw [ofNat_upper_half]) rfl
  case tak | qti => exact accIns_ends hon rfl rfl
  case neg | itq => exact accIns_ends hon (harith _) rfl
  case abs => exact accIns_ends hon ((harith _).trans (by rw [Int.natCast_natAbs])) rfl
  case t =>
    obtain ⟨-, _, _, _, hbank⟩ : SameRun e (s.begin e) u := by
      have hrun := operand_run (s.begin e) e .wordWrite am a
      rwa [hop] at hrun
    refine ⟨s.keep ((u.setDword i (u.bank e).acc1).fin e id), (if_pos hform).trans ?_, fun w => ?_, rfl, rfl, ?_, rfl, rfl⟩
    · rw [answer_inside_on hon, hop]
      simp only [writeAt_data hwin hdev]
    · rw [dword_keep, dword_fin, dword_setDword, hbank, bank_begin]
    · have hpc : (u.bank e).pc = b.pc := by rw [hbank, bank_begin]
      exact (congrArg Bank.pc (bank_setBank _ _ _)).trans (congrArg (· + 1) hpc)
  case bmov =>
    refine ⟨s.keep (((s.begin e).setDword (i + k) (s.dword (j + k))).setBank e (movedBank b i k)), (if_pos hform).trans ?_, fun w => ?_, ?_, ?_⟩
    · rw [answer_inside_on hon, opBmov_moves hk hmove hsrc hfrom hbad hforces, moveTo_data (s := s.begin e) hto hwin hdev, bank_begin]
    · rw [dword_keep, dword_setBank, dword_setDword, State.begin, dword_setEng]
    · exact retMem_setBank ((s.begin e).setDword (i + k) (s.dword (j + k))) e (movedBank b i k)
    · rw [bank_keep, bank_setBank, movedBank]
      split_ifs <;> exact ⟨rfl, rfl, rfl, rfl⟩

end Sys2Proof.LogicMoveLaws
end

section
/-! Logic engines: jumps, calls, returns, END, SIG and PRI (R253, R254, R262, R269). -/

namespace Sys2Proof.LogicFlowLaws

open Sys2Proof Sys2Proof.Machine Sys2Proof.Laws

variable {s : State} {e : Fin 4}

/-! ### The program counter moves -/

/-- An instruction that makes `f` of the running bank, its program counter included. -/
theorem plain_setBank (hon : s.islandOn .logic = true) (f : Bank → Bank) :
    ∃ u, s.plain e (fun s => s.setBank e (f (s.bank e))) = .next u ∧ u.bank e = f (s.bank e) ∧ EngineOnly e s u := by
  refine ⟨_, plain_on hon e _, ?_, keepK_only (engineOnly_trans (begin_only s e) (setBank_only _ e _))⟩
  rw [keepK_bank, bank_setBank, bank_begin]

/-- An instruction that may jump, with its target in the code. -/
theorem jump_goes {k : BitVec 22} (hon : s.islandOn .logic = true) (htarget : 0 ≤ ((s.bank e).pc : Int) + 1 + k.toInt) (f : Bank → Bank) (taken : Bank → Bool) :
    ∃ u, s.jump e k f taken = .next u ∧
      u.bank e = { f (s.bank e) with pc := if taken (f (s.bank e)) then ((s.bank e).pc + 1 + k.toInt).toNat else (s.bank e).pc + 1 } ∧ EngineOnly e s u := by
  obtain ⟨u, hu, hends⟩ := plain_setBank (e := e) hon fun b => { f b with pc := if taken (f b) then (b.pc + 1 + k.toInt).toNat else b.pc + 1 }
  exact ⟨u, (if_neg (Int.not_lt.mpr htarget)).trans hu, hends⟩

/-! ### The end of an activation -/

theorem runWaiting_none {e : Nat} (h : (s.eng e).waiting = []) : s.runWaiting e = s := by
  have hfirst : s.firstWaiting e = none := by rw [State.firstWaiting, h]; rfl
  rw [State.runWaiting, hfirst]
  exact ite_self _

theorem trySwitch_unarmed {h : Nat} (harmed : s.r LGE.CHG_STATE h ≠ 5) : s.trySwitch h = s := if_neg fun hswitch => harmed hswitch.1

theorem showEng_idle {e : Nat} (h : (s.eng e).cur = none) : s.showEng e = (s.w LGE.CUR_PRIO 0 e).w LGE.IDLE 1 e := by
  rw [State.showEng, State.curPrio, h]

theorem home_of_fields {u : State} {e : Nat} (hhosting : u.r LGE.HOSTING e = s.r LGE.HOSTING e) (hhosted : u.r LGE.HOSTED e = s.r LGE.HOSTED e) :
    u.home e = s.home e := by
  unfold State.home State.on
  rw [hhosting, hhosted]

/-- An engine's record that keeps its image leaves every task of every program. -/
theorem task_setEng {h : Nat} {x : EngineX} (hx : x.image = (s.eng h).image) (e i : Nat) : (s.setEng h x).task e i = s.task e i := by
  have hhome : (s.setEng h x).home e = s.home e := rfl
  simp only [State.task, State.prog, hhome, eng_setEng]
  split_ifs with heq
  · rw [hx, heq]
  · rfl

theorem task_taskMax (h : Nat) (m : List (Nat × Nat)) (e i : Nat) : (s.setEng h { s.eng h with taskMax := m }).task e i = s.task e i :=
  task_setEng (by rfl) e i

/-- What the end of a periodic activation leaves: it notes its time in the home engine's record. -/
def FinishKeeps (s u : State) : Prop :=
  u.regs = s.regs ∧ u.dataMem = s.dataMem ∧ ∀ d, (u.eng d).frozen = (s.eng d).frozen ∧ (u.eng d).waiting = (s.eng d).waiting

theorem finishTask_none {e lvl : Nat} (h : (sget {} (s.eng e).banks lvl).task = none) : s.finishTask e lvl = s := by
  simp only [State.finishTask, h]

theorem finishTask_periodic {e lvl i : Nat} (htask : (sget {} (s.eng e).banks lvl).task = some i) (h : (s.task e i).kind = .periodic) :
    ∃ m, s.finishTask e lvl = s.setEng (s.home e) { s.eng (s.home e) with taskMax := m } := by
  refine ⟨sset 0 (s.eng (s.home e)).taskMax i (max (sget 0 (s.eng (s.home e)).taskMax i) ((s.up - (sget {} (s.eng e).banks lvl).began) / 1000)), ?_⟩
  simp only [State.finishTask, htask, task_taskMax, h, reduceCtorEq, if_false, false_and]

theorem finishTask_keeps {e lvl : Nat} (h : ∀ i, (sget {} (s.eng e).banks lvl).task = some i → (s.task e i).kind = .periodic) :
    FinishKeeps s (s.finishTask e lvl) := by
  cases htask : (sget {} (s.eng e).banks lvl).task with
  | none =>
    rw [finishTask_none htask]
    exact ⟨rfl, rfl, fun _ => ⟨rfl, rfl⟩⟩
  | some i =>
    obtain ⟨m, hfinish⟩ := finishTask_periodic htask (h i htask)
    rw [hfinish]
    refine ⟨rfl, rfl, fun d => ?_⟩
    rw [eng_setEng]
    split_ifs with hd
    · rw [hd]
      exact ⟨rfl, rfl⟩
    · exact ⟨rfl, rfl⟩

/-- An engine after the activation of its running level has been closed and taken from its levels. -/
def popped (s : State) (e : Nat) : State :=
  let u := s.finishTask e (s.level e)
  let u := u.setBankAt e (s.level e) { sget {} (u.eng e).banks (s.level e) with task := none, prio := s.level e, wroteR := false, claim := 0 }
  u.setEng e { u.eng e with cur := (u.eng e).frozen.head?, frozen := (u.eng e).frozen.drop 1, wait := none }

/-- END where no change is armed, no delivery is offered and no task waits. -/
theorem endTask_quiet {u : State} {e : Nat} (hu : (popped s e).showEng e = u) (harmed : u.r LGE.CHG_STATE (u.home e) ≠ 5)
    (hoffer : u.on EIC.OFFER_VALID 0 e = false) (hwaiting : (u.eng e).waiting = []) : s.endTask e = u := by
  unfold State.endTask
  extract_lets lvl closed b left x shown switched offer at_ wait
  have hshown : shown = u := hu
  have hswitched : switched = u := by rw [show switched = shown.trySwitch (shown.home e) from rfl, hshown, trySwitch_unarmed harmed]
  have hnone : offer = none := by
    rw [show offer = if switched.on EIC.OFFER_VALID 0 e then some (switched.r EIC.PRIO 0 (switched.r EIC.OFFER 0 e)) else none from rfl, hswitched]
    exact if_neg (by simp [hoffer])
  rw [hnone, hswitched]
  exact runWaiting_none hwaiting

theorem popped_regs (s : State) (e : Nat) : (popped s e).regs = (s.finishTask e (s.level e)).regs := by simp [popped, State.setBankAt]
theorem popped_dataMem (s : State) (e : Nat) : (popped s e).dataMem = (s.finishTask e (s.level e)).dataMem := by simp [popped, State.setBankAt]

/-- The periodic activation closed, no level is left. -/
theorem popped_rests {e : Nat} (hkind : ∀ i, (s.bank e).task = some i → (s.task e i).kind = .periodic) (hfrozen : (s.eng e).frozen = [])
    (hwaiting : (s.eng e).waiting = []) : (popped s e).regs = s.regs ∧ (popped s e).dataMem = s.dataMem ∧
      ((popped s e).eng e).cur = none ∧ ((popped s e).eng e).waiting = [] := by
  obtain ⟨hregs, hdata, heng⟩ := finishTask_keeps hkind
  obtain ⟨hfroz, hwait⟩ := heng e
  refine ⟨(popped_regs s e).trans hregs, (popped_dataMem s e).trans hdata, ?_, ?_⟩
  · simp [popped, State.setBankAt, hfroz, hfrozen]
  · simp [popped, State.setBankAt, hwait, hwaiting]

/-- An engine shown at rest: the fields but those two stand. -/
theorem r_shown_idle {u : State} (hregs : u.regs = s.regs) {e : Nat} (f : Fld) (i j : Nat) (hprio : f.key i j ≠ LGE.CUR_PRIO.key e 0)
    (hidle : f.key i j ≠ LGE.IDLE.key e 0) : ((u.w LGE.CUR_PRIO 0 e).w LGE.IDLE 1 e).r f i j = s.r f i j := by
  rw [r_w_ne _ _ _ _ _ _ _ _ hidle, r_w_ne _ _ _ _ _ _ _ _ hprio, State.r, State.r, hregs]

theorem home_shown_idle {u : State} (hregs : u.regs = s.regs) (e : Nat) : ((u.w LGE.CUR_PRIO 0 e).w LGE.IDLE 1 e).home e = s.home e :=
  home_of_fields (r_shown_idle hregs _ _ _ (by simp [Fld.key, LGE.HOSTING, LGE.CUR_PRIO]) (by simp [Fld.key, LGE.HOSTING, LGE.IDLE]))
    (r_shown_idle hregs _ _ _ (by simp [Fld.key, LGE.HOSTED, LGE.CUR_PRIO]) (by simp [Fld.key, LGE.HOSTED, LGE.IDLE]))

/-- END of a periodic task that nothing waits behind: the engine rests. -/
theorem endTask_rests (hkind : ∀ i, (s.bank e).task = some i → (s.task e i).kind = .periodic) (hfrozen : (s.eng e).frozen = [])
    (hwaiting : (s.eng e).waiting = []) (hoffer : s.on EIC.OFFER_VALID 0 e = false) (harmed : s.r LGE.CHG_STATE (s.home e) ≠ 5) :
    ((s.endTask e).eng e).cur = none ∧ (s.endTask e).r LGE.IDLE e = 1 ∧ (s.endTask e).dataMem = s.dataMem := by
  obtain ⟨hregs, hdata, hcur, hnone⟩ := popped_rests hkind hfrozen hwaiting
  have hchg : ((((popped s e).w LGE.CUR_PRIO 0 e).w LGE.IDLE 1 e).r LGE.CHG_STATE (s.home e)) = s.r LGE.CHG_STATE (s.home e) :=
    r_shown_idle hregs _ _ _ (by simp only [Fld.key, LGE.CHG_STATE, LGE.CUR_PRIO]; omega) (by simp only [Fld.key, LGE.CHG_STATE, LGE.IDLE]; omega)
  have hvalid : (((popped s e).w LGE.CUR_PRIO 0 e).w LGE.IDLE 1 e).r EIC.OFFER_VALID 0 e = s.r EIC.OFFER_VALID 0 e :=
    r_shown_idle hregs _ _ _ (by simp only [Fld.key, EIC.OFFER_VALID, LGE.CUR_PRIO]; omega) (by simp only [Fld.key, EIC.OFFER_VALID, LGE.IDLE]; omega)
  rw [endTask_quiet (showEng_idle hcur) (by rwa [home_shown_idle hregs, hchg]) (by rwa [State.on, hvalid]) (by rwa [eng_w, eng_w])]
  exact ⟨by rwa [eng_w, eng_w], r_w_cut _ _ _ _ _ (by decide), by rwa [w_dataMem, w_dataMem]⟩

/-! ### The instructions -/

theorem bne_zero_eq (w : Word) : (w != 0) = decide (w ≠ 0) := by
  rw [bne, beq_eq_decide, ← decide_not]

/-- A return goes to the address that the last call pushed. -/
theorem execRet_pushed (hon : s.islandOn .logic = true) {pc : Nat} {rest : List Nat} (hcalls : (s.bank e).calls = pc :: rest) :
    execRet e s = .next (s.keepK ((s.begin e).setBank e { s.bank e with pc := pc, calls := rest })) := by
  unfold execRet
  rw [plain_on hon]
  simp only [bank_begin, hcalls]

theorem begin_eng_self (s : State) (e : Nat) : (s.begin e).eng e = { s.eng e with wait := none } := by
  rw [State.begin, eng_setEng, if_pos rfl]

theorem task_begin (s : State) (e d i : Nat) : (s.begin e).task d i = s.task d i := task_setEng (by rfl) d i

theorem r_begin (s : State) (e : Nat) (f : Fld) (i j : Nat) : (s.begin e).r f i j = s.r f i j := by rw [State.begin, r_setEng]
theorem on_begin (s : State) (e : Nat) (f : Fld) (i j : Nat) : (s.begin e).on f i j = s.on f i j := by rw [State.begin, on_setEng]
theorem home_begin (s : State) (e d : Nat) : (s.begin e).home d = s.home d := home_of_fields (r_begin s e _ _ _) (r_begin s e _ _ _)

/-- END of a periodic task that nothing waits behind. -/
theorem end_rests (hon : s.islandOn .logic = true) (hkind : ∀ i, (s.bank e).task = some i → (s.task e i).kind = .periodic)
    (hfrozen : (s.eng e).frozen = []) (hwaiting : (s.eng e).waiting = []) (hoffer : s.on EIC.OFFER_VALID 0 e = false)
    (harmed : s.r LGE.CHG_STATE (s.home e) ≠ 5) :
    Gives (.end_ e) s fun u => (u.eng e).cur = none ∧ u.r LGE.IDLE e = 1 ∧ u.dataMem = s.dataMem := by
  obtain ⟨hcur, hidle, hdata⟩ := endTask_rests (s := s.begin e) (e := e) (by simpa only [bank_begin, task_begin] using hkind)
    (by rw [begin_eng_self, hfrozen]) (by rw [begin_eng_self, hwaiting]) (by rwa [on_begin]) (by rwa [r_begin, home_begin])
  refine ⟨s.keepK ((s.begin e).endTask e), plain_on hon e fun s => s.endTask e, ?_, ?_, ?_⟩
  · rw [keepK_eng, hcur]
  · rw [r_keepK, hidle]
  · rw [keepK_dataMem, hdata, State.begin, setEng_dataMem]

/-- A state that shows what an engine runs has its banks. -/
theorem bank_showEng (s : State) (e d : Nat) : (s.showEng e).bank d = s.bank d := by
  unfold State.showEng
  split <;> rw [bank_w, bank_w]

theorem eng_showEng (s : State) (e d : Nat) : (s.showEng e).eng d = s.eng d := by
  unfold State.showEng
  split <;> rw [eng_w, eng_w]

theorem dataMem_showEng (s : State) (e : Nat) : (s.showEng e).dataMem = s.dataMem := by
  unfold State.showEng
  split <;> rw [w_dataMem, w_dataMem]

/-- A source offered to the event controller leaves the engines. -/
theorem bank_offerEic (s : State) (src e : Nat) : (s.offerEic src).bank e = s.bank e := rfl

/-- The low bits of an immediate operand. -/
theorem toNat_extract (k : BitVec 22) (n : Nat) : (k.extractLsb' 0 n).toNat = k.toNat % 2 ^ n := by
  simp

/-- SIG offers its source and ends. -/
theorem sig_offers (hon : s.islandOn .logic = true) (k : BitVec 22) :
    Gives (.sig e k) s fun u => u.toEic = s.toEic ++ [84 + (k.extractLsb' 0 3).toNat] ∧ u.bank e = { s.bank e with pc := (s.bank e).pc + 1 } ∧ u.regs = s.regs := by
  refine ⟨s.keepK (((s.begin e).offerEic (84 + k.toNat % 8)).fin e id), plain_on hon e fun s => (s.offerEic (84 + k.toNat % 8)).fin e id, ?_, ?_, ?_⟩
  · rw [toNat_extract]
    simp [State.fin, State.offerEic, State.begin, State.setBank, State.setBankAt]
  · rw [keepK_bank, State.fin, bank_setBank, bank_offerEic, bank_begin]
    rfl
  · simp [State.fin, State.offerEic, State.begin, State.setBank, State.setBankAt]

/-- PRI where no task waits. -/
theorem pri_raises (hon : s.islandOn .logic = true) (k : BitVec 22) (hwaiting : (s.eng e).waiting = []) :
    Gives (.pri e k) s fun u => u.bank e = { s.bank e with prio := max (s.level e) (k.extractLsb' 0 4).toNat, pc := (s.bank e).pc + 1 } ∧ u.dataMem = s.dataMem := by
  obtain ⟨v, hv⟩ : ∃ v, v = (s.begin e).fin e fun b => { b with prio := max ((s.begin e).level e) (k.toNat % 16) } := ⟨_, rfl⟩
  have hnone : ((v.showEng e).eng e).waiting = [] := by
    rw [eng_showEng, hv]
    simp [State.fin, State.setBank, State.setBankAt, begin_eng_self, hwaiting]
  have hu : exec (.pri e k) s = .next (s.keepK (v.showEng e)) :=
    (plain_on hon e fun s => ((s.fin e fun b => { b with prio := max (s.level e) (k.toNat % 16) }).showEng e).runWaiting e).trans
      (by rw [← hv, runWaiting_none hnone])
  refine ⟨_, hu, ?_, ?_⟩
  · rw [keepK_bank, bank_showEng, hv, State.fin, bank_setBank, bank_begin, level_begin, toNat_extract]
    rfl
  · rw [keepK_dataMem, dataMem_showEng, hv, State.fin, dataMem_setBank, State.begin, setEng_dataMem]

/-- Settles O31: each instruction moves the program counter, ends the activation, or reaches the event controller. -/
theorem logicFlow : Obligations.LogicFlow := by
  unfold Obligations.LogicFlow
  intro e k s hon b goes
  refine ⟨fun htarget => ⟨?jmp, ?jc, ?jcn, ?loop, fun hroom => ?call⟩, fun pc rest hcalls => ?ret,
    fun hkind hfrozen hwaiting hoffer harmed => end_rests hon hkind hfrozen hwaiting hoffer harmed, ?sig, fun hwaiting => ?pri⟩
  case jmp => exact jump_goes hon htarget id fun _ => true
  case jc => exact jump_goes hon htarget id Bank.ba
  case jcn => exact jump_goes hon htarget id fun b => !b.ba
  case loop =>
    obtain ⟨u, hu, hbank, honly⟩ := jump_goes hon htarget (fun b => { b with acc2 := b.acc2 - 1 }) fun b => b.acc2 != 0
    refine ⟨u, hu, hbank.trans ?_, honly⟩
    simp only [bne_zero_eq]
    rfl
  case call =>
    obtain ⟨u, hu, hgoes⟩ := jump_goes hon htarget (fun b => { b with calls := (b.pc + 1) :: b.calls }) fun _ => true
    exact ⟨u, (if_neg (Nat.not_le.mpr hroom)).trans hu, hgoes⟩
  case ret =>
    refine ⟨_, execRet_pushed hon hcalls, ?_, keepK_only (engineOnly_trans (begin_only s e) (setBank_only _ e _))⟩
    rw [keepK_bank, bank_setBank]
  case sig => exact sig_offers hon k
  case pri => exact pri_raises hon k hwaiting

end Sys2Proof.LogicFlowLaws
end

section
/-! Logic engines: reads that leave the island (R256). -/

namespace Sys2Proof.LogicRemoteLaws

open Sys2Proof Sys2Proof.Machine Sys2Proof.Laws

variable {s s1 : State} {e : Fin 4} {am : AM} {a : BitVec 22} {p : Nat × Nat}

/-- A replaced record of engine `e` changes that engine only. -/
theorem setEng_only (s : State) (e : Fin 4) (x : EngineX) : EngineOnly e s (s.setEng e x) := by
  refine ⟨rfl, rfl, rfl, rfl, rfl, rfl, rfl, rfl, rfl, rfl, fun d hd => ?_⟩
  rw [eng_setEng, if_neg fun h => hd (Fin.ext h)]

/-- An instruction that reads a remote word waits. -/
theorem wordIns_waits (ham : am ≠ .imm) (hop : s.operand e .word am a = (s1, some p)) (hremote : remote p.1 = true) (i : Instr) (f : Bank → Word → Bank) :
    s.wordIns e i am a none f = s1.setEng e { s1.eng e with wait := some (i, p) } := by
  simp only [State.wordIns, ham, hop, hremote, if_false, if_true]

/-- The running bank stands while the engine waits. -/
theorem bank_setEng_wait (s : State) (e : Nat) (w : Option (Instr × Nat × Nat)) : (s.setEng e { s.eng e with wait := w }).bank e = s.bank e := by
  simp [State.bank, State.level]


/-- A word of SI is read from the station's last input, where the NET island runs and no force is active. -/
theorem remoteRead_si (hnet : s.islandOn .net = true) (hforces : s.forces = []) (e w : Nat) : s.remoteRead e 8 w = (s, s.siWord w) := by
  simp [State.remoteRead, hnet, State.forceWord, State.activeForces, hforces]

/-- A load that waited for a word of SI completes. -/
theorem opL_completes (hnet : s.islandOn .net = true) (hforces : s.forces = []) (e : Fin 4) (am : AM) (a : BitVec 22) (w : Nat) :
    s.opL e am a (some (8, w)) = s.fin e fun b => { b with acc2 := b.acc1, acc1 := s.siWord w } := by
  simp only [State.opL, State.wordIns, remoteRead_si hnet hforces]

/-- The response reaches the instruction that waits. -/
theorem remoteReadResponse_resumes (hon : s.islandOn .logic = true) (t : Nat) {i : Instr} (hwait : (s.eng e).wait = some (i, p)) :
    execRemoteReadResponse t e s = .next (s.keep (((s.tick t).begin e).resume i p)) := by
  have hwait' : ((s.tick t).eng e).wait = some (i, p) := hwait
  simp only [execRemoteReadResponse, State.cmd, State.answer, inside_on (s := s.tick t) hon, hwait']

theorem tick_only (s : State) (t : Nat) (e : Fin 4) : EngineOnly e s (s.tick t) :=
  ⟨rfl, rfl, rfl, rfl, rfl, rfl, rfl, rfl, rfl, rfl, fun _ _ => rfl⟩

theorem keep_only {u x : State} (h : EngineOnly e s x) : EngineOnly e s (u.keep x) := h

/-- The end of an instruction leaves the engine not waiting where it did not wait. -/
theorem wait_fin (s : State) (e : Nat) (f : Bank → Bank) : ((s.fin e f).eng e).wait = (s.eng e).wait := by
  simp [State.fin, State.setBank, State.setBankAt]

theorem wait_begin (s : State) (e : Nat) : ((s.begin e).eng e).wait = none := by
  simp [State.begin]

theorem bank_tick (s : State) (t e : Nat) : (s.tick t).bank e = s.bank e := rfl

/-- Settles O32: the load waits with its address, and completes with the word of the station. -/
theorem remoteReads : Obligations.RemoteReads := by
  unfold Obligations.RemoteReads
  intro e am a t s s1 p hon
  refine ⟨fun hform ham hop hremote => ?waits, fun hwait harea hnet hforces => ?completes⟩
  case waits =>
    refine ⟨s.keepK (s1.setEng e { s1.eng e with wait := some (.l e am a, p) }), ?_, ?_, ?_, keepK_only (setEng_only s1 e _)⟩
    · refine (ins_on hform hon e fun s => s.opL e am a none).trans ?_
      rw [State.opL, wordIns_waits ham hop hremote]
    · rw [keepK_eng, eng_setEng, if_pos rfl]
    · rw [keepK_bank, bank_setEng_wait]
  case completes =>
    obtain ⟨area, w⟩ := p
    obtain rfl : area = 8 := harea
    obtain ⟨v, hv⟩ : ∃ v, v = (s.tick t).begin e := ⟨_, rfl⟩
    have hfin : v.resume (.l e am a) (8, w) = v.fin e fun b => { b with acc2 := b.acc1, acc1 := s.siWord w } := by
      subst hv
      exact opL_completes (s := (s.tick t).begin e) hnet hforces e am a w
    refine ⟨s.keep (v.fin e fun b => { b with acc2 := b.acc1, acc1 := s.siWord w }), ?_, ?_, ?_, ?_⟩
    · rw [← hfin, hv]
      exact remoteReadResponse_resumes hon t hwait
    · rw [eng_keep, wait_fin, hv, wait_begin]
    · rw [bank_keep, State.fin, bank_setBank, hv, bank_begin, bank_tick]
    · rw [hv]
      exact keep_only (engineOnly_trans (tick_only s t e) (engineOnly_trans (begin_only _ e) (setBank_only _ e _)))

end Sys2Proof.LogicRemoteLaws
end

section
/-! Engine pages: what a write that a page takes acts on, and what an event leaves (R51, R52, R62). -/

namespace Sys2Proof.LogicPageLaws

open Sys2Proof Sys2Proof.Machine Sys2Proof.Laws Sys2Proof.FieldPageLaws

variable {s : State} {r : Requester}

/-- The state in which a write to page `pg` at instant `t` takes effect. -/
def writeSeen (s : State) (t : Nat) (pg : Page) : State := (s.tick t).countWrite pg

/-- The fields of the blocks stand. -/
theorem r_writeSeen (s : State) (t : Nat) (pg : Page) {g : Fld} {k : Nat} (h : InBlock g k) (j : Nat) : (writeSeen s t pg).r g j k = s.r g j k := by
  obtain ⟨hfrom, hto, hlsb⟩ := h
  exact LoopEngineLaws.r_countWrite_block (s.tick t) _ hfrom hto hlsb j

theorem on_writeSeen (s : State) (t : Nat) (pg : Page) {g : Fld} {k : Nat} (h : InBlock g k) (j : Nat) : (writeSeen s t pg).on g j k = s.on g j k :=
  congrArg (· != 0) (r_writeSeen s t pg h j)

theorem forces_writeSeen (s : State) (t : Nat) (pg : Page) : (writeSeen s t pg).forces = s.forces := rfl
theorem dataMem_writeSeen (s : State) (t : Nat) (pg : Page) : (writeSeen s t pg).dataMem = s.dataMem := rfl

/-- A write that its page takes acts on the state it sees. -/
theorem cmdK_seen {pg : Page} (h : Takes s r pg) (t : Nat) (f : State → State) :
    s.cmdK t (fun s => s.pageWrite r pg true f) = .next (s.keepK (f (writeSeen s t pg))) := cmdK_takes h t true false f

/-- A write of a locked field of a page whose lock is open. -/
theorem cmdK_opened {pg : Page} (h : Opened s r pg) (t : Nat) (d : State → Bool) (f : State → State) :
    s.cmdK t (fun s => s.pageWrite r pg true fun s => if !s.lockOpen pg then s.lockViol pg (d s) else f s) = .next (s.keepK (f (writeSeen s t pg))) := by
  obtain ⟨htakes, hopen⟩ := h
  have hopen' : (writeSeen s t pg).lockOpen pg = true := (PowerLaws.lockOpen_countWrite (s.tick t) pg).trans hopen
  rw [cmdK_seen htakes]
  simp only [hopen', Bool.not_true, Bool.false_eq_true, if_false]

end Sys2Proof.LogicPageLaws
end

section
/-! Logic engines: forces, MEM_DATA and input pins (R281, R284, R290, R293). -/

namespace Sys2Proof.LogicForceLaws

open Sys2Proof Sys2Proof.Machine Sys2Proof.Laws Sys2Proof.FieldPageLaws Sys2Proof.LogicPageLaws

variable {s : State}

/-! ### The force table (R281, R284) -/

theorem forces_forceRec (s : State) (f : Force) (r : Requester) (b : Bool) : (s.forceRec f r b).forces = s.forces := raise_forces ..
theorem dataMem_forceRec (s : State) (f : Force) (r : Requester) (b : Bool) : (s.forceRec f r b).dataMem = s.dataMem := raise_dataMem ..

theorem forces_showForces (s : State) : s.showForces.forces = s.forces := by simp [State.showForces, State.wb]
theorem dataMem_showForces (s : State) : s.showForces.dataMem = s.dataMem := by simp [State.showForces, State.wb]

/-- The end of a force switches its entry off and leaves the others. -/
theorem force_endForce (s : State) (i : Nat) (r : Requester) (j : Nat) : sget {} (s.endForce i r).forces j =
    if j = i ∧ (sget {} s.forces i).on = true then { sget {} s.forces i with on := false, orphaned := false } else sget {} s.forces j := by
  unfold State.endForce
  by_cases hon : (sget {} s.forces i).on = true
  · simp only [hon, if_true, forces_forceRec, sget_sset, and_true]
  · simp only [hon, if_false, and_false, Bool.false_eq_true]

theorem force_endForce_ne {i j : Nat} (h : j ≠ i) (s : State) (r : Requester) : sget {} (s.endForce i r).forces j = sget {} s.forces j := by
  rw [force_endForce, if_neg fun h' => h h'.1]

theorem on_endForce (s : State) (i : Nat) (r : Requester) (j : Nat) :
    (sget {} (s.endForce i r).forces j).on = (decide (j ≠ i) && (sget {} s.forces j).on) := by
  rw [force_endForce]
  by_cases hj : j = i
  · subst hj
    rw [decide_eq_false (not_not.mpr rfl), Bool.false_and]
    split_ifs with hon
    · rfl
    · simpa using hon
  · simp [hj]

theorem dataMem_endForce (s : State) (i : Nat) (r : Requester) : (s.endForce i r).dataMem = s.dataMem := by
  unfold State.endForce
  simp only
  split
  · rw [dataMem_forceRec]
  · rfl

/-! ### A run of forces that end -/

theorem dataMem_endForces (r : Requester) (is : List Nat) (s : State) : (is.foldl (fun s i => s.endForce i r) s).dataMem = s.dataMem :=
  List.foldlRecOn (motive := fun u : State => u.dataMem = s.dataMem) is _ rfl fun u hu i _ => (dataMem_endForce u i r).trans hu

theorem force_endForces_ne (r : Requester) {is : List Nat} {j : Nat} (h : j ∉ is) (s : State) :
    sget {} (is.foldl (fun s i => s.endForce i r) s).forces j = sget {} s.forces j :=
  List.foldlRecOn (motive := fun u : State => sget {} u.forces j = sget {} s.forces j) is _ rfl fun u hu _ hi =>
    (force_endForce_ne (ne_of_mem_of_not_mem hi h).symm u r).trans hu

/-- An entry that is on after a run of ends was on before and is not among them. -/
theorem on_endForces (r : Requester) (is : List Nat) (s : State) (j : Nat) :
    (sget {} (is.foldl (fun s i => s.endForce i r) s).forces j).on = (decide (j ∉ is) && (sget {} s.forces j).on) := by
  induction is generalizing s with
  | nil => simp
  | cons i is ih =>
    rw [List.foldl_cons, ih, on_endForce]
    by_cases hj : j = i <;> simp [hj]

/-- An entry that no key names reads as the default. -/
theorem sget_of_not_mem {α : Type} (d : α) : ∀ (m : List (Nat × α)) {k : Nat}, k ∉ m.map (·.1) → sget d m k = d
  | [], _, _ => rfl
  | (j, v) :: m, k, h => by
    obtain ⟨hne, hrest⟩ := not_or.mp (mt List.mem_cons.mpr h)
    rw [sget, if_neg hne, sget_of_not_mem d m hrest]

/-- No force is on once every entry of the table has ended. -/
theorem endForces_all_off (s : State) (r : Requester) (j : Nat) : (sget {} ((s.forces.map (·.1)).foldl (fun s i => s.endForce i r) s).forces j).on = false := by
  rw [on_endForces]
  by_cases hj : j ∈ s.forces.map (·.1)
  · simp [hj]
  · rw [sget_of_not_mem _ _ hj, Bool.and_false]

/-! ### The commit of a force -/

/-- The force that the window holds. -/
def windowForce (s : State) : Force := { addr := s.r LGE.FORCE_ADDR, word := s.on LGE.FORCE_KIND, val := BitVec.ofNat 32 (s.r LGE.FORCE_VAL), on := true }

/-- The entry addressed takes the window; the older entries of its address end. -/
theorem commitForce_spec (s : State) (r : Requester) :
    sget {} (s.commitForce r).forces (s.r LGE.FORCE_IDX) = windowForce s ∧ (s.commitForce r).dataMem = s.dataMem := by
  unfold State.commitForce
  extract_lets i f older was s1 s2
  have hforce : sget {} s2.forces i = f := by
    rw [show s2 = ({ s1 with forces := sset {} s1.forces i f } : State).forceRec f r true from rfl, forces_forceRec, sget_sset_same]
  have hdata : s2.dataMem = s.dataMem := by
    rw [show s2 = ({ s1 with forces := sset {} s1.forces i f } : State).forceRec f r true from rfl, dataMem_forceRec]
    exact (apply_ite State.dataMem _ s _).trans (ite_eq_left_iff.mpr fun _ => dataMem_endForce s i r)
  have hfold : older.foldl (fun s x => s.endForce x.1 r) s2 = (older.map (·.1)).foldl (fun s i => s.endForce i r) s2 := by
    rw [List.foldl_map]
  have hi : i ∉ older.map (·.1) := by
    simp [older]
  exact ⟨by rw [hfold, force_endForces_ne r hi]; exact hforce, by rw [hfold, dataMem_endForces, hdata]⟩

/-- The window of the counted state is that of the state. -/
theorem windowForce_writeSeen (s : State) (t : Nat) (pg : Page) : windowForce (writeSeen s t pg) = windowForce s := by
  simp only [windowForce, r_writeSeen s t pg (inBlock (g := LGE.FORCE_ADDR) (by decide) (Nat.zero_lt_one)),
    r_writeSeen s t pg (inBlock (g := LGE.FORCE_VAL) (by decide) (Nat.zero_lt_one)), on_writeSeen s t pg (inBlock (g := LGE.FORCE_KIND) (by decide) (Nat.zero_lt_one))]

/-! ### MEM_DATA -/

/-- A word of the data memory is written through MEM_DATA. -/
theorem memDataWrite_writes {r : Requester} {e : Fin 4} (t : Nat) (v : Word) (h : Takes s r ⟨21, e⟩) (harea : s.r LGE.MEM_ADDR e / 2 ^ 18 = 4)
    (hdev : deviceWord (s.r LGE.MEM_ADDR e % 2 ^ 18) = false) :
    execMemDataWrite t r e v s = .next (s.keepK ((writeSeen s t ⟨21, e⟩).setDword (s.r LGE.MEM_ADDR e % 2 ^ 18) v)) := by
  have haddr : (writeSeen s t ⟨21, e⟩).r LGE.MEM_ADDR e = s.r LGE.MEM_ADDR e := r_writeSeen s t _ (inBlock (by decide) Nat.zero_lt_one) e
  rw [execMemDataWrite, cmdK_seen h]
  simp only [haddr, harea, hdev, Bool.false_eq_true, and_false, if_false, State.setMemWord]

/-! ### Input pins (R290, R292) -/

/-- A level vector that has been replaced. -/
theorem testBit_setPins64 (s : State) (v : Nat) {n : Nat} (hn : n < 64) : ((s.setPins64 GIO.PIN_IN v).pins64 GIO.PIN_IN).testBit n = v.testBit n := by
  have hlow : (s.setPins64 GIO.PIN_IN v).r GIO.PIN_IN 0 0 = v % 2 ^ 32 := by
    rw [State.setPins64, r_w_ne _ _ _ _ _ _ _ _ (by decide), r_w_cut _ _ _ _ _ (by decide)]
    exact Nat.mod_mod _ _
  have hhigh : (s.setPins64 GIO.PIN_IN v).r GIO.PIN_IN 0 1 = v / 2 ^ 32 % 2 ^ 32 := r_w_cut _ _ _ _ _ (by decide)
  have hvalue : (s.setPins64 GIO.PIN_IN v).pins64 GIO.PIN_IN = v % 2 ^ 64 := by
    rw [State.pins64, hlow, hhigh]
    omega
  rw [hvalue, Nat.testBit_mod_two_pow, decide_eq_true hn, Bool.true_and]

/-- The selectors' events leave the levels. -/
theorem pins64_raise (s : State) (k : Nat) (p : List Nat) (hk : k < 32) : (s.raise 28 0 k p).pins64 GIO.PIN_IN = s.pins64 GIO.PIN_IN := by
  rw [State.pins64, State.pins64, r_raise_block _ _ _ (inBlock (by decide) (by decide)) hk, r_raise_block _ _ _ (inBlock (by decide) (by decide)) hk]

/-- The pins as a change of pin `i` to level `v` leaves them. -/
def Turned (s u : State) (i : Nat) (v : Bool) : Prop :=
  (u.pins64 GIO.PIN_IN).testBit i = v ∧ ∀ n, n < 64 → n ≠ i → (u.pins64 GIO.PIN_IN).testBit n = (s.pins64 GIO.PIN_IN).testBit n

theorem turned_put (s : State) {i : Nat} (hi : i < 64) (v : Bool) : Turned s (s.setPins64 GIO.PIN_IN (putBit (s.pins64 GIO.PIN_IN) i v)) i v := by
  refine ⟨?_, fun n hn hne => ?_⟩
  · rw [testBit_setPins64 _ _ hi, testBit_putBit, if_pos rfl]
  · rw [testBit_setPins64 _ _ hn, testBit_putBit, if_neg hne]

/-- The selectors see the change. -/
theorem turned_selectors {s u : State} {i : Nat} {v : Bool} (h : Turned s u i v) (f : State → Nat → State)
    (hf : ∀ (w : State) (k : Nat), k < 8 → (f w k).pins64 GIO.PIN_IN = w.pins64 GIO.PIN_IN) : Turned s (u.forN 8 f) i v := by
  have hpins : (u.forN 8 f).pins64 GIO.PIN_IN = u.pins64 GIO.PIN_IN :=
    List.foldlRecOn (motive := fun w : State => w.pins64 GIO.PIN_IN = u.pins64 GIO.PIN_IN) _ _ rfl fun w hw k hk =>
      (hf w k (List.mem_range.mp hk)).trans hw
  rwa [Turned, hpins]

/-- A level that an input pin takes shows in its bit of the filtered levels. -/
theorem gioInputChange_turns (t : Nat) (pin : Fin 64) (lvl : Bool) (hon : s.islandOn .field = true) (hdir : s.on GIO.DIR 0 pin = false) :
    Gives (.gioInputChange t pin lvl) s fun u => Turned s u pin (lvl != s.on GIO.INVERT 0 pin) := by
  refine ⟨_, runK_on hon t _, ?_⟩
  have hput := turned_put (s.tick t) pin.isLt (lvl != s.on GIO.INVERT 0 pin)
  show Turned s (ite _ _ (ite _ _ _)) pin (lvl != s.on GIO.INVERT 0 pin)
  split_ifs with hsame
  · obtain hout | hstands := hsame
    · exact absurd hdir (by simpa using hout)
    · exact ⟨hstands, fun _ _ _ => rfl⟩
  · exact hput
  · refine turned_selectors hput _ fun w k hk => ?_
    simp only
    split_ifs
    · exact pins64_raise w k _ (by omega)
    · rfl

/-- Every force ends. -/
theorem forceClrAll_ends {r : Requester} (t : Nat) (h : Opened s r ⟨21, 0⟩) :
    execForceClrAll t r s = .next (s.keepK (((s.forces.map (·.1)).foldl (fun s i => s.endForce i r) (writeSeen s t ⟨21, 0⟩)).showForces)) := by
  rw [execForceClrAll, cmdK_opened h t (fun _ => true), forces_writeSeen]

/-- Settles O37: commits and ends change the force table, MEM_DATA one word, an input change one pin. -/
theorem logicForces : Obligations.LogicForces := by
  unfold Obligations.LogicForces
  intro t r e s
  refine ⟨fun hopened => ⟨?commit, ?ends, ?clear⟩, fun v htakes harea hdev => ?memData, fun pin lvl hon hdir => ?pin⟩
  case commit =>
    refine ⟨s.keepK ((writeSeen s t ⟨21, 0⟩).commitForce r).showForces, cmdK_opened hopened t _ _, ?_, ?_⟩
    · obtain ⟨hforce, -⟩ := commitForce_spec (writeSeen s t ⟨21, 0⟩) r
      rw [r_writeSeen s t _ (inBlock (by decide) Nat.zero_lt_one), windowForce_writeSeen] at hforce
      rw [keepK_forces, forces_showForces, hforce]
      rfl
    · obtain ⟨-, hdata⟩ := commitForce_spec (writeSeen s t ⟨21, 0⟩) r
      rw [keepK_dataMem, dataMem_showForces, hdata, dataMem_writeSeen]
  case ends =>
    have hidx : (writeSeen s t ⟨21, 0⟩).r LGE.FORCE_IDX = s.r LGE.FORCE_IDX := r_writeSeen s t _ (inBlock (by decide) Nat.zero_lt_one) 0
    refine ⟨s.keepK ((writeSeen s t ⟨21, 0⟩).endForce ((writeSeen s t ⟨21, 0⟩).r LGE.FORCE_IDX) r).showForces, cmdK_opened hopened t _ _, ?_, ?_, fun i hi => ?_⟩
    · rw [keepK_forces, forces_showForces, hidx, on_endForce, decide_eq_false (not_not.mpr rfl), Bool.false_and]
    · rw [keepK_dataMem, dataMem_showForces, dataMem_endForce, dataMem_writeSeen]
    · rw [keepK_forces, forces_showForces, hidx, force_endForce_ne hi, forces_writeSeen]
  case clear =>
    refine ⟨_, forceClrAll_ends t hopened, fun i => ?_, ?_⟩
    · rw [keepK_forces, forces_showForces]
      exact endForces_all_off _ r i
    · rw [keepK_dataMem, dataMem_showForces, dataMem_endForces, dataMem_writeSeen]
  case memData =>
    refine ⟨_, memDataWrite_writes t v htakes harea hdev, fun w => ?_, rfl⟩
    rw [keepK_dword, dword_setDword]
    rfl
  case pin => exact gioInputChange_turns t pin lvl hon hdir

end Sys2Proof.LogicForceLaws
end

section
/-! Logic engines: online program change (R275, R278, R279). -/

namespace Sys2Proof.LogicChangeLaws

open Sys2Proof Sys2Proof.Machine Sys2Proof.Laws Sys2Proof.FieldPageLaws Sys2Proof.LogicPageLaws

variable {s : State} {r : Requester} {e : Fin 4}

/-! ### Fields of the blocks that header writes and events leave -/

theorem r_hw_block (s : State) {f g : Fld} {k : Nat} (h : InBlock g k) (hoff : f.off < 64) (hlsb : f.lsb < 32) (pg : Page) (v j : Nat) :
    (s.hw f pg v).r g j k = s.r g j k := by
  obtain ⟨hfrom, hto, hbit⟩ := h
  refine r_hw_ne _ _ _ _ _ _ _ ?_
  simp only [Fld.key, hdr]
  omega

theorem r_raise_any (s : State) {code inst bit : Nat} (p q : List Nat) {g : Fld} {k : Nat} (h : InBlock g k) (hbit : bit < 32) (j : Nat) :
    (s.raise code inst bit p q).r g j k = s.r g j k := by
  obtain ⟨hfrom, hto, hlsb⟩ := h
  refine r_raise _ _ _ _ _ _ _ _ _ ?_
  simp only [pendKey, hbit, if_true, Fld.key, hdr, HDR.EVT_PEND]
  omega

/-- A counted clamp changes the header alone (R64). -/
theorem r_clampCount (s : State) {g : Fld} {k : Nat} (h : InBlock g k) (pg : Page) (off lsb j : Nat) : (s.clampCount pg off lsb).r g j k = s.r g j k := by
  rw [State.clampCount, r_hw_block _ h (by decide) (by decide), r_hw_block _ h (by decide) (by decide), r_hw_block _ h (by decide) (by decide)]
  exact r_hw_block _ h (f := HDR.CLAMPS) (by decide) (by decide) _ _ _

theorem inBlock_chgState : InBlock LGE.CHG_STATE 0 := inBlock (by decide) Nat.zero_lt_one

/-! ### CHG_STATE -/

theorem chgState_chgTo (s : State) (h : Nat) {v : Nat} (hv : v < 8) : (s.chgTo h v).r LGE.CHG_STATE h = v :=
  (r_w_cut _ _ _ _ _ (by decide)).trans (Nat.mod_eq_of_lt hv)

theorem r_chgTo_ne (s : State) {h v : Nat} {f : Fld} {i j : Nat} (hkey : f.key i j ≠ LGE.CHG_STATE.key h 0) : (s.chgTo h v).r f i j = s.r f i j :=
  r_w_ne _ _ _ _ _ _ _ _ hkey

theorem chgState_seen (s : State) (t : Nat) (pg : Page) (h : Nat) : (writeSeen s t pg).r LGE.CHG_STATE h = s.r LGE.CHG_STATE h :=
  r_writeSeen s t pg inBlock_chgState h

/-- A command of an online change in the state that it needs. -/
theorem changeCmd_acts (htakes : Takes s r ⟨21, e⟩) {a : Nat} (hst : s.r LGE.CHG_STATE e = a) (t : Nat) (f : State → State) :
    s.cmdK t (fun s => s.pageWrite r ⟨21, e⟩ true fun s => if s.r LGE.CHG_STATE e = a then f s else s) =
      .next (s.keepK (f (writeSeen s t ⟨21, e⟩))) := by
  rw [cmdK_seen htakes]
  exact congrArg _ (congrArg _ (if_pos ((chgState_seen s t _ e).trans hst)))

theorem chgTo_next (htakes : Takes s r ⟨21, e⟩) {a b : Nat} (hst : s.r LGE.CHG_STATE e = a) (hb : b < 8) (t : Nat) :
    ∃ u, s.cmdK t (fun s => s.pageWrite r ⟨21, e⟩ true fun s => if s.r LGE.CHG_STATE e = a then s.chgTo e b else s) = .next u ∧
      u.r LGE.CHG_STATE e = b ∧ u.progMem = s.progMem ∧ u.engines = s.engines :=
  ⟨_, changeCmd_acts htakes hst t _, chgState_chgTo _ _ hb, rfl, rfl⟩

/-! ### Clear, and writes of the staged region -/

/-- What a return to EMPTY leaves. -/
def Emptied (e : Fin 4) (s u : State) : Prop := u.r LGE.CHG_STATE e = 0 ∧ (u.eng e).newImage = none ∧ (u.eng e).image = (s.eng e).image

theorem chgClear_empties (s : State) (e : Fin 4) : Emptied e s (s.chgClear e) := by
  refine ⟨?_, ?_, ?_⟩
  · rw [State.chgClear, r_setEng, chgState_chgTo _ _ (by decide)]
  · rw [State.chgClear, eng_setEng_same]
  · rw [State.chgClear, eng_setEng_same]

theorem stepVal_mod (lo hi m v : Nat) (hlo : lo % m = 0) : stepVal lo hi m v % m = 0 := by
  have hd : ((min hi (max lo v) - lo) / m * m + lo) % m = 0 := by rw [Nat.add_mod, Nat.mul_mod_left, hlo]; rfl
  unfold stepVal
  simp only
  split_ifs
  · exact hd
  · rw [Nat.add_mod_right, hd]

/-- LOAD_DST is a multiple of 256 whatever is written (R64). -/
theorem loadDst_take (s : State) (v : Nat) (e : Fin 4) : (s.take LGE.LOAD_DST v e 0).r LGE.LOAD_DST e % 256 = 0 := by
  have hmod : stepVal 0 524032 256 v % 2 ^ 19 % 256 = 0 := by
    have hstep := stepVal_mod 0 524032 256 v rfl
    omega
  have hw : (s.w LGE.LOAD_DST (stepVal 0 524032 256 v) e).r LGE.LOAD_DST e = stepVal 0 524032 256 v % 2 ^ 19 := r_w_cut _ _ _ _ _ (by decide)
  unfold State.take State.when
  simp only
  split
  · rw [r_clampCount _ (inBlock (by decide) Nat.zero_lt_one)]
    exact (congrArg (· % 256) hw).trans hmod
  · exact (congrArg (· % 256) hw).trans hmod

/-! ### The switch (R279) -/

theorem trySwitch_stays {h : Nat} (hcur : (s.eng (s.runner h)).cur ≠ none) : s.trySwitch h = s := if_neg fun hswitch => hcur hswitch.2.1

/-- What the marks of orphaned forces leave. -/
theorem markOrphans_keeps (s : State) (e : Nat) : s.markOrphans.engines = s.engines ∧ s.markOrphans.dataMem = s.dataMem ∧
    s.markOrphans.r LGE.CHG_STATE e = s.r LGE.CHG_STATE e := by
  unfold State.markOrphans
  extract_lets images bad marked shown
  split
  · exact ⟨rfl, rfl, rfl⟩
  · refine ⟨raise_engines .., raise_dataMem .., ?_⟩
    rw [r_raise_any _ _ _ inBlock_chgState (by decide)]
    exact r_wb_ne _ _ _ _ _ _ _ _ (by simp only [Fld.key, LGE.CHG_STATE, LGE.ORPHANED]; omega)

/-- An image without initial data sets no word. -/
theorem applyInits_none {h : Nat} (hinits : (s.eng h).image.inits = []) (flag : Nat) : s.applyInits h flag = s := by
  rw [State.applyInits, hinits]
  rfl

theorem eng_of_engines {u : State} (h : u.engines = s.engines) (d : Nat) : u.eng d = s.eng d := congrArg (fun m : List (Nat × EngineX) => sget ({} : EngineX) m d) h

/-- The Keeper's journal and the events of a switch leave the engines, the data memory and CHG_STATE = EMPTY. -/
theorem announced_keeps (s : State) (e : Nat) (pay own pay' own' : List Nat) :
    let u := ((s.progBegin.chgTo e 0).markOrphans.raise 21 e 8 pay own).raise 21 e 6 pay' own'
    u.r LGE.CHG_STATE e = 0 ∧ u.engines = s.engines ∧ u.dataMem = s.dataMem := by
  intro u
  obtain ⟨hengines, hdata, hchg⟩ := markOrphans_keeps (s.progBegin.chgTo e 0) e
  refine ⟨?_, ?_, ?_⟩
  · rw [r_raise_any _ _ _ inBlock_chgState (by decide), r_raise_any _ _ _ inBlock_chgState (by decide), hchg, chgState_chgTo _ _ (by decide)]
  · rw [raise_engines, raise_engines, hengines]
    rfl
  · rw [raise_dataMem, raise_dataMem, hdata]
    rfl

/-- The switch of an engine that runs its own program, with no initial data. -/
theorem switchImage_switches {im : ImageX} {u : State} (hnew : (s.eng e).newImage = some im) (hrunner : s.runner e = e) (hinits : im.inits = [])
    (hu : s.switchImage e = u) : u.r LGE.CHG_STATE e = 0 ∧ (u.eng e).image = im ∧ (u.eng e).newImage = none ∧ (u.eng e).startKind = 4 ∧
      u.dataMem = s.dataMem := by
  unfold State.switchImage at hu
  split at hu
  next hnone => exact absurd (hnone.symm.trans hnew) nofun
  next im' hsome =>
    obtain rfl : im' = im := Option.some.inj (hsome.symm.trans hnew)
    extract_lets old p x installed y ran shown announced at hu
    have hran : ran.eng e = { x with
        image := im', newImage := none, firstRun := List.range im'.tasks.length, startKind := 4, overruns := [], taskMax := [], released := [], waiting := [] } := by
      have hp : p = e := hrunner
      simp only [ran, y, installed, hp, eng_setEng_same]
    have hshown : shown = ((ran.w LGE.PROG_BASE im'.base e).w LGE.PROG_WORDS im'.words e).w LGE.PROG_ID im'.progId.toNat e :=
      applyInits_none (by rw [eng_w, eng_w, eng_w, hran, hinits]) 2
    obtain ⟨hchg, hengines, hdata⟩ := announced_keeps shown e ([p, 0xFF] ++ leBytes 2 4) [4] ([p, 0xFF] ++ leBytes 2 0)
      (leBytes 4 old.toNat ++ leBytes 4 im'.progId.toNat)
    have heng : u.eng e = ran.eng e := by
      rw [← hu, eng_of_engines hengines, hshown, eng_w, eng_w, eng_w]
    refine ⟨hu ▸ hchg, ?_, ?_, ?_, ?_⟩
    · rw [heng, hran]
    · rw [heng, hran]
    · rw [heng, hran]
    · rw [← hu, hdata, hshown, w_dataMem, w_dataMem, w_dataMem]
      simp only [ran, installed, setEng_dataMem]

/-- ARM on an engine that rests switches at once. -/
theorem chgArm_switches {im : ImageX} (htakes : Takes s r ⟨21, e⟩) (hst : s.r LGE.CHG_STATE e = 4) (hrunner : s.runner e = e) (hcur : (s.eng e).cur = none)
    (hfrozen : (s.eng e).frozen = []) (hnew : (s.eng e).newImage = some im) (hinits : im.inits = []) (t : Nat) :
    Gives (.chgArm t r e) s fun u => u.r LGE.CHG_STATE e = 0 ∧ (u.eng e).image = im ∧ (u.eng e).newImage = none ∧ (u.eng e).startKind = 4 ∧
      u.dataMem = s.dataMem := by
  obtain ⟨v, hv⟩ : ∃ v, v = (writeSeen s t ⟨21, e⟩).chgTo e 5 := ⟨_, rfl⟩
  have heng : ∀ d, v.eng d = s.eng d := fun d => by rw [hv]; rfl
  have hrun : v.runner e = e := by rw [State.runner, heng]; exact hrunner
  have hready : v.r LGE.CHG_STATE e = 5 ∧ (v.eng (v.runner e)).cur = none ∧ (v.eng (v.runner e)).frozen = [] := by
    rw [hrun, heng]
    exact ⟨hv ▸ chgState_chgTo _ _ (by decide), hcur, hfrozen⟩
  obtain ⟨hchg, himage, hnone, hkind, hdata⟩ := switchImage_switches (by rw [heng, hnew]) hrun hinits rfl
  refine ⟨s.keepK (v.switchImage e), (changeCmd_acts htakes hst t fun s => (s.chgTo e 5).trySwitch e).trans ?_, ?_, ?_, ?_, ?_, ?_⟩
  · rw [← hv, State.trySwitch, if_pos hready]
  · rw [r_keepK, hchg]
  · rw [keepK_eng, himage]
  · rw [keepK_eng, hnone]
  · rw [keepK_eng, hkind]
  · rw [keepK_dataMem, hdata, hv]
    rfl

/-- ARM on an engine that runs a task waits. -/
theorem chgArm_waits (htakes : Takes s r ⟨21, e⟩) (hst : s.r LGE.CHG_STATE e = 4) (hcur : (s.eng (s.runner e)).cur ≠ none) (t : Nat) :
    Gives (.chgArm t r e) s fun u => u.r LGE.CHG_STATE e = 5 ∧ u.engines = s.engines := by
  refine ⟨s.keepK ((writeSeen s t ⟨21, e⟩).chgTo e 5), (changeCmd_acts htakes hst t fun s => (s.chgTo e 5).trySwitch e).trans ?_, ?_, rfl⟩
  · rw [trySwitch_stays (s := (writeSeen s t ⟨21, e⟩).chgTo e 5) hcur]
  · rw [r_keepK, chgState_chgTo _ _ (by decide)]

/-! ### The copy and the check (R275, R278) -/

/-- A run of values leaves what lies below it. -/
theorem sget_ssets_below {α : Type} [DecidableEq α] (d : α) : ∀ (vs : List α) (m : List (Nat × α)) {k j : Nat}, j < k →
    sget d (ssets d m k vs) j = sget d m j
  | [], _, _, _, _ => rfl
  | v :: vs, m, k, j, h => by
    rw [ssets, sget_ssets_below d vs _ (by omega), sget_sset_ne _ _ _ _ (by omega)]

/-- A run of values that has been written. -/
theorem sget_ssets {α : Type} [DecidableEq α] (d : α) : ∀ (vs : List α) (m : List (Nat × α)) (k i : Nat), i < vs.length →
    sget d (ssets d m k vs) (k + i) = vs.getD i d
  | [], _, _, _, h => absurd h (Nat.not_lt_zero _)
  | v :: vs, m, k, 0, _ => by
    rw [ssets, sget_ssets_below d vs _ (by omega), Nat.add_zero, sget_sset_same]
    rfl
  | v :: vs, m, k, i + 1, h => by
    rw [ssets, show k + (i + 1) = k + 1 + i by omega, sget_ssets d vs _ _ _ (by simpa using h)]
    rfl

/-- The words that a copy reads from the general SRAM. -/
theorem genWords_getD (s : State) (a : Nat) {n i : Nat} (h : i < n) : (s.genWords a n).getD i 0 = BitVec.ofNat 32 (leVal (s.gen (a + 4 * i) 4)) := by
  simp [State.genWords, List.getD_eq_getElem?_getD, h]

/-- Returning the changes of other engines to EMPTY leaves the program store. -/
theorem progMem_clearOthers (s : State) (p : State → Nat → Prop) [∀ s h, Decidable (p s h)] :
    (s.forN 4 fun s h => if p s h then (s.chgTo h 0).setEng h { s.eng h with newImage := none } else s).progMem = s.progMem :=
  List.foldlRecOn (motive := fun u : State => u.progMem = s.progMem) _ _ rfl fun u hu h _ => by
    simp only
    split_ifs
    · exact hu
    · exact hu

/-- The copy completes: the words of the image stand in the program store. -/
theorem chgCopyDone_copies (hon : s.islandOn .logic = true) (hst : s.r LGE.CHG_STATE e = 1) (t : Nat) :
    Gives (.chgCopyDone t e) s fun u => u.r LGE.CHG_STATE e = 2 ∧ u.general = s.general ∧
      u.progMem = ssets 0 s.progMem (s.r LGE.LOAD_DST e) (s.genWords (s.r LGE.LOAD_SRC e) (min (s.r LGE.LOAD_WORDS e) (524288 - s.r LGE.LOAD_DST e))) := by
  have hexec : exec (.chgCopyDone t e) s = _ := runK_on hon t _
  beta_reduce at hexec
  rw [if_neg (not_not.mpr (show (s.tick t).r LGE.CHG_STATE e = 1 from hst))] at hexec
  extract_lets dst n loaded cleared at hexec
  refine ⟨_, hexec, ?_, rfl, ?_⟩
  · rw [r_keepK, chgState_chgTo _ _ (by decide)]
  · exact progMem_clearOthers loaded fun s h => h ≠ e.val ∧ dst < s.r LGE.LOAD_DST h + s.r LGE.LOAD_WORDS h ∧ s.r LGE.LOAD_DST h < dst + n

/-- The check completes: its code and offset show, and the change is CHECKED or EMPTY. -/
theorem chgCheckDone_shows {code off : Nat} (hon : s.islandOn .logic = true) (hst : s.r LGE.CHG_STATE e = 3)
    (hcheck : s.checkImage e (s.r LGE.LOAD_DST e) (s.r LGE.LOAD_WORDS e) = (code, off)) (hcode : code < 256) (hoff : off < 2 ^ 20) (t : Nat) :
    Gives (.chgCheckDone t e) s fun u => u.r LGE.CHG_CODE e = code ∧ u.r LGE.CHG_OFFSET e = off ∧ u.r LGE.CHG_STATE e = if code = 0 then 4 else 0 := by
  have hexec : exec (.chgCheckDone t e) s = _ := runK_on hon t _
  beta_reduce at hexec
  rw [if_neg (not_not.mpr (show (s.tick t).r LGE.CHG_STATE e = 3 from hst))] at hexec
  extract_lets base n at hexec
  have hcheck' : (s.tick t).checkImage e base n = (code, off) := hcheck
  simp only [hcheck'] at hexec
  generalize hv : ((s.tick t).w LGE.CHG_CODE code e).w LGE.CHG_OFFSET off e = v at hexec
  have hvcode : v.r LGE.CHG_CODE e = code := by
    rw [← hv, r_w_ne _ _ _ _ _ _ _ _ (by simp only [Fld.key, LGE.CHG_CODE, LGE.CHG_OFFSET]; omega), r_w_cut _ _ _ _ _ (by decide)]
    exact Nat.mod_eq_of_lt hcode
  have hvoff : v.r LGE.CHG_OFFSET e = off := by
    rw [← hv, r_w_cut _ _ _ _ _ (by decide)]
    exact Nat.mod_eq_of_lt hoff
  by_cases hpass : code = 0
  · rw [if_pos hpass] at hexec ⊢
    refine ⟨_, hexec, ?_, ?_, ?_⟩
    · rw [r_keepK, r_chgTo_ne _ (by simp [Fld.key, LGE.CHG_CODE, LGE.CHG_STATE]), r_setEng, hvcode]
    · rw [r_keepK, r_chgTo_ne _ (by simp [Fld.key, LGE.CHG_OFFSET, LGE.CHG_STATE]), r_setEng, hvoff]
    · rw [r_keepK, chgState_chgTo _ _ (by decide)]
  · rw [if_neg hpass] at hexec ⊢
    refine ⟨_, hexec, ?_, ?_, ?_⟩
    · rw [r_keepK, r_raise_any _ _ _ (inBlock (by decide) Nat.zero_lt_one) (by decide), r_chgTo_ne _ (by simp [Fld.key, LGE.CHG_CODE, LGE.CHG_STATE]), hvcode]
    · rw [r_keepK, r_raise_any _ _ _ (inBlock (by decide) Nat.zero_lt_one) (by decide), r_chgTo_ne _ (by simp [Fld.key, LGE.CHG_OFFSET, LGE.CHG_STATE]), hvoff]
    · rw [r_keepK, r_raise_any _ _ _ inBlock_chgState (by decide), chgState_chgTo _ _ (by decide)]

/-- Settles O36: each command sets CHG_STATE in the state that it needs; a copy, a check and a switch do their work first. -/
theorem logicChange : Obligations.LogicChange := by
  unfold Obligations.LogicChange
  intro t r e s
  refine ⟨fun htakes => ⟨fun hst => ?copy, fun hst => ?check, fun hst hcur => chgArm_waits htakes hst hcur t,
    fun im hst hrunner hcur hfrozen hnew hinits => chgArm_switches htakes hst hrunner hcur hfrozen hnew hinits t, fun hst => ?disarm, ?clear, fun v => ⟨?loadDst, ?loadWords⟩⟩,
    fun hon hst => ?copied, fun code off hon hst hcheck hcode hoff => ?checked, ?region⟩
  case copy =>
    obtain ⟨u, hu, hchg, hprog, -⟩ := chgTo_next htakes hst (b := 1) (by decide) t
    exact ⟨u, hu, hchg, hprog⟩
  case check =>
    obtain ⟨u, hu, hchg, hprog, -⟩ := chgTo_next htakes hst (b := 3) (by decide) t
    exact ⟨u, hu, hchg, hprog⟩
  case disarm =>
    obtain ⟨u, hu, hchg, -, hengines⟩ := chgTo_next htakes hst (b := 4) (by decide) t
    exact ⟨u, hu, hchg, hengines⟩
  case clear => exact ⟨_, cmdK_seen htakes t fun s => s.chgClear e, chgClear_empties (writeSeen s t ⟨21, e⟩) e⟩
  case loadDst =>
    refine ⟨_, cmdK_seen htakes t fun s => (s.take LGE.LOAD_DST (v.toNat % 2 ^ 19) e 0).chgClear e, ?_, ?_⟩
    · obtain ⟨hchg, -, -⟩ := chgClear_empties ((writeSeen s t ⟨21, e⟩).take LGE.LOAD_DST (v.toNat % 2 ^ 19) e 0) e
      rw [r_keepK, hchg]
    · rw [r_keepK, State.chgClear, r_setEng, r_chgTo_ne _ (by simp [Fld.key, LGE.LOAD_DST, LGE.CHG_STATE]), loadDst_take]
  case loadWords =>
    obtain ⟨hchg, hnone, -⟩ := chgClear_empties ((writeSeen s t ⟨21, e⟩).take LGE.LOAD_WORDS (v.toNat % 2 ^ 20) e 0) e
    exact ⟨_, cmdK_seen htakes t fun s => (s.take LGE.LOAD_WORDS (v.toNat % 2 ^ 20) e 0).chgClear e, hchg, hnone⟩
  case copied =>
    obtain ⟨u, hu, hchg, hgeneral, hprog⟩ := chgCopyDone_copies hon hst t
    refine ⟨u, hu, hchg, hgeneral, fun i hi hend => ?_⟩
    have hlen : i < min (s.r LGE.LOAD_WORDS e) (524288 - s.r LGE.LOAD_DST e) := by omega
    rw [hprog, sget_ssets _ _ _ _ _ (by simpa [State.genWords] using hlen), genWords_getD _ _ hlen]
  case checked => exact chgCheckDone_shows hon hst hcheck hcode hoff t
  case region =>
    obtain ⟨hchg, hnone, -⟩ := chgClear_empties (s.tick t) e
    exact ⟨s.keepK ((s.tick t).chgClear e), rfl, hchg, hnone⟩

end Sys2Proof.LogicChangeLaws
end

section
/-! Resets: what each one leaves, initialises and keeps (R284, R527, R529, R537). -/

namespace Sys2Proof.ResetLaws

open Sys2Proof Sys2Proof.Machine Sys2Proof.Laws

variable {s : State}

/-- All but the register fields, and the writes on their way to the AON island, is as it was. -/
def RegsOnly (s u : State) : Prop := ∃ m q, u = { s with regs := m, aonQ := q }

theorem regsOnly_refl (s : State) : RegsOnly s s := ⟨s.regs, s.aonQ, rfl⟩

theorem regsOnly_w {u : State} (h : RegsOnly s u) (f : Fld) (v i j : Nat) : RegsOnly s (u.w f v i j) := by
  obtain ⟨m, q, rfl⟩ := h
  exact ⟨_, q, rfl⟩

theorem regsOnly_forN {u : State} (h : RegsOnly s u) (n : Nat) (f : State → Nat → State) (hf : ∀ w i, RegsOnly s w → RegsOnly s (f w i)) :
    RegsOnly s (u.forN n f) :=
  List.foldlRecOn (motive := RegsOnly s) _ _ h fun w hw i _ => hf w i hw

theorem regsOnly_refreshAon (s : State) : RegsOnly s s.refreshAon :=
  List.foldlRecOn (motive := RegsOnly s) _ _ ⟨s.regs, [], rfl⟩ fun _ hw _ _ => regsOnly_forN hw _ _ fun _ _ hv => regsOnly_w hv _ _ _ _

/-- What the forces show leaves the cause of the last reset. -/
theorem resetCause_showForces (s : State) : s.showForces.r PCR.RESET_CAUSE = s.r PCR.RESET_CAUSE := by
  unfold State.showForces
  simp only [State.wb]
  rw [r_w_ne _ _ _ _ _ _ _ _ (by decide), r_w_ne _ _ _ _ _ _ _ _ (by decide), r_w_ne _ _ _ _ _ _ _ _ (by decide), r_w_ne _ _ _ _ _ _ _ _ (by decide),
    r_w_ne _ _ _ _ _ _ _ _ (by decide), r_w_ne _ _ _ _ _ _ _ _ (by decide)]

theorem regsOnly_trans {s u v : State} (h : RegsOnly s u) (k : RegsOnly u v) : RegsOnly s v := by
  obtain ⟨m, q, rfl⟩ := h
  obtain ⟨m', q', rfl⟩ := k
  exact ⟨m', q', rfl⟩

theorem regsOnly_showForces (s : State) : RegsOnly s s.showForces :=
  regsOnly_w (regsOnly_w (regsOnly_w (regsOnly_w (regsOnly_w (regsOnly_w (regsOnly_refl s) _ _ _ _) _ _ _ _) _ _ _ _) _ _ _ _) _ _ _ _) _ _ _ _

/-- What a system reset leaves (R527). -/
structure WasReset (s u : State) (cause : Nat) (hold brown unforce : Bool) : Prop where
  cause : u.r PCR.RESET_CAUSE = cause
  pwr : u.pwr = s.pwr.afterReset hold brown
  forces : u.forces = if unforce then [] else s.forces
  solver : u.solver = []
  general : u.general = []
  dataMem : u.dataMem = []
  retMem : u.retMem = []
  aonRegs : u.aonRegs = s.aonRegs

/-- What the frame of a command keeps is not what a reset is about. -/
theorem wasReset_keepM {s u : State} {cause : Nat} {hold brown unforce : Bool} (x : State) (h : WasReset s u cause hold brown unforce) :
    WasReset s (x.keepM u) cause hold brown unforce :=
  ⟨h.cause, h.pwr, h.forces, h.solver, h.general, h.dataMem, h.retMem, h.aonRegs⟩

theorem sysReset_resets (s : State) {cause : Nat} (hcause : cause < 8) (hold brown unforce : Bool) :
    WasReset s (s.sysReset cause hold brown unforce) cause hold brown unforce := by
  generalize hu : s.sysReset cause hold brown unforce = u
  unfold State.sysReset at hu
  extract_lets frozen t0 t1 t2 t3 t4 at hu
  have hcauseSeen : u.r PCR.RESET_CAUSE = cause := by
    rw [← hu, resetCause_showForces, r_w_ne _ _ _ _ _ _ _ _ (by decide), r_w_cut _ _ _ _ _ (by decide)]
    exact Nat.mod_eq_of_lt hcause
  obtain ⟨m, q, hrest⟩ : RegsOnly t4 u := hu ▸ regsOnly_trans (regsOnly_w (regsOnly_w (regsOnly_refreshAon t4) _ _ _ _) _ _ _ _) (regsOnly_showForces _)
  refine ⟨hcauseSeen, ?_, ?_, ?_, ?_, ?_, ?_, ?_⟩ <;> rw [hrest]

/-! ### The resets -/

theorem powerOnReset_resets (t : Nat) : execPowerOnReset t s = .next (s.keepM ((s.tick t).sysReset 0 true s.pwr.brown true)) := by
  simp only [execPowerOnReset, State.cmdM, State.answerM, tick_pwr]
  rfl

theorem sysrst_low (t : Nat) (hkeep : s.pwr.st ≠ .keep) (hoff : s.pwr.st ≠ .off) :
    execSysrst t true s = .next (s.keepM ((s.tick t).sysReset 3 true s.pwr.brown false)) := by
  have hup : ¬ ((s.tick t).pwr.st = .keep ∨ (s.tick t).pwr.st = .off) := not_or.mpr ⟨hkeep, hoff⟩
  simp only [execSysrst, State.cmdM, State.answerM, hup, if_false, if_true]
  rfl

theorem sysrst_high (t : Nat) (hbrown : s.pwr.brown = false) (hst : s.pwr.st = .run) :
    execSysrst t false s = .next (s.keepM ((s.tick t).released false)) := by
  have hup : ¬ ((s.tick t).pwr.st = .keep ∨ (s.tick t).pwr.st = .off) := by simp [tick_pwr, hst]
  have hrail : (s.tick t).pwr.brown = false := hbrown
  simp only [execSysrst, State.cmdM, State.answerM, hup, hrail, Bool.false_eq_true, if_false]

theorem brownOut_up (t : Nat) (rail : Fin 5) (hkeep : s.pwr.st ≠ .keep) (hoff : s.pwr.st ≠ .off) :
    execBrownOut t rail s = .next (s.keepM ((((s.tick t).sysReset 1 true true false).setPwr fun k => { k with coreLost := s.pwr.coreLost || rail.val == 0 }).w
      PCR.RAIL_MV (s.r PCR.RAIL_MV 0 rail) 0 rail)) := by
  have hup : ¬ ((s.tick t).pwr.st = .keep ∨ (s.tick t).pwr.st = .off) := not_or.mpr ⟨hkeep, hoff⟩
  simp only [execBrownOut, State.cmdM, State.answerM, hup, if_false]
  rfl

theorem sysRst_opened {r : Requester} (t : Nat) (h : Opened s r ⟨0, 0⟩) :
    execSysRst t r s = .next (s.keepM (((s.tick t).countWrite ⟨0, 0⟩).sysReset 4 false false false)) := by
  have h' : Opened (s.tick t) r ⟨0, 0⟩ := h
  simp only [execSysRst, State.cmdM, State.answerM, PowerLaws.lockedCmd_opened h']
  rfl

theorem resetRelease_releases (t : Nat) (hin : s.pwr.inReset = true) (hst : s.pwr.st = .run) :
    execResetRelease t s = .next (s.keepK ((s.tick t).released false)) := by
  have hready : (s.tick t).pwr.inReset = true ∧ (s.tick t).pwr.st = .run := ⟨hin, hst⟩
  simp only [execResetRelease, State.cmdK, State.answerK, hready, and_self, if_true]

/-- The first expiry of the Keeper's watchdog within a minute resets the core alone: it loads its firmware and notes the instant. -/
theorem keeperWatchdog_first (t : Nat) (hon : s.islandOn .keep = true) (hnone : s.pwr.kwTimes = []) :
    ∃ g, exec (.keeperWatchdog t) s =
      .next (s.keepM ((((s.tick t).inc KPR.KPR_RESETS).loadPatch g).setPwr fun k => { k with kwTimes := [(s.tick t).opSec] })) := by
  have hexec : exec (.keeperWatchdog t) s = _ := runM_on hon t _
  beta_reduce at hexec
  extract_lets now l v at hexec
  have hl : l = [now] := by simp only [l, tick_pwr, hnone, List.filter_nil]
  rw [if_neg (by rw [hl]; simp)] at hexec
  exact ⟨(s.tick t).r SEC.FW_ACTIVE, by rw [hexec, ← hl]⟩

theorem inReset_afterReset (p : PwrX) (hold brown : Bool) : (p.afterReset hold brown).inReset = hold := rfl
theorem brown_afterReset (p : PwrX) (hold brown : Bool) : (p.afterReset hold brown).brown = brown := rfl

theorem inReset_of_reset {u : State} {cause : Nat} {hold brown unforce : Bool} (h : WasReset s u cause hold brown unforce) : u.pwr.inReset = hold := by
  rw [h.pwr, inReset_afterReset]

/-- Settles O11: what a reset leaves is said once, and each reset leaves that with its cause. -/
theorem resetCauses : Obligations.ResetCauses := by
  unfold Obligations.ResetCauses
  intro t s
  refine ⟨?power, fun hkeep hoff => ?pin, fun hbrown hst => ?rises, fun rail hkeep hoff => ?brown, fun r hopened => ?command, fun hheld hst => ?release, fun hon hnone => ?watchdog⟩
  case power =>
    have hreset := wasReset_keepM s (sysReset_resets (s.tick t) (cause := 0) (by decide) true s.pwr.brown true)
    refine ⟨_, powerOnReset_resets t, ?_⟩
    exact ⟨hreset.cause, inReset_of_reset hreset, hreset.forces, hreset.solver, hreset.general, hreset.dataMem, hreset.retMem, keepM_fuses _ _, hreset.aonRegs⟩
  case pin =>
    have hreset := wasReset_keepM s (sysReset_resets (s.tick t) (cause := 3) (by decide) true s.pwr.brown false)
    refine ⟨_, sysrst_low t hkeep hoff, ?_⟩
    exact ⟨hreset.cause, inReset_of_reset hreset, hreset.forces, hreset.solver, hreset.general, hreset.dataMem, keepM_fuses _ _, hreset.aonRegs⟩
  case rises => exact ⟨_, sysrst_high t hbrown hst, rfl, rfl⟩
  case brown =>
    have hreset := sysReset_resets (s.tick t) (cause := 1) (by decide) true true false
    refine ⟨_, brownOut_up t rail hkeep hoff, ?_⟩
    refine ⟨?_, ?_, ?_, ?_, keepM_fuses _ _⟩
    · rw [r_keepM, r_w_ne _ _ _ _ _ _ _ _ (by simp only [Fld.key, PCR.RESET_CAUSE, PCR.RAIL_MV]; omega), r_setPwr, hreset.cause]
    · rw [keepM_pwr, w_pwr, setPwr_pwr, hreset.pwr, inReset_afterReset]
    · rw [keepM_pwr, w_pwr, setPwr_pwr, hreset.pwr, brown_afterReset]
    · rw [keepM_dataMem, w_dataMem, setPwr_dataMem, hreset.dataMem]
  case command =>
    have hreset := wasReset_keepM s (sysReset_resets ((s.tick t).countWrite ⟨0, 0⟩) (cause := 4) (by decide) false false false)
    refine ⟨_, sysRst_opened t hopened, ?_⟩
    exact ⟨hreset.cause, inReset_of_reset hreset, hreset.dataMem, hreset.forces, keepM_fuses _ _⟩
  case release => exact ⟨_, resetRelease_releases t hheld hst, rfl, rfl, rfl⟩
  case watchdog =>
    obtain ⟨g, hexec⟩ := keeperWatchdog_first t hon hnone
    refine ⟨_, hexec, ?_, rfl, rfl, ?_⟩
    · rw [r_keepM, r_setPwr, State.loadPatch, r_setSec, r_inc_same _ _ _ _ _ (by decide), r_tick]
    · rw [r_keepM, r_setPwr, State.loadPatch, r_setSec, r_inc_ne _ _ _ _ _ _ _ _ (by decide), r_tick]

end Sys2Proof.ResetLaws
end

section
/-! Logic engines: starts of tasks (R252, R257, R262 to R268). -/

namespace Sys2Proof.LogicTaskLaws

open Sys2Proof Sys2Proof.Machine Sys2Proof.Laws Sys2Proof.FieldPageLaws Sys2Proof.LogicPageLaws Sys2Proof.LogicFlowLaws Sys2Proof.LogicChangeLaws

variable {s : State}

/-! ### What a task finds when it starts (R252, R257, R265) -/

/-- Task `i` of the program on engine `e` has started at level `lvl` in `u`. -/
structure Started (s u : State) (e i lvl : Nat) : Prop where
  cur : (u.eng e).cur = some lvl
  task : (u.bank e).task = some i
  pc : (u.bank e).pc = (s.task e i).entry
  status : (u.bank e).status = 0
  branch : (u.bank e).branch = []
  calls : (u.bank e).calls = []
  dataMem : u.dataMem = s.dataMem
  retMem : u.retMem = s.retMem
  sources : u.sources = s.sources
  cycleAt : (s.task e i).kind = .cyclic → (u.eng e).cycleAt = some s.up
  r : ∀ (f : Fld) (j k : Nat), f.key j k ≠ LGE.CUR_PRIO.key e 0 → f.key j k ≠ LGE.IDLE.key e 0 → u.r f j k = s.r f j k

theorem r_showEng (s : State) (e : Nat) {f : Fld} {j k : Nat} (hprio : f.key j k ≠ LGE.CUR_PRIO.key e 0) (hidle : f.key j k ≠ LGE.IDLE.key e 0) :
    (s.showEng e).r f j k = s.r f j k := by
  unfold State.showEng
  split <;> rw [r_w_ne _ _ _ _ _ _ _ _ hidle, r_w_ne _ _ _ _ _ _ _ _ hprio]

theorem retMem_showEng (s : State) (e : Nat) : (s.showEng e).retMem = s.retMem := by
  unfold State.showEng
  split <;> rw [w_retMem, w_retMem]

theorem sources_showEng (s : State) (e : Nat) : (s.showEng e).sources = s.sources := by
  unfold State.showEng
  split <;> rw [w_sources, w_sources]

theorem startTask_starts (s : State) (e i lvl rel : Nat) (claim : Word) : Started s (s.startTask e i lvl rel claim) e i lvl := by
  generalize hu : s.startTask e i lvl rel claim = u
  unfold State.startTask at hu
  extract_lets h x hx first old b noted ex frozen placed mask y latched at hu
  have hcur : (placed.eng e).cur = some lvl := by simp only [placed, State.setBankAt, eng_setEng_same]
  have hbank : sget {} (placed.eng e).banks lvl = b := by simp only [placed, State.setBankAt, eng_setEng_same, sget_sset_same]
  have hkept : placed.up = s.up ∧ placed.regs = s.regs ∧ placed.dataMem = s.dataMem ∧ placed.retMem = s.retMem ∧ placed.sources = s.sources := by
    simp only [placed, noted, State.setBankAt, setEng_up, setEng_regs, setEng_dataMem, setEng_retMem, setEng_sources, and_self]
  obtain ⟨hup, hkept⟩ := hkept
  clear_value placed
  have hlatched : (latched.eng e).cur = some lvl ∧ sget {} (latched.eng e).banks lvl = b ∧ (x.kind = .cyclic → (latched.eng e).cycleAt = some s.up) ∧
      latched.regs = s.regs ∧ latched.dataMem = s.dataMem ∧ latched.retMem = s.retMem ∧ latched.sources = s.sources := by
    by_cases hkind : x.kind = .cyclic
    · have heng : latched.eng e = { y with cycleAt := some placed.up, iImg := BitVec.ofNat 64 (placed.pins64 GIO.PIN_IN &&& mask) } := by
        simp only [latched, if_pos hkind, eng_setEng_same]
      rw [heng]
      refine ⟨hcur, hbank, fun _ => congrArg some hup, ?_⟩
      simp only [latched, if_pos hkind, setEng_regs, setEng_dataMem, setEng_retMem, setEng_sources]
      exact hkept
    · simp only [latched, if_neg hkind]
      exact ⟨hcur, hbank, fun h => absurd h hkind, hkept⟩
  obtain ⟨hcur', hbank', hcycle, hregs, hdata, hret, hsources⟩ := hlatched
  have hb : u.bank e = b := by
    rw [← hu, bank_showEng, State.bank, State.level, hcur']
    exact hbank'
  have heng : u.eng e = latched.eng e := by rw [← hu, eng_showEng]
  refine ⟨by rw [heng, hcur'], by rw [hb], by rw [hb], by rw [hb], by rw [hb], by rw [hb], ?_, ?_, ?_, fun h => by rw [heng, hcycle h], fun f j k hprio hidle => ?_⟩
  · rw [← hu, dataMem_showEng, hdata]
  · rw [← hu, retMem_showEng, hret]
  · rw [← hu, sources_showEng, hsources]
  · rw [← hu, r_showEng _ _ hprio hidle, State.r, State.r, hregs]

/-- What an engine keeps beside its image has no part in what a task finds when it starts. -/
theorem Started.of_setEng {h : Nat} {x : EngineX} {u : State} {e i lvl : Nat} (hx : x.image = (s.eng h).image) (hu : Started (s.setEng h x) u e i lvl) :
    Started s u e i lvl where
  cur := hu.cur
  task := hu.task
  pc := by rw [hu.pc, task_setEng hx]
  status := hu.status
  branch := hu.branch
  calls := hu.calls
  dataMem := by rw [hu.dataMem, setEng_dataMem]
  retMem := by rw [hu.retMem, setEng_retMem]
  sources := by rw [hu.sources, setEng_sources]
  cycleAt := fun hkind => by rw [hu.cycleAt (by rw [task_setEng hx]; exact hkind), setEng_up]
  r := fun f j k hprio hidle => by rw [hu.r f j k hprio hidle, r_setEng]

theorem Started.keepK (x : State) {u : State} {e i lvl : Nat} (hu : Started s u e i lvl) : Started s (x.keepK u) e i lvl where
  cur := by rw [eng_keepK, hu.cur]
  task := by rw [bank_keepK, hu.task]
  pc := by rw [bank_keepK, hu.pc]
  status := by rw [bank_keepK, hu.status]
  branch := by rw [bank_keepK, hu.branch]
  calls := by rw [bank_keepK, hu.calls]
  dataMem := by rw [keepK_dataMem, hu.dataMem]
  retMem := by rw [keepK_retMem, hu.retMem]
  sources := by rw [keepK_sources, hu.sources]
  cycleAt := fun hkind => by rw [eng_keepK, hu.cycleAt hkind]
  r := fun f j k hprio hidle => by rw [r_keepK, hu.r f j k hprio hidle]

theorem taskLevel_setEng {h : Nat} {x : EngineX} (hx : x.image = (s.eng h).image) (e i : Nat) : (s.setEng h x).taskLevel e i = s.taskLevel e i := by
  unfold State.taskLevel
  rw [task_setEng hx]
  simp only [r_setEng]

theorem engineRuns_setEng (s : State) (h : Nat) (x : EngineX) (e : Nat) : (s.setEng h x).engineRuns e = s.engineRuns e := rfl

theorem runWaiting_only {e : Nat} {x : Nat × Nat} (hruns : s.engineRuns e = true) (hcur : (s.eng e).cur = none) (hwaiting : (s.eng e).waiting = [x]) :
    s.runWaiting e = (s.setEng e { s.eng e with waiting := [] }).startTask e x.1 (s.taskLevel e x.1) x.2 0 := by
  have hfirst : s.firstWaiting e = some x := by rw [State.firstWaiting, hwaiting]; rfl
  have habove : s.aboveCur e (s.taskLevel e x.1) = true := by simp only [State.aboveCur, State.curPrio, hcur]
  unfold State.runWaiting
  simp only [hruns, hfirst, habove, hwaiting, Bool.not_true, Bool.false_eq_true, if_false, if_true, List.erase_cons_head]

/-- A task that comes to wait on an idle engine with no other one waiting starts at once (R262). -/
theorem released_starts {e : Nat} (hruns : s.engineRuns e = true) (hcur : (s.eng e).cur = none) (hwaiting : (s.eng e).waiting = []) (i since : Nat) :
    Started s ((s.setEng e { s.eng e with waiting := (s.eng e).waiting ++ [(i, since)] }).runWaiting e) e i (s.taskLevel e i) := by
  have hlevel := taskLevel_setEng (s := s) (h := e) (x := { s.eng e with waiting := (s.eng e).waiting ++ [(i, since)] }) (by rfl) e i
  rw [runWaiting_only (x := (i, since)) (by rw [engineRuns_setEng, hruns]) (by rw [eng_setEng_same]; exact hcur) (by rw [eng_setEng_same, hwaiting]; rfl), hlevel]
  exact .of_setEng (by rfl) (.of_setEng (by rw [eng_setEng_same]) (startTask_starts _ e i _ _ _))

theorem taskLevel_periodic {e i : Nat} (h : (s.task e i).kind = .periodic) : s.taskLevel e i = (s.task e i).prio := by simp only [State.taskLevel, h]

theorem taskLevel_cyclic {e i : Nat} (h : (s.task e i).kind = .cyclic) : s.taskLevel e i = 0 := by simp only [State.taskLevel, h]

theorem runner_alone {e : Nat} (h : (s.eng e).hostedBy = none) : s.runner e = e := by rw [State.runner, h]; rfl

/-! ### Releases of periodic tasks (R263, R264) -/

/-- A release that counts: `task` is periodic, the instant is of its series, and no release of it fell there before (R263). -/
structure Due (s : State) (e task : Nat) : Prop where
  runs : s.engineRuns e = true
  kind : (s.task e task).kind = .periodic
  within : task < (s.prog e).tasks.length
  series : s.onSeries (s.task e task).periodUs (s.task e task).phaseUs = true
  fresh : sget none (s.eng e).released task ≠ some s.now

/-- The release is noted. -/
def released (s : State) (e task : Nat) : State := s.setEng e { s.eng e with released := sset none (s.eng e).released task (some s.now) }

theorem taskRelease_due {t : Nat} {e : Fin 4} {task : Nat} (hon : s.islandOn .logic = true) (halone : (s.eng e).hostedBy = none) (hdue : Due (s.tick t) e task) :
    exec (.taskRelease t e task) s = .next (s.keepK (
      let u := released (s.tick t) e task
      if (((s.eng e).cur.toList ++ (s.eng e).frozen).any fun l => (sget {} (s.eng e).banks l).task == some task) || (u.eng e).waiting.any fun x => x.1 == task then
        ((u.setEng e { u.eng e with overruns := sset 0 (u.eng e).overruns task (min 65535 (sget 0 (u.eng e).overruns task + 1)) }).inc LGE.OVERRUNS e).raise
          21 e 3 ([e.val, task] ++ leBytes 2 0) [task]
      else (u.setEng e { u.eng e with waiting := (u.eng e).waiting ++ [(task, u.now)] }).runWaiting e)) := by
  have hexec : exec (.taskRelease t e task) s = _ := runK_on hon t _
  have hrunner : (s.tick t).runner e = e := runner_alone (by exact halone)
  beta_reduce at hexec
  rw [hrunner, if_neg] at hexec
  · exact hexec
  · obtain ⟨hruns, hkind, hwithin, hseries, hfresh⟩ := hdue
    simp only [hruns, hkind, hseries, hfresh, Bool.not_true, Bool.false_eq_true, Bool.true_eq_false, ne_eq, not_true_eq_false, false_or, or_false, Nat.not_le]
    exact hwithin

theorem taskRelease_starts {t : Nat} {e : Fin 4} {task : Nat} (hon : s.islandOn .logic = true) (halone : (s.eng e).hostedBy = none) (hdue : Due (s.tick t) e task)
    (hcur : (s.eng e).cur = none) (hfrozen : (s.eng e).frozen = []) (hwaiting : (s.eng e).waiting = []) :
    Gives (.taskRelease t e task) s fun u => Started (s.tick t) u e task (s.task e task).prio := by
  have hlevel : (released (s.tick t) e task).taskLevel e task = (s.task e task).prio :=
    (taskLevel_setEng (by rfl) e task).trans (taskLevel_periodic hdue.kind)
  have hwaiting' : ((released (s.tick t) e task).eng e).waiting = [] := by rw [released, eng_setEng_same]; exact hwaiting
  have hstart := released_starts (s := released (s.tick t) e task) (e := e) hdue.runs (by rw [released, eng_setEng_same]; exact hcur) hwaiting' task
    (released (s.tick t) e task).now
  rw [hlevel] at hstart
  refine ⟨_, taskRelease_due hon halone hdue, ?_⟩
  dsimp only
  rw [if_neg (by simp [hcur, hfrozen, hwaiting'])]
  exact .keepK _ (.of_setEng (by rfl) hstart)

theorem taskRelease_overruns {t : Nat} {e : Fin 4} {task since : Nat} (hon : s.islandOn .logic = true) (halone : (s.eng e).hostedBy = none)
    (hdue : Due (s.tick t) e task) (hwaiting : (s.eng e).waiting = [(task, since)]) :
    Gives (.taskRelease t e task) s fun u => u.r LGE.OVERRUNS e = min (s.r LGE.OVERRUNS e + 1) (2 ^ 32 - 1) ∧
      sget 0 (u.eng e).overruns task = min 65535 (sget 0 (s.eng e).overruns task + 1) ∧ (u.eng e).waiting = (s.eng e).waiting ∧
      (u.eng e).cur = (s.eng e).cur := by
  refine ⟨_, taskRelease_due hon halone hdue, ?_⟩
  dsimp only
  have heng : (released (s.tick t) e task).eng e = { (s.tick t).eng e with released := sset none ((s.tick t).eng e).released task (some (s.tick t).now) } :=
    eng_setEng_same ..
  have hregs : (released (s.tick t) e task).regs = s.regs := rfl
  generalize released (s.tick t) e task = u at heng hregs
  rw [if_pos (by simp [heng, hwaiting, eng_tick]), eng_keepK, eng_raise, eng_of_engines (inc_engines ..), eng_setEng_same, r_keepK,
    r_raise_any _ _ _ (inBlock (by decide) Nat.zero_lt_one) (by omega), r_inc_same _ _ _ _ _ (by decide), r_setEng, sget_sset_same, heng]
  exact ⟨congrArg (fun m => min (({ s with regs := m } : State).r LGE.OVERRUNS e + 1) (2 ^ 32 - 1)) hregs, rfl, rfl, rfl⟩

/-! ### Free cycles (R265) -/

theorem freeCycle_starts {t : Nat} {e : Fin 4} {i : Nat} (hon : s.islandOn .logic = true) (halone : (s.eng e).hostedBy = none) (hruns : s.engineRuns e = true)
    (hcur : (s.eng e).cur = none) (hfrozen : (s.eng e).frozen = []) (hwaiting : (s.eng e).waiting = []) (hdue : (s.tick t).cycleDue e = true)
    (hfind : (List.range (s.prog e).tasks.length).find? (fun i => ((s.prog e).tasks.getD i {}).kind == .cyclic) = some i) :
    Gives (.freeCycleStart t e) s fun u => Started (s.tick t) u e i 0 ∧ (s.task e i).kind = .cyclic := by
  have hfound := List.find?_some hfind
  have hkind : (s.task e i).kind = .cyclic := eq_of_beq hfound
  have hexec : exec (.freeCycleStart t e) s = _ := runK_on hon t _
  have hrunner : (s.tick t).runner e = e := runner_alone (by exact halone)
  have hstart := released_starts (s := s.tick t) (e := e) hruns hcur hwaiting i (s.tick t).now
  rw [taskLevel_cyclic (by exact hkind)] at hstart
  beta_reduce at hexec
  rw [hrunner] at hexec
  refine ⟨_, hexec, ?_⟩
  have hfind' : (List.range ((s.tick t).prog e).tasks.length).find? (fun i => (((s.tick t).prog e).tasks.getD i {}).kind == .cyclic) = some i := hfind
  have hruns' : (s.tick t).engineRuns e = true := hruns
  dsimp only
  rw [hfind']
  dsimp only
  rw [if_neg (by simp [hruns', hcur, hfrozen, hwaiting, hdue, eng_tick])]
  exact ⟨.keepK _ hstart, hkind⟩

/-! ### Entries of delivered sources (R267) -/

/-- The source that a state offers to engine `e` is taken from the offer and claimed. -/
def claimed (s : State) (e : Nat) : State × Nat :=
  let offer := (s.w EIC.OFFER_VALID 0 0 e).w EIC.OFFER 0 0 e
  (offer.setEng e { offer.eng e with offered := none }).claim (s.r EIC.OFFER 0 e) e

/-- What a claim leaves (R349, R350, R354). -/
structure Claims (s u : State) (n e : Nat) : Prop where
  active : (u.src n).st = .active
  by_ : (u.src n).claimedBy = some e
  engines : u.engines = s.engines
  r : ∀ (f : Fld) (i j : Nat), f.key i j ≠ EIC.CLAIMS_LIVE0.key 0 0 → u.r f i j = s.r f i j

theorem claim_claims (s : State) (n e : Nat) : Claims s (s.claim n e).1 n e := by
  unfold State.claim
  extract_lets live old taken marked
  have hsrc : taken.src n = { s.src n with st := .active, lastEng := e, claimedBy := some e } :=
    src_setSrc s n { s.src n with st := .active, lastEng := e, claimedBy := some e }
  have hmarked : Claims s marked n e := ⟨congrArg SourceX.st hsrc, congrArg SourceX.claimedBy hsrc, rfl, fun _ _ _ _ => rfl⟩
  have hcounted : Claims s (marked.inc EIC.CLAIMS_LIVE0) n e :=
    ⟨hmarked.active, hmarked.by_, hmarked.engines, fun f i j hlive => (r_inc_ne _ _ _ _ _ _ _ _ hlive).trans (hmarked.r f i j hlive)⟩
  exact PowerLaws.when_intro (P := fun u => Claims s u n e) (f := fun u => u.inc EIC.CLAIMS_LIVE0) hmarked hcounted

theorem offerValid_claimed (s : State) (e : Nat) : (claimed s e).1.r EIC.OFFER_VALID 0 e = 0 := by
  rw [claimed, (claim_claims ..).r _ _ _ (by simp only [Fld.key, EIC.OFFER_VALID, EIC.CLAIMS_LIVE0]; omega), r_setEng,
    r_w_ne _ _ _ _ _ _ _ _ (by simp only [Fld.key, EIC.OFFER_VALID, EIC.OFFER]; omega), r_w_same, Nat.zero_mod, Nat.zero_mod]

theorem r_claimed_page (s : State) (e : Nat) {f : Fld} {d : Nat} (hcode : f.code = 21) (hplace : f.off < 4096 ∧ f.lsb < 32) (he : e < 4) :
    (claimed s e).1.r f d = s.r f d := by
  obtain ⟨hoff, hlsb⟩ := hplace
  rw [claimed, (claim_claims ..).r _ _ _ (by simp only [Fld.key, EIC.CLAIMS_LIVE0]; omega), r_setEng,
    r_w_ne _ _ _ _ _ _ _ _ (by simp only [Fld.key, EIC.OFFER]; omega), r_w_ne _ _ _ _ _ _ _ _ (by simp only [Fld.key, EIC.OFFER_VALID]; omega)]

theorem prog_claimed (s : State) (e : Nat) (he : e < 4) : (claimed s e).1.prog e = s.prog e := by
  have hhome : (claimed s e).1.home e = s.home e :=
    home_of_fields (r_claimed_page s e rfl (by decide) he) (r_claimed_page s e rfl (by decide) he)
  have heng (d : Nat) : ((claimed s e).1.eng d).image = (s.eng d).image := by
    rw [claimed, eng_of_engines (claim_claims ..).engines, eng_setEng]
    split_ifs with hd
    · rw [hd, eng_w, eng_w]
    · rw [eng_w, eng_w]
  rw [State.prog, hhome, heng, State.prog]

theorem enter_starts {e i : Nat} (he : e < 4) (hruns : s.engineRuns e = true) (hoffer : s.on EIC.OFFER_VALID 0 e = true)
    (habove : s.aboveCur e (s.r EIC.PRIO 0 (s.r EIC.OFFER 0 e)) = true)
    (hfind : (List.range (s.prog e).tasks.length).find? (fun i => ((s.prog e).tasks.getD i {}).kind == .event &&
      ((s.prog e).tasks.getD i {}).source == s.r EIC.OFFER 0 e) = some i) :
    Started (claimed s e).1 (s.enter e) e i (s.r EIC.PRIO 0 (s.r EIC.OFFER 0 e)) := by
  have hprog := prog_claimed s e he
  generalize hu : s.enter e = u
  unfold State.enter at hu
  extract_lets n p rel offer at hu
  have hoffered : (offer.setEng e { offer.eng e with offered := none }).claim n e = claimed s e := rfl
  rw [if_neg (by simp [hruns, hoffer, p, n, habove]), hoffered] at hu
  dsimp only at hu
  rw [hprog, hfind] at hu
  rw [← hu]
  exact startTask_starts ..

theorem taskEntry_enters {t : Nat} {e : Fin 4} {i : Nat} (hon : s.islandOn .logic = true) (hruns : s.engineRuns e = true)
    (hoffer : s.on EIC.OFFER_VALID 0 e = true) (habove : s.aboveCur e (s.r EIC.PRIO 0 (s.r EIC.OFFER 0 e)) = true)
    (hfind : (List.range (s.prog e).tasks.length).find? (fun i => ((s.prog e).tasks.getD i {}).kind == .event &&
      ((s.prog e).tasks.getD i {}).source == s.r EIC.OFFER 0 e) = some i) :
    Gives (.taskEntry t e) s fun u => (u.src (s.r EIC.OFFER 0 e)).st = .active ∧ (u.src (s.r EIC.OFFER 0 e)).claimedBy = some (e : Nat) ∧
      u.r EIC.OFFER_VALID 0 e = 0 ∧ (u.eng e).cur = some (s.r EIC.PRIO 0 (s.r EIC.OFFER 0 e)) ∧ (u.bank e).task = some i ∧
      (u.bank e).pc = (s.task e i).entry := by
  have hstart := enter_starts (s := s.tick t) e.isLt hruns hoffer habove hfind
  have hclaims : Claims _ (claimed (s.tick t) e).1 (s.r EIC.OFFER 0 e) e := claim_claims ..
  have hsrc : ((s.tick t).enter e).src (s.r EIC.OFFER 0 e) = (claimed (s.tick t) e).1.src (s.r EIC.OFFER 0 e) :=
    congrArg (fun m : List (Nat × SourceX) => sget ({} : SourceX) m (s.r EIC.OFFER 0 e)) hstart.sources
  have htask : (claimed (s.tick t) e).1.task e i = s.task e i := congrArg (fun p : ImageX => p.tasks.getD i {}) (prog_claimed (s.tick t) e e.isLt)
  refine ⟨_, runK_on hon t _, ?_⟩
  beta_reduce
  rw [src_keepK, hsrc, r_keepK, eng_keepK, bank_keepK, hstart.pc, htask, hstart.task, hstart.cur,
    hstart.r _ _ _ (by simp only [Fld.key, EIC.OFFER_VALID, LGE.CUR_PRIO]; omega) (by simp only [Fld.key, EIC.OFFER_VALID, LGE.IDLE]; omega)]
  exact ⟨hclaims.active, hclaims.by_, offerValid_claimed _ e, rfl, rfl, rfl⟩

/-! ### Engines that stop (R266, R286) -/

theorem progMem_showEng (s : State) (e : Nat) : (s.showEng e).progMem = s.progMem := by
  unfold State.showEng
  split <;> rw [w_progMem, w_progMem]

/-- What a state that gives up its activations on engine `e` leaves. -/
structure Stopped (s u : State) (e : Nat) : Prop where
  cur : (u.eng e).cur = none
  waiting : (u.eng e).waiting = []
  dataMem : u.dataMem = s.dataMem
  progMem : u.progMem = s.progMem

/-- A source is left to be delivered again, or is done: nothing but the sources changes (R349). -/
def SourcesOnly (s u : State) : Prop := ∃ m, u = { s with sources := m }

theorem sourcesOnly_redeliver {u : State} (h : SourcesOnly s u) (n : Nat) : SourcesOnly s (u.redeliver n) := by
  obtain ⟨m, rfl⟩ := h
  unfold State.redeliver
  extract_lets x
  split
  · exact ⟨_, rfl⟩
  · exact ⟨_, rfl⟩
  · exact ⟨_, rfl⟩

theorem sourcesOnly_complete {u : State} (h : SourcesOnly s u) (n : Nat) : SourcesOnly s (u.complete n) := by
  obtain ⟨m, rfl⟩ := h
  unfold State.complete
  extract_lets x
  split
  · exact ⟨_, rfl⟩
  · exact ⟨_, rfl⟩
  · exact ⟨_, rfl⟩

theorem abandonTasks_stops (s : State) (e : Nat) (again : Bool) : Stopped s (s.abandonTasks e again) e := by
  unfold State.abandonTasks
  extract_lets x lvls v banks
  have hv : SourcesOnly s v := by
    refine List.foldlRecOn _ _ (motive := SourcesOnly s) ⟨_, rfl⟩ fun u hu n _ => ?_
    split_ifs
    · exact sourcesOnly_redeliver hu n
    · exact sourcesOnly_complete hu n
    · exact hu
  obtain ⟨m, hm⟩ := hv
  clear_value v
  subst hm
  exact ⟨by rw [eng_showEng, eng_setEng_same], by rw [eng_showEng, eng_setEng_same], by rw [dataMem_showEng, setEng_dataMem], by rw [progMem_showEng, setEng_progMem]⟩

/-- What a change of RUN_STATE leaves (R295). -/
structure RunsAs (s u : State) (e v : Nat) : Prop where
  shown : u.r LGE.RUN_STATE e = v
  engines : u.engines = s.engines
  dataMem : u.dataMem = s.dataMem
  progMem : u.progMem = s.progMem
  r : ∀ (f : Fld) (j k : Nat), InBlock f k → f.key j k ≠ LGE.RUN_STATE.key e 0 → u.r f j k = s.r f j k

theorem runState_runsAs (s : State) (e : Nat) {v : Nat} (hv : v < 4) : RunsAs s (s.runState e v) e v := by
  unfold State.runState
  extract_lets was u
  have hu : RunsAs s u e v := ⟨(r_w_cut _ _ _ _ _ (by decide)).trans (Nat.mod_eq_of_lt hv), rfl, rfl, rfl, fun f j k _ hkey => r_w_ne _ _ _ _ _ _ _ _ hkey⟩
  clear_value u
  split
  · exact ⟨by rw [r_raise_any _ _ _ (inBlock (by decide) Nat.zero_lt_one) (by omega), hu.shown], by rw [raise_engines, hu.engines],
      by rw [raise_dataMem, hu.dataMem], by rw [raise_progMem, hu.progMem],
      fun f j k hblock hkey => by rw [r_raise_any _ _ _ hblock (by omega), hu.r f j k hblock hkey]⟩
  · exact hu

/-- No reserve takes the program over: the engine stays in FAULT (R286). -/
theorem failEngine_unreserved {e : Nat} (he : e < 4) (hreserve : 4 ≤ s.r LGE.RESERVE 0) : s.failEngine e = (s.abandonTasks e true).runState e 3 := by
  unfold State.failEngine
  extract_lets h q free u stopped
  have hfree : free = false := by simp [free, q, Nat.not_lt.mpr hreserve]
  have hq : (q == e) = false := beq_false_of_ne (by omega)
  have hu : u = s := by simp [u, hq, State.when]
  rw [if_neg (by rw [hfree]; exact Bool.false_ne_true)]
  exact congrArg (fun v : State => (v.abandonTasks e true).runState e 3) hu

theorem failEngine_stops {e : Nat} (he : e < 4) (hreserve : 4 ≤ s.r LGE.RESERVE 0) :
    (s.failEngine e).r LGE.RUN_STATE e = 3 ∧ Stopped s (s.failEngine e) e := by
  have hgone := abandonTasks_stops s e true
  have hfault := runState_runsAs (s.abandonTasks e true) e (v := 3) (by omega)
  rw [failEngine_unreserved he hreserve]
  exact ⟨hfault.shown, by rw [eng_of_engines hfault.engines, hgone.cur], by rw [eng_of_engines hfault.engines, hgone.waiting],
    by rw [hfault.dataMem, hgone.dataMem], by rw [hfault.progMem, hgone.progMem]⟩

theorem watchdog_stops {t : Nat} {e : Fin 4} {l i : Nat} (hon : s.islandOn .logic = true) (hreserve : 4 ≤ s.r LGE.RESERVE 0)
    (hcur : (s.eng e).cur = some l) (hfrozen : (s.eng e).frozen = []) (htask : (sget {} (s.eng e).banks l).task = some i)
    (hlate : (sget {} (s.eng e).banks l).began + 1000 * (s.prog e).wdUs < (s.tick t).up) :
    Gives (.watchdog t e) s fun u => u.r LGE.RUN_STATE e = 3 ∧ (u.eng e).cur = none ∧ (u.eng e).waiting = [] ∧ u.dataMem = s.dataMem := by
  have hexec : exec (.watchdog t e) s = _ := runK_on hon t _
  have hfind : (((s.tick t).eng e).cur.toList ++ ((s.tick t).eng e).frozen).find? (fun l =>
      decide ((sget {} ((s.tick t).eng e).banks l).began + 1000 * ((s.tick t).prog e).wdUs < (s.tick t).up) &&
        (sget {} ((s.tick t).eng e).banks l).task.isSome) = some l := by
    rw [eng_tick, hcur, hfrozen]
    exact List.find?_cons_of_pos (by rw [htask]; exact (Bool.and_true _).trans (decide_eq_true hlate))
  beta_reduce at hexec
  extract_lets x late at hexec
  have hfound : late = some l := hfind
  rw [hfound] at hexec
  refine ⟨_, hexec, ?_⟩
  dsimp only
  generalize [e.val, ((sget {} x.banks l).task).getD 0xFF] ++ leBytes 2 0 = p
  obtain ⟨hfault, hstop⟩ := failEngine_stops (s := (s.tick t).raise 21 e 0 p) e.isLt
    (by rw [r_raise_any _ _ _ (inBlock (by decide) Nat.zero_lt_one) (by omega)]; exact hreserve)
  exact ⟨by rw [r_keepK, hfault], by rw [eng_keepK, hstop.cur], by rw [eng_keepK, hstop.waiting], by rw [keepK_dataMem, hstop.dataMem, raise_dataMem, tick_dataMem]⟩

theorem selfTest_stops {t : Nat} {e : Fin 4} (hon : s.islandOn .logic = true) (hreserve : 4 ≤ s.r LGE.RESERVE 0) :
    Gives (.engineFail t e .selfTest) s fun u => u.r LGE.RUN_STATE e = 3 ∧ (u.eng e).cur = none ∧ u.dataMem = s.dataMem ∧ u.progMem = s.progMem := by
  obtain ⟨hfault, hstop⟩ := failEngine_stops (s := s.tick t) e.isLt hreserve
  refine ⟨_, runK_on hon t _, ?_⟩
  dsimp only
  exact ⟨by rw [r_keepK, hfault], by rw [eng_keepK, hstop.cur], by rw [keepK_dataMem, hstop.dataMem, tick_dataMem],
    by rw [keepK_progMem, hstop.progMem, tick_progMem]⟩

/-! ### Tests of failed engines (R287, R543) -/

/-- What naming engine `q` the reserve leaves, where no program of its own runs on it (R285). -/
structure Reserves (s u : State) (q : Nat) : Prop where
  reserve : u.r LGE.RESERVE 0 = q
  engines : u.engines = s.engines
  r : ∀ (f : Fld) (j k : Nat), f.key j k ≠ LGE.RESERVE.key 0 0 → (∀ d, f.key j k ≠ LGE.IS_RESERVE.key d 0) → u.r f j k = s.r f j k

theorem setReserve_reserves {q : Nat} (hq : q ≤ 4) (hstill : q < 4 → s.r LGE.RUN_STATE q = 0) : Reserves s (s.setReserve q) q := by
  unfold State.setReserve
  extract_lets named u
  have hnamed : Reserves s named q := ⟨(r_w_cut _ _ _ _ _ (by decide)).trans (Nat.mod_eq_of_lt (Nat.lt_of_le_of_lt hq (by decide))), rfl,
    fun f j k hkey _ => r_w_ne _ _ _ _ _ _ _ _ hkey⟩
  clear_value named
  have hu : Reserves s u q := List.foldlRecOn _ _ (motive := fun v => Reserves s v q) hnamed fun v hv d _ =>
    ⟨by rw [r_wb_ne _ _ _ _ _ _ _ _ (by simp only [Fld.key, LGE.RESERVE, LGE.IS_RESERVE]; omega), hv.reserve], hv.engines,
      fun f j k hkey his => by rw [r_wb_ne _ _ _ _ _ _ _ _ (his d), hv.r f j k hkey his]⟩
  clear_value u
  rw [if_neg]
  · exact hu
  · rintro ⟨hlt, -, hruns⟩
    refine hruns ?_
    rw [hu.r _ _ _ (by simp only [Fld.key, LGE.RUN_STATE, LGE.RESERVE]; omega) (fun d => by simp only [Fld.key, LGE.RUN_STATE, LGE.IS_RESERVE]; omega)]
    exact hstill hlt

theorem testDone_passes {t : Nat} {e : Fin 4} (hon : s.islandOn .keep = true) (htesting : (s.eng e).testing = true) :
    Gives (.engineTestDone t e true) s fun u => (u.eng e).testing = false ∧ u.r LGE.RUN_STATE e = 0 ∧
      u.r LGE.RESERVE 0 = if s.on LGE.REARM 0 then e.val else s.r LGE.RESERVE 0 := by
  have hexec : exec (.engineTestDone t e true) s = _ := runK_on hon t _
  beta_reduce at hexec
  rw [eng_tick, htesting, if_neg (by decide)] at hexec
  extract_lets x tested stopped noted shown at hexec
  clear_value noted shown
  rw [if_pos rfl] at hexec
  refine ⟨_, hexec, ?_⟩
  have hstopped : RunsAs tested stopped e 0 := runState_runsAs _ _ (by omega)
  have hregs : tested.regs = s.regs := rfl
  have heng : (tested.eng e).testing = false := by simp only [tested, eng_setEng_same]
  clear_value stopped tested
  have hkept (f : Fld) (hblock : InBlock f 0) (hkey : f.key 0 0 ≠ LGE.RUN_STATE.key e 0) : stopped.r f = s.r f := by
    rw [hstopped.r _ _ _ hblock hkey, State.r, hregs, State.r]
  have hrearm : stopped.on LGE.REARM 0 = s.on LGE.REARM 0 := by
    rw [State.on, hkept LGE.REARM (inBlock (by decide) Nat.zero_lt_one) (by simp only [Fld.key, LGE.REARM, LGE.RUN_STATE]; omega), State.on]
  beta_reduce
  rw [hrearm, eng_keepK, r_keepK, r_keepK]
  by_cases hon' : s.on LGE.REARM 0 = true
  · have hnamed := setReserve_reserves (s := stopped) (q := e) (by omega) fun _ => hstopped.shown
    rw [if_pos hon', if_pos hon', eng_of_engines hnamed.engines, eng_of_engines hstopped.engines, hnamed.reserve,
      hnamed.r _ _ _ (by simp only [Fld.key, LGE.RUN_STATE, LGE.RESERVE]; omega) (fun d => by simp only [Fld.key, LGE.RUN_STATE, LGE.IS_RESERVE]; omega)]
    exact ⟨heng, hstopped.shown, rfl⟩
  · rw [if_neg hon', if_neg hon', eng_of_engines hstopped.engines,
      hkept LGE.RESERVE (inBlock (by decide) Nat.zero_lt_one) (by simp only [Fld.key, LGE.RESERVE, LGE.RUN_STATE]; omega)]
    exact ⟨heng, hstopped.shown, rfl⟩

/-- ENG_RETIRED stays. -/
def RetiredKept (s u : State) : Prop := u.r KPR.ENG_RETIRED = s.r KPR.ENG_RETIRED

namespace RetiredKept

variable {u v : State}

theorem inBlock_retired : InBlock KPR.ENG_RETIRED 0 := inBlock (by decide) Nat.zero_lt_one

theorem ite {c : Prop} [Decidable c] (h : RetiredKept s u) (k : RetiredKept s v) : RetiredKept s (if c then u else v) := by
  split
  · exact h
  · exact k

/-- A field of the recorder's page. -/
theorem w (h : RetiredKept s u) {f : Fld} (hcode : f.code = 10) (x i j : Nat) : RetiredKept s (u.w f x i j) :=
  (r_w_ne _ _ _ _ _ _ _ _ (by simp only [Fld.key, KPR.ENG_RETIRED, hcode]; omega)).trans h

theorem setRec (h : RetiredKept s u) (f : RecX → RecX) : RetiredKept s (u.setRec f) := h

theorem ringFill (h : RetiredKept s u) : RetiredKept s u.ringFill := (r_setRaw_block u _ _ _ inBlock_retired (by decide) 0).trans h

theorem toRing (h : RetiredKept s u) (x : Rec1) : RetiredKept s (u.toRing x) := (((h.setRec _).w rfl _ _ _).w rfl _ _ _).w rfl _ _ _

theorem unhold (h : RetiredKept s u) : RetiredKept s u.unhold :=
  ringFill (w (List.foldlRecOn _ _ (h.setRec _) fun _ hv x _ => hv.toRing x) rfl _ _ _)

theorem putRec (h : RetiredKept s u) (code : Nat) (pay : List Nat) : RetiredKept s (u.putRec code pay) :=
  have hnumbered := (h.setRec _).w rfl _ _ _
  ite ((hnumbered.setRec _).w rfl _ _ _) (hnumbered.toRing _).ringFill

theorem thaw (h : RetiredKept s u) (cause : Nat) : RetiredKept s (u.thaw cause) := by
  unfold State.thaw
  extract_lets n v x
  have hended : RetiredKept s v := h.w rfl _ _ _
  have hreleased : RetiredKept s x := ite hended hended.unhold
  exact (r_raise_any _ _ _ inBlock_retired (by decide) 0).trans (hreleased.putRec _ _)

theorem writeRec (h : RetiredKept s u) (code : Nat) (pay : List Nat) : RetiredKept s (u.writeRec code pay) :=
  have hended := h.w (f := REC.HOLDING) rfl _ _ _
  (ite (ite (hended.thaw 2) hended.unhold) h).putRec code pay

end RetiredKept

theorem testDone_retires {t : Nat} {e : Fin 4} (hon : s.islandOn .keep = true) (htesting : (s.eng e).testing = true) :
    Gives (.engineTestDone t e false) s fun u => (u.eng e).testing = false ∧ (u.r KPR.ENG_RETIRED).testBit e = true := by
  have hexec : exec (.engineTestDone t e false) s = _ := runK_on hon t _
  beta_reduce at hexec
  rw [eng_tick, htesting, if_neg (by decide)] at hexec
  extract_lets x tested stopped noted shown at hexec
  clear_value stopped
  rw [if_neg (by decide)] at hexec
  refine ⟨_, hexec, ?_⟩
  have heng : (tested.eng e).testing = false := by simp only [tested, eng_setEng_same]
  have hrec : LaneCareLaws.Recorded _ noted := LaneCareLaws.recorded_writeRec _ _ _
  have hretired : RetiredKept _ noted := RetiredKept.writeRec rfl _ _
  have hset : noted.r KPR.ENG_RETIRED = putBit (tested.r KPR.ENG_RETIRED) e true % 2 ^ 4 := hretired.trans (r_w_cut _ _ _ _ _ (by decide))
  have hshown : RetiredKept noted shown ∧ shown.engines = noted.engines := by
    unfold RetiredKept
    by_cases hown : noted.r LGE.RESERVE 0 = e.val
    · have hnamed := setReserve_reserves (s := noted) (q := 4) (by omega) fun hlt => absurd hlt (by decide)
      simp only [shown, if_pos hown]
      exact ⟨hnamed.r _ _ _ (by simp only [Fld.key, KPR.ENG_RETIRED, LGE.RESERVE]; omega)
        (fun d => by simp only [Fld.key, KPR.ENG_RETIRED, LGE.IS_RESERVE]; omega), hnamed.engines⟩
    · simp only [shown, if_neg hown, and_self]
  obtain ⟨hkept, hengines⟩ := hshown
  have hnoted : noted.engines = tested.engines := by
    obtain ⟨_, _, _, _, hu⟩ := hrec
    rw [hu, w_engines]
  clear_value shown noted tested
  beta_reduce
  rw [eng_keepK, eng_raise, eng_of_engines hengines, eng_of_engines hnoted, r_keepK, r_raise_any _ _ _ RetiredKept.inBlock_retired (by decide), hkept, hset,
    Nat.testBit_mod_two_pow, testBit_putBit, if_pos rfl, decide_eq_true e.isLt]
  exact ⟨heng, rfl⟩

theorem due_of_series {t : Nat} {e : Fin 4} {task : Nat} (hruns : s.engineRuns e = true) (hkind : (s.task e task).kind = .periodic)
    (hwithin : task < (s.prog e).tasks.length) (hseries : (s.tick t).onSeries (s.task e task).periodUs (s.task e task).phaseUs = true)
    (hfresh : sget none (s.eng e).released task ≠ some (s.tick t).now) : Due (s.tick t) e task :=
  ⟨hruns, hkind, hwithin, hseries, hfresh⟩

/-- Settles O34, a lemma per release, entry, failure and test; a task that starts is described once, by `Started`. -/
theorem logicTasks : Obligations.LogicTasks := by
  unfold Obligations.LogicTasks
  intro t e s halone hon
  refine ⟨fun task hruns hkind hwithin hseries hfresh => ?_, fun i hruns hcur hfrozen hwaiting hdue hfind => ?_,
    fun i hruns hoffer habove hfind => taskEntry_enters hon hruns hoffer habove hfind,
    fun hreserve => ⟨fun l i hcur hfrozen htask hlate => watchdog_stops hon hreserve hcur hfrozen htask hlate, selfTest_stops hon hreserve⟩,
    fun hkeep htesting => ⟨testDone_passes hkeep htesting, testDone_retires hkeep htesting⟩⟩
  · have hdue := due_of_series (t := t) hruns hkind hwithin hseries hfresh
    refine ⟨fun hcur hfrozen hwaiting => ?_, fun since hwaiting => taskRelease_overruns hon halone hdue hwaiting⟩
    obtain ⟨u, hexec, hu⟩ := taskRelease_starts hon halone hdue hcur hfrozen hwaiting
    exact ⟨u, hexec, hu.cur, hu.task, hu.pc, hu.status, hu.branch, hu.calls, hu.dataMem, hu.retMem⟩
  · obtain ⟨u, hexec, hu, hkind⟩ := freeCycle_starts hon halone hruns hcur hfrozen hwaiting hdue hfind
    exact ⟨u, hexec, hu.cur, hu.task, hu.pc, hu.cycleAt hkind⟩

end Sys2Proof.LogicTaskLaws
end

section
/-! The station exchange: cycle starts, INPUT and OUTPUT frames, read ends, and the windows of its page (R297 to R312, R318). -/

namespace Sys2Proof.StationExchangeLaws

open Sys2Proof Sys2Proof.Machine Sys2Proof.Laws Sys2Proof.FieldPageLaws Sys2Proof.LogicPageLaws Sys2Proof.LogicChangeLaws Sys2Proof.RecordFrame

/-! ### What leaves the record of the exchange and a field of its page -/

/-- Every field of the page stands behind the page header (R51, R318). -/
theorem field_place {g : Fld} (hg : g ∈ SXE.fields) : g.code = 22 ∧ InBlock g 0 := by
  unfold InBlock
  revert g
  decide

/-- From `s` to `u` the record of the exchange, the time and field `g` stand. -/
def Leaves (g : Fld) (s u : State) : Prop := u.sxe = s.sxe ∧ u.now = s.now ∧ u.r g = s.r g

namespace Leaves

variable {g : Fld} {s u v : State}

theorem refl (s : State) : Leaves g s s := ⟨rfl, rfl, rfl⟩

theorem ite {p : Prop} {_ : Decidable p} (h : Leaves g s u) (k : Leaves g s v) : Leaves g s (if p then u else v) := by
  split
  · exact h
  · exact k

section
variable (h : Leaves g s u)
include h

theorem trans (k : Leaves g u v) : Leaves g s v := by
  obtain ⟨hsxe, hnow, hr⟩ := h
  obtain ⟨ksxe, know, kr⟩ := k
  exact ⟨ksxe.trans hsxe, know.trans hnow, kr.trans hr⟩

theorem foldl {β : Type} {f : State → β → State} {xs : List β} (hf : ∀ {v x}, Leaves g s v → Leaves g s (f v x)) :
    Leaves g s (xs.foldl f u) := List.foldlRecOn _ _ h fun _ hv _ _ => hf hv

/-- What writes neither the record, the time nor a register. -/
theorem same (hsxe : v.sxe = u.sxe := by rfl) (hnow : v.now = u.now := by rfl) (hregs : v.regs = u.regs := by rfl) : Leaves g s v :=
  h.trans ⟨hsxe, hnow, by rw [State.r, hregs, State.r]⟩

theorem setStn {n : Nat} {x : StationX} : Leaves g s (u.setStn n x) := h.same

theorem w {f : Fld} {x i j : Nat} (hkey : g.key 0 0 ≠ f.key i j) : Leaves g s (u.w f x i j) := h.trans ⟨rfl, rfl, r_w_ne _ _ _ _ _ _ _ _ hkey⟩

theorem inc {f : Fld} {i j n : Nat} (hkey : g.key 0 0 ≠ f.key i j) : Leaves g s (u.inc f i j n) := h.w hkey

theorem raise (hg : g ∈ SXE.fields) {code bit : Nat} (hbit : bit < 32) {p q : List Nat} : Leaves g s (u.raise code 0 bit p q) :=
  h.trans ⟨raise_sxe .., raise_now .., r_raise_block _ _ _ (field_place hg).2 hbit 0⟩

/-! ### Frames in the switch (R315, R443) -/

theorem startTx {port : Nat} : Leaves g s (u.startTx port) := by
  unfold State.startTx
  refine ite ?_ h
  split
  · exact h.same
  · exact h

theorem enqueue (hg : g ∈ SXE.fields) {port cls : Nat} {f : EthFrame} : Leaves g s (u.enqueue port cls f) := by
  have hsent : Leaves g s (u.setEsw fun k => { k with egress := k.egress ++ [(port, cls, f)] }) := h.same
  refine ite hsent.startTx (ite (h.inc ?_) h)
  obtain ⟨hcode, hfrom, hto, hlsb⟩ := field_place hg
  simp only [Fld.key, ETH.TX_DROPS, hcode]
  omega

theorem redSend (hg : g ∈ SXE.fields) {pair : Nat} {f : EthFrame} {cls : Nat → Nat} : Leaves g s (u.redSend pair f cls) := by
  have hnumbered : Leaves g s (u.setEsw fun k => { k with sendSeq := sset 0 k.sendSeq pair ((sget 0 u.esw.sendSeq pair + 1) % 65536) }) := h.same
  exact (hnumbered.enqueue hg).enqueue hg

theorem sxeToSwitch (hg : g ∈ SXE.fields) {f : SxeFrame} : Leaves g s (u.sxeToSwitch f) :=
  foldl h fun hv => ite (hv.redSend hg) (have hfirst := ite (hv.enqueue hg) hv; ite (hfirst.enqueue hg) hfirst)

/-! ### Stations (R305, R307, R311) -/

theorem dropOut (hg : g ∈ SXE.fields) (hkey : g.key 0 0 ≠ SXE.OUT_DROPPED.key 0 0) {f : SxeFrame} : Leaves g s (u.dropOut f) :=
  (h.inc hkey).raise hg (by decide)

theorem usePolicy {n : Nat} : Leaves g s (u.usePolicy n) := h.setStn

theorem commitEntry {old new : List (Nat × Word)} {n : Nat} : Leaves g s (u.commitEntry old new n) :=
  ite (ite h.same h) (ite h.setStn.usePolicy h)

theorem raiseIf (hg : g ∈ SXE.fields) {p : Prop} {_ : Decidable p} {bit : Nat} {pay : List Nat} (hbit : bit < 32) :
    Leaves g s (if p then u.raise 22 0 bit pay else u) := ite (h.raise hg hbit) h

theorem readEndStn (hg : g ∈ SXE.fields) {n : Nat} : Leaves g s (u.readEndStn n) := by
  unfold State.readEndStn
  refine ite (h.setStn.raiseIf hg (by decide)) ?_
  extract_lets x y m
  split
  · exact (h.setStn.raiseIf hg (by decide)).raiseIf hg (by decide)
  · exact (h.setStn.raiseIf hg (by decide)).raiseIf hg (by decide)
  · exact h.setStn

end

end Leaves

/-! ### Commands of the exchange -/

variable {s u : State} {t : Nat} {r : Requester} {effect : State → State}

/-- A command of the exchange's own while its island runs. -/
theorem runK_net (hnet : s.islandOn .net = true) (heffect : effect (s.tick t) = u) : s.runK .net t effect = .next (s.keepK u) := by
  rw [runK_on hnet, heffect]

/-- A write that the page takes. -/
theorem cmdK_page (htakes : Takes s r ⟨22, 0⟩) (heffect : effect (writeSeen s t ⟨22, 0⟩) = u) :
    s.cmdK t (fun s => s.pageWrite r ⟨22, 0⟩ true effect) = .next (s.keepK u) := by
  rw [cmdK_seen htakes, heffect]

/-- A write sees the fields of the page as they stand. -/
theorem r_seen {g : Fld} (hg : g ∈ SXE.fields) : (writeSeen s t ⟨22, 0⟩).r g = s.r g := r_writeSeen s t _ (field_place hg).2 0

theorem on_seen {g : Fld} (hg : g ∈ SXE.fields) : (writeSeen s t ⟨22, 0⟩).on g = s.on g := on_writeSeen s t _ (field_place hg).2 0

theorem r_raise_field {g : Fld} (hg : g ∈ SXE.fields) {bit : Nat} (hbit : bit < 32) {p q : List Nat} :
    (s.raise 22 0 bit p q).r g = s.r g := r_raise_block _ _ _ (field_place hg).2 hbit 0

/-! ### Cycle starts (R298, R300, R311) -/

/-- The table that a cycle start uses. -/
def nextTable (s : State) : List (Nat × Word) := if s.on SXE.TABLE_PENDING then s.sxe.staging else s.sxe.table

/-- The table is committed, and no table is pending. -/
def tableTaken (s : State) : State := (s.setSxe fun k => { k with table := k.staging }).w SXE.TABLE_PENDING 0

/-- Without a pending table nothing changes; else the staged one is taken, and the stations and an event follow. -/
theorem commitTable_cases (s : State) :
    (s.on SXE.TABLE_PENDING = false ∧ s.commitTable = s) ∨
    (s.on SXE.TABLE_PENDING = true ∧ ∀ g ∈ SXE.fields, Leaves g (tableTaken s) s.commitTable) := by
  cases hpending : s.on SXE.TABLE_PENDING
  case false => exact .inl ⟨rfl, if_pos (by rw [hpending]; rfl)⟩
  case true =>
    refine .inr ⟨rfl, fun g hg => ?_⟩
    rw [State.commitTable, hpending, if_neg (by decide)]
    exact ((Leaves.refl _).foldl (·.commitEntry)).raise hg (by decide)

theorem sxe_commitTable (s : State) : s.commitTable.sxe = { s.sxe with table := nextTable s } := by
  unfold nextTable
  obtain ⟨hpending, hsame⟩ | ⟨hpending, htaken⟩ := commitTable_cases s
  · rw [hsame, hpending]
    rfl
  · obtain ⟨hsxe, -⟩ := htaken SXE.TABLE_PENDING (by decide)
    rw [hsxe, hpending]
    rfl

theorem now_commitTable (s : State) : s.commitTable.now = s.now := by
  obtain ⟨-, hsame⟩ | ⟨-, htaken⟩ := commitTable_cases s
  · rw [hsame]
  · obtain ⟨-, hnow, -⟩ := htaken SXE.TABLE_PENDING (by decide)
    exact hnow

theorem pending_commitTable (s : State) : s.commitTable.r SXE.TABLE_PENDING = 0 := by
  obtain ⟨hpending, hsame⟩ | ⟨-, htaken⟩ := commitTable_cases s
  · rw [hsame]
    simpa [State.on] using hpending
  · obtain ⟨-, -, hr⟩ := htaken SXE.TABLE_PENDING (by decide)
    rw [hr, tableTaken, r_w_cut _ _ _ _ _ (by decide), Nat.zero_mod]

theorem r_commitTable_ne (s : State) {g : Fld} (hg : g ∈ SXE.fields) (hkey : g.key 0 0 ≠ SXE.TABLE_PENDING.key 0 0) :
    s.commitTable.r g = s.r g := by
  obtain ⟨-, hsame⟩ | ⟨-, htaken⟩ := commitTable_cases s
  · rw [hsame]
  · obtain ⟨-, -, hr⟩ := htaken g hg
    rw [hr, tableTaken, r_w_ne _ _ _ _ _ _ _ _ hkey, r_setSxe]

theorem cycleNumber_lt (s : State) (at_ : Nat) : s.cycleNumber at_ < 2 ^ 32 := Nat.mod_lt _ (by decide)

/-- The state in which a cycle starts: queued frames are dropped and a pending table is committed. -/
def cycleReady (s : State) : State := (s.sxe.outQ.foldl State.dropOut s).commitTable

/-- Frames that are dropped leave every field but their count. -/
theorem leaves_dropOuts {g : Fld} (hg : g ∈ SXE.fields) (hkey : g.key 0 0 ≠ SXE.OUT_DROPPED.key 0 0) (s : State) (fs : List SxeFrame) :
    Leaves g s (fs.foldl State.dropOut s) := (Leaves.refl s).foldl (·.dropOut hg hkey)

theorem sxe_cycleReady (s : State) : (cycleReady s).sxe = { s.sxe with table := nextTable s } := by
  obtain ⟨hsxe, -, hpending⟩ := leaves_dropOuts (g := SXE.TABLE_PENDING) (by decide) (by decide) s s.sxe.outQ
  rw [cycleReady, sxe_commitTable, nextTable, nextTable, State.on, hpending, hsxe]
  rfl

theorem now_cycleReady (s : State) : (cycleReady s).now = s.now := by
  obtain ⟨-, hnow, -⟩ := leaves_dropOuts (g := SXE.TABLE_PENDING) (by decide) (by decide) s s.sxe.outQ
  rw [cycleReady, now_commitTable, hnow]

theorem r_cycleReady {g : Fld} (hg : g ∈ SXE.fields) (hdropped : g.key 0 0 ≠ SXE.OUT_DROPPED.key 0 0)
    (hpending : g.key 0 0 ≠ SXE.TABLE_PENDING.key 0 0) (s : State) : (cycleReady s).r g = s.r g := by
  obtain ⟨-, -, hr⟩ := leaves_dropOuts hg hdropped s s.sxe.outQ
  rw [cycleReady, r_commitTable_ne _ hg hpending, hr]

theorem cycleNumber_cycleReady (s : State) (at_ : Nat) : (cycleReady s).cycleNumber at_ = s.cycleNumber at_ := by
  rw [State.cycleNumber, State.cycleNumber, r_cycleReady (by decide) (by decide) (by decide), r_cycleReady (by decide) (by decide) (by decide)]

/-- The record and the number of a cycle that starts. -/
def cycleOpened (s : State) : State :=
  (s.setSxe fun k => { k with cycleAt := s.now, inRead := true, wrote := false, cut := false, outQ := [] }).w SXE.CYCLE_NO (s.cycleNumber s.now)

/-- A station waits for the frame of the cycle. -/
def stationAwaited (s : State) (n : Nat) : State := s.setStn n { s.stn n with accepted := false }

/-- The cycle that starts, for every station of the table. -/
def cycleStarted (s : State) : State := (stnEnabled (cycleOpened s).sxe.table).foldl stationAwaited (cycleOpened s)

theorem leaves_cycleStarted (s : State) (g : Fld) : Leaves g (cycleOpened s) (cycleStarted s) := (Leaves.refl _).foldl (·.setStn)

theorem sxe_cycleStarted (s : State) :
    (cycleStarted s).sxe = { s.sxe with cycleAt := s.now, inRead := true, wrote := false, cut := false, outQ := [] } := by
  obtain ⟨hsxe, -⟩ := leaves_cycleStarted s SXE.CYCLE_NO
  rw [hsxe, cycleOpened, w_sxe, setSxe_sxe]

theorem cycleNo_cycleStarted (s : State) : (cycleStarted s).r SXE.CYCLE_NO = s.cycleNumber s.now := by
  obtain ⟨-, -, hr⟩ := leaves_cycleStarted s SXE.CYCLE_NO
  rw [hr, cycleOpened, r_w_cut _ _ _ _ _ (by decide)]
  exact Nat.mod_eq_of_lt (cycleNumber_lt _ _)

theorem pending_cycleStarted (s : State) : (cycleStarted s).r SXE.TABLE_PENDING = s.r SXE.TABLE_PENDING := by
  obtain ⟨-, -, hr⟩ := leaves_cycleStarted s SXE.TABLE_PENDING
  rw [hr, cycleOpened, r_w_ne _ _ _ _ _ _ _ _ (by decide), r_setSxe]

theorem stationCycleStart_starts (hnet : s.islandOn .net = true) (hen : s.enabled 22 = true) (hfrom : s.sxe.startAt ≤ (s.tick t).up)
    (hseries : (s.tick t).onSeries (s.r SXE.CYC_US) (s.r SXE.PHASE_US) = true)
    (hnew : s.sxe.cut = true ∨ s.sxe.cycleAt ≠ (s.tick t).now) :
    Gives (.stationCycleStart t) s (fun u => u.sxe.cycleAt = (s.tick t).now ∧ u.sxe.inRead = true ∧ u.sxe.outQ = [] ∧
      u.r SXE.TABLE_PENDING = 0 ∧ u.r SXE.CYCLE_NO = (s.tick t).cycleNumber (s.tick t).now ∧
      u.sxe.table = if s.on SXE.TABLE_PENDING then s.sxe.staging else s.sxe.table) := by
  have hstart : ¬ ((!s.enabled 22) = true ∨ (s.tick t).up < s.sxe.startAt ∨
      (!(s.tick t).onSeries (s.r SXE.CYC_US) (s.r SXE.PHASE_US)) = true ∨ ((!s.sxe.cut) = true ∧ s.sxe.cycleAt = (s.tick t).now)) := by
    rcases hnew with hcut | hat
    · simp [hen, hseries, hcut, hfrom]
    · simp [hen, hseries, hat, hfrom]
  have hexec : exec (.stationCycleStart t) s = .next (s.keepK (cycleStarted (cycleReady (s.tick t)))) := runK_net hnet (if_neg hstart)
  refine ⟨_, hexec, ?_⟩
  beta_reduce
  rw [keepK_sxe, r_keepK, r_keepK, sxe_cycleStarted, now_cycleReady, sxe_cycleReady, pending_cycleStarted, cycleNo_cycleStarted,
    now_cycleReady, cycleNumber_cycleReady]
  exact ⟨rfl, rfl, rfl, pending_commitTable _, rfl, rfl⟩

/-! ### INPUT frames (R297, R302, R303) -/

/-- A frame that passes the tests holds the words it announces. -/
theorem words_le_of_inputCause {f : SxeFrame} (h : s.inputCause f = 0) : f.words ≤ f.data.length := by
  by_contra hshort
  have hfirst : f.etype ≠ s.r SXE.ETHERTYPE ∨ f.version ≠ 1 ∨ f.ftype ≠ 1 ∨ f.data.length < f.words := by omega
  have hone : s.inputCause f = 1 := if_pos hfirst
  omega

/-- The input words of a station after an accepted frame. -/
def inputWords (f : SxeFrame) : List Word := f.data.take f.words ++ List.replicate (64 - f.words) 0

theorem inputWords_getD {f : SxeFrame} {w : Nat} (hw : w < f.words) (hlen : f.words ≤ f.data.length) :
    w < (inputWords f).length ∧ (inputWords f).getD w 0 = f.data.getD w 0 := by
  have htake : w < (f.data.take f.words).length := by simp; omega
  refine ⟨by rw [inputWords, List.length_append]; omega, ?_⟩
  rw [inputWords, List.getD_append _ _ _ _ htake, List.getD_eq_getElem _ _ htake, List.getElem_take, List.getD_eq_getElem]

theorem inputFrameRx_accepts {f : SxeFrame} {a b : Bool} (hnet : s.islandOn .net = true) (hen : s.enabled 22 = true)
    (hcause : (s.tick t).inputCause f = 0) :
    Gives (.inputFrameRx t f a b) s (fun u => (∀ w, w < f.words → sget 0 u.inImg (64 * f.station + w) = f.data.getD w 0) ∧
      (u.stn f.station).q = .fresh ∧ (u.stn f.station).accepted = true ∧ (u.stn f.station).echoLast = f.echo) := by
  have hon : ¬ (!s.enabled 22) = true := by simp [hen]
  refine ⟨_, runK_net hnet ((if_neg hon).trans (if_neg (not_not.mpr hcause))), ?_⟩
  refine ⟨fun w hw => ?_, ?_⟩
  · have himg := (((Keeps.refl (W := [.stations]) { s.tick t with inImg := ssets 0 s.inImg (64 * f.station) (inputWords f) }).checkEcho
      (by decide) (f := f)).checkPaths (by decide) (n := f.station) (a := a) (b := b)) .inImg (by decide)
    obtain ⟨hlen, hword⟩ := inputWords_getD hw (words_le_of_inputCause hcause)
    refine (congrArg (fun m => sget 0 m (64 * f.station + w)) himg).trans ?_
    exact (sget_ssets _ _ _ _ _ hlen).trans hword
  · rw [stn_keepK, stn_setStn]
    exact ⟨rfl, rfl, rfl⟩

/-- No cause of R302 exceeds 7. -/
theorem inputCause_lt (s : State) (f : SxeFrame) : s.inputCause f < 8 := by
  unfold State.inputCause
  extract_lets tab
  repeat' split
  all_goals decide

theorem inImg_inputBad (s : State) (f : SxeFrame) (c : Nat) : (s.inputBad f c).inImg = s.inImg := by
  unfold State.inputBad
  split
  · simp
  · simp

theorem lastErrCause_inputBad (s : State) (f : SxeFrame) {c : Nat} (hc : c < 8) : (s.inputBad f c).r SXE.LAST_ERR_CAUSE = c := by
  have hshown : ((s.w SXE.LAST_ERR_STN f.station).w SXE.LAST_ERR_CAUSE c).r SXE.LAST_ERR_CAUSE = c :=
    (r_w_cut _ _ _ _ _ (by decide)).trans (Nat.mod_eq_of_lt hc)
  unfold State.inputBad
  split
  · rw [r_raise_field (by decide) (by decide), r_inc_ne _ _ _ _ _ _ _ _ (by decide), hshown]
  · rw [r_raise_field (by decide) (by decide), r_inc_ne _ _ _ _ _ _ _ _ (by decide), hshown]

theorem frameErrs_inputBad (s : State) (f : SxeFrame) (c : Nat) :
    (s.inputBad f c).r SXE.FRAME_ERRS = if c = 6 then s.r SXE.FRAME_ERRS else min (s.r SXE.FRAME_ERRS + 1) (2 ^ 32 - 1) := by
  have hkept : ((s.w SXE.LAST_ERR_STN f.station).w SXE.LAST_ERR_CAUSE c).r SXE.FRAME_ERRS = s.r SXE.FRAME_ERRS := by
    rw [r_w_ne _ _ _ _ _ _ _ _ (by decide), r_w_ne _ _ _ _ _ _ _ _ (by decide)]
  unfold State.inputBad
  split
  · rw [r_raise_field (by decide) (by decide), r_inc_ne _ _ _ _ _ _ _ _ (by decide), hkept]
  · rw [r_raise_field (by decide) (by decide), r_inc_same _ _ _ _ _ (by decide), hkept]
    rfl

theorem inputFrameRx_discards {f : SxeFrame} {a b : Bool} {c : Nat} (hnet : s.islandOn .net = true) (hen : s.enabled 22 = true)
    (hcause : (s.tick t).inputCause f = c) (hbad : c ≠ 0) :
    Gives (.inputFrameRx t f a b) s (fun u => u.inImg = s.inImg ∧ u.r SXE.LAST_ERR_CAUSE = c ∧
      u.r SXE.FRAME_ERRS = (if c = 6 then s.r SXE.FRAME_ERRS else min (s.r SXE.FRAME_ERRS + 1) (2 ^ 32 - 1))) := by
  subst hcause
  have hon : ¬ (!s.enabled 22) = true := by simp [hen]
  refine ⟨_, runK_net hnet ((if_neg hon).trans (if_pos hbad)), ?_⟩
  exact ⟨inImg_inputBad _ _ _, lastErrCause_inputBad _ _ (inputCause_lt _ _), frameErrs_inputBad _ _ _⟩

/-! ### Read ends and write phases (R303, R305, R307, R309, R312) -/

/-- The read phase is closed, and the profiles written are in use. -/
def readClosed (s : State) : State := s.setSxe fun k => { k with inRead := false, prof := k.profNew }

theorem readEnd_closes (hnet : s.islandOn .net = true) (hen : s.enabled 22 = true) (hcut : s.sxe.cut = false)
    (hread : s.sxe.inRead = true) (hend : s.sxe.cycleAt + 1000 * s.r SXE.READ_END_US ≤ (s.tick t).now) :
    Gives (.readEnd t) s (fun u => u.sxe.inRead = false ∧ u.sxe.prof = s.sxe.profNew ∧ u.inImg = s.inImg) := by
  have hcloses : ¬ ((!s.enabled 22) = true ∨ s.sxe.cut = true ∨ (!s.sxe.inRead) = true ∨
      (s.tick t).now < s.sxe.cycleAt + 1000 * s.r SXE.READ_END_US) := by
    simp [hen, hcut, hread, hend]
  have hexec : exec (.readEnd t) s = .next (s.keepK ((stnEnabled s.sxe.table).foldl (fun s n => (s.usePolicy n).readEndStn n)
      (readClosed (s.tick t)))) := runK_net hnet (if_neg hcloses)
  have himg := (Keeps.refl (W := [.stations]) s).execReadEnd (by decide) _ hexec .inImg (by decide)
  obtain ⟨hsxe, -⟩ := (Leaves.refl (g := SXE.CYCLE_NO) (readClosed (s.tick t))).foldl (xs := stnEnabled s.sxe.table)
    (f := fun s n => (s.usePolicy n).readEndStn n) (fun h => h.usePolicy.readEndStn (by decide))
  exact ⟨_, hexec, congrArg SxeX.inRead hsxe, congrArg SxeX.prof hsxe, himg⟩

theorem writePhase_queues (hnet : s.islandOn .net = true) (hen : s.enabled 22 = true) (hcut : s.sxe.cut = false) (hrole : s.r DCH.ROLE = 0)
    (hread : s.sxe.inRead = false) (hwrote : s.sxe.wrote = false) (hopen : s.sxe.cycleAt + 1000 * s.r SXE.WRITE_US ≤ (s.tick t).now) :
    Gives (.writePhase t) s (fun u => u.sxe.sent = [] ∧ u.sxe.announce = false ∧
      ∀ n, n ∈ stnEnabled s.sxe.table → (s.stn n).st = .run → s.outputFrame n ∈ u.sxe.outQ) := by
  have hsends : s.sxeSends = true := by simp [State.sxeSends, hrole]
  have hopens : ¬ ((!s.enabled 22) = true ∨ s.sxe.cut = true ∨ (!s.sxeSends) = true ∨ s.sxe.inRead = true ∨ s.sxe.wrote = true ∨
      (s.tick t).now < s.sxe.cycleAt + 1000 * s.r SXE.WRITE_US) := by
    simp [hen, hcut, hsends, hread, hwrote, hopen]
  refine ⟨_, runK_net hnet (if_neg hopens), rfl, rfl, fun n hn hrun => ?_⟩
  refine List.mem_append_left _ (List.mem_append_right _ (List.mem_map_of_mem (f := s.outputFrame) (List.mem_filter.mpr ⟨hn, ?_⟩)))
  simp [hrun]

/-! ### OUTPUT frames (R305) -/

/-- The frame at the front leaves the queue. -/
def frameTaken (s : State) (fs : List SxeFrame) : State := s.setSxe fun k => { k with outQ := fs }

theorem outputFrameTx_drops {f : SxeFrame} {fs : List SxeFrame} (hnet : s.islandOn .net = true) (hq : s.sxe.outQ = f :: fs)
    (hlate : s.sxe.cycleAt + 1000 * s.r SXE.APPLY_US < (s.tick t).now + 1000 * s.r SXE.LAT_US) :
    Gives (.outputFrameTx t) s (fun u => u.sxe.outQ = fs ∧ u.sxe.sent = s.sxe.sent ∧
      u.r SXE.OUT_DROPPED = min (s.r SXE.OUT_DROPPED + 1) (2 ^ 32 - 1)) := by
  have hq' : (s.tick t).sxe.outQ = f :: fs := hq
  have hexec : exec (.outputFrameTx t) s = .next (s.keepK ((frameTaken (s.tick t) fs).dropOut f)) := by
    refine runK_net hnet ?_
    dsimp only
    rw [hq']
    exact if_pos hlate
  have hsxe : ((frameTaken (s.tick t) fs).dropOut f).sxe = { s.sxe with outQ := fs } := raise_sxe ..
  refine ⟨_, hexec, congrArg SxeX.outQ hsxe, (congrArg SxeX.sent hsxe :), ?_⟩
  rw [r_keepK, State.dropOut, r_raise_field (by decide) (by decide), r_inc_same _ _ _ _ _ (by decide)]
  rfl

/-- A frame that goes out: the switch takes it, and the record of the exchange lists it. -/
def frameSent (s : State) (f : SxeFrame) : State :=
  (s.sxeToSwitch f).setSxe fun k => { k with sent := k.sent ++ [f], cfgNext := if f.ftype = 3 then f.station + 1 else k.cfgNext }

/-- The station of an OUTPUT frame notes it. -/
def frameNoted (s : State) (f : SxeFrame) : State :=
  if f.ftype = 2 then s.setStn f.station { s.stn f.station with sentIn := some f.cycle, first := false } else s

/-- The instant of the last frame shows in WRITE_END_US. -/
def writeEndShown (s : State) : State := s.w SXE.WRITE_END_US ((s.now - s.sxe.cycleAt) / 1000)

theorem leaves_noted (s : State) (f : SxeFrame) : Leaves SXE.OUT_DROPPED s (writeEndShown (frameNoted s f)) :=
  (Leaves.ite (Leaves.refl s).setStn (Leaves.refl s)).w (by decide)

theorem sent_frameSent (s : State) (f : SxeFrame) :
    (frameSent s f).sxe.outQ = s.sxe.outQ ∧ (frameSent s f).sxe.sent = s.sxe.sent ++ [f] ∧
      (frameSent s f).r SXE.OUT_DROPPED = s.r SXE.OUT_DROPPED := by
  obtain ⟨hsxe, -, hr⟩ := (Leaves.refl (g := SXE.OUT_DROPPED) s).sxeToSwitch (by decide) (f := f)
  rw [frameSent, r_setSxe, setSxe_sxe, hsxe]
  exact ⟨rfl, rfl, hr⟩

theorem outputFrameTx_sends {f : SxeFrame} {fs : List SxeFrame} (hnet : s.islandOn .net = true) (hq : s.sxe.outQ = f :: fs)
    (hdue : (s.tick t).now + 1000 * s.r SXE.LAT_US ≤ s.sxe.cycleAt + 1000 * s.r SXE.APPLY_US) :
    Gives (.outputFrameTx t) s (fun u => u.sxe.outQ = fs ∧ u.sxe.sent = s.sxe.sent ++ [f] ∧
      u.r SXE.OUT_DROPPED = s.r SXE.OUT_DROPPED) := by
  have hq' : (s.tick t).sxe.outQ = f :: fs := hq
  have hexec : exec (.outputFrameTx t) s =
      .next (s.keepK (writeEndShown (frameNoted (frameSent (frameTaken (s.tick t) fs) f) f))) := by
    refine runK_net hnet ?_
    dsimp only
    rw [hq']
    exact if_neg (Nat.not_lt.mpr hdue)
  obtain ⟨hsxe, -, hr⟩ := leaves_noted (frameSent (frameTaken (s.tick t) fs) f) f
  refine ⟨_, hexec, ?_⟩
  beta_reduce
  rw [keepK_sxe, r_keepK, hsxe, hr]
  exact sent_frameSent (frameTaken (s.tick t) fs) f

/-! ### The windows and commands of the page (R311, R312, R318) -/

theorem not_pending (hnone : s.on SXE.TABLE_PENDING = false) : ¬ (writeSeen s t ⟨22, 0⟩).on SXE.TABLE_PENDING = true := by
  rw [on_seen (by decide), hnone]
  decide

theorem tableCommit_pends (htakes : Takes s r ⟨22, 0⟩) (hnone : s.on SXE.TABLE_PENDING = false) :
    Gives (.tableCommit t r) s (fun u => u.r SXE.TABLE_PENDING = 1 ∧ u.sxe = s.sxe) :=
  ⟨_, cmdK_page htakes (if_neg (not_pending hnone)), r_w_cut _ SXE.TABLE_PENDING 1 0 0 (by decide), rfl⟩

theorem tableCommit_refused (htakes : Takes s r ⟨22, 0⟩) (hpending : s.on SXE.TABLE_PENDING = true) :
    Gives (.tableCommit t r) s (fun u => u.r SXE.REFUSED = min (s.r SXE.REFUSED + 1) (2 ^ 16 - 1) ∧ u.sxe = s.sxe) := by
  refine ⟨_, cmdK_page htakes (if_pos ((on_seen (by decide)).trans hpending)), ?_, rfl⟩
  rw [r_keepK, r_inc_same _ _ _ _ _ (by decide), r_seen (by decide)]
  rfl

theorem tableDiscard_restores (htakes : Takes s r ⟨22, 0⟩) (hnone : s.on SXE.TABLE_PENDING = false) :
    Gives (.tableDiscard t r) s (fun u => u.sxe.staging = s.sxe.table ∧ u.sxe.table = s.sxe.table) :=
  ⟨_, cmdK_page htakes (if_neg (not_pending hnone)), rfl, rfl⟩

/-- STN_W1 takes every value, and the selection stands. -/
theorem stnEntryWrite_one (htakes : Takes s r ⟨22, 0⟩) (hnone : s.on SXE.TABLE_PENDING = false) (v : Word) :
    Gives (.stnEntryWrite t r 1 v) s (fun u => sget 0 u.sxe.staging (4 * s.r SXE.STN_SEL + 1) = v ∧
      u.r SXE.STN_SEL = s.r SXE.STN_SEL ∧ u.sxe.table = s.sxe.table) := by
  refine ⟨_, cmdK_page htakes ((if_neg (not_pending hnone)).trans (if_neg (by decide))), ?_, r_seen (by decide), rfl⟩
  rw [← r_seen (s := s) (t := t) (g := SXE.STN_SEL) (by decide)]
  exact (sget_sset_same _ _ _ _).trans (by simp [State.entryClamp])

theorem stnEntryWrite_three (htakes : Takes s r ⟨22, 0⟩) (hnone : s.on SXE.TABLE_PENDING = false) (v : Word) :
    Gives (.stnEntryWrite t r 3 v) s (fun u => u.r SXE.STN_SEL = (s.r SXE.STN_SEL + 1) % 1024) := by
  refine ⟨_, cmdK_page htakes ((if_neg (not_pending hnone)).trans (if_pos (by decide))), ?_⟩
  refine (r_w_cut _ SXE.STN_SEL _ 0 0 (by decide)).trans ?_
  rw [r_seen (by decide)]
  rfl

theorem profDataWrite_stores (htakes : Takes s r ⟨22, 0⟩) (v : Word) :
    Gives (.profDataWrite t r v) s (fun u => sget 0 u.sxe.profNew (64 * s.r SXE.PROF_SEL + s.r SXE.PROF_WORD) = v ∧
      u.r SXE.PROF_WORD = (s.r SXE.PROF_WORD + 1) % 64 ∧ u.sxe.prof = s.sxe.prof) := by
  refine ⟨_, cmdK_page htakes rfl, ?_, ?_, rfl⟩
  · rw [← r_seen (s := s) (t := t) (g := SXE.PROF_SEL) (by decide), ← r_seen (s := s) (t := t) (g := SXE.PROF_WORD) (by decide)]
    exact sget_sset_same _ _ _ _
  · rw [r_keepK, r_w_cut _ _ _ _ _ (by decide), r_seen (by decide)]
    rfl

theorem planMapWrite_gain (htakes : Takes s r ⟨22, 0⟩) (v : Word) :
    Gives (.planMapWrite t r 1 v) s (fun u => sget (pmDefault 1) u.sxe.pmapNew (2 * s.r SXE.PM_SEL + 1) = v ∧
      u.r SXE.PM_SEL = (s.r SXE.PM_SEL + 1) % 1024 ∧ u.sxe.pmap = s.sxe.pmap) := by
  refine ⟨_, cmdK_page htakes (if_pos (by decide)), ?_, ?_, rfl⟩
  · rw [← r_seen (s := s) (t := t) (g := SXE.PM_SEL) (by decide)]
    exact (sget_sset_same _ _ _ _).trans (by simp)
  · rw [r_keepK, r_w_cut _ _ _ _ _ (by decide), r_seen (by decide)]
    rfl

/-- The fields that CTR_CLR clears (R318). -/
def clearedFields : List Fld :=
  [SXE.FRAME_ERRS, SXE.LATE_INPUTS, SXE.OUT_DROPPED, SXE.LAST_ERR_STN, SXE.LAST_ERR_CAUSE, SXE.WRITE_END_US]

theorem r_clearedFields {g : Fld} (hg : g ∈ clearedFields) (s : State) : (clearedFields.foldl (fun s f => s.w f 0) s).r g = 0 :=
  LaneCareLaws.r_clear_mem (by decide) (by decide) s hg

/-- The counters of a station are cleared. -/
def stationCleared (s : State) (n : Nat) : State := s.setStn n { s.stn n with outMiss := 0, missedTotal := 0 }

theorem sxeCtrClr_clears (htakes : Takes s r ⟨22, 0⟩) :
    Gives (.sxeCtrClr t r) s (fun u => u.r SXE.FRAME_ERRS = 0 ∧ u.r SXE.LATE_INPUTS = 0 ∧ u.r SXE.OUT_DROPPED = 0 ∧
      u.r SXE.LAST_ERR_STN = 0 ∧ u.r SXE.LAST_ERR_CAUSE = 0 ∧ u.r SXE.WRITE_END_US = 0 ∧ u.inImg = s.inImg) := by
  let v := clearedFields.foldl (fun s f => s.w f 0) (writeSeen s t ⟨22, 0⟩)
  have hexec : exec (.sxeCtrClr t r) s = .next (s.keepK ((v.stations.map (·.1)).foldl stationCleared v)) := cmdK_page htakes rfl
  have himg := (Keeps.refl (W := [.stations]) s).execSxeCtrClr (by decide) _ hexec .inImg (by decide)
  have hzero {g : Fld} (hg : g ∈ clearedFields) : ((v.stations.map (·.1)).foldl stationCleared v).r g = 0 := by
    obtain ⟨-, -, hr⟩ := (Leaves.refl (g := g) v).foldl (xs := v.stations.map (·.1)) (f := stationCleared) (·.setStn)
    exact hr.trans (r_clearedFields hg _)
  exact ⟨_, hexec, hzero (by decide), hzero (by decide), hzero (by decide), hzero (by decide), hzero (by decide), hzero (by decide), himg⟩

/-- Settles O40, a lemma per cycle start, frame, phase and window. -/
theorem stationExchange : Obligations.StationExchange := by
  unfold Obligations.StationExchange
  intro t s
  refine ⟨fun hnet hen => ⟨stationCycleStart_starts hnet hen, fun f a b => inputFrameRx_accepts hnet hen,
    fun f a b c => inputFrameRx_discards hnet hen, readEnd_closes hnet hen, writePhase_queues hnet hen⟩,
    fun f fs hnet hq => ⟨outputFrameTx_drops hnet hq, outputFrameTx_sends hnet hq⟩,
    fun r htakes => ⟨fun hnone => ?_, tableCommit_refused htakes, fun v => ⟨profDataWrite_stores htakes v, planMapWrite_gain htakes v⟩,
      sxeCtrClr_clears htakes⟩⟩
  exact ⟨tableCommit_pends htakes hnone, tableDiscard_restores htakes hnone,
    fun v => ⟨stnEntryWrite_one htakes hnone v, stnEntryWrite_three htakes hnone v⟩⟩

end Sys2Proof.StationExchangeLaws
end

section
/-! A step: which command it runs, and what every command does to the queue and to the fuses (R25, R501). -/

namespace Sys2Proof.StepLaws

open Sys2Proof Sys2Proof.Machine Sys2Proof.Laws

/-- Whatever state the outcome `o` answers, its queue is that of `s`, and of the fuses of `s` it only burns more. -/
def Burns (s : State) (o : Host.Outcome State Fault Refusal) : Prop :=
  ∀ u, o = .next u → u.pending = s.pending ∧ ∃ new, u.fuses = burnOnly s.fuses new

theorem burns_keep (s v : State) : Burns s (.next (s.keep v)) := fun _ h => by cases h; exact ⟨rfl, _, rfl⟩

theorem burns_keepM (s v : State) : Burns s (.next (s.keepM v)) := fun _ h => by cases h; exact ⟨rfl, [], rfl⟩

theorem burns_keepS (s v : State) : Burns s (.next (s.keepS v)) := fun _ h => by cases h; exact ⟨rfl, [], rfl⟩

theorem burns_keepK (s v : State) : Burns s (.next (s.keepK v)) := fun _ h => by cases h; exact ⟨rfl, [], rfl⟩

theorem burns_refused (s : State) (x : Refusal) : Burns s (.refused x) := fun _ h => nomatch h

theorem burns_ite (s : State) {p : Prop} [Decidable p] {o o' : Host.Outcome State Fault Refusal} (h : Burns s o) (h' : Burns s o') :
    Burns s (if p then o else o') := by
  split
  · exact h
  · exact h'

theorem burns_closeParen (s : State) (e : Fin 4) : Burns s (execCloseParen e s) := by
  unfold execCloseParen
  split
  · exact burns_refused s _
  · exact burns_keepK s _

theorem exec_burns (c : Instr) (s : State) : Burns s (exec c s) := by
  cases c with
  | attestStart | exportDone | tokenApply | registerWrite | remoteReadResponse => exact burns_keep s _
  | t_ | bmov => exact burns_ite s (burns_keep s _) (burns_refused s _)
  | attestDone | clearStart | powerOnReset | sysrst | brownOut | sysRst | keeperWatchdog | keepEntryDone | newtWake | minOffEnd
  | solverSramHostWrite => exact burns_keepM s _
  | enable | softReset | applyInstant | stageBoundary | contApplied | stagePrepare | tripSet | tripReqSample | tripStateClear
  | chainFrameRx | bootStep | mirrorCutApply | snapshotInstant | descWindowOpen | descWindowEnd => exact burns_keepS s _
  | aParen | anParen | oParen | onParen | xParen | ld | ldn | and_ | andn | or_ | orn | xor_ | xorn | st | stn | set_ | instrR
  | fp | fn_ | tas | l | add | sub | mul | div | mod_ | mulq | divq | andw | orw | xorw | shl | shr | asr | min_ | max_ | ceq
  | cne | cgt | cge | clt | cle | ton | tof | tp | tonr | trst | tpre | ctu | ctd | crst | cld | cpre =>
    exact burns_ite s (burns_keepK s _) (burns_refused s _)
  | jmp | jc | jcn | loop => exact burns_ite s (burns_refused s _) (burns_keepK s _)
  | call => exact burns_ite s (burns_keepK s _) (burns_ite s (burns_refused s _) (burns_keepK s _))
  | closeParen => exact burns_closeParen s _
  | _ => exact burns_keepK s _

theorem step_front (c : Instr) (s : State) : step { s with pending := c :: s.pending } = exec c s := rfl

/-- Settles O1: a step takes the front of the queue off by definition, and what a command answers has the queue it was given. -/
theorem stepRunsFront : Obligations.StepRunsFront := by
  refine ⟨step_front, fun c s u h => ?_, fun s h => step_idle h⟩
  obtain ⟨hpending, -⟩ := exec_burns c s u h
  exact hpending

/-- A step runs a command on the state with the front of its queue taken off, or idles: either way it only burns fuses. -/
theorem step_burns {s u : State} (h : step s = .next u) : ∃ new, u.fuses = burnOnly s.fuses new := by
  unfold step at h
  split at h
  case h_1 =>
    obtain rfl := Host.Outcome.next.inj h
    exact ⟨[], rfl⟩
  case h_2 c rest _ =>
    obtain ⟨-, hfuses⟩ := exec_burns c _ u h
    exact hfuses

/-- Settles O2: what burning more fuses leaves is in canonical form and keeps every blown bit. -/
theorem stepKeepsFuses : Obligations.StepKeepsFuses := by
  intro s u hinv hstep
  obtain ⟨new, hfuses⟩ := step_burns hstep
  unfold State.Inv FusesKept
  rw [hfuses]
  exact ⟨burnOnly_wf s.fuses new hinv, burnOnly_blown s.fuses new⟩

/-- Settles O3: at reset the fuse array and the queue are empty. -/
theorem resetInv : Obligations.ResetInv := ⟨wf_nil 0, rfl⟩

end Sys2Proof.StepLaws
end

section
/-! Fields of a page under the operations of the model: what a write, a count, an event and a counted write leave of another field of the same page, whatever its instance (R44, R51, R52, R62). -/

namespace Sys2Proof.PageFieldLaws

open Sys2Proof Sys2Proof.Machine Sys2Proof.Laws Sys2Proof.LogicPageLaws

variable {s : State} {f g : Fld} {code inst i k : Nat}

/-- The pages of the instances of a block lie one after the other (R46). -/
theorem key_shift (f : Fld) (inst i : Nat) : f.key inst i = f.key 0 i + inst * 2 ^ 17 := by
  simp only [Fld.key]
  omega

theorem pendKey_shift (code inst bit : Nat) : pendKey code inst bit = pendKey code 0 bit + inst * 2 ^ 17 := by
  unfold pendKey
  split
  · exact key_shift (hdr HDR.EVT_PEND ⟨code, inst⟩) inst 0
  · exact key_shift DSQ.HO_EVT_PEND inst 0

theorem rawKey_shift (code inst bit : Nat) : rawKey code inst bit = rawKey code 0 bit + inst * 2 ^ 17 := by
  unfold rawKey
  split
  · exact key_shift (hdr HDR.EVT_RAW ⟨code, inst⟩) inst 0
  · exact key_shift DSQ.HO_EVT_RAW inst 0

/-- Fields apart on the first page of a block are apart on each. -/
theorem key_ne_shift {a : Nat} (h : g.key 0 k ≠ a) : g.key inst k ≠ a + inst * 2 ^ 17 := by
  rw [key_shift]
  omega

/-- A field reads back a value of its width. -/
theorem r_w_val {v : Nat} (hv : v < 2 ^ f.width) (hw : f.width ≤ 32) : (s.w f v inst i).r f inst i = v := by
  rw [r_w_cut _ _ _ _ _ hw, Nat.mod_eq_of_lt hv]

theorem r_w_apart (h : g.key 0 k ≠ f.key 0 i) (v : Nat) : (s.w f v inst i).r g inst k = s.r g inst k :=
  r_w_ne _ _ _ _ _ _ _ _ (by rw [key_shift f]; exact key_ne_shift h)

theorem r_wi_apart (h : g.key 0 k ≠ f.key 0 i) (v : Int) : (s.wi f v inst i).r g inst k = s.r g inst k := r_w_apart h _

theorem r_wb_apart (h : g.key 0 k ≠ f.key 0 i) (b : Bool) : (s.wb f b inst i).r g inst k = s.r g inst k := r_w_apart h _

theorem r_inc_apart (h : g.key 0 k ≠ f.key 0 i) (n : Nat) : (s.inc f inst i n).r g inst k = s.r g inst k := r_w_apart h _

theorem r_hw_apart (h : g.key 0 k ≠ (hdr f ⟨code, 0⟩).key 0 0) (v : Nat) : (s.hw f ⟨code, inst⟩ v).r g inst k = s.r g inst k :=
  r_w_apart (f := hdr f ⟨code, inst⟩) h v

theorem r_countWrite_apart (h : g.key 0 k ≠ (hdr HDR.COUNT ⟨code, 0⟩).key 0 0) : (s.countWrite ⟨code, inst⟩).r g inst k = s.r g inst k :=
  r_hw_apart h _

theorem r_raise_apart {bit : Nat} (h : g.key 0 k ≠ pendKey code 0 bit) (p q : List Nat) :
    (s.raise code inst bit p q).r g inst k = s.r g inst k :=
  r_raise _ _ _ _ _ _ _ _ _ (by rw [pendKey_shift]; exact key_ne_shift h)

theorem r_setRaw_apart {bit : Nat} (hpend : g.key 0 k ≠ pendKey code 0 bit) (hraw : g.key 0 k ≠ rawKey code 0 bit) (b : Bool) (p q : List Nat) :
    (s.setRaw code inst bit b p q).r g inst k = s.r g inst k :=
  r_setRaw _ _ _ _ _ _ _ _ _ _ (by rw [pendKey_shift]; exact key_ne_shift hpend) (by rw [rawKey_shift]; exact key_ne_shift hraw)

/-- A write that its page takes sees the fields of the page as they stand. -/
theorem r_seen_apart (h : g.key 0 k ≠ (hdr HDR.COUNT ⟨code, 0⟩).key 0 0) (t : Nat) : (writeSeen s t ⟨code, inst⟩).r g inst k = s.r g inst k :=
  (r_countWrite_apart h).trans (r_tick s t g inst k)

/-- A field that is returned to its reset value leaves the others. -/
theorem r_rstF_apart (h : ∀ i < f.n, g.key 0 k ≠ f.key 0 i) : (s.rstF f inst).r g inst k = s.r g inst k := by
  refine congrArg BitVec.toNat (List.foldlRecOn (motive := fun m => sget _ m (g.key inst k) = sget _ s.regs (g.key inst k)) _ _ rfl fun m hm i hi => ?_)
  have hkey : g.key inst k ≠ f.key inst i := by
    rw [key_shift f]
    exact key_ne_shift (h i (List.mem_range.mp hi))
  rw [sget_filter_ne _ _ hkey, hm]

/-- A signed field and a flag read the bits of the field. -/
theorem ri_congr {u : State} (h : u.r g inst k = s.r g inst k) : u.ri g inst k = s.ri g inst k := congrArg (sgn g.width) h

theorem on_congr {u : State} (h : u.r g inst k = s.r g inst k) : u.on g inst k = s.on g inst k := congrArg (· != 0) h

end Sys2Proof.PageFieldLaws
end

section
/-! The timekeeper: steps of the time base, and the commands of the host that call for one (R384, R386). -/

namespace Sys2Proof.TimeStepLaws

open Sys2Proof Sys2Proof.Machine Sys2Proof.Laws Sys2Proof.LogicPageLaws

/-- From `s` to `u` the time, the record of the exchange and the step that is called for stand. -/
def SameClock (s u : State) : Prop :=
  u.now = s.now ∧ u.frac = s.frac ∧ u.ct = s.ct ∧ u.sxe = s.sxe ∧ u.tmk.pendingStep = s.tmk.pendingStep

theorem sameClock_trans {s u v : State} (h : SameClock s u) (k : SameClock u v) : SameClock s v := by
  obtain ⟨hnow, hfrac, hct, hsxe, hpend⟩ := h
  obtain ⟨know, kfrac, kct, ksxe, kpend⟩ := k
  exact ⟨know.trans hnow, kfrac.trans hfrac, kct.trans hct, ksxe.trans hsxe, kpend.trans hpend⟩

theorem sameClock_raise (s : State) (c i b : Nat) (p q : List Nat) : SameClock s (s.raise c i b p q) := by simp [SameClock]

/-- A step moves the records of the outputs and their states, and may miss a pulse (R392). -/
theorem sameClock_stepOut (s : State) (o : Nat) : SameClock s (s.stepOut o) := by
  unfold State.stepOut
  extract_lets x st
  split
  · split
    · exact ⟨rfl, rfl, rfl, rfl, rfl⟩
    · split
      · exact ⟨rfl, rfl, rfl, rfl, rfl⟩
      · split
        · exact sameClock_raise (s.w TMK.OUT_STATE 4 0 o) _ _ _ _ _
        · exact ⟨rfl, rfl, rfl, rfl, rfl⟩
  · exact ⟨rfl, rfl, rfl, rfl, rfl⟩

theorem sameClock_stepOuts (s : State) (n : Nat) : SameClock s (s.forN n State.stepOut) :=
  List.foldlRecOn (motive := SameClock s) _ _ ⟨rfl, rfl, rfl, rfl, rfl⟩ fun u hu o _ => sameClock_trans hu (sameClock_stepOut u o)

/-- A step of `d` moves the time base and nothing else of the time, and cuts the station cycle (R301, R386). -/
theorem stepBy_clock (s : State) (d : Int) (cause : Nat) :
    (s.stepBy d cause).now = (((s.now : Int) * 2 ^ 40 + s.frac.toNat + d * 2 ^ 24) / 2 ^ 40).toNat ∧
    (s.stepBy d cause).frac = BitVec.ofInt 40 ((s.now : Int) * 2 ^ 40 + s.frac.toNat + d * 2 ^ 24) ∧
    (s.stepBy d cause).ct = s.ct ∧ (s.stepBy d cause).sxe.cut = true ∧
    (s.stepBy d cause).tmk.pendingStep = s.tmk.pendingStep := by
  unfold State.stepBy
  extract_lets old total s1 ns s2 x s3 moved win y s4 s5
  have hbefore : s5 = (((s4.stepLoops moved).stepField moved).stepRest moved).forN 4 State.stepOut := rfl
  obtain ⟨hnow, hfrac, hct, hsxe, hpend⟩ := sameClock_trans (hbefore ▸ sameClock_stepOuts _ 4)
    (sameClock_raise s5 8 0 2 (leBytes 8 (bits 64 ns) ++ [cause]) [])
  rw [hnow, hfrac, hct, hsxe, hpend]
  exact ⟨rfl, rfl, rfl, rfl, rfl⟩

/-- A step by whole nanoseconds keeps the fraction. -/
theorem stepBy_whole (s : State) (n : Int) (cause : Nat) :
    (s.stepBy (n * 65536) cause).now = ((s.now : Int) + n).toNat ∧ (s.stepBy (n * 65536) cause).frac = s.frac ∧
    (s.stepBy (n * 65536) cause).ct = s.ct := by
  obtain ⟨hnow, hfrac, hct, -, -⟩ := stepBy_clock s (n * 65536) cause
  have htotal : (s.now : Int) * 2 ^ 40 + s.frac.toNat + n * 65536 * 2 ^ 24 = s.frac.toNat + 2 ^ 40 * ((s.now : Int) + n) := by omega
  have hlt := s.frac.isLt
  refine ⟨?_, ?_, hct⟩
  · rw [hnow, htotal]
    omega
  · rw [hfrac, htotal]
    apply BitVec.eq_of_toNat_eq
    rw [BitVec.toNat_ofInt]
    omega

/-! ### SET and ADD (R384) -/

variable {s : State} {t : Nat} {r : Requester}

/-- A field of the block as a write of the page sees it. -/
theorem r_seen {g : Fld} (h : FieldPageLaws.InBlock g 0) : (writeSeen s t ⟨8, 0⟩).r g = s.r g := r_writeSeen s t _ h 0

theorem refMode_seen : (writeSeen s t ⟨8, 0⟩).r TMK.REF_MODE = s.r TMK.REF_MODE := r_seen (by unfold FieldPageLaws.InBlock; decide)

theorem offNs_seen : (writeSeen s t ⟨8, 0⟩).ri TMK.OFF_NS = s.ri TMK.OFF_NS :=
  PageFieldLaws.ri_congr (r_seen (by unfold FieldPageLaws.InBlock; decide))

/-- A step that the host calls for, by whole nanoseconds (R383). -/
theorem hostStep_whole (s : State) (n : Int) (cause : Nat) :
    (s.hostStep (n * 65536) cause).now = ((s.now : Int) + n).toNat ∧ (s.hostStep (n * 65536) cause).frac = s.frac ∧
    (s.hostStep (n * 65536) cause).ct = s.ct := by
  unfold State.hostStep
  extract_lets s1 s2
  have hnow : s2.now = s.now := by unfold s2; split <;> rfl
  have hfrac : s2.frac = s.frac := by unfold s2; split <;> rfl
  have hct : s2.ct = s.ct := by unfold s2; split <;> rfl
  rw [← hnow, ← hfrac, ← hct]
  exact stepBy_whole s2 n cause

theorem timeSet_steps (htakes : Takes s r ⟨8, 0⟩) (hmode : s.r TMK.REF_MODE = 0) :
    Gives (.timeSet t r) s (fun u => u.now = (s.r TMK.SET_SEC_LO + 2 ^ 32 * s.r TMK.SET_SEC_HI) * 1000000000 + s.r TMK.SET_NS ∧
      u.frac = s.frac ∧ u.ct = (s.tick t).ct) := by
  refine ⟨_, cmdK_seen htakes t _, ?_⟩
  dsimp only
  rw [refMode_seen, hmode, if_neg (by simp), r_seen (by unfold FieldPageLaws.InBlock; decide), r_seen (by unfold FieldPageLaws.InBlock; decide),
    r_seen (by unfold FieldPageLaws.InBlock; decide)]
  obtain ⟨hnow, hfrac, hct⟩ := hostStep_whole (writeSeen s t ⟨8, 0⟩)
    (((s.r TMK.SET_SEC_LO + 2 ^ 32 * s.r TMK.SET_SEC_HI) * 1000000000 + s.r TMK.SET_NS : Nat) - (writeSeen s t ⟨8, 0⟩).now) 1
  refine ⟨?_, hfrac, hct⟩
  rw [keepK_now, hnow]
  omega

theorem timeAdd_steps (htakes : Takes s r ⟨8, 0⟩) (hmode : s.r TMK.REF_MODE = 0) (hlow : 0 ≤ ((s.tick t).now : Int) + s.ri TMK.OFF_NS)
    (hhigh : ((s.tick t).now : Int) + s.ri TMK.OFF_NS < 2 ^ 48 * 1000000000) :
    Gives (.timeAdd t r) s (fun u => (u.now : Int) = (s.tick t).now + s.ri TMK.OFF_NS ∧ u.frac = s.frac ∧ u.ct = (s.tick t).ct) := by
  have hseen : (writeSeen s t ⟨8, 0⟩).now = (s.tick t).now := rfl
  refine ⟨_, cmdK_seen htakes t _, ?_⟩
  dsimp only
  rw [refMode_seen, offNs_seen, hseen, if_neg (by omega)]
  obtain ⟨hnow, hfrac, hct⟩ := hostStep_whole (writeSeen s t ⟨8, 0⟩) (s.ri TMK.OFF_NS) 2
  refine ⟨?_, hfrac, hct⟩
  rw [keepK_now, hnow, hseen]
  omega

/-- A command of the host that is refused counts. -/
theorem refused_counts : (s.keepK ((writeSeen s t ⟨8, 0⟩).inc TMK.REFUSED)).now = (s.tick t).now ∧
    (s.keepK ((writeSeen s t ⟨8, 0⟩).inc TMK.REFUSED)).frac = s.frac ∧
    (s.keepK ((writeSeen s t ⟨8, 0⟩).inc TMK.REFUSED)).r TMK.REFUSED = min (s.r TMK.REFUSED + 1) (2 ^ 16 - 1) := by
  refine ⟨rfl, rfl, ?_⟩
  rw [r_keepK, r_inc_same _ _ _ _ _ (by decide), r_seen (by unfold FieldPageLaws.InBlock; decide)]
  rfl

theorem timeSet_refused (htakes : Takes s r ⟨8, 0⟩) (hmode : s.r TMK.REF_MODE ≠ 0) :
    Gives (.timeSet t r) s (fun u => u.now = (s.tick t).now ∧ u.frac = s.frac ∧
      u.r TMK.REFUSED = min (s.r TMK.REFUSED + 1) (2 ^ 16 - 1)) := by
  refine ⟨_, cmdK_seen htakes t _, ?_⟩
  dsimp only
  rw [refMode_seen, if_pos hmode]
  exact refused_counts

theorem timeAdd_refused (htakes : Takes s r ⟨8, 0⟩) (h : s.r TMK.REF_MODE ≠ 0 ∨ ((s.tick t).now : Int) + s.ri TMK.OFF_NS < 0 ∨
      2 ^ 48 * 1000000000 ≤ ((s.tick t).now : Int) + s.ri TMK.OFF_NS) :
    Gives (.timeAdd t r) s (fun u => u.now = (s.tick t).now ∧ u.frac = s.frac ∧
      u.r TMK.REFUSED = min (s.r TMK.REFUSED + 1) (2 ^ 16 - 1)) := by
  have hseen : (writeSeen s t ⟨8, 0⟩).now = (s.tick t).now := rfl
  refine ⟨_, cmdK_seen htakes t _, ?_⟩
  dsimp only
  rw [refMode_seen, offNs_seen, hseen, if_pos h]
  exact refused_counts

/-- Settles O45: an accepted command steps by whole nanoseconds, and a refused one counts. -/
theorem hostTimeCommands : Obligations.HostTimeCommands := by
  unfold Obligations.HostTimeCommands
  intro t r s htakes
  exact ⟨fun hmode => ⟨timeSet_steps htakes hmode, timeAdd_steps htakes hmode⟩, timeSet_refused htakes, timeAdd_refused htakes⟩

end Sys2Proof.TimeStepLaws
end

section
/-! The timekeeper: pulses, sentences, misses and holdover of its references, steps of the servo, ADJ_MAN and the UTC day (R378 to R386, R395). -/

namespace Sys2Proof.TimeReferenceLaws

open Sys2Proof Sys2Proof.Machine Sys2Proof.Laws Sys2Proof.LogicPageLaws Sys2Proof.PageFieldLaws

variable {s : State} {t : Nat} {r : Requester}

/-! ### Offsets of a reference (R382, R383) -/

/-- The fields that the servo writes. -/
def servoFields : List Fld := [TMK.STEP_RUN, TMK.F_NOW, TMK.ADJ_NOW]

theorem r_servo {g : Fld} (hg : ∀ f ∈ servoFields, g.key 0 0 ≠ f.key 0 0) (s : State) (e : Int) : (s.servo e).r g = s.r g := by
  have hrun := hg TMK.STEP_RUN (by decide)
  have hf := hg TMK.F_NOW (by decide)
  have hadj := hg TMK.ADJ_NOW (by decide)
  unfold State.servo
  split
  · split
    · rw [r_setTmk, r_w_apart hrun]
    · exact r_w_apart hrun _
  · dsimp only
    rw [r_wi_apart hadj, r_wi_apart hf, r_w_apart hrun]

/-- The servo calls for a step at most. -/
theorem tmk_servo (s : State) (e : Int) : ∃ d, (s.servo e).tmk = { s.tmk with pendingStep := d } := by
  unfold State.servo
  split
  · split
    · exact ⟨_, rfl⟩
    · exact ⟨_, rfl⟩
  · exact ⟨_, rfl⟩

/-- The reference's first offset after FREE or HOLDOVER starts the acquisition. -/
def acquired (s : State) (ref : Nat) : State :=
  if s.r TMK.STATE = 0 ∨ s.r TMK.STATE = 3 then ((s.w TMK.HOLD_S s.holdS).w TMK.STATE 1).raise 8 0 1 [1, ref] else s

theorem r_acquired {g : Fld} (hg : ∀ f ∈ [TMK.HOLD_S, TMK.STATE], g.key 0 0 ≠ f.key 0 0) (hpend : g.key 0 0 ≠ pendKey 8 0 1) (s : State)
    (ref : Nat) : (acquired s ref).r g = s.r g := by
  unfold acquired
  split
  · rw [r_raise_apart hpend, r_w_apart (hg TMK.STATE (by decide)), r_w_apart (hg TMK.HOLD_S (by decide))]
  · rfl

theorem tmk_acquired (s : State) (ref : Nat) : (acquired s ref).tmk = s.tmk := by
  unfold acquired
  split
  · simp
  · rfl

/-- What an offset notes before the servo acts. -/
def offsetNoted (s : State) (ref : Nat) (e : Int) : State :=
  ((s.wi TMK.OFFSET_LAST (clampI (-(2 ^ 31)) (2 ^ 31 - 1) (e / 65536))).w TMK.REF_NOW ref).setTmk
    fun k => { k with misses := 0, refAt := s.up }

/-- What follows the servo: the run of offsets within LOCK_NS, and LOCKED when it is long enough. -/
def lockStep (s : State) (ref : Nat) (e : Int) (cls ts : Nat) : State :=
  let run := if |e| ≤ (s.r TMK.LOCK_NS : Int) * 65536 then s.tmk.lockRun + 1 else 0
  let s := s.setTmk (fun k => { k with lockRun := run })
  if s.r TMK.STATE = 1 ∧ s.r TMK.LOCK_COUNT ≤ run then
    (((((s.w TMK.STATE 2).w TMK.HOLD_S 0).lockQuality ref cls ts).setTmk
      (fun k => { k with everLocked := true, traceable := true })).raise 8 0 12 [2, ref])
  else s

theorem offset_eq (s : State) (ref : Nat) (e : Int) (cls ts : Nat) :
    s.offset ref e cls ts = lockStep ((acquired (offsetNoted s ref e) ref).servo e) ref e cls ts := rfl

/-- The fields that LOCKED shows. -/
def lockFields : List Fld := [TMK.STATE, TMK.HOLD_S, TMK.CLASS, TMK.ACCURACY, TMK.TSOURCE]

theorem r_lockStep {g : Fld} (hg : ∀ f ∈ lockFields, g.key 0 0 ≠ f.key 0 0) (hpend : g.key 0 0 ≠ pendKey 8 0 12) (s : State) (ref : Nat)
    (e : Int) (cls ts : Nat) : (lockStep s ref e cls ts).r g = s.r g := by
  unfold lockStep
  extract_lets run u
  split
  · rw [r_raise_apart hpend, r_setTmk]
    unfold State.lockQuality
    dsimp only
    rw [r_w_apart (hg TMK.TSOURCE (by decide)), r_w_apart (hg TMK.ACCURACY (by decide)), r_w_apart (hg TMK.CLASS (by decide)),
      r_w_apart (hg TMK.HOLD_S (by decide)), r_w_apart (hg TMK.STATE (by decide)), r_setTmk]
  · rfl

theorem tmk_lockStep (s : State) (ref : Nat) (e : Int) (cls ts : Nat) :
    ∃ n b c, (lockStep s ref e cls ts).tmk = { s.tmk with lockRun := n, everLocked := b, traceable := c } := by
  unfold lockStep
  extract_lets run u
  split
  · rw [raise_tmk]
    exact ⟨_, _, _, rfl⟩
  · exact ⟨_, _, _, rfl⟩

/-- What an offset of the reference in use leaves in the fields that show it. -/
theorem r_offset {g : Fld} (hservo : ∀ f ∈ servoFields, g.key 0 0 ≠ f.key 0 0) (hlock : ∀ f ∈ lockFields, g.key 0 0 ≠ f.key 0 0)
    (hpend : g.key 0 0 ≠ pendKey 8 0 1) (hpend' : g.key 0 0 ≠ pendKey 8 0 12) (s : State) (ref : Nat) (e : Int) (cls ts : Nat) :
    (s.offset ref e cls ts).r g = (offsetNoted s ref e).r g := by
  have hacq : ∀ f ∈ [TMK.HOLD_S, TMK.STATE], g.key 0 0 ≠ f.key 0 0 := by
    intro f hf
    refine hlock f ?_
    revert f
    decide
  rw [offset_eq, r_lockStep hlock hpend', r_servo hservo, r_acquired hacq hpend]

/-- An offset clears the misses and leaves the run of valid pulses. -/
theorem tmk_offset (s : State) (ref : Nat) (e : Int) (cls ts : Nat) :
    (s.offset ref e cls ts).tmk.validRun = s.tmk.validRun ∧ (s.offset ref e cls ts).tmk.misses = 0 := by
  obtain ⟨n, b, c, hlock⟩ := tmk_lockStep ((acquired (offsetNoted s ref e) ref).servo e) ref e cls ts
  obtain ⟨d, hservo⟩ := tmk_servo (acquired (offsetNoted s ref e) ref) e
  rw [offset_eq, hlock, hservo, tmk_acquired]
  exact ⟨rfl, rfl⟩

/-! ### Pulses (R378, R381) -/

/-- The fields that follow a pulse. -/
def labelFields : List Fld := [TMK.TOD_SEC_LO, TMK.TOD_SEC_HI]

theorem r_afterPulse {g : Fld} (hg : ∀ f ∈ labelFields, g.key 0 0 ≠ f.key 0 0) (s : State) (label : Option Nat) :
    (s.afterPulse label).r g = s.r g := by
  unfold State.afterPulse
  dsimp only
  split
  · rw [r_setTmk, r_w_apart (hg TMK.TOD_SEC_HI (by decide)), r_w_apart (hg TMK.TOD_SEC_LO (by decide))]
  · rfl

theorem tmk_afterPulse (s : State) (label : Option Nat) :
    (s.afterPulse label).tmk = { s.tmk with prevLabel := label, nextLabel := none } := by
  unfold State.afterPulse
  dsimp only
  split
  · rfl
  · rfl

theorem frac_afterPulse (s : State) (label : Option Nat) : (s.afterPulse label).frac = s.frac := by
  unfold State.afterPulse
  dsimp only
  split
  · rfl
  · rfl

/-- The instant of a pulse at the receiver (R378). -/
def pulseInstant (s : State) : Int := (s.now : Int) - s.ri TMK.PPS_DELAY_NS

/-- A pulse that is not too early is noted. -/
def pulseNoted (s : State) : State :=
  (s.setTmk fun k => { k with lastPulse := some (pulseInstant s).toNat }).afterPulse s.pulseLabel

/-- A pulse that is valid is counted. -/
def pulseValid (s : State) : State :=
  (pulseNoted s).setTmk fun k => { k with validRun := k.validRun + 1, gnssOk := true, gnssAt := (pulseNoted s).up }

theorem tmk_pulseNoted (s : State) : (pulseNoted s).tmk = { s.tmk with lastPulse := some (pulseInstant s).toNat, prevLabel := s.pulseLabel, nextLabel := none } :=
  tmk_afterPulse _ _

theorem r_pulseNoted {g : Fld} (hg : ∀ f ∈ labelFields, g.key 0 0 ≠ f.key 0 0) (s : State) : (pulseNoted s).r g = s.r g := r_afterPulse hg _ _

theorem frac_pulseNoted (s : State) : (pulseNoted s).frac = s.frac := frac_afterPulse _ _

/-- The first pulse is noted. -/
theorem gnssPulse_first (h : s.tmk.lastPulse = none) : s.gnssPulse = pulseNoted s := by
  rw [State.gnssPulse, h]
  rfl

theorem gnssPulse_early {p : Nat} (h : s.tmk.lastPulse = some p) (hgap : pulseInstant s - p < 1000000000 - 10000) :
    s.gnssPulse = s.inc TMK.PPS_REJECTS := by
  rw [State.gnssPulse, h]
  exact if_pos hgap

/-- A pulse that is too late is noted and rejected, whether it has a label or not. -/
theorem gnssPulse_late {p : Nat} (h : s.tmk.lastPulse = some p) (hgap : 1000000000 + 10000 < pulseInstant s - p) :
    s.gnssPulse = ((pulseNoted s).inc TMK.PPS_REJECTS).setTmk (fun k => { k with validRun := 0 }) := by
  rw [State.gnssPulse, h]
  refine (if_neg (by change ¬ pulseInstant s - p < _; omega)).trans ?_
  dsimp only
  split
  · exact if_neg (by change ¬ pulseInstant s - p ≤ _; omega)
  · rfl

theorem gnssPulse_valid {p l : Nat} (h : s.tmk.lastPulse = some p) (hlow : 1000000000 - 10000 ≤ pulseInstant s - p)
    (hhigh : pulseInstant s - p ≤ 1000000000 + 10000) (hlabel : s.pulseLabel = some l) (hmode : s.r TMK.REF_MODE = 2) :
    s.gnssPulse = (pulseValid s).offset 1 ((pulseInstant s - (l : Int) * 1000000000) * 65536 + (s.frac.toNat / 2 ^ 24 : Nat)) 0 0 := by
  have huse : (pulseValid s).useGnss = true := by
    have hmode' : (pulseValid s).r TMK.REF_MODE = 2 := (r_pulseNoted (by decide) s).trans hmode
    simp [State.useGnss, hmode']
  have hfrac : (pulseValid s).frac = s.frac := frac_pulseNoted s
  rw [State.gnssPulse, h]
  refine (if_neg (by change ¬ pulseInstant s - p < _; omega)).trans ?_
  rw [← hfrac]
  simp only [pulseValid, pulseNoted, hlabel] at huse ⊢
  refine (if_pos hhigh).trans ?_
  exact if_pos huse

theorem gnssPulse_takes (htime : s.islandOn .time = true) (t : Nat) : exec (.gnssPulse t) s = .next (s.keepK (s.tick t).gnssPulse) :=
  runK_on htime t _

/-- An offset that is not beyond its field is shown in whole nanoseconds (R382). -/
theorem clampI_eq (lo hi x : Int) (h : lo ≤ hi) : clampI lo hi x = max lo (min hi x) := by
  unfold clampI
  split_ifs <;> omega

theorem offset_shows (s : State) (x : Int) (f : BitVec 40) (cls ts : Nat) :
    (s.offset 1 (x * 65536 + (f.toNat / 2 ^ 24 : Nat)) cls ts).r TMK.REF_NOW = 1 ∧
    (s.offset 1 (x * 65536 + (f.toNat / 2 ^ 24 : Nat)) cls ts).ri TMK.OFFSET_LAST = max (-(2 ^ 31)) (min (2 ^ 31 - 1) x) := by
  have hwhole : (x * 65536 + (f.toNat / 2 ^ 24 : Nat)) / 65536 = x := by
    have hlt := f.isLt
    omega
  constructor
  · refine (r_offset (by decide) (by decide) (by decide) (by decide) _ _ _ _ _).trans ?_
    exact r_w_val (f := TMK.REF_NOW) (v := 1) (by decide) (by decide)
  · rw [PageFieldLaws.ri_congr (r_offset (g := TMK.OFFSET_LAST) (by decide) (by decide) (by decide) (by decide) _ _ _ _ _)]
    unfold offsetNoted
    rw [hwhole, clampI_eq _ _ _ (by decide), State.ri, r_setTmk, r_w_apart (by decide), State.wi, r_w_cut _ _ _ _ _ (by decide)]
    exact LoopUpdateLaws.sgn_bits (by omega) (by omega)

theorem gnssPulse_moves (htime : s.islandOn .time = true) :
    let tau : Int := ((s.tick t).now : Int) - s.ri TMK.PPS_DELAY_NS
    (s.tmk.lastPulse = none → Gives (.gnssPulse t) s (fun u => u.tmk.lastPulse = some tau.toNat ∧ u.r TMK.PPS_REJECTS = s.r TMK.PPS_REJECTS)) ∧
    (∀ p : Nat, s.tmk.lastPulse = some p →
      (tau - p < 1000000000 - 10000 → Gives (.gnssPulse t) s (fun u => u.tmk = s.tmk ∧
        u.r TMK.PPS_REJECTS = min (s.r TMK.PPS_REJECTS + 1) (2 ^ 16 - 1))) ∧
      (1000000000 + 10000 < tau - p → Gives (.gnssPulse t) s (fun u => u.tmk.lastPulse = some tau.toNat ∧ u.tmk.validRun = 0 ∧
        u.r TMK.PPS_REJECTS = min (s.r TMK.PPS_REJECTS + 1) (2 ^ 16 - 1))) ∧
      (∀ l : Nat, 1000000000 - 10000 ≤ tau - p → tau - p ≤ 1000000000 + 10000 → s.pulseLabel = some l → s.r TMK.REF_MODE = 2 →
        Gives (.gnssPulse t) s (fun u => u.r TMK.REF_NOW = 1 ∧ u.tmk.validRun = s.tmk.validRun + 1 ∧ u.tmk.misses = 0 ∧
          u.ri TMK.OFFSET_LAST = max (-(2 ^ 31)) (min (2 ^ 31 - 1) (tau - l * 1000000000))))) := by
  intro tau
  have hnoted := tmk_pulseNoted (s.tick t)
  have hrejects : (pulseNoted (s.tick t)).r TMK.PPS_REJECTS = s.r TMK.PPS_REJECTS := r_pulseNoted (by decide) _
  refine ⟨fun hp => ⟨_, gnssPulse_takes htime t, ?first⟩, fun p hp => ⟨fun hgap => ⟨_, gnssPulse_takes htime t, ?early⟩,
    fun hgap => ⟨_, gnssPulse_takes htime t, ?late⟩, fun l hlow hhigh hlabel hmode => ⟨_, gnssPulse_takes htime t, ?valid⟩⟩⟩
  case first =>
    beta_reduce
    rw [gnssPulse_first (s := s.tick t) hp, keepK_tmk, r_keepK, hnoted]
    exact ⟨rfl, hrejects⟩
  case early =>
    beta_reduce
    rw [gnssPulse_early (s := s.tick t) hp hgap]
    exact ⟨rfl, r_inc_same _ _ _ _ _ (by decide)⟩
  case late =>
    beta_reduce
    rw [gnssPulse_late (s := s.tick t) hp hgap, keepK_tmk, r_keepK, setTmk_tmk, inc_tmk, hnoted, r_setTmk, r_inc_same _ _ _ _ _ (by decide), hrejects]
    exact ⟨rfl, rfl, rfl⟩
  case valid =>
    beta_reduce
    obtain ⟨hrun, hmisses⟩ := tmk_offset (pulseValid (s.tick t)) 1
      ((pulseInstant (s.tick t) - (l : Int) * 1000000000) * 65536 + ((s.tick t).frac.toNat / 2 ^ 24 : Nat)) 0 0
    obtain ⟨href, hlast⟩ := offset_shows (pulseValid (s.tick t)) (pulseInstant (s.tick t) - (l : Int) * 1000000000) (s.tick t).frac 0 0
    rw [gnssPulse_valid (s := s.tick t) hp hlow hhigh hlabel hmode, r_keepK, keepK_tmk, MeasurementLaws.ri_keepK, hrun, hmisses]
    refine ⟨href, ?_, rfl, hlast⟩
    rw [pulseValid, setTmk_tmk, hnoted]
    rfl

/-! ### Sentences (R379, R402) -/

/-- A sentence within the ranges of R402 is not clamped. -/
theorem zdaClamp_legal {z : Zda} (hyear : 2000 ≤ z.year) (hyear' : z.year ≤ 2399) (hmonth : 1 ≤ z.month) (hmonth' : z.month ≤ 12)
    (hday : 1 ≤ z.day) (hday' : z.day ≤ monthDays z.year z.month) (hhour : z.hour ≤ 23) (hmin : z.min ≤ 59) (hsec : z.sec ≤ 59) (leap : Bool) :
    zdaClamp leap z = (z, 0) := by
  have hlimit : z.sec ≤ if leap then 60 else 59 := by split <;> omega
  have hy : max 2000 (min z.year 2399) = z.year := by omega
  have hmo : max 1 (min z.month 12) = z.month := by omega
  have hd : max 1 (min z.day (monthDays z.year z.month)) = z.day := by omega
  simp [zdaClamp, hy, hmo, hd, hhour, hmin, hlimit]

theorem exec_todSentence_bad (htime : s.islandOn .time = true) (hsrc : s.r TMK.TOD_SRC = 0) {z : Zda} (hz : z.ok = false) :
    exec (.todSentence t z) s = .next (s.keepK (((s.tick t).inc TMK.TOD_ERRS).raise 8 0 14 (s.tick t).tmkPay)) := by
  refine (runK_on htime t _).trans ?_
  simp [hsrc, hz]

theorem todSentence_bad (htime : s.islandOn .time = true) (hsrc : s.r TMK.TOD_SRC = 0) {z : Zda} (hz : z.ok = false) :
    Gives (.todSentence t z) s (fun u => u.tmk = s.tmk ∧ u.r TMK.TOD_ERRS = min (s.r TMK.TOD_ERRS + 1) (2 ^ 16 - 1)) := by
  refine ⟨_, exec_todSentence_bad htime hsrc hz, ?_⟩
  beta_reduce
  rw [keepK_tmk, r_keepK, raise_tmk, r_raise_apart (by decide), r_inc_same _ _ _ _ _ (by decide)]
  exact ⟨rfl, rfl⟩

/-- A legal sentence that comes in its window after a pulse labels the next one. -/
theorem todSentence_labels (htime : s.islandOn .time = true) (hsrc : s.r TMK.TOD_SRC = 0) {z : Zda} {p : Nat} (hz : z.ok = true)
    (hclamp : zdaClamp (s.on TMK.LEAP61) z = (z, 0)) (hp : s.tmk.lastPulse = some p) (hlow : p + 10000000 ≤ (s.tick t).now)
    (hhigh : (s.tick t).now ≤ p + 990000000) (hlabel : s.r TMK.TOD_LABEL = 1) (hprev : s.tmk.prevLabel = none) :
    Gives (.todSentence t z) s (fun u => u.regs = s.regs ∧
      u.tmk.nextLabel = some (utcSeconds z.year z.month z.day z.hour z.min z.sec + s.r TMK.UTC_OFFSET)) := by
  have hexec : exec (.todSentence t z) s =
      .next (s.keepK ((s.tick t).takeLabel (utcSeconds z.year z.month z.day z.hour z.min z.sec + s.r TMK.UTC_OFFSET))) := by
    refine (runK_on htime t _).trans ?_
    simp [hsrc, hz, hclamp, State.clampData, hp, hlow, hhigh]
  refine ⟨_, hexec, rfl, ?_⟩
  simp [State.takeLabel, hlabel, hprev]

/-! ### Misses and holdover (R381, R383) -/

/-- A second has passed without a pulse of the reference in use. -/
def missed (s : State) : State :=
  s.setTmk fun k => { k with misses := s.tmk.misses + 1, validRun := if s.r TMK.REF_NOW == 1 then 0 else k.validRun }

theorem exec_refMiss (htime : s.islandOn .time = true) (href : s.r TMK.REF_NOW ≠ 0)
    (hlate : s.tmk.refAt + 1000000000 * (s.tmk.misses + 1) + 2000000 ≤ (s.tick t).up) :
    exec (.refMiss t) s = .next (s.keepK (if s.r TMK.MISS_LIMIT ≤ s.tmk.misses + 1 then (missed (s.tick t)).refLost else missed (s.tick t))) := by
  refine (runK_on htime t _).trans ?_
  dsimp only
  rw [if_neg (by rintro (h | h); exacts [href h, absurd hlate (Nat.not_le.mpr h)])]
  rfl

theorem refMiss_counts (htime : s.islandOn .time = true) (href : s.r TMK.REF_NOW ≠ 0)
    (hlate : s.tmk.refAt + 1000000000 * (s.tmk.misses + 1) + 2000000 ≤ (s.tick t).up) (hfew : s.tmk.misses + 1 < s.r TMK.MISS_LIMIT) :
    Gives (.refMiss t) s (fun u => u.tmk.misses = s.tmk.misses + 1 ∧ u.regs = s.regs) := by
  refine ⟨_, exec_refMiss htime href hlate, ?_⟩
  rw [if_neg (Nat.not_le.mpr hfew)]
  exact ⟨rfl, rfl⟩

/-- What a lost reference clears before the state changes. -/
def refForgotten (s : State) : State :=
  (s.w TMK.STEP_RUN 0).setTmk fun k =>
    { k with misses := 0, refAt := s.up, lockRun := 0, gnssOk := k.gnssOk && s.r TMK.REF_NOW != 1,
             chainOk := k.chainOk && s.r TMK.REF_NOW != 2, validRun := if s.r TMK.REF_NOW = 1 then 0 else k.validRun,
             prevLabel := if s.r TMK.REF_NOW = 1 then none else k.prevLabel, nextLabel := if s.r TMK.REF_NOW = 1 then none else k.nextLabel }

theorem r_refForgotten {g : Fld} (h : g.key 0 0 ≠ TMK.STEP_RUN.key 0 0) (s : State) : (refForgotten s).r g = s.r g := r_w_apart h 0

/-- A reference that is lost while LOCKED, with no other to fall back on, ends in HOLDOVER. -/
theorem refLost_holdover (hstate : s.r TMK.STATE = 2) (hmode : s.r TMK.REF_MODE ≠ 1) :
    s.refLost = (refForgotten s).toHoldover.raise 8 0 0 (refForgotten s).toHoldover.tmkPay := by
  have hstate' : (refForgotten s).r TMK.STATE = 2 := (r_refForgotten (by decide) s).trans hstate
  have hmode' : (refForgotten s).r TMK.REF_MODE ≠ 1 := fun h => hmode ((r_refForgotten (by decide) s).symm.trans h)
  have hnext : (if (refForgotten s).r TMK.REF_MODE = 1 ∧ s.r TMK.REF_NOW = 1 ∧ (refForgotten s).chainValid then (refForgotten s).w TMK.REF_NOW 2
      else if (refForgotten s).r TMK.STATE = 2 ∨ ((refForgotten s).r TMK.STATE = 1 ∧ (refForgotten s).tmk.everLocked) then (refForgotten s).toHoldover
      else if (refForgotten s).r TMK.STATE = 1 then (refForgotten s).toFree
      else (refForgotten s).w TMK.REF_NOW 0) = (refForgotten s).toHoldover := by
    rw [if_neg (fun h => hmode' h.1), if_pos (.inl hstate')]
  rw [← hnext]
  rfl

theorem sgn_bits_sgn (x : Nat) : sgn 32 (bits 32 (sgn 32 x) % 2 ^ 32) = sgn 32 x := by
  have hrange : -(2 ^ 31) ≤ sgn 32 x ∧ sgn 32 x < 2 ^ 31 := by
    unfold sgn
    split <;> omega
  exact LoopUpdateLaws.sgn_bits hrange.1 hrange.2

/-- HOLDOVER shows its state, its class, and the rate that the servo has found (R383). -/
theorem toHoldover_shows (s : State) :
    s.toHoldover.r TMK.STATE = 3 ∧ s.toHoldover.r TMK.REF_NOW = 0 ∧
    s.toHoldover.r TMK.CLASS = (if s.r TMK.HOLD_S ≤ s.r TMK.HOLD_CLASS_S then 7 else 187) ∧ s.toHoldover.ri TMK.ADJ_NOW = s.ri TMK.F_NOW := by
  unfold State.toHoldover State.adjToF
  extract_lets fine u start
  have hf : State.ri (u.setTmk fun k => { k with holdAt := start, lockRun := 0, traceable := fine }) TMK.F_NOW = s.ri TMK.F_NOW := by
    refine ri_congr ?_
    simp (disch := decide) only [u, r_setTmk, r_w_apart]
  have hclass : (if fine then 7 else 187) < 2 ^ TMK.CLASS.width := by split <;> decide
  refine ⟨?_, ?_, ?_, ?_⟩
  · simp (disch := decide) only [u, r_wi_apart, r_setTmk, r_w_apart, r_w_val]
  · simp (disch := decide) only [u, r_wi_apart, r_setTmk, r_w_apart, r_w_val]
  · simp (disch := decide) only [u, r_wi_apart, r_setTmk, r_w_apart]
    rw [r_w_val hclass (by decide)]
  · rw [hf, State.ri, State.wi, r_w_cut _ _ _ _ _ (by decide)]
    exact sgn_bits_sgn _

theorem r_missed (s : State) (g : Fld) : (missed s).r g = s.r g := rfl

theorem refMiss_holdover (htime : s.islandOn .time = true) (href : s.r TMK.REF_NOW ≠ 0)
    (hlate : s.tmk.refAt + 1000000000 * (s.tmk.misses + 1) + 2000000 ≤ (s.tick t).up) (hmany : s.r TMK.MISS_LIMIT ≤ s.tmk.misses + 1)
    (hstate : s.r TMK.STATE = 2) (hmode : s.r TMK.REF_MODE ≠ 1) :
    Gives (.refMiss t) s (fun u => u.r TMK.STATE = 3 ∧ u.r TMK.REF_NOW = 0 ∧
      u.r TMK.CLASS = (if s.r TMK.HOLD_S ≤ s.r TMK.HOLD_CLASS_S then 7 else 187) ∧ u.ri TMK.ADJ_NOW = s.ri TMK.F_NOW) := by
  refine ⟨_, exec_refMiss htime href hlate, ?_⟩
  beta_reduce
  have hkept : ∀ g : Fld, g.key 0 0 ≠ TMK.STEP_RUN.key 0 0 → (refForgotten (missed (s.tick t))).r g = s.r g := fun g hg => r_refForgotten hg _
  obtain ⟨hs, hr, hc, ha⟩ := toHoldover_shows (refForgotten (missed (s.tick t)))
  rw [if_pos hmany, refLost_holdover (s := missed (s.tick t)) hstate hmode, r_keepK, r_keepK, r_keepK, MeasurementLaws.ri_keepK,
    r_raise_apart (by decide), r_raise_apart (by decide), r_raise_apart (by decide), ri_congr (r_raise_apart (by decide) _ _)]
  refine ⟨hs, hr, ?_, ?_⟩
  · rw [hc, hkept _ (by decide), hkept _ (by decide)]
  · rw [ha, ri_congr (hkept TMK.F_NOW (by decide))]

/-! ### Holdover degrades (R383) -/

theorem holdDegraded_shows (htime : s.islandOn .time = true) (hstate : s.r TMK.STATE = 3) (hclass : s.r TMK.CLASS = 7)
    (hlong : s.r TMK.HOLD_CLASS_S < (s.tick t).holdS) :
    Gives (.holdDegraded t) s (fun u => u.r TMK.CLASS = 187 ∧ u.r TMK.ACCURACY = 0xFE ∧ u.r TMK.STATE = 3) := by
  refine ⟨_, runK_on htime t _, ?_⟩
  beta_reduce
  have hcond : (s.tick t).r TMK.STATE = 3 ∧ (s.tick t).r TMK.HOLD_CLASS_S < (s.tick t).holdS ∧ (s.tick t).r TMK.CLASS = 7 := ⟨hstate, hlong, hclass⟩
  rw [if_pos hcond, r_keepK, r_keepK, r_keepK, r_raise_apart (by decide), r_raise_apart (by decide), r_raise_apart (by decide),
    r_setTmk, r_setTmk, r_setTmk]
  refine ⟨?_, r_w_val (by decide) (by decide), ?_⟩
  · rw [r_w_apart (by decide), r_w_val (by decide) (by decide)]
  · rw [r_w_apart (by decide), r_w_apart (by decide)]
    exact hstate

/-! ### The step that the servo calls for (R301, R386) -/

theorem timeStep_steps {d : Int} (htime : s.islandOn .time = true) (hpend : s.tmk.pendingStep = some d)
    (hnonneg : 0 ≤ (s.tick t).now * 65536 + d) (hwhole : d % 65536 = 0) :
    Gives (.timeStep t) s (fun u => (u.now : Int) = (s.tick t).now + d / 65536 ∧ u.frac = s.frac ∧ u.ct = (s.tick t).ct ∧
      u.tmk.pendingStep = none ∧ u.sxe.cut = true) := by
  have hexec : exec (.timeStep t) s = .next (s.keepK (((s.tick t).setTmk (fun k => { k with pendingStep := none })).stepBy d 0)) := by
    refine (runK_on htime t _).trans ?_
    simp [hpend]
  have hd : d = d / 65536 * 65536 := by omega
  obtain ⟨-, -, hct, hcut, hnone⟩ := TimeStepLaws.stepBy_clock ((s.tick t).setTmk (fun k => { k with pendingStep := none })) d 0
  obtain ⟨hnow, hfrac, -⟩ := TimeStepLaws.stepBy_whole ((s.tick t).setTmk (fun k => { k with pendingStep := none })) (d / 65536) 0
  rw [← hd] at hnow hfrac
  refine ⟨_, hexec, ?_, hfrac, hct, hnone, hcut⟩
  rw [keepK_now, hnow]
  change ((((s.tick t).now : Int) + d / 65536).toNat : Int) = _
  omega

/-! ### ADJ_MAN and the counters (R383, R395) -/

theorem rateClamp_within {x : Int} (hlow : -(s.r TMK.ADJ_LIM : Int) ≤ x) (hhigh : x ≤ s.r TMK.ADJ_LIM) : s.rateClamp x = x := by
  rw [State.rateClamp, clampI_eq _ _ _ (by omega)]
  omega

/-- A word reads back from a field of 32 bits as the same signed number. -/
theorem ri_wi_word {f : Fld} (hw : f.width = 32) (s : State) (v : Word) : (s.wi f v.toInt).ri f = v.toInt := by
  rw [State.ri, State.wi, r_w_cut _ _ _ _ _ (by omega), hw]
  have hlow := BitVec.le_toInt v
  have hhigh := BitVec.toInt_lt (x := v)
  exact LoopUpdateLaws.sgn_bits (by omega) (by omega)

/-- ADJ_MAN, F and ADJ take one value. -/
def ratesSet (s : State) (v : Word) : State := ((s.wi TMK.ADJ_MAN v.toInt).wi TMK.F_NOW v.toInt).adjToF

theorem ratesSet_shows (s : State) (v : Word) :
    (ratesSet s v).ri TMK.ADJ_MAN = v.toInt ∧ (ratesSet s v).ri TMK.F_NOW = v.toInt ∧ (ratesSet s v).ri TMK.ADJ_NOW = v.toInt := by
  have hf : ((s.wi TMK.ADJ_MAN v.toInt).wi TMK.F_NOW v.toInt).ri TMK.F_NOW = v.toInt := ri_wi_word rfl _ v
  unfold ratesSet State.adjToF
  rw [hf]
  refine ⟨?_, ?_, ri_wi_word rfl _ v⟩
  · rw [ri_congr (r_wi_apart (by decide) _), ri_congr (r_wi_apart (by decide) _), ri_wi_word rfl]
  · rw [ri_congr (r_wi_apart (by decide) _), hf]

theorem exec_adjManWrite (htakes : Takes s r ⟨8, 0⟩) (hmode : s.r TMK.REF_MODE = 0) {v : Word} (hlow : -(s.r TMK.ADJ_LIM : Int) ≤ v.toInt)
    (hhigh : v.toInt ≤ s.r TMK.ADJ_LIM) :
    exec (.adjManWrite t r v) s = .next (s.keepK (ratesSet (writeSeen s t ⟨8, 0⟩) v)) := by
  have hlim : (writeSeen s t ⟨8, 0⟩).r TMK.ADJ_LIM = s.r TMK.ADJ_LIM := r_seen_apart (by decide) t
  have hx : (writeSeen s t ⟨8, 0⟩).rateClamp v.toInt = v.toInt := rateClamp_within (by rw [hlim]; exact hlow) (by rw [hlim]; exact hhigh)
  have hmode' : ((writeSeen s t ⟨8, 0⟩).wi TMK.ADJ_MAN v.toInt).r TMK.REF_MODE = 0 := by
    rw [r_wi_apart (by decide), r_seen_apart (by decide), hmode]
  refine (cmdK_seen htakes t _).trans ?_
  dsimp only
  rw [hx, State.when, bne_self_eq_false, if_neg Bool.false_ne_true, if_pos hmode']
  rfl

theorem adjManWrite_sets (htakes : Takes s r ⟨8, 0⟩) (hmode : s.r TMK.REF_MODE = 0) {v : Word} (hlow : -(s.r TMK.ADJ_LIM : Int) ≤ v.toInt)
    (hhigh : v.toInt ≤ s.r TMK.ADJ_LIM) :
    Gives (.adjManWrite t r v) s (fun u => u.ri TMK.ADJ_MAN = v.toInt ∧ u.ri TMK.F_NOW = v.toInt ∧ u.ri TMK.ADJ_NOW = v.toInt) := by
  refine ⟨_, exec_adjManWrite htakes hmode hlow hhigh, ?_⟩
  beta_reduce
  rw [MeasurementLaws.ri_keepK, MeasurementLaws.ri_keepK, MeasurementLaws.ri_keepK]
  exact ratesSet_shows _ v

theorem tmk_foldl_rstF (fs : List Fld) (s : State) : (fs.foldl (fun s f => s.rstF f 0) s).tmk = s.tmk :=
  List.foldlRecOn (motive := fun u => State.tmk u = s.tmk) _ _ rfl fun _ h _ _ => h

theorem tmkCtrClr_clears (htakes : Takes s r ⟨8, 0⟩) :
    Gives (.tmkCtrClr t r) s (fun u => u.r TMK.PPS_REJECTS = 0 ∧ u.r TMK.TOD_ERRS = 0 ∧ u.r TMK.DREQ_DROPS = 0 ∧
      u.r TMK.PTP_IGNORED = 0 ∧ (∀ i : Fin 4, u.r TMK.CAP_LOST 0 i = 0) ∧ u.tmk = s.tmk) := by
  refine ⟨_, cmdK_seen htakes t _, ?_⟩
  beta_reduce
  have hclear : ∀ f ∈ [TMK.PPS_REJECTS, TMK.TOD_ERRS, TMK.DREQ_DROPS, TMK.PTP_IGNORED, TMK.CAP_LOST], ∀ i < f.n,
      (([TMK.PPS_REJECTS, TMK.TOD_ERRS, TMK.DREQ_DROPS, TMK.PTP_IGNORED, TMK.CAP_LOST].foldl (fun s f => s.rstF f 0)
        (writeSeen s t ⟨8, 0⟩))).r f 0 i = f.rst % 2 ^ 32 := fun f hf i hi => HostQueueLaws.r_foldl_rstF hf hi _
  simp only [r_keepK]
  refine ⟨hclear TMK.PPS_REJECTS (by decide) 0 (by decide), hclear TMK.TOD_ERRS (by decide) 0 (by decide),
    hclear TMK.DREQ_DROPS (by decide) 0 (by decide), hclear TMK.PTP_IGNORED (by decide) 0 (by decide),
    fun i => hclear TMK.CAP_LOST (by decide) i i.isLt, ?_⟩
  rw [keepK_tmk, tmk_foldl_rstF]
  rfl

/-! ### The end of the UTC day (R385) -/

/-- The flags of a leap second are cleared when the day ends. -/
def leapCleared (s : State) : State := (s.w TMK.LEAP61 0).w TMK.LEAP59 0

/-- UTC_OFFSET after the day. -/
def nextOffset (s : State) : Nat :=
  if s.on TMK.LEAP61 then s.r TMK.UTC_OFFSET + 1 else if s.on TMK.LEAP59 then s.r TMK.UTC_OFFSET - 1 else s.r TMK.UTC_OFFSET

/-- UTC_OFFSET takes its value, and the flags of the leap second stand. -/
theorem setUtcOffset_shows (s : State) {v : Nat} (hv : v < 2 ^ 16) :
    (s.setUtcOffset v).r TMK.LEAP61 = s.r TMK.LEAP61 ∧ (s.setUtcOffset v).r TMK.LEAP59 = s.r TMK.LEAP59 ∧
    (s.setUtcOffset v).r TMK.UTC_OFFSET = v :=
  ⟨r_w_apart (by decide) v, r_w_apart (by decide) v, r_w_val hv (by decide)⟩

theorem exec_utcDayEnd (htime : s.islandOn .time = true) (hoff : s.r TMK.UTC_OFFSET < 1000)
    (hday : (s.tick t).utcDaySec = (if s.on TMK.LEAP61 then 1 else if s.on TMK.LEAP59 then 86399 else 0)) :
    exec (.utcDayEnd t) s = .next (s.keepK
      (if s.on TMK.LEAP61 ∨ s.on TMK.LEAP59 then (leapCleared (s.tick t)).setUtcOffset (nextOffset s) else leapCleared (s.tick t))) := by
  refine (runK_on htime t _).trans ?_
  have hmin : min 1000 (s.r TMK.UTC_OFFSET + 1) = s.r TMK.UTC_OFFSET + 1 := by omega
  by_cases hup : s.on TMK.LEAP61
  · simp [hday, hup, nextOffset, leapCleared, hmin]
  · by_cases hdown : s.on TMK.LEAP59
    · simp [hday, hup, hdown, nextOffset, leapCleared]
    · simp [hday, hup, hdown, leapCleared]

theorem utcDayEnd_shows (htime : s.islandOn .time = true) (hoff : s.r TMK.UTC_OFFSET < 1000)
    (hday : (s.tick t).utcDaySec = (if s.on TMK.LEAP61 then 1 else if s.on TMK.LEAP59 then 86399 else 0)) :
    Gives (.utcDayEnd t) s (fun u => u.r TMK.LEAP61 = 0 ∧ u.r TMK.LEAP59 = 0 ∧ u.r TMK.UTC_OFFSET = nextOffset s) := by
  have h61 : (leapCleared (s.tick t)).r TMK.LEAP61 = 0 := by
    rw [leapCleared, r_w_apart (by decide), r_w_val (by decide) (by decide)]
  have h59 : (leapCleared (s.tick t)).r TMK.LEAP59 = 0 := r_w_val (by decide) (by decide)
  have hkept : (leapCleared (s.tick t)).r TMK.UTC_OFFSET = s.r TMK.UTC_OFFSET := by
    rw [leapCleared, r_w_apart (by decide), r_w_apart (by decide), r_tick]
  refine ⟨_, exec_utcDayEnd htime hoff hday, ?_⟩
  beta_reduce
  simp only [r_keepK]
  split
  case isTrue =>
    have hnext : nextOffset s < 2 ^ 16 := by
      unfold nextOffset
      split_ifs <;> omega
    obtain ⟨k61, k59, koff⟩ := setUtcOffset_shows (leapCleared (s.tick t)) hnext
    exact ⟨k61.trans h61, k59.trans h59, koff⟩
  case isFalse hnone =>
    obtain ⟨hup, hdown⟩ := not_or.mp hnone
    refine ⟨h61, h59, ?_⟩
    rw [hkept, nextOffset, if_neg hup, if_neg hdown]

/-- Settles O44: each clause is the branch of its command that the premises choose. -/
theorem timeReference : Obligations.TimeReference := by
  unfold Obligations.TimeReference
  intro t r s
  refine ⟨fun htime => gnssPulse_moves htime, fun htime hsrc => ⟨fun z hz => todSentence_bad htime hsrc hz, ?_⟩,
    fun htime href hlate => ⟨refMiss_counts htime href hlate, refMiss_holdover htime href hlate⟩, holdDegraded_shows,
    fun d htime hpend => timeStep_steps htime hpend,
    fun htakes => ⟨fun hmode v hlow hhigh => adjManWrite_sets htakes hmode hlow hhigh, tmkCtrClr_clears htakes⟩, utcDayEnd_shows⟩
  intro z p hz hyear hyear' hmonth hmonth' hday hday' hhour hmin hsec hp hlow hhigh hlabel hprev
  exact todSentence_labels htime hsrc hz (zdaClamp_legal hyear hyear' hmonth hmonth' hday hday' hhour hmin hsec _) hp hlow hhigh hlabel hprev

end Sys2Proof.TimeReferenceLaws
end

section
/-! Entries of a sparse map: what a put lists and looks up. -/

namespace Sys2Proof.SparseMapLaws

open Sys2Proof Sys2Proof.Machine

variable {α : Type}

theorem mem_sput_same (m : List (Nat × α)) (k : Nat) (v : α) : (k, v) ∈ sput m k v := by
  induction m with
  | nil => exact List.mem_singleton_self _
  | cons p m ih =>
    obtain ⟨j, w⟩ := p
    unfold sput
    split
    · exact List.mem_cons_self
    · split
      · exact List.mem_cons_self
      · exact List.mem_cons_of_mem _ ih

theorem lookup_sput_same (m : List (Nat × α)) (k : Nat) (v : α) : (sput m k v).lookup k = some v := by
  induction m with
  | nil => exact List.lookup_cons_self
  | cons p m ih =>
    obtain ⟨j, w⟩ := p
    unfold sput
    split
    · exact List.lookup_cons_self
    · next hne =>
      split
      · exact List.lookup_cons_self
      · rw [List.lookup_cons, beq_eq_false_iff_ne.mpr hne]
        exact ih

end Sys2Proof.SparseMapLaws
end

section
/-! The timekeeper: time reads, PTP, pulse outputs and captures (R375, R388 to R393). -/

namespace Sys2Proof.TimeServiceLaws

open Sys2Proof Sys2Proof.Machine Sys2Proof.Laws Sys2Proof.LogicPageLaws Sys2Proof.PageFieldLaws

variable {s : State} {t : Nat} {r : Requester} {port out : Fin 12} {o : Fin 4}

/-! ### Reads of the page (R50, R375, R393) -/

/-- A read that latches other words of its page runs its effect when the requester reaches the page. -/
theorem cmdK_read {pg : Page} (hexists : pageExists pg = true) (h : s.reaches r pg = true) (t : Nat) (f : State → State) :
    s.cmdK t (fun s => s.pageRead r pg f) = .next (s.keepK (f (s.tick t))) :=
  congrArg (fun u => Host.Outcome.next (s.keepK u)) (AccessLaws.pageRead_reached (s := s.tick t) hexists h f)

/-- The word that a requester latches. -/
def latchEntry (s : State) (r : Requester) (off v : Nat) : StagedWord := { req := ownerCode r, off := off, val := BitVec.ofNat 32 v, t := s.up }

theorem latchEntry_mem (s : State) (r : Requester) (pg : Page) (off v : Nat) :
    latchEntry s r off v ∈ ((s.latchWord r pg off v).px pg).latched := by
  rw [State.latchWord, px_setPx_same]
  exact List.mem_append_right _ (List.mem_singleton_self _)

/-- A word that is latched stays latched when another word of the page is. -/
theorem latched_stays {s : State} {q : Requester} {pg : Page} {l : StagedWord} {off : Nat} (h : l ∈ (s.px pg).latched) (hoff : l.off ≠ off) (v : Nat) :
    l ∈ ((s.latchWord q pg off v).px pg).latched := by
  rw [State.latchWord, px_setPx_same]
  refine List.mem_append_left _ (List.mem_filter.mpr ⟨h, ?_⟩)
  simp [hoff]

theorem tbNsRead_latches (h : s.reaches r ⟨8, 0⟩ = true) :
    Gives (.tbNsRead t r) s (fun u => sget 0 u.resp (ownerCode r) = BitVec.ofNat 32 ((s.tick t).now % 1000000000) ∧ u.regs = s.regs ∧
      ∃ l ∈ (u.px ⟨8, 0⟩).latched, l.req = ownerCode r ∧ l.off = 0x044 ∧ l.val = BitVec.ofNat 32 ((s.tick t).now / 1000000000 % 2 ^ 32)) :=
  ⟨_, cmdK_read (by decide) h t _, sget_sset_same _ _ _ _, rfl, latchEntry (s.tick t) r 0x044 ((s.tick t).now / 1000000000 % 2 ^ 32),
    latched_stays (latchEntry_mem _ _ _ _ _) (by decide : (0x044 : Nat) ≠ 0x048) _, rfl, rfl, rfl⟩

theorem capNsRead_answers (h : s.reaches r ⟨8, 0⟩ = true) {c : Cap} {cs : List Cap} (hq : s.capQ o = c :: cs) :
    Gives (.capNsRead t r o) s (fun u => sget 0 u.resp (ownerCode r) = BitVec.ofNat 32 c.ns ∧ u.tmk = s.tmk) := by
  have hhead : ((s.tick t).capQ o).head? = some c := congrArg List.head? hq
  refine ⟨_, cmdK_read (by decide) h t _, ?_, rfl⟩
  rw [hhead]
  exact sget_sset_same _ _ _ _

/-- The queue of captures and FILL. -/
theorem setCapQ_shows (s : State) (i : Nat) {q : List Cap} (hq : q.length < 32) :
    (s.setCapQ i q).capQ i = q ∧ (s.setCapQ i q).r TMK.FILL 0 i = q.length :=
  ⟨sget_sset_same _ _ _ _, r_w_val (f := TMK.FILL) hq (by decide)⟩

theorem capSecHiRead_removes (h : s.reaches r ⟨8, 0⟩ = true) {c : Cap} {cs : List Cap} (hq : s.capQ o = c :: cs) (hfew : cs.length < 32) :
    Gives (.capSecHiRead t r o) s (fun u => u.capQ o = cs ∧ u.r TMK.FILL 0 o = cs.length) := by
  have hdrop : (s.capQ o).drop 1 = cs := congrArg (List.drop 1) hq
  have hshows := fun u : State => setCapQ_shows u o (q := (s.capQ o).drop 1) (by rw [hdrop]; exact hfew)
  rw [hdrop] at hshows
  refine ⟨_, cmdK_read (by decide) h t _, ?_⟩
  rw [← hdrop] at hshows ⊢
  exact hshows ((s.tick t).setPx ⟨8, 0⟩ _)

/-! ### The role of grandmaster (R388) -/

@[simp] theorem ptpPort_tick (s : State) (t p : Nat) : (s.tick t).ptpPort p = s.ptpPort p := rfl

@[simp] theorem ownDataset_tick (s : State) (t : Nat) : (s.tick t).ownDataset = s.ownDataset := rfl

theorem gmRole_shows (s : State) {b : Bool} (hmode : s.r TMK.GM_MODE = 0) (hb : (s.tmk.foreign.filter (fun p => s.ptpPort p.1)).isEmpty = b) :
    s.gmRole.r TMK.GM_ROLE = b.toNat ∧ s.gmRole.tmk = s.tmk := by
  unfold State.gmRole
  simp only [hmode, hb]
  split
  · next hsame => exact ⟨hsame.symm, rfl⟩
  · rw [r_raise_apart (by decide), raise_tmk]
    exact ⟨r_wb_same _ _ _ _ _ (by decide) (by decide), rfl⟩

theorem announceRx_better (htime : s.islandOn .time = true) (hen : s.enabled 8 = true) (hport : s.ptpPort port = true) (hmode : s.r TMK.GM_MODE = 0)
    {d : Dataset} (hd : datasetKey d < datasetKey s.ownDataset) :
    Gives (.ptpAnnounceRx t port d) s (fun u => u.r TMK.GM_ROLE = 0) := by
  have hexec : exec (.ptpAnnounceRx t port d) s =
      .next (s.keepK ((s.tick t).setTmk (fun k => { k with foreign := sput k.foreign port.val d })).gmRole) := by
    refine (runK_on htime t _).trans ?_
    simp [hen, hport, hmode, hd]
  refine ⟨_, hexec, ?_⟩
  beta_reduce
  rw [r_keepK]
  refine (gmRole_shows ((s.tick t).setTmk fun k => { k with foreign := sput k.foreign port.val d }) (b := false) hmode ?_).1
  rw [List.isEmpty_eq_false_iff_exists_mem]
  exact ⟨_, List.mem_filter.mpr ⟨SparseMapLaws.mem_sput_same _ port.val d, hport⟩⟩

theorem announceRx_notBetter (htime : s.islandOn .time = true) (hen : s.enabled 8 = true) (hport : s.ptpPort port = true)
    (hmode : s.r TMK.GM_MODE = 0) {d : Dataset} (hd : datasetKey s.ownDataset ≤ datasetKey d) (hnone : s.tmk.foreign = []) :
    Gives (.ptpAnnounceRx t port d) s (fun u => u.r TMK.GM_ROLE = 1) := by
  have hexec : exec (.ptpAnnounceRx t port d) s =
      .next (s.keepK ((s.tick t).setTmk (fun k => { k with foreign := sdel k.foreign port.val })).gmRole) := by
    refine (runK_on htime t _).trans ?_
    simp [hen, hport, hmode, Nat.not_lt.mpr hd]
  refine ⟨_, hexec, ?_⟩
  beta_reduce
  rw [r_keepK]
  refine (gmRole_shows ((s.tick t).setTmk fun k => { k with foreign := sdel k.foreign port.val }) (b := true) hmode ?_).1
  simp [hnone, sdel]

theorem foreignMasterExpiry_returns (htime : s.islandOn .time = true) (hmode : s.r TMK.GM_MODE = 0) (hlast : sdel s.tmk.foreign port.val = []) :
    Gives (.foreignMasterExpiry t port) s (fun u => u.r TMK.GM_ROLE = 1 ∧ u.tmk.foreign = []) := by
  refine ⟨_, runK_on htime t _, ?_⟩
  beta_reduce
  obtain ⟨hrole, htmk⟩ := gmRole_shows ((s.tick t).setTmk (fun k => { k with foreign := sdel k.foreign port.val })) (b := true) hmode (by simp [hlast])
  rw [r_keepK, keepK_tmk, hrole, htmk, setTmk_tmk]
  exact ⟨rfl, hlast⟩

/-! ### PTP messages (R389 to R391) -/

theorem sent_ptpSend (s : State) (p : Nat) (m : PtpMsg) : sget {} (s.ptpSend p m).tmk.sent p = s.ptpFramed m := sget_sset_same _ _ _ _

theorem sent_ptpSend_ne (s : State) {p q : Nat} (h : p ≠ q) (m : PtpMsg) : sget {} (s.ptpSend q m).tmk.sent p = sget {} s.tmk.sent p :=
  sget_sset_ne _ _ _ _ h

theorem sent_ptpFollow (s : State) (p : Nat) (m : PtpMsg) : (s.ptpFollow p m).tmk.sent = s.tmk.sent := rfl

theorem follow_ptpFollow (s : State) (p : Nat) (m : PtpMsg) : sget {} (s.ptpFollow p m).tmk.follow p = s.ptpFramed m := sget_sset_same _ _ _ _

theorem gmOn_intro (hen : s.enabled 8 = true) (hport : s.ptpPort port = true) (hrole : s.on TMK.GM_ROLE = true) : s.gmOn port = true := by
  simp [State.gmOn, hen, hport, hrole]

/-- A Sync goes out, and its follow-up in two-step mode. -/
def synced (s : State) (p : Nat) : State :=
  if s.on TMK.ONE_STEP then s.ptpSend p { kind := 0, origin := s.txStamp p, corr := s.frac.toNat / 2 ^ 24, twoStep := false }
  else (s.ptpSend p { kind := 0, origin := s.txStamp p, corr := s.frac.toNat / 2 ^ 24, twoStep := true }).ptpFollow p
    { kind := 8, origin := s.txStamp p, corr := s.frac.toNat / 2 ^ 24 }

theorem exec_ptpSyncTx (htime : s.islandOn .time = true) (hgm : s.gmOn port = true) :
    exec (.ptpSyncTx t port) s = .next (s.keepK (synced (s.tick t) port)) := by
  refine (runK_on htime t _).trans ?_
  dsimp only
  rw [if_pos (show (s.tick t).gmOn port = true from hgm), synced]
  by_cases hone : s.on TMK.ONE_STEP
  · simp [hone]
  · simp [hone]
    rfl

theorem ptpSyncTx_sends (htime : s.islandOn .time = true) (hgm : s.gmOn port = true) :
    Gives (.ptpSyncTx t port) s (fun u => u.regs = s.regs ∧ sget {} u.tmk.sent port = s.ptpFramed
        { kind := 0, origin := (s.tick t).txStamp port, corr := s.frac.toNat / 2 ^ 24, twoStep := !s.on TMK.ONE_STEP } ∧
      (s.on TMK.ONE_STEP = false → sget {} u.tmk.follow port = s.ptpFramed
        { kind := 8, origin := (s.tick t).txStamp port, corr := s.frac.toNat / 2 ^ 24 })) := by
  refine ⟨_, exec_ptpSyncTx htime hgm, ?_⟩
  unfold synced
  split
  case isTrue hone =>
    have hone' : s.on TMK.ONE_STEP = true := hone
    refine ⟨rfl, ?_, fun h => absurd (hone'.symm.trans h) (by decide)⟩
    rw [hone']
    exact sent_ptpSend (s.tick t) port _
  case isFalse hone =>
    have hone' : s.on TMK.ONE_STEP = false := Bool.eq_false_iff.mpr hone
    refine ⟨rfl, ?_, fun _ => follow_ptpFollow ((s.tick t).ptpSend port _) port _⟩
    rw [hone']
    exact sent_ptpSend (s.tick t) port _

theorem ptpAnnounceTx_sends (htime : s.islandOn .time = true) (hgm : s.gmOn port = true) :
    Gives (.ptpAnnounceTx t port) s (fun u => (sget {} u.tmk.sent port).kind = 11 ∧ u.regs = s.regs ∧
      (sget {} u.tmk.sent port).utc = s.r TMK.UTC_OFFSET ∧ (sget {} u.tmk.sent port).ds = s.ownDataset) := by
  refine ⟨_, runK_on htime t _, ?_⟩
  beta_reduce
  rw [if_pos (show (s.tick t).gmOn port = true from hgm), keepK_tmk, sent_ptpSend]
  exact ⟨rfl, rfl, rfl, rfl⟩

/-- A request that is answered takes its place in the second's count. -/
def requestCounted (s : State) (p n : Nat) : State :=
  s.setTmk fun k => { k with dreq := sset (0, 0) k.dreq p (s.up / 1000000000, n + 1) }

/-- The answer to a Pdelay_Req (R391). -/
def pdelayAnswered (s : State) (p : Nat) : State :=
  let turn := (Config.free 48 s.freeTick).toNat
  let two := !s.on TMK.ONE_STEP
  let s := s.fresh.ptpSend p { kind := 3, origin := s.rxStamp p s.now, corr := if two then 0 else turn, twoStep := two }
  if two then s.ptpFollow p { kind := 10, origin := s.txStamp p, corr := turn } else s

/-- The other port of a redundancy pair. -/
def pairPort (p : Fin 12) : Nat := if p % 2 = 0 then p.val + 1 else p.val - 1

theorem pairPort_ne : ∀ p : Fin 12, p.val ≠ pairPort p := by decide

/-- The answer to a Delay_Req, on both ports of a redundancy pair (R389, R451). -/
def delayAnswered (s : State) (p : Fin 12) : State :=
  let m : PtpMsg := { kind := 9, origin := s.rxStamp p s.now }
  let s := s.ptpSend p m
  if s.r ESW.RED_MODE 0 (p / 2) = 0 then s else s.ptpSend (pairPort p) m

/-- What a request leads to when DREQ_MAX is kept. -/
def requestServed (s : State) (p : Fin 12) (pd : Bool) (src seq n : Nat) : State :=
  let s := if pd then s else s.noteCopy p src seq
  if s.r TMK.DREQ_MAX ≤ n then (s.inc TMK.DREQ_DROPS).raise 8 0 16 s.tmkPay
  else if pd then pdelayAnswered (requestCounted s p n) p else delayAnswered (requestCounted s p n) p

theorem sent_pdelayAnswered (s : State) (p : Nat) :
    (sget {} (pdelayAnswered s p).tmk.sent p).kind = 3 ∧ (sget {} (pdelayAnswered s p).tmk.sent p).origin = s.rxStamp p s.now ∧
    (pdelayAnswered s p).regs = s.regs := by
  unfold pdelayAnswered
  extract_lets turn two u
  have hsent := sent_ptpSend s.fresh p { kind := 3, origin := s.rxStamp p s.now, corr := if two then 0 else turn, twoStep := two }
  split
  · rw [sent_ptpFollow, hsent]
    exact ⟨rfl, rfl, rfl⟩
  · rw [hsent]
    exact ⟨rfl, rfl, rfl⟩

theorem sent_delayAnswered (s : State) (p : Fin 12) :
    (sget {} (delayAnswered s p).tmk.sent p).kind = 9 ∧ (sget {} (delayAnswered s p).tmk.sent p).origin = s.rxStamp p s.now ∧
    (delayAnswered s p).regs = s.regs := by
  unfold delayAnswered
  extract_lets m u
  have hsent : sget {} u.tmk.sent p = s.ptpFramed m := sent_ptpSend s p m
  split
  · rw [hsent]
    exact ⟨rfl, rfl, rfl⟩
  · rw [sent_ptpSend_ne _ (pairPort_ne p), hsent]
    exact ⟨rfl, rfl, rfl⟩

theorem exec_ptpDelayReqRx (htime : s.islandOn .time = true) (hen : s.enabled 8 = true) (hport : s.ptpPort port = true) {pd : Bool} {src seq n sec}
    (hprofile : pd = true ↔ s.r TMK.PROFILE ≠ 0) (hrole : pd = true ∨ s.on TMK.GM_ROLE = true)
    (hfirst : (s.tick t).secondCopy port src.toNat seq.toNat = false) (hcount : sget (0, 0) s.tmk.dreq port = (sec, n))
    (hsec : sec = (s.tick t).up / 1000000000) :
    exec (.ptpDelayReqRx t port ⟨pd, src, seq⟩) s = .next (s.keepK (requestServed (s.tick t) port pd src.toNat seq.toNat n)) := by
  have hkind : (pd != (s.r TMK.PROFILE != 0)) = false := by
    cases pd
    · simpa using hprofile
    · simpa using hprofile
  have hmine : (!pd && !s.on TMK.GM_ROLE) = false := by
    rcases hrole with rfl | hrole
    · rfl
    · simp [hrole]
  have hcopy : ¬ (!pd && (s.tick t).secondCopy port src.toNat seq.toNat) = true := by simp [hfirst]
  have hn : (if (sget (0, 0) s.tmk.dreq port).1 = (s.tick t).up / 1000000000 then (sget (0, 0) s.tmk.dreq port).2 else 0) = n := by
    rw [hcount, if_pos hsec]
  refine (runK_on htime t _).trans (congrArg (fun u => Host.Outcome.next (s.keepK u)) ?_)
  refine (if_neg (by simp [hen])).trans ((if_neg (by simp [hport])).trans ((if_neg ?kind).trans ((if_neg ?mine).trans ((if_neg hcopy).trans ?_))))
  case kind => exact fun h => absurd (hkind.symm.trans h) (by decide)
  case mine => exact fun h => absurd (hmine.symm.trans h) (by decide)
  rw [← hn]
  cases pd
  · rfl
  · rfl

/-- What a request leaves of the messages, the counts of the second and the dropped requests. -/
theorem requestServed_answers (s : State) (p : Fin 12) (pd : Bool) (src seq : Nat) {n : Nat} (hn : n < s.r TMK.DREQ_MAX) :
    (sget {} (requestServed s p pd src seq n).tmk.sent p).kind = (if pd then 3 else 9) ∧
    (sget {} (requestServed s p pd src seq n).tmk.sent p).origin = s.rxStamp p s.now ∧ (requestServed s p pd src seq n).regs = s.regs := by
  unfold requestServed
  cases pd
  · extract_lets u
    rw [if_neg (Nat.not_le.mpr hn : ¬ u.r TMK.DREQ_MAX ≤ n), if_neg Bool.false_ne_true]
    exact sent_delayAnswered (requestCounted u p n) p
  · extract_lets u
    rw [if_neg (Nat.not_le.mpr hn : ¬ u.r TMK.DREQ_MAX ≤ n), if_pos rfl]
    exact sent_pdelayAnswered (requestCounted u p n) p

theorem requestServed_drops (s : State) (p : Fin 12) (pd : Bool) (src seq : Nat) {n : Nat} (hn : s.r TMK.DREQ_MAX ≤ n) :
    (requestServed s p pd src seq n).tmk.sent = s.tmk.sent ∧ (requestServed s p pd src seq n).tmk.dreq = s.tmk.dreq ∧
    (requestServed s p pd src seq n).r TMK.DREQ_DROPS = min (s.r TMK.DREQ_DROPS + 1) (2 ^ 32 - 1) := by
  unfold requestServed
  extract_lets u
  have hregs : u.regs = s.regs ∧ u.tmk.sent = s.tmk.sent ∧ u.tmk.dreq = s.tmk.dreq := by
    unfold u
    split
    · exact ⟨rfl, rfl, rfl⟩
    · exact ⟨rfl, rfl, rfl⟩
  obtain ⟨hr, hsent, hdreq⟩ := hregs
  have hfield : ∀ g : Fld, u.r g = s.r g := fun g => by unfold State.r; rw [hr]
  rw [if_pos (by rw [hfield]; exact hn), raise_tmk, inc_tmk, hsent, hdreq, r_raise_apart (by decide), r_inc_same _ _ _ _ _ (by decide), hfield]
  exact ⟨rfl, rfl, rfl⟩

theorem delayReq_copy (htime : s.islandOn .time = true) (hen : s.enabled 8 = true) (hport : s.ptpPort port = true)
    (hprofile : s.r TMK.PROFILE = 0) {src seq} (hcopy : (s.tick t).secondCopy port src.toNat seq.toNat = true) :
    exec (.ptpDelayReqRx t port ⟨false, src, seq⟩) s = .next (s.keepK (s.tick t)) := by
  refine (runK_on htime t _).trans ?_
  by_cases hrole : s.on TMK.GM_ROLE
  · simp [hen, hport, hprofile, hrole, hcopy]
  · simp [hen, hport, hprofile, hrole]

theorem ptpPdelayReqTx_sends (htime : s.islandOn .time = true) (hen : s.enabled 8 = true) (hport : s.ptpPort port = true)
    (hprofile : s.r TMK.PROFILE ≠ 0) :
    Gives (.ptpPdelayReqTx t port) s (fun u => u.tmk.pdReq.lookup port.val = some ((s.tick t).txStamp port) ∧
      (sget {} u.tmk.sent port).kind = 2 ∧ u.regs = s.regs) := by
  refine ⟨_, runK_on htime t _, ?_⟩
  beta_reduce
  have hsends : (s.tick t).enabled 8 ∧ (s.tick t).ptpPort port ∧ (s.tick t).r TMK.PROFILE ≠ 0 := ⟨hen, hport, hprofile⟩
  rw [if_pos hsends, keepK_tmk, sent_ptpSend]
  exact ⟨SparseMapLaws.lookup_sput_same _ _ _, rfl, rfl⟩

theorem ptpPdelayRespRx_measures (htime : s.islandOn .time = true) (hen : s.enabled 8 = true) {t1 : Nat} (t2 t3 : Nat)
    (hreq : s.tmk.pdReq.lookup port.val = some t1) :
    Gives (.ptpPdelayRespRx t port t2 t3) s (fun u =>
      sget 0 u.tmk.linkDelay port = (((s.tick t).rxStamp port (s.tick t).now - t1) - (t3 - t2)) / 2 ∧ u.regs = s.regs) := by
  refine ⟨_, runK_on htime t _, ?_⟩
  have hreq' : (s.tick t).tmk.pdReq.lookup port.val = some t1 := hreq
  beta_reduce
  rw [if_neg (by simp [hen]), hreq']
  exact ⟨sget_sset_same _ _ _ _, rfl⟩

theorem ptpEventForward_corrects (htime : s.islandOn .time = true) (hen : s.enabled 8 = true) (k : Fin 3) (arrival corr : Nat)
    (hrole : s.on TMK.GM_ROLE = false) (hport : s.ptpPort port = true) (hout : s.ptpPort out = true) :
    Gives (.ptpEventForward t port out k arrival corr) s (fun u => u.regs = s.regs ∧ (sget {} u.tmk.sent out).corr = corr +
      (if s.r TMK.PROFILE ≠ 0 ∧ k = 2 then 0 else ((s.tick t).txStamp out - s.rxStamp port arrival) * 65536) +
      (if s.r TMK.PROFILE ≠ 0 ∧ k = 0 then sget 0 s.tmk.linkDelay port * 65536 else 0)) := by
  refine ⟨_, runK_on htime t _, ?_⟩
  beta_reduce
  have hforward : ¬ ((s.tick t).on TMK.GM_ROLE || !(s.tick t).ptpPort port || !(s.tick t).ptpPort out) = true := by simp [hrole, hport, hout]
  rw [if_neg (by simp [hen]), if_neg hforward, keepK_tmk, sent_ptpSend]
  refine ⟨rfl, ?_⟩
  have h2 : ((s.tick t).r TMK.PROFILE != 0 && k.val == 2) = decide (s.r TMK.PROFILE ≠ 0 ∧ k = 2) := by
    rw [Bool.eq_iff_iff]
    simp [Fin.ext_iff]
  have h0 : ((s.tick t).r TMK.PROFILE != 0 && k.val == 0) = decide (s.r TMK.PROFILE ≠ 0 ∧ k = 0) := by
    rw [Bool.eq_iff_iff]
    simp
  dsimp only [State.ptpFramed]
  rw [h2, h0]
  simp only [decide_eq_true_eq]
  rfl

theorem ptpEventForward_ignored (htime : s.islandOn .time = true) (hen : s.enabled 8 = false) (k : Fin 3) (arrival corr : Nat) :
    Gives (.ptpEventForward t port out k arrival corr) s (fun u => u.tmk = s.tmk ∧
      u.r TMK.PTP_IGNORED = min (s.r TMK.PTP_IGNORED + 1) (2 ^ 32 - 1)) := by
  refine ⟨_, runK_on htime t _, ?_⟩
  beta_reduce
  rw [if_pos (by simp [hen]), r_keepK, r_inc_same _ _ _ _ _ (by decide)]
  exact ⟨rfl, rfl⟩

/-! ### Pulse outputs (R392) -/

theorem outX_setOut (s : State) (o : Nat) (x : OutX) : (s.setOut o x).outX o = x := sget_sset_same _ _ _ _

/-- The record of an output stands in the timekeeper's record. -/
theorem outX_congr {u : State} (h : u.tmk = s.tmk) (o : Nat) : u.outX o = s.outX o  := by
  unfold State.outX
  rw [h]

/-- The first instant that the registers of an output ask for. -/
def pulseStart (s : State) (o : Nat) : Nat := (s.r TMK.START_SEC_LO 0 o + 2 ^ 32 * s.r TMK.START_SEC_HI 0 o) * 1000000000 + s.r TMK.START_NS 0 o

/-- What an output takes at arming. -/
def pulseTaken (s : State) (o : Nat) : OutX :=
  { start := pulseStart s o, period := s.r TMK.PERIOD_NS 0 o, width := s.r TMK.WIDTH_NS 0 o, mode := s.r TMK.OUT_MODE 0 o }

/-- A single pulse that is armed too late is MISSED; one that is in time is ARMED. -/
def armed (s : State) (o : Nat) : State :=
  if pulseStart s o < s.now + 1000 then ((s.setOut o (pulseTaken s o)).w TMK.OUT_STATE 4 0 o).raise 8 0 17 s.tmkPay
  else (s.setOut o { pulseTaken s o with next := pulseStart s o }).w TMK.OUT_STATE 1 0 o

theorem r_seenAt {g : Fld} (hg : 64 ≤ g.off ∧ g.off + (g.n - 1) * g.stride < 4096 ∧ g.lsb < 32) {k : Nat} (hk : k < g.n) :
    (writeSeen s t ⟨8, 0⟩).r g 0 k = s.r g 0 k := r_writeSeen s t _ (FieldPageLaws.inBlock hg hk) 0

theorem pulseStart_seen (o : Fin 4) : pulseStart (writeSeen s t ⟨8, 0⟩) o = pulseStart s o := by
  unfold pulseStart
  rw [r_seenAt (by decide) o.isLt, r_seenAt (by decide) o.isLt, r_seenAt (by decide) o.isLt]

theorem exec_pulseArm (htakes : Takes s r ⟨8, 0⟩) (hmode : s.r TMK.OUT_MODE 0 o = 1) :
    exec (.pulseArm t r o) s = .next (s.keepK (armed (writeSeen s t ⟨8, 0⟩) o)) := by
  have hmode' : (writeSeen s t ⟨8, 0⟩).r TMK.OUT_MODE 0 o = 1 := (r_seenAt (by decide) o.isLt).trans hmode
  refine (cmdK_seen htakes t _).trans (congrArg (fun u => Host.Outcome.next (s.keepK u)) ?_)
  dsimp only
  split
  · rfl
  · next h2 => exact absurd (hmode'.symm.trans h2) (by decide)
  · next h1 _ => exact absurd hmode' h1

theorem pulseArm_late (htakes : Takes s r ⟨8, 0⟩) (hmode : s.r TMK.OUT_MODE 0 o = 1) (hlate : pulseStart s o < (s.tick t).now + 1000) :
    Gives (.pulseArm t r o) s (fun u => u.r TMK.OUT_STATE 0 o = 4) := by
  have hlate' : pulseStart (writeSeen s t ⟨8, 0⟩) o < (writeSeen s t ⟨8, 0⟩).now + 1000 := by rw [pulseStart_seen]; exact hlate
  have hk : ∀ o : Fin 4, TMK.OUT_STATE.key 0 o ≠ pendKey 8 0 17 := by decide
  refine ⟨_, exec_pulseArm htakes hmode, ?_⟩
  beta_reduce
  rw [armed, if_pos hlate', r_keepK, r_raise_apart (hk o), r_w_val (by decide) (by decide)]

theorem pulseArm_inTime (htakes : Takes s r ⟨8, 0⟩) (hmode : s.r TMK.OUT_MODE 0 o = 1) (htime : (s.tick t).now + 1000 ≤ pulseStart s o) :
    Gives (.pulseArm t r o) s (fun u => u.r TMK.OUT_STATE 0 o = 1 ∧ (u.outX o).next = pulseStart s o) := by
  have htime' : ¬ pulseStart (writeSeen s t ⟨8, 0⟩) o < (writeSeen s t ⟨8, 0⟩).now + 1000 := by
    rw [pulseStart_seen]
    exact Nat.not_lt.mpr htime
  refine ⟨_, exec_pulseArm htakes hmode, ?_⟩
  beta_reduce
  rw [armed, if_neg htime', r_keepK, r_w_val (by decide) (by decide)]
  refine ⟨rfl, ?_⟩
  exact (congrArg OutX.next (outX_setOut (writeSeen s t ⟨8, 0⟩) o _)).trans (pulseStart_seen o)

theorem pulseDisarm_ends (htakes : Takes s r ⟨8, 0⟩) :
    Gives (.pulseDisarm t r o) s (fun u => u.r TMK.OUT_STATE 0 o = 0 ∧ (u.outX o).high = false) := by
  refine ⟨_, cmdK_seen htakes t _, ?_⟩
  beta_reduce
  rw [r_keepK, r_w_val (by decide) (by decide)]
  exact ⟨rfl, congrArg OutX.high (outX_setOut (writeSeen s t ⟨8, 0⟩) o { (writeSeen s t ⟨8, 0⟩).outX o with high := false })⟩

/-- The pulse that fires: the output is active until WIDTH_NS has passed. -/
def fired (x : OutX) : OutX := { x with next := if x.mode = 2 then x.next + x.period else x.next, high := true, endAt := x.next + x.width }

theorem exec_pulseFire (htime : s.islandOn .time = true) (hstate : s.r TMK.OUT_STATE 0 o = 1) (hdue : (s.outX o).next ≤ (s.tick t).now)
    (hen : s.enabled 8 = true) :
    exec (.pulseFire t o) s = .next (s.keepK (((((s.tick t).setOut o (fired (s.outX o))).w TMK.OUT_STATE 2 0 o).inc TMK.FIRED 0 o).raise 8 0
      (8 + o.val) (leBytes 8 (stamp (s.outX o).next) ++ [0]))) := by
  have hfires : ((s.tick t).r TMK.OUT_STATE 0 o = 1 ∨ (s.tick t).r TMK.OUT_STATE 0 o = 2) ∧ ((s.tick t).outX o).next ≤ (s.tick t).now ∧
      !(((s.tick t).outX o).mode = 1 ∧ (s.tick t).r TMK.OUT_STATE 0 o = 2) :=
    ⟨.inl hstate, hdue, by simp [hstate]⟩
  refine (runK_on htime t _).trans (congrArg (fun u => Host.Outcome.next (s.keepK u)) ?_)
  exact (if_pos hfires).trans (if_neg (by simp [hen]))

theorem pulseFire_fires (htime : s.islandOn .time = true) (hstate : s.r TMK.OUT_STATE 0 o = 1) (hdue : (s.outX o).next ≤ (s.tick t).now)
    (hen : s.enabled 8 = true) :
    Gives (.pulseFire t o) s (fun u => u.r TMK.OUT_STATE 0 o = 2 ∧ (u.outX o).high = true ∧
      (u.outX o).endAt = (s.outX o).next + (s.outX o).width ∧ u.r TMK.FIRED 0 o = min (s.r TMK.FIRED 0 o + 1) (2 ^ 32 - 1)) := by
  have hk : ∀ o : Fin 4, TMK.OUT_STATE.key 0 o ≠ pendKey 8 0 (8 + o) ∧ TMK.FIRED.key 0 o ≠ pendKey 8 0 (8 + o) ∧
      TMK.OUT_STATE.key 0 o ≠ TMK.FIRED.key 0 o := by decide
  obtain ⟨hstatePend, hfiredPend, happart⟩ := hk o
  have hout : ((s.tick t).setOut o (fired (s.outX o))).outX o = fired (s.outX o) := outX_setOut (s.tick t) o _
  refine ⟨_, exec_pulseFire htime hstate hdue hen, ?_⟩
  beta_reduce
  rw [outX_congr ((keepK_tmk _ _).trans ((raise_tmk _ _ _ _ _ _).trans (inc_tmk _ _ _ _ _))), outX_congr (w_tmk _ _ _ _ _), hout, r_keepK, r_keepK, r_raise_apart hstatePend, r_raise_apart hfiredPend, r_inc_apart happart,
    r_w_val (by decide) (by decide), r_inc_same _ _ _ _ _ (by decide), r_w_apart happart.symm]
  exact ⟨rfl, rfl, rfl, rfl⟩

theorem pulseEnd_ends (htime : s.islandOn .time = true) (hhigh : (s.outX o).high = true) (hdue : (s.outX o).endAt ≤ (s.tick t).now) :
    Gives (.pulseEnd t o) s (fun u => (u.outX o).high = false ∧ ((s.outX o).mode = 1 → u.r TMK.OUT_STATE 0 o = 3)) := by
  have hends : ((s.tick t).outX o).high ∧ ((s.tick t).outX o).endAt ≤ (s.tick t).now := ⟨hhigh, hdue⟩
  have hlow : (((s.tick t).setOut o { (s.tick t).outX o with high := false }).outX o).high = false :=
    congrArg OutX.high (outX_setOut (s.tick t) o { (s.tick t).outX o with high := false })
  refine ⟨_, runK_on htime t _, ?_⟩
  dsimp only
  rw [if_pos hends]
  split
  · refine ⟨hlow, fun _ => ?_⟩
    rw [r_keepK, r_w_val (by decide) (by decide)]
  · next hmode => exact ⟨hlow, fun h => absurd h hmode⟩

/-! ### Captures (R393) -/

theorem exec_captureEdge {fall : Bool} (htime : s.islandOn .time = true) (hen : s.enabled 8 = true) (hcap : s.on TMK.CAP_EN 0 o = true)
    (hedge : s.r TMK.CAP_EDGE 0 o = 2) :
    exec (.captureEdge t o fall) s = .next (s.keepK (
      if (s.capQ o).length < 16 then
        ((s.tick t).setCapQ o (s.capQ o ++ [{ sec := (s.tick t).now / 1000000000, ns := (s.tick t).now % 1000000000, fall := fall }])).raise 8 0
          (4 + o.val) (leBytes 8 (stamp (s.tick t).now) ++ [fall.toNat])
      else ((s.tick t).inc TMK.CAP_LOST 0 o).raise 8 0 15 (s.tick t).tmkPay)) := by
  have hsel : ((s.tick t).enabled 8 && (s.tick t).on TMK.CAP_EN 0 o && ((s.tick t).r TMK.CAP_EDGE 0 o == 2 ||
      ((s.tick t).r TMK.CAP_EDGE 0 o == 1) == fall)) = true := by simp [hen, hcap, hedge]
  exact (runK_on htime t _).trans (congrArg (fun u => Host.Outcome.next (s.keepK u)) (if_pos hsel))

theorem captureEdge_queues {fall : Bool} (htime : s.islandOn .time = true) (hen : s.enabled 8 = true) (hcap : s.on TMK.CAP_EN 0 o = true)
    (hedge : s.r TMK.CAP_EDGE 0 o = 2) (hroom : (s.capQ o).length < 16) :
    Gives (.captureEdge t o fall) s (fun u => u.r TMK.FILL 0 o = (s.capQ o).length + 1 ∧ u.capQ o = s.capQ o ++
      [{ sec := (s.tick t).now / 1000000000, ns := (s.tick t).now % 1000000000, fall := fall }]) := by
  have hk : ∀ o : Fin 4, TMK.FILL.key 0 o ≠ pendKey 8 0 (4 + o) := by decide
  obtain ⟨hq, hfill⟩ := setCapQ_shows (s.tick t) o
    (q := s.capQ o ++ [{ sec := (s.tick t).now / 1000000000, ns := (s.tick t).now % 1000000000, fall := fall }])
    (by rw [List.length_append, List.length_singleton]; omega)
  refine ⟨_, exec_captureEdge htime hen hcap hedge, ?_⟩
  beta_reduce
  rw [if_pos hroom, r_keepK, r_raise_apart (hk o), hfill, List.length_append, List.length_singleton]
  refine ⟨rfl, ?_⟩
  rw [State.capQ, keepK_tmk, raise_tmk]
  exact hq

theorem captureEdge_lost {fall : Bool} (htime : s.islandOn .time = true) (hen : s.enabled 8 = true) (hcap : s.on TMK.CAP_EN 0 o = true)
    (hedge : s.r TMK.CAP_EDGE 0 o = 2) (hfull : 16 ≤ (s.capQ o).length) :
    Gives (.captureEdge t o fall) s (fun u => u.capQ o = s.capQ o ∧ u.r TMK.CAP_LOST 0 o = min (s.r TMK.CAP_LOST 0 o + 1) (2 ^ 16 - 1)) := by
  have hk : ∀ o : Fin 4, TMK.CAP_LOST.key 0 o ≠ pendKey 8 0 15 := by decide
  refine ⟨_, exec_captureEdge htime hen hcap hedge, ?_⟩
  beta_reduce
  rw [if_neg (Nat.not_lt.mpr hfull), r_keepK, r_raise_apart (hk o), r_inc_same _ _ _ _ _ (by decide), State.capQ, keepK_tmk, raise_tmk]
  exact ⟨rfl, rfl⟩

/-- Settles O46: each clause is the branch of its command that the premises choose. -/
theorem timeServices : Obligations.TimeServices := by
  unfold Obligations.TimeServices
  intro t r port out o s
  refine ⟨fun h => ⟨tbNsRead_latches h, fun c cs hq => ⟨capNsRead_answers h hq, capSecHiRead_removes h hq⟩⟩, fun htime hen => ?ptp,
    fun k arrival corr htime hen => ptpEventForward_ignored htime hen k arrival corr,
    fun htime hmode hlast => foreignMasterExpiry_returns htime hmode hlast,
    fun htakes => ⟨fun hmode => ⟨pulseArm_late htakes hmode, pulseArm_inTime htakes hmode⟩, pulseDisarm_ends htakes⟩, pulseFire_fires,
    pulseEnd_ends, fun fall htime hen hcap hedge => ⟨captureEdge_queues htime hen hcap hedge, captureEdge_lost htime hen hcap hedge⟩⟩
  case ptp =>
    refine ⟨fun hport hmode d => ⟨announceRx_better htime hen hport hmode, announceRx_notBetter htime hen hport hmode⟩,
      fun hport hrole => ⟨ptpSyncTx_sends htime (gmOn_intro hen hport hrole), ptpAnnounceTx_sends htime (gmOn_intro hen hport hrole)⟩, ?request,
      fun src seq hport hprofile hcopy => ⟨_, delayReq_copy htime hen hport hprofile hcopy, rfl, rfl⟩,
      fun hport hprofile => ptpPdelayReqTx_sends htime hen hport hprofile, fun t1 t2 t3 hreq => ptpPdelayRespRx_measures htime hen t2 t3 hreq,
      fun k arrival corr hrole hport hout => ptpEventForward_corrects htime hen k arrival corr hrole hport hout⟩
    case request =>
      intro pd src seq n sec hport hprofile hrole hfirst hcount hsec
      have hexec := exec_ptpDelayReqRx htime hen hport hprofile hrole hfirst hcount hsec
      refine ⟨fun hn => ⟨_, hexec, ?answered⟩, fun hn => ⟨_, hexec, ?dropped⟩⟩
      case answered =>
        obtain ⟨hkind, horigin, hregs⟩ := requestServed_answers (s.tick t) port pd src.toNat seq.toNat hn
        exact ⟨hkind, horigin, congrArg (fun m => (sget (BitVec.ofNat 32 TMK.DREQ_DROPS.rst) m (TMK.DREQ_DROPS.key 0 0)).toNat) hregs⟩
      case dropped => exact requestServed_drops (s.tick t) port pd src.toNat seq.toNat hn

end Sys2Proof.TimeServiceLaws
end

section
/-! Fields that stand at different places of their pages: an operation on the one leaves the other in all instances of every block (R46, R51). -/

namespace Sys2Proof.FieldPlaceLaws

open Sys2Proof Sys2Proof.Machine Sys2Proof.Laws Sys2Proof.PageFieldLaws

variable {s : State} {f g : Fld} {code inst j i k : Nat}

/-- The place of a key within its page. -/
def place (key : Nat) : Nat := key % 2 ^ 17

theorem ne_of_place {a b : Nat} (h : place a ≠ place b) : a + inst * 2 ^ 17 ≠ b + j * 2 ^ 17 := by
  unfold place at h
  omega

theorem r_w_place (h : place (g.key 0 k) ≠ place (f.key 0 i)) (v : Nat) : (s.w f v j i).r g inst k = s.r g inst k := by
  refine r_w_ne _ _ _ _ _ _ _ _ ?_
  rw [key_shift g, key_shift f]
  exact ne_of_place h

theorem r_wb_place (h : place (g.key 0 k) ≠ place (f.key 0 i)) (b : Bool) : (s.wb f b j i).r g inst k = s.r g inst k := r_w_place h _

theorem r_wi_place (h : place (g.key 0 k) ≠ place (f.key 0 i)) (v : Int) : (s.wi f v j i).r g inst k = s.r g inst k := r_w_place h _

theorem r_inc_place (h : place (g.key 0 k) ≠ place (f.key 0 i)) (n : Nat) : (s.inc f j i n).r g inst k = s.r g inst k := r_w_place h _

theorem r_raise_place {bit : Nat} (h : place (g.key 0 k) ≠ place (pendKey code 0 bit)) (p q : List Nat) :
    (s.raise code j bit p q).r g inst k = s.r g inst k := by
  refine r_raise _ _ _ _ _ _ _ _ _ ?_
  rw [key_shift g, pendKey_shift]
  exact ne_of_place h

theorem r_setRaw_place {bit : Nat} (hpend : place (g.key 0 k) ≠ place (pendKey code 0 bit)) (hraw : place (g.key 0 k) ≠ place (rawKey code 0 bit))
    (b : Bool) (p q : List Nat) : (s.setRaw code j bit b p q).r g inst k = s.r g inst k := by
  refine r_setRaw _ _ _ _ _ _ _ _ _ _ ?_ ?_
  · rw [key_shift g, pendKey_shift]
    exact ne_of_place hpend
  · rw [key_shift g, rawKey_shift]
    exact ne_of_place hraw

end Sys2Proof.FieldPlaceLaws
end

section
/-! The Ethernet switch: frames that a port discards, and frames that it forwards (R438, R441, R443, R445, R448). -/

namespace Sys2Proof.SwitchFrameLaws

open Sys2Proof Sys2Proof.Machine Sys2Proof.Laws Sys2Proof.LogicPageLaws Sys2Proof.PageFieldLaws Sys2Proof.FieldPlaceLaws

variable {s u v : State} {t : Nat} {r : Requester} {port : Fin 12}

/-! ### A frame that a port discards -/

/-- The port has heard a frame. -/
def heardFrame (s : State) (port : Nat) : State := s.setEsw fun k => { k with heard := sset 0 k.heard port s.up }

/-- A discarded frame counts. -/
def frameRefused (s : State) (port : Nat) : State := ((heardFrame s port).inc ETH.RX_ERRS port).raise 26 port 1 []

theorem exec_ethFrameRx_discards {f : EthFrame} (hnet : s.islandOn .net = true) (hup : s.portUp port = true)
    (hbad : f.fcsOk = false ∨ f.len < 64 ∨ s.r ETH.MAX_FRAME port < f.len) :
    ∃ b : Bool, exec (.ethFrameRx t port f) s =
      .next (s.keepK (if b then (frameRefused (s.tick t) port).inc ESW.STOMPED else frameRefused (s.tick t) port)) := by
  have hcond : (!f.fcsOk) = true ∨ f.len < 64 ∨ (heardFrame (s.tick t) port).r ETH.MAX_FRAME port < f.len ∨ f.pause = true := by
    rcases hbad with h | h | h
    · exact .inl (by rw [h]; rfl)
    · exact .inr (.inl h)
    · exact .inr (.inr (.inl h))
  have hnotDown : ¬ (!(s.tick t).portUp port) = true := by
    rw [show (s.tick t).portUp port = true from hup]
    decide
  refine ⟨decide ((!f.fcsOk) = true ∧ 64 ≤ f.len ∧ (frameRefused (s.tick t) port).enabled 27 ∧ (frameRefused (s.tick t) port).cutThrough port f), ?_⟩
  simp only [decide_eq_true_eq]
  exact (runK_on hnet t _).trans (congrArg (fun u => Host.Outcome.next (s.keepK u)) ((if_neg hnotDown).trans (if_pos hcond)))

theorem frameRefused_shows (s : State) (port : Nat) :
    (frameRefused s port).r ETH.RX_ERRS port = min (s.r ETH.RX_ERRS port + 1) (2 ^ 32 - 1) ∧
    (frameRefused s port).r ETH.RX_FRAMES port = s.r ETH.RX_FRAMES port ∧ (frameRefused s port).esw = (heardFrame s port).esw := by
  unfold frameRefused
  rw [r_raise_apart (by decide), r_raise_apart (by decide), r_inc_same _ _ _ _ _ (by decide), r_inc_apart (by decide), raise_esw]
  exact ⟨rfl, rfl, rfl⟩

/-- Settles O51: the frame counts in RX_ERRS, and nothing of it is kept. -/
theorem frameDiscards : Obligations.FrameDiscards := by
  unfold Obligations.FrameDiscards
  intro t port f s hnet hup hbad
  obtain ⟨b, hexec⟩ := exec_ethFrameRx_discards (t := t) hnet hup hbad
  obtain ⟨herrs, hframes, hesw⟩ := frameRefused_shows (s.tick t) port
  refine ⟨_, hexec, ?_⟩
  beta_reduce
  rw [r_keepK, r_keepK, keepK_esw]
  cases b
  case false =>
    rw [if_neg Bool.false_ne_true, herrs, hframes, hesw]
    exact ⟨rfl, rfl, rfl, rfl, rfl⟩
  case true =>
    rw [if_pos rfl, r_inc_place (by decide), r_inc_place (by decide), inc_esw, herrs, hframes, hesw]
    exact ⟨rfl, rfl, rfl, rfl, rfl⟩

/-! ### What sending leaves -/

/-- The table, the learning queue, the numbers of sent frames and the counts of received frames stand. -/
def Sends (s u : State) : Prop :=
  u.esw.fdb = s.esw.fdb ∧ u.esw.learnQ = s.esw.learnQ ∧ u.esw.sendSeq = s.esw.sendSeq ∧ ∀ p, u.r ETH.RX_FRAMES p = s.r ETH.RX_FRAMES p

theorem sends_refl (s : State) : Sends s s := ⟨rfl, rfl, rfl, fun _ => rfl⟩

theorem Sends.trans (h : Sends s u) (k : Sends u v) : Sends s v := by
  obtain ⟨hfdb, hlearn, hseq, hrx⟩ := h
  obtain ⟨kfdb, klearn, kseq, krx⟩ := k
  exact ⟨kfdb.trans hfdb, klearn.trans hlearn, kseq.trans hseq, fun p => (krx p).trans (hrx p)⟩

theorem sends_inc {f : Fld} (h : place (ETH.RX_FRAMES.key 0 0) ≠ place (f.key 0 0)) (s : State) (p : Nat) : Sends s (s.inc f p) :=
  ⟨rfl, rfl, rfl, fun _ => r_inc_place h 1⟩

theorem sends_raise {c b : Nat} (h : place (ETH.RX_FRAMES.key 0 0) ≠ place (pendKey c 0 b)) (s : State) (i : Nat) (p q : List Nat) :
    Sends s (s.raise c i b p q) := by
  refine ⟨?_, ?_, ?_, fun _ => r_raise_place h p q⟩
  all_goals rw [raise_esw]

/-- An idle port that begins to send keeps its queues, too. -/
theorem startTx_esw (s : State) (p : Nat) :
    (s.startTx p).regs = s.regs ∧ ∃ w, (s.startTx p).esw = { s.esw with wire := w } := by
  unfold State.startTx
  split
  · split
    · exact ⟨rfl, _, rfl⟩
    · exact ⟨rfl, _, rfl⟩
  · exact ⟨rfl, _, rfl⟩

theorem r_startTx (s : State) (p : Nat) (g : Fld) (j k : Nat) : (s.startTx p).r g j k = s.r g j k := by
  unfold State.r
  rw [(startTx_esw s p).1]

theorem sends_startTx (s : State) (p : Nat) : Sends s (s.startTx p) := by
  obtain ⟨-, w, hesw⟩ := startTx_esw s p
  refine ⟨?_, ?_, ?_, fun _ => r_startTx s p _ _ _⟩
  all_goals rw [hesw]

theorem sends_enqueue (s : State) (p c : Nat) (f : EthFrame) : Sends s (s.enqueue p c f) := by
  unfold State.enqueue
  split
  · exact Sends.trans ⟨rfl, rfl, rfl, fun _ => rfl⟩ (sends_startTx _ p)
  · split
    · exact sends_inc (by decide) s p
    · exact sends_refl s

theorem sends_forward (s : State) (p pcp fid : Nat) (ports : BitVec 13) (f : EthFrame) : Sends s (s.forward p pcp fid ports f) := by
  refine List.foldlRecOn (motive := Sends s) _ _ (sends_refl s) fun u hu q _ => ?_
  split
  · exact hu.trans (sends_enqueue _ _ _ _)
  · exact hu

/-- The buckets of an ingress port are no part of what a frame teaches. -/
theorem sends_buckets (s : State) (tokens refillAt : List (Nat × Nat)) :
    Sends s (s.setEsw fun k => { k with tokens := tokens, refillAt := refillAt }) := ⟨rfl, rfl, rfl, fun _ => rfl⟩

theorem sends_flood (s : State) (p pcp fid : Nat) (ports : BitVec 13) (f : EthFrame) : Sends s (s.flood p pcp fid ports f) := by
  have hrefill : Sends s (s.refill p) := sends_buckets s _ _
  unfold State.flood
  extract_lets u spent
  split
  · have hspent : Sends u (u.setEsw fun k => { k with tokens := sset 0 k.tokens p (spent + 1) }) := sends_buckets u _ _
    exact hrefill.trans (hspent.trans (sends_forward _ _ _ _ _ _))
  · have hdrop : Sends u (u.inc ETH.FLOOD_DROPS p) := sends_inc (by decide) u p
    exact hrefill.trans (hdrop.trans (sends_raise (by decide) _ _ _ _))

/-! ### A good frame -/

/-- An address that is not known waits to be learnt (R445, R446). -/
theorem learn_waits {p mac fid : Nat} (hmulti : isMulticast mac = false) (hnew : fdbFind s.esw.fdb mac fid = none) (hroom : s.on ESW.TABLE_FULL = false)
    (hq : s.esw.learnQ.length < 17) : s.learn p mac fid = s.setEsw (fun k => { k with learnQ := k.learnQ ++ [(mac, fid, p)] }) := by
  rw [State.learn, hmulti, hnew]
  simp [hroom, hq]

/-- A frame that no block of the device takes is learnt, and then forwarded or flooded. -/
theorem switchFrame_learns {p : Nat} {f : EthFrame} (hptp : isPtp f = false) (hsxe : f.etype ≠ s.r SXE.ETHERTYPE) (hred : s.r ESW.RED_MODE 0 (p / 2) ≠ 2) :
    Sends (s.learn p f.src (s.frameTag p f).1) (s.switchFrame p f) := by
  have hhsr : (s.r ESW.RED_MODE 0 (p / 2) == 2) = false := beq_eq_false_iff_ne.mpr hred
  have htype : (f.etype == s.r SXE.ETHERTYPE) = false := beq_eq_false_iff_ne.mpr hsxe
  unfold State.switchFrame
  simp only [hhsr, hptp, Bool.false_and, Bool.false_eq_true, if_false, htype]
  split
  · exact sends_flood _ _ _ _ _ _
  · exact sends_forward _ _ _ _ _ _

/-- The port counts a good frame. -/
def frameCounted (s : State) (port : Nat) : State := (heardFrame s port).inc ETH.RX_FRAMES port

theorem exec_ethFrameRx_good {f : EthFrame} (hnet : s.islandOn .net = true) (hup : s.portUp port = true) (hfcs : f.fcsOk = true) (hlong : 64 ≤ f.len)
    (hshort : f.len ≤ s.r ETH.MAX_FRAME port) (hpause : f.pause = false) (hen : s.enabled 27 = true) (hred : f.redSeq = none) :
    exec (.ethFrameRx t port f) s = .next (s.keepK ((frameCounted (s.tick t) port).switchFrame port f)) := by
  have hnotDown : ¬ (!(s.tick t).portUp port) = true := by
    rw [show (s.tick t).portUp port = true from hup]
    decide
  have hgood : ¬ ((!f.fcsOk) = true ∨ f.len < 64 ∨ (heardFrame (s.tick t) port).r ETH.MAX_FRAME port < f.len ∨ f.pause = true) := by
    have hmax : ¬ (heardFrame (s.tick t) port).r ETH.MAX_FRAME port < f.len := Nat.not_lt.mpr hshort
    simp [hfcs, hmax, hpause, Nat.not_lt.mpr hlong]
  have hswitch : ¬ (!(frameCounted (s.tick t) port).enabled 27) = true := by
    have hen' : (frameCounted (s.tick t) port).enabled 27 = s.enabled 27 :=
      congrArg (· != 0) (r_inc_place (s := heardFrame (s.tick t) port) (f := ETH.RX_FRAMES) (g := hdr HDR.ENABLE ⟨27, 0⟩) (inst := 0) (j := port) (i := 0)
        (k := 0) (by decide) 1)
    rw [hen', hen]
    decide
  refine (runK_on hnet t _).trans (congrArg (fun u => Host.Outcome.next (s.keepK u)) ?_)
  refine (if_neg hnotDown).trans ((if_neg hgood).trans ((if_neg hswitch).trans ?_))
  simp only [State.redundancy, hred, if_true]
  rfl

/-- The settings that a frame is judged by are none of its count. -/
theorem rxFrames_apart : ∀ p : Fin 12, ETH.PVID.key p 0 ≠ ETH.RX_FRAMES.key p 0 ∧ SXE.ETHERTYPE.key 0 0 ≠ ETH.RX_FRAMES.key p 0 ∧
    ESW.RED_MODE.key 0 (p / 2) ≠ ETH.RX_FRAMES.key p 0 ∧ ESW.TABLE_FULL.key 0 0 ≠ ETH.RX_FRAMES.key p 0 := by decide

theorem ethFrameRx_learns {f : EthFrame} (hnet : s.islandOn .net = true) (hup : s.portUp port = true) (hfcs : f.fcsOk = true) (hlong : 64 ≤ f.len)
    (hshort : f.len ≤ s.r ETH.MAX_FRAME port) (hpause : f.pause = false) (hen : s.enabled 27 = true) (hseq : f.redSeq = none)
    (hptp : isPtp f = false) (hsxe : f.etype ≠ s.r SXE.ETHERTYPE) (hred : s.r ESW.RED_MODE 0 (port / 2) ≠ 2) (hmulti : isMulticast f.src = false)
    (hnew : fdbFind s.esw.fdb f.src (f.vid.getD (s.r ETH.PVID port)) = none) (hroom : s.on ESW.TABLE_FULL = false) (hq : s.esw.learnQ.length < 17) :
    Gives (.ethFrameRx t port f) s (fun u => u.r ETH.RX_FRAMES port = min (s.r ETH.RX_FRAMES port + 1) (2 ^ 32 - 1) ∧
      u.esw.learnQ = s.esw.learnQ ++ [(f.src, f.vid.getD (s.r ETH.PVID port), port.val)] ∧ u.esw.fdb = s.esw.fdb) := by
  obtain ⟨hpvid, htype, hmode, hfull⟩ := rxFrames_apart port
  have hkept : ∀ (g : Fld) j k, g.key j k ≠ ETH.RX_FRAMES.key port 0 → (frameCounted (s.tick t) port).r g j k = s.r g j k :=
    fun g j k hg => r_inc_ne _ _ _ _ _ _ _ _ hg
  have hfid : ((frameCounted (s.tick t) port).frameTag port f).1 = f.vid.getD (s.r ETH.PVID port) :=
    congrArg (f.vid.getD ·) (hkept ETH.PVID port 0 hpvid)
  have hsends := switchFrame_learns (s := frameCounted (s.tick t) port) (p := port) hptp (by rw [hkept _ _ _ htype]; exact hsxe)
    (by rw [hkept _ _ _ hmode]; exact hred)
  rw [hfid, learn_waits (s := frameCounted (s.tick t) port) hmulti hnew (by rw [State.on, hkept _ _ _ hfull]; exact hroom) hq] at hsends
  obtain ⟨hfdb, hlearn, -, hrx⟩ := hsends
  refine ⟨_, exec_ethFrameRx_good hnet hup hfcs hlong hshort hpause hen hseq, ?_⟩
  beta_reduce
  rw [r_keepK, keepK_esw, hrx, hlearn, hfdb, r_setEsw]
  exact ⟨r_inc_same _ _ _ _ _ (by decide), rfl, rfl⟩

end Sys2Proof.SwitchFrameLaws
end

section
/-! The Ethernet switch: egress, links, the forwarding table, flood tokens and redundancy (R443, R445 to R448, R450, R453, R454). -/

namespace Sys2Proof.SwitchLaws

open Sys2Proof Sys2Proof.Machine Sys2Proof.Laws Sys2Proof.LogicPageLaws Sys2Proof.PageFieldLaws Sys2Proof.FieldPlaceLaws Sys2Proof.SwitchFrameLaws

variable {s : State} {t : Nat} {r : Requester} {port : Fin 12} {pair : Fin 6}

/-! ### Egress and links (R443, R452, R453) -/

/-- The next frame of a port is the first of its class there. -/
theorem nextFrame_first {p : Nat} {q : Nat × Nat × EthFrame} (h : s.nextFrame p = some q) :
    s.esw.egress.find? (fun x => x.1 == p && x.2.1 == q.2.1) = some q := by
  obtain ⟨c, -, hc⟩ := List.exists_of_findSome?_eq_some h
  have hq := List.find?_some hc
  simp only [Bool.and_eq_true, beq_iff_eq] at hq
  rw [← hq.2] at hc
  exact hc

/-- A port that sends, or begins to, has its frame on the wire. -/
theorem onWire_startTx {p : Nat} {q : Nat × Nat × EthFrame} (hup : s.portUp p = true)
    (h : s.onWire p = some q ∨ (s.onWire p = none ∧ s.nextFrame p = some q)) : (s.startTx p).onWire p = some q := by
  unfold State.startTx
  rcases h with h | ⟨hidle, hnext⟩
  · rw [h]
    simpa using h
  · rw [hup, hidle, hnext]
    simp only [Option.isNone_none, Bool.and_self, if_true]
    rw [State.onWire, setEsw_esw, sget_sset_same]
    simpa using nextFrame_first hnext

/-- The egress queues after a frame has left. -/
theorem egress_startTx (s : State) (p : Nat) : (s.startTx p).esw.egress = s.esw.egress := by
  obtain ⟨-, w, hesw⟩ := startTx_esw s p
  rw [hesw]

theorem portUp_startTx (s : State) (p q : Nat) : (s.startTx p).portUp q = s.portUp q := by
  unfold State.portUp State.enabled State.h State.on
  simp only [r_startTx]

theorem exec_egressTx {q : Nat × Nat × EthFrame} (hnet : s.islandOn .net = true) (hup : s.portUp port = true)
    (h : s.onWire port = some q ∨ (s.onWire port = none ∧ s.nextFrame port = some q)) :
    exec (.egressTx t (port.castLE (by decide))) s =
      .next (s.keepK (((((s.tick t).startTx port).endTx port q).inc ETH.TX_FRAMES port).startTx port)) := by
  have hwire : ((s.tick t).startTx port).onWire port = some q := onWire_startTx (s := s.tick t) hup h
  have hup' : ¬ (!((s.tick t).startTx port).portUp port) = true := by
    rw [portUp_startTx, show (s.tick t).portUp port = true from hup]
    decide
  refine (runK_on hnet t _).trans (congrArg (fun u => Host.Outcome.next (s.keepK u)) ?_)
  simp only [Fin.val_castLE, hwire]
  rw [if_neg hup', if_pos port.isLt]

theorem egressTx_sends {q : Nat × Nat × EthFrame} (hnet : s.islandOn .net = true) (hup : s.portUp port = true)
    (h : s.onWire port = some q ∨ (s.onWire port = none ∧ s.nextFrame port = some q)) :
    Gives (.egressTx t (port.castLE (by decide))) s (fun u => u.esw.egress = s.esw.egress.erase q ∧
      u.r ETH.TX_FRAMES port = min (s.r ETH.TX_FRAMES port + 1) (2 ^ 32 - 1)) := by
  have hegress : (((s.tick t).startTx port).endTx port q).esw.egress = s.esw.egress.erase q :=
    congrArg (List.erase · q) (egress_startTx (s.tick t) port)
  have hframes : (((s.tick t).startTx port).endTx port q).r ETH.TX_FRAMES port = s.r ETH.TX_FRAMES port := r_startTx (s.tick t) port _ _ _
  refine ⟨_, exec_egressTx hnet hup h, ?_⟩
  beta_reduce
  rw [keepK_esw, r_keepK, egress_startTx, r_startTx, inc_esw, hegress, r_inc_same _ _ _ _ _ (by decide), hframes]
  exact ⟨rfl, rfl⟩

/-- The link of a port shows its state and its speed. -/
theorem linkShown (s : State) (p : Nat) (up : Bool) (sp : Nat) (hsp : sp < 8) (pay : List Nat) :
    ((((s.wb ETH.LINK_UP up p).w ETH.SPEED sp p).raise 26 p 0 pay).startTx p).on ETH.LINK_UP p = up ∧
    ((((s.wb ETH.LINK_UP up p).w ETH.SPEED sp p).raise 26 p 0 pay).startTx p).r ETH.SPEED p = sp := by
  rw [State.on, r_startTx, r_startTx, r_raise_apart (by decide), r_raise_apart (by decide), r_w_apart (by decide), r_w_val hsp (by decide),
    r_wb_same _ _ _ _ _ (by decide) (by decide)]
  exact ⟨by cases up <;> rfl, rfl⟩

theorem ethLinkChange_shows (hnet : s.islandOn .net = true) (up : Bool) (sp : Fin 4) :
    Gives (.ethLinkChange t port up sp) s (fun u => u.on ETH.LINK_UP port = up ∧ u.r ETH.SPEED port = if up then sp.val + 1 else 0) := by
  refine ⟨_, runK_on hnet t _, ?_⟩
  extract_lets speed u
  have hspeed : speed < 8 := by
    unfold speed
    split <;> omega
  split
  case isTrue hsame => exact hsame
  case isFalse => exact linkShown u port up speed hspeed _

/-! ### The forwarding table (R445 to R447) -/

/-- The table's registers follow the table: neither the switch's record nor another field moves. -/
theorem fdbSync_esw (s : State) : s.fdbSync.esw = s.esw := by
  unfold State.fdbSync
  extract_lets ovf u w
  rw [setRaw_esw]
  unfold w
  split <;> rfl

theorem setFdb_esw (s : State) (tab : List Fdb) : (s.setFdb tab).esw = { s.esw with fdb := tab } := fdbSync_esw _

theorem learnInsert_refused {mac fid p : Nat} {q : List (Nat × Nat × Nat)} (hnet : s.islandOn .net = true) (hq : s.esw.learnQ = (mac, fid, p) :: q)
    (hnew : fdbFind s.esw.fdb mac fid = none) (hfull : s.on ESW.TABLE_FULL = true) :
    Gives (.learnInsert t) s (fun u => u.esw.learnQ = q ∧ u.esw.fdb = s.esw.fdb ∧
      u.r ESW.LEARN_REFUSED = min (s.r ESW.LEARN_REFUSED + 1) (2 ^ 32 - 1)) := by
  have hexec : (s.tick t).learnInsert = ((s.tick t).setEsw (fun k => { k with learnQ := q })).inc ESW.LEARN_REFUSED := by
    simp only [State.learnInsert, tick_esw, hq, setEsw_esw, hnew]
    exact if_pos hfull
  refine ⟨_, runK_on hnet t _, ?_⟩
  beta_reduce
  rw [hexec, r_keepK]
  exact ⟨rfl, rfl, r_inc_same _ _ _ _ _ (by decide)⟩

theorem fdbEmptyWay_congr (key : Nat) (tab : List Fdb) {a b : Fdb} (hmac : a.mac = b.mac) (hfid : a.fid = b.fid) :
    fdbEmptyWay key tab a = fdbEmptyWay key tab b := by
  unfold fdbEmptyWay
  rw [hmac, hfid]

/-- An entry with an empty candidate slot goes there. -/
theorem fdbPlace_empty {key free fuel held w : Nat} {tab : List Fdb} {e : Fdb} (h : fdbEmptyWay key tab e = some w) :
    fdbPlace key free fuel held tab e = some (tab ++ [{ e with way := w, slot := fdbSlot key w e.mac e.fid }]) := by
  rw [fdbPlace.eq_def]
  dsimp only
  rw [h]

theorem learnInsert_places {mac fid p w : Nat} {q : List (Nat × Nat × Nat)} (hnet : s.islandOn .net = true) (hq : s.esw.learnQ = (mac, fid, p) :: q)
    (hnew : fdbFind s.esw.fdb mac fid = none) (hroom : s.on ESW.TABLE_FULL = false)
    (hway : fdbEmptyWay s.esw.hashKey s.esw.fdb { mac := mac, fid := fid } = some w) :
    Gives (.learnInsert t) s (fun u => u.esw.learnQ = q ∧ u.esw.fdb = s.esw.fdb ++
      [⟨mac, fid, 1#13 <<< p, false, (s.tick t).up, w, fdbSlot s.esw.hashKey w mac fid⟩]) := by
  have hplace : fdbPlace s.esw.hashKey s.freeTick 32 4 s.esw.fdb { mac := mac, fid := fid, ports := 1#13 <<< p, static := false, seen := (s.tick t).up } =
      some (s.esw.fdb ++ [⟨mac, fid, 1#13 <<< p, false, (s.tick t).up, w, fdbSlot s.esw.hashKey w mac fid⟩]) := by
    exact fdbPlace_empty ((fdbEmptyWay_congr _ _ rfl rfl).trans hway)
  have hexec : (s.tick t).learnInsert =
      ({ (s.tick t).setEsw (fun k => { k with learnQ := q }) with freeTick := s.freeTick + 32 } : State).setFdb
        (s.esw.fdb ++ [⟨mac, fid, 1#13 <<< p, false, (s.tick t).up, w, fdbSlot s.esw.hashKey w mac fid⟩]) := by
    simp only [State.learnInsert, tick_esw, hq, setEsw_esw, hnew]
    refine (if_neg (by rw [show State.on (State.setEsw (s.tick t) _) ESW.TABLE_FULL = false from hroom]; decide)).trans ?_
    rw [show (State.setEsw (s.tick t) (fun k => { k with learnQ := q })).up = (s.tick t).up from rfl,
      show (State.setEsw (s.tick t) (fun k => { k with learnQ := q })).freeTick = s.freeTick from rfl, hplace]
  refine ⟨_, runK_on hnet t _, ?_⟩
  beta_reduce
  rw [hexec, keepK_esw, setFdb_esw]
  exact ⟨rfl, rfl⟩

theorem entryAgeOut_removes {mac : BitVec 48} {fid : BitVec 12} {e : Fdb} (hnet : s.islandOn .net = true)
    (hfind : fdbFind s.esw.fdb mac.toNat fid.toNat = some e) (hlearnt : e.static = false)
    (hold : e.seen + 1000000000 * s.r ESW.AGE_S ≤ (s.tick t).up) :
    Gives (.entryAgeOut t mac fid) s (fun u => u.esw.fdb = fdbDrop s.esw.fdb e.mac e.fid) := by
  refine ⟨_, runK_on hnet t _, ?_⟩
  have hfind' : fdbFind (s.tick t).esw.fdb mac.toNat fid.toNat = some e := hfind
  have hages : (!e.static) = true ∧ e.seen + 1000000000 * (s.tick t).r ESW.AGE_S ≤ (s.tick t).up := ⟨by rw [hlearnt]; rfl, hold⟩
  beta_reduce
  simp only [hfind']
  rw [if_pos hages, keepK_esw, setFdb_esw]
  rfl

theorem entryAgeOut_static {mac : BitVec 48} {fid : BitVec 12} {e : Fdb} (hnet : s.islandOn .net = true)
    (hfind : fdbFind s.esw.fdb mac.toNat fid.toNat = some e) (hstatic : e.static = true) :
    Gives (.entryAgeOut t mac fid) s (fun u => u.esw.fdb = s.esw.fdb ∧ u.regs = s.regs) := by
  refine ⟨_, runK_on hnet t _, ?_⟩
  have hfind' : fdbFind (s.tick t).esw.fdb mac.toNat fid.toNat = some e := hfind
  beta_reduce
  simp only [hfind', hstatic]
  exact ⟨rfl, rfl⟩

/-- The result registers of an entry command (R447, R454). -/
theorem eResult_shows (s : State) {cause : Nat} (hcause : cause < 4) (e : Option Fdb) :
    (s.eResult cause e).esw = s.esw ∧ (s.eResult cause e).r ESW.E_CAUSE = cause ∧ (s.eResult cause e).r ESW.E_FOUND = e.isSome.toNat ∧
    (s.eResult cause e).r ESW.E_STATIC = (e.any (·.static)).toNat ∧
    (s.eResult cause e).r ESW.E_PORTS_NOW = (e.map (fun e => e.ports.toNat)).getD 0 := by
  have hports : (e.map (fun e => e.ports.toNat)).getD 0 < 2 ^ ESW.E_PORTS_NOW.width := by
    cases e with
    | none => decide
    | some x => exact x.ports.isLt
  unfold State.eResult
  refine ⟨rfl, ?_, ?_, ?_, r_w_val hports (by decide)⟩
  · rw [r_w_apart (by decide), r_wb_apart (by decide), r_wb_apart (by decide), r_w_val hcause (by decide)]
  · rw [r_w_apart (by decide), r_wb_apart (by decide), r_wb_same _ _ _ _ _ (by decide) (by decide)]
  · rw [r_w_apart (by decide), r_wb_same _ _ _ _ _ (by decide) (by decide)]

/-- The window of an entry as a write of the page sees it. -/
theorem window_seen : (writeSeen s t ⟨27, 0⟩).eMac = s.eMac ∧ (writeSeen s t ⟨27, 0⟩).r ESW.E_FID = s.r ESW.E_FID ∧
    (writeSeen s t ⟨27, 0⟩).r ESW.E_PORTS = s.r ESW.E_PORTS ∧ (writeSeen s t ⟨27, 0⟩).esw = s.esw := by
  unfold State.eMac
  rw [r_seen_apart (by decide), r_seen_apart (by decide), r_seen_apart (by decide), r_seen_apart (by decide)]
  exact ⟨rfl, rfl, rfl, rfl⟩

theorem fdbAdd_full (htakes : Takes s r ⟨27, 0⟩)
    (hfull : 4096 ≤ ((fdbDrop s.esw.fdb s.eMac (s.r ESW.E_FID)).filter (·.static)).length) :
    Gives (.fdbAdd t r) s (fun u => u.esw.fdb = s.esw.fdb ∧ u.r ESW.E_CAUSE = 2) := by
  obtain ⟨hmac, hfid, -, hesw⟩ := window_seen (s := s) (t := t)
  refine ⟨_, cmdK_seen htakes t _, ?_⟩
  dsimp only
  rw [hmac, hfid, hesw, if_pos hfull, keepK_esw, r_keepK]
  obtain ⟨kesw, kcause, -⟩ := eResult_shows (writeSeen s t ⟨27, 0⟩) (cause := 2) (by decide) (fdbFind s.esw.fdb s.eMac (s.r ESW.E_FID))
  rw [kesw, kcause, hesw]
  exact ⟨rfl, rfl⟩

theorem fdbAdd_places {w : Nat} (htakes : Takes s r ⟨27, 0⟩)
    (hfew : ((fdbDrop s.esw.fdb s.eMac (s.r ESW.E_FID)).filter (·.static)).length < 4096)
    (hway : fdbEmptyWay s.esw.hashKey (fdbDrop s.esw.fdb s.eMac (s.r ESW.E_FID)) { mac := s.eMac, fid := s.r ESW.E_FID } = some w) :
    Gives (.fdbAdd t r) s (fun u => u.r ESW.E_CAUSE = 0 ∧ u.r ESW.E_FOUND = 1 ∧ u.r ESW.E_STATIC = 1 ∧
      u.esw.fdb = fdbDrop s.esw.fdb s.eMac (s.r ESW.E_FID) ++ [⟨s.eMac, s.r ESW.E_FID, BitVec.ofNat 13 (s.r ESW.E_PORTS), true, (s.tick t).up, w,
        fdbSlot s.esw.hashKey w s.eMac (s.r ESW.E_FID)⟩]) := by
  obtain ⟨hmac, hfid, hports, hesw⟩ := window_seen (s := s) (t := t)
  have hplace : ∀ free, fdbPlace s.esw.hashKey free 32 4 (fdbDrop s.esw.fdb s.eMac (s.r ESW.E_FID))
      { mac := s.eMac, fid := s.r ESW.E_FID, ports := BitVec.ofNat 13 (s.r ESW.E_PORTS), static := true, seen := (s.tick t).up } =
      some (fdbDrop s.esw.fdb s.eMac (s.r ESW.E_FID) ++ [⟨s.eMac, s.r ESW.E_FID, BitVec.ofNat 13 (s.r ESW.E_PORTS), true, (s.tick t).up, w,
        fdbSlot s.esw.hashKey w s.eMac (s.r ESW.E_FID)⟩]) := by
    intro free
    exact fdbPlace_empty ((fdbEmptyWay_congr _ _ rfl rfl).trans hway)
  have hup : (writeSeen s t ⟨27, 0⟩).up = (s.tick t).up := rfl
  refine ⟨_, cmdK_seen htakes t _, ?_⟩
  dsimp only
  rw [hmac, hfid, hports, hesw, hup, if_neg (Nat.not_le.mpr hfew), hplace, keepK_esw, r_keepK, r_keepK, r_keepK]
  dsimp only
  obtain ⟨kesw, kcause, kfound, kstatic, -⟩ := eResult_shows (State.setFdb _ _) (cause := 0) (by decide)
    (some { mac := s.eMac, fid := s.r ESW.E_FID, ports := BitVec.ofNat 13 (s.r ESW.E_PORTS), static := true, seen := (s.tick t).up })
  rw [kesw, kcause, kfound, kstatic, setFdb_esw]
  exact ⟨rfl, rfl, rfl, rfl⟩

theorem fdbLookup_finds {e : Fdb} (htakes : Takes s r ⟨27, 0⟩) (hfind : fdbFind s.esw.fdb s.eMac (s.r ESW.E_FID) = some e) :
    Gives (.fdbLookup t r) s (fun u => u.esw = s.esw ∧ u.r ESW.E_FOUND = 1 ∧ u.r ESW.E_STATIC = e.static.toNat ∧
      u.r ESW.E_PORTS_NOW = e.ports.toNat ∧ u.r ESW.E_CAUSE = 0) := by
  obtain ⟨hmac, hfid, -, hesw⟩ := window_seen (s := s) (t := t)
  obtain ⟨kesw, kcause, kfound, kstatic, kports⟩ := eResult_shows (writeSeen s t ⟨27, 0⟩) (cause := 0) (by decide) (some e)
  refine ⟨_, cmdK_seen htakes t _, ?_⟩
  dsimp only
  rw [hmac, hfid, hesw, hfind, keepK_esw, r_keepK, r_keepK, r_keepK, r_keepK, kesw, kcause, kfound, kstatic, kports, hesw]
  exact ⟨rfl, rfl, rfl, rfl, rfl⟩

theorem fdbDelete_removes {e : Fdb} (htakes : Takes s r ⟨27, 0⟩) (hfind : fdbFind s.esw.fdb s.eMac (s.r ESW.E_FID) = some e)
    (hstatic : e.static = true) :
    Gives (.fdbDelete t r) s (fun u => u.esw.fdb = fdbDrop s.esw.fdb e.mac e.fid ∧ u.r ESW.E_CAUSE = 0) := by
  obtain ⟨hmac, hfid, -, hesw⟩ := window_seen (s := s) (t := t)
  refine ⟨_, cmdK_seen htakes t _, ?_⟩
  dsimp only
  rw [hmac, hfid, hesw, hfind]
  dsimp only
  obtain ⟨kesw, kcause, -⟩ := eResult_shows ((writeSeen s t ⟨27, 0⟩).setFdb (fdbDrop s.esw.fdb e.mac e.fid)) (cause := 0) (by decide) (some e)
  rw [if_pos hstatic, keepK_esw, r_keepK, kesw, kcause, setFdb_esw]
  exact ⟨rfl, rfl⟩

theorem fdbDelete_keeps {e : Fdb} (htakes : Takes s r ⟨27, 0⟩) (hfind : fdbFind s.esw.fdb s.eMac (s.r ESW.E_FID) = some e)
    (hlearnt : e.static = false) : Gives (.fdbDelete t r) s (fun u => u.esw.fdb = s.esw.fdb ∧ u.r ESW.E_FOUND = 0) := by
  obtain ⟨hmac, hfid, -, hesw⟩ := window_seen (s := s) (t := t)
  obtain ⟨kesw, -, kfound, -⟩ := eResult_shows (writeSeen s t ⟨27, 0⟩) (cause := 0) (by decide) none
  refine ⟨_, cmdK_seen htakes t _, ?_⟩
  dsimp only
  rw [hmac, hfid, hesw, hfind]
  dsimp only
  rw [if_neg (by rw [hlearnt]; decide), keepK_esw, r_keepK, kesw, kfound, hesw]
  exact ⟨rfl, rfl⟩

/-! ### Flood tokens (R448) -/

theorem floodRefill_returns (hnet : s.islandOn .net = true) :
    Gives (.floodRefill t port) s (fun u => u.regs = s.regs ∧ u.esw.fdb = s.esw.fdb ∧ sget 0 u.esw.tokens port =
      sget 0 s.esw.tokens port - ((s.tick t).up - sget 0 s.esw.refillAt port) * s.r ETH.FLOOD_RATE port / 1000000000) :=
  ⟨_, runK_on hnet t _, rfl, rfl, sget_sset_same _ _ _ _⟩

/-! ### Redundancy (R450) -/

/-- A number is taken for each frame that a pair sends. -/
theorem sendSeq_redSend (s : State) (p : Nat) (f : EthFrame) (cls : Nat → Nat) :
    (s.redSend p f cls).esw.sendSeq = sset 0 s.esw.sendSeq p ((sget 0 s.esw.sendSeq p + 1) % 65536) ∧ (s.redSend p f cls).esw.fdb = s.esw.fdb := by
  unfold State.redSend
  extract_lets n u w
  obtain ⟨hfdb, -, hseq, -⟩ := (sends_enqueue u (2 * p) (cls (2 * p)) { f with redSeq := some (n, false) }).trans
    (sends_enqueue w (2 * p + 1) (cls (2 * p + 1)) { f with redSeq := some (n, true) })
  exact ⟨hseq, hfdb⟩

theorem prpSupervisionTx_sends (hnet : s.islandOn .net = true) (hen : s.enabled 27 = true) (hmode : s.r ESW.RED_MODE 0 pair ≠ 0)
    (hdue : ∀ a, s.esw.lifeAt.lookup pair.val = some a → a + 1000000 * s.r ESW.LIFE_MS 0 pair ≤ (s.tick t).up) :
    Gives (.prpSupervisionTx t pair) s (fun u => sget 0 u.esw.sendSeq pair = (sget 0 s.esw.sendSeq pair + 1) % 65536 ∧ u.esw.fdb = s.esw.fdb) := by
  have hnotSent : ((s.tick t).esw.lifeAt.lookup pair.val).any (fun a => decide ((s.tick t).up < a + 1000000 * (s.tick t).r ESW.LIFE_MS 0 pair)) = false := by
    cases hlook : (s.tick t).esw.lifeAt.lookup pair.val with
    | none => rfl
    | some a => exact decide_eq_false (Nat.not_lt.mpr (hdue a hlook))
  have hsends : ¬ ((!(s.tick t).enabled 27) = true ∨ (s.tick t).r ESW.RED_MODE 0 pair = 0 ∨
      ((s.tick t).esw.lifeAt.lookup pair.val).any (fun a => decide ((s.tick t).up < a + 1000000 * (s.tick t).r ESW.LIFE_MS 0 pair)) = true) := by
    rw [hnotSent]
    simp [hen, hmode]
  refine ⟨_, runK_on hnet t _, ?_⟩
  beta_reduce
  rw [if_neg hsends]
  dsimp only
  rw [keepK_esw, (sendSeq_redSend _ _ _ _).1, (sendSeq_redSend _ _ _ _).2, sget_sset_same]
  exact ⟨rfl, rfl⟩

theorem redLanSilent_raises {lanB : Bool} (hnet : s.islandOn .net = true) (hen : s.enabled 27 = true) (hmode : s.r ESW.RED_MODE 0 pair ≠ 0)
    (hsilent : sget 0 s.esw.heard (2 * pair.val + lanB.toNat) + 3000000 * s.r ESW.LIFE_MS 0 pair ≤ (s.tick t).up) (hevt : s.evtEn 27 0 1 = true) :
    Gives (.redLanSilent t pair lanB) s (fun u => (u.h HDR.EVT_PEND ⟨27, 0⟩).testBit 1 = true ∧ u.esw = s.esw) := by
  have hraises : (s.tick t).enabled 27 ∧ (s.tick t).r ESW.RED_MODE 0 pair ≠ 0 ∧
      sget 0 (s.tick t).esw.heard (2 * pair.val + lanB.toNat) + 3000000 * (s.tick t).r ESW.LIFE_MS 0 pair ≤ (s.tick t).up := ⟨hen, hmode, hsilent⟩
  refine ⟨_, runK_on hnet t _, ?_⟩
  dsimp only
  rw [if_pos hraises, keepK_esw, raise_esw]
  exact ⟨HostQueueLaws.testBit_raise (s := s.tick t) (c := 27) (i := 0) (b := 1) rfl (by decide) hevt _ _, rfl⟩

/-- The entry that a forgotten frame names. -/
def forgets (s : State) (p src seq : Nat) (d : Dup) : Bool := d.pair == p && d.src == src && d.seq == seq && decide (d.t + 400000000 ≤ s.up)

/-- A frame that was seen on one LAN alone counts there. -/
def onlyCounted (s : State) (p : Nat) (d : Dup) : State :=
  if d.lanA && !d.lanB then s.inc ESW.CNT_ONLY_A 0 p else if d.lanB && !d.lanA then s.inc ESW.CNT_ONLY_B 0 p else s

theorem exec_dupEntryForget {src : BitVec 48} {sq : BitVec 16} {d : Dup} (hnet : s.islandOn .net = true) (honly : s.esw.dups = [d])
    (hd : forgets (s.tick t) pair src.toNat sq.toNat d = true) :
    exec (.dupEntryForget t pair src sq) s = .next (s.keepK (onlyCounted ((s.tick t).setEsw fun k => { k with dups := [] }) pair d)) := by
  have hfind : (s.tick t).esw.dups.find? (forgets (s.tick t) pair src.toNat sq.toNat) = some d := by
    rw [tick_esw, honly, List.find?_cons_of_pos hd]
  have hrest : (s.tick t).esw.dups.filter (fun d => !forgets (s.tick t) pair src.toNat sq.toNat d) = [] := by
    rw [tick_esw, honly, List.filter_cons_of_neg (by rw [hd]; decide), List.filter_nil]
  refine (runK_on hnet t _).trans (congrArg (fun u => Host.Outcome.next (s.keepK u)) ?_)
  rw [← hrest]
  change (match (s.tick t).esw.dups.find? (forgets (s.tick t) pair src.toNat sq.toNat) with | none => _ | some d => _) = _
  rw [hfind]
  rfl

theorem onlyCounted_shows (s : State) (p : Nat) (d : Dup) : (onlyCounted s p d).esw = s.esw ∧
    (d.lanA = true → d.lanB = false → (onlyCounted s p d).r ESW.CNT_ONLY_A 0 p = min (s.r ESW.CNT_ONLY_A 0 p + 1) (2 ^ 16 - 1)) ∧
    (d.lanA = false → d.lanB = true → (onlyCounted s p d).r ESW.CNT_ONLY_B 0 p = min (s.r ESW.CNT_ONLY_B 0 p + 1) (2 ^ 16 - 1)) := by
  unfold onlyCounted
  cases hA : d.lanA <;> cases hB : d.lanB
  · exact ⟨rfl, nofun, nofun⟩
  · exact ⟨rfl, nofun, fun _ _ => r_inc_same _ _ _ _ _ (by decide)⟩
  · exact ⟨rfl, fun _ _ => r_inc_same _ _ _ _ _ (by decide), nofun⟩
  · exact ⟨rfl, nofun, nofun⟩

theorem dupEntryForget_counts {src : BitVec 48} {sq : BitVec 16} {d : Dup} (hnet : s.islandOn .net = true) (honly : s.esw.dups = [d])
    (hpair : d.pair = pair) (hsrc : d.src = src.toNat) (hseq : d.seq = sq.toNat) (hold : d.t + 400000000 ≤ (s.tick t).up) :
    Gives (.dupEntryForget t pair src sq) s (fun u => u.esw.dups = [] ∧
      (d.lanA = true → d.lanB = false → u.r ESW.CNT_ONLY_A 0 pair = min (s.r ESW.CNT_ONLY_A 0 pair + 1) (2 ^ 16 - 1)) ∧
      (d.lanA = false → d.lanB = true → u.r ESW.CNT_ONLY_B 0 pair = min (s.r ESW.CNT_ONLY_B 0 pair + 1) (2 ^ 16 - 1))) := by
  have hd : forgets (s.tick t) pair src.toNat sq.toNat d = true := by simp [forgets, hpair, hsrc, hseq, hold]
  obtain ⟨hesw, honlyA, honlyB⟩ := onlyCounted_shows ((s.tick t).setEsw fun k => { k with dups := [] }) pair d
  refine ⟨_, exec_dupEntryForget hnet honly hd, ?_, honlyA, honlyB⟩
  rw [keepK_esw, hesw]
  rfl

/-! ### Counters (R453) -/

theorem ethCtrClr_clears (htakes : Takes s r ⟨26, port⟩) :
    Gives (.ethCtrClr t r port) s (fun u => u.r ETH.RX_FRAMES port = 0 ∧ u.r ETH.TX_FRAMES port = 0 ∧
      u.r ETH.RX_ERRS port = 0 ∧ u.r ETH.TX_DROPS port = 0 ∧ u.r ETH.FLOOD_DROPS port = 0 ∧ u.esw = s.esw) := by
  have hclear : ∀ f ∈ [ETH.RX_FRAMES, ETH.TX_FRAMES, ETH.RX_ERRS, ETH.TX_DROPS, ETH.FLOOD_DROPS], 0 < f.n →
      ([ETH.RX_FRAMES, ETH.TX_FRAMES, ETH.RX_ERRS, ETH.TX_DROPS, ETH.FLOOD_DROPS].foldl (fun s f => s.rstF f port)
        (writeSeen s t ⟨26, port⟩)).r f port = f.rst % 2 ^ 32 := fun f hf hn => HostQueueLaws.r_foldl_rstF hf hn _
  refine ⟨_, cmdK_seen htakes t _, ?_⟩
  simp only [r_keepK]
  refine ⟨hclear ETH.RX_FRAMES (by decide) (by decide), hclear ETH.TX_FRAMES (by decide) (by decide),
    hclear ETH.RX_ERRS (by decide) (by decide), hclear ETH.TX_DROPS (by decide) (by decide), hclear ETH.FLOOD_DROPS (by decide) (by decide), ?_⟩
  rw [keepK_esw]
  rfl

/-- Settles O50: each clause is the branch of its command that the premises choose. -/
theorem switch : Obligations.Switch := by
  unfold Obligations.Switch
  intro t r port pair s
  exact ⟨fun f hnet hup hfcs hlong hshort hpause hen hseq hptp hsxe hred hmulti hnew hroom hq =>
      ethFrameRx_learns hnet hup hfcs hlong hshort hpause hen hseq hptp hsxe hred hmulti hnew hroom hq,
    fun q => egressTx_sends, fun up sp hnet => ethLinkChange_shows hnet up sp,
    fun mac fid p q w hnet hq hnew => ⟨learnInsert_refused hnet hq hnew, learnInsert_places hnet hq hnew⟩,
    fun mac fid e hnet hfind => ⟨entryAgeOut_removes hnet hfind, entryAgeOut_static hnet hfind⟩,
    fun htakes => ⟨⟨fdbAdd_full htakes, fun w => fdbAdd_places htakes⟩,
      fun e hfind => ⟨fdbLookup_finds htakes hfind, fdbDelete_removes htakes hfind, fdbDelete_keeps htakes hfind⟩⟩,
    floodRefill_returns, prpSupervisionTx_sends, fun lanB => redLanSilent_raises,
    fun src sq d => dupEntryForget_counts, ethCtrClr_clears⟩

end Sys2Proof.SwitchLaws
end

section
/-! Registers of some pages alone: what the operations of the model change there (R46, R51, R52, R459). -/

namespace Sys2Proof.Machine.Elsewhere

open Sys2Proof Sys2Proof.Machine Sys2Proof.Laws

variable {pgs : List Page} {s u v : State} {code inst bit j i k : Nat}

/-- A key stands on one of the pages. -/
def OnPages (pgs : List Page) (key : Nat) : Prop := ∃ pg ∈ pgs, key / 2 ^ 17 = 32 * pg.code + pg.inst

/-- The page of a field that lies within its page (R46). -/
theorem key_page {f : Fld} (hoff : f.off + i * f.stride < 4096 ∧ f.lsb < 32) (j : Nat) : f.key j i / 2 ^ 17 = 32 * f.code + j := by
  simp only [Fld.key]
  omega

theorem pendKey_page (hbit : bit < 32) (code inst : Nat) : pendKey code inst bit / 2 ^ 17 = 32 * code + inst := by
  rw [pendKey, if_pos hbit]
  exact key_page (f := hdr HDR.EVT_PEND ⟨code, inst⟩) (i := 0) (by simp [hdr, HDR.EVT_PEND]) inst

theorem rawKey_page (hbit : bit < 32) (code inst : Nat) : rawKey code inst bit / 2 ^ 17 = 32 * code + inst := by
  rw [rawKey, if_pos hbit]
  exact key_page (f := hdr HDR.EVT_RAW ⟨code, inst⟩) (i := 0) (by simp [hdr, HDR.EVT_RAW]) inst

/-- A field of a page that is listed. -/
theorem onPages_field {f : Fld} (hmem : ⟨f.code, j⟩ ∈ pgs) (hoff : f.off + i * f.stride < 4096 ∧ f.lsb < 32) : OnPages pgs (f.key j i) :=
  ⟨_, hmem, key_page hoff j⟩

theorem of_regs (h : u.regs = s.regs) : Elsewhere pgs s u := fun _ _ _ => by rw [h]

theorem refl (s : State) : Elsewhere pgs s s := of_regs rfl

theorem trans (h : Elsewhere pgs s u) (k : Elsewhere pgs u v) : Elsewhere pgs s v := fun d key hk => (k d key hk).trans (h d key hk)

/-- A field of no listed page reads as before. -/
theorem r_eq {g : Fld} (h : Elsewhere pgs s u) (hg : ¬ OnPages pgs (g.key j k)) : u.r g j k = s.r g j k :=
  congrArg BitVec.toNat (h _ _ fun pg hpg heq => hg ⟨pg, hpg, heq⟩)

theorem ite {c : Prop} [Decidable c] (h : Elsewhere pgs s u) (k : Elsewhere pgs s v) : Elsewhere pgs s (if c then u else v) := by
  split
  · exact h
  · exact k

theorem foldl {α : Type} {f : State → α → State} (xs : List α) (h : Elsewhere pgs s u) (hf : ∀ w x, Elsewhere pgs w (f w x)) :
    Elsewhere pgs s (xs.foldl f u) := List.foldlRecOn (motive := Elsewhere pgs s) _ _ h fun w hw x _ => hw.trans (hf w x)

theorem w_of {f : Fld} (h : Elsewhere pgs s u) (hf : OnPages pgs (f.key j i)) (x : Nat) : Elsewhere pgs s (u.w f x j i) := by
  refine h.trans fun d key hk => sget_sset_ne _ _ _ _ fun heq => ?_
  obtain ⟨pg, hpg, hpage⟩ := hf
  exact hk pg hpg (heq ▸ hpage)

/-- A write of a field of a listed page. -/
theorem w {f : Fld} (h : Elsewhere pgs s u) (x : Nat) (hmem : ⟨f.code, j⟩ ∈ pgs) (hoff : f.off + i * f.stride < 4096 ∧ f.lsb < 32) :
    Elsewhere pgs s (u.w f x j i) := h.w_of (onPages_field hmem hoff) x

theorem inc {f : Fld} (h : Elsewhere pgs s u) (n : Nat) (hmem : ⟨f.code, j⟩ ∈ pgs) (hoff : f.off + i * f.stride < 4096 ∧ f.lsb < 32) :
    Elsewhere pgs s (u.inc f j i n) := h.w _ hmem hoff

theorem wb {f : Fld} (h : Elsewhere pgs s u) (b : Bool) (hmem : ⟨f.code, j⟩ ∈ pgs) (hoff : f.off + i * f.stride < 4096 ∧ f.lsb < 32) :
    Elsewhere pgs s (u.wb f b j i) := h.w _ hmem hoff

theorem setRec (h : Elsewhere pgs s u) (f : RecX → RecX) : Elsewhere pgs s (u.setRec f) := h.trans (of_regs rfl)

theorem raise (h : Elsewhere pgs s u) (hmem : ⟨code, inst⟩ ∈ pgs) (hbit : bit < 32) (p q : List Nat) : Elsewhere pgs s (u.raise code inst bit p q) := by
  refine h.trans fun d key hk => ?_
  obtain ⟨_, _, _, _, hraise, hregs⟩ := raise_inv u code inst bit p q
  rw [hraise]
  refine hregs d key fun heq => hk _ hmem ?_
  rw [heq, pendKey_page hbit]

theorem setEvtRaw (h : Elsewhere pgs s u) (hmem : ⟨code, inst⟩ ∈ pgs) (hbit : bit < 32) (b : Bool) :
    Elsewhere pgs s (u.setEvtRaw code inst bit b) := by
  rw [State.setEvtRaw, if_pos hbit]
  exact h.w _ (f := hdr HDR.EVT_RAW ⟨code, inst⟩) hmem (by simp [hdr, HDR.EVT_RAW])

theorem setRaw (h : Elsewhere pgs s u) (hmem : ⟨code, inst⟩ ∈ pgs) (hbit : bit < 32) (b : Bool) (p q : List Nat) :
    Elsewhere pgs s (u.setRaw code inst bit b p q) := ite ((h.setEvtRaw hmem hbit true).raise hmem hbit p q) (h.setEvtRaw hmem hbit b)

/-- A field that is returned to its reset value. -/
theorem rstF {f : Fld} (h : Elsewhere pgs s u) (hmem : ⟨f.code, j⟩ ∈ pgs) (hoff : ∀ i < f.n, f.off + i * f.stride < 4096 ∧ f.lsb < 32) :
    Elsewhere pgs s (u.rstF f j) := by
  refine h.trans fun d key hk => ?_
  refine List.foldlRecOn (motive := fun m => sget d m key = sget d u.regs key) _ _ rfl fun m hm i hi => ?_
  rw [sget_filter_ne _ _ ?_, hm]
  rintro rfl
  exact hk _ hmem (key_page (hoff i (List.mem_range.mp hi)) j)

/-! ### The recorder's page (R459, R466, R468) -/

/-- The page of the recorder. -/
def recPage : Page := ⟨10, 0⟩

theorem ringFill (h : Elsewhere [recPage] s u) : Elsewhere [recPage] s u.ringFill := h.setRaw (by decide) (by decide) _ _ _

theorem toRing (h : Elsewhere [recPage] s u) (x : Rec1) : Elsewhere [recPage] s (u.toRing x) :=
  (((h.setRec _).inc _ (by decide) (by decide)).inc _ (by decide) (by decide)).w _ (by decide) (by decide)

theorem unhold (h : Elsewhere [recPage] s u) : Elsewhere [recPage] s u.unhold :=
  ringFill (w (foldl _ (h.setRec _) fun w x => (refl w).toRing x) _ (by decide) (by decide))

theorem putRec (h : Elsewhere [recPage] s u) (code : Nat) (pay : List Nat) : Elsewhere [recPage] s (u.putRec code pay) := by
  unfold State.putRec
  extract_lets fixed pay x opens seg y v w
  have hnumbered : Elsewhere [recPage] s w := (h.setRec _).w _ (by decide) (by decide)
  exact ite ((hnumbered.setRec _).w _ (by decide) (by decide)) (hnumbered.toRing _).ringFill

theorem thaw (h : Elsewhere [recPage] s u) (cause : Nat) : Elsewhere [recPage] s (u.thaw cause) := by
  unfold State.thaw
  extract_lets n v x
  have hended : Elsewhere [recPage] s v := h.w _ (by decide) (by decide)
  have hreleased : Elsewhere [recPage] s x := ite hended hended.unhold
  exact (hreleased.putRec _ _).raise (by decide) (by decide) _ _

theorem writeRec (h : Elsewhere [recPage] s u) (code : Nat) (pay : List Nat) : Elsewhere [recPage] s (u.writeRec code pay) :=
  have hended := h.w (f := REC.HOLDING) 0 (by decide) (by decide)
  (ite (ite (hended.thaw 2) hended.unhold) h).putRec code pay

/-- A record that is written leaves the fields of every other page. -/
theorem r_writeRec {g : Fld} (hg : ¬ OnPages [recPage] (g.key j k)) (s : State) (code : Nat) (pay : List Nat) :
    (s.writeRec code pay).r g j k = s.r g j k := ((refl s).writeRec code pay).r_eq hg

theorem persist (h : Elsewhere [recPage] s u) (x : Rec1) : Elsewhere [recPage] s (u.persist x) := (h.setRec _).w _ (by decide) (by decide)

theorem persistAll (h : Elsewhere [recPage] s u) : Elsewhere [recPage] s u.persistAll := foldl _ h fun w x => (refl w).persist x

theorem persistBack (h : Elsewhere [recPage] s u) : Elsewhere [recPage] s u.persistBack :=
  ite h ((((h.persistAll.w _ (by decide) (by decide)).writeRec _ _).setRec _).setRaw (by decide) (by decide) _ _ _)

theorem persistLost (h : Elsewhere [recPage] s u) : Elsewhere [recPage] s u.persistLost :=
  ite h ((((h.w _ (by decide) (by decide)).writeRec _ _).setRec _).setRaw (by decide) (by decide) _ _ _)

/-- A field is on none of the pages when its page's number is not theirs. -/
theorem not_onPages {key : Nat} (h : (pgs.map fun pg => 32 * pg.code + pg.inst).contains (key / 2 ^ 17) = false) : ¬ OnPages pgs key := by
  rintro ⟨pg, hpg, heq⟩
  have hmem : key / 2 ^ 17 ∈ pgs.map fun pg => 32 * pg.code + pg.inst := List.mem_map.mpr ⟨pg, hpg, heq.symm⟩
  exact absurd (List.contains_iff_mem.mpr hmem) (by rw [h]; decide)

end Sys2Proof.Machine.Elsewhere
end

section
/-! The power states and the Keeper: steps of the boot, the entry to KEEP and the wake (R357, R358, R406, R526, R527, R529, R530). -/

namespace Sys2Proof.WakeLaws

open Sys2Proof Sys2Proof.Machine Sys2Proof.Laws Sys2Proof.LogicPageLaws Sys2Proof.PageFieldLaws Sys2Proof.FieldPlaceLaws Sys2Proof.PowerLaws Sys2Proof.ResetLaws

variable {s : State} {t : Nat} {r : Requester}

/-! ### Steps of the boot (R529, R530) -/

/-- A step of the boot is under way. -/
def bootStepping (s : State) (n : Nat) : State := s.setPwr fun k => { k with bootStep := n }

theorem exec_bootStep_fuses (hreset : s.pwr.inReset = false) (hstep : s.pwr.bootStep = 0) :
    exec (.bootStep t) s = .next (s.keepS (bootStepping (s.tick t) 1).bootFuses) := by
  simp [exec, execBootStep, State.cmdS, State.answerS, hreset, hstep, bootStepping]

theorem exec_bootStep_plls (hreset : s.pwr.inReset = false) (hstep : s.pwr.bootStep = 4) :
    exec (.bootStep t) s = .next (s.keepS ((bootStepping (s.tick t) 5).setPwr fun k => { k with pll := 0x1FF })) := by
  simp [exec, execBootStep, State.cmdS, State.answerS, hreset, hstep, bootStepping]

theorem exec_bootStep_recovery (hreset : s.pwr.inReset = false) (hstep : s.pwr.bootStep = 8) (hrec : s.pwr.recovery = true) :
    exec (.bootStep t) s = .next (s.keepS (bootStepping (s.tick t) 9)) := by
  simp [exec, execBootStep, State.cmdS, State.answerS, hreset, hstep, hrec, bootStepping]

/-- The first step lets KEEP and HOST run and fixes the form of the records (R462, R529). -/
theorem bootFuses_shows (s : State) : s.bootFuses.r KPR.BOOT_STATE = 1 ∧ s.bootFuses.r REC.FORM = 1 ∧
    s.bootFuses.pwr.pll.getLsbD (islandBit .keep) = true ∧ s.bootFuses.pwr.pll.getLsbD (islandBit .host) = true := by
  have hpll : s.bootFuses.pwr.pll = s.pwr.pll ||| (1#9 <<< islandBit .keep) ||| (1#9 <<< islandBit .host) := rfl
  refine ⟨?_, r_w_val (f := REC.FORM) (v := 1) (by decide) (by decide), ?_, ?_⟩
  · unfold State.bootFuses
    rw [r_w_ne _ _ _ _ _ _ _ _ (by decide), r_w_val (by decide) (by decide)]
  · rw [hpll, BitVec.getLsbD_or, getLsbD_lock, Bool.true_or]
  · rw [hpll, getLsbD_lock]

/-- Settles O12: the first, the fifth and the ninth step are what their branches of the boot say. -/
theorem bootSteps : Obligations.BootSteps := by
  unfold Obligations.BootSteps
  intro t s hreset
  refine ⟨fun hstep _ => ⟨_, exec_bootStep_fuses hreset hstep, ?_⟩,
    fun hstep => ⟨_, exec_bootStep_plls hreset hstep, rfl, rfl, rfl⟩,
    fun hstep hrec => ⟨_, exec_bootStep_recovery hreset hstep hrec, rfl, rfl, rfl⟩⟩
  beta_reduce
  rw [r_keepS, r_keepS, keepS_pwr]
  exact bootFuses_shows _

/-! ### The entry to KEEP (R526) -/

theorem pwrKeep_begins (hopened : Opened s r ⟨0, 0⟩) (hidle : s.pwr.keepEntry = false) (hrole : s.r DCH.ROLE ≠ 3) (hfw : s.r SEC.FW_STATE = 0) :
    Gives (.pwrKeep t r) s (fun u => u.pwr.keepEntry = true ∧ u.pwr.keepBy = ownerCode r) := by
  have hrole' : ¬ ((s.tick t).countWrite ⟨0, 0⟩).r DCH.ROLE = 3 := by
    rw [r_countWrite _ _ _ _ _ (by decide)]
    exact hrole
  have hfw' : ¬ ((s.tick t).countWrite ⟨0, 0⟩).r SEC.FW_STATE ≠ 0 := by
    rw [r_countWrite _ _ _ _ _ (by decide)]
    exact not_not.mpr hfw
  refine ⟨_, cmdK_lockedCmd hopened t _, ?_⟩
  dsimp only
  rw [if_neg (by rw [countWrite_pwr, tick_pwr, hidle]; decide), if_neg hrole', if_neg hfw']
  exact ⟨rfl, rfl⟩

/-- What the completed entry leaves: the islands are reset, PWRON is low, and the shortest off time runs. -/
def keepEntered (s : State) : State :=
  (((s.sysReset (s.r PCR.RESET_CAUSE) true false false).setPwr (fun k => { k with st := .keep })).w RTC.PWRON_STATE 0).setRtc fun k =>
    { k with offUntil := some (s.up + 1000000 * s.aon RTC.MIN_OFF_MS) }

theorem exec_keepEntryDone (hentry : s.pwr.keepEntry = true) (hheld : s.pwr.wakeHeld = none) :
    exec (.keepEntryDone t) s = .next (s.keepM (keepEntered (s.tick t))) := by
  refine congrArg (fun u => Host.Outcome.next (s.keepM u)) ?_
  refine (if_neg (by rw [tick_pwr, hentry]; decide)).trans ?_
  dsimp only
  rw [show (s.tick t).pwr.wakeHeld = none from hheld]
  rfl

/-- A system reset leaves every part but the registers as its record says, and the memories initialised. -/
theorem sysReset_parts (s : State) (cause : Nat) (hold brown unforce : Bool) :
    (s.sysReset cause hold brown unforce).pwr = s.pwr.afterReset hold brown ∧ (s.sysReset cause hold brown unforce).general = [] := by
  unfold State.sysReset
  extract_lets frozen t0 t1 t2 t3 t4
  obtain ⟨m, q, hrest⟩ : RegsOnly t4 _ := regsOnly_trans (regsOnly_w (regsOnly_w (regsOnly_refreshAon t4) _ _ _ _) _ _ _ _) (regsOnly_showForces _)
  rw [hrest]
  exact ⟨rfl, rfl⟩

theorem keepEntryDone_enters (hentry : s.pwr.keepEntry = true) (hheld : s.pwr.wakeHeld = none) :
    Gives (.keepEntryDone t) s (fun u => u.pwr.st = .keep ∧ u.pwr.inReset = true ∧ u.r RTC.PWRON_STATE = 0 ∧ u.general = [] ∧
      u.rtc.offUntil = some ((s.tick t).up + 1000000 * s.aon RTC.MIN_OFF_MS) ∧ u.fuses = s.fuses) := by
  obtain ⟨hpwr, hgeneral⟩ := sysReset_parts (s.tick t) ((s.tick t).r PCR.RESET_CAUSE) true false false
  refine ⟨_, exec_keepEntryDone hentry hheld, ?_⟩
  beta_reduce
  rw [keepM_pwr, r_keepM, keepM_general, keepM_rtc, keepM_fuses]
  unfold keepEntered
  rw [setRtc_pwr, w_pwr, setPwr_pwr, hpwr, r_setRtc, r_w_val (by decide) (by decide), setRtc_general, w_general, setPwr_general, hgeneral, setRtc_rtc]
  exact ⟨rfl, rfl, rfl, rfl, rfl, rfl⟩

/-! ### The wake (R357, R358, R406) -/

/-- The cause of the wake is shown (R358). -/
theorem recordWake_shows (s : State) {slot src from_ : Nat} (hslot : slot < 32) (hsrc : src < 256) (hfrom : from_ < 4) :
    (s.recordWake slot src from_).r NWT.WAKE_SRC = src ∧ (s.recordWake slot src from_).r NWT.WAKE_SLOT = slot ∧
    (s.recordWake slot src from_).r NWT.WAKE_VALID = 1 ∧ (s.recordWake slot src from_).r NWT.WAKE_FROM = from_ := by
  unfold State.recordWake
  refine ⟨?_, ?_, ?_, ?_⟩ <;> rw [r_setRtc, r_inc_apart (by decide)]
  · rw [r_w_apart (by decide), r_w_apart (by decide), r_w_apart (by decide), r_w_val hsrc (by decide)]
  · rw [r_w_apart (by decide), r_w_apart (by decide), r_w_val hslot (by decide)]
  · rw [r_w_apart (by decide), r_w_val (by decide) (by decide)]
  · rw [r_w_val hfrom (by decide)]

/-- The return to RUN leaves the registers of every page but the recorder's and the power control's. -/
theorem r_toRun {g : Fld} (h : ¬ Elsewhere.OnPages [⟨10, 0⟩, ⟨0, 0⟩] (g.key 0 0)) (s : State) (by_ : Nat) : (s.toRun by_).r g = s.r g := by
  have hrec : Elsewhere [⟨10, 0⟩, ⟨0, 0⟩] s (s.toRun by_) := by
    unfold State.toRun State.setPower
    extract_lets old u
    have hpwr : Elsewhere [⟨10, 0⟩, ⟨0, 0⟩] s u := Elsewhere.w (Elsewhere.of_regs rfl) _ (by decide) (by decide)
    have hwritten : Elsewhere [⟨10, 0⟩, ⟨0, 0⟩] u (u.writeRec 0x423 [old, PwrState.run.num, by_]) :=
      fun d key hk => (Elsewhere.refl u).writeRec _ _ d key fun pg hpg => hk pg (List.mem_singleton.mp hpg ▸ List.mem_cons_self)
    exact (hpwr.trans hwritten).raise (by decide) (by decide) _ _
  exact hrec.r_eq h

theorem newtWake_doze {src : Fin 256} {n : Nat} (hslot : s.watchSlot src = some n) (hn : n < 32) (hidle : s.pwr.keepEntry = false)
    (hfirst : s.rtc.wakeAt ≠ some (s.tick t).up) (hst : s.pwr.st = .doze) (hsrc : ¬ (32 ≤ src.val ∧ src.val ≤ 71)) :
    Gives (.newtWake t src) s (fun u => u.pwr.st = .run ∧ u.r NWT.WAKE_SRC = src.val ∧ u.r NWT.WAKE_SLOT = n ∧
      u.r NWT.WAKE_VALID = 1 ∧ u.r NWT.WAKE_FROM = 1) := by
  have hexec : exec (.newtWake t src) s = .next (s.keepM (((s.tick t).recordWake n src 1).toRun 0)) := by
    have hslot' : (s.tick t).watchSlot src = some n := hslot
    simp [exec, execNewtWake, State.cmdM, State.answerM, hslot', hfirst, hidle, hst, hsrc]
  obtain ⟨hs, hl, hv, hf⟩ := recordWake_shows (s.tick t) (slot := n) (src := src.val) (from_ := 1) hn src.isLt (by decide)
  refine ⟨_, hexec, ?_⟩
  beta_reduce
  rw [r_keepM, r_keepM, r_keepM, r_keepM, r_toRun (Elsewhere.not_onPages (by decide)), r_toRun (Elsewhere.not_onPages (by decide)),
    r_toRun (Elsewhere.not_onPages (by decide)), r_toRun (Elsewhere.not_onPages (by decide)), hs, hl, hv, hf, keepM_pwr, State.toRun, setPower_pwr]
  exact ⟨rfl, rfl, rfl, rfl, rfl⟩

theorem newtWake_held {src : Fin 256} {n e : Nat} (hslot : s.watchSlot src = some n) (hn : n < 32) (hidle : s.pwr.keepEntry = false)
    (hfirst : s.rtc.wakeAt ≠ some (s.tick t).up) (hst : s.pwr.st = .keep) (hsrc : aonSource src = true) (hheld : s.rtc.wakeHeld = false)
    (hoff : s.rtc.offUntil = some e) (hearly : (s.tick t).up < e) :
    Gives (.newtWake t src) s (fun u => u.rtc.wakeHeld = true ∧ u.pwr.st = .keep ∧ u.r NWT.WAKE_SRC = src.val ∧ u.r NWT.WAKE_FROM = 2) := by
  have hexec : exec (.newtWake t src) s =
      .next (s.keepM (((s.tick t).recordWake n src 2).setRtc (fun k => { k with wakeHeld := true }))) := by
    have hslot' : (s.tick t).watchSlot src = some n := hslot
    have hoff' : ((s.tick t).recordWake n src 2).rtc.offUntil = some e := hoff
    have hearly' : ((s.tick t).recordWake n src 2).up < e := hearly
    simp [exec, execNewtWake, State.cmdM, State.answerM, hslot', hfirst, hidle, hst, hsrc, hheld, State.wakeKeep, hoff', hearly']
  obtain ⟨hs, -, -, hf⟩ := recordWake_shows (s.tick t) (slot := n) (src := src.val) (from_ := 2) hn src.isLt (by decide)
  exact ⟨_, hexec, rfl, hst, hs, hf⟩

/-! ### The end of the shortest off time (R406, R527) -/

/-- A filter by key keeps what it reads at a key that it keeps. -/
theorem sget_filter_kept {α : Type} (d : α) (m : List (Nat × α)) {keep : Nat → Bool} {k : Nat} (hk : keep k = true) :
    sget d (m.filter fun p => keep p.1) k = sget d m k := by
  induction m with
  | nil => rfl
  | cons p m ih =>
    obtain ⟨j, v⟩ := p
    by_cases hj : keep j
    · rw [List.filter_cons_of_pos (p := fun p : Nat × α => keep p.1) hj]
      simp only [sget, ih]
    · rw [List.filter_cons_of_neg (p := fun p : Nat × α => keep p.1) hj, ih]
      have hne : k ≠ j := by
        rintro rfl
        exact hj hk
      simp only [sget, if_neg hne]

/-- The AON island's values reach the fields of its pages that can be written alone. -/
theorem r_refreshAon {g : Fld} {j k : Nat} (h : ∀ f ∈ aonFields, ∀ i < f.n, g.key j k ≠ f.key 0 i) (s : State) : s.refreshAon.r g j k = s.r g j k := by
  refine List.foldlRecOn (motive := fun u => State.r u g j k = s.r g j k) _ _ rfl fun u hu f hf => ?_
  refine List.foldlRecOn (motive := fun u => State.r u g j k = s.r g j k) _ _ hu fun v hv i hi => ?_
  exact (r_w_ne _ _ _ _ _ _ _ _ (h f hf i (List.mem_range.mp hi))).trans hv

/-- PWRON_STATE outlives a reset (R406, R527). -/
theorem pwronState_sysReset (s : State) (cause : Nat) (hold brown unforce : Bool) :
    (s.sysReset cause hold brown unforce).r RTC.PWRON_STATE = s.r RTC.PWRON_STATE := by
  have hsurvives : survives (RTC.PWRON_STATE.key 0 0) = true := by decide +kernel
  have haon : ∀ f ∈ aonFields, ∀ i < f.n, RTC.PWRON_STATE.key 0 0 ≠ f.key 0 i := by decide +kernel
  unfold State.sysReset
  extract_lets frozen t0 t1 t2 t3 t4
  have hregs : t4.r RTC.PWRON_STATE = s.r RTC.PWRON_STATE := congrArg BitVec.toNat (sget_filter_kept _ s.regs hsurvives)
  unfold State.showForces
  dsimp only
  rw [r_wb_place (by decide), r_wb_place (by decide), r_w_place (by decide), r_wb_place (by decide), r_w_place (by decide), r_w_place (by decide),
    r_w_ne _ _ _ _ _ _ _ _ (by decide), r_w_ne _ _ _ _ _ _ _ _ (by decide), r_refreshAon haon, hregs]

theorem exec_minOffEnd {e : Nat} (hoff : s.rtc.offUntil = some e) (hdue : e ≤ (s.tick t).up) :
    exec (.minOffEnd t) s = .next (s.keepM (if s.rtc.wakeHeld then (s.tick t).wakeBoot else (s.tick t).setRtc fun k => { k with offUntil := none })) := by
  refine congrArg (fun u => Host.Outcome.next (s.keepM u)) ?_
  dsimp only
  rw [tick_rtc, hoff]
  exact if_pos hdue

/-- A held wake raises PWRON, and the device boots with its cause. -/
theorem wakeBoot_shows (s : State) : s.wakeBoot.r PCR.RESET_CAUSE = 2 ∧ s.wakeBoot.r RTC.PWRON_STATE = 1 ∧ s.wakeBoot.pwr.inReset = false := by
  have hreset := sysReset_resets ((s.setRtc (fun k => { k with offUntil := none, wakeHeld := false })).w RTC.PWRON_STATE 1) (cause := 2) (by decide)
    false false false
  refine ⟨hreset.cause, ?_, inReset_of_reset hreset⟩
  unfold State.wakeBoot
  rw [pwronState_sysReset, r_w_val (by decide) (by decide)]

theorem minOffEnd_wakes {e : Nat} (hoff : s.rtc.offUntil = some e) (hdue : e ≤ (s.tick t).up) (hheld : s.rtc.wakeHeld = true) :
    Gives (.minOffEnd t) s (fun u => u.r PCR.RESET_CAUSE = 2 ∧ u.r RTC.PWRON_STATE = 1 ∧ u.pwr.inReset = false) := by
  refine ⟨_, exec_minOffEnd hoff hdue, ?_⟩
  beta_reduce
  rw [if_pos hheld, r_keepM, r_keepM, keepM_pwr]
  exact wakeBoot_shows _

theorem minOffEnd_idles {e : Nat} (hoff : s.rtc.offUntil = some e) (hdue : e ≤ (s.tick t).up) (hfree : s.rtc.wakeHeld = false) :
    Gives (.minOffEnd t) s (fun u => u.rtc.offUntil = none ∧ u.regs = s.regs) := by
  refine ⟨_, exec_minOffEnd hoff hdue, ?_⟩
  rw [if_neg (by rw [hfree]; decide)]
  exact ⟨rfl, rfl⟩

/-- Settles O13: each clause is the branch of its command that the premises choose. -/
theorem keepAndWake : Obligations.KeepAndWake := by
  unfold Obligations.KeepAndWake
  intro t s
  exact ⟨fun r => pwrKeep_begins, keepEntryDone_enters,
    fun src n hslot hn hidle hfirst => ⟨newtWake_doze hslot hn hidle hfirst, fun e => newtWake_held hslot hn hidle hfirst⟩,
    fun e hoff hdue => ⟨minOffEnd_wakes hoff hdue, minOffEnd_idles hoff hdue⟩⟩

end Sys2Proof.WakeLaws
end

section
/-! The Keeper's stores: the mirrored MRAM, the scrub and the replacement of row groups (R531 to R533, R535, R539 to R542, R548, R549). -/

namespace Sys2Proof.StoreLaws

open Sys2Proof Sys2Proof.Machine Sys2Proof.Laws Sys2Proof.LogicPageLaws Sys2Proof.PageFieldLaws Sys2Proof.PowerLaws

variable {s : State} {t : Nat} {r : Requester} {d : Fin 2}

/-! ### The fields of the two devices -/

/-- A field that is neither device's. -/
theorem devFld_ne {g : Fld} (h0 : g.key 0 0 ≠ PST.DEV0_STATE.key 0 0) (h1 : g.key 0 0 ≠ PST.DEV1_STATE.key 0 0) (d : Nat) :
    g.key 0 0 ≠ (devFld d).key 0 0 := by
  unfold devFld
  split
  · exact h0
  · exact h1

theorem devFld_ne' {k : Nat} (h0 : PST.DEV0_STATE.key 0 0 ≠ k) (h1 : PST.DEV1_STATE.key 0 0 ≠ k) (d : Nat) : (devFld d).key 0 0 ≠ k := by
  unfold devFld
  split
  · exact h0
  · exact h1

theorem devFld_width (d : Nat) : (devFld d).width = 3 := by
  unfold devFld
  split <;> rfl

theorem otherFld_ne : ∀ d : Fin 2, (devFld (1 - d.val)).key 0 0 ≠ (devFld d).key 0 0 := by decide

/-- The state of a device reads back. -/
theorem r_devFld {v : Nat} (hv : v < 8) (s : State) (d : Nat) : (s.w (devFld d) v).r (devFld d) = v :=
  r_w_val (by rw [devFld_width]; exact hv) (by rw [devFld_width]; decide)

/-- A record that is written leaves the states of the devices. -/
theorem devFld_writeRec (s : State) (code : Nat) (pay : List Nat) (d : Nat) : (s.writeRec code pay).r (devFld d) = s.r (devFld d) := by
  unfold devFld
  split
  · exact Elsewhere.r_writeRec (Elsewhere.not_onPages (by decide)) _ _ _
  · exact Elsewhere.r_writeRec (Elsewhere.not_onPages (by decide)) _ _ _

theorem devFld_raise (s : State) (b : Nat) (hb : b < 32) (p : List Nat) (d : Nat) : (s.raise 3 0 b p).r (devFld d) = s.r (devFld d) := by
  refine r_raise _ _ _ _ _ _ _ _ _ ?_
  rw [pendKey, if_pos hb]
  exact devFld_ne' (by decide) (by decide) d

/-- Both devices are in OK state. -/
theorem devFld_ok (h0 : s.r PST.DEV0_STATE = 1) (h1 : s.r PST.DEV1_STATE = 1) (d : Nat) : s.r (devFld d) = 1 := by
  unfold devFld
  split
  · exact h0
  · exact h1

theorem mramOk_of {d : Nat} (h : s.r (devFld d) = 1) : s.mramOk = true := by
  unfold devFld at h
  unfold State.mramOk
  split at h
  · rw [h]
    rfl
  · rw [h, Bool.or_comm]
    rfl

/-! ### Failure, removal and insertion of a device (R532, R533) -/

/-- A device in OK state beside another fails, and the other one serves on (R532). -/
theorem devFail_beside (hd : s.r (devFld d) = 1) (hother : s.r (devFld (1 - d.val)) = 1) :
    s.devFail d = (s.w (devFld d) 2).raise 3 0 0 [d] := by
  have hkept : ((s.w (devFld d) 2).raise 3 0 0 [d]).r (devFld (1 - d.val)) = 1 := by
    rw [devFld_raise _ _ (by decide), r_w_apart (otherFld_ne d), hother]
  simp [State.devFail, hd, hkept, mramOk_of hkept]

theorem mramTimeout_fails (hkeep : s.islandOn .keep = true) (h0 : s.r PST.DEV0_STATE = 1) (h1 : s.r PST.DEV1_STATE = 1) :
    Gives (.mramTimeout t d) s (fun u => u.r (devFld d) = 2 ∧ u.r (devFld (1 - d.val)) = 1 ∧
      u.r PST.TIMEOUTS = min (s.r PST.TIMEOUTS + 1) (2 ^ PST.TIMEOUTS.width - 1)) := by
  have hok : ∀ d, ((s.tick t).inc PST.TIMEOUTS).r (devFld d) = 1 := fun d => by
    rw [State.inc, r_w_apart (devFld_ne' (by decide) (by decide) d), r_tick, devFld_ok h0 h1]
  refine ⟨_, runK_on hkeep t _, ?_⟩
  beta_reduce
  rw [devFail_beside (hok d) (hok _), r_keepK, r_keepK, r_keepK, devFld_raise _ _ (by decide), devFld_raise _ _ (by decide), r_raise_apart (by decide),
    r_devFld (by decide), r_w_apart (otherFld_ne d), hok, r_w_apart (devFld_ne (by decide) (by decide) d), r_inc_same _ _ _ _ _ (by decide)]
  exact ⟨rfl, rfl, rfl⟩

/-- A device in OK state beside another goes OUT (R533). -/
theorem pstRemove_removes (hopened : Opened s r ⟨3, 0⟩) (h0 : s.r PST.DEV0_STATE = 1) (h1 : s.r PST.DEV1_STATE = 1) :
    Gives (.pstRemove t r d) s (fun u => u.r (devFld d) = 3 ∧ u.r (devFld (1 - d.val)) = 1) := by
  have hok : ∀ d : Nat, ∀ v, (((s.tick t).countWrite ⟨3, 0⟩).w PST.DEV v).r (devFld d) = 1 := fun d v => by
    rw [r_w_apart (devFld_ne' (by decide) (by decide) d), r_countWrite _ _ _ _ _ (devFld_ne' (by decide) (by decide) d), r_tick, devFld_ok h0 h1]
  refine ⟨_, cmdK_lockedCmd hopened t _, ?_⟩
  dsimp only
  rw [if_neg (by rw [hok, hok]; decide), r_keepK, r_keepK, devFld_raise _ _ (by decide), devFld_raise _ _ (by decide), devFld_writeRec, devFld_writeRec,
    r_devFld (by decide), r_w_apart (otherFld_ne d), hok]
  exact ⟨rfl, rfl⟩

/-- A copy that is rewritten changes nothing but the list of bad copies (R531). -/
theorem rewriteCopy_keeps (s : State) (d : Nat) : ∃ bad, s.rewriteCopy d = s.setPwr fun k => { k with mramBad := bad } := by
  unfold State.rewriteCopy
  split
  · split
    · exact ⟨_, rfl⟩
    · exact ⟨s.pwr.mramBad, rfl⟩
  · exact ⟨s.pwr.mramBad, rfl⟩

theorem mramReadFix_counts (hkeep : s.islandOn .keep = true) (hfirst : s.pwr.fixTimes = []) :
    Gives (.mramReadFix t d) s (fun u =>
      u.r PST.READ_FIX = min (s.r PST.READ_FIX + 1) (2 ^ PST.READ_FIX.width - 1) ∧ u.pwr.fixTimes = [(d.val, (s.tick t).opSec)]) := by
  obtain ⟨bad, hcopy⟩ := rewriteCopy_keeps (s.tick t) d
  refine ⟨_, runK_on hkeep t _, ?_⟩
  dsimp only
  rw [hcopy, setPwr_pwr, tick_pwr, hfirst, List.filter_nil, if_neg (by simp), r_keepK, r_inc_same _ _ _ _ _ (by decide)]
  exact ⟨rfl, rfl⟩

/-- A device that is OUT beside one in OK state resynchronises from its first chunk (R533). -/
theorem pstInsert_starts (hopened : Opened s r ⟨3, 0⟩) (hout : s.r (devFld d) = 3) (hother : s.r (devFld (1 - d.val)) = 1) :
    Gives (.pstInsert t r d) s (fun u => u.r (devFld d) = 4 ∧ u.r PST.CHECKPOINT = 0 ∧ u.pwr.chunks = 0) := by
  have hkept : ∀ d : Nat, ∀ v, (((s.tick t).countWrite ⟨3, 0⟩).w PST.DEV v).r (devFld d) = s.r (devFld d) := fun d v => by
    rw [r_w_apart (devFld_ne' (by decide) (by decide) d), r_countWrite _ _ _ _ _ (devFld_ne' (by decide) (by decide) d), r_tick]
  refine ⟨_, cmdK_lockedCmd hopened t _, ?_⟩
  dsimp only
  rw [if_pos ⟨(hkept _ _).trans hout, (hkept _ _).trans hother⟩, r_keepK, r_keepK, r_setPwr, r_setPwr,
    r_w_apart (devFld_ne' (by decide) (by decide) d), r_w_apart (devFld_ne' (by decide) (by decide) d), r_devFld (by decide), r_w_apart (by decide),
    r_w_val (by decide) (by decide)]
  exact ⟨rfl, rfl, rfl⟩

/-! ### Resynchronisation (R533) -/

/-- A chunk is copied and its checkpoint kept. -/
def chunkCopied (s : State) : State :=
  ((s.setPwr fun k => { k with chunks := s.pwr.chunks + 1, mramBad := k.mramBad.filter fun p => !(p.1 == 0 && p.2 / 65536 == s.pwr.chunks + 1 - 1) }).w
    PST.CHECKPOINT (s.pwr.chunks + 1 - 1)).w PST.RESYNC_PCT (100 * (s.pwr.chunks + 1) / 256)

theorem exec_resyncChunkDone (hkeep : s.islandOn .keep = true) (hdev : s.r PST.DEV0_STATE = 4) (hfw : s.r SEC.FW_STATE = 0) :
    exec (.resyncChunkDone t) s = .next (s.keepK (if s.pwr.chunks + 1 < 256 then chunkCopied (s.tick t)
      else (((chunkCopied (s.tick t)).w PST.DEV0_STATE 1).raise 3 0 1 [0]).persistBack)) := by
  have hfirst : (if (s.tick t).r PST.DEV0_STATE = 4 then 0 else 1) = 0 := if_pos hdev
  have hruns : ¬ ((s.tick t).r (devFld 0) ≠ 4 ∨ ((s.tick t).r SEC.FW_STATE ≠ 0 ∧ (!(s.tick t).sec.waits) = true)) :=
    not_or.mpr ⟨not_not.mpr hdev, fun h => h.1 hfw⟩
  refine (runK_on hkeep t _).trans (congrArg (fun u => Host.Outcome.next (s.keepK u)) ?_)
  dsimp only
  rw [hfirst]
  exact if_neg hruns

theorem chunkCopied_shows (hfew : s.pwr.chunks < 256) : (chunkCopied s).r PST.CHECKPOINT = s.pwr.chunks ∧
    (chunkCopied s).r PST.DEV0_STATE = s.r PST.DEV0_STATE := by
  unfold chunkCopied
  rw [r_w_apart (by decide), r_w_val hfew (by decide), r_w_apart (by decide), r_w_apart (by decide)]
  exact ⟨rfl, rfl⟩

theorem resyncChunkDone_goesOn (hkeep : s.islandOn .keep = true) (hdev : s.r PST.DEV0_STATE = 4) (hfw : s.r SEC.FW_STATE = 0)
    (hfew : s.pwr.chunks < 255) :
    Gives (.resyncChunkDone t) s (fun u => u.pwr.chunks = s.pwr.chunks + 1 ∧ u.r PST.CHECKPOINT = s.pwr.chunks ∧ u.r PST.DEV0_STATE = 4) := by
  obtain ⟨hpoint, hstate⟩ := chunkCopied_shows (s := s.tick t) (show s.pwr.chunks < 256 by omega)
  refine ⟨_, exec_resyncChunkDone hkeep hdev hfw, ?_⟩
  beta_reduce
  rw [if_pos (by omega), r_keepK, r_keepK, hpoint, hstate]
  exact ⟨rfl, rfl, hdev⟩

theorem resyncChunkDone_ends (hkeep : s.islandOn .keep = true) (hdev : s.r PST.DEV0_STATE = 4) (hfw : s.r SEC.FW_STATE = 0)
    (hlast : s.pwr.chunks = 255) : Gives (.resyncChunkDone t) s (fun u => u.r PST.DEV0_STATE = 1) := by
  refine ⟨_, exec_resyncChunkDone hkeep hdev hfw, ?_⟩
  beta_reduce
  rw [if_neg (by omega), r_keepK, (Elsewhere.persistBack (Elsewhere.refl _)).r_eq (Elsewhere.not_onPages (by decide)), r_raise_apart (by decide),
    r_w_val (by decide) (by decide)]

/-! ### Counters (R548, R549) -/

theorem kprCtrClr_clears (htakes : Takes s r ⟨1, 0⟩) :
    Gives (.kprCtrClr t r) s (fun u => u.r KPR.CE_TOTAL = 0 ∧ u.r KPR.UE_TOTAL = 0 ∧ u.r KPR.POISON_COUNT = 0 ∧
      u.r KPR.KPR_RESETS = 0 ∧ u.r KPR.LIFE_USED = s.r KPR.LIFE_USED) := by
  refine ⟨_, cmdK_seen htakes t _, ?_⟩
  beta_reduce
  simp (disch := decide) only [r_keepK, r_w_apart, r_w_val, r_seen_apart, and_self]

theorem pstCtrClr_clears (htakes : Takes s r ⟨3, 0⟩) :
    Gives (.pstCtrClr t r) s (fun u => u.r PST.READ_FIX = 0 ∧ u.r PST.TIMEOUTS = 0 ∧ u.r PST.REFUSED = 0 ∧
      u.r PST.DEV0_STATE = s.r PST.DEV0_STATE ∧ u.r PST.DEV1_STATE = s.r PST.DEV1_STATE) := by
  refine ⟨_, cmdK_seen htakes t _, ?_⟩
  beta_reduce
  simp (disch := decide) only [r_keepK, r_w_apart, r_w_val, r_seen_apart, and_self]

/-- Settles O15: each clause is the branch of its command that the premises choose. -/
theorem persistentStore : Obligations.PersistentStore := by
  unfold Obligations.PersistentStore
  intro t s
  exact ⟨fun d h0 h1 => ⟨fun hkeep => mramTimeout_fails hkeep h0 h1, fun r hopened => pstRemove_removes hopened h0 h1⟩,
    fun d hkeep hfirst => mramReadFix_counts hkeep hfirst, fun d r hopened hout hother => pstInsert_starts hopened hout hother,
    fun hkeep hdev hfw => ⟨resyncChunkDone_goesOn hkeep hdev hfw, resyncChunkDone_ends hkeep hdev hfw⟩, fun r => kprCtrClr_clears, fun r => pstCtrClr_clears⟩

/-! ### The scrub (R535, R539) -/

theorem scrubRead_corrected (hkeep : s.islandOn .keep = true) (mem : ScrubMem) (a : Nat) :
    Gives (.scrubRead t mem a .corrected) s (fun u =>
      u.r KPR.CE_TOTAL = min (s.r KPR.CE_TOTAL + 1) (2 ^ KPR.CE_TOTAL.width - 1) ∧ u.r KPR.UE_TOTAL = s.r KPR.UE_TOTAL) := by
  have hcounted : ((s.tick t).inc KPR.CE_TOTAL).r KPR.CE_TOTAL = min (s.r KPR.CE_TOTAL + 1) (2 ^ KPR.CE_TOTAL.width - 1) ∧
      ((s.tick t).inc KPR.CE_TOTAL).r KPR.UE_TOTAL = s.r KPR.UE_TOTAL :=
    ⟨r_inc_same _ _ _ _ _ (by decide), r_inc_apart (by decide) 1⟩
  refine ⟨_, runK_on hkeep t _, ?_⟩
  dsimp only
  split
  · exact hcounted
  · exact hcounted

/-- A word with an uncorrectable error stands in the list of bad words. -/
def badMarked (s : State) (k a : Nat) : State := s.setPwr fun p => { p with bad := (k, a) :: p.bad.filter fun b => !(b == (k, a)) }

theorem mem_badMarked (s : State) (k a : Nat) : (k, a) ∈ (badMarked s k a).pwr.bad := List.mem_cons_self

/-- What an uncorrectable word of each memory leads to, where no block acts on it (R295, R535, R542). -/
theorem scrubBad_solver (s : State) (a : Nat) : s.scrubBad .solver a = badMarked s 0 a := rfl
theorem scrubBad_data (s : State) (a : Nat) : s.scrubBad .data a = (badMarked s 4 a).health 4 (scrubNum .data) 0 := rfl
theorem scrubBad_ret (s : State) (a : Nat) : s.scrubBad .ret a = (badMarked s 5 a).health 4 (scrubNum .ret) 0 := rfl

theorem scrubBad_plain {mem : ScrubMem} (hmem : mem ∈ [ScrubMem.general, .image, .ring, .patch]) (s : State) (a : Nat) :
    s.scrubBad mem a = s.health 4 (scrubNum mem) 0 := by
  simp only [List.mem_cons, List.not_mem_nil, or_false] at hmem
  rcases hmem with rfl | rfl | rfl | rfl
  all_goals rfl

/-- What an uncorrectable word of these memories leaves. -/
theorem scrubBad_shows {mem : ScrubMem} (hmem : mem ∈ [ScrubMem.solver, .general, .data, .ret, .image, .ring, .patch]) (s : State) (a : Nat) :
    (s.scrubBad mem a).r KPR.UE_TOTAL = s.r KPR.UE_TOTAL ∧ (mem = .solver → (0, a) ∈ (s.scrubBad mem a).pwr.bad) ∧
    (mem = .data → (4, a) ∈ (s.scrubBad mem a).pwr.bad) ∧ (mem = .ret → (5, a) ∈ (s.scrubBad mem a).pwr.bad) := by
  have hplain : ∀ mem ∈ [ScrubMem.general, .image, .ring, .patch], (s.scrubBad mem a).r KPR.UE_TOTAL = s.r KPR.UE_TOTAL := fun mem hmem => by
    rw [scrubBad_plain hmem, r_health _ _ _ _ _ _ _ (by decide)]
  cases mem
  case solver => exact ⟨rfl, fun _ => mem_badMarked s 0 a, nofun, nofun⟩
  case data =>
    rw [scrubBad_data, r_health _ _ _ _ _ _ _ (by decide), health_pwr]
    exact ⟨rfl, nofun, fun _ => mem_badMarked s 4 a, nofun⟩
  case ret =>
    rw [scrubBad_ret, r_health _ _ _ _ _ _ _ (by decide), health_pwr]
    exact ⟨rfl, nofun, nofun, fun _ => mem_badMarked s 5 a⟩
  case general => exact ⟨hplain _ (by decide), nofun, nofun, nofun⟩
  case image => exact ⟨hplain _ (by decide), nofun, nofun, nofun⟩
  case ring => exact ⟨hplain _ (by decide), nofun, nofun, nofun⟩
  case patch => exact ⟨hplain _ (by decide), nofun, nofun, nofun⟩
  case loop => exact absurd hmem (by decide)
  case rc => exact absurd hmem (by decide)
  case prog => exact absurd hmem (by decide)

theorem scrubRead_uncorrectable (hkeep : s.islandOn .keep = true) {mem : ScrubMem} (a : Nat)
    (hmem : mem ∈ [ScrubMem.solver, .general, .data, .ret, .image, .ring, .patch]) :
    Gives (.scrubRead t mem a .uncorrectable) s (fun u =>
      u.r KPR.UE_TOTAL = min (s.r KPR.UE_TOTAL + 1) (2 ^ KPR.UE_TOTAL.width - 1) ∧
      (mem = .solver → (0, a) ∈ u.pwr.bad) ∧ (mem = .data → (4, a) ∈ u.pwr.bad) ∧ (mem = .ret → (5, a) ∈ u.pwr.bad)) := by
  obtain ⟨htotal, hbad⟩ := scrubBad_shows hmem ((s.tick t).inc KPR.UE_TOTAL) a
  refine ⟨_, runK_on hkeep t _, ?_, hbad⟩
  dsimp only
  rw [r_keepK, htotal, r_inc_same _ _ _ _ _ (by decide)]
  rfl

/-! ### Replacement of a row group (R539 to R542) -/

theorem rowgroupReplace_copies {bank : Fin 64} {grp : Fin 256} {n : Nat} {rest : List Nat} (hkeep : s.islandOn .keep = true)
    (hidle : s.pwr.copying = none) (hdue : (s.tick t).groupDue bank grp = true) (hfirst : ∀ g, g < grp.val → (s.tick t).groupDue bank g = false)
    (hspare : s.freeSpareGroups bank = n :: rest) :
    Gives (.rowgroupReplace t bank grp) s (fun u => ∃ m, u.pwr.copying = some m ∧ m.bank = bank.val ∧ m.grp = grp.val ∧
      m.target = 256 + n ∧ u.regs = s.regs) := by
  have hnone : (List.range grp).any ((s.tick t).groupDue bank) = false :=
    List.any_eq_false.mpr fun g hg => by rw [hfirst g (List.mem_range.mp hg)]; decide
  have hcopies : ¬ ((s.tick t).pwr.copying.isSome = true ∨ (!(s.tick t).groupDue bank grp) = true ∨ (List.range grp).any ((s.tick t).groupDue bank) = true) := by
    rw [tick_pwr, hidle, hdue, hnone]
    decide
  have hspare' : (s.tick t).freeSpareGroups bank = n :: rest := hspare
  refine ⟨_, runK_on hkeep t _, ?_⟩
  dsimp only
  rw [if_neg hcopies, hspare']
  exact ⟨_, rfl, rfl, rfl, rfl, rfl⟩

theorem commitGroup_commits {m : RowMap} (hcopy : s.pwr.copying = some m) (hok : s.mramOk = true) (hspare : 256 ≤ m.target) :
    s.commitGroup.pwr.copying = none ∧ { m with committed := true } ∈ s.commitGroup.pwr.repair := by
  unfold State.commitGroup
  simp -zeta only [hcopy]
  rw [if_neg (by rw [hok]; decide)]
  extract_lets lost u v w num x y
  have hw : w.pwr = v.pwr := by
    unfold w
    split
    · rfl
    · rfl
  rw [if_pos hspare, raise_pwr, writeRec_pwr, hw]
  exact ⟨rfl, List.mem_append_right _ (List.mem_singleton_self _)⟩

/-- Settles O16: the scrub counts, the copy starts and its commit enters it. -/
theorem scrubAndRepair : Obligations.ScrubAndRepair := by
  unfold Obligations.ScrubAndRepair
  intro t s hkeep
  exact ⟨fun mem a => scrubRead_corrected hkeep mem a, fun mem a => scrubRead_uncorrectable hkeep a,
    fun bank grp n rest hidle hdue hfirst hspare => rowgroupReplace_copies hkeep hidle hdue hfirst hspare,
    fun m hcopy hok hspare => ⟨_, runK_on hkeep t _, commitGroup_commits (s := s.tick t) hcopy hok hspare⟩⟩

end Sys2Proof.StoreLaws
end

section
/-! The chain: rules of its operations, and ports, membership, addresses, time and frames of a unit (R477 to R485, R499). -/

namespace Sys2Proof.ChainLaws

open Sys2Proof Sys2Proof.Machine Sys2Proof.Laws Sys2Proof.LogicPageLaws Sys2Proof.PageFieldLaws

variable {s u v : State} {t : Nat} {r : Requester} {up : Bool}

/-! ### Rules of the operations -/

/-- While no HELLO round is under way there is nothing to settle (R482). -/
theorem settle_idle (h : s.dch.helloAt = 0) : s.settle = s := by
  rw [State.settle]
  exact if_pos (.inl h)

/-- A frame that is sent takes a number of its class and stands at the ports it leaves by (R480). -/
theorem chainSend_sends (s : State) (dst cls typ : Nat) (pay : List Nat) :
    ∃ seqTx sent, s.chainSend dst cls typ pay = s.setDch fun d => { d with seqTx := seqTx, sent := sent } := by
  have hport : ∀ (w : State) p f, (∃ seqTx sent, w = s.setDch fun d => { d with seqTx := seqTx, sent := sent }) →
      ∃ seqTx sent, w.putChain p f = s.setDch fun d => { d with seqTx := seqTx, sent := sent } := by
    rintro w p f ⟨seqTx, sent, rfl⟩
    unfold State.putChain
    split
    · exact ⟨_, _, rfl⟩
    · exact ⟨_, _, rfl⟩
  unfold State.chainSend
  split
  · exact ⟨_, _, rfl⟩
  · extract_lets n w f goUp
    have hw : ∃ seqTx sent, w = s.setDch fun d => { d with seqTx := seqTx, sent := sent } := ⟨_, _, rfl⟩
    split
    · exact hport _ _ _ hw
    · split
      · exact hport _ _ _ (hport _ _ _ hw)
      · split
        · split
          · exact hport _ _ _ hw
          · exact hport _ _ _ hw
        · exact hport _ _ _ hw

@[simp] theorem chainSend_regs (s : State) (dst cls typ : Nat) (pay : List Nat) : (s.chainSend dst cls typ pay).regs = s.regs := by
  obtain ⟨seqTx, sent, h⟩ := chainSend_sends s dst cls typ pay
  rw [h, setDch_regs]

@[simp] theorem r_chainSend (s : State) (dst cls typ : Nat) (pay : List Nat) (g : Fld) (j k : Nat) :
    (s.chainSend dst cls typ pay).r g j k = s.r g j k := by
  unfold State.r
  rw [chainSend_regs]

@[simp] theorem chainSend_up (s : State) (dst cls typ : Nat) (pay : List Nat) : (s.chainSend dst cls typ pay).up = s.up := by
  obtain ⟨seqTx, sent, h⟩ := chainSend_sends s dst cls typ pay
  rw [h, setDch_up]

@[simp] theorem dchEvt_dch (s : State) (bit addr kind serial : Nat) (extra : List Nat) : (s.dchEvt bit addr kind serial extra).dch = s.dch :=
  raise_dch _ _ _ _ _ _

@[simp] theorem dchEvt_up (s : State) (bit addr kind serial : Nat) (extra : List Nat) : (s.dchEvt bit addr kind serial extra).up = s.up :=
  raise_up _ _ _ _ _ _

theorem r_dchEvt {g : Fld} {bit : Nat} (h : g.key 0 0 ≠ pendKey 11 0 bit) (s : State) (addr kind serial : Nat) (extra : List Nat) :
    (s.dchEvt bit addr kind serial extra).r g = s.r g := r_raise_apart h _ _

/-! ### Ports (R477, R482) -/

/-- What a new HELLO round leaves: it runs, and the ring is not known to be whole. -/
theorem beginRound_starts (s : State) : s.beginRound.dch.helloAt = max 1 s.up ∧ s.beginRound.r DCH.RING_OK = 0 := by
  unfold State.beginRound State.sendHello
  extract_lets own
  obtain ⟨seqTx, sent, h⟩ := chainSend_sends ((s.setDch (fun d => { d with helloAt := max 1 s.up })).w DCH.RING_OK 0) 0xFF 1 0
    (beBytes 8 own.serial ++ [own.addr] ++ beBytes 4 own.gen ++ beBytes 2 own.proto ++ [roleCode own.role] ++ beBytes 4 own.epoch.toNat)
  rw [h, r_setDch, r_w_val (by decide) (by decide)]
  exact ⟨rfl, rfl⟩

/-- The round leaves every field but RING_OK, the members and what has been heard. -/
theorem beginRound_keeps (s : State) : (∀ g : Fld, g.key 0 0 ≠ DCH.RING_OK.key 0 0 → s.beginRound.r g = s.r g) ∧
    s.beginRound.dch.members = s.dch.members ∧ s.beginRound.dch.heard = s.dch.heard := by
  unfold State.beginRound State.sendHello
  extract_lets own
  obtain ⟨seqTx, sent, h⟩ := chainSend_sends ((s.setDch (fun d => { d with helloAt := max 1 s.up })).w DCH.RING_OK 0) 0xFF 1 0
    (beBytes 8 own.serial ++ [own.addr] ++ beBytes 4 own.gen ++ beBytes 2 own.proto ++ [roleCode own.role] ++ beBytes 4 own.epoch.toNat)
  rw [h]
  refine ⟨fun g hg => ?_, rfl, rfl⟩
  rw [r_setDch, r_w_apart hg, r_setDch]

/-- The field that shows a port. -/
def portFld (up : Bool) : Fld := if up then DCH.UP_OK else DCH.DOWN_OK

/-- The number of a port. -/
def portNo (up : Bool) : Nat := if up then 0 else 1

theorem chainPort_eq (s : State) (up : Bool) : s.chainPort (portNo up) = s.on (portFld up) := by cases up <;> rfl

theorem chainPortTo_same {ok : Bool} (h : s.chainPort (portNo up) = ok) : s.chainPortTo up ok = s := by
  rw [State.chainPortTo]
  exact if_pos h

/-- A port that changes state begins a HELLO round (R482). -/
theorem chainPortTo_changes {ok : Bool} (h : s.chainPort (portNo up) ≠ ok) :
    (s.chainPortTo up ok).on (portFld up) = ok ∧ (s.chainPortTo up ok).r DCH.RING_OK = 0 ∧
    (s.chainPortTo up ok).dch.helloAt = max 1 s.up := by
  have hchanged : ∃ w : State, s.chainPortTo up ok = w.beginRound ∧ w.r (portFld up) = ok.toNat ∧ w.up = s.up := by
    unfold State.chainPortTo
    extract_lets p v x y
    rw [if_neg (show ¬ s.chainPort p = ok from h)]
    have hshown : x.r (portFld up) = ok.toNat := by
      unfold x v
      cases up
      · exact (r_raise_apart (by decide) _ _).trans (r_wb_same _ _ _ _ _ (by decide) (by decide))
      · exact (r_raise_apart (by decide) _ _).trans (r_wb_same _ _ _ _ _ (by decide) (by decide))
    have hup : x.up = s.up := raise_up _ _ _ _ _ _
    refine ⟨y, rfl, ?_, ?_⟩
    · unfold y
      split
      · exact hshown
      · rw [r_setDch]
        refine Eq.trans ?_ hshown
        cases up
        · exact r_inc_apart (by decide) _
        · exact r_inc_apart (by decide) _
    · unfold y
      split
      · exact hup
      · exact hup
  obtain ⟨w, hround, hshown, hup⟩ := hchanged
  obtain ⟨hhello, hring⟩ := beginRound_starts w
  obtain ⟨hkept, -, -⟩ := beginRound_keeps w
  have happart : (portFld up).key 0 0 ≠ DCH.RING_OK.key 0 0 := by cases up <;> decide
  rw [hround, State.on, hkept _ happart, hshown, hring, hhello, hup]
  exact ⟨by cases ok <;> rfl, rfl, rfl⟩

theorem chainLinkChange_shows {ok : Bool} (hnet : s.islandOn .net = true) (hidle : s.dch.helloAt = 0) (h : s.chainPort (portNo up) ≠ ok) :
    Gives (.chainLinkChange t up ok) s (fun u => u.on (portFld up) = ok ∧ u.r DCH.RING_OK = 0 ∧ u.dch.helloAt = max 1 (s.tick t).up) := by
  refine ⟨_, runK_on hnet t _, ?_⟩
  beta_reduce
  rw [settle_idle (s := s.tick t) hidle]
  exact chainPortTo_changes (s := s.tick t) h

theorem creditTimeout_closes (hnet : s.islandOn .net = true) (hidle : s.dch.helloAt = 0) (h : s.chainPort (portNo up) = true) :
    Gives (.creditTimeout t up) s (fun u => u.on (portFld up) = false ∧ u.r DCH.RING_OK = 0) := by
  refine ⟨_, runK_on hnet t _, ?_⟩
  beta_reduce
  rw [settle_idle (s := s.tick t) hidle]
  obtain ⟨hshown, hring, -⟩ := chainPortTo_changes (s := s.tick t) (up := up) (ok := false) (by rw [show (s.tick t).chainPort (portNo up) = true from h]; decide)
  exact ⟨hshown, hring⟩

theorem linkRetrain_opens (hnet : s.islandOn .net = true) (hidle : s.dch.helloAt = 0) (h : s.chainPort (portNo up) = false) :
    Gives (.linkRetrain t up true) s (fun u => u.on (portFld up) = true) ∧
    Gives (.linkRetrain t up false) s (fun u => u.regs = s.regs ∧ u.dch = s.dch) := by
  have hdown : (s.tick t).chainPort (portNo up) = false := h
  have hexec : ∀ ok, exec (.linkRetrain t up ok) s = .next (s.keepK ((s.tick t).chainPortTo up ok)) := fun ok => by
    refine (runK_on hnet t _).trans (congrArg (fun u => Host.Outcome.next (s.keepK u)) ?_)
    refine (if_neg ?_).trans ?_
    · rw [show (s.tick t).chainPort (if up then 0 else 1) = false from h]
      decide
    · rw [settle_idle (s := s.tick t) hidle]
  obtain ⟨hshown, -, -⟩ := chainPortTo_changes (s := s.tick t) (up := up) (ok := true) (by rw [hdown]; decide)
  refine ⟨⟨_, hexec true, hshown⟩, ⟨_, hexec false, ?_⟩⟩
  rw [chainPortTo_same hdown]
  exact ⟨rfl, rfl⟩

theorem chainDelayMeasure_notes {d : Nat} (hnet : s.islandOn .net = true) (hidle : s.dch.helloAt = 0) (h : s.chainPort (portNo up) = true) :
    Gives (.chainDelayMeasure t up d) s (fun u => sget 0 u.dch.linkDelay (portNo up) = d ∧ u.regs = s.regs) := by
  refine ⟨_, runK_on hnet t _, ?_⟩
  dsimp only
  rw [settle_idle (s := s.tick t) hidle, if_pos (show (s.tick t).chainPort (if up then 0 else 1) = true from h)]
  exact ⟨sget_sput_same _ _ _ _, rfl⟩

/-! ### Frames (R478 to R480) -/

/-- A frame on a port that is up, of a unit that takes part. -/
theorem exec_chainFrameRx {g : ChainFrame} {v : State} (hnet : s.islandOn .net = true) (hidle : s.dch.helloAt = 0) (hen : s.enabled 11 = true)
    (h : s.chainPort (portNo up) = true)
    (hv : (if (!g.crcOk) = true then
        (if g.cls = 2 then ((s.tick t).inc DCH.CRC_ERRS).dchEvt 8 g.src 0 else (s.tick t).inc DCH.CRC_ERRS)
      else if g.src = s.r DCH.UNIT_ADDR then
        (if g.dst = 0xFF ∧ s.on DCH.UP_OK ∧ s.on DCH.DOWN_OK then (s.tick t).w DCH.RING_OK 1 else s.tick t)
      else if g.dst = 0xFF then ((s.tick t).takeFrame (portNo up) g).forwardFrame (portNo up) g
      else if g.dst = s.r DCH.UNIT_ADDR then (s.tick t).takeFrame (portNo up) g
      else (s.tick t).forwardFrame (portNo up) g) = v) :
    exec (.chainFrameRx t up g) s = .next (s.keepS v) := by
  have htaken : ¬ ((!(s.tick t).enabled 11) = true ∨ (!(s.tick t).chainPort (portNo up)) = true) := by
    rw [show (s.tick t).enabled 11 = true from hen, show (s.tick t).chainPort (portNo up) = true from h]
    decide
  rw [← hv]
  refine (runS_on hnet t _).trans (congrArg (fun u => Host.Outcome.next (s.keepS u)) ?_)
  refine (if_neg htaken).trans ?_
  rw [settle_idle (s := s.tick t) hidle]
  rfl

theorem chainFrameRx_bad {g : ChainFrame} (hnet : s.islandOn .net = true) (hidle : s.dch.helloAt = 0) (hen : s.enabled 11 = true)
    (h : s.chainPort (portNo up) = true) (hcrc : g.crcOk = false) :
    Gives (.chainFrameRx t up g) s (fun u => u.r DCH.CRC_ERRS = min (s.r DCH.CRC_ERRS + 1) (2 ^ 16 - 1) ∧ u.dch = s.dch) := by
  refine ⟨_, exec_chainFrameRx hnet hidle hen h (if_pos (by rw [hcrc]; rfl)), ?_⟩
  beta_reduce
  rw [r_keepS, keepS_dch]
  split
  · rw [r_dchEvt (by decide), r_inc_same _ _ _ _ _ (by decide), dchEvt_dch]
    exact ⟨rfl, rfl⟩
  · exact ⟨r_inc_same _ _ _ _ _ (by decide), rfl⟩

theorem chainFrameRx_own {g : ChainFrame} (hnet : s.islandOn .net = true) (hidle : s.dch.helloAt = 0) (hen : s.enabled 11 = true)
    (h : s.chainPort (portNo up) = true) (hcrc : g.crcOk = true) (hsrc : g.src = s.r DCH.UNIT_ADDR) (hdst : g.dst = 0xFF)
    (hup : s.on DCH.UP_OK = true) (hdown : s.on DCH.DOWN_OK = true) :
    Gives (.chainFrameRx t up g) s (fun u => u.r DCH.RING_OK = 1 ∧ u.dch = s.dch) := by
  refine ⟨_, exec_chainFrameRx hnet hidle hen h ((if_neg (by rw [hcrc]; decide)).trans ((if_pos hsrc).trans (if_pos ⟨hdst, hup, hdown⟩))), ?_⟩
  beta_reduce
  rw [r_keepS, r_w_val (by decide) (by decide)]
  exact ⟨rfl, rfl⟩

theorem exec_chainFrameRx_passing {g : ChainFrame} (hnet : s.islandOn .net = true) (hidle : s.dch.helloAt = 0) (hen : s.enabled 11 = true)
    (h : s.chainPort (portNo up) = true) (hcrc : g.crcOk = true) (hsrc : g.src ≠ s.r DCH.UNIT_ADDR) (hdst : g.dst ≠ s.r DCH.UNIT_ADDR)
    (haddressed : g.dst ≠ 0xFF) : exec (.chainFrameRx t up g) s = .next (s.keepS ((s.tick t).forwardFrame (portNo up) g)) :=
  exec_chainFrameRx hnet hidle hen h
    ((if_neg (by rw [hcrc]; decide)).trans ((if_neg hsrc).trans ((if_neg haddressed).trans (if_neg hdst))))

theorem chainFrameRx_passing {g : ChainFrame} (hnet : s.islandOn .net = true) (hidle : s.dch.helloAt = 0) (hen : s.enabled 11 = true)
    (h : s.chainPort (portNo up) = true) (hcrc : g.crcOk = true) (hsrc : g.src ≠ s.r DCH.UNIT_ADDR) (hdst : g.dst ≠ s.r DCH.UNIT_ADDR)
    (haddressed : g.dst ≠ 0xFF) :
    (g.hops ≤ 1 → Gives (.chainFrameRx t up g) s (fun u => u.dch = s.dch ∧ u.regs = s.regs)) ∧
    (1 < g.hops → g.cls ≠ 0 → s.chainPort (1 - portNo up) = true →
      Gives (.chainFrameRx t up g) s (fun u => sget {} u.dch.sent (1 - portNo up) = { g with hops := g.hops - 1 } ∧ u.regs = s.regs)) := by
  have hexec := exec_chainFrameRx_passing (t := t) hnet hidle hen h hcrc hsrc hdst haddressed
  refine ⟨fun hlast => ⟨_, hexec, ?_⟩, fun hmore hcls hout => ⟨_, hexec, ?_⟩⟩
  · rw [State.forwardFrame, if_pos hlast]
    exact ⟨rfl, rfl⟩
  · rw [State.forwardFrame, if_neg (Nat.not_le.mpr hmore), if_neg hcls, State.putChain,
      if_pos (show (s.tick t).chainPort (1 - portNo up) = true from hout)]
    exact ⟨sget_sput_same _ _ _ _, rfl⟩

/-! ### Tables and claims (R483, R484) -/

/-- A table is proposed under the next BIND_GEN; no register moves. -/
theorem propose_shows (s : State) (table : List (Nat × Nat)) :
    (s.propose table).regs = s.regs ∧ (s.propose table).dch.newTable = some ((s.r DCH.BIND_GEN + 1) % 2 ^ 32, table) ∧
    (s.propose table).dch.members = s.dch.members ∧ (s.propose table).dch.heard = s.dch.heard ∧ (s.propose table).dch.table = s.dch.table := by
  unfold State.propose
  extract_lets gen
  obtain ⟨seqTx, sent, h⟩ := chainSend_sends (s.setDch (fun d => { d with newTable := some (gen, table) })) 0xFF 1 4
    (beBytes 4 gen ++ table.flatMap (fun p => p.1 :: beBytes 8 p.2))
  rw [h]
  exact ⟨rfl, rfl, rfl, rfl, rfl⟩

/-- The keys of the condition that a claim waits (R484, R500). -/
def claimKeys : List Nat := [pendKey 11 0 10, rawKey 11 0 10]

/-- What the steps of claiming can change: the claims, a proposed table with what is sent for it, and the condition that a claim waits. -/
def Claims (s u : State) : Prop :=
  (∀ g : Fld, g.key 0 0 ∉ claimKeys → u.r g = s.r g) ∧ u.dch.members = s.dch.members ∧ u.dch.heard = s.dch.heard ∧ u.dch.table = s.dch.table

theorem claims_trans (h : Claims s u) (k : Claims u v) : Claims s v := by
  obtain ⟨hreg, hmem, hheard, htab⟩ := h
  obtain ⟨kreg, kmem, kheard, ktab⟩ := k
  exact ⟨fun g hg => (kreg g hg).trans (hreg g hg), kmem.trans hmem, kheard.trans hheard, ktab.trans htab⟩

theorem claims_setRaw (s : State) (b : Bool) (p q : List Nat) : Claims s (s.setRaw 11 0 10 b p q) := by
  refine ⟨fun g hg => ?_, by rw [setRaw_dch], by rw [setRaw_dch], by rw [setRaw_dch]⟩
  simp only [claimKeys, List.mem_cons, List.not_mem_nil, or_false, not_or] at hg
  exact r_setRaw _ _ _ _ _ _ _ _ _ _ hg.1 hg.2

theorem claims_claimBind (s : State) (a x : Nat) : Claims s (s.claimBind a x) := by
  obtain ⟨hregs, -, hmem, hheard, htab⟩ := propose_shows s (sput s.dch.table a x)
  refine ⟨fun g _ => ?_, hmem, hheard, htab⟩
  unfold State.claimBind State.r
  rw [hregs]

theorem claims_claimStep (s : State) : Claims s s.claimStep := by
  unfold State.claimStep
  extract_lets free un claims w y
  have hw : Claims s w := ⟨fun _ _ => rfl, rfl, rfl, rfl⟩
  clear_value free un
  split
  · have hy : Claims s y := claims_trans hw (claims_setRaw w _ _ _)
    split
    · split
      · exact claims_trans hy (claims_claimBind y _ _)
      · exact hy
    · exact hy
  · exact claims_trans hw (claims_setRaw w _ _ _)

theorem r_claimStep {g : Fld} (hg : g.key 0 0 ∉ claimKeys) (s : State) : s.claimStep.r g = s.r g := (claims_claimStep s).1 g hg

/-- A command of the page as a write of it sees the state. -/
theorem settle_seen (hidle : s.dch.helloAt = 0) : (writeSeen s t dchPage).settle = writeSeen s t dchPage := settle_idle (s := writeSeen s t dchPage) hidle

theorem r_seen {g : Fld} (h : g.key 0 0 ≠ (hdr HDR.COUNT ⟨11, 0⟩).key 0 0) : (writeSeen s t dchPage).r g = s.r g := r_seen_apart h t

theorem build_proposes (hidle : s.dch.helloAt = 0) (htakes : Takes s r dchPage) (hpair : s.on DCH.PAIR_EN = false)
    (hmembers : ∀ m ∈ s.dch.members, m.pairEn = false) (hclaims : s.dch.claims = []) :
    Gives (.build t r) s (fun u => ∃ tab, u.dch.newTable = some ((s.r DCH.BIND_GEN + 1) % 2 ^ 32, tab) ∧ (1, s.serial) ∈ tab) := by
  have hfree : ¬ ((writeSeen s t dchPage).on DCH.PAIR_EN = true ∨ (writeSeen s t dchPage).dch.members.any (·.pairEn) = true ∨
      (!(writeSeen s t dchPage).dch.claims.isEmpty) = true) := by
    have hany : s.dch.members.any (·.pairEn) = false := List.any_eq_false.mpr fun m hm => by rw [hmembers m hm]; decide
    have hon : (writeSeen s t dchPage).on DCH.PAIR_EN = s.on DCH.PAIR_EN := on_congr (r_seen (by decide))
    have hdch : (writeSeen s t dchPage).dch = s.dch := rfl
    rw [hon, hdch, hpair, hany, hclaims]
    decide
  have hserial : (writeSeen s t dchPage).serial = s.serial := by
    unfold State.serial
    rw [r_seen (by decide), r_seen (by decide)]
  refine ⟨_, cmdK_seen htakes t _, ?_⟩
  dsimp only
  rw [settle_seen hidle, if_neg hfree, keepK_dch]
  obtain ⟨-, hnew, -⟩ := propose_shows (writeSeen s t dchPage) ((((writeSeen s t dchPage).serial ::
    (List.range 17).flatMap (fun k => ((writeSeen s t dchPage).dch.members.filter (fun u => u.order == k)).map (·.serial))).take 15).zipIdx.map
      (fun p => (p.2 + 1, p.1)))
  rw [hnew, r_seen (by decide), hserial]
  exact ⟨_, rfl, List.mem_cons_self⟩

theorem build_refused (hidle : s.dch.helloAt = 0) (htakes : Takes s r dchPage) (hpair : s.on DCH.PAIR_EN = true) :
    Gives (.build t r) s (fun u => u.dch = s.dch ∧ u.r DCH.REFUSED = min (s.r DCH.REFUSED + 1) (2 ^ 8 - 1)) := by
  have hon : (writeSeen s t dchPage).on DCH.PAIR_EN = true := (on_congr (r_seen (by decide))).trans hpair
  refine ⟨_, cmdK_seen htakes t _, ?_⟩
  dsimp only
  rw [settle_seen hidle, if_pos (.inl hon), keepK_dch, r_keepK, r_inc_same _ _ _ _ _ (by decide), r_seen (by decide)]
  exact ⟨rfl, rfl⟩

/-- A bound address whose unit is absent becomes claimable (R484). -/
theorem vacate_opens {a : Nat} (hbound : s.dch.table.any (fun p => p.1 == a) = true) (habsent : (s.r DCH.PRESENT).testBit a = false)
    (hne : a ≠ 0) : (s.vacate a).r DCH.CLAIMABLE = putBit (s.r DCH.CLAIMABLE) a true % 2 ^ 16 := by
  rw [State.vacate, if_pos ⟨hbound, by rw [habsent]; rfl, hne⟩, r_claimStep (by decide), r_w_cut _ _ _ _ _ (by decide)]
  rfl

theorem vacate_claimable {a : Nat} (ha : a < 16) (hbound : s.dch.table.any (fun p => p.1 == a) = true)
    (habsent : (s.r DCH.PRESENT).testBit a = false) (hne : a ≠ 0) : ((s.vacate a).r DCH.CLAIMABLE).testBit a = true := by
  rw [vacate_opens hbound habsent hne, Nat.testBit_mod_two_pow, FieldPageLaws.testBit_putBit]
  simp [ha]

/-- The chain master as a write of the page sees it. -/
theorem isMaster_seen (h : s.isMaster = true) : (writeSeen s t dchPage).isMaster = true := by
  unfold State.isMaster at h ⊢
  rw [r_seen (by decide), r_seen (by decide)]
  exact h

theorem vacate_command (hidle : s.dch.helloAt = 0) (htakes : Takes s r dchPage) (hmaster : s.isMaster = true) (ha : s.r DCH.CMD_ADDR < 16)
    (hne : s.r DCH.CMD_ADDR ≠ 0) (hbound : s.dch.table.any (fun p => p.1 == s.r DCH.CMD_ADDR) = true)
    (habsent : (s.r DCH.PRESENT).testBit (s.r DCH.CMD_ADDR) = false) :
    Gives (.vacate t r) s (fun u => (u.r DCH.CLAIMABLE).testBit (s.r DCH.CMD_ADDR) = true) := by
  refine ⟨_, cmdK_seen htakes t _, ?_⟩
  dsimp only
  rw [settle_seen hidle, if_pos (isMaster_seen hmaster), r_keepK, r_seen (g := DCH.CMD_ADDR) (by decide)]
  exact vacate_claimable (s := writeSeen s t dchPage) ha hbound (by rw [r_seen (by decide)]; exact habsent) hne

/-- The serial that CLAIM_ACCEPT names. -/
abbrev claimSerial (s : State) : Nat := s.r DCH.CLAIM_SERIAL_LO + 2 ^ 32 * s.r DCH.CLAIM_SERIAL_HI

theorem claimSerial_seen : claimSerial (writeSeen s t dchPage) = claimSerial s := by
  unfold claimSerial
  rw [r_seen (by decide), r_seen (by decide)]

theorem claimAccept_binds (hidle : s.dch.helloAt = 0) (htakes : Takes s r dchPage) (hmaster : s.isMaster = true) (ha : s.r DCH.CMD_ADDR < 16)
    (hopen : (s.r DCH.CLAIMABLE).testBit (s.r DCH.CMD_ADDR) = true) (hclaim : claimSerial s ∈ s.dch.claims) :
    Gives (.claimAccept t r) s (fun u => u.dch.newTable = some ((s.r DCH.BIND_GEN + 1) % 2 ^ 32, sput s.dch.table (s.r DCH.CMD_ADDR) (claimSerial s)) ∧
      u.r DCH.REFUSED = s.r DCH.REFUSED) := by
  have haccepted : (writeSeen s t dchPage).isMaster = true ∧ (writeSeen s t dchPage).claimable.contains ((writeSeen s t dchPage).r DCH.CMD_ADDR) = true ∧
      (writeSeen s t dchPage).dch.claims.contains (claimSerial (writeSeen s t dchPage)) = true := by
    refine ⟨isMaster_seen hmaster, ?_, ?_⟩
    · rw [r_seen (g := DCH.CMD_ADDR) (by decide), State.claimable, r_seen (by decide), List.contains_iff_mem]
      exact List.mem_filter.mpr ⟨List.mem_range.mpr ha, hopen⟩
    · rw [claimSerial_seen, List.contains_iff_mem]
      exact hclaim
  refine ⟨_, cmdK_seen htakes t _, ?_⟩
  dsimp only
  have hbind : (writeSeen s t dchPage).claimBind ((writeSeen s t dchPage).r DCH.CMD_ADDR) (claimSerial (writeSeen s t dchPage)) =
      (writeSeen s t dchPage).propose (sput s.dch.table (s.r DCH.CMD_ADDR) (claimSerial s)) := by
    rw [State.claimBind, claimSerial_seen, r_seen (by decide)]
    rfl
  obtain ⟨hregs, hnew, -⟩ := propose_shows (writeSeen s t dchPage) (sput s.dch.table (s.r DCH.CMD_ADDR) (claimSerial s))
  rw [settle_seen hidle, if_pos haccepted, keepK_dch, r_keepK, hbind, hnew, r_seen (g := DCH.BIND_GEN) (by decide)]
  refine ⟨rfl, ?_⟩
  rw [State.r, hregs]
  exact r_seen (g := DCH.REFUSED) (by decide)

theorem claimAccept_refused (hidle : s.dch.helloAt = 0) (htakes : Takes s r dchPage) (hclaim : claimSerial s ∉ s.dch.claims) :
    Gives (.claimAccept t r) s (fun u => u.dch = s.dch ∧ u.r DCH.REFUSED = min (s.r DCH.REFUSED + 1) (2 ^ 8 - 1)) := by
  have hrefused : ¬ ((writeSeen s t dchPage).isMaster = true ∧ (writeSeen s t dchPage).claimable.contains ((writeSeen s t dchPage).r DCH.CMD_ADDR) = true ∧
      (writeSeen s t dchPage).dch.claims.contains (claimSerial (writeSeen s t dchPage)) = true) := by
    rintro ⟨-, -, hwaits⟩
    rw [claimSerial_seen, List.contains_iff_mem] at hwaits
    exact hclaim hwaits
  refine ⟨_, cmdK_seen htakes t _, ?_⟩
  dsimp only
  rw [settle_seen hidle, if_neg hrefused, keepK_dch, r_keepK, r_inc_same _ _ _ _ _ (by decide), r_seen (by decide)]
  exact ⟨rfl, rfl⟩

theorem vacantExpiry_opens {a : Fin 16} {p : Nat × Nat} (hnet : s.islandOn .net = true) (hidle : s.dch.helloAt = 0)
    (habsent : s.dch.absentAt.find? (fun p => p.1 == a.val) = some p) (hne : a ≠ 0) (hset : s.r DCH.VACANT_S ≠ 0)
    (hover : p.2 + 1000000000 * s.r DCH.VACANT_S ≤ (s.tick t).up) (hbound : s.dch.table.any (fun p => p.1 == a.val) = true)
    (hgone : (s.r DCH.PRESENT).testBit a = false) : Gives (.vacantExpiry t a) s (fun u => (u.r DCH.CLAIMABLE).testBit a = true) := by
  have hdue : ¬ ((s.tick t).r DCH.VACANT_S = 0 ∨ (s.tick t).up < p.2 + 1000000000 * (s.tick t).r DCH.VACANT_S) :=
    not_or.mpr ⟨hset, Nat.not_lt.mpr hover⟩
  refine ⟨_, runK_on hnet t _, ?_⟩
  dsimp only
  rw [settle_idle (s := s.tick t) hidle]
  simp only [tick_dch, habsent]
  rw [if_neg hdue, r_keepK]
  exact vacate_claimable (s := s.tick t) a.isLt hbound hgone (fun h => hne (Fin.ext h))

/-- Fields that are written 0 one after the other read 0. -/
theorem r_foldl_zero {fs : List Fld} {g : Fld} (hg : g ∈ fs) (hw : g.width ≤ 32) (hapart : (fs.map fun f => f.key 0 0).Nodup) (s : State) :
    (fs.foldl (fun (s : State) (f : Fld) => s.w f 0) s).r g = 0 := by
  obtain ⟨xs, ys, rfl⟩ := List.append_of_mem hg
  rw [List.map_append] at hapart
  have hlast : g.key 0 0 ∉ ys.map fun f => f.key 0 0 := (List.nodup_cons.mp hapart.of_append_right).1
  rw [List.foldl_append, List.foldl_cons]
  refine List.foldlRecOn (motive := fun u : State => u.r g = 0) _ _ (r_w_val (Nat.two_pow_pos _) hw) fun u hu f hf => ?_
  rw [r_w_apart fun h => hlast (List.mem_map.mpr ⟨f, hf, h.symm⟩)]
  exact hu

/-- What CTR_CLR of the page leaves. -/
theorem foldl_w_keeps (fs : List Fld) (s : State) : (fs.foldl (fun (s : State) (f : Fld) => s.w f 0) s).dch = s.dch ∧
    ∀ g : Fld, (∀ f ∈ fs, g.key 0 0 ≠ f.key 0 0) → (fs.foldl (fun (s : State) (f : Fld) => s.w f 0) s).r g = s.r g :=
  ⟨List.foldlRecOn (motive := fun u : State => u.dch = s.dch) _ _ rfl fun _ hu _ _ => hu,
    fun g hg => List.foldlRecOn (motive := fun u : State => u.r g = s.r g) _ _ rfl fun _ hu f hf => (r_w_apart (hg f hf) _).trans hu⟩

/-- The counters that CTR_CLR returns to 0 (R499). -/
def chainCounters : List Fld := [DCH.MIRROR_LAG, DCH.HB_LOST_CNT, DCH.CRC_ERRS, DCH.LINK_DROPS, DCH.TAKEOVERS, DCH.REFUSED]

theorem dchCtrClr_clears (htakes : Takes s r dchPage) :
    Gives (.dchCtrClr t r) s (fun u => u.r DCH.MIRROR_LAG = 0 ∧ u.r DCH.HB_LOST_CNT = 0 ∧ u.r DCH.CRC_ERRS = 0 ∧
      u.r DCH.LINK_DROPS = 0 ∧ u.r DCH.TAKEOVERS = 0 ∧ u.r DCH.REFUSED = 0 ∧ u.r DCH.ROLE = s.r DCH.ROLE ∧ u.dch = s.dch) := by
  have hcleared : ∀ g ∈ chainCounters, (s.keepK (chainCounters.foldl (fun (s : State) (f : Fld) => s.w f 0) (writeSeen s t dchPage))).r g = 0 :=
    fun g hg => by
      rw [r_keepK]
      exact r_foldl_zero hg (by revert g; decide) (by decide) _
  obtain ⟨hdch, hkept⟩ := foldl_w_keeps chainCounters (writeSeen s t dchPage)
  refine ⟨_, cmdK_seen htakes t _, hcleared _ (by decide), hcleared _ (by decide), hcleared _ (by decide), hcleared _ (by decide),
    hcleared _ (by decide), hcleared _ (by decide), ?_, hdch⟩
  rw [r_keepK]
  exact (hkept DCH.ROLE (by decide)).trans (r_seen (by decide))

/-! ### The membership (R481, R482) -/

/-- The newest generation of a group of units. -/
def groupGen (us : List ChainUnit) : Nat := us.foldl (fun g u => max g u.gen) 0

/-- The unit of the newest generation with the least serial. -/
def groupBest (own : ChainUnit) (us : List ChainUnit) : ChainUnit :=
  (us.filter (fun u => u.gen == groupGen us)).foldl (fun b u => if u.serial < b.serial then u else b)
    ((us.filter (fun u => u.gen == groupGen us)).headD own)

/-- What a regrouping shows: the newest table, its generation, and the same units. -/
theorem regroup_shows (s : State) :
    s.regroup.r DCH.BIND_GEN = groupGen (s.ownUnit :: s.dch.members) % 2 ^ 32 ∧
    s.regroup.dch.table = (groupBest s.ownUnit (s.ownUnit :: s.dch.members)).table ∧
    s.regroup.dch.members.map (·.serial) = s.dch.members.map (·.serial) ∧ s.regroup.dch.heard = s.dch.heard := by
  unfold State.regroup
  extract_lets own us gen cands best conflict table master mproto place members changed here a b c d e
  have hdch : e.dch = { s.dch with members := members, table := table } := by
    simp only [e, d, c, b, a, w_dch, setDch_dch]
  have hgen : e.r DCH.BIND_GEN = gen % 2 ^ 32 := by
    unfold e d c b
    rw [r_w_apart (by decide), r_w_apart (by decide), r_w_apart (by decide), r_w_apart (by decide), r_w_apart (by decide), r_w_cut _ _ _ _ _ (by decide)]
    rfl
  have hsame : members.map (·.serial) = s.dch.members.map (·.serial) := by
    unfold members
    rw [List.map_map]
    rfl
  have hshown : ∀ w : State, w.dch = e.dch → w.r DCH.BIND_GEN = e.r DCH.BIND_GEN → w.r DCH.BIND_GEN = gen % 2 ^ 32 ∧
      w.dch.table = best.table ∧ w.dch.members.map (·.serial) = s.dch.members.map (·.serial) ∧ w.dch.heard = s.dch.heard := fun w hw hr => by
    rw [hw, hr, hdch, hgen]
    exact ⟨rfl, rfl, hsame, rfl⟩
  split
  · exact hshown _ (dchEvt_dch _ _ _ _ _ _) (r_dchEvt (by decide) _ _ _ _ _)
  · split
    · exact hshown _ (dchEvt_dch _ _ _ _ _ _) (r_dchEvt (by decide) _ _ _ _ _)
    · exact hshown _ rfl rfl

theorem groupGen_of_all {us : List ChainUnit} {gen : Nat} (h : ∀ u ∈ us, u.gen = gen) (hne : us ≠ []) : groupGen us = gen := by
  obtain ⟨x, xs, rfl⟩ := List.exists_cons_of_ne_nil hne
  have hrest : ∀ u ∈ xs, u.gen = gen := fun u hu => h u (List.mem_cons_of_mem _ hu)
  have hfirst : max 0 x.gen = gen := by rw [h x List.mem_cons_self, Nat.zero_max]
  rw [groupGen, List.foldl_cons, hfirst]
  exact List.foldlRecOn (motive := fun g => g = gen) _ _ rfl fun g hg u hu => by rw [hg, hrest u hu, Nat.max_self]

/-- The best unit of a group is one of it. -/
theorem groupBest_mem {own : ChainUnit} {us : List ChainUnit} (h : own ∈ us) : groupBest own us ∈ us := by
  refine List.foldlRecOn (motive := fun b => b ∈ us) _ _ ?_ fun b hb u hu => ?_
  · cases hcands : us.filter (fun u => u.gen == groupGen us) with
    | nil => exact h
    | cons x xs => exact List.mem_of_mem_filter (hcands ▸ List.mem_cons_self : x ∈ us.filter (fun u => u.gen == groupGen us))
  · split
    · exact List.mem_of_mem_filter hu
    · exact hb

theorem bindTableCommit_takes {gen : Nat} {table : List (Nat × Nat)} (hnet : s.islandOn .net = true) (hidle : s.dch.helloAt = 0)
    (hnew : s.dch.newTable = some (gen, table)) (hgen : gen < 2 ^ 32) :
    Gives (.bindTableCommit t) s (fun u => u.r DCH.BIND_GEN = gen ∧ u.dch.table = table) := by
  refine ⟨_, runK_on hnet t _, ?_⟩
  beta_reduce
  rw [settle_idle (s := s.tick t) hidle]
  extract_lets z
  have hnewz : z.dch.newTable = some (gen, table) := hnew
  clear_value z
  simp -zeta only [hnewz]
  extract_lets w v was x y
  have hunits : ∀ u ∈ v.ownUnit :: v.dch.members, u.gen = gen ∧ u.table = table := by
    intro u hu
    rcases List.mem_cons.mp hu with rfl | hu
    · exact ⟨r_w_val hgen (by decide), rfl⟩
    · obtain ⟨m, -, rfl⟩ := List.mem_map.mp hu
      exact ⟨rfl, rfl⟩
  obtain ⟨hshown, htable, -, -⟩ := regroup_shows v
  rw [groupGen_of_all (fun u hu => (hunits u hu).1) (List.cons_ne_nil _ _), Nat.mod_eq_of_lt hgen] at hshown
  rw [(hunits _ (groupBest_mem List.mem_cons_self)).2] at htable
  have hcommitted : y.r DCH.BIND_GEN = gen ∧ y.dch.table = table := by
    unfold y
    split
    · rw [r_dchEvt (by decide), dchEvt_dch]
      exact ⟨hshown, htable⟩
    · exact ⟨hshown, htable⟩
  obtain ⟨hgen, htable⟩ := hcommitted
  obtain ⟨hreg, -, -, htab⟩ := claims_claimStep y
  rw [r_keepK, keepK_dch, hreg DCH.BIND_GEN (by decide), htab]
  exact ⟨hgen, htable⟩

theorem hello_hears {x : ChainUnit} (hnet : s.islandOn .net = true) (hidle : s.dch.helloAt = 0) (hen : s.enabled 11 = true)
    (hother : x.serial ≠ s.serial) :
    Gives (.hello t x) s (fun u => (∃ m ∈ u.dch.members, m.serial = x.serial) ∧ sget 0 u.dch.heard x.serial = (s.tick t).up) := by
  have hheard : ¬ ((!(s.tick t).enabled 11) = true ∨ x.serial = (s.tick t).serial) := by
    rw [show (s.tick t).enabled 11 = true from hen]
    exact not_or.mpr ⟨by decide, hother⟩
  refine ⟨_, (runK_on hnet t _).trans (congrArg (fun u => Host.Outcome.next (s.keepK u)) (if_neg hheard)), ?_⟩
  beta_reduce
  rw [settle_idle (s := s.tick t) hidle, keepK_dch]
  extract_lets z known w v u inc y
  have hnoted : x.serial ∈ v.dch.members.map (·.serial) ∧ v.dch.heard = sput s.dch.heard x.serial (s.tick t).up := by
    have hw : x.serial ∈ w.dch.members.map (·.serial) ∧ w.dch.heard = sput s.dch.heard x.serial (s.tick t).up :=
      ⟨List.mem_map_of_mem (List.mem_append_right _ List.mem_cons_self), rfl⟩
    unfold v
    split
    · exact hw
    · obtain ⟨-, hmem, hh⟩ := beginRound_keeps w
      rw [hmem, hh]
      exact hw
  obtain ⟨-, -, hmem, hheard⟩ := regroup_shows v
  have hy : y.dch = u.dch := by
    unfold y
    split
    · rfl
    · exact dchEvt_dch _ _ _ _ _ _
  obtain ⟨-, kmem, kheard, -⟩ := claims_claimStep y
  rw [kmem, kheard, hy, hheard, hnoted.2]
  refine ⟨?_, sget_sput_same _ _ _ _⟩
  obtain ⟨m, hm, hserial⟩ := List.mem_map.mp (hmem ▸ hnoted.1 : x.serial ∈ v.regroup.dch.members.map (·.serial))
  exact ⟨m, hm, hserial⟩

/-! ### Time over the chain (R485) -/

/-- A frame that a unit sends is numbered in its class (R480). -/
theorem chainSend_counts {dst cls typ : Nat} {pay : List Nat} (hen : s.enabled 11 = true) (hin : s.excluded = false) :
    (s.chainSend dst cls typ pay).dch.seqTx = sset 0 s.dch.seqTx cls ((sget 0 s.dch.seqTx cls + 1) % 2 ^ 32) := by
  have hport : ∀ (w : State) p f, (w.putChain p f).dch.seqTx = w.dch.seqTx := fun w p f => by
    unfold State.putChain
    split <;> rfl
  unfold State.chainSend
  rw [if_neg (by simp [hen, hin])]
  extract_lets n w f goUp
  have hw : w.dch.seqTx = sset 0 s.dch.seqTx cls ((sget 0 s.dch.seqTx cls + 1) % 2 ^ 32) := rfl
  split
  · rw [hport, hw]
  · split
    · rw [hport, hport, hw]
    · split
      · split
        · rw [hport, hw]
        · rw [hport, hw]
      · rw [hport, hw]

theorem chainTimeBroadcast_sends (hnet : s.islandOn .net = true) (hidle : s.dch.helloAt = 0) (hbound : s.r DCH.UNIT_ADDR ≠ 0)
    (hmaster : s.timeMaster = s.r DCH.UNIT_ADDR) (haddr : s.r DCH.UNIT_ADDR < 16) (hen : s.enabled 11 = true) (hin : s.excluded = false)
    (hsecond : (s.tick t).now % 1000000000 = 0) :
    Gives (.chainTimeBroadcast t) s (fun u => u.r DCH.TIME_MASTER = s.r DCH.UNIT_ADDR ∧
      sget 0 u.dch.seqTx 0 = (sget 0 s.dch.seqTx 0 + 1) % 2 ^ 32) := by
  refine ⟨_, runK_on hnet t _, ?_⟩
  dsimp only
  rw [settle_idle (s := s.tick t) hidle]
  have hshown : ((s.tick t).w DCH.TIME_MASTER (s.tick t).timeMaster).r DCH.TIME_MASTER = s.r DCH.UNIT_ADDR := by
    rw [show (s.tick t).timeMaster = s.r DCH.UNIT_ADDR from hmaster, r_w_val haddr (by decide)]
  have hapart : ∀ {g : Fld}, g.key 0 0 ≠ DCH.TIME_MASTER.key 0 0 → ((s.tick t).w DCH.TIME_MASTER (s.tick t).timeMaster).r g = s.r g :=
    fun h => r_w_apart h _
  have hsends : ¬ (((s.tick t).w DCH.TIME_MASTER (s.tick t).timeMaster).now % 1000000000 ≠ 0 ∨
      ((s.tick t).w DCH.TIME_MASTER (s.tick t).timeMaster).r DCH.UNIT_ADDR = 0 ∨
      ((s.tick t).w DCH.TIME_MASTER (s.tick t).timeMaster).r DCH.TIME_MASTER ≠ ((s.tick t).w DCH.TIME_MASTER (s.tick t).timeMaster).r DCH.UNIT_ADDR) := by
    rw [hshown, hapart (by decide)]
    exact not_or.mpr ⟨not_not.mpr hsecond, not_or.mpr ⟨hbound, not_not.mpr rfl⟩⟩
  have henabled : ((s.tick t).w DCH.TIME_MASTER (s.tick t).timeMaster).enabled 11 = true :=
    (congrArg (· != 0) (hapart (g := hdr HDR.ENABLE ⟨11, 0⟩) (by decide))).trans hen
  have hincluded : ((s.tick t).w DCH.TIME_MASTER (s.tick t).timeMaster).excluded = false := by
    rw [State.excluded, hapart (by decide), hapart (by decide), w_dch]
    exact hin
  rw [if_neg hsends, r_keepK, keepK_dch, r_chainSend, hshown, chainSend_counts henabled hincluded, sget_sset_same]
  exact ⟨rfl, rfl⟩

/-- Settles O52, a part of the chain at a time. -/
theorem chainUnits : Obligations.ChainUnits := by
  unfold Obligations.ChainUnits
  intro t r up s hnet hidle
  refine ⟨⟨fun ok h => chainLinkChange_shows hnet hidle h, fun h => creditTimeout_closes hnet hidle h, fun h => linkRetrain_opens hnet hidle h,
      fun d h => chainDelayMeasure_notes hnet hidle h, fun g hen h => ⟨fun hcrc => chainFrameRx_bad hnet hidle hen h hcrc,
        fun hcrc hsrc hdst hup hdown => chainFrameRx_own hnet hidle hen h hcrc hsrc hdst hup hdown,
        fun hcrc hsrc hdst hone => chainFrameRx_passing hnet hidle hen h hcrc hsrc hdst hone⟩⟩,
    fun x hen hother => hello_hears hnet hidle hen hother, fun htakes => ⟨fun hpair hmem hcl => build_proposes hidle htakes hpair hmem hcl,
      fun hpair => build_refused hidle htakes hpair, fun hmaster => ⟨fun ha hne hbound hgone => vacate_command hidle htakes hmaster ha hne hbound hgone,
        fun ha hopen hclaim => claimAccept_binds hidle htakes hmaster ha hopen hclaim, fun hclaim => claimAccept_refused hidle htakes hclaim⟩,
      dchCtrClr_clears htakes⟩,
    fun a p habsent hne hset hover hbound hgone => vacantExpiry_opens hnet hidle habsent hne hset hover hbound hgone,
    fun gen table hnew hgen => bindTableCommit_takes hnet hidle hnew hgen,
    fun hbound hmaster haddr hen hin hsecond => chainTimeBroadcast_sends hnet hidle hbound hmaster haddr hen hin hsecond⟩

end Sys2Proof.ChainLaws
end

section
/-! A cut of the pair that brings the shared part of the handover writes the status words of the plan interface as well, which are logic data memory (R169, R492). -/

namespace Sys2Proof.ChainPairLaws

open Sys2Proof Sys2Proof.Machine Sys2Proof.Laws Sys2Proof.PageFieldLaws Sys2Proof.ChainLaws

variable {s : State}

/-- The data word that repeats the sequence number of the plan in force (R169). -/
def planSeqWord : Nat := 0x2801

theorem dword_hoShow (s : State) : s.hoShow.dword planSeqWord = BitVec.ofNat 32 (s.r DSQ.PLAN_SEQ_IN_FORCE) := by
  unfold State.hoShow
  extract_lets st endAt v w
  rw [State.dword, setRaw_dataMem]
  exact sget_sset_same _ _ _ _

theorem dword_showPlan (s : State) (was : Option PlanX) : (s.showPlan was).dword planSeqWord = BitVec.ofNat 32 (s.r DSQ.PLAN_SEQ_IN_FORCE) := by
  unfold State.showPlan
  extract_lets v w
  have hkept : v.regs = s.regs := by
    unfold v
    split
    · split
      · rfl
      · rfl
    · rfl
  have hw : w.regs = s.regs := (PlanFrameLaws.putSol_regs _ _ _).trans ((PlanFrameLaws.putSol_regs _ _ _).trans hkept)
  rw [dword_hoShow, State.r, State.r, PlanFrameLaws.putSol_regs, PlanFrameLaws.putSol_regs, hw]

/-- A cut of the handover alone. -/
def planCut : CutX := { ho := some {} }

theorem dword_applyCut (s : State) : (s.applyCut planCut).dword planSeqWord = BitVec.ofNat 32 (s.r DSQ.PLAN_SEQ_IN_FORCE) := by
  unfold State.applyCut
  extract_lets was a b c d e f g h i j k l
  have hg : g.regs = s.regs := rfl
  have hi : i.regs = s.regs := List.foldlRecOn (motive := fun u : State => u.regs = s.regs) _ _ hg fun _ hu _ _ => hu
  have hj : j.regs = s.regs := List.foldlRecOn (motive := fun u : State => u.regs = s.regs) _ _ hi fun _ hu _ _ => hu
  have hk : k.regs = s.regs := List.foldlRecOn (motive := fun u : State => u.regs = s.regs) _ _ hj fun _ hu _ _ => hu
  have hl : l = k.showPlan was := if_pos rfl
  have hshown : l.showForces.dword planSeqWord = l.dword planSeqWord := congrArg (fun m => sget 0 m planSeqWord) (Sys2Proof.LogicForceLaws.dataMem_showForces l)
  rw [hshown, hl, dword_showPlan, State.r, hk]
  rfl

/-- A standby that has a plan of sequence number 1 in force. -/
def standby : State := (({ pwr := { pll := 0x1FF } } : State).w DCH.ROLE 2).w DSQ.PLAN_SEQ_IN_FORCE 1

/-- What a unit that follows makes of a cut without the swap marker. -/
theorem exec_mirrorCutApply {cut : CutX} {t : Nat} (hnet : s.islandOn .net = true) (hidle : s.dch.helloAt = 0) (hfollows : s.follows = true)
    (hswap : cut.swap = false) : exec (.mirrorCutApply t cut) s = .next (s.keepS ((((s.tick t).applyCut cut).w DCH.CUT_SEQ cut.seq.toNat).setDch
      (fun d => { d with lastCutAt := (s.tick t).now }))) := by
  have happlies : ¬ (!(s.tick t).follows) = true := by
    rw [show (s.tick t).follows = true from hfollows]
    decide
  refine (runS_on hnet t _).trans (congrArg (fun u => Host.Outcome.next (s.keepS u)) ?_)
  rw [settle_idle (s := s.tick t) hidle]
  refine (if_neg happlies).trans (if_neg ?_)
  rw [hswap]
  exact fun h => Bool.false_ne_true h.1

/-- Refutes O53: a standby applies a cut without data words that brings the handover, and data word 0x2801 becomes the sequence number of the plan in
force, so the data memory is not what the cut's data words make of it. -/
theorem not_chainPair : ¬ Obligations.ChainPair := by
  intro h
  have hnet : standby.islandOn .net = true := by decide
  have hidle : standby.dch.helloAt = 0 := rfl
  have hfollows : standby.follows = true := by decide
  obtain ⟨-, -, -, -, -, -, -, -, -, hcut, -⟩ := h 0 .keeper standby hnet hidle
  obtain ⟨u, hu, -, -, hdata, -⟩ := hcut planCut hfollows rfl
  have hexec := exec_mirrorCutApply (cut := planCut) (t := 0) hnet hidle hfollows rfl
  obtain rfl := Host.Outcome.next.inj (hu.symm.trans hexec)
  rw [keepS_dataMem, setDch_dataMem, w_dataMem] at hdata
  have hnone : putAll (fun _ => (0 : Word)) (if planCut.whole = true then [] else standby.dataMem) planCut.data = [] := rfl
  have hword : ((standby.tick 0).applyCut planCut).dword planSeqWord = 0 := by
    rw [State.dword, hdata, hnone]
    rfl
  rw [dword_applyCut] at hword
  exact absurd hword (by decide)

end Sys2Proof.ChainPairLaws
end

section
/-! Takeover and hand-over of the active role: what the unit's blocks do at it leaves the pair's role, outputs and epoch and the axes' velocities (R490, R494, R496). -/

namespace Sys2Proof.TakeoverLaws

open Sys2Proof Sys2Proof.Machine Sys2Proof.Laws Sys2Proof.PageFieldLaws Sys2Proof.FieldPlaceLaws Sys2Proof.ChainLaws

/-- The registers of the pair that a takeover sets, and the velocities of the axes. -/
def sparedKeys : List Nat :=
  [DCH.ROLE.key 0 0, DCH.OUT_EN.key 0 0, DCH.PAIR_EPOCH.key 0 0, DCH.TAKEOVERS.key 0 0] ++ (List.range 24).map (fun a => MPG.VELOCITY.key a 0)

/-- The spared registers read as before. -/
def Spares (s u : State) : Prop := ∀ d key, key ∈ sparedKeys → sget d u.regs key = sget d s.regs key

/-- The spared registers lie on the DCH page and on the pages of the axes. -/
theorem not_spared {key : Nat} (h : key / 2 ^ 17 < 736) (hdch : key / 2 ^ 17 ≠ 352) : key ∉ sparedKeys := by
  have hall : ∀ k ∈ sparedKeys, k / 2 ^ 17 = 352 ∨ 736 ≤ k / 2 ^ 17 := by decide
  intro hmem
  rcases hall key hmem with hpage | hpage
  · exact hdch hpage
  · exact absurd h (Nat.not_lt.mpr hpage)

namespace Spares

variable {s u v : State} {j i e : Nat}

theorem of_regs (h : u.regs = s.regs) : Spares s u := fun _ _ _ => by rw [h]

theorem refl (s : State) : Spares s s := of_regs rfl

theorem trans (h : Spares s u) (k : Spares u v) : Spares s v := fun d key hk => (k d key hk).trans (h d key hk)

theorem same (h : Spares s u) (hv : v.regs = u.regs) : Spares s v := h.trans (of_regs hv)

theorem r_eq {g : Fld} (h : Spares s u) (hg : g.key j i ∈ sparedKeys) : u.r g j i = s.r g j i := congrArg BitVec.toNat (h _ _ hg)

theorem ite {c : Prop} [Decidable c] (h : Spares s u) (k : Spares s v) : Spares s (if c then u else v) := by
  split
  · exact h
  · exact k

theorem foldl {α : Type} {f : State → α → State} {xs : List α} (h : Spares s u) (hf : ∀ w, ∀ x ∈ xs, Spares w (f w x)) :
    Spares s (xs.foldl f u) := List.foldlRecOn (motive := Spares s) _ _ h fun w hw x hx => hw.trans (hf w x hx)

theorem w {f : Fld} (h : Spares s u) (x : Nat) (hkey : f.key j i ∉ sparedKeys) : Spares s (u.w f x j i) :=
  h.trans fun _ _ hk => sget_sset_ne _ _ _ _ fun heq => hkey (heq ▸ hk)

theorem raise {code bit : Nat} (h : Spares s u) (hkey : pendKey code j bit ∉ sparedKeys) (p q : List Nat) : Spares s (u.raise code j bit p q) := by
  refine h.trans fun d key hk => ?_
  obtain ⟨_, _, _, _, hraise, hregs⟩ := raise_inv u code j bit p q
  rw [hraise]
  exact hregs d key fun heq => hkey (heq ▸ hk)

/-- What stays on pages that hold no spared register. -/
theorem elsewhere {pgs : List Page} (h : Spares s u) (hpgs : Elsewhere pgs u v) (hapart : ∀ pg ∈ pgs, 32 * pg.code + pg.inst < 736 ∧ 32 * pg.code + pg.inst ≠ 352) :
    Spares s v := by
  refine h.trans fun d key hk => hpgs d key fun pg hpg heq => ?_
  obtain ⟨hlow, hdch⟩ := hapart pg hpg
  exact not_spared (heq ▸ hlow) (heq ▸ hdch) hk

/-! ### The blocks at a change of role -/

theorem gmRole (h : Spares s u) : Spares s u.gmRole := by
  unfold State.gmRole
  extract_lets gm
  exact h.ite ((h.w _ (by decide)).raise (by decide) _ _)

theorem closeDebug (h : Spares s u) : Spares s u.closeDebug :=
  h.ite (((h.w _ (by decide)).raise (by decide) _ _).elsewhere ((Elsewhere.refl _).writeRec _ _) (by decide))

theorem dchEvt {bit : Nat} (h : Spares s u) (hkey : pendKey 11 0 bit ∉ sparedKeys) (addr kind serial : Nat) (extra : List Nat) :
    Spares s (u.dchEvt bit addr kind serial extra) := h.raise hkey _ _

theorem setStatus (h : Spares s u) (d st : Nat) : Spares s (u.setStatus d st) := by
  unfold State.setStatus
  extract_lets k f x
  refine ite (h.w _ (by decide)) (ite (h.w _ (by decide)) (h.w _ ?_))
  unfold f
  split
  · decide
  · decide

theorem abandonDesc (h : Spares s u) (d : Nat) : Spares s (u.abandonDesc d) := by
  unfold State.abandonDesc
  extract_lets v
  have hv : Spares s v := (setStatus (h.w _ (by decide)) d _).raise (by decide) _ _
  exact ite (hv.same rfl) hv

theorem showRun (h : Spares s u) : Spares s u.showRun := by
  unfold State.showRun
  split
  · exact (((h.w _ (by decide)).w _ (by decide)).w _ (by decide)).w _ (by decide)
  · extract_lets ph v
    have hv : Spares s v := (h.w _ (by decide)).w _ (by decide)
    exact ite (hv.w _ (by decide)) (ite hv (hv.w _ (by decide)))

theorem abandonRun (h : Spares s u) : Spares s u.abandonRun := by
  unfold State.abandonRun
  split
  · exact h
  · exact ((h.abandonDesc _).same (setDsq_regs _ _)).showRun

theorem abandonAll (h : Spares s u) : Spares s u.abandonAll := by
  unfold State.abandonAll
  extract_lets v d0 w
  have hw : Spares s w := h.abandonRun.foldl fun w i _ => (refl w).abandonDesc _
  exact ite h.abandonRun (hw.same (setDsq_regs _ _))

/-! ### Engines -/

/-- A register of an engine's page, where its place is not that of a spared one. -/
theorem w_place {f : Fld} (h : Spares s u) (x : Nat) (hplace : place (f.key 0 i) ∉ sparedKeys.map place) : Spares s (u.w f x j i) := by
  refine h.w x fun hmem => hplace ?_
  have hp : place (f.key j i) = place (f.key 0 i) := by
    rw [key_shift, place, place]
    omega
  exact hp ▸ List.mem_map_of_mem hmem

theorem showEng (h : Spares s u) (e : Nat) : Spares s (u.showEng e) := by
  unfold State.showEng
  split
  · exact (h.w_place _ (by decide)).w_place _ (by decide)
  · exact (h.w_place _ (by decide)).w_place _ (by decide)

theorem abandonTasks (h : Spares s u) (e : Nat) (again : Bool) : Spares s (u.abandonTasks e again) := by
  unfold State.abandonTasks
  extract_lets x lvls v banks
  have hdelivered : Spares s v := h.foldl fun w n _ => by
    refine ite (of_regs ?_) (refl w)
    split
    · obtain ⟨m, hm⟩ := Sys2Proof.LogicTaskLaws.sourcesOnly_redeliver ⟨w.sources, rfl⟩ n
      rw [hm]
    · obtain ⟨m, hm⟩ := Sys2Proof.LogicTaskLaws.sourcesOnly_complete ⟨w.sources, rfl⟩ n
      rw [hm]
  have hset : Spares s (v.setEng e { v.eng e with banks := banks, cur := none, frozen := [], waiting := [], wait := none }) := hdelivered.same (setEng_regs _ _ _)
  exact hset.showEng e

/-- A register of the page of engine `e`, one of the four. -/
theorem w_eng {f : Fld} (h : Spares s u) (x : Nat) (he : e < 4) (hf : f.code = 21 ∧ f.lsb < 32) (hn : f.off + 0 * f.stride < 4096) :
    Spares s (u.w f x e) := by
  obtain ⟨hcode, hlsb⟩ := hf
  have hpage : f.key e 0 / 2 ^ 17 = 32 * 21 + e := by rw [Elsewhere.key_page ⟨hn, hlsb⟩, hcode]
  exact h.w x (not_spared (by omega) (by omega))

theorem raise_eng {bit : Nat} (h : Spares s u) (he : e < 4) (hbit : bit < 32) (p q : List Nat) : Spares s (u.raise 21 e bit p q) := by
  have hpage := Elsewhere.pendKey_page hbit 21 e
  exact h.raise (not_spared (by omega) (by omega)) p q

theorem applyInits (h : Spares s u) (e flag : Nat) : Spares s (u.applyInits e flag) := by
  refine h.foldl fun w x _ => (refl w).foldl fun w v _ => ite (of_regs ?_) (refl w)
  unfold State.setMemWord
  split <;> rfl

theorem markOrphans (h : Spares s u) : Spares s u.markOrphans := by
  unfold State.markOrphans
  extract_lets images bad v w
  exact h.ite (((h.same (v := v) rfl).w _ (by decide)).raise (by decide) _ _)

theorem switchImage (h : Spares s u) (he : e < 4) : Spares s (u.switchImage e) := by
  unfold State.switchImage
  split
  · exact h.w_eng _ he (by decide) (by decide)
  · extract_lets old p v w x y z a
    have hy : Spares s y := h.same rfl
    have hz : Spares s z := (((hy.w_eng (f := LGE.PROG_BASE) _ he (by decide) (by decide)).w_eng (f := LGE.PROG_WORDS) _ he (by decide)
      (by decide)).w_eng (f := LGE.PROG_ID) _ he (by decide) (by decide)).applyInits _ _
    have hswitched : Spares s (z.progBegin.chgTo e 0) := (hz.same (v := z.progBegin) rfl).w_eng (f := LGE.CHG_STATE) _ he (by decide) (by decide)
    have ha : Spares s a := hswitched.markOrphans.raise_eng he (by decide) _ _
    exact ha.raise_eng he (by decide) _ _

theorem trySwitch (h : Spares s u) (he : e < 4) : Spares s (u.trySwitch e) := (h.switchImage he).ite h

theorem startTask (h : Spares s u) (e i lvl rel : Nat) (claim : Word) : Spares s (u.startTask e i lvl rel claim) := by
  unfold State.startTask
  extract_lets p x hx first old b v ex frozen w mask y z
  have hw : Spares s w := h.same rfl
  have hz : Spares s z := ite (hw.same (setEng_regs _ _ _)) hw
  exact hz.showEng e

/-- RUN_STATE takes a value that does not stop the engine. -/
theorem runState {x : Nat} (h : Spares s u) (hx : ¬ (x = 0 ∨ x = 3)) : Spares s (u.runState e x) := by
  unfold State.runState
  extract_lets was v
  rw [if_neg fun hstops => hx hstops.1]
  exact h.w_place _ (by decide)

theorem startProgram (h : Spares s u) (he : e < 4) (info : Nat) : Spares s (u.startProgram e info none) := by
  unfold State.startProgram
  extract_lets p v w n x a y b st c d
  have hv : Spares s v := (h.abandonTasks _ _).trySwitch he
  have hw : Spares s w := hv
  clear_value w
  have hb : Spares s b := (hw.same (setEng_regs _ _ _)).same (setEng_regs _ _ _)
  clear_value b st
  have hc : Spares s c := by
    refine w_eng (f := LGE.PROG_ID) (hb.runState ?_) _ he (by decide) (by decide)
    split
    · decide
    · decide
  have hd : Spares s d := by
    unfold d
    split
    · exact hc.startTask _ _ _ _ _
    · exact hc
  exact (hd.raise_eng he (by decide) _ _).showEng _

end Spares

variable {s : State} {t : Nat}

/-! ### The axes stand (R494) -/

/-- The velocity of an axis has a page of its own. -/
theorem velocity_ne {a b : Nat} (h : a ≠ b) : MPG.VELOCITY.key a 0 ≠ MPG.VELOCITY.key b 0 := by
  rw [key_shift _ a, key_shift _ b]
  omega

theorem stopAxes_velocity {a : Nat} (ha : a < 24) (s : State) : s.stopAxes.r MPG.VELOCITY a = 0 := by
  obtain ⟨xs, ys, hsplit⟩ := List.append_of_mem (List.mem_range.mpr ha)
  unfold State.stopAxes State.forN
  rw [hsplit, List.foldl_append, List.foldl_cons]
  refine List.foldlRecOn (motive := fun u : State => u.r MPG.VELOCITY a = 0) _ _ (r_w_val (Nat.two_pow_pos _) (by decide)) fun u hu b _ => ?_
  have hset : ∀ x, ((u.w MPG.VELOCITY 0 b).setAxis b x).r MPG.VELOCITY a = (u.w MPG.VELOCITY 0 b).r MPG.VELOCITY a := fun _ => rfl
  dsimp only
  rw [hset]
  by_cases hb : a = b
  · subst hb
    exact r_w_val (Nat.two_pow_pos _) (by decide)
  · rw [r_w_ne _ _ _ _ _ _ _ _ (velocity_ne hb)]
    exact hu

/-- Axes that are stopped leave the fields of the DCH page. -/
theorem stopAxes_keeps {g : Fld} (hg : g.key 0 0 / 2 ^ 17 < 736) (s : State) : s.stopAxes.r g = s.r g := by
  refine List.foldlRecOn (motive := fun u : State => u.r g = s.r g) _ _ rfl fun u hu a _ => Eq.trans ?_ hu
  have hset : ∀ x, ((u.w MPG.VELOCITY 0 a).setAxis a x).r g = (u.w MPG.VELOCITY 0 a).r g := fun _ => rfl
  dsimp only
  rw [hset]
  refine r_w_ne _ _ _ _ _ _ _ _ fun heq => ?_
  have hpage : MPG.VELOCITY.key a 0 / 2 ^ 17 = 32 * 23 + a := Elsewhere.key_page (by decide) a
  rw [heq, hpage] at hg
  omega

/-! ### Takeover (R490, R494) -/

theorem becomeActive_shows (s : State) (epoch lockEnd : Nat) (hepoch : epoch < 2 ^ 32) :
    (s.becomeActive epoch lockEnd).r DCH.ROLE = 3 ∧ (s.becomeActive epoch lockEnd).r DCH.OUT_EN = 1 ∧
    (s.becomeActive epoch lockEnd).r DCH.PAIR_EPOCH = epoch ∧ (s.becomeActive epoch lockEnd).r DCH.TAKEOVERS = min (s.r DCH.TAKEOVERS + 1) (2 ^ 16 - 1) ∧
    ∀ a < 24, (s.becomeActive epoch lockEnd).r MPG.VELOCITY a = 0 := by
  unfold State.becomeActive
  extract_lets v a b c d e f g h i j k
  have hb : Spares v b := ((Spares.refl v).w _ (by decide)).w _ (by decide)
  have hd : Spares v d := ((hb.same (v := c) rfl).dchEvt (by decide) _ _ _ _).closeDebug
  have hf : Spares v f := ((hd.w (f := TMK.GM_MODE) _ (by decide)).gmRole).foldl fun w a _ => (Spares.refl w).ite ((Spares.refl w).w _ (by decide))
  have hh : Spares g h := (Spares.refl g).foldl fun w a _ => Spares.ite (Spares.of_regs rfl) (Spares.refl w)
  clear_value h
  have hk : Spares g k := hh.same rfl
  have hend : ∀ w : State, Spares k w → w.r DCH.ROLE = 3 ∧ w.r DCH.OUT_EN = 1 ∧ w.r DCH.PAIR_EPOCH = epoch ∧
      w.r DCH.TAKEOVERS = min (s.r DCH.TAKEOVERS + 1) (2 ^ 16 - 1) ∧ ∀ a < 24, w.r MPG.VELOCITY a = 0 := fun w hw => by
    have hlast : Spares g w := hk.trans hw
    have hkept : ∀ x : Fld, x.key 0 0 ∈ sparedKeys → x.key 0 0 / 2 ^ 17 < 736 → w.r x = v.r x := fun x hx hpage => by
      rw [hlast.r_eq hx, stopAxes_keeps hpage, hf.r_eq hx]
    rw [hkept _ (by decide) (by decide), hkept _ (by decide) (by decide), hkept _ (by decide) (by decide), hkept _ (by decide) (by decide)]
    refine ⟨?_, ?_, ?_, ?_, fun a ha => ?_⟩
    · rw [r_inc_apart (by decide), r_w_apart (by decide), r_w_val (by decide) (by decide)]
    · rw [r_inc_apart (by decide), r_w_val (by decide) (by decide)]
    · rw [r_inc_apart (by decide), r_w_apart (by decide), r_w_apart (by decide), r_w_val hepoch (by decide)]
    · rw [r_inc_same _ _ _ _ _ (by decide), r_w_apart (by decide), r_w_apart (by decide), r_w_apart (by decide)]
      rfl
    · rw [hlast.r_eq (List.mem_append_right _ (List.mem_map_of_mem (List.mem_range.mpr ha)))]
      exact stopAxes_velocity ha f
  refine hend _ ((Spares.refl k).foldl fun w e he => ?_)
  exact Spares.ite ((Spares.refl w).startProgram (List.mem_range.mp he) 3) (Spares.refl w)

/-- A granted TAKE is a takeover under the epoch of the request (R490). -/
theorem granted_take (hkind : s.dch.reqKind = 2) (hrole : s.r DCH.ROLE = 2 ∨ s.r DCH.ROLE = 4) :
    s.granted = (s.setDch fun d => { d with reqKind := 0 }).becomeActive s.dch.reqEpoch.toNat (s.dch.reqAt + 1000 * s.r DCH.LOCK_US) := by
  unfold State.granted
  simp only [hkind]
  exact if_pos hrole

theorem voteGrantRx_takes (hnet : s.islandOn .net = true) (hidle : s.dch.helloAt = 0) (hin : s.excluded = false) (hkind : s.dch.reqKind = 2)
    (hrole : s.r DCH.ROLE = 2 ∨ s.r DCH.ROLE = 4) :
    Gives (.voteGrantRx t s.dch.reqEpoch) s (fun u => u.r DCH.ROLE = 3 ∧ u.r DCH.OUT_EN = 1 ∧ u.r DCH.PAIR_EPOCH = s.dch.reqEpoch.toNat ∧
      u.r DCH.TAKEOVERS = min (s.r DCH.TAKEOVERS + 1) (2 ^ 16 - 1) ∧ ∀ a : Fin 24, u.r MPG.VELOCITY a = 0) := by
  have hanswers : ¬ ((s.tick t).excluded = true ∨ (s.tick t).dch.reqKind = 0 ∨ (s.tick t).dch.reqEpoch ≠ s.dch.reqEpoch) := by
    rw [show (s.tick t).excluded = false from hin, tick_dch, hkind]
    exact not_or.mpr ⟨Bool.false_ne_true, not_or.mpr ⟨by decide, not_not.mpr rfl⟩⟩
  refine ⟨_, runK_on hnet t _, ?_⟩
  beta_reduce
  rw [settle_idle (s := s.tick t) hidle, if_neg hanswers, granted_take (s := s.tick t) hkind hrole]
  simp only [r_keepK]
  obtain ⟨hactive, hout, hepoch, hcount, hstands⟩ := becomeActive_shows ((s.tick t).setDch fun d => { d with reqKind := 0 })
    (s.tick t).dch.reqEpoch.toNat ((s.tick t).dch.reqAt + 1000 * (s.tick t).r DCH.LOCK_US) (s.tick t).dch.reqEpoch.isLt
  exact ⟨hactive, hout, hepoch, hcount, fun a => hstands a a.isLt⟩

/-! ### Hand-over (R494, R496) -/

/-- The unit that hands the active role over becomes STANDBY and drives no output. -/
theorem follow_standby (hactive : s.follows = false) :
    (s.follow 2).r DCH.ROLE = 2 ∧ (s.follow 2).r DCH.OUT_EN = 0 ∧ (s.follow 2).r DCH.PAIR_EPOCH = s.r DCH.PAIR_EPOCH := by
  unfold State.follow
  extract_lets was v w x y
  rw [if_neg (show ¬ was = true by rw [show was = false from hactive]; decide)]
  have hx : Spares ((w.w TMK.GM_MODE 2).gmRole.stopAxes) x := ((Spares.refl _).abandonAll).same (setHo_regs _ _)
  have hy : Spares ((w.w TMK.GM_MODE 2).gmRole.stopAxes) y := hx.foldl fun a e _ => (Spares.refl a).abandonTasks e false
  have hmode : Spares w ((w.w TMK.GM_MODE 2).gmRole) := ((Spares.refl w).w _ (by decide)).gmRole
  have hend : ∀ z : State, Spares y z → z.r DCH.ROLE = 2 ∧ z.r DCH.OUT_EN = 0 ∧ z.r DCH.PAIR_EPOCH = s.r DCH.PAIR_EPOCH := fun z hz => by
    have hkept : ∀ g : Fld, g.key 0 0 ∈ sparedKeys → g.key 0 0 / 2 ^ 17 < 736 → z.r g = v.r g := fun g hg hpage => by
      rw [(hy.trans hz).r_eq hg, stopAxes_keeps hpage, hmode.r_eq hg]
      rfl
    rw [hkept DCH.ROLE (by decide) (by decide), hkept DCH.OUT_EN (by decide) (by decide), hkept DCH.PAIR_EPOCH (by decide) (by decide)]
    refine ⟨?_, ?_, ?_⟩
    · rw [r_w_apart (by decide), r_w_apart (by decide), r_w_val (by decide) (by decide)]
    · rw [r_w_apart (by decide), r_w_val (by decide) (by decide)]
    · rw [r_w_apart (by decide), r_w_apart (by decide), r_w_apart (by decide)]
  exact hend _ ((Spares.refl y).foldl fun a c _ => Spares.of_regs rfl)

theorem mirrorCut_hands {i : Nat} (hnet : s.islandOn .net = true) (hidle : s.dch.helloAt = 0) (hrole : s.r DCH.ROLE = 3)
    (hpeer : s.on DCH.PEER_OK = true) (hswap : s.dch.swapAt = some i) (hdue : i ≤ (s.tick t).now)
    (hseries : (s.tick t).onSeries (s.r DCH.MIRROR_US) 0 = true) :
    Gives (.mirrorCut t) s (fun u => u.r DCH.ROLE = 2 ∧ u.r DCH.OUT_EN = 0 ∧ u.r DCH.PAIR_EPOCH = s.dch.swapEpoch.toNat) := by
  have hcuts : ¬ ((s.tick t).r DCH.ROLE ≠ 3 ∨ (!(s.tick t).on DCH.PEER_OK) = true ∨ (!(s.tick t).onSeries ((s.tick t).r DCH.MIRROR_US) 0) = true) := by
    rw [show (s.tick t).r DCH.ROLE = 3 from hrole, show (s.tick t).on DCH.PEER_OK = true from hpeer,
      show (s.tick t).onSeries ((s.tick t).r DCH.MIRROR_US) 0 = true from hseries]
    decide
  refine ⟨_, runK_on hnet t _, ?_⟩
  beta_reduce
  rw [settle_idle (s := s.tick t) hidle]
  extract_lets z n swap all whole old cut late v w x
  rw [if_neg (show ¬ _ from hcuts)]
  have hmarked : swap = true := by
    unfold swap
    rw [show z.dch.swapAt = some i from hswap]
    exact decide_eq_true hdue
  rw [if_pos hmarked]
  obtain ⟨seqTx, sent, hsent⟩ := chainSend_sends w (w.r DCH.PEER_ADDR) (if whole = true then 3 else 2) 0 ([swap.toNat, 0, 0, 0] ++ beBytes 4 n)
  have hepoch : x.dch.swapEpoch = s.dch.swapEpoch := by
    unfold x
    rw [hsent]
    rfl
  have hactive : (x.w DCH.PAIR_EPOCH x.dch.swapEpoch.toNat).follows = false := by
    have hstands : (x.w DCH.PAIR_EPOCH x.dch.swapEpoch.toNat).r DCH.ROLE = 3 := by
      unfold x w v
      rw [r_w_apart (by decide), r_chainSend, r_setDch, r_fresh, r_inc_apart (by decide), r_w_apart (by decide)]
      exact hrole
    rw [State.follows, hstands]
    rfl
  obtain ⟨hstandby, hout, hkept⟩ := follow_standby hactive
  rw [r_keepK, r_keepK, r_keepK, hstandby, hout, hkept]
  refine ⟨rfl, rfl, ?_⟩
  exact (r_w_val (f := DCH.PAIR_EPOCH) x.dch.swapEpoch.isLt (by decide)).trans (congrArg BitVec.toNat hepoch)

/-- Settles O54: the takeover and the hand-over, each followed through the blocks that change with the role. -/
theorem takeover : Obligations.Takeover := by
  unfold Obligations.Takeover
  intro t s hnet hidle
  exact ⟨fun hin hkind hrole => voteGrantRx_takes hnet hidle hin hkind hrole,
    fun i hrole hpeer hswap hdue hseries => mirrorCut_hands hnet hidle hrole hpeer hswap hdue hseries⟩

end Sys2Proof.TakeoverLaws
end

section
/-! The event controller: latched rises, offers and their withdrawal, settings and counters of the sources (R347 to R356, R368). -/

namespace Sys2Proof.EventSourceLaws

open Sys2Proof Sys2Proof.Machine Sys2Proof.Laws Sys2Proof.LogicPageLaws Sys2Proof.PageFieldLaws

variable {s u v : State} {t : Nat} {r : Requester} {d e : Nat}

/-! ### Rises (R347, R349) -/

/-- A source that latches rises (R348, R353). -/
def Latches (s : State) (n : Nat) : Prop := reservedSource n = false ∧ s.on EIC.EN 0 n = true

theorem latch_of {n : Nat} (h : Latches s n) :
    s.latch n = match (s.src n).st with
      | .idle => s.setSrc n { s.src n with st := .pending, since := s.up }
      | .pending => s.inc EIC.MERGES 0 (n / 16)
      | .active => (s.setSrc n { s.src n with st := .activePending, since := s.up }).inc EIC.REFIRES
      | .activePending => s.inc EIC.MERGES 0 (n / 16) := by
  obtain ⟨hfree, hen⟩ := h
  unfold State.latch
  rw [hfree, hen]
  rfl

/-- A rise is on its way no more. -/
def arrived (s : State) (t n : Nat) : State := { s.tick t with toEic := s.toEic.erase n }

theorem exec_eicSourceEdge {n : Fin 256} (hon : s.islandOn .logic = true) (hway : s.toEic.contains n.val = true) :
    exec (.eicSourceEdge t n) s = .next (s.keepK ((arrived s t n).latch n)) :=
  (runK_on hon t _).trans (congrArg (fun u => Host.Outcome.next (s.keepK u)) (if_pos hway))

theorem edge_idle {n : Fin 256} (hon : s.islandOn .logic = true) (hway : s.toEic.contains n.val = true) (hlatch : Latches s n)
    (hst : (s.src n).st = .idle) :
    Gives (.eicSourceEdge t n) s (fun u => (u.src n).st = .pending ∧ (u.src n).since = (s.tick t).up ∧ u.toEic = s.toEic.erase n ∧ u.regs = s.regs) := by
  refine ⟨_, exec_eicSourceEdge hon hway, ?_⟩
  have hidle : ((arrived s t n).src n).st = .idle := hst
  rw [latch_of (s := arrived s t n) hlatch, hidle]
  beta_reduce
  rw [src_keepK, src_setSrc]
  exact ⟨rfl, rfl, rfl, rfl⟩

theorem edge_active {n : Fin 256} (hon : s.islandOn .logic = true) (hway : s.toEic.contains n.val = true) (hlatch : Latches s n)
    (hst : (s.src n).st = .active) :
    Gives (.eicSourceEdge t n) s (fun u => (u.src n).st = .activePending ∧ u.r EIC.REFIRES = min (s.r EIC.REFIRES + 1) (2 ^ 32 - 1)) := by
  refine ⟨_, exec_eicSourceEdge hon hway, ?_⟩
  have hactive : ((arrived s t n).src n).st = .active := hst
  rw [latch_of (s := arrived s t n) hlatch, hactive]
  beta_reduce
  rw [src_keepK, r_keepK, r_inc_same _ _ _ _ _ (by decide)]
  refine ⟨?_, rfl⟩
  dsimp only
  rw [State.inc, src_w, src_setSrc]

theorem edge_pending {n : Fin 256} (hon : s.islandOn .logic = true) (hway : s.toEic.contains n.val = true) (hlatch : Latches s n)
    (hst : (s.src n).st = .pending) :
    Gives (.eicSourceEdge t n) s (fun u => (u.src n).st = .pending ∧
      u.r EIC.MERGES 0 (n / 16) = min (s.r EIC.MERGES 0 (n / 16) + 1) (2 ^ 16 - 1)) := by
  refine ⟨_, exec_eicSourceEdge hon hway, ?_⟩
  have hpending : ((arrived s t n).src n).st = .pending := hst
  rw [latch_of (s := arrived s t n) hlatch, hpending]
  beta_reduce
  rw [src_keepK, r_keepK]
  exact ⟨hst, r_inc_same _ EIC.MERGES 0 (n.val / 16) 1 (by decide)⟩

/-! ### Offers (R351, R353) -/

/-- What the withdrawal of offers leaves: all but the fields of the offers and the engines' notes of them. -/
structure Withdrawn (s u : State) : Prop where
  sources : u.sources = s.sources
  lastClaim : u.lastClaim = s.lastClaim
  r : ∀ (g : Fld) (j k : Nat), EIC.REFIRES.key 0 0 ≤ g.key j k → u.r g j k = s.r g j k
  hostedBy : ∀ d, (u.eng d).hostedBy = (s.eng d).hostedBy
  cur : ∀ d, (u.eng d).cur = (s.eng d).cur
  banks : ∀ d, (u.eng d).banks = (s.eng d).banks

theorem withdrawn_refl (s : State) : Withdrawn s s := ⟨rfl, rfl, fun _ _ _ _ => rfl, fun _ => rfl, fun _ => rfl, fun _ => rfl⟩

theorem withdrawn_tick (s : State) (t : Nat) : Withdrawn s (s.tick t) :=
  ⟨rfl, rfl, fun _ _ _ _ => rfl, fun _ => rfl, fun _ => rfl, fun _ => rfl⟩

theorem withdrawn_trans (h : Withdrawn s u) (k : Withdrawn u v) : Withdrawn s v :=
  ⟨k.sources.trans h.sources, k.lastClaim.trans h.lastClaim, fun g j i hg => (k.r g j i hg).trans (h.r g j i hg),
    fun d => (k.hostedBy d).trans (h.hostedBy d), fun d => (k.cur d).trans (h.cur d), fun d => (k.banks d).trans (h.banks d)⟩

theorem r_dropOffer (s : State) (e : Nat) (g : Fld) (j k : Nat) :
    (s.dropOffer e).r g j k = ((s.w EIC.OFFER_VALID 0 0 e).w EIC.OFFER 0 0 e).r g j k := rfl

theorem r_offerSource (s : State) (n e : Nat) (g : Fld) (j k : Nat) :
    (s.offerSource n e).r g j k = ((s.w EIC.OFFER n 0 e).w EIC.OFFER_VALID 1 0 e).r g j k := rfl

theorem sources_offerSource (s : State) (n e : Nat) : (s.offerSource n e).sources = s.sources := rfl

theorem eng_dropOffer (s : State) (e d : Nat) : (s.dropOffer e).eng d = if d = e then { s.eng e with offered := none } else s.eng d := by
  unfold State.dropOffer
  by_cases hd : d = e
  · subst hd
    rw [if_pos rfl]
    exact sget_sset_same _ _ _ _
  · rw [if_neg hd]
    exact sget_sset_ne _ _ _ _ hd

/-- The offers of the four engines lie below the other fields that routing reads. -/
theorem offer_below (he : e < 4) : EIC.OFFER.key 0 e < EIC.REFIRES.key 0 0 ∧ EIC.OFFER_VALID.key 0 e < EIC.REFIRES.key 0 0 := by
  simp only [Fld.key, EIC.OFFER, EIC.OFFER_VALID, EIC.REFIRES]
  omega

theorem withdrawn_dropOffer (s : State) (he : e < 4) : Withdrawn s (s.dropOffer e) := by
  obtain ⟨hoffer, hvalid⟩ := offer_below he
  have heng : ∀ {α : Type} (f : EngineX → α), (∀ x : EngineX, f { x with offered := none } = f x) → ∀ d, f ((s.dropOffer e).eng d) = f (s.eng d) :=
    fun f hf d => by
      rw [eng_dropOffer]
      split
      next h => rw [hf, h]
      next => rfl
  refine ⟨rfl, rfl, fun g j k hg => ?_, heng _ fun _ => rfl, heng _ fun _ => rfl, heng _ fun _ => rfl⟩
  have hne : g.key j k ≠ EIC.OFFER.key 0 e ∧ g.key j k ≠ EIC.OFFER_VALID.key 0 e := by omega
  rw [r_dropOffer, r_w_ne _ _ _ _ _ _ _ _ hne.1, r_w_ne _ _ _ _ _ _ _ _ hne.2]

section
variable (h : Withdrawn s u)
include h

theorem src_withdrawn (n : Nat) : u.src n = s.src n := congrArg (fun m => sget ({} : SourceX) m n) h.sources

theorem engineRuns_withdrawn (e : Nat) : u.engineRuns e = s.engineRuns e := by
  have hen : u.enabled 21 e = s.enabled 21 e := congrArg (· != 0) (h.r (hdr HDR.ENABLE ⟨21, e⟩) e 0 (by simp only [hdr, Fld.key, EIC.REFIRES]; omega))
  rw [State.engineRuns, State.engineRuns, hen, h.r LGE.RUN_STATE e 0 (by simp only [Fld.key, LGE.RUN_STATE, EIC.REFIRES]; omega),
    h.r DCH.ROLE 0 0 (by decide)]

theorem targets_withdrawn (n : Nat) : u.targets n = s.targets n := by
  have hreserve : ∀ e, u.r LGE.IS_RESERVE e = s.r LGE.IS_RESERVE e := fun e => h.r _ _ _ (by simp only [Fld.key, LGE.IS_RESERVE, EIC.REFIRES]; omega)
  have hhosting : ∀ e, u.r LGE.HOSTING e = s.r LGE.HOSTING e := fun e => h.r _ _ _ (by simp only [Fld.key, LGE.HOSTING, EIC.REFIRES]; omega)
  have htarget : u.r EIC.TARGET 0 n = s.r EIC.TARGET 0 n := h.r _ _ _ (by simp only [Fld.key, EIC.TARGET, EIC.REFIRES]; omega)
  simp only [State.targets, h.hostedBy, hreserve, hhosting, htarget, engineRuns_withdrawn h]

theorem eligible_withdrawn (n : Nat) : u.eligible n = s.eligible n := by
  rw [State.eligible, State.eligible, src_withdrawn h, targets_withdrawn h, State.on, State.on,
    h.r EIC.EN 0 n (by simp only [Fld.key, EIC.EN, EIC.REFIRES]; omega)]

theorem prio_withdrawn (n : Nat) : u.r EIC.PRIO 0 n = s.r EIC.PRIO 0 n := h.r _ _ _ (by simp only [Fld.key, EIC.PRIO, EIC.REFIRES]; omega)

theorem routeOrder_withdrawn : u.routeOrder = s.routeOrder := by
  simp only [State.routeOrder, funext (eligible_withdrawn h), prio_withdrawn h]

theorem curPrio_withdrawn (e : Nat) : u.curPrio e = s.curPrio e := by
  simp only [State.curPrio, h.cur, h.banks]

theorem moderated_withdrawn (n : Nat) (hup : u.up = s.up) : u.moderated n = s.moderated n := by
  simp only [State.moderated, h.lastClaim, hup, h.r EIC.MOD_US 0 (n / 16) (by simp only [Fld.key, EIC.MOD_US, EIC.REFIRES]; omega)]

end

/-- No offer stands at engine `d`. -/
def Closed (s : State) (d : Nat) : Prop := s.r EIC.OFFER_VALID 0 d = 0 ∧ (s.eng d).offered = none

theorem valid_dropOffer (s : State) (e d : Nat) : (s.dropOffer e).r EIC.OFFER_VALID 0 d = if d = e then 0 else s.r EIC.OFFER_VALID 0 d := by
  have hoffer : EIC.OFFER_VALID.key 0 d ≠ EIC.OFFER.key 0 e := by
    simp only [Fld.key, EIC.OFFER, EIC.OFFER_VALID]
    omega
  rw [r_dropOffer, r_w_ne _ _ _ _ _ _ _ _ hoffer]
  split
  next h => rw [h, r_w_val (by decide) (by decide)]
  next h =>
    refine r_w_ne _ _ _ _ _ _ _ _ ?_
    simp only [Fld.key, EIC.OFFER_VALID]
    omega

theorem offer_dropOffer (s : State) (h : d ≠ e) : (s.dropOffer e).r EIC.OFFER 0 d = s.r EIC.OFFER 0 d := by
  have hoffer : EIC.OFFER.key 0 d ≠ EIC.OFFER.key 0 e := by
    simp only [Fld.key, EIC.OFFER]
    omega
  have hvalid : EIC.OFFER.key 0 d ≠ EIC.OFFER_VALID.key 0 e := by
    simp only [Fld.key, EIC.OFFER, EIC.OFFER_VALID]
    omega
  rw [r_dropOffer, r_w_ne _ _ _ _ _ _ _ _ hoffer, r_w_ne _ _ _ _ _ _ _ _ hvalid]

/-- Where an engine has no offer, none stands. -/
theorem offerStands_none (h : s.r EIC.OFFER_VALID 0 d = 0) : s.offerStands d = false := by
  rw [State.offerStands, State.on, h]
  rfl

/-- An offer that does not stand does not stand after another is withdrawn. -/
theorem offerStands_dropOffer (h : s.offerStands d = false) (he : e < 4) : (s.dropOffer e).offerStands d = false := by
  by_cases hd : d = e
  · exact offerStands_none ((valid_dropOffer s e d).trans (if_pos hd))
  · have hw := withdrawn_dropOffer s he
    rw [State.offerStands, State.on, valid_dropOffer, if_neg hd, offer_dropOffer s hd, eligible_withdrawn hw, targets_withdrawn hw,
      curPrio_withdrawn hw, prio_withdrawn hw]
    exact h

theorem closed_dropOffer (h : Closed s d ∨ d = e) : Closed (s.dropOffer e) d := by
  rw [Closed, valid_dropOffer, eng_dropOffer]
  by_cases hd : d = e
  · rw [if_pos hd, if_pos hd]
    exact ⟨rfl, rfl⟩
  · rw [if_neg hd, if_neg hd]
    exact h.resolve_right hd

/-- The first part of a routing decision: the offers that no longer stand are withdrawn. -/
def withdraw (s : State) : State := s.forN 4 fun s e => if s.offerStands e then s else s.dropOffer e

theorem route_eq (s : State) : s.route = (withdraw s).routeOrder.foldl State.routeSource (withdraw s) := rfl

theorem withdraw_withdrawn (s : State) : Withdrawn s (withdraw s) := by
  refine List.foldlRecOn (motive := Withdrawn s) _ _ (withdrawn_refl s) fun w hw e he => ?_
  split
  · exact hw
  · exact withdrawn_trans hw (withdrawn_dropOffer w (List.mem_range.mp he))

theorem withdraw_up (s : State) : (withdraw s).up = s.up := by
  refine List.foldlRecOn (motive := fun w : State => w.up = s.up) _ _ rfl fun w hw e _ => ?_
  split
  · exact hw
  · exact hw

theorem withdraw_closed (hd : d < 4) (h : s.offerStands d = false) : Closed (withdraw s) d := by
  obtain ⟨xs, ys, hsplit⟩ := List.append_of_mem (List.mem_range.mpr hd)
  have hlow : ∀ e ∈ xs ++ d :: ys, e < 4 := fun e he => List.mem_range.mp (hsplit ▸ he)
  unfold withdraw State.forN
  rw [hsplit, List.foldl_append, List.foldl_cons]
  have hbefore : (xs.foldl (fun s e => if s.offerStands e then s else s.dropOffer e) s).offerStands d = false := by
    refine List.foldlRecOn (motive := fun w : State => w.offerStands d = false) _ _ h fun w hw e he => ?_
    split
    · exact hw
    · exact offerStands_dropOffer hw (hlow e (List.mem_append_left _ he))
  refine List.foldlRecOn (motive := fun w => Closed w d) _ _ ?_ fun w hw e _ => ?_
  · rw [if_neg (by rw [hbefore]; decide)]
    exact closed_dropOffer (.inr rfl)
  · split
    · exact hw
    · exact closed_dropOffer (.inl hw)

/-- A source that stands nowhere goes to the one engine of its target set that is idle. -/
theorem routeSource_offers {n e : Nat} (he : e < 4) (hnone : ∀ d < 4, s.r EIC.OFFER_VALID 0 d = 0) (hfree : s.moderated n = false)
    (htargets : s.targets n = [e]) (hidle : s.curPrio e = none) : s.routeSource n = s.offerSource n e := by
  have hon : ∀ d < 4, s.on EIC.OFFER_VALID 0 d = false := fun d hd => by rw [State.on, hnone d hd]; rfl
  have hnowhere : ¬ (List.range 4).any (fun e => s.on EIC.OFFER_VALID 0 e && s.r EIC.OFFER 0 e == n) = true := by
    rw [List.any_eq_true]
    rintro ⟨d, hd, hoffer⟩
    rw [hon d (List.mem_range.mp hd)] at hoffer
    exact Bool.false_ne_true hoffer
  have hseen : s.seenPrio e = none := by
    rw [State.seenPrio, hidle, hon e he]
    rfl
  unfold State.routeSource
  extract_lets p cand held free w
  rw [if_neg hnowhere]
  have hcand : cand = [e] := by
    unfold cand
    rw [htargets, List.filter_cons, hseen]
    rfl
  have hw : w = s := by
    unfold w held
    rw [hfree]
    rfl
  have hchosen : free = [e] := by
    unfold free held
    rw [hfree]
    exact hcand
  rw [hchosen, hw]
  rfl

theorem eicRoute_offers {n : Fin 256} {e : Fin 4} (hon : s.islandOn .logic = true) (hnone : ∀ d : Fin 4, s.on EIC.OFFER_VALID 0 d = false)
    (horder : s.routeOrder = [n.val]) (hfree : (s.tick t).moderated n = false) (htargets : s.targets n = [e.val]) (hidle : s.curPrio e = none) :
    Gives (.eicRoute t) s (fun u => u.r EIC.OFFER_VALID 0 e = 1 ∧ u.r EIC.OFFER 0 e = n ∧ u.sources = s.sources ∧
      ∀ d : Fin 4, d ≠ e → u.r EIC.OFFER_VALID 0 d = 0) := by
  have hw := withdrawn_trans (withdrawn_tick s t) (withdraw_withdrawn (s.tick t))
  have hclosed : ∀ d < 4, (withdraw (s.tick t)).r EIC.OFFER_VALID 0 d = 0 := fun d hd =>
    (withdraw_closed hd (by
      have hoff : (s.tick t).on EIC.OFFER_VALID 0 d = false := hnone ⟨d, hd⟩
      rw [State.offerStands, hoff]
      rfl)).1
  have horder' : (withdraw (s.tick t)).routeOrder = [n.val] := (routeOrder_withdrawn hw).trans horder
  refine ⟨_, runK_on hon t _, ?_⟩
  beta_reduce
  rw [route_eq, horder', List.foldl_cons, List.foldl_nil, routeSource_offers e.isLt hclosed
    ((moderated_withdrawn (withdraw_withdrawn (s.tick t)) n (withdraw_up _)).trans hfree)
    ((targets_withdrawn hw n).trans htargets) ((curPrio_withdrawn hw e).trans hidle)]
  simp only [r_keepK, keepK_sources, r_offerSource, sources_offerSource]
  have hapart : ∀ a b, EIC.OFFER.key 0 a ≠ EIC.OFFER_VALID.key 0 b := fun a b => by
    simp only [Fld.key, EIC.OFFER, EIC.OFFER_VALID]
    omega
  refine ⟨?_, ?_, ?_, fun d hd => ?_⟩
  · rw [r_w_val (by decide) (by decide)]
  · rw [r_w_ne _ _ _ _ _ _ _ _ (hapart _ _), r_w_val n.isLt (by decide)]
  · exact hw.sources
  · have hne : EIC.OFFER_VALID.key 0 d ≠ EIC.OFFER_VALID.key 0 e := by
      have hval : d.val ≠ e.val := fun heq => hd (Fin.ext heq)
      simp only [Fld.key, EIC.OFFER_VALID]
      omega
    rw [r_w_ne _ _ _ _ _ _ _ _ hne, r_w_ne _ _ _ _ _ _ _ _ (hapart _ _).symm]
    exact hclosed d d.isLt

theorem eicRoute_withdraws {d : Fin 4} (hon : s.islandOn .logic = true) (horder : s.routeOrder = []) (hstands : s.offerStands d = false) :
    Gives (.eicRoute t) s (fun u => u.r EIC.OFFER_VALID 0 d = 0 ∧ (u.eng d).offered = none) := by
  have horder' : (withdraw (s.tick t)).routeOrder = [] := (routeOrder_withdrawn (withdrawn_trans (withdrawn_tick s t) (withdraw_withdrawn _))).trans horder
  have hstands' : (s.tick t).offerStands d = false := by
    have hw := withdrawn_tick s t
    rw [State.offerStands, eligible_withdrawn hw, targets_withdrawn hw, curPrio_withdrawn hw, prio_withdrawn hw]
    exact hstands
  refine ⟨_, runK_on hon t _, ?_⟩
  beta_reduce
  rw [route_eq, horder', List.foldl_nil, r_keepK, eng_keepK]
  exact withdraw_closed d.isLt hstands'

theorem modIntervalEnd_ends {g : Fin 16} (hon : s.islandOn .logic = true) (hruns : sget 0 s.lastClaim g ≠ 0)
    (hover : sget 0 s.lastClaim g + 1000 * s.r EIC.MOD_US 0 g ≤ (s.tick t).up + 1) :
    Gives (.modIntervalEnd t g) s (fun u => sget 0 u.lastClaim g = 0 ∧ u.regs = s.regs ∧ u.sources = s.sources) :=
  ⟨_, (runK_on hon t _).trans (congrArg (fun u => Host.Outcome.next (s.keepK u)) (if_pos ⟨hruns, hover⟩)), sget_sset_same 0 s.lastClaim g.val 0, rfl, rfl⟩

/-! ### Settings and counters (R353, R356, R368) -/

theorem setSrc_raises {n : Fin 256} (htakes : Takes s r ⟨5, 0⟩) (hfree : reservedSource n = false) :
    Gives (.setSrc t r n) s (fun u => u.toEic = s.toEic ++ [n.val] ∧ u.sources = s.sources) := by
  refine ⟨_, cmdK_seen htakes t _, ?_⟩
  dsimp only
  rw [if_neg (by rw [hfree]; decide)]
  exact ⟨rfl, rfl⟩

/-- The fields of a source as SRC_CFG sets them. -/
def withFields (s : State) (n : Nat) (v : Word) : State :=
  ((s.w EIC.PRIO (bitsAt v.toNat 0 4) 0 n).w EIC.TARGET (bitsAt v.toNat 4 4) 0 n).wb EIC.EN (v.getLsbD 8) 0 n

theorem withFields_shows (s : State) (n : Nat) (v : Word) :
    (withFields s n v).r EIC.PRIO 0 n = v.toNat % 16 ∧ (withFields s n v).r EIC.TARGET 0 n = v.toNat / 16 % 16 ∧
    (withFields s n v).r EIC.EN 0 n = (v.getLsbD 8).toNat := by
  have hprio : EIC.PRIO.key 0 n ≠ EIC.TARGET.key 0 n ∧ EIC.PRIO.key 0 n ≠ EIC.EN.key 0 n ∧ EIC.TARGET.key 0 n ≠ EIC.EN.key 0 n := by
    simp only [Fld.key, EIC.PRIO, EIC.TARGET, EIC.EN]
    omega
  obtain ⟨hpt, hpe, hte⟩ := hprio
  have hbits : ∀ k, bitsAt v.toNat k 4 < 2 ^ 4 := fun k => Nat.mod_lt _ (by decide)
  unfold withFields
  refine ⟨?_, ?_, r_wb_same _ _ _ _ _ (by decide) (by decide)⟩
  · rw [State.wb, r_w_ne _ _ _ _ _ _ _ _ hpe, r_w_ne _ _ _ _ _ _ _ _ hpt, r_w_val (hbits 0) (by decide), bitsAt, Nat.pow_zero, Nat.div_one]
    rfl
  · rw [State.wb, r_w_ne _ _ _ _ _ _ _ _ hte, r_w_val (hbits 4) (by decide)]
    rfl

/-- The offers of a source that is no longer pending are withdrawn. -/
def withdrawSource (s : State) (n : Nat) : State :=
  s.forN 4 fun s e => if s.on EIC.OFFER_VALID 0 e ∧ s.r EIC.OFFER 0 e = n then s.dropOffer e else s

theorem withdrawSource_withdrawn (s : State) (n : Nat) : Withdrawn s (withdrawSource s n) := by
  refine List.foldlRecOn (motive := Withdrawn s) _ _ (withdrawn_refl s) fun w hw e he => ?_
  split
  · exact withdrawn_trans hw (withdrawn_dropOffer w (List.mem_range.mp he))
  · exact hw

/-- SRC_CFG of a source that is not reserved. -/
theorem srcCfg_eq {n : Nat} {v : Word} (hfree : reservedSource n = false) (s : State) :
    s.srcCfg n v = if v.getLsbD 8 then withFields s n v
      else match (s.src n).st with
        | .pending => withdrawSource ((withFields s n v).setSrc n { s.src n with st := .idle }) n
        | .activePending => (withFields s n v).setSrc n { s.src n with st := .active }
        | _ => withFields s n v := by
  unfold State.srcCfg
  extract_lets en a b x
  have hen : en = v.getLsbD 8 := by
    unfold en
    rw [hfree, Bool.not_false, Bool.and_true]
  have ha : a = withFields s n v := by
    unfold a withFields
    rw [hen]
  have hb : b = a := by
    unfold b
    rw [hen, Bool.and_not_self]
    exact if_neg Bool.false_ne_true
  have hx : x = s.src n := by
    unfold x
    rw [hb]
    rfl
  clear_value x b
  rw [hx, hb, ha, hen]
  split
  · rfl
  · cases (s.src n).st
    · rfl
    · rfl
    · rfl
    · rfl

theorem r_srcCfg {n : Nat} {v : Word} {g : Fld} {j k : Nat} (hfree : reservedSource n = false) (hg : EIC.REFIRES.key 0 0 ≤ g.key j k) (s : State) :
    (s.srcCfg n v).r g j k = (withFields s n v).r g j k := by
  rw [srcCfg_eq hfree]
  split
  · rfl
  · split
    · exact (withdrawSource_withdrawn ((withFields s n v).setSrc n { s.src n with st := .idle }) n).r g j k hg
    · rfl
    · rfl

theorem srcCfg_clears {n : Nat} {v : Word} (hfree : reservedSource n = false) (hv : v.getLsbD 8 = false) (hst : (s.src n).st = .pending) :
    ((s.srcCfg n v).src n).st = .idle := by
  rw [srcCfg_eq hfree, hv, hst, if_neg Bool.false_ne_true]
  dsimp only
  rw [src_withdrawn (withdrawSource_withdrawn _ n), src_setSrc]

theorem srcCfg_keeps {n : Nat} {v : Word} (hfree : reservedSource n = false) (hv : v.getLsbD 8 = true) : (s.srcCfg n v).src n = s.src n := by
  rw [srcCfg_eq hfree, if_pos hv]
  rfl

theorem srcCfgWrite_sets {n : Fin 256} {v : Word} (htakes : Takes s r ⟨5, 0⟩) (hfree : reservedSource n = false) :
    Gives (.srcCfgWrite t r n v) s (fun u => u.r EIC.PRIO 0 n = v.toNat % 16 ∧ u.r EIC.TARGET 0 n = v.toNat / 16 % 16 ∧
      u.on EIC.EN 0 n = v.getLsbD 8 ∧ (v.getLsbD 8 = false → (s.src n).st = .pending → (u.src n).st = .idle) ∧
      (v.getLsbD 8 = true → (u.src n).st = (s.src n).st)) := by
  refine ⟨_, cmdK_seen htakes t _, ?_⟩
  beta_reduce
  obtain ⟨hprio, htarget, hen⟩ := withFields_shows (writeSeen s t ⟨5, 0⟩) n v
  have hbelow : EIC.REFIRES.key 0 0 ≤ EIC.PRIO.key 0 n ∧ EIC.REFIRES.key 0 0 ≤ EIC.TARGET.key 0 n ∧ EIC.REFIRES.key 0 0 ≤ EIC.EN.key 0 n := by
    simp only [Fld.key, EIC.PRIO, EIC.TARGET, EIC.EN, EIC.REFIRES]
    omega
  obtain ⟨bprio, btarget, ben⟩ := hbelow
  rw [State.on, r_keepK, r_keepK, r_keepK, src_keepK, r_srcCfg hfree bprio, r_srcCfg hfree btarget, r_srcCfg hfree ben, hprio, htarget, hen]
  refine ⟨rfl, rfl, ?_, fun hv hst => srcCfg_clears hfree hv hst, fun hv => congrArg SourceX.st (srcCfg_keeps hfree hv)⟩
  cases v.getLsbD 8
  · rfl
  · rfl

theorem eicCtrClr_clears (htakes : Takes s r ⟨5, 0⟩) :
    Gives (.eicCtrClr t r) s (fun u => (∀ g : Fin 16, u.r EIC.MERGES 0 g = 0 ∧ u.r EIC.MOD_HELD 0 g = 0) ∧ u.r EIC.REFIRES = 0 ∧
      u.r EIC.CLAIMS_LIVE0 = 0 ∧ u.r EIC.AGED_SRC = s.r EIC.AGED_SRC) := by
  refine ⟨_, cmdK_seen htakes t _, ?_⟩
  simp only [r_keepK]
  refine ⟨fun g => ⟨?_, ?_⟩, ?_, ?_, ?_⟩
  · exact HostQueueLaws.r_rstF_of_reset (HostQueueLaws.r_rstF_of_reset (HostQueueLaws.r_rstF_of_reset (HostQueueLaws.r_rstF_same _ g.isLt) _) _) _
  · exact HostQueueLaws.r_rstF_of_reset (HostQueueLaws.r_rstF_of_reset (HostQueueLaws.r_rstF_same _ g.isLt) _) _
  · exact HostQueueLaws.r_rstF_of_reset (HostQueueLaws.r_rstF_same _ (by decide)) _
  · exact HostQueueLaws.r_rstF_same _ (by decide)
  · rw [r_rstF_apart (by decide), r_rstF_apart (by decide), r_rstF_apart (by decide), r_rstF_apart (by decide)]
    exact r_seen_apart (by decide) t

theorem pendingAged_shows {n : Fin 256} (hon : s.islandOn .logic = true) (hst : (s.src n).st = .pending) (hset : s.r EIC.AGE_MS ≠ 0)
    (hover : (s.src n).since + 1000000 * s.r EIC.AGE_MS < (s.tick t).up) :
    Gives (.pendingAged t n) s (fun u => u.r EIC.AGED_SRC = n ∧ (u.src n).st = .pending) := by
  refine ⟨_, (runK_on hon t _).trans (congrArg (fun u => Host.Outcome.next (s.keepK u)) (if_pos ⟨hst, hset, hover⟩)), ?_⟩
  beta_reduce
  rw [r_keepK, src_keepK, r_raise_apart (by decide), r_w_val n.isLt (by decide)]
  refine ⟨rfl, ?_⟩
  rw [State.src, raise_sources]
  exact hst

/-- Settles O42, clause by clause. -/
theorem eventSources : Obligations.EventSources := by
  unfold Obligations.EventSources
  intro t r n s
  refine ⟨fun hon hway hfree hen => ⟨fun hst => edge_idle hon hway ⟨hfree, hen⟩ hst, fun hst => edge_active hon hway ⟨hfree, hen⟩ hst,
      fun hst => edge_pending hon hway ⟨hfree, hen⟩ hst⟩,
    fun e hon hnone horder hfree htargets hidle => eicRoute_offers hon hnone horder hfree htargets hidle,
    fun d hon horder hstands => eicRoute_withdraws hon horder hstands, fun g hon hruns hover => modIntervalEnd_ends hon hruns hover,
    fun htakes => ⟨fun hfree => setSrc_raises htakes hfree, fun v hfree => srcCfgWrite_sets htakes hfree, eicCtrClr_clears htakes⟩,
    fun hon hst hset hover => pendingAged_shows hon hst hset hover⟩

end Sys2Proof.EventSourceLaws
end

section
/-! The calendar clock: its ticks, reads, staging, synchronisation and supervision (R397 to R408). -/

namespace Sys2Proof.CalendarLaws

open Sys2Proof Sys2Proof.Machine Sys2Proof.Laws Sys2Proof.LogicPageLaws Sys2Proof.PageFieldLaws Sys2Proof.TimeServiceLaws

variable {s u v : State} {t : Nat} {r : Requester}

/-! ### Ticks (R397, R400, R404) -/

/-- The registers that the alarm and a tick of the calendar write. -/
def tickKeys : List Nat := [RTC.TIME_VALID.key 0 0, RTC.ALM_FLAG.key 0 0, pendKey 9 0 0]

/-- The alarm leaves the calendar's record, and every field but its flag and its event. -/
theorem alarm_keeps (s : State) : s.alarm.rtc = s.rtc ∧ ∀ g : Fld, g.key 0 0 ∉ [RTC.ALM_FLAG.key 0 0, pendKey 9 0 0] → s.alarm.r g = s.r g := by
  unfold State.alarm
  extract_lets c en
  split
  · refine ⟨raise_rtc _ _ _ _ _ _, fun g hg => ?_⟩
    rw [List.mem_cons, List.mem_singleton, not_or] at hg
    obtain ⟨hflag, hpend⟩ := hg
    rw [r_raise_apart hpend, r_w_apart hflag]
  · exact ⟨rfl, fun _ _ => rfl⟩

theorem calTick_shows (s : State) : s.calTick.rtc = { s.rtc with cal := s.rtc.cal.succ } ∧ ∀ g : Fld, g.key 0 0 ∉ tickKeys → s.calTick.r g = s.r g := by
  unfold State.calTick
  extract_lets v
  obtain ⟨hrtc, hkept⟩ := alarm_keeps (v.setRtc fun k => { k with cal := k.cal.succ })
  have hv : v.rtc = s.rtc := by
    unfold v
    split <;> rfl
  refine ⟨by rw [hrtc, setRtc_rtc, hv], fun g hg => ?_⟩
  rw [tickKeys, List.mem_cons, not_or] at hg
  obtain ⟨hvalid, hrest⟩ := hg
  rw [hkept g hrest, r_setRtc]
  unfold v
  split
  · exact r_w_apart hvalid _
  · rfl

/-- The end of a freeze (R400). -/
theorem release_shows (hfrozen : s.r RTC.FROZEN = 1) :
    s.release.r RTC.FROZEN = 0 ∧ s.release.rtc.shadow = none ∧
    s.release.rtc.cal = (if s.r RTC.HELD_TICK = 1 then s.rtc.cal.succ else s.rtc.cal) := by
  unfold State.release
  rw [if_neg (by rw [hfrozen]; decide)]
  extract_lets v
  have hheld : v.r RTC.HELD_TICK = s.r RTC.HELD_TICK := r_w_apart (by decide) _
  have hdone : v.r RTC.FROZEN = 0 := r_w_val (by decide) (by decide)
  rw [hheld]
  split
  · obtain ⟨hrtc, hkept⟩ := calTick_shows (v.w RTC.HELD_TICK 0)
    rw [hrtc, hkept RTC.FROZEN (by decide), r_w_apart (by decide), hdone]
    exact ⟨rfl, rfl, rfl⟩
  · exact ⟨hdone, rfl, rfl⟩

theorem rtcTick_counts (hcommit : s.rtc.commitAt ≠ some (s.tick t).up) (hfrozen : s.r RTC.FROZEN = 0) :
    Gives (.rtcTick t) s (fun u => u.rtc.cal = s.rtc.cal.succ ∧ u.r RTC.FROZEN = 0) := by
  refine ⟨_, congrArg (fun u => Host.Outcome.next (s.keepK u)) (if_neg hcommit), ?_⟩
  extract_lets v w
  have hw : w.rtc.cal = s.rtc.cal ∧ w.r RTC.FROZEN = 0 := by
    unfold w
    split
    · exact ⟨rfl, by rw [r_w_apart (by decide), r_w_apart (by decide)]; exact hfrozen⟩
    · exact ⟨rfl, hfrozen⟩
  obtain ⟨hcal, hnot⟩ := hw
  rw [if_neg (by rw [hnot]; decide)]
  obtain ⟨hrtc, hkept⟩ := calTick_shows w
  dsimp only
  rw [keepK_rtc, r_keepK, hrtc, hkept RTC.FROZEN (by decide), hcal, hnot]
  exact ⟨rfl, rfl⟩

theorem rtcTick_held (hcommit : s.rtc.commitAt ≠ some (s.tick t).up) (hfrozen : s.r RTC.FROZEN = 1) :
    Gives (.rtcTick t) s (fun u => u.rtc.cal = s.rtc.cal ∧ u.r RTC.HELD_TICK = 1 ∧ u.rtc.shadow = s.rtc.shadow) := by
  refine ⟨_, congrArg (fun u => Host.Outcome.next (s.keepK u)) (if_neg hcommit), ?_⟩
  extract_lets v w
  have hw : w.rtc = v.rtc ∧ w.r RTC.FROZEN = 1 := by
    unfold w
    split
    · exact ⟨rfl, by rw [r_w_apart (by decide), r_w_apart (by decide)]; exact hfrozen⟩
    · exact ⟨rfl, hfrozen⟩
  obtain ⟨hrtc, hheld⟩ := hw
  rw [if_pos hheld]
  dsimp only
  rw [keepK_rtc, r_keepK, w_rtc, hrtc, r_w_val (by decide) (by decide)]
  exact ⟨rfl, rfl, rfl⟩

/-! ### Reads (R400) -/

theorem rtcSecRead_freezes (h : s.reaches r ⟨9, 0⟩ = true) (hfrozen : s.r RTC.FROZEN = 0) :
    Gives (.rtcSecRead t r) s (fun u => sget 0 u.resp (ownerCode r) = BitVec.ofNat 32 s.rtc.cal.sec ∧ u.rtc.shadow = some s.rtc.cal ∧
      u.r RTC.FROZEN = 1 ∧ u.rtc.cal = s.rtc.cal) := by
  refine ⟨_, cmdK_read (by decide) h t _, ?_⟩
  dsimp only
  rw [if_neg (show ¬ (s.tick t).r RTC.FROZEN = 1 by rw [r_tick, hfrozen]; decide)]
  rw [r_keepK, keepK_resp, keepK_rtc]
  exact ⟨sget_sset_same _ _ _ _, rfl, r_w_val (f := RTC.FROZEN) (v := 1) (by decide) (by decide), rfl⟩

theorem release_resp (s : State) : s.release.resp = s.resp := by
  have halarm : ∀ w : State, w.alarm.resp = w.resp := fun w => by
    unfold State.alarm
    extract_lets c en
    split
    · rw [raise_resp, w_resp]
    · rfl
  unfold State.release
  split
  · rfl
  · extract_lets v
    split
    · unfold State.calTick
      extract_lets x
      have hx : x.resp = s.resp := by
        unfold x
        split <;> rfl
      exact (halarm _).trans hx
    · rfl

theorem rtcCentRead_releases {c : Cal} (h : s.reaches r ⟨9, 0⟩ = true) (hfrozen : s.r RTC.FROZEN = 1) (hshadow : s.rtc.shadow = some c) :
    Gives (.rtcCentRead t r) s (fun u => sget 0 u.resp (ownerCode r) = BitVec.ofNat 32 c.cent ∧ u.rtc.shadow = none ∧ u.r RTC.FROZEN = 0 ∧
      u.rtc.cal = if s.r RTC.HELD_TICK = 1 then s.rtc.cal.succ else s.rtc.cal) := by
  refine ⟨_, cmdK_read (by decide) h t _, ?_⟩
  have hshown : (s.tick t).calShown = c := by
    rw [State.calShown, tick_rtc, hshadow]
    rfl
  obtain ⟨hdone, hnone, hcal⟩ := release_shows (s := (s.tick t).reply r c.cent) hfrozen
  dsimp only
  rw [hshown, keepK_resp, keepK_rtc, r_keepK, release_resp]
  exact ⟨sget_sset_same _ _ _ _, hnone, hdone, hcal⟩

theorem rtcFreezeTimeout_releases (hfrozen : s.r RTC.FROZEN = 1) (hheld : s.r RTC.HELD_TICK = 0) (hover : s.rtc.freezeAt + 1000000000 ≤ (s.tick t).up) :
    Gives (.rtcFreezeTimeout t) s (fun u => u.r RTC.FROZEN = 0 ∧ u.rtc.shadow = none ∧ u.rtc.cal = s.rtc.cal) := by
  refine ⟨_, congrArg (fun u => Host.Outcome.next (s.keepK u)) (if_pos hover), ?_⟩
  obtain ⟨hdone, hnone, hcal⟩ := release_shows (s := s.tick t) hfrozen
  rw [r_keepK, keepK_rtc, hcal, if_neg (show ¬ (s.tick t).r RTC.HELD_TICK = 1 by rw [r_tick, hheld]; decide)]
  exact ⟨hdone, hnone, rfl⟩

/-! ### Staging and commit (R401, R402) -/

/-- A field of the page that a counted clamp leaves. -/
def clampKeys : List Nat := [HDR.CLAMPS, HDR.LAST_DATA, HDR.LAST_OFFSET, HDR.LAST_BIT].map (fun f => (hdr f ⟨9, 0⟩).key 0 0)

theorem clampCount_keeps (s : State) (off lsb : Nat) : (s.clampCount ⟨9, 0⟩ off lsb).rtc = s.rtc ∧
    ∀ g : Fld, g.key 0 0 ∉ clampKeys → (s.clampCount ⟨9, 0⟩ off lsb).r g = s.r g := by
  refine ⟨rfl, fun g hg => ?_⟩
  simp only [clampKeys, List.map_cons, List.map_nil, List.mem_cons, List.not_mem_nil, or_false, not_or] at hg
  obtain ⟨hcount, hdata, hoffset, hbit⟩ := hg
  unfold State.clampCount State.hinc
  rw [r_hw_apart hbit, r_hw_apart hoffset, r_hw_apart hdata, r_inc_apart (f := hdr HDR.CLAMPS ⟨9, 0⟩) hcount]

/-- The clamp of a calendar field lies between its bounds (R402). -/
theorem bcdClamp_le (lo hi v : Nat) : bcdClamp lo hi v ≤ max (toBcd lo) (toBcd hi) := by
  unfold bcdClamp
  extract_lets x
  split
  · exact Nat.le_max_left _ _
  · split
    · exact Nat.le_max_right _ _
    · exact Nat.le_trans (Nat.le_of_not_lt ‹_›) (Nat.le_max_right _ _)

theorem openStaging_opens (s : State) : s.openStaging.r RTC.STAGE_OPEN = 1 ∧ s.openStaging.rtc = s.rtc := by
  unfold State.openStaging
  split
  next h => exact ⟨h, rfl⟩
  next =>
    extract_lets c
    refine ⟨?_, by simp only [w_rtc]⟩
    rw [r_w_apart (by decide), r_w_apart (by decide), r_w_apart (by decide), r_w_apart (by decide), r_w_apart (by decide), r_w_apart (by decide),
      r_w_apart (by decide), r_w_val (by decide) (by decide)]

/-- A value that goes to staging. -/
theorem stageField_shows {f : Fld} {lo hi : Nat} (v : Word) (hw : f.width ≤ 32) (hfits : max (toBcd lo) (toBcd hi) < 2 ^ f.width)
    (hopen : RTC.STAGE_OPEN.key 0 0 ≠ f.key 0 0) (hclamp : f.key 0 0 ∉ clampKeys) (s : State) :
    (s.stageField f lo hi v).r RTC.STAGE_OPEN = 1 ∧ (s.stageField f lo hi v).r f = bcdClamp lo hi (v.toNat % 2 ^ f.width) ∧
    (s.stageField f lo hi v).rtc = s.rtc := by
  unfold State.stageField
  extract_lets x c w
  obtain ⟨hopened, hrtc⟩ := openStaging_opens s
  have hset : w.r RTC.STAGE_OPEN = 1 ∧ w.r f = c ∧ w.rtc = s.rtc :=
    ⟨(r_w_apart hopen _).trans hopened, r_w_val (Nat.lt_of_le_of_lt (bcdClamp_le _ _ _) hfits) hw, hrtc⟩
  obtain ⟨wopen, wset, wrtc⟩ := hset
  unfold State.when
  split
  · obtain ⟨krtc, kkept⟩ := clampCount_keeps w f.off 0
    exact ⟨(kkept _ (by decide)).trans wopen, (kkept _ hclamp).trans wset, krtc.trans wrtc⟩
  · exact ⟨wopen, wset, wrtc⟩

theorem stagingWrite_stages (htakes : Takes s r ⟨9, 0⟩) (g : StgReg) (v : Word) :
    Gives (.stagingWrite t r g v) s (fun u => u.r RTC.STAGE_OPEN = 1 ∧ u.rtc = s.rtc ∧
      u.r (stgField g).1 = bcdClamp (stgField g).2.1 (stgField g).2.2 (v.toNat % 2 ^ (stgField g).1.width)) := by
  have hfield : (stgField g).1.width ≤ 32 ∧ max (toBcd (stgField g).2.1) (toBcd (stgField g).2.2) < 2 ^ (stgField g).1.width ∧
      RTC.STAGE_OPEN.key 0 0 ≠ (stgField g).1.key 0 0 ∧ (stgField g).1.key 0 0 ∉ clampKeys := by
    cases g <;> decide
  obtain ⟨hw, hfits, hopen, hclamp⟩ := hfield
  refine ⟨_, cmdK_seen htakes t _, ?_⟩
  obtain ⟨hopened, hset, hrtc⟩ := stageField_shows v hw hfits hopen hclamp (writeSeen s t ⟨9, 0⟩)
  rw [r_keepK, r_keepK, keepK_rtc, hopened, hset, hrtc]
  exact ⟨rfl, rfl, rfl⟩

theorem stgDiscard_closes (htakes : Takes s r ⟨9, 0⟩) :
    Gives (.stgDiscard t r) s (fun u => u.r RTC.STAGE_OPEN = 0 ∧ u.rtc = s.rtc) := by
  refine ⟨_, cmdK_seen htakes t _, ?_⟩
  beta_reduce
  rw [r_keepK, r_w_val (by decide) (by decide)]
  exact ⟨rfl, rfl⟩

/-- What a commit shows (R401, R408). -/
theorem commitCal_shows (s : State) (c : Cal) :
    (s.commitCal c).rtc = { s.rtc with cal := c, shadow := none, tickAt := s.up, commitAt := some s.up } ∧
    (s.commitCal c).r RTC.FROZEN = 0 ∧ (s.commitCal c).r RTC.HELD_TICK = 0 ∧ (s.commitCal c).r RTC.TIME_VALID = 1 ∧
    ∀ g : Fld, g.key 0 0 ∉ [RTC.FROZEN.key 0 0, RTC.HELD_TICK.key 0 0] ++ tickKeys → (s.commitCal c).r g = s.r g := by
  unfold State.commitCal
  extract_lets v
  obtain ⟨hrtc, hkept⟩ := alarm_keeps (((v.w RTC.FROZEN 0).w RTC.HELD_TICK 0).w RTC.TIME_VALID 1)
  refine ⟨hrtc, ?_, ?_, ?_, fun g hg => ?_⟩
  · rw [hkept _ (by decide), r_w_apart (by decide), r_w_apart (by decide), r_w_val (by decide) (by decide)]
  · rw [hkept _ (by decide), r_w_apart (by decide), r_w_val (by decide) (by decide)]
  · rw [hkept _ (by decide), r_w_val (by decide) (by decide)]
  · simp only [tickKeys, List.cons_append, List.nil_append, List.mem_cons, List.not_mem_nil, or_false, not_or] at hg
    obtain ⟨hfrozen, hheld, hvalid, hflag, hpend⟩ := hg
    rw [hkept g (by simp only [List.mem_cons, List.not_mem_nil, or_false, not_or]; exact ⟨hflag, hpend⟩), r_w_apart hvalid, r_w_apart hheld, r_w_apart hfrozen]
    rfl

/-- A write of STG_CENT while staging is open sets the century alone. -/
theorem stageField_open {v : Word} (hopen : s.r RTC.STAGE_OPEN = 1) (hexact : bcdClamp 20 23 (v.toNat % 256) = v.toNat % 256) :
    s.stageField RTC.STG_CENT 20 23 v = s.w RTC.STG_CENT (v.toNat % 256) := by
  have hnot : (bcdClamp 20 23 (v.toNat % 2 ^ RTC.STG_CENT.width) != v.toNat % 2 ^ RTC.STG_CENT.width) = false := by
    rw [show (2 : Nat) ^ RTC.STG_CENT.width = 256 from rfl, hexact, bne_self_eq_false]
  have hopened : s.openStaging = s := if_pos hopen
  unfold State.stageField
  extract_lets x c w
  rw [show (c != x) = false from hnot]
  have hw : w = s.w RTC.STG_CENT (v.toNat % 256) := by
    unfold w
    rw [hopened]
    exact congrArg (s.w RTC.STG_CENT) hexact
  exact hw

theorem calendarCommit_commits {v : Word} (htakes : Takes s r ⟨9, 0⟩) (hopen : s.r RTC.STAGE_OPEN = 1)
    (hexact : bcdClamp 20 23 (v.toNat % 256) = v.toNat % 256)
    (hday : ofBcd (s.r RTC.STG_DAY) ≤ monthDays (100 * ofBcd (v.toNat % 256) + ofBcd (s.r RTC.STG_YEAR)) (ofBcd (s.r RTC.STG_MONTH))) :
    Gives (.calendarCommit t r v) s (fun u => u.r RTC.STAGE_OPEN = 0 ∧ u.r RTC.TIME_VALID = 1 ∧ u.r RTC.FROZEN = 0 ∧
      u.r RTC.HELD_TICK = 0 ∧ u.rtc.cal = calOf (100 * ofBcd (v.toNat % 256) + ofBcd (s.r RTC.STG_YEAR))
        (ofBcd (s.r RTC.STG_MONTH)) (ofBcd (s.r RTC.STG_DAY)) (ofBcd (s.r RTC.STG_HOUR)) (ofBcd (s.r RTC.STG_MIN)) (ofBcd (s.r RTC.STG_SEC))) := by
  have hseen : (writeSeen s t ⟨9, 0⟩).r RTC.STAGE_OPEN = 1 := (r_seen_apart (by decide) t).trans hopen
  refine ⟨_, cmdK_seen htakes t _, ?_⟩
  rw [stageField_open hseen hexact]
  extract_lets w y m d d' x
  have hcent : w.r RTC.STG_CENT = v.toNat % 256 := by
    unfold w
    rw [r_w_apart (by decide)]
    exact r_w_val (f := RTC.STG_CENT) (Nat.mod_lt _ (by decide)) (by decide)
  have hkept : ∀ g : Fld, g.key 0 0 ≠ RTC.STAGE_OPEN.key 0 0 → g.key 0 0 ≠ RTC.STG_CENT.key 0 0 → g.key 0 0 ≠ (hdr HDR.COUNT ⟨9, 0⟩).key 0 0 →
      w.r g = s.r g := fun g hg hc hh => by
    unfold w
    rw [r_w_apart hg, r_w_apart hc, r_seen_apart hh]
  have hy : y = 100 * ofBcd (v.toNat % 256) + ofBcd (s.r RTC.STG_YEAR) := by
    unfold y
    rw [hcent, hkept RTC.STG_YEAR (by decide) (by decide) (by decide)]
  have hm : m = ofBcd (s.r RTC.STG_MONTH) := congrArg ofBcd (hkept RTC.STG_MONTH (by decide) (by decide) (by decide))
  have hd : d = ofBcd (s.r RTC.STG_DAY) := congrArg ofBcd (hkept RTC.STG_DAY (by decide) (by decide) (by decide))
  have hd' : d' = d := by
    unfold d'
    rw [hy, hm]
    exact Nat.min_eq_left (hd ▸ hday)
  have hx : x = w := by
    unfold x
    rw [hd', bne_self_eq_false]
    rfl
  rw [hx, hd', hy, hm, hd, hkept RTC.STG_HOUR (by decide) (by decide) (by decide), hkept RTC.STG_MIN (by decide) (by decide) (by decide),
    hkept RTC.STG_SEC (by decide) (by decide) (by decide)]
  have hclosed : w.r RTC.STAGE_OPEN = 0 := r_w_val (by decide) (by decide)
  obtain ⟨hrtc, hfrozen, hheld, hvalid, hrest⟩ := commitCal_shows w (calOf (100 * ofBcd (v.toNat % 256) + ofBcd (s.r RTC.STG_YEAR))
    (ofBcd (s.r RTC.STG_MONTH)) (ofBcd (s.r RTC.STG_DAY)) (ofBcd (s.r RTC.STG_HOUR)) (ofBcd (s.r RTC.STG_MIN)) (ofBcd (s.r RTC.STG_SEC)))
  dsimp only
  rw [r_keepK, r_keepK, r_keepK, r_keepK, keepK_rtc, hfrozen, hheld, hvalid, hrtc, hrest RTC.STAGE_OPEN (by decide), hclosed]
  exact ⟨rfl, rfl, rfl, rfl, rfl⟩

/-! ### Synchronisation (R403) -/

/-- The UTC second of the time base. -/
def utcNow (s : State) (t : Nat) : Nat := (s.tick t).now / 1000000000 - s.r TMK.UTC_OFFSET

/-- The hour's synchronisation is noted as made or skipped. -/
def hourNoted (s : State) (t : Nat) : State := (s.tick t).setRtc fun k => { k with syncHour := some (utcNow s t / 3600) }

theorem r_hourNoted (g : Fld) : (hourNoted s t).r g = s.r g := rfl

theorem autoSync_idle (hidle : (s.tick t).now % 1000000000 ≠ 0 ∨ s.rtc.syncHour = some (utcNow s t / 3600)) :
    Gives (.autoSync t) s (fun u => u.rtc = s.rtc ∧ u.regs = s.regs) :=
  ⟨_, congrArg (fun u => Host.Outcome.next (s.keepK u)) (if_pos (.inr (.inr hidle))), rfl, rfl⟩

theorem exec_autoSync (hon : s.aon RTC.AUTO_SYNC ≠ 0) (hlocked : s.r TMK.STATE = 2) (hsecond : (s.tick t).now % 1000000000 = 0)
    (hhour : s.rtc.syncHour ≠ some (utcNow s t / 3600)) {v : State}
    (hv : (if (hourNoted s t).r RTC.STAGE_OPEN = 1 ∨
        (hourNoted s t).r RTC.FROZEN = 1 ∨ (s.on TMK.LEAP61 && utcNow s t % 86400 == 0) = true
      then (hourNoted s t).inc RTC.SYNC_SKIPS
      else if 32768 ≤ |((utcNow s t : Int) - s.rtc.cal.utc) * 32768 - (s.tick t).subsec|
        then (((hourNoted s t).inc RTC.SYNCS).commitCal (calOfUtc (utcNow s t))).raise 9 0 8
          (((hourNoted s t).inc RTC.SYNCS).commitCal (calOfUtc (utcNow s t))).rtcPay
        else ((hourNoted s t).inc RTC.SYNCS).commitCal (calOfUtc (utcNow s t))) = v) :
    exec (.autoSync t) s = .next (s.keepK v) := by
  have hdue : ¬ ((s.tick t).aon RTC.AUTO_SYNC = 0 ∨ (s.tick t).r TMK.STATE ≠ 2 ∨ (s.tick t).now % 1000000000 ≠ 0 ∨
      (s.tick t).rtc.syncHour = some (utcNow s t / 3600)) :=
    not_or.mpr ⟨hon, not_or.mpr ⟨not_not.mpr hlocked, not_or.mpr ⟨not_not.mpr hsecond, hhour⟩⟩⟩
  rw [← hv]
  exact congrArg (fun u => Host.Outcome.next (s.keepK u)) (if_neg hdue)

theorem autoSync_skips (hon : s.aon RTC.AUTO_SYNC ≠ 0) (hlocked : s.r TMK.STATE = 2) (hsecond : (s.tick t).now % 1000000000 = 0)
    (hhour : s.rtc.syncHour ≠ some (utcNow s t / 3600)) (hbusy : s.r RTC.STAGE_OPEN = 1 ∨ s.r RTC.FROZEN = 1) :
    Gives (.autoSync t) s (fun u => u.rtc.cal = s.rtc.cal ∧ u.rtc.shadow = s.rtc.shadow ∧ u.rtc.syncHour = some (utcNow s t / 3600) ∧
      u.r RTC.SYNC_SKIPS = min (s.r RTC.SYNC_SKIPS + 1) (2 ^ 16 - 1)) := by
  refine ⟨_, exec_autoSync hon hlocked hsecond hhour (if_pos (hbusy.imp id .inl)), ?_⟩
  dsimp only
  rw [r_keepK, keepK_rtc, r_inc_same _ _ _ _ _ (by decide)]
  exact ⟨rfl, rfl, rfl, rfl⟩

theorem autoSync_sets (hon : s.aon RTC.AUTO_SYNC ≠ 0) (hlocked : s.r TMK.STATE = 2) (hleap : s.on TMK.LEAP61 = false)
    (hsecond : (s.tick t).now % 1000000000 = 0) (hhour : s.rtc.syncHour ≠ some (utcNow s t / 3600)) (hclosed : s.r RTC.STAGE_OPEN = 0)
    (hrunning : s.r RTC.FROZEN = 0) :
    Gives (.autoSync t) s (fun u => u.rtc.cal = calOfUtc (utcNow s t) ∧ u.rtc.syncHour = some (utcNow s t / 3600) ∧
      u.r RTC.SYNCS = min (s.r RTC.SYNCS + 1) (2 ^ 16 - 1)) := by
  have hsyncs : ¬ ((hourNoted s t).r RTC.STAGE_OPEN = 1 ∨
      (hourNoted s t).r RTC.FROZEN = 1 ∨
      (s.on TMK.LEAP61 && utcNow s t % 86400 == 0) = true) := by
    rw [r_hourNoted, r_hourNoted, hclosed, hrunning, hleap]
    exact not_or.mpr ⟨by decide, not_or.mpr ⟨by decide, Bool.false_ne_true⟩⟩
  refine ⟨_, exec_autoSync hon hlocked hsecond hhour (if_neg hsyncs), ?_⟩
  obtain ⟨hrtc, -, -, -, hkept⟩ := commitCal_shows ((hourNoted s t).inc RTC.SYNCS)
    (calOfUtc (utcNow s t))
  have hcount : (((hourNoted s t).inc RTC.SYNCS).commitCal (calOfUtc (utcNow s t))).r
      RTC.SYNCS = min (s.r RTC.SYNCS + 1) (2 ^ 16 - 1) := by
    rw [hkept RTC.SYNCS (by decide), r_inc_same _ _ _ _ _ (by decide)]
    rfl
  rw [r_keepK, keepK_rtc]
  split
  · rw [raise_rtc, r_raise_apart (by decide), hrtc, hcount]
    exact ⟨rfl, rfl, rfl⟩
  · rw [hrtc, hcount]
    exact ⟨rfl, rfl, rfl⟩

/-! ### Supervision and the backup domain (R405, R407, R562) -/

theorem wakeInputEdge_shows (n : Fin 4) (l : Bool) :
    Gives (.wakeInputEdge t n l) s (fun u => u.r RTC.LEVEL 0 n = l.toNat ∧ u.rtc = s.rtc) := by
  have happart : RTC.LEVEL.key 0 n ≠ pendKey 9 0 (4 + n.val) := by
    revert n
    decide
  have hset : ((s.tick t).wb RTC.LEVEL l 0 n).r RTC.LEVEL 0 n = l.toNat := r_wb_same _ _ _ _ _ (by decide) (by decide)
  refine ⟨_, rfl, ?_⟩
  dsimp only
  rw [r_keepK, keepK_rtc]
  split
  · rw [r_raise_apart happart, raise_rtc]
    exact ⟨hset, rfl⟩
  · exact ⟨hset, rfl⟩

/-- What a measurement of VBAK makes of the state. -/
def measured (s : State) (t mv : Nat) : State :=
  if mv < 1900 then
    ((((s.tick t).w PCR.RAIL_MV mv 0 5).setRtc fun k => { k with vbakOk := 0 }).w RTC.VBAK_LOW 1).setRaw 9 0 2 true s.rtcPay
  else if 10 ≤ if 1900 < mv then s.rtc.vbakOk + 1 else 0 then
    ((((s.tick t).w PCR.RAIL_MV mv 0 5).setRtc fun k => { k with vbakOk := if 1900 < mv then s.rtc.vbakOk + 1 else 0 }).w RTC.VBAK_LOW 0).setRaw 9 0 2 false
  else ((s.tick t).w PCR.RAIL_MV mv 0 5).setRtc fun k => { k with vbakOk := if 1900 < mv then s.rtc.vbakOk + 1 else 0 }

theorem vbakCheck_shows {mv : Nat} (hrun : s.pwr.st = .run) :
    (mv < 1900 → Gives (.vbakCheck t mv) s (fun u => u.r RTC.VBAK_LOW = 1 ∧ u.rtc.vbakOk = 0)) ∧
    (mv = 1900 → Gives (.vbakCheck t mv) s (fun u => u.rtc.vbakOk = 0 ∧ u.r RTC.VBAK_LOW = s.r RTC.VBAK_LOW)) ∧
    (1900 < mv → 9 ≤ s.rtc.vbakOk → Gives (.vbakCheck t mv) s (fun u => u.r RTC.VBAK_LOW = 0)) := by
  have hchecks : ∀ m, exec (.vbakCheck t m) s = .next (s.keepK (measured s t m)) := fun m =>
    congrArg (fun u => Host.Outcome.next (s.keepK u)) (if_neg (not_not.mpr (show (s.tick t).pwr.st = .run from hrun)))
  refine ⟨fun hlow => ⟨_, hchecks mv, ?_⟩, fun heq => ⟨_, hchecks mv, ?_⟩, fun hhigh hgood => ⟨_, hchecks mv, ?_⟩⟩
  · rw [measured, if_pos hlow]
    dsimp only
    rw [r_keepK, keepK_rtc, setRaw_rtc, r_setRaw_apart (by decide) (by decide), r_w_val (by decide) (by decide)]
    exact ⟨rfl, rfl⟩
  · subst heq
    rw [measured, if_neg (Nat.lt_irrefl _), if_neg (Nat.lt_irrefl _), if_neg (by decide)]
    rw [r_keepK, keepK_rtc, r_setRtc, r_w_apart (by decide)]
    exact ⟨rfl, rfl⟩
  · have hten : 10 ≤ s.rtc.vbakOk + 1 := Nat.succ_le_succ hgood
    rw [measured, if_neg (Nat.lt_asymm hhigh), if_pos hhigh, if_pos hten]
    dsimp only
    rw [r_keepK, r_setRaw_apart (by decide) (by decide), r_w_val (by decide) (by decide)]

theorem oscFault_shows : Gives (.oscFault t) s (fun u => u.r RTC.OSC_FAULT = 1 ∧ u.rtc.rcClock = true ∧ u.rtc.cal = s.rtc.cal) := by
  refine ⟨_, rfl, ?_⟩
  dsimp only
  rw [r_keepK, keepK_rtc, setRaw_rtc, r_setRaw_apart (by decide) (by decide), r_setRtc, r_w_val (by decide) (by decide)]
  exact ⟨rfl, rfl, rfl⟩

theorem oscRestored_shows : Gives (.oscRestored t) s (fun u => u.r RTC.OSC_FAULT = 0 ∧ u.rtc = s.rtc) := by
  refine ⟨_, rfl, ?_⟩
  dsimp only
  rw [r_keepK, keepK_rtc, setRaw_rtc, r_setRaw_apart (by decide) (by decide), r_w_val (by decide) (by decide)]
  exact ⟨rfl, rfl⟩

/-- The registers of the calendar clock and of the wake timer at their reset values. -/
def backupCleared (s : State) : State := (RTC.fields ++ NWT.fields).foldl (fun s f => s.rstF f 0) s

theorem r_backupCleared {f : Fld} (hf : f ∈ RTC.fields) (hn : 0 < f.n) (s : State) : (backupCleared s).r f = f.rst % 2 ^ 32 :=
  HostQueueLaws.r_foldl_rstF (List.mem_append_left _ hf) hn s

/-- The AON records at reset, and the unit off. -/
def darkened (s : State) : State := { s with rtc := {}, aonQ := [], aonRegs := [], pwr := { s.pwr with st := .off } }

theorem r_darkened (s : State) (g : Fld) : (darkened s).r g = s.r g := rfl

theorem backupDomainReset_resets (hkeep : s.pwr.st = .keep) :
    Gives (.backupDomainReset t) s (fun u => u.aonRegs = [] ∧ u.rtc.bporDue = true ∧ u.r RTC.TIME_VALID = 0 ∧ u.r RTC.BPOR = 1 ∧ u.pwr.st = .off) := by
  have hdark : ¬ ((s.tick t).pwr.st = .run ∨ (s.tick t).pwr.st = .doze) := by
    rw [tick_pwr, hkeep]
    decide
  have hexec : exec (.backupDomainReset t) s = .next (s.keepK (darkened (backupCleared (s.tick t)))) :=
    congrArg (fun u => Host.Outcome.next (s.keepK u)) (if_neg hdark)
  refine ⟨_, hexec, ?_⟩
  dsimp only
  rw [keepK_aonRegs, keepK_rtc, keepK_pwr, r_keepK, r_keepK, r_darkened, r_darkened, r_backupCleared (f := RTC.TIME_VALID) (by decide) (by decide),
    r_backupCleared (f := RTC.BPOR) (by decide) (by decide)]
  exact ⟨rfl, rfl, rfl, rfl, rfl⟩

theorem aonSupplySwitch_shows (b : Bool) : Gives (.aonSupplySwitch t b) s (fun u => u.rtc.onVbak = b ∧ u.rtc.cal = s.rtc.cal ∧ u.regs = s.regs) :=
  ⟨_, rfl, rfl, rfl, rfl⟩

/-- Settles O47, clause by clause. -/
theorem calendar : Obligations.Calendar := by
  unfold Obligations.Calendar
  intro t r s
  refine ⟨fun hcommit hfrozen => rtcTick_counts hcommit hfrozen, fun hcommit hfrozen => rtcTick_held hcommit hfrozen,
    fun h => ⟨fun hfrozen => rtcSecRead_freezes h hfrozen, fun c hfrozen hshadow => rtcCentRead_releases h hfrozen hshadow⟩,
    fun hfrozen hheld hover => rtcFreezeTimeout_releases hfrozen hheld hover,
    fun htakes => ⟨fun g v => stagingWrite_stages htakes g v, fun v hopen hexact hday => calendarCommit_commits htakes hopen hexact hday,
      stgDiscard_closes htakes⟩,
    fun hon hlocked hleap => ⟨fun hidle => autoSync_idle hidle, fun hsecond hhour => ⟨fun hbusy => autoSync_skips hon hlocked hsecond hhour hbusy,
      fun hclosed hrunning => autoSync_sets hon hlocked hleap hsecond hhour hclosed hrunning⟩⟩,
    fun n l => wakeInputEdge_shows n l, fun mv hrun => vbakCheck_shows hrun, oscFault_shows, oscRestored_shows,
    fun hkeep => backupDomainReset_resets hkeep, fun b => aonSupplySwitch_shows b⟩

end Sys2Proof.CalendarLaws
end

section
/-! What writing a record changes of the recorder and of its registers (R459, R466, R468). -/

namespace Sys2Proof.RecordWriteLaws

open Sys2Proof Sys2Proof.Machine Sys2Proof.Laws Sys2Proof.PageFieldLaws

/-- The registers that follow the ring and the holding buffer. -/
def fillKeys : List Nat :=
  [REC.HOLD_FILL.key 0 0, REC.OVERWRITTEN.key 0 0, REC.LOST_UNEXPORTED.key 0 0, REC.OLDEST_SEQ.key 0 0, pendKey 10 0 0, rawKey 10 0 0]

/-- The registers that a numbered record changes. -/
def numberKeys : List Nat := REC.HEAD_SEQ.key 0 0 :: fillKeys

/-- The registers that a record changes where its writing may end the hold and the freeze. -/
def recordKeys : List Nat := [REC.FROZEN.key 0 0, REC.HOLDING.key 0 0, pendKey 10 0 1] ++ numberKeys

/-- The ring, the holding buffer, the newest segment and the messages on their way differ alone. -/
def RingOnly (a b : RecX) : Prop :=
  ∃ inQ ring segFill segNo holding, b = { a with inQ := inQ, ring := ring, segFill := segFill, segNo := segNo, holding := holding }

/-- Registers of the list, and what follows the ring, differ alone. -/
structure Logged (ks : List Nat) (s u : State) : Prop where
  rcd : RingOnly s.rcd u.rcd
  r : ∀ (g : Fld) (j k : Nat), g.key j k ∉ ks → u.r g j k = s.r g j k

theorem RingOnly.refl (a : RecX) : RingOnly a a := ⟨_, _, _, _, _, rfl⟩

theorem RingOnly.trans {a b c : RecX} (h : RingOnly a b) (k : RingOnly b c) : RingOnly a c := by
  obtain ⟨_, _, _, _, _, rfl⟩ := h
  obtain ⟨_, _, _, _, _, rfl⟩ := k
  exact ⟨_, _, _, _, _, rfl⟩

/-- An event adds one message at most to those on their way. -/
theorem rcd_emit (s : State) (x : EvtRow) (n : Nat) (b : Bool) (p q : List Nat) : ∃ inQ, (s.emit x n b p q).rcd = { s.rcd with inQ := inQ } := by
  have hhosts : ∀ (w : State) m, (w.offerHosts m).rcd = w.rcd := fun w m => by
    unfold State.offerHosts
    split <;> rfl
  unfold State.emit
  extract_lets m v
  have hv : v.rcd = s.rcd := by
    unfold v
    split
    · exact hhosts _ _
    · rfl
  split
  · exact ⟨v.rcd.inQ ++ [m], by rw [State.offerRec, hv]⟩
  · exact ⟨_, hv⟩

theorem rcd_raise (s : State) (c n b : Nat) (p q : List Nat) : ∃ inQ, (s.raise c n b p q).rcd = { s.rcd with inQ := inQ } := by
  unfold State.raise
  split
  · exact ⟨_, rfl⟩
  next x _ =>
    split
    · extract_lets was v
      obtain ⟨inQ, hv⟩ := rcd_emit (s.setEvtPend c n b true) x n true p q
      have hpend : (s.setEvtPend c n b true).rcd = s.rcd := by
        unfold State.setEvtPend
        split <;> rfl
      rw [hpend] at hv
      refine ⟨inQ, ?_⟩
      split
      · split
        · exact hv
        · exact hv
      · exact hv
    · split
      · exact rcd_emit _ _ _ _ _ _
      · exact ⟨_, rfl⟩

theorem rcd_setRaw (s : State) (c n b : Nat) (x : Bool) (p q : List Nat) : ∃ inQ, (s.setRaw c n b x p q).rcd = { s.rcd with inQ := inQ } := by
  have hraw : ∀ y, (s.setEvtRaw c n b y).rcd = s.rcd := fun y => by
    unfold State.setEvtRaw
    split <;> rfl
  unfold State.setRaw
  split
  · obtain ⟨inQ, hq⟩ := rcd_raise (s.setEvtRaw c n b true) c n b p q
    exact ⟨inQ, by rw [hq, hraw]⟩
  · exact ⟨_, hraw x⟩

theorem ringOnly_raise (s : State) (c n b : Nat) (p q : List Nat) : RingOnly s.rcd (s.raise c n b p q).rcd := by
  obtain ⟨inQ, hq⟩ := rcd_raise s c n b p q
  exact ⟨inQ, _, _, _, _, hq⟩

namespace Logged

variable {ks ls : List Nat} {s u v : State} {j i : Nat}

theorem refl (s : State) : Logged ks s s := ⟨.refl _, fun _ _ _ _ => rfl⟩

theorem trans (h : Logged ks s u) (k : Logged ks u v) : Logged ks s v :=
  ⟨h.rcd.trans k.rcd, fun g j i hg => (k.r g j i hg).trans (h.r g j i hg)⟩

theorem mono (h : Logged ks s u) (hsub : ∀ k ∈ ks, k ∈ ls) : Logged ls s u := ⟨h.rcd, fun g j i hg => h.r g j i fun hk => hg (hsub _ hk)⟩

theorem ite {c : Prop} [Decidable c] (h : Logged ks s u) (k : Logged ks s v) : Logged ks s (if c then u else v) := by
  split
  · exact h
  · exact k

theorem w {f : Fld} (h : Logged ks s u) (x : Nat) (hmem : f.key j i ∈ ks) : Logged ks s (u.w f x j i) := by
  refine h.trans ⟨?_, fun g k l hg => ?_⟩
  · rw [w_rcd]
    exact .refl _
  · refine r_w_ne _ _ _ _ _ _ _ _ fun heq => hg ?_
    rw [heq]
    exact hmem

theorem setRec {f : RecX → RecX} (h : Logged ks s u) (hf : ∀ a, RingOnly a (f a)) : Logged ks s (u.setRec f) :=
  h.trans ⟨hf u.rcd, fun _ _ _ _ => rfl⟩

theorem raise {code bit : Nat} (h : Logged ks s u) (hmem : pendKey code j bit ∈ ks) (p q : List Nat) : Logged ks s (u.raise code j bit p q) :=
  h.trans ⟨ringOnly_raise _ _ _ _ _ _, fun _ _ _ hg => r_raise _ _ _ _ _ _ _ _ _ fun heq => hg (heq ▸ hmem)⟩

theorem setEvtRaw {code bit : Nat} (h : Logged ks s u) (hbit : bit < 32) (hmem : rawKey code j bit ∈ ks) (b : Bool) :
    Logged ks s (u.setEvtRaw code j bit b) := by
  rw [rawKey, if_pos hbit] at hmem
  rw [State.setEvtRaw, if_pos hbit]
  exact h.w _ hmem

theorem setRaw {code bit : Nat} (h : Logged ks s u) (hbit : bit < 32) (hpend : pendKey code j bit ∈ ks) (hraw : rawKey code j bit ∈ ks) (b : Bool)
    (p q : List Nat) : Logged ks s (u.setRaw code j bit b p q) := ite ((h.setEvtRaw hbit hraw true).raise hpend p q) (h.setEvtRaw hbit hraw b)

theorem ringFill (h : Logged fillKeys s u) : Logged fillKeys s u.ringFill := h.setRaw (by decide) (by decide) (by decide) _ _ _

theorem toRing (h : Logged fillKeys s u) (x : Rec1) : Logged fillKeys s (u.toRing x) :=
  (((h.setRec fun _ => ⟨_, _, _, _, _, rfl⟩).w _ (by decide)).w _ (by decide)).w _ (by decide)

theorem holdFill (h : Logged fillKeys s u) : Logged fillKeys s u.holdFill := h.w _ (by decide)

theorem unhold (h : Logged fillKeys s u) : Logged fillKeys s u.unhold :=
  ringFill (holdFill (List.foldlRecOn (motive := Logged fillKeys s) _ _ (h.setRec fun _ => ⟨_, _, _, _, _, rfl⟩) fun _ hv x _ => hv.toRing x))

end Logged

variable {s u : State}

/-- A record as it is numbered (R459 to R462). -/
def numbered (s : State) (code : Nat) (pay : List Nat) : Rec1 :=
  let fixed := s.r REC.FORM != 0
  let x : Rec1 := { code := code, unit := s.r DCH.UNIT_ADDR, fixed := fixed, trunc := fixed && decide (12 < (pay.take 496).length),
                    seq := BitVec.ofNat 32 (s.r REC.HEAD_SEQ), opSec := s.opSec, pwr := s.r KPR.PWR_CYC,
                    pay := if fixed then (pay.take 496).take 12 else pay.take 496 }
  { x with seg := s.rcd.segNo + (decide (4096 < s.rcd.segFill + x.len)).toNat }

/-- The state as a record takes its number. -/
theorem putRec_eq (s : State) (code : Nat) (pay : List Nat) : ∃ w : State, Logged [REC.HEAD_SEQ.key 0 0] s w ∧ w.rcd.ring = s.rcd.ring ∧
    w.rcd.holding = s.rcd.holding ∧ w.r REC.HEAD_SEQ = (s.r REC.HEAD_SEQ + 1) % 2 ^ 32 ∧
    s.putRec code pay = if s.held then (w.setRec (fun k => { k with holding := k.holding ++ [numbered s code pay] })).holdFill
      else (w.toRing (numbered s code pay)).ringFill := by
  unfold State.putRec
  extract_lets fixed pay' x opens seg y v w
  have hheld : w.held = s.held := by
    unfold State.held State.on w
    rw [r_w_apart (by decide), r_w_apart (by decide)]
    rfl
  refine ⟨w, ((Logged.refl s).setRec fun _ => ⟨_, _, _, _, _, rfl⟩).w _ (by decide), rfl, rfl, r_w_cut _ _ _ _ _ (by decide), ?_⟩
  rw [hheld]
  rfl

theorem logged_putRec (s : State) (code : Nat) (pay : List Nat) : Logged numberKeys s (s.putRec code pay) := by
  obtain ⟨w, hw, -, -, -, hput⟩ := putRec_eq s code pay
  rw [hput]
  refine (hw.mono (by decide)).trans (Logged.mono (ks := fillKeys) ?_ (by decide))
  exact ((Logged.refl w).setRec fun _ => ⟨_, _, _, _, _, rfl⟩).holdFill.ite (((Logged.refl w).toRing _).ringFill)

/-- A record takes the next number (R460). -/
theorem putRec_head (s : State) (code : Nat) (pay : List Nat) : (s.putRec code pay).r REC.HEAD_SEQ = (s.r REC.HEAD_SEQ + 1) % 2 ^ 32 := by
  obtain ⟨w, -, -, -, hhead, hput⟩ := putRec_eq s code pay
  have hfill : Logged fillKeys w (s.putRec code pay) := by
    rw [hput]
    exact ((Logged.refl w).setRec fun _ => ⟨_, _, _, _, _, rfl⟩).holdFill.ite (((Logged.refl w).toRing _).ringFill)
  rw [hfill.r REC.HEAD_SEQ 0 0 (by decide), hhead]

/-- The ring after RING_FILL follows it is as it was. -/
theorem ringFill_ring (s : State) : s.ringFill.rcd.ring = s.rcd.ring := by
  obtain ⟨q, hq⟩ := rcd_setRaw s 10 0 0 _ _ _
  have hring := congrArg RecX.ring hq
  exact hring

/-- Where nothing holds the ring, the record joins it; where something does, it joins the holding buffer (R466, R468). -/
theorem putRec_joins (s : State) (code : Nat) (pay : List Nat) :
    (s.held = false → (s.putRec code pay).rcd.ring.getLast? = some (numbered s code pay)) ∧
    (s.held = true → (s.putRec code pay).rcd.ring = s.rcd.ring) := by
  obtain ⟨w, -, hring, -, -, hput⟩ := putRec_eq s code pay
  refine ⟨fun hfree => ?_, fun hheld => ?_⟩
  · rw [hput, hfree, if_neg Bool.false_ne_true, ringFill_ring]
    exact List.getLast?_concat
  · rw [hput, hheld, if_pos rfl]
    exact hring

theorem logged_thaw (s : State) (cause : Nat) : Logged recordKeys s (s.thaw cause) ∧ (s.thaw cause).r REC.FROZEN = 0 := by
  unfold State.thaw
  extract_lets n v x
  have hx : Logged fillKeys v x := (Logged.refl v).ite (Logged.refl v).unhold
  have hv : Logged recordKeys s v := (Logged.refl s).w _ (by decide)
  have hput := logged_putRec x 0xF02 (cause :: leBytes 4 n)
  refine ⟨((hv.trans (hx.mono (by decide))).trans (hput.mono (by decide))).raise (by decide) _ _, ?_⟩
  rw [r_raise_apart (by decide), hput.r REC.FROZEN 0 0 (by decide), hx.r REC.FROZEN 0 0 (by decide), r_w_val (by decide) (by decide)]

theorem logged_writeRec (s : State) (code : Nat) (pay : List Nat) : Logged recordKeys s (s.writeRec code pay) := by
  unfold State.writeRec
  extract_lets full v w
  have hv : Logged recordKeys s v := (Logged.refl s).w _ (by decide)
  have hw : Logged recordKeys s w := by
    unfold w
    split
    · obtain ⟨hthaw, -⟩ := logged_thaw v 2
      exact (hv.trans hthaw).ite (hv.trans ((Logged.refl v).unhold.mono (by decide)))
    · exact .refl s
  exact hw.trans ((logged_putRec w code pay).mono (by decide))

/-- A record that finds room in the holding buffer, or nothing held, is only put. -/
theorem writeRec_put {code : Nat} {pay : List Nat}
    (h : s.held = false ∨ (s.rcd.holding.map Rec1.len).sum + 20 + (min pay.length 496 + 3) / 4 * 4 ≤ 262144) :
    s.writeRec code pay = s.putRec code pay := by
  unfold State.writeRec
  extract_lets full v w
  have hroom : (s.held && full) = false := by
    rcases h with h | h
    · rw [h, Bool.false_and]
    · rw [show full = false from decide_eq_false (Nat.not_lt.mpr h), Bool.and_false]
  have hw : w = s := by
    unfold w
    rw [hroom]
    exact if_neg Bool.false_ne_true
  rw [hw]

end Sys2Proof.RecordWriteLaws
end

section
/-! The recorder's log: messages, rate limits, summaries, settings, persistence and counters (R457 to R467, R475). -/

namespace Sys2Proof.RecorderLogLaws

open Sys2Proof Sys2Proof.Machine Sys2Proof.Laws Sys2Proof.LogicPageLaws Sys2Proof.PageFieldLaws Sys2Proof.RecordWriteLaws

variable {s u : State} {t : Nat} {r : Requester}

/-! ### Messages (R457, R465) -/

theorem recInput_takes {m : EvtMsg} {ms : List EvtMsg} (hon : s.islandOn .keep = true) (hq : s.rcd.inQ = m :: ms) :
    (s.rcd.queue.length < 256 → Gives (.recInput t) s (fun u => u.rcd.queue = s.rcd.queue ++ [m] ∧ u.rcd.inQ = ms ∧ u.regs = s.regs)) ∧
    (256 ≤ s.rcd.queue.length → Gives (.recInput t) s (fun u => u.rcd.queue = s.rcd.queue ∧ u.rcd.lostOwed = s.rcd.lostOwed + 1 ∧
      u.r REC.INPUT_LOST = min (s.r REC.INPUT_LOST + 1) (2 ^ 32 - 1))) := by
  have hexec : exec (.recInput t) s = .next (s.keepK (
      if s.rcd.queue.length < 256 then ((s.tick t).setRec fun k => { k with inQ := ms }).setRec fun k => { k with queue := k.queue ++ [m] }
      else (((s.tick t).setRec fun k => { k with inQ := ms }).setRec fun k => { k with lostOwed := k.lostOwed + 1 }).inc REC.INPUT_LOST)) := by
    refine (runK_on hon t _).trans (congrArg (fun u => Host.Outcome.next (s.keepK u)) ?_)
    simp only [tick_rcd, hq]
    rfl
  refine ⟨fun hroom => ?_, fun hfull => ?_⟩
  · rw [if_pos hroom] at hexec
    exact ⟨_, hexec, rfl, rfl, rfl⟩
  · rw [if_neg (Nat.not_lt.mpr hfull)] at hexec
    refine ⟨_, hexec, rfl, rfl, ?_⟩
    rw [r_keepK, r_inc_same _ _ _ _ _ (by decide)]
    rfl

/-- Where no message has been lost, none is owed. -/
theorem lostRecord_none (h : s.rcd.lostOwed = 0) : s.lostRecord = s := if_neg fun hlost => hlost.1 h

theorem exec_recRecordWrite {m : EvtMsg} {ms : List EvtMsg} (hon : s.islandOn .keep = true) (hq : s.rcd.queue = m :: ms) :
    exec (.recRecordWrite t) s = .next (s.keepK ((((s.tick t).setRec fun k => { k with queue := ms }).limited m.recCode m.recPay).lostRecord)) := by
  refine (runK_on hon t _).trans (congrArg (fun u => Host.Outcome.next (s.keepK u)) ?_)
  simp only [tick_rcd, hq]

theorem recRecordWrite_writes {m : EvtMsg} {ms : List EvtMsg} (hon : s.islandOn .keep = true) (hq : s.rcd.queue = m :: ms)
    (howed : s.rcd.lostOwed = 0) (hfree : s.held = false) (hen : (s.code m.recCode).en = true) (hcls : (s.code m.recCode).cls = 0) :
    Gives (.recRecordWrite t) s (fun u => u.rcd.queue = ms ∧ u.r REC.HEAD_SEQ = (s.r REC.HEAD_SEQ + 1) % 2 ^ 32 ∧
      ∃ x, u.rcd.ring.getLast? = some x ∧ x.code = m.recCode ∧ x.seq.toNat = s.r REC.HEAD_SEQ) := by
  refine ⟨_, exec_recRecordWrite hon hq, ?_⟩
  have hlimited : ((s.tick t).setRec fun k => { k with queue := ms }).limited m.recCode m.recPay =
      ((s.tick t).setRec fun k => { k with queue := ms }).putRec m.recCode m.recPay := by
    have hcode : ((s.tick t).setRec fun k => { k with queue := ms }).code m.recCode = s.code m.recCode := rfl
    unfold State.limited
    extract_lets x k y
    have hx : x = s.code m.recCode := hcode
    rw [if_neg (by rw [hx, hen]; decide), if_pos (by rw [hx, hcls])]
    exact writeRec_put (.inl hfree)
  obtain ⟨inQ, ring, segFill, segNo, holding, hrcd⟩ := (logged_putRec ((s.tick t).setRec fun k => { k with queue := ms }) m.recCode m.recPay).rcd
  obtain ⟨hjoins, -⟩ := putRec_joins ((s.tick t).setRec fun k => { k with queue := ms }) m.recCode m.recPay
  have hnone : (((s.tick t).setRec fun k => { k with queue := ms }).putRec m.recCode m.recPay).rcd.lostOwed = 0 := by
    rw [hrcd]
    exact howed
  dsimp only
  rw [hlimited, lostRecord_none hnone, keepK_rcd, r_keepK, putRec_head, hjoins hfree]
  refine ⟨by rw [hrcd]; rfl, rfl, _, rfl, rfl, ?_⟩
  exact (BitVec.toNat_ofNat _ _).trans (Nat.mod_eq_of_lt (BitVec.isLt _))

theorem recRecordWrite_drops {m : EvtMsg} {ms : List EvtMsg} (hon : s.islandOn .keep = true) (hq : s.rcd.queue = m :: ms)
    (howed : s.rcd.lostOwed = 0) (hoff : (s.code m.recCode).en = false) :
    Gives (.recRecordWrite t) s (fun u => u.rcd.queue = ms ∧ u.rcd.ring = s.rcd.ring ∧ u.regs = s.regs) := by
  refine ⟨_, exec_recRecordWrite hon hq, ?_⟩
  have hlimited : ((s.tick t).setRec fun k => { k with queue := ms }).limited m.recCode m.recPay = (s.tick t).setRec fun k => { k with queue := ms } := by
    unfold State.limited
    extract_lets x k y
    have hx : x = s.code m.recCode := rfl
    rw [if_pos (by rw [hx, hoff]; rfl)]
  dsimp only
  rw [hlimited, lostRecord_none (s := (s.tick t).setRec fun k => { k with queue := ms }) howed]
  exact ⟨rfl, rfl, rfl⟩

/-! ### Rate limits and summaries (R463, R464) -/

theorem code_setCode (s : State) {c : Nat} (hfree : mandatory c = false) (x : CodeX) : (s.setCode c x).code c = x := by
  rw [State.code, if_neg (by rw [hfree]; decide)]
  exact sget_sset_same _ _ _ _

/-- The settings of codes and classes follow the record of the recorder. -/
theorem code_congr (h : u.rcd.codes = s.rcd.codes) (c : Nat) : u.code c = s.code c := by
  unfold State.code
  rw [h]

theorem code_logged {ks : List Nat} (h : Logged ks s u) (c : Nat) : u.code c = s.code c := by
  obtain ⟨_, _, _, _, _, hrcd⟩ := h.rcd
  exact code_congr (by rw [hrcd]) c

theorem rateRefill_refills {c : BitVec 16} (hon : s.islandOn .keep = true) (hfree : mandatory c.toNat = false)
    (hrate : (s.cls (s.code c.toNat).cls).1 ≠ 0) (hspent : (s.code c.toNat).spent ≠ 0) :
    Gives (.rateRefill t c) s (fun u => (u.code c.toNat).spent = (s.code c.toNat).spent -
      ((s.tick t).up - (s.code c.toNat).refillAt) / (1000000 * (s.cls (s.code c.toNat).cls).1) ∧ u.regs = s.regs) := by
  have hlimited : ¬ mandatory c.toNat = true := by rw [hfree]; decide
  refine ⟨_, (runK_on hon t _).trans (congrArg (fun u => Host.Outcome.next (s.keepK u)) (if_neg hlimited)), ?_⟩
  have hcode : ∀ w : State, (s.keepK w).code c.toNat = w.code c.toNat := fun _ => rfl
  dsimp only
  rw [hcode, code_setCode _ hfree]
  refine ⟨congrArg CodeX.spent (if_neg (not_or.mpr ⟨hspent, hrate⟩)), rfl⟩

/-- A code of which records were suppressed is not mandatory (R458). -/
theorem mandatory_of_supp {c : Nat} (h : (s.code c).supp ≠ 0) : mandatory c = false := by
  by_contra hm
  rw [State.code, if_pos (by simpa using hm)] at h
  exact h rfl

theorem suppressionFlush_flushes {c : BitVec 16} (hon : s.islandOn .keep = true) (hsupp : (s.code c.toNat).supp ≠ 0)
    (hdue : (s.code c.toNat).firstS + s.r REC.SUPP_FLUSH_S ≤ (s.tick t).opSec) (hheld : s.held = false) :
    Gives (.suppressionFlush t c) s (fun u => (u.code c.toNat).supp = 0 ∧ u.r REC.HEAD_SEQ = (s.r REC.HEAD_SEQ + 1) % 2 ^ 32) := by
  refine ⟨_, (runK_on hon t _).trans (congrArg (fun u => Host.Outcome.next (s.keepK u)) (if_pos hdue)), ?_⟩
  have hcode : ∀ w : State, (s.keepK w).code c.toNat = w.code c.toNat := fun _ => rfl
  have hfree := mandatory_of_supp hsupp
  unfold State.summarise
  extract_lets x
  rw [if_neg (show ¬ x.supp = 0 from hsupp)]
  dsimp only
  have hput := fun y pay => writeRec_put (s := (s.tick t).setCode c.toNat y) (code := 0xF00) (pay := pay) (.inl hheld)
  rw [hput, hcode, r_keepK, putRec_head, code_logged (logged_putRec _ _ _), code_setCode _ hfree]
  exact ⟨rfl, rfl⟩

/-! ### Settings (R458, R463, R464) -/

theorem configChanged_code (s : State) (what old new : Nat) (r : Requester) (c : Nat) : (s.configChanged what old new r).code c = s.code c :=
  code_logged (logged_writeRec s _ _) c

theorem clampCount_rcd (s : State) (off lsb : Nat) (b : Bool) : (s.when b fun s => s.clampCount ⟨10, 0⟩ off lsb).rcd = s.rcd := by
  cases b
  · rfl
  · rfl

theorem getLsbD_zero (v : Word) : v.getLsbD 0 = (v.toNat % 2 == 1) := by
  rw [BitVec.getLsbD, Nat.testBit_zero, beq_eq_decide]

theorem codeCfgWrite_sets {v : Word} (htakes : Takes s r ⟨10, 0⟩) (hfree : mandatory (s.r REC.CODE_SEL) = false) :
    Gives (.codeCfgWrite t r v) s (fun u => (u.code (s.r REC.CODE_SEL)).en = v.getLsbD 0 ∧ (u.code (s.r REC.CODE_SEL)).cls = v.toNat / 16 % 16) := by
  have hsel : (writeSeen s t ⟨10, 0⟩).r REC.CODE_SEL = s.r REC.CODE_SEL := r_seen_apart (by decide) t
  refine ⟨_, cmdK_seen htakes t _, ?_⟩
  have hcode : ∀ w : State, (s.keepK w).code (s.r REC.CODE_SEL) = w.code (s.r REC.CODE_SEL) := fun _ => rfl
  beta_reduce
  rw [hsel, hcode]
  extract_lets c x en cls b w y z y'
  rw [if_neg (show ¬ mandatory c = true by rw [show mandatory c = false from hfree]; decide), getLsbD_zero]
  have hcls : BitVec.toNat v / 16 % 16 = cls := rfl
  have hen : (BitVec.toNat v % 2 == 1) = en := rfl
  rw [hcls, hen]
  split
  next hsame => exact ⟨hsame.1.symm, hsame.2.symm⟩
  next =>
    rw [configChanged_code, show s.r REC.CODE_SEL = c from rfl, code_setCode _ (show mandatory c = false from hfree)]
    unfold y'
    split
    · exact ⟨rfl, rfl⟩
    · exact ⟨rfl, rfl⟩

theorem codeCfgWrite_mandatory {v : Word} (htakes : Takes s r ⟨10, 0⟩) (hm : mandatory (s.r REC.CODE_SEL) = true) :
    Gives (.codeCfgWrite t r v) s (fun u => u.rcd = s.rcd) := by
  have hsel : (writeSeen s t ⟨10, 0⟩).r REC.CODE_SEL = s.r REC.CODE_SEL := r_seen_apart (by decide) t
  refine ⟨_, cmdK_seen htakes t _, ?_⟩
  beta_reduce
  rw [hsel, keepK_rcd]
  extract_lets c x en cls b w y z y'
  rw [if_pos hm]
  exact (clampCount_rcd _ _ _ _).trans (clampCount_rcd _ _ _ _)

/-- The settings of classes follow the record of the recorder. -/
theorem cls_logged {ks : List Nat} (h : Logged ks s u) (k : Nat) : u.cls k = s.cls k := by
  obtain ⟨_, _, _, _, _, hrcd⟩ := h.rcd
  unfold State.cls
  rw [hrcd]

theorem classCfgWrite_sets {v : Word} (htakes : Takes s r ⟨10, 0⟩) :
    Gives (.classCfgWrite t r v) s (fun u => u.cls (s.r REC.CLASS_SEL) =
      (max 1 (min (v.toNat % 2 ^ 22) 3600000), max 1 (v.toNat / 2 ^ 24 % 256))) := by
  have hsel : (writeSeen s t ⟨10, 0⟩).r REC.CLASS_SEL = s.r REC.CLASS_SEL := r_seen_apart (by decide) t
  refine ⟨_, cmdK_seen htakes t _, ?_⟩
  have hcls : ∀ w : State, (s.keepK w).cls (s.r REC.CLASS_SEL) = w.cls (s.r REC.CLASS_SEL) := fun _ => rfl
  beta_reduce
  rw [hsel, hcls]
  extract_lets k old rate burst new v1 v2 now changed
  have hnew : (max 1 (min (BitVec.toNat v % 2 ^ 22) 3600000), max 1 (BitVec.toNat v / 2 ^ 24 % 256)) = new := by
    unfold new rate burst bitsAt
    rw [Nat.pow_zero, Nat.div_one]
    rfl
  have hrcd : v2.rcd = s.rcd := (clampCount_rcd _ _ _ _).trans (clampCount_rcd _ _ _ _)
  rw [hnew]
  split
  next hsame =>
    rw [hsame, State.cls, hrcd]
    rfl
  next =>
    refine (cls_logged (logged_writeRec _ _ _) _).trans ?_
    exact sget_sset_same _ _ _ _

theorem recCtrClr_clears (htakes : Takes s r ⟨10, 0⟩) :
    Gives (.recCtrClr t r) s (fun u => u.r REC.OVERWRITTEN = 0 ∧ u.r REC.LOST_UNEXPORTED = 0 ∧ u.r REC.INPUT_LOST = 0 ∧
      u.r REC.SUPP_TOTAL = 0 ∧ u.r REC.PRIV_VIOL = 0 ∧ u.r REC.REFUSED = 0 ∧ u.rcd = s.rcd) := by
  refine ⟨_, cmdK_seen htakes t _, ?_⟩
  simp only [r_keepK, keepK_rcd]
  have hlast : ∀ (w : State) (f : Fld), f.width ≤ 32 → (w.w f 0).r f = 0 := fun w f hf => r_w_val (Nat.two_pow_pos _) hf
  refine ⟨?_, ?_, ?_, ?_, ?_, ?_, ?_⟩
  · rw [r_w_apart (by decide), r_w_apart (by decide), r_w_apart (by decide), r_w_apart (by decide), r_w_apart (by decide), hlast _ _ (by decide)]
  · rw [r_w_apart (by decide), r_w_apart (by decide), r_w_apart (by decide), r_w_apart (by decide), hlast _ _ (by decide)]
  · rw [r_w_apart (by decide), r_w_apart (by decide), r_w_apart (by decide), hlast _ _ (by decide)]
  · rw [r_w_apart (by decide), r_w_apart (by decide), hlast _ _ (by decide)]
  · rw [r_w_apart (by decide), hlast _ _ (by decide)]
  · rw [hlast _ _ (by decide)]
  · simp only [w_rcd]
    rfl

/-! ### Persistence (R467) -/

theorem persistWrite_copies {x : Rec1} {xs : List Rec1} (hon : s.islandOn .keep = true) (hok : s.r REC.PERSIST_OK = 1)
    (hwaiting : s.unpersisted = x :: xs) (hmram : s.mramOk = true) :
    Gives (.persistWrite t true) s (fun u => u.r REC.PERSIST_SEQ = x.seq.toNat ∧ u.rcd.image.getLast? = some x ∧ u.rcd.ring = s.rcd.ring) := by
  have hexec : exec (.persistWrite t true) s = .next (s.keepK ((s.tick t).persist x)) := by
    refine (runK_on hon t _).trans (congrArg (fun u => Host.Outcome.next (s.keepK u)) ?_)
    have hcan : ¬ (!(true && (s.tick t).mramOk)) = true := by
      rw [show (s.tick t).mramOk = true from hmram]
      decide
    have hhas : ¬ (s.tick t).r REC.PERSIST_OK = 0 := by
      rw [r_tick, hok]
      decide
    have hfirst : (s.tick t).unpersisted = x :: xs := hwaiting
    refine (if_neg hcan).trans ((if_neg hhas).trans ?_)
    rw [hfirst]
  refine ⟨_, hexec, ?_⟩
  dsimp only
  rw [r_keepK, keepK_rcd]
  exact ⟨r_w_val (f := REC.PERSIST_SEQ) x.seq.isLt (by decide), List.getLast?_concat, rfl⟩

theorem persistWrite_lost (hon : s.islandOn .keep = true) (hok : s.r REC.PERSIST_OK = 1) :
    Gives (.persistWrite t false) s (fun u => u.r REC.PERSIST_OK = 0) := by
  refine ⟨_, (runK_on hon t _).trans (congrArg (fun u => Host.Outcome.next (s.keepK u)) (if_pos rfl)), ?_⟩
  unfold State.persistLost
  rw [if_neg (show ¬ (s.tick t).r REC.PERSIST_OK = 0 by rw [r_tick, hok]; decide)]
  extract_lets v
  dsimp only
  rw [r_keepK, r_setRaw_apart (by decide) (by decide), r_setRec, (logged_writeRec _ _ _).r REC.PERSIST_OK 0 0 (by decide), r_w_val (by decide) (by decide)]

/-- Settles O55: the recorder's log, an instruction at a time. -/
theorem recorderLog : Obligations.RecorderLog := by
  unfold Obligations.RecorderLog
  intro t r s
  refine ⟨fun m ms hon hq => recInput_takes hon hq,
    fun m ms hon hq howed => ⟨recRecordWrite_writes hon hq howed, recRecordWrite_drops hon hq howed⟩,
    fun c hon => ⟨rateRefill_refills hon, suppressionFlush_flushes hon⟩, fun htakes => ⟨fun v => ?_, recCtrClr_clears htakes⟩,
    fun hon hok => ⟨fun x xs hwaiting hmram => persistWrite_copies hon hok hwaiting hmram, persistWrite_lost hon hok⟩⟩
  exact ⟨codeCfgWrite_sets htakes, codeCfgWrite_mandatory htakes, classCfgWrite_sets htakes⟩

end Sys2Proof.RecorderLogLaws
end

section
/-! Reading the recorder: freeze, window, exports and clear (R468 to R472, R475). -/

namespace Sys2Proof.RecorderReadingLaws

open Sys2Proof Sys2Proof.Machine Sys2Proof.Laws Sys2Proof.LogicPageLaws Sys2Proof.PageFieldLaws Sys2Proof.RecordWriteLaws

variable {s u : State} {t : Nat} {r : Requester}

/-! ### What a record keeps -/

theorem frozenBy_logged {ks : List Nat} (h : Logged ks s u) : u.rcd.frozenBy = s.rcd.frozenBy := by
  obtain ⟨_, _, _, _, _, hrcd⟩ := h.rcd
  rw [hrcd]

theorem exporting_logged {ks : List Nat} (h : Logged ks s u) : u.rcd.exporting = s.rcd.exporting := by
  obtain ⟨_, _, _, _, _, hrcd⟩ := h.rcd
  rw [hrcd]

theorem clearing_logged {ks : List Nat} (h : Logged ks s u) : u.rcd.clearing = s.rcd.clearing := by
  obtain ⟨_, _, _, _, _, hrcd⟩ := h.rcd
  rw [hrcd]

/-- An event changes the messages on their way alone. -/
theorem rcd_raise_keeps {α : Type} (f : RecX → α) (hf : ∀ a q, f { a with inQ := q } = f a) (s : State) (c n b : Nat) (p q : List Nat) :
    f (s.raise c n b p q).rcd = f s.rcd := by
  obtain ⟨inQ, hq⟩ := rcd_raise s c n b p q
  rw [hq, hf]

theorem general_writeRec (s : State) (code : Nat) (pay : List Nat) : (s.writeRec code pay).general = s.general := by
  obtain ⟨_, _, _, _, hrec⟩ := LaneCareLaws.recorded_writeRec s code pay
  rw [hrec]

/-! ### Freeze and release (R468) -/

theorem recFreeze_freezes (htakes : Takes s r ⟨10, 0⟩) (hfree : s.on REC.FROZEN = false) (hroom : (s.rcd.holding.map Rec1.len).sum ≤ 262000) :
    Gives (.recFreeze t r) s (fun u => u.r REC.FROZEN = 1 ∧ u.r REC.FRZ_FIRST = s.r REC.OLDEST_SEQ ∧ u.rcd.ring = s.rcd.ring ∧
      u.rcd.frozenBy = ownerCode r) := by
  have hfree' : ¬ (writeSeen s t ⟨10, 0⟩).on REC.FROZEN = true := by
    rw [on_congr (r_seen_apart (by decide) t), hfree]
    decide
  refine ⟨_, (cmdK_seen htakes t _).trans (congrArg (fun u => Host.Outcome.next (s.keepK u)) (if_neg hfree')), ?_⟩
  beta_reduce
  extract_lets last v f
  have hfroz : f.r REC.FROZEN = 1 := by
    rw [r_setRec, r_w_apart (by decide), r_w_apart (by decide)]
    exact r_w_val (f := REC.FROZEN) (by decide) (by decide)
  have hfirst : f.r REC.FRZ_FIRST = s.r REC.OLDEST_SEQ := by
    rw [r_setRec, r_w_apart (by decide), r_w_cut _ _ _ _ _ (by decide), r_seen_apart (by decide)]
    exact Nat.mod_eq_of_lt (r_lt _ _ _ _)
  have hheld : f.held = true := by
    rw [State.held, State.on, hfroz]
    rfl
  have hring : f.rcd.ring = s.rcd.ring := rfl
  have hby : f.rcd.frozenBy = ownerCode r := rfl
  have hput : f.writeRec 0xF01 (leBytes 4 (f.r REC.FRZ_FIRST) ++ leBytes 4 last ++ [ownerCode r]) =
      f.putRec 0xF01 (leBytes 4 (f.r REC.FRZ_FIRST) ++ leBytes 4 last ++ [ownerCode r]) := by
    refine writeRec_put (.inr ?_)
    have hsum : (f.rcd.holding.map Rec1.len).sum ≤ 262000 := hroom
    have hlen : (leBytes 4 (f.r REC.FRZ_FIRST) ++ leBytes 4 last ++ [ownerCode r]).length = 9 := rfl
    rw [hlen]
    omega
  clear_value f
  rw [hput, r_keepK, r_keepK, keepK_rcd, r_raise_apart (by decide), r_raise_apart (by decide), rcd_raise_keeps RecX.ring fun _ _ => rfl,
    rcd_raise_keeps RecX.frozenBy fun _ _ => rfl, (logged_putRec f _ _).r _ _ _ (by decide), (logged_putRec f _ _).r _ _ _ (by decide),
    frozenBy_logged (logged_putRec f _ _), (putRec_joins f _ _).2 hheld]
  exact ⟨hfroz, hfirst, hring, hby⟩

theorem recFreeze_refused (htakes : Takes s r ⟨10, 0⟩) (hfroz : s.on REC.FROZEN = true) :
    Gives (.recFreeze t r) s (fun u => u.rcd = s.rcd ∧ u.r REC.REFUSED = min (s.r REC.REFUSED + 1) (2 ^ 16 - 1)) := by
  have hfroz' : (writeSeen s t ⟨10, 0⟩).on REC.FROZEN = true := by rw [on_congr (r_seen_apart (by decide) t), hfroz]
  refine ⟨_, (cmdK_seen htakes t _).trans (congrArg (fun u => Host.Outcome.next (s.keepK u)) (if_pos hfroz')), rfl, ?_⟩
  rw [r_keepK, r_inc_same _ _ _ _ _ (by decide), r_seen_apart (by decide)]
  rfl

theorem recRelease_thaws (htakes : Takes s r ⟨10, 0⟩) (hfroz : s.on REC.FROZEN = true) : Gives (.recRelease t r) s (fun u => u.r REC.FROZEN = 0) := by
  have hfroz' : (writeSeen s t ⟨10, 0⟩).on REC.FROZEN = true := by rw [on_congr (r_seen_apart (by decide) t), hfroz]
  exact ⟨_, (cmdK_seen htakes t _).trans (congrArg (fun u => Host.Outcome.next (s.keepK u)) (if_pos hfroz')), (logged_thaw _ _).2⟩

theorem freezeMaxExpiry_thaws (hon : s.islandOn .keep = true) (hfroz : s.on REC.FROZEN = true)
    (hdue : s.rcd.frozenAt + 1000000000 * s.r REC.FREEZE_MAX_S ≤ (s.tick t).up) : Gives (.freezeMaxExpiry t) s (fun u => u.r REC.FROZEN = 0) :=
  ⟨_, (runK_on hon t _).trans (congrArg (fun u => Host.Outcome.next (s.keepK u)) (if_pos ⟨hfroz, hdue⟩)), (logged_thaw _ _).2⟩

/-! ### The window (R469) -/

theorem window_shows (s : State) {n : Nat} (hn : n < 2 ^ 32) : (s.window n).r REC.WIN_SEQ = n ∧
    (s.window n).rcd.win = s.rcd.ring.find? (fun y => y.seq.toNat == n) ∧ (s.window n).r REC.WIN_FOUND = (s.window n).rcd.win.isSome.toNat := by
  unfold State.window
  extract_lets x v
  refine ⟨?_, rfl, ?_⟩
  · rw [r_w_apart (by decide), r_wb_apart (by decide), r_wb_apart (by decide)]
    exact r_w_val (f := REC.WIN_SEQ) hn (by decide)
  · rw [r_w_apart (by decide), r_wb_apart (by decide)]
    exact r_w_val (f := REC.WIN_FOUND) (Bool.toNat_lt _) (by decide)

theorem winSeqWrite_shows (htakes : Takes s r ⟨10, 0⟩) (v : Word) : Gives (.winSeqWrite t r v) s (fun u => u.r REC.WIN_SEQ = v.toNat ∧
    u.rcd.win = s.rcd.ring.find? (fun y => y.seq.toNat == v.toNat) ∧ u.r REC.WIN_FOUND = u.rcd.win.isSome.toNat) := by
  refine ⟨_, cmdK_seen htakes t _, ?_⟩
  beta_reduce
  rw [r_keepK, r_keepK, keepK_rcd]
  exact window_shows (writeSeen s t ⟨10, 0⟩) v.isLt

theorem winNext_shows (htakes : Takes s r ⟨10, 0⟩) : Gives (.winNext t r) s (fun u => u.r REC.WIN_SEQ = (s.r REC.WIN_SEQ + 1) % 2 ^ 32 ∧
    u.rcd.win = s.rcd.ring.find? (fun y => y.seq.toNat == (s.r REC.WIN_SEQ + 1) % 2 ^ 32)) := by
  refine ⟨_, cmdK_seen htakes t _, ?_⟩
  beta_reduce
  rw [r_seen_apart (by decide)]
  obtain ⟨hseq, hwin, -⟩ := window_shows (writeSeen s t ⟨10, 0⟩) (Nat.mod_lt (s.r REC.WIN_SEQ + 1) (Nat.two_pow_pos 32))
  rw [r_keepK, keepK_rcd]
  exact ⟨hseq, hwin⟩

theorem winDataRead_reads {x : Rec1} (hreach : s.reaches r ⟨10, 0⟩ = true) (hreader : s.isReader r = true) (hwin : s.rcd.win = some x) (idx : Fin 129) :
    Gives (.winDataRead t r idx) s (fun u => u.regs = s.regs ∧
      sget 0 u.resp (ownerCode r) = BitVec.ofNat 32 (leVal ((x.bytes.drop (4 * idx)).take 4))) := by
  refine ⟨_, (TimeServiceLaws.cmdK_read (by decide) hreach t _).trans
    (congrArg (fun u => Host.Outcome.next (s.keepK u)) (if_pos (show (s.tick t).isReader r = true from hreader))), rfl, ?_⟩
  refine (sget_sset_same _ _ _ _).trans ?_
  rw [tick_rcd, hwin]
  rfl

theorem winDataRead_refused (hreach : s.reaches r ⟨10, 0⟩ = true) (hreader : s.isReader r = false) (idx : Fin 129) :
    Gives (.winDataRead t r idx) s (fun u => sget 0 u.resp (ownerCode r) = 0 ∧ u.r REC.PRIV_VIOL = min (s.r REC.PRIV_VIOL + 1) (2 ^ 16 - 1)) := by
  have hreader' : ¬ (s.tick t).isReader r = true := by
    rw [show (s.tick t).isReader r = s.isReader r from rfl, hreader]
    decide
  refine ⟨_, (TimeServiceLaws.cmdK_read (by decide) hreach t _).trans (congrArg (fun u => Host.Outcome.next (s.keepK u)) (if_neg hreader')), ?_, ?_⟩
  · exact sget_sset_same (0 : Word) s.resp (ownerCode r) (BitVec.ofNat 32 0)
  · exact r_inc_same _ _ _ _ _ (by decide)

/-! ### Exports (R470, R475) -/

theorem exportStart_starts (htakes : Takes s r ⟨10, 0⟩) (hidle : s.rcd.exporting = none) : Gives (.exportStart t r) s (fun u =>
    u.r REC.EXP_STATE = 1 ∧ u.r REC.HOLDING = 1 ∧
    u.rcd.exporting = some (s.r REC.EXP_FROM, (s.r REC.HEAD_SEQ + 2 ^ 32 - 1) % 2 ^ 32, (s.tick t).opSec)) := by
  have hidle' : ¬ (writeSeen s t ⟨10, 0⟩).rcd.exporting.isSome = true := by
    rw [show (writeSeen s t ⟨10, 0⟩).rcd = s.rcd from rfl, hidle]
    decide
  refine ⟨_, (cmdK_seen htakes t _).trans (congrArg (fun u => Host.Outcome.next (s.keepK u)) (if_neg hidle')), ?_, ?_, ?_⟩
  · rw [r_keepK, r_w_apart (by decide)]
    exact r_w_val (f := REC.EXP_STATE) (v := 1) (by decide) (by decide)
  · exact r_w_val (f := REC.HOLDING) (v := 1) (by decide) (by decide)
  · rw [keepK_rcd, w_rcd, w_rcd]
    refine congrArg some ?_
    rw [r_seen_apart (by decide), r_seen_apart (by decide)]
    rfl

/-- What a completed exporting leaves (R470, R475). -/
theorem endExport_ends (s : State) {st : Nat} (hst : st < 4) : (s.endExport st).rcd.exporting = none ∧ (s.endExport st).r REC.EXP_STATE = st ∧
    (s.endExport st).r REC.HOLDING = 0 ∧ (s.endExport st).general = s.general := by
  unfold State.endExport
  extract_lets v
  have hlog : Logged fillKeys v (if v.on REC.FROZEN then v else v.unhold) := (Logged.refl v).ite (Logged.refl v).unhold
  have hrec : LaneCareLaws.Recorded v (if v.on REC.FROZEN then v else v.unhold) := (LaneCareLaws.Recorded.refl v).ite (LaneCareLaws.Recorded.refl v).unhold
  refine ⟨(exporting_logged hlog).trans rfl, ?_, ?_, ?_⟩
  · rw [hlog.r _ _ _ (by decide), r_w_apart (by decide)]
    exact r_w_val (f := REC.EXP_STATE) hst (by decide)
  · rw [hlog.r _ _ _ (by decide)]
    exact r_w_val (f := REC.HOLDING) (by decide) (by decide)
  · obtain ⟨_, _, _, _, hrec⟩ := hrec
    rw [hrec]
    rfl

theorem exportAbort_aborts (htakes : Takes s r ⟨10, 0⟩) (hrun : s.rcd.exporting.isSome = true) : Gives (.exportAbort t r) s (fun u =>
    u.r REC.EXP_STATE = 3 ∧ u.r REC.HOLDING = 0 ∧ u.rcd.exporting = none) := by
  obtain ⟨hexp, hst, hhold, -⟩ := endExport_ends (writeSeen s t ⟨10, 0⟩) (show 3 < 4 by decide)
  exact ⟨_, (cmdK_seen htakes t _).trans (congrArg (fun u => Host.Outcome.next (s.keepK u)) (if_pos hrun)), hst, hhold, hexp⟩

/-- The end of a freeze leaves HOLDING. -/
theorem holding_thaw (s : State) (cause : Nat) : (s.thaw cause).r REC.HOLDING = s.r REC.HOLDING := by
  unfold State.thaw
  extract_lets n v x
  have hx : Logged fillKeys v x := (Logged.refl v).ite (Logged.refl v).unhold
  rw [r_raise_apart (by decide), (logged_putRec x _ _).r _ _ _ (by decide), hx.r _ _ _ (by decide), r_w_apart (by decide)]

/-- A hold that has ended stays ended when a record is written. -/
theorem holding_writeRec (h : s.r REC.HOLDING = 0) (code : Nat) (pay : List Nat) : (s.writeRec code pay).r REC.HOLDING = 0 := by
  unfold State.writeRec
  extract_lets full v w
  have hv : v.r REC.HOLDING = 0 := r_w_val (f := REC.HOLDING) (by decide) (by decide)
  have hthaw : (v.thaw 2).r REC.HOLDING = 0 := by
    rw [holding_thaw, hv]
  have hunhold : v.unhold.r REC.HOLDING = 0 := by rw [(Logged.refl v).unhold.r _ _ _ (by decide), hv]
  have hw : w.r REC.HOLDING = 0 := by
    unfold w
    split
    · split
      · exact hthaw
      · exact hunhold
    · exact h
  rw [(logged_putRec w code pay).r _ _ _ (by decide), hw]

/-- A new batch of indices leaves the general SRAM and EXP_DST (R506). -/
theorem reserveBatch_keeps (s : State) : s.reserveBatch.general = s.general ∧ s.reserveBatch.r REC.EXP_DST = s.r REC.EXP_DST := by
  unfold State.reserveBatch
  split
  · exact ⟨rfl, rfl⟩
  · extract_lets e
    unfold State.burnFloor
    split
    · exact ⟨rfl, rfl⟩
    · rw [general_writeRec, (logged_writeRec _ _ _).r _ _ _ (by decide), r_w_ne _ _ _ _ _ _ _ _ (by decide)]
      exact ⟨rfl, rfl⟩

/-- The fields beside those that the next index moves. -/
theorem r_setIdx (s : State) (n : Nat) {g : Fld}
    (hg : g.key 0 0 ∉ [SEC.IDX_LO.key 0 0, SEC.IDX_HI.key 0 0, pendKey 2 0 1, rawKey 2 0 1]) : (s.setIdx n).r g = s.r g := by
  simp only [List.mem_cons, List.not_mem_nil, or_false, not_or] at hg
  obtain ⟨hlo, hhi, hpend, hraw⟩ := hg
  exact (r_setRaw _ _ _ _ _ _ _ _ _ _ hpend hraw).trans ((r_w_ne _ _ _ _ _ _ _ _ hhi).trans (r_w_ne _ _ _ _ _ _ _ _ hlo))

theorem general_setIdx (s : State) (n : Nat) : (s.setIdx n).general = s.general := setRaw_general _ _ _ _ _ _ _

/-- An index that is taken leaves the general SRAM and EXP_DST. -/
theorem takeIndex_keeps (s : State) : s.takeIndex.general = s.general ∧ s.takeIndex.r REC.EXP_DST = s.r REC.EXP_DST := by
  obtain ⟨hgen, hdst⟩ := reserveBatch_keeps s
  unfold State.takeIndex
  extract_lets v w
  exact ⟨(general_setIdx _ _).trans hgen, (r_setIdx _ _ (by decide)).trans ((r_w_ne _ _ _ _ _ _ _ _ (by decide)).trans hdst)⟩

/-- Bytes below the place to which bytes are written stand. -/
theorem putGen_below (s : State) {a b : Nat} (h : b < a) (bs : List Nat) : sget 0 (s.putGen a bs).general b = sget 0 s.general b :=
  LogicChangeLaws.sget_ssets_below 0 _ _ h

theorem exportDone_ends {a z o : Nat} (hon : s.islandOn .keep = true) (hrun : s.rcd.exporting = some (a, z, o)) :
    Gives (.exportDone t) s (fun u => u.rcd.exporting = none ∧ u.r REC.EXP_STATE = 2 ∧ u.r REC.HOLDING = 0 ∧
      ∀ b, b < s.r REC.EXP_DST → sget 0 u.general b = sget 0 s.general b) := by
  refine ⟨_, rfl, ?_⟩
  beta_reduce
  rw [inside_on (s := s.tick t) hon, tick_rcd, hrun]
  dsimp -zeta only
  extract_lets xs sl h out i v out'
  have hv : v.general = s.general ∧ v.r REC.EXP_DST = s.r REC.EXP_DST := by
    unfold v
    split
    · exact takeIndex_keeps _
    · exact ⟨rfl, rfl⟩
  obtain ⟨hgen, hdst⟩ := hv
  clear_value v out'
  obtain ⟨hexp, hst, hhold, hends⟩ := endExport_ends (v.putGen (v.r REC.EXP_DST) out') (show 2 < 4 by decide)
  rw [keep_rcd, r_keep, r_keep]
  refine ⟨(exporting_logged (logged_writeRec _ _ _)).trans hexp, ((logged_writeRec _ _ _).r REC.EXP_STATE 0 0 (by decide)).trans hst,
    holding_writeRec hhold _ _, fun b hb => ?_⟩
  rw [keep_general, general_writeRec, hends, hdst, putGen_below _ hb, hgen]

/-! ### Clear (R471, R472) -/

/-- A write that its page takes, of a command that may write any byte memory but the fuses. -/
theorem cmdM_seen {pg : Page} (h : Takes s r pg) (t : Nat) (f : State → State) :
    s.cmdM t (fun s => s.pageWrite r pg true f) = .next (s.keepM (f (writeSeen s t pg))) := by
  simp only [State.cmdM, State.answerM, pageWrite_takes (takes_tick t h), writeSeen]

/-- The verification of a token follows the fuses and the fields of SEC. -/
theorem vfyCause_congr (hfuses : u.fuses = s.fuses) (hsvn : u.r SEC.MIN_SVN = s.r SEC.MIN_SVN) (kind : Nat) (obj b : List Nat) (fits : Bool)
    (slotOk : Nat → Bool) (key : Nat → List Nat) : u.vfyCause kind obj b fits slotOk key = s.vfyCause kind obj b fits slotOk key := by
  have hid : u.deviceId = s.deviceId := by rw [State.deviceId, State.fuse, hfuses]; rfl
  simp only [State.vfyCause, hid, hsvn]

theorem inForce_congr (hvalid : u.r SEC.ANCHOR_VALID = s.r SEC.ANCHOR_VALID) (hrevoked : u.r SEC.ANCHOR_REVOKED = s.r SEC.ANCHOR_REVOKED) :
    u.inForce = s.inForce := by
  funext k
  rw [State.inForce, hvalid, hrevoked]
  rfl

theorem ownerOr_congr (hvalid : u.r SEC.ANCHOR_VALID = s.r SEC.ANCHOR_VALID) (hrevoked : u.r SEC.ANCHOR_REVOKED = s.r SEC.ANCHOR_REVOKED)
    (hpolicy : u.r SEC.POLICY = s.r SEC.POLICY) (bit : Nat) : u.ownerOr bit = s.ownerOr bit := by
  funext k
  rw [State.ownerOr, inForce_congr hvalid hrevoked, State.policy, hpolicy]
  rfl

/-- The cause that a clear is refused with is the same as the write is counted. -/
theorem clearCause_seen (s : State) (t : Nat) (tok b : List Nat) (vfy : Nat) : (writeSeen s t ⟨10, 0⟩).clearCause tok b vfy = s.clearCause tok b vfy := by
  have hr : ∀ g : Fld, g.key 0 0 ≠ (hdr HDR.COUNT ⟨10, 0⟩).key 0 0 → (writeSeen s t ⟨10, 0⟩).r g = s.r g := fun g hg => r_seen_apart hg t
  unfold State.clearCause State.on
  rw [hr REC.FROZEN (by decide), hr REC.CLR_NONCE_LO (by decide), hr REC.CLR_NONCE_HI (by decide), hr REC.HEAD_SEQ (by decide), hr REC.OLDEST_SEQ (by decide)]
  rfl

/-- The registers that the result of a verification changes. -/
def verifyKeys : List Nat := [SEC.VFY_CAUSE.key 0 0, SEC.REJECTED.key 0 0, pendKey 2 0 0] ++ recordKeys

theorem logged_vfyDone (s : State) (kind slot cause : Nat) : Logged verifyKeys s (s.vfyDone kind slot cause) := by
  unfold State.vfyDone
  extract_lets v pay
  have hv : Logged verifyKeys s v := (Logged.refl s).w _ (by decide)
  exact hv.ite (((hv.w _ (by decide)).raise (by decide) _ _).trans ((logged_writeRec _ _ _).mono (by decide)))

theorem recorded_vfyDone (s : State) (kind slot cause : Nat) : LaneCareLaws.Recorded s (s.vfyDone kind slot cause) := by
  unfold State.vfyDone
  extract_lets v pay
  have hv : LaneCareLaws.Recorded s v := (LaneCareLaws.Recorded.refl s).w _ _ _ _
  exact hv.ite (((hv.w _ _ _ _).raise _ _ _ _ _).trans (LaneCareLaws.recorded_writeRec _ _ _))

theorem general_recorded (h : LaneCareLaws.Recorded s u) : u.general = s.general := by
  obtain ⟨_, _, _, _, rfl⟩ := h
  rfl

/-- Persisting every record leaves CLR_CAUSE and the general SRAM (R467). -/
theorem persistAll_keeps (s : State) : s.persistAll.r REC.CLR_CAUSE = s.r REC.CLR_CAUSE ∧ s.persistAll.general = s.general := by
  refine List.foldlRecOn (motive := fun v : State => v.r REC.CLR_CAUSE = s.r REC.CLR_CAUSE ∧ v.general = s.general) _ _ ⟨rfl, rfl⟩ fun v hv x _ => ?_
  obtain ⟨hclr, hgen⟩ := hv
  exact ⟨(r_w_apart (by decide) _).trans hclr, hgen⟩

/-- What the start of the marking changes (R472). -/
theorem beginClear_marks (s : State) (r : Requester) (tok b : List Nat) : (s.beginClear r tok b).rcd.clearing = some (blk tok 0x18 4) ∧
    (s.beginClear r tok b).r REC.CLR_CAUSE = s.r REC.CLR_CAUSE ∧ (s.beginClear r tok b).general = s.general := by
  unfold State.beginClear
  extract_lets upto gone f l pay v
  obtain ⟨hclr, hgen⟩ := persistAll_keeps (s.writeRec 0xF03 pay)
  clear_value pay
  rw [r_setRec, setRec_general]
  exact ⟨rfl, hclr.trans ((logged_writeRec _ _ _).r _ _ _ (by decide)), hgen.trans (general_writeRec _ _ _)⟩

/-- What a refused clear leaves (R471). -/
theorem refusedClear_keeps (s : State) (pay p q : List Nat) : ((s.writeRec 0xF04 pay).raise 10 0 2 p q).rcd.clearing = s.rcd.clearing ∧
    ((s.writeRec 0xF04 pay).raise 10 0 2 p q).r REC.CLR_CAUSE = s.r REC.CLR_CAUSE ∧
    ((s.writeRec 0xF04 pay).raise 10 0 2 p q).general = s.general := by
  refine ⟨?_, ?_, ?_⟩
  · rw [rcd_raise_keeps RecX.clearing fun _ _ => rfl, clearing_logged (logged_writeRec _ _ _)]
  · rw [r_raise_apart (by decide), (logged_writeRec _ _ _).r _ _ _ (by decide)]
  · rw [raise_general, general_writeRec]

/-- A new nonce leaves the marking, CLR_CAUSE and the general SRAM (R471). -/
theorem drawClrNonce_keeps (s : State) : s.drawClrNonce.rcd = s.rcd ∧ s.drawClrNonce.r REC.CLR_CAUSE = s.r REC.CLR_CAUSE ∧
    s.drawClrNonce.general = s.general := by
  unfold State.drawClrNonce
  exact ⟨rfl, (r_w_apart (by decide) _).trans (r_w_apart (by decide) _), rfl⟩

theorem clearCause_lt (s : State) (tok b : List Nat) (vfy : Nat) : s.clearCause tok b vfy < 8 := by
  unfold State.clearCause
  extract_lets upto last
  split_ifs <;> decide

/-- What a CLEAR with the token `tok`, its block `b`, the result `vfy` of its verification and the cause `c` does (R471). -/
def clearEffect (s : State) (r : Requester) (tok b : List Nat) (vfy c : Nat) : State :=
  let v := s.w REC.CLR_CAUSE c
  let x := if c = 4 then v.vfyDone 4 (blk b 7 1) vfy else v
  State.drawClrNonce (if c = 0 then x.beginClear r tok b
    else (x.writeRec 0xF04 [c, ownerCode r]).raise 10 0 2 (leBytes 4 (x.r REC.HEAD_SEQ) ++ leBytes 4 c))

theorem clearEffect_answers (s : State) (r : Requester) (tok b : List Nat) (vfy : Nat) {c : Nat} (hc : c < 8) :
    (clearEffect s r tok b vfy c).r REC.CLR_CAUSE = c ∧ (c = 0 → (clearEffect s r tok b vfy c).rcd.clearing = some (blk tok 0x18 4)) ∧
    (c ≠ 0 → (clearEffect s r tok b vfy c).rcd.clearing = s.rcd.clearing) ∧ (clearEffect s r tok b vfy c).general = s.general := by
  unfold clearEffect
  extract_lets v x
  have hx : Logged verifyKeys v x := (logged_vfyDone _ _ _ _).ite (.refl v)
  have hxr : LaneCareLaws.Recorded v x := (recorded_vfyDone _ _ _ _).ite (.refl v)
  have hclr : x.r REC.CLR_CAUSE = c := (hx.r _ _ _ (by decide)).trans (r_w_val (f := REC.CLR_CAUSE) hc (by decide))
  have hgen : x.general = s.general := general_recorded hxr
  have hmark : x.rcd.clearing = s.rcd.clearing := (clearing_logged hx).trans (congrArg RecX.clearing (w_rcd _ _ _ _ _))
  clear_value x
  rw [(drawClrNonce_keeps _).1, (drawClrNonce_keeps _).2.1, (drawClrNonce_keeps _).2.2]
  split
  next hzero =>
    obtain ⟨hset, hcause, hmem⟩ := beginClear_marks x r tok b
    exact ⟨hcause.trans hclr, fun _ => hset, fun hne => absurd hzero hne, hmem.trans hgen⟩
  next hne =>
    obtain ⟨hset, hcause, hmem⟩ := refusedClear_keeps x [c, ownerCode r] (leBytes 4 (x.r REC.HEAD_SEQ) ++ leBytes 4 c) []
    exact ⟨hcause.trans hclr, fun hzero => absurd hzero hne, fun _ => hset.trans hmark, hmem.trans hgen⟩

/-- The token that CLR_TOKEN points to is verified. -/
def clearVfy (s : State) : Nat :=
  s.vfyCause 4 (s.gen (s.r REC.CLR_TOKEN) 128) (s.tokenBlock (s.r REC.CLR_TOKEN))
    (tokenFits (s.r REC.CLR_TOKEN) (s.tokenBlock (s.r REC.CLR_TOKEN))) (s.ownerOr 2) s.anchorKey

theorem exec_clearStart (htakes : Takes s r ⟨10, 0⟩) : exec (.clearStart t r) s = .next (s.keepM (clearEffect (writeSeen s t ⟨10, 0⟩) r
    (s.gen (s.r REC.CLR_TOKEN) 128) (s.tokenBlock (s.r REC.CLR_TOKEN)) (clearVfy s)
    (s.clearCause (s.gen (s.r REC.CLR_TOKEN) 128) (s.tokenBlock (s.r REC.CLR_TOKEN)) (clearVfy s)))) := by
  have hr : ∀ g : Fld, g.key 0 0 ≠ (hdr HDR.COUNT ⟨10, 0⟩).key 0 0 → (writeSeen s t ⟨10, 0⟩).r g = s.r g := fun g hg => r_seen_apart hg t
  have hgen : (writeSeen s t ⟨10, 0⟩).gen = s.gen := rfl
  have hblock : (writeSeen s t ⟨10, 0⟩).tokenBlock = s.tokenBlock := rfl
  have hkey : (writeSeen s t ⟨10, 0⟩).anchorKey = s.anchorKey := rfl
  have hvfy : clearVfy (writeSeen s t ⟨10, 0⟩) = clearVfy s := by
    unfold clearVfy
    rw [vfyCause_congr (s := s) (u := writeSeen s t ⟨10, 0⟩) rfl (hr SEC.MIN_SVN (by decide)), hr REC.CLR_TOKEN (by decide), hgen, hblock, hkey,
      ownerOr_congr (s := s) (u := writeSeen s t ⟨10, 0⟩) (hr SEC.ANCHOR_VALID (by decide)) (hr SEC.ANCHOR_REVOKED (by decide)) (hr SEC.POLICY (by decide))]
  have hexec : exec (.clearStart t r) s = .next (s.keepM (clearEffect (writeSeen s t ⟨10, 0⟩) r
      ((writeSeen s t ⟨10, 0⟩).gen ((writeSeen s t ⟨10, 0⟩).r REC.CLR_TOKEN) 128) ((writeSeen s t ⟨10, 0⟩).tokenBlock ((writeSeen s t ⟨10, 0⟩).r REC.CLR_TOKEN))
      (clearVfy (writeSeen s t ⟨10, 0⟩)) ((writeSeen s t ⟨10, 0⟩).clearCause ((writeSeen s t ⟨10, 0⟩).gen ((writeSeen s t ⟨10, 0⟩).r REC.CLR_TOKEN) 128)
        ((writeSeen s t ⟨10, 0⟩).tokenBlock ((writeSeen s t ⟨10, 0⟩).r REC.CLR_TOKEN)) (clearVfy (writeSeen s t ⟨10, 0⟩))))) := cmdM_seen htakes t _
  rw [hexec, hr REC.CLR_TOKEN (by decide), hgen, hblock, hvfy, clearCause_seen]

theorem clearStart_answers (htakes : Takes s r ⟨10, 0⟩) :
    Gives (.clearStart t r) s (fun u =>
      u.r REC.CLR_CAUSE = s.clearCause (s.gen (s.r REC.CLR_TOKEN) 128) (s.tokenBlock (s.r REC.CLR_TOKEN)) (clearVfy s) ∧
      (s.clearCause (s.gen (s.r REC.CLR_TOKEN) 128) (s.tokenBlock (s.r REC.CLR_TOKEN)) (clearVfy s) = 0 →
        u.rcd.clearing = some (blk (s.gen (s.r REC.CLR_TOKEN) 128) 0x18 4)) ∧
      (s.clearCause (s.gen (s.r REC.CLR_TOKEN) 128) (s.tokenBlock (s.r REC.CLR_TOKEN)) (clearVfy s) ≠ 0 → u.rcd.clearing = s.rcd.clearing) ∧
      u.general = s.general) := by
  refine ⟨_, exec_clearStart htakes, ?_⟩
  beta_reduce
  rw [r_keepM, keepM_rcd, keepM_general]
  exact clearEffect_answers (writeSeen s t ⟨10, 0⟩) r _ _ _ (clearCause_lt _ _ _ _)

theorem clearMarkDone_marks {upto : Nat} (hon : s.islandOn .keep = true) (hclr : s.rcd.clearing = some upto) :
    Gives (.clearMarkDone t) s (fun u => u.rcd.clearing = none ∧ u.rcd.ring = s.rcd.ring.filter (fun x => !clearable s.rcd.ring upto x)) := by
  have hclr' : (s.tick t).rcd.clearing.isSome = true := by rw [tick_rcd, hclr]; rfl
  refine ⟨_, (runK_on hon t _).trans (congrArg (fun u => Host.Outcome.next (s.keepK u)) (if_pos hclr')), ?_⟩
  dsimp only
  rw [keepK_rcd, rcd_raise_keeps RecX.clearing (fun _ _ => rfl), rcd_raise_keeps RecX.ring (fun _ _ => rfl), State.markCleared, tick_rcd, hclr]
  dsimp only
  rw [ringFill_ring, clearing_logged (Logged.refl _).ringFill]
  exact ⟨rfl, rfl⟩

/-- Settles O56: reading the recorder, an instruction at a time. -/
theorem recorderReading : Obligations.RecorderReading := by
  unfold Obligations.RecorderReading
  intro t r s
  refine ⟨fun htakes => ?_, freezeMaxExpiry_thaws,
    fun idx hreach => ⟨fun x hreader hwin => winDataRead_reads hreach hreader hwin idx, fun hreader => winDataRead_refused hreach hreader idx⟩,
    fun a z o hon hrun => exportDone_ends hon hrun, fun upto hon hclr => clearMarkDone_marks hon hclr⟩
  exact ⟨recFreeze_freezes htakes, fun hfroz => ⟨recFreeze_refused htakes hfroz, recRelease_thaws htakes hfroz⟩, winSeqWrite_shows htakes,
    winNext_shows htakes, exportStart_starts htakes, exportAbort_aborts htakes, clearStart_answers htakes⟩

end Sys2Proof.RecorderReadingLaws
end

section
/-! Security: attestation, tokens, the debug port and installs (R506 to R519). -/

namespace Sys2Proof.SecurityLaws

open Sys2Proof Sys2Proof.Machine Sys2Proof.Laws Sys2Proof.LogicPageLaws Sys2Proof.PageFieldLaws Sys2Proof.RecordWriteLaws
open Sys2Proof.RecorderReadingLaws

variable {s u : State} {t : Nat} {r : Requester}

/-! ### What a record keeps of the block -/

theorem sec_recorded (h : LaneCareLaws.Recorded s u) : u.sec = s.sec := by
  obtain ⟨_, _, _, _, rfl⟩ := h
  rfl

theorem sec_writeRec (s : State) (code : Nat) (pay : List Nat) : (s.writeRec code pay).sec = s.sec := sec_recorded (LaneCareLaws.recorded_writeRec _ _ _)

theorem ho_writeRec (s : State) (code : Nat) (pay : List Nat) : (s.writeRec code pay).ho = s.ho := by
  obtain ⟨_, _, _, _, hrec⟩ := LaneCareLaws.recorded_writeRec s code pay
  rw [hrec]

theorem r_writeRec (s : State) (code : Nat) (pay : List Nat) {g : Fld} (hg : g.key 0 0 ∉ recordKeys) : (s.writeRec code pay).r g = s.r g :=
  (logged_writeRec s code pay).r g 0 0 hg

/-- A write that its page takes, of a command that may blow fuses. -/
theorem cmd_seen {pg : Page} (h : Takes s r pg) (t : Nat) (f : State → State) :
    s.cmd t (fun s => s.pageWrite r pg true f) = .next (s.keep (f (writeSeen s t pg))) := by
  simp only [State.cmd, State.answer, pageWrite_takes (takes_tick t h), writeSeen]

/-- A write to the page sees its fields as they stand. -/
theorem r_seen (s : State) (t : Nat) {g : Fld} (hg : g.key 0 0 ≠ (hdr HDR.COUNT ⟨2, 0⟩).key 0 0) : (writeSeen s t ⟨2, 0⟩).r g = s.r g :=
  (r_w_ne _ _ _ _ _ _ _ _ hg).trans (r_tick s t g 0 0)

/-! ### Attestation (R506 to R508) -/

theorem sec_setIdx (s : State) (n : Nat) : (s.setIdx n).sec = s.sec := setRaw_sec _ _ _ _ _ _ _

theorem idx_setIdx (s : State) {n : Nat} (hn : n < 2 ^ 40) : (s.setIdx n).idx = n := by
  unfold State.idx State.setIdx
  rw [r_setRaw_apart (by decide) (by decide), r_setRaw_apart (by decide) (by decide), r_w_apart (by decide), r_w_cut _ _ _ _ _ (by decide),
    r_w_cut _ _ _ _ _ (by decide)]
  have hlo : SEC.IDX_LO.width = 32 := rfl
  have hhi : SEC.IDX_HI.width = 8 := rfl
  rw [hlo, hhi]
  omega

/-- While the batch lasts, an index that is taken is counted and moves the next index on alone (R506, R507). -/
theorem takeIndex_counts (hbatch : s.idx < s.sec.batchEnd) : ∃ times, s.takeIndex =
    ((s.setSec fun k => { k with signTimes := times }).inc SEC.SIGNS).setIdx (s.idx + 1) := by
  unfold State.takeIndex State.reserveBatch
  rw [if_pos hbatch]
  exact ⟨_, rfl⟩

theorem idx_congr (hlo : u.r SEC.IDX_LO = s.r SEC.IDX_LO) (hhi : u.r SEC.IDX_HI = s.r SEC.IDX_HI) : u.idx = s.idx := by
  rw [State.idx, hlo, hhi]
  rfl

theorem idx_keep_setSec (s u : State) (f : SecX → SecX) : (s.keep (u.setSec f)).idx = u.idx := by
  rw [State.idx, State.idx, r_keep, r_keep, r_setSec, r_setSec]

theorem idx_seen (s : State) (t : Nat) : (writeSeen s t ⟨2, 0⟩).idx = s.idx := idx_congr (r_seen s t (by decide)) (r_seen s t (by decide))

/-- Where no signature has been made lately and the batch lasts, one can be made (R507). -/
theorem signCause_none (htimes : s.sec.signTimes = []) (hbatch : s.idx < s.sec.batchEnd) (hidx : s.idx < 2 ^ 40 - 1) : s.signCause = 0 := by
  unfold State.signCause
  rw [htimes, List.filter_nil, if_neg (show ¬ 10 ≤ ([] : List Nat).length by decide), if_neg (by omega), if_neg fun h => absurd h.1 (by omega)]

theorem attestStart_takes (htakes : Takes s r ⟨2, 0⟩) (hidle : s.sec.attesting = false) (hfw : s.r SEC.FW_STATE ≠ 6) (htimes : s.sec.signTimes = [])
    (hbatch : s.idx < s.sec.batchEnd) (hidx : s.idx < 2 ^ 40 - 1) : Gives (.attestStart t r) s (fun u => u.r SEC.ATT_CAUSE = 0 ∧
      u.sec.attesting = true ∧ u.sec.attIdx = s.idx ∧ u.sec.attNonce = s.gen (s.r SEC.ATT_SRC) 32 ∧ u.idx = s.idx + 1 ∧
      u.r SEC.SIGNS = min (s.r SEC.SIGNS + 1) (2 ^ 32 - 1)) := by
  have hcan : (writeSeen s t ⟨2, 0⟩).signCause = 0 := signCause_none htimes (by rw [idx_seen]; exact hbatch) (by rw [idx_seen]; exact hidx)
  have hstart : ¬ ((writeSeen s t ⟨2, 0⟩).sec.attesting = true ∨ (writeSeen s t ⟨2, 0⟩).r SEC.FW_STATE = 6) := by
    rw [show (writeSeen s t ⟨2, 0⟩).sec = s.sec from rfl, hidle, r_seen s t (by decide)]
    simpa using hfw
  refine ⟨_, cmd_seen htakes t _, ?_⟩
  beta_reduce
  rw [if_neg hstart, hcan]
  extract_lets c v i nonce
  rw [if_neg (show ¬ c ≠ 0 from fun hne => hne rfl)]
  have hi : v.idx = s.idx := (idx_congr (r_w_apart (by decide) _) (r_w_apart (by decide) _)).trans (idx_seen s t)
  have hsrc : v.r SEC.ATT_SRC = s.r SEC.ATT_SRC := (r_w_apart (by decide) _).trans (r_seen s t (by decide))
  have hsigns : v.r SEC.SIGNS = s.r SEC.SIGNS := (r_w_apart (by decide) _).trans (r_seen s t (by decide))
  have hcause : v.r SEC.ATT_CAUSE = 0 := r_w_val (f := SEC.ATT_CAUSE) (by decide) (by decide)
  have hnonce : nonce = s.gen (s.r SEC.ATT_SRC) 32 := by
    unfold nonce
    rw [hsrc]
    rfl
  have hsec : v.sec = s.sec := rfl
  obtain ⟨times, htake⟩ := takeIndex_counts (s := v) (by rw [hi, hsec]; exact hbatch)
  rw [htake, hi, show i = s.idx from hi, hnonce]
  clear_value v nonce
  have hcause' : ((v.setSec fun k => { k with signTimes := times }).inc SEC.SIGNS).r SEC.ATT_CAUSE = 0 := by
    rw [r_inc_apart (by decide), r_setSec, hcause]
  have hsigns' : ((v.setSec fun k => { k with signTimes := times }).inc SEC.SIGNS).r SEC.SIGNS = min (s.r SEC.SIGNS + 1) (2 ^ 32 - 1) := by
    rw [r_inc_same _ _ _ _ _ (by decide), r_setSec, hsigns]
    rfl
  generalize (v.setSec fun k => { k with signTimes := times }).inc SEC.SIGNS = x at hcause' hsigns' ⊢
  have hnext : (x.setIdx (s.idx + 1)).idx = s.idx + 1 := idx_setIdx x (by omega)
  rw [← idx_keep_setSec s] at hnext
  rw [r_keep, r_keep, keep_sec, r_setSec, r_setSec, r_setIdx x _ (by decide), r_setIdx x _ (by decide)]
  exact ⟨hcause', rfl, rfl, rfl, hnext, hsigns'⟩

/-- A report is written from ATT_DST on (R508). -/
theorem attestDone_writes (hon : s.islandOn .keep = true) (hatt : s.sec.attesting = true) : Gives (.attestDone t) s (fun u =>
    u.sec.attesting = false ∧ u.fuses = s.fuses ∧ ∀ b, b < s.r SEC.ATT_DST → sget 0 u.general b = sget 0 s.general b) := by
  have hatt' : ¬ (!(s.tick t).sec.attesting) = true := by
    rw [tick_sec, hatt]
    decide
  refine ⟨_, (runM_on hon t _).trans (congrArg (fun u => Host.Outcome.next (s.keepM u)) (if_neg hatt')), ?_, rfl, fun b hb => ?_⟩
  · rw [keepM_sec, sec_writeRec]
    rfl
  · rw [keepM_general, general_writeRec, setSec_general]
    exact putGen_below (s.tick t) hb _

/-! ### Tokens (R504, R510 to R513) -/

/-- The fields that the answer to a token rests on. -/
def tokenFields : List Fld :=
  [SEC.MIN_SVN, SEC.ANCHOR_VALID, SEC.ANCHOR_REVOKED, SEC.POLICY, SEC.TOK_NONCE_LO, SEC.TOK_NONCE_HI, SEC.FW_ACTIVE, DCH.OUT_EN]

/-- Two states with the same fuses, record of the block and fields answer a token alike. -/
structure SameToken (s u : State) : Prop where
  fuses : u.fuses = s.fuses
  sec : u.sec = s.sec
  r : ∀ g ∈ tokenFields, u.r g = s.r g

namespace SameToken

variable (h : SameToken s u)
include h

theorem inForce : u.inForce = s.inForce := inForce_congr (h.r _ (by decide)) (h.r _ (by decide))

theorem policy : u.policy = s.policy := by
  funext b
  rw [State.policy, h.r SEC.POLICY (by decide)]
  rfl

theorem ownerOr (bit : Nat) : u.ownerOr bit = s.ownerOr bit := ownerOr_congr (h.r _ (by decide)) (h.r _ (by decide)) (h.r _ (by decide)) bit

theorem deviceId : u.deviceId = s.deviceId := by
  rw [State.deviceId, State.fuse, h.fuses]
  rfl

theorem anchorKey : u.anchorKey = s.anchorKey := by
  funext k
  rw [State.anchorKey, State.fuse, h.fuses]
  rfl

theorem selfSigned (tok b : List Nat) : u.selfSigned tok b = s.selfSigned tok b := by
  unfold State.selfSigned
  rw [h.r SEC.ANCHOR_VALID (by decide), h.policy, h.inForce]

theorem tokenSlot (tok b : List Nat) : u.tokenSlot tok b = s.tokenSlot tok b := by
  funext k
  unfold State.tokenSlot
  rw [h.selfSigned, h.ownerOr, h.inForce]

theorem tokenKey (tok b : List Nat) : u.tokenKey tok b = s.tokenKey tok b := by
  funext k
  unfold State.tokenKey
  rw [h.selfSigned, h.anchorKey]

theorem vfyCause (kind : Nat) (obj b : List Nat) (fits : Bool) (slotOk : Nat → Bool) (key : Nat → List Nat) :
    u.vfyCause kind obj b fits slotOk key = s.vfyCause kind obj b fits slotOk key :=
  vfyCause_congr h.fuses (h.r _ (by decide)) kind obj b fits slotOk key

theorem fuseRule (tok b : List Nat) : u.fuseRule tok b = s.fuseRule tok b := by
  unfold State.fuseRule
  rw [h.r SEC.ANCHOR_VALID (by decide), h.policy, h.inForce, h.r SEC.MIN_SVN (by decide), h.r SEC.FW_ACTIVE (by decide), h.sec]

theorem tokenCause (tok b : List Nat) (vfy : Nat) : u.tokenCause tok b vfy = s.tokenCause tok b vfy := by
  unfold State.tokenCause State.on
  rw [h.deviceId, h.r SEC.TOK_NONCE_LO (by decide), h.r SEC.TOK_NONCE_HI (by decide), h.policy, h.r DCH.OUT_EN (by decide), h.fuseRule]

end SameToken

theorem sameToken_seen (s : State) (t : Nat) : SameToken s (writeSeen s t ⟨2, 0⟩) :=
  ⟨rfl, rfl, fun g hg => r_seen s t ((show ∀ g ∈ tokenFields, g.key 0 0 ≠ (hdr HDR.COUNT ⟨2, 0⟩).key 0 0 by decide) g hg)⟩

theorem sameToken_vfyDone (s : State) (kind slot cause : Nat) : SameToken s (s.vfyDone kind slot cause) := by
  refine ⟨?_, sec_recorded (recorded_vfyDone _ _ _ _), fun g hg => (logged_vfyDone s kind slot cause).r g 0 0
    ((show ∀ g ∈ tokenFields, g.key 0 0 ∉ verifyKeys by decide) g hg)⟩
  obtain ⟨_, _, _, _, hrec⟩ := recorded_vfyDone s kind slot cause
  rw [hrec]

/-- The fields that tell a token's answer. -/
def answerFields : List Fld := [SEC.VFY_CAUSE, SEC.TOK_CAUSE]

/-- A new nonce and the event that tells of a token leave the fields beside theirs (R510, R520). -/
theorem r_answered (s : State) (p : List Nat) {g : Fld}
    (hg : g.key 0 0 ∉ [SEC.TOK_NONCE_LO.key 0 0, SEC.TOK_NONCE_HI.key 0 0, pendKey 2 0 3]) : ((s.raise 2 0 3 p).drawTokNonce).r g = s.r g := by
  simp only [List.mem_cons, List.not_mem_nil, or_false, not_or] at hg
  obtain ⟨hlo, hhi, hpend⟩ := hg
  unfold State.drawTokNonce
  extract_lets v
  rw [r_w_ne _ _ _ _ _ _ _ _ hhi, r_w_ne _ _ _ _ _ _ _ _ hlo, r_fresh, r_raise _ _ _ _ _ _ _ _ _ hpend]

theorem sec_answered (s : State) (p : List Nat) : ((s.raise 2 0 3 p).drawTokNonce).sec = s.sec := raise_sec _ _ _ _ _ _

/-- The debug port opens with the scope and for the time of the token (R513). -/
theorem openDebug_opens (s : State) {tok : List Nat} (hscope : blk tok 0x18 4 < 8) : (s.openDebug tok).r SEC.DBG_SCOPE = blk tok 0x18 4 ∧
    (s.openDebug tok).sec.dbgEnd = s.up + 1000000000 * blk tok 0x1C 4 := by
  unfold State.openDebug
  extract_lets scope v
  have hv : v.r SEC.DBG_SCOPE = scope := r_w_val (f := SEC.DBG_SCOPE) hscope (by decide)
  have hend : v.sec.dbgEnd = s.up + 1000000000 * blk tok 0x1C 4 := rfl
  clear_value v
  refine ⟨?_, ?_⟩
  · rw [r_writeRec _ _ _ (by decide), r_raise_apart (by decide), hv]
  · rw [sec_writeRec, raise_sec, hend]

theorem openDebug_answers (s : State) (tok : List Nat) : ∀ g ∈ answerFields, (s.openDebug tok).r g = s.r g := by
  intro g hg
  unfold State.openDebug
  extract_lets scope v
  have hv : v.r g = s.r g := r_w_ne _ _ _ _ _ _ _ _ ((show ∀ g ∈ answerFields, g.key 0 0 ≠ SEC.DBG_SCOPE.key 0 0 by decide) g hg)
  rw [r_writeRec _ _ _ ((show ∀ g ∈ answerFields, g.key 0 0 ∉ recordKeys by decide) g hg),
      r_raise _ _ _ _ _ _ _ _ _ ((show ∀ g ∈ answerFields, g.key 0 0 ≠ pendKey 2 0 2 by decide) g hg), hv]

/-- Fuse bits that are set show in no register before they are sensed (R501). -/
theorem regs_foldl_burn {α : Type} (off mask : α → Nat) (xs : List α) (s : State) :
    (xs.foldl (fun (v : State) x => v.burn (off x) (mask x)) s).regs = s.regs :=
  List.foldlRecOn (motive := fun v : State => v.regs = s.regs) _ _ rfl fun _ hv _ _ => hv

/-- The registers that show fuses. -/
def senseKeys : List Nat :=
  [SEC.ANCHOR_VALID.key 0 0, SEC.ANCHOR_REVOKED.key 0 0, SEC.POLICY.key 0 0, SEC.MIN_SVN.key 0 0, SEC.IDX_FLOOR.key 0 0]

theorem r_senseFuses (s : State) {g : Fld} (hg : g.key 0 0 ∉ senseKeys) : s.senseFuses.r g = s.r g := by
  simp only [senseKeys, List.mem_cons, List.not_mem_nil, or_false, not_or] at hg
  obtain ⟨hvalid, hrevoked, hpolicy, hsvn, hfloor⟩ := hg
  unfold State.senseFuses
  extract_lets bit floor top
  rw [r_w_ne _ _ _ _ _ _ _ _ hfloor, r_w_ne _ _ _ _ _ _ _ _ hsvn, r_w_ne _ _ _ _ _ _ _ _ hpolicy, r_w_ne _ _ _ _ _ _ _ _ hrevoked,
    r_w_ne _ _ _ _ _ _ _ _ hvalid]

/-- A FUSE token leaves the fields that tell a token's answer (R511). -/
theorem fuseAct_answers (s : State) (tok : List Nat) : ∀ g ∈ answerFields, (s.fuseAct tok).r g = s.r g := by
  intro g hg
  unfold State.fuseAct
  extract_lets arg1 at0 v1 v
  have hv : v.regs = s.regs := by
    unfold v
    split
    · exact regs_foldl_burn _ _ _ _
    · rfl
    · rfl
    · exact regs_foldl_burn _ _ _ _
  rw [r_writeRec _ _ _ ((show ∀ g ∈ answerFields, g.key 0 0 ∉ recordKeys by decide) g hg),
    r_senseFuses v ((show ∀ g ∈ answerFields, g.key 0 0 ∉ senseKeys by decide) g hg), State.r, hv]
  rfl

theorem vfyCause_lt (s : State) (kind : Nat) (obj b : List Nat) (fits : Bool) (slotOk : Nat → Bool) (key : Nat → List Nat) :
    s.vfyCause kind obj b fits slotOk key < 16 := by
  unfold State.vfyCause
  extract_lets k n bind
  split_ifs <;> decide

theorem tokenCause_lt (s : State) (tok b : List Nat) {vfy : Nat} (hvfy : vfy < 16) : s.tokenCause tok b vfy < 16 := by
  unfold State.tokenCause
  extract_lets scope dur
  split_ifs
  all_goals omega

theorem vfyDone_cause (s : State) (kind slot : Nat) {cause : Nat} (hc : cause < 16) : (s.vfyDone kind slot cause).r SEC.VFY_CAUSE = cause := by
  unfold State.vfyDone
  extract_lets v pay
  have hv : v.r SEC.VFY_CAUSE = cause := r_w_val (f := SEC.VFY_CAUSE) hc (by decide)
  clear_value v
  split
  · exact hv
  · rw [r_writeRec _ _ _ (by decide), r_raise_apart (by decide), r_inc_apart (by decide), hv]

/-- What a token `tok` with its block `b`, the result `vfy` of its verification and the cause `c` does (R510 to R513). -/
def tokenEffect (s : State) (tok b : List Nat) (vfy c : Nat) : State :=
  let v := (s.vfyDone 4 (blk b 7 1) vfy).w SEC.TOK_CAUSE c
  let x := if c ≠ 0 then v.writeRec 0x607 [c] else if blk tok 6 1 = 2 then v.openDebug tok else v.fuseAct tok
  (x.raise 2 0 3 ([4, blk b 7 1] ++ leBytes 2 c)).drawTokNonce

/-- The fields that a refused token leaves. -/
def refusedFields : List Fld := [SEC.DBG_SCOPE, SEC.MIN_SVN, SEC.ANCHOR_VALID]

theorem tokenEffect_answers (s : State) (tok b : List Nat) {vfy c : Nat} (hvfy : vfy < 16) (hc : c < 16) :
    (tokenEffect s tok b vfy c).r SEC.VFY_CAUSE = vfy ∧ (tokenEffect s tok b vfy c).r SEC.TOK_CAUSE = c ∧
    (c = 0 → blk tok 6 1 = 2 → blk tok 0x18 4 < 8 → (tokenEffect s tok b vfy c).r SEC.DBG_SCOPE = blk tok 0x18 4 ∧
      (tokenEffect s tok b vfy c).sec.dbgEnd = s.up + 1000000000 * blk tok 0x1C 4) ∧
    (c ≠ 0 → ∀ g ∈ refusedFields, (tokenEffect s tok b vfy c).r g = s.r g) := by
  have hup : (s.vfyDone 4 (blk b 7 1) vfy).up = s.up := by
    obtain ⟨_, _, _, _, hrec⟩ := recorded_vfyDone s 4 (blk b 7 1) vfy
    rw [hrec]
  have hcause := vfyDone_cause s 4 (blk b 7 1) hvfy
  have hold : ∀ g ∈ refusedFields, (s.vfyDone 4 (blk b 7 1) vfy).r g = s.r g := fun g hg =>
    (logged_vfyDone s 4 (blk b 7 1) vfy).r g 0 0 ((show ∀ g ∈ refusedFields, g.key 0 0 ∉ verifyKeys by decide) g hg)
  unfold tokenEffect
  generalize s.vfyDone 4 (blk b 7 1) vfy = z at hup hcause hold ⊢
  extract_lets v x
  have hv : v.r SEC.VFY_CAUSE = vfy := (r_w_apart (by decide) _).trans hcause
  have hvc : v.r SEC.TOK_CAUSE = c := r_w_val (f := SEC.TOK_CAUSE) hc (by decide)
  have hx : ∀ g ∈ answerFields, x.r g = v.r g := by
    intro g hg
    unfold x
    split
    · exact r_writeRec _ _ _ ((show ∀ g ∈ answerFields, g.key 0 0 ∉ recordKeys by decide) g hg)
    · split
      · exact openDebug_answers v tok g hg
      · exact fuseAct_answers v tok g hg
  refine ⟨?_, ?_, fun hzero hkind hscope => ?_, fun hne g hg => ?_⟩
  · rw [r_answered x _ (by decide), hx _ (by decide), hv]
  · rw [r_answered x _ (by decide), hx _ (by decide), hvc]
  · obtain ⟨hset, hend⟩ := openDebug_opens v hscope
    have hopen : x = v.openDebug tok := (if_neg (not_not.mpr hzero)).trans (if_pos hkind)
    rw [r_answered x _ (by decide), sec_answered, hopen, hset, hend, show v.up = s.up from hup]
    exact ⟨rfl, rfl⟩
  · have hrefused : x = v.writeRec 0x607 [c] := if_pos hne
    rw [r_answered x _ ((show ∀ g ∈ refusedFields, g.key 0 0 ∉ [SEC.TOK_NONCE_LO.key 0 0, SEC.TOK_NONCE_HI.key 0 0, pendKey 2 0 3] by decide) g hg),
      hrefused, r_writeRec _ _ _ ((show ∀ g ∈ refusedFields, g.key 0 0 ∉ recordKeys by decide) g hg),
      r_w_ne _ _ _ _ _ _ _ _ ((show ∀ g ∈ refusedFields, g.key 0 0 ≠ SEC.TOK_CAUSE.key 0 0 by decide) g hg), hold g hg]

/-- The verification of the token that TOK_ADDR points to. -/
def tokenVfy (s : State) : Nat :=
  let tok := s.gen (s.r SEC.TOK_ADDR) 128
  let b := s.tokenBlock (s.r SEC.TOK_ADDR)
  s.vfyCause 4 tok b (tokenFits (s.r SEC.TOK_ADDR) b) (s.tokenSlot tok b) (s.tokenKey tok b)

/-- The cause with which the token that TOK_ADDR points to is answered. -/
def tokenAnswer (s : State) : Nat := s.tokenCause (s.gen (s.r SEC.TOK_ADDR) 128) (s.tokenBlock (s.r SEC.TOK_ADDR)) (tokenVfy s)

theorem exec_tokenApply (htakes : Takes s r ⟨2, 0⟩) : exec (.tokenApply t r) s = .next (s.keep (tokenEffect (writeSeen s t ⟨2, 0⟩)
    (s.gen (s.r SEC.TOK_ADDR) 128) (s.tokenBlock (s.r SEC.TOK_ADDR)) (tokenVfy s) (tokenAnswer s))) := by
  have haddr : (writeSeen s t ⟨2, 0⟩).r SEC.TOK_ADDR = s.r SEC.TOK_ADDR := r_seen s t (by decide)
  have hsame := sameToken_seen s t
  have hgen : (writeSeen s t ⟨2, 0⟩).gen = s.gen := rfl
  have hblock : (writeSeen s t ⟨2, 0⟩).tokenBlock = s.tokenBlock := rfl
  have hexec : exec (.tokenApply t r) s = .next (s.keep (tokenEffect (writeSeen s t ⟨2, 0⟩)
      ((writeSeen s t ⟨2, 0⟩).gen ((writeSeen s t ⟨2, 0⟩).r SEC.TOK_ADDR) 128) ((writeSeen s t ⟨2, 0⟩).tokenBlock ((writeSeen s t ⟨2, 0⟩).r SEC.TOK_ADDR))
      (tokenVfy (writeSeen s t ⟨2, 0⟩)) (((writeSeen s t ⟨2, 0⟩).vfyDone 4
        (blk ((writeSeen s t ⟨2, 0⟩).tokenBlock ((writeSeen s t ⟨2, 0⟩).r SEC.TOK_ADDR)) 7 1) (tokenVfy (writeSeen s t ⟨2, 0⟩))).tokenCause
        ((writeSeen s t ⟨2, 0⟩).gen ((writeSeen s t ⟨2, 0⟩).r SEC.TOK_ADDR) 128) ((writeSeen s t ⟨2, 0⟩).tokenBlock ((writeSeen s t ⟨2, 0⟩).r SEC.TOK_ADDR))
        (tokenVfy (writeSeen s t ⟨2, 0⟩))))) := cmd_seen htakes t _
  have hvfy : tokenVfy (writeSeen s t ⟨2, 0⟩) = tokenVfy s := by
    unfold tokenVfy
    rw [haddr, hgen, hblock, hsame.vfyCause, hsame.tokenSlot, hsame.tokenKey]
  rw [hexec, haddr, hgen, hblock, hvfy, (sameToken_vfyDone _ _ _ _).tokenCause, hsame.tokenCause]
  rfl

theorem tokenCause_scope {tok b : List Nat} {vfy : Nat} (hzero : s.tokenCause tok b vfy = 0) (hkind : blk tok 6 1 = 2) : blk tok 0x18 4 < 8 := by
  unfold State.tokenCause at hzero
  extract_lets scope dur at hzero
  by_contra hbig
  have hscope : 8 ≤ scope := Nat.not_lt.mp hbig
  split_ifs at hzero
  all_goals omega

theorem tokenApply_answers (htakes : Takes s r ⟨2, 0⟩) : Gives (.tokenApply t r) s (fun u => u.r SEC.VFY_CAUSE = tokenVfy s ∧
    u.r SEC.TOK_CAUSE = tokenAnswer s ∧
    (tokenAnswer s = 0 → blk (s.gen (s.r SEC.TOK_ADDR) 128) 6 1 = 2 → u.r SEC.DBG_SCOPE = blk (s.gen (s.r SEC.TOK_ADDR) 128) 0x18 4 ∧
      u.sec.dbgEnd = (s.tick t).up + 1000000000 * blk (s.gen (s.r SEC.TOK_ADDR) 128) 0x1C 4) ∧
    (tokenAnswer s ≠ 0 → u.r SEC.DBG_SCOPE = s.r SEC.DBG_SCOPE ∧ u.r SEC.MIN_SVN = s.r SEC.MIN_SVN ∧
      u.r SEC.ANCHOR_VALID = s.r SEC.ANCHOR_VALID)) := by
  refine ⟨_, exec_tokenApply htakes, ?_⟩
  have hvfy : tokenVfy s < 16 := vfyCause_lt _ _ _ _ _ _ _
  obtain ⟨hv, hc, hopen, hrefused⟩ := tokenEffect_answers (writeSeen s t ⟨2, 0⟩) (s.gen (s.r SEC.TOK_ADDR) 128) (s.tokenBlock (s.r SEC.TOK_ADDR)) hvfy
    (tokenCause_lt s (s.gen (s.r SEC.TOK_ADDR) 128) (s.tokenBlock (s.r SEC.TOK_ADDR)) hvfy)
  refine ⟨hv, hc, fun hzero hkind => hopen hzero hkind (tokenCause_scope hzero hkind), fun hne => ?_⟩
  have hkept : ∀ g ∈ refusedFields, _ := hrefused hne
  exact ⟨(hkept SEC.DBG_SCOPE (by decide)).trans (r_seen s t (by decide)), (hkept SEC.MIN_SVN (by decide)).trans (r_seen s t (by decide)),
    (hkept SEC.ANCHOR_VALID (by decide)).trans (r_seen s t (by decide))⟩

/-! ### The debug port (R513) -/

theorem closeDebug_closes (s : State) : s.closeDebug.r SEC.DBG_SCOPE = 0 := by
  unfold State.closeDebug
  split
  next hclosed => exact hclosed
  next =>
    rw [r_writeRec _ _ _ (by decide), r_raise_apart (by decide)]
    exact r_w_val (f := SEC.DBG_SCOPE) (by decide) (by decide)

theorem dbgClose_closes (htakes : Takes s r ⟨2, 0⟩) : Gives (.dbgClose t r) s (fun u => u.r SEC.DBG_SCOPE = 0) :=
  ⟨_, cmdK_seen htakes t _, closeDebug_closes _⟩

theorem debugExpiry_closes (hon : s.islandOn .keep = true) (hdue : s.sec.dbgEnd ≤ (s.tick t).up) :
    Gives (.debugExpiry t) s (fun u => u.r SEC.DBG_SCOPE = 0) :=
  ⟨_, (runK_on hon t _).trans (congrArg (fun u => Host.Outcome.next (s.keepK u)) (if_pos hdue)), closeDebug_closes _⟩

/-! ### Installs (R514 to R519) -/

/-- What a change of FW_STATE changes (R516, R520). -/
theorem fwState_sets (s : State) {st : Nat} (hst : st < 8) (cause : Nat) : (s.fwState st cause).r SEC.FW_STATE = st ∧
    (s.fwState st cause).r SEC.FW_ACTIVE = s.r SEC.FW_ACTIVE ∧ (s.fwState st cause).sec = s.sec ∧ (s.fwState st cause).ho = s.ho := by
  unfold State.fwState
  refine ⟨?_, ?_, raise_sec _ _ _ _ _ _, raise_ho _ _ _ _ _ _⟩
  · rw [r_raise_apart (by decide)]
    exact r_w_val (f := SEC.FW_STATE) hst (by decide)
  · rw [r_raise_apart (by decide), r_w_apart (by decide)]

/-- What an install that ends before its commit leaves (R515, R517). -/
theorem abandon_ends (s : State) (step : Nat) : (s.abandon step).r SEC.FW_STATE = 0 ∧ (s.abandon step).r SEC.FW_ACTIVE = s.r SEC.FW_ACTIVE ∧
    (2 ≤ step → (s.abandon step).sec.journal = none) := by
  unfold State.abandon
  extract_lets v
  obtain ⟨hst, hact, hsec, -⟩ := fwState_sets v (show 0 < 8 by decide) step
  refine ⟨hst, hact.trans ?_, fun hstep => ?_⟩
  · unfold v
    split
    · exact r_writeRec _ _ _ (by decide)
    · rfl
  · rw [hsec]
    unfold v
    rw [if_pos hstep, sec_writeRec]
    rfl

theorem install_begins (htakes : Takes s r ⟨2, 0⟩) (hidle : s.r SEC.FW_STATE = 0) :
    Gives (.install t r) s (fun u => u.r SEC.FW_STATE = 1 ∧ u.r SEC.FW_ACTIVE = s.r SEC.FW_ACTIVE) := by
  have hidle' : ¬ (writeSeen s t ⟨2, 0⟩).r SEC.FW_STATE ≠ 0 := by
    rw [r_seen s t (by decide), hidle]
    decide
  refine ⟨_, (cmdK_seen htakes t _).trans (congrArg (fun u => Host.Outcome.next (s.keepK u)) (if_neg hidle')), ?_⟩
  beta_reduce
  extract_lets resync
  obtain ⟨hst, hact, -, -⟩ := fwState_sets ((writeSeen s t ⟨2, 0⟩).setSec fun k => { k with switchReq := false, waits := resync }) (show 1 < 8 by decide) 0
  exact ⟨hst, hact.trans (r_seen s t (by decide))⟩

theorem install_refused (htakes : Takes s r ⟨2, 0⟩) (hbusy : s.r SEC.FW_STATE ≠ 0) : Gives (.install t r) s (fun u => u.sec = s.sec ∧
    u.r SEC.FW_STATE = s.r SEC.FW_STATE ∧ u.r SEC.REFUSED = min (s.r SEC.REFUSED + 1) (2 ^ 16 - 1)) := by
  have hbusy' : (writeSeen s t ⟨2, 0⟩).r SEC.FW_STATE ≠ 0 := by rwa [r_seen s t (by decide)]
  refine ⟨_, (cmdK_seen htakes t _).trans (congrArg (fun u => Host.Outcome.next (s.keepK u)) (if_pos hbusy')), rfl, ?_, ?_⟩
  · exact (r_inc_apart (by decide) _).trans (r_seen s t (by decide))
  · rw [r_keepK, r_inc_same _ _ _ _ _ (by decide), r_seen s t (by decide)]
    rfl

theorem installAbort_aborts (htakes : Takes s r ⟨2, 0⟩) (hlow : 1 ≤ s.r SEC.FW_STATE) (hhigh : s.r SEC.FW_STATE < 5) :
    Gives (.installAbort t r) s (fun u => u.r SEC.FW_STATE = 0 ∧ u.r SEC.FW_ACTIVE = s.r SEC.FW_ACTIVE) := by
  have hst : (writeSeen s t ⟨2, 0⟩).r SEC.FW_STATE = s.r SEC.FW_STATE := r_seen s t (by decide)
  obtain ⟨hend, hact, -⟩ := abandon_ends (writeSeen s t ⟨2, 0⟩) ((writeSeen s t ⟨2, 0⟩).r SEC.FW_STATE)
  exact ⟨_, (cmdK_seen htakes t _).trans (congrArg (fun u => Host.Outcome.next (s.keepK u)) (if_pos (by rw [hst]; exact ⟨hlow, hhigh⟩))), hend,
    hact.trans (r_seen s t (by decide))⟩

theorem installSwitch_asks (htakes : Takes s r ⟨2, 0⟩) (hst : s.r SEC.FW_STATE = 6) :
    Gives (.installSwitch t r) s (fun u => u.sec.switchReq = true ∧ u.r SEC.FW_STATE = 6) := by
  have hst' : (writeSeen s t ⟨2, 0⟩).r SEC.FW_STATE = 6 := by rw [r_seen s t (by decide), hst]
  exact ⟨_, (cmdK_seen htakes t _).trans (congrArg (fun u => Host.Outcome.next (s.keepK u)) (if_pos hst')), rfl, hst'⟩

theorem secCtrClr_clears (htakes : Takes s r ⟨2, 0⟩) : Gives (.secCtrClr t r) s (fun u => u.r SEC.REJECTED = 0 ∧ u.r SEC.REFUSED = 0 ∧
    u.r SEC.SIGNS = 0 ∧ u.sec = s.sec) := by
  have hlast : ∀ (w : State) (f : Fld), f.width ≤ 32 → (w.w f 0).r f = 0 := fun w f hf => r_w_val (Nat.two_pow_pos _) hf
  refine ⟨_, cmdK_seen htakes t _, ?_, ?_, ?_, rfl⟩
  · rw [r_keepK, r_w_apart (by decide), r_w_apart (by decide), hlast _ _ (by decide)]
  · rw [r_keepK, r_w_apart (by decide), hlast _ _ (by decide)]
  · rw [r_keepK, hlast _ _ (by decide)]

/-- Step 2 erases the marker of the target (R514). -/
theorem installStep_begins (hon : s.islandOn .keep = true) (hst : s.r SEC.FW_STATE = 2) : Gives (.installStepDone t) s (fun u =>
    u.r SEC.FW_STATE = 3 ∧ u.sec.journal = some 2 ∧ ∀ m ∈ u.sec.markers, m.1 ≠ 1 - s.r SEC.FW_ACTIVE) := by
  have hexec : exec (.installStepDone t) s = .next (s.keepK (s.tick t).fwBegin) := by
    refine (runK_on hon t _).trans (congrArg (fun u => Host.Outcome.next (s.keepK u)) ?_)
    rw [r_tick, hst]
    rfl
  refine ⟨_, hexec, ?_⟩
  unfold State.fwBegin
  extract_lets g now v
  obtain ⟨hstate, -, hsec, -⟩ := fwState_sets (v.writeRec 0x601 [g]) (show 3 < 8 by decide) 0
  rw [r_keepK, keepK_sec, hstate, hsec, sec_writeRec]
  exact ⟨rfl, rfl, fun m hm => bne_iff_ne.mp (List.mem_filter.mp hm).2⟩

/-- Step 3 copies the image and leaves the bytes of the other slot (R516). -/
theorem installStep_copies (hon : s.islandOn .keep = true) (hst : s.r SEC.FW_STATE = 3)
    (hdue : s.sec.copyAt + s.r SEC.FW_SIZE * 1000000000 / 6144 ≤ (s.tick t).up) : Gives (.installStepDone t) s (fun u =>
    u.r SEC.FW_STATE = 4 ∧ u.sec.journal = some 3 ∧ ∀ p, p ∈ s.sec.fwSlots → p.1 / 2 ^ 19 ≠ s.fwTarget → p ∈ u.sec.fwSlots) := by
  have hexec : exec (.installStepDone t) s = .next (s.keepK (s.tick t).fwCopy) := by
    refine (runK_on hon t _).trans (congrArg (fun u => Host.Outcome.next (s.keepK u)) ?_)
    rw [r_tick, hst]
    have hdue' : ¬ (s.tick t).up < (s.tick t).sec.copyAt + (s.tick t).r SEC.FW_SIZE * 1000000000 / 6144 := by
      rw [tick_sec, r_tick]
      exact Nat.not_lt.mpr hdue
    simp only [if_neg hdue']
  refine ⟨_, hexec, ?_⟩
  unfold State.fwCopy
  extract_lets g new kept slots
  obtain ⟨hstate, -, hsec, -⟩ := fwState_sets ((s.tick t).setSec fun k => { k with journal := some 3, fwSlots := slots }) (show 4 < 8 by decide) 0
  rw [r_keepK, keepK_sec, hstate, hsec]
  refine ⟨rfl, rfl, fun p hp hne => ?_⟩
  have hkept : p ∈ kept := List.mem_filter.mpr ⟨hp, bne_iff_ne.mpr hne⟩
  show p ∈ slots
  unfold slots
  split
  · exact List.mem_append_right _ hkept
  · exact List.mem_append_left _ hkept

theorem exec_readBack (hon : s.islandOn .keep = true) (hst : s.r SEC.FW_STATE = 4) :
    exec (.installStepDone t) s = .next (s.keepK (s.tick t).fwReadBack) := by
  refine (runK_on hon t _).trans (congrArg (fun u => Host.Outcome.next (s.keepK u)) ?_)
  rw [r_tick, hst]
  rfl

theorem installStep_verifies (hon : s.islandOn .keep = true) (hst : s.r SEC.FW_STATE = 4) (hmram : s.mramOk = true)
    (hsame : Config.shake256 (s.gen (s.r SEC.FW_SRC) (s.r SEC.FW_SIZE)) 64 = s.sec.fwDigest) :
    Gives (.installStepDone t) s (fun u => u.r SEC.FW_STATE = 5 ∧ u.sec.journal = some 4) := by
  refine ⟨_, exec_readBack hon hst, ?_⟩
  obtain ⟨hstate, -, hsec, -⟩ := fwState_sets ((s.tick t).setSec fun k => { k with journal := some 4 }) (show 5 < 8 by decide) 0
  have hread : (s.tick t).fwReadBack = ((s.tick t).setSec fun k => { k with journal := some 4 }).fwState 5 0 := if_pos ⟨hmram, hsame⟩
  rw [r_keepK, keepK_sec, hread, hstate, hsec]
  exact ⟨rfl, rfl⟩

theorem installStep_fails (hon : s.islandOn .keep = true) (hst : s.r SEC.FW_STATE = 4)
    (hbad : s.mramOk = false ∨ Config.shake256 (s.gen (s.r SEC.FW_SRC) (s.r SEC.FW_SIZE)) 64 ≠ s.sec.fwDigest) :
    Gives (.installStepDone t) s (fun u => u.r SEC.FW_STATE = 0 ∧ u.sec.journal = none) := by
  refine ⟨_, exec_readBack hon hst, ?_⟩
  have hread : (s.tick t).fwReadBack = ((s.tick t).inc SEC.REFUSED).abandon 4 := by
    refine if_neg fun hgood => ?_
    obtain ⟨hmram, hsame⟩ := hgood
    rcases hbad with hno | hdiff
    · rw [show (s.tick t).mramOk = s.mramOk from rfl, hno] at hmram
      exact absurd hmram (by decide)
    · exact hdiff hsame
  obtain ⟨hstate, -, hjournal⟩ := abandon_ends ((s.tick t).inc SEC.REFUSED) 4
  beta_reduce
  rw [r_keepK, keepK_sec, hread]
  exact ⟨hstate, hjournal (by decide)⟩

/-- Step 5 writes the marker of the target on the devices that are OK (R514). -/
theorem installStep_commits (hon : s.islandOn .keep = true) (hst : s.r SEC.FW_STATE = 5) : Gives (.installStepDone t) s (fun u =>
    u.r SEC.FW_STATE = 6 ∧ ∃ q, (1 - s.r SEC.FW_ACTIVE, q, s.r PST.DEV0_STATE == 1, s.r PST.DEV1_STATE == 1) ∈ u.sec.markers) := by
  have hexec : exec (.installStepDone t) s = .next (s.keepK (s.tick t).fwCommit) := by
    refine (runK_on hon t _).trans (congrArg (fun u => Host.Outcome.next (s.keepK u)) ?_)
    rw [r_tick, hst]
    rfl
  refine ⟨_, hexec, ?_⟩
  unfold State.fwCommit
  extract_lets g q now v
  obtain ⟨hstate, -, hsec, -⟩ := fwState_sets ((if g = 0 then v.w SEC.FW_VER_A v.sec.fwVersion.toNat else v.w SEC.FW_VER_B v.sec.fwVersion.toNat).writeRec
    0x602 (g :: leBytes 4 q)) (show 6 < 8 by decide) 0
  have hver : (if g = 0 then v.w SEC.FW_VER_A v.sec.fwVersion.toNat else v.w SEC.FW_VER_B v.sec.fwVersion.toNat).sec = v.sec := by
    split
    · rfl
    · rfl
  rw [r_keepK, keepK_sec, hstate, hsec, sec_writeRec, hver]
  exact ⟨rfl, _, List.mem_cons_self⟩

/-- Step 6 hands over to the new firmware (R516). -/
theorem installStep_switches (hon : s.islandOn .keep = true) (hst : s.r SEC.FW_STATE = 6)
    (hmay : s.ho.pause = true ∨ (s.sec.switchReq = true ∧ (s.r DCH.ROLE = 1 ∨ s.r DCH.ROLE = 2))) : Gives (.installStepDone t) s (fun u =>
    u.r SEC.FW_STATE = 0 ∧ u.r SEC.FW_ACTIVE = (1 - s.r SEC.FW_ACTIVE) % 2 ∧ u.ho.pause = false) := by
  have hmay' : ((s.tick t).ho.pause || ((s.tick t).sec.switchReq && ((s.tick t).r DCH.ROLE == 1 || (s.tick t).r DCH.ROLE == 2))) = true := by
    rw [tick_ho, tick_sec, r_tick]
    simpa using hmay
  have hexec : exec (.installStepDone t) s = .next (s.keepK (s.tick t).fwSwitched) := by
    refine (runK_on hon t _).trans (congrArg (fun u => Host.Outcome.next (s.keepK u)) ?_)
    rw [r_tick, hst]
    rfl
  refine ⟨_, hexec, ?_⟩
  unfold State.fwSwitched
  rw [if_pos hmay']
  extract_lets p v g w
  obtain ⟨hstate, hact, -, hho⟩ := fwState_sets (w.writeRec 0x603 [g]) (show 0 < 8 by decide) 0
  have hactive : w.r SEC.FW_ACTIVE = (1 - s.r SEC.FW_ACTIVE) % 2 := r_w_cut _ _ _ _ _ (by decide)
  rw [r_keepK, r_keepK, keepK_ho, hstate, hact, hho, ho_writeRec, r_writeRec _ _ _ (by decide), hactive]
  exact ⟨rfl, rfl, rfl⟩

/-- Settles O57: attestation, tokens, the debug port and installs, an instruction at a time. -/
theorem security : Obligations.Security := by
  unfold Obligations.Security
  intro t r s
  refine ⟨fun htakes => ⟨attestStart_takes htakes, tokenApply_answers htakes, dbgClose_closes htakes, install_begins htakes, install_refused htakes,
    installAbort_aborts htakes, installSwitch_asks htakes, secCtrClr_clears htakes⟩, debugExpiry_closes, attestDone_writes, installStep_begins,
    installStep_copies, fun hon hst => ⟨installStep_verifies hon hst, installStep_fails hon hst⟩, installStep_commits, installStep_switches⟩

end Sys2Proof.SecurityLaws
end

section
/-! CAN channels: what an operation of a channel leaves of its fields, and the operations one by one (R413 to R428). -/

namespace Sys2Proof.CanLaws

open Sys2Proof Sys2Proof.Machine Sys2Proof.Laws Sys2Proof.LogicPageLaws Sys2Proof.PageFieldLaws

/-- `u` has the fields of the block's page number `n` as `s` has them, but for those with keys among `ks` on the first page of the block. -/
def Beside (ks : List Nat) (n : Nat) (s u : State) : Prop := ∀ (g : Fld) (k : Nat), g.key 0 k ∉ ks → u.r g n k = s.r g n k

namespace Beside

variable {ks ls : List Nat} {n i : Nat} {s u v : State}

theorem refl (s : State) : Beside ks n s s := fun _ _ _ => rfl

theorem trans (h : Beside ks n s u) (k : Beside ks n u v) : Beside ks n s v := fun g i hg => (k g i hg).trans (h g i hg)

theorem mono (h : Beside ks n s u) (hsub : ∀ k ∈ ks, k ∈ ls) : Beside ls n s u := fun g i hg => h g i fun hk => hg (hsub _ hk)

theorem ite {c : Prop} [Decidable c] (h : Beside ks n s u) (k : Beside ks n s v) : Beside ks n s (if c then u else v) := by
  split
  · exact h
  · exact k

theorem of_regs (h : Beside ks n s u) (hregs : v.regs = u.regs) : Beside ks n s v :=
  h.trans fun _ _ _ => by rw [State.r, hregs]; rfl

theorem w {f : Fld} (h : Beside ks n s u) (x : Nat) (hmem : f.key 0 i ∈ ks) : Beside ks n s (u.w f x n i) :=
  h.trans fun _ _ hg => r_w_apart (fun heq => hg (by rw [heq]; exact hmem)) _

theorem raise {code bit : Nat} (h : Beside ks n s u) (hmem : pendKey code 0 bit ∈ ks) (p q : List Nat) : Beside ks n s (u.raise code n bit p q) :=
  h.trans fun _ _ hg => r_raise_apart (fun heq => hg (by rw [heq]; exact hmem)) _ _

theorem setRaw {code bit : Nat} (h : Beside ks n s u) (hpend : pendKey code 0 bit ∈ ks) (hraw : rawKey code 0 bit ∈ ks) (b : Bool) (p q : List Nat) :
    Beside ks n s (u.setRaw code n bit b p q) :=
  h.trans fun _ _ hg => r_setRaw_apart (fun heq => hg (by rw [heq]; exact hpend)) (fun heq => hg (by rw [heq]; exact hraw)) _ _ _

end Beside

variable {s u : State} {t ch b : Nat} {r : Requester}

/-- A field whose first key lies above every key of a list is not among them, whatever its index. -/
theorem key_beyond {g : Fld} {ks : List Nat} (h : ∀ k ∈ ks, k < g.key 0 0) (i : Nat) : g.key 0 i ∉ ks := fun hk => by
  have hlt := h _ hk
  simp only [Fld.key] at hlt
  omega

/-! ### Levels, counters and error states (R422, R423, R425) -/

/-- The registers of the error states. -/
def stateKeys : List Nat :=
  [CFD.ERR_WARN.key 0 0, CFD.ERR_STATE.key 0 0, pendKey 24 0 3, rawKey 24 0 3, pendKey 24 0 4, rawKey 24 0 4, pendKey 24 0 5, rawKey 24 0 5]

/-- The registers of the error counters. -/
def countKeys : List Nat := [CFD.TEC.key 0 0, CFD.REC.key 0 0] ++ stateKeys

/-- The registers of NO_PEER. -/
def ackKeys : List Nat := [CFD.ACK_RUN.key 0 0, pendKey 24 0 7, rawKey 24 0 7]

theorem beside_canStates (s : State) (ch : Nat) : Beside stateKeys ch s (s.canStates ch) := by
  unfold State.canStates State.canLevel
  extract_lets tec rec_ v x y
  have hv : Beside stateKeys ch s v := (Beside.refl s).w _ (by decide)
  have hx : Beside stateKeys ch s x := hv.ite (hv.w _ (by decide))
  have hy : Beside stateKeys ch s y := (hx.setRaw (by decide) (by decide) _ _ _).setRaw (by decide) (by decide) _ _ _
  exact hy.setRaw (by decide) (by decide) _ _ _

theorem can_canStates (s : State) (ch : Nat) : (s.canStates ch).can = s.can := by
  unfold State.canStates State.canLevel
  extract_lets tec rec_ v x y
  have hx : x.can = s.can := by
    unfold x
    split
    · rfl
    · rfl
  rw [setRaw_can, setRaw_can, setRaw_can, hx]

theorem beside_canCount (s : State) (ch tec rec_ : Nat) : Beside countKeys ch s (s.canCount ch tec rec_) :=
  (((Beside.refl s).w _ (by decide)).w _ (by decide)).trans ((beside_canStates _ _).mono (by decide))

theorem can_canCount (s : State) (ch tec rec_ : Nat) : (s.canCount ch tec rec_).can = s.can := can_canStates _ _

/-- The counters take their values and no more than they hold (R422). -/
theorem canCount_counts (s : State) (ch tec rec_ : Nat) : (s.canCount ch tec rec_).r CFD.TEC ch = min tec 511 ∧
    (s.canCount ch tec rec_).r CFD.REC ch = min rec_ 255 := by
  have hstates := beside_canStates ((s.w CFD.TEC (min tec 511) ch).w CFD.REC (min rec_ 255) ch) ch
  have htec : min tec 511 < 2 ^ CFD.TEC.width := Nat.lt_of_le_of_lt (Nat.min_le_right _ _) (by decide)
  have hrec : min rec_ 255 < 2 ^ CFD.REC.width := Nat.lt_of_le_of_lt (Nat.min_le_right _ _) (by decide)
  refine ⟨(hstates CFD.TEC 0 (by decide)).trans ?_, (hstates CFD.REC 0 (by decide)).trans (r_w_val hrec (by decide))⟩
  rw [r_w_apart (by decide)]
  exact r_w_val htec (by decide)

/-- With the counters at 0 and no bus-off the channel is ACTIVE (R422, R423). -/
theorem canStates_active (htec : s.r CFD.TEC ch = 0) (hrec : s.r CFD.REC ch = 0) (hst : s.r CFD.ERR_STATE ch = 0) :
    (s.canStates ch).r CFD.ERR_STATE ch = 0 := by
  unfold State.canStates State.canLevel
  extract_lets tec rec_ v x y
  have hoff : v.busOff ch = false := by
    rw [State.busOff, show v.r CFD.ERR_STATE ch = s.r CFD.ERR_STATE ch from r_wb_apart (by decide) _, hst]
    rfl
  have hx : x.r CFD.ERR_STATE ch = 0 := by
    unfold x
    rw [if_neg (by rw [hoff]; decide), show tec = 0 from htec, show rec_ = 0 from hrec]
    exact r_w_val (f := CFD.ERR_STATE) (v := 0) (by decide) (by decide)
  rw [r_setRaw_apart (by decide) (by decide), r_setRaw_apart (by decide) (by decide), r_setRaw_apart (by decide) (by decide), hx]

theorem beside_setAckRun (s : State) (ch n : Nat) : Beside ackKeys ch s (s.setAckRun ch n) := by
  unfold State.setAckRun State.canLevel
  extract_lets v
  have hv : Beside ackKeys ch s v := (Beside.refl s).w _ (by decide)
  exact (hv.setRaw (by decide) (by decide) _ _ _).ite ((hv.setRaw (by decide) (by decide) _ _ _).ite hv)

theorem can_setAckRun (s : State) (ch n : Nat) : (s.setAckRun ch n).can = s.can := by
  unfold State.setAckRun State.canLevel
  split_ifs
  · exact setRaw_can _ _ _ _ _ _ _
  · exact setRaw_can _ _ _ _ _ _ _
  · rfl

theorem setAckRun_zero (s : State) (ch : Nat) : (s.setAckRun ch 0).r CFD.ACK_RUN ch = 0 := by
  unfold State.setAckRun State.canLevel
  extract_lets v
  rw [if_neg (by decide), if_pos rfl, r_setRaw_apart (by decide) (by decide)]
  exact r_w_val (f := CFD.ACK_RUN) (by decide) (by decide)

/-- Counters that are cleared leave a channel ACTIVE that is not bus-off (R423). -/
theorem canCount_zero (hst : s.r CFD.ERR_STATE ch = 0) : (s.canCount ch 0 0).r CFD.ERR_STATE ch = 0 ∧ (s.canCount ch 0 0).r CFD.TEC ch = 0 ∧
    (s.canCount ch 0 0).r CFD.REC ch = 0 := by
  obtain ⟨htec, hrec⟩ := canCount_counts s ch 0 0
  refine ⟨canStates_active ?_ ?_ ?_, htec, hrec⟩
  · rw [r_w_apart (by decide)]
    exact r_w_val (f := CFD.TEC) (by decide) (by decide)
  · exact r_w_val (f := CFD.REC) (by decide) (by decide)
  · rw [r_w_apart (by decide), r_w_apart (by decide), hst]

theorem ct_canStates (s : State) (ch : Nat) : (s.canStates ch).ct = s.ct := by
  unfold State.canStates State.canLevel
  extract_lets tec rec_ v x y
  have hx : x.ct = s.ct := by
    unfold x
    split
    · rfl
    · rfl
  rw [setRaw_ct, setRaw_ct, setRaw_ct, hx]

theorem ct_canCount (s : State) (ch tec rec_ : Nat) : (s.canCount ch tec rec_).ct = s.ct := ct_canStates _ _

theorem ct_setAckRun (s : State) (ch n : Nat) : (s.setAckRun ch n).ct = s.ct := by
  unfold State.setAckRun State.canLevel
  split_ifs
  · exact setRaw_ct _ _ _ _ _ _ _
  · exact setRaw_ct _ _ _ _ _ _ _
  · rfl

/-! ### Attempts (R414 to R425) -/

/-- The registers of an error found as transmitter. -/
def errorKeys : List Nat := CFD.TX_ERRS.key 0 0 :: countKeys

theorem beside_txError (s : State) (ch : Nat) (raises : Bool) : Beside errorKeys ch s (s.txError ch raises) := by
  unfold State.txError
  extract_lets v
  have hv : Beside errorKeys ch s v := (Beside.refl s).w _ (by decide)
  exact (hv.trans ((beside_canCount _ _ _ _).mono (by decide))).ite hv

theorem can_txError (s : State) (ch : Nat) (raises : Bool) : (s.txError ch raises).can = s.can := by
  unfold State.txError
  extract_lets v
  split
  · exact can_canCount _ _ _ _
  · rfl

/-- An error of the transmitter counts in TX_ERRS and raises TEC by 8 (R422). -/
theorem txError_counts (s : State) (ch : Nat) : (s.txError ch true).r CFD.TX_ERRS ch = min (s.r CFD.TX_ERRS ch + 1) (2 ^ 16 - 1) ∧
    (s.txError ch true).r CFD.TEC ch = min (s.r CFD.TEC ch + 8) 511 := by
  unfold State.txError
  extract_lets v
  rw [if_pos rfl]
  obtain ⟨htec, -⟩ := canCount_counts v ch (v.r CFD.TEC ch + 8) (v.r CFD.REC ch)
  refine ⟨((beside_canCount v ch _ _) CFD.TX_ERRS 0 (by decide)).trans (r_inc_same _ _ _ _ _ (by decide)), ?_⟩
  rw [htec, show v.r CFD.TEC ch = s.r CFD.TEC ch from r_inc_apart (by decide) _]

/-- The registers of a buffer that an attempt moves. -/
def bufferKeys (b : Nat) : List Nat := [CFD.TX_STATE.key 0 b, CFD.ID_RUN.key 0 b, CFD.TX_TS.key 0 b]

/-- The registers that a failed attempt moves beside the counters. -/
def failKeys (b : Nat) : List Nat := CFD.TX_STATE.key 0 b :: [pendKey 24 0 2]

theorem beside_attemptFailed (s : State) (ch b : Nat) (ack : Bool) : Beside (failKeys b) ch s (s.attemptFailed ch b ack) := by
  unfold State.attemptFailed State.raiseCan
  extract_lets x
  have hto : ∀ n, Beside (failKeys b) ch s (s.w CFD.TX_STATE n ch b) := fun n => (Beside.refl s).w _ List.mem_cons_self
  have htell : ∀ n p q, Beside (failKeys b) ch s ((s.w CFD.TX_STATE n ch b).raise 24 ch 2 p q) := fun n p q =>
    (hto n).raise (List.mem_cons_of_mem _ (by decide)) _ _
  exact (hto 4).ite ((htell 5 _ _).ite ((htell 6 _ _).ite (hto 1)))

/-- An attempt that fails under ONE_SHOT and no cancel mark ends its buffer's request (R417, R418). -/
theorem attemptFailed_oneShot (s : State) {ch : Nat} (b : Fin 3) (hcancel : (s.canX ch).cancels.getLsbD b = false) (hone : s.on CFD.ONE_SHOT ch = true) :
    (s.attemptFailed ch b false).r CFD.TX_STATE ch b = 6 := by
  unfold State.attemptFailed State.raiseCan
  extract_lets x
  rw [if_neg (show ¬ x.cancels.getLsbD b = true by rw [show x.cancels.getLsbD b = false from hcancel]; decide),
    if_neg (by rw [Bool.false_and, Bool.false_and]; decide), if_pos hone,
    r_raise_apart ((show ∀ b : Fin 3, CFD.TX_STATE.key 0 b ≠ pendKey 24 0 2 by decide) b)]
  exact r_w_val (f := CFD.TX_STATE) (by decide) (by decide)

theorem beside_measureTdc (s : State) (ch b : Nat) (delay : Option Nat) : Beside [CFD.TDC_VAL.key 0 0] ch s (s.measureTdc ch b delay) := by
  unfold State.measureTdc
  split
  · split
    · exact .refl s
    · exact ((Beside.refl s).w _ (by decide)).ite (((Beside.refl s).w _ (by decide)).of_regs rfl)
  · exact .refl s

theorem measureTdc_keeps (s : State) (ch b : Nat) (delay : Option Nat) : (s.measureTdc ch b delay).can = s.can ∧ (s.measureTdc ch b delay).ct = s.ct := by
  unfold State.measureTdc
  split
  · split
    · exact ⟨rfl, rfl⟩
    · split
      · exact ⟨rfl, rfl⟩
      · exact ⟨rfl, rfl⟩
  · exact ⟨rfl, rfl⟩

/-- The registers that a frame taken from the bus moves. -/
def acceptKeys : List Nat := [CFD.RX_FILL.key 0 0, CFD.RX_LOST.key 0 0, pendKey 24 0 0, rawKey 24 0 0, pendKey 24 0 8]

theorem beside_canAccept (s : State) (ch : Nat) (f : CanFrame) (ts : Word) : Beside acceptKeys ch s (s.canAccept ch f ts) := by
  unfold State.canAccept State.canLevel State.raiseCan
  split
  · exact .refl s
  · extract_lets x v w
    have hv : Beside acceptKeys ch s v := (Beside.refl s).of_regs rfl
    have hw : Beside acceptKeys ch s w := (Beside.refl s).w _ (by decide)
    exact ((hv.w _ (by decide)).setRaw (by decide) (by decide) _ _ _).ite (hw.raise (by decide) _ _)

/-- The filters of a channel follow their registers (R419). -/
theorem canFilter_congr {f : CanFrame} (h : ∀ g ∈ [CFD.F_EN, CFD.F_IDE, CFD.F_ID, CFD.F_MASK], ∀ i, u.r g ch i = s.r g ch i) :
    u.canFilter ch f = s.canFilter ch f := by
  have hen : ∀ i, u.on CFD.F_EN ch i = s.on CFD.F_EN ch i := fun i => on_congr (h _ (by decide) i)
  have hide : ∀ i, u.on CFD.F_IDE ch i = s.on CFD.F_IDE ch i := fun i => on_congr (h _ (by decide) i)
  unfold State.canFilter
  simp only [hen, hide, h CFD.F_ID (by decide), h CFD.F_MASK (by decide)]

/-- A frame that a filter takes joins the queue while it has room (R419, R420). -/
theorem canAccept_queues {f : CanFrame} {ts : Word} {i : Nat} (hfilter : s.canFilter ch f = some i) (hroom : (s.canX ch).rxq.length < 32) :
    ((s.canAccept ch f ts).canX ch).rxq = (s.canX ch).rxq ++ [{ frame := f, filter := i, ts := ts }] ∧
    (s.canAccept ch f ts).r CFD.RX_FILL ch = (s.canX ch).rxq.length + 1 ∧ (s.canAccept ch f ts).r CFD.RX_LOST ch = s.r CFD.RX_LOST ch := by
  unfold State.canAccept State.canLevel
  rw [hfilter]
  dsimp only
  rw [if_pos hroom]
  refine ⟨?_, ?_, ?_⟩
  · rw [State.canX, setRaw_can, w_can]
    exact congrArg CanX.rxq (canX_setCan _ _ _)
  · rw [r_setRaw_apart (by decide) (by decide)]
    exact r_w_val (f := CFD.RX_FILL) (Nat.lt_of_lt_of_le (Nat.succ_lt_succ hroom) (by decide)) (by decide)
  · rw [r_setRaw_apart (by decide) (by decide), r_w_apart (by decide)]
    rfl

/-- A frame that finds the queue full is lost (R420). -/
theorem canAccept_loses {f : CanFrame} {ts : Word} {i : Nat} (hfilter : s.canFilter ch f = some i) (hfull : 32 ≤ (s.canX ch).rxq.length) :
    (s.canAccept ch f ts).can = s.can ∧ (s.canAccept ch f ts).r CFD.RX_LOST ch = min (s.r CFD.RX_LOST ch + 1) (2 ^ 16 - 1) := by
  unfold State.canAccept State.raiseCan
  rw [hfilter]
  dsimp only
  rw [if_neg (Nat.not_lt.mpr hfull)]
  refine ⟨raise_can _ _ _ _ _ _, ?_⟩
  rw [r_raise_apart (by decide)]
  exact r_inc_same _ _ _ _ _ (by decide)

theorem canAccept_none {f : CanFrame} {ts : Word} (hfilter : s.canFilter ch f = none) : s.canAccept ch f ts = s := by
  rw [State.canAccept, hfilter]

/-- The registers beside the buffer's own that the end of an attempt moves. -/
def endKeys : List Nat := ackKeys ++ errorKeys ++ acceptKeys ++ [pendKey 24 0 1, pendKey 24 0 2, pendKey 24 0 6]

/-- The registers that the end of an attempt moves. -/
def attemptKeys (b : Nat) : List Nat := bufferKeys b ++ endKeys

theorem mem_attemptKeys {k b : Nat} (h : k ∈ endKeys) : k ∈ attemptKeys b := List.mem_append_right _ h

theorem failKeys_sub {b : Nat} : ∀ k ∈ failKeys b, k ∈ attemptKeys b := by
  intro k hk
  rcases List.mem_cons.mp hk with rfl | hk
  · exact List.mem_append_left _ List.mem_cons_self
  · exact mem_attemptKeys ((show ∀ k ∈ [pendKey 24 0 2], k ∈ endKeys by decide) k hk)

/-- An attempt that fails counts, and moves its buffer (R417, R422). -/
theorem beside_failed {v : State} (h : Beside (attemptKeys b) ch s v) (raises ack : Bool) :
    Beside (attemptKeys b) ch s ((v.txError ch raises).attemptFailed ch b ack) :=
  (h.trans ((beside_txError v ch raises).mono fun k hk => mem_attemptKeys ((show ∀ k ∈ errorKeys, k ∈ endKeys by decide) k hk))).trans
    ((beside_attemptFailed _ ch b ack).mono failKeys_sub)

theorem beside_attemptEnd (s : State) (ch b : Nat) (res : CanTxResult) (back : Nat) : Beside (attemptKeys b) ch s (s.attemptEnd ch b res back) := by
  have hst : CFD.TX_STATE.key 0 b ∈ attemptKeys b := List.mem_append_left _ List.mem_cons_self
  have hrun : CFD.ID_RUN.key 0 b ∈ attemptKeys b := List.mem_append_left _ (List.mem_cons_of_mem _ List.mem_cons_self)
  have hts : CFD.TX_TS.key 0 b ∈ attemptKeys b := List.mem_append_left _ (List.mem_cons_of_mem _ (List.mem_cons_of_mem _ List.mem_cons_self))
  have hzero : Beside (attemptKeys b) ch s (s.w CFD.ID_RUN 0 ch b) := (Beside.refl s).w _ hrun
  have hack : ∀ {v : State} (n : Nat), Beside (attemptKeys b) ch s v → Beside (attemptKeys b) ch s (v.setAckRun ch n) := fun n hv =>
    hv.trans ((beside_setAckRun _ ch n).mono fun k hk => mem_attemptKeys ((show ∀ k ∈ ackKeys, k ∈ endKeys by decide) k hk))
  cases res with
  | success =>
    unfold State.attemptEnd
    dsimp -zeta only
    extract_lets c v x y z
    have hv : Beside (attemptKeys b) ch s v := (Beside.refl s).of_regs rfl
    have hx : Beside (attemptKeys b) ch s x := hack 0 (hv.w _ hrun)
    have hy : Beside (attemptKeys b) ch s y := hx.trans
      ((beside_canCount _ _ _ _).mono fun k hk => mem_attemptKeys ((show ∀ k ∈ countKeys, k ∈ endKeys by decide) k hk))
    have hz : Beside (attemptKeys b) ch s z := ((hy.w _ hst).w _ hts).raise (mem_attemptKeys (by decide)) _ _
    exact (hz.trans ((beside_canAccept _ _ _ _).mono fun k hk => mem_attemptKeys ((show ∀ k ∈ acceptKeys, k ∈ endKeys by decide) k hk))).ite hz
  | lostArbitration => exact hzero.w _ hst
  | dataBitError =>
    unfold State.attemptEnd
    dsimp -zeta only
    extract_lets n v x
    have hv : Beside (attemptKeys b) ch s v := ((Beside.refl s).w _ hrun).trans
      ((beside_txError _ ch true).mono fun k hk => mem_attemptKeys ((show ∀ k ∈ errorKeys, k ∈ endKeys by decide) k hk))
    have hx : Beside (attemptKeys b) ch s x := (hv.raise (mem_attemptKeys (by decide)) _ _).ite hv
    exact hx.trans ((beside_attemptFailed _ ch b false).mono failKeys_sub)
  | ackError dominant => exact beside_failed (hack _ hzero) _ _
  | otherError => exact beside_failed hzero true false
  | exemptError => exact beside_failed hzero false false

end Sys2Proof.CanLaws
end

section
/-! CAN channels: the commands (R413 to R428). -/

namespace Sys2Proof.CanChannelLaws

open Sys2Proof Sys2Proof.Machine Sys2Proof.Laws Sys2Proof.LogicPageLaws Sys2Proof.PageFieldLaws Sys2Proof.CanLaws

variable {s u : State} {t : Nat} {r : Requester} {ch : Fin 16}

/-- The fields of a channel beside the header stand as a write is counted. -/
theorem beside_seen (s : State) (t : Nat) (ch : Fin 16) : Beside [(hdr HDR.COUNT ⟨24, 0⟩).key 0 0] ch s (writeSeen s t ⟨24, ch⟩) := fun _ _ hg =>
  r_seen_apart (fun heq => hg (List.mem_singleton.mpr heq)) t

theorem can_seen (s : State) (t : Nat) (ch : Fin 16) : (writeSeen s t ⟨24, ch⟩).can = s.can := rfl

theorem canX_congr {n : Nat} (h : u.can = s.can) : u.canX n = s.canX n := by
  rw [State.canX, h]
  rfl

theorem busOff_congr {n : Nat} (h : u.r CFD.ERR_STATE n = s.r CFD.ERR_STATE n) : u.busOff n = s.busOff n := by
  rw [State.busOff, h]
  rfl

/-! ### Modes (R413, R423) -/

/-- The nominal and the data-phase bit time, in FIELD cycles (R413). -/
def bitTimes (s : State) (ch : Nat) : Nat × Nat :=
  (s.r CFD.NBRP ch * (1 + s.r CFD.NTSEG1 ch + s.r CFD.NTSEG2 ch), s.r CFD.DBRP ch * (1 + s.r CFD.DTSEG1 ch + s.r CFD.DTSEG2 ch))

/-- The options of a channel in INIT take the values of a write (R413). -/
def optioned (s : State) (ch : Fin 16) (v : Word) : State :=
  let opts := bitsAt v.toNat 2 3
  let ts := min 10 (bitsAt v.toNat 8 4)
  let s := (((s.w CFD.ONE_SHOT opts ch).w CFD.NOPEER_ABORT (opts / 2) ch).w CFD.TDC_EN (opts / 4) ch).w CFD.TS_SHIFT ts ch
  s.when (ts != bitsAt v.toNat 8 4) (fun s => s.clampCount ⟨24, ch⟩ 0x040 8)

/-- A write to a channel is refused with a cause. -/
def refusedWith (s : State) (ch : Fin 16) (c : Nat) : State := (s.w CFD.REFUSE_CAUSE c ch).inc CFD.REFUSED ch

/-- The registers that the options move. -/
def optionKeys : List Nat :=
  [CFD.ONE_SHOT, CFD.NOPEER_ABORT, CFD.TDC_EN, CFD.TS_SHIFT, hdr HDR.CLAMPS ⟨24, 0⟩, hdr HDR.LAST_DATA ⟨24, 0⟩, hdr HDR.LAST_OFFSET ⟨24, 0⟩,
    hdr HDR.LAST_BIT ⟨24, 0⟩].map fun f => f.key 0 0

theorem beside_clampCount {ks : List Nat} {v : State} (h : Beside ks ch s v) (off lsb : Nat)
    (hks : ∀ f ∈ [HDR.CLAMPS, HDR.LAST_DATA, HDR.LAST_OFFSET, HDR.LAST_BIT], (hdr f ⟨24, 0⟩).key 0 0 ∈ ks) :
    Beside ks ch s (v.clampCount ⟨24, ch⟩ off lsb) := by
  intro g k hg
  have hne : ∀ f ∈ [HDR.CLAMPS, HDR.LAST_DATA, HDR.LAST_OFFSET, HDR.LAST_BIT], g.key 0 k ≠ (hdr f ⟨24, 0⟩).key 0 0 := fun f hf heq =>
    hg (by rw [heq]; exact hks f hf)
  unfold State.clampCount State.hinc
  rw [r_hw_apart (hne _ (by decide)), r_hw_apart (hne _ (by decide)), r_hw_apart (hne _ (by decide)),
    r_inc_apart (f := hdr HDR.CLAMPS ⟨24, ch⟩) (hne HDR.CLAMPS (by decide))]
  exact h g k hg

theorem beside_optioned (s : State) (ch : Fin 16) (v : Word) : Beside optionKeys ch s (optioned s ch v) := by
  unfold optioned State.when
  extract_lets opts ts w
  have hw : Beside optionKeys ch s w :=
    ((((Beside.refl s).w _ (by decide)).w _ (by decide)).w _ (by decide)).w _ (by decide)
  exact (beside_clampCount hw _ _ (by decide)).ite hw

theorem optioned_can (s : State) (ch : Fin 16) (v : Word) : (optioned s ch v).can = s.can := by
  have hclamp : ∀ (w : State) off lsb, (w.clampCount ⟨24, ch⟩ off lsb).can = w.can := fun w off lsb => by
    simp only [State.clampCount, State.hinc, State.hw, State.inc, w_can]
  unfold optioned State.when
  extract_lets opts ts w
  have hw : w.can = s.can := by
    unfold w
    rw [w_can, w_can, w_can, w_can]
  split
  · exact (hclamp _ _ _).trans hw
  · exact hw

theorem optioned_oneShot (s : State) (ch : Fin 16) (v : Word) : (optioned s ch v).r CFD.ONE_SHOT ch = v.toNat / 4 % 2 := by
  unfold optioned State.when
  extract_lets opts ts w
  have hw : w.r CFD.ONE_SHOT ch = v.toNat / 4 % 2 := by
    unfold w
    rw [r_w_apart (by decide), r_w_apart (by decide), r_w_apart (by decide), r_w_cut _ _ _ _ _ (by decide)]
    show v.toNat / 2 ^ 2 % 2 ^ 3 % 2 ^ 1 = v.toNat / 4 % 2
    omega
  clear_value w
  split
  · exact (beside_clampCount (ks := [HDR.CLAMPS, HDR.LAST_DATA, HDR.LAST_OFFSET, HDR.LAST_BIT].map fun f => (hdr f ⟨24, 0⟩).key 0 0)
      (Beside.refl w) 0x040 8 (by decide) CFD.ONE_SHOT 0 (by decide)).trans hw
  · exact hw

/-- A channel leaves INIT (R413, R423). -/
def modeLeft (s v : State) (ch : Fin 16) (m : Nat) : State :=
  let x := v.canX ch
  let w := (v.w CFD.MODE m ch).setCan ch { x with integrating := !x.owed, waitAt := s.up }
  if x.owed then w.w CFD.ERR_STATE 3 ch else w

/-- A write of a mode other than INIT in INIT sets the options, then tests the bit times (R413). -/
theorem exec_canModeWrite {v : Word} (htakes : Takes s r ⟨24, ch⟩) (hmode : s.r CFD.MODE ch = 0) (hm : v.toNat % 4 ≠ 0) (hoff : s.busOff ch = false) :
    exec (.canModeWrite t r ch v) s = .next (s.keepK (
      if (bitTimes s ch).1 < 200 ∨ (bitTimes s ch).2 < 25 ∨ (bitTimes s ch).1 < (bitTimes s ch).2 then
        refusedWith (optioned (writeSeen s t ⟨24, ch⟩) ch v) ch 1
      else if !s.enabled 24 ch then optioned (writeSeen s t ⟨24, ch⟩) ch v
      else modeLeft (writeSeen s t ⟨24, ch⟩) (optioned (writeSeen s t ⟨24, ch⟩) ch v) ch (bitsAt v.toNat 0 2))) := by
  refine (cmdK_seen htakes t _).trans (congrArg (fun u => Host.Outcome.next (s.keepK u)) ?_)
  have hseen := beside_seen s t ch
  have hen : (writeSeen s t ⟨24, ch⟩).enabled 24 ch = s.enabled 24 ch := (PowerLaws.enabled_countWrite _ _ _ _).trans (PowerLaws.enabled_tick _ _ _ _)
  have hmode' : (writeSeen s t ⟨24, ch⟩).r CFD.MODE ch = 0 := (hseen CFD.MODE 0 (by decide)).trans hmode
  have hoff' : ¬ (writeSeen s t ⟨24, ch⟩).busOff ch = true := by
    rw [busOff_congr (hseen CFD.ERR_STATE 0 (by decide)), hoff]
    decide
  have hm' : ¬ bitsAt v.toNat 0 2 = (writeSeen s t ⟨24, ch⟩).r CFD.MODE ch := by
    rw [hmode', bitsAt, Nat.pow_zero, Nat.div_one]
    exact hm
  have htimes : bitTimes (writeSeen s t ⟨24, ch⟩) ch = bitTimes s ch := by
    unfold bitTimes
    rw [hseen CFD.NBRP 0 (by decide), hseen CFD.NTSEG1 0 (by decide), hseen CFD.NTSEG2 0 (by decide), hseen CFD.DBRP 0 (by decide),
      hseen CFD.DTSEG1 0 (by decide), hseen CFD.DTSEG2 0 (by decide)]
  extract_lets +onlyGivenNames m refuse ts opts same w s1
  have hs1 : s1 = optioned (writeSeen s t ⟨24, ch⟩) ch v := if_pos hmode'
  clear_value s1
  rw [if_neg hoff', if_neg hm', if_pos hmode', hs1, ← htimes, ← hen]
  rfl

theorem canModeWrite_refuses {v : Word} (htakes : Takes s r ⟨24, ch⟩) (hmode : s.r CFD.MODE ch = 0) (hm : v.toNat % 4 ≠ 0) (hoff : s.busOff ch = false)
    (hbad : (bitTimes s ch).1 < 200 ∨ (bitTimes s ch).2 < 25 ∨ (bitTimes s ch).1 < (bitTimes s ch).2) :
    Gives (.canModeWrite t r ch v) s (fun u => u.r CFD.MODE ch = 0 ∧ u.r CFD.REFUSE_CAUSE ch = 1 ∧
      u.r CFD.REFUSED ch = min (s.r CFD.REFUSED ch + 1) (2 ^ 16 - 1)) := by
  refine ⟨_, exec_canModeWrite htakes hmode hm hoff, ?_⟩
  have hopt := beside_optioned (writeSeen s t ⟨24, ch⟩) ch v
  have hseen := beside_seen s t ch
  have hmode' := ((hopt CFD.MODE 0 (by decide)).trans (hseen CFD.MODE 0 (by decide))).trans hmode
  have hcount := (hopt CFD.REFUSED 0 (by decide)).trans (hseen CFD.REFUSED 0 (by decide))
  beta_reduce
  rw [if_pos hbad, r_keepK, r_keepK, r_keepK, refusedWith]
  refine ⟨?_, ?_, ?_⟩
  · rw [r_inc_apart (by decide), r_w_apart (by decide), hmode']
  · rw [r_inc_apart (by decide)]
    exact r_w_val (f := CFD.REFUSE_CAUSE) (by decide) (by decide)
  · rw [r_inc_same _ _ _ _ _ (by decide), r_w_apart (by decide), hcount]
    rfl

theorem canModeWrite_enters {v : Word} (htakes : Takes s r ⟨24, ch⟩) (hmode : s.r CFD.MODE ch = 0) (hm : v.toNat % 4 ≠ 0) (hoff : s.busOff ch = false)
    (hnom : 200 ≤ (bitTimes s ch).1) (hdat : 25 ≤ (bitTimes s ch).2) (hle : (bitTimes s ch).2 ≤ (bitTimes s ch).1) (hen : s.enabled 24 ch = true)
    (howed : (s.canX ch).owed = false) :
    Gives (.canModeWrite t r ch v) s (fun u => u.r CFD.MODE ch = v.toNat % 4 ∧ (u.canX ch).integrating = true ∧
      u.r CFD.ONE_SHOT ch = v.toNat / 4 % 2 ∧ u.r CFD.REFUSED ch = s.r CFD.REFUSED ch) := by
  have hgood : ¬ ((bitTimes s ch).1 < 200 ∨ (bitTimes s ch).2 < 25 ∨ (bitTimes s ch).1 < (bitTimes s ch).2) := by omega
  refine ⟨_, exec_canModeWrite htakes hmode hm hoff, ?_⟩
  have hopt := beside_optioned (writeSeen s t ⟨24, ch⟩) ch v
  have hseen := beside_seen s t ch
  have hone := optioned_oneShot (writeSeen s t ⟨24, ch⟩) ch v
  have hcount := (hopt CFD.REFUSED 0 (by decide)).trans (hseen CFD.REFUSED 0 (by decide))
  have hx : ((optioned (writeSeen s t ⟨24, ch⟩) ch v).canX ch).owed = false := by
    rw [canX_congr ((optioned_can _ _ _).trans (can_seen s t ch)), howed]
  have hbits : bitsAt v.toNat 0 2 = v.toNat % 4 := by
    rw [bitsAt, Nat.pow_zero, Nat.div_one]
    rfl
  beta_reduce
  rw [if_neg hgood, if_neg (by rw [hen]; decide), hbits]
  unfold modeLeft
  generalize optioned (writeSeen s t ⟨24, ch⟩) ch v = w at hopt hone hcount hx ⊢
  extract_lets x y
  have hxo : x.owed = false := hx
  rw [if_neg (by rw [hxo]; decide), r_keepK, r_keepK, r_keepK]
  refine ⟨?_, ?_, ?_, ?_⟩
  · exact r_w_val (f := CFD.MODE) (Nat.mod_lt _ (by decide)) (by decide)
  · show (y.canX ch).integrating = true
    rw [canX_setCan]
    show (!x.owed) = true
    rw [hxo]
    rfl
  · exact (r_w_apart (by decide) _).trans hone
  · exact (r_w_apart (by decide) _).trans hcount

/-! ### Requests, cancels, queue and recovery (R415, R418, R420, R423) -/

/-- A request for a transmit buffer (R415). -/
def requested (m : BitVec 3) (ch : Fin 16) (s : State) (b : Nat) : State :=
  let st := s.r CFD.TX_STATE ch b
  if m.getLsbD b ∧ st ≠ 1 ∧ st ≠ 2 then ((s.w CFD.TX_STATE 1 ch b).w CFD.ID_RUN 0 ch b).w CFD.ATTEMPTS 0 ch b else s

/-- A cancel of a transmit buffer (R418). -/
def cancelled (m : BitVec 3) (ch : Fin 16) (s : State) (b : Nat) : State :=
  if !m.getLsbD b then s
  else if s.r CFD.TX_STATE ch b = 1 then s.w CFD.TX_STATE 4 ch b
  else if s.r CFD.TX_STATE ch b = 2 then
    let x := s.canX ch
    s.setCan ch { x with cancels := x.cancels ||| (1#3 <<< b) }
  else s

/-- Fields of two transmit buffers lie apart. -/
theorem stateKey_ne {b c : Fin 3} (h : c ≠ b) : CFD.TX_STATE.key 0 c ≠ CFD.TX_STATE.key 0 b :=
  (show ∀ b c : Fin 3, c ≠ b → CFD.TX_STATE.key 0 c ≠ CFD.TX_STATE.key 0 b by decide) b c h

theorem stateKey_ne_run (b c : Fin 3) : CFD.TX_STATE.key 0 c ≠ CFD.ID_RUN.key 0 b :=
  (show ∀ b c : Fin 3, CFD.TX_STATE.key 0 c ≠ CFD.ID_RUN.key 0 b by decide) b c

theorem stateKey_ne_attempts (b c : Fin 3) : CFD.TX_STATE.key 0 c ≠ CFD.ATTEMPTS.key 0 b :=
  (show ∀ b c : Fin 3, CFD.TX_STATE.key 0 c ≠ CFD.ATTEMPTS.key 0 b by decide) b c

/-- The state of a buffer after a write of another's or of its own. -/
theorem state_w (s : State) (ch : Fin 16) {x : Nat} (hx : x < 8) (b c : Fin 3) :
    (s.w CFD.TX_STATE x ch b).r CFD.TX_STATE ch c = if c = b then x else s.r CFD.TX_STATE ch c := by
  split
  next h =>
    rw [h]
    exact r_w_val (f := CFD.TX_STATE) hx (by decide)
  next h => exact r_w_apart (stateKey_ne h) _

/-- The state that a request gives a buffer (R415). -/
def requestState (m : BitVec 3) (b st : Nat) : Nat := if m.getLsbD b = true ∧ st ≠ 1 ∧ st ≠ 2 then 1 else st

/-- The state that a cancel gives a buffer (R418). -/
def cancelState (m : BitVec 3) (b st : Nat) : Nat := if m.getLsbD b = true ∧ st = 1 then 4 else st

theorem requested_state (m : BitVec 3) (ch : Fin 16) (s : State) (b c : Fin 3) : (requested m ch s b).r CFD.TX_STATE ch c =
    if c = b then requestState m b (s.r CFD.TX_STATE ch b) else s.r CFD.TX_STATE ch c := by
  unfold requested requestState
  extract_lets st
  by_cases hmay : m.getLsbD b = true ∧ st ≠ 1 ∧ st ≠ 2
  · rw [if_pos hmay, if_pos hmay, r_w_apart (stateKey_ne_attempts b c), r_w_apart (stateKey_ne_run b c), state_w s ch (by decide)]
  · rw [if_neg hmay, if_neg hmay]
    split
    next h => rw [h]
    next => rfl

theorem cancelled_state (m : BitVec 3) (ch : Fin 16) (s : State) (b c : Fin 3) : (cancelled m ch s b).r CFD.TX_STATE ch c =
    if c = b then cancelState m b (s.r CFD.TX_STATE ch b) else s.r CFD.TX_STATE ch c := by
  have hsame : ∀ {P : Prop} [Decidable P], ¬ P → s.r CFD.TX_STATE ch c =
      if c = b then (if P then 4 else s.r CFD.TX_STATE ch b) else s.r CFD.TX_STATE ch c := fun hP => by
    rw [if_neg hP]
    split
    next h => rw [h]
    next => rfl
  unfold cancelled cancelState
  by_cases hm : m.getLsbD b = true
  · rw [if_neg (by rw [hm]; decide)]
    by_cases hpend : s.r CFD.TX_STATE ch b = 1
    · rw [if_pos hpend, state_w s ch (by decide), if_pos (show m.getLsbD b = true ∧ s.r CFD.TX_STATE ch b = 1 from ⟨hm, hpend⟩)]
    · rw [if_neg hpend]
      refine Eq.trans ?_ (hsame fun h => hpend h.2)
      split
      · rfl
      · rfl
  · rw [if_pos (by simpa using hm)]
    exact hsame fun h => hm h.1

/-- A cancel marks a buffer that is sending, and no mark is lost (R418). -/
theorem cancelled_marks (m : BitVec 3) (ch : Fin 16) (s : State) (b c : Fin 3) : ((cancelled m ch s b).canX ch).cancels.getLsbD c =
    ((s.canX ch).cancels.getLsbD c || decide (c = b ∧ m.getLsbD b = true ∧ s.r CFD.TX_STATE ch b = 2)) := by
  have hkeep : ¬ (m.getLsbD b = true ∧ s.r CFD.TX_STATE ch b = 2) → ∀ v : State, v.can = s.can → ((v.canX ch).cancels.getLsbD c =
      ((s.canX ch).cancels.getLsbD c || decide (c = b ∧ m.getLsbD b = true ∧ s.r CFD.TX_STATE ch b = 2))) := fun hno v hv => by
    rw [decide_eq_false fun h => hno h.2, Bool.or_false, canX_congr hv]
  unfold cancelled
  split
  next hm => exact hkeep (fun h => by rw [h.1] at hm; exact absurd hm (by decide)) s rfl
  next hm =>
    split
    next hpend => exact hkeep (fun h => by rw [hpend] at h; exact absurd h.2 (by decide)) _ (w_can _ _ _ _ _)
    next =>
      split
      next hsend =>
        have hbit : (1#3 <<< (b : Nat)).getLsbD c = decide (c = b) :=
          (show ∀ b c : Fin 3, (1#3 <<< (b : Nat)).getLsbD c = decide (c = b) by decide) b c
        have hm' : m.getLsbD b = true := by simpa using hm
        extract_lets x
        rw [canX_setCan]
        show (x.cancels ||| (1#3 <<< (b : Nat))).getLsbD c = _
        rw [BitVec.getLsbD_or, hbit]
        simp [hm', hsend, x]
      next hno => exact hkeep (fun h => hno h.2) s rfl

/-- What a channel's fold over its transmit buffers makes of their states. -/
theorem forN_state {F : State → Nat → State} {g : Nat → Nat → Nat} (h : ∀ (v : State) (b c : Fin 3), (F v b).r CFD.TX_STATE ch c =
    if c = b then g b (v.r CFD.TX_STATE ch b) else v.r CFD.TX_STATE ch c) (b : Fin 3) :
    (s.forN 3 F).r CFD.TX_STATE ch b = g b (s.r CFD.TX_STATE ch b) := by
  have h0 := fun v => h v 0
  have h1 := fun v => h v 1
  have h2 := fun v => h v 2
  show (F (F (F s (0 : Fin 3)) (1 : Fin 3)) (2 : Fin 3)).r CFD.TX_STATE ch b = _
  rw [h2, h1, h1, h0, h0, h0]
  fin_cases b
  · rfl
  · rfl
  · rfl

/-- A fold over the transmit buffers sets the mark of a buffer that its own step sets. -/
theorem forN_marks (m : BitVec 3) (b : Fin 3) (hm : m.getLsbD b = true) (hsend : s.r CFD.TX_STATE ch b = 2) :
    ((s.forN 3 (cancelled m ch)).canX ch).cancels.getLsbD b = true := by
  have h0 := fun v => cancelled_marks m ch v 0
  have h1 := fun v => cancelled_marks m ch v 1
  have h2 := fun v => cancelled_marks m ch v 2
  have k0 := fun v => cancelled_state m ch v 0
  have k1 := fun v => cancelled_state m ch v 1
  show ((cancelled m ch (cancelled m ch (cancelled m ch s (0 : Fin 3)) (1 : Fin 3)) (2 : Fin 3)).canX ch).cancels.getLsbD b = true
  rw [h2, h1, h0, k1, k0, k0]
  fin_cases b
  · exact Bool.or_eq_true_iff.mpr (.inl (Bool.or_eq_true_iff.mpr (.inl (Bool.or_eq_true_iff.mpr (.inr (decide_eq_true ⟨rfl, hm, hsend⟩))))))
  · exact Bool.or_eq_true_iff.mpr (.inl (Bool.or_eq_true_iff.mpr (.inr (decide_eq_true ⟨rfl, hm, hsend⟩))))
  · exact Bool.or_eq_true_iff.mpr (.inr (decide_eq_true ⟨rfl, hm, hsend⟩))

theorem txReq_requests (htakes : Takes s r ⟨24, ch⟩) (m : BitVec 3) : Gives (.txReq t r ch m) s (fun u => ∀ b : Fin 3, u.r CFD.TX_STATE ch b =
    if m.getLsbD b = true ∧ s.r CFD.TX_STATE ch b ≠ 1 ∧ s.r CFD.TX_STATE ch b ≠ 2 then 1 else s.r CFD.TX_STATE ch b) := by
  refine ⟨_, cmdK_seen htakes t _, fun b => ?_⟩
  rw [r_keepK]
  refine (forN_state (F := requested m ch) (requested_state m ch) b).trans ?_
  rw [beside_seen s t ch CFD.TX_STATE b ((show ∀ b : Fin 3, CFD.TX_STATE.key 0 b ∉ [(hdr HDR.COUNT ⟨24, 0⟩).key 0 0] by decide) b)]
  rfl

theorem cancel_cancels (htakes : Takes s r ⟨24, ch⟩) (m : BitVec 3) : Gives (.cancel t r ch m) s (fun u => ∀ b : Fin 3,
    u.r CFD.TX_STATE ch b = (if m.getLsbD b = true ∧ s.r CFD.TX_STATE ch b = 1 then 4 else s.r CFD.TX_STATE ch b) ∧
    (m.getLsbD b = true → s.r CFD.TX_STATE ch b = 2 → (u.canX ch).cancels.getLsbD b = true)) := by
  have hst : ∀ b : Fin 3, (writeSeen s t ⟨24, ch⟩).r CFD.TX_STATE ch b = s.r CFD.TX_STATE ch b := fun b =>
    beside_seen s t ch CFD.TX_STATE b ((show ∀ b : Fin 3, CFD.TX_STATE.key 0 b ∉ [(hdr HDR.COUNT ⟨24, 0⟩).key 0 0] by decide) b)
  refine ⟨_, cmdK_seen htakes t _, fun b => ⟨?_, fun hm hsend => ?_⟩⟩
  · rw [r_keepK]
    refine (forN_state (F := cancelled m ch) (cancelled_state m ch) b).trans ?_
    rw [hst]
    rfl
  · exact forN_marks (s := writeSeen s t ⟨24, ch⟩) m b hm ((hst b).trans hsend)

theorem rxAck_frees (htakes : Takes s r ⟨24, ch⟩) (hlen : (s.canX ch).rxq.length ≤ 33) : Gives (.rxAck t r ch) s (fun u =>
    (u.canX ch).rxq = (s.canX ch).rxq.drop 1 ∧ u.r CFD.RX_FILL ch = (s.canX ch).rxq.length - 1) := by
  refine ⟨_, cmdK_seen htakes t _, ?_⟩
  beta_reduce
  extract_lets x q
  have hq : q = (s.canX ch).rxq.drop 1 := congrArg (fun y : CanX => y.rxq.drop 1) (canX_congr (can_seen s t ch))
  have hfill : q.length < 2 ^ CFD.RX_FILL.width := by
    rw [hq, List.length_drop]
    exact Nat.lt_of_le_of_lt (Nat.sub_le_sub_right hlen 1) (by decide)
  unfold State.canLevel
  refine ⟨?_, ?_⟩
  · rw [← hq]
    refine (congrArg CanX.rxq (canX_congr (u := _) ?_)).trans (congrArg CanX.rxq (canX_setCan (writeSeen s t ⟨24, ch⟩) ch { x with rxq := q }))
    rw [keepK_can, setRaw_can, w_can]
  · rw [r_keepK, r_setRaw_apart (by decide) (by decide), r_w_val hfill (by decide), hq, List.length_drop]

theorem recover_starts (htakes : Takes s r ⟨24, ch⟩) (hoff : s.r CFD.ERR_STATE ch = 2) :
    Gives (.recover t r ch) s (fun u => u.r CFD.ERR_STATE ch = 3 ∧ u.r CFD.TEC ch = s.r CFD.TEC ch) := by
  have hoff' : (writeSeen s t ⟨24, ch⟩).r CFD.ERR_STATE ch = 2 := (beside_seen s t ch CFD.ERR_STATE 0 (by decide)).trans hoff
  refine ⟨_, (cmdK_seen htakes t _).trans (congrArg (fun u => Host.Outcome.next (s.keepK u)) (if_pos hoff')), ?_⟩
  unfold State.canLevel
  beta_reduce
  refine ⟨?_, ?_⟩
  · rw [r_keepK, r_setRaw_apart (by decide) (by decide)]
    exact r_w_val (f := CFD.ERR_STATE) (by decide) (by decide)
  · rw [r_keepK, r_setRaw_apart (by decide) (by decide), r_w_apart (by decide)]
    exact beside_seen s t ch CFD.TEC 0 (by decide)

theorem recover_refused (htakes : Takes s r ⟨24, ch⟩) (hon : s.r CFD.ERR_STATE ch ≠ 2) :
    Gives (.recover t r ch) s (fun u => u.r CFD.ERR_STATE ch = s.r CFD.ERR_STATE ch ∧ u.r CFD.REFUSE_CAUSE ch = 4 ∧
      u.r CFD.REFUSED ch = min (s.r CFD.REFUSED ch + 1) (2 ^ 16 - 1)) := by
  have hon' : ¬ (writeSeen s t ⟨24, ch⟩).r CFD.ERR_STATE ch = 2 := by rwa [beside_seen s t ch CFD.ERR_STATE 0 (by decide)]
  refine ⟨_, (cmdK_seen htakes t _).trans (congrArg (fun u => Host.Outcome.next (s.keepK u)) (if_neg hon')), ?_, ?_, ?_⟩
  · rw [r_keepK, r_inc_apart (by decide), r_w_apart (by decide), beside_seen s t ch CFD.ERR_STATE 0 (by decide)]
  · rw [r_keepK, r_inc_apart (by decide)]
    exact r_w_val (f := CFD.REFUSE_CAUSE) (by decide) (by decide)
  · rw [r_keepK, r_inc_same _ _ _ _ _ (by decide), r_w_apart (by decide), beside_seen s t ch CFD.REFUSED 0 (by decide)]
    rfl

theorem cfdCtrClr_clears (htakes : Takes s r ⟨24, ch⟩) : Gives (.cfdCtrClr t r ch) s (fun u => u.r CFD.RX_LOST ch = 0 ∧ u.r CFD.TX_ERRS ch = 0 ∧
    u.r CFD.RX_ERRS ch = 0 ∧ u.r CFD.TEC ch = s.r CFD.TEC ch ∧ u.can = s.can) := by
  refine ⟨_, cmdK_seen htakes t _, ?_, ?_, ?_, ?_, rfl⟩
  · rw [r_keepK, r_rstF_apart (by decide), r_rstF_apart (by decide)]
    exact HostQueueLaws.r_rstF_same _ (by decide)
  · rw [r_keepK, r_rstF_apart (by decide)]
    exact HostQueueLaws.r_rstF_same _ (by decide)
  · rw [r_keepK]
    exact HostQueueLaws.r_rstF_same _ (by decide)
  · rw [r_keepK, r_rstF_apart (by decide), r_rstF_apart (by decide), r_rstF_apart (by decide), beside_seen s t ch CFD.TEC 0 (by decide)]

/-! ### Traffic (R413 to R425) -/

theorem canIntegrated_ends (hon : s.islandOn .field = true) (hdue : (s.canX ch).waitAt + s.nomNs ch 11 ≤ (s.tick t).up) :
    Gives (.canIntegrated t ch) s (fun u => (u.canX ch).integrating = false ∧ (u.canX ch).rxq = (s.canX ch).rxq ∧ u.regs = s.regs) := by
  have hdue' : ¬ (s.tick t).up < ((s.tick t).canX ch).waitAt + (s.tick t).nomNs ch 11 := Nat.not_lt.mpr hdue
  refine ⟨_, (runK_on hon t _).trans (congrArg (fun u => Host.Outcome.next (s.keepK u)) (if_neg hdue')), ?_, ?_, rfl⟩
  · exact congrArg CanX.integrating (canX_setCan _ _ _)
  · exact (congrArg CanX.rxq (canX_setCan (s.tick t) ch { s.canX ch with integrating := false })).trans rfl

theorem canSelection_selects {b : Fin 3} (hon : s.islandOn .field = true) (hsends : s.canSends ch = true) (hidle : (s.canX ch).sending = none)
    (hwin : s.arbWinner ch = some b.val) : Gives (.canSelection t ch) s (fun u => u.r CFD.TX_STATE ch b = 2 ∧ (u.canX ch).sending = some b.val ∧
      u.r CFD.ATTEMPTS ch b = min (s.r CFD.ATTEMPTS ch b + 1) (2 ^ 8 - 1)) := by
  have hmay : ((s.tick t).canSends ch && ((s.tick t).canX ch).sending.isNone) = true := by
    rw [show (s.tick t).canSends ch = s.canSends ch from rfl, hsends, show (s.tick t).canX ch = s.canX ch from rfl, hidle]
    rfl
  have hwin' : (s.tick t).arbWinner ch = some b.val := hwin
  have hexec : exec (.canSelection t ch) s = .next (s.keepK ((((s.tick t).w CFD.TX_STATE 2 ch b).inc CFD.ATTEMPTS ch b).setCan ch
      { s.canX ch with sending := some b.val })) := by
    refine (runK_on hon t _).trans (congrArg (fun u => Host.Outcome.next (s.keepK u)) ((if_pos hmay).trans ?_))
    rw [hwin']
    rfl
  refine ⟨_, hexec, ?_, ?_, ?_⟩
  · rw [r_keepK, r_setCan, r_inc_apart (stateKey_ne_attempts b b)]
    exact r_w_val (f := CFD.TX_STATE) (by decide) (by decide)
  · exact congrArg CanX.sending (canX_setCan _ _ _)
  · rw [r_keepK, r_setCan, r_inc_same _ _ _ _ _ (by decide), r_w_apart (stateKey_ne_attempts b b).symm]
    rfl

/-- The end of an attempt of buffer `b` (R414, R417). -/
def attempted (s : State) (ch : Fin 16) (b : Nat) (a : CanAttempt) : State :=
  (s.measureTdc ch b a.delay).attemptEnd ch b (s.attemptRes ch b a.res a.delay) a.back

/-- The buffer of an attempt is free again, and its cancel mark is gone (R416, R418). -/
def freed (s : State) (ch : Fin 16) (b : Nat) : State :=
  let x := s.canX ch
  s.setCan ch { x with sending := none, cancels := x.cancels &&& ~~~(1#3 <<< b) }

theorem exec_canTxAttemptEnd {a : CanAttempt} {b : Nat} (hon : s.islandOn .field = true) (hsend : (s.canX ch).sending = some b) :
    exec (.canTxAttemptEnd t ch a) s = .next (s.keepK (freed (attempted (s.tick t) ch b a) ch b)) := by
  refine (runK_on hon t _).trans (congrArg (fun u => Host.Outcome.next (s.keepK u)) ?_)
  rw [show (s.tick t).canX ch = s.canX ch from rfl, hsend]
  rfl

theorem r_freed (s v : State) (ch : Fin 16) (b : Nat) (g : Fld) (i : Nat) : (s.keepK (freed v ch b)).r g ch i = v.r g ch i := rfl

theorem sending_freed (s v : State) (ch : Fin 16) (b : Nat) : ((s.keepK (freed v ch b)).canX ch).sending = none :=
  congrArg CanX.sending (canX_setCan v ch _)

/-- Where the measured delay fits or shows none, the attempt counts as it came (R414). -/
theorem attemptRes_same {b : Nat} {delay : Option Nat} (h : delay.getD 0 ≤ 127) (res : CanTxResult) : s.attemptRes ch b res delay = res := by
  unfold State.attemptRes
  rw [decide_eq_false (Nat.not_lt.mpr h), Bool.and_false]
  exact if_neg Bool.false_ne_true

/-- A success ends the request, and the counters follow (R417, R421, R422, R425). -/
theorem attemptEnd_success (s : State) (b : Fin 3) (back : Nat) (hmode : s.r CFD.MODE ch ≠ 3) :
    (s.attemptEnd ch b .success back).r CFD.TX_STATE ch b = 3 ∧ (s.attemptEnd ch b .success back).r CFD.TX_TS ch b = (s.sofTs ch back).toNat ∧
    (s.attemptEnd ch b .success back).r CFD.ACK_RUN ch = 0 ∧ (s.attemptEnd ch b .success back).r CFD.TEC ch = min (s.r CFD.TEC ch - 1) 511 := by
  unfold State.attemptEnd
  dsimp -zeta only
  extract_lets c v x y z
  have hvr : v.r CFD.TEC ch = s.r CFD.TEC ch ∧ v.r CFD.MODE ch = s.r CFD.MODE ch := ⟨rfl, rfl⟩
  have hvcan : (v.canX ch).sofTs = s.sofTs ch back := congrArg CanX.sofTs (canX_setCan s ch { c with sofTs := s.sofTs ch back })
  clear_value v
  obtain ⟨hvtec, hvmode⟩ := hvr
  have hrun : ∀ g ∈ [CFD.TEC, CFD.MODE], g.key 0 0 ≠ CFD.ID_RUN.key 0 b :=
    (show ∀ b : Fin 3, ∀ g ∈ [CFD.TEC, CFD.MODE], g.key 0 0 ≠ CFD.ID_RUN.key 0 b by decide) b
  have hbuf : ∀ g ∈ [CFD.TEC, CFD.MODE, CFD.ACK_RUN], g.key 0 0 ≠ CFD.TX_STATE.key 0 b ∧ g.key 0 0 ≠ CFD.TX_TS.key 0 b :=
    (show ∀ b : Fin 3, ∀ g ∈ [CFD.TEC, CFD.MODE, CFD.ACK_RUN], g.key 0 0 ≠ CFD.TX_STATE.key 0 b ∧ g.key 0 0 ≠ CFD.TX_TS.key 0 b by decide) b
  have hxr : ∀ g ∈ [CFD.TEC, CFD.MODE], x.r g ch = v.r g ch := fun g hg =>
    (beside_setAckRun _ ch 0 g 0 ((show ∀ g ∈ [CFD.TEC, CFD.MODE], g.key 0 0 ∉ ackKeys by decide) g hg)).trans (r_w_apart (hrun g hg) _)
  have hack : x.r CFD.ACK_RUN ch = 0 := setAckRun_zero _ _
  have hxcan : x.can = v.can := (can_setAckRun _ _ _).trans (w_can _ _ _ _ _)
  have hycan : y.can = x.can := can_canCount _ _ _ _
  have hyr := beside_canCount x ch (x.r CFD.TEC ch - 1) (x.r CFD.REC ch)
  have hytec : y.r CFD.TEC ch = min (s.r CFD.TEC ch - 1) 511 := by
    rw [(canCount_counts x ch _ _).1, hxr _ (by decide), hvtec]
  have hyack : y.r CFD.ACK_RUN ch = 0 := (hyr CFD.ACK_RUN 0 (by decide)).trans hack
  have hymode : y.r CFD.MODE ch = s.r CFD.MODE ch := (hyr CFD.MODE 0 (by decide)).trans ((hxr _ (by decide)).trans hvmode)
  have hts : (y.canX ch).sofTs = s.sofTs ch back := by rw [canX_congr (hycan.trans hxcan), hvcan]
  clear_value y
  have hzr : ∀ g ∈ [CFD.TEC, CFD.MODE, CFD.ACK_RUN], z.r g ch = y.r g ch := fun g hg => by
    obtain ⟨hst, hstamp⟩ := hbuf g hg
    exact (r_raise_apart ((show ∀ g ∈ [CFD.TEC, CFD.MODE, CFD.ACK_RUN], g.key 0 0 ≠ pendKey 24 0 1 by decide) g hg) _ _).trans
      ((r_w_apart hstamp _).trans (r_w_apart hst _))
  have hzst : z.r CFD.TX_STATE ch b = 3 := by
    refine (r_raise_apart ((show ∀ b : Fin 3, CFD.TX_STATE.key 0 b ≠ pendKey 24 0 1 by decide) b) _ _).trans ((r_w_apart ?_ _).trans ?_)
    · exact (show ∀ b : Fin 3, CFD.TX_STATE.key 0 b ≠ CFD.TX_TS.key 0 b by decide) b
    · exact r_w_val (f := CFD.TX_STATE) (by decide) (by decide)
  have hzts : z.r CFD.TX_TS ch b = (s.sofTs ch back).toNat := by
    refine (r_raise_apart ((show ∀ b : Fin 3, CFD.TX_TS.key 0 b ≠ pendKey 24 0 1 by decide) b) _ _).trans ?_
    rw [hts]
    exact r_w_val (f := CFD.TX_TS) (BitVec.isLt _) (by decide)
  rw [if_neg (by rw [hzr _ (by decide), hymode]; exact hmode)]
  exact ⟨hzst, hzts, (hzr _ (by decide)).trans hyack, (hzr _ (by decide)).trans hytec⟩

/-- What measuring the delay leaves of a channel (R414). -/
theorem measured (s : State) (ch : Fin 16) (b : Nat) (delay : Option Nat) (back : Nat) :
    (∀ (g : Fld) (k : Nat), g.key 0 k ≠ CFD.TDC_VAL.key 0 0 → (s.measureTdc ch b delay).r g ch k = s.r g ch k) ∧
    (s.measureTdc ch b delay).canX ch = s.canX ch ∧ (s.measureTdc ch b delay).sofTs ch back = s.sofTs ch back := by
  have hr : ∀ (g : Fld) (k : Nat), g.key 0 k ≠ CFD.TDC_VAL.key 0 0 → (s.measureTdc ch b delay).r g ch k = s.r g ch k := fun g k hg =>
    beside_measureTdc s ch b delay g k fun h => hg (List.mem_singleton.mp h)
  obtain ⟨hcan, hct⟩ := measureTdc_keeps s ch b delay
  refine ⟨hr, canX_congr hcan, ?_⟩
  rw [State.sofTs, hct, hr CFD.TS_SHIFT 0 (by decide)]
  rfl

theorem canTx_success {b : Fin 3} {back : Nat} {delay : Option Nat} (hon : s.islandOn .field = true) (hsend : (s.canX ch).sending = some b.val)
    (hfits : delay.getD 0 ≤ 127) (hmode : s.r CFD.MODE ch ≠ 3) : Gives (.canTxAttemptEnd t ch ⟨.success, back, delay⟩) s (fun u =>
      u.r CFD.TX_STATE ch b = 3 ∧ (u.canX ch).sending = none ∧ u.r CFD.TX_TS ch b = ((s.tick t).sofTs ch back).toNat ∧ u.r CFD.ACK_RUN ch = 0 ∧
      u.r CFD.TEC ch = min (s.r CFD.TEC ch - 1) 511) := by
  refine ⟨_, exec_canTxAttemptEnd hon hsend, ?_⟩
  obtain ⟨hr, -, hts⟩ := measured (s.tick t) ch b delay back
  obtain ⟨hst, hstamp, hack, htec⟩ := attemptEnd_success ((s.tick t).measureTdc ch b delay) b back
    (by rw [hr CFD.MODE 0 (by decide)]; exact hmode)
  rw [sending_freed, r_freed, r_freed, r_freed, r_freed, attempted, attemptRes_same hfits, hst, hstamp, hack, htec, hts, hr CFD.TEC 0 (by decide)]
  exact ⟨rfl, rfl, rfl, rfl, rfl⟩

/-- An attempt that loses arbitration without a cancel mark makes its buffer PENDING again (R417). -/
theorem attemptEnd_lost (s : State) (b : Fin 3) (back : Nat) (hmark : (s.canX ch).cancels.getLsbD b = false) :
    (s.attemptEnd ch b .lostArbitration back).r CFD.TX_STATE ch b = 1 ∧ (s.attemptEnd ch b .lostArbitration back).r CFD.TEC ch = s.r CFD.TEC ch := by
  have hmark' : ¬ ((s.w CFD.ID_RUN 0 ch b).canX ch).cancels.getLsbD b = true := by
    rw [canX_congr (w_can _ _ _ _ _), hmark]
    decide
  have hend : s.attemptEnd ch b .lostArbitration back = (s.w CFD.ID_RUN 0 ch b).w CFD.TX_STATE 1 ch b :=
    congrArg (fun n => (s.w CFD.ID_RUN 0 ch b).w CFD.TX_STATE n ch b) (if_neg hmark')
  have hapart : CFD.TEC.key 0 0 ≠ CFD.TX_STATE.key 0 b ∧ CFD.TEC.key 0 0 ≠ CFD.ID_RUN.key 0 b :=
    (show ∀ b : Fin 3, CFD.TEC.key 0 0 ≠ CFD.TX_STATE.key 0 b ∧ CFD.TEC.key 0 0 ≠ CFD.ID_RUN.key 0 b by decide) b
  rw [hend]
  exact ⟨r_w_val (f := CFD.TX_STATE) (by decide) (by decide), (r_w_apart hapart.1 _).trans (r_w_apart hapart.2 _)⟩

/-- An attempt in error counts whatever becomes of its buffer (R417, R422). -/
theorem attemptEnd_counts (s : State) (b : Fin 3) (back : Nat) : (s.attemptEnd ch b .otherError back).r CFD.TX_ERRS ch = min (s.r CFD.TX_ERRS ch + 1) (2 ^ 16 - 1) ∧
    (s.attemptEnd ch b .otherError back).r CFD.TEC ch = min (s.r CFD.TEC ch + 8) 511 := by
  have hfail := beside_attemptFailed ((s.w CFD.ID_RUN 0 ch b).txError ch true) ch b false
  obtain ⟨herr, htec⟩ := txError_counts (s.w CFD.ID_RUN 0 ch b) ch
  have hapart : ∀ g ∈ [CFD.TX_ERRS, CFD.TEC], g.key 0 0 ∉ failKeys b ∧ g.key 0 0 ≠ CFD.ID_RUN.key 0 b :=
    (show ∀ b : Fin 3, ∀ g ∈ [CFD.TX_ERRS, CFD.TEC], g.key 0 0 ∉ failKeys b ∧ g.key 0 0 ≠ CFD.ID_RUN.key 0 b by decide) b
  refine ⟨?_, ?_⟩
  · refine (hfail CFD.TX_ERRS 0 (hapart _ (by decide)).1).trans (herr.trans ?_)
    rw [r_w_apart (hapart CFD.TX_ERRS (by decide)).2]
  · refine (hfail CFD.TEC 0 (hapart _ (by decide)).1).trans (htec.trans ?_)
    rw [r_w_apart (hapart CFD.TEC (by decide)).2]

/-- An attempt in error under ONE_SHOT and no cancel mark ends its buffer's request (R417). -/
theorem attemptEnd_oneShot (s : State) (b : Fin 3) (back : Nat) (hmark : (s.canX ch).cancels.getLsbD b = false) (hone : s.on CFD.ONE_SHOT ch = true) :
    (s.attemptEnd ch b .otherError back).r CFD.TX_STATE ch b = 6 := by
  have hapart : CFD.ONE_SHOT.key 0 0 ≠ CFD.ID_RUN.key 0 b := (show ∀ b : Fin 3, CFD.ONE_SHOT.key 0 0 ≠ CFD.ID_RUN.key 0 b by decide) b
  refine attemptFailed_oneShot ((s.w CFD.ID_RUN 0 ch b).txError ch true) b ?_ ?_
  · rw [canX_congr ((can_txError _ _ _).trans (w_can _ _ _ _ _)), hmark]
  · exact (on_congr ((beside_txError _ ch true CFD.ONE_SHOT 0 (by decide)).trans (r_w_apart hapart _))).trans hone

theorem canTx_lost {b : Fin 3} {back : Nat} {delay : Option Nat} (hon : s.islandOn .field = true) (hsend : (s.canX ch).sending = some b.val)
    (hfits : delay.getD 0 ≤ 127) (hmark : (s.canX ch).cancels.getLsbD b = false) :
    Gives (.canTxAttemptEnd t ch ⟨.lostArbitration, back, delay⟩) s (fun u =>
      u.r CFD.TX_STATE ch b = 1 ∧ (u.canX ch).sending = none ∧ u.r CFD.TEC ch = s.r CFD.TEC ch) := by
  refine ⟨_, exec_canTxAttemptEnd hon hsend, ?_⟩
  obtain ⟨hr, hx, -⟩ := measured (s.tick t) ch b delay back
  obtain ⟨hst, htec⟩ := attemptEnd_lost ((s.tick t).measureTdc ch b delay) b back (by rw [hx]; exact hmark)
  rw [sending_freed, r_freed, r_freed, attempted, attemptRes_same hfits, hst, htec, hr CFD.TEC 0 (by decide)]
  exact ⟨rfl, rfl, rfl⟩

theorem canTx_error {b : Fin 3} {back : Nat} {delay : Option Nat} (hon : s.islandOn .field = true) (hsend : (s.canX ch).sending = some b.val)
    (hfits : delay.getD 0 ≤ 127) (hmark : (s.canX ch).cancels.getLsbD b = false) (hone : s.on CFD.ONE_SHOT ch = true) :
    Gives (.canTxAttemptEnd t ch ⟨.otherError, back, delay⟩) s (fun u => u.r CFD.TX_STATE ch b = 6 ∧
      u.r CFD.TEC ch = min (s.r CFD.TEC ch + 8) 511 ∧ u.r CFD.TX_ERRS ch = min (s.r CFD.TX_ERRS ch + 1) (2 ^ 16 - 1)) := by
  refine ⟨_, exec_canTxAttemptEnd hon hsend, ?_⟩
  obtain ⟨hr, hx, -⟩ := measured (s.tick t) ch b delay back
  have hst := attemptEnd_oneShot ((s.tick t).measureTdc ch b delay) b back (by rw [hx]; exact hmark) ((on_congr (hr CFD.ONE_SHOT 0 (by decide))).trans hone)
  obtain ⟨herr, htec⟩ := attemptEnd_counts (ch := ch) ((s.tick t).measureTdc ch b delay) b back
  rw [r_freed, r_freed, r_freed, attempted, attemptRes_same hfits, hst, herr, htec, hr CFD.TEC 0 (by decide), hr CFD.TX_ERRS 0 (by decide)]
  exact ⟨rfl, rfl, rfl⟩

/-- A delay that 7 bits hold shows in TDC_VAL (R414). -/
theorem canTx_measures {b : Fin 3} {back d : Nat} {res : CanTxResult} (hon : s.islandOn .field = true) (hsend : (s.canX ch).sending = some b.val)
    (hen : s.on CFD.TDC_EN ch = true) (hfd : s.on CFD.FDF ch b = true) (hfits : d ≤ 127) :
    Gives (.canTxAttemptEnd t ch ⟨res, back, some d⟩) s (fun u => u.r CFD.TDC_VAL ch = d) := by
  refine ⟨_, exec_canTxAttemptEnd hon hsend, ?_⟩
  have hmeasure : (s.tick t).measureTdc ch b (some d) = (s.tick t).w CFD.TDC_VAL d ch := by
    have hmay : ((s.tick t).on CFD.TDC_EN ch && (s.tick t).on CFD.FDF ch b) = true := by
      rw [show (s.tick t).on CFD.TDC_EN ch = true from hen, show (s.tick t).on CFD.FDF ch b = true from hfd]
      rfl
    exact (if_pos hmay).trans (if_pos hfits)
  have hapart : CFD.TDC_VAL.key 0 0 ∉ attemptKeys b := (show ∀ b : Fin 3, CFD.TDC_VAL.key 0 0 ∉ attemptKeys b by decide) b
  beta_reduce
  rw [r_freed, attempted, hmeasure, beside_attemptEnd _ ch b _ back CFD.TDC_VAL 0 hapart]
  exact r_w_val (f := CFD.TDC_VAL) (Nat.lt_of_le_of_lt hfits (by decide)) (by decide)

/-- A delay that 7 bits do not hold is an error of the attempt (R414). -/
theorem canTx_tooLate {b : Fin 3} {back d : Nat} {res : CanTxResult} (hon : s.islandOn .field = true) (hsend : (s.canX ch).sending = some b.val)
    (hen : s.on CFD.TDC_EN ch = true) (hfd : s.on CFD.FDF ch b = true) (hlate : 127 < d) :
    Gives (.canTxAttemptEnd t ch ⟨res, back, some d⟩) s (fun u => u.r CFD.TX_ERRS ch = min (s.r CFD.TX_ERRS ch + 1) (2 ^ 16 - 1) ∧
      u.r CFD.TEC ch = min (s.r CFD.TEC ch + 8) 511) := by
  refine ⟨_, exec_canTxAttemptEnd hon hsend, ?_⟩
  have hres : (s.tick t).attemptRes ch b res (some d) = .otherError := by
    refine if_pos ?_
    rw [show (s.tick t).on CFD.TDC_EN ch = true from hen, show (s.tick t).on CFD.FDF ch b = true from hfd]
    exact decide_eq_true hlate
  obtain ⟨hr, -, -⟩ := measured (s.tick t) ch b (some d) back
  obtain ⟨herr, htec⟩ := attemptEnd_counts (ch := ch) ((s.tick t).measureTdc ch b (some d)) b back
  beta_reduce
  rw [r_freed, r_freed, attempted, hres, herr, htec, hr CFD.TEC 0 (by decide), hr CFD.TX_ERRS 0 (by decide)]
  exact ⟨rfl, rfl⟩

/-! ### Frames and errors of the bus (R419 to R423) -/

/-- What the counters make of a valid frame leaves the fields beside theirs and the queues (R422, R425). -/
theorem heard_keeps (s : State) (ch : Fin 16) : Beside (ackKeys ++ countKeys) ch s ((s.setAckRun ch 0).rxDown ch) ∧
    ((s.setAckRun ch 0).rxDown ch).can = s.can ∧ ((s.setAckRun ch 0).rxDown ch).ct = s.ct := by
  have hack : Beside (ackKeys ++ countKeys) ch s (s.setAckRun ch 0) := (beside_setAckRun s ch 0).mono fun _ hk => List.mem_append_left _ hk
  have hcount : ∀ tec rec_, Beside (ackKeys ++ countKeys) ch s ((s.setAckRun ch 0).canCount ch tec rec_) := fun tec rec_ =>
    hack.trans ((beside_canCount _ ch tec rec_).mono fun _ hk => List.mem_append_right _ hk)
  have hcan : ∀ tec rec_, ((s.setAckRun ch 0).canCount ch tec rec_).can = s.can := fun tec rec_ => (can_canCount _ _ _ _).trans (can_setAckRun _ _ _)
  have hct : ∀ tec rec_, ((s.setAckRun ch 0).canCount ch tec rec_).ct = s.ct := fun tec rec_ => (ct_canCount _ _ _ _).trans (ct_setAckRun _ _ _)
  unfold State.rxDown
  extract_lets n
  split
  · rw [fresh_can, fresh_ct]
    exact ⟨(hcount _ _).of_regs (fresh_regs _), hcan _ _, hct _ _⟩
  · exact ⟨hcount _ _, hcan _ _, hct _ _⟩

/-- A frame that a channel hears is filtered as the registers stand (R419). -/
theorem heard_filter (s : State) (ch : Fin 16) (f : CanFrame) : ((s.setAckRun ch 0).rxDown ch).canFilter ch f = s.canFilter ch f := by
  refine canFilter_congr fun g hg i => (heard_keeps s ch).1 g i (key_beyond ?_ i)
  exact (show ∀ g ∈ [CFD.F_EN, CFD.F_IDE, CFD.F_ID, CFD.F_MASK], ∀ k ∈ ackKeys ++ countKeys, k < g.key 0 0 by decide) g hg

theorem exec_canFrameRx {f : CanFrame} {back : Nat} (hon : s.islandOn .field = true) (hbus : s.onBus ch = true) (hmode : s.r CFD.MODE ch ≠ 3) :
    exec (.canFrameRx t ch ⟨f, back⟩) s =
      .next (s.keepK ((((s.tick t).setAckRun ch 0).rxDown ch).canAccept ch f ((s.tick t).sofTs ch back))) := by
  obtain ⟨hr, -, hct⟩ := heard_keeps (s.tick t) ch
  have hts : (((s.tick t).setAckRun ch 0).rxDown ch).sofTs ch back = (s.tick t).sofTs ch back := by
    rw [State.sofTs, hct, hr CFD.TS_SHIFT 0 (by decide)]
    rfl
  have hmay : (s.tick t).onBus ch = true ∧ (s.tick t).r CFD.MODE ch ≠ 3 := ⟨hbus, hmode⟩
  rw [← hts]
  exact (runK_on hon t _).trans (congrArg (fun u => Host.Outcome.next (s.keepK u)) (if_pos hmay))

theorem canFrameRx_queues {f : CanFrame} {back i : Nat} (hon : s.islandOn .field = true) (hbus : s.onBus ch = true) (hmode : s.r CFD.MODE ch ≠ 3)
    (hfilter : s.canFilter ch f = some i) (hroom : (s.canX ch).rxq.length < 32) : Gives (.canFrameRx t ch ⟨f, back⟩) s (fun u =>
      (u.canX ch).rxq = (s.canX ch).rxq ++ [{ frame := f, filter := i, ts := (s.tick t).sofTs ch back }] ∧
      u.r CFD.RX_FILL ch = (s.canX ch).rxq.length + 1 ∧ u.r CFD.RX_LOST ch = s.r CFD.RX_LOST ch) := by
  refine ⟨_, exec_canFrameRx hon hbus hmode, ?_⟩
  obtain ⟨hr, hcan, -⟩ := heard_keeps (s.tick t) ch
  have hx : (((s.tick t).setAckRun ch 0).rxDown ch).canX ch = s.canX ch := canX_congr (s := s.tick t) hcan
  obtain ⟨hq, hfill, hlost⟩ := canAccept_queues (ts := (s.tick t).sofTs ch back) ((heard_filter (s.tick t) ch f).trans hfilter) (by rw [hx]; exact hroom)
  rw [hx] at hq hfill
  rw [r_keepK, r_keepK, canX_congr (keepK_can _ _), hq, hfill, hlost, hr CFD.RX_LOST 0 (by decide)]
  exact ⟨rfl, rfl, rfl⟩

theorem canFrameRx_loses {f : CanFrame} {back i : Nat} (hon : s.islandOn .field = true) (hbus : s.onBus ch = true) (hmode : s.r CFD.MODE ch ≠ 3)
    (hfilter : s.canFilter ch f = some i) (hfull : 32 ≤ (s.canX ch).rxq.length) : Gives (.canFrameRx t ch ⟨f, back⟩) s (fun u =>
      (u.canX ch).rxq = (s.canX ch).rxq ∧ u.r CFD.RX_LOST ch = min (s.r CFD.RX_LOST ch + 1) (2 ^ 16 - 1)) := by
  refine ⟨_, exec_canFrameRx hon hbus hmode, ?_⟩
  obtain ⟨hr, hcan, -⟩ := heard_keeps (s.tick t) ch
  have hx : (((s.tick t).setAckRun ch 0).rxDown ch).canX ch = s.canX ch := canX_congr (s := s.tick t) hcan
  obtain ⟨hkeep, hlost⟩ := canAccept_loses (ts := (s.tick t).sofTs ch back) ((heard_filter (s.tick t) ch f).trans hfilter) (by rw [hx]; exact hfull)
  rw [hr CFD.RX_LOST 0 (by decide)] at hlost
  rw [r_keepK, canX_congr (keepK_can _ _), canX_congr hkeep, hx]
  exact ⟨rfl, hlost⟩

theorem canFrameRx_ignores {f : CanFrame} {back : Nat} (hon : s.islandOn .field = true) (hbus : s.onBus ch = true) (hmode : s.r CFD.MODE ch ≠ 3)
    (hfilter : s.canFilter ch f = none) : Gives (.canFrameRx t ch ⟨f, back⟩) s (fun u =>
      (u.canX ch).rxq = (s.canX ch).rxq ∧ u.r CFD.RX_LOST ch = s.r CFD.RX_LOST ch) := by
  refine ⟨_, exec_canFrameRx hon hbus hmode, ?_⟩
  obtain ⟨hr, hcan, -⟩ := heard_keeps (s.tick t) ch
  have hx : (((s.tick t).setAckRun ch 0).rxDown ch).canX ch = s.canX ch := canX_congr (s := s.tick t) hcan
  rw [canAccept_none ((heard_filter (s.tick t) ch f).trans hfilter)]
  exact ⟨congrArg CanX.rxq hx, hr CFD.RX_LOST 0 (by decide)⟩

theorem canRxError_counts (hon : s.islandOn .field = true) (hbus : s.onBus ch = true) (hmode : s.r CFD.MODE ch = 1) (hactive : s.isStandby = false) :
    Gives (.canRxError t ch .error) s (fun u => u.r CFD.RX_ERRS ch = min (s.r CFD.RX_ERRS ch + 1) (2 ^ 16 - 1) ∧
      u.r CFD.REC ch = min (s.r CFD.REC ch + 1) 255) ∧
    Gives (.canRxError t ch .dominantAfterFlag) s (fun u => u.r CFD.REC ch = min (s.r CFD.REC ch + 8) 255) := by
  have hmay : (s.tick t).onBus ch = true ∧ (s.tick t).r CFD.MODE ch = 1 ∧ (!(s.tick t).isStandby) = true := by
    refine ⟨hbus, hmode, ?_⟩
    rw [show (s.tick t).isStandby = s.isStandby from rfl, hactive]
    rfl
  refine ⟨⟨_, (runK_on hon t _).trans (congrArg (fun u => Host.Outcome.next (s.keepK u)) (if_pos hmay)), ?_, ?_⟩,
    ⟨_, (runK_on hon t _).trans (congrArg (fun u => Host.Outcome.next (s.keepK u)) (if_pos hmay)), ?_⟩⟩
  · rw [r_keepK, beside_canCount _ ch _ _ CFD.RX_ERRS 0 (by decide)]
    exact r_inc_same _ _ _ _ _ (by decide)
  · rw [r_keepK, (canCount_counts _ _ _ _).2]
    rfl
  · beta_reduce
    rw [r_keepK, (canCount_counts _ _ _ _).2]
    rfl

theorem recovered_rejoins (hon : s.islandOn .field = true) (hrec : s.r CFD.ERR_STATE ch = 3)
    (hdue : (s.canX ch).waitAt + s.nomNs ch 1408 ≤ (s.tick t).up) : Gives (.recovered t ch) s (fun u => u.r CFD.ERR_STATE ch = 0 ∧
      u.r CFD.TEC ch = 0 ∧ u.r CFD.REC ch = 0 ∧ (u.canX ch).owed = false) := by
  have hmay : (s.tick t).r CFD.ERR_STATE ch = 3 ∧ ((s.tick t).canX ch).waitAt + (s.tick t).nomNs ch 1408 ≤ (s.tick t).up := ⟨hrec, hdue⟩
  refine ⟨_, (runK_on hon t _).trans (congrArg (fun u => Host.Outcome.next (s.keepK u)) (if_pos hmay)), ?_⟩
  unfold State.raiseCan
  beta_reduce
  extract_lets v c
  have hv : v.r CFD.ERR_STATE ch = 0 ∧ v.r CFD.TEC ch = 0 ∧ v.r CFD.REC ch = 0 := canCount_zero (r_w_val (f := CFD.ERR_STATE) (by decide) (by decide))
  obtain ⟨hst, htec, hrec⟩ := hv
  clear_value v
  rw [r_keepK, r_keepK, r_keepK, r_raise_apart (by decide), r_raise_apart (by decide), r_raise_apart (by decide)]
  refine ⟨hst, htec, hrec, ?_⟩
  have hcan : ∀ (w : State) pay, (s.keepK (w.raise 24 ch 9 pay)).can = w.can := fun w pay => by rw [keepK_can, raise_can]
  rw [canX_congr (hcan _ _), canX_setCan]

/-- Settles O48: the CAN channels, an instruction at a time. -/
theorem canChannels : Obligations.CanChannels := by
  unfold Obligations.CanChannels
  intro t r ch s
  refine ⟨fun htakes => ?_, canIntegrated_ends, fun b => canSelection_selects, fun b back delay hon hsend => ?_, fun f back hon hbus hmode => ?_,
    canRxError_counts, recovered_rejoins⟩
  · refine ⟨fun v hmode hm hoff => ⟨canModeWrite_refuses htakes hmode hm hoff, canModeWrite_enters htakes hmode hm hoff⟩,
      fun m => ⟨txReq_requests htakes m, cancel_cancels htakes m⟩, rxAck_frees htakes, recover_starts htakes, recover_refused htakes, cfdCtrClr_clears htakes⟩
  · refine ⟨fun hfits => ⟨canTx_success hon hsend hfits, canTx_lost hon hsend hfits, canTx_error hon hsend hfits⟩, ?_⟩
    rintro d res rfl hen hfd
    exact ⟨canTx_measures hon hsend hen hfd, canTx_tooLate hon hsend hen hfd⟩
  · exact ⟨fun i => canFrameRx_queues hon hbus hmode, fun i => canFrameRx_loses hon hbus hmode, canFrameRx_ignores hon hbus hmode⟩

end Sys2Proof.CanChannelLaws
end

section
/-! Motion axes: what the operations of an axis leave of its fields and make of its record (R326 to R343). -/

namespace Sys2Proof.AxisLaws

open Sys2Proof Sys2Proof.Machine Sys2Proof.Laws Sys2Proof.LogicPageLaws Sys2Proof.PageFieldLaws Sys2Proof.CanLaws

variable {s u : State} {t : Nat} {r : Requester} {a : Nat}

theorem axis_congr (h : u.axes = s.axes) : u.axis a = s.axis a := by
  rw [State.axis, h]
  rfl

/-! ### Two's complement (R5) -/

theorem sgn_eq_toInt (v : Word) : sgn 32 v.toNat = v.toInt := by
  rw [sgn, BitVec.toInt_eq_toNat_cond]
  have hlt := v.isLt
  split
  all_goals split
  all_goals omega

theorem bits_sgn {n : Nat} (hn : n < 2 ^ 32) : bits 32 (sgn 32 n) = n := by
  unfold bits sgn
  split
  all_goals omega

/-- A signed field that takes the value of another reads as it does. -/
theorem r_wi_ri {f g : Fld} (hf : f.width = 32) (hg : g.width = 32) (s v : State) (a : Nat) : (s.wi f (v.ri g a) a).r f a = v.r g a := by
  rw [State.wi, State.ri, hf, hg, bits_sgn (r_lt _ _ _ _), r_w_cut _ _ _ _ _ (Nat.le_of_eq hf), hf]
  exact Nat.mod_eq_of_lt (r_lt _ _ _ _)

/-! ### Standstill (R333, R335) -/

/-- The registers that follow a standstill. -/
def standKeys : List Nat :=
  [MPG.TARGET.key 0 0, MPG.TGT_NOW.key 0 0, MPG.VELOCITY.key 0 0, MPG.DEC_RAISED.key 0 0, MPG.AT_TARGET.key 0 0, MPG.MSTATE.key 0 0]

theorem beside_standstill (s : State) (a m : Nat) : Beside standKeys a s (s.standstill a m) := by
  unfold State.standstill State.mstate
  extract_lets x p v w
  have hv : Beside standKeys a s v := (Beside.refl s).of_regs rfl
  have hw : Beside standKeys a s w := ((hv.w _ (by decide)).w _ (by decide)).ite hv
  exact (((hw.w _ (by decide)).w _ (by decide)).w _ (by decide)).w _ (by decide)

/-- The record of an axis that stands (R333, R335). -/
def stood (x : AxisX) (p : Int) : AxisX :=
  { x with vel := 0, vFrac := 0, pFrac := 0, pos := p * 2 ^ 32, moving := false, stopping := false, stopHard := false, tgtOrg := false,
           decWritten := false, slowing := false, turning := false, homeWait := false, homeStart := if x.homeWait then p else x.homeStart }

theorem axis_standstill (s : State) (a m : Nat) : (s.standstill a m).axis a = stood (s.axis a) (s.ri MPG.POSITION a) := by
  unfold State.standstill State.mstate
  extract_lets x p v w
  have hw : w.axes = v.axes := by
    unfold w
    split
    · rw [State.wi, w_axes, State.wi, w_axes]
    · rfl
  rw [axis_congr (s := w) (by rw [w_axes, State.wb, w_axes, w_axes, w_axes]), axis_congr hw]
  exact axis_setAxis s a _

/-! ### Homing (R336, R337) -/

/-- The registers of a homing that fails. -/
def faultKeys : List Nat := [MPG.HOMED.key 0 0, MPG.HOME_CAUSE.key 0 0, pendKey 23 0 3]

theorem beside_homeFault (s : State) (a cause : Nat) : Beside faultKeys a s (s.homeFault a cause) := by
  unfold State.homeFault
  extract_lets x v
  have hv : Beside faultKeys a s v := (((Beside.refl s).of_regs rfl).w _ (by decide)).w _ (by decide)
  exact (Beside.refl s).ite (hv.raise (by decide) _ _)

/-- The record of an axis whose homing has failed, where one was under way (R337). -/
def faulted (x : AxisX) : AxisX := if x.homing = 0 then x else { x with homing := 0, homeWait := false }

theorem axis_homeFault (s : State) (a cause : Nat) : (s.homeFault a cause).axis a = faulted (s.axis a) := by
  unfold State.homeFault faulted
  extract_lets x v
  split
  · rfl
  · rw [axis_congr (s := v) (raise_axes _ _ _ _ _ _), axis_congr (s := s.setAxis a { x with homing := 0, homeWait := false }) (by rw [w_axes, w_axes])]
    exact axis_setAxis s a _

theorem faulted_homing (x : AxisX) : (faulted x).homing = 0 := by
  unfold faulted
  split
  next h => exact h
  next => rfl

theorem faulted_vel (x : AxisX) : (faulted x).vel = x.vel := by
  unfold faulted
  split
  · rfl
  · rfl

/-- A homing under way that fails shows its cause (R337). -/
theorem homeFault_faults {cause : Nat} (hrun : (s.axis a).homing ≠ 0) (hcause : cause < 8) : (s.homeFault a cause).r MPG.HOMED a = 0 ∧
    (s.homeFault a cause).r MPG.HOME_CAUSE a = cause := by
  unfold State.homeFault
  extract_lets x v
  rw [if_neg (show ¬ x.homing = 0 from hrun), r_raise_apart (by decide), r_raise_apart (by decide)]
  refine ⟨?_, r_w_val (f := MPG.HOME_CAUSE) hcause (by decide)⟩
  rw [r_w_apart (by decide)]
  exact r_w_val (f := MPG.HOMED) (by decide) (by decide)

end Sys2Proof.AxisLaws
end

section
/-! Motion axes: updates, targets, commands and inputs (R323 to R343). -/

namespace Sys2Proof.MotionLaws

open Sys2Proof Sys2Proof.Machine Sys2Proof.Laws Sys2Proof.LogicPageLaws Sys2Proof.PageFieldLaws Sys2Proof.CanLaws Sys2Proof.AxisLaws

variable {s u : State} {t : Nat} {r : Requester} {a : Fin 24}

theorem beside_seen (s : State) (t : Nat) (a : Fin 24) : Beside [(hdr HDR.COUNT ⟨23, 0⟩).key 0 0] a s (writeSeen s t ⟨23, a⟩) := fun _ _ hg =>
  r_seen_apart (fun heq => hg (List.mem_singleton.mpr heq)) t

theorem axis_seen (s : State) (t : Nat) (a : Fin 24) : (writeSeen s t ⟨23, a⟩).axis a = s.axis a := rfl

theorem axisOn_seen (s : State) (t : Nat) (a : Fin 24) : (writeSeen s t ⟨23, a⟩).axisOn a = s.axisOn a := by
  unfold State.axisOn writeSeen
  rw [PowerLaws.enabled_countWrite, PowerLaws.enabled_countWrite]
  rfl

/-- A field away from ENABLE leaves an axis on or off. -/
theorem axisOn_w {f : Fld} {i n j x : Nat} (hf : FieldPlaceLaws.place ((hdr HDR.ENABLE ⟨23, 0⟩).key 0 0) ≠ FieldPlaceLaws.place (f.key 0 i)) :
    (s.w f x j i).axisOn n = s.axisOn n := by
  have hen : ∀ m, (s.w f x j i).enabled 23 m = s.enabled 23 m := fun m => congrArg (· != 0) (FieldPlaceLaws.r_w_place hf x)
  rw [State.axisOn, State.axisOn, hen, hen]

theorem ri_setAxis (s : State) (n : Nat) (x : AxisX) (g : Fld) (j k : Nat) : (s.setAxis n x).ri g j k = s.ri g j k := rfl

/-! ### Targets and decelerations (R324, R325, R330, R332) -/

/-- The registers that a target in force moves. -/
def targetKeys : List Nat :=
  [MPG.AT_TARGET.key 0 0, MPG.REFUSE_CAUSE.key 0 0, MPG.REFUSED.key 0 0, pendKey 23 0 6]

theorem beside_refuseTarget (s : State) (a : Nat) : Beside targetKeys a s (s.refuseTarget a) := by
  unfold State.refuseTarget
  extract_lets c x v
  have hv : Beside targetKeys a s v := (((Beside.refl s).w _ (by decide)).w _ (by decide)).of_regs rfl
  exact (hv.w _ (by decide)).raise (by decide) _ _

/-- A target that comes into force leaves the fields beside its own (R324, R326). -/
theorem beside_newTarget (s : State) (a : Nat) (p : Int) : Beside (MPG.TGT_NOW.key 0 0 :: targetKeys) a s (s.newTarget a p) ∧
    (s.newTarget a p).r MPG.TGT_NOW a = bits 32 p := by
  have hset : (s.wi MPG.TGT_NOW p a).r MPG.TGT_NOW a = bits 32 p := by
    rw [State.wi, r_w_cut _ _ _ _ _ (by decide)]
    exact PowerLaws.bits_mod 32 p
  have hrest : Beside targetKeys a (s.wi MPG.TGT_NOW p a) (s.newTarget a p) := by
    unfold State.newTarget
    extract_lets old v x dir rem held turn
    refine (Beside.refl v).ite (((beside_refuseTarget v a)).ite ?_)
    exact (((Beside.refl v).of_regs rfl).w _ (by decide))
  exact ⟨((Beside.refl s).w _ List.mem_cons_self).trans (hrest.mono fun _ hk => List.mem_cons_of_mem _ hk),
    (hrest MPG.TGT_NOW 0 (by decide)).trans hset⟩

/-- A target is written, and comes into force where TARGET is its source (R324). -/
def targeted (s : State) (a : Fin 24) (p : Int) : State :=
  let w := s.wi MPG.TARGET p a
  if w.r MPG.TGT_SRC a = 0 then w.newTarget a p else w

/-- A target between the soft limits is taken as it is (R325). -/
theorem exec_targetWrite (htakes : Takes s r ⟨23, a⟩) {v : Word} (hlow : s.ri MPG.SOFT_LO a ≤ v.toInt) (hhigh : v.toInt ≤ s.ri MPG.SOFT_HI a) :
    exec (.targetWrite t r a v) s = .next (s.keepK (targeted (writeSeen s t ⟨23, a⟩) a v.toInt)) := by
  have hseen := beside_seen s t a
  have hlo : (writeSeen s t ⟨23, a⟩).ri MPG.SOFT_LO a = s.ri MPG.SOFT_LO a := ri_congr (hseen MPG.SOFT_LO 0 (by decide))
  have hhi : (writeSeen s t ⟨23, a⟩).ri MPG.SOFT_HI a = s.ri MPG.SOFT_HI a := ri_congr (hseen MPG.SOFT_HI 0 (by decide))
  have hclamp : clampI (s.ri MPG.SOFT_LO a) (s.ri MPG.SOFT_HI a) v.toInt = v.toInt := by
    unfold clampI
    rw [if_neg (not_lt.mpr hlow), if_neg (not_lt.mpr hhigh)]
  refine (cmdK_seen htakes t _).trans (congrArg (fun u => Host.Outcome.next (s.keepK u)) ?_)
  rw [sgn_eq_toInt, hlo, hhi]
  extract_lets +onlyGivenNames x p
  have hp : p = v.toInt := hclamp
  have hx : x = v.toInt := rfl
  clear_value p x
  rw [hp, hx, bne_self_eq_false]
  rfl

theorem targetWrite_sets (htakes : Takes s r ⟨23, a⟩) {v : Word} (hlow : s.ri MPG.SOFT_LO a ≤ v.toInt) (hhigh : v.toInt ≤ s.ri MPG.SOFT_HI a) :
    Gives (.targetWrite t r a v) s (fun u => u.r MPG.TARGET a = v.toNat ∧
      (s.r MPG.TGT_SRC a = 0 → u.r MPG.TGT_NOW a = v.toNat) ∧ (s.r MPG.TGT_SRC a ≠ 0 → u.r MPG.TGT_NOW a = s.r MPG.TGT_NOW a) ∧
      u.r MPG.POSITION a = s.r MPG.POSITION a) := by
  have hseen := beside_seen s t a
  have hbits : bits 32 v.toInt = v.toNat := by rw [← sgn_eq_toInt, bits_sgn v.isLt]
  refine ⟨_, exec_targetWrite htakes hlow hhigh, ?_⟩
  unfold targeted
  extract_lets w
  have hw : Beside [MPG.TARGET.key 0 0] a (writeSeen s t ⟨23, a⟩) w := (Beside.refl _).w _ (by decide)
  have htarget : w.r MPG.TARGET a = v.toNat := by
    unfold w
    rw [State.wi, show MPG.TARGET.width = 32 from rfl, hbits]
    exact r_w_val (f := MPG.TARGET) v.isLt (by decide)
  have hsrc : w.r MPG.TGT_SRC a = s.r MPG.TGT_SRC a := (hw MPG.TGT_SRC 0 (by decide)).trans (hseen MPG.TGT_SRC 0 (by decide))
  have hpos : w.r MPG.POSITION a = s.r MPG.POSITION a := (hw MPG.POSITION 0 (by decide)).trans (hseen MPG.POSITION 0 (by decide))
  have hnow : w.r MPG.TGT_NOW a = s.r MPG.TGT_NOW a := (hw MPG.TGT_NOW 0 (by decide)).trans (hseen MPG.TGT_NOW 0 (by decide))
  clear_value w
  rw [hsrc]
  beta_reduce
  rw [r_keepK, r_keepK, r_keepK]
  obtain ⟨hkept, hforce⟩ := beside_newTarget w a v.toInt
  split
  next hown =>
    exact ⟨(hkept MPG.TARGET 0 (by decide)).trans htarget, fun _ => hforce.trans hbits, fun hno => absurd hown hno,
      (hkept MPG.POSITION 0 (by decide)).trans hpos⟩
  next hno => exact ⟨htarget, fun hown => absurd hown hno, fun _ => hnow, hpos⟩

/-- A deceleration other than 0 is taken as it is (R332). -/
theorem exec_decWrite (htakes : Takes s r ⟨23, a⟩) {v : Word} (hv : v ≠ 0) (reg : Fin 2) :
    ∃ w : State, exec (.decWrite t r a reg v) s = .next (s.keepK w) ∧
      w.r (if reg.val = 0 then MPG.DEC_HI else MPG.DEC_LO) a = v.toNat := by
  refine ⟨_, cmdK_seen htakes t _, ?_⟩
  extract_lets f w x
  have hmax : max 1 v.toNat = v.toNat := Nat.max_eq_right (Nat.one_le_iff_ne_zero.mpr fun h => hv (BitVec.eq_of_toNat_eq h))
  have hf : f.width = 32 := by
    unfold f
    split
    · rfl
    · rfl
  have hw : w.r f a = v.toNat := by
    unfold w
    rw [hmax]
    exact r_w_val (by rw [hf]; exact v.isLt) (Nat.le_of_eq hf)
  clear_value w
  split
  · exact hw
  · exact hw

theorem decWrite_sets (htakes : Takes s r ⟨23, a⟩) {v : Word} (hv : v ≠ 0) : Gives (.decWrite t r a 0 v) s (fun u => u.r MPG.DEC_HI a = v.toNat) ∧
    Gives (.decWrite t r a 1 v) s (fun u => u.r MPG.DEC_LO a = v.toNat) := by
  obtain ⟨w, hexec, hset⟩ := exec_decWrite (t := t) htakes hv 0
  obtain ⟨x, hexec', hset'⟩ := exec_decWrite (t := t) htakes hv 1
  exact ⟨⟨_, hexec, hset⟩, ⟨_, hexec', hset'⟩⟩

/-! ### Commands (R335 to R339, R343) -/

/-- An axis whose homing begins (R336). -/
def homeBegun (s : State) (a : Fin 24) : State :=
  let x := s.axis a
  let wait := x.vel != 0
  let s := s.setAxis a { x with homing := 1, homeWait := wait, stopping := wait, turning := false, slowing := false, homeStart := s.ri MPG.POSITION a }
  ((s.w MPG.HOMED 0 a).w MPG.HOME_CAUSE 0 a).w MPG.HOME_PHASE 1 a

theorem homeBegun_begins (s : State) (a : Fin 24) : ((homeBegun s a).axis a).homing = 1 ∧ (homeBegun s a).r MPG.HOME_PHASE a = 1 ∧
    (homeBegun s a).r MPG.HOMED a = 0 ∧ (homeBegun s a).r MPG.HOME_CAUSE a = 0 ∧ (homeBegun s a).axisOn a = s.axisOn a := by
  unfold homeBegun
  extract_lets x wait v
  have hx : (v.axis a).homing = 1 := congrArg AxisX.homing (axis_setAxis s a _)
  have hon : v.axisOn a = s.axisOn a := rfl
  clear_value v
  refine ⟨?_, r_w_val (f := MPG.HOME_PHASE) (by decide) (by decide), ?_, ?_, ?_⟩
  · rw [axis_congr (s := v) (by rw [w_axes, w_axes, w_axes]), hx]
  · rw [r_w_apart (by decide), r_w_apart (by decide)]
    exact r_w_val (f := MPG.HOMED) (by decide) (by decide)
  · rw [r_w_apart (by decide)]
    exact r_w_val (f := MPG.HOME_CAUSE) (by decide) (by decide)
  · rw [axisOn_w (by decide), axisOn_w (by decide), axisOn_w (by decide), hon]

theorem home_begins (htakes : Takes s r ⟨23, a⟩) (hon : s.axisOn a = true) : Gives (.home t r a) s (fun u =>
    (u.axis a).homing = 1 ∧ u.r MPG.HOME_PHASE a = 1 ∧ u.r MPG.HOMED a = 0 ∧ u.r MPG.HOME_CAUSE a = 0) := by
  obtain ⟨hx, hphase, hhomed, hcause, hsame⟩ := homeBegun_begins (writeSeen s t ⟨23, a⟩) a
  have hon' : (homeBegun (writeSeen s t ⟨23, a⟩) a).axisOn a = true := hsame.trans ((axisOn_seen s t a).trans hon)
  refine ⟨_, (cmdK_seen htakes t _).trans (congrArg (fun u => Host.Outcome.next (s.keepK u)) (if_pos hon')), ?_⟩
  change _ ∧ _ ∧ _ ∧ _
  rw [r_keepK, r_keepK, r_keepK, axis_keepK]
  exact ⟨hx, hphase, hhomed, hcause⟩

theorem home_faults (htakes : Takes s r ⟨23, a⟩) (hoff : s.axisOn a = false) : Gives (.home t r a) s (fun u =>
    (u.axis a).homing = 0 ∧ u.r MPG.HOMED a = 0 ∧ u.r MPG.HOME_CAUSE a = 4) := by
  obtain ⟨hx, -, hhomed, hcause, hsame⟩ := homeBegun_begins (writeSeen s t ⟨23, a⟩) a
  have hoff' : ¬ (homeBegun (writeSeen s t ⟨23, a⟩) a).axisOn a = true := by
    rw [hsame, axisOn_seen, hoff]
    decide
  refine ⟨_, (cmdK_seen htakes t _).trans (congrArg (fun u => Host.Outcome.next (s.keepK u)) (if_neg hoff')), ?_⟩
  obtain ⟨hhomed', hcause'⟩ := homeFault_faults (s := homeBegun (writeSeen s t ⟨23, a⟩) a) (a := a) (cause := 4) (by rw [hx]; decide) (by decide)
  rw [r_keepK, r_keepK, axis_keepK]
  refine ⟨?_, hhomed', hcause'⟩
  exact (congrArg AxisX.homing (axis_homeFault _ _ _)).trans (faulted_homing _)

/-- An axis that is held for a STOP or an ESTOP (R335, R337). -/
def held (s : State) (a : Fin 24) : State := (s.homeFault a 4).w MPG.HELD 1 a

theorem held_holds (s : State) (a : Fin 24) : (held s a).r MPG.HELD a = 1 ∧ (held s a).axis a = faulted (s.axis a) ∧
    (held s a).r MPG.POSITION a = s.r MPG.POSITION a := by
  unfold held
  refine ⟨r_w_val (f := MPG.HELD) (by decide) (by decide), (axis_congr (w_axes _ _ _ _ _)).trans (axis_homeFault _ _ _), ?_⟩
  rw [r_w_apart (by decide), beside_homeFault s a 4 MPG.POSITION 0 (by decide)]

theorem stop_holds (htakes : Takes s r ⟨23, a⟩) : Gives (.stop t r a) s (fun u => u.r MPG.HELD a = 1 ∧ (u.axis a).homing = 0 ∧
    ((s.axis a).vel ≠ 0 → (u.axis a).stopping = true)) := by
  obtain ⟨hheld, hx, -⟩ := held_holds (writeSeen s t ⟨23, a⟩) a
  refine ⟨_, cmdK_seen htakes t _, ?_⟩
  beta_reduce
  extract_lets v x w
  have hvx : x = faulted (s.axis a) := hx
  have hw : w.axis a = { x with stopping := x.vel != 0, turning := false, tgtOrg := v.r MPG.TGT_SRC a == 0 } := axis_setAxis v a _
  have hwheld : w.r MPG.HELD a = 1 := hheld
  clear_value w
  split
  next hzero =>
    rw [r_keepK, axis_keepK, beside_standstill w a 0 MPG.HELD 0 (by decide), axis_standstill, hw]
    refine ⟨hwheld, ?_, fun hmove => absurd ?_ hmove⟩
    · show x.homing = 0
      rw [hvx, faulted_homing]
    · rwa [hvx, faulted_vel] at hzero
  next hmoves =>
    rw [r_keepK, axis_keepK, hw]
    refine ⟨hwheld, ?_, fun _ => ?_⟩
    · show x.homing = 0
      rw [hvx, faulted_homing]
    · show (x.vel != 0) = true
      exact bne_iff_ne.mpr hmoves

theorem estop_stops (htakes : Takes s r ⟨23, a⟩) : Gives (.estop t r a) s (fun u => u.r MPG.HELD a = 1 ∧ (u.axis a).vel = 0 ∧
    (u.axis a).moving = false ∧ u.r MPG.POSITION a = s.r MPG.POSITION a) := by
  obtain ⟨hheld, -, hpos⟩ := held_holds (writeSeen s t ⟨23, a⟩) a
  refine ⟨_, cmdK_seen htakes t _, ?_⟩
  unfold State.hardStop
  beta_reduce
  extract_lets v w
  have hv : v = held (writeSeen s t ⟨23, a⟩) a := rfl
  rw [r_keepK, r_keepK, axis_keepK, axis_standstill, beside_standstill _ a 0 MPG.HELD 0 (by decide), beside_standstill _ a 0 MPG.POSITION 0 (by decide)]
  rw [← hv] at hheld hpos
  clear_value v
  exact ⟨hheld, rfl, rfl, hpos.trans (beside_seen s t a MPG.POSITION 0 (by decide))⟩

theorem release_releases (htakes : Takes s r ⟨23, a⟩) : Gives (.release t r a) s (fun u => u.r MPG.HELD a = 0 ∧ (u.axis a).pendTgt = true ∧
    u.r MPG.POSITION a = s.r MPG.POSITION a) := by
  refine ⟨_, cmdK_seen htakes t _, ?_⟩
  beta_reduce
  rw [r_keepK, r_keepK, axis_keepK, axis_setAxis]
  rw [r_setAxis, r_setAxis]
  refine ⟨r_w_val (f := MPG.HELD) (by decide) (by decide), rfl, ?_⟩
  exact (r_w_apart (f := MPG.HELD) (by decide) 0).trans (beside_seen s t a MPG.POSITION 0 (by decide))

/-- A command that is refused shows its cause and counts (R338, R339). -/
theorem axisRefuse_refuses (s : State) (a : Fin 24) {c : Nat} (hc : c < 8) : (s.axisRefuse a c).r MPG.REFUSE_CAUSE a = c ∧
    (s.axisRefuse a c).r MPG.REFUSED a = min (s.r MPG.REFUSED a + 1) (2 ^ 16 - 1) ∧ (s.axisRefuse a c).r MPG.POSITION a = s.r MPG.POSITION a := by
  unfold State.axisRefuse
  extract_lets v
  refine ⟨?_, ?_, ?_⟩
  · rw [r_raise_apart (by decide), r_inc_apart (by decide)]
    exact r_w_val (f := MPG.REFUSE_CAUSE) hc (by decide)
  · rw [r_raise_apart (by decide), r_inc_same _ _ _ _ _ (by decide), r_w_apart (by decide)]
    rfl
  · rw [r_raise_apart (by decide), r_inc_apart (by decide), r_w_apart (by decide)]

theorem seen_stands (h : (s.axis a).vel = 0) (t : Nat) : ¬ ((writeSeen s t ⟨23, a⟩).axis a).vel ≠ 0 := not_not.mpr h

/-- The distance to the nearest full electrical revolution takes the position to it (R339). -/
theorem phase_aligned (pos org m d : Int) (hd : d = -((pos - org) % m) ∨ d = m - (pos - org) % m) : (pos + d - org) % m = 0 := by
  have hdiv : pos - org = m * ((pos - org) / m) + (pos - org) % m := (Int.mul_ediv_add_emod _ _).symm
  refine Int.emod_eq_zero_of_dvd ?_
  rcases hd with h | h
  · exact ⟨(pos - org) / m, by rw [h]; linarith⟩
  · exact ⟨(pos - org) / m + 1, by rw [h]; linarith⟩

/-- A position that wraps at 32 bits keeps its phase (R339). -/
theorem sgn_bits_mod (x org : Int) {k : Nat} (hk : k ≤ 32) : (sgn 32 (bits 32 x) - org) % 2 ^ k = (x - org) % 2 ^ k := by
  have hwrap : ∃ c : Int, sgn 32 (bits 32 x) = x + 2 ^ 32 * c := by
    refine ⟨(sgn 32 (bits 32 x) - x) / 2 ^ 32, ?_⟩
    unfold sgn bits
    split
    · omega
    · omega
  obtain ⟨c, hc⟩ := hwrap
  have hpow : (2 : Int) ^ 32 = 2 ^ k * 2 ^ (32 - k) := by rw [← pow_add, Nat.add_sub_cancel' hk]
  rw [hc, hpow, show x + 2 ^ k * 2 ^ (32 - k) * c - org = x - org + 2 ^ k * (2 ^ (32 - k) * c) from by ring]
  exact Int.add_mul_emod_self_left _ _ _

/-- A signed field of 32 bits reads as the wrapped value written (R5). -/
theorem ri_wi {f : Fld} (hf : f.width = 32) (s : State) (v : Int) (n : Nat) : (s.wi f v n).ri f n = sgn 32 (bits 32 v) := by
  rw [State.ri, State.wi, r_w_cut _ _ _ _ _ (Nat.le_of_eq hf), hf, PowerLaws.bits_mod]

theorem phaseSync_aligns (htakes : Takes s r ⟨23, a⟩) (hstand : (s.axis a).vel = 0) (hdrv : s.on MPG.DRV_LOST a = false)
    (hlost : s.on MPG.PHASE_LOST a = true) (hres : s.r MPG.MRES_LOG2 a ≤ 8) : Gives (.phaseSync t r a) s (fun u => u.r MPG.PHASE_LOST a = 0 ∧
      (u.ri MPG.POSITION a - s.ri MPG.PHASE_ORG a) % (4 * 2 ^ s.r MPG.MRES_LOG2 a) = 0) := by
  have hseen := beside_seen s t a
  have hdrv' : ¬ (writeSeen s t ⟨23, a⟩).on MPG.DRV_LOST a = true := by
    rw [on_congr (hseen MPG.DRV_LOST 0 (by decide)), hdrv]
    decide
  have hlost' : ¬ (!(writeSeen s t ⟨23, a⟩).on MPG.PHASE_LOST a) = true := by
    rw [on_congr (hseen MPG.PHASE_LOST 0 (by decide)), hlost]
    decide
  refine ⟨_, (cmdK_seen htakes t _).trans (congrArg (fun u => Host.Outcome.next (s.keepK u))
    ((if_neg (seen_stands hstand t)).trans ((if_neg hdrv').trans (if_neg hlost')))), ?_⟩
  beta_reduce
  extract_lets m pos ph d w
  have hlostw : w.r MPG.PHASE_LOST a = 0 := r_w_val (f := MPG.PHASE_LOST) (by decide) (by decide)
  have hposw : w.ri MPG.POSITION a = sgn 32 (bits 32 (pos + d)) := by
    unfold w
    rw [ri_congr (r_w_apart (by decide) _), ri_congr (r_wi_apart (by decide) _), ri_wi rfl]
  have horg : (writeSeen s t ⟨23, a⟩).ri MPG.PHASE_ORG a = s.ri MPG.PHASE_ORG a := ri_congr (hseen MPG.PHASE_ORG 0 (by decide))
  have hm : m = 2 ^ (s.r MPG.MRES_LOG2 a + 2) := by
    unfold m
    rw [hseen MPG.MRES_LOG2 0 (by decide), pow_add, mul_comm]
    rfl
  have hd : d = -((pos - s.ri MPG.PHASE_ORG a) % m) ∨ d = m - (pos - s.ri MPG.PHASE_ORG a) % m := by
    rw [← horg]
    exact ite_eq_or_eq _ _ _
  clear_value w d pos
  rw [r_keepK, MeasurementLaws.ri_keepK, r_setAxis, ri_setAxis, hposw]
  refine ⟨hlostw, ?_⟩
  rw [show (4 : Int) * 2 ^ s.r MPG.MRES_LOG2 a = 2 ^ (s.r MPG.MRES_LOG2 a + 2) by rw [pow_add, mul_comm]; rfl, sgn_bits_mod _ _ (by omega), ← hm]
  exact phase_aligned _ _ _ _ hd

theorem setPos_sets (htakes : Takes s r ⟨23, a⟩) (hstand : (s.axis a).vel = 0) : Gives (.setPos t r a) s (fun u =>
    u.r MPG.POSITION a = s.r MPG.POS_SET a ∧ (u.axis a).pos = s.ri MPG.POS_SET a * 2 ^ 32) := by
  have hseen := beside_seen s t a MPG.POS_SET 0 (by decide)
  refine ⟨_, (cmdK_seen htakes t _).trans (congrArg (fun u => Host.Outcome.next (s.keepK u)) (if_neg (seen_stands hstand t))), ?_⟩
  beta_reduce
  extract_lets p d v
  have hp : p = s.ri MPG.POS_SET a := ri_congr hseen
  have hpos : v.r MPG.POSITION a = s.r MPG.POS_SET a := by
    unfold v
    rw [r_wi_apart (by decide)]
    exact (r_wi_ri rfl rfl _ _ _).trans hseen
  clear_value v p
  rw [r_keepK, axis_keepK, r_wb_apart (by decide), r_setAxis, State.wb, axis_congr (w_axes _ _ _ _ _), axis_setAxis, hp]
  exact ⟨hpos, rfl⟩

theorem setPos_refused (htakes : Takes s r ⟨23, a⟩) (hmove : (s.axis a).vel ≠ 0) : Gives (.setPos t r a) s (fun u =>
    u.r MPG.REFUSE_CAUSE a = 4 ∧ u.r MPG.POSITION a = s.r MPG.POSITION a) := by
  obtain ⟨hcause, -, hpos⟩ := axisRefuse_refuses (writeSeen s t ⟨23, a⟩) a (c := 4) (by decide)
  refine ⟨_, (cmdK_seen htakes t _).trans (congrArg (fun u => Host.Outcome.next (s.keepK u)) (if_pos hmove)), ?_⟩
  beta_reduce
  rw [r_keepK, r_keepK]
  exact ⟨hcause, hpos.trans (beside_seen s t a MPG.POSITION 0 (by decide))⟩

theorem phaseSync_refused (htakes : Takes s r ⟨23, a⟩) (hmove : (s.axis a).vel ≠ 0) : Gives (.phaseSync t r a) s (fun u =>
    u.r MPG.REFUSE_CAUSE a = 4 ∧ u.r MPG.REFUSED a = min (s.r MPG.REFUSED a + 1) (2 ^ 16 - 1) ∧ u.r MPG.POSITION a = s.r MPG.POSITION a) := by
  obtain ⟨hcause, hcount, hpos⟩ := axisRefuse_refuses (writeSeen s t ⟨23, a⟩) a (c := 4) (by decide)
  rw [beside_seen s t a MPG.REFUSED 0 (by decide)] at hcount
  refine ⟨_, (cmdK_seen htakes t _).trans (congrArg (fun u => Host.Outcome.next (s.keepK u)) (if_pos hmove)), ?_⟩
  beta_reduce
  rw [r_keepK, r_keepK, r_keepK]
  exact ⟨hcause, hcount, hpos.trans (beside_seen s t a MPG.POSITION 0 (by decide))⟩

end Sys2Proof.MotionLaws
end

section
/-! Motion axes: inputs, updates and the settlement of O41 (R327 to R341). -/

namespace Sys2Proof.MotionUpdateLaws

open Sys2Proof Sys2Proof.Machine Sys2Proof.Laws Sys2Proof.LogicPageLaws Sys2Proof.PageFieldLaws Sys2Proof.CanLaws Sys2Proof.AxisLaws Sys2Proof.MotionLaws

variable {s u : State} {t : Nat} {r : Requester} {a : Fin 24}

/-! ### Inputs (R333, R334, R336 to R338) -/

theorem limit_stops (hhome : (s.axis a).homing = 0) (hmove : 0 < (s.axis a).vel) : Gives (.limitActive t a true) s (fun u =>
    u.r MPG.LIMP a = 1 ∧ (u.axis a).limP = true ∧
      (s.on MPG.LIM_HARD a = true → (u.axis a).vel = 0) ∧ (s.on MPG.LIM_HARD a = false → (u.axis a).stopping = true)) := by
  refine ⟨_, rfl, ?_⟩
  beta_reduce
  extract_lets x v y dir w _ l z
  have hy : y = { x with limP := true } := axis_setAxis (s.tick t) a _
  have hstill : ¬ y.homing ≠ 0 := by
    rw [hy]
    exact not_not.mpr hhome
  have hdir : 0 < y.vel * dir := by
    rw [hy]
    exact (mul_one x.vel).symm ▸ hmove
  have hlim : l.r MPG.LIMP a = 1 := r_w_val (f := MPG.LIMP) (by decide) (by decide)
  have hhard : l.on MPG.LIM_HARD a = s.on MPG.LIM_HARD a := on_congr (r_w_apart (by decide) _)
  have hyl : l.axis a = y := axis_congr (w_axes _ _ _ _ _)
  have hylim : y.limP = true := by rw [hy]
  clear_value l y
  rw [if_neg hstill, if_pos hdir, r_keepK, axis_keepK, r_raise_apart (by decide), axis_congr (raise_axes _ _ _ _ _ _)]
  clear_value w
  unfold z
  rw [hhard]
  split
  next hon =>
    rw [State.hardStop, axis_standstill, beside_standstill l a 5 MPG.LIMP 0 (by decide), hyl]
    exact ⟨hlim, hylim, fun _ => rfl, fun hoff => absurd (hon.symm.trans hoff) (by decide)⟩
  next hoff =>
    rw [axis_setAxis, r_setAxis]
    exact ⟨hlim, hylim, fun hon => absurd hon hoff, fun _ => rfl⟩

theorem limit_releases (hhome : (s.axis a).homing = 0) : Gives (.limitRelease t a true) s (fun u =>
    u.r MPG.LIMP a = 0 ∧ (u.axis a).limP = false ∧ u.r MPG.POSITION a = s.r MPG.POSITION a) := by
  refine ⟨_, rfl, ?_⟩
  beta_reduce
  extract_lets x v dir
  have hx : v.axis a = { x with limP := false } := (axis_congr (w_axes _ _ _ _ _)).trans (axis_setAxis (s.tick t) a _)
  have hlim : v.r MPG.LIMP a = 0 := r_w_val (f := MPG.LIMP) (by decide) (by decide)
  have hpos : v.r MPG.POSITION a = s.r MPG.POSITION a := r_w_apart (by decide) _
  have hhome' : x.homing = 0 := hhome
  clear_value v
  have hnot : ¬ (x.homing = 3 ∧ v.r MPG.HOME_MODE a = 0 ∧ dir = v.homeDir a) := fun h => by
    rw [hhome'] at h
    exact absurd h.1 (by decide)
  rw [if_neg hnot, r_keepK, r_keepK, axis_keepK, hx]
  exact ⟨hlim, rfl, hpos⟩

theorem homeInput_shows (b : Bool) : Gives (.homeInput t a b) s (fun u => u.r MPG.HOME_IN a = b.toNat ∧
    u.r MPG.POSITION a = s.r MPG.POSITION a ∧ (u.axis a).homeOff = if b then none else some ((s.tick t).up, (s.axis a).steps)) := by
  refine ⟨_, rfl, ?_⟩
  beta_reduce
  extract_lets x v w y
  have hin : w.r MPG.HOME_IN a = b.toNat := r_w_val (f := MPG.HOME_IN) (Bool.toNat_lt b) (by decide)
  have hpos : w.r MPG.POSITION a = s.r MPG.POSITION a := r_wb_apart (by decide) _
  have hoff : (w.axis a).homeOff = if b then none else some ((s.tick t).up, (s.axis a).steps) := by
    unfold w
    rw [State.wb, axis_congr (w_axes _ _ _ _ _)]
    exact congrArg AxisX.homeOff (axis_setAxis (s.tick t) a _)
  clear_value w
  rw [r_keepK, r_keepK, axis_keepK]
  split
  · unfold State.homePhase
    rw [r_w_apart (by decide), r_w_apart (by decide), r_setAxis, r_setAxis, axis_congr (w_axes _ _ _ _ _), axis_setAxis]
    exact ⟨hin, hpos, hoff⟩
  · exact ⟨hin, hpos, hoff⟩

theorem drvFault_stops : Gives (.drvFault t a) s (fun u => u.r MPG.DRV_LOST a = 1 ∧ (u.axis a).vel = 0 ∧
    (s.on MPG.PHASE_RETAIN a = false → u.r MPG.PHASE_LOST a = 1)) := by
  refine ⟨_, rfl, ?_⟩
  beta_reduce
  unfold State.hardStop
  extract_lets v w
  have hlost : w.r MPG.DRV_LOST a = 1 := by
    unfold w
    rw [r_raise_apart (by decide)]
    exact r_w_val (f := MPG.DRV_LOST) (by decide) (by decide)
  have hvel : (w.axis a).vel = 0 := by
    unfold w
    rw [axis_congr (raise_axes _ _ _ _ _ _)]
    unfold v
    rw [axis_congr (w_axes _ _ _ _ _), axis_standstill]
    rfl
  have hretain : w.on MPG.PHASE_RETAIN a = s.on MPG.PHASE_RETAIN a := on_congr (by
    unfold w v
    rw [r_raise_apart (by decide), r_w_apart (by decide), beside_standstill _ a 0 MPG.PHASE_RETAIN 0 (by decide),
      beside_homeFault _ a 3 MPG.PHASE_RETAIN 0 (by decide)]
    rfl)
  clear_value w
  rw [hretain, r_keepK, r_keepK, axis_keepK]
  split
  next hon => exact ⟨hlost, hvel, fun hoff => absurd (hon.symm.trans hoff) (by decide)⟩
  next =>
    rw [r_raise_apart (by decide), r_raise_apart (by decide), r_w_apart (by decide), axis_congr (raise_axes _ _ _ _ _ _), axis_congr (w_axes _ _ _ _ _)]
    exact ⟨hlost, hvel, fun _ => r_w_val (f := MPG.PHASE_LOST) (by decide) (by decide)⟩

theorem dokRise_accepted : Gives (.dokRiseAccepted t a) s (fun u => u.r MPG.DRV_LOST a = 0 ∧ (u.axis a).everDok = true ∧
    u.r MPG.POSITION a = s.r MPG.POSITION a) := by
  refine ⟨_, rfl, ?_⟩
  beta_reduce
  extract_lets x v
  have hpos : v.r MPG.POSITION a = s.r MPG.POSITION a := by
    unfold v
    split
    · exact r_w_apart (by decide) _
    · rfl
  clear_value v
  rw [r_keepK, r_keepK, axis_keepK, axis_congr (w_axes _ _ _ _ _), axis_setAxis, r_w_apart (f := MPG.DRV_LOST) (g := MPG.POSITION) (by decide), r_setAxis]
  exact ⟨r_w_val (f := MPG.DRV_LOST) (by decide) (by decide), rfl, hpos⟩

/-! ### The events of a hammer-guard group (R340) -/

theorem evtRaw_setEvtRaw {code inst bit k : Nat} (hbit : bit < 32) (hk : k < 32) (b : Bool) : (s.setEvtRaw code inst bit b).evtRaw code inst k =
    if k = bit then b else s.evtRaw code inst k := by
  have hset : ((s.setEvtRaw code inst bit b).h HDR.EVT_RAW ⟨code, inst⟩).testBit k = (putBit (s.h HDR.EVT_RAW ⟨code, inst⟩) bit b).testBit k := by
    rw [State.setEvtRaw, if_pos hbit, h_hw_same, Nat.testBit_mod_two_pow, Nat.testBit_mod_two_pow]
    rw [decide_eq_true hk, show decide (k < HDR.EVT_RAW.width) = true from decide_eq_true hk, Bool.true_and, Bool.true_and]
  rw [State.evtRaw, if_pos hk, hset, FieldPageLaws.testBit_putBit, State.evtRaw, if_pos hk]

theorem evtRaw_raise {code inst bit k : Nat} (hbit : bit < 32) (hk : k < 32) (p q : List Nat) : (s.raise code inst bit p q).evtRaw code inst k =
    s.evtRaw code inst k := by
  rw [State.evtRaw, if_pos hk, State.evtRaw, if_pos hk]
  exact congrArg (·.testBit k) (h_raise s ⟨code, inst⟩ bit p q HDR.EVT_RAW hbit (by decide))

/-- A condition that comes about or goes is the raw bit of its event (R52). -/
theorem evtRaw_setRaw {code inst bit k : Nat} (hbit : bit < 32) (hk : k < 32) (b : Bool) (p q : List Nat) :
    (s.setRaw code inst bit b p q).evtRaw code inst k = if k = bit then b else s.evtRaw code inst k := by
  unfold State.setRaw
  split
  next h =>
    have hb : b = true := (Bool.and_eq_true_iff.mp h).1
    rw [evtRaw_raise hbit hk, evtRaw_setEvtRaw hbit hk, hb]
  next => exact evtRaw_setEvtRaw hbit hk b

theorem liveLost_shows (g : Fin 8) (hon : s.islandOn .field = true) (hmode : s.r MPC.LIVE_MODE 24 g ≠ 0) (hgone : (s.tick t).liveValid g = false) :
    Gives (.liveLost t g) s (fun u => u.evtRaw 23 24 g = true) := by
  refine ⟨_, runK_on hon t _, ?_⟩
  have hkeep : ∀ v : State, (s.keepK v).evtRaw 23 24 g = v.evtRaw 23 24 g := fun _ => rfl
  have hbit : g.val < 32 := Nat.lt_trans g.isLt (by decide)
  have hhigh : 8 + g.val < 32 := Nat.add_lt_add_left (m := 24) (Nat.lt_trans g.isLt (by decide)) 8
  beta_reduce
  rw [hkeep, State.groupEvents, evtRaw_setRaw hhigh hbit, if_neg (by omega), evtRaw_setRaw hbit hbit, if_pos rfl, hgone]
  exact Bool.and_eq_true_iff.mpr ⟨bne_iff_ne.mpr hmode, rfl⟩

/-! ### Updates (R326 to R328) -/

/-- The registers that an update of a moving axis shows. -/
def travelKeys : List Nat := [MPG.POSITION.key 0 0, MPG.VELOCITY.key 0 0, MPG.MSTATE.key 0 0]

theorem travel_moves (s : State) (a : Nat) (dir v : Int) (vFrac : Nat) {m : Nat} (hhome : (s.axis a).homing = 0) (hm : m < 8) :
    Beside travelKeys a s (s.travel a dir v vFrac m) ∧ (s.travel a dir v vFrac m).r MPG.MSTATE a = m ∧
      ((s.travel a dir v vFrac m).axis a).vel = dir * v ∧ ((s.travel a dir v vFrac m).axis a).moving = true := by
  unfold State.travel State.showAxis State.mstate
  extract_lets x d was v1 y p v2 _ v3
  have hkeep : Beside travelKeys a s v3 := (((((Beside.refl s).of_regs (v := v1) rfl).w _ (by decide)).w _ (by decide)) : Beside travelKeys a s v2).of_regs rfl
  have hv2 : v2.axis a = { x with vel := dir * v, vFrac := vFrac, pos := x.pos + dir * d.1, pFrac := d.2, moving := true, dirPos := 0 < dir } := by
    unfold v2
    rw [State.wi, State.wi, axis_congr (w_axes _ _ _ _ _), axis_congr (w_axes _ _ _ _ _)]
    exact axis_setAxis s a _
  have hv3 : v3.axis a = { v2.axis a with steps := x.steps + (v2.ri MPG.POSITION a - was).natAbs } := axis_setAxis v2 a _
  have hx : x.homing = 0 := hhome
  clear_value v2 v3
  rw [hv2] at hv3
  rw [axis_congr (w_axes _ _ _ _ _), hv3]
  refine ⟨hkeep.w _ (by decide), ?_, rfl, rfl⟩
  dsimp only
  rw [hx, if_neg (by decide)]
  exact r_w_val (f := MPG.MSTATE) hm (by decide)

/-- An axis whose update is under way (R328). -/
def updating (s : State) (a : Nat) : State := s.setAxis a { s.axis a with updAt := some s.up }

/-- An update of an axis that is not to stop homes, pursues or starts (R328). -/
def updated (s : State) (a : Nat) : State :=
  if (s.axis a).homing ≠ 0 then (updating s a).homeUpdate a
  else if (s.axis a).vel ≠ 0 then (updating s a).pursue a
  else (updating s a).tryStart a

/-- An update that is due runs on an axis that is on (R328). -/
theorem exec_motionUpdate (hisl : s.islandOn .field = true) (hdue : ∀ u, (s.axis a).updAt = some u → u + 1000 ≤ (s.tick t).up)
    (hon : s.axisOn a = true) (hrole : s.r DCH.ROLE = 0) (hgo : (s.axis a).stopping = false) :
    exec (.motionUpdate t a) s = .next (s.keepK (updated (s.tick t) a)) := by
  refine (runK_on hisl t _).trans (congrArg (fun u => Host.Outcome.next (s.keepK u)) ?_)
  extract_lets x early v
  have hearly : early = false := by
    unfold early
    split
    next u hu => exact decide_eq_false (Nat.not_lt.mpr (hdue u hu))
    next => rfl
  have hrole' : (s.tick t).r DCH.ROLE = 0 := hrole
  have hon' : (s.tick t).axisOn a = true := by
    rw [State.axisOn, PowerLaws.enabled_tick, PowerLaws.enabled_tick]
    exact hon
  have hgo' : ¬ (x.stopping = true ∧ x.homing ≠ 2) := fun h => absurd (hgo.symm.trans h.1) (by decide)
  rw [hearly, hrole', hon', if_neg (by decide), if_neg hgo']
  rfl

/-- A standing axis with a target ahead starts toward it (R326, R327). -/
theorem tryStart_starts (hpend : (s.axis a).pendTgt = true) (hheld : s.on MPG.HELD a = false)
    (hdrv : s.on MPG.DRV_LOST a = false) (hmay : s.mayMove a = true) (hahead : (s.axis a).pos < s.ri MPG.TGT_NOW a * 2 ^ 32)
    (hlim : (s.axis a).limP = false) (htop : 0 < s.topSpeed a 1) :
    s.tryStart a = ((s.w MPG.AT_TARGET 0 a).w MPG.DEC_RAISED 0 a).travel a 1 (min (s.topSpeed a 1) (max 1 (s.speed MPG.V_START a))) 0 1 := by
  unfold State.tryStart
  extract_lets x tgt dir top
  have hdir : dir = 1 := if_pos hahead
  have hx : x.limit dir = false := by
    rw [hdir]
    exact hlim
  have hgo : ¬ ((!x.pendTgt) = true ∨ s.on MPG.HELD a = true ∨ s.on MPG.DRV_LOST a = true) := by
    rw [hheld, hdrv, show x.pendTgt = true from hpend]
    decide
  have hne : ¬ tgt = x.pos := fun h => absurd (h ▸ hahead : x.pos < x.pos) (lt_irrefl _)
  have htop' : ¬ top ≤ 0 := by
    unfold top
    rw [hdir]
    exact not_le.mpr htop
  rw [if_neg hgo, hmay, if_neg (by decide), if_neg hne, hx, if_neg (by decide), if_neg htop']
  unfold top
  rw [hdir]

theorem motionUpdate_starts (hisl : s.islandOn .field = true) (hdue : ∀ u, (s.axis a).updAt = some u → u + 1000 ≤ (s.tick t).up)
    (hon : s.axisOn a = true) (hrole : s.r DCH.ROLE = 0) (hgo : (s.axis a).stopping = false) (hhome : (s.axis a).homing = 0)
    (hstand : (s.axis a).vel = 0) (hpend : (s.axis a).pendTgt = true) (hheld : s.on MPG.HELD a = false) (hdrv : s.on MPG.DRV_LOST a = false)
    (hmay : s.mayMove a = true) (hahead : (s.axis a).pos < s.ri MPG.TGT_NOW a * 2 ^ 32) (hlim : (s.axis a).limP = false)
    (htop : 0 < (s.tick t).topSpeed a 1) : Gives (.motionUpdate t a) s (fun u => u.r MPG.MSTATE a = 1 ∧ u.r MPG.AT_TARGET a = 0 ∧
      (u.axis a).vel = min ((s.tick t).topSpeed a 1) (max 1 (s.speed MPG.V_START a)) ∧ (u.axis a).moving = true) := by
  have hx : (updating (s.tick t) a).axis a = { s.axis a with updAt := some (s.tick t).up } := axis_setAxis (s.tick t) a _
  have hmay' : (updating (s.tick t) a).mayMove a = true := by
    unfold State.mayMove
    rw [hx]
    exact hmay
  have hstart := tryStart_starts (s := updating (s.tick t) a) (a := a) (by rw [hx]; exact hpend) hheld hdrv hmay'
    (by rw [hx]; exact hahead) (by rw [hx]; exact hlim) htop
  refine ⟨_, exec_motionUpdate hisl hdue hon hrole hgo, ?_⟩
  have hrun : updated (s.tick t) a = (updating (s.tick t) a).tryStart a := (if_neg (not_not.mpr hhome)).trans (if_neg (not_not.mpr hstand))
  rw [hrun, hstart]
  beta_reduce
  rw [r_keepK, r_keepK, axis_keepK]
  have hstill : ((((updating (s.tick t) a).w MPG.AT_TARGET 0 a).w MPG.DEC_RAISED 0 a).axis a).homing = 0 := by
    rw [axis_congr (w_axes _ _ _ _ _), axis_congr (w_axes _ _ _ _ _), hx]
    exact hhome
  obtain ⟨hkeep, hstate, hvel, hmoving⟩ := travel_moves _ a 1 (min ((updating (s.tick t) a).topSpeed a 1) (max 1 ((updating (s.tick t) a).speed MPG.V_START a))) 0
    (m := 1) hstill (by decide)
  refine ⟨hstate, ?_, hvel.trans (one_mul _), hmoving⟩
  rw [hkeep MPG.AT_TARGET 0 (by decide), r_w_apart (by decide)]
  exact r_w_val (f := MPG.AT_TARGET) (by decide) (by decide)

/-- The latch at the accepted release of the home switch (R336). -/
theorem homeLatch_latches (s : State) (a : Nat) : (s.homeLatch a).r MPG.HOMED a = 1 ∧ (s.homeLatch a).r MPG.HOME_PHASE a = 4 ∧
    (s.homeLatch a).r MPG.POSITION a = s.r MPG.HOME_POS a ∧ (s.homeLatch a).r MPG.PHASE_LOST a = 0 ∧ ((s.homeLatch a).axis a).vel = 0 := by
  unfold State.homeLatch
  extract_lets p v1 y v2 v3 v4
  have hphase : v1.r MPG.HOME_PHASE a = 4 := r_w_val (f := MPG.HOME_PHASE) (by decide) (by decide)
  have hpos : v1.r MPG.POSITION a = s.r MPG.HOME_POS a := by
    unfold v1
    rw [r_w_apart (by decide)]
    exact r_wi_ri rfl rfl _ _ _
  have hkeep : Beside (standKeys ++ [MPG.HOMED.key 0 0, MPG.PHASE_LOST.key 0 0]) a v1 v4 := by
    have h2 : Beside standKeys a v1 v2 := (Beside.refl v1).of_regs rfl
    have h3 : Beside standKeys a v1 v3 := ((h2.w _ (by decide)).w _ (by decide)).ite h2
    exact (((h3.trans (beside_standstill v3 a 0)).mono fun _ hk => List.mem_append_left _ hk).w _ (by decide)).w _ (by decide)
  have hhomed : v4.r MPG.HOMED a = 1 := by
    unfold v4
    rw [r_w_apart (by decide)]
    exact r_w_val (f := MPG.HOMED) (by decide) (by decide)
  have hlost : v4.r MPG.PHASE_LOST a = 0 := r_w_val (f := MPG.PHASE_LOST) (by decide) (by decide)
  have hvel : (v4.axis a).vel = 0 := by
    unfold v4
    rw [axis_congr (w_axes _ _ _ _ _), axis_congr (w_axes _ _ _ _ _), axis_standstill]
    rfl
  clear_value v4
  rw [r_raise_apart (by decide), r_raise_apart (by decide), r_raise_apart (by decide), r_raise_apart (by decide), axis_congr (raise_axes _ _ _ _ _ _)]
  exact ⟨hhomed, (hkeep MPG.HOME_PHASE 0 (by decide)).trans hphase, (hkeep MPG.POSITION 0 (by decide)).trans hpos, hlost, hvel⟩

theorem homeUpdate_latch (hhome : (s.axis a).homing = 3) (hdrv : s.on MPG.DRV_LOST a = false) (hrel : s.homeReleased a = true) :
    s.homeUpdate a = s.homeLatch a := by
  unfold State.homeUpdate
  rw [hdrv, if_neg (by decide)]
  dsimp only
  rw [hhome]
  exact if_pos hrel

theorem homeReleased_of {t0 n : Nat} (hmode : s.r MPG.HOME_MODE a = 1) (hin : s.on MPG.HOME_IN a = false) (hoff : (s.axis a).homeOff = some (t0, n))
    (htime : t0 + 1000 * s.r MPG.DB_US a ≤ s.up) (hsteps : n + s.r MPG.DB_COUNT a ≤ (s.axis a).steps) : s.homeReleased a = true := by
  unfold State.homeReleased
  rw [hmode, hin, hoff]
  exact Bool.and_eq_true_iff.mpr ⟨rfl, Bool.and_eq_true_iff.mpr ⟨decide_eq_true htime, decide_eq_true hsteps⟩⟩

theorem motionUpdate_homes {t0 n : Nat} (hisl : s.islandOn .field = true) (hdue : ∀ u, (s.axis a).updAt = some u → u + 1000 ≤ (s.tick t).up)
    (hon : s.axisOn a = true) (hrole : s.r DCH.ROLE = 0) (hgo : (s.axis a).stopping = false) (hhome : (s.axis a).homing = 3)
    (hmode : s.r MPG.HOME_MODE a = 1) (hdrv : s.on MPG.DRV_LOST a = false) (hin : s.on MPG.HOME_IN a = false)
    (hoff : (s.axis a).homeOff = some (t0, n)) (htime : t0 + 1000 * s.r MPG.DB_US a ≤ (s.tick t).up)
    (hsteps : n + s.r MPG.DB_COUNT a ≤ (s.axis a).steps) : Gives (.motionUpdate t a) s (fun u => u.r MPG.HOMED a = 1 ∧ u.r MPG.HOME_PHASE a = 4 ∧
      u.r MPG.POSITION a = s.r MPG.HOME_POS a ∧ u.r MPG.PHASE_LOST a = 0 ∧ (u.axis a).vel = 0) := by
  have hx : (updating (s.tick t) a).axis a = { s.axis a with updAt := some (s.tick t).up } := axis_setAxis (s.tick t) a _
  have hrel := homeReleased_of (s := updating (s.tick t) a) (t0 := t0) (n := n) hmode hin (by rw [hx]; exact hoff) htime (by rw [hx]; exact hsteps)
  have hlatch := homeUpdate_latch (s := updating (s.tick t) a) (by rw [hx]; exact hhome) hdrv hrel
  have hrun : updated (s.tick t) a = (updating (s.tick t) a).homeLatch a :=
    (if_pos (show ((s.tick t).axis a).homing ≠ 0 from fun h => absurd (hhome.symm.trans h) (by decide))).trans hlatch
  obtain ⟨hhomed, hphase, hpos, hlost, hvel⟩ := homeLatch_latches (updating (s.tick t) a) a
  refine ⟨_, exec_motionUpdate hisl hdue hon hrole hgo, ?_⟩
  rw [hrun]
  beta_reduce
  rw [r_keepK, r_keepK, r_keepK, r_keepK, axis_keepK]
  exact ⟨hhomed, hphase, hpos, hlost, hvel⟩

/-! ### The obligation -/

/-- Settles O41: each command of an axis takes its own branch, and the fields it does not name stand apart from those it writes. -/
theorem motion : Obligations.Motion := by
  unfold Obligations.Motion
  intro t r a s
  refine ⟨?_, ?_, ?_, homeInput_shows, ?_, drvFault_stops, dokRise_accepted, liveLost_shows⟩
  · exact motionUpdate_starts
  · intro htakes
    exact ⟨fun v hlow hhigh => targetWrite_sets htakes hlow hhigh, fun v hv => decWrite_sets htakes hv, home_begins htakes, home_faults htakes,
      stop_holds htakes, estop_stops htakes, release_releases htakes,
      fun hstand => ⟨phaseSync_aligns htakes hstand, setPos_sets htakes hstand⟩,
      fun hmove => ⟨phaseSync_refused htakes hmove, setPos_refused htakes hmove⟩⟩
  · exact fun hhome => ⟨limit_stops hhome, limit_releases hhome⟩
  · intro t0 n
    exact motionUpdate_homes

end Sys2Proof.MotionUpdateLaws
end

section
/-! Commands of a channel: registers of its own page, and a view of the records that they leave (R46, R51, R52, R60, R62). -/

namespace Sys2Proof.ConfinedLaws

open Sys2Proof Sys2Proof.Machine Sys2Proof.Laws Sys2Proof.Machine.Elsewhere

/-- The records that registers, messages, page records and time leave. -/
structure SameRecords (s u : State) : Prop where
  tmk : u.tmk = s.tmk
  dataMem : u.dataMem = s.dataMem
  engines : u.engines = s.engines
  dch : u.dch = s.dch
  sources : u.sources = s.sources
  ser : u.ser = s.ser
  can : u.can = s.can
  queues : u.queues = s.queues
  aonRegs : u.aonRegs = s.aonRegs

variable {s u v : State} {pgs : List Page} {code inst bit j i n t : Nat} {pg : Page} {r : Requester} {f : Fld} {c : Instr}

theorem sameRecords_rfl : SameRecords s s := ⟨rfl, rfl, rfl, rfl, rfl, rfl, rfl, rfl, rfl⟩

theorem sameRecords_raise (s : State) (code inst bit : Nat) (p q : List Nat) : SameRecords s (s.raise code inst bit p q) := by
  obtain ⟨_, _, _, _, hraise, -⟩ := raise_inv s code inst bit p q
  rw [hraise]
  exact ⟨rfl, rfl, rfl, rfl, rfl, rfl, rfl, rfl, rfl⟩

theorem SameRecords.trans (h : SameRecords s u) (k : SameRecords u v) : SameRecords s v :=
  ⟨k.tmk.trans h.tmk, k.dataMem.trans h.dataMem, k.engines.trans h.engines, k.dch.trans h.dch, k.sources.trans h.sources, k.ser.trans h.ser,
    k.can.trans h.can, k.queues.trans h.queues, k.aonRegs.trans h.aonRegs⟩

theorem sameRecords_breakKeys (s : State) (pg : Page) : SameRecords s (s.breakKeys pg) := by
  unfold State.breakKeys
  split
  · exact ⟨rfl, rfl, rfl, rfl, rfl, rfl, rfl, rfl, rfl⟩
  · exact sameRecords_rfl

/-- A view that looks at those records alone. -/
def Blind {α : Type} (view : State → α) : Prop := ∀ s u : State, SameRecords s u → view u = view s

variable {α : Type} {view : State → α}

/-- Registers change on the listed pages alone, and the view stands. -/
structure Confined (pgs : List Page) (view : State → α) (s u : State) : Prop where
  blind : Blind view
  regs : Elsewhere pgs s u
  view : view u = view s

/-- The last of `n` repetitions within a page places them all. -/
theorem place_of_last (hi : i < n) (hlast : f.off + (n - 1) * f.stride < 4096 ∧ f.lsb < 32) : f.off + i * f.stride < 4096 ∧ f.lsb < 32 := by
  have hle : i * f.stride ≤ (n - 1) * f.stride := Nat.mul_le_mul_right _ (by omega)
  exact ⟨by omega, hlast.2⟩

namespace Confined

theorem refl (hblind : Blind view) (s : State) : Confined pgs view s s := ⟨hblind, Elsewhere.refl s, rfl⟩

theorem trans (h : Confined pgs view s u) (k : Confined pgs view u v) : Confined pgs view s v :=
  ⟨h.blind, h.regs.trans k.regs, k.view.trans h.view⟩

/-- A change of registers on the pages that leaves the records. -/
theorem same (h : Confined pgs view s u) (hregs : Elsewhere pgs u v) (hrecords : SameRecords u v) : Confined pgs view s v :=
  h.trans ⟨h.blind, hregs, h.blind _ _ hrecords⟩

/-- A change outside the registers and the view. -/
theorem own (h : Confined pgs view s u) (hregs : v.regs = u.regs) (hview : view v = view u) : Confined pgs view s v :=
  h.trans ⟨h.blind, .of_regs hregs, hview⟩

/-- A change outside the registers and the records. -/
theorem aside (h : Confined pgs view s u) (hregs : v.regs = u.regs) (hrecords : SameRecords u v) : Confined pgs view s v :=
  h.same (.of_regs hregs) hrecords

theorem ite {p : Prop} [Decidable p] (h : Confined pgs view s u) (k : Confined pgs view s v) : Confined pgs view s (if p then u else v) := by
  split
  · exact h
  · exact k

theorem foldl {β : Type} {g : State → β → State} (xs : List β) (h : Confined pgs view s u) (hg : ∀ w, ∀ x ∈ xs, Confined pgs view w (g w x)) :
    Confined pgs view s (xs.foldl g u) :=
  List.foldlRecOn (motive := Confined pgs view s) _ _ h fun w hw x hx => hw.trans (hg w x hx)

theorem forN {g : State → Nat → State} (h : Confined pgs view s u) (n : Nat) (hg : ∀ w, ∀ x < n, Confined pgs view w (g w x)) :
    Confined pgs view s (u.forN n g) := h.foldl _ fun w x hx => hg w x (List.mem_range.mp hx)

theorem w (h : Confined pgs view s u) (x : Nat) (hmem : ⟨f.code, j⟩ ∈ pgs) (hoff : f.off + i * f.stride < 4096 ∧ f.lsb < 32) :
    Confined pgs view s (u.w f x j i) := h.same ((Elsewhere.refl u).w x hmem hoff) ⟨rfl, rfl, rfl, rfl, rfl, rfl, rfl, rfl, rfl⟩

theorem inc (h : Confined pgs view s u) (x : Nat) (hmem : ⟨f.code, j⟩ ∈ pgs) (hoff : f.off + i * f.stride < 4096 ∧ f.lsb < 32) :
    Confined pgs view s (u.inc f j i x) := h.w _ hmem hoff

theorem wb (h : Confined pgs view s u) (b : Bool) (hmem : ⟨f.code, j⟩ ∈ pgs) (hoff : f.off + i * f.stride < 4096 ∧ f.lsb < 32) :
    Confined pgs view s (u.wb f b j i) := h.w _ hmem hoff

/-- A header field of a listed page (R51). -/
theorem hw (h : Confined pgs view s u) (x : Nat) (hmem : pg ∈ pgs) (hoff : f.off + 0 * f.stride < 4096 ∧ f.lsb < 32) :
    Confined pgs view s (u.hw f pg x) := h.w (f := hdr f pg) x hmem hoff

theorem hinc (h : Confined pgs view s u) (x : Nat) (hmem : pg ∈ pgs) (hoff : f.off + 0 * f.stride < 4096 ∧ f.lsb < 32) :
    Confined pgs view s (u.hinc f pg x) := h.hw _ hmem hoff

theorem raise (h : Confined pgs view s u) (hmem : ⟨code, inst⟩ ∈ pgs) (hbit : bit < 32) (p q : List Nat) :
    Confined pgs view s (u.raise code inst bit p q) := h.same ((Elsewhere.refl u).raise hmem hbit p q) (sameRecords_raise _ _ _ _ _ _)

theorem setEvtRaw (h : Confined pgs view s u) (hmem : ⟨code, inst⟩ ∈ pgs) (hbit : bit < 32) (b : Bool) :
    Confined pgs view s (u.setEvtRaw code inst bit b) := by
  rw [State.setEvtRaw, if_pos hbit]
  exact h.hw _ hmem (by decide)

theorem setRaw (h : Confined pgs view s u) (hmem : ⟨code, inst⟩ ∈ pgs) (hbit : bit < 32) (b : Bool) (p q : List Nat) :
    Confined pgs view s (u.setRaw code inst bit b p q) := ite ((h.setEvtRaw hmem hbit true).raise hmem hbit p q) (h.setEvtRaw hmem hbit b)

theorem rstF (h : Confined pgs view s u) (hmem : ⟨f.code, j⟩ ∈ pgs) (hlast : f.off + (f.n - 1) * f.stride < 4096 ∧ f.lsb < 32) :
    Confined pgs view s (u.rstF f j) :=
  h.same ((Elsewhere.refl u).rstF hmem fun _ hi => place_of_last hi hlast) ⟨rfl, rfl, rfl, rfl, rfl, rfl, rfl, rfl, rfl⟩

theorem setPx (h : Confined pgs view s u) (x : PageX) : Confined pgs view s (u.setPx pg x) :=
  h.aside rfl ⟨rfl, rfl, rfl, rfl, rfl, rfl, rfl, rfl, rfl⟩

theorem fresh (h : Confined pgs view s u) : Confined pgs view s u.fresh := h.aside rfl ⟨rfl, rfl, rfl, rfl, rfl, rfl, rfl, rfl, rfl⟩

theorem clampCount (h : Confined pgs view s u) (hmem : pg ∈ pgs) (off lsb : Nat) : Confined pgs view s (u.clampCount pg off lsb) :=
  (((h.hinc _ hmem (by decide)).hw _ hmem (by decide)).hw _ hmem (by decide)).hw _ hmem (by decide)

/-! ### Accesses to a page (R18, R48, R55, R60 to R63) -/

theorem unmapped (h : Confined pgs view s u) (hmem : ⟨4, 0⟩ ∈ pgs) (a : Nat) : Confined pgs view s (u.unmapped a) :=
  (h.inc _ hmem (by decide)).raise hmem (by decide) _ _

theorem gated (h : Confined pgs view s u) (hmem : ⟨4, 0⟩ ∈ pgs) (a : Nat) : Confined pgs view s (u.gated a) :=
  ((h.inc _ hmem (by decide)).w _ hmem (by decide)).raise hmem (by decide) _ _

theorem breakKeys (h : Confined pgs view s u) (hmem : pg ∈ pgs) : Confined pgs view s (u.breakKeys pg) :=
  ite ((h.setPx _).hinc _ hmem (by decide)) h

/-- A write of a listed page that is refused, or takes an effect that is confined. -/
theorem pageWrite {g : State → State} (h : Confined pgs view s u) (hmem : pg ∈ pgs) (hifx : ⟨4, 0⟩ ∈ pgs)
    (hg : ∀ w, SameRecords u w → Confined pgs view w (g w)) (r : Requester) (b : Bool) : Confined pgs view s (u.pageWrite r pg b g) := by
  rcases pageWrite_cases u r pg b false g with heq | heq | heq | ⟨v, hv, heq⟩
  · exact heq ▸ h.unmapped hifx _
  · exact heq ▸ h.gated hifx _
  · exact heq ▸ (h.breakKeys hmem).hinc _ hmem (by decide)
  · obtain ⟨hseen, hsame⟩ : Confined pgs view s v ∧ SameRecords u v := by
      rcases hv with rfl | rfl
      · exact ⟨h, sameRecords_rfl⟩
      · exact ⟨h.setPx _, ⟨rfl, rfl, rfl, rfl, rfl, rfl, rfl, rfl, rfl⟩⟩
    rcases heq with heq | heq | ⟨w, hw, heq⟩
    · exact heq ▸ (hseen.breakKeys hmem).hinc _ hmem (by decide)
    · exact heq ▸ (hseen.breakKeys hmem).hinc _ hmem (by decide)
    · obtain ⟨hopen, hkept⟩ : Confined pgs view s w ∧ SameRecords u w := by
        rcases hw with rfl | rfl
        · exact ⟨hseen, hsame⟩
        · exact ⟨hseen.breakKeys hmem, hsame.trans (sameRecords_breakKeys v pg)⟩
      exact heq ▸ (hopen.hw _ hmem (by decide)).trans (hg _ (hkept.trans ⟨rfl, rfl, rfl, rfl, rfl, rfl, rfl, rfl, rfl⟩))

end Confined

/-! ### Commands -/

/-- A command whose effect is confined, whatever it answers. -/
def Keeps (pgs : List Page) (view : State → α) (c : Instr) (s : State) : Prop := ∀ u, exec c s = .next u → Confined pgs view s u

theorem keeps_cmdK {g : State → State} (hblind : Blind view) (hg : Confined pgs view (s.tick t) (g (s.tick t))) (hexec : exec c s = s.cmdK t g) :
    Keeps pgs view c s := fun u hu => by
  have hu' : s.keepK (g (s.tick t)) = u := Host.Outcome.next.inj (hexec.symm.trans hu)
  have htick : Confined pgs view s (s.tick t) := (Confined.refl hblind s).aside rfl ⟨rfl, rfl, rfl, rfl, rfl, rfl, rfl, rfl, rfl⟩
  exact hu' ▸ (htick.trans hg).aside rfl ⟨rfl, rfl, rfl, rfl, rfl, rfl, rfl, rfl, rfl⟩

theorem keeps_runK {g : State → State} {isl : Island} (hblind : Blind view) (hg : Confined pgs view (s.tick t) (g (s.tick t)))
    (hexec : exec c s = s.runK isl t g) : Keeps pgs view c s :=
  keeps_cmdK (g := fun w => w.inside isl g) hblind (hg.ite (.refl hblind _)) hexec

/-- A write of a listed page. -/
theorem keeps_pageWrite {g : State → State} {b : Bool} (hblind : Blind view) (hmem : pg ∈ pgs) (hifx : ⟨4, 0⟩ ∈ pgs)
    (hg : ∀ w, SameRecords s w → Confined pgs view w (g w)) (hexec : exec c s = s.cmdK t fun w => w.pageWrite r pg b g) : Keeps pgs view c s :=
  keeps_cmdK hblind ((Confined.refl hblind (s.tick t)).pageWrite hmem hifx
    (fun w hw => hg w (SameRecords.trans (u := s.tick t) ⟨rfl, rfl, rfl, rfl, rfl, rfl, rfl, rfl, rfl⟩ hw)) r b) hexec

end Sys2Proof.ConfinedLaws
end

section
/-! Serial channels and host ports: the registers and records that their commands change (R359 to R372, R430 to R436). -/

namespace Sys2Proof.PortFrameLaws

open Sys2Proof Sys2Proof.Machine Sys2Proof.Laws Sys2Proof.ConfinedLaws

variable {s u : State} {t : Nat} {r : Requester}

/-! ### Serial channels (R430 to R436) -/

/-- The pages that a serial channel's commands change. -/
def serPages (ch : Nat) : List Page := [⟨25, ch⟩, ⟨4, 0⟩]

/-- What a serial channel's commands leave. -/
def serView (ch : Nat) (s : State) :=
  (fun d => if d = ch then none else some (s.serX d), s.can, s.engines, s.dch, s.tmk, s.dataMem, s.aonRegs)

section
variable {ch : Nat}

theorem ser_blind (ch : Nat) : Blind (serView ch) := fun s u h => by
  have hx : ∀ d, u.serX d = s.serX d := fun d => by rw [State.serX, h.ser, State.serX]
  simp only [serView, hx, h.can, h.engines, h.dch, h.tmk, h.dataMem, h.aonRegs]

abbrev SerConfined (ch : Nat) : State → State → Prop := Confined (serPages ch) (serView ch)

theorem ser_refl (s : State) : SerConfined ch s s := .refl (ser_blind ch) s

theorem ser_setSer (h : SerConfined ch s u) (x : SerX) : SerConfined ch s (u.setSer ch x) := by
  refine h.own rfl ?_
  have hx : (fun d => if d = ch then none else some ((u.setSer ch x).serX d)) = fun d => if d = ch then none else some (u.serX d) := funext fun d => by
    split
    · rfl
    next hne => exact congrArg some (sget_sset_ne _ _ _ _ hne)
  simp only [serView, hx]
  rfl

theorem ser_w {f : Fld} (h : SerConfined ch s u) (x : Nat) (hf : f.code = 25 ∧ f.off < 4096 ∧ f.lsb < 32) : SerConfined ch s (u.w f x ch) :=
  h.w x (hf.1 ▸ List.mem_cons_self) (by rw [Nat.zero_mul]; exact hf.2)

theorem ser_end (s : State) (res : Nat) : SerConfined ch s (s.serEnd ch res) := by
  unfold State.serEnd
  extract_lets x v w pay z
  have hv : SerConfined ch s v := ser_setSer (ser_refl s) _
  have hw : SerConfined ch s w := ser_w (ser_w (ser_w hv _ (by decide)) _ (by decide)) _ (by decide)
  have hz : SerConfined ch s z := hw.raise List.mem_cons_self (by decide) _ _
  exact hz.ite ((ser_w hz _ (by decide)).raise List.mem_cons_self (by decide) _ _)

theorem ser_store (s : State) (b : Nat) (parity framing : Bool) : SerConfined ch s (s.serStore ch b parity framing) := by
  unfold State.serStore
  extract_lets x start gap err rx err2 v
  have hv : SerConfined ch s v := ser_setSer (ser_refl s) _
  exact (ser_end s _).ite ((hv.trans (ser_end v _)).ite ((hv.trans (ser_end v _)).ite hv))

end

/-- Every command of a serial channel is confined to it. -/
theorem serial_keeps (t : Nat) (r : Requester) (ch : Fin 8) (b : BitVec 8) (p f : Bool) (s : State) : ∀ c ∈ [Instr.serStart t r ch, .serAbort t r ch,
    .serIdleGap t ch, .serTxDone t ch, .serTurnaroundEnd t ch, .serRespTimeout t ch, .serCharRx t ch b p f, .serFrameEnd t ch,
    .serCtrClr t r ch], Keeps (serPages ch) (serView ch) c s := by
  have hblind := ser_blind ch.val
  have hown : (⟨25, ch.val⟩ : Page) ∈ serPages ch := List.mem_cons_self
  have hifx : (⟨4, 0⟩ : Page) ∈ serPages ch := List.mem_cons_of_mem _ List.mem_cons_self
  simp only [List.forall_mem_cons, List.not_mem_nil, false_implies, implies_true, and_true]
  refine ⟨?start, ?abort, ?idle, ?sent, ?turn, ?late, ?char, ?done, ?clear⟩
  case start =>
    refine keeps_pageWrite hblind hown hifx ?_ rfl
    exact fun w _ => .ite (ser_setSer (ser_w (ser_refl w) _ (by decide)) _) (ser_w (ser_refl w) _ (by decide))
  case abort =>
    refine keeps_pageWrite hblind hown hifx ?_ rfl
    exact fun w _ => (ser_end w _).ite ((ser_setSer (ser_refl w) _).ite (ser_refl w))
  case idle =>
    refine keeps_runK hblind ?_ rfl
    exact .ite (ser_setSer (ser_w (ser_refl _) _ (by decide)) _) (ser_refl _)
  case sent =>
    refine keeps_runK hblind ?_ rfl
    exact .ite (ser_refl _) ((ser_end _ _).ite (.ite (ser_refl _) (ser_setSer (ser_w (ser_refl _) _ (by decide)) _)))
  case turn =>
    refine keeps_runK hblind ?_ rfl
    exact (ser_end _ _).ite (ser_refl _)
  case late =>
    refine keeps_runK hblind ?_ rfl
    exact (ser_end _ _).ite (ser_refl _)
  case char =>
    refine keeps_runK hblind ?_ rfl
    exact .ite (ser_refl _) (.ite ((ser_w (ser_refl _) _ (by decide)).trans (ser_store _ _ _ _)) (.ite (ser_store _ _ _ _)
      (ser_w (.ite (ser_setSer (ser_refl _) _) (ser_refl _)) _ (by decide))))
  case done =>
    refine keeps_runK hblind ?_ rfl
    refine .ite (ser_refl _) ((ser_end _ _).ite ?_)
    split
    · exact ser_end _ _
    · exact ser_end _ _
    · exact ser_end _ _
  case clear =>
    refine keeps_pageWrite hblind hown hifx ?_ rfl
    exact fun w _ => ((ser_refl w).rstF hown (by decide)).rstF hown (by decide)

/-! ### Host ports (R359 to R372) -/

/-- The pages that a host port's commands change. -/
def hqePages (p : Nat) : List Page := [⟨7, p⟩, ⟨4, 0⟩]

/-- What a host port's commands leave. -/
def hqeView (s : State) := (s.sources, s.engines, s.tmk, s.dataMem)

theorem hqe_blind : Blind hqeView := fun s u h => by simp only [hqeView, h.sources, h.engines, h.tmk, h.dataMem]

section
variable {p q : Nat}

abbrev HqeConfined (p : Nat) : State → State → Prop := Confined (hqePages p) hqeView

theorem hqe_refl (s : State) : HqeConfined p s s := .refl hqe_blind s

theorem hqe_mem (p : Nat) : (⟨7, p⟩ : Page) ∈ hqePages p := List.mem_cons_self

theorem hqe_setPort (h : HqeConfined p s u) (n : Nat) (x : PortX) : HqeConfined p s (u.setPort n x) := h.own rfl rfl

theorem hqe_setQueue (h : HqeConfined p s u) (n k : Nat) (x : QueueX) : HqeConfined p s (u.setQueue n k x) := h.own rfl rfl

/-- A field of the port's page. -/
theorem hqe_w {f : Fld} (h : HqeConfined p s u) (x : Nat) (hf : f.code = 7 ∧ f.off < 4096 ∧ f.lsb < 32) : HqeConfined p s (u.w f x p) :=
  h.w x (hf.1 ▸ hqe_mem p) (by rw [Nat.zero_mul]; exact hf.2)

/-- A field of one of the port's queues. -/
theorem hqe_wq {f : Fld} (h : HqeConfined p s u) (x : Nat) (hq : q < 8) (hf : f.code = 7 ∧ f.off + (8 - 1) * f.stride < 4096 ∧ f.lsb < 32) :
    HqeConfined p s (u.w f x p q) := h.w x (hf.1 ▸ hqe_mem p) (place_of_last hq hf.2)

theorem hqe_msix (s : State) (vec : Nat) : HqeConfined p s (s.msix p vec) :=
  (hqe_setPort (hqe_refl s) p _).ite (hqe_setPort (hqe_refl s) p _)

theorem hqe_raise {bit : Nat} (s : State) (hbit : bit < 32) (pay : List Nat) : HqeConfined p s (s.raiseHqe p bit pay) := by
  unfold State.raiseHqe
  extract_lets was v
  have hv : HqeConfined p s v := (hqe_refl s).raise (hqe_mem p) hbit _ _
  exact (hv.trans (hqe_msix v _)).ite hv

theorem hqe_dropRecords (s : State) (n seq : Nat) (hq : q < 8) : HqeConfined p s (s.dropRecords p q n seq) := by
  unfold State.dropRecords
  extract_lets x first v w
  have hw : HqeConfined p s w := hqe_wq (hqe_wq (hqe_setQueue (hqe_refl s) p q _) _ hq (by decide)) _ hq (by decide)
  exact hw.trans (hqe_raise w (Nat.lt_trans hq (by decide)) _)

theorem hqe_serveDrop (s : State) (hq : q < 8) : HqeConfined p s (s.serveDrop p q) :=
  .ite (hqe_wq (hqe_wq (hqe_setPort (hqe_refl s) p _) _ hq (by decide)) _ hq (by decide)) (hqe_refl s)

theorem hqe_serveDrops (h : HqeConfined p s u) : HqeConfined p s (u.forN 8 fun w k => w.serveDrop p k) :=
  h.forN 8 fun w _ hk => hqe_serveDrop w hk

theorem hqe_offerQueue (s : State) (m : EvtMsg) (hq : q < 8) : HqeConfined p s (s.offerQueue p q m) := by
  unfold State.offerQueue
  extract_lets v seq need w
  have hw : HqeConfined p s w := hqe_wq (hqe_serveDrop s hq) _ hq (by decide)
  exact (hqe_setPort hw p _).ite (hw.trans (hqe_dropRecords w 1 seq hq))

theorem hqe_dropBuffered (s : State) (hq : q < 8) : HqeConfined p s (s.dropBuffered p q) := by
  unfold State.dropBuffered
  extract_lets x mine v
  have hv : HqeConfined p s v := hqe_setPort (hqe_refl s) p _
  split
  · exact hv
  · exact hv.trans (hqe_dropRecords v _ _ hq)

theorem hqe_setQEn (s : State) (on : Bool) (hq : q < 8) : HqeConfined p s (s.setQEn p q on) := by
  unfold State.setQEn
  extract_lets was v
  have hv : HqeConfined p s v := hqe_wq (hqe_refl s) _ hq (by decide)
  have hzero : HqeConfined p s ((v.w HQE.PROD 0 p q).w HQE.CONS 0 p q) := hqe_wq (hqe_wq hv _ hq (by decide)) _ hq (by decide)
  exact (hzero.trans (hqe_serveDrop _ hq)).ite ((hv.trans (hqe_dropBuffered v hq)).ite hv)

theorem hqe_writeRecord (s : State) (h : HostRec) (hq : h.q < 8) : HqeConfined p s (s.writeRecord p h) :=
  hqe_wq (hqe_setPort (hqe_refl s) p _) _ hq (by decide)

theorem hqe_signal (s : State) (k : Nat) : HqeConfined p s (s.signal p k) := (hqe_setQueue (hqe_refl s) p k _).trans (hqe_msix _ _)

/-- A burst holds buffered records (R365). -/
theorem mem_burst {buf : List HostRec} {h : HostRec} (hmem : h ∈ burst buf) : h ∈ buf := by
  cases buf with
  | nil => exact hmem
  | cons x xs => exact List.mem_of_mem_filter (List.mem_of_mem_take hmem)

/-- A register of the port's block lies within its page (R370). -/
theorem hqe_fields : ∀ f ∈ HQE.fields, f.code = 7 ∧ f.off + (f.n - 1) * f.stride < 4096 ∧ f.lsb < 32 := by decide

end

/-- Every command of a host port is confined to it. -/
theorem port_keeps (t : Nat) (r : Requester) (p : Fin 2) (q : Fin 8) (v : Word) (x : Fin 9) (on : Bool) (sp wd : Fin 8) (s : State)
    (hroute : ∀ k, s.r HQE.QUEUE p k < 8) (hbuf : ∀ h ∈ (s.port p).buf, h.q < 8) : ∀ c ∈ [Instr.hqeRecordOffer t p, .hqeWriteback t p,
      .hqeIntTimer t p q, .msixUnmask t p x, .consWrite t r p q v, .qEnWrite t r p q on, .pcieLinkChange t p on sp wd, .cplTimeout t p, .flr t p],
      Keeps (hqePages p) hqeView c s := by
  have hown := hqe_mem p.val
  have hifx : (⟨4, 0⟩ : Page) ∈ hqePages p := List.mem_cons_of_mem _ List.mem_cons_self
  simp only [List.forall_mem_cons, List.not_mem_nil, false_implies, implies_true, and_true]
  refine ⟨?offer, ?writeback, ?timer, ?unmask, ?cons, ?qen, ?link, ?late, ?flr⟩
  case offer =>
    refine keeps_runK hqe_blind ?_ rfl
    split
    · exact hqe_refl _
    next m ms _ =>
      have hv : HqeConfined p (s.tick t) ((s.tick t).setPort p { (s.tick t).port p with offers := ms }) := hqe_setPort (hqe_refl _) p _
      exact .ite (hv.trans (hqe_offerQueue _ m (hroute m.code))) hv
  case writeback =>
    refine keeps_runK hqe_blind ?_ rfl
    extract_lets +onlyGivenNames b
    have hb : ∀ h ∈ b, h.q < 8 := fun h hh => hbuf h (mem_burst hh)
    clear_value b
    split
    · exact hqe_refl _
    next h rest =>
      refine .ite (hqe_refl _) ?_
      extract_lets _ v1 v2 y v3
      have h2 : HqeConfined p (s.tick t) v2 := (hqe_setPort (hqe_refl _) p _).foldl _ fun w x hx => hqe_writeRecord w x (hb x hx)
      have h3 : HqeConfined p (s.tick t) v3 := hqe_setQueue h2 p _ _
      exact hqe_serveDrops (.ite (h3.trans (hqe_signal v3 _)) h3)
  case timer =>
    refine keeps_runK hqe_blind ?_ rfl
    split
    · exact hqe_refl _
    · exact (hqe_signal _ _).ite (hqe_refl _)
  case unmask =>
    refine keeps_runK hqe_blind ?_ rfl
    have hv : ∀ y, HqeConfined p (s.tick t) ((s.tick t).setPort p y) := fun y => hqe_setPort (hqe_refl _) p y
    exact ((hv _).trans (hqe_msix _ _)).ite (hv _)
  case cons =>
    refine keeps_pageWrite hqe_blind hown hifx ?_ rfl
    intro w _
    have hw : ∀ c, HqeConfined p w (w.w HQE.CONS c p q) := fun c => hqe_wq (hqe_refl w) c q.isLt (by decide)
    exact (Confined.ite ((hw _).clampCount hown _ _) (hw _)).trans (hqe_serveDrop _ q.isLt)
  case qen =>
    refine keeps_pageWrite hqe_blind hown hifx ?_ rfl
    exact fun w _ => hqe_setQEn w on q.isLt
  case link =>
    refine keeps_cmdK (t := t) hqe_blind ?_ (Eq.refl (execPcieLinkChange t p on sp wd s))
    extract_lets was v
    have hv : HqeConfined p (s.tick t) v := hqe_w (hqe_w (hqe_w (hqe_refl _) _ (by decide)) _ (by decide)) _ (by decide)
    exact (hv.trans (hqe_raise v (by decide) _)).ite ((hqe_serveDrops (hv.trans (hqe_raise v (by decide) _))).ite hv)
  case late =>
    refine keeps_runK hqe_blind ?_ rfl
    exact .ite (hqe_refl _) ((hqe_setPort (hqe_refl _) p _).trans (hqe_raise _ (by decide) _))
  case flr =>
    refine keeps_runK hqe_blind ?_ rfl
    extract_lets pg v1 keep v2 v3 _ v4 v5 _ v6
    have h1 : HqeConfined p (s.tick t) v1 := (hqe_refl _).forN 8 fun w _ hk => hqe_setQEn w false hk
    have h2 : HqeConfined p (s.tick t) v2 := h1.foldl _ fun w f hf =>
      have hfield := hqe_fields f (List.mem_of_mem_filter hf)
      (hqe_refl w).rstF (hfield.1 ▸ hown) hfield.2
    have h3 : HqeConfined p (s.tick t) v3 := h2.forN 8 fun w k _ => hqe_setQueue (hqe_refl w) p k _
    have h5 : HqeConfined p (s.tick t) v5 := ((((hqe_setPort h3 p _).hw _ hown (by decide)).hw _ hown (by decide)).hw _ hown (by decide)).hw _ hown (by decide)
    have h6 : HqeConfined p (s.tick t) v6 := ((h5.hw _ hown (by decide)).setPx _).setPx _
    exact h6.trans (hqe_raise v6 (by decide) _)

end Sys2Proof.PortFrameLaws
end

section
/-! CAN channels and EIC: the registers and records that their commands change (R346 to R368, R411 to R428). -/

namespace Sys2Proof.BusFrameLaws

open Sys2Proof Sys2Proof.Machine Sys2Proof.Laws Sys2Proof.ConfinedLaws

variable {s u : State} {t : Nat} {r : Requester}

/-! ### CAN channels (R411 to R428) -/

/-- The pages that a CAN channel's commands change. -/
def canPages (ch : Nat) : List Page := [⟨24, ch⟩, ⟨4, 0⟩]

/-- What a CAN channel's commands leave. -/
def canView (ch : Nat) (s : State) :=
  (fun d => if d = ch then none else some (s.canX d), s.ser, s.engines, s.dch, s.tmk, s.dataMem, s.aonRegs)

section
variable {ch b : Nat}

theorem can_blind (ch : Nat) : Blind (canView ch) := fun s u h => by
  have hx : ∀ d, u.canX d = s.canX d := fun d => by rw [State.canX, h.can, State.canX]
  simp only [canView, hx, h.ser, h.engines, h.dch, h.tmk, h.dataMem, h.aonRegs]

abbrev CanConfined (ch : Nat) : State → State → Prop := Confined (canPages ch) (canView ch)

theorem can_refl (s : State) : CanConfined ch s s := .refl (can_blind ch) s

theorem can_mem (ch : Nat) : (⟨24, ch⟩ : Page) ∈ canPages ch := List.mem_cons_self

theorem can_clampCount (s : State) (pg : Page) (off lsb : Nat) : (s.clampCount pg off lsb).can = s.can := by
  rw [State.clampCount, State.hw, w_can, State.hw, w_can, State.hw, w_can, State.hinc, inc_can]

theorem can_setCan (h : CanConfined ch s u) (x : CanX) : CanConfined ch s (u.setCan ch x) := by
  refine h.own rfl ?_
  have hx : (fun d => if d = ch then none else some ((u.setCan ch x).canX d)) = fun d => if d = ch then none else some (u.canX d) := funext fun d => by
    split
    · rfl
    next hne => exact congrArg some (sget_sset_ne _ _ _ _ hne)
  simp only [canView, hx]
  rfl

/-- A field of the channel's page. -/
theorem can_w {f : Fld} (h : CanConfined ch s u) (x : Nat) (hf : f.code = 24 ∧ f.off < 4096 ∧ f.lsb < 32) : CanConfined ch s (u.w f x ch) :=
  h.w x (hf.1 ▸ can_mem ch) (by rw [Nat.zero_mul]; exact hf.2)

/-- A field of one of the channel's transmit buffers. -/
theorem can_wb {f : Fld} (h : CanConfined ch s u) (x : Nat) (hb : b < 3) (hf : f.code = 24 ∧ f.off + (3 - 1) * f.stride < 4096 ∧ f.lsb < 32) :
    CanConfined ch s (u.w f x ch b) := h.w x (hf.1 ▸ can_mem ch) (place_of_last hb hf.2)

theorem can_level {bit : Nat} (h : CanConfined ch s u) (hbit : bit < 32) (v : Bool) : CanConfined ch s (u.canLevel ch bit v) :=
  h.setRaw (can_mem ch) hbit _ _ _

theorem can_raise {bit : Nat} (h : CanConfined ch s u) (hbit : bit < 32) (n : Nat) (extra : List Nat) : CanConfined ch s (u.raiseCan ch bit n extra) :=
  h.raise (can_mem ch) hbit _ _

theorem can_states (h : CanConfined ch s u) : CanConfined ch s (u.canStates ch) := by
  refine h.trans ?_
  unfold State.canStates
  extract_lets tec rec_ v w x
  have hv : CanConfined ch u v := can_w (can_refl u) _ (by decide)
  have hw : CanConfined ch u w := hv.ite (can_w hv _ (by decide))
  exact can_level (can_level (can_level hw (by decide) _) (by decide) _) (by decide) _

theorem can_count (h : CanConfined ch s u) (tec rec_ : Nat) : CanConfined ch s (u.canCount ch tec rec_) :=
  can_states (can_w (can_w h _ (by decide)) _ (by decide))

theorem can_ackRun (h : CanConfined ch s u) (n : Nat) : CanConfined ch s (u.setAckRun ch n) := by
  have hv : CanConfined ch s (u.w CFD.ACK_RUN (min n 31) ch) := can_w h _ (by decide)
  exact .ite (can_level hv (by decide) _) (.ite (can_level hv (by decide) _) hv)

theorem can_accept (h : CanConfined ch s u) (f : CanFrame) (ts : Word) : CanConfined ch s (u.canAccept ch f ts) := by
  unfold State.canAccept
  split
  · exact h
  · exact .ite (can_level (can_w (can_setCan h _) _ (by decide)) (by decide) _) (can_raise (can_w h _ (by decide)) (by decide) _ _)

theorem can_failed (h : CanConfined ch s u) (hb : b < 3) (ack : Bool) : CanConfined ch s (u.attemptFailed ch b ack) := by
  have hv : ∀ x, CanConfined ch s (u.w CFD.TX_STATE x ch b) := fun x => can_wb h x hb (by decide)
  exact .ite (hv 4) (.ite (can_raise (hv 5) (by decide) _ _) (.ite (can_raise (hv 6) (by decide) _ _) (hv 1)))

theorem can_txError (h : CanConfined ch s u) (raises : Bool) : CanConfined ch s (u.txError ch raises) := by
  have hv : CanConfined ch s (u.inc CFD.TX_ERRS ch) := can_w h _ (by decide)
  exact .ite (can_count hv _ _) hv

theorem can_measure (h : CanConfined ch s u) (n : Nat) (delay : Option Nat) : CanConfined ch s (u.measureTdc ch n delay) := by
  refine .ite ?_ h
  split
  · exact h
  · exact .ite (can_w h _ (by decide)) (can_w h _ (by decide)).fresh

theorem can_rxDown (h : CanConfined ch s u) : CanConfined ch s (u.rxDown ch) := .ite (can_count h _ _).fresh (can_count h _ _)

theorem can_attemptEnd (h : CanConfined ch s u) (hb : b < 3) (res : CanTxResult) (back : Nat) : CanConfined ch s (u.attemptEnd ch b res back) := by
  have hrun : ∀ {v : State} (x : Nat), CanConfined ch s v → CanConfined ch s (v.w CFD.ID_RUN x ch b) := fun x hv => can_wb hv x hb (by decide)
  unfold State.attemptEnd
  cases res with
  | success =>
    dsimp -zeta only
    extract_lets _ v w x y
    have hx : CanConfined ch s x := can_count (can_ackRun (hrun _ (can_setCan h _)) _) _ _
    have hy : CanConfined ch s y := can_raise (can_wb (can_wb hx _ hb (by decide)) _ hb (by decide)) (by decide) _ _
    exact .ite (can_accept hy _ _) hy
  | lostArbitration => exact can_wb (hrun _ h) _ hb (by decide)
  | dataBitError =>
    dsimp -zeta only
    extract_lets n v w
    have hv : CanConfined ch s v := can_txError (hrun _ h) _
    exact can_failed (.ite (can_raise hv (by decide) _ _) hv) hb _
  | ackError dominant => exact can_failed (can_txError (can_ackRun (hrun _ h) _) _) hb _
  | otherError => exact can_failed (can_txError (hrun _ h) _) hb _
  | exemptError => exact can_failed (can_txError (hrun _ h) _) hb _

/-- The buffer that a selection takes is one of the three (R416). -/
theorem arbWinner_lt (h : s.arbWinner ch = some b) : b < 3 := by
  have hall : ∀ x, s.arbWinner ch = some x → x < 3 := by
    unfold State.arbWinner
    refine List.foldlRecOn (motive := fun w : Option Nat => ∀ x, w = some x → x < 3) _ _ (fun x hx => nomatch hx) fun w hw y hy x hx => ?_
    have hy3 : y < 3 := List.mem_range.mp (List.mem_of_mem_filter hy)
    split at hx
    · exact Option.some.inj hx ▸ hy3
    next c =>
      split at hx
      · exact Option.some.inj hx ▸ hy3
      · exact hw x hx
  exact hall b h

end

/-- Every command of a CAN channel is confined to it. -/
theorem channel_keeps (t : Nat) (r : Requester) (ch : Fin 16) (v : Word) (m : BitVec 3) (res : CanTxResult) (f : CanFrame) (k : CanErr) (back : Nat)
    (dl : Option Nat) (s : State) (hsend : ∀ b, (s.canX ch).sending = some b → b < 3) : ∀ c ∈ [Instr.canModeWrite t r ch v, .canIntegrated t ch,
      .txReq t r ch m, .cancel t r ch m, .canSelection t ch, .canTxAttemptEnd t ch ⟨res, back, dl⟩, .canFrameRx t ch ⟨f, back⟩,
      .canRxError t ch k, .rxAck t r ch, .recover t r ch, .recovered t ch, .cfdCtrClr t r ch], Keeps (canPages ch) (canView ch) c s := by
  have hblind := can_blind ch.val
  have hown := can_mem ch.val
  have hifx : (⟨4, 0⟩ : Page) ∈ canPages ch := List.mem_cons_of_mem _ List.mem_cons_self
  simp only [List.forall_mem_cons, List.not_mem_nil, false_implies, implies_true, and_true]
  refine ⟨?mode, ?integrated, ?request, ?cancel, ?selection, ?attempt, ?frame, ?error, ?ack, ?recover, ?recovered, ?clear⟩
  case mode =>
    refine keeps_pageWrite hblind hown hifx ?_ rfl
    intro w hw
    have hsending : ∀ b, (w.canX ch).sending = some b → b < 3 := fun b hb => hsend b (by rwa [State.canX, hw.can] at hb)
    extract_lets +onlyGivenNames m refuse ts opts same o s1
    have hrefuse : ∀ {z : State} (n : Nat), CanConfined ch w z → CanConfined ch w (refuse z n) := fun n hz =>
      can_w (can_w hz n (by decide)) _ (by decide)
    have hopts : CanConfined ch w o := can_w (can_w (can_w (can_w (can_refl w) _ (by decide)) _ (by decide)) _ (by decide)) _ (by decide)
    have hs1 : CanConfined ch w s1 := .ite (.ite (hopts.clampCount hown _ _) hopts) (.ite (can_refl w) (hrefuse 3 (can_refl w)))
    have hcan : s1.can = w.can := by
      have ho : o.can = w.can := by rw [w_can, w_can, w_can, w_can]
      have hmode : (o.when (ts != bitsAt v.toNat 8 4) fun z => z.clampCount ⟨24, ch⟩ 0x040 8).can = w.can := by
        unfold State.when
        split
        · exact (can_clampCount o _ _ _).trans ho
        · exact ho
      unfold s1
      split
      · exact hmode
      · split
        · rfl
        · rw [inc_can, w_can]
    have hs1send : ∀ b, (s1.canX ch).sending = some b → b < 3 := fun b hb => hsending b (by rwa [State.canX, hcan] at hb)
    clear_value s1
    refine .ite (hrefuse 4 hs1) (.ite hs1 (.ite (.ite (hrefuse 1 hs1) (.ite hs1 ?_)) ?_))
    · have hz : ∀ x, CanConfined ch w ((s1.w CFD.MODE m ch).setCan ch x) := fun x => can_setCan (can_w hs1 _ (by decide)) x
      exact .ite (can_w (hz _) _ (by decide)) (hz _)
    · refine can_setCan (can_w ?_ _ (by decide)) _
      split
      next b hb => exact can_wb hs1 _ (hs1send b hb) (by decide)
      next => exact hs1
  case integrated =>
    refine keeps_runK hblind ?_ rfl
    exact .ite (can_refl _) (can_setCan (can_refl _) _)
  case request =>
    refine keeps_pageWrite hblind hown hifx ?_ rfl
    refine fun w _ => (can_refl w).forN 3 fun u b hb => ?_
    exact .ite (can_wb (can_wb (can_wb (can_refl u) _ hb (by decide)) _ hb (by decide)) _ hb (by decide)) (can_refl u)
  case cancel =>
    refine keeps_pageWrite hblind hown hifx ?_ rfl
    refine fun w _ => (can_refl w).forN 3 fun u b hb => ?_
    exact .ite (can_refl u) (.ite (can_wb (can_refl u) _ hb (by decide)) (.ite (can_setCan (can_refl u) _) (can_refl u)))
  case selection =>
    refine keeps_runK hblind ?_ rfl
    refine .ite ?_ (can_refl _)
    split
    · exact can_refl _
    next b hb =>
      have hlt := arbWinner_lt hb
      exact can_setCan (can_wb (can_wb (can_refl _) _ hlt (by decide)) _ hlt (by decide)) _
  case attempt =>
    refine keeps_runK hblind ?_ rfl
    split
    · exact can_refl _
    next b hb => exact can_setCan (can_attemptEnd (can_measure (can_refl _) _ _) (hsend b hb) _ _) _
  case frame =>
    refine keeps_runK hblind ?_ rfl
    exact .ite (can_accept (can_rxDown (can_ackRun (can_refl _) _)) _ _) (can_refl _)
  case error =>
    refine keeps_runK hblind ?_ rfl
    exact .ite (can_count (can_w (can_refl _) _ (by decide)) _ _) (can_refl _)
  case ack =>
    refine keeps_pageWrite hblind hown hifx ?_ rfl
    exact fun w _ => can_level (can_w (can_setCan (can_refl w) _) _ (by decide)) (by decide) _
  case recover =>
    refine keeps_pageWrite hblind hown hifx ?_ rfl
    exact fun w _ => .ite (can_level (can_w (can_setCan (can_refl w) _) _ (by decide)) (by decide) _)
      (can_w (can_w (can_refl w) _ (by decide)) _ (by decide))
  case recovered =>
    refine keeps_runK hblind ?_ rfl
    exact .ite (can_raise (can_setCan (can_count (can_w (can_refl _) _ (by decide)) _ _) _) (by decide) _ _) (can_refl _)
  case clear =>
    refine keeps_pageWrite hblind hown hifx ?_ rfl
    exact fun w _ => (((can_refl w).rstF hown (by decide)).rstF hown (by decide)).rstF hown (by decide)

end Sys2Proof.BusFrameLaws
end

section
/-! EIC: the registers and records that its commands change, and the settlement of O60 (R346 to R372, R411 to R436). -/

namespace Sys2Proof.EventFrameLaws

open Sys2Proof Sys2Proof.Machine Sys2Proof.Laws Sys2Proof.ConfinedLaws Sys2Proof.PortFrameLaws Sys2Proof.BusFrameLaws

variable {s u : State} {t : Nat} {r : Requester}

/-- The pages that EIC's commands change. -/
def eicPages : List Page := [⟨5, 0⟩, ⟨4, 0⟩]

/-- What EIC's commands leave: of an engine, all but the offer that stands for it. -/
def eicView (s : State) := (s.queues, s.tmk, s.dataMem, fun e => { s.eng e with offered := none })

section
variable {n e : Nat}

theorem eic_blind : Blind eicView := fun s u h => by
  have hx : ∀ e, u.eng e = s.eng e := fun e => by rw [State.eng, h.engines, State.eng]
  simp only [eicView, hx, h.queues, h.tmk, h.dataMem]

abbrev EicConfined : State → State → Prop := Confined eicPages eicView

theorem eic_refl (s : State) : EicConfined s s := .refl eic_blind s

theorem eic_mem : (⟨5, 0⟩ : Page) ∈ eicPages := List.mem_cons_self

/-- A register of EIC. -/
theorem eic_w {f : Fld} (h : EicConfined s u) (x : Nat) (hf : f.code = 5 ∧ f.off < 4096 ∧ f.lsb < 32) : EicConfined s (u.w f x) :=
  h.w x (hf.1 ▸ eic_mem) (by rw [Nat.zero_mul]; exact hf.2)

/-- A repeated register of EIC. -/
theorem eic_wi {f : Fld} {m i : Nat} (h : EicConfined s u) (x : Nat) (hi : i < m) (hf : f.code = 5 ∧ f.off + (m - 1) * f.stride < 4096 ∧ f.lsb < 32) :
    EicConfined s (u.w f x 0 i) := h.w x (hf.1 ▸ eic_mem) (place_of_last hi hf.2)

theorem eic_setSrc (h : EicConfined s u) (n : Nat) (x : SourceX) : EicConfined s (u.setSrc n x) := h.own rfl rfl

/-- An offer of an engine changes nothing else of it. -/
theorem eic_setOffered (h : EicConfined s u) {x : EngineX} (hx : { x with offered := none } = { u.eng e with offered := none }) :
    EicConfined s (u.setEng e x) := by
  refine h.own rfl ?_
  have heng : (fun d => { (u.setEng e x).eng d with offered := none }) = fun d => { u.eng d with offered := none } := funext fun d => by
    by_cases hd : d = e
    · subst hd
      rw [State.setEng, State.eng, sget_sset_same]
      exact hx
    · rw [State.setEng, State.eng, sget_sset_ne _ _ _ _ hd]
      rfl
  simp only [eicView, heng]
  rfl

theorem eic_dropOffer (h : EicConfined s u) (he : e < 4) : EicConfined s (u.dropOffer e) :=
  eic_setOffered (eic_wi (eic_wi h _ he (by decide)) _ he (by decide)) rfl

theorem eic_offerSource (h : EicConfined s u) (he : e < 4) (src : Nat) : EicConfined s (u.offerSource src e) :=
  eic_setOffered (eic_wi (eic_wi h _ he (by decide)) _ he (by decide)) rfl

/-! ### The routing decision (R351) -/

theorem argMin_mem {rank : Nat → Nat} {xs : List Nat} : argMin rank xs = some e → e ∈ xs := by
  induction xs generalizing e with
  | nil => exact fun h => nomatch h
  | cons x xs ih =>
    intro h
    unfold argMin at h
    split at h
    · exact Option.some.inj h ▸ List.mem_cons_self
    next y hy =>
      split at h
      · exact List.mem_cons_of_mem _ (Option.some.inj h ▸ ih hy)
      · exact Option.some.inj h ▸ List.mem_cons_self

theorem mem_insertSource {prio : Nat → Nat} {x y : Nat} {xs : List Nat} (h : y ∈ insertSource prio x xs) : y = x ∨ y ∈ xs := by
  induction xs with
  | nil => exact .inl (List.mem_singleton.mp h)
  | cons z zs ih =>
    unfold insertSource at h
    split at h
    · exact List.mem_cons.mp h
    · rcases List.mem_cons.mp h with rfl | htail
      · exact .inr List.mem_cons_self
      · exact (ih htail).imp_right (List.mem_cons_of_mem _)

theorem routeOrder_lt (h : n ∈ s.routeOrder) : n < 256 := by
  have hall : ∀ x ∈ s.routeOrder, x < 256 := by
    unfold State.routeOrder
    refine List.foldlRecOn (motive := fun l : List Nat => ∀ x ∈ l, x < 256) _ _ (fun x hx => nomatch hx) fun l hl y hy x hx => ?_
    rcases mem_insertSource hx with rfl | hmem
    · exact List.mem_range.mp (List.mem_of_mem_filter hy)
    · exact hl x hmem
  exact hall n h

theorem eic_routeSource (s : State) (hn : n < 256) : EicConfined s (s.routeSource n) := by
  unfold State.routeSource
  extract_lets p cand held free v
  have hv : EicConfined s v := .ite (eic_wi (eic_refl s) _ (m := 16) (by omega) (by decide)) (eic_refl s)
  have hfree : ∀ e ∈ free, e < 4 := fun e he => by
    have hcand : e ∈ cand := by
      unfold free at he
      split at he
      · exact List.mem_of_mem_filter he
      · exact he
    have htarget : e ∈ s.targets n := by
      unfold cand at hcand
      exact List.mem_of_mem_filter hcand
    unfold State.targets at htarget
    exact List.mem_range.mp (List.mem_of_mem_filter htarget)
  clear_value v free
  refine .ite (eic_refl s) ?_
  split
  · exact hv
  next e he => exact eic_offerSource hv (hfree e (argMin_mem he)) n

theorem eic_route (s : State) : EicConfined s s.route := by
  unfold State.route
  extract_lets v
  have hv : EicConfined s v := (eic_refl s).forN 4 fun w e he => .ite (eic_refl w) (eic_dropOffer (eic_refl w) he)
  exact hv.foldl _ fun w n hn => eic_routeSource w (routeOrder_lt hn)

/-! ### Sources (R347, R349, R351, R353) -/

theorem eic_latch (h : EicConfined s u) (hn : n < 256) : EicConfined s (u.latch n) := by
  have hmerge : EicConfined s (u.inc EIC.MERGES 0 (n / 16)) := eic_wi (m := 16) h _ (by omega) (by decide)
  unfold State.latch
  refine .ite h ?_
  split
  · exact eic_setSrc h n _
  · exact hmerge
  · exact (eic_setSrc h n _).inc _ eic_mem (by decide)
  · exact hmerge

theorem eic_srcCfg (s : State) (hn : n < 256) (v : Word) : EicConfined s (s.srcCfg n v) := by
  unfold State.srcCfg
  extract_lets en w x y
  have hw : EicConfined s w := eic_wi (eic_wi (eic_wi (eic_refl s) _ hn (by decide)) _ hn (by decide)) _ hn (by decide)
  have hx : EicConfined s x := .ite (hw.clampCount eic_mem _ _) hw
  clear_value x
  refine .ite hx ?_
  split
  · refine (eic_setSrc hx n _).forN 4 fun z e he => ?_
    exact .ite (eic_dropOffer (eic_refl z) he) (eic_refl z)
  · exact eic_setSrc hx n _
  · exact hx

end

/-- Every command of EIC is confined to it. -/
theorem eic_keeps (t : Nat) (r : Requester) (n : Fin 256) (g : Fin 16) (v : Word) (s : State) : ∀ c ∈ [Instr.eicSourceEdge t n, .eicRoute t,
    .modIntervalEnd t g, .setSrc t r n, .srcCfgWrite t r n v, .pendingAged t n, .eicCtrClr t r], Keeps eicPages eicView c s := by
  have hown := eic_mem
  have hifx : (⟨4, 0⟩ : Page) ∈ eicPages := List.mem_cons_of_mem _ List.mem_cons_self
  simp only [List.forall_mem_cons, List.not_mem_nil, false_implies, implies_true, and_true]
  refine ⟨?edge, ?route, ?interval, ?set, ?config, ?aged, ?clear⟩
  case edge =>
    refine keeps_runK eic_blind ?_ rfl
    exact .ite (eic_latch ((eic_refl _).own rfl rfl) n.isLt) (eic_refl _)
  case route =>
    refine keeps_runK eic_blind ?_ rfl
    exact eic_route _
  case interval =>
    refine keeps_runK eic_blind ?_ rfl
    exact .ite ((eic_refl _).own rfl rfl) (eic_refl _)
  case set =>
    refine keeps_pageWrite eic_blind hown hifx ?_ rfl
    intro w _
    extract_lets v
    have hv : EicConfined w v := .ite (eic_refl w) ((eic_refl w).own rfl rfl)
    exact hv.own rfl rfl
  case config =>
    refine keeps_pageWrite eic_blind hown hifx ?_ rfl
    exact fun w _ => eic_srcCfg w n.isLt v
  case aged =>
    refine keeps_runK eic_blind ?_ rfl
    exact .ite ((eic_w (eic_refl _) _ (by decide)).raise hown (by decide) _ _) (eic_refl _)
  case clear =>
    refine keeps_pageWrite eic_blind hown hifx ?_ rfl
    exact fun w _ => ((((eic_refl w).rstF hown (by decide)).rstF hown (by decide)).rstF hown (by decide)).rstF hown (by decide)

/-! ### The obligation -/

/-- A view that hides one record leaves the others. -/
theorem others_kept {β : Type} {x y : Nat → β} {ch d : Nat} (h : (fun d => if d = ch then none else some (y d)) = fun d => if d = ch then none else some (x d))
    (hd : d ≠ ch) : y d = x d := by
  have hat := congrFun h d
  rw [if_neg hd, if_neg hd] at hat
  exact Option.some.inj hat

/-- Settles O60: every command writes fields of its own page, or of IFX for a stray access, and each family's view of the records stands. -/
theorem channelFrames : Obligations.ChannelFrames := by
  unfold Obligations.ChannelFrames
  intro t r c s u hstep
  refine ⟨?serial, ?can, ?eic, ?port⟩
  case serial =>
    intro ch b p f hc
    obtain ⟨-, hregs, hview⟩ := serial_keeps t r ch b p f s c hc u hstep
    simp only [serView, Prod.mk.injEq] at hview
    obtain ⟨hser, hcan, heng, hdch, htmk, hmem, haon⟩ := hview
    exact ⟨hregs, fun d hd => others_kept hser fun heq => hd (Fin.ext heq), hcan, heng, hdch, htmk, hmem, haon⟩
  case can =>
    intro ch v m res f k back dl hc hsend
    obtain ⟨-, hregs, hview⟩ := channel_keeps t r ch v m res f k back dl s hsend c hc u hstep
    simp only [canView, Prod.mk.injEq] at hview
    obtain ⟨hcan, hser, heng, hdch, htmk, hmem, haon⟩ := hview
    exact ⟨hregs, fun d hd => others_kept hcan fun heq => hd (Fin.ext heq), hser, heng, hdch, htmk, hmem, haon⟩
  case eic =>
    intro n g v hc
    obtain ⟨-, hregs, hview⟩ := eic_keeps t r n g v s c hc u hstep
    simp only [eicView, Prod.mk.injEq] at hview
    obtain ⟨hqueues, htmk, hmem, heng⟩ := hview
    refine ⟨hregs, hqueues, htmk, hmem, fun e => ?_⟩
    exact congrArg (fun x : EngineX => { x with offered := (u.eng e).offered }) (congrFun heng e)
  case port =>
    intro p q v x on sp w hc hroute hbuf
    obtain ⟨-, hregs, hview⟩ := port_keeps t r p q v x on sp w s hroute hbuf c hc u hstep
    simp only [hqeView, Prod.mk.injEq] at hview
    obtain ⟨hsources, heng, htmk, hmem⟩ := hview
    exact ⟨hregs, hsources, heng, htmk, hmem⟩

end Sys2Proof.EventFrameLaws
end
